-- ==== Sys2Proof/Word.lean ====
section
/-! DEFINITION. The word types of the block: a byte, a 32-bit register (R43), a 64-bit value (two registers, R45),
and the sparse table type in which all indexed state is held. -/

namespace Sys2Proof

/-- One byte. -/
abbrev Byte := BitVec 8

/-- One register: 32 bits (R43). -/
abbrev Word := BitVec 32

/-- A 64-bit value: two consecutive registers, low word first (R45). -/
abbrev DWord := BitVec 64

/-- A sparse table: (key, value) pairs, keys strictly rising, no value equal to the table's default. -/
abbrev Tab (α : Type) := List (Nat × α)

end Sys2Proof
end

