-- ==== Sys2Proof/Config.lean ====
section
/-! DEFINITION. What an implementation fixes and the spec does not state, and the free values: constants with no body,
so that nothing can be proved about the value they take. -/

namespace Sys2Proof

/-- A value the spec leaves open, applied to a counter of the state: a fresh, unconstrained value at each use (log 6). -/
opaque Config.freeValue : Nat → BitVec 64

/-- PAGE_REV.MINOR of a block type: it may differ between blocks (R54). -/
opaque Config.revMinor : Nat → BitVec 8

/-- PAGE_REV.STEPPING of a block type on a die: it may differ between dies (R54). -/
opaque Config.stepping : Nat → Nat → BitVec 16

/-- The module's serial number, as UNLOCK_REQ shifts it out (R613). -/
opaque Config.serial : BitVec 64

end Sys2Proof
end

