-- ==== Sys2Proof/Syntax.lean ====
section
/-! DEFINITION. The commands of the block (the rows of the spec's opcode table) and the types of their operands. -/

namespace Sys2Proof

/-- Who makes a register access (R45, R76): a PCIe function (0 is PF0, 1–127 are VFs), a keeper of the accessed
channel, JTAG (which acts with PF0's rights, R614) or the SMBus port (R612). -/
inductive Req where
  | func (n : Nat)
  | keeperA
  | keeperB
  | jtag
  | smbus
deriving DecidableEq, Repr

/-- A 64-byte access of a PC queue (R507): source, direction, PC byte address; whether it activates a row of a bank; the ECC
outcome of its words (0 good, 1 corrected, 2 uncorrectable), the syndrome, and the stack's severity report. -/
structure HbmAcc where
  src : Nat
  write : Bool
  addr : Nat
  act : Bool
  bank : Nat
  ecc : Nat
  syn : Nat
  sev : Nat
deriving DecidableEq, Repr

/-- The oscillator model record (R154, R159): binary64 and binary32 values as their bit patterns; EPOCH as T64. -/
structure OscModel where
  epoch : Nat := 0
  c0 : Nat := 0
  c1 : Nat := 0
  c2 : Nat := 0
  c3 : Nat := 0
  a1 : Nat := 0
  a2 : Nat := 0
  ef : Nat := 0
  ea : Nat := 0
  et : Nat := 0
  w : Nat := 0
  tmin : Nat := 0
  tmax : Nat := 0
deriving DecidableEq, Repr

/-- What the keeper's PTP engine finds of one PTP port in a second (R136, R145, R171): portState, delay exchanges completed,
meanPathDelay in ns, the master's offset from network time in units of 125 ps, and the clockClass of its parent. -/
structure PtpIn where
  port : Nat
  state : Nat
  exch : Nat
  delay : Nat
  offset : Int
  parent : Option Nat
deriving DecidableEq, Repr

/-- What the keepers do in the cycle that a boundary ends (R85, R92, R142): whether keeper A and keeper B wrote their heartbeats, and
the PTP messages that the active keeper sends, with their ports. -/
structure CycleIn where
  beatA : Bool
  beatB : Bool
  ptp : List (Nat × List Byte)
deriving DecidableEq, Repr

/-- What the active keeper measures in one second of network time (R136–R156): its PTP ports, an Announce receipt timeout on the
SLAVE port, for REC0 and REC1 a recovered frequency within ±9.2 ppm and the received QL (15 is DNU), the filtered |offset| in ns
while LOCKED, the model as its fit leaves it, and what the frequency monitor measures while both clocks are present: the difference that
converts a frequency on OSC_IN to one on REFCLK, in units of 2^-48 (R131). -/
structure ServoIn where
  ports : List PtpIn
  announceTo : Bool
  recOk0 : Bool
  recOk1 : Bool
  ql0 : Nat
  ql1 : Nat
  filt : Nat
  fit : Option OscModel
  mon : Int
deriving DecidableEq, Repr

/-- The arrays of a die that BIST could not repair (R572): table banks, clusters and Strainer pipelines as bits, the keeper's SRAM, any
other array, and the number of the first. -/
structure BistIn where
  banks : Nat
  clusters : Nat
  pipes : Nat
  keeper : Bool
  other : Bool
  first : Nat
deriving DecidableEq, Repr


/-- The commands of the block: one constructor per row of the spec's opcode table. -/
inductive Instr where
  /-- POWER_ON (R592): PWR_IN rises through the 5.8 V lockout, the converters soft-start and a power-on reset of every domain begins. -/
  | powerOn 
  /-- POWER_LOSS (R592): PWR_IN stays below 5.4 V for 50 µs, every converter stops and all volatile state is lost. -/
  | powerLoss 
  /-- INPUT_OVERVOLTAGE (R593): PWR_IN stays above 62.0 V for 10 µs, every channel converter switches off and the module is PACKAGE_FATAL with LAST_FAULT OV. -/
  | inputOvervoltage 
  /-- INPUT_OVERCURRENT (R593): Input power stays above 1.25 times the rating for 1 ms, the module goes PACKAGE_FATAL with LAST_FAULT OC. -/
  | inputOvercurrent 
  /-- PWRGOOD_RISE (R603): PWRGOOD is released high, the straps are latched and channels with CH_AUTO = 1 begin powering. -/
  | pwrgoodRise (straps : Nat)
  /-- PWRGOOD_HOLD_LOW (R604): An outside driver holds PWRGOOD low, which holds the module in power-on reset. -/
  | pwrgoodHoldLow 
  /-- PERST_ASSERT (R597): PERST_N asserts or a hot reset arrives: the host island resets, every ring stops and the channels keep forwarding. -/
  | perstAssert 
  /-- PERST_DEASSERT (R597): PERST_N deasserts, the host island leaves reset, relocks JTAG and begins link training without reloading running channels. -/
  | perstDeassert 
  /-- PCIE_LINK_TRAINED (R558): The PCIe link reaches L0 or changes speed or width, LINK_STAT updates and LINK_CHANGE is raised and journalled. -/
  | pcieLinkTrained (speed width : Nat) (flit : Bool)
  /-- FLR (R535): A Function Level Reset of one function stops its rings, abandons their DMA, resets its MSI-X state and counts the event. -/
  | flr (f : Nat)
  /-- VF_ENABLE_CHANGE (R534): VF Enable changes; going to 1 applies VF_BAR0, and going to 0 acts as an FLR of every VF. -/
  | vfEnableChange (on : Bool)
  /-- MSIX_UNMASK (R66): A function's MSI-X becomes able to receive, and each held page message whose line is still asserted is sent. -/
  | msixUnmask (f vmask : Nat)
  /-- CH_RST_ASSERT (R599): CHc_RST_N asserts for at least 1 µs and holds the channel in reset, discarding its state and journal. -/
  | chRstAssert (c : Fin 4)
  /-- CH_RST_RELEASE (R599): CHc_RST_N is released with RESET = 0 and PD = 0, and the channel moves to POWERING. -/
  | chRstRelease (c : Fin 4)
  /-- CH_RESET_WRITE (R599): A write of PWR.CH_CTRL.RESET holds the channel in reset, or releases it into POWERING. -/
  | chResetWrite (r : Req) (c : Fin 4) (v : Word)
  /-- CH_PD_WRITE (R599): A write of PWR.CH_CTRL.PD switches the channel's converters off within 100 µs, or lets the channel power up. -/
  | chPdWrite (r : Req) (c : Fin 4) (v : Word)
  /-- CH_RAILS_GOOD (R598): The channel's converters finish sequencing, the dies leave reset and the channel enters BIST. -/
  | chRailsGood (c : Fin 4)
  /-- BIST_DONE (R572): The BIST of a die's SRAM arrays completes and unrepairable arrays are handled by kind; the channel then enters WAIT_FW. -/
  | bistDone (c : Fin 4) (die : Fin 2) (b : BistIn)
  /-- REFCLK_LOSS (R587): The channel's SerDes REFCLK is lost and the channel becomes CHANNEL_FATAL. -/
  | refclkLoss (c : Fin 4)
  /-- SENSOR_SAMPLE (R584): The 1 ms sampling of temperatures and rails judges WARN, CRIT, SHUT and rail limits. -/
  | sensorSample (c : Fin 4) (die : Fin 3) (temps : List Nat) (rails : List (Nat × Nat)) (mv ma pw : Nat)
  /-- RAIL_SHUTDOWN (R584): A rail stays outside ±10 % for 100 µs and is handled as a SHUT condition. -/
  | railShutdown (c : Fin 4) (die : Fin 3) (rail : Nat)
  /-- OSC_THERM_SAMPLE (R609): The 100 ms measurement of the oscillator thermistor updates PWR.OSC_THERM and its VALID bit. -/
  | oscThermSample (c : Fin 4) (reading : Nat)
  /-- REG_WRITE (R47): A register write to a register that has no row of its own is checked in order and then applied, or rejected as a whole. -/
  | regWrite (r : Req) (addr : Nat) (v : Word) (full : Bool)
  /-- RC_FIELD_READ (R44): A read of an RC field returns its value and clears it, and an event in the same cycle survives the clear. -/
  | rcFieldRead (r : Req) (addr : Nat)
  /-- READ_LOW_WORD (R45): A read of the low word of a 64-bit value returns it and latches the whole value for the requester. -/
  | readLowWord (r : Req) (addr : Nat)
  /-- READ_HIGH_WORD (R45): A read of the high word returns the latched high word if the latch holds that register, and otherwise the live one. -/
  | readHighWord (r : Req) (addr : Nat)
  /-- WRITE_LOW_WORD (R46): A write to the low word of a 64-bit value is staged in the requester's latch and changes nothing. -/
  | writeLowWord (r : Req) (addr : Nat) (v : Word)
  /-- WRITE_HIGH_WORD (R46): A write to the high word commits both words in one block clock cycle. -/
  | writeHighWord (r : Req) (addr : Nat) (v : Word)
  /-- UNSUPPORTED_ACCESS (R43): A request of another length or alignment completes with Unsupported Request and changes nothing. -/
  | unsupportedAccess (r : Req) (addr : Nat)
  /-- SOFT_RESET (R58): A write of PAGE_CTRL.SOFT_RESET sets BUSY, clears READY and returns the block's working state to reset. -/
  | softReset (r : Req) (addr : Nat)
  /-- SOFT_RESET_DONE (R58): A block finishes its soft reset, clears BUSY and sets READY. -/
  | softResetDone (addr : Nat)
  /-- ENABLE_WRITE (R59): A write of PAGE_CTRL.ENABLE starts or stops the block's work. -/
  | enableWrite (r : Req) (addr : Nat) (on : Bool)
  /-- QUIESCE_REQ (R60): A write of PAGE_CTRL.QUIESCE_REQ asks the block to finish in-flight work, or resumes the block when cleared. -/
  | quiesceReq (r : Req) (addr : Nat) (on : Bool)
  /-- QUIESCE_DONE (R60): A block's in-flight work completes, and it sets QUIESCED and INT_CAUSE.QUIESCE_DONE. -/
  | quiesceDone (addr : Nat)
  /-- TEST_TAKEOVER_CLEAR (R61): Clearing PAGE_CTRL.TEST_TAKEOVER stops a running disruptive test at its next safe point. -/
  | testTakeoverClear (r : Req) (addr : Nat)
  /-- INT_FORCE (R63): A write of INT_FORCE sets the written bits of INT_CAUSE exactly as the event would. -/
  | intForce (r : Req) (addr : Nat) (v : Word)
  /-- TALLY_CLEAR (R73): A write of TALLY_CTRL.CLEAR sets CNT0–CNT7 and OVF_STICKY to 0. -/
  | tallyClear (r : Req) (addr : Nat)
  /-- RELAY_FLIT_RX (R25): A relay link flit arrives, its CRC-32 is checked, and a failing flit is replayed. -/
  | relayFlitRx (c : Fin 4) (crcOk : Bool)
  /-- RELAY_AUTO_RETRAIN (R25): With AUTO = 1, the 100 ms timer retrains a DOWN relay link. -/
  | relayAutoRetrain (c : Fin 4)
  /-- RELAY_RETRAIN (R25): A write of RELAY.LINK_CTRL.RETRAIN = 1 retrains the relay link. -/
  | relayRetrain (r : Req) (c : Fin 4) (v : Word)
  /-- RELAY_RETRAIN_DONE (R25): A relay retrain completes, and the link reads UP or DOWN. -/
  | relayRetrainDone (c : Fin 4) (ok : Bool)
  /-- LOCKSTEP_MISMATCH (R80): The comparator sees a mismatch of the keeper cores, forces the claim to 0x00, blocks the outputs and enters REPAIR. -/
  | lockstepMismatch (c : Fin 4) (k : Fin 2)
  /-- SELF_DIAG_FAIL (R92): Keeper firmware self-diagnosis fails, and the keeper drops its claim and enters REPAIR. -/
  | selfDiagFail (c : Fin 4) (k : Fin 2)
  /-- KEEPER_SRAM_UE (R92): An uncorrectable ECC error in keeper SRAM drops the claim, enters REPAIR and may clear REGION_VALID. -/
  | keeperSramUe (c : Fin 4) (k : Fin 2) (replicated : Bool)
  /-- KEEPER_CYCLE_BOUNDARY (R85): A 250 µs keeper boundary arrives: the standby commits its copy, claims are sampled, the watchdog judges, and the cycle's work begins. -/
  | keeperCycleBoundary (c : Fin 4) (inp : CycleIn)
  /-- WDOG_FORCE_CLAIM (R92): 1 µs after the fourth missed boundary, the watchdog forces the claim to 0x00. -/
  | wdogForceClaim (c : Fin 4) (k : Fin 2)
  /-- COPY_POINT (R98): At b + 170 µs the active keeper sends the delta of its replicated state over the Saucer link, with at most one retry. -/
  | copyPoint (c : Fin 4) (tooBig : Bool) (bad : Nat)
  /-- CLAIM_WRITE (R91): A keeper writes its KEEP.CLAIM, lowering it at once or raising it as allowed. -/
  | claimWrite (c : Fin 4) (k : Fin 2) (v : Nat)
  /-- KEEPER_WRITE (R87): A keeper writes a claim-gated page, and the gate accepts or refuses it against the claims in force. -/
  | keeperWrite (c : Fin 4) (k : Fin 2) (die : Fin 2) (page off : Nat) (v : Word)
  /-- REPAIR_CHECK_DONE (R101): A repairing keeper finishes checking its code region and enters FAILED or RESYNC. -/
  | repairCheckDone (c : Fin 4) (k : Fin 2) (res : Nat)
  /-- PARTNER_ABSENT_TIMEOUT (R104): After 400 boundaries with the partner at 0x00, the keeper skips resync and raises its claim as the preferred keeper does. -/
  | partnerAbsentTimeout (c : Fin 4) (k : Fin 2)
  /-- KEEPER_BOOT_DONE (R104): A keeper finishes BOOT and either raises its claim as the preferred keeper or waits for a resync. -/
  | keeperBootDone (c : Fin 4) (k : Fin 2)
  /-- FW_LOAD (R108): A write of KEEP.FW_CTRL.LOAD starts a firmware load, or is refused or ignored according to the keeper's state. -/
  | fwLoad (r : Req) (c : Fin 4) (k : Fin 2)
  /-- FW_LOAD_DONE (R107): A firmware fetch and its checks end, setting FW_STAT.RESULT and leaving the keeper in BOOT or FAILED. -/
  | fwLoadDone (c : Fin 4) (k : Fin 2) (header code : List Byte) (sigOk : Bool) (dma : Nat)
  /-- KEEP_SOFT_RESET (R120): SOFT_RESET of a KEEP page resets that keeper alone, drops its claim and abandons any load. -/
  | keepSoftReset (r : Req) (c : Fin 4) (k : Fin 2)
  /-- KEEP_ENABLE_WRITE (R120): A write of KEEP PAGE_CTRL.ENABLE holds the keeper in OFF, or starts BOOT. -/
  | keepEnableWrite (r : Req) (c : Fin 4) (k : Fin 2) (on : Bool)
  /-- GET_INFO (R112): Service command 0x01 returns FW_VER, STATE_FMT, SVN and cycles since BOOT. -/
  | getInfo (r : Req) (c : Fin 4) (k : Fin 2) (tag : Nat)
  /-- HANDOVER (R110): Service command 0x02 is accepted when the partner is a ready standby, and arranges the claim drop. -/
  | handover (r : Req) (c : Fin 4) (k : Fin 2) (tag : Nat)
  /-- HANDOVER_CLAIM_DROP (R110): After the cycle's copy is sent, the handing-over keeper drops its claim to 0x00 and enters REPAIR. -/
  | handoverClaimDrop (c : Fin 4)
  /-- JRNL_MARK (R112): Service command 0x03 writes a HOST_MARKER entry carrying ARG0–3. -/
  | jrnlMark (r : Req) (c : Fin 4) (k : Fin 2) (tag : Nat)
  /-- SVN_COMMIT (R112): Service command 0x04 fuses the running SVN as the minimum when both keepers run it. -/
  | svnCommit (r : Req) (c : Fin 4) (k : Fin 2) (tag : Nat)
  /-- SVC_BAD_OPCODE (R112): A service command with a reserved opcode completes with BAD_OPCODE. -/
  | svcBadOpcode (r : Req) (c : Fin 4) (k : Fin 2) (tag op : Nat)
  /-- KEEPER_HALT (R93): JTAG KEEPER_CTL with GO = 1 and halt set halts the keeper's cores. -/
  | keeperHalt (c : Fin 4) (k : Fin 2)
  /-- KEEPER_RESUME (R93): JTAG KEEPER_CTL with GO = 1 and halt clear resumes the cores, which enter REPAIR if FORCED is set. -/
  | keeperResume (c : Fin 4) (k : Fin 2)
  /-- JRNL_CLEAR (R127): A write of JRNL.CTRL.CLEAR empties the journal and lets the sequence numbers continue. -/
  | jrnlClear (r : Req) (c : Fin 4)
  /-- JRNL_UNFREEZE (R126): A write of JRNL.CTRL.UNFREEZE ends a freeze and writes an UNFROZEN entry. -/
  | jrnlUnfreeze (r : Req) (c : Fin 4)
  /-- JRNL_RD_IDX_WRITE (R128): A write of JRNL.RD_IDX snapshots the indexed entry, whole, into RD_DATA0–7. -/
  | jrnlRdIdxWrite (r : Req) (c : Fin 4) (die : Fin 2) (idx : Nat)
  /-- JRNL_STREAM_ENTRY (R129): The active keeper copies the next unsent entry, in SEQ order, to the journal stream ring when the ring has room. -/
  | jrnlStreamEntry (c : Fin 4) (desc : List Byte) (descErr dmaErr : Bool)
  /-- OSC_FAIL (R131): OSC_IN stops or leaves ±50 ppm, and the Cosy counter changes to REFCLK within 1 µs. -/
  | oscFail (c : Fin 4) (stopped : Bool) (ppb : Nat)
  /-- CLK_RETURN (R131): A keeper write of COSY.CLK_CTRL.RETURN moves the counter back to OSC_IN while OSC_OK is 1. -/
  | clkReturn (c : Fin 4) (k : Fin 2)
  /-- TOD_SNAPSHOT (R134): A read of COSY.TOD_W0 takes the requester's T96 snapshot and returns FNS. -/
  | todSnapshot (r : Req) (c : Fin 4)
  /-- PPS_IN_EDGE (R138): A PPS_IN edge of the set polarity is stamped with 125 ps resolution and corrected by DELAY. -/
  | ppsInEdge (c : Fin 4) (pol short : Bool)
  /-- PPS_MISS (R136): An expected PPS_IN edge does not arrive within its window, and PPS_MISS is raised. -/
  | ppsMiss (c : Fin 4)
  /-- TOD_IN_FRAME (R140): A 24-byte ToD frame delimited by SYNC is checked and accepted or rejected with a reason. -/
  | todInFrame (c : Fin 4) (bytes : List Byte)
  /-- TOD_FRAME_ABANDON (R140): The line stays idle for more than two character times inside a frame, and the frame is abandoned. -/
  | todFrameAbandon (c : Fin 4)
  /-- COSY_STEP (R151): A keeper write of COSY.STEP_CTRL.GO steps the counter by STEP_OFS if the rules allow, and otherwise is refused. -/
  | cosyStep (c : Fin 4) (k : Fin 2)
  /-- SERVO_TICK (R158): A keeper write of COSY.SERVO_TICK arms or restarts the servo timeout and clears SERVO_TIMEOUT. -/
  | servoTick (c : Fin 4) (k : Fin 2) (v : Word) (work : Option ServoIn)
  /-- SERVO_TIMEOUT (R158): No tick arrives for 2 s, so hardware holds the frequency, freezes TE_BOUND and changes the state. -/
  | servoTimeout (c : Fin 4)
  /-- HW_HOLDOVER_EXPIRY (R158): Without ticks, HW_EXPIRY seconds since holdover began pass, and hardware enters HOLDOVER_EXPIRED. -/
  | hwHoldoverExpiry (c : Fin 4)
  /-- COSY_ENABLE_WRITE (R622): A write of COSY PAGE_CTRL.ENABLE stops or resumes Cosy's time inputs and outputs only. -/
  | cosyEnableWrite (r : Req) (c : Fin 4) (on : Bool)
  /-- PPS_OUT_EDGE (R160): Network time reaches a whole second, less COMP, and PPS_OUT issues its edge. -/
  | ppsOutEdge (c : Fin 4)
  /-- TOD_OUT_FRAME (R160): 100 ms after a PPS_OUT edge, TOD_OUT starts a frame that names the next edge. -/
  | todOutFrame (c : Fin 4)
  /-- SET_DEFAULT_DS (R171): Service command 0x10 sets the default PTP dataset. -/
  | setDefaultDs (r : Req) (c : Fin 4) (k : Fin 2) (tag : Nat)
  /-- SET_PORT_DS (R171): Service command 0x11 sets the dataset of one PTP port. -/
  | setPortDs (r : Req) (c : Fin 4) (k : Fin 2) (tag : Nat)
  /-- GET_PORT_DS (R171): Service command 0x12 returns the port state, meanPathDelay, offset and parent clockClass. -/
  | getPortDs (r : Req) (c : Fin 4) (k : Fin 2) (tag : Nat)
  /-- ADD_PEER (R171): Service command 0x13 adds a unicast PTP peer and returns its index. -/
  | addPeer (r : Req) (c : Fin 4) (k : Fin 2) (tag : Nat)
  /-- DEL_PEER (R171): Service command 0x14 removes a unicast peer by index. -/
  | delPeer (r : Req) (c : Fin 4) (k : Fin 2) (tag : Nat)
  /-- GET_STATUS (R171): Service command 0x15 returns COSY.STATUS, TE_BOUND, the offset and LEARN_SEC. -/
  | getStatus (r : Req) (c : Fin 4) (k : Fin 2) (tag : Nat)
  /-- SET_TIME (R171): Service command 0x16 steps time to the given value, only in FREE. -/
  | setTime (r : Req) (c : Fin 4) (k : Fin 2) (tag : Nat)
  /-- SET_TIME_PROPS (R171): Service command 0x17 sets the UTC offset, the leap flags and timeSource. -/
  | setTimeProps (r : Req) (c : Fin 4) (k : Fin 2) (tag : Nat)
  /-- SAVE_MODEL (R159): Service command 0x18 writes the 128-byte oscillator model record to host memory. -/
  | saveModel (r : Req) (c : Fin 4) (k : Fin 2) (tag : Nat) (dmaErr : Bool)
  /-- LOAD_MODEL (R159): Service command 0x19 reads, checks and restores an oscillator model record. -/
  | loadModel (r : Req) (c : Fin 4) (k : Fin 2) (tag : Nat) (rec_ : List Byte) (dmaErr : Bool)
  /-- RESET_MODEL (R171): Service command 0x1A resets the model to NONE with LEARN_SEC 0. -/
  | resetModel (r : Req) (c : Fin 4) (k : Fin 2) (tag : Nat)
  /-- ARM (R175): An ARM through HARM_CTRL or KARM_CTRL is checked in order and takes a slot, or is refused with a status. -/
  | arm (r : Req) (c : Fin 4) (kport : Bool) (target : Nat) (lateExec localOk autoFree notify : Bool)
  /-- CANCEL (R177): A CANCEL moves a pending slot to CANCELLED, or completes with ALREADY_FIRED, NOT_OWNER or NOT_PENDING. -/
  | cancel (r : Req) (c : Fin 4) (kport : Bool) (slot : Nat) (sent : Bool)
  /-- FREE (R178): A FREE returns a DONE or CANCELLED slot to FREE. -/
  | free (r : Req) (c : Fin 4) (kport : Bool) (slot : Nat)
  /-- SLOT_RD_IDX_WRITE (R180): A write of ACT.SLOT_RD_IDX loads the snapshot of the slot into SLOT_RD0–4. -/
  | slotRdIdxWrite (r : Req) (c : Fin 4) (slot : Nat)
  /-- POUR (R193): A POUR action reaches its send instant, BREW checks the time quality, and the pour happens or is refused. -/
  | pour (c : Fin 4) (slot : Nat)
  /-- GATE_SWAP (R468): A GATE_SWAP action for one list is checked, sets PENDING, locks the admin bank and computes the start S. -/
  | gateSwap (c : Fin 4) (slot : Nat)
  /-- CAL_SWITCH (R242): A CAL_SWITCH action starts a transmit calendar switch of a group, or ends with TARGET_ERR. -/
  | calSwitch (c : Fin 4) (slot : Nat)
  /-- SLOT_PAGE (R247): A SLOT_PAGE action requests a switch of the group's standby connection page at the next overhead frame boundary. -/
  | slotPage (c : Fin 4) (slot : Nat)
  /-- PORT_ENABLE (R213): A PORT_ENABLE action sets or clears PORT_CTRL.EN of a port at its instant. -/
  | portEnable (c : Fin 4) (slot : Nat)
  /-- SAMPLER (R355): A SAMPLER action starts or stops a sampler. -/
  | sampler (c : Fin 4) (slot : Nat)
  /-- PM_BIN (R254): A PM_BIN action closes the 15-minute or 24-hour bins at their boundary. -/
  | pmBin (c : Fin 4) (slot : Nat)
  /-- HBM_RETRAIN (R514): An HBM_RETRAIN action opens a retrain window on an OFFLINE group, or ends with TARGET_ERR. -/
  | hbmRetrain (c : Fin 4) (slot : Nat)
  /-- JRNL_MARKER (R173): A JRNL_MARKER action writes a TIMED_MARKER entry whose TIME equals the action time. -/
  | jrnlMarker (c : Fin 4) (slot : Nat)
  /-- STAGE (R188): A write of BREW.CTRL.STAGE starts fetching an Apusk image into bank NEXT_BREW mod 2. -/
  | stage (r : Req) (c : Fin 4) (hold : Bool)
  /-- STAGE_DONE (R327): The image fetch and checks end with OK, BAD_IMAGE or DMA_ERROR, and the banks are written on success. -/
  | stageDone (c : Fin 4) (img : List Byte) (dmaErr : Option Nat)
  /-- COMMIT (R187): A write of BREW.CTRL.COMMIT makes the staged brew current from EMPTY, or moves the state to STAGED. -/
  | commit (r : Req) (c : Fin 4) (hold : Bool)
  /-- DISCARD (R189): A write of BREW.CTRL.DISCARD starts the discard sweep of the next brew's table entries. -/
  | discard (r : Req) (c : Fin 4) (hold : Bool)
  /-- DISCARD_SWEEP_DONE (R189): The keeper's discard sweep ends, and BREW returns to IDLE or EMPTY. -/
  | discardSweepDone (c : Fin 4)
  /-- RETIRE (R194): RETIRE_DELAY elapses on COSY.LOCAL with RETIRE_HOLD clear, or the hold is cleared after it, and BREW enters RETIRING. -/
  | retire (c : Fin 4)
  /-- RETIRE_SWEEP_DONE (R194): The retire sweep completes, and BREW enters IDLE and raises RETIRED. -/
  | retireSweepDone (c : Fin 4)
  /-- POUR_TAG_SETTLE (R191): 2 µs after the pour, the dispatcher tags every packet with the new parity whatever its timestamp. -/
  | pourTagSettle (c : Fin 4)
  /-- RX_FRAME (R214): A frame arrives on a line or client port, is stamped, is checked in order, and goes to the dispatcher or is counted as dropped. -/
  | rxFrame (c : Fin 4) (port : Nat) (bytes : List Byte) (truncated fragErr : Bool) (corrCw corrSym : Nat)
  /-- FEC_UNCORR_CW (R234): An uncorrectable FEC codeword is received, counted, captured and journalled. -/
  | fecUncorrCw (c : Fin 4) (port lane syms : Nat)
  /-- PORT_CFG_WRITE (R208): A PORT_CFG write is checked against the lane rules and EN, then applied with a retrain, or refused with REFUSE. -/
  | portCfgWrite (r : Req) (c : Fin 4) (port : Nat) (v : Word)
  /-- PORT_EN_WRITE (R213): A write of PORT_CTRL.EN makes the port accept or drop frames from that instant. -/
  | portEnWrite (r : Req) (c : Fin 4) (port : Nat) (on : Bool)
  /-- PORT_DISCARD_WRITE (R215): A write of PORT_CTRL.DISCARD starts or stops discarding every received frame as a quiesce discard. -/
  | portDiscardWrite (r : Req) (c : Fin 4) (port : Nat) (on : Bool)
  /-- RECAL (R218): A write of PORT_CTRL.RECAL starts a full recalibration, refused on a live port without TEST_TAKEOVER. -/
  | recal (r : Req) (c : Fin 4) (port : Nat)
  /-- RESTART_AN (R218): A write of PORT_CTRL.RESTART_AN restarts auto-negotiation and training, under the live-port rule. -/
  | restartAn (r : Req) (c : Fin 4) (port : Nat)
  /-- CNT_CLEAR (R229): A write of PORT_CTRL.CNT_CLEAR sets the port's counters to 0. -/
  | cntClear (r : Req) (c : Fin 4) (port : Nat)
  /-- LANE_CFG_WRITE (R219): A LANE_CFG write powers a lane down or up, or changes polarity, under the refusal rules. -/
  | laneCfgWrite (r : Req) (c : Fin 4) (lane : Nat) (v : Word)
  /-- RECAL_DONE (R218): A recalibration completes or is stopped, and the port trains again. -/
  | recalDone (c : Fin 4) (port : Nat) (stopped : Bool)
  /-- LINK_TRAINED (R209): Auto-negotiation and training complete, and the port reaches UP and starts UP_HOLD. -/
  | linkTrained (c : Fin 4) (port : Nat)
  /-- LT_FAIL (R210): Training fails under the standard's timers, raising LT_FAIL and scheduling a retry. -/
  | ltFail (c : Fin 4) (port lane : Nat)
  /-- LT_RETRY (R210): 1 s after a failed training, the port retries. -/
  | ltRetry (c : Fin 4) (port : Nat)
  /-- PORT_FAULT (R212): A loss of signal, alignment or an RS fault occurs, starting DOWN_HOLD or restarting UP_HOLD. -/
  | portFault (c : Fin 4) (port lane kind : Nat)
  /-- DOWN_HOLD_EXPIRY (R212): A fault persists for DOWN_HOLD, the port goes oper-down and the consequences of R217 follow. -/
  | downHoldExpiry (c : Fin 4) (port : Nat)
  /-- UP_HOLD_EXPIRY (R212): A port stays UP for UP_HOLD and becomes oper-up, with the consequences of R217. -/
  | upHoldExpiry (c : Fin 4) (port : Nat)
  /-- LANE_MARGIN (R211): A lane's MARGIN falls below THRESH and LANE_MARGIN is raised. -/
  | laneMargin (c : Fin 4) (lane margin : Nat)
  /-- PFC_PAUSE_EXPIRY (R220): The received pause time of a class runs out, and the class resumes. -/
  | pfcPauseExpiry (c : Fin 4) (port cls : Nat)
  /-- PFC_WD (R221): A class stays paused for RX_WD ms, and the watchdog resumes it and ignores further PFC. -/
  | pfcWd (c : Fin 4) (port cls : Nat)
  /-- PFC_XOFF_REPEAT (R220): While a HOLD request stands, the MAC resends XOFF every TX_QUANTA ÷ 2 quanta. -/
  | pfcXoffRepeat (c : Fin 4) (port cls : Nat)
  /-- PREEMPT_VERIFY_DONE (R222): Preemption verification ends in SUCCEEDED or FAILED. -/
  | preemptVerifyDone (c : Fin 4) (port : Nat) (ok : Bool)
  /-- FRAME_LAUNCH (R471): At the launch instant, the MAC sends a frame held in its FIFO, late frames being counted. -/
  | frameLaunch (c : Fin 4) (port pos : Nat)
  /-- FLEXE_MEMBER_DEFECT (R240): A member's LOF, LOM, GIDM, PIDM or unusability changes, moving the group state. -/
  | flexeMemberDefect (c : Fin 4) (g k : Nat) (lof lom gidm pidm rpf los : Bool)
  /-- GROUP_ALIGNED (R240): Deskew of a group completes within 10 µs, and the group reaches UP or stays DOWN on SKEW. -/
  | groupAligned (c : Fin 4) (g : Nat) (ok : Bool)
  /-- OH_FRAME_RX (R243): An overhead frame is received: the receive calendar follows C, CR is answered with CA, and labels are compared. -/
  | ohFrameRx (c : Fin 4) (g k : Nat) (crcOk : Bool) (calC cr ca : Nat) (labels : List (Nat × Nat))
  /-- CAL_SWITCH_REQ (R242): A write of GRP_CTRL.REQ starts a transmit calendar switch toward TARGET. -/
  | calSwitchReq (r : Req) (c : Fin 4) (g target : Nat)
  /-- CAL_SWITCH_INSTANT (R242): At the switching overhead frame boundary, C changes and the new calendar fills the egress slots. -/
  | calSwitchInstant (c : Fin 4) (g : Nat)
  /-- CA_TIMEOUT (R244): No matching CA arrives within CA_TIMEOUT, and the request is dropped with CAL_FAIL. -/
  | caTimeout (c : Fin 4) (g : Nat)
  /-- CONN_MEM_WRITE (R246): A connection memory write lands on the standby page and clears STBY_VALID, or is discarded on the active page. -/
  | connMemWrite (r : Req) (c : Fin 4) (g page slot : Nat) (v : Word)
  /-- SLOT_COMMIT (R246): A write of SLOT GRP_CTRL.COMMIT starts validation of the standby page. -/
  | slotCommit (r : Req) (c : Fin 4) (g : Nat)
  /-- SLOT_COMMIT_DONE (R246): Validation ends, setting COMMIT_RESULT and ERR_SLOT, and STBY_VALID on OK. -/
  | slotCommitDone (c : Fin 4) (g : Nat)
  /-- SLOT_SWITCH (R247): A write of SLOT GRP_CTRL.SWITCH requests a page switch, refused while FOLLOW_CAL is 1. -/
  | slotSwitch (r : Req) (c : Fin 4) (g : Nat)
  /-- PAGE_SWITCH_INSTANT (R247): At the overhead frame boundary, the standby page becomes active, or fallback engages if it is invalid. -/
  | pageSwitchInstant (c : Fin 4) (g : Nat)
  /-- SLOT_PARITY_ERR (R248): The switch reads an active-page entry that fails parity, and fallback engages. -/
  | slotParityErr (c : Fin 4) (g slot : Nat)
  /-- PM_SECOND_LATCH (R252): At each whole second, or at a step, the PM block latches errored blocks and flags for 168 entities. -/
  | pmSecondLatch (c : Fin 4) (step : Bool) (recs : List (Nat × Nat × Nat))
  /-- PM_LATCH_ACK (R252): A keeper write of PM.LATCH_ACK acknowledges the latched record. -/
  | pmLatchAck (c : Fin 4) (k : Fin 2)
  /-- PM_READ (R261): Service command 0x70 returns one bin of an entity. -/
  | pmRead (r : Req) (c : Fin 4) (k : Fin 2) (tag : Nat)
  /-- PM_RESET (R261): Service command 0x71 clears every bin of an entity and marks the current bins SUSPECT. -/
  | pmReset (r : Req) (c : Fin 4) (k : Fin 2) (tag : Nat)
  /-- DISPATCH (R269): The dispatcher assigns the oldest eligible entry of each direction to a free thread, with a sequence number and a parity. -/
  | dispatch (c : Fin 4)
  /-- ZERO (R311): Instruction ZERO ends the thread with parse-fault ZERO_WORD. -/
  | pZero (c : Fin 4) (tid : Nat)
  /-- NOP (R311): Instruction NOP does nothing but advance pc. -/
  | pNop (c : Fin 4) (tid : Nat)
  /-- DONE (R322): Instruction DONE ends the thread, releases its resources and hands the carry and parse result to the reorder unit. -/
  | pDone (c : Fin 4) (tid : Nat)
  /-- EXT (R313): Instruction EXT reads 1–8 window bytes into rd. -/
  | pExt (c : Fin 4) (tid : Nat)
  /-- EXTF (R313): Instruction EXTF packs the masked bit-fields of 8 window bytes into rd. -/
  | pExtf (c : Fin 4) (tid : Nat)
  /-- ADV (R314): Instruction ADV moves the header pointer, clamping to the window and optionally setting wb. -/
  | pAdv (c : Fin 4) (tid : Nat)
  /-- EMIT (R315): Instruction EMIT writes shifted bits of rs1 into a carry field. -/
  | pEmit (c : Fin 4) (tid : Nat)
  /-- EMITI (R315): Instruction EMITI writes an immediate into a carry field. -/
  | pEmiti (c : Fin 4) (tid : Nat)
  /-- ALU (R316): Instruction ALU applies FUNC to rs1 and rs2 and sets Z, C and N. -/
  | pAlu (c : Fin 4) (tid : Nat)
  /-- ALUI (R316): Instruction ALUI applies FUNC to rs1 and a sign-extended immediate. -/
  | pAlui (c : Fin 4) (tid : Nat)
  /-- MOVI (R311): Instruction MOVI loads a 64-bit immediate into rd. -/
  | pMovi (c : Fin 4) (tid : Nat)
  /-- HASH (R317): Instruction HASH computes CRC-32C, CRC-32 or FOLD over 1–4 registers. -/
  | pHash (c : Fin 4) (tid : Nat)
  /-- CSUM (R317): Instruction CSUM updates or adds to a ones'-complement checksum. -/
  | pCsum (c : Fin 4) (tid : Nat)
  /-- PTL (R318): Instruction PTL issues a parse-table lookup, waiting if four are outstanding. -/
  | pPtl (c : Fin 4) (tid : Nat)
  /-- BR (R311): Instruction BR branches to TARGET when its predicate holds. -/
  | pBr (c : Fin 4) (tid : Nat)
  /-- BRX (R311): Instruction BRX branches to rs1 plus IMM. -/
  | pBrx (c : Fin 4) (tid : Nat)
  /-- MATCH (R319): Instruction MATCH compares a masked field with up to three keys and branches on the first match. -/
  | pMatch (c : Fin 4) (tid : Nat)
  /-- LOCK (R273): Instruction LOCK takes a lock, or waits in LOCK_WAIT on its waiter queue. -/
  | pLock (c : Fin 4) (tid : Nat)
  /-- TRYLOCK (R273): Instruction TRYLOCK takes a free lock, or fails and watches it. -/
  | pTrylock (c : Fin 4) (tid : Nat)
  /-- UNLOCK (R273): Instruction UNLOCK releases a held lock, grants the oldest waiter and wakes the watchers. -/
  | pUnlock (c : Fin 4) (tid : Nat)
  /-- MBW (R275): Instruction MBW stages one mailbox word. -/
  | pMbw (c : Fin 4) (tid : Nat)
  /-- MBS (R275): Instruction MBS seals the staged mailbox and wakes its watchers. -/
  | pMbs (c : Fin 4) (tid : Nat)
  /-- MBR (R275): Instruction MBR reads a sealed mailbox word, optionally consuming it, or finds it empty and watches it. -/
  | pMbr (c : Fin 4) (tid : Nat)
  /-- WFE (R271): Instruction WFE continues on a pending masked event, or waits for one. -/
  | pWfe (c : Fin 4) (tid : Nat)
  /-- SEV (R272): Instruction SEV sends the SEV event to one thread or to every thread of the cluster. -/
  | pSev (c : Fin 4) (tid : Nat)
  /-- TMR (R321): Instruction TMR arms, restarts or cancels the thread's timer. -/
  | pTmr (c : Fin 4) (tid : Nat)
  /-- TIME (R321): Instruction TIME writes network time or COSY.LOCAL into rd. -/
  | pTime (c : Fin 4) (tid : Nat)
  /-- RDF (R311): Instruction RDF copies the flags into rd. -/
  | pRdf (c : Fin 4) (tid : Nat)
  /-- WRF (R311): Instruction WRF writes the masked flag bits. -/
  | pWrf (c : Fin 4) (tid : Nat)
  /-- LOOKUP_RETURN (R318): A parse-table lookup returns its entry into rd and delivers LKUP. -/
  | lookupReturn (c : Fin 4) (tid : Nat)
  /-- THREAD_TIMER_EXPIRY (R272): A thread's timer expires and delivers TIMER. -/
  | threadTimerExpiry (c : Fin 4) (tid : Nat)
  /-- LOCK_GRANT (R273): A lock released by another thread is granted to the oldest waiter. -/
  | lockGrant (c : Fin 4) (tid : Nat)
  /-- EVENT_WAKE (R271): Two cycles after a masked event arrives, a waiting thread becomes READY and clears that bit. -/
  | eventWake (c : Fin 4) (tid : Nat)
  /-- REORDER_SKIP (R279): The lowest outstanding number of a context exceeds REORDER_TO and is skipped, late-aborting its thread if eligible. -/
  | reorderSkip (c : Fin 4) (ctx : Nat)
  /-- ENGINE_STALL (R280): An engine's threads wait with no external source armed for ENG_LIMIT cycles, and the engine detector fires. -/
  | engineStall (c : Fin 4) (engine : Nat)
  /-- CLUSTER_STALL (R280): Every packet-holding thread of a cluster waits with no progress possible for 64 cycles, and the cluster detector fires. -/
  | clusterStall (c : Fin 4) (cluster : Nat)
  /-- THREAD_REG_UE (R283): An uncorrectable error in a thread's registers ends the thread with fault ECC. -/
  | threadRegUe (c : Fin 4) (tid : Nat)
  /-- INSTR_POISON (R283): An uncorrectable instruction-bank error poisons the word, to be rewritten by the keeper from another cluster. -/
  | instrPoison (c : Fin 4) (cluster bank index : Nat)
  /-- DBG_HALT (R285): Debug command HALT stops the selected thread. -/
  | dbgHalt (r : Req) (c : Fin 4)
  /-- DBG_RESUME (R285): Debug command RESUME returns a halted thread to its state. -/
  | dbgResume (r : Req) (c : Fin 4)
  /-- DBG_STEP (R285): Debug command STEP issues one instruction of the thread and halts it again. -/
  | dbgStep (r : Req) (c : Fin 4)
  /-- DBG_DETACH (R287): Debug command DETACH releases a halted thread's mailbox and locks, drops its packet and frees it. -/
  | dbgDetach (r : Req) (c : Fin 4)
  /-- DBG_REG_WRITE (R286): Debug command REG_WRITE applies the staged value to a register of a halted thread. -/
  | dbgRegWrite (r : Req) (c : Fin 4)
  /-- DBG_EVENT (R285): Debug command EVENT sets the DBG event of the selected thread. -/
  | dbgEvent (r : Req) (c : Fin 4)
  /-- DBG_REG_IDX_WRITE (R286): A write of DBG.REG_IDX snapshots the selected thread register into REG_DATA0/1. -/
  | dbgRegIdxWrite (r : Req) (c : Fin 4) (idx : Nat)
  /-- BREAKPOINT_HIT (R288): A thread reaches a matching breakpoint and halts, unless HALT_LIMIT refuses it. -/
  | breakpointHit (c : Fin 4) (tid : Nat)
  /-- PTBL_IDX_WRITE (R277): A write of PCLU.PTBL_IDX loads the parse-table entry into PTBL_DATA. -/
  | ptblIdxWrite (r : Req) (c : Fin 4) (cluster bank index : Nat)
  /-- STRAINER_DISTRIBUTE (R330): Each FE cycle the distributor moves the oldest input-queue entries into usable pipelines. -/
  | strainerDistribute (c : Fin 4) (egress : Bool)
  /-- STRAINER_STAGE (R335): A packet passes one stage: the key is built, the table is looked up with replay or freeze, and the profile's ops run. -/
  | strainerStage (c : Fin 4) (pipe pos : Nat) (lookLate countLate policeLate lpmBad : Bool) (freeze replays : Nat) (cfgErr : Option Nat)
  /-- STRAINER_VERDICT (R341): At the end of the pipeline the verdict is decided and the packet goes to the bridge, the MAC, a ring or a drop, with its copies. -/
  | strainerVerdict (c : Fin 4) (pipe : Nat) (full : Bool)
  /-- TABLE_CREATE (R370): TBL.TCTRL.CREATE checks a definition and allocates segments, overflow units and empty entries. -/
  | tableCreate (r : Req) (c : Fin 4) (kport : Bool) (table : Nat)
  /-- TABLE_DESTROY (R370): TBL.TCTRL.DESTROY frees a table's segments, overflow units and ternary blocks. -/
  | tableDestroy (r : Req) (c : Fin 4) (kport : Bool) (table : Nat)
  /-- INSERT (R371): Table command INSERT adds a version of a key under its brew mask. -/
  | insert (r : Req) (c : Fin 4) (kport : Bool) (table : Nat)
  /-- UPDATE (R371): Table command UPDATE rewrites or splits the visible versions, or a direct entry or descriptor. -/
  | update (r : Req) (c : Fin 4) (kport : Bool) (table : Nat)
  /-- DELETE (R371): Table command DELETE removes mask bits from the versions of a key. -/
  | delete (r : Req) (c : Fin 4) (kport : Bool) (table : Nat)
  /-- TBL_LOOKUP (R384): Table command LOOKUP returns the version visible to one parity. -/
  | tblLookup (r : Req) (c : Fin 4) (kport : Bool) (table : Nat)
  /-- SEARCH (R388): Table command SEARCH returns the first masked match from cursor 0. -/
  | search (r : Req) (c : Fin 4) (kport : Bool) (table : Nat)
  /-- NEXT (R388): Table command NEXT returns the next masked match from the cursor. -/
  | next (r : Req) (c : Fin 4) (kport : Bool) (table : Nat)
  /-- FLUSH_BY_PORT (R389): Table command FLUSH_BY_PORT starts a background delete of entries on a port. -/
  | flushByPort (r : Req) (c : Fin 4) (kport : Bool) (table : Nat)
  /-- FLUSH_BY_PORT_DONE (R389): The flush scan ends, raising FLUSH_DONE and sending a notification with the count. -/
  | flushByPortDone (c : Fin 4) (table : Nat)
  /-- AGE_SWEEP (R395): Table command AGE_SWEEP runs one aging sweep at once. -/
  | ageSweep (r : Req) (c : Fin 4) (kport : Bool) (table : Nat)
  /-- AGING_SWEEP (R395): At each AGE_INTERVAL boundary the keeper ages entries, sending AGED records and deleting if set. -/
  | agingSweep (c : Fin 4) (table : Nat)
  /-- LEARN_FLUSH (R393): A write of LEARN.CFG.FLUSH empties the learn filter of CONTESTED entries. -/
  | learnFlush (r : Req) (c : Fin 4)
  /-- TBL_SCRUB (R396): The hardware scrubber reads lines each PERIOD, correcting single-bit errors and poisoning uncorrectable lines. -/
  | tblScrub (c : Fin 4) (table rep line : Nat) (uncorr : Bool) (syn word : Nat)
  /-- TERN_SCRUB (R400): The 10 ms ternary scrub corrects or disables entries with errors. -/
  | ternScrub (c : Fin 4) (table index : Nat) (uncorr : Bool) (syn : Nat)
  /-- DIVERGENCE_CONFIRM (R399): A difference is seen again CMP_SETTLE later, is declared a divergence and is optionally repaired. -/
  | divergenceConfirm (c : Fin 4) (table whr : Nat) (replica : Bool) (rec_ : List Byte)
  /-- BANK_ROTATE (R402): Service command 0x60 starts moving an in-service bank onto a spare. -/
  | bankRotate (r : Req) (c : Fin 4) (k : Fin 2) (tag : Nat)
  /-- BANK_ROTATE_DONE (R402): The last segment is copied and switched, and the source bank becomes OUT. -/
  | bankRotateDone (c : Fin 4) (bank : Nat)
  /-- BANK_RESTORE (R411): Service command 0x61 makes an OUT bank SPARE. -/
  | bankRestore (r : Req) (c : Fin 4) (k : Fin 2) (tag : Nat)
  /-- BANK_RETIRE (R411): Service command 0x62 makes an OUT bank RETIRED. -/
  | bankRetire (r : Req) (c : Fin 4) (k : Fin 2) (tag : Nat)
  /-- SHADOW_SET (R411): Service command 0x63 names a table's software shadow. -/
  | shadowSet (r : Req) (c : Fin 4) (k : Fin 2) (tag : Nat)
  /-- COMPARE (R411): Service command 0x64 starts a compare pass on a table. -/
  | compare (r : Req) (c : Fin 4) (k : Fin 2) (tag found : Nat) (dmaErr : Bool)
  /-- REPAIR (R399): Service command 0x65 reconciles a table to its authority once. -/
  | repair (r : Req) (c : Fin 4) (k : Fin 2) (tag : Nat) (recs : List (List Byte)) (dmaErr : Bool)
  /-- BANK_STATUS (R411): Service command 0x66 returns a bank's state and segment owners. -/
  | bankStatus (r : Req) (c : Fin 4) (k : Fin 2) (tag : Nat)
  /-- BUFFER_ALLOC (R423): A packet's first bytes reach Caddy and a buffer is chosen and judged against its account and pool. -/
  | bufferAlloc (c : Fin 4) (req h : Nat)
  /-- SPILL_REQUEST (R423): In the next TM cycle, a packet refused with CLASS_EMPTY asks the next pool. -/
  | spillRequest (c : Fin 4) (req h : Nat)
  /-- HBM_WRITE_ACK (R433): The last byte of a packet is written and acknowledged, and the packet is presented to admission. -/
  | hbmWriteAck (c : Fin 4) (h : Nat)
  /-- ADMISSION (R436): A written packet is admitted and enqueued, or dropped by the ordered checks including HOLD and WRED. -/
  | admission (c : Fin 4) (h : Nat)
  /-- BUFFER_FREE (R426): A free releases one reference of a buffer, handling double and foreign frees. -/
  | bufferFree (c : Fin 4) (h a : Nat) (part : Option Nat)
  /-- FREE_CMD (R427): A write of CADDY.FREE_CMD frees a buffer by handle and reports RESULT. -/
  | freeCmd (r : Req) (c : Fin 4) (acct : Nat)
  /-- ORPHAN_SWEEP (R428): Within 10 s of a header error, the keeper frees buffers that nothing names. -/
  | orphanSweep (c : Fin 4)
  /-- REGION_ASSIGN (R430): Region command ASSIGN makes regions ACTIVE in a class. -/
  | regionAssign (r : Req) (c : Fin 4) (kport : Bool) (cls first : Nat)
  /-- REGION_MOVE (R430): Region command MOVE makes regions DRAINING toward a new class. -/
  | regionMove (r : Req) (c : Fin 4) (kport : Bool) (cls first : Nat)
  /-- REGION_CANCEL (R430): Region command CANCEL returns DRAINING regions to ACTIVE. -/
  | regionCancel (r : Req) (c : Fin 4) (kport : Bool) (first : Nat)
  /-- REGION_FENCE (R430): Keeper region command FENCE fences regions. -/
  | regionFence (r : Req) (c : Fin 4) (kport : Bool) (first : Nat)
  /-- REGION_UNFENCE (R430): Keeper region command UNFENCE restores the regions' state from before the fence. -/
  | regionUnfence (r : Req) (c : Fin 4) (kport : Bool) (first : Nat)
  /-- REGION_RETIRE (R430): Keeper region command RETIRE retires regions until channel reset. -/
  | regionRetire (r : Req) (c : Fin 4) (kport : Bool) (first : Nat)
  /-- REGION_PURGE (R430): Region command PURGE discards every packet with a buffer in the regions. -/
  | regionPurge (r : Req) (c : Fin 4) (kport : Bool) (first : Nat)
  /-- REGION_RD_IDX_WRITE (R447): A write of CADDY.REGION_RD_IDX loads the region's state into REGION_RD. -/
  | regionRdIdxWrite (r : Req) (c : Fin 4) (region : Nat)
  /-- ACCT_POOL_WRITE (R421): An ACCT_POOL write sets reserve and ALPHA, or is refused with RESERVE_CONFLICT. -/
  | acctPoolWrite (r : Req) (c : Fin 4) (v : Word)
  /-- ACCT_OPEN (R443): A write of ACCT_CFG.OPEN opens a CLOSED or CLOSING account. -/
  | acctOpen (r : Req) (c : Fin 4) (part : Nat)
  /-- ACCT_CLOSE (R443): A write of ACCT_CFG.CLOSE moves an account to CLOSING, or to CLOSED if it holds nothing. -/
  | acctClose (r : Req) (c : Fin 4) (part : Nat)
  /-- Q_SEL_WRITE (R450): A write of VOQ.Q_SEL loads the readout of the selected queue. -/
  | qSelWrite (r : Req) (c : Fin 4) (v : Word)
  /-- FLUSH_RANGE (R444): Flush operation RANGE removes the queued packets of a VOQ range. -/
  | flushRange (r : Req) (c : Fin 4)
  /-- FLUSH_ACCOUNT (R444): Flush operation ACCOUNT removes every queued packet of an account. -/
  | flushAccount (r : Req) (c : Fin 4)
  /-- FLUSH_PARTITION (R444): Flush operation PARTITION removes every queued packet of a partition's accounts. -/
  | flushPartition (r : Req) (c : Fin 4)
  /-- FLUSH_COMPLETE (R444): A flush finishes and raises FLUSH_DONE. -/
  | flushComplete (c : Fin 4)
  /-- MC_REPLICATE (R442): A multicast packet at the egress TM is copied to each valid group member, and each copy is admitted on its own. -/
  | mcReplicate (c : Fin 4) (h : Nat)
  /-- HOLD_WINDOW_EXPIRY (R439): HOLD_MS elapses in HOLDING, the port enters DISCARDING and its queued packets are discarded. -/
  | holdWindowExpiry (c : Fin 4) (port : Nat)
  /-- EGRESS_QUEUE_MAP (R458): An egress packet is placed by EQ_MAP into a queue, or dropped as NO_QUEUE. -/
  | egressQueueMap (c : Fin 4) (h : Nat)
  /-- SCHED_RELEASE (R460): Each TM cycle the scheduler chooses queues and releases head packets under shapers, gates and pacing. -/
  | schedRelease (c : Fin 4) (ports : List (Nat × Bool))
  /-- NODE_SEL_WRITE (R475): A write of SCHED.NODE_SEL loads NODE_W0–W7. -/
  | nodeSelWrite (r : Req) (c : Fin 4) (node : Nat)
  /-- NODE_CMD (R461): A write of SCHED.NODE_CMD applies NODE_W0–W6 to a node, or refuses it. -/
  | nodeCmd (r : Req) (c : Fin 4)
  /-- NODE_UE (R461): An uncorrectable error in a node's words removes the node from every choice. -/
  | nodeUe (c : Fin 4) (node word : Nat)
  /-- SWAP_START (R468): The start S of a pending swap is reached: OPER_BANK flips, RUNNING sets and oversize frames are dropped. -/
  | swapStart (c : Fin 4) (list : Nat)
  /-- ENT_IDX_WRITE (R477): A write of SPOUT.ENT_IDX loads ENT_MASK and ENT_DUR of an entry. -/
  | entIdxWrite (r : Req) (c : Fin 4) (oper : Bool) (idx : Nat)
  /-- ENT_DUR_WRITE (R477): A write of SPOUT.ENT_DUR commits the entry and adds 1 to ENT_IDX, or is refused while PENDING. -/
  | entDurWrite (r : Req) (c : Fin 4) (dur : Nat)
  /-- LIST_UE (R467): An uncorrectable error in an operational list entry sets GATE_INIT until the next swap. -/
  | listUe (c : Fin 4) (list entry : Nat)
  /-- CELL_TX (R482): A lane with room takes the next cell, control cells first, sprayed by destination and class. -/
  | cellTx (c : Fin 4) (lane : Nat) (hdrErr : Bool)
  /-- CELL_RX (R485): A cell is received and checked, then passed to reassembly, the credit logic or link handling. -/
  | cellRx (c : Fin 4) (lane : Nat) (bytes : List Byte)
  /-- REASM_TIMEOUT (R490): A gap stands for REASM_TO, the context skips it and drops the packets that lost cells. -/
  | reasmTimeout (c : Fin 4) (k : Nat)
  /-- REASM_RESYNC (R490): Every cell for one REASM_TO is late, and the context resynchronises. -/
  | reasmResync (c : Fin 4) (k : Nat)
  /-- LANE_LEAVE_ACTIVE (R483): A fabric lane leaves ACTIVE, is removed from spraying and its queued cells are lost. -/
  | laneLeaveActive (c : Fin 4) (lane : Nat) (fec : Bool) (inflight : Nat)
  /-- SPARE_ACTIVATE (R497): Within 1 ms, the lowest STANDBY lane toward the same peer becomes ACTIVE, or the bundle narrows. -/
  | spareActivate (c : Fin 4) (lane : Nat)
  /-- HELLO_TX (R494): Every LINK_PERIOD each UP or ACTIVE lane sends a HELLO LINK cell. -/
  | helloTx (c : Fin 4)
  /-- HELLO_LAPSE (R481): No valid HELLO arrives within 4 LINK_PERIOD, or a REACH bit lapses, and reachability is updated. -/
  | helloLapse (c : Fin 4) (lane : Nat) (block : Option Nat)
  /-- CREDIT_SLOT (R493): At each 64 ns slot, each port's generator adds balance and issues up to 4 credits. -/
  | creditSlot (c : Fin 4)
  /-- CREDIT_REQ_REFRESH (R492): Every REFRESH µs a VOQ repeats its ON request. -/
  | creditReqRefresh (c : Fin 4) (q : Nat)
  /-- REQ_ENTRY_EXPIRY (R493): A generator entry not refreshed within 4 REFRESH is removed. -/
  | reqEntryExpiry (c : Fin 4) (port src tc : Nat)
  /-- VOQ_BALANCE_EXPIRY (R492): A VOQ empty for REFRESH µs has its credit balance set to 0. -/
  | voqBalanceExpiry (c : Fin 4) (q : Nat)
  /-- FAB_CFG_WRITE (R500): A FAB.CFG write sets mesh, contexts and CHAN_ID, refused while enabled. -/
  | fabCfgWrite (r : Req) (c : Fin 4) (v : Word)
  /-- FAB_LANE_CFG_WRITE (R501): A FAB.LANE_CFG write configures a lane under the refusal rules. -/
  | fabLaneCfgWrite (r : Req) (c : Fin 4) (lane : Nat) (v : Word)
  /-- SPORT_IDX_WRITE (R499): A write of FAB.SPORT_IDX loads SPORT_DATA. -/
  | sportIdxWrite (r : Req) (c : Fin 4) (sport : Nat)
  /-- MC_IDX_WRITE (R499): A write of FAB.MC_IDX loads MC_DATA. -/
  | mcIdxWrite (r : Req) (c : Fin 4) (group : Nat)
  /-- REACH_IDX_WRITE (R499): A write of FAB.REACH_IDX loads REACH_LO/HI. -/
  | reachIdxWrite (r : Req) (c : Fin 4) (chan : Nat)
  /-- HBM_ENABLE (R508): A write of HBMC PAGE_CTRL.ENABLE = 1 starts start-up training of the stack. -/
  | hbmEnable (r : Req) (c : Fin 4) (st : Fin 2)
  /-- HBM_TRAIN_DONE (R508): The training steps complete, and the stack reads READY or FAILED with failed groups marked. -/
  | hbmTrainDone (c : Fin 4) (st : Fin 2) (failStep : Nat) (failed : List (Nat × Nat)) (devId : Nat) (rfm : Option Nat) (avail : List Nat)
  /-- HBM_ACCESS (R507): A 64-byte access enters a PC queue and is served, with ECC check, neighbour refresh and RFM. -/
  | hbmAccess (c : Fin 4) (n : Nat) (a : HbmAcc)
  /-- HBM_REFRESH (R518): A periodic refresh falls due, at doubled rate above 85 °C. -/
  | hbmRefresh (c : Fin 4) (n : Nat) (temp : Word)
  /-- PAUSE (R511): KTRAIN op PAUSE pauses one PC for a fast retrain. -/
  | pause (r : Req) (c : Fin 4) (st : Fin 2) (pc : Nat)
  /-- HBM_RESUME (R511): KTRAIN op RESUME ends a pause, or a group window, with the new settings. -/
  | hbmResume (r : Req) (c : Fin 4) (st : Fin 2) (group : Bool) (x : Nat)
  /-- RESTORE (R511): KTRAIN op RESTORE ends a pause with the old settings. -/
  | restore (r : Req) (c : Fin 4) (st : Fin 2) (group : Bool) (x : Nat)
  /-- PATTERN (R510): KTRAIN op PATTERN runs a pattern and compare on training rows. -/
  | pattern (r : Req) (c : Fin 4) (st : Fin 2) (pc : Nat)
  /-- SET_TIMING (R529): KTRAIN op SET_TIMING sets one timing parameter of a lane. -/
  | setTiming (r : Req) (c : Fin 4) (st : Fin 2) (pc : Nat)
  /-- SPPR (R521): KTRAIN op SPPR remaps a row to a spare, or retires the region when none is left. -/
  | sppr (r : Req) (c : Fin 4) (st : Fin 2) (pc : Nat)
  /-- HPPR (R521): KTRAIN op HPPR makes a row repair permanent. -/
  | hppr (r : Req) (c : Fin 4) (st : Fin 2) (pc : Nat)
  /-- HBM_FAIL (R514): KTRAIN op FAIL marks a PC or group FAILED. -/
  | hbmFail (r : Req) (c : Fin 4) (st : Fin 2) (group : Bool) (x : Nat)
  /-- PAUSE_TIMEOUT (R511): A pause reaches 2 µs and hardware ends it with the old settings, TIMEOUT. -/
  | pauseTimeout (c : Fin 4)
  /-- FAST_RETRAIN_TICK (R512): Every FAST_INTERVAL ms the keeper starts a fast retrain of the next PC. -/
  | fastRetrainTick (c : Fin 4)
  /-- RETRAIN_WINDOW_END (R514): A retrain window ends unclosed, old settings are restored with ABORTED, and the group returns to OFFLINE. -/
  | retrainWindowEnd (c : Fin 4) (group : Nat)
  /-- DRAIN_SLOW (R527): A group stays FENCING beyond DRAIN_WARN and DRAIN_SLOW is raised. -/
  | drainSlow (c : Fin 4) (group : Nat)
  /-- HBM_STATUS (R531): Service command 0x50 returns a group's status and margins. -/
  | hbmStatus (r : Req) (c : Fin 4) (k : Fin 2) (tag : Nat)
  /-- FULL_RETRAIN (R515): Service command 0x51 starts fencing a group for a full retrain. -/
  | fullRetrain (r : Req) (c : Fin 4) (k : Fin 2) (tag : Nat)
  /-- ABORT_RETRAIN (R515): Service command 0x52 unfences a FENCING or OFFLINE group without a retrain. -/
  | abortRetrain (r : Req) (c : Fin 4) (k : Fin 2) (tag : Nat)
  /-- FAST_RETRAIN (R531): Service command 0x53 runs one fast retrain of a PC. -/
  | fastRetrain (r : Req) (c : Fin 4) (k : Fin 2) (tag : Nat)
  /-- REPAIR_LOG_SAVE (R522): Service command 0x54 writes a stack's repair log to host memory. -/
  | repairLogSave (r : Req) (c : Fin 4) (k : Fin 2) (tag : Nat) (dmaErr : Bool)
  /-- REPAIR_LOG_LOAD (R522): Service command 0x55 reads back and checks a saved repair log. -/
  | repairLogLoad (r : Req) (c : Fin 4) (k : Fin 2) (tag : Nat) (rec_ : List Byte) (dmaErr : Bool)
  /-- DOORBELL (R541): A write of a ring's DOORBELL records TAIL, stopping the ring on TAIL_RANGE. -/
  | doorbell (f : Nat) (c : Fin 4) (p r tail : Nat)
  /-- IRQ_ARM (R543): A write of IRQ.ARM arms the ring interrupt, sending at once if a completion is pending. -/
  | irqArm (f : Nat) (c : Fin 4) (p r : Nat)
  /-- DESC_CONSUME (R541): The part reads the next descriptor of a ring toward the part, processes it and writes it back. -/
  | descConsume (c : Fin 4) (p r : Nat) (desc data : List Byte) (descErr dmaErr : Bool)
  /-- RECORD_POST (R542): A record for a host ring is placed in the open buffer, closing buffers as needed, or dropped. -/
  | recordPost (c : Fin 4) (p r : Nat) (desc : List Byte) (descErr dmaErr : Bool)
  /-- PACK_TIMEOUT (R542): PACK_US elapses since a buffer's first record, and the buffer is closed and written back. -/
  | packTimeout (c : Fin 4) (p r : Nat) (dmaErr : Bool)
  /-- PART_CREATE (R552): Partition command CREATE makes a FREE partition ACTIVE. -/
  | partCreate (r : Req) (c : Fin 4) (p : Nat)
  /-- PART_QUIESCE (R553): Partition command QUIESCE starts the quiesce sequencer. -/
  | partQuiesce (r : Req) (c : Fin 4) (p : Nat)
  /-- QUIESCE_STEP_DONE (R553): A quiesce step's end condition is met, and the next step starts or the partition reads QUIESCED. -/
  | quiesceStepDone (c : Fin 4) (p : Nat)
  /-- QUIESCE_STEP_TIMEOUT (R553): A quiesce step reaches its timeout and its timeout action applies. -/
  | quiesceStepTimeout (c : Fin 4) (p : Nat)
  /-- PART_RESUME (R555): Partition command RESUME reopens accounts, clears DISCARD and restarts the rings. -/
  | partResume (r : Req) (c : Fin 4) (p : Nat)
  /-- PART_RESET (R556): Partition command RESET disables the partition's rings and clears its counters. -/
  | partReset (r : Req) (c : Fin 4) (p : Nat)
  /-- PART_REMOVE (R552): Partition command REMOVE frees a QUIESCED partition and returns its resources. -/
  | partRemove (r : Req) (c : Fin 4) (p : Nat)
  /-- RING_CFG_WRITE (R564): A RING_CFG write enables a ring from index 0, disables it, or is refused. -/
  | ringCfgWrite (r : Req) (c : Fin 4) (v : Word)
  /-- IDENT_WRITE (R550): A PART.IDENT write sets an identity, or is refused on conflict or use. -/
  | identWrite (r : Req) (c : Fin 4) (k : Fin 4) (v : Word)
  /-- PORT_OWN_WRITE (R551): A PART.PORT_OWN write moves a port to a partition, or is refused. -/
  | portOwnWrite (r : Req) (c : Fin 4) (port : Nat) (v : Word)
  /-- TEST_START (R570): TEST.CTRL.START starts a test on the selected target, or refuses it or holds it PENDING. -/
  | testStart (r : Req) (c : Fin 4) (die : Fin 2)
  /-- TEST_STOP (R567): TEST.CTRL.STOP ends a running test as STOPPED. -/
  | testStop (r : Req) (c : Fin 4) (die : Fin 2) (bits errs : Nat)
  /-- TEST_CLEAR (R567): TEST.CTRL.CLEAR sets the test's counters to 0. -/
  | testClear (r : Req) (c : Fin 4) (die : Fin 2)
  /-- TEST_INJECT (R567): TEST.CTRL.INJECT inverts one bit of the generated stream. -/
  | testInject (r : Req) (c : Fin 4) (die : Fin 2)
  /-- TEST_SEL_WRITE (R574): A write of TEST.SEL loads the target's CFG, STAT and counter readout. -/
  | testSelWrite (r : Req) (c : Fin 4) (die : Fin 2) (v : Word) (bits errs : Nat)
  /-- PENDING_TEST_START (R570): The target of a PENDING test stops being in use, and the test starts. -/
  | pendingTestStart (c : Fin 4) (die : Fin 2) (kind idx : Nat)
  /-- TEST_DURATION_END (R567): DURATION seconds of COSY.LOCAL pass and the test ends DONE. -/
  | testDurationEnd (c : Fin 4) (die : Fin 2) (kind idx bits errs : Nat)
  /-- CHECKER_LOCK_LOSS (R567): 32 errors within 64 bits unlock the checker, which counts the loss and relocks. -/
  | checkerLockLoss (c : Fin 4) (die : Fin 2) (kind idx bits errs : Nat)
  /-- BANK_TEST_DONE (R571): A MARCH or CHECKER bank test completes with FAIL_LINES. -/
  | bankTestDone (c : Fin 4) (bank failLines : Nat)
  /-- DUMP (R573): TEST.DUMP_CTRL.GO reads 64 bytes of a stored packet. -/
  | dump (r : Req) (c : Fin 4) (off : Nat)
  /-- LANE_REPAIR (R578): A UCIe lane reaches LANE_ERR_LIMIT or fails training, and is remapped to a redundant lane or leaves the module HALF or DOWN. -/
  | laneRepair (c : Fin 4) (dir : Fin 2) (m lane : Nat)
  /-- SAUCER_LANE_FAIL (R581): A Saucer lane fails and the link runs narrower. -/
  | saucerLaneFail (c : Fin 4) (lane : Nat)
  /-- SMB_SET_ADDR (R612): SMBus command 0x01 sets the BAR0 address for the next access. -/
  | smbSetAddr (addr : Nat)
  /-- SMB_READ (R612): SMBus command 0x02 returns the register at the set address and advances it. -/
  | smbRead 
  /-- SMB_WRITE (R612): SMBus command 0x03 writes PWR.IN_CFG or SENS.THRESH. -/
  | smbWrite (v : Word)
  /-- SAMPLE_PRELOAD (R613): JTAG instruction SAMPLE_PRELOAD selects the boundary register. -/
  | samplePreload (captured shifted : Nat)
  /-- EXTEST (R613): JTAG instruction EXTEST drives the boundary register while every channel is OFF or RESET. -/
  | extest (shifted : Nat)
  /-- IDCODE (R613): JTAG instruction IDCODE selects the 32-bit IDCODE. -/
  | idcode 
  /-- CLAMP (R613): JTAG instruction CLAMP holds the boundary outputs. -/
  | clamp 
  /-- HIGHZ (R613): JTAG instruction HIGHZ floats the outputs. -/
  | highz 
  /-- UNLOCK_REQ (R613): JTAG instruction UNLOCK_REQ captures the serial number and a fresh nonce. -/
  | unlockReq 
  /-- UNLOCK_RESP (R614): JTAG instruction UNLOCK_RESP verifies a signature over the nonce and unlocks, or counts a failure. -/
  | unlockResp (sigOk : Bool)
  /-- JTAG_LOCK (R614): JTAG instruction LOCK relocks the port. -/
  | jtagLock (one : Bool)
  /-- REG_ACCESS (R614): JTAG instruction REG_ACCESS performs a BAR0 access with PF0's rights. -/
  | regAccess (write : Bool) (addr : Nat) (data : Word)
  /-- BYPASS (R613): JTAG instruction BYPASS, or any unlisted or locked code, selects the bypass bit. -/
  | bypass (code : Nat)
  /-- UNLOCK_BLOCK_EXPIRY (R614): 60 s after three failed responses, the port accepts responses again. -/
  | unlockBlockExpiry 
  /-- JTAG_CTRL_LOCK (R615): A write of PWR.JTAG_CTRL.LOCK relocks the JTAG port. -/
  | jtagCtrlLock (r : Req) (v : Word)
  /-- REG_READ (R48): A register read of an unimplemented location or of a page the reader does not own returns 0 and increments UNIMPL_CNT or REJ_OWN_CNT, capturing REJ_FIRST. -/
  | regRead (r : Req) (addr : Nat)
  /-- OSC_IN_RETURNS (R131): OSC_IN comes back and passes the frequency monitor, so COSY.STATUS.OSC_OK sets and RETURN becomes effective. -/
  | oscInReturns (c : Fin 4)
  /-- PCIE_LINK_DOWN (R66): The PCIe link leaves L0 outside a reset, so host-bound MSI-X messages are held and ring DMA stops with ERR_CODE LINK. -/
  | pcieLinkDown 
  /-- RELAY_ALIGNMENT_LOSS (R25): A relay link loses alignment and goes DOWN with LAST_CAUSE ALIGNMENT, so R23 applies. -/
  | relayAlignmentLoss (c : Fin 4)
  /-- CH0_FE_DIE_FAILURE (R24): Channel 0's FE die fails physically, PCIe, JTAG and SMBus stop, and every other channel keeps forwarding while dropping host-bound records. -/
  | ch0FeDieFailure 
  /-- PORT_FAULT_CLEAR (R212): Signal, PCS/FEC alignment or a clean RS state returns on a lane port, ending HOLDING or letting training start again. -/
  | portFaultClear (c : Fin 4) (port kind : Nat)
  /-- PFC_WD_RELEASE (R221): No XOFF for a watchdog-released class has arrived for RX_WD ms, so received PFC for that class is honoured again. -/
  | pfcWdRelease (c : Fin 4) (port cls : Nat)
  /-- FAB_LANE_TRAINED (R481): A fabric lane completes training and alignment and enters UP, ready for HELLO. -/
  | fabLaneTrained (c : Fin 4) (lane : Nat)
  /-- FAB_LANE_FAULT (R481): A fabric lane in UP or STANDBY loses signal or FEC alignment and goes DOWN, raising LINK_DOWN. -/
  | fabLaneFault (c : Fin 4) (lane : Nat) (fec : Bool)
  /-- CLIENT_RX_LF (R241): A TERMINATE client starts or stops receiving a local fault sequence, changing CLIENT_STAT.RX_LF, the client's up status and its port's oper status. -/
  | clientRxLf (c : Fin 4) (n : Nat) (on : Bool)
  /-- CHECKER_LOCKED (R567): A pattern checker sees 64 consecutive error-free bits, sets STAT.LOCK and starts counting BITS and ERR. -/
  | checkerLocked (c : Fin 4) (die : Fin 2) (kind idx : Nat)
  /-- SAUCER_LINK_UP (R100): The Saucer link trains and comes up, setting KEEP.STATUS.SAUCER_UP and journalling SAUCER_UP. -/
  | saucerLinkUp (c : Fin 4)
deriving DecidableEq, Repr

end Sys2Proof
end

