-- ==== Sys2Proof/Decode.lean ====
section
/-! DEFINITION. The decoder of table words: no row of the spec's opcode table carries bits, so no word spells a command. -/

namespace Sys2Proof

/-- The command a word of `nbits` bits spells by the table: none, since the table gives no row any bits. -/
def decodeTableWord (_nbits _w : Nat) : Option Instr := none

end Sys2Proof
end

