-- ==== Sys2Proof/Machine/Bits.lean ====
section
/-! DEFINITION. Bit fields of a word (R3), sparse-table reads and writes, and byte-order helpers (R5). -/

namespace Sys2Proof.Machine

/-- The value of bits [hi:lo] of a word (R3). -/
def fld (w : Word) (hi lo : Nat) : Nat := (w.toNat >>> lo) % 2 ^ (hi + 1 - lo)

/-- The word with bits [hi:lo] set to `v` (truncated to the field's width). -/
def setFld (w : Word) (hi lo v : Nat) : Word :=
  BitVec.ofNat 32 (w.toNat % 2 ^ lo + (v % 2 ^ (hi + 1 - lo)) * 2 ^ lo + (w.toNat >>> (hi + 1)) * 2 ^ (hi + 1))

/-- Bit `i` of a word. -/
def bit (w : Word) (i : Nat) : Bool := (w.toNat >>> i) % 2 == 1

/-- Bits [hi:lo] of a natural number. -/
def nbits (n hi lo : Nat) : Nat := (n >>> lo) % 2 ^ (hi + 1 - lo)

/-- Bit `i` of a natural number. -/
def nbit (n i : Nat) : Bool := (n >>> i) % 2 == 1

/-- 1 for true, 0 for false. -/
def b2n (b : Bool) : Nat := if b then 1 else 0

/-- The natural number `n` with bit `i` set to `b`. -/
def setNbit (n i : Nat) (b : Bool) : Nat :=
  n % 2 ^ i + b2n b * 2 ^ i + (n >>> (i + 1)) * 2 ^ (i + 1)

/-- The number of set bits among the low `w` bits. -/
def popcount (n w : Nat) : Nat := ((List.range w).filter (fun i => nbit n i)).length

/-- The value as a signed two's complement number of `w` bits. -/
def toSigned (n w : Nat) : Int := if n % 2 ^ w < 2 ^ (w - 1) then ((n % 2 ^ w : Nat) : Int) else ((n % 2 ^ w : Nat) : Int) - (2 ^ w : Nat)

/-- The `w`-bit two's complement pattern of a signed number. -/
def ofSigned (i : Int) (w : Nat) : Nat := (i % ((2 ^ w : Nat) : Int)).toNat

/-- One more, saturating at `2 ^ w - 1`. -/
def satAdd (w n k : Nat) : Nat := min (n + k) (2 ^ w - 1)

/-- Division rounding up. -/
def ceilDiv (a b : Nat) : Nat := (a + b - 1) / b

/-- The little-endian value of a list of bytes (R5). -/
def leNat : List Byte → Nat
  | [] => 0
  | b :: bs => b.toNat + 256 * leNat bs

/-- The big-endian value of a list of bytes (R5). -/
def beNat (bs : List Byte) : Nat := bs.foldl (fun n b => n * 256 + b.toNat) 0

/-- The `n` little-endian bytes of a value (R5). -/
def leBytes : Nat → Nat → List Byte
  | 0, _ => []
  | n + 1, v => BitVec.ofNat 8 v :: leBytes n (v / 256)

/-- The `n` big-endian bytes of a value (R5). -/
def beBytes (n v : Nat) : List Byte := (leBytes n v).reverse

/-- `n` bytes of a list from offset `o`, missing bytes reading 0. -/
def sliceBytes (bs : List Byte) (o n : Nat) : List Byte :=
  let r := (bs.drop o).take n
  r ++ List.replicate (n - r.length) 0

/-- Little-endian field of `n` bytes at offset `o`. -/
def leAt (bs : List Byte) (o n : Nat) : Nat := leNat (sliceBytes bs o n)

/-- Big-endian field of `n` bytes at offset `o`. -/
def beAt (bs : List Byte) (o n : Nat) : Nat := beNat (sliceBytes bs o n)

/-- Value at a key of a sparse table whose unlisted keys read as `d` says. -/
def rget {α : Type} (d : Nat → α) : Tab α → Nat → α
  | [], k => d k
  | (k', v) :: t, k => if k' = k then v else rget d t k

/-- Drop the entries of a key. -/
def rdel {α : Type} (t : Tab α) (k : Nat) : Tab α := t.filter (fun e => decide (e.1 ≠ k))

/-- List an entry before the first larger key. -/
def rins {α : Type} (k : Nat) (v : α) : Tab α → Tab α
  | [] => [(k, v)]
  | (k', v') :: t => if k' < k then (k', v') :: rins k v t else (k, v) :: (k', v') :: t

/-- Write a key of a sparse table, keeping its canonical form: a value equal to the default is not listed. (The match on the table comes
first so that the kernel does not evaluate the default of a table that it does not know.) -/
def rput {α : Type} [DecidableEq α] (d : Nat → α) (t : Tab α) (k : Nat) (v : α) : Tab α :=
  match t with
  | [] => if v = d k then [] else [(k, v)]
  | e :: r => if v = d k then rdel (e :: r) k else rins k v (rdel (e :: r) k)

/-- `rget` with one default for every key. -/
def tget {α : Type} (d : α) (t : Tab α) (k : Nat) : α := rget (fun _ => d) t k

/-- `rput` with one default for every key. -/
def tput {α : Type} [DecidableEq α] (d : α) (t : Tab α) (k : Nat) (v : α) : Tab α := rput (fun _ => d) t k v

/-- Change one entry by a function. -/
def tmod {α : Type} [DecidableEq α] (d : α) (t : Tab α) (k : Nat) (f : α → α) : Tab α := tput d t k (f (tget d t k))

/-- Return the keys from `lo` up to but not including `hi` to their default. -/
def tclear {α : Type} (t : Tab α) (lo hi : Nat) : Tab α := t.filter (fun e => !(decide (lo ≤ e.1) && decide (e.1 < hi)))

/-- The canonical form of a sparse table: keys strictly rising (the last one above `lo`), no default listed. -/
def rwf {α : Type} [DecidableEq α] (d : Nat → α) : Tab α → Bool
  | [] => true
  | (k, v) :: t => decide (v ≠ d k) && t.all (fun e => decide (k < e.1)) && rwf d t

/-- `rwf` with one default for every key. -/
def twf {α : Type} [DecidableEq α] (d : α) (t : Tab α) : Bool := rwf (fun _ => d) t

/-- The first of the numbers `0 … n-1` that satisfies `p`. -/
def firstBelow (n : Nat) (p : Nat → Bool) : Option Nat := (List.range n).find? p

/-- The keys below `n` that satisfy `p`, rising. -/
def allBelow (n : Nat) (p : Nat → Bool) : List Nat := (List.range n).filter p

end Sys2Proof.Machine
end

