-- ==== Sys2Proof/Machine/Crc.lean ====
section
/-! DEFINITION. The cyclic redundancy checks of the part (R139, R317): CRC-32 of IEEE 802.3, CRC-32C, and the CRC-16 of the ToD
frame, which Ulore cells share (R484). -/

namespace Sys2Proof.Machine

/-- One bit of a reflected 32-bit CRC. -/
def crcStep (poly r : Nat) : Nat := if r % 2 = 1 then Nat.xor (r / 2) poly else r / 2

/-- Apply a function `n` times. -/
def times {α : Type} : Nat → (α → α) → α → α
  | 0, _, a => a
  | n + 1, f, a => times n f (f a)

/-- One byte of a reflected 32-bit CRC. -/
def crcByte (poly r : Nat) (b : Byte) : Nat := times 8 (crcStep poly) (Nat.xor r b.toNat)

/-- A reflected 32-bit CRC from an initial register, with the final XOR. -/
def crc32With (poly init : Nat) (bs : List Byte) : Nat := Nat.xor (bs.foldl (crcByte poly) init) 0xFFFFFFFF

/-- CRC-32 of IEEE 802.3. -/
def crc32 (bs : List Byte) : Nat := crc32With 0xEDB88320 0xFFFFFFFF bs

/-- CRC-32C (Castagnoli). -/
def crc32c (bs : List Byte) : Nat := crc32With 0x82F63B78 0xFFFFFFFF bs

/-- One bit of the CRC-16 with polynomial 0x1021, most significant bit first. -/
def crc16Step (r : Nat) : Nat := if 0x8000 ≤ r then Nat.xor (r * 2 % 65536) 0x1021 else r * 2 % 65536

/-- The CRC-16 of R139: initial value 0xFFFF, no reflection and no final XOR. -/
def crc16 (bs : List Byte) : Nat := bs.foldl (fun r b => times 8 crc16Step (Nat.xor r (b.toNat * 256))) 0xFFFF

/-- The FCS of a frame is correct: its last four bytes, least significant first, are the CRC-32 of the rest (R214). -/
def fcsOk (bs : List Byte) : Bool := decide (4 ≤ bs.length) && leNat (bs.drop (bs.length - 4)) == crc32 (bs.take (bs.length - 4))

/-- A frame body with its FCS appended. -/
def withFcs (bs : List Byte) : List Byte := bs ++ leBytes 4 (crc32 bs)

end Sys2Proof.Machine
end

