-- ==== Sys2Proof/Machine/Pages.lean ====
section
/-! DEFINITION. The page map of BAR0: pages (R40, R41, R78), their block types, capabilities (R55) and reset of ENABLE,
and the shape of a register-catalogue row. -/

namespace Sys2Proof.Machine

/-- Access code of a register field (R6, R7); `womw` and `wokw` are WO fields accepted only from PF0 or the winning keeper. -/
inductive Acc where
  | ro | rw | rc | w1c | w1s | wo | kw | mw | womw | wokw
deriving DecidableEq, Repr

/-- A field of a register: bits [hi:lo], its access code, and the values it may hold (empty: any). -/
structure FieldD where
  hi : Nat
  lo : Nat
  acc : Acc
  ok : List (Nat × Nat)
deriving DecidableEq, Repr

/-- A register, or an array of registers: offset `base + s1 * i + s2 * j` for `i < n1`, `j < n2`; `wide` when it is a
64-bit pair (R45), whose high word has the fields `hiFields`. -/
structure RegD where
  base : Nat
  s1 : Nat
  n1 : Nat
  s2 : Nat
  n2 : Nat
  reset : Nat
  wide : Bool
  fields : List FieldD
  hiFields : List FieldD
deriving DecidableEq, Repr

/-- A named field of a named register of a page. -/
structure Fld where
  off : Nat
  hi : Nat
  lo : Nat
deriving DecidableEq, Repr

/-- The kinds of page of the catalogue (R78); a block with a page on each die has one kind per die, since their registers differ. -/
inductive PageKind where
  | host | relay | pwrH | sensH
  | keepA | keepB | jrnlFe | jrnlTm | cosy | act | brew | part | disp | dbg | pclu | strn | line | flex | slot | pm
  | tbl | tern | learn | samp | caddy | voq | adm | sched | spout | fab | hbmc
  | brdgFe | brdgTm | testFe | testTm | sensFe | sensTm | pwrFe | pwrTm
deriving DecidableEq, Repr

/-- A page within a channel: die 0 is the FE die, die 1 the TM die; `num` is the page number 0x000–0x1FF (R41). -/
structure Pg where
  die : Nat
  num : Nat
deriving DecidableEq, Repr

/-- Byte offset of a register within the channel's BAR0 window (R41). The keeper port of the TBL page repeats
the host port's registers; the block's configuration and counters at 0x0128–0x014F are one storage under two access codes, while a port's
commands and their status are its own (R407, log 56). -/
def Pg.key (p : Pg) (off : Nat) : Nat :=
  let off' := if p.die = 0 ∧ p.num = 0x40 ∧ 0x528 ≤ off ∧ off < 0x550 then off - 0x400 else off
  p.die * 0x2000000 + p.num * 0x10000 + off'

/-- Page numbers of the catalogue (R78). -/
abbrev pgKeepA : Pg := ⟨0, 0x000⟩
abbrev pgKeepB : Pg := ⟨1, 0x000⟩
abbrev pgJrnl : Pg := ⟨0, 0x001⟩
abbrev pgJrnlTm : Pg := ⟨1, 0x001⟩
abbrev pgCosy : Pg := ⟨0, 0x002⟩
abbrev pgAct : Pg := ⟨0, 0x003⟩
abbrev pgBrew : Pg := ⟨0, 0x004⟩
abbrev pgPart : Pg := ⟨0, 0x005⟩
abbrev pgDisp : Pg := ⟨0, 0x006⟩
abbrev pgDbg : Pg := ⟨0, 0x007⟩
abbrev pgPclu (c : Nat) : Pg := ⟨0, 0x010 + c⟩
abbrev pgStrn (i : Nat) : Pg := ⟨0, 0x020 + i⟩
abbrev pgLine (i : Nat) : Pg := ⟨0, 0x030 + i⟩
abbrev pgFlex : Pg := ⟨0, 0x038⟩
abbrev pgSlot : Pg := ⟨0, 0x039⟩
abbrev pgPm : Pg := ⟨0, 0x03A⟩
abbrev pgTbl : Pg := ⟨0, 0x040⟩
abbrev pgTern : Pg := ⟨0, 0x041⟩
abbrev pgLearn : Pg := ⟨0, 0x042⟩
abbrev pgSamp : Pg := ⟨0, 0x043⟩
abbrev pgCaddy : Pg := ⟨1, 0x008⟩
abbrev pgVoq : Pg := ⟨1, 0x009⟩
abbrev pgAdm : Pg := ⟨1, 0x00A⟩
abbrev pgSched : Pg := ⟨1, 0x00B⟩
abbrev pgSpout : Pg := ⟨1, 0x00C⟩
abbrev pgFab : Pg := ⟨1, 0x010⟩
abbrev pgHbmc (s : Nat) : Pg := ⟨1, 0x018 + s⟩
abbrev pgBrdg (d : Nat) : Pg := ⟨d, 0x048⟩
abbrev pgTest (d : Nat) : Pg := ⟨d, 0x049⟩
abbrev pgSens (d : Nat) : Pg := ⟨d, 0x04A⟩
abbrev pgPwr (d : Nat) : Pg := ⟨d, 0x04B⟩

/-- Host island page numbers (R78). -/
abbrev hpHost : Nat := 0
abbrev hpRelay : Nat := 1
abbrev hpPwr : Nat := 2
abbrev hpSens : Nat := 3

/-- The kind of a channel page, `none` for a page number the catalogue does not list (R42, R78). -/
def Pg.kind (p : Pg) : Option PageKind :=
  if p.die = 0 then
    if p.num = 0 then some .keepA else if p.num = 1 then some .jrnlFe else if p.num = 2 then some .cosy
    else if p.num = 3 then some .act else if p.num = 4 then some .brew else if p.num = 5 then some .part
    else if p.num = 6 then some .disp else if p.num = 7 then some .dbg
    else if 0x10 ≤ p.num ∧ p.num < 0x20 then some .pclu else if 0x20 ≤ p.num ∧ p.num < 0x2C then some .strn
    else if 0x30 ≤ p.num ∧ p.num < 0x38 then some .line else if p.num = 0x38 then some .flex
    else if p.num = 0x39 then some .slot else if p.num = 0x3A then some .pm else if p.num = 0x40 then some .tbl
    else if p.num = 0x41 then some .tern else if p.num = 0x42 then some .learn else if p.num = 0x43 then some .samp
    else if p.num = 0x48 then some .brdgFe else if p.num = 0x49 then some .testFe
    else if p.num = 0x4A then some .sensFe else if p.num = 0x4B then some .pwrFe else none
  else if p.die = 1 then
    if p.num = 0 then some .keepB else if p.num = 1 then some .jrnlTm else if p.num = 8 then some .caddy
    else if p.num = 9 then some .voq else if p.num = 0xA then some .adm else if p.num = 0xB then some .sched
    else if p.num = 0xC then some .spout else if p.num = 0x10 then some .fab
    else if 0x18 ≤ p.num ∧ p.num < 0x1A then some .hbmc
    else if p.num = 0x48 then some .brdgTm else if p.num = 0x49 then some .testTm
    else if p.num = 0x4A then some .sensTm else if p.num = 0x4B then some .pwrTm else none
  else none

/-- The kind of a host island page (R78). -/
def hpKind (n : Nat) : Option PageKind :=
  if n = 0 then some .host else if n = 1 then some .relay else if n = 2 then some .pwrH
  else if n = 3 then some .sensH else none

/-- Block type of a page (R53, R78). -/
def PageKind.type : PageKind → Nat
  | .host => 0x01 | .relay => 0x02 | .pwrH => 0x1F | .sensH => 0x1E | .keepA => 0x04 | .keepB => 0x04
  | .jrnlFe => 0x05 | .jrnlTm => 0x05 | .cosy => 0x06 | .act => 0x07 | .brew => 0x08 | .part => 0x03 | .disp => 0x0D
  | .dbg => 0x0F | .pclu => 0x0E | .strn => 0x10 | .line => 0x09 | .flex => 0x0A | .slot => 0x0B | .pm => 0x0C
  | .tbl => 0x11 | .tern => 0x12 | .learn => 0x13 | .samp => 0x14 | .caddy => 0x16 | .voq => 0x17 | .adm => 0x18
  | .sched => 0x19 | .spout => 0x1A | .fab => 0x1B | .hbmc => 0x1C | .brdgFe => 0x15 | .brdgTm => 0x15
  | .testFe => 0x1D | .testTm => 0x1D | .sensFe => 0x1E | .sensTm => 0x1E | .pwrFe => 0x1F | .pwrTm => 0x1F

/-- Instance number of a page within its die (R53, R78). -/
def Pg.instance' (p : Pg) : Nat :=
  if p.die = 0 then
    if 0x10 ≤ p.num ∧ p.num < 0x20 then p.num - 0x10 else if 0x20 ≤ p.num ∧ p.num < 0x2C then p.num - 0x20
    else if 0x30 ≤ p.num ∧ p.num < 0x38 then p.num - 0x30 else 0
  else if 0x18 ≤ p.num ∧ p.num < 0x1A then p.num - 0x18 else 0

/-- The common capabilities of a page (R55). -/
structure Cap where
  tally : Bool
  errCap : Bool
  gate : Bool
  takeover : Bool
  quiesce : Bool
  ownable : Bool
  numCause : Nat
deriving DecidableEq, Repr

/-- PAGE_CAP of each page, from the owning chapters. -/
def PageKind.cap : PageKind → Cap
  | .host => ⟨true, true, false, false, false, false, 3⟩
  | .relay => ⟨false, true, false, false, false, false, 3⟩
  | .pwrH => ⟨false, false, false, false, false, false, 3⟩
  | .sensH => ⟨false, false, false, false, false, false, 3⟩
  | .keepA => ⟨true, true, false, false, false, false, 8⟩
  | .keepB => ⟨true, true, false, false, false, false, 8⟩
  | .jrnlFe => ⟨false, false, true, false, false, false, 3⟩
  | .jrnlTm => ⟨false, false, false, false, false, false, 0⟩
  | .cosy => ⟨true, true, true, false, false, false, 12⟩
  | .act => ⟨true, true, true, false, false, false, 6⟩
  | .brew => ⟨true, true, true, false, false, false, 5⟩
  | .part => ⟨false, true, false, false, false, false, 4⟩
  | .disp => ⟨true, false, true, false, false, false, 6⟩
  | .dbg => ⟨false, false, false, false, false, false, 2⟩
  | .pclu => ⟨true, true, true, false, false, false, 5⟩
  | .strn => ⟨true, true, false, false, false, false, 6⟩
  | .line => ⟨true, true, false, true, false, false, 8⟩
  | .flex => ⟨true, true, false, false, false, false, 7⟩
  | .slot => ⟨false, true, false, false, false, false, 5⟩
  | .pm => ⟨false, false, true, false, false, false, 3⟩
  | .tbl => ⟨true, true, true, false, false, false, 8⟩
  | .tern => ⟨false, true, true, false, false, false, 2⟩
  | .learn => ⟨true, false, false, false, false, false, 3⟩
  | .samp => ⟨false, false, false, false, false, false, 2⟩
  | .caddy => ⟨true, true, true, false, false, false, 8⟩
  | .voq => ⟨true, false, false, false, false, false, 2⟩
  | .adm => ⟨true, false, false, false, false, false, 6⟩
  | .sched => ⟨true, true, false, false, false, false, 2⟩
  | .spout => ⟨true, true, false, false, false, false, 5⟩
  | .fab => ⟨true, true, false, true, false, false, 8⟩
  | .hbmc => ⟨true, true, true, false, false, false, 8⟩
  | .brdgFe => ⟨false, false, false, false, false, false, 4⟩
  | .brdgTm => ⟨false, false, false, false, false, false, 4⟩
  | .testFe => ⟨false, false, false, false, false, false, 4⟩
  | .testTm => ⟨false, false, false, false, false, false, 4⟩
  | .sensFe => ⟨false, false, false, false, false, false, 3⟩
  | .sensTm => ⟨false, false, false, false, false, false, 3⟩
  | .pwrFe => ⟨false, false, false, false, false, false, 0⟩
  | .pwrTm => ⟨false, false, false, false, false, false, 0⟩

/-- PAGE_CAP as a word (R55). -/
def Cap.word (c : Cap) : Word :=
  BitVec.ofNat 32 (b2n c.tally * 2 ^ 31 + b2n c.errCap * 2 ^ 30 + b2n c.gate * 2 ^ 29 + b2n c.takeover * 2 ^ 28
    + b2n c.quiesce * 2 ^ 27 + b2n c.ownable * 2 ^ 26 + c.numCause * 2 ^ 8)

/-- The INT_CAUSE bits a page has: the common bits 0–4 and its block-specific bits (R62). -/
def Cap.causeMask (c : Cap) : Nat := 0x1F + (2 ^ c.numCause - 1) * 2 ^ 8

/-- Reset value of PAGE_CTRL.ENABLE (R78). -/
def PageKind.enableReset : PageKind → Nat
  | .host => 1 | .relay => 1 | .pwrH => 1 | .sensH => 1 | .keepA => 1 | .keepB => 1 | .jrnlFe => 1 | .jrnlTm => 1
  | .cosy => 1 | .part => 1 | .brdgFe => 1 | .brdgTm => 1 | .testFe => 1 | .testTm => 1 | .sensFe => 1 | .sensTm => 1
  | .pwrFe => 1 | .pwrTm => 1
  | .act => 0 | .brew => 0 | .disp => 0 | .dbg => 0 | .pclu => 0 | .strn => 0 | .line => 0 | .flex => 0 | .slot => 0
  | .pm => 0 | .tbl => 0 | .tern => 0 | .learn => 0 | .samp => 0 | .caddy => 0 | .voq => 0 | .adm => 0 | .sched => 0
  | .spout => 0 | .fab => 0 | .hbmc => 0

/-- The last block-specific tally event code a page defines; codes above it, and 0x09–0x0F, are reserved (R77). -/
def PageKind.lastEvent : PageKind → Nat
  | .disp => 0x12 | .pclu => 0x13 | .strn => 0x16 | .line => 0x16 | .flex => 0x11 | .tbl => 0x14 | .caddy => 0x13
  | .voq => 0x13 | .adm => 0x13 | .sched => 0x11 | .spout => 0x12 | .fab => 0x14 | .hbmc => 0x14
  | _ => 0x0F

/-- Offsets of the page header (R53–R73). -/
abbrev oID : Nat := 0x00
abbrev oREV : Nat := 0x04
abbrev oCAP : Nat := 0x08
abbrev oCTRL : Nat := 0x0C
abbrev oSTAT : Nat := 0x10
abbrev oCAUSE : Nat := 0x20
abbrev oENABLE : Nat := 0x24
abbrev oFORCE : Nat := 0x28
abbrev oFIRST : Nat := 0x2C
abbrev oROUTE : Nat := 0x30
abbrev oERR (n : Nat) : Nat := 0x40 + 4 * n
abbrev oTALLY : Nat := 0x80
abbrev oOVF : Nat := 0x84
abbrev oEVSEL (n : Nat) : Nat := 0xA8 + 4 * n
abbrev oCNT (n : Nat) : Nat := 0xC0 + 8 * n

/-- Fields of the page header (R56, R57, R65, R70, R73). -/
abbrev CTRL_OWNER : Fld := ⟨0x0C, 15, 8⟩
abbrev CTRL_TAKEOVER : Fld := ⟨0x0C, 3, 3⟩
abbrev CTRL_SOFT_RESET : Fld := ⟨0x0C, 2, 2⟩
abbrev CTRL_QUIESCE : Fld := ⟨0x0C, 1, 1⟩
abbrev CTRL_ENABLE : Fld := ⟨0x0C, 0, 0⟩
abbrev STAT_TEST_ACTIVE : Fld := ⟨0x10, 5, 5⟩
abbrev STAT_FAULT : Fld := ⟨0x10, 4, 4⟩
abbrev STAT_DEGRADED : Fld := ⟨0x10, 3, 3⟩
abbrev STAT_BUSY : Fld := ⟨0x10, 2, 2⟩
abbrev STAT_QUIESCED : Fld := ⟨0x10, 1, 1⟩
abbrev STAT_READY : Fld := ⟨0x10, 0, 0⟩
abbrev ROUTE_DEST : Fld := ⟨0x30, 17, 16⟩
abbrev ROUTE_VECTOR : Fld := ⟨0x30, 10, 0⟩

end Sys2Proof.Machine
end

