-- ==== Sys2Proof/Machine/RegMap.lean ====
section
/-! DEFINITION. The register catalogue: for each kind of page, its block-specific registers as the spec's register
tables give them (offset, array shape, reset word, fields with access code and allowed values). One row per register or
array; the docstring of each list names the rule whose table it follows. -/

namespace Sys2Proof.Machine

/-- Registers of the relay page (R26). -/
def regs_relay : List RegD := [
  ⟨0x110, 16, 3, 0, 1, 0x80000000, false, [⟨31, 31, .mw, []⟩, ⟨30, 30, .womw, []⟩], []⟩ /- RELAY.LINK_CTRL -/,
  ⟨0x114, 16, 3, 0, 1, 0x0, false, [⟨31, 30, .ro, []⟩, ⟨7, 0, .ro, []⟩], []⟩ /- RELAY.LINK_STAT -/,
  ⟨0x118, 16, 3, 0, 1, 0x0, false, [⟨31, 0, .rc, []⟩], []⟩ /- RELAY.REPLAY_CNT -/,
  ⟨0x11C, 16, 3, 0, 1, 0x0, false, [⟨31, 0, .rc, []⟩], []⟩ /- RELAY.DOWN_CNT -/,
  ⟨0x100, 4, 4, 0, 1, 0x0, false, [⟨31, 0, .ro, []⟩], []⟩ /- RELAY.BLOCK0 -/]

/-- Registers of the host page (R49, R558, R50). -/
def regs_host : List RegD := [
  ⟨0x100, 0, 1, 0, 1, 0x0, false, [⟨31, 0, .rc, []⟩], []⟩ /- HOST.REJ_KW_CNT -/,
  ⟨0x104, 0, 1, 0, 1, 0x0, false, [⟨31, 0, .rc, []⟩], []⟩ /- HOST.REJ_MW_CNT -/,
  ⟨0x108, 0, 1, 0, 1, 0x0, false, [⟨31, 0, .rc, []⟩], []⟩ /- HOST.REJ_OWN_CNT -/,
  ⟨0x10C, 0, 1, 0, 1, 0x0, false, [⟨31, 0, .rc, []⟩], []⟩ /- HOST.UNIMPL_CNT -/,
  ⟨0x120, 0, 1, 0, 1, 0x8, false, [⟨4, 0, .mw, [(0, 16)]⟩], []⟩ /- HOST.MSIX_CFG -/,
  ⟨0x124, 0, 1, 0, 1, 0x0, false, [⟨0, 0, .mw, []⟩], []⟩ /- HOST.FUNC_CFG -/,
  ⟨0x128, 0, 1, 0, 1, 0x0, false, [⟨31, 28, .ro, []⟩, ⟨21, 16, .ro, []⟩, ⟨15, 15, .ro, []⟩], []⟩ /- HOST.LINK_STAT -/,
  ⟨0x12C, 0, 1, 0, 1, 0x0, false, [⟨31, 0, .rc, []⟩], []⟩ /- HOST.FLR_CNT -/,
  ⟨0x110, 0, 1, 0, 1, 0x0, false, [⟨31, 31, .w1c, []⟩, ⟨30, 29, .ro, []⟩, ⟨28, 28, .ro, []⟩, ⟨27, 21, .ro, []⟩, ⟨20, 0, .ro, []⟩], []⟩ /- HOST.REJ_FIRST -/,
  ⟨0x114, 0, 1, 0, 1, 0x0, false, [⟨5, 0, .ro, []⟩], []⟩ /- HOST.REJ_FIRST_HI -/]

/-- Registers of the keepA page (R113). -/
def regs_keepA : List RegD := [
  ⟨0x100, 0, 1, 0, 1, 0x0, false, [⟨26, 24, .ro, []⟩, ⟨23, 16, .ro, []⟩, ⟨15, 8, .ro, []⟩, ⟨4, 4, .ro, []⟩, ⟨3, 3, .ro, []⟩, ⟨2, 2, .ro, []⟩, ⟨1, 1, .ro, []⟩, ⟨0, 0, .ro, []⟩], []⟩ /- KEEP.STATUS -/,
  ⟨0x104, 0, 1, 0, 1, 0x0, false, [⟨31, 31, .ro, []⟩, ⟨7, 0, .ro, []⟩], []⟩ /- KEEP.CLAIM -/,
  ⟨0x108, 0, 1, 0, 1, 0x8040, false, [⟨15, 8, .mw, []⟩, ⟨7, 0, .mw, []⟩], []⟩ /- KEEP.CLAIM_LEVEL -/,
  ⟨0x110, 0, 1, 0, 1, 0x0, false, [⟨31, 0, .ro, []⟩], []⟩ /- KEEP.CYCLE_IDX -/,
  ⟨0x114, 0, 1, 0, 1, 0x0, false, [⟨31, 0, .ro, []⟩], []⟩ /- KEEP.HEARTBEAT -/,
  ⟨0x118, 0, 1, 0, 1, 0x0, false, [⟨8, 8, .mw, []⟩, ⟨2, 0, .ro, []⟩], []⟩ /- KEEP.WDOG -/,
  ⟨0x11C, 0, 1, 0, 1, 0x0, false, [⟨31, 0, .rc, []⟩], []⟩ /- KEEP.COPY_FAIL_CNT -/,
  ⟨0x120, 0, 1, 0, 1, 0x0, false, [⟨31, 0, .ro, []⟩], []⟩ /- KEEP.TAKEOVER_CNT -/,
  ⟨0x124, 0, 1, 0, 1, 0x0, false, [⟨31, 0, .ro, []⟩], []⟩ /- KEEP.REPAIR_CNT -/,
  ⟨0x128, 0, 1, 0, 1, 0x0, false, [⟨31, 0, .rc, []⟩], []⟩ /- KEEP.GATE_REJ_CNT -/,
  ⟨0x12C, 0, 1, 0, 1, 0x0, false, [⟨31, 31, .w1c, []⟩, ⟨29, 29, .ro, []⟩, ⟨28, 20, .ro, []⟩, ⟨13, 0, .ro, []⟩], []⟩ /- KEEP.GATE_REJ_FIRST -/,
  ⟨0x140, 0, 1, 0, 1, 0x0, true, [⟨31, 0, .mw, []⟩], [⟨31, 0, .mw, []⟩]⟩ /- KEEP.FW_ADDR -/,
  ⟨0x148, 0, 1, 0, 1, 0x0, false, [⟨31, 0, .mw, []⟩], []⟩ /- KEEP.FW_LEN -/,
  ⟨0x14C, 0, 1, 0, 1, 0x0, false, [⟨0, 0, .womw, []⟩], []⟩ /- KEEP.FW_CTRL -/,
  ⟨0x150, 0, 1, 0, 1, 0x0, false, [⟨31, 31, .ro, []⟩, ⟨30, 30, .w1c, []⟩, ⟨7, 0, .ro, []⟩], []⟩ /- KEEP.FW_STAT -/,
  ⟨0x154, 0, 1, 0, 1, 0x0, false, [⟨31, 0, .ro, []⟩], []⟩ /- KEEP.FW_VER -/,
  ⟨0x158, 0, 1, 0, 1, 0x0, false, [⟨7, 0, .ro, []⟩], []⟩ /- KEEP.FW_SVN_MIN -/,
  ⟨0x180, 0, 1, 0, 1, 0x0, false, [⟨31, 31, .womw, []⟩, ⟨23, 16, .mw, []⟩, ⟨7, 0, .mw, []⟩], []⟩ /- KEEP.SVC_CMD -/,
  ⟨0x184, 0, 1, 0, 1, 0x0, false, [⟨31, 31, .ro, []⟩, ⟨30, 30, .w1c, []⟩, ⟨23, 16, .ro, []⟩, ⟨7, 0, .ro, []⟩], []⟩ /- KEEP.SVC_STAT -/,
  ⟨0x190, 4, 8, 0, 1, 0x0, false, [⟨31, 0, .mw, []⟩], []⟩ /- KEEP.SVC_ARG -/,
  ⟨0x1B0, 4, 8, 0, 1, 0x0, false, [⟨31, 0, .ro, []⟩], []⟩ /- KEEP.SVC_RESP -/]

/-- Registers of the jrnlFe page (R127). -/
def regs_jrnlFe : List RegD := [
  ⟨0x100, 0, 1, 0, 1, 0x8, false, [⟨5, 5, .wo, []⟩, ⟨4, 4, .wo, []⟩, ⟨3, 3, .rw, []⟩, ⟨2, 2, .rw, []⟩, ⟨0, 0, .rw, []⟩], []⟩ /- JRNL.CTRL -/,
  ⟨0x104, 0, 1, 0, 1, 0x0, false, [⟨31, 31, .kw, []⟩, ⟨30, 30, .kw, []⟩, ⟨14, 0, .kw, []⟩], []⟩ /- JRNL.STAT -/,
  ⟨0x108, 0, 1, 0, 1, 0x0, false, [⟨29, 16, .kw, []⟩, ⟨15, 0, .kw, []⟩], []⟩ /- JRNL.HEAD -/,
  ⟨0x10C, 0, 1, 0, 1, 0x0, false, [⟨31, 0, .kw, []⟩], []⟩ /- JRNL.DROP_CNT -/,
  ⟨0x110, 0, 1, 0, 1, 0x0, false, [⟨13, 0, .kw, []⟩], []⟩ /- JRNL.STREAM_IDX -/,
  ⟨0x114, 0, 1, 0, 1, 0x0, false, [⟨31, 0, .kw, []⟩], []⟩ /- JRNL.STREAM_LOST -/,
  ⟨0x118, 0, 1, 0, 1, 0x0, false, [⟨13, 0, .rw, []⟩], []⟩ /- JRNL.RD_IDX -/,
  ⟨0x120, 4, 8, 0, 1, 0x0, false, [⟨31, 0, .ro, []⟩], []⟩ /- JRNL.RD_DATA -/]

/-- Registers of the cosy page (R163). -/
def regs_cosy_0 : List RegD := [
  ⟨0x100, 0, 1, 0, 1, 0x0, false, [⟨31, 29, .ro, []⟩, ⟨28, 27, .ro, []⟩, ⟨26, 26, .ro, []⟩, ⟨25, 25, .ro, []⟩, ⟨24, 24, .ro, []⟩, ⟨23, 16, .ro, []⟩, ⟨15, 8, .ro, []⟩, ⟨7, 7, .ro, []⟩, ⟨6, 6, .ro, []⟩], []⟩ /- COSY.STATUS -/,
  ⟨0x104, 0, 1, 0, 1, 0xFFFFFFFF, false, [⟨31, 0, .kw, []⟩], []⟩ /- COSY.TE_BOUND -/,
  ⟨0x108, 0, 1, 0, 1, 0x0, false, [⟨31, 0, .kw, []⟩], []⟩ /- COSY.LEARN_SEC -/,
  ⟨0x10C, 0, 1, 0, 1, 0x0, false, [⟨31, 0, .kw, []⟩], []⟩ /- COSY.SERVO_TICK -/,
  ⟨0x110, 4, 4, 0, 1, 0x0, false, [⟨31, 0, .ro, []⟩], []⟩ /- COSY.TOD_W -/,
  ⟨0x120, 0, 1, 0, 1, 0x0, true, [⟨31, 0, .ro, []⟩], [⟨31, 0, .ro, []⟩]⟩ /- COSY.LOCAL -/,
  ⟨0x130, 0, 1, 0, 1, 0x0, true, [⟨31, 0, .kw, []⟩], [⟨15, 0, .kw, []⟩]⟩ /- COSY.FREQ_ADJ -/,
  ⟨0x138, 0, 1, 0, 1, 0x0, false, [⟨31, 0, .kw, []⟩], []⟩ /- COSY.SLEW_RATE -/,
  ⟨0x140, 0, 1, 0, 1, 0x0, true, [⟨31, 0, .kw, []⟩], [⟨31, 0, .kw, []⟩]⟩ /- COSY.STEP_OFS -/,
  ⟨0x148, 0, 1, 0, 1, 0x0, false, [⟨0, 0, .wokw, []⟩], []⟩ /- COSY.STEP_CTRL -/,
  ⟨0x14C, 0, 1, 0, 1, 0x0, false, [⟨0, 0, .wokw, []⟩], []⟩ /- COSY.CLK_CTRL -/,
  ⟨0x150, 0, 1, 0, 1, 0x201, false, [⟨7, 0, .mw, []⟩, ⟨15, 8, .mw, []⟩], []⟩ /- COSY.TIME_PRIO -/,
  ⟨0x154, 0, 1, 0, 1, 0x0, false, [⟨7, 0, .mw, []⟩, ⟨15, 8, .mw, []⟩, ⟨23, 16, .mw, []⟩, ⟨31, 24, .mw, []⟩], []⟩ /- COSY.FREQ_PRIO -/,
  ⟨0x158, 0, 1, 0, 1, 0x3C00000, false, [⟨31, 20, .mw, [(0, 3600)]⟩, ⟨17, 17, .mw, []⟩, ⟨16, 16, .mw, []⟩, ⟨15, 15, .mw, []⟩, ⟨13, 8, .mw, []⟩, ⟨7, 7, .mw, []⟩, ⟨5, 0, .mw, []⟩], []⟩ /- COSY.SRC_CFG -/,
  ⟨0x15C, 0, 1, 0, 1, 0x0, false, [⟨1, 1, .ro, []⟩, ⟨2, 2, .ro, []⟩, ⟨16, 16, .ro, []⟩, ⟨17, 17, .ro, []⟩], []⟩ /- COSY.SRC_STAT -/,
  ⟨0x160, 0, 1, 0, 1, 0x103E8064, false, [⟨31, 24, .mw, [(1, 255)]⟩, ⟨23, 12, .mw, [(2, 4095)]⟩, ⟨11, 0, .mw, [(1, 4094)]⟩], []⟩ /- COSY.LOCK_CFG -/,
  ⟨0x164, 0, 1, 0, 1, 0x80100064, false, [⟨31, 31, .mw, []⟩, ⟨30, 30, .mw, []⟩, ⟨29, 20, .mw, [(1, 1000)]⟩, ⟨19, 0, .mw, [(1, 100000)]⟩], []⟩ /- COSY.SLEW_CFG -/,
  ⟨0x168, 0, 1, 0, 1, 0x22580000, false, [⟨31, 30, .mw, [(0, 1)]⟩, ⟨29, 29, .mw, []⟩, ⟨27, 16, .mw, [(1, 4095)]⟩], []⟩ /- COSY.HO_CFG -/,
  ⟨0x16C, 0, 1, 0, 1, 0x44C, false, [⟨31, 0, .mw, [(1, 4294967295)]⟩], []⟩ /- COSY.HO_LIMIT -/,
  ⟨0x170, 0, 1, 0, 1, 0x0, false, [⟨31, 31, .mw, []⟩, ⟨30, 30, .mw, []⟩, ⟨19, 0, .mw, [(0, 1000000)]⟩], []⟩ /- COSY.PPS_IN_CFG -/,
  ⟨0x174, 0, 1, 0, 1, 0x0, false, [⟨31, 31, .mw, []⟩, ⟨1, 0, .mw, [(0, 2)]⟩], []⟩ /- COSY.TOD_IN_CFG -/,
  ⟨0x178, 0, 1, 0, 1, 0x0, false, [⟨31, 0, .rc, []⟩], []⟩ /- COSY.TOD_ERR_CNT -/,
  ⟨0x180, 0, 1, 0, 1, 0x11, false, [⟨31, 31, .mw, []⟩, ⟨30, 30, .mw, []⟩, ⟨29, 29, .mw, []⟩, ⟨28, 28, .mw, []⟩, ⟨27, 26, .mw, [(0, 2)]⟩, ⟨23, 20, .mw, [(0, 6)]⟩, ⟨19, 16, .mw, [(0, 6)]⟩, ⟨4, 0, .mw, []⟩], []⟩ /- COSY.OUT_CFG -/,
  ⟨0x184, 0, 1, 0, 1, 0x6400000, false, [⟨31, 20, .mw, [(1, 500)]⟩, ⟨19, 0, .mw, []⟩], []⟩ /- COSY.PPS_OUT_CFG -/]

/-- Registers of the cosy page (R163). -/
def regs_cosy_1 : List RegD := [
  ⟨0x190, 0, 1, 0, 1, 0x0, false, [⟨31, 0, .rc, []⟩], []⟩ /- COSY.PTP_RXQ_DROP -/,
  ⟨0x194, 0, 1, 0, 1, 0x0, false, [⟨31, 0, .rc, []⟩], []⟩ /- COSY.TC_DROP_CNT -/,
  ⟨0x198, 0, 1, 0, 1, 0x0, false, [⟨31, 0, .rc, []⟩], []⟩ /- COSY.STEP_CNT -/]

/-- Registers of the cosy page (R163). -/
def regs_cosy : List RegD := regs_cosy_0 ++ regs_cosy_1

/-- Registers of the act page (R180). -/
def regs_act : List RegD := [
  ⟨0x100, 0, 1, 0, 1, 0x100, false, [⟨10, 0, .mw, [(0, 1024)]⟩], []⟩ /- ACT.CFG -/,
  ⟨0x104, 0, 1, 0, 1, 0x0, false, [⟨26, 16, .ro, []⟩, ⟨10, 0, .ro, []⟩], []⟩ /- ACT.STATUS -/,
  ⟨0x110, 0, 1, 0, 1, 0x0, true, [⟨31, 0, .mw, []⟩], [⟨31, 0, .mw, []⟩]⟩ /- ACT.HARM_TIME -/,
  ⟨0x118, 0, 1, 0, 1, 0x0, true, [⟨31, 0, .mw, []⟩], [⟨31, 0, .mw, []⟩]⟩ /- ACT.HARM_ARG -/,
  ⟨0x120, 0, 1, 0, 1, 0x0, false, [⟨31, 31, .wo, []⟩, ⟨30, 29, .mw, [(0, 2)]⟩, ⟨28, 28, .mw, []⟩, ⟨27, 27, .mw, []⟩, ⟨26, 26, .mw, []⟩, ⟨25, 25, .mw, []⟩, ⟨23, 16, .mw, []⟩, ⟨9, 0, .mw, []⟩], []⟩ /- ACT.HARM_CTRL -/,
  ⟨0x124, 0, 1, 0, 1, 0x0, false, [⟨31, 31, .w1c, []⟩, ⟨23, 16, .ro, []⟩, ⟨9, 0, .ro, []⟩], []⟩ /- ACT.HARM_RESULT -/,
  ⟨0x130, 0, 1, 0, 1, 0x0, true, [⟨31, 0, .kw, []⟩], [⟨31, 0, .kw, []⟩]⟩ /- ACT.KARM_TIME -/,
  ⟨0x138, 0, 1, 0, 1, 0x0, true, [⟨31, 0, .kw, []⟩], [⟨31, 0, .kw, []⟩]⟩ /- ACT.KARM_ARG -/,
  ⟨0x140, 0, 1, 0, 1, 0x0, false, [⟨31, 31, .wokw, []⟩, ⟨30, 29, .kw, [(0, 2)]⟩, ⟨28, 28, .kw, []⟩, ⟨27, 27, .kw, []⟩, ⟨26, 26, .kw, []⟩, ⟨25, 25, .kw, []⟩, ⟨23, 16, .kw, []⟩, ⟨9, 0, .kw, []⟩], []⟩ /- ACT.KARM_CTRL -/,
  ⟨0x144, 0, 1, 0, 1, 0x0, false, [⟨31, 31, .w1c, []⟩, ⟨23, 16, .ro, []⟩, ⟨9, 0, .ro, []⟩], []⟩ /- ACT.KARM_RESULT -/,
  ⟨0x150, 0, 1, 0, 1, 0x0, false, [⟨9, 0, .rw, []⟩], []⟩ /- ACT.SLOT_RD_IDX -/,
  ⟨0x154, 4, 5, 0, 1, 0x0, false, [⟨31, 0, .ro, []⟩], []⟩ /- ACT.SLOT_RD -/,
  ⟨0x180, 0, 1, 0, 1, 0x0, false, [⟨31, 0, .rc, []⟩], []⟩ /- ACT.FIRED_CNT -/,
  ⟨0x184, 0, 1, 0, 1, 0x0, false, [⟨31, 0, .rc, []⟩], []⟩ /- ACT.LATE_CNT -/,
  ⟨0x188, 0, 1, 0, 1, 0x0, false, [⟨31, 0, .rc, []⟩], []⟩ /- ACT.STEP_FIRE_CNT -/,
  ⟨0x18C, 0, 1, 0, 1, 0x0, false, [⟨31, 0, .rc, []⟩], []⟩ /- ACT.NO_TIME_CNT -/,
  ⟨0x190, 0, 1, 0, 1, 0x0, false, [⟨31, 0, .rc, []⟩], []⟩ /- ACT.TARGET_ERR_CNT -/]

/-- Registers of the brew page (R199). -/
def regs_brew : List RegD := [
  ⟨0x100, 0, 1, 0, 1, 0x0, false, [⟨31, 29, .ro, []⟩, ⟨28, 28, .ro, []⟩, ⟨27, 27, .ro, []⟩, ⟨23, 16, .ro, []⟩, ⟨15, 0, .ro, []⟩], []⟩ /- BREW.STATUS -/,
  ⟨0x104, 0, 1, 0, 1, 0x1, false, [⟨15, 0, .ro, []⟩], []⟩ /- BREW.NEXT -/,
  ⟨0x108, 0, 1, 0, 1, 0x0, false, [⟨5, 5, .mw, []⟩, ⟨4, 4, .womw, []⟩, ⟨3, 3, .womw, []⟩, ⟨2, 2, .womw, []⟩], []⟩ /- BREW.CTRL -/,
  ⟨0x10C, 0, 1, 0, 1, 0x1, false, [⟨15, 0, .mw, []⟩], []⟩ /- BREW.FIRST_NUM -/,
  ⟨0x110, 0, 1, 0, 1, 0x0, true, [⟨31, 0, .mw, []⟩], [⟨31, 0, .mw, []⟩]⟩ /- BREW.IMG_ADDR -/,
  ⟨0x118, 0, 1, 0, 1, 0x0, false, [⟨31, 0, .mw, [(0, 4194304)]⟩], []⟩ /- BREW.IMG_LEN -/,
  ⟨0x120, 0, 1, 0, 1, 0x0, true, [⟨31, 0, .ro, []⟩], [⟨31, 0, .ro, []⟩]⟩ /- BREW.POUR_T -/,
  ⟨0x128, 0, 1, 0, 1, 0x0, true, [⟨31, 0, .ro, []⟩], [⟨31, 0, .ro, []⟩]⟩ /- BREW.POUR_EXEC -/,
  ⟨0x130, 0, 1, 0, 1, 0xFFFFFFFF, false, [⟨31, 0, .mw, []⟩], []⟩ /- BREW.POUR_CFG -/,
  ⟨0x134, 0, 1, 0, 1, 0x64, false, [⟨13, 0, .mw, [(1, 10000)]⟩], []⟩ /- BREW.RETIRE_DELAY -/,
  ⟨0x138, 0, 1, 0, 1, 0x0, false, [⟨31, 0, .rc, []⟩], []⟩ /- BREW.INACTIVE_DROP -/]

/-- Registers of the line page (R225, R233). -/
def regs_line_0 : List RegD := [
  ⟨0x100, 4, 4, 0, 1, 0x0, false, [⟨2, 2, .rw, []⟩, ⟨1, 1, .rw, []⟩, ⟨0, 0, .rw, []⟩], []⟩ /- LINE.LANE_CFG -/,
  ⟨0x110, 4, 4, 0, 1, 0x0, false, [⟨31, 31, .ro, []⟩, ⟨30, 30, .ro, []⟩, ⟨29, 29, .ro, []⟩, ⟨28, 28, .ro, []⟩, ⟨27, 27, .ro, []⟩, ⟨20, 16, .ro, []⟩, ⟨7, 0, .ro, []⟩], []⟩ /- LINE.LANE_STAT -/,
  ⟨0x120, 0, 1, 0, 1, 0x40, false, [⟨7, 0, .rw, []⟩], []⟩ /- LINE.MARGIN_CFG -/,
  ⟨0x1000, 1024, 8, 0, 1, 0x0, false, [⟨31, 30, .mw, []⟩, ⟨29, 29, .mw, []⟩, ⟨28, 28, .mw, []⟩, ⟨27, 27, .mw, []⟩, ⟨25, 24, .mw, []⟩, ⟨23, 20, .mw, []⟩, ⟨19, 18, .mw, []⟩, ⟨13, 0, .mw, []⟩], []⟩ /- LINE.PORT_CFG -/,
  ⟨0x1004, 1024, 8, 0, 1, 0x0, false, [⟨31, 29, .ro, []⟩, ⟨28, 28, .ro, []⟩, ⟨27, 27, .ro, []⟩, ⟨26, 26, .ro, []⟩, ⟨25, 25, .ro, []⟩, ⟨24, 22, .ro, []⟩, ⟨19, 12, .ro, []⟩, ⟨11, 8, .ro, []⟩], []⟩ /- LINE.PORT_STAT -/,
  ⟨0x1008, 1024, 8, 0, 1, 0x0, false, [⟨5, 5, .wo, []⟩, ⟨4, 4, .wo, []⟩, ⟨3, 3, .wo, []⟩, ⟨2, 2, .rw, []⟩, ⟨0, 0, .rw, []⟩], []⟩ /- LINE.PORT_CTRL -/,
  ⟨0x100C, 1024, 8, 0, 1, 0x0, false, [⟨31, 16, .rw, [(0, 10000)]⟩, ⟨15, 0, .rw, [(0, 10000)]⟩], []⟩ /- LINE.PORT_TIMERS -/,
  ⟨0x1010, 1024, 8, 0, 1, 0x0, false, [⟨31, 31, .rw, []⟩, ⟨30, 30, .rw, []⟩, ⟨23, 16, .rw, []⟩, ⟨15, 8, .rw, []⟩], []⟩ /- LINE.PFC_CFG -/,
  ⟨0x1014, 1024, 8, 0, 1, 0xFFFF0000, false, [⟨31, 16, .rw, [(1, 65535)]⟩, ⟨15, 0, .rw, [(0, 1000)]⟩], []⟩ /- LINE.PFC_TIMING -/,
  ⟨0x1018, 1024, 8, 0, 1, 0xA0000, false, [⟨31, 31, .rw, []⟩, ⟨30, 30, .rw, []⟩, ⟨29, 28, .rw, []⟩, ⟨23, 16, .rw, [(1, 128)]⟩, ⟨7, 0, .rw, []⟩], []⟩ /- LINE.PREEMPT_CFG -/,
  ⟨0x101C, 1024, 8, 0, 1, 0x0, false, [⟨31, 0, .rw, [(0, 1000000), (4293967296, 4294967295)]⟩], []⟩ /- LINE.TS_RX_CORR -/,
  ⟨0x1020, 1024, 8, 0, 1, 0x0, false, [⟨31, 0, .rw, [(0, 1000000), (4293967296, 4294967295)]⟩], []⟩ /- LINE.TS_TX_CORR -/,
  ⟨0x1100, 1024, 8, 0, 1, 0x0, true, [⟨31, 0, .ro, []⟩], [⟨31, 0, .ro, []⟩]⟩ /- LINE.RX_OK_FRAMES -/,
  ⟨0x1150, 1024, 8, 0, 1, 0x0, true, [⟨31, 0, .ro, []⟩], [⟨31, 0, .ro, []⟩]⟩ /- LINE.TX_FRAMES -/,
  ⟨0x1108, 1024, 8, 0, 1, 0x0, true, [⟨31, 0, .ro, []⟩], [⟨31, 0, .ro, []⟩]⟩ /- LINE.RX_OK_BYTES -/,
  ⟨0x1158, 1024, 8, 0, 1, 0x0, true, [⟨31, 0, .ro, []⟩], [⟨31, 0, .ro, []⟩]⟩ /- LINE.TX_BYTES -/,
  ⟨0x1110, 1024, 8, 0, 1, 0x0, true, [⟨31, 0, .ro, []⟩], [⟨31, 0, .ro, []⟩]⟩ /- LINE.RX_FCS_ERR -/,
  ⟨0x1160, 1024, 8, 0, 1, 0x0, true, [⟨31, 0, .ro, []⟩], [⟨31, 0, .ro, []⟩]⟩ /- LINE.TX_PFC -/,
  ⟨0x1118, 1024, 8, 0, 1, 0x0, true, [⟨31, 0, .ro, []⟩], [⟨31, 0, .ro, []⟩]⟩ /- LINE.RX_UNDERSIZE -/,
  ⟨0x1168, 1024, 8, 0, 1, 0x0, true, [⟨31, 0, .ro, []⟩], [⟨31, 0, .ro, []⟩]⟩ /- LINE.TX_DOWN_DROP -/,
  ⟨0x1120, 1024, 8, 0, 1, 0x0, true, [⟨31, 0, .ro, []⟩], [⟨31, 0, .ro, []⟩]⟩ /- LINE.RX_OVERSIZE -/,
  ⟨0x1170, 1024, 8, 0, 1, 0x0, true, [⟨31, 0, .ro, []⟩], [⟨31, 0, .ro, []⟩]⟩ /- LINE.FEC_CORR_CW -/,
  ⟨0x1128, 1024, 8, 0, 1, 0x0, true, [⟨31, 0, .ro, []⟩], [⟨31, 0, .ro, []⟩]⟩ /- LINE.RX_DISABLED -/,
  ⟨0x1178, 1024, 8, 0, 1, 0x0, true, [⟨31, 0, .ro, []⟩], [⟨31, 0, .ro, []⟩]⟩ /- LINE.FEC_UNCORR_CW -/]

/-- Registers of the line page (R225, R233). -/
def regs_line_1 : List RegD := [
  ⟨0x1130, 1024, 8, 0, 1, 0x0, true, [⟨31, 0, .ro, []⟩], [⟨31, 0, .ro, []⟩]⟩ /- LINE.RX_QUIESCE -/,
  ⟨0x1180, 1024, 8, 0, 1, 0x0, true, [⟨31, 0, .ro, []⟩], [⟨31, 0, .ro, []⟩]⟩ /- LINE.FEC_CORR_SYM -/,
  ⟨0x1138, 1024, 8, 0, 1, 0x0, true, [⟨31, 0, .ro, []⟩], [⟨31, 0, .ro, []⟩]⟩ /- LINE.RX_FRAG_ERR -/,
  ⟨0x1188, 1024, 8, 0, 1, 0x0, true, [⟨31, 0, .ro, []⟩], [⟨31, 0, .ro, []⟩]⟩ /- LINE.LINK_DOWN_CNT -/,
  ⟨0x1140, 1024, 8, 0, 1, 0x0, true, [⟨31, 0, .ro, []⟩], [⟨31, 0, .ro, []⟩]⟩ /- LINE.RX_PFC -/,
  ⟨0x1190, 1024, 8, 0, 1, 0x0, true, [⟨31, 0, .ro, []⟩], [⟨31, 0, .ro, []⟩]⟩ /- LINE.TX_INS_DROP -/,
  ⟨0x1148, 1024, 8, 0, 1, 0x0, true, [⟨31, 0, .ro, []⟩], [⟨31, 0, .ro, []⟩]⟩ /- LINE.RX_PAUSE_IGN -/]

/-- Registers of the line page (R225, R233). -/
def regs_line : List RegD := regs_line_0 ++ regs_line_1

/-- Registers of the flex page (R255). -/
def regs_flex : List RegD := [
  ⟨0x100, 0, 1, 0, 1, 0x0, false, [⟨10, 8, .ro, []⟩, ⟨7, 0, .ro, []⟩], []⟩ /- FLEX.REFUSE -/,
  ⟨0x1000, 256, 8, 0, 1, 0x60000000, false, [⟨31, 31, .mw, []⟩, ⟨30, 30, .mw, []⟩, ⟨29, 29, .mw, []⟩, ⟨19, 0, .mw, []⟩], []⟩ /- FLEX.GRP_CFG -/,
  ⟨0x1004, 256, 8, 0, 1, 0x0, false, [⟨31, 31, .womw, []⟩, ⟨8, 8, .mw, []⟩], []⟩ /- FLEX.GRP_CTRL -/,
  ⟨0x1008, 256, 8, 0, 1, 0x0, false, [⟨31, 30, .ro, []⟩, ⟨29, 29, .ro, []⟩, ⟨28, 28, .ro, []⟩, ⟨27, 27, .ro, []⟩, ⟨26, 25, .ro, []⟩, ⟨24, 24, .ro, []⟩, ⟨15, 8, .ro, []⟩], []⟩ /- FLEX.GRP_STAT -/,
  ⟨0x100C, 256, 8, 0, 1, 0xA, false, [⟨9, 0, .mw, [(1, 1000)]⟩], []⟩ /- FLEX.CA_TIMEOUT -/,
  ⟨0x1010, 256, 8, 4, 8, 0x0, false, [⟨31, 31, .mw, []⟩, ⟨12, 8, .mw, []⟩, ⟨7, 0, .mw, []⟩], []⟩ /- FLEX.MEMBER -/,
  ⟨0x1030, 256, 8, 4, 8, 0x0, false, [⟨31, 31, .ro, []⟩, ⟨30, 30, .ro, []⟩, ⟨29, 29, .ro, []⟩, ⟨28, 28, .ro, []⟩, ⟨27, 27, .ro, []⟩, ⟨26, 26, .ro, []⟩, ⟨25, 25, .w1c, []⟩], []⟩ /- FLEX.MEMBER_STAT -/,
  ⟨0x2000, 8, 128, 0, 1, 0x0, false, [⟨31, 31, .mw, []⟩, ⟨30, 30, .mw, []⟩, ⟨26, 24, .mw, []⟩, ⟨21, 16, .mw, []⟩, ⟨15, 0, .mw, []⟩], []⟩ /- FLEX.CLIENT_CFG -/,
  ⟨0x2004, 8, 128, 0, 1, 0x0, false, [⟨31, 31, .ro, []⟩, ⟨30, 30, .ro, []⟩, ⟨29, 29, .ro, []⟩, ⟨9, 0, .ro, []⟩], []⟩ /- FLEX.CLIENT_STAT -/,
  ⟨0x4000, 4, 5120, 0, 1, 0x0, false, [⟨31, 16, .mw, []⟩, ⟨15, 0, .mw, []⟩], []⟩ /- FLEX.TXCAL -/,
  ⟨0x9000, 4, 5120, 0, 1, 0x0, false, [⟨31, 16, .mw, []⟩, ⟨15, 0, .mw, []⟩], []⟩ /- FLEX.EXPCAL -/,
  ⟨0xE000, 128, 8, 4, 20, 0x0, false, [⟨31, 0, .ro, []⟩], []⟩ /- FLEX.LABEL_STAT -/]

/-- Registers of the slot page (R259). -/
def regs_slot : List RegD := [
  ⟨0x100, 0, 1, 0, 1, 0x0, false, [⟨31, 0, .rc, []⟩], []⟩ /- SLOT.REJ_CNT -/,
  ⟨0x1000, 64, 8, 0, 1, 0x0, false, [⟨31, 31, .womw, []⟩, ⟨30, 30, .womw, []⟩, ⟨29, 29, .mw, []⟩, ⟨28, 28, .mw, []⟩, ⟨26, 24, .mw, []⟩], []⟩ /- SLOT.GRP_CTRL -/,
  ⟨0x1004, 64, 8, 0, 1, 0x0, false, [⟨31, 31, .ro, []⟩, ⟨30, 30, .ro, []⟩, ⟨29, 29, .ro, []⟩, ⟨28, 28, .ro, []⟩, ⟨27, 26, .ro, []⟩, ⟨25, 25, .ro, []⟩, ⟨24, 24, .ro, []⟩, ⟨23, 16, .ro, []⟩, ⟨9, 0, .ro, []⟩], []⟩ /- SLOT.GRP_STAT -/,
  ⟨0x1008, 64, 8, 0, 1, 0x0, false, [⟨31, 0, .rc, []⟩], []⟩ /- SLOT.FB_CNT -/,
  ⟨0x100C, 64, 8, 0, 1, 0x0, true, [⟨31, 0, .ro, []⟩], [⟨31, 0, .ro, []⟩]⟩ /- SLOT.IDLE_BLK -/,
  ⟨0x4000, 4, 10240, 0, 1, 0x0, false, [⟨31, 30, .mw, []⟩, ⟨26, 24, .mw, []⟩, ⟨9, 0, .mw, []⟩], []⟩ /- SLOT.CONN -/]

/-- Registers of the pm page (R260). -/
def regs_pm : List RegD := [
  ⟨0x100, 0, 1, 0, 1, 0x0, false, [⟨31, 31, .mw, []⟩, ⟨16, 0, .mw, []⟩], []⟩ /- PM.CFG -/,
  ⟨0x104, 0, 1, 0, 1, 0x0, false, [⟨31, 0, .ro, []⟩], []⟩ /- PM.LATCH_SEC -/,
  ⟨0x108, 0, 1, 0, 1, 0x0, false, [⟨31, 31, .ro, []⟩, ⟨30, 30, .ro, []⟩], []⟩ /- PM.LATCH_FLAGS -/,
  ⟨0x10C, 0, 1, 0, 1, 0x0, false, [⟨0, 0, .wokw, []⟩], []⟩ /- PM.LATCH_ACK -/,
  ⟨0x110, 0, 1, 0, 1, 0x0, false, [⟨31, 0, .rc, []⟩], []⟩ /- PM.LATCH_LOST -/,
  ⟨0x1000, 8, 168, 0, 1, 0x0, true, [⟨31, 0, .ro, []⟩], [⟨31, 31, .ro, []⟩, ⟨30, 30, .ro, []⟩, ⟨7, 0, .ro, []⟩]⟩ /- PM.REC -/]

/-- Registers of the disp page (R290). -/
def regs_disp : List RegD := [
  ⟨0x100, 0, 1, 0, 1, 0x20000A, false, [⟨23, 16, .mw, [(0, 128)]⟩, ⟨9, 0, .mw, [(1, 1000)]⟩], []⟩ /- DISP.CFG -/,
  ⟨0x104, 0, 1, 0, 1, 0x0, false, [⟨27, 16, .ro, []⟩, ⟨11, 0, .ro, []⟩], []⟩ /- DISP.STATUS -/,
  ⟨0x110, 4, 8, 0, 1, 0x0, false, [⟨31, 0, .mw, []⟩], []⟩ /- DISP.ENG_MASK_HOST -/,
  ⟨0x130, 4, 8, 0, 1, 0x0, false, [⟨31, 0, .kw, []⟩], []⟩ /- DISP.ENG_MASK_KEEP -/,
  ⟨0x150, 4, 8, 0, 1, 0x0, false, [⟨31, 0, .ro, []⟩], []⟩ /- DISP.ENG_RETIRED -/,
  ⟨0x180, 4, 32, 0, 1, 0x2000800, false, [⟨27, 16, .mw, [(0, 512)]⟩, ⟨11, 0, .mw, [(0, 2048)]⟩], []⟩ /- DISP.PART_SHARE -/,
  ⟨0x200, 0, 1, 0, 1, 0x0, false, [⟨31, 0, .rc, []⟩], []⟩ /- DISP.DISABLED_DROP -/,
  ⟨0x204, 0, 1, 0, 1, 0x0, false, [⟨31, 0, .rc, []⟩], []⟩ /- DISP.FULL_DROP -/,
  ⟨0x208, 0, 1, 0, 1, 0x0, false, [⟨31, 0, .rc, []⟩], []⟩ /- DISP.SHARE_DROP -/,
  ⟨0x20C, 0, 1, 0, 1, 0x0, false, [⟨31, 0, .rc, []⟩], []⟩ /- DISP.NO_ENGINE_DROP -/,
  ⟨0x1000, 8, 128, 0, 1, 0x0, false, [⟨31, 0, .rc, []⟩], []⟩ /- DISP.RO_SKIP -/,
  ⟨0x1004, 8, 128, 0, 1, 0x0, false, [⟨31, 0, .rc, []⟩], []⟩ /- DISP.RO_LATE -/]

/-- Registers of the pclu page (R293). -/
def regs_pclu : List RegD := [
  ⟨0x100, 0, 1, 0, 1, 0xE0001000, false, [⟨31, 31, .mw, []⟩, ⟨30, 30, .mw, []⟩, ⟨29, 29, .mw, []⟩, ⟨28, 28, .mw, []⟩, ⟨15, 0, .mw, [(256, 65535)]⟩], []⟩ /- PCLU.STALL_CFG -/,
  ⟨0x104, 0, 1, 0, 1, 0x0, false, [⟨31, 31, .w1c, []⟩, ⟨30, 30, .ro, []⟩, ⟨29, 29, .ro, []⟩, ⟨3, 0, .ro, []⟩], []⟩ /- PCLU.STALL_STAT -/,
  ⟨0x108, 0, 1, 0, 1, 0x0, false, [⟨31, 0, .rc, []⟩], []⟩ /- PCLU.STALL_CNT -/,
  ⟨0x10C, 0, 1, 0, 1, 0x0, false, [⟨31, 0, .rc, []⟩], []⟩ /- PCLU.ABORT_CNT -/,
  ⟨0x110, 0, 1, 0, 1, 0x0, false, [⟨31, 0, .rc, []⟩], []⟩ /- PCLU.LATE_ABORT_CNT -/,
  ⟨0x114, 0, 1, 0, 1, 0x0, false, [⟨31, 16, .rc, []⟩, ⟨15, 0, .rc, []⟩], []⟩ /- PCLU.LEAK_CNT -/,
  ⟨0x118, 0, 1, 0, 1, 0x0, false, [⟨31, 0, .rc, []⟩], []⟩ /- PCLU.LOCK_ERR_CNT -/,
  ⟨0x11C, 0, 1, 0, 1, 0x0, false, [⟨15, 0, .ro, []⟩], []⟩ /- PCLU.ENG_BUSY -/,
  ⟨0x120, 0, 1, 0, 1, 0x0, true, [⟨31, 0, .ro, []⟩], [⟨31, 0, .ro, []⟩]⟩ /- PCLU.SNAP_TIME -/,
  ⟨0x130, 0, 1, 0, 1, 0x0, false, [⟨12, 12, .rw, []⟩, ⟨11, 0, .rw, []⟩], []⟩ /- PCLU.PTBL_IDX -/,
  ⟨0x134, 0, 1, 0, 1, 0x0, true, [⟨31, 0, .ro, []⟩], [⟨31, 0, .ro, []⟩]⟩ /- PCLU.PTBL_DATA -/,
  ⟨0x200, 16, 128, 4, 4, 0x0, false, [⟨31, 0, .ro, []⟩], []⟩ /- PCLU.SNAP -/,
  ⟨0x1000, 4, 1024, 0, 1, 0x0, false, [⟨31, 31, .ro, []⟩, ⟨18, 12, .ro, []⟩, ⟨10, 0, .ro, []⟩], []⟩ /- PCLU.LOCK -/,
  ⟨0x2000, 64, 64, 8, 8, 0x0, true, [⟨31, 0, .ro, []⟩], [⟨31, 0, .ro, []⟩]⟩ /- PCLU.MBOX -/,
  ⟨0x3000, 4, 64, 0, 1, 0x0, false, [⟨31, 30, .ro, []⟩, ⟨10, 0, .ro, []⟩], []⟩ /- PCLU.MBOX_STAT -/]

/-- Registers of the dbg page (R299). -/
def regs_dbg : List RegD := [
  ⟨0x100, 0, 1, 0, 1, 0x1, false, [⟨3, 0, .mw, []⟩], []⟩ /- DBG.CFG -/,
  ⟨0x104, 0, 1, 0, 1, 0x0, false, [⟨10, 0, .mw, []⟩], []⟩ /- DBG.SEL -/,
  ⟨0x108, 0, 1, 0, 1, 0x0, false, [⟨2, 0, .womw, [(0, 6)]⟩], []⟩ /- DBG.CTRL -/,
  ⟨0x10C, 0, 1, 0, 1, 0x0, false, [⟨31, 29, .ro, []⟩, ⟨28, 26, .ro, []⟩, ⟨25, 24, .ro, []⟩, ⟨23, 23, .ro, []⟩, ⟨22, 22, .ro, []⟩, ⟨11, 0, .ro, []⟩], []⟩ /- DBG.STAT -/,
  ⟨0x110, 0, 1, 0, 1, 0x0, false, [⟨5, 0, .mw, []⟩], []⟩ /- DBG.REG_IDX -/,
  ⟨0x114, 4, 2, 0, 1, 0x0, false, [⟨31, 0, .mw, []⟩], []⟩ /- DBG.REG_DATA -/,
  ⟨0x120, 0, 1, 0, 1, 0x0, false, [⟨9, 2, .mw, []⟩, ⟨1, 0, .mw, []⟩], []⟩ /- DBG.BP_SEL -/,
  ⟨0x124, 0, 1, 0, 1, 0x70000000, false, [⟨31, 31, .mw, []⟩, ⟨30, 29, .mw, [(1, 3)]⟩, ⟨28, 28, .mw, []⟩, ⟨26, 24, .mw, []⟩, ⟨11, 0, .mw, []⟩], []⟩ /- DBG.BP_CFG -/,
  ⟨0x128, 0, 1, 0, 1, 0x0, false, [⟨11, 0, .ro, []⟩], []⟩ /- DBG.HALTED_CNT -/,
  ⟨0x12C, 0, 1, 0, 1, 0x0, false, [⟨31, 0, .rc, []⟩], []⟩ /- DBG.BP_SKIP -/,
  ⟨0x130, 0, 1, 0, 1, 0x0, false, [⟨31, 0, .rc, []⟩], []⟩ /- DBG.DETACH_DROP -/]

/-- Registers of the strn page (R360). -/
def regs_strn : List RegD := [
  ⟨0x100, 0, 1, 0, 1, 0x0, false, [⟨31, 31, .mw, []⟩, ⟨30, 28, .mw, []⟩], []⟩ /- STRN.CFG -/,
  ⟨0x104, 0, 1, 0, 1, 0x0, false, [⟨31, 31, .ro, []⟩], []⟩ /- STRN.STATUS -/,
  ⟨0x110, 0, 1, 0, 1, 0x0, true, [⟨31, 0, .ro, []⟩], [⟨31, 0, .ro, []⟩]⟩ /- STRN.IN_PKTS -/,
  ⟨0x118, 0, 1, 0, 1, 0x0, true, [⟨31, 0, .ro, []⟩], [⟨31, 0, .ro, []⟩]⟩ /- STRN.FWD_PKTS -/,
  ⟨0x120, 0, 1, 0, 1, 0x0, true, [⟨31, 0, .ro, []⟩], [⟨31, 0, .ro, []⟩]⟩ /- STRN.PUNT_PKTS -/,
  ⟨0x128, 0, 1, 0, 1, 0x0, true, [⟨31, 0, .ro, []⟩], [⟨31, 0, .ro, []⟩]⟩ /- STRN.DROP_PKTS -/,
  ⟨0x130, 0, 1, 0, 1, 0x0, true, [⟨31, 0, .ro, []⟩], [⟨31, 0, .ro, []⟩]⟩ /- STRN.FREEZE_CYCLES -/,
  ⟨0x138, 0, 1, 0, 1, 0x0, true, [⟨31, 0, .ro, []⟩], [⟨31, 0, .ro, []⟩]⟩ /- STRN.REPLAYS -/,
  ⟨0x140, 0, 1, 0, 1, 0x0, true, [⟨31, 0, .ro, []⟩], [⟨31, 0, .ro, []⟩]⟩ /- STRN.REPLAY_FAIL -/,
  ⟨0x148, 0, 1, 0, 1, 0x0, true, [⟨31, 0, .ro, []⟩], [⟨31, 0, .ro, []⟩]⟩ /- STRN.IN_FULL_DROP -/,
  ⟨0x200, 8, 12, 0, 1, 0x0, false, [⟨31, 0, .rc, []⟩], []⟩ /- STRN.STAGE_HIT -/,
  ⟨0x204, 8, 12, 0, 1, 0x0, false, [⟨31, 0, .rc, []⟩], []⟩ /- STRN.STAGE_MISS -/,
  ⟨0x1000, 4, 256, 0, 1, 0x0, false, [⟨31, 0, .rc, []⟩], []⟩ /- STRN.DROP_CNT -/,
  ⟨0x1400, 4, 256, 0, 1, 0x0, false, [⟨31, 0, .rc, []⟩], []⟩ /- STRN.PARSE_DROP_CNT -/,
  ⟨0x1800, 4, 256, 0, 1, 0x0, false, [⟨31, 0, .rc, []⟩], []⟩ /- STRN.PARSE_FAULT_CNT -/]

/-- Registers of the samp page (R361). -/
def regs_samp : List RegD := [
  ⟨0x100, 0, 1, 0, 1, 0x0, false, [⟨31, 0, .rc, []⟩], []⟩ /- SAMP.COPY_LIMIT -/,
  ⟨0x104, 0, 1, 0, 1, 0x0, false, [⟨31, 0, .rc, []⟩], []⟩ /- SAMP.COPY_LOSS -/,
  ⟨0x1000, 16, 64, 0, 1, 0x0, false, [⟨31, 31, .mw, []⟩, ⟨30, 30, .mw, []⟩, ⟨29, 29, .mw, []⟩, ⟨12, 8, .mw, []⟩, ⟨6, 4, .mw, []⟩, ⟨3, 0, .mw, [(0, 7)]⟩], []⟩ /- SAMP.CFG -/,
  ⟨0x1004, 16, 64, 0, 1, 0x1, false, [⟨24, 0, .mw, [(1, 16777216)]⟩], []⟩ /- SAMP.N -/,
  ⟨0x1008, 16, 64, 0, 1, 0x0, false, [⟨31, 0, .ro, []⟩], []⟩ /- SAMP.CAND -/,
  ⟨0x100C, 16, 64, 0, 1, 0x0, false, [⟨31, 0, .rc, []⟩], []⟩ /- SAMP.TAKEN -/,
  ⟨0x3000, 16, 32, 0, 1, 0x0, false, [⟨31, 31, .mw, []⟩, ⟨30, 30, .mw, []⟩, ⟨29, 28, .mw, [(0, 1)]⟩, ⟨18, 16, .mw, []⟩, ⟨15, 0, .mw, []⟩], []⟩ /- SAMP.MCFG -/,
  ⟨0x3004, 16, 32, 0, 1, 0x0, false, [⟨11, 0, .mw, []⟩], []⟩ /- SAMP.MACCT -/,
  ⟨0x3008, 16, 32, 0, 1, 0x0, false, [⟨31, 0, .rc, []⟩], []⟩ /- SAMP.MCOPIES -/]

/-- Registers of the tbl page (R407, R409). -/
def regs_tbl_0 : List RegD := [
  ⟨0x100, 0, 1, 0, 1, 0x0, false, [⟨31, 31, .womw, []⟩, ⟨23, 16, .mw, []⟩, ⟨7, 0, .mw, []⟩], []⟩ /- TBL.CMD -/,
  ⟨0x104, 0, 1, 0, 1, 0x0, false, [⟨31, 30, .mw, []⟩, ⟨29, 29, .mw, []⟩, ⟨23, 16, .mw, []⟩, ⟨15, 0, .mw, []⟩], []⟩ /- TBL.CMD_ARG -/,
  ⟨0x108, 0, 1, 0, 1, 0x0, false, [⟨31, 0, .mw, []⟩], []⟩ /- TBL.CMD_ARG2 -/,
  ⟨0x10C, 0, 1, 0, 1, 0x0, false, [⟨31, 31, .ro, []⟩, ⟨30, 30, .w1c, []⟩, ⟨23, 16, .ro, []⟩, ⟨5, 5, .ro, []⟩, ⟨4, 3, .ro, []⟩, ⟨2, 2, .ro, []⟩, ⟨1, 0, .ro, []⟩], []⟩ /- TBL.CMD_STAT -/,
  ⟨0x110, 0, 1, 0, 1, 0x0, true, [⟨31, 0, .mw, []⟩], [⟨31, 0, .mw, []⟩]⟩ /- TBL.CURSOR -/,
  ⟨0x120, 0, 1, 0, 1, 0x0, false, [⟨31, 31, .womw, []⟩, ⟨30, 30, .womw, []⟩, ⟨7, 0, .womw, []⟩], []⟩ /- TBL.TCTRL -/,
  ⟨0x124, 0, 1, 0, 1, 0x0, false, [⟨31, 31, .ro, []⟩, ⟨7, 0, .ro, []⟩], []⟩ /- TBL.TCTRL_STAT -/,
  ⟨0x128, 0, 1, 0, 1, 0x104, false, [⟨8, 8, .mw, []⟩, ⟨7, 0, .mw, [(1, 255)]⟩], []⟩ /- TBL.BANK_CFG -/,
  ⟨0x12C, 0, 1, 0, 1, 0xA003C, false, [⟨31, 16, .mw, [(1, 1000)]⟩, ⟨11, 0, .mw, [(1, 3600)]⟩], []⟩ /- TBL.SCRUB_CFG -/,
  ⟨0x130, 0, 1, 0, 1, 0x800, false, [⟨11, 0, .ro, []⟩], []⟩ /- TBL.FREE_SEG -/,
  ⟨0x134, 0, 1, 0, 1, 0x40, false, [⟨6, 0, .ro, []⟩], []⟩ /- TBL.OVF_FREE -/,
  ⟨0x140, 0, 1, 0, 1, 0x0, false, [⟨31, 0, .rc, []⟩], []⟩ /- TBL.CORR_CNT -/,
  ⟨0x144, 0, 1, 0, 1, 0x0, false, [⟨31, 0, .rc, []⟩], []⟩ /- TBL.UNCORR_CNT -/,
  ⟨0x148, 0, 1, 0, 1, 0x0, false, [⟨31, 0, .rc, []⟩], []⟩ /- TBL.DIVERGE_CNT -/,
  ⟨0x14C, 0, 1, 0, 1, 0x0, false, [⟨31, 0, .rc, []⟩], []⟩ /- TBL.DISPLACED_CNT -/,
  ⟨0x200, 4, 16, 0, 1, 0x0, false, [⟨31, 0, .mw, []⟩], []⟩ /- TBL.KEY -/,
  ⟨0x240, 4, 10, 0, 1, 0x0, false, [⟨31, 0, .mw, []⟩], []⟩ /- TBL.MASK -/,
  ⟨0x280, 4, 16, 0, 1, 0x0, false, [⟨31, 0, .mw, []⟩], []⟩ /- TBL.RES -/,
  ⟨0x1000, 4, 68, 0, 1, 0x0, false, [⟨31, 29, .ro, []⟩, ⟨23, 16, .ro, []⟩, ⟨5, 0, .ro, []⟩], []⟩ /- TBL.BANK_STAT -/,
  ⟨0x1200, 4, 32, 0, 1, 0x0, false, [⟨31, 16, .mw, []⟩, ⟨15, 0, .mw, [(0, 16384)]⟩], []⟩ /- TBL.VRF_GRANT -/,
  ⟨0x4000, 32, 256, 0, 1, 0x0, false, [⟨31, 31, .ro, []⟩, ⟨30, 29, .mw, []⟩, ⟨28, 27, .mw, []⟩, ⟨26, 25, .mw, []⟩, ⟨24, 24, .mw, []⟩, ⟨23, 21, .mw, []⟩, ⟨20, 16, .mw, []⟩, ⟨15, 8, .mw, []⟩, ⟨5, 0, .mw, []⟩], []⟩ /- TBL.TDEF_CFG -/,
  ⟨0x4004, 32, 256, 0, 1, 0x0, false, [⟨31, 24, .mw, []⟩, ⟨23, 0, .mw, []⟩], []⟩ /- TBL.TDEF_SIZE -/,
  ⟨0x4008, 32, 256, 0, 1, 0x0, false, [⟨31, 31, .mw, []⟩, ⟨30, 30, .mw, []⟩, ⟨29, 29, .mw, []⟩, ⟨28, 28, .mw, []⟩, ⟨27, 26, .mw, []⟩, ⟨25, 20, .mw, []⟩, ⟨19, 13, .mw, []⟩, ⟨12, 11, .mw, []⟩, ⟨10, 0, .mw, []⟩], []⟩ /- TBL.TDEF_ATTR -/,
  ⟨0x400C, 32, 256, 0, 1, 0x0, false, [⟨31, 0, .mw, []⟩], []⟩ /- TBL.TDEF_SEED -/]

/-- Registers of the tbl page (R407, R409). -/
def regs_tbl_1 : List RegD := [
  ⟨0x4010, 32, 256, 0, 1, 0x0, false, [⟨31, 27, .mw, []⟩, ⟨26, 22, .mw, []⟩, ⟨21, 17, .mw, []⟩], []⟩ /- TBL.TDEF_LPM -/,
  ⟨0x4014, 32, 256, 0, 1, 0x0, false, [⟨31, 0, .ro, []⟩], []⟩ /- TBL.TDEF_CAPACITY -/,
  ⟨0x4018, 32, 256, 0, 1, 0x0, false, [⟨31, 0, .ro, []⟩], []⟩ /- TBL.TDEF_ENTRIES -/,
  ⟨0x401C, 32, 256, 0, 1, 0x0, false, [⟨31, 31, .ro, []⟩, ⟨30, 30, .ro, []⟩, ⟨29, 29, .ro, []⟩], []⟩ /- TBL.TDEF_STAT -/,
  ⟨0x6000, 4, 256, 0, 1, 0x0, false, [⟨15, 0, .mw, []⟩], []⟩ /- TBL.AGE_INTERVAL -/,
  ⟨0x500, 0, 1, 0, 1, 0x0, false, [⟨31, 31, .wokw, []⟩, ⟨23, 16, .kw, []⟩, ⟨7, 0, .kw, []⟩], []⟩ /- TBL.KCMD -/,
  ⟨0x504, 0, 1, 0, 1, 0x0, false, [⟨31, 30, .kw, []⟩, ⟨29, 29, .kw, []⟩, ⟨23, 16, .kw, []⟩, ⟨15, 0, .kw, []⟩], []⟩ /- TBL.KCMD_ARG -/,
  ⟨0x508, 0, 1, 0, 1, 0x0, false, [⟨31, 0, .kw, []⟩], []⟩ /- TBL.KCMD_ARG2 -/,
  ⟨0x50C, 0, 1, 0, 1, 0x0, false, [⟨31, 31, .ro, []⟩, ⟨30, 30, .w1c, []⟩, ⟨23, 16, .ro, []⟩, ⟨5, 5, .ro, []⟩, ⟨4, 3, .ro, []⟩, ⟨2, 2, .ro, []⟩, ⟨1, 0, .ro, []⟩], []⟩ /- TBL.KCMD_STAT -/,
  ⟨0x510, 0, 1, 0, 1, 0x0, true, [⟨31, 0, .kw, []⟩], [⟨31, 0, .kw, []⟩]⟩ /- TBL.KCURSOR -/,
  ⟨0x520, 0, 1, 0, 1, 0x0, false, [⟨31, 31, .wokw, []⟩, ⟨30, 30, .wokw, []⟩, ⟨7, 0, .wokw, []⟩], []⟩ /- TBL.KTCTRL -/,
  ⟨0x524, 0, 1, 0, 1, 0x0, false, [⟨31, 31, .ro, []⟩, ⟨7, 0, .ro, []⟩], []⟩ /- TBL.KTCTRL_STAT -/,
  ⟨0x528, 0, 1, 0, 1, 0x104, false, [⟨8, 8, .kw, []⟩, ⟨7, 0, .kw, [(1, 255)]⟩], []⟩ /- TBL.KBANK_CFG -/,
  ⟨0x52C, 0, 1, 0, 1, 0xA003C, false, [⟨31, 16, .kw, [(1, 1000)]⟩, ⟨11, 0, .kw, [(1, 3600)]⟩], []⟩ /- TBL.KSCRUB_CFG -/,
  ⟨0x530, 0, 1, 0, 1, 0x800, false, [⟨11, 0, .ro, []⟩], []⟩ /- TBL.KFREE_SEG -/,
  ⟨0x534, 0, 1, 0, 1, 0x40, false, [⟨6, 0, .ro, []⟩], []⟩ /- TBL.KOVF_FREE -/,
  ⟨0x540, 0, 1, 0, 1, 0x0, false, [⟨31, 0, .rc, []⟩], []⟩ /- TBL.KCORR_CNT -/,
  ⟨0x544, 0, 1, 0, 1, 0x0, false, [⟨31, 0, .rc, []⟩], []⟩ /- TBL.KUNCORR_CNT -/,
  ⟨0x548, 0, 1, 0, 1, 0x0, false, [⟨31, 0, .rc, []⟩], []⟩ /- TBL.KDIVERGE_CNT -/,
  ⟨0x54C, 0, 1, 0, 1, 0x0, false, [⟨31, 0, .rc, []⟩], []⟩ /- TBL.KDISPLACED_CNT -/,
  ⟨0x600, 4, 16, 0, 1, 0x0, false, [⟨31, 0, .kw, []⟩], []⟩ /- TBL.KKEY -/,
  ⟨0x640, 4, 10, 0, 1, 0x0, false, [⟨31, 0, .kw, []⟩], []⟩ /- TBL.KMASK -/,
  ⟨0x680, 4, 16, 0, 1, 0x0, false, [⟨31, 0, .kw, []⟩], []⟩ /- TBL.KRES -/]

/-- Registers of the tbl page (R407, R409). -/
def regs_tbl : List RegD := regs_tbl_0 ++ regs_tbl_1

/-- Registers of the tern page (R413). -/
def regs_tern : List RegD := [
  ⟨0x100, 4, 64, 0, 1, 0x0, false, [⟨31, 31, .mw, []⟩, ⟨30, 30, .mw, []⟩, ⟨7, 0, .mw, []⟩], []⟩ /- TERN.BLOCK -/,
  ⟨0x200, 0, 1, 0, 1, 0x0, false, [⟨31, 0, .rc, []⟩], []⟩ /- TERN.CORR_CNT -/,
  ⟨0x204, 0, 1, 0, 1, 0x0, false, [⟨31, 0, .rc, []⟩], []⟩ /- TERN.UNCORR_CNT -/]

/-- Registers of the learn page (R413). -/
def regs_learn : List RegD := [
  ⟨0x100, 0, 1, 0, 1, 0x800003E8, false, [⟨31, 31, .mw, []⟩, ⟨30, 30, .womw, []⟩, ⟨19, 0, .mw, [(1, 1000000)]⟩], []⟩ /- LEARN.CFG -/,
  ⟨0x104, 0, 1, 0, 1, 0x0, false, [⟨29, 16, .ro, []⟩, ⟨13, 0, .ro, []⟩], []⟩ /- LEARN.STAT -/,
  ⟨0x110, 0, 1, 0, 1, 0x0, false, [⟨31, 0, .rc, []⟩], []⟩ /- LEARN.NOTIFY_CNT -/,
  ⟨0x114, 0, 1, 0, 1, 0x0, false, [⟨31, 0, .rc, []⟩], []⟩ /- LEARN.SUPPRESS_CNT -/,
  ⟨0x118, 0, 1, 0, 1, 0x0, false, [⟨31, 0, .rc, []⟩], []⟩ /- LEARN.RING_DROP -/,
  ⟨0x11C, 0, 1, 0, 1, 0x0, false, [⟨31, 0, .rc, []⟩], []⟩ /- LEARN.BYPASS_CNT -/,
  ⟨0x120, 0, 1, 0, 1, 0x0, false, [⟨31, 0, .rc, []⟩], []⟩ /- LEARN.STATIC_MOVE -/,
  ⟨0x1000, 4, 64, 0, 1, 0x0, false, [⟨15, 0, .mw, []⟩], []⟩ /- LEARN.PORT_MAP -/]

/-- Registers of the caddy page (R447). -/
def regs_caddy_0 : List RegD := [
  ⟨0x100, 16, 5, 0, 1, 0x0, false, [⟨31, 31, .mw, []⟩], []⟩ /- CADDY.POOL_CFG -/,
  ⟨0x104, 16, 5, 0, 1, 0x0, false, [⟨31, 0, .ro, []⟩], []⟩ /- CADDY.POOL_TOTAL -/,
  ⟨0x108, 16, 5, 0, 1, 0x0, false, [⟨31, 0, .ro, []⟩], []⟩ /- CADDY.POOL_FREE -/,
  ⟨0x10C, 16, 5, 0, 1, 0x0, false, [⟨31, 0, .ro, []⟩], []⟩ /- CADDY.POOL_RSV -/,
  ⟨0x150, 0, 1, 0, 1, 0x0, false, [⟨31, 31, .womw, []⟩, ⟨30, 28, .mw, []⟩, ⟨27, 25, .mw, []⟩, ⟨14, 0, .mw, []⟩], []⟩ /- CADDY.REGION_CMD -/,
  ⟨0x154, 0, 1, 0, 1, 0x1, false, [⟨14, 0, .mw, [(1, 24576)]⟩], []⟩ /- CADDY.REGION_CNT -/,
  ⟨0x158, 0, 1, 0, 1, 0x0, false, [⟨31, 31, .ro, []⟩, ⟨30, 30, .w1c, []⟩, ⟨23, 16, .ro, []⟩, ⟨14, 0, .ro, []⟩], []⟩ /- CADDY.REGION_STAT -/,
  ⟨0x15C, 0, 1, 0, 1, 0x0, false, [⟨14, 0, .rw, []⟩], []⟩ /- CADDY.REGION_RD_IDX -/,
  ⟨0x160, 0, 1, 0, 1, 0x0, false, [⟨31, 29, .ro, []⟩, ⟨28, 26, .ro, []⟩, ⟨25, 23, .ro, []⟩, ⟨13, 0, .ro, []⟩], []⟩ /- CADDY.REGION_RD -/,
  ⟨0x170, 0, 1, 0, 1, 0x0, false, [⟨18, 16, .mw, [(0, 4)]⟩, ⟨11, 0, .mw, []⟩], []⟩ /- CADDY.ACCT_SEL -/,
  ⟨0x174, 0, 1, 0, 1, 0x0, false, [⟨31, 30, .ro, []⟩, ⟨29, 29, .womw, []⟩, ⟨28, 28, .womw, []⟩, ⟨20, 16, .mw, []⟩], []⟩ /- CADDY.ACCT_CFG -/,
  ⟨0x178, 0, 1, 0, 1, 0x50000000, false, [⟨31, 28, .mw, []⟩, ⟨27, 0, .mw, []⟩], []⟩ /- CADDY.ACCT_POOL -/,
  ⟨0x17C, 0, 1, 0, 1, 0x0, false, [⟨31, 0, .ro, []⟩], []⟩ /- CADDY.ACCT_USE -/,
  ⟨0x180, 0, 1, 0, 1, 0x0, false, [⟨31, 0, .rc, []⟩], []⟩ /- CADDY.ACCT_PEAK -/,
  ⟨0x190, 0, 1, 0, 1, 0xFFFFFFFF, false, [⟨31, 0, .mw, []⟩], []⟩ /- CADDY.FREE_HANDLE -/,
  ⟨0x194, 0, 1, 0, 1, 0x0, false, [⟨31, 31, .womw, []⟩, ⟨11, 0, .womw, []⟩], []⟩ /- CADDY.FREE_CMD -/,
  ⟨0x198, 0, 1, 0, 1, 0x0, false, [⟨31, 31, .ro, []⟩, ⟨30, 30, .w1c, []⟩, ⟨7, 0, .ro, []⟩], []⟩ /- CADDY.FREE_STAT -/,
  ⟨0x1A0, 0, 1, 0, 1, 0x0, false, [⟨7, 0, .ro, []⟩], []⟩ /- CADDY.REFUSE -/,
  ⟨0x200, 0, 1, 0, 1, 0x0, false, [⟨31, 0, .rc, []⟩], []⟩ /- CADDY.POOL_EMPTY_DROP -/,
  ⟨0x204, 0, 1, 0, 1, 0x0, false, [⟨31, 0, .rc, []⟩], []⟩ /- CADDY.ACCT_LIMIT_DROP -/,
  ⟨0x208, 0, 1, 0, 1, 0x0, false, [⟨31, 0, .rc, []⟩], []⟩ /- CADDY.DISABLED_DROP -/,
  ⟨0x20C, 0, 1, 0, 1, 0x0, false, [⟨31, 0, .rc, []⟩], []⟩ /- CADDY.SPILL_CNT -/,
  ⟨0x210, 0, 1, 0, 1, 0x0, false, [⟨31, 0, .rc, []⟩], []⟩ /- CADDY.DOUBLE_FREE -/,
  ⟨0x214, 0, 1, 0, 1, 0x0, false, [⟨31, 0, .rc, []⟩], []⟩ /- CADDY.FOREIGN_FREE -/]

/-- Registers of the caddy page (R447). -/
def regs_caddy_1 : List RegD := [
  ⟨0x218, 0, 1, 0, 1, 0x0, false, [⟨31, 0, .rc, []⟩], []⟩ /- CADDY.HDR_ERR -/,
  ⟨0x21C, 0, 1, 0, 1, 0x0, false, [⟨31, 0, .rc, []⟩], []⟩ /- CADDY.ORPHAN_CNT -/,
  ⟨0x220, 0, 1, 0, 1, 0x0, false, [⟨31, 0, .rc, []⟩], []⟩ /- CADDY.PURGE_DROP -/,
  ⟨0x300, 0, 1, 0, 1, 0x0, false, [⟨31, 31, .wokw, []⟩, ⟨30, 28, .kw, []⟩, ⟨27, 25, .kw, []⟩, ⟨14, 0, .kw, []⟩], []⟩ /- CADDY.KREGION_CMD -/,
  ⟨0x304, 0, 1, 0, 1, 0x1, false, [⟨14, 0, .kw, [(1, 24576)]⟩], []⟩ /- CADDY.KREGION_CNT -/,
  ⟨0x308, 0, 1, 0, 1, 0x0, false, [⟨31, 31, .ro, []⟩, ⟨30, 30, .w1c, []⟩, ⟨23, 16, .ro, []⟩, ⟨14, 0, .ro, []⟩], []⟩ /- CADDY.KREGION_STAT -/]

/-- Registers of the caddy page (R447). -/
def regs_caddy : List RegD := regs_caddy_0 ++ regs_caddy_1

/-- Registers of the voq page (R450). -/
def regs_voq : List RegD := [
  ⟨0x100, 0, 1, 0, 1, 0x400014, false, [⟨31, 16, .mw, [(1, 65535)]⟩, ⟨15, 0, .mw, [(1, 65535)]⟩], []⟩ /- VOQ.PLACE_CFG -/,
  ⟨0x104, 0, 1, 0, 1, 0x80, false, [⟨11, 0, .mw, []⟩], []⟩ /- VOQ.MC_ACCOUNT -/,
  ⟨0x110, 0, 1, 0, 1, 0x0, false, [⟨20, 20, .mw, []⟩, ⟨19, 19, .mw, []⟩, ⟨18, 0, .mw, []⟩], []⟩ /- VOQ.Q_SEL -/,
  ⟨0x114, 0, 1, 0, 1, 0x0, true, [⟨31, 0, .ro, []⟩], [⟨31, 0, .ro, []⟩]⟩ /- VOQ.Q_BYTES -/,
  ⟨0x11C, 0, 1, 0, 1, 0x0, false, [⟨31, 0, .ro, []⟩], []⟩ /- VOQ.Q_PKTS -/,
  ⟨0x120, 0, 1, 0, 1, 0x0, false, [⟨31, 31, .ro, []⟩, ⟨23, 0, .ro, []⟩], []⟩ /- VOQ.Q_STAT -/,
  ⟨0x130, 0, 1, 0, 1, 0x0, false, [⟨31, 31, .womw, []⟩, ⟨30, 29, .womw, [(0, 2)]⟩], []⟩ /- VOQ.FLUSH_CMD -/,
  ⟨0x134, 0, 1, 0, 1, 0x0, false, [⟨18, 0, .mw, []⟩], []⟩ /- VOQ.FLUSH_ARG0 -/,
  ⟨0x138, 0, 1, 0, 1, 0x0, false, [⟨19, 0, .mw, [(1, 524288)]⟩], []⟩ /- VOQ.FLUSH_ARG1 -/,
  ⟨0x13C, 0, 1, 0, 1, 0x0, false, [⟨31, 31, .ro, []⟩, ⟨30, 30, .w1c, []⟩], []⟩ /- VOQ.FLUSH_STAT -/,
  ⟨0x140, 0, 1, 0, 1, 0x0, false, [⟨15, 0, .mw, []⟩], []⟩ /- VOQ.MC_SEL -/,
  ⟨0x144, 0, 1, 0, 1, 0x0, false, [⟨31, 31, .mw, []⟩, ⟨25, 18, .mw, []⟩, ⟨17, 0, .mw, []⟩], []⟩ /- VOQ.MC_CFG -/,
  ⟨0x148, 0, 1, 0, 1, 0x0, false, [⟨17, 0, .mw, []⟩], []⟩ /- VOQ.MEM_IDX -/,
  ⟨0x14C, 0, 1, 0, 1, 0x0, false, [⟨31, 31, .mw, []⟩, ⟨5, 0, .mw, []⟩], []⟩ /- VOQ.MEM_DATA -/,
  ⟨0x200, 0, 1, 0, 1, 0x0, false, [⟨31, 0, .rc, []⟩], []⟩ /- VOQ.FLUSH_CNT -/,
  ⟨0x204, 0, 1, 0, 1, 0x0, false, [⟨31, 0, .rc, []⟩], []⟩ /- VOQ.MC_COPIES -/,
  ⟨0x1000, 4, 64, 0, 1, 0x0, false, [⟨31, 0, .rc, []⟩], []⟩ /- VOQ.MC_REFUSE -/]

/-- Registers of the adm page (R451, R452). -/
def regs_adm : List RegD := [
  ⟨0x100, 4, 64, 0, 1, 0x0, false, [⟨31, 31, .mw, []⟩, ⟨11, 0, .mw, []⟩], []⟩ /- ADM.PORT_CFG -/,
  ⟨0x200, 4, 64, 0, 1, 0x2832010, false, [⟨31, 22, .mw, [(0, 1000)]⟩, ⟨21, 12, .mw, [(0, 1000)]⟩, ⟨11, 0, .mw, []⟩], []⟩ /- ADM.HOLD_CFG -/,
  ⟨0x300, 4, 64, 0, 1, 0x0, false, [⟨31, 30, .ro, []⟩, ⟨19, 0, .ro, []⟩], []⟩ /- ADM.HOLD_STAT -/,
  ⟨0x400, 4, 64, 0, 1, 0x0, false, [⟨15, 8, .ro, []⟩, ⟨7, 0, .ro, []⟩], []⟩ /- ADM.XOFF_STAT -/,
  ⟨0x500, 0, 1, 0, 1, 0x0, false, [⟨31, 0, .rc, []⟩], []⟩ /- ADM.WRED_DROP_G -/,
  ⟨0x504, 0, 1, 0, 1, 0x0, false, [⟨31, 0, .rc, []⟩], []⟩ /- ADM.WRED_DROP_Y -/,
  ⟨0x508, 0, 1, 0, 1, 0x0, false, [⟨31, 0, .rc, []⟩], []⟩ /- ADM.WRED_DROP_R -/,
  ⟨0x50C, 0, 1, 0, 1, 0x0, false, [⟨31, 0, .rc, []⟩], []⟩ /- ADM.TAIL_DROP -/,
  ⟨0x510, 0, 1, 0, 1, 0x0, false, [⟨31, 0, .rc, []⟩], []⟩ /- ADM.DISABLED_DROP -/,
  ⟨0x1000, 4, 1024, 0, 1, 0x0, false, [⟨31, 31, .mw, []⟩, ⟨29, 24, .mw, []⟩], []⟩ /- ADM.PC_CFG -/,
  ⟨0x2000, 32, 64, 0, 1, 0x0, false, [⟨31, 24, .mw, []⟩, ⟨23, 0, .mw, []⟩], []⟩ /- ADM.WRED0 -/,
  ⟨0x2004, 32, 64, 0, 1, 0x0, false, [⟨23, 0, .mw, []⟩], []⟩ /- ADM.WRED1 -/,
  ⟨0x2008, 32, 64, 0, 1, 0x0, false, [⟨31, 24, .mw, []⟩, ⟨23, 0, .mw, []⟩], []⟩ /- ADM.WRED2 -/,
  ⟨0x200C, 32, 64, 0, 1, 0x0, false, [⟨23, 0, .mw, []⟩], []⟩ /- ADM.WRED3 -/,
  ⟨0x2010, 32, 64, 0, 1, 0x0, false, [⟨31, 24, .mw, []⟩, ⟨23, 0, .mw, []⟩], []⟩ /- ADM.WRED4 -/,
  ⟨0x2014, 32, 64, 0, 1, 0x0, false, [⟨23, 0, .mw, []⟩], []⟩ /- ADM.WRED5 -/,
  ⟨0x2018, 32, 64, 0, 1, 0x0, false, [⟨31, 31, .mw, []⟩, ⟨27, 24, .mw, []⟩, ⟨23, 0, .mw, []⟩], []⟩ /- ADM.WRED6 -/,
  ⟨0x2800, 4, 1024, 0, 1, 0x0, false, [⟨29, 20, .mw, []⟩, ⟨19, 10, .mw, []⟩, ⟨9, 0, .mw, []⟩], []⟩ /- ADM.PC_HOLD -/,
  ⟨0x3800, 16, 64, 0, 1, 0x0, false, [⟨31, 0, .rc, []⟩], []⟩ /- ADM.PORT_DOWN_DISC -/,
  ⟨0x3804, 16, 64, 0, 1, 0x0, false, [⟨31, 0, .rc, []⟩], []⟩ /- ADM.AGE_DISC -/,
  ⟨0x3808, 16, 64, 0, 1, 0x0, false, [⟨31, 0, .rc, []⟩], []⟩ /- ADM.HOLD_CAP_DROP -/,
  ⟨0x380C, 16, 64, 0, 1, 0x0, false, [⟨31, 0, .rc, []⟩], []⟩ /- ADM.HEADROOM_DROP -/]

/-- Registers of the sched page (R475). -/
def regs_sched : List RegD := [
  ⟨0x100, 0, 1, 0, 1, 0x0, false, [⟨16, 0, .mw, []⟩], []⟩ /- SCHED.NODE_SEL -/,
  ⟨0x104, 0, 1, 0, 1, 0x0, false, [⟨31, 31, .womw, []⟩], []⟩ /- SCHED.NODE_CMD -/,
  ⟨0x108, 0, 1, 0, 1, 0x0, false, [⟨31, 31, .ro, []⟩, ⟨30, 30, .w1c, []⟩, ⟨23, 16, .ro, []⟩], []⟩ /- SCHED.NODE_STAT -/,
  ⟨0x110, 4, 7, 0, 1, 0x0, false, [⟨31, 0, .mw, []⟩], []⟩ /- SCHED.NODE_W -/,
  ⟨0x12C, 0, 1, 0, 1, 0x0, false, [⟨31, 0, .ro, []⟩], []⟩ /- SCHED.NODE_W7 -/,
  ⟨0x180, 0, 1, 0, 1, 0x0, false, [⟨31, 0, .rc, []⟩], []⟩ /- SCHED.NO_QUEUE_DROP -/,
  ⟨0x184, 0, 1, 0, 1, 0x0, false, [⟨31, 0, .rc, []⟩], []⟩ /- SCHED.RESET_DISC -/,
  ⟨0x400, 4, 64, 0, 1, 0x14, false, [⟨7, 0, .mw, [(0, 127), (192, 255)]⟩], []⟩ /- SCHED.PORT_CFG -/,
  ⟨0x1000, 4, 512, 0, 1, 0x0, false, [⟨31, 31, .mw, []⟩, ⟨30, 29, .mw, [(0, 2)]⟩, ⟨21, 17, .mw, [(0, 17)]⟩, ⟨16, 0, .mw, []⟩], []⟩ /- SCHED.EQ_MAP -/]

/-- Registers of the spout page (R477). -/
def regs_spout : List RegD := [
  ⟨0x100, 0, 1, 0, 1, 0x80, false, [⟨9, 0, .mw, [(64, 1023)]⟩], []⟩ /- SPOUT.CFG -/,
  ⟨0x104, 0, 1, 0, 1, 0x0, false, [⟨7, 0, .ro, []⟩], []⟩ /- SPOUT.REFUSE -/,
  ⟨0x108, 0, 1, 0, 1, 0x0, false, [⟨31, 0, .rc, []⟩], []⟩ /- SPOUT.REJ_CNT -/,
  ⟨0x110, 0, 1, 0, 1, 0x0, false, [⟨7, 0, .mw, []⟩], []⟩ /- SPOUT.LIST_SEL -/,
  ⟨0x114, 0, 1, 0, 1, 0x0, true, [⟨31, 0, .mw, []⟩], [⟨31, 0, .mw, []⟩]⟩ /- SPOUT.ADM_BASE -/,
  ⟨0x11C, 0, 1, 0, 1, 0x0, false, [⟨31, 0, .mw, []⟩], []⟩ /- SPOUT.ADM_CYCLE -/,
  ⟨0x120, 0, 1, 0, 1, 0x0, false, [⟨31, 0, .mw, []⟩], []⟩ /- SPOUT.ADM_EXT -/,
  ⟨0x124, 0, 1, 0, 1, 0x0, false, [⟨10, 0, .mw, [(1, 1024)]⟩], []⟩ /- SPOUT.ADM_LEN -/,
  ⟨0x128, 0, 1, 0, 1, 0x40000000, false, [⟨31, 31, .mw, []⟩, ⟨30, 30, .mw, []⟩], []⟩ /- SPOUT.LIST_CFG -/,
  ⟨0x12C, 0, 1, 0, 1, 0xFFFFFFFF, false, [⟨31, 0, .mw, []⟩], []⟩ /- SPOUT.GATE_INIT -/,
  ⟨0x130, 0, 1, 0, 1, 0x0, false, [⟨31, 31, .ro, []⟩, ⟨30, 30, .ro, []⟩, ⟨29, 29, .ro, []⟩, ⟨28, 27, .ro, []⟩, ⟨26, 26, .ro, []⟩, ⟨9, 0, .ro, []⟩], []⟩ /- SPOUT.LIST_STAT -/,
  ⟨0x134, 0, 1, 0, 1, 0x0, true, [⟨31, 0, .ro, []⟩], [⟨31, 0, .ro, []⟩]⟩ /- SPOUT.OPER_BASE -/,
  ⟨0x13C, 0, 1, 0, 1, 0x0, false, [⟨31, 0, .ro, []⟩], []⟩ /- SPOUT.OPER_CYCLE -/,
  ⟨0x140, 0, 1, 0, 1, 0x0, true, [⟨31, 0, .ro, []⟩], [⟨31, 0, .ro, []⟩]⟩ /- SPOUT.PEND_START -/,
  ⟨0x150, 0, 1, 0, 1, 0x0, false, [⟨31, 31, .mw, []⟩, ⟨9, 0, .mw, []⟩], []⟩ /- SPOUT.ENT_IDX -/,
  ⟨0x154, 0, 1, 0, 1, 0x0, false, [⟨31, 0, .mw, []⟩], []⟩ /- SPOUT.ENT_MASK -/,
  ⟨0x158, 0, 1, 0, 1, 0x0, false, [⟨29, 0, .mw, []⟩], []⟩ /- SPOUT.ENT_DUR -/,
  ⟨0x1000, 16, 64, 0, 1, 0x0, false, [⟨31, 24, .mw, [(0, 128)]⟩, ⟨15, 0, .mw, [(0, 1000), (64536, 65535)]⟩], []⟩ /- SPOUT.PORT_CFG -/,
  ⟨0x1004, 16, 64, 0, 1, 0x0, false, [⟨23, 0, .ro, []⟩], []⟩ /- SPOUT.PORT_EXIT -/,
  ⟨0x1008, 16, 64, 0, 1, 0x0, false, [⟨31, 0, .rc, []⟩], []⟩ /- SPOUT.LATE_LAUNCH -/,
  ⟨0x100C, 16, 64, 0, 1, 0x0, false, [⟨31, 0, .rc, []⟩], []⟩ /- SPOUT.OVERSIZE_DROP -/]

/-- Registers of the fab page (R499). -/
def regs_fab_0 : List RegD := [
  ⟨0x100, 0, 1, 0, 1, 0x0, false, [⟨31, 31, .mw, []⟩, ⟨30, 23, .mw, []⟩, ⟨11, 0, .mw, []⟩], []⟩ /- FAB.CFG -/,
  ⟨0x104, 0, 1, 0, 1, 0x32, false, [⟨9, 0, .mw, [(1, 1000)]⟩], []⟩ /- FAB.REASM_CFG -/,
  ⟨0x108, 0, 1, 0, 1, 0x4100000A, false, [⟨31, 26, .mw, []⟩, ⟨25, 22, .mw, [(1, 15)]⟩, ⟨9, 0, .mw, [(1, 1000)]⟩], []⟩ /- FAB.CRED_CFG -/,
  ⟨0x10C, 0, 1, 0, 1, 0x100, false, [⟨15, 0, .mw, [(1, 65535)]⟩], []⟩ /- FAB.CRED_STOP -/,
  ⟨0x110, 0, 1, 0, 1, 0xA, false, [⟨6, 0, .mw, [(1, 100)]⟩], []⟩ /- FAB.LINK_CFG -/,
  ⟨0x114, 0, 1, 0, 1, 0x0, false, [⟨31, 0, .mw, []⟩], []⟩ /- FAB.MC_SHAPE -/,
  ⟨0x120, 4, 8, 0, 1, 0x0, false, [⟨31, 31, .mw, []⟩, ⟨11, 0, .mw, []⟩], []⟩ /- FAB.MESH_PEER -/,
  ⟨0x140, 0, 1, 0, 1, 0x0, false, [⟨31, 0, .ro, []⟩], []⟩ /- FAB.MESH_STAT -/,
  ⟨0x150, 0, 1, 0, 1, 0x0, false, [⟨15, 0, .mw, []⟩], []⟩ /- FAB.SPORT_IDX -/,
  ⟨0x154, 0, 1, 0, 1, 0x0, false, [⟨31, 31, .mw, []⟩, ⟨17, 12, .mw, []⟩, ⟨11, 0, .mw, []⟩], []⟩ /- FAB.SPORT_DATA -/,
  ⟨0x158, 0, 1, 0, 1, 0x0, false, [⟨15, 0, .mw, []⟩], []⟩ /- FAB.MC_IDX -/,
  ⟨0x15C, 0, 1, 0, 1, 0x0, false, [⟨7, 0, .mw, []⟩], []⟩ /- FAB.MC_DATA -/,
  ⟨0x160, 0, 1, 0, 1, 0x0, false, [⟨11, 0, .mw, []⟩], []⟩ /- FAB.REACH_IDX -/,
  ⟨0x164, 0, 1, 0, 1, 0x0, true, [⟨31, 0, .ro, []⟩], [⟨15, 0, .ro, []⟩]⟩ /- FAB.REACH -/,
  ⟨0x180, 0, 1, 0, 1, 0x0, false, [⟨31, 0, .rc, []⟩], []⟩ /- FAB.HDR_CRC -/,
  ⟨0x184, 0, 1, 0, 1, 0x0, false, [⟨31, 0, .rc, []⟩], []⟩ /- FAB.PCRC_ERR -/,
  ⟨0x188, 0, 1, 0, 1, 0x0, false, [⟨31, 0, .rc, []⟩], []⟩ /- FAB.PROTO_ERR -/,
  ⟨0x18C, 0, 1, 0, 1, 0x0, false, [⟨31, 0, .rc, []⟩], []⟩ /- FAB.MISROUTE -/,
  ⟨0x190, 0, 1, 0, 1, 0x0, false, [⟨31, 0, .rc, []⟩], []⟩ /- FAB.CTX_MISMATCH -/,
  ⟨0x194, 0, 1, 0, 1, 0x0, false, [⟨31, 0, .rc, []⟩], []⟩ /- FAB.REASM_TIMEOUT -/,
  ⟨0x198, 0, 1, 0, 1, 0x0, false, [⟨31, 0, .rc, []⟩], []⟩ /- FAB.LATE_CELL -/,
  ⟨0x19C, 0, 1, 0, 1, 0x0, false, [⟨31, 0, .rc, []⟩], []⟩ /- FAB.REORDER_FULL -/,
  ⟨0x1A0, 0, 1, 0, 1, 0x0, false, [⟨31, 0, .rc, []⟩], []⟩ /- FAB.RESYNC -/,
  ⟨0x1A4, 0, 1, 0, 1, 0x0, false, [⟨31, 0, .rc, []⟩], []⟩ /- FAB.LINK_LOSS -/]

/-- Registers of the fab page (R499). -/
def regs_fab_1 : List RegD := [
  ⟨0x1A8, 0, 1, 0, 1, 0x0, false, [⟨31, 0, .rc, []⟩], []⟩ /- FAB.CRED_WASTE -/,
  ⟨0x1AC, 0, 1, 0, 1, 0x0, false, [⟨31, 0, .rc, []⟩], []⟩ /- FAB.REQ_OVF -/,
  ⟨0x200, 4, 48, 0, 1, 0x0, false, [⟨31, 31, .mw, []⟩, ⟨30, 29, .mw, []⟩, ⟨28, 28, .mw, []⟩, ⟨27, 27, .mw, []⟩, ⟨11, 0, .mw, []⟩], []⟩ /- FAB.LANE_CFG -/,
  ⟨0x300, 4, 48, 0, 1, 0x0, false, [⟨31, 29, .ro, []⟩, ⟨19, 8, .ro, []⟩, ⟨7, 0, .ro, []⟩], []⟩ /- FAB.LANE_STAT -/]

/-- Registers of the fab page (R499). -/
def regs_fab : List RegD := regs_fab_0 ++ regs_fab_1

/-- Registers of the hbmc page (R525). -/
def regs_hbmc : List RegD := [
  ⟨0x100, 0, 1, 0, 1, 0x0, false, [⟨31, 29, .ro, []⟩, ⟨28, 28, .ro, []⟩, ⟨27, 27, .ro, []⟩, ⟨11, 8, .ro, []⟩, ⟨7, 0, .ro, []⟩], []⟩ /- HBMC.STATUS -/,
  ⟨0x104, 0, 1, 0, 1, 0xA000000B, false, [⟨31, 31, .mw, []⟩, ⟨30, 30, .mw, []⟩, ⟨29, 29, .mw, []⟩, ⟨4, 0, .mw, [(8, 16)]⟩], []⟩ /- HBMC.ROWD_CFG -/,
  ⟨0x108, 0, 1, 0, 1, 0x5080064, false, [⟨31, 24, .mw, [(1, 50)]⟩, ⟨23, 16, .mw, [(1, 63)]⟩, ⟨15, 0, .mw, []⟩], []⟩ /- HBMC.RETRAIN_CFG -/,
  ⟨0x10C, 0, 1, 0, 1, 0x108, false, [⟨8, 8, .mw, []⟩, ⟨7, 0, .mw, [(1, 255)]⟩], []⟩ /- HBMC.REPAIR_CFG -/,
  ⟨0x110, 4, 4, 0, 1, 0x0, false, [⟨31, 29, .ro, []⟩, ⟨28, 27, .ro, []⟩, ⟨26, 26, .ro, []⟩, ⟨11, 0, .ro, []⟩], []⟩ /- HBMC.GRP_STAT -/,
  ⟨0x120, 4, 32, 0, 1, 0x0, false, [⟨31, 29, .ro, []⟩, ⟨23, 16, .ro, []⟩, ⟨15, 8, .ro, []⟩, ⟨7, 0, .ro, []⟩], []⟩ /- HBMC.PC_STAT -/,
  ⟨0x200, 0, 1, 0, 1, 0x0, false, [⟨31, 0, .rc, []⟩], []⟩ /- HBMC.CORR_CNT -/,
  ⟨0x204, 0, 1, 0, 1, 0x0, false, [⟨31, 0, .rc, []⟩], []⟩ /- HBMC.UNCORR_CNT -/,
  ⟨0x208, 0, 1, 0, 1, 0x0, false, [⟨31, 0, .rc, []⟩], []⟩ /- HBMC.STACK_CORR_CNT -/,
  ⟨0x20C, 0, 1, 0, 1, 0x0, false, [⟨31, 0, .rc, []⟩], []⟩ /- HBMC.STACK_UNCORR_CNT -/,
  ⟨0x210, 0, 1, 0, 1, 0x0, false, [⟨31, 0, .rc, []⟩], []⟩ /- HBMC.POISON_TX -/,
  ⟨0x214, 0, 1, 0, 1, 0x0, false, [⟨31, 0, .rc, []⟩], []⟩ /- HBMC.FAST_CNT -/,
  ⟨0x218, 0, 1, 0, 1, 0x0, false, [⟨31, 0, .rc, []⟩], []⟩ /- HBMC.FAST_ABORT -/,
  ⟨0x21C, 0, 1, 0, 1, 0x0, false, [⟨31, 0, .rc, []⟩], []⟩ /- HBMC.SPPR_CNT -/,
  ⟨0x220, 0, 1, 0, 1, 0x0, false, [⟨31, 0, .rc, []⟩], []⟩ /- HBMC.HPPR_CNT -/,
  ⟨0x224, 0, 1, 0, 1, 0x0, false, [⟨31, 0, .rc, []⟩], []⟩ /- HBMC.RFM_CNT -/,
  ⟨0x228, 0, 1, 0, 1, 0x0, true, [⟨31, 0, .ro, []⟩], [⟨31, 0, .ro, []⟩]⟩ /- HBMC.NREF -/,
  ⟨0x300, 0, 1, 0, 1, 0x0, false, [⟨31, 31, .wokw, []⟩, ⟨30, 28, .kw, []⟩, ⟨5, 5, .kw, []⟩, ⟨4, 0, .kw, []⟩], []⟩ /- HBMC.KTRAIN_CMD -/,
  ⟨0x304, 0, 1, 0, 1, 0x0, false, [⟨31, 0, .kw, []⟩], []⟩ /- HBMC.KTRAIN_ARG -/,
  ⟨0x308, 0, 1, 0, 1, 0x0, false, [⟨31, 31, .ro, []⟩, ⟨30, 30, .w1c, []⟩, ⟨23, 16, .ro, []⟩, ⟨15, 0, .ro, []⟩], []⟩ /- HBMC.KTRAIN_STAT -/]

/-- Registers of the part page (R559). -/
def regs_part : List RegD := [
  ⟨0x100, 0, 1, 0, 1, 0x0, false, [⟨4, 0, .mw, []⟩], []⟩ /- PART.SEL -/,
  ⟨0x104, 0, 1, 0, 1, 0x0, false, [⟨31, 31, .womw, []⟩, ⟨30, 28, .womw, [(0, 4)]⟩, ⟨4, 0, .womw, []⟩], []⟩ /- PART.CMD -/,
  ⟨0x108, 0, 1, 0, 1, 0x0, false, [⟨31, 31, .ro, []⟩, ⟨30, 30, .w1c, []⟩, ⟨23, 16, .ro, []⟩], []⟩ /- PART.CMD_STAT -/,
  ⟨0x10C, 0, 1, 0, 1, 0x0, false, [⟨31, 30, .ro, []⟩, ⟨29, 27, .ro, []⟩, ⟨26, 24, .ro, []⟩], []⟩ /- PART.STAT -/,
  ⟨0x110, 0, 1, 0, 1, 0x640A0A, false, [⟨31, 31, .mw, []⟩, ⟨27, 16, .mw, [(1, 4095)]⟩, ⟨15, 8, .mw, [(1, 255)]⟩, ⟨7, 0, .mw, [(1, 255)]⟩], []⟩ /- PART.QCFG -/,
  ⟨0x114, 0, 1, 0, 1, 0x0, false, [⟨16, 0, .mw, []⟩], []⟩ /- PART.QR_FIRST -/,
  ⟨0x118, 0, 1, 0, 1, 0x0, false, [⟨17, 0, .mw, [(0, 131072)]⟩], []⟩ /- PART.QR_COUNT -/,
  ⟨0x120, 4, 4, 0, 1, 0x0, false, [⟨31, 31, .mw, []⟩, ⟨30, 30, .mw, []⟩, ⟨26, 20, .mw, []⟩, ⟨19, 0, .mw, []⟩], []⟩ /- PART.IDENT -/,
  ⟨0x140, 0, 1, 0, 1, 0x0, false, [⟨7, 0, .ro, []⟩], []⟩ /- PART.REFUSE -/,
  ⟨0x180, 0, 1, 0, 1, 0x0, false, [⟨12, 8, .mw, []⟩, ⟨4, 0, .mw, []⟩], []⟩ /- PART.RING_SEL -/,
  ⟨0x184, 0, 1, 0, 1, 0x0, true, [⟨31, 12, .mw, []⟩], [⟨31, 0, .mw, []⟩]⟩ /- PART.RING_BASE -/,
  ⟨0x18C, 0, 1, 0, 1, 0x0, false, [⟨31, 31, .mw, []⟩, ⟨28, 24, .mw, [(6, 16)]⟩, ⟨23, 22, .mw, []⟩, ⟨21, 11, .mw, []⟩], []⟩ /- PART.RING_CFG -/,
  ⟨0x190, 0, 1, 0, 1, 0x0, false, [⟨13, 0, .mw, []⟩], []⟩ /- PART.RING_AUX -/,
  ⟨0x194, 0, 1, 0, 1, 0x0, false, [⟨31, 31, .ro, []⟩, ⟨30, 30, .ro, []⟩, ⟨29, 29, .ro, []⟩, ⟨7, 0, .ro, []⟩], []⟩ /- PART.RING_STAT -/,
  ⟨0x1000, 4, 64, 0, 1, 0x0, false, [⟨4, 0, .mw, []⟩], []⟩ /- PART.PORT_OWN -/]

/-- Registers of the testFe page (R574). -/
def regs_testFe : List RegD := [
  ⟨0x100, 0, 1, 0, 1, 0x0, false, [⟨31, 28, .mw, [(0, 4)]⟩, ⟨15, 0, .mw, []⟩], []⟩ /- TEST.SEL -/,
  ⟨0x104, 0, 1, 0, 1, 0x0, false, [⟨31, 31, .mw, []⟩, ⟨30, 29, .mw, [(0, 2)]⟩, ⟨28, 28, .mw, []⟩, ⟨27, 27, .mw, []⟩, ⟨26, 26, .mw, []⟩, ⟨19, 16, .mw, []⟩, ⟨15, 0, .mw, []⟩], []⟩ /- TEST.CFG -/,
  ⟨0x108, 0, 1, 0, 1, 0x0, false, [⟨3, 3, .womw, []⟩, ⟨2, 2, .womw, []⟩, ⟨1, 1, .womw, []⟩, ⟨0, 0, .womw, []⟩], []⟩ /- TEST.CTRL -/,
  ⟨0x10C, 0, 1, 0, 1, 0x0, false, [⟨31, 29, .ro, []⟩, ⟨28, 28, .ro, []⟩, ⟨23, 16, .ro, []⟩, ⟨15, 0, .ro, []⟩], []⟩ /- TEST.STAT -/,
  ⟨0x110, 0, 1, 0, 1, 0x0, true, [⟨31, 0, .ro, []⟩], [⟨15, 0, .ro, []⟩]⟩ /- TEST.BITS -/,
  ⟨0x118, 0, 1, 0, 1, 0x0, true, [⟨31, 0, .ro, []⟩], [⟨15, 0, .ro, []⟩]⟩ /- TEST.ERR -/,
  ⟨0x120, 0, 1, 0, 1, 0x0, false, [⟨31, 0, .rc, []⟩], []⟩ /- TEST.LOCK_LOSS -/,
  ⟨0x124, 0, 1, 0, 1, 0x0, true, [⟨31, 0, .mw, []⟩], [⟨31, 0, .mw, []⟩]⟩ /- TEST.USER -/,
  ⟨0x130, 0, 1, 0, 1, 0x0, false, [⟨31, 31, .ro, []⟩, ⟨30, 30, .ro, []⟩, ⟨15, 0, .ro, []⟩], []⟩ /- TEST.BIST_STAT -/,
  ⟨0x140, 0, 1, 0, 1, 0xFFFFFFFF, false, [⟨31, 0, .mw, []⟩], []⟩ /- TEST.DUMP_HANDLE -/,
  ⟨0x144, 0, 1, 0, 1, 0x0, false, [⟨31, 31, .womw, []⟩, ⟨13, 0, .mw, []⟩], []⟩ /- TEST.DUMP_CTRL -/,
  ⟨0x148, 0, 1, 0, 1, 0x0, false, [⟨31, 31, .ro, []⟩, ⟨30, 30, .w1c, []⟩, ⟨7, 0, .ro, []⟩], []⟩ /- TEST.DUMP_STAT -/,
  ⟨0x180, 4, 16, 0, 1, 0x0, false, [⟨31, 0, .ro, []⟩], []⟩ /- TEST.DUMP_DATA -/]

/-- Registers of the brdgFe page (R582). -/
def regs_brdgFe : List RegD := [
  ⟨0x100, 0, 1, 0, 1, 0x10, false, [⟨7, 0, .mw, [(1, 255)]⟩], []⟩ /- BRDG.CFG -/,
  ⟨0x104, 0, 1, 0, 1, 0x4000, false, [⟨14, 0, .ro, []⟩], []⟩ /- BRDG.CAP -/,
  ⟨0x108, 0, 1, 0, 1, 0x0, false, [⟨3, 0, .ro, []⟩], []⟩ /- BRDG.SAUCER -/,
  ⟨0x10C, 0, 1, 0, 1, 0x0, false, [⟨31, 0, .rc, []⟩], []⟩ /- BRDG.TX_DROP -/,
  ⟨0x110, 0, 1, 0, 1, 0x0, false, [⟨31, 0, .rc, []⟩], []⟩ /- BRDG.REPAIR_CNT -/,
  ⟨0x120, 4, 8, 0, 1, 0x0, false, [⟨31, 30, .ro, []⟩, ⟨29, 29, .ro, []⟩, ⟨7, 4, .ro, []⟩, ⟨3, 0, .ro, []⟩], []⟩ /- BRDG.MOD_STAT -/]

/-- Registers of the sensFe page (R585). -/
def regs_sensFe : List RegD := [
  ⟨0x100, 4, 24, 0, 1, 0x0, false, [⟨31, 31, .ro, []⟩, ⟨15, 0, .ro, []⟩], []⟩ /- SENS.TEMP -/,
  ⟨0x160, 0, 1, 0, 1, 0x0, false, [⟨31, 31, .ro, []⟩, ⟨20, 16, .ro, []⟩, ⟨15, 0, .ro, []⟩], []⟩ /- SENS.TEMP_MAX -/,
  ⟨0x164, 0, 1, 0, 1, 0x69737D, false, [⟨23, 16, .mw, [(60, 115)]⟩, ⟨15, 8, .mw, []⟩, ⟨7, 0, .ro, []⟩], []⟩ /- SENS.THRESH -/,
  ⟨0x180, 4, 16, 0, 1, 0x0, false, [⟨31, 31, .ro, []⟩, ⟨30, 30, .ro, []⟩, ⟨29, 29, .ro, []⟩, ⟨15, 0, .ro, []⟩], []⟩ /- SENS.VOLT -/,
  ⟨0x200, 4, 3, 0, 1, 0x0, false, [⟨31, 0, .ro, []⟩], []⟩ /- SENS.PKG -/]

/-- Registers of the pwrH page (R615). -/
def regs_pwrH : List RegD := [
  ⟨0x100, 0, 1, 0, 1, 0x0, false, [⟨3, 3, .ro, []⟩, ⟨2, 1, .ro, []⟩, ⟨0, 0, .ro, []⟩], []⟩ /- PWR.STRAP -/,
  ⟨0x104, 0, 1, 0, 1, 0x0, false, [⟨31, 24, .mw, [(0, 0), (6, 60)]⟩, ⟨23, 16, .mw, [(0, 0), (6, 60)]⟩, ⟨15, 0, .mw, []⟩], []⟩ /- PWR.IN_CFG -/,
  ⟨0x108, 0, 1, 0, 1, 0x0, false, [⟨31, 31, .ro, []⟩, ⟨30, 30, .ro, []⟩, ⟨29, 29, .ro, []⟩, ⟨2, 0, .ro, []⟩], []⟩ /- PWR.IN_STAT -/,
  ⟨0x110, 4, 4, 0, 1, 0x0, false, [⟨31, 31, .mw, []⟩, ⟨30, 30, .mw, []⟩], []⟩ /- PWR.CH_CTRL -/,
  ⟨0x120, 4, 4, 0, 1, 0x0, false, [⟨31, 29, .ro, []⟩, ⟨28, 28, .ro, []⟩, ⟨27, 27, .ro, []⟩, ⟨26, 24, .ro, []⟩, ⟨19, 0, .ro, []⟩], []⟩ /- PWR.CH_STAT -/,
  ⟨0x130, 0, 1, 0, 1, 0x0, false, [⟨31, 31, .ro, []⟩, ⟨30, 30, .ro, []⟩, ⟨7, 0, .ro, []⟩], []⟩ /- PWR.JTAG_STAT -/,
  ⟨0x134, 0, 1, 0, 1, 0x0, false, [⟨1, 1, .mw, []⟩, ⟨0, 0, .womw, []⟩], []⟩ /- PWR.JTAG_CTRL -/]

/-- Registers of the pwrFe page (R618). -/
def regs_pwrFe : List RegD := [
  ⟨0x100, 0, 1, 0, 1, 0x0, false, [⟨15, 0, .ro, []⟩], []⟩ /- PWR.DIE_POWER -/,
  ⟨0x104, 0, 1, 0, 1, 0x0, true, [⟨31, 0, .ro, []⟩], [⟨31, 0, .ro, []⟩]⟩ /- PWR.DIE_ENERGY -/,
  ⟨0x10C, 0, 1, 0, 1, 0x0, false, [⟨5, 0, .ro, []⟩], []⟩ /- PWR.LANES_PD -/,
  ⟨0x110, 0, 1, 0, 1, 0x2710, false, [⟨16, 0, .mw, [(10000, 100000)]⟩], []⟩ /- PWR.OSC_NOM -/,
  ⟨0x114, 0, 1, 0, 1, 0x0, false, [⟨31, 31, .ro, []⟩, ⟨15, 0, .ro, []⟩], []⟩ /- PWR.OSC_THERM -/]

end Sys2Proof.Machine
end

