-- ==== Sys2Proof/Machine/Catalogue.lean ====
section
/-! DEFINITION. Lookup in the register catalogue: which register a page offset names, its fields, its reset word, and the
values a write may carry (R4, R42). -/

namespace Sys2Proof.Machine

/-- The block-specific registers of a page kind. -/
def regsOf : PageKind → List RegD
  | .host => regs_host
  | .relay => regs_relay
  | .pwrH => regs_pwrH
  | .sensH => regs_sensFe
  | .keepA => regs_keepA
  | .keepB => regs_keepA.filter (fun r => r.base != 0x108)
  | .jrnlFe => regs_jrnlFe
  | .jrnlTm => regs_jrnlFe.filter (fun r => r.base == 0x118 || r.base == 0x120)
  | .cosy => regs_cosy
  | .act => regs_act
  | .brew => regs_brew
  | .part => regs_part
  | .disp => regs_disp
  | .dbg => regs_dbg
  | .pclu => regs_pclu
  | .strn => regs_strn
  | .line => regs_line
  | .flex => regs_flex
  | .slot => regs_slot
  | .pm => regs_pm
  | .tbl => regs_tbl
  | .tern => regs_tern
  | .learn => regs_learn
  | .samp => regs_samp
  | .caddy => regs_caddy
  | .voq => regs_voq
  | .adm => regs_adm
  | .sched => regs_sched
  | .spout => regs_spout
  | .fab => regs_fab
  | .hbmc => regs_hbmc
  | .brdgFe => regs_brdgFe
  | .brdgTm => regs_brdgFe.filter (fun r => r.base != 0x10C)
  | .testFe => regs_testFe.filter (fun r => !(decide (0x140 ≤ r.base)))
  | .testTm => regs_testFe
  | .sensFe => regs_sensFe.filter (fun r => r.base != 0x200)
  | .sensTm => regs_sensFe.filter (fun r => r.base != 0x200)
  | .pwrFe => regs_pwrFe
  | .pwrTm => regs_pwrFe.filter (fun r => decide (r.base < 0x110))

/-- A whole-word field. -/
def wholeF (a : Acc) : List FieldD := [⟨31, 0, a, []⟩]

/-- The header registers that every page has (R53–R65). No page is OWNABLE, so the bits of PAGE_CTRL.OWNER are ignored whatever they say (R55). -/
def regsHeader : List RegD := [
  ⟨0x00, 0, 1, 0, 1, 0, false, wholeF .ro, []⟩,
  ⟨0x04, 0, 1, 0, 1, 0, false, wholeF .ro, []⟩,
  ⟨0x08, 0, 1, 0, 1, 0, false, wholeF .ro, []⟩,
  ⟨0x0C, 0, 1, 0, 1, 0, false, [⟨15, 8, .mw, []⟩, ⟨3, 3, .mw, []⟩, ⟨2, 2, .wo, []⟩, ⟨1, 1, .rw, []⟩, ⟨0, 0, .rw, []⟩], []⟩,
  ⟨0x10, 0, 1, 0, 1, 0, false, wholeF .ro, []⟩,
  ⟨0x20, 0, 1, 0, 1, 0, false, wholeF .w1c, []⟩,
  ⟨0x24, 0, 1, 0, 1, 0, false, wholeF .rw, []⟩,
  ⟨0x28, 0, 1, 0, 1, 0, false, wholeF .w1s, []⟩,
  ⟨0x2C, 0, 1, 0, 1, 0, false, wholeF .ro, []⟩,
  ⟨0x30, 0, 1, 0, 1, 0x20000, false, [⟨17, 16, .mw, []⟩, ⟨10, 0, .mw, []⟩], []⟩]

/-- The error capture registers of a page with PAGE_CAP.ERR_CAP (R69). -/
def regsErrCap : List RegD := [
  ⟨0x40, 8, 2, 0, 1, 0, true, wholeF .ro, wholeF .ro⟩,
  ⟨0x50, 0, 1, 0, 1, 0, false, wholeF .ro, []⟩,
  ⟨0x54, 0, 1, 0, 1, 0, false, [⟨31, 31, .w1c, []⟩, ⟨30, 30, .ro, []⟩, ⟨27, 27, .ro, []⟩, ⟨23, 20, .ro, []⟩, ⟨15, 8, .ro, []⟩], []⟩,
  ⟨0x58, 4, 2, 0, 1, 0, false, wholeF .ro, []⟩]

/-- The tally unit of a page with PAGE_CAP.TALLY (R72, R73, R75). -/
def regsTally : List RegD := [
  ⟨0x80, 0, 1, 0, 1, 0, false, [⟨23, 16, .rw, []⟩, ⟨15, 8, .rw, []⟩, ⟨2, 2, .rw, []⟩, ⟨1, 1, .wo, []⟩, ⟨0, 0, .rw, []⟩], []⟩,
  ⟨0x84, 0, 1, 0, 1, 0, false, [⟨7, 0, .w1c, []⟩], []⟩,
  ⟨0x88, 0, 1, 0, 1, 0, true, wholeF .ro, wholeF .ro⟩,
  ⟨0x90, 0, 1, 0, 1, 0xF, false, [⟨13, 13, .rw, []⟩, ⟨12, 8, .rw, []⟩, ⟨3, 0, .rw, []⟩], []⟩,
  ⟨0x94, 0, 1, 0, 1, 0, false, [⟨31, 31, .rw, []⟩, ⟨27, 16, .rw, []⟩, ⟨11, 0, .rw, []⟩], []⟩,
  ⟨0x98, 0, 1, 0, 1, 0xFF, false, [⟨7, 0, .rw, []⟩], []⟩,
  ⟨0xA0, 4, 2, 0, 1, 0, false, wholeF .rw, []⟩,
  ⟨0xA8, 4, 2, 0, 1, 0, false, [⟨31, 24, .rw, []⟩, ⟨23, 16, .rw, []⟩, ⟨15, 8, .rw, []⟩, ⟨7, 0, .rw, []⟩], []⟩,
  ⟨0xC0, 8, 8, 0, 1, 0, true, wholeF .rw, [⟨15, 0, .rw, []⟩]⟩]

/-- All registers of a page kind. -/
def allRegs (k : PageKind) : List RegD :=
  regsHeader ++ (if k.cap.errCap then regsErrCap else []) ++ (if k.cap.tally then regsTally else []) ++ regsOf k

/-- Does the offset lie in the array `base + s1 * i + s2 * j`? -/
def RegD.hits (r : RegD) (off : Nat) : Bool :=
  if off < r.base then false
  else
    let d := off - r.base
    let i := if r.n1 ≤ 1 then 0 else min (d / r.s1) (r.n1 - 1)
    let e := d - r.s1 * i
    let j := if r.n2 ≤ 1 then 0 else min (e / r.s2) (r.n2 - 1)
    e - r.s2 * j == 0

/-- What a page offset names: a catalogue row, and whether the offset is the high word of a 64-bit value. -/
structure RegHit where
  row : RegD
  high : Bool
deriving DecidableEq, Repr

/-- The register at a page offset, `none` where the page defines none (R42). -/
def findReg (k : PageKind) (off : Nat) : Option RegHit :=
  match (allRegs k).find? (fun r => r.hits off) with
  | some r => some ⟨r, false⟩
  | none =>
    match (allRegs k).find? (fun r => r.wide && decide (4 ≤ off) && r.hits (off - 4)) with
    | some r => some ⟨r, true⟩
    | none => none

/-- The fields of the word at the hit. -/
def RegHit.flds (h : RegHit) : List FieldD := if h.high then h.row.hiFields else h.row.fields

/-- Reset words that vary along an array or with the instance (R413, R451, R475, R408, R114, R360). -/
def resetSpecial (k : PageKind) (inst off : Nat) : Option Nat :=
  match k with
  | .adm => if 0x100 ≤ off ∧ off < 0x200 then some (64 + (off - 0x100) / 4) else none
  | .sched => if 0x1000 ≤ off ∧ off < 0x1800 then some (0x80000040 + (off - 0x1000) / 4) else none
  | .tbl => if 0x1000 ≤ off ∧ off < 0x1100 then some 0x20000000 else none
  | .keepB => if off = 0x100 then some 1 else none
  | .strn => if off = 0x104 ∧ 6 ≤ inst then some 0x80000000 else none
  | _ => none

/-- The word a register holds after reset: PAGE_CTRL.ENABLE from the catalogue of pages, PAGE_STAT.READY set once the
block has finished its reset, and otherwise the register table's reset word. -/
def resetWord (k : PageKind) (inst off : Nat) : Word :=
  if off = oCTRL then BitVec.ofNat 32 k.enableReset
  else if off = oSTAT then 1
  else match resetSpecial k inst off with
    | some n => BitVec.ofNat 32 n
    | none =>
      match findReg k off with
      | some h => if h.high then 0 else BitVec.ofNat 32 h.row.reset
      | none => 0

/-- Default of a channel register by its key (`Pg.key`). -/
def chanReset (key : Nat) : Word :=
  let p : Pg := ⟨key / 0x2000000, key % 0x2000000 / 0x10000⟩
  match p.kind with
  | some k => resetWord k p.instance' (key % 0x10000)
  | none => 0

/-- Default of a host island register by its BAR0 address. PWR.CH_CTRL.PD resets to 1 − CH_AUTO; the strap is latched
later (R599, R603), so it is 1 until then. -/
def islReset (key : Nat) : Word :=
  match hpKind (key / 0x10000) with
  | some k => resetWord k 0 (key % 0x10000)
  | none => 0

/-- Is the value allowed in the field (R4)? -/
def FieldD.legal (f : FieldD) (v : Word) : Bool :=
  f.ok.isEmpty || f.ok.any (fun r => decide (r.1 ≤ fld v f.hi f.lo) && decide (fld v f.hi f.lo ≤ r.2))

/-- Tally event codes a page accepts in EVSEL (R77). -/
def eventLegal (k : PageKind) (e : Nat) : Bool := decide (e ≤ 8) || (decide (0x10 ≤ e) && decide (e ≤ k.lastEvent))

/-- What makes an encoding reserved beyond the range of one field (R77, R116, R135, R166, R260, R413, R438, R584). -/
def relLegal (k : PageKind) (off : Nat) (v : Word) : Bool :=
  if off = oEVSEL 0 ∨ off = oEVSEL 1 then
    eventLegal k (fld v 7 0) && eventLegal k (fld v 15 8) && eventLegal k (fld v 23 16) && eventLegal k (fld v 31 24)
  else match k with
  | .keepA => if off = 0x108 then decide (fld v 15 8 > fld v 7 0) && decide (fld v 7 0 > 0) else true
  | .cosy =>
    if off = 0x160 then decide (fld v 23 12 > fld v 11 0)
    else if off = 0x150 then
      [0x00, 0x01, 0x02].contains (fld v 7 0) && [0x00, 0x01, 0x02].contains (fld v 15 8)
    else if off = 0x154 then
      [fld v 7 0, fld v 15 8, fld v 23 16, fld v 31 24].all (fun x => [0x00, 0x02, 0x10, 0x11].contains x)
    else true
  | .pm => if off = 0x100 then decide (fld v 16 0 % 900 = 0) && decide (fld v 16 0 ≤ 86399) else true
  | .sensFe => if off = 0x164 then decide (fld v 15 8 > fld v 23 16) && decide (fld v 15 8 ≤ 120) else true
  | .sensTm => if off = 0x164 then decide (fld v 15 8 > fld v 23 16) && decide (fld v 15 8 ≤ 120) else true
  | .sensH => if off = 0x164 then decide (fld v 15 8 > fld v 23 16) && decide (fld v 15 8 ≤ 120) else true
  | .tern => if 0x100 ≤ off ∧ off < 0x200 then
      bit v 31 == false || (decide (0x50 ≤ fld v 7 0) && decide (fld v 7 0 ≤ 0x6F)) else true
  | .caddy => if off = 0x150 ∨ off = 0x300 then decide (fld v 30 28 ≠ 7) else true
  | .voq => if off = 0x130 then decide (fld v 30 29 ≠ 3) else true
  | .adm => if 0x2800 ≤ off ∧ off < 0x3800 then decide (fld v 19 10 < fld v 29 20) else true
  | _ => true

/-- May the two words of a 64-bit value stand together (R4)? COSY.FREQ_ADJ stays within ±200 ppm (R163). -/
def pairLegal (k : PageKind) (off : Nat) (lo hi : Word) : Bool :=
  if k = .cosy ∧ off = 0x130 then decide ((toSigned (lo.toNat + fld hi 15 0 * 2 ^ 32) 48).natAbs ≤ 56294995342) else true

/-- Does a row hold a field that a write can change (R6)? -/
def writable (fs : List FieldD) : Bool := fs.any (fun f => f.acc != .ro && f.acc != .rc)

/-- May the word be written at this register (R4)? -/
def wordLegal (k : PageKind) (off : Nat) (h : RegHit) (v : Word) : Bool :=
  h.flds.all (fun f => f.legal v) && relLegal k off v

end Sys2Proof.Machine
end

