-- ==== Sys2Proof/Machine/RegNames.lean ====
section
/-! DEFINITION. The names of the registers and fields, as the spec names them (BLOCK.REGISTER and
BLOCK.REGISTER_FIELD): byte offsets within the page and bit ranges. -/

namespace Sys2Proof.Machine

abbrev RELAY.LINK_CTRL (c : Nat) : Nat := 0x100 + 16 * c
abbrev RELAY.LINK_CTRL_AUTO (c : Nat) : Fld := ⟨0x100 + 16 * c, 31, 31⟩
abbrev RELAY.LINK_CTRL_RETRAIN (c : Nat) : Fld := ⟨0x100 + 16 * c, 30, 30⟩
abbrev RELAY.LINK_STAT (c : Nat) : Nat := 0x104 + 16 * c
abbrev RELAY.LINK_STAT_STATE (c : Nat) : Fld := ⟨0x104 + 16 * c, 31, 30⟩
abbrev RELAY.LINK_STAT_LAST_CAUSE (c : Nat) : Fld := ⟨0x104 + 16 * c, 7, 0⟩
abbrev RELAY.REPLAY_CNT (c : Nat) : Nat := 0x108 + 16 * c
abbrev RELAY.DOWN_CNT (c : Nat) : Nat := 0x10C + 16 * c
abbrev HOST.REJ_KW_CNT : Nat := 0x100
abbrev HOST.REJ_MW_CNT : Nat := 0x104
abbrev HOST.REJ_OWN_CNT : Nat := 0x108
abbrev HOST.UNIMPL_CNT : Nat := 0x10C
abbrev KEEP.STATUS : Nat := 0x100
abbrev KEEP.STATUS_STATE : Fld := ⟨0x100, 26, 24⟩
abbrev KEEP.STATUS_PARTNER_CLAIM : Fld := ⟨0x100, 23, 16⟩
abbrev KEEP.STATUS_OWN_CLAIM : Fld := ⟨0x100, 15, 8⟩
abbrev KEEP.STATUS_REGION_VALID : Fld := ⟨0x100, 4, 4⟩
abbrev KEEP.STATUS_SAUCER_UP : Fld := ⟨0x100, 3, 3⟩
abbrev KEEP.STATUS_RESYNC_DONE : Fld := ⟨0x100, 2, 2⟩
abbrev KEEP.STATUS_PREF : Fld := ⟨0x100, 1, 1⟩
abbrev KEEP.STATUS_KEEPER : Fld := ⟨0x100, 0, 0⟩
abbrev KEEP.CLAIM : Nat := 0x104
abbrev KEEP.CLAIM_FORCED : Fld := ⟨0x104, 31, 31⟩
abbrev KEEP.CLAIM_CLAIM : Fld := ⟨0x104, 7, 0⟩
abbrev KEEP.CLAIM_LEVEL : Nat := 0x108
abbrev KEEP.CLAIM_LEVEL_ACTIVE_LEVEL : Fld := ⟨0x108, 15, 8⟩
abbrev KEEP.CLAIM_LEVEL_STBY_LEVEL : Fld := ⟨0x108, 7, 0⟩
abbrev KEEP.CYCLE_IDX : Nat := 0x110
abbrev KEEP.HEARTBEAT : Nat := 0x114
abbrev KEEP.WDOG : Nat := 0x118
abbrev KEEP.WDOG_DEBUG_HOLD : Fld := ⟨0x118, 8, 8⟩
abbrev KEEP.WDOG_MISSES : Fld := ⟨0x118, 2, 0⟩
abbrev KEEP.COPY_FAIL_CNT : Nat := 0x11C
abbrev KEEP.TAKEOVER_CNT : Nat := 0x120
abbrev KEEP.REPAIR_CNT : Nat := 0x124
abbrev KEEP.GATE_REJ_CNT : Nat := 0x128
abbrev KEEP.GATE_REJ_FIRST : Nat := 0x12C
abbrev KEEP.GATE_REJ_FIRST_VALID : Fld := ⟨0x12C, 31, 31⟩
abbrev KEEP.GATE_REJ_FIRST_DIE : Fld := ⟨0x12C, 29, 29⟩
abbrev KEEP.GATE_REJ_FIRST_PAGE : Fld := ⟨0x12C, 28, 20⟩
abbrev KEEP.GATE_REJ_FIRST_OFFSET : Fld := ⟨0x12C, 13, 0⟩
abbrev KEEP.FW_ADDR : Nat := 0x140
abbrev KEEP.FW_LEN : Nat := 0x148
abbrev KEEP.FW_CTRL : Nat := 0x14C
abbrev KEEP.FW_CTRL_LOAD : Fld := ⟨0x14C, 0, 0⟩
abbrev KEEP.FW_STAT : Nat := 0x150
abbrev KEEP.FW_STAT_BUSY : Fld := ⟨0x150, 31, 31⟩
abbrev KEEP.FW_STAT_DONE : Fld := ⟨0x150, 30, 30⟩
abbrev KEEP.FW_STAT_RESULT : Fld := ⟨0x150, 7, 0⟩
abbrev KEEP.FW_VER : Nat := 0x154
abbrev KEEP.FW_SVN_MIN : Nat := 0x158
abbrev KEEP.FW_SVN_MIN_SVN : Fld := ⟨0x158, 7, 0⟩
abbrev KEEP.SVC_CMD : Nat := 0x180
abbrev KEEP.SVC_CMD_GO : Fld := ⟨0x180, 31, 31⟩
abbrev KEEP.SVC_CMD_TAG : Fld := ⟨0x180, 23, 16⟩
abbrev KEEP.SVC_CMD_OPCODE : Fld := ⟨0x180, 7, 0⟩
abbrev KEEP.SVC_STAT : Nat := 0x184
abbrev KEEP.SVC_STAT_BUSY : Fld := ⟨0x184, 31, 31⟩
abbrev KEEP.SVC_STAT_DONE : Fld := ⟨0x184, 30, 30⟩
abbrev KEEP.SVC_STAT_TAG : Fld := ⟨0x184, 23, 16⟩
abbrev KEEP.SVC_STAT_STATUS : Fld := ⟨0x184, 7, 0⟩
abbrev KEEP.SVC_ARG (i : Nat) : Nat := 0x190 + 4 * i
abbrev KEEP.SVC_RESP (i : Nat) : Nat := 0x1B0 + 4 * i
abbrev JRNL.CTRL : Nat := 0x100
abbrev JRNL.CTRL_CLEAR : Fld := ⟨0x100, 5, 5⟩
abbrev JRNL.CTRL_UNFREEZE : Fld := ⟨0x100, 4, 4⟩
abbrev JRNL.CTRL_FREEZE_ON_FATAL : Fld := ⟨0x100, 3, 3⟩
abbrev JRNL.CTRL_STREAM_EN : Fld := ⟨0x100, 2, 2⟩
abbrev JRNL.CTRL_MODE : Fld := ⟨0x100, 0, 0⟩
abbrev JRNL.STAT : Nat := 0x104
abbrev JRNL.STAT_FROZEN : Fld := ⟨0x104, 31, 31⟩
abbrev JRNL.STAT_FULL : Fld := ⟨0x104, 30, 30⟩
abbrev JRNL.STAT_COUNT : Fld := ⟨0x104, 14, 0⟩
abbrev JRNL.HEAD : Nat := 0x108
abbrev JRNL.HEAD_WR_IDX : Fld := ⟨0x108, 29, 16⟩
abbrev JRNL.HEAD_NEXT_SEQ : Fld := ⟨0x108, 15, 0⟩
abbrev JRNL.DROP_CNT : Nat := 0x10C
abbrev JRNL.STREAM_IDX : Nat := 0x110
abbrev JRNL.STREAM_IDX_IDX : Fld := ⟨0x110, 13, 0⟩
abbrev JRNL.STREAM_LOST : Nat := 0x114
abbrev JRNL.RD_IDX : Nat := 0x118
abbrev JRNL.RD_IDX_IDX : Fld := ⟨0x118, 13, 0⟩
abbrev JRNL.RD_DATA (i : Nat) : Nat := 0x120 + 4 * i
abbrev COSY.STATUS : Nat := 0x100
abbrev COSY.STATUS_STATE : Fld := ⟨0x100, 31, 29⟩
abbrev COSY.STATUS_MODEL_Q : Fld := ⟨0x100, 28, 27⟩
abbrev COSY.STATUS_OSC_OK : Fld := ⟨0x100, 26, 26⟩
abbrev COSY.STATUS_CLK_SRC : Fld := ⟨0x100, 25, 25⟩
abbrev COSY.STATUS_BOUND_STALE : Fld := ⟨0x100, 24, 24⟩
abbrev COSY.STATUS_TIME_SRC : Fld := ⟨0x100, 23, 16⟩
abbrev COSY.STATUS_FREQ_SRC : Fld := ⟨0x100, 15, 8⟩
abbrev COSY.STATUS_FROM_HO : Fld := ⟨0x100, 7, 7⟩
abbrev COSY.STATUS_SERVO_TIMEOUT : Fld := ⟨0x100, 6, 6⟩
abbrev COSY.TE_BOUND : Nat := 0x104
abbrev COSY.LEARN_SEC : Nat := 0x108
abbrev COSY.SERVO_TICK : Nat := 0x10C
abbrev COSY.TOD_W (i : Nat) : Nat := 0x110 + 4 * i
abbrev COSY.LOCAL : Nat := 0x120
abbrev COSY.FREQ_ADJ : Nat := 0x130
abbrev COSY.SLEW_RATE : Nat := 0x138
abbrev COSY.STEP_OFS : Nat := 0x140
abbrev COSY.STEP_CTRL : Nat := 0x148
abbrev COSY.STEP_CTRL_GO : Fld := ⟨0x148, 0, 0⟩
abbrev COSY.CLK_CTRL : Nat := 0x14C
abbrev COSY.CLK_CTRL_RETURN : Fld := ⟨0x14C, 0, 0⟩
abbrev COSY.TIME_PRIO : Nat := 0x150
abbrev COSY.TIME_PRIO_FIRST : Fld := ⟨0x150, 7, 0⟩
abbrev COSY.TIME_PRIO_SECOND : Fld := ⟨0x150, 15, 8⟩
abbrev COSY.FREQ_PRIO : Nat := 0x154
abbrev COSY.FREQ_PRIO_FIRST : Fld := ⟨0x154, 7, 0⟩
abbrev COSY.FREQ_PRIO_SECOND : Fld := ⟨0x154, 15, 8⟩
abbrev COSY.FREQ_PRIO_THIRD : Fld := ⟨0x154, 23, 16⟩
abbrev COSY.FREQ_PRIO_FOURTH : Fld := ⟨0x154, 31, 24⟩
abbrev COSY.SRC_CFG : Nat := 0x158
abbrev COSY.SRC_CFG_WTR : Fld := ⟨0x158, 31, 20⟩
abbrev COSY.SRC_CFG_HYBRID : Fld := ⟨0x158, 17, 17⟩
abbrev COSY.SRC_CFG_QL_EN : Fld := ⟨0x158, 16, 16⟩
abbrev COSY.SRC_CFG_REC1_EN : Fld := ⟨0x158, 15, 15⟩
abbrev COSY.SRC_CFG_REC1_PORT : Fld := ⟨0x158, 13, 8⟩
abbrev COSY.SRC_CFG_REC0_EN : Fld := ⟨0x158, 7, 7⟩
abbrev COSY.SRC_CFG_REC0_PORT : Fld := ⟨0x158, 5, 0⟩
abbrev COSY.SRC_STAT : Nat := 0x15C
abbrev COSY.SRC_STAT_PPS_TOD : Fld := ⟨0x15C, 1, 1⟩
abbrev COSY.SRC_STAT_PTP : Fld := ⟨0x15C, 2, 2⟩
abbrev COSY.SRC_STAT_SYNCE0 : Fld := ⟨0x15C, 16, 16⟩
abbrev COSY.SRC_STAT_SYNCE1 : Fld := ⟨0x15C, 17, 17⟩
abbrev COSY.LOCK_CFG : Nat := 0x160
abbrev COSY.LOCK_CFG_LOCK_TIME : Fld := ⟨0x160, 31, 24⟩
abbrev COSY.LOCK_CFG_UNLOCK_THRESH : Fld := ⟨0x160, 23, 12⟩
abbrev COSY.LOCK_CFG_LOCK_THRESH : Fld := ⟨0x160, 11, 0⟩
abbrev COSY.SLEW_CFG : Nat := 0x164
abbrev COSY.SLEW_CFG_STEP_EN : Fld := ⟨0x164, 31, 31⟩
abbrev COSY.SLEW_CFG_STEP_FREE_ONLY : Fld := ⟨0x164, 30, 30⟩
abbrev COSY.SLEW_CFG_STEP_THRESH : Fld := ⟨0x164, 29, 20⟩
abbrev COSY.SLEW_CFG_MAX_SLEW : Fld := ⟨0x164, 19, 0⟩
abbrev COSY.HO_CFG : Nat := 0x168
abbrev COSY.HO_CFG_TEMP_SRC : Fld := ⟨0x168, 31, 30⟩
abbrev COSY.HO_CFG_LEARN_EN : Fld := ⟨0x168, 29, 29⟩
abbrev COSY.HO_CFG_HW_EXPIRY : Fld := ⟨0x168, 27, 16⟩
abbrev COSY.HO_LIMIT : Nat := 0x16C
abbrev COSY.PPS_IN_CFG : Nat := 0x170
abbrev COSY.PPS_IN_CFG_EN : Fld := ⟨0x170, 31, 31⟩
abbrev COSY.PPS_IN_CFG_POL : Fld := ⟨0x170, 30, 30⟩
abbrev COSY.PPS_IN_CFG_DELAY : Fld := ⟨0x170, 19, 0⟩
abbrev COSY.TOD_IN_CFG : Nat := 0x174
abbrev COSY.TOD_IN_CFG_EN : Fld := ⟨0x174, 31, 31⟩
abbrev COSY.TOD_IN_CFG_BAUD : Fld := ⟨0x174, 1, 0⟩
abbrev COSY.TOD_ERR_CNT : Nat := 0x178
abbrev COSY.OUT_CFG : Nat := 0x180
abbrev COSY.OUT_CFG_PPS_OUT_EN : Fld := ⟨0x180, 31, 31⟩
abbrev COSY.OUT_CFG_TOD_OUT_EN : Fld := ⟨0x180, 30, 30⟩
abbrev COSY.OUT_CFG_CLK0_EN : Fld := ⟨0x180, 29, 29⟩
abbrev COSY.OUT_CFG_CLK1_EN : Fld := ⟨0x180, 28, 28⟩
abbrev COSY.OUT_CFG_TOD_BAUD : Fld := ⟨0x180, 27, 26⟩
abbrev COSY.OUT_CFG_CLK1_FREQ : Fld := ⟨0x180, 23, 20⟩
abbrev COSY.OUT_CFG_CLK0_FREQ : Fld := ⟨0x180, 19, 16⟩
abbrev COSY.OUT_CFG_SQUELCH : Fld := ⟨0x180, 4, 0⟩
abbrev COSY.PPS_OUT_CFG : Nat := 0x184
abbrev COSY.PPS_OUT_CFG_WIDTH : Fld := ⟨0x184, 31, 20⟩
abbrev COSY.PPS_OUT_CFG_COMP : Fld := ⟨0x184, 19, 0⟩
abbrev COSY.PTP_RXQ_DROP : Nat := 0x190
abbrev COSY.TC_DROP_CNT : Nat := 0x194
abbrev COSY.STEP_CNT : Nat := 0x198
abbrev ACT.CFG : Nat := 0x100
abbrev ACT.CFG_KEEPER_SLOTS : Fld := ⟨0x100, 10, 0⟩
abbrev ACT.STATUS : Nat := 0x104
abbrev ACT.STATUS_KEEPER_USED : Fld := ⟨0x104, 26, 16⟩
abbrev ACT.STATUS_HOST_USED : Fld := ⟨0x104, 10, 0⟩
abbrev ACT.HARM_TIME : Nat := 0x110
abbrev ACT.HARM_ARG : Nat := 0x118
abbrev ACT.HARM_CTRL : Nat := 0x120
abbrev ACT.HARM_CTRL_GO : Fld := ⟨0x120, 31, 31⟩
abbrev ACT.HARM_CTRL_OP : Fld := ⟨0x120, 30, 29⟩
abbrev ACT.HARM_CTRL_LATE_EXEC : Fld := ⟨0x120, 28, 28⟩
abbrev ACT.HARM_CTRL_LOCAL_OK : Fld := ⟨0x120, 27, 27⟩
abbrev ACT.HARM_CTRL_AUTO_FREE : Fld := ⟨0x120, 26, 26⟩
abbrev ACT.HARM_CTRL_NOTIFY : Fld := ⟨0x120, 25, 25⟩
abbrev ACT.HARM_CTRL_TARGET : Fld := ⟨0x120, 23, 16⟩
abbrev ACT.HARM_CTRL_SLOT : Fld := ⟨0x120, 9, 0⟩
abbrev ACT.HARM_RESULT : Nat := 0x124
abbrev ACT.HARM_RESULT_DONE : Fld := ⟨0x124, 31, 31⟩
abbrev ACT.HARM_RESULT_STATUS : Fld := ⟨0x124, 23, 16⟩
abbrev ACT.HARM_RESULT_SLOT : Fld := ⟨0x124, 9, 0⟩
abbrev ACT.KARM_TIME : Nat := 0x130
abbrev ACT.KARM_ARG : Nat := 0x138
abbrev ACT.KARM_CTRL : Nat := 0x140
abbrev ACT.KARM_CTRL_GO : Fld := ⟨0x140, 31, 31⟩
abbrev ACT.KARM_CTRL_OP : Fld := ⟨0x140, 30, 29⟩
abbrev ACT.KARM_CTRL_LATE_EXEC : Fld := ⟨0x140, 28, 28⟩
abbrev ACT.KARM_CTRL_LOCAL_OK : Fld := ⟨0x140, 27, 27⟩
abbrev ACT.KARM_CTRL_AUTO_FREE : Fld := ⟨0x140, 26, 26⟩
abbrev ACT.KARM_CTRL_NOTIFY : Fld := ⟨0x140, 25, 25⟩
abbrev ACT.KARM_CTRL_TARGET : Fld := ⟨0x140, 23, 16⟩
abbrev ACT.KARM_CTRL_SLOT : Fld := ⟨0x140, 9, 0⟩
abbrev ACT.KARM_RESULT : Nat := 0x144
abbrev ACT.KARM_RESULT_DONE : Fld := ⟨0x144, 31, 31⟩
abbrev ACT.KARM_RESULT_STATUS : Fld := ⟨0x144, 23, 16⟩
abbrev ACT.KARM_RESULT_SLOT : Fld := ⟨0x144, 9, 0⟩
abbrev ACT.SLOT_RD_IDX : Nat := 0x150
abbrev ACT.SLOT_RD_IDX_SLOT : Fld := ⟨0x150, 9, 0⟩
abbrev ACT.SLOT_RD (i : Nat) : Nat := 0x154 + 4 * i
abbrev ACT.FIRED_CNT : Nat := 0x180
abbrev ACT.LATE_CNT : Nat := 0x184
abbrev ACT.STEP_FIRE_CNT : Nat := 0x188
abbrev ACT.NO_TIME_CNT : Nat := 0x18C
abbrev ACT.TARGET_ERR_CNT : Nat := 0x190
abbrev BREW.STATUS : Nat := 0x100
abbrev BREW.STATUS_STATE : Fld := ⟨0x100, 31, 29⟩
abbrev BREW.STATUS_CUR_PARITY : Fld := ⟨0x100, 28, 28⟩
abbrev BREW.STATUS_RETIRE_HELD : Fld := ⟨0x100, 27, 27⟩
abbrev BREW.STATUS_LAST_RESULT : Fld := ⟨0x100, 23, 16⟩
abbrev BREW.STATUS_CUR_BREW : Fld := ⟨0x100, 15, 0⟩
abbrev BREW.NEXT : Nat := 0x104
abbrev BREW.NEXT_NEXT_BREW : Fld := ⟨0x104, 15, 0⟩
abbrev BREW.CTRL : Nat := 0x108
abbrev BREW.CTRL_RETIRE_HOLD : Fld := ⟨0x108, 5, 5⟩
abbrev BREW.CTRL_DISCARD : Fld := ⟨0x108, 4, 4⟩
abbrev BREW.CTRL_COMMIT : Fld := ⟨0x108, 3, 3⟩
abbrev BREW.CTRL_STAGE : Fld := ⟨0x108, 2, 2⟩
abbrev BREW.FIRST_NUM : Nat := 0x10C
abbrev BREW.FIRST_NUM_NUM : Fld := ⟨0x10C, 15, 0⟩
abbrev BREW.IMG_ADDR : Nat := 0x110
abbrev BREW.IMG_LEN : Nat := 0x118
abbrev BREW.POUR_T : Nat := 0x120
abbrev BREW.POUR_EXEC : Nat := 0x128
abbrev BREW.POUR_CFG : Nat := 0x130
abbrev BREW.POUR_CFG_MAX_TE : Fld := ⟨0x130, 31, 0⟩
abbrev BREW.RETIRE_DELAY : Nat := 0x134
abbrev BREW.RETIRE_DELAY_MS : Fld := ⟨0x134, 13, 0⟩
abbrev BREW.INACTIVE_DROP : Nat := 0x138
abbrev LINE.LANE_CFG (i : Nat) : Nat := 0x100 + 4 * i
abbrev LINE.LANE_CFG_RX_INV (i : Nat) : Fld := ⟨0x100 + 4 * i, 2, 2⟩
abbrev LINE.LANE_CFG_TX_INV (i : Nat) : Fld := ⟨0x100 + 4 * i, 1, 1⟩
abbrev LINE.LANE_CFG_PD (i : Nat) : Fld := ⟨0x100 + 4 * i, 0, 0⟩
abbrev LINE.LANE_STAT (i : Nat) : Nat := 0x110 + 4 * i
abbrev LINE.LANE_STAT_SIGNAL (i : Nat) : Fld := ⟨0x110 + 4 * i, 31, 31⟩
abbrev LINE.LANE_STAT_CDR_LOCK (i : Nat) : Fld := ⟨0x110 + 4 * i, 30, 30⟩
abbrev LINE.LANE_STAT_ADAPTING (i : Nat) : Fld := ⟨0x110 + 4 * i, 29, 29⟩
abbrev LINE.LANE_STAT_POWERED (i : Nat) : Fld := ⟨0x110 + 4 * i, 28, 28⟩
abbrev LINE.LANE_STAT_IN_PORT (i : Nat) : Fld := ⟨0x110 + 4 * i, 27, 27⟩
abbrev LINE.LANE_STAT_PORT (i : Nat) : Fld := ⟨0x110 + 4 * i, 20, 16⟩
abbrev LINE.LANE_STAT_MARGIN (i : Nat) : Fld := ⟨0x110 + 4 * i, 7, 0⟩
abbrev LINE.MARGIN_CFG : Nat := 0x120
abbrev LINE.MARGIN_CFG_THRESH : Fld := ⟨0x120, 7, 0⟩
abbrev LINE.PORT_CFG (i : Nat) : Nat := 0x1000 + 1024 * i
abbrev LINE.PORT_CFG_KIND (i : Nat) : Fld := ⟨0x1000 + 1024 * i, 31, 30⟩
abbrev LINE.PORT_CFG_FLEXE (i : Nat) : Fld := ⟨0x1000 + 1024 * i, 29, 29⟩
abbrev LINE.PORT_CFG_AN_EN (i : Nat) : Fld := ⟨0x1000 + 1024 * i, 28, 28⟩
abbrev LINE.PORT_CFG_LT_EN (i : Nat) : Fld := ⟨0x1000 + 1024 * i, 27, 27⟩
abbrev LINE.PORT_CFG_FEC (i : Nat) : Fld := ⟨0x1000 + 1024 * i, 25, 24⟩
abbrev LINE.PORT_CFG_SPEED (i : Nat) : Fld := ⟨0x1000 + 1024 * i, 23, 20⟩
abbrev LINE.PORT_CFG_LANES (i : Nat) : Fld := ⟨0x1000 + 1024 * i, 19, 18⟩
abbrev LINE.PORT_CFG_MAX_FRAME (i : Nat) : Fld := ⟨0x1000 + 1024 * i, 13, 0⟩
abbrev LINE.PORT_STAT (i : Nat) : Nat := 0x1004 + 1024 * i
abbrev LINE.PORT_STAT_STATE (i : Nat) : Fld := ⟨0x1004 + 1024 * i, 31, 29⟩
abbrev LINE.PORT_STAT_OPER (i : Nat) : Fld := ⟨0x1004 + 1024 * i, 28, 28⟩
abbrev LINE.PORT_STAT_LOCAL_FAULT (i : Nat) : Fld := ⟨0x1004 + 1024 * i, 27, 27⟩
abbrev LINE.PORT_STAT_REMOTE_FAULT (i : Nat) : Fld := ⟨0x1004 + 1024 * i, 26, 26⟩
abbrev LINE.PORT_STAT_HOLDING (i : Nat) : Fld := ⟨0x1004 + 1024 * i, 25, 25⟩
abbrev LINE.PORT_STAT_VERIFY (i : Nat) : Fld := ⟨0x1004 + 1024 * i, 24, 22⟩
abbrev LINE.PORT_STAT_RX_PAUSED (i : Nat) : Fld := ⟨0x1004 + 1024 * i, 19, 12⟩
abbrev LINE.PORT_STAT_REFUSE (i : Nat) : Fld := ⟨0x1004 + 1024 * i, 11, 8⟩
abbrev LINE.PORT_CTRL (i : Nat) : Nat := 0x1008 + 1024 * i
abbrev LINE.PORT_CTRL_CNT_CLEAR (i : Nat) : Fld := ⟨0x1008 + 1024 * i, 5, 5⟩
abbrev LINE.PORT_CTRL_RESTART_AN (i : Nat) : Fld := ⟨0x1008 + 1024 * i, 4, 4⟩
abbrev LINE.PORT_CTRL_RECAL (i : Nat) : Fld := ⟨0x1008 + 1024 * i, 3, 3⟩
abbrev LINE.PORT_CTRL_DISCARD (i : Nat) : Fld := ⟨0x1008 + 1024 * i, 2, 2⟩
abbrev LINE.PORT_CTRL_EN (i : Nat) : Fld := ⟨0x1008 + 1024 * i, 0, 0⟩
abbrev LINE.PORT_TIMERS (i : Nat) : Nat := 0x100C + 1024 * i
abbrev LINE.PORT_TIMERS_UP_HOLD (i : Nat) : Fld := ⟨0x100C + 1024 * i, 31, 16⟩
abbrev LINE.PORT_TIMERS_DOWN_HOLD (i : Nat) : Fld := ⟨0x100C + 1024 * i, 15, 0⟩
abbrev LINE.PFC_CFG (i : Nat) : Nat := 0x1010 + 1024 * i
abbrev LINE.PFC_CFG_RX_EN (i : Nat) : Fld := ⟨0x1010 + 1024 * i, 31, 31⟩
abbrev LINE.PFC_CFG_TX_EN (i : Nat) : Fld := ⟨0x1010 + 1024 * i, 30, 30⟩
abbrev LINE.PFC_CFG_RX_CLASSES (i : Nat) : Fld := ⟨0x1010 + 1024 * i, 23, 16⟩
abbrev LINE.PFC_CFG_TX_CLASSES (i : Nat) : Fld := ⟨0x1010 + 1024 * i, 15, 8⟩
abbrev LINE.PFC_TIMING (i : Nat) : Nat := 0x1014 + 1024 * i
abbrev LINE.PFC_TIMING_TX_QUANTA (i : Nat) : Fld := ⟨0x1014 + 1024 * i, 31, 16⟩
abbrev LINE.PFC_TIMING_RX_WD (i : Nat) : Fld := ⟨0x1014 + 1024 * i, 15, 0⟩
abbrev LINE.PREEMPT_CFG (i : Nat) : Nat := 0x1018 + 1024 * i
abbrev LINE.PREEMPT_CFG_EN (i : Nat) : Fld := ⟨0x1018 + 1024 * i, 31, 31⟩
abbrev LINE.PREEMPT_CFG_VERIFY_DIS (i : Nat) : Fld := ⟨0x1018 + 1024 * i, 30, 30⟩
abbrev LINE.PREEMPT_CFG_ADD_FRAG_SIZE (i : Nat) : Fld := ⟨0x1018 + 1024 * i, 29, 28⟩
abbrev LINE.PREEMPT_CFG_VERIFY_TIME (i : Nat) : Fld := ⟨0x1018 + 1024 * i, 23, 16⟩
abbrev LINE.PREEMPT_CFG_PREEMPTABLE (i : Nat) : Fld := ⟨0x1018 + 1024 * i, 7, 0⟩
abbrev LINE.TS_RX_CORR (i : Nat) : Nat := 0x101C + 1024 * i
abbrev LINE.TS_TX_CORR (i : Nat) : Nat := 0x1020 + 1024 * i
abbrev FLEX.REFUSE : Nat := 0x100
abbrev FLEX.REFUSE_GROUP : Fld := ⟨0x100, 10, 8⟩
abbrev FLEX.REFUSE_CODE : Fld := ⟨0x100, 7, 0⟩
abbrev FLEX.GRP_CFG (i : Nat) : Nat := 0x1000 + 256 * i
abbrev FLEX.GRP_CFG_EN (i : Nat) : Fld := ⟨0x1000 + 256 * i, 31, 31⟩
abbrev FLEX.GRP_CFG_EXP_FROM_TX (i : Nat) : Fld := ⟨0x1000 + 256 * i, 30, 30⟩
abbrev FLEX.GRP_CFG_HANDSHAKE (i : Nat) : Fld := ⟨0x1000 + 256 * i, 29, 29⟩
abbrev FLEX.GRP_CFG_GROUP_NUM (i : Nat) : Fld := ⟨0x1000 + 256 * i, 19, 0⟩
abbrev FLEX.GRP_CTRL (i : Nat) : Nat := 0x1004 + 256 * i
abbrev FLEX.GRP_CTRL_REQ (i : Nat) : Fld := ⟨0x1004 + 256 * i, 31, 31⟩
abbrev FLEX.GRP_CTRL_TARGET (i : Nat) : Fld := ⟨0x1004 + 256 * i, 8, 8⟩
abbrev FLEX.GRP_STAT (i : Nat) : Nat := 0x1008 + 256 * i
abbrev FLEX.GRP_STAT_STATE (i : Nat) : Fld := ⟨0x1008 + 256 * i, 31, 30⟩
abbrev FLEX.GRP_STAT_TX_CAL (i : Nat) : Fld := ⟨0x1008 + 256 * i, 29, 29⟩
abbrev FLEX.GRP_STAT_RX_CAL (i : Nat) : Fld := ⟨0x1008 + 256 * i, 28, 28⟩
abbrev FLEX.GRP_STAT_PENDING (i : Nat) : Fld := ⟨0x1008 + 256 * i, 27, 27⟩
abbrev FLEX.GRP_STAT_LAST_SWITCH (i : Nat) : Fld := ⟨0x1008 + 256 * i, 26, 25⟩
abbrev FLEX.GRP_STAT_SKEW (i : Nat) : Fld := ⟨0x1008 + 256 * i, 24, 24⟩
abbrev FLEX.GRP_STAT_MEMBERS_UP (i : Nat) : Fld := ⟨0x1008 + 256 * i, 15, 8⟩
abbrev FLEX.CA_TIMEOUT (i : Nat) : Nat := 0x100C + 256 * i
abbrev FLEX.CA_TIMEOUT_MS (i : Nat) : Fld := ⟨0x100C + 256 * i, 9, 0⟩
abbrev FLEX.MEMBER (i : Nat) (j : Nat) : Nat := 0x1010 + 256 * i + 4 * j
abbrev FLEX.MEMBER_EN (i : Nat) (j : Nat) : Fld := ⟨0x1010 + 256 * i + 4 * j, 31, 31⟩
abbrev FLEX.MEMBER_PORT (i : Nat) (j : Nat) : Fld := ⟨0x1010 + 256 * i + 4 * j, 12, 8⟩
abbrev FLEX.MEMBER_PHY (i : Nat) (j : Nat) : Fld := ⟨0x1010 + 256 * i + 4 * j, 7, 0⟩
abbrev FLEX.MEMBER_STAT (i : Nat) (j : Nat) : Nat := 0x1030 + 256 * i + 4 * j
abbrev FLEX.MEMBER_STAT_LOF (i : Nat) (j : Nat) : Fld := ⟨0x1030 + 256 * i + 4 * j, 31, 31⟩
abbrev FLEX.MEMBER_STAT_LOM (i : Nat) (j : Nat) : Fld := ⟨0x1030 + 256 * i + 4 * j, 30, 30⟩
abbrev FLEX.MEMBER_STAT_GIDM (i : Nat) (j : Nat) : Fld := ⟨0x1030 + 256 * i + 4 * j, 29, 29⟩
abbrev FLEX.MEMBER_STAT_PIDM (i : Nat) (j : Nat) : Fld := ⟨0x1030 + 256 * i + 4 * j, 28, 28⟩
abbrev FLEX.MEMBER_STAT_RPF (i : Nat) (j : Nat) : Fld := ⟨0x1030 + 256 * i + 4 * j, 27, 27⟩
abbrev FLEX.MEMBER_STAT_LOS (i : Nat) (j : Nat) : Fld := ⟨0x1030 + 256 * i + 4 * j, 26, 26⟩
abbrev FLEX.MEMBER_STAT_OH_CRC (i : Nat) (j : Nat) : Fld := ⟨0x1030 + 256 * i + 4 * j, 25, 25⟩
abbrev FLEX.CLIENT_CFG (i : Nat) : Nat := 0x2000 + 8 * i
abbrev FLEX.CLIENT_CFG_EN (i : Nat) : Fld := ⟨0x2000 + 8 * i, 31, 31⟩
abbrev FLEX.CLIENT_CFG_MODE (i : Nat) : Fld := ⟨0x2000 + 8 * i, 30, 30⟩
abbrev FLEX.CLIENT_CFG_GROUP (i : Nat) : Fld := ⟨0x2000 + 8 * i, 26, 24⟩
abbrev FLEX.CLIENT_CFG_PORT (i : Nat) : Fld := ⟨0x2000 + 8 * i, 21, 16⟩
abbrev FLEX.CLIENT_CFG_CLIENT_ID (i : Nat) : Fld := ⟨0x2000 + 8 * i, 15, 0⟩
abbrev FLEX.CLIENT_STAT (i : Nat) : Nat := 0x2004 + 8 * i
abbrev FLEX.CLIENT_STAT_UP (i : Nat) : Fld := ⟨0x2004 + 8 * i, 31, 31⟩
abbrev FLEX.CLIENT_STAT_LABEL_MM (i : Nat) : Fld := ⟨0x2004 + 8 * i, 30, 30⟩
abbrev FLEX.CLIENT_STAT_RX_LF (i : Nat) : Fld := ⟨0x2004 + 8 * i, 29, 29⟩
abbrev FLEX.CLIENT_STAT_SLOTS (i : Nat) : Fld := ⟨0x2004 + 8 * i, 9, 0⟩
abbrev FLEX.TXCAL (i : Nat) : Nat := 0x4000 + 4 * i
abbrev FLEX.TXCAL_ODD (i : Nat) : Fld := ⟨0x4000 + 4 * i, 31, 16⟩
abbrev FLEX.TXCAL_EVEN (i : Nat) : Fld := ⟨0x4000 + 4 * i, 15, 0⟩
abbrev FLEX.EXPCAL (i : Nat) : Nat := 0x9000 + 4 * i
abbrev FLEX.EXPCAL_ODD (i : Nat) : Fld := ⟨0x9000 + 4 * i, 31, 16⟩
abbrev FLEX.EXPCAL_EVEN (i : Nat) : Fld := ⟨0x9000 + 4 * i, 15, 0⟩
abbrev FLEX.LABEL_STAT (i : Nat) (j : Nat) : Nat := 0xE000 + 128 * i + 4 * j
abbrev SLOT.REJ_CNT : Nat := 0x100
abbrev SLOT.GRP_CTRL (i : Nat) : Nat := 0x1000 + 64 * i
abbrev SLOT.GRP_CTRL_SWITCH (i : Nat) : Fld := ⟨0x1000 + 64 * i, 31, 31⟩
abbrev SLOT.GRP_CTRL_COMMIT (i : Nat) : Fld := ⟨0x1000 + 64 * i, 30, 30⟩
abbrev SLOT.GRP_CTRL_FOLLOW_CAL (i : Nat) : Fld := ⟨0x1000 + 64 * i, 29, 29⟩
abbrev SLOT.GRP_CTRL_FB_EN (i : Nat) : Fld := ⟨0x1000 + 64 * i, 28, 28⟩
abbrev SLOT.GRP_CTRL_FB_PEER (i : Nat) : Fld := ⟨0x1000 + 64 * i, 26, 24⟩
abbrev SLOT.GRP_STAT (i : Nat) : Nat := 0x1004 + 64 * i
abbrev SLOT.GRP_STAT_ACTIVE_PAGE (i : Nat) : Fld := ⟨0x1004 + 64 * i, 31, 31⟩
abbrev SLOT.GRP_STAT_ACT_VALID (i : Nat) : Fld := ⟨0x1004 + 64 * i, 30, 30⟩
abbrev SLOT.GRP_STAT_STBY_VALID (i : Nat) : Fld := ⟨0x1004 + 64 * i, 29, 29⟩
abbrev SLOT.GRP_STAT_FB_ACTIVE (i : Nat) : Fld := ⟨0x1004 + 64 * i, 28, 28⟩
abbrev SLOT.GRP_STAT_FB_REASON (i : Nat) : Fld := ⟨0x1004 + 64 * i, 27, 26⟩
abbrev SLOT.GRP_STAT_PAR_ERR (i : Nat) : Fld := ⟨0x1004 + 64 * i, 25, 25⟩
abbrev SLOT.GRP_STAT_SKEW_IDLE (i : Nat) : Fld := ⟨0x1004 + 64 * i, 24, 24⟩
abbrev SLOT.GRP_STAT_COMMIT_RESULT (i : Nat) : Fld := ⟨0x1004 + 64 * i, 23, 16⟩
abbrev SLOT.GRP_STAT_ERR_SLOT (i : Nat) : Fld := ⟨0x1004 + 64 * i, 9, 0⟩
abbrev SLOT.FB_CNT (i : Nat) : Nat := 0x1008 + 64 * i
abbrev SLOT.IDLE_BLK (i : Nat) : Nat := 0x100C + 64 * i
abbrev PM.CFG : Nat := 0x100
abbrev PM.CFG_EN : Fld := ⟨0x100, 31, 31⟩
abbrev PM.CFG_DAY_OFFSET : Fld := ⟨0x100, 16, 0⟩
abbrev PM.LATCH_SEC : Nat := 0x104
abbrev PM.LATCH_FLAGS : Nat := 0x108
abbrev PM.LATCH_FLAGS_SUSPECT : Fld := ⟨0x108, 31, 31⟩
abbrev PM.LATCH_FLAGS_LOCAL_TIME : Fld := ⟨0x108, 30, 30⟩
abbrev PM.LATCH_ACK : Nat := 0x10C
abbrev PM.LATCH_ACK_ACK : Fld := ⟨0x10C, 0, 0⟩
abbrev PM.LATCH_LOST : Nat := 0x110
abbrev PM.REC (i : Nat) : Nat := 0x1000 + 8 * i
abbrev DISP.CFG : Nat := 0x100
abbrev DISP.CFG_EG_THREADS : Fld := ⟨0x100, 23, 16⟩
abbrev DISP.CFG_REORDER_TO : Fld := ⟨0x100, 9, 0⟩
abbrev DISP.STATUS : Nat := 0x104
abbrev DISP.STATUS_FREE_EG : Fld := ⟨0x104, 27, 16⟩
abbrev DISP.STATUS_FREE_IN : Fld := ⟨0x104, 11, 0⟩
abbrev DISP.ENG_MASK_HOST (i : Nat) : Nat := 0x110 + 4 * i
abbrev DISP.ENG_MASK_KEEP (i : Nat) : Nat := 0x130 + 4 * i
abbrev DISP.ENG_RETIRED (i : Nat) : Nat := 0x150 + 4 * i
abbrev DISP.PART_SHARE (i : Nat) : Nat := 0x180 + 4 * i
abbrev DISP.PART_SHARE_QLIM (i : Nat) : Fld := ⟨0x180 + 4 * i, 27, 16⟩
abbrev DISP.PART_SHARE_MAX_THREADS (i : Nat) : Fld := ⟨0x180 + 4 * i, 11, 0⟩
abbrev DISP.DISABLED_DROP : Nat := 0x200
abbrev DISP.FULL_DROP : Nat := 0x204
abbrev DISP.SHARE_DROP : Nat := 0x208
abbrev DISP.NO_ENGINE_DROP : Nat := 0x20C
abbrev DISP.RO_SKIP (i : Nat) : Nat := 0x1000 + 8 * i
abbrev DISP.RO_LATE (i : Nat) : Nat := 0x1004 + 8 * i
abbrev PCLU.STALL_CFG : Nat := 0x100
abbrev PCLU.STALL_CFG_ENG_EN : Fld := ⟨0x100, 31, 31⟩
abbrev PCLU.STALL_CFG_CLU_EN : Fld := ⟨0x100, 30, 30⟩
abbrev PCLU.STALL_CFG_LATE_ABORT : Fld := ⟨0x100, 29, 29⟩
abbrev PCLU.STALL_CFG_ACTION : Fld := ⟨0x100, 28, 28⟩
abbrev PCLU.STALL_CFG_ENG_LIMIT : Fld := ⟨0x100, 15, 0⟩
abbrev PCLU.STALL_STAT : Nat := 0x104
abbrev PCLU.STALL_STAT_SNAP_VALID : Fld := ⟨0x104, 31, 31⟩
abbrev PCLU.STALL_STAT_KIND : Fld := ⟨0x104, 30, 30⟩
abbrev PCLU.STALL_STAT_SUPPRESSED : Fld := ⟨0x104, 29, 29⟩
abbrev PCLU.STALL_STAT_ENGINE : Fld := ⟨0x104, 3, 0⟩
abbrev PCLU.STALL_CNT : Nat := 0x108
abbrev PCLU.ABORT_CNT : Nat := 0x10C
abbrev PCLU.LATE_ABORT_CNT : Nat := 0x110
abbrev PCLU.LEAK_CNT : Nat := 0x114
abbrev PCLU.LEAK_CNT_LOCK_LEAK : Fld := ⟨0x114, 31, 16⟩
abbrev PCLU.LEAK_CNT_MBOX_LEAK : Fld := ⟨0x114, 15, 0⟩
abbrev PCLU.LOCK_ERR_CNT : Nat := 0x118
abbrev PCLU.ENG_BUSY : Nat := 0x11C
abbrev PCLU.ENG_BUSY_BUSY : Fld := ⟨0x11C, 15, 0⟩
abbrev PCLU.SNAP_TIME : Nat := 0x120
abbrev PCLU.PTBL_IDX : Nat := 0x130
abbrev PCLU.PTBL_IDX_BANK : Fld := ⟨0x130, 12, 12⟩
abbrev PCLU.PTBL_IDX_INDEX : Fld := ⟨0x130, 11, 0⟩
abbrev PCLU.PTBL_DATA : Nat := 0x134
abbrev PCLU.SNAP (i : Nat) (j : Nat) : Nat := 0x200 + 16 * i + 4 * j
abbrev PCLU.LOCK (i : Nat) : Nat := 0x1000 + 4 * i
abbrev PCLU.LOCK_HELD (i : Nat) : Fld := ⟨0x1000 + 4 * i, 31, 31⟩
abbrev PCLU.LOCK_WAITERS (i : Nat) : Fld := ⟨0x1000 + 4 * i, 18, 12⟩
abbrev PCLU.LOCK_HOLDER (i : Nat) : Fld := ⟨0x1000 + 4 * i, 10, 0⟩
abbrev PCLU.MBOX (i : Nat) (j : Nat) : Nat := 0x2000 + 64 * i + 8 * j
abbrev PCLU.MBOX_STAT (i : Nat) : Nat := 0x3000 + 4 * i
abbrev PCLU.MBOX_STAT_STATE (i : Nat) : Fld := ⟨0x3000 + 4 * i, 31, 30⟩
abbrev PCLU.MBOX_STAT_TID (i : Nat) : Fld := ⟨0x3000 + 4 * i, 10, 0⟩
abbrev DBG.CFG : Nat := 0x100
abbrev DBG.CFG_HALT_LIMIT : Fld := ⟨0x100, 3, 0⟩
abbrev DBG.SEL : Nat := 0x104
abbrev DBG.SEL_TID : Fld := ⟨0x104, 10, 0⟩
abbrev DBG.CTRL : Nat := 0x108
abbrev DBG.CTRL_CMD : Fld := ⟨0x108, 2, 0⟩
abbrev DBG.STAT : Nat := 0x10C
abbrev DBG.STAT_TSTATE : Fld := ⟨0x10C, 31, 29⟩
abbrev DBG.STAT_HALT_CAUSE : Fld := ⟨0x10C, 28, 26⟩
abbrev DBG.STAT_BP : Fld := ⟨0x10C, 25, 24⟩
abbrev DBG.STAT_BUSY : Fld := ⟨0x10C, 23, 23⟩
abbrev DBG.STAT_REFUSED : Fld := ⟨0x10C, 22, 22⟩
abbrev DBG.STAT_PC : Fld := ⟨0x10C, 11, 0⟩
abbrev DBG.REG_IDX : Nat := 0x110
abbrev DBG.REG_IDX_INDEX : Fld := ⟨0x110, 5, 0⟩
abbrev DBG.REG_DATA (i : Nat) : Nat := 0x114 + 4 * i
abbrev DBG.BP_SEL : Nat := 0x120
abbrev DBG.BP_SEL_ENGINE : Fld := ⟨0x120, 9, 2⟩
abbrev DBG.BP_SEL_BP : Fld := ⟨0x120, 1, 0⟩
abbrev DBG.BP_CFG : Nat := 0x124
abbrev DBG.BP_CFG_EN : Fld := ⟨0x124, 31, 31⟩
abbrev DBG.BP_CFG_PARITY : Fld := ⟨0x124, 30, 29⟩
abbrev DBG.BP_CFG_ANY_THREAD : Fld := ⟨0x124, 28, 28⟩
abbrev DBG.BP_CFG_THREAD : Fld := ⟨0x124, 26, 24⟩
abbrev DBG.BP_CFG_PC : Fld := ⟨0x124, 11, 0⟩
abbrev DBG.HALTED_CNT : Nat := 0x128
abbrev DBG.HALTED_CNT_COUNT : Fld := ⟨0x128, 11, 0⟩
abbrev DBG.BP_SKIP : Nat := 0x12C
abbrev DBG.DETACH_DROP : Nat := 0x130
abbrev STRN.CFG : Nat := 0x100
abbrev STRN.CFG_FAULT_PUNT : Fld := ⟨0x100, 31, 31⟩
abbrev STRN.CFG_FAULT_RING : Fld := ⟨0x100, 30, 28⟩
abbrev STRN.STATUS : Nat := 0x104
abbrev STRN.STATUS_DIR : Fld := ⟨0x104, 31, 31⟩
abbrev STRN.IN_PKTS : Nat := 0x110
abbrev STRN.FWD_PKTS : Nat := 0x118
abbrev STRN.PUNT_PKTS : Nat := 0x120
abbrev STRN.DROP_PKTS : Nat := 0x128
abbrev STRN.FREEZE_CYCLES : Nat := 0x130
abbrev STRN.REPLAYS : Nat := 0x138
abbrev STRN.REPLAY_FAIL : Nat := 0x140
abbrev STRN.IN_FULL_DROP : Nat := 0x148
abbrev STRN.STAGE_HIT (i : Nat) : Nat := 0x200 + 8 * i
abbrev STRN.STAGE_MISS (i : Nat) : Nat := 0x204 + 8 * i
abbrev STRN.DROP_CNT (i : Nat) : Nat := 0x1000 + 4 * i
abbrev STRN.PARSE_DROP_CNT (i : Nat) : Nat := 0x1400 + 4 * i
abbrev STRN.PARSE_FAULT_CNT (i : Nat) : Nat := 0x1800 + 4 * i
abbrev SAMP.COPY_LIMIT : Nat := 0x100
abbrev SAMP.COPY_LOSS : Nat := 0x104
abbrev SAMP.CFG (i : Nat) : Nat := 0x1000 + 16 * i
abbrev SAMP.CFG_EN (i : Nat) : Fld := ⟨0x1000 + 16 * i, 31, 31⟩
abbrev SAMP.CFG_MODE (i : Nat) : Fld := ⟨0x1000 + 16 * i, 30, 30⟩
abbrev SAMP.CFG_ON_DROP (i : Nat) : Fld := ⟨0x1000 + 16 * i, 29, 29⟩
abbrev SAMP.CFG_PART (i : Nat) : Fld := ⟨0x1000 + 16 * i, 12, 8⟩
abbrev SAMP.CFG_RING (i : Nat) : Fld := ⟨0x1000 + 16 * i, 6, 4⟩
abbrev SAMP.CFG_TRUNC (i : Nat) : Fld := ⟨0x1000 + 16 * i, 3, 0⟩
abbrev SAMP.N (i : Nat) : Nat := 0x1004 + 16 * i
abbrev SAMP.N_N (i : Nat) : Fld := ⟨0x1004 + 16 * i, 24, 0⟩
abbrev SAMP.CAND (i : Nat) : Nat := 0x1008 + 16 * i
abbrev SAMP.TAKEN (i : Nat) : Nat := 0x100C + 16 * i
abbrev SAMP.MCFG (i : Nat) : Nat := 0x3000 + 16 * i
abbrev SAMP.MCFG_EN (i : Nat) : Fld := ⟨0x3000 + 16 * i, 31, 31⟩
abbrev SAMP.MCFG_ON_DROP (i : Nat) : Fld := ⟨0x3000 + 16 * i, 30, 30⟩
abbrev SAMP.MCFG_KIND (i : Nat) : Fld := ⟨0x3000 + 16 * i, 29, 28⟩
abbrev SAMP.MCFG_TC (i : Nat) : Fld := ⟨0x3000 + 16 * i, 18, 16⟩
abbrev SAMP.MCFG_DEST (i : Nat) : Fld := ⟨0x3000 + 16 * i, 15, 0⟩
abbrev SAMP.MACCT (i : Nat) : Nat := 0x3004 + 16 * i
abbrev SAMP.MACCT_ACCOUNT (i : Nat) : Fld := ⟨0x3004 + 16 * i, 11, 0⟩
abbrev SAMP.MCOPIES (i : Nat) : Nat := 0x3008 + 16 * i
abbrev TBL.CMD : Nat := 0x100
abbrev TBL.CMD_GO : Fld := ⟨0x100, 31, 31⟩
abbrev TBL.CMD_TABLE : Fld := ⟨0x100, 23, 16⟩
abbrev TBL.CMD_OPCODE : Fld := ⟨0x100, 7, 0⟩
abbrev TBL.CMD_ARG : Nat := 0x104
abbrev TBL.CMD_ARG_MASK : Fld := ⟨0x104, 31, 30⟩
abbrev TBL.CMD_ARG_FLAG : Fld := ⟨0x104, 29, 29⟩
abbrev TBL.CMD_ARG_LEN : Fld := ⟨0x104, 23, 16⟩
abbrev TBL.CMD_ARG_PRIO_PORT : Fld := ⟨0x104, 15, 0⟩
abbrev TBL.CMD_ARG2 : Nat := 0x108
abbrev TBL.CMD_STAT : Nat := 0x10C
abbrev TBL.CMD_STAT_BUSY : Fld := ⟨0x10C, 31, 31⟩
abbrev TBL.CMD_STAT_DONE : Fld := ⟨0x10C, 30, 30⟩
abbrev TBL.CMD_STAT_STATUS : Fld := ⟨0x10C, 23, 16⟩
abbrev TBL.CMD_STAT_HIT : Fld := ⟨0x10C, 5, 5⟩
abbrev TBL.CMD_STAT_AGE : Fld := ⟨0x10C, 4, 3⟩
abbrev TBL.CMD_STAT_STATIC : Fld := ⟨0x10C, 2, 2⟩
abbrev TBL.CMD_STAT_FOUND_MASK : Fld := ⟨0x10C, 1, 0⟩
abbrev TBL.CURSOR : Nat := 0x110
abbrev TBL.TCTRL : Nat := 0x120
abbrev TBL.TCTRL_CREATE : Fld := ⟨0x120, 31, 31⟩
abbrev TBL.TCTRL_DESTROY : Fld := ⟨0x120, 30, 30⟩
abbrev TBL.TCTRL_TABLE : Fld := ⟨0x120, 7, 0⟩
abbrev TBL.TCTRL_STAT : Nat := 0x124
abbrev TBL.TCTRL_STAT_BUSY : Fld := ⟨0x124, 31, 31⟩
abbrev TBL.TCTRL_STAT_STATUS : Fld := ⟨0x124, 7, 0⟩
abbrev TBL.BANK_CFG : Nat := 0x128
abbrev TBL.BANK_CFG_AUTO_ROTATE : Fld := ⟨0x128, 8, 8⟩
abbrev TBL.BANK_CFG_UE_LIMIT : Fld := ⟨0x128, 7, 0⟩
abbrev TBL.SCRUB_CFG : Nat := 0x12C
abbrev TBL.SCRUB_CFG_CMP_SETTLE : Fld := ⟨0x12C, 31, 16⟩
abbrev TBL.SCRUB_CFG_PERIOD : Fld := ⟨0x12C, 11, 0⟩
abbrev TBL.FREE_SEG : Nat := 0x130
abbrev TBL.FREE_SEG_COUNT : Fld := ⟨0x130, 11, 0⟩
abbrev TBL.OVF_FREE : Nat := 0x134
abbrev TBL.OVF_FREE_COUNT : Fld := ⟨0x134, 6, 0⟩
abbrev TBL.CORR_CNT : Nat := 0x140
abbrev TBL.UNCORR_CNT : Nat := 0x144
abbrev TBL.DIVERGE_CNT : Nat := 0x148
abbrev TBL.DISPLACED_CNT : Nat := 0x14C
abbrev TBL.KEY (i : Nat) : Nat := 0x200 + 4 * i
abbrev TBL.MASK (i : Nat) : Nat := 0x240 + 4 * i
abbrev TBL.RES (i : Nat) : Nat := 0x280 + 4 * i
abbrev TBL.BANK_STAT (i : Nat) : Nat := 0x1000 + 4 * i
abbrev TBL.BANK_STAT_STATE (i : Nat) : Fld := ⟨0x1000 + 4 * i, 31, 29⟩
abbrev TBL.BANK_STAT_UE_24H (i : Nat) : Fld := ⟨0x1000 + 4 * i, 23, 16⟩
abbrev TBL.BANK_STAT_SEGS (i : Nat) : Fld := ⟨0x1000 + 4 * i, 5, 0⟩
abbrev TBL.VRF_GRANT (i : Nat) : Nat := 0x1200 + 4 * i
abbrev TBL.VRF_GRANT_BASE (i : Nat) : Fld := ⟨0x1200 + 4 * i, 31, 16⟩
abbrev TBL.VRF_GRANT_COUNT (i : Nat) : Fld := ⟨0x1200 + 4 * i, 15, 0⟩
abbrev TBL.TDEF_CFG (i : Nat) : Nat := 0x4000 + 32 * i
abbrev TBL.TDEF_CFG_VALID (i : Nat) : Fld := ⟨0x4000 + 32 * i, 31, 31⟩
abbrev TBL.TDEF_CFG_PROT (i : Nat) : Fld := ⟨0x4000 + 32 * i, 30, 29⟩
abbrev TBL.TDEF_CFG_POLICY (i : Nat) : Fld := ⟨0x4000 + 32 * i, 28, 27⟩
abbrev TBL.TDEF_CFG_REPLICAS (i : Nat) : Fld := ⟨0x4000 + 32 * i, 26, 25⟩
abbrev TBL.TDEF_CFG_AUTO_REPAIR (i : Nat) : Fld := ⟨0x4000 + 32 * i, 24, 24⟩
abbrev TBL.TDEF_CFG_WIDTH (i : Nat) : Fld := ⟨0x4000 + 32 * i, 23, 21⟩
abbrev TBL.TDEF_CFG_OWNER (i : Nat) : Fld := ⟨0x4000 + 32 * i, 20, 16⟩
abbrev TBL.TDEF_CFG_KEY_LEN (i : Nat) : Fld := ⟨0x4000 + 32 * i, 15, 8⟩
abbrev TBL.TDEF_CFG_DEFAULT_PROFILE (i : Nat) : Fld := ⟨0x4000 + 32 * i, 5, 0⟩
abbrev TBL.TDEF_SIZE (i : Nat) : Nat := 0x4004 + 32 * i
abbrev TBL.TDEF_SIZE_RES_LEN (i : Nat) : Fld := ⟨0x4004 + 32 * i, 31, 24⟩
abbrev TBL.TDEF_SIZE_SIZE (i : Nat) : Fld := ⟨0x4004 + 32 * i, 23, 0⟩
abbrev TBL.TDEF_ATTR (i : Nat) : Nat := 0x4008 + 32 * i
abbrev TBL.TDEF_ATTR_LEARN (i : Nat) : Fld := ⟨0x4008 + 32 * i, 31, 31⟩
abbrev TBL.TDEF_ATTR_AGE (i : Nat) : Fld := ⟨0x4008 + 32 * i, 30, 30⟩
abbrev TBL.TDEF_ATTR_AGE_DELETE (i : Nat) : Fld := ⟨0x4008 + 32 * i, 29, 29⟩
abbrev TBL.TDEF_ATTR_SELECT (i : Nat) : Fld := ⟨0x4008 + 32 * i, 28, 28⟩
abbrev TBL.TDEF_ATTR_DTYPE (i : Nat) : Fld := ⟨0x4008 + 32 * i, 27, 26⟩
abbrev TBL.TDEF_ATTR_LEARN_ALIAS (i : Nat) : Fld := ⟨0x4008 + 32 * i, 25, 20⟩
abbrev TBL.TDEF_ATTR_OVF_UNITS (i : Nat) : Fld := ⟨0x4008 + 32 * i, 19, 13⟩
abbrev TBL.TDEF_ATTR_AGE_LIMIT (i : Nat) : Fld := ⟨0x4008 + 32 * i, 12, 11⟩
abbrev TBL.TDEF_ATTR_PORT_OFF (i : Nat) : Fld := ⟨0x4008 + 32 * i, 10, 0⟩
abbrev TBL.TDEF_SEED (i : Nat) : Nat := 0x400C + 32 * i
abbrev TBL.TDEF_LPM (i : Nat) : Nat := 0x4010 + 32 * i
abbrev TBL.TDEF_LPM_S1 (i : Nat) : Fld := ⟨0x4010 + 32 * i, 31, 27⟩
abbrev TBL.TDEF_LPM_S2 (i : Nat) : Fld := ⟨0x4010 + 32 * i, 26, 22⟩
abbrev TBL.TDEF_LPM_S3 (i : Nat) : Fld := ⟨0x4010 + 32 * i, 21, 17⟩
abbrev TBL.TDEF_CAPACITY (i : Nat) : Nat := 0x4014 + 32 * i
abbrev TBL.TDEF_ENTRIES (i : Nat) : Nat := 0x4018 + 32 * i
abbrev TBL.TDEF_STAT (i : Nat) : Nat := 0x401C + 32 * i
abbrev TBL.TDEF_STAT_DEGRADED (i : Nat) : Fld := ⟨0x401C + 32 * i, 31, 31⟩
abbrev TBL.TDEF_STAT_POISONED (i : Nat) : Fld := ⟨0x401C + 32 * i, 30, 30⟩
abbrev TBL.TDEF_STAT_FLUSH (i : Nat) : Fld := ⟨0x401C + 32 * i, 29, 29⟩
abbrev TBL.AGE_INTERVAL (i : Nat) : Nat := 0x6000 + 4 * i
abbrev TBL.AGE_INTERVAL_S (i : Nat) : Fld := ⟨0x6000 + 4 * i, 15, 0⟩
abbrev TERN.BLOCK (i : Nat) : Nat := 0x100 + 4 * i
abbrev TERN.BLOCK_EN (i : Nat) : Fld := ⟨0x100 + 4 * i, 31, 31⟩
abbrev TERN.BLOCK_WIDE (i : Nat) : Fld := ⟨0x100 + 4 * i, 30, 30⟩
abbrev TERN.BLOCK_TABLE (i : Nat) : Fld := ⟨0x100 + 4 * i, 7, 0⟩
abbrev TERN.CORR_CNT : Nat := 0x200
abbrev TERN.UNCORR_CNT : Nat := 0x204
abbrev LEARN.CFG : Nat := 0x100
abbrev LEARN.CFG_EN : Fld := ⟨0x100, 31, 31⟩
abbrev LEARN.CFG_FLUSH : Fld := ⟨0x100, 30, 30⟩
abbrev LEARN.CFG_WINDOW : Fld := ⟨0x100, 19, 0⟩
abbrev LEARN.STAT : Nat := 0x104
abbrev LEARN.STAT_CONTESTED : Fld := ⟨0x104, 29, 16⟩
abbrev LEARN.STAT_USED : Fld := ⟨0x104, 13, 0⟩
abbrev LEARN.NOTIFY_CNT : Nat := 0x110
abbrev LEARN.SUPPRESS_CNT : Nat := 0x114
abbrev LEARN.RING_DROP : Nat := 0x118
abbrev LEARN.BYPASS_CNT : Nat := 0x11C
abbrev LEARN.STATIC_MOVE : Nat := 0x120
abbrev LEARN.PORT_MAP (i : Nat) : Nat := 0x1000 + 4 * i
abbrev LEARN.PORT_MAP_SPORT (i : Nat) : Fld := ⟨0x1000 + 4 * i, 15, 0⟩
abbrev CADDY.POOL_CFG (i : Nat) : Nat := 0x100 + 16 * i
abbrev CADDY.POOL_CFG_SPILL_UP (i : Nat) : Fld := ⟨0x100 + 16 * i, 31, 31⟩
abbrev CADDY.POOL_TOTAL (i : Nat) : Nat := 0x104 + 16 * i
abbrev CADDY.POOL_FREE (i : Nat) : Nat := 0x108 + 16 * i
abbrev CADDY.POOL_RSV (i : Nat) : Nat := 0x10C + 16 * i
abbrev CADDY.REGION_CMD : Nat := 0x150
abbrev CADDY.REGION_CMD_GO : Fld := ⟨0x150, 31, 31⟩
abbrev CADDY.REGION_CMD_OP : Fld := ⟨0x150, 30, 28⟩
abbrev CADDY.REGION_CMD_CLASS : Fld := ⟨0x150, 27, 25⟩
abbrev CADDY.REGION_CMD_FIRST : Fld := ⟨0x150, 14, 0⟩
abbrev CADDY.REGION_CNT : Nat := 0x154
abbrev CADDY.REGION_CNT_COUNT : Fld := ⟨0x154, 14, 0⟩
abbrev CADDY.REGION_STAT : Nat := 0x158
abbrev CADDY.REGION_STAT_BUSY : Fld := ⟨0x158, 31, 31⟩
abbrev CADDY.REGION_STAT_DONE : Fld := ⟨0x158, 30, 30⟩
abbrev CADDY.REGION_STAT_RESULT : Fld := ⟨0x158, 23, 16⟩
abbrev CADDY.REGION_STAT_DRAINING : Fld := ⟨0x158, 14, 0⟩
abbrev CADDY.REGION_RD_IDX : Nat := 0x15C
abbrev CADDY.REGION_RD_IDX_REGION : Fld := ⟨0x15C, 14, 0⟩
abbrev CADDY.REGION_RD : Nat := 0x160
abbrev CADDY.REGION_RD_STATE : Fld := ⟨0x160, 31, 29⟩
abbrev CADDY.REGION_RD_CLASS : Fld := ⟨0x160, 28, 26⟩
abbrev CADDY.REGION_RD_NEXT_CLASS : Fld := ⟨0x160, 25, 23⟩
abbrev CADDY.REGION_RD_USED : Fld := ⟨0x160, 13, 0⟩
abbrev CADDY.ACCT_SEL : Nat := 0x170
abbrev CADDY.ACCT_SEL_POOL : Fld := ⟨0x170, 18, 16⟩
abbrev CADDY.ACCT_SEL_ACCOUNT : Fld := ⟨0x170, 11, 0⟩
abbrev CADDY.ACCT_CFG : Nat := 0x174
abbrev CADDY.ACCT_CFG_STATE : Fld := ⟨0x174, 31, 30⟩
abbrev CADDY.ACCT_CFG_OPEN : Fld := ⟨0x174, 29, 29⟩
abbrev CADDY.ACCT_CFG_CLOSE : Fld := ⟨0x174, 28, 28⟩
abbrev CADDY.ACCT_CFG_PART : Fld := ⟨0x174, 20, 16⟩
abbrev CADDY.ACCT_POOL : Nat := 0x178
abbrev CADDY.ACCT_POOL_ALPHA : Fld := ⟨0x178, 31, 28⟩
abbrev CADDY.ACCT_POOL_RESERVE : Fld := ⟨0x178, 27, 0⟩
abbrev CADDY.ACCT_USE : Nat := 0x17C
abbrev CADDY.ACCT_PEAK : Nat := 0x180
abbrev CADDY.FREE_HANDLE : Nat := 0x190
abbrev CADDY.FREE_CMD : Nat := 0x194
abbrev CADDY.FREE_CMD_GO : Fld := ⟨0x194, 31, 31⟩
abbrev CADDY.FREE_CMD_ACCOUNT : Fld := ⟨0x194, 11, 0⟩
abbrev CADDY.FREE_STAT : Nat := 0x198
abbrev CADDY.FREE_STAT_BUSY : Fld := ⟨0x198, 31, 31⟩
abbrev CADDY.FREE_STAT_DONE : Fld := ⟨0x198, 30, 30⟩
abbrev CADDY.FREE_STAT_RESULT : Fld := ⟨0x198, 7, 0⟩
abbrev CADDY.REFUSE : Nat := 0x1A0
abbrev CADDY.REFUSE_CODE : Fld := ⟨0x1A0, 7, 0⟩
abbrev CADDY.POOL_EMPTY_DROP : Nat := 0x200
abbrev CADDY.ACCT_LIMIT_DROP : Nat := 0x204
abbrev CADDY.DISABLED_DROP : Nat := 0x208
abbrev CADDY.SPILL_CNT : Nat := 0x20C
abbrev CADDY.DOUBLE_FREE : Nat := 0x210
abbrev CADDY.FOREIGN_FREE : Nat := 0x214
abbrev CADDY.HDR_ERR : Nat := 0x218
abbrev CADDY.ORPHAN_CNT : Nat := 0x21C
abbrev CADDY.PURGE_DROP : Nat := 0x220
abbrev CADDY.KREGION_CMD : Nat := 0x300
abbrev CADDY.KREGION_CMD_GO : Fld := ⟨0x300, 31, 31⟩
abbrev CADDY.KREGION_CMD_OP : Fld := ⟨0x300, 30, 28⟩
abbrev CADDY.KREGION_CMD_CLASS : Fld := ⟨0x300, 27, 25⟩
abbrev CADDY.KREGION_CMD_FIRST : Fld := ⟨0x300, 14, 0⟩
abbrev CADDY.KREGION_CNT : Nat := 0x304
abbrev CADDY.KREGION_CNT_COUNT : Fld := ⟨0x304, 14, 0⟩
abbrev CADDY.KREGION_STAT : Nat := 0x308
abbrev CADDY.KREGION_STAT_BUSY : Fld := ⟨0x308, 31, 31⟩
abbrev CADDY.KREGION_STAT_DONE : Fld := ⟨0x308, 30, 30⟩
abbrev CADDY.KREGION_STAT_RESULT : Fld := ⟨0x308, 23, 16⟩
abbrev CADDY.KREGION_STAT_DRAINING : Fld := ⟨0x308, 14, 0⟩
abbrev VOQ.PLACE_CFG : Nat := 0x100
abbrev VOQ.PLACE_CFG_DEPTH : Fld := ⟨0x100, 31, 16⟩
abbrev VOQ.PLACE_CFG_AGE : Fld := ⟨0x100, 15, 0⟩
abbrev VOQ.MC_ACCOUNT : Nat := 0x104
abbrev VOQ.MC_ACCOUNT_ACCOUNT : Fld := ⟨0x104, 11, 0⟩
abbrev VOQ.Q_SEL : Nat := 0x110
abbrev VOQ.Q_SEL_EGQ : Fld := ⟨0x110, 20, 20⟩
abbrev VOQ.Q_SEL_MCQ : Fld := ⟨0x110, 19, 19⟩
abbrev VOQ.Q_SEL_QUEUE : Fld := ⟨0x110, 18, 0⟩
abbrev VOQ.Q_BYTES : Nat := 0x114
abbrev VOQ.Q_PKTS : Nat := 0x11C
abbrev VOQ.Q_STAT : Nat := 0x120
abbrev VOQ.Q_STAT_HBM_MODE : Fld := ⟨0x120, 31, 31⟩
abbrev VOQ.Q_STAT_HEAD_AGE : Fld := ⟨0x120, 23, 0⟩
abbrev VOQ.FLUSH_CMD : Nat := 0x130
abbrev VOQ.FLUSH_CMD_GO : Fld := ⟨0x130, 31, 31⟩
abbrev VOQ.FLUSH_CMD_OP : Fld := ⟨0x130, 30, 29⟩
abbrev VOQ.FLUSH_ARG0 : Nat := 0x134
abbrev VOQ.FLUSH_ARG0_VOQ : Fld := ⟨0x134, 18, 0⟩
abbrev VOQ.FLUSH_ARG1 : Nat := 0x138
abbrev VOQ.FLUSH_ARG1_COUNT : Fld := ⟨0x138, 19, 0⟩
abbrev VOQ.FLUSH_STAT : Nat := 0x13C
abbrev VOQ.FLUSH_STAT_BUSY : Fld := ⟨0x13C, 31, 31⟩
abbrev VOQ.FLUSH_STAT_DONE : Fld := ⟨0x13C, 30, 30⟩
abbrev VOQ.MC_SEL : Nat := 0x140
abbrev VOQ.MC_SEL_GROUP : Fld := ⟨0x140, 15, 0⟩
abbrev VOQ.MC_CFG : Nat := 0x144
abbrev VOQ.MC_CFG_VALID : Fld := ⟨0x144, 31, 31⟩
abbrev VOQ.MC_CFG_COUNT_M1 : Fld := ⟨0x144, 25, 18⟩
abbrev VOQ.MC_CFG_BASE : Fld := ⟨0x144, 17, 0⟩
abbrev VOQ.MEM_IDX : Nat := 0x148
abbrev VOQ.MEM_IDX_ENTRY : Fld := ⟨0x148, 17, 0⟩
abbrev VOQ.MEM_DATA : Nat := 0x14C
abbrev VOQ.MEM_DATA_VALID : Fld := ⟨0x14C, 31, 31⟩
abbrev VOQ.MEM_DATA_PORT : Fld := ⟨0x14C, 5, 0⟩
abbrev VOQ.FLUSH_CNT : Nat := 0x200
abbrev VOQ.MC_COPIES : Nat := 0x204
abbrev VOQ.MC_REFUSE (i : Nat) : Nat := 0x1000 + 4 * i
abbrev ADM.PORT_CFG (i : Nat) : Nat := 0x100 + 4 * i
abbrev ADM.PORT_CFG_LOSSLESS_CORE (i : Nat) : Fld := ⟨0x100 + 4 * i, 31, 31⟩
abbrev ADM.PORT_CFG_EG_ACCOUNT (i : Nat) : Fld := ⟨0x100 + 4 * i, 11, 0⟩
abbrev ADM.HOLD_CFG (i : Nat) : Nat := 0x200 + 4 * i
abbrev ADM.HOLD_CFG_AGE_MS (i : Nat) : Fld := ⟨0x200 + 4 * i, 31, 22⟩
abbrev ADM.HOLD_CFG_HOLD_MS (i : Nat) : Fld := ⟨0x200 + 4 * i, 21, 12⟩
abbrev ADM.HOLD_CFG_HOLD_CAP (i : Nat) : Fld := ⟨0x200 + 4 * i, 11, 0⟩
abbrev ADM.HOLD_STAT (i : Nat) : Nat := 0x300 + 4 * i
abbrev ADM.HOLD_STAT_STATE (i : Nat) : Fld := ⟨0x300 + 4 * i, 31, 30⟩
abbrev ADM.HOLD_STAT_MS (i : Nat) : Fld := ⟨0x300 + 4 * i, 19, 0⟩
abbrev ADM.XOFF_STAT (i : Nat) : Nat := 0x400 + 4 * i
abbrev ADM.XOFF_STAT_EGRESS (i : Nat) : Fld := ⟨0x400 + 4 * i, 15, 8⟩
abbrev ADM.XOFF_STAT_INGRESS (i : Nat) : Fld := ⟨0x400 + 4 * i, 7, 0⟩
abbrev ADM.WRED_DROP_G : Nat := 0x500
abbrev ADM.WRED_DROP_Y : Nat := 0x504
abbrev ADM.WRED_DROP_R : Nat := 0x508
abbrev ADM.TAIL_DROP : Nat := 0x50C
abbrev ADM.DISABLED_DROP : Nat := 0x510
abbrev ADM.PC_CFG (i : Nat) : Nat := 0x1000 + 4 * i
abbrev ADM.PC_CFG_HOLD (i : Nat) : Fld := ⟨0x1000 + 4 * i, 31, 31⟩
abbrev ADM.PC_CFG_PROFILE (i : Nat) : Fld := ⟨0x1000 + 4 * i, 29, 24⟩
abbrev ADM.WRED0 (i : Nat) : Nat := 0x2000 + 32 * i
abbrev ADM.WRED0_MAX_P (i : Nat) : Fld := ⟨0x2000 + 32 * i, 31, 24⟩
abbrev ADM.WRED0_MIN (i : Nat) : Fld := ⟨0x2000 + 32 * i, 23, 0⟩
abbrev ADM.WRED1 (i : Nat) : Nat := 0x2004 + 32 * i
abbrev ADM.WRED1_MAX (i : Nat) : Fld := ⟨0x2004 + 32 * i, 23, 0⟩
abbrev ADM.WRED2 (i : Nat) : Nat := 0x2008 + 32 * i
abbrev ADM.WRED2_MAX_P (i : Nat) : Fld := ⟨0x2008 + 32 * i, 31, 24⟩
abbrev ADM.WRED2_MIN (i : Nat) : Fld := ⟨0x2008 + 32 * i, 23, 0⟩
abbrev ADM.WRED3 (i : Nat) : Nat := 0x200C + 32 * i
abbrev ADM.WRED3_MAX (i : Nat) : Fld := ⟨0x200C + 32 * i, 23, 0⟩
abbrev ADM.WRED4 (i : Nat) : Nat := 0x2010 + 32 * i
abbrev ADM.WRED4_MAX_P (i : Nat) : Fld := ⟨0x2010 + 32 * i, 31, 24⟩
abbrev ADM.WRED4_MIN (i : Nat) : Fld := ⟨0x2010 + 32 * i, 23, 0⟩
abbrev ADM.WRED5 (i : Nat) : Nat := 0x2014 + 32 * i
abbrev ADM.WRED5_MAX (i : Nat) : Fld := ⟨0x2014 + 32 * i, 23, 0⟩
abbrev ADM.WRED6 (i : Nat) : Nat := 0x2018 + 32 * i
abbrev ADM.WRED6_EN (i : Nat) : Fld := ⟨0x2018 + 32 * i, 31, 31⟩
abbrev ADM.WRED6_WEIGHT (i : Nat) : Fld := ⟨0x2018 + 32 * i, 27, 24⟩
abbrev ADM.WRED6_TAIL (i : Nat) : Fld := ⟨0x2018 + 32 * i, 23, 0⟩
abbrev ADM.PC_HOLD (i : Nat) : Nat := 0x2800 + 4 * i
abbrev ADM.PC_HOLD_XOFF (i : Nat) : Fld := ⟨0x2800 + 4 * i, 29, 20⟩
abbrev ADM.PC_HOLD_XON (i : Nat) : Fld := ⟨0x2800 + 4 * i, 19, 10⟩
abbrev ADM.PC_HOLD_HEADROOM (i : Nat) : Fld := ⟨0x2800 + 4 * i, 9, 0⟩
abbrev ADM.PORT_DOWN_DISC (i : Nat) : Nat := 0x3800 + 16 * i
abbrev ADM.AGE_DISC (i : Nat) : Nat := 0x3804 + 16 * i
abbrev ADM.HOLD_CAP_DROP (i : Nat) : Nat := 0x3808 + 16 * i
abbrev ADM.HEADROOM_DROP (i : Nat) : Nat := 0x380C + 16 * i
abbrev SCHED.NODE_SEL : Nat := 0x100
abbrev SCHED.NODE_SEL_NODE : Fld := ⟨0x100, 16, 0⟩
abbrev SCHED.NODE_CMD : Nat := 0x104
abbrev SCHED.NODE_CMD_GO : Fld := ⟨0x104, 31, 31⟩
abbrev SCHED.NODE_STAT : Nat := 0x108
abbrev SCHED.NODE_STAT_BUSY : Fld := ⟨0x108, 31, 31⟩
abbrev SCHED.NODE_STAT_DONE : Fld := ⟨0x108, 30, 30⟩
abbrev SCHED.NODE_STAT_RESULT : Fld := ⟨0x108, 23, 16⟩
abbrev SCHED.NODE_W (i : Nat) : Nat := 0x110 + 4 * i
abbrev SCHED.NODE_W7 : Nat := 0x12C
abbrev SCHED.NO_QUEUE_DROP : Nat := 0x180
abbrev SCHED.RESET_DISC : Nat := 0x184
abbrev SCHED.PORT_CFG (i : Nat) : Nat := 0x400 + 4 * i
abbrev SCHED.PORT_CFG_SHAPE_ADJ (i : Nat) : Fld := ⟨0x400 + 4 * i, 7, 0⟩
abbrev SCHED.EQ_MAP (i : Nat) : Nat := 0x1000 + 4 * i
abbrev SCHED.EQ_MAP_VALID (i : Nat) : Fld := ⟨0x1000 + 4 * i, 31, 31⟩
abbrev SCHED.EQ_MAP_SEL (i : Nat) : Fld := ⟨0x1000 + 4 * i, 30, 29⟩
abbrev SCHED.EQ_MAP_SPAN (i : Nat) : Fld := ⟨0x1000 + 4 * i, 21, 17⟩
abbrev SCHED.EQ_MAP_QUEUE (i : Nat) : Fld := ⟨0x1000 + 4 * i, 16, 0⟩
abbrev SPOUT.CFG : Nat := 0x100
abbrev SPOUT.CFG_EG_ALLOW : Fld := ⟨0x100, 9, 0⟩
abbrev SPOUT.REFUSE : Nat := 0x104
abbrev SPOUT.REFUSE_CODE : Fld := ⟨0x104, 7, 0⟩
abbrev SPOUT.REJ_CNT : Nat := 0x108
abbrev SPOUT.LIST_SEL : Nat := 0x110
abbrev SPOUT.LIST_SEL_LIST : Fld := ⟨0x110, 7, 0⟩
abbrev SPOUT.ADM_BASE : Nat := 0x114
abbrev SPOUT.ADM_CYCLE : Nat := 0x11C
abbrev SPOUT.ADM_EXT : Nat := 0x120
abbrev SPOUT.ADM_LEN : Nat := 0x124
abbrev SPOUT.ADM_LEN_LEN : Fld := ⟨0x124, 10, 0⟩
abbrev SPOUT.LIST_CFG : Nat := 0x128
abbrev SPOUT.LIST_CFG_EN : Fld := ⟨0x128, 31, 31⟩
abbrev SPOUT.LIST_CFG_FREE_INIT : Fld := ⟨0x128, 30, 30⟩
abbrev SPOUT.GATE_INIT : Nat := 0x12C
abbrev SPOUT.LIST_STAT : Nat := 0x130
abbrev SPOUT.LIST_STAT_RUNNING : Fld := ⟨0x130, 31, 31⟩
abbrev SPOUT.LIST_STAT_PENDING : Fld := ⟨0x130, 30, 30⟩
abbrev SPOUT.LIST_STAT_OPER_BANK : Fld := ⟨0x130, 29, 29⟩
abbrev SPOUT.LIST_STAT_LAST_SWAP : Fld := ⟨0x130, 28, 27⟩
abbrev SPOUT.LIST_STAT_ECC_FALLBACK : Fld := ⟨0x130, 26, 26⟩
abbrev SPOUT.LIST_STAT_ACT_ENTRY : Fld := ⟨0x130, 9, 0⟩
abbrev SPOUT.OPER_BASE : Nat := 0x134
abbrev SPOUT.OPER_CYCLE : Nat := 0x13C
abbrev SPOUT.PEND_START : Nat := 0x140
abbrev SPOUT.ENT_IDX : Nat := 0x150
abbrev SPOUT.ENT_IDX_OPER : Fld := ⟨0x150, 31, 31⟩
abbrev SPOUT.ENT_IDX_ENTRY : Fld := ⟨0x150, 9, 0⟩
abbrev SPOUT.ENT_MASK : Nat := 0x154
abbrev SPOUT.ENT_DUR : Nat := 0x158
abbrev SPOUT.ENT_DUR_DURATION : Fld := ⟨0x158, 29, 0⟩
abbrev SPOUT.PORT_CFG (i : Nat) : Nat := 0x1000 + 16 * i
abbrev SPOUT.PORT_CFG_EDIT_ALLOW (i : Nat) : Fld := ⟨0x1000 + 16 * i, 31, 24⟩
abbrev SPOUT.PORT_CFG_EXIT_ADJ (i : Nat) : Fld := ⟨0x1000 + 16 * i, 15, 0⟩
abbrev SPOUT.PORT_EXIT (i : Nat) : Nat := 0x1004 + 16 * i
abbrev SPOUT.PORT_EXIT_PS (i : Nat) : Fld := ⟨0x1004 + 16 * i, 23, 0⟩
abbrev SPOUT.LATE_LAUNCH (i : Nat) : Nat := 0x1008 + 16 * i
abbrev SPOUT.OVERSIZE_DROP (i : Nat) : Nat := 0x100C + 16 * i
abbrev FAB.CFG : Nat := 0x100
abbrev FAB.CFG_MESH : Fld := ⟨0x100, 31, 31⟩
abbrev FAB.CFG_CTX_FULL_TC : Fld := ⟨0x100, 30, 23⟩
abbrev FAB.CFG_CHAN_ID : Fld := ⟨0x100, 11, 0⟩
abbrev FAB.REASM_CFG : Nat := 0x104
abbrev FAB.REASM_CFG_REASM_TO : Fld := ⟨0x104, 9, 0⟩
abbrev FAB.CRED_CFG : Nat := 0x108
abbrev FAB.CRED_CFG_OVERSPEED : Fld := ⟨0x108, 31, 26⟩
abbrev FAB.CRED_CFG_CRED_MAX : Fld := ⟨0x108, 25, 22⟩
abbrev FAB.CRED_CFG_REFRESH : Fld := ⟨0x108, 9, 0⟩
abbrev FAB.CRED_STOP : Nat := 0x10C
abbrev FAB.CRED_STOP_KIB : Fld := ⟨0x10C, 15, 0⟩
abbrev FAB.LINK_CFG : Nat := 0x110
abbrev FAB.LINK_CFG_LINK_PERIOD : Fld := ⟨0x110, 6, 0⟩
abbrev FAB.MC_SHAPE : Nat := 0x114
abbrev FAB.MESH_PEER (i : Nat) : Nat := 0x120 + 4 * i
abbrev FAB.MESH_PEER_VALID (i : Nat) : Fld := ⟨0x120 + 4 * i, 31, 31⟩
abbrev FAB.MESH_PEER_CHAN (i : Nat) : Fld := ⟨0x120 + 4 * i, 11, 0⟩
abbrev FAB.MESH_STAT : Nat := 0x140
abbrev FAB.SPORT_IDX : Nat := 0x150
abbrev FAB.SPORT_IDX_SPORT : Fld := ⟨0x150, 15, 0⟩
abbrev FAB.SPORT_DATA : Nat := 0x154
abbrev FAB.SPORT_DATA_VALID : Fld := ⟨0x154, 31, 31⟩
abbrev FAB.SPORT_DATA_PORT : Fld := ⟨0x154, 17, 12⟩
abbrev FAB.SPORT_DATA_CHAN : Fld := ⟨0x154, 11, 0⟩
abbrev FAB.MC_IDX : Nat := 0x158
abbrev FAB.MC_IDX_GROUP : Fld := ⟨0x158, 15, 0⟩
abbrev FAB.MC_DATA : Nat := 0x15C
abbrev FAB.MC_DATA_PEERS : Fld := ⟨0x15C, 7, 0⟩
abbrev FAB.REACH_IDX : Nat := 0x160
abbrev FAB.REACH_IDX_CHAN : Fld := ⟨0x160, 11, 0⟩
abbrev FAB.REACH : Nat := 0x164
abbrev FAB.HDR_CRC : Nat := 0x180
abbrev FAB.PCRC_ERR : Nat := 0x184
abbrev FAB.PROTO_ERR : Nat := 0x188
abbrev FAB.MISROUTE : Nat := 0x18C
abbrev FAB.CTX_MISMATCH : Nat := 0x190
abbrev FAB.REASM_TIMEOUT : Nat := 0x194
abbrev FAB.LATE_CELL : Nat := 0x198
abbrev FAB.REORDER_FULL : Nat := 0x19C
abbrev FAB.RESYNC : Nat := 0x1A0
abbrev FAB.LINK_LOSS : Nat := 0x1A4
abbrev FAB.CRED_WASTE : Nat := 0x1A8
abbrev FAB.REQ_OVF : Nat := 0x1AC
abbrev FAB.LANE_CFG (i : Nat) : Nat := 0x200 + 4 * i
abbrev FAB.LANE_CFG_EN (i : Nat) : Fld := ⟨0x200 + 4 * i, 31, 31⟩
abbrev FAB.LANE_CFG_SPEED (i : Nat) : Fld := ⟨0x200 + 4 * i, 30, 29⟩
abbrev FAB.LANE_CFG_SPARE (i : Nat) : Fld := ⟨0x200 + 4 * i, 28, 28⟩
abbrev FAB.LANE_CFG_PD (i : Nat) : Fld := ⟨0x200 + 4 * i, 27, 27⟩
abbrev FAB.LANE_CFG_PEER_CHAN (i : Nat) : Fld := ⟨0x200 + 4 * i, 11, 0⟩
abbrev FAB.LANE_STAT (i : Nat) : Nat := 0x300 + 4 * i
abbrev FAB.LANE_STAT_STATE (i : Nat) : Fld := ⟨0x300 + 4 * i, 31, 29⟩
abbrev FAB.LANE_STAT_PEER_SEEN (i : Nat) : Fld := ⟨0x300 + 4 * i, 19, 8⟩
abbrev FAB.LANE_STAT_MARGIN (i : Nat) : Fld := ⟨0x300 + 4 * i, 7, 0⟩
abbrev HBMC.STATUS : Nat := 0x100
abbrev HBMC.STATUS_STATE : Fld := ⟨0x100, 31, 29⟩
abbrev HBMC.STATUS_RFM_SUP : Fld := ⟨0x100, 28, 28⟩
abbrev HBMC.STATUS_TEMP_HIGH : Fld := ⟨0x100, 27, 27⟩
abbrev HBMC.STATUS_GRP_FAILED : Fld := ⟨0x100, 11, 8⟩
abbrev HBMC.STATUS_TEMP : Fld := ⟨0x100, 7, 0⟩
abbrev HBMC.ROWD_CFG : Nat := 0x104
abbrev HBMC.ROWD_CFG_NREF_EN : Fld := ⟨0x104, 31, 31⟩
abbrev HBMC.ROWD_CFG_RANGE2 : Fld := ⟨0x104, 30, 30⟩
abbrev HBMC.ROWD_CFG_RFM_EN : Fld := ⟨0x104, 29, 29⟩
abbrev HBMC.ROWD_CFG_K : Fld := ⟨0x104, 4, 0⟩
abbrev HBMC.RETRAIN_CFG : Nat := 0x108
abbrev HBMC.RETRAIN_CFG_TEMP_DELTA : Fld := ⟨0x108, 31, 24⟩
abbrev HBMC.RETRAIN_CFG_MARGIN_MIN : Fld := ⟨0x108, 23, 16⟩
abbrev HBMC.RETRAIN_CFG_FAST_INTERVAL : Fld := ⟨0x108, 15, 0⟩
abbrev HBMC.REPAIR_CFG : Nat := 0x10C
abbrev HBMC.REPAIR_CFG_HPPR_EN : Fld := ⟨0x10C, 8, 8⟩
abbrev HBMC.REPAIR_CFG_ROW_CE_LIMIT : Fld := ⟨0x10C, 7, 0⟩
abbrev HBMC.GRP_STAT (i : Nat) : Nat := 0x110 + 4 * i
abbrev HBMC.GRP_STAT_STATE (i : Nat) : Fld := ⟨0x110 + 4 * i, 31, 29⟩
abbrev HBMC.GRP_STAT_LAST_RESULT (i : Nat) : Fld := ⟨0x110 + 4 * i, 28, 27⟩
abbrev HBMC.GRP_STAT_DRAIN_SLOW (i : Nat) : Fld := ⟨0x110 + 4 * i, 26, 26⟩
abbrev HBMC.GRP_STAT_BUSY_REGIONS (i : Nat) : Fld := ⟨0x110 + 4 * i, 11, 0⟩
abbrev HBMC.PC_STAT (i : Nat) : Nat := 0x120 + 4 * i
abbrev HBMC.PC_STAT_STATE (i : Nat) : Fld := ⟨0x120 + 4 * i, 31, 29⟩
abbrev HBMC.PC_STAT_MARGIN (i : Nat) : Fld := ⟨0x120 + 4 * i, 23, 16⟩
abbrev HBMC.PC_STAT_TRAIN_TEMP (i : Nat) : Fld := ⟨0x120 + 4 * i, 15, 8⟩
abbrev HBMC.PC_STAT_PPR_AVAIL (i : Nat) : Fld := ⟨0x120 + 4 * i, 7, 0⟩
abbrev HBMC.CORR_CNT : Nat := 0x200
abbrev HBMC.UNCORR_CNT : Nat := 0x204
abbrev HBMC.STACK_CORR_CNT : Nat := 0x208
abbrev HBMC.STACK_UNCORR_CNT : Nat := 0x20C
abbrev HBMC.POISON_TX : Nat := 0x210
abbrev HBMC.FAST_CNT : Nat := 0x214
abbrev HBMC.FAST_ABORT : Nat := 0x218
abbrev HBMC.SPPR_CNT : Nat := 0x21C
abbrev HBMC.HPPR_CNT : Nat := 0x220
abbrev HBMC.RFM_CNT : Nat := 0x224
abbrev HBMC.NREF : Nat := 0x228
abbrev HBMC.KTRAIN_CMD : Nat := 0x300
abbrev HBMC.KTRAIN_CMD_GO : Fld := ⟨0x300, 31, 31⟩
abbrev HBMC.KTRAIN_CMD_OP : Fld := ⟨0x300, 30, 28⟩
abbrev HBMC.KTRAIN_CMD_GROUP : Fld := ⟨0x300, 5, 5⟩
abbrev HBMC.KTRAIN_CMD_PC : Fld := ⟨0x300, 4, 0⟩
abbrev HBMC.KTRAIN_ARG : Nat := 0x304
abbrev HBMC.KTRAIN_STAT : Nat := 0x308
abbrev HBMC.KTRAIN_STAT_BUSY : Fld := ⟨0x308, 31, 31⟩
abbrev HBMC.KTRAIN_STAT_DONE : Fld := ⟨0x308, 30, 30⟩
abbrev HBMC.KTRAIN_STAT_RESULT : Fld := ⟨0x308, 23, 16⟩
abbrev HBMC.KTRAIN_STAT_ERRORS : Fld := ⟨0x308, 15, 0⟩
abbrev HOST.MSIX_CFG : Nat := 0x120
abbrev HOST.MSIX_CFG_VF_VECS : Fld := ⟨0x120, 4, 0⟩
abbrev HOST.FUNC_CFG : Nat := 0x124
abbrev HOST.FUNC_CFG_VF_BAR0 : Fld := ⟨0x124, 0, 0⟩
abbrev HOST.LINK_STAT : Nat := 0x128
abbrev HOST.LINK_STAT_SPEED : Fld := ⟨0x128, 31, 28⟩
abbrev HOST.LINK_STAT_WIDTH : Fld := ⟨0x128, 21, 16⟩
abbrev HOST.LINK_STAT_FLIT : Fld := ⟨0x128, 15, 15⟩
abbrev HOST.FLR_CNT : Nat := 0x12C
abbrev PART.SEL : Nat := 0x100
abbrev PART.SEL_PART : Fld := ⟨0x100, 4, 0⟩
abbrev PART.CMD : Nat := 0x104
abbrev PART.CMD_GO : Fld := ⟨0x104, 31, 31⟩
abbrev PART.CMD_OP : Fld := ⟨0x104, 30, 28⟩
abbrev PART.CMD_PART : Fld := ⟨0x104, 4, 0⟩
abbrev PART.CMD_STAT : Nat := 0x108
abbrev PART.CMD_STAT_BUSY : Fld := ⟨0x108, 31, 31⟩
abbrev PART.CMD_STAT_DONE : Fld := ⟨0x108, 30, 30⟩
abbrev PART.CMD_STAT_RESULT : Fld := ⟨0x108, 23, 16⟩
abbrev PART.STAT : Nat := 0x10C
abbrev PART.STAT_STATE : Fld := ⟨0x10C, 31, 30⟩
abbrev PART.STAT_STEP : Fld := ⟨0x10C, 29, 27⟩
abbrev PART.STAT_FAIL_STEP : Fld := ⟨0x10C, 26, 24⟩
abbrev PART.QCFG : Nat := 0x110
abbrev PART.QCFG_FLUSH : Fld := ⟨0x110, 31, 31⟩
abbrev PART.QCFG_DRAIN_TO : Fld := ⟨0x110, 27, 16⟩
abbrev PART.QCFG_CMD_TO : Fld := ⟨0x110, 15, 8⟩
abbrev PART.QCFG_PUNT_TO : Fld := ⟨0x110, 7, 0⟩
abbrev PART.QR_FIRST : Nat := 0x114
abbrev PART.QR_FIRST_NODE : Fld := ⟨0x114, 16, 0⟩
abbrev PART.QR_COUNT : Nat := 0x118
abbrev PART.QR_COUNT_COUNT : Fld := ⟨0x118, 17, 0⟩
abbrev PART.IDENT (i : Nat) : Nat := 0x120 + 4 * i
abbrev PART.IDENT_VALID (i : Nat) : Fld := ⟨0x120 + 4 * i, 31, 31⟩
abbrev PART.IDENT_PASID_EN (i : Nat) : Fld := ⟨0x120 + 4 * i, 30, 30⟩
abbrev PART.IDENT_FUNC (i : Nat) : Fld := ⟨0x120 + 4 * i, 26, 20⟩
abbrev PART.IDENT_PASID (i : Nat) : Fld := ⟨0x120 + 4 * i, 19, 0⟩
abbrev PART.REFUSE : Nat := 0x140
abbrev PART.REFUSE_CODE : Fld := ⟨0x140, 7, 0⟩
abbrev PART.RING_SEL : Nat := 0x180
abbrev PART.RING_SEL_PART : Fld := ⟨0x180, 12, 8⟩
abbrev PART.RING_SEL_RING : Fld := ⟨0x180, 4, 0⟩
abbrev PART.RING_BASE : Nat := 0x184
abbrev PART.RING_BASE_LO : Fld := ⟨0x184, 31, 12⟩
abbrev PART.RING_CFG : Nat := 0x18C
abbrev PART.RING_CFG_EN : Fld := ⟨0x18C, 31, 31⟩
abbrev PART.RING_CFG_LOG2_SIZE : Fld := ⟨0x18C, 28, 24⟩
abbrev PART.RING_CFG_IDENT : Fld := ⟨0x18C, 23, 22⟩
abbrev PART.RING_CFG_VECTOR : Fld := ⟨0x18C, 21, 11⟩
abbrev PART.RING_AUX : Nat := 0x190
abbrev PART.RING_AUX_VAL : Fld := ⟨0x190, 13, 0⟩
abbrev PART.RING_STAT : Nat := 0x194
abbrev PART.RING_STAT_EN : Fld := ⟨0x194, 31, 31⟩
abbrev PART.RING_STAT_STOPPED : Fld := ⟨0x194, 30, 30⟩
abbrev PART.RING_STAT_ERROR : Fld := ⟨0x194, 29, 29⟩
abbrev PART.RING_STAT_ERR_CODE : Fld := ⟨0x194, 7, 0⟩
abbrev PART.PORT_OWN (i : Nat) : Nat := 0x1000 + 4 * i
abbrev PART.PORT_OWN_PART (i : Nat) : Fld := ⟨0x1000 + 4 * i, 4, 0⟩
abbrev TEST.SEL : Nat := 0x100
abbrev TEST.SEL_KIND : Fld := ⟨0x100, 31, 28⟩
abbrev TEST.SEL_INDEX : Fld := ⟨0x100, 15, 0⟩
abbrev TEST.CFG : Nat := 0x104
abbrev TEST.CFG_WAIT : Fld := ⟨0x104, 31, 31⟩
abbrev TEST.CFG_LOOPBACK : Fld := ⟨0x104, 30, 29⟩
abbrev TEST.CFG_GEN_EN : Fld := ⟨0x104, 28, 28⟩
abbrev TEST.CFG_CHK_EN : Fld := ⟨0x104, 27, 27⟩
abbrev TEST.CFG_INVERT : Fld := ⟨0x104, 26, 26⟩
abbrev TEST.CFG_PATTERN : Fld := ⟨0x104, 19, 16⟩
abbrev TEST.CFG_DURATION : Fld := ⟨0x104, 15, 0⟩
abbrev TEST.CTRL : Nat := 0x108
abbrev TEST.CTRL_INJECT : Fld := ⟨0x108, 3, 3⟩
abbrev TEST.CTRL_CLEAR : Fld := ⟨0x108, 2, 2⟩
abbrev TEST.CTRL_STOP : Fld := ⟨0x108, 1, 1⟩
abbrev TEST.CTRL_START : Fld := ⟨0x108, 0, 0⟩
abbrev TEST.STAT : Nat := 0x10C
abbrev TEST.STAT_STATE : Fld := ⟨0x10C, 31, 29⟩
abbrev TEST.STAT_LOCK : Fld := ⟨0x10C, 28, 28⟩
abbrev TEST.STAT_REFUSE : Fld := ⟨0x10C, 23, 16⟩
abbrev TEST.STAT_FAIL_LINES : Fld := ⟨0x10C, 15, 0⟩
abbrev TEST.BITS : Nat := 0x110
abbrev TEST.ERR : Nat := 0x118
abbrev TEST.LOCK_LOSS : Nat := 0x120
abbrev TEST.USER : Nat := 0x124
abbrev TEST.BIST_STAT : Nat := 0x130
abbrev TEST.BIST_STAT_DONE : Fld := ⟨0x130, 31, 31⟩
abbrev TEST.BIST_STAT_PASS : Fld := ⟨0x130, 30, 30⟩
abbrev TEST.BIST_STAT_ARRAY : Fld := ⟨0x130, 15, 0⟩
abbrev TEST.DUMP_HANDLE : Nat := 0x140
abbrev TEST.DUMP_CTRL : Nat := 0x144
abbrev TEST.DUMP_CTRL_GO : Fld := ⟨0x144, 31, 31⟩
abbrev TEST.DUMP_CTRL_OFFSET : Fld := ⟨0x144, 13, 0⟩
abbrev TEST.DUMP_STAT : Nat := 0x148
abbrev TEST.DUMP_STAT_BUSY : Fld := ⟨0x148, 31, 31⟩
abbrev TEST.DUMP_STAT_DONE : Fld := ⟨0x148, 30, 30⟩
abbrev TEST.DUMP_STAT_RESULT : Fld := ⟨0x148, 7, 0⟩
abbrev TEST.DUMP_DATA (i : Nat) : Nat := 0x180 + 4 * i
abbrev BRDG.CFG : Nat := 0x100
abbrev BRDG.CFG_LANE_ERR_LIMIT : Fld := ⟨0x100, 7, 0⟩
abbrev BRDG.CAP : Nat := 0x104
abbrev BRDG.CAP_GBPS : Fld := ⟨0x104, 14, 0⟩
abbrev BRDG.SAUCER : Nat := 0x108
abbrev BRDG.SAUCER_LANES : Fld := ⟨0x108, 3, 0⟩
abbrev BRDG.TX_DROP : Nat := 0x10C
abbrev BRDG.REPAIR_CNT : Nat := 0x110
abbrev BRDG.MOD_STAT (i : Nat) : Nat := 0x120 + 4 * i
abbrev BRDG.MOD_STAT_STATE (i : Nat) : Fld := ⟨0x120 + 4 * i, 31, 30⟩
abbrev BRDG.MOD_STAT_HALF_HI (i : Nat) : Fld := ⟨0x120 + 4 * i, 29, 29⟩
abbrev BRDG.MOD_STAT_FREE_TX (i : Nat) : Fld := ⟨0x120 + 4 * i, 7, 4⟩
abbrev BRDG.MOD_STAT_FREE_RX (i : Nat) : Fld := ⟨0x120 + 4 * i, 3, 0⟩
abbrev SENS.TEMP (i : Nat) : Nat := 0x100 + 4 * i
abbrev SENS.TEMP_VALID (i : Nat) : Fld := ⟨0x100 + 4 * i, 31, 31⟩
abbrev SENS.TEMP_VAL (i : Nat) : Fld := ⟨0x100 + 4 * i, 15, 0⟩
abbrev SENS.TEMP_MAX : Nat := 0x160
abbrev SENS.TEMP_MAX_VALID : Fld := ⟨0x160, 31, 31⟩
abbrev SENS.TEMP_MAX_SENSOR : Fld := ⟨0x160, 20, 16⟩
abbrev SENS.TEMP_MAX_VAL : Fld := ⟨0x160, 15, 0⟩
abbrev SENS.THRESH : Nat := 0x164
abbrev SENS.THRESH_WARN : Fld := ⟨0x164, 23, 16⟩
abbrev SENS.THRESH_CRIT : Fld := ⟨0x164, 15, 8⟩
abbrev SENS.THRESH_SHUT : Fld := ⟨0x164, 7, 0⟩
abbrev SENS.VOLT (i : Nat) : Nat := 0x180 + 4 * i
abbrev SENS.VOLT_VALID (i : Nat) : Fld := ⟨0x180 + 4 * i, 31, 31⟩
abbrev SENS.VOLT_LOW (i : Nat) : Fld := ⟨0x180 + 4 * i, 30, 30⟩
abbrev SENS.VOLT_HIGH (i : Nat) : Fld := ⟨0x180 + 4 * i, 29, 29⟩
abbrev SENS.VOLT_MV (i : Nat) : Fld := ⟨0x180 + 4 * i, 15, 0⟩
abbrev PWRH.STRAP : Nat := 0x100
abbrev PWRH.STRAP_CH_AUTO : Fld := ⟨0x100, 3, 3⟩
abbrev PWRH.STRAP_SMB_ADDR : Fld := ⟨0x100, 2, 1⟩
abbrev PWRH.STRAP_KEEPER_PREF : Fld := ⟨0x100, 0, 0⟩
abbrev PWRH.IN_CFG : Nat := 0x104
abbrev PWRH.IN_CFG_UV_WARN : Fld := ⟨0x104, 31, 24⟩
abbrev PWRH.IN_CFG_OV_WARN : Fld := ⟨0x104, 23, 16⟩
abbrev PWRH.IN_CFG_P_WARN : Fld := ⟨0x104, 15, 0⟩
abbrev PWRH.IN_STAT : Nat := 0x108
abbrev PWRH.IN_STAT_UV_WARN : Fld := ⟨0x108, 31, 31⟩
abbrev PWRH.IN_STAT_OV_WARN : Fld := ⟨0x108, 30, 30⟩
abbrev PWRH.IN_STAT_P_WARN : Fld := ⟨0x108, 29, 29⟩
abbrev PWRH.IN_STAT_LAST_FAULT : Fld := ⟨0x108, 2, 0⟩
abbrev PWRH.CH_CTRL (i : Nat) : Nat := 0x110 + 4 * i
abbrev PWRH.CH_CTRL_RESET (i : Nat) : Fld := ⟨0x110 + 4 * i, 31, 31⟩
abbrev PWRH.CH_CTRL_PD (i : Nat) : Fld := ⟨0x110 + 4 * i, 30, 30⟩
abbrev PWRH.CH_STAT (i : Nat) : Nat := 0x120 + 4 * i
abbrev PWRH.CH_STAT_STATE (i : Nat) : Fld := ⟨0x120 + 4 * i, 31, 29⟩
abbrev PWRH.CH_STAT_PIN_RST (i : Nat) : Fld := ⟨0x120 + 4 * i, 28, 28⟩
abbrev PWRH.CH_STAT_ALERT (i : Nat) : Fld := ⟨0x120 + 4 * i, 27, 27⟩
abbrev PWRH.CH_STAT_CAUSE (i : Nat) : Fld := ⟨0x120 + 4 * i, 26, 24⟩
abbrev PWRH.CH_STAT_TIME (i : Nat) : Fld := ⟨0x120 + 4 * i, 19, 0⟩
abbrev PWRH.JTAG_STAT : Nat := 0x130
abbrev PWRH.JTAG_STAT_UNLOCKED : Fld := ⟨0x130, 31, 31⟩
abbrev PWRH.JTAG_STAT_BLOCKED : Fld := ⟨0x130, 30, 30⟩
abbrev PWRH.JTAG_STAT_UNLOCKS : Fld := ⟨0x130, 7, 0⟩
abbrev PWRH.JTAG_CTRL : Nat := 0x134
abbrev PWRH.JTAG_CTRL_UNLOCK_DIS : Fld := ⟨0x134, 1, 1⟩
abbrev PWRH.JTAG_CTRL_LOCK : Fld := ⟨0x134, 0, 0⟩
abbrev PWR.DIE_POWER : Nat := 0x100
abbrev PWR.DIE_POWER_VAL : Fld := ⟨0x100, 15, 0⟩
abbrev PWR.DIE_ENERGY : Nat := 0x104
abbrev PWR.LANES_PD : Nat := 0x10C
abbrev PWR.LANES_PD_COUNT : Fld := ⟨0x10C, 5, 0⟩
abbrev PWR.OSC_NOM : Nat := 0x110
abbrev PWR.OSC_NOM_KHZ : Fld := ⟨0x110, 16, 0⟩
abbrev PWR.OSC_THERM : Nat := 0x114
abbrev PWR.OSC_THERM_VALID : Fld := ⟨0x114, 31, 31⟩
abbrev PWR.OSC_THERM_VAL : Fld := ⟨0x114, 15, 0⟩
abbrev LINE.RX_OK_FRAMES (i : Nat) : Nat := 0x1100 + 1024 * i
abbrev LINE.TX_FRAMES (i : Nat) : Nat := 0x1150 + 1024 * i
abbrev LINE.RX_OK_BYTES (i : Nat) : Nat := 0x1108 + 1024 * i
abbrev LINE.TX_BYTES (i : Nat) : Nat := 0x1158 + 1024 * i
abbrev LINE.RX_FCS_ERR (i : Nat) : Nat := 0x1110 + 1024 * i
abbrev LINE.TX_PFC (i : Nat) : Nat := 0x1160 + 1024 * i
abbrev LINE.RX_UNDERSIZE (i : Nat) : Nat := 0x1118 + 1024 * i
abbrev LINE.TX_DOWN_DROP (i : Nat) : Nat := 0x1168 + 1024 * i
abbrev LINE.RX_OVERSIZE (i : Nat) : Nat := 0x1120 + 1024 * i
abbrev LINE.FEC_CORR_CW (i : Nat) : Nat := 0x1170 + 1024 * i
abbrev LINE.RX_DISABLED (i : Nat) : Nat := 0x1128 + 1024 * i
abbrev LINE.FEC_UNCORR_CW (i : Nat) : Nat := 0x1178 + 1024 * i
abbrev LINE.RX_QUIESCE (i : Nat) : Nat := 0x1130 + 1024 * i
abbrev LINE.FEC_CORR_SYM (i : Nat) : Nat := 0x1180 + 1024 * i
abbrev LINE.RX_FRAG_ERR (i : Nat) : Nat := 0x1138 + 1024 * i
abbrev LINE.LINK_DOWN_CNT (i : Nat) : Nat := 0x1188 + 1024 * i
abbrev LINE.RX_PFC (i : Nat) : Nat := 0x1140 + 1024 * i
abbrev LINE.TX_INS_DROP (i : Nat) : Nat := 0x1190 + 1024 * i
abbrev LINE.RX_PAUSE_IGN (i : Nat) : Nat := 0x1148 + 1024 * i
abbrev SLOT.CONN (i : Nat) : Nat := 0x4000 + 4 * i
abbrev SLOT.CONN_TYPE (i : Nat) : Fld := ⟨0x4000 + 4 * i, 31, 30⟩
abbrev SLOT.CONN_SRC_GROUP (i : Nat) : Fld := ⟨0x4000 + 4 * i, 26, 24⟩
abbrev SLOT.CONN_SRC_SLOT (i : Nat) : Fld := ⟨0x4000 + 4 * i, 9, 0⟩
abbrev HOST.REJ_FIRST : Nat := 0x110
abbrev HOST.REJ_FIRST_VALID : Fld := ⟨0x110, 31, 31⟩
abbrev HOST.REJ_FIRST_KIND : Fld := ⟨0x110, 30, 29⟩
abbrev HOST.REJ_FIRST_IS_READ : Fld := ⟨0x110, 28, 28⟩
abbrev HOST.REJ_FIRST_FUNC : Fld := ⟨0x110, 27, 21⟩
abbrev HOST.REJ_FIRST_ADDR : Fld := ⟨0x110, 20, 0⟩
abbrev HOST.REJ_FIRST_HI : Nat := 0x114
abbrev HOST.REJ_FIRST_HI_ADDR_HI : Fld := ⟨0x114, 5, 0⟩
abbrev RELAY.BLOCK0 (c : Nat) : Nat := 0xF0 + 16 * c
abbrev SENS.PKG (i : Nat) : Nat := 0x200 + 4 * i
abbrev TBL.KCMD : Nat := 0x500
abbrev TBL.KCMD_GO : Fld := ⟨0x500, 31, 31⟩
abbrev TBL.KCMD_TABLE : Fld := ⟨0x500, 23, 16⟩
abbrev TBL.KCMD_OPCODE : Fld := ⟨0x500, 7, 0⟩
abbrev TBL.KCMD_ARG : Nat := 0x504
abbrev TBL.KCMD_ARG_MASK : Fld := ⟨0x504, 31, 30⟩
abbrev TBL.KCMD_ARG_FLAG : Fld := ⟨0x504, 29, 29⟩
abbrev TBL.KCMD_ARG_LEN : Fld := ⟨0x504, 23, 16⟩
abbrev TBL.KCMD_ARG_PRIO_PORT : Fld := ⟨0x504, 15, 0⟩
abbrev TBL.KCMD_ARG2 : Nat := 0x508
abbrev TBL.KCMD_STAT : Nat := 0x50C
abbrev TBL.KCMD_STAT_BUSY : Fld := ⟨0x50C, 31, 31⟩
abbrev TBL.KCMD_STAT_DONE : Fld := ⟨0x50C, 30, 30⟩
abbrev TBL.KCMD_STAT_STATUS : Fld := ⟨0x50C, 23, 16⟩
abbrev TBL.KCMD_STAT_HIT : Fld := ⟨0x50C, 5, 5⟩
abbrev TBL.KCMD_STAT_AGE : Fld := ⟨0x50C, 4, 3⟩
abbrev TBL.KCMD_STAT_STATIC : Fld := ⟨0x50C, 2, 2⟩
abbrev TBL.KCMD_STAT_FOUND_MASK : Fld := ⟨0x50C, 1, 0⟩
abbrev TBL.KCURSOR : Nat := 0x510
abbrev TBL.KTCTRL : Nat := 0x520
abbrev TBL.KTCTRL_CREATE : Fld := ⟨0x520, 31, 31⟩
abbrev TBL.KTCTRL_DESTROY : Fld := ⟨0x520, 30, 30⟩
abbrev TBL.KTCTRL_TABLE : Fld := ⟨0x520, 7, 0⟩
abbrev TBL.KTCTRL_STAT : Nat := 0x524
abbrev TBL.KTCTRL_STAT_BUSY : Fld := ⟨0x524, 31, 31⟩
abbrev TBL.KTCTRL_STAT_STATUS : Fld := ⟨0x524, 7, 0⟩
abbrev TBL.KBANK_CFG : Nat := 0x528
abbrev TBL.KBANK_CFG_AUTO_ROTATE : Fld := ⟨0x528, 8, 8⟩
abbrev TBL.KBANK_CFG_UE_LIMIT : Fld := ⟨0x528, 7, 0⟩
abbrev TBL.KSCRUB_CFG : Nat := 0x52C
abbrev TBL.KSCRUB_CFG_CMP_SETTLE : Fld := ⟨0x52C, 31, 16⟩
abbrev TBL.KSCRUB_CFG_PERIOD : Fld := ⟨0x52C, 11, 0⟩
abbrev TBL.KFREE_SEG : Nat := 0x530
abbrev TBL.KFREE_SEG_COUNT : Fld := ⟨0x530, 11, 0⟩
abbrev TBL.KOVF_FREE : Nat := 0x534
abbrev TBL.KOVF_FREE_COUNT : Fld := ⟨0x534, 6, 0⟩
abbrev TBL.KCORR_CNT : Nat := 0x540
abbrev TBL.KUNCORR_CNT : Nat := 0x544
abbrev TBL.KDIVERGE_CNT : Nat := 0x548
abbrev TBL.KDISPLACED_CNT : Nat := 0x54C
abbrev TBL.KKEY (i : Nat) : Nat := 0x600 + 4 * i
abbrev TBL.KMASK (i : Nat) : Nat := 0x640 + 4 * i
abbrev TBL.KRES (i : Nat) : Nat := 0x680 + 4 * i

end Sys2Proof.Machine
end

