-- ==== Sys2Proof/Machine/Types.lean ====
section
/-! DEFINITION. The working state of the blocks that the spec gives them beside their registers: keepers and the journal,
PCIe functions, and what the block puts out. -/

namespace Sys2Proof.Machine

/-- What raises an MSI-X message: the page at a host island page number, a page of a channel (its window offset), or a ring. -/
inductive MsiSrc where
  | isl (page : Nat)
  | page (c : Nat) (key : Nat)
  | ring (c p r : Nat)
deriving DecidableEq, Repr

/-- What the block puts out (log 7): the newest stands first in `State.out`. -/
inductive Out where
  /-- data returned for a register read -/
  | read (addr : Nat) (v : Nat)
  /-- a PCIe request completed with Unsupported Request (R43) -/
  | unsupported (addr : Nat)
  /-- an MSI-X message: function and table entry (R66, R536) -/
  | msix (func entry : Nat)
  /-- a page's interrupt line rose with the host among its destinations; delivered by the package -/
  | irqPage (key : Nat)
  /-- a ring of a partition raises its vector; delivered by the package -/
  | irqRing (p r : Nat)
  /-- the block writes bytes to host memory -/
  | dma (what : Nat) (args : List Nat) (bytes : List Byte)
  /-- an output pin changes or pulses -/
  | pin (what : Nat) (args : List Nat)
  /-- bits leave on a lane, a port, or a serial wire -/
  | wire (what : Nat) (args : List Nat) (bytes : List Byte)
  /-- the channel becomes CHANNEL_FATAL with the CAUSE of PWR.CH_STAT (R588); acted on by the package -/
  | fatal (cause : Nat)
  /-- what the end of the present command has to know of a page (log 44): 0 a FAULT cause was set, 1 a DEGRADED cause, 2 the error
  capture took an error, 3 an event of the page was journalled, 4 a write was rejected -/
  | note (what : Nat) (key : Nat)
deriving DecidableEq, Repr

/-- The per-requester latch of R45 and R46: a latched read value, or a staged low word, of the 64-bit value at `addr`. -/
structure Latch where
  /-- 0 empty, 1 a read value, 2 a staged low word -/
  kind : Nat := 0
  addr : Nat := 0
  val : Nat := 0
deriving DecidableEq, Repr

/-- MSI-X and reset state of one PCIe function (R66, R535). -/
structure Fn where
  /-- MSI-X Enable -/
  en : Bool := false
  /-- function mask -/
  fmask : Bool := false
  /-- vector mask bits -/
  vmask : Nat := 0
deriving DecidableEq, Repr

/-- The journal image of a keeper's replicated region (R121–R126). -/
structure Jrnl where
  entries : Tab (BitVec 256) := []
  wr : Nat := 0
  count : Nat := 0
  seq : Nat := 0
  full : Bool := false
  frozen : Bool := false
  drop : Nat := 0
  /-- entries dropped while frozen (R124 UNFROZEN) -/
  frozenDrop : Nat := 0
  streamIdx : Nat := 0
  /-- entries held and not yet streamed (R129) -/
  unsent : Nat := 0
  lost : Nat := 0
  /-- entries written in the present cycle (R125) -/
  cyc : Nat := 0
  /-- entries dropped in the present cycle (R125) -/
  cycDrop : Nat := 0
deriving DecidableEq, Repr

/-- An event journalled once per second with its count: the page's key, CLASS, EVENT, the second of COSY.LOCAL, the events in it, and the
detail, `base + mult × n`. -/
structure SecEvt where
  page : Nat := 0
  cls : Nat := 0
  ev : Nat := 0
  base : Nat := 0
  mult : Nat := 0
  sec : Nat := 0
  n : Nat := 0
  /-- the entry is written only where more events than this fell in the second (R366) -/
  lim : Nat := 0
deriving DecidableEq, Repr

/-- The firmware image header fields a keeper keeps (R101, R106). -/
structure FwImage where
  ver : Nat := 0
  svn : Nat := 0
  fmt : Nat := 0
  minFmt : Nat := 0
deriving DecidableEq, Repr

/-- Working state of one keeper beside its KEEP page. -/
structure Keeper where
  /-- its SRAM has an array that BIST could not repair (R572) -/
  sramBad : Bool := false
  /-- the code region holds a verified image (R108) -/
  verified : Bool := false
  img : FwImage := {}
  /-- the code region of its SRAM: the code as loaded (R79, R106) -/
  code : List Byte := []
  /-- the image header in the private region (R79, R101) -/
  header : List Byte := []
  /-- the STATE the keeper was halted in (R93) -/
  haltFrom : Nat := 0
  /-- an uncorrectable SRAM error met the halted keeper: it enters REPAIR at its resume (R92, R93) -/
  ue : Bool := false
  /-- its firmware has run in the present cycle, and may have written its heartbeat (R85) -/
  ran : Bool := false
  /-- instants (ns of COSY.LOCAL) of the entries into REPAIR within 3,600 s (R103) -/
  repairs : List Nat := []
  /-- consecutive boundaries with the partner at 0x00 since BOOT or REPAIR finished (R104) -/
  absent : Nat := 0
  /-- BOOT or REPAIR finished: the keeper waits for a resync (R104) -/
  waiting : Bool := false
  /-- it starts without a resync (R104) -/
  solo : Bool := false
  /-- chunks of the resync received so far (R102) -/
  chunks : Nat := 0
  /-- a resync runs while the keeper stays STANDBY (R99) -/
  resync : Bool := false
  /-- cycles since the end of BOOT (R112 GET_INFO) -/
  cycles : Nat := 0
  /-- tag and opcode of the service command under way (R111) -/
  svcTag : Nat := 0
  svcOp : Nat := 0
  /-- a HANDOVER has been accepted and the claim drop is due (R110) -/
  handover : Bool := false
  /-- state format the replicated region was written under (R621) -/
  regionFmt : Nat := 0
  /-- the keeper's 64-bit read latch and staged low word (R45, R46) -/
  latch : Latch := {}
deriving DecidableEq, Repr

/-- Dataset and state of one PTP port (R171). -/
structure PtpPort where
  cfg : Nat := 0
  intervals : Nat := 0
  asym : Nat := 0
  localPrio : Nat := 0
  /-- IEEE 1588 portState -/
  state : Nat := 0
  delay : Nat := 0xFFFFFFFF
  offset : Nat := 0x80000000
  /-- the same offset in units of 125 ps -/
  fine : Int := 0
  parentValid : Bool := false
  parentClass : Nat := 0
  /-- Sync and Delay_Req exchanges completed since SLAVE was entered or PTP was disqualified (R136) -/
  exch : Nat := 0
  /-- COSY.LOCAL of the last completed exchange -/
  lastExch : Nat := 0
deriving DecidableEq, Repr

/-- A unicast PTP peer (R171). -/
structure Peer where
  port : Nat := 64
  ipv6 : Bool := false
  addr : Nat := 0
  prio : Nat := 0
deriving DecidableEq, Repr

/-- A PM bin (R254). -/
structure PmBin where
  es : Nat := 0
  ses : Nat := 0
  uas : Nat := 0
  err : Nat := 0
  elapsed : Nat := 0
  defect : Nat := 0
  start : Nat := 0
  suspect : Bool := false
  /-- fewer seconds than its length when it closed -/
  incomplete : Bool := false
deriving DecidableEq, Repr

/-- A provisional second: was it ES, SES; its errors; and how many 15-minute and 24-hour bins have closed since (R253). -/
structure PmSec where
  es : Bool
  ses : Bool
  /-- its SEC -/
  sec : Nat := 0
  age15 : Nat := 0
  age24 : Nat := 0
deriving DecidableEq, Repr

/-- The PM state of one entity. -/
structure PmEnt where
  cur15 : PmBin := {}
  hist15 : List PmBin := []
  cur24 : PmBin := {}
  hist24 : List PmBin := []
  unavail : Bool := false
  /-- the run of seconds that would change UNAVAILABLE, newest first -/
  run : List PmSec := []
deriving DecidableEq, Repr

/-- A row of a stack's repair log (R521, R522): PC of the stack, row, and COSY.LOCAL seconds of its corrected words. -/
structure RepairRow where
  pc : Nat
  row : Nat
  soft : Bool := false
  hard : Bool := false
  uncorr : Bool := false
  ces : List Nat := []
deriving DecidableEq, Repr

/-- The control state the active keeper keeps beside the journal, for the Cosy tasks (R79, R141–R159). -/
structure KCtl where
  clockId : Nat := 0
  dsWord : Nat := 0
  slaveOnly : Bool := false
  props : Nat := 0
  ports : Tab PtpPort := []
  peers : Tab Peer := []
  model : OscModel := {}
  /-- last measured offset of a time source, 32-bit two's complement, plus one; 0 for none measured (R136) -/
  lastOff : Tab Nat := []
  /-- consecutive seconds the selected source's offset exceeded UNLOCK_THRESH (R136) -/
  overCnt : Nat := 0
  /-- the time source selected last since the last entry into FREE (R145, R148) -/
  tsrc : Nat := 0
  /-- CLK_SRC as the keeper last found it (R131) -/
  clkSeen : Bool := false
  /-- FREQ_ADJ over the last seconds of LOCKED, 1,000 at most and the newest first, each with the CLK_SRC it was taken under (R154, R155) -/
  freqs : List (Bool × Int) := []
  /-- seconds a recovered clock has been good: REC0, REC1 (R136) -/
  recGood0 : Nat := 0
  recGood1 : Nat := 0
  ql0 : Nat := 0
  ql1 : Nat := 0
  /-- the second of network time of the last once-per-second work, plus one -/
  lastSec : Nat := 0
  /-- ESMC and announce state that the ports send: the clockClass of R145 -/
  clockClass : Nat := 248
  /-- repair logs by stack; the DEVICE_ID of a loaded log, plus one (R521, R522) -/
  rlog : Tab (List RepairRow) := []
  rlogDev : Tab Nat := []
  /-- PM bins by entity 0–167 (R254) -/
  pm : Tab PmEnt := []
deriving DecidableEq, Repr

/-- A keeper's replicated region: all control state, the journal included (R79). -/
structure Region where
  jrnl : Jrnl := {}
  ctl : KCtl := {}
  /-- the KW registers of `kwState` as the state that was copied holds them (R94) -/
  kw : List Word := []
deriving DecidableEq, Repr

/-- The open buffer of a ring toward the host (R542, R545). -/
structure OpenBuf where
  addr : Nat
  len : Nat
  used : Nat := 0
  records : Nat := 0
  time : Nat := 0
  trunc : Bool := false
  /-- COSY.LOCAL when the first record was placed -/
  since : Nat := 0
deriving DecidableEq, Repr

/-- A ring of a partition (R538–R543, R559–R564). -/
structure Ring where
  base : Nat := 0
  cfg : Word := 0
  aux : Nat := 0
  head : Nat := 0
  tail : Nat := 0
  /-- STOPPED by quiesce -/
  stopped : Bool := false
  error : Bool := false
  errCode : Nat := 0
  drop : Nat := 0
  arm : Bool := false
  /-- a qualifying completion has occurred since the last message (R543) -/
  done : Bool := false
  buf : Option OpenBuf := none
  /-- records were dropped since the last write-back: the next carries LOST_BEFORE -/
  lost : Bool := false
  /-- COSY.LOCAL seconds of the last RING_ERROR journal entry, plus one; 0 for none (R563) -/
  errJrnl : Nat := 0
deriving DecidableEq, Repr

/-- RING_CFG.EN. -/
def Ring.en (r : Ring) : Bool := bit r.cfg 31

/-- RING_CFG.VECTOR. -/
def Ring.vector (r : Ring) : Nat := fld r.cfg 21 11

/-- RING_CFG.LOG2_SIZE. -/
def Ring.log2 (r : Ring) : Nat := fld r.cfg 28 24

/-- RING_CFG.IDENT. -/
def Ring.ident (r : Ring) : Nat := fld r.cfg 23 22

/-- A partition of a channel (R550–R560). -/
structure Part where
  /-- 0 FREE, 1 ACTIVE, 2 QUIESCING, 3 QUIESCED -/
  state : Nat := 0
  step : Nat := 0
  failStep : Nat := 0
  qcfg : Word := 0x00640A0A
  qrFirst : Nat := 0
  qrCount : Nat := 0
  id0 : Word := 0
  id1 : Word := 0
  id2 : Word := 0
  id3 : Word := 0
  /-- PUNT_RECORDS, INJECT_PKTS, INJECT_ERR, LEARN_RECORDS, NOTIFY_RECORDS -/
  punt : Nat := 0
  inject : Nat := 0
  injErr : Nat := 0
  learn : Nat := 0
  notify : Nat := 0
  /-- COSY.LOCAL at the acceptance of QUIESCE, and at the start of the present step -/
  qStart : Nat := 0
  stepAt : Nat := 0
deriving DecidableEq, Repr

/-- Identity slot `k` of a partition. -/
def Part.ident (p : Part) (k : Nat) : Word := if k = 0 then p.id0 else if k = 1 then p.id1 else if k = 2 then p.id2 else p.id3

/-- The partition with identity slot `k` replaced. -/
def Part.setIdent (p : Part) (k : Nat) (w : Word) : Part :=
  if k = 0 then { p with id0 := w } else if k = 1 then { p with id1 := w }
  else if k = 2 then { p with id2 := w } else { p with id3 := w }

/-- Partition 0 is ACTIVE from reset, and its IDENT0 is PF0 (R550, R560). -/
def partDefault (p : Nat) : Part := if p = 0 then { state := 1, id0 := 0x80000000 } else {}

/-- Does the partition's identity slot `k` name function `f` (R550)? -/
def Part.names (p : Part) (f k : Nat) : Bool := bit (p.ident k) 31 && fld (p.ident k) 26 20 == f

/-- Is function `f` a member of the partition (R550)? -/
def Part.member (p : Part) (f : Nat) : Bool := p.names f 0 || p.names f 1 || p.names f 2 || p.names f 3

/-- A record bound for a host ring, made and not yet posted (R542). -/
structure Rec where
  part : Nat
  ring : Nat
  bytes : List Byte
  /-- T64 of the record -/
  time : Nat := 0
deriving DecidableEq, Repr

end Sys2Proof.Machine
end

