-- ==== Sys2Proof/Machine/TypesDp.lean ====
section
/-! DEFINITION. The working state of the data path: ports, FlexE groups, parse threads, Strainer pipelines, buffers and
queues, the scheduler and its gates, and the fabric interface. -/

namespace Sys2Proof.Machine

/-- A packet on its way through the data path, with what hardware knows about it (R268, R305, R333, R345). -/
structure Pkt where
  /-- the frame as held, its FCS included -/
  bytes : List Byte := []
  egress : Bool := false
  port : Nat := 0
  injected : Bool := false
  parity : Nat := 0
  part : Nat := 0
  /-- g0 of R305: arrival or inject instant, or Spout's release instant -/
  t64 : Nat := 0
  /-- arrival stamp below 1 ns, in units of 125 ps -/
  frac : Nat := 0
  /-- the arrival stamp in T96, in units of 2^-16 ns (R133) -/
  rx96 : Nat := 0
  account : Nat := 0
  /-- the 64-byte packet context of R345; empty before the ingress pipeline has ended -/
  ctx : List Byte := []
  /-- wire instant t + E(p) of an egress packet, in ps of network time (R471) -/
  launch : Nat := 0
  /-- an egress mirror copy, or a mirror copy of an ingress packet (R353) -/
  mirror : Bool := false
  /-- the gate its queue was bound to at release: list × 32 + bit, plus one (R463) -/
  gate : Nat := 0
  /-- how often its port had gone oper-down at its release (R216) -/
  downs : Nat := 0
  /-- PTP correction asked for by the egress pipeline: header offset, UDP header offset, UDP flag (R347) -/
  ptp : Option (Nat × Nat × Bool) := none
  /-- the reassembly context that still fills the packet, plus one (R490) -/
  reasm : Nat := 0
deriving DecidableEq, Repr

/-- The length L of the packet. -/
def Pkt.len (p : Pkt) : Nat := p.bytes.length

/-! Line ports (R205–R236). -/

/-- A control frame of R224: PFC with its class vector and quanta (R220), or a PTP message. -/
structure CtlFrame where
  pfc : Option (Nat × Nat) := none
  bytes : List Byte := []
deriving DecidableEq, Repr

/-- A frame in a MAC FIFO (R31). -/
inductive MacFrame where
  /-- a data frame, and whether it came after its launch instant (R473) -/
  | data (p : Pkt) (late : Bool)
  /-- a control frame and its launch instant, ps of network time -/
  | control (f : CtlFrame) (launch : Nat)
deriving DecidableEq, Repr

/-- Working state of a port beside its registers. -/
structure PortWork where
  /-- 0 none, 1 DOWN_HOLD, 2 UP_HOLD runs (R212) -/
  timer : Nat := 0
  /-- COSY.LOCAL in ns at which that timer started -/
  since : Nat := 0
  /-- R236 cause of the fault that stands -/
  cause : Nat := 0
  /-- PCS and FEC alignment stands -/
  aligned : Bool := false
  /-- auto-negotiation or link training is in progress -/
  training : Bool := false
  /-- the 1 s wait before a retry of a failed training (R210), and COSY.LOCAL in ns of the failure -/
  retry : Bool := false
  retryAt : Nat := 0
  /-- the last change of EN: COSY.LOCAL in units of 2^-16 ns (R213) -/
  enAt : Nat := 0
  /-- what the last training measured of the lane skew and the FEC alignment, 32-bit two's complement in units of 2^-16 ns (R223) -/
  rxAdj : Nat := 0
  /-- the operation that runs under STATE TEST: 0 none, else 1 + its number in R236 -/
  op : Nat := 0
  /-- remaining pause quanta per class (R220) -/
  pause : Tab Nat := []
  /-- COSY.LOCAL of the frame that set it, and of the start of the unbroken pause (R221) -/
  pauseAt : Tab Nat := []
  wdAt : Tab Nat := []
  /-- classes whose PFC the watchdog ignores (R221) -/
  wdIgnore : Nat := 0
  /-- classes for which HOLD admission asks PFC (R438), and COSY.LOCAL in ns of the last XOFF per class (R220) -/
  xoff : Nat := 0
  xoffAt : Tab Nat := []
  /-- control frames waiting, oldest first (R224) -/
  ctl : List CtlFrame := []
  /-- the MAC FIFO, oldest first (R31) -/
  mac : List MacFrame := []
  /-- the T96 transmit stamp of the last PTP event message, in units of 2^-16 ns, plus one (R133) -/
  txStamp : Nat := 0
  /-- two-step Sync messages sent, with their stamps, whose Follow_Up is still to be sent (R143) -/
  txSync : List (Nat × List Byte) := []
  /-- end on the wire of the previous frame, ps of network time (R471) -/
  wireEnd : Nat := 0
  /-- start and end on the wire of the preemptable frame or fragment under way, ps of network time (R222, R463) -/
  preStart : Nat := 0
  preEnd : Nat := 0
  /-- times the port has gone oper-down: a frame that Spout released before the last time is dropped (R216) -/
  downs : Nat := 0
  /-- the last oper-down: COSY.LOCAL in ns; and the last return to UP, plus one (R439, R440) -/
  downAt : Nat := 0
  /-- HOLD_MS at the last oper-down (R440) -/
  holdMs : Nat := 0
  upAt : Nat := 0
  /-- the hold window of the last return was DISCARDING: packets queued before the return are discarded (R440) -/
  discardOld : Bool := false
deriving DecidableEq, Repr

/-! FlexE (R237–R258), the slot switch (R245–R250) and performance monitoring (R252–R254). -/

/-- Working state of a FlexE group beside its registers. -/
structure FlexGrp where
  /-- the calendar that CR asks for -/
  target : Nat := 0
  /-- CA of the peer matched, or none is awaited: the switch falls at the next overhead frame boundary -/
  ready : Bool := false
  /-- COSY.LOCAL of the request -/
  since : Nat := 0
  /-- a page switch is requested at the next overhead frame boundary (R247) -/
  pageReq : Bool := false
  /-- validation of the standby page runs (R246) -/
  validating : Bool := false
deriving DecidableEq, Repr

/-- FlexE, slot switch and PM working state. -/
structure FlexW where
  grps : Tab FlexGrp := []
  /-- slots whose last multiframe disagreed while the defect does not stand, or agreed while it stands -/
  turning : Tab Bool := []
  /-- connection memory entries whose parity has failed, by entry index (R245) -/
  parBad : Tab Bool := []
  /-- client IDs recorded at COMMIT, by entry index, plus one (R250) -/
  ids : Tab Nat := []
  /-- blocks replaced by idle and not yet counted, per group, in units of 1/327,376 block (R249) -/
  idleFrac : Tab Nat := []
  /-- the latched PM record has been acknowledged (R252) -/
  pmAcked : Bool := true
  /-- the second of network time at which the second in progress closes; 0 while none has closed (R252) -/
  pmNext : Nat := 0
  /-- a step of network time has ended the second in progress, whose SEC this is, plus one; its latch is due (R252) -/
  pmStep : Nat := 0
  /-- boundaries whose PM_BIN actions have fired and whose bins are still to close, oldest first: bit 0 15 minutes, bit 1 24 hours; and SEC of
  the boundary (R254) -/
  pmClose : List (Nat × Nat) := []
  /-- a latched second has been lost since the keeper last classified one (R254) -/
  pmLost : Bool := false
  /-- PM entities with a defect at some time in the present second (R252) -/
  defSeen : Tab Bool := []
deriving DecidableEq, Repr

/-! Parse engines (R264–R301). -/

/-- A parse thread (R266, R304). -/
structure Thread where
  /-- 0 FREE, 1 READY, 2 WAIT, 3 LOCK_WAIT, 4 HALTED (R296) -/
  st : Nat := 0
  /-- the state a halted thread would be in -/
  prev : Nat := 0
  haltCause : Nat := 0
  bp : Nat := 0
  pkt : Option Pkt := none
  ctxNo : Nat := 0
  seq : Nat := 0
  /-- the reorder unit has skipped the packet's number (R279) -/
  skipped : Bool := false
  /-- entry point and limit taken at dispatch -/
  maxInstr : Nat := 0
  g : Vector (BitVec 64) 16 := Vector.replicate 16 0
  c : Vector (BitVec 64) 8 := Vector.replicate 8 0
  hp : Nat := 0
  wb : Nat := 0
  flags : Nat := 0
  pc : Nat := 0
  icount : Nat := 0
  evPend : Nat := 0
  evMask : Nat := 0
  /-- FE cycles left; 0 not armed -/
  timer : Nat := 0
  /-- outstanding lookups, oldest first: destination register and entry -/
  looks : List (Nat × BitVec 64) := []
  /-- the lock the thread waits for in LOCK_WAIT -/
  waitLock : Option Nat := none
  watchLock : Option Nat := none
  watchMbox : Option Nat := none
  /-- the thread waits in WFE -/
  wfe : Bool := false
  /-- events that have arrived for the waiting thread and that it takes 2 cycles later (R271) -/
  wake : Nat := 0
  /-- COSY.LOCAL at which the timer was set -/
  timerAt : Nat := 0
  /-- a STEP command is under way (R285): 1 its instruction has not issued, 2 it has -/
  stepping : Nat := 0
  /-- the breakpoint at pc has been judged for the next issue (R288) -/
  bpPass : Bool := false
  /-- the reorder unit was restarted while the packet was in the thread (R290) -/
  stale : Bool := false
  /-- COSY.LOCAL at dispatch -/
  since : Nat := 0
deriving DecidableEq, Repr

/-- A mailbox (R275): 0 EMPTY, 1 STAGING, 2 SEALED. -/
structure Mbox where
  st : Nat := 0
  owner : Nat := 0
  words : Vector (BitVec 64) 8 := Vector.replicate 8 0
deriving DecidableEq, Repr

/-- A lock: the holder's TID plus one, and the waiters' TIDs, oldest first (R273). -/
structure Lock where
  holder : Nat := 0
  waiters : List Nat := []
deriving DecidableEq, Repr

/-- A packet as the reorder unit and the Strainer see it: the carry and the parse result (R322). -/
structure Parsed where
  pkt : Pkt := {}
  carry : Vector (BitVec 64) 8 := Vector.replicate 8 0
  result : Nat := 0
deriving DecidableEq, Repr

/-- A reorder context (R278): the next number to give, the lowest outstanding, and numbers completed or skipped beyond it. -/
structure Reorder where
  next : Nat := 0
  low : Nat := 0
  /-- completed packets held, by sequence number -/
  held : List (Nat × Parsed) := []
  /-- numbers released without a delivery: skipped, detached, aborted late -/
  gone : List Nat := []
  /-- dispatch instants of outstanding numbers, COSY.LOCAL in ns -/
  out : List (Nat × Nat) := []
deriving DecidableEq, Repr

/-- What STAGE writes into a brew bank (R328). -/
structure BrewBank where
  code : Tab (BitVec 128) := []
  ptable : Tab (BitVec 64) := []
  entry : Tab Nat := []
  maxIn : Nat := 0
  maxEg : Nat := 0
  /-- Strainer stage configuration by (pipeline × 12 + stage) × 0x1100 + byte offset (R357) -/
  strn : Tab Byte := []
deriving DecidableEq, Repr

/-- Working state of the parse engines and the dispatcher. -/
structure ParseW where
  threads : Tab Thread := []
  /-- by cluster × 1024 + lock -/
  locks : Tab Lock := []
  /-- by cluster × 64 + mailbox -/
  mboxes : Tab Mbox := []
  bank0 : BrewBank := {}
  bank1 : BrewBank := {}
  /-- poisoned instruction words by (cluster × 2 + bank) × 4096 + index (R283): 1 waits for the keeper, 2 stays poisoned -/
  poison : Tab Nat := []
  qIn : List Pkt := []
  qEg : List Pkt := []
  lastEngine : Nat := 255
  /-- the thread that issued last, 0–7, by engine (R270) -/
  issued : Tab Nat := []
  /-- COSY.LOCAL at which a thread that holds a packet last began or ceased to wait with no external source armed, by engine (R280) -/
  moved : Tab Nat := []
  /-- reorder contexts 0–127 -/
  ro : Tab Reorder := []
  /-- breakpoint configuration by engine × 4 + breakpoint -/
  bps : Tab Word := []
  /-- the value that REG_DATA0 and REG_DATA1 stage (R286) -/
  stage0 : Nat := 0
  stage1 : Nat := 0
  /-- STAGING was entered from EMPTY (R187) -/
  fromEmpty : Bool := false
  /-- the dispatcher's T as T64, plus one; 0 while cleared (R193) -/
  pourT : Nat := 0
  /-- COSY.LOCAL of the last pour, plus one (R191) -/
  pourAt : Nat := 0
deriving DecidableEq, Repr

/-! The Strainer (R329–R363). -/

/-- An edit of the egress edit list: kind, window offset, carry byte, bytes (R346). -/
structure Edit where
  kind : Nat
  off : Nat
  from_ : Nat
  len : Nat
deriving DecidableEq, Repr

/-- A packet in a Strainer pipeline. -/
structure InPipe where
  pkt : Pkt := {}
  /-- its place among the packets that entered the pipelines of its direction (R331) -/
  ord : Nat := 0
  /-- the 128-byte source space (R333) -/
  src : List Byte := []
  next : Nat := 0
  /-- the table a GOTO named for the next stage (R336) -/
  tblOvr : Option Nat := none
  punt : Option (Nat × Nat) := none
  puntCopies : List (Nat × Nat) := []
  /-- samplers named, and those of them that sample the packet (R352, R354) -/
  samplers : List Nat := []
  sel : List Nat := []
  mirrors : List Nat := []
  edits : List Edit := []
  ptp : Option (Nat × Nat × Bool) := none
  ptpTc : Bool := false
  /-- the packet is a PTP event message that R144 drops -/
  tcDrop : Bool := false
  ran : Nat := 0
  hits : Nat := 0
deriving DecidableEq, Repr

/-- Working state of the Strainer. -/
structure StrnW where
  qIn : List Parsed := []
  qEg : List Parsed := []
  /-- packets in each pipeline, oldest first -/
  pipes : Tab (List InPipe) := []
  /-- packets that have entered the pipelines -/
  entered : Nat := 0
  /-- poisoned configuration words: (pipeline × 2 + bank) × 65,536 + byte offset of the 8-byte word (R359) -/
  poison : Tab Bool := []
  /-- candidates of each sampler since the last sample (R354) -/
  cand : Tab Nat := []
deriving DecidableEq, Repr

/-! Forwarding tables, learning (R367–R414). -/

/-- A version of an exact-match entry (R373); `stamp` numbers the command that wrote it. -/
structure EmVer where
  key : List Byte := []
  res : List Byte := []
  mask : Nat := 0
  static : Bool := false
  age : Nat := 0
  hit : Bool := false
  stamp : Nat := 0
deriving DecidableEq, Repr

/-- A version of a prefix: VRF, address as a number of the table's address width, length, brew mask, slot value (R376, R377). -/
structure LpmPfx where
  vrf : Nat
  addr : Nat
  len : Nat
  mask : Nat
  res : Nat
deriving DecidableEq, Repr

/-- A ternary entry in lookup order (R379); `ord` numbers its insertion, and a disabled entry never matches (R400). -/
structure TernEnt where
  key : Nat
  tmask : Nat
  prio : Nat
  mask : Nat
  res : Nat
  ord : Nat
  bad : Bool := false
deriving DecidableEq, Repr

/-- An entry of the learn filter (R392); `since` is COSY.LOCAL in ns. -/
structure LearnEnt where
  table : Nat
  key : List Byte
  port : Nat
  time : Nat
  since : Nat
  contested : Bool := false
deriving DecidableEq, Repr

/-- A flush that runs on a table (R389): system port, static entries too, and the command that started it. -/
structure FlushRun where
  table : Nat
  port : Nat
  static : Bool
  stamp : Nat
deriving DecidableEq, Repr

/-- A bank rotation that runs (R402, R404): from, to, and whether the source is retired at its end. -/
structure BankRot where
  src : Nat
  dst : Nat
  retire : Bool
deriving DecidableEq, Repr

/-- Working state of the forwarding tables and of the learn filter. -/
structure TblW where
  /-- segment map by table: segment number plus one, 0 for a hole; replica after replica (R368, R405) -/
  segs : Tab (List Nat) := []
  /-- exact-match slots by table × 2^40 + slot, overflow entries behind the buckets -/
  em : Tab EmVer := []
  /-- prefixes in table order -/
  lpm : Tab (List LpmPfx) := []
  /-- ternary entries in lookup order -/
  tern : Tab (List TernEnt) := []
  /-- direct entries by table × 2^32 + index: the entry's bytes as a number, first byte most significant -/
  direct : Tab Nat := []
  /-- what LAST of a meter entry cannot hold, in millionths of a byte: what the committed bucket is owed at that instant, and the peak bucket's
  debt or due (R343) -/
  meterSub : Tab (Nat × Int) := []
  /-- group descriptors (R381) -/
  grp : Tab Word := []
  /-- the uncorrectable words of POISONED lines, a bit each, by (table × 4 + replica) × 2^32 + logical line (R396) -/
  poison : Tab Nat := []
  /-- uncorrectable errors: bank and second of COSY.LOCAL (R404) -/
  ues : List (Nat × Nat) := []
  rots : List BankRot := []
  flushes : List FlushRun := []
  /-- tables with TDEF_STAT.DEGRADED (R405) -/
  degraded : Tab Bool := []
  /-- software shadows: host address and bytes (R398) -/
  shadow : Tab (Nat × Nat) := []
  /-- commands accepted so far; ternary insertions so far -/
  stamp : Nat := 0
  /-- positions that cursors of prefix and ternary walks name (R388) -/
  walks : Tab (Nat × Nat) := []
  nextWalk : Nat := 1
  /-- second of network time of the last sweep of a table, plus one (R395) -/
  swept : Tab Nat := []
  filter : List LearnEnt := []
  learnSeq : Nat := 0
  noteSeq : Nat := 0
deriving DecidableEq, Repr

/-! Caddy, queues and admission (R415–R455). -/

/-- A packet that asks for a buffer: requester, the pool to ask, the packet (R423, R424). -/
structure AllocReq where
  requester : Nat
  pkt : Pkt
  /-- the pool to ask after a spill -/
  pool : Option Nat := none
deriving DecidableEq, Repr

/-- A stored packet and its buffer (R416–R419). -/
structure Buf where
  inUse : Bool := false
  /-- REFS: references minus one -/
  refs : Nat := 0
  owner : Nat := 0
  pool : Nat := 0
  units : Nat := 0
  pkt : Pkt := {}
  enqTime : Nat := 0
  enqLocal : Nat := 0
  /-- the last byte is written (R433) -/
  written : Bool := false
  /-- the queue chosen for it, plus one; 0 while none is chosen (R458) -/
  queue : Nat := 0
  /-- it waits for admission -/
  waiting : Bool := false
  /-- its header was read with an uncorrectable word (R428, R520) -/
  hdrBad : Bool := false
  /-- uncorrectable words read by a service read: byte offsets in the stored packet (R520) -/
  poison : List Nat := []
deriving DecidableEq, Repr

/-- A queue entry: handle, L, ENQ_LOCAL, the index of its held count (R438), port queued for. -/
structure QEnt where
  handle : Nat
  len : Nat
  local_ : Nat
  pc : Nat
deriving DecidableEq, Repr

/-- A queue (R432–R434): VOQ q, fabric multicast queue 0x80000 + TC, egress queue 0x100000 + node. -/
structure Que where
  ents : List QEnt := []
  hbm : Bool := false
  /-- WRED average depth, bytes (R437) -/
  avg : Nat := 0
deriving DecidableEq, Repr

/-- Depth of a queue in frame bytes. -/
def Que.depth (q : Que) : Nat := q.ents.foldl (fun n e => n + e.len) 0

/-- An account: 0 CLOSED, 1 OPEN, 2 CLOSING, and its partition (R420). -/
structure Acct where
  st : Nat := 0
  part : Nat := 0
deriving DecidableEq, Repr

/-- An account's share of one pool (R420). -/
structure AcctPool where
  alpha : Nat := 5
  rsv : Nat := 0
  use : Nat := 0
  peak : Nat := 0
deriving DecidableEq, Repr

/-- An HBM region: 0 UNASSIGNED, 1 ACTIVE, 2 DRAINING, 3 FENCED, 4 RETIRED (R429). -/
structure HbmRegion where
  st : Nat := 0
  cls : Nat := 0
  next : Nat := 0
  /-- the state before a fence -/
  prior : Nat := 0
deriving DecidableEq, Repr

/-- Working state of Caddy, the queues and admission. -/
structure CadW where
  bufs : Tab Buf := []
  accts : Tab Acct := []
  /-- by account × 8 + pool -/
  pools : Tab AcctPool := []
  regions : Tab HbmRegion := []
  queues : Tab Que := []
  reqs : List AllocReq := []
  /-- by x of R451 -/
  held : Tab Nat := []
  /-- multicast groups, packed as MC_CFG; members, packed as MEM_DATA (R441) -/
  mcGrp : Tab Word := []
  mcMem : Tab Word := []
  /-- a flush runs: OP, and the packets it has removed -/
  flush : Option (Nat × Nat) := none
  /-- an orphan sweep is due (R428) -/
  sweepDue : Bool := false
deriving DecidableEq, Repr

/-! The scheduler and Spout (R456–R479). -/

/-- A scheduler node: W0–W6, its buckets in units of 1/8,000,000 byte, COSY.LOCAL of the last refill, and its deficit in bytes. -/
structure Node where
  w0 : Nat := 0
  w1 : Nat := 1
  cir : Nat := 0
  pir : Nat := 0
  cbs : Nat := 0
  pbs : Nat := 0
  w6 : Nat := 0
  tokC : Int := 0
  tokP : Int := 0
  last : Nat := 0
  deficit : Int := 0
  fault : Bool := false
deriving DecidableEq, Repr

/-- A bank of a gate control list (R466): entries are mask × 2^32 + duration. -/
structure GateBank where
  base : Nat := 0
  cycle : Nat := 0
  ext : Nat := 0
  len : Nat := 0
  ents : Tab Nat := []
deriving DecidableEq, Repr

/-- A gate control list (R466–R470). -/
structure GateList where
  bank0 : GateBank := {}
  bank1 : GateBank := {}
  oper : Nat := 0
  running : Bool := false
  pend : Bool := false
  /-- S of the pending or last swap, T64 -/
  start : Nat := 0
  lastSwap : Nat := 0
  ecc : Bool := false
  cfg : Word := 0x40000000
  init : Word := 0xFFFFFFFF
deriving DecidableEq, Repr

/-- Working state of SCHED and SPOUT. -/
structure SchedW where
  nodes : Tab Node := []
  lists : Tab GateList := []
  /-- the last child served of a node in a priority and band, plus one: node × 16 + band × 8 + prio -/
  ptr : Tab Nat := []
  /-- instant at which the port may release its next frame, ps of COSY.LOCAL (R460) -/
  pace : Tab Nat := []
deriving DecidableEq, Repr

/-! The fabric interface (R480–R504). -/

/-- A Ulore cell (R484). -/
structure Cell where
  typ : Nat := 0
  first : Bool := false
  last : Bool := false
  parity : Nat := 0
  colour : Nat := 0
  tc : Nat := 0
  ctxFull : Bool := false
  src : Nat := 0
  dst : Nat := 0
  dport : Nat := 0
  seq : Nat := 0
  payload : List Byte := []
  /-- the lane it was received on -/
  lane : Nat := 0
  /-- it carries an uncorrectable word and is sent with its PCRC inverted (R520) -/
  bad : Bool := false
deriving DecidableEq, Repr

/-- A packet under segmentation in a stream: its VOQ (or multicast queue), its handle, the payload left, and the fields that
its cells share. -/
structure Sending where
  voq : Nat := 0
  handle : Nat := 0
  left : List Byte := []
  /-- payload bytes sent, and the payload offsets of uncorrectable words (R520) -/
  pos : Nat := 0
  bad : List Nat := []
  cell : Cell := {}
deriving DecidableEq, Repr

/-- A reassembly context (R489, R490). -/
structure Reasm where
  next : Nat := 0
  /-- cells held, with COSY.LOCAL of their arrival -/
  held : List (Nat × Cell) := []
  /-- the open packet's cells delivered so far, oldest first -/
  open_ : List Cell := []
  /-- cells are discarded up to the next FIRST -/
  skip : Bool := false
  /-- while every cell is late: the lowest number received, plus one, and since when -/
  lateLow : Nat := 0
  lateAt : Nat := 0
deriving DecidableEq, Repr

/-- A request entry of a credit generator (R493): port, source channel, class, the system port asked for, and COSY.LOCAL of
its last refresh. -/
structure CredReq where
  port : Nat
  src : Nat
  tc : Nat
  sport : Nat
  at_ : Nat
deriving DecidableEq, Repr

/-- Working state of a fabric lane; instants of the wire are in units of 1/6 ps of COSY.LOCAL. -/
structure FabLane where
  /-- the transmit queue, oldest first (R482) -/
  txq : List Cell := []
  /-- start on the wire of the oldest cell -/
  wireAt : Nat := 0
  /-- the earliest instant of the next control cell (R482) -/
  ctlAt : Nat := 0
  /-- COSY.LOCAL of the last valid HELLO (R494) -/
  helloAt : Nat := 0
  /-- the lane left ACTIVE in mesh mode and its spare is due (R497) -/
  spareDue : Bool := false
  /-- a spare has replaced the lane: when it returns it is a spare (R497) -/
  replaced : Bool := false
deriving DecidableEq, Repr

/-- Working state of the fabric interface. -/
structure FabW where
  /-- lanes F0–F47, and 48 for the loopback (R491) -/
  lanes : Tab FabLane := []
  sport : Tab Word := []
  mcMap : Tab Word := []
  /-- REACH bits that stand, by lane × 4 + block of 1,024 channels (R494) -/
  reach : Tab Nat := []
  /-- the bits by the cell that last brought them, with COSY.LOCAL of that cell, newest first -/
  reachAt : Tab (List (Nat × Nat)) := []
  /-- the channels that were reachable, as bits -/
  was : Nat := 0
  /-- the next SEQ of a stream: unicast D, 0x1000 + D multicast in mesh mode, 0x2000 multicast to the fabric elements (R489) -/
  seq : Tab Nat := []
  sending : Tab (List Sending) := []
  /-- reassembly contexts: source channel, 0x1000 + source channel for multicast -/
  reasm : Tab Reasm := []
  /-- credit cells waiting, oldest first -/
  ctlQ : List Cell := []
  /-- credit balances of VOQs, bytes (R492) -/
  bal : Tab Int := []
  /-- VOQs whose ON request stands -/
  reqOn : Tab Bool := []
  /-- COSY.LOCAL of a VOQ's last ON, plus one (R492) -/
  reqAt : Tab Nat := []
  /-- COSY.LOCAL of the last HELLOs, plus one (R494) -/
  helloTx : Nat := 0
  /-- cells that a lane has taken of a stream in the present round of its lanes, by stream × 64 + lane (R482) -/
  turns : Tab Nat := []
  /-- COSY.LOCAL since a VOQ is empty, plus one -/
  emptyAt : Tab Nat := []
  reqs : List CredReq := []
  /-- balance of a port's generator, in 1/512,000 byte (R493) -/
  gen : Tab Nat := []
  /-- network time of the last credit slot, in slots plus one, and COSY.LOCAL then -/
  slot : Nat := 0
  slotLocal : Nat := 0
  /-- the last source channel served by port × 8 + class, plus one -/
  rr : Tab Nat := []
  /-- the last VOQ served in a class, plus one; 8 + class: the multicast queue has the next turn (R482) -/
  txrr : Tab Nat := []
  /-- the earliest instant of the next multicast packet, ps of COSY.LOCAL (R492) -/
  mcAt : Nat := 0
deriving DecidableEq, Repr

/-! The HBM controllers (R505–R532). -/

/-- A full retrain that runs (R514, R515): phase 0 fencing or empty, 1 armed, 2 window open, 3 closed OK, 4 closed ABORTED. -/
structure HbmRun where
  group : Nat
  window : Nat
  warn : Nat
  /-- COSY.LOCAL when FENCING began, and when the present phase began -/
  since : Nat
  at_ : Nat
  phase : Nat := 0
  tries : Nat := 0
  /-- µs used by the last window -/
  used : Nat := 0
deriving DecidableEq, Repr

/-- Working state of the HBM controllers; PCs by their channel-wide number. -/
structure HbmW where
  /-- accesses that wait for the paused PC, each with its PC, oldest first: those to it, and later ones of the same sources (R507, R511) -/
  waiting : List (Nat × HbmAcc) := []
  /-- periodic refreshes postponed by the pause, with their temperature readings (R511) -/
  refDue : List (Nat × Word) := []
  /-- the paused PC and COSY.LOCAL of the pause -/
  paused : Option (Nat × Nat) := none
  /-- COSY.LOCAL of the end of a PC's last pause, plus one -/
  pauseEnd : Tab Nat := []
  /-- timing parameters by (PC × 64 + parameter) × 1,024 + lane; the old settings while a pause or a window runs -/
  timing : Tab Nat := []
  saved : Tab Nat := []
  /-- 64-byte accesses that hold an uncorrectable word: PC × 2^24 + address / 64 -/
  bad : Tab Bool := []
  /-- rolling activate counts by PC × 1,024 + bank (R518) -/
  acts : Tab Nat := []
  /-- RFM threshold of a stack, and its identity, as read at training -/
  rfmThr : Tab Nat := []
  devId : Tab Nat := []
  /-- COSY.LOCAL when start-up training of a stack began -/
  trainAt : Tab Nat := []
  run : Option HbmRun := none
  /-- COSY.LOCAL of the start and the end of the open retrain window -/
  winAt : Nat := 0
  winEnd : Nat := 0
  /-- second of a group's last full retrain, plus one -/
  last : Tab Nat := []
  /-- the next PC of the rolling fast retrain (R512) -/
  fastNext : Nat := 0
  /-- COSY.LOCAL of the last rolling fast retrain, plus one -/
  fastAt : Nat := 0
  /-- the FAST_RETRAIN service under way: keeper, tag, PC -/
  svcFast : Option (Nat × Nat × Nat) := none
deriving DecidableEq, Repr

/-! Timed actions and brews (R172–R203). -/

/-- An action slot (R172, R183). -/
structure ActSlot where
  /-- SSTATE: 0 FREE, 1 PENDING, 2 DONE, 3 CANCELLED -/
  st : Nat := 0
  keeper : Bool := false
  lateExec : Bool := false
  localOk : Bool := false
  autoFree : Bool := false
  notify : Bool := false
  target : Nat := 0
  result : Nat := 0
  /-- action time, ns of network time (R11) -/
  time : Nat := 0
  arg : Nat := 0
  /-- the number of its arm (R174) -/
  order : Nat := 0
  /-- armed late with LATE_EXEC (R176): it fires at once, `time` notwithstanding -/
  late : Bool := false
  /-- network time at which it fires, ns: the action time, or for a late arm its arm instant -/
  due : Nat := 0
deriving DecidableEq, Repr

/-- Working state of the action scheduler. -/
structure ActW where
  slots : Tab ActSlot := []
  /-- arms accepted so far -/
  seq : Nat := 0
  /-- fewer than 16 slots of the host's share are free (R184) -/
  low : Bool := false
deriving DecidableEq, Repr

/-- Working state of BREW beside its registers (R187–R194). -/
structure BrewW where
  /-- the previous brew, from the pour to the end of the retire -/
  prev : Nat := 0
  /-- COSY.LOCAL of the last pour (R194) -/
  exec : Nat := 0
  /-- INACTIVE_DROP at the retire -/
  dropAt : Nat := 0
  /-- a discard sweep runs (R189) -/
  discarding : Bool := false
  /-- a STAGE fetches: IMG_LEN as it was issued (R188) -/
  staging : Option Nat := none
deriving DecidableEq, Repr

/-! Cosy (R130–R161). -/

/-- Fields of a ToD frame that Cosy keeps (R139): UTC_OFFSET, FLAGS, CLOCK_CLASS, CLOCK_ACCURACY, TIME_SOURCE. -/
structure TodInfo where
  utc : Nat := 0
  flags : Nat := 0
  cls : Nat := 0
  acc : Nat := 0
  src : Nat := 0
deriving DecidableEq, Repr

/-- Working state of Cosy's hardware beside its registers. -/
structure CosyW where
  /-- COSY.LOCAL of the last accepted PPS_IN edge, plus one -/
  edge : Nat := 0
  /-- COSY.LOCAL at which the next edge is expected, plus one; 0 when none is (R136) -/
  expect : Nat := 0
  /-- expected edges missing since the last edge (R136) -/
  miss : Nat := 0
  /-- consecutive seconds that brought no edge in their window (R136) -/
  bad : Nat := 0
  /-- the source's offset from network time at the last edge that a frame named, 125 ps units (R138) -/
  ppsOff : Option Int := none
  /-- a ToD frame has been accepted since the last edge (R140) -/
  todTaken : Bool := false
  /-- SEC that the accepted frame names for the next edge, plus one -/
  named : Nat := 0
  /-- SEC of the last accepted frame with TIME_VALID, plus one -/
  lastSec : Nat := 0
  /-- consecutive seconds that count toward the qualification of PPS_TOD (R136) -/
  run : Nat := 0
  /-- COSY.LOCAL of the last accepted frame -/
  lastFrame : Nat := 0
  tod : TodInfo := {}
  /-- COSY.LOCAL of the last SERVO_TICK, plus one; 0 while no tick has armed the timeout (R158) -/
  tick : Nat := 0
  /-- network time in ns, E0, and the oscillator temperature in 1/16 °C when holdover began (R623); steps move the instant with
  the counter -/
  hoNs : Nat := 0
  e0 : Nat := 0xFFFFFFFF
  hoTemp : Int := 0
  /-- sum of the absolute phase corrections applied in ACQUIRING, in 1/256 ns (R149) -/
  corr : Nat := 0
  /-- the first second of network time whose PPS_OUT edge is still to come (R160) -/
  outNext : Nat := 1
  /-- COSY.LOCAL at which the next TOD_OUT frame starts, plus one; and its SEQ -/
  todDue : Nat := 0
  todSeq : Nat := 0
  /-- the last measurement of the frequency monitor, OSC_IN less REFCLK in units of 2^-48 (R131) -/
  mon : Int := 0
  /-- a source of this code was disqualified and requalified at this COSY.LOCAL (R137 rule 2): code to instant plus one -/
  requal : Tab Nat := []
  /-- sources that have been disqualified since the last entry into FREE -/
  disq : List Nat := []
  /-- no time source has been selected since the last entry into FREE (R137 rule 2) -/
  first : Bool := true
  /-- consecutive samples within LOCK_THRESH (R148) -/
  within : Nat := 0
  /-- seconds of holdover included in the sum, and Σ|ΔT|·x over them in 1/16 K·s (R156) -/
  hoSec : Nat := 0
  sumT : Nat := 0
  /-- what SYNC_CLK_OUT0 and SYNC_CLK_OUT1 carry: 0 held low, else the encoding of their frequency plus one (R161) -/
  clk0 : Nat := 0
  clk1 : Nat := 0
deriving DecidableEq, Repr

/-! Tests and the Phota bridge (R565–R582). -/

/-- A test of one target (R565–R576). -/
structure TestT where
  cfg : Word := 0
  /-- STATE: 0 IDLE, 1 PENDING, 2 RUNNING, 3 DONE, 4 STOPPED, 5 REFUSED -/
  st : Nat := 0
  lock : Bool := false
  refuse : Nat := 0
  fail : Nat := 0
  bits : Nat := 0
  err : Nat := 0
  loss : Nat := 0
  /-- COSY.LOCAL at the start -/
  since : Nat := 0
  /-- it took a resource in use, under TEST_TAKEOVER (R570) -/
  live : Bool := false
deriving DecidableEq, Repr

/-- One direction of a bridge module (R578, R579). -/
structure BrDir where
  /-- redundant lanes in use, each with the data lane it stands for -/
  sub : List (Nat × Nat) := []
  /-- lanes that have failed -/
  bad : List Nat := []
deriving DecidableEq, Repr

end Sys2Proof.Machine
end

