-- ==== Sys2Proof/Machine/State.lean ====
section
/-! DEFINITION. The state of the module: the host island, four channels, the queue of waiting commands, and the state at reset. -/

namespace Sys2Proof.Machine

/-- No meaning of this model ends in a fault: every error the spec describes is recorded in registers and the machine goes on. -/
inductive Fault where
  /-- Raised by no command: reserved for an access the spec says cannot exist. Safe. -/
  | unreachable
deriving DecidableEq, Repr

/-- Why a command has no effect in this model. -/
inductive Refusal where
  /-- Raised by the dispatch of a command whose meaning is not written yet. Safe. -/
  | notModelled (mnemonic : String)
deriving DecidableEq, Repr

/-- One channel: an FE die, a TM die and their blocks (R14). -/
structure Chan where
  /-- the registers of both dies, keyed by the offset in the channel's window (R41) -/
  regs : Tab Word := []
  /-- COSY.LOCAL: nanoseconds since channel reset (R132) -/
  ns : Nat := 0
  /-- network time: T96 in units of 2^-16 ns (R8, R130) -/
  time : Nat := 0
  /-- the part of network time below 2^-16 ns, in units of 2^-48 × 10^-9 ns (R130) -/
  timeFrac : Nat := 0
  /-- energy of the FE die and of the TM die since channel reset, in 0.1 mJ (R618) -/
  energyFe : Nat := 0
  energyTm : Nat := 0
  keepA : Keeper := {}
  keepB : Keeper := {}
  /-- the replicated region of keeper A and of keeper B (R79) -/
  regA : Region := {}
  regB : Region := {}
  /-- the delta or image received by the standby and not yet committed (R98) -/
  inflight : Option Region := none
  /-- the keeper whose KARM command is staged, plus one; 0 for none (R179) -/
  karmBy : Nat := 0
  /-- the keeper that `inflight` goes to -/
  inflightTo : Nat := 0
  /-- why the channel last lost its active keeper: the TAKEOVER reason, plus one; 0 when none was lost (R124) -/
  lostReason : Nat := 0
  /-- COSY.LOCAL at which the transfer in flight is complete (R85, R96) -/
  inflightEnd : Nat := 0
  /-- consecutive discarded copies (R98) -/
  copyBad : Nat := 0
  /-- keeper cycles since channel reset; and of them the one with the last copy point, the one whose copy the standby holds, and the one in
  which the last active keeper failed (R94, R98, R124) -/
  cycNo : Nat := 0
  cpCyc : Nat := 0
  copyCyc : Nat := 0
  failCyc : Nat := 0
  /-- index of the present cycle (R83) -/
  cycIdx : Nat := 0
  /-- the keeper that was active last: what it set up stays in force (R81) -/
  lastAct : Nat := 0
  /-- the earliest instant of the next keeper boundary, ns of COSY.LOCAL in FREE and of network time else (R82, R84) -/
  bnd : Nat := 0
  /-- COSY.LOCAL at the last keeper boundary -/
  cycAt : Nat := 0
  /-- a keeper has become active since channel reset (R104) -/
  started : Bool := false
  /-- consecutive boundaries with the Saucer link down (R100) -/
  saucerDown : Nat := 0
  /-- the claim levels in force, [15:8] active, [7:0] standby (R116) -/
  levels : Nat := 0x8040
  /-- sensors whose CRIT condition stands: bit k of the FE die, bit 32 + k of the TM die (R584, R590) -/
  crit : Nat := 0
  /-- consecutive SHUT readings: bits as `crit` (R584) -/
  shutPrev : Nat := 0
  /-- LOW or HIGH conditions that stand: bit r of the FE die, 16 + r of the TM die -/
  railOut : Nat := 0
  /-- COSY.LOCAL at the last TEMP_CRIT entry of a sensor, by its bit of `crit`, plus one; 0 for none (R591) -/
  critJrnl : Tab Nat := []
  /-- COSY.LOCAL at the last sample of the FE die's sensors (0), the TM die's (1) and the thermistor (2), plus one; 0 for none (R584, R609) -/
  sampleAt : Tab Nat := []
  /-- dies whose BIST has completed (R572) -/
  bistDone : Nat := 0
  /-- fused minimum SVN of the channel's keepers (R107); fuses survive every reset -/
  fusedSvn : Nat := 0
  /-- rows repaired for good by HPPR: keys of (stack, PC, bank, row); they survive every reset (R521) -/
  hppr : List Nat := []
  /-- the KEEPER_PREF strap as latched (R603) -/
  pref : Nat := 0
  /-- pages in a soft reset, by key (R58) -/
  inReset : List Nat := []
  /-- T96 snapshots of COSY.TOD, per requester: functions 0–127, keepers 128 and 129 (R134) -/
  snaps : Tab Nat := []
  parts : Tab Part := []
  /-- rings, keyed by 32 × partition + ring -/
  rings : Tab Ring := []
  /-- records made and not yet posted, oldest first -/
  recQ : List Rec := []
  /-- the inject ring served last, partition × 32 + ring, plus one (R549) -/
  injLast : Nat := 0
  /-- events whose journal entries wait for an active keeper (R67, R68): entries without their SEQ -/
  jrnlWait : List Nat := []
  /-- working state of the ports P0–P63 (R205–R236) -/
  ports : Tab PortWork := []
  /-- lanes whose MARGIN cause has not armed again: bit per lane (R211) -/
  laneLow : Nat := 0
  /-- events journalled at most once per second (by page, event and index): the second of the last entry, plus one -/
  jsec : Tab Nat := []
  /-- events of the present second that are journalled with their count at its end -/
  secs : Tab SecEvt := []
  flex : FlexW := {}
  prs : ParseW := {}
  strn : StrnW := {}
  /-- the keeper's PTP receive queue, oldest first (R142) -/
  ptpRxq : List Pkt := []
  tbl : TblW := {}
  cad : CadW := {}
  sch : SchedW := {}
  fab : FabW := {}
  hbm : HbmW := {}
  act : ActW := {}
  brew : BrewW := {}
  cosy : CosyW := {}
  /-- tests by die × 2^20 + KIND × 2^16 + INDEX (R565) -/
  tests : Tab TestT := []
  /-- bridge modules by direction × 8 + module; direction 0 is FE to TM -/
  brdg : Tab BrDir := []
  /-- what the channel has put out in the present command -/
  outQ : List Out := []
  /-- the next free value to take (log 6); the model's own field -/
  free : Nat := 0
deriving DecidableEq, Repr

/-- The host island and the package (R14, R20, R592). -/
structure Isl where
  /-- registers of the host island pages, keyed by BAR0 address -/
  regs : Tab Word := []
  /-- PWR_IN above the lockout (R592) -/
  powered : Bool := true
  pwrgood : Bool := false
  /-- PERST_N asserted, or a hot reset holds the host island (R597) -/
  perst : Bool := true
  /-- the PCIe link is in L0 (R66) -/
  l0 : Bool := false
  /-- channel 0's FE die has failed physically (R24) -/
  dead : Bool := false
  /-- PACKAGE_FATAL (R589) -/
  pkgFatal : Bool := false
  /-- bit c: CHc_RST_N asserted (R599) -/
  chPin : Nat := 0
  /-- bit c: the channel's power was removed by a SHUT condition (R584, R598) -/
  forcedOff : Nat := 0
  /-- per PCIe function 0–127 -/
  fns : Tab Fn := []
  vfEnable : Bool := false
  /-- VF_BAR0 and VF_VECS as applied (R534) -/
  vfBar0 : Bool := false
  vfVecs : Nat := 8
  /-- messages held under R66 -/
  held : List MsiSrc := []
  /-- replays in a row of the flit under way on each relay link (R25) -/
  relayRun : Tab Nat := []
  /-- `ns` when each relay link last went DOWN (R25) -/
  relayAt : Tab Nat := []
  /-- latches of the PCIe functions 0–127 (R45) -/
  latches : Tab Latch := []
  /-- nanoseconds since power-on, host island clock -/
  ns : Nat := 0
  /-- `ns` at the end of the last reset of the host island pages (R72) -/
  pageNs : Nat := 0
  /-- per channel, `ns` when it entered its present state (R617) -/
  chSince : Tab Nat := []
  /-- JTAG: a nonce has been drawn and not consumed, failed responses, and the selected instruction (R613, R614) -/
  nonce : Option Nat := none
  jtagFails : Nat := 0
  jtagIr : Nat := 3
  jtagData : Nat := 0
  /-- the boundary register, and `ns` when the third failed response blocked the port (R613, R614) -/
  jtagBnd : Nat := 0
  jtagBlk : Nat := 0
  /-- standing CRIT conditions, SHUT readings and rail conditions of the package sensors (R584) -/
  crit : Nat := 0
  shutPrev : Nat := 0
  railOut : Nat := 0
  /-- `ns` at the last TEMP_CRIT entry of a package sensor, plus one; 0 for none (R591) -/
  critJrnl : Tab Nat := []
  /-- `ns` at the last sample of the package sensors, plus one; 0 for none (R584) -/
  sampleAt : Nat := 0
  /-- the address the SMBus port holds (R612) -/
  smbAddr : Nat := 0
  /-- the next free value to take (log 6); the model's own field -/
  free : Nat := 4
deriving DecidableEq, Repr

/-- The module variants (R2). -/
inductive Variant where
  | dk1 | dk2 | dk4
deriving DecidableEq, Repr

/-- Channels of a variant (R2). -/
def Variant.channels : Variant → Nat
  | .dk1 => 1 | .dk2 => 2 | .dk4 => 4

/-- The state of the module and the queue of commands that wait. -/
structure State where
  variant : Variant
  isl : Isl
  chans : Vector Chan 4
  /-- what the module has put out, newest first (log 7) -/
  out : List Out
  /-- commands waiting, first in first out -/
  pending : List Instr
deriving DecidableEq, Repr

/-- The module right after power-on reset: every channel OFF, every register at its reset value (R596, R598, R601). -/
def State.reset : State :=
  { variant := .dk4, isl := {}, chans := #v[{ free := 0 }, { free := 1 }, { free := 2 }, { free := 3 }], out := [], pending := [] }

end Sys2Proof.Machine
end

