-- ==== Sys2Proof/Machine/Ops.lean ====
section
/-! DEFINITION. The named operations over a channel and over the host island: register fields, counters, interrupt causes,
error capture, the tally unit, time stamps, and what the package does with the outputs of a channel. -/

namespace Sys2Proof.Machine

/-! Registers of a channel. -/

/-- The word a channel register holds. -/
def Chan.get (ch : Chan) (p : Pg) (off : Nat) : Word := rget chanReset ch.regs (p.key off)

/-- The channel with a register holding `v`. -/
def Chan.put (ch : Chan) (p : Pg) (off : Nat) (v : Word) : Chan :=
  { ch with regs := rput chanReset ch.regs (p.key off) v }

/-- The register as a number. -/
def Chan.nat (ch : Chan) (p : Pg) (off : Nat) : Nat := (ch.get p off).toNat

/-- The channel with a register holding the number `n`. -/
def Chan.putN (ch : Chan) (p : Pg) (off n : Nat) : Chan := ch.put p off (BitVec.ofNat 32 n)

/-- The value of a register field. -/
def Chan.getF (ch : Chan) (p : Pg) (f : Fld) : Nat := fld (ch.get p f.off) f.hi f.lo

/-- The channel with a register field holding `v`. -/
def Chan.putF (ch : Chan) (p : Pg) (f : Fld) (v : Nat) : Chan := ch.put p f.off (setFld (ch.get p f.off) f.hi f.lo v)

/-- A one-bit field as a Boolean. -/
def Chan.getB (ch : Chan) (p : Pg) (f : Fld) : Bool := decide (ch.getF p f ≠ 0)

/-- The channel with a one-bit field holding a Boolean. -/
def Chan.putB (ch : Chan) (p : Pg) (f : Fld) (b : Bool) : Chan := ch.putF p f (b2n b)

/-- A 64-bit value, low word first (R45). -/
def Chan.get64 (ch : Chan) (p : Pg) (off : Nat) : Nat := ch.nat p off + ch.nat p (off + 4) * 2 ^ 32

/-- The channel with a 64-bit value written (R45). -/
def Chan.put64 (ch : Chan) (p : Pg) (off v : Nat) : Chan := (ch.putN p off v).putN p (off + 4) (v / 2 ^ 32)

/-- Add to a 32-bit counter that saturates. -/
def Chan.inc (ch : Chan) (p : Pg) (off : Nat) (n : Nat := 1) : Chan := ch.putN p off (satAdd 32 (ch.nat p off) n)

/-- Add to a 64-bit counter that wraps. -/
def Chan.inc64 (ch : Chan) (p : Pg) (off : Nat) (n : Nat := 1) : Chan := ch.put64 p off ((ch.get64 p off + n) % 2 ^ 64)

/-- Add to a counter in a register field, saturating at the field's width. -/
def Chan.incF (ch : Chan) (p : Pg) (f : Fld) (n : Nat := 1) : Chan :=
  ch.putF p f (satAdd (f.hi + 1 - f.lo) (ch.getF p f) n)

/-- Write consecutive registers. -/
def Chan.putList (ch : Chan) (p : Pg) (off : Nat) : List Nat → Chan
  | [] => ch
  | v :: vs => Chan.putList (ch.putN p off v) p (off + 4) vs

/-- Does the block of the page work: enabled (R59), and not BUSY from a soft reset (R58)? -/
def Chan.enabled (ch : Chan) (p : Pg) : Bool := ch.getB p CTRL_ENABLE && !(ch.inReset.contains (p.key 0))

/-- Apply a function when the condition holds. -/
def Chan.when (ch : Chan) (c : Bool) (f : Chan → Chan) : Chan := if c then f ch else ch

/-- Apply a function for every element of a list. -/
def Chan.each {α : Type} (ch : Chan) (l : List α) (f : Chan → α → Chan) : Chan := l.foldl f ch

/-- Put an output on the channel's output queue (log 7). -/
def Chan.emit (ch : Chan) (o : Out) : Chan := { ch with outQ := ch.outQ ++ [o] }

/-- The next free value, below `2 ^ w`: nothing constrains it (log 6). -/
def Chan.freeVal (ch : Chan) (w : Nat) : Nat := (Config.freeValue ch.free).toNat % 2 ^ w

/-- One of a list where the spec leaves open which: the free value `r` chooses (log 6). -/
def pickOf (r : Nat) : List Nat → Option Nat
  | [] => none
  | a :: l => some ((a :: l).getD (r % (l.length + 1)) a)

/-- The channel after its next free value has been taken. The counters of the four channels and of the host island never
meet: they advance by 5 from different starts. -/
def Chan.takeFree (ch : Chan) : Chan := { ch with free := ch.free + 5 }

/-! Time stamps (R8, R9, R132). -/

/-- Network time in nanoseconds. -/
def Chan.timeNs (ch : Chan) : Nat := ch.time / 65536

/-- The T64 value of an instant in nanoseconds (R9). -/
def t64Of (ns : Nat) : Nat := (ns / 1000000000 % 2 ^ 32) * 2 ^ 32 + ns % 1000000000

/-- Is T64 value `a` at or before `b` (R11)? -/
def t64Le (a b : Nat) : Bool :=
  let d := (b / 2 ^ 32 + 2 ^ 32 - a / 2 ^ 32 % 2 ^ 32) % 2 ^ 32
  if d = 0 then decide (a % 2 ^ 32 ≤ b % 2 ^ 32) else decide (d < 2 ^ 31)

/-- The instant in nanoseconds that a T64 value names: the one nearest to `now` (R11). It may lie before the epoch. -/
def t64Inst (sec ns now : Nat) : Int :=
  let s : Nat := now / 1000000000
  let d : Nat := (sec + 2 ^ 32 - s % 2 ^ 32) % 2 ^ 32
  ((s : Int) + (if d < 2 ^ 31 then (d : Int) else (d : Int) - (2 ^ 32 : Nat))) * 1000000000 + (ns : Int)

/-- The instant that a 64-bit T64 value names (R9, R11). -/
def t64At (t now : Nat) : Int := t64Inst (t / 2 ^ 32) (t % 2 ^ 32) now

/-- The instant that a T64 value names, as a number; one before the epoch counts as the epoch, which has passed. -/
def t64Near (sec ns now : Nat) : Nat := (t64Inst sec ns now).toNat

/-- The present instant as T64. -/
def Chan.t64 (ch : Chan) : Nat := t64Of ch.timeNs

/-- The time state is FREE, so that network time is local time (R132). -/
def Chan.localTime (ch : Chan) : Bool := decide (ch.getF pgCosy COSY.STATUS_STATE = 0)

/-- The quality word of a journal entry (R123). -/
def Chan.quality (ch : Chan) : Nat :=
  let b := ch.nat pgCosy COSY.TE_BOUND
  let te := if b = 0xFFFFFFFF ∨ 32736 < b then 0x7FF else ceilDiv b 16
  ch.getF pgCosy COSY.STATUS_STATE * 2 ^ 13 + b2n ch.localTime * 2 ^ 12 + te

/-! The tally unit (R72–R77). -/

/-- The attributes of a tally event; `none` where the event carries no value for one (R75). -/
structure Attr where
  /-- privilege: 0 hardware, 1 keeper, 2 manager, 3 partition -/
  priv : Option Nat := none
  part : Option Nat := none
  agent : Option Nat := none
  addr : Option Nat := none
  cls : Option Nat := none
deriving DecidableEq, Repr

/-- Does the event pass the four filters of the page (R75)? -/
def Chan.tallyPass (ch : Chan) (p : Pg) (a : Attr) : Bool :=
  let fp := ch.get p 0x90
  let fm := ch.get p 0x94
  let privOk := match a.priv with
    | none => true
    | some k => nbit (fld fp 3 0) k &&
      (k != 3 || !(bit fp 13) || (match a.part with | none => true | some q => q == fld fp 12 8))
  let masterOk := match a.agent with
    | none => true
    | some g => !(bit fm 31) || (Nat.land g (fld fm 27 16) == Nat.land (fld fm 11 0) (fld fm 27 16))
  let addrOk := match a.addr with
    | none => true
    | some x => Nat.land x (ch.nat p 0xA4) == Nat.land (ch.nat p 0xA0) (ch.nat p 0xA4)
  let clsOk := match a.cls with
    | none => true
    | some k => nbit (fld (ch.get p 0x98) 7 0) k
  privOk && masterOk && addrOk && clsOk

/-- The event code counter `i` counts (R72). -/
def Chan.tallySel (ch : Chan) (p : Pg) (i : Nat) : Nat :=
  let w := ch.get p (oEVSEL (i / 4))
  fld w (8 * (i % 4) + 7) (8 * (i % 4))

/-- Does counter `i` count the event now (R74)? -/
def Chan.tallyOn (ch : Chan) (p : Pg) (code : Nat) (a : Attr) (i : Nat) : Bool :=
  let c := ch.get p oTALLY
  bit c 0 && bit c (8 + i) && !(bit c 2 && decide (ch.getF p ⟨oOVF, 7, 0⟩ ≠ 0)) && ch.tallySel p i == code && code != 0
    && (!(bit c (16 + i)) || ch.tallyPass p a)

/-- Add `n` to counter `i` of a page: a wrap sets OVF_STICKY (R74). -/
def tallyBump (p : Pg) (n : Nat) (r : Chan × Bool) (i : Nat) : Chan × Bool :=
  let v := r.1.get64 p (oCNT i) + n
  let c1 := r.1.put64 p (oCNT i) (v % 2 ^ 48)
  if v < 2 ^ 48 then (c1, r.2)
  else (c1.putF p ⟨oOVF, i, i⟩ 1, r.2 || !(bit (c1.get p oOVF) i))

/-- Add to the counters that count the event; a wrap sets OVF_STICKY (R74). Answers the channel and whether an OVF_STICKY
bit went from 0 to 1. The counters judge the freeze as it stood before the event. -/
def Chan.tallyAdd (ch : Chan) (p : Pg) (code : Nat) (a : Attr) (n : Nat) : Chan × Bool :=
  match p.kind with
  | none => (ch, false)
  | some k =>
    if k.cap.tally then
      (allBelow 8 (fun i => ch.tallyOn p code a i)).foldl (tallyBump p n) (ch, false)
    else (ch, false)

/-! Interrupt causes (R62–R68). -/

/-- The page's interrupt line is asserted. -/
def Chan.line (ch : Chan) (p : Pg) : Bool := decide (Nat.land (ch.nat p oCAUSE) (ch.nat p oENABLE) ≠ 0)

/-- Announce the page's line if it went from deasserted to asserted (R66). -/
def Chan.edge (ch : Chan) (p : Pg) (before : Bool) : Chan :=
  if !before && ch.line p then ch.emit (.irqPage (p.key 0)) else ch

/-- The lowest set bit of a number below 2^32. -/
def lowBit (n : Nat) : Nat := ((List.range 32).find? (fun i => nbit n i)).getD 0

/-- INT_CAUSE with the bits of `m` set, and INT_FIRST with the first of them (R64). -/
def Chan.orCause (ch : Chan) (p : Pg) (m : Nat) : Chan :=
  let old := ch.nat p oCAUSE
  let ch1 := ch.putN p oCAUSE (Nat.lor old m)
  if old = 0 ∧ m ≠ 0 then ch1.putN p oFIRST (2 ^ 31 + lowBit m) else ch1

/-- Remember that FAULT or DEGRADED of the page has gone from 0 to 1: the active keeper receives it (R67). -/
def Chan.noteCauses (ch : Chan) (p : Pg) (fresh : Nat) : Chan :=
  (ch.when (nbit fresh 0) (fun c => c.emit (.note 0 (p.key 0)))).when (nbit fresh 2) (fun c => c.emit (.note 1 (p.key 0)))

/-- Set the cause bits of `m` (R62): INT_CAUSE, INT_FIRST, one tally event 0x08 where a bit goes from 0 to 1 (R77), TALLY_OVF
where a counter wraps, and the page's interrupt line. -/
def Chan.raiseMask (ch : Chan) (p : Pg) (m : Nat) : Chan :=
  let before := ch.line p
  let fresh := Nat.land m (2 ^ 32 - 1 - ch.nat p oCAUSE)
  let r := ((ch.noteCauses p fresh).orCause p m).tallyAdd p 8 {} (b2n (decide (fresh ≠ 0)))
  (if r.2 then r.1.orCause p 0x10 else r.1).edge p before

/-- Set one cause bit. -/
def Chan.raise (ch : Chan) (p : Pg) (b : Nat) : Chan := ch.raiseMask p (2 ^ b)

/-- Clear cause bits; INT_FIRST clears when none is left (R64). -/
def Chan.clearCause (ch : Chan) (p : Pg) (m : Nat) : Chan :=
  let new := Nat.land (ch.nat p oCAUSE) (2 ^ 32 - 1 - Nat.land m (2 ^ 32 - 1))
  let ch1 := ch.putN p oCAUSE new
  if new = 0 then ch1.putN p oFIRST 0 else ch1

/-- A tally event of the page happens `n` times (R74). -/
def Chan.tally (ch : Chan) (p : Pg) (code : Nat) (a : Attr := {}) (n : Nat := 1) : Chan :=
  let r := ch.tallyAdd p code a n
  if r.2 then r.1.raise p 4 else r.1

/-! Error capture (R69–R71). -/

/-- The words ERR_CAP0–6 of an error: class, cause bit, 64-bit address, syndrome, detail (R69, R70). -/
def Chan.capWords (ch : Chan) (cls cause addr syn det : Nat) : List Nat :=
  [ch.t64, ch.t64 / 2 ^ 32, addr, addr / 2 ^ 32, syn,
    2 ^ 31 + b2n ch.localTime * 2 ^ 27 + (cls % 16) * 2 ^ 20 + (cause % 256) * 2 ^ 8, det]

/-- The severity of an error class, from WRITE_REJECT up to PACKAGE_FATAL (R71). -/
def clsRank (cls : Nat) : Nat := if cls = 7 then 1 else if cls = 0 then 0 else cls + 1

/-- An error of class `cls` and cause bit `cause` goes before the one captured in word `w` of ERR_CAP5, of the same cycle (R71). -/
def outranks (cls cause : Nat) (w : Word) : Bool :=
  decide (clsRank (fld w 23 20) < clsRank cls) || (clsRank (fld w 23 20) == clsRank cls && decide (cause < fld w 15 8))

/-- Record an error: class, cause bit, 64-bit address, syndrome, detail. Errors of one command are errors of one cycle: the capture that
one of them made takes the gravest (R71, log 44). -/
def Chan.capture (ch : Chan) (p : Pg) (cls cause addr syn det : Nat) : Chan :=
  match p.kind with
  | none => ch
  | some k =>
    if k.cap.errCap then
      let w := ch.get p (oERR 5)
      if bit w 31 then
        let c1 := if ch.outQ.contains (.note 2 (p.key 0)) && outranks cls cause w then
            ch.putList p (oERR 0) (ch.capWords cls cause addr syn det)
          else ch
        (c1.inc p (oERR 7)).putF p ⟨oERR 5, 30, 30⟩ 1
      else (ch.emit (.note 2 (p.key 0))).putList p (oERR 0) (ch.capWords cls cause addr syn det ++ [1])
    else ch

/-- Error classes (R70). -/
abbrev clsNone : Nat := 0
abbrev clsCorrected : Nat := 1
abbrev clsContained : Nat := 2
abbrev clsDegraded : Nat := 3
abbrev clsChanFatal : Nat := 4
abbrev clsPkgFatal : Nat := 5
abbrev clsReject : Nat := 7

/-- A write with a reserved encoding (R4): FAULT, and a WRITE_REJECT capture with the register offset as its address. -/
def Chan.rejectWrite (ch : Chan) (p : Pg) (off : Nat) : Chan :=
  ((ch.emit (.note 4 (p.key 0))).capture p clsReject 0 off 0 0).raise p 0

/-- The page's error corrected: CORRECTED_ERR and tally event 0x07 (R62, R77). -/
def Chan.corrected (ch : Chan) (p : Pg) : Chan := (ch.raise p 1).tally p 7

/-- PAGE_STAT.DEGRADED with its cause on a change from 0 to 1 (R57, R62). -/
def Chan.setDegraded (ch : Chan) (p : Pg) (b : Bool) : Chan :=
  let was := ch.getB p STAT_DEGRADED
  let ch1 := ch.putB p STAT_DEGRADED b
  if b && !was then ch1.raise p 2 else ch1

/-! The journal (R121–R126). -/

/-- Page number and die of a page as the SOURCE of a journal entry (R122). -/
def Pg.source (p : Pg) : Nat := p.die * 2 ^ 12 + p.num

/-- A journal entry without its sequence number (R122). -/
def jrnlEntry (t64 quality source cls ev detail : Nat) : Nat :=
  t64 % 2 ^ 64 + (quality % 2 ^ 16) * 2 ^ 64 + (source % 2 ^ 16) * 2 ^ 80 + (cls % 16 * 2 ^ 12 + ev % 2 ^ 12) * 2 ^ 96
    + (detail % 2 ^ 128) * 2 ^ 128

/-- The class of an entry. -/
def jrnlClass (e : Nat) : Nat := nbits e 111 108

/-- What a write to the journal made happen: which causes of the JRNL page it raises. -/
structure JrnlEv where
  frozen : Bool := false
  full : Bool := false
  lost : Bool := false
deriving DecidableEq, Repr

/-- Count a dropped entry. -/
def Jrnl.dropOne (j : Jrnl) : Jrnl := { j with drop := satAdd 32 j.drop 1 }

/-- Place an entry whose place is granted: the oldest is replaced once 16,384 are held (R126), and a replaced entry that
was not streamed is lost while streaming is on (R129). -/
def Jrnl.place (j : Jrnl) (stream : Bool) (e : Nat) : Jrnl × JrnlEv :=
  let w : BitVec 256 := BitVec.ofNat 256 (e + j.seq % 2 ^ 16 * 2 ^ 112)
  let j1 := { j with
    entries := tput 0 j.entries (j.wr % 16384) w
    wr := (j.wr + 1) % 16384
    seq := (j.seq + 1) % 65536
    cyc := j.cyc + 1 }
  if j.count < 16384 then
    ({ j1 with count := j.count + 1, unsent := j.unsent + 1, full := j.full || j.count + 1 == 16384 },
      { full := !j.full && j.count + 1 == 16384 })
  else if j.unsent < 16384 then ({ j1 with unsent := j.unsent + 1 }, {})
  else
    ({ j1 with streamIdx := (j.streamIdx + 1) % 16384, lost := if stream then satAdd 32 j.lost 1 else j.lost },
      { lost := stream })

/-- The active keeper writes an entry (R125, R126): the cycle limit, the mode, and the freeze. -/
def Jrnl.write (j : Jrnl) (modeStop freezeOnFatal stream : Bool) (e : Nat) : Jrnl × JrnlEv :=
  if j.frozen then ({ j.dropOne with frozenDrop := satAdd 32 j.frozenDrop 1 }, {})
  else if 256 ≤ j.cyc then ({ j.dropOne with cycDrop := satAdd 32 j.cycDrop 1 }, {})
  else if modeStop ∧ 16384 ≤ j.count then (j.dropOne, {})
  else
    let r := j.place stream e
    if freezeOnFatal ∧ (jrnlClass e = clsChanFatal ∨ jrnlClass e = clsPkgFatal) then
      ({ r.1 with frozen := true, frozenDrop := 0 }, { r.2 with frozen := true })
    else r

/-- The active keeper: 0 for A, 1 for B, by KEEP.STATUS.STATE (R67). -/
def Chan.active (ch : Chan) : Option Nat :=
  if ch.getF pgKeepA KEEP.STATUS_STATE = 4 then some 0
  else if ch.getF pgKeepB KEEP.STATUS_STATE = 4 then some 1 else none

/-- The replicated region of a keeper. -/
def Chan.region (ch : Chan) (k : Nat) : Region := if k = 0 then ch.regA else ch.regB

/-- The channel with a keeper's replicated region replaced. -/
def Chan.putRegion (ch : Chan) (k : Nat) (r : Region) : Chan := if k = 0 then { ch with regA := r } else { ch with regB := r }

/-- Change the journal of a keeper's region. -/
def Chan.putJrnl (ch : Chan) (k : Nat) (j : Jrnl) : Chan := ch.putRegion k { ch.region k with jrnl := j }

/-- The JRNL page of the FE die shows the journal of the active keeper's region (R127). -/
def Chan.syncJrnl (ch : Chan) (j : Jrnl) : Chan :=
  let c1 := ch.putN pgJrnl JRNL.STAT (b2n j.frozen * 2 ^ 31 + b2n j.full * 2 ^ 30 + j.count)
  let c2 := c1.putN pgJrnl JRNL.HEAD (j.wr * 2 ^ 16 + j.seq)
  ((c2.putN pgJrnl JRNL.DROP_CNT j.drop).putN pgJrnl JRNL.STREAM_IDX j.streamIdx).putN pgJrnl JRNL.STREAM_LOST j.lost

/-- Write an entry into the region of keeper `k`. A JRNL page that is not enabled takes none: each is dropped and counted (R59, log 29). -/
def Chan.jrnlPut (ch : Chan) (k e : Nat) : Chan :=
  let j := (ch.region k).jrnl
  let r := if ch.getB pgJrnl CTRL_ENABLE then
      j.write (ch.getB pgJrnl JRNL.CTRL_MODE) (ch.getB pgJrnl JRNL.CTRL_FREEZE_ON_FATAL) (ch.getB pgJrnl JRNL.CTRL_STREAM_EN) e
    else (j.dropOne, {})
  let c1 := (ch.putJrnl k r.1).syncJrnl r.1
  ((c1.when r.2.frozen (fun c => c.raise pgJrnl 8)).when r.2.full (fun c => c.raise pgJrnl 9)).when r.2.lost
    (fun c => c.raise pgJrnl 10)

/-- An event reaches the journal: the active keeper writes it; while there is none it waits (R67, R68). -/
def Chan.jrnlRaw (ch : Chan) (e : Nat) : Chan :=
  match ch.active with
  | some k => ch.jrnlPut k e
  | none => { ch with jrnlWait := ch.jrnlWait ++ [e] }

/-- Journal an event of a page. -/
def Chan.journal (ch : Chan) (p : Pg) (cls ev : Nat) (detail : Nat := 0) : Chan :=
  (ch.jrnlRaw (jrnlEntry ch.t64 ch.quality p.source cls ev detail)).emit (.note 3 (p.key 0))

/-- The page of a key (`Pg.key`). -/
def pageOf (key : Nat) : Pg := ⟨key / 0x2000000, key % 0x2000000 / 0x10000⟩

/-- The entry of a second that has ended. -/
def Chan.closeSecond (ch : Chan) (e : SecEvt) : Chan :=
  if e.lim < e.n then ch.journal (pageOf e.page) e.cls e.ev (e.base + e.n * e.mult) else ch

/-- Journal an event at most once per second of COSY.LOCAL: `sub` tells events of one number apart. Where the detail carries the count of
the second, `base + mult × count`, the entry waits for the end of its second (log 50); with `mult` 0 it is written at the first event. -/
def Chan.journalSec (ch : Chan) (p : Pg) (cls ev sub base mult : Nat) (n : Nat := 1) (lim : Nat := 0) : Chan :=
  let key := (p.die * 512 + p.num) * 2 ^ 20 + ev * 2 ^ 8 + sub
  let sec := ch.ns / 1000000000
  if mult = 0 then
    if tget 0 ch.jsec key ≤ sec then { ch with jsec := tput 0 ch.jsec key (sec + 1) }.journal p cls ev base
    else ch.emit (.note 3 (p.key 0))
  else
    let e := tget ({} : SecEvt) ch.secs key
    let new : SecEvt := { page := p.key 0, cls := cls, ev := ev, base := base, mult := mult, sec := sec, n := n, lim := lim }
    let same := decide (e.n ≠ 0) && e.sec == sec
    let c1 := if same then ch else ch.closeSecond e
    { c1 with secs := tput {} c1.secs key (if same then { e with n := e.n + n } else new) }.emit (.note 3 (p.key 0))

/-- The active keeper journals the events of the seconds that have ended, with their counts. -/
def Chan.journalSeconds (ch : Chan) : Chan :=
  let past := fun (e : Nat × SecEvt) => decide (e.2.sec < ch.ns / 1000000000)
  { ch with secs := ch.secs.filter (fun e => !(past e)) }.each (ch.secs.filter past) (fun c e =>
    c.closeSecond e.2)

/-- Add to a 32-bit counter, and set a cause when it leaves 0. -/
def Chan.incRaise (ch : Chan) (p : Pg) (off b : Nat) (n : Nat := 1) : Chan :=
  let c1 := ch.inc p off n
  if ch.nat p off = 0 ∧ n ≠ 0 then c1.raise p b else c1

/-- A soft reset of a page returns its block-specific registers to their reset values and clears the header bits of R58. -/
def Chan.softResetRegs (ch : Chan) (p : Pg) : Chan :=
  let c1 := { ch with regs := tclear ch.regs (p.key 0x100) (p.key 0xFFFC + 4) }
  (((c1.putF p CTRL_QUIESCE 0).putF p CTRL_TAKEOVER 0).putF p STAT_QUIESCED 0).clearCause p (2 ^ 32 - 1)

/-! Registers of the host island. -/

/-- The word a host island register holds. -/
def Isl.get (i : Isl) (p off : Nat) : Word := rget islReset i.regs (p * 0x10000 + off)

/-- The host island with a register holding `v`. -/
def Isl.put (i : Isl) (p off : Nat) (v : Word) : Isl := { i with regs := rput islReset i.regs (p * 0x10000 + off) v }

/-- The register as a number. -/
def Isl.nat (i : Isl) (p off : Nat) : Nat := (i.get p off).toNat

/-- The host island with a register holding the number `n`. -/
def Isl.putN (i : Isl) (p off n : Nat) : Isl := i.put p off (BitVec.ofNat 32 n)

/-- The value of a register field. -/
def Isl.getF (i : Isl) (p : Nat) (f : Fld) : Nat := fld (i.get p f.off) f.hi f.lo

/-- The host island with a register field holding `v`. -/
def Isl.putF (i : Isl) (p : Nat) (f : Fld) (v : Nat) : Isl := i.put p f.off (setFld (i.get p f.off) f.hi f.lo v)

/-- A one-bit field as a Boolean. -/
def Isl.getB (i : Isl) (p : Nat) (f : Fld) : Bool := decide (i.getF p f ≠ 0)

/-- The host island with a one-bit field holding a Boolean. -/
def Isl.putB (i : Isl) (p : Nat) (f : Fld) (b : Bool) : Isl := i.putF p f (b2n b)

/-- Add to a 32-bit counter that saturates. -/
def Isl.inc (i : Isl) (p off : Nat) (n : Nat := 1) : Isl := i.putN p off (satAdd 32 (i.nat p off) n)

/-- Write consecutive registers. -/
def Isl.putList (i : Isl) (p off : Nat) : List Nat → Isl
  | [] => i
  | v :: vs => Isl.putList (i.putN p off v) p (off + 4) vs

/-- A 64-bit value. -/
def Isl.get64 (i : Isl) (p off : Nat) : Nat := i.nat p off + i.nat p (off + 4) * 2 ^ 32

/-- Write a 64-bit value. -/
def Isl.put64 (i : Isl) (p off v : Nat) : Isl := (i.putN p off v).putN p (off + 4) (v / 2 ^ 32)

/-- The page's interrupt line is asserted. -/
def Isl.line (i : Isl) (p : Nat) : Bool := decide (Nat.land (i.nat p oCAUSE) (i.nat p oENABLE) ≠ 0)

/-- INT_CAUSE with the bits of `m` set, and INT_FIRST (R64). -/
def Isl.orCause (i : Isl) (p m : Nat) : Isl :=
  let old := i.nat p oCAUSE
  let i1 := i.putN p oCAUSE (Nat.lor old m)
  if old = 0 ∧ m ≠ 0 then i1.putN p oFIRST (2 ^ 31 + lowBit m) else i1

/-- Clear cause bits. -/
def Isl.clearCause (i : Isl) (p m : Nat) : Isl :=
  let new := Nat.land (i.nat p oCAUSE) (2 ^ 32 - 1 - Nat.land m (2 ^ 32 - 1))
  let i1 := i.putN p oCAUSE new
  if new = 0 then i1.putN p oFIRST 0 else i1

/-- Does the event pass the filters of the HOST page's tally unit (R75)? -/
def Isl.tallyPass (i : Isl) (p : Nat) (a : Attr) : Bool :=
  let fp := i.get p 0x90
  let fm := i.get p 0x94
  let privOk := match a.priv with
    | none => true
    | some k => nbit (fld fp 3 0) k &&
      (k != 3 || !(bit fp 13) || (match a.part with | none => true | some q => q == fld fp 12 8))
  let masterOk := match a.agent with
    | none => true
    | some g => !(bit fm 31) || (Nat.land g (fld fm 27 16) == Nat.land (fld fm 11 0) (fld fm 27 16))
  let addrOk := match a.addr with
    | none => true
    | some x => Nat.land x (i.nat p 0xA4) == Nat.land (i.nat p 0xA0) (i.nat p 0xA4)
  let clsOk := match a.cls with
    | none => true
    | some k => nbit (fld (i.get p 0x98) 7 0) k
  privOk && masterOk && addrOk && clsOk

/-- Does counter `n` of the HOST page count the event now (R74)? -/
def Isl.tallyOn (i : Isl) (p code : Nat) (a : Attr) (n : Nat) : Bool :=
  let c := i.get p oTALLY
  let w := i.get p (oEVSEL (n / 4))
  bit c 0 && bit c (8 + n) && !(bit c 2 && decide (i.getF p ⟨oOVF, 7, 0⟩ ≠ 0))
    && fld w (8 * (n % 4) + 7) (8 * (n % 4)) == code && code != 0 && (!(bit c (16 + n)) || i.tallyPass p a)

/-- Add `n` to counter `k` of a host island page. -/
def islBump (p n : Nat) (r : Isl × Bool) (k : Nat) : Isl × Bool :=
  let v := r.1.get64 p (oCNT k) + n
  let c1 := r.1.put64 p (oCNT k) (v % 2 ^ 48)
  if v < 2 ^ 48 then (c1, r.2)
  else (c1.putF p ⟨oOVF, k, k⟩ 1, r.2 || !(bit (c1.get p oOVF) k))

/-- Add to the tally counters of the HOST page, the one host island page with a tally unit. -/
def Isl.tallyAdd (i : Isl) (p code : Nat) (a : Attr) (n : Nat) : Isl × Bool :=
  if p = hpHost then
    (allBelow 8 (fun k => i.tallyOn p code a k)).foldl (islBump p n) (i, false)
  else (i, false)

/-- A page of the host island, and a ring: where an MSI-X message comes from, held until it can be sent (R66). -/
def Isl.hold (i : Isl) (src : MsiSrc) : Isl := if i.held.contains src then i else { i with held := i.held ++ [src] }

/-- Pool vectors of PF0 (R536). -/
def Isl.pfVectors (i : Isl) : Nat := 2048 - 127 * i.vfVecs

/-- The function and table entry of a pool vector (R536). -/
def Isl.vecOwner (i : Isl) (v : Nat) : Nat × Nat :=
  if v < i.pfVectors then (0, v) else ((v - i.pfVectors) / i.vfVecs + 1, (v - i.pfVectors) % i.vfVecs)

/-- MSI-X state of a function. -/
def Isl.fn (i : Isl) (f : Nat) : Fn := tget {} i.fns f

/-- The host island with a function's state replaced. -/
def Isl.putFn (i : Isl) (f : Nat) (x : Fn) : Isl := { i with fns := tput {} i.fns f x }

/-- Can the message be delivered now (R66 items 4 and 5)? The HOST block sends none while it is disabled (R59). -/
def Isl.canSend (i : Isl) (f e : Nat) : Bool :=
  let x := i.fn f
  !i.perst && i.l0 && i.getB hpHost CTRL_ENABLE && x.en && !x.fmask && !(nbit x.vmask e)

/-! The module. -/

/-- A channel of the module. -/
def State.chan (s : State) (c : Fin 4) : Chan := s.chans[c.val]

/-- The module with a channel replaced. -/
def State.setChan (s : State) (c : Fin 4) (ch : Chan) : State := { s with chans := s.chans.set c.val ch c.isLt }

/-- Does the variant have the channel (R2)? -/
def State.hasChan (s : State) (c : Fin 4) : Bool := decide (c.val < s.variant.channels)

/-- PWR.CH_STAT c.STATE (R617). -/
def State.chState (s : State) (c : Fin 4) : Nat := s.isl.getF hpPwr (PWRH.CH_STAT_STATE c.val)

/-- The channel's blocks run: WAIT_FW or RUNNING (R598). -/
def State.chLive (s : State) (c : Fin 4) : Bool :=
  s.hasChan c && (s.chState c == 3 || s.chState c == 4) && !(s.isl.dead && c.val == 0)

/-- The channel's pages answer: its dies are out of reset, and not without power (R21, R588, R598). -/
def State.chPages (s : State) (c : Fin 4) : Bool :=
  s.hasChan c && !(s.isl.dead && c.val == 0) && (s.chState c == 2 || s.chState c == 3 || s.chState c == 4
    || (s.chState c == 6 && !(nbit s.isl.forcedOff c.val)))

/-- Is the line of the message's source still asserted (R66)? A ring's message needs no line. -/
def State.lineOf (s : State) : MsiSrc → Bool
  | .isl p => s.isl.line p
  | .page c key =>
    if h : c < 4 then
      let ch := s.chan ⟨c, h⟩
      ch.line ⟨key / 0x2000000, key % 0x2000000 / 0x10000⟩
    else false
  | .ring _ _ _ => true

/-- INT_ROUTE of a page source. -/
def State.routeOf (s : State) : MsiSrc → Word
  | .isl p => s.isl.get p oROUTE
  | .page c key =>
    if h : c < 4 then (s.chan ⟨c, h⟩).get ⟨key / 0x2000000, key % 0x2000000 / 0x10000⟩ oROUTE else 0
  | .ring _ _ _ => 0

/-- Send the MSI-X message of pool vector `v`, or hold it while the function cannot receive it (R66). -/
def State.sendVec (s : State) (src : MsiSrc) (v : Nat) : State :=
  let o := s.isl.vecOwner v
  if s.isl.canSend o.1 o.2 then { s with out := .msix o.1 o.2 :: s.out }
  else { s with isl := s.isl.hold src }

/-- A page's line rose: the message of VECTOR is sent when DEST includes the host (R65–R67). -/
def State.pageIrq (s : State) (src : MsiSrc) : State :=
  let r := s.routeOf src
  if bit r 16 then s.sendVec src (fld r 10 0) else s

/-- What the package does with one output of channel `c`. -/
def State.deliverOne (c : Nat) (ringVec : Nat → Nat → Nat) (s : State) : Out → State
  | .irqPage key => s.pageIrq (.page c key)
  | .irqRing p r => s.sendVec (.ring c p r) (ringVec p r)
  | .note _ _ => s
  | o => { s with out := o :: s.out }

/-- Set cause bits of a host island page and send its message if the line rises (R66, R67). -/
def State.islRaiseMask (s : State) (p m : Nat) : State :=
  let before := s.isl.line p
  let fresh := Nat.land m (2 ^ 32 - 1 - s.isl.nat p oCAUSE)
  let r := (s.isl.orCause p m).tallyAdd p 8 {} (b2n (decide (fresh ≠ 0)))
  let i2 := if r.2 then r.1.orCause p 0x10 else r.1
  let s1 := { s with isl := i2 }
  if !before && i2.line p then s1.pageIrq (.isl p) else s1

/-- Set one cause bit of a host island page. -/
def State.islRaise (s : State) (p b : Nat) : State := s.islRaiseMask p (2 ^ b)

/-- A tally event of the HOST page (R74). -/
def State.islTally (s : State) (p code : Nat) (a : Attr) (n : Nat := 1) : State :=
  let r := s.isl.tallyAdd p code a n
  if r.2 then { s with isl := r.1 }.islRaise p 4 else { s with isl := r.1 }

/-- Change the host island. -/
def State.onIsl (s : State) (f : Isl → Isl) : State := { s with isl := f s.isl }

/-- Put an output of the module. -/
def State.emit (s : State) (o : Out) : State := { s with out := o :: s.out }

/-- The time stamp of a host island event: channel 0's Cosy, or local time while channel 0's data path is in reset (R71). -/
def State.islTime (s : State) : Nat × Bool :=
  if s.chPages 0 then ((s.chan 0).t64, (s.chan 0).localTime) else (t64Of s.isl.ns, true)

/-- Record an error on a host island page (R69–R71). -/
def State.islCapture (s : State) (p cls cause addr syn det : Nat) : State :=
  match hpKind p with
  | none => s
  | some k =>
    if k.cap.errCap then
      if bit (s.isl.get p (oERR 5)) 31 then
        s.onIsl (fun i => (i.inc p (oERR 7)).putF p ⟨oERR 5, 30, 30⟩ 1)
      else
        s.onIsl (fun i => i.putList p (oERR 0) [s.islTime.1, s.islTime.1 / 2 ^ 32, addr, addr / 2 ^ 32, syn,
          2 ^ 31 + b2n s.islTime.2 * 2 ^ 27 + (cls % 16) * 2 ^ 20 + (cause % 256) * 2 ^ 8, det, 1])
    else s

end Sys2Proof.Machine
end

