-- ==== Sys2Proof/Machine/Slots.lean ====
section
/-! DEFINITION. Where a port's registers stand (R225), the slots and calendars of the FlexE groups (R237–R239, R242), and what the slot switch
puts into an egress slot (R245, R248–R250). -/

namespace Sys2Proof.Machine

/-- The LINE page of a port. -/
def portPg (p : Nat) : Pg := if p < 32 then pgLine (p / 4) else pgLine ((p - 32) / 4)

/-- The block of a port within its LINE page. -/
def portBlk (p : Nat) : Nat := if p < 32 then p % 4 else 4 + (p - 32) % 4

/-- A field of a port's registers. -/
def Chan.portF (ch : Chan) (p : Nat) (f : Nat → Fld) : Nat := ch.getF (portPg p) (f (portBlk p))

/-- A one-bit field of a port's registers. -/
def Chan.portB (ch : Chan) (p : Nat) (f : Nat → Fld) : Bool := decide (ch.portF p f ≠ 0)

/-- PORT_CFG.KIND: 0 NONE, 1 LANE, 2 CLIENT (R205). -/
def Chan.portKind (ch : Chan) (p : Nat) : Nat := ch.portF p LINE.PORT_CFG_KIND

/-- The group is enabled, at a FLEX block that does its work (R59, R240). -/
def Chan.grpOn (ch : Chan) (g : Nat) : Bool := ch.enabled pgFlex && ch.getB pgFlex (FLEX.GRP_CFG_EN g)

/-- GRP_STAT.STATE: 0 DISABLED, 1 DOWN, 2 ALIGNING, 3 UP (R240). -/
def Chan.grpState (ch : Chan) (g : Nat) : Nat := ch.getF pgFlex (FLEX.GRP_STAT_STATE g)

/-- Enabled members of a group. -/
def Chan.members (ch : Chan) (g : Nat) : List Nat := allBelow 8 (fun k => ch.getB pgFlex (FLEX.MEMBER_EN g k))

/-- The port of a member. -/
def Chan.memberPort (ch : Chan) (g k : Nat) : Nat := ch.getF pgFlex (FLEX.MEMBER_PORT g k)

/-- 100G instances that a PHY of a SPEED carries (R237). -/
def instancesOf (speed : Nat) : Nat := if speed = 4 then 1 else if speed = 5 then 2 else if speed = 6 then 4 else 0

/-- The slot count S of a group (R239). -/
def Chan.slotCount (ch : Chan) (g : Nat) : Nat :=
  20 * ((ch.members g).foldl (fun n k => n + instancesOf (ch.portF (ch.memberPort g k) LINE.PORT_CFG_SPEED)) 0)

/-- The client ID that the transmit calendar `c` of a group gives slot `j` (R255). -/
def Chan.txCal (ch : Chan) (g c j : Nat) : Nat :=
  let i := (g * 2 + c) * 320 + j / 2
  if j % 2 = 0 then ch.getF pgFlex (FLEX.TXCAL_EVEN i) else ch.getF pgFlex (FLEX.TXCAL_ODD i)

/-- The label that the expected calendar `c` of a group gives slot `j`. -/
def Chan.expCal (ch : Chan) (g c j : Nat) : Nat :=
  let i := (g * 2 + c) * 320 + j / 2
  if ch.getB pgFlex (FLEX.GRP_CFG_EXP_FROM_TX g) then ch.txCal g c j
  else if j % 2 = 0 then ch.getF pgFlex (FLEX.EXPCAL_EVEN i) else ch.getF pgFlex (FLEX.EXPCAL_ODD i)

/-- The transmit calendar in use. -/
def Chan.txLetter (ch : Chan) (g : Nat) : Nat := ch.getF pgFlex (FLEX.GRP_STAT_TX_CAL g)

/-- The received calendar. -/
def Chan.rxLetter (ch : Chan) (g : Nat) : Nat := ch.getF pgFlex (FLEX.GRP_STAT_RX_CAL g)

/-- The LABEL_STAT bit of an ingress slot. -/
def labelBit (g j : Nat) : Fld := ⟨FLEX.LABEL_STAT g (j / 32), j % 32, j % 32⟩

/-- The label mismatch defect stands on an ingress slot (R249). -/
def Chan.labelMm (ch : Chan) (g j : Nat) : Bool := ch.getB pgFlex (labelBit g j)

/-- Index of a connection memory entry (R259). -/
def connIdx (g page j : Nat) : Nat := (g * 2 + page) * 640 + j

/-- A connection memory entry. -/
def Chan.conn (ch : Chan) (i : Nat) : Word := ch.get pgSlot (0x4000 + 4 * i)

/-- TYPE, SRC_GROUP and SRC_SLOT of an entry (R245). -/
def connType (w : Word) : Nat := fld w 31 30
def connGroup (w : Word) : Nat := fld w 26 24
def connSlot (w : Word) : Nat := fld w 9 0

/-- The recorded ID of an XCONNECT entry differs from the source slot's ID now (R250). -/
def Chan.skewed (ch : Chan) (i : Nat) : Bool :=
  let w := ch.conn i
  let id := tget 0 ch.flex.ids i
  connType w == 1 && id != 0 && ch.expCal (connGroup w) (ch.rxLetter (connGroup w)) (connSlot w) + 1 != id

/-- What fills an egress slot: idle blocks; an ingress slot of a group, block for block; the client mapper (R245). -/
inductive SlotFill where
  | idle
  /-- idle in place of the blocks of an ingress slot (R240, R248–R250) -/
  | idled
  | slot (g j : Nat)
  | mapper
deriving DecidableEq, Repr

/-- What fills egress slot `j` of a group (R240, R245, R248–R250): under fallback, ingress slot `j` of FB_PEER; otherwise what the entry of the
active page says. -/
def Chan.slotFill (ch : Chan) (g j : Nat) : SlotFill :=
  if ch.getB pgSlot (SLOT.GRP_STAT_FB_ACTIVE g) then
    let s := ch.getF pgSlot (SLOT.GRP_CTRL_FB_PEER g)
    if !(ch.getB pgSlot (SLOT.GRP_CTRL_FB_EN g)) || decide (ch.slotCount s ≤ j) || ch.grpState s != 3 || ch.labelMm s j then .idled
    else .slot s j
  else
    let i := connIdx g (ch.getF pgSlot (SLOT.GRP_STAT_ACTIVE_PAGE g)) j
    let w := ch.conn i
    if connType w = 2 then .mapper
    else if connType w = 1 then
      if ch.grpState (connGroup w) != 3 || ch.labelMm (connGroup w) (connSlot w) || ch.skewed i then .idled
      else .slot (connGroup w) (connSlot w)
    else .idle

/-- Egress slot `j` of the group carries idle in place of blocks (R240, R248–R250). -/
def Chan.idled (ch : Chan) (g j : Nat) : Bool := ch.slotFill g j == .idled

/-- `n` ns pass over a group: each idled slot replaces its blocks, 1,023 of every 20,461 at 1.5625 blocks per ns (R240, R249). -/
def Chan.countIdle (ch : Chan) (n g : Nat) : Chan :=
  let k := ((List.range (ch.slotCount g)).filter (fun j => ch.idled g j)).length
  if k = 0 then ch
  else
    let t := tget 0 ch.flex.idleFrac g + n * k * 25575
    { ch with flex := { ch.flex with idleFrac := tput 0 ch.flex.idleFrac g (t % 327376) } }.inc64 pgSlot (SLOT.IDLE_BLK g) (t / 327376)

/-- `n` ns pass over the slot switch. -/
def Chan.countIdleAll (ch : Chan) (n : Nat) : Chan :=
  if ch.enabled pgSlot then ch.each (allBelow 8 (fun g => ch.grpOn g)) (fun c g => c.countIdle n g) else ch

end Sys2Proof.Machine
end

