-- ==== Sys2Proof/Machine/Clock.lean ====
section
/-! DEFINITION. The clock of a channel: COSY.LOCAL, network time and its corrections (R130, R132, R150). -/

namespace Sys2Proof.Machine

/-- COSY.FREQ_ADJ as a signed number of 2^-48 (R130). -/
def Chan.freqAdj (ch : Chan) : Int := toSigned (ch.get64 pgCosy COSY.FREQ_ADJ) 48

/-- The slew rate that applies, in units of 2^-8 ns/s: SLEW_RATE within ±MAX_SLEW (R130). -/
def Chan.slewApplied (ch : Chan) : Int :=
  let m : Int := ((ch.getF pgCosy COSY.SLEW_CFG_MAX_SLEW * 256 : Nat) : Int)
  max (-m) (min m (toSigned (ch.nat pgCosy COSY.SLEW_RATE) 32))

/-- The sum of both corrections, in units of 2^-48 × 10^-9, within ±3 × 10^-4 (R150). -/
def Chan.rateSum (ch : Chan) : Int :=
  let lim : Int := 300000 * 2 ^ 48
  max (-lim) (min lim (ch.freqAdj * 1000000000 + ch.slewApplied * 2 ^ 40))

/-- The Cosy counter after `n` nanoseconds of its clock (R130). -/
def Chan.advanceTime (ch : Chan) (n : Nat) : Chan :=
  let den : Int := 2 ^ 32 * 1000000000
  let num : Int := (ch.timeFrac : Int) + (n : Int) * ch.rateSum
  { ch with
    ns := (ch.ns + n) % 2 ^ 64
    time := (ch.time + n * 65536 + num / den).toNat % (2 ^ 48 * 1000000000 * 65536)
    timeFrac := (num % den).toNat }

/-- Cycles of a die's clock since channel reset (R72): 1.6 GHz on the FE die, 1.5 GHz on the TM die. -/
def cyclesOf (die ns : Nat) : Nat := (if die = 0 then ns * 8 / 5 else ns * 3 / 2) % 2 ^ 64

/-- Cycles of `n` that pass before the first counter that counts them wraps, the wrap included, where that wrap freezes the counters
(R73, R74). `left` are the cycles to the wraps of those counters. -/
def frozenAfter (freeze : Bool) (left : List Nat) (n : Nat) : Nat := if freeze then left.foldl min n else n

/-- `n` cycles of a page's block clock pass: tally event 0x01 (R74, R77). -/
def Chan.countCycles (ch : Chan) (p : Pg) (n : Nat) : Chan :=
  let left := (allBelow 8 (fun i => ch.tallyOn p 1 {} i)).map (fun i => 2 ^ 48 - ch.get64 p (oCNT i))
  ch.tally p 1 {} (frozenAfter (bit (ch.get p oTALLY) 2) left n)

/-- The pages whose tally unit is enabled. -/
def Chan.tallyPages (ch : Chan) : List Pg :=
  (ch.regs.filter (fun e => e.1 % 0x10000 == oTALLY && bit e.2 0)).map (fun e =>
    ⟨e.1 / 0x2000000, e.1 % 0x2000000 / 0x10000⟩)

/-- The channel's clocks run on by `n` nanoseconds of COSY.LOCAL: time advances, and the block clocks' cycles (R77) and the blocks that the
slot switch replaces by idle (R249) are counted. -/
def Chan.clockOn (ch : Chan) (n : Nat) : Chan :=
  let c1 := (ch.countIdleAll n).advanceTime n
  c1.each ch.tallyPages (fun c p => c.countCycles p (cyclesOf p.die c1.ns - cyclesOf p.die ch.ns))

/-- A command that the spec ties to an instant finds the clock there at the earliest (log 3): the clock runs on to COSY.LOCAL
`t` if it has not reached it. -/
def Chan.runTo (ch : Chan) (t : Nat) : Chan := if ch.ns < t then ch.clockOn (t - ch.ns) else ch

/-- The clock runs on to the first instant at which network time has reached `t` ns (log 3). -/
def Chan.runNet (ch : Chan) (t : Nat) : Chan :=
  if t ≤ ch.timeNs then ch
  else
    let den : Int := 2 ^ 32 * 1000000000
    let need : Int := ((t * 65536 : Nat) - (ch.time : Int)) * den - (ch.timeFrac : Int)
    let per : Int := 65536 * den + ch.rateSum
    ch.clockOn ((need + per - 1) / per).toNat

end Sys2Proof.Machine
end

