-- ==== Sys2Proof/Machine/Views.lean ====
section
/-! DEFINITION. What a read of a register returns where it is not simply the stored word: page headers, claims, clocks. -/

namespace Sys2Proof.Machine

/-- The KEEP page of keeper A (0) or B (1). -/
def pgKeep (k : Nat) : Pg := if k = 0 then pgKeepA else pgKeepB

/-- The working state of keeper A (0) or B (1). -/
def Chan.keeper (ch : Chan) (k : Nat) : Keeper := if k = 0 then ch.keepA else ch.keepB

/-- The channel with a keeper's working state replaced. -/
def Chan.putKeeper (ch : Chan) (k : Nat) (x : Keeper) : Chan := if k = 0 then { ch with keepA := x } else { ch with keepB := x }

/-- The claim a keeper presents (R86). -/
def Chan.claim (ch : Chan) (k : Nat) : Nat := ch.getF (pgKeep k) KEEP.CLAIM_CLAIM

/-- KEEP.STATUS.STATE of a keeper (R114). -/
def Chan.kstate (ch : Chan) (k : Nat) : Nat := ch.getF (pgKeep k) KEEP.STATUS_STATE

/-- The outputs of a keeper's cores reach the pages: they are blocked in REPAIR, and the cores stand still in OFF, FAILED and HALTED
(R80, R93, R103, R120). -/
def Chan.busOn (ch : Chan) (k : Nat) : Bool := decide (1 ≤ ch.kstate k) && decide (ch.kstate k ≤ 4)

/-- The keeper that the claim gates let write (R87). -/
def Chan.winner (ch : Chan) : Option Nat :=
  if ch.claim 0 = 0 ∧ ch.claim 1 = 0 then none
  else if ch.claim 1 ≤ ch.claim 0 then some 0 else some 1

/-- The higher of the two presented claims (R57). -/
def Chan.claimSeen (ch : Chan) : Nat := max (ch.claim 0) (ch.claim 1)

/-- Both keepers have relinquished (R105). -/
def Chan.noKeeper (ch : Chan) : Bool := decide (ch.claimSeen = 0)

/-- PAGE_ID of a channel page (R53). -/
def pageId (k : PageKind) (inst die chan : Nat) : Nat := k.type * 2 ^ 16 + inst * 2 ^ 8 + die * 2 ^ 4 + chan

/-- PAGE_REV of a page (R54). -/
def pageRev (k : PageKind) (die : Nat) : Nat :=
  2 ^ 24 + (Config.revMinor k.type).toNat * 2 ^ 16 + (Config.stepping k.type die).toNat

/-- The BUSY fields of a kind of page: one for each kind of block command (R57, R620). -/
def PageKind.busyFlds : PageKind → List Fld
  | .keepA | .keepB => [KEEP.FW_STAT_BUSY, KEEP.SVC_STAT_BUSY]
  | .dbg => [DBG.STAT_BUSY]
  | .tbl => [TBL.CMD_STAT_BUSY, TBL.TCTRL_STAT_BUSY, TBL.KCMD_STAT_BUSY, TBL.KTCTRL_STAT_BUSY]
  | .caddy => [CADDY.REGION_STAT_BUSY, CADDY.FREE_STAT_BUSY, CADDY.KREGION_STAT_BUSY]
  | .voq => [VOQ.FLUSH_STAT_BUSY]
  | .sched => [SCHED.NODE_STAT_BUSY]
  | .hbmc => [HBMC.KTRAIN_STAT_BUSY]
  | .part => [PART.CMD_STAT_BUSY]
  | .testFe | .testTm => [TEST.DUMP_STAT_BUSY]
  | .host | .relay | .pwrH | .sensH | .jrnlFe | .jrnlTm | .brdgFe | .brdgTm | .cosy | .act | .brew | .line | .flex | .slot | .pm | .disp
  | .pclu | .strn | .tern | .learn | .samp | .adm | .spout | .fab | .pwrFe | .pwrTm | .sensFe | .sensTm => []

/-- A block command of the page is in progress (R57). -/
def Chan.cmdBusy (ch : Chan) (k : PageKind) (p : Pg) : Bool := k.busyFlds.any (fun f => ch.getB p f)

/-- PAGE_STAT as read: BUSY while a block command runs too and CLAIM_SEEN on pages behind a claim gate (R57), and FAULT on the FE
die's KEEP page while both keepers are at 0x00 (R105). No page of a die reads READY before its BIST has completed (R572). -/
def Chan.statView (ch : Chan) (k : PageKind) (p : Pg) : Word :=
  let w0 := if nbit ch.bistDone p.die then ch.get p oSTAT else setFld (ch.get p oSTAT) 0 0 0
  let w := if ch.cmdBusy k p then setFld w0 2 2 1 else w0
  let w1 := if k.cap.gate then setFld w 15 8 ch.claimSeen else w
  if k = .keepA ∧ ch.noKeeper then setFld w1 4 4 1 else w1

/-- KEEP.STATUS as read (R114). -/
def Chan.keepStatus (ch : Chan) (k : Nat) : Word :=
  let w := ch.get (pgKeep k) KEEP.STATUS
  let w1 := setFld (setFld w 23 16 (ch.claim (1 - k))) 15 8 (ch.claim k)
  setFld w1 1 1 (b2n (decide (ch.pref = k)))

/-- The partition that PART.SEL names. -/
def Chan.selPart (ch : Chan) : Nat := ch.getF pgPart ⟨0x100, 4, 0⟩

/-- A partition's state. -/
def Chan.part (ch : Chan) (p : Nat) : Part := rget partDefault ch.parts p

/-- The channel with a partition replaced. -/
def Chan.putPart (ch : Chan) (p : Nat) (x : Part) : Chan := { ch with parts := rput partDefault ch.parts p x }

/-- A ring of a partition. -/
def Chan.ring (ch : Chan) (p r : Nat) : Ring := tget {} ch.rings (32 * p + r)

/-- The channel with a ring replaced. -/
def Chan.putRing (ch : Chan) (p r : Nat) (x : Ring) : Chan := { ch with rings := tput {} ch.rings (32 * p + r) x }

/-- STAT of a ring (R540). -/
def Ring.stat (r : Ring) : Nat := b2n r.en * 2 ^ 31 + b2n r.stopped * 2 ^ 30 + b2n r.error * 2 ^ 29 + r.errCode

/-- PART.STAT of a partition (R560). -/
def Part.stat (p : Part) : Nat := p.state * 2 ^ 30 + p.step * 2 ^ 27 + p.failStep * 2 ^ 24

/-- The partition-indexed and ring-indexed registers of the PART page (R559). -/
def Chan.partView (ch : Chan) (off : Nat) : Option Nat :=
  let p := ch.part ch.selPart
  let rs := ch.get pgPart 0x180
  let r := ch.ring (fld rs 12 8) (fld rs 4 0)
  if off = 0x10C then some p.stat
  else if off = 0x110 then some p.qcfg.toNat
  else if off = 0x114 then some p.qrFirst
  else if off = 0x118 then some p.qrCount
  else if off = 0x120 then some p.id0.toNat
  else if off = 0x124 then some p.id1.toNat
  else if off = 0x128 then some p.id2.toNat
  else if off = 0x12C then some p.id3.toNat
  else if off = 0x184 then some r.base
  else if off = 0x188 then some (r.base / 2 ^ 32)
  else if off = 0x18C then some r.cfg.toNat
  else if off = 0x190 then some r.aux
  else if off = 0x194 then some r.stat
  else none

end Sys2Proof.Machine
end

