-- ==== Sys2Proof/Machine/Ctl.lean ====
section
/-! DEFINITION. The control state that the keepers hold (R79, R81), and the qualification of the time and frequency sources (R136, R137),
which LINE and Cosy share. -/

namespace Sys2Proof.Machine

/-- The control state of keeper `k`'s region. -/
def Chan.ctl (ch : Chan) (k : Nat) : KCtl := (ch.region k).ctl

/-- The channel with the control state of keeper `k`'s region replaced. -/
def Chan.putCtl (ch : Chan) (k : Nat) (x : KCtl) : Chan := ch.putRegion k { ch.region k with ctl := x }

/-- The control state that the data path uses: the active keeper's, or that of the keeper that was active last while there is none
(R81). -/
def Chan.ctlNow (ch : Chan) : KCtl := ch.ctl (ch.active.getD ch.lastAct)

/-- Change the working state of Cosy's hardware. -/
def Chan.onCosy (ch : Chan) (f : CosyW → CosyW) : Chan := { ch with cosy := f ch.cosy }

/-- Change the control state of the active keeper; nothing changes while there is none. -/
def Chan.onCtl (ch : Chan) (f : KCtl → KCtl) : Chan :=
  match ch.active with
  | some k => ch.putCtl k (f (ch.ctl k))
  | none => ch

/-- The SRC_STAT bit of a source code (R163). -/
def srcBit (code : Nat) : Nat := if code = 1 then 1 else if code = 2 then 2 else if code = 0x10 then 16 else 17

/-- The source is qualified. -/
def Chan.srcOk (ch : Chan) (code : Nat) : Bool := bit (ch.get pgCosy COSY.SRC_STAT) (srcBit code)

/-- A source qualifies (R136): WTR counts from here. -/
def Chan.srcGain (ch : Chan) (code : Nat) : Chan :=
  if ch.srcOk code then ch
  else (ch.putF pgCosy ⟨COSY.SRC_STAT, srcBit code, srcBit code⟩ 1).onCosy (fun w => { w with requal := tput 0 w.requal code (ch.ns + 1) })

/-- The last measured offset of a source, as ERR_CAP4 and the journal show it (R170). -/
def KCtl.offsetOf (x : KCtl) (code : Nat) : Nat := let v := tget 0 x.lastOff code; if v = 0 then 0x80000000 else v - 1

/-- A qualified source is disqualified (R136). -/
def Chan.srcLost (ch : Chan) (code : Nat) : Chan :=
  if ch.srcOk code = false then ch
  else
    let off := ch.ctlNow.offsetOf code
    let c0 := (ch.putF pgCosy ⟨COSY.SRC_STAT, srcBit code, srcBit code⟩ 0).onCosy (fun w =>
      { w with disq := if w.disq.contains code then w.disq else code :: w.disq })
    let c1 := c0.onCtl (fun x => { x with overCnt := if x.tsrc = code then 0 else x.overCnt })
    ((c1.capture pgCosy clsContained 10 code off 0).raise pgCosy 10).journal pgCosy clsContained 0xA (code + off * 2 ^ 32)

end Sys2Proof.Machine
end

