-- ==== Sys2Proof/Machine/Flags.lean ====
section
/-! DEFINITION. The flags of a parse thread (R307), the predicate (R309), and the arithmetic of ALU, HASH and CSUM with the
flags it sets (R316, R317). -/

namespace Sys2Proof.Machine

/-- Flag numbers (R307). -/
abbrev fZ : Nat := 0
abbrev fC : Nat := 1
abbrev fN : Nat := 2
abbrev fOOB : Nat := 3
abbrev fS : Nat := 4
abbrev fALREADY : Nat := 5
abbrev fLOCKERR : Nat := 6
abbrev fBUSY : Nat := 7
abbrev fEMPTY : Nat := 8

/-- A flag of the thread. -/
def Thread.flag (t : Thread) (i : Nat) : Bool := nbit t.flags i

/-- The thread with a flag set to `b`. -/
def Thread.setFlag (t : Thread) (i : Nat) (b : Bool) : Thread := { t with flags := setNbit t.flags i b }

/-- Does the predicate COND hold (R309)? -/
def condHolds (flags cond : Nat) : Bool :=
  if cond = 0 then true
  else if cond = 1 then nbit flags fZ
  else if cond = 2 then !(nbit flags fZ)
  else if cond = 3 then nbit flags fC
  else if cond = 4 then !(nbit flags fC)
  else if cond = 5 then nbit flags fN
  else if cond = 6 then !(nbit flags fN)
  else if cond = 7 then nbit flags fS
  else if cond = 8 then !(nbit flags fS)
  else if cond = 9 then nbit flags fOOB
  else if cond = 0xA then !(nbit flags fOOB)
  else if cond = 0xB then nbit flags fBUSY
  else if cond = 0xC then nbit flags fEMPTY
  else if cond = 0xD then nbit flags fALREADY
  else if cond = 0xE then nbit flags fLOCKERR
  else false

/-- Z and N from a 64-bit result. -/
def Thread.setZN (t : Thread) (v : BitVec 64) : Thread := (t.setFlag fZ (v == 0)).setFlag fN v.msb

/-- Result and carry of FUNC (R316). -/
def aluFunc (func : Nat) (a b : BitVec 64) : BitVec 64 × Bool :=
  let s := b.toNat % 64
  if func = 0 then (a + b, decide (2 ^ 64 ≤ a.toNat + b.toNat))
  else if func = 1 ∨ func = 0xA then (a - b, decide (a.toNat < b.toNat))
  else if func = 2 ∨ func = 0xB then (a &&& b, false)
  else if func = 3 then (a ||| b, false)
  else if func = 4 then (a ^^^ b, false)
  else if func = 5 then (a &&& ~~~b, false)
  else if func = 6 then (a <<< s, s != 0 && a.getLsbD (64 - s))
  else if func = 7 then (a >>> s, s != 0 && a.getLsbD (s - 1))
  else if func = 8 then (a.sshiftRight s, s != 0 && a.getLsbD (s - 1))
  else if func = 9 then (b, false)
  else if func = 0xC then (if a.toNat ≤ b.toNat then a else b, false)
  else (if a.toNat ≤ b.toNat then b else a, false)

/-- FUNC writes rd: every one but CMP and TST. -/
def aluWrites (func : Nat) : Bool := func != 0xA && func != 0xB

/-- The 32-bit result of HASH over register values (R317). -/
def hashFunc (fn seed : Nat) (useSeed : Bool) (vs : List (BitVec 64)) : Nat :=
  let bytes := vs.flatMap (fun v => beBytes 8 v.toNat)
  let init := if useSeed then seed else 0xFFFFFFFF
  if fn = 0 then crc32With 0x82F63B78 init bytes
  else if fn = 1 then crc32With 0xEDB88320 init bytes
  else
    let x := vs.foldl (fun (n : Nat) v => Nat.xor n v.toNat) 0
    Nat.xor (Nat.xor (x / 2 ^ 32) (x % 2 ^ 32)) (if useSeed then seed else 0)

/-- A 16-bit ones'-complement sum. -/
def onesAdd (a b : Nat) : Nat := (a + b) % 65536 + (a + b) / 65536

/-- CSUM UPDATE (R317). -/
def csumUpdate (hc m m' : Nat) : Nat := 65535 - onesAdd (onesAdd (65535 - hc) (65535 - m)) m'

/-- CSUM ADD (R317). -/
def csumAdd (hc v : Nat) : Nat :=
  onesAdd (onesAdd (onesAdd (onesAdd hc (v / 2 ^ 48 % 65536)) (v / 2 ^ 32 % 65536)) (v / 2 ^ 16 % 65536)) (v % 65536)

end Sys2Proof.Machine
end

