-- ==== Sys2Proof/Machine/PortOps.lean ====
section
/-! DEFINITION. Shared operations of ports: where a port's registers stand (R225), its mode (R206), its delays (R223), PFC
requests (R220), and the entry into the dispatch queue (R268). -/

namespace Sys2Proof.Machine

/-- The port that a block of a LINE page serves (R225). -/
def blkPort (i b : Nat) : Nat := if b < 4 then 4 * i + b else 32 + 4 * i + (b - 4)

/-- Write a field of a port's registers. -/
def Chan.putPortF (ch : Chan) (p : Nat) (f : Nat → Fld) (v : Nat) : Chan := ch.putF (portPg p) (f (portBlk p)) v

/-- Add to a 64-bit counter of a port. -/
def Chan.portInc (ch : Chan) (p : Nat) (f : Nat → Nat) (n : Nat := 1) : Chan := ch.inc64 (portPg p) (f (portBlk p)) n

/-- A tally event of a port: the agent is its block (R235). -/
def Chan.portTally (ch : Chan) (p code : Nat) (cls : Option Nat := none) (n : Nat := 1) : Chan :=
  ch.tally (portPg p) code { priv := some 0, agent := some (portBlk p), cls := cls } n

/-- Working state of a port. -/
def Chan.pw (ch : Chan) (p : Nat) : PortWork := tget {} ch.ports p

/-- Replace the working state of a port. -/
def Chan.putPw (ch : Chan) (p : Nat) (w : PortWork) : Chan := { ch with ports := tput {} ch.ports p w }

/-- A port that may carry a PTP port: a lane port P0–P31 with PORT_CFG.FLEXE = 0 (R141, R171, R205). -/
def Chan.ptpPortOk (ch : Chan) (p : Nat) : Bool := decide (p < 32) && decide (ch.portKind p = 1) && !(ch.portB p LINE.PORT_CFG_FLEXE)

/-- PORT_STAT.OPER (R209). -/
def Chan.oper (ch : Chan) (p : Nat) : Bool := ch.portB p LINE.PORT_STAT_OPER

/-- Lanes of a LANES encoding (R228). -/
def lanesOf (enc : Nat) : Nat := 2 ^ enc

/-- Mb/s of a SPEED encoding (R228). -/
def speedMb (enc : Nat) : Nat :=
  if enc = 1 then 10000 else if enc = 2 then 25000 else if enc = 3 then 50000 else if enc = 4 then 100000
  else if enc = 5 then 200000 else if enc = 6 then 400000 else if enc = 7 then 800000 else if enc = 8 then 1600000 else 0

/-- The modes of R206, by SPEED, LANES and FEC. -/
def modeLegal (speed lanes fec : Nat) : Bool :=
  if speed = 1 then lanes == 0 && decide (fec ≤ 1)
  else if speed = 2 then lanes == 0 && decide (fec ≤ 2)
  else if speed = 3 then lanes == 0 && fec == 3
  else if speed = 4 then (lanes == 2 && fec == 2) || (decide (lanes ≤ 1) && fec == 3)
  else if speed = 5 then decide (lanes ≤ 2) && fec == 3
  else if speed = 6 then decide (1 ≤ lanes) && fec == 3
  else if speed = 7 then decide (2 ≤ lanes) && fec == 3
  else if speed = 8 then lanes == 3 && fec == 3
  else false

/-- Pin to PCS stamp, receive, in units of 0.1 ns (R223). -/
def rxDelay (speed fec : Nat) : Nat :=
  if speed = 1 then (if fec = 0 then 450 else 2100)
  else if speed = 2 then (if fec = 0 then 300 else if fec = 1 then 1900 else 1250)
  else if speed = 3 then 1300 else if speed = 4 then 1100 else if speed = 5 then 950 else if speed = 6 then 900
  else if speed = 7 then 850 else 800

/-- PCS stamp to pin, transmit, in units of 0.1 ns (R223). -/
def txDelay (speed fec : Nat) : Nat :=
  if speed = 1 then (if fec = 0 then 300 else 600)
  else if speed = 2 then (if fec = 0 then 220 else if fec = 1 then 550 else 400)
  else if speed = 3 then 400 else if speed = 4 then 360 else if speed = 5 then 320 else if speed = 6 then 300
  else if speed = 7 then 280 else 260

/-- The arrival stamp of a frame whose start crosses the PCS now, in units of 2^-16 ns: the receive delay and the port's
signed correction are subtracted (R133, R223), the delay as the last training adjusted it; a client port has neither. -/
def Chan.arrival (ch : Chan) (p : Nat) : Nat :=
  if ch.portKind p = 1 then
    let d : Int := ((rxDelay (ch.portF p LINE.PORT_CFG_SPEED) (ch.portF p LINE.PORT_CFG_FEC) * 65536 / 10 : Nat) : Int)
    let corr : Int := toSigned (ch.nat (portPg p) (LINE.TS_RX_CORR (portBlk p))) 32 * 65536 / 1000
    ((ch.time : Int) - d - toSigned (ch.pw p).rxAdj 32 - corr).toNat
  else ch.time

/-- LINE instances that hold the lanes of a lane port of `n` lanes whose first lane is `p`. -/
def portInsts (p n : Nat) : List Nat := (List.range ((p + n - 1) / 4 - p / 4 + 1)).map (fun k => p / 4 + k)

/-- LINE instances of a configured port. -/
def Chan.instsOf (ch : Chan) (p : Nat) : List Nat :=
  if ch.portKind p = 1 then portInsts p (lanesOf (ch.portF p LINE.PORT_CFG_LANES)) else [if p < 32 then p / 4 else (p - 32) / 4]

/-- Every LINE instance of the port is enabled (R209). -/
def Chan.instsOn (ch : Chan) (p : Nat) : Bool := (ch.instsOf p).all (fun i => ch.enabled (pgLine i))

/-- The lanes of a configured lane port. -/
def Chan.lanesOfPort (ch : Chan) (p : Nat) : List Nat :=
  if ch.portKind p = 1 then (List.range (lanesOf (ch.portF p LINE.PORT_CFG_LANES))).map (fun k => p + k) else []

/-- The configured lane port that holds a lane. -/
def Chan.laneOwner (ch : Chan) (l : Nat) : Option Nat := firstBelow 32 (fun p => (ch.lanesOfPort p).contains l)

/-! PTP messages (R141, R143, R171). -/

/-- Offset of the PTP header of a message, and of the UDP header where there is one (R171 transports). -/
def ptpOffset (bs : List Byte) : Option (Nat × Option Nat) :=
  if beAt bs 12 2 = 0x88F7 then some (14, none)
  else if beAt bs 12 2 = 0x0800 ∧ beAt bs 23 1 = 17 then some (14 + beAt bs 14 1 % 16 * 4 + 8, some (14 + beAt bs 14 1 % 16 * 4))
  else if beAt bs 12 2 = 0x86DD ∧ beAt bs 20 1 = 17 then some (62, some 54)
  else none

/-- Bytes replaced at an offset. -/
def overwrite (bs : List Byte) (o : Nat) (new : List Byte) : List Byte := bs.take o ++ new ++ bs.drop (o + new.length)

/-- The ones'-complement sum of 16-bit words. -/
def sum16 (bs : List Byte) : Nat :=
  (List.range ((bs.length + 1) / 2)).foldl (fun n i => onesAdd n (beAt bs (2 * i) 2)) 0

/-- The frame with bytes at an even distance from a UDP header replaced, and the UDP checksum corrected where there is one. -/
def patchFrame (bs : List Byte) (udp : Option Nat) (o : Nat) (new : List Byte) : List Byte :=
  let old := sliceBytes bs o new.length
  let b1 := overwrite bs o new
  match udp with
  | none => b1
  | some u =>
    let hc := beAt bs (u + 6) 2
    if hc = 0 then b1
    else
      let odd := (o - u) % 2
      let pad := List.replicate odd (0 : Byte)
      let c := 65535 - onesAdd (onesAdd (65535 - hc) (65535 - sum16 (pad ++ old))) (sum16 (pad ++ new))
      overwrite b1 (u + 6) (beBytes 2 (if c = 0 then 65535 else c))

/-- The Follow_Up of a two-step Sync that left at `stamp`, in units of 2^-16 ns (R143); its fields are those of IEEE 1588 (PRESUMED,
log 47). -/
def followUp (stamp : Nat) (bs : List Byte) : List Byte :=
  match ptpOffset bs with
  | none => bs
  | some (o, u) =>
    let put := fun (b : List Byte) (i : Nat) (new : List Byte) => patchFrame b u i new
    let b1 := put (put bs o (beBytes 1 (beAt bs o 1 / 16 * 16 + 8))) (o + 6) (beBytes 1 (setNbit (beAt bs (o + 6) 1) 1 false))
    let b2 := put (put b1 (o + 8) (beBytes 8 (stamp % 65536))) (o + 32) (beBytes 1 2)
    let b3 := put b2 (o + 34) (beBytes 6 (stamp / 65536000000000) ++ beBytes 4 (stamp / 65536 % 1000000000))
    match u with
    | some v => put b3 (v + 2) (beBytes 2 320)
    | none => b3

/-- A control frame enters the port's control input (R224). -/
def Chan.sendControl (ch : Chan) (p : Nat) (f : CtlFrame) : Chan :=
  if ch.oper p = false then ch.portInc p LINE.TX_DOWN_DROP
  else if 16 ≤ (ch.pw p).ctl.length then ch.portInc p LINE.TX_INS_DROP
  else ch.putPw p { ch.pw p with ctl := (ch.pw p).ctl ++ [f] }

/-- PFC for a class is sent while TX_EN = 1 and the class is in TX_CLASSES (R220); nothing is sent on a port that is down. -/
def Chan.sendPfc (ch : Chan) (p cls quanta : Nat) : Chan :=
  if ch.oper p && ch.portB p LINE.PFC_CFG_TX_EN && nbit (ch.portF p LINE.PFC_CFG_TX_CLASSES) cls then
    let c1 := if quanta = 0 then ch else ch.putPw p { ch.pw p with xoffAt := tput 0 (ch.pw p).xoffAt cls ch.ns }
    c1.sendControl p { pfc := some (2 ^ cls, quanta) }
  else ch

/-- HOLD admission asks for PFC on an ingress port and class, or ends its request (R220, R438). -/
def Chan.askPfc (ch : Chan) (p cls : Nat) (on : Bool) : Chan :=
  let c1 := ch.putPw p { ch.pw p with xoff := setNbit (ch.pw p).xoff cls on }
  c1.sendPfc p cls (if on then ch.portF p LINE.PFC_TIMING_TX_QUANTA else 0)

/-- The partition that owns a port (R268, R550). -/
def Chan.portPart (ch : Chan) (p : Nat) : Nat := ch.getF pgPart (PART.PORT_OWN_PART p)

/-- BREW.STATUS.STATE. -/
def Chan.brewState (ch : Chan) : Nat := ch.getF pgBrew BREW.STATUS_STATE

/-- A brew is current (R188). -/
def Chan.brewCurrent (ch : Chan) : Bool := ch.brewState != 0 && !(ch.brewState == 2 && ch.prs.fromEmpty)

/-- An arriving or released packet takes an entry of its dispatch queue, or is dropped and counted (R268). The dispatcher takes none until a
brew is current (R188), and counts them then as while it is disabled (log 49). -/
def Chan.dispatchArrive (ch : Chan) (k : Pkt) : Chan :=
  let q := if k.egress then ch.prs.qEg else ch.prs.qIn
  if ch.enabled pgDisp = false ∨ ch.brewCurrent = false then ch.inc pgDisp DISP.DISABLED_DROP
  else if 512 ≤ q.length then ch.incRaise pgDisp DISP.FULL_DROP 8
  else if ch.getF pgDisp (DISP.PART_SHARE_QLIM k.part) ≤ (q.filter (fun x => x.part == k.part)).length then
    ch.incRaise pgDisp DISP.SHARE_DROP 9
  else if k.egress then { ch with prs := { ch.prs with qEg := q ++ [k] } }
  else { ch with prs := { ch.prs with qIn := q ++ [k] } }

end Sys2Proof.Machine
end

