-- ==== Sys2Proof/Machine/Nodes.lean ====
section
/-! DEFINITION. The scheduling tree (R456–R459, R476), the map from egress packets to queues (R458), and the fields of the
packet context (R345). -/

namespace Sys2Proof.Machine

/-- A byte of the packet context. -/
def Pkt.ctxByte (k : Pkt) (i : Nat) : Nat := beAt k.ctx i 1

/-- Traffic class of the context. -/
def Pkt.tc (k : Pkt) : Nat := nbits (k.ctxByte 8) 5 3

/-- Colour of the context; 0b11 counts as red (R13). -/
def Pkt.colour (k : Pkt) : Nat := min (nbits (k.ctxByte 8) 7 6) 2

/-- DEST is a multicast group. -/
def Pkt.mcast (k : Pkt) : Bool := nbit (k.ctxByte 8) 1

/-- System port or multicast group. -/
def Pkt.dest (k : Pkt) : Nat := beAt k.ctx 10 2

/-- Ingress port of the context. -/
def Pkt.inPort (k : Pkt) : Nat := k.ctxByte 12 % 64

/-- Caddy account of the context. -/
def Pkt.ctxAccount (k : Pkt) : Nat := beAt k.ctx 16 2 % 4096

/-- FLOW_HASH of the context. -/
def Pkt.flowHash (k : Pkt) : Nat := beAt k.ctx 20 4

/-- USER bytes 0–3 of the context. -/
def Pkt.user0 (k : Pkt) : Nat := beAt k.ctx 32 4

/-- Scheduler nodes at reset (R457): port nodes, the strict-priority queues, and nothing else. -/
def nodeDefault (n : Nat) : Node :=
  if n < 64 then { w0 := 0x80000000 }
  else if n < 576 then { w0 := 0x80000000 + 4 * 2 ^ 28 + (n - 64) % 8 * 2 ^ 24 + (n - 64) / 8 }
  else {}

/-- A scheduler node. -/
def Chan.node (ch : Chan) (n : Nat) : Node := rget nodeDefault ch.sch.nodes n

/-- Replace a scheduler node. -/
def Chan.putNode (ch : Chan) (n : Nat) (x : Node) : Chan :=
  { ch with sch := { ch.sch with nodes := rput nodeDefault ch.sch.nodes n x } }

/-- The node is in use. -/
def Node.valid (x : Node) : Bool := nbit x.w0 31

/-- Level 0–4. -/
def Node.level (x : Node) : Nat := nbits x.w0 30 28

/-- Priority. -/
def Node.prio (x : Node) : Nat := nbits x.w0 26 24

/-- Parent node. -/
def Node.parent (x : Node) : Nat := nbits x.w0 16 0

/-- WEIGHT. -/
def Node.weight (x : Node) : Nat := x.w1 % 4096

/-- The path from a node up to its port node, the node itself first; at most five levels (R456). -/
def Chan.pathFrom (ch : Chan) : Nat → Nat → List Nat
  | 0, _ => []
  | fuel + 1, n =>
    let x := ch.node n
    if !x.valid then [] else if n < 64 then [n] else n :: ch.pathFrom fuel x.parent

/-- The path of a node. -/
def Chan.path (ch : Chan) (n : Nat) : List Nat := ch.pathFrom 5 n

/-- The port of a node: the port node at the root of its path. -/
def Chan.nodePort (ch : Chan) (n : Nat) : Option Nat :=
  match (ch.path n).getLast? with
  | some p => if p < 64 then some p else none
  | none => none

/-- An egress queue of port `p`. -/
def Chan.isQueueOf (ch : Chan) (p n : Nat) : Bool :=
  let x := ch.node n
  x.valid && x.level == 4 && decide (64 ≤ n) && decide (n < 131072) && ch.nodePort n == some p

/-- VALID nodes whose parent is `n`. The nodes that differ from reset stand in the table; the others are those of R457. -/
def Chan.childrenOf (ch : Chan) (n : Nat) : List Nat :=
  let listed := (ch.sch.nodes.filter (fun e => decide (64 ≤ e.1) && e.2.valid && e.2.parent == n)).map Prod.fst
  let dflt := if n < 64 then
      (List.range 8).map (fun t => 64 + 8 * n + t) |>.filter (fun k => !(ch.sch.nodes.any (fun e => e.1 == k)))
    else []
  dflt ++ listed

/-- The queue that EQ_MAP selects for an egress packet (R458), `none` where the packet is dropped. -/
def Chan.eqMap (ch : Chan) (p tc flowHash user : Nat) : Option Nat :=
  let x := 8 * p + tc
  let q := ch.getF pgSched (SCHED.EQ_MAP_QUEUE x)
  let span := ch.getF pgSched (SCHED.EQ_MAP_SPAN x)
  let sel := ch.getF pgSched (SCHED.EQ_MAP_SEL x)
  let n := (if sel = 0 then q else if sel = 1 then q + flowHash % 2 ^ span else q + user % 2 ^ span)
  if ch.getB pgSched (SCHED.EQ_MAP_VALID x) && ch.isQueueOf p n then some n else none

/-- The rate of a port in Mb/s (R459): the speed of a lane port, or 5 Gb/s per slot of the client bound to a client port. -/
def Chan.operRate (ch : Chan) (p : Nat) : Nat :=
  if ch.portKind p = 1 then speedMb (ch.portF p LINE.PORT_CFG_SPEED)
  else
    match firstBelow 128 (fun n => ch.getB pgFlex (FLEX.CLIENT_CFG_EN n) && !(ch.getB pgFlex (FLEX.CLIENT_CFG_MODE n))
        && ch.getF pgFlex (FLEX.CLIENT_CFG_PORT n) == p) with
    | some n => 5000 * ch.getF pgFlex (FLEX.CLIENT_STAT_SLOTS n)
    | none => 0

end Sys2Proof.Machine
end

