-- ==== Sys2Proof/Machine/FabOps.lean ====
section
/-! DEFINITION. Shared operations of the fabric interface: cells (R484), lanes and reachability (R480–R483, R494, R495), credit
requests (R492), and what a refused buffer does to a packet in reassembly (R490). -/

namespace Sys2Proof.Machine

/-! Cells. -/

/-- The cell is a control cell (R486). -/
def Cell.isCtl (c : Cell) : Bool := c.typ == 3 || c.typ == 4 || c.typ == 5

/-- Header bytes 0–13 of a cell (R484); PCRC is inverted where the cell carries an uncorrectable word (R520). -/
def Cell.head (c : Cell) : List Byte :=
  beBytes 14 (c.typ * 2 ^ 108 + b2n c.first * 2 ^ 107 + b2n c.last * 2 ^ 106 + c.parity % 2 * 2 ^ 105 + c.colour % 4 * 2 ^ 103
    + c.tc % 8 * 2 ^ 100 + b2n c.ctxFull * 2 ^ 99 + c.src % 4096 * 2 ^ 84 + c.dst % 4096 * 2 ^ 72 + c.dport % 65536 * 2 ^ 56
    + c.seq % 2 ^ 24 * 2 ^ 32 + c.payload.length % 256 * 2 ^ 24
    + (if c.bad then 0xFFFF - crc16 c.payload else crc16 c.payload))

/-- Bytes a cell occupies on the link (R484). -/
def Cell.linkBytes (c : Cell) : Nat := 16 + 8 * ceilDiv c.payload.length 8

/-- The bytes of a cell on the link: header, payload, zero pad (R484). -/
def Cell.bytes (c : Cell) : List Byte :=
  c.head ++ beBytes 2 (crc16 c.head) ++ c.payload ++ List.replicate (c.linkBytes - 16 - c.payload.length) 0

/-- A cell as its bytes spell it; the checks of R485 are the receiver's. -/
def cellOf (lane : Nat) (bs : List Byte) : Cell :=
  let n := beAt bs 0 14
  {
    typ := nbits n 111 108, first := nbit n 107, last := nbit n 106, parity := nbits n 105 105, colour := nbits n 104 103,
    tc := nbits n 102 100, ctxFull := nbit n 99, src := nbits n 95 84, dst := nbits n 83 72, dport := nbits n 71 56,
    seq := nbits n 55 32, payload := sliceBytes bs 16 (nbits n 31 24), lane := lane }

/-! Lanes and reachability. -/

/-- Working state of a fabric lane. -/
def Chan.fabLane (ch : Chan) (l : Nat) : FabLane := tget {} ch.fab.lanes l

/-- Change the working state of the fabric interface. -/
def Chan.onFab (ch : Chan) (f : FabW → FabW) : Chan := { ch with fab := f ch.fab }

/-- Replace the working state of a fabric lane. -/
def Chan.putFabLane (ch : Chan) (l : Nat) (x : FabLane) : Chan := ch.onFab (fun w => { w with lanes := tput {} w.lanes l x })

/-- FAB.LANE_STAT.STATE: 0 DOWN, 1 TRAINING, 2 UP, 3 ACTIVE, 4 STANDBY, 5 TEST, 6 WIRING. -/
def Chan.fabState (ch : Chan) (l : Nat) : Nat := ch.getF pgFab (FAB.LANE_STAT_STATE l)

/-- CHAN_ID of the channel (R491). -/
def Chan.chanId (ch : Chan) : Nat := ch.getF pgFab FAB.CFG_CHAN_ID

/-- Mesh mode (R497). -/
def Chan.mesh (ch : Chan) : Bool := ch.getB pgFab FAB.CFG_MESH

/-- Is the lane ACTIVE? The loopback behaves as one ACTIVE lane (R491). -/
def Chan.laneActive (ch : Chan) (l : Nat) : Bool := l == 48 || (decide (l < 48) && ch.fabState l == 3)

/-- The channels a lane reaches while it is ACTIVE, as bits (R482, R491, R494, R497). -/
def Chan.laneReach (ch : Chan) (l : Nat) : Nat :=
  if l = 48 then 2 ^ ch.chanId
  else if ch.mesh then 2 ^ ch.getF pgFab (FAB.LANE_CFG_PEER_CHAN l)
  else
    let r := fun b => tget 0 ch.fab.reach (4 * l + b)
    r 0 + r 1 * 2 ^ 1024 + r 2 * 2 ^ 2048 + r 3 * 2 ^ 3072

/-- ACTIVE lanes F0–F47. -/
def Chan.activeLanes (ch : Chan) : List Nat := allBelow 48 (fun l => ch.fabState l == 3)

/-- The channels that an ACTIVE lane reaches, as bits (R495). -/
def Chan.reachSet (ch : Chan) : Nat := (ch.activeLanes).foldl (fun n l => Nat.lor n (ch.laneReach l)) 0

/-- A destination channel is reachable (R495); the channel itself is, over the loopback. -/
def Chan.reachable (ch : Chan) (d : Nat) : Bool := d == ch.chanId || (ch.activeLanes).any (fun l => nbit (ch.laneReach l) d)

/-- The map word of a system port (R491). -/
def Chan.sportWord (ch : Chan) (s : Nat) : Word := tget 0 ch.fab.sport s

/-- The channel that owns a system port, where the map holds it. -/
def Chan.sportChan (ch : Chan) (s : Nat) : Option Nat :=
  if bit (ch.sportWord s) 31 then some (fld (ch.sportWord s) 11 0) else none

/-- C of a class: context bytes that cross the fabric (R487). -/
def Chan.ctxLen (ch : Chan) (tc : Nat) : Nat := if nbit (ch.getF pgFab FAB.CFG_CTX_FULL_TC) tc then 64 else 32

/-! Credits (R492). -/

/-- Put a 4-byte entry on its way to channel `d` in a credit cell of type `typ`: up to 60 entries share a cell. -/
def Chan.sendEntry (ch : Chan) (d typ entry : Nat) : Chan :=
  let bs := beBytes 4 entry
  let joins := fun (c : Cell) => c.typ == typ && c.dst == d && decide (c.payload.length < 240)
  ch.onFab (fun w =>
    if w.ctlQ.any joins then
      { w with ctlQ := w.ctlQ.map (fun c => if joins c then { c with payload := c.payload ++ bs } else c) }
    else { w with ctlQ := w.ctlQ ++ [{ typ := typ, first := true, last := true, src := ch.chanId, dst := d, payload := bs }] })

/-- A request entry (R492). -/
def reqEntry (sport : Nat) (on : Bool) (tc : Nat) : Nat := sport % 65536 * 2 ^ 16 + b2n on * 2 ^ 15 + tc % 8 * 2 ^ 12

/-- A grant entry (R492, R493). -/
def grantEntry (sport tc count : Nat) : Nat := sport % 65536 * 2 ^ 16 + tc % 8 * 2 ^ 12 + count % 16

/-- Send a VOQ's request to the channel that owns its system port, while that is reachable. -/
def Chan.sendReq (ch : Chan) (q : Nat) (on : Bool) : Chan :=
  match ch.sportChan (q / 8) with
  | some d => if ch.enabled pgFab && ch.reachable d then ch.sendEntry d 3 (reqEntry (q / 8) on (q % 8)) else ch
  | none => ch

/-- Depth of a VOQ in P bytes (R487, R492). -/
def Chan.depthP (ch : Chan) (q : Nat) : Nat :=
  let x := tget ({} : Que) ch.cad.queues q
  x.depth + ch.ctxLen (q % 8) * x.ents.length

/-- A VOQ's request follows its depth and its balance, and the start of its being empty is noted (R492). -/
def Chan.voqReq (ch : Chan) (q : Nat) : Chan :=
  if 0x80000 ≤ q then ch
  else
    let empty := (tget ({} : Que) ch.cad.queues q).ents.isEmpty
    let at' := if !empty then 0 else if tget 0 ch.fab.emptyAt q = 0 then ch.ns + 1 else tget 0 ch.fab.emptyAt q
    let on := decide (tget 0 ch.fab.bal q < (ch.depthP q : Int))
    let was := tget false ch.fab.reqOn q
    let c1 := ch.onFab (fun w => { w with
      emptyAt := tput 0 w.emptyAt q at', reqOn := tput false w.reqOn q on
      reqAt := if on = was then w.reqAt else tput 0 w.reqAt q (if on then ch.ns + 1 else 0) })
    if on = was then c1 else c1.sendReq q on

/-- The request of every VOQ that has packets or a balance follows them. -/
def Chan.voqReqAll (ch : Chan) : Chan := ch.each ((ch.cad.queues.map Prod.fst).filter (fun q => decide (q < 0x80000))) (fun c q => c.voqReq q)

/-! Reassembly contexts (R489, R490). -/

/-- A reassembly context. -/
def Chan.reasm (ch : Chan) (k : Nat) : Reasm := tget {} ch.fab.reasm k

/-- Replace a reassembly context. -/
def Chan.putReasm (ch : Chan) (k : Nat) (x : Reasm) : Chan := ch.onFab (fun w => { w with reasm := tput {} w.reasm k x })

/-- Caddy refuses the buffer of a packet in reassembly: its remaining cells are discarded (R490). -/
def Chan.reasmRefused (ch : Chan) (k : Pkt) : Chan :=
  if k.reasm = 0 then ch else ch.putReasm (k.reasm - 1) { ch.reasm (k.reasm - 1) with open_ := [], skip := true }

end Sys2Proof.Machine
end

