-- ==== Sys2Proof/Machine/CadOps.lean ====
section
/-! DEFINITION. Shared operations of Caddy: pools and accounts (R415–R423), buffers and frees (R418, R426), regions (R429–R431),
queues (R432–R434), HOLD accounting (R438), and the hold state of ports (R439, R440). -/

namespace Sys2Proof.Machine

/-! Pools, accounts and regions. -/

/-- HBM buffers per region of a pool (R415). -/
def perRegion (pool : Nat) : Nat :=
  if pool = 1 then 8192 else if pool = 2 then 2048 else if pool = 3 then 512 else if pool = 4 then 204 else 0

/-- Largest L that fits an HBM pool (R415). -/
def poolFits (pool : Nat) : Nat :=
  if pool = 1 then 160 else if pool = 2 then 928 else if pool = 3 then 4000 else if pool = 4 then 10144 else 0

/-- The smallest HBM class that fits a packet (R423). -/
def smallestFit (l : Nat) : Nat := if l ≤ 160 then 1 else if l ≤ 928 then 2 else if l ≤ 4000 then 3 else 4

/-- Units a packet takes in a pool (R415). -/
def unitsOf (pool l : Nat) : Nat := if pool = 0 then (96 + l + 255) / 256 else 1

/-- The pool of a handle (R418). -/
def poolOfHandle (h : Nat) : Nat := if nbit h 29 then 0 else nbits h 31 30 + 1

/-- The HBM region of a handle (R418). -/
def regionOfHandle (h : Nat) : Option Nat :=
  let p := poolOfHandle h
  if p = 0 then none else some (nbits h 27 0 / perRegion p)

/-- An HBM region. -/
def Chan.hbmRegion (ch : Chan) (r : Nat) : HbmRegion := tget {} ch.cad.regions r

/-- Replace an HBM region. -/
def Chan.putHbmRegion (ch : Chan) (r : Nat) (x : HbmRegion) : Chan :=
  { ch with cad := { ch.cad with regions := tput {} ch.cad.regions r x } }

/-- A buffer. -/
def Chan.buf (ch : Chan) (h : Nat) : Buf := tget {} ch.cad.bufs h

/-- Replace a buffer. -/
def Chan.putBuf (ch : Chan) (h : Nat) (b : Buf) : Chan := { ch with cad := { ch.cad with bufs := tput {} ch.cad.bufs h b } }

/-- Buffers of a region in use (R448 USED). -/
def Chan.regionUsed (ch : Chan) (r : Nat) : Nat := (ch.cad.bufs.filter (fun e => regionOfHandle e.1 == some r)).length

/-- POOL_TOTAL (R429). -/
def Chan.poolTotal (ch : Chan) (p : Nat) : Nat :=
  if p = 0 then 393216
  else perRegion p * (ch.cad.regions.filter (fun e => e.2.st != 0 && e.2.cls == p)).length

/-- Units of a pool that are not lost to RETIRED regions (R431). -/
def Chan.poolUsable (ch : Chan) (p : Nat) : Nat :=
  if p = 0 then 393216
  else perRegion p * (ch.cad.regions.filter (fun e => e.2.st != 0 && e.2.st != 4 && e.2.cls == p)).length

/-- Units of a pool once every MOVE under way has ended (R430). -/
def Chan.poolStays (ch : Chan) (p : Nat) : Nat :=
  if p = 0 then 393216
  else perRegion p * (ch.cad.regions.filter (fun e =>
    e.2.st != 0 && e.2.st != 4 && (if e.2.st == 2 || e.2.prior == 2 then e.2.next else e.2.cls) == p)).length

/-- POOL_FREE (R429): free units of ACTIVE regions, or free cells. -/
def Chan.poolFree (ch : Chan) (p : Nat) : Nat :=
  if p = 0 then 393216 - (ch.cad.bufs.filter (fun e => e.2.pool == 0)).foldl (fun n e => n + e.2.units) 0
  else
    perRegion p * (ch.cad.regions.filter (fun e => e.2.st == 1 && e.2.cls == p)).length
      - (ch.cad.bufs.filter (fun e => match regionOfHandle e.1 with
          | some r => (ch.hbmRegion r).st == 1 && (ch.hbmRegion r).cls == p
          | none => false)).length

/-- Accounts at reset: 0–128 OPEN (R420). -/
def acctDefault (a : Nat) : Acct := if a ≤ 128 then { st := 1 } else {}

/-- An account. -/
def Chan.acct (ch : Chan) (a : Nat) : Acct := rget acctDefault ch.cad.accts a

/-- Replace an account. -/
def Chan.putAcct (ch : Chan) (a : Nat) (x : Acct) : Chan :=
  { ch with cad := { ch.cad with accts := rput acctDefault ch.cad.accts a x } }

/-- An account's share of a pool. -/
def Chan.acctPool (ch : Chan) (a p : Nat) : AcctPool := tget {} ch.cad.pools (a * 8 + p)

/-- Replace an account's share of a pool. -/
def Chan.putAcctPool (ch : Chan) (a p : Nat) (x : AcctPool) : Chan :=
  { ch with cad := { ch.cad with pools := tput {} ch.cad.pools (a * 8 + p) x } }

/-- POOL_RSV: the sum of the reserves (R421). -/
def Chan.poolRsv (ch : Chan) (p : Nat) : Nat :=
  (ch.cad.pools.filter (fun e => e.1 % 8 == p)).foldl (fun n e => n + e.2.rsv) 0

/-- Shared free space of a pool (R421), 0 while retirement has cut the pool below its reserves (R431). -/
def Chan.sharedFree (ch : Chan) (p : Nat) : Nat :=
  if ch.poolUsable p < ch.poolRsv p then 0
  else ch.poolFree p - (ch.cad.pools.filter (fun e => e.1 % 8 == p)).foldl (fun n e => n + (e.2.rsv - e.2.use)) 0

/-- The outcome of an allocation (R422). -/
inductive Judge where
  | grant | limit | empty
deriving DecidableEq, Repr

/-- An allocation of `n` units for account `a` in pool `p` (R422, R431). -/
def Chan.judgeAlloc (ch : Chan) (a p n : Nat) : Judge :=
  let x := ch.acctPool a p
  if (ch.acct a).st ≠ 1 then .limit
  else if x.use + n ≤ x.rsv then (if ch.poolFree p < n then .empty else .grant)
  else if ch.sharedFree p < n then .empty
  else if 2 ^ x.alpha * (ch.sharedFree p - n) < (x.use + n - x.rsv) * 32 then .limit
  else .grant

/-- The account uses nothing in any pool (R443). -/
def Chan.acctIdle (ch : Chan) (a : Nat) : Bool := (List.range 5).all (fun p => (ch.acctPool a p).use == 0)

/-- A CLOSING account whose use has come to 0 is CLOSED (R443). -/
def Chan.acctSettle (ch : Chan) (a : Nat) : Chan :=
  let x := ch.acct a
  if x.st = 2 ∧ ch.acctIdle a then
    (ch.putAcct a { x with st := 0 }).journal pgCaddy clsNone 8 (a + x.part * 2 ^ 16)
  else ch

/-- A DRAINING region whose last buffer has gone becomes ACTIVE in its next class (R430). -/
def Chan.regionSettle (ch : Chan) (r : Nat) : Chan :=
  let x := ch.hbmRegion r
  if x.st = 2 ∧ ch.regionUsed r = 0 then
    ((ch.putHbmRegion r { st := 1, cls := x.next }).raise pgCaddy 12).journal pgCaddy clsNone 4
      (r + x.cls * 2 ^ 16 + x.next * 2 ^ 24)
  else ch

/-- The last reference has gone: the buffer is free, and its account's use falls (R426). -/
def Chan.releaseBuf (ch : Chan) (h : Nat) : Chan :=
  let b := ch.buf h
  let x := ch.acctPool b.owner b.pool
  let c1 := (ch.putBuf h {}).putAcctPool b.owner b.pool { x with use := x.use - b.units }
  let c2 := (c1.tally pgCaddy 0x11).acctSettle b.owner
  match regionOfHandle h with
  | some r => c2.regionSettle r
  | none => c2

/-- Outcome of a free (R426, R447): 0 OK, 1 DOUBLE_FREE, 2 FOREIGN. -/
def Chan.freeResult (ch : Chan) (h a : Nat) (part : Option Nat) : Nat :=
  let b := ch.buf h
  if !b.inUse then 1
  else if b.owner ≠ a then 2
  else match part with
    | some p => if (ch.acct b.owner).part ≠ p then 2 else 0
    | none => 0

/-- A free names a handle and an account and releases one reference (R426); `part` is the partition of the ring it came from. -/
def Chan.freeBuf (ch : Chan) (h a : Nat) (part : Option Nat := none) : Chan :=
  let b := ch.buf h
  let r := ch.freeResult h a part
  if r = 1 then
    (((ch.inc pgCaddy CADDY.DOUBLE_FREE).capture pgCaddy clsContained 10 h a b.owner).raise pgCaddy 10).journalSec pgCaddy
      clsContained 1 0 (h + a * 2 ^ 32) (2 ^ 64)
  else if r = 2 then
    (((ch.inc pgCaddy CADDY.FOREIGN_FREE).capture pgCaddy clsContained 11 h a b.owner).raise pgCaddy 11).journalSec pgCaddy
      clsContained 2 0 (h + a * 2 ^ 32 + b.owner * 2 ^ 48 + (part.getD 0xFF) * 2 ^ 64) 0
  else if 0 < b.refs then ch.putBuf h { b with refs := b.refs - 1 }
  else ch.releaseBuf h

/-- A hardware source frees under the owner tag that the buffer carries (R427). -/
def Chan.hwFree (ch : Chan) (h : Nat) : Chan := ch.freeBuf h (ch.buf h).owner

/-! Queues. -/

/-- Queue keys: VOQ q is q, the fabric multicast queue of a class is 0x80000 + TC, the egress queue of node n is 0x100000 + n. -/
def mcQueue (tc : Nat) : Nat := 0x80000 + tc

/-- The key of an egress queue. -/
def egQueue (n : Nat) : Nat := 0x100000 + n

/-- A queue. -/
def Chan.que (ch : Chan) (q : Nat) : Que := tget {} ch.cad.queues q

/-- Replace a queue. -/
def Chan.putQue (ch : Chan) (q : Nat) (x : Que) : Chan := { ch with cad := { ch.cad with queues := tput {} ch.cad.queues q x } }

/-- The queue of an ingress packet (R432). -/
def Pkt.voq (k : Pkt) : Nat := if k.mcast then mcQueue k.tc else k.dest * 8 + k.tc

/-- The index x of PC_CFG, PC_HOLD and the held counts (R451). -/
def pcIndex (dir port tc : Nat) : Nat := (dir * 64 + port) * 8 + tc

/-- The queue mode by its depth and its head's age now (R434). A queue whose head still waits too long stays in HBM mode (log 58). -/
def Chan.queMode (ch : Chan) (x : Que) : Bool :=
  let depth := ch.getF pgVoq VOQ.PLACE_CFG_DEPTH * 1024
  let age := ch.getF pgVoq VOQ.PLACE_CFG_AGE * 1000
  let slow : Bool := match x.ents with
    | e :: _ => decide (age < ch.ns - e.local_)
    | [] => false
  decide (depth < x.depth) || slow || (x.hbm && !(decide (x.depth ≤ depth / 2) && x.ents.all (fun e => nbit e.handle 29)))

/-- Bring a queue's mode up to date (R434). -/
def Chan.place (ch : Chan) (q : Nat) : Chan :=
  let x := ch.que q
  let m := ch.queMode x
  if m = x.hbm then ch
  else
    let c1 := ch.putQue q { x with hbm := m }
    if m then c1.tally pgVoq 0x12 else c1

/-- Is the port and class under the HOLD discipline (R435)? -/
def Chan.holdDisc (ch : Chan) (x : Nat) : Bool :=
  ch.getB pgAdm (ADM.PC_CFG_HOLD x) || ch.getB pgAdm (ADM.PORT_CFG_LOSSLESS_CORE (x / 8 % 64))

/-- The held count of a port and class. -/
def Chan.heldCnt (ch : Chan) (x : Nat) : Nat := tget 0 ch.cad.held x

/-- The XOFF_STAT bit of a port and class. -/
def xoffBit (x : Nat) : Fld :=
  let b := (if x / 512 = 0 then 0 else 8) + x % 8
  ⟨0x400 + 4 * (x / 8 % 64), b, b⟩

/-- A port and class enters or leaves XOFF (R438): on the ingress side LINE is asked for PFC. -/
def Chan.setXoff (ch : Chan) (x : Nat) (on : Bool) : Chan :=
  let c1 := ch.putB pgAdm (xoffBit x) on
  let c2 := if on then (c1.raise pgAdm 11).tally pgAdm 0x12 else c1.tally pgAdm 0x13
  if x < 512 then c2.askPfc (x / 8) (x % 8) on else c2

/-- The held count changes, and XOFF and XON follow it under HOLD (R438). -/
def Chan.setHeld (ch : Chan) (x n : Nat) : Chan :=
  let c1 := { ch with cad := { ch.cad with held := tput 0 ch.cad.held x n } }
  let was := ch.getB pgAdm (xoffBit x)
  if ch.holdDisc x && !was && decide (ch.getF pgAdm (ADM.PC_HOLD_XOFF x) * 16384 ≤ n) then c1.setXoff x true
  else if was && decide (n ≤ ch.getF pgAdm (ADM.PC_HOLD_XON x) * 16384) then c1.setXoff x false
  else c1

/-- An admitted packet joins its queue (R433): ENQ_TIME and ENQ_LOCAL, the held count, the placement mode. -/
def Chan.enqueue (ch : Chan) (q h x : Nat) : Chan :=
  let b := ch.buf h
  let e : QEnt := ⟨h, b.pkt.len, ch.ns, x⟩
  let c1 := (ch.place q).putBuf h { b with enqTime := ch.t64, enqLocal := ch.ns, queue := q + 1, waiting := false }
  let old := c1.que q
  let c2 := (c1.putQue q { old with ents := old.ents ++ [e] }).setHeld x (ch.heldCnt x + b.pkt.len)
  (((c2.tally pgVoq 0x10 { cls := some (x % 8) }).tally pgAdm 0x10).place q).voqReq q

/-- Take the entries of a queue that satisfy a test out of it, without touching their buffers. -/
def Chan.takeOut (ch : Chan) (q : Nat) (f : QEnt → Bool) : Chan :=
  let x := (ch.place q).que q
  let gone := x.ents.filter f
  let c1 := (ch.place q).putQue q { x with ents := x.ents.filter (fun e => !(f e)) }
  ((c1.each gone (fun c e => c.setHeld e.pc (c.heldCnt e.pc - e.len))).place q).voqReq q

/-- Discard the entries of a queue that satisfy a test: their references are released. Answers how many. -/
def Chan.discardEnts (ch : Chan) (q : Nat) (f : QEnt → Bool) : Chan × Nat :=
  let gone := (ch.que q).ents.filter f
  ((ch.takeOut q f).each gone (fun c e => c.hwFree e.handle), gone.length)

/-- Discard from every queue whose key satisfies `g`. -/
def Chan.discardWhere (ch : Chan) (g : Nat → Bool) (f : QEnt → Bool) : Chan × Nat :=
  ((ch.cad.queues.map Prod.fst).filter g).foldl (fun r q =>
    let s := r.1.discardEnts q f
    (s.1, r.2 + s.2)) (ch, 0)

/-- The head leaves its queue (R432). -/
def Chan.dequeue (ch : Chan) (q : Nat) (e : QEnt) : Chan :=
  (ch.takeOut q (fun x => x == e)).tally pgVoq 0x11 { cls := some (e.pc % 8) }

/-- Egress queues of port `p` with packets. -/
def Chan.egQueuesOf (ch : Chan) (p : Nat) : List Nat :=
  (ch.cad.queues.map Prod.fst).filter (fun q => decide (0x100000 ≤ q) && ch.nodePort (q - 0x100000) == some p)

/-- Frame bytes queued for egress port `p`. -/
def Chan.portQueued (ch : Chan) (p : Nat) : Nat := (ch.egQueuesOf p).foldl (fun n q => n + (ch.que q).depth) 0

/-! Ports that go down (R439, R440). -/

/-- ADM.HOLD_STAT p.STATE. -/
def Chan.holdState (ch : Chan) (p : Nat) : Nat := ch.getF pgAdm (ADM.HOLD_STAT_STATE p)

/-- The port enters DISCARDING: every packet queued for it is discarded (R439). -/
def Chan.holdDiscard (ch : Chan) (p : Nat) : Chan :=
  let r := (ch.putF pgAdm (ADM.HOLD_STAT_STATE p) 2).discardWhere
    (fun q => decide (0x100000 ≤ q) && ch.nodePort (q - 0x100000) == some p) (fun _ => true)
  ((r.1.inc pgAdm (ADM.PORT_DOWN_DISC p) r.2).raise pgAdm 9).journal pgAdm clsDegraded 3 (p + r.2 * 2 ^ 32)

/-- The port goes oper-down: its hold window starts (R439). -/
def Chan.holdDown (ch : Chan) (p : Nat) : Chan :=
  let c1 := ch.putPw p { ch.pw p with downAt := ch.ns, holdMs := ch.getF pgAdm (ADM.HOLD_CFG_HOLD_MS p) }
  if ch.getF pgAdm (ADM.HOLD_CFG_HOLD_MS p) = 0 then c1.holdDiscard p
  else ((c1.putF pgAdm (ADM.HOLD_STAT_STATE p) 1).raise pgAdm 8).journal pgAdm clsNone 1 p

/-- The port returns to oper-up: the hold state becomes UP, and HOLD_END is journalled (R440, R455). -/
def Chan.holdUp (ch : Chan) (p : Nat) : Chan :=
  if ch.holdState p = 0 then ch.putPw p { ch.pw p with upAt := ch.ns + 1 }
  else
    let ms := (ch.ns - (ch.pw p).downAt) / 1000000
    ((ch.putPw p { ch.pw p with upAt := ch.ns + 1 }).putF pgAdm (ADM.HOLD_STAT_STATE p) 0).journal pgAdm clsNone 2
      (p + ms % 2 ^ 32 * 2 ^ 32 + ch.nat pgAdm (ADM.AGE_DISC p) * 2 ^ 64)

end Sys2Proof.Machine
end

