-- ==== Sys2Proof/Machine/LineOps.lean ====
section
/-! DEFINITION. Shared operations of ports: the oper-up status and what follows it (R209, R212, R216, R217). -/

namespace Sys2Proof.Machine

/-- A defect of a PM entity arises (R252). -/
def Chan.markDef (ch : Chan) (e : Nat) : Chan := { ch with flex := { ch.flex with defSeen := tput false ch.flex.defSeen e true } }

/-- The FlexE client that a client port serves (R241). -/
def Chan.clientOf (ch : Chan) (p : Nat) : Option Nat :=
  firstBelow 128 (fun n => ch.getB pgFlex (FLEX.CLIENT_CFG_EN n) && !(ch.getB pgFlex (FLEX.CLIENT_CFG_MODE n))
    && ch.getF pgFlex (FLEX.CLIENT_CFG_PORT n) == p)

/-- The client of a client port is up (R241). -/
def Chan.clientUp (ch : Chan) (p : Nat) : Bool :=
  match ch.clientOf p with
  | some n => ch.getB pgFlex (FLEX.CLIENT_STAT_UP n)
  | none => false

/-- A disruptive operation runs under TEST_TAKEOVER: 0 RECAL, 1 RESTART_AN, 2 polarity, 3 lane test (R218, R236). -/
def PortWork.testing (w : PortWork) : Bool := decide (1 ≤ w.op) && decide (w.op ≤ 4)

/-- PORT_STAT.STATE (R209): 0 UNUSED, 1 DOWN, 2 TRAINING, 3 UP, 4 TEST. -/
def Chan.portState (ch : Chan) (p : Nat) : Nat :=
  let w := ch.pw p
  if ch.portKind p = 0 then 0
  else if ch.portKind p = 2 then (if ch.clientUp p then 3 else 1)
  else if w.testing then 4
  else if !(ch.instsOn p) then 1
  else if !w.aligned then
    (if w.training && (ch.portB p LINE.PORT_CFG_AN_EN || ch.portB p LINE.PORT_CFG_LT_EN) then 2 else 1)
  else if ch.portB p LINE.PORT_STAT_LOCAL_FAULT || ch.portB p LINE.PORT_STAT_REMOTE_FAULT then 1
  else 3

/-- The verify state at a change of the link or of PREEMPT_CFG (R222, R230): DISABLED, VERIFYING on a port that is up, INITIAL. -/
def Chan.verifyStart (ch : Chan) (p : Nat) : Chan :=
  let on := ch.portB p LINE.PREEMPT_CFG_EN && !(ch.portB p LINE.PREEMPT_CFG_VERIFY_DIS)
  ch.putPortF p LINE.PORT_STAT_VERIFY (if !on then 0 else if ch.oper p then 2 else 1)

/-- The active keeper puts the port's PTP port, where it is enabled, into a state (R217). -/
def Chan.ptpPortTo (ch : Chan) (p st : Nat) : Chan :=
  match ch.active with
  | none => ch
  | some k =>
    let r := ch.region k
    let x := tget ({} : PtpPort) r.ctl.ports p
    if nbit x.cfg 8 then
      ch.putRegion k { r with ctl := { r.ctl with ports := tput {} r.ctl.ports p { x with state := st, exch := 0, offset := 0x80000000, fine := 0 } } }
    else ch

/-- A hold timer of the port starts (1 DOWN_HOLD, 2 UP_HOLD) or stops (0); HOLDING follows it (R230). -/
def Chan.portTimer (ch : Chan) (p t : Nat) : Chan :=
  (ch.putPw p { ch.pw p with timer := t, since := if t = 0 then 0 else ch.ns }).putPortF p LINE.PORT_STAT_HOLDING (b2n (decide (t ≠ 0)))

/-- A port goes oper-up (R217). -/
def Chan.operUp (ch : Chan) (p : Nat) : Chan :=
  let c1 := (ch.putPortF p LINE.PORT_STAT_OPER 1).portTimer p 0
  let c2 := (c1.raise (portPg p) 8).journal (portPg p) clsNone 1 (p + ch.portF p LINE.PORT_CFG_SPEED * 2 ^ 8)
  let c3 := ((c2.holdUp p).verifyStart p).ptpPortTo p 4
  c3.each (allBelow 8 (fun t => ch.holdDisc (pcIndex 0 p t))) (fun c t =>
    c.sendPfc p t (if nbit (ch.pw p).xoff t then ch.portF p LINE.PFC_TIMING_TX_QUANTA else 0))

/-- A recovered clock taken from a port that goes down is disqualified, and its 10 s begin again (R136, R217). -/
def Chan.recDown (ch : Chan) (code : Nat) (port : Fld) (p : Nat) : Chan :=
  if ch.getF pgCosy port = p then
    (ch.onCtl (fun x => if code = 0x10 then { x with recGood0 := 0 } else { x with recGood1 := 0 })).srcLost code
  else ch

/-- A port goes oper-down (R216, R217): the frames Spout released and the control frames waiting are dropped, and received
pauses end. -/
def Chan.operDown (ch : Chan) (p cause : Nat) : Chan :=
  let w := ch.pw p
  let c1 := (ch.putPortF p LINE.PORT_STAT_OPER 0).putPw p { w with
    timer := 0, since := 0, pause := [], pauseAt := [], wdAt := w.wdAt.filter (fun e => nbit w.wdIgnore e.1), ctl := [], mac := [],
    txSync := [], downs := w.downs + 1 }
  let c2 := (c1.putPortF p LINE.PORT_STAT_HOLDING 0).putPortF p LINE.PORT_STAT_RX_PAUSED 0
  let c3 := c2.portInc p LINE.TX_DOWN_DROP (w.ctl.length + w.mac.length)
  let c4 := (c3.raise (portPg p) 9).journal (portPg p) (if cause = 4 then clsNone else clsDegraded) 2 (p + cause * 2 ^ 8)
  let c5 := ((c4.holdDown p).verifyStart p).ptpPortTo p (if ch.portB p LINE.PORT_CTRL_EN then 2 else 3)
  let c6 := (c5.recDown 0x10 (COSY.SRC_CFG_REC0_PORT) p).recDown 0x11 (COSY.SRC_CFG_REC1_PORT) p
  if p < 32 then c6.markDef p else c6

/-- The port's STATE follows its causes, and its oper-up status follows STATE, EN, the ENABLE of its instances and the hold
timers (R209, R212). `cause` is the R236 cause of a fault that may take it down. -/
def Chan.portSettle (ch : Chan) (p cause : Nat) : Chan :=
  let st := ch.portState p
  let was := ch.portF p LINE.PORT_STAT_STATE
  let lane := decide (ch.portKind p = 1)
  let on := ch.portB p LINE.PORT_CTRL_EN
  let insts := !lane || ch.instsOn p
  let c0 := ch.putPortF p LINE.PORT_STAT_STATE st
  let c1 := if was = 3 ∧ st ≠ 3 then c0.portInc p LINE.LINK_DOWN_CNT else c0
  let w := ch.pw p
  if ch.oper p then
    if !on then c1.operDown p 4
    else if !insts then c1.operDown p 6
    else if st = 4 then c1.operDown p 5
    else if st = 3 then (if w.timer = 1 then c1.portTimer p 0 else c1)
    else if w.timer = 1 then c1
    else if !lane || decide (ch.portF p LINE.PORT_TIMERS_DOWN_HOLD = 0) then c1.operDown p cause
    else (c1.putPw p { w with cause := cause }).portTimer p 1
  else if st ≠ 3 then (if w.timer = 0 then c1 else c1.portTimer p 0)
  else if was ≠ 3 ∧ lane ∧ ch.portF p LINE.PORT_TIMERS_UP_HOLD ≠ 0 then c1.portTimer p 2
  else if w.timer = 0 && on && insts then c1.operUp p
  else c1

end Sys2Proof.Machine
end

