-- ==== Sys2Proof/Machine/TestCore.lean ====
section
/-! DEFINITION. Tests of the TEST pages and the lanes of the Phota bridge: what every block needs to know of them (R565–R571, R578). -/

namespace Sys2Proof.Machine

/-- Key of a target's test (R565). -/
def testKey (die kind index : Nat) : Nat := die * 2 ^ 20 + kind % 16 * 2 ^ 16 + index % 2 ^ 16

/-- KIND of a test key. -/
def keyKind (k : Nat) : Nat := k / 2 ^ 16 % 16

/-- INDEX of a test key. -/
def keyIndex (k : Nat) : Nat := k % 2 ^ 16

/-- Die of a test key. -/
def keyDie (k : Nat) : Nat := k / 2 ^ 20

/-- A test. -/
def Chan.test (ch : Chan) (k : Nat) : TestT := tget {} ch.tests k

/-- Replace a test. -/
def Chan.putTest (ch : Chan) (k : Nat) (x : TestT) : Chan := { ch with tests := tput {} ch.tests k x }

/-- The target is under test. -/
def Chan.testing (ch : Chan) (k : Nat) : Bool := (ch.test k).st == 2

/-- One direction of a bridge module. -/
def Chan.brDir (ch : Chan) (dir m : Nat) : BrDir := tget {} ch.brdg (dir * 8 + m)

/-- Replace one direction of a bridge module. -/
def Chan.putBrDir (ch : Chan) (dir m : Nat) (x : BrDir) : Chan := { ch with brdg := tput {} ch.brdg (dir * 8 + m) x }

/-- Redundant lanes 64–67 of a module that work and stand for no lane (R578). -/
def BrDir.free (b : BrDir) : List Nat := [64, 65, 66, 67].filter (fun r => !(b.sub.any (fun e => e.1 == r)) && !(b.bad.contains r))

/-- A lane test has ended: the redundant lane that stood in for a sound lane is free again. -/
def Chan.brReturn (ch : Chan) (dir index : Nat) : Chan :=
  let b := ch.brDir dir (index / 68)
  if b.bad.contains (index % 68) then ch
  else ch.putBrDir dir (index / 68) { b with sub := b.sub.filter (fun e => e.2 != index % 68) }

/-- A test ends DONE (3) or STOPPED (4): TEST_END in its page and in the journal (R577). What the target does next is the caller's. -/
def Chan.testEnd (ch : Chan) (k st : Nat) : Chan :=
  let x := ch.test k
  let c1 := ch.putTest k { x with st := st, lock := false, live := false }
  let c2 := if keyKind k = 2 then c1.brReturn (keyDie k) (keyIndex k) else c1
  (c2.raise (pgTest (keyDie k)) 8).journal (pgTest (keyDie k)) clsNone 2
    (keyKind k + keyIndex k * 2 ^ 16 + st * 2 ^ 32 + x.err * 2 ^ 64)

/-- Tests that run. -/
def Chan.running (ch : Chan) : List Nat := (ch.tests.filter (fun e => e.2.st == 2)).map Prod.fst

/-- A fatal cause arrives: every test ends STOPPED, its counters as they are (R591). -/
def Chan.testsFatal (ch : Chan) : Chan := ch.each ch.running (fun c k => c.testEnd k 4)

/-- A table bank is under test (R571). -/
def Chan.bankTested (ch : Chan) (b : Nat) : Bool := ch.testing (testKey 0 4 b)

/-- The tests of FlexE clients follow the transmit calendar of group `g`: a client without slots there ends its test (R569). -/
def Chan.clientTests (ch : Chan) (g : Nat) (slots : Nat → Nat) : Chan :=
  ch.each (ch.running.filter (fun k => keyKind k == 3 && ch.getF pgFlex (FLEX.CLIENT_CFG_GROUP (keyIndex k)) == g
    && slots (ch.getF pgFlex (FLEX.CLIENT_CFG_CLIENT_ID (keyIndex k))) == 0)) (fun c k => c.testEnd k 4)

end Sys2Proof.Machine
end

