-- ==== Sys2Proof/Machine/Run.lean ====
section
/-! DEFINITION. How a meaning runs on a channel: the channel must be alive, its outputs are delivered by the package, and a
fatal cause stops the channel (R588, R598). -/

namespace Sys2Proof.Machine

/-- The vector of a ring of the channel. -/
def Chan.ringVec (ch : Chan) (p r : Nat) : Nat := (ch.ring p r).vector

/-- The package takes the outputs of channel `c`, none of which is a fatal cause. -/
def State.flush (s : State) (c : Fin 4) : State :=
  let ch := s.chan c
  ch.outQ.foldl (State.deliverOne c.val ch.ringVec) (s.setChan c { ch with outQ := [] })

/-- Journal an event of a host island page in channel 0, while channel 0 reads RUNNING (R26, R121, R558, R619). -/
def State.islJournal (s : State) (page cls ev : Nat) (detail : Nat := 0) : State :=
  if s.chState 0 = 4 then
    let ch := s.chan 0
    (s.setChan 0 (ch.jrnlRaw (jrnlEntry ch.t64 ch.quality (15 * 2 ^ 12 + page) cls ev detail))).flush 0
  else s

/-- The channel's state changes: CH_STAT.STATE, the time of the change, and CH_STATE (R617, R619). -/
def State.setChState (s : State) (c st : Nat) : State :=
  if s.isl.getF hpPwr (PWRH.CH_STAT_STATE c) = st then s
  else
    let i1 := s.isl.putF hpPwr (PWRH.CH_STAT_STATE c) st
    { s with isl := { i1 with chSince := tput 0 i1.chSince c i1.ns } }.islRaise hpPwr 8

/-- A fatal cause ends the channel's tests (R591). -/
def State.endTests (s : State) (c : Fin 4) : State :=
  if s.chLive c then (s.setChan c (s.chan c).testsFatal).flush c else s

/-- The converters of a channel that reads FATAL are switched off: it keeps no page (R584, R593, R598), and CAUSE shows why. -/
def State.fatalOff (s : State) (c : Fin 4) (cause : Nat) : State :=
  s.onIsl (fun i => { i.putF hpPwr (PWRH.CH_STAT_CAUSE c.val) cause with forcedOff := setNbit i.forcedOff c.val true })

/-- Stop every Cosy output, lane and data path of the channel: it reads FATAL with a CAUSE, and its own keeper journals the
event handed in (R588, R590). A channel without power keeps no page (R598); one that is already FATAL loses its power too. -/
def State.fatalChan (s : State) (c : Fin 4) (cause : Nat) (off : Bool) : State :=
  if s.hasChan c && s.chState c == 6 && off && !(nbit s.isl.forcedOff c.val) then s.fatalOff c cause
  else if s.hasChan c && s.chState c != 6 then
    let s1 := (s.endTests c).setChState c.val 6
    let s2 := s1.onIsl (fun i => i.putF hpPwr (PWRH.CH_STAT_CAUSE c.val) cause)
    let s3 := if off then s2.onIsl (fun i => { i with forcedOff := setNbit i.forcedOff c.val true }) else s2
    (s3.emit (.pin 0x10 [c.val])).islJournal hpPwr clsChanFatal 3 (c.val + cause * 2 ^ 8)
  else s

/-- The class of the journal entry of a FAULT: WRITE_REJECT for a rejected write, that of the error captured with it, else CONTAINED
(log 44). -/
def Chan.faultClass (ch : Chan) (key : Nat) : Nat :=
  if ch.outQ.contains (.note 4 key) then clsReject
  else if ch.outQ.contains (.note 2 key) then fld (ch.get (pageOf key) (oERR 5)) 23 20 else clsContained

/-- The journal entry of a FAULT or DEGRADED cause of a page (R67): the spec gives it no event number and no detail, which are free values
(log 44). -/
def Chan.causeEntry (ch : Chan) (key cls : Nat) : Chan :=
  let p := pageOf key
  (ch.takeFree.takeFree).jrnlRaw (jrnlEntry ch.t64 ch.quality p.source cls (ch.freeVal 12) (ch.takeFree.freeVal 64))

/-- The active keeper journals every FAULT and DEGRADED cause set in the present command, whose page has journalled no event of its own for
it (R67). -/
def Chan.journalCauses (ch : Chan) : Chan :=
  ch.each ch.outQ (fun c o => match o with
    | .note 0 k => if ch.outQ.contains (.note 3 k) then c else c.causeEntry k (ch.faultClass k)
    | .note 1 k => if ch.outQ.contains (.note 3 k) then c else c.causeEntry k clsDegraded
    | _ => c)

/-- The package takes the outputs of channel `c`. -/
def State.deliver (s : State) (c : Fin 4) : State :=
  let ch := (s.chan c).journalCauses
  let s1 := s.setChan c { ch with outQ := [] }
  ch.outQ.foldl (fun t o => match o with
    | .fatal cause => t.fatalChan c cause false
    | o => State.deliverOne c.val ch.ringVec t o) s1

/-- Run an effect on a channel and deliver its outputs. -/
def State.runChan (s : State) (c : Fin 4) (f : Chan → Chan) : State := (s.setChan c (f (s.chan c))).deliver c

/-- An event of a channel whose data path runs (R588, R598). -/
def State.onLive (s : State) (c : Fin 4) (f : Chan → Chan) : State := if s.chLive c then s.runChan c f else s

/-- The registers of a page that freeze with a FATAL channel (R39, R588): tally counters, RC registers, the counters that no read clears,
and the error captures. -/
def isCounter (key : Nat) : Bool :=
  let p : Pg := ⟨key / 0x2000000, key % 0x2000000 / 0x10000⟩
  let off := key % 0x10000
  match p.kind with
  | none => false
  | some k =>
    (k.cap.tally && decide (0xC0 ≤ off) && decide (off < 0x100)) || (k.cap.errCap && decide (oERR 0 ≤ off) && decide (off ≤ oERR 7))
      || (k == .line && decide (0x1100 ≤ off) && decide (off < 0x3000) && decide (256 ≤ off % 1024))
      || (match findReg k off with
          | some h => !h.row.fields.isEmpty && h.row.fields.all (fun f => f.acc == .rc)
          | none => false)
      || ((k == .keepA || k == .keepB) && (off == 0x120 || off == 0x124))

/-- The registers of `new`, its counters as they were in `old`. -/
def freezeCounters (old new : Chan) : Chan :=
  let keep := new.regs.filter (fun e => !(isCounter e.1))
  { new with regs := (old.regs.filter (fun e => isCounter e.1)).foldl (fun t e => rput chanReset t e.1 e.2) keep }

/-- An access to a page of a channel: the counters of one that reads FATAL stay frozen (R39, R588). -/
def State.onPages (s : State) (c : Fin 4) (f : Chan → Chan) : State :=
  s.runChan c (fun ch => if s.chState c = 6 then freezeCounters ch (f ch) else f ch)

/-- An event of a keeper: it also runs in a channel that reads FATAL and has power, whose counters stay frozen (R588). -/
def State.onKeeper (s : State) (c : Fin 4) (f : Chan → Chan) : State :=
  if s.chLive c then s.runChan c f
  else if s.chPages c && s.chState c == 6 then s.runChan c (fun ch => freezeCounters ch (f ch))
  else s

/-- The relay link of a channel carries accesses; channel 0 has none (R23, R26), and the RELAY block carries none while it is disabled
(R59). -/
def State.relayUp (s : State) (c : Fin 4) : Bool :=
  decide (c.val = 0) || (s.isl.getF hpRelay (RELAY.LINK_STAT_STATE c.val) == 1 && s.isl.getB hpRelay CTRL_ENABLE)

/-- The channel can reach host memory: no failed relay link, PCIe up, channel 0's FE die alive (R22–R24), and the HOST block enabled (R59). -/
def State.hostReach (s : State) (c : Fin 4) : Bool :=
  !s.isl.dead && !s.isl.perst && s.isl.l0 && s.relayUp c && s.isl.getB hpHost CTRL_ENABLE

/-- A CRIT condition stands on a die of the channel: any sensor at or above CRIT and not yet 5 °C below it (R584). The
standing conditions are kept in the SENS pages' working bits. -/
def Chan.critStands (ch : Chan) : Bool := decide (ch.crit ≠ 0)

/-- CHc_ALERT_N is asserted (R590). -/
def State.chAlert (s : State) (c : Fin 4) : Bool :=
  s.hasChan c && (s.chState c == 6 || s.isl.pkgFatal || (s.chPages c && ((s.chan c).noKeeper || (s.chan c).critStands)))

/-- PWR.CH_STAT as read: PIN_RST, ALERT and TIME are live (R617). -/
def State.chStatView (s : State) (c : Fin 4) : Word :=
  let w := s.isl.get hpPwr (PWRH.CH_STAT c.val)
  let w1 := setFld (setFld w 28 28 (b2n (nbit s.isl.chPin c.val))) 27 27 (b2n (s.chAlert c))
  setFld w1 19 0 (min ((s.isl.ns - tget 0 s.isl.chSince c.val) / 1000000) (2 ^ 20 - 1))

/-- The word a read of a host island register returns. -/
def State.islView (s : State) (k : PageKind) (p off : Nat) : Word :=
  if off = oID then BitVec.ofNat 32 (pageId k 0 15 15)
  else if off = oREV then BitVec.ofNat 32 (pageRev k 15)
  else if off = oCAP then k.cap.word
  else if off = oFORCE then s.isl.get p oCAUSE
  else if k.cap.tally ∧ off = 0x88 then BitVec.ofNat 32 (s.isl.ns - s.isl.pageNs)
  else if k.cap.tally ∧ off = 0x8C then BitVec.ofNat 32 ((s.isl.ns - s.isl.pageNs) / 2 ^ 32)
  else if p = hpPwr ∧ 0x120 ≤ off ∧ off < 0x130 then
    if h : (off - 0x120) / 4 < 4 then s.chStatView ⟨(off - 0x120) / 4, h⟩ else 0
  else s.isl.get p off

/-- Registers of a host island page that stand for a channel: they are unimplemented where the variant lacks it (R26, R615). -/
def islChanOf (p off : Nat) : Option Nat :=
  if p = hpRelay ∧ 0x100 ≤ off ∧ off < 0x140 then some ((off - 0x100) / 16)
  else if p = hpPwr ∧ 0x110 ≤ off ∧ off < 0x120 then some ((off - 0x110) / 4)
  else if p = hpPwr ∧ 0x120 ≤ off ∧ off < 0x130 then some ((off - 0x120) / 4)
  else none

end Sys2Proof.Machine
end

