-- ==== Sys2Proof/Machine/Access.lean ====
section
/-! DEFINITION. Register access: location, rights in the order of R47, 64-bit latching and staging (R45, R46), reads with
their side effects (R44), and writes with reserved encodings rejected (R4). -/

namespace Sys2Proof

open Sys2Proof.Machine

/-- The PCIe function number whose rights the requester has; JTAG acts with PF0's (R614). -/
def Req.func? : Req → Option Nat
  | .func n => some n
  | .jtag => some 0
  | .keeperA => none
  | .keeperB => none
  | .smbus => some 0

/-- The keeper the requester is. -/
def Req.keeper? : Req → Option Nat
  | .keeperA => some 0
  | .keeperB => some 1
  | _ => none

/-- PF0, or JTAG with PF0's rights. -/
def Req.isPf0 (r : Req) : Bool := r.func? == some 0

/-- Key of the requester's T96 snapshot (R134). -/
def Req.snapKey (r : Req) : Nat :=
  match r.keeper? with
  | some k => 128 + k
  | none => r.func?.getD 0

/-- Attributes of a register access for the tally unit (R76). -/
def Req.attr (r : Req) (part : Option Nat) : Attr :=
  match r.keeper? with
  | some k => { priv := some 1, agent := some (0x100 + k) }
  | none =>
    let f := r.func?.getD 0
    if f = 0 then { priv := some 2, agent := some 0x200 } else { priv := some 3, agent := some (0x200 + f), part := part }

end Sys2Proof

namespace Sys2Proof.Machine

/-- What a BAR0 byte address names (R40, R41). -/
inductive Loc where
  | isl (page off : Nat)
  | chan (c : Fin 4) (p : Pg) (off : Nat)
  | hole
deriving DecidableEq, Repr

/-- Split a BAR0 address (R41). -/
def locate (addr : Nat) : Loc :=
  if addr < 0x4000000 then .isl (addr / 0x10000) (addr % 0x10000)
  else if h : 0x8000000 ≤ addr ∧ addr < 0x18000000 then
    let a := addr - 0x8000000
    .chan ⟨a / 0x4000000, by omega⟩ ⟨a % 0x4000000 / 0x2000000, a % 0x2000000 / 0x10000⟩ (a % 0x10000)
  else .hole

/-- BAR0 address of a channel register (R41). -/
def addrOf (c : Nat) (p : Pg) (off : Nat) : Nat :=
  0x8000000 + c * 0x4000000 + p.die * 0x2000000 + p.num * 0x10000 + off

/-- The partition of a channel that a function belongs to, the lowest (R550). -/
def Chan.partOf (ch : Chan) (f : Nat) : Option Nat := firstBelow 32 (fun p => (ch.part p).member f)

/-- Can a PCIe function reach the part (R24, R534)? -/
def State.reachFn (s : State) (n : Nat) : Bool := !s.isl.dead && (decide (n = 0) || (decide (n < 128) && s.isl.vfEnable))

/-- Can the requester reach the register space at all? A VF has a BAR0 only while VF_BAR0 is applied (R534); nothing
reaches a package whose channel 0 FE die has failed (R24). -/
def State.reach (s : State) (r : Req) : Bool :=
  match r with
  | .func n => !s.isl.dead && (decide (n = 0) || (decide (n < 128) && s.isl.vfEnable && s.isl.vfBar0))
  | .jtag => s.isl.powered && !s.isl.dead && s.isl.getB hpPwr PWRH.JTAG_STAT_UNLOCKED
  | .smbus => s.isl.powered && !s.isl.dead
  | .keeperA => true
  | .keeperB => true

/-- The pages that the SMBus port reaches: host island PWR and SENS, and SENS and PWR of every die (R612). -/
def smbReach : Loc → Bool
  | .isl p _ => p == hpPwr || p == hpSens
  | .chan _ p _ => p.num == 0x4A || p.num == 0x4B
  | .hole => false

/-- Is the host island register implemented (R42)? -/
def State.islReg (s : State) (p off : Nat) : Option RegHit :=
  match hpKind p with
  | none => none
  | some k =>
    match islChanOf p off with
    | some c => if c < s.variant.channels then findReg k off else none
    | none => findReg k off

/-- A rejection of R47 or R48: kind 0 KW, 1 MW, 2 owner. Counter, REJ_FIRST and ACC_REJ (R49, R50). -/
def State.reject (s : State) (kind : Nat) (isRead : Bool) (f addr : Nat) : State :=
  let s1 := s.onIsl (fun i => i.inc hpHost (HOST.REJ_KW_CNT + 4 * kind))
  let s2 := if bit (s1.isl.get hpHost HOST.REJ_FIRST) 31 then s1
    else s1.onIsl (fun i =>
      (i.putN hpHost HOST.REJ_FIRST (2 ^ 31 + kind * 2 ^ 29 + b2n isRead * 2 ^ 28 + (f % 128) * 2 ^ 21 + addr / 4 % 2 ^ 21)).putN
        hpHost HOST.REJ_FIRST_HI (addr / 0x800000 % 64))
  s2.islRaise hpHost 8

/-- Count an access to an unimplemented location (R42). -/
def State.unimpl (s : State) : State := s.onIsl (fun i => i.inc hpHost HOST.UNIMPL_CNT)

/-- The latch of a requester (R45). -/
def State.latch (s : State) (r : Req) (c : Fin 4) : Latch :=
  match r with
  | .func n => tget {} s.isl.latches n
  | .jtag => tget {} s.isl.latches 0
  | .keeperA => (s.chan c).keepA.latch
  | .keeperB => (s.chan c).keepB.latch
  | .smbus => {}

/-- Replace the latch of a requester. -/
def State.setLatch (s : State) (r : Req) (c : Fin 4) (l : Latch) : State :=
  match r with
  | .func n => s.onIsl (fun i => { i with latches := tput {} i.latches n l })
  | .jtag => s.onIsl (fun i => { i with latches := tput {} i.latches 0 l })
  | .keeperA => s.setChan c { s.chan c with keepA := { (s.chan c).keepA with latch := l } }
  | .keeperB => s.setChan c { s.chan c with keepB := { (s.chan c).keepB with latch := l } }
  | .smbus => s

/-- A word with its RC fields cleared (R6). -/
def clearRc (fs : List FieldD) (w : Word) : Word := fs.foldl (fun w f => if f.acc = .rc then setFld w f.hi f.lo 0 else w) w

/-- Does a row hold an RC field? -/
def hasRc (fs : List FieldD) : Bool := fs.any (fun f => f.acc == .rc)

/-- The word a field list leaves after a write of `v` over `old` (R6): RO and RC fields keep their value, WO fields read 0. -/
def mergeWord (fs : List FieldD) (old v : Word) : Word :=
  fs.foldl (fun w f => match f.acc with
    | .rw => setFld w f.hi f.lo (fld v f.hi f.lo)
    | .mw => setFld w f.hi f.lo (fld v f.hi f.lo)
    | .kw => setFld w f.hi f.lo (fld v f.hi f.lo)
    | .w1c => setFld w f.hi f.lo (Nat.land (fld old f.hi f.lo) (2 ^ (f.hi + 1 - f.lo) - 1 - fld v f.hi f.lo))
    | .w1s => setFld w f.hi f.lo (Nat.lor (fld old f.hi f.lo) (fld v f.hi f.lo))
    | .wo => setFld w f.hi f.lo 0
    | .womw => setFld w f.hi f.lo 0
    | .wokw => setFld w f.hi f.lo 0
    | .ro => w
    | .rc => w) old

/-- A KW field among the fields (R47 check 1). -/
def hasKw (fs : List FieldD) : Bool := fs.any (fun f => f.acc == .kw || f.acc == .wokw)

/-- An MW field among the fields (R47 check 2). -/
def hasMw (fs : List FieldD) : Bool := fs.any (fun f => f.acc == .mw || f.acc == .womw)

/-- What the pages of a channel show: the word a read returns, and what it clears beside the register itself. -/
structure PageView where
  word : Chan → Pg → Nat → Word
  clear : Chan → Pg → Nat → Chan

/-- What a read of a register of the channel is served from: the live 64-bit value, low word first. -/
def Chan.live64 (view : PageView) (ch : Chan) (p : Pg) (off : Nat) : Nat :=
  (view.word ch p off).toNat + (view.word ch p (off + 4)).toNat * 2 ^ 32

/-- Read one register of a channel as the requester (R44, R45, R134): the value, and the module after the side effects. -/
def State.chanRead (s : State) (view : PageView) (r : Req) (c : Fin 4) (p : Pg) (off : Nat) (h : RegHit) :
    Nat × State :=
  let ch := s.chan c
  if p = pgCosy ∧ off = 0x110 then
    (ch.time % 65536, s.setChan c { ch with snaps := tput 0 ch.snaps r.snapKey ch.time })
  else if p = pgCosy ∧ off = 0x114 then (tget 0 ch.snaps r.snapKey / 65536 % 1000000000, s)
  else if p = pgCosy ∧ off = 0x118 then (tget 0 ch.snaps r.snapKey / 65536 / 1000000000 % 2 ^ 32, s)
  else if p = pgCosy ∧ off = 0x11C then (tget 0 ch.snaps r.snapKey / 65536 / 1000000000 / 2 ^ 32 % 2 ^ 16, s)
  else if h.row.wide ∧ h.high = false then
    let v := Chan.live64 view ch p off
    let s1 := if r = .smbus then s else s.setLatch r c ⟨1, addrOf c.val p off, v⟩
    let s2 := if hasRc h.row.fields ∨ hasRc h.row.hiFields then
        s1.setChan c (((s1.chan c).put p off (clearRc h.row.fields (ch.get p off))).put p (off + 4)
          (clearRc h.row.hiFields (ch.get p (off + 4))))
      else s1
    (v % 2 ^ 32, s2)
  else if h.high then
    let l := s.latch r c
    if l.kind = 1 ∧ l.addr = addrOf c.val p (off - 4) then (l.val / 2 ^ 32, s) else ((view.word ch p off).toNat, s)
  else
    let v := view.word ch p off
    (v.toNat, if hasRc h.row.fields then
        s.setChan c (view.clear (ch.put p off (clearRc h.row.fields (ch.get p off))) p off)
      else s)

/-- Read one register of the host island. -/
def State.islRead (s : State) (r : Req) (k : PageKind) (p off : Nat) (h : RegHit) : Nat × State :=
  if h.row.wide ∧ h.high = false then
    let v := (s.islView k p off).toNat + (s.islView k p (off + 4)).toNat * 2 ^ 32
    (v % 2 ^ 32, if r = .smbus then s else s.setLatch r 0 ⟨1, p * 0x10000 + off, v⟩)
  else if h.high then
    let l := s.latch r 0
    if l.kind = 1 ∧ l.addr = p * 0x10000 + off - 4 then (l.val / 2 ^ 32, s) else ((s.islView k p off).toNat, s)
  else
    let v := s.islView k p off
    (v.toNat, if hasRc h.row.fields then s.onIsl (fun i => i.put p off (clearRc h.row.fields (i.get p off))) else s)

/-- A register read by a requester (R42–R48): the value returned, and the module after it. `view` is what the pages of a
channel show. -/
def State.readAt (s : State) (view : Fin 4 → PageView) (r : Req) (addr : Nat) : Nat × State :=
  let loc := locate addr
  match r.keeper? with
  | some kp =>
    match loc with
    | .chan c p off =>
      if s.chPages c ∧ (s.chan c).busOn kp = true then
        match p.kind with
        | some k => match findReg k off with
          | some h => s.chanRead (view c) r c p off h
          | none => (0, s)
        | none => (0, s)
      else (0, s)
    | _ => (0, s)
  | none =>
    if s.reach r = false ∨ (s.isl.perst ∧ r ≠ .smbus) then (0, s)
    else if r = .smbus ∧ smbReach loc = false then (0, s)
    else match loc with
      | .hole => (0, s.unimpl)
      | .isl p off =>
        match hpKind p, s.islReg p off with
        | some k, some h =>
          let s1 := s.islTally p 2 (r.attr none)
          if r.isPf0 then s1.islRead r k p off h
          else (0, (s1.reject 2 true (r.func?.getD 0) addr).islTally p 6 (r.attr none))
        | _, _ => (0, s.unimpl)
      | .chan c p off =>
        if s.hasChan c = false then (0, s.unimpl)
        else if s.chPages c = false ∨ s.relayUp c = false then (0, s)
        else match p.kind with
          | none => (0, s.unimpl)
          | some k => match findReg k off with
            | none => (0, s.unimpl)
            | some h =>
              let f := r.func?.getD 0
              let a := r.attr ((s.chan c).partOf f)
              let s1 := s.onPages c (fun ch => ch.tally p 2 a)
              if r.isPf0 || ((s.chan c).part 0).member f then s1.chanRead (view c) r c p off h
              else (0, (s1.reject 2 true f addr).onPages c (fun ch => ch.tally p 6 a))

/-- A register write as a page receives it. -/
structure WReq where
  c : Fin 4
  p : Pg
  off : Nat
  r : Req
  /-- the word before the write -/
  old : Word
  /-- the word written -/
  v : Word
  /-- the word by the access codes of the fields -/
  merged : Word
  /-- for the high word of a 64-bit value: the low word it commits, by the access codes -/
  lowMerged : Option Word := none
  /-- a staged low word stands behind it (R46) -/
  staged : Bool := false

/-- What a write does to the channel once it has passed its checks. -/
abbrev Hook := WReq → Chan → Chan

/-- The plain write: the register takes the merged word; a 64-bit value both words (R46). -/
def plainHook : Hook := fun w ch =>
  match w.lowMerged with
  | none => ch.put w.p w.off w.merged
  | some l => (ch.put w.p (w.off - 4) l).put w.p w.off w.merged

/-- The keeper's refused write (R89): tally event 0x05 on the page, and on the keeper's own KEEP page the count, the first
refusal and GATE_REJ. -/
def Chan.gateReject (ch : Chan) (k : Nat) (p : Pg) (off : Nat) : Chan :=
  let kp := pgKeep k
  let c1 := (ch.tally p 5 { priv := some 1, agent := some (0x100 + k) }).inc kp KEEP.GATE_REJ_CNT
  let c2 := if c1.getB kp KEEP.GATE_REJ_FIRST_VALID then c1
    else c1.putN kp KEEP.GATE_REJ_FIRST (2 ^ 31 + p.die * 2 ^ 29 + p.num * 2 ^ 20 + off / 4)
  c2.raise kp 12

/-- The effect of a write at a page offset: in a channel that reads FATAL every counter stays frozen, but for the counters of a tally unit
that the write itself sets, and for a soft reset (R588). -/
def State.hookRun (s : State) (c : Fin 4) (off : Nat) (f : Chan → Chan) : State :=
  if off = oCTRL ∨ (0x80 ≤ off ∧ off < 0x100) then s.runChan c f else s.onPages c f

/-- A write that has passed R47 reaches the register: reserved encodings (R4), staging and commit of 64-bit values (R46).
`judge` is false for a register with a refusal of its own. -/
def State.applyWrite (s : State) (hook : Hook) (judge : Bool) (r : Req) (c : Fin 4) (p : Pg) (off : Nat) (k : PageKind)
    (h : RegHit) (v : Word) : State :=
  let ch := s.chan c
  if h.row.wide ∧ h.high = false then
    if writable h.row.fields then s.setLatch r c ⟨2, addrOf c.val p off, v.toNat⟩ else s
  else if h.high then
    let l := s.latch r c
    let staged := decide (l.kind = 2 ∧ l.addr = addrOf c.val p (off - 4))
    let lowOld := ch.get p (off - 4)
    let low := if staged then BitVec.ofNat 32 l.val else lowOld
    let s1 := if staged then s.setLatch r c {} else s
    if judge && !(wordLegal k off h v && (!staged || wordLegal k (off - 4) ⟨h.row, false⟩ low) && pairLegal k (off - 4) low v) then
      s1.runChan c (fun ch => ch.rejectWrite p off)
    else s1.hookRun c off (hook ⟨c, p, off, r, ch.get p off, v, mergeWord h.row.hiFields (ch.get p off) v,
      some (if staged then mergeWord h.row.fields lowOld low else lowOld), staged⟩)
  else if judge && !(wordLegal k off h v) then s.runChan c (fun ch => ch.rejectWrite p off)
  else s.hookRun c off (hook ⟨c, p, off, r, ch.get p off, v, mergeWord h.row.fields (ch.get p off) v, none, false⟩)

/-- A keeper's register write (R80, R87–R89): nothing leaves a keeper whose cores do not run; the claim gate judges the write on a page
that has one; MW fields take no keeper write. -/
def State.keeperWrite (s : State) (hook : Hook) (judge : Bool) (kp : Nat) (c : Fin 4) (p : Pg) (off : Nat) (v : Word) : State :=
  if s.chPages c ∧ (s.chan c).busOn kp = true then
    match p.kind with
    | none => s
    | some k => match findReg k off with
      | none => s
      | some h =>
        let r : Req := if kp = 0 then .keeperA else .keeperB
        let a := r.attr none
        if k.cap.gate then
          if (s.chan c).winner = some kp then
            let s1 := s.onPages c (fun ch => ch.tally p 4 a)
            if hasMw h.flds then s1 else s1.applyWrite hook judge r c p off k h v
          else s.onPages c (fun ch => ch.gateReject kp p off)
        else if hasMw h.flds then s
        else s.applyWrite hook judge r c p off k h v
  else s

/-- A host register write to a page of a channel (R42–R47). -/
def State.hostWrite (s : State) (hook : Hook) (judge : Bool) (r : Req) (c : Fin 4) (p : Pg) (off : Nat) (v : Word) : State :=
  if s.hasChan c = false then s.unimpl
  else if s.chPages c = false ∨ s.relayUp c = false then s
  else match p.kind with
    | none => s.unimpl
    | some k => match findReg k off with
      | none => s.unimpl
      | some h =>
        let f := r.func?.getD 0
        let a := r.attr ((s.chan c).partOf f)
        let addr := addrOf c.val p off
        let s1 := s.onPages c (fun ch => ch.tally p 3 a)
        if hasKw h.flds then (s1.reject 0 false f addr).onPages c (fun ch => ch.tally p 6 a)
        else if hasMw h.flds && !r.isPf0 then (s1.reject 1 false f addr).onPages c (fun ch => ch.tally p 6 a)
        else if !r.isPf0 && !(((s.chan c).part 0).member f) then
          (s1.reject 2 false f addr).onPages c (fun ch => ch.tally p 6 a)
        else s1.applyWrite hook judge r c p off k h v

/-- A register write to a page of a channel, by any requester. The SMBus port writes SENS.THRESH alone (R612). -/
def State.chanWrite (s : State) (hook : Hook) (judge : Bool) (r : Req) (c : Fin 4) (p : Pg) (off : Nat) (v : Word) : State :=
  match r.keeper? with
  | some kp => s.keeperWrite hook judge kp c p off v
  | none =>
    if s.reach r = false ∨ (s.isl.perst ∧ r ≠ .smbus) ∨ (r = .smbus ∧ ¬ (p.num = 0x4A ∧ off = 0x164)) then s
    else s.hostWrite hook judge r c p off v

/-- What a write to a host island register does: page, offset, word before, word written, word by the access codes. -/
abbrev IslHook := Nat → Nat → Word → Word → Word → State → State

/-- The plain write of a host island register. -/
def plainIsl : IslHook := fun p off _ _ m s => s.onIsl (fun i => i.put p off m)

/-- A register write to a page of the host island (R42–R47); the SMBus port writes PWR.IN_CFG and SENS.THRESH alone (R612). -/
def State.islWrite (s : State) (hook : IslHook) (r : Req) (p off : Nat) (v : Word) : State :=
  match r.keeper? with
  | some _ => s
  | none =>
    if s.reach r = false ∨ (s.isl.perst ∧ r ≠ .smbus) then s
    else if r = .smbus ∧ ¬ ((p = hpPwr ∧ off = 0x104) ∨ (p = hpSens ∧ off = 0x164)) then s
    else match hpKind p, s.islReg p off with
      | some k, some h =>
        let f := r.func?.getD 0
        let a := r.attr none
        let s1 := s.islTally p 3 a
        if hasMw h.flds && !r.isPf0 then (s1.reject 1 false f (p * 0x10000 + off)).islTally p 6 a
        else if !r.isPf0 then (s1.reject 2 false f (p * 0x10000 + off)).islTally p 6 a
        else if h.row.wide ∧ h.high = false then
          if writable h.row.fields then s1.setLatch r 0 ⟨2, p * 0x10000 + off, v.toNat⟩ else s1
        else if h.high then
          let l := s1.latch r 0
          let staged := decide (l.kind = 2 ∧ l.addr = p * 0x10000 + off - 4)
          let s2 := if staged then s1.setLatch r 0 {} else s1
          let lowOld := s2.isl.get p (off - 4)
          let s3 := if staged then s2.onIsl (fun i => i.put p (off - 4) (mergeWord h.row.fields lowOld (BitVec.ofNat 32 l.val))) else s2
          s3.onIsl (fun i => i.put p off (mergeWord h.row.hiFields (i.get p off) v))
        else if !(wordLegal k off h v) then
          (s1.islCapture p clsReject 0 off 0 0).islRaise p 0
        else hook p off (s1.isl.get p off) v (mergeWord h.row.fields (s1.isl.get p off) v) s1
      | _, _ => s.unimpl

end Sys2Proof.Machine
end

