-- ==== Sys2Proof/Machine/RingOps.lean ====
section
/-! DEFINITION. What stops a ring and what a stopped ring drops (R535, R540–R543, R562, R563). -/

namespace Sys2Proof.Machine

/-- Count records dropped at a ring: DROP_CNT, LOST_BEFORE on the next write-back, RECORD_DROP when the count leaves 0. -/
def Chan.ringDrop (ch : Chan) (p r n : Nat) : Chan :=
  if n = 0 then ch
  else
    let x := ch.ring p r
    let c1 := ch.putRing p r { x with drop := satAdd 32 x.drop n, lost := true }
    if x.drop = 0 then c1.raise pgPart 11 else c1

/-- A RING_ERROR entry, at most one per second per ring (R563). -/
def Chan.ringErrJournal (ch : Chan) (p r code : Nat) : Chan :=
  let x := ch.ring p r
  let sec := ch.ns / 1000000000
  if x.errJrnl ≠ 0 ∧ sec < x.errJrnl then ch
  else (ch.putRing p r { x with errJrnl := sec + 1 }).journal pgPart clsContained 5 (p + r * 2 ^ 8 + code * 2 ^ 16)

/-- A ring stops with ERROR and a code (R540–R542): the cause, the capture of a DMA error, and the journal. -/
def Chan.ringError (ch : Chan) (p r code : Nat) (dma : Option Nat := none) : Chan :=
  let c1 := ch.putRing p r { ch.ring p r with error := true, errCode := code }
  let c2 := match dma with
    | some a => c1.capture pgPart clsContained 10 a (p * 32 + r) code
    | none => c1
  (c2.raise pgPart 10).ringErrJournal p r code

/-- A function or the link takes a ring away (R535, R558): its open buffer and its queued records are abandoned and counted,
and it stops with ERROR and the code. The journal stream ring holds no record of its own: its entries wait (R129). -/
def Chan.ringAbandon (ch : Chan) (p r code : Nat) : Chan :=
  let x := ch.ring p r
  let queued := (ch.recQ.filter (fun q => q.part == p && q.ring == r)).length
  let inBuf := if r = 19 then 0 else match x.buf with | some b => b.records | none => 0
  let c1 := { ch with recQ := ch.recQ.filter (fun q => !(q.part == p && q.ring == r)) }
  let c2 := c1.putRing p r { x with buf := none, error := true, errCode := code }
  (c2.ringDrop p r (queued + inBuf)).raise pgPart 10

/-- A learn record finds its ring full or closed, and its SEEN entry leaves the filter (R392, R554). -/
def Chan.learnDrop (ch : Chan) (bytes : List Byte) : Chan :=
  let t := leAt bytes 17 1
  let key := sliceBytes bytes 32 (leAt bytes 25 1)
  let c1 := { ch with tbl := { ch.tbl with
    filter := ch.tbl.filter.filter (fun e => e.contested || !(e.table == t && e.key == key)) } }
  ((c1.inc pgLearn LEARN.RING_DROP).raise pgLearn 9).journalSec pgLearn clsContained 2 0 0 1

/-- A record bound for a ring toward the host (R542, R554): once step 5 of a quiesce has begun, it is dropped. -/
def Chan.sendRec (ch : Chan) (p r : Nat) (time : Nat) (bytes : List Byte) : Chan :=
  let x := ch.part p
  if (x.state = 2 ∧ 5 ≤ x.step) ∨ x.state = 3 then
    let c1 := ch.ringDrop p r 1
    if r = 16 then c1.learnDrop bytes else c1
  else { ch with recQ := ch.recQ ++ [{ part := p, ring := r, bytes := bytes, time := time }] }

/-- The enabled rings of the channel that satisfy a test, as (partition, ring) pairs. -/
def Chan.ringsWhere (ch : Chan) (f : Nat → Nat → Ring → Bool) : List (Nat × Nat) :=
  (ch.rings.filter (fun e => e.2.en && !e.2.error && f (e.1 / 32) (e.1 % 32) e.2)).map (fun e => (e.1 / 32, e.1 % 32))

/-- Stop the rings whose identity names function `f` (R535), and journal FLR_STOP when any stopped. -/
def Chan.flrStop (ch : Chan) (f : Nat) : Chan :=
  let l := ch.ringsWhere (fun p _ x => (ch.part p).names f x.ident)
  let c1 := ch.each l (fun c e => c.ringAbandon e.1 e.2 4)
  if l.isEmpty then c1 else c1.journal pgPart clsContained 6 (f % 256 + l.length * 2 ^ 32)

/-- Stop every enabled ring as a host island reset does (R535, R597). -/
def Chan.stopAllRings (ch : Chan) : Chan :=
  let l := ch.ringsWhere (fun _ _ _ => true)
  let c1 := ch.each l (fun c e => c.ringAbandon e.1 e.2 4)
  if l.isEmpty then c1 else c1.journal pgPart clsContained 6 (l.length * 2 ^ 32)

/-- Run an effect on every channel whose data path runs. -/
def State.onAllLive (s : State) (f : Chan → Chan) : State :=
  (((s.onLive 0 f).onLive 1 f).onLive 2 f).onLive 3 f

end Sys2Proof.Machine
end

