-- ==== Sys2Proof/Machine/KeeperOps.lean ====
section
/-! DEFINITION. Shared operations of the keepers: claims and what a gate discards (R86–R91), the ways into REPAIR (R92, R101,
R103), service commands (R111, R112, R620). -/

namespace Sys2Proof.Machine

/-- Set KEEP.STATUS.STATE; a keeper whose firmware begins to run may write its heartbeat in this cycle. -/
def Chan.setKstate (ch : Chan) (k st : Nat) : Chan :=
  let x := ch.keeper k
  (ch.putKeeper k { x with ran := x.ran || (decide (2 ≤ st) && decide (st ≤ 4)) }).putF (pgKeep k) KEEP.STATUS_STATE st

/-- The receiving keeper `o` discards a copy of keeper `k` (R98): count, cause and journal entry. -/
def Chan.copyFail (ch : Chan) (k o : Nat) : Chan :=
  let c1 := { ch with inflight := none, copyBad := ch.copyBad + 1 }
  ((c1.inc (pgKeep o) KEEP.COPY_FAIL_CNT).raise (pgKeep o) 11).journal (pgKeep k) clsCorrected 4 (ch.nat (pgKeep k) KEEP.CYCLE_IDX)

/-- The sender or the Saucer link fails: a transfer that is not complete is discarded (R97, R98). -/
def Chan.cutCopy (ch : Chan) : Chan :=
  if ch.inflight.isSome && decide (ch.ns < ch.inflightEnd) then ch.copyFail (1 - ch.inflightTo) ch.inflightTo else ch

/-- The gate's winner has changed from keeper `k`: its staged low word is discarded and counted (R90). -/
def Chan.discardStaged (ch : Chan) (k : Nat) : Chan :=
  let kp := ch.keeper k
  let c1 := ch.putKeeper k { kp with latch := if kp.latch.kind = 2 then {} else kp.latch }
  let staged := b2n (decide (kp.latch.kind = 2)) + b2n (decide (ch.karmBy = k + 1))
  let c2 := if ch.karmBy = k + 1 then { c1.putList pgAct 0x130 [0, 0, 0, 0, 0] with karmBy := 0 } else c1
  if staged = 0 then c2 else (c2.inc (pgKeep k) KEEP.GATE_REJ_CNT staged).raise (pgKeep k) 12

/-- Change claims, and let the gates discard what a former winner has staged (R90). -/
def Chan.withGate (ch : Chan) (f : Chan → Chan) : Chan :=
  let c1 := f ch
  match ch.winner with
  | some k => if c1.winner = some k then c1 else c1.discardStaged k
  | none => c1

/-- The keeper presents a claim. -/
def Chan.setClaim (ch : Chan) (k v : Nat) : Chan := ch.withGate (fun c => c.putF (pgKeep k) KEEP.CLAIM_CLAIM v)

/-- The keeper raises its claim: FORCED clears (R115). -/
def Chan.raiseClaim (ch : Chan) (k v : Nat) : Chan := (ch.setClaim k v).putF (pgKeep k) KEEP.CLAIM_FORCED 0

/-- Complete the service command on a keeper's page (R111, R620): TAG and STATUS with DONE in one cycle. -/
def Chan.svcDone (ch : Chan) (k tag status : Nat) : Chan :=
  (ch.putN (pgKeep k) KEEP.SVC_STAT (2 ^ 30 + tag % 256 * 2 ^ 16 + status % 256)).raise (pgKeep k) 13

/-- A service command pending when its keeper leaves its state completes with KEEPER_LOST (R97, R111). -/
def Chan.svcLost (ch : Chan) (k : Nat) : Chan :=
  if ch.getB (pgKeep k) KEEP.SVC_STAT_BUSY then ch.svcDone k (ch.keeper k).svcTag 5 else ch

/-- A load in progress ends without a verified image (R118, R120). -/
def Chan.abortLoad (ch : Chan) (k : Nat) : Chan :=
  if ch.getB (pgKeep k) KEEP.FW_STAT_BUSY then
    ((ch.putN (pgKeep k) KEEP.FW_STAT (2 ^ 30 + 0x0A)).putKeeper k { ch.keeper k with verified := false }).raise (pgKeep k) 14
  else ch

/-- The keeper drops its claim to 0x00; `forced` when hardware does it (R80, R92, R115). The reason is kept for the TAKEOVER
entry when the keeper was active (R124). -/
def Chan.dropClaim (ch : Chan) (k : Nat) (forced : Bool) (reason : Nat) : Chan :=
  let wasActive := decide (ch.kstate k = 4) || (decide (ch.kstate k = 7) && decide ((ch.keeper k).haltFrom = 4))
  let c1 := (ch.setClaim k 0).svcLost k
  let c2 := if wasActive then
      { c1.cutCopy with lostReason := reason + 1, failCyc := if reason = 2 then ch.cpCyc + 1 else ch.cycNo }
    else c1
  if forced then
    ((c2.putF (pgKeep k) KEEP.CLAIM_FORCED 1).raise (pgKeep k) 9)
  else c2

/-- The keeper enters FAILED (R103, R107, R108). -/
def Chan.enterFailed (ch : Chan) (k result : Nat) : Chan :=
  (((((ch.setClaim k 0).svcLost k).setKstate k 6).setDegraded (pgKeep k) true).raise (pgKeep k) 15).journal (pgKeep k)
    clsDegraded 7 (k + result * 256)

/-- The keeper enters REPAIR (R92, R101), or FAILED on its fourth entry within 3,600 s (R103). Its cores are reset. R124 gives the
REPAIR_FAIL entry of the fourth entry no RESULT: the byte is 0 (DESIGN CHOICE, log 46). -/
def Chan.enterRepair (ch : Chan) (k : Nat) : Chan :=
  let kp := ch.keeper k
  let recent := (kp.repairs.filter (fun t => decide (ch.ns ≤ t + 3600 * 1000000000))) ++ [ch.ns]
  let c1 := ch.putKeeper k { kp with
    repairs := recent, absent := 0, waiting := false, chunks := 0, resync := false, handover := false, ue := false }
  let c2 := ((c1.setKstate k 5).putF (pgKeep k) KEEP.STATUS_RESYNC_DONE 0).inc (pgKeep k) KEEP.REPAIR_CNT
  let c3 := ((c2.svcLost k).abortLoad k).journal (pgKeep k) clsDegraded 5 k
  if 4 ≤ recent.length then c3.enterFailed k 0 else c3

/-- The keeper's cores execute firmware: RESYNC, STANDBY or ACTIVE (R111). -/
def Chan.fwRuns (ch : Chan) (k : Nat) : Bool := ch.kstate k == 2 || ch.kstate k == 3 || ch.kstate k == 4

/-- Argument word `i` of the service command on a keeper's page. -/
def Chan.svcArg (ch : Chan) (k i : Nat) : Nat := ch.nat (pgKeep k) (KEEP.SVC_ARG i)

/-- Write response words and complete with OK. -/
def Chan.svcOk (ch : Chan) (k tag : Nat) (resp : List Nat) : Chan :=
  (ch.putList (pgKeep k) (KEEP.SVC_RESP 0) resp).svcDone k tag 0

/-- Issue a service command and answer it (R111, R112): on a keeper whose firmware does not run, hardware completes it with
NOT_ACTIVE; otherwise NOT_ACTIVE on a keeper that is not active unless `anyKeeper`; then BAD_ARG, REFUSED, DMA_ERROR in this
order, and the command's own effect, which completes it. -/
def Chan.svcRun (ch : Chan) (k tag : Nat) (anyKeeper badArg refused dmaErr badRec : Bool) (eff : Chan → Chan) : Chan :=
  if ch.fwRuns k = false then ch.svcDone k tag 3
  else if ch.kstate k ≠ 4 ∧ anyKeeper = false then ch.svcDone k tag 3
  else if badArg then ch.svcDone k tag 2
  else if refused then ch.svcDone k tag 4
  else if dmaErr then ch.svcDone k tag 7
  else if badRec then ch.svcDone k tag 2
  else eff ch

/-- The word of a write that issues service command `op`. -/
def svcWord (tag op : Nat) : Word := BitVec.ofNat 32 (2 ^ 31 + tag % 256 * 2 ^ 16 + op % 256)

/-- A write that issues a service command is accepted (R111, R620): TAG and OPCODE are stored, DONE clears and BUSY sets. -/
def Chan.svcIssue (ch : Chan) (w : WReq) (k tag op : Nat) : Chan :=
  (((ch.put w.p w.off w.merged).putF (pgKeep k) KEEP.SVC_STAT_DONE 0).putF (pgKeep k) KEEP.SVC_STAT_BUSY 1).putKeeper k
    { ch.keeper k with svcTag := tag, svcOp := op }

/-- The service commands whose result needs bytes of host memory, which come with the command of their row: SAVE_MODEL, LOAD_MODEL,
REPAIR_LOG_SAVE, REPAIR_LOG_LOAD, COMPARE, REPAIR. -/
def svcWaits (op : Nat) : Bool := [0x18, 0x19, 0x54, 0x55, 0x64, 0x65].contains op

/-- Service command `op` with this tag is under way on the keeper's page, and waits for host memory. -/
def Chan.svcPends (ch : Chan) (k tag op : Nat) : Bool :=
  ch.getB (pgKeep k) KEEP.SVC_STAT_BUSY && svcWaits op && (ch.keeper k).svcTag == tag && (ch.keeper k).svcOp == op

/-- A write of KEEP.SVC_CMD with GO = 1 (R111), and the command: ignored while another is under way. A command that a register write has
issued, and that waits for data from outside the part, is completed by the command of its row with the same tag (log 10). -/
def svcHook (k tag op : Nat) (run : Chan → Chan) : Hook := fun w ch =>
  if ch.svcPends k tag op then run ch
  else if ch.getB (pgKeep k) KEEP.SVC_STAT_BUSY then ch
  else run (ch.svcIssue w k tag op)

/-- A requester writes KEEP.SVC_CMD of keeper `k` with opcode `op`. -/
def State.service (s : State) (r : Req) (c : Fin 4) (k : Fin 2) (tag op : Nat) (run : Chan → Chan) : State :=
  s.chanWrite (svcHook k.val (tag % 256) op run) true r c (pgKeep k.val) KEEP.SVC_CMD (svcWord tag op)

end Sys2Proof.Machine
end

