-- ==== Sys2Proof/Machine/Operands.lean ====
section
/-! DEFINITION. Operands of parse instructions: fields of the 128-bit word (R308, R312, R624), registers, the packet window
(R306, R313), and the carry (R315). -/

namespace Sys2Proof.Machine

/-- Opcode, predicate and register fields (R308). -/
def iOpc (w : Nat) : Nat := nbits w 127 120
def iCond (w : Nat) : Nat := nbits w 119 116
def iRs1 (w : Nat) : Nat := nbits w 115 112
def iRd (w : Nat) : Nat := nbits w 111 108
def iRs2 (w : Nat) : Nat := nbits w 107 104

/-- USE_RS1 of ADV, PTL, LOCK, TRYLOCK, UNLOCK, MBW, MBS and MBR. -/
def iUseRs1 (w : Nat) : Bool := nbit w 96

/-- A general register. -/
def Thread.reg (t : Thread) (i : Nat) : BitVec 64 := (t.g.toArray[i]?).getD 0

/-- The thread with a general register written. -/
def Thread.setReg (t : Thread) (i : Nat) (v : BitVec 64) : Thread := { t with g := t.g.setIfInBounds i v }

/-- A carry lane. -/
def Thread.lane (t : Thread) (i : Nat) : BitVec 64 := (t.c.toArray[i]?).getD 0

/-- The thread with a carry lane written. -/
def Thread.setLane (t : Thread) (i : Nat) (v : BitVec 64) : Thread := { t with c := t.c.setIfInBounds i v }

/-- Registers an instruction reads or writes (R310 rule 4, R624). -/
def usedRegs (w : Nat) : List Nat :=
  let o := iOpc w
  let func := nbits w 99 96
  if o = 0x08 ∨ o = 0x09 then (if nbit w 101 then [iRd w, iRs2 w] else [iRd w])
  else if o = 0x0A then (if iUseRs1 w then [iRs1 w] else [])
  else if o = 0x0B ∨ o = 0x21 ∨ o = 0x22 then [iRs1 w]
  else if o = 0x10 then
    (if func = 9 then [iRd w, iRs2 w] else if aluWrites func then [iRs1 w, iRd w, iRs2 w] else [iRs1 w, iRs2 w])
  else if o = 0x11 then (if func = 9 then [iRd w] else if aluWrites func then [iRs1 w, iRd w] else [iRs1 w])
  else if o = 0x12 ∨ o = 0x40 ∨ o = 0x41 then [iRd w]
  else if o = 0x14 then iRd w :: (List.range (nbits w 99 98 + 1)).map (fun k => iRs1 w + k)
  else if o = 0x15 then (if nbit w 96 then [iRs1 w, iRd w] else [iRs1 w, iRd w, iRs2 w])
  else if o = 0x18 ∨ o = 0x32 then (if iUseRs1 w then [iRd w, iRs1 w] else [iRd w])
  else if o = 0x28 ∨ o = 0x29 ∨ o = 0x2A ∨ o = 0x31 then (if iUseRs1 w then [iRs1 w] else [])
  else if o = 0x30 then (if iUseRs1 w then [iRs2 w, iRs1 w] else [iRs2 w])
  else if o = 0x3A then (if nbit w 97 then [iRs1 w] else [])
  else []

/-- IMM plus rs1 where USE_RS1 is 1: lock, mailbox and parse-table numbers (R318, R320). -/
def Thread.indexed (t : Thread) (w imm : Nat) : Nat := imm + (if iUseRs1 w then (t.reg (iRs1 w)).toNat else 0)

/-- Bytes of the window that are readable (R306). -/
def Pkt.window (k : Pkt) : Nat := min k.len 384

/-- `n` window bytes from a signed address, the first most significant, and whether any lies outside the window (R306, R313). -/
def Pkt.windowRead (k : Pkt) (addr : Int) : Nat → Nat × Bool
  | 0 => (0, false)
  | n + 1 =>
    let r := k.windowRead addr n
    let a := addr + (n : Int)
    if 0 ≤ a ∧ a < (k.window : Int) then (r.1 * 256 + (k.bytes[a.toNat]?.getD 0).toNat, r.2) else (r.1 * 256, true)

/-- The byte address of EXT and EXTF (R313). -/
def Thread.extAddr (t : Thread) (w : Nat) : Int :=
  let base := nbits w 103 102
  let b : Int := if base = 0 then t.hp else if base = 1 then t.wb else 0
  b + toSigned (nbits w 95 80) 16 + (if nbit w 101 then (t.reg (iRs2 w)).toInt else 0)

/-- The bits of `v` at which `mask` is 1, packed from bit 0 upward (R313). -/
def packBits (v mask : Nat) : Nat :=
  ((List.range 64).foldl (fun (r : Nat × Nat) i =>
    if nbit mask i then (r.1 + b2n (nbit v i) * 2 ^ r.2, r.2 + 1) else r) (0, 0)).1

/-- The new header position of ADV and whether it left the window (R314). -/
def Thread.advTo (t : Thread) (w : Nat) : Nat × Bool :=
  let base : Int := if nbit w 98 then 0 else t.hp
  let field : Nat := if iUseRs1 w then
    Nat.land ((t.reg (iRs1 w)).toNat >>> nbits w 63 58) (nbits w 79 64) <<< nbits w 57 55 else 0
  let h := base + toSigned (nbits w 95 80) 16 + (field : Int)
  if h < 0 then (0, true) else if 384 < h then (384, true) else (h.toNat, false)

/-- The carry with `v` placed in lane bits [OFF + W − 1:OFF], replaced or ORed (R315). -/
def Thread.emit (t : Thread) (w v : Nat) : Thread :=
  let l := nbits w 103 101
  let off := nbits w 95 88
  let wid := nbits w 87 80
  let old := (t.lane l).toNat
  let fieldOld := (old >>> off) % 2 ^ wid
  let fv := v % 2 ^ wid
  let new := if nbit w 100 then Nat.lor fieldOld fv else fv
  t.setLane l (BitVec.ofNat 64 (old % 2 ^ off + new * 2 ^ off + (old >>> (off + wid)) * 2 ^ (off + wid)))

/-- The target of MATCH at the first key that equals the masked field (R319). -/
def matchTarget (t : Thread) (w : Nat) : Option Nat :=
  let mask := nbits w 105 90
  let v := Nat.land ((t.reg (iRs1 w)).toNat >>> nbits w 111 106) mask
  let keys := [(nbits w 89 74, nbits w 73 62), (nbits w 61 46, nbits w 45 34), (nbits w 33 18, nbits w 17 6)]
  ((keys.take (nbits w 5 4)).find? (fun k => Nat.land k.1 mask == v)).map Prod.snd

end Sys2Proof.Machine
end

