-- ==== Sys2Proof/Machine/ParseOps.lean ====
section
/-! DEFINITION. Shared operations of the parse engines: brews and parities (R190, R191), threads and events (R271, R272), locks
and mailboxes (R273–R276), reorder (R278, R279), the recovery of threads (R281, R282), and retirement (R284). -/

namespace Sys2Proof.Machine

/-! Brews (R185–R191). -/

/-- The parity of the current brew. -/
def Chan.curParity (ch : Chan) : Nat := ch.getF pgBrew BREW.STATUS_CUR_PARITY

/-- Bank `p` is live (R190). -/
def Chan.bankLive (ch : Chan) (p : Nat) : Bool :=
  let st := ch.brewState
  st == 3 || st == 4 || st == 5 || (ch.brewCurrent && p == ch.curParity)

/-- What STAGE wrote into bank `p`. -/
def Chan.bank (ch : Chan) (p : Nat) : BrewBank := if p = 0 then ch.prs.bank0 else ch.prs.bank1

/-- Replace a bank. -/
def Chan.putBank (ch : Chan) (p : Nat) (b : BrewBank) : Chan :=
  if p = 0 then { ch with prs := { ch.prs with bank0 := b } } else { ch with prs := { ch.prs with bank1 := b } }

/-- The parity the dispatcher gives a packet (R191, R192). -/
def Chan.parityOf (ch : Chan) (k : Pkt) : Nat :=
  if k.egress then nbits (k.ctxByte 8) 2 2
  else
    let cur := ch.curParity
    if ch.prs.pourT = 0 then cur
    else if ch.prs.pourAt = 0 then (if t64Le (ch.prs.pourT - 1) k.t64 then 1 - cur else cur)
    else if ch.ns + 1 < ch.prs.pourAt + 2000 ∧ t64Le (ch.prs.pourT - 1) k.t64 = false then 1 - cur
    else cur

/-! Threads. -/

/-- A thread by its TID (R264). -/
def Chan.thr (ch : Chan) (t : Nat) : Thread := tget {} ch.prs.threads t


/-- Thread IDs of a cluster. -/
def clusterTids (c : Nat) : List Nat := (List.range 128).map (fun i => c * 128 + i)

/-- Thread IDs of an engine, by its global number. -/
def engineTids (e : Nat) : List Nat := (List.range 8).map (fun i => e * 8 + i)

/-- The threads of a cluster that hold packets. -/
def Chan.holders (ch : Chan) (c : Nat) : List Nat :=
  (ch.prs.threads.filter (fun e => e.1 / 128 == c && e.2.pkt.isSome)).map Prod.fst

/-- A thread of the cluster is HALTED (R282). -/
def Chan.anyHalted (ch : Chan) (c : Nat) : Bool := ch.prs.threads.any (fun e => e.1 / 128 == c && e.2.st == 4)

/-- The hardware attribute of an engine's events. -/
def engAttr (t : Nat) : Attr := { priv := some 0, agent := some (t % 128 / 8) }

/-- Timer cycles that remain, at least 1 while armed (R286). -/
def Chan.timerLeft (ch : Chan) (x : Thread) : Nat :=
  if x.timer = 0 then 0 else max 1 (x.timer - cyclesOf 0 (ch.ns - x.timerAt))

/-- An external source of the thread is armed (R280). -/
def Thread.armed (x : Thread) : Bool := !x.looks.isEmpty || x.timer != 0 || nbit x.evMask 0 || nbit x.evMask 6

/-- The thread waits and nothing outside the program will wake it. -/
def Thread.stuck (x : Thread) : Bool := (x.st == 2 || x.st == 3) && !x.armed && x.pkt.isSome

/-- A packet-holding thread changes what the stall detectors watch (R280). -/
def Thread.stirs (x y : Thread) : Bool := (x.pkt.isSome || y.pkt.isSome) && (x.stuck != y.stuck || x.st != y.st)

/-- Replace a thread. -/
def Chan.putThr (ch : Chan) (t : Nat) (x : Thread) : Chan :=
  { ch with prs := { ch.prs with
    threads := tput {} ch.prs.threads t x
    moved := if (ch.thr t).stirs x then tput 0 ch.prs.moved (t / 8) ch.ns else ch.prs.moved } }

/-- An event reaches the thread (R271): it pends, and a thread in WFE that waits for it takes it 2 cycles later, halted or not (R285). -/
def Thread.event (x : Thread) (b : Nat) : Thread :=
  let y := { x with evPend := setNbit x.evPend b true }
  if (x.st = 2 ∨ (x.st = 4 ∧ x.prev = 2)) ∧ x.wfe = true ∧ x.wake = 0 ∧ nbit x.evMask b = true then { y with wake := 2 ^ b } else y

/-- Deliver an event to a thread. -/
def Chan.event (ch : Chan) (t b : Nat) : Chan := ch.putThr t ((ch.thr t).event b)

/-- A wait of the thread has ended: it is READY, or halts again where a STEP is under way (R285). -/
def Chan.ready (ch : Chan) (t : Nat) : Chan :=
  let x := { ch.thr t with wfe := false, wake := 0, waitLock := none }
  if x.st = 4 then ch.putThr t { x with prev := 1 }
  else if x.stepping = 2 then
    ((ch.putThr t { x with st := 4, prev := 1, haltCause := 3, stepping := 0 }).raise pgDbg 8).journal pgDbg clsNone 1 (t + 3 * 2 ^ 16)
  else ch.putThr t { x with st := 1 }

/-! Locks and mailboxes. -/

/-- Key of a lock of the thread's cluster. -/
def lockKey (t n : Nat) : Nat := t / 128 * 1024 + n

/-- A lock. -/
def Chan.lock (ch : Chan) (k : Nat) : Lock := tget {} ch.prs.locks k

/-- Replace a lock. -/
def Chan.putLock (ch : Chan) (k : Nat) (x : Lock) : Chan := { ch with prs := { ch.prs with locks := tput {} ch.prs.locks k x } }

/-- Locks that a thread holds, by key, rising. -/
def Chan.locksOf (ch : Chan) (t : Nat) : List Nat := (ch.prs.locks.filter (fun e => e.2.holder == t + 1)).map Prod.fst

/-- Key of a mailbox of the thread's cluster. -/
def mboxKey (t n : Nat) : Nat := t / 128 * 64 + n

/-- A mailbox. -/
def Chan.mbox (ch : Chan) (k : Nat) : Mbox := tget {} ch.prs.mboxes k

/-- Replace a mailbox. -/
def Chan.putMbox (ch : Chan) (k : Nat) (x : Mbox) : Chan := { ch with prs := { ch.prs with mboxes := tput {} ch.prs.mboxes k x } }

/-- The mailbox a thread stages, by key. -/
def Chan.staging (ch : Chan) (t : Nat) : Option Nat :=
  ((ch.prs.mboxes.filter (fun e => e.2.st == 1 && e.2.owner == t)).map Prod.fst).head?

/-- A lock is released (R273, R274): the oldest waiter holds it next and is granted it within 4 cycles, and every thread that
watches it receives the LOCK event. -/
def Chan.releaseLock (ch : Chan) (k : Nat) : Chan :=
  let x := ch.lock k
  let c1 := match x.waiters with
    | w :: ws => ch.putLock k { holder := w + 1, waiters := ws }
    | [] => ch.putLock k {}
  c1.each ((ch.prs.threads.filter (fun e => e.1 / 128 == k / 1024 && e.2.watchLock == some (k % 1024))).map Prod.fst)
    (fun c t => c.event t 4)

/-- A staged mailbox returns to EMPTY. -/
def Chan.dropStaged (ch : Chan) (t : Nat) : Chan :=
  match ch.staging t with
  | some k => ch.putMbox k {}
  | none => ch

/-! The reorder units (R278, R279). -/

/-- Reorder context of a packet: 0–63 ingress, 64–127 egress. -/
def Pkt.roCtx (k : Pkt) : Nat := (if k.egress then 64 else 0) + k.port % 64

/-- A reorder context. -/
def Chan.ro (ch : Chan) (k : Nat) : Reorder := tget {} ch.prs.ro k

/-- Replace a reorder context. -/
def Chan.putRo (ch : Chan) (k : Nat) (x : Reorder) : Chan := { ch with prs := { ch.prs with ro := tput {} ch.prs.ro k x } }

/-- DISP of a parse result (R322). -/
def resultDisp (r : Nat) : Nat := nbits r 63 62

/-- CODE of a parse result. -/
def resultCode (r : Nat) : Nat := nbits r 47 40

/-- The STRN instance on which a direction's queue counts. -/
def strnHome (egress : Bool) : Nat := if egress then 6 else 0

/-- A completed packet reaches the Strainer (R330, R332, R190). -/
def Chan.strnArrive (ch : Chan) (x : Parsed) : Chan :=
  let p := pgStrn (strnHome x.pkt.egress)
  let q := if x.pkt.egress then ch.strn.qEg else ch.strn.qIn
  if resultDisp x.result = 1 then ch.inc p (STRN.PARSE_DROP_CNT (resultCode x.result))
  else if x.pkt.egress && !(ch.bankLive x.pkt.parity) then ch.incRaise pgBrew BREW.INACTIVE_DROP 12
  else if 256 ≤ q.length then
    ((ch.inc64 p STRN.IN_FULL_DROP).raise p 8).journalSec p clsContained 4 0 0 1
  else if x.pkt.egress then { ch with strn := { ch.strn with qEg := q ++ [x] } }
  else { ch with strn := { ch.strn with qIn := q ++ [x] } }

/-- Deliver completed packets of a context as long as no lower number is outstanding. -/
def Chan.roFlush (ch : Chan) (k : Nat) : Nat → Chan
  | 0 => ch
  | fuel + 1 =>
    let x := ch.ro k
    match x.held.find? (fun e => e.1 == x.low) with
    | some e =>
      ((ch.putRo k { x with low := x.low + 1, held := x.held.filter (fun y => y.1 != x.low) }).strnArrive e.2).roFlush k fuel
    | none =>
      if x.gone.contains x.low then
        (ch.putRo k { x with low := x.low + 1, gone := x.gone.filter (fun y => y != x.low) }).roFlush k fuel
      else ch

/-- Flush with the fuel that suffices. -/
def Chan.roDeliver (ch : Chan) (k : Nat) : Chan := ch.roFlush k ((ch.ro k).held.length + (ch.ro k).gone.length + 1)

/-- A number is released without a delivery. -/
def Chan.roRelease (ch : Chan) (k seq : Nat) : Chan :=
  let x := ch.ro k
  (ch.putRo k { x with gone := x.gone ++ [seq], out := x.out.filter (fun e => e.1 != seq) }).roDeliver k

/-- A packet completes (R278, R279): it is held for its turn, or dropped as late. -/
def Chan.roComplete (ch : Chan) (x : Thread) (p : Parsed) : Chan :=
  let k := x.ctxNo
  if x.skipped || x.stale then (ch.inc pgDisp (DISP.RO_LATE k)).raise pgDisp 11
  else
    let y := ch.ro k
    (ch.putRo k { y with held := y.held ++ [(x.seq, p)], out := y.out.filter (fun e => e.1 != x.seq) }).roDeliver k

/-! Engines leave the pools (R284). -/

/-- An engine's mask bits. -/
def Chan.engMasked (ch : Chan) (e : Nat) : Bool :=
  bit (ch.get pgDisp (DISP.ENG_MASK_HOST (e / 32))) (e % 32) || bit (ch.get pgDisp (DISP.ENG_MASK_KEEP (e / 32))) (e % 32)

/-- An engine is retired once its last packet-holding thread has completed, and returns at once when both mask bits clear. -/
def Chan.engSettle (ch : Chan) (e : Nat) : Chan :=
  let f : Fld := ⟨DISP.ENG_RETIRED (e / 32), e % 32, e % 32⟩
  let busy := ch.prs.threads.any (fun x => x.1 / 8 == e && x.2.pkt.isSome)
  let was := ch.getB pgDisp f
  if ch.engMasked e then
    if was || busy then ch
    else
      let m := if bit (ch.get pgDisp (DISP.ENG_MASK_HOST (e / 32))) (e % 32) then 0 else 1
      ((ch.putF pgDisp f 1).raise pgDisp 12).journal pgDisp clsDegraded 1 (e + m * 2 ^ 8)
  else if was then (ch.putF pgDisp f 0).journal pgDisp clsNone 2 e
  else ch

/-! How a thread ends (R272, R274, R276, R281, R282, R322). -/

/-- The parse result (R322). -/
def Thread.result (x : Thread) (disp code : Nat) : Nat :=
  let k := x.pkt.getD {}
  disp * 2 ^ 62 + b2n (x.flag fOOB) * 2 ^ 61 + k.parity * 2 ^ 60 + b2n k.egress * 2 ^ 59 + b2n k.injected * 2 ^ 58
    + k.port % 64 * 2 ^ 52 + code % 256 * 2 ^ 40 + x.hp % 512 * 2 ^ 31 + x.wb % 512 * 2 ^ 22 + k.len % 2 ^ 14

/-- The threads of a set leave the waiter queues, their locks are released, their staged mailboxes (or every mailbox of the
cluster) return to EMPTY, and they become FREE (R282 steps 2 to 5). -/
def Chan.recover (ch : Chan) (ts : List Nat) (cluster : Option Nat) : Chan :=
  let c1 := ch.each (ch.prs.locks.map Prod.fst) (fun c k =>
    c.putLock k { c.lock k with waiters := (c.lock k).waiters.filter (fun w => !(ts.contains w)) })
  let c2 := c1.each ts (fun c t => c.putThr t { c.thr t with watchLock := none, watchMbox := none })
  let c3 := c2.each ((c2.prs.locks.filter (fun e => ts.any (fun t => e.2.holder == t + 1))).map Prod.fst) Chan.releaseLock
  let c4 := match cluster with
    | some k => { c3 with prs := { c3.prs with mboxes := tclear c3.prs.mboxes (k * 64) (k * 64 + 64) } }
    | none => c3.each ts Chan.dropStaged
  let c5 := c4.each ts (fun c t => c.putThr t {})
  c5.each ((ts.map (fun t => t / 8)).eraseDups) Chan.engSettle

/-- The thread ends with a disposition and a code: the reorder unit takes the carry and the parse result, and the thread's
resources are released. -/
def Chan.endThread (ch : Chan) (t disp code : Nat) : Chan :=
  let x := ch.thr t
  match x.pkt with
  | none => ch
  | some k => (ch.roComplete x { pkt := k, carry := x.c, result := x.result disp code }).recover [t] none

/-- The parse-fault disposition. -/
abbrev dispFault : Nat := 2

/-- Late-abort (R281): the packet is dropped and counted here alone. -/
def Chan.lateAbort (ch : Chan) (t : Nat) : Chan :=
  let x := ch.thr t
  let k := x.pkt.getD {}
  let p := pgPclu (t / 128)
  let c1 := ((ch.inc p PCLU.LATE_ABORT_CNT).raise p 9).journal p clsContained 2
    (t + x.seq % 65536 * 2 ^ 16 + k.port * 2 ^ 32 + b2n k.egress * 2 ^ 40)
  c1.recover [t] none

/-- Late-abort the thread if R281 asks for it. -/
def Chan.lateCheck (ch : Chan) (t : Nat) : Chan :=
  let x := ch.thr t
  if x.skipped && x.stuck && ch.getB (pgPclu (t / 128)) PCLU.STALL_CFG_LATE_ABORT && !(ch.anyHalted (t / 128)) then ch.lateAbort t
  else ch

/-- Judge late-abort for every thread of a cluster: a halt has ended. -/
def Chan.lateCheckAll (ch : Chan) (c : Nat) : Chan := ch.each (ch.holders c) Chan.lateCheck

/-- One thread of a stalled set stops (R282 step 1): it is late-aborted where its number has been skipped. -/
def Chan.stallStop (ch : Chan) (code t : Nat) : Chan :=
  let x := ch.thr t
  let p := pgPclu (t / 128)
  match x.pkt with
  | none => ch
  | some k =>
    if x.skipped then
      ((ch.inc p PCLU.LATE_ABORT_CNT).raise p 9).journal p clsContained 2
        (t + x.seq % 65536 * 2 ^ 16 + k.port * 2 ^ 32 + b2n k.egress * 2 ^ 40)
    else ch.roComplete x { pkt := k, carry := x.c, result := x.result dispFault code }

/-- The snapshot record of a thread (R296). -/
def Chan.snapWords (ch : Chan) (inSet : Bool) (t : Nat) : List Nat :=
  let x := ch.thr t
  let k := x.pkt.getD {}
  let on := match x.waitLock, x.watchLock, x.watchMbox with
    | some l, _, _ => l
    | none, some l, _ => l
    | none, none, some m => m
    | none, none, none => 0
  let st := ch.staging t
  [x.st * 2 ^ 29 + b2n inSet * 2 ^ 28 + x.evMask * 2 ^ 21 + x.evPend * 2 ^ 14 + x.pc,
    k.parity * 2 ^ 31 + b2n k.egress * 2 ^ 30 + k.port * 2 ^ 24 + x.seq % 65536,
    on * 2 ^ 12 + (ch.locksOf t).length * 2 ^ 8 + b2n st.isSome * 2 ^ 7 + (st.getD 0) % 64,
    if x.pkt.isSome then min (cyclesOf 0 (ch.ns - x.since)) (2 ^ 32 - 1) else 0]

/-- A detector fires for a set of threads (R282). -/
def Chan.stallFire (ch : Chan) (c : Nat) (kind engine : Nat) (ts : List Nat) : Chan :=
  let p := pgPclu c
  let c1 := (ch.raise p 8).inc p PCLU.STALL_CNT
  let c2 := if c1.getB p PCLU.STALL_STAT_SNAP_VALID then c1 else
    let s := (List.range 128).foldl (fun d i => d.putList p (PCLU.SNAP i 0) (c1.snapWords (ts.contains (c * 128 + i)) (c * 128 + i))) c1
    (((s.put64 p PCLU.SNAP_TIME ch.t64).putF p PCLU.STALL_STAT_SNAP_VALID 1).putF p PCLU.STALL_STAT_KIND kind).putF p
      PCLU.STALL_STAT_ENGINE engine
  let act := ch.getF p PCLU.STALL_CFG_ACTION
  let c3 := c2.journal p clsContained 1 (kind + engine * 2 ^ 8 + ts.length * 2 ^ 16 + act * 2 ^ 32)
  if act = 1 then c3
  else
    let c4 := (c3.each ts (fun d t => d.stallStop (1 + kind) t)).inc p PCLU.ABORT_CNT ts.length
    c4.recover ts (if kind = 1 then some c else none)

/-! Debugging (R285–R288). -/

/-- A thread halts. -/
def Chan.haltThread (ch : Chan) (t cause bp : Nat) : Chan :=
  let x := ch.thr t
  let c1 := (ch.putThr t { x with st := 4, prev := x.st, haltCause := cause, bp := bp, stepping := 0, bpPass := x.bpPass || cause == 2 }).journal pgDbg clsNone 1
    (t + cause * 2 ^ 16)
  if cause = 1 then c1 else c1.raise pgDbg 8

/-- The breakpoint that matches the thread at its pc, by number (R288, R301). -/
def Chan.bpMatch (ch : Chan) (t : Nat) : Option Nat :=
  let x := ch.thr t
  let par := (x.pkt.getD {}).parity
  if ch.enabled pgDbg = false ∨ x.bpPass = true ∨ x.pkt.isNone then none
  else firstBelow 4 (fun b =>
    let w := tget (0x70000000 : Word) ch.prs.bps (t / 8 * 4 + b)
    bit w 31 && bit w (29 + par) && (bit w 28 || fld w 26 24 == t % 8) && fld w 11 0 == x.pc)

/-- Threads of a cluster that breakpoints have halted. -/
def Chan.bpHalted (ch : Chan) (c : Nat) : Nat :=
  (ch.prs.threads.filter (fun e => e.1 / 128 == c && e.2.st == 4 && e.2.haltCause == 2)).length

/-- The thread reaches a matching breakpoint (R288): it halts, or goes on where HALT_LIMIT refuses the halt. -/
def Chan.bpHit (ch : Chan) (t b : Nat) : Chan :=
  if ch.bpHalted (t / 128) < ch.getF pgDbg DBG.CFG_HALT_LIMIT then ch.haltThread t 2 b
  else ((ch.putThr t { ch.thr t with bpPass := true }).inc pgDbg DBG.BP_SKIP).raise pgDbg 9

end Sys2Proof.Machine
end

