-- ==== Sys2Proof/Machine/TblOps.lean ====
section
/-! DEFINITION. Shared operations of the forwarding tables: definitions and geometry (R367–R370, R374), entries of each kind
(R371–R381), notifications (R394, R401), poisoned lines (R396, R397), and the loss of banks (R404, R405). -/

namespace Sys2Proof.Machine

/-! Definitions (R369, R409). -/

/-- Kind of a table ID: 1 EM, 2 LPM, 3 TERNARY, 4 DIRECT, 0 reserved (R369). -/
def tblKind (t : Nat) : Nat :=
  if t < 0x40 then 1 else if t < 0x50 then 2 else if t < 0x70 then 3 else if t < 0xF0 then 4 else 0

/-- A field of a table's definition. -/
def Chan.tdef (ch : Chan) (t : Nat) (f : Nat → Fld) : Nat := ch.getF pgTbl (f t)

/-- The table is defined. -/
def Chan.tValid (ch : Chan) (t : Nat) : Bool := decide (t < 256) && ch.getB pgTbl (TBL.TDEF_CFG_VALID t)

/-- E in bits. -/
def Chan.tWidth (ch : Chan) (t : Nat) : Nat := 32 * 2 ^ ch.tdef t TBL.TDEF_CFG_WIDTH

/-- Number of replicas. -/
def Chan.tReps (ch : Chan) (t : Nat) : Nat := 2 ^ ch.tdef t TBL.TDEF_CFG_REPLICAS

/-- Key length in bytes. -/
def Chan.tKeyLen (ch : Chan) (t : Nat) : Nat := ch.tdef t TBL.TDEF_CFG_KEY_LEN

/-- EM result length in bytes. -/
def Chan.tResLen (ch : Chan) (t : Nat) : Nat := ch.tdef t TBL.TDEF_SIZE_RES_LEN

/-- Logical lines of a segment (R368). -/
def Chan.tSegLines (ch : Chan) (t : Nat) : Nat := if ch.tdef t TBL.TDEF_CFG_PROT = 1 then 2304 else 2048

/-- NB of an EM table, entries of a direct table. -/
def Chan.tCount (ch : Chan) (t : Nat) : Nat := 64 * ch.tdef t TBL.TDEF_SIZE_SIZE

/-- Segments of one replica (R368, R374, R380). -/
def Chan.tSegs (ch : Chan) (t : Nat) : Nat :=
  let n := ch.tCount t
  let e := ch.tWidth t
  if tblKind t = 1 then ceilDiv (if e = 64 then n / 2 else n * (e / 128)) (ch.tSegLines t)
  else if tblKind t = 2 then ch.tdef t TBL.TDEF_SIZE_SIZE
  else if tblKind t = 4 then ceilDiv (ceilDiv (n * e) 512) (ch.tSegLines t)
  else 0

/-- S1, S2, S3 of an LPM table that are used: zero strides end the list. -/
def Chan.tStrides (ch : Chan) (t : Nat) : List Nat :=
  [ch.tdef t TBL.TDEF_LPM_S1, ch.tdef t TBL.TDEF_LPM_S2, ch.tdef t TBL.TDEF_LPM_S3]

/-- VRF_BASE and VRF_COUNT of an LPM table, GROUP_BASE and GROUP_COUNT − 1 of a SELECT table. -/
def Chan.tHi (ch : Chan) (t : Nat) : Nat := ch.nat pgTbl (TBL.TDEF_SEED t) / 65536

/-- The low half of TDEF_SEED. -/
def Chan.tLo (ch : Chan) (t : Nat) : Nat := ch.nat pgTbl (TBL.TDEF_SEED t) % 65536

/-- Ternary blocks of a table. -/
def Chan.tBlocks (ch : Chan) (t : Nat) : List Nat :=
  allBelow 64 (fun b => ch.getB pgTern (TERN.BLOCK_EN b) && ch.getF pgTern (TERN.BLOCK_TABLE b) == t)

/-- Entries that the blocks of a ternary table hold (R379). -/
def Chan.ternCap (ch : Chan) (t : Nat) : Nat :=
  (ch.tBlocks t).foldl (fun n b => n + if ch.getB pgTern (TERN.BLOCK_WIDE b) then 1024 else 2048) 0

/-- Change the working state of the tables. -/
def Chan.onTbl (ch : Chan) (f : TblW → TblW) : Chan := { ch with tbl := f ch.tbl }

/-! Segments and lines. -/

/-- Segments of a table, 0 for a hole. -/
def Chan.segsOf (ch : Chan) (t : Nat) : List Nat := tget [] ch.tbl.segs t

/-- All segments in use. -/
def Chan.usedSegs (ch : Chan) : List Nat := ch.tbl.segs.flatMap (fun e => e.2.filter (fun x => x != 0))

/-- STATE of a bank: 0 SPARE, 1 IN_SERVICE, 2 COPY_SRC, 3 COPY_DST, 4 OUT, 5 RETIRED (R408). -/
def Chan.bankState (ch : Chan) (b : Nat) : Nat := ch.getF pgTbl (TBL.BANK_STAT_STATE b)

/-- A bank changes state: BANK_EVENT (R412). -/
def Chan.setBank (ch : Chan) (b st : Nat) : Chan := (ch.putF pgTbl (TBL.BANK_STAT_STATE b) st).raise pgTbl 13

/-- Free segments of in-service banks, lowest bank and segment first (R370), as segment number plus one. -/
def Chan.freeSegs (ch : Chan) : List Nat :=
  let used := ch.usedSegs
  ((allBelow 68 (fun b => ch.bankState b == 1)).flatMap (fun b => (List.range 32).map (fun k => b * 32 + k + 1))).filter
    (fun x => !(used.contains x))

/-- Free overflow units (R375). -/
def Chan.ovfFree (ch : Chan) : Nat :=
  64 - ((allBelow 64 (fun t => ch.tValid t)).foldl (fun n t => n + ch.tdef t TBL.TDEF_ATTR_OVF_UNITS) 0)

/-- Segments of a bank in use. -/
def Chan.bankSegs (ch : Chan) (b : Nat) : Nat := (ch.usedSegs.filter (fun x => (x - 1) / 32 == b)).length

/-- Uncorrectable errors of a bank in the last 86,400 s (R404). -/
def Chan.bankUes (ch : Chan) (b : Nat) : Nat :=
  (ch.tbl.ues.filter (fun e => e.1 == b && decide (ch.ns / 1000000000 < e.2 + 86400))).length

/-- TBL.BANK_STAT as read (R408). -/
def Chan.bankStat (ch : Chan) (b : Nat) : Nat :=
  ch.bankState b * 2 ^ 29 + min 255 (ch.bankUes b) * 2 ^ 16 + ch.bankSegs b

/-- The segment that holds a logical line of a replica, plus one; 0 for a hole or beyond the table. -/
def Chan.lineSeg (ch : Chan) (t rep line : Nat) : Nat :=
  (ch.segsOf t).getD (rep * ch.tSegs t + line / ch.tSegLines t) 0

/-- The logical line lies in a hole (R405), in any replica. -/
def Chan.lineHole (ch : Chan) (t line : Nat) : Bool :=
  (List.range (ch.tReps t)).any (fun r => ch.lineSeg t r line == 0)

/-- Key of a line in the table of POISONED lines. -/
def lineKey (t rep line : Nat) : Nat := (t * 4 + rep) * 2 ^ 32 + line

/-- The line of a replica is POISONED (R396). -/
def Chan.poisoned (ch : Chan) (t rep line : Nat) : Bool := tget 0 ch.tbl.poison (lineKey t rep line) != 0

/-- The line is POISONED in every replica (R397). -/
def Chan.lineLost (ch : Chan) (t line : Nat) : Bool := (List.range (ch.tReps t)).all (fun r => ch.poisoned t r line)

/-- A line is rewritten in every replica: its marks clear (R396). -/
def Chan.cleanLine (ch : Chan) (t line : Nat) : Chan :=
  ch.each (List.range (ch.tReps t)) (fun c r => c.onTbl (fun w => { w with poison := tput 0 w.poison (lineKey t r line) 0 }))

/-- A set of words, each a logical line and a place in it, holds an uncorrectable one in every replica (R397, R399). -/
def Chan.wordsLost (ch : Chan) (t : Nat) (ws : List (Nat × Nat)) : Bool :=
  (List.range (ch.tReps t)).all (fun r => ws.any (fun e => nbit (tget 0 ch.tbl.poison (lineKey t r e.1)) e.2))

/-- The POISONED lines of a table, in any replica. -/
def Chan.badLines (ch : Chan) (t : Nat) : List Nat :=
  ((ch.tbl.poison.filter (fun e => e.1 / 2 ^ 34 == t)).map (fun e => e.1 % 2 ^ 32)).eraseDups

/-- A table has POISONED lines (R409). -/
def Chan.hasPoison (ch : Chan) (t : Nat) : Bool := ch.tbl.poison.any (fun e => e.1 / 2 ^ 34 == t)

/-! Exact match (R373–R375). -/

/-- Buckets of a key: i1 and i2 (R374). -/
def emHash (seed nb e : Nat) (key : List Byte) : Nat × Nat :=
  let h1 := crc32With 0x82F63B78 seed key
  let h2 := crc32With 0x82F63B78 (Nat.xor seed 0xFFFFFFFF) key
  let i1 := h1 * nb / 2 ^ 32
  let i2 := h2 * nb / 2 ^ 32
  let g := fun i => (if e = 64 then i / 2 else i) % 32
  (i1, if g i1 = g i2 then Nat.xor i2 (if e = 64 then 2 else 1) else i2)

/-- Buckets of a key in a table. -/
def Chan.emBuckets (ch : Chan) (t : Nat) (key : List Byte) : Nat × Nat :=
  emHash (ch.nat pgTbl (TBL.TDEF_SEED t)) (ch.tCount t) (ch.tWidth t) key

/-- Logical lines of a bucket (R374). -/
def Chan.emLines (ch : Chan) (t i : Nat) : List Nat :=
  let e := ch.tWidth t
  if e = 64 then [i / 2] else (List.range (e / 128)).map (fun r => i % 32 + 32 * (e / 128 * (i / 32) + r))

/-- The words of a slot of a bucket: logical lines and places in them (R374). -/
def Chan.emWords (ch : Chan) (t slot : Nat) : List (Nat × Nat) :=
  let k := ch.tWidth t / 64
  let first := if k = 1 then slot / 4 % 2 * 4 + slot % 4 else slot % 4 * k
  (List.range k).map (fun n => (((ch.emLines t (slot / 4))[(first + n) / 8]?).getD 0, (first + n) % 8))

/-- The slots that a logical line holds words of (R374). -/
def Chan.lineSlots (ch : Chan) (t line : Nat) : List Nat :=
  let k := ch.tWidth t / 64
  if k = 1 then (List.range 8).map (fun n => 8 * line + n)
  else
    let per := k / 2
    let bucket := line % 32 + 32 * (line / 32 / per)
    (List.range (8 / k)).map (fun n => 4 * bucket + 8 * (line / 32 % per) / k + n)

/-- Key of a slot. -/
def emKey (t slot : Nat) : Nat := t * 2 ^ 40 + slot

/-- Versions of a table with their slots, in table order. -/
def Chan.emAll (ch : Chan) (t : Nat) : List (Nat × EmVer) :=
  (ch.tbl.em.filter (fun e => e.1 / 2 ^ 40 == t)).map (fun e => (e.1 % 2 ^ 40, e.2))

/-- Versions of a key. -/
def Chan.emFind (ch : Chan) (t : Nat) (key : List Byte) : List (Nat × EmVer) := (ch.emAll t).filter (fun e => e.2.key == key)

/-- Write a slot. -/
def Chan.emPut (ch : Chan) (t slot : Nat) (v : EmVer) : Chan := ch.onTbl (fun w => { w with em := tput {} w.em (emKey t slot) v })

/-- The bucket lies in a hole. -/
def Chan.emHole (ch : Chan) (t i : Nat) : Bool := (ch.emLines t i).any (fun l => ch.lineHole t l)

/-- Slots of a table that hold no version. -/
def Chan.emEmpty (ch : Chan) (t : Nat) (l : List Nat) : List Nat := l.filter (fun s => !(ch.tbl.em.any (fun e => e.1 == emKey t s)))

/-- A free slot of a bucket (R375); which of them is a free value (log 6). -/
def Chan.emFree (ch : Chan) (t i : Nat) : Option Nat :=
  if ch.emHole t i then none else pickOf (ch.freeVal 32) (ch.emEmpty t ((List.range 4).map (fun j => 4 * i + j)))

/-- Overflow slots of a table. -/
def Chan.emOvf (ch : Chan) (t : Nat) : List Nat :=
  (List.range (256 * ch.tdef t TBL.TDEF_ATTR_OVF_UNITS)).map (fun o => 4 * ch.tCount t + o)

/-- A resident of the two buckets that can move to its other bucket: its slot and the free slot (R375). -/
def Chan.emMovable (ch : Chan) (t i1 i2 : Nat) : Option (Nat × Nat) :=
  let slots := (List.range 4).map (fun j => 4 * i1 + j) ++ (List.range 4).map (fun j => 4 * i2 + j)
  (slots.filterMap (fun s =>
    let v := tget {} ch.tbl.em (emKey t s)
    if v.mask = 0 then none
    else
      let b := ch.emBuckets t v.key
      (ch.emFree t (if s / 4 = b.1 then b.2 else b.1)).map (fun f => (s, f)))).head?

/-- Place a new version (R375), `none` when no place is free. -/
def Chan.emPlace (ch : Chan) (t : Nat) (v : EmVer) : Option Chan :=
  let b := ch.emBuckets t v.key
  match ch.emFree t b.1 with
  | some s => some (ch.emPut t s v).takeFree
  | none => match ch.emFree t b.2 with
    | some s => some (ch.emPut t s v).takeFree
    | none =>
      match ch.emMovable t b.1 b.2 with
      | some (s, f) => some ((ch.emPut t f (tget {} ch.tbl.em (emKey t s))).emPut t s v).takeFree
      | none =>
        match pickOf (ch.freeVal 32) (ch.emEmpty t (ch.emOvf t)) with
        | some s => some ((ch.emPut t s v).tally pgTbl 0x14).takeFree
        | none => none

/-- A key's buckets hold a word that no replica can give (R396). -/
def Chan.emLost (ch : Chan) (t : Nat) (key : List Byte) : Bool :=
  let b := ch.emBuckets t key
  (ch.emLines t b.1 ++ ch.emLines t b.2).any (fun l => ch.lineLost t l)

/-- The 16-bit field at PORT_OFF of a result (R389, R391). -/
def portField (off : Nat) (res : List Byte) : Nat :=
  let n := 8 * res.length
  if off + 16 ≤ n then beNat res / 2 ^ (n - 16 - off) % 65536 else 0

/-- The entry as a shadow record (R373, R398). -/
def EmVer.record (v : EmVer) (e : Nat) : List Byte :=
  sliceBytes (leBytes 2 (v.age % 4 * 8 + b2n v.static * 4 + v.mask % 4) ++ v.key ++ v.res) 0 (e / 8)

/-! Longest prefix match (R376–R378). -/

/-- Prefixes of a table, in table order. -/
def Chan.lpmAll (ch : Chan) (t : Nat) : List LpmPfx := tget [] ch.tbl.lpm t

/-- Address bits of a table's keys. -/
def Chan.lpmBits (ch : Chan) (t : Nat) : Nat := 8 * (ch.tKeyLen t - 2)

/-- The address with its bits behind the prefix cleared. -/
def pfxOf (bits addr len : Nat) : Nat := addr / 2 ^ (bits - len) * 2 ^ (bits - len)

/-- Does the prefix cover the address? -/
def LpmPfx.covers (p : LpmPfx) (bits vrf addr : Nat) : Bool := p.vrf == vrf && pfxOf bits addr p.len == p.addr

/-- The longest of a list of prefixes. -/
def longest (l : List LpmPfx) : Option LpmPfx :=
  l.foldl (fun b p => match b with
    | none => some p
    | some q => if q.len < p.len then some p else b) none

/-- Table order: VRF, address, length (R388), and the versions of one prefix by mask. -/
def LpmPfx.before (a b : LpmPfx) : Bool :=
  decide (a.vrf < b.vrf) || (a.vrf == b.vrf && (decide (a.addr < b.addr) || (a.addr == b.addr &&
    (decide (a.len < b.len) || (a.len == b.len && decide (a.mask < b.mask))))))

/-- Insert in table order. -/
def lpmInsert (p : LpmPfx) : List LpmPfx → List LpmPfx
  | [] => [p]
  | q :: l => if p.before q then p :: q :: l else q :: lpmInsert p l

/-- What stands at an index of a node: the child marker, or the slot of the longest prefix that ends in the node or above. -/
def nodeSlot (bits depth stride base : Nat) (ps : List LpmPfx) (back x : Nat) : Nat :=
  let lo := base + x * 2 ^ (bits - depth - stride)
  if ps.any (fun p => decide (depth + stride < p.len) && pfxOf bits p.addr (depth + stride) == lo) then 2 ^ 40 + x
  else match longest (ps.filter (fun p => decide (p.len ≤ depth + stride) && pfxOf bits lo p.len == p.addr)) with
    | some p => p.res + 2 ^ 32
    | none => back

/-- Indexes at which a node's slots may change: the ends of its prefixes and of its children. -/
def nodeCuts (bits depth stride base : Nat) (ps : List LpmPfx) : List Nat :=
  (ps.flatMap (fun p =>
    let len := min p.len (depth + stride)
    let lo := (p.addr - base) / 2 ^ (bits - depth - stride)
    [lo, lo + 2 ^ (depth + stride - len)])).filter (fun x => decide (0 < x) && decide (x < 2 ^ stride)) |>.eraseDups

/-- LOG2K of a node: the smallest for which no line holds more than 9 entries (R377, R378). -/
def nodeLog2k (bits depth stride base : Nat) (ps : List LpmPfx) (back : Nat) : Nat :=
  let cuts := (nodeCuts bits depth stride base ps).filter (fun x =>
    nodeSlot bits depth stride base ps back (x - 1) != nodeSlot bits depth stride base ps back x)
  ((List.range (stride + 1)).find? (fun k => decide (stride - 24 ≤ k) &&
    (let span := 2 ^ (stride - k)
     cuts.all (fun x => decide ((cuts.filter (fun y => y / span == x / span && y % span != 0)).length ≤ 8))))).getD stride

/-- A trie node with its whole subtree as its identity, and its lines. -/
structure LpmNode where
  vrf : Nat
  depth : Nat
  base : Nat
  sub : List (Nat × Nat × Nat)
  back : Nat
  log2k : Nat
  /-- its own slots, pointers as markers, where they change -/
  own : List (Nat × Nat)
deriving DecidableEq, Repr

/-- The nodes of a trie from one node down (R378). -/
def lpmNodes (bits vrf depth base back : Nat) (ps : List LpmPfx) : List Nat → List LpmNode
  | [] => []
  | s :: ss =>
    if ps.isEmpty then []
    else
      let kids := ((ps.filter (fun p => decide (depth + s < p.len))).map (fun p => pfxOf bits p.addr (depth + s))).eraseDups
      ⟨vrf, depth, base, ps.map (fun p => (p.addr, p.len, p.res)), back, nodeLog2k bits depth s base ps back,
          (0 :: nodeCuts bits depth s base ps).map (fun x => (x, nodeSlot bits depth s base ps back x))⟩ ::
        kids.flatMap (fun b =>
          let inside := ps.filter (fun p => decide (depth + s < p.len) && pfxOf bits p.addr (depth + s) == b)
          let cover := longest (ps.filter (fun p => decide (p.len ≤ depth + s) && pfxOf bits b p.len == p.addr))
          lpmNodes bits vrf (depth + s) b (match cover with | some p => p.res + 2 ^ 32 | none => back) inside ss)

/-- The nodes of the roots of one parity. -/
def lpmRoots (bits : Nat) (strides : List Nat) (ps : List LpmPfx) (parity : Nat) : List LpmNode :=
  let qs := ps.filter (fun p => nbit p.mask parity)
  ((qs.map (fun p => p.vrf)).eraseDups).flatMap (fun v =>
    let inV := qs.filter (fun p => p.vrf == v)
    let back := match inV.find? (fun p => p.len == 0) with | some p => p.res + 2 ^ 32 | none => 0
    lpmNodes bits v 0 0 back (inV.filter (fun p => p.len != 0)) strides)

/-- The nodes of a set of prefixes; equal subtrees of the two roots are shared (R378). -/
def lpmTrie (bits : Nat) (strides : List Nat) (ps : List LpmPfx) : List LpmNode :=
  (lpmRoots bits strides ps 0 ++ lpmRoots bits strides ps 1).eraseDups

/-- Lines of nodes. -/
def nodeLines (l : List LpmNode) : Nat := l.foldl (fun n x => n + 2 ^ x.log2k) 0

/-- Lines that a set of prefixes takes. -/
def lpmLines (bits : Nat) (strides : List Nat) (ps : List LpmPfx) : Nat := nodeLines (lpmTrie bits strides ps)

/-- A node lies below another. -/
def LpmNode.below (y x : LpmNode) (bits : Nat) : Bool := y.vrf == x.vrf && decide (x.depth < y.depth) && pfxOf bits y.base x.depth == x.base

/-- Free lines that a change of the tries needs (R378): those of the nodes whose slots change. A node above them takes the new pointer in
place, unless two changed subtrees hang from it: then it is written anew, for the one write that switches. -/
def lpmNeed (bits : Nat) (old new : List LpmNode) : Nat :=
  let added := new.filter (fun x => !(old.contains x))
  let gone := old.filter (fun x => !(new.contains x))
  let inPlace := fun (x : LpmNode) => gone.any (fun y => y.vrf == x.vrf && y.depth == x.depth && y.base == x.base && y.log2k == x.log2k && y.own == x.own)
  let changed := added.filter (fun x => !(inPlace x))
  let top := changed.filter (fun x => !(changed.any (fun y => x.below y bits)))
  nodeLines (added.filter (fun x => !(inPlace x) || decide (2 ≤ (top.filter (fun y => y.below x bits)).length)))

/-- Lines that an LPM table can use: those outside holes. -/
def Chan.lpmCap (ch : Chan) (t : Nat) : Nat :=
  ch.tSegLines t * (allBelow (ch.tSegs t) (fun j => !(ch.lineHole t (j * ch.tSegLines t)))).length

/-- Replace a table's prefixes. -/
def Chan.lpmPut (ch : Chan) (t : Nat) (l : List LpmPfx) : Chan := ch.onTbl (fun w => { w with lpm := tput [] w.lpm t l })

/-- A prefix as a shadow record (R398). -/
def LpmPfx.record (p : LpmPfx) (bits : Nat) : List Byte :=
  beBytes 2 p.vrf ++ beBytes 16 (p.addr * 2 ^ (128 - bits)) ++ leBytes 1 p.len ++ leBytes 1 p.mask ++ beBytes 4 p.res

/-! Ternary (R379). -/

/-- Ternary entries of a table, in lookup order. -/
def Chan.ternAll (ch : Chan) (t : Nat) : List TernEnt := tget [] ch.tbl.tern t

/-- Replace a table's ternary entries. -/
def Chan.ternPut (ch : Chan) (t : Nat) (l : List TernEnt) : Chan := ch.onTbl (fun w => { w with tern := tput [] w.tern t l })

/-- Insert in lookup order: behind every entry of at least its priority. -/
def ternInsert (x : TernEnt) : List TernEnt → List TernEnt
  | [] => [x]
  | y :: l => if y.prio < x.prio then x :: y :: l else y :: ternInsert x l

/-- A lookup in the ternary store (R379, R400). -/
def ternMatch (key parity : Nat) (l : List TernEnt) : Option TernEnt :=
  l.find? (fun e => !e.bad && nbit e.mask parity && Nat.land key e.tmask == Nat.land e.key e.tmask)

/-- A ternary entry as a shadow record (R398). -/
def TernEnt.record (x : TernEnt) (klen : Nat) : List Byte :=
  sliceBytes (beBytes klen x.key) 0 40 ++ sliceBytes (beBytes klen x.tmask) 0 40 ++ leBytes 2 x.prio ++ leBytes 1 x.mask
    ++ leBytes 5 0 ++ beBytes 8 x.res

/-! Direct (R380, R381). -/

/-- A direct entry. -/
def Chan.dirGet (ch : Chan) (t i : Nat) : Nat := tget 0 ch.tbl.direct (t * 2 ^ 32 + i)

/-- Write a direct entry. -/
def Chan.dirPut (ch : Chan) (t i v : Nat) : Chan :=
  ch.onTbl (fun w => { w with direct := tput 0 w.direct (t * 2 ^ 32 + i) v, meterSub := tput (0, 0) w.meterSub (t * 2 ^ 32 + i) (0, 0) })

/-- The logical line of a direct entry. -/
def Chan.dirLine (ch : Chan) (t i : Nat) : Nat := i * ch.tWidth t / 512

/-- The words of a direct entry. -/
def Chan.dirWords (ch : Chan) (t i : Nat) : List (Nat × Nat) :=
  let e := ch.tWidth t
  (List.range (max 1 (e / 64))).map (fun n => (ch.dirLine t i, i * e / 64 % 8 + n))

/-- The group descriptor of a SELECT table (R381). -/
def Chan.group (ch : Chan) (t g : Nat) : Word := tget 0 ch.tbl.grp (ch.tHi t + g)

/-! Capacity and counts (R409). -/

/-- TDEF_CAPACITY: what the table can use now. -/
def Chan.tCapacity (ch : Chan) (t : Nat) : Nat :=
  let lost := fun (per : Nat) => per * ((allBelow (ch.tSegs t) (fun j => ch.lineHole t (j * ch.tSegLines t))).length * ch.tSegLines t)
  if ch.tValid t = false then 0
  else if tblKind t = 1 then 4 * ch.tCount t - lost (if ch.tWidth t = 64 then 8 else 512 / ch.tWidth t)
  else if tblKind t = 2 then ch.lpmCap t
  else if tblKind t = 3 then ch.ternCap t
  else ch.tCount t - lost (512 / ch.tWidth t)

/-- TDEF_ENTRIES: valid versions. -/
def Chan.tEntries (ch : Chan) (t : Nat) : Nat :=
  if tblKind t = 1 then (ch.emAll t).length
  else if tblKind t = 2 then (ch.lpmAll t).length
  else if tblKind t = 3 then (ch.ternAll t).length
  else if ch.tValid t then ch.tCount t else 0

/-- TDEF_STAT (R409). -/
def Chan.tStat (ch : Chan) (t : Nat) : Nat :=
  b2n (tget false ch.tbl.degraded t) * 2 ^ 31 + b2n (ch.hasPoison t) * 2 ^ 30
    + b2n (ch.tbl.flushes.any (fun f => f.table == t)) * 2 ^ 29

/-! Notifications (R394, R401). -/

/-- A table notification to the table's owner (R401). -/
def Chan.notify (ch : Chan) (t typ whr cnt : Nat) (entry : List Byte) : Chan :=
  let owner := ch.tdef t TBL.TDEF_CFG_OWNER
  let rec_ := leBytes 8 ch.t64 ++ leBytes 1 typ ++ leBytes 1 t ++ leBytes 2 0 ++ leBytes 4 ch.tbl.noteSeq ++ leBytes 4 whr
    ++ leBytes 4 cnt ++ leBytes 8 0 ++ sliceBytes entry 0 96
  let c1 := ch.onTbl (fun w => { w with noteSeq := (w.noteSeq + 1) % 2 ^ 32 })
  c1.sendRec owner 18 ch.t64 rec_

/-- A learn record (R394). -/
structure LearnRec where
  time : Nat
  time2 : Nat := 0
  typ : Nat
  table : Nat
  port : Nat
  port2 : Nat := 0
  sys : Nat
  sys2 : Nat := 0
  part : Nat
  key : List Byte
  flags : Nat := 0

/-- Send a learn record to the learn ring of a partition. -/
def Chan.sendLearn (ch : Chan) (x : LearnRec) : Chan :=
  let rec_ := leBytes 8 x.time ++ leBytes 8 x.time2 ++ leBytes 1 x.typ ++ leBytes 1 x.table ++ leBytes 1 x.port ++ leBytes 1 x.port2
    ++ leBytes 2 x.sys ++ leBytes 2 x.sys2 ++ leBytes 1 x.part ++ leBytes 1 x.key.length ++ leBytes 1 x.flags ++ leBytes 1 0
    ++ leBytes 4 ch.tbl.learnSeq ++ sliceBytes x.key 0 64
  let c1 := (ch.onTbl (fun w => { w with learnSeq := (w.learnSeq + 1) % 2 ^ 32 })).inc pgLearn LEARN.NOTIFY_CNT
  c1.sendRec x.part 16 x.time rec_

/-! The loss of entries and banks (R404, R405). -/

/-- Entries of table `t` that a change of segments has displaced leave it with a notification each (R405). -/
def Chan.displace (ch : Chan) (t : Nat) (l : List (Nat × List Byte)) : Chan :=
  (ch.each l (fun c e => (c.notify t 1 e.1 0 e.2).inc pgTbl TBL.DISPLACED_CNT)).when (!l.isEmpty) (fun c => c.raise pgTbl 15)

/-- Put displaced EM versions back without the hole, and report those that find no place. -/
def Chan.emRehome (ch : Chan) (t : Nat) (l : List (Nat × EmVer)) : Chan × List (Nat × List Byte) :=
  l.foldl (fun r e => match r.1.emPlace t e.2 with
    | some c => (c, r.2)
    | none => (r.1, r.2 ++ [(((ch.emLines t (e.1 / 4)).head?).getD 0, e.2.record (ch.tWidth t))])) (ch, [])

/-- Segment `j` of a replica of table `t` has become a hole (R405 steps 2 to 4). -/
def Chan.openHole (ch : Chan) (t j : Nat) : Chan :=
  let ll := ch.tSegLines t
  let seg := j % max 1 (ch.tSegs t)
  let inHole := fun (line : Nat) => line / ll == seg
  let r : Chan × List (Nat × List Byte) × List Nat :=
    if tblKind t = 1 then
      let all := (ch.emAll t).filter (fun e => decide (e.1 < 4 * ch.tCount t) && (ch.emLines t (e.1 / 4)).any inHole)
      let dead := all.filter (fun e => ch.wordsLost t (ch.emWords t e.1))
      let live := all.filter (fun e => !(dead.any (fun d => d.1 == e.1)))
      let c1 := ch.each all (fun c e => c.emPut t e.1 {})
      let m := c1.emRehome t live
      (m.1, m.2, dead.map (fun e => ((ch.emLines t (e.1 / 4)).head?).getD 0))
    else if tblKind t = 2 then
      let cap := ch.lpmCap t
      let kept := (ch.lpmAll t).foldl (fun (k : List LpmPfx × List LpmPfx) p =>
        if lpmLines (ch.lpmBits t) (ch.tStrides t) (k.1 ++ [p]) ≤ cap then (k.1 ++ [p], k.2) else (k.1, k.2 ++ [p])) ([], [])
      (ch.lpmPut t kept.1, kept.2.map (fun p => (0xFFFFFFFF, p.record (ch.lpmBits t))), [])
    else
      let per := 512 / ch.tWidth t
      let idx := ((ch.tbl.direct.filter (fun e => e.1 / 2 ^ 32 == t)).map (fun e => e.1 % 2 ^ 32)).filter
        (fun i => inHole (i / per))
      let lost := idx.filter (fun i => ch.wordsLost t (ch.dirWords t i))
      let live := idx.filter (fun i => !(lost.contains i))
      (ch.each idx (fun c i => c.dirPut t i 0), live.map (fun i => (i, beBytes (ch.tWidth t / 8) (ch.dirGet t i))),
        lost.map (fun i => i / per))
  let c1 := r.1.displace t r.2.1
  let c2 := c1.each r.2.2 (fun c l => c.notify t 2 l 0 [])
  let c3 := (c2.onTbl (fun w => { w with degraded := tput false w.degraded t true })).raise pgTbl 11
  let c4 := c3.notify t 5 0xFFFFFFFF (c3.tCapacity t) []
  let c5 := c4.journal pgTbl clsDegraded 7 (t + c4.tCapacity t * 2 ^ 32)
  if r.2.1.isEmpty && r.2.2.isEmpty then c5
  else c5.journal pgTbl clsContained 8 (t + r.2.1.length * 2 ^ 32 + r.2.2.length * 2 ^ 64)

/-- One used segment of a bank that leaves service moves to a free segment, whichever (log 6), or becomes a hole. -/
def Chan.evacuateSeg (ch : Chan) (t j : Nat) : Chan :=
  let put := fun (c : Chan) (x : Nat) => c.onTbl (fun w => { w with segs := tput [] w.segs t ((tget [] w.segs t).set j x) })
  match pickOf (ch.freeVal 32) ch.freeSegs with
  | some f => put ch.takeFree f
  | none => (put ch 0).openHole t j

/-- A bank leaves service with no spare left (R405): its segments move or become holes, in ascending table ID. -/
def Chan.evacuate (ch : Chan) (b : Nat) : Chan :=
  let c1 := ch.setBank b 5
  let todo := ch.tbl.segs.flatMap (fun e =>
    (((List.range e.2.length).zip e.2).filter (fun x => x.2 != 0 && (x.2 - 1) / 32 == b)).map (fun x => (e.1, x.1)))
  (c1.each todo (fun c x => c.evacuateSeg x.1 x.2)).journal pgTbl clsDegraded 5 (b + min 255 (ch.bankUes b) * 2 ^ 8)

/-- The lowest-numbered spare bank that is not under test (R402, R571). -/
def Chan.spareBank (ch : Chan) : Option Nat := firstBelow 68 (fun b => ch.bankState b == 0 && !(ch.bankTested b))

/-- The bank that a rotation of the keeper takes: a spare under test where there is no other (R571). -/
def Chan.anySpare (ch : Chan) : Option Nat :=
  match ch.spareBank with
  | some d => some d
  | none => firstBelow 68 (fun b => ch.bankState b == 0)

/-- A rotation starts (R402). The last spare in use raises SPARES_LOW (R404). -/
def Chan.startRotate (ch : Chan) (b d : Nat) (retire : Bool) : Chan :=
  let c1 := ((ch.setBank b 2).setBank d 3).onTbl (fun w => { w with rots := w.rots ++ [⟨b, d, retire⟩] })
  if c1.anySpare.isNone then (c1.raise pgTbl 14).journal pgTbl clsDegraded 6 else c1

/-- A bank's count of uncorrectable errors may have reached UE_LIMIT (R404). -/
def Chan.bankJudge (ch : Chan) (b : Nat) : Chan :=
  if ch.active.isSome ∧ ch.getB pgTbl TBL.BANK_CFG_AUTO_ROTATE ∧ ch.getF pgTbl TBL.BANK_CFG_UE_LIMIT ≤ ch.bankUes b ∧ ch.bankState b = 1 then
    match ch.anySpare with
    | some d => (if ch.bankTested d then ch.testEnd (testKey 0 4 d) 4 else ch).startRotate b d true
    | none => ch.evacuate b
  else ch

/-- An uncorrectable word has been read in a line of a replica (R396, R397): it is counted against its bank and captured, the
line is marked POISONED; the active keeper journals and notifies it, and rewrites a line that another replica can give. -/
def Chan.tblUncorr (ch : Chan) (t rep line syn word : Nat) : Chan :=
  let seg := ch.lineSeg t rep line
  let bank := (seg - 1) / 32
  let phys := (seg - 1) % 32 * 2048 + line % ch.tSegLines t % 2048
  let c1 := ((ch.inc pgTbl TBL.UNCORR_CNT).capture pgTbl clsContained 9 (bank * 0x10000 + phys + t * 2 ^ 32) syn word).raise pgTbl 9
  let c2 := c1.onTbl (fun w => { w with
    poison := tput 0 w.poison (lineKey t rep line) (setNbit (tget 0 w.poison (lineKey t rep line)) (word % 8) true) })
  if c2.active.isNone then c2
  else
    let c3 := c2.onTbl (fun w => { w with
      ues := (w.ues.filter (fun e => decide (c1.ns / 1000000000 < e.2 + 86400))) ++ [(bank, c1.ns / 1000000000)] })
    let c4 := (c3.journal pgTbl clsContained 1 (t + bank * 2 ^ 8 + line * 2 ^ 32)).notify t 6 line 0 []
    let c5 := if c4.lineLost t line then c4
      else (c4.onTbl (fun w => { w with poison := tput 0 w.poison (lineKey t rep line) 0 })).journal pgTbl clsCorrected 3 (t + 2 ^ 32)
    c5.bankJudge bank

end Sys2Proof.Machine
end

