-- ==== Sys2Proof/Machine/Tables.lean ====
section
/-! DEFINITION. Table creation (R370), table commands (R371–R390), learning and aging (R391–R395), scrubs, divergence, and banks
(R396–R411). -/

namespace Sys2Proof.Machine

/-! Status codes (R385). -/

/-- Status codes of table commands. -/
abbrev tsOk : Nat := 0
abbrev tsExists : Nat := 1
abbrev tsNotFound : Nat := 2
abbrev tsFull : Nat := 3
abbrev tsBadTable : Nat := 4
abbrev tsBadArg : Nat := 5
abbrev tsBadMask : Nat := 6
abbrev tsNotOwner : Nat := 7
abbrev tsEcc : Nat := 8
abbrev tsFlushBusy : Nat := 9
abbrev tsEnd : Nat := 10
abbrev tsUnavailable : Nat := 11

/-! Creation and destruction (R370, R409, R410). -/

/-- Is the definition allowed (R409, R410)? -/
def Chan.defLegal (ch : Chan) (t : Nat) : Bool :=
  let g := ch.tdef t
  let k := tblKind t
  let kl := ch.tKeyLen t
  let prot := g TBL.TDEF_CFG_PROT
  let w := g TBL.TDEF_CFG_WIDTH
  let common := decide (prot ≠ 3) && decide (g TBL.TDEF_CFG_POLICY ≠ 3) && decide (g TBL.TDEF_CFG_REPLICAS ≠ 3) && decide (w ≤ 4)
    && g TBL.TDEF_ATTR_DTYPE != 3 && (k == 1 || (g TBL.TDEF_ATTR_LEARN == 0 && g TBL.TDEF_ATTR_AGE == 0))
    && (k == 4 || g TBL.TDEF_ATTR_SELECT == 0)
  let noLpm := k == 2 || decide (ch.nat pgTbl (TBL.TDEF_LPM t) = 0)
  let noRes := k == 1 || g TBL.TDEF_SIZE_RES_LEN == 0
  common && noLpm && noRes &&
    (if k = 1 then
      let alias_ := g TBL.TDEF_ATTR_LEARN_ALIAS
      decide (1 ≤ w) && decide (1 ≤ kl) && decide (kl ≤ 61) && decide (2 + kl + ch.tResLen t ≤ ch.tWidth t / 8)
        && decide (0 < ch.tCount t) && decide (g TBL.TDEF_ATTR_OVF_UNITS ≤ 64)
        && (g TBL.TDEF_ATTR_AGE == 0 || g TBL.TDEF_ATTR_AGE_LIMIT != 0)
        && (g TBL.TDEF_ATTR_LEARN == 0 || (!(ch.tValid alias_) && alias_ != t &&
          !((List.range 64).any (fun u => ch.tValid u && ch.tdef u TBL.TDEF_ATTR_LEARN == 1 && ch.tdef u TBL.TDEF_ATTR_LEARN_ALIAS == alias_))))
    else if k = 2 then
      let s := ch.tStrides t
      let sum := s.foldl (fun n x => n + x) 0
      w == 0 && decide (3 ≤ kl) && decide (kl ≤ 18) && s.all (fun x => decide (1 ≤ x) && decide (x ≤ 24))
        && decide (sum ≤ 96) && decide (sum ≤ 8 * (kl - 2)) && decide (0 < g TBL.TDEF_SIZE_SIZE)
        && decide ((List.range 16).foldl (fun n j => n + if ch.tValid (0x40 + j) then ch.tLo (0x40 + j) else 0) (ch.tLo t) ≤ 16384)
    else if k = 3 then
      let bs := ch.tBlocks t
      let wide := (bs.filter (fun b => ch.getB pgTern (TERN.BLOCK_WIDE b))).length
      w == 0 && (prot == 0 || prot == 2) && g TBL.TDEF_CFG_REPLICAS == 0 && g TBL.TDEF_SIZE_SIZE == 0
        && !bs.isEmpty && (wide == 0 || wide == bs.length) && decide (1 ≤ kl) && decide (kl ≤ if wide = 0 then 20 else 40)
        && ch.nat pgTbl (TBL.TDEF_SEED t) == 0
    else
      let dt := g TBL.TDEF_ATTR_DTYPE
      decide (1 ≤ kl) && decide (kl ≤ 4) && decide (0 < ch.tCount t)
        && (dt == 0 || (prot == 0 && g TBL.TDEF_CFG_REPLICAS == 0 && g TBL.TDEF_ATTR_SELECT == 0))
        && (dt != 1 || w == 2) && (dt != 2 || w == 3)
        && (g TBL.TDEF_ATTR_SELECT == 1 || ch.nat pgTbl (TBL.TDEF_SEED t) == 0)
        && (g TBL.TDEF_ATTR_SELECT == 0 || decide (ch.tHi t + ch.tLo t < 65536)))

/-- Every entry of a table is gone. -/
def Chan.emptyTable (ch : Chan) (t : Nat) : Chan :=
  ch.onTbl (fun w => { w with
    em := tclear w.em (t * 2 ^ 40) ((t + 1) * 2 ^ 40), lpm := tput [] w.lpm t [], tern := tput [] w.tern t [],
    direct := tclear w.direct (t * 2 ^ 32) ((t + 1) * 2 ^ 32), meterSub := tclear w.meterSub (t * 2 ^ 32) ((t + 1) * 2 ^ 32), poison := tclear w.poison (t * 2 ^ 34) ((t + 1) * 2 ^ 34),
    flushes := w.flushes.filter (fun f => f.table != t), degraded := tput false w.degraded t false,
    shadow := tput (0, 0) w.shadow t (0, 0), swept := tput 0 w.swept t 0, filter := w.filter.filter (fun e => e.table != t) })

/-- CREATE (R370): the outcome and the module after it. -/
def Chan.createTable (ch : Chan) (t : Nat) : Chan × Nat :=
  if tblKind t = 0 then (ch, tsBadTable)
  else if ch.tValid t then (ch, tsExists)
  else if !(ch.defLegal t) then (ch, tsBadArg)
  else
    let n := if tblKind t = 3 then 0 else ch.tReps t * ch.tSegs t
    let free := ch.freeSegs
    let ovf := if tblKind t = 1 then ch.tdef t TBL.TDEF_ATTR_OVF_UNITS else 0
    if free.length < n ∨ ch.ovfFree < ovf then (ch, tsFull)
    else
      let c1 := (ch.emptyTable t).onTbl (fun w => { w with segs := tput [] w.segs t (free.take n) })
      (c1.putF pgTbl (TBL.TDEF_CFG_VALID t) 1, tsOk)

/-- DESTROY (R370). -/
def Chan.destroyTable (ch : Chan) (t : Nat) : Chan × Nat :=
  if !(ch.tValid t) then (ch, tsBadTable)
  else
    let c1 := (ch.emptyTable t).onTbl (fun w => { w with segs := tput [] w.segs t [] })
    let c2 := c1.each (ch.tBlocks t) (fun c b => c.put pgTern (TERN.BLOCK b) 0)
    (c2.putF pgTbl (TBL.TDEF_CFG_VALID t) 0, tsOk)

/-- A write of TBL.TCTRL at either port, which has a TCTRL_STAT of its own (R370, R407). -/
def tctrlHook : Hook := fun w ch =>
  let t := fld w.v 7 0
  if bit w.v 31 then
    let r := ch.createTable t
    r.1.putN pgTbl (w.off + 4) r.2
  else if bit w.v 30 then
    let r := ch.destroyTable t
    r.1.putN pgTbl (w.off + 4) r.2
  else ch

/-- TABLE_CREATE (R370). -/
def execTableCreate (r : Req) (c : Fin 4) (kport : Bool) (table : Nat) (s : State) : Host.Outcome State Fault Refusal :=
  .next (s.chanWrite tctrlHook true r c pgTbl (if kport then TBL.KTCTRL else TBL.TCTRL) (BitVec.ofNat 32 (2 ^ 31 + table % 256)))

/-- TABLE_DESTROY (R370). -/
def execTableDestroy (r : Req) (c : Fin 4) (kport : Bool) (table : Nat) (s : State) : Host.Outcome State Fault Refusal :=
  .next (s.chanWrite tctrlHook true r c pgTbl (if kport then TBL.KTCTRL else TBL.TCTRL) (BitVec.ofNat 32 (2 ^ 30 + table % 256)))

/-! Commands (R382–R390). -/

/-- A table command as the engine sees it. -/
structure TCmd where
  /-- 0 the manager, 1 the keeper, 2 + p a ring of partition p -/
  src : Nat
  op : Nat
  table : Nat
  mask : Nat := 0
  flag : Bool := false
  len : Nat := 0
  prio : Nat := 0
  index : Nat := 0
  key : List Byte := []
  msk : List Byte := []
  res : List Byte := []
  cursor : Nat := 0

/-- What a command answers. -/
structure TAns where
  status : Nat := 0
  hit : Bool := false
  age : Nat := 0
  static : Bool := false
  found : Nat := 0
  /-- the result, where the command returns one -/
  res : Option (List Byte) := none
  cursor : Option Nat := none

/-- The masks that a command may carry now (R372). -/
def Chan.maskOk (ch : Chan) (m : Nat) : Bool :=
  let st := ch.brewState
  let c := 2 ^ ch.curParity
  if m = 3 then true
  else if st = 2 ∧ ch.prs.fromEmpty = false then m == 1 || m == 2
  else if st = 3 ∨ st = 4 ∨ st = 5 then m == c
  else false

/-- A failed answer. -/
def tsFail (ch : Chan) (st : Nat) : Chan × TAns := (ch, { status := st })

/-- A CONTESTED filter entry of a key leaves when a command writes the key (R393). -/
def Chan.keyWritten (ch : Chan) (t : Nat) (key : List Byte) : Chan :=
  ch.onTbl (fun w => { w with filter := w.filter.filter (fun e => !(e.contested && e.table == t && e.key == key)) })

/-- A FULL outcome of an insertion (R412, R413). -/
def Chan.tblFull (ch : Chan) (t : Nat) : Chan × TAns :=
  let c1 := ch.tally pgTbl 0x13
  (if tblKind t = 3 then c1.raise pgTern 9 else c1, { status := tsFull })

/-- INSERT into an EM table (R371, R375). -/
def Chan.emInsert (ch : Chan) (k : TCmd) : Chan × TAns :=
  let t := k.table
  let key := sliceBytes k.key 0 (ch.tKeyLen t)
  if (ch.emFind t key).any (fun e => decide (Nat.land e.2.mask k.mask ≠ 0)) then tsFail ch tsExists
  else match ch.emPlace t { key := key, res := sliceBytes k.res 0 (ch.tResLen t), mask := k.mask, static := k.flag, stamp := ch.tbl.stamp } with
    | some c => (c.keyWritten t key, {})
    | none => ch.tblFull t

/-- UPDATE of an EM table (R371). -/
def Chan.emUpdate (ch : Chan) (k : TCmd) : Chan × TAns :=
  let t := k.table
  let key := sliceBytes k.key 0 (ch.tKeyLen t)
  let vs := ch.emFind t key
  let seen := vs.foldl (fun m e => Nat.lor m e.2.mask) 0
  if Nat.land seen k.mask ≠ k.mask then tsFail ch tsNotFound
  else
    let res := sliceBytes k.res 0 (ch.tResLen t)
    let split := vs.find? (fun e => decide (e.2.mask = 3 ∧ k.mask ≠ 3))
    match split with
    | some e =>
      match (ch.emPut t e.1 { e.2 with mask := 3 - k.mask }).emPlace t { key := key, res := res, mask := k.mask, static := k.flag, stamp := ch.tbl.stamp } with
      | some c => (c.keyWritten t key, {})
      | none => ch.tblFull t
    | none =>
      ((ch.each (vs.filter (fun e => decide (Nat.land e.2.mask k.mask ≠ 0))) (fun c e =>
        c.emPut t e.1 { e.2 with res := res, static := k.flag, stamp := ch.tbl.stamp })).keyWritten t key, {})

/-- The bits of a mask leave a version. -/
def Chan.emDrop (ch : Chan) (t m slot : Nat) (v : EmVer) : Chan :=
  let n := Nat.land v.mask (3 - m % 4)
  ch.emPut t slot (if n = 0 then {} else { v with mask := n })

/-- DELETE from an EM table (R371). -/
def Chan.emDelete (ch : Chan) (k : TCmd) : Chan × TAns :=
  let t := k.table
  let key := sliceBytes k.key 0 (ch.tKeyLen t)
  let vs := (ch.emFind t key).filter (fun e => decide (Nat.land e.2.mask k.mask ≠ 0))
  if vs.isEmpty then tsFail ch tsNotFound
  else ((ch.each vs (fun c e => c.emDrop t k.mask e.1 e.2)).keyWritten t key, {})

/-- The prefix that a command names, and its address width. -/
def Chan.cmdPfx (ch : Chan) (k : TCmd) : LpmPfx :=
  let bits := ch.lpmBits k.table
  {
    vrf := beAt k.key 0 2, addr := pfxOf bits (beAt k.key 2 (ch.tKeyLen k.table - 2)) k.len, len := k.len, mask := k.mask,
    res := beAt k.res 0 4 % 2 ^ 30 }

/-- The same prefix, by VRF, address and length. -/
def LpmPfx.same (a b : LpmPfx) : Bool := a.vrf == b.vrf && a.addr == b.addr && a.len == b.len

/-- Write the changed tries into free lines beside those in use, when they suffice (R378). -/
def Chan.lpmCommit (ch : Chan) (t : Nat) (l : List LpmPfx) : Chan × TAns :=
  let bits := ch.lpmBits t
  let old := lpmTrie bits (ch.tStrides t) (ch.lpmAll t)
  if ch.lpmCap t < nodeLines old + lpmNeed bits old (lpmTrie bits (ch.tStrides t) l) then ch.tblFull t else (ch.lpmPut t l, {})

/-- INSERT, UPDATE and DELETE of a prefix (R371, R378). -/
def Chan.lpmWrite (ch : Chan) (k : TCmd) : Chan × TAns :=
  let t := k.table
  let p := ch.cmdPfx k
  let l := ch.lpmAll t
  let vs := l.filter (fun q => q.same p)
  let rest := l.filter (fun q => !(q.same p))
  let seen := vs.foldl (fun m q => Nat.lor m q.mask) 0
  if k.op = 1 then
    if Nat.land seen k.mask ≠ 0 then tsFail ch tsExists else ch.lpmCommit t (lpmInsert p l)
  else
    let left := (vs.map (fun q => { q with mask := Nat.land q.mask (3 - k.mask % 4) })).filter (fun q => q.mask != 0)
    let hit := (vs.map (fun q => { q with mask := Nat.land q.mask k.mask, res := p.res })).filter (fun q => q.mask != 0)
    if k.op = 2 then
      if Nat.land seen k.mask ≠ k.mask then tsFail ch tsNotFound
      else ch.lpmCommit t ((hit ++ left).foldl (fun x q => lpmInsert q x) rest)
    else if Nat.land seen k.mask = 0 then tsFail ch tsNotFound
    else ch.lpmCommit t (left.foldl (fun x q => lpmInsert q x) rest)

/-- Key and mask of a ternary command. -/
def Chan.cmdTern (ch : Chan) (k : TCmd) : TernEnt :=
  let n := ch.tKeyLen k.table
  { key := beAt k.key 0 n, tmask := beAt k.msk 0 n, prio := k.prio, mask := k.mask, res := beAt k.res 0 8, ord := ch.tbl.stamp }

/-- The same triple of key, mask and priority (R371). -/
def TernEnt.same (a b : TernEnt) : Bool := a.key == b.key && a.tmask == b.tmask && a.prio == b.prio

/-- INSERT, UPDATE and DELETE of a ternary entry (R371, R379). -/
def Chan.ternWrite (ch : Chan) (k : TCmd) : Chan × TAns :=
  let t := k.table
  let x := ch.cmdTern k
  let l := ch.ternAll t
  let vs := l.filter (fun q => q.same x)
  let seen := vs.foldl (fun m q => Nat.lor m q.mask) 0
  if k.op = 1 then
    if Nat.land seen k.mask ≠ 0 then tsFail ch tsExists
    else if ch.ternCap t ≤ l.length then ch.tblFull t
    else (ch.ternPut t (ternInsert x l), {})
  else if k.op = 2 then
    if Nat.land seen k.mask ≠ k.mask then tsFail ch tsNotFound
    else match vs.find? (fun q => q.mask == 3 && k.mask != 3) with
      | some _ =>
        if ch.ternCap t ≤ l.length then ch.tblFull t
        else
          let cut := l.map (fun q => if q.same x then { q with mask := 3 - k.mask } else q)
          (ch.ternPut t (ternInsert x cut), {})
      | none =>
        (ch.ternPut t (l.map (fun q => if q.same x && Nat.land q.mask k.mask != 0 then { q with res := x.res, bad := false } else q)), {})
  else if Nat.land seen k.mask = 0 then tsFail ch tsNotFound
  else
    (ch.ternPut t ((l.map (fun q => if q.same x then { q with mask := Nat.land q.mask (3 - k.mask % 4) } else q)).filter
      (fun q => q.mask != 0)), {})

/-- INSERT and UPDATE at an index of a direct table, or of a group descriptor (R380, R381, R384). -/
def Chan.dirWrite (ch : Chan) (k : TCmd) : Chan × TAns :=
  let t := k.table
  let line := ch.dirLine t k.index
  if k.op = 2 ∧ k.flag = true ∧ ch.tdef t TBL.TDEF_ATTR_SELECT = 1 then
    if ch.tLo t < k.index then tsFail ch tsBadArg
    else (ch.onTbl (fun w => { w with grp := tput 0 w.grp (ch.tHi t + k.index) (BitVec.ofNat 32 (beAt k.res 0 4)) }), {})
  else if ch.tCount t ≤ k.index ∨ (k.op = 1 ∧ ch.tdef t TBL.TDEF_ATTR_DTYPE ≠ 0) then tsFail ch tsBadArg
  else if ch.lineHole t line then tsFail ch tsUnavailable
  else if ch.lineLost t line ∧ ch.tWidth t ≠ 512 then tsFail ch tsEcc
  else
    let c1 := ch.dirPut t k.index (beAt k.res 0 (ch.tWidth t / 8))
    (if ch.tWidth t = 512 then c1.cleanLine t line else c1, {})

/-- LOOKUP (R384). -/
def Chan.tblLookup (ch : Chan) (k : TCmd) : Chan × TAns :=
  let t := k.table
  let par := if k.mask = 2 then 1 else 0
  if tblKind t = 1 then
    let key := sliceBytes k.key 0 (ch.tKeyLen t)
    if ch.emLost t key then tsFail ch tsEcc
    else match (ch.emFind t key).find? (fun e => nbit e.2.mask par) with
      | some e => (ch, { hit := e.2.hit, age := e.2.age, static := e.2.static, found := e.2.mask, res := some e.2.res })
      | none => tsFail ch tsNotFound
  else if tblKind t = 2 then
    let p := ch.cmdPfx k
    let l := (ch.lpmAll t).filter (fun q => nbit q.mask par)
    let addr := beAt k.key 2 (ch.tKeyLen t - 2)
    let r := if k.flag then longest (l.filter (fun q => q.covers (ch.lpmBits t) p.vrf addr)) else l.find? (fun q => q.same p)
    match r with
    | some q => (ch, { found := q.mask, res := some (beBytes 4 q.res) })
    | none => tsFail ch tsNotFound
  else if tblKind t = 3 then
    let x := ch.cmdTern k
    match (ch.ternAll t).find? (fun q => q.same x && nbit q.mask par) with
    | some q => (ch, { found := q.mask, res := some (beBytes 8 q.res) })
    | none => tsFail ch tsNotFound
  else
    let line := ch.dirLine t k.index
    if ch.tCount t ≤ k.index then tsFail ch tsBadArg
    else if ch.lineHole t line then tsFail ch tsUnavailable
    else if ch.lineLost t line then tsFail ch tsEcc
    else (ch, { res := some (beBytes (ch.tWidth t / 8) (ch.dirGet t k.index)) })

/-- The VRFs that a partition may command in a table of partition 0 (R382). -/
def Chan.vrfGranted (ch : Chan) (p vrf : Nat) : Bool :=
  let b := ch.getF pgTbl (TBL.VRF_GRANT_BASE p)
  decide (b ≤ vrf) && decide (vrf < b + ch.getF pgTbl (TBL.VRF_GRANT_COUNT p))

/-- May a source see a prefix of the table? -/
def Chan.mayVrf (ch : Chan) (src t vrf : Nat) : Bool :=
  decide (src < 2) || ch.tdef t TBL.TDEF_CFG_OWNER == src - 2 || ch.vrfGranted (src - 2) vrf

/-- The next walk position (R388): remember what a cursor names. -/
def Chan.newWalk (ch : Chan) (a b : Nat) : Chan × Nat :=
  let n := ch.tbl.nextWalk
  (ch.onTbl (fun w => { w with walks := tput (0, 0) w.walks n (a, b), nextWalk := if n + 1 < 2 ^ 32 then n + 1 else 1 }), n)

/-- The first entry from a cursor that meets the command's masks (R388). -/
def Chan.tblSearch (ch : Chan) (k : TCmd) : Chan × TAns :=
  let t := k.table
  let cur := k.cursor % 2 ^ 32
  let n := ch.tKeyLen t
  let from_ := tget (0, 0) ch.tbl.walks cur
  let behind := fun (a b : Nat) => cur == 0 || decide (from_.1 < a) || (from_.1 == a && decide (from_.2 < b))
  if tblKind t = 1 then
    let m := beNat (sliceBytes (sliceBytes k.msk 0 40) 0 n)
    let want := Nat.land (beAt k.key 0 n) m
    match (ch.emAll t).find? (fun e => decide (cur ≤ e.1) && Nat.land e.2.mask k.mask != 0 && Nat.land (beNat e.2.key) m == want) with
    | some e => (ch, { hit := e.2.hit, age := e.2.age, static := e.2.static, found := e.2.mask, res := some e.2.res, cursor := some (e.1 + 1) })
    | none => tsFail ch tsEnd
  else if tblKind t = 2 then
    let bits := ch.lpmBits t
    let m := beAt k.msk 0 18
    let want := Nat.land (beAt k.key 0 18) m
    match (ch.lpmAll t).find? (fun p => ch.mayVrf k.src t p.vrf && behind (p.vrf * 2 ^ 128 + p.addr) (p.len * 4 + p.mask)
        && Nat.land p.mask k.mask != 0 && Nat.land (p.vrf * 2 ^ 128 + p.addr * 2 ^ (128 - bits)) m == want) with
    | some p =>
      let w := ch.newWalk (p.vrf * 2 ^ 128 + p.addr) (p.len * 4 + p.mask)
      (w.1, { found := p.mask, res := some (beBytes 4 p.res), cursor := some w.2 })
    | none => tsFail ch tsEnd
  else if tblKind t = 3 then
    let m := beNat (sliceBytes k.msk 0 n)
    let want := Nat.land (beAt k.key 0 n) m
    match (ch.ternAll t).find? (fun e => behind (65535 - e.prio) e.ord && Nat.land e.mask k.mask != 0 && Nat.land e.key m == want) with
    | some e =>
      let w := ch.newWalk (65535 - e.prio) e.ord
      (w.1, { found := e.mask, res := some (beBytes 8 e.res), cursor := some w.2 })
    | none => tsFail ch tsEnd
  else
    match (List.range (ch.tCount t - cur)).find? (fun i => !(ch.lineHole t (ch.dirLine t (cur + i)))) with
    | some i =>
      if ch.lineLost t (ch.dirLine t (cur + i)) then (ch, { status := tsEcc, cursor := some (cur + i + 1) })
      else (ch, { res := some (beBytes (ch.tWidth t / 8) (ch.dirGet t (cur + i))), cursor := some (cur + i + 1) })
    | none => tsFail ch tsEnd

/-- One aging sweep of an EM table (R395). -/
def Chan.ageSweep (ch : Chan) (t : Nat) : Chan :=
  let lim := ch.tdef t TBL.TDEF_ATTR_AGE_LIMIT
  let del := ch.tdef t TBL.TDEF_ATTR_AGE_DELETE = 1
  ch.each ((ch.emAll t).filter (fun e => !e.2.static)) (fun c e =>
    let v := e.2
    if v.hit then c.emPut t e.1 { v with hit := false, age := 0 }
    else
      let a := if v.age < lim then v.age + 1 else v.age
      let c1 := c.emPut t e.1 { v with age := a }
      if v.age < lim ∧ a = lim then
        let c2 := (c1.takeFree).sendLearn {
          time := c.t64, typ := 4, table := t, port := c1.freeVal 6,
          sys := portField (c.tdef t TBL.TDEF_ATTR_PORT_OFF) v.res, part := c.tdef t TBL.TDEF_CFG_OWNER, key := v.key, flags := b2n del }
        if del then c2.emPut t e.1 {} else c2
      else c1)

/-- The command applies to tables of the kind (R384). -/
def Chan.opApplies (ch : Chan) (op t : Nat) : Bool :=
  let k := tblKind t
  if op = 1 then k != 4 || ch.tdef t TBL.TDEF_ATTR_DTYPE == 0
  else if op = 3 then k != 4
  else if op = 7 then k == 1
  else if op = 8 then k == 1 && ch.tdef t TBL.TDEF_ATTR_AGE == 1
  else op == 2 || op == 4 || op == 5 || op == 6

/-- Arguments that no table of the kind accepts (R376, R380, R384). -/
def Chan.argBad (ch : Chan) (k : TCmd) : Bool :=
  let t := k.table
  !(ch.opApplies k.op t) ||
    (tblKind t == 2 && k.op == 1 &&
      (decide ((ch.tStrides t).foldl (fun n x => n + x) 0 < k.len)
        || !(decide (ch.tHi t ≤ beAt k.key 0 2) && decide (beAt k.key 0 2 < ch.tHi t + ch.tLo t))))

/-- Run a table command (R371–R390): the table, its owner, the arguments and the mask are judged in this order. -/
def Chan.tblRun (ch0 : Chan) (k : TCmd) : Chan × TAns :=
  let ch := (ch0.onTbl (fun w => { w with stamp := w.stamp + 1 })).tally pgTbl 0x12
  let t := k.table
  let kind := tblKind t
  let owner := ch.tdef t TBL.TDEF_CFG_OWNER
  if !(ch.tValid t) then tsFail ch tsBadTable
  else if 2 ≤ k.src ∧ owner ≠ k.src - 2 ∧
      ¬ (kind = 2 ∧ owner = 0 ∧ (5 ≤ k.op ∨ ch.vrfGranted (k.src - 2) (beAt k.key 0 2) = true)) then tsFail ch tsNotOwner
  else if ch.argBad k then tsFail ch tsBadArg
  else if kind ≠ 4 ∧ k.op ≤ 3 ∧ ch.maskOk k.mask = false then tsFail ch tsBadMask
  else if kind ≠ 4 ∧ k.op = 4 ∧ k.mask ≠ 1 ∧ k.mask ≠ 2 then tsFail ch tsBadMask
  else if k.op ≤ 3 then
    if kind = 1 then
      if ch.emLost t (sliceBytes k.key 0 (ch.tKeyLen t)) then tsFail ch tsEcc
      else if k.op = 1 then ch.emInsert k else if k.op = 2 then ch.emUpdate k else ch.emDelete k
    else if kind = 2 then ch.lpmWrite k
    else if kind = 3 then ch.ternWrite k
    else ch.dirWrite k
  else if k.op = 4 then ch.tblLookup k
  else if k.op = 5 then ch.tblSearch { k with cursor := 0 }
  else if k.op = 6 then ch.tblSearch k
  else if k.op = 7 then
    if ch.tbl.flushes.any (fun f => f.table == t) then tsFail ch tsFlushBusy
    else (ch.onTbl (fun w => { w with flushes := w.flushes ++ [⟨t, k.prio, k.flag, w.stamp⟩] }), {})
  else (ch.ageSweep t, {})

/-- TBL.CMD_STAT of an answer (R408). -/
def TAns.stat (a : TAns) : Nat := 2 ^ 30 + a.status * 2 ^ 16 + b2n a.hit * 2 ^ 5 + a.age % 4 * 2 ^ 3 + b2n a.static * 2 ^ 2 + a.found % 4

/-- Bytes of consecutive registers, most significant byte first (R407). -/
def Chan.regBytes (ch : Chan) (off n : Nat) : List Byte := (List.range n).flatMap (fun w => beBytes 4 (ch.nat pgTbl (off + 4 * w)))

/-- Write bytes into consecutive registers. -/
def Chan.putRegBytes (ch : Chan) (off n : Nat) (bs : List Byte) : Chan :=
  ch.each (List.range n) (fun c w => c.putN pgTbl (off + 4 * w) (beAt bs (4 * w) 4))

/-- The command that a port's registers hold; `d` is 0 for the host port and 0x400 for the keeper port. -/
def Chan.portCmd (ch : Chan) (d table op : Nat) : TCmd :=
  let arg := ch.get pgTbl (TBL.CMD_ARG + d)
  {
    src := if d = 0 then 0 else 1, op := op, table := table, mask := fld arg 31 30, flag := bit arg 29, len := fld arg 23 16,
    prio := fld arg 15 0, index := ch.nat pgTbl (TBL.CMD_ARG2 + d), key := ch.regBytes (TBL.KEY 0 + d) 16,
    msk := ch.regBytes (TBL.MASK 0 + d) 10, res := ch.regBytes (TBL.RES 0 + d) 16, cursor := ch.get64 pgTbl (TBL.CURSOR + d) }

/-- A write of TBL.CMD at either port (R383). -/
def tblCmdHook : Hook := fun w ch =>
  let d := if w.off = TBL.CMD then 0 else 0x400
  let c1 := ch.put w.p w.off w.merged
  if bit w.v 31 = false then c1
  else if ch.getB pgTbl ⟨TBL.CMD_STAT + d, 31, 31⟩ then ch
  else
    let r := c1.tblRun (c1.portCmd d (fld w.v 23 16) (fld w.v 7 0))
    let c2 := match r.2.res with
      | some bs => r.1.putRegBytes (TBL.RES 0 + d) 16 bs
      | none => r.1
    let c3 := match r.2.cursor with
      | some n => c2.put64 pgTbl (TBL.CURSOR + d) n
      | none => c2
    (c3.putN pgTbl (TBL.CMD_STAT + d) r.2.stat).raise pgTbl 8

/-- The write that issues a table command through a register port (R383). -/
def State.tblCmd (s : State) (r : Req) (c : Fin 4) (kport : Bool) (table op : Nat) : State :=
  s.chanWrite tblCmdHook true r c pgTbl (if kport then TBL.KCMD else TBL.CMD) (BitVec.ofNat 32 (2 ^ 31 + table % 256 * 2 ^ 16 + op))

/-- INSERT (R371, R384). -/
def execInsert (r : Req) (c : Fin 4) (kport : Bool) (table : Nat) (s : State) : Host.Outcome State Fault Refusal :=
  .next (s.tblCmd r c kport table 1)

/-- UPDATE (R371, R384). -/
def execUpdate (r : Req) (c : Fin 4) (kport : Bool) (table : Nat) (s : State) : Host.Outcome State Fault Refusal :=
  .next (s.tblCmd r c kport table 2)

/-- DELETE (R371, R384). -/
def execDelete (r : Req) (c : Fin 4) (kport : Bool) (table : Nat) (s : State) : Host.Outcome State Fault Refusal :=
  .next (s.tblCmd r c kport table 3)

/-- LOOKUP (R384). -/
def execTblLookup (r : Req) (c : Fin 4) (kport : Bool) (table : Nat) (s : State) : Host.Outcome State Fault Refusal :=
  .next (s.tblCmd r c kport table 4)

/-- SEARCH (R388). -/
def execSearch (r : Req) (c : Fin 4) (kport : Bool) (table : Nat) (s : State) : Host.Outcome State Fault Refusal :=
  .next (s.tblCmd r c kport table 5)

/-- NEXT (R388). -/
def execNext (r : Req) (c : Fin 4) (kport : Bool) (table : Nat) (s : State) : Host.Outcome State Fault Refusal :=
  .next (s.tblCmd r c kport table 6)

/-- FLUSH_BY_PORT (R389). -/
def execFlushByPort (r : Req) (c : Fin 4) (kport : Bool) (table : Nat) (s : State) : Host.Outcome State Fault Refusal :=
  .next (s.tblCmd r c kport table 7)

/-- AGE_SWEEP (R395). -/
def execAgeSweep (r : Req) (c : Fin 4) (kport : Bool) (table : Nat) (s : State) : Host.Outcome State Fault Refusal :=
  .next (s.tblCmd r c kport table 8)

/-- The scan of a flush ends (R389): every version on the port goes, a STATIC one only with FLAG, and one written since the flush
was accepted by chance. -/
def Chan.flushEnd (ch : Chan) (f : FlushRun) : Chan :=
  let t := f.table
  let off := ch.tdef t TBL.TDEF_ATTR_PORT_OFF
  let hits := (ch.emAll t).filter (fun e => portField off e.2.res == f.port && (f.static || !e.2.static))
  let r := hits.foldl (fun (x : Chan × Nat) e =>
    if f.stamp < e.2.stamp then
      if x.1.freeVal 1 = 1 then (x.1.takeFree.emPut t e.1 {}, x.2 + 1) else (x.1.takeFree, x.2)
    else (x.1.emPut t e.1 {}, x.2 + 1)) (ch, 0)
  let c1 := r.1.onTbl (fun w => { w with flushes := w.flushes.filter (fun g => g.table != t) })
  ((c1.raise pgTbl 12).notify t 4 0xFFFFFFFF r.2 []).journal pgTbl clsNone 9 (t + f.port * 2 ^ 16 + r.2 % 2 ^ 32 * 2 ^ 32)

/-- FLUSH_BY_PORT_DONE (R389). -/
def execFlushByPortDone (c : Fin 4) (table : Nat) (s : State) : Host.Outcome State Fault Refusal :=
  .next (s.onLive c (fun ch => match ch.tbl.flushes.find? (fun f => f.table == table) with
    | some f => ch.flushEnd f
    | none => ch))

/-- AGING_SWEEP (R395): the active keeper sweeps a table at an instant whose SEC is a multiple of AGE_INTERVAL, once. -/
def execAgingSweep (c : Fin 4) (table : Nat) (s : State) : Host.Outcome State Fault Refusal :=
  .next (s.onLive c (fun ch =>
    let n := ch.getF pgTbl (TBL.AGE_INTERVAL_S table)
    let sec := ch.timeNs / 1000000000
    if ch.active.isSome && ch.tValid table && tblKind table == 1 && ch.tdef table TBL.TDEF_ATTR_AGE == 1 && n != 0 && sec % n == 0
        && decide (tget 0 ch.tbl.swept table ≠ sec + 1) then
      (ch.onTbl (fun w => { w with swept := tput 0 w.swept table (sec + 1) })).ageSweep table
    else ch))

/-! Learning (R391–R393). -/

/-- LEARN.STAT (R413). -/
def Chan.learnStat (ch : Chan) : Nat :=
  (ch.tbl.filter.filter (fun e => e.contested)).length * 2 ^ 16 + ch.tbl.filter.length

/-- A candidate of the learn filter (R392). -/
structure Cand where
  table : Nat
  key : List Byte
  port : Nat
  time : Nat
  move : Bool
  /-- the stored system port of a MOVE -/
  stored : Nat
  part : Nat

/-- A candidate sends a LEARN or MOVE notification. -/
def Chan.candNotify (ch : Chan) (x : Cand) (flags : Nat) : Chan :=
  ch.sendLearn {
    time := x.time, typ := if x.move then 2 else 1, table := x.table, port := x.port,
    sys := ch.getF pgLearn (LEARN.PORT_MAP_SPORT x.port), sys2 := if x.move then x.stored else 0, part := x.part, key := x.key, flags := flags }

/-- A candidate enters the filter as SEEN; a full filter gives up its oldest SEEN entry, and one that is all CONTESTED lets the
notification pass unfiltered (R392). -/
def Chan.filterAdd (ch : Chan) (x : Cand) : Chan :=
  let e : LearnEnt := { table := x.table, key := x.key, port := x.port, time := x.time, since := ch.ns }
  let l := ch.tbl.filter
  if l.length < 8192 then (ch.onTbl (fun w => { w with filter := l ++ [e] })).candNotify x 0
  else match l.find? (fun y => !y.contested) with
    | some old => (ch.onTbl (fun w => { w with filter := l.erase old ++ [e] })).candNotify x 0
    | none => ((ch.inc pgLearn LEARN.BYPASS_CNT).raise pgLearn 10).candNotify x 2

/-- A source lookup offers a candidate (R391, R392). -/
def Chan.candidate (ch : Chan) (x : Cand) : Chan :=
  if ch.getB pgLearn LEARN.CFG_EN = false then ch
  else match ch.tbl.filter.find? (fun e => e.table == x.table && e.key == x.key) with
    | none => ch.filterAdd x
    | some e =>
      if e.contested then ch.inc pgLearn LEARN.SUPPRESS_CNT
      else if ch.ns ≤ e.since + ch.getF pgLearn LEARN.CFG_WINDOW * 1000 then
        if e.port = x.port then ch.inc pgLearn LEARN.SUPPRESS_CNT
        else
          let y := { e with contested := true }
          let c1 := ch.onTbl (fun w => { w with filter := w.filter.map (fun z => if z = e then y else z) })
          let s1 := ch.getF pgLearn (LEARN.PORT_MAP_SPORT e.port)
          let s2 := ch.getF pgLearn (LEARN.PORT_MAP_SPORT x.port)
          let c2 := (c1.raise pgLearn 8).journalSec pgLearn clsContained 1 0 (x.table + s1 * 2 ^ 16 + s2 * 2 ^ 32) (2 ^ 64)
          let c3 := if c2.tbl.filter.length = 8192 ∧ c2.tbl.filter.all (fun z => z.contested) then c2.raise pgLearn 10 else c2
          c3.sendLearn {
            time := e.time, time2 := x.time, typ := 3, table := x.table, port := e.port, port2 := x.port, sys := s1,
            sys2 := s2, part := x.part, key := x.key }
      else
        ((ch.onTbl (fun w => { w with filter := w.filter.erase e ++ [{ e with port := x.port, time := x.time, since := ch.ns }] })).candNotify x 0)

/-- A key is CONTESTED: lookups through the primary ID miss (R393). -/
def Chan.isContested (ch : Chan) (t : Nat) (key : List Byte) : Bool :=
  ch.tbl.filter.any (fun e => e.contested && e.table == t && e.key == key)

/-- A write of LEARN.CFG (R393, R413): FLUSH removes the CONTESTED entries. -/
def learnCfgHook : Hook := fun w ch =>
  let c1 := ch.put w.p w.off w.merged
  if bit w.v 30 then c1.onTbl (fun x => { x with filter := x.filter.filter (fun e => !e.contested) }) else c1

/-- LEARN_FLUSH (R393): a write of LEARN.CFG with FLUSH and the configuration in force. -/
def execLearnFlush (r : Req) (c : Fin 4) (s : State) : Host.Outcome State Fault Refusal :=
  .next (s.chanWrite learnCfgHook true r c pgLearn LEARN.CFG (setFld ((s.chan c).get pgLearn LEARN.CFG) 30 30 1))

/-! Scrubs and divergence (R396–R400). -/

/-- TBL_SCRUB (R396): the scrubber, or any read, meets an error in a line of a replica: a single-bit one is corrected. -/
def execTblScrub (c : Fin 4) (table rep line : Nat) (uncorr : Bool) (syn word : Nat) (s : State) : Host.Outcome State Fault Refusal :=
  .next (s.onLive c (fun ch =>
    if ch.tValid table && tblKind table != 3 && ch.tdef table TBL.TDEF_CFG_PROT != 1 && decide (rep < ch.tReps table)
        && ch.lineSeg table rep line != 0 then
      if uncorr then ch.tblUncorr table rep line syn word else (ch.inc pgTbl TBL.CORR_CNT).corrected pgTbl
    else ch))

/-- TERN_SCRUB (R400): an error in the entry at an index of the lookup order is corrected, or disables the entry; with a shadow
and AUTO_REPAIR the keeper puts it back. -/
def execTernScrub (c : Fin 4) (table index : Nat) (uncorr : Bool) (syn : Nat) (s : State) : Host.Outcome State Fault Refusal :=
  .next (s.onLive c (fun ch =>
    let l := ch.ternAll table
    match l[index]? with
    | none => ch
    | some e =>
      if uncorr then
        let fix := ch.active.isSome && tget (0, 0) ch.tbl.shadow table != (0, 0) && ch.tdef table TBL.TDEF_CFG_AUTO_REPAIR == 1
        let c1 := ((ch.inc pgTern TERN.UNCORR_CNT).capture pgTern clsContained 8 (index + table * 2 ^ 32) syn 0).raise pgTern 8
        let c2 := (c1.ternPut table (l.set index { e with bad := !fix })).notify table 6 index 0 []
        c2.journal pgTern clsContained 1 (table + index * 2 ^ 32)
      else (ch.inc pgTern TERN.CORR_CNT).corrected pgTern))

/-- Rewrite one entry of a table from its authority's record (R398, R399): answers the channel and whether anything changed. -/
def Chan.applyRecord (ch : Chan) (t : Nat) (whr : Nat) (bs : List Byte) : Chan × Bool :=
  let kind := tblKind t
  if kind = 1 then
    let hdr := leAt bs 0 2
    let m := hdr % 4
    let v : EmVer := {
      key := sliceBytes bs 2 (ch.tKeyLen t), res := sliceBytes bs (2 + ch.tKeyLen t) (ch.tResLen t), mask := m,
      static := nbit hdr 2 }
    if m = 0 then (ch, false)
    else
      let c1 := ch.each ((ch.emFind t v.key).filter (fun e => decide (Nat.land e.2.mask m ≠ 0))) (fun c e => c.emDrop t m e.1 e.2)
      match (ch.emFind t v.key).find? (fun e => e.2.mask == m) with
      | some e => (ch.emPut t e.1 { v with age := e.2.age, hit := e.2.hit }, decide (e.2.res ≠ v.res ∨ e.2.static ≠ v.static))
      | none => ((c1.emPlace t v).getD c1, true)
  else if kind = 2 then
    let bits := ch.lpmBits t
    let p : LpmPfx := {
      vrf := beAt bs 0 2, addr := pfxOf bits (beAt bs 2 16 / 2 ^ (128 - bits)) (leAt bs 18 1), len := leAt bs 18 1,
      mask := leAt bs 19 1 % 4, res := beAt bs 20 4 % 2 ^ 30 }
    let l := ch.lpmAll t
    if p.mask = 0 ∨ l.contains p = true then (ch, false)
    else
      let rest := l.filter (fun q => !(q.same p))
      let left := ((l.filter (fun q => q.same p)).map (fun q => { q with mask := Nat.land q.mask (3 - p.mask) })).filter (fun q => q.mask != 0)
      ((ch.lpmCommit t (lpmInsert p (left.foldl (fun x q => lpmInsert q x) rest))).1, true)
  else if kind = 3 then
    let n := ch.tKeyLen t
    let x : TernEnt := {
      key := beAt bs 0 n, tmask := beAt bs 40 n, prio := leAt bs 80 2, mask := leAt bs 82 1 % 4, res := beAt bs 88 8,
      ord := ch.tbl.stamp }
    let l := ch.ternAll t
    if x.mask = 0 then (ch, false)
    else if l.any (fun q => q.same x && q.mask == x.mask) then
      (ch.ternPut t (l.map (fun q => if q.same x && q.mask == x.mask then { q with res := x.res, bad := false } else q)),
        l.any (fun q => q.same x && q.mask == x.mask && (q.res != x.res || q.bad)))
    else
      let cut := (l.map (fun q => if q.same x then { q with mask := Nat.land q.mask (3 - x.mask) } else q)).filter (fun q => q.mask != 0)
      if ch.ternCap t ≤ cut.length then (ch, false)
      else ((ch.ternPut t (ternInsert x cut)).onTbl (fun w => { w with stamp := w.stamp + 1 }), true)
  else if ch.tCount t ≤ whr then (ch, false)
  else
    let v := beAt bs 0 (ch.tWidth t / 8)
    ((ch.dirPut t whr v).cleanLine t (ch.dirLine t whr), decide (ch.dirGet t whr ≠ v))

/-- DIVERGENCE_CONFIRM (R399): a difference stands CMP_SETTLE later, between the table and its shadow, or between replicas. `rec`
is what the authority holds at `whr`. -/
def execDivergenceConfirm (c : Fin 4) (table whr : Nat) (replica : Bool) (rec_ : List Byte) (s : State) : Host.Outcome State Fault Refusal :=
  .next (s.onLive c (fun ch =>
    if ch.active.isSome && ch.tValid table &&
        (if replica then decide (1 < ch.tReps table) else tget (0, 0) ch.tbl.shadow table != (0, 0)) then
      let c1 := ((ch.inc pgTbl TBL.DIVERGE_CNT).raise pgTbl 10).journal pgTbl clsContained 2 (table + b2n replica * 2 ^ 8 + whr % 2 ^ 32 * 2 ^ 32)
      let c2 := c1.notify table 3 whr 0 rec_
      if ch.tdef table TBL.TDEF_CFG_AUTO_REPAIR = 1 then
        let c3 := if replica then c2 else (c2.applyRecord table whr rec_).1
        c3.journal pgTbl clsCorrected 3 (table + 2 ^ 32)
      else c2
    else ch))

/-! Banks (R402, R403, R411). -/

/-- BANK_ROTATE (R402, R411). -/
def Chan.svcBankRotate (ch : Chan) (k tag : Nat) : Chan :=
  let b := ch.svcArg k 0
  ch.svcRun k tag false (decide (68 ≤ b)) (ch.bankState b != 1 || ch.spareBank.isNone) false false (fun c1 =>
    match c1.spareBank with
    | some d => (c1.startRotate b d false).svcOk k tag []
    | none => c1.svcDone k tag 4)

/-- BANK_ROTATE: the host's command. -/
def execBankRotate (r : Req) (c : Fin 4) (k : Fin 2) (tag : Nat) (s : State) :
    Host.Outcome State Fault Refusal :=
  .next (s.service r c k tag 0x60 (fun ch => ch.svcBankRotate k.val tag))

/-- BANK_ROTATE_DONE (R402): the segment map names the new bank, and the source is OUT, or RETIRED. -/
def execBankRotateDone (c : Fin 4) (bank : Nat) (s : State) : Host.Outcome State Fault Refusal :=
  .next (s.onLive c (fun ch =>
    match ch.tbl.rots.find? (fun x => x.src == bank), ch.active with
    | some x, some _ =>
      let move := fun (n : Nat) => if n != 0 && (n - 1) / 32 == x.src then x.dst * 32 + (n - 1) % 32 + 1 else n
      let c1 := ch.onTbl (fun w => { w with segs := w.segs.map (fun e => (e.1, e.2.map move)), rots := w.rots.filter (fun y => y.src != bank) })
      let c2 := (c1.setBank x.src (if x.retire then 5 else 4)).setBank x.dst 1
      let c3 := c2.journal pgTbl clsNone 4 (x.src + x.dst * 2 ^ 8)
      if x.retire then c3.journal pgTbl clsDegraded 5 (x.src + min 255 (ch.bankUes x.src) * 2 ^ 8) else c3
    | _, _ => ch))

/-- BANK_RESTORE (R402, R411). -/
def Chan.svcBankRestore (ch : Chan) (k tag : Nat) : Chan :=
  let b := ch.svcArg k 0
  ch.svcRun k tag false (decide (68 ≤ b)) (ch.bankState b != 4) false false (fun c1 => (c1.setBank b 0).svcOk k tag [])

/-- BANK_RESTORE: the host's command. -/
def execBankRestore (r : Req) (c : Fin 4) (k : Fin 2) (tag : Nat) (s : State) :
    Host.Outcome State Fault Refusal :=
  .next (s.service r c k tag 0x61 (fun ch => ch.svcBankRestore k.val tag))

/-- BANK_RETIRE (R402, R411). -/
def Chan.svcBankRetire (ch : Chan) (k tag : Nat) : Chan :=
  let b := ch.svcArg k 0
  ch.svcRun k tag false (decide (68 ≤ b)) (ch.bankState b != 4) false false (fun c1 => (c1.setBank b 5).svcOk k tag [])

/-- BANK_RETIRE: the host's command. -/
def execBankRetire (r : Req) (c : Fin 4) (k : Fin 2) (tag : Nat) (s : State) :
    Host.Outcome State Fault Refusal :=
  .next (s.service r c k tag 0x62 (fun ch => ch.svcBankRetire k.val tag))

/-- SHADOW_SET (R398, R411). -/
def Chan.svcShadowSet (ch : Chan) (k tag : Nat) : Chan :=
  let t := ch.svcArg k 2 % 256
  ch.svcRun k tag false (!(ch.tValid t) || ch.tdef t TBL.TDEF_CFG_PROT == 0) false false false (fun c1 =>
    (c1.onTbl (fun w => { w with
      shadow := tput (0, 0) w.shadow t
        (c1.svcArg k 0 + c1.svcArg k 1 * 2 ^ 32, c1.svcArg k 3) })).svcOk k tag [])

/-- SHADOW_SET: the host's command. -/
def execShadowSet (r : Req) (c : Fin 4) (k : Fin 2) (tag : Nat) (s : State) :
    Host.Outcome State Fault Refusal :=
  .next (s.service r c k tag 0x63 (fun ch => ch.svcShadowSet k.val tag))

/-- COMPARE (R399, R411): the pass ends with `found` divergences, each confirmed by its own command. -/
def Chan.svcCompare (ch : Chan) (k tag found : Nat) (dmaErr : Bool) : Chan :=
  let t := ch.svcArg k 0 % 256
  ch.svcRun k tag false (!(ch.tValid t)) false dmaErr false (fun c1 => c1.svcOk k tag [found])

/-- COMPARE: the host's command. -/
def execCompare (r : Req) (c : Fin 4) (k : Fin 2) (tag found : Nat) (dmaErr : Bool) (s : State) :
    Host.Outcome State Fault Refusal :=
  .next (s.service r c k tag 0x64 (fun ch => ch.svcCompare k.val tag found (dmaErr || !(s.hostReach c))))

/-- What REPAIR finds in the POISONED lines of an EM or a direct table without a shadow (R399): the slots or indexes whose words some replica
gives, which are put back, and with their lines those that none gives. -/
def Chan.repairFinds (ch : Chan) (t : Nat) : List Nat × List (Nat × Nat) :=
  let places := fun (l : Nat) => if tblKind t = 1 then ch.lineSlots t l
    else ((List.range (512 / ch.tWidth t)).map (fun n => 512 / ch.tWidth t * l + n)).filter (fun i => decide (i < ch.tCount t))
  let words := fun (i : Nat) => if tblKind t = 1 then ch.emWords t i else ch.dirWords t i
  let all := (ch.badLines t).flatMap (fun l => (places l).map (fun i => (i, l)))
  let dead := all.filter (fun e => ch.wordsLost t (words e.1) && (words e.1).head?.map Prod.fst == some e.2)
  ((((all.filter (fun e => !(ch.wordsLost t (words e.1)))).map Prod.fst).eraseDups).filter (fun i =>
    tblKind t != 1 || ch.tbl.em.any (fun e => e.1 == emKey t i)), dead)

/-- What REPAIR finds in the POISONED lines of an LPM table without a shadow: which prefixes can be rebuilt is a free value (log 57). -/
def Chan.repairLpm (ch : Chan) (t : Nat) : Chan × Nat × Nat :=
  let dead := (ch.badLines t).filter (fun l => ch.lineLost t l)
  if dead.isEmpty then (ch, (ch.badLines t).length, 0)
  else
    let r := (ch.lpmAll t).foldl (fun (x : Chan × List LpmPfx) p =>
      (x.1.takeFree, if x.1.freeVal 1 = 1 then x.2 ++ [p] else x.2)) (ch, [])
    let c1 := (r.1.lpmPut t r.2).each dead (fun c l => c.notify t 2 l 0 [])
    (c1, r.2.length, dead.length)

/-- REPAIR of a table (R399): from its shadow's records `recs`, from its good replicas, or by clearing its POISONED lines and
reporting what they held. Answers the entries rewritten and lost. -/
def Chan.repairTable (ch : Chan) (t : Nat) (recs : List (List Byte)) : Chan × Nat × Nat :=
  let clear := fun (c : Chan) => c.onTbl (fun w => { w with poison := tclear w.poison (t * 2 ^ 34) ((t + 1) * 2 ^ 34) })
  if tget (0, 0) ch.tbl.shadow t ≠ (0, 0) then
    let keep := fun (bs : List Byte) => recs.contains bs
    let c1 := if tblKind t = 1 then
        (ch.emAll t).foldl (fun c e => if keep ({ e.2 with age := 0 }.record (ch.tWidth t)) then c else c.emPut t e.1 {}) ch
      else if tblKind t = 2 then ch.lpmPut t ((ch.lpmAll t).filter (fun p => keep (p.record (ch.lpmBits t))))
      else if tblKind t = 3 then ch.ternPut t ((ch.ternAll t).filter (fun x => keep (x.record (ch.tKeyLen t))))
      else ch
    let r := ((List.range recs.length).zip recs).foldl (fun (x : Chan × Nat) e =>
      let y := x.1.applyRecord t e.1 e.2
      (y.1, x.2 + b2n y.2)) (clear c1, 0)
    (r.1, r.2, 0)
  else if tblKind t = 2 then
    let r := ch.repairLpm t
    (clear r.1, r.2)
  else
    let f := ch.repairFinds t
    let c1 := ch.each f.2 (fun c e =>
      ((if tblKind t = 1 then c.emPut t e.1 {} else c.dirPut t e.1 0)).notify t 2 e.2 0 [])
    (clear c1, f.1.length, f.2.length)

/-- REPAIR (R399, R411); `recs` are the shadow's records as the keeper reads them from host memory. -/
def Chan.svcRepair (ch : Chan) (k tag : Nat) (recs : List (List Byte)) (dmaErr : Bool) : Chan :=
  let t := ch.svcArg k 0 % 256
  ch.svcRun k tag false (!(ch.tValid t)) false dmaErr false (fun c1 =>
    let x := c1.repairTable t recs
    let c2 := if x.2.1 = 0 then x.1 else x.1.journal pgTbl clsCorrected 3 (t + x.2.1 % 2 ^ 32 * 2 ^ 32)
    c2.svcOk k tag [x.2.1, x.2.2])

/-- REPAIR: the host's command. -/
def execRepair (r : Req) (c : Fin 4) (k : Fin 2) (tag : Nat) (recs : List (List Byte)) (dmaErr : Bool) (s : State) :
    Host.Outcome State Fault Refusal :=
  .next (s.service r c k tag 0x65 (fun ch => ch.svcRepair k.val tag recs (dmaErr || !(s.hostReach c))))

/-- The table that owns a segment of a bank, plus one; 0 for none. -/
def Chan.segOwner (ch : Chan) (b k : Nat) : Option Nat :=
  (ch.tbl.segs.find? (fun e => e.2.contains (b * 32 + k + 1))).map Prod.fst

/-- BANK_STATUS (R411). RESP1 gives each segment's owner 4 bits: its low ID bits, or 0 where no table owns it. -/
def Chan.svcBankStatus (ch : Chan) (k tag : Nat) : Chan :=
  let b := ch.svcArg k 0
  ch.svcRun k tag false (decide (68 ≤ b)) false false false (fun c1 =>
    c1.svcOk k tag [c1.bankStat b,
      (List.range 8).foldl (fun n j => n + (match c1.segOwner b j with | some t => t % 16 | none => 0) * 16 ^ j) 0])

/-- BANK_STATUS: the host's command. -/
def execBankStatus (r : Req) (c : Fin 4) (k : Fin 2) (tag : Nat) (s : State) :
    Host.Outcome State Fault Refusal :=
  .next (s.service r c k tag 0x66 (fun ch => ch.svcBankStatus k.val tag))

/-! Register writes of these pages. -/

/-- A write of a definition word (R370, R409): nothing of a VALID table changes. -/
def tdefHook (t : Nat) : Hook := fun w ch => if ch.tValid t then ch else ch.put w.p w.off w.merged


/-- A write of TERN.BLOCK b (R413): refused with FAULT while the block's table, or the table written, is VALID. -/
def ternBlockHook (b : Nat) : Hook := fun w ch =>
  if (ch.getB pgTern (TERN.BLOCK_EN b) && ch.tValid (ch.getF pgTern (TERN.BLOCK_TABLE b))) || (bit w.v 31 && ch.tValid (fld w.v 7 0))
  then ch.raise pgTern 0
  else ch.put w.p w.off w.merged

/-- SOFT_RESET of TBL (R407): running commands end with BAD_TABLE; tables, segment map and banks stay. -/
def Chan.tblReset (ch : Chan) : Chan :=
  ch.onTbl (fun w => { w with flushes := [] })

/-- SOFT_RESET of LEARN empties the filter (R413). -/
def Chan.learnReset (ch : Chan) : Chan := ch.onTbl (fun w => { w with filter := [] })

/-- What reads of the TBL page show where it is not the stored word. -/
def Chan.tblView (ch : Chan) (off : Nat) : Option Nat :=
  let o := if off = TBL.KFREE_SEG ∨ off = TBL.KOVF_FREE then off - 0x400 else off
  if o = TBL.FREE_SEG then some ch.freeSegs.length
  else if o = TBL.OVF_FREE then some ch.ovfFree
  else if 0x1000 ≤ o ∧ o < 0x1110 then some (ch.bankStat ((o - 0x1000) / 4))
  else if 0x4000 ≤ o ∧ o < 0x6000 then
    let t := (o - 0x4000) / 32
    if o % 32 = 0x14 then some (ch.tCapacity t)
    else if o % 32 = 0x18 then some (ch.tEntries t)
    else if o % 32 = 0x1C then some (ch.tStat t)
    else none
  else none

end Sys2Proof.Machine
end

