-- ==== Sys2Proof/Machine/StrnOps.lean ====
section
/-! DEFINITION. Shared operations of the Strainer: stage configuration (R357–R359), the source space (R333), values and lookups of
a stage (R334–R338, R348, R349), policers and counters (R343, R344), samplers (R354, R355), and punt records (R356). -/

namespace Sys2Proof.Machine

/-! Bit fields (R333). -/

/-- The `w`-bit field at bit address `a` of bytes; bits beyond the end read 0. -/
def bitsAt (bs : List Byte) (a w : Nat) : Nat :=
  let n := (a + w + 7) / 8
  beNat (sliceBytes bs 0 n) / 2 ^ (8 * n - a - w) % 2 ^ w

/-- The bytes with the `w`-bit field at bit address `a` replaced; the field lies within them. -/
def putBits (bs : List Byte) (a w v : Nat) : List Byte :=
  let n := 8 * bs.length
  if n < a + w then bs
  else
    let x := beNat bs
    let lo := n - a - w
    beBytes bs.length (x % 2 ^ lo + (v % 2 ^ w) * 2 ^ lo + x / 2 ^ (lo + w) * 2 ^ (lo + w))

/-- A field of a packet's source space. -/
def InPipe.bits (x : InPipe) (a w : Nat) : Nat := bitsAt x.src a w

/-- The packet with a field of its source space written. -/
def InPipe.setBits (x : InPipe) (a w v : Nat) : InPipe := { x with src := putBits x.src a w v }

/-- COLOUR, TC, DEST_KIND, DROP_REASON, DEST, PARTITION of the source space. -/
def InPipe.colour (x : InPipe) : Nat := x.bits 640 2
def InPipe.tc (x : InPipe) : Nat := x.bits 642 3
def InPipe.fault (x : InPipe) : Bool := x.bits 648 1 == 1
def InPipe.destKind (x : InPipe) : Nat := x.bits 662 2
def InPipe.dropReason (x : InPipe) : Nat := x.bits 664 8
def InPipe.dest (x : InPipe) : Nat := x.bits 672 16

/-- Set DROP_REASON when it is 0x00 (R340). -/
def InPipe.drop (x : InPipe) (r : Nat) : InPipe := if x.dropReason = 0 then x.setBits 664 8 r else x

/-- Reasons of R342. -/
abbrev rsnPtp : Nat := 0x01
abbrev rsnParseFault : Nat := 0xF0
abbrev rsnNoDest : Nat := 0xF1
abbrev rsnSample : Nat := 0xF2
abbrev rsnTableEcc : Nat := 0xF3
abbrev rsnPolicer : Nat := 0xF4
abbrev rsnReplayFail : Nat := 0xF5
abbrev rsnEditLimit : Nat := 0xF6
abbrev rsnConfigEcc : Nat := 0xF7
abbrev rsnDisabled : Nat := 0xF8

/-- The source space of a packet that enters a pipeline (R333). -/
def srcOf (x : Parsed) : List Byte :=
  let k := x.pkt
  let carry := x.carry.toList.flatMap (fun l => beBytes 8 l.toNat)
  let fault := b2n (decide (resultDisp x.result = 2))
  let col := if k.egress then min 2 (nbits (k.ctxByte 8) 7 6) else 0
  let tc := if k.egress then nbits (k.ctxByte 8) 5 3 else 0
  carry ++ beBytes 8 x.result ++ beBytes 8 k.t64
    ++ beBytes 1 (col * 64 + tc * 8 + k.parity * 4 + b2n k.egress * 2 + b2n k.injected)
    ++ beBytes 1 (fault * 128 + k.port % 64) ++ beBytes 1 (k.part * 8) ++ beBytes 1 0 ++ beBytes 4 0
    ++ beBytes 4 (if k.egress then k.flowHash else 0)
    ++ beBytes 2 (if k.egress then k.ctxAccount else k.account) ++ beBytes 2 0
    ++ (if k.egress then sliceBytes k.ctx 32 32 else beBytes 32 0)

/-! Stage configuration (R357–R359). -/

/-- Bytes of a stage record. -/
def stageLen : Nat := 0x1100

/-- `n` bytes at an offset of a stage's record. -/
def Chan.stageBytes (ch : Chan) (pipe bank stage off n : Nat) : List Byte :=
  (List.range n).map (fun i => tget 0 (ch.bank bank).strn ((pipe * 12 + stage) * stageLen + off + i))

/-- A little-endian word of a stage's record. -/
def Chan.stageWord (ch : Chan) (pipe bank stage off n : Nat) : Nat := leNat (ch.stageBytes pipe bank stage off n)

/-- Key of a configuration word among the poisoned ones. -/
def cfgKey (pipe bank off : Nat) : Nat := (pipe * 2 + bank) * 65536 + off / 8 * 8

/-- Is a configuration word poisoned? -/
def Chan.cfgBad (ch : Chan) (pipe bank stage off : Nat) : Bool := tget false ch.strn.poison (cfgKey pipe bank (stage * stageLen + off))

/-- The page of a pipeline: ingress 0–5, egress 6–11. -/
def pipePg (pipe : Nat) : Pg := pgStrn pipe

/-- The packets in a pipeline, oldest first. -/
def Chan.pipe (ch : Chan) (i : Nat) : List InPipe := tget [] ch.strn.pipes i

/-- Replace the packets in a pipeline. -/
def Chan.putPipe (ch : Chan) (i : Nat) (l : List InPipe) : Chan :=
  { ch with strn := { ch.strn with pipes := tput [] ch.strn.pipes i l } }

/-- A configuration word fails its ECC (R359). -/
def Chan.cfgPoison (ch : Chan) (pipe bank stage off : Nat) : Chan :=
  let o := stage * stageLen + off / 8 * 8
  let c1 := { ch with strn := { ch.strn with poison := tput false ch.strn.poison (cfgKey pipe bank o) true } }
  ((c1.capture (pipePg pipe) clsContained 13 (bank * 0x10000 + o) 0 stage).raise (pipePg pipe) 13).journalSec (pipePg pipe)
    clsContained 3 0 (bank + stage * 2 ^ 8 + o * 2 ^ 32) 0

/-- The active keeper rewrites a poisoned word from another pipeline of its direction that holds the same word (R359). -/
def Chan.cfgRepair (ch : Chan) (key : Nat) : Chan :=
  let pb := key / 65536
  let pipe := pb / 2
  let bank := pb % 2
  let o := key % 65536
  let word := fun (i : Nat) => ch.stageWord i bank 0 o 8
  let other := (List.range 6).map (fun i => pipe / 6 * 6 + i) |>.find? (fun i =>
    i != pipe && word i == word pipe && !(tget false ch.strn.poison (cfgKey i bank o)))
  match other with
  | some _ => ({ ch with strn := { ch.strn with poison := tput false ch.strn.poison key false } }).journalSec (pipePg pipe) clsCorrected 3 0
      (bank + o / stageLen * 2 ^ 8 + o * 2 ^ 32) 0
  | none => ch

/-- Configuration repair of a keeper cycle (R359). -/
def Chan.cfgRepairAll (ch : Chan) : Chan := ch.each (ch.strn.poison.map Prod.fst) Chan.cfgRepair

/-! Lookups (R335, R337, R348, R396, R397). -/

/-- How a lookup of a stage ends. -/
inductive Found where
  | hit (res : List Byte)
  | miss
  /-- an uncorrectable word on every replica -/
  | ecc
deriving DecidableEq, Repr

/-- The table an EM stage's ID names: the table, or the table whose alias the ID is (R391). -/
def Chan.emTable (ch : Chan) (id : Nat) : Nat × Bool :=
  if ch.tValid id then (id, false)
  else match firstBelow 64 (fun u => ch.tValid u && ch.tdef u TBL.TDEF_ATTR_LEARN == 1 && ch.tdef u TBL.TDEF_ATTR_LEARN_ALIAS == id) with
    | some u => (u, true)
    | none => (id, false)

/-- The hardware attribute of a stage's events (R365). -/
def stageAttr (stage : Nat) : Attr := { priv := some 0, agent := some stage }

/-- Lines that a pipeline must read: retries on other replicas are replays (R397). Answers the channel, and whether some line
cannot be given. -/
def Chan.readLines (ch : Chan) (pipe stage t : Nat) (lines : List Nat) : Chan × Bool :=
  let rep := pipe % ch.tReps t
  let retry := (lines.filter (fun l => ch.poisoned t rep l)).length
  let c1 := if retry = 0 then ch else (ch.inc64 (pipePg pipe) STRN.REPLAYS retry).tally (pipePg pipe) 0x12 (stageAttr stage) retry
  (c1, lines.any (fun l => ch.lineLost t l))

/-- A learn candidate of a source lookup (R391). -/
def Chan.sourceLookup (ch : Chan) (x : InPipe) (t : Nat) (key : List Byte) (v : Option EmVer) : Chan :=
  let p := x.pkt.port
  let cand : Cand := { table := t, key := key, port := p, time := ch.t64, move := v.isSome, stored := 0, part := x.pkt.part }
  match v with
  | none => ch.candidate cand
  | some e =>
    let stored := portField (ch.tdef t TBL.TDEF_ATTR_PORT_OFF) e.res
    if stored = ch.getF pgLearn (LEARN.PORT_MAP_SPORT p) then ch
    else if e.static then (if ch.getB pgLearn LEARN.CFG_EN then ch.inc pgLearn LEARN.STATIC_MOVE else ch)
    else ch.candidate { cand with stored := stored }

/-- The lookup of a stage. `lpmBad` says that an LPM lookup reads a line that is POISONED on every replica. -/
def Chan.stageLookup (ch : Chan) (pipe stage : Nat) (x : InPipe) (kind id klen : Nat) (key : List Byte) (lpmBad : Bool) : Chan × Found :=
  let par := x.pkt.parity
  let at' : Attr := { priv := some 0, agent := some pipe }
  let c0 := ch.tally pgTbl 0x10 at'
  let e := if kind = 1 then ch.emTable id else (id, false)
  let t := e.1
  if tblKind t ≠ kind ∨ ch.tValid t = false ∨ ch.tKeyLen t ≠ klen then (c0, .miss)
  else
    let hit := fun (c : Chan) (r : List Byte) => (c.tally pgTbl 0x11 at', Found.hit r)
    if kind = 1 then
      let b := ch.emBuckets t key
      let r := c0.readLines pipe stage t (ch.emLines t b.1 ++ ch.emLines t b.2)
      if r.2 then (r.1, .ecc)
      else
        let v := (ch.emFind t key).find? (fun y => nbit y.2.mask par)
        let c1 := if e.2 && decide (pipe < 6) && !x.pkt.injected then r.1.sourceLookup x t key (v.map Prod.snd) else r.1
        if !e.2 && ch.isContested t key then (c1, .miss)
        else match v with
          | some y => hit (c1.emPut t y.1 { y.2 with hit := true }) y.2.res
          | none => (c1, .miss)
    else if kind = 2 then
      let addr := beAt key 2 (klen - 2)
      if lpmBad && ch.hasPoison t then (c0, .ecc)
      else match longest ((ch.lpmAll t).filter (fun p => nbit p.mask par && p.covers (ch.lpmBits t) (beAt key 0 2) addr)) with
        | some p => hit c0 (beBytes 4 p.res)
        | none => (c0, .miss)
    else if kind = 3 then
      match ternMatch (beNat key) par (ch.ternAll t) with
      | some y => hit c0 (beBytes 8 y.res)
      | none => (c0, .miss)
    else
      let i := beNat key
      let idx : Option Nat :=
        if ch.tdef t TBL.TDEF_ATTR_SELECT = 1 then
          let g := ch.group t i
          if ch.tLo t < i ∨ bit g 31 = false then none
          else some (fld g 30 9 + x.bits 704 32 * (fld g 8 0 + 1) / 2 ^ 32)
        else some i
      match idx with
      | none => (c0, .miss)
      | some n =>
        if ch.tCount t ≤ n ∨ ch.lineHole t (ch.dirLine t n) = true then (c0, .miss)
        else
          let r := c0.readLines pipe stage t [ch.dirLine t n]
          if r.2 then (r.1, .ecc) else hit r.1 (beBytes (ch.tWidth t / 8) (ch.dirGet t n))

/-! Policers and counters (R343, R344). -/

/-- A meter's buckets and times, read from its entry (R344). -/
structure Meter where
  two : Bool
  last : Nat
  cir : Nat
  cbs : Nat
  pir : Nat
  ebs : Nat
  tokC : Nat
  tokE : Nat
  /-- millionths of a byte owed at `last` -/
  subC : Nat
  subE : Int
deriving DecidableEq, Repr

/-- Read meter `i` of a table, whose entry is `v`. -/
def Chan.meterOf (ch : Chan) (t i v : Nat) : Meter :=
  let b := beBytes 32 v
  let sub := tget (0, 0) ch.tbl.meterSub (t * 2 ^ 32 + i)
  {
    subC := sub.1, subE := sub.2, two := nbit (leAt b 0 1) 7, last := leAt b 28 4 + leAt b 2 2 * 2 ^ 32, cir := leAt b 4 4, cbs := leAt b 8 4, pir := leAt b 12 4,
    ebs := leAt b 16 4, tokC := leAt b 20 4, tokE := leAt b 24 4 }

/-- Write a meter entry. -/
def Meter.entry (m : Meter) : Nat :=
  beNat (leBytes 1 (b2n m.two * 128) ++ leBytes 1 0 ++ leBytes 2 (m.last / 2 ^ 32) ++ leBytes 4 m.cir ++ leBytes 4 m.cbs ++ leBytes 4 m.pir
    ++ leBytes 4 m.ebs ++ leBytes 4 m.tokC ++ leBytes 4 m.tokE ++ leBytes 4 m.last)

/-- Write a meter back. -/
def Chan.meterPut (ch : Chan) (t i : Nat) (m : Meter) : Chan :=
  (ch.dirPut t i m.entry).onTbl (fun w => { w with meterSub := tput (0, 0) w.meterSub (t * 2 ^ 32 + i) (m.subC, m.subE) })

/-- Refill by the time elapsed on COSY.LOCAL: whole bytes, and LAST moves by the time that the committed bucket's bytes account for; what is
less than a byte, or than the ns of LAST, stays owed, so no fraction is lost (R343, log 55). -/
def Meter.refill (m : Meter) (now : Nat) : Meter :=
  let dt := (now + 2 ^ 48 - m.last) % 2 ^ 48
  let c := dt * m.cir + m.subC
  let p := ((dt * m.pir : Nat) : Int) + m.subE
  let left := if m.cir = 0 then 0 else c % 1000000 / m.cir
  let moved := { m with
    last := (m.last + (dt - left)) % 2 ^ 48, subC := if m.cir = 0 then 0 else c % 1000000 % m.cir
    tokC := min m.cbs (m.tokC + c / 1000000) }
  if m.two then
    { moved with tokE := min m.ebs (m.tokE + (p / 1000000).toNat), subE := p % 1000000 - ((left * m.pir : Nat) : Int) }
  else { moved with tokE := min m.ebs (m.tokE + (m.tokC + c / 1000000 - m.cbs)), subE := 0 }

/-- The output colour of RFC 2697 or RFC 2698 and the buckets after it (R343). -/
def Meter.police (m : Meter) (b inCol : Nat) : Meter × Nat :=
  if m.two then
    if inCol = 2 ∨ m.tokE < b then (m, 2)
    else if inCol = 1 ∨ m.tokC < b then ({ m with tokE := m.tokE - b }, 1)
    else ({ m with tokC := m.tokC - b, tokE := m.tokE - b }, 0)
  else if inCol = 0 ∧ b ≤ m.tokC then ({ m with tokC := m.tokC - b }, 0)
  else if inCol ≤ 1 ∧ b ≤ m.tokE then ({ m with tokE := m.tokE - b }, 1)
  else (m, 2)

/-- The entry of a COUNTER (`dt` 1) or METER (`dt` 2) table that an op names, where there is one: `none` is a miss, `some none` an
uncorrectable line. -/
def Chan.opEntry (ch : Chan) (t i dt : Nat) : Option (Option Nat) :=
  if tblKind t ≠ 4 ∨ ch.tValid t = false ∨ ch.tdef t TBL.TDEF_ATTR_DTYPE ≠ dt ∨ ch.tCount t ≤ i then none
  else if ch.lineHole t (ch.dirLine t i) then none
  else if ch.lineLost t (ch.dirLine t i) then some none
  else some (some (ch.dirGet t i))

/-- A table's policy on an uncorrectable word, as a COUNT or POLICE op meets it (R335, R396). -/
def Chan.opEcc (ch : Chan) (pipe t : Nat) (x : InPipe) : InPipe :=
  let y := x.setBits 661 1 1
  if ch.tdef t TBL.TDEF_CFG_POLICY = 2 then { y with punt := some (y.punt.getD (ch.getF (pipePg pipe) STRN.CFG_FAULT_RING, rsnTableEcc)) } else y

/-- An egress access is abandoned (R349). -/
def Chan.replayFail (ch : Chan) (pipe stage : Nat) : Chan :=
  ((ch.inc64 (pipePg pipe) STRN.REPLAY_FAIL).raise (pipePg pipe) 10).journalSec (pipePg pipe) clsContained 2 0 stage
    (2 ^ 32)

/-- Every meter of a table is updated with B = 0 (R343). -/
def Chan.metersIdle (ch : Chan) : Chan :=
  ch.each (ch.tbl.direct.filter (fun e => ch.tdef (e.1 / 2 ^ 32) TBL.TDEF_ATTR_DTYPE == 2)) (fun c e =>
    c.meterPut (e.1 / 2 ^ 32) (e.1 % 2 ^ 32) ((c.meterOf (e.1 / 2 ^ 32) (e.1 % 2 ^ 32) e.2).refill (c.ns % 2 ^ 48)))

/-! Copies. -/

/-- A sampler starts or stops (R355, R366): `by_` is 0 for the host and 1 for a timed action. -/
def Chan.samplerSet (ch : Chan) (n : Nat) (on : Bool) (by_ : Nat) : Chan :=
  let c1 := ch.putB pgSamp (SAMP.CFG_EN n) on
  let c2 := if on then { c1.putN pgSamp (SAMP.CAND n) 0 with strn := { c1.strn with cand := tput 0 c1.strn.cand n 0 } } else c1
  c2.journal pgSamp clsNone (if on then 1 else 2) (n + by_ * 2 ^ 8)

/-- A packet names a sampler that is running: it is a candidate. Answers whether it is sampled (R354). -/
def Chan.sampleCand (ch : Chan) (n : Nat) : Chan × Bool :=
  let c1 := ch.putN pgSamp (SAMP.CAND n) ((ch.nat pgSamp (SAMP.CAND n) + 1) % 2 ^ 32)
  let lim := ch.getF pgSamp (SAMP.N_N n)
  if ch.getB pgSamp (SAMP.CFG_MODE n) then
    (c1.takeFree, decide (c1.freeVal 24 * lim < 2 ^ 24))
  else
    let k := tget 0 c1.strn.cand n + 1
    let hit := decide (lim ≤ k)
    ({ c1 with strn := { c1.strn with cand := tput 0 c1.strn.cand n (if hit then 0 else k) } }, hit)

/-- A punt record (R356) with `cap` bytes of the packet. -/
def InPipe.record (x : InPipe) (egress : Bool) (reason sampler drop ring : Nat) (data : List Byte) (cap : Nat) : List Byte :=
  let k := x.pkt
  let d := data.take cap
  leBytes 8 (beNat (sliceBytes x.src 72 8)) ++ leBytes 2 k.len ++ leBytes 2 d.length
    ++ leBytes 1 (b2n egress * 128 + b2n k.injected * 64 + k.port % 64) ++ leBytes 1 reason
    ++ leBytes 1 (b2n (decide (drop ≠ 0)) * 128 + k.parity * 64 + sampler) ++ leBytes 1 drop ++ leBytes 2 x.dest
    ++ leBytes 1 (x.colour * 64 + x.tc * 8 + ring) ++ leBytes 1 k.part ++ leBytes 4 (x.bits 704 32) ++ leBytes 2 x.hits ++ leBytes 2 x.ran
    ++ leBytes 4 0 ++ d

/-- A packet punted to a ring of its partition, or to the keeper's PTP receive queue (R142, R342). -/
def Chan.puntTo (ch : Chan) (x : InPipe) (egress : Bool) (ring reason drop : Nat) (data : List Byte) : Chan :=
  if reason = rsnPtp then
    if 1024 ≤ ch.ptpRxq.length then (ch.inc pgCosy COSY.PTP_RXQ_DROP).raise pgCosy 17
    else { ch with ptpRxq := ch.ptpRxq ++ [{ x.pkt with bytes := data }] }
  else ch.sendRec x.pkt.part ring x.pkt.t64 (x.record egress reason 0 drop ring data data.length)

/-- TC is enabled on a port (R144, R171). -/
def Chan.tcOn (ch : Chan) (p : Nat) : Bool := nbit (tget ({} : PtpPort) ch.ctlNow.ports p).cfg 14

/-- The channel's time state drops PTP event messages of TC-enabled ports: FREE, ACQUIRING, HOLDOVER_EXPIRED (R144). -/
def Chan.tcDrops (ch : Chan) : Bool :=
  let st := ch.getF pgCosy COSY.STATUS_STATE
  st == 0 || st == 1 || st == 4

end Sys2Proof.Machine
end

