-- ==== Sys2Proof/Machine/Apusk.lean ====
section
/-! DEFINITION. Apusk images (R324–R328): the checks of STAGE over the image bytes, each answering the byte offset of the first
failing field, section entry or instruction, and what a passing image writes into a brew bank. -/

namespace Sys2Proof.Machine

/-- A check: `none` when it holds, else the byte offset of what fails. -/
def imgChk (ok : Bool) (off : Nat) : Option Nat := if ok then none else some off

/-- The first failure of a list of checks, in order. -/
def firstFail (l : List (Option Nat)) : Option Nat := l.findSome? id

/-! Instructions (R308, R312, R624). -/

/-- The bit spans of [115:0] that an opcode may use, `none` for a reserved opcode. RS2 is [107:104], RD [111:108], RS1 [115:112]. -/
def instrSpans (o : Nat) : Option (List (Nat × Nat)) :=
  if o = 0x00 ∨ o = 0x01 then some []
  else if o = 0x02 then some [(97, 96), (7, 0)]
  else if o = 0x08 then some [(111, 101), (98, 80)]
  else if o = 0x09 then some [(111, 101), (98, 80), (63, 0)]
  else if o = 0x0A then some [(115, 112), (98, 55)]
  else if o = 0x0B then some [(115, 112), (103, 100), (95, 72)]
  else if o = 0x0C then some [(103, 100), (95, 80), (31, 0)]
  else if o = 0x10 then some [(115, 104), (99, 96)]
  else if o = 0x11 then some [(115, 108), (99, 96), (31, 0)]
  else if o = 0x12 then some [(111, 108), (63, 0)]
  else if o = 0x14 then some [(115, 108), (103, 101), (99, 98)]
  else if o = 0x15 then some [(115, 104), (96, 96)]
  else if o = 0x18 then some [(115, 108), (96, 96), (15, 0)]
  else if o = 0x20 then some [(11, 0)]
  else if o = 0x21 then some [(115, 112), (11, 0)]
  else if o = 0x22 then some [(115, 4)]
  else if o = 0x28 ∨ o = 0x29 ∨ o = 0x2A then some [(115, 112), (96, 96), (9, 0)]
  else if o = 0x30 then some [(115, 112), (107, 104), (96, 96), (10, 8), (5, 0)]
  else if o = 0x31 then some [(115, 112), (96, 96), (5, 0)]
  else if o = 0x32 then some [(115, 108), (97, 96), (10, 8), (5, 0)]
  else if o = 0x38 then some [(6, 0)]
  else if o = 0x39 then some [(96, 96), (6, 0)]
  else if o = 0x3A then some [(115, 112), (97, 96), (15, 0)]
  else if o = 0x40 then some [(111, 108), (96, 96)]
  else if o = 0x41 then some [(111, 108)]
  else if o = 0x42 then some [(31, 0)]
  else none

/-- The number with the bits of the spans cleared. -/
def clearSpans (w : Nat) (l : List (Nat × Nat)) : Nat := l.foldl (fun w s => w - nbits w s.1 s.2 * 2 ^ s.2) w

/-- Runs of ones in a 64-bit mask (R312). -/
def oneRuns (m : Nat) : Nat := ((List.range 64).filter (fun i => nbit m i && (i == 0 || !(nbit m (i - 1))))).length

/-- The flag bit under which alone an opcode uses RS1 (R624). -/
def rs1Flag (o : Nat) : Option Nat :=
  if o = 0x0A ∨ o = 0x18 ∨ o = 0x28 ∨ o = 0x29 ∨ o = 0x2A ∨ o = 0x30 ∨ o = 0x31 ∨ o = 0x32 then some 96
  else if o = 0x3A then some 97 else none

/-- The values of an opcode's fields that are allowed (R312, R316, R327 check 6); `n` is the number of instructions. -/
def fieldsOk (o w n : Nat) : Bool :=
  if o = 0x02 then
    let d := nbits w 97 96
    d == 1 || (d == 0 && nbits w 7 0 == 0) || (d == 2 && decide (0x20 ≤ nbits w 7 0))
  else if o = 0x08 ∨ o = 0x09 then
    nbits w 103 102 != 3 && (nbit w 101 || nbits w 107 104 == 0)
      && (o == 0x08 || (nbits w 98 96 == 7 && decide (1 ≤ oneRuns (nbits w 63 0)) && decide (oneRuns (nbits w 63 0) ≤ 16)))
  else if o = 0x0B ∨ o = 0x0C then
    let off := nbits w 95 88
    let wd := nbits w 87 80
    decide (1 ≤ wd) && decide (wd ≤ (if o = 0x0B then 64 else 32)) && decide (off + wd ≤ 64)
      && (if o = 0x0B then decide (nbits w 79 72 ≤ 63) else nbits w 79 72 == 0)
  else if o = 0x10 ∨ o = 0x11 then
    let f := nbits w 99 96
    decide (f ≤ 0xD) && (f != 9 || nbits w 115 112 == 0) && ((f != 0xA && f != 0xB) || nbits w 111 108 == 0)
  else if o = 0x14 then nbits w 103 102 != 3 && decide (nbits w 115 112 + nbits w 99 98 ≤ 15)
  else if o = 0x15 then !(nbit w 96) || nbits w 107 104 == 0
  else if o = 0x20 then decide (nbits w 11 0 < n)
  else if o = 0x22 then
    let nk := nbits w 5 4
    let key := fun (k : Nat) => nbits w (89 - 28 * k) (62 - 28 * k)
    nk != 0 && (List.range 3).all (fun k => if k < nk then decide (nbits w (73 - 28 * k) (62 - 28 * k) < n) else key k == 0)
  else if o = 0x38 then nbits w 6 0 != 0
  else if o = 0x3A then nbits w 97 96 != 3 && (nbits w 97 96 != 0 || nbits w 15 0 != 0)
  else true

/-- An instruction uses a defined opcode with no reserved field value or bit (R327 check 6). -/
def instrOk (n w : Nat) : Bool :=
  let o := nbits w 127 120
  match instrSpans o with
  | none => false
  | some l =>
    nbits w 119 116 != 0xF && clearSpans (w % 2 ^ 116) l == 0 && fieldsOk o w n
      && (match rs1Flag o with
          | some b => nbit w b || nbits w 115 112 == 0
          | none => true)

/-! Strainer stage records (R333, R338, R339, R357, R358). -/

/-- The P and A bits that an op names, `none` for a reserved op (R339). -/
def opNames (op : Nat) : Option (Nat × Nat) :=
  if op = 0x01 then some (0, 0x3FF)
  else if op = 0x02 then some (0x8F, 0)
  else if op = 0x03 then some (0x07, 0xFF)
  else if op = 0x04 then some (0x0F, 0xFF)
  else if op = 0x05 then some (0x03, 0)
  else if 0x06 ≤ op ∧ op ≤ 0x09 then some (0, 0)
  else if op = 0x0A then some (0x87, 0)
  else if op = 0x0B then some (0, 0)
  else if op = 0x0C then some (0x03, 0x1FF)
  else if op = 0x0D then some (0x03, 0x1FF)
  else none

/-- Is W one that the V column of R339 states for the op? -/
def opWidthOk (op p w src imm : Nat) : Bool :=
  if op = 0x02 then (if nbit p 7 then w == 8 else w == 1 && src == 0 && imm == 0)
  else if op = 0x03 ∨ op = 0x04 then decide (w ≤ 24)
  else if op = 0x05 then w == (if p % 4 = 2 then 19 else 16)
  else if op = 0x06 then w == 3
  else if op = 0x07 then w == 2
  else if op = 0x08 then w == 5
  else if op = 0x09 then w == 6
  else if op = 0x0A ∨ op = 0x0B then w == 8
  else if op = 0x0C then w == 9
  else true

/-- The op has a defined OP, SRC and W and no reserved bit (R338, R339, R358 check 5). -/
def opDefined (v : Nat) : Bool :=
  let op := nbits v 63 58
  let src := nbits v 57 56
  let p := nbits v 55 48
  let imm := nbits v 31 0
  if op = 0 then v == 0
  else match opNames op with
    | none => false
    | some (pm, am) =>
      src != 3 && Nat.land p (255 - pm) == 0 && Nat.land (nbits v 41 32) (1023 - am) == 0 && (src == 0 || imm / 1024 == 0)
        && opWidthOk op p (nbits v 47 42 + 1) src imm
        && ((op != 0x03 && op != 0x05 && op != 0x0D) || p % 4 != 3)

/-- The op is used in its direction, and a GOTO names a stage from s + 1 to 12 (R358 check 6). -/
def opPlaced (egress : Bool) (s v : Nat) : Bool :=
  let op := nbits v 63 58
  if op = 0x05 ∨ op = 0x06 then !egress
  else if op = 0x0D then egress
  else if op = 0x02 then decide (s < nbits v 51 48) && decide (nbits v 51 48 ≤ 12)
  else true

/-- A SET field lies in one writable range of R333 (R358 check 7). -/
def opSetOk (v : Nat) : Bool :=
  let a := nbits v 41 32
  let e := a + nbits v 47 42
  nbits v 63 58 != 0x01 || decide (e ≤ 511) || (decide (704 ≤ a) && decide (e ≤ 735)) || (decide (740 ≤ a) && decide (e ≤ 751))
    || (decide (768 ≤ a) && decide (e ≤ 1023))

/-- DROP, PUNT and SET_COLOUR immediates (R358 check 8). -/
def opImmOk (v : Nat) : Bool :=
  let op := nbits v 63 58
  let imm := nbits v 31 0
  if nbits v 57 56 ≠ 0 then true
  else if op = 0x0B then decide (1 ≤ imm % 256) && decide (imm % 256 ≤ 0xEF)
  else if op = 0x0A then decide (1 ≤ imm % 256) && decide (imm % 256 < 0xF0)
  else if op = 0x07 then imm % 4 != 3
  else true

/-- KEY_LEN of a stage kind (R358 check 2). -/
def keyLenOk (kind n : Nat) : Bool :=
  if kind = 0 then n == 0
  else if kind = 1 then decide (1 ≤ n) && decide (n ≤ 64)
  else if kind = 2 then decide (3 ≤ n) && decide (n ≤ 18)
  else if kind = 3 then decide (1 ≤ n) && decide (n ≤ 40)
  else if kind = 4 then decide (1 ≤ n) && decide (n ≤ 4)
  else false

/-- CTRL of a stage record (R357, R358 check 2). -/
def ctrlOk (egress : Bool) (c : Nat) : Bool :=
  nbits c 25 24 == 0 && nbits c 7 6 == 0 && keyLenOk (nbits c 29 27) (nbits c 15 8) && (egress || !(nbit c 26))

/-- Cut a list into pieces of `k` bytes. -/
def pieces (k : Nat) : Nat → List Byte → List (List Byte)
  | 0, _ => []
  | n + 1, l => l.take k :: pieces k n (l.drop k)

/-- The ops of a profile, from op index `j` on: those before END, and the offset of a nonzero op after it or of an op that is not
defined. -/
def imgProfile (base : Nat) : Nat → Bool → List (List Byte) → List (Nat × Nat) × Option Nat
  | _, _, [] => ([], none)
  | j, ended, b :: bs =>
    let v := leNat b
    if ended then (if v = 0 then imgProfile base (j + 1) true bs else ([], some (base + 8 * j)))
    else if opDefined v = false then ([], some (base + 8 * j))
    else
      let r := imgProfile base (j + 1) (v == 0) bs
      (if v = 0 then r.1 else (base + 8 * j, v) :: r.1, r.2)

/-- The ops of a stage record at image offset `base`: (offset, op) in order, and the first failure of check 5. -/
def stageOps (base : Nat) (rec_ : List Byte) : List (Nat × Nat) × Option Nat :=
  let rs := (pieces 64 64 (rec_.drop 0x100)).zipIdx.map (fun e =>
    if e.1.all (fun b => b == 0) then ([], none) else imgProfile (base + 0x100 + 64 * e.2) 0 false (pieces 8 8 e.1))
  (rs.flatMap Prod.fst, firstFail (rs.map Prod.snd))

/-- The first SEL byte, or the first reserved field, of a stage record that is not valid (R358 check 4). -/
def stageRes (base : Nat) (rec_ : List Byte) : Option Nat :=
  firstFail (imgChk (leAt rec_ 4 4 / 16 == 0) (base + 4)
    :: ((sliceBytes rec_ 8 64).zipIdx.map (fun e => imgChk (decide (e.1.toNat < 128)) (base + 8 + e.2)))
    ++ [imgChk ((sliceBytes rec_ 0x88 120).all (fun b => b == 0)) (base + 0x88)])

/-- The checks of one STRN section at image offset `base` (R358). -/
def strnCheck (pipe base : Nat) (sec : List Byte) : Option Nat :=
  let egress := decide (6 ≤ pipe)
  let recs := (pieces stageLen 12 (sec.drop 64)).zipIdx.map (fun e => (e.2, base + 64 + stageLen * e.2, e.1))
  let ops := recs.map (fun r => (r.1, stageOps r.2.1 r.2.2))
  let flat := ops.flatMap (fun o => o.2.1.map (fun x => (o.1, x.1, x.2)))
  firstFail (imgChk (leAt sec 0 2 == pipe) base
    :: (recs.map (fun r => imgChk (ctrlOk egress (leAt r.2.2 0 4)) r.2.1))
    ++ (recs.map (fun r =>
      let nx := leAt r.2.2 4 1 % 16
      imgChk (decide (r.1 < nx) && decide (nx ≤ 12)) (r.2.1 + 4)))
    ++ [imgChk ((sliceBytes sec 2 62).all (fun b => b == 0)) (base + 2)]
    ++ (recs.map (fun r => stageRes r.2.1 r.2.2))
    ++ (ops.map (fun o => o.2.2))
    ++ (flat.map (fun x => imgChk (opPlaced egress x.1 x.2.2) x.2.1))
    ++ (flat.map (fun x => imgChk (opSetOk x.2.2) x.2.1))
    ++ (flat.map (fun x => imgChk (opImmOk x.2.2) x.2.1)))

/-! The image (R324–R327). -/

/-- A section entry: its own offset in the image, TYPE, INDEX, OFFSET, LENGTH and the reserved word. -/
structure Sect where
  at_ : Nat
  typ : Nat
  idx : Nat
  off : Nat
  len : Nat
  rsv : Nat
deriving DecidableEq, Repr

/-- The section table (R325). -/
def sects (img : List Byte) (n : Nat) : List Sect :=
  (pieces 16 n (img.drop 0x40)).zipIdx.map (fun e =>
    ⟨0x40 + 16 * e.2, leAt e.1 0 2, leAt e.1 2 2, leAt e.1 4 4, leAt e.1 8 4, leAt e.1 12 4⟩)

/-- The bytes of a section. -/
def Sect.bytes (img : List Byte) (x : Sect) : List Byte := sliceBytes img x.off x.len

/-- Two sections share bytes. -/
def Sect.overlaps (x y : Sect) : Bool := decide (0 < x.len) && decide (0 < y.len) && decide (x.off < y.off + y.len) && decide (y.off < x.off + x.len)

/-- A section entry meets R325, given the entries before it, and names no reserved type (R327 check 4). -/
def Sect.chk (imgLen tabEnd : Nat) (before : List Sect) (x : Sect) : Option Nat :=
  firstFail [
    imgChk (decide (1 ≤ x.typ) && decide (x.typ ≤ 5)) x.at_,
    imgChk (x.idx == 0 || (x.typ == 4 && decide (x.idx ≤ 11))) (x.at_ + 2),
    imgChk (x.off % 16 == 0) (x.at_ + 4),
    imgChk (decide (x.off + x.len ≤ imgLen)) (x.at_ + 8),
    imgChk (x.len == 0 || decide (tabEnd ≤ x.off)) (x.at_ + 4),
    imgChk (!(before.any (fun y => x.overlaps y))) (x.at_ + 4)]

/-- Check 4 over the section table. -/
def sectsChk (imgLen tabEnd : Nat) : List Sect → List Sect → Option Nat
  | _, [] => none
  | before, x :: xs =>
    match x.chk imgLen tabEnd before with
    | some o => some o
    | none => sectsChk imgLen tabEnd (x :: before) xs

/-- A second section of a type, or of a type and index, that R326 allows once. -/
def excess : List Sect → List Sect → Option Nat
  | _, [] => none
  | before, x :: xs =>
    if x.typ ≠ 5 ∧ before.any (fun y => y.typ == x.typ && y.idx == x.idx) = true then some x.at_ else excess (x :: before) xs

/-- The section of a type and index. -/
def findSect (l : List Sect) (typ idx : Nat) : Option Sect := l.find? (fun x => x.typ == typ && x.idx == idx)

/-- The length of a section is one that its type allows (R327 check 5). -/
def Sect.lenOk (x : Sect) : Bool :=
  if x.typ = 1 then decide (0 < x.len) && x.len % 16 == 0 && decide (x.len ≤ 65536)
  else if x.typ = 2 then decide (0 < x.len) && x.len % 8 == 0 && decide (x.len ≤ 32768)
  else if x.typ = 3 then x.len == 256
  else if x.typ = 4 then x.len == 52288
  else true

/-- The instruction words of PCODE. -/
def pcodeOf (img : List Byte) (x : Sect) : List Nat := (pieces 16 (x.len / 16) (x.bytes img)).map leNat

/-- The 128 entry words. -/
def entryOf (img : List Byte) (x : Sect) : List Nat := (pieces 2 128 (x.bytes img)).map leNat

/-- Checks 1 and 2 (R327): header identity and CRC. `blen` is BREW.IMG_LEN. -/
def headCheck (img : List Byte) (blen : Nat) : Option Nat :=
  firstFail [
    imgChk (decide (0x40 ≤ blen)) 8,
    imgChk (leAt img 0 4 == 0x4B535041) 0,
    imgChk (leAt img 4 2 == 1) 4,
    imgChk (leAt img 6 2 == 0x40) 6,
    imgChk (leAt img 8 4 == blen) 8,
    imgChk (crc32 (img.take 0x3C ++ leBytes 4 0 ++ img.drop 0x40) == leAt img 0x3C 4) 0x3C]

/-- Checks 3 to 5 (R327): revisions, sections, counts and lengths. `minor` is the lowest PAGE_REV minor of the PCLU and STRN
pages. -/
def sectCheck (img : List Byte) (minor : Nat) : Option Nat :=
  let n := leAt img 0x0C 2
  let l := sects img n
  let have_ := fun (t i : Nat) => imgChk (findSect l t i).isSome 0x0C
  firstFail [
    imgChk (leAt img 0x10 1 == 1) 0x10,
    imgChk (decide (leAt img 0x11 1 ≤ minor)) 0x11,
    imgChk (decide (15 ≤ n) && decide (n ≤ 64) && decide (0x40 + 16 * n ≤ img.length)) 0x0C,
    sectsChk img.length (0x40 + 16 * n) [] l,
    excess [] l,
    have_ 1 0, have_ 3 0,
    firstFail ((List.range 12).map (fun i => have_ 4 i)),
    firstFail (l.map (fun x => imgChk x.lenOk (x.at_ + 8)))]

/-- Checks 6 to 9 (R327): instructions, entries, reserved bits, Strainer sections. -/
def bodyCheck (img : List Byte) : Option Nat :=
  let l := sects img (leAt img 0x0C 2)
  match findSect l 1 0, findSect l 3 0 with
  | some pc, some en =>
    let n := pc.len / 16
    let es := (entryOf img en).zipIdx
    firstFail [
      firstFail ((pcodeOf img pc).zipIdx.map (fun e => imgChk (instrOk n e.1) (pc.off + 16 * e.2))),
      firstFail (es.map (fun e => imgChk (decide (e.1 % 4096 < n)) (en.off + 2 * e.2))),
      imgChk (leAt img 0x20 2 != 0) 0x20,
      imgChk (leAt img 0x22 2 != 0) 0x22,
      imgChk (leAt img 0x0E 2 == 0) 0x0E,
      imgChk (leAt img 0x12 2 == 0) 0x12,
      imgChk ((sliceBytes img 0x24 24).all (fun b => b == 0)) 0x24,
      firstFail (l.map (fun x => imgChk (x.rsv == 0) (x.at_ + 12))),
      firstFail (es.map (fun e => imgChk (decide (e.1 < 4096)) (en.off + 2 * e.2))),
      firstFail ((List.range 12).map (fun i => match findSect l 4 i with
        | some x => strnCheck i x.off (x.bytes img)
        | none => none))]
  | _, _ => some 0x0C

/-- STAGE's check of an image (R327): `none` when it passes, else the offset that ERR_CAP2 takes. -/
def imageCheck (img : List Byte) (blen minor : Nat) : Option Nat :=
  match headCheck img blen with
  | some o => some o
  | none => match sectCheck img minor with
    | some o => some o
    | none => bodyCheck img

/-- The nonzero elements of a list under rising keys. -/
def tabFrom {α : Type} [DecidableEq α] (d : α) (base : Nat) (l : List α) : Tab α :=
  (l.zipIdx.map (fun e => (base + e.2, e.1))).filter (fun e => !(decide (e.2 = d)))

/-- The bank that a passing image writes (R328). -/
def bankOf (img : List Byte) : BrewBank :=
  let l := sects img (leAt img 0x0C 2)
  let sec := fun (t i : Nat) => (findSect l t i).getD ⟨0, t, i, 0, 0, 0⟩
  let pt := sec 2 0
  {
    code := tabFrom 0 0 ((pcodeOf img (sec 1 0)).map (BitVec.ofNat 128))
    ptable := tabFrom 0 0 ((pieces 8 (pt.len / 8) (pt.bytes img)).map (fun b => BitVec.ofNat 64 (leNat b)))
    entry := tabFrom 0 0 ((entryOf img (sec 3 0)).map (fun e => e % 4096))
    maxIn := leAt img 0x20 2
    maxEg := leAt img 0x22 2
    strn := (List.range 12).flatMap (fun i => tabFrom 0 (i * 12 * stageLen) (((sec 4 i).bytes img).drop 64)) }

end Sys2Proof.Machine
end

