-- ==== Sys2Proof/Machine/HbmOps.lean ====
section
/-! DEFINITION. Shared operations of the HBM controllers: group and PC states (R509, R513), where a buffer lies (R505, R506). -/

namespace Sys2Proof.Machine

/-- The base state of a group: 0 OFF, 1 TRAINING, 2 in service, 5 RETRAINING, 6 FAILED. -/
def Chan.grpBase (ch : Chan) (g : Nat) : Nat := ch.getF (pgHbmc (g / 4)) (HBMC.GRP_STAT_STATE (g % 4))

/-- Regions of a group that Caddy has assigned, with their states (R430, R506). -/
def Chan.grpRegions (ch : Chan) (g : Nat) : List (Nat × HbmRegion) :=
  ch.cad.regions.filter (fun e => e.1 / 3072 == g && e.2.st != 0)

/-- Regions of the group that still hold buffers (R527). -/
def Chan.busyRegions (ch : Chan) (g : Nat) : Nat := ((ch.grpRegions g).filter (fun e => ch.regionUsed e.1 != 0)).length

/-- Every assigned region of the group is FENCED or RETIRED, by a full retrain or by the keeper (R513). -/
def Chan.grpFenced (ch : Chan) (g : Nat) : Bool :=
  let rs := ch.grpRegions g
  rs.all (fun e => e.2.st == 3 || e.2.st == 4) && (rs.any (fun e => e.2.st == 3) || (match ch.hbm.run with
    | some r => r.group == g
    | none => false))

/-- GRP_STAT.STATE as read (R513, R527): HBMC derives FENCING (3) and OFFLINE (4) from Caddy's regions. -/
def Chan.hbmGrp (ch : Chan) (g : Nat) : Nat :=
  let b := ch.grpBase g
  if b = 2 ∧ ch.grpFenced g then (if ch.busyRegions g = 0 then 4 else 3) else b

/-- The group is out of service for a full retrain (R513). -/
def Chan.grpOut (ch : Chan) (g : Nat) : Bool := let s := ch.hbmGrp g; s == 3 || s == 4 || s == 5

/-- PC_STAT.STATE as stored, of channel-wide PC `n` (R505). -/
def Chan.pcBase (ch : Chan) (n : Nat) : Nat := ch.getF (pgHbmc (n / 32)) (HBMC.PC_STAT_STATE (n % 32))

/-- PC_STAT.STATE as read: the PCs of a group that is OFFLINE or RETRAINING read OFFLINE (R528). -/
def Chan.pcState (ch : Chan) (n : Nat) : Nat :=
  let b := ch.pcBase n
  let g := ch.hbmGrp (n / 8)
  if b = 2 ∧ (g = 4 ∨ g = 5) then 4 else b

/-- PC `n` is PAUSED. -/
def Chan.isPaused (ch : Chan) (n : Nat) : Bool := match ch.hbm.paused with
  | some p => p.1 == n
  | none => false

/-- The accesses waiting in the queue of PC `n`, oldest first. -/
def Chan.hbmQueue (ch : Chan) (n : Nat) : List HbmAcc := (ch.hbm.waiting.filter (fun e => e.1 == n)).map Prod.snd

/-- The region that PC address `addr` of PC `n` lies in (R506). -/
def hbmRegionOf (n addr : Nat) : Nat := n / 8 * 3072 + addr / 262144

/-- The byte offset in its region of PC address `addr` of PC `n`, with stripe unit `u` (R506). -/
def hbmOffset (u n addr : Nat) : Nat := addr % 262144 / u * (8 * u) + n % 8 * u + addr % u

/-- Bytes of a buffer of an HBM pool (R415). -/
def bufBytes (pool : Nat) : Nat := if pool = 1 then 256 else if pool = 2 then 1024 else if pool = 3 then 4096 else 10240

/-- The buffer handle and the offset in the buffer of a PC address, where its region has a class (R418, R506). -/
def Chan.hbmBuf (ch : Chan) (n addr : Nat) : Option (Nat × Nat) :=
  let r := hbmRegionOf n addr
  let x := ch.hbmRegion r
  if x.st = 0 ∨ x.cls = 0 then none
  else
    let o := hbmOffset (if x.cls = 1 then 256 else 128) n addr
    let i := o / bufBytes x.cls
    if i < perRegion x.cls then some ((x.cls - 1) * 2 ^ 30 + r * perRegion x.cls + i, o % bufBytes x.cls) else none

/-- Do write acknowledges of a buffer wait for a paused PC (R511)? A C256 buffer lies in one PC, a larger one in the 8 PCs of its
group. -/
def Chan.ackWaits (ch : Chan) (h : Nat) : Bool :=
  match regionOfHandle h, ch.hbm.paused with
  | some r, some p =>
    if poolOfHandle h = 1 then p.1 == r / 3072 * 8 + h % 2 ^ 28 % 8192 % 8 else p.1 / 8 == r / 3072
  | _, _ => false

end Sys2Proof.Machine
end

