-- ==== Sys2Proof/Machine/Caddy.lean ====
section
/-! DEFINITION. Caddy, VOQs and admission (R415–R455). -/

namespace Sys2Proof.Machine

/-! Allocation (R422–R425). -/

/-- The account a packet is charged to (R420). -/
def Chan.chargeTo (ch : Chan) (k : Pkt) : Nat :=
  if k.egress then
    (if k.mcast then ch.getF pgVoq VOQ.MC_ACCOUNT_ACCOUNT else ch.getF pgAdm (ADM.PORT_CFG_EG_ACCOUNT k.port))
  else k.ctxAccount

/-- The egress queue of a unicast egress packet (R458). -/
def Chan.egressQueue (ch : Chan) (k : Pkt) : Option Nat := ch.eqMap k.port k.tc k.flowHash k.user0

/-- The queue whose mode places the packet (R423): a multicast packet at the egress TM has no queue of its own yet. -/
def Chan.placeQueue (ch : Chan) (k : Pkt) : Option Nat :=
  if k.egress then (if k.mcast then none else (ch.egressQueue k).map egQueue) else some k.voq

/-- The first pool a packet asks (R423). -/
def Chan.firstPool (ch : Chan) (k : Pkt) : Nat :=
  let sram : Bool := match ch.placeQueue k with
    | some q => !(ch.queMode (ch.que q))
    | none => true
  if 10144 < k.len ∨ sram then 0 else smallestFit k.len

/-- The next pool after CLASS_EMPTY (R423). -/
def nextPool (pool l : Nat) : Nat := if pool = 0 then smallestFit l else pool + 1

/-- May the buffer with this handle be granted: a free buffer of the pool, in an ACTIVE region (R418, R425, R429)? -/
def Chan.grantable (ch : Chan) (pool h : Nat) : Bool :=
  poolOfHandle h == pool && !(ch.buf h).inUse && decide (h < 2 ^ 32) &&
    (if pool = 0 then decide (nbits h 28 0 < 393216) && decide (h < 2 ^ 30)
     else !(nbit h 28) && (match regionOfHandle h with
       | some r => decide (r < 24576) && (ch.hbmRegion r).st == 1 && (ch.hbmRegion r).cls == pool
       | none => false))

/-- POOL_LOW: the pool's free units have fallen below 1/16 of its units (R454). -/
def Chan.poolLow (before after : Chan) (p : Nat) : Chan :=
  if before.poolTotal p ≤ 16 * before.poolFree p ∧ 16 * after.poolFree p < after.poolTotal p then after.raise pgCaddy 14 else after

/-- The buffer is granted (R422): it carries the owner tag, holds one reference, and its account's use rises. SRAM takes the
bytes as they arrive; an HBM packet waits for its write acknowledge (R433). -/
def Chan.grantBuf (ch : Chan) (k : Pkt) (a pool h agent : Nat) : Chan :=
  let n := unitsOf pool k.len
  let x := ch.acctPool a pool
  let b : Buf := { inUse := true, owner := a, pool := pool, units := n, pkt := k, written := pool == 0 && k.reasm == 0, waiting := true }
  let c1 := (ch.putBuf h b).putAcctPool a pool { x with use := x.use + n, peak := max x.peak (x.use + n) }
  Chan.poolLow ch (c1.tally pgCaddy 0x10 { priv := some 0, agent := some agent }) pool

/-- Every requester before this one in the order of the TM cycle k, k mod 8 first, has been served by the pool (R424). -/
def Chan.allocTurn (ch : Chan) (req pool : Nat) : Bool :=
  let place := fun r => (r + 8 - cyclesOf 1 ch.ns % 8) % 8
  ch.cad.reqs.all (fun r => r.pool.getD (ch.firstPool r.pkt) != pool || decide (place req ≤ place r.requester))

/-- A packet asks pool `pool` for a buffer (R422, R423). -/
def Chan.askPool (ch : Chan) (r : AllocReq) (pool h : Nat) : Chan :=
  let a := ch.chargeTo r.pkt
  let at' : Attr := { priv := some 0, agent := some r.requester }
  let rest := fun (c : Chan) => { c with cad := { c.cad with reqs := c.cad.reqs.erase r } }
  let lose := fun (c : Chan) => (rest c).reasmRefused r.pkt
  match ch.judgeAlloc a pool (unitsOf pool r.pkt.len) with
  | .grant => if ch.grantable pool h then (rest ch).grantBuf r.pkt a pool h r.requester else ch
  | .limit => ((lose ch).incRaise pgCaddy CADDY.ACCT_LIMIT_DROP 9).tally pgCaddy 0x13 at'
  | .empty =>
    if ch.getB pgCaddy (CADDY.POOL_CFG_SPILL_UP pool) ∧ pool ≠ 4 ∧ r.pkt.len ≤ 10144 then
      let c1 := ((ch.inc pgCaddy CADDY.SPILL_CNT).tally pgCaddy 0x12 at')
      { c1 with cad := { c1.cad with
        reqs := c1.cad.reqs.map (fun x => if x = r then { r with pool := some (nextPool pool r.pkt.len) } else x) } }
    else
      (((lose ch).incRaise pgCaddy CADDY.POOL_EMPTY_DROP 8).tally pgCaddy 0x13 at').journalSec pgCaddy clsContained 3 pool
        pool (2 ^ 32)

/-- CADDY takes requests: enabled, and no soft reset in progress (R425). -/
def Chan.caddyOn (ch : Chan) : Bool := ch.enabled pgCaddy && !(ch.getB pgCaddy STAT_BUSY)

/-- A request refused whole while CADDY is off (R425). -/
def Chan.refuseReq (ch : Chan) (r : AllocReq) : Chan :=
  (({ ch with cad := { ch.cad with reqs := ch.cad.reqs.erase r } }).reasmRefused r.pkt).inc pgCaddy CADDY.DISABLED_DROP

/-- BUFFER_ALLOC (R422–R425): the oldest packet of a requester asks for its first buffer, in
the order of the cycle; `h` names the buffer the pool grants. -/
def execBufferAlloc (c : Fin 4) (req h : Nat) (s : State) : Host.Outcome State Fault Refusal :=
  .next (s.onLive c (fun ch =>
    match ch.cad.reqs.find? (fun r => r.requester == req && r.pool.isNone) with
    | none => ch
    | some r =>
      if ch.caddyOn then (if ch.allocTurn req (ch.firstPool r.pkt) then ch.askPool r (ch.firstPool r.pkt) h else ch) else ch.refuseReq r))

/-- SPILL_REQUEST (R423): a packet refused with CLASS_EMPTY asks the next pool. -/
def execSpillRequest (c : Fin 4) (req h : Nat) (s : State) : Host.Outcome State Fault Refusal :=
  .next (s.onLive c (fun ch =>
    match ch.cad.reqs.find? (fun r => r.requester == req && r.pool.isSome) with
    | none => ch
    | some r =>
      if ch.caddyOn then (if ch.allocTurn req (r.pool.getD 0) then ch.askPool r (r.pool.getD 0) h else ch) else ch.refuseReq r))

/-- HBM_WRITE_ACK (R433): the last byte of a packet has been written; the acknowledge waits for a paused PC (R511). -/
def execHbmWriteAck (c : Fin 4) (h : Nat) (s : State) : Host.Outcome State Fault Refusal :=
  .next (s.onLive c (fun ch =>
    let b := ch.buf h
    if b.inUse && !b.written && b.pkt.reasm == 0 && !(ch.ackWaits h) then ch.putBuf h { b with written := true } else ch))

/-! Admission (R435–R437). -/

/-- WRED word `w` of a profile. -/
def Chan.wred (ch : Chan) (n w : Nat) : Word := ch.get pgAdm (0x2000 + 32 * n + 4 * w)

/-- The average depth after a packet (R437). -/
def wredAvg (avg q weight : Nat) : Nat :=
  if q = 0 then 0 else ((avg : Int) + ((q : Int) - (avg : Int)).tdiv ((2 ^ weight : Nat) : Int)).toNat

/-- Does WRED drop: `r` is the 16-bit random number (R437)? -/
def wredDrops (avg mn mx maxP r : Nat) : Bool :=
  if avg < mn * 4096 then false
  else if mx * 4096 ≤ avg then true
  else decide (r * 256 * ((mx - mn) * 4096) < maxP * (avg - mn * 4096) * 65536)

/-- Checks 1 to 5 of R436: `none` passes, else the counting of the drop. -/
def Chan.admitCheck (ch : Chan) (q x l : Nat) (port : Option Nat) : Option (Chan → Chan) :=
  let held := ch.heldCnt x
  let pp := x / 8 % 64
  if ch.enabled pgAdm = false then some (fun c => c.inc pgAdm ADM.DISABLED_DROP)
  else
    let down : Option (Chan → Chan) := match port with
      | none => none
      | some p =>
        if ch.holdState p = 2 then some (fun c => c.inc pgAdm (ADM.PORT_DOWN_DISC p))
        else if ch.holdState p = 1 ∧ ch.getF pgAdm (ADM.HOLD_CFG_HOLD_CAP p) * 1048576 < ch.portQueued p + l then
          some (fun c => c.incRaise pgAdm (ADM.HOLD_CAP_DROP p) 13)
        else none
    match down with
    | some f => some f
    | none =>
      if ch.holdDisc x then
        if (ch.getF pgAdm (ADM.PC_HOLD_XOFF x) + ch.getF pgAdm (ADM.PC_HOLD_HEADROOM x)) * 16384 < held + l then
          some (fun c => (c.incRaise pgAdm (ADM.HEADROOM_DROP pp) 12).journalSec pgAdm clsContained 4 (x / 512 * 64 + pp)
            (x / 512 + pp * 2 ^ 8 + x % 8 * 2 ^ 16) (2 ^ 32))
        else none
      else
        let tail := fld (ch.wred (ch.getF pgAdm (ADM.PC_CFG_PROFILE x)) 6) 23 0
        if tail ≠ 0 ∧ tail * 4096 < (ch.que q).depth + l then some (fun c => c.inc pgAdm ADM.TAIL_DROP) else none

/-- Admit a packet of length `l` and colour `col` to queue `q`, or drop it: the channel, and whether it may be enqueued (R436). -/
def Chan.admitPkt (ch : Chan) (q x l col : Nat) (port : Option Nat) : Chan × Bool :=
  let dropped := fun (c : Chan) => c.tally pgAdm 0x11 { cls := some (x % 8) }
  match ch.admitCheck q x l port with
  | some f => (dropped (f ch), false)
  | none =>
    if ch.holdDisc x then (ch, true)
    else
      let n := ch.getF pgAdm (ADM.PC_CFG_PROFILE x)
      let y := ch.que q
      let avg := wredAvg y.avg y.depth (fld (ch.wred n 6) 27 24)
      let c1 := ch.putQue q { y with avg := avg }
      let r := c1.freeVal 16
      let c2 := c1.takeFree
      if bit (ch.wred n 6) 31 && wredDrops avg (fld (ch.wred n (2 * col)) 23 0) (fld (ch.wred n (2 * col + 1)) 23 0)
          (fld (ch.wred n (2 * col)) 31 24) r then
        (dropped (c2.inc pgAdm (0x500 + 4 * col)), false)
      else (c2, true)

/-- ADMISSION (R436): a written packet is admitted and enqueued, or dropped; its one reference is then released. -/
def execAdmission (c : Fin 4) (h : Nat) (s : State) : Host.Outcome State Fault Refusal :=
  .next (s.onLive c (fun ch =>
    let b := ch.buf h
    let k := b.pkt
    if b.inUse && b.written && b.waiting && (!k.egress || b.queue != 0) then
      let q := if k.egress then b.queue - 1 else k.voq
      let x := if k.egress then pcIndex 1 k.port k.tc else pcIndex 0 k.inPort k.tc
      let r := ch.admitPkt q x k.len k.colour (if k.egress then some k.port else none)
      if r.2 then r.1.enqueue q h x else r.1.hwFree h
    else ch))

/-! Multicast (R441, R442). -/

/-- The egress ports of the valid members of a group. -/
def Chan.mcMembers (ch : Chan) (g : Nat) : List Nat :=
  let w := tget 0 ch.cad.mcGrp g
  if bit w 31 then
    ((List.range (fld w 25 18 + 1)).map (fun k => tget (0 : Word) ch.cad.mcMem (fld w 17 0 + k))).filter (fun m => bit m 31)
      |>.map (fun m => fld m 5 0)
  else []

/-- A refused copy: counted for its port, and one reference released (R442). -/
def Chan.mcRefuse (ch : Chan) (p : Nat) : Chan :=
  (ch.incRaise pgVoq (VOQ.MC_REFUSE p) 9).journalSec pgVoq clsContained 2 p p (2 ^ 32)

/-- One copy to egress port `p` is admitted on its own. -/
def Chan.mcCopy (ch : Chan) (h : Nat) (k : Pkt) (p : Nat) : Chan :=
  let c1 := (ch.inc pgVoq VOQ.MC_COPIES).tally pgVoq 0x13
  match c1.eqMap p k.tc k.flowHash k.user0 with
  | none => (c1.incRaise pgSched SCHED.NO_QUEUE_DROP 9).hwFree h
  | some n =>
    let x := pcIndex 1 p k.tc
    let r := c1.admitPkt (egQueue n) x k.len k.colour (some p)
    if r.2 then r.1.enqueue (egQueue n) h x else (r.1.mcRefuse p).hwFree h

/-- MC_REPLICATE (R442): REFS becomes n − 1, and each of the n copies is admitted on its own. -/
def execMcReplicate (c : Fin 4) (h : Nat) (s : State) : Host.Outcome State Fault Refusal :=
  .next (s.onLive c (fun ch =>
    let b := ch.buf h
    if b.inUse && b.written && b.waiting && b.pkt.egress && b.pkt.mcast then
      let ms := ch.mcMembers b.pkt.dest
      if ms.isEmpty then (ch.mcRefuse 0).hwFree h
      else (ch.putBuf h { b with refs := ms.length - 1, waiting := false }).each ms (fun c p => c.mcCopy h b.pkt p)
    else ch))

/-! Freeing (R426–R428). -/

/-- BUFFER_FREE (R426): a free of handle `h` that names account `a`, from a partition's ring where `part` names one. -/
def execBufferFree (c : Fin 4) (h a : Nat) (part : Option Nat) (s : State) : Host.Outcome State Fault Refusal :=
  .next (s.onLive c (fun ch => ch.freeBuf h a part))

/-- Is the number a buffer handle (R418)? -/
def handleOk (h : Nat) : Bool :=
  if nbit h 29 then decide (nbits h 31 30 = 0) && decide (nbits h 28 0 < 393216)
  else !(nbit h 28) && (match regionOfHandle h with
    | some r => decide (r < 24576)
    | none => false)

/-- A write of CADDY.FREE_CMD (R427, R447). -/
def freeCmdHook : Hook := fun w ch =>
  if bit w.v 31 then
    let h := ch.nat pgCaddy CADDY.FREE_HANDLE
    let a := fld w.v 11 0
    let res := if handleOk h then ch.freeResult h a none else 3
    let c1 := if handleOk h then ch.freeBuf h a none else ch
    c1.putN pgCaddy CADDY.FREE_STAT (2 ^ 30 + res)
  else ch

/-- FREE_CMD (R427). -/
def execFreeCmd (r : Req) (c : Fin 4) (acct : Nat) (s : State) : Host.Outcome State Fault Refusal :=
  .next (s.chanWrite freeCmdHook true r c pgCaddy CADDY.FREE_CMD (BitVec.ofNat 32 (2 ^ 31 + acct % 4096)))

/-- A header read fails its ECC or CRC (R428): the packet is dropped, and the queue ends there. -/
def Chan.hdrErr (ch : Chan) (q : Nat) (e : QEnt) : Chan :=
  let lost := (ch.que q).ents.length - 1
  let own := (ch.buf e.handle).owner
  let c1 := (ch.takeOut q (fun x => x == e)).hwFree e.handle
  let c2 := ((c1.inc pgCaddy CADDY.HDR_ERR).capture pgCaddy clsContained 13 e.handle q own).raise pgCaddy 13
  let c3 := c2.journal pgCaddy clsContained 6 (e.handle + q % 2 ^ 24 * 2 ^ 32 + lost * 2 ^ 64)
  let c4 := c3.takeOut q (fun _ => true)
  { c4 with cad := { c4.cad with sweepDue := true } }

/-- Is the buffer named by a queue, a copy or a transfer (R428)? -/
def Chan.named (ch : Chan) (h : Nat) : Bool :=
  (ch.buf h).waiting || ch.cad.queues.any (fun q => q.2.ents.any (fun e => e.handle == h))
    || ch.fab.sending.any (fun x => x.2.any (fun y => y.handle == h))

/-- ORPHAN_SWEEP (R428, R445): the active keeper frees every buffer in use that nothing names. -/
def execOrphanSweep (c : Fin 4) (s : State) : Host.Outcome State Fault Refusal :=
  .next (s.onLive c (fun ch =>
    let l := (ch.cad.bufs.map Prod.fst).filter (fun h => (ch.buf h).inUse && !(ch.named h))
    if (ch.cad.sweepDue || !l.isEmpty) && ch.active.isSome then
      let c1 := { ch with cad := { ch.cad with sweepDue := false } }
      ((c1.each l (fun c h => c.releaseBuf h)).inc pgCaddy CADDY.ORPHAN_CNT l.length).journal pgCaddy clsCorrected 7 l.length
    else ch))

/-! Regions (R429–R431, R448). -/

/-- CADDY.REFUSE is set (R447, R454). -/
def Chan.caddyRefuse (ch : Chan) (code : Nat) : Chan := (ch.putN pgCaddy CADDY.REFUSE code).raise pgCaddy 15

/-- Does operation `op` accept a region in this state (R430)? -/
def regionAccepts (op st : Nat) : Bool :=
  if op = 0 then st == 0 else if op = 1 then st == 1 else if op = 2 then st == 2
  else if op = 3 then st == 1 || st == 2 else if op = 4 then st == 3 else if op = 5 then st != 0 && st != 4
  else st == 2 || st == 3

/-- Every packet with a buffer in a region is discarded and counted once, whatever its copies (R430 PURGE). -/
def Chan.purgeRegion (ch : Chan) (r : Nat) : Chan :=
  let d := ch.discardWhere (fun _ => true) (fun e => regionOfHandle e.handle == some r)
  let w := (d.1.cad.bufs.map Prod.fst).filter (fun h => regionOfHandle h == some r && (d.1.buf h).waiting)
  let queued := (ch.cad.bufs.map Prod.fst).filter (fun h => regionOfHandle h == some r
    && ch.cad.queues.any (fun q => q.2.ents.any (fun e => e.handle == h)))
  (d.1.each w (fun c h => c.hwFree h)).inc pgCaddy CADDY.PURGE_DROP (queued.length + w.length)

/-- What one operation does to one region (R430). -/
def Chan.regionAct (ch : Chan) (op cls r : Nat) : Chan :=
  let x := ch.hbmRegion r
  if op = 0 then ch.putHbmRegion r { st := 1, cls := cls }
  else if op = 1 then (ch.putHbmRegion r { x with st := 2, next := cls }).regionSettle r
  else if op = 2 then ch.putHbmRegion r { st := 1, cls := x.cls }
  else if op = 3 then ch.putHbmRegion r { x with st := 3, prior := x.st }
  else if op = 4 then (ch.putHbmRegion r { x with st := x.prior, prior := 0 }).regionSettle r
  else if op = 5 then
    let c1 := ch.putHbmRegion r { st := 4, cls := x.cls }
    let c2 := if c1.poolUsable x.cls < c1.poolRsv x.cls then c1.setDegraded pgCaddy true else c1
    c2.journal pgCaddy clsDegraded 5 (r + c1.poolTotal x.cls * 2 ^ 32)
  else ch.purgeRegion r

/-- One operation on one region, and POOL_LOW of the pools it leaves short (R430, R454). -/
def Chan.regionOp (ch : Chan) (op cls r : Nat) : Chan :=
  (List.range 5).foldl (fun c p => Chan.poolLow ch c p) (ch.regionAct op cls r)

/-- RESULT of a region command (R430, R448); ASSIGN needs a group that is ONLINE (R509). -/
def Chan.regionResult (ch : Chan) (kport : Bool) (op cls first cnt : Nat) : Nat :=
  let rs := (List.range cnt).map (fun k => first + k)
  let leaving := fun (p : Nat) => perRegion p * (rs.filter (fun r => (ch.hbmRegion r).cls == p)).length
  if kport != (op == 3 || op == 4 || op == 5) then 4
  else if cnt = 0 ∨ 24576 < first + cnt then 1
  else if !(rs.all (fun r => regionAccepts op (ch.hbmRegion r).st && (op != 0 || ch.hbmGrp (r / 3072) == 2))) then 2
  else if op = 1 ∧ [1, 2, 3, 4].any (fun p => p != cls && leaving p != 0 && decide (ch.poolStays p - leaving p < ch.poolRsv p)) then 3
  else 0

/-- A write of REGION_CMD or KREGION_CMD with GO = 1 (R430, R448). -/
def regionHook (kport : Bool) : Hook := fun w ch =>
  let op := fld w.v 30 28
  let cls := fld w.v 27 25
  let stat := if kport then CADDY.KREGION_STAT else CADDY.REGION_STAT
  let cnt := ch.getF pgCaddy (if kport then CADDY.KREGION_CNT_COUNT else CADDY.REGION_CNT_COUNT)
  let c1 := ch.put w.p w.off w.merged
  if bit w.v 31 = false then c1
  else if (op = 0 ∨ op = 1) ∧ ¬ (1 ≤ cls ∧ cls ≤ 4) then ch.rejectWrite w.p w.off
  else
    let first := fld w.v 14 0
    let res := c1.regionResult kport op cls first cnt
    let c2 := if res = 0 then c1.each ((List.range cnt).map (fun k => first + k)) (fun c r => c.regionOp op cls r)
      else if res = 3 then c1.caddyRefuse 1 else c1
    (c2.putN pgCaddy stat (2 ^ 30 + res * 2 ^ 16)).raise pgCaddy 12

/-- The write that issues a region command. -/
def State.regionCmd (s : State) (r : Req) (c : Fin 4) (kport : Bool) (op cls first : Nat) : State :=
  s.chanWrite (regionHook kport) true r c pgCaddy (if kport then CADDY.KREGION_CMD else CADDY.REGION_CMD)
    (BitVec.ofNat 32 (2 ^ 31 + op * 2 ^ 28 + cls % 8 * 2 ^ 25 + first % 2 ^ 15))

/-- REGION_ASSIGN (R430). -/
def execRegionAssign (r : Req) (c : Fin 4) (kport : Bool) (cls first : Nat) (s : State) : Host.Outcome State Fault Refusal :=
  .next (s.regionCmd r c kport 0 cls first)

/-- REGION_MOVE (R430). -/
def execRegionMove (r : Req) (c : Fin 4) (kport : Bool) (cls first : Nat) (s : State) : Host.Outcome State Fault Refusal :=
  .next (s.regionCmd r c kport 1 cls first)

/-- REGION_CANCEL (R430). -/
def execRegionCancel (r : Req) (c : Fin 4) (kport : Bool) (first : Nat) (s : State) : Host.Outcome State Fault Refusal :=
  .next (s.regionCmd r c kport 2 0 first)

/-- REGION_FENCE (R430). -/
def execRegionFence (r : Req) (c : Fin 4) (kport : Bool) (first : Nat) (s : State) : Host.Outcome State Fault Refusal :=
  .next (s.regionCmd r c kport 3 0 first)

/-- REGION_UNFENCE (R430). -/
def execRegionUnfence (r : Req) (c : Fin 4) (kport : Bool) (first : Nat) (s : State) : Host.Outcome State Fault Refusal :=
  .next (s.regionCmd r c kport 4 0 first)

/-- REGION_RETIRE (R430, R431). -/
def execRegionRetire (r : Req) (c : Fin 4) (kport : Bool) (first : Nat) (s : State) : Host.Outcome State Fault Refusal :=
  .next (s.regionCmd r c kport 5 0 first)

/-- REGION_PURGE (R430). -/
def execRegionPurge (r : Req) (c : Fin 4) (kport : Bool) (first : Nat) (s : State) : Host.Outcome State Fault Refusal :=
  .next (s.regionCmd r c kport 6 0 first)

/-- A write of CADDY.REGION_RD_IDX loads REGION_RD (R447, R448). -/
def regionRdHook : Hook := fun w ch =>
  let r := fld w.v 14 0
  let x := ch.hbmRegion r
  (ch.put w.p w.off w.merged).putN pgCaddy CADDY.REGION_RD
    (x.st * 2 ^ 29 + x.cls * 2 ^ 26 + x.next * 2 ^ 23 + ch.regionUsed r)

/-- REGION_RD_IDX_WRITE (R447). -/
def execRegionRdIdxWrite (r : Req) (c : Fin 4) (region : Nat) (s : State) : Host.Outcome State Fault Refusal :=
  .next (s.chanWrite regionRdHook true r c pgCaddy CADDY.REGION_RD_IDX (BitVec.ofNat 32 (region % 2 ^ 15)))

/-! Accounts (R420, R421, R443, R449). -/

/-- A write of CADDY.ACCT_POOL to the selected account and pool (R421). -/
def acctPoolHook : Hook := fun w ch =>
  let a := ch.getF pgCaddy CADDY.ACCT_SEL_ACCOUNT
  let p := ch.getF pgCaddy CADDY.ACCT_SEL_POOL
  let x := ch.acctPool a p
  let rsv := fld w.v 27 0
  if 10 < fld w.v 31 28 then ch.rejectWrite w.p w.off
  else if ch.poolTotal p < ch.poolRsv p - x.rsv + rsv then ch.caddyRefuse 1
  else ch.putAcctPool a p { x with alpha := fld w.v 31 28, rsv := rsv }

/-- ACCT_POOL_WRITE (R421). -/
def execAcctPoolWrite (r : Req) (c : Fin 4) (v : Word) (s : State) : Host.Outcome State Fault Refusal :=
  .next (s.chanWrite acctPoolHook true r c pgCaddy CADDY.ACCT_POOL v)

/-- A write of CADDY.ACCT_CFG: PART while CLOSED, OPEN, CLOSE (R443, R449). -/
def acctCfgHook : Hook := fun w ch =>
  let a := ch.getF pgCaddy CADDY.ACCT_SEL_ACCOUNT
  let x := ch.acct a
  if fld w.v 20 16 ≠ x.part ∧ x.st ≠ 0 then ch.caddyRefuse 2
  else
    let y : Acct := { x with part := fld w.v 20 16 }
    let z : Acct := if bit w.v 29 then { y with st := 1 } else y
    let c1 := ch.putAcct a z
    if bit w.v 28 ∧ z.st = 1 then (c1.putAcct a { z with st := 2 }).acctSettle a else c1

/-- ACCT_OPEN (R443). -/
def execAcctOpen (r : Req) (c : Fin 4) (part : Nat) (s : State) : Host.Outcome State Fault Refusal :=
  .next (s.chanWrite acctCfgHook true r c pgCaddy CADDY.ACCT_CFG (BitVec.ofNat 32 (2 ^ 29 + part % 32 * 2 ^ 16)))

/-- ACCT_CLOSE (R443). -/
def execAcctClose (r : Req) (c : Fin 4) (part : Nat) (s : State) : Host.Outcome State Fault Refusal :=
  .next (s.chanWrite acctCfgHook true r c pgCaddy CADDY.ACCT_CFG (BitVec.ofNat 32 (2 ^ 28 + part % 32 * 2 ^ 16)))

/-! Queue readout and flush (R444, R450). -/

/-- The queue that a Q_SEL value names. -/
def qSelKey (w : Word) : Nat :=
  if bit w 20 then egQueue (fld w 18 0) else if bit w 19 then mcQueue (fld w 2 0) else fld w 18 0

/-- A write of VOQ.Q_SEL loads the readout of the queue (R450). -/
def qSelHook : Hook := fun w ch =>
  let c0 := ch.place (qSelKey w.v)
  let q := c0.que (qSelKey w.v)
  let age := match q.ents with
    | e :: _ => min ((ch.ns - e.local_) / 1000) (2 ^ 24 - 1)
    | [] => 0
  ((((c0.put w.p w.off w.merged).put64 pgVoq VOQ.Q_BYTES q.depth).putN pgVoq VOQ.Q_PKTS q.ents.length).putN pgVoq VOQ.Q_STAT
    (b2n q.hbm * 2 ^ 31 + age))

/-- Q_SEL_WRITE (R450). -/
def execQSelWrite (r : Req) (c : Fin 4) (v : Word) (s : State) : Host.Outcome State Fault Refusal :=
  .next (s.chanWrite qSelHook true r c pgVoq VOQ.Q_SEL v)

/-- The queued packets that a flush selects (R444): from which queues, and which entries. -/
def Chan.flushTest (ch : Chan) (op a0 a1 : Nat) : (Nat → Bool) × (QEnt → Bool) :=
  if op = 0 then (fun q => decide (a0 % 2 ^ 19 ≤ q) && decide (q < a0 % 2 ^ 19 + a1) && decide (q < 0x80000), fun _ => true)
  else if op = 1 then (fun _ => true, fun e => (ch.buf e.handle).owner == a0 % 4096)
  else (fun _ => true, fun e => (ch.acct (ch.buf e.handle).owner).part == a0 % 32)

/-- A write of VOQ.FLUSH_CMD with GO = 1 starts a flush and removes the packets it selects (R444). -/
def flushHook : Hook := fun w ch =>
  if bit w.v 31 = false ∨ ch.getB pgVoq VOQ.FLUSH_STAT_BUSY then ch
  else if fld w.v 30 29 = 3 then ch.rejectWrite w.p w.off
  else
    let op := fld w.v 30 29
    let t := ch.flushTest op (ch.nat pgVoq VOQ.FLUSH_ARG0) (ch.nat pgVoq VOQ.FLUSH_ARG1)
    let r := ch.discardWhere t.1 t.2
    let c1 := (r.1.inc pgVoq VOQ.FLUSH_CNT r.2).putN pgVoq VOQ.FLUSH_STAT (2 ^ 31)
    { c1 with cad := { c1.cad with flush := some (op, r.2) } }

/-- The write that starts a flush. -/
def State.flushCmd (s : State) (r : Req) (c : Fin 4) (op : Nat) : State :=
  s.chanWrite flushHook true r c pgVoq VOQ.FLUSH_CMD (BitVec.ofNat 32 (2 ^ 31 + op * 2 ^ 29))

/-- FLUSH_RANGE (R444). -/
def execFlushRange (r : Req) (c : Fin 4) (s : State) : Host.Outcome State Fault Refusal := .next (s.flushCmd r c 0)

/-- FLUSH_ACCOUNT (R444). -/
def execFlushAccount (r : Req) (c : Fin 4) (s : State) : Host.Outcome State Fault Refusal := .next (s.flushCmd r c 1)

/-- FLUSH_PARTITION (R444). -/
def execFlushPartition (r : Req) (c : Fin 4) (s : State) : Host.Outcome State Fault Refusal := .next (s.flushCmd r c 2)

/-- FLUSH_COMPLETE (R444): the flush finishes and raises FLUSH_DONE. -/
def execFlushComplete (c : Fin 4) (s : State) : Host.Outcome State Fault Refusal :=
  .next (s.onLive c (fun ch =>
    match ch.cad.flush with
    | none => ch
    | some (op, n) =>
      let c1 := { ch with cad := { ch.cad with flush := none } }
      ((c1.putN pgVoq VOQ.FLUSH_STAT (2 ^ 30)).raise pgVoq 8).journal pgVoq clsNone 1 (op + n * 2 ^ 32)))

/-- HOLD_WINDOW_EXPIRY (R439): HOLD_MS has elapsed in HOLDING; the window keeps the HOLD_MS of its oper-down (R440). -/
def execHoldWindowExpiry (c : Fin 4) (port : Nat) (s : State) : Host.Outcome State Fault Refusal :=
  .next (s.onLive c (fun ch =>
    if port < 64 ∧ ch.holdState port = 1 then
      (ch.runTo ((ch.pw port).downAt + (ch.pw port).holdMs * 1000000)).holdDiscard port
    else ch))

end Sys2Proof.Machine
end

