-- ==== Sys2Proof/Machine/Strainer.lean ====
section
/-! DEFINITION. The Strainer: distribution (R330–R333), a stage with its ops (R334–R349), the verdict, the packet context, the
edits and the copies (R341, R345–R347, R352–R354). -/

namespace Sys2Proof.Machine

/-! Distribution (R330, R332). -/

/-- The pipelines of a direction that take packets. -/
def Chan.usablePipes (ch : Chan) (egress : Bool) : List Nat :=
  ((List.range 6).map (fun i => (if egress then 6 else 0) + i)).filter (fun i =>
    ch.enabled (pipePg i) && !(ch.getB (pipePg i) STAT_BUSY))

/-- A packet enters a pipeline. -/
def Chan.pipeEnter (ch : Chan) (i : Nat) (x : Parsed) : Chan :=
  let home := pgStrn (strnHome x.pkt.egress)
  let c1 := if resultDisp x.result = 2 then
      (ch.inc home (STRN.PARSE_FAULT_CNT (resultCode x.result))).raise (pipePg i) 12
    else ch
  let c2 := ((c1.inc64 (pipePg i) STRN.IN_PKTS).tally (pipePg i) 0x10).putPipe i
    (ch.pipe i ++ [{ pkt := x.pkt, ord := ch.strn.entered, src := srcOf x }])
  { c2 with strn := { c2.strn with entered := ch.strn.entered + 1 } }

/-- The packets enter the pipelines of the list, one each; which one takes which packet is a free value (R330, log 6). -/
def Chan.spread (ch : Chan) : List Nat → List Parsed → Chan
  | _, [] => ch
  | us, x :: l => match pickOf (ch.freeVal 32) us with
    | some i => (ch.takeFree.pipeEnter i x).spread (us.erase i) l
    | none => ch

/-- The distributor moves up to 6 of the oldest entries of a direction's queue, one into each usable pipeline; with none, they are
dropped as DISABLED. None moves until a brew is current (R188). -/
def Chan.distribute (ch : Chan) (egress : Bool) : Chan :=
  let q := if egress then ch.strn.qEg else ch.strn.qIn
  let us := ch.usablePipes egress
  let home := pgStrn (strnHome egress)
  let put := fun (c : Chan) (l : List Parsed) =>
    if egress then { c with strn := { c.strn with qEg := l } } else { c with strn := { c.strn with qIn := l } }
  if ch.brewCurrent = false then ch
  else if us.isEmpty then
    let n := min 6 q.length
    if n = 0 then ch else ((put ch (q.drop 6)).inc64 home STRN.IN_FULL_DROP n).raise home 8
  else (put ch (q.drop us.length)).spread us (q.take us.length)

/-- STRAINER_DISTRIBUTE (R330). -/
def execStrainerDistribute (c : Fin 4) (egress : Bool) (s : State) : Host.Outcome State Fault Refusal :=
  .next (s.onLive c (fun ch => ch.distribute egress))

/-! The ops of a profile (R338–R340). -/

/-- What a stage carries through its profile: the channel, the packet, whether a COUNT and a POLICE have run, and the GOTO. -/
structure OpSt where
  ch : Chan
  x : InPipe
  counted : Bool := false
  policed : Bool := false
  goto_ : Option (Nat × Option Nat) := none

/-- What is decided for the accesses of a stage (R348, R349): the lookup, the COUNT and the POLICE of an egress stage are abandoned;
freeze cycles on ingress; replayed accesses; an LPM lookup reads a lost line; a configuration word fails its ECC. -/
structure StageIn where
  lookLate : Bool := false
  countLate : Bool := false
  policeLate : Bool := false
  freeze : Nat := 0
  replays : Nat := 0
  lpmBad : Bool := false
  cfgErr : Option Nat := none
deriving DecidableEq, Repr

/-- The value V of an op (R338). -/
def opValue (op : Nat) (w : Nat) (x : InPipe) (res : List Byte) : Nat :=
  let imm := nbits op 31 0
  let src := nbits op 57 56
  if src = 0 then imm % 2 ^ w
  else if src = 1 then bitsAt res (imm % 1024) w
  else x.bits (imm % 1024) w

/-- A reason taken at run time: one that its op cannot carry is an open value among those it can (log 6). -/
def Chan.reasonOf (ch : Chan) (v : Nat) : Chan × Nat :=
  if 1 ≤ v ∧ v ≤ 0xEF then (ch, v) else (ch.takeFree, 1 + ch.freeVal 16 % 0xEF)

/-- COUNT (R344). -/
def OpSt.count (s : OpSt) (i : StageIn) (pipe stage p a v : Nat) : OpSt :=
  if s.counted then { s with ch := s.ch.tally (pipePg pipe) 0x16 (stageAttr stage) }
  else
    let s1 := { s with counted := true }
    match s.ch.opEntry (a % 256) v 1 with
    | none => s1
    | some r =>
      if i.countLate ∧ 6 ≤ pipe then { s1 with ch := s.ch.replayFail pipe stage }
      else match r with
        | none => { s1 with x := s.ch.opEcc pipe (a % 256) s.x }
        | some e =>
          let b := beBytes 16 e
          let n := s.x.pkt.len + if nbit p 2 then 20 else 0
          let k := p % 4
          let pk := if k = 2 then leAt b 0 8 else (leAt b 0 8 + 1) % 2 ^ 64
          let by_ := if k = 1 then leAt b 8 8 else (leAt b 8 8 + n) % 2 ^ 64
          { s1 with ch := s.ch.dirPut (a % 256) v (beNat (leBytes 8 pk ++ leBytes 8 by_)) }

/-- POLICE (R343, R349). -/
def OpSt.police (s : OpSt) (i : StageIn) (pipe stage p a v : Nat) (rfDrop : Bool) : OpSt :=
  if s.policed then { s with ch := s.ch.tally (pipePg pipe) 0x16 (stageAttr stage) }
  else
    let s1 := { s with policed := true }
    match s.ch.opEntry (a % 256) v 2 with
    | none => s1
    | some entry =>
      if i.policeLate ∧ 6 ≤ pipe then
        { s1 with ch := s.ch.replayFail pipe stage, x := if rfDrop then s.x.drop rsnReplayFail else s.x.setBits 640 2 0 }
      else match entry with
      | none => { s1 with x := s.ch.opEcc pipe (a % 256) s.x }
      | some e =>
        let n := s.x.pkt.len + if nbit p 3 then 20 else 0
        let m := (s.ch.meterOf (a % 256) v e).refill (s.ch.ns % 2 ^ 48)
        let r := m.police n (if nbit p 0 then min s.x.colour 2 else 0)
        let y := s.x.setBits 640 2 r.2
        let z := if (r.2 = 2 ∧ nbit p 1 = true) ∨ (r.2 = 1 ∧ nbit p 2 = true) then y.drop rsnPolicer else y
        { s1 with ch := s.ch.meterPut (a % 256) v r.1, x := z }

/-- SET_DEST (R339). -/
def InPipe.setDest (x : InPipe) (p v : Nat) : InPipe :=
  if p % 4 = 0 then (x.setBits 672 16 v).setBits 662 2 1
  else if p % 4 = 1 then (x.setBits 672 16 v).setBits 662 2 2
  else ((x.setBits 672 16 (v / 8)).setBits 662 2 1).setBits 642 3 v

/-- MIRROR: the packet names a session (R352, R353). -/
def OpSt.mirror (s : OpSt) (n : Nat) : OpSt :=
  if s.ch.enabled pgSamp = false ∨ s.x.mirrors.contains n then s
  else if 2 ≤ s.x.mirrors.length then { s with ch := (s.ch.inc pgSamp SAMP.COPY_LIMIT).raise pgSamp 8 }
  else { s with x := { s.x with mirrors := s.x.mirrors ++ [n] } }

/-- SAMPLE: the packet names a sampler (R352, R354). -/
def OpSt.sample (s : OpSt) (n : Nat) : OpSt :=
  if s.ch.enabled pgSamp = false ∨ s.x.samplers.contains n then s
  else if 4 ≤ s.x.samplers.length then { s with ch := (s.ch.inc pgSamp SAMP.COPY_LIMIT).raise pgSamp 8 }
  else
    let y := { s.x with samplers := s.x.samplers ++ [n] }
    if s.ch.getB pgSamp (SAMP.CFG_EN n) then
      let r := s.ch.sampleCand n
      { s with ch := r.1, x := if r.2 then { y with sel := y.sel ++ [n] } else y }
    else { s with x := y }

/-- PTP (R144, R347). -/
def OpSt.ptp (s : OpSt) (p a v : Nat) : OpSt :=
  if nbit p 0 = false ∨ s.ch.tcOn s.x.pkt.port = false then s
  else if s.x.pkt.egress then
    if nbit (s.x.pkt.ctxByte 9) 4 then
      { s with x := { s.x with ptp := some (v % 512, a % 512, nbit p 1), tcDrop := s.ch.tcDrops } }
    else s
  else { s with x := { s.x with ptpTc := true, tcDrop := s.ch.tcDrops } }

/-- EDIT (R346). -/
def InPipe.edit (x : InPipe) (p a w v : Nat) : InPipe :=
  let kind := p % 4
  if 8 ≤ x.edits.length ∨ 384 < a % 512 + w ∨ (kind ≠ 2 ∧ 64 < v + w) then x.drop rsnEditLimit
  else { x with edits := x.edits ++ [⟨kind, a % 512, v, w⟩] }

/-- One op of a profile. -/
def OpSt.run (s : OpSt) (i : StageIn) (pipe stage : Nat) (rfDrop : Bool) (res : List Byte) (op : Nat) : OpSt :=
  let o := nbits op 63 58
  let p := nbits op 55 48
  let w := nbits op 47 42 + 1
  let a := nbits op 41 32
  let v := opValue op (if o = 0x0D then 6 else w) s.x res
  if o = 0x01 then { s with x := s.x.setBits a w v }
  else if o = 0x02 then { s with goto_ := some (p % 16, if nbit p 7 then some v else none) }
  else if o = 0x03 then s.count i pipe stage p a v
  else if o = 0x04 then s.police i pipe stage p a v rfDrop
  else if o = 0x05 then { s with x := s.x.setDest p v }
  else if o = 0x06 then { s with x := s.x.setBits 642 3 v }
  else if o = 0x07 then { s with x := s.x.setBits 640 2 (min v 2) }
  else if o = 0x08 then s.mirror v
  else if o = 0x09 then s.sample v
  else if o = 0x0A then
    let r := s.ch.reasonOf v
    if nbit p 7 then { s with ch := r.1, x := { s.x with puntCopies := s.x.puntCopies ++ [(p % 8, r.2)] } }
    else { s with ch := r.1, x := { s.x with punt := some (s.x.punt.getD (p % 8, r.2)) } }
  else if o = 0x0B then
    let r := s.ch.reasonOf v
    { s with ch := r.1, x := s.x.drop r.2 }
  else if o = 0x0C then s.ptp p a v
  else if o = 0x0D then { s with x := s.x.edit p a w v }
  else s

/-- The ops of a profile up to END (R340). -/
def profileOps (ops : List Nat) : List Nat := ops.takeWhile (fun o => nbits o 63 58 != 0)

/-! A stage (R334–R337, R349, R359). -/

/-- Freeze cycles of the six ingress pipelines (R349, R366). -/
def Chan.freeze (ch : Chan) (n : Nat) : Chan :=
  if n = 0 then ch
  else ch.each (List.range 6) (fun c i =>
    let p := pipePg i
    (((c.inc64 p STRN.FREEZE_CYCLES n).raise p 9).tally p 0x13 {} n).journalSec p clsDegraded 1 0 0 1 n 12800000)

/-- The key of a stage (R334). -/
def Chan.stageKey (ch : Chan) (pipe bank stage klen : Nat) (x : InPipe) : List Byte :=
  let sel := ch.stageBytes pipe bank stage 0x008 klen
  let msk := ch.stageBytes pipe bank stage 0x048 klen
  (sel.zip msk).map (fun e => BitVec.ofNat 8 (Nat.land ((x.src.getD (e.1.toNat % 128) 0).toNat) e.2.toNat))

/-- Offsets of the configuration words a stage reads before its profile is known. -/
def stageReads (klen : Nat) : List Nat :=
  0 :: (List.range ((klen + 7) / 8)).flatMap (fun k => [0x008 + 8 * k, 0x048 + 8 * k])

/-- Offsets of a profile's ops. -/
def profileReads (prof : Nat) : List Nat := (List.range 8).map (fun j => 0x100 + 64 * prof + 8 * j)

/-- The packet is dropped on a poisoned configuration word, and passes no further stage (R359). -/
def InPipe.cfgDrop (x : InPipe) : InPipe := { x.drop rsnConfigEcc with next := 12 }

/-- The stage's table access and profile for a packet that runs it. -/
def Chan.runStage (ch : Chan) (i : StageIn) (pipe stage : Nat) (x : InPipe) : Chan × InPipe :=
  let bank := x.pkt.parity
  let ctrl := ch.stageWord pipe bank stage 0 4
  let kind := nbits ctrl 29 27
  let klen := nbits ctrl 15 8
  let next := ch.stageWord pipe bank stage 4 4 % 16
  let rfDrop := nbit ctrl 26
  let x0 := { x with ran := setNbit x.ran stage true, tblOvr := none }
  if (stageReads klen).any (fun o => ch.cfgBad pipe bank stage o) then (ch, x0.cfgDrop)
  else
    let id := x.tblOvr.getD (nbits ctrl 23 16)
    let key := ch.stageKey pipe bank stage klen x
    let replayed := if i.replays = 0 then ch else
      (ch.inc64 (pipePg pipe) STRN.REPLAYS i.replays).tally (pipePg pipe) 0x12 (stageAttr stage) i.replays
    let c0 := if pipe < 6 then replayed.freeze i.freeze else replayed
    let late := decide (6 ≤ pipe) && i.lookLate && decide (kind ≠ 0) && decide (kind ≠ 3)
    -- the outcome: result data, and the profile (none: no profile runs)
    let r : Chan × InPipe × List Byte × Option Nat :=
      if kind = 0 then (c0, x0, [], some (nbits ctrl 5 0))
      else
        let c1 := c0.tally (pipePg pipe) 0x11 (stageAttr stage)
        let missed := fun (c : Chan) (y : InPipe) => (c.inc (pipePg pipe) (STRN.STAGE_MISS stage), y.setBits 649 1 0, [], some (nbits ctrl 5 0))
        if late then
          let c2 := c1.replayFail pipe stage
          if rfDrop then (c2.inc (pipePg pipe) (STRN.STAGE_MISS stage), (x0.setBits 649 1 0).drop rsnReplayFail, [], none) else missed c2 x0
        else match c1.stageLookup pipe stage x0 kind id klen key i.lpmBad with
          | (c2, .hit res) =>
            (c2.inc (pipePg pipe) (STRN.STAGE_HIT stage), { x0.setBits 649 1 1 with hits := setNbit x0.hits stage true }, res,
              some ((res.headD 0).toNat % 64))
          | (c2, .miss) => missed c2 x0
          | (c2, .ecc) =>
            let t := (if kind = 1 then (ch.emTable id).1 else id)
            let pol := ch.tdef t TBL.TDEF_CFG_POLICY
            let y := (x0.setBits 649 1 0).setBits 661 1 1
            let c3 := c2.inc (pipePg pipe) (STRN.STAGE_MISS stage)
            if pol = 2 then
              (c3, { y with punt := some (y.punt.getD (ch.getF (pipePg pipe) STRN.CFG_FAULT_RING, rsnTableEcc)) }, [], none)
            else if pol = 1 then (c3, y, [BitVec.ofNat 8 (ch.tdef t TBL.TDEF_CFG_DEFAULT_PROFILE)], some (nbits ctrl 5 0))
            else (c3, y, [], some (nbits ctrl 5 0))
    match r with
    | (c2, y, _, none) => (c2, { y with next := next })
    | (c2, y, res, some prof) =>
      if (profileReads prof).any (fun o => c2.cfgBad pipe bank stage o) then (c2, y.cfgDrop)
      else
        let ops := profileOps ((List.range 8).map (fun j => c2.stageWord pipe bank stage (0x100 + 64 * prof + 8 * j) 8))
        let s := ops.foldl (fun (s : OpSt) o => s.run i pipe stage rfDrop res o) { ch := c2, x := y }
        match s.goto_ with
        | some g => (s.ch, { s.x with next := g.1, tblOvr := g.2 })
        | none => (s.ch, { s.x with next := next })

/-- A packet passes its next stage: a stage with EN = 0, or one that a FAULT packet does not run, is skipped, and its NEXT applies. -/
def Chan.passStage (ch : Chan) (i : StageIn) (pipe : Nat) (x : InPipe) : Chan × InPipe :=
  let stage := x.next
  let bank := x.pkt.parity
  if 12 ≤ stage then (ch, x)
  else
    let c1 := match i.cfgErr with
      | some o => if o < stageLen then ch.cfgPoison pipe bank stage o else ch
      | none => ch
    let ctrl := c1.stageWord pipe bank stage 0 4
    if c1.cfgBad pipe bank stage 0 then (c1, x.cfgDrop)
    else if nbit ctrl 31 = false ∨ (x.fault = true ∧ nbit ctrl 30 = false) then
      (c1, { x with next := c1.stageWord pipe bank stage 4 4 % 16, tblOvr := none })
    else c1.runStage i pipe stage x

/-- STRAINER_STAGE (R335): the packet at position `pos` of a pipeline passes its next stage. -/
def execStrainerStage (c : Fin 4) (pipe pos : Nat) (lookLate countLate policeLate lpmBad : Bool) (freeze replays : Nat)
    (cfgErr : Option Nat) (s : State) : Host.Outcome State Fault Refusal :=
  .next (s.onLive c (fun ch =>
    let l := ch.pipe pipe
    match l[pos]? with
    | none => ch
    | some x =>
      let r := ch.passStage ⟨lookLate, countLate, policeLate, freeze, replays, lpmBad, cfgErr⟩ pipe x
      r.1.putPipe pipe (l.set pos r.2)))

/-! The end of a pipeline (R341, R345, R346, R352–R356). -/

/-- The packet context that an ingress packet receives (R345). -/
def InPipe.context (x : InPipe) : List Byte :=
  let k := x.pkt
  sliceBytes x.src 72 8
    ++ beBytes 1 (x.colour * 64 + x.tc * 8 + k.parity * 4 + b2n (decide (x.destKind = 2)) * 2)
    ++ beBytes 1 (k.frac % 8 * 32 + b2n x.ptpTc * 16 + b2n k.injected * 8)
    ++ beBytes 2 x.dest ++ beBytes 1 (k.port % 64) ++ beBytes 1 (k.part % 32 * 8) ++ beBytes 2 (k.len % 2 ^ 14)
    ++ beBytes 2 (x.bits 740 12) ++ beBytes 2 0 ++ sliceBytes x.src 88 4 ++ beBytes 8 0 ++ sliceBytes x.src 96 32

/-- One edit applied to the packet without its FCS (R346). -/
def Edit.apply (e : Edit) (carry : List Byte) (bs : List Byte) : List Byte :=
  let new := sliceBytes carry e.from_ e.len
  if e.kind = 0 then bs.take e.off ++ new.take (bs.length - e.off) ++ bs.drop (e.off + e.len)
  else if e.kind = 1 then bs.take e.off ++ new ++ bs.drop e.off
  else bs.take e.off ++ bs.drop (e.off + e.len)

/-- The egress packet as edited, without its FCS (R346). -/
def InPipe.edited (x : InPipe) : List Byte :=
  x.edits.foldl (fun bs e => e.apply (sliceBytes x.src 0 64) bs) (x.pkt.bytes.take (x.pkt.len - 4))

/-- Zero bytes fill a packet up to 60 bytes before the FCS (R346). -/
def padded (bs : List Byte) : List Byte := bs ++ List.replicate (60 - bs.length) 0

/-- Pad, and append the FCS (R346). -/
def frameOf (bs : List Byte) : List Byte := withFcs (padded bs)

/-- The context of a mirror copy (R353). -/
def mirrorCtx (ctx : List Byte) (kind tc dest acct : Nat) : List Byte :=
  let b8 := beAt ctx 8 1
  sliceBytes ctx 0 8 ++ beBytes 1 (min 2 (b8 / 64) * 64 + tc * 8 + b8 / 4 % 2 * 4 + kind * 2 + 1) ++ sliceBytes ctx 9 1 ++ beBytes 2 dest
    ++ sliceBytes ctx 12 4 ++ beBytes 2 (beAt ctx 16 2 / 4096 * 4096 + acct % 4096) ++ sliceBytes ctx 18 46

/-- Copies waiting behind the mirror engine (R352). -/
def Chan.mirrorWaiting (ch : Chan) : Nat := (ch.cad.reqs.filter (fun r => r.pkt.mirror)).length

/-- A mirror copy of a packet (R353). -/
def Chan.mirrorCopy (ch : Chan) (x : InPipe) (pipe m : Nat) (dropped : Bool) (data : List Byte) : Chan :=
  if ch.getB pgSamp (SAMP.MCFG_EN m) = false ∨ (dropped && !(ch.getB pgSamp (SAMP.MCFG_ON_DROP m))) then ch
  else if 512 ≤ ch.mirrorWaiting then
    ((ch.inc pgSamp SAMP.COPY_LOSS).raise pgSamp 9).journalSec pgSamp clsContained 3 0 0 1
  else
    let ctx := if x.pkt.egress then x.pkt.ctx else x.context
    let k := { x.pkt with
      bytes := if x.pkt.egress then withFcs data else data, egress := false, mirror := true,
      ctx := mirrorCtx ctx (ch.getF pgSamp (SAMP.MCFG_KIND m)) (ch.getF pgSamp (SAMP.MCFG_TC m)) (ch.getF pgSamp (SAMP.MCFG_DEST m))
        (ch.getF pgSamp (SAMP.MACCT_ACCOUNT m)) }
    let c1 := ch.inc pgSamp (SAMP.MCOPIES m)
    { c1 with cad := { c1.cad with reqs := c1.cad.reqs ++ [{ requester := if x.pkt.egress then 7 else pipe, pkt := k }] } }

/-- A sample of a packet (R354). -/
def Chan.sampleCopy (ch : Chan) (x : InPipe) (n drop : Nat) (data : List Byte) : Chan :=
  if drop ≠ 0 ∧ ch.getB pgSamp (SAMP.CFG_ON_DROP n) = false then ch
  else
    let ring := ch.getF pgSamp (SAMP.CFG_RING n)
    let cap := (ch.getF pgSamp (SAMP.CFG_TRUNC n) + 1) * 64
    (ch.inc pgSamp (SAMP.TAKEN n)).sendRec (ch.getF pgSamp (SAMP.CFG_PART n)) ring x.pkt.t64
      (x.record x.pkt.egress rsnSample n drop ring data cap)

/-- The copies that the packet has named, after its verdict (R341, R352). -/
def Chan.copies (ch : Chan) (x : InPipe) (pipe drop : Nat) (data : List Byte) : Chan :=
  let c1 := ch.each x.mirrors (fun c m => c.mirrorCopy x pipe m (decide (drop ≠ 0)) data)
  let c2 := c1.each x.sel (fun c n => c.sampleCopy x n drop data)
  if drop ≠ 0 then c2 else c2.each x.puntCopies (fun c e => c.puntTo x x.pkt.egress e.1 e.2 0 data)

/-- A drop at the verdict. -/
def Chan.verdictDrop (ch : Chan) (pipe reason tc : Nat) : Chan :=
  let p := pipePg pipe
  let c1 := ((ch.inc64 p STRN.DROP_PKTS).inc p (STRN.DROP_CNT reason)).tally p 0x14 { priv := some 0, cls := some tc }
  if reason = rsnNoDest then c1.raise p 11 else c1

/-- A packet punted instead of forwarded. -/
def Chan.verdictPunt (ch : Chan) (x : InPipe) (pipe ring reason : Nat) (data : List Byte) : Chan :=
  ((ch.inc64 (pipePg pipe) STRN.PUNT_PKTS).tally (pipePg pipe) 0x15).puntTo x x.pkt.egress ring reason 0 data

/-- A frame reaches the MAC FIFO of its port: a port that is down drops it (R31, R216), and one that comes after its launch instant
is late (R473). -/
def Chan.macPut (ch : Chan) (k : Pkt) : Chan :=
  let p := k.port
  if ch.oper p = false ∨ k.downs ≠ (ch.pw p).downs then ch.portInc p LINE.TX_DOWN_DROP
  else
    let w := ch.pw p
    ch.putPw p { w with mac := w.mac ++ [.data k (decide (k.launch < ch.time * 1000 / 65536))] }

/-- The Phota bridge works on both dies (R59). -/
def Chan.bridged (ch : Chan) : Bool := ch.enabled (pgBrdg 0) && ch.enabled (pgBrdg 1)

/-- The verdict of a packet at the end of its pipeline (R341). `full` says that its bridge module's transmit queue is full (R580). -/
def Chan.verdict (ch : Chan) (x : InPipe) (pipe : Nat) (full : Bool) : Chan :=
  let egress := x.pkt.egress
  let body := x.edited
  let y := if egress && decide (x.pkt.len + 128 < (frameOf body).length) then x.drop rsnEditLimit else x
  let data := if egress then padded body else x.pkt.bytes
  let p := pipePg pipe
  if y.tcDrop then ch.incRaise pgCosy COSY.TC_DROP_CNT 19
  else
    let done := fun (c : Chan) (drop : Nat) => c.copies (if drop = 0 then y else y.drop drop) pipe drop data
    if y.dropReason ≠ 0 then done (ch.verdictDrop pipe y.dropReason y.tc) y.dropReason
    else match y.punt with
      | some e => done (ch.verdictPunt y pipe e.1 e.2 data) 0
      | none =>
        if egress then
          let k := { x.pkt with
            bytes := frameOf body, ptp := y.ptp }
          done ((ch.inc64 p STRN.FWD_PKTS).macPut k) 0
        else if y.destKind = 1 ∨ y.destKind = 2 then
          if full || !(ch.bridged) then done ((((ch.inc (pgBrdg 0) BRDG.TX_DROP).raise (pgBrdg 0) 11).journalSec (pgBrdg 0) clsContained 5 0 0 1)) 0
          else
            let c1 := ch.inc64 p STRN.FWD_PKTS
            done { c1 with cad := { c1.cad with reqs := c1.cad.reqs ++ [{ requester := pipe, pkt := { x.pkt with ctx := y.context } }] } } 0
        else if y.fault then
          if ch.getB p STRN.CFG_FAULT_PUNT then done (ch.verdictPunt y pipe (ch.getF p STRN.CFG_FAULT_RING) rsnParseFault data) 0
          else done (ch.verdictDrop pipe rsnParseFault y.tc) rsnParseFault
        else done (ch.verdictDrop pipe rsnNoDest y.tc) rsnNoDest

/-- No packet that entered the pipelines of the same direction before `x` is still in one (R331). -/
def Chan.firstOut (ch : Chan) (x : InPipe) : Bool :=
  (List.range 12).all (fun i => (ch.pipe i).all (fun y => y.pkt.egress != x.pkt.egress || decide (x.ord ≤ y.ord)))

/-- STRAINER_VERDICT (R341): the oldest packet of a pipeline that has passed its last stage leaves in its turn (R331). -/
def execStrainerVerdict (c : Fin 4) (pipe : Nat) (full : Bool) (s : State) : Host.Outcome State Fault Refusal :=
  .next (s.onLive c (fun ch =>
    match ch.pipe pipe with
    | [] => ch
    | x :: l => if 12 ≤ x.next ∧ ch.firstOut x = true then (ch.putPipe pipe l).verdict x pipe full else ch))

/-! Register writes of these pages. -/

/-- A write of SAMP.CFG n: a change of EN starts or stops the sampler (R355, R366). -/
def sampCfgHook (n : Nat) : Hook := fun w ch =>
  let was := ch.getB pgSamp (SAMP.CFG_EN n)
  let c1 := ch.put w.p w.off w.merged
  let on := bit w.v 31
  if on = was then c1 else c1.samplerSet n on 0

/-- SOFT_RESET of a pipeline drops its packets with reason DISABLED; its configuration stays (R359). -/
def Chan.strnReset (ch : Chan) (i : Nat) : Chan :=
  let lost := ch.pipe i
  ch.putPipe i [] |>.each lost (fun c x => c.verdictDrop i rsnDisabled x.tc)

end Sys2Proof.Machine
end

