-- ==== Sys2Proof/Machine/Egress.lean ====
section
/-! DEFINITION. The egress scheduler (R456–R461, R475, R476), Spout's gate control lists (R462–R470, R477, R478), and the launch of
frames (R463, R471–R473). -/

namespace Sys2Proof.Machine

/-! Exit latency (R471, R472). -/

/-- E(p) in ps. -/
def Chan.exitLat (ch : Chan) (p : Nat) : Nat :=
  let tx := if ch.portKind p = 1 then txDelay (ch.portF p LINE.PORT_CFG_SPEED) (ch.portF p LINE.PORT_CFG_FEC)
    else if ch.portKind p = 2 then 600 else 0
  let e : Int := (((304 + ch.getF pgSpout SPOUT.CFG_EG_ALLOW) * 625 + tx * 100 : Nat) : Int)
    + toSigned (ch.getF pgSpout (SPOUT.PORT_CFG_EXIT_ADJ p)) 16 * 1000
  e.toNat

/-- Network time in ps. The copy of the TM die equals the FE die's: its offset within the stated ±2 ns is taken as 0 (DESIGN CHOICE, log 47;
R19). -/
def Chan.timePs (ch : Chan) : Nat := ch.time * 1000 / 65536

/-- Wire time of `n` bytes on a port, ps. -/
def Chan.wirePs (ch : Chan) (p n : Nat) : Nat := n * 8000000 / ch.operRate p

/-! Gate control lists (R466–R469). -/

/-- A gate control list. -/
def Chan.glist (ch : Chan) (n : Nat) : GateList := tget {} ch.sch.lists n

/-- Replace a gate control list. -/
def Chan.putGlist (ch : Chan) (n : Nat) (x : GateList) : Chan := { ch with sch := { ch.sch with lists := tput {} ch.sch.lists n x } }

/-- A bank of a list. -/
def GateList.bank (x : GateList) (b : Nat) : GateBank := if b = 0 then x.bank0 else x.bank1

/-- The list with a bank replaced. -/
def GateList.putBank (x : GateList) (b : Nat) (k : GateBank) : GateList := if b = 0 then { x with bank0 := k } else { x with bank1 := k }

/-- The admin bank. -/
def GateList.adm (x : GateList) : GateBank := x.bank (1 - x.oper)

/-- Nanoseconds of a T64 value. -/
def nsOfT64 (t : Nat) : Nat := t / 2 ^ 32 * 1000000000 + t % 2 ^ 32

/-- Mask and duration of an entry. -/
def GateBank.mask (k : GateBank) (i : Nat) : Nat := tget 0 k.ents i / 2 ^ 32

/-- Duration of an entry, ns. -/
def GateBank.dur (k : GateBank) (i : Nat) : Nat := tget 0 k.ents i % 2 ^ 32

/-- The entries of a cycle as spans, with start and end in the cycle (R466). -/
def GateBank.spans (k : GateBank) : List (Nat × Nat × Nat) :=
  ((List.range k.len).foldl (fun (r : List (Nat × Nat × Nat) × Nat) i =>
    let e := if i + 1 = k.len then max k.cycle r.2 else r.2 + k.dur i
    let stop := min e k.cycle
    (if r.2 < stop then r.1 ++ [(i, r.2, stop)] else r.1, e)) ([], 0)).1

/-- The entry in force at an instant of network time (ns), and the instant at which its span ends. -/
def GateBank.at_ (k : GateBank) (x : Nat) : Nat × Nat :=
  let ph := (((x : Int) - t64At k.base x) % ((k.cycle : Nat) : Int)).toNat
  match k.spans.find? (fun s => decide (s.2.1 ≤ ph) && decide (ph < s.2.2)) with
  | some s => (s.1, x + (s.2.2 - ph))
  | none => (0, x + 1)

/-- The last cycle boundary at or before an instant. -/
def GateBank.boundary (k : GateBank) (x : Nat) : Nat :=
  x - (((x : Int) - t64At k.base x) % ((k.cycle : Nat) : Int)).toNat

/-- S of a list's pending or last swap, ns near the instant `x`. -/
def GateList.startNear (l : GateList) (x : Nat) : Nat := t64Near (l.start / 2 ^ 32) (l.start % 2 ^ 32) x

/-- The entry of the operational bank in force before S, and until when: the last entry of the old list holds over a rest of its cycle that
its extension covers (R466, R469). -/
def GateList.running_ (l : GateList) (x : Nat) : Nat × Nat :=
  let k := l.bank l.oper
  let e := k.at_ x
  if l.pend then
    let s := l.startNear x
    let b := k.boundary s
    if s ≠ b ∧ s - b ≤ k.ext ∧ b ≤ x then (k.len - 1, s) else (e.1, min e.2 s)
  else e

/-- The gate states of a list at an instant of network time (ns), and until when they stand for sure (R467–R469). -/
def Chan.gateAt (ch : Chan) (n x : Nat) : Nat × Nat :=
  let l := ch.glist n
  let far := x + 2 ^ 40
  let init := l.init.toNat
  if bit l.cfg 31 = false then (2 ^ 32 - 1, far)
  else if ch.localTime && bit l.cfg 30 then (init, far)
  else if l.pend ∧ l.startNear x ≤ x then
    let e := l.adm.at_ x
    (l.adm.mask e.1, e.2)
  else if l.ecc ∨ l.running = false then (init, if l.pend then l.startNear x else far)
  else ((l.bank l.oper).mask (l.running_ x).1, (l.running_ x).2)

/-- A gate is open from an instant without a break until the instant answered; at most 16 following entries are scanned (R462). -/
def Chan.openUntil (ch : Chan) (n b : Nat) : Nat → Nat → Nat
  | 0, x => x
  | fuel + 1, x =>
    let g := ch.gateAt n x
    if nbit g.1 b then ch.openUntil n b fuel g.2 else x

/-- The next instant at which a gate opens (R463), within the entries of one cycle. -/
def Chan.nextOpen (ch : Chan) (n b : Nat) : Nat → Nat → Nat
  | 0, x => x
  | fuel + 1, x =>
    let g := ch.gateAt n x
    if nbit g.1 b then x else ch.nextOpen n b fuel g.2

/-- The longest unbroken open time of a bit of a bank, `none` when it is open throughout (R465), ns. -/
def GateBank.longestOpen (k : GateBank) (b : Nat) : Option Nat :=
  let sp := k.spans
  if sp.all (fun s => nbit (k.mask s.1) b) then none
  else
    some ((sp ++ sp).foldl (fun (r : Nat × Nat) s =>
      if nbit (k.mask s.1) b then
        let run := r.2 + (s.2.2 - s.2.1)
        (max r.1 run, run)
      else (r.1, 0)) (0, 0)).1

/-! Releasable queues (R462, R465). -/

/-- Preemption is active for a class of a port (R222, R462). -/
def Chan.preemptable (ch : Chan) (p tc : Nat) : Bool :=
  ch.portKind p == 1 && decide (ch.portF p LINE.PORT_CFG_SPEED ≤ 6) && !(ch.portB p LINE.PORT_CFG_FLEXE) && ch.portB p LINE.PREEMPT_CFG_EN && nbit (ch.portF p LINE.PREEMPT_CFG_PREEMPTABLE) tc
    && (ch.portF p LINE.PORT_STAT_VERIFY == 3 || ch.portB p LINE.PREEMPT_CFG_VERIFY_DIS)

/-- Bytes that a control frame may take in front of a frame: C of R462. -/
def Chan.guardBytes (ch : Chan) (p : Nat) : Nat :=
  if ch.portB p LINE.PFC_CFG_TX_EN ∨ nbit (tget ({} : PtpPort) ch.ctlNow.ports p).cfg 8 = true then 148 else 0

/-- D of a head frame on a port, ps (R462). -/
def Chan.frameSpan (ch : Chan) (p len tc : Nat) : Nat :=
  if ch.preemptable p tc then ch.wirePs p (64 * (1 + ch.portF p LINE.PREEMPT_CFG_ADD_FRAG_SIZE) + 24)
  else ch.wirePs p (len + 20 + ch.getF pgSpout (SPOUT.PORT_CFG_EDIT_ALLOW p) + ch.guardBytes p)

/-- The gate of a queue: list and bit. -/
def Node.gate (x : Node) : Option (Nat × Nat) := if nbit x.w6 31 then some (nbits x.w6 12 5, nbits x.w6 4 0) else none

/-- A queue's head frame may be released on port `p` now (R220, R462). -/
def Chan.releasable (ch : Chan) (p n : Nat) (e : QEnt) : Bool :=
  let tc := e.pc % 8
  ch.oper p && !(nbit (ch.portF p LINE.PORT_STAT_RX_PAUSED) tc) &&
    (match (ch.node n).gate with
      | none => true
      | some g =>
        let w := ch.timePs + ch.exitLat p
        let till := ch.openUntil g.1 g.2 17 (w / 1000)
        decide (w / 1000 < till) && decide (w + ch.frameSpan p e.len tc ≤ till * 1000))

/-- Head frames that can never be sent through their gate are dropped (R465). -/
def Chan.dropOversize (ch : Chan) (p n : Nat) : Nat → Chan
  | 0 => ch
  | fuel + 1 =>
    match (ch.node n).gate, (ch.que (egQueue n)).ents with
    | some g, e :: _ =>
      let l := ch.glist g.1
      if bit l.cfg 31 && l.running && !l.ecc && !(ch.preemptable p (e.pc % 8)) then
        match (l.bank l.oper).longestOpen g.2 with
        | some m =>
          if m * 1000 < ch.frameSpan p e.len (e.pc % 8) then
            let c1 := (ch.takeOut (egQueue n) (fun y => y == e)).hwFree e.handle
            let c2 := ((c1.inc pgSpout (SPOUT.OVERSIZE_DROP p)).raise pgSpout 10).tally pgSpout 0x11
            (c2.journalSec pgSpout clsContained 3 p p (2 ^ 32)).dropOversize p n fuel
          else ch
        | none => ch
      else ch
    | _, _ => ch

/-- Oversize head frames of every queue of a port, or of every queue bound to a list. -/
def Chan.dropOversizeAll (ch : Chan) (ns : List Nat) : Chan :=
  ch.each ns (fun c n => match c.nodePort n with
    | some p => c.dropOversize p n ((c.que (egQueue n)).ents.length)
    | none => c)

/-! Shapers (R459). -/

/-- CIR and PIR that apply to a node, kb/s: a port node has no committed share, and its PIR is capped at the oper rate. -/
def Chan.nodeRates (ch : Chan) (n : Nat) : Nat × Nat :=
  let x := ch.node n
  if n < 64 then
    let r := ch.operRate n * 1000
    (0, if x.pir = 0 then r else min x.pir r)
  else (x.cir, x.pir)

/-- One byte in the units of a bucket. -/
def byteUnits : Int := 8000000

/-- The node with its buckets refilled to now (R459). -/
def Chan.refilled (ch : Chan) (n : Nat) : Node :=
  let x := ch.node n
  let r := ch.nodeRates n
  let dt : Int := ((ch.ns - x.last : Nat) : Int)
  { x with
    tokC := min ((x.cbs : Int) * byteUnits) (x.tokC + dt * (r.1 : Int)), tokP := min ((x.pbs : Int) * byteUnits) (x.tokP + dt * (r.2 : Int)),
    last := ch.ns }

/-- The peak bucket is satisfied. -/
def Chan.peakOk (ch : Chan) (n : Nat) : Bool := (ch.nodeRates n).2 == 0 || decide (0 ≤ (ch.refilled n).tokP)

/-- The committed share and bucket of band 0. -/
def Chan.commitOk (ch : Chan) (n : Nat) : Bool := (ch.nodeRates n).1 != 0 && decide (0 ≤ (ch.refilled n).tokC)

/-- Charge a node for a release. -/
def Chan.chargeNode (ch : Chan) (cost : Int) (n : Nat) : Chan :=
  let x := ch.refilled n
  ch.putNode n { x with tokC := x.tokC - cost * byteUnits, tokP := x.tokP - cost * byteUnits, deficit := x.deficit - cost }

/-! The choice (R460). -/

/-- Rounds of quanta a child with deficit `d` and quantum `q` waits before it may be served. -/
def drrRounds (d q : Int) : Int := if 0 < d then 0 else (-d) / q + 1

/-- Deficit round robin among the candidates of one priority and band: the child served last goes on while its deficit lasts;
otherwise the children behind it, in rising node number, take their quanta in turn until one may be served. -/
def Chan.drrNext (ch : Chan) (parent band prio : Nat) (cands : List Nat) : Chan × Option Nat :=
  let key := parent * 16 + band * 8 + prio
  let lastServed := tget 0 ch.sch.ptr key
  match cands.mergeSort (fun a b => decide (a ≤ b)) with
  | [] => (ch, none)
  | sorted =>
    let order := sorted.filter (fun n => decide (lastServed ≤ n)) ++ sorted.filter (fun n => decide (n < lastServed))
    let cur := lastServed - 1
    if lastServed ≠ 0 ∧ cands.contains cur ∧ 0 < (ch.node cur).deficit then (ch, some cur)
    else
      let quantum := fun (n : Nat) => (((ch.node n).weight * 64 : Nat) : Int)
      let need := fun (n : Nat) => max 1 (drrRounds (ch.node n).deficit (quantum n))
      let r := order.foldl (fun m n => min m (need n)) (need (order.headD 0))
      match order.find? (fun n => decide (need n ≤ r)) with
      | none => (ch, none)
      | some pick =>
        let upTo := order.takeWhile (fun n => n != pick)
        let c1 := ch.each order (fun c n =>
          let x := c.node n
          let times_ : Int := if n = pick ∨ upTo.contains n then r else r - 1
          c.putNode n { x with deficit := x.deficit + times_ * quantum n })
        ({ c1 with sch := { c1.sch with ptr := tput 0 c1.sch.ptr key (pick + 1) } }, some pick)

/-- The bands and priorities in the order of R460. -/
def bandPrios : List (Nat × Nat) := [0, 1].flatMap (fun b => [7, 6, 5, 4, 3, 2, 1, 0].map (fun q => (b, q)))

/-- The choice at a node among the paths (from the node's child down to a queue) that may be taken. -/
def Chan.chooseDown (ch : Chan) (parent : Nat) (paths : List (List Nat)) : Nat → Chan × Option Nat
  | 0 => (ch, none)
  | fuel + 1 =>
    let kids := (paths.filterMap List.head?).eraseDups
    let ok := fun (bp : Nat × Nat) => kids.filter (fun n => (ch.node n).prio == bp.2 && (bp.1 == 1 || ch.commitOk n))
    match bandPrios.find? (fun bp => !(ok bp).isEmpty) with
    | none => (ch, none)
    | some bp =>
      match ch.drrNext parent bp.1 bp.2 (ok bp) with
      | (c1, none) => (c1, none)
      | (c1, some n) =>
        let below := (paths.filter (fun l => l.head? == some n)).map List.tail
        if below.any List.isEmpty then (c1, some n) else c1.chooseDown n below fuel

/-- The paths of port `p`, from below the port node down, that end in a releasable queue and pass satisfied peak buckets and no
faulty node. -/
def Chan.openPaths (ch : Chan) (p : Nat) : List (List Nat) :=
  ((ch.egQueuesOf p).map (fun q => q - 0x100000)).filterMap (fun n =>
    match (ch.que (egQueue n)).ents with
    | [] => none
    | e :: _ =>
      let path := ch.path n
      if ch.releasable p n e && path.all (fun m => ch.peakOk m && !(ch.node m).fault) then some (path.reverse.tail) else none)

/-! Release (R440, R460, R471). -/

/-- The head frame is over the age limit of its port (R440). -/
def Chan.aged (ch : Chan) (p : Nat) (e : QEnt) : Bool :=
  let lim := ch.getF pgAdm (ADM.HOLD_CFG_AGE_MS p)
  let up := (ch.pw p).upAt
  decide (lim ≠ 0) && decide (up ≠ 0) && decide (e.local_ + 1 < up) && decide (e.local_ + lim * 1000000 < ch.ns)

/-- Discard the aged frames at the head of a queue. -/
def Chan.dropAged (ch : Chan) (p n : Nat) : Nat → Chan
  | 0 => ch
  | fuel + 1 =>
    match (ch.que (egQueue n)).ents with
    | e :: _ =>
      if ch.aged p e then (((ch.takeOut (egQueue n) (fun y => y == e)).hwFree e.handle).incRaise pgAdm (ADM.AGE_DISC p) 10).dropAged p n fuel
      else ch
    | [] => ch

/-- The next release of the port is paced behind `n` bytes on the wire (R460); ps of COSY.LOCAL. -/
def Chan.pace (ch : Chan) (p n : Nat) : Chan :=
  let now := max (ch.ns * 1000) (tget 0 ch.sch.pace p)
  { ch with sch := { ch.sch with pace := tput 0 ch.sch.pace p (now + ch.wirePs p n) } }

/-- The head frame of queue `n` leaves for the FE die (R460, R471), which discards a poisoned one before dispatch (R520). -/
def Chan.releaseHead (ch : Chan) (p n : Nat) : Chan :=
  match (ch.que (egQueue n)).ents with
  | [] => ch
  | e :: _ =>
    let k := (ch.buf e.handle).pkt
    let adj := toSigned (ch.getF pgSched (SCHED.PORT_CFG_SHAPE_ADJ p)) 8
    let g := match (ch.node n).gate with | some g => g.1 * 32 + g.2 + 1 | none => 0
    let c1 := (ch.path n).foldl (fun c m => c.chargeNode ((e.len : Int) + adj) m) ch
    let c2 := ((c1.dequeue (egQueue n) e).hwFree e.handle).pace p (e.len + 20 + ch.getF pgSpout (SPOUT.PORT_CFG_EDIT_ALLOW p))
    let c3 := c2.tally pgSched 0x10 { priv := some 0, cls := some (e.pc % 8) }
    if (ch.buf e.handle).poison.isEmpty then c3.dispatchArrive { k with
      egress := true, port := p, part := ch.portPart p, t64 := ch.t64, launch := ch.timePs + ch.exitLat p, gate := g, downs := (ch.pw p).downs }
    else c3

/-- One release of a port: its control input goes ahead of every queue (R224); otherwise the tree chooses. -/
def Chan.releaseOne (ch : Chan) (p : Nat) (hdrErr : Bool) : Chan :=
  if ch.oper p = false ∨ ch.ns * 1000 < tget 0 ch.sch.pace p then ch
  else
    let w := ch.pw p
    match w.ctl with
    | f :: rest =>
      (ch.putPw p { w with
        ctl := rest, mac := w.mac ++ [.control f (ch.timePs + ch.exitLat p)] }).pace p (max 64 (f.bytes.length + 4) + 20)
    | [] =>
      let qs := (ch.egQueuesOf p).map (fun q => q - 0x100000)
      let c1 := ch.each qs (fun c n => c.dropAged p n ((c.que (egQueue n)).ents.length))
      let c2 := c1.dropOversizeAll qs
      let blocked := (qs.filter (fun n => match (c2.que (egQueue n)).ents with
        | e :: _ => !(c2.releasable p n e) && (c2.node n).gate.isSome
        | [] => false)).length
      let c3 := c2.tally pgSched 0x11 {} blocked
      match c3.chooseDown p (c3.openPaths p) 5 with
      | (c4, some n) =>
        match (c4.que (egQueue n)).ents with
        | e :: _ => if hdrErr || (c4.buf e.handle).hdrBad then c4.hdrErr (egQueue n) e else c4.releaseHead p n
        | [] => c4
      | (c4, none) => c4

/-- SCHED_RELEASE (R460): a TM cycle serves the ports named, at most 8 in all and 4 times each, in that order; a port comes with
whether its packet's header read fails (R428). -/
def execSchedRelease (c : Fin 4) (ports : List (Nat × Bool)) (s : State) : Host.Outcome State Fault Refusal :=
  .next (s.onLive c (fun ch =>
    if ch.enabled pgSched && ch.enabled pgSpout && ch.bridged then
      ((ports.take 8).foldl (fun (r : Chan × List Nat) e =>
        if 64 ≤ e.1 ∨ 4 ≤ (r.2.filter (fun q => q == e.1)).length then r
        else (r.1.releaseOne e.1 e.2, e.1 :: r.2)) (ch, [])).1
    else ch))

/-- EGRESS_QUEUE_MAP (R458): a written unicast egress packet is placed by EQ_MAP, or dropped before admission. -/
def execEgressQueueMap (c : Fin 4) (h : Nat) (s : State) : Host.Outcome State Fault Refusal :=
  .next (s.onLive c (fun ch =>
    let b := ch.buf h
    if b.inUse && b.written && b.waiting && b.pkt.egress && !b.pkt.mcast && b.queue == 0 then
      match ch.egressQueue b.pkt with
      | some n => ch.putBuf h { b with queue := egQueue n + 1 }
      | none => (ch.incRaise pgSched SCHED.NO_QUEUE_DROP 9).hwFree h
    else ch))

/-! Node registers (R461, R475, R476). -/

/-- W7 of a node. -/
def Chan.nodeW7 (ch : Chan) (n : Nat) : Nat :=
  let x := ch.node n
  let g := match x.gate, ch.nodePort n with
    | some g, some p => nbit (ch.gateAt g.1 ((ch.timePs + ch.exitLat p) / 1000)).1 g.2
    | some g, none => nbit (ch.gateAt g.1 ch.timeNs).1 g.2
    | none, _ => true
  b2n x.fault * 2 ^ 31 + b2n (decide (0 ≤ (ch.refilled n).tokC)) * 2 ^ 30 + b2n (ch.peakOk n) * 2 ^ 29 + b2n g * 2 ^ 28
    + (ch.childrenOf n).length % 2 ^ 17

/-- Load NODE_W0–W7 from a node. -/
def Chan.loadNode (ch : Chan) (n : Nat) : Chan :=
  let x := ch.node n
  ch.putList pgSched (SCHED.NODE_W 0) [x.w0, x.w1, x.cir, x.pir, x.cbs, x.pbs, x.w6, ch.nodeW7 n]

/-- A write of SCHED.NODE_SEL (R475). -/
def nodeSelHook : Hook := fun w ch => (ch.put w.p w.off w.merged).loadNode (fld w.v 16 0)

/-- NODE_SEL_WRITE (R475). -/
def execNodeSelWrite (r : Req) (c : Fin 4) (node : Nat) (s : State) : Host.Outcome State Fault Refusal :=
  .next (s.chanWrite nodeSelHook true r c pgSched SCHED.NODE_SEL (BitVec.ofNat 32 (node % 2 ^ 17)))

/-- Queues in the subtree of a node that hold packets. -/
def Chan.subtreeBusy (ch : Chan) (n : Nat) : Bool :=
  ch.cad.queues.any (fun q => decide (0x100000 ≤ q.1) && !q.2.ents.isEmpty && (ch.path (q.1 - 0x100000)).contains n)

/-- The node words that NODE_W0–W6 ask for. -/
def Chan.askedNode (ch : Chan) : Node :=
  let w := fun (i : Nat) => ch.nat pgSched (SCHED.NODE_W i)
  { w0 := w 0, w1 := w 1, cir := w 2, pir := w 3, cbs := w 4 % 2 ^ 24, pbs := w 5 % 2 ^ 24, w6 := w 6 }

/-- RESULT of NODE_CMD (R461, R475, R476). -/
def Chan.nodeResult (ch : Chan) (n : Nat) (y : Node) : Nat :=
  let x := ch.node n
  let kids := ch.childrenOf n
  if n < 64 ∧ (y.valid = false ∨ y.level ≠ 0 ∨ y.parent ≠ x.parent) then 4
  else if 64 ≤ n ∧ y.valid = true ∧ y.level = 0 then 4
  else if 4 < y.level ∨ y.weight = 0 ∨ (y.cir ≠ 0 ∧ y.cbs = 0) ∨ (y.pir ≠ 0 ∧ y.pbs = 0) ∨ (nbit y.w6 31 = true ∧ y.level ≠ 4) then 1
  else if y.valid = false then (if x.valid = true ∧ (!kids.isEmpty || ch.subtreeBusy n) = true then 3 else 0)
  else if 64 ≤ n ∧ ((ch.node y.parent).valid = false ∨ y.level ≤ (ch.node y.parent).level ∨ y.parent = n) then 2
  else if kids.any (fun k => decide ((ch.node k).level ≤ y.level)) then 2
  else if x.valid = true ∧ x.level = 4 ∧ y.level ≠ 4 ∧ ch.subtreeBusy n = true then 3
  else if 64 ≤ n ∧ x.valid = true ∧ y.parent ≠ x.parent ∧ ch.subtreeBusy n = true ∧ ch.nodePort n ≠ ch.nodePort y.parent then 3
  else 0

/-- The node takes the words asked for (R461). -/
def Chan.applyNode (ch : Chan) (n : Nat) (y : Node) : Chan :=
  let x := ch.refilled n
  let z : Node := { y with
    tokC := min x.tokC ((y.cbs : Int) * byteUnits), tokP := min x.tokP ((y.pbs : Int) * byteUnits), last := x.last,
    deficit := if y.weight = x.weight ∧ y.prio = x.prio then x.deficit else 0 }
  ch.putNode n (if y.valid then z else {})

/-- A write of SCHED.NODE_CMD (R475). -/
def nodeCmdHook : Hook := fun w ch =>
  if bit w.v 31 then
    let n := ch.getF pgSched SCHED.NODE_SEL_NODE
    let y := ch.askedNode
    let res := ch.nodeResult n y
    let c1 := if res = 0 then ch.applyNode n y else ch
    (c1.putN pgSched SCHED.NODE_STAT (2 ^ 30 + res * 2 ^ 16)).raise pgSched 8
  else ch

/-- NODE_CMD (R461, R475). -/
def execNodeCmd (r : Req) (c : Fin 4) (s : State) : Host.Outcome State Fault Refusal :=
  .next (s.chanWrite nodeCmdHook true r c pgSched SCHED.NODE_CMD (BitVec.ofNat 32 (2 ^ 31)))

/-- NODE_UE (R461). -/
def execNodeUe (c : Fin 4) (node word : Nat) (s : State) : Host.Outcome State Fault Refusal :=
  .next (s.onLive c (fun ch =>
    if node < 131072 ∧ (ch.node node).valid = true then
      let c1 := ch.putNode node { ch.node node with fault := true }
      ((c1.capture pgSched clsContained 0 node 0 word).raise pgSched 0).journal pgSched clsContained 1 node
    else ch))

/-! Swaps and list registers (R466–R470, R477, R478). -/

/-- A bank keeps the ranges of R466. -/
def GateBank.legal (k : GateBank) : Bool :=
  decide (1000 ≤ k.cycle) && decide (k.cycle ≤ 1000000000) && decide (k.ext ≤ k.cycle) && decide (1 ≤ k.len) && decide (k.len ≤ 1024)
    && decide (k.base % 2 ^ 32 < 1000000000) && (List.range k.len).all (fun i => decide (32 ≤ k.dur i))

/-- S of a swap accepted at `t` ns of network time (R468). -/
def GateBank.startAt (k : GateBank) (t : Nat) : Nat :=
  let base := t64At k.base t
  (base + ((ceilDiv ((t : Int) - base).toNat k.cycle * k.cycle : Nat) : Int)).toNat

/-- A GATE_SWAP action fires for list `n` at an instant (R468): the channel, and whether it was accepted. -/
def Chan.gateSwap (ch : Chan) (n t : Nat) : Chan × Bool :=
  let l := ch.glist n
  let refuse := fun (code : Nat) =>
    (((ch.putGlist n { l with lastSwap := code }).raise pgSpout 9).journal pgSpout clsContained 2 (n + code * 2 ^ 8), false)
  if ch.enabled pgSpout = false ∨ bit l.cfg 31 = false then refuse 2
  else if l.pend then refuse 3
  else if l.adm.legal = false then refuse 2
  else (ch.putGlist n { l with pend := true, lastSwap := 1, start := t64Of (l.adm.startAt t) }, true)

/-- S is reached (R465, R468). -/
def Chan.swapStart (ch : Chan) (n : Nat) : Chan :=
  let l := ch.glist n
  let op := 1 - l.oper
  let c1 := ch.putGlist n { l with oper := op, running := true, pend := false, ecc := false }
  let c2 := ((c1.raise pgSpout 8).tally pgSpout 0x10).journal pgSpout clsNone 1 (n + op * 2 ^ 8 + l.start * 2 ^ 64)
  c2.dropOversizeAll (((ch.cad.queues.map Prod.fst).filter (fun q => decide (0x100000 ≤ q))).map (fun q => q - 0x100000) |>.filter
    (fun m => match (ch.node m).gate with | some g => g.1 == n | none => false))

/-- SWAP_START (R468): network time has reached S of the pending swap. -/
def execSwapStart (c : Fin 4) (list : Nat) (s : State) : Host.Outcome State Fault Refusal :=
  .next (s.onLive c (fun ch =>
    let l := ch.glist list
    if ch.enabled pgSpout = true ∧ l.pend ∧ t64At l.start ch.timeNs ≤ (ch.timeNs : Int) then ch.swapStart list else ch))

/-- The list that LIST_SEL names. -/
def Chan.selList (ch : Chan) : Nat := ch.getF pgSpout SPOUT.LIST_SEL_LIST

/-- A write refused while the admin bank is locked (R468). -/
def Chan.spoutRefuse (ch : Chan) (code : Nat) : Chan :=
  ((if code = 0 then ch else ch.putN pgSpout SPOUT.REFUSE code).inc pgSpout SPOUT.REJ_CNT).raise pgSpout 12

/-- A write of an ADM_ register, LIST_CFG or GATE_INIT acts on the selected list (R468, R477). -/
def listHook : Hook := fun w ch =>
  let n := ch.selList
  let l := ch.glist n
  let v := w.v.toNat
  let setAdm := fun (f : GateBank → GateBank) =>
    if l.pend then ch.spoutRefuse 1 else ch.putGlist n (l.putBank (1 - l.oper) (f l.adm))
  if w.off = 0x118 then
    setAdm (fun k => { k with base := (match w.lowMerged, w.staged with | some x, true => x.toNat | _, _ => k.base % 2 ^ 32) + v * 2 ^ 32 })
  else if w.off = SPOUT.ADM_CYCLE then setAdm (fun k => { k with cycle := v })
  else if w.off = SPOUT.ADM_EXT then setAdm (fun k => { k with ext := v })
  else if w.off = SPOUT.ADM_LEN then setAdm (fun k => { k with len := fld w.v 10 0 })
  else if w.off = SPOUT.LIST_CFG then ch.putGlist n { l with cfg := w.merged }
  else if w.off = SPOUT.GATE_INIT then ch.putGlist n { l with init := w.v }
  else ch

/-- Load ENT_MASK and ENT_DUR from the entry that ENT_IDX names. -/
def Chan.loadEnt (ch : Chan) : Chan :=
  let l := ch.glist ch.selList
  let k := if ch.getB pgSpout SPOUT.ENT_IDX_OPER then l.bank l.oper else l.adm
  let i := ch.getF pgSpout SPOUT.ENT_IDX_ENTRY
  (ch.putN pgSpout SPOUT.ENT_MASK (k.mask i)).putN pgSpout SPOUT.ENT_DUR (k.dur i)

/-- A write of SPOUT.ENT_IDX (R477). -/
def entIdxHook : Hook := fun w ch => (ch.put w.p w.off w.merged).loadEnt

/-- ENT_IDX_WRITE (R477). -/
def execEntIdxWrite (r : Req) (c : Fin 4) (oper : Bool) (idx : Nat) (s : State) : Host.Outcome State Fault Refusal :=
  .next (s.chanWrite entIdxHook true r c pgSpout SPOUT.ENT_IDX (BitVec.ofNat 32 (b2n oper * 2 ^ 31 + idx % 1024)))

/-- A write of SPOUT.ENT_DUR commits the entry (R477); it is refused on a locked admin bank and on the operational bank. -/
def entDurHook : Hook := fun w ch =>
  let n := ch.selList
  let l := ch.glist n
  if ch.getB pgSpout SPOUT.ENT_IDX_OPER then ch.spoutRefuse 0
  else if l.pend then ch.spoutRefuse 1
  else
    let i := ch.getF pgSpout SPOUT.ENT_IDX_ENTRY
    let k := l.adm
    let c1 := ch.putGlist n (l.putBank (1 - l.oper) { k with
      ents := tput 0 k.ents i (ch.nat pgSpout SPOUT.ENT_MASK * 2 ^ 32 + fld w.v 29 0) })
    (c1.put w.p w.off w.merged).putF pgSpout SPOUT.ENT_IDX_ENTRY ((i + 1) % 1024)

/-- ENT_DUR_WRITE (R477). -/
def execEntDurWrite (r : Req) (c : Fin 4) (dur : Nat) (s : State) : Host.Outcome State Fault Refusal :=
  .next (s.chanWrite entDurHook true r c pgSpout SPOUT.ENT_DUR (BitVec.ofNat 32 (dur % 2 ^ 30)))

/-- LIST_UE (R467). -/
def execListUe (c : Fin 4) (list entry : Nat) (s : State) : Host.Outcome State Fault Refusal :=
  .next (s.onLive c (fun ch =>
    let l := ch.glist list
    if list < 256 ∧ l.running = true ∧ entry < (l.bank l.oper).len then
      ((ch.putGlist list { l with ecc := true }).capture pgSpout clsDegraded 0 (list * 2048 + l.oper * 1024 + entry) 0 0).journal pgSpout
        clsDegraded 5 (list + entry * 2 ^ 16)
    else ch))

/-- The list registers of the SPOUT page as read (R477, R478). -/
def Chan.spoutView (ch : Chan) (off : Nat) : Option Nat :=
  let l := ch.glist ch.selList
  let k := l.adm
  let o := l.bank l.oper
  if off = 0x114 then some (k.base % 2 ^ 32)
  else if off = 0x118 then some (k.base / 2 ^ 32)
  else if off = SPOUT.ADM_CYCLE then some k.cycle
  else if off = SPOUT.ADM_EXT then some k.ext
  else if off = SPOUT.ADM_LEN then some k.len
  else if off = SPOUT.LIST_CFG then some l.cfg.toNat
  else if off = SPOUT.GATE_INIT then some l.init.toNat
  else if off = SPOUT.LIST_STAT then
    some (b2n l.running * 2 ^ 31 + b2n l.pend * 2 ^ 30 + l.oper * 2 ^ 29 + l.lastSwap * 2 ^ 27 + b2n l.ecc * 2 ^ 26
      + (if l.running then (l.running_ ch.timeNs).1 % 1024 else 0))
  else if off = 0x134 then some (if l.running then o.base % 2 ^ 32 else 0)
  else if off = 0x138 then some (if l.running then o.base / 2 ^ 32 else 0)
  else if off = SPOUT.OPER_CYCLE then some (if l.running then o.cycle else 0)
  else if off = 0x140 then some (l.start % 2 ^ 32)
  else if off = 0x144 then some (l.start / 2 ^ 32)
  else if 0x1000 ≤ off ∧ off < 0x1400 ∧ off % 16 = 4 then some (ch.exitLat ((off - 0x1000) / 16) % 2 ^ 24)
  else none

/-! The launch (R143, R144, R347, R471, R473). -/

/-- Egress stamp of a launch at `l` ps, truncated to 125 ps (R133, R223). -/
def Chan.egressStamp (ch : Chan) (p l : Nat) : Int :=
  ((l : Int) + (if ch.portKind p = 1 then toSigned (ch.nat (portPg p) (LINE.TS_TX_CORR (portBlk p))) 32 else 0)) / 125 * 125

/-- A packet's correctionField takes egress stamp − ingress stamp (R144, R347); the FCS is computed again. -/
def Chan.correct (ch : Chan) (k : Pkt) (l : Nat) : List Byte :=
  match k.ptp with
  | none => k.bytes
  | some (o, u, isUdp) =>
    let body := k.bytes.take (k.len - 4)
    let inPs : Int := ((nsOfT64 (beAt k.ctx 0 8) * 1000 + nbits (k.ctxByte 9) 7 5 * 125 : Nat) : Int)
    let wrap : Int := 2 ^ 32 * 1000000000 * 1000
    let d := (ch.egressStamp k.port l - inPs) % wrap
    let old := toSigned (beAt body (o + 8) 8) 64
    withFcs (patchFrame body (if isUdp then some u else none) (o + 8) (beBytes 8 (ofSigned (old + d * 65536 / 1000) 64)))

/-- A PTP message of the keeper takes its originTimestamp on a one-step port (R143); the FCS is added. -/
def Chan.oneStep (ch : Chan) (p : Nat) (bs : List Byte) (l : Nat) : List Byte :=
  let twoStep := nbit (tget ({} : PtpPort) ch.ctlNow.ports p).cfg 11
  let out := match ptpOffset bs with
    | some (o, u) =>
      if beAt bs o 1 % 16 = 0 ∧ twoStep = false then
        let ps := (ch.egressStamp p l).toNat
        patchFrame bs u (o + 34) (beBytes 6 (ps / 1000000000000) ++ beBytes 4 (ps / 1000 % 1000000000))
      else bs
    | none => bs
  frameOf out

/-- A PTP event message leaves: its T96 stamp is captured, and a two-step Sync waits for its Follow_Up (R133, R143). -/
def Chan.captureTx (ch : Chan) (p : Nat) (bs : List Byte) (l : Nat) : Chan :=
  match ptpOffset bs with
  | none => ch
  | some (o, _) =>
    let typ := beAt bs o 1 % 16
    if 3 < typ then ch
    else
      let stamp := (ch.egressStamp p l).toNat * 65536 / 1000
      let two := decide (typ = 0) && nbit (tget ({} : PtpPort) ch.ctlNow.ports p).cfg 11
      let w := ch.pw p
      ch.putPw p { w with txStamp := stamp + 1, txSync := if two then w.txSync ++ [(stamp, bs)] else w.txSync }

/-- The bytes of a PFC frame (R220, IEEE 802.1Qbb); its source address `src` is not stated (log 6). -/
def pfcFrame (src vec quanta : Nat) : List Byte :=
  frameOf (beBytes 6 0x0180C2000001 ++ beBytes 6 src ++ beBytes 2 0x8808 ++ beBytes 2 0x0101 ++ beBytes 2 vec
    ++ (List.range 8).flatMap (fun t => beBytes 2 (if nbit vec t then quanta else 0)))

/-- The wire is taken by a frame from `l` ps on: a preemptable frame stops where its gate closes and goes on where it opens, and an
express frame pushes a preemptable one back (R463, R471). -/
def Chan.takeWire (ch : Chan) (p l bytes : Nat) (pre : Bool) (gate : Nat) : Chan :=
  let w := ch.pw p
  let dur := ch.wirePs p (bytes + 20)
  if pre then
    let stop := l + dur
    let cut := if gate = 0 then stop else
      let n := (gate - 1) / 32
      let b := (gate - 1) % 32
      let till := ch.openUntil n b 17 (l / 1000) * 1000
      if till < stop then ch.nextOpen n b 1024 (till / 1000) * 1000 + (stop - till) + ch.wirePs p 24 else stop
    ch.putPw p { w with preStart := l, preEnd := cut }
  else
    let shove := if l < w.preEnd then dur + ch.wirePs p 24 else 0
    let c1 := if shove = 0 then ch else ch.emit (.wire 7 [p, l] [])
    c1.putPw p { w with
      wireEnd := l + dur, preStart := if shove = 0 then w.preStart else l + dur, preEnd := if shove = 0 then w.preEnd else w.preEnd + shove }

/-- A launch later than t + E(p) (R473). -/
def Chan.lateLaunch (ch : Chan) (p : Nat) : Chan :=
  (((ch.inc pgSpout (SPOUT.LATE_LAUNCH p)).raise pgSpout 11).tally pgSpout 0x12).journalSec pgSpout clsContained 4 p p (2 ^ 32)

/-- The launch instant of a frame: its own, or the end of what is on the wire before it (R471). An express frame cuts into a preemptable one
where the fragment sent is long enough (R222) and at least 64 bytes are left; otherwise it waits for its end. -/
def Chan.launchAt (ch : Chan) (p own : Nat) (pre : Bool) : Nat :=
  let w := ch.pw p
  if pre then max own (max w.wireEnd w.preEnd)
  else if ch.portB p LINE.PREEMPT_CFG_EN then
    let at_ := max own w.wireEnd
    let frag := ch.wirePs p (64 * (1 + ch.portF p LINE.PREEMPT_CFG_ADD_FRAG_SIZE) + 8)
    if w.preEnd ≤ at_ then at_
    else if w.preEnd < max at_ (w.preStart + frag) + ch.wirePs p 64 then w.preEnd
    else max at_ (w.preStart + frag)
  else max own (max w.wireEnd w.preEnd)

/-- The client mapper fills every slot that the transmit calendar in use gives the client of a port (R241, R245): not while fallback or an
entry of another type has one of them (R248). -/
def Chan.mapped (ch : Chan) (p : Nat) : Bool :=
  match ch.clientOf p with
  | some n =>
    let g := ch.getF pgFlex (FLEX.CLIENT_CFG_GROUP n)
    let js := allBelow (ch.slotCount g) (fun j => ch.txCal g (ch.txLetter g) j == ch.getF pgFlex (FLEX.CLIENT_CFG_CLIENT_ID n))
    ch.enabled pgSlot && !js.isEmpty && js.all (fun j => ch.slotFill g j == .mapper)
  | none => false

/-- What a port sends leaves on its own lanes, or in the egress slots of its client (R241). -/
def Chan.onWire (ch : Chan) (p : Nat) (o : Out) : Chan := if ch.portKind p = 2 && !ch.mapped p then ch else ch.emit o

/-- The MAC sends a frame of its FIFO (R143, R144, R220, R471). -/
def Chan.launch (ch : Chan) (p : Nat) (f : MacFrame) : Chan :=
  match f with
  | .control x own =>
    let l := ch.launchAt p own false
    let c1 := (ch.portTally p 0x16 none).takeWire p l (max 64 (x.bytes.length + 4)) false 0
    match x.pfc with
    | some (vec, quanta) => (c1.takeFree.portInc p LINE.TX_PFC).onWire p (.wire 1 [p, vec, quanta] (pfcFrame (c1.freeVal 48) vec quanta))
    | none => (c1.captureTx p x.bytes l).onWire p (.wire 0 [p, l] (ch.oneStep p x.bytes l))
  | .data k late =>
    let pre := ch.preemptable p k.tc
    let l := ch.launchAt p k.launch pre
    let c1 := if late then ch.lateLaunch p else ch
    let c2 := ((c1.portInc p LINE.TX_FRAMES).portInc p LINE.TX_BYTES k.len).portTally p 0x11
    (c2.takeWire p l k.len pre k.gate).onWire p (.wire 0 [p, l] (ch.correct k l))

/-- FRAME_LAUNCH (R471): the frame at position `pos` of the MAC FIFO; an express frame may pass a preemptable one. Network time
runs on to the launch instant where it has not reached it. -/
def execFrameLaunch (c : Fin 4) (port pos : Nat) (s : State) : Host.Outcome State Fault Refusal :=
  .next (s.onLive c (fun ch =>
    let l := (ch.pw port).mac
    match l[pos]? with
    | none => ch
    | some f =>
      let expr := fun (x : MacFrame) => match x with
        | .control _ _ => true
        | .data k _ => !(ch.preemptable port k.tc)
      if pos = 0 ∨ (expr f = true ∧ (l.take pos).all (fun x => !(expr x)) = true) then
        let own := match f with
          | .control _ o => o
          | .data k _ => k.launch
        let at_ := ch.launchAt port own (!(expr f))
        let c1 := if ch.timePs < at_ then ch.clockOn ((at_ - ch.timePs) / 1000) else ch
        (c1.putPw port { c1.pw port with mac := l.eraseIdx pos }).launch port f
      else ch))

/-! Soft resets (R457, R470, R475). -/

/-- SOFT_RESET of SCHED: every queued egress packet goes and is counted, and the tree of R457 returns. -/
def Chan.schedReset (ch : Chan) : Chan :=
  let r := ch.discardWhere (fun q => decide (0x100000 ≤ q)) (fun _ => true)
  let c1 := { r.1 with sch := { r.1.sch with nodes := [], ptr := [], pace := [] } }
  (c1.softResetRegs pgSched).inc pgSched SCHED.RESET_DISC r.2

/-- SOFT_RESET of SPOUT: no list runs and no swap is pending; the banks stay. -/
def Chan.spoutReset (ch : Chan) : Chan :=
  { ch with sch := { ch.sch with
    lists := ch.sch.lists.foldl (fun t e => tput {} t e.1 { e.2 with running := false, pend := false, ecc := false, start := 0, lastSwap := 0, cfg := 0x40000000, init := 0xFFFFFFFF }) [] } }

end Sys2Proof.Machine
end

