-- ==== Sys2Proof/Machine/FlexOps.lean ====
section
/-! DEFINITION. Shared operations of FlexE and the slot switch: groups and slots (R238–R240), clients (R241), calendars
(R242–R244), pages and fallback (R246–R248), labels (R249, R250). -/

namespace Sys2Proof.Machine

/-- Working state of a group. -/
def Chan.grp (ch : Chan) (g : Nat) : FlexGrp := tget {} ch.flex.grps g

/-- Replace the working state of a group. -/
def Chan.putGrp (ch : Chan) (g : Nat) (x : FlexGrp) : Chan := { ch with flex := { ch.flex with grps := tput {} ch.flex.grps g x } }

/-- Slots of a group whose expected label under calendar `c` is a client ID. -/
def Chan.expSlots (ch : Chan) (g c id : Nat) : List Nat := allBelow (ch.slotCount g) (fun j => ch.expCal g c j == id)

/-- The enabled client of a group with a client ID. -/
def Chan.clientWith (ch : Chan) (g id : Nat) : Option Nat :=
  firstBelow 128 (fun n => ch.getB pgFlex (FLEX.CLIENT_CFG_EN n) && ch.getF pgFlex (FLEX.CLIENT_CFG_GROUP n) == g
    && ch.getF pgFlex (FLEX.CLIENT_CFG_CLIENT_ID n) == id)

/-- CLIENT_STAT follows the client's group, labels and received local fault, and a terminated client takes its port with it
(R241). -/
def Chan.clientSettle (ch : Chan) (n : Nat) : Chan :=
  let g := ch.getF pgFlex (FLEX.CLIENT_CFG_GROUP n)
  let id := ch.getF pgFlex (FLEX.CLIENT_CFG_CLIENT_ID n)
  let en := ch.getB pgFlex (FLEX.CLIENT_CFG_EN n) && ch.enabled pgFlex
  let xc := ch.getB pgFlex (FLEX.CLIENT_CFG_MODE n)
  let lf := en && ch.getB pgFlex (FLEX.CLIENT_STAT_RX_LF n)
  let mm := en && (ch.expSlots g (ch.rxLetter g) id).any (fun j => ch.labelMm g j)
  let up := en && ch.grpState g == 3 && !mm && (xc || !lf)
  let slots := if en then ((List.range (ch.slotCount g)).filter (fun j => ch.txCal g (ch.txLetter g) j == id)).length else 0
  let c1 := (((ch.putB pgFlex (FLEX.CLIENT_STAT_UP n) up).putB pgFlex (FLEX.CLIENT_STAT_LABEL_MM n) mm).putB pgFlex
    (FLEX.CLIENT_STAT_RX_LF n) lf).putF pgFlex (FLEX.CLIENT_STAT_SLOTS n) slots
  let c2 := if en && (ch.grpState g != 3 || mm || lf) then c1.markDef (40 + n) else c1
  let p := ch.getF pgFlex (FLEX.CLIENT_CFG_PORT n)
  if !xc && ch.portKind p == 2 then c2.portSettle p (if lf then 2 else 0) else c2

/-- Bring the clients of a group up to date. -/
def Chan.clientsSettle (ch : Chan) (g : Nat) : Chan :=
  ch.each (allBelow 128 (fun n => ch.getF pgFlex (FLEX.CLIENT_CFG_GROUP n) == g
    && (ch.getB pgFlex (FLEX.CLIENT_CFG_EN n) || ch.nat pgFlex (FLEX.CLIENT_STAT n) != 0))) Chan.clientSettle

/-- Why the group cannot be UP: the R263 cause of the first member defect, 6 while it is disabled. -/
def Chan.grpDefect (ch : Chan) (g : Nat) : Option Nat :=
  let ms := ch.members g
  if !(ch.grpOn g) then some 6
  else if ms.isEmpty || ms.any (fun k => !(ch.oper (ch.memberPort g k))) then some 0
  else if ms.any (fun k => ch.getB pgFlex (FLEX.MEMBER_STAT_LOF g k)) then some 1
  else if ms.any (fun k => ch.getB pgFlex (FLEX.MEMBER_STAT_LOM g k)) then some 2
  else if ms.any (fun k => ch.getB pgFlex (FLEX.MEMBER_STAT_GIDM g k)) then some 3
  else if ms.any (fun k => ch.getB pgFlex (FLEX.MEMBER_STAT_PIDM g k)) then some 4
  else none

/-- A calendar request ends without a switch (R244): CR returns to the calendar in use, and LAST_SWITCH is 2 CA_TIMEOUT or 3 WITHDRAWN. -/
def Chan.calFail (ch : Chan) (g last : Nat) : Chan :=
  let c0 := ((ch.putF pgFlex (FLEX.GRP_STAT_PENDING g) 0).putF pgFlex (FLEX.GRP_STAT_LAST_SWITCH g) last).putGrp g
    { ch.grp g with ready := false, since := 0, target := 0 }
  let c1 := c0.emit (.wire 2 [g, ch.txLetter g] [])
  (c1.raise pgFlex 11).journal pgFlex clsContained 4 (g + last * 2 ^ 8)

/-- The group's state changes to `st` (R240, R244, R262). -/
def Chan.grpTo (ch : Chan) (g st cause : Nat) : Chan :=
  let was := ch.grpState g
  let c1 := ch.putF pgFlex (FLEX.GRP_STAT_STATE g) st
  if was = 3 ∧ st ≠ 3 then
    let c2 := (c1.raise pgFlex 9).journal pgFlex clsDegraded 2 (g + cause * 2 ^ 8)
    if ch.getB pgFlex (FLEX.GRP_STAT_PENDING g) then c2.calFail g 3 else c2
  else if was ≠ 3 ∧ st = 3 then (c1.raise pgFlex 8).journal pgFlex clsNone 1 g
  else c1

/-- GRP_STAT follows the members, and the clients follow the group (R240, R241). -/
def Chan.grpSettle (ch : Chan) (g : Nat) : Chan :=
  let up := (ch.members g).foldl (fun n k => n + (if ch.oper (ch.memberPort g k) && !(ch.getB pgFlex (FLEX.MEMBER_STAT_LOF g k))
    && !(ch.getB pgFlex (FLEX.MEMBER_STAT_LOM g k)) then 2 ^ k else 0)) 0
  let c1 := ch.putF pgFlex (FLEX.GRP_STAT_MEMBERS_UP g) up
  let c2 := match ch.grpDefect g with
    | some 6 => (c1.putF pgFlex (FLEX.GRP_STAT_SKEW g) 0).grpTo g 0 6
    | some d => ((c1.putF pgFlex (FLEX.GRP_STAT_SKEW g) 0).grpTo g 1 d).markDef (32 + g)
    | none =>
      if ch.getB pgFlex (FLEX.GRP_STAT_SKEW g) then (c1.grpTo g 1 5).markDef (32 + g)
      else if ch.grpState g = 3 then c1
      else c1.grpTo g 2 0
  c2.clientsSettle g

/-- The instances of a group in the order of its slots: member and instance of its PHY, in ascending PHY number (R239). -/
def Chan.instances (ch : Chan) (g : Nat) : List (Nat × Nat) :=
  (allBelow 255 (fun y => (ch.members g).any (fun k => ch.getF pgFlex (FLEX.MEMBER_PHY g k) == y))).flatMap (fun y =>
    ((ch.members g).filter (fun k => ch.getF pgFlex (FLEX.MEMBER_PHY g k) == y)).flatMap (fun k =>
      (List.range (instancesOf (ch.portF (ch.memberPort g k) LINE.PORT_CFG_SPEED))).map (fun i => (k, i))))

/-- The member whose PHY carries slot `j` of a group (R239). -/
def Chan.slotMember (ch : Chan) (g j : Nat) : Option Nat := ((ch.instances g)[j / 20]?).map Prod.fst

/-- Groups with a port among their enabled members. -/
def Chan.grpsOfPort (ch : Chan) (p : Nat) : List Nat :=
  allBelow 8 (fun g => (ch.members g).any (fun k => ch.memberPort g k == p))

/-- A port's causes have changed: its state and oper-up status follow, and the FlexE groups it is a member of (R209, R217). -/
def Chan.portChanged (ch : Chan) (p cause : Nat) : Chan := (ch.portSettle p cause).each (ch.grpsOfPort p) Chan.grpSettle

/-! The slot switch. -/

/-- FOLLOW_CAL of a group. -/
def Chan.follows (ch : Chan) (g : Nat) : Bool := ch.getB pgSlot (SLOT.GRP_CTRL_FOLLOW_CAL g)

/-- Validation calendars (R246): of a destination group its transmit calendar, of a source group its expected calendar; the
one not in use while FOLLOW_CAL is 1. -/
def Chan.valTx (ch : Chan) (g : Nat) : Nat := if ch.follows g then 1 - ch.txLetter g else ch.txLetter g
def Chan.valRx (ch : Chan) (g : Nat) : Nat := if ch.follows g then 1 - ch.rxLetter g else ch.rxLetter g

/-- Check 3 of R246 on an XCONNECT entry. -/
def Chan.sourceOk (ch : Chan) (w : Word) : Bool :=
  let s := connGroup w
  let j := connSlot w
  ch.grpOn s && decide (j < ch.slotCount s) &&
    (match ch.clientWith s (ch.expCal s (ch.valRx s) j) with
     | some n => ch.getB pgFlex (FLEX.CLIENT_CFG_MODE n) && ch.expCal s (ch.valRx s) j != 0
     | none => false)

/-- The TYPE that check 4 of R246 asks of egress slot `j`. -/
def Chan.typeWanted (ch : Chan) (g j : Nat) : Nat :=
  let id := ch.txCal g (ch.valTx g) j
  if id = 0 then 0
  else match ch.clientWith g id with
    | some n => if ch.getB pgFlex (FLEX.CLIENT_CFG_MODE n) then 1 else 2
    | none => 0

/-- Egress slots of a client under the validation calendar. -/
def Chan.egressSlots (ch : Chan) (g id : Nat) : List Nat := allBelow (ch.slotCount g) (fun j => ch.txCal g (ch.valTx g) j == id)

/-- Check 5 of R246 on the egress client that holds slot `j`: its entries take every slot of exactly one ingress client, once
each, in rising order. -/
def Chan.splitOk (ch : Chan) (g page j : Nat) : Bool :=
  let ws := (ch.egressSlots g (ch.txCal g (ch.valTx g) j)).map (fun k => ch.conn (connIdx g page k))
  match ws with
  | [] => true
  | w :: _ =>
    let s := connGroup w
    let id := ch.expCal s (ch.valRx s) (connSlot w)
    ws.all (fun x => connGroup x == s) && ws.map connSlot == ch.expSlots s (ch.valRx s) id

/-- Validation of the standby page (R246): COMMIT_RESULT and ERR_SLOT. -/
def Chan.validate (ch : Chan) (g : Nat) : Nat × Nat :=
  let page := 1 - ch.getF pgSlot (SLOT.GRP_STAT_ACTIVE_PAGE g)
  let e := fun j => ch.conn (connIdx g page j)
  let s := ch.slotCount g
  match firstBelow 640 (fun j => tget false ch.flex.parBad (connIdx g page j)) with
  | some j => (5, j)
  | none => match firstBelow 640 (fun j => connType (e j) == 3) with
    | some j => (1, j)
    | none => match firstBelow s (fun j => connType (e j) == 1 && !(ch.sourceOk (e j))) with
      | some j => (2, j)
      | none => match firstBelow s (fun j => connType (e j) != ch.typeWanted g j) with
        | some j => (3, j)
        | none => match firstBelow s (fun j => connType (e j) == 1 && !(ch.splitOk g page j)) with
          | some j => (4, j)
          | none => (0, 0)

/-- At COMMIT the switch records the client ID of each XCONNECT entry's source slot (R250). -/
def Chan.recordIds (ch : Chan) (g : Nat) : Chan :=
  let page := 1 - ch.getF pgSlot (SLOT.GRP_STAT_ACTIVE_PAGE g)
  let lo := connIdx g page 0
  let base := tclear ch.flex.ids lo (lo + 640)
  let new := (allBelow 640 (fun j => connType (ch.conn (lo + j)) == 1)).foldl (fun t j =>
    let w := ch.conn (lo + j)
    tput 0 t (lo + j) (ch.expCal (connGroup w) (ch.valRx (connGroup w)) (connSlot w) + 1)) base
  { ch with flex := { ch.flex with ids := new } }

/-- Fixed-mapping fallback engages (R248). -/
def Chan.fallback (ch : Chan) (g reason : Nat) : Chan :=
  let c1 := ((ch.putF pgSlot (SLOT.GRP_STAT_FB_ACTIVE g) 1).putF pgSlot (SLOT.GRP_STAT_FB_REASON g) reason).inc pgSlot (SLOT.FB_CNT g)
  let peer := if ch.getB pgSlot (SLOT.GRP_CTRL_FB_EN g) then ch.getF pgSlot (SLOT.GRP_CTRL_FB_PEER g) else 0xFF
  (c1.raise pgSlot 9).journal pgSlot clsDegraded 2 (g + reason * 2 ^ 8 + peer * 2 ^ 16)

/-- The standby page becomes active (R247, R248). -/
def Chan.activatePage (ch : Chan) (g : Nat) : Chan :=
  let page := 1 - ch.getF pgSlot (SLOT.GRP_STAT_ACTIVE_PAGE g)
  let ok := ch.getB pgSlot (SLOT.GRP_STAT_STBY_VALID g)
  let c1 := (((ch.putF pgSlot (SLOT.GRP_STAT_ACTIVE_PAGE g) page).putB pgSlot (SLOT.GRP_STAT_ACT_VALID g) ok).putF pgSlot
    (SLOT.GRP_STAT_STBY_VALID g) 0).putF pgSlot (SLOT.GRP_STAT_PAR_ERR g) 0
  let c2 := (c1.raise pgSlot 8).journal pgSlot clsNone 1 (g + page * 2 ^ 8)
  if !ok then c2.fallback g 1
  else if ch.getB pgSlot (SLOT.GRP_STAT_FB_ACTIVE g) then
    ((c2.putF pgSlot (SLOT.GRP_STAT_FB_ACTIVE g) 0).putF pgSlot (SLOT.GRP_STAT_FB_REASON g) 0).journal pgSlot clsNone 3 g
  else c2

/-- GRP_STAT.SKEW_IDLE (R250). -/
def Chan.skewIdle (ch : Chan) (g : Nat) : Bool :=
  (List.range (ch.slotCount g)).any (fun j => ch.skewed (connIdx g (ch.getF pgSlot (SLOT.GRP_STAT_ACTIVE_PAGE g)) j))

/-- An ingress slot of a terminated client is delivered to the demapper (R245, R248, R249). -/
def Chan.delivered (ch : Chan) (g j : Nat) : Bool :=
  ch.enabled pgSlot && !(ch.getB pgSlot (SLOT.GRP_STAT_FB_ACTIVE g)) && !(ch.labelMm g j)
    && connType (ch.conn (connIdx g (ch.getF pgSlot (SLOT.GRP_STAT_ACTIVE_PAGE g)) j)) == 2

/-! Calendar and page requests, by register or by timed action. -/

/-- FLEX.REFUSE is set (R255). -/
def Chan.flexRefuse (ch : Chan) (g code : Nat) : Chan := (ch.putN pgFlex FLEX.REFUSE (g * 2 ^ 8 + code)).raise pgFlex 13

/-- A transmit calendar switch is asked for (R242, R244); `none` where it is refused. -/
def Chan.calRequest (ch : Chan) (g target : Nat) : Option Chan :=
  if ch.grpState g ≠ 3 ∨ ch.getB pgFlex (FLEX.GRP_STAT_PENDING g) then none
  else if target = ch.txLetter g then some ch
  else some (((ch.putF pgFlex (FLEX.GRP_STAT_PENDING g) 1).putGrp g { ch.grp g with
    target := target, ready := !(ch.getB pgFlex (FLEX.GRP_CFG_HANDSHAKE g)), since := ch.ns }).emit (.wire 2 [g, target] []))

/-- A page switch is asked for (R247); `none` where it is refused. -/
def Chan.pageRequest (ch : Chan) (g : Nat) : Option Chan :=
  if ch.follows g then none else some (ch.putGrp g { ch.grp g with pageReq := true })

/-- A refused write or switch at SLOT (R246, R247). -/
def Chan.slotReject (ch : Chan) : Chan := (ch.inc pgSlot SLOT.REJ_CNT).raise pgSlot 12

end Sys2Proof.Machine
end

