-- ==== Sys2Proof/Machine/Flex.lean ====
section
/-! DEFINITION. FlexE groups, calendars and clients, the slot switch, and performance monitoring (R237–R263). -/

namespace Sys2Proof.Machine

/-! Configuration (R238, R241, R242, R255–R258). -/

/-- A write of GRP_CFG (R238, R256). -/
def grpCfgHook (g : Nat) : Hook := fun w ch =>
  if bit w.old 31 && fld w.v 30 29 != fld w.old 30 29 || bit w.old 31 && fld w.v 19 0 != fld w.old 19 0 then ch.flexRefuse g 1
  else if bit w.v 31 && !(bit w.old 31) && (fld w.v 19 0 == 0 || fld w.v 19 0 == 0xFFFFF) then ch.flexRefuse g 9
  else (ch.put w.p w.off w.merged).grpSettle g

/-- Why a member is refused: the FLEX.REFUSE code (R238); CONFIG for a PHY number outside 1–254, for which the table names no code
(log 52). -/
def Chan.memberRefusal (ch : Chan) (g k : Nat) (v : Word) : Nat :=
  let p := fld v 12 8
  let others := (ch.members g).filter (fun j => j != k)
  if ch.getB pgFlex (FLEX.GRP_CFG_EN g) then 1
  else if bit v 31 = false then 0
  else if ch.portKind p ≠ 1 ∨ ch.portB p LINE.PORT_CFG_FLEXE = false then 2
  else if others.any (fun j => ch.portF (ch.memberPort g j) LINE.PORT_CFG_SPEED != ch.portF p LINE.PORT_CFG_SPEED) then 3
  else if (List.range 8).any (fun h => (ch.members h).any (fun j => !(h == g && j == k) && ch.memberPort h j == p)) then 4
  else if fld v 7 0 = 0 ∨ fld v 7 0 = 255 then 9
  else if others.any (fun j => ch.getF pgFlex (FLEX.MEMBER_PHY g j) == fld v 7 0) then 8
  else 0

/-- A write of MEMBERk (R238). -/
def memberHook (g k : Nat) : Hook := fun w ch =>
  let code := ch.memberRefusal g k w.v
  if code = 0 then (ch.put w.p w.off w.merged).grpSettle g else ch.flexRefuse g code

/-- A write of CLIENT_CFGn (R241, R258). -/
def clientCfgHook (n : Nat) : Hook := fun w ch =>
  let g := fld w.v 26 24
  let id := fld w.v 15 0
  let same := fld w.v 30 30 == fld w.old 30 30 && fld w.v 26 24 == fld w.old 26 24 && fld w.v 21 16 == fld w.old 21 16
    && id == fld w.old 15 0
  let en := fun (m : Nat) => m != n && ch.getB pgFlex (FLEX.CLIENT_CFG_EN m)
  if bit w.old 31 && !same then ch.flexRefuse g 6
  else if bit w.v 31 && (id == 0 || id == 0xFFFF) then ch.rejectWrite w.p w.off
  else if bit w.v 31 && !(bit w.v 30) && (ch.portKind (fld w.v 21 16) != 2 || (List.range 128).any (fun m => en m
      && !(ch.getB pgFlex (FLEX.CLIENT_CFG_MODE m)) && ch.getF pgFlex (FLEX.CLIENT_CFG_PORT m) == fld w.v 21 16)) then ch.flexRefuse g 7
  else if bit w.v 31 && (List.range 128).any (fun m => en m && ch.getF pgFlex (FLEX.CLIENT_CFG_GROUP m) == g
      && ch.getF pgFlex (FLEX.CLIENT_CFG_CLIENT_ID m) == id) then ch.flexRefuse g 8
  else (ch.put w.p w.off w.merged).clientSettle n

/-- A write of TXCAL word `i` (R242). -/
def txCalHook (i : Nat) : Hook := fun w ch =>
  let g := i / 640
  if ch.getB pgFlex (FLEX.GRP_CFG_EN g) ∧ i / 320 % 2 = ch.txLetter g then ch.flexRefuse g 5
  else (ch.put w.p w.off w.merged).clientsSettle g

/-- A write of EXPCAL word `i`. -/
def expCalHook (i : Nat) : Hook := fun w ch => (ch.put w.p w.off w.merged).clientsSettle (i / 640)

/-- FLEX PAGE_CTRL.ENABLE has changed (R59, R240). -/
def Chan.flexEnabled (ch : Chan) : Chan := (ch.each (List.range 8) Chan.grpSettle).each (List.range 128) Chan.clientSettle

/-- A soft reset of FLEX disables every group and client. -/
def Chan.flexReset (ch : Chan) : Chan :=
  let c1 := ch.each (allBelow 8 (fun g => ch.getB pgFlex (FLEX.GRP_CFG_EN g))) (fun c g =>
    (c.putF pgFlex (FLEX.GRP_CFG_EN g) 0).grpSettle g)
  let c2 := c1.each (allBelow 128 (fun n => c1.getB pgFlex (FLEX.CLIENT_CFG_EN n))) (fun c n =>
    (c.putF pgFlex (FLEX.CLIENT_CFG_EN n) 0).clientSettle n)
  let c3 := c2.softResetRegs pgFlex
  { c3 with flex := { c3.flex with
    turning := [], grps := (List.range 8).foldl (fun t g => tput {} t g { pageReq := (c3.grp g).pageReq, validating := (c3.grp g).validating }) [] } }

/-! Group events (R240–R244). -/

/-- Is `k` an enabled member of the enabled group? -/
def Chan.isMember (ch : Chan) (g k : Nat) : Bool := decide (g < 8) && ch.grpOn g && (ch.members g).contains k

/-- FLEXE_MEMBER_DEFECT (R240, R255): the defects of a member as they now stand. -/
def execFlexeMemberDefect (c : Fin 4) (g k : Nat) (lof lom gidm pidm rpf los : Bool) (s : State) :
    Host.Outcome State Fault Refusal :=
  .next (s.onLive c (fun ch =>
    if ch.isMember g k then
      let v := b2n lof * 32 + b2n lom * 16 + b2n gidm * 8 + b2n pidm * 4 + b2n rpf * 2 + b2n los
      let c1 := ch.put pgFlex (FLEX.MEMBER_STAT g k) (setFld (ch.get pgFlex (FLEX.MEMBER_STAT g k)) 31 26 v)
      let c2 := if lof || lom || gidm || pidm then (c1.markDef (ch.memberPort g k)).markDef (32 + g) else c1
      c2.grpSettle g
    else ch))

/-- GROUP_ALIGNED (R240): deskew ends; `ok` says that the skew is within 10 µs. A skew that exceeds 10 µs while the group is UP takes it
down. -/
def execGroupAligned (c : Fin 4) (g : Nat) (ok : Bool) (s : State) : Host.Outcome State Fault Refusal :=
  .next (s.onLive c (fun ch =>
    if g < 8 ∧ (ch.grpDefect g).isNone ∧ ¬ (ok = true ∧ ch.grpState g = 3) then
      if ok then ((ch.putF pgFlex (FLEX.GRP_STAT_SKEW g) 0).grpTo g 3 0).clientsSettle g
      else ((ch.putF pgFlex (FLEX.GRP_STAT_SKEW g) 1).grpSettle g).markDef (32 + g)
    else ch))

/-- A received label is compared with the expected one (R249): two consecutive multiframes that disagree declare the defect,
and two that agree clear it. -/
def Chan.labelRx (ch : Chan) (g j id : Nat) : Chan :=
  let want := ch.expCal g (ch.rxLetter g) j
  let bad := decide (id ≠ want)
  let has := ch.labelMm g j
  let i := g * 640 + j
  let turn := fun (b : Bool) (c : Chan) => { c with flex := { c.flex with turning := tput false c.flex.turning i b } }
  if bad == has then turn false ch
  else if !(tget false ch.flex.turning i) then turn true ch
  else
    let c1 := turn false (ch.putB pgFlex (labelBit g j) bad)
    if bad then
      ((c1.capture pgFlex clsContained 12 (g * 1024 + j) id want).raise pgFlex 12).journal pgFlex clsContained 5
        (g + j * 2 ^ 16 + want * 2 ^ 32 + id * 2 ^ 48)
    else c1.journal pgFlex clsNone 6 (g + j * 2 ^ 16)

/-- OH_FRAME_RX (R243, R249): an overhead frame of a member with its C, CR and CA bits; `labels` are the (slot, client ID)
pairs of its own instances that its multiframe has completed. -/
def execOhFrameRx (c : Fin 4) (g k : Nat) (crcOk : Bool) (calC cr ca : Nat) (labels : List (Nat × Nat)) (s : State) :
    Host.Outcome State Fault Refusal :=
  .next (s.onLive c (fun ch =>
    if ch.isMember g k = false then ch
    else
      let c0 := ch
      if !crcOk then
        let was := c0.getB pgFlex (FLEX.MEMBER_STAT_OH_CRC g k)
        let c1 := (c0.putF pgFlex (FLEX.MEMBER_STAT_OH_CRC g k) 1).tally pgFlex 0x10 { priv := some 0, agent := some g }
        if was then c1 else c1.raise pgFlex 14
      else
        let c1 := if calC % 2 = c0.rxLetter g then c0 else
          (((c0.putF pgFlex (FLEX.GRP_STAT_RX_CAL g) calC).tally pgFlex 0x11 { priv := some 0, agent := some g }).raise pgFlex 10).journal
            pgFlex clsNone 3 (g + calC % 2 * 2 ^ 8 + 2 ^ 16)
        let c2 := c1.emit (.wire 3 [g, k, cr % 2] [])
        let c3 := if c2.getB pgFlex (FLEX.GRP_STAT_PENDING g) && c2.getB pgFlex (FLEX.GRP_CFG_HANDSHAKE g)
            && ca % 2 == (c2.grp g).target then c2.putGrp g { c2.grp g with ready := true } else c2
        (c3.each (labels.filter (fun l => ch.slotMember g l.1 == some k)) (fun c l => c.labelRx g l.1 (l.2 % 65536))).clientsSettle g))

/-- A write of FLEX GRP_CTRL (R242, R244). -/
def grpCtrlHook (g : Nat) : Hook := fun w ch =>
  if bit w.v 31 then
    match (ch.put w.p w.off w.merged).calRequest g (fld w.v 8 8) with
    | some c1 => c1
    | none => ch.flexRefuse g 9
  else ch.put w.p w.off w.merged

/-- CAL_SWITCH_REQ (R242). -/
def execCalSwitchReq (r : Req) (c : Fin 4) (g target : Nat) (s : State) : Host.Outcome State Fault Refusal :=
  .next (s.chanWrite (grpCtrlHook (g % 8)) true r c pgFlex (FLEX.GRP_CTRL (g % 8)) (BitVec.ofNat 32 (2 ^ 31 + target % 2 * 2 ^ 8)))

/-- CAL_SWITCH_INSTANT (R242, R244): the overhead frame boundary at which the pending request switches. -/
def execCalSwitchInstant (c : Fin 4) (g : Nat) (s : State) : Host.Outcome State Fault Refusal :=
  .next (s.onLive c (fun ch =>
    let x := ch.grp g
    if g < 8 ∧ ch.getB pgFlex (FLEX.GRP_STAT_PENDING g) = true ∧ x.ready = true then
      let c1 := ((ch.putF pgFlex (FLEX.GRP_STAT_TX_CAL g) x.target).putF pgFlex (FLEX.GRP_STAT_PENDING g) 0).putF pgFlex
        (FLEX.GRP_STAT_LAST_SWITCH g) 1
      let c2 := c1.putGrp g { x with ready := false, since := 0, target := 0 }
      let c3 := ((c2.tally pgFlex 0x11 { priv := some 0, agent := some g }).raise pgFlex 10).journal pgFlex clsNone 3 (g + x.target * 2 ^ 8)
      let c4 := if c3.follows g then c3.activatePage g else c3
      ((c4.emit (.wire 4 [g, x.target] [])).clientsSettle g).clientTests g (fun id =>
        (allBelow (c4.slotCount g) (fun j => c4.txCal g (c4.txLetter g) j == id)).length)
    else ch))

/-- CA_TIMEOUT (R244). -/
def execCaTimeout (c : Fin 4) (g : Nat) (s : State) : Host.Outcome State Fault Refusal :=
  .next (s.onLive c (fun ch =>
    if g < 8 ∧ ch.getB pgFlex (FLEX.GRP_STAT_PENDING g) = true ∧ (ch.grp g).ready = false then
      (ch.runTo ((ch.grp g).since + ch.getF pgFlex (FLEX.CA_TIMEOUT_MS g) * 1000000)).calFail g 2
    else ch))

/-- CLIENT_RX_LF (R241): a terminated client begins or ends to receive local fault sequences. -/
def execClientRxLf (c : Fin 4) (n : Nat) (on : Bool) (s : State) : Host.Outcome State Fault Refusal :=
  .next (s.onLive c (fun ch =>
    if n < 128 ∧ ch.getB pgFlex (FLEX.CLIENT_CFG_EN n) = true ∧ ch.getB pgFlex (FLEX.CLIENT_CFG_MODE n) = false then
      (ch.putB pgFlex (FLEX.CLIENT_STAT_RX_LF n) on).clientSettle n
    else ch))

/-! The slot switch (R245–R250). -/

/-- A write of connection memory entry `i` (R246). -/
def connHook (i : Nat) : Hook := fun w ch =>
  let g := i / 1280
  if i / 640 % 2 = ch.getF pgSlot (SLOT.GRP_STAT_ACTIVE_PAGE g) then ch.slotReject
  else
    let c1 := (ch.put w.p w.off w.merged).putF pgSlot (SLOT.GRP_STAT_STBY_VALID g) 0
    { c1 with flex := { c1.flex with parBad := tput false c1.flex.parBad i false } }

/-- CONN_MEM_WRITE (R246). -/
def execConnMemWrite (r : Req) (c : Fin 4) (g page slot : Nat) (v : Word) (s : State) : Host.Outcome State Fault Refusal :=
  let i := connIdx (g % 8) (page % 2) (slot % 640)
  .next (s.chanWrite (connHook i) true r c pgSlot (0x4000 + 4 * i) v)

/-- A write of SLOT GRP_CTRL (R246, R247). -/
def slotCtrlHook (g : Nat) : Hook := fun w ch =>
  let c1 := ch.put w.p w.off w.merged
  let c2 := if bit w.v 31 then (match c1.pageRequest g with
      | some x => x
      | none => c1.slotReject) else c1
  if bit w.v 30 && !((c2.grp g).validating) then
    ((c2.putGrp g { c2.grp g with validating := true }).recordIds g).putF pgSlot STAT_BUSY 1
  else c2

/-- A write of SLOT GRP_CTRL that keeps its stored fields. -/
def State.slotCtrl (s : State) (r : Req) (c : Fin 4) (g b : Nat) : State :=
  let g' := g % 8
  s.chanWrite (slotCtrlHook g') true r c pgSlot (SLOT.GRP_CTRL g') (setFld ((s.chan c).get pgSlot (SLOT.GRP_CTRL g')) b b 1)

/-- SLOT_COMMIT (R246). -/
def execSlotCommit (r : Req) (c : Fin 4) (g : Nat) (s : State) : Host.Outcome State Fault Refusal := .next (s.slotCtrl r c g 30)

/-- SLOT_SWITCH (R247). -/
def execSlotSwitch (r : Req) (c : Fin 4) (g : Nat) (s : State) : Host.Outcome State Fault Refusal := .next (s.slotCtrl r c g 31)

/-- SLOT_COMMIT_DONE (R246): validation ends. -/
def execSlotCommitDone (c : Fin 4) (g : Nat) (s : State) : Host.Outcome State Fault Refusal :=
  .next (s.onLive c (fun ch =>
    if g < 8 ∧ ch.enabled pgSlot = true ∧ (ch.grp g).validating = true then
      let r := ch.validate g
      let c1 := ch.putGrp g { ch.grp g with validating := false }
      let c2 := ((c1.putF pgSlot (SLOT.GRP_STAT_COMMIT_RESULT g) r.1).putF pgSlot (SLOT.GRP_STAT_ERR_SLOT g) r.2).putB pgSlot
        (SLOT.GRP_STAT_STBY_VALID g) (decide (r.1 = 0))
      (c2.putB pgSlot STAT_BUSY ((List.range 8).any (fun h => (c2.grp h).validating))).raise pgSlot 11
    else ch))

/-- PAGE_SWITCH_INSTANT (R247): the overhead frame boundary at which a requested page becomes active. -/
def execPageSwitchInstant (c : Fin 4) (g : Nat) (s : State) : Host.Outcome State Fault Refusal :=
  .next (s.onLive c (fun ch =>
    if g < 8 ∧ ch.grpOn g = true ∧ ch.enabled pgSlot = true ∧ (ch.grp g).pageReq = true then
      (ch.putGrp g { ch.grp g with pageReq := false }).activatePage g
    else ch))

/-- SLOT_PARITY_ERR (R248): the switch reads an active-page entry that fails parity. -/
def execSlotParityErr (c : Fin 4) (g slot : Nat) (s : State) : Host.Outcome State Fault Refusal :=
  .next (s.onLive c (fun ch =>
    if g < 8 ∧ slot < 640 ∧ ch.grpOn g = true ∧ ch.enabled pgSlot = true ∧ ch.getB pgSlot (SLOT.GRP_STAT_FB_ACTIVE g) = false then
      let i := connIdx g (ch.getF pgSlot (SLOT.GRP_STAT_ACTIVE_PAGE g)) slot
      let c1 := { ch with flex := { ch.flex with parBad := tput false ch.flex.parBad i true } }
      let c2 := (c1.putF pgSlot (SLOT.GRP_STAT_ACT_VALID g) 0).putF pgSlot (SLOT.GRP_STAT_PAR_ERR g) 1
      ((c2.capture pgSlot clsContained 10 i 0 0).raise pgSlot 10).fallback g 2
    else ch))

/-- A soft reset of SLOT: every group that is enabled at FLEX falls back (R248). -/
def Chan.slotReset (ch : Chan) : Chan :=
  let c1 := ch.softResetRegs pgSlot
  let c2 := { c1 with flex := { c1.flex with parBad := [], ids := [] } }
  let c3 := c2.each (List.range 8) (fun c g => c.putGrp g { c.grp g with pageReq := false, validating := false })
  c3.each (allBelow 8 (fun g => c3.getB pgFlex (FLEX.GRP_CFG_EN g))) (fun c g => c.fallback g 3)

/-! Performance monitoring (R252–R254). -/

/-- A defect of the entity stands (R252). -/
def Chan.pmDefect (ch : Chan) (e : Nat) : Bool :=
  if e < 32 then
    !(ch.oper e) || (List.range 8).any (fun g => ch.grpOn g && (ch.members g).any (fun k => ch.memberPort g k == e
      && fld (ch.get pgFlex (FLEX.MEMBER_STAT g k)) 31 28 != 0))
  else if e < 40 then
    let g := e - 32
    (ch.members g).any (fun k => !(ch.oper (ch.memberPort g k)) || fld (ch.get pgFlex (FLEX.MEMBER_STAT g k)) 31 28 != 0)
      || ch.getB pgFlex (FLEX.GRP_STAT_SKEW g)
  else
    let n := e - 40
    ch.grpState (ch.getF pgFlex (FLEX.CLIENT_CFG_GROUP n)) != 3 || fld (ch.get pgFlex (FLEX.CLIENT_STAT n)) 30 29 != 0

/-- The record of one entity (R252, R253): of a group, the blocks of its members. -/
def Chan.pmRecord (ch : Chan) (recs : List (Nat × Nat × Nat)) (e : Nat) : Chan :=
  let one := fun (i : Nat) => (recs.find? (fun r => r.1 == i)).getD (i, 0, 0)
  let ports := if 32 ≤ e ∧ e < 40 then (ch.members (e - 32)).map (fun k => ch.memberPort (e - 32) k) else []
  let x := if 32 ≤ e ∧ e < 40 then ports.foldl (fun n p => (e, n.2.1 + (one p).2.1, n.2.2 + (one p).2.2)) (e, 0, 0) else one e
  let d := tget false ch.flex.defSeen e || ch.pmDefect e
  let ses := d || decide (x.2.2 * 3 ≤ x.2.1 * 10)
  let err := min x.2.1 (2 ^ 40 - 1)
  (ch.putN pgPm (PM.REC e) err).putN pgPm (PM.REC e + 4) (b2n d * 2 ^ 31 + b2n ses * 2 ^ 30 + err / 2 ^ 32)

/-- Network time runs on to the instant at which the second in progress closes, where it has not reached it (R252). -/
def Chan.pmCross (ch : Chan) (step : Bool) : Chan :=
  if step then ch
  else ch.runNet ((if ch.flex.pmNext = 0 then ch.timeNs / 1000000000 + 1 else ch.flex.pmNext) * 1000000000)

/-- A second of performance monitoring is latched (R252): the one just ended, or the one that a step has ended. -/
def Chan.pmLatch (ch : Chan) (step : Bool) (recs : List (Nat × Nat × Nat)) : Chan :=
  let now := ch.timeNs / 1000000000
  let sec := if step then ch.flex.pmStep - 1 else now - 1
  let c0 := if ch.flex.pmAcked then ch else
    let c1 := ((ch.inc pgPm PM.LATCH_LOST).raise pgPm 9).journal pgPm clsContained 3 1
    { c1 with flex := { c1.flex with pmLost := true } }
  let c1 := c0.each (List.range 168) (fun c e => c.pmRecord recs e)
  let seen := (allBelow 168 (fun e => c1.pmDefect e)).foldl (fun t e => tput false t e true) []
  let c2 := { c1 with flex := { c1.flex with
    pmAcked := false, defSeen := seen, pmStep := 0, pmNext := if step then c1.flex.pmNext else now + 1 } }
  ((c2.putN pgPm PM.LATCH_SEC sec).putN pgPm PM.LATCH_FLAGS (b2n step * 2 ^ 31 + b2n ch.localTime * 2 ^ 30)).raise pgPm 8

/-- PM_SECOND_LATCH (R252): a second has ended, or the second in progress ends at a step. `recs` are the errored and the
received blocks of the entities that have any. -/
def execPmSecondLatch (c : Fin 4) (step : Bool) (recs : List (Nat × Nat × Nat)) (s : State) : Host.Outcome State Fault Refusal :=
  .next (s.onLive c (fun ch =>
    if ch.enabled pgPm && ch.getB pgPm PM.CFG_EN && step == decide (ch.flex.pmStep ≠ 0) then
      (ch.pmCross step).pmLatch step recs
    else ch))

/-- Change the bin that a second counted in: the current one, or a closed one by the number of boundaries since (R253). -/
def PmEnt.onBin (x : PmEnt) (day : Bool) (age : Nat) (f : PmBin → PmBin) : PmEnt :=
  if day then
    if age = 0 then { x with cur24 := f x.cur24 } else { x with hist24 := x.hist24.modify (age - 1) f }
  else if age = 0 then { x with cur15 := f x.cur15 } else { x with hist15 := x.hist15.modify (age - 1) f }

/-- Change both bins a second counted in. -/
def PmEnt.onSec (x : PmEnt) (p : PmSec) (f : PmBin → PmBin) : PmEnt := (x.onBin false p.age15 f).onBin true p.age24 f

/-- Move a provisional second into unavailable time, or out of it. -/
def PmBin.toUas (p : PmSec) (b : PmBin) : PmBin := { b with es := b.es - b2n p.es, ses := b.ses - b2n p.ses, uas := b.uas + 1 }
def PmBin.fromUas (p : PmSec) (b : PmBin) : PmBin := { b with es := b.es + b2n p.es, ses := b.ses + b2n p.ses, uas := b.uas - 1 }

/-- One second of an entity (R253): the entity; 1 where unavailable time begins or 2 where it ends; and SEC of the first of the ten
seconds. -/
def PmEnt.second (x : PmEnt) (sec err : Nat) (defect ses suspect : Bool) : PmEnt × Nat × Nat :=
  let p : PmSec := { es := defect || decide (0 < err), ses := ses, sec := sec }
  let count := fun (b : PmBin) => { b with
    err := b.err + err, elapsed := b.elapsed + 1, defect := b.defect + b2n defect, suspect := b.suspect || suspect,
    start := if b.elapsed = 0 then sec else b.start }
  let y := x.onSec { es := false, ses := false } count
  let turns := if y.unavail then !ses else ses
  if !turns then
    ({ y with run := [] }.onSec p (fun b => if y.unavail then { b with uas := b.uas + 1 }
      else { b with es := b.es + b2n p.es, ses := b.ses + b2n p.ses }), 0, 0)
  else if y.run.length < 9 then
    ({ y with run := p :: y.run }.onSec p (fun b => if y.unavail then { b with uas := b.uas + 1 }
      else { b with es := b.es + b2n p.es, ses := b.ses + b2n p.ses }), 0, 0)
  else
    let z := y.run.foldl (fun z q => z.onSec q (if y.unavail then PmBin.fromUas q else PmBin.toUas q)) y
    let w := z.onSec p (fun b => if y.unavail then { b with es := b.es + b2n p.es, ses := b.ses + b2n p.ses }
      else { b with uas := b.uas + 1 })
    ({ w with run := [], unavail := !y.unavail }, if y.unavail then 2 else 1, (y.run.getLast?.getD p).sec)

/-- The bins of an entity close (R254): bit 0 the 15-minute bin, bit 1 the 24-hour bin. -/
def PmEnt.close (x : PmEnt) (which next : Nat) : PmEnt :=
  let y := if nbit which 0 then { x with
      hist15 := ({ x.cur15 with incomplete := decide (x.cur15.elapsed < 900) } :: x.hist15).take 16
      cur15 := { start := next }
      run := x.run.map (fun p => { p with age15 := p.age15 + 1 }) } else x
  if nbit which 1 then { y with
      hist24 := ({ y.cur24 with incomplete := decide (y.cur24.elapsed < 86400) } :: y.hist24).take 16
      cur24 := { start := next }
      run := y.run.map (fun p => { p with age24 := p.age24 + 1 }) } else y

/-- Entity kind and index (R261). -/
def pmKind (e : Nat) : Nat × Nat := if e < 32 then (0, e) else if e < 40 then (1, e - 32) else (2, e - 40)

/-- The active keeper classifies the latched second of one entity (R253, R254). Bins whose boundary lies at or before the second close before
it, and those whose boundary it ends at close with it in. -/
def Chan.pmClassify (ch : Chan) (k : Nat) (suspect : Bool) (e : Nat) : Chan :=
  let hi := ch.get pgPm (PM.REC e + 4)
  let sec := ch.nat pgPm PM.LATCH_SEC
  let shut := fun (l : List (Nat × Nat)) (y : PmEnt) => l.foldl (fun (z : PmEnt) b => z.close b.1 b.2) y
  let x := shut (ch.flex.pmClose.filter (fun b => decide (b.2 ≤ sec))) (tget ({} : PmEnt) (ch.ctl k).pm e)
  let r := x.second sec (ch.nat pgPm (PM.REC e) + fld hi 7 0 * 2 ^ 32) (bit hi 31) (bit hi 30) suspect
  let c1 := ch.putCtl k { ch.ctl k with
    pm := tput {} (ch.ctl k).pm e (shut (ch.flex.pmClose.filter (fun b => decide (b.2 = sec + 1))) r.1) }
  let d := (pmKind e).1 + (pmKind e).2 * 2 ^ 8 + r.2.2 % 2 ^ 32 * 2 ^ 32
  if r.2.1 = 1 then (c1.raise pgPm 10).journal pgPm clsDegraded 1 d
  else if r.2.1 = 2 then (c1.raise pgPm 10).journal pgPm clsNone 2 d
  else c1

/-- A write of PM.LATCH_ACK (R252–R254): the keeper has taken the record, and classifies it. -/
def latchAckHook : Hook := fun w ch =>
  if bit w.v 0 = false ∨ ch.flex.pmAcked = true then ch
  else
    let suspect := ch.getB pgPm PM.LATCH_FLAGS_SUSPECT || ch.getB pgPm PM.LATCH_FLAGS_LOCAL_TIME || ch.flex.pmLost
    let c1 := { ch with flex := { ch.flex with pmAcked := true, pmLost := false } }
    match ch.active with
    | none => c1
    | some k =>
      let c2 := c1.each (List.range 168) (fun c e => c.pmClassify k suspect e)
      { c2 with flex := { c2.flex with
        pmClose := c2.flex.pmClose.filter (fun b => decide (ch.nat pgPm PM.LATCH_SEC + 1 < b.2)) } }

/-- PM_LATCH_ACK (R252). -/
def execPmLatchAck (c : Fin 4) (k : Fin 2) (s : State) : Host.Outcome State Fault Refusal :=
  .next (s.chanWrite latchAckHook true (if k.val = 0 then .keeperA else .keeperB) c pgPm PM.LATCH_ACK 1)

/-- The entity that ARG0 names (R261), `none` out of range. -/
def pmEntity (a : Nat) : Option Nat :=
  let i := nbits a 6 0
  if nbits a 31 30 = 0 ∧ i < 32 then some i
  else if nbits a 31 30 = 1 ∧ i < 8 then some (32 + i)
  else if nbits a 31 30 = 2 then some (40 + i)
  else none

/-- The bin that PM_READ names (R261): `none` where no such bin has closed. -/
def PmEnt.bin (x : PmEnt) (day : Bool) (n : Nat) : Option PmBin :=
  if n = 0 then
    some (if day then { x.cur24 with incomplete := decide (x.cur24.elapsed < 86400) }
      else { x.cur15 with incomplete := decide (x.cur15.elapsed < 900) })
  else (if day then x.hist24 else x.hist15)[n - 1]?

/-- PM_READ (R261). -/
def Chan.svcPmRead (ch : Chan) (k tag : Nat) : Chan :=
  let e := pmEntity (ch.svcArg k 0)
  let a1 := ch.svcArg k 1
  ch.svcRun k tag false (e.isNone || decide (16 < nbits a1 4 0)) false false false (fun ch =>
    let x := tget ({} : PmEnt) (ch.ctl k).pm (e.getD 0)
    let resp : List Nat := match x.bin (nbit a1 8) (nbits a1 4 0) with
      | some b => [2 ^ 31 + b2n b.suspect * 2 ^ 30 + b2n b.incomplete * 2 ^ 29 + b2n x.unavail * 2 ^ 28 + b.elapsed % 2 ^ 17,
          b.es, b.ses, b.uas, b.err, b.err / 2 ^ 32, b.start, b.defect]
      | none => [b2n x.unavail * 2 ^ 28, 0, 0, 0, 0, 0, 0, 0]
    ch.svcOk k tag resp)

/-- PM_READ: the host's command. -/
def execPmRead (r : Req) (c : Fin 4) (k : Fin 2) (tag : Nat) (s : State) :
    Host.Outcome State Fault Refusal :=
  .next (s.service r c k tag 0x70 (fun ch => ch.svcPmRead k.val tag))

/-- PM_RESET (R261). The seconds of a run under way stay in it; they count in no bin any more. -/
def Chan.svcPmReset (ch : Chan) (k tag : Nat) : Chan :=
  let e := pmEntity (ch.svcArg k 0)
  ch.svcRun k tag false e.isNone false false false (fun ch =>
    let x := tget ({} : PmEnt) (ch.ctl k).pm (e.getD 0)
    let y : PmEnt := { unavail := x.unavail, run := x.run.map (fun p => { p with age15 := 1000, age24 := 1000 }),
                       cur15 := { suspect := true }, cur24 := { suspect := true } }
    (ch.putCtl k { ch.ctl k with pm := tput {} (ch.ctl k).pm (e.getD 0) y }).svcDone k tag 0)

/-- PM_RESET: the host's command. -/
def execPmReset (r : Req) (c : Fin 4) (k : Fin 2) (tag : Nat) (s : State) :
    Host.Outcome State Fault Refusal :=
  .next (s.service r c k tag 0x71 (fun ch => ch.svcPmReset k.val tag))

end Sys2Proof.Machine
end

