-- ==== Sys2Proof/Machine/Hbm.lean ====
section
/-! DEFINITION. The HBM controllers: start-up training, accesses and ECC, fast and full retrains, repair (R505–R532). -/

namespace Sys2Proof.Machine

/-- Change the working state of the HBM controllers. -/
def Chan.onHbm (ch : Chan) (f : HbmW → HbmW) : Chan := { ch with hbm := f ch.hbm }

/-- The page of the stack of PC `n`. -/
def pcPg (n : Nat) : Pg := pgHbmc (n / 32)

/-- Set PC_STAT.STATE. -/
def Chan.setPcBase (ch : Chan) (n st : Nat) : Chan := ch.putF (pcPg n) (HBMC.PC_STAT_STATE (n % 32)) st

/-- Set the base state of a group. -/
def Chan.setGrpBase (ch : Chan) (g st : Nat) : Chan := ch.putF (pgHbmc (g / 4)) (HBMC.GRP_STAT_STATE (g % 4)) st

/-- Set GRP_STAT.LAST_RESULT: 1 OK, 2 FAILED, 3 ABORTED. -/
def Chan.setLast (ch : Chan) (g v : Nat) : Chan := ch.putF (pgHbmc (g / 4)) (HBMC.GRP_STAT_LAST_RESULT (g % 4)) v

/-- The PCs of a group. -/
def pcsOf (g : Nat) : List Nat := (List.range 8).map (fun i => 8 * g + i)

/-- A group fails: GRP_FAILED, DEGRADED, and the entry (R509, R514). -/
def Chan.failGroup (ch : Chan) (g : Nat) : Chan :=
  if ch.grpBase g = 6 then ch
  else
    let p := pgHbmc (g / 4)
    let c1 := (ch.setGrpBase g 6).putF p HBMC.STATUS_GRP_FAILED (Nat.lor (ch.getF p HBMC.STATUS_GRP_FAILED) (2 ^ (g % 4)))
    (c1.setDegraded p true).journal p clsDegraded 0xB g

/-! The repair log (R521, R522). -/

/-- The active keeper's repair log of a stack. -/
def Chan.rlog (ch : Chan) (k st : Nat) : List RepairRow := tget [] (ch.ctl k).rlog st

/-- Change the repair log of a stack in the active keeper's region. -/
def Chan.onRlog (ch : Chan) (st : Nat) (f : List RepairRow → List RepairRow) : Chan :=
  match ch.active with
  | none => ch
  | some k => ch.putCtl k { ch.ctl k with rlog := tput [] (ch.ctl k).rlog st (f (ch.rlog k st)) }

/-- Change the row's entry of the log; a row without one takes one while the log has room for it (1,024 rows). -/
def Chan.onRow (ch : Chan) (n row : Nat) (f : RepairRow → RepairRow) : Chan :=
  let mine := fun (x : RepairRow) => x.pc == n % 32 && x.row == row
  ch.onRlog (n / 32) (fun l =>
    if l.any mine then l.map (fun x => if mine x then f x else x)
    else if l.length < 1024 then l ++ [f { pc := n % 32, row := row }] else l)

/-- Corrected words seen in a row within 86,400 s (R521). -/
def RepairRow.recent (x : RepairRow) (now : Nat) : List Nat := x.ces.filter (fun t => decide (now < t + 86400))

/-- Key of a hard repair: it survives every reset. -/
def hpprKey (n row : Nat) : Nat := n * 2 ^ 32 + row

/-- A row is repaired for good (R521). -/
def Chan.hardRepair (ch : Chan) (n row : Nat) : Chan :=
  let p := pcPg n
  let c1 := { ch with hppr := ch.hppr ++ [hpprKey n row] }
  ((((c1.onRow n row (fun x => { x with hard := true })).inc p HBMC.HPPR_CNT).raise p 13).journal p clsCorrected 9
    (n + 2 ^ 8 + row * 2 ^ 32))

/-- The row's bank has no spare left: the keeper retires the region that holds the row (R523). -/
def Chan.noSpare (ch : Chan) (n row : Nat) : Chan :=
  let p := pcPg n
  let r := n / 8 * 3072 + row / 256
  let c1 := if regionAccepts 5 (ch.hbmRegion r).st then ch.regionOp 5 0 r else ch
  (c1.raise p 14).journal p clsDegraded 0xA (n + row * 2 ^ 32 + r * 2 ^ 64)

/-! Pauses (R511). -/

/-- The settings of the PCs return to what they were when the pause or the window began. -/
def Chan.restore (ch : Chan) (pcs : List Nat) : Chan :=
  let mine := fun (e : Nat × Nat) => pcs.contains (e.1 / 65536)
  ch.onHbm (fun w => { w with
    timing := (w.saved.filter mine).foldl (fun t e => tput 0 t e.1 e.2) (w.timing.filter (fun e => !(mine e))) })

/-- The present settings of the PCs become the old ones. -/
def Chan.keepOld (ch : Chan) (pcs : List Nat) : Chan :=
  let mine := fun (e : Nat × Nat) => pcs.contains (e.1 / 65536)
  ch.onHbm (fun w => { w with
    saved := (w.timing.filter mine).foldl (fun t e => tput 0 t e.1 e.2) (w.saved.filter (fun e => !(mine e))) })

/-- A row activate (R517, R518): neighbour refreshes by a draw of the on-die random source, and the bank's rolling count. -/
def Chan.activate (ch : Chan) (n bank : Nat) : Chan :=
  let p := pcPg n
  let c0 := ch.tally p 0x10 { priv := some 0, agent := some (n % 32) }
  let k := ch.getF p HBMC.ROWD_CFG_K
  let hit := decide (c0.freeVal k = 0)
  let cnt := if ch.getB p HBMC.ROWD_CFG_RANGE2 then 4 else 2
  let c1 := if ch.getB p HBMC.ROWD_CFG_NREF_EN then
      let d := c0.takeFree
      if hit then (d.inc64 p HBMC.NREF cnt).tally p 0x11 { priv := some 0, agent := some (n % 32) } cnt else d
    else c0
  let thr := tget 0 ch.hbm.rfmThr (n / 32)
  let b := n * 1024 + bank % 1024
  let a := tget 0 c1.hbm.acts b + 1
  if ch.getB p HBMC.STATUS_RFM_SUP && ch.getB p HBMC.ROWD_CFG_RFM_EN && decide (0 < thr) && decide (thr ≤ a) then
    (c1.inc p HBMC.RFM_CNT).onHbm (fun w => { w with acts := tput 0 w.acts b (a - thr) })
  else c1.onHbm (fun w => { w with acts := tput 0 w.acts b a })

/-- An uncorrectable word is read (R520). -/
def Chan.uncorr (ch : Chan) (n : Nat) (x : HbmAcc) : Chan :=
  let p := pcPg n
  let r := hbmRegionOf n x.addr
  let c1 := (((ch.inc p HBMC.UNCORR_CNT).capture p clsContained 12 (x.addr + n * 2 ^ 32) x.syn r).raise p 12).journalSec p
    clsContained 8 n (n + x.addr * 2 ^ 32) (2 ^ 64)
  let c2 := (c1.onRow n (x.addr / 1024) (fun y => { y with uncorr := true })).onHbm (fun w => { w with
    bad := tput false w.bad (n * 2 ^ 24 + x.addr / 64) true })
  if x.src = 10 then
    match ch.hbmBuf n x.addr with
    | some (h, _) => if (c2.buf h).inUse then c2.putBuf h { c2.buf h with hdrBad := true } else c2
    | none => c2
  else if x.src = 8 ∨ x.src = 9 then
    match ch.hbmBuf n x.addr with
    | some (h, o) =>
      let b := c2.buf h
      if b.inUse = false then c2
      else
        let c3 := c2.putBuf h { b with poison := b.poison ++ [o / 64 * 64] }
        if b.poison.isEmpty then c3.inc p HBMC.POISON_TX else c3
    | none => c2
  else c2

/-- An access is served (R507, R517–R520). -/
def Chan.serve (ch : Chan) (n : Nat) (x : HbmAcc) : Chan :=
  let p := pcPg n
  let c0 := if x.act then ch.activate n x.bank else ch
  let c1 := c0.tally p (if x.write then 0x13 else 0x12) { priv := some 0, agent := some (n % 32) }
  let c2 := if x.sev = 1 then c1.inc p HBMC.STACK_CORR_CNT else if x.sev = 2 then c1.inc p HBMC.STACK_UNCORR_CNT else c1
  let key := n * 2 ^ 24 + x.addr / 64
  if x.write then c2.onHbm (fun w => { w with bad := tput false w.bad key false })
  else if x.ecc = 2 ∨ tget false ch.hbm.bad key = true then c2.uncorr n x
  else if x.ecc = 1 then
    ((c2.inc p HBMC.CORR_CNT).corrected p).onRow n (x.addr / 1024) (fun y => { y with
      ces := y.recent (ch.ns / 1000000000) ++ [ch.ns / 1000000000] })
  else c2

/-- The FAST_RETRAIN service that waits for the pause of PC `n` completes with its RESULT (R531). -/
def Chan.fastDone (ch : Chan) (n result : Nat) : Chan :=
  match ch.hbm.svcFast with
  | some (k, tag, m) =>
    if m = n then
      let c1 := ch.onHbm (fun w => { w with svcFast := none })
      if c1.getB (pgKeep k) KEEP.SVC_STAT_BUSY then c1.svcOk k tag [result] else c1
    else ch
  | none => ch

/-- A periodic refresh of PC `n`, with the stack's temperature reading (R518). -/
def Chan.periodic (ch : Chan) (n : Nat) (temp : Word) : Chan :=
  let p := pcPg n
  let t := toSigned (temp.toNat % 256) 8
  let c1 := (ch.putF p HBMC.STATUS_TEMP (temp.toNat % 256)).putB p HBMC.STATUS_TEMP_HIGH (decide (85 < t))
  let thr := tget 0 ch.hbm.rfmThr (n / 32)
  c1.onHbm (fun w => { w with
    acts := (w.acts.filter (fun e => e.1 / 1024 == n)).foldl (fun t e => tput 0 t e.1 (e.2 - thr)) w.acts })

/-- A pause of PC `n` ends: what waited for it is served in order, and the refreshes that were postponed are issued (R507, R511). -/
def Chan.endPause (ch : Chan) (n : Nat) : Chan :=
  let q := ch.hbm.waiting
  let due := ch.hbm.refDue
  let at_ := match ch.hbm.paused with
    | some p => p.2
    | none => ch.ns
  let c1 := (ch.onHbm (fun w => { w with
    paused := none, pauseEnd := tput 0 w.pauseEnd n (ch.ns + 1), waiting := [], refDue := [] })).setPcBase n 2
  let c2 := c1.tally (pcPg n) 0x14 { priv := some 0, agent := some (n % 32) } (cyclesOf 1 (ch.ns - at_))
  (c2.each q (fun c x => c.serve x.1 x.2)).each due (fun c x => c.periodic x.1 x.2)

/-- A pause ends with the old settings and a RESULT of its own: QUEUE_ABORT (3) or TIMEOUT (4) (R511, R529). -/
def Chan.abortPause (ch : Chan) (n result : Nat) : Chan :=
  let p := pcPg n
  let c1 := ((ch.restore [n]).endPause n).inc p HBMC.FAST_ABORT
  let c2 := c1.putN p HBMC.KTRAIN_STAT (2 ^ 30 + result * 2 ^ 16)
  (c2.journal p clsNone 3 (n + result * 2 ^ 8)).fastDone n result

/-- After a training with new settings: MARGIN and TRAIN_TEMP of a PC, and MARGIN_LOW (R512, R528). The margin that the sweep
finds is the stack's: a free value. -/
def Chan.retrained (ch : Chan) (n : Nat) : Chan :=
  let p := pcPg n
  let m := ch.freeVal 8
  let c1 := (ch.takeFree.putF p (HBMC.PC_STAT_MARGIN (n % 32)) m).putF p (HBMC.PC_STAT_TRAIN_TEMP (n % 32)) (ch.getF p HBMC.STATUS_TEMP)
  if m < ch.getF p HBMC.RETRAIN_CFG_MARGIN_MIN then (c1.raise p 15).journal p clsCorrected 4 (n + m * 2 ^ 8) else c1

/-- PAUSE of PC `n`: its RESULT (R511). -/
def Chan.pauseResult (ch : Chan) (n : Nat) : Nat :=
  if ch.hbm.paused.isSome ∨ (tget 0 ch.hbm.pauseEnd n ≠ 0 ∧ ch.ns < tget 0 ch.hbm.pauseEnd n - 1 + 64000) then 1
  else if ch.pcState n ≠ 2 then 6
  else 0

/-- PAUSE of PC `n`. -/
def Chan.pausePc (ch : Chan) (n : Nat) : Chan :=
  if ch.pauseResult n ≠ 0 then ch
  else ((ch.keepOld [n]).onHbm (fun w => { w with paused := some (n, ch.ns) })).setPcBase n 3

/-- A retrain window of group `g` closes (R514): with the new settings (OK) or the old ones. -/
def Chan.closeWindow (ch : Chan) (g : Nat) (ok : Bool) : Chan :=
  let c1 := if ok then ch.each (pcsOf g) (fun c n => c.retrained n) else ch.restore (pcsOf g)
  let c2 := (c1.setGrpBase g 2).setLast g (if ok then 1 else 3)
  let used := (ch.ns - ch.hbm.winAt) / 1000
  let c3 := if ok then c2.onHbm (fun w => { w with last := tput 0 w.last g (ch.ns / 1000000000 + 1) }) else c2
  c3.onHbm (fun w => { w with
    winEnd := 0
    run := match w.run with
      | some r => if r.group = g then some { r with phase := if ok then 3 else 4, tries := r.tries + 1, at_ := ch.ns, used := used } else some r
      | none => none })

/-! Keeper training commands (R510, R529). -/

/-- The helpers act only on a paused PC, or in a group that is RETRAINING (R510). -/
def Chan.helped (ch : Chan) (n : Nat) : Bool := ch.isPaused n || ch.hbmGrp (n / 8) == 5

/-- Use a spare row: PPR_AVAIL, the fewest left in any bank, falls by one or stays, as the stack's banks have it. -/
def Chan.useSpare (ch : Chan) (n : Nat) : Chan :=
  let p := pcPg n
  ch.takeFree.putF p (HBMC.PC_STAT_PPR_AVAIL (n % 32)) (ch.getF p (HBMC.PC_STAT_PPR_AVAIL (n % 32)) - ch.freeVal 1)

/-- Has the row's bank a spare row? While PPR_AVAIL is not 0 every bank has; at 0 the stack decides. -/
def Chan.hasSpare (ch : Chan) (n : Nat) : Bool :=
  ch.getF (pcPg n) (HBMC.PC_STAT_PPR_AVAIL (n % 32)) != 0 || ch.freeVal 1 == 1

/-- SPPR or HPPR of a row of PC `n`: the channel and the RESULT (R521, R523). -/
def Chan.repairRow (ch : Chan) (n row : Nat) (hard : Bool) : Chan × Nat :=
  let p := pcPg n
  if 3072 ≤ row / 256 then (ch, 6)
  else if !(ch.helped n) then (ch, 2)
  else if !(ch.hasSpare n) then (ch.takeFree.noSpare n row, 5)
  else
    let c1 := ch.takeFree.useSpare n
    if hard then (c1.hardRepair n row, 0)
    else
      ((((c1.onRow n row (fun x => { x with soft := true })).inc p HBMC.SPPR_CNT).raise p 13).journal p clsCorrected 9
        (n + row * 2 ^ 32), 0)

/-- One training command: the channel, the RESULT and ERRORS. `st` is the stack, `x` its PC or group field. -/
def Chan.ktrain (ch : Chan) (st op : Nat) (group : Bool) (x arg : Nat) : Chan × Nat × Nat :=
  let p := pgHbmc st
  let n := 32 * st + x
  let g := 4 * st + x % 4
  let errs := ch.getF p HBMC.KTRAIN_STAT_ERRORS
  if group && !(op == 1 || op == 2 || op == 7) then (ch, 6, errs)
  else if op = 0 then (ch.pausePc n, ch.pauseResult n, errs)
  else if op = 1 ∨ op = 2 then
    if group then
      if ch.grpBase g = 5 then (ch.closeWindow g (op == 1), 0, errs) else (ch, 2, errs)
    else if ch.isPaused n then
      let c1 := if op = 1 then ch.retrained n else ch.restore [n]
      (((c1.endPause n).inc p HBMC.FAST_CNT).fastDone n 0, 0, errs)
    else (ch, 2, errs)
  else if op = 3 then
    if 5 ≤ arg % 8 then (ch, 6, errs)
    else if ch.helped n then (ch.takeFree, 0, ch.freeVal 16) else (ch, 2, errs)
  else if op = 4 then
    if ch.helped n then
      (ch.onHbm (fun w => { w with
        timing := tput 0 w.timing ((n * 64 + nbits arg 31 26) * 1024 + nbits arg 25 16) (arg % 65536) }), 0, errs)
    else (ch, 2, errs)
  else if op = 5 ∨ op = 6 then
    let r := ch.repairRow n arg (op == 6)
    (r.1, r.2, errs)
  else if group then
    let c1 := (ch.each (pcsOf g) (fun c m => c.setPcBase m 5)).failGroup g
    let c2 := c1.setLast g 2
    match ch.hbm.run with
    | some r =>
      if r.group = g then
        let c3 := c2.each ((c2.grpRegions g).map Prod.fst) (fun c q => if regionAccepts 5 (c.hbmRegion q).st then c.regionOp 5 0 q else c)
        let c4 := (c3.onHbm (fun w => { w with run := none, winEnd := 0 })).raise p 10
        (c4.journal p clsDegraded 6 (g + 2 * 2 ^ 8 + r.used * 2 ^ 32), 0, errs)
      else (c2, 0, errs)
    | none => (c2, 0, errs)
  else
    let c1 := if ch.isPaused n then ch.endPause n else ch
    ((c1.setPcBase n 5).failGroup (n / 8), 0, errs)

/-- A write of HBMC.KTRAIN_CMD of stack `st` (R529): with GO = 1 the command runs and completes. -/
def ktrainHook (st : Nat) : Hook := fun w ch =>
  let c1 := ch.put w.p w.off w.merged
  if bit w.v 31 then
    let r := c1.ktrain st (fld w.v 30 28) (bit w.v 5) (fld w.v 4 0) (c1.nat (pgHbmc st) HBMC.KTRAIN_ARG)
    r.1.putN (pgHbmc st) HBMC.KTRAIN_STAT (2 ^ 30 + r.2.1 * 2 ^ 16 + r.2.2 % 65536)
  else c1

/-- The write that issues a training command. -/
def State.ktrain (s : State) (r : Req) (c : Fin 4) (st : Fin 2) (op : Nat) (group : Bool) (x : Nat) : State :=
  s.chanWrite (ktrainHook st.val) true r c (pgHbmc st.val) HBMC.KTRAIN_CMD
    (BitVec.ofNat 32 (2 ^ 31 + op * 2 ^ 28 + b2n group * 2 ^ 5 + x % 32))

/-- PAUSE (R511). -/
def execPause (r : Req) (c : Fin 4) (st : Fin 2) (pc : Nat) (s : State) : Host.Outcome State Fault Refusal :=
  .next (s.ktrain r c st 0 false pc)

/-- HBM_RESUME (R511, R514). -/
def execHbmResume (r : Req) (c : Fin 4) (st : Fin 2) (group : Bool) (x : Nat) (s : State) : Host.Outcome State Fault Refusal :=
  .next (s.ktrain r c st 1 group x)

/-- RESTORE (R511, R514). -/
def execRestore (r : Req) (c : Fin 4) (st : Fin 2) (group : Bool) (x : Nat) (s : State) : Host.Outcome State Fault Refusal :=
  .next (s.ktrain r c st 2 group x)

/-- PATTERN (R510). -/
def execPattern (r : Req) (c : Fin 4) (st : Fin 2) (pc : Nat) (s : State) : Host.Outcome State Fault Refusal :=
  .next (s.ktrain r c st 3 false pc)

/-- SET_TIMING (R529). -/
def execSetTiming (r : Req) (c : Fin 4) (st : Fin 2) (pc : Nat) (s : State) : Host.Outcome State Fault Refusal :=
  .next (s.ktrain r c st 4 false pc)

/-- SPPR (R521, R523). -/
def execSppr (r : Req) (c : Fin 4) (st : Fin 2) (pc : Nat) (s : State) : Host.Outcome State Fault Refusal :=
  .next (s.ktrain r c st 5 false pc)

/-- HPPR (R521). -/
def execHppr (r : Req) (c : Fin 4) (st : Fin 2) (pc : Nat) (s : State) : Host.Outcome State Fault Refusal :=
  .next (s.ktrain r c st 6 false pc)

/-- HBM_FAIL (R509, R514). -/
def execHbmFail (r : Req) (c : Fin 4) (st : Fin 2) (group : Bool) (x : Nat) (s : State) : Host.Outcome State Fault Refusal :=
  .next (s.ktrain r c st 7 group x)

/-! Accesses, refresh and pauses. -/

/-- HBM_ACCESS (R507, R511): an access enters the queue of PC `n` and is served, or waits while the PC is paused, or while an earlier access
of its source waits; a queue that reaches 1,008 accesses ends the pause. -/
def execHbmAccess (c : Fin 4) (n : Nat) (a : HbmAcc) (s : State) : Host.Outcome State Fault Refusal :=
  .next (s.onLive c (fun ch =>
    if 64 ≤ n ∨ 805306368 ≤ a.addr ∨ 13 ≤ a.src then ch
    else if a.src != 11 && (ch.isPaused n || (ch.pcBase n == 2 && ch.hbmGrp (n / 8) != 5 && ch.hbm.waiting.any (fun e => e.2.src == a.src))) then
      let c1 := ch.onHbm (fun w => { w with waiting := w.waiting ++ [(n, a)] })
      if ch.isPaused n && decide (1008 ≤ (c1.hbmQueue n).length) then c1.abortPause n 3 else c1
    else if ch.pcBase n = 2 ∧ (ch.hbmGrp (n / 8) ≠ 5 ∨ a.src = 11) ∨ (ch.isPaused n = true ∧ a.src = 11) then ch.serve n a
    else ch))

/-- HBM_REFRESH (R511, R518): a periodic refresh of PC `n`, with the stack's temperature reading; a paused PC takes it after its pause. -/
def execHbmRefresh (c : Fin 4) (n : Nat) (temp : Word) (s : State) : Host.Outcome State Fault Refusal :=
  .next (s.onLive c (fun ch =>
    if 64 ≤ n ∨ ch.enabled (pcPg n) = false then ch
    else if ch.isPaused n then ch.onHbm (fun w => { w with refDue := w.refDue ++ [(n, temp)] })
    else ch.periodic n temp))

/-- PAUSE_TIMEOUT (R511): the pause reaches 2 µs. -/
def execPauseTimeout (c : Fin 4) (s : State) : Host.Outcome State Fault Refusal :=
  .next (s.onLive c (fun ch =>
    match ch.hbm.paused with
    | some (n, t) => (ch.runTo (t + 2000)).abortPause n 4
    | none => ch))

/-- The PC that the rolling fast retrain takes next (R512): first one whose stack temperature has moved by more than TEMP_DELTA
since its training, else the next ONLINE one. -/
def Chan.fastPick (ch : Chan) : Option Nat :=
  let online := allBelow 64 (fun n => ch.pcState n == 2 && ch.hbmGrp (n / 8) == 2)
  let moved := online.find? (fun n =>
    let p := pcPg n
    let d := toSigned (ch.getF p HBMC.STATUS_TEMP) 8 - toSigned (ch.getF p (HBMC.PC_STAT_TRAIN_TEMP (n % 32))) 8
    decide (ch.getF p HBMC.RETRAIN_CFG_TEMP_DELTA < d.natAbs))
  match moved with
  | some n => some n
  | none => match online.find? (fun n => decide (ch.hbm.fastNext ≤ n)) with
    | some n => some n
    | none => online.head?

/-- A group is out for a full retrain: fast retrains wait (R512). -/
def Chan.fastWaits (ch : Chan) : Bool := (List.range 8).any (fun g => ch.grpOut g)

/-- The FAST_RETRAIN service that has waited starts its pause, or completes with the RESULT that refuses one. -/
def Chan.fastStart (ch : Chan) (n : Nat) : Chan :=
  if ch.pauseResult n ≠ 0 then ch.fastDone n (ch.pauseResult n) else ch.pausePc n

/-- FAST_RETRAIN_TICK (R512): unless a group is out for a full retrain, the active keeper starts a fast retrain that was asked for and has
waited, else the next of the rolling ones, FAST_INTERVAL after the last. -/
def execFastRetrainTick (c : Fin 4) (s : State) : Host.Outcome State Fault Refusal :=
  .next (s.onLive c (fun ch =>
    if ch.active.isSome && !ch.fastWaits then
      match ch.hbm.svcFast with
      | some (_, _, m) => if ch.isPaused m then ch else ch.fastStart m
      | none =>
        match ch.fastPick with
        | some n =>
          let iv := ch.getF (pcPg n) HBMC.RETRAIN_CFG_FAST_INTERVAL
          if iv = 0 then ch
          else
            let c1 := if ch.hbm.fastAt = 0 then ch else ch.runTo (ch.hbm.fastAt - 1 + iv * 1000000)
            (c1.onHbm (fun w => { w with fastNext := (n + 1) % 64, fastAt := c1.ns + 1 })).pausePc n
        | none => ch
    else ch))

/-! Start-up training (R508, R509). -/

/-- A write of PAGE_CTRL.ENABLE = 0 or SOFT_RESET is allowed: every region of the stack is UNASSIGNED or RETIRED (R508). -/
def Chan.hbmFree (ch : Chan) (st : Nat) : Bool :=
  ch.cad.regions.all (fun e => e.1 / 12288 != st || e.2.st == 0 || e.2.st == 4)

/-- Put every PC and group of a stack into a state. -/
def Chan.stackState (ch : Chan) (st grp pc : Nat) : Chan :=
  (ch.each (List.range 4) (fun c j => c.setGrpBase (4 * st + j) grp)).each (List.range 32) (fun c i => c.setPcBase (32 * st + i) pc)

/-- ENABLE of a stack has gone from 0 to 1: training starts (R508). -/
def Chan.hbmStart (ch : Chan) (st : Nat) : Chan :=
  let p := pgHbmc st
  let c1 := (ch.putF p HBMC.STATUS_STATE 1).putF p HBMC.STATUS_GRP_FAILED 0
  (c1.stackState st 1 1).onHbm (fun w => { w with trainAt := tput 0 w.trainAt st ch.ns })

/-- The stack is held in reset with its supplies off. -/
def Chan.hbmStop (ch : Chan) (st : Nat) : Chan :=
  let p := pgHbmc st
  let c1 := ((ch.putF p HBMC.STATUS_STATE 0).putF p HBMC.STATUS_GRP_FAILED 0).stackState st 0 0
  let off := match ch.hbm.paused with
    | some x => x.1 / 32 == st
    | none => false
  let freed := if off then ch.hbm.waiting.filter (fun e => e.1 / 32 != st) else []
  (c1.onHbm (fun w => { w with
    waiting := if off then [] else w.waiting.filter (fun e => e.1 / 32 != st)
    refDue := if off then [] else w.refDue
    paused := if off then none else w.paused
    timing := w.timing.filter (fun e => e.1 / 2097152 != st)
    saved := w.saved.filter (fun e => e.1 / 2097152 != st)
    bad := w.bad.filter (fun e => e.1 / 536870912 != st)
    acts := w.acts.filter (fun e => e.1 / 32768 != st) })).setDegraded p false |>.each freed (fun c x => c.serve x.1 x.2)

/-- Step 5 of R508: hard repairs of the log's soft ones. -/
def Chan.trainRepairs (ch : Chan) (st : Nat) : Chan :=
  match ch.active with
  | none => ch
  | some k =>
    if ch.getB (pgHbmc st) HBMC.REPAIR_CFG_HPPR_EN then
      ch.each ((ch.rlog k st).filter (fun x => x.soft && !x.hard)) (fun c x =>
        let n := 32 * st + x.pc
        if c.hasSpare n then (c.takeFree.useSpare n).hardRepair n x.row else c.takeFree.noSpare n x.row)
    else ch

/-- Step 1 of R508 reads the stack's identity: a loaded log of another stack is discarded (R522). -/
def Chan.trainLog (ch : Chan) (st devId : Nat) : Chan :=
  let c1 := ch.onHbm (fun w => { w with devId := tput 0 w.devId st devId })
  match ch.active with
  | none => c1
  | some k =>
    let d := tget 0 (c1.ctl k).rlogDev st
    if d = 0 then c1
    else
      let c2 := c1.putCtl k { c1.ctl k with
        rlogDev := tput 0 (c1.ctl k).rlogDev st 0
        rlog := if d = devId + 1 then (c1.ctl k).rlog else tput [] (c1.ctl k).rlog st [] }
      if d = devId + 1 then c2 else c2.journal (pgHbmc st) clsContained 0xC (st + (d - 1) * 2 ^ 64)

/-- HBM_TRAIN_DONE (R508, R509, R518): the keeper's steps complete. `failStep` is 1 or 2 where the stack fails; `failed` lists PCs of the
stack with the step they fail in; `rfm` is the RFM threshold the stack reports; `avail` gives PPR_AVAIL per PC. -/
def execHbmTrainDone (c : Fin 4) (st : Fin 2) (failStep : Nat) (failed : List (Nat × Nat)) (devId : Nat) (rfm : Option Nat)
    (avail : List Nat) (s : State) : Host.Outcome State Fault Refusal :=
  .next (s.onLive c (fun ch =>
    let p := pgHbmc st.val
    if ch.getF p HBMC.STATUS_STATE ≠ 1 ∨ ch.active.isNone then ch
    else
      let c1 := (ch.trainLog st.val devId).putB p HBMC.STATUS_RFM_SUP rfm.isSome
      let c2 := c1.onHbm (fun w => { w with rfmThr := tput 0 w.rfmThr st.val (rfm.getD 0) })
      if failStep = 1 ∨ failStep = 2 then
        let c3 := ((c2.putF p HBMC.STATUS_STATE 3).each (List.range 32) (fun c i => c.setPcBase (32 * st.val + i) 5)).each (List.range 4)
          (fun c j => c.failGroup (4 * st.val + j))
        (c3.raise p 9).journal p clsDegraded 2 (4 * st.val + 32 * st.val * 2 ^ 8 + failStep * 2 ^ 16)
      else
        let c3 := c2.each (List.range 32) (fun c i =>
          ((c.setPcBase (32 * st.val + i) 2).putF p (HBMC.PC_STAT_PPR_AVAIL i) (min 255 (avail.getD i 0))).retrained (32 * st.val + i))
        let c4 := (c3.each (List.range 4) (fun c j => c.setGrpBase (4 * st.val + j) 2)).trainRepairs st.val
        let c5 := c4.each (failed.filter (fun e => decide (e.1 < 32))) (fun c e =>
          let n := 32 * st.val + e.1
          (((c.setPcBase n 5).raise p 9).journal p clsDegraded 2 (n / 8 + n * 2 ^ 8 + e.2 * 2 ^ 16)).failGroup (n / 8))
        ((c5.putF p HBMC.STATUS_STATE 2).raise p 8).journal p clsNone 1
          (st.val + (ch.ns - tget 0 ch.hbm.trainAt st.val) / 1000000 * 2 ^ 32)))

/-! Full retrain (R513–R516). -/

/-- The argument of an HBM_RETRAIN action names a group of its stack (R514). -/
def hbmArgOk (arg : Nat) : Bool := nbits arg 3 1 / 4 == arg % 2

/-- The action HBM_RETRAIN (R514): `none` ends with TARGET_ERR. -/
def Chan.hbmRetrain (ch : Chan) (arg : Nat) : Option Chan :=
  let g := nbits arg 3 1
  if ch.hbmGrp g = 4 then
    let c1 := (ch.keepOld (pcsOf g)).setGrpBase g 5
    some (c1.onHbm (fun w => { w with
      winAt := ch.ns
      winEnd := ch.ns + nbits arg 31 16 * 1000
      run := match w.run with
        | some r => if r.group = g then some { r with phase := 2, at_ := ch.ns } else some r
        | none => none }))
  else none

/-- RETRAIN_WINDOW_END (R514): the window ends unclosed. -/
def execRetrainWindowEnd (c : Fin 4) (group : Nat) (s : State) : Host.Outcome State Fault Refusal :=
  .next (s.onLive c (fun ch =>
    if group < 8 ∧ ch.grpBase group = 5 then (ch.runTo ch.hbm.winEnd).closeWindow group false else ch))

/-- DRAIN_SLOW (R515, R527): the group has been FENCING for longer than DRAIN_WARN. -/
def execDrainSlow (c : Fin 4) (group : Nat) (s : State) : Host.Outcome State Fault Refusal :=
  .next (s.onLive c (fun ch =>
    match ch.hbm.run with
    | some r =>
      if r.group = group ∧ group < 8 ∧ ch.hbmGrp group = 3 then
        let p := pgHbmc (group / 4)
        let c1 := ch.runTo (r.since + r.warn * 1000000)
        ((c1.putF p (HBMC.GRP_STAT_DRAIN_SLOW (group % 4)) 1).raise p 11).journal p clsContained 7
          (group + ch.busyRegions group * 2 ^ 32)
      else ch
    | none => ch))

/-- The keeper unfences every FENCED region of a group. -/
def Chan.unfenceGroup (ch : Chan) (g : Nat) : Chan :=
  ch.each (((ch.grpRegions g).filter (fun e => e.2.st == 3)).map Prod.fst) (fun c r => c.regionOp 4 0 r)

/-- What the active keeper does for a full retrain at a cycle boundary, but for arming its window (R514): after an OK it
unfences and reports; 1 s after the first ABORTED window it opens one more; after the second it fails the group. -/
def Chan.hbmCycle (ch : Chan) : Chan :=
  match ch.hbm.run with
  | none => ch
  | some r =>
    let p := pgHbmc (r.group / 4)
    if r.phase = 3 then
      (((ch.onHbm (fun w => { w with run := none })).unfenceGroup r.group).raise p 10).journal p clsNone 6
        (r.group + 2 ^ 8 + r.used * 2 ^ 32)
    else if r.phase = 4 ∧ 2 ≤ r.tries then (ch.ktrain (r.group / 4) 7 true (r.group % 4) 0).1
    else if r.phase = 4 ∧ r.at_ + 1000000000 ≤ ch.ns then ch.onHbm (fun w => { w with run := some { r with phase := 0 } })
    else ch

/-- The window that the active keeper arms at this boundary: its argument (R514). -/
def Chan.hbmArm (ch : Chan) : Option Nat :=
  match ch.hbm.run with
  | none => none
  | some r =>
    if r.phase = 0 ∧ ch.hbmGrp r.group = 4 then some (r.group / 4 + r.group * 2 + r.window * 2 ^ 16) else none

/-- FULL_RETRAIN (R515, R531): the keeper fences the group's regions. -/
def Chan.svcFullRetrain (ch : Chan) (k tag : Nat) : Chan :=
  let g := ch.svcArg k 0
  let win := ch.svcArg k 1
  let warn := ch.svcArg k 2
  let bad := decide (8 ≤ g) || decide (65536 ≤ win) || decide (65536 ≤ warn)
  let refused := ch.hbmGrp g != 2 || (List.range 8).any (fun q => q != g && ch.grpOut q)
    || ch.getF (pgHbmc (g / 4)) HBMC.STATUS_STATE != 2
  ch.svcRun k tag false bad refused false false (fun c1 =>
    let rs := ((c1.grpRegions g).filter (fun e => regionAccepts 3 e.2.st)).map Prod.fst
    let c2 := c1.each rs (fun c q => c.regionOp 3 0 q)
    let c3 := c2.onHbm (fun w => { w with
      run := some { group := g, window := if win = 0 then 10000 else win, warn := if warn = 0 then 1000 else warn, since := ch.ns, at_ := ch.ns } })
    let p := pgHbmc (g / 4)
    (((c3.putF p (HBMC.GRP_STAT_DRAIN_SLOW (g % 4)) 0).journal p clsNone 5 g).svcOk k tag []))

/-- FULL_RETRAIN: the host's command. -/
def execFullRetrain (r : Req) (c : Fin 4) (k : Fin 2) (tag : Nat) (s : State) :
    Host.Outcome State Fault Refusal :=
  .next (s.service r c k tag 0x51 (fun ch => ch.svcFullRetrain k.val tag))

/-- ABORT_RETRAIN (R515). -/
def Chan.svcAbortRetrain (ch : Chan) (k tag : Nat) : Chan :=
  let g := ch.svcArg k 0
  ch.svcRun k tag false (decide (8 ≤ g)) (ch.hbmGrp g != 3 && ch.hbmGrp g != 4) false false (fun c1 =>
    let c2 := (c1.unfenceGroup g).setLast g 3
    (c2.onHbm (fun w => { w with
      run := match w.run with
        | some x => if x.group = g then none else some x
        | none => none })).svcOk k tag [])

/-- ABORT_RETRAIN: the host's command. -/
def execAbortRetrain (r : Req) (c : Fin 4) (k : Fin 2) (tag : Nat) (s : State) :
    Host.Outcome State Fault Refusal :=
  .next (s.service r c k tag 0x52 (fun ch => ch.svcAbortRetrain k.val tag))

/-- FAST_RETRAIN (R512, R531): the keeper pauses the PC, as soon as no group is out; the command completes with the RESULT of the pause. -/
def Chan.svcFastRetrain (ch : Chan) (k tag : Nat) : Chan :=
  let n := ch.svcArg k 0
  ch.svcRun k tag false (decide (64 ≤ n)) false false false (fun c1 =>
    if !c1.fastWaits && c1.pauseResult n != 0 then c1.svcOk k tag [c1.pauseResult n]
    else
      let c2 := (if c1.fastWaits then c1 else c1.pausePc n).onHbm (fun w => { w with svcFast := some (k, tag, n) })
      c2.putF (pgKeep k) KEEP.SVC_STAT_BUSY 1)

/-- FAST_RETRAIN: the host's command. -/
def execFastRetrain (r : Req) (c : Fin 4) (k : Fin 2) (tag : Nat) (s : State) :
    Host.Outcome State Fault Refusal :=
  .next (s.service r c k tag 0x53 (fun ch => ch.svcFastRetrain k.val tag))

/-- Registers of the HBMC pages as read (R513, R527, R528). -/
def Chan.hbmView (ch : Chan) (st off : Nat) : Option Nat :=
  if 0x110 ≤ off ∧ off < 0x120 then
    let g := 4 * st + (off - 0x110) / 4
    let w := ch.get (pgHbmc st) off
    let s := ch.hbmGrp g
    some (s * 2 ^ 29 + fld w 28 27 * 2 ^ 27 + (if s = 3 then fld w 26 26 else 0) * 2 ^ 26 + ch.busyRegions g)
  else if 0x120 ≤ off ∧ off < 0x1A0 then
    let n := 32 * st + (off - 0x120) / 4
    some (setFld (ch.get (pgHbmc st) off) 31 29 (ch.pcState n)).toNat
  else none

/-- HBM_STATUS (R531). The seconds since a full retrain that has not been are a value the spec does not state. -/
def Chan.svcHbmStatus (ch : Chan) (k tag : Nat) : Chan :=
  let g := ch.svcArg k 0
  ch.svcRun k tag false (decide (8 ≤ g)) false false false (fun c1 =>
    let p := pgHbmc (g / 4)
    let w := (c1.hbmView (g / 4) (HBMC.GRP_STAT (g % 4))).getD 0
    let l := tget 0 c1.hbm.last g
    let since := if l = 0 then c1.freeVal 32 else c1.ns / 1000000000 - (l - 1)
    let m := (pcsOf g).foldl (fun m n => min m (c1.getF p (HBMC.PC_STAT_MARGIN (n % 32)))) 255
    let due := ((c1.rlog k (g / 4)).filter (fun x => x.soft && !x.hard && x.pc / 8 == g % 4)).length
    (if l = 0 then c1.takeFree else c1).svcOk k tag [w, since, m, due])

/-- HBM_STATUS: the host's command. -/
def execHbmStatus (r : Req) (c : Fin 4) (k : Fin 2) (tag : Nat) (s : State) :
    Host.Outcome State Fault Refusal :=
  .next (s.service r c k tag 0x50 (fun ch => ch.svcHbmStatus k.val tag))

/-! Saving and loading a repair log (R522). -/

/-- Bytes of a repair log entry. -/
def RepairRow.bytes (x : RepairRow) (now : Nat) : List Byte :=
  leBytes 4 x.row ++ leBytes 1 x.pc ++ leBytes 1 (b2n x.soft + 2 * b2n x.hard + 4 * b2n x.uncorr) ++ leBytes 2 (x.recent now).length

/-- The record of a repair log. -/
def Chan.rlogRecord (ch : Chan) (k st : Nat) : List Byte :=
  let l := ch.rlog k st
  let b := leBytes 4 0x4C525048 ++ leBytes 2 1 ++ leBytes 1 st ++ leBytes 1 0 ++ leBytes 8 ch.t64 ++ leBytes 8 (tget 0 ch.hbm.devId st)
    ++ leBytes 2 l.length ++ leBytes 6 0 ++ l.flatMap (fun x => x.bytes (ch.ns / 1000000000))
  b ++ leBytes 4 (crc32 b)

/-- REPAIR_LOG_SAVE (R522). -/
def Chan.svcRepairLogSave (ch : Chan) (k tag : Nat) (dmaErr : Bool) : Chan :=
  let st := ch.svcArg k 0
  ch.svcRun k tag false (decide (2 ≤ st)) (ch.getF (pgHbmc st) HBMC.STATUS_STATE == 1) dmaErr false (fun c1 =>
    (c1.emit (.dma 2 [ch.svcArg k 1 + ch.svcArg k 2 * 2 ^ 32] (c1.rlogRecord k st))).svcOk k tag
      [(c1.rlog k st).length])

/-- REPAIR_LOG_SAVE: the host's command. -/
def execRepairLogSave (r : Req) (c : Fin 4) (k : Fin 2) (tag : Nat) (dmaErr : Bool) (s : State) :
    Host.Outcome State Fault Refusal :=
  .next (s.service r c k tag 0x54 (fun ch => ch.svcRepairLogSave k.val tag (dmaErr || !(s.hostReach c))))

/-- A saved log is good for a stack (R522). -/
def rlogOk (st : Nat) (bs : List Byte) : Bool :=
  let n := leAt bs 24 2
  leAt bs 0 4 == 0x4C525048 && leAt bs 4 2 == 1 && leAt bs 6 1 == st && decide (n ≤ 1024) && decide (leAt bs 8 4 < 1000000000)
    && leAt bs (32 + 8 * n) 4 == crc32 (sliceBytes bs 0 (32 + 8 * n))

/-- The entries of a saved log; its corrected words count as seen at the load. -/
def rlogRows (bs : List Byte) (now : Nat) : List RepairRow :=
  (List.range (leAt bs 24 2)).map (fun e =>
    let f := leAt bs (32 + 8 * e + 5) 1
    {
      pc := leAt bs (32 + 8 * e + 4) 1 % 32, row := leAt bs (32 + 8 * e) 4, soft := nbit f 0, hard := nbit f 1, uncorr := nbit f 2,
      ces := List.replicate (leAt bs (32 + 8 * e + 6) 2) now })

/-- REPAIR_LOG_LOAD (R522): `rec_` is what host memory holds at the address. -/
def Chan.svcRepairLogLoad (ch : Chan) (k tag : Nat) (rec_ : List Byte) (dmaErr : Bool) : Chan :=
  let st := ch.svcArg k 0
  ch.svcRun k tag false (decide (2 ≤ st)) (ch.enabled (pgHbmc st)) dmaErr (!(rlogOk st rec_)) (fun c1 =>
    (c1.putCtl k { c1.ctl k with
      rlog := tput [] (c1.ctl k).rlog st (rlogRows rec_ (ch.ns / 1000000000))
      rlogDev := tput 0 (c1.ctl k).rlogDev st (leAt rec_ 16 8 + 1) }).svcOk k tag [])

/-- REPAIR_LOG_LOAD: the host's command. -/
def execRepairLogLoad (r : Req) (c : Fin 4) (k : Fin 2) (tag : Nat) (rec_ : List Byte) (dmaErr : Bool) (s : State) :
    Host.Outcome State Fault Refusal :=
  .next (s.service r c k tag 0x55 (fun ch => ch.svcRepairLogLoad k.val tag rec_ (dmaErr || !(s.hostReach c))))

end Sys2Proof.Machine
end

