-- ==== Sys2Proof/Machine/Line.lean ====
section
/-! DEFINITION. Line ports: configuration, link state, operations on live ports, the receive path, PFC (R205–R236). -/

namespace Sys2Proof.Machine

/-- A refusal at a port (R230): REFUSE and INT_CAUSE.REFUSED. -/
def Chan.portRefuse (ch : Chan) (p code : Nat) : Chan := (ch.putPortF p LINE.PORT_STAT_REFUSE code).raise (portPg p) 11

/-- The port is a configured lane port of P0–P31. -/
def Chan.isLanePort (ch : Chan) (p : Nat) : Bool := decide (p < 32) && ch.portKind p == 1

/-- TEST_TAKEOVER is 1 on every LINE instance of the port (R218). -/
def Chan.takeover (ch : Chan) (p : Nat) : Bool := (ch.instsOf p).all (fun i => ch.getB (pgLine i) CTRL_TAKEOVER)

/-- PAGE_STAT.TEST_ACTIVE of the LINE pages follows the ports under test (R218). -/
def Chan.testStat (ch : Chan) (p : Nat) : Chan :=
  ch.each (ch.instsOf p) (fun c i => c.putB (pgLine i) STAT_TEST_ACTIVE
    ((allBelow 32 (fun q => (c.pw q).testing)).any (fun q => (c.instsOf q).contains i)))

/-- The operation that runs on a port ends: the port then trains (R218). -/
def Chan.opEnd (ch : Chan) (p : Nat) (stopped : Bool) : Chan :=
  let w := ch.pw p
  let c1 := ch.putPw p { w with op := 0, training := true }
  let c2 := if w.testing then (c1.testStat p).journal (portPg p) clsNone 5 (p + b2n stopped * 2 ^ 8) else c1
  c2.portChanged p 5

/-- An operation of R218 on a lane port: refused on a live port without TEST_TAKEOVER. A recalibration runs on until
RECAL_DONE and a lane test until it ends; the others are the retraining itself. -/
def Chan.portOp (ch : Chan) (p op : Nat) : Chan × Bool :=
  if ch.isLanePort p = false then (ch, true)
  else
    let live := ch.portF p LINE.PORT_STAT_STATE == 3
    if live && !(ch.takeover p) then (ch.portRefuse p 5, false)
    else
      let w := ch.pw p
      let c1 := ch.putPw p { w with op := (if live then 1 else 5) + op, aligned := false, training := false, retry := false }
      let c2 := if live then (c1.journal (portPg p) clsNone 4 (p + op * 2 ^ 8)).testStat p else c1
      let c3 := c2.portChanged p 5
      (if op = 0 ∨ op = 3 then c3 else c3.opEnd p false, true)

/-- EN of a port changes (R209, R213). -/
def Chan.setEn (ch : Chan) (p : Nat) (on : Bool) : Chan :=
  if ch.portB p LINE.PORT_CTRL_EN = on then ch
  else ((ch.putPortF p LINE.PORT_CTRL_EN (b2n on)).putPw p { ch.pw p with enAt := ch.ns * 65536 }).portChanged p 4

/-- The timed action PORT_ENABLE (R213): `none` ends with TARGET_ERR. -/
def Chan.portEnable (ch : Chan) (p : Nat) (on : Bool) : Option Chan :=
  if ch.portKind p = 0 ∨ (ch.portKind p = 1 ∧ ch.portB p LINE.PORT_CFG_FLEXE = true) then none else some (ch.setEn p on)

/-- The port's counters return to 0 (R229, R233). -/
def Chan.cntClear (ch : Chan) (p : Nat) : Chan :=
  (List.range 19).foldl (fun c i => c.put64 (portPg p) (LINE.RX_OK_FRAMES (portBlk p) + 8 * i) 0) ch

/-- A write of PORT_CTRL (R213, R215, R218, R229). -/
def portCtrlHook (p : Nat) : Hook := fun w ch =>
  let r := if bit w.v 3 then ch.portOp p 0 else if bit w.v 4 then ch.portOp p 1 else (ch, true)
  if r.2 then
    let c1 := if bit w.v 5 then r.1.cntClear p else r.1
    (c1.putPortF p LINE.PORT_CTRL_DISCARD (fld w.v 2 2)).setEn p (bit w.v 0)
  else r.1

/-- The encodings of PORT_CFG that are reserved (R4, R205, R206, R228). -/
def portCfgReserved (v : Word) : Bool :=
  let kind := fld v 31 30
  kind == 3 || decide (8 < fld v 23 20)
    || (kind != 0 && !(decide (1518 ≤ fld v 13 0) && decide (fld v 13 0 ≤ 16000)))
    || (kind == 2 && (fld v 29 27 != 0 || fld v 25 18 != 0))
    || (kind == 1 && !(modeLegal (fld v 23 20) (fld v 19 18) (fld v 25 24)))

/-- Why a lane port is refused: the REFUSE code (R207, R228). -/
def Chan.portCfgRefusal (ch : Chan) (p : Nat) (v : Word) : Nat :=
  let n := lanesOf (fld v 19 18)
  let lanes := (List.range n).map (fun k => p + k)
  if fld v 31 30 ≠ 1 then 0
  else if 32 ≤ p then 6
  else if bit v 29 ∧ ¬ (4 ≤ fld v 23 20 ∧ fld v 23 20 ≤ 6) then 7
  else if p % n ≠ 0 then 2
  else if lanes.any (fun l => match ch.laneOwner l with | some q => q != p | none => false) then 1
  else if lanes.any (fun l => ch.getB (pgLine (l / 4)) (LINE.LANE_CFG_PD (l % 4))) then 3
  else 0

/-- A write of PORT_CFG (R207, R208, R228). -/
def portCfgHook (p : Nat) : Hook := fun w ch =>
  if ch.portB p LINE.PORT_CTRL_EN then ch.portRefuse p 4
  else if portCfgReserved w.v then ch.rejectWrite w.p w.off
  else
    let code := ch.portCfgRefusal p w.v
    if code ≠ 0 then ch.portRefuse p code
    else
      let mode := fun (x : Word) => (fld x 31 29, fld x 25 18)
      let c1 := ch.put w.p w.off w.merged
      if mode w.merged = mode w.old then c1
      else
        let c2 := c1.putPw p { c1.pw p with aligned := false, training := true, retry := false, op := 0 }
        ((c2.putPortF p LINE.PORT_STAT_LOCAL_FAULT 0).putPortF p LINE.PORT_STAT_REMOTE_FAULT 0).portChanged p 1

/-- A write of PREEMPT_CFG (R222). -/
def preemptHook (p : Nat) : Hook := fun w ch =>
  if bit w.v 31 ∧ ch.portKind p = 1 ∧ (6 < ch.portF p LINE.PORT_CFG_SPEED ∨ ch.portB p LINE.PORT_CFG_FLEXE = true) then
    ch.portRefuse p 7
  else (ch.put w.p w.off w.merged).verifyStart p

/-- A write of LANE_CFG (R218, R219); a refusal is reported at the port that holds the lane. -/
def laneCfgHook (l : Nat) : Hook := fun w ch =>
  let pdUp := bit w.v 0 && !(bit w.old 0)
  let clr := fun (c : Chan) => if bit w.v 0 then c.put w.p (LINE.LANE_STAT (l % 4)) 0 else c
  match ch.laneOwner l with
  | none => clr (ch.put w.p w.off w.merged)
  | some q =>
    if pdUp then ch.portRefuse q 3
    else if fld w.v 2 1 = fld w.old 2 1 then ch.put w.p w.off w.merged
    else if ch.portF q LINE.PORT_STAT_STATE = 3 then
      let r := ch.portOp q 2
      if r.2 then r.1.put w.p w.off w.merged else r.1
    else ch.put w.p w.off w.merged

/-- The lane ports with a lane in LINE instance `i`. -/
def Chan.portsOfInst (ch : Chan) (i : Nat) : List Nat :=
  allBelow 32 (fun p => ch.portKind p == 1 && (ch.instsOf p).contains i)

/-- PAGE_CTRL.ENABLE of LINE instance `i` has changed (R209). -/
def Chan.lineEnabled (ch : Chan) (i : Nat) : Chan := ch.each (ch.portsOfInst i) (fun c p => c.portChanged p 6)

/-- A soft reset of LINE instance `i` takes down every port with a lane in it and resets its lanes; its registers and the
ports they serve return to reset. -/
def Chan.lineReset (ch : Chan) (i : Nat) : Chan :=
  let own := (List.range 8).map (fun b => blkPort i b)
  let touched := (ch.portsOfInst i ++ own).eraseDups
  let down := fun (c : Chan) (p : Nat) =>
    let w := c.pw p
    let c1 := if w.testing then c.journal (portPg p) clsNone 5 (p + 2 ^ 8) else c
    let c2 := if c1.oper p then c1.operDown p 6 else c1
    c2.putPw p { c2.pw p with op := 0, aligned := false, training := true, retry := false }
  let c1 := ch.each touched down
  let c2 := (c1.softResetRegs (pgLine i)).each own (fun c p => c.putPw p { downs := (c.pw p).downs })
  let c3 := { c2 with laneLow := (List.range 4).foldl (fun n k => setNbit n (4 * i + k) false) c2.laneLow }
  (c3.each touched (fun c p => c.portChanged p 6)).putF (pgLine i) STAT_TEST_ACTIVE 0

/-- PORT_CTRL with its write-only bits 0: what a write that changes one field leaves in the others. -/
def Chan.portCtrl (ch : Chan) (p : Nat) : Word := ch.get (portPg p) (LINE.PORT_CTRL (portBlk p))

/-- A write of a port's PORT_CTRL. -/
def State.portCtrlWrite (s : State) (r : Req) (c : Fin 4) (p : Nat) (v : Word) : State :=
  s.chanWrite (portCtrlHook (p % 64)) true r c (portPg (p % 64)) (LINE.PORT_CTRL (portBlk (p % 64))) v

/-- PORT_CFG_WRITE (R207, R208, R228). -/
def execPortCfgWrite (r : Req) (c : Fin 4) (port : Nat) (v : Word) (s : State) : Host.Outcome State Fault Refusal :=
  .next (s.chanWrite (portCfgHook (port % 64)) true r c (portPg (port % 64)) (LINE.PORT_CFG (portBlk (port % 64))) v)

/-- PORT_EN_WRITE (R213). -/
def execPortEnWrite (r : Req) (c : Fin 4) (port : Nat) (on : Bool) (s : State) : Host.Outcome State Fault Refusal :=
  .next (s.portCtrlWrite r c port (setFld ((s.chan c).portCtrl (port % 64)) 0 0 (b2n on)))

/-- PORT_DISCARD_WRITE (R215). -/
def execPortDiscardWrite (r : Req) (c : Fin 4) (port : Nat) (on : Bool) (s : State) : Host.Outcome State Fault Refusal :=
  .next (s.portCtrlWrite r c port (setFld ((s.chan c).portCtrl (port % 64)) 2 2 (b2n on)))

/-- RECAL (R218). -/
def execRecal (r : Req) (c : Fin 4) (port : Nat) (s : State) : Host.Outcome State Fault Refusal :=
  .next (s.portCtrlWrite r c port (setFld ((s.chan c).portCtrl (port % 64)) 3 3 1))

/-- RESTART_AN (R218). -/
def execRestartAn (r : Req) (c : Fin 4) (port : Nat) (s : State) : Host.Outcome State Fault Refusal :=
  .next (s.portCtrlWrite r c port (setFld ((s.chan c).portCtrl (port % 64)) 4 4 1))

/-- CNT_CLEAR (R229). -/
def execCntClear (r : Req) (c : Fin 4) (port : Nat) (s : State) : Host.Outcome State Fault Refusal :=
  .next (s.portCtrlWrite r c port (setFld ((s.chan c).portCtrl (port % 64)) 5 5 1))

/-- LANE_CFG_WRITE (R218, R219). -/
def execLaneCfgWrite (r : Req) (c : Fin 4) (lane : Nat) (v : Word) (s : State) : Host.Outcome State Fault Refusal :=
  .next (s.chanWrite (laneCfgHook (lane % 32)) true r c (pgLine (lane % 32 / 4)) (LINE.LANE_CFG (lane % 4)) v)

/-- RECAL_DONE (R218): a recalibration completes, or has stopped after TEST_TAKEOVER was cleared. -/
def execRecalDone (c : Fin 4) (port : Nat) (stopped : Bool) (s : State) : Host.Outcome State Fault Refusal :=
  .next (s.onLive c (fun ch =>
    if ch.isLanePort port && ((ch.pw port).op == 1 || (ch.pw port).op == 5) then ch.opEnd port stopped else ch))

/-- A lane carries signal: its clock recovery locks, and its receiver adapts (R211, R227). -/
def Chan.laneSignal (ch : Chan) (l : Nat) : Chan :=
  let q := LINE.LANE_STAT (l % 4)
  ch.put (pgLine (l / 4)) q (setFld (ch.get (pgLine (l / 4)) q) 31 29 7)

/-- LINK_TRAINED (R209, R211, R212, R223): the port's lanes carry signal and its PCS and FEC are aligned. What the part measures of the lane
skew and the FEC alignment is a free value (log 6). -/
def execLinkTrained (c : Fin 4) (port : Nat) (s : State) : Host.Outcome State Fault Refusal :=
  .next (s.onLive c (fun ch =>
    if ch.isLanePort port && (ch.pw port).op == 0 && ch.instsOn port then
      let c1 := ch.each (ch.lanesOfPort port) Chan.laneSignal
      let c2 := c1.takeFree.putPw port
        { c1.pw port with aligned := true, training := false, retry := false, rxAdj := c1.freeVal 32 }
      ((c2.putPortF port LINE.PORT_STAT_LOCAL_FAULT 0).putPortF port LINE.PORT_STAT_REMOTE_FAULT 0).portChanged port 1
    else ch))

/-- LT_FAIL (R210): a training that fails under the timers of the standard. -/
def execLtFail (c : Fin 4) (port lane : Nat) (s : State) : Host.Outcome State Fault Refusal :=
  .next (s.onLive c (fun ch =>
    if ch.isLanePort port && (ch.pw port).training && !(ch.pw port).aligned
        && (ch.portB port LINE.PORT_CFG_AN_EN || ch.portB port LINE.PORT_CFG_LT_EN) then
      let c1 := ch.putPw port { ch.pw port with training := false, retry := true, retryAt := ch.ns }
      ((c1.raise (portPg port) 10).journal (portPg port) clsContained 3 (port + lane % 32 * 2 ^ 8)).portChanged port 1
    else ch))

/-- LT_RETRY (R210): 1 s after the failure the port trains again. -/
def execLtRetry (c : Fin 4) (port : Nat) (s : State) : Host.Outcome State Fault Refusal :=
  .next (s.onLive c (fun ch =>
    if ch.isLanePort port && (ch.pw port).retry then
      let c1 := ch.runTo ((ch.pw port).retryAt + 1000000000)
      (c1.putPw port { c1.pw port with retry := false, training := true }).portChanged port 1
    else ch))

/-- PORT_FAULT (R212): kind 0 loss of signal on a lane, 1 loss of alignment, 2 local fault, 3 remote fault. -/
def execPortFault (c : Fin 4) (port lane kind : Nat) (s : State) : Host.Outcome State Fault Refusal :=
  .next (s.onLive c (fun ch =>
    if ch.isLanePort port && decide (kind < 4) then
      let w := ch.pw port
      let c1 :=
        if kind = 0 then
          let l := port + lane % lanesOf (ch.portF port LINE.PORT_CFG_LANES)
          let q := LINE.LANE_STAT (l % 4)
          (ch.put (pgLine (l / 4)) q (setFld (ch.get (pgLine (l / 4)) q) 31 29 0)).putPw port { w with aligned := false, training := false }
        else if kind = 1 then ch.putPw port { w with aligned := false, training := false }
        else if kind = 2 then ch.putPortF port LINE.PORT_STAT_LOCAL_FAULT 1
        else ch.putPortF port LINE.PORT_STAT_REMOTE_FAULT 1
      c1.portChanged port kind
    else ch))

/-- PORT_FAULT_CLEAR (R212): the fault of that kind ends; signal or alignment that returns lets the port train. -/
def execPortFaultClear (c : Fin 4) (port kind : Nat) (s : State) : Host.Outcome State Fault Refusal :=
  .next (s.onLive c (fun ch =>
    if ch.isLanePort port && decide (kind < 4) then
      let c1 :=
        if kind < 2 then
          let c0 := if kind = 0 then ch.each (ch.lanesOfPort port) Chan.laneSignal else ch
          if (ch.pw port).aligned then c0 else c0.putPw port { c0.pw port with training := true }
        else if kind = 2 then ch.putPortF port LINE.PORT_STAT_LOCAL_FAULT 0
        else ch.putPortF port LINE.PORT_STAT_REMOTE_FAULT 0
      c1.portChanged port kind
    else ch))

/-- DOWN_HOLD_EXPIRY (R212): the fault has persisted, and the port goes oper-down. -/
def execDownHoldExpiry (c : Fin 4) (port : Nat) (s : State) : Host.Outcome State Fault Refusal :=
  .next (s.onLive c (fun ch =>
    if ch.isLanePort port && (ch.pw port).timer == 1 && ch.oper port then
      let c1 := ch.runTo ((ch.pw port).since + ch.portF port LINE.PORT_TIMERS_DOWN_HOLD * 1000000)
      (c1.operDown port (ch.pw port).cause).portChanged port (ch.pw port).cause
    else ch))

/-- UP_HOLD_EXPIRY (R212): the port has stayed UP. -/
def execUpHoldExpiry (c : Fin 4) (port : Nat) (s : State) : Host.Outcome State Fault Refusal :=
  .next (s.onLive c (fun ch =>
    if ch.isLanePort port && (ch.pw port).timer == 2 then
      let c1 := ch.runTo ((ch.pw port).since + ch.portF port LINE.PORT_TIMERS_UP_HOLD * 1000000)
      (c1.portTimer port 0).portChanged port 0
    else ch))

/-- LANE_MARGIN (R211): the lane's MARGIN changes; LANE_MARGIN is raised below THRESH and arms again 4 units above it. -/
def execLaneMargin (c : Fin 4) (lane margin : Nat) (s : State) : Host.Outcome State Fault Refusal :=
  .next (s.onLive c (fun ch =>
    if 32 ≤ lane ∨ 256 ≤ margin then ch
    else
      let p := pgLine (lane / 4)
      let t := ch.getF p LINE.MARGIN_CFG_THRESH
      let c1 := ch.putF p (LINE.LANE_STAT_MARGIN (lane % 4)) margin
      let low := nbit ch.laneLow lane
      if (ch.laneOwner lane).isSome && decide (margin < t) && !low then
        { c1 with laneLow := setNbit c1.laneLow lane true }.raise p 12
      else if t + 4 ≤ margin ∧ low then { c1 with laneLow := setNbit c1.laneLow lane false } else c1))

/-! The receive path. -/

/-- A received PFC frame (R220, R221): the classes honoured take their quanta; the watchdog's classes note the XOFF. -/
def Chan.pfcClass (ch : Chan) (p t quanta : Nat) : Chan :=
  let w := ch.pw p
  let paused := nbit (ch.portF p LINE.PORT_STAT_RX_PAUSED) t
  let bits := setNbit (ch.portF p LINE.PORT_STAT_RX_PAUSED) t (decide (quanta ≠ 0))
  let wd := if quanta = 0 then 0 else if paused then tget 0 w.wdAt t else ch.ns
  let c1 := ch.putPw p { w with
    pause := tput 0 w.pause t quanta, pauseAt := tput 0 w.pauseAt t ch.ns, wdAt := tput 0 w.wdAt t wd }
  (c1.putPortF p LINE.PORT_STAT_RX_PAUSED bits).portTally p 0x15 (some t)

/-- A MAC control frame is consumed (R214 check 7, R220). -/
def Chan.macControl (ch : Chan) (p : Nat) (bs : List Byte) : Chan :=
  let pfc := beAt bs 14 2 == 0x0101
  let vec := beAt bs 16 2
  let quanta := fun (t : Nat) => beAt bs (18 + 2 * t) 2
  let mine := allBelow 8 (fun t => pfc && ch.portB p LINE.PFC_CFG_RX_EN && nbit vec t && nbit (ch.portF p LINE.PFC_CFG_RX_CLASSES) t)
  let ign := mine.filter (fun t => nbit (ch.pw p).wdIgnore t && quanta t != 0)
  let w := ch.pw p
  let c1 := ch.putPw p { w with wdAt := ign.foldl (fun t k => tput 0 t k ch.ns) w.wdAt }
  let act := mine.filter (fun t => !(nbit w.wdIgnore t))
  if act.isEmpty then c1.portInc p LINE.RX_PAUSE_IGN
  else (c1.each act (fun c t => c.pfcClass p t (quanta t))).portInc p LINE.RX_PFC

/-- EN as a frame that arrives now finds it: one whose stamp lies before the last change of EN has the status of before (R213). Both
instants are taken on COSY.LOCAL, which no step moves. -/
def Chan.rxOn (ch : Chan) (p : Nat) : Bool :=
  let stamp : Int := ((ch.ns * 65536 : Nat) : Int) + (ch.arrival p : Int) - (ch.time : Int)
  if stamp < ((ch.pw p).enAt : Int) then !(ch.portB p LINE.PORT_CTRL_EN) else ch.portB p LINE.PORT_CTRL_EN

/-- The checks of R214 in their order, and the entry of the frame that passes them into the packet path. -/
def Chan.rxChecks (ch : Chan) (p : Nat) (bs : List Byte) (truncated fragErr : Bool) : Chan :=
  if ch.rxOn p = false then ch.portInc p LINE.RX_DISABLED
  else if ch.portB p LINE.PORT_CTRL_DISCARD then ch.portInc p LINE.RX_QUIESCE
  else if fragErr then ch.portInc p LINE.RX_FRAG_ERR
  else if truncated || !(fcsOk bs) then (ch.portInc p LINE.RX_FCS_ERR).portTally p 0x12
  else if bs.length < 64 then ch.portInc p LINE.RX_UNDERSIZE
  else if ch.portF p LINE.PORT_CFG_MAX_FRAME < bs.length then ch.portInc p LINE.RX_OVERSIZE
  else if beAt bs 12 2 = 0x8808 then ch.macControl p bs
  else
    let x := ch.arrival p
    let c1 := ((ch.portInc p LINE.RX_OK_FRAMES).portInc p LINE.RX_OK_BYTES bs.length).portTally p 0x10
    c1.dispatchArrive { bytes := bs, port := p, part := ch.portPart p, account := p, t64 := t64Of (x / 65536), frac := x % 65536 / 8192, rx96 := x / 8192 * 8192 }

/-- Can a frame arrive on the port: a lane port with a link that is no FlexE member, or a client port whose client's slots
are delivered to the demapper (R209, R241, R245); no instance decodes during a soft reset. -/
def Chan.canReceive (ch : Chan) (p : Nat) : Bool :=
  if ch.portKind p = 1 then
    decide (p < 32) && !(ch.portB p LINE.PORT_CFG_FLEXE) && (ch.portF p LINE.PORT_STAT_STATE == 3 || ch.oper p)
      && (ch.instsOf p).all (fun i => !(ch.getB (pgLine i) STAT_BUSY))
  else if ch.portKind p = 2 then
    match ch.clientOf p with
    | some n =>
      let g := ch.getF pgFlex (FLEX.CLIENT_CFG_GROUP n)
      ch.clientUp p && (ch.expSlots g (ch.rxLetter g) (ch.getF pgFlex (FLEX.CLIENT_CFG_CLIENT_ID n))).all (fun j => ch.delivered g j)
    | none => false
  else false

/-- A FlexE member with a link: its FEC decodes, and no frame of it passes (R205, R233). -/
def Chan.memberReceives (ch : Chan) (p : Nat) : Bool :=
  ch.isLanePort p && ch.portB p LINE.PORT_CFG_FLEXE && (ch.portF p LINE.PORT_STAT_STATE == 3 || ch.oper p)
    && (ch.instsOf p).all (fun i => !(ch.getB (pgLine i) STAT_BUSY))

/-- RX_FRAME (R214): a frame arrives, with the codewords and symbols its FEC corrected (R233). On a FlexE member, which passes no frames,
only these count. -/
def execRxFrame (c : Fin 4) (port : Nat) (bytes : List Byte) (truncated fragErr : Bool) (corrCw corrSym : Nat) (s : State) :
    Host.Outcome State Fault Refusal :=
  .next (s.onLive c (fun ch =>
    let fec := if corrCw = 0 then ch else
      ((ch.portInc port LINE.FEC_CORR_CW corrCw).portInc port LINE.FEC_CORR_SYM corrSym).portTally port 0x13 none corrCw
    if port < 64 ∧ ch.canReceive port = true then fec.rxChecks port bytes truncated fragErr
    else if ch.memberReceives port then fec
    else ch))

/-- FEC_UNCORR_CW (R234): an uncorrectable codeword; `syms` are the symbols corrected in the last good one. -/
def execFecUncorrCw (c : Fin 4) (port lane syms : Nat) (s : State) : Host.Outcome State Fault Refusal :=
  .next (s.onLive c (fun ch =>
    if ch.isLanePort port then
      let c1 := ((ch.portInc port LINE.FEC_UNCORR_CW).portTally port 0x14).capture (portPg port) clsContained 15 port syms (lane % 32)
      (c1.raise (portPg port) 15).journalSec (portPg port) clsContained 8 port port (2 ^ 32)
    else ch))

/-- A class resumes: its received pause ends. -/
def Chan.pfcResume (ch : Chan) (p t : Nat) : Chan :=
  let w := ch.pw p
  let c1 := ch.putPw p { w with pause := tput 0 w.pause t 0, pauseAt := tput 0 w.pauseAt t 0, wdAt := tput 0 w.wdAt t 0 }
  c1.putPortF p LINE.PORT_STAT_RX_PAUSED (setNbit (ch.portF p LINE.PORT_STAT_RX_PAUSED) t false)

/-- The class is paused by received PFC. -/
def Chan.rxPaused (ch : Chan) (p t : Nat) : Bool := decide (p < 64) && decide (t < 8) && nbit (ch.portF p LINE.PORT_STAT_RX_PAUSED) t

/-- COSY.LOCAL in ns at which the pause of a class runs out: one quantum is 512 bit times at the port speed (R220). -/
def Chan.pauseEnd (ch : Chan) (p t : Nat) : Nat := tget 0 (ch.pw p).pauseAt t + tget 0 (ch.pw p).pause t * 512000 / ch.operRate p

/-- The pause of a class has not run out before an instant of COSY.LOCAL (R221). -/
def Chan.pausedUntil (ch : Chan) (p t ns : Nat) : Bool := decide (ns ≤ ch.pauseEnd p t)

/-- PFC_PAUSE_EXPIRY (R220): the quanta, of 512 bit times each at the port speed, have run out. -/
def execPfcPauseExpiry (c : Fin 4) (port cls : Nat) (s : State) : Host.Outcome State Fault Refusal :=
  .next (s.onLive c (fun ch =>
    if ch.rxPaused port cls then
      (ch.runTo (ch.pauseEnd port cls)).pfcResume port cls
    else ch))

/-- PFC_WD (R221). -/
def execPfcWd (c : Fin 4) (port cls : Nat) (s : State) : Host.Outcome State Fault Refusal :=
  .next (s.onLive c (fun ch =>
    let wd := ch.portF port LINE.PFC_TIMING_RX_WD
    if ch.rxPaused port cls && wd != 0 && ch.pausedUntil port cls (tget 0 (ch.pw port).wdAt cls + wd * 1000000) then
      let c1 := (ch.runTo (tget 0 (ch.pw port).wdAt cls + wd * 1000000)).pfcResume port cls
      let w := c1.pw port
      let c2 := c1.putPw port { w with wdIgnore := setNbit w.wdIgnore cls true, wdAt := tput 0 w.wdAt cls c1.ns }
      (c2.raise (portPg port) 13).journal (portPg port) clsContained 6 (port + cls * 2 ^ 8)
    else ch))

/-- PFC_WD_RELEASE (R221): no XOFF of the class has arrived for RX_WD ms. -/
def execPfcWdRelease (c : Fin 4) (port cls : Nat) (s : State) : Host.Outcome State Fault Refusal :=
  .next (s.onLive c (fun ch =>
    if port < 64 ∧ cls < 8 ∧ nbit (ch.pw port).wdIgnore cls = true then
      let c1 := ch.runTo (tget 0 (ch.pw port).wdAt cls + ch.portF port LINE.PFC_TIMING_RX_WD * 1000000)
      let w := c1.pw port
      c1.putPw port { w with wdIgnore := setNbit w.wdIgnore cls false, wdAt := tput 0 w.wdAt cls 0 }
    else ch))

/-- PFC_XOFF_REPEAT (R220): XOFF is sent again while the request stands, TX_QUANTA ÷ 2 quanta after the last. -/
def execPfcXoffRepeat (c : Fin 4) (port cls : Nat) (s : State) : Host.Outcome State Fault Refusal :=
  .next (s.onLive c (fun ch =>
    if port < 64 ∧ cls < 8 ∧ nbit (ch.pw port).xoff cls = true then
      let q := ch.portF port LINE.PFC_TIMING_TX_QUANTA
      (ch.runTo (tget 0 (ch.pw port).xoffAt cls + q * 256000 / ch.operRate port)).sendPfc port cls q
    else ch))

/-- PREEMPT_VERIFY_DONE (R222, R230). -/
def execPreemptVerifyDone (c : Fin 4) (port : Nat) (ok : Bool) (s : State) : Host.Outcome State Fault Refusal :=
  .next (s.onLive c (fun ch =>
    if port < 64 ∧ ch.portF port LINE.PORT_STAT_VERIFY = 2 then
      if ok then ch.putPortF port LINE.PORT_STAT_VERIFY 3
      else ((ch.putPortF port LINE.PORT_STAT_VERIFY 4).raise (portPg port) 14).journal (portPg port) clsContained 7 port
    else ch))

end Sys2Proof.Machine
end

