-- ==== Sys2Proof/Machine/ActOps.lean ====
section
/-! DEFINITION. Action slots (R172–R184) and what their targets do: the pour with its time check (R193, R194) and the other
targets of R173. Every way in which a slot fires goes through `Chan.fire`. -/

namespace Sys2Proof.Machine

/-- A slot of the action scheduler. -/
def Chan.slot (ch : Chan) (i : Nat) : ActSlot := tget {} ch.act.slots i

/-- Replace a slot. -/
def Chan.putSlot (ch : Chan) (i : Nat) (x : ActSlot) : Chan := { ch with act := { ch.act with slots := tput {} ch.act.slots i x } }

/-- Slots that an owner's arms hold: pending, done or cancelled (R172). -/
def Chan.slotsUsed (ch : Chan) (keeper : Bool) : Nat := (ch.act.slots.filter (fun e => e.2.st != 0 && e.2.keeper == keeper)).length

/-- How many slots an owner's arms may hold (R172). -/
def Chan.slotShare (ch : Chan) (keeper : Bool) : Nat :=
  if keeper then ch.getF pgAct ACT.CFG_KEEPER_SLOTS else 1024 - ch.getF pgAct ACT.CFG_KEEPER_SLOTS

/-- SLOTS_LOW is raised when fewer than 16 slots of the host's share come to be free (R184). -/
def Chan.slotsLow (ch : Chan) : Chan :=
  let low := decide (ch.slotShare false < 16 + ch.slotsUsed false)
  let c1 := { ch with act := { ch.act with low := low } }
  if low && !ch.act.low then c1.raise pgAct 13 else c1

/-- SLOT_INFO of a slot (R183). -/
def ActSlot.info (x : ActSlot) : Nat :=
  x.st * 2 ^ 29 + b2n x.keeper * 2 ^ 28 + b2n x.lateExec * 2 ^ 27 + b2n x.localOk * 2 ^ 26 + b2n x.autoFree * 2 ^ 25
    + b2n x.notify * 2 ^ 24 + x.target % 256 * 2 ^ 16 + x.result * 2 ^ 8

/-- Journal detail of a slot: its number, its target and a 64-bit value (R203). -/
def slotDetail (i : Nat) (x : ActSlot) (v : Nat) : Nat := i + x.target * 2 ^ 16 + v * 2 ^ 64

/-! Brews (R187–R194). -/

/-- NEXT_BREW (R199). -/
def Chan.nextBrew (ch : Chan) : Nat :=
  if ch.brewCurrent then (ch.getF pgBrew BREW.STATUS_CUR_BREW + 1) % 65536 else ch.getF pgBrew BREW.FIRST_NUM_NUM

/-- COSY.TE_BOUND as BREW compares it: 0xFFFF_FFFF in FREE (R193). -/
def Chan.teBound (ch : Chan) : Nat := if ch.localTime then 0xFFFFFFFF else ch.nat pgCosy COSY.TE_BOUND

/-- BREW accepts a POUR arm (R193). -/
def Chan.pourTakes (ch : Chan) (arg : Nat) : Bool := ch.brewState == 3 && arg == ch.nextBrew

/-- The fetch or discard sweep under way ends with no result of its own: a command that BREW accepts takes its place (log 23). -/
def Chan.brewStop (ch : Chan) : Chan :=
  { ch with brew := { ch.brew with staging := none, discarding := false } }.putF pgBrew STAT_BUSY 0

/-- The dispatcher forgets T, and BREW returns to STAGED with a LAST_RESULT where one is stated (R187, R193). -/
def Chan.pourBack (ch : Chan) (res : Option Nat) : Chan :=
  let c1 := { ch with prs := { ch.prs with pourT := 0, pourAt := 0 } }.putF pgBrew BREW.STATUS_STATE 3
  match res with
  | some r => c1.putF pgBrew BREW.STATUS_LAST_RESULT r
  | none => c1

/-- The POUR_FAIL entry (R203). -/
def Chan.pourFail (ch : Chan) (res : Nat) : Chan :=
  ch.journal pgBrew clsContained 2 (ch.nextBrew + res * 2 ^ 16 + ch.teBound * 2 ^ 32)

/-- A POUR slot comes to nothing before its time (R187, R193): NO_TIME is recorded and journalled. -/
def Chan.pourUnarm (ch : Chan) (noTime : Bool) : Chan :=
  if ch.brewState ≠ 4 then ch
  else if noTime then (ch.pourBack (some 4)).pourFail 4
  else ch.pourBack none

/-- The pour of the next brew (R193, R194): `late` when its arm was late, so that its own instant is T. -/
def Chan.pour (ch : Chan) (late : Bool) : Chan :=
  let num := ch.nextBrew
  let prev := ch.getF pgBrew BREW.STATUS_CUR_BREW
  let c1 := { ch with
    prs := { ch.prs with pourAt := ch.ns + 1, pourT := if late then ch.t64 + 1 else ch.prs.pourT }
    brew := { ch.brew with prev := prev, exec := ch.ns } }
  let c2 := ((c1.putF pgBrew BREW.STATUS_STATE 5).putF pgBrew BREW.STATUS_CUR_BREW num).putF pgBrew BREW.STATUS_CUR_PARITY (num % 2)
  let c3 := (c2.put64 pgBrew BREW.POUR_EXEC ch.t64).when late (fun c => c.put64 pgBrew BREW.POUR_T ch.t64)
  (c3.raise pgBrew 9).journal pgBrew clsNone 1 (num + ch.t64 * 2 ^ 64)

/-- A POUR action reaches BREW (R193): the channel and the slot's RESULT, with `ok` for a pour that happens. -/
def Chan.firePour (ch : Chan) (x : ActSlot) (ok : Nat) : Chan × Nat :=
  if ch.brewState ≠ 4 ∨ x.arg ≠ ch.nextBrew then (ch.pourUnarm false, 3)
  else if ch.nat pgBrew BREW.POUR_CFG < ch.teBound then (((ch.pourBack (some 5)).raise pgBrew 10).pourFail 5, 5)
  else (ch.pour x.late, ok)

/-! Firing (R174, R178, R179). -/

/-- The page of a slot's target block (R173). -/
def ActSlot.page (x : ActSlot) : Pg :=
  if x.target = 1 then pgBrew else if x.target = 2 then pgSpout else if x.target = 3 then pgFlex else if x.target = 4 then pgSlot
  else if x.target = 5 then portPg (x.arg % 64) else if x.target = 6 then pgSamp else if x.target = 7 then pgPm
  else if x.target = 8 then pgHbmc (x.arg % 2) else pgJrnl

/-- A sampler's CFG and N hold no reserved value (R355). -/
def Chan.samplerLegal (ch : Chan) (n : Nat) : Bool :=
  let ok := fun (off : Nat) => match findReg .samp off with
    | some h => wordLegal .samp off h (ch.get pgSamp off)
    | none => true
  ok (SAMP.CFG n) && ok (SAMP.N n)

/-- The action of a slot other than a POUR, on an enabled target: `none` where the target refuses the argument (R179). `t` is the
instant of the action, ns of network time. -/
def Chan.target (ch : Chan) (x : ActSlot) (t : Nat) : Option Chan :=
  let a := x.arg
  if x.target = 3 then ch.calRequest (a % 8) (nbits a 8 8)
  else if x.target = 4 then (if ch.getB pgFlex (FLEX.GRP_CFG_EN (a % 8)) then ch.pageRequest (a % 8) else none)
  else if x.target = 5 then ch.portEnable (a % 64) (nbit a 8)
  else if x.target = 6 then (if ch.samplerLegal (a % 64) then some (ch.samplerSet (a % 64) (nbit a 8) 1) else none)
  else if x.target = 7 then
    some { ch with flex := { ch.flex with pmClose := ch.flex.pmClose ++ [(a % 4, x.time / 1000000000)] } }
  else if x.target = 8 then ch.hbmRetrain a
  else some (ch.jrnlRaw (jrnlEntry (t64Of t) ch.quality pgJrnl.source clsNone 1 a))

/-- What the action of a slot does, and the RESULT it ends with; `ok` is the RESULT of an action that happens (R179). -/
def Chan.runTarget (ch : Chan) (x : ActSlot) (ok t : Nat) : Chan × Nat :=
  let busy := ch.inReset.contains (x.page.key 0)
  if busy ∨ (ch.enabled x.page = false ∧ x.target ≠ 2) then (if x.target = 1 then ch.pourUnarm false else ch, 3)
  else if x.target = 1 then ch.firePour x ok
  else if x.target = 2 then
    let r := ch.gateSwap (x.arg % 256) t
    (r.1, if r.2 then ok else 3)
  else match ch.target x t with
    | some c => (c, ok)
    | none => (if x.target = 4 ∧ ch.follows (x.arg % 8) = true then ch.slotReject else ch, 3)

/-- A pending slot fires (R174, R176, R178, R179); `stepped` when a forward step skipped its time. -/
def Chan.fire (ch : Chan) (i : Nat) (stepped : Bool) : Chan :=
  let x := ch.slot i
  let t := if stepped ∨ x.late then ch.timeNs else x.time
  let r := ch.runTarget x (if stepped then 2 else if x.late then 1 else 0) (if x.target = 9 then x.time else t)
  let c1 := (r.1.putSlot i { x with st := if x.autoFree then 0 else 2, result := r.2 }).inc pgAct ACT.FIRED_CNT
  let c2 := if x.notify then c1.raise pgAct 8 else c1
  let c3 := if r.2 = 2 then
      ((c2.inc pgAct ACT.STEP_FIRE_CNT).raise pgAct 10).journal pgAct clsCorrected 2 (slotDetail i x (t64Of x.time))
    else if r.2 = 3 then
      (((c2.capture pgAct clsContained 12 i x.target 0).inc pgAct ACT.TARGET_ERR_CNT).raise pgAct 12).journal pgAct clsContained 4
        (slotDetail i x x.arg)
    else c2
  if x.autoFree then c3.slotsLow else c3

/-- A pending slot moves to CANCELLED with a RESULT (R177, R179). -/
def Chan.cancelSlot (ch : Chan) (i result : Nat) : Chan :=
  let x := ch.slot i
  let c1 := ch.putSlot i { x with st := 3, result := result }
  if x.target = 1 then c1.pourUnarm (result == 4) else c1

/-- The pending slots. -/
def Chan.pendingSlots (ch : Chan) : List (Nat × ActSlot) := ch.act.slots.filter (fun e => e.2.st == 1)

/-- Slot `a` fires before slot `b`: by time, then by order of arming (R174). -/
def ActSlot.before (a b : ActSlot) : Bool := decide (a.due < b.due) || (a.due == b.due && decide (a.order < b.order))

/-- Insert a slot in firing order. -/
def slotInsert (e : Nat × ActSlot) : List (Nat × ActSlot) → List (Nat × ActSlot)
  | [] => [e]
  | f :: l => if e.2.before f.2 then e :: f :: l else f :: slotInsert e l

/-- A forward step from `before` to `after`, ns of network time, fires the slots whose times it skipped, in time order and then arm
order (R179). -/
def Chan.stepFire (ch : Chan) (before after : Nat) : Chan :=
  ch.each ((ch.pendingSlots.filter (fun e => !e.2.late && decide (before < e.2.time) && decide (e.2.time ≤ after))).foldr slotInsert [])
    (fun c e => c.fire e.1 true)

/-- The time state becomes FREE: every pending slot without LOCAL_OK is cancelled with NO_TIME (R179). -/
def Chan.noTimeCancel (ch : Chan) : Chan :=
  ch.each (ch.pendingSlots.filter (fun e => !e.2.localOk)) (fun c e =>
    (((c.cancelSlot e.1 4).inc pgAct ACT.NO_TIME_CNT).raise pgAct 11).journal pgAct clsContained 3 (slotDetail e.1 e.2 0))

/-- A write of 0 to ACT PAGE_CTRL.ENABLE: every pending slot moves to CANCELLED (R179). -/
def Chan.actDisable (ch : Chan) : Chan := ch.each ch.pendingSlots (fun c e => c.cancelSlot e.1 6)

/-- SOFT_RESET of ACT: every slot returns to FREE (R179). -/
def Chan.actReset (ch : Chan) : Chan :=
  let c1 := if ch.pendingSlots.any (fun e => e.2.target == 1) then ch.pourUnarm false else ch
  { c1 with act := {} }

end Sys2Proof.Machine
end

