-- ==== Sys2Proof/Machine/Act.lean ====
section
/-! DEFINITION. The commands of the action scheduler (R175–R178, R180), and its actions reaching their targets (R173, R174). -/

namespace Sys2Proof.Machine

/-! Arming (R175, R176). -/

/-- Bits of the argument that a target names, `none` for a reserved target (R173). -/
def targetArg (code : Nat) : Option Nat :=
  if code = 1 then some 0xFFFF else if code = 2 then some 0xFF else if code = 3 then some 0x107 else if code = 4 then some 0x7
  else if code = 5 then some 0x13F else if code = 6 then some 0x13F else if code = 7 then some 0x3
  else if code = 8 then some 0xFFFF000F else if code = 9 then some (2 ^ 64 - 1) else none

/-- May an arm from the port name the target (R173, R175 check 2)? -/
def targetArmable (keeper : Bool) (code : Nat) : Bool :=
  (targetArg code).isSome && (if keeper then code != 1 else code != 7 && code != 8)

/-- The argument is one that the target's row of R173 allows (R175 check 3). -/
def targetArgOk (code arg : Nat) : Bool :=
  match targetArg code with
  | none => false
  | some m => Nat.land arg (2 ^ 64 - 1 - m) == 0 && (code != 8 || (hbmArgOk arg && nbits arg 31 16 != 0))

/-- The instant an ARM names, from the port's TIME registers (R11). -/
def Chan.armTime (ch : Chan) (d : Nat) : Nat :=
  t64Near (ch.nat pgAct (ACT.HARM_TIME + d + 4)) (ch.nat pgAct (ACT.HARM_TIME + d)) ch.timeNs

/-- The free slots. -/
def Chan.freeSlots (ch : Chan) : List Nat := allBelow 1024 (fun i => (ch.slot i).st == 0)

/-- The status of an ARM (R175, R176): the first check that fails decides; 0 OK, 2 LATE_EXEC. `d` is 0 at the host's port and 0x20
at the keeper's. -/
def Chan.armStatus (ch : Chan) (keeper : Bool) (d : Nat) (w : Word) : Nat :=
  let code := fld w 23 16
  let arg := ch.get64 pgAct (ACT.HARM_ARG + d)
  let lead := if code = 1 then 10000 else 1000
  if ch.enabled pgAct = false then 10
  else if targetArmable keeper code = false then 4
  else if 1000000000 ≤ ch.nat pgAct (ACT.HARM_TIME + d) ∨ targetArgOk code arg = false ∨ (code = 1 ∧ ch.pourTakes arg = false) then 5
  else if ch.localTime ∧ bit w 27 = false then 6
  else if ch.slotShare keeper ≤ ch.slotsUsed keeper ∨ ch.freeSlots = [] then 3
  else if ch.armTime d < ch.timeNs + lead then (if bit w 28 then 2 else 1)
  else 0

/-- A POUR slot is armed: BREW enters ARMED, and the dispatcher and POUR_T take T (R193); after a late arm the dispatcher's T is
the instant of the pour, still to come (R194). -/
def Chan.pourArm (ch : Chan) (t : Nat) (late : Bool) : Chan :=
  ({ ch.brewStop with prs := { ch.prs with pourT := if late then 0 else t64Of t + 1, pourAt := 0 } }.putF pgBrew BREW.STATUS_STATE 4).put64 pgBrew BREW.POUR_T (t64Of t)

/-- The slot of an accepted ARM. -/
def Chan.armSlot (ch : Chan) (keeper : Bool) (d : Nat) (w : Word) (late : Bool) : ActSlot :=
  {
    st := 1, keeper := keeper, lateExec := bit w 28, localOk := bit w 27, autoFree := bit w 26, notify := bit w 25, target := fld w 23 16,
    time := ch.armTime d, arg := ch.get64 pgAct (ACT.HARM_ARG + d), order := ch.act.seq, late := late,
    due := if late then ch.timeNs else ch.armTime d }

/-- Complete the command of a port (R182). -/
def Chan.armDone (ch : Chan) (d status slot : Nat) : Chan := ch.putN pgAct (ACT.HARM_RESULT + d) (2 ^ 31 + status * 2 ^ 16 + slot % 1024)

/-- ARM (R175, R176). The spec gives no rule for the slot that an ARM takes, nor for SLOT of a refused ARM: free values (log 6). -/
def Chan.arm (ch : Chan) (keeper : Bool) (d : Nat) (w : Word) : Chan :=
  let st := ch.armStatus keeper d w
  let c0 := ch.takeFree
  if st = 0 ∨ st = 2 then
    let fs := ch.freeSlots
    let i := fs.getD (ch.freeVal 32 % fs.length) 0
    let x := ch.armSlot keeper d w (st == 2)
    let c1 := { c0 with act := { c0.act with slots := tput {} c0.act.slots i x, seq := c0.act.seq + 1 } }
    let c2 := if x.target = 1 then c1.pourArm x.time x.late else c1
    let c3 := if st = 2 then
        ((c2.inc pgAct ACT.LATE_CNT).raise pgAct 9).journal pgAct clsNone 1 (slotDetail i x (t64Of x.time))
      else c2
    c3.slotsLow.armDone d st i
  else
    let c1 := if st = 1 then (c0.inc pgAct ACT.LATE_CNT).raise pgAct 9 else if st = 6 then c0.inc pgAct ACT.NO_TIME_CNT else c0
    c1.armDone d st (ch.freeVal 10)

/-- CANCEL (R177); `sent` when the slot has already been sent toward its target. -/
def Chan.cancelCmd (ch : Chan) (keeper : Bool) (d i : Nat) (sent : Bool) : Chan :=
  let x := ch.slot i
  if x.st = 0 then ch.armDone d 9 i
  else if x.keeper ≠ keeper then ch.armDone d 7 i
  else if x.st ≠ 1 then ch.armDone d 9 i
  else if sent ∨ x.late then ch.armDone d 8 i
  else (ch.cancelSlot i 6).armDone d 0 i

/-- FREE (R178). The spec states no status for a slot that is FREE or pending: a free value, and the slot stays (log 6). -/
def Chan.freeCmd (ch : Chan) (keeper : Bool) (d i : Nat) : Chan :=
  let x := ch.slot i
  if x.st = 0 then ch.takeFree.armDone d (ch.freeVal 8) i
  else if x.keeper ≠ keeper then ch.armDone d 7 i
  else if x.st = 1 then ch.takeFree.armDone d (ch.freeVal 8) i
  else (ch.putSlot i { x with st := 0 }).slotsLow.armDone d 0 i

/-- A write of HARM_CTRL or KARM_CTRL (R181): GO issues the command, and DONE of an older result clears. -/
def armHook (sent : Bool) : Hook := fun w ch =>
  let keeper := decide (w.off = ACT.KARM_CTRL)
  let d := if keeper then 0x20 else 0
  let c1 := ch.put w.p w.off w.merged
  if bit w.v 31 then
    let c2 := if keeper then { c1 with karmBy := 0 } else c1
    let op := fld w.v 30 29
    if op = 0 then c2.arm keeper d w.v
    else if op = 1 then c2.cancelCmd keeper d (fld w.v 9 0) sent
    else c2.freeCmd keeper d (fld w.v 9 0)
  else if keeper then { c1 with karmBy := (w.r.keeper?.map (· + 1)).getD 0 } else c1

/-- The write that issues a command of a port. -/
def State.armCtrl (s : State) (r : Req) (c : Fin 4) (kport : Bool) (sent : Bool) (v : Nat) : State :=
  s.chanWrite (armHook sent) true r c pgAct (if kport then ACT.KARM_CTRL else ACT.HARM_CTRL) (BitVec.ofNat 32 (2 ^ 31 + v))

/-- ARM (R175). -/
def execArm (r : Req) (c : Fin 4) (kport : Bool) (target : Nat) (lateExec localOk autoFree notify : Bool) (s : State) :
    Host.Outcome State Fault Refusal :=
  .next (s.armCtrl r c kport false (b2n lateExec * 2 ^ 28 + b2n localOk * 2 ^ 27 + b2n autoFree * 2 ^ 26 + b2n notify * 2 ^ 25
    + target % 256 * 2 ^ 16))

/-- CANCEL (R177). -/
def execCancel (r : Req) (c : Fin 4) (kport : Bool) (slot : Nat) (sent : Bool) (s : State) : Host.Outcome State Fault Refusal :=
  .next (s.armCtrl r c kport sent (1 * 2 ^ 29 + slot % 1024))

/-- FREE (R178). -/
def execFree (r : Req) (c : Fin 4) (kport : Bool) (slot : Nat) (s : State) : Host.Outcome State Fault Refusal :=
  .next (s.armCtrl r c kport false (2 * 2 ^ 29 + slot % 1024))

/-- A write of ACT.SLOT_RD_IDX loads SLOT_RD0–4 (R180, R183). -/
def slotRdHook : Hook := fun w ch =>
  let x := ch.slot (fld w.merged 9 0)
  let t := t64Of x.time
  (ch.put w.p w.off w.merged).putList w.p (ACT.SLOT_RD 0) [t, t / 2 ^ 32, x.arg, x.arg / 2 ^ 32, x.info]

/-- SLOT_RD_IDX_WRITE (R180). -/
def execSlotRdIdxWrite (r : Req) (c : Fin 4) (slot : Nat) (s : State) : Host.Outcome State Fault Refusal :=
  .next (s.chanWrite slotRdHook true r c pgAct ACT.SLOT_RD_IDX (BitVec.ofNat 32 (slot % 1024)))

/-! Actions reach their targets (R173, R174). -/

/-- The instant of a slot's action: the slot is pending with the target named, and no pending slot goes before it; network time
runs on to it. -/
def Chan.fireDue (ch : Chan) (code i : Nat) : Chan :=
  let x := ch.slot i
  if i < 1024 ∧ x.st = 1 ∧ x.target = code ∧ ch.pendingSlots.any (fun e => e.2.before x) = false then (ch.runNet x.due).fire i false
  else ch

/-- POUR (R193). -/
def execPour (c : Fin 4) (slot : Nat) (s : State) : Host.Outcome State Fault Refusal := .next (s.onLive c (fun ch => ch.fireDue 1 slot))

/-- GATE_SWAP (R468). -/
def execGateSwap (c : Fin 4) (slot : Nat) (s : State) : Host.Outcome State Fault Refusal :=
  .next (s.onLive c (fun ch => ch.fireDue 2 slot))

/-- CAL_SWITCH (R242). -/
def execCalSwitch (c : Fin 4) (slot : Nat) (s : State) : Host.Outcome State Fault Refusal :=
  .next (s.onLive c (fun ch => ch.fireDue 3 slot))

/-- SLOT_PAGE (R247). -/
def execSlotPage (c : Fin 4) (slot : Nat) (s : State) : Host.Outcome State Fault Refusal :=
  .next (s.onLive c (fun ch => ch.fireDue 4 slot))

/-- PORT_ENABLE (R213). -/
def execPortEnable (c : Fin 4) (slot : Nat) (s : State) : Host.Outcome State Fault Refusal :=
  .next (s.onLive c (fun ch => ch.fireDue 5 slot))

/-- SAMPLER (R355). -/
def execSampler (c : Fin 4) (slot : Nat) (s : State) : Host.Outcome State Fault Refusal :=
  .next (s.onLive c (fun ch => ch.fireDue 6 slot))

/-- PM_BIN (R254). -/
def execPmBin (c : Fin 4) (slot : Nat) (s : State) : Host.Outcome State Fault Refusal :=
  .next (s.onLive c (fun ch => ch.fireDue 7 slot))

/-- HBM_RETRAIN (R514). -/
def execHbmRetrain (c : Fin 4) (slot : Nat) (s : State) : Host.Outcome State Fault Refusal :=
  .next (s.onLive c (fun ch => ch.fireDue 8 slot))

/-- JRNL_MARKER (R173). -/
def execJrnlMarker (c : Fin 4) (slot : Nat) (s : State) : Host.Outcome State Fault Refusal :=
  .next (s.onLive c (fun ch => ch.fireDue 9 slot))

/-- ACT.STATUS as read (R180). -/
def Chan.actView (ch : Chan) (off : Nat) : Option Nat :=
  if off = ACT.STATUS then some (ch.slotsUsed true * 2 ^ 16 + ch.slotsUsed false) else none

end Sys2Proof.Machine
end

