-- ==== Sys2Proof/Machine/Brew.lean ====
section
/-! DEFINITION. The commands of BREW: STAGE, COMMIT, DISCARD, the retire of the previous brew and the keeper's sweeps (R187–R194,
R328). -/

namespace Sys2Proof.Machine

/-- Complete a command of BREW (R202). -/
def Chan.brewDone (ch : Chan) (res : Nat) : Chan := (ch.putF pgBrew BREW.STATUS_LAST_RESULT res).raise pgBrew 8

/-- STAGE starts its fetch (R187, R188). -/
def Chan.brewStage (ch : Chan) : Chan :=
  let st := ch.brewState
  if st = 0 ∨ st = 1 ∨ st = 2 then
    let c0 := ch.brewStop
    let c1 := if st = 2 then c0 else { c0 with prs := { c0.prs with fromEmpty := decide (st = 0) } }.putF pgBrew BREW.STATUS_STATE 2
    { c1 with brew := { c1.brew with staging := some (ch.nat pgBrew BREW.IMG_LEN) } }.putF pgBrew STAT_BUSY 1
  else ch.brewDone 3

/-- COMMIT (R187, R188). -/
def Chan.brewCommit (ch : Chan) : Chan :=
  if ch.brewState = 2 then
    let c0 := ch.brewStop
    if ch.prs.fromEmpty then
      let n := ch.getF pgBrew BREW.FIRST_NUM_NUM
      let c1 := { c0 with prs := { c0.prs with fromEmpty := false } }
      (((c1.putF pgBrew BREW.STATUS_STATE 1).putF pgBrew BREW.STATUS_CUR_BREW n).putF pgBrew BREW.STATUS_CUR_PARITY (n % 2)).brewDone 0
    else (c0.putF pgBrew BREW.STATUS_STATE 3).brewDone 0
  else ch.brewDone 3

/-- DISCARD starts its sweep (R187, R189). -/
def Chan.brewDiscard (ch : Chan) : Chan :=
  if ch.brewState = 2 ∨ ch.brewState = 3 then
    { ch.brewStop with brew := { ch.brew with staging := none, discarding := true } }.putF pgBrew STAT_BUSY 1
  else ch.brewDone 3

/-- RETIRE_DELAY has run on COSY.LOCAL (R194). -/
def Chan.retireRun (ch : Chan) : Bool := decide (ch.brew.exec + ch.getF pgBrew BREW.RETIRE_DELAY_MS * 1000000 ≤ ch.ns)

/-- The retire (R194): the previous bank stops being live. -/
def Chan.brewRetire (ch : Chan) : Chan :=
  { ch with brew := { ch.brew with dropAt := ch.nat pgBrew BREW.INACTIVE_DROP } }.putF pgBrew BREW.STATUS_STATE 6

/-- A write of BREW.CTRL (R187, R194, R201): command bits in rising order, each judged in the state it finds. -/
def brewCtrlHook : Hook := fun w ch =>
  let c1 := ch.put w.p w.off w.merged
  let c2 := if bit w.old 5 && !(bit w.v 5) && ch.brewState == 5 && ch.retireRun then c1.brewRetire else c1
  let c3 := if bit w.v 2 then c2.brewStage else c2
  let c4 := if bit w.v 3 then c3.brewCommit else c3
  if bit w.v 4 then c4.brewDiscard else c4

/-- A write of BREW.FIRST_NUM: refused outside EMPTY (R199). -/
def firstNumHook : Hook := fun w ch =>
  if ch.brewState = 0 then ch.put w.p w.off w.merged else ch.putF pgBrew BREW.STATUS_LAST_RESULT 3

/-- STAGE (R188); `hold` is the RETIRE_HOLD that the write carries. -/
def execStage (r : Req) (c : Fin 4) (hold : Bool) (s : State) : Host.Outcome State Fault Refusal :=
  .next (s.chanWrite brewCtrlHook true r c pgBrew BREW.CTRL (BitVec.ofNat 32 (4 + b2n hold * 32)))

/-- COMMIT (R187). -/
def execCommit (r : Req) (c : Fin 4) (hold : Bool) (s : State) : Host.Outcome State Fault Refusal :=
  .next (s.chanWrite brewCtrlHook true r c pgBrew BREW.CTRL (BitVec.ofNat 32 (8 + b2n hold * 32)))

/-- DISCARD (R189). -/
def execDiscard (r : Req) (c : Fin 4) (hold : Bool) (s : State) : Host.Outcome State Fault Refusal :=
  .next (s.chanWrite brewCtrlHook true r c pgBrew BREW.CTRL (BitVec.ofNat 32 (16 + b2n hold * 32)))

/-- The lowest PAGE_REV minor of the PCLU and STRN pages (R54, R327 check 3). -/
def stageMinor : Nat := min (Config.revMinor 0x0E).toNat (Config.revMinor 0x10).toNat

/-- A passing image is written into bank `p`, whose poisoned words are good again (R283, R328, R359). -/
def Chan.writeBank (ch : Chan) (p : Nat) (b : BrewBank) : Chan :=
  let c1 := ch.putBank p b
  {
    c1 with
    prs := { c1.prs with poison := c1.prs.poison.filter (fun e => e.1 / 4096 % 2 != p) }
    strn := { c1.strn with poison := c1.strn.poison.filter (fun e => e.1 / 65536 % 2 != p) } }

/-- STAGE_DONE (R188, R327, R328): the fetch of the image ends, with the bytes read, or with a DMA error at a byte offset. -/
def execStageDone (c : Fin 4) (img : List Byte) (dmaErr : Option Nat) (s : State) : Host.Outcome State Fault Refusal :=
  .next (s.onLive c (fun ch =>
    match ch.brew.staging with
    | none => ch
    | some n =>
      let c1 := { ch with brew := { ch.brew with staging := none } }.putF pgBrew STAT_BUSY 0
      let bytes := sliceBytes img 0 n
      match dmaErr with
      | some o => (c1.capture pgBrew clsContained 8 o 0 0).brewDone 2
      | none =>
        match imageCheck bytes n stageMinor with
        | some o => (c1.capture pgBrew clsContained 8 o 0 0).brewDone 1
        | none => (c1.writeBank (ch.nextBrew % 2) (bankOf bytes)).brewDone 0))

/-! Sweeps (R189, R194). -/

/-- The mask of an entry after a sweep that takes away parity `q`: 0 where the entry is freed. -/
def sweptMask (q m : Nat) : Nat := if m = 2 ^ q then 0 else if m = 2 ^ (1 - q) then 3 else m

/-- Every entry of parity `q` alone is freed, and every entry of the other parity alone is set to 0b11 (R189, R194). -/
def Chan.maskSweep (ch : Chan) (q : Nat) : Chan :=
  ch.onTbl (fun w => { w with
    em := (w.em.filter (fun e => sweptMask q e.2.mask != 0)).map (fun e => (e.1, { e.2 with mask := sweptMask q e.2.mask }))
    lpm := w.lpm.foldl (fun t e =>
      tput [] t e.1 ((e.2.filter (fun p => sweptMask q p.mask != 0)).map (fun p => { p with mask := sweptMask q p.mask }))) []
    tern := w.tern.foldl (fun t e =>
      tput [] t e.1 ((e.2.filter (fun p => sweptMask q p.mask != 0)).map (fun p => { p with mask := sweptMask q p.mask }))) [] })

/-- DISCARD_SWEEP_DONE (R187, R189): the active keeper's sweep ends. -/
def execDiscardSweepDone (c : Fin 4) (s : State) : Host.Outcome State Fault Refusal :=
  .next (s.onLive c (fun ch =>
    if ch.brew.discarding ∧ ch.active.isSome then
      let num := ch.nextBrew
      let c1 := (ch.maskSweep (num % 2)).putF pgBrew STAT_BUSY 0
      let c2 := { c1 with brew := { c1.brew with discarding := false }, prs := { c1.prs with fromEmpty := false } }
      ((c2.putF pgBrew BREW.STATUS_STATE (if ch.prs.fromEmpty then 0 else 1)).brewDone 6).journal pgBrew clsNone 4 num
    else ch))

/-- RETIRE (R194): RETIRE_DELAY ends with RETIRE_HOLD clear; COSY.LOCAL runs on to its end where it has not reached it. -/
def execRetire (c : Fin 4) (s : State) : Host.Outcome State Fault Refusal :=
  .next (s.onLive c (fun ch =>
    if ch.brewState = 5 ∧ ch.getB pgBrew BREW.CTRL_RETIRE_HOLD = false then
      (ch.runTo (ch.brew.exec + ch.getF pgBrew BREW.RETIRE_DELAY_MS * 1000000)).brewRetire
    else ch))

/-- RETIRE_SWEEP_DONE (R194): the active keeper's sweep ends. -/
def execRetireSweepDone (c : Fin 4) (s : State) : Host.Outcome State Fault Refusal :=
  .next (s.onLive c (fun ch =>
    if ch.brewState = 6 ∧ ch.active.isSome then
      (((ch.maskSweep (ch.brew.prev % 2)).putF pgBrew BREW.STATUS_STATE 1).raise pgBrew 11).journal pgBrew clsNone 3
        (ch.brew.prev + ch.brew.dropAt * 2 ^ 32)
    else ch))

/-- POUR_TAG_SETTLE (R191): 2 µs after the pour. -/
def execPourTagSettle (c : Fin 4) (s : State) : Host.Outcome State Fault Refusal :=
  .next (s.onLive c (fun ch =>
    if ch.prs.pourAt = 0 then ch
    else
      let c1 := ch.runTo (ch.prs.pourAt - 1 + 2000)
      { c1 with prs := { c1.prs with pourT := 0, pourAt := 0 } }))

/-- SOFT_RESET of BREW: EMPTY (R187). The banks keep their contents, and neither is live. -/
def Chan.brewReset (ch : Chan) : Chan :=
  { ch with brew := {}, prs := { ch.prs with fromEmpty := false, pourT := 0, pourAt := 0 } }

/-- What reads of the BREW page show where it is not the stored word (R199, R200). -/
def Chan.brewView (ch : Chan) (off : Nat) : Option Nat :=
  if off = BREW.NEXT then some ch.nextBrew
  else if off = BREW.STATUS then
    some (setFld (ch.get pgBrew BREW.STATUS) 27 27
      (b2n (ch.brewState == 5 && ch.retireRun && ch.getB pgBrew BREW.CTRL_RETIRE_HOLD))).toNat
  else none

end Sys2Proof.Machine
end

