-- ==== Sys2Proof/Machine/CosyOps.lean ====
section
/-! DEFINITION. Shared operations of Cosy: time states (R147, R148, R623), the holdover bound (R155, R156), sources (R135–R137),
and steps (R151, R152). -/

namespace Sys2Proof.Machine

/-- COSY.STATUS.STATE: 0 FREE, 1 ACQUIRING, 2 LOCKED, 3 HOLDOVER, 4 HOLDOVER_EXPIRED (R123, R147). -/
def Chan.timeState (ch : Chan) : Nat := ch.getF pgCosy COSY.STATUS_STATE

/-! The oscillator temperature (R154, R609). -/

/-- The thermistor reading is valid. -/
def Chan.thermOk (ch : Chan) : Bool := ch.getB (pgPwr 0) PWR.OSC_THERM_VALID

/-- The mean of the FE die sensors, 1/16 °C. -/
def Chan.dieMean (ch : Chan) : Int :=
  let l := (List.range 24).filter (fun i => ch.getB (pgSens 0) (SENS.TEMP_VALID i))
  let sum : Int := l.foldl (fun (n : Int) i => n + toSigned (ch.getF (pgSens 0) (SENS.TEMP_VAL i)) 16) 0
  sum / (max 1 l.length : Nat)

/-- The oscillator temperature T, 1/16 °C. -/
def Chan.oscTemp (ch : Chan) : Int :=
  if ch.getF pgCosy COSY.HO_CFG_TEMP_SRC = 0 ∧ ch.thermOk = true then toSigned (ch.getF (pgPwr 0) PWR.OSC_THERM_VAL) 16
  else ch.dieMean

/-! Exact values of IEEE 754 patterns, as fractions. -/

/-- A nonnegative fraction: numerator and denominator. -/
abbrev Frac := Nat × Nat

/-- The larger of two fractions. -/
def fracMax (a b : Frac) : Frac := if a.1 * b.2 < b.1 * a.2 then b else a

/-- |x| of a finite binary64 pattern. -/
def f64Abs (b : Nat) : Frac :=
  let e := nbits b 62 52
  let m := nbits b 51 0
  if e = 0 then (m, 2 ^ 1074)
  else if e < 1075 then (2 ^ 52 + m, 2 ^ (1075 - e)) else ((2 ^ 52 + m) * 2 ^ (e - 1075), 1)

/-- A binary64 pattern is a finite number. -/
def f64Finite (b : Nat) : Bool := nbits b 62 52 != 0x7FF

/-- A binary64 pattern is below zero. -/
def f64Neg (b : Nat) : Bool := nbit b 63 && nbits b 62 0 != 0

/-- A binary32 pattern is a finite number. -/
def f32Finite (b : Nat) : Bool := nbits b 30 23 != 0xFF

/-- A finite binary32 pattern in units of 2^-149. -/
def f32Val (b : Nat) : Int :=
  let e := nbits b 30 23
  let m : Nat := if e = 0 then nbits b 22 0 else (2 ^ 23 + nbits b 22 0) * 2 ^ (e - 1)
  if nbit b 31 then -(m : Int) else m

/-! The holdover bound (R155, R156). -/

/-- MODEL_Q that LEARN_SEC gives: 0 NONE, 1 QUALIFIED, 2 FULL (R155). -/
def qualityOf (sec : Nat) : Nat := if sec < 86400 then 0 else if sec < 259200 then 1 else 2

/-- The coefficients e_f, e_a per second, e_T and W of R156 for a quality, never below the floors. -/
def coefs (q : Nat) (m : OscModel) : Frac × Frac × Frac × Frac :=
  let lift := fun (f : Frac) (b : Nat) => if q = 0 then f else fracMax f (f64Abs b)
  if q = 0 then ((1, 10 ^ 9), (1, 10 ^ 10 * 86400), (5, 10 ^ 11), (10, 1))
  else if q = 1 then (lift (5, 10 ^ 11) m.ef, lift (1, 10 ^ 11 * 86400) m.ea, lift (1, 10 ^ 11) m.et, lift (3, 1) m.w)
  else (lift (1, 10 ^ 11) m.ef, lift (2, 10 ^ 12 * 86400) m.ea, lift (1, 10 ^ 12) m.et, lift (1, 1) m.w)

/-- The integer square root, bit by bit from bit `n` down. -/
def isqrtFrom (x : Nat) : Nat → Nat → Nat
  | 0, r => if (r + 1) * (r + 1) ≤ x then r + 1 else r
  | n + 1, r => isqrtFrom x n (if (r + 2 ^ (n + 1)) * (r + 2 ^ (n + 1)) ≤ x then r + 2 ^ (n + 1) else r)

/-- The square root rounded up. -/
def csqrt (x : Nat) : Nat :=
  let r := isqrtFrom x (x.log2 / 2 + 1) 0
  if r * r = x then r else r + 1

/-- `a + w·√t` rounded up to a whole number, for fractions `a` and `w`. -/
def ceilSqrtSum (a w : Frac) (t : Nat) : Nat := ceilDiv (a.1 * w.2 + csqrt (a.2 * a.2 * w.1 * w.1 * t)) (a.2 * w.2)

/-- Sum of two fractions. -/
def fracAdd (a b : Frac) : Frac := (a.1 * b.2 + b.1 * a.2, a.2 * b.2)

/-- A fraction times a whole number. -/
def fracMul (a : Frac) (n : Nat) : Frac := (a.1 * n, a.2)

/-- B(t) plus the corrections of R149, rounded up to ns (R156): `e0` in ns, `sumT` in 1/16 K·s, `corr` in 1/256 ns. -/
def boundOf (q : Nat) (m : OscModel) (e0 t sumT corr : Nat) : Nat :=
  let k := coefs q m
  let rate := fracAdd (fracMul k.1 (t * 10 ^ 9)) (fracAdd (fracMul k.2.1 (t * (t + 1) / 2 * 10 ^ 9))
    (((k.2.2.1.1 * sumT * 10 ^ 9), k.2.2.1.2 * 16)))
  min (ceilSqrtSum (fracAdd (e0 * 256 + corr, 256) rate) k.2.2.2 t) 0xFFFFFFFE

/-- Seconds of network time since holdover began (R623). -/
def Chan.hoTime (ch : Chan) : Nat := (ch.timeNs - ch.cosy.hoNs) / 1000000000

/-- The quality whose coefficients apply: NONE while the counter runs from REFCLK (R131). -/
def Chan.boundQ (ch : Chan) : Nat := if ch.getB pgCosy COSY.STATUS_CLK_SRC then 0 else ch.getF pgCosy COSY.STATUS_MODEL_Q

/-- The temperature lies in the learned range T_MIN to T_MAX (R156). -/
def Chan.tempLearned (ch : Chan) (m : OscModel) : Bool :=
  let t : Int := ch.oscTemp * 2 ^ 145
  ch.nat pgCosy COSY.LEARN_SEC != 0 && decide (f32Val m.tmin ≤ t) && decide (t ≤ f32Val m.tmax)

/-- The running bound of holdover: unknown while E0 is unknown. -/
def Chan.hoBound (ch : Chan) (x : KCtl) : Nat :=
  if ch.cosy.e0 = 0xFFFFFFFF then 0xFFFFFFFF else boundOf ch.boundQ x.model ch.cosy.e0 ch.hoTime ch.cosy.sumT ch.cosy.corr

/-- Take the seconds of holdover up to now into the sum of R156. -/
def Chan.hoAdvance (ch : Chan) (k : Nat) : Chan :=
  let t := ch.hoTime
  let d := (ch.oscTemp - ch.cosy.hoTemp).natAbs * (if ch.tempLearned (ch.ctl k).model then 1 else 4)
  ch.onCosy (fun w => if w.hoSec < t then { w with hoSec := t, sumT := w.sumT + (t - w.hoSec) * d } else w)

/-- The bound is above COSY.HO_LIMIT; 0xFFFF_FFFF never expires (R156, R163). -/
def Chan.overLimit (ch : Chan) (b : Nat) : Bool :=
  let l := ch.nat pgCosy COSY.HO_LIMIT
  l != 0xFFFFFFFF && decide (l < b)

/-! Time states (R147–R149, R623). -/

/-- The state is one in which holdover runs: HOLDOVER, HOLDOVER_EXPIRED, and ACQUIRING not entered from FREE (R623). -/
def Chan.inHoldover (ch : Chan) : Bool :=
  let st := ch.timeState
  st == 3 || st == 4 || (st == 1 && ch.getB pgCosy COSY.STATUS_FROM_HO)

/-- Move the earliest instant of the next keeper boundary (R84). -/
def Chan.withBnd (ch : Chan) (t : Nat) : Chan := { ch with bnd := t }

/-- The state leaves LOCKED: holdover begins (R623). -/
def Chan.hoBegin (ch : Chan) : Chan :=
  ch.onCosy (fun w =>
    { w with hoNs := ch.timeNs, e0 := ch.nat pgCosy COSY.TE_BOUND, hoTemp := ch.oscTemp, corr := 0, hoSec := 0, sumT := 0 })

/-! SYNC_CLK_OUT (R161, R168, R622). -/

/-- The outputs of Cosy are held low in the present state (R161, R622). -/
def Chan.squelched (ch : Chan) : Bool :=
  !(ch.enabled pgCosy) || nbit (ch.getF pgCosy COSY.OUT_CFG_SQUELCH) ch.timeState

/-- The frequency in Hz of an encoding of CLKn_FREQ (R168). -/
def syncHz (enc : Nat) : Nat :=
  if enc = 0 then 10000000 else if enc = 1 then 25000000 else if enc = 2 then 125000000 else if enc = 3 then 156250000
  else if enc = 4 then 2048000 else if enc = 5 then 1544000 else 8000

/-- What SYNC_CLK_OUT `n` carries: 0 held low, else the encoding of its frequency plus one (R161, R168). -/
def Chan.syncClk (ch : Chan) (n : Nat) : Nat :=
  let en := ch.getB pgCosy (if n = 0 then COSY.OUT_CFG_CLK0_EN else COSY.OUT_CFG_CLK1_EN)
  if en && !ch.squelched then ch.getF pgCosy (if n = 0 then COSY.OUT_CFG_CLK0_FREQ else COSY.OUT_CFG_CLK1_FREQ) + 1 else 0

/-- The level of a clock at `hz` synthesised from the counter: a rising edge falls on every second of network time (R161); the pulse
lasts half the period (log 47). -/
def Chan.syncLevel (ch : Chan) (hz : Nat) : Bool :=
  decide (ch.time % (65536 * 1000000000) * hz % (65536 * 1000000000) < 32768 * 1000000000)

/-- A SYNC_CLK_OUT pin takes up what it is to carry. -/
def Chan.driveClk (ch : Chan) (n was : Nat) : Chan :=
  let v := ch.syncClk n
  if v = was then ch
  else if v = 0 then ch.emit (.pin 0x21 [n, 0, 0])
  else ch.emit (.pin 0x21 [n, syncHz (v - 1), b2n (ch.syncLevel (syncHz (v - 1)))])

/-- Both SYNC_CLK_OUT pins follow COSY.OUT_CFG, ENABLE and the time state. -/
def Chan.driveClks (ch : Chan) : Chan :=
  ((ch.driveClk 0 ch.cosy.clk0).driveClk 1 ch.cosy.clk1).onCosy (fun w => { w with clk0 := ch.syncClk 0, clk1 := ch.syncClk 1 })

/-- The time state moves (R148, R170): STATE, FROM_HO, the causes and the journal; entry into FREE cancels actions (R179). -/
def Chan.timeTo (ch : Chan) (new : Nat) : Chan :=
  let old := ch.timeState
  if old = new then ch
  else
    let c0 := (if old = 2 ∧ new ≠ 0 then ch.hoBegin else ch).withBnd
      (if new = 0 then ch.ns + 100000 else if old = 0 then ch.timeNs + 100000 else ch.bnd)
    let c1 := (c0.putF pgCosy COSY.STATUS_STATE new).putF pgCosy COSY.STATUS_FROM_HO (b2n (decide (new = 1 ∧ old ≠ 0)))
    let c2 := if new = 0 then c1.putN pgCosy COSY.TE_BOUND 0xFFFFFFFF else c1
    let c3 := (c2.onCosy (fun w => { w with within := 0, first := w.first || decide (new = 0) })).driveClks
    let c4 := (c3.raise pgCosy 8).journal pgCosy (if new = 3 ∨ new = 4 ∨ new = 0 then clsDegraded else clsNone) 1
      (old + new * 2 ^ 8 + c3.getF pgCosy COSY.STATUS_TIME_SRC * 2 ^ 16 + c3.nat pgCosy COSY.TE_BOUND * 2 ^ 32)
    let c5 := if new = 4 then
        (c4.raise pgCosy 12).journal pgCosy clsDegraded 4 (c4.hoTime % 2 ^ 32 + c4.nat pgCosy COSY.TE_BOUND * 2 ^ 32)
      else c4
    if new = 0 then c5.noTimeCancel else c5

/-! Sources (R135–R137). -/

/-- An offset in 125 ps units as a 32-bit number of ns, saturated. -/
def offset32 (u : Int) : Nat := ofSigned (max (-(2 ^ 31 : Int)) (min (2 ^ 31 - 1 : Int) (u / 8))) 32

/-- A measured offset of a source is kept. -/
def KCtl.measured (x : KCtl) (code : Nat) (off : Option Int) : KCtl :=
  match off with
  | some u => { x with lastOff := tput 0 x.lastOff code (offset32 u + 1) }
  | none => x

/-- The PTP port in SLAVE state (R141). -/
def KCtl.slave (x : KCtl) : Option Nat := (x.ports.find? (fun e => e.2.state == 9)).map Prod.fst

/-- The offset of a time source from network time, 125 ps units. -/
def Chan.srcOffset (ch : Chan) (x : KCtl) (code : Nat) : Option Int :=
  if code = 1 then ch.cosy.ppsOff
  else if code = 2 then (match x.slave with
    | some p => let y := tget ({} : PtpPort) x.ports p
                if y.exch = 0 then none else some y.fine
    | none => none)
  else none

/-- A source may be selected (R137): qualified, and back for WTR where it had been disqualified. -/
def Chan.srcEligible (ch : Chan) (timeList : Bool) (code : Nat) : Bool :=
  ch.srcOk code && (!(ch.cosy.disq.contains code) || (timeList && ch.cosy.first)
    || decide (tget 0 ch.cosy.requal code + ch.getF pgCosy COSY.SRC_CFG_WTR * 1000000000 ≤ ch.ns + 1))

/-- The entries of a priority list before its first 0x00 (R135). -/
def prioList (w : Word) (n : Nat) : List Nat := ((List.range n).map (fun i => fld w (8 * i + 7) (8 * i))).takeWhile (fun c => c != 0)

/-- The time source that the lists select, 0 for none (R137 rule 1). -/
def Chan.pickTime (ch : Chan) : Nat := ((prioList (ch.get pgCosy COSY.TIME_PRIO) 2).find? (ch.srcEligible true)).getD 0

/-- The frequency source that the list selects, 0 for none: with QL_EN the eligible SyncE sources stand in order of QL (R137
rule 3). -/
def Chan.pickFreq (ch : Chan) (x : KCtl) : Nat :=
  let l := (prioList (ch.get pgCosy COSY.FREQ_PRIO) 4).filter (ch.srcEligible false)
  let ql := fun (c : Nat) => if c = 0x10 then x.ql0 else x.ql1
  match l with
  | [] => 0
  | c :: _ =>
    if c < 0x10 ∨ ch.getB pgCosy COSY.SRC_CFG_QL_EN = false then c
    else (l.filter (fun d => decide (0x10 ≤ d))).foldl (fun b d => if ql d < ql b then d else b) c

/-- Selection (R137): SRC_CHANGE and SRC_SWITCH where a selected source changes. -/
def Chan.selectSources (ch : Chan) (k : Nat) : Chan :=
  let x := ch.ctl k
  let t := ch.pickTime
  let f := if t ≠ 0 ∧ ch.getB pgCosy COSY.SRC_CFG_HYBRID = false then t else ch.pickFreq x
  let t0 := ch.getF pgCosy COSY.STATUS_TIME_SRC
  let f0 := ch.getF pgCosy COSY.STATUS_FREQ_SRC
  let c1 := (ch.putCtl k { x with overCnt := if t = t0 then x.overCnt else 0 }).onCosy (fun w =>
    { w with first := w.first && t == 0, disq := w.disq.filter (fun c => c != t && c != f) })
  let c2 := (c1.putF pgCosy COSY.STATUS_TIME_SRC t).putF pgCosy COSY.STATUS_FREQ_SRC f
  let c3 := if t = t0 then c2 else (c2.raise pgCosy 9).journal pgCosy clsNone 2 (t0 + t * 2 ^ 8)
  if f = f0 then c3 else (c3.raise pgCosy 9).journal pgCosy clsNone 2 (f0 + f * 2 ^ 8 + 2 ^ 16)

/-! Steps (R151, R152). -/

/-- PPS_OUT_CFG.COMP. -/
def Chan.ppsComp (ch : Chan) : Int := toSigned (ch.getF pgCosy COSY.PPS_OUT_CFG_COMP) 20

/-- The last second of network time whose PPS_OUT edge lies at or before the present instant (R160). -/
def Chan.ppsPassed (ch : Chan) : Nat := (((ch.timeNs : Int) + ch.ppsComp) / 1000000000).toNat

/-- The counter steps by `d` ns (R152): STEP_CNT, STEP, the journal, the actions whose times a forward step skips, and the edges of
PPS_OUT (R160). -/
def Chan.stepTime (ch : Chan) (d : Int) : Chan :=
  let before := ch.timeNs
  let wrap : Int := 2 ^ 48 * 1000000000 * 65536
  let c0 := { ch with time := (((ch.time : Int) + d * 65536) % wrap).toNat }
  let c1 := c0.withBnd (if ch.timeState = 0 then ch.bnd else c0.timeNs + 100000)
  let acq := ch.timeState == 1 && ch.getB pgCosy COSY.STATUS_FROM_HO
  let c2 := c1.onCosy (fun w => { w with
    hoNs := ((w.hoNs : Int) + d).toNat
    corr := if acq then w.corr + d.natAbs * 256 else w.corr
    outNext := c1.ppsPassed + 1
    ppsOff := w.ppsOff.map (fun o => o - 8 * d) })
  let c2 := if c2.enabled pgPm && c2.getB pgPm PM.CFG_EN then
      { c2 with flex := { c2.flex with
        pmStep := if ch.flex.pmStep = 0 then before / 1000000000 + 1 else ch.flex.pmStep
        pmNext := (c1.timeNs + 100000000 + 999999999) / 1000000000 } }
    else c2
  let c3 := ((c2.inc pgCosy COSY.STEP_CNT).raise pgCosy 11).journal pgCosy clsCorrected 3
    (t64Of before + ofSigned d 64 * 2 ^ 64)
  if 0 < d then c3.stepFire before c3.timeNs else c3

/-- May the keeper step by `d` ns with STEP_CTRL.GO (R151)? -/
def Chan.stepAllowed (ch : Chan) (d : Int) : Bool :=
  let st := ch.timeState
  st == 0 || (st == 1 && ch.getB pgCosy COSY.SLEW_CFG_STEP_EN
    && decide (ch.getF pgCosy COSY.SLEW_CFG_STEP_THRESH * 1000000 < d.natAbs)
    && (!(ch.getB pgCosy COSY.SLEW_CFG_STEP_FREE_ONLY) || !(ch.getB pgCosy COSY.STATUS_FROM_HO)))

/-! The model's quality (R155). -/

/-- LEARN_SEC changes, and the quality with it. -/
def Chan.setLearn (ch : Chan) (sec : Nat) : Chan :=
  let q := qualityOf sec
  let was := ch.getF pgCosy COSY.STATUS_MODEL_Q
  let c1 := (ch.putN pgCosy COSY.LEARN_SEC sec).putF pgCosy COSY.STATUS_MODEL_Q q
  if q = was then c1 else (c1.raise pgCosy 18).journal pgCosy clsNone 8 (q + sec * 2 ^ 32)

/-! What FREQ_ADJ holds in holdover, and at a change of the counter's clock (R131, R149, R154, R155). -/

/-- A finite binary64 pattern in units of 2^-1074. -/
def f64Val (b : Nat) : Int :=
  let e := nbits b 62 52
  let m : Nat := if e = 0 then nbits b 51 0 else (2 ^ 52 + nbits b 51 0) * 2 ^ (e - 1)
  if nbit b 63 then -(m : Int) else m

/-- Bits of a base-2 logarithm below the point: `x` in units of 2^-80, from 1 up to 2. -/
def log2Bits : Nat → Nat → Nat → Nat
  | 0, _, r => r
  | n + 1, x, r =>
    let y := x * x / 2 ^ 80
    if 2 ^ 81 ≤ y then log2Bits n (y / 2) (2 * r + 1) else log2Bits n y (2 * r)

/-- ln(1 + t ÷ 86,400 s) in units of 2^-64 (R154); the precision is this model's (log 47). -/
def lnDays (t : Nat) : Nat :=
  let q := (86400 + t) / 86400
  let k := q.log2
  let x := (86400 + t) * 2 ^ 80 / 86400 / 2 ^ k
  (k * 2 ^ 64 + log2Bits 64 x 0) * 12786308645202655660 / 2 ^ 64

/-- y(T, t) of R154 in units of 2^-48, rounded down: `t16` is the temperature in 1/16 °C and `t` the seconds since the model epoch. -/
def modelFreq (m : OscModel) (t16 : Int) (t : Nat) : Int :=
  let d : Int := t16 - 400
  let poly := f64Val m.c0 * 4096 + f64Val m.c1 * d * 256 + f64Val m.c2 * d * d * 16 + f64Val m.c3 * d * d * d
  let age := f64Val m.a1 * (t : Int) * 2 ^ 64 + f64Val m.a2 * (lnDays t : Int)
  (poly * 2 ^ 64 + age * 4096) * 2 ^ 48 / ((2 : Int) ^ (12 + 64 + 1074))

/-- A frequency within the range of COSY.FREQ_ADJ (R130, R163). -/
def clampFreq (f : Int) : Int := max (-56294995342) (min 56294995342 f)

/-- COSY.FREQ_ADJ takes a value; one beyond its range is held at the end of it (log 47). -/
def Chan.setFreq (ch : Chan) (f : Int) : Chan := ch.put64 pgCosy COSY.FREQ_ADJ (ofSigned (clampFreq f) 48)

/-- The frequency averaged over the last 1,000 s of LOCKED, each second converted to the clock that the counter runs from (R155): adding the
monitor's difference converts one of OSC_IN to REFCLK (R131). None while there was no second of LOCKED. -/
def Chan.lockedMean (ch : Chan) (x : KCtl) : Option Int :=
  let now := ch.getB pgCosy COSY.STATUS_CLK_SRC
  let conv := fun (e : Bool × Int) => if e.1 == now then e.2 else if now then e.2 + ch.cosy.mon else e.2 - ch.cosy.mon
  if x.freqs.isEmpty then none else some (x.freqs.foldl (fun (n : Int) e => n + conv e) 0 / (x.freqs.length : Int))

/-- The prediction of holdover (R155): the model's for the present temperature and age, or the LOCKED average where the model's quality is
NONE or the counter runs from REFCLK. -/
def Chan.predicted (ch : Chan) (x : KCtl) : Option Int :=
  if ch.getF pgCosy COSY.STATUS_MODEL_Q = 0 ∨ ch.getB pgCosy COSY.STATUS_CLK_SRC = true then ch.lockedMean x
  else
    let e := t64At x.model.epoch ch.timeNs
    some (modelFreq x.model ch.oscTemp (((ch.timeNs : Int) - e) / 1000000000).toNat)

/-- In HOLDOVER and HOLDOVER_EXPIRED the counter follows the prediction, and SLEW_RATE stays 0 (R149, R155). -/
def Chan.holdoverSecond (ch : Chan) (k : Nat) : Chan :=
  if ch.timeState = 3 ∨ ch.timeState = 4 then
    (match ch.predicted (ch.ctl k) with
      | some f => ch.setFreq f
      | none => ch).putN pgCosy COSY.SLEW_RATE 0
  else ch

/-- The keeper re-steers FREQ_ADJ after a change of the counter's clock (R131). -/
def Chan.resteer (ch : Chan) (k : Nat) : Chan :=
  let x := ch.ctl k
  let now := ch.getB pgCosy COSY.STATUS_CLK_SRC
  let c1 := ch.putCtl k { x with clkSeen := now }
  if x.clkSeen == now then c1 else if now then c1.setFreq (ch.freqAdj + ch.cosy.mon) else c1.setFreq (ch.freqAdj - ch.cosy.mon)

/-- A second of LOCKED enters the frequency averages (R154, R155). -/
def Chan.keepFreq (ch : Chan) (k : Nat) : Chan :=
  if ch.timeState = 2 then
    let x := ch.ctl k
    ch.putCtl k { x with freqs := ((ch.getB pgCosy COSY.STATUS_CLK_SRC, ch.freqAdj) :: x.freqs).take 1000 }
  else ch

/-- The binary32 pattern of a temperature in 1/16 °C. -/
def f32Temp (t16 : Int) : Nat :=
  let n := t16.natAbs
  if n = 0 then 0
  else
    let k := n.log2
    b2n (decide (t16 < 0)) * 2 ^ 31 + (127 + k - 4) * 2 ^ 23 + (n * 2 ^ 23 / 2 ^ k - 2 ^ 23)

/-- The model after a fit: T_MIN to T_MAX is the range of temperatures seen while learning (R154). -/
def modelRange (m old : OscModel) (began : Bool) (t16 : Int) : OscModel :=
  let t := f32Temp t16
  if began then
    { m with
      tmin := if f32Val t < f32Val old.tmin then t else old.tmin
      tmax := if f32Val old.tmax < f32Val t then t else old.tmax }
  else { m with tmin := t, tmax := t }

/-- The counter's phase moves by at most 10 ns at a change of its clock, by an amount the spec leaves open (R131, log 6). -/
def Chan.phaseMove (ch : Chan) : Chan :=
  let d : Int := (ch.freeVal 32 % 21 : Nat) - 10
  { ch.takeFree with time := ((ch.time : Int) + d * 65536).toNat % (2 ^ 48 * 1000000000 * 65536) }

/-- clockClass that ports announce and TOD_OUT names (R145). The part is a T-GM while PPS_TOD is the time source, or was the last one since
FREE. -/
def Chan.clockClassNow (ch : Chan) (x : KCtl) : Nat :=
  let st := ch.timeState
  let gm := x.tsrc == 1
  let parent := match x.slave with
    | some p => (tget ({} : PtpPort) x.ports p).parentClass
    | none => x.clockClass
  if st ≤ 1 then 248
  else if st = 2 then (if gm then ch.cosy.tod.cls else parent)
  else if st = 3 then (if gm then 7 else 135)
  else if gm then 140 else 165

end Sys2Proof.Machine
end

