-- ==== Sys2Proof/Machine/Cosy.lean ====
section
/-! DEFINITION. The commands of Cosy: its clock (R131), PPS_IN and TOD_IN (R136–R140), steps (R151), the servo's second and its
timeout (R148, R158), the outputs (R160) and the service commands (R171). -/

namespace Sys2Proof.Machine

/-! The counter's clock (R131). -/

/-- OSC_FAIL (R131): OSC_IN stops, or leaves ±50 ppm by `ppb` (signed, 32 bits); the counter changes to REFCLK. -/
def execOscFail (c : Fin 4) (stopped : Bool) (ppb : Nat) (s : State) : Host.Outcome State Fault Refusal :=
  .next (s.onLive c (fun ch =>
    let c1 := ch.putF pgCosy COSY.STATUS_OSC_OK 0
    if ch.getB pgCosy COSY.STATUS_CLK_SRC then c1
    else
      let c2 := (c1.putF pgCosy COSY.STATUS_CLK_SRC 1).phaseMove
      let c3 := c2.capture pgCosy clsDegraded 13 0 (if stopped then 0x80000000 else ppb % 2 ^ 32) (b2n (!stopped))
      (c3.raise pgCosy 13).journal pgCosy clsDegraded 5 (b2n (!stopped))))

/-- A write of COSY.CLK_CTRL (R131). -/
def clkCtrlHook : Hook := fun w ch =>
  let c1 := ch.put w.p w.off w.merged
  if bit w.v 0 && ch.getB pgCosy COSY.STATUS_OSC_OK && ch.getB pgCosy COSY.STATUS_CLK_SRC then
    (c1.putF pgCosy COSY.STATUS_CLK_SRC 0).phaseMove
  else c1

/-- The requester that keeper `k` is. -/
def keeperReq (k : Fin 2) : Req := if k.val = 0 then .keeperA else .keeperB

/-- CLK_RETURN (R131). -/
def execClkReturn (c : Fin 4) (k : Fin 2) (s : State) : Host.Outcome State Fault Refusal :=
  .next (s.chanWrite clkCtrlHook true (keeperReq k) c pgCosy COSY.CLK_CTRL 1)

/-! PPS_IN and TOD_IN (R136–R140). -/

/-- One second in nanoseconds. -/
abbrev nsPerSec : Nat := 1000000000

/-- An accepted PPS_IN edge (R136, R138). -/
def Chan.ppsEdge (ch : Chan) : Chan :=
  let w := ch.cosy
  let stamp : Int := (ch.time / 8192 : Nat) - (8 * ch.getF pgCosy COSY.PPS_IN_CFG_DELAY : Nat)
  let off : Option Int := if w.named = 0 then w.ppsOff else some (((w.named - 1) * 8 * nsPerSec : Nat) - stamp)
  let want := (w.miss + 1) * nsPerSec
  let d := ch.ns - (w.edge - 1)
  let good := decide (w.edge ≠ 0) && decide (want ≤ d + 1000000) && decide (d ≤ want + 1000000)
  let bad := if good ∨ w.edge = 0 then 0 else if w.miss = 0 then w.bad + 1 else w.bad
  let c1 := ch.onCosy (fun w => { w with
    edge := ch.ns + 1
    expect := ch.ns + nsPerSec + 1
    miss := 0
    bad := bad
    ppsOff := off
    todTaken := false
    named := 0
    run := if good && w.todTaken then w.run else 0 })
  if 2 ≤ bad then c1.srcLost 1 else c1

/-- PPS_IN_EDGE (R138): an edge, rising where `pol` is false, of a pulse that is shorter than 100 ns where `short` says so. -/
def execPpsInEdge (c : Fin 4) (pol short : Bool) (s : State) : Host.Outcome State Fault Refusal :=
  .next (s.onLive c (fun ch =>
    if ch.enabled pgCosy && ch.getB pgCosy COSY.PPS_IN_CFG_EN && ch.getB pgCosy COSY.PPS_IN_CFG_POL == pol && !short then
      ch.ppsEdge
    else ch))

/-- PPS_MISS (R136): the window of the expected edge ends without one. -/
def execPpsMiss (c : Fin 4) (s : State) : Host.Outcome State Fault Refusal :=
  .next (s.onLive c (fun ch =>
    if ch.cosy.expect ≠ 0 ∧ ch.getB pgCosy COSY.PPS_IN_CFG_EN = true then
      let c1 := (ch.runTo (ch.cosy.expect - 1 + 1000000)).onCosy (fun w => { w with
        miss := w.miss + 1
        bad := w.bad + 1
        run := 0
        named := 0
        expect := if w.miss + 1 < 2 then w.expect + nsPerSec else 0 })
      let c2 := c1.raise pgCosy 15
      if 2 ≤ c2.cosy.bad then c2.srcLost 1 else c2
    else ch))

/-- A write of COSY.PPS_IN_CFG: after a change of EN no edge is expected until the first one arrives (R136). -/
def ppsInCfgHook : Hook := fun w ch =>
  let c1 := ch.put w.p w.off w.merged
  if bit w.old 31 == bit w.v 31 then c1
  else c1.onCosy (fun x => { x with edge := 0, expect := 0, miss := 0, bad := 0, run := 0, named := 0, todTaken := false })

/-- A rejected ToD frame (R140, R170). -/
def Chan.todReject (ch : Chan) (reason : Nat) : Chan :=
  (((ch.inc pgCosy COSY.TOD_ERR_CNT).capture pgCosy clsContained 14 1 0 reason).raise pgCosy 14).journal pgCosy clsContained 6
    reason

/-- The reason to reject a frame, the first that applies (R140). -/
def Chan.todReason (ch : Chan) (b : List Byte) : Option Nat :=
  let d := ch.ns - (ch.cosy.edge - 1)
  if beAt b 2 1 ≠ 1 ∨ beAt b 3 1 ≠ 0x18 then some 0
  else if crc16 (sliceBytes b 0 22) ≠ beAt b 22 2 then some 1
  else if beAt b 12 1 % 16 ≠ 0 then some 2
  else if ch.cosy.edge = 0 ∨ d < 10000000 ∨ 990000000 < d then some 3
  else if ch.cosy.todTaken then some 4 else none

/-- An accepted ToD frame (R136, R139, R140). -/
def Chan.todAccept (ch : Chan) (b : List Byte) : Chan :=
  let sec := beAt b 4 6
  let info : TodInfo :=
    { utc := beAt b 10 2, flags := beAt b 12 1, cls := beAt b 13 1, acc := beAt b 14 1, src := beAt b 15 1 }
  let c1 := ch.onCosy (fun w => { w with todTaken := true, lastFrame := ch.ns, tod := info })
  if nbit info.flags 7 = false then (c1.onCosy (fun w => { w with run := 0, lastSec := 0, named := 0 })).srcLost 1
  else
    let run := if ch.cosy.lastSec = sec then ch.cosy.run + 1 else 0
    let c2 := c1.onCosy (fun w => { w with named := sec + 1, lastSec := sec + 1, run := run })
    if 3 ≤ run ∧ ch.getB pgCosy COSY.PPS_IN_CFG_EN = true then c2.srcGain 1 else c2

/-- Cosy takes ToD frames: both enables are on (R163, R622). -/
def Chan.todOn (ch : Chan) : Bool := ch.enabled pgCosy && ch.getB pgCosy COSY.TOD_IN_CFG_EN

/-- TOD_IN_FRAME (R140): the last byte of 24 bytes that begin with SYNC arrives. -/
def execTodInFrame (c : Fin 4) (bytes : List Byte) (s : State) : Host.Outcome State Fault Refusal :=
  .next (s.onLive c (fun ch =>
    let b := sliceBytes bytes 0 24
    if ch.todOn && beAt b 0 2 == 0xA53C then
      match ch.todReason b with
      | some r => ch.todReject r
      | none => ch.todAccept b
    else ch))

/-- TOD_FRAME_ABANDON (R140). -/
def execTodFrameAbandon (c : Fin 4) (s : State) : Host.Outcome State Fault Refusal :=
  .next (s.onLive c (fun ch => if ch.todOn then ch.todReject 0 else ch))

/-! Steps (R151). -/

/-- COSY.STEP_OFS as a signed number of ns. -/
def Chan.stepOfs (ch : Chan) : Int := toSigned (ch.get64 pgCosy COSY.STEP_OFS) 64

/-- A write of COSY.STEP_CTRL (R151). -/
def stepCtrlHook : Hook := fun w ch =>
  let c1 := ch.put w.p w.off w.merged
  if bit w.v 0 = false then c1
  else if c1.stepAllowed c1.stepOfs then c1.stepTime c1.stepOfs
  else c1.inc (pgKeep ((w.r.keeper?).getD 0)) KEEP.GATE_REJ_CNT

/-- COSY_STEP (R151). -/
def execCosyStep (c : Fin 4) (k : Fin 2) (s : State) : Host.Outcome State Fault Refusal :=
  .next (s.chanWrite stepCtrlHook true (keeperReq k) c pgCosy COSY.STEP_CTRL 1)

/-! The servo's second (R136, R137, R148, R149, R154–R156). -/

/-- The dataset of a PTP port after a second (R136, R171): `slave` says that it may be the SLAVE port. -/
def PtpPort.second (y : PtpPort) (i : PtpIn) (slave : Bool) (ns : Nat) : PtpPort :=
  let st := if i.state = 9 ∧ slave = false then 7 else i.state % 16
  let exch := if st = 9 then (if y.state = 9 then y.exch else 0) + i.exch else 0
  let seen := st == 9 && exch != 0
  { y with
    state := st
    exch := exch
    lastExch := if i.exch ≠ 0 ∨ y.state ≠ 9 then ns else y.lastExch
    delay := if i.exch ≠ 0 then min i.delay 0xFFFFFFFE else y.delay
    fine := if seen then i.offset else 0
    offset := if seen then offset32 i.offset else 0x80000000
    parentValid := i.parent.isSome
    parentClass := (i.parent.getD 0) % 256 }

/-- What the PTP engine finds of its ports enters their datasets: at most one port is SLAVE (R141). -/
def Chan.ptpSecond (ch : Chan) (k : Nat) (l : List PtpIn) : Chan :=
  l.foldl (fun c i =>
    let x := c.ctl k
    let y := tget ({} : PtpPort) x.ports i.port
    if c.ptpPortOk i.port && nbit y.cfg 8 then
      let may := !(nbit y.cfg 9) && !(nbit y.cfg 10) && c.oper i.port && (x.slave.isNone || x.slave == some i.port)
      c.putCtl k { x with ports := tput {} x.ports i.port (y.second i may ch.ns) }
    else c) ch

/-- The SLAVE port's exchanges before a disqualification of PTP do not count (R136). -/
def KCtl.restartExch (x : KCtl) : KCtl :=
  match x.slave with
  | some p => { x with ports := tmod {} x.ports p (fun y => { y with exch := 0 }) }
  | none => x

/-- A write of COSY.LEARN_SEC: the quality follows (R155). -/
def learnSecHook : Hook := fun w ch => ch.setLearn w.merged.toNat

/-- A write of COSY.TE_BOUND is a publication: BOUND_STALE clears (R158). -/
def teBoundHook : Hook := fun w ch => (ch.put w.p w.off w.merged).putF pgCosy COSY.STATUS_BOUND_STALE 0

/-- A write of COSY.OUT_CFG: the SYNC_CLK_OUT pins follow (R161, R168). -/
def outCfgHook : Hook := fun w ch => (ch.put w.p w.off w.merged).driveClks

/-- Qualification of PTP (R136). It is disqualified too as soon as no port is SLAVE any more (DESIGN CHOICE, log 47). -/
def Chan.ptpJudge (ch : Chan) (k : Nat) (announceTo : Bool) : Chan :=
  let x := ch.ctl k
  let y := match x.slave with
    | some p => tget ({} : PtpPort) x.ports p
    | none => {}
  let lost := x.slave.isNone || announceTo || decide (y.lastExch + 3 * nsPerSec ≤ ch.ns)
  if ch.srcOk 2 && lost then (ch.srcLost 2).putCtl k (((ch.srcLost 2).ctl k).restartExch)
  else if !lost && decide (16 ≤ y.exch) then ch.srcGain 2 else ch

/-- Qualification of a recovered clock (R136): its port is up, it is enabled, its frequency has been good for 10 s, and with QL_EN
its QL is not DNU. -/
def Chan.recJudge (ch : Chan) (code good ql : Nat) (en : Bool) (port : Nat) : Chan :=
  let ok := en && ch.oper port && decide (1 ≤ good) && !(ch.getB pgCosy COSY.SRC_CFG_QL_EN && ql == 15)
  if ok = false then ch.srcLost code else if 10 ≤ good then ch.srcGain code else ch

/-- SyncE in a second. -/
def Chan.synceSecond (ch : Chan) (k : Nat) (i : ServoIn) : Chan :=
  let p0 := ch.getF pgCosy COSY.SRC_CFG_REC0_PORT
  let p1 := ch.getF pgCosy COSY.SRC_CFG_REC1_PORT
  let x := ch.ctl k
  let g0 := if i.recOk0 && ch.oper p0 then min (x.recGood0 + 1) 10 else 0
  let g1 := if i.recOk1 && ch.oper p1 then min (x.recGood1 + 1) 10 else 0
  let c1 := ch.putCtl k { x with recGood0 := g0, recGood1 := g1, ql0 := i.ql0, ql1 := i.ql1 }
  (c1.recJudge 0x10 g0 i.ql0 (ch.getB pgCosy COSY.SRC_CFG_REC0_EN) p0).recJudge 0x11 g1 i.ql1
    (ch.getB pgCosy COSY.SRC_CFG_REC1_EN) p1

/-- |offset| of a source is above a limit in ns; an offset that was never measured is not. -/
def Chan.offAbove (ch : Chan) (x : KCtl) (code lim : Nat) : Bool :=
  match ch.srcOffset x code with
  | some u => decide (8 * lim < u.natAbs)
  | none => false

/-- |offset| of a source has been measured and is at or below LOCK_THRESH. -/
def Chan.offLocks (ch : Chan) (x : KCtl) (code : Nat) : Bool :=
  (ch.srcOffset x code).isSome && !(ch.offAbove x code (ch.getF pgCosy COSY.LOCK_CFG_LOCK_THRESH))

/-- The offset rule (R136): while LOCKED, three seconds above UNLOCK_THRESH disqualify the selected time source. -/
def Chan.jumpRule (ch : Chan) (k : Nat) : Chan :=
  let x := ch.ctl k
  let code := ch.getF pgCosy COSY.STATUS_TIME_SRC
  let n := if ch.timeState = 2 ∧ code ≠ 0 ∧ ch.offAbove x code (ch.getF pgCosy COSY.LOCK_CFG_UNLOCK_THRESH) = true then x.overCnt + 1
    else 0
  let c1 := ch.putCtl k { x with overCnt := n }
  if n < 3 then c1
  else
    let off := ofSigned (((ch.srcOffset x code).getD 0) / 8) 64
    let c2 := (c1.journal pgCosy clsContained 9 (code + off * 2 ^ 32)).srcLost code
    if code = 2 then c2.putCtl k ((c2.ctl k).restartExch) else c2

/-- The moves of R148 that the keeper makes at a second, after selection; `t0` is the time source of the second before. -/
def Chan.timeMoves (ch : Chan) (k t0 : Nat) : Chan :=
  let x := ch.ctl k
  let st := ch.timeState
  let t := ch.getF pgCosy COSY.STATUS_TIME_SRC
  if st = 0 then (if t = 0 then ch else ch.timeTo 1)
  else if st = 1 then
    if t = 0 then
      if ch.getB pgCosy COSY.STATUS_FROM_HO then ch.timeTo (if ch.overLimit (ch.hoBound x) then 4 else 3) else ch.timeTo 0
    else
      let n := if ch.offLocks x t then ch.cosy.within + 1 else 0
      let c1 := ch.onCosy (fun w => { w with within := n })
      if ch.getF pgCosy COSY.LOCK_CFG_LOCK_TIME + 1 ≤ n then c1.timeTo 2 else c1
  else if st = 2 then
    if t = 0 then ch.timeTo 3
    else if t ≠ t0 ∧ t0 ≠ 0 ∧ ch.srcOk t0 = false then (if ch.offLocks x t then ch else ch.timeTo 1)
    else ch
  else if t ≠ 0 then ch.timeTo 1 else ch

/-- TE_BOUND of a second (R147, R149, R156) and the expiry of holdover. -/
def Chan.publish (ch : Chan) (k filt : Nat) : Chan :=
  let st := ch.timeState
  let b := if ch.inHoldover then ch.hoBound (ch.ctl k) else if st = 2 then min (filt + 4) 0xFFFFFFFE else 0xFFFFFFFF
  let c1 := (ch.putN pgCosy COSY.TE_BOUND b).putF pgCosy COSY.STATUS_BOUND_STALE 0
  if st = 3 ∧ c1.overLimit b = true then c1.timeTo 4 else c1

/-- Learning (R154): a second of LOCKED on OSC_IN. `fit` is what the recursive least squares give, whose weights and start the spec does not
state (log 47); the range of temperatures and the count are kept here. -/
def Chan.learnSecond (ch : Chan) (k : Nat) (fit : Option OscModel) : Chan :=
  if ch.timeState = 2 ∧ ch.getB pgCosy COSY.HO_CFG_LEARN_EN = true ∧ ch.getB pgCosy COSY.STATUS_CLK_SRC = false
      ∧ (ch.getF pgCosy COSY.HO_CFG_TEMP_SRC = 1 ∨ ch.thermOk = true) then
    let x := ch.ctl k
    let m := modelRange (fit.getD x.model) x.model (ch.nat pgCosy COSY.LEARN_SEC != 0) ch.oscTemp
    (ch.setLearn (satAdd 32 (ch.nat pgCosy COSY.LEARN_SEC) 1)).putCtl k { x with model := m }
  else ch

/-- The active keeper's work of one second of network time. -/
def Chan.cosySecond (k : Nat) (i : ServoIn) (ch : Chan) : Chan :=
  let c0 := (if ch.getB pgCosy COSY.STATUS_OSC_OK then ch.onCosy (fun w => { w with mon := i.mon }) else ch).resteer k
  let c1 := c0.ptpSecond k i.ports
  let c2 := (c1.ptpJudge k i.announceTo).synceSecond k i
  let c3 := if c2.srcOk 1 && decide (c2.cosy.lastFrame + 3 * nsPerSec ≤ c2.ns) then c2.srcLost 1 else c2
  let c4 := c3.putCtl k (((c3.ctl k).measured 1 (c3.srcOffset (c3.ctl k) 1)).measured 2 (c3.srcOffset (c3.ctl k) 2))
  let c5 := c4.jumpRule k
  let c6 := if c5.timeState = 1 ∧ c5.getB pgCosy COSY.STATUS_FROM_HO = true then
      c5.onCosy (fun w => { w with corr := w.corr + c5.slewApplied.natAbs })
    else c5
  let t0 := c6.getF pgCosy COSY.STATUS_TIME_SRC
  let c7 := (c6.selectSources k).timeMoves k t0
  let c8 := if c7.inHoldover then c7.hoAdvance k else c7
  let c9 := ((c8.publish k i.filt).keepFreq k).learnSecond k i.fit
  let c10 := c9.holdoverSecond k
  let x := c10.ctl k
  let sel := c10.getF pgCosy COSY.STATUS_TIME_SRC
  let c11 := c10.putCtl k { x with
    tsrc := if sel ≠ 0 then sel else if c10.timeState = 0 then 0 else x.tsrc
    lastSec := c10.timeNs / nsPerSec + 1
    clockClass := c10.clockClassNow x }
  if c11.ns / nsPerSec % 86400 = 0 then c11.metersIdle else c11

/-- A write of COSY.SERVO_TICK (R158), and the work of its second where the keeper has not done it yet. -/
def servoTickHook (work : Option ServoIn) : Hook := fun w ch =>
  let k := (w.r.keeper?).getD 0
  let c1 := ((ch.put w.p w.off w.merged).onCosy (fun x => { x with tick := ch.ns + 1 })).putF pgCosy COSY.STATUS_SERVO_TIMEOUT 0
  match work with
  | some i => if c1.active = some k ∧ (c1.ctl k).lastSec ≠ c1.timeNs / nsPerSec + 1 then c1.cosySecond k i else c1
  | none => c1

/-- SERVO_TICK (R158): keeper `k` writes `v`; `work` is what it measured in the second, where it does the second's work. -/
def execServoTick (c : Fin 4) (k : Fin 2) (v : Word) (work : Option ServoIn) (s : State) : Host.Outcome State Fault Refusal :=
  .next (s.chanWrite (servoTickHook work) true (keeperReq k) c pgCosy COSY.SERVO_TICK v)

/-- COSY.HO_CFG.HW_EXPIRY. -/
def Chan.hwExpiry (ch : Chan) : Nat := ch.getF pgCosy COSY.HO_CFG_HW_EXPIRY

/-- SERVO_TIMEOUT (R158): 2 s without a tick. -/
def execServoTimeout (c : Fin 4) (s : State) : Host.Outcome State Fault Refusal :=
  .next (s.onLive c (fun ch =>
    if ch.cosy.tick = 0 ∨ ch.getB pgCosy COSY.STATUS_SERVO_TIMEOUT = true then ch
    else
      let c1 := ch.runTo (ch.cosy.tick - 1 + 2 * nsPerSec)
      let c2 := ((c1.putN pgCosy COSY.SLEW_RATE 0).putF pgCosy COSY.STATUS_SERVO_TIMEOUT 1).putF pgCosy COSY.STATUS_BOUND_STALE 1
      let c3 := (c2.raise pgCosy 16).journal pgCosy clsDegraded 7 ((c2.ns - (ch.cosy.tick - 1)) / nsPerSec)
      let st := c3.timeState
      let c4 := if st = 2 then c3.timeTo 3
        else if st = 1 then c3.timeTo (if c3.getB pgCosy COSY.STATUS_FROM_HO then 3 else 0) else c3
      if c4.timeState = 3 ∧ c4.hwExpiry ≤ c4.hoTime then c4.timeTo 4 else c4))

/-- HW_HOLDOVER_EXPIRY (R158): HW_EXPIRY seconds since holdover began, with no ticks arriving. -/
def execHwHoldoverExpiry (c : Fin 4) (s : State) : Host.Outcome State Fault Refusal :=
  .next (s.onLive c (fun ch =>
    if ch.getB pgCosy COSY.STATUS_SERVO_TIMEOUT = true ∧ ch.timeState = 3 then
      (ch.runNet (ch.cosy.hoNs + ch.hwExpiry * nsPerSec)).timeTo 4
    else ch))

/-- COSY_ENABLE_WRITE (R622): a write of COSY PAGE_CTRL with the new ENABLE and the page's other bits as they stand. The time
inputs and outputs follow the bit. -/
def execCosyEnableWrite (r : Req) (c : Fin 4) (on : Bool) (s : State) : Host.Outcome State Fault Refusal :=
  .next (s.chanWrite outCfgHook true r c pgCosy oCTRL (setFld ((s.chan c).get pgCosy oCTRL) 0 0 (b2n on)))

/-! Outputs (R160, R161). -/

/-- PPS_OUT_EDGE (R160): the clock runs on to the next whole second of network time, less COMP. -/
def execPpsOutEdge (c : Fin 4) (s : State) : Host.Outcome State Fault Refusal :=
  .next (s.onLive c (fun ch =>
    let pps := ch.getB pgCosy COSY.OUT_CFG_PPS_OUT_EN
    let tod := ch.getB pgCosy COSY.OUT_CFG_TOD_OUT_EN
    if ch.squelched = false ∧ (pps = true ∨ tod = true) then
      let n := max (((ch.timeNs : Int) + ch.ppsComp + 999999999) / 1000000000).toNat ch.cosy.outNext
      let c1 := ch.runNet (((n * nsPerSec : Nat) : Int) - ch.ppsComp).toNat
      let c2 := c1.onCosy (fun w => { w with outNext := n + 1, todDue := if tod then c1.ns + 100000001 else w.todDue })
      if pps then c2.emit (.pin 0x20 [n, c2.getF pgCosy COSY.PPS_OUT_CFG_WIDTH]) else c2
    else ch))

/-- The frame that TOD_OUT sends (R139, R160), with a CLOCK_ACCURACY. -/
def Chan.todFrame (ch : Chan) (acc : Nat) : List Byte :=
  let x := ch.ctlNow
  let st := ch.timeState
  let tod := ch.cosy.tod
  let pps := decide (ch.getF pgCosy COSY.STATUS_TIME_SRC = 1)
  let utc := if pps then tod.utc else nbits x.props 15 0
  let leap := if pps then nbits tod.flags 6 4 else b2n (nbit x.props 16) * 4 + b2n (nbit x.props 17) * 2 + b2n (nbit x.props 18)
  let body := beBytes 4 0xA53C0118 ++ beBytes 6 (ch.ppsPassed + 1) ++ beBytes 2 utc
    ++ beBytes 1 (b2n (st == 2 || st == 3) * 128 + leap * 16) ++ beBytes 1 (ch.clockClassNow x) ++ beBytes 1 acc
    ++ beBytes 1 (if pps then tod.src else nbits x.props 31 24) ++ beBytes 4 (ch.nat pgCosy COSY.TE_BOUND)
    ++ beBytes 2 ch.cosy.todSeq
  body ++ beBytes 2 (crc16 body)

/-- TOD_OUT_FRAME (R160): 100 ms after an edge of PPS_OUT. -/
def execTodOutFrame (c : Fin 4) (s : State) : Host.Outcome State Fault Refusal :=
  .next (s.onLive c (fun ch =>
    if ch.cosy.todDue = 0 then ch
    else
      let c1 := (ch.runTo (ch.cosy.todDue - 1)).onCosy (fun w => { w with todDue := 0 })
      if c1.squelched = false ∧ c1.getB pgCosy COSY.OUT_CFG_TOD_OUT_EN = true then
        (c1.takeFree.emit (.wire 6 [c1.getF pgCosy COSY.OUT_CFG_TOD_BAUD] (c1.todFrame (c1.freeVal 8)))).onCosy
          (fun w => { w with todSeq := (w.todSeq + 1) % 65536 })
      else c1))

/-! Service commands (R159, R171). -/

/-- The transports of the profile that a domain number names (R171). -/
def transportOk (domain tr : Nat) : Bool :=
  (decide (24 ≤ domain) && decide (domain ≤ 43) && decide (tr ≤ 1))
    || (decide (44 ≤ domain) && decide (domain ≤ 63) && decide (2 ≤ tr))

/-- SET_DEFAULT_DS (R171). -/
def Chan.svcSetDefaultDs (ch : Chan) (k tag : Nat) : Chan :=
  let a := ch.svcArg k
  let dom := nbits (a 2) 7 0
  let clash := (ch.ctl k).ports.any (fun e => nbit e.2.cfg 8 && !(transportOk dom (nbits e.2.cfg 13 12)))
  ch.svcRun k tag false (decide (a 3 / 2 ≠ 0) || decide (dom < 24) || decide (63 < dom) || clash) false false false
    (fun c1 => (c1.putCtl k { c1.ctl k with
      clockId := a 0 + a 1 * 2 ^ 32
      dsWord := a 2
      slaveOnly := nbit (a 3) 0 }).svcOk k tag [])

/-- SET_DEFAULT_DS: the host's command. -/
def execSetDefaultDs (r : Req) (c : Fin 4) (k : Fin 2) (tag : Nat) (s : State) :
    Host.Outcome State Fault Refusal :=
  .next (s.service r c k tag 0x10 (fun ch => ch.svcSetDefaultDs k.val tag))

/-- SET_PORT_DS (R171). -/
def Chan.svcSetPortDs (ch : Chan) (k tag : Nat) : Chan :=
  let a := ch.svcArg k
  let x := ch.ctl k
  let p := nbits (a 0) 5 0
  let low := fun (i : Nat) (m : Int) => decide (toSigned (nbits (a 1) (8 * i + 7) (8 * i)) 8 < m)
  let bad := decide (nbits (a 0) 7 6 ≠ 0) || decide (a 0 / 2 ^ 15 ≠ 0) || decide (a 3 / 256 ≠ 0) || !(ch.ptpPortOk p)
    || low 0 (-7) || low 1 (-7) || low 2 (-3) || !(transportOk (nbits x.dsWord 7 0) (nbits (a 0) 13 12))
  ch.svcRun k tag false bad false false false (fun c1 =>
    let y := tget ({} : PtpPort) x.ports p
    let on := nbit (a 0) 8
    let st := if on = false then 3 else if nbit y.cfg 8 then y.state else if ch.oper p then 4 else 2
    (c1.putCtl k { x with
      ports := tput {} x.ports p { y with
        cfg := a 0
        intervals := a 1
        asym := a 2
        localPrio := a 3
        state := st
        exch := if st = 9 then y.exch else 0
        offset := if st = 9 then y.offset else 0x80000000 } }).svcOk k tag [])

/-- SET_PORT_DS: the host's command. -/
def execSetPortDs (r : Req) (c : Fin 4) (k : Fin 2) (tag : Nat) (s : State) :
    Host.Outcome State Fault Refusal :=
  .next (s.service r c k tag 0x11 (fun ch => ch.svcSetPortDs k.val tag))

/-- GET_PORT_DS (R171). -/
def Chan.svcGetPortDs (ch : Chan) (k tag : Nat) : Chan :=
  let p := ch.svcArg k 0
  ch.svcRun k tag false (!(ch.ptpPortOk p)) false false false (fun c1 =>
    let y := tget ({} : PtpPort) (ch.ctl k).ports p
    c1.svcOk k tag [y.state % 16, y.delay, if y.state = 9 ∧ y.exch ≠ 0 then y.offset else 0x80000000, b2n y.parentValid * 2 ^ 31 + (if y.parentValid then y.parentClass else 0)])

/-- GET_PORT_DS: the host's command. -/
def execGetPortDs (r : Req) (c : Fin 4) (k : Fin 2) (tag : Nat) (s : State) :
    Host.Outcome State Fault Refusal :=
  .next (s.service r c k tag 0x12 (fun ch => ch.svcGetPortDs k.val tag))

/-- The index of a new peer: one of the free ones, which one the spec leaves open (log 6). -/
def Chan.newPeer (ch : Chan) (x : KCtl) : Nat :=
  let l := allBelow 512 (fun i => tget ({} : Peer) x.peers i == {})
  l.getD (ch.freeVal 32 % l.length) 0

/-- ADD_PEER (R171). -/
def Chan.svcAddPeer (ch : Chan) (k tag : Nat) : Chan :=
  let a := ch.svcArg k
  let x := ch.ctl k
  let p := nbits (a 0) 5 0
  let bad := decide (nbits (a 0) 7 6 ≠ 0) || decide (a 0 / 512 ≠ 0) || decide (a 5 / 256 ≠ 0) || !(ch.ptpPortOk p)
    || decide (nbits (tget ({} : PtpPort) x.ports p).cfg 13 12 < 2)
  ch.svcRun k tag false bad (decide (512 ≤ x.peers.length)) false false (fun c1 =>
    let n := c1.newPeer x
    let addr := if nbit (a 0) 8 then a 1 + a 2 * 2 ^ 32 + a 3 * 2 ^ 64 + a 4 * 2 ^ 96 else a 1
    (c1.takeFree.putCtl k { x with
      peers := tput {} x.peers n { port := p, ipv6 := nbit (a 0) 8, addr := addr, prio := nbits (a 5) 7 0 } }).svcOk
      k tag [n])

/-- ADD_PEER: the host's command. -/
def execAddPeer (r : Req) (c : Fin 4) (k : Fin 2) (tag : Nat) (s : State) :
    Host.Outcome State Fault Refusal :=
  .next (s.service r c k tag 0x13 (fun ch => ch.svcAddPeer k.val tag))

/-- DEL_PEER (R171). -/
def Chan.svcDelPeer (ch : Chan) (k tag : Nat) : Chan :=
  let n := ch.svcArg k 0
  let x := ch.ctl k
  ch.svcRun k tag false (decide (511 < n) || tget ({} : Peer) x.peers n == {}) false false false (fun c1 =>
    (c1.putCtl k { x with peers := tput {} x.peers n {} }).svcOk k tag [])

/-- DEL_PEER: the host's command. -/
def execDelPeer (r : Req) (c : Fin 4) (k : Fin 2) (tag : Nat) (s : State) :
    Host.Outcome State Fault Refusal :=
  .next (s.service r c k tag 0x14 (fun ch => ch.svcDelPeer k.val tag))

/-- GET_STATUS (R171); the offset of a channel that has measured none is a free value (log 6). -/
def Chan.svcGetStatus (ch : Chan) (k tag : Nat) : Chan :=
  ch.svcRun k tag false false false false false (fun c1 =>
    let off := ch.srcOffset (ch.ctl k) (ch.getF pgCosy COSY.STATUS_TIME_SRC)
    let v := match off with
      | some u => ofSigned (u / 8) 64
      | none => ch.freeVal 32 + ch.takeFree.freeVal 32 * 2 ^ 32
    let c2 := if off.isSome then c1 else c1.takeFree.takeFree
    c2.svcOk k tag [ch.nat pgCosy COSY.STATUS, ch.nat pgCosy COSY.TE_BOUND, v, v / 2 ^ 32, ch.nat pgCosy COSY.LEARN_SEC])

/-- GET_STATUS: the host's command. -/
def execGetStatus (r : Req) (c : Fin 4) (k : Fin 2) (tag : Nat) (s : State) :
    Host.Outcome State Fault Refusal :=
  .next (s.service r c k tag 0x15 (fun ch => ch.svcGetStatus k.val tag))

/-- SET_TIME (R151, R171). -/
def Chan.svcSetTime (ch : Chan) (k tag : Nat) : Chan :=
  let a := ch.svcArg k
  let target : Nat := (a 0 * 2 ^ 32 + a 1) * nsPerSec + a 2
  ch.svcRun k tag false (decide (65535 < a 0) || decide (nsPerSec ≤ a 2)) (decide (ch.timeState ≠ 0)) false false
    (fun c1 => (c1.stepTime ((target : Int) - (c1.timeNs : Int))).svcOk k tag [])

/-- SET_TIME: the host's command. -/
def execSetTime (r : Req) (c : Fin 4) (k : Fin 2) (tag : Nat) (s : State) :
    Host.Outcome State Fault Refusal :=
  .next (s.service r c k tag 0x16 (fun ch => ch.svcSetTime k.val tag))

/-- SET_TIME_PROPS (R171). -/
def Chan.svcSetTimeProps (ch : Chan) (k tag : Nat) : Chan :=
  let a := ch.svcArg k 0
  ch.svcRun k tag false (decide (nbits a 23 19 ≠ 0)) false false false (fun c1 =>
    (c1.putCtl k { c1.ctl k with props := a }).svcOk k tag [])

/-- SET_TIME_PROPS: the host's command. -/
def execSetTimeProps (r : Req) (c : Fin 4) (k : Fin 2) (tag : Nat) (s : State) :
    Host.Outcome State Fault Refusal :=
  .next (s.service r c k tag 0x17 (fun ch => ch.svcSetTimeProps k.val tag))

/-- The model record (R159). -/
def modelRecord (t64 learn : Nat) (m : OscModel) : List Byte :=
  let b := leBytes 4 0x434F5359 ++ leBytes 2 1 ++ leBytes 2 0 ++ leBytes 8 t64 ++ leBytes 4 learn ++ leBytes 4 0
    ++ leBytes 8 m.epoch ++ leBytes 8 m.c0 ++ leBytes 8 m.c1 ++ leBytes 8 m.c2 ++ leBytes 8 m.c3 ++ leBytes 8 m.a1
    ++ leBytes 8 m.a2 ++ leBytes 8 m.ef ++ leBytes 8 m.ea ++ leBytes 8 m.et ++ leBytes 8 m.w ++ leBytes 4 m.tmin
    ++ leBytes 4 m.tmax ++ leBytes 4 0
  b ++ leBytes 4 (crc32 b)

/-- SAVE_MODEL (R159). -/
def Chan.svcSaveModel (ch : Chan) (k tag : Nat) (dmaErr : Bool) : Chan :=
  ch.svcRun k tag false false false dmaErr false (fun c1 =>
    let a := ch.svcArg k
    (c1.emit (.dma 3 [a 0 + a 1 * 2 ^ 32] (modelRecord ch.t64 (ch.nat pgCosy COSY.LEARN_SEC) (ch.ctl k).model))).svcOk
      k tag [])

/-- SAVE_MODEL: the host's command. -/
def execSaveModel (r : Req) (c : Fin 4) (k : Fin 2) (tag : Nat) (dmaErr : Bool) (s : State) :
    Host.Outcome State Fault Refusal :=
  .next (s.service r c k tag 0x18 (fun ch => ch.svcSaveModel k.val tag (dmaErr || !(s.hostReach c))))

/-- The model that a record holds. -/
def modelOf (b : List Byte) : OscModel :=
  let d := fun (i : Nat) => leAt b (32 + 8 * i) 8
  {
    epoch := leAt b 24 8, c0 := d 0, c1 := d 1, c2 := d 2, c3 := d 3, a1 := d 4, a2 := d 5, ef := d 6, ea := d 7, et := d 8
    w := d 9, tmin := leAt b 112 4, tmax := leAt b 116 4 }

/-- The checks of a record (R159), at network time `now` in ns. -/
def modelOk (b : List Byte) (now : Nat) : Bool :=
  let m := modelOf b
  let saved := leAt b 8 8
  leAt b 0 4 == 0x434F5359 && leAt b 4 2 == 1 && leAt b 124 4 == crc32 (sliceBytes b 0 124)
    && decide (saved % 2 ^ 32 < nsPerSec) && decide (m.epoch % 2 ^ 32 < nsPerSec)
    && decide ((now : Int) ≤ t64At saved now + 604800 * (nsPerSec : Int))
    && [m.c0, m.c1, m.c2, m.c3, m.a1, m.a2, m.ef, m.ea, m.et, m.w].all f64Finite && f32Finite m.tmin && f32Finite m.tmax
    && [m.ef, m.ea, m.et, m.w].all (fun x => !(f64Neg x)) && decide (f32Val m.tmin ≤ f32Val m.tmax)

/-- LOAD_MODEL (R159): `rec_` is what host memory holds at the address. -/
def Chan.svcLoadModel (ch : Chan) (k tag : Nat) (rec_ : List Byte) (dmaErr : Bool) : Chan :=
  ch.svcRun k tag false false (decide (ch.timeState = 3 ∨ ch.timeState = 4)) dmaErr
    (!(modelOk rec_ ch.timeNs)) (fun c1 =>
      ((c1.putCtl k { c1.ctl k with model := modelOf rec_ }).setLearn (leAt rec_ 16 4)).svcOk k tag [])

/-- LOAD_MODEL: the host's command. -/
def execLoadModel (r : Req) (c : Fin 4) (k : Fin 2) (tag : Nat) (rec_ : List Byte) (dmaErr : Bool) (s : State) :
    Host.Outcome State Fault Refusal :=
  .next (s.service r c k tag 0x19 (fun ch => ch.svcLoadModel k.val tag rec_ (dmaErr || !(s.hostReach c))))

/-- RESET_MODEL (R171). -/
def Chan.svcResetModel (ch : Chan) (k tag : Nat) : Chan :=
  ch.svcRun k tag false false (decide (ch.timeState = 3 ∨ ch.timeState = 4)) false false (fun c1 =>
    ((c1.putCtl k { c1.ctl k with model := {} }).setLearn 0).svcOk k tag [])

/-- RESET_MODEL: the host's command. -/
def execResetModel (r : Req) (c : Fin 4) (k : Fin 2) (tag : Nat) (s : State) :
    Host.Outcome State Fault Refusal :=
  .next (s.service r c k tag 0x1A (fun ch => ch.svcResetModel k.val tag))

/-- SOFT_RESET of COSY (R131, R148, R158): FREE, with the counter's value kept and its clock chosen afresh. The page's registers return to
reset with it: that TIME_SRC, SRC_STAT and MODEL_Q do raises no SRC_CHANGE, SRC_LOST or MODEL_QUAL (DESIGN CHOICE, log 47). -/
def Chan.cosyReset (ch : Chan) (before : Chan) : Chan :=
  let ok := before.getB pgCosy COSY.STATUS_OSC_OK
  let c1 := (ch.putB pgCosy COSY.STATUS_OSC_OK ok).putB pgCosy COSY.STATUS_CLK_SRC (!ok)
  let c2 := { c1 with cosy := {} }.onCosy (fun w =>
    { w with outNext := c1.ppsPassed + 1, mon := before.cosy.mon, clk0 := before.cosy.clk0, clk1 := before.cosy.clk1 })
  let c3 := (c2.onCtl (fun x => { x with
    lastOff := [], overCnt := 0, tsrc := 0, recGood0 := 0, recGood1 := 0, freqs := [], clkSeen := !ok, clockClass := 248 })).driveClks
  let old := before.timeState
  if old = 0 then c3
  else
    (((c3.withBnd (ch.ns + 100000)).raise pgCosy 8).journal pgCosy clsDegraded 1
      (old + before.getF pgCosy COSY.STATUS_TIME_SRC * 2 ^ 16 + 0xFFFFFFFF * 2 ^ 32)).noTimeCancel

end Sys2Proof.Machine
end

