-- ==== Sys2Proof/Machine/Fabric.lean ====
section
/-! DEFINITION. The Ulore fabric interface: transmit and receive, reassembly, credits, lanes, reachability, mesh (R480–R504). -/

namespace Sys2Proof.Machine

/-! Reachability and lane state (R481, R483, R494, R495, R497). -/

/-- The channels whose bits stand in a number below 2^4096. -/
def chanList (n : Nat) : List Nat := if n = 0 then [] else allBelow 4096 (fun d => nbit n d)

/-- A channel has become unreachable (R495). -/
def Chan.lostChan (ch : Chan) (d : Nat) : Chan :=
  let c1 := ch.onFab (fun w => { w with
    bal := w.bal.filter (fun e => ch.sportChan (e.1 / 8) != some d)
    reqs := w.reqs.filter (fun r => r.src != d) })
  (c1.voqReqAll.raise pgFab 11).journal pgFab clsDegraded 6 d

/-- Lanes with EN = 1 and SPARE = 0 that name a peer: what its bundle was configured with (R497). -/
def Chan.bundleCfg (ch : Chan) (d : Nat) : Nat :=
  (allBelow 48 (fun l => ch.getB pgFab (FAB.LANE_CFG_EN l) && !(ch.getB pgFab (FAB.LANE_CFG_SPARE l))
    && ch.getF pgFab (FAB.LANE_CFG_PEER_CHAN l) == d)).length

/-- ACTIVE lanes toward a peer in mesh mode. -/
def Chan.bundleNow (ch : Chan) (d : Nat) : Nat :=
  ((ch.activeLanes).filter (fun l => ch.getF pgFab (FAB.LANE_CFG_PEER_CHAN l) == d)).length

/-- PAGE_STAT.DEGRADED of FAB (R495). -/
def Chan.fabDegraded (ch : Chan) : Bool :=
  (List.range 48).any (fun l => ch.getB pgFab (FAB.LANE_CFG_EN l) &&
    (!(ch.fabState l == 3 || ch.fabState l == 4)
      || (ch.mesh && decide (ch.bundleNow (ch.getF pgFab (FAB.LANE_CFG_PEER_CHAN l)) < ch.bundleCfg (ch.getF pgFab (FAB.LANE_CFG_PEER_CHAN l))))))

/-- What follows a change of a lane or of the REACH bits: channels that became unreachable or reachable, and DEGRADED. -/
def Chan.fabSettle (ch : Chan) : Chan :=
  let now := ch.reachSet
  let was := ch.fab.was
  let same := Nat.land was now
  let c1 := ch.onFab (fun w => { w with was := now })
  let c2 := c1.each (chanList (was - same)) (fun c d => c.lostChan d)
  let c3 := c2.each (chanList (now - same)) (fun c d => c.journal pgFab clsNone 7 d)
  c3.setDegraded pgFab c3.fabDegraded

/-- Set LANE_STAT.STATE. -/
def Chan.setFabState (ch : Chan) (l st : Nat) : Chan := ch.putF pgFab (FAB.LANE_STAT_STATE l) st

/-- A lane enters ACTIVE or STANDBY (R503, R504). -/
def Chan.fabUp (ch : Chan) (l st : Nat) : Chan :=
  (((ch.setFabState l st).raise pgFab 9).journal pgFab clsNone 1 (l + ch.getF pgFab (FAB.LANE_STAT_PEER_SEEN l) * 2 ^ 16)).fabSettle

/-- Duration of a cell on a lane, in units of 1/6 ps (R480, R491). -/
def Chan.cellTime (ch : Chan) (l : Nat) (x : Cell) : Nat :=
  x.linkBytes * (if l = 48 then 5 else 240 * 2 ^ ch.getF pgFab (FAB.LANE_CFG_SPEED l))

/-- The cells whose last byte has left the lane by `now`, and the queue that stays with the start of its first. -/
def drainCells (dur : Cell → Nat) (now : Nat) : List Cell → Nat → List Cell × List Cell × Nat
  | [], at_ => ([], [], at_)
  | x :: xs, at_ =>
    if at_ + dur x ≤ now then
      let r := drainCells dur now xs (at_ + dur x)
      (x :: r.1, r.2.1, r.2.2)
    else ([], x :: xs, at_)

/-- COSY.LOCAL now in units of 1/6 ps. -/
def Chan.wireNow (ch : Chan) : Nat := ch.ns * 6000

/-- A lane leaves ACTIVE or STANDBY, with its LINK_DOWN cause (R504): its queue is lost unless it was drained first (R483). -/
def Chan.fabDown (ch : Chan) (l st : Nat) (cause : Option Nat) (inflight : Nat) : Chan :=
  let was := ch.fabState l
  let x := ch.fabLane l
  let spare := ch.mesh && was == 3 && st != 4
  let c1 := ch.putFabLane l { x with txq := [], wireAt := 0, helloAt := if st = 4 then x.helloAt else 0, spareDue := spare, replaced := x.replaced }
  let lost := if was = 3 then x.txq.length + inflight else 0
  let c2 := (c1.setFabState l st).inc pgFab FAB.LINK_LOSS lost
  if was = 3 ∨ was = 4 then
    let c3 := c2.raise pgFab 8
    let c4 := match cause with
      | some n => c3.journal pgFab clsDegraded 2 (l + n * 2 ^ 8)
      | none => c3
    c4.fabSettle
  else c2.fabSettle

/-! Reassembly (R488–R490). -/

/-- Processing of the packet that a context has open: it is dropped, and its buffer or its request goes (R490). -/
def Chan.reasmDrop (ch : Chan) (k : Nat) : Chan :=
  let c1 := ch.putReasm k { ch.reasm k with open_ := [] }
  let c2 := { c1 with cad := { c1.cad with reqs := c1.cad.reqs.filter (fun r => r.pkt.reasm != k + 1) } }
  let c3 := match c2.cad.bufs.find? (fun e => e.2.inUse && e.2.pkt.reasm == k + 1) with
    | some e => c2.releaseBuf e.1
    | none => c2
  c3.tally pgFab 0x14

/-- A protocol error of R485 or R490: counted and captured. -/
def Chan.protoErr (ch : Chan) (x : Cell) : Chan :=
  (ch.inc pgFab FAB.PROTO_ERR).capture pgFab clsContained 0 x.lane x.src x.dst

/-- A cell of the wrong destination (R491). -/
def Chan.misroute (ch : Chan) (x : Cell) : Chan :=
  ((ch.incRaise pgFab FAB.MISROUTE 15).capture pgFab clsContained 15 x.lane x.src x.dst).journalSec pgFab clsContained 9 0
    (x.dst + x.dport * 2 ^ 16) (2 ^ 32)

/-- Packets lost in reassembly (R490, R504). -/
def Chan.reasmLost (ch : Chan) (k n : Nat) : Chan :=
  if n = 0 then ch
  else (ch.incRaise pgFab FAB.REASM_TIMEOUT 12 n).journalSec pgFab clsContained 8 0 (k % 4096) (2 ^ 32) n

/-- C of the packet that a FIRST cell opens: by its CTX_FULL bit. -/
def Cell.ctxLen (x : Cell) : Nat := if x.ctxFull then 64 else 32

/-- The context that a FIRST cell brings; USER bytes that did not cross read 0 (R487). Colour 0b11 is red (R13). -/
def Cell.context (x : Cell) : List Byte :=
  let l := sliceBytes (x.payload.take x.ctxLen) 0 64
  let b8 := beAt l 8 1
  l.set 8 (BitVec.ofNat 8 (min 2 (b8 / 64) * 64 + b8 % 64))

/-- L of the packet, from its context (R345, R490). -/
def Cell.pktLen (x : Cell) : Nat := nbits (beAt x.context 14 2) 13 0

/-- Cells of the packet that a FIRST cell opens (R487). -/
def Cell.cells (x : Cell) : Nat := ceilDiv (x.ctxLen + x.pktLen) 240

/-- The egress packet of a FIRST cell with the given frame bytes (R491). -/
def Chan.pktOf (ch : Chan) (x : Cell) (bs : List Byte) : Pkt :=
  let ctx := x.context
  let b := fun i => beAt ctx i 1
  {
    bytes := bs, egress := true, port := if x.typ = 2 then 0 else fld (ch.sportWord x.dport) 17 12, injected := nbit (b 9) 3,
    parity := nbits (b 8) 2 2, part := nbits (b 13) 7 3, account := beAt ctx 16 2 % 4096, ctx := ctx, mirror := nbit (b 8) 0 }

/-- A FIRST cell opens a packet: it is checked against context byte 8, and asks Caddy for a buffer as requester 6 (R488, R490). -/
def Chan.reasmOpen (ch : Chan) (k : Nat) (x : Cell) : Chan :=
  let b := beAt x.context 8 1
  if nbits b 2 2 ≠ x.parity ∨ min (nbits b 7 6) 2 ≠ min x.colour 2 ∨ nbits b 5 3 ≠ x.tc then
    ((ch.inc pgFab FAB.CTX_MISMATCH).putReasm k { ch.reasm k with open_ := [], skip := true }).tally pgFab 0x14
  else
    let p := { ch.pktOf x (List.replicate x.pktLen 0) with reasm := k + 1 }
    let c1 := ch.putReasm k { ch.reasm k with open_ := [x], skip := false }
    { c1 with cad := { c1.cad with reqs := c1.cad.reqs ++ [{ requester := 6, pkt := p }] } }

/-- The LAST cell has been delivered: the packet is written (R490). -/
def Chan.reasmClose (ch : Chan) (k : Nat) (cells : List Cell) : Chan :=
  let c1 := ch.putReasm k { ch.reasm k with open_ := [] }
  match cells with
  | [] => c1
  | x :: _ =>
    let bs := (cells.flatMap (fun y => y.payload)).drop x.ctxLen
    let p := c1.pktOf x bs
    if bs.length ≠ x.pktLen then (c1.reasmDrop k).protoErr x
    else if c1.cad.reqs.any (fun r => r.pkt.reasm == k + 1) then
      { c1 with cad := { c1.cad with
        reqs := c1.cad.reqs.map (fun r => if r.pkt.reasm = k + 1 then { r with pkt := p } else r) } }
    else
      match c1.cad.bufs.find? (fun e => e.2.inUse && e.2.pkt.reasm == k + 1) with
      | some e => c1.putBuf e.1 { e.2 with pkt := p, written := e.2.pool == 0 }
      | none => c1

/-- A context delivers a cell (R490). A FIRST cell that finds a packet open starts the next packet. -/
def Chan.reasmDeliver (ch : Chan) (k : Nat) (x : Cell) : Chan :=
  let r := ch.reasm k
  let c1 :=
    if x.first then
      (if r.open_.isEmpty then ch else (ch.reasmDrop k).protoErr x).reasmOpen k x
    else if !r.open_.isEmpty then ch.putReasm k { r with open_ := r.open_ ++ [x] }
    else if r.skip then ch
    else (ch.protoErr x).putReasm k { r with skip := true }
  let r1 := c1.reasm k
  if x.last && !r1.open_.isEmpty then c1.reasmClose k r1.open_ else c1

/-- Deliver the held cells that follow without a gap; `fuel` bounds their number. -/
def Chan.reasmFollow (ch : Chan) (k : Nat) : Nat → Chan
  | 0 => ch
  | fuel + 1 =>
    let r := ch.reasm k
    match r.held.find? (fun e => e.2.seq == r.next) with
    | none => ch
    | some e =>
      ((ch.putReasm k { r with next := (r.next + 1) % 2 ^ 24, held := r.held.erase e }).reasmDeliver k e.2).reasmFollow k fuel

/-- How far a number lies ahead of another in 24 bits. -/
def seqAhead (s x : Nat) : Nat := (s + 2 ^ 24 - x % 2 ^ 24) % 2 ^ 24

/-- The held cell nearest to the expected number. -/
def Reasm.lowest (r : Reasm) : Option Nat :=
  r.held.foldl (fun b e => match b with
    | none => some e.2.seq
    | some n => if seqAhead e.2.seq r.next < seqAhead n r.next then some e.2.seq else b) none

/-- Since when the gap stands: the first arrival behind it. -/
def Reasm.gapAt (r : Reasm) : Option Nat :=
  r.held.foldl (fun b e => match b with
    | none => some e.1
    | some n => some (min n e.1)) none

/-- A context skips its gap to the lowest held number (R490): each packet that lost a cell is dropped and counted once. -/
def Chan.reasmSkip (ch : Chan) (k : Nat) : Chan :=
  let r := ch.reasm k
  match r.lowest with
  | none => ch
  | some n =>
    let gap := seqAhead n r.next
    let opened := !r.open_.isEmpty
    let cont := match r.held.find? (fun e => e.2.seq == n) with
      | some e => !e.2.first
      | none => false
    let same := match r.open_ with
      | x :: _ => decide (r.open_.length + gap < x.cells)
      | [] => r.skip
    let lost := b2n opened + b2n (cont && !same)
    let c1 := if opened then ch.reasmDrop k else ch
    let c2 := (c1.putReasm k { c1.reasm k with next := n, skip := cont || r.skip }).reasmLost k lost
    c2.reasmFollow k r.held.length

/-- Cells held in the reorder memory (R489). -/
def Chan.reorderUse (ch : Chan) : Nat := ch.fab.reasm.foldl (fun n e => n + e.2.held.length) 0

/-- The context with the oldest gap. -/
def Chan.oldestGap (ch : Chan) : Option Nat :=
  (ch.fab.reasm.foldl (fun (b : Option (Nat × Nat)) e => match e.2.gapAt, b with
    | none, b => b
    | some t, none => some (e.1, t)
    | some t, some (k, u) => if t < u then some (e.1, t) else some (k, u)) none).map Prod.fst

/-- A context takes a cell (R490). -/
def Chan.reasmTake (ch : Chan) (k : Nat) (x : Cell) : Chan :=
  let r := ch.reasm k
  let d := seqAhead x.seq r.next
  if d = 0 then
    ((ch.putReasm k { r with next := (r.next + 1) % 2 ^ 24, lateLow := 0, lateAt := 0 }).reasmDeliver k x).reasmFollow k r.held.length
  else if d < 2 ^ 23 then
    let r0 := { r with lateLow := 0, lateAt := 0 }
    if r.held.any (fun e => e.2.seq == x.seq) then ch.putReasm k r0
    else
      let c1 := ch.putReasm k r0
      let c2 := if 16384 ≤ c1.reorderUse then
          match c1.oldestGap with
          | some j => (c1.inc pgFab FAB.REORDER_FULL).reasmSkip j
          | none => c1
        else c1
      let r2 := c2.reasm k
      if seqAhead x.seq r2.next = 0 then
        ((c2.putReasm k { r2 with next := (r2.next + 1) % 2 ^ 24 }).reasmDeliver k x).reasmFollow k r2.held.length
      else if seqAhead x.seq r2.next < 2 ^ 23 then c2.putReasm k { r2 with held := r2.held ++ [(ch.ns, x)] }
      else c2.inc pgFab FAB.LATE_CELL
  else
    let low := if r.lateLow = 0 ∨ 2 ^ 23 ≤ seqAhead x.seq (r.lateLow - 1) then x.seq + 1 else r.lateLow
    (ch.putReasm k { r with lateLow := low, lateAt := if r.lateLow = 0 then ch.ns else r.lateAt }).inc pgFab FAB.LATE_CELL

/-- REASM_TO in ns. -/
def Chan.reasmTo (ch : Chan) : Nat := ch.getF pgFab FAB.REASM_CFG_REASM_TO * 1000

/-- REASM_TIMEOUT (R490): a gap of context `k` has stood for REASM_TO. -/
def execReasmTimeout (c : Fin 4) (k : Nat) (s : State) : Host.Outcome State Fault Refusal :=
  .next (s.onLive c (fun ch =>
    match (ch.reasm k).gapAt with
    | some t => (ch.runTo (t + ch.reasmTo)).reasmSkip k
    | none => ch))

/-- REASM_RESYNC (R490): every cell of one REASM_TO was late. -/
def execReasmResync (c : Fin 4) (k : Nat) (s : State) : Host.Outcome State Fault Refusal :=
  .next (s.onLive c (fun ch =>
    let r := ch.reasm k
    if r.lateLow = 0 then ch
    else
      let c1 := ch.runTo (r.lateAt + ch.reasmTo)
      let x := r.lateLow - 1
      (c1.putReasm k { r with
        next := x, lateLow := 0, lateAt := 0, held := r.held.filter (fun e => decide (seqAhead e.2.seq x < 2 ^ 23)) }).inc pgFab FAB.RESYNC))

/-! Credits (R492, R493). -/

/-- A request entry reaches the generators (R493). -/
def Chan.takeReq (ch : Chan) (src e : Nat) : Chan :=
  let sport := nbits e 31 16
  let tc := nbits e 14 12
  let w := ch.sportWord sport
  if bit w 31 = false ∨ fld w 11 0 ≠ ch.chanId then ch
  else
    let p := fld w 17 12
    let mine := fun (r : CredReq) => r.port == p && r.src == src && r.tc == tc
    let others := ch.fab.reqs.filter (fun r => !(mine r))
    let known := ch.fab.reqs.any mine
    if nbit e 15 = false then ch.onFab (fun x => { x with reqs := others })
    else if !known && decide (65536 ≤ ch.fab.reqs.length) then ch.inc pgFab FAB.REQ_OVF
    else ch.onFab (fun x => { x with reqs := others ++ [⟨p, src, tc, sport, ch.ns⟩] })

/-- A grant entry reaches its VOQ (R492). -/
def Chan.takeGrant (ch : Chan) (e : Nat) : Chan :=
  let n := nbits e 3 0
  let q := nbits e 31 16 * 8 + nbits e 14 12
  if n = 0 ∨ 4 < n ∨ (ch.sportChan (q / 8)).isNone then ch
  else
    let cap : Int := ((ch.getF pgFab FAB.CRED_CFG_CRED_MAX * 4096 : Nat) : Int)
    let sum : Int := tget 0 ch.fab.bal q + ((n * 4096 : Nat) : Int)
    let c1 := (ch.onFab (fun w => { w with bal := tput 0 w.bal q (min sum cap) })).tally pgFab 0x13
    (c1.inc pgFab FAB.CRED_WASTE (sum - cap).toNat).voqReq q

/-- The 4-byte entries of a control cell. -/
def entriesOf (bs : List Byte) : List Nat := (List.range (bs.length / 4)).map (fun i => beAt bs (4 * i) 4)

/-- Is class `tc` of egress port `p` granted credit (R493)? -/
def Chan.granted (ch : Chan) (p tc : Nat) : Bool :=
  let st := ch.holdState p
  let hold := st != 1 || decide (ch.portQueued p < ch.getF pgAdm (ADM.HOLD_CFG_HOLD_CAP p) * 1048576)
  let stop := st != 0 || decide (ch.portQueued p < ch.getF pgFab FAB.CRED_STOP_KIB * 1024)
  hold && stop && !(ch.getB pgAdm (xoffBit (pcIndex 1 p tc)))

/-- Issue one credit of port `p`: the highest class with demand that is granted, its source channels in round robin. -/
def Chan.issueCredit (ch : Chan) (p : Nat) : Option CredReq :=
  let of := fun tc => ch.fab.reqs.filter (fun r => r.port == p && r.tc == tc)
  match [7, 6, 5, 4, 3, 2, 1, 0].find? (fun tc => !(of tc).isEmpty && ch.granted p tc) with
  | none => none
  | some tc =>
    let last := tget 0 ch.fab.rr (p * 8 + tc)
    let lowest := fun (l : List CredReq) => l.foldl (fun (b : Option CredReq) r => match b with
      | none => some r
      | some x => if r.src < x.src then some r else b) none
    match lowest ((of tc).filter (fun r => decide (last ≤ r.src))) with
    | some r => some r
    | none => lowest (of tc)

/-- Issue up to `n` credits of port `p`; each takes 4,096 bytes of its balance. Answers the entries served. -/
def Chan.issueCredits (ch : Chan) (p : Nat) : Nat → Chan × List CredReq
  | 0 => (ch, [])
  | n + 1 =>
    let b := tget 0 ch.fab.gen p
    if b < 4096 * 512000 then (ch, [])
    else
      match ch.issueCredit p with
      | none => (ch, [])
      | some r =>
        let c1 := ch.onFab (fun w => { w with
          gen := tput 0 w.gen p (b - 4096 * 512000)
          rr := tput 0 w.rr (p * 8 + r.tc) (r.src + 1) })
        let x := c1.issueCredits p n
        (x.1, r :: x.2)

/-- The generator of port `p` at a slot, `e` ns after the one before (R493). -/
def Chan.creditPort (ch : Chan) (e p : Nat) : Chan :=
  let add := ch.operRate p * (64 + ch.getF pgFab FAB.CRED_CFG_OVERSPEED) * e
  let c1 := ch.onFab (fun w => { w with gen := tput 0 w.gen p (min (tget 0 w.gen p + add) (4 * 4096 * 512000)) })
  let r := c1.issueCredits p 4
  r.1.each r.2.eraseDups (fun c x =>
    (c.sendEntry x.src 4 (grantEntry x.sport x.tc (r.2.count x))).tally pgFab 0x12 {} (r.2.count x))

/-- CREDIT_SLOT (R493): the present slot of network time if its credits are not issued yet, else the next one. -/
def execCreditSlot (c : Fin 4) (s : State) : Host.Outcome State Fault Refusal :=
  .next (s.onLive c (fun ch =>
    if ch.enabled pgFab then
      let done := ch.timeNs / 64 + 1 == ch.fab.slot
      let c1 := if done then ch.clockOn (64 - ch.timeNs % 64) else ch
      let e := if ch.fab.slot = 0 then 64 else c1.ns - ch.fab.slotLocal
      let slot := if done then ch.fab.slot + 1 else ch.timeNs / 64 + 1
      (c1.onFab (fun w => { w with slot := slot, slotLocal := c1.ns })).each (List.range 64) (fun c p => c.creditPort e p)
    else ch))

/-- REFRESH in ns. -/
def Chan.refresh (ch : Chan) : Nat := ch.getF pgFab FAB.CRED_CFG_REFRESH * 1000

/-- CREDIT_REQ_REFRESH (R492): VOQ `q` repeats its ON, REFRESH after the last one. -/
def execCreditReqRefresh (c : Fin 4) (q : Nat) (s : State) : Host.Outcome State Fault Refusal :=
  .next (s.onLive c (fun ch =>
    if q < 0x80000 ∧ tget false ch.fab.reqOn q = true then
      let c1 := ch.runTo (tget 0 ch.fab.reqAt q - 1 + ch.refresh)
      (c1.onFab (fun w => { w with reqAt := tput 0 w.reqAt q (c1.ns + 1) })).sendReq q true
    else ch))

/-- REQ_ENTRY_EXPIRY (R493): an entry not refreshed within 4 × REFRESH is removed. -/
def execReqEntryExpiry (c : Fin 4) (port src tc : Nat) (s : State) : Host.Outcome State Fault Refusal :=
  .next (s.onLive c (fun ch =>
    match ch.fab.reqs.find? (fun r => r.port == port && r.src == src && r.tc == tc) with
    | some r => (ch.runTo (r.at_ + 4 * ch.refresh)).onFab (fun w => { w with reqs := w.reqs.erase r })
    | none => ch))

/-- VOQ_BALANCE_EXPIRY (R492): a VOQ has stayed empty for REFRESH. -/
def execVoqBalanceExpiry (c : Fin 4) (q : Nat) (s : State) : Host.Outcome State Fault Refusal :=
  .next (s.onLive c (fun ch =>
    let t := tget 0 ch.fab.emptyAt q
    if t = 0 ∨ 0x80000 ≤ q then ch
    else
      let c1 := ch.runTo (t - 1 + ch.refresh)
      (c1.onFab (fun w => { w with bal := tput 0 w.bal q 0, emptyAt := tput 0 w.emptyAt q 0 })).voqReq q))

/-! Links (R481, R494). -/

/-- A LINK cell arrives on a lane (R485, R494). -/
def Chan.takeLink (ch : Chan) (l : Nat) (x : Cell) : Chan :=
  let w := beAt x.payload 0 2
  let kind := w / 4096
  let id := w % 4096
  let b2 := beAt x.payload 2 1
  if kind = 0 ∧ x.payload.length = 8 then
    let c1 := ch.putF pgFab (FAB.LANE_STAT_PEER_SEEN l) id
    let ok := if ch.mesh then nbit b2 0 && id == ch.getF pgFab (FAB.LANE_CFG_PEER_CHAN l) else nbit b2 1
    let st := ch.fabState l
    if ok then
      let y := ch.fabLane l
      let c2 := c1.putFabLane l { y with helloAt := ch.ns }
      let spare := ch.mesh && (ch.getB pgFab (FAB.LANE_CFG_SPARE l) || y.replaced)
      if st = 2 ∨ st = 6 ∨ (st = 4 ∧ spare = false) then c2.fabUp l (if spare then 4 else 3) else c2
    else if st = 6 then c1
    else
      ((c1.fabDown l 6 none 0).raise pgFab 10).journal pgFab clsContained 3
        (l + ch.getF pgFab (FAB.LANE_CFG_PEER_CHAN l) * 2 ^ 16 + id * 2 ^ 32)
  else if kind = 1 ∧ x.payload.length = 136 ∧ id % 1024 = 0 then
    let bits := leNat (sliceBytes x.payload 8 128)
    let k := 4 * l + id / 1024
    (ch.onFab (fun y => { y with
      reach := tput 0 y.reach k (Nat.lor (tget 0 y.reach k) bits)
      reachAt := tput [] y.reachAt k (((bits, ch.ns) :: (tget [] y.reachAt k).map (fun e => (e.1 - Nat.land e.1 bits, e.2))).filter
        (fun e => e.1 != 0)) })).fabSettle
  else ch.protoErr x

/-- A cell reaches the receiver (R481, R485, R491). -/
def Chan.takeCell (ch : Chan) (l : Nat) (x : Cell) (pcrcOk : Bool) : Chan :=
  let st := ch.fabState l
  let c1 := ch.tally pgFab 0x11 { priv := some 0, agent := if l = 48 then none else some l }
  let n := x.payload.length
  if x.typ = 0 ∨ 6 ≤ x.typ ∨ n = 0 ∨ 240 < n then c1.protoErr x
  else if x.typ = 5 then
    (if pcrcOk && (st == 2 || st == 3 || st == 4 || st == 6) then c1.takeLink l x else c1)
  else if !(l == 48 || st == 3 || st == 4) then c1
  else if x.typ = 1 ∨ x.typ = 2 then
    if !pcrcOk then c1.inc pgFab FAB.PCRC_ERR
    else if x.typ = 2 then c1.reasmTake (0x1000 + x.src) x
    else if x.dst ≠ c1.chanId ∨ c1.sportChan x.dport ≠ some c1.chanId then c1.misroute x
    else c1.reasmTake x.src x
  else if !pcrcOk then c1
  else if x.dst ≠ c1.chanId then c1.misroute x
  else if x.typ = 3 then c1.each (entriesOf x.payload) (fun c e => c.takeReq x.src e)
  else c1.each (entriesOf x.payload) (fun c e => c.takeGrant e)

/-- CELL_RX (R485): the bytes of a cell arrive on lane F0–F47. -/
def execCellRx (c : Fin 4) (lane : Nat) (bytes : List Byte) (s : State) : Host.Outcome State Fault Refusal :=
  .next (s.onLive c (fun ch =>
    let st := ch.fabState lane
    if ch.enabled pgFab = false ∨ 48 ≤ lane ∨ ¬ (st = 2 ∨ st = 3 ∨ st = 4 ∨ st = 6) then ch
    else if beAt bytes 14 2 ≠ crc16 (sliceBytes bytes 0 14) then ch.inc pgFab FAB.HDR_CRC
    else
      let x := cellOf lane bytes
      ch.takeCell lane x (nbits (beAt bytes 0 14) 15 0 == crc16 x.payload)))

/-! Transmit (R482, R487, R489, R496). -/

/-- The cells that have left a lane by now go out; those of the loopback arrive at the channel itself. -/
def Chan.drainLane (ch : Chan) (l : Nat) : Chan :=
  let x := ch.fabLane l
  let r := drainCells (ch.cellTime l) ch.wireNow x.txq x.wireAt
  if r.1.isEmpty then ch
  else
    let c1 := ch.putFabLane l { x with txq := r.2.1, wireAt := if r.2.1.isEmpty then 0 else r.2.2 }
    c1.each r.1 (fun c y => if l = 48 then c.takeCell 48 { y with lane := 48 } (!y.bad) else c.emit (.wire 5 [l] y.bytes))

/-- Put a cell in a lane's transmit queue: a control cell goes ahead of the data cells behind the one under way (R482). -/
def Chan.pushCell (ch : Chan) (l : Nat) (y : Cell) : Chan :=
  let x := ch.fabLane l
  let q := match x.txq with
    | [] => [y]
    | h :: t => if y.isCtl then h :: (t.takeWhile Cell.isCtl ++ y :: t.dropWhile Cell.isCtl) else h :: t ++ [y]
  let c1 := ch.putFabLane l { x with
    txq := q, wireAt := if x.txq.isEmpty then ch.wireNow else x.wireAt,
    ctlAt := if y.isCtl then max x.ctlAt ch.wireNow + 50 * ch.cellTime l y else x.ctlAt }
  c1.tally pgFab 0x10 { priv := some 0, agent := if l = 48 then none else some l }

/-- Does the lane reach where the stream goes (R482, R491, R496)? -/
def Chan.laneReaches (ch : Chan) (l key : Nat) : Bool :=
  if key = 0x2000 then l != 48 else
    let d := key % 0x1000
    if l = 48 then d == ch.chanId else d != ch.chanId && nbit (ch.laneReach l) d

/-- Cells of a stream that a lane takes in a round: its turns, weighted by its cell rate (R480, R482). -/
def Chan.laneWeight (ch : Chan) (l : Nat) : Nat := 4 / 2 ^ ch.getF pgFab (FAB.LANE_CFG_SPEED l)

/-- The lane has its turns of the round left. -/
def Chan.turnLeft (ch : Chan) (key l : Nat) : Bool := decide (tget 0 ch.fab.turns (key * 64 + l) < ch.laneWeight l)

/-- Every ACTIVE lane that carries the stream has had its turns: a new round begins. -/
def Chan.roundOver (ch : Chan) (key : Nat) : Bool := ch.activeLanes.all (fun m => !(ch.laneReaches m key && ch.turnLeft key m))

/-- May the lane take the next cell of the stream: it reaches the destination, and the turn has come to it (R482)? -/
def Chan.laneCan (ch : Chan) (l key : Nat) : Bool := ch.laneReaches l key && (l == 48 || ch.turnLeft key l || ch.roundOver key)

/-- A lane has taken a cell of a stream: one of its turns is used. -/
def Chan.turnUsed (ch : Chan) (l key : Nat) : Chan :=
  if l = 48 then ch
  else
    let old := if ch.turnLeft key l then ch.fab.turns else ch.fab.turns.filter (fun e => e.1 / 64 != key)
    ch.onFab (fun w => { w with turns := tput 0 old (key * 64 + l) (tget 0 old (key * 64 + l) + 1) })

/-- The packet under segmentation in a stream. -/
def Chan.streamHead (ch : Chan) (key : Nat) : Option Sending := (tget [] ch.fab.sending key).head?

/-- The fields that the cells of a packet share (R487). -/
def Chan.cellFor (ch : Chan) (k : Pkt) (dst : Nat) : Cell :=
  {
    typ := if k.mcast then 2 else 1, parity := nbits (k.ctxByte 8) 2 2, colour := nbits (k.ctxByte 8) 7 6, tc := k.tc,
    ctxFull := ch.ctxLen k.tc == 64, src := ch.chanId, dst := dst, dport := k.dest }

/-- The P bytes of a packet (R487). -/
def Chan.crossing (ch : Chan) (k : Pkt) : List Byte := sliceBytes k.ctx 0 (ch.ctxLen k.tc) ++ k.bytes

/-- The stream of a VOQ, where its destination is mapped. -/
def Chan.voqStream (ch : Chan) (q : Nat) : Option Nat := ch.sportChan (q / 8)

/-- May VOQ `q` send a cell on lane `l`: its packet under way, or its head while it holds credit and its stream is free? -/
def Chan.voqReady (ch : Chan) (l q : Nat) : Bool :=
  match ch.voqStream q with
  | none => false
  | some d => ch.laneCan l d && (match ch.streamHead d with
    | some x => x.voq == q
    | none => !(tget ({} : Que) ch.cad.queues q).ents.isEmpty && decide (0 < tget 0 ch.fab.bal q))

/-- VOQs of a class that may send on the lane: those with packets, and those whose packet is under way. -/
def Chan.voqsReady (ch : Chan) (l t : Nat) : List Nat :=
  let qs := (ch.cad.queues.map Prod.fst).filter (fun q => decide (q < 0x80000))
  let run := (ch.fab.sending.flatMap (fun e => if e.1 < 0x1000 then e.2.map (fun x => x.voq) else [])).filter (fun q => !(qs.contains q))
  ((qs ++ run).filter (fun q => q % 8 == t && ch.voqReady l q)).eraseDups

/-- The mesh peers that the map of a multicast group names (R496). -/
def Chan.mcPeers (ch : Chan) (g : Nat) : List Nat :=
  let w := tget (0 : Word) ch.fab.mcMap g
  (allBelow 8 (fun i => bit w i && ch.getB pgFab (FAB.MESH_PEER_VALID i))).map (fun i => ch.getF pgFab (FAB.MESH_PEER_CHAN i))

/-- Streams to which the head of the multicast queue of a class would go (R496): none toward an unreachable peer (R495). -/
def Chan.mcTargets (ch : Chan) (g : Nat) : List Nat :=
  if ch.mesh then ((ch.mcPeers g).filter (fun d => ch.reachable d)).map (fun d => 0x1000 + d) else [0x2000]

/-- Copies that no lane can take: each counts as R442 counts a refused one, and a group that names no peer once (log 54). -/
def Chan.mcMissing (ch : Chan) (g : Nat) : Nat :=
  if ch.mesh then (if (ch.mcPeers g).isEmpty then 1 else ((ch.mcPeers g).filter (fun d => !(ch.reachable d))).length) else 0

/-- The multicast streams under way in a class that the lane carries. -/
def Chan.mcRunning (ch : Chan) (l t : Nat) : List Nat :=
  (ch.fab.sending.filter (fun e => decide (0x1000 ≤ e.1) && ch.laneCan l e.1 && (match e.2 with
    | x :: _ => x.cell.tc == t
    | [] => false))).map Prod.fst

/-- Can the head of the multicast queue of a class start on the lane? -/
def Chan.mcReady (ch : Chan) (l t : Nat) : Bool :=
  match (tget ({} : Que) ch.cad.queues (mcQueue t)).ents with
  | [] => false
  | e :: _ =>
    let ts := ch.mcTargets (ch.buf e.handle).pkt.dest
    decide (ch.fab.mcAt ≤ ch.ns * 1000) && ts.all (fun k => (tget [] ch.fab.sending k).isEmpty)
      && (ts.isEmpty || ts.any (fun k => ch.laneCan l k))

/-- Send the next cell of a stream on a lane (R487, R489); the packet's reference is released with its last cell. -/
def Chan.streamCell (ch : Chan) (l key : Nat) : Chan :=
  match tget [] ch.fab.sending key with
  | [] => ch
  | x :: xs =>
    let n := tget 0 ch.fab.seq key
    let last := decide (x.left.length ≤ 240)
    let y : Cell := { x.cell with last := last, seq := n, payload := x.left.take 240, bad := x.bad.any (fun o => decide (x.pos ≤ o) && decide (o < x.pos + 240)) }
    let c1 := ch.onFab (fun w => { w with
      seq := tput 0 w.seq key ((n + 1) % 2 ^ 24)
      sending := tput [] w.sending key (if last then xs else { x with left := x.left.drop 240, pos := x.pos + 240, cell := { x.cell with first := false } } :: xs) })
    let c2 := (c1.turnUsed l key).pushCell l y
    if last then c2.hwFree x.handle else c2

/-- A packet enters a stream. -/
def Chan.startStream (ch : Chan) (key q h : Nat) (k : Pkt) : Chan :=
  let dst := if key = 0x2000 then 0 else key % 0x1000
  let c := ch.ctxLen k.tc
  let bad := (ch.buf h).poison.filterMap (fun o =>
    if 96 ≤ o then some (c + o - 96) else if 32 ≤ o ∧ o - 32 < c then some (o - 32) else none)
  let x : Sending := { voq := q, handle := h, left := ch.crossing k, bad := bad, cell := { ch.cellFor k dst with first := true } }
  ch.onFab (fun w => { w with sending := tput [] w.sending key (tget [] w.sending key ++ [x]) })

/-- VOQ `q` sends a cell on lane `l`; a head packet whose header read fails ends there (R428). -/
def Chan.voqSend (ch : Chan) (l q : Nat) (hdrErr : Bool) : Chan :=
  match ch.voqStream q with
  | none => ch
  | some d =>
    let c0 := ch.onFab (fun w => { w with txrr := tput 0 w.txrr (q % 8) (q + 1) })
    if (ch.streamHead d).isSome then c0.streamCell l d
    else
      match (tget ({} : Que) ch.cad.queues q).ents with
      | [] => ch
      | e :: _ =>
        if hdrErr || (ch.buf e.handle).hdrBad then c0.hdrErr q e
        else
          let k := (ch.buf e.handle).pkt
          let c1 := c0.onFab (fun w => { w with bal := tput 0 w.bal q (tget 0 w.bal q - ((ch.crossing k).length : Int)) })
          ((c1.dequeue q e).startStream d q e.handle k).streamCell l d

/-- The multicast queue of a class sends a cell on lane `l` (R496). -/
def Chan.mcSend (ch : Chan) (l t : Nat) (hdrErr : Bool) : Chan :=
  match ch.mcRunning l t with
  | key :: _ => ch.streamCell l key
  | [] =>
    match (tget ({} : Que) ch.cad.queues (mcQueue t)).ents with
    | [] => ch
    | e :: _ =>
      if hdrErr || (ch.buf e.handle).hdrBad then ch.hdrErr (mcQueue t) e
      else
        let b := ch.buf e.handle
        let ts := ch.mcTargets b.pkt.dest
        let c1 := (ch.dequeue (mcQueue t) e).each (List.range (ch.mcMissing b.pkt.dest)) (fun c _ => c.mcRefuse 0)
        if ts.isEmpty then c1.hwFree e.handle
        else
          let rate := ch.nat pgFab FAB.MC_SHAPE
          let cost := if rate = 0 then 0 else ts.length * (ch.crossing b.pkt).length * 8000000000 / rate
          let c2 := c1.putBuf e.handle { c1.buf e.handle with refs := b.refs + (ts.length - 1) }
          let c3 := (c2.onFab (fun w => { w with mcAt := if rate = 0 then 0 else max w.mcAt (ch.ns * 1000) + cost })).each ts
            (fun c k => c.startStream k (mcQueue t) e.handle b.pkt)
          match ts.find? (fun k => ch.laneCan l k) with
          | some key => c3.streamCell l key
          | none => c3

/-- The next VOQ of a class in round robin. -/
def Chan.nextVoq (ch : Chan) (t : Nat) (qs : List Nat) : Option Nat :=
  let low := fun (l : List Nat) => l.foldl (fun (b : Option Nat) q => match b with
    | none => some q
    | some x => some (min x q)) none
  match low (qs.filter (fun q => decide (tget 0 ch.fab.txrr t ≤ q))) with
  | some q => some q
  | none => low qs

/-- The lane takes a data cell (R482): strict priority of classes; within a class unicast and multicast take turns. -/
def Chan.dataSend (ch : Chan) (l : Nat) (hdrErr : Bool) : Chan :=
  let mc := fun t => !(ch.mcRunning l t).isEmpty || ch.mcReady l t
  match [7, 6, 5, 4, 3, 2, 1, 0].find? (fun t => mc t || !(ch.voqsReady l t).isEmpty) with
  | none => ch
  | some t =>
    let qs := ch.voqsReady l t
    let turn := fun (c : Chan) (v : Nat) => c.onFab (fun w => { w with txrr := tput 0 w.txrr (8 + t) v })
    if mc t && (qs.isEmpty || decide (tget 0 ch.fab.txrr (8 + t) = 1)) then (turn ch 0).mcSend l t hdrErr
    else
      match ch.nextVoq t qs with
      | some q => (turn ch 1).voqSend l q hdrErr
      | none => ch

/-- CELL_TX (R482): lane F0–F47, or 48 for the loopback, takes the next cell if it has room: a control cell within its share, else a
data cell of the streams whose turn has come to it. -/
def execCellTx (c : Fin 4) (lane : Nat) (hdrErr : Bool) (s : State) : Host.Outcome State Fault Refusal :=
  .next (s.onLive c (fun ch =>
    if ch.enabled pgFab && ch.laneActive lane then
      let c1 := ch.drainLane lane
      if 32 ≤ (c1.fabLane lane).txq.length then c1
      else
        match if (c1.fabLane lane).ctlAt ≤ c1.wireNow then c1.fab.ctlQ.find? (fun x => c1.laneReaches lane x.dst) else none with
        | some x => (c1.onFab (fun w => { w with ctlQ := w.ctlQ.erase x })).pushCell lane x
        | none => c1.dataSend lane hdrErr
    else ch))

/-- The HELLO that the channel sends (R494). -/
def Chan.hello (ch : Chan) : Cell :=
  {
    typ := 5, first := true, last := true, src := ch.chanId,
    payload := beBytes 2 ch.chanId ++ beBytes 1 (b2n ch.mesh) ++ List.replicate 5 0 }

/-- HELLO_TX (R494, R497): each UP, ACTIVE or STANDBY lane sends a HELLO, LINK_PERIOD after the last. -/
def execHelloTx (c : Fin 4) (s : State) : Host.Outcome State Fault Refusal :=
  .next (s.onLive c (fun ch =>
    if ch.enabled pgFab then
      let c0 := if ch.fab.helloTx = 0 then ch else ch.runTo (ch.fab.helloTx - 1 + ch.getF pgFab FAB.LINK_CFG_LINK_PERIOD * 1000)
      (c0.onFab (fun w => { w with helloTx := c0.ns + 1 })).each (allBelow 48 (fun l => ch.fabState l == 2 || ch.fabState l == 3 || ch.fabState l == 4)) (fun c l =>
        let c1 := c.drainLane l
        if 32 ≤ (c1.fabLane l).txq.length then c1 else c1.pushCell l c1.hello)
    else ch))

/-! Lanes (R480, R481, R483, R497, R501). -/

/-- LANE_LEAVE_ACTIVE (R483): an ACTIVE lane loses its signal, or FEC alignment; `inflight` cells were on the wire. -/
def execLaneLeaveActive (c : Fin 4) (lane : Nat) (fec : Bool) (inflight : Nat) (s : State) : Host.Outcome State Fault Refusal :=
  .next (s.onLive c (fun ch =>
    if lane < 48 ∧ ch.fabState lane = 3 then (ch.drainLane lane).fabDown lane 0 (some (b2n fec)) inflight else ch))

/-- SPARE_ACTIVATE (R497): the lowest STANDBY lane toward the same peer becomes ACTIVE, or the bundle narrows. -/
def execSpareActivate (c : Fin 4) (lane : Nat) (s : State) : Host.Outcome State Fault Refusal :=
  .next (s.onLive c (fun ch =>
    let x := ch.fabLane lane
    if x.spareDue && decide (lane < 48) then
      let d := ch.getF pgFab (FAB.LANE_CFG_PEER_CHAN lane)
      match firstBelow 48 (fun l => ch.fabState l == 4 && ch.getF pgFab (FAB.LANE_CFG_PEER_CHAN l) == d) with
      | some l =>
        let y := ch.fabLane l
        let c1 := (ch.putFabLane lane { x with spareDue := false, replaced := true }).putFabLane l { y with replaced := false }
        (((c1.setFabState l 3).fabSettle).raise pgFab 13).journal pgFab clsCorrected 4 (lane + l * 2 ^ 8 + d * 2 ^ 16)
      | none => (ch.putFabLane lane { x with spareDue := false }).journal pgFab clsDegraded 5 (d + ch.bundleNow d * 2 ^ 16)
    else ch))

/-- HELLO_LAPSE (R481, R494): 4 × LINK_PERIOD pass without a valid HELLO on the lane, or since the oldest bits
of REACH block `block` were last sent. -/
def execHelloLapse (c : Fin 4) (lane : Nat) (block : Option Nat) (s : State) : Host.Outcome State Fault Refusal :=
  .next (s.onLive c (fun ch =>
    let p := 4 * ch.getF pgFab FAB.LINK_CFG_LINK_PERIOD * 1000
    if 48 ≤ lane then ch
    else
      match block with
      | none =>
        if ch.fabState lane = 3 ∨ ch.fabState lane = 4 then
          ((ch.runTo ((ch.fabLane lane).helloAt + p)).drainLane lane).fabDown lane 2 (some 2) 0
        else ch
      | some b =>
        let k := 4 * lane + b % 4
        match (tget [] ch.fab.reachAt k).getLast? with
        | none => ch
        | some e =>
          ((ch.runTo (e.2 + p)).onFab (fun w => { w with
            reach := tput 0 w.reach k (tget 0 w.reach k - Nat.land (tget 0 w.reach k) e.1)
            reachAt := tput [] w.reachAt k (tget [] w.reachAt k).dropLast })).fabSettle))

/-- FAB_LANE_TRAINED (R481): training and alignment complete. -/
def execFabLaneTrained (c : Fin 4) (lane : Nat) (s : State) : Host.Outcome State Fault Refusal :=
  .next (s.onLive c (fun ch =>
    if lane < 48 ∧ ch.getB pgFab (FAB.LANE_CFG_EN lane) = true ∧ ch.getB pgFab (FAB.LANE_CFG_PD lane) = false
        ∧ (ch.fabState lane = 0 ∨ ch.fabState lane = 1) then
      (ch.setFabState lane 2).fabSettle
    else ch))

/-- FAB_LANE_FAULT (R481): a lane that is not ACTIVE loses its signal or FEC alignment. -/
def execFabLaneFault (c : Fin 4) (lane : Nat) (fec : Bool) (s : State) : Host.Outcome State Fault Refusal :=
  .next (s.onLive c (fun ch =>
    let st := ch.fabState lane
    if lane < 48 ∧ (st = 1 ∨ st = 2 ∨ st = 4 ∨ st = 6) then ch.fabDown lane 0 (some (b2n fec)) 0 else ch))

/-! Register writes (R499–R501). -/

/-- A refused write of FAB (R503). -/
def Chan.fabRefuse (ch : Chan) : Chan := ch.raise pgFab 14

/-- A write of FAB.CFG (R500). -/
def fabCfgHook : Hook := fun w ch =>
  if ch.enabled pgFab ∧ (bit w.v 31 ≠ bit w.old 31 ∨ fld w.v 11 0 ≠ fld w.old 11 0) then ch.fabRefuse
  else (ch.put w.p w.off w.merged).fabSettle

/-- FAB_CFG_WRITE (R500). -/
def execFabCfgWrite (r : Req) (c : Fin 4) (v : Word) (s : State) : Host.Outcome State Fault Refusal :=
  .next (s.chanWrite fabCfgHook true r c pgFab FAB.CFG v)

/-- A write of FAB.LANE_CFG (R480, R481, R501). A lane that is enabled, or changes its SPEED, trains; an
ACTIVE lane that becomes a spare leaves its bundle (R497). -/
def fabLaneHook (l : Nat) : Hook := fun w ch =>
  if fld w.v 30 29 = 3 then ch.rejectWrite w.p w.off
  else if (bit w.v 27 ∧ (bit w.v 31 ∨ bit w.old 31)) ∨ (bit w.v 28 ∧ ch.mesh = false) then ch.fabRefuse
  else
    let c1 := ch.put w.p w.off w.merged
    let go := bit w.v 31 && !(bit w.v 27)
    if !go then (if ch.fabState l = 0 then c1.fabSettle else c1.fabDown l 0 (some 4) 0)
    else if ch.fabState l = 0 then ((c1.putFabLane l {}).setFabState l 1).fabSettle
    else if fld w.v 30 29 ≠ fld w.old 30 29 then c1.fabDown l 1 (some 4) 0
    else if bit w.v 28 && !(bit w.old 28) && ch.fabState l == 3 then (c1.drainLane l).fabDown l 4 none 0
    else c1.fabSettle

/-- FAB_LANE_CFG_WRITE (R501). -/
def execFabLaneCfgWrite (r : Req) (c : Fin 4) (lane : Nat) (v : Word) (s : State) : Host.Outcome State Fault Refusal :=
  .next (s.chanWrite (fabLaneHook (lane % 48)) true r c pgFab (FAB.LANE_CFG (lane % 48)) v)

/-- A write of SPORT_IDX loads SPORT_DATA. -/
def sportIdxHook : Hook := fun w ch => (ch.put w.p w.off w.merged).put pgFab FAB.SPORT_DATA (ch.sportWord (fld w.v 15 0))

/-- A write of SPORT_DATA goes to the map entry. -/
def sportDataHook : Hook := fun w ch =>
  let i := ch.getF pgFab FAB.SPORT_IDX_SPORT
  (ch.put w.p w.off w.merged).onFab (fun x => { x with sport := tput 0 x.sport i w.merged })

/-- A write of MC_IDX loads MC_DATA. -/
def mcIdxHook : Hook := fun w ch => (ch.put w.p w.off w.merged).put pgFab FAB.MC_DATA (tget 0 ch.fab.mcMap (fld w.v 15 0))

/-- A write of MC_DATA goes to the group's entry. -/
def mcDataHook : Hook := fun w ch =>
  let i := ch.getF pgFab FAB.MC_IDX_GROUP
  (ch.put w.p w.off w.merged).onFab (fun x => { x with mcMap := tput 0 x.mcMap i w.merged })

/-- A write of REACH_IDX loads REACH: bit k, lane Fk reaches the channel. -/
def reachIdxHook : Hook := fun w ch =>
  let d := fld w.v 11 0
  (ch.put w.p w.off w.merged).put64 pgFab FAB.REACH
    ((allBelow 48 (fun l => nbit (ch.laneReach l) d && (!ch.mesh || ch.fabState l == 3))).foldl (fun n l => n + 2 ^ l) 0)

/-- SPORT_IDX_WRITE (R499). -/
def execSportIdxWrite (r : Req) (c : Fin 4) (sport : Nat) (s : State) : Host.Outcome State Fault Refusal :=
  .next (s.chanWrite sportIdxHook true r c pgFab FAB.SPORT_IDX (BitVec.ofNat 32 (sport % 65536)))

/-- MC_IDX_WRITE (R499). -/
def execMcIdxWrite (r : Req) (c : Fin 4) (group : Nat) (s : State) : Host.Outcome State Fault Refusal :=
  .next (s.chanWrite mcIdxHook true r c pgFab FAB.MC_IDX (BitVec.ofNat 32 (group % 65536)))

/-- REACH_IDX_WRITE (R499). -/
def execReachIdxWrite (r : Req) (c : Fin 4) (chan : Nat) (s : State) : Host.Outcome State Fault Refusal :=
  .next (s.chanWrite reachIdxHook true r c pgFab FAB.REACH_IDX (BitVec.ofNat 32 (chan % 4096)))

/-- MESH_STAT as read (R497). -/
def Chan.fabView (ch : Chan) (off : Nat) : Option Nat :=
  if off = FAB.MESH_STAT then
    some (if ch.mesh then (List.range 8).foldl (fun n i =>
      if ch.getB pgFab (FAB.MESH_PEER_VALID i) then n + min 15 (ch.bundleNow (ch.getF pgFab (FAB.MESH_PEER_CHAN i))) * 16 ^ i else n) 0 else 0)
  else none

/-- SOFT_RESET of FAB: packets in reassembly go and are counted; balances, entries and lanes return to reset (R58). The cells in the lanes'
queues are lost with their links (R483); a packet that is being sent goes on with its next cell once a lane is back (R36, log 54). -/
def Chan.fabReset (ch : Chan) : Chan :=
  let open_ := (ch.fab.reasm.filter (fun e => !e.2.open_.isEmpty)).map Prod.fst
  let c1 := ch.each open_ (fun c k => c.reasmDrop k)
  let lost := c1.fab.lanes.foldl (fun n e => n + if c1.fabState e.1 = 3 then e.2.txq.length else 0) 0
  let c2 := c1.each (chanList c1.fab.was) (fun c d => c.lostChan d)
  let c3 := { c2 with fab := { seq := c2.fab.seq, sending := c2.fab.sending } }
  (((c3.softResetRegs pgFab).inc pgFab FAB.REASM_TIMEOUT open_.length).inc pgFab FAB.LINK_LOSS lost).setDegraded pgFab false |>.voqReqAll

end Sys2Proof.Machine
end

