-- ==== Sys2Proof/Machine/Parse.lean ====
section
/-! DEFINITION. The parse instructions (R308–R323), the dispatcher (R267–R269), the events of threads, the stall detectors
(R280–R282) and debugging (R285–R288). -/

namespace Sys2Proof.Machine

/-! The instructions: each effect finds pc and icount advanced. -/

/-- Change a thread. -/
def Chan.onThr (ch : Chan) (t : Nat) (f : Thread → Thread) : Chan := ch.putThr t (f (ch.thr t))

/-- ZERO (R311, R323). -/
def Chan.opZero (ch : Chan) (t : Nat) : Chan := ch.endThread t dispFault 0x10

/-- DONE (R322, R274, R276): leaked locks and a leaked mailbox are counted. -/
def Chan.opDone (ch : Chan) (t w : Nat) : Chan :=
  let p := pgPclu (t / 128)
  let n := (ch.locksOf t).length
  let m := b2n (ch.staging t).isSome
  let c1 := (ch.incF p PCLU.LEAK_CNT_LOCK_LEAK n).incF p PCLU.LEAK_CNT_MBOX_LEAK m
  let c2 := if n + m = 0 then ch else c1.raise p 11
  c2.endThread t (nbits w 97 96) (nbits w 7 0)

/-- EXT (R313). -/
def Thread.opExt (w : Nat) (x : Thread) : Thread :=
  let r := (x.pkt.getD {}).windowRead (x.extAddr w) (nbits w 98 96 + 1)
  let v := BitVec.ofNat 64 r.1
  let y := (x.setReg (iRd w) v).setZN v
  if r.2 then y.setFlag fOOB true else y

/-- EXTF (R313). -/
def Thread.opExtf (w : Nat) (x : Thread) : Thread :=
  let r := (x.pkt.getD {}).windowRead (x.extAddr w) 8
  let v := BitVec.ofNat 64 (packBits r.1 (nbits w 63 0))
  let y := (x.setReg (iRd w) v).setZN v
  if r.2 then y.setFlag fOOB true else y

/-- ADV (R314). -/
def Thread.opAdv (w : Nat) (x : Thread) : Thread :=
  let h := x.advTo w
  let y := { x with hp := h.1, wb := if nbit w 97 then h.1 else x.wb }
  if h.2 then y.setFlag fOOB true else y

/-- EMIT (R315). -/
def Thread.opEmit (w : Nat) (x : Thread) : Thread := x.emit w ((x.reg (iRs1 w)).toNat >>> nbits w 79 72)

/-- EMITI (R315). -/
def Thread.opEmiti (w : Nat) (x : Thread) : Thread := x.emit w (nbits w 31 0)

/-- ALU and ALUI on a second operand (R316). -/
def Thread.aluWith (w : Nat) (b : BitVec 64) (x : Thread) : Thread :=
  let func := nbits w 99 96
  let r := aluFunc func (x.reg (iRs1 w)) b
  let y := (x.setZN r.1).setFlag fC r.2
  if aluWrites func then y.setReg (iRd w) r.1 else y

/-- ALU (R316). -/
def Thread.opAlu (w : Nat) (x : Thread) : Thread := x.aluWith w (x.reg (iRs2 w))

/-- ALUI (R316). -/
def Thread.opAlui (w : Nat) (x : Thread) : Thread := x.aluWith w ((BitVec.ofNat 32 (nbits w 31 0)).signExtend 64)

/-- MOVI (R311). -/
def Thread.opMovi (w : Nat) (x : Thread) : Thread := x.setReg (iRd w) (BitVec.ofNat 64 (nbits w 63 0))

/-- HASH (R317). -/
def Thread.opHash (w : Nat) (x : Thread) : Thread :=
  let vs := (List.range (nbits w 99 98 + 1)).map (fun k => x.reg (iRs1 w + k))
  let v := hashFunc (nbits w 103 102) ((x.reg (iRd w)).toNat % 2 ^ 32) (nbit w 101) vs
  (x.setReg (iRd w) (BitVec.ofNat 64 v)).setFlag fZ (decide (v = 0))

/-- CSUM (R317). -/
def Thread.opCsum (w : Nat) (x : Thread) : Thread :=
  let hc := (x.reg (iRd w)).toNat % 65536
  let a := (x.reg (iRs1 w)).toNat
  let v := if nbit w 96 then csumAdd hc a else csumUpdate hc (a % 65536) ((x.reg (iRs2 w)).toNat % 65536)
  (x.setReg (iRd w) (BitVec.ofNat 64 v)).setFlag fZ (decide (v = 0))

/-- PTL (R318). -/
def Chan.opPtl (ch : Chan) (t w : Nat) : Chan :=
  let x := ch.thr t
  let e := tget (0 : BitVec 64) (ch.bank (x.pkt.getD {}).parity).ptable (x.indexed w (nbits w 15 0) % 4096)
  ch.putThr t { x with looks := x.looks ++ [(iRd w, e)] }

/-- BR (R311). -/
def Thread.opBr (w : Nat) (x : Thread) : Thread := { x with pc := nbits w 11 0 }

/-- BRX (R311). -/
def Thread.opBrx (w : Nat) (x : Thread) : Thread := { x with pc := ((x.reg (iRs1 w)).toNat + nbits w 11 0) % 4096 }

/-- MATCH (R319). -/
def Thread.opMatch (w : Nat) (x : Thread) : Thread :=
  match matchTarget x w with
  | some p => { x with pc := p }.setFlag fS true
  | none => x.setFlag fS false

/-- S, ALREADY and LOCK_ERR of the lock instructions (R320). -/
def Thread.lockFlags (x : Thread) (s already : Bool) : Thread :=
  ((x.setFlag fS s).setFlag fALREADY already).setFlag fLOCKERR false

/-- LOCK (R273, R274, R320). -/
def Chan.opLock (ch : Chan) (t w : Nat) : Chan :=
  let x := { ch.thr t with watchLock := none }
  let n := x.indexed w (nbits w 9 0) % 1024
  let k := lockKey t n
  let l := ch.lock k
  if l.holder = t + 1 then ch.putThr t (x.lockFlags true true)
  else if 8 ≤ (ch.locksOf t).length then ch.endThread t dispFault 3
  else if l.holder = 0 then (ch.putThr t (x.lockFlags true false)).putLock k { holder := t + 1 }
  else
    ((ch.putThr t { x with st := 3, waitLock := some n }).putLock k { l with waiters := l.waiters ++ [t] }).tally (pgPclu (t / 128))
      0x13 (engAttr t)

/-- TRYLOCK (R273, R274, R320). -/
def Chan.opTrylock (ch : Chan) (t w : Nat) : Chan :=
  let x := { ch.thr t with watchLock := none }
  let n := x.indexed w (nbits w 9 0) % 1024
  let k := lockKey t n
  let l := ch.lock k
  if l.holder = t + 1 then ch.putThr t (x.lockFlags true true)
  else if l.holder ≠ 0 then
    (ch.putThr t ({ x with watchLock := some n }.lockFlags false false)).tally (pgPclu (t / 128)) 0x13 (engAttr t)
  else if 8 ≤ (ch.locksOf t).length then ch.endThread t dispFault 3
  else (ch.putThr t (x.lockFlags true false)).putLock k { holder := t + 1 }

/-- UNLOCK (R273, R274, R320). -/
def Chan.opUnlock (ch : Chan) (t w : Nat) : Chan :=
  let x := ch.thr t
  let k := lockKey t (x.indexed w (nbits w 9 0) % 1024)
  let p := pgPclu (t / 128)
  if (ch.lock k).holder = t + 1 then
    (ch.putThr t ((x.setFlag fS true).setFlag fLOCKERR false)).releaseLock k
  else ((ch.putThr t ((x.setFlag fS false).setFlag fLOCKERR true)).inc p PCLU.LOCK_ERR_CNT).raise p 10

/-- S and BUSY of MBW and MBS (R320). -/
def Thread.mbFlags (x : Thread) (ok : Bool) : Thread := (x.setFlag fS ok).setFlag fBUSY (!ok)

/-- MBW (R275). -/
def Chan.opMbw (ch : Chan) (t w : Nat) : Chan :=
  let x := ch.thr t
  let k := mboxKey t (x.indexed w (nbits w 5 0) % 64)
  let m := ch.mbox k
  let v := x.reg (iRs2 w)
  if m.st = 1 ∧ m.owner = t then
    (ch.putThr t (x.mbFlags true)).putMbox k { m with words := m.words.setIfInBounds (nbits w 10 8) v }
  else if m.st = 0 ∧ (ch.staging t).isNone then
    (ch.putThr t (x.mbFlags true)).putMbox k
      { st := 1, owner := t, words := (Vector.replicate 8 0).setIfInBounds (nbits w 10 8) v }
  else ch.putThr t (x.mbFlags false)

/-- MBS (R275): the seal is visible, and the watchers receive the MBOX event. -/
def Chan.opMbs (ch : Chan) (t w : Nat) : Chan :=
  let x := ch.thr t
  let n := x.indexed w (nbits w 5 0) % 64
  let k := mboxKey t n
  let m := ch.mbox k
  if m.st = 1 ∧ m.owner = t then
    let c1 := (ch.putThr t (x.mbFlags true)).putMbox k { m with st := 2 }
    c1.each ((c1.prs.threads.filter (fun e => e.1 / 128 == t / 128 && e.2.watchMbox == some n)).map Prod.fst) (fun c u => c.event u 3)
  else ch.putThr t (x.mbFlags false)

/-- MBR (R275, R276). -/
def Chan.opMbr (ch : Chan) (t w : Nat) : Chan :=
  let x := { ch.thr t with watchMbox := none }
  let n := x.indexed w (nbits w 5 0) % 64
  let k := mboxKey t n
  let m := ch.mbox k
  if m.st = 2 then
    let v := (m.words.toArray[nbits w 10 8]?).getD 0
    let c1 := ch.putThr t (((x.setReg (iRd w) v).setFlag fS true).setFlag fEMPTY false)
    if nbit w 97 then c1.putMbox k {} else c1
  else ch.putThr t ((({ x with watchMbox := some n }.setReg (iRd w) 0).setFlag fS false).setFlag fEMPTY true)

/-- WFE (R271, R321). -/
def Chan.opWfe (ch : Chan) (t w : Nat) : Chan :=
  let x := { ch.thr t with evMask := nbits w 6 0 }
  let hit := Nat.land x.evPend x.evMask
  if hit ≠ 0 then ch.putThr t { x with evPend := x.evPend - hit }
  else (ch.putThr t { x with st := 2, wfe := true, wake := 0 }).tally (pgPclu (t / 128)) 0x12 (engAttr t)

/-- SEV (R272, R321). -/
def Chan.opSev (ch : Chan) (t w : Nat) : Chan :=
  if nbit w 96 then ch.each ((clusterTids (t / 128)).filter (fun u => u != t)) (fun c u => c.event u 5)
  else ch.event (t / 128 * 128 + nbits w 6 0) 5

/-- TMR (R321). -/
def Chan.opTmr (ch : Chan) (t w : Nat) : Chan :=
  ch.onThr t (fun x =>
    let n := if nbit w 96 then 0 else if nbit w 97 then (x.reg (iRs1 w)).toNat % 65536 else nbits w 15 0
    { x with timer := n, timerAt := if n = 0 then 0 else ch.ns })

/-- TIME (R321). -/
def Chan.opTime (ch : Chan) (t w : Nat) : Chan :=
  ch.onThr t (fun x => x.setReg (iRd w) (BitVec.ofNat 64 (if nbit w 96 then ch.ns else ch.t64)))

/-- RDF (R311). -/
def Thread.opRdf (w : Nat) (x : Thread) : Thread := x.setReg (iRd w) (BitVec.ofNat 64 x.flags)

/-- WRF (R311, R307): reserved flags ignore the write. -/
def Thread.opWrf (w : Nat) (x : Thread) : Thread :=
  let mask := Nat.land (nbits w 31 16) 0x1FF
  { x with flags := Nat.lor (Nat.land x.flags (0xFFFF - mask)) (Nat.land (nbits w 15 0) mask) }

/-- The effect of an instruction by its opcode (R311). -/
def Chan.effect (ch : Chan) (t w : Nat) : Chan :=
  let o := iOpc w
  if o = 0x00 then ch.opZero t
  else if o = 0x02 then ch.opDone t w
  else if o = 0x08 then ch.onThr t (Thread.opExt w)
  else if o = 0x09 then ch.onThr t (Thread.opExtf w)
  else if o = 0x0A then ch.onThr t (Thread.opAdv w)
  else if o = 0x0B then ch.onThr t (Thread.opEmit w)
  else if o = 0x0C then ch.onThr t (Thread.opEmiti w)
  else if o = 0x10 then ch.onThr t (Thread.opAlu w)
  else if o = 0x11 then ch.onThr t (Thread.opAlui w)
  else if o = 0x12 then ch.onThr t (Thread.opMovi w)
  else if o = 0x14 then ch.onThr t (Thread.opHash w)
  else if o = 0x15 then ch.onThr t (Thread.opCsum w)
  else if o = 0x18 then ch.opPtl t w
  else if o = 0x20 then ch.onThr t (Thread.opBr w)
  else if o = 0x21 then ch.onThr t (Thread.opBrx w)
  else if o = 0x22 then ch.onThr t (Thread.opMatch w)
  else if o = 0x28 then ch.opLock t w
  else if o = 0x29 then ch.opTrylock t w
  else if o = 0x2A then ch.opUnlock t w
  else if o = 0x30 then ch.opMbw t w
  else if o = 0x31 then ch.opMbs t w
  else if o = 0x32 then ch.opMbr t w
  else if o = 0x38 then ch.opWfe t w
  else if o = 0x39 then ch.opSev t w
  else if o = 0x3A then ch.opTmr t w
  else if o = 0x40 then ch.opTime t w
  else if o = 0x41 then ch.onThr t (Thread.opRdf w)
  else if o = 0x42 then ch.onThr t (Thread.opWrf w)
  else ch

/-- The next instruction word of a thread, from the bank of its packet's parity (R265). -/
def Chan.instrWord (ch : Chan) (t : Nat) : Nat :=
  let x := ch.thr t
  (tget (0 : BitVec 128) (ch.bank (x.pkt.getD {}).parity).code x.pc).toNat

/-- Key of an instruction word in the poison table. -/
def poisonKey (cluster bank pc : Nat) : Nat := (cluster * 2 + bank) * 4096 + pc

/-- The instruction needs an outstanding result, or is a fifth lookup (R310 rule 4, R318). -/
def Thread.blocked (x : Thread) (w : Nat) : Bool :=
  (usedRegs w).any (fun r => x.looks.any (fun l => l.1 == r)) || (iOpc w == 0x18 && decide (4 ≤ x.looks.length))

/-- The next instruction waits for an outstanding result (R270): the instruction limit, a poisoned word and the predicate come first. -/
def Chan.waits (ch : Chan) (t : Nat) : Bool :=
  let x := ch.thr t
  let w := ch.instrWord t
  decide (x.icount < x.maxInstr) && tget 0 ch.prs.poison (poisonKey (t / 128) (x.pkt.getD {}).parity x.pc) == 0 && condHolds x.flags (iCond w)
    && x.blocked w

/-- The thread for which its engine issues next (R270): the first READY one after the one that issued last, in ring order. Log 53. -/
def Chan.turn (ch : Chan) (e : Nat) : Option Nat :=
  ((List.range 8).map (fun i => e * 8 + (tget 7 ch.prs.issued e + 1 + i) % 8)).find? (fun t =>
    (ch.thr t).st == 1 && (ch.thr t).pkt.isSome && !(ch.waits t))

/-- The effect of the STEP command on a thread whose instruction has issued (R285). -/
def Chan.stepSettle (ch : Chan) (was : Thread) (t : Nat) : Chan :=
  let x := ch.thr t
  if was.stepping = 0 then ch
  else if x.pkt.isNone then ch.haltThread t 3 0
  else if x.st = 1 then ch.haltThread t 3 0
  else ch

/-- The issue itself (R270, R310): the instruction limit, a poisoned word, the predicate and an outstanding result are judged
before the effect. -/
def Chan.runInstr (ch : Chan) (t : Nat) : Chan :=
  let x := ch.thr t
  let k := x.pkt.getD {}
  let w := ch.instrWord t
  let adv := { x with
    pc := (x.pc + 1) % 4096, icount := x.icount + 1, bpPass := false, stepping := if x.stepping = 0 then 0 else 2 }
  let c0 := { ch with prs := { ch.prs with issued := tput 7 ch.prs.issued (t / 8) (t % 8) } }
  let c1 := if ch.waits t then ch.putThr t { x with st := 2, wfe := false }
    else if x.maxInstr ≤ x.icount then c0.endThread t dispFault 0x11
    else if tget 0 ch.prs.poison (poisonKey (t / 128) k.parity x.pc) ≠ 0 then c0.endThread t dispFault 4
    else if !(condHolds x.flags (iCond w)) then (c0.putThr t adv).tally (pgPclu (t / 128)) 0x10 (engAttr t)
    else ((c0.putThr t adv).tally (pgPclu (t / 128)) 0x10 (engAttr t)).effect t w
  (c1.stepSettle x t).lateCheck t

/-- A READY thread's issue slot: a breakpoint on its pc halts it before the instruction issues, or, in count mode, lets it
issue (R286). -/
def Chan.stepThread (ch : Chan) (t : Nat) : Chan :=
  match ch.bpMatch t with
  | some b =>
    let c1 := ch.bpHit t b
    if (c1.thr t).st = 4 then c1 else c1.runInstr t
  | none => ch.runInstr t

/-- The thread issues an instruction of opcode `opc`: it is READY with a packet, its cluster works, the word at its pc has that opcode, and it is
its turn (R270); an instruction that needs an outstanding result puts the thread into WAIT. -/
def Chan.issue (ch : Chan) (t opc : Nat) : Chan :=
  let x := ch.thr t
  if t < 2048 ∧ x.st = 1 ∧ x.pkt.isSome = true ∧ ch.enabled (pgPclu (t / 128)) = true ∧ iOpc (ch.instrWord t) = opc
      ∧ (ch.waits t = true ∨ ch.turn (t / 8) = some t) then ch.stepThread t
  else ch

/-- ZERO (R311). -/
def execPZero (c : Fin 4) (tid : Nat) (s : State) : Host.Outcome State Fault Refusal := .next (s.onLive c (fun ch => ch.issue tid 0x00))
/-- NOP (R311). -/
def execPNop (c : Fin 4) (tid : Nat) (s : State) : Host.Outcome State Fault Refusal := .next (s.onLive c (fun ch => ch.issue tid 0x01))
/-- DONE (R322). -/
def execPDone (c : Fin 4) (tid : Nat) (s : State) : Host.Outcome State Fault Refusal := .next (s.onLive c (fun ch => ch.issue tid 0x02))
/-- EXT (R313). -/
def execPExt (c : Fin 4) (tid : Nat) (s : State) : Host.Outcome State Fault Refusal := .next (s.onLive c (fun ch => ch.issue tid 0x08))
/-- EXTF (R313). -/
def execPExtf (c : Fin 4) (tid : Nat) (s : State) : Host.Outcome State Fault Refusal := .next (s.onLive c (fun ch => ch.issue tid 0x09))
/-- ADV (R314). -/
def execPAdv (c : Fin 4) (tid : Nat) (s : State) : Host.Outcome State Fault Refusal := .next (s.onLive c (fun ch => ch.issue tid 0x0A))
/-- EMIT (R315). -/
def execPEmit (c : Fin 4) (tid : Nat) (s : State) : Host.Outcome State Fault Refusal := .next (s.onLive c (fun ch => ch.issue tid 0x0B))
/-- EMITI (R315). -/
def execPEmiti (c : Fin 4) (tid : Nat) (s : State) : Host.Outcome State Fault Refusal := .next (s.onLive c (fun ch => ch.issue tid 0x0C))
/-- ALU (R316). -/
def execPAlu (c : Fin 4) (tid : Nat) (s : State) : Host.Outcome State Fault Refusal := .next (s.onLive c (fun ch => ch.issue tid 0x10))
/-- ALUI (R316). -/
def execPAlui (c : Fin 4) (tid : Nat) (s : State) : Host.Outcome State Fault Refusal := .next (s.onLive c (fun ch => ch.issue tid 0x11))
/-- MOVI (R311). -/
def execPMovi (c : Fin 4) (tid : Nat) (s : State) : Host.Outcome State Fault Refusal := .next (s.onLive c (fun ch => ch.issue tid 0x12))
/-- HASH (R317). -/
def execPHash (c : Fin 4) (tid : Nat) (s : State) : Host.Outcome State Fault Refusal := .next (s.onLive c (fun ch => ch.issue tid 0x14))
/-- CSUM (R317). -/
def execPCsum (c : Fin 4) (tid : Nat) (s : State) : Host.Outcome State Fault Refusal := .next (s.onLive c (fun ch => ch.issue tid 0x15))
/-- PTL (R318). -/
def execPPtl (c : Fin 4) (tid : Nat) (s : State) : Host.Outcome State Fault Refusal := .next (s.onLive c (fun ch => ch.issue tid 0x18))
/-- BR (R311). -/
def execPBr (c : Fin 4) (tid : Nat) (s : State) : Host.Outcome State Fault Refusal := .next (s.onLive c (fun ch => ch.issue tid 0x20))
/-- BRX (R311). -/
def execPBrx (c : Fin 4) (tid : Nat) (s : State) : Host.Outcome State Fault Refusal := .next (s.onLive c (fun ch => ch.issue tid 0x21))
/-- MATCH (R319). -/
def execPMatch (c : Fin 4) (tid : Nat) (s : State) : Host.Outcome State Fault Refusal := .next (s.onLive c (fun ch => ch.issue tid 0x22))
/-- LOCK (R273). -/
def execPLock (c : Fin 4) (tid : Nat) (s : State) : Host.Outcome State Fault Refusal := .next (s.onLive c (fun ch => ch.issue tid 0x28))
/-- TRYLOCK (R273). -/
def execPTrylock (c : Fin 4) (tid : Nat) (s : State) : Host.Outcome State Fault Refusal := .next (s.onLive c (fun ch => ch.issue tid 0x29))
/-- UNLOCK (R273). -/
def execPUnlock (c : Fin 4) (tid : Nat) (s : State) : Host.Outcome State Fault Refusal := .next (s.onLive c (fun ch => ch.issue tid 0x2A))
/-- MBW (R275). -/
def execPMbw (c : Fin 4) (tid : Nat) (s : State) : Host.Outcome State Fault Refusal := .next (s.onLive c (fun ch => ch.issue tid 0x30))
/-- MBS (R275). -/
def execPMbs (c : Fin 4) (tid : Nat) (s : State) : Host.Outcome State Fault Refusal := .next (s.onLive c (fun ch => ch.issue tid 0x31))
/-- MBR (R275). -/
def execPMbr (c : Fin 4) (tid : Nat) (s : State) : Host.Outcome State Fault Refusal := .next (s.onLive c (fun ch => ch.issue tid 0x32))
/-- WFE (R271). -/
def execPWfe (c : Fin 4) (tid : Nat) (s : State) : Host.Outcome State Fault Refusal := .next (s.onLive c (fun ch => ch.issue tid 0x38))
/-- SEV (R272). -/
def execPSev (c : Fin 4) (tid : Nat) (s : State) : Host.Outcome State Fault Refusal := .next (s.onLive c (fun ch => ch.issue tid 0x39))
/-- TMR (R321). -/
def execPTmr (c : Fin 4) (tid : Nat) (s : State) : Host.Outcome State Fault Refusal := .next (s.onLive c (fun ch => ch.issue tid 0x3A))
/-- TIME (R321). -/
def execPTime (c : Fin 4) (tid : Nat) (s : State) : Host.Outcome State Fault Refusal := .next (s.onLive c (fun ch => ch.issue tid 0x40))
/-- RDF (R311). -/
def execPRdf (c : Fin 4) (tid : Nat) (s : State) : Host.Outcome State Fault Refusal := .next (s.onLive c (fun ch => ch.issue tid 0x41))
/-- WRF (R311). -/
def execPWrf (c : Fin 4) (tid : Nat) (s : State) : Host.Outcome State Fault Refusal := .next (s.onLive c (fun ch => ch.issue tid 0x42))

/-! The dispatcher (R267–R269). -/

/-- Thread slot `t` belongs to the egress pool (R267). -/
def Chan.inEgPool (ch : Chan) (t : Nat) : Bool :=
  decide ((7 - t % 8) * 16 + t % 128 / 8 < ch.getF pgDisp DISP.CFG_EG_THREADS)

/-- The engine takes packets (R269, R284). -/
def Chan.engOpen (ch : Chan) (e : Nat) : Bool :=
  ch.enabled (pgPclu (e / 16)) && !(ch.getB (pgPclu (e / 16)) STAT_BUSY) && !(ch.engMasked e)

/-- FREE threads of a direction's pool in an engine. -/
def Chan.freeIn (ch : Chan) (egress : Bool) (e : Nat) : List Nat :=
  (engineTids e).filter (fun t => (ch.thr t).st == 0 && ch.inEgPool t == egress)

/-- The engine that takes the next packet (R269): the most FREE threads, ties to the engine that follows the last one used. -/
def Chan.pickEngine (ch : Chan) (egress : Bool) : Option Nat :=
  let order := (List.range 256).map (fun i => (ch.prs.lastEngine + 1 + i) % 256)
  let best := order.foldl (fun (b : Option (Nat × Nat)) e =>
    if ch.engOpen e then
      let n := (ch.freeIn egress e).length
      match b with
      | some (_, m) => if m < n then some (e, n) else b
      | none => if 0 < n then some (e, n) else none
    else b) none
  best.map Prod.fst

/-- Threads that a partition's packets hold. -/
def Chan.partThreads (ch : Chan) (p : Nat) : Nat :=
  (ch.prs.threads.filter (fun e => match e.2.pkt with | some k => k.part == p | none => false)).length

/-- The thread at its start (R305). -/
def Chan.startThread (ch : Chan) (k : Pkt) (seq : Nat) : Thread :=
  let b := ch.bank k.parity
  let g1 := b2n k.injected * 2 ^ 29 + k.part % 32 * 2 ^ 24 + k.parity % 2 * 2 ^ 23 + b2n k.egress * 2 ^ 22 + k.port % 64 * 2 ^ 16 + k.len % 2 ^ 14
  let lanes : Vector (BitVec 64) 8 := if k.egress then Vector.ofFn (fun i => BitVec.ofNat 64 (beAt k.ctx (8 * i.val) 8)) else Vector.replicate 8 0
  { st := 1, pkt := some k, ctxNo := k.roCtx, seq := seq, maxInstr := if k.egress then b.maxEg else b.maxIn
    g := ((Vector.replicate 16 0).setIfInBounds 0 (BitVec.ofNat 64 k.t64)).setIfInBounds 1 (BitVec.ofNat 64 g1)
    c := lanes, pc := tget 0 b.entry ((if k.egress then 64 else 0) + k.port % 64) % 4096, since := ch.ns }

/-- Replace a direction's dispatch queue. -/
def Chan.putDq (ch : Chan) (egress : Bool) (q : List Pkt) : Chan :=
  if egress then { ch with prs := { ch.prs with qEg := q } } else { ch with prs := { ch.prs with qIn := q } }

/-- The oldest eligible entry of a direction is assigned to a FREE thread of its engine, whichever (R269, R278, R191, log 6). -/
def Chan.dispatchDir (ch : Chan) (egress : Bool) : Chan :=
  let q := if egress then ch.prs.qEg else ch.prs.qIn
  match q.find? (fun k => decide (ch.partThreads k.part < ch.getF pgDisp (DISP.PART_SHARE_MAX_THREADS k.part))) with
  | none => ch
  | some k0 =>
    let rest := ch.putDq egress (q.erase k0)
    if (List.range 256).all (fun e => !(ch.engOpen e)) then rest.incRaise pgDisp DISP.NO_ENGINE_DROP 13
    else match ch.pickEngine egress with
      | none => ch
      | some e =>
        match pickOf (ch.freeVal 32) (ch.freeIn egress e) with
        | none => ch
        | some t =>
          let k := { k0 with parity := ch.parityOf k0 }
          let r := ch.ro k.roCtx
          let c1 := rest.takeFree.putThr t (ch.startThread k r.next)
          let c2 := c1.putRo k.roCtx { r with next := r.next + 1, out := r.out ++ [(r.next, ch.ns)] }
          { c2 with prs := { c2.prs with lastEngine := e } }.tally pgDisp (if egress then 0x11 else 0x10)

/-- DISPATCH (R269): egress is served before ingress (R268). -/
def execDispatch (c : Fin 4) (s : State) : Host.Outcome State Fault Refusal :=
  .next (s.onLive c (fun ch =>
    if ch.enabled pgDisp && ch.brewCurrent then (ch.dispatchDir true).dispatchDir false else ch))

/-! Events of threads. -/

/-- LOOKUP_RETURN (R318): the oldest lookup of the thread returns. -/
def execLookupReturn (c : Fin 4) (tid : Nat) (s : State) : Host.Outcome State Fault Refusal :=
  .next (s.onLive c (fun ch =>
    let x := ch.thr tid
    match x.looks with
    | [] => ch
    | (rd, v) :: rest =>
      let c1 := ch.putThr tid (({ x with looks := rest }.setReg rd v).event 1)
      let y := c1.thr tid
      let waits := (y.st == 2 || (y.st == 4 && y.prev == 2)) && !y.wfe
      (if waits && !(y.blocked (c1.instrWord tid)) then c1.putThr tid (if y.st = 4 then { y with prev := 1 } else { y with st := 1 })
       else c1).lateCheck tid))

/-- THREAD_TIMER_EXPIRY (R272). -/
def execThreadTimerExpiry (c : Fin 4) (tid : Nat) (s : State) : Host.Outcome State Fault Refusal :=
  .next (s.onLive c (fun ch =>
    let x := ch.thr tid
    if x.timer = 0 then ch
    else (((ch.runTo (x.timerAt + ceilDiv (x.timer * 5) 8)).putThr tid { x with timer := 0, timerAt := 0 }).event tid 2).lateCheck tid))

/-- LOCK_GRANT (R273): the waiter to whom a released lock went leaves LOCK_WAIT. -/
def execLockGrant (c : Fin 4) (tid : Nat) (s : State) : Host.Outcome State Fault Refusal :=
  .next (s.onLive c (fun ch =>
    let x := ch.thr tid
    match x.waitLock with
    | none => ch
    | some n =>
      if (ch.lock (lockKey tid n)).holder = tid + 1 ∧ (x.st = 3 ∨ (x.st = 4 ∧ x.prev = 3)) then
        (ch.putThr tid (x.lockFlags true false)).ready tid
      else ch))

/-- EVENT_WAKE (R271): the thread takes the event that woke it. -/
def execEventWake (c : Fin 4) (tid : Nat) (s : State) : Host.Outcome State Fault Refusal :=
  .next (s.onLive c (fun ch =>
    let x := ch.thr tid
    if x.wfe = true ∧ x.wake ≠ 0 ∧ (x.st = 2 ∨ (x.st = 4 ∧ x.prev = 2)) then
      (ch.putThr tid { x with evPend := Nat.land x.evPend (127 - x.wake) }).ready tid
    else ch))

/-- REORDER_SKIP (R279, R281): the lowest outstanding number of context `ctx` has not completed in REORDER_TO µs. -/
def execReorderSkip (c : Fin 4) (ctx : Nat) (s : State) : Host.Outcome State Fault Refusal :=
  .next (s.onLive c (fun ch =>
    let x := ch.ro ctx
    match x.out.find? (fun e => e.1 == x.low) with
    | none => ch
    | some (_, at') =>
      let c1 := ch.runTo (at' + ch.getF pgDisp DISP.CFG_REORDER_TO * 1000)
      let c2 := ((c1.inc pgDisp (DISP.RO_SKIP ctx)).raise pgDisp 10).tally pgDisp 0x12
      let c3 := (c2.putRo ctx { x with low := x.low + 1, out := x.out.filter (fun e => e.1 != x.low) }).roDeliver ctx
      c3.each ((c3.prs.threads.filter (fun e => e.2.pkt.isSome && e.2.ctxNo == ctx && e.2.seq == x.low && !e.2.stale)).map Prod.fst)
        (fun d t => (d.onThr t (fun y => { y with skipped := true })).lateCheck t)))

/-- A thread with nothing on its way to wake it. -/
def Chan.still (ch : Chan) (t : Nat) : Bool :=
  let x := ch.thr t
  x.stuck && x.wake == 0 && (match x.waitLock with
    | some n => (ch.lock (lockKey t n)).holder != t + 1
    | none => true)

/-- ENGINE_STALL (R280, R282): the condition has held for ENG_LIMIT cycles. -/
def execEngineStall (c : Fin 4) (engine : Nat) (s : State) : Host.Outcome State Fault Refusal :=
  .next (s.onLive c (fun ch =>
    if engine < 256 ∧ ch.getB (pgPclu (engine / 16)) PCLU.STALL_CFG_ENG_EN = true ∧ ch.anyHalted (engine / 16) = false
        ∧ (engineTids engine).all (fun t => ch.still t) = true then
      (ch.runTo (tget 0 ch.prs.moved engine + ceilDiv (ch.getF (pgPclu (engine / 16)) PCLU.STALL_CFG_ENG_LIMIT * 5) 8)).stallFire (engine / 16) 0
        (engine % 16) (engineTids engine)
    else ch))

/-- CLUSTER_STALL (R280, R282): the condition has held for 64 cycles, 40 ns. -/
def execClusterStall (c : Fin 4) (cluster : Nat) (s : State) : Host.Outcome State Fault Refusal :=
  .next (s.onLive c (fun ch =>
    let ts := ch.holders cluster
    if cluster < 16 ∧ ch.getB (pgPclu cluster) PCLU.STALL_CFG_CLU_EN = true ∧ ch.anyHalted cluster = false ∧ ts.isEmpty = false
        ∧ ts.all (fun t => ch.still t) = true then
      (ch.runTo (((List.range 16).map (fun e => tget 0 ch.prs.moved (cluster * 16 + e))).foldl max 0 + 40)).stallFire cluster 1 0 ts
    else ch))

/-- THREAD_REG_UE (R283). -/
def execThreadRegUe (c : Fin 4) (tid : Nat) (s : State) : Host.Outcome State Fault Refusal :=
  .next (s.onLive c (fun ch =>
    if 2048 ≤ tid then ch
    else ((((ch.capture (pgPclu (tid / 128)) clsContained 0 tid 0 0).raise (pgPclu (tid / 128)) 0).endThread tid dispFault 4)).lateCheckAll
      (tid / 128)))

/-- INSTR_POISON (R283): word `index` of an instruction bank of a cluster is poisoned; the keeper rewrites it. -/
def execInstrPoison (c : Fin 4) (cluster bank index : Nat) (s : State) : Host.Outcome State Fault Refusal :=
  .next (s.onLive c (fun ch =>
    if 16 ≤ cluster ∨ 2 ≤ bank ∨ 4096 ≤ index then ch
    else
      let c1 := { ch with prs := { ch.prs with poison := tput 0 ch.prs.poison (poisonKey cluster bank index) 1 } }
      (c1.capture (pgPclu cluster) clsContained 12 (bank * 0x10000 + index * 16) 0 1).raise (pgPclu cluster) 12))

/-- The active keeper rewrites poisoned words from the same bank of another cluster (R283). -/
def Chan.repairPoison (ch : Chan) : Chan :=
  ch.each ((ch.prs.poison.filter (fun e => e.2 == 1)).map Prod.fst) (fun c k =>
    let word := k % 8192
    let ok := (List.range 16).any (fun i => tget 0 c.prs.poison (i * 8192 + word) == 0)
    let c1 := { c with prs := { c.prs with poison := tput 0 c.prs.poison k (if ok then 0 else 2) } }
    c1.journal (pgPclu (k / 8192)) (if ok then clsCorrected else clsContained) 3 (word / 4096 + word % 4096 * 16 * 2 ^ 32))

/-! Debugging (R285–R288). -/

/-- The register that an index of R286 names. -/
def Chan.dbgReg (ch : Chan) (t i : Nat) : Nat :=
  let x := ch.thr t
  let k := x.pkt.getD {}
  let ls := (ch.locksOf t).map (fun n => n % 1024)
  let place := fun (j : Nat) => (ls[j]?).getD 0x3FF
  let four := fun (j : Nat) => place (j + 3) * 2 ^ 30 + place (j + 2) * 2 ^ 20 + place (j + 1) * 2 ^ 10 + place j
  if i < 0x10 then (x.reg i).toNat
  else if i < 0x18 then (x.lane (i - 0x10)).toNat
  else if i = 0x18 then x.hp else if i = 0x19 then x.wb else if i = 0x1A then x.flags else if i = 0x1B then x.pc
  else if i = 0x1C then x.evPend + x.evMask * 2 ^ 8
  else if i = 0x1D then ch.timerLeft x
  else if i = 0x1E then b2n k.egress * 2 ^ 63 + k.parity * 2 ^ 62 + k.port % 64 * 2 ^ 48 + x.seq % 65536
  else if i = 0x1F then ls.length * 2 ^ 60 + four 0
  else if i = 0x20 then four 4
  else 0

/-- The thread with a register written by REG_WRITE (R286, R307, R314). -/
def Thread.dbgWrite (x : Thread) (i v : Nat) : Thread :=
  if i < 0x10 then x.setReg i (BitVec.ofNat 64 v)
  else if i < 0x18 then x.setLane (i - 0x10) (BitVec.ofNat 64 v)
  else if i = 0x18 then { x with hp := min v 384 }
  else if i = 0x19 then { x with wb := min v 384 }
  else if i = 0x1A then { x with flags := v % 512 }
  else { x with pc := v % 4096, bpPass := false }

/-- The thread returns to the state it would be in had it not halted (R285): an event on its way to it still wakes it. -/
def Thread.resumed (x : Thread) : Thread := { x with st := x.prev, prev := 0, haltCause := 0, bp := 0 }

/-- Detach with release (R287). -/
def Chan.detach (ch : Chan) (t : Nat) : Chan :=
  let x := ch.thr t
  let n := (ch.locksOf t).length
  let c1 := if x.pkt.isSome then
      let d := ch.inc pgDbg DBG.DETACH_DROP
      if x.skipped || x.stale then d else d.roRelease x.ctxNo x.seq
    else ch
  ((c1.recover [t] none).journal pgDbg clsContained 2 (t + n * 2 ^ 16)).lateCheckAll (t / 128)

/-- A write of DBG.CTRL (R285, R299, R300). -/
def dbgCtrlHook : Hook := fun w ch =>
  let cmd := fld w.v 2 0
  let t := ch.getF pgDbg DBG.SEL_TID
  let x := ch.thr t
  let idx := ch.getF pgDbg DBG.REG_IDX_INDEX
  let halted := x.st == 4
  let bad := (cmd == 1 && halted) || (!halted && (cmd == 2 || cmd == 3 || cmd == 4 || cmd == 5)) || (cmd == 5 && decide (0x1B < idx))
    || (cmd == 3 && x.pkt.isNone)
  if cmd = 7 then ch.rejectWrite w.p w.off
  else if cmd = 0 ∨ ch.enabled pgDbg = false then ch
  else
    let c0 := ch.putB pgDbg DBG.STAT_REFUSED bad
    if bad then c0
    else if cmd = 1 then c0.haltThread t 1 0
    else if cmd = 2 then (c0.putThr t x.resumed).lateCheckAll (t / 128)
    else if cmd = 3 then
      let c1 := c0.putThr t { x.resumed with stepping := 1 }
      if x.resumed.st = 1 then c1.stepThread t else c1
    else if cmd = 4 then c0.detach t
    else if cmd = 5 then c0.putThr t (x.dbgWrite idx (ch.prs.stage0 + ch.prs.stage1 * 2 ^ 32))
    else c0.event t 6

/-- A write of DBG.REG_IDX takes a snapshot (R286). -/
def regIdxHook : Hook := fun w ch =>
  let i := fld w.v 5 0
  if 0x20 < i then ch.rejectWrite w.p w.off
  else (ch.put w.p w.off w.merged).put64 pgDbg (DBG.REG_DATA 0) (ch.dbgReg (ch.getF pgDbg DBG.SEL_TID) i)

/-- A write of DBG.REG_DATA0 or 1 stages a word (R286). -/
def regDataHook (k : Nat) : Hook := fun w ch =>
  if k = 0 then { ch with prs := { ch.prs with stage0 := w.v.toNat } } else { ch with prs := { ch.prs with stage1 := w.v.toNat } }

/-- A write of DBG.BP_CFG reaches the breakpoint that BP_SEL names (R299, R301). -/
def bpCfgHook : Hook := fun w ch =>
  if fld w.v 30 29 = 0 then ch.rejectWrite w.p w.off
  else { ch with prs := { ch.prs with bps := tput 0x70000000 ch.prs.bps (fld (ch.get pgDbg DBG.BP_SEL) 9 0) w.merged } }

/-- The write that issues a debug command. -/
def State.dbgCmd (s : State) (r : Req) (c : Fin 4) (cmd : Nat) : State :=
  s.chanWrite dbgCtrlHook false r c pgDbg DBG.CTRL (BitVec.ofNat 32 cmd)

/-- DBG_HALT (R285). -/
def execDbgHalt (r : Req) (c : Fin 4) (s : State) : Host.Outcome State Fault Refusal := .next (s.dbgCmd r c 1)
/-- DBG_RESUME (R285). -/
def execDbgResume (r : Req) (c : Fin 4) (s : State) : Host.Outcome State Fault Refusal := .next (s.dbgCmd r c 2)
/-- DBG_STEP (R285). -/
def execDbgStep (r : Req) (c : Fin 4) (s : State) : Host.Outcome State Fault Refusal := .next (s.dbgCmd r c 3)
/-- DBG_DETACH (R287). -/
def execDbgDetach (r : Req) (c : Fin 4) (s : State) : Host.Outcome State Fault Refusal := .next (s.dbgCmd r c 4)
/-- DBG_REG_WRITE (R286). -/
def execDbgRegWrite (r : Req) (c : Fin 4) (s : State) : Host.Outcome State Fault Refusal := .next (s.dbgCmd r c 5)
/-- DBG_EVENT (R285). -/
def execDbgEvent (r : Req) (c : Fin 4) (s : State) : Host.Outcome State Fault Refusal := .next (s.dbgCmd r c 6)

/-- DBG_REG_IDX_WRITE (R286). -/
def execDbgRegIdxWrite (r : Req) (c : Fin 4) (idx : Nat) (s : State) : Host.Outcome State Fault Refusal :=
  .next (s.chanWrite regIdxHook false r c pgDbg DBG.REG_IDX (BitVec.ofNat 32 (idx % 64)))

/-- BREAKPOINT_HIT (R288). -/
def execBreakpointHit (c : Fin 4) (tid : Nat) (s : State) : Host.Outcome State Fault Refusal :=
  .next (s.onLive c (fun ch =>
    match ch.bpMatch tid with
    | some b => if (ch.thr tid).st = 1 then ch.bpHit tid b else ch
    | none => ch))

/-- A write of PCLU.PTBL_IDX loads PTBL_DATA (R277, R293). -/
def ptblHook : Hook := fun w ch =>
  (ch.put w.p w.off w.merged).put64 w.p PCLU.PTBL_DATA
    (tget (0 : BitVec 64) (ch.bank (fld w.v 12 12)).ptable (fld w.v 11 0)).toNat

/-- PTBL_IDX_WRITE (R277). -/
def execPtblIdxWrite (r : Req) (c : Fin 4) (cluster bank index : Nat) (s : State) : Host.Outcome State Fault Refusal :=
  .next (s.chanWrite ptblHook true r c (pgPclu (cluster % 16)) PCLU.PTBL_IDX (BitVec.ofNat 32 (bank % 2 * 2 ^ 12 + index % 4096)))

/-! Configuration and soft resets. -/

/-- A write of STALL_CFG (R281): LATE_ABORT may have been set. -/
def stallCfgHook (c : Nat) : Hook := fun w ch => (ch.put w.p w.off w.merged).lateCheckAll c

/-- A write of ENG_MASK_HOST or ENG_MASK_KEEP (R284). -/
def engMaskHook (i : Nat) : Hook := fun w ch =>
  (ch.put w.p w.off w.merged).each ((List.range 32).map (fun b => 32 * i + b)) Chan.engSettle

/-- A soft reset of DISP: the queued entries and the completed packets that wait for their turn are dropped and counted (R36, log 54), and the
packets in threads will be dropped as late. -/
def Chan.dispReset (ch : Chan) : Chan :=
  let n := ch.prs.ro.foldl (fun n e => n + e.2.held.length) (ch.prs.qIn.length + ch.prs.qEg.length)
  let c1 := ((ch.softResetRegs pgDisp).inc pgDisp DISP.DISABLED_DROP n)
  let c2 := { c1 with prs := { c1.prs with qIn := [], qEg := [], ro := [] } }
  c2.each (((c2.prs.threads.filter (fun e => e.2.pkt.isSome)).map Prod.fst)) (fun c t => c.onThr t (fun x => { x with stale := true }))

/-- A soft reset of PCLU `c`: every packet-holding thread is aborted with code RESET, every lock is free, every mailbox
empty; the banks keep their contents. -/
def Chan.pcluReset (ch : Chan) (c : Nat) : Chan :=
  let ts := ch.holders c
  let c1 := ch.each ts (fun d t => d.roComplete (d.thr t) { pkt := ((d.thr t).pkt.getD {}), carry := (d.thr t).c, result := (d.thr t).result dispFault 5 })
  let c2 := c1.recover ts (some c)
  { c2 with prs := { c2.prs with locks := tclear c2.prs.locks (c * 1024) (c * 1024 + 1024) } }.softResetRegs (pgPclu c)

/-- A soft reset of DBG clears every breakpoint. -/
def Chan.dbgReset (ch : Chan) : Chan :=
  let c1 := ch.softResetRegs pgDbg
  { c1 with prs := { c1.prs with bps := [], stage0 := 0, stage1 := 0 } }

end Sys2Proof.Machine
end

