-- ==== Sys2Proof/Machine/HostOps.lean ====
section
/-! DEFINITION. Shared operations of rings: descriptors, completions and interrupts, buffers of rings toward the host, and
enabling and disabling a ring (R539–R545, R564). -/

namespace Sys2Proof.Machine

/-- The ring exists in the partition (R538). -/
def ringExists (p r : Nat) : Bool := decide (p < 32) && (decide (r ≤ 18) || (r == 19 && p == 0))

/-- A ring toward the part: inject 8–15 and table command 17 (R538). -/
def toPart (r : Nat) : Bool := (decide (8 ≤ r) && decide (r < 16)) || r == 17

/-- Host address of the descriptor at the ring's HEAD (R539). -/
def Ring.slotAddr (x : Ring) : Nat := x.base + 32 * (x.head % 2 ^ x.log2)

/-- The ring runs: enabled and without an error. -/
def Ring.runs (x : Ring) : Bool := x.en && !x.error

/-- A DMA of the ring goes out with the identity word of its IDENT slot: requester function and PASID (R539). -/
def Chan.ringDma (ch : Chan) (p r what addr : Nat) (bytes : List Byte) : Chan :=
  ch.emit (.dma what [addr, ((ch.part p).ident (ch.ring p r).ident).toNat] bytes)

/-- A qualifying completion (R543): the armed ring sends its message and disarms; else it is remembered for the next ARM. -/
def Chan.complete (ch : Chan) (p r : Nat) : Chan :=
  let x := ch.ring p r
  if x.arm then (ch.putRing p r { x with arm := false, done := false }).emit (.irqRing p r)
  else ch.putRing p r { x with done := true }

/-- A write of IRQ.ARM = 1 (R543). -/
def Chan.irqArm (ch : Chan) (p r : Nat) : Chan :=
  let x := ch.ring p r
  if x.done then (ch.putRing p r { x with arm := false, done := false }).emit (.irqRing p r)
  else ch.putRing p r { x with arm := true }

/-- A write of DOORBELL (R540, R541): TAIL is recorded; a ring toward the part stops where TAIL leaves it more than its size. -/
def Chan.doorbell (ch : Chan) (p r tail : Nat) : Chan :=
  let x := ch.ring p r
  let c1 := ch.putRing p r { x with tail := tail % 65536 }
  if x.runs && toPart r && decide (2 ^ x.log2 < (tail % 65536 + 65536 - x.head) % 65536) then c1.ringError p r 1 else c1

/-- Bytes of a buffer descriptor as written back (R545). -/
def OpenBuf.writeBack (b : OpenBuf) (lost : Bool) : List Byte :=
  leBytes 8 b.addr ++ leBytes 4 b.len ++ leBytes 4 0 ++ leBytes 8 b.time ++ leBytes 4 b.used ++ leBytes 2 b.records
    ++ leBytes 1 (128 + b2n lost * 2 + b2n b.trunc) ++ leBytes 1 0

/-- Write back a buffer with DONE = 1 and advance HEAD past it (R542); a write that fails stops the ring with WRITE_DMA. -/
def Chan.writeBackBuf (ch : Chan) (p r : Nat) (b : OpenBuf) (dmaErr : Bool) : Chan :=
  let x := ch.ring p r
  if dmaErr then ((ch.putRing p r { x with buf := none }).ringDrop p r b.records).ringError p r 3 (some x.slotAddr)
  else
    let c1 := (ch.putRing p r { x with buf := none, lost := false, head := (x.head + 1) % 65536 }).ringDma p r 1 x.slotAddr
      (b.writeBack x.lost)
    c1.complete p r

/-- The ring's open buffer is closed, if one is open. -/
def Chan.closeBuf (ch : Chan) (p r : Nat) (dmaErr : Bool) : Chan :=
  match (ch.ring p r).buf with
  | some b => ch.writeBackBuf p r b dmaErr
  | none => ch

/-- Round up to a multiple of 8. -/
def up8 (n : Nat) : Nat := (n + 7) / 8 * 8

/-- A record cut to the buffer (R542): a punt record keeps its first BUF_LEN − 32 packet bytes and its CAP_LEN follows. -/
def truncRec (bytes : List Byte) (len : Nat) : List Byte :=
  bytes.take 10 ++ leBytes 2 ((len - 32) / 8 * 8 + leAt bytes 10 2 / 2 ^ 14 * 2 ^ 14) ++ (bytes.take len).drop 12

/-- How the placing of a record ended: placed, to be tried again with the next descriptor, no posted buffer, or the ring stopped. -/
inductive Post where
  | placed | retry | noBuf | failed
deriving DecidableEq, Repr

/-- Place a record in the open buffer `b`, which has room for it (R542). A ring that is stopped closes the buffer at once. -/
def Chan.placeRec (ch : Chan) (p r time : Nat) (bytes : List Byte) (b : OpenBuf) (cut dmaErr : Bool) : Chan × Post :=
  let x := ch.ring p r
  if dmaErr then
    (((ch.putRing p r { x with buf := none }).ringDrop p r b.records).ringError p r 3 (some (b.addr + up8 b.used)), .failed)
  else
    let y : OpenBuf := { b with
      used := up8 b.used + bytes.length, records := b.records + 1, time := if b.records = 0 then time else b.time
      trunc := b.trunc || cut, since := if b.records = 0 then ch.ns else b.since }
    let c1 := (ch.putRing p r { x with buf := some y }).ringDma p r 0 (b.addr + up8 b.used) bytes
    (if x.stopped then c1.closeBuf p r false else c1, .placed)

/-- The part reads the next buffer descriptor and places the record in it (R542, R545). -/
def Chan.openRec (ch : Chan) (p r time : Nat) (bytes desc : List Byte) (descErr dmaErr : Bool) : Chan × Post :=
  let x := ch.ring p r
  if x.head = x.tail then (ch, .noBuf)
  else if descErr then (ch.ringError p r 2 (some x.slotAddr), .failed)
  else
    let b : OpenBuf := { addr := leAt desc 0 8, len := leAt desc 8 4 }
    if ¬ (256 ≤ b.len ∧ b.len ≤ 65536 ∧ b.len % 64 = 0) then ((ch.writeBackBuf p r b dmaErr).ringDrop p r 1, if dmaErr then .failed else .retry)
    else if b.len < bytes.length then ch.placeRec p r time (truncRec bytes b.len) b true dmaErr
    else ch.placeRec p r time bytes b false dmaErr

/-- A record goes to a ring toward the host (R542): into the open buffer if it fits, else that buffer closes and the next one opens. -/
def Chan.postRec (ch : Chan) (p r time : Nat) (bytes desc : List Byte) (descErr dmaErr : Bool) : Chan × Post :=
  match (ch.ring p r).buf with
  | some b =>
    if up8 b.used + bytes.length ≤ b.len then ch.placeRec p r time bytes b false dmaErr
    else
      let c1 := ch.closeBuf p r dmaErr
      if dmaErr then (c1, .failed) else c1.openRec p r time bytes desc descErr dmaErr
  | none => ch.openRec p r time bytes desc descErr dmaErr

/-- A record that its ring cannot take is dropped and counted (R392, R542). -/
def Chan.recDrop (ch : Chan) (p r : Nat) (bytes : List Byte) : Chan :=
  let c1 := ch.ringDrop p r 1
  if r = 16 then c1.learnDrop bytes else c1

/-- Count a posted record in its partition (R559). -/
def Chan.recCount (ch : Chan) (p r : Nat) : Chan :=
  let x := ch.part p
  if r < 8 then ch.putPart p { x with punt := (x.punt + 1) % 2 ^ 64 }
  else if r = 16 then ch.putPart p { x with learn := (x.learn + 1) % 2 ^ 64 }
  else if r = 18 then ch.putPart p { x with notify := (x.notify + 1) % 2 ^ 64 }
  else ch

/-- A write of RING_CFG.EN = 0 stops the ring (R564): a ring toward the host first writes back its open buffer. -/
def Chan.disableRing (ch : Chan) (p r : Nat) : Chan :=
  let c1 := if (ch.ring p r).error then ch else ch.closeBuf p r false
  let x := c1.ring p r
  c1.putRing p r { x with cfg := setFld x.cfg 31 31 0, buf := none }

/-- Every ring of the partition is disabled. -/
def Chan.disableRings (ch : Chan) (p : Nat) : Chan :=
  ch.each (allBelow 32 (fun r => (ch.ring p r).en)) (fun c r => c.disableRing p r)

/-- The value of RING_AUX that an enabled ring needs: PACK_US of a ring toward the host (R559, R564). -/
def auxLegal (r aux : Nat) : Bool := toPart r || (decide (1 ≤ aux % 2 ^ 14) && decide (aux % 2 ^ 14 ≤ 10000))

end Sys2Proof.Machine
end

