-- ==== Sys2Proof/Machine/KeepOps.lean ====
section
/-! DEFINITION. The keeper cycle (R82–R85): its boundary, the watchdog (R92), the state copy (R98–R100), resync (R102), claims and
takeover (R91, R94, R104), and the active keeper's work of a cycle. -/

namespace Sys2Proof.Machine

/-- Change a keeper's working state. -/
def Chan.onKeep (ch : Chan) (k : Nat) (f : Keeper → Keeper) : Chan := ch.putKeeper k (f (ch.keeper k))

/-- The standby level in force (R116). -/
def Chan.stbyLevel (ch : Chan) : Nat := ch.levels % 256

/-- The active level in force (R116). -/
def Chan.activeLevel (ch : Chan) : Nat := ch.levels / 256 % 256

/-- A flag of KEEP.STATUS. -/
def Chan.kflag (ch : Chan) (k : Nat) (f : Fld) : Bool := ch.getB (pgKeep k) f

/-- The Saucer link is trained (R114). -/
def Chan.saucerUp (ch : Chan) : Bool := ch.kflag 0 KEEP.STATUS_SAUCER_UP

/-- The clock runs on to the next boundary (R82, R84). -/
def Chan.toBoundary (ch : Chan) : Chan :=
  let per := 250000
  let now := if ch.timeState = 0 then ch.ns else ch.timeNs
  let b := max (ceilDiv ch.bnd per) (now / per) * per
  let c1 := if ch.timeState = 0 then ch.runTo b else ch.runNet b
  { c1 with bnd := b + 1, cycAt := c1.ns, cycNo := c1.cycNo + 1 }

/-- The index of the cycle that begins now (R83). -/
def Chan.cycleIndex (ch : Chan) : Nat :=
  let t := if ch.timeState = 0 then ch.ns else ch.timeNs
  (t / 1000000000 * 4000 + t % 1000000000 / 250000) % 2 ^ 32

/-- The journal of keeper `k` enters a cycle: its limit starts afresh, and an OVERRUN entry reports what the last cycle dropped
(R125). -/
def Chan.jrnlCycle (ch : Chan) (k : Nat) : Chan :=
  let j := (ch.region k).jrnl
  let c1 := ch.putJrnl k { j with cyc := 0, cycDrop := 0 }
  if j.cycDrop = 0 then c1 else c1.jrnlPut k (jrnlEntry ch.t64 ch.quality pgJrnl.source clsContained 3 (j.cycDrop % 2 ^ 32))

/-- Keeper `k` may miss boundaries: its watchdog is armed (R92, R93). -/
def Chan.watched (ch : Chan) (k : Nat) : Bool :=
  let st := if ch.kstate k = 7 then (ch.keeper k).haltFrom else ch.kstate k
  st == 3 || st == 4

/-- The watchdog of keeper `k` judges the cycle `idx` that ends, in which the keeper wrote its heartbeat if `beat` (R92, R93). -/
def Chan.watchdog (ch : Chan) (k idx : Nat) (beat : Bool) : Chan :=
  let p := pgKeep k
  let c1 := if beat && (ch.keeper k).ran then ch.putN p KEEP.HEARTBEAT idx else ch
  let held := decide (ch.kstate k = 7) && ch.getB p KEEP.WDOG_DEBUG_HOLD && decide (ch.claim k ≤ ch.stbyLevel)
  if ch.watched k = false then c1.putF p KEEP.WDOG_MISSES 0
  else if c1.nat p KEEP.HEARTBEAT = idx then c1.putF p KEEP.WDOG_MISSES 0
  else if held then c1
  else
    let m := min (ch.getF p KEEP.WDOG_MISSES + 1) 4
    ((c1.putF p KEEP.WDOG_MISSES m).raise p 10).journal p clsCorrected 3 (k + m * 2 ^ 8)

/-- Keeper `o` has received a full image and the delta that followed it: STANDBY (R102). -/
def Chan.resyncDone (ch : Chan) (o : Nat) (r : Region) (fmt : Nat) : Chan :=
  let p := pgKeep o
  let c1 := (ch.putRegion o r).onKeep o (fun x =>
    { x with resync := false, chunks := 0, waiting := false, absent := 0, regionFmt := fmt })
  let c2 := (c1.putF p KEEP.STATUS_REGION_VALID 1).putF p KEEP.STATUS_RESYNC_DONE 1
  if ch.kstate o = 2 then ((c2.setKstate o 3).putF p KEEP.WDOG_MISSES 0).raiseClaim o ch.stbyLevel else c2

/-- The partner `o` of the active keeper `k` at a boundary: it commits a complete copy (R98), or goes on with its resync (R102). A standby
that started without a resync and did not win takes one. A format outside the receiver's range ends it in FAILED, and FW_STAT.RESULT reads
STATE_FMT (R107, R118). -/
def Chan.commit (ch : Chan) (k o : Nat) : Chan :=
  let x := ch.keeper o
  let m := ch.keeper k
  let copy := if ch.inflightTo = o then ch.inflight else none
  let c0 := { ch with inflight := none }
  let ok := decide (x.img.minFmt ≤ m.img.fmt) && decide (m.img.fmt ≤ x.img.fmt)
  if ch.kstate o ≠ 2 ∧ ch.kstate o ≠ 3 then c0
  else if ch.kstate o = 3 ∧ x.resync = false ∧ ch.kflag o KEEP.STATUS_RESYNC_DONE = true then
    match copy with
    | some r => ({ c0 with copyCyc := c0.cpCyc }.putRegion o r).onKeep o (fun x => { x with regionFmt := m.img.fmt })
    | none => c0
  else if ch.saucerUp = false then c0
  else if x.resync = false then
    if ok then
      ((c0.onKeep o (fun x => { x with resync := true, chunks := 0, solo := false })).putF (pgKeep o) KEEP.STATUS_REGION_VALID 0).putF
        (pgKeep o) KEEP.STATUS_RESYNC_DONE 0
    else (c0.putF (pgKeep o) KEEP.FW_STAT_RESULT 8).enterFailed o 8
  else
    let n := min (x.chunks + 1) 3
    match copy with
    | some r =>
      if 3 ≤ n then { c0 with copyCyc := c0.cpCyc }.resyncDone o r m.img.fmt else c0.onKeep o (fun x => { x with chunks := n })
    | none => c0.onKeep o (fun x => { x with chunks := n })

/-- What standing copies do at a boundary: without an active keeper a resync stops, and starts again from its first chunk; a complete
copy is committed all the same (R97, R98, R110). -/
def Chan.commitAll (ch : Chan) : Chan :=
  match ch.active with
  | some k => ch.commit k (1 - k)
  | none =>
    let o := ch.inflightTo
    let c1 := match ch.inflight with
      | some r =>
        if ch.kstate o = 3 ∧ (ch.keeper o).resync = false then { ch with copyCyc := ch.cpCyc }.putRegion o r else ch
      | none => ch
    (({ c1 with inflight := none }).onKeep 0 (fun x => { x with resync := false, chunks := 0 })).onKeep 1
      (fun x => { x with resync := false, chunks := 0 })

/-- New claim levels take effect (R116). -/
def Chan.moveLevels (ch : Chan) : Chan :=
  let new := ch.nat pgKeepA KEEP.CLAIM_LEVEL % 65536
  let lift := fun (v : Nat) => if v = 0 then 0 else if v = ch.activeLevel then new / 256 else new % 256
  if new = ch.levels then ch
  else
    { ch with levels := new }.withGate (fun c =>
      (c.putF pgKeepA KEEP.CLAIM_CLAIM (lift (ch.claim 0))).putF pgKeepB KEEP.CLAIM_CLAIM (lift (ch.claim 1)))

/-- The reason of a TAKEOVER entry: the keeper's own lowering of its claim has no code in the list of R124, and its byte is a free
value (log 6). -/
def Chan.takeReason (ch : Chan) : Nat := if 256 < ch.lostReason then ch.freeVal 8 else ch.lostReason - 1

/-- The registers that the active keeper owns and whose values are its state (R94): COSY.TE_BOUND, LEARN_SEC, FREQ_ADJ, SLEW_RATE and
DISP.ENG_MASK_KEEP. The other KW registers carry commands and their operands, show the journal, or repeat what the host writes. -/
def kwState : List (Pg × Nat) :=
  [(pgCosy, COSY.TE_BOUND), (pgCosy, COSY.LEARN_SEC), (pgCosy, COSY.FREQ_ADJ), (pgCosy, COSY.FREQ_ADJ + 4), (pgCosy, COSY.SLEW_RATE)]
    ++ (List.range 8).map (fun i => (pgDisp, DISP.ENG_MASK_KEEP i))

/-- The state that the active keeper `k` copies: its region, with the KW registers it owns (R94, R98). -/
def Chan.copied (ch : Chan) (k : Nat) : Region := { ch.region k with kw := kwState.map (fun e => ch.get e.1 e.2) }

/-- The new active keeper rewrites each KW register that differs from its state (R94). -/
def Chan.reconcile (ch : Chan) (k : Nat) : Chan :=
  let c1 := ch.each (kwState.zip (ch.region k).kw) (fun c e => if c.get e.1.1 e.1.2 = e.2 then c else c.put e.1.1 e.1.2 e.2)
  if (List.range 8).all (fun i => c1.get pgDisp (DISP.ENG_MASK_KEEP i) == ch.get pgDisp (DISP.ENG_MASK_KEEP i)) then c1
  else c1.each (List.range 256) Chan.engSettle

/-- Age of the state used at a takeover, in cycles: from the cycle of the copy to the cycle in which the active keeper failed (R96, R98,
R124). -/
def Chan.stateAge (ch : Chan) : Nat := min ((if ch.lostReason = 0 then ch.cycNo else ch.failCyc) - ch.copyCyc) 255

/-- Keeper `k` becomes active (R94, R104, R621): a takeover, or a start without a resync. -/
def Chan.becomeActive (ch : Chan) (k : Nat) : Chan :=
  let p := pgKeep k
  let x := ch.keeper k
  let valid := ch.kflag k KEEP.STATUS_REGION_VALID
  let age := ch.stateAge
  let reason := ch.takeReason
  let c1 := ((ch.raiseClaim k ch.activeLevel).setKstate k 4).putF p KEEP.STATUS_REGION_VALID 1
  let c2 := ((c1.inc p KEEP.TAKEOVER_CNT).putF p KEEP.WDOG_MISSES 0).raise p 8
  let c3 := c2.onKeep k (fun y => { y with solo := false, waiting := false, absent := 0, regionFmt := x.img.fmt })
  let c4 := { c3 with started := true, lostReason := 0, copyBad := 0, lastAct := k }
  let c5 := if x.solo ∧ valid = false then c4.putRegion k {} else if x.solo then c4.jrnlCycle k else (c4.jrnlCycle k).reconcile k
  let c6 := if x.solo then
      if valid then c5 else c5.jrnlPut k (jrnlEntry c5.t64 c5.quality pgJrnl.source clsNone 5 x.img.ver)
    else
      (if 256 < ch.lostReason then c5.takeFree else c5).jrnlPut k (jrnlEntry c5.t64 c5.quality p.source clsDegraded 1
        (reason + k * 2 ^ 8 + age * 2 ^ 16 + c5.nat p KEEP.CYCLE_IDX * 2 ^ 32))
  let c7 := c6.syncJrnl (c6.region k).jrnl
  ({ c7 with jrnlWait := [] }).each ch.jrnlWait (fun c e => c.jrnlPut k e)

/-- Keeper `k` raises its claim to the active level at this boundary (R91, R94, R104). -/
def Chan.mayRaise (ch : Chan) (k : Nat) : Bool :=
  ch.kstate k == 3 && ch.claim k == ch.stbyLevel && ch.claim k != 0
    && (decide (ch.claim (1 - k) < ch.claim k) || (ch.claim (1 - k) == ch.claim k && k == 0))

/-- Takeover or start at a boundary. -/
def Chan.raiseClaims (ch : Chan) : Chan :=
  if ch.mayRaise 0 then ch.becomeActive 0 else if ch.mayRaise 1 then ch.becomeActive 1 else ch

/-- Boundaries for which a waiting keeper has seen its partner at claim 0x00 (R104), the cycles since BOOT (R112), and whether the firmware
runs as the cycle begins. -/
def Chan.countAbsent (ch : Chan) (k : Nat) : Chan :=
  ch.onKeep k (fun x => { x with
    absent := if x.waiting && ch.kstate k == 2 && ch.claim (1 - k) == 0 then min (x.absent + 1) 400 else 0
    cycles := if ch.kstate k ≤ 1 then x.cycles else x.cycles + 1
    ran := ch.fwRuns k })

/-- The Saucer link at a boundary (R100): from the second boundary that finds it down, a standby keeper drops its claim and enters REPAIR. -/
def Chan.saucerRule (ch : Chan) : Chan :=
  if ch.saucerUp then { ch with saucerDown := 0 }
  else
    let c1 := { ch with saucerDown := min (ch.saucerDown + 1) 2 }
    match ch.active with
    | some k =>
      let o := 1 - k
      let c2 := if 1 ≤ ch.saucerDown ∧ ch.kstate o = 3 then
          ((c1.dropClaim o false 5).enterRepair o).setDegraded (pgKeep o) true
        else c1
      if ch.saucerDown = 1 then c2.journal (pgKeep k) clsDegraded 9 else c2
    | none => c1

/-- The active keeper arms an action through KARM (R173, R175). -/
def Chan.keeperArm (ch : Chan) (target arg time : Nat) : Chan :=
  let c1 := (ch.put64 pgAct (ACT.HARM_TIME + 0x20) (t64Of time)).put64 pgAct (ACT.HARM_ARG + 0x20) arg
  c1.arm true 0x20 (BitVec.ofNat 32 (2 ^ 31 + 2 ^ 27 + 2 ^ 26 + target * 2 ^ 16))

/-- The active keeper arms the PM_BIN action of the next 15-minute boundary (R254). -/
def Chan.armPmBin (ch : Chan) : Chan :=
  let sec := (ch.timeNs / 1000000000 / 900 + 1) * 900
  let off := ch.getF pgPm PM.CFG_DAY_OFFSET
  let day := decide ((sec + 86400 - off % 86400) % 86400 = 0)
  let held := ch.act.slots.any (fun e => e.2.st == 1 && e.2.keeper && e.2.target == 7 && e.2.time == sec * 1000000000)
  if held || !(ch.getB pgPm PM.CFG_EN) || !(ch.enabled pgAct) then ch
  else ch.keeperArm 7 (1 + 2 * b2n day) (sec * 1000000000)

/-- The Follow_Up messages of the Sync messages that a port has sent (R143). -/
def Chan.followUps (ch : Chan) (p : Nat) : Chan :=
  let w := ch.pw p
  (ch.putPw p { w with txSync := [] }).each w.txSync (fun c e => c.sendControl p { bytes := followUp e.1 e.2 })

/-- A message of the keeper leaves by a port: PTP on an enabled PTP port (R141), ESMC on a line port (R146); a control frame has at most 128 bytes
(R224). Any other bytes are no message of the keeper. -/
def Chan.keeperSends (ch : Chan) (p : Nat) (bs : List Byte) : Chan :=
  let ptp := (ptpOffset bs).isSome && ch.ptpPortOk p && nbit (tget ({} : PtpPort) ch.ctlNow.ports p).cfg 8
  let esmc := decide (beAt bs 12 2 = 0x8809) && decide (p < 64) && decide (ch.portKind p = 1) && !(ch.portB p LINE.PORT_CFG_FLEXE)
  if (ptp || esmc) && decide (bs.length + 4 ≤ 128) then ch.sendControl p { bytes := bs } else ch

/-- The active keeper's work of the cycle: PTP messages (R142, R224), poisoned words (R283, R359), the retrain under way (R514) and
the PM bins (R254). -/
def Chan.cycleWork (ch : Chan) (ptp : List (Nat × List Byte)) : Chan :=
  let c0 := { ch with ptpRxq := [] }.each (ch.ports.map Prod.fst) Chan.followUps
  let c1 := c0.each ptp (fun c e => c.keeperSends e.1 e.2)
  let c2 := c1.journalSeconds.repairPoison.cfgRepairAll.hbmCycle
  let c3 := match c2.hbmArm with
    | some a =>
      (c2.keeperArm 8 a (c2.timeNs + 1000)).onHbm (fun w => { w with run := w.run.map (fun (r : HbmRun) => { r with phase := 1 }) })
    | none => c2
  c3.armPmBin

/-- A keeper cycle boundary (R85). -/
def Chan.boundary (i : CycleIn) (ch : Chan) : Chan :=
  let c0 := ch.toBoundary
  let idx := c0.cycIdx
  let c1 := match c0.active with
    | some k => c0.jrnlCycle k
    | none => c0
  let c2 := (c1.watchdog 0 idx i.beatA).watchdog 1 idx i.beatB
  let c3 := c2.commitAll.moveLevels
  let c4 := ({ c3 with cycIdx := c3.cycleIndex }.putN pgKeepA KEEP.CYCLE_IDX c3.cycleIndex).putN pgKeepB KEEP.CYCLE_IDX c3.cycleIndex
  let c5 := ((c4.raiseClaims.countAbsent 0).countAbsent 1).saucerRule
  if c5.active.isSome then c5.cycleWork i.ptp else c5

end Sys2Proof.Machine
end

