-- ==== Sys2Proof/Machine/Keeper.lean ====
section
/-! DEFINITION. The commands of the keepers and the journal (R79–R129): failures, the cycle, claims, firmware loads, keeper service
commands, halting, and journal control. -/

namespace Sys2Proof.Machine

/-! Failures (R80, R92). -/

/-- The keeper's cores run: BOOT, RESYNC, STANDBY, ACTIVE or REPAIR. -/
def Chan.coresRun (ch : Chan) (k : Nat) : Bool := decide (1 ≤ ch.kstate k) && decide (ch.kstate k ≤ 5)

/-- LOCKSTEP_MISMATCH (R80). -/
def execLockstepMismatch (c : Fin 4) (k : Fin 2) (s : State) : Host.Outcome State Fault Refusal :=
  .next (s.onKeeper c (fun ch =>
    if ch.coresRun k.val then
      ((ch.dropClaim k.val true 1).enterRepair k.val).journal (pgKeep k.val) clsDegraded 2 (k.val + 2 ^ 8)
    else ch))

/-- SELF_DIAG_FAIL (R92). -/
def execSelfDiagFail (c : Fin 4) (k : Fin 2) (s : State) : Host.Outcome State Fault Refusal :=
  .next (s.onKeeper c (fun ch => if ch.fwRuns k.val then (ch.dropClaim k.val false 0).enterRepair k.val else ch))

/-- An uncorrectable error in the SRAM of keeper `k` (R92): the claim drops and the keeper enters REPAIR; a halted one does so at its resume
(R93). A keeper in OFF or FAILED holds no claim and stays there. -/
def Chan.sramUe (ch : Chan) (k : Nat) : Chan :=
  if ch.coresRun k then (ch.dropClaim k false 6).enterRepair k
  else if ch.kstate k = 7 then (ch.dropClaim k false 6).onKeep k (fun x => { x with ue := true })
  else ch

/-- KEEPER_SRAM_UE (R92, R621): an uncorrectable error in the SRAM of a keeper; one in its replicated region, where `replicated`, clears
REGION_VALID in every state. -/
def execKeeperSramUe (c : Fin 4) (k : Fin 2) (replicated : Bool) (s : State) : Host.Outcome State Fault Refusal :=
  .next (s.onKeeper c (fun ch =>
    let c1 := ch.sramUe k.val
    if replicated then c1.putF (pgKeep k.val) KEEP.STATUS_REGION_VALID 0 else c1))

/-! The cycle (R82–R85, R98). -/

/-- KEEPER_CYCLE_BOUNDARY (R85). -/
def execKeeperCycleBoundary (c : Fin 4) (i : CycleIn) (s : State) : Host.Outcome State Fault Refusal :=
  .next (s.onKeeper c (Chan.boundary i))

/-- WDOG_FORCE_CLAIM (R92): 1 µs after the fourth missed boundary. -/
def execWdogForceClaim (c : Fin 4) (k : Fin 2) (s : State) : Host.Outcome State Fault Refusal :=
  .next (s.onKeeper c (fun ch =>
    if ch.getF (pgKeep k.val) KEEP.WDOG_MISSES = 4 ∧ ch.watched k.val = true ∧ ch.claim k.val ≠ 0 then
      let c1 := (ch.runTo (ch.cycAt + 1000)).dropClaim k.val true 2
      let c2 := if ch.kstate k.val = 7 then c1 else (c1.enterRepair k.val).putF (pgKeep k.val) KEEP.WDOG_MISSES 0
      c2.journal (pgKeep k.val) clsDegraded 2 (k.val + 2 * 2 ^ 8)
    else ch))

/-- One of the two Saucer lanes of a direction works (R581). -/
def Chan.saucerNarrow (ch : Chan) : Bool := ch.nat (pgBrdg 0) BRDG.SAUCER % 16 != 15

/-- The time one transfer of a delta takes: the bound of R96 (log 46). -/
def copyNs : Nat := 34000

/-- COPY_POINT (R98, R99): the delta of keeper `k`'s cycle; `tooBig` when it would exceed 256 KiB, `bad` transfers of it that fail their
CRC. The transfer is in flight until `inflightEnd` (R97). -/
def Chan.copyPoint (ch : Chan) (tooBig : Bool) (bad : Nat) : Chan :=
  match ch.active with
  | none => ch
  | some k =>
    let o := 1 - k
    let c1 := { ch.runTo (ch.cycAt + 170000) with cpCyc := ch.cycNo }
    let x := ch.keeper o
    if ch.saucerUp = false ∨ ¬ (ch.kstate o = 3 ∨ (ch.kstate o = 2 ∧ x.resync = true)) then c1
    else if tooBig then
      if ch.kstate o = 3 ∧ x.resync = false then
        ((c1.onKeep o (fun x => { x with resync := true, chunks := 0 })).putF (pgKeep o) KEEP.STATUS_RESYNC_DONE 0).putF (pgKeep o)
          KEEP.STATUS_REGION_VALID 0
      else c1
    else if 2 ≤ bad ∨ (bad = 1 ∧ ch.saucerNarrow = true) then c1.copyFail k o
    else { c1 with inflight := some (c1.copied k), inflightTo := o, copyBad := 0, inflightEnd := c1.ns + copyNs * (1 + bad) }

/-- COPY_POINT (R98). -/
def execCopyPoint (c : Fin 4) (tooBig : Bool) (bad : Nat) (s : State) : Host.Outcome State Fault Refusal :=
  .next (s.onKeeper c (fun ch => ch.copyPoint tooBig bad))

/-! Claims (R86, R91). -/

/-- A keeper writes its claim (R86, R91). A raise to the active level happens at a boundary alone, which makes it by itself. -/
def Chan.claimWrite (ch : Chan) (k v : Nat) : Chan :=
  let own := ch.claim k
  if ch.fwRuns k = false ∨ ¬ (v = 0 ∨ v = ch.stbyLevel ∨ v = ch.activeLevel) then ch
  else if v < own then
    let c1 := ch.setClaim k v
    if ch.kstate k = 4 then { ((c1.svcLost k).setKstate k 3).cutCopy with lostReason := 257, failCyc := ch.cycNo } else c1
  else if own = 0 ∧ v = ch.stbyLevel ∧ ch.kstate k = 3 ∧ (ch.kflag k KEEP.STATUS_RESYNC_DONE = true ∨ (ch.keeper k).solo = true) then
    ch.raiseClaim k v
  else ch

/-- CLAIM_WRITE (R91). -/
def execClaimWrite (c : Fin 4) (k : Fin 2) (v : Nat) (s : State) : Host.Outcome State Fault Refusal :=
  .next (s.onKeeper c (fun ch => ch.claimWrite k.val v))

/-! Repair and start (R101–R104). -/

/-- REPAIR_CHECK_DONE (R101): `res` is 0 where the code region passes, else the RESULT of the check that fails. -/
def execRepairCheckDone (c : Fin 4) (k : Fin 2) (res : Nat) (s : State) : Host.Outcome State Fault Refusal :=
  .next (s.onKeeper c (fun ch =>
    if ch.kstate k.val ≠ 5 then ch
    else if res = 0 ∧ (ch.keeper k.val).verified = true then
      ((ch.setKstate k.val 2).onKeep k.val (fun x => { x with waiting := true, absent := 0 })).journal (pgKeep k.val)
        clsCorrected 6 k.val
    else ch.enterFailed k.val (if res = 0 then 3 else res % 256)))

/-- The keeper starts without a resync (R104, R621): at the standby level, to raise its claim at the next boundary. -/
def Chan.startSolo (ch : Chan) (k : Nat) : Chan :=
  let x := ch.keeper k
  let fmtOk := decide (x.img.minFmt ≤ x.regionFmt) && decide (x.regionFmt ≤ x.img.fmt)
  let c1 := if fmtOk then ch else ch.putF (pgKeep k) KEEP.STATUS_REGION_VALID 0
  ((c1.onKeep k (fun x => { x with solo := true, waiting := false, absent := 0 })).setKstate k 3).raiseClaim k ch.stbyLevel

/-- PARTNER_ABSENT_TIMEOUT (R104). -/
def execPartnerAbsentTimeout (c : Fin 4) (k : Fin 2) (s : State) : Host.Outcome State Fault Refusal :=
  .next (s.onKeeper c (fun ch =>
    let x := ch.keeper k.val
    if ch.kstate k.val = 2 ∧ x.waiting = true ∧ 400 ≤ x.absent then ch.startSolo k.val else ch))

/-- KEEPER_BOOT_DONE (R104). -/
def execKeeperBootDone (c : Fin 4) (k : Fin 2) (s : State) : Host.Outcome State Fault Refusal :=
  .next (s.onKeeper c (fun ch =>
    let x := ch.keeper k.val
    if ch.kstate k.val = 1 ∧ x.verified = true ∧ ch.getB (pgKeep k.val) KEEP.FW_STAT_BUSY = false then
      let c1 := (ch.putN (pgKeep k.val) KEEP.FW_VER x.img.ver).onKeep k.val (fun x => { x with cycles := 0, absent := 0 })
      if ch.pref = k.val ∧ ch.started = false then
        (c1.putF (pgKeep k.val) KEEP.STATUS_REGION_VALID 0).startSolo k.val
      else (c1.setKstate k.val 2).onKeep k.val (fun x => { x with waiting := true })
    else ch))

/-! Firmware loads (R106–R108). -/

/-- A LOAD ends with a result (R118). -/
def Chan.loadDone (ch : Chan) (k result : Nat) : Chan :=
  (ch.putN (pgKeep k) KEEP.FW_STAT (2 ^ 30 + result)).raise (pgKeep k) 14

/-- An accepted LOAD starts (R108). -/
def Chan.loadStart (ch : Chan) (k : Nat) : Chan :=
  let p := pgKeep k
  let c1 := ((ch.setClaim k 0).svcLost k).setKstate k 1
  let c2 := (c1.putF p KEEP.STATUS_RESYNC_DONE 0).onKeep k (fun x => { x with
    verified := false
    repairs := if ch.kstate k = 6 then [] else x.repairs
    waiting := false, solo := false, absent := 0, resync := false, chunks := 0, handover := false })
  ((c2.putF p KEEP.FW_STAT_BUSY 1).putF p KEEP.FW_STAT_DONE 0).putF p STAT_DEGRADED 0

/-- A write of KEEP.FW_CTRL on the page of keeper `k` (R108). A keeper whose SRAM failed BIST stays OFF (R572). -/
def fwCtrlHook (k : Nat) : Hook := fun w ch =>
  let c1 := ch.put w.p w.off w.merged
  if bit w.v 0 = false ∨ (ch.keeper k).sramBad = true then c1
  else if ch.kstate k = 4 then c1.loadDone k 7
  else if ch.kstate k = 7 then c1.loadDone k 9
  else if ch.kstate k ≤ 1 ∧ ch.getB (pgKeep k) KEEP.FW_STAT_BUSY = true then c1
  else c1.loadStart k

/-- FW_LOAD (R108). -/
def execFwLoad (r : Req) (c : Fin 4) (k : Fin 2) (s : State) : Host.Outcome State Fault Refusal :=
  .next (s.chanWrite (fwCtrlHook k.val) true r c (pgKeep k.val) KEEP.FW_CTRL 1)

/-- The header check of R107. -/
def fwHeaderOk (b : List Byte) (len : Nat) : Bool :=
  let n := leAt b 0x14 4
  decide (0x100 ≤ len) && decide (len ≤ 0x100100) && leAt b 0 4 == 0x4B454550 && leAt b 4 2 == 1
    && decide (leAt b 6 2 < 4) && leAt b 0xD 1 == 0 && leAt b 0x12 2 == 0
    && (sliceBytes b 0x1C 36).all (fun x => x == 0) && (sliceBytes b 0x70 16).all (fun x => x == 0)
    && (sliceBytes b 0xE0 32).all (fun x => x == 0)
    && n != 0 && n % 64 == 0 && decide (n ≤ 0x100000) && decide (leAt b 0x18 4 < n) && decide (0x100 + n ≤ len)

/-- The code bytes of an image (R106). -/
def fwCode (b : List Byte) : List Byte := sliceBytes b 0x100 (leAt b 0x14 4)

/-- SHA-384 over the code equals DIGEST (R107). -/
def fwDigestOk (b : List Byte) : Bool := sha384 (fwCode b) == sliceBytes b 0x40 48

/-- The RESULT of a load (R107): the bytes `b` fetched, of an image of FW_LEN `len` for keeper `k`; whether the signature verifies against the
key that is not published; `dma` is 1 where the fetch of the header fails and 2 where the fetch of the code fails. -/
def fwResult (b : List Byte) (len k svnMin : Nat) (sigOk : Bool) (dma : Nat) : Nat :=
  if dma = 1 then 6
  else if fwHeaderOk b len = false then 1
  else if nbit (leAt b 6 2) k = false then 2
  else if sigOk = false then 4
  else if leAt b 0xC 1 < svnMin then 5
  else if 2 ≤ dma then 6
  else if fwDigestOk b = false then 3 else 0

/-- FW_LOAD_DONE (R107, R108): the code region takes the code as it streams. With ENABLE = 0 the keeper ends in OFF (R120). -/
def Chan.fwLoadDone (ch : Chan) (k : Nat) (b : List Byte) (sigOk : Bool) (dma : Nat) : Chan :=
  let r := fwResult b (ch.nat (pgKeep k) KEEP.FW_LEN) k ch.fusedSvn sigOk dma
  let c1 := (ch.loadDone k r).onKeep k (fun x =>
    { x with
      header := if dma = 1 then x.header else sliceBytes b 0 0x100
      code := if r = 0 ∨ r = 3 then fwCode b else if r = 6 ∧ dma ≠ 1 then b.drop 0x100 ++ x.code.drop (b.length - 0x100) else x.code })
  if r ≠ 0 then c1.enterFailed k r
  else
    let img : FwImage := { ver := leAt b 8 4, svn := leAt b 0xC 1, fmt := leAt b 0xE 2, minFmt := leAt b 0x10 2 }
    let c2 := (c1.onKeep k (fun x => { x with verified := true, img := img, repairs := [] })).journal (pgKeep k) clsNone 8
      (k + img.ver * 2 ^ 32)
    if ch.getB (pgKeep k) CTRL_ENABLE then c2 else c2.setKstate k 0

/-- A load is in progress at the keeper: it reads BOOT, or OFF where ENABLE = 0 holds it there meanwhile (R118, R120). -/
def Chan.loading (ch : Chan) (k : Nat) : Bool := decide (ch.kstate k ≤ 1) && ch.getB (pgKeep k) KEEP.FW_STAT_BUSY

/-- FW_LOAD_DONE (R107, R598): the fetch of an image, the bytes of `header` before those of `code`, and its checks end; the channel's first accepted image moves it from WAIT_FW to RUNNING. -/
def execFwLoadDone (c : Fin 4) (k : Fin 2) (header code : List Byte) (sigOk : Bool) (dma : Nat) (s : State) :
    Host.Outcome State Fault Refusal :=
  let d := if s.hostReach c then dma else max dma 1
  let s1 := s.onKeeper c (fun ch => if ch.loading k.val then ch.fwLoadDone k.val (header ++ code) sigOk d else ch)
  .next (if s.chLive c && s.chState c == 3 && (s.chan c).loading k.val && ((s1.chan c).keeper k.val).verified then
      s1.setChState c.val 4
    else s1)

/-! Service commands of the keeper itself (R112). -/

/-- GET_INFO (R112). -/
def Chan.svcGetInfo (ch : Chan) (k tag : Nat) : Chan :=
  let x := ch.keeper k
  ch.svcRun k tag true false false false false (fun c1 => c1.svcOk k tag [x.img.ver, x.img.fmt * 2 ^ 16 + x.img.svn, x.cycles])

/-- GET_INFO: the host's command. -/
def execGetInfo (r : Req) (c : Fin 4) (k : Fin 2) (tag : Nat) (s : State) :
    Host.Outcome State Fault Refusal :=
  .next (s.service r c k tag 1 (fun ch => ch.svcGetInfo k.val tag))

/-- HANDOVER (R110, R112). -/
def Chan.svcHandover (ch : Chan) (k tag : Nat) : Chan :=
  let ready := ch.kstate (1 - k) == 3 && ch.kflag (1 - k) KEEP.STATUS_RESYNC_DONE
  ch.svcRun k tag false false (!ready) false false (fun c1 =>
    (c1.onKeep k (fun x => { x with handover := true })).svcOk k tag [])

/-- HANDOVER: the host's command. -/
def execHandover (r : Req) (c : Fin 4) (k : Fin 2) (tag : Nat) (s : State) :
    Host.Outcome State Fault Refusal :=
  .next (s.service r c k tag 2 (fun ch => ch.svcHandover k.val tag))

/-- HANDOVER_CLAIM_DROP (R110): the copy of the cycle has been sent. -/
def execHandoverClaimDrop (c : Fin 4) (s : State) : Host.Outcome State Fault Refusal :=
  .next (s.onKeeper c (fun ch =>
    match ch.active with
    | some k =>
      if (ch.keeper k).handover ∧ ch.inflight.isSome = true then ((ch.runTo ch.inflightEnd).dropClaim k false 3).enterRepair k else ch
    | none => ch))

/-- JRNL_MARK (R112). -/
def Chan.svcJrnlMark (ch : Chan) (k tag : Nat) : Chan :=
  let a := ch.svcArg k
  ch.svcRun k tag false false false false false (fun c1 =>
    (c1.journal pgJrnl clsNone 2 (a 0 + a 1 * 2 ^ 32 + a 2 * 2 ^ 64 + a 3 * 2 ^ 96)).svcOk k tag [])

/-- JRNL_MARK: the host's command. -/
def execJrnlMark (r : Req) (c : Fin 4) (k : Fin 2) (tag : Nat) (s : State) :
    Host.Outcome State Fault Refusal :=
  .next (s.service r c k tag 3 (fun ch => ch.svcJrnlMark k.val tag))

/-- SVN_COMMIT (R107, R112). -/
def Chan.svcSvnCommit (ch : Chan) (k tag : Nat) : Chan :=
  let svn := (ch.keeper k).img.svn
  let same := ch.fwRuns (1 - k) && (ch.keeper (1 - k)).img.svn == svn
  ch.svcRun k tag false false (!same) false false (fun c1 => { c1 with fusedSvn := svn }.svcOk k tag [])

/-- SVN_COMMIT: the host's command. -/
def execSvnCommit (r : Req) (c : Fin 4) (k : Fin 2) (tag : Nat) (s : State) :
    Host.Outcome State Fault Refusal :=
  .next (s.service r c k tag 4 (fun ch => ch.svcSvnCommit k.val tag))

/-- The opcodes that a chapter defines (R112, R171, R261, R531, R411). -/
def svcKnown (op : Nat) : Bool :=
  (decide (1 ≤ op) && decide (op ≤ 4)) || (decide (0x10 ≤ op) && decide (op ≤ 0x1A)) || (decide (0x50 ≤ op) && decide (op ≤ 0x55))
    || (decide (0x60 ≤ op) && decide (op ≤ 0x66)) || op == 0x70 || op == 0x71

/-- A reserved opcode (R111, R112). -/
def Chan.svcReserved (ch : Chan) (k tag : Nat) : Chan := if ch.fwRuns k then ch.svcDone k tag 1 else ch.svcDone k tag 3

/-- SVC_BAD_OPCODE (R112): an opcode that some chapter defines is a command of its own, and nothing happens here. -/
def execSvcBadOpcode (r : Req) (c : Fin 4) (k : Fin 2) (tag op : Nat) (s : State) : Host.Outcome State Fault Refusal :=
  .next (if svcKnown (op % 256) then s else s.service r c k tag (op % 256) (fun ch => ch.svcReserved k.val tag))

/-! Halting (R93, R614). -/

/-- JTAG reaches the keepers: unlocked, with the host island out of reset. -/
def State.jtagOn (s : State) : Bool := s.isl.powered && !s.isl.dead && s.isl.getB hpPwr PWRH.JTAG_STAT_UNLOCKED

/-- KEEPER_HALT (R93, R614). -/
def execKeeperHalt (c : Fin 4) (k : Fin 2) (s : State) : Host.Outcome State Fault Refusal :=
  .next (if s.jtagOn then
      s.onKeeper c (fun ch =>
        if ch.coresRun k.val then
          let c1 := ((ch.onKeep k.val (fun x => { x with haltFrom := ch.kstate k.val })).setKstate k.val 7).svcLost k.val
          if ch.kstate k.val = 4 then c1.cutCopy else c1
        else ch)
    else s)

/-- KEEPER_RESUME (R93, R614). -/
def execKeeperResume (c : Fin 4) (k : Fin 2) (s : State) : Host.Outcome State Fault Refusal :=
  .next (if s.jtagOn then
      s.onKeeper c (fun ch =>
        if ch.kstate k.val ≠ 7 then ch
        else if ch.getB (pgKeep k.val) KEEP.CLAIM_FORCED || (ch.keeper k.val).ue then ch.enterRepair k.val
        else ch.setKstate k.val (ch.keeper k.val).haltFrom)
    else s)

/-! Journal control (R126–R128). -/

/-- Unfreeze a frozen journal, with its UNFROZEN entry (R126). -/
def Chan.jrnlUnfreeze (ch : Chan) : Chan :=
  match ch.active with
  | none => ch
  | some k =>
    let j := (ch.region k).jrnl
    if j.frozen then
      (ch.putJrnl k { j with frozen := false, frozenDrop := 0 }).jrnlPut k
        (jrnlEntry ch.t64 ch.quality pgJrnl.source clsNone 4 (j.frozenDrop % 2 ^ 32))
    else ch

/-- Empty the journal; its sequence numbers go on (R127). -/
def Chan.jrnlClear (ch : Chan) : Chan :=
  match ch.active with
  | none => ch
  | some k =>
    let j := { (ch.region k).jrnl with entries := [], count := 0, full := false, unsent := 0, streamIdx := (ch.region k).jrnl.wr }
    (ch.putJrnl k j).syncJrnl j

/-- A write of JRNL.CTRL (R127). -/
def jrnlCtrlHook : Hook := fun w ch =>
  let c1 := ch.put w.p w.off w.merged
  let c2 := if bit w.v 4 then c1.jrnlUnfreeze else c1
  if bit w.v 5 then c2.jrnlClear else c2

/-- The journal that the JRNL page of a die shows (R127, R128): the FE page the live one, or while there is no active
keeper that of the keeper that was active last; the TM page keeper B's region. -/
def Chan.jrnlShown (ch : Chan) (die : Nat) : Tab (BitVec 256) :=
  if die = 0 then (ch.region (ch.active.getD ch.lastAct)).jrnl.entries
  else if ch.kflag 1 KEEP.STATUS_REGION_VALID then ch.regB.jrnl.entries else []

/-- A write of JRNL.RD_IDX: the snapshot of an entry (R128). -/
def jrnlRdHook (die : Nat) : Hook := fun w ch =>
  let e := (tget (0 : BitVec 256) (ch.jrnlShown die) (fld w.v 13 0)).toNat
  (ch.put w.p w.off w.merged).putList w.p (JRNL.RD_DATA 0) ((List.range 8).map (fun i => e / 2 ^ (32 * i)))

/-- The JRNL page of a die. -/
def jrnlPg (die : Nat) : Pg := if die = 0 then pgJrnl else pgJrnlTm

/-- A word for JRNL.CTRL: the RW fields as they stand, with command bits. -/
def Chan.jrnlCtrlWord (ch : Chan) (cmd : Nat) : Word := BitVec.ofNat 32 (ch.nat pgJrnl JRNL.CTRL % 16 + cmd)

/-- JRNL_CLEAR (R127). -/
def execJrnlClear (r : Req) (c : Fin 4) (s : State) : Host.Outcome State Fault Refusal :=
  .next (s.chanWrite jrnlCtrlHook true r c pgJrnl JRNL.CTRL ((s.chan c).jrnlCtrlWord 32))

/-- JRNL_UNFREEZE (R126). -/
def execJrnlUnfreeze (r : Req) (c : Fin 4) (s : State) : Host.Outcome State Fault Refusal :=
  .next (s.chanWrite jrnlCtrlHook true r c pgJrnl JRNL.CTRL ((s.chan c).jrnlCtrlWord 16))

/-- JRNL_RD_IDX_WRITE (R128). -/
def execJrnlRdIdxWrite (r : Req) (c : Fin 4) (die : Fin 2) (idx : Nat) (s : State) : Host.Outcome State Fault Refusal :=
  .next (s.chanWrite (jrnlRdHook die.val) true r c (jrnlPg die.val) JRNL.RD_IDX (BitVec.ofNat 32 (idx % 16384)))

/-- SOFT_RESET of the FE die's JRNL page (R127): an empty journal with a JOURNAL_START entry. -/
def Chan.jrnlReset (ch : Chan) : Chan :=
  match ch.active with
  | none => ch
  | some k =>
    let j : Jrnl := { cyc := (ch.region k).jrnl.cyc }
    ((ch.putJrnl k j).syncJrnl j).jrnlPut k
      (jrnlEntry ch.t64 ch.quality pgJrnl.source clsNone 5 (ch.keeper k).img.ver)

/-! The Saucer link (R100, R581). -/

/-- The Saucer link comes up or goes down (R100); a copy that is still in flight is lost with it (R98). -/
def Chan.saucerSet (ch : Chan) (up : Bool) : Chan :=
  let c1 := (ch.putF pgKeepA KEEP.STATUS_SAUCER_UP (b2n up)).putF pgKeepB KEEP.STATUS_SAUCER_UP (b2n up)
  if up then c1 else c1.cutCopy

/-- A KEEP page reports DEGRADED for the Saucer link no longer; a FAILED keeper's page keeps it (R103). -/
def Chan.keepClear (ch : Chan) (k : Nat) : Chan := if ch.kstate k = 6 then ch else ch.putF (pgKeep k) STAT_DEGRADED 0

/-- SAUCER_LINK_UP (R100): the link trains with the lanes that work. -/
def execSaucerLinkUp (c : Fin 4) (s : State) : Host.Outcome State Fault Refusal :=
  .next (s.onKeeper c (fun ch =>
    if ch.saucerUp then ch
    else
      let lanes := ch.nat (pgBrdg 0) BRDG.SAUCER
      let c1 := if lanes = 0 then (ch.putN (pgBrdg 0) BRDG.SAUCER 15).putN (pgBrdg 1) BRDG.SAUCER 15 else ch
      let c2 := ((({ c1 with saucerDown := 0 }).saucerSet true).keepClear 0).keepClear 1
      c2.journal (pgKeep (ch.active.getD 0)) clsCorrected 0xA))

end Sys2Proof.Machine
end

