-- ==== Sys2Proof/Machine/Host.lean ====
section
/-! DEFINITION. The host port: doorbells, descriptors, records, partitions and the quiesce sequencer (R538–R564), and the journal
stream (R129). -/

namespace Sys2Proof.Machine

/-! Doorbells (R540, R541, R543). -/

/-- A write by function `f` to a ring's block of a doorbell page (R540): the function must be a member of the partition. Pages of
channels that the variant lacks, and reserved rings, are unimplemented. -/
def State.doorbellWrite (s : State) (f : Nat) (c : Fin 4) (p r : Nat) (eff : Chan → Chan) : State :=
  if s.reachFn f = false ∨ s.isl.perst then s
  else if s.hasChan c = false ∨ ringExists p r = false then s.unimpl
  else if s.chPages c = false ∨ s.relayUp c = false then s
  else if ((s.chan c).part p).member f then s.runChan c eff
  else s.onIsl (fun i => i.inc hpHost HOST.REJ_OWN_CNT)

/-- DOORBELL (R541). -/
def execDoorbell (f : Nat) (c : Fin 4) (p r tail : Nat) (s : State) : Host.Outcome State Fault Refusal :=
  .next (s.doorbellWrite f c p r (fun ch => ch.doorbell p r tail))

/-- IRQ_ARM (R543). -/
def execIrqArm (f : Nat) (c : Fin 4) (p r : Nat) (s : State) : Host.Outcome State Fault Refusal :=
  .next (s.doorbellWrite f c p r (fun ch => ch.irqArm p r))

/-! Rings toward the part (R541, R546–R549). -/

/-- Write a descriptor back with DONE = 1 and its status, and advance HEAD (R541). -/
def Chan.descDone (ch : Chan) (p r : Nat) (desc : List Byte) (notify : Bool) (status : Nat) : Chan :=
  let x := ch.ring p r
  let inj := decide (r < 16)
  let wb := if inj then
      sliceBytes desc 0 11 ++ leBytes 1 (128 + b2n notify) ++ sliceBytes desc 12 2 ++ leBytes 1 status ++ leBytes 1 0
        ++ sliceBytes desc 16 12 ++ leBytes 4 0
    else
      sliceBytes desc 0 8 ++ leBytes 3 0 ++ leBytes 1 (128 + b2n notify) ++ leBytes 1 status ++ leBytes 3 0
        ++ sliceBytes desc 16 8 ++ leBytes 8 0
  let c1 := (ch.putRing p r { x with head := (x.head + 1) % 65536 }).ringDma p r 1 x.slotAddr wb
  let y := c1.part p
  let c2 := if inj then
      (if status = 0 then c1.putPart p { y with inject := (y.inject + b2n (decide (leAt desc 10 1 / 64 = 0))) % 2 ^ 64 }
       else c1.putPart p { y with injErr := (y.injErr + 1) % 2 ^ 64 })
    else c1
  if notify then c2.complete p r else c2

/-- The status of a PACKET descriptor (R549). -/
def Chan.injStatus (ch : Chan) (p port len flags : Nat) (dmaErr : Bool) : Nat :=
  if ch.portPart port ≠ p then 1
  else if len / 2 ^ 14 ≠ 0 ∨ nbits flags 6 1 ≠ 0 then 3
  else if len < 60 ∨ 15996 < len ∨ ch.portF port LINE.PORT_CFG_MAX_FRAME < len + 4 then 2
  else if dmaErr then 4 else 0

/-- The inject rings that hold a descriptor for the engine, as partition × 32 + ring. -/
def Chan.injRings (ch : Chan) : List Nat :=
  (ch.rings.filter (fun e => decide (8 ≤ e.1 % 32) && decide (e.1 % 32 < 16) && e.2.runs && !e.2.stopped && decide (e.2.head ≠ e.2.tail))).map
    Prod.fst

/-- The round robin of the inject engine has come to the ring (R549): the lowest from the one behind the ring served last. -/
def Chan.injTurn (ch : Chan) (k : Nat) : Bool :=
  let l := ch.injRings
  let rest := l.filter (fun e => decide (ch.injLast ≤ e))
  (if rest.isEmpty then l else rest).all (fun e => decide (k ≤ e)) && (rest.isEmpty || decide (ch.injLast ≤ k))

/-- The inject engine can hand a packet of the partition to the dispatcher (R549). -/
def Chan.injRoom (ch : Chan) (p : Nat) : Bool :=
  ch.enabled pgDisp && !(ch.getB pgDisp STAT_BUSY) && ch.brewCurrent && (List.range 256).any ch.engOpen
    && decide (ch.prs.qIn.length < 384)
    && decide ((ch.prs.qIn.filter (fun k => k.part == p)).length < ch.getF pgDisp (DISP.PART_SHARE_QLIM p))

/-- An inject descriptor is processed (R546, R549). -/
def Chan.injConsume (ch : Chan) (p r : Nat) (desc frame : List Byte) (dmaErr : Bool) : Chan :=
  let op := leAt desc 10 1 / 64
  let port := leAt desc 10 1 % 64
  let len := leAt desc 8 2
  let flags := leAt desc 11 1
  let notify := nbit flags 0
  if op = 0 then
    let st := ch.injStatus p port len flags dmaErr
    if st ≠ 0 then ch.descDone p r desc notify st
    else if ch.injRoom p = false then ch
    else
      let k : Pkt := {
        bytes := withFcs (sliceBytes frame 0 len), port := port, injected := true, part := p, t64 := ch.t64,
        account := nbits (ch.ring p r).aux 11 0 }
      (ch.dispatchArrive k).descDone p r desc notify 0
  else if op = 1 then
    let h := leAt desc 24 4
    let a := leAt desc 12 2 % 4096
    if nbits flags 6 1 ≠ 0 ∨ 4096 ≤ leAt desc 12 2 then ch.descDone p r desc notify 3
    else if handleOk h then
      let res := ch.freeResult h a (some p)
      (ch.freeBuf h a (some p)).descDone p r desc notify (if res = 1 then 5 else if res = 2 then 6 else 0)
    else ch.descDone p r desc notify 7
  else ch.descDone p r desc notify 3

/-- The table command of a command block (R386). -/
def blockCmd (p : Nat) (b : List Byte) : TCmd :=
  let cmd := leAt b 0 4
  let arg := leAt b 4 4
  {
    src := 2 + p, op := nbits cmd 7 0, table := nbits cmd 23 16, mask := nbits arg 31 30, flag := nbit arg 29, len := nbits arg 23 16,
    prio := nbits arg 15 0, index := leAt b 8 4, key := sliceBytes b 16 64, msk := sliceBytes b 80 40, res := sliceBytes b 128 64,
    cursor := leAt b 120 8 }

/-- A table command descriptor is processed (R386, R547): STATUS of the block, for LOOKUP, SEARCH and NEXT its CURSOR and RESULT, and
then the descriptor's write-back. -/
def Chan.tblConsume (ch : Chan) (p r : Nat) (desc block : List Byte) (dmaErr : Bool) : Chan :=
  let notify := nbit (leAt desc 11 1) 0
  let addr := leAt desc 0 8
  if nbits (leAt desc 11 1) 6 1 ≠ 0 then ch.descDone p r desc notify 3
  else if dmaErr then ch.descDone p r desc notify 4
  else
    let k := blockCmd p block
    let a := ch.tblRun k
    let c1 := a.1.ringDma p r 4 (addr + 12) (leBytes 4 a.2.stat)
    let back := decide (4 ≤ k.op) && decide (k.op ≤ 6)
    let c2 := match a.2.cursor with
      | some n => if back then c1.ringDma p r 4 (addr + 120) (leBytes 8 n) else c1
      | none => c1
    let c3 := match a.2.res with
      | some bs => if back then c2.ringDma p r 4 (addr + 128) (sliceBytes bs 0 64) else c2
      | none => c2
    c3.descDone p r desc notify 0

/-- DESC_CONSUME (R541, R549): the descriptor at HEAD, and the frame or the command block that it points to, as read from host memory. An
inject ring is served in its turn, which waits while its packet does. -/
def execDescConsume (c : Fin 4) (p r : Nat) (desc data : List Byte) (descErr dmaErr : Bool) (s : State) :
    Host.Outcome State Fault Refusal :=
  .next (s.onLive c (fun ch =>
    let x := ch.ring p r
    if ch.enabled pgPart && ringExists p r && toPart r && x.runs && !x.stopped && decide (x.head ≠ x.tail) && s.hostReach c then
      if r = 17 then (if descErr then ch.ringError p r 2 (some x.slotAddr) else ch.tblConsume p r desc data dmaErr)
      else if ch.injTurn (p * 32 + r) then
        let c1 := if descErr then ch.ringError p r 2 (some x.slotAddr) else ch.injConsume p r desc data dmaErr
        if c1.ring p r = x then c1 else { c1 with injLast := p * 32 + r + 1 }
      else ch
    else ch))

/-! Rings toward the host (R129, R542). -/

/-- RECORD_POST (R542): the oldest record bound for the ring; `desc` is the next buffer descriptor, read where one is needed. -/
def execRecordPost (c : Fin 4) (p r : Nat) (desc : List Byte) (descErr dmaErr : Bool) (s : State) : Host.Outcome State Fault Refusal :=
  .next (s.onLive c (fun ch =>
    match if ch.enabled pgPart then ch.recQ.find? (fun q => q.part == p && q.ring == r) else none with
    | none => ch
    | some q =>
      let c1 := { ch with recQ := ch.recQ.erase q }
      if s.hostReach c = false ∨ (ch.ring p r).runs = false then c1.recDrop p r q.bytes
      else
        let a := c1.postRec p r q.time q.bytes desc descErr dmaErr
        match a.2 with
        | .placed => a.1.recCount p r
        | .retry => { a.1 with recQ := q :: a.1.recQ }
        | .noBuf => a.1.recDrop p r q.bytes
        | .failed => a.1.recDrop p r q.bytes))

/-- PACK_TIMEOUT (R542): PACK_US µs have passed since the first record of the open buffer. -/
def execPackTimeout (c : Fin 4) (p r : Nat) (dmaErr : Bool) (s : State) : Host.Outcome State Fault Refusal :=
  .next (s.onLive c (fun ch =>
    let x := ch.ring p r
    match x.buf with
    | none => ch
    | some b => if x.runs && ch.enabled pgPart then (ch.runTo (b.since + x.aux % 2 ^ 14 * 1000)).closeBuf p r (dmaErr || !(s.hostReach c)) else ch))

/-- JRNL_STREAM_ENTRY (R129): the active keeper copies the next entry to ring 19 of partition 0. Entries wait while the ring has no
buffer or the host cannot be reached. -/
def execJrnlStreamEntry (c : Fin 4) (desc : List Byte) (descErr dmaErr : Bool) (s : State) : Host.Outcome State Fault Refusal :=
  .next (s.onLive c (fun ch =>
    match ch.active with
    | none => ch
    | some k =>
      let j := (ch.region k).jrnl
      if ch.getB pgJrnl JRNL.CTRL_STREAM_EN && decide (0 < j.unsent) && (ch.ring 0 19).runs && s.hostReach c then
        let e := (tget 0 j.entries j.streamIdx).toNat
        let a := ch.postRec 0 19 (e % 2 ^ 64) (leBytes 32 e) desc descErr dmaErr
        if a.2 = .placed then
          let j2 := { j with streamIdx := (j.streamIdx + 1) % 16384, unsent := j.unsent - 1 }
          (a.1.putJrnl k j2).syncJrnl j2
        else a.1
      else ch))

/-! Partitions (R550–R557). -/

/-- A PART command completes with a RESULT (R552, R559): BUSY stays while a quiesce runs. -/
def Chan.partDone (ch : Chan) (res : Nat) : Chan :=
  let busy := (List.range 32).any (fun p => (ch.part p).state == 2)
  (ch.putN pgPart PART.CMD_STAT (b2n busy * 2 ^ 31 + 2 ^ 30 + res * 2 ^ 16)).raise pgPart 8

/-- A refused write of the PART page (R559). -/
def Chan.partRefuse (ch : Chan) (code : Nat) : Chan := ch.putN pgPart PART.REFUSE code

/-- The accounts of a partition. -/
def Chan.acctsOf (ch : Chan) (p : Nat) : List Nat := allBelow 4096 (fun a => (ch.acct a).part == p)

/-- The ports of a partition. -/
def Chan.portsOf (ch : Chan) (p : Nat) : List Nat := allBelow 64 (fun x => ch.portPart x == p)

/-- CREATE (R552): an ACTIVE partition with no identities, rings or resources. -/
def Chan.partCreate (ch : Chan) (p : Nat) : Chan :=
  (({ ch with rings := ch.rings.filter (fun e => e.1 / 32 != p) }.putPart p { state := 1 }).partDone 0).journal pgPart clsNone 1 p

/-- Rings of a set stop for a quiesce (R553), or go on (R555). -/
def Chan.stopRings (ch : Chan) (p : Nat) (rs : List Nat) (on : Bool) : Chan :=
  ch.each rs (fun c r => c.putRing p r { c.ring p r with stopped := on })

/-- A PARTITION flush (R444) that the quiesce sequencer starts (R553). -/
def Chan.partFlush (ch : Chan) (p : Nat) : Chan :=
  let t := ch.flushTest 2 p 0
  let r := ch.discardWhere t.1 t.2
  let c1 := r.1.inc pgVoq VOQ.FLUSH_CNT r.2
  if c1.cad.flush.isSome then c1
  else
    let c2 := c1.putN pgVoq VOQ.FLUSH_STAT (2 ^ 31)
    { c2 with cad := { c2.cad with flush := some (2, r.2) } }

/-- CLOSE on every account of the partition (R443). -/
def Chan.closeAccts (ch : Chan) (p : Nat) : Chan :=
  ch.each ((ch.acctsOf p).filter (fun a => (ch.acct a).st == 1)) (fun c a => (c.putAcct a { c.acct a with st := 2 }).acctSettle a)

/-- A step of the quiesce starts (R553); `reach`: the host can be reached. -/
def Chan.stepStart (ch : Chan) (p step : Nat) (reach : Bool) : Chan :=
  let c0 := ch.putPart p { ch.part p with step := step, stepAt := ch.ns }
  if step = 1 then c0.stopRings p [8, 9, 10, 11, 12, 13, 14, 15] true
  else if step = 2 then c0.each (c0.portsOf p) (fun c x => c.putPortF x LINE.PORT_CTRL_DISCARD 1)
  else if step = 3 then c0.stopRings p [17] true
  else if step = 4 then
    let c1 := c0.closeAccts p
    if bit (c1.part p).qcfg 31 then c1.partFlush p else c1
  else
    let rs := [0, 1, 2, 3, 4, 5, 6, 7, 16, 18]
    (c0.stopRings p rs true).each rs (fun c r => if (c.ring p r).runs then c.closeBuf p r (!reach) else c)

/-- The quiesce has ended (R553). -/
def Chan.quiesceEnd (ch : Chan) (p : Nat) : Chan :=
  let x := ch.part p
  let us := (ch.ns - x.qStart) / 1000
  let c1 := ((ch.putPart p { x with state := 3, step := 0 }).partDone 0).journal pgPart clsNone 2 (p + us % 2 ^ 32 * 2 ^ 32)
  if x.failStep = 0 then c1 else (c1.raise pgPart 9).journal pgPart clsContained 3 (p + x.failStep * 2 ^ 8)

/-- The present step ends, and the next starts or the partition reads QUIESCED. -/
def Chan.stepNext (ch : Chan) (p : Nat) (reach : Bool) : Chan :=
  let n := (ch.part p).step
  if 5 ≤ n then ch.quiesceEnd p else ch.stepStart p (n + 1) reach

/-- Records of the partition's rings toward the host that are neither written back nor dropped, the journal stream apart. -/
def Chan.recsOf (ch : Chan) (p : Nat) : List Rec := ch.recQ.filter (fun q => q.part == p && q.ring != 19)

/-- The end condition of the present step (R553). Descriptors and table commands are whole in this model, so nothing is under way
in steps 1 and 3. -/
def Chan.stepEnded (ch : Chan) (p : Nat) : Bool :=
  let n := (ch.part p).step
  if n = 4 then (ch.acctsOf p).all (fun a => (ch.acct a).st == 0)
  else if n = 5 then (ch.recsOf p).isEmpty && (List.range 19).all (fun r => (ch.ring p r).buf.isNone || !(ch.ring p r).runs)
  else true

/-- QUIESCE_STEP_DONE (R553). -/
def execQuiesceStepDone (c : Fin 4) (p : Nat) (s : State) : Host.Outcome State Fault Refusal :=
  .next (s.onLive c (fun ch =>
    if p < 32 ∧ (ch.part p).state = 2 ∧ ch.stepEnded p = true then ch.stepNext p (s.hostReach c) else ch))

/-- The timeout of a step in ms (R553). -/
def Part.timeout (x : Part) : Nat :=
  if x.step = 1 then 1 else if x.step = 3 then fld x.qcfg 15 8 else if x.step = 4 then fld x.qcfg 27 16 else fld x.qcfg 7 0

/-- The action of a step's timeout (R553). -/
def Chan.stepTimeout (ch : Chan) (p : Nat) (reach : Bool) : Chan :=
  let x := ch.part p
  let c0 := ch.runTo (x.stepAt + x.timeout * 1000000)
  let c1 := c0.putPart p { c0.part p with failStep := if x.failStep = 0 then x.step else x.failStep }
  let c2 :=
    if x.step = 4 then
      let c3 := c1.partFlush p
      c3.runTo (c3.ns + 1000000)
    else if x.step = 5 then
      let l := c1.recsOf p
      let c3 := { c1 with recQ := c1.recQ.filter (fun q => !(q.part == p && q.ring != 19)) }
      (c3.each l (fun c q => c.recDrop p q.ring q.bytes)).each [0, 1, 2, 3, 4, 5, 6, 7, 16, 18] (fun c r =>
        match (c.ring p r).buf with
        | some b => (c.putRing p r { c.ring p r with buf := none }).ringDrop p r b.records
        | none => c)
    else c1
  c2.stepNext p reach

/-- QUIESCE_STEP_TIMEOUT (R553): in steps 1 and 3 a DMA or a command that the model does not hold has not ended. -/
def execQuiesceStepTimeout (c : Fin 4) (p : Nat) (s : State) : Host.Outcome State Fault Refusal :=
  .next (s.onLive c (fun ch =>
    let n := (ch.part p).step
    if p < 32 ∧ (ch.part p).state = 2 ∧ (n = 1 ∨ n = 3 ∨ ch.stepEnded p = false) then ch.stepTimeout p (s.hostReach c) else ch))

/-- QUIESCE (R552, R553). -/
def Chan.partQuiesce (ch : Chan) (p : Nat) (reach : Bool) : Chan :=
  let c1 := ch.putPart p { ch.part p with state := 2, step := 1, failStep := 0, qStart := ch.ns }
  (c1.putF pgPart PART.CMD_STAT_BUSY 1).stepStart p 1 reach

/-- RESUME (R555). -/
def Chan.partResume (ch : Chan) (p : Nat) : Chan :=
  let c1 := ch.each (ch.acctsOf p) (fun c a => c.putAcct a { c.acct a with st := 1 })
  let c2 := c1.each (c1.portsOf p) (fun c x => c.putPortF x LINE.PORT_CTRL_DISCARD 0)
  let c3 := c2.stopRings p (List.range 20) false
  (c3.putPart p { c3.part p with state := 1 }).partDone 0

/-- Clear the partition counters of R559. -/
def Part.clearCounts (x : Part) : Part := { x with punt := 0, inject := 0, injErr := 0, learn := 0, notify := 0 }

/-- RESET (R556). -/
def Chan.partReset (ch : Chan) (p : Nat) : Chan :=
  let c1 := ch.disableRings p
  (c1.putPart p (c1.part p).clearCounts).partDone 0

/-- Why REMOVE does not complete (R552): 3 TABLES, 4 QUEUES_BUSY, 5 ACCOUNTS, 0 none. -/
def Chan.removeResult (ch : Chan) (p : Nat) : Nat :=
  let x := ch.part p
  if (List.range 256).any (fun t => ch.tValid t && ch.tdef t TBL.TDEF_CFG_OWNER == p) then 3
  else if ch.cad.queues.any (fun e => decide (0x100000 + x.qrFirst ≤ e.1) && decide (e.1 < 0x100000 + x.qrFirst + x.qrCount)
      && !e.2.ents.isEmpty) then 4
  else if (ch.acctsOf p).any (fun a => (ch.acct a).st != 0) then 5
  else 0

/-- REMOVE (R551, R552): the resources return to partition 0. -/
def Chan.partRemove (ch : Chan) (p : Nat) : Chan :=
  let c1 := ch.disableRings p
  let c2 := c1.each (c1.portsOf p) (fun c x => c.putF pgPart (PART.PORT_OWN_PART x) 0)
  let c3 := c2.putF pgTbl (TBL.VRF_GRANT_COUNT p) 0
  let c4 := c3.put pgDisp (DISP.PART_SHARE p) (chanReset (pgDisp.key (DISP.PART_SHARE p)))
  let c5 := c4.each (c4.acctsOf p) (fun c a => c.putAcct a { c.acct a with part := 0 })
  let c6 := c5.each (allBelow 64 (fun n => c5.getF pgSamp (SAMP.CFG_PART n) == p)) (fun c n =>
    (c.putF pgSamp (SAMP.CFG_EN n) 0).putF pgSamp (SAMP.CFG_PART n) 0)
  let x := (c6.part p).clearCounts
  ((c6.putPart p { x with state := 0, step := 0, failStep := 0, qrFirst := 0, qrCount := 0 }).partDone 0).journal pgPart clsNone 4 p

/-- A write of PART.CMD with GO = 1 (R552). -/
def partCmdHook (reach : Bool) : Hook := fun w ch =>
  if bit w.v 31 = false ∨ ch.enabled pgPart = false then ch
  else
    let op := fld w.v 30 28
    let p := fld w.v 4 0
    let st := (ch.part p).state
    if (op = 0 ∨ op = 4) ∧ p = 0 then ch.partDone 2
    else if (op = 0 ∧ st ≠ 0) ∨ (op = 1 ∧ st ≠ 1) ∨ (2 ≤ op ∧ st ≠ 3) then ch.partDone 1
    else if op = 0 then ch.partCreate p
    else if op = 1 then ch.partQuiesce p reach
    else if op = 2 then ch.partResume p
    else if op = 3 then ch.partReset p
    else if ch.removeResult p ≠ 0 then ch.partDone (ch.removeResult p)
    else ch.partRemove p

/-- The write that issues a PART command. -/
def State.partCmd (s : State) (r : Req) (c : Fin 4) (op p : Nat) : State :=
  s.chanWrite (partCmdHook (s.hostReach c)) true r c pgPart PART.CMD (BitVec.ofNat 32 (2 ^ 31 + op * 2 ^ 28 + p % 32))

/-- PART_CREATE (R552). -/
def execPartCreate (r : Req) (c : Fin 4) (p : Nat) (s : State) : Host.Outcome State Fault Refusal := .next (s.partCmd r c 0 p)

/-- PART_QUIESCE (R552, R553). -/
def execPartQuiesce (r : Req) (c : Fin 4) (p : Nat) (s : State) : Host.Outcome State Fault Refusal := .next (s.partCmd r c 1 p)

/-- PART_RESUME (R552, R555). -/
def execPartResume (r : Req) (c : Fin 4) (p : Nat) (s : State) : Host.Outcome State Fault Refusal := .next (s.partCmd r c 2 p)

/-- PART_RESET (R552, R556). -/
def execPartReset (r : Req) (c : Fin 4) (p : Nat) (s : State) : Host.Outcome State Fault Refusal := .next (s.partCmd r c 3 p)

/-- PART_REMOVE (R551, R552). -/
def execPartRemove (r : Req) (c : Fin 4) (p : Nat) (s : State) : Host.Outcome State Fault Refusal := .next (s.partCmd r c 4 p)

/-! Registers of the PART page (R550, R551, R559, R564). -/

/-- The partition and ring that RING_SEL names. -/
def Chan.ringSel (ch : Chan) : Nat × Nat := (ch.getF pgPart PART.RING_SEL_PART, ch.getF pgPart PART.RING_SEL_RING)

/-- Why a ring is not enabled (R537, R551, R564): 6 ACCOUNT, 5 VECTOR, 7 STATE, 0 none. `owner` gives the function of a pool vector. -/
def Chan.ringRefusal (ch : Chan) (owner : Nat → Nat) (p r : Nat) (v : Word) : Nat :=
  if 8 ≤ r ∧ r < 16 ∧ (ch.acct (nbits (ch.ring p r).aux 11 0)).part ≠ p then 6
  else if (ch.part p).member (owner (fld v 21 11)) = false then 5
  else if (ch.part p).state = 0 ∨ auxLegal r (ch.ring p r).aux = false then 7
  else 0

/-- A write of PART.RING_CFG (R564). -/
def ringCfgHook (owner : Nat → Nat) : Hook := fun w ch =>
  let p := ch.ringSel.1
  let r := ch.ringSel.2
  let x := ch.ring p r
  if ringExists p r = false then ch.rejectWrite w.p w.off
  else if x.en ∧ (fld w.v 28 24 ≠ x.log2 ∨ fld w.v 23 22 ≠ x.ident) then ch.partRefuse 4
  else
    let code := ch.ringRefusal owner p r w.v
    let m := setFld (setFld (setFld (setFld 0 31 31 (fld w.v 31 31)) 28 24 (fld w.v 28 24)) 23 22 (fld w.v 23 22)) 21 11 (fld w.v 21 11)
    if bit w.v 31 then
      if code ≠ 0 then ch.partRefuse code
      else if x.en then ch.putRing p r { x with cfg := m }
      else ch.putRing p r { base := x.base, cfg := m, aux := x.aux, stopped := x.stopped, arm := x.arm, errJrnl := x.errJrnl }
    else if x.en then
      let c1 := ch.disableRing p r
      c1.putRing p r { c1.ring p r with cfg := m }
    else ch.putRing p r { x with cfg := m }

/-- RING_CFG_WRITE (R564). -/
def execRingCfgWrite (r : Req) (c : Fin 4) (v : Word) (s : State) : Host.Outcome State Fault Refusal :=
  .next (s.chanWrite (ringCfgHook (fun v => (s.isl.vecOwner v).1)) true r c pgPart PART.RING_CFG v)

/-- A write of RING_SEL: the low word of RING_BASE that a write of the high word keeps is the selected ring's. -/
def ringSelHook : Hook := fun w ch =>
  let c1 := ch.put w.p w.off w.merged
  c1.putN pgPart PART.RING_BASE (c1.ring c1.ringSel.1 c1.ringSel.2).base

/-- A write of RING_BASE (R564). -/
def ringBaseHook : Hook := fun w ch =>
  let p := ch.ringSel.1
  let r := ch.ringSel.2
  let x := ch.ring p r
  let lo := match w.lowMerged, w.staged with
    | some l, true => l.toNat
    | _, _ => x.base % 2 ^ 32
  if ringExists p r = false then ch.rejectWrite w.p w.off
  else if x.en then ch.partRefuse 4
  else (ch.putN pgPart PART.RING_BASE lo).putRing p r { x with base := lo / 4096 * 4096 + w.v.toNat * 2 ^ 32 }

/-- A write of RING_AUX (R559, R564). -/
def ringAuxHook : Hook := fun w ch =>
  let p := ch.ringSel.1
  let r := ch.ringSel.2
  let x := ch.ring p r
  if ringExists p r = false then ch.rejectWrite w.p w.off
  else if x.en then ch.partRefuse 4
  else if r = 17 then ch
  else if toPart r then ch.putRing p r { x with aux := fld w.v 11 0 }
  else if auxLegal r (fld w.v 13 0) then ch.putRing p r { x with aux := fld w.v 13 0 }
  else ch.rejectWrite w.p w.off

/-- Identities conflict when they name one function, unless both have PASIDs and they differ (R550). -/
def idConflict (a b : Word) : Bool :=
  bit a 31 && bit b 31 && fld a 26 20 == fld b 26 20 && !(bit a 30 && bit b 30 && fld a 19 0 != fld b 19 0)

/-- A write of PART.IDENT k (R550). -/
def identHook (k : Nat) : Hook := fun w ch =>
  let p := ch.selPart
  let x := ch.part p
  let v := setFld (setFld (setFld (setFld 0 31 31 (fld w.v 31 31)) 30 30 (fld w.v 30 30)) 26 20 (fld w.v 26 20)) 19 0 (fld w.v 19 0)
  if p = 0 ∧ k = 0 then ch
  else if (List.range 32).any (fun q => q != p && (List.range 4).any (fun j => idConflict v ((ch.part q).ident j))) then ch.partRefuse 1
  else if v ≠ x.ident k ∧ (List.range 32).any (fun r => (ch.ring p r).en && (ch.ring p r).ident == k) then ch.partRefuse 2
  else ch.putPart p (x.setIdent k v)

/-- IDENT_WRITE (R550). -/
def execIdentWrite (r : Req) (c : Fin 4) (k : Fin 4) (v : Word) (s : State) : Host.Outcome State Fault Refusal :=
  .next (s.chanWrite (identHook k.val) true r c pgPart (PART.IDENT k.val) v)

/-- A write of PART.PORT_OWN x (R551). -/
def portOwnHook (x : Nat) : Hook := fun w ch =>
  let a := ch.portPart x
  let b := fld w.v 4 0
  if a = b then ch
  else if a ≠ 0 ∧ (ch.part a).state ≠ 3 then ch.partRefuse 3
  else if (ch.part b).state = 0 then ch.partRefuse 7
  else ch.put w.p w.off w.merged

/-- PORT_OWN_WRITE (R551). -/
def execPortOwnWrite (r : Req) (c : Fin 4) (port : Nat) (v : Word) (s : State) : Host.Outcome State Fault Refusal :=
  .next (s.chanWrite (portOwnHook (port % 64)) true r c pgPart (PART.PORT_OWN (port % 64)) v)

/-- A write of QCFG, QR_FIRST or QR_COUNT: the selected partition's (R559). -/
def partRegHook : Hook := fun w ch =>
  let p := ch.selPart
  let x := ch.part p
  if w.off = PART.QCFG then ch.putPart p { x with qcfg := w.merged }
  else if w.off = PART.QR_FIRST then ch.putPart p { x with qrFirst := fld w.v 16 0 }
  else ch.putPart p { x with qrCount := fld w.v 17 0 }

/-- SOFT_RESET of PART (R58, R558): every ring is disabled and its registers return to reset, as do QCFG and the counters of every partition;
partitions, identities and ownership stay, and so does what a quiesce has stopped. -/
def Chan.partSoftReset (ch : Chan) : Chan :=
  let c1 := ch.each ((List.range 32).filter (fun p => ch.rings.any (fun e => e.1 / 32 == p))) (fun c p => c.disableRings p)
  let own := (List.range 64).map (fun x => c1.portPart x)
  let held := c1.rings.foldl (fun t e => tput ({} : Ring) t e.1 { stopped := e.2.stopped }) []
  let c2 := ({ c1 with rings := held, injLast := 0 }.each (List.range 32) (fun c p =>
    c.putPart p { (c.part p).clearCounts with qcfg := ({} : Part).qcfg })).softResetRegs pgPart
  c2.each ((List.range 64).zip own) (fun c e => c.putF pgPart (PART.PORT_OWN_PART e.1) e.2)

/-! The doorbell pages as read (R540, R559). -/

/-- The word at an offset of the doorbell page of partition `p`; `none` where nothing is implemented. -/
def Chan.doorbellView (ch : Chan) (p off : Nat) : Option Nat :=
  let x := ch.part p
  let cnt := [x.punt, x.inject, x.injErr, x.learn, x.notify]
  if off < 0x1000 ∧ off / 0x80 < 32 ∧ ringExists p (off / 0x80) then
    let r := ch.ring p (off / 0x80)
    let o := off % 0x80
    if o = 0 ∨ o = 0x10 then some 0
    else if o = 4 then some r.head
    else if o = 8 then some r.stat
    else if o = 0xC then some r.drop
    else none
  else if 0xC00 ≤ off ∧ off < 0xC28 ∧ off % 4 = 0 then
    some ((cnt.getD ((off - 0xC00) / 8) 0) / 2 ^ (off % 8 * 8) % 2 ^ 32)
  else if off = 0xD00 then some x.stat
  else none

end Sys2Proof.Machine
end

