-- ==== Sys2Proof/Machine/Jtag.lean ====
section
/-! DEFINITION. The test port (R613, R614): its instructions, boundary scan, and unlocking. The port answers while the package has
power and channel 0's FE die lives (R24, R592). -/

namespace Sys2Proof.Machine

/-- The test port answers. -/
def State.jtagReady (s : State) : Bool := s.isl.powered && !s.isl.dead

/-- The port is unlocked (R614). -/
def State.jtagOpen (s : State) : Bool := s.isl.getB hpPwr PWRH.JTAG_STAT_UNLOCKED

/-- Every channel reads OFF or RESET: EXTEST, CLAMP and HIGHZ are available (R613). -/
def State.scanFree (s : State) : Bool :=
  (List.range s.variant.channels).all (fun c =>
    s.isl.getF hpPwr (PWRH.CH_STAT_STATE c) == 0 || s.isl.getF hpPwr (PWRH.CH_STAT_STATE c) == 5)

/-- The instruction register takes a code. -/
def State.jtagIr (s : State) (code : Nat) : State := s.onIsl (fun i => { i with jtagIr := code })

/-- The code that acts in place of `code` (R613): an instruction that is not available acts as BYPASS. -/
def State.jtagCode (s : State) (code : Nat) : Nat :=
  if code = 1 ∨ code = 3 ∨ code = 0x10 ∨ code = 0x11 ∨ code = 0x12 then code
  else if (code = 2 ∨ code = 4 ∨ code = 5) ∧ s.scanFree = true then code
  else if (code = 0x20 ∨ code = 0x21) ∧ s.jtagOpen = true then code
  else 0xFF

/-- Select an instruction; what it does happens only where it is available. -/
def State.jtagRun (s : State) (code : Nat) (f : State → State) : State :=
  if s.jtagReady then
    let t := s.jtagIr (s.jtagCode code)
    if s.jtagCode code = code then f t else t
  else s

/-- IDCODE (R613). -/
def Variant.idcode (v : Variant) : Nat :=
  (Config.stepping 4 0).toNat % 16 * 2 ^ 28
    + (match v with | .dk1 => 0xD410 | .dk2 => 0xD420 | .dk4 => 0xD440) * 2 ^ 12 + 0x2B7 * 2 + 1

/-- SAMPLE_PRELOAD (R613): the sideband lands are sampled and shifted out, and the boundary register is loaded. -/
def execSamplePreload (captured shifted : Nat) (s : State) : Host.Outcome State Fault Refusal :=
  .next (s.jtagRun 1 (fun t => (t.onIsl (fun i => { i with jtagBnd := shifted })).emit (.wire 0x21 [captured] [])))

/-- EXTEST (R613): the boundary register drives the lands, as preloaded and then as shifted in. -/
def execExtest (shifted : Nat) (s : State) : Host.Outcome State Fault Refusal :=
  .next (s.jtagRun 2 (fun t =>
    ((t.emit (.pin 0x30 [t.isl.jtagBnd])).onIsl (fun i => { i with jtagBnd := shifted })).emit (.pin 0x30 [shifted])))

/-- IDCODE (R613). -/
def execIdcode (s : State) : Host.Outcome State Fault Refusal :=
  .next (s.jtagRun 3 (fun t => t.emit (.wire 0x20 [t.variant.idcode] [])))

/-- CLAMP (R613): the lands hold the boundary register's values. -/
def execClamp (s : State) : Host.Outcome State Fault Refusal :=
  .next (s.jtagRun 4 (fun t => t.emit (.pin 0x30 [t.isl.jtagBnd])))

/-- HIGHZ (R613): the outputs float. -/
def execHighz (s : State) : Host.Outcome State Fault Refusal := .next (s.jtagRun 5 (fun t => t.emit (.pin 0x31 [])))

/-- BYPASS, and every code that is not listed or not available (R613). A listed and available code is a command of its own. -/
def execBypass (code : Nat) (s : State) : Host.Outcome State Fault Refusal :=
  .next (if s.jtagReady = true ∧ s.jtagCode (code % 256) = 0xFF then s.jtagIr 0xFF else s)

/-- UNLOCK_REQ (R613): the serial number and a fresh nonce, which the spec leaves open (log 6). -/
def execUnlockReq (s : State) : Host.Outcome State Fault Refusal :=
  .next (s.jtagRun 0x10 (fun t =>
    let n := (Config.freeValue t.isl.free).toNat
    (t.onIsl (fun i => { i with nonce := some n, free := i.free + 5 })).emit (.wire 0x20 [Config.serial.toNat, n] [])))

/-- The port relocks (R614). -/
def State.jtagRelock (s : State) : State := s.onIsl (fun i => i.putF hpPwr PWRH.JTAG_STAT_UNLOCKED 0)

/-- A response is refused: the journal entry, with its reason (R619). -/
def State.jtagRefuse (s : State) (why : Nat) : State := s.islJournal hpPwr clsContained 6 why

/-- A failed response (R614): the third blocks the port for 60 s. -/
def State.jtagFail (s : State) : State :=
  let n := s.isl.jtagFails + 1
  let s1 := s.onIsl (fun i => { i with jtagFails := n })
  (if 3 ≤ n then
    s1.onIsl (fun i => { i.putF hpPwr PWRH.JTAG_STAT_BLOCKED 1 with jtagBlk := i.ns })
  else s1).jtagRefuse 0

/-- A good response unlocks the port (R614, R615, R619). -/
def State.jtagUnlock (s : State) (nonce : Nat) : State :=
  let s1 := s.onIsl (fun i =>
    { (i.putF hpPwr PWRH.JTAG_STAT_UNLOCKED 1).putF hpPwr ⟨0x130, 7, 0⟩ (satAdd 8 (i.getF hpPwr ⟨0x130, 7, 0⟩) 1) with jtagFails := 0 })
  (s1.islRaise hpPwr 10).islJournal hpPwr clsNone 5 nonce

/-- UNLOCK_RESP (R614): `sigOk` is the verdict of the signature check over the 128 bits of the last UNLOCK_REQ. -/
def execUnlockResp (sigOk : Bool) (s : State) : Host.Outcome State Fault Refusal :=
  .next (s.jtagRun 0x11 (fun t =>
    if t.isl.perst then t.onIsl (fun i => { i with nonce := none })
    else
      let n := t.isl.nonce
      let t1 := t.onIsl (fun i => { i with nonce := none })
      if t.isl.getB hpPwr PWRH.JTAG_CTRL_UNLOCK_DIS then t1.jtagRefuse 2
      else if t.isl.getB hpPwr PWRH.JTAG_STAT_BLOCKED then t1.jtagRefuse 1
      else match n, sigOk with
        | some v, true => t1.jtagUnlock v
        | _, _ => t1.jtagFail))

/-- LOCK (R613, R614). -/
def execJtagLock (one : Bool) (s : State) : Host.Outcome State Fault Refusal :=
  .next (s.jtagRun 0x12 (fun t => if one then t.jtagRelock else t))

/-- UNLOCK_BLOCK_EXPIRY (R614): 60 s after the third failed response. -/
def execUnlockBlockExpiry (s : State) : Host.Outcome State Fault Refusal :=
  .next (if s.jtagReady = true ∧ s.isl.getB hpPwr PWRH.JTAG_STAT_BLOCKED = true then
      s.onIsl (fun i => { i.putF hpPwr PWRH.JTAG_STAT_BLOCKED 0 with
        jtagFails := 0, ns := max i.ns (i.jtagBlk + 60000000000) })
    else s)

/-- A write of PWR.JTAG_CTRL (R614, R615): UNLOCK_DIS is stored, and LOCK relocks the port. -/
def jtagCtrlHook : IslHook := fun p off _ v m s =>
  let s1 := s.onIsl (fun i => i.put p off m)
  if bit v 0 then s1.jtagRelock else s1

end Sys2Proof.Machine
end

