-- ==== Sys2Proof/Machine/Power.lean ====
section
/-! DEFINITION. Supply, reset and channel power (R592–R604, R616–R619), sensors (R584–R590), and the functions of the PCIe
endpoint (R533–R535, R558). -/

namespace Sys2Proof.Machine

/-- A channel after a channel reset: everything at its reset value, but what no reset touches — the fuses, the latched
strap, and the model's counter of free values (R596). -/
def Chan.fresh (ch : Chan) : Chan := { free := ch.free, pref := ch.pref, fusedSvn := ch.fusedSvn, hppr := ch.hppr }

/-- The channel's dies are reset (R596). -/
def State.resetChan (s : State) (c : Fin 4) : State := s.setChan c (s.chan c).fresh

/-- The state a channel that is not FATAL for the package comes to by its requests: PD overrides RESET and the pin (R599). -/
def State.wanted (s : State) (c : Fin 4) : Nat :=
  if s.isl.getB hpPwr (PWRH.CH_CTRL_PD c.val) then 0
  else if s.isl.getB hpPwr (PWRH.CH_CTRL_RESET c.val) || nbit s.isl.chPin c.val then 5
  else 1

/-- Bring a channel to the state its reset and power requests ask for (R598, R599): a channel that runs, or is on its way,
stays; PACKAGE_FATAL ends only with a power cycle. -/
def State.settle (s : State) (c : Fin 4) : State :=
  if s.hasChan c = false ∨ s.isl.pkgFatal ∨ s.isl.pwrgood = false then s
  else
    let w := s.wanted c
    if w = 1 then
      if s.chState c = 0 ∨ s.chState c = 5 then s.setChState c.val 1 else s
    else
      let s1 := (s.resetChan c).onIsl (fun i => { i with forcedOff := setNbit i.forcedOff c.val false })
      s1.setChState c.val w

/-- Everything a power-on reset returns to its reset value (R596): fuses, the package's identity and the queue stay. -/
def State.powerOnReset (s : State) : State :=
  { s with
    isl := { powered := s.isl.powered, dead := s.isl.dead, chPin := s.isl.chPin, ns := s.isl.ns, free := s.isl.free }
    chans := #v[(s.chan 0).fresh, (s.chan 1).fresh, (s.chan 2).fresh, (s.chan 3).fresh] }

/-- POWER_ON (R592): PWR_IN rises through the lockout. -/
def execPowerOn (s : State) : Host.Outcome State Fault Refusal :=
  .next (if s.isl.powered then s else { s with isl := { s.isl with powered := true } }.powerOnReset)

/-- POWER_LOSS (R592, R593): every converter stops and all volatile state is lost. -/
def execPowerLoss (s : State) : Host.Outcome State Fault Refusal :=
  .next ({ s with isl := { s.isl with powered := false } }.powerOnReset)

/-- The module becomes PACKAGE_FATAL (R589): every channel stops, with its converters off where `off`. -/
def State.packageFatal (s : State) (cause : Nat) (off : Bool) : State :=
  let s1 := s.onIsl (fun i => { i with pkgFatal := true })
  (((s1.fatalChan 0 cause off).fatalChan 1 cause off).fatalChan 2 cause off).fatalChan 3 cause off

/-- An input fault (R593): LAST_FAULT, and every channel converter off. -/
def State.inputFault (s : State) (code : Nat) : State :=
  if s.isl.powered then
    (s.onIsl (fun i => i.putF hpPwr PWRH.IN_STAT_LAST_FAULT code)).packageFatal 4 true
  else s

/-- INPUT_OVERVOLTAGE (R593). -/
def execInputOvervoltage (s : State) : Host.Outcome State Fault Refusal := .next (s.inputFault 1)

/-- INPUT_OVERCURRENT (R593). -/
def execInputOvercurrent (s : State) : Host.Outcome State Fault Refusal := .next (s.inputFault 2)

/-- The straps as latched, and PD of every implemented channel (R599, R603). -/
def State.latchStraps (s : State) (straps : Nat) : State :=
  let pd := 1 - straps / 8 % 2
  let i0 := { s.isl.putN hpPwr PWRH.STRAP (straps % 16) with pwrgood := true }
  let i1 := (List.range s.variant.channels).foldl (fun (i : Isl) c => i.putF hpPwr (PWRH.CH_CTRL_PD c) pd) i0
  { s with
    isl := i1
    chans := s.chans.mapIdx (fun c ch => if c < s.variant.channels then { ch with pref := straps % 2 } else ch) }

/-- PWRGOOD_RISE (R601, R603): the straps are latched, and with CH_AUTO the channels begin to power in ascending order. -/
def execPwrgoodRise (straps : Nat) (s : State) : Host.Outcome State Fault Refusal :=
  .next (if s.isl.powered ∧ s.isl.pwrgood = false then
      ((((s.latchStraps straps).settle 0).settle 1).settle 2).settle 3
    else s)

/-- PWRGOOD_HOLD_LOW (R596, R604): a low driven from outside holds the power-on reset. -/
def execPwrgoodHoldLow (s : State) : Host.Outcome State Fault Refusal := .next s.powerOnReset

/-- The host island resets (R596, R597): PCIe, relay, HOST but MSIX_CFG and FUNC_CFG, JTAG unlock; every ring stops; the
messages of host island pages are lost and those of channel pages held; VF_VECS applies and VF Enable clears (R534). -/
def State.islandReset (s : State) : State :=
  let i := s.isl
  let msix := i.nat hpHost HOST.MSIX_CFG
  let func := i.nat hpHost HOST.FUNC_CFG
  let i1 := { i with regs := tclear i.regs 0 0x20000 }
  let i2 := (i1.putN hpHost HOST.MSIX_CFG msix).putN hpHost HOST.FUNC_CFG func
  let i3 := (i2.putF hpPwr PWRH.JTAG_STAT_UNLOCKED 0).putF hpPwr PWRH.JTAG_CTRL_UNLOCK_DIS 0
  let i4 := { i3 with
    perst := true, l0 := false, fns := [], vfEnable := false, vfBar0 := false, vfVecs := msix % 32, latches := [],
    relayRun := [], nonce := none,
    held := i.held.filter (fun h => match h with | .isl _ => false | .page _ _ => true | .ring _ _ _ => false) }
  { s with isl := i4 }.onAllLive Chan.stopAllRings

/-- PERST_ASSERT (R597). -/
def execPerstAssert (s : State) : Host.Outcome State Fault Refusal := .next s.islandReset

/-- PERST_DEASSERT (R597): the host island leaves reset once PWRGOOD is high; the JTAG port stays locked. -/
def execPerstDeassert (s : State) : Host.Outcome State Fault Refusal :=
  .next (if s.isl.pwrgood then s.onIsl (fun i => { i with perst := false, pageNs := if i.perst then i.ns else i.pageNs }) else s)

/-- Pool vector of a message's source. -/
def State.srcVector (s : State) : MsiSrc → Nat
  | .ring c p r => if h : c < 4 then (s.chan ⟨c, h⟩).ringVec p r else 0
  | src => fld (s.routeOf src) 10 0

/-- Send the held messages that can now be received and whose line is still asserted (R66 items 4 and 5). -/
def State.sendHeld (s : State) : State :=
  s.isl.held.foldl (fun t src =>
    let o := t.isl.vecOwner (t.srcVector src)
    if t.isl.canSend o.1 o.2 then
      let t1 := t.onIsl (fun i => { i with held := i.held.filter (fun x => x != src) })
      if t1.lineOf src then t1.emit (.msix o.1 o.2) else t1
    else t) s

/-- PCIE_LINK_TRAINED (R558): LINK_STAT takes the trained values; a change of SPEED or WIDTH raises LINK_CHANGE, which
channel 0 journals. -/
def execPcieLinkTrained (speed width : Nat) (flit : Bool) (s : State) : Host.Outcome State Fault Refusal :=
  .next (if s.isl.pwrgood ∧ s.isl.perst = false ∧ s.isl.dead = false ∧ 4 ≤ speed ∧ speed ≤ 6 ∧ 1 ≤ width ∧ width ≤ 16 then
      let changed := decide (s.isl.getF hpHost HOST.LINK_STAT_SPEED ≠ speed ∨ s.isl.getF hpHost HOST.LINK_STAT_WIDTH ≠ width)
      let s1 := s.onIsl (fun i =>
        { i.putN hpHost HOST.LINK_STAT (speed * 2 ^ 28 + width * 2 ^ 16 + b2n flit * 2 ^ 15) with l0 := true })
      let s2 := if changed then
          (s1.islRaise hpHost 9).islJournal hpHost (if speed < 6 ∨ width < 8 then clsDegraded else clsNone) 1 (speed + width * 256)
        else s1
      s2.sendHeld
    else s)

/-- PCIE_LINK_DOWN (R66, R540): the link leaves L0 outside a reset; messages are held and rings stop with LINK. -/
def execPcieLinkDown (s : State) : Host.Outcome State Fault Refusal :=
  .next (if s.isl.l0 then
      (s.onIsl (fun i => { i with l0 := false })).onAllLive (fun ch =>
        ch.each (ch.ringsWhere (fun _ _ _ => true)) (fun c e => (c.ringAbandon e.1 e.2 5).ringErrJournal e.1 e.2 5))
    else s)

/-- One function's reset (R535): its rings, its MSI-X state, FLR_CNT and FLR. -/
def State.flrOne (s : State) (f : Nat) : State :=
  let s1 := s.onAllLive (fun ch => ch.flrStop f)
  let s2 := s1.onIsl (fun i => (i.putFn f {}).inc hpHost HOST.FLR_CNT)
  s2.islRaise hpHost 10

/-- VF Enable goes to 0: an FLR of every VF (R535). -/
def State.disableVfs (s : State) : State :=
  if s.isl.vfEnable then
    ((List.range 127).foldl (fun t k => t.flrOne (k + 1)) s).onIsl (fun i => { i with vfEnable := false })
  else s

/-- FLR (R535); of PF0 it also clears VF Enable and applies VF_VECS (R534). -/
def execFlr (f : Nat) (s : State) : Host.Outcome State Fault Refusal :=
  .next (if s.isl.perst ∨ s.isl.dead ∨ 128 ≤ f ∨ (f ≠ 0 ∧ s.isl.vfEnable = false) then s
    else if f = 0 then
      let s1 := s.disableVfs.flrOne 0
      s1.onIsl (fun i => { i with vfVecs := i.getF hpHost HOST.MSIX_CFG_VF_VECS, vfBar0 := false })
    else s.flrOne f)

/-- VF_ENABLE_CHANGE (R534): going to 1 applies VF_BAR0; going to 0 acts as an FLR of every VF. -/
def execVfEnableChange (on : Bool) (s : State) : Host.Outcome State Fault Refusal :=
  .next (if s.isl.perst ∨ s.isl.dead ∨ s.isl.vfEnable = on then s
    else if on then
      s.onIsl (fun i => { i with vfEnable := true, vfBar0 := i.getB hpHost HOST.FUNC_CFG_VF_BAR0 })
    else s.disableVfs)

/-- MSIX_UNMASK (R66): function `f` becomes able to receive; `vmask` gives the vectors still masked. -/
def execMsixUnmask (f vmask : Nat) (s : State) : Host.Outcome State Fault Refusal :=
  .next (if s.isl.perst ∨ s.isl.dead ∨ 128 ≤ f ∨ (f ≠ 0 ∧ s.isl.vfEnable = false) then s
    else (s.onIsl (fun i => i.putFn f { en := true, fmask := false, vmask := vmask })).sendHeld)

/-- CH_RST_ASSERT (R599): the pin holds the channel in reset; PD overrides it. CH_RESET is journalled in channel 0. -/
def execChRstAssert (c : Fin 4) (s : State) : Host.Outcome State Fault Refusal :=
  .next (if s.hasChan c then
      let s1 := (s.onIsl (fun i => { i with chPin := setNbit i.chPin c.val true })).settle c
      if s1.chState c = 5 ∧ s.chState c ≠ 5 then s1.islJournal hpPwr clsNone 1 c.val else s1
    else s)

/-- CH_RST_RELEASE (R598, R599). -/
def execChRstRelease (c : Fin 4) (s : State) : Host.Outcome State Fault Refusal :=
  .next (if s.hasChan c then (s.onIsl (fun i => { i with chPin := setNbit i.chPin c.val false })).settle c else s)

/-- A write of PWR.CH_CTRL (R599, R616): RESET and PD together decide the channel's state; CH_RESET and CH_POWER are
journalled in channel 0. -/
def chCtrlHook (c : Fin 4) : IslHook := fun p off old _ m s =>
  let s1 := (s.onIsl (fun i => i.put p off m)).settle c
  let s2 := if bit m 31 ∧ bit old 31 = false ∧ s1.chState c = 5 ∧ s.chState c ≠ 5 then s1.islJournal hpPwr clsNone 1 (c.val + 2 ^ 8) else s1
  if bit m 30 ∧ bit old 30 = false then s2.islJournal hpPwr clsNone 2 c.val
  else if bit m 30 = false ∧ bit old 30 then s2.islJournal hpPwr clsNone 2 (c.val + 2 ^ 8)
  else s2

/-- CH_RESET_WRITE (R599). -/
def execChResetWrite (r : Req) (c : Fin 4) (v : Word) (s : State) : Host.Outcome State Fault Refusal :=
  .next (s.islWrite (chCtrlHook c) r hpPwr (PWRH.CH_CTRL c.val) v)

/-- CH_PD_WRITE (R599). -/
def execChPdWrite (r : Req) (c : Fin 4) (v : Word) (s : State) : Host.Outcome State Fault Refusal :=
  .next (s.islWrite (chCtrlHook c) r hpPwr (PWRH.CH_CTRL c.val) v)

/-- CH_RAILS_GOOD (R132, R598): the dies leave reset and BIST begins; Cosy starts at 0 in FREE. -/
def execChRailsGood (c : Fin 4) (s : State) : Host.Outcome State Fault Refusal :=
  .next (if s.hasChan c && s.chState c == 1 then (s.resetChan c).setChState c.val 2 else s)

/-- The channel becomes CHANNEL_FATAL for a cause that its own keeper journals as CH_FATAL (R587, R588). -/
def State.fatalJournalled (s : State) (c : Fin 4) (cause : Nat) : State :=
  let s1 := s.onKeeper c (fun ch =>
    ch.jrnlRaw (jrnlEntry ch.t64 ch.quality (15 * 2 ^ 12 + hpPwr) clsChanFatal 3 (c.val + cause * 2 ^ 8)))
  s1.fatalChan c cause false

/-- REFCLK_LOSS (R587): the channel becomes CHANNEL_FATAL. -/
def execRefclkLoss (c : Fin 4) (s : State) : Host.Outcome State Fault Refusal :=
  .next (if s.chPages c then s.fatalJournalled c 3 else s)

/-! Sensors (R584, R585). -/

/-- A reading in 1/16 °C (16-bit two's complement) is at or above a threshold in °C. -/
def atLeastC (reading degC : Nat) : Bool := decide ((16 * degC : Nat) ≤ toSigned reading 16)

/-- The condition of a threshold with its 5 °C of hysteresis: set at or above, cleared at 5 °C below (R584). -/
def hysteresis (was : Bool) (reading degC : Nat) : Bool :=
  atLeastC reading degC || (was && decide (toSigned reading 16 > (16 * degC : Nat) - 80))

/-- The hottest sensor: its number and reading; the lowest number of equals. -/
def hottest : List Nat → Nat → Option (Nat × Nat) → Option (Nat × Nat)
  | [], _, best => best
  | t :: ts, k, none => hottest ts (k + 1) (some (k, t))
  | t :: ts, k, some (bk, bv) => hottest ts (k + 1) (if toSigned t 16 > toSigned bv 16 then some (k, t) else some (bk, bv))

/-- TEMP_MAX for a set of readings. -/
def tempMax (temps : List Nat) : Nat :=
  match hottest temps 0 none with
  | some (k, v) => 2 ^ 31 + k * 2 ^ 16 + v % 65536
  | none => 0

/-- No TEMP_CRIT of sensor `i` has been journalled within the last second (R591). -/
def again (last : Tab Nat) (i now : Nat) : Bool := tget 0 last i == 0 || decide (tget 0 last i + 1000000000 ≤ now + 1)

/-- The instant of the sample that follows the one recorded as `last`, `period` later (R584, R609). -/
def nextSample (last period : Nat) : Nat := if last = 0 then 0 else last - 1 + period

/-- One temperature reading of a die's SENS page. -/
def Chan.tempSample (ch : Chan) (d k v : Nat) : Chan :=
  let p := pgSens d
  let crit := ch.getF p SENS.THRESH_CRIT
  let i := 32 * d + k
  let was := nbit ch.crit i
  let now := hysteresis was v crit
  let c1 := (ch.putN p (SENS.TEMP k) (2 ^ 31 + v % 65536)).when (atLeastC v (ch.getF p SENS.THRESH_WARN)) (fun c => c.raise p 8)
  let c2 := c1.when (atLeastC v crit) (fun c => c.raise p 9)
  let c3 := { c2 with crit := setNbit c2.crit i now, shutPrev := setNbit c2.shutPrev i (atLeastC v (ch.getF p SENS.THRESH_SHUT)) }
  if now && !was && again c3.critJrnl i ch.ns then
    ({ c3 with critJrnl := tput 0 c3.critJrnl i (ch.ns + 1) }).journal p clsDegraded 1 (k + v % 65536 * 2 ^ 16)
  else c3

/-- One rail reading: mV, and 0 inside ±5 %, 1 LOW, 2 HIGH. -/
def Chan.railSample (ch : Chan) (d r mv st : Nat) : Chan :=
  let p := pgSens d
  let was := nbit ch.railOut (16 * d + r)
  let now := decide (st ≠ 0)
  let c1 := ch.putN p (SENS.VOLT r) (2 ^ 31 + b2n (decide (st = 1)) * 2 ^ 30 + b2n (decide (st = 2)) * 2 ^ 29 + mv % 65536)
  let c2 := { c1 with railOut := setNbit c1.railOut (16 * d + r) now }
  if now && !was then (c2.raise p 10).journal p clsDegraded 3 (r + mv % 65536 * 2 ^ 16) else c2

/-- Rails of a die (R585). -/
def railsOf (d : Nat) : Nat := if d = 0 then 6 else 8

/-- Number the elements of a list from `k`. -/
def numbered {α : Type} : Nat → List α → List (Nat × α)
  | _, [] => []
  | k, a :: l => (k, a) :: numbered (k + 1) l

/-- The 1 ms sample of a die. -/
def Chan.sensorSample (ch : Chan) (d : Nat) (temps : List Nat) (rails : List (Nat × Nat)) : Chan :=
  let ts := temps.take 24
  let c0 := ch.runTo (nextSample (tget 0 ch.sampleAt d) 1000000)
  let c1 := { c0 with sampleAt := tput 0 c0.sampleAt d (c0.ns + 1) }.each (numbered 0 ts) (fun c e => c.tempSample d e.1 e.2)
  let c2 := c1.putN (pgSens d) SENS.TEMP_MAX (tempMax ts)
  c2.each (numbered 0 (rails.take (railsOf d))) (fun c e => c.railSample d e.1 e.2.1 e.2.2)

/-- The power of a die in 0.1 W, and its energy over the 1 ms since the last sample (R618), while its PWR page is enabled (R59). -/
def Chan.powerSample (ch : Chan) (d pw : Nat) : Chan :=
  if ch.enabled (pgPwr d) = false then ch else
  let c1 := ch.putN (pgPwr d) PWR.DIE_POWER (pw % 65536)
  let e := (if d = 0 then ch.energyFe else ch.energyTm) + pw % 65536
  let c2 := if d = 0 then { c1 with energyFe := e } else { c1 with energyTm := e }
  c2.put64 (pgPwr d) PWR.DIE_ENERGY (e / 10 % 2 ^ 64)

/-- The first sensor with a second consecutive reading at or above SHUT. -/
def shutSensor (prev base : Nat) (thresh : Nat) (temps : List Nat) : Option Nat :=
  ((numbered 0 (temps.take 24)).find? (fun e => nbit prev (base + e.1) && atLeastC e.2 thresh)).map Prod.fst

/-- A SHUT condition of a die (R584, R587): SHUTDOWN is journalled, and the channel is FATAL without power. -/
def State.shutDie (s : State) (c : Fin 4) (d which : Nat) (rail : Bool) : State :=
  let s1 := s.onKeeper c (fun ch => ch.journal (pgSens d) clsChanFatal 2 (which + b2n rail * 2 ^ 8))
  let s2 := s1.fatalChan c (if rail then 2 else 1) true
  s2.islJournal hpPwr clsNone 1 (c.val + 2 * 2 ^ 8)

/-- A SHUT condition of the package sensors: PACKAGE_FATAL (R584, R589). -/
def State.shutPackage (s : State) (which : Nat) (rail : Bool) : State :=
  (s.islJournal hpSens clsPkgFatal 2 (which + b2n rail * 2 ^ 8)).packageFatal (if rail then 2 else 1) false

/-- One temperature reading of the package SENS page. -/
def State.pkgTemp (s : State) (k v : Nat) : State :=
  let crit := s.isl.getF hpSens SENS.THRESH_CRIT
  let was := nbit s.isl.crit k
  let now := hysteresis was v crit
  let s1 := s.onIsl (fun i => i.putN hpSens (SENS.TEMP k) (2 ^ 31 + v % 65536))
  let s2 := if atLeastC v (s.isl.getF hpSens SENS.THRESH_WARN) then s1.islRaise hpSens 8 else s1
  let s3 := if atLeastC v crit then s2.islRaise hpSens 9 else s2
  let s4 := s3.onIsl (fun i => { i with
    crit := setNbit i.crit k now, shutPrev := setNbit i.shutPrev k (atLeastC v (s.isl.getF hpSens SENS.THRESH_SHUT)) })
  if now && !was && again s4.isl.critJrnl k s4.isl.ns then
    (s4.onIsl (fun i => { i with critJrnl := tput 0 i.critJrnl k (i.ns + 1) })).islJournal hpSens clsDegraded 1 (k + v % 65536 * 2 ^ 16)
  else s4

/-- One rail reading of the package SENS page. -/
def State.pkgRail (s : State) (r mv st : Nat) : State :=
  let was := nbit s.isl.railOut r
  let now := decide (st ≠ 0)
  let s1 := s.onIsl (fun i => { i.putN hpSens (SENS.VOLT r)
    (2 ^ 31 + b2n (decide (st = 1)) * 2 ^ 30 + b2n (decide (st = 2)) * 2 ^ 29 + mv % 65536) with
    railOut := setNbit i.railOut r now })
  if now && !was then (s1.islRaise hpSens 10).islJournal hpSens clsDegraded 3 (r + mv % 65536 * 2 ^ 16) else s1

/-- The input warnings from PWR_IN in mV and input power in W (R592, R615): IN_WARN on a warning that sets. -/
def State.inputWarn (s : State) (mv watts : Nat) : State :=
  let uv := s.isl.getF hpPwr PWRH.IN_CFG_UV_WARN
  let ov := s.isl.getF hpPwr PWRH.IN_CFG_OV_WARN
  let pw := s.isl.getF hpPwr PWRH.IN_CFG_P_WARN
  let b31 := decide ((uv ≠ 0 ∧ mv < uv * 1000) ∨ (5400 ≤ mv ∧ mv < 6000))
  let b30 := decide (ov ≠ 0 ∧ ov * 1000 < mv)
  let b29 := decide (pw ≠ 0 ∧ pw < watts)
  let old := s.isl.get hpPwr PWRH.IN_STAT
  let s1 := s.onIsl (fun i => i.put hpPwr PWRH.IN_STAT
    (setFld old 31 29 (b2n b31 * 4 + b2n b30 * 2 + b2n b29)))
  if (b31 && !(bit old 31)) || (b30 && !(bit old 30)) || (b29 && !(bit old 29)) then
    (s1.islRaise hpPwr 9).islJournal hpPwr clsDegraded 4 (b2n b31 * 4 + b2n b30 * 2 + b2n b29 + mv * 2 ^ 32)
  else s1

/-- SENSOR_SAMPLE (R584): a die's sensors and rails (die 0 FE, 1 TM), or the package's (die 2) with PWR_IN in mV, input
current in mA and input power in W. For a die, `pw` is its power in 0.1 W. The next sample comes 1 ms after this one at the earliest. -/
def execSensorSample (c : Fin 4) (die : Fin 3) (temps : List Nat) (rails : List (Nat × Nat)) (mv ma pw : Nat) (s : State) :
    Host.Outcome State Fault Refusal :=
  .next (if die.val = 2 then
      if s.isl.pwrgood && s.isl.getB hpSens CTRL_ENABLE then
        let hit := shutSensor s.isl.shutPrev 0 (s.isl.getF hpSens SENS.THRESH_SHUT) temps
        let ts := temps.take 24
        let s0 := s.onIsl (fun i =>
          let n := max i.ns (nextSample i.sampleAt 1000000)
          { i with ns := n, sampleAt := n + 1 })
        let s1 := (numbered 0 ts).foldl (fun t e => t.pkgTemp e.1 e.2) s0
        let s2 := s1.onIsl (fun i => i.putList hpSens (SENS.PKG 0) [mv, ma, pw])
        let s3 := s2.onIsl (fun i => i.putN hpSens SENS.TEMP_MAX (tempMax ts))
        let s4 := (numbered 0 (rails.take 16)).foldl (fun t e => t.pkgRail e.1 e.2.1 e.2.2) s3
        let s5 := if s4.isl.getB hpPwr CTRL_ENABLE then s4.inputWarn mv pw else s4
        match hit with
        | some k => s5.shutPackage k false
        | none => s5
      else s
    else if s.chPages c && (s.chan c).enabled (pgSens die.val) then
      let ch := s.chan c
      let hit := shutSensor ch.shutPrev (32 * die.val) (ch.getF (pgSens die.val) SENS.THRESH_SHUT) temps
      let s1 := s.onPages c (fun ch => (ch.sensorSample die.val temps rails).powerSample die.val pw)
      match hit with
      | some k => s1.shutDie c die.val k false
      | none => s1
    else s)

/-- RAIL_SHUTDOWN (R584): a rail outside ±10 % for 100 µs, handled as SHUT. -/
def execRailShutdown (c : Fin 4) (die : Fin 3) (rail : Nat) (s : State) : Host.Outcome State Fault Refusal :=
  .next (if die.val = 2 then (if s.isl.pwrgood then s.shutPackage rail true else s)
    else if s.chPages c then s.shutDie c die.val rail true else s)

/-- OSC_THERM_SAMPLE (R609), every 100 ms: a reading beyond −55 °C or +125 °C is not VALID. -/
def execOscThermSample (c : Fin 4) (reading : Nat) (s : State) : Host.Outcome State Fault Refusal :=
  .next (s.onLive c (fun ch =>
    let ok := decide (-880 ≤ toSigned reading 16 ∧ toSigned reading 16 ≤ 2000)
    if ch.enabled (pgPwr 0) = false then ch
    else
      let c1 := ch.runTo (nextSample (tget 0 ch.sampleAt 2) 100000000)
      { c1 with sampleAt := tput 0 c1.sampleAt 2 (c1.ns + 1) }.putN (pgPwr 0) PWR.OSC_THERM (b2n ok * 2 ^ 31 + reading % 65536)))

/-- CH0_FE_DIE_FAILURE (R24): PCIe, JTAG and SMBus stop; the other channels go on and drop what is bound for the host. -/
def execCh0FeDieFailure (s : State) : Host.Outcome State Fault Refusal :=
  .next (s.onIsl (fun i => { i with dead := true, l0 := false }))

end Sys2Proof.Machine
end

