-- ==== Sys2Proof/Machine/Relay.lean ====
section
/-! DEFINITION. The relay links of channels 1–3 (R22, R23, R25, R26). -/

namespace Sys2Proof.Machine

/-- Does the channel have a relay link at work (R26, R59)? -/
def State.hasRelay (s : State) (c : Fin 4) : Bool :=
  s.hasChan c && decide (c.val ≠ 0) && s.isl.pwrgood && !s.isl.dead && s.isl.getB hpRelay CTRL_ENABLE

/-- RELAY.LINK_STAT c.STATE. -/
def State.relayState (s : State) (c : Fin 4) : Nat := s.isl.getF hpRelay (RELAY.LINK_STAT_STATE c.val)

/-- An event of the RELAY page in channel 0's journal, and the loss in the journal of the channel behind the link (R23, R26). -/
def State.relayJournal (s : State) (c : Fin 4) (cls ev detail : Nat) (both : Bool) : State :=
  let s1 := s.islJournal hpRelay cls ev detail
  if both then
    s1.onLive c (fun ch => ch.jrnlRaw (jrnlEntry ch.t64 ch.quality (15 * 2 ^ 12 + hpRelay) cls ev detail))
  else s1

/-- A link goes DOWN (R25): state and cause, DOWN_CNT, the capture, LINK_DOWN, and the journals. -/
def State.relayDown (s : State) (c : Fin 4) (cause : Nat) : State :=
  let s1 := s.onIsl (fun i =>
    { (i.putN hpRelay (RELAY.LINK_STAT c.val) (2 * 2 ^ 30 + cause)).inc hpRelay (RELAY.DOWN_CNT c.val) with
      relayRun := tput 0 i.relayRun c.val 0, relayAt := tput 0 i.relayAt c.val i.ns })
  ((s1.islCapture hpRelay clsDegraded 8 c.val cause 0).islRaise hpRelay 8).relayJournal c clsDegraded 1 (c.val + cause * 256) true

/-- RELAY_FLIT_RX (R25): a flit whose CRC fails is asked for again; one that fails 8 replays in a row takes the link down. -/
def execRelayFlitRx (c : Fin 4) (crcOk : Bool) (s : State) : Host.Outcome State Fault Refusal :=
  .next (if s.hasRelay c && s.relayState c == 1 then
      if crcOk then s.onIsl (fun i => { i with relayRun := tput 0 i.relayRun c.val 0 })
      else
        let n := tget 0 s.isl.relayRun c.val
        if n < 8 then
          let was := s.isl.nat hpRelay (RELAY.REPLAY_CNT c.val)
          let s1 := s.onIsl (fun i =>
            { i.inc hpRelay (RELAY.REPLAY_CNT c.val) with relayRun := tput 0 i.relayRun c.val (n + 1) })
          if was = 0 then s1.islRaise hpRelay 10 else s1
        else s.relayDown c 1
    else s)

/-- The link begins to train. -/
def State.relayTrain (s : State) (c : Fin 4) : State := s.onIsl (fun i => i.putF hpRelay (RELAY.LINK_STAT_STATE c.val) 0)

/-- RELAY_AUTO_RETRAIN (R25): with AUTO = 1 a DOWN link is retrained every 100 ms, from the instant it went DOWN. -/
def execRelayAutoRetrain (c : Fin 4) (s : State) : Host.Outcome State Fault Refusal :=
  .next (if s.hasRelay c && s.relayState c == 2 && s.isl.getB hpRelay (RELAY.LINK_CTRL_AUTO c.val) then
      (s.onIsl (fun i => { i with ns := max i.ns (tget 0 i.relayAt c.val + 100000000) })).relayTrain c
    else s)

/-- A write of RELAY.LINK_CTRL: AUTO is stored, and RETRAIN = 1 retrains the link, in any of its states and whatever AUTO holds: R25 names
the write for a link that is DOWN with AUTO = 0, and says nothing of the others (DESIGN CHOICE, log 45). -/
def relayCtrlHook (c : Fin 4) : IslHook := fun p off _ v m s =>
  let s1 := s.onIsl (fun i => i.put p off m)
  if bit v 30 then s1.relayTrain c else s1

/-- RELAY_RETRAIN (R25). -/
def execRelayRetrain (r : Req) (c : Fin 4) (v : Word) (s : State) : Host.Outcome State Fault Refusal :=
  .next (s.islWrite (relayCtrlHook c) r hpRelay (RELAY.LINK_CTRL c.val) v)

/-- RELAY_RETRAIN_DONE (R25): the link reads UP, or DOWN with TRAIN_FAIL. The first UP after a reset raises LINK_UP and is journalled too
(R26 says 'returns to UP'; DESIGN CHOICE, log 45). -/
def execRelayRetrainDone (c : Fin 4) (ok : Bool) (s : State) : Host.Outcome State Fault Refusal :=
  .next (if s.hasRelay c && s.relayState c == 0 then
      if ok then
        ((s.onIsl (fun i => i.putF hpRelay (RELAY.LINK_STAT_STATE c.val) 1)).islRaise hpRelay 9).relayJournal c clsNone 2 c.val false
      else s.relayDown c 3
    else s)

/-- RELAY_ALIGNMENT_LOSS (R25). -/
def execRelayAlignmentLoss (c : Fin 4) (s : State) : Host.Outcome State Fault Refusal :=
  .next (if s.hasRelay c && s.relayState c == 1 then s.relayDown c 2 else s)

end Sys2Proof.Machine
end

