-- ==== Sys2Proof/Machine/Test.lean ====
section
/-! DEFINITION. Pattern and bank tests, BIST and the buffer dump (R565–R577), and the lane repair of the Phota bridge and the Saucer
link (R578–R582). -/

namespace Sys2Proof.Machine

/-! Starting a test (R565–R570). -/

/-- The target exists on the die (R565). -/
def targetOk (die kind idx : Nat) : Bool :=
  (kind == 0 && die == 0 && decide (idx < 32)) || (kind == 1 && die == 1 && decide (idx < 48))
    || (kind == 2 && decide (die < 2) && decide (idx < 544)) || (kind == 3 && die == 0 && decide (idx < 128))
    || (kind == 4 && die == 0 && decide (idx < 68))

/-- Lane rate in Mb/s of a port's lanes, 0 for a lane that no port holds. -/
def Chan.laneRate (ch : Chan) (l : Nat) : Nat :=
  match ch.laneOwner l with
  | some p => speedMb (ch.portF p LINE.PORT_CFG_SPEED) / lanesOf (ch.portF p LINE.PORT_CFG_LANES)
  | none => 0

/-- The pattern may be used on the target (R566). -/
def Chan.patternOk (ch : Chan) (kind idx pat : Nat) : Bool :=
  if pat < 6 then decide (kind < 3) || (kind == 3 && decide (4 ≤ pat))
  else if pat = 6 then (kind == 0 && decide (50000 ≤ ch.laneRate idx)) || kind == 1
  else if pat = 7 then decide (kind < 3)
  else decide (pat < 10) && kind == 4

/-- Slots that a client ID holds in the transmit calendar in use. -/
def Chan.txSlots (ch : Chan) (g id : Nat) : Nat := (allBelow (ch.slotCount g) (fun j => ch.txCal g (ch.txLetter g) j == id)).length

/-- A FlexE client that is not in use can be tested (R569). -/
def Chan.clientOk (ch : Chan) (n : Nat) : Bool :=
  let g := ch.getF pgFlex (FLEX.CLIENT_CFG_GROUP n)
  !(ch.getB pgFlex (FLEX.CLIENT_CFG_MODE n)) && ch.grpState g == 3
    && ch.txSlots g (ch.getF pgFlex (FLEX.CLIENT_CFG_CLIENT_ID n)) != 0

/-- MOD_STAT.STATE of a bridge module (R582): 0 FULL, 1 HALF, 2 DOWN. -/
def Chan.modState (ch : Chan) (m : Nat) : Nat := ch.getF (pgBrdg 0) (BRDG.MOD_STAT_STATE m)

/-- A data lane carries data (R570, R579). -/
def Chan.laneCarries (ch : Chan) (dir m l : Nat) : Bool :=
  let b := ch.brDir dir m
  let hi := ch.getB (pgBrdg 0) (BRDG.MOD_STAT_HALF_HI m)
  !(b.sub.any (fun e => e.2 == l)) && !(b.bad.contains l)
    && (ch.modState m == 0 || (ch.modState m == 1 && (if hi then decide (32 ≤ l) else decide (l < 32))))

/-- A free redundant lane that is not under test; which of them is a free value (R578, log 6). -/
def Chan.freeLane (ch : Chan) (dir m : Nat) : Option Nat :=
  pickOf (ch.freeVal 32) ((ch.brDir dir m).free.filter (fun r => !(ch.testing (testKey dir 2 (m * 68 + r)))))

/-- The target is in use, and the REFUSE code of a START there (R570). -/
def Chan.testUse (ch : Chan) (die kind idx : Nat) : Option Nat :=
  if kind = 0 then
    match ch.laneOwner idx with
    | some p => if ch.portF p LINE.PORT_STAT_STATE = 3 ∧ ch.takeover p = false then some 1 else none
    | none => none
  else if kind = 1 then
    if (ch.fabState idx = 3 ∨ ch.fabState idx = 4) ∧ ch.getB pgFab CTRL_TAKEOVER = false then some 1 else none
  else if kind = 2 then
    let l := idx % 68
    if 64 ≤ l then (if (ch.brDir die (idx / 68)).sub.any (fun e => e.1 == l) then some 4 else none)
    else if ch.laneCarries die (idx / 68) l ∧ (ch.freeLane die (idx / 68)).isNone then some 4 else none
  else if kind = 3 then (if ch.getB pgFlex (FLEX.CLIENT_CFG_EN idx) then some 3 else none)
  else if ch.bankState idx = 4 ∨ ch.bankState idx = 0 then none else some 5

/-- The resource was in use, and the test takes it under TEST_TAKEOVER. -/
def Chan.takesLive (ch : Chan) (kind idx : Nat) : Bool :=
  if kind = 0 then (match ch.laneOwner idx with | some p => ch.portF p LINE.PORT_STAT_STATE == 3 | none => false)
  else kind == 1 && (ch.fabState idx == 3 || ch.fabState idx == 4)

/-- FAB PAGE_STAT.TEST_ACTIVE (R57). -/
def Chan.fabTestStat (ch : Chan) : Chan :=
  ch.putB pgFab STAT_TEST_ACTIVE (ch.tests.any (fun e => keyKind e.1 == 1 && e.2.st == 2 && e.2.live))

/-- A fabric lane is taken for a test (R483): its queue drains first, so that no cell is lost. -/
def Chan.fabTestStart (ch : Chan) (l : Nat) : Chan :=
  if ch.fabState l = 0 then ch
  else
    let x := ch.fabLane l
    let t := x.txq.foldl (fun n y => n + ch.cellTime l y) x.wireAt
    let c1 := if x.txq.isEmpty then ch else (ch.runTo (ceilDiv t 6000)).drainLane l
    c1.fabDown l 5 (some 3) 0

/-- What starting a test does to its target (R218, R483, R570). -/
def Chan.targetStart (ch : Chan) (die kind idx : Nat) : Chan :=
  if kind = 0 then
    match ch.laneOwner idx with
    | some p => if (ch.pw p).op = 0 then (ch.portOp p 3).1 else ch
    | none => ch
  else if kind = 1 then (ch.fabTestStart idx).fabTestStat
  else if kind = 2 ∧ idx % 68 < 64 ∧ ch.laneCarries die (idx / 68) (idx % 68) then
    match ch.freeLane die (idx / 68) with
    | some r => ch.takeFree.putBrDir die (idx / 68) { ch.brDir die (idx / 68) with sub := (ch.brDir die (idx / 68)).sub ++ [(r, idx % 68)] }
    | none => ch
  else ch

/-- A test starts (R567, R577): its counters return to 0. -/
def Chan.testBegin (ch : Chan) (die kind idx : Nat) : Chan :=
  let k := testKey die kind idx
  let x := ch.test k
  let c1 := ch.putTest k { cfg := x.cfg, st := 2, since := ch.ns, live := ch.takesLive kind idx }
  (c1.targetStart die kind idx).journal (pgTest die) clsNone 1 (kind + idx * 2 ^ 16 + fld x.cfg 19 16 * 2 ^ 32)

/-- A START that is refused (R570, R576). -/
def Chan.testRefuse (ch : Chan) (die k code : Nat) : Chan :=
  (ch.putTest k { ch.test k with st := 5, refuse := code }).raise (pgTest die) 10

/-- START on a target (R566, R569, R570). -/
def Chan.testStart (ch : Chan) (die kind idx : Nat) : Chan :=
  let k := testKey die kind idx
  let x := ch.test k
  if targetOk die kind idx = false then ch.testRefuse die k 3
  else if x.st = 1 ∨ x.st = 2 then (ch.putTest k { x with refuse := 2 }).raise (pgTest die) 10
  else if ch.patternOk kind idx (fld x.cfg 19 16) = false then ch.testRefuse die k 6
  else match ch.testUse die kind idx with
    | some code => if bit x.cfg 31 then ch.putTest k { x with st := 1, refuse := 0 } else ch.testRefuse die k code
    | none => if kind = 3 ∧ ch.clientOk idx = false then ch.testRefuse die k 3 else ch.testBegin die kind idx

/-! Ending a test and its counters (R567, R570). -/

/-- Bits compared and errors found since the last report, while the checker is locked (R567); 48 bits. -/
def Chan.testCount (ch : Chan) (k bits errs : Nat) : Chan :=
  let x := ch.test k
  if x.st = 2 ∧ x.lock = true then
    let ovf := decide (2 ^ 48 ≤ x.bits + bits) || decide (2 ^ 48 ≤ x.err + errs)
    let c1 := ch.putTest k { x with
      bits := if x.bits + bits < 2 ^ 48 then x.bits + bits else ch.freeVal 48
      err := if x.err + errs < 2 ^ 48 then x.err + errs else ch.takeFree.freeVal 48 }
    if ovf then c1.takeFree.takeFree else c1
  else ch

/-- A running test ends, and its target returns to work (R218, R481, R570). -/
def Chan.testStop (ch : Chan) (k st : Nat) : Chan :=
  let idx := keyIndex k
  if ch.testing k = false then ch
  else
    let c1 := ch.testEnd k st
    if keyKind k = 0 then
      match c1.laneOwner idx with
      | some p =>
        let op := (c1.pw p).op
        if (op = 4 ∨ op = 8) ∧ (c1.lanesOfPort p).all (fun l => !(c1.testing (testKey 0 0 l))) then c1.opEnd p (st == 4) else c1
      | none => c1
    else if keyKind k = 1 then
      let go := c1.getB pgFab (FAB.LANE_CFG_EN idx) && !(c1.getB pgFab (FAB.LANE_CFG_PD idx))
      (if c1.fabState idx = 5 then (c1.setFabState idx (b2n go)).fabSettle else c1).fabTestStat
    else c1

/-- The target that TEST.SEL of a die names. -/
def Chan.selKey (ch : Chan) (die : Nat) : Nat :=
  testKey die (ch.getF (pgTest die) TEST.SEL_KIND) (ch.getF (pgTest die) TEST.SEL_INDEX)

/-- INJECT inverts one generated bit, which a locked checker counts (R567). -/
def Chan.testInject (ch : Chan) (k : Nat) : Chan :=
  let x := ch.test k
  if x.st = 2 ∧ x.lock = true ∧ bit x.cfg 28 = true then ch.testCount k 0 1 else ch

/-- A write of TEST.CTRL on the target in SEL (R574): START, STOP, CLEAR and INJECT in this order; `bits` and `errs` are what the checker
compared since the last report. -/
def testCtrlHook (die bits errs : Nat) : Hook := fun w ch =>
  let k := ch.selKey die
  let c1 := if bit w.v 0 && ch.enabled (pgTest die) then ch.testStart die (ch.getF (pgTest die) TEST.SEL_KIND) (ch.getF (pgTest die) TEST.SEL_INDEX) else ch
  let c2 := if bit w.v 1 then (c1.testCount k bits errs).testStop k 4 else c1
  let c3 := if bit w.v 2 then c2.putTest k { c2.test k with bits := 0, err := 0, loss := 0 } else c2
  if bit w.v 3 then c3.testInject k else c3

/-- A write of TEST.CTRL. -/
def State.testCtrl (s : State) (r : Req) (c : Fin 4) (die : Fin 2) (v bits errs : Nat) : State :=
  s.chanWrite (testCtrlHook die.val bits errs) true r c (pgTest die.val) TEST.CTRL (BitVec.ofNat 32 v)

/-- TEST_START (R570). -/
def execTestStart (r : Req) (c : Fin 4) (die : Fin 2) (s : State) : Host.Outcome State Fault Refusal := .next (s.testCtrl r c die 1 0 0)

/-- TEST_STOP (R567). -/
def execTestStop (r : Req) (c : Fin 4) (die : Fin 2) (bits errs : Nat) (s : State) : Host.Outcome State Fault Refusal :=
  .next (s.testCtrl r c die 2 bits errs)

/-- TEST_CLEAR (R567). -/
def execTestClear (r : Req) (c : Fin 4) (die : Fin 2) (s : State) : Host.Outcome State Fault Refusal := .next (s.testCtrl r c die 4 0 0)

/-- TEST_INJECT (R567). -/
def execTestInject (r : Req) (c : Fin 4) (die : Fin 2) (s : State) : Host.Outcome State Fault Refusal := .next (s.testCtrl r c die 8 0 0)

/-- A write of TEST.SEL (R574): the target's readout is loaded. -/
def testSelHook (die bits errs : Nat) : Hook := fun w ch =>
  let c1 := ch.put w.p w.off w.merged
  c1.testCount (c1.selKey die) bits errs

/-- TEST_SEL_WRITE (R574). -/
def execTestSelWrite (r : Req) (c : Fin 4) (die : Fin 2) (v : Word) (bits errs : Nat) (s : State) : Host.Outcome State Fault Refusal :=
  .next (s.chanWrite (testSelHook die.val bits errs) true r c (pgTest die.val) TEST.SEL v)

/-- A write of TEST.CFG: the target's (R574). -/
def testCfgHook (die : Nat) : Hook := fun w ch =>
  ch.putTest (ch.selKey die) { ch.test (ch.selKey die) with cfg := w.merged }

/-- PENDING_TEST_START (R570): the target of a PENDING test is no longer in use. -/
def execPendingTestStart (c : Fin 4) (die : Fin 2) (kind idx : Nat) (s : State) : Host.Outcome State Fault Refusal :=
  .next (s.onLive c (fun ch =>
    let k := testKey die.val kind idx
    if ch.enabled (pgTest die.val) && targetOk die.val kind idx && (ch.test k).st == 1 && (ch.testUse die.val kind idx).isNone then
      if kind = 3 ∧ ch.clientOk idx = false then ch.testRefuse die.val k 3 else ch.testBegin die.val kind idx
    else ch))

/-- TEST_DURATION_END (R567): DURATION seconds of COSY.LOCAL have passed. -/
def execTestDurationEnd (c : Fin 4) (die : Fin 2) (kind idx bits errs : Nat) (s : State) : Host.Outcome State Fault Refusal :=
  .next (s.onLive c (fun ch =>
    let k := testKey die.val kind idx
    let x := ch.test k
    let d := fld x.cfg 15 0
    if targetOk die.val kind idx && x.st == 2 && decide (d ≠ 0) && kind != 4 then
      ((ch.runTo (x.since + d * 1000000000)).testCount k bits errs).testStop k 3
    else ch))

/-- CHECKER_LOCKED (R567): 64 consecutive error-free bits; the checker is on, and LOOPBACK is not FAR (R568). -/
def execCheckerLocked (c : Fin 4) (die : Fin 2) (kind idx : Nat) (s : State) : Host.Outcome State Fault Refusal :=
  .next (s.onLive c (fun ch =>
    let k := testKey die.val kind idx
    let x := ch.test k
    if x.st == 2 && bit x.cfg 27 && kind != 4 && !(decide (kind < 2) && decide (fld x.cfg 30 29 = 2)) then
      ch.putTest k { x with lock := true }
    else ch))

/-- CHECKER_LOCK_LOSS (R567): 32 errors within 64 bits. -/
def execCheckerLockLoss (c : Fin 4) (die : Fin 2) (kind idx bits errs : Nat) (s : State) : Host.Outcome State Fault Refusal :=
  .next (s.onLive c (fun ch =>
    let k := testKey die.val kind idx
    if (ch.test k).st == 2 && (ch.test k).lock then
      let c1 := ch.testCount k bits errs
      (c1.putTest k { c1.test k with lock := false, loss := satAdd 32 (c1.test k).loss 1 }).raise (pgTest die.val) 9
    else ch))

/-- BANK_TEST_DONE (R571). -/
def execBankTestDone (c : Fin 4) (bank failLines : Nat) (s : State) : Host.Outcome State Fault Refusal :=
  .next (s.onLive c (fun ch =>
    if bank < 68 ∧ ch.bankTested bank = true then
      (ch.putTest (testKey 0 4 bank) { ch.test (testKey 0 4 bank) with fail := min failLines 65535 }).testStop (testKey 0 4 bank) 3
    else ch))

/-- TEST_TAKEOVER of a page has been cleared (R218, R570): the recalibrations and tests that run under it end STOPPED. -/
def Chan.takeoverCleared (ch : Chan) (p : Pg) : Chan :=
  let mine := fun (k : Nat) =>
    if keyKind k = 0 then
      (match ch.laneOwner (keyIndex k) with
        | some q => (ch.pw q).op == 4 && (ch.instsOf q).any (fun i => pgLine i == p)
        | none => false)
    else keyKind k == 1 && p == pgFab && (ch.test k).live
  let recal := allBelow 32 (fun q => (ch.pw q).op == 1 && (ch.instsOf q).any (fun i => pgLine i == p))
  (ch.each (ch.running.filter mine) (fun c k => c.testStop k 4)).each recal (fun c q => c.opEnd q true)

/-- SOFT_RESET of the TEST page of a die (R570): every test stops and every PENDING start is cleared. -/
def Chan.testReset (ch : Chan) (die : Nat) : Chan :=
  let c1 := ch.each (ch.running.filter (fun k => keyDie k == die)) (fun c k => c.testStop k 4)
  let c2 := c1.each ((c1.tests.filter (fun e => keyDie e.1 == die && e.2.st == 1)).map Prod.fst) (fun c k =>
    c.putTest k { c.test k with st := 0 })
  c2.softResetRegs (pgTest die)

/-- What the TEST page of a die shows of the target in SEL (R574–R576). -/
def Chan.testView (ch : Chan) (die off : Nat) : Option Nat :=
  let x := ch.test (ch.selKey die)
  if off = TEST.CFG then some x.cfg.toNat
  else if off = TEST.STAT then some (x.st * 2 ^ 29 + b2n x.lock * 2 ^ 28 + x.refuse * 2 ^ 16 + x.fail)
  else if off = TEST.BITS then some (x.bits % 2 ^ 32)
  else if off = TEST.BITS + 4 then some (x.bits / 2 ^ 32)
  else if off = TEST.ERR then some (x.err % 2 ^ 32)
  else if off = TEST.ERR + 4 then some (x.err / 2 ^ 32)
  else if off = TEST.LOCK_LOSS then some x.loss
  else none

/-! The bridge (R578–R582). -/

/-- Data lanes of a module in need of repair, in both directions (R579). -/
def Chan.unrepaired (ch : Chan) (m : Nat) : List Nat :=
  let of := fun (b : BrDir) => b.bad.filter (fun l => decide (l < 64) && !(b.sub.any (fun e => e.2 == l)))
  of (ch.brDir 0 m) ++ of (ch.brDir 1 m)

/-- MOD_STAT of a module (R579, R582). -/
def Chan.modStat (ch : Chan) (m : Nat) : Nat :=
  let u := ch.unrepaired m
  let lo := u.any (fun l => decide (l < 32))
  let hi := u.any (fun l => decide (32 ≤ l))
  let st := if lo && hi then 2 else if lo || hi then 1 else 0
  st * 2 ^ 30 + b2n (lo && !hi) * 2 ^ 29 + (ch.brDir 0 m).free.length * 2 ^ 4 + (ch.brDir 1 m).free.length

/-- Capacity per direction, Gb/s (R579). -/
def Chan.brCap (ch : Chan) : Nat :=
  (List.range 8).foldl (fun n m => n + (if ch.modState m = 0 then 2048 else if ch.modState m = 1 then 1024 else 0)) 0

/-- Both BRDG pages show the modules and the capacity (R582). -/
def Chan.brdgSync (ch : Chan) : Chan :=
  let c1 := ch.each (List.range 8) (fun c m =>
    (c.putN (pgBrdg 0) (BRDG.MOD_STAT m) (ch.modStat m)).putN (pgBrdg 1) (BRDG.MOD_STAT m) (ch.modStat m))
  (c1.putN (pgBrdg 0) BRDG.CAP c1.brCap).putN (pgBrdg 1) BRDG.CAP c1.brCap

/-- Both BRDG pages raise a cause. -/
def Chan.brdgRaise (ch : Chan) (b : Nat) : Chan := (ch.raise (pgBrdg 0) b).raise (pgBrdg 1) b

/-- A module's state changed: MOD_HALF or MOD_DOWN, DEGRADED, and the channel's end with the last module (R579, R582). -/
def Chan.modSettle (ch : Chan) (m : Nat) : Chan :=
  let was := ch.modState m
  let c1 := ch.brdgSync
  let now := c1.modState m
  if now = was then c1
  else
    let c2 := (c1.setDegraded (pgBrdg 0) true).setDegraded (pgBrdg 1) true
    let all := (List.range 8).all (fun i => c2.modState i == 2)
    let c3 := (c2.brdgRaise (if now = 2 then 10 else 9)).journal (pgBrdg 0) (if all then clsChanFatal else clsDegraded)
      (if now = 2 then 3 else 2) (m + c2.brCap * 2 ^ 32)
    if all then c3.emit (.fatal 3) else c3

/-- A lane of a bridge module needs repair (R578, R579, R591). -/
def Chan.laneRepair (ch : Chan) (dir m lane : Nat) : Chan :=
  let b := ch.brDir dir m
  if b.bad.contains lane ∨ ch.modState m = 2 then ch
  else
    let data := if lane < 64 then some lane else (b.sub.find? (fun e => e.1 == lane)).map Prod.snd
    let b1 : BrDir := { sub := b.sub.filter (fun e => e.1 != lane), bad := b.bad ++ [lane] }
    let c1 := ch.putBrDir dir m b1
    match data with
    | none => c1.brdgSync
    | some d =>
      if b1.sub.any (fun e => e.2 == d) then c1.brdgSync
      else
        let free := match c1.freeLane dir m with
          | some r => some r
          | none => pickOf (c1.freeVal 32) b1.free
        match free with
        | some r =>
          let key := testKey dir 2 (m * 68 + r)
          let c2 := if c1.testing key then c1.testEnd key 4 else c1
          let c3 := (c2.takeFree.putBrDir dir m { b1 with sub := b1.sub ++ [(r, d)] }).inc (pgBrdg dir) BRDG.REPAIR_CNT
          ((c3.brdgSync).raise (pgBrdg dir) 8).journal (pgBrdg dir) clsCorrected 1 (m + lane * 2 ^ 8 + r * 2 ^ 16 + dir * 2 ^ 24)
        | none => c1.modSettle m

/-- LANE_REPAIR (R578): a lane of direction `dir` (0 FE to TM) has reached LANE_ERR_LIMIT, or failed training. -/
def execLaneRepair (c : Fin 4) (dir : Fin 2) (m lane : Nat) (s : State) : Host.Outcome State Fault Refusal :=
  .next (if s.chPages c && s.chState c != 6 && decide (m < 8) && decide (lane < 68) then
      s.runChan c (fun ch => ch.laneRepair dir.val m lane)
    else s)

/-- SAUCER_LANE_FAIL (R581): lanes 0 and 1 of one direction, 2 and 3 of the other; a direction without a lane takes the link down. -/
def execSaucerLaneFail (c : Fin 4) (lane : Nat) (s : State) : Host.Outcome State Fault Refusal :=
  .next (s.onKeeper c (fun ch =>
    let old := ch.nat (pgBrdg 0) BRDG.SAUCER
    if nbit old lane && decide (lane < 4) then
      let new := setNbit old lane false
      let c1 := ((ch.putN (pgBrdg 0) BRDG.SAUCER new).putN (pgBrdg 1) BRDG.SAUCER new).journal (pgBrdg 0) clsDegraded 4 lane
      if new % 4 = 0 ∨ new / 4 = 0 then c1.saucerSet false else c1
    else ch))

/-! BIST (R572). -/

/-- PAGE_STAT.FAULT of a page with an array that could not be repaired. -/
def Chan.bistFault (ch : Chan) (p : Pg) : Chan := (ch.putF p STAT_FAULT 1).raise p 0

/-- A table bank that BIST could not repair is RETIRED, and the lowest spare fills in for it (R404, R405, R572). -/
def Chan.bistBank (ch : Chan) (b : Nat) : Chan :=
  let was := ch.bankState b
  let c1 := ch.putF pgTbl (TBL.BANK_STAT_STATE b) 5
  match c1.spareBank with
  | some d => if was = 1 then c1.putF pgTbl (TBL.BANK_STAT_STATE d) 1 else c1
  | none => c1

/-- The outcome of a die's BIST (R572, R574, R577). -/
def Chan.bist (ch : Chan) (die : Nat) (b : BistIn) : Chan :=
  let fe := decide (die = 0)
  let banks := if fe then allBelow 68 (fun i => nbit b.banks i) else []
  let clus := if fe then allBelow 16 (fun i => nbit b.clusters i) else []
  let pipes := if fe then allBelow 12 (fun i => nbit b.pipes i) else []
  let pass := banks.isEmpty && clus.isEmpty && pipes.isEmpty && !b.keeper && !b.other
  let c1 := { ch with bistDone := setNbit ch.bistDone die true }.putN (pgTest die) TEST.BIST_STAT
    (2 ^ 31 + b2n pass * 2 ^ 30 + (if pass then 0xFFFF else b.first % 2 ^ 16))
  let c2 := ((c1.each banks Chan.bistBank).each clus (fun c i => c.bistFault (pgPclu i))).each pipes (fun c i => c.bistFault (pgStrn i))
  let c3 := if b.keeper then c2.putKeeper die { c2.keeper die with sramBad := true } else c2
  if pass then c3
  else (c3.raise (pgTest die) 11).journal (pgTest die) (if b.other then clsChanFatal else clsDegraded) 3 (b.first % 2 ^ 16)

/-- BIST_DONE (R572, R598): a die's BIST completes; after both dies' the channel reads WAIT_FW, unless an array outside R572's list
has made it CHANNEL_FATAL. -/
def execBistDone (c : Fin 4) (die : Fin 2) (b : BistIn) (s : State) : Host.Outcome State Fault Refusal :=
  .next (if s.hasChan c && s.chState c == 2 && !(nbit (s.chan c).bistDone die.val) then
      let s1 := s.runChan c (fun ch => ch.bist die.val b)
      if b.other then s1.fatalJournalled c 3
      else if (s1.chan c).bistDone = 3 then (s1.runChan c Chan.brdgSync).setChState c.val 3
      else s1
    else s)

/-! The buffer dump (R416, R417, R573). -/

/-- The queue number that a buffer header holds (R417): `none` for a queue that the field cannot name. -/
def queueWord (q : Nat) : Option Nat := if q < 0x80000 then some q else if q < 0x100000 then none else some (q - 0x100000 + 2 ^ 23)

/-- The 32-byte buffer header (R417). -/
def Chan.bufHeader (ch : Chan) (b : Buf) (h : Nat) : List Byte :=
  let ents := (ch.que (b.queue - 1)).ents.dropWhile (fun e => e.handle != h)
  let next := match ents.drop 1 with
    | e :: _ => e.handle
    | [] => 0xFFFFFFFF
  let bs := leBytes 8 b.enqTime ++ leBytes 6 b.enqLocal ++ leBytes 2 b.pkt.len ++ leBytes 4 next
    ++ leBytes 4 ((queueWord (b.queue - 1)).getD 0) ++ leBytes 2 b.owner ++ leBytes 2 0
  bs ++ leBytes 4 (crc32c bs)

/-- Word `i` of the dump at an offset of the stored packet: a free value where the spec fixes none. -/
def Chan.dumpWord (ch : Chan) (h off : Nat) (bad : Bool) (i : Nat) : Chan :=
  let b := ch.buf h
  let o := off + 4 * i
  let stored := ch.bufHeader b h ++ sliceBytes b.pkt.ctx 0 64 ++ b.pkt.bytes
  let noQueue := b.queue == 0 || (queueWord (b.queue - 1)).isNone
  let open_ := bad || decide (stored.length < o + 4) || (b.queue == 0 && decide (o < 32)) || (noQueue && (o == 20 || o == 28))
  if open_ then (ch.putN (pgTest 1) (TEST.DUMP_DATA i) (ch.freeVal 32)).takeFree
  else ch.putN (pgTest 1) (TEST.DUMP_DATA i) (leAt stored o 4)

/-- A write of TEST.DUMP_CTRL (R573). -/
def dumpHook : Hook := fun w ch =>
  let off := fld w.v 13 0
  let h := ch.nat (pgTest 1) TEST.DUMP_HANDLE
  if off % 64 ≠ 0 then ch.rejectWrite w.p w.off
  else
    let c1 := ch.put w.p w.off w.merged
    if bit w.v 31 = false ∨ ch.enabled (pgTest 1) = false then c1
    else if handleOk h = false then c1.putN (pgTest 1) TEST.DUMP_STAT (2 ^ 30 + 2)
    else if (c1.buf h).inUse = false then c1.putN (pgTest 1) TEST.DUMP_STAT (2 ^ 30 + 1)
    else
      let bad := (c1.buf h).poison.any (fun x => decide (off ≤ x) && decide (x < off + 64)) || (decide (off = 0) && (c1.buf h).hdrBad)
      (c1.each (List.range 16) (fun c i => c.dumpWord h off bad i)).putN (pgTest 1) TEST.DUMP_STAT (2 ^ 30 + (if bad then 3 else 0))

/-- DUMP (R573). -/
def execDump (r : Req) (c : Fin 4) (off : Nat) (s : State) : Host.Outcome State Fault Refusal :=
  .next (s.chanWrite dumpHook true r c (pgTest 1) TEST.DUMP_CTRL (BitVec.ofNat 32 (2 ^ 31 + off % 2 ^ 14)))

end Sys2Proof.Machine
end

