-- ==== Sys2Proof/Machine/View.lean ====
section
/-! DEFINITION. What a read of a channel register returns where the word is not simply the stored one (R53–R63, R72 and the register
tables of the chapters), and the read-to-clear fields that live outside the registers (R6). -/

namespace Sys2Proof.Machine

/-- DISP.STATUS (R290): FREE threads of each pool, over the engines that may take a packet. -/
def Chan.dispStatus (ch : Chan) : Nat :=
  let es := allBelow 256 ch.engOpen
  let n := fun (eg : Bool) => es.foldl (fun a e => a + (ch.freeIn eg e).length) 0
  n true * 2 ^ 16 + n false

/-- The live registers of the page of cluster `c` (R293–R295). -/
def Chan.pcluView (ch : Chan) (c off : Nat) : Option Nat :=
  if off = PCLU.ENG_BUSY then
    some ((List.range 16).foldl (fun n e =>
      n + b2n ((engineTids (16 * c + e)).any (fun t => (ch.thr t).pkt.isSome)) * 2 ^ e) 0)
  else if off = PCLU.STALL_STAT then some (setFld (ch.get (pgPclu c) off) 29 29 (b2n (ch.anyHalted c))).toNat
  else if 0x1000 ≤ off ∧ off < 0x2000 ∧ off % 4 = 0 then
    let l := ch.lock (c * 1024 + (off - 0x1000) / 4)
    some (b2n (decide (l.holder ≠ 0)) * 2 ^ 31 + min l.waiters.length 127 * 2 ^ 12 + (l.holder - 1) % 2048)
  else if 0x2000 ≤ off ∧ off < 0x3000 ∧ off % 4 = 0 then
    let m := ch.mbox (c * 64 + (off - 0x2000) / 64)
    let w := (m.words[(off - 0x2000) % 64 / 8]?.getD 0).toNat
    some (if m.st = 2 then w / 2 ^ (off % 8 * 8) % 2 ^ 32 else 0)
  else if 0x3000 ≤ off ∧ off < 0x3100 ∧ off % 4 = 0 then
    let m := ch.mbox (c * 64 + (off - 0x3000) / 4)
    some (m.st * 2 ^ 30 + m.owner % 2048)
  else none

/-- The live registers of the DBG page (R299–R301). -/
def Chan.dbgView (ch : Chan) (off : Nat) : Option Nat :=
  if off = DBG.STAT then
    let x := ch.thr (ch.getF pgDbg DBG.SEL_TID)
    some (x.st * 2 ^ 29 + x.haltCause * 2 ^ 26 + x.bp * 2 ^ 24 + b2n (ch.getB pgDbg DBG.STAT_REFUSED) * 2 ^ 22 + x.pc % 4096)
  else if off = DBG.HALTED_CNT then some ((ch.prs.threads.filter (fun e => e.2.st == 4)).length)
  else if off = DBG.BP_CFG then some (tget (0x70000000 : Word) ch.prs.bps (ch.nat pgDbg DBG.BP_SEL % 1024)).toNat
  else none

/-- LINE.LANE_STAT of lane `l`: POWERED, IN_PORT and PORT beside the signal bits (R227). -/
def Chan.laneStat (ch : Chan) (l : Nat) : Nat :=
  let p := pgLine (l / 4)
  let w := ch.get p (LINE.LANE_STAT (l % 4))
  let on := !(ch.getB p (LINE.LANE_CFG_PD (l % 4))) && !(ch.inReset.contains (p.key 0))
  let w1 := setFld w 28 28 (b2n on)
  match ch.laneOwner l with
  | some q => (setFld (setFld w1 27 27 1) 20 16 q).toNat
  | none => (setFld (setFld w1 27 27 0) 20 16 0).toNat

/-- The live registers of CADDY (R447–R449). -/
def Chan.caddyView (ch : Chan) (off : Nat) : Option Nat :=
  let a := ch.getF pgCaddy CADDY.ACCT_SEL_ACCOUNT
  let p := ch.getF pgCaddy CADDY.ACCT_SEL_POOL
  let x := ch.acctPool a p
  let drain := (ch.cad.regions.filter (fun e => e.2.st == 2)).length
  if 0x100 ≤ off ∧ off < 0x150 then
    let q := (off - 0x100) / 16
    if off % 16 = 4 then some (ch.poolTotal q) else if off % 16 = 8 then some (ch.poolFree q)
    else if off % 16 = 12 then some (ch.poolRsv q) else none
  else if off = CADDY.REGION_STAT ∨ off = CADDY.KREGION_STAT then some (setFld (ch.get pgCaddy off) 14 0 drain).toNat
  else if off = CADDY.ACCT_CFG then some ((ch.acct a).st * 2 ^ 30 + (ch.acct a).part * 2 ^ 16)
  else if off = CADDY.ACCT_POOL then some (x.alpha * 2 ^ 28 + x.rsv)
  else if off = CADDY.ACCT_USE then some x.use
  else if off = CADDY.ACCT_PEAK then some x.peak
  else none

/-- The live registers of VOQ: the group and the member that MC_SEL and MEM_IDX name (R441, R450). -/
def Chan.voqView (ch : Chan) (off : Nat) : Option Nat :=
  if off = VOQ.MC_CFG then some (tget (0 : Word) ch.cad.mcGrp (fld (ch.get pgVoq VOQ.MC_SEL) 15 0)).toNat
  else if off = VOQ.MEM_DATA then some (tget (0 : Word) ch.cad.mcMem (fld (ch.get pgVoq VOQ.MEM_IDX) 17 0)).toNat
  else none

/-- The live registers of ADM: the time of a hold state (R451). -/
def Chan.admView (ch : Chan) (off : Nat) : Option Nat :=
  if 0x300 ≤ off ∧ off < 0x400 then
    let p := (off - 0x300) / 4
    let ms := if ch.holdState p = 0 then 0 else min ((ch.ns - (ch.pw p).downAt) / 1000000) (2 ^ 20 - 1)
    some (setFld (ch.get pgAdm off) 19 0 ms).toNat
  else none

/-- PWR.LANES_PD of a die (R618): line lanes on the FE die, fabric lanes on the TM die. -/
def Chan.lanesPd (ch : Chan) (die : Nat) : Nat :=
  if die = 0 then (allBelow 32 (fun l => ch.getB (pgLine (l / 4)) (LINE.LANE_CFG_PD (l % 4)))).length
  else (allBelow 48 (fun l => ch.getB pgFab (FAB.LANE_CFG_PD l))).length

/-- The live value of a block-specific register; `none` where it is the stored word. -/
def Chan.liveReg (ch : Chan) (k : PageKind) (p : Pg) (off : Nat) : Option Nat :=
  match k with
  | .keepA => if off = KEEP.STATUS then some (ch.keepStatus 0).toNat else if off = KEEP.FW_SVN_MIN then some ch.fusedSvn else none
  | .keepB => if off = KEEP.STATUS then some (ch.keepStatus 1).toNat else if off = KEEP.FW_SVN_MIN then some ch.fusedSvn else none
  | .cosy => if off = 0x120 then some ch.ns else if off = 0x124 then some (ch.ns / 2 ^ 32) else none
  | .act => ch.actView off
  | .brew => ch.brewView off
  | .part => ch.partView off
  | .disp => if off = DISP.STATUS then some ch.dispStatus else none
  | .dbg => ch.dbgView off
  | .pclu => ch.pcluView (p.num - 0x10) off
  | .line => if 0x110 ≤ off ∧ off < 0x120 then some (ch.laneStat (4 * (p.num - 0x30) + (off - 0x110) / 4)) else none
  | .slot =>
    if 0x1000 ≤ off ∧ off < 0x1200 ∧ off % 64 = 4 then
      some (setFld (ch.get p off) 24 24 (b2n (ch.skewIdle ((off - 0x1000) / 64)))).toNat
    else none
  | .tbl => ch.tblView off
  | .learn => if off = LEARN.STAT then some ch.learnStat else none
  | .caddy => ch.caddyView off
  | .voq => ch.voqView off
  | .adm => ch.admView off
  | .spout => ch.spoutView off
  | .fab => ch.fabView off
  | .hbmc => ch.hbmView (p.num - 0x18) off
  | .testFe => ch.testView 0 off
  | .testTm => ch.testView 1 off
  | .pwrFe => if off = PWR.LANES_PD then some (ch.lanesPd 0) else none
  | .pwrTm => if off = PWR.LANES_PD then some (ch.lanesPd 1) else none
  | .host | .relay | .pwrH | .sensH | .jrnlFe | .jrnlTm | .strn | .flex | .pm | .tern | .samp | .sched | .brdgFe | .brdgTm
  | .sensFe | .sensTm => none

/-- The word a read of a register of channel `c` returns. -/
def Chan.readWord (c : Nat) (ch : Chan) (p : Pg) (off : Nat) : Word :=
  match p.kind with
  | none => 0
  | some k =>
    if off = oID then BitVec.ofNat 32 (pageId k p.instance' p.die c)
    else if off = oREV then BitVec.ofNat 32 (pageRev k p.die)
    else if off = oCAP then k.cap.word
    else if off = oSTAT then ch.statView k p
    else if off = oFORCE then ch.get p oCAUSE
    else if k.cap.tally ∧ off = 0x88 then BitVec.ofNat 32 (cyclesOf p.die ch.ns)
    else if k.cap.tally ∧ off = 0x8C then BitVec.ofNat 32 (cyclesOf p.die ch.ns / 2 ^ 32)
    else if off < 0x100 then ch.get p off
    else match ch.liveReg k p off with
      | some n => BitVec.ofNat 32 n
      | none => ch.get p off

/-- A read clears the RC fields that live outside the registers: ACCT_PEAK of the selected account and pool (R447), and LOCK_LOSS of
the selected test (R576). -/
def Chan.readClear (ch : Chan) (p : Pg) (off : Nat) : Chan :=
  if p = pgCaddy ∧ off = CADDY.ACCT_PEAK then
    let a := ch.getF pgCaddy CADDY.ACCT_SEL_ACCOUNT
    let q := ch.getF pgCaddy CADDY.ACCT_SEL_POOL
    ch.putAcctPool a q { ch.acctPool a q with peak := 0 }
  else if p.num = 0x49 ∧ off = TEST.LOCK_LOSS then
    ch.putTest (ch.selKey p.die) { ch.test (ch.selKey p.die) with loss := 0 }
  else ch

/-- What the pages of channel `c` show. -/
def chanView (c : Fin 4) : PageView := { word := Chan.readWord c.val, clear := Chan.readClear }

end Sys2Proof.Machine
end

