-- ==== Sys2Proof/Machine/RegHooks.lean ====
section
/-! DEFINITION. What a write does at each register: the page header (R56–R74), soft resets and ENABLE of every block (R58, R59), and the
registers whose chapters give a write an effect of its own. Every other register takes the word by its access codes (R6). -/

namespace Sys2Proof.Machine

/-! Soft resets that no other file defines (R58, R120, R428, R444, R451). -/

/-- Return the block-specific registers from `lo` up to `hi` to their reset values. -/
def Chan.clearRegs (ch : Chan) (p : Pg) (lo hi : Nat) : Chan := { ch with regs := tclear ch.regs (p.key lo) (p.key hi) }

/-- The header bits that a soft reset clears (R58). -/
def Chan.softResetHeader (ch : Chan) (p : Pg) : Chan :=
  (((ch.putF p CTRL_QUIESCE 0).putF p CTRL_TAKEOVER 0).putF p STAT_QUIESCED 0).clearCause p (2 ^ 32 - 1)

/-- The working state of a keeper as BOOT finds it: what R120 and R621 keep stays. -/
def Chan.keeperFresh (ch : Chan) (k : Nat) : Chan :=
  let x := ch.keeper k
  (ch.putKeeper k { sramBad := x.sramBad, verified := x.verified, img := x.img, code := x.code, header := x.header, regionFmt := x.regionFmt,
                         latch := x.latch }).putF
    (pgKeep k) KEEP.STATUS_RESYNC_DONE 0

/-- SOFT_RESET of a KEEP page (R120): the claim falls, and the keeper enters BOOT; a load in progress is abandoned. CLAIM_LEVEL and the
replicated region stay, and so does what the page reports about the region and the Saucer link. -/
def Chan.keepReset (ch : Chan) (k : Nat) : Chan :=
  let p := pgKeep k
  let was := ch.kstate k
  let loading := ch.getB p KEEP.FW_STAT_BUSY
  let c1 := ((ch.dropClaim k false 4).softResetRegs p).keeperFresh k
  let c2 := if k = 0 then c1.putN p KEEP.CLAIM_LEVEL (ch.nat p KEEP.CLAIM_LEVEL) else c1
  let c3 := (c2.putB p KEEP.STATUS_REGION_VALID (ch.getB p KEEP.STATUS_REGION_VALID)).putB p KEEP.STATUS_SAUCER_UP
    (ch.getB p KEEP.STATUS_SAUCER_UP)
  let x := c3.keeper k
  if loading then
    (((c3.putKeeper k { x with verified := false }).putN p KEEP.FW_STAT (2 ^ 30 + 0x0A)).raise p 14).enterFailed k 0x0A
  else if x.sramBad = true ∨ ch.getB p CTRL_ENABLE = false then (c3.setKstate k 0).setDegraded p false
  else if x.verified then (c3.setKstate k 1).setDegraded p false
  else if was = 6 then c3.setKstate k 6
  else c3.setKstate k 0

/-- KEEP PAGE_CTRL.ENABLE has changed (R120): 0 holds the keeper in OFF, 1 starts BOOT. A load in progress runs on, and the keeper reads OFF
meanwhile; a FAILED keeper stays so (R103). -/
def Chan.keepEnabled (ch : Chan) (k : Nat) (on : Bool) : Chan :=
  let x := ch.keeper k
  if on then
    if ch.kstate k = 0 ∧ ch.getB (pgKeep k) KEEP.FW_STAT_BUSY = true then ch.setKstate k 1
    else if ch.kstate k = 0 ∧ x.verified = true ∧ x.sramBad = false then (ch.keeperFresh k).setKstate k 1 else ch
  else if ch.kstate k = 0 ∨ ch.kstate k = 6 then ch
  else if ch.getB (pgKeep k) KEEP.FW_STAT_BUSY = true then (ch.dropClaim k false 7).setKstate k 0
  else ((ch.dropClaim k false 7).keeperFresh k).setKstate k 0

/-- SOFT_RESET of CADDY (R447): every stored packet is discarded and counted; regions, accounts and pools return to reset. -/
def Chan.caddyReset (ch : Chan) : Chan :=
  let stored := ch.cad.bufs.filter (fun e => e.2.inUse)
  let c1 := ch.each (ch.cad.queues.map Prod.fst) (fun c q => c.takeOut q (fun _ => true))
  let c2 := c1.each stored (fun c e => c.reasmRefused e.2.pkt)
  let c3 := { c2 with
    fab := { c2.fab with sending := [] }
    cad := { c2.cad with bufs := [], accts := [], pools := [], regions := [], sweepDue := false } }
  ((c3.softResetRegs pgCaddy).setDegraded pgCaddy false).inc pgCaddy CADDY.DISABLED_DROP stored.length

/-- SOFT_RESET of VOQ: a running flush ends, and the group table and member memory are cleared (R450). -/
def Chan.voqReset (ch : Chan) : Chan :=
  { ch with cad := { ch.cad with flush := none, mcGrp := [], mcMem := [] } }.softResetRegs pgVoq

/-- SOFT_RESET of ADM (R451): averages and held counts clear, every XOFF ends, and hold states follow the ports' oper status: a port
that is up is UP, and one that is down keeps its window. -/
def Chan.admReset (ch : Chan) : Chan :=
  let c1 := ch.each (allBelow 1024 (fun x => ch.getB pgAdm (xoffBit x))) (fun c x => c.setXoff x false)
  let c2 := { c1 with cad := { c1.cad with
    held := []
    queues := c1.cad.queues.foldl (fun t (e : Nat × Que) => tput {} t e.1 { e.2 with avg := 0 }) [] } }
  (c2.softResetRegs pgAdm).each (List.range 64) (fun c p =>
    if c.oper p then c else c.putF pgAdm (ADM.HOLD_STAT_STATE p) (ch.holdState p))

/-- SOFT_RESET of SAMP: the samplers stop. -/
def Chan.sampReset (ch : Chan) : Chan :=
  let c1 := ch.each (allBelow 64 (fun n => ch.getB pgSamp (SAMP.CFG_EN n))) (fun c n => c.samplerSet n false 0)
  { c1 with strn := { c1.strn with cand := [] } }.softResetRegs pgSamp

/-- SOFT_RESET of PM. -/
def Chan.pmReset (ch : Chan) : Chan :=
  { ch with flex := { ch.flex with pmAcked := true, pmLost := false, defSeen := [] } }.softResetRegs pgPm

/-- SOFT_RESET of TBL keeps tables, segment map and banks (R406): the definitions of the tables and BANK_STAT stay, every other register
returns to its reset value. -/
def Chan.tblResetRegs (ch : Chan) : Chan :=
  ((((ch.tblReset.clearRegs pgTbl 0x100 0x500).clearRegs pgTbl 0x500 0x1000).clearRegs pgTbl 0x1200 0x4000).clearRegs pgTbl 0x6000
    0x10000).softResetHeader pgTbl

/-- SOFT_RESET of TERN: the block registers and the ternary entries return to reset. -/
def Chan.ternReset (ch : Chan) : Chan := (ch.onTbl (fun w => { w with tern := [] })).softResetRegs pgTern

/-- SOFT_RESET of a stack's HBMC page, where R508 lets it through: the stack is held as while ENABLE is 0 until the reset is done. -/
def Chan.hbmReset (ch : Chan) (st : Nat) : Chan :=
  let c1 := (ch.softResetRegs (pgHbmc st)).hbmStop st
  c1.onHbm (fun w => { w with
    run := match w.run with
      | some r => if r.group / 4 = st then none else some r
      | none => none })

/-- SOFT_RESET of a BRDG page: its configuration and counters; what it reports of the lanes stays as the lanes are (R578, R581). -/
def Chan.brdgReset (ch : Chan) (die : Nat) : Chan :=
  ((ch.softResetRegs (pgBrdg die)).putN (pgBrdg die) BRDG.SAUCER (ch.nat (pgBrdg die) BRDG.SAUCER)).each (List.range 8) (fun c m =>
    c.putN (pgBrdg die) (BRDG.MOD_STAT m) (ch.nat (pgBrdg die) (BRDG.MOD_STAT m))) |>.putN (pgBrdg die) BRDG.CAP
      (ch.nat (pgBrdg die) BRDG.CAP)

/-- SOFT_RESET of a SENS page: readings and standing conditions of the die clear until the next sample. -/
def Chan.sensReset (ch : Chan) (die : Nat) : Chan :=
  let keep := fun (n w : Nat) => if die = 0 then n / 2 ^ w * 2 ^ w else n % 2 ^ w
  { ch with crit := keep ch.crit 32, shutPrev := keep ch.shutPrev 32, railOut := keep ch.railOut 16 }.softResetRegs (pgSens die)

/-- SOFT_RESET of a die's PWR page: its registers, the energy among them. -/
def Chan.pwrReset (ch : Chan) (die : Nat) : Chan :=
  (if die = 0 then { ch with energyFe := 0 } else { ch with energyTm := 0 }).softResetRegs (pgPwr die)

/-- SOFT_RESET of the FE die's JRNL page (R127). -/
def Chan.jrnlPageReset (ch : Chan) : Chan :=
  let c1 := ch.softResetRegs pgJrnl
  match ch.active with
  | some _ => c1.jrnlReset
  | none => c1.syncJrnl (c1.region c1.lastAct).jrnl

/-- The block-specific registers and the working state of a block return to their reset values (R58). -/
def Chan.blockReset (ch : Chan) (k : PageKind) (p : Pg) : Chan :=
  match k with
  | .keepA => ch.keepReset 0
  | .keepB => ch.keepReset 1
  | .jrnlFe => ch.jrnlPageReset
  | .jrnlTm => ch.softResetRegs p
  | .cosy => (ch.softResetRegs p).cosyReset ch
  | .act => ({ ch with karmBy := 0 }.softResetRegs p).actReset
  | .brew => (ch.softResetRegs p).brewReset
  | .part => ch.partSoftReset
  | .disp => ch.dispReset
  | .dbg => ch.dbgReset
  | .pclu => ch.pcluReset (p.num - 0x10)
  | .strn => (ch.softResetRegs p).strnReset (p.num - 0x20)
  | .line => ch.lineReset (p.num - 0x30)
  | .flex => ch.flexReset
  | .slot => ch.slotReset
  | .pm => ch.pmReset
  | .tbl => ch.tblResetRegs
  | .tern => ch.ternReset
  | .learn => ch.learnReset.softResetRegs p
  | .samp => ch.sampReset
  | .caddy => ch.caddyReset
  | .voq => ch.voqReset
  | .adm => ch.admReset
  | .sched => ch.schedReset
  | .spout => (ch.softResetRegs p).spoutReset
  | .fab => ch.fabReset
  | .hbmc => ch.hbmReset (p.num - 0x18)
  | .brdgFe => ch.brdgReset 0
  | .brdgTm => ch.brdgReset 1
  | .testFe => ch.testReset 0
  | .testTm => ch.testReset 1
  | .sensFe => ch.sensReset 0
  | .sensTm => ch.sensReset 1
  | .pwrFe => ch.pwrReset 0
  | .pwrTm => ch.pwrReset 1
  | .host => ch
  | .relay => ch
  | .pwrH => ch
  | .sensH => ch

/-- A soft reset begins (R58): the block returns to reset, BUSY sets and READY clears. One that runs already is not begun again. -/
def Chan.softReset (ch : Chan) (k : PageKind) (p : Pg) : Chan :=
  if ch.inReset.contains (p.key 0) then ch
  else
    let c0 := if k.cap.takeover && ch.getB p CTRL_TAKEOVER then (ch.putF p CTRL_TAKEOVER 0).takeoverCleared p else ch
    let c1 := { c0 with inReset := p.key 0 :: c0.inReset }.blockReset k p
    (c1.putF p STAT_BUSY 1).putF p STAT_READY 0

/-- ENABLE of a block has changed (R59 and the chapters). -/
def Chan.blockEnabled (ch : Chan) (k : PageKind) (p : Pg) (on : Bool) : Chan :=
  match k with
  | .keepA => ch.keepEnabled 0 on
  | .keepB => ch.keepEnabled 1 on
  | .act => if on then ch else ch.actDisable
  | .line => ch.lineEnabled (p.num - 0x30)
  | .flex => ch.flexEnabled
  | .hbmc => if on then ch.hbmStart (p.num - 0x18) else ch.hbmStop (p.num - 0x18)
  | .cosy => ch.driveClks
  | .host | .relay | .pwrH | .sensH | .jrnlFe | .jrnlTm | .brew | .part | .disp | .dbg | .pclu | .strn | .slot | .pm
  | .tbl | .tern | .learn | .samp | .caddy | .voq | .adm | .sched | .spout | .fab | .brdgFe | .brdgTm | .testFe | .testTm
  | .sensFe | .sensTm | .pwrFe | .pwrTm => ch

/-- The soft reset of a block is done (R58): BUSY clears, READY sets, and the block takes up what its ENABLE asks for. -/
def Chan.softResetDone (ch : Chan) (k : PageKind) (p : Pg) : Chan :=
  if ch.inReset.contains (p.key 0) then
    let c1 := { ch with inReset := ch.inReset.filter (fun x => x != p.key 0) }
    let c2 := match k with
      | .line => c1.lineEnabled (p.num - 0x30)
      | .flex => c1.flexEnabled
      | .hbmc => if c1.getB p CTRL_ENABLE then c1.hbmStart (p.num - 0x18) else c1
      | _ => c1
    (c2.putF p STAT_BUSY 0).putF p STAT_READY 1
  else ch

/-! The page header. -/

/-- Why a write of PAGE_CTRL is refused with FAULT: HBM regions still assigned (R508), no brew current (R188), an array that BIST could
not repair (R572). -/
def Chan.ctrlRefused (ch : Chan) (k : PageKind) (p : Pg) (v : Word) : Bool :=
  match k with
  | .hbmc => (bit v 0 == false || bit v 2) && !(ch.hbmFree (p.num - 0x18))
  | .disp => bit v 0 && !ch.brewCurrent
  | .strn => bit v 0 && (!ch.brewCurrent || ch.getB p STAT_FAULT)
  | .pclu => bit v 0 && ch.getB p STAT_FAULT
  | _ => false

/-- PAGE_CTRL as a write leaves it: a bit without its capability stays 0 (R55, R56). -/
def ctrlWord (k : PageKind) (v : Word) : Word :=
  BitVec.ofNat 32 (b2n k.cap.ownable * fld v 15 8 * 2 ^ 8 + b2n (k.cap.takeover && bit v 3) * 8 + b2n (k.cap.quiesce && bit v 1) * 2
    + b2n (bit v 0))

/-- A write of PAGE_CTRL (R56–R61). -/
def ctrlHook (k : PageKind) : Hook := fun w ch =>
  let p := w.p
  if ch.ctrlRefused k p w.v then ch.raise p 0
  else
    let c1 := ch.put p oCTRL (ctrlWord k w.v)
    let c2 := if bit (ctrlWord k w.v) 1 then c1 else c1.putF p STAT_QUIESCED 0
    let c3 := if bit w.v 0 != bit w.old 0 then (c2.blockEnabled k p (bit w.v 0)).putB p CTRL_ENABLE (bit w.v 0) else c2
    let c4 := if bit w.old 3 && !(bit (ctrlWord k w.v) 3) then c3.takeoverCleared p else c3
    if bit w.v 2 then c4.softReset k p else c4

/-- A write of INT_CAUSE: the written bits clear (R63, R64). -/
def causeHook (k : PageKind) : Hook := fun w ch => ch.clearCause w.p (Nat.land w.v.toNat k.cap.causeMask)

/-- A write of INT_ENABLE: the page's line may rise (R63, R66). -/
def intEnableHook (k : PageKind) : Hook := fun w ch =>
  (ch.putN w.p oENABLE (Nat.land w.v.toNat k.cap.causeMask)).edge w.p (ch.line w.p)

/-- A write of INT_FORCE sets cause bits exactly as the events would (R63). -/
def forceHook (k : PageKind) : Hook := fun w ch => ch.raiseMask w.p (Nat.land w.v.toNat k.cap.causeMask)

/-- A write of ERR_CAP5: VALID = 1 rearms the capture and clears ERR_CAP0–7 (R70). -/
def errCapHook : Hook := fun w ch => if bit w.v 31 then ch.putList w.p (oERR 0) [0, 0, 0, 0, 0, 0, 0, 0] else ch

/-- A write of TALLY_CTRL: CLEAR sets CNT0–CNT7 and OVF_STICKY to 0 (R73). -/
def tallyHook : Hook := fun w ch =>
  let c1 := ch.put w.p w.off w.merged
  if bit w.v 1 then (c1.putList w.p (oCNT 0) (List.replicate 16 0)).putN w.p oOVF 0 else c1

/-- What a write of a header register does. -/
def headerHook (k : PageKind) (off : Nat) : Hook :=
  if off = oCTRL then ctrlHook k
  else if off = oCAUSE then causeHook k
  else if off = oENABLE then intEnableHook k
  else if off = oFORCE then forceHook k
  else if off = oERR 5 then errCapHook
  else if off = oTALLY then tallyHook
  else plainHook

/-! Registers of the blocks. -/

/-- A write of KARM_TIME or KARM_ARG: the keeper that stages an arm is remembered (R90, R179). -/
def karmHook : Hook := fun w ch => { plainHook w ch with karmBy := (w.r.keeper?.map (· + 1)).getD 0 }

/-- A write of ACT.CFG moves the host's share of the slots (R184). -/
def actCfgHook : Hook := fun w ch => (ch.put w.p w.off w.merged).slotsLow

/-- A service command runs by its opcode (R112). One that needs bytes of host memory stays under way on an active keeper until the command of
its row brings them (`svcWaits`). -/
def Chan.svcDispatch (ch : Chan) (k tag op : Nat) : Chan :=
  if ch.fwRuns k = false then ch.svcDone k tag 3
  else if svcKnown op = false then ch.svcDone k tag 1
  else if svcWaits op then (if ch.kstate k = 4 then ch else ch.svcDone k tag 3)
  else match op with
    | 0x01 => ch.svcGetInfo k tag
    | 0x02 => ch.svcHandover k tag
    | 0x03 => ch.svcJrnlMark k tag
    | 0x04 => ch.svcSvnCommit k tag
    | 0x10 => ch.svcSetDefaultDs k tag
    | 0x11 => ch.svcSetPortDs k tag
    | 0x12 => ch.svcGetPortDs k tag
    | 0x13 => ch.svcAddPeer k tag
    | 0x14 => ch.svcDelPeer k tag
    | 0x15 => ch.svcGetStatus k tag
    | 0x16 => ch.svcSetTime k tag
    | 0x17 => ch.svcSetTimeProps k tag
    | 0x1A => ch.svcResetModel k tag
    | 0x50 => ch.svcHbmStatus k tag
    | 0x51 => ch.svcFullRetrain k tag
    | 0x52 => ch.svcAbortRetrain k tag
    | 0x53 => ch.svcFastRetrain k tag
    | 0x60 => ch.svcBankRotate k tag
    | 0x61 => ch.svcBankRestore k tag
    | 0x62 => ch.svcBankRetire k tag
    | 0x63 => ch.svcShadowSet k tag
    | 0x66 => ch.svcBankStatus k tag
    | 0x70 => ch.svcPmRead k tag
    | _ => ch.svcPmReset k tag

/-- A write of KEEP.SVC_CMD (R111, R620): with GO = 1 it issues the command, and is ignored while another is under way; with GO = 0 it stores
TAG and OPCODE. -/
def svcRegHook (k : Nat) : Hook := fun w ch =>
  if bit w.v 31 then
    if ch.getB (pgKeep k) KEEP.SVC_STAT_BUSY then ch
    else (ch.svcIssue w k (fld w.v 23 16) (fld w.v 7 0)).svcDispatch k (fld w.v 23 16) (fld w.v 7 0)
  else ch.put w.p w.off w.merged

/-- A register of a KEEP page that its own keeper writes (R85, R86, R113): the heartbeat and the claim. -/
def keepOwnHook (k : Nat) : Hook := fun w ch =>
  if w.r.keeper? = some k ∧ ch.fwRuns k = true then
    if w.off = KEEP.HEARTBEAT then ch.put w.p w.off w.v else ch.claimWrite k (fld w.v 7 0)
  else ch

/-- A write of VOQ.MC_CFG: the group that MC_SEL names (R441); a group beyond the member memory is a reserved encoding. -/
def mcCfgHook : Hook := fun w ch =>
  if 262143 < fld w.v 17 0 + fld w.v 25 18 then ch.rejectWrite w.p w.off
  else { ch with cad := { ch.cad with mcGrp := tput 0 ch.cad.mcGrp (fld (ch.get pgVoq VOQ.MC_SEL) 15 0) w.merged } }

/-- A write of VOQ.MEM_DATA: the member entry that MEM_IDX names. -/
def memDataHook : Hook := fun w ch =>
  { ch with cad := { ch.cad with mcMem := tput 0 ch.cad.mcMem (fld (ch.get pgVoq VOQ.MEM_IDX) 17 0) w.merged } }

/-- A write of word `w` of a WRED profile (R437, R452): MAX less than MIN is a reserved encoding, judged on the curve as the
write would leave it (log 43). -/
def wredHook (w : Nat) : Hook := fun x ch =>
  let other := if w % 2 = 0 then fld (ch.get x.p (x.off + 4)) 23 0 else fld (ch.get x.p (x.off - 4)) 23 0
  let mine := fld x.v 23 0
  if (w % 2 = 0 && decide (other < mine)) || (w % 2 = 1 && decide (mine < other)) then ch.rejectWrite x.p x.off
  else ch.put x.p x.off x.merged

/-- Registers of a LINE page: lanes, then the blocks of eight ports. -/
def lineHook (i off : Nat) : Hook :=
  if off < 0x110 then laneCfgHook (4 * i + (off - 0x100) / 4)
  else if 0x1000 ≤ off then
    let p := blkPort i ((off - 0x1000) / 1024)
    let o := (off - 0x1000) % 1024
    if o = 0 then portCfgHook p else if o = 8 then portCtrlHook p else if o = 0x18 then preemptHook p else plainHook
  else plainHook

/-- Registers of the FLEX page. -/
def flexHook (off : Nat) : Hook :=
  if 0x1000 ≤ off ∧ off < 0x1800 then
    let g := (off - 0x1000) / 256
    let o := (off - 0x1000) % 256
    if o = 0 then grpCfgHook g else if o = 4 then grpCtrlHook g
    else if 0x10 ≤ o ∧ o < 0x30 then memberHook g ((o - 0x10) / 4) else plainHook
  else if 0x2000 ≤ off ∧ off < 0x2400 ∧ off % 8 = 0 then clientCfgHook ((off - 0x2000) / 8)
  else if 0x4000 ≤ off ∧ off < 0x9000 then txCalHook ((off - 0x4000) / 4)
  else if 0x9000 ≤ off ∧ off < 0xE000 then expCalHook ((off - 0x9000) / 4)
  else plainHook

/-- Registers of the PART page; `reach`: the host can be reached, `owner`: the function of a pool vector. -/
def partHook (reach : Bool) (owner : Nat → Nat) (off : Nat) : Hook :=
  if off = PART.CMD then partCmdHook reach
  else if off = PART.QCFG ∨ off = PART.QR_FIRST ∨ off = PART.QR_COUNT then partRegHook
  else if 0x120 ≤ off ∧ off < 0x130 then identHook ((off - 0x120) / 4)
  else if off = PART.RING_SEL then ringSelHook
  else if off = 0x188 then ringBaseHook
  else if off = PART.RING_CFG then ringCfgHook owner
  else if off = PART.RING_AUX then ringAuxHook
  else if 0x1000 ≤ off then portOwnHook ((off - 0x1000) / 4)
  else plainHook

/-- Registers of a KEEP page. -/
def keepHook (k off : Nat) : Hook :=
  if off = KEEP.FW_CTRL then fwCtrlHook k else if off = KEEP.SVC_CMD then svcRegHook k
  else if off = KEEP.HEARTBEAT ∨ off = KEEP.CLAIM then keepOwnHook k else plainHook

/-- What a write of a block-specific register does. -/
def blockHook (reach : Bool) (owner : Nat → Nat) (k : PageKind) (p : Pg) (off : Nat) : Hook :=
  match k with
  | .keepA => keepHook 0 off
  | .keepB => keepHook 1 off
  | .jrnlFe => if off = JRNL.CTRL then jrnlCtrlHook else if off = JRNL.RD_IDX then jrnlRdHook 0 else plainHook
  | .jrnlTm => if off = JRNL.RD_IDX then jrnlRdHook 1 else plainHook
  | .cosy =>
    if off = COSY.CLK_CTRL then clkCtrlHook else if off = COSY.STEP_CTRL then stepCtrlHook
    else if off = COSY.SERVO_TICK then servoTickHook none else if off = COSY.PPS_IN_CFG then ppsInCfgHook
    else if off = COSY.LEARN_SEC then learnSecHook else if off = COSY.TE_BOUND then teBoundHook
    else if off = COSY.OUT_CFG then outCfgHook else plainHook
  | .act =>
    if off = ACT.CFG then actCfgHook else if off = ACT.HARM_CTRL ∨ off = ACT.KARM_CTRL then armHook false
    else if off = ACT.SLOT_RD_IDX then slotRdHook
    else if 0x130 ≤ off ∧ off < 0x140 then karmHook else plainHook
  | .brew => if off = BREW.CTRL then brewCtrlHook else if off = BREW.FIRST_NUM then firstNumHook else plainHook
  | .part => partHook reach owner off
  | .disp => if 0x110 ≤ off ∧ off < 0x150 then engMaskHook ((off - 0x110) % 32 / 4) else plainHook
  | .dbg =>
    if off = DBG.CTRL then dbgCtrlHook else if off = DBG.REG_IDX then regIdxHook else if off = DBG.REG_DATA 0 then regDataHook 0
    else if off = DBG.REG_DATA 1 then regDataHook 1 else if off = DBG.BP_CFG then bpCfgHook else plainHook
  | .pclu => if off = PCLU.PTBL_IDX then ptblHook else if off = PCLU.STALL_CFG then stallCfgHook (p.num - 0x10) else plainHook
  | .line => lineHook (p.num - 0x30) off
  | .flex => flexHook off
  | .slot =>
    if 0x1000 ≤ off ∧ off < 0x1200 ∧ off % 64 = 0 then slotCtrlHook ((off - 0x1000) / 64)
    else if 0x4000 ≤ off then connHook ((off - 0x4000) / 4) else plainHook
  | .pm => if off = PM.LATCH_ACK then latchAckHook else plainHook
  | .tbl =>
    if off = TBL.CMD ∨ off = TBL.KCMD then tblCmdHook else if off = TBL.TCTRL ∨ off = TBL.KTCTRL then tctrlHook
    else if 0x4000 ≤ off ∧ off < 0x6000 then tdefHook ((off - 0x4000) / 32) else plainHook
  | .tern => if off < 0x200 then ternBlockHook ((off - 0x100) / 4) else plainHook
  | .learn => if off = LEARN.CFG then learnCfgHook else plainHook
  | .samp => if 0x1000 ≤ off ∧ off < 0x1400 ∧ off % 16 = 0 then sampCfgHook ((off - 0x1000) / 16) else plainHook
  | .caddy =>
    if off = CADDY.REGION_CMD then regionHook false else if off = CADDY.KREGION_CMD then regionHook true
    else if off = CADDY.REGION_RD_IDX then regionRdHook else if off = CADDY.ACCT_CFG then acctCfgHook
    else if off = CADDY.ACCT_POOL then acctPoolHook else if off = CADDY.FREE_CMD then freeCmdHook else plainHook
  | .voq =>
    if off = VOQ.Q_SEL then qSelHook else if off = VOQ.FLUSH_CMD then flushHook else if off = VOQ.MC_CFG then mcCfgHook
    else if off = VOQ.MEM_DATA then memDataHook else plainHook
  | .sched => if off = SCHED.NODE_SEL then nodeSelHook else if off = SCHED.NODE_CMD then nodeCmdHook else plainHook
  | .spout =>
    if 0x114 ≤ off ∧ off ≤ SPOUT.GATE_INIT then listHook else if off = SPOUT.ENT_IDX then entIdxHook
    else if off = SPOUT.ENT_DUR then entDurHook else plainHook
  | .fab =>
    if off = FAB.CFG then fabCfgHook else if 0x200 ≤ off then fabLaneHook ((off - 0x200) / 4)
    else if off = FAB.SPORT_IDX then sportIdxHook else if off = FAB.SPORT_DATA then sportDataHook
    else if off = FAB.MC_IDX then mcIdxHook else if off = FAB.MC_DATA then mcDataHook
    else if off = FAB.REACH_IDX then reachIdxHook else plainHook
  | .hbmc => if off = HBMC.KTRAIN_CMD then ktrainHook (p.num - 0x18) else plainHook
  | .testFe =>
    if off = TEST.CTRL then testCtrlHook 0 0 0 else if off = TEST.SEL then testSelHook 0 0 0
    else if off = TEST.CFG then testCfgHook 0 else plainHook
  | .testTm =>
    if off = TEST.CTRL then testCtrlHook 1 0 0 else if off = TEST.SEL then testSelHook 1 0 0
    else if off = TEST.CFG then testCfgHook 1 else if off = TEST.DUMP_CTRL then dumpHook else plainHook
  | .adm => if 0x2000 ≤ off ∧ off < 0x2800 ∧ off % 32 < 24 then wredHook (off % 32 / 4) else plainHook
  | .strn | .brdgFe | .brdgTm | .sensFe | .sensTm | .pwrFe | .pwrTm | .host | .relay | .pwrH | .sensH => plainHook

/-- What a write at an offset of a channel page does. -/
def hookOf (reach : Bool) (owner : Nat → Nat) (p : Pg) (off : Nat) : Hook :=
  match p.kind with
  | none => plainHook
  | some k => if off < 0x100 then headerHook k off else blockHook reach owner k p off

/-- Registers whose own rules reject reserved encodings (R285, R286, R301). -/
def judged (p : Pg) (off : Nat) : Bool :=
  !(p == pgDbg && (off == DBG.CTRL || off == DBG.REG_IDX || off == DBG.BP_CFG))

/-! The host island. -/

/-- A soft reset of a host island page (R58). The PWR page is reset only by power-on, and keeps its registers (R615). -/
def State.islSoftReset (s : State) (k : PageKind) (p : Nat) : State :=
  if s.isl.getB p STAT_BUSY then s
  else
    s.onIsl (fun i =>
      let i1 := (i.putF p STAT_BUSY 1).putF p STAT_READY 0
      let i2 := if k = .pwrH then i1 else { i1 with regs := tclear i1.regs (p * 0x10000 + 0x100) (p * 0x10000 + 0x10000) }
      let i3 := if k = .host then i2.putN hpHost HOST.LINK_STAT (i.nat hpHost HOST.LINK_STAT) else i2
      let i4 := if k = .relay then { i3 with relayRun := [] } else i3
      let i5 := if k = .sensH then { i4 with crit := 0, shutPrev := 0, railOut := 0 } else i4
      i5.clearCause p (2 ^ 32 - 1))

/-- A write of PAGE_CTRL of a host island page. A HOST block that is enabled again sends what it holds (R59, R66). -/
def islCtrlHook (k : PageKind) : IslHook := fun p off old v _ s =>
  let s1 := s.onIsl (fun i => i.put p off (ctrlWord k v))
  let s2 := if k = .host ∧ bit v 0 = true ∧ bit old 0 = false then s1.sendHeld else s1
  if bit v 2 then s2.islSoftReset k p else s2

/-- A write of INT_CAUSE of a host island page. -/
def islCauseHook (k : PageKind) : IslHook := fun p _ _ v _ s => s.onIsl (fun i => i.clearCause p (Nat.land v.toNat k.cap.causeMask))

/-- A write of INT_ENABLE of a host island page. -/
def islEnableHook (k : PageKind) : IslHook := fun p _ _ v _ s =>
  let s1 := s.onIsl (fun i => i.putN p oENABLE (Nat.land v.toNat k.cap.causeMask))
  if !(s.isl.line p) && s1.isl.line p then s1.pageIrq (.isl p) else s1

/-- A write of INT_FORCE of a host island page. -/
def islForceHook (k : PageKind) : IslHook := fun p _ _ v _ s => s.islRaiseMask p (Nat.land v.toNat k.cap.causeMask)

/-- A write of ERR_CAP5 of a host island page. -/
def islErrHook : IslHook := fun p _ _ v _ s =>
  if bit v 31 then s.onIsl (fun i => i.putList p (oERR 0) [0, 0, 0, 0, 0, 0, 0, 0]) else s

/-- A write of TALLY_CTRL of a host island page. -/
def islTallyHook : IslHook := fun p off _ v m s =>
  s.onIsl (fun i =>
    let i1 := i.put p off m
    if bit v 1 then (i1.putList p (oCNT 0) (List.replicate 16 0)).putN p oOVF 0 else i1)

/-- What a write at an offset of a host island page does. -/
def islHookOf (p off : Nat) : IslHook :=
  match hpKind p with
  | none => plainIsl
  | some k =>
    if off = oCTRL then islCtrlHook k else if off = oCAUSE then islCauseHook k else if off = oENABLE then islEnableHook k
    else if off = oFORCE then islForceHook k else if off = oERR 5 then islErrHook else if off = oTALLY then islTallyHook
    else match k with
      | .pwrH =>
        if h : 0x110 ≤ off ∧ off < 0x120 then chCtrlHook ⟨(off - 0x110) / 4, by omega⟩
        else if off = PWRH.JTAG_CTRL then jtagCtrlHook else plainIsl
      | .relay =>
        if h : 0x110 ≤ off ∧ off < 0x140 ∧ off % 16 = 0 then relayCtrlHook ⟨(off - 0x100) / 16, by omega⟩ else plainIsl
      | _ => plainIsl

end Sys2Proof.Machine
end

