-- ==== Sys2Proof/Machine/Regs.lean ====
section
/-! DEFINITION. The register commands: reads and writes of the pages and the doorbell space, the header commands (R42–R74), and the accesses
of the keepers, the SMBus port and the test port (R87, R612, R614). -/

namespace Sys2Proof.Machine

/-! The doorbell space of a function, at 0x2000_0000 + the BAR2 offset (R540, log 20). -/

/-- The channel, partition and page offset of an address of the doorbell space. -/
def doorbellLoc (addr : Nat) : Option (Fin 4 × Nat × Nat) :=
  if h : 0x20000000 ≤ addr ∧ addr < 0x20080000 then
    let a := addr - 0x20000000
    some (⟨a / 0x20000, by omega⟩, a % 0x20000 / 0x1000, a % 0x1000)
  else none

/-- Address of a doorbell page register in the doorbell space. -/
def bellAddr (c : Fin 4) (p off : Nat) : Nat := 0x20000000 + c.val * 0x20000 + p * 0x1000 + off

/-- A read of a doorbell page by function `n` (R540); a read of the low word of a partition counter loads the function's latch (R45). -/
def State.doorbellRead (s : State) (n : Nat) (c : Fin 4) (p off : Nat) : Nat × State :=
  if s.reachFn n = false ∨ s.isl.perst then (0, s)
  else if s.hasChan c = false then (0, s.unimpl)
  else if s.chPages c = false ∨ s.relayUp c = false then (0, s)
  else match (s.chan c).doorbellView p off with
    | none => (0, s.unimpl)
    | some v =>
      if n = 0 ∨ ((s.chan c).part p).member n = true then
        if 0xC00 ≤ off ∧ off < 0xC28 ∧ off % 8 = 0 then
          let hi := ((s.chan c).doorbellView p (off + 4)).getD 0
          (v, s.onIsl (fun i => { i with latches := tput {} i.latches n ⟨1, bellAddr c p off, v + hi * 2 ^ 32⟩ }))
        else if 0xC00 ≤ off ∧ off < 0xC28 then
          let l := tget {} s.isl.latches n
          (if l.kind = 1 ∧ l.addr = bellAddr c p (off - 4) then l.val / 2 ^ 32 else v, s)
        else (v, if off < 0xC00 ∧ off % 0x80 = 0xC then
            let x := (s.chan c).ring p (off / 0x80)
            s.setChan c ((s.chan c).putRing p (off / 0x80) { x with drop := 0 })
          else s)
      else (0, s.onIsl (fun i => i.inc hpHost HOST.REJ_OWN_CNT))

/-- A write to a doorbell page by function `n` (R540): DOORBELL, IRQ, and offsets where a write has no effect. -/
def State.doorbellPut (s : State) (n : Nat) (c : Fin 4) (p off : Nat) (v : Word) : State :=
  if off < 0x1000 ∧ off % 0x80 = 0 ∧ off / 0x80 < 32 ∧ ringExists p (off / 0x80) = true then
    s.doorbellWrite n c p (off / 0x80) (fun ch => ch.doorbell p (off / 0x80) (fld v 15 0))
  else if off % 0x80 = 0x10 ∧ off / 0x80 < 32 ∧ ringExists p (off / 0x80) = true then
    s.doorbellWrite n c p (off / 0x80) (fun ch => if bit v 0 then ch.irqArm p (off / 0x80) else ch)
  else if s.reachFn n = false ∨ s.isl.perst then s
  else if s.hasChan c = false then s.unimpl
  else if s.chPages c = false ∨ s.relayUp c = false then s
  else match (s.chan c).doorbellView p off with
    | none => s.unimpl
    | some _ => if ((s.chan c).part p).member n then s else s.onIsl (fun i => i.inc hpHost HOST.REJ_OWN_CNT)

/-! Accesses. -/

/-- A register read: the value, and the module after it. -/
def State.busRead (s : State) (r : Req) (addr : Nat) : Nat × State :=
  match r, doorbellLoc addr with
  | .func n, some (c, p, off) => s.doorbellRead n c p off
  | _, _ => s.readAt chanView r addr

/-- A write to a channel register. -/
def State.pageWrite (s : State) (r : Req) (c : Fin 4) (p : Pg) (off : Nat) (v : Word) : State :=
  s.chanWrite (hookOf (s.hostReach c) (fun v => (s.isl.vecOwner v).1) p off) (judged p off) r c p off v

/-- A register write. -/
def State.busWrite (s : State) (r : Req) (addr : Nat) (v : Word) : State :=
  match r, doorbellLoc addr with
  | .func n, some (c, p, off) => s.doorbellPut n c p off v
  | _, _ =>
    match locate addr with
    | .isl p off => s.islWrite (islHookOf p off) r p off v
    | .chan c p off => s.pageWrite r c p off v
    | .hole => if r.keeper?.isSome = true ∨ r = .smbus ∨ s.reach r = false ∨ s.isl.perst then s else s.unimpl

/-- A read whose value goes back to the requester. -/
def State.readCmd (s : State) (r : Req) (addr : Nat) : State :=
  let a := s.busRead r addr
  a.2.emit (.read addr a.1)

/-- The word of the register at an address as it stands, for a command that changes some of its fields. -/
def State.wordAt (s : State) (addr : Nat) : Word :=
  match locate addr with
  | .isl p off => s.isl.get p off
  | .chan c p off => (s.chan c).get p off
  | .hole => 0

/-- The address of the register at offset `off` of the page that `addr` lies in. -/
def pageReg (addr off : Nat) : Nat := addr / 0x10000 * 0x10000 + off

/-- REG_WRITE (R43, R47): `full` when all byte enables are set; a write with partial ones is discarded and counted. -/
def execRegWrite (r : Req) (addr : Nat) (v : Word) (full : Bool) (s : State) : Host.Outcome State Fault Refusal :=
  .next (if full then s.busWrite r addr v
    else if r.keeper?.isSome = true ∨ r = .smbus ∨ s.reach r = false ∨ s.isl.perst then s
    else s.unimpl)

/-- REG_READ (R42, R48). -/
def execRegRead (r : Req) (addr : Nat) (s : State) : Host.Outcome State Fault Refusal := .next (s.readCmd r addr)

/-- RC_FIELD_READ (R44). -/
def execRcFieldRead (r : Req) (addr : Nat) (s : State) : Host.Outcome State Fault Refusal := .next (s.readCmd r addr)

/-- READ_LOW_WORD (R45). -/
def execReadLowWord (r : Req) (addr : Nat) (s : State) : Host.Outcome State Fault Refusal := .next (s.readCmd r addr)

/-- READ_HIGH_WORD (R45). -/
def execReadHighWord (r : Req) (addr : Nat) (s : State) : Host.Outcome State Fault Refusal := .next (s.readCmd r addr)

/-- WRITE_LOW_WORD (R46). -/
def execWriteLowWord (r : Req) (addr : Nat) (v : Word) (s : State) : Host.Outcome State Fault Refusal := .next (s.busWrite r addr v)

/-- WRITE_HIGH_WORD (R46). -/
def execWriteHighWord (r : Req) (addr : Nat) (v : Word) (s : State) : Host.Outcome State Fault Refusal := .next (s.busWrite r addr v)

/-- UNSUPPORTED_ACCESS (R43). -/
def execUnsupportedAccess (r : Req) (addr : Nat) (s : State) : Host.Outcome State Fault Refusal :=
  .next (match r with
    | .func _ => if s.reach r = true ∧ s.isl.perst = false then s.emit (.unsupported addr) else s
    | _ => s)

/-! Header commands. `addr` is an address in the page. -/

/-- SOFT_RESET (R58). -/
def execSoftReset (r : Req) (addr : Nat) (s : State) : Host.Outcome State Fault Refusal :=
  .next (s.busWrite r (pageReg addr oCTRL) (setFld (s.wordAt (pageReg addr oCTRL)) 2 2 1))

/-- SOFT_RESET_DONE (R58). -/
def execSoftResetDone (addr : Nat) (s : State) : Host.Outcome State Fault Refusal :=
  .next (match locate addr with
    | .isl p _ =>
      if s.isl.getB p STAT_BUSY = true ∧ (hpKind p).isSome = true then
        s.onIsl (fun i => (i.putF p STAT_BUSY 0).putF p STAT_READY 1)
      else s
    | .chan c p _ =>
      match p.kind with
      | some k => if s.chPages c then s.runChan c (fun ch => ch.softResetDone k p) else s
      | none => s
    | .hole => s)

/-- ENABLE_WRITE (R59). -/
def execEnableWrite (r : Req) (addr : Nat) (on : Bool) (s : State) : Host.Outcome State Fault Refusal :=
  .next (s.busWrite r (pageReg addr oCTRL) (setFld (s.wordAt (pageReg addr oCTRL)) 0 0 (b2n on)))

/-- QUIESCE_REQ (R60). No page of the catalogue has PAGE_CAP.QUIESCE, so the bit is ignored (R55). -/
def execQuiesceReq (r : Req) (addr : Nat) (on : Bool) (s : State) : Host.Outcome State Fault Refusal :=
  .next (s.busWrite r (pageReg addr oCTRL) (setFld (s.wordAt (pageReg addr oCTRL)) 1 1 (b2n on)))

/-- The in-flight work of a block under QUIESCE_REQ is complete (R60). -/
def Chan.quiesceDone (ch : Chan) (k : PageKind) (p : Pg) : Chan :=
  if k.cap.quiesce && ch.getB p CTRL_QUIESCE && !(ch.getB p STAT_QUIESCED) then (ch.putF p STAT_QUIESCED 1).raise p 3 else ch

/-- QUIESCE_DONE (R60). -/
def execQuiesceDone (addr : Nat) (s : State) : Host.Outcome State Fault Refusal :=
  .next (match locate addr with
    | .chan c p _ =>
      match p.kind with
      | some k => s.onLive c (fun ch => ch.quiesceDone k p)
      | none => s
    | _ => s)

/-- TEST_TAKEOVER_CLEAR (R61). -/
def execTestTakeoverClear (r : Req) (addr : Nat) (s : State) : Host.Outcome State Fault Refusal :=
  .next (s.busWrite r (pageReg addr oCTRL) (setFld (s.wordAt (pageReg addr oCTRL)) 3 3 0))

/-- INT_FORCE (R63). -/
def execIntForce (r : Req) (addr : Nat) (v : Word) (s : State) : Host.Outcome State Fault Refusal :=
  .next (s.busWrite r (pageReg addr oFORCE) v)

/-- TALLY_CLEAR (R73). -/
def execTallyClear (r : Req) (addr : Nat) (s : State) : Host.Outcome State Fault Refusal :=
  .next (s.busWrite r (pageReg addr oTALLY) (setFld (s.wordAt (pageReg addr oTALLY)) 1 1 1))

/-! Keepers. -/

/-- KEEPER_WRITE (R87). -/
def execKeeperWrite (c : Fin 4) (k : Fin 2) (die : Fin 2) (page off : Nat) (v : Word) (s : State) : Host.Outcome State Fault Refusal :=
  .next (s.pageWrite (keeperReq k) c ⟨die.val, page⟩ off v)

/-- A write of PAGE_CTRL of a keeper's page. -/
def State.keepCtrl (s : State) (r : Req) (c : Fin 4) (k : Fin 2) (f : Word → Word) : State :=
  s.pageWrite r c (pgKeep k.val) oCTRL (f ((s.chan c).get (pgKeep k.val) oCTRL))

/-- KEEP_SOFT_RESET (R120). -/
def execKeepSoftReset (r : Req) (c : Fin 4) (k : Fin 2) (s : State) : Host.Outcome State Fault Refusal :=
  .next (s.keepCtrl r c k (fun w => setFld w 2 2 1))

/-- KEEP_ENABLE_WRITE (R120). -/
def execKeepEnableWrite (r : Req) (c : Fin 4) (k : Fin 2) (on : Bool) (s : State) : Host.Outcome State Fault Refusal :=
  .next (s.keepCtrl r c k (fun w => setFld w 0 0 (b2n on)))

/-! Commands on registers of one block. -/

/-- TOD_SNAPSHOT (R134): a read of COSY.TOD_W0. -/
def execTodSnapshot (r : Req) (c : Fin 4) (s : State) : Host.Outcome State Fault Refusal :=
  .next (s.readCmd r (addrOf c.val pgCosy 0x110))

/-- HBM_ENABLE (R508). -/
def execHbmEnable (r : Req) (c : Fin 4) (st : Fin 2) (s : State) : Host.Outcome State Fault Refusal :=
  .next (s.pageWrite r c (pgHbmc st.val) oCTRL (setFld ((s.chan c).get (pgHbmc st.val) oCTRL) 0 0 1))

/-- OSC_IN_RETURNS (R131): OSC_OK sets; the counter's clock moves only with CLK_CTRL.RETURN. -/
def execOscInReturns (c : Fin 4) (s : State) : Host.Outcome State Fault Refusal :=
  .next (s.onLive c (fun ch => ch.putF pgCosy COSY.STATUS_OSC_OK 1))

/-- JTAG_CTRL_LOCK (R615): a write of PWR.JTAG_CTRL. -/
def execJtagCtrlLock (r : Req) (v : Word) (s : State) : Host.Outcome State Fault Refusal :=
  .next (s.islWrite jtagCtrlHook r hpPwr PWRH.JTAG_CTRL v)

/-! The SMBus port (R612). -/

/-- SMB_SET_ADDR (R612). -/
def execSmbSetAddr (addr : Nat) (s : State) : Host.Outcome State Fault Refusal :=
  .next (if s.reach .smbus then s.onIsl (fun i => { i with smbAddr := addr % 2 ^ 32 }) else s)

/-- SMB_READ (R612): the register at the set address, which then moves on by 4. -/
def execSmbRead (s : State) : Host.Outcome State Fault Refusal :=
  .next (if s.reach .smbus then
      (s.readCmd .smbus s.isl.smbAddr).onIsl (fun i => { i with smbAddr := (i.smbAddr + 4) % 2 ^ 32 })
    else s)

/-- SMB_WRITE (R612): accepted for PWR.IN_CFG and SENS.THRESH. -/
def execSmbWrite (v : Word) (s : State) : Host.Outcome State Fault Refusal :=
  .next (if s.reach .smbus then s.busWrite .smbus s.isl.smbAddr v else s)

/-- SMB_ALERT_N is asserted (R612). -/
def State.smbAlert (s : State) : Bool :=
  s.isl.nat hpPwr PWRH.IN_STAT != 0
    || (List.range s.variant.channels).any (fun c => s.isl.getF hpPwr (PWRH.CH_STAT_STATE c) == 6)
    || s.isl.crit != 0 || s.isl.railOut != 0
    || [(0 : Fin 4), 1, 2, 3].any (fun c => s.chPages c && ((s.chan c).crit != 0 || (s.chan c).railOut != 0))

/-! The test port's register access (R614). -/

/-- REG_ACCESS (R614): the capture returns DONE and the data of the access before, and the update starts this one with PF0's rights. -/
def execRegAccess (write : Bool) (addr : Nat) (data : Word) (s : State) : Host.Outcome State Fault Refusal :=
  .next (s.jtagRun 0x20 (fun t =>
    let a := addr % 2 ^ 30 / 4 * 4
    let t1 := t.emit (.wire 0x20 [t.isl.jtagData] [])
    if write then (t1.busWrite .jtag a data).onIsl (fun i =>
      { i with jtagData := 2 ^ 63 + 2 ^ 62 + a * 2 ^ 32 + data.toNat })
    else
      let x := t1.busRead .jtag a
      x.2.onIsl (fun i =>
        { i with jtagData := 2 ^ 62 + a * 2 ^ 32 + x.1 })))

end Sys2Proof.Machine
end

