-- ==== Sys2Proof/Machine/Dispatch.lean ====
section
/-! DEFINITION. The dispatch of a command to its meaning: one arm per constructor of Instr. -/

namespace Sys2Proof.Machine

/-- The effect of a command on everything but the queue. -/
def exec (i : Instr) (s : State) : Host.Outcome State Fault Refusal :=
  match i with
  | .powerOn  => Sys2Proof.Machine.execPowerOn  s
  | .powerLoss  => Sys2Proof.Machine.execPowerLoss  s
  | .inputOvervoltage  => Sys2Proof.Machine.execInputOvervoltage  s
  | .inputOvercurrent  => Sys2Proof.Machine.execInputOvercurrent  s
  | .pwrgoodRise straps => Sys2Proof.Machine.execPwrgoodRise straps s
  | .pwrgoodHoldLow  => Sys2Proof.Machine.execPwrgoodHoldLow  s
  | .perstAssert  => Sys2Proof.Machine.execPerstAssert  s
  | .perstDeassert  => Sys2Proof.Machine.execPerstDeassert  s
  | .pcieLinkTrained speed width flit => Sys2Proof.Machine.execPcieLinkTrained speed width flit s
  | .flr f => Sys2Proof.Machine.execFlr f s
  | .vfEnableChange on => Sys2Proof.Machine.execVfEnableChange on s
  | .msixUnmask f vmask => Sys2Proof.Machine.execMsixUnmask f vmask s
  | .chRstAssert c => Sys2Proof.Machine.execChRstAssert c s
  | .chRstRelease c => Sys2Proof.Machine.execChRstRelease c s
  | .chResetWrite r c v => Sys2Proof.Machine.execChResetWrite r c v s
  | .chPdWrite r c v => Sys2Proof.Machine.execChPdWrite r c v s
  | .chRailsGood c => Sys2Proof.Machine.execChRailsGood c s
  | .bistDone c die b => Sys2Proof.Machine.execBistDone c die b s
  | .refclkLoss c => Sys2Proof.Machine.execRefclkLoss c s
  | .sensorSample c die temps rails mv ma pw => Sys2Proof.Machine.execSensorSample c die temps rails mv ma pw s
  | .railShutdown c die rail => Sys2Proof.Machine.execRailShutdown c die rail s
  | .oscThermSample c reading => Sys2Proof.Machine.execOscThermSample c reading s
  | .regWrite r addr v full => Sys2Proof.Machine.execRegWrite r addr v full s
  | .rcFieldRead r addr => Sys2Proof.Machine.execRcFieldRead r addr s
  | .readLowWord r addr => Sys2Proof.Machine.execReadLowWord r addr s
  | .readHighWord r addr => Sys2Proof.Machine.execReadHighWord r addr s
  | .writeLowWord r addr v => Sys2Proof.Machine.execWriteLowWord r addr v s
  | .writeHighWord r addr v => Sys2Proof.Machine.execWriteHighWord r addr v s
  | .unsupportedAccess r addr => Sys2Proof.Machine.execUnsupportedAccess r addr s
  | .softReset r addr => Sys2Proof.Machine.execSoftReset r addr s
  | .softResetDone addr => Sys2Proof.Machine.execSoftResetDone addr s
  | .enableWrite r addr on => Sys2Proof.Machine.execEnableWrite r addr on s
  | .quiesceReq r addr on => Sys2Proof.Machine.execQuiesceReq r addr on s
  | .quiesceDone addr => Sys2Proof.Machine.execQuiesceDone addr s
  | .testTakeoverClear r addr => Sys2Proof.Machine.execTestTakeoverClear r addr s
  | .intForce r addr v => Sys2Proof.Machine.execIntForce r addr v s
  | .tallyClear r addr => Sys2Proof.Machine.execTallyClear r addr s
  | .relayFlitRx c crcOk => Sys2Proof.Machine.execRelayFlitRx c crcOk s
  | .relayAutoRetrain c => Sys2Proof.Machine.execRelayAutoRetrain c s
  | .relayRetrain r c v => Sys2Proof.Machine.execRelayRetrain r c v s
  | .relayRetrainDone c ok => Sys2Proof.Machine.execRelayRetrainDone c ok s
  | .lockstepMismatch c k => Sys2Proof.Machine.execLockstepMismatch c k s
  | .selfDiagFail c k => Sys2Proof.Machine.execSelfDiagFail c k s
  | .keeperSramUe c k replicated => Sys2Proof.Machine.execKeeperSramUe c k replicated s
  | .keeperCycleBoundary c inp => Sys2Proof.Machine.execKeeperCycleBoundary c inp s
  | .wdogForceClaim c k => Sys2Proof.Machine.execWdogForceClaim c k s
  | .copyPoint c tooBig bad => Sys2Proof.Machine.execCopyPoint c tooBig bad s
  | .claimWrite c k v => Sys2Proof.Machine.execClaimWrite c k v s
  | .keeperWrite c k die page off v => Sys2Proof.Machine.execKeeperWrite c k die page off v s
  | .repairCheckDone c k res => Sys2Proof.Machine.execRepairCheckDone c k res s
  | .partnerAbsentTimeout c k => Sys2Proof.Machine.execPartnerAbsentTimeout c k s
  | .keeperBootDone c k => Sys2Proof.Machine.execKeeperBootDone c k s
  | .fwLoad r c k => Sys2Proof.Machine.execFwLoad r c k s
  | .fwLoadDone c k header code sigOk dma => Sys2Proof.Machine.execFwLoadDone c k header code sigOk dma s
  | .keepSoftReset r c k => Sys2Proof.Machine.execKeepSoftReset r c k s
  | .keepEnableWrite r c k on => Sys2Proof.Machine.execKeepEnableWrite r c k on s
  | .getInfo r c k tag => Sys2Proof.Machine.execGetInfo r c k tag s
  | .handover r c k tag => Sys2Proof.Machine.execHandover r c k tag s
  | .handoverClaimDrop c => Sys2Proof.Machine.execHandoverClaimDrop c s
  | .jrnlMark r c k tag => Sys2Proof.Machine.execJrnlMark r c k tag s
  | .svnCommit r c k tag => Sys2Proof.Machine.execSvnCommit r c k tag s
  | .svcBadOpcode r c k tag op => Sys2Proof.Machine.execSvcBadOpcode r c k tag op s
  | .keeperHalt c k => Sys2Proof.Machine.execKeeperHalt c k s
  | .keeperResume c k => Sys2Proof.Machine.execKeeperResume c k s
  | .jrnlClear r c => Sys2Proof.Machine.execJrnlClear r c s
  | .jrnlUnfreeze r c => Sys2Proof.Machine.execJrnlUnfreeze r c s
  | .jrnlRdIdxWrite r c die idx => Sys2Proof.Machine.execJrnlRdIdxWrite r c die idx s
  | .jrnlStreamEntry c desc descErr dmaErr => Sys2Proof.Machine.execJrnlStreamEntry c desc descErr dmaErr s
  | .oscFail c stopped ppb => Sys2Proof.Machine.execOscFail c stopped ppb s
  | .clkReturn c k => Sys2Proof.Machine.execClkReturn c k s
  | .todSnapshot r c => Sys2Proof.Machine.execTodSnapshot r c s
  | .ppsInEdge c pol short => Sys2Proof.Machine.execPpsInEdge c pol short s
  | .ppsMiss c => Sys2Proof.Machine.execPpsMiss c s
  | .todInFrame c bytes => Sys2Proof.Machine.execTodInFrame c bytes s
  | .todFrameAbandon c => Sys2Proof.Machine.execTodFrameAbandon c s
  | .cosyStep c k => Sys2Proof.Machine.execCosyStep c k s
  | .servoTick c k v work => Sys2Proof.Machine.execServoTick c k v work s
  | .servoTimeout c => Sys2Proof.Machine.execServoTimeout c s
  | .hwHoldoverExpiry c => Sys2Proof.Machine.execHwHoldoverExpiry c s
  | .cosyEnableWrite r c on => Sys2Proof.Machine.execCosyEnableWrite r c on s
  | .ppsOutEdge c => Sys2Proof.Machine.execPpsOutEdge c s
  | .todOutFrame c => Sys2Proof.Machine.execTodOutFrame c s
  | .setDefaultDs r c k tag => Sys2Proof.Machine.execSetDefaultDs r c k tag s
  | .setPortDs r c k tag => Sys2Proof.Machine.execSetPortDs r c k tag s
  | .getPortDs r c k tag => Sys2Proof.Machine.execGetPortDs r c k tag s
  | .addPeer r c k tag => Sys2Proof.Machine.execAddPeer r c k tag s
  | .delPeer r c k tag => Sys2Proof.Machine.execDelPeer r c k tag s
  | .getStatus r c k tag => Sys2Proof.Machine.execGetStatus r c k tag s
  | .setTime r c k tag => Sys2Proof.Machine.execSetTime r c k tag s
  | .setTimeProps r c k tag => Sys2Proof.Machine.execSetTimeProps r c k tag s
  | .saveModel r c k tag dmaErr => Sys2Proof.Machine.execSaveModel r c k tag dmaErr s
  | .loadModel r c k tag rec_ dmaErr => Sys2Proof.Machine.execLoadModel r c k tag rec_ dmaErr s
  | .resetModel r c k tag => Sys2Proof.Machine.execResetModel r c k tag s
  | .arm r c kport target lateExec localOk autoFree notify => Sys2Proof.Machine.execArm r c kport target lateExec localOk autoFree notify s
  | .cancel r c kport slot sent => Sys2Proof.Machine.execCancel r c kport slot sent s
  | .free r c kport slot => Sys2Proof.Machine.execFree r c kport slot s
  | .slotRdIdxWrite r c slot => Sys2Proof.Machine.execSlotRdIdxWrite r c slot s
  | .pour c slot => Sys2Proof.Machine.execPour c slot s
  | .gateSwap c slot => Sys2Proof.Machine.execGateSwap c slot s
  | .calSwitch c slot => Sys2Proof.Machine.execCalSwitch c slot s
  | .slotPage c slot => Sys2Proof.Machine.execSlotPage c slot s
  | .portEnable c slot => Sys2Proof.Machine.execPortEnable c slot s
  | .sampler c slot => Sys2Proof.Machine.execSampler c slot s
  | .pmBin c slot => Sys2Proof.Machine.execPmBin c slot s
  | .hbmRetrain c slot => Sys2Proof.Machine.execHbmRetrain c slot s
  | .jrnlMarker c slot => Sys2Proof.Machine.execJrnlMarker c slot s
  | .stage r c hold => Sys2Proof.Machine.execStage r c hold s
  | .stageDone c img dmaErr => Sys2Proof.Machine.execStageDone c img dmaErr s
  | .commit r c hold => Sys2Proof.Machine.execCommit r c hold s
  | .discard r c hold => Sys2Proof.Machine.execDiscard r c hold s
  | .discardSweepDone c => Sys2Proof.Machine.execDiscardSweepDone c s
  | .retire c => Sys2Proof.Machine.execRetire c s
  | .retireSweepDone c => Sys2Proof.Machine.execRetireSweepDone c s
  | .pourTagSettle c => Sys2Proof.Machine.execPourTagSettle c s
  | .rxFrame c port bytes truncated fragErr corrCw corrSym => Sys2Proof.Machine.execRxFrame c port bytes truncated fragErr corrCw corrSym s
  | .fecUncorrCw c port lane syms => Sys2Proof.Machine.execFecUncorrCw c port lane syms s
  | .portCfgWrite r c port v => Sys2Proof.Machine.execPortCfgWrite r c port v s
  | .portEnWrite r c port on => Sys2Proof.Machine.execPortEnWrite r c port on s
  | .portDiscardWrite r c port on => Sys2Proof.Machine.execPortDiscardWrite r c port on s
  | .recal r c port => Sys2Proof.Machine.execRecal r c port s
  | .restartAn r c port => Sys2Proof.Machine.execRestartAn r c port s
  | .cntClear r c port => Sys2Proof.Machine.execCntClear r c port s
  | .laneCfgWrite r c lane v => Sys2Proof.Machine.execLaneCfgWrite r c lane v s
  | .recalDone c port stopped => Sys2Proof.Machine.execRecalDone c port stopped s
  | .linkTrained c port => Sys2Proof.Machine.execLinkTrained c port s
  | .ltFail c port lane => Sys2Proof.Machine.execLtFail c port lane s
  | .ltRetry c port => Sys2Proof.Machine.execLtRetry c port s
  | .portFault c port lane kind => Sys2Proof.Machine.execPortFault c port lane kind s
  | .downHoldExpiry c port => Sys2Proof.Machine.execDownHoldExpiry c port s
  | .upHoldExpiry c port => Sys2Proof.Machine.execUpHoldExpiry c port s
  | .laneMargin c lane margin => Sys2Proof.Machine.execLaneMargin c lane margin s
  | .pfcPauseExpiry c port cls => Sys2Proof.Machine.execPfcPauseExpiry c port cls s
  | .pfcWd c port cls => Sys2Proof.Machine.execPfcWd c port cls s
  | .pfcXoffRepeat c port cls => Sys2Proof.Machine.execPfcXoffRepeat c port cls s
  | .preemptVerifyDone c port ok => Sys2Proof.Machine.execPreemptVerifyDone c port ok s
  | .frameLaunch c port pos => Sys2Proof.Machine.execFrameLaunch c port pos s
  | .flexeMemberDefect c g k lof lom gidm pidm rpf los => Sys2Proof.Machine.execFlexeMemberDefect c g k lof lom gidm pidm rpf los s
  | .groupAligned c g ok => Sys2Proof.Machine.execGroupAligned c g ok s
  | .ohFrameRx c g k crcOk calC cr ca labels => Sys2Proof.Machine.execOhFrameRx c g k crcOk calC cr ca labels s
  | .calSwitchReq r c g target => Sys2Proof.Machine.execCalSwitchReq r c g target s
  | .calSwitchInstant c g => Sys2Proof.Machine.execCalSwitchInstant c g s
  | .caTimeout c g => Sys2Proof.Machine.execCaTimeout c g s
  | .connMemWrite r c g page slot v => Sys2Proof.Machine.execConnMemWrite r c g page slot v s
  | .slotCommit r c g => Sys2Proof.Machine.execSlotCommit r c g s
  | .slotCommitDone c g => Sys2Proof.Machine.execSlotCommitDone c g s
  | .slotSwitch r c g => Sys2Proof.Machine.execSlotSwitch r c g s
  | .pageSwitchInstant c g => Sys2Proof.Machine.execPageSwitchInstant c g s
  | .slotParityErr c g slot => Sys2Proof.Machine.execSlotParityErr c g slot s
  | .pmSecondLatch c step recs => Sys2Proof.Machine.execPmSecondLatch c step recs s
  | .pmLatchAck c k => Sys2Proof.Machine.execPmLatchAck c k s
  | .pmRead r c k tag => Sys2Proof.Machine.execPmRead r c k tag s
  | .pmReset r c k tag => Sys2Proof.Machine.execPmReset r c k tag s
  | .dispatch c => Sys2Proof.Machine.execDispatch c s
  | .pZero c tid => Sys2Proof.Machine.execPZero c tid s
  | .pNop c tid => Sys2Proof.Machine.execPNop c tid s
  | .pDone c tid => Sys2Proof.Machine.execPDone c tid s
  | .pExt c tid => Sys2Proof.Machine.execPExt c tid s
  | .pExtf c tid => Sys2Proof.Machine.execPExtf c tid s
  | .pAdv c tid => Sys2Proof.Machine.execPAdv c tid s
  | .pEmit c tid => Sys2Proof.Machine.execPEmit c tid s
  | .pEmiti c tid => Sys2Proof.Machine.execPEmiti c tid s
  | .pAlu c tid => Sys2Proof.Machine.execPAlu c tid s
  | .pAlui c tid => Sys2Proof.Machine.execPAlui c tid s
  | .pMovi c tid => Sys2Proof.Machine.execPMovi c tid s
  | .pHash c tid => Sys2Proof.Machine.execPHash c tid s
  | .pCsum c tid => Sys2Proof.Machine.execPCsum c tid s
  | .pPtl c tid => Sys2Proof.Machine.execPPtl c tid s
  | .pBr c tid => Sys2Proof.Machine.execPBr c tid s
  | .pBrx c tid => Sys2Proof.Machine.execPBrx c tid s
  | .pMatch c tid => Sys2Proof.Machine.execPMatch c tid s
  | .pLock c tid => Sys2Proof.Machine.execPLock c tid s
  | .pTrylock c tid => Sys2Proof.Machine.execPTrylock c tid s
  | .pUnlock c tid => Sys2Proof.Machine.execPUnlock c tid s
  | .pMbw c tid => Sys2Proof.Machine.execPMbw c tid s
  | .pMbs c tid => Sys2Proof.Machine.execPMbs c tid s
  | .pMbr c tid => Sys2Proof.Machine.execPMbr c tid s
  | .pWfe c tid => Sys2Proof.Machine.execPWfe c tid s
  | .pSev c tid => Sys2Proof.Machine.execPSev c tid s
  | .pTmr c tid => Sys2Proof.Machine.execPTmr c tid s
  | .pTime c tid => Sys2Proof.Machine.execPTime c tid s
  | .pRdf c tid => Sys2Proof.Machine.execPRdf c tid s
  | .pWrf c tid => Sys2Proof.Machine.execPWrf c tid s
  | .lookupReturn c tid => Sys2Proof.Machine.execLookupReturn c tid s
  | .threadTimerExpiry c tid => Sys2Proof.Machine.execThreadTimerExpiry c tid s
  | .lockGrant c tid => Sys2Proof.Machine.execLockGrant c tid s
  | .eventWake c tid => Sys2Proof.Machine.execEventWake c tid s
  | .reorderSkip c ctx => Sys2Proof.Machine.execReorderSkip c ctx s
  | .engineStall c engine => Sys2Proof.Machine.execEngineStall c engine s
  | .clusterStall c cluster => Sys2Proof.Machine.execClusterStall c cluster s
  | .threadRegUe c tid => Sys2Proof.Machine.execThreadRegUe c tid s
  | .instrPoison c cluster bank index => Sys2Proof.Machine.execInstrPoison c cluster bank index s
  | .dbgHalt r c => Sys2Proof.Machine.execDbgHalt r c s
  | .dbgResume r c => Sys2Proof.Machine.execDbgResume r c s
  | .dbgStep r c => Sys2Proof.Machine.execDbgStep r c s
  | .dbgDetach r c => Sys2Proof.Machine.execDbgDetach r c s
  | .dbgRegWrite r c => Sys2Proof.Machine.execDbgRegWrite r c s
  | .dbgEvent r c => Sys2Proof.Machine.execDbgEvent r c s
  | .dbgRegIdxWrite r c idx => Sys2Proof.Machine.execDbgRegIdxWrite r c idx s
  | .breakpointHit c tid => Sys2Proof.Machine.execBreakpointHit c tid s
  | .ptblIdxWrite r c cluster bank index => Sys2Proof.Machine.execPtblIdxWrite r c cluster bank index s
  | .strainerDistribute c egress => Sys2Proof.Machine.execStrainerDistribute c egress s
  | .strainerStage c pipe pos lookLate countLate policeLate lpmBad freeze replays cfgErr => Sys2Proof.Machine.execStrainerStage c pipe pos lookLate countLate policeLate lpmBad freeze replays cfgErr s
  | .strainerVerdict c pipe full => Sys2Proof.Machine.execStrainerVerdict c pipe full s
  | .tableCreate r c kport table => Sys2Proof.Machine.execTableCreate r c kport table s
  | .tableDestroy r c kport table => Sys2Proof.Machine.execTableDestroy r c kport table s
  | .insert r c kport table => Sys2Proof.Machine.execInsert r c kport table s
  | .update r c kport table => Sys2Proof.Machine.execUpdate r c kport table s
  | .delete r c kport table => Sys2Proof.Machine.execDelete r c kport table s
  | .tblLookup r c kport table => Sys2Proof.Machine.execTblLookup r c kport table s
  | .search r c kport table => Sys2Proof.Machine.execSearch r c kport table s
  | .next r c kport table => Sys2Proof.Machine.execNext r c kport table s
  | .flushByPort r c kport table => Sys2Proof.Machine.execFlushByPort r c kport table s
  | .flushByPortDone c table => Sys2Proof.Machine.execFlushByPortDone c table s
  | .ageSweep r c kport table => Sys2Proof.Machine.execAgeSweep r c kport table s
  | .agingSweep c table => Sys2Proof.Machine.execAgingSweep c table s
  | .learnFlush r c => Sys2Proof.Machine.execLearnFlush r c s
  | .tblScrub c table rep line uncorr syn word => Sys2Proof.Machine.execTblScrub c table rep line uncorr syn word s
  | .ternScrub c table index uncorr syn => Sys2Proof.Machine.execTernScrub c table index uncorr syn s
  | .divergenceConfirm c table whr replica rec_ => Sys2Proof.Machine.execDivergenceConfirm c table whr replica rec_ s
  | .bankRotate r c k tag => Sys2Proof.Machine.execBankRotate r c k tag s
  | .bankRotateDone c bank => Sys2Proof.Machine.execBankRotateDone c bank s
  | .bankRestore r c k tag => Sys2Proof.Machine.execBankRestore r c k tag s
  | .bankRetire r c k tag => Sys2Proof.Machine.execBankRetire r c k tag s
  | .shadowSet r c k tag => Sys2Proof.Machine.execShadowSet r c k tag s
  | .compare r c k tag found dmaErr => Sys2Proof.Machine.execCompare r c k tag found dmaErr s
  | .repair r c k tag recs dmaErr => Sys2Proof.Machine.execRepair r c k tag recs dmaErr s
  | .bankStatus r c k tag => Sys2Proof.Machine.execBankStatus r c k tag s
  | .bufferAlloc c req h => Sys2Proof.Machine.execBufferAlloc c req h s
  | .spillRequest c req h => Sys2Proof.Machine.execSpillRequest c req h s
  | .hbmWriteAck c h => Sys2Proof.Machine.execHbmWriteAck c h s
  | .admission c h => Sys2Proof.Machine.execAdmission c h s
  | .bufferFree c h a part => Sys2Proof.Machine.execBufferFree c h a part s
  | .freeCmd r c acct => Sys2Proof.Machine.execFreeCmd r c acct s
  | .orphanSweep c => Sys2Proof.Machine.execOrphanSweep c s
  | .regionAssign r c kport cls first => Sys2Proof.Machine.execRegionAssign r c kport cls first s
  | .regionMove r c kport cls first => Sys2Proof.Machine.execRegionMove r c kport cls first s
  | .regionCancel r c kport first => Sys2Proof.Machine.execRegionCancel r c kport first s
  | .regionFence r c kport first => Sys2Proof.Machine.execRegionFence r c kport first s
  | .regionUnfence r c kport first => Sys2Proof.Machine.execRegionUnfence r c kport first s
  | .regionRetire r c kport first => Sys2Proof.Machine.execRegionRetire r c kport first s
  | .regionPurge r c kport first => Sys2Proof.Machine.execRegionPurge r c kport first s
  | .regionRdIdxWrite r c region => Sys2Proof.Machine.execRegionRdIdxWrite r c region s
  | .acctPoolWrite r c v => Sys2Proof.Machine.execAcctPoolWrite r c v s
  | .acctOpen r c part => Sys2Proof.Machine.execAcctOpen r c part s
  | .acctClose r c part => Sys2Proof.Machine.execAcctClose r c part s
  | .qSelWrite r c v => Sys2Proof.Machine.execQSelWrite r c v s
  | .flushRange r c => Sys2Proof.Machine.execFlushRange r c s
  | .flushAccount r c => Sys2Proof.Machine.execFlushAccount r c s
  | .flushPartition r c => Sys2Proof.Machine.execFlushPartition r c s
  | .flushComplete c => Sys2Proof.Machine.execFlushComplete c s
  | .mcReplicate c h => Sys2Proof.Machine.execMcReplicate c h s
  | .holdWindowExpiry c port => Sys2Proof.Machine.execHoldWindowExpiry c port s
  | .egressQueueMap c h => Sys2Proof.Machine.execEgressQueueMap c h s
  | .schedRelease c ports => Sys2Proof.Machine.execSchedRelease c ports s
  | .nodeSelWrite r c node => Sys2Proof.Machine.execNodeSelWrite r c node s
  | .nodeCmd r c => Sys2Proof.Machine.execNodeCmd r c s
  | .nodeUe c node word => Sys2Proof.Machine.execNodeUe c node word s
  | .swapStart c list => Sys2Proof.Machine.execSwapStart c list s
  | .entIdxWrite r c oper idx => Sys2Proof.Machine.execEntIdxWrite r c oper idx s
  | .entDurWrite r c dur => Sys2Proof.Machine.execEntDurWrite r c dur s
  | .listUe c list entry => Sys2Proof.Machine.execListUe c list entry s
  | .cellTx c lane hdrErr => Sys2Proof.Machine.execCellTx c lane hdrErr s
  | .cellRx c lane bytes => Sys2Proof.Machine.execCellRx c lane bytes s
  | .reasmTimeout c k => Sys2Proof.Machine.execReasmTimeout c k s
  | .reasmResync c k => Sys2Proof.Machine.execReasmResync c k s
  | .laneLeaveActive c lane fec inflight => Sys2Proof.Machine.execLaneLeaveActive c lane fec inflight s
  | .spareActivate c lane => Sys2Proof.Machine.execSpareActivate c lane s
  | .helloTx c => Sys2Proof.Machine.execHelloTx c s
  | .helloLapse c lane block => Sys2Proof.Machine.execHelloLapse c lane block s
  | .creditSlot c => Sys2Proof.Machine.execCreditSlot c s
  | .creditReqRefresh c q => Sys2Proof.Machine.execCreditReqRefresh c q s
  | .reqEntryExpiry c port src tc => Sys2Proof.Machine.execReqEntryExpiry c port src tc s
  | .voqBalanceExpiry c q => Sys2Proof.Machine.execVoqBalanceExpiry c q s
  | .fabCfgWrite r c v => Sys2Proof.Machine.execFabCfgWrite r c v s
  | .fabLaneCfgWrite r c lane v => Sys2Proof.Machine.execFabLaneCfgWrite r c lane v s
  | .sportIdxWrite r c sport => Sys2Proof.Machine.execSportIdxWrite r c sport s
  | .mcIdxWrite r c group => Sys2Proof.Machine.execMcIdxWrite r c group s
  | .reachIdxWrite r c chan => Sys2Proof.Machine.execReachIdxWrite r c chan s
  | .hbmEnable r c st => Sys2Proof.Machine.execHbmEnable r c st s
  | .hbmTrainDone c st failStep failed devId rfm avail => Sys2Proof.Machine.execHbmTrainDone c st failStep failed devId rfm avail s
  | .hbmAccess c n a => Sys2Proof.Machine.execHbmAccess c n a s
  | .hbmRefresh c n temp => Sys2Proof.Machine.execHbmRefresh c n temp s
  | .pause r c st pc => Sys2Proof.Machine.execPause r c st pc s
  | .hbmResume r c st group x => Sys2Proof.Machine.execHbmResume r c st group x s
  | .restore r c st group x => Sys2Proof.Machine.execRestore r c st group x s
  | .pattern r c st pc => Sys2Proof.Machine.execPattern r c st pc s
  | .setTiming r c st pc => Sys2Proof.Machine.execSetTiming r c st pc s
  | .sppr r c st pc => Sys2Proof.Machine.execSppr r c st pc s
  | .hppr r c st pc => Sys2Proof.Machine.execHppr r c st pc s
  | .hbmFail r c st group x => Sys2Proof.Machine.execHbmFail r c st group x s
  | .pauseTimeout c => Sys2Proof.Machine.execPauseTimeout c s
  | .fastRetrainTick c => Sys2Proof.Machine.execFastRetrainTick c s
  | .retrainWindowEnd c group => Sys2Proof.Machine.execRetrainWindowEnd c group s
  | .drainSlow c group => Sys2Proof.Machine.execDrainSlow c group s
  | .hbmStatus r c k tag => Sys2Proof.Machine.execHbmStatus r c k tag s
  | .fullRetrain r c k tag => Sys2Proof.Machine.execFullRetrain r c k tag s
  | .abortRetrain r c k tag => Sys2Proof.Machine.execAbortRetrain r c k tag s
  | .fastRetrain r c k tag => Sys2Proof.Machine.execFastRetrain r c k tag s
  | .repairLogSave r c k tag dmaErr => Sys2Proof.Machine.execRepairLogSave r c k tag dmaErr s
  | .repairLogLoad r c k tag rec_ dmaErr => Sys2Proof.Machine.execRepairLogLoad r c k tag rec_ dmaErr s
  | .doorbell f c p r tail => Sys2Proof.Machine.execDoorbell f c p r tail s
  | .irqArm f c p r => Sys2Proof.Machine.execIrqArm f c p r s
  | .descConsume c p r desc data descErr dmaErr => Sys2Proof.Machine.execDescConsume c p r desc data descErr dmaErr s
  | .recordPost c p r desc descErr dmaErr => Sys2Proof.Machine.execRecordPost c p r desc descErr dmaErr s
  | .packTimeout c p r dmaErr => Sys2Proof.Machine.execPackTimeout c p r dmaErr s
  | .partCreate r c p => Sys2Proof.Machine.execPartCreate r c p s
  | .partQuiesce r c p => Sys2Proof.Machine.execPartQuiesce r c p s
  | .quiesceStepDone c p => Sys2Proof.Machine.execQuiesceStepDone c p s
  | .quiesceStepTimeout c p => Sys2Proof.Machine.execQuiesceStepTimeout c p s
  | .partResume r c p => Sys2Proof.Machine.execPartResume r c p s
  | .partReset r c p => Sys2Proof.Machine.execPartReset r c p s
  | .partRemove r c p => Sys2Proof.Machine.execPartRemove r c p s
  | .ringCfgWrite r c v => Sys2Proof.Machine.execRingCfgWrite r c v s
  | .identWrite r c k v => Sys2Proof.Machine.execIdentWrite r c k v s
  | .portOwnWrite r c port v => Sys2Proof.Machine.execPortOwnWrite r c port v s
  | .testStart r c die => Sys2Proof.Machine.execTestStart r c die s
  | .testStop r c die bits errs => Sys2Proof.Machine.execTestStop r c die bits errs s
  | .testClear r c die => Sys2Proof.Machine.execTestClear r c die s
  | .testInject r c die => Sys2Proof.Machine.execTestInject r c die s
  | .testSelWrite r c die v bits errs => Sys2Proof.Machine.execTestSelWrite r c die v bits errs s
  | .pendingTestStart c die kind idx => Sys2Proof.Machine.execPendingTestStart c die kind idx s
  | .testDurationEnd c die kind idx bits errs => Sys2Proof.Machine.execTestDurationEnd c die kind idx bits errs s
  | .checkerLockLoss c die kind idx bits errs => Sys2Proof.Machine.execCheckerLockLoss c die kind idx bits errs s
  | .bankTestDone c bank failLines => Sys2Proof.Machine.execBankTestDone c bank failLines s
  | .dump r c off => Sys2Proof.Machine.execDump r c off s
  | .laneRepair c dir m lane => Sys2Proof.Machine.execLaneRepair c dir m lane s
  | .saucerLaneFail c lane => Sys2Proof.Machine.execSaucerLaneFail c lane s
  | .smbSetAddr addr => Sys2Proof.Machine.execSmbSetAddr addr s
  | .smbRead  => Sys2Proof.Machine.execSmbRead  s
  | .smbWrite v => Sys2Proof.Machine.execSmbWrite v s
  | .samplePreload captured shifted => Sys2Proof.Machine.execSamplePreload captured shifted s
  | .extest shifted => Sys2Proof.Machine.execExtest shifted s
  | .idcode  => Sys2Proof.Machine.execIdcode  s
  | .clamp  => Sys2Proof.Machine.execClamp  s
  | .highz  => Sys2Proof.Machine.execHighz  s
  | .unlockReq  => Sys2Proof.Machine.execUnlockReq  s
  | .unlockResp sigOk => Sys2Proof.Machine.execUnlockResp sigOk s
  | .jtagLock one => Sys2Proof.Machine.execJtagLock one s
  | .regAccess write addr data => Sys2Proof.Machine.execRegAccess write addr data s
  | .bypass code => Sys2Proof.Machine.execBypass code s
  | .unlockBlockExpiry  => Sys2Proof.Machine.execUnlockBlockExpiry  s
  | .jtagCtrlLock r v => Sys2Proof.Machine.execJtagCtrlLock r v s
  | .regRead r addr => Sys2Proof.Machine.execRegRead r addr s
  | .oscInReturns c => Sys2Proof.Machine.execOscInReturns c s
  | .pcieLinkDown  => Sys2Proof.Machine.execPcieLinkDown  s
  | .relayAlignmentLoss c => Sys2Proof.Machine.execRelayAlignmentLoss c s
  | .ch0FeDieFailure  => Sys2Proof.Machine.execCh0FeDieFailure  s
  | .portFaultClear c port kind => Sys2Proof.Machine.execPortFaultClear c port kind s
  | .pfcWdRelease c port cls => Sys2Proof.Machine.execPfcWdRelease c port cls s
  | .fabLaneTrained c lane => Sys2Proof.Machine.execFabLaneTrained c lane s
  | .fabLaneFault c lane fec => Sys2Proof.Machine.execFabLaneFault c lane fec s
  | .clientRxLf c n on => Sys2Proof.Machine.execClientRxLf c n on s
  | .checkerLocked c die kind idx => Sys2Proof.Machine.execCheckerLocked c die kind idx s
  | .saucerLinkUp c => Sys2Proof.Machine.execSaucerLinkUp c s

end Sys2Proof.Machine
end

