-- ==== Sys2Proof/Machine/Tick.lean ====
section
/-! DEFINITION. What happens while no command waits: the clocks of the module run (log 2). Time-driven events of the spec
are commands of their own. -/

namespace Sys2Proof.Machine

/-- Nanoseconds in one tick: a whole number of cycles of every clock domain. -/
def tickNs : Nat := 10

/-- A channel's tick: its counters of time, and block clock cycles for the tally units (R77). -/
def Chan.tick (ch : Chan) : Chan := ch.clockOn tickNs

/-- The cycles of a tick that the HOST page's counters count (R73, R74): the host island runs at 1.0 GHz. -/
def Isl.tickCycles (i : Isl) : Nat :=
  frozenAfter (bit (i.get hpHost oTALLY) 2)
    ((allBelow 8 (fun n => i.tallyOn hpHost 1 {} n)).map (fun n => 2 ^ 48 - i.get64 hpHost (oCNT n))) tickNs

/-- The module's tick. -/
def State.tick (s : State) : State :=
  if s.isl.powered then
    ((s.onIsl (fun i => { i with ns := i.ns + tickNs })).islTally hpHost 1 {} s.isl.tickCycles).onAllLive Chan.tick
  else s

end Sys2Proof.Machine
end

