-- ==== Sys2Proof/WellFormed.lean ====
section
/-! DEFINITION. Well-formed commands: every operand names something the spec has. A meaning does not rest on it: a command whose operand names
nothing is total too (log 3). -/

namespace Sys2Proof

/-- A requester of the spec: PF0, one of 127 VFs, a keeper, JTAG or the SMBus port (R45, R76, R612). -/
def Req.ok : Req → Bool
  | .func n => decide (n < 128)
  | .keeperA => true
  | .keeperB => true
  | .jtag => true
  | .smbus => true

/-- Every operand is in the range that the spec gives it. -/
def Instr.wf : Instr → Bool
  | .powerOn => true
  | .powerLoss => true
  | .inputOvervoltage => true
  | .inputOvercurrent => true
  | .pwrgoodRise straps => decide (straps < 16)
  | .pwrgoodHoldLow => true
  | .perstAssert => true
  | .perstDeassert => true
  | .pcieLinkTrained speed width _ => decide (1 ≤ speed) && decide (speed ≤ 6) && decide (1 ≤ width) && decide (width ≤ 16)
  | .flr f => decide (f < 128)
  | .vfEnableChange _ => true
  | .msixUnmask f vmask => decide (f < 128) && decide (vmask < 2 ^ 128)
  | .chRstAssert _ => true
  | .chRstRelease _ => true
  | .chResetWrite r _ _ => r.ok
  | .chPdWrite r _ _ => r.ok
  | .chRailsGood _ => true
  | .bistDone _ _ _ => true
  | .refclkLoss _ => true
  | .sensorSample _ _ _ _ _ _ _ => true
  | .railShutdown _ _ rail => decide (rail < 16)
  | .oscThermSample _ reading => decide (reading < 65536)
  | .regWrite r addr _ _ => r.ok && (decide (addr < 2 ^ 32) && addr % 4 == 0)
  | .rcFieldRead r addr => r.ok && (decide (addr < 2 ^ 32) && addr % 4 == 0)
  | .readLowWord r addr => r.ok && (decide (addr < 2 ^ 32) && addr % 4 == 0)
  | .readHighWord r addr => r.ok && (decide (addr < 2 ^ 32) && addr % 4 == 0)
  | .writeLowWord r addr _ => r.ok && (decide (addr < 2 ^ 32) && addr % 4 == 0)
  | .writeHighWord r addr _ => r.ok && (decide (addr < 2 ^ 32) && addr % 4 == 0)
  | .unsupportedAccess r addr => r.ok && decide (addr < 2 ^ 32)
  | .softReset r addr => r.ok && (decide (addr < 2 ^ 32) && addr % 4 == 0)
  | .softResetDone addr => decide (addr < 2 ^ 32) && addr % 4 == 0
  | .enableWrite r addr _ => r.ok && (decide (addr < 2 ^ 32) && addr % 4 == 0)
  | .quiesceReq r addr _ => r.ok && (decide (addr < 2 ^ 32) && addr % 4 == 0)
  | .quiesceDone addr => decide (addr < 2 ^ 32) && addr % 4 == 0
  | .testTakeoverClear r addr => r.ok && (decide (addr < 2 ^ 32) && addr % 4 == 0)
  | .intForce r addr _ => r.ok && (decide (addr < 2 ^ 32) && addr % 4 == 0)
  | .tallyClear r addr => r.ok && (decide (addr < 2 ^ 32) && addr % 4 == 0)
  | .relayFlitRx _ _ => true
  | .relayAutoRetrain _ => true
  | .relayRetrain r _ _ => r.ok
  | .relayRetrainDone _ _ => true
  | .lockstepMismatch _ _ => true
  | .selfDiagFail _ _ => true
  | .keeperSramUe _ _ _ => true
  | .keeperCycleBoundary _ _ => true
  | .wdogForceClaim _ _ => true
  | .copyPoint _ _ _ => true
  | .claimWrite _ _ v => decide (v < 2 ^ 32)
  | .keeperWrite _ _ _ page off _ => decide (page < 256) && decide (off < 65536)
  | .repairCheckDone _ _ res => decide (res < 256)
  | .partnerAbsentTimeout _ _ => true
  | .keeperBootDone _ _ => true
  | .fwLoad r _ _ => r.ok
  | .fwLoadDone _ _ _ _ _ dma => decide (dma < 256)
  | .keepSoftReset r _ _ => r.ok
  | .keepEnableWrite r _ _ _ => r.ok
  | .getInfo r _ _ tag => r.ok && decide (tag < 256)
  | .handover r _ _ tag => r.ok && decide (tag < 256)
  | .handoverClaimDrop _ => true
  | .jrnlMark r _ _ tag => r.ok && decide (tag < 256)
  | .svnCommit r _ _ tag => r.ok && decide (tag < 256)
  | .svcBadOpcode r _ _ tag op => r.ok && (decide (tag < 256) && decide (op < 256))
  | .keeperHalt _ _ => true
  | .keeperResume _ _ => true
  | .jrnlClear r _ => r.ok
  | .jrnlUnfreeze r _ => r.ok
  | .jrnlRdIdxWrite r _ _ idx => r.ok && decide (idx < 16384)
  | .jrnlStreamEntry _ _ _ _ => true
  | .oscFail _ _ _ => true
  | .clkReturn _ _ => true
  | .todSnapshot r _ => r.ok
  | .ppsInEdge _ _ _ => true
  | .ppsMiss _ => true
  | .todInFrame _ _ => true
  | .todFrameAbandon _ => true
  | .cosyStep _ _ => true
  | .servoTick _ _ _ _ => true
  | .servoTimeout _ => true
  | .hwHoldoverExpiry _ => true
  | .cosyEnableWrite r _ _ => r.ok
  | .ppsOutEdge _ => true
  | .todOutFrame _ => true
  | .setDefaultDs r _ _ tag => r.ok && decide (tag < 256)
  | .setPortDs r _ _ tag => r.ok && decide (tag < 256)
  | .getPortDs r _ _ tag => r.ok && decide (tag < 256)
  | .addPeer r _ _ tag => r.ok && decide (tag < 256)
  | .delPeer r _ _ tag => r.ok && decide (tag < 256)
  | .getStatus r _ _ tag => r.ok && decide (tag < 256)
  | .setTime r _ _ tag => r.ok && decide (tag < 256)
  | .setTimeProps r _ _ tag => r.ok && decide (tag < 256)
  | .saveModel r _ _ tag _ => r.ok && decide (tag < 256)
  | .loadModel r _ _ tag _ _ => r.ok && decide (tag < 256)
  | .resetModel r _ _ tag => r.ok && decide (tag < 256)
  | .arm r _ _ target _ _ _ _ => r.ok && decide (target < 256)
  | .cancel r _ _ slot _ => r.ok && decide (slot < 256)
  | .free r _ _ slot => r.ok && decide (slot < 256)
  | .slotRdIdxWrite r _ slot => r.ok && decide (slot < 256)
  | .pour _ slot => decide (slot < 256)
  | .gateSwap _ slot => decide (slot < 256)
  | .calSwitch _ slot => decide (slot < 256)
  | .slotPage _ slot => decide (slot < 256)
  | .portEnable _ slot => decide (slot < 256)
  | .sampler _ slot => decide (slot < 256)
  | .pmBin _ slot => decide (slot < 256)
  | .hbmRetrain _ slot => decide (slot < 256)
  | .jrnlMarker _ slot => decide (slot < 256)
  | .stage r _ _ => r.ok
  | .stageDone _ _ _ => true
  | .commit r _ _ => r.ok
  | .discard r _ _ => r.ok
  | .discardSweepDone _ => true
  | .retire _ => true
  | .retireSweepDone _ => true
  | .pourTagSettle _ => true
  | .rxFrame _ port _ _ _ _ _ => decide (port < 64)
  | .fecUncorrCw _ port lane _ => decide (port < 64) && decide (lane < 32)
  | .portCfgWrite r _ port _ => r.ok && decide (port < 64)
  | .portEnWrite r _ port _ => r.ok && decide (port < 64)
  | .portDiscardWrite r _ port _ => r.ok && decide (port < 64)
  | .recal r _ port => r.ok && decide (port < 64)
  | .restartAn r _ port => r.ok && decide (port < 64)
  | .cntClear r _ port => r.ok && decide (port < 64)
  | .laneCfgWrite r _ lane _ => r.ok && decide (lane < 32)
  | .recalDone _ port _ => decide (port < 64)
  | .linkTrained _ port => decide (port < 64)
  | .ltFail _ port lane => decide (port < 64) && decide (lane < 32)
  | .ltRetry _ port => decide (port < 64)
  | .portFault _ port lane kind => decide (port < 64) && decide (lane < 32) && decide (kind < 4)
  | .downHoldExpiry _ port => decide (port < 64)
  | .upHoldExpiry _ port => decide (port < 64)
  | .laneMargin _ lane margin => decide (lane < 32) && decide (margin < 256)
  | .pfcPauseExpiry _ port cls => decide (port < 64) && decide (cls < 8)
  | .pfcWd _ port cls => decide (port < 64) && decide (cls < 8)
  | .pfcXoffRepeat _ port cls => decide (port < 64) && decide (cls < 8)
  | .preemptVerifyDone _ port _ => decide (port < 64)
  | .frameLaunch _ port _ => decide (port < 64)
  | .flexeMemberDefect _ g k _ _ _ _ _ _ => decide (g < 8) && decide (k < 64)
  | .groupAligned _ g _ => decide (g < 8)
  | .ohFrameRx _ g k _ calC cr ca _ => decide (g < 8) && decide (k < 64) && decide (calC < 2) && decide (cr < 2) && decide (ca < 2)
  | .calSwitchReq r _ g target => r.ok && (decide (g < 8) && decide (target < 2))
  | .calSwitchInstant _ g => decide (g < 8)
  | .caTimeout _ g => decide (g < 8)
  | .connMemWrite r _ g page slot _ => r.ok && (decide (g < 8) && decide (page < 2) && decide (slot < 640))
  | .slotCommit r _ g => r.ok && decide (g < 8)
  | .slotCommitDone _ g => decide (g < 8)
  | .slotSwitch r _ g => r.ok && decide (g < 8)
  | .pageSwitchInstant _ g => decide (g < 8)
  | .slotParityErr _ g slot => decide (g < 8) && decide (slot < 640)
  | .pmSecondLatch _ _ _ => true
  | .pmLatchAck _ _ => true
  | .pmRead r _ _ tag => r.ok && decide (tag < 256)
  | .pmReset r _ _ tag => r.ok && decide (tag < 256)
  | .dispatch _ => true
  | .pZero _ tid => decide (tid < 2048)
  | .pNop _ tid => decide (tid < 2048)
  | .pDone _ tid => decide (tid < 2048)
  | .pExt _ tid => decide (tid < 2048)
  | .pExtf _ tid => decide (tid < 2048)
  | .pAdv _ tid => decide (tid < 2048)
  | .pEmit _ tid => decide (tid < 2048)
  | .pEmiti _ tid => decide (tid < 2048)
  | .pAlu _ tid => decide (tid < 2048)
  | .pAlui _ tid => decide (tid < 2048)
  | .pMovi _ tid => decide (tid < 2048)
  | .pHash _ tid => decide (tid < 2048)
  | .pCsum _ tid => decide (tid < 2048)
  | .pPtl _ tid => decide (tid < 2048)
  | .pBr _ tid => decide (tid < 2048)
  | .pBrx _ tid => decide (tid < 2048)
  | .pMatch _ tid => decide (tid < 2048)
  | .pLock _ tid => decide (tid < 2048)
  | .pTrylock _ tid => decide (tid < 2048)
  | .pUnlock _ tid => decide (tid < 2048)
  | .pMbw _ tid => decide (tid < 2048)
  | .pMbs _ tid => decide (tid < 2048)
  | .pMbr _ tid => decide (tid < 2048)
  | .pWfe _ tid => decide (tid < 2048)
  | .pSev _ tid => decide (tid < 2048)
  | .pTmr _ tid => decide (tid < 2048)
  | .pTime _ tid => decide (tid < 2048)
  | .pRdf _ tid => decide (tid < 2048)
  | .pWrf _ tid => decide (tid < 2048)
  | .lookupReturn _ tid => decide (tid < 2048)
  | .threadTimerExpiry _ tid => decide (tid < 2048)
  | .lockGrant _ tid => decide (tid < 2048)
  | .eventWake _ tid => decide (tid < 2048)
  | .reorderSkip _ ctx => decide (ctx < 4096)
  | .engineStall _ engine => decide (engine < 256)
  | .clusterStall _ cluster => decide (cluster < 16)
  | .threadRegUe _ tid => decide (tid < 2048)
  | .instrPoison _ cluster bank index => decide (cluster < 16) && decide (bank < 2) && decide (index < 4096)
  | .dbgHalt r _ => r.ok
  | .dbgResume r _ => r.ok
  | .dbgStep r _ => r.ok
  | .dbgDetach r _ => r.ok
  | .dbgRegWrite r _ => r.ok
  | .dbgEvent r _ => r.ok
  | .dbgRegIdxWrite r _ idx => r.ok && decide (idx < 64)
  | .breakpointHit _ tid => decide (tid < 2048)
  | .ptblIdxWrite r _ cluster bank index => r.ok && (decide (cluster < 16) && decide (bank < 2) && decide (index < 4096))
  | .strainerDistribute _ _ => true
  | .strainerStage _ pipe _ _ _ _ _ _ _ _ => decide (pipe < 8)
  | .strainerVerdict _ pipe _ => decide (pipe < 8)
  | .tableCreate r _ _ table => r.ok && decide (table < 256)
  | .tableDestroy r _ _ table => r.ok && decide (table < 256)
  | .insert r _ _ table => r.ok && decide (table < 256)
  | .update r _ _ table => r.ok && decide (table < 256)
  | .delete r _ _ table => r.ok && decide (table < 256)
  | .tblLookup r _ _ table => r.ok && decide (table < 256)
  | .search r _ _ table => r.ok && decide (table < 256)
  | .next r _ _ table => r.ok && decide (table < 256)
  | .flushByPort r _ _ table => r.ok && decide (table < 256)
  | .flushByPortDone _ table => decide (table < 256)
  | .ageSweep r _ _ table => r.ok && decide (table < 256)
  | .agingSweep _ table => decide (table < 256)
  | .learnFlush r _ => r.ok
  | .tblScrub _ table rep _ _ _ word => decide (table < 256) && decide (rep < 4) && decide (word < 64)
  | .ternScrub _ table index _ _ => decide (table < 256) && decide (index < 65536)
  | .divergenceConfirm _ table whr _ _ => decide (table < 256) && decide (whr < 2 ^ 40)
  | .bankRotate r _ _ tag => r.ok && decide (tag < 256)
  | .bankRotateDone _ bank => decide (bank < 68)
  | .bankRestore r _ _ tag => r.ok && decide (tag < 256)
  | .bankRetire r _ _ tag => r.ok && decide (tag < 256)
  | .shadowSet r _ _ tag => r.ok && decide (tag < 256)
  | .compare r _ _ tag _ _ => r.ok && decide (tag < 256)
  | .repair r _ _ tag _ _ => r.ok && decide (tag < 256)
  | .bankStatus r _ _ tag => r.ok && decide (tag < 256)
  | .bufferAlloc _ req h => decide (req < 8) && decide (h < 2 ^ 32)
  | .spillRequest _ req h => decide (req < 8) && decide (h < 2 ^ 32)
  | .hbmWriteAck _ h => decide (h < 2 ^ 32)
  | .admission _ h => decide (h < 2 ^ 32)
  | .bufferFree _ h a _ => decide (h < 2 ^ 32) && decide (a < 4096)
  | .freeCmd r _ acct => r.ok && decide (acct < 4096)
  | .orphanSweep _ => true
  | .regionAssign r _ _ cls first => r.ok && (decide (cls < 8) && decide (first < 32768))
  | .regionMove r _ _ cls first => r.ok && (decide (cls < 8) && decide (first < 32768))
  | .regionCancel r _ _ first => r.ok && decide (first < 32768)
  | .regionFence r _ _ first => r.ok && decide (first < 32768)
  | .regionUnfence r _ _ first => r.ok && decide (first < 32768)
  | .regionRetire r _ _ first => r.ok && decide (first < 32768)
  | .regionPurge r _ _ first => r.ok && decide (first < 32768)
  | .regionRdIdxWrite r _ region => r.ok && decide (region < 32768)
  | .acctPoolWrite r _ _ => r.ok
  | .acctOpen r _ part => r.ok && decide (part < 32)
  | .acctClose r _ part => r.ok && decide (part < 32)
  | .qSelWrite r _ _ => r.ok
  | .flushRange r _ => r.ok
  | .flushAccount r _ => r.ok
  | .flushPartition r _ => r.ok
  | .flushComplete _ => true
  | .mcReplicate _ h => decide (h < 2 ^ 32)
  | .holdWindowExpiry _ port => decide (port < 64)
  | .egressQueueMap _ h => decide (h < 2 ^ 32)
  | .schedRelease _ _ => true
  | .nodeSelWrite r _ node => r.ok && decide (node < 131072)
  | .nodeCmd r _ => r.ok
  | .nodeUe _ node word => decide (node < 131072) && decide (word < 8)
  | .swapStart _ list => decide (list < 256)
  | .entIdxWrite r _ _ idx => r.ok && decide (idx < 1024)
  | .entDurWrite r _ dur => r.ok && decide (dur < 2 ^ 30)
  | .listUe _ list entry => decide (list < 256) && decide (entry < 1024)
  | .cellTx _ lane _ => decide (lane < 48)
  | .cellRx _ lane _ => decide (lane < 48)
  | .reasmTimeout _ _ => true
  | .reasmResync _ _ => true
  | .laneLeaveActive _ lane _ _ => decide (lane < 48)
  | .spareActivate _ lane => decide (lane < 48)
  | .helloTx _ => true
  | .helloLapse _ lane _ => decide (lane < 48)
  | .creditSlot _ => true
  | .creditReqRefresh _ q => decide (q < 524288)
  | .reqEntryExpiry _ port _ _ => decide (port < 65536)
  | .voqBalanceExpiry _ q => decide (q < 524288)
  | .fabCfgWrite r _ _ => r.ok
  | .fabLaneCfgWrite r _ lane _ => r.ok && decide (lane < 48)
  | .sportIdxWrite r _ sport => r.ok && decide (sport < 65536)
  | .mcIdxWrite r _ group => r.ok && decide (group < 65536)
  | .reachIdxWrite r _ chan => r.ok && decide (chan < 4096)
  | .hbmEnable r _ _ => r.ok
  | .hbmTrainDone _ _ failStep _ _ _ _ => decide (failStep < 4)
  | .hbmAccess _ n _ => decide (n < 64)
  | .hbmRefresh _ n _ => decide (n < 64)
  | .pause r _ _ pc => r.ok && decide (pc < 32)
  | .hbmResume r _ _ _ x => r.ok && decide (x < 32)
  | .restore r _ _ _ x => r.ok && decide (x < 32)
  | .pattern r _ _ pc => r.ok && decide (pc < 32)
  | .setTiming r _ _ pc => r.ok && decide (pc < 32)
  | .sppr r _ _ pc => r.ok && decide (pc < 32)
  | .hppr r _ _ pc => r.ok && decide (pc < 32)
  | .hbmFail r _ _ _ x => r.ok && decide (x < 32)
  | .pauseTimeout _ => true
  | .fastRetrainTick _ => true
  | .retrainWindowEnd _ group => decide (group < 8)
  | .drainSlow _ group => decide (group < 8)
  | .hbmStatus r _ _ tag => r.ok && decide (tag < 256)
  | .fullRetrain r _ _ tag => r.ok && decide (tag < 256)
  | .abortRetrain r _ _ tag => r.ok && decide (tag < 256)
  | .fastRetrain r _ _ tag => r.ok && decide (tag < 256)
  | .repairLogSave r _ _ tag _ => r.ok && decide (tag < 256)
  | .repairLogLoad r _ _ tag _ _ => r.ok && decide (tag < 256)
  | .doorbell f _ p r tail => decide (f < 128) && decide (p < 32) && decide (r < 20) && decide (tail < 65536)
  | .irqArm f _ p r => decide (f < 128) && decide (p < 32) && decide (r < 20)
  | .descConsume _ p r _ _ _ _ => decide (p < 32) && decide (r < 20)
  | .recordPost _ p r _ _ _ => decide (p < 32) && decide (r < 20)
  | .packTimeout _ p r _ => decide (p < 32) && decide (r < 20)
  | .partCreate r _ p => r.ok && decide (p < 32)
  | .partQuiesce r _ p => r.ok && decide (p < 32)
  | .quiesceStepDone _ p => decide (p < 32)
  | .quiesceStepTimeout _ p => decide (p < 32)
  | .partResume r _ p => r.ok && decide (p < 32)
  | .partReset r _ p => r.ok && decide (p < 32)
  | .partRemove r _ p => r.ok && decide (p < 32)
  | .ringCfgWrite r _ _ => r.ok
  | .identWrite r _ _ _ => r.ok
  | .portOwnWrite r _ port _ => r.ok && decide (port < 64)
  | .testStart r _ _ => r.ok
  | .testStop r _ _ _ _ => r.ok
  | .testClear r _ _ => r.ok
  | .testInject r _ _ => r.ok
  | .testSelWrite r _ _ _ _ _ => r.ok
  | .pendingTestStart _ _ kind idx => decide (kind < 5) && decide (idx < 544)
  | .testDurationEnd _ _ kind idx _ _ => decide (kind < 5) && decide (idx < 544)
  | .checkerLockLoss _ _ kind idx _ _ => decide (kind < 5) && decide (idx < 544)
  | .bankTestDone _ bank _ => decide (bank < 68)
  | .dump r _ off => r.ok && decide (off < 16384)
  | .laneRepair _ _ m lane => decide (m < 8) && decide (lane < 68)
  | .saucerLaneFail _ lane => decide (lane < 4)
  | .smbSetAddr addr => decide (addr < 2 ^ 32)
  | .smbRead => true
  | .smbWrite _ => true
  | .samplePreload _ _ => true
  | .extest _ => true
  | .idcode => true
  | .clamp => true
  | .highz => true
  | .unlockReq => true
  | .unlockResp _ => true
  | .jtagLock _ => true
  | .regAccess _ addr _ => decide (addr < 2 ^ 32)
  | .bypass code => decide (code < 256)
  | .unlockBlockExpiry => true
  | .jtagCtrlLock r _ => r.ok
  | .regRead r addr => r.ok && (decide (addr < 2 ^ 32) && addr % 4 == 0)
  | .oscInReturns _ => true
  | .pcieLinkDown => true
  | .relayAlignmentLoss _ => true
  | .ch0FeDieFailure => true
  | .portFaultClear _ port kind => decide (port < 64) && decide (kind < 4)
  | .pfcWdRelease _ port cls => decide (port < 64) && decide (cls < 8)
  | .fabLaneTrained _ lane => decide (lane < 48)
  | .fabLaneFault _ lane _ => decide (lane < 48)
  | .clientRxLf _ n _ => decide (n < 128)
  | .checkerLocked _ _ kind idx => decide (kind < 5) && decide (idx < 544)
  | .saucerLinkUp _ => true

/-- The channel that a command is about; none where it is about the package, or names its register by an address. -/
def Instr.chan : Instr → Option (Fin 4)
  | .powerOn => none
  | .powerLoss => none
  | .inputOvervoltage => none
  | .inputOvercurrent => none
  | .pwrgoodRise _ => none
  | .pwrgoodHoldLow => none
  | .perstAssert => none
  | .perstDeassert => none
  | .pcieLinkTrained _ _ _ => none
  | .flr _ => none
  | .vfEnableChange _ => none
  | .msixUnmask _ _ => none
  | .chRstAssert c => some c
  | .chRstRelease c => some c
  | .chResetWrite _ c _ => some c
  | .chPdWrite _ c _ => some c
  | .chRailsGood c => some c
  | .bistDone c _ _ => some c
  | .refclkLoss c => some c
  | .sensorSample c _ _ _ _ _ _ => some c
  | .railShutdown c _ _ => some c
  | .oscThermSample c _ => some c
  | .regWrite _ _ _ _ => none
  | .rcFieldRead _ _ => none
  | .readLowWord _ _ => none
  | .readHighWord _ _ => none
  | .writeLowWord _ _ _ => none
  | .writeHighWord _ _ _ => none
  | .unsupportedAccess _ _ => none
  | .softReset _ _ => none
  | .softResetDone _ => none
  | .enableWrite _ _ _ => none
  | .quiesceReq _ _ _ => none
  | .quiesceDone _ => none
  | .testTakeoverClear _ _ => none
  | .intForce _ _ _ => none
  | .tallyClear _ _ => none
  | .relayFlitRx c _ => some c
  | .relayAutoRetrain c => some c
  | .relayRetrain _ c _ => some c
  | .relayRetrainDone c _ => some c
  | .lockstepMismatch c _ => some c
  | .selfDiagFail c _ => some c
  | .keeperSramUe c _ _ => some c
  | .keeperCycleBoundary c _ => some c
  | .wdogForceClaim c _ => some c
  | .copyPoint c _ _ => some c
  | .claimWrite c _ _ => some c
  | .keeperWrite c _ _ _ _ _ => some c
  | .repairCheckDone c _ _ => some c
  | .partnerAbsentTimeout c _ => some c
  | .keeperBootDone c _ => some c
  | .fwLoad _ c _ => some c
  | .fwLoadDone c _ _ _ _ _ => some c
  | .keepSoftReset _ c _ => some c
  | .keepEnableWrite _ c _ _ => some c
  | .getInfo _ c _ _ => some c
  | .handover _ c _ _ => some c
  | .handoverClaimDrop c => some c
  | .jrnlMark _ c _ _ => some c
  | .svnCommit _ c _ _ => some c
  | .svcBadOpcode _ c _ _ _ => some c
  | .keeperHalt c _ => some c
  | .keeperResume c _ => some c
  | .jrnlClear _ c => some c
  | .jrnlUnfreeze _ c => some c
  | .jrnlRdIdxWrite _ c _ _ => some c
  | .jrnlStreamEntry c _ _ _ => some c
  | .oscFail c _ _ => some c
  | .clkReturn c _ => some c
  | .todSnapshot _ c => some c
  | .ppsInEdge c _ _ => some c
  | .ppsMiss c => some c
  | .todInFrame c _ => some c
  | .todFrameAbandon c => some c
  | .cosyStep c _ => some c
  | .servoTick c _ _ _ => some c
  | .servoTimeout c => some c
  | .hwHoldoverExpiry c => some c
  | .cosyEnableWrite _ c _ => some c
  | .ppsOutEdge c => some c
  | .todOutFrame c => some c
  | .setDefaultDs _ c _ _ => some c
  | .setPortDs _ c _ _ => some c
  | .getPortDs _ c _ _ => some c
  | .addPeer _ c _ _ => some c
  | .delPeer _ c _ _ => some c
  | .getStatus _ c _ _ => some c
  | .setTime _ c _ _ => some c
  | .setTimeProps _ c _ _ => some c
  | .saveModel _ c _ _ _ => some c
  | .loadModel _ c _ _ _ _ => some c
  | .resetModel _ c _ _ => some c
  | .arm _ c _ _ _ _ _ _ => some c
  | .cancel _ c _ _ _ => some c
  | .free _ c _ _ => some c
  | .slotRdIdxWrite _ c _ => some c
  | .pour c _ => some c
  | .gateSwap c _ => some c
  | .calSwitch c _ => some c
  | .slotPage c _ => some c
  | .portEnable c _ => some c
  | .sampler c _ => some c
  | .pmBin c _ => some c
  | .hbmRetrain c _ => some c
  | .jrnlMarker c _ => some c
  | .stage _ c _ => some c
  | .stageDone c _ _ => some c
  | .commit _ c _ => some c
  | .discard _ c _ => some c
  | .discardSweepDone c => some c
  | .retire c => some c
  | .retireSweepDone c => some c
  | .pourTagSettle c => some c
  | .rxFrame c _ _ _ _ _ _ => some c
  | .fecUncorrCw c _ _ _ => some c
  | .portCfgWrite _ c _ _ => some c
  | .portEnWrite _ c _ _ => some c
  | .portDiscardWrite _ c _ _ => some c
  | .recal _ c _ => some c
  | .restartAn _ c _ => some c
  | .cntClear _ c _ => some c
  | .laneCfgWrite _ c _ _ => some c
  | .recalDone c _ _ => some c
  | .linkTrained c _ => some c
  | .ltFail c _ _ => some c
  | .ltRetry c _ => some c
  | .portFault c _ _ _ => some c
  | .downHoldExpiry c _ => some c
  | .upHoldExpiry c _ => some c
  | .laneMargin c _ _ => some c
  | .pfcPauseExpiry c _ _ => some c
  | .pfcWd c _ _ => some c
  | .pfcXoffRepeat c _ _ => some c
  | .preemptVerifyDone c _ _ => some c
  | .frameLaunch c _ _ => some c
  | .flexeMemberDefect c _ _ _ _ _ _ _ _ => some c
  | .groupAligned c _ _ => some c
  | .ohFrameRx c _ _ _ _ _ _ _ => some c
  | .calSwitchReq _ c _ _ => some c
  | .calSwitchInstant c _ => some c
  | .caTimeout c _ => some c
  | .connMemWrite _ c _ _ _ _ => some c
  | .slotCommit _ c _ => some c
  | .slotCommitDone c _ => some c
  | .slotSwitch _ c _ => some c
  | .pageSwitchInstant c _ => some c
  | .slotParityErr c _ _ => some c
  | .pmSecondLatch c _ _ => some c
  | .pmLatchAck c _ => some c
  | .pmRead _ c _ _ => some c
  | .pmReset _ c _ _ => some c
  | .dispatch c => some c
  | .pZero c _ => some c
  | .pNop c _ => some c
  | .pDone c _ => some c
  | .pExt c _ => some c
  | .pExtf c _ => some c
  | .pAdv c _ => some c
  | .pEmit c _ => some c
  | .pEmiti c _ => some c
  | .pAlu c _ => some c
  | .pAlui c _ => some c
  | .pMovi c _ => some c
  | .pHash c _ => some c
  | .pCsum c _ => some c
  | .pPtl c _ => some c
  | .pBr c _ => some c
  | .pBrx c _ => some c
  | .pMatch c _ => some c
  | .pLock c _ => some c
  | .pTrylock c _ => some c
  | .pUnlock c _ => some c
  | .pMbw c _ => some c
  | .pMbs c _ => some c
  | .pMbr c _ => some c
  | .pWfe c _ => some c
  | .pSev c _ => some c
  | .pTmr c _ => some c
  | .pTime c _ => some c
  | .pRdf c _ => some c
  | .pWrf c _ => some c
  | .lookupReturn c _ => some c
  | .threadTimerExpiry c _ => some c
  | .lockGrant c _ => some c
  | .eventWake c _ => some c
  | .reorderSkip c _ => some c
  | .engineStall c _ => some c
  | .clusterStall c _ => some c
  | .threadRegUe c _ => some c
  | .instrPoison c _ _ _ => some c
  | .dbgHalt _ c => some c
  | .dbgResume _ c => some c
  | .dbgStep _ c => some c
  | .dbgDetach _ c => some c
  | .dbgRegWrite _ c => some c
  | .dbgEvent _ c => some c
  | .dbgRegIdxWrite _ c _ => some c
  | .breakpointHit c _ => some c
  | .ptblIdxWrite _ c _ _ _ => some c
  | .strainerDistribute c _ => some c
  | .strainerStage c _ _ _ _ _ _ _ _ _ => some c
  | .strainerVerdict c _ _ => some c
  | .tableCreate _ c _ _ => some c
  | .tableDestroy _ c _ _ => some c
  | .insert _ c _ _ => some c
  | .update _ c _ _ => some c
  | .delete _ c _ _ => some c
  | .tblLookup _ c _ _ => some c
  | .search _ c _ _ => some c
  | .next _ c _ _ => some c
  | .flushByPort _ c _ _ => some c
  | .flushByPortDone c _ => some c
  | .ageSweep _ c _ _ => some c
  | .agingSweep c _ => some c
  | .learnFlush _ c => some c
  | .tblScrub c _ _ _ _ _ _ => some c
  | .ternScrub c _ _ _ _ => some c
  | .divergenceConfirm c _ _ _ _ => some c
  | .bankRotate _ c _ _ => some c
  | .bankRotateDone c _ => some c
  | .bankRestore _ c _ _ => some c
  | .bankRetire _ c _ _ => some c
  | .shadowSet _ c _ _ => some c
  | .compare _ c _ _ _ _ => some c
  | .repair _ c _ _ _ _ => some c
  | .bankStatus _ c _ _ => some c
  | .bufferAlloc c _ _ => some c
  | .spillRequest c _ _ => some c
  | .hbmWriteAck c _ => some c
  | .admission c _ => some c
  | .bufferFree c _ _ _ => some c
  | .freeCmd _ c _ => some c
  | .orphanSweep c => some c
  | .regionAssign _ c _ _ _ => some c
  | .regionMove _ c _ _ _ => some c
  | .regionCancel _ c _ _ => some c
  | .regionFence _ c _ _ => some c
  | .regionUnfence _ c _ _ => some c
  | .regionRetire _ c _ _ => some c
  | .regionPurge _ c _ _ => some c
  | .regionRdIdxWrite _ c _ => some c
  | .acctPoolWrite _ c _ => some c
  | .acctOpen _ c _ => some c
  | .acctClose _ c _ => some c
  | .qSelWrite _ c _ => some c
  | .flushRange _ c => some c
  | .flushAccount _ c => some c
  | .flushPartition _ c => some c
  | .flushComplete c => some c
  | .mcReplicate c _ => some c
  | .holdWindowExpiry c _ => some c
  | .egressQueueMap c _ => some c
  | .schedRelease c _ => some c
  | .nodeSelWrite _ c _ => some c
  | .nodeCmd _ c => some c
  | .nodeUe c _ _ => some c
  | .swapStart c _ => some c
  | .entIdxWrite _ c _ _ => some c
  | .entDurWrite _ c _ => some c
  | .listUe c _ _ => some c
  | .cellTx c _ _ => some c
  | .cellRx c _ _ => some c
  | .reasmTimeout c _ => some c
  | .reasmResync c _ => some c
  | .laneLeaveActive c _ _ _ => some c
  | .spareActivate c _ => some c
  | .helloTx c => some c
  | .helloLapse c _ _ => some c
  | .creditSlot c => some c
  | .creditReqRefresh c _ => some c
  | .reqEntryExpiry c _ _ _ => some c
  | .voqBalanceExpiry c _ => some c
  | .fabCfgWrite _ c _ => some c
  | .fabLaneCfgWrite _ c _ _ => some c
  | .sportIdxWrite _ c _ => some c
  | .mcIdxWrite _ c _ => some c
  | .reachIdxWrite _ c _ => some c
  | .hbmEnable _ c _ => some c
  | .hbmTrainDone c _ _ _ _ _ _ => some c
  | .hbmAccess c _ _ => some c
  | .hbmRefresh c _ _ => some c
  | .pause _ c _ _ => some c
  | .hbmResume _ c _ _ _ => some c
  | .restore _ c _ _ _ => some c
  | .pattern _ c _ _ => some c
  | .setTiming _ c _ _ => some c
  | .sppr _ c _ _ => some c
  | .hppr _ c _ _ => some c
  | .hbmFail _ c _ _ _ => some c
  | .pauseTimeout c => some c
  | .fastRetrainTick c => some c
  | .retrainWindowEnd c _ => some c
  | .drainSlow c _ => some c
  | .hbmStatus _ c _ _ => some c
  | .fullRetrain _ c _ _ => some c
  | .abortRetrain _ c _ _ => some c
  | .fastRetrain _ c _ _ => some c
  | .repairLogSave _ c _ _ _ => some c
  | .repairLogLoad _ c _ _ _ _ => some c
  | .doorbell _ c _ _ _ => some c
  | .irqArm _ c _ _ => some c
  | .descConsume c _ _ _ _ _ _ => some c
  | .recordPost c _ _ _ _ _ => some c
  | .packTimeout c _ _ _ => some c
  | .partCreate _ c _ => some c
  | .partQuiesce _ c _ => some c
  | .quiesceStepDone c _ => some c
  | .quiesceStepTimeout c _ => some c
  | .partResume _ c _ => some c
  | .partReset _ c _ => some c
  | .partRemove _ c _ => some c
  | .ringCfgWrite _ c _ => some c
  | .identWrite _ c _ _ => some c
  | .portOwnWrite _ c _ _ => some c
  | .testStart _ c _ => some c
  | .testStop _ c _ _ _ => some c
  | .testClear _ c _ => some c
  | .testInject _ c _ => some c
  | .testSelWrite _ c _ _ _ _ => some c
  | .pendingTestStart c _ _ _ => some c
  | .testDurationEnd c _ _ _ _ _ => some c
  | .checkerLockLoss c _ _ _ _ _ => some c
  | .bankTestDone c _ _ => some c
  | .dump _ c _ => some c
  | .laneRepair c _ _ _ => some c
  | .saucerLaneFail c _ => some c
  | .smbSetAddr _ => none
  | .smbRead => none
  | .smbWrite _ => none
  | .samplePreload _ _ => none
  | .extest _ => none
  | .idcode => none
  | .clamp => none
  | .highz => none
  | .unlockReq => none
  | .unlockResp _ => none
  | .jtagLock _ => none
  | .regAccess _ _ _ => none
  | .bypass _ => none
  | .unlockBlockExpiry => none
  | .jtagCtrlLock _ _ => none
  | .regRead _ _ => none
  | .oscInReturns c => some c
  | .pcieLinkDown => none
  | .relayAlignmentLoss c => some c
  | .ch0FeDieFailure => none
  | .portFaultClear c _ _ => some c
  | .pfcWdRelease c _ _ => some c
  | .fabLaneTrained c _ => some c
  | .fabLaneFault c _ _ => some c
  | .clientRxLf c _ _ => some c
  | .checkerLocked c _ _ _ => some c
  | .saucerLinkUp c => some c

/-- Who makes the access that the command is, where it is one. -/
def Instr.req : Instr → Option Req
  | .powerOn => none
  | .powerLoss => none
  | .inputOvervoltage => none
  | .inputOvercurrent => none
  | .pwrgoodRise _ => none
  | .pwrgoodHoldLow => none
  | .perstAssert => none
  | .perstDeassert => none
  | .pcieLinkTrained _ _ _ => none
  | .flr _ => none
  | .vfEnableChange _ => none
  | .msixUnmask _ _ => none
  | .chRstAssert _ => none
  | .chRstRelease _ => none
  | .chResetWrite r _ _ => some r
  | .chPdWrite r _ _ => some r
  | .chRailsGood _ => none
  | .bistDone _ _ _ => none
  | .refclkLoss _ => none
  | .sensorSample _ _ _ _ _ _ _ => none
  | .railShutdown _ _ _ => none
  | .oscThermSample _ _ => none
  | .regWrite r _ _ _ => some r
  | .rcFieldRead r _ => some r
  | .readLowWord r _ => some r
  | .readHighWord r _ => some r
  | .writeLowWord r _ _ => some r
  | .writeHighWord r _ _ => some r
  | .unsupportedAccess r _ => some r
  | .softReset r _ => some r
  | .softResetDone _ => none
  | .enableWrite r _ _ => some r
  | .quiesceReq r _ _ => some r
  | .quiesceDone _ => none
  | .testTakeoverClear r _ => some r
  | .intForce r _ _ => some r
  | .tallyClear r _ => some r
  | .relayFlitRx _ _ => none
  | .relayAutoRetrain _ => none
  | .relayRetrain r _ _ => some r
  | .relayRetrainDone _ _ => none
  | .lockstepMismatch _ _ => none
  | .selfDiagFail _ _ => none
  | .keeperSramUe _ _ _ => none
  | .keeperCycleBoundary _ _ => none
  | .wdogForceClaim _ _ => none
  | .copyPoint _ _ _ => none
  | .claimWrite _ _ _ => none
  | .keeperWrite _ _ _ _ _ _ => none
  | .repairCheckDone _ _ _ => none
  | .partnerAbsentTimeout _ _ => none
  | .keeperBootDone _ _ => none
  | .fwLoad r _ _ => some r
  | .fwLoadDone _ _ _ _ _ _ => none
  | .keepSoftReset r _ _ => some r
  | .keepEnableWrite r _ _ _ => some r
  | .getInfo r _ _ _ => some r
  | .handover r _ _ _ => some r
  | .handoverClaimDrop _ => none
  | .jrnlMark r _ _ _ => some r
  | .svnCommit r _ _ _ => some r
  | .svcBadOpcode r _ _ _ _ => some r
  | .keeperHalt _ _ => none
  | .keeperResume _ _ => none
  | .jrnlClear r _ => some r
  | .jrnlUnfreeze r _ => some r
  | .jrnlRdIdxWrite r _ _ _ => some r
  | .jrnlStreamEntry _ _ _ _ => none
  | .oscFail _ _ _ => none
  | .clkReturn _ _ => none
  | .todSnapshot r _ => some r
  | .ppsInEdge _ _ _ => none
  | .ppsMiss _ => none
  | .todInFrame _ _ => none
  | .todFrameAbandon _ => none
  | .cosyStep _ _ => none
  | .servoTick _ _ _ _ => none
  | .servoTimeout _ => none
  | .hwHoldoverExpiry _ => none
  | .cosyEnableWrite r _ _ => some r
  | .ppsOutEdge _ => none
  | .todOutFrame _ => none
  | .setDefaultDs r _ _ _ => some r
  | .setPortDs r _ _ _ => some r
  | .getPortDs r _ _ _ => some r
  | .addPeer r _ _ _ => some r
  | .delPeer r _ _ _ => some r
  | .getStatus r _ _ _ => some r
  | .setTime r _ _ _ => some r
  | .setTimeProps r _ _ _ => some r
  | .saveModel r _ _ _ _ => some r
  | .loadModel r _ _ _ _ _ => some r
  | .resetModel r _ _ _ => some r
  | .arm r _ _ _ _ _ _ _ => some r
  | .cancel r _ _ _ _ => some r
  | .free r _ _ _ => some r
  | .slotRdIdxWrite r _ _ => some r
  | .pour _ _ => none
  | .gateSwap _ _ => none
  | .calSwitch _ _ => none
  | .slotPage _ _ => none
  | .portEnable _ _ => none
  | .sampler _ _ => none
  | .pmBin _ _ => none
  | .hbmRetrain _ _ => none
  | .jrnlMarker _ _ => none
  | .stage r _ _ => some r
  | .stageDone _ _ _ => none
  | .commit r _ _ => some r
  | .discard r _ _ => some r
  | .discardSweepDone _ => none
  | .retire _ => none
  | .retireSweepDone _ => none
  | .pourTagSettle _ => none
  | .rxFrame _ _ _ _ _ _ _ => none
  | .fecUncorrCw _ _ _ _ => none
  | .portCfgWrite r _ _ _ => some r
  | .portEnWrite r _ _ _ => some r
  | .portDiscardWrite r _ _ _ => some r
  | .recal r _ _ => some r
  | .restartAn r _ _ => some r
  | .cntClear r _ _ => some r
  | .laneCfgWrite r _ _ _ => some r
  | .recalDone _ _ _ => none
  | .linkTrained _ _ => none
  | .ltFail _ _ _ => none
  | .ltRetry _ _ => none
  | .portFault _ _ _ _ => none
  | .downHoldExpiry _ _ => none
  | .upHoldExpiry _ _ => none
  | .laneMargin _ _ _ => none
  | .pfcPauseExpiry _ _ _ => none
  | .pfcWd _ _ _ => none
  | .pfcXoffRepeat _ _ _ => none
  | .preemptVerifyDone _ _ _ => none
  | .frameLaunch _ _ _ => none
  | .flexeMemberDefect _ _ _ _ _ _ _ _ _ => none
  | .groupAligned _ _ _ => none
  | .ohFrameRx _ _ _ _ _ _ _ _ => none
  | .calSwitchReq r _ _ _ => some r
  | .calSwitchInstant _ _ => none
  | .caTimeout _ _ => none
  | .connMemWrite r _ _ _ _ _ => some r
  | .slotCommit r _ _ => some r
  | .slotCommitDone _ _ => none
  | .slotSwitch r _ _ => some r
  | .pageSwitchInstant _ _ => none
  | .slotParityErr _ _ _ => none
  | .pmSecondLatch _ _ _ => none
  | .pmLatchAck _ _ => none
  | .pmRead r _ _ _ => some r
  | .pmReset r _ _ _ => some r
  | .dispatch _ => none
  | .pZero _ _ => none
  | .pNop _ _ => none
  | .pDone _ _ => none
  | .pExt _ _ => none
  | .pExtf _ _ => none
  | .pAdv _ _ => none
  | .pEmit _ _ => none
  | .pEmiti _ _ => none
  | .pAlu _ _ => none
  | .pAlui _ _ => none
  | .pMovi _ _ => none
  | .pHash _ _ => none
  | .pCsum _ _ => none
  | .pPtl _ _ => none
  | .pBr _ _ => none
  | .pBrx _ _ => none
  | .pMatch _ _ => none
  | .pLock _ _ => none
  | .pTrylock _ _ => none
  | .pUnlock _ _ => none
  | .pMbw _ _ => none
  | .pMbs _ _ => none
  | .pMbr _ _ => none
  | .pWfe _ _ => none
  | .pSev _ _ => none
  | .pTmr _ _ => none
  | .pTime _ _ => none
  | .pRdf _ _ => none
  | .pWrf _ _ => none
  | .lookupReturn _ _ => none
  | .threadTimerExpiry _ _ => none
  | .lockGrant _ _ => none
  | .eventWake _ _ => none
  | .reorderSkip _ _ => none
  | .engineStall _ _ => none
  | .clusterStall _ _ => none
  | .threadRegUe _ _ => none
  | .instrPoison _ _ _ _ => none
  | .dbgHalt r _ => some r
  | .dbgResume r _ => some r
  | .dbgStep r _ => some r
  | .dbgDetach r _ => some r
  | .dbgRegWrite r _ => some r
  | .dbgEvent r _ => some r
  | .dbgRegIdxWrite r _ _ => some r
  | .breakpointHit _ _ => none
  | .ptblIdxWrite r _ _ _ _ => some r
  | .strainerDistribute _ _ => none
  | .strainerStage _ _ _ _ _ _ _ _ _ _ => none
  | .strainerVerdict _ _ _ => none
  | .tableCreate r _ _ _ => some r
  | .tableDestroy r _ _ _ => some r
  | .insert r _ _ _ => some r
  | .update r _ _ _ => some r
  | .delete r _ _ _ => some r
  | .tblLookup r _ _ _ => some r
  | .search r _ _ _ => some r
  | .next r _ _ _ => some r
  | .flushByPort r _ _ _ => some r
  | .flushByPortDone _ _ => none
  | .ageSweep r _ _ _ => some r
  | .agingSweep _ _ => none
  | .learnFlush r _ => some r
  | .tblScrub _ _ _ _ _ _ _ => none
  | .ternScrub _ _ _ _ _ => none
  | .divergenceConfirm _ _ _ _ _ => none
  | .bankRotate r _ _ _ => some r
  | .bankRotateDone _ _ => none
  | .bankRestore r _ _ _ => some r
  | .bankRetire r _ _ _ => some r
  | .shadowSet r _ _ _ => some r
  | .compare r _ _ _ _ _ => some r
  | .repair r _ _ _ _ _ => some r
  | .bankStatus r _ _ _ => some r
  | .bufferAlloc _ _ _ => none
  | .spillRequest _ _ _ => none
  | .hbmWriteAck _ _ => none
  | .admission _ _ => none
  | .bufferFree _ _ _ _ => none
  | .freeCmd r _ _ => some r
  | .orphanSweep _ => none
  | .regionAssign r _ _ _ _ => some r
  | .regionMove r _ _ _ _ => some r
  | .regionCancel r _ _ _ => some r
  | .regionFence r _ _ _ => some r
  | .regionUnfence r _ _ _ => some r
  | .regionRetire r _ _ _ => some r
  | .regionPurge r _ _ _ => some r
  | .regionRdIdxWrite r _ _ => some r
  | .acctPoolWrite r _ _ => some r
  | .acctOpen r _ _ => some r
  | .acctClose r _ _ => some r
  | .qSelWrite r _ _ => some r
  | .flushRange r _ => some r
  | .flushAccount r _ => some r
  | .flushPartition r _ => some r
  | .flushComplete _ => none
  | .mcReplicate _ _ => none
  | .holdWindowExpiry _ _ => none
  | .egressQueueMap _ _ => none
  | .schedRelease _ _ => none
  | .nodeSelWrite r _ _ => some r
  | .nodeCmd r _ => some r
  | .nodeUe _ _ _ => none
  | .swapStart _ _ => none
  | .entIdxWrite r _ _ _ => some r
  | .entDurWrite r _ _ => some r
  | .listUe _ _ _ => none
  | .cellTx _ _ _ => none
  | .cellRx _ _ _ => none
  | .reasmTimeout _ _ => none
  | .reasmResync _ _ => none
  | .laneLeaveActive _ _ _ _ => none
  | .spareActivate _ _ => none
  | .helloTx _ => none
  | .helloLapse _ _ _ => none
  | .creditSlot _ => none
  | .creditReqRefresh _ _ => none
  | .reqEntryExpiry _ _ _ _ => none
  | .voqBalanceExpiry _ _ => none
  | .fabCfgWrite r _ _ => some r
  | .fabLaneCfgWrite r _ _ _ => some r
  | .sportIdxWrite r _ _ => some r
  | .mcIdxWrite r _ _ => some r
  | .reachIdxWrite r _ _ => some r
  | .hbmEnable r _ _ => some r
  | .hbmTrainDone _ _ _ _ _ _ _ => none
  | .hbmAccess _ _ _ => none
  | .hbmRefresh _ _ _ => none
  | .pause r _ _ _ => some r
  | .hbmResume r _ _ _ _ => some r
  | .restore r _ _ _ _ => some r
  | .pattern r _ _ _ => some r
  | .setTiming r _ _ _ => some r
  | .sppr r _ _ _ => some r
  | .hppr r _ _ _ => some r
  | .hbmFail r _ _ _ _ => some r
  | .pauseTimeout _ => none
  | .fastRetrainTick _ => none
  | .retrainWindowEnd _ _ => none
  | .drainSlow _ _ => none
  | .hbmStatus r _ _ _ => some r
  | .fullRetrain r _ _ _ => some r
  | .abortRetrain r _ _ _ => some r
  | .fastRetrain r _ _ _ => some r
  | .repairLogSave r _ _ _ _ => some r
  | .repairLogLoad r _ _ _ _ _ => some r
  | .doorbell _ _ _ _ _ => none
  | .irqArm _ _ _ _ => none
  | .descConsume _ _ _ _ _ _ _ => none
  | .recordPost _ _ _ _ _ _ => none
  | .packTimeout _ _ _ _ => none
  | .partCreate r _ _ => some r
  | .partQuiesce r _ _ => some r
  | .quiesceStepDone _ _ => none
  | .quiesceStepTimeout _ _ => none
  | .partResume r _ _ => some r
  | .partReset r _ _ => some r
  | .partRemove r _ _ => some r
  | .ringCfgWrite r _ _ => some r
  | .identWrite r _ _ _ => some r
  | .portOwnWrite r _ _ _ => some r
  | .testStart r _ _ => some r
  | .testStop r _ _ _ _ => some r
  | .testClear r _ _ => some r
  | .testInject r _ _ => some r
  | .testSelWrite r _ _ _ _ _ => some r
  | .pendingTestStart _ _ _ _ => none
  | .testDurationEnd _ _ _ _ _ _ => none
  | .checkerLockLoss _ _ _ _ _ _ => none
  | .bankTestDone _ _ _ => none
  | .dump r _ _ => some r
  | .laneRepair _ _ _ _ => none
  | .saucerLaneFail _ _ => none
  | .smbSetAddr _ => none
  | .smbRead => none
  | .smbWrite _ => none
  | .samplePreload _ _ => none
  | .extest _ => none
  | .idcode => none
  | .clamp => none
  | .highz => none
  | .unlockReq => none
  | .unlockResp _ => none
  | .jtagLock _ => none
  | .regAccess _ _ _ => none
  | .bypass _ => none
  | .unlockBlockExpiry => none
  | .jtagCtrlLock r _ => some r
  | .regRead r _ => some r
  | .oscInReturns _ => none
  | .pcieLinkDown => none
  | .relayAlignmentLoss _ => none
  | .ch0FeDieFailure => none
  | .portFaultClear _ _ _ => none
  | .pfcWdRelease _ _ _ => none
  | .fabLaneTrained _ _ => none
  | .fabLaneFault _ _ _ => none
  | .clientRxLf _ _ _ => none
  | .checkerLocked _ _ _ _ => none
  | .saucerLinkUp _ => none

end Sys2Proof
end

