-- ==== Sys2Proof/Safety.lean ====
section
/-! DEFINITION. The terms the statements use: what it is that a command completes, when a channel or the host's path to it is ready, the
frame of a channel, and the invariants of the module. -/

namespace Sys2Proof

open Sys2Proof.Machine

/-- The command answers a next state, and that state satisfies `P`. -/
def Completes (i : Instr) (s : State) (P : State → Prop) : Prop := ∃ t, exec i s = .next t ∧ P t

/-- The channel's data path runs (R598), and the package has taken what the channel put out (`Delivered`). -/
def Ready (s : State) (c : Fin 4) : Prop := s.chLive c = true ∧ (s.chan c).outQ = []

/-- PF0 reaches the pages of a running channel: the host link is out of reset, the package answers, and the relay link is up (R22–R24). -/
def HostReady (s : State) (c : Fin 4) : Prop := Ready s c ∧ s.isl.dead = false ∧ s.isl.perst = false ∧ s.relayUp c = true

/-- The claim gates of a running channel let keeper `k` write, and its cores run (R80, R87). -/
def KeeperReady (s : State) (c : Fin 4) (k : Fin 2) : Prop :=
  Ready s c ∧ (s.chan c).busOn k.val = true ∧ (s.chan c).winner = some k.val

/-- PF0 reaches the pages of the host island. -/
def IslReady (s : State) : Prop := s.isl.dead = false ∧ s.isl.perst = false

/-- Requester `r` may use a register of channel `c`'s pages, `mw` when the access writes an MW field (R47, R48): with PF0's rights, or as a
function of partition 0. -/
def MayUse (s : State) (r : Req) (c : Fin 4) (mw : Bool) : Prop :=
  s.reach r = true ∧ r.keeper? = none ∧ r ≠ .smbus ∧
    (r.isPf0 = true ∨ (mw = false ∧ ((s.chan c).part 0).member (r.func?.getD 0) = true))

/-- The module once the page's tally unit has counted an access of `r` (R77): event 2 is a read, event 3 a write. -/
def counted (s : State) (r : Req) (c : Fin 4) (p : Pg) (ev : Nat) : State :=
  s.onPages c (fun ch => ch.tally p ev (r.attr ((s.chan c).partOf (r.func?.getD 0))))

/-- The write that a register's effect receives, of a register that is no half of a 64-bit value. -/
def wordReq (s : State) (r : Req) (c : Fin 4) (p : Pg) (off : Nat) (h : RegHit) (v : Word) : WReq :=
  ⟨c, p, off, r, (s.chan c).get p off, v, mergeWord h.row.fields ((s.chan c).get p off) v, none, false⟩

/-- The effect of a write of the register at `off` of page `p`, as the block and the module's present state give it. -/
def effectOf (s : State) (c : Fin 4) (p : Pg) (off : Nat) : Hook := hookOf (s.hostReach c) (fun v => (s.isl.vecOwner v).1) p off

/-- The channel power and reset requests can act (R599): the module runs and is not PACKAGE_FATAL. -/
def PowerReady (s : State) (c : Fin 4) : Prop := s.hasChan c = true ∧ s.isl.pkgFatal = false ∧ s.isl.pwrgood = true

/-- Everything of a channel but its registers and what it puts out. -/
def workOf (ch : Chan) : Chan := { ch with regs := [], outQ := [] }

/-- Everything of a channel but its registers, its outputs and the journals of its keepers. -/
def quietOf (ch : Chan) : Chan :=
  { ch with
    regs := [], outQ := [], jrnlWait := [], regA := { ch.regA with jrnl := {} }, regB := { ch.regB with jrnl := {} }, jsec := [],
    secs := [] }

/-- Every channel's outputs have been delivered to the package: no command leaves any behind (log 7). -/
def Delivered (s : State) : Prop := ∀ c : Fin 4, (s.chan c).outQ = []

/-- A channel that the variant does not have stays as reset leaves it (R2). -/
def AbsentInert (s : State) : Prop := ∀ c : Fin 4, s.hasChan c = false → s.chan c = State.reset.chan c

/-- The counter of a received frame that is no MAC control frame, by the first check of R214 that it fails. -/
def rxCounter (ch : Chan) (p : Nat) (b : List Byte) (truncated fragErr : Bool) : Nat → Nat :=
  if ch.rxOn p = false then LINE.RX_DISABLED
  else if ch.portB p LINE.PORT_CTRL_DISCARD then LINE.RX_QUIESCE
  else if fragErr then LINE.RX_FRAG_ERR
  else if truncated || !(fcsOk b) then LINE.RX_FCS_ERR
  else if b.length < 64 then LINE.RX_UNDERSIZE
  else if ch.portF p LINE.PORT_CFG_MAX_FRAME < b.length then LINE.RX_OVERSIZE
  else LINE.RX_OK_FRAMES

/-- The commands that issue a parse instruction, each with the opcode that it issues (R311). -/
def parseCommands : List (Nat × (Fin 4 → Nat → Instr)) :=
  [(0x00, .pZero), (0x01, .pNop), (0x02, .pDone), (0x08, .pExt), (0x09, .pExtf), (0x0A, .pAdv), (0x0B, .pEmit), (0x0C, .pEmiti), (0x10, .pAlu),
    (0x11, .pAlui), (0x12, .pMovi), (0x14, .pHash), (0x15, .pCsum), (0x18, .pPtl), (0x20, .pBr), (0x21, .pBrx), (0x22, .pMatch), (0x28, .pLock),
    (0x29, .pTrylock), (0x2A, .pUnlock), (0x30, .pMbw), (0x31, .pMbs), (0x32, .pMbr), (0x38, .pWfe), (0x39, .pSev), (0x3A, .pTmr), (0x40, .pTime),
    (0x41, .pRdf), (0x42, .pWrf)]

/-- The thread is at an instruction of opcode `opc`: READY with a packet, in a cluster that works. -/
structure AtOpcode (ch : Chan) (t opc : Nat) : Prop where
  tid : t < 2048
  ready : (ch.thr t).st = 1
  packet : (ch.thr t).pkt.isSome = true
  cluster : ch.enabled (pgPclu (t / 128)) = true
  opcode : iOpc (ch.instrWord t) = opc

/-- Neither a breakpoint nor a STEP nor a skipped number interferes with the thread. -/
structure Undisturbed (ch : Chan) (t : Nat) : Prop where
  noBreak : ch.bpMatch t = none
  noStep : (ch.thr t).stepping = 0
  inTime : (ch.thr t).skipped = false

/-- The thread can issue an instruction of opcode `opc`, and nothing comes before its effect: READY with a packet, its cluster works, no
breakpoint matches, no STEP is under way, no instruction limit reached, no poisoned word, no result outstanding that it needs, its predicate
holds, and it is its turn in the ring of its engine (R270, R310). -/
structure CanIssue (ch : Chan) (t opc : Nat) : Prop where
  tid : t < 2048
  ready : (ch.thr t).st = 1
  packet : (ch.thr t).pkt.isSome = true
  cluster : ch.enabled (pgPclu (t / 128)) = true
  opcode : iOpc (ch.instrWord t) = opc
  noBreak : ch.bpMatch t = none
  noStep : (ch.thr t).stepping = 0
  inTime : (ch.thr t).skipped = false
  limit : (ch.thr t).icount < (ch.thr t).maxInstr
  sound : tget 0 ch.prs.poison (poisonKey (t / 128) ((ch.thr t).pkt.getD {}).parity (ch.thr t).pc) = 0
  holds : condHolds (ch.thr t).flags (iCond (ch.instrWord t)) = true
  free : (ch.thr t).blocked (ch.instrWord t) = false
  turn : ch.turn (t / 8) = some t

/-- Of the channel only thread `t`, whose turn it was, registers and outputs differ. -/
def OnlyThread (ch ch' : Chan) (t : Nat) : Prop :=
  (∀ j, j ≠ t → ch'.thr j = ch.thr j) ∧
  { workOf ch' with prs := { ch'.prs with threads := [], issued := [] } } = { workOf ch with prs := { ch.prs with threads := [], issued := [] } }

/-- The general registers other than `r`, the carry, and the packet of a thread are as before. -/
def SameBut (x y : Thread) (r : Nat) : Prop := (∀ j, j ≠ r → y.reg j = x.reg j) ∧ y.c = x.c ∧ y.pkt = x.pkt

/-- A service command of tag `tag` can run on keeper `k` of channel `c`: the host reaches its page, the keeper is active, and no command is under
way (R111). -/
def SvcReady (s : State) (c : Fin 4) (k : Fin 2) (tag : Nat) : Prop :=
  HostReady s c ∧ (s.chan c).kstate k.val = 4 ∧ (s.chan c).getB (pgKeep k.val) KEEP.SVC_STAT_BUSY = false ∧ tag < 256

/-- The service command has completed: SVC_STAT shows DONE, its tag and its status (R111). -/
def SvcDone (t : State) (c : Fin 4) (k : Fin 2) (tag status : Nat) : Prop :=
  (t.chan c).nat (pgKeep k.val) KEEP.SVC_STAT = 2 ^ 30 + tag * 2 ^ 16 + status

/-- The host's table command port is free for a command on the valid exact-match table `table`, which both parities see (R371–R373, R383). -/
def EmReady (s : State) (c : Fin 4) (table : Nat) : Prop :=
  HostReady s c ∧ table < 64 ∧ (s.chan c).tValid table = true ∧ (s.chan c).getB pgTbl ⟨TBL.CMD_STAT, 31, 31⟩ = false ∧
    fld ((s.chan c).get pgTbl TBL.CMD_ARG) 31 30 = 3

/-- The key in the host port's registers, cut to the table's key length (R383). -/
def portKey (ch : Chan) (table : Nat) : List Byte := sliceBytes (ch.regBytes (TBL.KEY 0) 16) 0 (ch.tKeyLen table)

/-- The result in the host port's registers, cut to the table's result length. -/
def portRes (ch : Chan) (table : Nat) : List Byte := sliceBytes (ch.regBytes (TBL.RES 0) 16) 0 (ch.tResLen table)

/-- The version in an exact-match slot. -/
def emSlot (ch : Chan) (table slot : Nat) : EmVer := tget {} ch.tbl.em (emKey table slot)

/-! Frames: what a command of a block leaves as it was. Always allowed to differ: the channel's outputs and journals (with the JRNL page), the
next free value, and on the host island the interrupts held and the latches. -/

/-- Every other channel and the host island are as before; of channel `c` only registers of `pages` and of JRNL, registers that `but` names,
and what `strip` takes out, may differ. -/
def KeepsBut (s u : State) (c : Fin 4) (pages : List Pg) (but : Nat → Prop) (strip : Chan → Chan) : Prop :=
  (∀ d, d ≠ c → u.chan d = s.chan d) ∧ { u.isl with held := [], latches := [] } = { s.isl with held := [], latches := [] } ∧
  strip { quietOf (u.chan c) with free := 0 } = strip { quietOf (s.chan c) with free := 0 } ∧
  ∀ key, key / 65536 ∉ (pgJrnl :: pages).map (fun p => p.key 0 / 65536) → ¬ but key →
    rget chanReset (u.chan c).regs key = rget chanReset (s.chan c).regs key

/-- The frame of a command that takes no time: only `pages`, and what `strip` takes out. -/
def Keeps (s u : State) (c : Fin 4) (pages : List Pg) (strip : Chan → Chan) : Prop := KeepsBut s u c pages (fun _ => False) strip

/-- A register that the running clock changes: the counters and causes of a page whose tally unit is enabled (R77), and the count of blocks
that the slot switch replaces by idle (R249). -/
def ClockReg (ch : Chan) (key : Nat) : Prop :=
  (bit (ch.get (pageOf key) oTALLY) 0 = true ∧ (key % 65536 / 16 = 2 ∨ key % 65536 / 128 = 1)) ∨
  ∃ g, g < 8 ∧ (key = pgSlot.key (SLOT.IDLE_BLK g) ∨ key = pgSlot.key (SLOT.IDLE_BLK g + 4))

/-- The channel without its clocks, and without the part of an idle block that they have counted. -/
def noTime (ch : Chan) : Chan := { ch with ns := 0, time := 0, timeFrac := 0, flex := { ch.flex with idleFrac := [] } }

/-- The frame of a timed command: the clock may run, too. -/
def KeepsTimed (s u : State) (c : Fin 4) (pages : List Pg) (strip : Chan → Chan) : Prop :=
  KeepsBut s u c pages (ClockReg (s.chan c)) (fun ch => strip (noTime ch))

/-- The channel without the service command that each keeper answered last (R111). -/
def noService (ch : Chan) : Chan :=
  { ch with keepA := { ch.keepA with svcTag := 0, svcOp := 0 }, keepB := { ch.keepB with svcTag := 0, svcOp := 0 } }

/-- The channel without the replicated regions of its keepers, and without the service commands they answered. -/
def noRegions (ch : Chan) : Chan := { noService ch with regA := {}, regB := {} }

/-- Only the fabric interface, and the clock of a timed event. -/
def FabFrame (s u : State) (c : Fin 4) : Prop := KeepsTimed s u c [pgFab] (fun ch => { ch with fab := {} })

/-- Only the scheduler and the gates. -/
def SchedFrame (s u : State) (c : Fin 4) : Prop := Keeps s u c [pgSched, pgSpout] (fun ch => { ch with sch := {} })

/-- Only Caddy's buffers, queues, accounts and regions. -/
def CaddyFrame (s u : State) (c : Fin 4) : Prop := Keeps s u c [pgCaddy, pgVoq] (fun ch => { ch with cad := {} })

/-- Only the HBM controllers, the repair logs in the keepers' regions, fused repairs, Caddy's regions and buffers, the keepers' pages that
answer a service command, and the clock. -/
def HbmFrame (s u : State) (c : Fin 4) : Prop :=
  KeepsTimed s u c [pgHbmc 0, pgHbmc 1, pgCaddy, pgKeepA, pgKeepB]
    (fun ch => { noRegions ch with hbm := {}, cad := {}, hppr := [] })

/-- Only rings, records, partitions and, by a FREE descriptor, Caddy. -/
def HostFrame (s u : State) (c : Fin 4) : Prop :=
  Keeps s u c [pgPart, pgCaddy] (fun ch => { ch with rings := [], parts := [], recQ := [], cad := {}, injLast := 0 })

/-- Only rings, and the clock. -/
def RingTimed (s u : State) (c : Fin 4) : Prop := KeepsTimed s u c [pgPart] (fun ch => { ch with rings := [] })

/-- Only the tests. -/
def TestFrame (s u : State) (c : Fin 4) : Prop := Keeps s u c [pgTest 0, pgTest 1] (fun ch => { ch with tests := [] })

/-- Only the action slots. -/
def ActFrame (s u : State) (c : Fin 4) : Prop := Keeps s u c [pgAct] (fun ch => { ch with act := {} })

/-- Only the brews, the program banks that they load, the table entries of a brew, and the clock. -/
def BrewFrame (s u : State) (c : Fin 4) : Prop :=
  KeepsTimed s u c [pgBrew, pgTbl, pgTern] (fun ch => { ch with brew := {}, prs := {}, tbl := {} })

/-- Only Cosy with its clocks, the servo's state in the keepers' regions, and the keepers' pages that answer a service command. -/
def CosyFrame (s u : State) (c : Fin 4) : Prop :=
  KeepsTimed s u c [pgCosy, pgKeepA, pgKeepB] (fun ch => { noRegions ch with cosy := {}, bnd := 0 })

/-- Only the keepers, and what a keeper that loses its claim has staged at the action unit (R90). -/
def KeeperFrame (s u : State) (c : Fin 4) : Prop :=
  KeepsBut s u c [pgKeepA, pgKeepB] (fun key => ClockReg (s.chan c) key ∨ (pgAct.key 0x130 ≤ key ∧ key < pgAct.key 0x144)) (fun ch =>
    { noRegions (noTime ch) with keepA := {}, keepB := {}, lostReason := 0, karmBy := 0, inflight := none, inflightTo := 0, inflightEnd := 0,
                                 copyBad := 0, cpCyc := 0, failCyc := 0, fusedSvn := 0, started := false })

/-- Only the forwarding tables, their records, and the keepers' pages that answer a service command. -/
def TableFrame (s u : State) (c : Fin 4) : Prop :=
  Keeps s u c [pgTbl, pgTern, pgLearn, pgKeepA, pgKeepB] (fun ch => { noService ch with tbl := {}, recQ := [] })

/-- Only the slot switch and performance monitoring, with its bins in the keepers' regions. -/
def SlotFrame (s u : State) (c : Fin 4) : Prop :=
  Keeps s u c [pgSlot, pgPm, pgKeepA, pgKeepB] (fun ch => { noRegions ch with flex := {} })

/-- Only performance monitoring and what the clock of the slot switch counts, and the clock of a timed event. -/
def PmTimed (s u : State) (c : Fin 4) : Prop :=
  KeepsTimed s u c [pgSlot, pgPm, pgKeepA, pgKeepB] (fun ch => { noRegions ch with flex := {} })

/-- Only the line ports and the dispatch queues that take received frames, and the clock of a timed event. -/
def LineFrame (s u : State) (c : Fin 4) : Prop :=
  KeepsTimed s u c (pgDisp :: (List.range 8).map pgLine) (fun ch => { ch with ports := [], prs := {}, laneLow := 0 })

/-- Only the Strainer. -/
def StrnFrame (s u : State) (c : Fin 4) : Prop := Keeps s u c ((List.range 12).map pgStrn) (fun ch => { ch with strn := {} })

/-- Only the traffic manager: buffers and queues, the requests that follow their depth over the fabric, and the PFC that ports send. -/
def TmFrame (s u : State) (c : Fin 4) : Prop :=
  Keeps s u c [pgCaddy, pgVoq, pgAdm, pgSched] (fun ch => { ch with cad := {}, fab := {}, ports := [] })

/-- Only partition `p` of the partitions. -/
def OtherPartsKept (s u : State) (c : Fin 4) (p : Nat) : Prop :=
  (∀ d, d ≠ c → u.chan d = s.chan d) ∧ ∀ m, m ≠ p → (u.chan c).part m = (s.chan c).part m

end Sys2Proof
end

