-- ==== Sys2Proof/Certificates/Slice0/Obligations.lean ====
section
/-! DEFINITION. The statements for the provers: what each command of the block does to the state, family by family, and what every step keeps. -/

open Sys2Proof Sys2Proof.Machine

/-- A step takes the command at the front of the queue and runs it with the queue's rest; on an empty queue the clocks tick (log 2). -/
def Obligations.StepRunsTheFrontCommand : Prop :=
  (∀ (s : State) (i : Instr) (rest : List Instr), s.pending = i :: rest → step s = exec i { s with pending := rest }) ∧
  (∀ s : State, s.pending = [] → step s = .next s.tick)

/-- Whatever the operands and the state, a command answers a next state; it leaves the queue and the variant alone, and only adds to what the
module has put out. -/
def Obligations.EveryCommandCompletes : Prop :=
  ∀ (i : Instr) (s : State), Completes i s (fun t => t.pending = s.pending ∧ t.variant = s.variant ∧ s.out <:+ t.out)

/-- The isolation of channels (R16): a command about channel `c` that does not take the package down leaves every other channel as it was, but
for the journal of channel 0, which takes the events of the host island's pages (R121, R619). -/
def Obligations.ChannelsAreIsolated : Prop :=
  ∀ (i : Instr) (c d : Fin 4) (s t : State), i.chan = some c → d ≠ c → exec i s = .next t → t.isl.pkgFatal = false →
    (d ≠ 0 → t.chan d = s.chan d) ∧ quietOf (t.chan d) = quietOf (s.chan d) ∧
    ∀ key, key / 65536 ≠ pgJrnl.key 0 / 65536 → rget chanReset (t.chan d).regs key = rget chanReset (s.chan d).regs key

/-- After reset no output waits in a channel, and the channels that the variant lacks are untouched. -/
def Obligations.InvariantsHoldAtReset : Prop :=
 Delivered State.reset ∧ AbsentInert State.reset

/-- Every step takes what the channels put out away to the package. -/
def Obligations.StepKeepsDelivered : Prop :=
 ∀ s t : State, Delivered s → step s = .next t → Delivered t

/-- No step touches a channel that the variant does not have (R2). -/
def Obligations.StepKeepsAbsentInert : Prop :=
 ∀ s t : State, AbsentInert s → step s = .next t → AbsentInert t

/-- R601, R596, R53, R54, R56: what reset leaves: the supply is up, PWRGOOD is low and PERST_N is low, every channel is OFF, no page is BUSY, no
interrupt is pending, and Cosy is in FREE. -/
def Obligations.ResetState : Prop :=
  State.reset.isl.powered = true ∧ State.reset.isl.pwrgood = false ∧ State.reset.isl.perst = true ∧ State.reset.isl.l0 = false ∧
  State.reset.isl.pkgFatal = false ∧ State.reset.pending = [] ∧ State.reset.out = [] ∧
  ∀ c : Fin 4, State.reset.chState c = 0 ∧ State.reset.chLive c = false ∧ (State.reset.chan c).getF pgCosy COSY.STATUS_STATE = 0 ∧
    (State.reset.chan c).claim 0 = 0 ∧ (State.reset.chan c).claim 1 = 0 ∧ (State.reset.chan c).kstate 0 = 0 ∧
    (State.reset.chan c).nat pgBrew BREW.STATUS = 0 ∧
    ∀ (p : Pg) (k : PageKind), p.kind = some k → (State.reset.chan c).nat p oCAUSE = 0 ∧ (State.reset.chan c).getB p STAT_BUSY = false

/-- R20: CH_RST_N of channel 0, and a soft reset of any page of channel 0, leave the host island and the PCIe link up, and the host's path to
channels 1 to 3, and those channels, as they were. -/
def Obligations.ResetOfChannelZeroKeepsTheHostIsland : Prop :=
  ∀ (s : State) (d : Fin 4), d ≠ 0 →
    let up := fun (t : State) => t.isl.perst = s.isl.perst ∧ t.isl.l0 = s.isl.l0 ∧ t.isl.dead = s.isl.dead ∧ t.isl.pwrgood = s.isl.pwrgood ∧
      t.hostReach d = s.hostReach d ∧ t.relayUp d = s.relayUp d ∧ t.chPages d = s.chPages d ∧ t.chan d = s.chan d
    Completes (.chRstAssert 0) s up ∧
    ∀ (q : Req) (p : Pg) (k : PageKind), p.kind = some k → (s.chan 0).outQ = [] → Completes (.softReset q (addrOf 0 p 0)) s up

/-- R21: while a channel is held in reset, a read of any register of its pages is answered with 0, and a write is discarded; neither is answered
as unsupported. -/
def Obligations.PagesOfAChannelInResetReadZero : Prop :=
  ∀ (s : State) (c : Fin 4) (p : Pg) (k : PageKind) (off : Nat) (v : Word), IslReady s → s.relayUp c = true → s.hasChan c = true →
    s.chState c = 5 → p.kind = some k → off < 65536 → off % 4 = 0 →
    Completes (.regRead (.func 0) (addrOf c.val p off)) s (fun t =>
      t.out = .read (addrOf c.val p off) 0 :: s.out ∧ t.isl = s.isl ∧ ∀ d, t.chan d = s.chan d) ∧
    ∀ full : Bool, Completes (.regWrite (.func 0) (addrOf c.val p off) v full) s (fun t =>
      t.out = s.out ∧ (full = true → t.isl = s.isl) ∧ ∀ d, t.chan d = s.chan d)

/-- R24: when channel 0's FE die fails, PCIe, JTAG and the SMBus port stop, and the host reaches no channel; every channel goes on as it was. -/
def Obligations.FeDieFailureCutsTheHost : Prop :=
  ∀ s : State, Completes .ch0FeDieFailure s (fun t =>
    t.isl.dead = true ∧ t.isl.l0 = false ∧ t.isl.regs = s.isl.regs ∧ (∀ c, t.chan c = s.chan c) ∧
    (∀ c, t.hostReach c = false) ∧ (∀ n, t.reach (.func n) = false) ∧ t.reach .jtag = false ∧ t.jtagReady = false ∧
    t.reach .smbus = false)

/-- R204: a service command of opcode 0x40 to 0x4F completes with BAD_OPCODE, and does nothing else. -/
def Obligations.ActionOpcodesAreReserved : Prop :=
  ∀ (s : State) (c : Fin 4) (k : Fin 2) (tag op : Nat), SvcReady s c k tag → 0x40 ≤ op → op ≤ 0x4F →
    Completes (.svcBadOpcode (.func 0) c k tag op) s (fun t =>
      SvcDone t c k tag 1 ∧ Keeps s t c [pgKeep k.val] noService)

/-- R555: RESUME opens every account of the partition, clears DISCARD on its ports, lets every ring consume again from its HEAD to its TAIL, and
returns the partition to ACTIVE. -/
def Obligations.PartitionResume : Prop :=
  ∀ (s : State) (c : Fin 4) (p : Nat), HostReady s c → p < 32 → (s.chan c).enabled pgPart = true → ((s.chan c).part p).state = 3 →
    let ch := s.chan c
    Completes (.partResume (.func 0) c p) s (fun u =>
      (∀ a, a < 4096 → (u.chan c).acct a = if (ch.acct a).part = p then { ch.acct a with st := 1 } else ch.acct a) ∧
      (∀ q, q < 64 → (u.chan c).portF q LINE.PORT_CTRL_DISCARD = if ch.portPart q = p then 0 else ch.portF q LINE.PORT_CTRL_DISCARD) ∧
      (∀ r, r < 20 → (u.chan c).ring p r = { ch.ring p r with stopped := false }) ∧
      (u.chan c).part p = { ch.part p with state := 1 })

/-- R556: RESET leaves every ring of the partition as a write of RING_CFG.EN = 0 does, and its counters at 0; its identities, resources and
DISCARD are as before, and it stays QUIESCED. -/
def Obligations.PartitionReset : Prop :=
  ∀ (s : State) (c : Fin 4) (p : Nat), HostReady s c → p < 32 → (s.chan c).enabled pgPart = true → ((s.chan c).part p).state = 3 →
    let ch := s.chan c
    Completes (.partReset (.func 0) c p) s (fun u =>
      (∀ r, r < 32 → (u.chan c).ring p r = if (ch.ring p r).en = true then (ch.disableRing p r).ring p r else ch.ring p r) ∧
      (∀ r, r < 32 → ((u.chan c).ring p r).en = false) ∧
      (u.chan c).part p = { ch.part p with punt := 0, inject := 0, injErr := 0, learn := 0, notify := 0 } ∧
      (∀ q, q < 64 → (u.chan c).portPart q = ch.portPart q ∧ (u.chan c).portF q LINE.PORT_CTRL_DISCARD = ch.portF q LINE.PORT_CTRL_DISCARD) ∧
      (u.chan c).cad = ch.cad ∧ (u.chan c).tbl = ch.tbl)

/-- R592, R593, R596: a rising supply begins a power-on reset, a lost one clears every register and channel.

R596, R598, R599, R603: the state a channel comes to by its reset pin, CH_CTRL.RESET and PD, from every state: PD overrides the others, and a
channel that runs goes on when nothing holds it.

R593: an input fault switches every channel off, records LAST_FAULT, and makes the module PACKAGE_FATAL.

R599, R601, R603: the straps are latched, and CH_AUTO decides whether a channel that is OFF begins to power. -/
def Obligations.SupplyAndStraps : Prop :=
  ((∀ s : State, s.isl.powered = false → Completes .powerOn s (fun t =>
    t.isl.powered = true ∧ t.isl.pwrgood = false ∧ t.isl.perst = true ∧ ∀ c, t.chState c = 0)) ∧
  (∀ s : State, Completes .powerLoss s (fun t =>
    t.isl.powered = false ∧ t.isl.regs = [] ∧ ∀ c, (t.chan c).regs = [] ∧ (t.chan c).fusedSvn = (s.chan c).fusedSvn)) ∧
  (∀ s : State, Completes .pwrgoodHoldLow s (fun t =>
    t.isl.pwrgood = false ∧ t.isl.regs = [] ∧ ∀ c, t.chan c = (s.chan c).fresh))) ∧
  (∀ (s : State) (c : Fin 4),
    (PowerReady s c →
      Completes (.chRstAssert c) s (fun t => nbit t.isl.chPin c.val = true ∧ t.chan c = (s.chan c).fresh ∧
        t.chState c = if s.isl.getB hpPwr (PWRH.CH_CTRL_PD c.val) then 0 else 5) ∧
      Completes (.chRstRelease c) s (fun t => nbit t.isl.chPin c.val = false ∧
        t.chState c = if s.isl.getB hpPwr (PWRH.CH_CTRL_PD c.val) then 0 else if s.isl.getB hpPwr (PWRH.CH_CTRL_RESET c.val) then 5
          else if s.chState c = 0 ∨ s.chState c = 5 then 1 else s.chState c)) ∧
    (∀ (q : Req) (v : Word), PowerReady s c → IslReady s → s.reach q = true → q.keeper? = none → q ≠ .smbus → q.isPf0 = true →
      Completes (.chResetWrite q c v) s (fun t =>
        t.chState c = if bit v 30 then 0 else if bit v 31 || nbit s.isl.chPin c.val then 5
          else if s.chState c = 0 ∨ s.chState c = 5 then 1 else s.chState c) ∧
      Completes (.chPdWrite q c v) s (fun t =>
        t.chState c = if bit v 30 then 0 else if bit v 31 || nbit s.isl.chPin c.val then 5
          else if s.chState c = 0 ∨ s.chState c = 5 then 1 else s.chState c)) ∧
    (∀ straps : Nat, s.isl.powered = true → s.isl.pwrgood = false → s.hasChan c = true →
      Completes (.pwrgoodRise straps) s (fun t => t.isl.pwrgood = true ∧ t.isl.nat hpPwr PWRH.STRAP = straps % 16 ∧
        (t.chan c).pref = straps % 2 ∧
        t.chState c = if s.isl.pkgFatal = true then s.chState c else if nbit straps 3 = false then 0
          else if s.isl.getB hpPwr (PWRH.CH_CTRL_RESET c.val) || nbit s.isl.chPin c.val then 5
          else if s.chState c = 0 ∨ s.chState c = 5 then 1 else s.chState c))) ∧
  (∀ s : State, s.isl.powered = true →
    Completes .inputOvervoltage s (fun t => t.isl.pkgFatal = true ∧ t.isl.getF hpPwr PWRH.IN_STAT_LAST_FAULT = 1 ∧
      ∀ c, s.hasChan c = true → t.chState c = 6) ∧
    Completes .inputOvercurrent s (fun t => t.isl.pkgFatal = true ∧ t.isl.getF hpPwr PWRH.IN_STAT_LAST_FAULT = 2 ∧
      ∀ c, s.hasChan c = true → t.chState c = 6)) ∧
  (∀ (s : State) (straps : Nat) (c : Fin 4), s.isl.powered = true → s.isl.pwrgood = false → s.isl.pkgFatal = false →
    s.hasChan c = true → s.chState c = 0 → s.isl.getB hpPwr (PWRH.CH_CTRL_RESET c.val) = false → nbit s.isl.chPin c.val = false →
    Completes (.pwrgoodRise straps) s (fun t =>
      t.isl.pwrgood = true ∧ t.isl.nat hpPwr PWRH.STRAP = straps % 16 ∧ (t.chan c).pref = straps % 2 ∧
      t.chState c = if nbit straps 3 then 1 else 0))

/-- R596, R597: PERST_N takes the link down, loses the functions' MSI-X state and relocks JTAG, and leaves every channel in its
state; its release changes nothing but the reset.

R558: training puts the link in L0 and its speed, width and mode in LINK_STAT; R66: losing the link leaves L0.

R66, R534, R535: what a function reset, a change of VF Enable, and an unmask do to a function.

R25: what a flit, the timer, the host and the end of training do to a relay link. -/
def Obligations.HostIslandAndLinks : Prop :=
  ((∀ s : State, Delivered s → Completes .perstAssert s (fun t =>
    t.isl.perst = true ∧ t.isl.l0 = false ∧ t.isl.fns = [] ∧ t.isl.vfEnable = false ∧
    t.isl.getF hpPwr PWRH.JTAG_STAT_UNLOCKED = 0 ∧ t.isl.nat hpHost HOST.MSIX_CFG = s.isl.nat hpHost HOST.MSIX_CFG ∧
    t.isl.nat hpHost HOST.FUNC_CFG = s.isl.nat hpHost HOST.FUNC_CFG ∧ ∀ c, t.chState c = s.chState c)) ∧
  (∀ s : State, s.isl.pwrgood = true → Completes .perstDeassert s (fun t =>
    t.isl = { s.isl with perst := false, pageNs := if s.isl.perst then s.isl.ns else s.isl.pageNs } ∧ ∀ c, t.chan c = s.chan c))) ∧
  ((∀ (s : State) (speed width : Nat) (flit : Bool), s.isl.pwrgood = true → s.isl.perst = false → s.isl.dead = false →
    4 ≤ speed → speed ≤ 6 → 1 ≤ width → width ≤ 16 →
    Completes (.pcieLinkTrained speed width flit) s (fun t =>
      t.isl.l0 = true ∧ t.isl.getF hpHost HOST.LINK_STAT_SPEED = speed ∧ t.isl.getF hpHost HOST.LINK_STAT_WIDTH = width ∧
      (s.isl.getF hpHost HOST.LINK_STAT_SPEED ≠ speed → bit (t.isl.get hpHost oCAUSE) 9 = true))) ∧
  (∀ s : State, s.isl.l0 = true → Completes .pcieLinkDown s (fun t => t.isl.l0 = false))) ∧
  ((∀ (s : State) (f : Nat), s.isl.perst = false → s.isl.dead = false → f < 128 → (f = 0 ∨ s.isl.vfEnable = true) →
    Completes (.flr f) s (fun t => t.isl.fn f = {} ∧ (f = 0 → t.isl.vfEnable = false ∧ t.isl.vfBar0 = false) ∧
      (f ≠ 0 → t.isl.vfEnable = true ∧ t.isl.nat hpHost HOST.FLR_CNT = satAdd 32 (s.isl.nat hpHost HOST.FLR_CNT) 1))) ∧
  (∀ (s : State) (on : Bool), s.isl.perst = false → s.isl.dead = false →
    Completes (.vfEnableChange on) s (fun t => t.isl.vfEnable = on ∧
      (on = true → s.isl.vfEnable = false → t.isl.vfBar0 = s.isl.getB hpHost HOST.FUNC_CFG_VF_BAR0))) ∧
  (∀ (s : State) (f vmask : Nat), s.isl.perst = false → s.isl.dead = false → f < 128 → (f = 0 ∨ s.isl.vfEnable = true) →
    Completes (.msixUnmask f vmask) s (fun t => t.isl.fn f = { en := true, fmask := false, vmask := vmask }))) ∧
  ((∀ (s : State) (c : Fin 4), s.hasRelay c = true → s.relayState c = 1 →
    Completes (.relayFlitRx c true) s (fun t => tget 0 t.isl.relayRun c.val = 0 ∧ t.relayState c = 1) ∧
    Completes (.relayFlitRx c false) s (fun t =>
      if tget 0 s.isl.relayRun c.val < 8 then tget 0 t.isl.relayRun c.val = tget 0 s.isl.relayRun c.val + 1 ∧ t.relayState c = 1
      else t.relayState c = 2 ∧ tget 0 t.isl.relayRun c.val = 0) ∧
    Completes (.relayAlignmentLoss c) s (fun t => t.relayState c = 2)) ∧
  (∀ (s : State) (c : Fin 4), s.hasRelay c = true → s.relayState c = 2 → s.isl.getB hpRelay (RELAY.LINK_CTRL_AUTO c.val) = true →
    Completes (.relayAutoRetrain c) s (fun t => t.relayState c = 0)) ∧
  (∀ (s : State) (c : Fin 4) (v : Word), s.hasRelay c = true → IslReady s → bit v 30 = true →
    Completes (.relayRetrain (.func 0) c v) s (fun t => t.relayState c = 0)) ∧
  (∀ (s : State) (c : Fin 4), s.hasRelay c = true → s.relayState c = 0 →
    Completes (.relayRetrainDone c true) s (fun t => t.relayState c = 1) ∧
    Completes (.relayRetrainDone c false) s (fun t => t.relayState c = 2)))

/-- R596, R598, R599: the reset pin and PWR.CH_CTRL hold a channel in RESET, or without power, and lose its state; with neither it
powers up, and its rails take it to BIST as reset leaves it.

R584, R587, R588: the loss of REFCLK, and a rail outside its limits, make the channel CHANNEL_FATAL with their causes; a package rail
makes the module PACKAGE_FATAL.

R584, R609, R615, R618: samples reach the registers: a die's power adds to its energy, the package sample shows the input, and a
thermistor reading inside its range is VALID.

R584, R609, R618: the readings of a sample of either die, or of the package, stand in the sensor registers; so does any reading of the
oscillator's thermistor. -/
def Obligations.ChannelPowerAndSensors : Prop :=
  ((∀ (s : State) (c : Fin 4), PowerReady s c → s.isl.getB hpPwr (PWRH.CH_CTRL_PD c.val) = false →
    Completes (.chRstAssert c) s (fun t => t.chState c = 5 ∧ t.chan c = (s.chan c).fresh ∧ nbit t.isl.chPin c.val = true)) ∧
  (∀ (s : State) (c : Fin 4), PowerReady s c → s.isl.getB hpPwr (PWRH.CH_CTRL_PD c.val) = false →
    s.isl.getB hpPwr (PWRH.CH_CTRL_RESET c.val) = false → s.chState c = 5 →
    Completes (.chRstRelease c) s (fun t => t.chState c = 1 ∧ nbit t.isl.chPin c.val = false)) ∧
  (∀ (s : State) (c : Fin 4) (v : Word), PowerReady s c → IslReady s → bit v 31 = true → bit v 30 = false →
    Completes (.chResetWrite (.func 0) c v) s (fun t => t.chState c = 5 ∧ t.chan c = (s.chan c).fresh)) ∧
  (∀ (s : State) (c : Fin 4) (v : Word), PowerReady s c → IslReady s → bit v 30 = true →
    Completes (.chPdWrite (.func 0) c v) s (fun t => t.chState c = 0 ∧ t.chan c = (s.chan c).fresh)) ∧
  (∀ (s : State) (c : Fin 4), s.hasChan c = true → s.chState c = 1 →
    Completes (.chRailsGood c) s (fun t => t.chState c = 2 ∧ t.chan c = (s.chan c).fresh))) ∧
  ((∀ (s : State) (c : Fin 4), s.chPages c = true → s.chState c ≠ 6 → (s.chan c).outQ = [] →
    Completes (.refclkLoss c) s (fun t => t.chState c = 6 ∧ t.isl.getF hpPwr (PWRH.CH_STAT_CAUSE c.val) = 3)) ∧
  (∀ (s : State) (c : Fin 4) (die : Fin 3) (rail : Nat), die.val < 2 → s.chPages c = true → s.chState c ≠ 6 → (s.chan c).outQ = [] →
    Completes (.railShutdown c die rail) s (fun t => t.chState c = 6 ∧ t.isl.getF hpPwr (PWRH.CH_STAT_CAUSE c.val) = 2 ∧
      nbit t.isl.forcedOff c.val = true)) ∧
  (∀ (s : State) (c : Fin 4) (rail : Nat), s.isl.pwrgood = true →
    Completes (.railShutdown c 2 rail) s (fun t => t.isl.pkgFatal = true ∧ ∀ d, s.hasChan d = true → t.chState d = 6))) ∧
  ((∀ (s : State) (c : Fin 4) (temps : List Nat) (rails : List (Nat × Nat)) (mv ma pw : Nat), Ready s c →
    (s.chan c).enabled (pgSens 0) = true →
    Completes (.sensorSample c 0 temps rails mv ma pw) s (fun t => (t.chan c).energyFe = (s.chan c).energyFe + pw % 65536 ∧
      (t.chan c).energyTm = (s.chan c).energyTm)) ∧
  (∀ (s : State) (c : Fin 4) (mv ma pw : Nat), s.isl.pwrgood = true → s.isl.getB hpSens CTRL_ENABLE = true →
    mv < 2 ^ 32 → ma < 2 ^ 32 → pw < 2 ^ 32 →
    Completes (.sensorSample c 2 [] [] mv ma pw) s (fun t => t.isl.nat hpSens (SENS.PKG 0) = mv ∧
      t.isl.nat hpSens (SENS.PKG 1) = ma ∧ t.isl.nat hpSens (SENS.PKG 2) = pw)) ∧
  (∀ (s : State) (c : Fin 4) (reading : Nat), Ready s c → (s.chan c).enabled (pgPwr 0) = true → reading < 65536 →
    -880 ≤ toSigned reading 16 → toSigned reading 16 ≤ 2000 →
    Completes (.oscThermSample c reading) s (fun t => (t.chan c).nat (pgPwr 0) PWR.OSC_THERM = 2 ^ 31 + reading ∧
      KeepsTimed s t c [pgPwr 0] (fun ch => { ch with sampleAt := [] })))) ∧
  ((∀ (s : State) (c : Fin 4) (die : Fin 3) (temps : List Nat) (rails : List (Nat × Nat)) (mv ma pw : Nat), Ready s c → die.val < 2 →
    (s.chan c).enabled (pgSens die.val) = true →
    Completes (.sensorSample c die temps rails mv ma pw) s (fun t =>
      (∀ (k : Nat), k < 24 → ∀ v : Nat, temps[k]? = some v → (t.chan c).nat (pgSens die.val) (SENS.TEMP k) = 2 ^ 31 + v % 65536) ∧
      (∀ (k : Nat), k < railsOf die.val → ∀ x : Nat × Nat, rails[k]? = some x →
        (t.chan c).getF (pgSens die.val) ⟨SENS.VOLT k, 15, 0⟩ = x.1 % 65536 ∧ bit ((t.chan c).get (pgSens die.val) (SENS.VOLT k)) 31 = true) ∧
      (t.chan c).nat (pgSens die.val) SENS.TEMP_MAX = tempMax (temps.take 24) ∧
      ((s.chan c).enabled (pgPwr die.val) = true → (t.chan c).nat (pgPwr die.val) PWR.DIE_POWER = pw % 65536))) ∧
  (∀ (s : State) (c : Fin 4) (temps : List Nat) (rails : List (Nat × Nat)) (mv ma pw : Nat), s.isl.pwrgood = true →
    s.isl.getB hpSens CTRL_ENABLE = true → mv < 2 ^ 32 → ma < 2 ^ 32 → pw < 2 ^ 32 →
    Completes (.sensorSample c 2 temps rails mv ma pw) s (fun t => t.isl.nat hpSens (SENS.PKG 0) = mv ∧
      t.isl.nat hpSens (SENS.PKG 1) = ma ∧ t.isl.nat hpSens (SENS.PKG 2) = pw ∧
      (∀ (k : Nat), k < 24 → ∀ v : Nat, temps[k]? = some v → t.isl.nat hpSens (SENS.TEMP k) = 2 ^ 31 + v % 65536) ∧
      t.isl.nat hpSens SENS.TEMP_MAX = tempMax (temps.take 24))) ∧
  (∀ (s : State) (c : Fin 4) (reading : Nat), Ready s c → (s.chan c).enabled (pgPwr 0) = true →
    Completes (.oscThermSample c reading) s (fun t => (t.chan c).nat (pgPwr 0) PWR.OSC_THERM =
      (if -880 ≤ toSigned reading 16 ∧ toSigned reading 16 ≤ 2000 then 2 ^ 31 else 0) + reading % 65536)))

/-- R65, R47: a host write of INT_ROUTE, a register every page has, stores its fields, and changes nothing of the channel but registers.

R6, R42, R44: a read returns the word the register holds; a read of an RC register also clears it; nothing else of the channel's work
moves.

R45, R46: the low word of a 64-bit value is latched by a read and staged by a write, and the high word returns or commits it.

R4, R6, R47, R65: a write by a requester with the right to it runs the register's effect on the page, whatever the register; a word that holds
a reserved encoding is rejected instead. Where the effect is the plain one, the register takes the written fields by their access codes, and no
register outside the page's header moves.

R6, R42, R44, R45: a read by a requester with the right to it returns what the page shows at the register, whatever the register, and clears
its RC fields; the low half of a 64-bit value loads the requester's latch with both halves.

R46: the low word of any writable 64-bit register is staged, and changes nothing else; its high word then runs the register's effect with
both words, or, when nothing is staged, with the low word as it stands.

R41, R44, R47: registers of the host island, for PF0 and the test port: a write runs the register's effect, and a read returns what the page
shows. -/
def Obligations.RegisterAccess : Prop :=
  (∀ (s : State) (c : Fin 4) (p : Pg) (k : PageKind) (v : Word), HostReady s c → p.kind = some k →
    Completes (.regWrite (.func 0) (addrOf c.val p oROUTE) v true) s (fun t =>
      fld ((t.chan c).get p oROUTE) 17 16 = fld v 17 16 ∧ fld ((t.chan c).get p oROUTE) 10 0 = fld v 10 0 ∧
      (∀ key, key ≠ p.key oROUTE → rget chanReset (t.chan c).regs key = rget chanReset (s.chan c).regs key) ∧
      workOf (t.chan c) = workOf (s.chan c) ∧ ∀ d, d ≠ c → t.chan d = s.chan d)) ∧
  ((∀ (s : State) (c : Fin 4) (p : Pg) (k : PageKind), HostReady s c → p.kind = some k →
    Completes (.regRead (.func 0) (addrOf c.val p oROUTE)) s (fun t =>
      t.out.head? = some (.read (addrOf c.val p oROUTE) ((s.chan c).nat p oROUTE)) ∧
      (t.chan c).get p oROUTE = (s.chan c).get p oROUTE ∧ workOf (t.chan c) = workOf (s.chan c))) ∧
  (∀ (s : State) (c : Fin 4), HostReady s c →
    Completes (.rcFieldRead (.func 0) (addrOf c.val pgCosy COSY.TOD_ERR_CNT)) s (fun t =>
      t.out.head? = some (.read (addrOf c.val pgCosy COSY.TOD_ERR_CNT) ((s.chan c).nat pgCosy COSY.TOD_ERR_CNT)) ∧
      (t.chan c).nat pgCosy COSY.TOD_ERR_CNT = 0 ∧ workOf (t.chan c) = workOf (s.chan c)))) ∧
  (∀ (s : State) (c : Fin 4), HostReady s c →
    (Completes (.readLowWord (.func 0) (addrOf c.val pgBrew BREW.IMG_ADDR)) s (fun t =>
      t.latch (.func 0) c = ⟨1, addrOf c.val pgBrew BREW.IMG_ADDR, (s.chan c).get64 pgBrew BREW.IMG_ADDR⟩ ∧
      t.out.head? = some (.read (addrOf c.val pgBrew BREW.IMG_ADDR) ((s.chan c).get64 pgBrew BREW.IMG_ADDR % 2 ^ 32)))) ∧
    (∀ v : Nat, s.latch (.func 0) c = ⟨1, addrOf c.val pgBrew BREW.IMG_ADDR, v⟩ →
      Completes (.readHighWord (.func 0) (addrOf c.val pgBrew (BREW.IMG_ADDR + 4))) s (fun t =>
        t.out.head? = some (.read (addrOf c.val pgBrew (BREW.IMG_ADDR + 4)) (v / 2 ^ 32)))) ∧
    (∀ v : Word, Completes (.writeLowWord (.func 0) (addrOf c.val pgBrew BREW.IMG_ADDR) v) s (fun t =>
      t.latch (.func 0) c = ⟨2, addrOf c.val pgBrew BREW.IMG_ADDR, v.toNat⟩ ∧
      (t.chan c).get64 pgBrew BREW.IMG_ADDR = (s.chan c).get64 pgBrew BREW.IMG_ADDR)) ∧
    (∀ lo v : Word, s.latch (.func 0) c = ⟨2, addrOf c.val pgBrew BREW.IMG_ADDR, lo.toNat⟩ →
      Completes (.writeHighWord (.func 0) (addrOf c.val pgBrew (BREW.IMG_ADDR + 4)) v) s (fun t =>
        t.latch (.func 0) c = {} ∧ (t.chan c).get64 pgBrew BREW.IMG_ADDR = lo.toNat + v.toNat * 2 ^ 32))) ∧
  (∀ (s : State) (q : Req) (c : Fin 4) (p : Pg) (k : PageKind) (off : Nat) (h : RegHit) (v : Word), HostReady s c → p.kind = some k →
    off < 0x10000 → findReg k off = some h → h.row.wide = false → hasKw h.flds = false → MayUse s q c (hasMw h.flds) →
    ((judged p off = false ∨ wordLegal k off h v = true) →
      Completes (.regWrite q (addrOf c.val p off) v true) s (fun t =>
        t = (counted s q c p 3).hookRun c off (effectOf s c p off (wordReq (counted s q c p 3) q c p off h v)))) ∧
    ((judged p off = false ∨ wordLegal k off h v = true) → 0x100 ≤ off →
      effectOf s c p off (wordReq (counted s q c p 3) q c p off h v) ((counted s q c p 3).chan c) =
        plainHook (wordReq (counted s q c p 3) q c p off h v) ((counted s q c p 3).chan c) →
      Completes (.regWrite q (addrOf c.val p off) v true) s (fun t =>
        (t.chan c).get p off = mergeWord h.row.fields ((s.chan c).get p off) v ∧
        ∀ key, key ≠ p.key off → ¬ (p.key 0 ≤ key ∧ key < p.key 0x100) → rget chanReset (t.chan c).regs key = rget chanReset (s.chan c).regs key)) ∧
    (judged p off = true → wordLegal k off h v = false →
      Completes (.regWrite q (addrOf c.val p off) v true) s (fun t =>
        t = (counted s q c p 3).runChan c (fun ch => ch.rejectWrite p off)))) ∧
  (∀ (s : State) (q : Req) (c : Fin 4) (p : Pg) (k : PageKind) (off : Nat) (h : RegHit), HostReady s c → p.kind = some k → off < 0x10000 →
    findReg k off = some h → ¬ (p = pgCosy ∧ 0x110 ≤ off ∧ off < 0x120) → MayUse s q c false →
    (h.row.wide = false → Completes (.regRead q (addrOf c.val p off)) s (fun t =>
      t.out.head? = some (.read (addrOf c.val p off) (Chan.readWord c.val ((counted s q c p 2).chan c) p off).toNat))) ∧
    (h.row.wide = false → Completes (.rcFieldRead q (addrOf c.val p off)) s (fun t =>
      t.out.head? = some (.read (addrOf c.val p off) (Chan.readWord c.val ((counted s q c p 2).chan c) p off).toNat) ∧
      (t.chan c).get p off = clearRc h.row.fields (((counted s q c p 2).chan c).get p off))) ∧
    (h.row.wide = true → h.high = false → Completes (.readLowWord q (addrOf c.val p off)) s (fun t =>
      t.out.head? = some (.read (addrOf c.val p off) (Chan.live64 (chanView c) ((counted s q c p 2).chan c) p off % 2 ^ 32)) ∧
      t.latch q c = ⟨1, addrOf c.val p off, Chan.live64 (chanView c) ((counted s q c p 2).chan c) p off⟩)) ∧
    (h.high = true → Completes (.readHighWord q (addrOf c.val p off)) s (fun t =>
      t.out.head? = some (.read (addrOf c.val p off)
        (if (s.latch q c).kind = 1 ∧ (s.latch q c).addr = addrOf c.val p (off - 4) then (s.latch q c).val / 2 ^ 32
         else (Chan.readWord c.val ((counted s q c p 2).chan c) p off).toNat))))) ∧
  (∀ (s : State) (q : Req) (c : Fin 4) (p : Pg) (k : PageKind) (off : Nat) (h : RegHit) (v : Word), HostReady s c → p.kind = some k →
    off < 0x10000 → findReg k off = some h → hasKw h.flds = false → MayUse s q c (hasMw h.flds) →
    (h.row.wide = true → h.high = false → writable h.row.fields = true →
      Completes (.writeLowWord q (addrOf c.val p off) v) s (fun t =>
        t.latch q c = ⟨2, addrOf c.val p off, v.toNat⟩ ∧ t.chan c = (counted s q c p 3).chan c)) ∧
    (∀ lo : Word, h.high = true → s.latch q c = ⟨2, addrOf c.val p (off - 4), lo.toNat⟩ → wordLegal k off h v = true →
      wordLegal k (off - 4) ⟨h.row, false⟩ lo = true → pairLegal k (off - 4) lo v = true →
      Completes (.writeHighWord q (addrOf c.val p off) v) s (fun t =>
        t = ((counted s q c p 3).setLatch q c {}).hookRun c off (effectOf s c p off
          ⟨c, p, off, q, ((counted s q c p 3).chan c).get p off, v, mergeWord h.row.hiFields (((counted s q c p 3).chan c).get p off) v,
            some (mergeWord h.row.fields (((counted s q c p 3).chan c).get p (off - 4)) lo), true⟩))) ∧
    (h.high = true → ¬ ((s.latch q c).kind = 2 ∧ (s.latch q c).addr = addrOf c.val p (off - 4)) → wordLegal k off h v = true →
      pairLegal k (off - 4) (((counted s q c p 3).chan c).get p (off - 4)) v = true →
      Completes (.writeHighWord q (addrOf c.val p off) v) s (fun t =>
        t = (counted s q c p 3).hookRun c off (effectOf s c p off
          ⟨c, p, off, q, ((counted s q c p 3).chan c).get p off, v, mergeWord h.row.hiFields (((counted s q c p 3).chan c).get p off) v,
            some (((counted s q c p 3).chan c).get p (off - 4)), false⟩)))) ∧
  (∀ (s : State) (q : Req) (p : Nat) (k : PageKind) (off : Nat) (h : RegHit) (v : Word), IslReady s → s.reach q = true → q.keeper? = none → q ≠ .smbus →
    q.isPf0 = true → p < 0x400 → off < 0x10000 → hpKind p = some k → s.islReg p off = some h → h.row.wide = false →
    (wordLegal k off h v = true → Completes (.regWrite q (p * 0x10000 + off) v true) s (fun t =>
      t = islHookOf p off p off ((s.islTally p 3 (q.attr none)).isl.get p off) v
        (mergeWord h.row.fields ((s.islTally p 3 (q.attr none)).isl.get p off) v) (s.islTally p 3 (q.attr none)))) ∧
    Completes (.regRead q (p * 0x10000 + off)) s (fun t =>
      t.out.head? = some (.read (p * 0x10000 + off) ((s.islTally p 2 (q.attr none)).islView k p off).toNat)))

/-- R43: a request of another length or alignment is answered as unsupported, and changes nothing.

R47, R49: a host write of a register with a KW field is rejected as a whole and counted in REJ_KW_CNT; a write of a register with
an MW field by a function other than PF0 is rejected and counted in REJ_MW_CNT.

R87, R89: the claim gate lets the winning keeper write a KW register, and counts and discards the other keeper's write.

R6, R80, R87, R89: a register write of a keeper whose cores run: behind a claim gate it takes effect for the winning keeper and is counted and
discarded for the other; without a gate it takes effect at once. -/
def Obligations.RejectedAccesses : Prop :=
  (∀ (s : State) (addr : Nat), IslReady s →
    Completes (.unsupportedAccess (.func 0) addr) s (fun t =>
      t.out = .unsupported addr :: s.out ∧ t.isl = s.isl ∧ ∀ c, t.chan c = s.chan c)) ∧
  ((∀ (s : State) (c : Fin 4) (v : Word), HostReady s c →
    Completes (.regWrite (.func 0) (addrOf c.val pgCosy COSY.TE_BOUND) v true) s (fun t =>
      (t.chan c).get pgCosy COSY.TE_BOUND = (s.chan c).get pgCosy COSY.TE_BOUND ∧ workOf (t.chan c) = workOf (s.chan c) ∧
      t.isl.nat hpHost HOST.REJ_KW_CNT = satAdd 32 (s.isl.nat hpHost HOST.REJ_KW_CNT) 1)) ∧
  (∀ (s : State) (c : Fin 4) (n : Nat) (v : Word), HostReady s c → s.reach (.func n) = true → n ≠ 0 →
    Completes (.regWrite (.func n) (addrOf c.val pgCosy COSY.TIME_PRIO) v true) s (fun t =>
      (t.chan c).get pgCosy COSY.TIME_PRIO = (s.chan c).get pgCosy COSY.TIME_PRIO ∧ workOf (t.chan c) = workOf (s.chan c) ∧
      t.isl.nat hpHost HOST.REJ_MW_CNT = satAdd 32 (s.isl.nat hpHost HOST.REJ_MW_CNT) 1))) ∧
  (∀ (s : State) (c : Fin 4) (k : Fin 2) (v : Word), Ready s c → (s.chan c).busOn k.val = true →
    ((s.chan c).winner = some k.val →
      Completes (.keeperWrite c k 0 2 COSY.TE_BOUND v) s (fun t =>
        (t.chan c).get pgCosy COSY.TE_BOUND = v ∧ (t.chan c).getB pgCosy COSY.STATUS_BOUND_STALE = false ∧
        workOf (t.chan c) = workOf (s.chan c) ∧
        ∀ key, key ≠ pgCosy.key COSY.TE_BOUND → key ≠ pgCosy.key COSY.STATUS → ¬ (pgCosy.key 0 ≤ key ∧ key < pgCosy.key 0x100) →
          rget chanReset (t.chan c).regs key = rget chanReset (s.chan c).regs key)) ∧
    ((s.chan c).winner ≠ some k.val →
      Completes (.keeperWrite c k 0 2 COSY.TE_BOUND v) s (fun t =>
        (t.chan c).get pgCosy COSY.TE_BOUND = (s.chan c).get pgCosy COSY.TE_BOUND ∧
        (t.chan c).nat (pgKeep k.val) KEEP.GATE_REJ_CNT = satAdd 32 ((s.chan c).nat (pgKeep k.val) KEEP.GATE_REJ_CNT) 1 ∧
        bit ((t.chan c).get (pgKeep k.val) oCAUSE) 12 = true))) ∧
  (∀ (s : State) (c : Fin 4) (k d : Fin 2) (page : Nat) (kd : PageKind) (off : Nat) (h : RegHit) (v : Word), Ready s c →
    (s.chan c).busOn k.val = true → (Pg.mk d.val page).kind = some kd → off < 0x10000 → findReg kd off = some h →
    (kd.cap.gate = true → (s.chan c).winner = some k.val → hasMw h.flds = false → h.row.wide = false → wordLegal kd off h v = true →
      Completes (.keeperWrite c k d page off v) s (fun t =>
        t = (s.onPages c (fun ch => ch.tally ⟨d.val, page⟩ 4 ((keeperReq k).attr none))).hookRun c off (effectOf s c ⟨d.val, page⟩ off
          (wordReq (s.onPages c (fun ch => ch.tally ⟨d.val, page⟩ 4 ((keeperReq k).attr none))) (keeperReq k) c ⟨d.val, page⟩ off h v)))) ∧
    (kd.cap.gate = true → (s.chan c).winner ≠ some k.val →
      Completes (.keeperWrite c k d page off v) s (fun t => t = s.onPages c (fun ch => ch.gateReject k.val ⟨d.val, page⟩ off))) ∧
    (kd.cap.gate = false → hasMw h.flds = false → h.row.wide = false → wordLegal kd off h v = true →
      Completes (.keeperWrite c k d page off v) s (fun t =>
        t = s.hookRun c off (effectOf s c ⟨d.val, page⟩ off (wordReq s (keeperReq k) c ⟨d.val, page⟩ off h v)))))

/-- R56, R58, R59: PAGE_CTRL of a die's SENS page: SOFT_RESET makes the block BUSY and not READY until it is done, and ENABLE is stored.

R55, R60, R61: no page of this module has PAGE_CAP.QUIESCE, so QUIESCE_REQ stays 0 and no quiesce completes; TEST_TAKEOVER clears.

R63, R73: INT_FORCE sets the written cause bits of any page; TALLY_CTRL.CLEAR clears the eight counters and OVF_STICKY of any page that
has a tally unit.

R56, R58–R61: PAGE_CTRL of every page of a channel: SOFT_RESET makes the block BUSY and not READY until it is done, ENABLE is stored, and a
bit without its capability stays 0. A write that R188, R508 or R572 refuses is not one of these. -/
def Obligations.PageControlBits : Prop :=
  (∀ (s : State) (c : Fin 4) (d : Fin 2), HostReady s c →
    ((s.chan c).inReset.contains ((pgSens d.val).key 0) = false →
      Completes (.softReset (.func 0) (addrOf c.val (pgSens d.val) 0)) s (fun t =>
        (t.chan c).getB (pgSens d.val) STAT_BUSY = true ∧ (t.chan c).getB (pgSens d.val) STAT_READY = false ∧
        (t.chan c).nat (pgSens d.val) oCAUSE = 0 ∧ (t.chan c).inReset.contains ((pgSens d.val).key 0) = true)) ∧
    ((s.chan c).inReset.contains ((pgSens d.val).key 0) = true →
      Completes (.softResetDone (addrOf c.val (pgSens d.val) 0)) s (fun t =>
        (t.chan c).getB (pgSens d.val) STAT_BUSY = false ∧ (t.chan c).getB (pgSens d.val) STAT_READY = true ∧
        (t.chan c).inReset.contains ((pgSens d.val).key 0) = false)) ∧
    (∀ on : Bool, Completes (.enableWrite (.func 0) (addrOf c.val (pgSens d.val) 0) on) s (fun t =>
      (t.chan c).getB (pgSens d.val) CTRL_ENABLE = on))) ∧
  ((∀ k : PageKind, k.cap.quiesce = false) ∧
  (∀ (s : State) (c : Fin 4) (d : Fin 2) (on : Bool), HostReady s c →
    Completes (.quiesceReq (.func 0) (addrOf c.val (pgSens d.val) 0) on) s (fun t =>
      (t.chan c).getB (pgSens d.val) CTRL_QUIESCE = false ∧ (t.chan c).getB (pgSens d.val) STAT_QUIESCED = false)) ∧
  (∀ (s : State) (c : Fin 4) (p : Pg) (k : PageKind), Ready s c → p.kind = some k →
    Completes (.quiesceDone (addrOf c.val p 0)) s (fun t => t.isl = s.isl ∧ ∀ d, t.chan d = s.chan d)) ∧
  (∀ (s : State) (c : Fin 4), HostReady s c →
    Completes (.testTakeoverClear (.func 0) (addrOf c.val pgFab 0)) s (fun t => (t.chan c).getB pgFab CTRL_TAKEOVER = false))) ∧
  ((∀ (s : State) (c : Fin 4) (p : Pg) (k : PageKind) (v : Word) (i : Nat), HostReady s c → p.kind = some k → i < 32 →
    nbit (Nat.land v.toNat k.cap.causeMask) i = true →
    Completes (.intForce (.func 0) (addrOf c.val p 0) v) s (fun t => bit ((t.chan c).get p oCAUSE) i = true)) ∧
  (∀ (s : State) (c : Fin 4) (p : Pg) (k : PageKind) (i : Nat), HostReady s c → p.kind = some k → k.cap.tally = true → i < 8 →
    Completes (.tallyClear (.func 0) (addrOf c.val p 0)) s (fun t =>
      (t.chan c).get64 p (oCNT i) = 0 ∧ (t.chan c).nat p oOVF = 0))) ∧
  (∀ (s : State) (q : Req) (c : Fin 4) (p : Pg) (k : PageKind), HostReady s c → p.kind = some k → MayUse s q c true →
    ((s.chan c).inReset.contains (p.key 0) = false →
      ((counted s q c p 3).chan c).ctrlRefused k p (setFld ((s.chan c).get p oCTRL) 2 2 1) = false →
      Completes (.softReset q (addrOf c.val p 0)) s (fun t =>
        (t.chan c).getB p STAT_BUSY = true ∧ (t.chan c).getB p STAT_READY = false)) ∧
    ((s.chan c).inReset.contains (p.key 0) = true →
      Completes (.softResetDone (addrOf c.val p 0)) s (fun t =>
        (t.chan c).getB p STAT_BUSY = false ∧ (t.chan c).getB p STAT_READY = true)) ∧
    (∀ on : Bool, (s.chan c).getF p CTRL_SOFT_RESET = 0 →
      ((counted s q c p 3).chan c).ctrlRefused k p (setFld ((s.chan c).get p oCTRL) 0 0 (b2n on)) = false →
      Completes (.enableWrite q (addrOf c.val p 0) on) s (fun t => (t.chan c).getB p CTRL_ENABLE = on)) ∧
    (∀ on : Bool, (s.chan c).getF p CTRL_SOFT_RESET = 0 →
      ((counted s q c p 3).chan c).ctrlRefused k p (setFld ((s.chan c).get p oCTRL) 1 1 (b2n on)) = false →
      Completes (.quiesceReq q (addrOf c.val p 0) on) s (fun t =>
        (t.chan c).getB p CTRL_QUIESCE = false ∧ (t.chan c).getB p STAT_QUIESCED = false)) ∧
    ((s.chan c).getF p CTRL_SOFT_RESET = 0 →
      ((counted s q c p 3).chan c).ctrlRefused k p (setFld ((s.chan c).get p oCTRL) 3 3 0) = false →
      Completes (.testTakeoverClear q (addrOf c.val p 0)) s (fun t => (t.chan c).getB p CTRL_TAKEOVER = false)))

/-- R612: the SMBus port holds an address that a read moves on by 4, and may write SENS.THRESH.

R613: the instructions of the test port that only select and shift.

R613, R614, R615: unlocking the test port with a nonce, locking it again, the 60 s block after three failures, and register accesses
with PF0's rights while it is open.

R612: the SMBus port reads any register it reaches, and writes the two kinds of registers it may.

R614: a register access of the unlocked test port, at any address: it returns the outcome of the access before, and the next one returns
this one's. -/
def Obligations.SidebandPorts : Prop :=
  (∀ s : State, s.isl.powered = true → s.isl.dead = false →
    (∀ addr, Completes (.smbSetAddr addr) s (fun t => t.isl.smbAddr = addr % 2 ^ 32)) ∧
    (s.isl.smbAddr = 0x30164 → Completes .smbRead s (fun t => t.isl.smbAddr = 0x30168 ∧
      t.out.head? = some (.read 0x30164 (s.isl.nat hpSens 0x164)))) ∧
    (s.isl.smbAddr = 0x30164 → ∀ v : Word, 60 ≤ fld v 23 16 → fld v 23 16 ≤ 115 → fld v 23 16 < fld v 15 8 → fld v 15 8 ≤ 120 →
      Completes (.smbWrite v) s (fun t => t.isl.getF hpSens SENS.THRESH_CRIT = fld v 15 8 ∧
        t.isl.getF hpSens SENS.THRESH_WARN = fld v 23 16))) ∧
  (∀ s : State, s.jtagReady = true →
    (∀ a b, Completes (.samplePreload a b) s (fun t => t.isl.jtagBnd = b ∧ t.isl.jtagIr = 1 ∧ t.out.head? = some (.wire 0x21 [a] []))) ∧
    Completes .idcode s (fun t => t.isl.jtagIr = 3 ∧ t.out.head? = some (.wire 0x20 [s.variant.idcode] [])) ∧
    (∀ code, s.jtagCode (code % 256) = 0xFF → Completes (.bypass code) s (fun t => t.isl.jtagIr = 0xFF ∧ t.out = s.out)) ∧
    (s.scanFree = true →
      (∀ b, Completes (.extest b) s (fun t => t.isl.jtagBnd = b ∧ t.isl.jtagIr = 2 ∧
        t.out = .pin 0x30 [b] :: .pin 0x30 [s.isl.jtagBnd] :: s.out)) ∧
      Completes .clamp s (fun t => t.isl.jtagIr = 4 ∧ t.out = .pin 0x30 [s.isl.jtagBnd] :: s.out) ∧
      Completes .highz s (fun t => t.isl.jtagIr = 5 ∧ t.out = .pin 0x31 [] :: s.out))) ∧
  (∀ s : State, s.jtagReady = true →
    Completes .unlockReq s (fun t => t.isl.nonce = some (Config.freeValue s.isl.free).toNat ∧ t.isl.jtagIr = 0x10) ∧
    (s.isl.perst = false → s.isl.getB hpPwr PWRH.JTAG_CTRL_UNLOCK_DIS = false → s.isl.getB hpPwr PWRH.JTAG_STAT_BLOCKED = false →
      (∀ n, s.isl.nonce = some n →
        Completes (.unlockResp true) s (fun t => t.jtagOpen = true ∧ t.isl.jtagFails = 0 ∧ t.isl.nonce = none)) ∧
      Completes (.unlockResp false) s (fun t => t.jtagOpen = s.jtagOpen ∧ t.isl.jtagFails = s.isl.jtagFails + 1 ∧ t.isl.nonce = none ∧
        t.isl.getB hpPwr PWRH.JTAG_STAT_BLOCKED = decide (3 ≤ s.isl.jtagFails + 1))) ∧
    Completes (.jtagLock true) s (fun t => t.jtagOpen = false) ∧
    (s.isl.getB hpPwr PWRH.JTAG_STAT_BLOCKED = true →
      Completes .unlockBlockExpiry s (fun t => t.isl.getB hpPwr PWRH.JTAG_STAT_BLOCKED = false ∧ t.isl.jtagFails = 0)) ∧
    (s.isl.perst = false → ∀ v : Word, bit v 0 = true →
      Completes (.jtagCtrlLock (.func 0) v) s (fun t => t.jtagOpen = false)) ∧
    (s.jtagOpen = true → s.isl.perst = false →
      (∀ v : Word, Completes (.regAccess false (0x30164) v) s (fun t =>
        t.isl.jtagData = 2 ^ 62 + 0x30164 * 2 ^ 32 + s.isl.nat hpSens 0x164)) ∧
      (∀ v : Word, fld v 17 16 = 2 → Completes (.regAccess true (0x30030) v) s (fun t =>
        fld (t.isl.get hpSens oROUTE) 17 16 = 2)))) ∧
  (∀ s : State, s.isl.powered = true → s.isl.dead = false →
    Completes .smbRead s (fun t => t.isl.smbAddr = (s.isl.smbAddr + 4) % 2 ^ 32 ∧
      t.out.head? = some (.read s.isl.smbAddr (s.busRead .smbus s.isl.smbAddr).1)) ∧
    (∀ (p off : Nat) (k : PageKind) (h : RegHit) (v : Word), (p = hpPwr ∧ off = 0x104) ∨ (p = hpSens ∧ off = 0x164) → hpKind p = some k →
      s.islReg p off = some h → s.isl.smbAddr = p * 0x10000 + off → wordLegal k off h v = true →
      Completes (.smbWrite v) s (fun t =>
        t = islHookOf p off p off ((s.islTally p 3 (Req.smbus.attr none)).isl.get p off) v
          (mergeWord h.row.fields ((s.islTally p 3 (Req.smbus.attr none)).isl.get p off) v) (s.islTally p 3 (Req.smbus.attr none)))) ∧
    (∀ (c : Fin 4) (d : Fin 2) (v : Word), Ready s c → s.relayUp c = true → s.isl.smbAddr = addrOf c.val (pgSens d.val) SENS.THRESH →
      60 ≤ fld v 23 16 → fld v 23 16 ≤ 115 → fld v 23 16 < fld v 15 8 → fld v 15 8 ≤ 120 →
      Completes (.smbWrite v) s (fun t => (t.chan c).getF (pgSens d.val) SENS.THRESH_CRIT = fld v 15 8 ∧
        (t.chan c).getF (pgSens d.val) SENS.THRESH_WARN = fld v 23 16))) ∧
  (∀ (s : State) (addr : Nat) (v : Word), s.jtagReady = true → s.jtagOpen = true → s.isl.perst = false →
    Completes (.regAccess false addr v) s (fun t =>
      t.isl.jtagIr = 0x20 ∧ t.isl.jtagData = 2 ^ 62 + addr % 2 ^ 30 / 4 * 4 * 2 ^ 32 + (s.busRead .jtag (addr % 2 ^ 30 / 4 * 4)).1) ∧
    Completes (.regAccess true addr v) s (fun t =>
      t.isl.jtagIr = 0x20 ∧ t.isl.jtagData = 2 ^ 63 + 2 ^ 62 + addr % 2 ^ 30 / 4 * 4 * 2 ^ 32 + v.toNat ∧
      ∀ c, t.chan c = (s.busWrite .jtag (addr % 2 ^ 30 / 4 * 4) v).chan c))

/-- R80, R92, R93, R101, R103, R621: a mismatch of the cores, a failed self-test and an uncorrectable SRAM error drop the keeper's claim and take it to
REPAIR, or to FAILED on its fourth entry within 3,600 s; a halted keeper drops its claim at an SRAM error and stays halted, and one in OFF or
FAILED stays there. An error in the replicated region clears REGION_VALID in every state.

R92: the watchdog's fourth miss forces the claim to 0x00 and takes a running keeper to REPAIR, or to FAILED on its fourth entry. R110: a
keeper that hands over drops its claim once its copy is sent. -/
def Obligations.KeeperFailures : Prop :=
  (∀ (s : State) (c : Fin 4) (k : Fin 2), Ready s c →
    let after := fun (t : State) => (t.chan c).claim k.val = 0 ∧ (t.chan c).kstate k.val =
      if 3 ≤ (((s.chan c).keeper k.val).repairs.filter (fun r => decide ((s.chan c).ns ≤ r + 3600 * 1000000000))).length then 6 else 5
    ((s.chan c).coresRun k.val = true → Completes (.lockstepMismatch c k) s (fun t => KeeperFrame s t c ∧ after t ∧
      (t.chan c).getB (pgKeep k.val) KEEP.CLAIM_FORCED = true)) ∧
    ((s.chan c).fwRuns k.val = true → Completes (.selfDiagFail c k) s after) ∧
    (∀ rep : Bool, (s.chan c).coresRun k.val = true → Completes (.keeperSramUe c k rep) s (fun t => KeeperFrame s t c ∧ after t ∧
      (rep = true → (t.chan c).getB (pgKeep k.val) KEEP.STATUS_REGION_VALID = false))) ∧
    (∀ rep : Bool, (s.chan c).kstate k.val = 7 → Completes (.keeperSramUe c k rep) s (fun t => KeeperFrame s t c ∧
      (t.chan c).claim k.val = 0 ∧ (t.chan c).kstate k.val = 7 ∧ ((t.chan c).keeper k.val).ue = true ∧
      (rep = true → (t.chan c).getB (pgKeep k.val) KEEP.STATUS_REGION_VALID = false))) ∧
    (∀ rep : Bool, (s.chan c).kstate k.val = 0 ∨ (s.chan c).kstate k.val = 6 → Completes (.keeperSramUe c k rep) s (fun t => KeeperFrame s t c ∧
      (t.chan c).kstate k.val = (s.chan c).kstate k.val ∧
      (rep = true → (t.chan c).getB (pgKeep k.val) KEEP.STATUS_REGION_VALID = false)))) ∧
  ((∀ (s : State) (c : Fin 4) (k : Fin 2), Ready s c → (s.chan c).getF (pgKeep k.val) KEEP.WDOG_MISSES = 4 →
    (s.chan c).watched k.val = true → (s.chan c).claim k.val ≠ 0 →
    Completes (.wdogForceClaim c k) s (fun t => KeeperFrame s t c ∧ (t.chan c).claim k.val = 0 ∧
      (t.chan c).getB (pgKeep k.val) KEEP.CLAIM_FORCED = true ∧
      ((s.chan c).kstate k.val ≠ 7 → (t.chan c).kstate k.val = 5 ∨ (t.chan c).kstate k.val = 6))) ∧
  (∀ (s : State) (c : Fin 4) (k : Nat), Ready s c → (s.chan c).active = some k → ((s.chan c).keeper k).handover = true →
    (s.chan c).inflight.isSome = true →
    Completes (.handoverClaimDrop c) s (fun t => KeeperFrame s t c ∧ (t.chan c).claim k = 0 ∧ ((t.chan c).kstate k = 5 ∨ (t.chan c).kstate k = 6))))

/-- R83, R85, R98: a boundary begins the next cycle, whoever is active; one that leaves the channel without an active keeper shows the new
cycle's index on both KEEP pages and leaves no copy in flight.

R91, R94: at a boundary a standby keeper at the standby level, whose partner presents less and does not run, becomes ACTIVE at the active
level.

R98, R99, R581: at the copy point the active keeper's state is sent to a standby partner over the Saucer link, once more after a transfer
that fails, where the link's width leaves the time; a delta that is too big starts a resync instead. R100: the link comes up. -/
def Obligations.KeeperBoundaries : Prop :=
  ((∀ (s : State) (c : Fin 4) (inp : CycleIn), Ready s c →
    Completes (.keeperCycleBoundary c inp) s (fun t => (t.chan c).cycNo = (s.chan c).cycNo + 1 ∧ (s.chan c).bnd ≤ (t.chan c).bnd ∧
      (t.chan c).cycIdx = (t.chan c).nat pgKeepA KEEP.CYCLE_IDX)) ∧
  ∀ (s : State) (c : Fin 4) (inp : CycleIn), Ready s c → (∀ k : Fin 2, (s.chan c).kstate k.val ≠ 3 ∧ (s.chan c).kstate k.val ≠ 4) →
    Completes (.keeperCycleBoundary c inp) s (fun t =>
      (t.chan c).nat pgKeepA KEEP.CYCLE_IDX = (t.chan c).cycleIndex ∧ (t.chan c).nat pgKeepB KEEP.CYCLE_IDX = (t.chan c).cycleIndex ∧
      (t.chan c).inflight = none)) ∧
  (∀ (s : State) (c : Fin 4) (k : Fin 2) (inp : CycleIn), Ready s c → (s.chan c).kstate k.val = 3 →
    (s.chan c).kstate (1 - k.val) ≠ 3 → (s.chan c).kstate (1 - k.val) ≠ 4 → (s.chan c).claim k.val = (s.chan c).stbyLevel →
    (s.chan c).claim k.val ≠ 0 → (s.chan c).claim (1 - k.val) < (s.chan c).claim k.val →
    (s.chan c).nat pgKeepA KEEP.CLAIM_LEVEL = (s.chan c).levels → (s.chan c).levels < 65536 →
    Completes (.keeperCycleBoundary c inp) s (fun t =>
      (t.chan c).kstate k.val = 4 ∧ (t.chan c).claim k.val = (s.chan c).activeLevel ∧ (t.chan c).started = true)) ∧
  ((∀ (s : State) (c : Fin 4) (k : Nat), Ready s c → (s.chan c).active = some k → (s.chan c).saucerUp = true →
    (s.chan c).kstate (1 - k) = 3 → ((s.chan c).keeper (1 - k)).resync = false →
    (∀ bad, bad = 0 ∨ (bad = 1 ∧ (s.chan c).saucerNarrow = false) →
      Completes (.copyPoint c false bad) s (fun t => KeeperFrame s t c ∧ (t.chan c).inflight = some ((s.chan c).copied k) ∧
        (t.chan c).inflightTo = 1 - k ∧ (t.chan c).inflightEnd = (t.chan c).ns + copyNs * (1 + bad))) ∧
    (∀ bad, 2 ≤ bad ∨ (bad = 1 ∧ (s.chan c).saucerNarrow = true) →
      Completes (.copyPoint c false bad) s (fun t => KeeperFrame s t c ∧ (t.chan c).inflight = none ∧
        (t.chan c).copyBad = (s.chan c).copyBad + 1)) ∧
    (∀ bad, Completes (.copyPoint c true bad) s (fun t => KeeperFrame s t c ∧ ((t.chan c).keeper (1 - k)).resync = true ∧
      (t.chan c).getB (pgKeep (1 - k)) KEEP.STATUS_REGION_VALID = false ∧ (t.chan c).inflight = (s.chan c).inflight))) ∧
  (∀ (s : State) (c : Fin 4), Ready s c → (s.chan c).saucerUp = false →
    Completes (.saucerLinkUp c) s (fun t => (t.chan c).saucerUp = true ∧ (t.chan c).getB pgKeepB KEEP.STATUS_SAUCER_UP = true ∧
      (t.chan c).saucerDown = 0)))

/-- R120: PAGE_CTRL of a keeper's page: SOFT_RESET of a keeper with a verified image drops its claim and takes it to BOOT; ENABLE = 0 holds
a running keeper in OFF, and ENABLE = 1 starts BOOT.

R101, R104: the end of a repair, of the wait for the partner, and of BOOT.

R107, R108, R118, R598: a firmware load takes the keeper to BOOT with its claim dropped; a load that fails a check ends in FAILED with
its result, and an accepted one verifies the keeper and takes the channel from WAIT_FW to RUNNING.

R103, R120, R621: SOFT_RESET and ENABLE of a keeper's page in every state of the keeper. -/
def Obligations.KeeperStartAndLoad : Prop :=
  (∀ (s : State) (c : Fin 4) (k : Fin 2), HostReady s c →
    ((s.chan c).inReset.contains ((pgKeep k.val).key 0) = false → (s.chan c).getB (pgKeep k.val) CTRL_ENABLE = true →
      ((s.chan c).keeper k.val).verified = true → ((s.chan c).keeper k.val).sramBad = false →
      (s.chan c).getB (pgKeep k.val) KEEP.FW_STAT_BUSY = false →
      Completes (.keepSoftReset (.func 0) c k) s (fun t => (t.chan c).kstate k.val = 1 ∧ (t.chan c).claim k.val = 0 ∧
        (t.chan c).getB (pgKeep k.val) STAT_BUSY = true)) ∧
    ((s.chan c).getF (pgKeep k.val) CTRL_SOFT_RESET = 0 → (s.chan c).getB (pgKeep k.val) CTRL_ENABLE = true →
      (s.chan c).kstate k.val ≠ 6 → (s.chan c).getB (pgKeep k.val) KEEP.FW_STAT_BUSY = false →
      Completes (.keepEnableWrite (.func 0) c k false) s (fun t =>
        (t.chan c).getB (pgKeep k.val) CTRL_ENABLE = false ∧ (t.chan c).kstate k.val = 0)) ∧
    ((s.chan c).getF (pgKeep k.val) CTRL_SOFT_RESET = 0 → (s.chan c).getB (pgKeep k.val) CTRL_ENABLE = false →
      (s.chan c).kstate k.val = 0 → ((s.chan c).keeper k.val).verified = true → ((s.chan c).keeper k.val).sramBad = false →
      Completes (.keepEnableWrite (.func 0) c k true) s (fun t =>
        (t.chan c).getB (pgKeep k.val) CTRL_ENABLE = true ∧ (t.chan c).kstate k.val = 1))) ∧
  (∀ (s : State) (c : Fin 4) (k : Fin 2), Ready s c →
    ((s.chan c).kstate k.val = 5 → ((s.chan c).keeper k.val).verified = true →
      Completes (.repairCheckDone c k 0) s (fun t => KeeperFrame s t c ∧ (t.chan c).kstate k.val = 2)) ∧
    (∀ res, (s.chan c).kstate k.val = 5 → res ≠ 0 → Completes (.repairCheckDone c k res) s (fun t => KeeperFrame s t c ∧ (t.chan c).kstate k.val = 6)) ∧
    ((s.chan c).kstate k.val = 2 → ((s.chan c).keeper k.val).waiting = true → 400 ≤ ((s.chan c).keeper k.val).absent →
      Completes (.partnerAbsentTimeout c k) s (fun t => KeeperFrame s t c ∧ (t.chan c).kstate k.val = 3 ∧
        (t.chan c).claim k.val = (s.chan c).stbyLevel)) ∧
    ((s.chan c).kstate k.val = 1 → ((s.chan c).keeper k.val).verified = true →
      (s.chan c).getB (pgKeep k.val) KEEP.FW_STAT_BUSY = false →
      Completes (.keeperBootDone c k) s (fun t => KeeperFrame s t c ∧
        (t.chan c).nat (pgKeep k.val) KEEP.FW_VER = ((s.chan c).keeper k.val).img.ver % 2 ^ 32 ∧
        if (s.chan c).pref = k.val ∧ (s.chan c).started = false then (t.chan c).kstate k.val = 3 ∧
          (t.chan c).claim k.val = (s.chan c).stbyLevel
        else (t.chan c).kstate k.val = 2 ∧ ((t.chan c).keeper k.val).waiting = true))) ∧
  ((∀ (s : State) (c : Fin 4) (k : Fin 2), HostReady s c → ((s.chan c).keeper k.val).sramBad = false →
    (s.chan c).kstate k.val ≠ 4 → (s.chan c).kstate k.val ≠ 7 → (s.chan c).loading k.val = false →
    Completes (.fwLoad (.func 0) c k) s (fun t => KeeperFrame s t c ∧ (t.chan c).kstate k.val = 1 ∧ (t.chan c).claim k.val = 0 ∧
      (t.chan c).getB (pgKeep k.val) KEEP.FW_STAT_BUSY = true ∧ ((t.chan c).keeper k.val).verified = false)) ∧
  (∀ (s : State) (c : Fin 4) (k : Fin 2), HostReady s c → ((s.chan c).keeper k.val).sramBad = false →
    (s.chan c).kstate k.val = 4 ∨ (s.chan c).kstate k.val = 7 →
    Completes (.fwLoad (.func 0) c k) s (fun t => KeeperFrame s t c ∧ (t.chan c).kstate k.val = (s.chan c).kstate k.val ∧
      (t.chan c).nat (pgKeep k.val) KEEP.FW_STAT = 2 ^ 30 + (if (s.chan c).kstate k.val = 4 then 7 else 9))) ∧
  (∀ (s : State) (c : Fin 4) (k : Fin 2) (hdr code : List Byte) (sig : Bool) (dma : Nat), Ready s c → s.hostReach c = true →
    (s.chan c).loading k.val = true →
    let img := hdr ++ code
    let res := fwResult img ((s.chan c).nat (pgKeep k.val) KEEP.FW_LEN) k.val (s.chan c).fusedSvn sig dma
    (res ≠ 0 → Completes (.fwLoadDone c k hdr code sig dma) s (fun t => KeeperFrame s t c ∧ (t.chan c).kstate k.val = 6 ∧
      (t.chan c).nat (pgKeep k.val) KEEP.FW_STAT = 2 ^ 30 + res)) ∧
    (res = 0 → Completes (.fwLoadDone c k hdr code sig dma) s (fun t => KeeperFrame s t c ∧ ((t.chan c).keeper k.val).verified = true ∧
      ((t.chan c).keeper k.val).code = fwCode img ∧ ((t.chan c).keeper k.val).header = sliceBytes img 0 0x100 ∧
      ((t.chan c).keeper k.val).img.ver = leAt img 8 4 ∧ (t.chan c).nat (pgKeep k.val) KEEP.FW_STAT = 2 ^ 30 ∧ t.chState c = 4)))) ∧
  (∀ (s : State) (q : Req) (c : Fin 4) (k : Fin 2), HostReady s c → MayUse s q c true →
    (s.chan c).getF (pgKeep k.val) CTRL_SOFT_RESET = 0 →
    ((s.chan c).inReset.contains ((pgKeep k.val).key 0) = false →
      Completes (.keepSoftReset q c k) s (fun t =>
        (t.chan c).claim k.val = 0 ∧ (t.chan c).getB (pgKeep k.val) STAT_BUSY = true ∧
        (t.chan c).kstate k.val =
          (if (s.chan c).getB (pgKeep k.val) KEEP.FW_STAT_BUSY = true then 6
           else if ((s.chan c).keeper k.val).sramBad = true ∨ (s.chan c).getB (pgKeep k.val) CTRL_ENABLE = false then 0
           else if ((s.chan c).keeper k.val).verified = true then 1
           else if (s.chan c).kstate k.val = 6 then 6 else 0))) ∧
    ((s.chan c).getB (pgKeep k.val) CTRL_ENABLE = true →
      Completes (.keepEnableWrite q c k false) s (fun t =>
        (t.chan c).getB (pgKeep k.val) CTRL_ENABLE = false ∧ (t.chan c).kstate k.val = if (s.chan c).kstate k.val = 6 then 6 else 0)) ∧
    ((s.chan c).getB (pgKeep k.val) CTRL_ENABLE = false →
      Completes (.keepEnableWrite q c k true) s (fun t =>
        (t.chan c).getB (pgKeep k.val) CTRL_ENABLE = true ∧
        (t.chan c).kstate k.val =
          (if (s.chan c).kstate k.val = 0 ∧ ((s.chan c).getB (pgKeep k.val) KEEP.FW_STAT_BUSY = true ∨
              (((s.chan c).keeper k.val).verified = true ∧ ((s.chan c).keeper k.val).sramBad = false)) then 1
           else (s.chan c).kstate k.val))))

/-- R86, R91: a keeper lowers its claim at once, and a standby one that is resynchronised raises it from 0x00 to the standby level.

R93: the test port halts a keeper, which keeps the state it was in, and resumes it into that state, or into REPAIR where its
claim was forced or its SRAM failed meanwhile. -/
def Obligations.KeeperClaimsAndHalt : Prop :=
  (∀ (s : State) (c : Fin 4) (k : Fin 2), Ready s c →
    (∀ v, (s.chan c).fwRuns k.val = true → v = 0 ∨ v = (s.chan c).stbyLevel → v < (s.chan c).claim k.val →
      Completes (.claimWrite c k v) s (fun t => KeeperFrame s t c ∧ (t.chan c).claim k.val = v ∧
        (t.chan c).kstate k.val = if (s.chan c).kstate k.val = 4 then 3 else (s.chan c).kstate k.val)) ∧
    ((s.chan c).kstate k.val = 3 → (s.chan c).claim k.val = 0 → (s.chan c).kflag k.val KEEP.STATUS_RESYNC_DONE = true →
      Completes (.claimWrite c k (s.chan c).stbyLevel) s (fun t => KeeperFrame s t c ∧ (t.chan c).claim k.val = (s.chan c).stbyLevel ∧
        (t.chan c).getB (pgKeep k.val) KEEP.CLAIM_FORCED = (if (s.chan c).stbyLevel = 0 then
          (s.chan c).getB (pgKeep k.val) KEEP.CLAIM_FORCED else false)))) ∧
  (∀ (s : State) (c : Fin 4) (k : Fin 2), Ready s c → s.jtagOn = true →
    ((s.chan c).coresRun k.val = true → Completes (.keeperHalt c k) s (fun t => KeeperFrame s t c ∧ (t.chan c).kstate k.val = 7 ∧
      ((t.chan c).keeper k.val).haltFrom = (s.chan c).kstate k.val)) ∧
    ((s.chan c).kstate k.val = 7 → (s.chan c).getB (pgKeep k.val) KEEP.CLAIM_FORCED = false → ((s.chan c).keeper k.val).ue = false →
      ((s.chan c).keeper k.val).haltFrom < 8 →
      Completes (.keeperResume c k) s (fun t => KeeperFrame s t c ∧ (t.chan c).kstate k.val = ((s.chan c).keeper k.val).haltFrom)) ∧
    ((s.chan c).kstate k.val = 7 → (s.chan c).getB (pgKeep k.val) KEEP.CLAIM_FORCED = true ∨ ((s.chan c).keeper k.val).ue = true →
      Completes (.keeperResume c k) s (fun t => KeeperFrame s t c ∧ ((t.chan c).kstate k.val = 5 ∨ (t.chan c).kstate k.val = 6))))

/-- R111, R112, R620: the service commands of a keeper complete with their tag and status, GET_INFO with the image version, HANDOVER by
remembering it, SVN_COMMIT by fusing the security version; a reserved opcode completes with BAD_OPCODE.

R126–R128: the host empties the journal of the active keeper, unfreezes it, and reads an entry through RD_IDX. -/
def Obligations.KeeperServicesAndJournal : Prop :=
  (∀ (s : State) (c : Fin 4) (k : Fin 2) (tag : Nat), HostReady s c → (s.chan c).kstate k.val = 4 →
    (s.chan c).getB (pgKeep k.val) KEEP.SVC_STAT_BUSY = false → tag < 256 →
    let done := fun (t : State) (status : Nat) => (t.chan c).nat (pgKeep k.val) KEEP.SVC_STAT = 2 ^ 30 + tag * 2 ^ 16 + status
    Completes (.getInfo (.func 0) c k tag) s (fun t => KeeperFrame s t c ∧ done t 0 ∧
      (t.chan c).nat (pgKeep k.val) (KEEP.SVC_RESP 0) = ((s.chan c).keeper k.val).img.ver % 2 ^ 32) ∧
    (if (s.chan c).kstate (1 - k.val) = 3 ∧ (s.chan c).kflag (1 - k.val) KEEP.STATUS_RESYNC_DONE = true then
      Completes (.handover (.func 0) c k tag) s (fun t => KeeperFrame s t c ∧ done t 0 ∧ ((t.chan c).keeper k.val).handover = true)
    else Completes (.handover (.func 0) c k tag) s (fun t => KeeperFrame s t c ∧ done t 4 ∧
      ((t.chan c).keeper k.val).handover = ((s.chan c).keeper k.val).handover)) ∧
    Completes (.jrnlMark (.func 0) c k tag) s (fun t => KeeperFrame s t c ∧ done t 0) ∧
    ((s.chan c).fwRuns (1 - k.val) = true → ((s.chan c).keeper (1 - k.val)).img.svn = ((s.chan c).keeper k.val).img.svn →
      Completes (.svnCommit (.func 0) c k tag) s (fun t => KeeperFrame s t c ∧ done t 0 ∧
        (t.chan c).fusedSvn = ((s.chan c).keeper k.val).img.svn)) ∧
    (∀ op, svcKnown (op % 256) = false → Completes (.svcBadOpcode (.func 0) c k tag op) s (fun t => KeeperFrame s t c ∧ done t 1 ∧
      ∀ j : Fin 2, (t.chan c).kstate j.val = (s.chan c).kstate j.val))) ∧
  ((∀ (s : State) (c : Fin 4) (k : Nat), HostReady s c → (s.chan c).active = some k →
    Completes (.jrnlClear (.func 0) c) s (fun t => KeeperFrame s t c ∧ ((t.chan c).region k).jrnl.entries = [] ∧ ((t.chan c).region k).jrnl.count = 0 ∧
      ((t.chan c).region k).jrnl.seq = ((s.chan c).region k).jrnl.seq) ∧
    Completes (.jrnlUnfreeze (.func 0) c) s (fun t => KeeperFrame s t c ∧ ((t.chan c).region k).jrnl.frozen = false)) ∧
  (∀ (s : State) (c : Fin 4) (die : Fin 2) (idx i : Nat), HostReady s c → i < 8 →
    Completes (.jrnlRdIdxWrite (.func 0) c die idx) s (fun t => Keeps s t c [jrnlPg die.val] (fun ch => ch) ∧
      (t.chan c).nat (jrnlPg die.val) (JRNL.RD_DATA i) =
        (tget (0 : BitVec 256) ((s.chan c).jrnlShown die.val) (idx % 16384)).toNat / 2 ^ (32 * i) % 2 ^ 32 ∧
      fld ((t.chan c).get (jrnlPg die.val) JRNL.RD_IDX) 13 0 = idx % 16384)))

/-- R131, R622: the counter leaves OSC_IN for REFCLK and comes back on the keeper's RETURN; ENABLE of the COSY page is stored.

R136, R138, R140, R170: edges of PPS_IN are timed, a missed one is counted, and ToD frames are accepted or counted as errors.

R151, R152, R171: a step moves network time by STEP_OFS, and SET_TIME to its target; the fraction of a nanosecond stays. (Backward
steps, and steps of a channel without timed actions.) -/
def Obligations.CosyClockAndTime : Prop :=
  ((∀ (s : State) (c : Fin 4) (stopped : Bool) (ppb : Nat), Ready s c →
    Completes (.oscFail c stopped ppb) s (fun t => CosyFrame s t c ∧ (t.chan c).getF pgCosy COSY.STATUS_OSC_OK = 0 ∧
      (t.chan c).getB pgCosy COSY.STATUS_CLK_SRC = true ∧ (t.chan c).ns = (s.chan c).ns)) ∧
  (∀ (s : State) (c : Fin 4) (k : Fin 2), KeeperReady s c k →
    (s.chan c).getB pgCosy COSY.STATUS_OSC_OK = true →
    Completes (.clkReturn c k) s (fun t => CosyFrame s t c ∧ (t.chan c).getB pgCosy COSY.STATUS_CLK_SRC = false)) ∧
  (∀ (s : State) (c : Fin 4) (on : Bool), HostReady s c →
    Completes (.cosyEnableWrite (.func 0) c on) s (fun t => CosyFrame s t c ∧ (t.chan c).getB pgCosy CTRL_ENABLE = on ∧
      workOf (t.chan c) = workOf (s.chan c)))) ∧
  ((∀ (s : State) (c : Fin 4) (pol : Bool), Ready s c → (s.chan c).enabled pgCosy = true →
    (s.chan c).getB pgCosy COSY.PPS_IN_CFG_EN = true → (s.chan c).getB pgCosy COSY.PPS_IN_CFG_POL = pol →
    Completes (.ppsInEdge c pol false) s (fun t => CosyFrame s t c ∧ (t.chan c).cosy.edge = (s.chan c).ns + 1 ∧
      (t.chan c).cosy.expect = (s.chan c).ns + 1000000001 ∧ (t.chan c).cosy.miss = 0)) ∧
  (∀ (s : State) (c : Fin 4), Ready s c → (s.chan c).cosy.expect ≠ 0 → (s.chan c).getB pgCosy COSY.PPS_IN_CFG_EN = true →
    Completes (.ppsMiss c) s (fun t => CosyFrame s t c ∧ (t.chan c).cosy.miss = (s.chan c).cosy.miss + 1 ∧
      bit ((t.chan c).get pgCosy oCAUSE) 15 = true)) ∧
  (∀ (s : State) (c : Fin 4) (b : List Byte), Ready s c → (s.chan c).todOn = true → b.length = 24 → beAt b 0 2 = 0xA53C →
    ((s.chan c).todReason b = none →
      Completes (.todInFrame c b) s (fun t => CosyFrame s t c ∧ (t.chan c).cosy.todTaken = true ∧ (t.chan c).cosy.lastFrame = (s.chan c).ns ∧
        (t.chan c).cosy.tod.utc = beAt b 10 2)) ∧
    ((s.chan c).todReason b ≠ none →
      Completes (.todInFrame c b) s (fun t => CosyFrame s t c ∧ (t.chan c).cosy = (s.chan c).cosy ∧
        (t.chan c).nat pgCosy COSY.TOD_ERR_CNT = satAdd 32 ((s.chan c).nat pgCosy COSY.TOD_ERR_CNT) 1))) ∧
  (∀ (s : State) (c : Fin 4), Ready s c → (s.chan c).todOn = true →
    Completes (.todFrameAbandon c) s (fun t => CosyFrame s t c ∧
      (t.chan c).nat pgCosy COSY.TOD_ERR_CNT = satAdd 32 ((s.chan c).nat pgCosy COSY.TOD_ERR_CNT) 1))) ∧
  ((∀ (s : State) (c : Fin 4) (k : Fin 2), KeeperReady s c k →
    let d := (s.chan c).stepOfs
    (s.chan c).stepAllowed d = true → (d ≤ 0 ∨ (s.chan c).act.slots = []) →
    Completes (.cosyStep c k) s (fun t =>
      (t.chan c).time = (((s.chan c).time : Int) + d * 65536) % (2 ^ 48 * 1000000000 * 65536) ∧
      (t.chan c).ns = (s.chan c).ns ∧
      (t.chan c).nat pgCosy COSY.STEP_CNT = satAdd 32 ((s.chan c).nat pgCosy COSY.STEP_CNT) 1)) ∧
  (∀ (s : State) (c : Fin 4) (k : Fin 2) (tag : Nat), HostReady s c → (s.chan c).kstate k.val = 4 →
    (s.chan c).getB (pgKeep k.val) KEEP.SVC_STAT_BUSY = false → tag < 256 → (s.chan c).timeState = 0 → (s.chan c).act.slots = [] →
    let a := (s.chan c).svcArg k.val
    a 0 ≤ 65535 → a 2 < 1000000000 →
    Completes (.setTime (.func 0) c k tag) s (fun t => (t.chan c).timeNs = (a 0 * 2 ^ 32 + a 1) * 1000000000 + a 2 ∧
      (t.chan c).nat (pgKeep k.val) KEEP.SVC_STAT = 2 ^ 30 + tag * 2 ^ 16)))

/-- R147, R158: a servo tick restarts the timeout; the timeout stops the slew, and takes LOCKED to HOLDOVER or past it; the hardware
expires a holdover whose ticks have stopped.

R139, R160, R161: an edge of PPS_OUT is sent once for each second and schedules the ToD frame, which carries 24 bytes.

R136, R138, R147, R148, R151, R152, R158, R171: steps, ticks, timeouts and edges in every state of the time machine: a step moves network
time whatever actions wait, a tick may bring the second's work, and the timeout takes each state to the one R158 gives.

R134: a read of COSY.TOD_W0 takes the requester's snapshot of network time. R508: ENABLE = 1 of a stack's page is stored. R131: when OSC_IN
returns, OSC_OK reads 1.

R134, R508: a snapshot by any requester of PF0's rights, and ENABLE of a stack that was off, which starts its training. -/
def Obligations.CosyServoAndOutputs : Prop :=
  ((∀ (s : State) (c : Fin 4) (k : Fin 2) (v : Word), KeeperReady s c k →
    Completes (.servoTick c k v none) s (fun t => CosyFrame s t c ∧ (t.chan c).cosy.tick = (s.chan c).ns + 1 ∧
      (t.chan c).getB pgCosy COSY.STATUS_SERVO_TIMEOUT = false ∧ (t.chan c).get pgCosy COSY.SERVO_TICK = v)) ∧
  (∀ (s : State) (c : Fin 4), Ready s c → (s.chan c).cosy.tick ≠ 0 → (s.chan c).getB pgCosy COSY.STATUS_SERVO_TIMEOUT = false →
    (s.chan c).timeState = 2 →
    Completes (.servoTimeout c) s (fun t => CosyFrame s t c ∧ (t.chan c).getB pgCosy COSY.STATUS_SERVO_TIMEOUT = true ∧
      (t.chan c).nat pgCosy COSY.SLEW_RATE = 0 ∧ ((t.chan c).timeState = 3 ∨ (t.chan c).timeState = 4))) ∧
  (∀ (s : State) (c : Fin 4), Ready s c → (s.chan c).getB pgCosy COSY.STATUS_SERVO_TIMEOUT = true → (s.chan c).timeState = 3 →
    Completes (.hwHoldoverExpiry c) s (fun t => CosyFrame s t c ∧ (t.chan c).timeState = 4 ∧ bit ((t.chan c).get pgCosy oCAUSE) 12 = true))) ∧
  ((∀ (s : State) (c : Fin 4), Ready s c → (s.chan c).squelched = false → (s.chan c).getB pgCosy COSY.OUT_CFG_PPS_OUT_EN = true →
    Completes (.ppsOutEdge c) s (fun t => CosyFrame s t c ∧ ∃ n, t.out = .pin 0x20 [n, (s.chan c).getF pgCosy COSY.PPS_OUT_CFG_WIDTH] :: s.out ∧
      (s.chan c).cosy.outNext ≤ n ∧ (t.chan c).cosy.outNext = n + 1)) ∧
  (∀ (s : State) (c : Fin 4), Ready s c → (s.chan c).squelched = false → (s.chan c).getB pgCosy COSY.OUT_CFG_TOD_OUT_EN = true →
    (s.chan c).cosy.todDue ≠ 0 →
    Completes (.todOutFrame c) s (fun t => CosyFrame s t c ∧ (∃ b, b.length = 24 ∧ t.out = .wire 6 [(s.chan c).getF pgCosy COSY.OUT_CFG_TOD_BAUD] b :: s.out) ∧
      (t.chan c).cosy.todDue = 0 ∧ (t.chan c).cosy.todSeq = ((s.chan c).cosy.todSeq + 1) % 65536))) ∧
  ((∀ (s : State) (c : Fin 4) (k : Fin 2), KeeperReady s c k → (s.chan c).stepAllowed (s.chan c).stepOfs = true →
    Completes (.cosyStep c k) s (fun t =>
      (t.chan c).time = (((s.chan c).time : Int) + (s.chan c).stepOfs * 65536) % (2 ^ 48 * 1000000000 * 65536) ∧
      (t.chan c).nat pgCosy COSY.STEP_CNT = satAdd 32 ((s.chan c).nat pgCosy COSY.STEP_CNT) 1)) ∧
  (∀ (s : State) (c : Fin 4) (k : Fin 2) (tag : Nat), SvcReady s c k tag → (s.chan c).timeState = 0 →
    (s.chan c).svcArg k.val 0 ≤ 65535 → (s.chan c).svcArg k.val 2 < 1000000000 →
    Completes (.setTime (.func 0) c k tag) s (fun t => SvcDone t c k tag 0 ∧ (t.chan c).timeNs =
      ((s.chan c).svcArg k.val 0 * 2 ^ 32 + (s.chan c).svcArg k.val 1) * 1000000000 + (s.chan c).svcArg k.val 2)) ∧
  (∀ (s : State) (c : Fin 4) (k : Fin 2) (v : Word) (work : Option ServoIn), KeeperReady s c k →
    Completes (.servoTick c k v work) s (fun t => (t.chan c).cosy.tick = (s.chan c).ns + 1 ∧
      (t.chan c).getB pgCosy COSY.STATUS_SERVO_TIMEOUT = false ∧ (t.chan c).get pgCosy COSY.SERVO_TICK = v ∧
      ((s.chan c).active = some k.val → work.isSome = true →
        ((t.chan c).ctl k.val).lastSec = (s.chan c).timeNs / 1000000000 + 1))) ∧
  (∀ (s : State) (c : Fin 4), Ready s c → (s.chan c).cosy.tick ≠ 0 → (s.chan c).getB pgCosy COSY.STATUS_SERVO_TIMEOUT = false →
    Completes (.servoTimeout c) s (fun t => (t.chan c).getB pgCosy COSY.STATUS_SERVO_TIMEOUT = true ∧
      (t.chan c).getB pgCosy COSY.STATUS_BOUND_STALE = true ∧ (t.chan c).nat pgCosy COSY.SLEW_RATE = 0 ∧
      (if (s.chan c).timeState = 2 ∨ (s.chan c).timeState = 3 ∨
          ((s.chan c).timeState = 1 ∧ (s.chan c).getB pgCosy COSY.STATUS_FROM_HO = true) then
         (t.chan c).timeState = 3 ∨ (t.chan c).timeState = 4
       else (t.chan c).timeState = if (s.chan c).timeState = 1 then 0 else (s.chan c).timeState))) ∧
  (∀ (s : State) (c : Fin 4) (pol short : Bool), Ready s c → (s.chan c).enabled pgCosy = true →
    (s.chan c).getB pgCosy COSY.PPS_IN_CFG_EN = true →
    Completes (.ppsInEdge c pol short) s (fun t =>
      if short = false ∧ (s.chan c).getB pgCosy COSY.PPS_IN_CFG_POL = pol then
        (t.chan c).cosy.edge = (s.chan c).ns + 1 ∧ (t.chan c).cosy.miss = 0
      else t.chan c = s.chan c))) ∧
  ((∀ (s : State) (c : Fin 4), HostReady s c →
    Completes (.todSnapshot (.func 0) c) s (fun t => tget 0 (t.chan c).snaps 0 = (s.chan c).time ∧
      t.out.head? = some (.read (addrOf c.val pgCosy 0x110) ((s.chan c).time % 65536)))) ∧
  (∀ (s : State) (c : Fin 4) (st : Fin 2), HostReady s c →
    (s.chan c).getF (pgHbmc st.val) CTRL_SOFT_RESET = 0 →
    Completes (.hbmEnable (.func 0) c st) s (fun t => (t.chan c).getB (pgHbmc st.val) CTRL_ENABLE = true)) ∧
  (∀ (s : State) (c : Fin 4), Ready s c →
    Completes (.oscInReturns c) s (fun t => (t.chan c).getF pgCosy COSY.STATUS_OSC_OK = 1 ∧
      workOf (t.chan c) = workOf (s.chan c)))) ∧
  (∀ (s : State) (q : Req) (c : Fin 4), HostReady s c → MayUse s q c true →
    Completes (.todSnapshot q c) s (fun t => tget 0 (t.chan c).snaps q.snapKey = (s.chan c).time ∧
      t.out.head? = some (.read (addrOf c.val pgCosy 0x110) ((s.chan c).time % 65536))) ∧
    (∀ st : Fin 2, (s.chan c).getF (pgHbmc st.val) CTRL_SOFT_RESET = 0 → (s.chan c).getB (pgHbmc st.val) CTRL_ENABLE = false →
      Completes (.hbmEnable q c st) s (fun t => (t.chan c).getB (pgHbmc st.val) CTRL_ENABLE = true ∧
        (t.chan c).getF (pgHbmc st.val) HBMC.STATUS_STATE = 1)))

/-- R171: the service commands that set and report the PTP datasets and peers complete with OK and their effect, on the active keeper and with
arguments in range.

R159, R171: the oscillator model is saved to host memory, loaded from a record that passes its checks, and reset.

R141, R159, R171: the PTP datasets whatever ports and peers stand, an IPv6 peer, and the ends of the model commands that fail: DMA_ERROR when
host memory fails, BAD_ARG for a bad record, REFUSED in holdover. -/
def Obligations.PtpAndOscillatorModel : Prop :=
  (∀ (s : State) (c : Fin 4) (k : Fin 2) (tag : Nat), HostReady s c → (s.chan c).kstate k.val = 4 →
    (s.chan c).getB (pgKeep k.val) KEEP.SVC_STAT_BUSY = false → tag < 256 →
    let a := (s.chan c).svcArg k.val
    let x := (s.chan c).ctl k.val
    let done := fun (t : State) => (t.chan c).nat (pgKeep k.val) KEEP.SVC_STAT = 2 ^ 30 + tag * 2 ^ 16
    (a 3 < 2 → 24 ≤ nbits (a 2) 7 0 → nbits (a 2) 7 0 ≤ 63 → x.ports = [] →
      Completes (.setDefaultDs (.func 0) c k tag) s (fun t => CosyFrame s t c ∧ done t ∧
        ((t.chan c).ctl k.val).clockId = a 0 + a 1 * 2 ^ 32 ∧ ((t.chan c).ctl k.val).dsWord = a 2 ∧
        ((t.chan c).ctl k.val).slaveOnly = nbit (a 3) 0)) ∧
    (nbits (a 0) 7 6 = 0 → a 0 < 2 ^ 15 → a 3 < 256 → (s.chan c).ptpPortOk (nbits (a 0) 5 0) = true → a 1 = 0 →
      transportOk (nbits x.dsWord 7 0) (nbits (a 0) 13 12) = true →
      Completes (.setPortDs (.func 0) c k tag) s (fun t => CosyFrame s t c ∧ done t ∧
        (tget ({} : PtpPort) ((t.chan c).ctl k.val).ports (nbits (a 0) 5 0)).cfg = a 0 ∧
        (tget ({} : PtpPort) ((t.chan c).ctl k.val).ports (nbits (a 0) 5 0)).asym = a 2 ∧
        (tget ({} : PtpPort) ((t.chan c).ctl k.val).ports (nbits (a 0) 5 0)).localPrio = a 3)) ∧
    ((s.chan c).ptpPortOk (a 0) = true →
      Completes (.getPortDs (.func 0) c k tag) s (fun t => CosyFrame s t c ∧ done t ∧
        (t.chan c).nat (pgKeep k.val) (KEEP.SVC_RESP 0) = (tget ({} : PtpPort) x.ports (a 0)).state % 16 ∧
        (t.chan c).nat (pgKeep k.val) (KEEP.SVC_RESP 1) = (tget ({} : PtpPort) x.ports (a 0)).delay % 2 ^ 32)) ∧
    (nbits (a 0) 7 6 = 0 → a 0 < 256 → a 5 < 256 → (s.chan c).ptpPortOk (nbits (a 0) 5 0) = true →
      2 ≤ nbits (tget ({} : PtpPort) x.ports (nbits (a 0) 5 0)).cfg 13 12 → x.peers.length < 512 →
      Completes (.addPeer (.func 0) c k tag) s (fun t => CosyFrame s t c ∧ done t ∧ ∃ n, n < 512 ∧
        (t.chan c).nat (pgKeep k.val) (KEEP.SVC_RESP 0) = n ∧
        tget ({} : Peer) ((t.chan c).ctl k.val).peers n = { port := nbits (a 0) 5 0, ipv6 := false, addr := a 1, prio := a 5 })) ∧
    (a 0 < 512 → tget ({} : Peer) x.peers (a 0) ≠ {} →
      Completes (.delPeer (.func 0) c k tag) s (fun t => CosyFrame s t c ∧ done t ∧ tget ({} : Peer) ((t.chan c).ctl k.val).peers (a 0) = {})) ∧
    (nbits (a 0) 23 19 = 0 →
      Completes (.setTimeProps (.func 0) c k tag) s (fun t => CosyFrame s t c ∧ done t ∧ ((t.chan c).ctl k.val).props = a 0)) ∧
    Completes (.getStatus (.func 0) c k tag) s (fun t => CosyFrame s t c ∧ done t ∧
      (t.chan c).nat (pgKeep k.val) (KEEP.SVC_RESP 0) = (s.chan c).nat pgCosy COSY.STATUS ∧
      (t.chan c).nat (pgKeep k.val) (KEEP.SVC_RESP 1) = (s.chan c).nat pgCosy COSY.TE_BOUND)) ∧
  (∀ (s : State) (c : Fin 4) (k : Fin 2) (tag : Nat), HostReady s c → s.hostReach c = true → (s.chan c).kstate k.val = 4 →
    (s.chan c).getB (pgKeep k.val) KEEP.SVC_STAT_BUSY = false → tag < 256 →
    let a := (s.chan c).svcArg k.val
    let done := fun (t : State) => (t.chan c).nat (pgKeep k.val) KEEP.SVC_STAT = 2 ^ 30 + tag * 2 ^ 16
    Completes (.saveModel (.func 0) c k tag false) s (fun t => CosyFrame s t c ∧ done t ∧
      ∃ b, b.length = 128 ∧ Out.dma 3 [a 0 + a 1 * 2 ^ 32] b ∈ t.out) ∧
    ((s.chan c).timeState ≠ 3 → (s.chan c).timeState ≠ 4 →
      (∀ rec_, modelOk rec_ (s.chan c).timeNs = true →
        Completes (.loadModel (.func 0) c k tag rec_ false) s (fun t => CosyFrame s t c ∧ done t ∧
          ((t.chan c).ctl k.val).model = modelOf rec_ ∧ (t.chan c).nat pgCosy COSY.LEARN_SEC = leAt rec_ 16 4)) ∧
      Completes (.resetModel (.func 0) c k tag) s (fun t => CosyFrame s t c ∧ done t ∧
        ((t.chan c).ctl k.val).model = {} ∧ (t.chan c).nat pgCosy COSY.LEARN_SEC = 0))) ∧
  (∀ (s : State) (c : Fin 4) (k : Fin 2) (tag : Nat), SvcReady s c k tag →
    let a := (s.chan c).svcArg k.val
    let x := (s.chan c).ctl k.val
    (a 3 < 2 → 24 ≤ nbits (a 2) 7 0 → nbits (a 2) 7 0 ≤ 63 →
      (∀ e ∈ x.ports, nbit e.2.cfg 8 = true → transportOk (nbits (a 2) 7 0) (nbits e.2.cfg 13 12) = true) →
      Completes (.setDefaultDs (.func 0) c k tag) s (fun t => CosyFrame s t c ∧ SvcDone t c k tag 0 ∧
        ((t.chan c).ctl k.val).clockId = a 0 + a 1 * 2 ^ 32 ∧ ((t.chan c).ctl k.val).dsWord = a 2)) ∧
    (nbits (a 0) 7 6 = 0 → a 0 < 2 ^ 15 → a 3 < 256 → (s.chan c).ptpPortOk (nbits (a 0) 5 0) = true →
      -7 ≤ toSigned (nbits (a 1) 7 0) 8 → -7 ≤ toSigned (nbits (a 1) 15 8) 8 → -3 ≤ toSigned (nbits (a 1) 23 16) 8 →
      transportOk (nbits x.dsWord 7 0) (nbits (a 0) 13 12) = true →
      Completes (.setPortDs (.func 0) c k tag) s (fun t => CosyFrame s t c ∧ SvcDone t c k tag 0 ∧
        (tget ({} : PtpPort) ((t.chan c).ctl k.val).ports (nbits (a 0) 5 0)).cfg = a 0 ∧
        (tget ({} : PtpPort) ((t.chan c).ctl k.val).ports (nbits (a 0) 5 0)).intervals = a 1)) ∧
    (nbits (a 0) 7 6 = 0 → a 0 < 512 → a 5 < 256 → (s.chan c).ptpPortOk (nbits (a 0) 5 0) = true →
      2 ≤ nbits (tget ({} : PtpPort) x.ports (nbits (a 0) 5 0)).cfg 13 12 → x.peers.length < 512 →
      Completes (.addPeer (.func 0) c k tag) s (fun t => CosyFrame s t c ∧ SvcDone t c k tag 0 ∧ ∃ n, n < 512 ∧
        (t.chan c).nat (pgKeep k.val) (KEEP.SVC_RESP 0) = n ∧
        tget ({} : Peer) ((t.chan c).ctl k.val).peers n =
          { port := nbits (a 0) 5 0, ipv6 := nbit (a 0) 8, prio := a 5,
            addr := if nbit (a 0) 8 then a 1 + a 2 * 2 ^ 32 + a 3 * 2 ^ 64 + a 4 * 2 ^ 96 else a 1 })) ∧
    (Completes (.saveModel (.func 0) c k tag true) s (fun t => CosyFrame s t c ∧ SvcDone t c k tag 7 ∧ t.out = s.out)) ∧
    (∀ (rec_ : List Byte) (dmaErr : Bool), Completes (.loadModel (.func 0) c k tag rec_ dmaErr) s (fun t => CosyFrame s t c ∧
      SvcDone t c k tag (if (s.chan c).timeState = 3 ∨ (s.chan c).timeState = 4 then 4 else if dmaErr || !(s.hostReach c) then 7
        else if modelOk rec_ (s.chan c).timeNs then 0 else 2))))

/-- R175, R182: ARM writes its status with DONE: an early enough journal marker of the host takes a slot, which is pending at its time; a
reserved target is refused with BAD_TARGET and takes none.

R177, R178, R180, R183: CANCEL takes a pending slot of the port to CANCELLED, FREE returns a done one to FREE, and SLOT_RD_IDX shows a
slot.

R173–R178, R182: ARM takes a slot for every target, of the host's port or the keeper's: with status 0, or late with LATE_EXEC and status 2;
CANCEL and FREE act on the slots of their own port. -/
def Obligations.ActionSlots : Prop :=
  (∀ (s : State) (c : Fin 4) (late loc free note : Bool), HostReady s c →
    ((s.chan c).armStatus false 0 (BitVec.ofNat 32 (2 ^ 31 + (b2n late * 2 ^ 28 + b2n loc * 2 ^ 27 + b2n free * 2 ^ 26 + b2n note * 2 ^ 25
        + 9 * 2 ^ 16))) = 0 →
      Completes (.arm (.func 0) c false 9 late loc free note) s (fun t => ActFrame s t c ∧ ∃ i, i < 1024 ∧ ((s.chan c).slot i).st = 0 ∧
        ((t.chan c).slot i).st = 1 ∧ ((t.chan c).slot i).target = 9 ∧ ((t.chan c).slot i).time = (s.chan c).armTime 0 ∧
        ((t.chan c).slot i).arg = (s.chan c).get64 pgAct ACT.HARM_ARG ∧
        (t.chan c).nat pgAct ACT.HARM_RESULT = 2 ^ 31 + i ∧ ∀ j, j ≠ i → (t.chan c).slot j = (s.chan c).slot j)) ∧
    ((s.chan c).enabled pgAct = true →
      Completes (.arm (.func 0) c false 0xFF late loc free note) s (fun t => ActFrame s t c ∧
        fld ((t.chan c).get pgAct ACT.HARM_RESULT) 31 31 = 1 ∧ fld ((t.chan c).get pgAct ACT.HARM_RESULT) 23 16 = 4 ∧
        (t.chan c).act = (s.chan c).act))) ∧
  (∀ (s : State) (c : Fin 4) (i : Nat), HostReady s c → i < 1024 →
    (((s.chan c).slot i).st = 1 → ((s.chan c).slot i).keeper = false → ((s.chan c).slot i).late = false → ((s.chan c).slot i).target ≠ 1 →
      Completes (.cancel (.func 0) c false i false) s (fun t => ActFrame s t c ∧ ((t.chan c).slot i).st = 3 ∧ ((t.chan c).slot i).result = 6 ∧
        (t.chan c).nat pgAct ACT.HARM_RESULT = 2 ^ 31 + i ∧ ∀ j, j ≠ i → (t.chan c).slot j = (s.chan c).slot j)) ∧
    (2 ≤ ((s.chan c).slot i).st → ((s.chan c).slot i).keeper = false →
      Completes (.free (.func 0) c false i) s (fun t => ActFrame s t c ∧ ((t.chan c).slot i).st = 0 ∧
        (t.chan c).nat pgAct ACT.HARM_RESULT = 2 ^ 31 + i ∧ ∀ j, j ≠ i → (t.chan c).slot j = (s.chan c).slot j)) ∧
    Completes (.slotRdIdxWrite (.func 0) c i) s (fun t => ActFrame s t c ∧
      (t.chan c).get64 pgAct (ACT.SLOT_RD 0) = t64Of ((s.chan c).slot i).time % 2 ^ 64 ∧
      (t.chan c).nat pgAct (ACT.SLOT_RD 4) = ((s.chan c).slot i).info % 2 ^ 32 ∧ workOf (t.chan c) = workOf (s.chan c))) ∧
  (∀ (s : State) (q : Req) (c : Fin 4) (kport : Bool), Ready s c →
    ((kport = false ∧ HostReady s c ∧ q = .func 0) ∨ (kport = true ∧ ∃ k : Fin 2, KeeperReady s c k ∧ q = keeperReq k)) →
    let d := if kport then 0x20 else 0
    let res := fun (t : State) => (t.chan c).nat pgAct (ACT.HARM_RESULT + d)
    (∀ (target : Nat) (late loc free note : Bool), target < 256 →
      let w := BitVec.ofNat 32 (2 ^ 31 + (b2n late * 2 ^ 28 + b2n loc * 2 ^ 27 + b2n free * 2 ^ 26 + b2n note * 2 ^ 25 + target * 2 ^ 16))
      ((s.chan c).armStatus kport d w = 0 ∨ (s.chan c).armStatus kport d w = 2) →
      Completes (.arm q c kport target late loc free note) s (fun t => ∃ i, i < 1024 ∧ ((s.chan c).slot i).st = 0 ∧
        (t.chan c).slot i = (s.chan c).armSlot kport d w ((s.chan c).armStatus kport d w == 2) ∧
        res t = 2 ^ 31 + (s.chan c).armStatus kport d w * 2 ^ 16 + i ∧ ∀ j, j ≠ i → (t.chan c).slot j = (s.chan c).slot j)) ∧
    (∀ i, i < 1024 → ((s.chan c).slot i).keeper = kport →
      (((s.chan c).slot i).st = 1 → ((s.chan c).slot i).late = false →
        Completes (.cancel q c kport i false) s (fun t => ((t.chan c).slot i).st = 3 ∧ ((t.chan c).slot i).result = 6 ∧ res t = 2 ^ 31 + i ∧
          ∀ j, j ≠ i → (t.chan c).slot j = (s.chan c).slot j)) ∧
      (2 ≤ ((s.chan c).slot i).st →
        Completes (.free q c kport i) s (fun t => ((t.chan c).slot i).st = 0 ∧ res t = 2 ^ 31 + i ∧
          ∀ j, j ≠ i → (t.chan c).slot j = (s.chan c).slot j))))

/-- R174, R178: the instant of a pending slot that no other precedes: it fires at its target, and ends DONE, or FREE
with AUTO_FREE.

R193, R194: a POUR whose time bound holds makes the next brew current: BREW reads POURED with the new number and its parity, and the brew
before it is remembered.

R173, R174, R178, R179: the instant of a pending slot that no other precedes runs network time on to it, has its target act, and leaves the
slot with the RESULT that the target's answer gives. -/
def Obligations.ActionsFire : Prop :=
  (∀ (s : State) (c : Fin 4) (i : Nat), Ready s c → i < 1024 → ((s.chan c).slot i).st = 1 →
    ((s.chan c).pendingSlots.any (fun e => e.2.before ((s.chan c).slot i))) = false →
    let fired := fun (t : State) => ((t.chan c).slot i).st = (if ((s.chan c).slot i).autoFree then 0 else 2)
    (((s.chan c).slot i).target = 1 → Completes (.pour c i) s fired) ∧
    (((s.chan c).slot i).target = 2 → Completes (.gateSwap c i) s fired) ∧
    (((s.chan c).slot i).target = 3 → Completes (.calSwitch c i) s fired) ∧
    (((s.chan c).slot i).target = 4 → Completes (.slotPage c i) s fired) ∧
    (((s.chan c).slot i).target = 5 → Completes (.portEnable c i) s fired) ∧
    (((s.chan c).slot i).target = 6 → Completes (.sampler c i) s fired) ∧
    (((s.chan c).slot i).target = 7 → Completes (.pmBin c i) s fired) ∧
    (((s.chan c).slot i).target = 8 → Completes (.hbmRetrain c i) s fired) ∧
    (((s.chan c).slot i).target = 9 → Completes (.jrnlMarker c i) s fired)) ∧
  (∀ (s : State) (c : Fin 4) (i : Nat), Ready s c → i < 1024 → ((s.chan c).slot i).st = 1 → ((s.chan c).slot i).target = 1 →
    ((s.chan c).pendingSlots.any (fun e => e.2.before ((s.chan c).slot i))) = false →
    (s.chan c).enabled pgBrew = true → (s.chan c).brewState = 4 → ((s.chan c).slot i).arg = (s.chan c).nextBrew →
    (s.chan c).teBound ≤ (s.chan c).nat pgBrew BREW.POUR_CFG →
    Completes (.pour c i) s (fun t => (t.chan c).brewState = 5 ∧
      (t.chan c).getF pgBrew BREW.STATUS_CUR_BREW = (s.chan c).nextBrew % 65536 ∧
      (t.chan c).getF pgBrew BREW.STATUS_CUR_PARITY = (s.chan c).nextBrew % 2 ∧
      (t.chan c).brew.prev = (s.chan c).getF pgBrew BREW.STATUS_CUR_BREW)) ∧
  (∀ (s : State) (c : Fin 4) (i : Nat), Ready s c → i < 1024 → ((s.chan c).slot i).st = 1 →
    ((s.chan c).pendingSlots.any (fun e => e.2.before ((s.chan c).slot i))) = false →
    let x := (s.chan c).slot i
    let at_ := (s.chan c).runNet x.due
    let r := at_.runTarget x (if x.late then 1 else 0) (if x.target = 9 then x.time else if x.late then at_.timeNs else x.time)
    let acts := fun (t : State) => t = s.runChan c (fun _ => at_.fire i false) ∧
      (t.chan c).slot i = { x with st := if x.autoFree then 0 else 2, result := r.2 }
    (x.target = 1 → Completes (.pour c i) s acts) ∧ (x.target = 2 → Completes (.gateSwap c i) s acts) ∧
    (x.target = 3 → Completes (.calSwitch c i) s acts) ∧ (x.target = 4 → Completes (.slotPage c i) s acts) ∧
    (x.target = 5 → Completes (.portEnable c i) s acts) ∧ (x.target = 6 → Completes (.sampler c i) s acts) ∧
    (x.target = 7 → Completes (.pmBin c i) s acts) ∧ (x.target = 8 → Completes (.hbmRetrain c i) s acts) ∧
    (x.target = 9 → Completes (.jrnlMarker c i) s acts))

/-- R187–R189: STAGE starts a fetch, COMMIT makes the first brew current and stages a later one, DISCARD starts its sweep; a command
outside its states completes with BAD_STATE.

R187–R194: how BREW's own events end a fetch, a discard, a retire and its delay.

R187–R189: the commands of BREW in every state in which they act, whatever fetch or sweep is under way. -/
def Obligations.Brews : Prop :=
  (∀ (s : State) (c : Fin 4) (hold : Bool), HostReady s c → (s.chan c).brew.staging = none → (s.chan c).brew.discarding = false →
    (s.chan c).brewState ≠ 5 →
    (((s.chan c).brewState = 0 ∨ (s.chan c).brewState = 1 ∨ (s.chan c).brewState = 2) →
      Completes (.stage (.func 0) c hold) s (fun t => BrewFrame s t c ∧ (t.chan c).brewState = 2 ∧
        (t.chan c).brew.staging = some ((s.chan c).nat pgBrew BREW.IMG_LEN) ∧ (t.chan c).getB pgBrew STAT_BUSY = true)) ∧
    ((s.chan c).brewState = 2 →
      Completes (.commit (.func 0) c hold) s (fun t => BrewFrame s t c ∧
        (t.chan c).brewState = (if (s.chan c).prs.fromEmpty then 1 else 3) ∧
        (t.chan c).getF pgBrew BREW.STATUS_LAST_RESULT = 0 ∧
        ((s.chan c).prs.fromEmpty = true →
          (t.chan c).getF pgBrew BREW.STATUS_CUR_BREW = (s.chan c).getF pgBrew BREW.FIRST_NUM_NUM))) ∧
    (((s.chan c).brewState = 2 ∨ (s.chan c).brewState = 3) →
      Completes (.discard (.func 0) c hold) s (fun t => BrewFrame s t c ∧ (t.chan c).brew.discarding = true ∧
        (t.chan c).getB pgBrew STAT_BUSY = true)) ∧
    ((s.chan c).brewState = 4 →
      Completes (.stage (.func 0) c hold) s (fun t => BrewFrame s t c ∧ (t.chan c).brewState = 4 ∧
        (t.chan c).getF pgBrew BREW.STATUS_LAST_RESULT = 3 ∧ workOf (t.chan c) = workOf (s.chan c)))) ∧
  (∀ (s : State) (c : Fin 4), Ready s c →
    (∀ (n : Nat) (img : List Byte), (s.chan c).brew.staging = some n →
      (∀ o, Completes (.stageDone c img (some o)) s (fun t => BrewFrame s t c ∧ (t.chan c).brew.staging = none ∧
        (t.chan c).getF pgBrew BREW.STATUS_LAST_RESULT = 2 ∧ (t.chan c).getB pgBrew STAT_BUSY = false)) ∧
      Completes (.stageDone c img none) s (fun t => BrewFrame s t c ∧ (t.chan c).brew.staging = none ∧ (t.chan c).getB pgBrew STAT_BUSY = false ∧
        (imageCheck (sliceBytes img 0 n) n stageMinor = none → (t.chan c).getF pgBrew BREW.STATUS_LAST_RESULT = 0 ∧
          (t.chan c).bank ((s.chan c).nextBrew % 2) = bankOf (sliceBytes img 0 n)) ∧
        (imageCheck (sliceBytes img 0 n) n stageMinor ≠ none → (t.chan c).getF pgBrew BREW.STATUS_LAST_RESULT = 1 ∧
          (t.chan c).prs = (s.chan c).prs))) ∧
    ((s.chan c).brew.discarding = true → (s.chan c).active.isSome = true →
      Completes (.discardSweepDone c) s (fun t => BrewFrame s t c ∧ (t.chan c).brew.discarding = false ∧
        (t.chan c).brewState = (if (s.chan c).prs.fromEmpty then 0 else 1) ∧ (t.chan c).getF pgBrew BREW.STATUS_LAST_RESULT = 6)) ∧
    ((s.chan c).brewState = 5 → (s.chan c).getB pgBrew BREW.CTRL_RETIRE_HOLD = false →
      Completes (.retire c) s (fun t => BrewFrame s t c ∧ (t.chan c).brewState = 6)) ∧
    ((s.chan c).brewState = 6 → (s.chan c).active.isSome = true →
      Completes (.retireSweepDone c) s (fun t => BrewFrame s t c ∧ (t.chan c).brewState = 1 ∧ bit ((t.chan c).get pgBrew oCAUSE) 11 = true)) ∧
    ((s.chan c).prs.pourAt ≠ 0 →
      Completes (.pourTagSettle c) s (fun t => BrewFrame s t c ∧ (t.chan c).prs.pourT = 0 ∧ (t.chan c).prs.pourAt = 0 ∧
        (t.chan c).regs = (s.chan c).regs))) ∧
  (∀ (s : State) (c : Fin 4) (hold : Bool), HostReady s c →
    ((s.chan c).brewState ≤ 2 →
      Completes (.stage (.func 0) c hold) s (fun t => (t.chan c).brewState = 2 ∧
        (t.chan c).brew.staging = some ((s.chan c).nat pgBrew BREW.IMG_LEN) ∧ (t.chan c).brew.discarding = false ∧
        (t.chan c).getB pgBrew STAT_BUSY = true)) ∧
    ((s.chan c).brewState = 2 →
      Completes (.commit (.func 0) c hold) s (fun t => (t.chan c).brewState = (if (s.chan c).prs.fromEmpty then 1 else 3) ∧
        (t.chan c).brew.staging = none ∧ (t.chan c).brew.discarding = false ∧ (t.chan c).getF pgBrew BREW.STATUS_LAST_RESULT = 0)) ∧
    (((s.chan c).brewState = 2 ∨ (s.chan c).brewState = 3) →
      Completes (.discard (.func 0) c hold) s (fun t => (t.chan c).brew.discarding = true ∧ (t.chan c).brew.staging = none ∧
        (t.chan c).getB pgBrew STAT_BUSY = true)))

/-- R207, R208, R230: PORT_CFG of a port that is disabled takes the written mode, and one that is enabled refuses the write with IN_USE and
keeps it.

R213, R215, R229: EN and DISCARD of PORT_CTRL take the written value, and CNT_CLEAR sets the nineteen counters of the port to 0. -/
def Obligations.PortConfigurationAndControl : Prop :=
  (∀ (s : State) (c : Fin 4) (p : Nat) (v : Word), HostReady s c → p < 64 →
    ((s.chan c).portB p LINE.PORT_CTRL_EN = false → portCfgReserved v = false → (s.chan c).portCfgRefusal p v = 0 →
      Completes (.portCfgWrite (.func 0) c p v) s (fun t => LineFrame s t c ∧ (t.chan c).portF p LINE.PORT_CFG_KIND = fld v 31 30 ∧
        (t.chan c).portF p LINE.PORT_CFG_MAX_FRAME = fld v 13 0 ∧ (t.chan c).portF p LINE.PORT_CFG_SPEED = fld v 23 20)) ∧
    ((s.chan c).portB p LINE.PORT_CTRL_EN = true →
      Completes (.portCfgWrite (.func 0) c p v) s (fun t => LineFrame s t c ∧ (t.chan c).portF p LINE.PORT_STAT_REFUSE = 4 ∧
        (t.chan c).get (portPg p) (LINE.PORT_CFG (portBlk p)) = (s.chan c).get (portPg p) (LINE.PORT_CFG (portBlk p)) ∧
        workOf (t.chan c) = workOf (s.chan c)))) ∧
  (∀ (s : State) (c : Fin 4) (p : Nat) (on : Bool), HostReady s c → p < 64 → fld ((s.chan c).portCtrl p) 5 3 = 0 →
    Completes (.portEnWrite (.func 0) c p on) s (fun t => (t.chan c).portB p LINE.PORT_CTRL_EN = on) ∧
    Completes (.portDiscardWrite (.func 0) c p on) s (fun t => (t.chan c).portB p LINE.PORT_CTRL_DISCARD = on ∧
      (t.chan c).portB p LINE.PORT_CTRL_EN = (s.chan c).portB p LINE.PORT_CTRL_EN ∧ workOf (t.chan c) = workOf (s.chan c)) ∧
    (∀ i, i < 19 → Completes (.cntClear (.func 0) c p) s (fun t =>
      (t.chan c).get64 (portPg p) (LINE.RX_OK_FRAMES (portBlk p) + 8 * i) = 0 ∧ workOf (t.chan c) = workOf (s.chan c))))

/-- R218: RECAL and RESTART_AN of a lane port run where the port is not UP, and are refused with LIVE on one that is UP without TEST_TAKEOVER;
a recalibration runs until RECAL_DONE, after which the port trains.

R219: LANE_CFG of a lane that no port holds takes the written value; PD of a lane that a port holds is refused at that port. R211: MARGIN
shows the lane's margin.

R209, R212, R218, R219, R227: operations on a live port under TEST_TAKEOVER, faults of every kind and their ends, and LANE_CFG of a lane that a
port holds. -/
def Obligations.PortOperationsAndLanes : Prop :=
  ((∀ (s : State) (c : Fin 4) (p : Nat), HostReady s c → fld ((s.chan c).portCtrl p) 5 3 = 0 → (s.chan c).isLanePort p = true →
    ((s.chan c).portF p LINE.PORT_STAT_STATE ≠ 3 →
      Completes (.recal (.func 0) c p) s (fun t => ((t.chan c).pw p).op = 5 ∧ ((t.chan c).pw p).aligned = false) ∧
      Completes (.restartAn (.func 0) c p) s (fun t => ((t.chan c).pw p).op = 0 ∧ ((t.chan c).pw p).training = true ∧
        ((t.chan c).pw p).aligned = false)) ∧
    ((s.chan c).portF p LINE.PORT_STAT_STATE = 3 → (s.chan c).takeover p = false →
      Completes (.recal (.func 0) c p) s (fun t => (t.chan c).portF p LINE.PORT_STAT_REFUSE = 5 ∧
        workOf (t.chan c) = workOf (s.chan c)))) ∧
  (∀ (s : State) (c : Fin 4) (p : Nat) (stopped : Bool), Ready s c → (s.chan c).isLanePort p = true →
    (((s.chan c).pw p).op = 1 ∨ ((s.chan c).pw p).op = 5) →
    Completes (.recalDone c p stopped) s (fun t => ((t.chan c).pw p).op = 0 ∧ ((t.chan c).pw p).training = true))) ∧
  ((∀ (s : State) (c : Fin 4) (l : Nat) (v : Word), HostReady s c → l < 32 →
    ((s.chan c).laneOwner l = none →
      Completes (.laneCfgWrite (.func 0) c l v) s (fun t => LineFrame s t c ∧
        fld ((t.chan c).get (pgLine (l / 4)) (LINE.LANE_CFG (l % 4))) 2 0 = fld v 2 0)) ∧
    (∀ q, (s.chan c).laneOwner l = some q → bit v 0 = true →
      bit ((s.chan c).get (pgLine (l / 4)) (LINE.LANE_CFG (l % 4))) 0 = false →
      Completes (.laneCfgWrite (.func 0) c l v) s (fun t => LineFrame s t c ∧ (t.chan c).portF q LINE.PORT_STAT_REFUSE = 3 ∧
        (t.chan c).get (pgLine (l / 4)) (LINE.LANE_CFG (l % 4)) = (s.chan c).get (pgLine (l / 4)) (LINE.LANE_CFG (l % 4))))) ∧
  (∀ (s : State) (c : Fin 4) (l m : Nat), Ready s c → l < 32 → m < 256 →
    Completes (.laneMargin c l m) s (fun t => LineFrame s t c ∧ (t.chan c).getF (pgLine (l / 4)) (LINE.LANE_STAT_MARGIN (l % 4)) = m))) ∧
  ((∀ (s : State) (c : Fin 4) (p : Nat), HostReady s c → fld ((s.chan c).portCtrl p) 5 3 = 0 → (s.chan c).isLanePort p = true →
    (s.chan c).takeover p = true →
    Completes (.recal (.func 0) c p) s (fun t => ((t.chan c).pw p).aligned = false ∧
      ((t.chan c).pw p).op = if (s.chan c).portF p LINE.PORT_STAT_STATE = 3 then 1 else 5) ∧
    Completes (.restartAn (.func 0) c p) s (fun t => ((t.chan c).pw p).op = 0 ∧ ((t.chan c).pw p).training = true ∧
      ((t.chan c).pw p).aligned = false)) ∧
  (∀ (s : State) (c : Fin 4) (p lane kind : Nat), Ready s c → (s.chan c).isLanePort p = true → kind < 4 →
    Completes (.portFault c p lane kind) s (fun t =>
      if kind < 2 then ((t.chan c).pw p).aligned = false ∧ ((t.chan c).pw p).training = false
      else if kind = 2 then (t.chan c).portB p LINE.PORT_STAT_LOCAL_FAULT = true
      else (t.chan c).portB p LINE.PORT_STAT_REMOTE_FAULT = true) ∧
    Completes (.portFaultClear c p kind) s (fun t =>
      if kind < 2 then ((s.chan c).pw p).aligned = false → ((t.chan c).pw p).training = true
      else if kind = 2 then (t.chan c).portB p LINE.PORT_STAT_LOCAL_FAULT = false
      else (t.chan c).portB p LINE.PORT_STAT_REMOTE_FAULT = false)) ∧
  (∀ (s : State) (c : Fin 4) (l q : Nat) (v : Word), HostReady s c → l < 32 → (s.chan c).laneOwner l = some q →
    (bit v 0 = false ∨ bit ((s.chan c).get (pgLine (l / 4)) (LINE.LANE_CFG (l % 4))) 0 = true) →
    ((s.chan c).portF q LINE.PORT_STAT_STATE ≠ 3 ∨ (s.chan c).takeover q = true ∨
      fld v 2 1 = fld ((s.chan c).get (pgLine (l / 4)) (LINE.LANE_CFG (l % 4))) 2 1) →
    Completes (.laneCfgWrite (.func 0) c l v) s (fun t =>
      fld ((t.chan c).get (pgLine (l / 4)) (LINE.LANE_CFG (l % 4))) 2 0 = fld v 2 0)))

/-- R209, R210: a lane port that trains reaches UP; a training that fails waits, and is tried again.

R212: faults of a lane port stand until they clear, and the hold timers take it oper-down and oper-up. -/
def Obligations.LinkTrainingAndFaults : Prop :=
  (∀ (s : State) (c : Fin 4) (p lane : Nat), Ready s c → (s.chan c).isLanePort p = true →
    (((s.chan c).pw p).op = 0 → (s.chan c).instsOn p = true →
      Completes (.linkTrained c p) s (fun t => ((t.chan c).pw p).aligned = true ∧ (t.chan c).portF p LINE.PORT_STAT_STATE = 3)) ∧
    (((s.chan c).pw p).training = true → ((s.chan c).pw p).aligned = false →
      ((s.chan c).portB p LINE.PORT_CFG_AN_EN = true ∨ (s.chan c).portB p LINE.PORT_CFG_LT_EN = true) →
      Completes (.ltFail c p lane) s (fun t => ((t.chan c).pw p).retry = true ∧ ((t.chan c).pw p).training = false)) ∧
    (((s.chan c).pw p).retry = true →
      Completes (.ltRetry c p) s (fun t => ((t.chan c).pw p).retry = false ∧ ((t.chan c).pw p).training = true))) ∧
  (∀ (s : State) (c : Fin 4) (p lane : Nat), Ready s c → (s.chan c).isLanePort p = true →
    Completes (.portFault c p lane 1) s (fun t => ((t.chan c).pw p).aligned = false) ∧
    Completes (.portFault c p lane 2) s (fun t => (t.chan c).portB p LINE.PORT_STAT_LOCAL_FAULT = true) ∧
    Completes (.portFaultClear c p 2) s (fun t => (t.chan c).portB p LINE.PORT_STAT_LOCAL_FAULT = false) ∧
    Completes (.portFaultClear c p 3) s (fun t => (t.chan c).portB p LINE.PORT_STAT_REMOTE_FAULT = false) ∧
    (((s.chan c).pw p).timer = 1 → (s.chan c).oper p = true → (s.chan c).portState p ≠ 3 →
      Completes (.downHoldExpiry c p) s (fun t => (t.chan c).oper p = false ∧ ((t.chan c).pw p).mac = [])) ∧
    (((s.chan c).pw p).timer = 2 → (s.chan c).oper p = false → (s.chan c).portState p = 3 →
      (s.chan c).portF p LINE.PORT_STAT_STATE = 3 → (s.chan c).portB p LINE.PORT_CTRL_EN = true → (s.chan c).instsOn p = true →
      Completes (.upHoldExpiry c p) s (fun t => (t.chan c).oper p = true)))

/-- R214, R233, R234: a good frame is counted with its bytes, one on a disabled port as RX_DISABLED; an uncorrectable codeword is counted.

R220–R222: a received pause ends with its quanta or by the watchdog, which ignores the class until it is released; XOFF is repeated while
its request stands; preemption verification ends.

R213–R215, R220, R233: every received frame is counted, once, by the first check that it fails, and so are the codewords that its FEC
corrected; a MAC control frame is consumed, as PFC where it pauses a class of the port. -/
def Obligations.ReceivedFramesAndPfc : Prop :=
  ((∀ (s : State) (c : Fin 4) (p : Nat) (b : List Byte), Ready s c → p < 64 → (s.chan c).canReceive p = true →
    ((s.chan c).portB p LINE.PORT_CTRL_EN = true → (s.chan c).portB p LINE.PORT_CTRL_DISCARD = false → fcsOk b = true →
      64 ≤ b.length → b.length ≤ (s.chan c).portF p LINE.PORT_CFG_MAX_FRAME → beAt b 12 2 ≠ 0x8808 →
      Completes (.rxFrame c p b false false 0 0) s (fun t => LineFrame s t c ∧
        (t.chan c).get64 (portPg p) (LINE.RX_OK_FRAMES (portBlk p)) =
          ((s.chan c).get64 (portPg p) (LINE.RX_OK_FRAMES (portBlk p)) + 1) % 2 ^ 64 ∧
        (t.chan c).get64 (portPg p) (LINE.RX_OK_BYTES (portBlk p)) =
          ((s.chan c).get64 (portPg p) (LINE.RX_OK_BYTES (portBlk p)) + b.length) % 2 ^ 64)) ∧
    ((s.chan c).portB p LINE.PORT_CTRL_EN = false →
      Completes (.rxFrame c p b false false 0 0) s (fun t => LineFrame s t c ∧
        (t.chan c).get64 (portPg p) (LINE.RX_DISABLED (portBlk p)) =
          ((s.chan c).get64 (portPg p) (LINE.RX_DISABLED (portBlk p)) + 1) % 2 ^ 64 ∧
        workOf (t.chan c) = workOf (s.chan c)))) ∧
  (∀ (s : State) (c : Fin 4) (p lane syms : Nat), Ready s c → (s.chan c).isLanePort p = true →
    Completes (.fecUncorrCw c p lane syms) s (fun t => LineFrame s t c ∧
      (t.chan c).get64 (portPg p) (LINE.FEC_UNCORR_CW (portBlk p)) =
        ((s.chan c).get64 (portPg p) (LINE.FEC_UNCORR_CW (portBlk p)) + 1) % 2 ^ 64))) ∧
  (∀ (s : State) (c : Fin 4) (p cls : Nat), Ready s c → p < 64 → cls < 8 →
    ((s.chan c).rxPaused p cls = true →
      Completes (.pfcPauseExpiry c p cls) s (fun t => LineFrame s t c ∧ (t.chan c).rxPaused p cls = false)) ∧
    ((s.chan c).rxPaused p cls = true → (s.chan c).portF p LINE.PFC_TIMING_RX_WD ≠ 0 →
      (s.chan c).pausedUntil p cls (tget 0 ((s.chan c).pw p).wdAt cls + (s.chan c).portF p LINE.PFC_TIMING_RX_WD * 1000000) = true →
      Completes (.pfcWd c p cls) s (fun t => LineFrame s t c ∧ (t.chan c).rxPaused p cls = false ∧ nbit ((t.chan c).pw p).wdIgnore cls = true)) ∧
    (nbit ((s.chan c).pw p).wdIgnore cls = true →
      Completes (.pfcWdRelease c p cls) s (fun t => LineFrame s t c ∧ nbit ((t.chan c).pw p).wdIgnore cls = false)) ∧
    (nbit ((s.chan c).pw p).xoff cls = true → (s.chan c).oper p = true → (s.chan c).portB p LINE.PFC_CFG_TX_EN = true →
      nbit ((s.chan c).portF p LINE.PFC_CFG_TX_CLASSES) cls = true → ((s.chan c).pw p).ctl.length < 16 →
      Completes (.pfcXoffRepeat c p cls) s (fun t => LineFrame s t c ∧ ((t.chan c).pw p).ctl =
        ((s.chan c).pw p).ctl ++ [{ pfc := some (2 ^ cls, (s.chan c).portF p LINE.PFC_TIMING_TX_QUANTA) }])) ∧
    ((s.chan c).portF p LINE.PORT_STAT_VERIFY = 2 →
      Completes (.preemptVerifyDone c p true) s (fun t => LineFrame s t c ∧ (t.chan c).portF p LINE.PORT_STAT_VERIFY = 3) ∧
      Completes (.preemptVerifyDone c p false) s (fun t => LineFrame s t c ∧ (t.chan c).portF p LINE.PORT_STAT_VERIFY = 4))) ∧
  (∀ (s : State) (c : Fin 4) (p : Nat) (b : List Byte) (truncated fragErr : Bool) (cw sym : Nat), Ready s c → p < 64 →
    (s.chan c).canReceive p = true →
    ((s.chan c).portF p LINE.PORT_CFG_MAX_FRAME < b.length ∨ b.length < 64 ∨ beAt b 12 2 ≠ 0x8808 →
      Completes (.rxFrame c p b truncated fragErr cw sym) s (fun t => LineFrame s t c ∧
        (t.chan c).get64 (portPg p) (rxCounter (s.chan c) p b truncated fragErr (portBlk p)) =
          ((s.chan c).get64 (portPg p) (rxCounter (s.chan c) p b truncated fragErr (portBlk p)) + 1) % 2 ^ 64 ∧
        (t.chan c).get64 (portPg p) (LINE.FEC_CORR_CW (portBlk p)) =
          ((s.chan c).get64 (portPg p) (LINE.FEC_CORR_CW (portBlk p)) + cw) % 2 ^ 64)) ∧
    (rxCounter (s.chan c) p b truncated fragErr (portBlk p) = LINE.RX_OK_FRAMES (portBlk p) → 64 ≤ b.length → b.length ≤ (s.chan c).portF p LINE.PORT_CFG_MAX_FRAME →
      beAt b 12 2 = 0x8808 →
      Completes (.rxFrame c p b truncated fragErr cw sym) s (fun t => LineFrame s t c ∧
        (t.chan c).get64 (portPg p) (LINE.RX_OK_FRAMES (portBlk p)) = (s.chan c).get64 (portPg p) (LINE.RX_OK_FRAMES (portBlk p)) ∧
        (t.chan c).prs = (s.chan c).prs)))

/-- R311, R321, R307, R316: NOP, MOVI, RDF, WRF, TIME and TMR of a thread that can issue: the named register, the flags or the timer take their values, and
nothing of the channel's work but that thread changes.

R311, R319: BR and BRX set pc, and MATCH goes to the target of the first key that equals the masked field, with S, or falls through without.

R270, R271, R283, R288, R310: an instruction command changes nothing where the thread is not at that instruction or it is not its turn; an
instruction that needs an outstanding result puts the thread into WAIT; the instruction limit and a poisoned word end it with their codes; where
the predicate fails the thread only goes on; and a breakpoint halts it before the instruction. -/
def Obligations.ParseMovesAndBranches : Prop :=
  (∀ (s : State) (c : Fin 4) (t : Nat), Ready s c →
    let x := (s.chan c).thr t
    let w := (s.chan c).instrWord t
    let y := fun (u : State) => (u.chan c).thr t
    let next := fun (u : State) => (y u).pc = (x.pc + 1) % 4096 ∧ (y u).icount = x.icount + 1 ∧ OnlyThread (s.chan c) (u.chan c) t
    (CanIssue (s.chan c) t 0x01 → Completes (.pNop c t) s (fun u => next u ∧ (y u).g = x.g ∧ (y u).c = x.c ∧ (y u).flags = x.flags)) ∧
    (CanIssue (s.chan c) t 0x12 → Completes (.pMovi c t) s (fun u => next u ∧ (y u).reg (iRd w) = BitVec.ofNat 64 (nbits w 63 0) ∧
      (y u).flags = x.flags ∧ SameBut x (y u) (iRd w))) ∧
    (CanIssue (s.chan c) t 0x41 → Completes (.pRdf c t) s (fun u => next u ∧ (y u).reg (iRd w) = BitVec.ofNat 64 x.flags ∧
      SameBut x (y u) (iRd w))) ∧
    (CanIssue (s.chan c) t 0x42 → Completes (.pWrf c t) s (fun u => next u ∧ (y u).g = x.g ∧
      ∀ i, i < 9 → (y u).flag i = if nbit w (16 + i) then nbit w i else x.flag i)) ∧
    (CanIssue (s.chan c) t 0x40 → Completes (.pTime c t) s (fun u => next u ∧
      (y u).reg (iRd w) = BitVec.ofNat 64 (if nbit w 96 then (s.chan c).ns else (s.chan c).t64) ∧ SameBut x (y u) (iRd w))) ∧
    (CanIssue (s.chan c) t 0x3A → Completes (.pTmr c t) s (fun u => next u ∧ (y u).g = x.g ∧
      (y u).timer = if nbit w 96 then 0 else if nbit w 97 then (x.reg (iRs1 w)).toNat % 65536 else nbits w 15 0))) ∧
  (∀ (s : State) (c : Fin 4) (t : Nat), Ready s c →
    let x := (s.chan c).thr t
    let w := (s.chan c).instrWord t
    let y := fun (u : State) => (u.chan c).thr t
    let same := fun (u : State) => (y u).g = x.g ∧ (y u).icount = x.icount + 1 ∧ OnlyThread (s.chan c) (u.chan c) t
    (CanIssue (s.chan c) t 0x20 → Completes (.pBr c t) s (fun u => same u ∧ (y u).pc = nbits w 11 0)) ∧
    (CanIssue (s.chan c) t 0x21 → Completes (.pBrx c t) s (fun u => same u ∧
      (y u).pc = ((x.reg (iRs1 w)).toNat + nbits w 11 0) % 4096)) ∧
    (CanIssue (s.chan c) t 0x22 → Completes (.pMatch c t) s (fun u => same u ∧
      let v := Nat.land ((x.reg (iRs1 w)).toNat >>> nbits w 111 106) (nbits w 105 90)
      let eq := fun (key : Nat) => Nat.land key (nbits w 105 90) = v
      let n := nbits w 5 4
      if 1 ≤ n ∧ eq (nbits w 89 74) then (y u).pc = nbits w 73 62 ∧ (y u).flag fS = true
      else if 2 ≤ n ∧ eq (nbits w 61 46) then (y u).pc = nbits w 45 34 ∧ (y u).flag fS = true
      else if 3 ≤ n ∧ eq (nbits w 33 18) then (y u).pc = nbits w 17 6 ∧ (y u).flag fS = true
      else (y u).pc = (x.pc + 1) % 4096 ∧ (y u).flag fS = false))) ∧
  (∀ (s : State) (c : Fin 4) (t n : Nat), Ready s c → n < parseCommands.length →
    let o := (parseCommands[n]?).getD (1, .pNop)
    let x := (s.chan c).thr t
    let y := fun (u : State) => (u.chan c).thr t
    let word := (s.chan c).instrWord t
    let poison := tget 0 (s.chan c).prs.poison (poisonKey (t / 128) (x.pkt.getD {}).parity x.pc)
    let ended := fun (u : State) (code : Nat) => y u = {} ∧ (u.chan c).locksOf t = [] ∧
      (u.chan c).prs.ro = ((s.chan c).roComplete x { pkt := x.pkt.getD {}, carry := x.c, result := x.result 2 code }).prs.ro
    (¬ AtOpcode (s.chan c) t o.1 ∨ ((s.chan c).waits t = false ∧ (s.chan c).turn (t / 8) ≠ some t) → Completes (o.2 c t) s (fun u => u.chan c = s.chan c)) ∧
    (AtOpcode (s.chan c) t o.1 → Undisturbed (s.chan c) t → (s.chan c).waits t = true →
      Completes (o.2 c t) s (fun u => y u = { x with st := 2, wfe := false })) ∧
    (AtOpcode (s.chan c) t o.1 → Undisturbed (s.chan c) t → (s.chan c).turn (t / 8) = some t → x.maxInstr ≤ x.icount →
      Completes (o.2 c t) s (fun u => ended u 0x11)) ∧
    (AtOpcode (s.chan c) t o.1 → Undisturbed (s.chan c) t → (s.chan c).turn (t / 8) = some t → x.icount < x.maxInstr → poison ≠ 0 →
      Completes (o.2 c t) s (fun u => ended u 4)) ∧
    (AtOpcode (s.chan c) t o.1 → Undisturbed (s.chan c) t → (s.chan c).turn (t / 8) = some t → x.icount < x.maxInstr → poison = 0 →
      condHolds x.flags (iCond word) = false →
      Completes (o.2 c t) s (fun u => y u = { x with pc := (x.pc + 1) % 4096, icount := x.icount + 1, bpPass := false } ∧
        OnlyThread (s.chan c) (u.chan c) t)) ∧
    (∀ b, AtOpcode (s.chan c) t o.1 → (s.chan c).bpMatch t = some b → (s.chan c).turn (t / 8) = some t →
      (s.chan c).bpHalted (t / 128) < (s.chan c).getF pgDbg DBG.CFG_HALT_LIMIT →
      Completes (o.2 c t) s (fun u => (y u).st = 4 ∧ (y u).prev = 1 ∧ (y u).haltCause = 2 ∧ (y u).bp = b ∧ (y u).pc = x.pc ∧
        (y u).icount = x.icount ∧ (y u).g = x.g ∧ bit ((u.chan c).get pgDbg oCAUSE) 8 = true)))

/-- R316: ADD, SUB, CMP and the bitwise functions of ALU and ALUI on 64-bit registers: the exact sum and difference with their carry and borrow, and
Z and N of the result; CMP and TST write no register.

R313–R315, R317: EXT reads window bytes, most significant first, and sets OOB outside; EXTF packs the masked bits; ADV moves the header position within 0
to 384; EMIT and EMITI place a field in a carry lane; HASH and CSUM write their results with Z. -/
def Obligations.ParseArithmetic : Prop :=
  (∀ (s : State) (c : Fin 4) (t : Nat), Ready s c →
    let x := (s.chan c).thr t
    let w := (s.chan c).instrWord t
    let func := nbits w 99 96
    let a := x.reg (iRs1 w)
    let rule := fun (b : BitVec 64) (u : State) =>
      let y := (u.chan c).thr t
      let r := y.reg (iRd w)
      OnlyThread (s.chan c) (u.chan c) t ∧ y.pc = (x.pc + 1) % 4096 ∧ SameBut x y (iRd w) ∧
      (func = 0 → r.toNat + 2 ^ 64 * b2n (y.flag fC) = a.toNat + b.toNat ∧ y.flag fZ = decide (r = 0) ∧ y.flag fN = r.msb) ∧
      (func = 1 → r.toNat + b.toNat = a.toNat + 2 ^ 64 * b2n (y.flag fC) ∧ y.flag fZ = decide (r = 0) ∧ y.flag fN = r.msb) ∧
      (func = 2 → r = a &&& b ∧ y.flag fZ = decide (r = 0) ∧ y.flag fC = false) ∧
      (func = 3 → r = a ||| b ∧ y.flag fC = false) ∧
      (func = 4 → r = a ^^^ b ∧ y.flag fZ = decide (a = b)) ∧
      (func = 9 → r = b) ∧
      (func = 0xA → r = x.reg (iRd w) ∧ y.flag fZ = decide (a = b) ∧ y.flag fC = decide (a.toNat < b.toNat)) ∧
      (func = 0xB → r = x.reg (iRd w) ∧ y.flag fZ = decide (a &&& b = 0)) ∧
      (func = 0xC → r.toNat = min a.toNat b.toNat) ∧ (func = 0xD → r.toNat = max a.toNat b.toNat)
    (CanIssue (s.chan c) t 0x10 → Completes (.pAlu c t) s (rule (x.reg (iRs2 w)))) ∧
    (CanIssue (s.chan c) t 0x11 → Completes (.pAlui c t) s (rule ((BitVec.ofNat 32 (nbits w 31 0)).signExtend 64)))) ∧
  (∀ (s : State) (c : Fin 4) (t : Nat), Ready s c →
    let x := (s.chan c).thr t
    let w := (s.chan c).instrWord t
    let k := x.pkt.getD {}
    let y := fun (u : State) => (u.chan c).thr t
    let next := fun (u : State) => (y u).pc = (x.pc + 1) % 4096 ∧ (y u).icount = x.icount + 1 ∧ OnlyThread (s.chan c) (u.chan c) t
    let lane := fun (u : State) (v : Nat) =>
      (∀ j, j ≠ nbits w 103 101 → (y u).lane j = x.lane j) ∧ (y u).g = x.g ∧
      (nbit w 100 = false → nbits w 95 88 + nbits w 87 80 ≤ 64 → ∀ i, i < 64 →
        ((y u).lane (nbits w 103 101)).getLsbD i =
          if nbits w 95 88 ≤ i ∧ i < nbits w 95 88 + nbits w 87 80 then nbit v (i - nbits w 95 88)
          else (x.lane (nbits w 103 101)).getLsbD i)
    (CanIssue (s.chan c) t 0x08 → 0 ≤ x.extAddr w → x.extAddr w + (nbits w 98 96 + 1) ≤ (k.window : Int) →
      Completes (.pExt c t) s (fun u => next u ∧ SameBut x (y u) (iRd w) ∧ (y u).flag fOOB = x.flag fOOB ∧
        ((y u).reg (iRd w)).toNat = beAt k.bytes (x.extAddr w).toNat (nbits w 98 96 + 1))) ∧
    (CanIssue (s.chan c) t 0x08 → (k.window : Int) ≤ x.extAddr w →
      Completes (.pExt c t) s (fun u => next u ∧ (y u).reg (iRd w) = 0 ∧ (y u).flag fOOB = true)) ∧
    (CanIssue (s.chan c) t 0x09 → Completes (.pExtf c t) s (fun u => next u ∧ SameBut x (y u) (iRd w) ∧
      ((y u).reg (iRd w)).toNat < 2 ^ popcount (nbits w 63 0) 64)) ∧
    (CanIssue (s.chan c) t 0x0A → Completes (.pAdv c t) s (fun u => next u ∧ (y u).g = x.g ∧ (y u).hp ≤ 384 ∧
      (iUseRs1 w = false → 0 ≤ (if nbit w 98 then (0 : Int) else x.hp) + toSigned (nbits w 95 80) 16 →
        (if nbit w 98 then (0 : Int) else x.hp) + toSigned (nbits w 95 80) 16 ≤ 384 →
        ((y u).hp : Int) = (if nbit w 98 then (0 : Int) else x.hp) + toSigned (nbits w 95 80) 16) ∧
      (y u).wb = if nbit w 97 then (y u).hp else x.wb)) ∧
    (CanIssue (s.chan c) t 0x0B → Completes (.pEmit c t) s (fun u => next u ∧ lane u ((x.reg (iRs1 w)).toNat >>> nbits w 79 72))) ∧
    (CanIssue (s.chan c) t 0x0C → Completes (.pEmiti c t) s (fun u => next u ∧ lane u (nbits w 31 0))) ∧
    (CanIssue (s.chan c) t 0x14 → Completes (.pHash c t) s (fun u => next u ∧ SameBut x (y u) (iRd w) ∧
      (y u).flag fZ = decide ((y u).reg (iRd w) = 0))) ∧
    (CanIssue (s.chan c) t 0x15 → Completes (.pCsum c t) s (fun u => next u ∧ SameBut x (y u) (iRd w) ∧
      ((y u).reg (iRd w)).toNat < 65536 ∧ (y u).flag fZ = decide ((y u).reg (iRd w) = 0))))

/-- R273–R276, R320: a free lock is taken, a held one is waited for by LOCK and refused to TRYLOCK; UNLOCK hands it to the oldest waiter, or counts an
error; MBW stages a word in an empty mailbox, MBS seals it, and MBR reads it.

R273–R276, R320, R272, R322: a lock that the thread holds already, a ninth lock, a mailbox that is its own, and one that is not; SEV to the whole cluster; and what a
thread that ends leaves behind is counted. -/
def Obligations.ParseLocksAndMailboxes : Prop :=
  (∀ (s : State) (c : Fin 4) (t : Nat), Ready s c →
    let x := (s.chan c).thr t
    let w := (s.chan c).instrWord t
    let y := fun (u : State) => (u.chan c).thr t
    let n := x.indexed w (nbits w 9 0) % 1024
    let l := (s.chan c).lock (lockKey t n)
    let m := (s.chan c).mbox (mboxKey t (x.indexed w (nbits w 5 0) % 64))
    (CanIssue (s.chan c) t 0x28 → l.holder = 0 → ((s.chan c).locksOf t).length < 8 →
      Completes (.pLock c t) s (fun u => (u.chan c).lock (lockKey t n) = { holder := t + 1 } ∧ (y u).flag fS = true ∧ (y u).st = 1)) ∧
    (CanIssue (s.chan c) t 0x28 → l.holder ≠ 0 → l.holder ≠ t + 1 → ((s.chan c).locksOf t).length < 8 →
      Completes (.pLock c t) s (fun u => (u.chan c).lock (lockKey t n) = { l with waiters := l.waiters ++ [t] } ∧ (y u).st = 3)) ∧
    (CanIssue (s.chan c) t 0x29 → l.holder = 0 → ((s.chan c).locksOf t).length < 8 →
      Completes (.pTrylock c t) s (fun u => (u.chan c).lock (lockKey t n) = { holder := t + 1 } ∧ (y u).flag fS = true)) ∧
    (CanIssue (s.chan c) t 0x29 → l.holder ≠ 0 → l.holder ≠ t + 1 →
      Completes (.pTrylock c t) s (fun u => (u.chan c).lock (lockKey t n) = l ∧ (y u).flag fS = false ∧ (y u).st = 1)) ∧
    (CanIssue (s.chan c) t 0x2A → l.holder = t + 1 →
      Completes (.pUnlock c t) s (fun u => (y u).flag fS = true ∧ (u.chan c).lock (lockKey t n) =
        match l.waiters with | [] => {} | q :: qs => { holder := q + 1, waiters := qs })) ∧
    (CanIssue (s.chan c) t 0x2A → l.holder ≠ t + 1 →
      Completes (.pUnlock c t) s (fun u => (y u).flag fLOCKERR = true ∧ (u.chan c).lock (lockKey t n) = l ∧
        bit ((u.chan c).get (pgPclu (t / 128)) oCAUSE) 10 = true)) ∧
    (CanIssue (s.chan c) t 0x30 → m.st = 0 → (s.chan c).staging t = none →
      Completes (.pMbw c t) s (fun u => (y u).flag fS = true ∧
        (u.chan c).mbox (mboxKey t (x.indexed w (nbits w 5 0) % 64)) =
          { st := 1, owner := t, words := (Vector.replicate 8 0).setIfInBounds (nbits w 10 8) (x.reg (iRs2 w)) })) ∧
    (CanIssue (s.chan c) t 0x31 → m.st = 1 → m.owner = t →
      Completes (.pMbs c t) s (fun u => (y u).flag fS = true ∧
        (u.chan c).mbox (mboxKey t (x.indexed w (nbits w 5 0) % 64)) = { m with st := 2 })) ∧
    (CanIssue (s.chan c) t 0x32 → m.st = 2 →
      Completes (.pMbr c t) s (fun u => (y u).flag fS = true ∧ (y u).reg (iRd w) = (m.words.toArray[nbits w 10 8]?).getD 0 ∧
        (u.chan c).mbox (mboxKey t (x.indexed w (nbits w 5 0) % 64)) = if nbit w 97 then {} else m)) ∧
    (CanIssue (s.chan c) t 0x32 → m.st ≠ 2 →
      Completes (.pMbr c t) s (fun u => (y u).flag fEMPTY = true ∧ (y u).reg (iRd w) = 0))) ∧
  (∀ (s : State) (c : Fin 4) (t : Nat), Ready s c →
    let x := (s.chan c).thr t
    let w := (s.chan c).instrWord t
    let y := fun (u : State) => (u.chan c).thr t
    let n := x.indexed w (nbits w 9 0) % 1024
    let l := (s.chan c).lock (lockKey t n)
    let key := mboxKey t (x.indexed w (nbits w 5 0) % 64)
    let m := (s.chan c).mbox key
    let full := 8 ≤ ((s.chan c).locksOf t).length
    let leaks := ((s.chan c).locksOf t).length + b2n ((s.chan c).staging t).isSome
    (CanIssue (s.chan c) t 0x28 → l.holder = t + 1 →
      Completes (.pLock c t) s (fun u => (u.chan c).lock (lockKey t n) = l ∧ (y u).flag fS = true ∧ (y u).flag fALREADY = true ∧ (y u).st = 1)) ∧
    (CanIssue (s.chan c) t 0x29 → l.holder = t + 1 →
      Completes (.pTrylock c t) s (fun u => (u.chan c).lock (lockKey t n) = l ∧ (y u).flag fS = true ∧ (y u).flag fALREADY = true)) ∧
    (CanIssue (s.chan c) t 0x28 → l.holder ≠ t + 1 → full → Completes (.pLock c t) s (fun u => y u = {} ∧ (u.chan c).locksOf t = [])) ∧
    (CanIssue (s.chan c) t 0x29 → l.holder = 0 → full → Completes (.pTrylock c t) s (fun u => y u = {} ∧ (u.chan c).locksOf t = [])) ∧
    (CanIssue (s.chan c) t 0x30 → m.st = 1 → m.owner = t →
      Completes (.pMbw c t) s (fun u => (y u).flag fS = true ∧
        (u.chan c).mbox key = { m with words := m.words.setIfInBounds (nbits w 10 8) (x.reg (iRs2 w)) })) ∧
    (CanIssue (s.chan c) t 0x30 → (m.st ≠ 1 ∨ m.owner ≠ t) → (m.st ≠ 0 ∨ (s.chan c).staging t ≠ none) →
      Completes (.pMbw c t) s (fun u => (y u).flag fS = false ∧ (y u).flag fBUSY = true ∧ (u.chan c).mbox key = m)) ∧
    (CanIssue (s.chan c) t 0x31 → (m.st ≠ 1 ∨ m.owner ≠ t) →
      Completes (.pMbs c t) s (fun u => (y u).flag fS = false ∧ (y u).flag fBUSY = true ∧ (u.chan c).mbox key = m)) ∧
    (CanIssue (s.chan c) t 0x39 → nbit w 96 = true →
      Completes (.pSev c t) s (fun u => ∀ j, j / 128 = t / 128 → j ≠ t → nbit ((u.chan c).thr j).evPend 5 = true)) ∧
    (CanIssue (s.chan c) t 0x02 → 0 < leaks →
      Completes (.pDone c t) s (fun u => y u = {} ∧ (u.chan c).staging t = none ∧ bit ((u.chan c).get (pgPclu (t / 128)) oCAUSE) 11 = true)))

/-- R271, R272, R318, R321: WFE takes a pending event or waits, SEV sends one, PTL starts a lookup whose return writes the register; a timer that expires, a lock that
is granted and a wake-up make a waiting thread READY. -/
def Obligations.ParseEventsAndLookups : Prop :=
  ∀ (s : State) (c : Fin 4) (t : Nat), Ready s c →
    let x := (s.chan c).thr t
    let w := (s.chan c).instrWord t
    let y := fun (u : State) => (u.chan c).thr t
    (CanIssue (s.chan c) t 0x38 → Nat.land x.evPend (nbits w 6 0) = 0 →
      Completes (.pWfe c t) s (fun u => (y u).st = 2 ∧ (y u).wfe = true ∧ (y u).evMask = nbits w 6 0)) ∧
    (CanIssue (s.chan c) t 0x38 → Nat.land x.evPend (nbits w 6 0) ≠ 0 →
      Completes (.pWfe c t) s (fun u => (y u).st = 1 ∧ (y u).evPend = x.evPend - Nat.land x.evPend (nbits w 6 0))) ∧
    (CanIssue (s.chan c) t 0x39 → nbit w 96 = false → t / 128 * 128 + nbits w 6 0 ≠ t →
      Completes (.pSev c t) s (fun u => nbit ((u.chan c).thr (t / 128 * 128 + nbits w 6 0)).evPend 5 = true)) ∧
    (CanIssue (s.chan c) t 0x18 →
      Completes (.pPtl c t) s (fun u => (y u).looks = x.looks ++ [(iRd w, tget (0 : BitVec 64) ((s.chan c).bank (x.pkt.getD {}).parity).ptable
        (x.indexed w (nbits w 15 0) % 4096))] ∧ (y u).g = x.g)) ∧
    (∀ rd v rest, x.looks = (rd, v) :: rest → rd < 16 → x.skipped = false →
      Completes (.lookupReturn c t) s (fun u => (y u).looks = rest ∧ (y u).reg rd = v ∧ nbit (y u).evPend 1 = true)) ∧
    (x.timer ≠ 0 → x.skipped = false →
      Completes (.threadTimerExpiry c t) s (fun u => (y u).timer = 0 ∧ nbit (y u).evPend 2 = true)) ∧
    (∀ n, x.waitLock = some n → ((s.chan c).lock (lockKey t n)).holder = t + 1 → x.st = 3 → x.stepping = 0 →
      Completes (.lockGrant c t) s (fun u => (y u).st = 1 ∧ (y u).flag fS = true ∧ (y u).waitLock = none)) ∧
    (x.wfe = true → x.wake ≠ 0 → x.st = 2 → x.stepping = 0 →
      Completes (.eventWake c t) s (fun u => (y u).st = 1 ∧ (y u).wfe = false ∧ (y u).evPend = Nat.land x.evPend (127 - x.wake)))

/-- R269, R311, R322: DISPATCH gives the oldest packet to a FREE thread; ZERO ends a thread with a parse fault and DONE with its disposition, and the thread is FREE.

R279–R284: a stalled engine or cluster is detected and its threads are aborted, a register error ends its thread, a lowest number that does not complete is
skipped, and a poisoned word is recorded.

R268, R269, R271–R273, R279, R280, R282, R283, R288, R318: the events of threads where nothing waits for them change nothing; a halted thread keeps what it will return to; DISPATCH serves
egress, and drops what no engine can take; a detector set to report aborts no thread; and HALT_LIMIT lets a breakpoint pass. -/
def Obligations.ParseThreads : Prop :=
  ((∀ (s : State) (c : Fin 4) (k : Pkt) (q : List Pkt) (e : Nat), Ready s c → (s.chan c).enabled pgDisp = true →
    (s.chan c).brewCurrent = true → (s.chan c).prs.qEg = [] → (s.chan c).prs.qIn = k :: q → k.egress = false →
    (s.chan c).partThreads k.part < (s.chan c).getF pgDisp (DISP.PART_SHARE_MAX_THREADS k.part) →
    (s.chan c).engOpen e = true → e < 256 → (s.chan c).pickEngine false = some e → (s.chan c).freeIn false e ≠ [] →
    Completes (.dispatch c) s (fun u => (u.chan c).prs.qIn = q ∧ ∃ t ∈ (s.chan c).freeIn false e, ((u.chan c).thr t).st = 1 ∧ ((u.chan c).thr t).reg 0 = BitVec.ofNat 64 k.t64 ∧
      (((u.chan c).thr t).pkt.map (fun p => p.bytes)) = some k.bytes)) ∧
  (∀ (s : State) (c : Fin 4) (t : Nat), Ready s c →
    (CanIssue (s.chan c) t 0x00 → Completes (.pZero c t) s (fun u => (u.chan c).thr t = {})) ∧
    (CanIssue (s.chan c) t 0x02 → Completes (.pDone c t) s (fun u => (u.chan c).thr t = {} ∧ (u.chan c).locksOf t = [])))) ∧
  (∀ (s : State) (c : Fin 4), Ready s c →
    (∀ e, e < 256 → (s.chan c).getB (pgPclu (e / 16)) PCLU.STALL_CFG_ENG_EN = true → (s.chan c).anyHalted (e / 16) = false →
      (engineTids e).all (fun t => (s.chan c).still t) = true → (s.chan c).getF (pgPclu (e / 16)) PCLU.STALL_CFG_ACTION = 0 →
      Completes (.engineStall c e) s (fun u => bit ((u.chan c).get (pgPclu (e / 16)) oCAUSE) 8 = true ∧
        ∀ t ∈ engineTids e, (u.chan c).thr t = {})) ∧
    (∀ k, k < 16 → (s.chan c).getB (pgPclu k) PCLU.STALL_CFG_CLU_EN = true → (s.chan c).anyHalted k = false →
      (s.chan c).holders k ≠ [] → ((s.chan c).holders k).all (fun t => (s.chan c).still t) = true →
      (s.chan c).getF (pgPclu k) PCLU.STALL_CFG_ACTION = 0 →
      Completes (.clusterStall c k) s (fun u => bit ((u.chan c).get (pgPclu k) oCAUSE) 8 = true ∧
        ∀ t ∈ (s.chan c).holders k, (u.chan c).thr t = {})) ∧
    (∀ t, t < 2048 → ((s.chan c).thr t).pkt.isSome = true →
      Completes (.threadRegUe c t) s (fun u => (u.chan c).thr t = {} ∧ bit ((u.chan c).get (pgPclu (t / 128)) oCAUSE) 0 = true)) ∧
    (∀ ctx at', ctx < 128 → ((s.chan c).ro ctx).out.find? (fun e => e.1 == ((s.chan c).ro ctx).low) = some (((s.chan c).ro ctx).low, at') →
      Completes (.reorderSkip c ctx) s (fun u => ((s.chan c).ro ctx).low < ((u.chan c).ro ctx).low ∧
        bit ((u.chan c).get pgDisp oCAUSE) 10 = true)) ∧
    (∀ k b i, k < 16 → b < 2 → i < 4096 →
      Completes (.instrPoison c k b i) s (fun u => tget 0 (u.chan c).prs.poison (poisonKey k b i) = 1 ∧
        bit ((u.chan c).get (pgPclu k) oCAUSE) 12 = true))) ∧
  ((∀ (s : State) (c : Fin 4) (t : Nat), Ready s c →
    let x := (s.chan c).thr t
    let y := fun (u : State) => (u.chan c).thr t
    let same := fun (u : State) => u.chan c = s.chan c
    (x.looks = [] → Completes (.lookupReturn c t) s same) ∧
    (x.timer = 0 → Completes (.threadTimerExpiry c t) s same) ∧
    (x.waitLock = none → Completes (.lockGrant c t) s same) ∧
    (∀ n, x.waitLock = some n → ((s.chan c).lock (lockKey t n)).holder ≠ t + 1 → Completes (.lockGrant c t) s same) ∧
    (∀ n, x.waitLock = some n → ((s.chan c).lock (lockKey t n)).holder = t + 1 → x.st = 4 → x.prev = 3 →
      Completes (.lockGrant c t) s (fun u => (y u).st = 4 ∧ (y u).prev = 1 ∧ (y u).flag fS = true ∧ (y u).waitLock = none)) ∧
    (x.wfe = false ∨ x.wake = 0 → Completes (.eventWake c t) s same) ∧
    (x.wfe = true → x.wake ≠ 0 → x.st = 4 → x.prev = 2 →
      Completes (.eventWake c t) s (fun u => (y u).st = 4 ∧ (y u).prev = 1 ∧ (y u).evPend = Nat.land x.evPend (127 - x.wake))) ∧
    ((s.chan c).bpMatch t = none ∨ x.st ≠ 1 → Completes (.breakpointHit c t) s same) ∧
    (∀ b, (s.chan c).bpMatch t = some b → x.st = 1 → (s.chan c).getF pgDbg DBG.CFG_HALT_LIMIT ≤ (s.chan c).bpHalted (t / 128) →
      Completes (.breakpointHit c t) s (fun u => (y u).st = 1 ∧ (y u).bpPass = true ∧ bit ((u.chan c).get pgDbg oCAUSE) 9 = true ∧
        (u.chan c).nat pgDbg DBG.BP_SKIP = satAdd 32 ((s.chan c).nat pgDbg DBG.BP_SKIP) 1)) ∧
    (2048 ≤ t → Completes (.threadRegUe c t) s same) ∧
    (t < 2048 → x.pkt = none →
      Completes (.threadRegUe c t) s (fun u => y u = x ∧ bit ((u.chan c).get (pgPclu (t / 128)) oCAUSE) 0 = true)) ∧
    (∀ k b, 16 ≤ k ∨ 2 ≤ b ∨ 4096 ≤ t → Completes (.instrPoison c k b t) s same) ∧
    (((s.chan c).ro t).out.find? (fun e => e.1 == ((s.chan c).ro t).low) = none → Completes (.reorderSkip c t) s same)) ∧
  (∀ (s : State) (c : Fin 4) (e : Nat), Ready s c →
    let on := fun (k : Nat) => (s.chan c).getB (pgPclu k) PCLU.STALL_CFG_ENG_EN
    let clu := fun (k : Nat) => (s.chan c).getB (pgPclu k) PCLU.STALL_CFG_CLU_EN
    let still := fun (ts : List Nat) => ts.all (fun t => (s.chan c).still t)
    (256 ≤ e ∨ on (e / 16) = false ∨ (s.chan c).anyHalted (e / 16) = true ∨ still (engineTids e) = false →
      Completes (.engineStall c e) s (fun u => u.chan c = s.chan c)) ∧
    (e < 256 → on (e / 16) = true → (s.chan c).anyHalted (e / 16) = false → still (engineTids e) = true →
      (s.chan c).getF (pgPclu (e / 16)) PCLU.STALL_CFG_ACTION = 1 →
      Completes (.engineStall c e) s (fun u => bit ((u.chan c).get (pgPclu (e / 16)) oCAUSE) 8 = true ∧
        (u.chan c).prs.threads = (s.chan c).prs.threads ∧ (u.chan c).prs.locks = (s.chan c).prs.locks)) ∧
    (16 ≤ e ∨ clu e = false ∨ (s.chan c).anyHalted e = true ∨ (s.chan c).holders e = [] ∨ still ((s.chan c).holders e) = false →
      Completes (.clusterStall c e) s (fun u => u.chan c = s.chan c)) ∧
    (e < 16 → clu e = true → (s.chan c).anyHalted e = false → (s.chan c).holders e ≠ [] → still ((s.chan c).holders e) = true →
      (s.chan c).getF (pgPclu e) PCLU.STALL_CFG_ACTION = 1 →
      Completes (.clusterStall c e) s (fun u => bit ((u.chan c).get (pgPclu e) oCAUSE) 8 = true ∧
        (u.chan c).prs.threads = (s.chan c).prs.threads ∧ (u.chan c).prs.locks = (s.chan c).prs.locks))) ∧
  (∀ (s : State) (c : Fin 4) (k : Pkt) (q : List Pkt), Ready s c →
    let on := (s.chan c).enabled pgDisp && (s.chan c).brewCurrent
    let share := fun (k : Pkt) => (s.chan c).partThreads k.part < (s.chan c).getF pgDisp (DISP.PART_SHARE_MAX_THREADS k.part)
    (on = false ∨ ((s.chan c).prs.qEg = [] ∧ (s.chan c).prs.qIn = []) → Completes (.dispatch c) s (fun u => u.chan c = s.chan c)) ∧
    (on = true → (s.chan c).prs.qEg = k :: q → (s.chan c).prs.qIn = [] → share k →
      (List.range 256).any (s.chan c).engOpen = false →
      Completes (.dispatch c) s (fun u => (u.chan c).prs.qEg = q ∧ (u.chan c).prs.threads = (s.chan c).prs.threads ∧
        (u.chan c).nat pgDisp DISP.NO_ENGINE_DROP = satAdd 32 ((s.chan c).nat pgDisp DISP.NO_ENGINE_DROP) 1 ∧
        ((s.chan c).nat pgDisp DISP.NO_ENGINE_DROP = 0 → bit ((u.chan c).get pgDisp oCAUSE) 13 = true))) ∧
    (∀ e, on = true → (s.chan c).prs.qEg = k :: q → (s.chan c).prs.qIn = [] → share k → e < 256 → (s.chan c).engOpen e = true →
      (s.chan c).pickEngine true = some e → (s.chan c).freeIn true e ≠ [] →
      Completes (.dispatch c) s (fun u => (u.chan c).prs.qEg = q ∧ ∃ t ∈ (s.chan c).freeIn true e, ((u.chan c).thr t).st = 1 ∧
        (((u.chan c).thr t).pkt.map (fun p => p.bytes)) = some k.bytes ∧ ((u.chan c).thr t).seq = ((s.chan c).ro k.roCtx).next))))

/-- R277, R285–R288: the debug unit halts a thread, resumes, steps and detaches it, writes its registers and sends it an event, shows a register, and a breakpoint halts it; PTBL_IDX
shows a parse table entry. A command outside its states is refused.

R285–R287, R314: the debug commands by every state of the thread: STEP of a READY thread issues one instruction and halts it again, RESUME returns it to the state it had,
REG_WRITE reaches every register up to pc, a refused command changes nothing but STAT, and with DBG disabled no command has an effect. -/
def Obligations.ParseDebugging : Prop :=
  (∀ (s : State) (c : Fin 4), HostReady s c → (s.chan c).enabled pgDbg = true →
    let t := (s.chan c).getF pgDbg DBG.SEL_TID
    let x := (s.chan c).thr t
    let y := fun (u : State) => (u.chan c).thr t
    (x.st ≠ 4 → Completes (.dbgHalt (.func 0) c) s (fun u => (y u).st = 4 ∧ (y u).prev = x.st ∧ (y u).haltCause = 1 ∧
      (u.chan c).getB pgDbg DBG.STAT_REFUSED = false)) ∧
    (x.st = 4 → x.prev = 1 → x.skipped = false →
      Completes (.dbgResume (.func 0) c) s (fun u => (y u).st = 1 ∧ (y u).haltCause = 0)) ∧
    (x.st ≠ 4 → Completes (.dbgResume (.func 0) c) s (fun u => (u.chan c).getB pgDbg DBG.STAT_REFUSED = true ∧
      workOf (u.chan c) = workOf (s.chan c))) ∧
    (x.st = 4 → x.prev = 2 → x.wfe = true → Nat.land x.evPend x.evMask = 0 → x.pkt.isSome = true →
      Completes (.dbgStep (.func 0) c) s (fun u => (y u).st = 2 ∧ (y u).stepping = 1)) ∧
    (x.st = 4 → x.pkt.isSome = true → Completes (.dbgDetach (.func 0) c) s (fun u => (y u) = {} ∧ (u.chan c).locksOf t = [])) ∧
    (x.st = 4 → (s.chan c).getF pgDbg DBG.REG_IDX_INDEX < 16 →
      Completes (.dbgRegWrite (.func 0) c) s (fun u => (y u).reg ((s.chan c).getF pgDbg DBG.REG_IDX_INDEX) =
        BitVec.ofNat 64 ((s.chan c).prs.stage0 + (s.chan c).prs.stage1 * 2 ^ 32))) ∧
    Completes (.dbgEvent (.func 0) c) s (fun u => nbit (y u).evPend 6 = true) ∧
    (∀ i, i < 16 → Completes (.dbgRegIdxWrite (.func 0) c i) s (fun u =>
      (u.chan c).get64 pgDbg (DBG.REG_DATA 0) = (x.reg i).toNat ∧ workOf (u.chan c) = workOf (s.chan c))) ∧
    (∀ tid b, tid < 2048 → (s.chan c).bpMatch tid = some b → ((s.chan c).thr tid).st = 1 →
      (s.chan c).bpHalted (tid / 128) < (s.chan c).getF pgDbg DBG.CFG_HALT_LIMIT →
      Completes (.breakpointHit c tid) s (fun u => ((u.chan c).thr tid).st = 4 ∧ ((u.chan c).thr tid).haltCause = 2 ∧
        bit ((u.chan c).get pgDbg oCAUSE) 8 = true)) ∧
    (∀ k b i, k < 16 → b < 2 → i < 4096 →
      Completes (.ptblIdxWrite (.func 0) c k b i) s (fun u => (u.chan c).get64 (pgPclu k) PCLU.PTBL_DATA =
        (tget (0 : BitVec 64) ((s.chan c).bank b).ptable i).toNat))) ∧
  (∀ (s : State) (q : Req) (c : Fin 4), HostReady s c → MayUse s q c false →
    let t := (s.chan c).getF pgDbg DBG.SEL_TID
    let x := (s.chan c).thr t
    let y := fun (u : State) => (u.chan c).thr t
    let i := (s.chan c).getF pgDbg DBG.REG_IDX_INDEX
    let value := (s.chan c).prs.stage0 + (s.chan c).prs.stage1 * 2 ^ 32
    let on := (s.chan c).enabled pgDbg
    let refused := fun (u : State) => (u.chan c).getB pgDbg DBG.STAT_REFUSED = true ∧ workOf (u.chan c) = workOf (s.chan c)
    (on = true → x.st = 4 → x.prev = 1 → t < 2048 → (s.chan c).bpMatch t = none → x.skipped = false → (s.chan c).waits t = false →
      x.icount < x.maxInstr → tget 0 (s.chan c).prs.poison (poisonKey (t / 128) (x.pkt.getD {}).parity x.pc) = 0 → x.pkt.isSome = true →
      iOpc ((s.chan c).instrWord t) = 1 → condHolds x.flags (iCond ((s.chan c).instrWord t)) = true →
      Completes (.dbgStep q c) s (fun u => (y u).st = 4 ∧ (y u).prev = 1 ∧ (y u).haltCause = 3 ∧ (y u).pc = (x.pc + 1) % 4096 ∧
        (y u).icount = x.icount + 1 ∧ (y u).g = x.g ∧ bit ((u.chan c).get pgDbg oCAUSE) 8 = true)) ∧
    (on = true → x.st = 4 → x.skipped = false → Completes (.dbgResume q c) s (fun u => (y u).st = x.prev ∧ (y u).haltCause = 0 ∧ (y u).pc = x.pc ∧ (y u).g = x.g)) ∧
    (on = true → x.st = 4 → Completes (.dbgHalt q c) s refused) ∧
    (on = true → x.st ≠ 4 → Completes (.dbgStep q c) s refused ∧ Completes (.dbgDetach q c) s refused ∧ Completes (.dbgRegWrite q c) s refused ∧
      Completes (.dbgResume q c) s refused) ∧
    (on = true → x.pkt = none → Completes (.dbgStep q c) s refused) ∧
    (on = true → 0x1B < i → Completes (.dbgRegWrite q c) s refused) ∧
    (on = true → x.st = 4 → i ≤ 0x1B →
      Completes (.dbgRegWrite q c) s (fun u => (y u).st = 4 ∧
        if i < 0x10 then (y u).reg i = BitVec.ofNat 64 value ∧ (y u).c = x.c
        else if i < 0x18 then (y u).lane (i - 0x10) = BitVec.ofNat 64 value ∧ (y u).g = x.g
        else if i = 0x18 then (y u).hp = min value 384 ∧ (y u).g = x.g
        else if i = 0x19 then (y u).wb = min value 384 ∧ (y u).g = x.g
        else if i = 0x1A then (y u).flags = value % 512 ∧ (y u).g = x.g
        else (y u).pc = value % 4096 ∧ (y u).g = x.g)) ∧
    (on = false → Completes (.dbgHalt q c) s (fun u => workOf (u.chan c) = workOf (s.chan c)) ∧
      Completes (.dbgResume q c) s (fun u => workOf (u.chan c) = workOf (s.chan c)) ∧ Completes (.dbgStep q c) s (fun u => workOf (u.chan c) = workOf (s.chan c)) ∧
      Completes (.dbgDetach q c) s (fun u => workOf (u.chan c) = workOf (s.chan c)) ∧ Completes (.dbgRegWrite q c) s (fun u => workOf (u.chan c) = workOf (s.chan c)) ∧
      Completes (.dbgEvent q c) s (fun u => workOf (u.chan c) = workOf (s.chan c))) ∧
    (∀ j, j ≤ 0x20 → Completes (.dbgRegIdxWrite q c j) s (fun u => (u.chan c).get64 pgDbg (DBG.REG_DATA 0) = (s.chan c).dbgReg t j % 2 ^ 64 ∧
      workOf (u.chan c) = workOf (s.chan c))) ∧
    (∀ j, 0x20 < j → j < 64 → Completes (.dbgRegIdxWrite q c j) s (fun u => (u.chan c).get64 pgDbg (DBG.REG_DATA 0) = (s.chan c).get64 pgDbg (DBG.REG_DATA 0) ∧
      bit ((u.chan c).get pgDbg oCAUSE) 0 = true)) ∧
    (∀ k b j, k < 16 → b < 2 → j < 4096 →
      Completes (.ptblIdxWrite q c k b j) s (fun u => (u.chan c).get64 (pgPclu k) PCLU.PTBL_DATA =
        (tget (0 : BitVec 64) ((s.chan c).bank b).ptable j).toNat)))

/-- R330, R332: the distributor gives each usable pipeline one of the oldest packets of a direction; with none usable they are dropped and counted.

R335, R340, R359: a packet skips a stage that is not enabled; one that meets a poisoned control word is dropped and leaves; an enabled stage without a
lookup whose profile ends at once marks the packet and sends it to its NEXT.

R188, R330, R331, R334, R341: nothing moves until a brew is current; the distributor and the stages work for either direction and any
operands; a packet whose turn has not come, or that has stages before it, stays; an egress packet leaves as edited for its port.

R331, R341: the oldest packet of an ingress pipeline that has passed its stages leaves it: dropped with its reason counted, or with a destination on
to buffer allocation with its context, counted as forwarded. -/
def Obligations.StrainerPipelines : Prop :=
  ((∀ (s : State) (c : Fin 4) (us : List Nat) (x : Parsed) (q : List Parsed), Ready s c →
    (s.chan c).brewCurrent = true →
    (s.chan c).usablePipes false = us → us ≠ [] → (s.chan c).strn.qIn = x :: q →
    Completes (.strainerDistribute c false) s (fun u => StrnFrame s u c ∧ (u.chan c).strn.qIn = (x :: q).drop us.length ∧
      (∃ i ∈ us, (u.chan c).pipe i = (s.chan c).pipe i ++ [{ pkt := x.pkt, ord := (s.chan c).strn.entered, src := srcOf x }]) ∧
      (∀ i, (u.chan c).pipe i = (s.chan c).pipe i ∨
        i ∈ us ∧ ∃ y ∈ (x :: q).take us.length, ∃ n ∈ List.range us.length,
          (u.chan c).pipe i = (s.chan c).pipe i ++ [{ pkt := y.pkt, ord := (s.chan c).strn.entered + n, src := srcOf y }]))) ∧
  (∀ (s : State) (c : Fin 4), Ready s c → (s.chan c).brewCurrent = true → (s.chan c).usablePipes true = [] → (s.chan c).strn.qEg ≠ [] →
    Completes (.strainerDistribute c true) s (fun u => StrnFrame s u c ∧ (u.chan c).strn.qEg = (s.chan c).strn.qEg.drop 6 ∧
      (u.chan c).strn.pipes = (s.chan c).strn.pipes ∧ bit ((u.chan c).get (pgStrn 6) oCAUSE) 8 = true))) ∧
  (∀ (s : State) (c : Fin 4) (pipe pos : Nat) (x : InPipe), Ready s c → ((s.chan c).pipe pipe)[pos]? = some x → x.next < 12 →
    let ch := s.chan c
    let ctrl := ch.stageWord pipe x.pkt.parity x.next 0 4
    let next := ch.stageWord pipe x.pkt.parity x.next 4 4 % 16
    let go : Instr := .strainerStage c pipe pos false false false false 0 0 none
    (ch.cfgBad pipe x.pkt.parity x.next 0 = false → nbit ctrl 31 = false →
      Completes go s (fun u => (u.chan c).pipe pipe = (ch.pipe pipe).set pos { x with next := next, tblOvr := none } ∧
        workOf (u.chan c) = workOf (ch.putPipe pipe ((ch.pipe pipe).set pos { x with next := next, tblOvr := none })))) ∧
    (ch.cfgBad pipe x.pkt.parity x.next 0 = true → x.dropReason = 0 →
      Completes go s (fun u => ∃ y, ((u.chan c).pipe pipe)[pos]? = some y ∧ y.next = 12 ∧ y.pkt = x.pkt)) ∧
    (ch.strn.poison = [] → nbit ctrl 31 = true → x.fault = false → nbits ctrl 29 27 = 0 →
      nbits (ch.stageWord pipe x.pkt.parity x.next (0x100 + 64 * nbits ctrl 5 0) 8) 63 58 = 0 →
      Completes go s (fun u => (u.chan c).pipe pipe =
        (ch.pipe pipe).set pos { x with ran := setNbit x.ran x.next true, tblOvr := none, next := next }))) ∧
  (∀ (s : State) (c : Fin 4), Ready s c →
    let ch := s.chan c
    (∀ egress : Bool, ch.brewCurrent = false → Completes (.strainerDistribute c egress) s (fun u => u.chan c = ch)) ∧
    (∀ egress : Bool, ch.brewCurrent = true →
      Completes (.strainerDistribute c egress) s (fun u => StrnFrame s u c ∧
        (u.chan c).strn.qIn = (if egress then ch.strn.qIn else ch.strn.qIn.drop (if ch.usablePipes false = [] then 6 else (ch.usablePipes false).length)) ∧
        (u.chan c).strn.qEg = (if egress then ch.strn.qEg.drop (if ch.usablePipes true = [] then 6 else (ch.usablePipes true).length) else ch.strn.qEg) ∧
        ∀ i, i ∉ ch.usablePipes egress → (u.chan c).pipe i = ch.pipe i)) ∧
    (∀ (pipe pos : Nat) (a b d e : Bool) (freeze replays : Nat) (o : Option Nat),
      ((ch.pipe pipe)[pos]? = none → Completes (.strainerStage c pipe pos a b d e freeze replays o) s (fun u => u.chan c = ch)) ∧
      (∀ x : InPipe, (ch.pipe pipe)[pos]? = some x →
        Completes (.strainerStage c pipe pos a b d e freeze replays o) s (fun u =>
          (∀ n, n ≠ c → u.chan n = s.chan n) ∧
          (u.chan c).pipe pipe = (ch.pipe pipe).set pos (ch.passStage ⟨a, b, d, freeze, replays, e, o⟩ pipe x).2 ∧
          (∀ i, i ≠ pipe → (u.chan c).pipe i = ch.pipe i) ∧
          (12 ≤ x.next → (u.chan c).pipe pipe = ch.pipe pipe)))) ∧
    (∀ (pipe : Nat) (full : Bool),
      (ch.pipe pipe = [] → Completes (.strainerVerdict c pipe full) s (fun u => u.chan c = ch)) ∧
      (∀ (x : InPipe) (l : List InPipe), ch.pipe pipe = x :: l → x.next < 12 ∨ ch.firstOut x = false →
        Completes (.strainerVerdict c pipe full) s (fun u => u.chan c = ch)) ∧
      (∀ (x : InPipe) (l : List InPipe), ch.pipe pipe = x :: l → 12 ≤ x.next → ch.firstOut x = true →
        Completes (.strainerVerdict c pipe full) s (fun u => (u.chan c).pipe pipe = l ∧ (∀ i, i ≠ pipe → (u.chan c).pipe i = ch.pipe i) ∧
          (∀ n, n ≠ c → u.chan n = s.chan n))) ∧
      (∀ (x : InPipe) (l : List InPipe), 6 ≤ pipe → pipe < 12 → ch.pipe pipe = x :: l → 12 ≤ x.next → ch.firstOut x = true →
        x.pkt.egress = true → x.tcDrop = false → x.dropReason = 0 → x.punt = none → x.mirrors = [] → x.sel = [] → x.puntCopies = [] →
        (frameOf x.edited).length ≤ x.pkt.len + 128 → ch.oper x.pkt.port = true → x.pkt.downs = (ch.pw x.pkt.port).downs →
        Completes (.strainerVerdict c pipe full) s (fun u => (u.chan c).pipe pipe = l ∧
          ((u.chan c).pw x.pkt.port).mac = (ch.pw x.pkt.port).mac ++
            [.data { x.pkt with bytes := frameOf x.edited, ptp := x.ptp } (decide (x.pkt.launch < ch.time * 1000 / 65536))] ∧
          (u.chan c).get64 (pipePg pipe) STRN.FWD_PKTS = (ch.get64 (pipePg pipe) STRN.FWD_PKTS + 1) % 2 ^ 64)))) ∧
  (∀ (s : State) (c : Fin 4) (pipe : Nat) (x : InPipe) (l : List InPipe), Ready s c → pipe < 6 → (s.chan c).pipe pipe = x :: l → 12 ≤ x.next →
    (s.chan c).firstOut x = true → x.tcDrop = false → x.pkt.egress = false → x.mirrors = [] → x.sel = [] →
    (x.dropReason ≠ 0 →
      Completes (.strainerVerdict c pipe false) s (fun u => (u.chan c).pipe pipe = l ∧
        (u.chan c).get64 (pipePg pipe) STRN.DROP_PKTS = ((s.chan c).get64 (pipePg pipe) STRN.DROP_PKTS + 1) % 2 ^ 64 ∧
        (u.chan c).cad = (s.chan c).cad)) ∧
    (x.dropReason = 0 → x.punt = none → x.puntCopies = [] → x.destKind = 1 → (s.chan c).bridged = true →
      Completes (.strainerVerdict c pipe false) s (fun u => (u.chan c).pipe pipe = l ∧
        (u.chan c).get64 (pipePg pipe) STRN.FWD_PKTS = ((s.chan c).get64 (pipePg pipe) STRN.FWD_PKTS + 1) % 2 ^ 64 ∧
        (u.chan c).cad.reqs = (s.chan c).cad.reqs ++ [{ requester := pipe, pkt := { x.pkt with ctx := x.context } }])))

/-- R370: CREATE of a legal definition that finds its segments makes the table valid and empty, with the first free segments; DESTROY takes it away; a
CREATE of a valid table answers EXISTS and changes nothing. -/
def Obligations.TablesAreCreatedAndDestroyed : Prop :=
  ∀ (s : State) (c : Fin 4) (t : Nat), HostReady s c → t < 256 →
    let ch := s.chan c
    (tblKind t ≠ 0 → tblKind t ≠ 3 → ch.tValid t = false → ch.defLegal t = true → ch.tReps t * ch.tSegs t ≤ ch.freeSegs.length →
      (tblKind t = 1 → ch.tdef t TBL.TDEF_ATTR_OVF_UNITS ≤ ch.ovfFree) →
      Completes (.tableCreate (.func 0) c false t) s (fun u => TableFrame s u c ∧ (u.chan c).nat pgTbl TBL.TCTRL_STAT = 0 ∧ (u.chan c).tValid t = true ∧
        (u.chan c).segsOf t = ch.freeSegs.take (ch.tReps t * ch.tSegs t) ∧ (u.chan c).emAll t = [] ∧ (u.chan c).lpmAll t = [])) ∧
    (tblKind t ≠ 0 → ch.tValid t = true →
      Completes (.tableCreate (.func 0) c false t) s (fun u => TableFrame s u c ∧ (u.chan c).nat pgTbl TBL.TCTRL_STAT = 1 ∧
        workOf (u.chan c) = workOf ch)) ∧
    (ch.tValid t = true →
      Completes (.tableDestroy (.func 0) c false t) s (fun u => TableFrame s u c ∧ (u.chan c).nat pgTbl TBL.TCTRL_STAT = 0 ∧ (u.chan c).tValid t = false ∧
        (u.chan c).segsOf t = [] ∧ (u.chan c).emAll t = []))

/-- R371, R375, R384: INSERT puts a new key in the first free slot of its first bucket, UPDATE replaces the result of its version, DELETE removes it, and LOOKUP
returns it; a key that is absent answers NOT_FOUND, one that is present EXISTS.

R384, R388, R389, R395: LOOKUP and SEARCH return a version and leave the table as it is; NEXT goes on from the cursor; FLUSH_BY_PORT starts a scan of the table, and its end removes
the versions on the port; AGE_SWEEP ages the versions, which a hit makes young again.

R370, R376, R383–R390, R407: at either port and for a table of any kind, CREATE and DESTROY answer in their port's TCTRL_STAT, and a command
runs at a port that is not busy: the port shows the answer of the run, the tables are as the run leaves them, and the other port's answer stays. -/
def Obligations.TableCommands : Prop :=
  (∀ (s : State) (c : Fin 4) (t : Nat), EmReady s c t →
    let ch := s.chan c
    let key := portKey ch t
    let stat := fun (u : State) => (u.chan c).nat pgTbl TBL.CMD_STAT
    ch.emLost t key = false →
    (∀ slot, ch.emFind t key = [] → ch.emFree t (ch.emBuckets t key).1 = some slot →
      Completes (.insert (.func 0) c false t) s (fun u => TableFrame s u c ∧ stat u = 2 ^ 30 ∧ emSlot (u.chan c) t slot =
        { key := key, res := portRes ch t, mask := 3, static := bit (ch.get pgTbl TBL.CMD_ARG) 29, stamp := ch.tbl.stamp + 1 })) ∧
    (∀ e, ch.emFind t key = [e] → e.2.mask = 3 →
      Completes (.insert (.func 0) c false t) s (fun u => TableFrame s u c ∧ stat u = 2 ^ 30 + 1 * 2 ^ 16 ∧ (u.chan c).tbl.em = ch.tbl.em) ∧
      Completes (.update (.func 0) c false t) s (fun u => TableFrame s u c ∧ stat u = 2 ^ 30 ∧ emSlot (u.chan c) t e.1 =
        { e.2 with res := portRes ch t, static := bit (ch.get pgTbl TBL.CMD_ARG) 29, stamp := ch.tbl.stamp + 1 }) ∧
      Completes (.delete (.func 0) c false t) s (fun u => TableFrame s u c ∧ stat u = 2 ^ 30 ∧ emSlot (u.chan c) t e.1 = {})) ∧
    (ch.emFind t key = [] →
      Completes (.update (.func 0) c false t) s (fun u => TableFrame s u c ∧ stat u = 2 ^ 30 + 2 * 2 ^ 16 ∧ (u.chan c).tbl.em = ch.tbl.em) ∧
      Completes (.delete (.func 0) c false t) s (fun u => TableFrame s u c ∧ stat u = 2 ^ 30 + 2 * 2 ^ 16 ∧ (u.chan c).tbl.em = ch.tbl.em))) ∧
  (∀ (s : State) (c : Fin 4) (t : Nat), EmReady s c t ∨ (HostReady s c ∧ t < 64 ∧ (s.chan c).tValid t = true ∧
      (s.chan c).getB pgTbl ⟨TBL.CMD_STAT, 31, 31⟩ = false ∧ fld ((s.chan c).get pgTbl TBL.CMD_ARG) 31 30 = 1) →
    let ch := s.chan c
    let stat := fun (u : State) => (u.chan c).nat pgTbl TBL.CMD_STAT
    let m := fld (ch.get pgTbl TBL.CMD_ARG) 31 30
    (m = 1 → ch.emLost t (portKey ch t) = false →
      (∀ e, (ch.emFind t (portKey ch t)).find? (fun e => nbit e.2.mask 0) = some e → e.2.mask < 4 → e.2.age < 4 →
        Completes (.tblLookup (.func 0) c false t) s (fun u => TableFrame s u c ∧ stat u = 2 ^ 30 + b2n e.2.hit * 2 ^ 5 + e.2.age * 2 ^ 3 + b2n e.2.static * 2 ^ 2
          + e.2.mask ∧ (u.chan c).tbl.em = ch.tbl.em)) ∧
      ((ch.emFind t (portKey ch t)).find? (fun e => nbit e.2.mask 0) = none →
        Completes (.tblLookup (.func 0) c false t) s (fun u => TableFrame s u c ∧ stat u = 2 ^ 30 + 2 * 2 ^ 16))) ∧
    (ch.emAll t = [] →
      Completes (.search (.func 0) c false t) s (fun u => TableFrame s u c ∧ stat u = 2 ^ 30 + 10 * 2 ^ 16) ∧
      Completes (.next (.func 0) c false t) s (fun u => TableFrame s u c ∧ stat u = 2 ^ 30 + 10 * 2 ^ 16)) ∧
    (∀ e rest, ch.emAll t = e :: rest → Nat.land e.2.mask m ≠ 0 → ch.regBytes (TBL.MASK 0) 10 = List.replicate 40 0 → e.1 < 2 ^ 32 →
      Completes (.search (.func 0) c false t) s (fun u => TableFrame s u c ∧ (u.chan c).get64 pgTbl TBL.CURSOR = e.1 + 1 ∧ (u.chan c).tbl.em = ch.tbl.em) ∧
      (ch.get64 pgTbl TBL.CURSOR % 2 ^ 32 ≤ e.1 →
        Completes (.next (.func 0) c false t) s (fun u => TableFrame s u c ∧ (u.chan c).get64 pgTbl TBL.CURSOR = e.1 + 1 ∧ (u.chan c).tbl.em = ch.tbl.em))) ∧
    (ch.tbl.flushes.any (fun f => f.table == t) = false →
      Completes (.flushByPort (.func 0) c false t) s (fun u => TableFrame s u c ∧ stat u = 2 ^ 30 ∧ (u.chan c).tbl.flushes = ch.tbl.flushes ++
        [⟨t, fld (ch.get pgTbl TBL.CMD_ARG) 15 0, bit (ch.get pgTbl TBL.CMD_ARG) 29, ch.tbl.stamp + 1⟩])) ∧
    (∀ f, ch.tbl.flushes.find? (fun f => f.table == t) = some f →
      Completes (.flushByPortDone c t) s (fun u => TableFrame s u c ∧ (u.chan c).tbl.flushes.any (fun g => g.table == t) = false ∧
        bit ((u.chan c).get pgTbl oCAUSE) 12 = true ∧
        ∀ e ∈ ch.emAll t, portField (ch.tdef t TBL.TDEF_ATTR_PORT_OFF) e.2.res = f.port → e.2.static = false → e.2.stamp ≤ f.stamp →
          emSlot (u.chan c) t e.1 = {})) ∧
    (ch.tdef t TBL.TDEF_ATTR_AGE = 1 → ∀ e, ch.emAll t = [e] → e.2.static = false → e.2.hit = true →
      Completes (.ageSweep (.func 0) c false t) s (fun u => TableFrame s u c ∧ stat u = 2 ^ 30 ∧ emSlot (u.chan c) t e.1 = { e.2 with hit := false, age := 0 }) ∧
      (ch.active.isSome = true → ch.getF pgTbl (TBL.AGE_INTERVAL_S t) ≠ 0 →
        ch.timeNs / 1000000000 % ch.getF pgTbl (TBL.AGE_INTERVAL_S t) = 0 → tget 0 ch.tbl.swept t ≠ ch.timeNs / 1000000000 + 1 →
        Completes (.agingSweep c t) s (fun u => TableFrame s u c ∧ emSlot (u.chan c) t e.1 = { e.2 with hit := false, age := 0 } ∧
          tget 0 (u.chan c).tbl.swept t = ch.timeNs / 1000000000 + 1)))) ∧
  (∀ (s : State) (c : Fin 4) (q : Req) (kport : Bool) (t : Nat), t < 256 →
    ((kport = false ∧ HostReady s c ∧ q = .func 0) ∨ (kport = true ∧ ∃ k : Fin 2, KeeperReady s c k ∧ q = keeperReq k)) →
    let ch := s.chan c
    let d := if kport then 0x400 else 0
    let e := 0x400 - d
    let made := fun (r : Chan × Nat) (u : State) => TableFrame s u c ∧ (u.chan c).tbl = r.1.tbl ∧
      (u.chan c).nat pgTbl (TBL.TCTRL_STAT + d) = r.2 ∧ (u.chan c).nat pgTbl (TBL.TCTRL_STAT + e) = ch.nat pgTbl (TBL.TCTRL_STAT + e)
    let runs := fun (op : Nat) (u : State) => TableFrame s u c ∧ (u.chan c).tbl = (ch.tblRun (ch.portCmd d t op)).1.tbl ∧
      (u.chan c).nat pgTbl (TBL.CMD_STAT + d) = (ch.tblRun (ch.portCmd d t op)).2.stat ∧ bit ((u.chan c).get pgTbl oCAUSE) 8 = true ∧
      (u.chan c).nat pgTbl (TBL.CMD_STAT + e) = ch.nat pgTbl (TBL.CMD_STAT + e)
    let free := ch.getB pgTbl ⟨TBL.CMD_STAT + d, 31, 31⟩ = false
    Completes (.tableCreate q c kport t) s (fun u => made (ch.createTable t) u ∧ (u.chan c).tValid t = (ch.createTable t).1.tValid t) ∧
    Completes (.tableDestroy q c kport t) s (fun u => made (ch.destroyTable t) u ∧ (u.chan c).tValid t = false) ∧
    (free → Completes (.insert q c kport t) s (runs 1)) ∧ (free → Completes (.update q c kport t) s (runs 2)) ∧
    (free → Completes (.delete q c kport t) s (runs 3)) ∧ (free → Completes (.tblLookup q c kport t) s (runs 4)) ∧
    (free → Completes (.search q c kport t) s (runs 5)) ∧ (free → Completes (.next q c kport t) s (runs 6)) ∧
    (free → Completes (.flushByPort q c kport t) s (runs 7)) ∧ (free → Completes (.ageSweep q c kport t) s (runs 8)))

/-- R393, R396, R399, R400: LEARN flush removes the contested keys; scrubs correct or record errors; a confirmed divergence is counted.

R398, R399, R402, R411: the service commands over banks and shadows: a rotation copies an in-service bank to a spare and ends with it OUT, RESTORE and RETIRE of an
OUT bank, SHADOW_SET, COMPARE, REPAIR of a table without damage, and BANK_STATUS.

R389, R395–R400, R402, R411: the events of tables and banks whatever stands: a flush that does not run, a sweep that is not due, an error outside
a table and the end of a rotation that does not run change nothing; an uncorrectable error is counted and, read by the active keeper, journalled;
a divergence between replicas is counted; REPAIR rewrites what the table's authority holds, and the services refuse what R411 refuses. -/
def Obligations.TableIntegrity : Prop :=
  (∀ (s : State) (c : Fin 4), HostReady s c →
    let ch := s.chan c
    Completes (.learnFlush (.func 0) c) s (fun u => TableFrame s u c ∧ (u.chan c).tbl.filter = ch.tbl.filter.filter (fun e => !e.contested)) ∧
    (∀ t rep line, ch.tValid t = true → tblKind t ≠ 3 → ch.tdef t TBL.TDEF_CFG_PROT ≠ 1 → rep < ch.tReps t → ch.lineSeg t rep line ≠ 0 →
      Completes (.tblScrub c t rep line false 0 0) s (fun u => TableFrame s u c ∧ (u.chan c).nat pgTbl TBL.CORR_CNT = satAdd 32 (ch.nat pgTbl TBL.CORR_CNT) 1 ∧
        workOf (u.chan c) = workOf ch) ∧
      (ch.active = none → ch.getB pgTbl TBL.BANK_CFG_AUTO_ROTATE = false → ∀ syn word,
        Completes (.tblScrub c t rep line true syn word) s (fun u => TableFrame s u c ∧ (u.chan c).poisoned t rep line = true ∧
          (u.chan c).nat pgTbl TBL.UNCORR_CNT = satAdd 32 (ch.nat pgTbl TBL.UNCORR_CNT) 1))) ∧
    (∀ (t i : Nat) (e : TernEnt), (ch.ternAll t)[i]? = some e →
      Completes (.ternScrub c t i false 0) s (fun u => TableFrame s u c ∧ (u.chan c).nat pgTern TERN.CORR_CNT = satAdd 32 (ch.nat pgTern TERN.CORR_CNT) 1 ∧
        workOf (u.chan c) = workOf ch) ∧
      (ch.active = none → ∀ syn, Completes (.ternScrub c t i true syn) s (fun u => TableFrame s u c ∧ (u.chan c).ternAll t = (ch.ternAll t).set i { e with bad := true } ∧
        bit ((u.chan c).get pgTern oCAUSE) 8 = true))) ∧
    (∀ t whr, t < 256 → ch.active.isSome = true → ch.tValid t = true → tget (0, 0) ch.tbl.shadow t ≠ (0, 0) →
      ch.tdef t TBL.TDEF_CFG_AUTO_REPAIR = 0 →
      Completes (.divergenceConfirm c t whr false []) s (fun u => TableFrame s u c ∧
        (u.chan c).nat pgTbl TBL.DIVERGE_CNT = satAdd 32 (ch.nat pgTbl TBL.DIVERGE_CNT) 1 ∧ bit ((u.chan c).get pgTbl oCAUSE) 10 = true ∧
        (u.chan c).tbl.em = ch.tbl.em))) ∧
  ((∀ (s : State) (c : Fin 4) (k : Fin 2) (tag : Nat), SvcReady s c k tag →
    let ch := s.chan c
    let b := ch.svcArg k.val 0
    (∀ d, b < 68 → ch.bankState b = 1 → ch.spareBank = some d →
      Completes (.bankRotate (.func 0) c k tag) s (fun u => TableFrame s u c ∧ SvcDone u c k tag 0 ∧ (u.chan c).bankState b = 2 ∧ (u.chan c).bankState d = 3 ∧
        (u.chan c).tbl.rots = ch.tbl.rots ++ [⟨b, d, false⟩])) ∧
    (b < 68 → ch.bankState b = 4 →
      Completes (.bankRestore (.func 0) c k tag) s (fun u => TableFrame s u c ∧ SvcDone u c k tag 0 ∧ (u.chan c).bankState b = 0) ∧
      Completes (.bankRetire (.func 0) c k tag) s (fun u => TableFrame s u c ∧ SvcDone u c k tag 0 ∧ (u.chan c).bankState b = 5)) ∧
    (b < 68 → Completes (.bankStatus (.func 0) c k tag) s (fun u => TableFrame s u c ∧ SvcDone u c k tag 0 ∧
      (u.chan c).nat (pgKeep k.val) (KEEP.SVC_RESP 0) = ch.bankStat b ∧
      noService (workOf (u.chan c)) = noService (workOf ch))) ∧
    (ch.tValid (ch.svcArg k.val 2 % 256) = true → ch.tdef (ch.svcArg k.val 2 % 256) TBL.TDEF_CFG_PROT ≠ 0 →
      Completes (.shadowSet (.func 0) c k tag) s (fun u => TableFrame s u c ∧ SvcDone u c k tag 0 ∧
        tget (0, 0) (u.chan c).tbl.shadow (ch.svcArg k.val 2 % 256) = (b + ch.svcArg k.val 1 * 2 ^ 32, ch.svcArg k.val 3))) ∧
    (ch.tValid (b % 256) = true → s.hostReach c = true →
      (∀ found, found < 2 ^ 32 → Completes (.compare (.func 0) c k tag found false) s (fun u => TableFrame s u c ∧ SvcDone u c k tag 0 ∧
        (u.chan c).nat (pgKeep k.val) (KEEP.SVC_RESP 0) = found ∧ noService (workOf (u.chan c)) = noService (workOf ch))) ∧
      (tget (0, 0) ch.tbl.shadow (b % 256) = (0, 0) → ch.tbl.poison = [] →
        Completes (.repair (.func 0) c k tag [] false) s (fun u => TableFrame s u c ∧ SvcDone u c k tag 0 ∧
          (u.chan c).nat (pgKeep k.val) (KEEP.SVC_RESP 0) = 0 ∧ (u.chan c).nat (pgKeep k.val) (KEEP.SVC_RESP 1) = 0)))) ∧
  (∀ (s : State) (c : Fin 4) (b : Nat) (x : BankRot), Ready s c → (s.chan c).tbl.rots.find? (fun x => x.src == b) = some x →
    b < 68 → x.dst < 68 → x.dst ≠ b → (s.chan c).active.isSome = true →
    Completes (.bankRotateDone c b) s (fun u => TableFrame s u c ∧ (u.chan c).bankState b = (if x.retire then 5 else 4) ∧ (u.chan c).bankState x.dst = 1 ∧
      (u.chan c).tbl.rots = (s.chan c).tbl.rots.filter (fun y => y.src != b)))) ∧
  ((∀ (s : State) (c : Fin 4) (t : Nat), Ready s c →
    let ch := s.chan c
    let same := fun (u : State) => u.chan c = ch
    (ch.tbl.flushes.find? (fun f => f.table == t) = none → Completes (.flushByPortDone c t) s same) ∧
    (∀ f, ch.tbl.flushes.find? (fun f => f.table == t) = some f →
      Completes (.flushByPortDone c t) s (fun u => (u.chan c).tbl.flushes = ch.tbl.flushes.filter (fun g => g.table != t))) ∧
    (ch.active = none ∨ ch.tValid t = false ∨ tblKind t ≠ 1 → Completes (.agingSweep c t) s same) ∧
    (∀ (rep line : Nat) (u2 : Bool) (syn word : Nat), ch.tValid t = false ∨ tblKind t = 3 ∨ ch.tdef t TBL.TDEF_CFG_PROT = 1 →
      Completes (.tblScrub c t rep line u2 syn word) s same) ∧
    (∀ rep line syn word, ch.tValid t = true → tblKind t ≠ 3 → ch.tdef t TBL.TDEF_CFG_PROT ≠ 1 → rep < ch.tReps t → ch.lineSeg t rep line ≠ 0 →
      Completes (.tblScrub c t rep line true syn word) s (fun u => TableFrame s u c ∧ bit ((u.chan c).get pgTbl oCAUSE) 9 = true ∧
        (u.chan c).nat pgTbl TBL.UNCORR_CNT = satAdd 32 (ch.nat pgTbl TBL.UNCORR_CNT) 1 ∧
        (ch.active.isSome = true → (u.chan c).tbl.ues.length ≤ ch.tbl.ues.length + 1 ∧ (u.chan c).tbl.ues ≠ []))) ∧
    (∀ (i : Nat) (u2 : Bool) (syn : Nat), (ch.ternAll t)[i]? = none → Completes (.ternScrub c t i u2 syn) s same) ∧
    (∀ i syn, i < (ch.ternAll t).length → Completes (.ternScrub c t i true syn) s (fun u => TableFrame s u c ∧
      (u.chan c).nat pgTern TERN.UNCORR_CNT = satAdd 32 (ch.nat pgTern TERN.UNCORR_CNT) 1 ∧ bit ((u.chan c).get pgTern oCAUSE) 8 = true)) ∧
    (∀ whr (recs : List Byte), ch.active.isSome = true → ch.tValid t = true → 1 < ch.tReps t →
      Completes (.divergenceConfirm c t whr true recs) s (fun u => TableFrame s u c ∧ bit ((u.chan c).get pgTbl oCAUSE) 10 = true ∧
        (u.chan c).nat pgTbl TBL.DIVERGE_CNT = satAdd 32 (ch.nat pgTbl TBL.DIVERGE_CNT) 1 ∧ (u.chan c).tbl.em = ch.tbl.em)) ∧
    (∀ (whr : Nat) (recs : List Byte), ch.active.isSome = true → ch.tValid t = true → tget (0, 0) ch.tbl.shadow t ≠ (0, 0) → ch.tdef t TBL.TDEF_CFG_AUTO_REPAIR = 1 →
      Completes (.divergenceConfirm c t whr false recs) s (fun u => TableFrame s u c ∧
        (u.chan c).nat pgTbl TBL.DIVERGE_CNT = satAdd 32 (ch.nat pgTbl TBL.DIVERGE_CNT) 1 ∧
        (u.chan c).tbl.em = (ch.applyRecord t whr recs).1.tbl.em ∧ (u.chan c).tbl.direct = (ch.applyRecord t whr recs).1.tbl.direct ∧
        (u.chan c).tbl.lpm = (ch.applyRecord t whr recs).1.tbl.lpm ∧ (u.chan c).tbl.tern = (ch.applyRecord t whr recs).1.tbl.tern)) ∧
    (∀ (whr : Nat) (rp : Bool) (recs : List Byte), ch.active = none ∨ ch.tValid t = false → Completes (.divergenceConfirm c t whr rp recs) s same) ∧
    (ch.tbl.rots.find? (fun x => x.src == t) = none → Completes (.bankRotateDone c t) s same) ∧
    (ch.active = none → Completes (.bankRotateDone c t) s same)) ∧
  (∀ (s : State) (c : Fin 4), HostReady s c →
    let ch := s.chan c
    Completes (.learnFlush (.func 0) c) s (fun u => (u.chan c).tbl.filter = ch.tbl.filter.filter (fun e => !e.contested) ∧
      (u.chan c).tbl.em = ch.tbl.em ∧ (u.chan c).nat pgLearn LEARN.CFG / 2 ^ 31 = ch.nat pgLearn LEARN.CFG / 2 ^ 31)) ∧
  (∀ (s : State) (c : Fin 4) (k : Fin 2) (tag : Nat), SvcReady s c k tag →
    let ch := s.chan c
    let b := ch.svcArg k.val 0
    let ends := fun (st : Nat) (u : State) => TableFrame s u c ∧ SvcDone u c k tag st ∧ (u.chan c).tbl = ch.tbl ∧
      (∀ n, n < 68 → (u.chan c).bankState n = ch.bankState n)
    (68 ≤ b → Completes (.bankRotate (.func 0) c k tag) s (ends 2) ∧ Completes (.bankRestore (.func 0) c k tag) s (ends 2) ∧
      Completes (.bankRetire (.func 0) c k tag) s (ends 2) ∧ Completes (.bankStatus (.func 0) c k tag) s (ends 2)) ∧
    (b < 68 → ch.bankState b ≠ 1 ∨ ch.spareBank = none → Completes (.bankRotate (.func 0) c k tag) s (ends 4)) ∧
    (b < 68 → ch.bankState b ≠ 4 → Completes (.bankRestore (.func 0) c k tag) s (ends 4) ∧
      Completes (.bankRetire (.func 0) c k tag) s (ends 4)) ∧
    (ch.tValid (ch.svcArg k.val 2 % 256) = false → Completes (.shadowSet (.func 0) c k tag) s (ends 2)) ∧
    (∀ found (bad : Bool), ch.tValid (b % 256) = false → Completes (.compare (.func 0) c k tag found bad) s (ends 2)) ∧
    (∀ found, ch.tValid (b % 256) = true → Completes (.compare (.func 0) c k tag found true) s (ends 7)) ∧
    (∀ (recs : List (List Byte)), ch.tValid (b % 256) = true → Completes (.repair (.func 0) c k tag recs true) s (ends 7)) ∧
    (∀ (recs : List (List Byte)), ch.tValid (b % 256) = true → s.hostReach c = true →
      Completes (.repair (.func 0) c k tag recs false) s (fun u => TableFrame s u c ∧ SvcDone u c k tag 0 ∧
        (u.chan c).tbl = (ch.repairTable (b % 256) recs).1.tbl ∧
        (u.chan c).nat (pgKeep k.val) (KEEP.SVC_RESP 0) = (ch.repairTable (b % 256) recs).2.1 % 2 ^ 32 ∧
        (u.chan c).nat (pgKeep k.val) (KEEP.SVC_RESP 1) = (ch.repairTable (b % 256) recs).2.2 % 2 ^ 32))))

/-- R240, R241, R243, R244: defects of a member, the end of deskew, overhead frames, calendar switches asked for, made and timed out, and local fault of a
terminated client.

R240, R242–R244, R246–R249: the same commands where they change nothing (no member, no request, no change of state), a skew that takes an UP group
down, the labels that a member's multiframe brings, a request for the calendar in use or while one is pending, and what a switched page brings. -/
def Obligations.FlexeGroupsAndCalendars : Prop :=
  (∀ (s : State) (c : Fin 4) (g : Nat), g < 8 →
    let ch := s.chan c
    (Ready s c → ∀ k, ch.isMember g k = true →
      (∀ lof lom gidm pidm rpf los : Bool, Completes (.flexeMemberDefect c g k lof lom gidm pidm rpf los) s (fun u =>
        fld ((u.chan c).get pgFlex (FLEX.MEMBER_STAT g k)) 31 26 =
          b2n lof * 32 + b2n lom * 16 + b2n gidm * 8 + b2n pidm * 4 + b2n rpf * 2 + b2n los)) ∧
      (∀ calC cr ca, Completes (.ohFrameRx c g k false calC cr ca []) s (fun u =>
        (u.chan c).getB pgFlex (FLEX.MEMBER_STAT_OH_CRC g k) = true ∧ (u.chan c).rxLetter g = ch.rxLetter g)) ∧
      (∀ calC cr ca, Completes (.ohFrameRx c g k true calC cr ca []) s (fun u => (u.chan c).rxLetter g = calC % 2 ∧
        (ch.getB pgFlex (FLEX.GRP_STAT_PENDING g) = true → ch.getB pgFlex (FLEX.GRP_CFG_HANDSHAKE g) = true →
          ca % 2 = (ch.grp g).target → ((u.chan c).grp g).ready = true)))) ∧
    (Ready s c → ch.grpDefect g = none → ch.grpState g ≠ 3 →
      Completes (.groupAligned c g true) s (fun u => (u.chan c).grpState g = 3 ∧ (u.chan c).getB pgFlex (FLEX.GRP_STAT_SKEW g) = false) ∧
      Completes (.groupAligned c g false) s (fun u => (u.chan c).grpState g = 1 ∧ (u.chan c).getB pgFlex (FLEX.GRP_STAT_SKEW g) = true)) ∧
    (∀ target, target < 2 → HostReady s c → target ≠ ch.txLetter g → ch.getB pgFlex (FLEX.GRP_STAT_PENDING g) = false →
      (ch.grpState g = 3 → Completes (.calSwitchReq (.func 0) c g target) s (fun u =>
        (u.chan c).getB pgFlex (FLEX.GRP_STAT_PENDING g) = true ∧ ((u.chan c).grp g).target = target)) ∧
      (ch.grpState g ≠ 3 → Completes (.calSwitchReq (.func 0) c g target) s (fun u =>
        (u.chan c).nat pgFlex FLEX.REFUSE = g * 2 ^ 8 + 9 ∧ workOf (u.chan c) = workOf ch))) ∧
    (Ready s c → ch.getB pgFlex (FLEX.GRP_STAT_PENDING g) = true →
      ((ch.grp g).ready = true → Completes (.calSwitchInstant c g) s (fun u => (u.chan c).txLetter g = (ch.grp g).target % 2 ∧
        (u.chan c).getB pgFlex (FLEX.GRP_STAT_PENDING g) = false ∧ (u.chan c).getF pgFlex (FLEX.GRP_STAT_LAST_SWITCH g) = 1)) ∧
      ((ch.grp g).ready = false → Completes (.caTimeout c g) s (fun u => (u.chan c).txLetter g = ch.txLetter g ∧
        (u.chan c).getB pgFlex (FLEX.GRP_STAT_PENDING g) = false ∧ (u.chan c).getF pgFlex (FLEX.GRP_STAT_LAST_SWITCH g) = 2))) ∧
    (∀ n on, Ready s c → n < 128 → ch.enabled pgFlex = true → ch.getB pgFlex (FLEX.CLIENT_CFG_EN n) = true →
      ch.getB pgFlex (FLEX.CLIENT_CFG_MODE n) = false →
      Completes (.clientRxLf c n on) s (fun u => (u.chan c).getB pgFlex (FLEX.CLIENT_STAT_RX_LF n) = on))) ∧
  (∀ (s : State) (c : Fin 4) (g : Nat), g < 8 →
    let ch := s.chan c
    let same := fun (u : State) => u.chan c = ch
    (Ready s c →
      (∀ (k : Nat) (lof lom gidm pidm rpf los : Bool), ch.isMember g k = false →
        Completes (.flexeMemberDefect c g k lof lom gidm pidm rpf los) s same) ∧
      (∀ (k : Nat) (crc : Bool) (calC cr ca : Nat) (labels : List (Nat × Nat)), ch.isMember g k = false →
        Completes (.ohFrameRx c g k crc calC cr ca labels) s same) ∧
      (∀ k cr ca j id, ch.isMember g k = true → ch.slotMember g j = some k → id < 65536 →
        let bad := decide (id ≠ ch.expCal g (ch.rxLetter g) j)
        Completes (.ohFrameRx c g k true (ch.rxLetter g) cr ca [(j, id)]) s (fun u =>
          (u.chan c).labelMm g j = (if tget false ch.flex.turning (g * 640 + j) then bad else ch.labelMm g j) ∧
          (bad ≠ ch.labelMm g j → tget false (u.chan c).flex.turning (g * 640 + j) = !(tget false ch.flex.turning (g * 640 + j))))) ∧
      (∀ ok : Bool, ch.grpDefect g ≠ none → Completes (.groupAligned c g ok) s same) ∧
      (ch.grpState g = 3 → Completes (.groupAligned c g true) s same) ∧
      (ch.grpDefect g = none → Completes (.groupAligned c g false) s (fun u =>
        (u.chan c).grpState g = 1 ∧ (u.chan c).getB pgFlex (FLEX.GRP_STAT_SKEW g) = true)) ∧
      (ch.getB pgFlex (FLEX.GRP_STAT_PENDING g) = false ∨ (ch.grp g).ready = false → Completes (.calSwitchInstant c g) s same) ∧
      (ch.getB pgFlex (FLEX.GRP_STAT_PENDING g) = false ∨ (ch.grp g).ready = true → Completes (.caTimeout c g) s same) ∧
      (∀ (n : Nat) (on : Bool), 128 ≤ n ∨ ch.getB pgFlex (FLEX.CLIENT_CFG_EN n) = false ∨ ch.getB pgFlex (FLEX.CLIENT_CFG_MODE n) = true →
        Completes (.clientRxLf c n on) s same) ∧
      (∀ (n : Nat) (on : Bool), n < 128 → ch.getB pgFlex (FLEX.CLIENT_CFG_EN n) = true → ch.getB pgFlex (FLEX.CLIENT_CFG_MODE n) = false →
        Completes (.clientRxLf c n on) s (fun u => (u.chan c).getB pgFlex (FLEX.CLIENT_STAT_RX_LF n) = (on && ch.enabled pgFlex))) ∧
      (ch.enabled pgSlot = false ∨ (ch.grp g).validating = false → Completes (.slotCommitDone c g) s same) ∧
      (ch.enabled pgSlot = false ∨ ch.grpOn g = false ∨ (ch.grp g).pageReq = false → Completes (.pageSwitchInstant c g) s same) ∧
      (∀ slot, ch.enabled pgSlot = false ∨ ch.grpOn g = false ∨ 640 ≤ slot ∨ ch.getB pgSlot (SLOT.GRP_STAT_FB_ACTIVE g) = true →
        Completes (.slotParityErr c g slot) s same) ∧
      (ch.enabled pgSlot = true → ch.grpOn g = true → (ch.grp g).pageReq = true →
        Completes (.pageSwitchInstant c g) s (fun u => SlotFrame s u c ∧
          (u.chan c).getF pgSlot (SLOT.GRP_STAT_ACTIVE_PAGE g) = 1 - ch.getF pgSlot (SLOT.GRP_STAT_ACTIVE_PAGE g) ∧
          (u.chan c).getB pgSlot (SLOT.GRP_STAT_ACT_VALID g) = ch.getB pgSlot (SLOT.GRP_STAT_STBY_VALID g) ∧
          (u.chan c).getB pgSlot (SLOT.GRP_STAT_FB_ACTIVE g) = !(ch.getB pgSlot (SLOT.GRP_STAT_STBY_VALID g)) ∧
          bit ((u.chan c).get pgSlot oCAUSE) 8 = true))) ∧
    (HostReady s c → ∀ target, target < 2 →
      (ch.getB pgFlex (FLEX.GRP_STAT_PENDING g) = true → Completes (.calSwitchReq (.func 0) c g target) s (fun u =>
        (u.chan c).nat pgFlex FLEX.REFUSE = g * 2 ^ 8 + 9 ∧ workOf (u.chan c) = workOf ch)) ∧
      (target = ch.txLetter g → ch.grpState g = 3 → ch.getB pgFlex (FLEX.GRP_STAT_PENDING g) = false →
        Completes (.calSwitchReq (.func 0) c g target) s (fun u => workOf (u.chan c) = workOf ch ∧
          (u.chan c).getB pgFlex (FLEX.GRP_STAT_PENDING g) = false))))

/-- R245–R248: entries of the standby page are written, those of the active page are not; a commit validates the standby page, a switch makes it active, and a
parity error falls back.

R252, R261: a second is latched with its number and waits for the keeper's acknowledge; PM_READ answers a current bin, and PM_RESET clears it.

R252, R254, R261: no second is latched while PM is off, or where the end of the second is not what the command says; an acknowledge that
waits for nothing changes nothing; PM_READ of any bin, and the services' BAD_ARG. -/
def Obligations.SlotSwitchAndMonitoring : Prop :=
  (∀ (s : State) (c : Fin 4) (g : Nat), g < 8 →
    let ch := s.chan c
    let act := ch.getF pgSlot (SLOT.GRP_STAT_ACTIVE_PAGE g)
    (∀ page slot v, HostReady s c → page < 2 → slot < 640 →
      (page ≠ act → Completes (.connMemWrite (.func 0) c g page slot v) s (fun u => SlotFrame s u c ∧
        let e := (u.chan c).conn (connIdx g page slot)
        connType e = connType v ∧ connGroup e = connGroup v ∧ connSlot e = connSlot v ∧
        (u.chan c).getB pgSlot (SLOT.GRP_STAT_STBY_VALID g) = false)) ∧
      (page = act → Completes (.connMemWrite (.func 0) c g page slot v) s (fun u => SlotFrame s u c ∧
        (u.chan c).conn (connIdx g page slot) = ch.conn (connIdx g page slot) ∧ workOf (u.chan c) = workOf ch ∧
        (u.chan c).nat pgSlot SLOT.REJ_CNT = satAdd 32 (ch.nat pgSlot SLOT.REJ_CNT) 1))) ∧
    (HostReady s c → Completes (.slotCommit (.func 0) c g) s (fun u => SlotFrame s u c ∧ ((u.chan c).grp g).validating = true ∧
      ((ch.grp g).validating = false → (u.chan c).getB pgSlot STAT_BUSY = true))) ∧
    (HostReady s c →
      (ch.follows g = false → Completes (.slotSwitch (.func 0) c g) s (fun u => SlotFrame s u c ∧ ((u.chan c).grp g).pageReq = true)) ∧
      (ch.follows g = true → bit (ch.get pgSlot (SLOT.GRP_CTRL g)) 30 = false → Completes (.slotSwitch (.func 0) c g) s (fun u => SlotFrame s u c ∧
        workOf (u.chan c) = workOf ch ∧ (u.chan c).nat pgSlot SLOT.REJ_CNT = satAdd 32 (ch.nat pgSlot SLOT.REJ_CNT) 1))) ∧
    (Ready s c → ch.enabled pgSlot = true →
      ((ch.grp g).validating = true → Completes (.slotCommitDone c g) s (fun u => SlotFrame s u c ∧ ((u.chan c).grp g).validating = false ∧
        (u.chan c).getF pgSlot (SLOT.GRP_STAT_COMMIT_RESULT g) = (ch.validate g).1 ∧
        (u.chan c).getF pgSlot (SLOT.GRP_STAT_ERR_SLOT g) = (ch.validate g).2 ∧
        (u.chan c).getB pgSlot (SLOT.GRP_STAT_STBY_VALID g) = decide ((ch.validate g).1 = 0))) ∧
      (ch.grpOn g = true → (ch.grp g).pageReq = true → Completes (.pageSwitchInstant c g) s (fun u => SlotFrame s u c ∧
        (u.chan c).getF pgSlot (SLOT.GRP_STAT_ACTIVE_PAGE g) = 1 - act ∧ ((u.chan c).grp g).pageReq = false)) ∧
      (∀ slot, slot < 640 → ch.grpOn g = true → ch.getB pgSlot (SLOT.GRP_STAT_FB_ACTIVE g) = false →
        Completes (.slotParityErr c g slot) s (fun u => SlotFrame s u c ∧ (u.chan c).getB pgSlot (SLOT.GRP_STAT_FB_ACTIVE g) = true ∧
          (u.chan c).getF pgSlot (SLOT.GRP_STAT_FB_REASON g) = 2 ∧ (u.chan c).getF pgSlot (SLOT.GRP_STAT_ACTIVE_PAGE g) = act)))) ∧
  (∀ (s : State) (c : Fin 4),
    let ch := s.chan c
    (∀ (step : Bool) (recs : List (Nat × Nat × Nat)), Ready s c → ch.enabled pgPm = true → ch.getB pgPm PM.CFG_EN = true →
      step = decide (ch.flex.pmStep ≠ 0) →
      Completes (.pmSecondLatch c step recs) s (fun u =>
        PmTimed s u c ∧ (u.chan c).flex.pmAcked = false ∧
        (u.chan c).nat pgPm PM.LATCH_SEC = (if step then ch.flex.pmStep - 1 else (u.chan c).timeNs / 1000000000 - 1) % 2 ^ 32 ∧
        bit ((u.chan c).get pgPm PM.LATCH_FLAGS) 31 = step ∧ bit ((u.chan c).get pgPm oCAUSE) 8 = true)) ∧
    (∀ k : Fin 2, KeeperReady s c k →
      Completes (.pmLatchAck c k) s (fun u => SlotFrame s u c ∧ (u.chan c).flex.pmAcked = true ∧ (ch.flex.pmAcked = false → (u.chan c).flex.pmLost = false))) ∧
    (∀ (k : Fin 2) tag e, SvcReady s c k tag → pmEntity (ch.svcArg k.val 0) = some e →
      let x := tget ({} : PmEnt) (ch.ctl k.val).pm e
      (nbits (ch.svcArg k.val 1) 4 0 = 0 →
        let b := if nbit (ch.svcArg k.val 1) 8 then x.cur24 else x.cur15
        Completes (.pmRead (.func 0) c k tag) s (fun u => SlotFrame s u c ∧ SvcDone u c k tag 0 ∧
          noService (workOf (u.chan c)) = noService (workOf ch) ∧ (u.chan c).nat (pgKeep k.val) (KEEP.SVC_RESP 1) = b.es % 2 ^ 32 ∧ (u.chan c).nat (pgKeep k.val) (KEEP.SVC_RESP 2) = b.ses % 2 ^ 32 ∧
          (u.chan c).nat (pgKeep k.val) (KEEP.SVC_RESP 3) = b.uas % 2 ^ 32)) ∧
      Completes (.pmReset (.func 0) c k tag) s (fun u => SlotFrame s u c ∧ SvcDone u c k tag 0 ∧
        tget ({} : PmEnt) ((u.chan c).ctl k.val).pm e = {
          unavail := x.unavail, run := x.run.map (fun p => { p with age15 := 1000, age24 := 1000 }), cur15 := { suspect := true }, cur24 := { suspect := true } }))) ∧
  (∀ (s : State) (c : Fin 4),
    let ch := s.chan c
    (∀ (step : Bool) (recs : List (Nat × Nat × Nat)), Ready s c →
      ch.enabled pgPm = false ∨ ch.getB pgPm PM.CFG_EN = false ∨ step ≠ decide (ch.flex.pmStep ≠ 0) →
      Completes (.pmSecondLatch c step recs) s (fun u => u.chan c = ch)) ∧
    (∀ k : Fin 2, KeeperReady s c k → Completes (.pmLatchAck c k) s (fun u => SlotFrame s u c ∧ (u.chan c).flex.pmAcked = true ∧
      (ch.flex.pmAcked = true → (u.chan c).flex = ch.flex))) ∧
    (∀ (k : Fin 2) (tag : Nat), SvcReady s c k tag →
      let a0 := ch.svcArg k.val 0
      let a1 := ch.svcArg k.val 1
      (pmEntity a0 = none ∨ 16 < nbits a1 4 0 → Completes (.pmRead (.func 0) c k tag) s (fun u => SlotFrame s u c ∧ SvcDone u c k tag 2)) ∧
      (pmEntity a0 = none → Completes (.pmReset (.func 0) c k tag) s (fun u => SlotFrame s u c ∧ SvcDone u c k tag 2 ∧
        noService (workOf (u.chan c)) = noService (workOf ch))) ∧
      (∀ e, pmEntity a0 = some e → nbits a1 4 0 ≤ 16 → Completes (.pmRead (.func 0) c k tag) s (fun u => SlotFrame s u c ∧ SvcDone u c k tag 0 ∧
        bit ((u.chan c).get (pgKeep k.val) (KEEP.SVC_RESP 0)) 31 =
          ((tget ({} : PmEnt) (ch.ctl k.val).pm e).bin (nbit a1 8) (nbits a1 4 0)).isSome))))

/-- R422–R425, R433: in its turn, a request that a pool grants takes the buffer named, under the account it is charged to; the last byte written to HBM makes the buffer
written.

R435, R436, R441, R442: a written packet that the checks let pass under HOLD joins the end of its queue, one that they refuse is released; a multicast
packet with one member joins that member's queue, one with none is released.

R426–R428: a free by the owner releases one reference, the last one the buffer; a free of a free buffer and one under another account are counted and
release nothing; the sweep frees what nothing names.

R422–R428, R433, R436, R439–R442, R444: what is asked of buffers and queues whatever stands: a request out of turn, or one that names no buffer the
pool may grant, waits; a refused one is dropped and counted, or asks the next pool; a free of what the sender does not own, a copy of nothing, an
admission of nothing and the end of what does not run change nothing. -/
def Obligations.BuffersAndAdmission : Prop :=
  (∀ (s : State) (c : Fin 4), Ready s c →
    let ch := s.chan c
    let granted := fun (u : State) (r : AllocReq) (pool h : Nat) =>
      (u.chan c).cad.reqs = ch.cad.reqs.erase r ∧
      (u.chan c).buf h = { inUse := true, owner := ch.chargeTo r.pkt, pool := pool, units := unitsOf pool r.pkt.len, pkt := r.pkt,
                           written := pool == 0 && r.pkt.reasm == 0, waiting := true } ∧
      ((u.chan c).acctPool (ch.chargeTo r.pkt) pool).use = (ch.acctPool (ch.chargeTo r.pkt) pool).use + unitsOf pool r.pkt.len
    ch.caddyOn = true →
    (∀ req h r, ch.cad.reqs.find? (fun r => r.requester == req && r.pool.isNone) = some r → ch.allocTurn req (ch.firstPool r.pkt) = true →
      ch.judgeAlloc (ch.chargeTo r.pkt) (ch.firstPool r.pkt) (unitsOf (ch.firstPool r.pkt) r.pkt.len) = .grant →
      ch.grantable (ch.firstPool r.pkt) h = true →
      Completes (.bufferAlloc c req h) s (fun u => CaddyFrame s u c ∧ granted u r (ch.firstPool r.pkt) h)) ∧
    (∀ req h r, ch.cad.reqs.find? (fun r => r.requester == req && r.pool.isSome) = some r → ch.allocTurn req (r.pool.getD 0) = true →
      ch.judgeAlloc (ch.chargeTo r.pkt) (r.pool.getD 0) (unitsOf (r.pool.getD 0) r.pkt.len) = .grant →
      ch.grantable (r.pool.getD 0) h = true →
      Completes (.spillRequest c req h) s (fun u => CaddyFrame s u c ∧ granted u r (r.pool.getD 0) h)) ∧
    (∀ h, (ch.buf h).inUse = true → (ch.buf h).written = false → (ch.buf h).pkt.reasm = 0 → ch.ackWaits h = false →
      Completes (.hbmWriteAck c h) s (fun u => CaddyFrame s u c ∧ (u.chan c).buf h = { ch.buf h with written := true } ∧ (u.chan c).regs = ch.regs))) ∧
  (∀ (s : State) (c : Fin 4) (h : Nat), Ready s c →
    let ch := s.chan c
    let b := ch.buf h
    let k := b.pkt
    b.inUse = true → b.written = true → b.waiting = true → b.refs = 0 →
    (k.egress = false →
      (ch.admitCheck k.voq (pcIndex 0 k.inPort k.tc) k.len none = none → ch.holdDisc (pcIndex 0 k.inPort k.tc) = true →
        Completes (.admission c h) s (fun u => TmFrame s u c ∧
          ((u.chan c).que k.voq).ents = (ch.que k.voq).ents ++ [⟨h, k.len, ch.ns, pcIndex 0 k.inPort k.tc⟩] ∧
          ((u.chan c).buf h).queue = k.voq + 1 ∧ ((u.chan c).buf h).waiting = false ∧ ((u.chan c).buf h).enqTime = ch.t64)) ∧
      ((ch.admitCheck k.voq (pcIndex 0 k.inPort k.tc) k.len none).isSome = true →
        Completes (.admission c h) s (fun u => TmFrame s u c ∧ (u.chan c).buf h = {} ∧ (u.chan c).que k.voq = ch.que k.voq))) ∧
    (k.egress = true → k.mcast = true →
      (ch.mcMembers k.dest = [] → Completes (.mcReplicate c h) s (fun u => TmFrame s u c ∧ (u.chan c).buf h = {})) ∧
      (∀ p n, ch.mcMembers k.dest = [p] → ch.eqMap p k.tc k.flowHash k.user0 = some n →
        ch.admitCheck (egQueue n) (pcIndex 1 p k.tc) k.len (some p) = none → ch.holdDisc (pcIndex 1 p k.tc) = true →
        Completes (.mcReplicate c h) s (fun u => TmFrame s u c ∧
          ((u.chan c).que (egQueue n)).ents = (ch.que (egQueue n)).ents ++ [⟨h, k.len, ch.ns, pcIndex 1 p k.tc⟩] ∧
          ((u.chan c).buf h).waiting = false ∧ ((u.chan c).buf h).refs = 0)))) ∧
  (∀ (s : State) (c : Fin 4),
    let ch := s.chan c
    (∀ h a part, Ready s c →
      (ch.freeResult h a part = 0 → Completes (.bufferFree c h a part) s (fun u => CaddyFrame s u c ∧
        (u.chan c).buf h = if 0 < (ch.buf h).refs then { ch.buf h with refs := (ch.buf h).refs - 1 } else {})) ∧
      ((ch.buf h).inUse = false → Completes (.bufferFree c h a part) s (fun u => CaddyFrame s u c ∧ (u.chan c).cad = ch.cad ∧
        (u.chan c).nat pgCaddy CADDY.DOUBLE_FREE = satAdd 32 (ch.nat pgCaddy CADDY.DOUBLE_FREE) 1)) ∧
      ((ch.buf h).inUse = true → (ch.buf h).owner ≠ a → Completes (.bufferFree c h a part) s (fun u => CaddyFrame s u c ∧ (u.chan c).cad = ch.cad ∧
        (u.chan c).nat pgCaddy CADDY.FOREIGN_FREE = satAdd 32 (ch.nat pgCaddy CADDY.FOREIGN_FREE) 1))) ∧
    (∀ a, HostReady s c → a < 4096 →
      let h := ch.nat pgCaddy CADDY.FREE_HANDLE
      (handleOk h = true → Completes (.freeCmd (.func 0) c a) s (fun u => CaddyFrame s u c ∧
        (u.chan c).nat pgCaddy CADDY.FREE_STAT = 2 ^ 30 + ch.freeResult h a none ∧
        (ch.freeResult h a none = 0 → (ch.buf h).refs = 0 → (u.chan c).buf h = {}))) ∧
      (handleOk h = false → Completes (.freeCmd (.func 0) c a) s (fun u => CaddyFrame s u c ∧
        (u.chan c).nat pgCaddy CADDY.FREE_STAT = 2 ^ 30 + 3 ∧ workOf (u.chan c) = workOf ch))) ∧
    (Ready s c → ch.cad.sweepDue = true → ch.active.isSome = true →
      Completes (.orphanSweep c) s (fun u => CaddyFrame s u c ∧ (u.chan c).cad.sweepDue = false ∧
        ∀ h, (ch.buf h).inUse = true → ch.named h = false → (u.chan c).buf h = {}))) ∧
  (∀ (s : State) (c : Fin 4), Ready s c →
    let ch := s.chan c
    let same := fun (u : State) => u.chan c = ch
    let gone := fun (u : State) (x : AllocReq) => (u.chan c).cad.reqs = ch.cad.reqs.erase x ∧ (u.chan c).cad.bufs = ch.cad.bufs
    (∀ req h, ch.cad.reqs.find? (fun y => y.requester == req && y.pool.isNone) = none → Completes (.bufferAlloc c req h) s same) ∧
    (∀ req h, ch.cad.reqs.find? (fun y => y.requester == req && y.pool.isSome) = none → Completes (.spillRequest c req h) s same) ∧
    (∀ req h x, ch.cad.reqs.find? (fun y => y.requester == req && y.pool.isNone) = some x →
      let p := ch.firstPool x.pkt
      let j := ch.judgeAlloc (ch.chargeTo x.pkt) p (unitsOf p x.pkt.len)
      (ch.caddyOn = false → Completes (.bufferAlloc c req h) s (fun u => gone u x ∧
        (u.chan c).nat pgCaddy CADDY.DISABLED_DROP = satAdd 32 (ch.nat pgCaddy CADDY.DISABLED_DROP) 1)) ∧
      (ch.caddyOn = true → ch.allocTurn req p = false → Completes (.bufferAlloc c req h) s same) ∧
      (ch.caddyOn = true → ch.allocTurn req p = true →
        (j = .grant → ch.grantable p h = false → Completes (.bufferAlloc c req h) s same) ∧
        (j = .limit → Completes (.bufferAlloc c req h) s (fun u => gone u x ∧
          (u.chan c).nat pgCaddy CADDY.ACCT_LIMIT_DROP = satAdd 32 (ch.nat pgCaddy CADDY.ACCT_LIMIT_DROP) 1 ∧
          (ch.nat pgCaddy CADDY.ACCT_LIMIT_DROP = 0 → bit ((u.chan c).get pgCaddy oCAUSE) 9 = true))) ∧
        (j = .empty → ch.getB pgCaddy (CADDY.POOL_CFG_SPILL_UP p) = false → Completes (.bufferAlloc c req h) s (fun u => gone u x ∧
          (u.chan c).nat pgCaddy CADDY.POOL_EMPTY_DROP = satAdd 32 (ch.nat pgCaddy CADDY.POOL_EMPTY_DROP) 1 ∧
          (ch.nat pgCaddy CADDY.POOL_EMPTY_DROP = 0 → bit ((u.chan c).get pgCaddy oCAUSE) 8 = true))) ∧
        (j = .empty → ch.getB pgCaddy (CADDY.POOL_CFG_SPILL_UP p) = true → p ≠ 4 → x.pkt.len ≤ 10144 →
          Completes (.bufferAlloc c req h) s (fun u => CaddyFrame s u c ∧
            (u.chan c).nat pgCaddy CADDY.SPILL_CNT = satAdd 32 (ch.nat pgCaddy CADDY.SPILL_CNT) 1 ∧
            { x with pool := some (nextPool p x.pkt.len) } ∈ (u.chan c).cad.reqs)))) ∧
    (∀ req h x, ch.cad.reqs.find? (fun y => y.requester == req && y.pool.isSome) = some x →
      let p := x.pool.getD 0
      let j := ch.judgeAlloc (ch.chargeTo x.pkt) p (unitsOf p x.pkt.len)
      (ch.caddyOn = false → Completes (.spillRequest c req h) s (fun u => gone u x ∧
        (u.chan c).nat pgCaddy CADDY.DISABLED_DROP = satAdd 32 (ch.nat pgCaddy CADDY.DISABLED_DROP) 1)) ∧
      (ch.caddyOn = true → ch.allocTurn req p = false → Completes (.spillRequest c req h) s same) ∧
      (ch.caddyOn = true → ch.allocTurn req p = true → j = .limit → Completes (.spillRequest c req h) s (fun u => gone u x ∧
        (u.chan c).nat pgCaddy CADDY.ACCT_LIMIT_DROP = satAdd 32 (ch.nat pgCaddy CADDY.ACCT_LIMIT_DROP) 1))) ∧
    (∀ h, (ch.buf h).inUse = false ∨ (ch.buf h).written = true ∨ ch.ackWaits h = true → Completes (.hbmWriteAck c h) s same) ∧
    (∀ h, (ch.buf h).inUse = false ∨ (ch.buf h).written = false ∨ (ch.buf h).waiting = false →
      Completes (.admission c h) s same ∧ Completes (.mcReplicate c h) s same) ∧
    (∀ h, (ch.buf h).inUse = true → (ch.buf h).written = true → (ch.buf h).waiting = true → (ch.buf h).pkt.egress = true → (ch.buf h).queue ≠ 0 →
      (ch.buf h).refs = 0 → ch.holdDisc (pcIndex 1 (ch.buf h).pkt.port (ch.buf h).pkt.tc) = true →
      (ch.admitCheck ((ch.buf h).queue - 1) (pcIndex 1 (ch.buf h).pkt.port (ch.buf h).pkt.tc) (ch.buf h).pkt.len (some (ch.buf h).pkt.port) = none →
        Completes (.admission c h) s (fun u => TmFrame s u c ∧ ((u.chan c).buf h).waiting = false ∧
          ((u.chan c).que ((ch.buf h).queue - 1)).ents = (ch.que ((ch.buf h).queue - 1)).ents ++
            [⟨h, (ch.buf h).pkt.len, ch.ns, pcIndex 1 (ch.buf h).pkt.port (ch.buf h).pkt.tc⟩]))) ∧
    (∀ h p ps, (ch.buf h).inUse = true → (ch.buf h).written = true → (ch.buf h).waiting = true → (ch.buf h).pkt.egress = true →
      (ch.buf h).pkt.mcast = true → ch.mcMembers (ch.buf h).pkt.dest = p :: ps →
      Completes (.mcReplicate c h) s (fun u => TmFrame s u c ∧ ((u.chan c).buf h).waiting = false ∧
        (u.chan c).nat pgVoq VOQ.MC_COPIES = satAdd 32 (ch.nat pgVoq VOQ.MC_COPIES) (ps.length + 1))) ∧
    (∀ (h a : Nat) (part : Option Nat), ch.freeResult h a part = 2 → Completes (.bufferFree c h a part) s (fun u => CaddyFrame s u c ∧
      (u.chan c).cad = ch.cad ∧ (u.chan c).nat pgCaddy CADDY.FOREIGN_FREE = satAdd 32 (ch.nat pgCaddy CADDY.FOREIGN_FREE) 1 ∧
      bit ((u.chan c).get pgCaddy oCAUSE) 11 = true)) ∧
    (ch.active = none → Completes (.orphanSweep c) s same) ∧
    (ch.active.isSome = true → Completes (.orphanSweep c) s (fun u => CaddyFrame s u c ∧
      ∀ h, (ch.buf h).inUse = true → (ch.named h = false → (u.chan c).buf h = {}) ∧ (ch.named h = true → (u.chan c).buf h = ch.buf h))) ∧
    (ch.cad.flush = none → Completes (.flushComplete c) s same) ∧
    (∀ p, 64 ≤ p ∨ ch.holdState p ≠ 1 → Completes (.holdWindowExpiry c p) s same))

/-- R430, R431, R448: region commands of the host and of the active keeper on one region that accepts them: the new state of the region, and the result.

R430, R448: a region command at either port, on any number of regions: refused whole where one of them does not accept it, and otherwise each
region takes its new state; a class outside 1 to 4 is a reserved value. -/
def Obligations.RegionCommands : Prop :=
  (∀ (s : State) (c : Fin 4) (r : Nat), r < 2 ^ 15 →
    let ch := s.chan c
    let x := ch.hbmRegion r
    let ok := fun (u : State) => (u.chan c).nat pgCaddy CADDY.REGION_STAT = 2 ^ 30
    let kok := fun (u : State) => (u.chan c).nat pgCaddy CADDY.KREGION_STAT = 2 ^ 30
    (HostReady s c → ch.getF pgCaddy CADDY.REGION_CNT_COUNT = 1 →
      (∀ cls, 1 ≤ cls → cls ≤ 4 →
        (ch.regionResult false 0 cls r 1 = 0 →
          Completes (.regionAssign (.func 0) c false cls r) s (fun u => CaddyFrame s u c ∧ ok u ∧ (u.chan c).hbmRegion r = { st := 1, cls := cls })) ∧
        (ch.regionResult false 1 cls r 1 = 0 →
          Completes (.regionMove (.func 0) c false cls r) s (fun u => CaddyFrame s u c ∧ ok u ∧ (u.chan c).hbmRegion r =
            if ch.regionUsed r = 0 then { st := 1, cls := cls } else { x with st := 2, next := cls }))) ∧
      (ch.regionResult false 2 0 r 1 = 0 →
        Completes (.regionCancel (.func 0) c false r) s (fun u => CaddyFrame s u c ∧ ok u ∧ (u.chan c).hbmRegion r = { st := 1, cls := x.cls })) ∧
      (ch.regionResult false 6 0 r 1 = 0 →
        Completes (.regionPurge (.func 0) c false r) s (fun u => TmFrame s u c ∧ ok u ∧
          ∀ q, ∀ e ∈ ((u.chan c).que q).ents, regionOfHandle e.handle ≠ some r)) ∧
      Completes (.regionRdIdxWrite (.func 0) c r) s (fun u => CaddyFrame s u c ∧ workOf (u.chan c) = workOf ch ∧
        (u.chan c).nat pgCaddy CADDY.REGION_RD = (x.st * 2 ^ 29 + x.cls * 2 ^ 26 + x.next * 2 ^ 23 + ch.regionUsed r) % 2 ^ 32)) ∧
    (KeeperReady s c 0 → ch.getF pgCaddy CADDY.KREGION_CNT_COUNT = 1 →
      (ch.regionResult true 3 0 r 1 = 0 →
        Completes (.regionFence .keeperA c true r) s (fun u => CaddyFrame s u c ∧ kok u ∧ (u.chan c).hbmRegion r = { x with st := 3, prior := x.st })) ∧
      (ch.regionResult true 4 0 r 1 = 0 → x.prior ≠ 2 →
        Completes (.regionUnfence .keeperA c true r) s (fun u => CaddyFrame s u c ∧ kok u ∧ (u.chan c).hbmRegion r = { x with st := x.prior, prior := 0 })) ∧
      (ch.regionResult true 5 0 r 1 = 0 →
        Completes (.regionRetire .keeperA c true r) s (fun u => CaddyFrame s u c ∧ kok u ∧ (u.chan c).hbmRegion r = { st := 4, cls := x.cls })))) ∧
  (∀ (s : State) (c : Fin 4) (q : Req) (kport : Bool) (first cls : Nat), first < 2 ^ 15 → cls < 8 →
    ((kport = false ∧ HostReady s c ∧ q = .func 0) ∨ (kport = true ∧ ∃ k : Fin 2, KeeperReady s c k ∧ q = keeperReq k)) →
    let ch := s.chan c
    let cnt := ch.getF pgCaddy (if kport then CADDY.KREGION_CNT_COUNT else CADDY.REGION_CNT_COUNT)
    let stat := fun (u : State) => (u.chan c).nat pgCaddy (if kport then CADDY.KREGION_STAT else CADDY.REGION_STAT)
    let rule := fun (op cls : Nat) (new : Nat → HbmRegion) (u : State) =>
      stat u = 2 ^ 30 + ch.regionResult kport op cls first cnt * 2 ^ 16 ∧ bit ((u.chan c).get pgCaddy oCAUSE) 12 = true ∧
      ∀ m, (u.chan c).hbmRegion m =
        if ch.regionResult kport op cls first cnt = 0 ∧ first ≤ m ∧ m < first + cnt then new m else ch.hbmRegion m
    let free := fun m => ch.regionUsed m = 0
    let moved := fun (m n : Nat) => if free m then { st := 1, cls := n } else { ch.hbmRegion m with st := 2, next := n }
    (1 ≤ cls → cls ≤ 4 →
      Completes (.regionAssign q c kport cls first) s (fun u => CaddyFrame s u c ∧ rule 0 cls (fun _ => { st := 1, cls := cls }) u) ∧
      Completes (.regionMove q c kport cls first) s (fun u => CaddyFrame s u c ∧ rule 1 cls (fun m => moved m cls) u)) ∧
    (cls = 0 ∨ 4 < cls →
      Completes (.regionAssign q c kport cls first) s (fun u => CaddyFrame s u c ∧ (u.chan c).cad = ch.cad ∧
        bit ((u.chan c).get pgCaddy oCAUSE) 0 = true) ∧
      Completes (.regionMove q c kport cls first) s (fun u => CaddyFrame s u c ∧ (u.chan c).cad = ch.cad ∧
        bit ((u.chan c).get pgCaddy oCAUSE) 0 = true)) ∧
    Completes (.regionCancel q c kport first) s (fun u => CaddyFrame s u c ∧ rule 2 0 (fun m => { st := 1, cls := (ch.hbmRegion m).cls }) u) ∧
    Completes (.regionFence q c kport first) s (fun u => CaddyFrame s u c ∧
      rule 3 0 (fun m => { ch.hbmRegion m with st := 3, prior := (ch.hbmRegion m).st }) u) ∧
    Completes (.regionUnfence q c kport first) s (fun u => CaddyFrame s u c ∧ rule 4 0 (fun m =>
      if (ch.hbmRegion m).prior = 2 ∧ free m then { st := 1, cls := (ch.hbmRegion m).next }
      else { ch.hbmRegion m with st := (ch.hbmRegion m).prior, prior := 0 }) u) ∧
    Completes (.regionRetire q c kport first) s (fun u => CaddyFrame s u c ∧ rule 5 0 (fun m => { st := 4, cls := (ch.hbmRegion m).cls }) u) ∧
    Completes (.regionPurge q c kport first) s (fun u => TmFrame s u c ∧ stat u = 2 ^ 30 + ch.regionResult kport 6 0 first cnt * 2 ^ 16 ∧
      (ch.regionResult kport 6 0 first cnt = 0 → ∀ n, ∀ e ∈ ((u.chan c).que n).ents, ∀ m ∈ List.range cnt,
        regionOfHandle e.handle ≠ some (first + m)) ∧
      (ch.regionResult kport 6 0 first cnt ≠ 0 → (u.chan c).cad = ch.cad)))

/-- R420, R421, R443, R450: the reserve and the factor of an account's pool, opening and closing an account, and the readout of a queue.

R421, R443, R444, R449: account words whatever the account's state, and a flush while another runs.

R439, R444: a flush removes the packets it selects, by queue, account or partition, and is busy until it completes; the end of a hold window makes the port
discard. -/
def Obligations.AccountsAndFlushes : Prop :=
  (∀ (s : State) (c : Fin 4), HostReady s c →
    let ch := s.chan c
    let a := ch.getF pgCaddy CADDY.ACCT_SEL_ACCOUNT
    let p := ch.getF pgCaddy CADDY.ACCT_SEL_POOL
    let x := ch.acctPool a p
    (∀ v : Word, fld v 31 28 ≤ 10 →
      (ch.poolRsv p - x.rsv + fld v 27 0 ≤ ch.poolTotal p →
        Completes (.acctPoolWrite (.func 0) c v) s (fun u => CaddyFrame s u c ∧ (u.chan c).acctPool a p = { x with alpha := fld v 31 28, rsv := fld v 27 0 })) ∧
      (ch.poolTotal p < ch.poolRsv p - x.rsv + fld v 27 0 →
        Completes (.acctPoolWrite (.func 0) c v) s (fun u => CaddyFrame s u c ∧ (u.chan c).nat pgCaddy CADDY.REFUSE = 1 ∧ workOf (u.chan c) = workOf ch))) ∧
    (∀ part, part < 32 → (ch.acct a).st = 0 →
      Completes (.acctOpen (.func 0) c part) s (fun u => CaddyFrame s u c ∧ (u.chan c).acct a = { ch.acct a with part := part, st := 1 })) ∧
    (∀ part, part = (ch.acct a).part → part < 32 → (ch.acct a).st = 1 →
      Completes (.acctClose (.func 0) c part) s (fun u => CaddyFrame s u c ∧ ((u.chan c).acct a).st = if ch.acctIdle a then 0 else 2)) ∧
    (∀ v : Word, Completes (.qSelWrite (.func 0) c v) s (fun u => CaddyFrame s u c ∧
      (u.chan c).nat pgVoq VOQ.Q_PKTS = (ch.que (qSelKey v)).ents.length % 2 ^ 32 ∧
      ∀ q, ((u.chan c).que q).ents = (ch.que q).ents))) ∧
  (∀ (s : State) (c : Fin 4), HostReady s c →
    let ch := s.chan c
    let a := ch.getF pgCaddy CADDY.ACCT_SEL_ACCOUNT
    let x := ch.acct a
    let refused := fun (u : State) => CaddyFrame s u c ∧ (u.chan c).nat pgCaddy CADDY.REFUSE = 2 ∧ workOf (u.chan c) = workOf ch
    (∀ v : Word, 10 < fld v 31 28 → Completes (.acctPoolWrite (.func 0) c v) s (fun u => CaddyFrame s u c ∧ (u.chan c).cad = ch.cad ∧
      bit ((u.chan c).get pgCaddy oCAUSE) 0 = true)) ∧
    (∀ part, part < 32 → part ≠ x.part → x.st ≠ 0 → Completes (.acctOpen (.func 0) c part) s refused ∧
      Completes (.acctClose (.func 0) c part) s refused) ∧
    (∀ part, part < 32 → part = x.part ∨ x.st = 0 →
      Completes (.acctOpen (.func 0) c part) s (fun u => CaddyFrame s u c ∧ (u.chan c).acct a = { x with part := part, st := 1 }) ∧
      (x.st ≠ 1 → Completes (.acctClose (.func 0) c part) s (fun u => CaddyFrame s u c ∧ (u.chan c).acct a = { x with part := part })) ∧
      (x.st = 1 → Completes (.acctClose (.func 0) c part) s (fun u => CaddyFrame s u c ∧
        (u.chan c).acct a = { x with st := if ch.acctIdle a then 0 else 2 }))) ∧
    (ch.getB pgVoq VOQ.FLUSH_STAT_BUSY = true →
      Completes (.flushRange (.func 0) c) s (fun u => TmFrame s u c ∧ workOf (u.chan c) = workOf ch) ∧
      Completes (.flushAccount (.func 0) c) s (fun u => TmFrame s u c ∧ workOf (u.chan c) = workOf ch) ∧
      Completes (.flushPartition (.func 0) c) s (fun u => TmFrame s u c ∧ workOf (u.chan c) = workOf ch))) ∧
  (∀ (s : State) (c : Fin 4),
    let ch := s.chan c
    let left := fun (u : State) (out : Nat → QEnt → Bool) => (u.chan c).nat pgVoq VOQ.FLUSH_STAT = 2 ^ 31 ∧
      ∀ q, ((u.chan c).que q).ents = (ch.que q).ents.filter (fun e => !(out q e))
    let a0 := ch.nat pgVoq VOQ.FLUSH_ARG0
    let a1 := ch.nat pgVoq VOQ.FLUSH_ARG1
    (HostReady s c → ch.getB pgVoq VOQ.FLUSH_STAT_BUSY = false →
      Completes (.flushRange (.func 0) c) s (fun u => TmFrame s u c ∧ left u (fun q _ =>
        decide (a0 % 2 ^ 19 ≤ q ∧ q < a0 % 2 ^ 19 + a1 ∧ q < 0x80000))) ∧
      Completes (.flushAccount (.func 0) c) s (fun u => TmFrame s u c ∧ left u (fun _ e => (ch.buf e.handle).owner == a0 % 4096)) ∧
      Completes (.flushPartition (.func 0) c) s (fun u => TmFrame s u c ∧ left u (fun _ e => (ch.acct (ch.buf e.handle).owner).part == a0 % 32))) ∧
    (Ready s c → ch.cad.flush.isSome = true →
      Completes (.flushComplete c) s (fun u => CaddyFrame s u c ∧ (u.chan c).nat pgVoq VOQ.FLUSH_STAT = 2 ^ 30 ∧
        bit ((u.chan c).get pgVoq oCAUSE) 8 = true ∧ (u.chan c).cad.queues = ch.cad.queues)) ∧
    (∀ p, Ready s c → p < 64 → ch.holdState p = 1 →
      Completes (.holdWindowExpiry c p) s (fun u => (u.chan c).holdState p = 2)))

/-- R458, R460, R224: EQ_MAP gives a written egress packet its queue, or drops it; a release serves a port's control frames first, and else the one queue that
may send.

R471: the frame at the head of the MAC FIFO is launched, counted with its bytes, and leaves the FIFO.

R222, R428, R458, R460, R461, R463, R467, R468, R471: the scheduler, the gates and the MAC whatever stands: nothing is released while a page on
the way is off, by a port that is down or paced, and no port is served five times in a cycle; a header error ends its queue; a node is taken out;
a swap waits for its start; a list is not written in its operational bank; an express frame passes preemptable ones, and a preemptable one passes none. -/
def Obligations.EgressQueuesAndLaunch : Prop :=
  (∀ (s : State) (c : Fin 4), Ready s c →
    let ch := s.chan c
    (∀ h, (ch.buf h).inUse = true → (ch.buf h).written = true → (ch.buf h).waiting = true → (ch.buf h).pkt.egress = true →
      (ch.buf h).pkt.mcast = false → (ch.buf h).queue = 0 → (ch.buf h).refs = 0 →
      (∀ n, ch.egressQueue (ch.buf h).pkt = some n → Completes (.egressQueueMap c h) s (fun u =>
        (u.chan c).buf h = { ch.buf h with queue := egQueue n + 1 } ∧ (u.chan c).regs = ch.regs)) ∧
      (ch.egressQueue (ch.buf h).pkt = none → Completes (.egressQueueMap c h) s (fun u => (u.chan c).buf h = {} ∧
        (u.chan c).nat pgSched SCHED.NO_QUEUE_DROP = satAdd 32 (ch.nat pgSched SCHED.NO_QUEUE_DROP) 1))) ∧
    (∀ p, p < 64 → ch.enabled pgSched = true → ch.enabled pgSpout = true → ch.bridged = true → ch.oper p = true →
      tget 0 ch.sch.pace p ≤ ch.ns * 1000 →
      (∀ f rest, (ch.pw p).ctl = f :: rest → Completes (.schedRelease c [(p, false)]) s (fun u => ((u.chan c).pw p).ctl = rest ∧
        ((u.chan c).pw p).mac = (ch.pw p).mac ++ [.control f (ch.timePs + ch.exitLat p)] ∧ (u.chan c).cad = ch.cad)) ∧
      (∀ n e es, (ch.pw p).ctl = [] → ch.egQueuesOf p = [egQueue n] → ch.openPaths p = [[n]] → (ch.node n).gate = none →
        (ch.que (egQueue n)).ents = e :: es → ch.aged p e = false → (ch.buf e.handle).hdrBad = false →
        Completes (.schedRelease c [(p, false)]) s (fun u =>
          ((u.chan c).que (egQueue n)).ents = (e :: es).filter (fun x => !(x == e)))))) ∧
  (∀ (s : State) (c : Fin 4) (p : Nat) (k : Pkt) (late : Bool) (rest : List MacFrame), Ready s c → p < 64 →
    ((s.chan c).pw p).mac = .data k late :: rest →
    Completes (.frameLaunch c p 0) s (fun u => ((u.chan c).pw p).mac = rest ∧
      (u.chan c).get64 (portPg p) (LINE.TX_FRAMES (portBlk p)) = ((s.chan c).get64 (portPg p) (LINE.TX_FRAMES (portBlk p)) + 1) % 2 ^ 64 ∧
      (u.chan c).get64 (portPg p) (LINE.TX_BYTES (portBlk p)) =
        ((s.chan c).get64 (portPg p) (LINE.TX_BYTES (portBlk p)) + k.len) % 2 ^ 64)) ∧
  ((∀ (s : State) (c : Fin 4), Ready s c →
    let ch := s.chan c
    let same := fun (u : State) => u.chan c = ch
    (∀ (ports : List (Nat × Bool)), ch.enabled pgSched = false ∨ ch.enabled pgSpout = false ∨ ch.bridged = false →
      Completes (.schedRelease c ports) s same) ∧
    (∀ (p : Nat) (b : Bool), 64 ≤ p ∨ ch.oper p = false ∨ ch.ns * 1000 < tget 0 ch.sch.pace p → Completes (.schedRelease c [(p, b)]) s same) ∧
    (∀ (p q : Nat) (f g : CtlFrame) (fs gs : List CtlFrame), p < 64 → q < 64 → p ≠ q → ch.enabled pgSched = true → ch.enabled pgSpout = true →
      ch.bridged = true → ch.oper p = true → ch.oper q = true → tget 0 ch.sch.pace p ≤ ch.ns * 1000 → tget 0 ch.sch.pace q ≤ ch.ns * 1000 →
      (ch.pw p).ctl = f :: fs → (ch.pw q).ctl = g :: gs →
      Completes (.schedRelease c [(p, false), (q, false)]) s (fun u => ((u.chan c).pw p).ctl = fs ∧ ((u.chan c).pw q).ctl = gs ∧
        ((u.chan c).pw q).mac = (ch.pw q).mac ++ [.control g (ch.timePs + ch.exitLat q)])) ∧
    (∀ p n e es, p < 64 → ch.enabled pgSched = true → ch.enabled pgSpout = true → ch.bridged = true → ch.oper p = true →
      tget 0 ch.sch.pace p ≤ ch.ns * 1000 → (ch.pw p).ctl = [] → ch.egQueuesOf p = [egQueue n] → ch.openPaths p = [[n]] → (ch.node n).gate = none →
      (ch.que (egQueue n)).ents = e :: es → ch.aged p e = false →
      Completes (.schedRelease c [(p, true)]) s (fun u => ((u.chan c).que (egQueue n)).ents = [] ∧
        (u.chan c).nat pgCaddy CADDY.HDR_ERR = satAdd 32 (ch.nat pgCaddy CADDY.HDR_ERR) 1 ∧ (u.chan c).cad.sweepDue = true)) ∧
    (∀ h, (ch.buf h).inUse = false ∨ (ch.buf h).written = false ∨ (ch.buf h).waiting = false ∨ (ch.buf h).pkt.egress = false ∨
      (ch.buf h).pkt.mcast = true ∨ (ch.buf h).queue ≠ 0 → Completes (.egressQueueMap c h) s same) ∧
    (∀ n w, 131072 ≤ n ∨ (ch.node n).valid = false → Completes (.nodeUe c n w) s same) ∧
    (∀ m, ch.enabled pgSpout = false ∨ (ch.glist m).pend = false ∨ (ch.timeNs : Int) < t64At (ch.glist m).start ch.timeNs →
      Completes (.swapStart c m) s same) ∧
    (∀ m e, 256 ≤ m ∨ (ch.glist m).running = false ∨ ((ch.glist m).bank (ch.glist m).oper).len ≤ e → Completes (.listUe c m e) s same) ∧
    (∀ p pos : Nat, (ch.pw p).mac[pos]? = none → Completes (.frameLaunch c p pos) s same) ∧
    (∀ p k late x own, (ch.pw p).mac = [.data k late, .control x own] →
      (ch.preemptable p k.tc = true → Completes (.frameLaunch c p 1) s (fun u => ((u.chan c).pw p).mac = [.data k late])) ∧
      (ch.preemptable p k.tc = false → Completes (.frameLaunch c p 1) s same) ∧
      Completes (.frameLaunch c p 0) s (fun u => ((u.chan c).pw p).mac = [.control x own])) ∧
    (∀ p k late x own, (ch.pw p).mac = [.control x own, .data k late] →
      Completes (.frameLaunch c p 0) s (fun u => ((u.chan c).pw p).mac = [.data k late] ∧
        (x.pfc.isSome = true → (u.chan c).get64 (portPg p) (LINE.TX_PFC (portBlk p)) =
          (ch.get64 (portPg p) (LINE.TX_PFC (portBlk p)) + 1) % 2 ^ 64)) ∧
      (ch.preemptable p k.tc = true → Completes (.frameLaunch c p 1) s same))) ∧
  (∀ (s : State) (c : Fin 4), HostReady s c →
    let ch := s.chan c
    let n := ch.getF pgSched SCHED.NODE_SEL_NODE
    let l := ch.glist ch.selList
    let rejected := fun (u : State) => SchedFrame s u c ∧ workOf (u.chan c) = workOf ch ∧
      (u.chan c).nat pgSpout SPOUT.REJ_CNT = satAdd 32 (ch.nat pgSpout SPOUT.REJ_CNT) 1
    (ch.nodeResult n ch.askedNode = 0 → ch.askedNode.valid = false → Completes (.nodeCmd (.func 0) c) s (fun u => SchedFrame s u c ∧
      (u.chan c).nat pgSched SCHED.NODE_STAT = 2 ^ 30 ∧ (u.chan c).node n = {} ∧ ∀ m, m ≠ n → (u.chan c).node m = ch.node m)) ∧
    (∀ dur, dur < 2 ^ 30 →
      (ch.getB pgSpout SPOUT.ENT_IDX_OPER = true → Completes (.entDurWrite (.func 0) c dur) s rejected) ∧
      (l.pend = true → Completes (.entDurWrite (.func 0) c dur) s rejected))))

/-- R461, R475, R476: NODE_SEL shows a node, NODE_CMD gives it the words asked for or answers why not, and an uncorrectable error makes it faulty.

R467, R468, R477: the admin bank of a list is read and written entry by entry, refused while a swap is pending; at its start the pending bank becomes
operational; an error stops the list. -/
def Obligations.SchedulerAndGates : Prop :=
  (∀ (s : State) (c : Fin 4),
    let ch := s.chan c
    (∀ n, HostReady s c → n < 2 ^ 17 → Completes (.nodeSelWrite (.func 0) c n) s (fun u => SchedFrame s u c ∧
      (u.chan c).getF pgSched SCHED.NODE_SEL_NODE = n ∧ (u.chan c).nat pgSched (SCHED.NODE_W 0) = (ch.node n).w0 % 2 ^ 32 ∧
      (u.chan c).nat pgSched (SCHED.NODE_W 2) = (ch.node n).cir % 2 ^ 32 ∧ workOf (u.chan c) = workOf ch)) ∧
    (HostReady s c →
      let n := ch.getF pgSched SCHED.NODE_SEL_NODE
      let y := ch.askedNode
      (ch.nodeResult n y = 0 → y.valid = true → Completes (.nodeCmd (.func 0) c) s (fun u => SchedFrame s u c ∧
        let z := (u.chan c).node n
        (u.chan c).nat pgSched SCHED.NODE_STAT = 2 ^ 30 ∧ z.w0 = y.w0 ∧ z.w1 = y.w1 ∧ z.cir = y.cir ∧ z.pir = y.pir ∧ z.cbs = y.cbs ∧
        z.pbs = y.pbs ∧ z.w6 = y.w6 ∧ ∀ m, m ≠ n → (u.chan c).node m = ch.node m)) ∧
      (ch.nodeResult n y ≠ 0 → Completes (.nodeCmd (.func 0) c) s (fun u => SchedFrame s u c ∧
        (u.chan c).nat pgSched SCHED.NODE_STAT = 2 ^ 30 + ch.nodeResult n y * 2 ^ 16 ∧ workOf (u.chan c) = workOf ch))) ∧
    (∀ n w, Ready s c → n < 131072 → (ch.node n).valid = true →
      Completes (.nodeUe c n w) s (fun u => SchedFrame s u c ∧ (u.chan c).node n = { ch.node n with fault := true } ∧
        ∀ m, m ≠ n → (u.chan c).node m = ch.node m))) ∧
  (∀ (s : State) (c : Fin 4),
    let ch := s.chan c
    let n := ch.selList
    let l := ch.glist n
    let i := ch.getF pgSpout SPOUT.ENT_IDX_ENTRY
    (HostReady s c →
      (∀ oper idx, idx < 1024 →
        let k := if oper then l.bank l.oper else l.adm
        Completes (.entIdxWrite (.func 0) c oper idx) s (fun u => SchedFrame s u c ∧ (u.chan c).nat pgSpout SPOUT.ENT_MASK = k.mask idx % 2 ^ 32 ∧
          (u.chan c).nat pgSpout SPOUT.ENT_DUR = k.dur idx ∧ workOf (u.chan c) = workOf ch)) ∧
      (∀ dur, dur < 2 ^ 30 → ch.getB pgSpout SPOUT.ENT_IDX_OPER = false →
        (l.pend = false → Completes (.entDurWrite (.func 0) c dur) s (fun u => SchedFrame s u c ∧
          ((u.chan c).glist n).adm.dur i = dur ∧ ((u.chan c).glist n).adm.mask i = ch.nat pgSpout SPOUT.ENT_MASK ∧
          ((u.chan c).glist n).bank l.oper = l.bank l.oper ∧ (u.chan c).getF pgSpout SPOUT.ENT_IDX_ENTRY = (i + 1) % 1024)) ∧
        (l.pend = true → Completes (.entDurWrite (.func 0) c dur) s (fun u => SchedFrame s u c ∧ workOf (u.chan c) = workOf ch ∧
          (u.chan c).nat pgSpout SPOUT.REFUSE = 1)))) ∧
    (∀ m, Ready s c → ch.enabled pgSpout = true → (ch.glist m).pend = true → t64At (ch.glist m).start ch.timeNs ≤ (ch.timeNs : Int) →
      Completes (.swapStart c m) s (fun u => (u.chan c).glist m =
        { ch.glist m with oper := 1 - (ch.glist m).oper, running := true, pend := false, ecc := false })) ∧
    (∀ m e, Ready s c → m < 256 → (ch.glist m).running = true → e < ((ch.glist m).bank (ch.glist m).oper).len →
      Completes (.listUe c m e) s (fun u => SchedFrame s u c ∧ (u.chan c).glist m = { ch.glist m with ecc := true } ∧
        ∀ j, j ≠ m → (u.chan c).glist j = ch.glist j)))

/-- R482, R485, R489, R490: a lane with room takes a control cell; a cell with a bad header is counted and dropped; the next cell of a packet joins it; a gap
that stands too long is skipped, and a context of late cells only starts again.

R481, R483, R494, R497: how a fabric lane trains, fails, is replaced by a spare, says HELLO, and lapses.

R482, R485, R487, R488, R490, R492, R494, R495: cells of every kind in every state of the block, the lane and the context. Nothing is sent while
the block is off, on a lane that is not ACTIVE or has no room; a cell of a reserved type or length is a protocol error, one of a wrong payload
check, a wrong destination or a context that has passed its number is counted; a FIRST cell asks for a buffer; a cell ahead of its turn is held.

R481, R483, R485, R491, R494, R497, R501: lanes in every state. A HELLO brings a trained lane up, its peer's wrong name stops it; a HELLO with the
reachability of a block sets its bits; a lane that is no longer enabled, or changes its speed, leaves its state; what does not apply changes nothing. -/
def Obligations.FabricCellsAndLanes : Prop :=
  (∀ (s : State) (c : Fin 4), Ready s c →
    let ch := s.chan c
    (∀ l x, ch.enabled pgFab = true → l < 48 → ch.fabState l = 3 → (ch.fabLane l).txq = [] → (ch.fabLane l).ctlAt ≤ ch.wireNow →
      ch.fab.ctlQ.find? (fun x => ch.laneReaches l x.dst) = some x →
      Completes (.cellTx c l false) s (fun u => FabFrame s u c ∧ ((u.chan c).fabLane l).txq = [x] ∧ (u.chan c).fab.ctlQ = ch.fab.ctlQ.erase x)) ∧
    (∀ l (bs : List Byte), ch.enabled pgFab = true → l < 48 → ch.fabState l = 3 →
      (beAt bs 14 2 ≠ crc16 (sliceBytes bs 0 14) → Completes (.cellRx c l bs) s (fun u => FabFrame s u c ∧ workOf (u.chan c) = workOf ch ∧
        (u.chan c).nat pgFab FAB.HDR_CRC = satAdd 32 (ch.nat pgFab FAB.HDR_CRC) 1)) ∧
      (beAt bs 14 2 = crc16 (sliceBytes bs 0 14) →
        let x := cellOf l bs
        let r := ch.reasm x.src
        nbits (beAt bs 0 14) 15 0 = crc16 x.payload → x.typ = 1 → x.payload ≠ [] → x.payload.length ≤ 240 → x.dst = ch.chanId →
        ch.sportChan x.dport = some ch.chanId → x.seq = r.next → r.held = [] → r.open_ ≠ [] → x.first = false → x.last = false →
        Completes (.cellRx c l bs) s (fun u => FabFrame s u c ∧ (u.chan c).reasm x.src =
          { r with next := (r.next + 1) % 2 ^ 24, lateLow := 0, lateAt := 0, open_ := r.open_ ++ [x] }))) ∧
    (∀ k, (ch.reasm k).held ≠ [] → Completes (.reasmTimeout c k) s (fun u => FabFrame s u c ∧
      ((u.chan c).reasm k).held.length < (ch.reasm k).held.length)) ∧
    (∀ k, (ch.reasm k).lateLow ≠ 0 → Completes (.reasmResync c k) s (fun u => FabFrame s u c ∧
      ((u.chan c).reasm k).next = (ch.reasm k).lateLow - 1 ∧ ((u.chan c).reasm k).lateLow = 0 ∧
      (u.chan c).nat pgFab FAB.RESYNC = satAdd 32 (ch.nat pgFab FAB.RESYNC) 1))) ∧
  (∀ (s : State) (c : Fin 4) (l : Nat), Ready s c → l < 48 →
    let ch := s.chan c
    (ch.getB pgFab (FAB.LANE_CFG_EN l) = true → ch.getB pgFab (FAB.LANE_CFG_PD l) = false → ch.fabState l ≤ 1 →
      Completes (.fabLaneTrained c l) s (fun u => FabFrame s u c ∧ (u.chan c).fabState l = 2)) ∧
    (∀ fec, ch.fabState l = 1 ∨ ch.fabState l = 2 ∨ ch.fabState l = 4 ∨ ch.fabState l = 6 →
      Completes (.fabLaneFault c l fec) s (fun u => FabFrame s u c ∧ (u.chan c).fabState l = 0 ∧ ((u.chan c).fabLane l).txq = [])) ∧
    (∀ fec n, ch.fabState l = 3 → Completes (.laneLeaveActive c l fec n) s (fun u => FabFrame s u c ∧ (u.chan c).fabState l = 0 ∧
      ((u.chan c).fabLane l).txq = [] ∧ bit ((u.chan c).get pgFab oCAUSE) 8 = true)) ∧
    (∀ j, (ch.fabLane l).spareDue = true →
      firstBelow 48 (fun j => ch.fabState j == 4 && ch.getF pgFab (FAB.LANE_CFG_PEER_CHAN j) == ch.getF pgFab (FAB.LANE_CFG_PEER_CHAN l)) = some j →
      Completes (.spareActivate c l) s (fun u => FabFrame s u c ∧ (u.chan c).fabState j = 3 ∧ bit ((u.chan c).get pgFab oCAUSE) 13 = true)) ∧
    (ch.enabled pgFab = true → (ch.fabState l = 2 ∨ ch.fabState l = 3 ∨ ch.fabState l = 4) → (ch.fabLane l).txq = [] →
      Completes (.helloTx c) s (fun u => FabFrame s u c ∧ ((u.chan c).fabLane l).txq = [ch.hello])) ∧
    (ch.fabState l = 3 ∨ ch.fabState l = 4 → Completes (.helloLapse c l none) s (fun u => FabFrame s u c ∧ (u.chan c).fabState l = 2)) ∧
    (∀ b (x : Nat × Nat) xs, b < 4 → tget [] ch.fab.reachAt (4 * l + b) = xs ++ [x] →
      Completes (.helloLapse c l (some b)) s (fun u => FabFrame s u c ∧ tget [] (u.chan c).fab.reachAt (4 * l + b) = xs ∧
        tget 0 (u.chan c).fab.reach (4 * l + b) = tget 0 ch.fab.reach (4 * l + b) - Nat.land (tget 0 ch.fab.reach (4 * l + b)) x.1 ∧
        (u.chan c).fabState l = ch.fabState l))) ∧
  (∀ (s : State) (c : Fin 4), Ready s c →
    let ch := s.chan c
    let same := fun (u : State) => u.chan c = ch
    (∀ l (b : Bool), ch.enabled pgFab = false ∨ ch.laneActive l = false → Completes (.cellTx c l b) s same) ∧
    (∀ l (b : Bool), ch.enabled pgFab = true → l < 48 → ch.fabState l = 3 → (ch.drainLane l).fab.ctlQ = [] → ch.fab.sending = [] →
      ch.cad.queues = [] → Completes (.cellTx c l b) s (fun u => FabFrame s u c ∧ (u.chan c).fabLane l = (ch.drainLane l).fabLane l)) ∧
    (∀ l d (x : Sending) (b : Bool), ch.enabled pgFab = true → l < 48 → ch.fabState l = 3 → (ch.fabLane l).txq = [] → ch.fab.ctlQ = [] →
      ch.cad.queues = [] → d < 4096 → d ≠ ch.chanId → ch.fab.sending = [(d, [x])] → nbit (ch.laneReach l) d = true → x.voq < 0x80000 →
      ch.sportChan (x.voq / 8) = some d → tget 0 ch.fab.turns (d * 64 + l) < ch.laneWeight l → 240 < x.left.length → x.bad = [] →
      Completes (.cellTx c l b) s (fun u => FabFrame s u c ∧
        ((u.chan c).fabLane l).txq = [{ x.cell with last := false, seq := tget 0 ch.fab.seq d, payload := x.left.take 240, bad := false }] ∧
        tget 0 (u.chan c).fab.seq d = (tget 0 ch.fab.seq d + 1) % 2 ^ 24 ∧
        tget [] (u.chan c).fab.sending d = [{ x with left := x.left.drop 240, pos := x.pos + 240, cell := { x.cell with first := false } }])) ∧
    (∀ l (bs : List Byte), ch.enabled pgFab = false ∨ 48 ≤ l ∨ (ch.fabState l ≠ 2 ∧ ch.fabState l ≠ 3 ∧ ch.fabState l ≠ 4 ∧ ch.fabState l ≠ 6) →
      Completes (.cellRx c l bs) s same) ∧
    (∀ l (bs : List Byte), ch.enabled pgFab = true → l < 48 → beAt bs 14 2 = crc16 (sliceBytes bs 0 14) →
      let x := cellOf l bs
      let w := ch.reasm x.src
      let whole := nbits (beAt bs 0 14) 15 0 == crc16 x.payload
      let mine := x.dst = ch.chanId ∧ ch.sportChan x.dport = some ch.chanId
      let counts := fun (off : Nat) (u : State) => FabFrame s u c ∧ (u.chan c).nat pgFab off = satAdd 32 (ch.nat pgFab off) 1
      (ch.fabState l = 2 ∨ ch.fabState l = 3 ∨ ch.fabState l = 4 ∨ ch.fabState l = 6 →
        x.typ = 0 ∨ 6 ≤ x.typ ∨ x.payload = [] ∨ 240 < x.payload.length → Completes (.cellRx c l bs) s (counts FAB.PROTO_ERR)) ∧
      (x.payload ≠ [] → x.payload.length ≤ 240 →
        (ch.fabState l = 2 ∨ ch.fabState l = 6 → 1 ≤ x.typ → x.typ ≤ 4 → Completes (.cellRx c l bs) s (fun u => FabFrame s u c ∧
          (u.chan c).fab = ch.fab)) ∧
        (ch.fabState l = 3 ∨ ch.fabState l = 4 →
          (x.typ = 1 ∨ x.typ = 2 → whole = false → Completes (.cellRx c l bs) s (counts FAB.PCRC_ERR)) ∧
          (whole = true → x.typ = 1 → ¬mine → Completes (.cellRx c l bs) s (counts FAB.MISROUTE)) ∧
          (whole = true → x.typ = 1 → mine → 0 < seqAhead x.seq w.next → seqAhead x.seq w.next < 2 ^ 23 → w.held = [] → ch.reorderUse < 16384 →
            Completes (.cellRx c l bs) s (fun u => FabFrame s u c ∧ ((u.chan c).reasm x.src).held = [(ch.ns, x)] ∧
              ((u.chan c).reasm x.src).next = w.next ∧ ((u.chan c).reasm x.src).open_ = w.open_)) ∧
          (whole = true → x.typ = 1 → mine → 2 ^ 23 ≤ seqAhead x.seq w.next → Completes (.cellRx c l bs) s (counts FAB.LATE_CELL)) ∧
          (whole = true → x.typ = 1 → mine → x.seq = w.next → w.open_ = [] → w.held = [] → x.first = true → x.last = false →
            (nbits (beAt x.context 8 1) 2 2 = x.parity ∧ min (nbits (beAt x.context 8 1) 7 6) 2 = min x.colour 2 ∧
                nbits (beAt x.context 8 1) 5 3 = x.tc →
              Completes (.cellRx c l bs) s (fun u => { u.chan c with cad := ch.cad, fab := {}, regs := [], outQ := [] } =
                  { ch with fab := {}, regs := [], outQ := [] } ∧ ((u.chan c).reasm x.src).open_ = [x] ∧
                (u.chan c).cad.reqs = ch.cad.reqs ++ [{ requester := 6, pkt := { ch.pktOf x (List.replicate x.pktLen 0) with reasm := x.src + 1 } }])) ∧
            (nbits (beAt x.context 8 1) 2 2 ≠ x.parity → Completes (.cellRx c l bs) s (counts FAB.CTX_MISMATCH))) ∧
          (whole = true → x.typ = 1 → mine → x.seq = w.next → w.open_ = [] → w.held = [] → x.first = false → w.skip = false →
            Completes (.cellRx c l bs) s (fun u => (u.chan c).nat pgFab FAB.PROTO_ERR = satAdd 32 (ch.nat pgFab FAB.PROTO_ERR) 1 ∧
              ((u.chan c).reasm x.src).skip = true)) ∧
          (whole = true → x.typ = 4 → x.dst = ch.chanId → ∀ q n, x.payload = beBytes 4 (grantEntry (q / 8) (q % 8) n) → q < 0x80000 → 0 < n → n ≤ 4 →
            (ch.sportChan (q / 8)).isSome = true → Completes (.cellRx c l bs) s (fun u => FabFrame s u c ∧
              tget 0 (u.chan c).fab.bal q = min (tget 0 ch.fab.bal q + ((n * 4096 : Nat) : Int))
                ((ch.getF pgFab FAB.CRED_CFG_CRED_MAX * 4096 : Nat) : Int))) ∧
          (whole = true → x.typ = 3 → x.dst = ch.chanId → ∀ p tc, x.payload = beBytes 4 (reqEntry p true tc) → p < 65536 → tc < 8 →
            ch.sportChan p = some ch.chanId → ch.fab.reqs = [] → Completes (.cellRx c l bs) s (fun u => FabFrame s u c ∧
              (u.chan c).fab.reqs = [⟨fld (ch.sportWord p) 17 12, x.src, tc, p, ch.ns⟩]))))) ∧
    (∀ k, (ch.reasm k).held = [] → Completes (.reasmTimeout c k) s same) ∧
    (∀ k, (ch.reasm k).lateLow = 0 → Completes (.reasmResync c k) s same)) ∧
  ((∀ (s : State) (c : Fin 4) (l : Nat), Ready s c →
    let ch := s.chan c
    let same := fun (u : State) => u.chan c = ch
    let y := ch.fabLane l
    (∀ (bs : List Byte), l < 48 → ch.enabled pgFab = true → bs = ({ ch.hello with
        src := 0,
        payload := beBytes 2 9 ++ beBytes 1 (if ch.mesh then 1 else 2) ++ List.replicate 5 0 } : Cell).bytes →
      (ch.fabState l = 2 ∨ ch.fabState l = 6 → ch.mesh = false → Completes (.cellRx c l bs) s (fun u => FabFrame s u c ∧ (u.chan c).fabState l = 3 ∧
        (u.chan c).getF pgFab (FAB.LANE_STAT_PEER_SEEN l) = 9 ∧ ((u.chan c).fabLane l).helloAt = ch.ns ∧
        bit ((u.chan c).get pgFab oCAUSE) 9 = true)) ∧
      (ch.fabState l = 2 → ch.mesh = true → ch.getF pgFab (FAB.LANE_CFG_PEER_CHAN l) = 9 → Completes (.cellRx c l bs) s (fun u => FabFrame s u c ∧
        (u.chan c).fabState l = if ch.getB pgFab (FAB.LANE_CFG_SPARE l) = true ∨ y.replaced = true then 4 else 3)) ∧
      (ch.fabState l = 2 ∨ ch.fabState l = 3 ∨ ch.fabState l = 4 → ch.mesh = true → ch.getF pgFab (FAB.LANE_CFG_PEER_CHAN l) ≠ 9 →
        Completes (.cellRx c l bs) s (fun u => FabFrame s u c ∧ (u.chan c).fabState l = 6 ∧ bit ((u.chan c).get pgFab oCAUSE) 10 = true ∧
          (u.chan c).getF pgFab (FAB.LANE_STAT_PEER_SEEN l) = 9)) ∧
      (ch.fabState l = 3 → ch.mesh = false → Completes (.cellRx c l bs) s (fun u => FabFrame s u c ∧ (u.chan c).fabState l = 3 ∧
        ((u.chan c).fabLane l).helloAt = ch.ns))) ∧
    (48 ≤ l ∨ ch.getB pgFab (FAB.LANE_CFG_EN l) = false ∨ ch.getB pgFab (FAB.LANE_CFG_PD l) = true ∨ 2 ≤ ch.fabState l →
      Completes (.fabLaneTrained c l) s same) ∧
    (∀ fec, 48 ≤ l ∨ ch.fabState l = 0 ∨ ch.fabState l = 3 ∨ ch.fabState l = 5 → Completes (.fabLaneFault c l fec) s same) ∧
    (∀ fec n, 48 ≤ l ∨ ch.fabState l ≠ 3 → Completes (.laneLeaveActive c l fec n) s same) ∧
    (48 ≤ l ∨ y.spareDue = false → Completes (.spareActivate c l) s same) ∧
    (l < 48 → y.spareDue = true →
      firstBelow 48 (fun j => ch.fabState j == 4 && ch.getF pgFab (FAB.LANE_CFG_PEER_CHAN j) == ch.getF pgFab (FAB.LANE_CFG_PEER_CHAN l)) = none →
      Completes (.spareActivate c l) s (fun u => FabFrame s u c ∧ (u.chan c).fabLane l = { y with spareDue := false } ∧
        ∀ j, (u.chan c).fabState j = ch.fabState j)) ∧
    (48 ≤ l ∨ (ch.fabState l ≠ 3 ∧ ch.fabState l ≠ 4) → Completes (.helloLapse c l none) s same) ∧
    (∀ b, tget [] ch.fab.reachAt (4 * l + b % 4) = [] → Completes (.helloLapse c l (some b)) s same) ∧
    (ch.enabled pgFab = false → Completes (.helloTx c) s same) ∧
    (ch.enabled pgFab = true → l < 48 → ch.fabState l ≠ 2 → ch.fabState l ≠ 3 → ch.fabState l ≠ 4 →
      Completes (.helloTx c) s (fun u => FabFrame s u c ∧ (u.chan c).fabLane l = y))) ∧
  (∀ (s : State) (c : Fin 4) (l : Nat) (v : Word), HostReady s c → l < 48 →
    let ch := s.chan c
    let refused := fun (u : State) => FabFrame s u c ∧ (u.chan c).get pgFab (FAB.LANE_CFG l) = ch.get pgFab (FAB.LANE_CFG l) ∧
      workOf (u.chan c) = workOf ch ∧ bit ((u.chan c).get pgFab oCAUSE) 14 = true
    (fld v 30 29 ≠ 3 → (bit v 27 = true ∧ (bit v 31 = true ∨ ch.getB pgFab (FAB.LANE_CFG_EN l) = true)) ∨ (bit v 28 = true ∧ ch.mesh = false) →
      Completes (.fabLaneCfgWrite (.func 0) c l v) s refused) ∧
    (fld v 30 29 ≠ 3 → bit v 28 = false → bit v 31 = false → ch.getB pgFab (FAB.LANE_CFG_EN l) = false →
      Completes (.fabLaneCfgWrite (.func 0) c l v) s (fun u => FabFrame s u c ∧ (u.chan c).fabState l = 0 ∧
        (u.chan c).getB pgFab (FAB.LANE_CFG_PD l) = bit v 27 ∧ (u.chan c).getF pgFab (FAB.LANE_CFG_PEER_CHAN l) = fld v 11 0)) ∧
    (fld v 30 29 ≠ 3 → fld v 28 27 = 0 → bit v 31 = false → Completes (.fabLaneCfgWrite (.func 0) c l v) s (fun u => FabFrame s u c ∧
      (u.chan c).fabState l = 0 ∧ (u.chan c).getB pgFab (FAB.LANE_CFG_EN l) = false)) ∧
    (fld v 30 29 ≠ 3 → fld v 28 27 = 0 → bit v 31 = true → ch.fabState l ≠ 0 → fld v 30 29 ≠ ch.getF pgFab (FAB.LANE_CFG_SPEED l) →
      Completes (.fabLaneCfgWrite (.func 0) c l v) s (fun u => FabFrame s u c ∧ (u.chan c).fabState l = 1 ∧
        (u.chan c).getF pgFab (FAB.LANE_CFG_SPEED l) = fld v 30 29)) ∧
    (fld v 30 29 ≠ 3 → fld v 28 27 = 0 → bit v 31 = true → ch.fabState l ≠ 0 → fld v 30 29 = ch.getF pgFab (FAB.LANE_CFG_SPEED l) →
      Completes (.fabLaneCfgWrite (.func 0) c l v) s (fun u => FabFrame s u c ∧ (u.chan c).fabState l = ch.fabState l ∧
        (u.chan c).getF pgFab (FAB.LANE_CFG_PEER_CHAN l) = fld v 11 0))))

/-- R492, R493: the generator's slots go on, an ON request is repeated, a request not refreshed is removed, and the balance of a VOQ that stays empty returns to 0.

R481, R499–R501: FAB.CFG takes its value while the block is disabled and keeps CHAN_ID while it is enabled; a lane that is enabled trains; the index registers show
the map entries.

R492, R493, R499, R500: credits and the configuration in every state: nothing happens while the block is off, to a VOQ without a request or a
balance, to an entry that is not there; FAB.CFG takes what it may change while the block is enabled; in mesh mode only ACTIVE lanes reach their peer. -/
def Obligations.FabricCreditsAndConfiguration : Prop :=
  (∀ (s : State) (c : Fin 4), Ready s c →
    let ch := s.chan c
    (ch.enabled pgFab = true → Completes (.creditSlot c) s (fun u => FabFrame s u c ∧ (u.chan c).fab.slot =
      if ch.timeNs / 64 + 1 = ch.fab.slot then ch.fab.slot + 1 else ch.timeNs / 64 + 1)) ∧
    (∀ q d, q < 0x80000 → tget false ch.fab.reqOn q = true → ch.sportChan (q / 8) = some d → ch.enabled pgFab = true → ch.reachable d = true →
      Completes (.creditReqRefresh c q) s (fun u => FabFrame s u c ∧ ∃ x ∈ (u.chan c).fab.ctlQ, x.typ = 3 ∧ x.dst = d ∧
        beBytes 4 (reqEntry (q / 8) true (q % 8)) <:+ x.payload)) ∧
    (∀ port src tc x, ch.fab.reqs.find? (fun r => r.port == port && r.src == src && r.tc == tc) = some x →
      Completes (.reqEntryExpiry c port src tc) s (fun u => FabFrame s u c ∧ (u.chan c).fab.reqs = ch.fab.reqs.erase x)) ∧
    (∀ q, q < 0x80000 → tget 0 ch.fab.emptyAt q ≠ 0 →
      Completes (.voqBalanceExpiry c q) s (fun u => FabFrame s u c ∧ tget 0 (u.chan c).fab.bal q = 0))) ∧
  (∀ (s : State) (c : Fin 4), HostReady s c →
    let ch := s.chan c
    (∀ v : Word, (ch.enabled pgFab = false → Completes (.fabCfgWrite (.func 0) c v) s (fun u => FabFrame s u c ∧ (u.chan c).chanId = fld v 11 0 ∧
        (u.chan c).mesh = bit v 31)) ∧
      (ch.enabled pgFab = true → fld v 11 0 ≠ ch.chanId → Completes (.fabCfgWrite (.func 0) c v) s (fun u => FabFrame s u c ∧
        (u.chan c).get pgFab FAB.CFG = ch.get pgFab FAB.CFG ∧ workOf (u.chan c) = workOf ch))) ∧
    (∀ l (v : Word), l < 48 → ch.fabState l = 0 → fld v 30 29 ≠ 3 → fld v 28 27 = 0 → bit v 31 = true →
      Completes (.fabLaneCfgWrite (.func 0) c l v) s (fun u => FabFrame s u c ∧ (u.chan c).fabState l = 1 ∧
        (u.chan c).getB pgFab (FAB.LANE_CFG_EN l) = true ∧ (u.chan c).getF pgFab (FAB.LANE_CFG_PEER_CHAN l) = fld v 11 0)) ∧
    (∀ i, i < 65536 →
      Completes (.sportIdxWrite (.func 0) c i) s (fun u => FabFrame s u c ∧ (u.chan c).get pgFab FAB.SPORT_DATA = ch.sportWord i ∧ workOf (u.chan c) = workOf ch) ∧
      Completes (.mcIdxWrite (.func 0) c i) s (fun u => FabFrame s u c ∧ (u.chan c).get pgFab FAB.MC_DATA = tget 0 ch.fab.mcMap i ∧
        workOf (u.chan c) = workOf ch)) ∧
    (∀ d l, d < 4096 → l < 48 → ch.mesh = false →
      Completes (.reachIdxWrite (.func 0) c d) s (fun u => FabFrame s u c ∧ workOf (u.chan c) = workOf ch ∧
        nbit ((u.chan c).get64 pgFab FAB.REACH) l = nbit (ch.laneReach l) d))) ∧
  ((∀ (s : State) (c : Fin 4), Ready s c →
    let ch := s.chan c
    let same := fun (u : State) => u.chan c = ch
    (ch.enabled pgFab = false → Completes (.creditSlot c) s same) ∧
    (∀ q, 0x80000 ≤ q ∨ tget false ch.fab.reqOn q = false → Completes (.creditReqRefresh c q) s same) ∧
    (∀ q, q < 0x80000 → tget false ch.fab.reqOn q = true → ch.enabled pgFab = false ∨ ch.sportChan (q / 8) = none →
      Completes (.creditReqRefresh c q) s (fun u => FabFrame s u c ∧ (u.chan c).fab.ctlQ = ch.fab.ctlQ ∧
        tget 0 (u.chan c).fab.reqAt q = (u.chan c).ns + 1)) ∧
    (∀ port src tc, ch.fab.reqs.find? (fun r => r.port == port && r.src == src && r.tc == tc) = none →
      Completes (.reqEntryExpiry c port src tc) s same) ∧
    (∀ q, 0x80000 ≤ q ∨ tget 0 ch.fab.emptyAt q = 0 → Completes (.voqBalanceExpiry c q) s same)) ∧
  (∀ (s : State) (c : Fin 4), HostReady s c →
    let ch := s.chan c
    (∀ v : Word, ch.enabled pgFab = true → fld v 11 0 = ch.chanId → bit v 31 = ch.mesh → fld v 22 12 = 0 →
      Completes (.fabCfgWrite (.func 0) c v) s (fun u => FabFrame s u c ∧ (u.chan c).get pgFab FAB.CFG = v)) ∧
    (∀ v : Word, ch.enabled pgFab = true → bit v 31 ≠ ch.mesh → Completes (.fabCfgWrite (.func 0) c v) s (fun u => FabFrame s u c ∧
      (u.chan c).get pgFab FAB.CFG = ch.get pgFab FAB.CFG ∧ bit ((u.chan c).get pgFab oCAUSE) 14 = true)) ∧
    (∀ d l, d < 4096 → l < 48 → ch.mesh = true → Completes (.reachIdxWrite (.func 0) c d) s (fun u => FabFrame s u c ∧
      workOf (u.chan c) = workOf ch ∧ nbit ((u.chan c).get64 pgFab FAB.REACH) l =
        (ch.getF pgFab (FAB.LANE_CFG_PEER_CHAN l) == d && ch.fabState l == 3)))))

/-- R508, R509, R514, R515: training leaves a stack and its groups in service, or fails them; a window that ends unclosed keeps the old settings; a group that drains
too long is marked.

R507, R511, R518–R520: a write makes its word good, a read of a bad word is counted, an access to a paused PC waits; a refresh shows the temperature; a pause is
started by the keeper's tick and ended by its limit.

R507–R509, R511, R512, R514, R515, R517–R520: the stacks in every state: what is not under way changes nothing; a PC that fails in training takes its group
along; an access to a PC that is no longer in service does nothing, one that waits for its source's earlier ones waits, a full queue ends the pause, a corrected and
an uncorrectable word are counted, an activate is counted; a refresh of a paused PC is postponed; the tick starts the fast retrain that was asked for. -/
def Obligations.HbmAccessAndTraining : Prop :=
  (∀ (s : State) (c : Fin 4), Ready s c →
    let ch := s.chan c
    (∀ (st : Fin 2) devId rfm avail, ch.getF (pgHbmc st.val) HBMC.STATUS_STATE = 1 → ch.active.isSome = true →
      Completes (.hbmTrainDone c st 0 [] devId rfm avail) s (fun u => HbmFrame s u c ∧ (u.chan c).getF (pgHbmc st.val) HBMC.STATUS_STATE = 2 ∧
        (∀ j, j < 4 → (u.chan c).grpBase (4 * st.val + j) = 2) ∧ (∀ i, i < 32 → (u.chan c).pcBase (32 * st.val + i) = 2) ∧
        bit ((u.chan c).get (pgHbmc st.val) oCAUSE) 8 = true) ∧
      Completes (.hbmTrainDone c st 1 [] devId rfm avail) s (fun u => HbmFrame s u c ∧ (u.chan c).getF (pgHbmc st.val) HBMC.STATUS_STATE = 3 ∧
        (∀ j, j < 4 → (u.chan c).grpBase (4 * st.val + j) = 6) ∧ bit ((u.chan c).get (pgHbmc st.val) oCAUSE) 9 = true)) ∧
    (∀ g, g < 8 → ch.grpBase g = 5 → Completes (.retrainWindowEnd c g) s (fun u => HbmFrame s u c ∧ (u.chan c).grpBase g = 2 ∧
      (u.chan c).getF (pgHbmc (g / 4)) (HBMC.GRP_STAT_LAST_RESULT (g % 4)) = 3)) ∧
    (∀ g r, ch.hbm.run = some r → r.group = g → g < 8 → ch.hbmGrp g = 3 →
      Completes (.drainSlow c g) s (fun u => HbmFrame s u c ∧ (u.chan c).getF (pgHbmc (g / 4)) (HBMC.GRP_STAT_DRAIN_SLOW (g % 4)) = 1 ∧
        bit ((u.chan c).get (pgHbmc (g / 4)) oCAUSE) 11 = true))) ∧
  (∀ (s : State) (c : Fin 4), Ready s c →
    let ch := s.chan c
    (∀ n (a : HbmAcc), n < 64 → a.addr < 805306368 → a.src < 13 → a.act = false → a.sev = 0 →
      let key := n * 2 ^ 24 + a.addr / 64
      (ch.isPaused n = false → ch.pcBase n = 2 → ch.hbmGrp (n / 8) ≠ 5 →
        (a.write = true → Completes (.hbmAccess c n a) s (fun u => HbmFrame s u c ∧ tget false (u.chan c).hbm.bad key = false ∧
          ∀ j, j ≠ key → tget false (u.chan c).hbm.bad j = tget false ch.hbm.bad j)) ∧
        (a.write = false → a.ecc = 0 → tget false ch.hbm.bad key = false → Completes (.hbmAccess c n a) s (fun u => HbmFrame s u c ∧
          workOf (u.chan c) = workOf ch)) ∧
        (a.write = false → a.ecc ≠ 2 → tget false ch.hbm.bad key = true → Completes (.hbmAccess c n a) s (fun u => HbmFrame s u c ∧
          (u.chan c).nat (pcPg n) HBMC.UNCORR_CNT = satAdd 32 (ch.nat (pcPg n) HBMC.UNCORR_CNT) 1))) ∧
      (ch.isPaused n = true → a.src ≠ 11 → (ch.hbmQueue n).length < 1007 → Completes (.hbmAccess c n a) s (fun u => HbmFrame s u c ∧
        (u.chan c).hbmQueue n = ch.hbmQueue n ++ [a] ∧ (u.chan c).hbm.paused = ch.hbm.paused))) ∧
    (∀ n (temp : Word), n < 64 → ch.enabled (pcPg n) = true → Completes (.hbmRefresh c n temp) s (fun u => HbmFrame s u c ∧
      (u.chan c).getF (pcPg n) HBMC.STATUS_TEMP = temp.toNat % 256 ∧
      (u.chan c).getB (pcPg n) HBMC.STATUS_TEMP_HIGH = decide (85 < toSigned (temp.toNat % 256) 8))) ∧
    (∀ n t, ch.hbm.paused = some (n, t) → n < 64 → Completes (.pauseTimeout c) s (fun u => HbmFrame s u c ∧ (u.chan c).hbm.paused = none ∧
      (u.chan c).hbmQueue n = [] ∧ (u.chan c).pcBase n = 2 ∧
      (u.chan c).nat (pcPg n) HBMC.FAST_ABORT = satAdd 32 (ch.nat (pcPg n) HBMC.FAST_ABORT) 1)) ∧
    (∀ n, ch.fastPick = some n → ch.active.isSome = true → (List.range 8).any (fun g => ch.grpOut g) = false →
      ch.getF (pcPg n) HBMC.RETRAIN_CFG_FAST_INTERVAL ≠ 0 → ch.pauseResult n = 0 →
      Completes (.fastRetrainTick c) s (fun u => HbmFrame s u c ∧ (u.chan c).hbm.paused = some (n, ch.ns) ∧ (u.chan c).hbm.fastNext = (n + 1) % 64))) ∧
  (∀ (s : State) (c : Fin 4), Ready s c →
    let ch := s.chan c
    let same := fun (u : State) => u.chan c = ch
    (∀ (st : Fin 2) f (failed : List (Nat × Nat)) devId rfm (avail : List Nat), ch.getF (pgHbmc st.val) HBMC.STATUS_STATE ≠ 1 ∨ ch.active = none →
      Completes (.hbmTrainDone c st f failed devId rfm avail) s same) ∧
    (∀ (st : Fin 2) i f devId rfm (avail : List Nat), ch.getF (pgHbmc st.val) HBMC.STATUS_STATE = 1 → ch.active.isSome = true → i < 32 →
      Completes (.hbmTrainDone c st 0 [(i, f)] devId rfm avail) s (fun u => HbmFrame s u c ∧ (u.chan c).getF (pgHbmc st.val) HBMC.STATUS_STATE = 2 ∧
        (u.chan c).pcBase (32 * st.val + i) = 5 ∧ (u.chan c).grpBase ((32 * st.val + i) / 8) = 6 ∧
        (∀ j, j < 32 → j ≠ i → (u.chan c).pcBase (32 * st.val + j) = 2) ∧ bit ((u.chan c).get (pgHbmc st.val) oCAUSE) 9 = true)) ∧
    (∀ g, 8 ≤ g ∨ ch.grpBase g ≠ 5 → Completes (.retrainWindowEnd c g) s same) ∧
    (∀ g, ch.hbm.run.all (fun x => x.group != g) = true ∨ 8 ≤ g ∨ ch.hbmGrp g ≠ 3 → Completes (.drainSlow c g) s same) ∧
    (∀ n (a : HbmAcc), 64 ≤ n ∨ 805306368 ≤ a.addr ∨ 13 ≤ a.src ∨ (ch.isPaused n = false ∧ ch.pcBase n ≠ 2) → Completes (.hbmAccess c n a) s same) ∧
    (∀ n (a : HbmAcc), n < 64 → a.addr < 805306368 → a.src < 13 →
      let key := n * 2 ^ 24 + a.addr / 64
      (ch.isPaused n = false → ch.pcBase n = 2 → ch.hbmGrp (n / 8) ≠ 5 → a.src ≠ 11 → ch.hbm.waiting.any (fun e => e.2.src == a.src) = true →
        Completes (.hbmAccess c n a) s (fun u => HbmFrame s u c ∧ (u.chan c).hbm = { ch.hbm with waiting := ch.hbm.waiting ++ [(n, a)] })) ∧
      (ch.isPaused n = true → a.src ≠ 11 → (ch.hbmQueue n).length = 1007 → Completes (.hbmAccess c n a) s (fun u => HbmFrame s u c ∧
        (u.chan c).hbm.paused = none ∧ (u.chan c).hbmQueue n = [] ∧ (u.chan c).pcBase n = 2 ∧
        (u.chan c).nat (pcPg n) HBMC.FAST_ABORT = satAdd 32 (ch.nat (pcPg n) HBMC.FAST_ABORT) 1)) ∧
      (a.write = false → ch.isPaused n = false → ch.pcBase n = 2 → ch.hbmGrp (n / 8) ≠ 5 → ch.hbm.waiting = [] →
        (a.ecc = 1 → tget false ch.hbm.bad key = false → Completes (.hbmAccess c n a) s (fun u => HbmFrame s u c ∧
          (u.chan c).nat (pcPg n) HBMC.CORR_CNT = satAdd 32 (ch.nat (pcPg n) HBMC.CORR_CNT) 1 ∧
          (u.chan c).nat (pcPg n) HBMC.UNCORR_CNT = ch.nat (pcPg n) HBMC.UNCORR_CNT)) ∧
        (a.ecc = 2 → Completes (.hbmAccess c n a) s (fun u => HbmFrame s u c ∧ tget false (u.chan c).hbm.bad key = true ∧
          (u.chan c).nat (pcPg n) HBMC.UNCORR_CNT = satAdd 32 (ch.nat (pcPg n) HBMC.UNCORR_CNT) 1 ∧ bit ((u.chan c).get (pcPg n) oCAUSE) 12 = true)) ∧
        (a.ecc = 0 → a.act = true → tget false ch.hbm.bad key = false → ch.getB (pcPg n) HBMC.ROWD_CFG_RFM_EN = false →
          Completes (.hbmAccess c n a) s (fun u => HbmFrame s u c ∧ tget 0 (u.chan c).hbm.acts (n * 1024 + a.bank % 1024) =
            tget 0 ch.hbm.acts (n * 1024 + a.bank % 1024) + 1)))) ∧
    (∀ n (temp : Word), 64 ≤ n ∨ ch.enabled (pcPg n) = false → Completes (.hbmRefresh c n temp) s same) ∧
    (∀ n (temp : Word), n < 64 → ch.enabled (pcPg n) = true → ch.isPaused n = true → Completes (.hbmRefresh c n temp) s (fun u => HbmFrame s u c ∧
      (u.chan c).hbm = { ch.hbm with refDue := ch.hbm.refDue ++ [(n, temp)] } ∧ (u.chan c).getF (pcPg n) HBMC.STATUS_TEMP = ch.getF (pcPg n) HBMC.STATUS_TEMP)) ∧
    (ch.hbm.paused = none → Completes (.pauseTimeout c) s same) ∧
    (ch.active = none ∨ ch.fastWaits = true ∨ (ch.hbm.svcFast = none ∧ ch.fastPick = none) → Completes (.fastRetrainTick c) s same) ∧
    (∀ k tag m, ch.active.isSome = true → ch.fastWaits = false → ch.hbm.svcFast = some (k, tag, m) → ch.isPaused m = false →
      (ch.pauseResult m = 0 → Completes (.fastRetrainTick c) s (fun u => HbmFrame s u c ∧ (u.chan c).hbm.paused = some (m, ch.ns) ∧
        (u.chan c).hbm.svcFast = ch.hbm.svcFast)) ∧
      (ch.pauseResult m ≠ 0 → Completes (.fastRetrainTick c) s (fun u => HbmFrame s u c ∧ (u.chan c).hbm.svcFast = none ∧
        (u.chan c).hbm.paused = ch.hbm.paused))))

/-- R510, R511, R521, R529: the active keeper's training commands complete with their result: PAUSE, RESUME and RESTORE of a PC, PATTERN and SET_TIMING of a paused PC,
repairs of a row whose PC has spares, and FAIL.

R515, R522, R531: the service commands of the HBM controllers: HBM_STATUS, FULL_RETRAIN fences the group's regions, ABORT_RETRAIN ends it, FAST_RETRAIN pauses its PC, and the
repair log is saved and loaded.

R510, R511, R514, R521, R523, R529: the training commands of either keeper in every state, with their results: 2 on a PC that is neither paused nor in a group that
retrains, 6 for operands that do not exist, 5 without a spare row; on a group that retrains they act, RESUME and RESTORE close its window, and FAIL ends its retrain.

R112, R515, R522, R531: the service commands with arguments that do not exist complete with BAD_ARG, in the wrong state with REFUSED, and with DMA_ERROR
where host memory does not answer; a log that is not good is refused; nothing else changes. -/
def Obligations.HbmTrainingCommandsAndServices : Prop :=
  (∀ (s : State) (c : Fin 4) (st : Fin 2) (pc : Nat), KeeperReady s c 0 → pc < 32 →
    let ch := s.chan c
    let n := 32 * st.val + pc
    let p := pgHbmc st.val
    let arg := ch.nat p HBMC.KTRAIN_ARG
    let stat := fun (u : State) (res : Nat) => (u.chan c).nat p HBMC.KTRAIN_STAT = 2 ^ 30 + res * 2 ^ 16 + ch.getF p HBMC.KTRAIN_STAT_ERRORS
    (ch.pauseResult n = 0 → Completes (.pause .keeperA c st pc) s (fun u => HbmFrame s u c ∧ stat u 0 ∧ (u.chan c).hbm.paused = some (n, ch.ns) ∧
      (u.chan c).pcBase n = 3)) ∧
    (ch.pauseResult n ≠ 0 → Completes (.pause .keeperA c st pc) s (fun u => HbmFrame s u c ∧ stat u (ch.pauseResult n) ∧ workOf (u.chan c) = workOf ch)) ∧
    (ch.isPaused n = true →
      Completes (.hbmResume .keeperA c st false pc) s (fun u => HbmFrame s u c ∧ stat u 0 ∧ (u.chan c).hbm.paused = none ∧ (u.chan c).pcBase n = 2) ∧
      Completes (.restore .keeperA c st false pc) s (fun u => HbmFrame s u c ∧ stat u 0 ∧ (u.chan c).hbm.paused = none ∧ (u.chan c).pcBase n = 2) ∧
      (arg % 8 < 5 → Completes (.pattern .keeperA c st pc) s (fun u => HbmFrame s u c ∧ fld ((u.chan c).get p HBMC.KTRAIN_STAT) 31 16 = 2 ^ 14 ∧
        (u.chan c).hbm = ch.hbm)) ∧
      Completes (.setTiming .keeperA c st pc) s (fun u => HbmFrame s u c ∧ stat u 0 ∧
        tget 0 (u.chan c).hbm.timing ((n * 64 + nbits arg 31 26) * 1024 + nbits arg 25 16) = arg % 65536) ∧
      (arg / 256 < 3072 → ch.getF p (HBMC.PC_STAT_PPR_AVAIL pc) ≠ 0 →
        Completes (.sppr .keeperA c st pc) s (fun u => HbmFrame s u c ∧ stat u 0 ∧ (u.chan c).hppr = ch.hppr ∧
          (u.chan c).nat p HBMC.SPPR_CNT = satAdd 32 (ch.nat p HBMC.SPPR_CNT) 1) ∧
        Completes (.hppr .keeperA c st pc) s (fun u => HbmFrame s u c ∧ stat u 0 ∧ (u.chan c).hppr = ch.hppr ++ [hpprKey n arg] ∧
          (u.chan c).nat p HBMC.HPPR_CNT = satAdd 32 (ch.nat p HBMC.HPPR_CNT) 1))) ∧
    Completes (.hbmFail .keeperA c st false pc) s (fun u => HbmFrame s u c ∧ stat u 0 ∧ (u.chan c).pcBase n = 5 ∧ (u.chan c).grpBase (n / 8) = 6) ∧
    Completes (.hbmFail .keeperA c st true pc) s (fun u => HbmFrame s u c ∧ stat u 0 ∧ (u.chan c).grpBase (4 * st.val + pc % 4) = 6 ∧
      (u.chan c).getF p (HBMC.GRP_STAT_LAST_RESULT (pc % 4)) = 2)) ∧
  (∀ (s : State) (c : Fin 4) (k : Fin 2) (tag : Nat), SvcReady s c k tag →
    let ch := s.chan c
    let a := ch.svcArg k.val
    let resp := fun (u : State) (i : Nat) => (u.chan c).nat (pgKeep k.val) (KEEP.SVC_RESP i)
    (a 0 < 8 →
      Completes (.hbmStatus (.func 0) c k tag) s (fun u => HbmFrame s u c ∧ SvcDone u c k tag 0 ∧
        fld (BitVec.ofNat 32 (resp u 0)) 31 29 = ch.hbmGrp (a 0) ∧ (u.chan c).hbm = ch.hbm) ∧
      (a 1 < 65536 → a 2 < 65536 → ch.hbmGrp (a 0) = 2 → (List.range 8).any (fun q => q != a 0 && ch.grpOut q) = false →
        ch.getF (pgHbmc (a 0 / 4)) HBMC.STATUS_STATE = 2 →
        Completes (.fullRetrain (.func 0) c k tag) s (fun u => HbmFrame s u c ∧ SvcDone u c k tag 0 ∧
          (∀ e ∈ ch.grpRegions (a 0), regionAccepts 3 e.2.st = true → ((u.chan c).hbmRegion e.1).st = 3) ∧
          (u.chan c).hbm.run = some { group := a 0, window := if a 1 = 0 then 10000 else a 1, warn := if a 2 = 0 then 1000 else a 2,
                                      since := ch.ns, at_ := ch.ns })) ∧
      (ch.hbmGrp (a 0) = 3 ∨ ch.hbmGrp (a 0) = 4 →
        Completes (.abortRetrain (.func 0) c k tag) s (fun u => HbmFrame s u c ∧ SvcDone u c k tag 0 ∧
          (u.chan c).getF (pgHbmc (a 0 / 4)) (HBMC.GRP_STAT_LAST_RESULT (a 0 % 4)) = 3 ∧
          ∀ r, (u.chan c).hbm.run = some r → r.group ≠ a 0))) ∧
    (a 0 < 64 →
      (ch.fastWaits = false → ch.pauseResult (a 0) = 0 → Completes (.fastRetrain (.func 0) c k tag) s (fun u => HbmFrame s u c ∧
        (u.chan c).getB (pgKeep k.val) KEEP.SVC_STAT_BUSY = true ∧ (u.chan c).hbm.paused = some (a 0, ch.ns) ∧
        (u.chan c).hbm.svcFast = some (k.val, tag, a 0))) ∧
      (ch.fastWaits = true → Completes (.fastRetrain (.func 0) c k tag) s (fun u => HbmFrame s u c ∧
        (u.chan c).getB (pgKeep k.val) KEEP.SVC_STAT_BUSY = true ∧ (u.chan c).hbm = { ch.hbm with svcFast := some (k.val, tag, a 0) })) ∧
      (ch.fastWaits = false → ch.pauseResult (a 0) ≠ 0 → Completes (.fastRetrain (.func 0) c k tag) s (fun u => HbmFrame s u c ∧ SvcDone u c k tag 0 ∧
        resp u 0 = ch.pauseResult (a 0) ∧ (u.chan c).hbm = ch.hbm))) ∧
    (a 0 < 2 → s.hostReach c = true →
      (ch.getF (pgHbmc (a 0)) HBMC.STATUS_STATE ≠ 1 → Completes (.repairLogSave (.func 0) c k tag false) s (fun u => HbmFrame s u c ∧ SvcDone u c k tag 0 ∧
        resp u 0 = (ch.rlog k.val (a 0)).length % 2 ^ 32 ∧ Out.dma 2 [a 1 + a 2 * 2 ^ 32] (ch.rlogRecord k.val (a 0)) ∈ u.out)) ∧
      (∀ rec_, ch.enabled (pgHbmc (a 0)) = false → rlogOk (a 0) rec_ = true →
        Completes (.repairLogLoad (.func 0) c k tag rec_ false) s (fun u => HbmFrame s u c ∧ SvcDone u c k tag 0 ∧
          (u.chan c).rlog k.val (a 0) = rlogRows rec_ (ch.ns / 1000000000))))) ∧
  (∀ (s : State) (c : Fin 4) (k st : Fin 2) (pc : Nat), KeeperReady s c k → pc < 32 →
    let ch := s.chan c
    let q := if k.val = 0 then Req.keeperA else Req.keeperB
    let n := 32 * st.val + pc
    let g := 4 * st.val + pc % 4
    let p := pgHbmc st.val
    let arg := ch.nat p HBMC.KTRAIN_ARG
    let stat := fun (u : State) (res : Nat) => (u.chan c).nat p HBMC.KTRAIN_STAT = 2 ^ 30 + res * 2 ^ 16 + ch.getF p HBMC.KTRAIN_STAT_ERRORS
    let only := fun (res : Nat) (u : State) => HbmFrame s u c ∧ stat u res ∧ workOf (u.chan c) = workOf ch
    (ch.isPaused n = false → Completes (.hbmResume q c st false pc) s (only 2) ∧ Completes (.restore q c st false pc) s (only 2)) ∧
    (ch.grpBase g ≠ 5 → Completes (.hbmResume q c st true pc) s (only 2) ∧ Completes (.restore q c st true pc) s (only 2)) ∧
    (ch.grpBase g = 5 →
      Completes (.hbmResume q c st true pc) s (fun u => HbmFrame s u c ∧ stat u 0 ∧ (u.chan c).grpBase g = 2 ∧
        (u.chan c).getF p (HBMC.GRP_STAT_LAST_RESULT (pc % 4)) = 1) ∧
      Completes (.restore q c st true pc) s (fun u => HbmFrame s u c ∧ stat u 0 ∧ (u.chan c).grpBase g = 2 ∧
        (u.chan c).getF p (HBMC.GRP_STAT_LAST_RESULT (pc % 4)) = 3)) ∧
    (5 ≤ arg % 8 → Completes (.pattern q c st pc) s (only 6)) ∧
    (3072 ≤ arg / 256 → Completes (.sppr q c st pc) s (only 6) ∧ Completes (.hppr q c st pc) s (only 6)) ∧
    (ch.helped n = false →
      (arg % 8 < 5 → Completes (.pattern q c st pc) s (only 2)) ∧ Completes (.setTiming q c st pc) s (only 2) ∧
      (arg / 256 < 3072 → Completes (.sppr q c st pc) s (only 2) ∧ Completes (.hppr q c st pc) s (only 2))) ∧
    (ch.isPaused n = false → ch.hbmGrp (n / 8) = 5 →
      (arg % 8 < 5 → Completes (.pattern q c st pc) s (fun u => HbmFrame s u c ∧ fld ((u.chan c).get p HBMC.KTRAIN_STAT) 31 16 = 2 ^ 14 ∧
        (u.chan c).hbm = ch.hbm)) ∧
      Completes (.setTiming q c st pc) s (fun u => HbmFrame s u c ∧ stat u 0 ∧
        tget 0 (u.chan c).hbm.timing ((n * 64 + nbits arg 31 26) * 1024 + nbits arg 25 16) = arg % 65536) ∧
      (arg / 256 < 3072 → Completes (.hppr q c st pc) s (fun u => HbmFrame s u c ∧ stat u (if ch.hasSpare n then 0 else 5) ∧
        (u.chan c).hppr = if ch.hasSpare n then ch.hppr ++ [hpprKey n arg] else ch.hppr) ∧ Completes (.sppr q c st pc) s (fun u => HbmFrame s u c ∧
        stat u (if ch.hasSpare n then 0 else 5) ∧ (u.chan c).hppr = ch.hppr ∧
        bit ((u.chan c).get p oCAUSE) (if ch.hasSpare n then 13 else 14) = true))) ∧
    (∀ x, ch.hbm.run = some x → x.group = g → Completes (.hbmFail q c st true pc) s (fun u => stat u 0 ∧ (u.chan c).grpBase g = 6 ∧
      (u.chan c).hbm.run = none ∧ bit ((u.chan c).get p oCAUSE) 10 = true))) ∧
  (∀ (s : State) (c : Fin 4) (k : Fin 2) (tag : Nat), SvcReady s c k tag →
    let ch := s.chan c
    let a := ch.svcArg k.val
    let ends := fun (status : Nat) (u : State) => HbmFrame s u c ∧ SvcDone u c k tag status ∧ (u.chan c).hbm = ch.hbm ∧ (u.chan c).cad = ch.cad ∧
      ∀ st, (u.chan c).rlog k.val st = ch.rlog k.val st
    (8 ≤ a 0 → Completes (.hbmStatus (.func 0) c k tag) s (ends 2) ∧ Completes (.fullRetrain (.func 0) c k tag) s (ends 2) ∧
      Completes (.abortRetrain (.func 0) c k tag) s (ends 2)) ∧
    (a 0 < 8 →
      (65536 ≤ a 1 ∨ 65536 ≤ a 2 → Completes (.fullRetrain (.func 0) c k tag) s (ends 2)) ∧
      (a 1 < 65536 → a 2 < 65536 → ch.hbmGrp (a 0) ≠ 2 ∨ ch.getF (pgHbmc (a 0 / 4)) HBMC.STATUS_STATE ≠ 2 →
        Completes (.fullRetrain (.func 0) c k tag) s (ends 4)) ∧
      (ch.hbmGrp (a 0) ≠ 3 → ch.hbmGrp (a 0) ≠ 4 → Completes (.abortRetrain (.func 0) c k tag) s (ends 4))) ∧
    (64 ≤ a 0 → Completes (.fastRetrain (.func 0) c k tag) s (ends 2)) ∧
    (∀ (e : Bool) (bs : List Byte), 2 ≤ a 0 → Completes (.repairLogSave (.func 0) c k tag e) s (ends 2) ∧
      Completes (.repairLogLoad (.func 0) c k tag bs e) s (ends 2)) ∧
    (∀ (e : Bool), a 0 < 2 →
      (ch.getF (pgHbmc (a 0)) HBMC.STATUS_STATE = 1 → Completes (.repairLogSave (.func 0) c k tag e) s (ends 4)) ∧
      (ch.getF (pgHbmc (a 0)) HBMC.STATUS_STATE ≠ 1 → e = true ∨ s.hostReach c = false → Completes (.repairLogSave (.func 0) c k tag e) s (ends 7)) ∧
      (∀ (bs : List Byte),
        (ch.enabled (pgHbmc (a 0)) = true → Completes (.repairLogLoad (.func 0) c k tag bs e) s (ends 4)) ∧
        (ch.enabled (pgHbmc (a 0)) = false → e = true ∨ s.hostReach c = false → Completes (.repairLogLoad (.func 0) c k tag bs e) s (ends 7)) ∧
        (ch.enabled (pgHbmc (a 0)) = false → e = false → s.hostReach c = true → rlogOk (a 0) bs = false →
          Completes (.repairLogLoad (.func 0) c k tag bs e) s (ends 2)))))

/-- R540–R543, R546, R129: doorbells and arms of rings, a FREE descriptor, records placed in the open buffer, its closing, and the journal stream.

R129, R392, R540–R543, R546, R547, R549: rings in every state, for every function: a member's doorbell and arm are the ring's, another function's are
counted; nothing is read for a ring that does not run, or whose turn it is not; the outcomes of an inject descriptor and of a table command; a record that
its ring cannot take is dropped and counted, one that finds no open buffer opens the next; a buffer that cannot be written stops the ring. -/
def Obligations.RingsCarryDescriptorsAndRecords : Prop :=
  (∀ (s : State) (c : Fin 4) (p r : Nat), HostReady s c → p < 32 → r < 32 → ringExists p r = true →
    let ch := s.chan c
    let x := ch.ring p r
    let ring := fun (u : State) => (u.chan c).ring p r
    ((ch.part p).member 0 = true → ∀ tail, tail < 65536 →
      ((x.runs && toPart r && decide (2 ^ x.log2 < (tail + 65536 - x.head) % 65536)) = false →
        Completes (.doorbell 0 c p r tail) s (fun u => HostFrame s u c ∧ ring u = { x with tail := tail } ∧ (u.chan c).regs = ch.regs)) ∧
      (x.runs = true → toPart r = true → 2 ^ x.log2 < (tail + 65536 - x.head) % 65536 →
        Completes (.doorbell 0 c p r tail) s (fun u => HostFrame s u c ∧ (ring u).tail = tail ∧ (ring u).error = true ∧ (ring u).errCode = 1 ∧
          bit ((u.chan c).get pgPart oCAUSE) 10 = true))) ∧
    ((ch.part p).member 0 = true →
      (x.done = false → Completes (.irqArm 0 c p r) s (fun u => HostFrame s u c ∧ ring u = { x with arm := true })) ∧
      (x.done = true → Completes (.irqArm 0 c p r) s (fun u => HostFrame s u c ∧ ring u = { x with arm := false, done := false }))) ∧
    ((ch.part p).member 0 = false → ∀ tail, Completes (.doorbell 0 c p r tail) s (fun u => (∀ d, u.chan d = s.chan d) ∧
      u.isl.nat hpHost HOST.REJ_OWN_CNT = satAdd 32 (s.isl.nat hpHost HOST.REJ_OWN_CNT) 1)) ∧
    (∀ desc data : List Byte, ch.enabled pgPart = true → toPart r = true → x.runs = true → x.stopped = false → x.head ≠ x.tail →
      s.hostReach c = true → r = 17 ∨ ch.injTurn (p * 32 + r) = true →
      (Completes (.descConsume c p r desc data true false) s (fun u => HostFrame s u c ∧ (ring u).error = true ∧ (ring u).errCode = 2 ∧ (ring u).head = x.head)) ∧
      (r < 16 → leAt desc 10 1 / 64 = 1 → handleOk (leAt desc 24 4) = true →
        ch.freeResult (leAt desc 24 4) (leAt desc 12 2 % 4096) (some p) = 0 → (ch.buf (leAt desc 24 4)).refs = 0 →
        Completes (.descConsume c p r desc data false false) s (fun u => HostFrame s u c ∧ (ring u).head = (x.head + 1) % 65536 ∧
          (u.chan c).buf (leAt desc 24 4) = {}))) ∧
    (∀ q b desc, ch.enabled pgPart = true → ch.recQ.find? (fun q => q.part == p && q.ring == r) = some q → x.runs = true →
      x.stopped = false → s.hostReach c = true → x.buf = some b → up8 b.used + q.bytes.length ≤ b.len →
      Completes (.recordPost c p r desc false false) s (fun u => HostFrame s u c ∧ (u.chan c).recQ = ch.recQ.erase q ∧ (ring u).buf =
        some { b with used := up8 b.used + q.bytes.length, records := b.records + 1, time := if b.records = 0 then q.time else b.time,
                      since := if b.records = 0 then ch.ns else b.since })) ∧
    (∀ b, ch.enabled pgPart = true → x.runs = true → s.hostReach c = true → x.buf = some b →
      Completes (.packTimeout c p r false) s (fun u => RingTimed s u c ∧ (ring u).buf = none ∧ (ring u).head = (x.head + 1) % 65536)) ∧
    (∀ k b desc, p = 0 → r = 19 → ch.active = some k → ch.getB pgJrnl JRNL.CTRL_STREAM_EN = true → 0 < (ch.region k).jrnl.unsent →
      x.runs = true → x.stopped = false → s.hostReach c = true → x.buf = some b → up8 b.used + 32 ≤ b.len →
      Completes (.jrnlStreamEntry c desc false false) s (fun u => HostFrame s u c ∧ ((u.chan c).region k).jrnl.unsent = (ch.region k).jrnl.unsent - 1 ∧
        ((u.chan c).region k).jrnl.streamIdx = ((ch.region k).jrnl.streamIdx + 1) % 16384))) ∧
  (∀ (s : State) (c : Fin 4) (p n : Nat), HostReady s c → p < 32 → n < 32 →
    let ch := s.chan c
    let x := ch.ring p n
    let ring := fun (u : State) => (u.chan c).ring p n
    let same := fun (u : State) => u.chan c = ch
    (∀ f tail, s.reachFn f = true →
      (ringExists p n = true → (ch.part p).member f = true → tail < 65536 → x.runs = false ∨ toPart n = false →
        Completes (.doorbell f c p n tail) s (fun u => HostFrame s u c ∧ ring u = { x with tail := tail })) ∧
      (ringExists p n = true → (ch.part p).member f = true → x.done = false →
        Completes (.irqArm f c p n) s (fun u => HostFrame s u c ∧ ring u = { x with arm := true })) ∧
      (ringExists p n = true → (ch.part p).member f = false → Completes (.irqArm f c p n) s (fun u => (∀ d, u.chan d = s.chan d) ∧
        u.isl.nat hpHost HOST.REJ_OWN_CNT = satAdd 32 (s.isl.nat hpHost HOST.REJ_OWN_CNT) 1)) ∧
      (ringExists p n = false → Completes (.doorbell f c p n tail) s (fun u => (∀ d, u.chan d = s.chan d) ∧
        u.isl.nat hpHost HOST.UNIMPL_CNT = satAdd 32 (s.isl.nat hpHost HOST.UNIMPL_CNT) 1) ∧
        Completes (.irqArm f c p n) s (fun u => (∀ d, u.chan d = s.chan d) ∧
        u.isl.nat hpHost HOST.UNIMPL_CNT = satAdd 32 (s.isl.nat hpHost HOST.UNIMPL_CNT) 1))) ∧
    (∀ (desc data : List Byte) (e g : Bool),
      ch.enabled pgPart = false ∨ ringExists p n = false ∨ toPart n = false ∨ x.runs = false ∨ x.stopped = true ∨ x.head = x.tail ∨
        s.hostReach c = false ∨ (n < 16 ∧ ch.injTurn (p * 32 + n) = false) → Completes (.descConsume c p n desc data e g) s same) ∧
    (∀ (desc data : List Byte) (e : Bool), ch.enabled pgPart = true → ringExists p n = true → toPart n = true → x.runs = true → x.stopped = false →
      x.head ≠ x.tail → s.hostReach c = true →
      let op := leAt desc 10 1 / 64
      let port := leAt desc 10 1 % 64
      let len := leAt desc 8 2
      let flags := leAt desc 11 1
      let counts := fun (d : Nat) (u : State) => (ring u).head = (x.head + 1) % 65536 ∧ (ring u).error = false ∧
        ((u.chan c).part p).injErr = ((ch.part p).injErr + d) % 2 ^ 64
      (n < 16 → ch.injTurn (p * 32 + n) = true → op = 0 → ch.injStatus p port len flags e ≠ 0 →
        Completes (.descConsume c p n desc data false e) s (fun u => HostFrame s u c ∧ counts 1 u)) ∧
      (n < 16 → ch.injTurn (p * 32 + n) = true → op = 0 → ch.injStatus p port len flags e = 0 → ch.injRoom p = false →
        Completes (.descConsume c p n desc data false e) s same) ∧
      (n < 16 → ch.injTurn (p * 32 + n) = true → op = 0 → ch.injStatus p port len flags e = 0 → ch.injRoom p = true →
        Completes (.descConsume c p n desc data false e) s (fun u => (ring u).head = (x.head + 1) % 65536 ∧
          (u.chan c).prs.qIn.dropLast = ch.prs.qIn ∧ ((u.chan c).part p).inject = ((ch.part p).inject + 1) % 2 ^ 64 ∧
          (u.chan c).prs.qIn.getLast?.map (fun k => (k.bytes, k.port, k.injected, k.part)) =
            some (withFcs (sliceBytes data 0 len), port, true, p))) ∧
      (n < 16 → ch.injTurn (p * 32 + n) = true → 2 ≤ op ∨ (op = 1 ∧ (nbits flags 6 1 ≠ 0 ∨ 4096 ≤ leAt desc 12 2 ∨ handleOk (leAt desc 24 4) = false)) →
        Completes (.descConsume c p n desc data false e) s (fun u => HostFrame s u c ∧ counts 1 u ∧ (u.chan c).cad = ch.cad)) ∧
      (n < 16 → ch.injTurn (p * 32 + n) = true → op = 1 → nbits flags 6 1 = 0 → leAt desc 12 2 < 4096 → handleOk (leAt desc 24 4) = true →
        ch.freeResult (leAt desc 24 4) (leAt desc 12 2 % 4096) (some p) ≠ 0 →
        Completes (.descConsume c p n desc data false e) s (fun u => HostFrame s u c ∧ counts 1 u ∧
          (u.chan c).buf (leAt desc 24 4) = ch.buf (leAt desc 24 4))) ∧
      (n = 17 → nbits flags 6 1 ≠ 0 ∨ e = true → Completes (.descConsume c p n desc data false e) s (fun u => HostFrame s u c ∧ counts 0 u)) ∧
      (n = 17 → nbits flags 6 1 = 0 → ch.tValid (blockCmd p data).table = false → Completes (.descConsume c p n desc data false false) s (fun u =>
        (ring u).head = (x.head + 1) % 65536 ∧ Out.dma 4 [leAt desc 0 8 + 12, ((ch.part p).ident x.ident).toNat]
          (leBytes 4 ({ status := tsBadTable } : TAns).stat) ∈ u.out))) ∧
    (∀ (desc : List Byte) (e g : Bool), ch.enabled pgPart = false ∨ ch.recQ.find? (fun q => q.part == p && q.ring == n) = none →
      Completes (.recordPost c p n desc e g) s same) ∧
    (∀ q (desc : List Byte), ch.enabled pgPart = true → ch.recQ.find? (fun q => q.part == p && q.ring == n) = some q →
      let gone := fun (u : State) => (u.chan c).recQ = ch.recQ.erase q
      (∀ (e g : Bool), n ≠ 16 → s.hostReach c = false ∨ x.runs = false → Completes (.recordPost c p n desc e g) s (fun u => HostFrame s u c ∧ gone u ∧
        ring u = { x with drop := satAdd 32 x.drop 1, lost := true })) ∧
      (∀ (e g : Bool), n ≠ 16 → s.hostReach c = true → x.runs = true → x.buf = none → x.head = x.tail →
        Completes (.recordPost c p n desc e g) s (fun u => HostFrame s u c ∧ gone u ∧ ring u = { x with drop := satAdd 32 x.drop 1, lost := true })) ∧
      (∀ (g : Bool), n ≠ 16 → s.hostReach c = true → x.runs = true → x.buf = none → x.head ≠ x.tail →
        Completes (.recordPost c p n desc true g) s (fun u => HostFrame s u c ∧ gone u ∧ (ring u).error = true ∧ (ring u).errCode = 2)) ∧
      (s.hostReach c = true → x.runs = true → x.stopped = false → x.buf = none → x.head ≠ x.tail → 256 ≤ leAt desc 8 4 → leAt desc 8 4 ≤ 65536 →
        leAt desc 8 4 % 64 = 0 → q.bytes.length ≤ leAt desc 8 4 →
        Completes (.recordPost c p n desc false false) s (fun u => HostFrame s u c ∧ gone u ∧ (ring u).head = x.head ∧ (ring u).buf =
          some { addr := leAt desc 0 8, len := leAt desc 8 4, used := q.bytes.length, records := 1, time := q.time, since := ch.ns }) ∧
        (n ≠ 16 → Completes (.recordPost c p n desc false true) s (fun u => HostFrame s u c ∧ gone u ∧ (ring u).error = true ∧ (ring u).errCode = 3))) ∧
      (s.hostReach c = true → x.runs = true → x.buf = none → x.head ≠ x.tail → leAt desc 8 4 < 256 →
        Completes (.recordPost c p n desc false false) s (fun u => HostFrame s u c ∧ (ring u).head = (x.head + 1) % 65536 ∧ (ring u).buf = none ∧
          (u.chan c).recQ = q :: ch.recQ.erase q))) ∧
    (∀ (g : Bool), x.buf = none ∨ x.runs = false ∨ ch.enabled pgPart = false → Completes (.packTimeout c p n g) s same) ∧
    (∀ b (g : Bool), ch.enabled pgPart = true → x.runs = true → x.buf = some b → g = true ∨ s.hostReach c = false →
      Completes (.packTimeout c p n g) s (fun u => RingTimed s u c ∧ (ring u).buf = none ∧ (ring u).error = true ∧ (ring u).errCode = 3 ∧
        (ring u).drop = if b.records = 0 then x.drop else satAdd 32 x.drop b.records)) ∧
    (∀ (desc : List Byte) (e g : Bool), ch.active = none ∨ ch.getB pgJrnl JRNL.CTRL_STREAM_EN = false ∨ (ch.ring 0 19).runs = false ∨
      s.hostReach c = false → Completes (.jrnlStreamEntry c desc e g) s same) ∧
    (∀ k (desc : List Byte) (e g : Bool), ch.active = some k → (ch.region k).jrnl.unsent = 0 ∨ ((ch.ring 0 19).buf = none ∧ (ch.ring 0 19).head = (ch.ring 0 19).tail) →
      Completes (.jrnlStreamEntry c desc e g) s same))

/-- R552, R553, R555, R556: the commands on a partition in the states that accept them, and the steps of its quiesce.

R550, R551, R564: the selected ring is enabled and disabled, an identity of the selected partition is written, and a port passes from partition 0 to another;
writes out of place are refused with their codes.

R550–R556, R564: the PART commands with their results in every state, and what is refused: 1 in the wrong state, 2 for partition 0, 3 to 5 what stands in
the way of REMOVE; a quiesce step that is not under way changes nothing; a ring that is enabled keeps its size and its identity; an identity in use stays. -/
def Obligations.PartitionsAndTheirConfiguration : Prop :=
  (∀ (s : State) (c : Fin 4) (p : Nat), HostReady s c → p < 32 →
    let ch := s.chan c
    let x := ch.part p
    let part := fun (u : State) => (u.chan c).part p
    let ok := fun (u : State) => fld ((u.chan c).get pgPart PART.CMD_STAT) 30 16 = 2 ^ 14
    (ch.enabled pgPart = true →
      (p ≠ 0 → x.state = 0 → Completes (.partCreate (.func 0) c p) s (fun u => OtherPartsKept s u c p ∧ ok u ∧ part u = { state := 1 })) ∧
      (x.state ≠ 0 → p ≠ 0 → Completes (.partCreate (.func 0) c p) s (fun u => OtherPartsKept s u c p ∧ part u = x ∧
        fld ((u.chan c).get pgPart PART.CMD_STAT) 30 16 = 2 ^ 14 + 1)) ∧
      (x.state = 1 → Completes (.partQuiesce (.func 0) c p) s (fun u => OtherPartsKept s u c p ∧ (part u).state = 2 ∧ (part u).step = 1 ∧ (part u).qStart = ch.ns ∧
        (u.chan c).getB pgPart PART.CMD_STAT_BUSY = true ∧ ∀ r, 8 ≤ r → r < 16 → ((u.chan c).ring p r).stopped = true)) ∧
      (x.state = 3 →
        Completes (.partResume (.func 0) c p) s (fun u => OtherPartsKept s u c p ∧ ok u ∧ (part u).state = 1 ∧
          (∀ a, a < 4096 → (ch.acct a).part = p → ((u.chan c).acct a).st = 1) ∧ ∀ r, r < 20 → ((u.chan c).ring p r).stopped = false) ∧
        Completes (.partReset (.func 0) c p) s (fun u => OtherPartsKept s u c p ∧ ok u ∧ (part u).state = 3 ∧ (part u).punt = 0 ∧ (part u).inject = 0 ∧
          ∀ r, r < 32 → ((u.chan c).ring p r).en = false) ∧
        (p ≠ 0 → ch.removeResult p = 0 → Completes (.partRemove (.func 0) c p) s (fun u => OtherPartsKept s u c p ∧ ok u ∧ (part u).state = 0 ∧
          (∀ q, q < 64 → (u.chan c).portPart q ≠ p) ∧ ∀ a, a < 4096 → ((u.chan c).acct a).part ≠ p)))) ∧
    (x.state = 2 →
      (ch.stepEnded p = true → x.step < 5 → Completes (.quiesceStepDone c p) s (fun u => OtherPartsKept s u c p ∧ (part u).state = 2 ∧ (part u).step = x.step + 1)) ∧
      (ch.stepEnded p = true → x.step = 5 → Completes (.quiesceStepDone c p) s (fun u => OtherPartsKept s u c p ∧ ok u ∧ (part u).state = 3)) ∧
      ((x.step = 1 ∨ x.step = 3 ∨ ch.stepEnded p = false) → x.step ≤ 5 → Completes (.quiesceStepTimeout c p) s (fun u => OtherPartsKept s u c p ∧
        (part u).state = (if x.step = 5 then 3 else 2) ∧ (part u).failStep = if x.failStep = 0 then x.step else x.failStep)))) ∧
  (∀ (s : State) (c : Fin 4) (v : Word), HostReady s c →
    let ch := s.chan c
    let p := ch.ringSel.1
    let r := ch.ringSel.2
    let x := ch.ring p r
    (ringExists p r = true → 6 ≤ fld v 28 24 → fld v 28 24 ≤ 16 →
      (x.en = false → bit v 31 = true → ch.ringRefusal (fun n => (s.isl.vecOwner n).1) p r v = 0 →
        Completes (.ringCfgWrite (.func 0) c v) s (fun u => HostFrame s u c ∧ let y := (u.chan c).ring p r
          y.en = true ∧ y.log2 = fld v 28 24 ∧ y.ident = fld v 23 22 ∧ y.vector = fld v 21 11 ∧ y.base = x.base ∧ y.head = 0 ∧ y.tail = 0)) ∧
      (x.en = true → bit v 31 = false → fld v 28 24 = x.log2 → fld v 23 22 = x.ident →
        Completes (.ringCfgWrite (.func 0) c v) s (fun u => HostFrame s u c ∧ ((u.chan c).ring p r).en = false ∧ ((u.chan c).ring p r).buf = none))) ∧
    (∀ k : Fin 4, ¬ (ch.selPart = 0 ∧ k.val = 0) →
      ((List.range 32).any (fun q => q != ch.selPart && (List.range 4).any (fun j => idConflict v ((ch.part q).ident j))) = false →
        (List.range 32).any (fun j => (ch.ring ch.selPart j).en && (ch.ring ch.selPart j).ident == k.val) = false →
        Completes (.identWrite (.func 0) c k v) s (fun u => HostFrame s u c ∧ let w := ((u.chan c).part ch.selPart).ident k.val
          fld w 31 30 = fld v 31 30 ∧ fld w 26 20 = fld v 26 20 ∧ fld w 19 0 = fld v 19 0)) ∧
      ((List.range 32).any (fun q => q != ch.selPart && (List.range 4).any (fun j => idConflict v ((ch.part q).ident j))) = true →
        Completes (.identWrite (.func 0) c k v) s (fun u => HostFrame s u c ∧ (u.chan c).nat pgPart PART.REFUSE = 1 ∧ workOf (u.chan c) = workOf ch))) ∧
    (∀ q, q < 64 →
      (ch.portPart q = 0 → fld v 4 0 ≠ 0 → (ch.part (fld v 4 0)).state ≠ 0 →
        Completes (.portOwnWrite (.func 0) c q v) s (fun u => HostFrame s u c ∧ (u.chan c).portPart q = fld v 4 0 ∧
          ∀ m, m < 64 → m ≠ q → (u.chan c).portPart m = ch.portPart m)) ∧
      (ch.portPart q ≠ 0 → fld v 4 0 ≠ ch.portPart q → (ch.part (ch.portPart q)).state ≠ 3 →
        Completes (.portOwnWrite (.func 0) c q v) s (fun u => HostFrame s u c ∧ (u.chan c).nat pgPart PART.REFUSE = 3 ∧ workOf (u.chan c) = workOf ch)))) ∧
  ((∀ (s : State) (c : Fin 4) (p : Nat), HostReady s c → p < 32 →
    let ch := s.chan c
    let x := ch.part p
    let same := fun (u : State) => u.chan c = ch
    let only := fun (res : Nat) (u : State) => HostFrame s u c ∧ (∀ m, m < 32 → (u.chan c).part m = ch.part m) ∧
      fld ((u.chan c).get pgPart PART.CMD_STAT) 30 16 = 2 ^ 14 + res ∧ bit ((u.chan c).get pgPart oCAUSE) 8 = true
    (ch.enabled pgPart = false →
      Completes (.partCreate (.func 0) c p) s (fun u => HostFrame s u c ∧ workOf (u.chan c) = workOf ch) ∧
      Completes (.partQuiesce (.func 0) c p) s (fun u => HostFrame s u c ∧ workOf (u.chan c) = workOf ch) ∧
      Completes (.partResume (.func 0) c p) s (fun u => HostFrame s u c ∧ workOf (u.chan c) = workOf ch) ∧
      Completes (.partReset (.func 0) c p) s (fun u => HostFrame s u c ∧ workOf (u.chan c) = workOf ch) ∧
      Completes (.partRemove (.func 0) c p) s (fun u => HostFrame s u c ∧ workOf (u.chan c) = workOf ch)) ∧
    (ch.enabled pgPart = true →
      (p = 0 → Completes (.partCreate (.func 0) c p) s (only 2) ∧ Completes (.partRemove (.func 0) c p) s (only 2)) ∧
      (x.state ≠ 1 → Completes (.partQuiesce (.func 0) c p) s (only 1)) ∧
      (x.state ≠ 3 → Completes (.partResume (.func 0) c p) s (only 1) ∧ Completes (.partReset (.func 0) c p) s (only 1)) ∧
      (x.state ≠ 3 → p ≠ 0 → Completes (.partRemove (.func 0) c p) s (only 1)) ∧
      (x.state = 3 → p ≠ 0 → ch.removeResult p ≠ 0 → Completes (.partRemove (.func 0) c p) s (only (ch.removeResult p)))) ∧
    (x.state ≠ 2 → Completes (.quiesceStepDone c p) s same ∧ Completes (.quiesceStepTimeout c p) s same) ∧
    (ch.stepEnded p = false → Completes (.quiesceStepDone c p) s same) ∧
    (ch.stepEnded p = true → x.step ≠ 1 → x.step ≠ 3 → Completes (.quiesceStepTimeout c p) s same)) ∧
  (∀ (s : State) (c : Fin 4) (v : Word), HostReady s c →
    let ch := s.chan c
    let p := ch.ringSel.1
    let n := ch.ringSel.2
    let x := ch.ring p n
    let owner := fun m => (s.isl.vecOwner m).1
    let refused := fun (code : Nat) (u : State) => HostFrame s u c ∧ (u.chan c).nat pgPart PART.REFUSE = code ∧ workOf (u.chan c) = workOf ch
    let cfg := fun (w : Word) => bit w 31 = bit v 31 ∧ fld w 28 24 = fld v 28 24 ∧ fld w 23 22 = fld v 23 22 ∧ fld w 21 11 = fld v 21 11
    (6 ≤ fld v 28 24 → fld v 28 24 ≤ 16 →
      (ringExists p n = false → Completes (.ringCfgWrite (.func 0) c v) s (fun u => HostFrame s u c ∧ bit ((u.chan c).get pgPart oCAUSE) 0 = true ∧
        (u.chan c).rings = ch.rings)) ∧
      (ringExists p n = true → x.en = true → fld v 28 24 ≠ x.log2 ∨ fld v 23 22 ≠ x.ident → Completes (.ringCfgWrite (.func 0) c v) s (refused 4)) ∧
      (ringExists p n = true → x.en = false ∨ (fld v 28 24 = x.log2 ∧ fld v 23 22 = x.ident) → bit v 31 = true → ch.ringRefusal owner p n v ≠ 0 →
        Completes (.ringCfgWrite (.func 0) c v) s (refused (ch.ringRefusal owner p n v))) ∧
      (ringExists p n = true → x.en = true → fld v 28 24 = x.log2 → fld v 23 22 = x.ident → bit v 31 = true → ch.ringRefusal owner p n v = 0 →
        Completes (.ringCfgWrite (.func 0) c v) s (fun u => HostFrame s u c ∧ cfg ((u.chan c).ring p n).cfg ∧
          (u.chan c).ring p n = { x with cfg := ((u.chan c).ring p n).cfg })) ∧
      (ringExists p n = true → x.en = false → bit v 31 = false → Completes (.ringCfgWrite (.func 0) c v) s (fun u => HostFrame s u c ∧
        cfg ((u.chan c).ring p n).cfg ∧ (u.chan c).ring p n = { x with cfg := ((u.chan c).ring p n).cfg }))) ∧
    (ch.selPart = 0 → Completes (.identWrite (.func 0) c 0 v) s (fun u => HostFrame s u c ∧ workOf (u.chan c) = workOf ch)) ∧
    (∀ k : Fin 4, ¬ (ch.selPart = 0 ∧ k.val = 0) → bit v 31 ≠ bit ((ch.part ch.selPart).ident k.val) 31 →
      (List.range 32).any (fun q => q != ch.selPart && (List.range 4).any (fun j => idConflict v ((ch.part q).ident j))) = false →
      (List.range 32).any (fun j => (ch.ring ch.selPart j).en && (ch.ring ch.selPart j).ident == k.val) = true →
      Completes (.identWrite (.func 0) c k v) s (refused 2)) ∧
    (∀ q, q < 64 →
      (fld v 4 0 = ch.portPart q → Completes (.portOwnWrite (.func 0) c q v) s (fun u => HostFrame s u c ∧ workOf (u.chan c) = workOf ch ∧
        (u.chan c).portPart q = ch.portPart q)) ∧
      (fld v 4 0 ≠ ch.portPart q → ch.portPart q = 0 ∨ (ch.part (ch.portPart q)).state = 3 → (ch.part (fld v 4 0)).state = 0 →
        Completes (.portOwnWrite (.func 0) c q v) s (refused 7)) ∧
      (fld v 4 0 ≠ ch.portPart q → (ch.part (ch.portPart q)).state = 3 → (ch.part (fld v 4 0)).state ≠ 0 →
        Completes (.portOwnWrite (.func 0) c q v) s (fun u => HostFrame s u c ∧ (u.chan c).portPart q = fld v 4 0)))))

/-- R565–R571, R574: the commands and events of the tests: START of a free target runs it, a target that is not there is refused, STOP, CLEAR and INJECT act on it, a pending
test starts, and tests end by duration or by the bank's result; the checker locks and loses its lock.

R572, R573, R578, R581, R598: BIST takes the channel to WAIT_FW after both dies; DUMP shows a buffer's bytes; a redundant lane replaces a bridge lane; a Saucer
direction without a lane takes the link down.

R565–R571, R574, R576: the tests in every state: nothing starts while the page is disabled; a START is refused with its code, or waits; what does not run is
neither stopped nor ended nor counted; a waiting test of a FlexE client that cannot be tested is refused; the checker of a lane in FAR loopback does not lock.

R572, R573, R578–R582, R591, R598: BIST and the lanes of the die links in every state: BIST of a die ends once, a keeper's SRAM or an array that cannot be
repaired is remembered; a dump of a handle that names no buffer, of a poisoned part, or with the page disabled says so; a lane already bad, or beyond the module, changes
nothing; a spare lane that stands for none is marked; a module without a spare is halved. -/
def Obligations.TestsAndBist : Prop :=
  (∀ (s : State) (c : Fin 4) (die : Fin 2),
    let ch := s.chan c
    let kind := ch.getF (pgTest die.val) TEST.SEL_KIND
    let idx := ch.getF (pgTest die.val) TEST.SEL_INDEX
    let k := ch.selKey die.val
    let x := ch.test k
    let test := fun (u : State) => (u.chan c).test k
    (HostReady s c →
      (ch.enabled (pgTest die.val) = true →
        (targetOk die.val kind idx = true → x.st ≠ 1 → x.st ≠ 2 → ch.patternOk kind idx (fld x.cfg 19 16) = true →
          ch.testUse die.val kind idx = none → (kind = 3 → ch.clientOk idx = true) →
          Completes (.testStart (.func 0) c die) s (fun u => (test u).st = 2 ∧ (test u).bits = 0 ∧ (test u).err = 0 ∧ (test u).cfg = x.cfg ∧
            (test u).since = ch.ns)) ∧
        (targetOk die.val kind idx = false → Completes (.testStart (.func 0) c die) s (fun u => (test u).st = 5 ∧ (test u).refuse = 3))) ∧
      (x.st = 2 → ∀ bits errs, Completes (.testStop (.func 0) c die bits errs) s (fun u => (test u).st = 4 ∧ (test u).lock = false)) ∧
      Completes (.testClear (.func 0) c die) s (fun u => TestFrame s u c ∧ test u = { x with bits := 0, err := 0, loss := 0 }) ∧
      (x.st = 2 → x.lock = true → bit x.cfg 28 = true → x.err + 1 < 2 ^ 48 →
        Completes (.testInject (.func 0) c die) s (fun u => TestFrame s u c ∧ (test u).err = x.err + 1 ∧ (test u).st = 2)) ∧
      (∀ (v : Word) bits errs, let y := ch.test (testKey die.val (fld v 31 28) (fld v 15 0))
        fld v 31 28 ≤ 4 → y.st = 2 → y.lock = true → y.bits + bits < 2 ^ 48 → y.err + errs < 2 ^ 48 →
        Completes (.testSelWrite (.func 0) c die v bits errs) s (fun u => TestFrame s u c ∧
          (u.chan c).selKey die.val = testKey die.val (fld v 31 28) (fld v 15 0) ∧
          ((u.chan c).test (testKey die.val (fld v 31 28) (fld v 15 0))).bits = y.bits + bits ∧
          ((u.chan c).test (testKey die.val (fld v 31 28) (fld v 15 0))).err = y.err + errs))) ∧
    (Ready s c → ∀ kd i, targetOk die.val kd i = true →
      let y := ch.test (testKey die.val kd i)
      let after := fun (u : State) => (u.chan c).test (testKey die.val kd i)
      (ch.enabled (pgTest die.val) = true → y.st = 1 → ch.testUse die.val kd i = none → kd ≠ 3 →
        Completes (.pendingTestStart c die kd i) s (fun u => (after u).st = 2 ∧ (after u).bits = 0)) ∧
      (y.st = 2 → fld y.cfg 15 0 ≠ 0 → kd ≠ 4 → ∀ bits errs,
        Completes (.testDurationEnd c die kd i bits errs) s (fun u => (after u).st = 3 ∧ (after u).lock = false)) ∧
      (y.st = 2 → bit y.cfg 27 = true → fld y.cfg 30 29 ≠ 2 → kd ≠ 4 →
        Completes (.checkerLocked c die kd i) s (fun u => TestFrame s u c ∧ after u = { y with lock := true } ∧ (u.chan c).regs = ch.regs)) ∧
      (y.st = 2 → y.lock = true → ∀ bits errs,
        Completes (.checkerLockLoss c die kd i bits errs) s (fun u => TestFrame s u c ∧ (after u).lock = false ∧ (after u).loss = satAdd 32 y.loss 1 ∧
          bit ((u.chan c).get (pgTest die.val) oCAUSE) 9 = true))) ∧
    (∀ bank n, Ready s c → bank < 68 → ch.bankTested bank = true →
      Completes (.bankTestDone c bank n) s (fun u => ((u.chan c).test (testKey 0 4 bank)).st = 3 ∧
        ((u.chan c).test (testKey 0 4 bank)).fail = min n 65535))) ∧
  (∀ (s : State) (c : Fin 4),
    let ch := s.chan c
    (∀ die : Fin 2, s.hasChan c = true → s.chState c = 2 → ch.outQ = [] → nbit ch.bistDone die.val = false → ch.bistDone < 4 →
      Completes (.bistDone c die ⟨0, 0, 0, false, false, 0⟩) s (fun u => (u.chan c).nat (pgTest die.val) TEST.BIST_STAT = 0xC000FFFF ∧
        nbit (u.chan c).bistDone die.val = true ∧ u.chState c = if nbit ch.bistDone (1 - die.val) then 3 else 2)) ∧
    (∀ off, HostReady s c → off < 2 ^ 14 → off % 64 = 0 → ch.enabled (pgTest 1) = true →
      let h := ch.nat (pgTest 1) TEST.DUMP_HANDLE
      let b := ch.buf h
      let stored := ch.bufHeader b h ++ sliceBytes b.pkt.ctx 0 64 ++ b.pkt.bytes
      handleOk h = true →
      (b.inUse = false → Completes (.dump (.func 0) c off) s (fun u => (u.chan c).nat (pgTest 1) TEST.DUMP_STAT = 2 ^ 30 + 1)) ∧
      (b.inUse = true → b.poison = [] → Completes (.dump (.func 0) c off) s (fun u => (u.chan c).nat (pgTest 1) TEST.DUMP_STAT = 2 ^ 30 ∧
        (b.queue ≠ 0 → (queueWord (b.queue - 1)).isSome = true → ∀ i, i < 16 → off + 4 * i + 4 ≤ stored.length →
          (u.chan c).nat (pgTest 1) (TEST.DUMP_DATA i) = leAt stored (off + 4 * i) 4)))) ∧
    (∀ (dir : Fin 2) m lane r, s.chPages c = true → s.chState c ≠ 6 → ch.outQ = [] → m < 8 → lane < 64 →
      (ch.brDir dir.val m).bad.contains lane = false → (ch.brDir dir.val m).sub.any (fun e => e.2 == lane) = false → ch.modState m ≠ 2 →
      ch.freeLane dir.val m = some r →
      Completes (.laneRepair c dir m lane) s (fun u => (r, lane) ∈ ((u.chan c).brDir dir.val m).sub ∧
        ((u.chan c).brDir dir.val m).bad = (ch.brDir dir.val m).bad ++ [lane] ∧
        (u.chan c).nat (pgBrdg dir.val) BRDG.REPAIR_CNT = satAdd 32 (ch.nat (pgBrdg dir.val) BRDG.REPAIR_CNT) 1)) ∧
    (∀ lane, Ready s c → lane < 4 → nbit (ch.nat (pgBrdg 0) BRDG.SAUCER) lane = true →
      Completes (.saucerLaneFail c lane) s (fun u =>
        (u.chan c).nat (pgBrdg 0) BRDG.SAUCER = setNbit (ch.nat (pgBrdg 0) BRDG.SAUCER) lane false ∧
        (u.chan c).nat (pgBrdg 1) BRDG.SAUCER = setNbit (ch.nat (pgBrdg 0) BRDG.SAUCER) lane false ∧
        (nbit (ch.nat (pgBrdg 0) BRDG.SAUCER) (lane / 2 * 2 + 1 - lane % 2) = false → ch.nat (pgBrdg 0) BRDG.SAUCER < 16 →
          (u.chan c).saucerUp = false)))) ∧
  (∀ (s : State) (c : Fin 4) (die : Fin 2),
    let ch := s.chan c
    let kind := ch.getF (pgTest die.val) TEST.SEL_KIND
    let idx := ch.getF (pgTest die.val) TEST.SEL_INDEX
    let k := ch.selKey die.val
    let x := ch.test k
    let on := ch.enabled (pgTest die.val)
    let test := fun (u : State) => (u.chan c).test k
    let quiet := fun (u : State) => TestFrame s u c ∧ (u.chan c).tests = ch.tests
    let refused := fun (code : Nat) (u : State) => TestFrame s u c ∧ test u = { x with st := 5, refuse := code } ∧
      bit ((u.chan c).get (pgTest die.val) oCAUSE) 10 = true
    (HostReady s c →
      (on = false → Completes (.testStart (.func 0) c die) s quiet) ∧
      (on = true → targetOk die.val kind idx = true → x.st = 1 ∨ x.st = 2 → Completes (.testStart (.func 0) c die) s (fun u => TestFrame s u c ∧
        test u = { x with refuse := 2 } ∧ bit ((u.chan c).get (pgTest die.val) oCAUSE) 10 = true)) ∧
      (on = true → targetOk die.val kind idx = true → x.st ≠ 1 → x.st ≠ 2 → ch.patternOk kind idx (fld x.cfg 19 16) = false →
        Completes (.testStart (.func 0) c die) s (refused 6)) ∧
      (∀ code, on = true → targetOk die.val kind idx = true → x.st ≠ 1 → x.st ≠ 2 → ch.patternOk kind idx (fld x.cfg 19 16) = true →
        ch.testUse die.val kind idx = some code →
        (bit x.cfg 31 = true → Completes (.testStart (.func 0) c die) s (fun u => TestFrame s u c ∧ test u = { x with st := 1, refuse := 0 })) ∧
        (bit x.cfg 31 = false → Completes (.testStart (.func 0) c die) s (refused code))) ∧
      (on = true → targetOk die.val kind idx = true → x.st ≠ 1 → x.st ≠ 2 → ch.patternOk kind idx (fld x.cfg 19 16) = true →
        ch.testUse die.val kind idx = none → kind = 3 → ch.clientOk idx = false → Completes (.testStart (.func 0) c die) s (refused 3)) ∧
      (∀ bits errs, x.st ≠ 2 → Completes (.testStop (.func 0) c die bits errs) s quiet) ∧
      (x.st ≠ 2 ∨ x.lock = false ∨ bit x.cfg 28 = false → Completes (.testInject (.func 0) c die) s quiet) ∧
      (∀ (v : Word) bits errs, let y := ch.test (testKey die.val (fld v 31 28) (fld v 15 0))
        fld v 31 28 ≤ 4 → y.st ≠ 2 ∨ y.lock = false → Completes (.testSelWrite (.func 0) c die v bits errs) s (fun u => quiet u ∧
          (u.chan c).selKey die.val = testKey die.val (fld v 31 28) (fld v 15 0)))) ∧
    (Ready s c → ∀ kd i,
      let y := ch.test (testKey die.val kd i)
      let after := fun (u : State) => (u.chan c).test (testKey die.val kd i)
      let same := fun (u : State) => u.chan c = ch
      (on = false ∨ targetOk die.val kd i = false ∨ y.st ≠ 1 ∨ (ch.testUse die.val kd i).isSome = true → Completes (.pendingTestStart c die kd i) s same) ∧
      (on = true → targetOk die.val kd i = true → y.st = 1 → ch.testUse die.val kd i = none → kd = 3 →
        (ch.clientOk i = true → Completes (.pendingTestStart c die kd i) s (fun u => TestFrame s u c ∧ (after u).st = 2 ∧ (after u).bits = 0)) ∧
        (ch.clientOk i = false → Completes (.pendingTestStart c die kd i) s (fun u => TestFrame s u c ∧ after u = { y with st := 5, refuse := 3 }))) ∧
      (∀ bits errs, targetOk die.val kd i = false ∨ y.st ≠ 2 ∨ fld y.cfg 15 0 = 0 ∨ kd = 4 → Completes (.testDurationEnd c die kd i bits errs) s same) ∧
      (y.st ≠ 2 ∨ bit y.cfg 27 = false ∨ kd = 4 ∨ (kd < 2 ∧ fld y.cfg 30 29 = 2) → Completes (.checkerLocked c die kd i) s same) ∧
      (y.st = 2 → bit y.cfg 27 = true → 2 ≤ kd → kd ≠ 4 → Completes (.checkerLocked c die kd i) s (fun u => TestFrame s u c ∧
        after u = { y with lock := true })) ∧
      (∀ bits errs, y.st ≠ 2 ∨ y.lock = false → Completes (.checkerLockLoss c die kd i bits errs) s same)) ∧
    (∀ bank n, Ready s c → 68 ≤ bank ∨ ch.bankTested bank = false → Completes (.bankTestDone c bank n) s (fun u => u.chan c = ch))) ∧
  (∀ (s : State) (c : Fin 4),
    let ch := s.chan c
    let same := fun (u : State) => u.chan c = ch
    (∀ (die : Fin 2) (b : BistIn), s.hasChan c = false ∨ s.chState c ≠ 2 ∨ nbit ch.bistDone die.val = true →
      Completes (.bistDone c die b) s (fun u => u = s)) ∧
    (∀ (die : Fin 2) (b : BistIn), s.hasChan c = true → s.chState c = 2 → ch.outQ = [] → nbit ch.bistDone die.val = false → ch.bistDone < 4 →
      (b.other = false → b.keeper = true → Completes (.bistDone c die b) s (fun u => bit ((u.chan c).get (pgTest die.val) TEST.BIST_STAT) 31 = true ∧
        bit ((u.chan c).get (pgTest die.val) TEST.BIST_STAT) 30 = false ∧ ((u.chan c).keeper die.val).sramBad = true ∧
        nbit (u.chan c).bistDone die.val = true ∧ u.chState c = if nbit ch.bistDone (1 - die.val) then 3 else 2)) ∧
      (b.other = true → Completes (.bistDone c die b) s (fun u => u.chState c = 6 ∧ nbit (u.chan c).bistDone die.val = true))) ∧
    (∀ off, HostReady s c → off < 2 ^ 14 → off % 64 = 0 →
      let h := ch.nat (pgTest 1) TEST.DUMP_HANDLE
      let b := ch.buf h
      let ends := fun (n : Nat) (u : State) => Keeps s u c [pgTest 1] (fun w => w) ∧ (u.chan c).nat (pgTest 1) TEST.DUMP_STAT = n
      (ch.enabled (pgTest 1) = false → Completes (.dump (.func 0) c off) s (ends (ch.nat (pgTest 1) TEST.DUMP_STAT))) ∧
      (ch.enabled (pgTest 1) = true → handleOk h = false → Completes (.dump (.func 0) c off) s (ends (2 ^ 30 + 2))) ∧
      (ch.enabled (pgTest 1) = true → handleOk h = true → b.inUse = true → b.poison.any (fun x => decide (off ≤ x) && decide (x < off + 64)) = true →
        Completes (.dump (.func 0) c off) s (ends (2 ^ 30 + 3)))) ∧
    (∀ off, HostReady s c → off < 2 ^ 14 → off % 64 ≠ 0 → Completes (.dump (.func 0) c off) s (fun u =>
      bit ((u.chan c).get (pgTest 1) oCAUSE) 0 = true ∧ (u.chan c).nat (pgTest 1) TEST.DUMP_STAT = ch.nat (pgTest 1) TEST.DUMP_STAT)) ∧
    (∀ (dir : Fin 2) m lane, s.chPages c = false ∨ s.chState c = 6 ∨ 8 ≤ m ∨ 68 ≤ lane → Completes (.laneRepair c dir m lane) s (fun u => u = s)) ∧
    (∀ (dir : Fin 2) m lane, s.chPages c = true → s.chState c ≠ 6 → ch.outQ = [] → m < 8 → lane < 68 →
      let b := ch.brDir dir.val m
      (b.bad.contains lane = true ∨ ch.modState m = 2 → Completes (.laneRepair c dir m lane) s same) ∧
      (64 ≤ lane → b.bad.contains lane = false → ch.modState m ≠ 2 → b.sub.any (fun e => e.1 == lane) = false →
        Completes (.laneRepair c dir m lane) s (fun u => ((u.chan c).brDir dir.val m).bad = b.bad ++ [lane] ∧
          (u.chan c).nat (pgBrdg dir.val) BRDG.REPAIR_CNT = ch.nat (pgBrdg dir.val) BRDG.REPAIR_CNT)) ∧
      (lane < 64 → b.bad.contains lane = false → ch.modState m = 0 → b.free = [] → b.sub.any (fun e => e.2 == lane) = false →
        ch.unrepaired m = [] →
        Completes (.laneRepair c dir m lane) s (fun u => (u.chan c).modState m = 1 ∧ bit ((u.chan c).get (pgBrdg 0) oCAUSE) 9 = true ∧
          bit ((u.chan c).get (pgBrdg 1) oCAUSE) 9 = true ∧ (u.chan c).nat (pgBrdg dir.val) BRDG.REPAIR_CNT =
            ch.nat (pgBrdg dir.val) BRDG.REPAIR_CNT))) ∧
    (∀ lane, Ready s c → 4 ≤ lane ∨ nbit (ch.nat (pgBrdg 0) BRDG.SAUCER) lane = false → Completes (.saucerLaneFail c lane) s same))
end

