-- ==== Sys2Proof/Laws/Tab.lean ====
section
/-! SUPPORT. Laws of the sparse tables that hold all indexed state: what a read finds after a write or a clear, and that both
keep the canonical form; and the laws of the bit fields of a word. -/

namespace Sys2Proof.Machine

variable {α : Type}

theorem rget_rdel_same (d : Nat → α) (t : Tab α) (k : Nat) : rget d (rdel t k) k = d k := by
  induction t with
  | nil => rfl
  | cons e t ih =>
    obtain ⟨k', v⟩ := e
    by_cases h : k' = k <;> simp_all [rdel, rget]

theorem rget_rdel_ne (d : Nat → α) (t : Tab α) {j k : Nat} (h : j ≠ k) : rget d (rdel t k) j = rget d t j := by
  induction t with
  | nil => rfl
  | cons e t ih =>
    obtain ⟨k', v⟩ := e
    by_cases hk : k' = k
    · subst hk; simp_all [rdel, rget, Ne.symm h]
    · simp_all [rdel, rget]

theorem rget_rins_ne (d : Nat → α) (t : Tab α) (v : α) {j k : Nat} (h : j ≠ k) : rget d (rins k v t) j = rget d t j := by
  induction t with
  | nil => simp [rins, rget, Ne.symm h]
  | cons e t ih =>
    obtain ⟨k', v'⟩ := e
    by_cases hk : k' < k <;> simp [rins, hk, rget, ih, Ne.symm h]

theorem rget_rins_same (d : Nat → α) (t : Tab α) (k : Nat) (v : α) : rget d (rins k v (rdel t k)) k = v := by
  induction t with
  | nil => simp [rdel, rins, rget]
  | cons e t ih =>
    obtain ⟨k', v'⟩ := e
    by_cases hk : k' = k
    · simpa [rdel, hk] using ih
    · have hf : rdel ((k', v') :: t) k = (k', v') :: rdel t k := by simp [rdel, hk]
      rw [hf]
      by_cases hl : k' < k
      · simp only [rins, hl, if_true, rget, hk, if_false, ih]
      · simp only [rins, hl, if_false, rget, if_true]

/-- `rput` without its match. -/
theorem rput_eq [DecidableEq α] (d : Nat → α) (t : Tab α) (k : Nat) (v : α) :
    rput d t k v = if v = d k then rdel t k else rins k v (rdel t k) := by cases t <;> rfl

/-- A read finds what was written. -/
@[simp] theorem rget_rput_same [DecidableEq α] (d : Nat → α) (t : Tab α) (k : Nat) (v : α) : rget d (rput d t k v) k = v := by
  rw [rput_eq]
  split
  · rename_i h; rw [rget_rdel_same, h]
  · exact rget_rins_same d t k v

/-- A write leaves every other key as it was. -/
theorem rget_rput_ne [DecidableEq α] (d : Nat → α) (t : Tab α) (v : α) {j k : Nat} (h : j ≠ k) :
    rget d (rput d t k v) j = rget d t j := by
  rw [rput_eq]
  split
  · exact rget_rdel_ne d t h
  · rw [rget_rins_ne d _ v h, rget_rdel_ne d t h]

theorem rget_rput [DecidableEq α] (d : Nat → α) (t : Tab α) (v : α) (j k : Nat) :
    rget d (rput d t k v) j = if j = k then v else rget d t j := by
  by_cases h : j = k
  · subst h; simp
  · simp [h, rget_rput_ne]

@[simp] theorem tget_tput_same [DecidableEq α] (d : α) (t : Tab α) (k : Nat) (v : α) : tget d (tput d t k v) k = v :=
  rget_rput_same _ t k v

theorem tget_tput_ne [DecidableEq α] (d : α) (t : Tab α) (v : α) {j k : Nat} (h : j ≠ k) :
    tget d (tput d t k v) j = tget d t j := rget_rput_ne _ t v h

theorem tget_tput [DecidableEq α] (d : α) (t : Tab α) (v : α) (j k : Nat) :
    tget d (tput d t k v) j = if j = k then v else tget d t j := rget_rput _ t v j k

@[simp] theorem tget_nil (d : α) (k : Nat) : tget d [] k = d := rfl

/-- A clear returns the keys of its range to the default and leaves every other key. -/
theorem rget_tclear (d : Nat → α) (t : Tab α) (lo hi k : Nat) :
    rget d (tclear t lo hi) k = if lo ≤ k ∧ k < hi then d k else rget d t k := by
  induction t with
  | nil => simp [tclear, rget]
  | cons e t ih =>
    obtain ⟨k', v⟩ := e
    simp only [tclear] at ih
    by_cases hc : lo ≤ k' ∧ k' < hi
    · have : rget d (tclear ((k', v) :: t) lo hi) k = rget d (tclear t lo hi) k := by simp [tclear, hc]
      rw [this]; simp only [tclear]; rw [ih]
      by_cases hk : k' = k
      · subst hk; simp [hc]
      · simp [rget, hk]
    · have : rget d (tclear ((k', v) :: t) lo hi) k = if k' = k then v else rget d (tclear t lo hi) k := by
        have hd : (!(decide (lo ≤ k') && decide (k' < hi))) = true := by
          simp only [Bool.not_eq_true', Bool.and_eq_false_iff, decide_eq_false_iff_not]; omega
        simp only [tclear, List.filter_cons, hd, if_true, rget]
      rw [this]; simp only [tclear]; rw [ih]
      by_cases hk : k' = k
      · subst hk; simp [hc, rget]
      · simp [rget, hk]

/-! The canonical form. -/

theorem rwf_filter [DecidableEq α] (d : Nat → α) (p : Nat × α → Bool) : ∀ t : Tab α, rwf d t = true → rwf d (t.filter p) = true
  | [], _ => rfl
  | (k, v) :: t, h => by
    simp only [rwf, Bool.and_eq_true, decide_eq_true_eq, List.all_eq_true] at h
    have ih := rwf_filter d p t h.2
    by_cases hp : p (k, v) = true
    · simp only [List.filter_cons, hp, if_true, rwf, Bool.and_eq_true, decide_eq_true_eq, List.all_eq_true]
      exact ⟨⟨h.1.1, fun e he => h.1.2 e (List.mem_filter.mp he).1⟩, ih⟩
    · simp only [List.filter_cons, hp]; exact ih

theorem mem_rins {t : Tab α} {k : Nat} {v : α} {e : Nat × α} (h : e ∈ rins k v t) : e = (k, v) ∨ e ∈ t := by
  induction t with
  | nil => simpa [rins] using h
  | cons f t ih =>
    obtain ⟨k', v'⟩ := f
    by_cases hk : k' < k
    · simp only [rins, hk, if_true, List.mem_cons] at h
      rcases h with h | h
      · exact .inr (by simp [h])
      · rcases ih h with h | h
        · exact .inl h
        · exact .inr (List.mem_cons_of_mem _ h)
    · simpa [rins, hk] using h

theorem rwf_rins [DecidableEq α] (d : Nat → α) (k : Nat) (v : α) (hv : v ≠ d k) :
    ∀ t : Tab α, rwf d t = true → (∀ e ∈ t, e.1 ≠ k) → rwf d (rins k v t) = true
  | [], _, _ => by simp [rins, rwf, hv]
  | (k', v') :: t, h, hn => by
    simp only [rwf, Bool.and_eq_true, decide_eq_true_eq, List.all_eq_true] at h
    have hk' : k' ≠ k := hn (k', v') (by simp)
    by_cases hk : k' < k
    · simp only [rins, hk, if_true, rwf, Bool.and_eq_true, decide_eq_true_eq, List.all_eq_true]
      refine ⟨⟨h.1.1, fun e he => ?_⟩, rwf_rins d k v hv t h.2 (fun e he => hn e (List.mem_cons_of_mem _ he))⟩
      rcases mem_rins he with he | he
      · simp [he, hk]
      · exact h.1.2 e he
    · simp only [rins, hk, if_false, rwf, Bool.and_eq_true, decide_eq_true_eq, List.all_eq_true]
      refine ⟨⟨hv, fun e he => ?_⟩, h⟩
      rcases List.mem_cons.mp he with he | he
      · simp only [he]; omega
      · have := h.1.2 e he; omega

/-- A write keeps the canonical form. -/
theorem rwf_rput [DecidableEq α] (d : Nat → α) (t : Tab α) (k : Nat) (v : α) (h : rwf d t = true) : rwf d (rput d t k v) = true := by
  rw [rput_eq]
  have hf : rwf d (rdel t k) = true := rwf_filter d _ t h
  split
  · exact hf
  · rename_i hv
    exact rwf_rins d k v hv _ hf (fun e he => by simpa [rdel] using (List.mem_filter.mp he).2)

theorem twf_tput [DecidableEq α] (d : α) (t : Tab α) (k : Nat) (v : α) (h : twf d t = true) : twf d (tput d t k v) = true :=
  rwf_rput _ t k v h

/-- A clear keeps the canonical form. -/
theorem rwf_tclear [DecidableEq α] (d : Nat → α) (t : Tab α) (lo hi : Nat) (h : rwf d t = true) : rwf d (tclear t lo hi) = true :=
  rwf_filter d _ t h

/-! Bit fields. -/

theorem fld_lt (w : Word) (hi lo : Nat) : fld w hi lo < 2 ^ (hi + 1 - lo) := Nat.mod_lt _ (Nat.two_pow_pos _)

theorem testBit_setFldNat (a hi lo v : Nat) (hl : lo ≤ hi) (i : Nat) :
    Nat.testBit (a % 2 ^ lo + (v % 2 ^ (hi + 1 - lo)) * 2 ^ lo + (a >>> (hi + 1)) * 2 ^ (hi + 1)) i
      = if i < lo then a.testBit i else if i ≤ hi then v.testBit (i - lo) else a.testBit i := by
  have e1 : a % 2 ^ lo + (v % 2 ^ (hi + 1 - lo)) * 2 ^ lo < 2 ^ (hi + 1) := by
    have h1 : a % 2 ^ lo < 2 ^ lo := Nat.mod_lt _ (Nat.two_pow_pos _)
    have h2 : v % 2 ^ (hi + 1 - lo) < 2 ^ (hi + 1 - lo) := Nat.mod_lt _ (Nat.two_pow_pos _)
    have h3 : 2 ^ (hi + 1) = 2 ^ (hi + 1 - lo) * 2 ^ lo := by rw [← Nat.pow_add]; congr 1; omega
    rw [h3]
    calc a % 2 ^ lo + v % 2 ^ (hi + 1 - lo) * 2 ^ lo < 2 ^ lo + v % 2 ^ (hi + 1 - lo) * 2 ^ lo := by omega
      _ = (v % 2 ^ (hi + 1 - lo) + 1) * 2 ^ lo := by ring
      _ ≤ _ := Nat.mul_le_mul_right _ h2
  rw [Nat.add_comm _ ((a >>> (hi + 1)) * 2 ^ (hi + 1)), Nat.mul_comm (a >>> (hi + 1)), Nat.testBit_two_pow_mul_add _ e1]
  rw [Nat.add_comm (a % 2 ^ lo), Nat.mul_comm (v % _), Nat.testBit_two_pow_mul_add _ (Nat.mod_lt _ (Nat.two_pow_pos _))]
  simp only [Nat.testBit_mod_two_pow, Nat.testBit_shiftRight]
  by_cases h1 : i < lo
  · simp [h1, show i < hi + 1 by omega]
  · by_cases h2 : i ≤ hi
    · simp [h1, h2, show i < hi + 1 by omega, show i - lo < hi + 1 - lo by omega]
    · simp [h1, h2, show ¬ i < hi + 1 by omega, show hi + 1 + (i - (hi + 1)) = i by omega]

theorem testBit_setFld (w : Word) (hi lo v : Nat) (hl : lo ≤ hi) (i : Nat) (hi32 : i < 32) :
    (setFld w hi lo v).toNat.testBit i
      = if i < lo then w.toNat.testBit i else if i ≤ hi then v.testBit (i - lo) else w.toNat.testBit i := by
  unfold setFld
  rw [BitVec.toNat_ofNat, Nat.testBit_mod_two_pow, testBit_setFldNat _ _ _ _ hl]
  simp [hi32]

/-- The field just written reads as the value written, truncated to its width. -/
theorem fld_setFld_same (w : Word) (hi lo v : Nat) (hl : lo ≤ hi) (h32 : hi < 32) :
    fld (setFld w hi lo v) hi lo = v % 2 ^ (hi + 1 - lo) := by
  apply Nat.eq_of_testBit_eq
  intro i
  simp only [fld, Nat.testBit_mod_two_pow, Nat.testBit_shiftRight]
  by_cases h : i < hi + 1 - lo
  · rw [testBit_setFld _ _ _ _ hl _ (by omega)]
    simp [h, show ¬ lo + i < lo by omega, show lo + i ≤ hi by omega]
  · simp [h]

/-- A field that does not overlap the one written reads as before. -/
theorem fld_setFld_ne (w : Word) (hi lo v hi' lo' : Nat) (hl : lo ≤ hi) (h32' : hi' < 32)
    (hd : hi < lo' ∨ hi' < lo) : fld (setFld w hi lo v) hi' lo' = fld w hi' lo' := by
  apply Nat.eq_of_testBit_eq
  intro i
  simp only [fld, Nat.testBit_mod_two_pow, Nat.testBit_shiftRight]
  by_cases h : i < hi' + 1 - lo'
  · rw [testBit_setFld _ _ _ _ hl _ (by omega)]
    rcases hd with hd | hd
    · simp [h, show ¬ lo' + i < lo by omega, show ¬ lo' + i ≤ hi by omega]
    · simp [h, show lo' + i < lo by omega]
  · simp [h]

end Sys2Proof.Machine
end

