-- ==== Sys2Proof/Laws/State.lean ====
section
/-! SUPPORT. One lemma per field per update of the state: what an update of a register, a channel, the host island or the outputs leaves as it
was, and what the updated part reads as. -/

namespace Sys2Proof.Machine

/-! The module's fields under its updates. -/

@[simp] theorem State.chan_setChan_same (s : State) (c : Fin 4) (ch : Chan) : (s.setChan c ch).chan c = ch := by
  simp [State.chan, State.setChan]

theorem State.chan_setChan_ne (s : State) {c d : Fin 4} (ch : Chan) (h : d ≠ c) : (s.setChan c ch).chan d = s.chan d := by
  have : c.val ≠ d.val := fun e => h (Fin.ext e.symm)
  simp [State.chan, State.setChan, Vector.getElem_set_ne, this]

theorem State.chan_setChan (s : State) (c d : Fin 4) (ch : Chan) : (s.setChan c ch).chan d = if d = c then ch else s.chan d := by
  split
  · subst_vars; simp
  · exact s.chan_setChan_ne ch ‹_›

@[simp] theorem State.setChan_isl (s : State) (c : Fin 4) (ch : Chan) : (s.setChan c ch).isl = s.isl := rfl
@[simp] theorem State.setChan_out (s : State) (c : Fin 4) (ch : Chan) : (s.setChan c ch).out = s.out := rfl
@[simp] theorem State.setChan_pending (s : State) (c : Fin 4) (ch : Chan) : (s.setChan c ch).pending = s.pending := rfl
@[simp] theorem State.setChan_variant (s : State) (c : Fin 4) (ch : Chan) : (s.setChan c ch).variant = s.variant := rfl

@[simp] theorem State.onIsl_isl (s : State) (f : Isl → Isl) : (s.onIsl f).isl = f s.isl := rfl
@[simp] theorem State.onIsl_chans (s : State) (f : Isl → Isl) : (s.onIsl f).chans = s.chans := rfl
@[simp] theorem State.onIsl_out (s : State) (f : Isl → Isl) : (s.onIsl f).out = s.out := rfl
@[simp] theorem State.onIsl_pending (s : State) (f : Isl → Isl) : (s.onIsl f).pending = s.pending := rfl
@[simp] theorem State.onIsl_variant (s : State) (f : Isl → Isl) : (s.onIsl f).variant = s.variant := rfl
@[simp] theorem State.onIsl_chan (s : State) (f : Isl → Isl) (c : Fin 4) : (s.onIsl f).chan c = s.chan c := rfl
@[simp] theorem State.emit_out (s : State) (x : Out) : (s.emit x).out = x :: s.out := rfl
@[simp] theorem State.emit_isl (s : State) (x : Out) : (s.emit x).isl = s.isl := rfl
@[simp] theorem State.emit_chans (s : State) (x : Out) : (s.emit x).chans = s.chans := rfl
@[simp] theorem State.emit_pending (s : State) (x : Out) : (s.emit x).pending = s.pending := rfl
@[simp] theorem State.emit_variant (s : State) (x : Out) : (s.emit x).variant = s.variant := rfl
@[simp] theorem State.emit_chan (s : State) (x : Out) (c : Fin 4) : (s.emit x).chan c = s.chan c := rfl

/-! A channel's registers under a register write. -/

@[simp] theorem Chan.get_put_same (ch : Chan) (p : Pg) (off : Nat) (v : Word) : (ch.put p off v).get p off = v := by
  simp [Chan.get, Chan.put]

theorem Chan.get_put_ne (ch : Chan) {p q : Pg} {off o : Nat} (v : Word) (h : q.key o ≠ p.key off) :
    (ch.put p off v).get q o = ch.get q o := rget_rput_ne _ _ _ h

theorem Chan.rget_put_ne (ch : Chan) {p : Pg} {off key : Nat} (v : Word) (h : key ≠ p.key off) :
    rget chanReset (ch.put p off v).regs key = rget chanReset ch.regs key := rget_rput_ne _ _ _ h

@[simp] theorem Chan.getF_putF_same (ch : Chan) (p : Pg) (f : Fld) (v : Nat) (hl : f.lo ≤ f.hi) (h32 : f.hi < 32) :
    (ch.putF p f v).getF p f = v % 2 ^ (f.hi + 1 - f.lo) := by
  simp [Chan.getF, Chan.putF, fld_setFld_same, hl, h32]

theorem Chan.getF_putF_ne (ch : Chan) {p q : Pg} {f g : Fld} (v : Nat) (h : q.key g.off ≠ p.key f.off) :
    (ch.putF p f v).getF q g = ch.getF q g := by
  simp only [Chan.getF, Chan.putF, Chan.get_put_ne ch _ h]

/-! Every other field of a channel under a register write. -/

@[simp] theorem Chan.put_ns (ch : Chan) (p : Pg) (off : Nat) (v : Word) : (ch.put p off v).ns = ch.ns := rfl
@[simp] theorem Chan.put_time (ch : Chan) (p : Pg) (off : Nat) (v : Word) : (ch.put p off v).time = ch.time := rfl
@[simp] theorem Chan.put_timeFrac (ch : Chan) (p : Pg) (off : Nat) (v : Word) : (ch.put p off v).timeFrac = ch.timeFrac := rfl
@[simp] theorem Chan.put_energyFe (ch : Chan) (p : Pg) (off : Nat) (v : Word) : (ch.put p off v).energyFe = ch.energyFe := rfl
@[simp] theorem Chan.put_energyTm (ch : Chan) (p : Pg) (off : Nat) (v : Word) : (ch.put p off v).energyTm = ch.energyTm := rfl
@[simp] theorem Chan.put_keepA (ch : Chan) (p : Pg) (off : Nat) (v : Word) : (ch.put p off v).keepA = ch.keepA := rfl
@[simp] theorem Chan.put_keepB (ch : Chan) (p : Pg) (off : Nat) (v : Word) : (ch.put p off v).keepB = ch.keepB := rfl
@[simp] theorem Chan.put_regA (ch : Chan) (p : Pg) (off : Nat) (v : Word) : (ch.put p off v).regA = ch.regA := rfl
@[simp] theorem Chan.put_regB (ch : Chan) (p : Pg) (off : Nat) (v : Word) : (ch.put p off v).regB = ch.regB := rfl
@[simp] theorem Chan.put_inflight (ch : Chan) (p : Pg) (off : Nat) (v : Word) : (ch.put p off v).inflight = ch.inflight := rfl
@[simp] theorem Chan.put_karmBy (ch : Chan) (p : Pg) (off : Nat) (v : Word) : (ch.put p off v).karmBy = ch.karmBy := rfl
@[simp] theorem Chan.put_inflightTo (ch : Chan) (p : Pg) (off : Nat) (v : Word) : (ch.put p off v).inflightTo = ch.inflightTo := rfl
@[simp] theorem Chan.put_lostReason (ch : Chan) (p : Pg) (off : Nat) (v : Word) : (ch.put p off v).lostReason = ch.lostReason := rfl
@[simp] theorem Chan.put_inflightEnd (ch : Chan) (p : Pg) (off : Nat) (v : Word) : (ch.put p off v).inflightEnd = ch.inflightEnd := rfl
@[simp] theorem Chan.put_copyBad (ch : Chan) (p : Pg) (off : Nat) (v : Word) : (ch.put p off v).copyBad = ch.copyBad := rfl
@[simp] theorem Chan.put_cycNo (ch : Chan) (p : Pg) (off : Nat) (v : Word) : (ch.put p off v).cycNo = ch.cycNo := rfl
@[simp] theorem Chan.put_cpCyc (ch : Chan) (p : Pg) (off : Nat) (v : Word) : (ch.put p off v).cpCyc = ch.cpCyc := rfl
@[simp] theorem Chan.put_copyCyc (ch : Chan) (p : Pg) (off : Nat) (v : Word) : (ch.put p off v).copyCyc = ch.copyCyc := rfl
@[simp] theorem Chan.put_failCyc (ch : Chan) (p : Pg) (off : Nat) (v : Word) : (ch.put p off v).failCyc = ch.failCyc := rfl
@[simp] theorem Chan.put_cycIdx (ch : Chan) (p : Pg) (off : Nat) (v : Word) : (ch.put p off v).cycIdx = ch.cycIdx := rfl
@[simp] theorem Chan.put_lastAct (ch : Chan) (p : Pg) (off : Nat) (v : Word) : (ch.put p off v).lastAct = ch.lastAct := rfl
@[simp] theorem Chan.put_bnd (ch : Chan) (p : Pg) (off : Nat) (v : Word) : (ch.put p off v).bnd = ch.bnd := rfl
@[simp] theorem Chan.put_cycAt (ch : Chan) (p : Pg) (off : Nat) (v : Word) : (ch.put p off v).cycAt = ch.cycAt := rfl
@[simp] theorem Chan.put_started (ch : Chan) (p : Pg) (off : Nat) (v : Word) : (ch.put p off v).started = ch.started := rfl
@[simp] theorem Chan.put_saucerDown (ch : Chan) (p : Pg) (off : Nat) (v : Word) : (ch.put p off v).saucerDown = ch.saucerDown := rfl
@[simp] theorem Chan.put_levels (ch : Chan) (p : Pg) (off : Nat) (v : Word) : (ch.put p off v).levels = ch.levels := rfl
@[simp] theorem Chan.put_crit (ch : Chan) (p : Pg) (off : Nat) (v : Word) : (ch.put p off v).crit = ch.crit := rfl
@[simp] theorem Chan.put_shutPrev (ch : Chan) (p : Pg) (off : Nat) (v : Word) : (ch.put p off v).shutPrev = ch.shutPrev := rfl
@[simp] theorem Chan.put_railOut (ch : Chan) (p : Pg) (off : Nat) (v : Word) : (ch.put p off v).railOut = ch.railOut := rfl
@[simp] theorem Chan.put_critJrnl (ch : Chan) (p : Pg) (off : Nat) (v : Word) : (ch.put p off v).critJrnl = ch.critJrnl := rfl
@[simp] theorem Chan.put_sampleAt (ch : Chan) (p : Pg) (off : Nat) (v : Word) : (ch.put p off v).sampleAt = ch.sampleAt := rfl
@[simp] theorem Chan.put_bistDone (ch : Chan) (p : Pg) (off : Nat) (v : Word) : (ch.put p off v).bistDone = ch.bistDone := rfl
@[simp] theorem Chan.put_fusedSvn (ch : Chan) (p : Pg) (off : Nat) (v : Word) : (ch.put p off v).fusedSvn = ch.fusedSvn := rfl
@[simp] theorem Chan.put_hppr (ch : Chan) (p : Pg) (off : Nat) (v : Word) : (ch.put p off v).hppr = ch.hppr := rfl
@[simp] theorem Chan.put_pref (ch : Chan) (p : Pg) (off : Nat) (v : Word) : (ch.put p off v).pref = ch.pref := rfl
@[simp] theorem Chan.put_inReset (ch : Chan) (p : Pg) (off : Nat) (v : Word) : (ch.put p off v).inReset = ch.inReset := rfl
@[simp] theorem Chan.put_snaps (ch : Chan) (p : Pg) (off : Nat) (v : Word) : (ch.put p off v).snaps = ch.snaps := rfl
@[simp] theorem Chan.put_parts (ch : Chan) (p : Pg) (off : Nat) (v : Word) : (ch.put p off v).parts = ch.parts := rfl
@[simp] theorem Chan.put_rings (ch : Chan) (p : Pg) (off : Nat) (v : Word) : (ch.put p off v).rings = ch.rings := rfl
@[simp] theorem Chan.put_recQ (ch : Chan) (p : Pg) (off : Nat) (v : Word) : (ch.put p off v).recQ = ch.recQ := rfl
@[simp] theorem Chan.put_injLast (ch : Chan) (p : Pg) (off : Nat) (v : Word) : (ch.put p off v).injLast = ch.injLast := rfl
@[simp] theorem Chan.put_jrnlWait (ch : Chan) (p : Pg) (off : Nat) (v : Word) : (ch.put p off v).jrnlWait = ch.jrnlWait := rfl
@[simp] theorem Chan.put_ports (ch : Chan) (p : Pg) (off : Nat) (v : Word) : (ch.put p off v).ports = ch.ports := rfl
@[simp] theorem Chan.put_laneLow (ch : Chan) (p : Pg) (off : Nat) (v : Word) : (ch.put p off v).laneLow = ch.laneLow := rfl
@[simp] theorem Chan.put_jsec (ch : Chan) (p : Pg) (off : Nat) (v : Word) : (ch.put p off v).jsec = ch.jsec := rfl
@[simp] theorem Chan.put_secs (ch : Chan) (p : Pg) (off : Nat) (v : Word) : (ch.put p off v).secs = ch.secs := rfl
@[simp] theorem Chan.put_flex (ch : Chan) (p : Pg) (off : Nat) (v : Word) : (ch.put p off v).flex = ch.flex := rfl
@[simp] theorem Chan.put_prs (ch : Chan) (p : Pg) (off : Nat) (v : Word) : (ch.put p off v).prs = ch.prs := rfl
@[simp] theorem Chan.put_strn (ch : Chan) (p : Pg) (off : Nat) (v : Word) : (ch.put p off v).strn = ch.strn := rfl
@[simp] theorem Chan.put_ptpRxq (ch : Chan) (p : Pg) (off : Nat) (v : Word) : (ch.put p off v).ptpRxq = ch.ptpRxq := rfl
@[simp] theorem Chan.put_tbl (ch : Chan) (p : Pg) (off : Nat) (v : Word) : (ch.put p off v).tbl = ch.tbl := rfl
@[simp] theorem Chan.put_cad (ch : Chan) (p : Pg) (off : Nat) (v : Word) : (ch.put p off v).cad = ch.cad := rfl
@[simp] theorem Chan.put_sch (ch : Chan) (p : Pg) (off : Nat) (v : Word) : (ch.put p off v).sch = ch.sch := rfl
@[simp] theorem Chan.put_fab (ch : Chan) (p : Pg) (off : Nat) (v : Word) : (ch.put p off v).fab = ch.fab := rfl
@[simp] theorem Chan.put_hbm (ch : Chan) (p : Pg) (off : Nat) (v : Word) : (ch.put p off v).hbm = ch.hbm := rfl
@[simp] theorem Chan.put_act (ch : Chan) (p : Pg) (off : Nat) (v : Word) : (ch.put p off v).act = ch.act := rfl
@[simp] theorem Chan.put_brew (ch : Chan) (p : Pg) (off : Nat) (v : Word) : (ch.put p off v).brew = ch.brew := rfl
@[simp] theorem Chan.put_cosy (ch : Chan) (p : Pg) (off : Nat) (v : Word) : (ch.put p off v).cosy = ch.cosy := rfl
@[simp] theorem Chan.put_tests (ch : Chan) (p : Pg) (off : Nat) (v : Word) : (ch.put p off v).tests = ch.tests := rfl
@[simp] theorem Chan.put_brdg (ch : Chan) (p : Pg) (off : Nat) (v : Word) : (ch.put p off v).brdg = ch.brdg := rfl
@[simp] theorem Chan.put_outQ (ch : Chan) (p : Pg) (off : Nat) (v : Word) : (ch.put p off v).outQ = ch.outQ := rfl
@[simp] theorem Chan.put_free (ch : Chan) (p : Pg) (off : Nat) (v : Word) : (ch.put p off v).free = ch.free := rfl

@[simp] theorem Chan.putN_ns (ch : Chan) (p : Pg) (off n : Nat) : (ch.putN p off n).ns = ch.ns := rfl
@[simp] theorem Chan.putN_time (ch : Chan) (p : Pg) (off n : Nat) : (ch.putN p off n).time = ch.time := rfl
@[simp] theorem Chan.putN_timeFrac (ch : Chan) (p : Pg) (off n : Nat) : (ch.putN p off n).timeFrac = ch.timeFrac := rfl
@[simp] theorem Chan.putN_energyFe (ch : Chan) (p : Pg) (off n : Nat) : (ch.putN p off n).energyFe = ch.energyFe := rfl
@[simp] theorem Chan.putN_energyTm (ch : Chan) (p : Pg) (off n : Nat) : (ch.putN p off n).energyTm = ch.energyTm := rfl
@[simp] theorem Chan.putN_keepA (ch : Chan) (p : Pg) (off n : Nat) : (ch.putN p off n).keepA = ch.keepA := rfl
@[simp] theorem Chan.putN_keepB (ch : Chan) (p : Pg) (off n : Nat) : (ch.putN p off n).keepB = ch.keepB := rfl
@[simp] theorem Chan.putN_regA (ch : Chan) (p : Pg) (off n : Nat) : (ch.putN p off n).regA = ch.regA := rfl
@[simp] theorem Chan.putN_regB (ch : Chan) (p : Pg) (off n : Nat) : (ch.putN p off n).regB = ch.regB := rfl
@[simp] theorem Chan.putN_inflight (ch : Chan) (p : Pg) (off n : Nat) : (ch.putN p off n).inflight = ch.inflight := rfl
@[simp] theorem Chan.putN_karmBy (ch : Chan) (p : Pg) (off n : Nat) : (ch.putN p off n).karmBy = ch.karmBy := rfl
@[simp] theorem Chan.putN_inflightTo (ch : Chan) (p : Pg) (off n : Nat) : (ch.putN p off n).inflightTo = ch.inflightTo := rfl
@[simp] theorem Chan.putN_lostReason (ch : Chan) (p : Pg) (off n : Nat) : (ch.putN p off n).lostReason = ch.lostReason := rfl
@[simp] theorem Chan.putN_inflightEnd (ch : Chan) (p : Pg) (off n : Nat) : (ch.putN p off n).inflightEnd = ch.inflightEnd := rfl
@[simp] theorem Chan.putN_copyBad (ch : Chan) (p : Pg) (off n : Nat) : (ch.putN p off n).copyBad = ch.copyBad := rfl
@[simp] theorem Chan.putN_cycNo (ch : Chan) (p : Pg) (off n : Nat) : (ch.putN p off n).cycNo = ch.cycNo := rfl
@[simp] theorem Chan.putN_cpCyc (ch : Chan) (p : Pg) (off n : Nat) : (ch.putN p off n).cpCyc = ch.cpCyc := rfl
@[simp] theorem Chan.putN_copyCyc (ch : Chan) (p : Pg) (off n : Nat) : (ch.putN p off n).copyCyc = ch.copyCyc := rfl
@[simp] theorem Chan.putN_failCyc (ch : Chan) (p : Pg) (off n : Nat) : (ch.putN p off n).failCyc = ch.failCyc := rfl
@[simp] theorem Chan.putN_cycIdx (ch : Chan) (p : Pg) (off n : Nat) : (ch.putN p off n).cycIdx = ch.cycIdx := rfl
@[simp] theorem Chan.putN_lastAct (ch : Chan) (p : Pg) (off n : Nat) : (ch.putN p off n).lastAct = ch.lastAct := rfl
@[simp] theorem Chan.putN_bnd (ch : Chan) (p : Pg) (off n : Nat) : (ch.putN p off n).bnd = ch.bnd := rfl
@[simp] theorem Chan.putN_cycAt (ch : Chan) (p : Pg) (off n : Nat) : (ch.putN p off n).cycAt = ch.cycAt := rfl
@[simp] theorem Chan.putN_started (ch : Chan) (p : Pg) (off n : Nat) : (ch.putN p off n).started = ch.started := rfl
@[simp] theorem Chan.putN_saucerDown (ch : Chan) (p : Pg) (off n : Nat) : (ch.putN p off n).saucerDown = ch.saucerDown := rfl
@[simp] theorem Chan.putN_levels (ch : Chan) (p : Pg) (off n : Nat) : (ch.putN p off n).levels = ch.levels := rfl
@[simp] theorem Chan.putN_crit (ch : Chan) (p : Pg) (off n : Nat) : (ch.putN p off n).crit = ch.crit := rfl
@[simp] theorem Chan.putN_shutPrev (ch : Chan) (p : Pg) (off n : Nat) : (ch.putN p off n).shutPrev = ch.shutPrev := rfl
@[simp] theorem Chan.putN_railOut (ch : Chan) (p : Pg) (off n : Nat) : (ch.putN p off n).railOut = ch.railOut := rfl
@[simp] theorem Chan.putN_critJrnl (ch : Chan) (p : Pg) (off n : Nat) : (ch.putN p off n).critJrnl = ch.critJrnl := rfl
@[simp] theorem Chan.putN_sampleAt (ch : Chan) (p : Pg) (off n : Nat) : (ch.putN p off n).sampleAt = ch.sampleAt := rfl
@[simp] theorem Chan.putN_bistDone (ch : Chan) (p : Pg) (off n : Nat) : (ch.putN p off n).bistDone = ch.bistDone := rfl
@[simp] theorem Chan.putN_fusedSvn (ch : Chan) (p : Pg) (off n : Nat) : (ch.putN p off n).fusedSvn = ch.fusedSvn := rfl
@[simp] theorem Chan.putN_hppr (ch : Chan) (p : Pg) (off n : Nat) : (ch.putN p off n).hppr = ch.hppr := rfl
@[simp] theorem Chan.putN_pref (ch : Chan) (p : Pg) (off n : Nat) : (ch.putN p off n).pref = ch.pref := rfl
@[simp] theorem Chan.putN_inReset (ch : Chan) (p : Pg) (off n : Nat) : (ch.putN p off n).inReset = ch.inReset := rfl
@[simp] theorem Chan.putN_snaps (ch : Chan) (p : Pg) (off n : Nat) : (ch.putN p off n).snaps = ch.snaps := rfl
@[simp] theorem Chan.putN_parts (ch : Chan) (p : Pg) (off n : Nat) : (ch.putN p off n).parts = ch.parts := rfl
@[simp] theorem Chan.putN_rings (ch : Chan) (p : Pg) (off n : Nat) : (ch.putN p off n).rings = ch.rings := rfl
@[simp] theorem Chan.putN_recQ (ch : Chan) (p : Pg) (off n : Nat) : (ch.putN p off n).recQ = ch.recQ := rfl
@[simp] theorem Chan.putN_injLast (ch : Chan) (p : Pg) (off n : Nat) : (ch.putN p off n).injLast = ch.injLast := rfl
@[simp] theorem Chan.putN_jrnlWait (ch : Chan) (p : Pg) (off n : Nat) : (ch.putN p off n).jrnlWait = ch.jrnlWait := rfl
@[simp] theorem Chan.putN_ports (ch : Chan) (p : Pg) (off n : Nat) : (ch.putN p off n).ports = ch.ports := rfl
@[simp] theorem Chan.putN_laneLow (ch : Chan) (p : Pg) (off n : Nat) : (ch.putN p off n).laneLow = ch.laneLow := rfl
@[simp] theorem Chan.putN_jsec (ch : Chan) (p : Pg) (off n : Nat) : (ch.putN p off n).jsec = ch.jsec := rfl
@[simp] theorem Chan.putN_secs (ch : Chan) (p : Pg) (off n : Nat) : (ch.putN p off n).secs = ch.secs := rfl
@[simp] theorem Chan.putN_flex (ch : Chan) (p : Pg) (off n : Nat) : (ch.putN p off n).flex = ch.flex := rfl
@[simp] theorem Chan.putN_prs (ch : Chan) (p : Pg) (off n : Nat) : (ch.putN p off n).prs = ch.prs := rfl
@[simp] theorem Chan.putN_strn (ch : Chan) (p : Pg) (off n : Nat) : (ch.putN p off n).strn = ch.strn := rfl
@[simp] theorem Chan.putN_ptpRxq (ch : Chan) (p : Pg) (off n : Nat) : (ch.putN p off n).ptpRxq = ch.ptpRxq := rfl
@[simp] theorem Chan.putN_tbl (ch : Chan) (p : Pg) (off n : Nat) : (ch.putN p off n).tbl = ch.tbl := rfl
@[simp] theorem Chan.putN_cad (ch : Chan) (p : Pg) (off n : Nat) : (ch.putN p off n).cad = ch.cad := rfl
@[simp] theorem Chan.putN_sch (ch : Chan) (p : Pg) (off n : Nat) : (ch.putN p off n).sch = ch.sch := rfl
@[simp] theorem Chan.putN_fab (ch : Chan) (p : Pg) (off n : Nat) : (ch.putN p off n).fab = ch.fab := rfl
@[simp] theorem Chan.putN_hbm (ch : Chan) (p : Pg) (off n : Nat) : (ch.putN p off n).hbm = ch.hbm := rfl
@[simp] theorem Chan.putN_act (ch : Chan) (p : Pg) (off n : Nat) : (ch.putN p off n).act = ch.act := rfl
@[simp] theorem Chan.putN_brew (ch : Chan) (p : Pg) (off n : Nat) : (ch.putN p off n).brew = ch.brew := rfl
@[simp] theorem Chan.putN_cosy (ch : Chan) (p : Pg) (off n : Nat) : (ch.putN p off n).cosy = ch.cosy := rfl
@[simp] theorem Chan.putN_tests (ch : Chan) (p : Pg) (off n : Nat) : (ch.putN p off n).tests = ch.tests := rfl
@[simp] theorem Chan.putN_brdg (ch : Chan) (p : Pg) (off n : Nat) : (ch.putN p off n).brdg = ch.brdg := rfl
@[simp] theorem Chan.putN_outQ (ch : Chan) (p : Pg) (off n : Nat) : (ch.putN p off n).outQ = ch.outQ := rfl
@[simp] theorem Chan.putN_free (ch : Chan) (p : Pg) (off n : Nat) : (ch.putN p off n).free = ch.free := rfl

@[simp] theorem Chan.putF_ns (ch : Chan) (p : Pg) (f : Fld) (v : Nat) : (ch.putF p f v).ns = ch.ns := rfl
@[simp] theorem Chan.putF_time (ch : Chan) (p : Pg) (f : Fld) (v : Nat) : (ch.putF p f v).time = ch.time := rfl
@[simp] theorem Chan.putF_timeFrac (ch : Chan) (p : Pg) (f : Fld) (v : Nat) : (ch.putF p f v).timeFrac = ch.timeFrac := rfl
@[simp] theorem Chan.putF_energyFe (ch : Chan) (p : Pg) (f : Fld) (v : Nat) : (ch.putF p f v).energyFe = ch.energyFe := rfl
@[simp] theorem Chan.putF_energyTm (ch : Chan) (p : Pg) (f : Fld) (v : Nat) : (ch.putF p f v).energyTm = ch.energyTm := rfl
@[simp] theorem Chan.putF_keepA (ch : Chan) (p : Pg) (f : Fld) (v : Nat) : (ch.putF p f v).keepA = ch.keepA := rfl
@[simp] theorem Chan.putF_keepB (ch : Chan) (p : Pg) (f : Fld) (v : Nat) : (ch.putF p f v).keepB = ch.keepB := rfl
@[simp] theorem Chan.putF_regA (ch : Chan) (p : Pg) (f : Fld) (v : Nat) : (ch.putF p f v).regA = ch.regA := rfl
@[simp] theorem Chan.putF_regB (ch : Chan) (p : Pg) (f : Fld) (v : Nat) : (ch.putF p f v).regB = ch.regB := rfl
@[simp] theorem Chan.putF_inflight (ch : Chan) (p : Pg) (f : Fld) (v : Nat) : (ch.putF p f v).inflight = ch.inflight := rfl
@[simp] theorem Chan.putF_karmBy (ch : Chan) (p : Pg) (f : Fld) (v : Nat) : (ch.putF p f v).karmBy = ch.karmBy := rfl
@[simp] theorem Chan.putF_inflightTo (ch : Chan) (p : Pg) (f : Fld) (v : Nat) : (ch.putF p f v).inflightTo = ch.inflightTo := rfl
@[simp] theorem Chan.putF_lostReason (ch : Chan) (p : Pg) (f : Fld) (v : Nat) : (ch.putF p f v).lostReason = ch.lostReason := rfl
@[simp] theorem Chan.putF_inflightEnd (ch : Chan) (p : Pg) (f : Fld) (v : Nat) : (ch.putF p f v).inflightEnd = ch.inflightEnd := rfl
@[simp] theorem Chan.putF_copyBad (ch : Chan) (p : Pg) (f : Fld) (v : Nat) : (ch.putF p f v).copyBad = ch.copyBad := rfl
@[simp] theorem Chan.putF_cycNo (ch : Chan) (p : Pg) (f : Fld) (v : Nat) : (ch.putF p f v).cycNo = ch.cycNo := rfl
@[simp] theorem Chan.putF_cpCyc (ch : Chan) (p : Pg) (f : Fld) (v : Nat) : (ch.putF p f v).cpCyc = ch.cpCyc := rfl
@[simp] theorem Chan.putF_copyCyc (ch : Chan) (p : Pg) (f : Fld) (v : Nat) : (ch.putF p f v).copyCyc = ch.copyCyc := rfl
@[simp] theorem Chan.putF_failCyc (ch : Chan) (p : Pg) (f : Fld) (v : Nat) : (ch.putF p f v).failCyc = ch.failCyc := rfl
@[simp] theorem Chan.putF_cycIdx (ch : Chan) (p : Pg) (f : Fld) (v : Nat) : (ch.putF p f v).cycIdx = ch.cycIdx := rfl
@[simp] theorem Chan.putF_lastAct (ch : Chan) (p : Pg) (f : Fld) (v : Nat) : (ch.putF p f v).lastAct = ch.lastAct := rfl
@[simp] theorem Chan.putF_bnd (ch : Chan) (p : Pg) (f : Fld) (v : Nat) : (ch.putF p f v).bnd = ch.bnd := rfl
@[simp] theorem Chan.putF_cycAt (ch : Chan) (p : Pg) (f : Fld) (v : Nat) : (ch.putF p f v).cycAt = ch.cycAt := rfl
@[simp] theorem Chan.putF_started (ch : Chan) (p : Pg) (f : Fld) (v : Nat) : (ch.putF p f v).started = ch.started := rfl
@[simp] theorem Chan.putF_saucerDown (ch : Chan) (p : Pg) (f : Fld) (v : Nat) : (ch.putF p f v).saucerDown = ch.saucerDown := rfl
@[simp] theorem Chan.putF_levels (ch : Chan) (p : Pg) (f : Fld) (v : Nat) : (ch.putF p f v).levels = ch.levels := rfl
@[simp] theorem Chan.putF_crit (ch : Chan) (p : Pg) (f : Fld) (v : Nat) : (ch.putF p f v).crit = ch.crit := rfl
@[simp] theorem Chan.putF_shutPrev (ch : Chan) (p : Pg) (f : Fld) (v : Nat) : (ch.putF p f v).shutPrev = ch.shutPrev := rfl
@[simp] theorem Chan.putF_railOut (ch : Chan) (p : Pg) (f : Fld) (v : Nat) : (ch.putF p f v).railOut = ch.railOut := rfl
@[simp] theorem Chan.putF_critJrnl (ch : Chan) (p : Pg) (f : Fld) (v : Nat) : (ch.putF p f v).critJrnl = ch.critJrnl := rfl
@[simp] theorem Chan.putF_sampleAt (ch : Chan) (p : Pg) (f : Fld) (v : Nat) : (ch.putF p f v).sampleAt = ch.sampleAt := rfl
@[simp] theorem Chan.putF_bistDone (ch : Chan) (p : Pg) (f : Fld) (v : Nat) : (ch.putF p f v).bistDone = ch.bistDone := rfl
@[simp] theorem Chan.putF_fusedSvn (ch : Chan) (p : Pg) (f : Fld) (v : Nat) : (ch.putF p f v).fusedSvn = ch.fusedSvn := rfl
@[simp] theorem Chan.putF_hppr (ch : Chan) (p : Pg) (f : Fld) (v : Nat) : (ch.putF p f v).hppr = ch.hppr := rfl
@[simp] theorem Chan.putF_pref (ch : Chan) (p : Pg) (f : Fld) (v : Nat) : (ch.putF p f v).pref = ch.pref := rfl
@[simp] theorem Chan.putF_inReset (ch : Chan) (p : Pg) (f : Fld) (v : Nat) : (ch.putF p f v).inReset = ch.inReset := rfl
@[simp] theorem Chan.putF_snaps (ch : Chan) (p : Pg) (f : Fld) (v : Nat) : (ch.putF p f v).snaps = ch.snaps := rfl
@[simp] theorem Chan.putF_parts (ch : Chan) (p : Pg) (f : Fld) (v : Nat) : (ch.putF p f v).parts = ch.parts := rfl
@[simp] theorem Chan.putF_rings (ch : Chan) (p : Pg) (f : Fld) (v : Nat) : (ch.putF p f v).rings = ch.rings := rfl
@[simp] theorem Chan.putF_recQ (ch : Chan) (p : Pg) (f : Fld) (v : Nat) : (ch.putF p f v).recQ = ch.recQ := rfl
@[simp] theorem Chan.putF_injLast (ch : Chan) (p : Pg) (f : Fld) (v : Nat) : (ch.putF p f v).injLast = ch.injLast := rfl
@[simp] theorem Chan.putF_jrnlWait (ch : Chan) (p : Pg) (f : Fld) (v : Nat) : (ch.putF p f v).jrnlWait = ch.jrnlWait := rfl
@[simp] theorem Chan.putF_ports (ch : Chan) (p : Pg) (f : Fld) (v : Nat) : (ch.putF p f v).ports = ch.ports := rfl
@[simp] theorem Chan.putF_laneLow (ch : Chan) (p : Pg) (f : Fld) (v : Nat) : (ch.putF p f v).laneLow = ch.laneLow := rfl
@[simp] theorem Chan.putF_jsec (ch : Chan) (p : Pg) (f : Fld) (v : Nat) : (ch.putF p f v).jsec = ch.jsec := rfl
@[simp] theorem Chan.putF_secs (ch : Chan) (p : Pg) (f : Fld) (v : Nat) : (ch.putF p f v).secs = ch.secs := rfl
@[simp] theorem Chan.putF_flex (ch : Chan) (p : Pg) (f : Fld) (v : Nat) : (ch.putF p f v).flex = ch.flex := rfl
@[simp] theorem Chan.putF_prs (ch : Chan) (p : Pg) (f : Fld) (v : Nat) : (ch.putF p f v).prs = ch.prs := rfl
@[simp] theorem Chan.putF_strn (ch : Chan) (p : Pg) (f : Fld) (v : Nat) : (ch.putF p f v).strn = ch.strn := rfl
@[simp] theorem Chan.putF_ptpRxq (ch : Chan) (p : Pg) (f : Fld) (v : Nat) : (ch.putF p f v).ptpRxq = ch.ptpRxq := rfl
@[simp] theorem Chan.putF_tbl (ch : Chan) (p : Pg) (f : Fld) (v : Nat) : (ch.putF p f v).tbl = ch.tbl := rfl
@[simp] theorem Chan.putF_cad (ch : Chan) (p : Pg) (f : Fld) (v : Nat) : (ch.putF p f v).cad = ch.cad := rfl
@[simp] theorem Chan.putF_sch (ch : Chan) (p : Pg) (f : Fld) (v : Nat) : (ch.putF p f v).sch = ch.sch := rfl
@[simp] theorem Chan.putF_fab (ch : Chan) (p : Pg) (f : Fld) (v : Nat) : (ch.putF p f v).fab = ch.fab := rfl
@[simp] theorem Chan.putF_hbm (ch : Chan) (p : Pg) (f : Fld) (v : Nat) : (ch.putF p f v).hbm = ch.hbm := rfl
@[simp] theorem Chan.putF_act (ch : Chan) (p : Pg) (f : Fld) (v : Nat) : (ch.putF p f v).act = ch.act := rfl
@[simp] theorem Chan.putF_brew (ch : Chan) (p : Pg) (f : Fld) (v : Nat) : (ch.putF p f v).brew = ch.brew := rfl
@[simp] theorem Chan.putF_cosy (ch : Chan) (p : Pg) (f : Fld) (v : Nat) : (ch.putF p f v).cosy = ch.cosy := rfl
@[simp] theorem Chan.putF_tests (ch : Chan) (p : Pg) (f : Fld) (v : Nat) : (ch.putF p f v).tests = ch.tests := rfl
@[simp] theorem Chan.putF_brdg (ch : Chan) (p : Pg) (f : Fld) (v : Nat) : (ch.putF p f v).brdg = ch.brdg := rfl
@[simp] theorem Chan.putF_outQ (ch : Chan) (p : Pg) (f : Fld) (v : Nat) : (ch.putF p f v).outQ = ch.outQ := rfl
@[simp] theorem Chan.putF_free (ch : Chan) (p : Pg) (f : Fld) (v : Nat) : (ch.putF p f v).free = ch.free := rfl

@[simp] theorem Chan.putB_ns (ch : Chan) (p : Pg) (f : Fld) (b : Bool) : (ch.putB p f b).ns = ch.ns := rfl
@[simp] theorem Chan.putB_time (ch : Chan) (p : Pg) (f : Fld) (b : Bool) : (ch.putB p f b).time = ch.time := rfl
@[simp] theorem Chan.putB_timeFrac (ch : Chan) (p : Pg) (f : Fld) (b : Bool) : (ch.putB p f b).timeFrac = ch.timeFrac := rfl
@[simp] theorem Chan.putB_energyFe (ch : Chan) (p : Pg) (f : Fld) (b : Bool) : (ch.putB p f b).energyFe = ch.energyFe := rfl
@[simp] theorem Chan.putB_energyTm (ch : Chan) (p : Pg) (f : Fld) (b : Bool) : (ch.putB p f b).energyTm = ch.energyTm := rfl
@[simp] theorem Chan.putB_keepA (ch : Chan) (p : Pg) (f : Fld) (b : Bool) : (ch.putB p f b).keepA = ch.keepA := rfl
@[simp] theorem Chan.putB_keepB (ch : Chan) (p : Pg) (f : Fld) (b : Bool) : (ch.putB p f b).keepB = ch.keepB := rfl
@[simp] theorem Chan.putB_regA (ch : Chan) (p : Pg) (f : Fld) (b : Bool) : (ch.putB p f b).regA = ch.regA := rfl
@[simp] theorem Chan.putB_regB (ch : Chan) (p : Pg) (f : Fld) (b : Bool) : (ch.putB p f b).regB = ch.regB := rfl
@[simp] theorem Chan.putB_inflight (ch : Chan) (p : Pg) (f : Fld) (b : Bool) : (ch.putB p f b).inflight = ch.inflight := rfl
@[simp] theorem Chan.putB_karmBy (ch : Chan) (p : Pg) (f : Fld) (b : Bool) : (ch.putB p f b).karmBy = ch.karmBy := rfl
@[simp] theorem Chan.putB_inflightTo (ch : Chan) (p : Pg) (f : Fld) (b : Bool) : (ch.putB p f b).inflightTo = ch.inflightTo := rfl
@[simp] theorem Chan.putB_lostReason (ch : Chan) (p : Pg) (f : Fld) (b : Bool) : (ch.putB p f b).lostReason = ch.lostReason := rfl
@[simp] theorem Chan.putB_inflightEnd (ch : Chan) (p : Pg) (f : Fld) (b : Bool) : (ch.putB p f b).inflightEnd = ch.inflightEnd := rfl
@[simp] theorem Chan.putB_copyBad (ch : Chan) (p : Pg) (f : Fld) (b : Bool) : (ch.putB p f b).copyBad = ch.copyBad := rfl
@[simp] theorem Chan.putB_cycNo (ch : Chan) (p : Pg) (f : Fld) (b : Bool) : (ch.putB p f b).cycNo = ch.cycNo := rfl
@[simp] theorem Chan.putB_cpCyc (ch : Chan) (p : Pg) (f : Fld) (b : Bool) : (ch.putB p f b).cpCyc = ch.cpCyc := rfl
@[simp] theorem Chan.putB_copyCyc (ch : Chan) (p : Pg) (f : Fld) (b : Bool) : (ch.putB p f b).copyCyc = ch.copyCyc := rfl
@[simp] theorem Chan.putB_failCyc (ch : Chan) (p : Pg) (f : Fld) (b : Bool) : (ch.putB p f b).failCyc = ch.failCyc := rfl
@[simp] theorem Chan.putB_cycIdx (ch : Chan) (p : Pg) (f : Fld) (b : Bool) : (ch.putB p f b).cycIdx = ch.cycIdx := rfl
@[simp] theorem Chan.putB_lastAct (ch : Chan) (p : Pg) (f : Fld) (b : Bool) : (ch.putB p f b).lastAct = ch.lastAct := rfl
@[simp] theorem Chan.putB_bnd (ch : Chan) (p : Pg) (f : Fld) (b : Bool) : (ch.putB p f b).bnd = ch.bnd := rfl
@[simp] theorem Chan.putB_cycAt (ch : Chan) (p : Pg) (f : Fld) (b : Bool) : (ch.putB p f b).cycAt = ch.cycAt := rfl
@[simp] theorem Chan.putB_started (ch : Chan) (p : Pg) (f : Fld) (b : Bool) : (ch.putB p f b).started = ch.started := rfl
@[simp] theorem Chan.putB_saucerDown (ch : Chan) (p : Pg) (f : Fld) (b : Bool) : (ch.putB p f b).saucerDown = ch.saucerDown := rfl
@[simp] theorem Chan.putB_levels (ch : Chan) (p : Pg) (f : Fld) (b : Bool) : (ch.putB p f b).levels = ch.levels := rfl
@[simp] theorem Chan.putB_crit (ch : Chan) (p : Pg) (f : Fld) (b : Bool) : (ch.putB p f b).crit = ch.crit := rfl
@[simp] theorem Chan.putB_shutPrev (ch : Chan) (p : Pg) (f : Fld) (b : Bool) : (ch.putB p f b).shutPrev = ch.shutPrev := rfl
@[simp] theorem Chan.putB_railOut (ch : Chan) (p : Pg) (f : Fld) (b : Bool) : (ch.putB p f b).railOut = ch.railOut := rfl
@[simp] theorem Chan.putB_critJrnl (ch : Chan) (p : Pg) (f : Fld) (b : Bool) : (ch.putB p f b).critJrnl = ch.critJrnl := rfl
@[simp] theorem Chan.putB_sampleAt (ch : Chan) (p : Pg) (f : Fld) (b : Bool) : (ch.putB p f b).sampleAt = ch.sampleAt := rfl
@[simp] theorem Chan.putB_bistDone (ch : Chan) (p : Pg) (f : Fld) (b : Bool) : (ch.putB p f b).bistDone = ch.bistDone := rfl
@[simp] theorem Chan.putB_fusedSvn (ch : Chan) (p : Pg) (f : Fld) (b : Bool) : (ch.putB p f b).fusedSvn = ch.fusedSvn := rfl
@[simp] theorem Chan.putB_hppr (ch : Chan) (p : Pg) (f : Fld) (b : Bool) : (ch.putB p f b).hppr = ch.hppr := rfl
@[simp] theorem Chan.putB_pref (ch : Chan) (p : Pg) (f : Fld) (b : Bool) : (ch.putB p f b).pref = ch.pref := rfl
@[simp] theorem Chan.putB_inReset (ch : Chan) (p : Pg) (f : Fld) (b : Bool) : (ch.putB p f b).inReset = ch.inReset := rfl
@[simp] theorem Chan.putB_snaps (ch : Chan) (p : Pg) (f : Fld) (b : Bool) : (ch.putB p f b).snaps = ch.snaps := rfl
@[simp] theorem Chan.putB_parts (ch : Chan) (p : Pg) (f : Fld) (b : Bool) : (ch.putB p f b).parts = ch.parts := rfl
@[simp] theorem Chan.putB_rings (ch : Chan) (p : Pg) (f : Fld) (b : Bool) : (ch.putB p f b).rings = ch.rings := rfl
@[simp] theorem Chan.putB_recQ (ch : Chan) (p : Pg) (f : Fld) (b : Bool) : (ch.putB p f b).recQ = ch.recQ := rfl
@[simp] theorem Chan.putB_injLast (ch : Chan) (p : Pg) (f : Fld) (b : Bool) : (ch.putB p f b).injLast = ch.injLast := rfl
@[simp] theorem Chan.putB_jrnlWait (ch : Chan) (p : Pg) (f : Fld) (b : Bool) : (ch.putB p f b).jrnlWait = ch.jrnlWait := rfl
@[simp] theorem Chan.putB_ports (ch : Chan) (p : Pg) (f : Fld) (b : Bool) : (ch.putB p f b).ports = ch.ports := rfl
@[simp] theorem Chan.putB_laneLow (ch : Chan) (p : Pg) (f : Fld) (b : Bool) : (ch.putB p f b).laneLow = ch.laneLow := rfl
@[simp] theorem Chan.putB_jsec (ch : Chan) (p : Pg) (f : Fld) (b : Bool) : (ch.putB p f b).jsec = ch.jsec := rfl
@[simp] theorem Chan.putB_secs (ch : Chan) (p : Pg) (f : Fld) (b : Bool) : (ch.putB p f b).secs = ch.secs := rfl
@[simp] theorem Chan.putB_flex (ch : Chan) (p : Pg) (f : Fld) (b : Bool) : (ch.putB p f b).flex = ch.flex := rfl
@[simp] theorem Chan.putB_prs (ch : Chan) (p : Pg) (f : Fld) (b : Bool) : (ch.putB p f b).prs = ch.prs := rfl
@[simp] theorem Chan.putB_strn (ch : Chan) (p : Pg) (f : Fld) (b : Bool) : (ch.putB p f b).strn = ch.strn := rfl
@[simp] theorem Chan.putB_ptpRxq (ch : Chan) (p : Pg) (f : Fld) (b : Bool) : (ch.putB p f b).ptpRxq = ch.ptpRxq := rfl
@[simp] theorem Chan.putB_tbl (ch : Chan) (p : Pg) (f : Fld) (b : Bool) : (ch.putB p f b).tbl = ch.tbl := rfl
@[simp] theorem Chan.putB_cad (ch : Chan) (p : Pg) (f : Fld) (b : Bool) : (ch.putB p f b).cad = ch.cad := rfl
@[simp] theorem Chan.putB_sch (ch : Chan) (p : Pg) (f : Fld) (b : Bool) : (ch.putB p f b).sch = ch.sch := rfl
@[simp] theorem Chan.putB_fab (ch : Chan) (p : Pg) (f : Fld) (b : Bool) : (ch.putB p f b).fab = ch.fab := rfl
@[simp] theorem Chan.putB_hbm (ch : Chan) (p : Pg) (f : Fld) (b : Bool) : (ch.putB p f b).hbm = ch.hbm := rfl
@[simp] theorem Chan.putB_act (ch : Chan) (p : Pg) (f : Fld) (b : Bool) : (ch.putB p f b).act = ch.act := rfl
@[simp] theorem Chan.putB_brew (ch : Chan) (p : Pg) (f : Fld) (b : Bool) : (ch.putB p f b).brew = ch.brew := rfl
@[simp] theorem Chan.putB_cosy (ch : Chan) (p : Pg) (f : Fld) (b : Bool) : (ch.putB p f b).cosy = ch.cosy := rfl
@[simp] theorem Chan.putB_tests (ch : Chan) (p : Pg) (f : Fld) (b : Bool) : (ch.putB p f b).tests = ch.tests := rfl
@[simp] theorem Chan.putB_brdg (ch : Chan) (p : Pg) (f : Fld) (b : Bool) : (ch.putB p f b).brdg = ch.brdg := rfl
@[simp] theorem Chan.putB_outQ (ch : Chan) (p : Pg) (f : Fld) (b : Bool) : (ch.putB p f b).outQ = ch.outQ := rfl
@[simp] theorem Chan.putB_free (ch : Chan) (p : Pg) (f : Fld) (b : Bool) : (ch.putB p f b).free = ch.free := rfl

@[simp] theorem Chan.put64_ns (ch : Chan) (p : Pg) (off v : Nat) : (ch.put64 p off v).ns = ch.ns := rfl
@[simp] theorem Chan.put64_time (ch : Chan) (p : Pg) (off v : Nat) : (ch.put64 p off v).time = ch.time := rfl
@[simp] theorem Chan.put64_timeFrac (ch : Chan) (p : Pg) (off v : Nat) : (ch.put64 p off v).timeFrac = ch.timeFrac := rfl
@[simp] theorem Chan.put64_energyFe (ch : Chan) (p : Pg) (off v : Nat) : (ch.put64 p off v).energyFe = ch.energyFe := rfl
@[simp] theorem Chan.put64_energyTm (ch : Chan) (p : Pg) (off v : Nat) : (ch.put64 p off v).energyTm = ch.energyTm := rfl
@[simp] theorem Chan.put64_keepA (ch : Chan) (p : Pg) (off v : Nat) : (ch.put64 p off v).keepA = ch.keepA := rfl
@[simp] theorem Chan.put64_keepB (ch : Chan) (p : Pg) (off v : Nat) : (ch.put64 p off v).keepB = ch.keepB := rfl
@[simp] theorem Chan.put64_regA (ch : Chan) (p : Pg) (off v : Nat) : (ch.put64 p off v).regA = ch.regA := rfl
@[simp] theorem Chan.put64_regB (ch : Chan) (p : Pg) (off v : Nat) : (ch.put64 p off v).regB = ch.regB := rfl
@[simp] theorem Chan.put64_inflight (ch : Chan) (p : Pg) (off v : Nat) : (ch.put64 p off v).inflight = ch.inflight := rfl
@[simp] theorem Chan.put64_karmBy (ch : Chan) (p : Pg) (off v : Nat) : (ch.put64 p off v).karmBy = ch.karmBy := rfl
@[simp] theorem Chan.put64_inflightTo (ch : Chan) (p : Pg) (off v : Nat) : (ch.put64 p off v).inflightTo = ch.inflightTo := rfl
@[simp] theorem Chan.put64_lostReason (ch : Chan) (p : Pg) (off v : Nat) : (ch.put64 p off v).lostReason = ch.lostReason := rfl
@[simp] theorem Chan.put64_inflightEnd (ch : Chan) (p : Pg) (off v : Nat) : (ch.put64 p off v).inflightEnd = ch.inflightEnd := rfl
@[simp] theorem Chan.put64_copyBad (ch : Chan) (p : Pg) (off v : Nat) : (ch.put64 p off v).copyBad = ch.copyBad := rfl
@[simp] theorem Chan.put64_cycNo (ch : Chan) (p : Pg) (off v : Nat) : (ch.put64 p off v).cycNo = ch.cycNo := rfl
@[simp] theorem Chan.put64_cpCyc (ch : Chan) (p : Pg) (off v : Nat) : (ch.put64 p off v).cpCyc = ch.cpCyc := rfl
@[simp] theorem Chan.put64_copyCyc (ch : Chan) (p : Pg) (off v : Nat) : (ch.put64 p off v).copyCyc = ch.copyCyc := rfl
@[simp] theorem Chan.put64_failCyc (ch : Chan) (p : Pg) (off v : Nat) : (ch.put64 p off v).failCyc = ch.failCyc := rfl
@[simp] theorem Chan.put64_cycIdx (ch : Chan) (p : Pg) (off v : Nat) : (ch.put64 p off v).cycIdx = ch.cycIdx := rfl
@[simp] theorem Chan.put64_lastAct (ch : Chan) (p : Pg) (off v : Nat) : (ch.put64 p off v).lastAct = ch.lastAct := rfl
@[simp] theorem Chan.put64_bnd (ch : Chan) (p : Pg) (off v : Nat) : (ch.put64 p off v).bnd = ch.bnd := rfl
@[simp] theorem Chan.put64_cycAt (ch : Chan) (p : Pg) (off v : Nat) : (ch.put64 p off v).cycAt = ch.cycAt := rfl
@[simp] theorem Chan.put64_started (ch : Chan) (p : Pg) (off v : Nat) : (ch.put64 p off v).started = ch.started := rfl
@[simp] theorem Chan.put64_saucerDown (ch : Chan) (p : Pg) (off v : Nat) : (ch.put64 p off v).saucerDown = ch.saucerDown := rfl
@[simp] theorem Chan.put64_levels (ch : Chan) (p : Pg) (off v : Nat) : (ch.put64 p off v).levels = ch.levels := rfl
@[simp] theorem Chan.put64_crit (ch : Chan) (p : Pg) (off v : Nat) : (ch.put64 p off v).crit = ch.crit := rfl
@[simp] theorem Chan.put64_shutPrev (ch : Chan) (p : Pg) (off v : Nat) : (ch.put64 p off v).shutPrev = ch.shutPrev := rfl
@[simp] theorem Chan.put64_railOut (ch : Chan) (p : Pg) (off v : Nat) : (ch.put64 p off v).railOut = ch.railOut := rfl
@[simp] theorem Chan.put64_critJrnl (ch : Chan) (p : Pg) (off v : Nat) : (ch.put64 p off v).critJrnl = ch.critJrnl := rfl
@[simp] theorem Chan.put64_sampleAt (ch : Chan) (p : Pg) (off v : Nat) : (ch.put64 p off v).sampleAt = ch.sampleAt := rfl
@[simp] theorem Chan.put64_bistDone (ch : Chan) (p : Pg) (off v : Nat) : (ch.put64 p off v).bistDone = ch.bistDone := rfl
@[simp] theorem Chan.put64_fusedSvn (ch : Chan) (p : Pg) (off v : Nat) : (ch.put64 p off v).fusedSvn = ch.fusedSvn := rfl
@[simp] theorem Chan.put64_hppr (ch : Chan) (p : Pg) (off v : Nat) : (ch.put64 p off v).hppr = ch.hppr := rfl
@[simp] theorem Chan.put64_pref (ch : Chan) (p : Pg) (off v : Nat) : (ch.put64 p off v).pref = ch.pref := rfl
@[simp] theorem Chan.put64_inReset (ch : Chan) (p : Pg) (off v : Nat) : (ch.put64 p off v).inReset = ch.inReset := rfl
@[simp] theorem Chan.put64_snaps (ch : Chan) (p : Pg) (off v : Nat) : (ch.put64 p off v).snaps = ch.snaps := rfl
@[simp] theorem Chan.put64_parts (ch : Chan) (p : Pg) (off v : Nat) : (ch.put64 p off v).parts = ch.parts := rfl
@[simp] theorem Chan.put64_rings (ch : Chan) (p : Pg) (off v : Nat) : (ch.put64 p off v).rings = ch.rings := rfl
@[simp] theorem Chan.put64_recQ (ch : Chan) (p : Pg) (off v : Nat) : (ch.put64 p off v).recQ = ch.recQ := rfl
@[simp] theorem Chan.put64_injLast (ch : Chan) (p : Pg) (off v : Nat) : (ch.put64 p off v).injLast = ch.injLast := rfl
@[simp] theorem Chan.put64_jrnlWait (ch : Chan) (p : Pg) (off v : Nat) : (ch.put64 p off v).jrnlWait = ch.jrnlWait := rfl
@[simp] theorem Chan.put64_ports (ch : Chan) (p : Pg) (off v : Nat) : (ch.put64 p off v).ports = ch.ports := rfl
@[simp] theorem Chan.put64_laneLow (ch : Chan) (p : Pg) (off v : Nat) : (ch.put64 p off v).laneLow = ch.laneLow := rfl
@[simp] theorem Chan.put64_jsec (ch : Chan) (p : Pg) (off v : Nat) : (ch.put64 p off v).jsec = ch.jsec := rfl
@[simp] theorem Chan.put64_secs (ch : Chan) (p : Pg) (off v : Nat) : (ch.put64 p off v).secs = ch.secs := rfl
@[simp] theorem Chan.put64_flex (ch : Chan) (p : Pg) (off v : Nat) : (ch.put64 p off v).flex = ch.flex := rfl
@[simp] theorem Chan.put64_prs (ch : Chan) (p : Pg) (off v : Nat) : (ch.put64 p off v).prs = ch.prs := rfl
@[simp] theorem Chan.put64_strn (ch : Chan) (p : Pg) (off v : Nat) : (ch.put64 p off v).strn = ch.strn := rfl
@[simp] theorem Chan.put64_ptpRxq (ch : Chan) (p : Pg) (off v : Nat) : (ch.put64 p off v).ptpRxq = ch.ptpRxq := rfl
@[simp] theorem Chan.put64_tbl (ch : Chan) (p : Pg) (off v : Nat) : (ch.put64 p off v).tbl = ch.tbl := rfl
@[simp] theorem Chan.put64_cad (ch : Chan) (p : Pg) (off v : Nat) : (ch.put64 p off v).cad = ch.cad := rfl
@[simp] theorem Chan.put64_sch (ch : Chan) (p : Pg) (off v : Nat) : (ch.put64 p off v).sch = ch.sch := rfl
@[simp] theorem Chan.put64_fab (ch : Chan) (p : Pg) (off v : Nat) : (ch.put64 p off v).fab = ch.fab := rfl
@[simp] theorem Chan.put64_hbm (ch : Chan) (p : Pg) (off v : Nat) : (ch.put64 p off v).hbm = ch.hbm := rfl
@[simp] theorem Chan.put64_act (ch : Chan) (p : Pg) (off v : Nat) : (ch.put64 p off v).act = ch.act := rfl
@[simp] theorem Chan.put64_brew (ch : Chan) (p : Pg) (off v : Nat) : (ch.put64 p off v).brew = ch.brew := rfl
@[simp] theorem Chan.put64_cosy (ch : Chan) (p : Pg) (off v : Nat) : (ch.put64 p off v).cosy = ch.cosy := rfl
@[simp] theorem Chan.put64_tests (ch : Chan) (p : Pg) (off v : Nat) : (ch.put64 p off v).tests = ch.tests := rfl
@[simp] theorem Chan.put64_brdg (ch : Chan) (p : Pg) (off v : Nat) : (ch.put64 p off v).brdg = ch.brdg := rfl
@[simp] theorem Chan.put64_outQ (ch : Chan) (p : Pg) (off v : Nat) : (ch.put64 p off v).outQ = ch.outQ := rfl
@[simp] theorem Chan.put64_free (ch : Chan) (p : Pg) (off v : Nat) : (ch.put64 p off v).free = ch.free := rfl

@[simp] theorem Chan.inc_ns (ch : Chan) (p : Pg) (off n : Nat) : (ch.inc p off n).ns = ch.ns := rfl
@[simp] theorem Chan.inc_time (ch : Chan) (p : Pg) (off n : Nat) : (ch.inc p off n).time = ch.time := rfl
@[simp] theorem Chan.inc_timeFrac (ch : Chan) (p : Pg) (off n : Nat) : (ch.inc p off n).timeFrac = ch.timeFrac := rfl
@[simp] theorem Chan.inc_energyFe (ch : Chan) (p : Pg) (off n : Nat) : (ch.inc p off n).energyFe = ch.energyFe := rfl
@[simp] theorem Chan.inc_energyTm (ch : Chan) (p : Pg) (off n : Nat) : (ch.inc p off n).energyTm = ch.energyTm := rfl
@[simp] theorem Chan.inc_keepA (ch : Chan) (p : Pg) (off n : Nat) : (ch.inc p off n).keepA = ch.keepA := rfl
@[simp] theorem Chan.inc_keepB (ch : Chan) (p : Pg) (off n : Nat) : (ch.inc p off n).keepB = ch.keepB := rfl
@[simp] theorem Chan.inc_regA (ch : Chan) (p : Pg) (off n : Nat) : (ch.inc p off n).regA = ch.regA := rfl
@[simp] theorem Chan.inc_regB (ch : Chan) (p : Pg) (off n : Nat) : (ch.inc p off n).regB = ch.regB := rfl
@[simp] theorem Chan.inc_inflight (ch : Chan) (p : Pg) (off n : Nat) : (ch.inc p off n).inflight = ch.inflight := rfl
@[simp] theorem Chan.inc_karmBy (ch : Chan) (p : Pg) (off n : Nat) : (ch.inc p off n).karmBy = ch.karmBy := rfl
@[simp] theorem Chan.inc_inflightTo (ch : Chan) (p : Pg) (off n : Nat) : (ch.inc p off n).inflightTo = ch.inflightTo := rfl
@[simp] theorem Chan.inc_lostReason (ch : Chan) (p : Pg) (off n : Nat) : (ch.inc p off n).lostReason = ch.lostReason := rfl
@[simp] theorem Chan.inc_inflightEnd (ch : Chan) (p : Pg) (off n : Nat) : (ch.inc p off n).inflightEnd = ch.inflightEnd := rfl
@[simp] theorem Chan.inc_copyBad (ch : Chan) (p : Pg) (off n : Nat) : (ch.inc p off n).copyBad = ch.copyBad := rfl
@[simp] theorem Chan.inc_cycNo (ch : Chan) (p : Pg) (off n : Nat) : (ch.inc p off n).cycNo = ch.cycNo := rfl
@[simp] theorem Chan.inc_cpCyc (ch : Chan) (p : Pg) (off n : Nat) : (ch.inc p off n).cpCyc = ch.cpCyc := rfl
@[simp] theorem Chan.inc_copyCyc (ch : Chan) (p : Pg) (off n : Nat) : (ch.inc p off n).copyCyc = ch.copyCyc := rfl
@[simp] theorem Chan.inc_failCyc (ch : Chan) (p : Pg) (off n : Nat) : (ch.inc p off n).failCyc = ch.failCyc := rfl
@[simp] theorem Chan.inc_cycIdx (ch : Chan) (p : Pg) (off n : Nat) : (ch.inc p off n).cycIdx = ch.cycIdx := rfl
@[simp] theorem Chan.inc_lastAct (ch : Chan) (p : Pg) (off n : Nat) : (ch.inc p off n).lastAct = ch.lastAct := rfl
@[simp] theorem Chan.inc_bnd (ch : Chan) (p : Pg) (off n : Nat) : (ch.inc p off n).bnd = ch.bnd := rfl
@[simp] theorem Chan.inc_cycAt (ch : Chan) (p : Pg) (off n : Nat) : (ch.inc p off n).cycAt = ch.cycAt := rfl
@[simp] theorem Chan.inc_started (ch : Chan) (p : Pg) (off n : Nat) : (ch.inc p off n).started = ch.started := rfl
@[simp] theorem Chan.inc_saucerDown (ch : Chan) (p : Pg) (off n : Nat) : (ch.inc p off n).saucerDown = ch.saucerDown := rfl
@[simp] theorem Chan.inc_levels (ch : Chan) (p : Pg) (off n : Nat) : (ch.inc p off n).levels = ch.levels := rfl
@[simp] theorem Chan.inc_crit (ch : Chan) (p : Pg) (off n : Nat) : (ch.inc p off n).crit = ch.crit := rfl
@[simp] theorem Chan.inc_shutPrev (ch : Chan) (p : Pg) (off n : Nat) : (ch.inc p off n).shutPrev = ch.shutPrev := rfl
@[simp] theorem Chan.inc_railOut (ch : Chan) (p : Pg) (off n : Nat) : (ch.inc p off n).railOut = ch.railOut := rfl
@[simp] theorem Chan.inc_critJrnl (ch : Chan) (p : Pg) (off n : Nat) : (ch.inc p off n).critJrnl = ch.critJrnl := rfl
@[simp] theorem Chan.inc_sampleAt (ch : Chan) (p : Pg) (off n : Nat) : (ch.inc p off n).sampleAt = ch.sampleAt := rfl
@[simp] theorem Chan.inc_bistDone (ch : Chan) (p : Pg) (off n : Nat) : (ch.inc p off n).bistDone = ch.bistDone := rfl
@[simp] theorem Chan.inc_fusedSvn (ch : Chan) (p : Pg) (off n : Nat) : (ch.inc p off n).fusedSvn = ch.fusedSvn := rfl
@[simp] theorem Chan.inc_hppr (ch : Chan) (p : Pg) (off n : Nat) : (ch.inc p off n).hppr = ch.hppr := rfl
@[simp] theorem Chan.inc_pref (ch : Chan) (p : Pg) (off n : Nat) : (ch.inc p off n).pref = ch.pref := rfl
@[simp] theorem Chan.inc_inReset (ch : Chan) (p : Pg) (off n : Nat) : (ch.inc p off n).inReset = ch.inReset := rfl
@[simp] theorem Chan.inc_snaps (ch : Chan) (p : Pg) (off n : Nat) : (ch.inc p off n).snaps = ch.snaps := rfl
@[simp] theorem Chan.inc_parts (ch : Chan) (p : Pg) (off n : Nat) : (ch.inc p off n).parts = ch.parts := rfl
@[simp] theorem Chan.inc_rings (ch : Chan) (p : Pg) (off n : Nat) : (ch.inc p off n).rings = ch.rings := rfl
@[simp] theorem Chan.inc_recQ (ch : Chan) (p : Pg) (off n : Nat) : (ch.inc p off n).recQ = ch.recQ := rfl
@[simp] theorem Chan.inc_injLast (ch : Chan) (p : Pg) (off n : Nat) : (ch.inc p off n).injLast = ch.injLast := rfl
@[simp] theorem Chan.inc_jrnlWait (ch : Chan) (p : Pg) (off n : Nat) : (ch.inc p off n).jrnlWait = ch.jrnlWait := rfl
@[simp] theorem Chan.inc_ports (ch : Chan) (p : Pg) (off n : Nat) : (ch.inc p off n).ports = ch.ports := rfl
@[simp] theorem Chan.inc_laneLow (ch : Chan) (p : Pg) (off n : Nat) : (ch.inc p off n).laneLow = ch.laneLow := rfl
@[simp] theorem Chan.inc_jsec (ch : Chan) (p : Pg) (off n : Nat) : (ch.inc p off n).jsec = ch.jsec := rfl
@[simp] theorem Chan.inc_secs (ch : Chan) (p : Pg) (off n : Nat) : (ch.inc p off n).secs = ch.secs := rfl
@[simp] theorem Chan.inc_flex (ch : Chan) (p : Pg) (off n : Nat) : (ch.inc p off n).flex = ch.flex := rfl
@[simp] theorem Chan.inc_prs (ch : Chan) (p : Pg) (off n : Nat) : (ch.inc p off n).prs = ch.prs := rfl
@[simp] theorem Chan.inc_strn (ch : Chan) (p : Pg) (off n : Nat) : (ch.inc p off n).strn = ch.strn := rfl
@[simp] theorem Chan.inc_ptpRxq (ch : Chan) (p : Pg) (off n : Nat) : (ch.inc p off n).ptpRxq = ch.ptpRxq := rfl
@[simp] theorem Chan.inc_tbl (ch : Chan) (p : Pg) (off n : Nat) : (ch.inc p off n).tbl = ch.tbl := rfl
@[simp] theorem Chan.inc_cad (ch : Chan) (p : Pg) (off n : Nat) : (ch.inc p off n).cad = ch.cad := rfl
@[simp] theorem Chan.inc_sch (ch : Chan) (p : Pg) (off n : Nat) : (ch.inc p off n).sch = ch.sch := rfl
@[simp] theorem Chan.inc_fab (ch : Chan) (p : Pg) (off n : Nat) : (ch.inc p off n).fab = ch.fab := rfl
@[simp] theorem Chan.inc_hbm (ch : Chan) (p : Pg) (off n : Nat) : (ch.inc p off n).hbm = ch.hbm := rfl
@[simp] theorem Chan.inc_act (ch : Chan) (p : Pg) (off n : Nat) : (ch.inc p off n).act = ch.act := rfl
@[simp] theorem Chan.inc_brew (ch : Chan) (p : Pg) (off n : Nat) : (ch.inc p off n).brew = ch.brew := rfl
@[simp] theorem Chan.inc_cosy (ch : Chan) (p : Pg) (off n : Nat) : (ch.inc p off n).cosy = ch.cosy := rfl
@[simp] theorem Chan.inc_tests (ch : Chan) (p : Pg) (off n : Nat) : (ch.inc p off n).tests = ch.tests := rfl
@[simp] theorem Chan.inc_brdg (ch : Chan) (p : Pg) (off n : Nat) : (ch.inc p off n).brdg = ch.brdg := rfl
@[simp] theorem Chan.inc_outQ (ch : Chan) (p : Pg) (off n : Nat) : (ch.inc p off n).outQ = ch.outQ := rfl
@[simp] theorem Chan.inc_free (ch : Chan) (p : Pg) (off n : Nat) : (ch.inc p off n).free = ch.free := rfl

/-! The other updates of a channel: the part they write, and the registers, the clocks and the outputs. -/

@[simp] theorem Chan.putPart_regs (ch : Chan) (p : Nat) (x : Part) : (ch.putPart p x).regs = ch.regs := rfl
@[simp] theorem Chan.putPart_ns (ch : Chan) (p : Nat) (x : Part) : (ch.putPart p x).ns = ch.ns := rfl
@[simp] theorem Chan.putPart_time (ch : Chan) (p : Nat) (x : Part) : (ch.putPart p x).time = ch.time := rfl
@[simp] theorem Chan.putPart_outQ (ch : Chan) (p : Nat) (x : Part) : (ch.putPart p x).outQ = ch.outQ := rfl
@[simp] theorem Chan.putPart_inReset (ch : Chan) (p : Nat) (x : Part) : (ch.putPart p x).inReset = ch.inReset := rfl
@[simp] theorem Chan.putPart_free (ch : Chan) (p : Nat) (x : Part) : (ch.putPart p x).free = ch.free := rfl
@[simp] theorem Chan.part_putPart_same (ch : Chan) (p : Nat) (x : Part) : (ch.putPart p x).part p = x := by simp [Chan.part, Chan.putPart]
@[simp] theorem Chan.putRing_regs (ch : Chan) (p r : Nat) (x : Ring) : (ch.putRing p r x).regs = ch.regs := rfl
@[simp] theorem Chan.putRing_ns (ch : Chan) (p r : Nat) (x : Ring) : (ch.putRing p r x).ns = ch.ns := rfl
@[simp] theorem Chan.putRing_time (ch : Chan) (p r : Nat) (x : Ring) : (ch.putRing p r x).time = ch.time := rfl
@[simp] theorem Chan.putRing_outQ (ch : Chan) (p r : Nat) (x : Ring) : (ch.putRing p r x).outQ = ch.outQ := rfl
@[simp] theorem Chan.putRing_inReset (ch : Chan) (p r : Nat) (x : Ring) : (ch.putRing p r x).inReset = ch.inReset := rfl
@[simp] theorem Chan.putRing_free (ch : Chan) (p r : Nat) (x : Ring) : (ch.putRing p r x).free = ch.free := rfl
@[simp] theorem Chan.ring_putRing_same (ch : Chan) (p r : Nat) (x : Ring) : (ch.putRing p r x).ring p r = x := by simp [Chan.ring, Chan.putRing]
@[simp] theorem Chan.putAcct_regs (ch : Chan) (a : Nat) (x : Acct) : (ch.putAcct a x).regs = ch.regs := rfl
@[simp] theorem Chan.putAcct_ns (ch : Chan) (a : Nat) (x : Acct) : (ch.putAcct a x).ns = ch.ns := rfl
@[simp] theorem Chan.putAcct_time (ch : Chan) (a : Nat) (x : Acct) : (ch.putAcct a x).time = ch.time := rfl
@[simp] theorem Chan.putAcct_outQ (ch : Chan) (a : Nat) (x : Acct) : (ch.putAcct a x).outQ = ch.outQ := rfl
@[simp] theorem Chan.putAcct_inReset (ch : Chan) (a : Nat) (x : Acct) : (ch.putAcct a x).inReset = ch.inReset := rfl
@[simp] theorem Chan.putAcct_free (ch : Chan) (a : Nat) (x : Acct) : (ch.putAcct a x).free = ch.free := rfl
@[simp] theorem Chan.putBuf_regs (ch : Chan) (h : Nat) (b : Buf) : (ch.putBuf h b).regs = ch.regs := rfl
@[simp] theorem Chan.putBuf_ns (ch : Chan) (h : Nat) (b : Buf) : (ch.putBuf h b).ns = ch.ns := rfl
@[simp] theorem Chan.putBuf_time (ch : Chan) (h : Nat) (b : Buf) : (ch.putBuf h b).time = ch.time := rfl
@[simp] theorem Chan.putBuf_outQ (ch : Chan) (h : Nat) (b : Buf) : (ch.putBuf h b).outQ = ch.outQ := rfl
@[simp] theorem Chan.putBuf_inReset (ch : Chan) (h : Nat) (b : Buf) : (ch.putBuf h b).inReset = ch.inReset := rfl
@[simp] theorem Chan.putBuf_free (ch : Chan) (h : Nat) (b : Buf) : (ch.putBuf h b).free = ch.free := rfl
@[simp] theorem Chan.buf_putBuf_same (ch : Chan) (h : Nat) (b : Buf) : (ch.putBuf h b).buf h = b := by simp [Chan.buf, Chan.putBuf]
@[simp] theorem Chan.putQue_regs (ch : Chan) (q : Nat) (x : Que) : (ch.putQue q x).regs = ch.regs := rfl
@[simp] theorem Chan.putQue_ns (ch : Chan) (q : Nat) (x : Que) : (ch.putQue q x).ns = ch.ns := rfl
@[simp] theorem Chan.putQue_time (ch : Chan) (q : Nat) (x : Que) : (ch.putQue q x).time = ch.time := rfl
@[simp] theorem Chan.putQue_outQ (ch : Chan) (q : Nat) (x : Que) : (ch.putQue q x).outQ = ch.outQ := rfl
@[simp] theorem Chan.putQue_inReset (ch : Chan) (q : Nat) (x : Que) : (ch.putQue q x).inReset = ch.inReset := rfl
@[simp] theorem Chan.putQue_free (ch : Chan) (q : Nat) (x : Que) : (ch.putQue q x).free = ch.free := rfl
@[simp] theorem Chan.que_putQue_same (ch : Chan) (q : Nat) (x : Que) : (ch.putQue q x).que q = x := by simp [Chan.que, Chan.putQue]
@[simp] theorem Chan.putThr_regs (ch : Chan) (t : Nat) (x : Thread) : (ch.putThr t x).regs = ch.regs := rfl
@[simp] theorem Chan.putThr_ns (ch : Chan) (t : Nat) (x : Thread) : (ch.putThr t x).ns = ch.ns := rfl
@[simp] theorem Chan.putThr_time (ch : Chan) (t : Nat) (x : Thread) : (ch.putThr t x).time = ch.time := rfl
@[simp] theorem Chan.putThr_outQ (ch : Chan) (t : Nat) (x : Thread) : (ch.putThr t x).outQ = ch.outQ := rfl
@[simp] theorem Chan.putThr_inReset (ch : Chan) (t : Nat) (x : Thread) : (ch.putThr t x).inReset = ch.inReset := rfl
@[simp] theorem Chan.putThr_free (ch : Chan) (t : Nat) (x : Thread) : (ch.putThr t x).free = ch.free := rfl
@[simp] theorem Chan.thr_putThr_same (ch : Chan) (t : Nat) (x : Thread) : (ch.putThr t x).thr t = x := by simp [Chan.thr, Chan.putThr]
@[simp] theorem Chan.putPw_regs (ch : Chan) (p : Nat) (w : PortWork) : (ch.putPw p w).regs = ch.regs := rfl
@[simp] theorem Chan.putPw_ns (ch : Chan) (p : Nat) (w : PortWork) : (ch.putPw p w).ns = ch.ns := rfl
@[simp] theorem Chan.putPw_time (ch : Chan) (p : Nat) (w : PortWork) : (ch.putPw p w).time = ch.time := rfl
@[simp] theorem Chan.putPw_outQ (ch : Chan) (p : Nat) (w : PortWork) : (ch.putPw p w).outQ = ch.outQ := rfl
@[simp] theorem Chan.putPw_inReset (ch : Chan) (p : Nat) (w : PortWork) : (ch.putPw p w).inReset = ch.inReset := rfl
@[simp] theorem Chan.putPw_free (ch : Chan) (p : Nat) (w : PortWork) : (ch.putPw p w).free = ch.free := rfl
@[simp] theorem Chan.pw_putPw_same (ch : Chan) (p : Nat) (w : PortWork) : (ch.putPw p w).pw p = w := by simp [Chan.pw, Chan.putPw]
@[simp] theorem Chan.putLock_regs (ch : Chan) (k : Nat) (x : Lock) : (ch.putLock k x).regs = ch.regs := rfl
@[simp] theorem Chan.putLock_ns (ch : Chan) (k : Nat) (x : Lock) : (ch.putLock k x).ns = ch.ns := rfl
@[simp] theorem Chan.putLock_time (ch : Chan) (k : Nat) (x : Lock) : (ch.putLock k x).time = ch.time := rfl
@[simp] theorem Chan.putLock_outQ (ch : Chan) (k : Nat) (x : Lock) : (ch.putLock k x).outQ = ch.outQ := rfl
@[simp] theorem Chan.putLock_inReset (ch : Chan) (k : Nat) (x : Lock) : (ch.putLock k x).inReset = ch.inReset := rfl
@[simp] theorem Chan.putLock_free (ch : Chan) (k : Nat) (x : Lock) : (ch.putLock k x).free = ch.free := rfl
@[simp] theorem Chan.lock_putLock_same (ch : Chan) (k : Nat) (x : Lock) : (ch.putLock k x).lock k = x := by simp [Chan.lock, Chan.putLock]
@[simp] theorem Chan.putMbox_regs (ch : Chan) (k : Nat) (x : Mbox) : (ch.putMbox k x).regs = ch.regs := rfl
@[simp] theorem Chan.putMbox_ns (ch : Chan) (k : Nat) (x : Mbox) : (ch.putMbox k x).ns = ch.ns := rfl
@[simp] theorem Chan.putMbox_time (ch : Chan) (k : Nat) (x : Mbox) : (ch.putMbox k x).time = ch.time := rfl
@[simp] theorem Chan.putMbox_outQ (ch : Chan) (k : Nat) (x : Mbox) : (ch.putMbox k x).outQ = ch.outQ := rfl
@[simp] theorem Chan.putMbox_inReset (ch : Chan) (k : Nat) (x : Mbox) : (ch.putMbox k x).inReset = ch.inReset := rfl
@[simp] theorem Chan.putMbox_free (ch : Chan) (k : Nat) (x : Mbox) : (ch.putMbox k x).free = ch.free := rfl
@[simp] theorem Chan.mbox_putMbox_same (ch : Chan) (k : Nat) (x : Mbox) : (ch.putMbox k x).mbox k = x := by simp [Chan.mbox, Chan.putMbox]
@[simp] theorem Chan.putHbmRegion_regs (ch : Chan) (r : Nat) (x : HbmRegion) : (ch.putHbmRegion r x).regs = ch.regs := rfl
@[simp] theorem Chan.putHbmRegion_ns (ch : Chan) (r : Nat) (x : HbmRegion) : (ch.putHbmRegion r x).ns = ch.ns := rfl
@[simp] theorem Chan.putHbmRegion_time (ch : Chan) (r : Nat) (x : HbmRegion) : (ch.putHbmRegion r x).time = ch.time := rfl
@[simp] theorem Chan.putHbmRegion_outQ (ch : Chan) (r : Nat) (x : HbmRegion) : (ch.putHbmRegion r x).outQ = ch.outQ := rfl
@[simp] theorem Chan.putHbmRegion_inReset (ch : Chan) (r : Nat) (x : HbmRegion) : (ch.putHbmRegion r x).inReset = ch.inReset := rfl
@[simp] theorem Chan.putHbmRegion_free (ch : Chan) (r : Nat) (x : HbmRegion) : (ch.putHbmRegion r x).free = ch.free := rfl
@[simp] theorem Chan.hbmRegion_putHbmRegion_same (ch : Chan) (r : Nat) (x : HbmRegion) : (ch.putHbmRegion r x).hbmRegion r = x := by simp [Chan.hbmRegion, Chan.putHbmRegion]

/-! The host island under a register write. -/

@[simp] theorem Isl.get_put_same (i : Isl) (p off : Nat) (v : Word) : (i.put p off v).get p off = v := by simp [Isl.get, Isl.put]

theorem Isl.get_put_ne (i : Isl) {p q off o : Nat} (v : Word) (h : q * 0x10000 + o ≠ p * 0x10000 + off) :
    (i.put p off v).get q o = i.get q o := rget_rput_ne _ _ _ h

@[simp] theorem Isl.put_powered (i : Isl) (p off : Nat) (v : Word) : (i.put p off v).powered = i.powered := rfl
@[simp] theorem Isl.put_pwrgood (i : Isl) (p off : Nat) (v : Word) : (i.put p off v).pwrgood = i.pwrgood := rfl
@[simp] theorem Isl.put_perst (i : Isl) (p off : Nat) (v : Word) : (i.put p off v).perst = i.perst := rfl
@[simp] theorem Isl.put_l0 (i : Isl) (p off : Nat) (v : Word) : (i.put p off v).l0 = i.l0 := rfl
@[simp] theorem Isl.put_dead (i : Isl) (p off : Nat) (v : Word) : (i.put p off v).dead = i.dead := rfl
@[simp] theorem Isl.put_pkgFatal (i : Isl) (p off : Nat) (v : Word) : (i.put p off v).pkgFatal = i.pkgFatal := rfl
@[simp] theorem Isl.put_chPin (i : Isl) (p off : Nat) (v : Word) : (i.put p off v).chPin = i.chPin := rfl
@[simp] theorem Isl.put_forcedOff (i : Isl) (p off : Nat) (v : Word) : (i.put p off v).forcedOff = i.forcedOff := rfl
@[simp] theorem Isl.put_fns (i : Isl) (p off : Nat) (v : Word) : (i.put p off v).fns = i.fns := rfl
@[simp] theorem Isl.put_vfEnable (i : Isl) (p off : Nat) (v : Word) : (i.put p off v).vfEnable = i.vfEnable := rfl
@[simp] theorem Isl.put_vfBar0 (i : Isl) (p off : Nat) (v : Word) : (i.put p off v).vfBar0 = i.vfBar0 := rfl
@[simp] theorem Isl.put_vfVecs (i : Isl) (p off : Nat) (v : Word) : (i.put p off v).vfVecs = i.vfVecs := rfl
@[simp] theorem Isl.put_held (i : Isl) (p off : Nat) (v : Word) : (i.put p off v).held = i.held := rfl
@[simp] theorem Isl.put_relayRun (i : Isl) (p off : Nat) (v : Word) : (i.put p off v).relayRun = i.relayRun := rfl
@[simp] theorem Isl.put_relayAt (i : Isl) (p off : Nat) (v : Word) : (i.put p off v).relayAt = i.relayAt := rfl
@[simp] theorem Isl.put_latches (i : Isl) (p off : Nat) (v : Word) : (i.put p off v).latches = i.latches := rfl
@[simp] theorem Isl.put_ns (i : Isl) (p off : Nat) (v : Word) : (i.put p off v).ns = i.ns := rfl
@[simp] theorem Isl.put_pageNs (i : Isl) (p off : Nat) (v : Word) : (i.put p off v).pageNs = i.pageNs := rfl
@[simp] theorem Isl.put_chSince (i : Isl) (p off : Nat) (v : Word) : (i.put p off v).chSince = i.chSince := rfl
@[simp] theorem Isl.put_nonce (i : Isl) (p off : Nat) (v : Word) : (i.put p off v).nonce = i.nonce := rfl
@[simp] theorem Isl.put_jtagFails (i : Isl) (p off : Nat) (v : Word) : (i.put p off v).jtagFails = i.jtagFails := rfl
@[simp] theorem Isl.put_jtagIr (i : Isl) (p off : Nat) (v : Word) : (i.put p off v).jtagIr = i.jtagIr := rfl
@[simp] theorem Isl.put_jtagData (i : Isl) (p off : Nat) (v : Word) : (i.put p off v).jtagData = i.jtagData := rfl
@[simp] theorem Isl.put_jtagBnd (i : Isl) (p off : Nat) (v : Word) : (i.put p off v).jtagBnd = i.jtagBnd := rfl
@[simp] theorem Isl.put_jtagBlk (i : Isl) (p off : Nat) (v : Word) : (i.put p off v).jtagBlk = i.jtagBlk := rfl
@[simp] theorem Isl.put_crit (i : Isl) (p off : Nat) (v : Word) : (i.put p off v).crit = i.crit := rfl
@[simp] theorem Isl.put_shutPrev (i : Isl) (p off : Nat) (v : Word) : (i.put p off v).shutPrev = i.shutPrev := rfl
@[simp] theorem Isl.put_railOut (i : Isl) (p off : Nat) (v : Word) : (i.put p off v).railOut = i.railOut := rfl
@[simp] theorem Isl.put_critJrnl (i : Isl) (p off : Nat) (v : Word) : (i.put p off v).critJrnl = i.critJrnl := rfl
@[simp] theorem Isl.put_sampleAt (i : Isl) (p off : Nat) (v : Word) : (i.put p off v).sampleAt = i.sampleAt := rfl
@[simp] theorem Isl.put_smbAddr (i : Isl) (p off : Nat) (v : Word) : (i.put p off v).smbAddr = i.smbAddr := rfl
@[simp] theorem Isl.put_free (i : Isl) (p off : Nat) (v : Word) : (i.put p off v).free = i.free := rfl
@[simp] theorem Isl.putN_powered (i : Isl) (p off n : Nat) : (i.putN p off n).powered = i.powered := rfl
@[simp] theorem Isl.putN_pwrgood (i : Isl) (p off n : Nat) : (i.putN p off n).pwrgood = i.pwrgood := rfl
@[simp] theorem Isl.putN_perst (i : Isl) (p off n : Nat) : (i.putN p off n).perst = i.perst := rfl
@[simp] theorem Isl.putN_l0 (i : Isl) (p off n : Nat) : (i.putN p off n).l0 = i.l0 := rfl
@[simp] theorem Isl.putN_dead (i : Isl) (p off n : Nat) : (i.putN p off n).dead = i.dead := rfl
@[simp] theorem Isl.putN_pkgFatal (i : Isl) (p off n : Nat) : (i.putN p off n).pkgFatal = i.pkgFatal := rfl
@[simp] theorem Isl.putN_chPin (i : Isl) (p off n : Nat) : (i.putN p off n).chPin = i.chPin := rfl
@[simp] theorem Isl.putN_forcedOff (i : Isl) (p off n : Nat) : (i.putN p off n).forcedOff = i.forcedOff := rfl
@[simp] theorem Isl.putN_fns (i : Isl) (p off n : Nat) : (i.putN p off n).fns = i.fns := rfl
@[simp] theorem Isl.putN_vfEnable (i : Isl) (p off n : Nat) : (i.putN p off n).vfEnable = i.vfEnable := rfl
@[simp] theorem Isl.putN_vfBar0 (i : Isl) (p off n : Nat) : (i.putN p off n).vfBar0 = i.vfBar0 := rfl
@[simp] theorem Isl.putN_vfVecs (i : Isl) (p off n : Nat) : (i.putN p off n).vfVecs = i.vfVecs := rfl
@[simp] theorem Isl.putN_held (i : Isl) (p off n : Nat) : (i.putN p off n).held = i.held := rfl
@[simp] theorem Isl.putN_relayRun (i : Isl) (p off n : Nat) : (i.putN p off n).relayRun = i.relayRun := rfl
@[simp] theorem Isl.putN_relayAt (i : Isl) (p off n : Nat) : (i.putN p off n).relayAt = i.relayAt := rfl
@[simp] theorem Isl.putN_latches (i : Isl) (p off n : Nat) : (i.putN p off n).latches = i.latches := rfl
@[simp] theorem Isl.putN_ns (i : Isl) (p off n : Nat) : (i.putN p off n).ns = i.ns := rfl
@[simp] theorem Isl.putN_pageNs (i : Isl) (p off n : Nat) : (i.putN p off n).pageNs = i.pageNs := rfl
@[simp] theorem Isl.putN_chSince (i : Isl) (p off n : Nat) : (i.putN p off n).chSince = i.chSince := rfl
@[simp] theorem Isl.putN_nonce (i : Isl) (p off n : Nat) : (i.putN p off n).nonce = i.nonce := rfl
@[simp] theorem Isl.putN_jtagFails (i : Isl) (p off n : Nat) : (i.putN p off n).jtagFails = i.jtagFails := rfl
@[simp] theorem Isl.putN_jtagIr (i : Isl) (p off n : Nat) : (i.putN p off n).jtagIr = i.jtagIr := rfl
@[simp] theorem Isl.putN_jtagData (i : Isl) (p off n : Nat) : (i.putN p off n).jtagData = i.jtagData := rfl
@[simp] theorem Isl.putN_jtagBnd (i : Isl) (p off n : Nat) : (i.putN p off n).jtagBnd = i.jtagBnd := rfl
@[simp] theorem Isl.putN_jtagBlk (i : Isl) (p off n : Nat) : (i.putN p off n).jtagBlk = i.jtagBlk := rfl
@[simp] theorem Isl.putN_crit (i : Isl) (p off n : Nat) : (i.putN p off n).crit = i.crit := rfl
@[simp] theorem Isl.putN_shutPrev (i : Isl) (p off n : Nat) : (i.putN p off n).shutPrev = i.shutPrev := rfl
@[simp] theorem Isl.putN_railOut (i : Isl) (p off n : Nat) : (i.putN p off n).railOut = i.railOut := rfl
@[simp] theorem Isl.putN_critJrnl (i : Isl) (p off n : Nat) : (i.putN p off n).critJrnl = i.critJrnl := rfl
@[simp] theorem Isl.putN_sampleAt (i : Isl) (p off n : Nat) : (i.putN p off n).sampleAt = i.sampleAt := rfl
@[simp] theorem Isl.putN_smbAddr (i : Isl) (p off n : Nat) : (i.putN p off n).smbAddr = i.smbAddr := rfl
@[simp] theorem Isl.putN_free (i : Isl) (p off n : Nat) : (i.putN p off n).free = i.free := rfl
@[simp] theorem Isl.putF_powered (i : Isl) (p : Nat) (f : Fld) (v : Nat) : (i.putF p f v).powered = i.powered := rfl
@[simp] theorem Isl.putF_pwrgood (i : Isl) (p : Nat) (f : Fld) (v : Nat) : (i.putF p f v).pwrgood = i.pwrgood := rfl
@[simp] theorem Isl.putF_perst (i : Isl) (p : Nat) (f : Fld) (v : Nat) : (i.putF p f v).perst = i.perst := rfl
@[simp] theorem Isl.putF_l0 (i : Isl) (p : Nat) (f : Fld) (v : Nat) : (i.putF p f v).l0 = i.l0 := rfl
@[simp] theorem Isl.putF_dead (i : Isl) (p : Nat) (f : Fld) (v : Nat) : (i.putF p f v).dead = i.dead := rfl
@[simp] theorem Isl.putF_pkgFatal (i : Isl) (p : Nat) (f : Fld) (v : Nat) : (i.putF p f v).pkgFatal = i.pkgFatal := rfl
@[simp] theorem Isl.putF_chPin (i : Isl) (p : Nat) (f : Fld) (v : Nat) : (i.putF p f v).chPin = i.chPin := rfl
@[simp] theorem Isl.putF_forcedOff (i : Isl) (p : Nat) (f : Fld) (v : Nat) : (i.putF p f v).forcedOff = i.forcedOff := rfl
@[simp] theorem Isl.putF_fns (i : Isl) (p : Nat) (f : Fld) (v : Nat) : (i.putF p f v).fns = i.fns := rfl
@[simp] theorem Isl.putF_vfEnable (i : Isl) (p : Nat) (f : Fld) (v : Nat) : (i.putF p f v).vfEnable = i.vfEnable := rfl
@[simp] theorem Isl.putF_vfBar0 (i : Isl) (p : Nat) (f : Fld) (v : Nat) : (i.putF p f v).vfBar0 = i.vfBar0 := rfl
@[simp] theorem Isl.putF_vfVecs (i : Isl) (p : Nat) (f : Fld) (v : Nat) : (i.putF p f v).vfVecs = i.vfVecs := rfl
@[simp] theorem Isl.putF_held (i : Isl) (p : Nat) (f : Fld) (v : Nat) : (i.putF p f v).held = i.held := rfl
@[simp] theorem Isl.putF_relayRun (i : Isl) (p : Nat) (f : Fld) (v : Nat) : (i.putF p f v).relayRun = i.relayRun := rfl
@[simp] theorem Isl.putF_relayAt (i : Isl) (p : Nat) (f : Fld) (v : Nat) : (i.putF p f v).relayAt = i.relayAt := rfl
@[simp] theorem Isl.putF_latches (i : Isl) (p : Nat) (f : Fld) (v : Nat) : (i.putF p f v).latches = i.latches := rfl
@[simp] theorem Isl.putF_ns (i : Isl) (p : Nat) (f : Fld) (v : Nat) : (i.putF p f v).ns = i.ns := rfl
@[simp] theorem Isl.putF_pageNs (i : Isl) (p : Nat) (f : Fld) (v : Nat) : (i.putF p f v).pageNs = i.pageNs := rfl
@[simp] theorem Isl.putF_chSince (i : Isl) (p : Nat) (f : Fld) (v : Nat) : (i.putF p f v).chSince = i.chSince := rfl
@[simp] theorem Isl.putF_nonce (i : Isl) (p : Nat) (f : Fld) (v : Nat) : (i.putF p f v).nonce = i.nonce := rfl
@[simp] theorem Isl.putF_jtagFails (i : Isl) (p : Nat) (f : Fld) (v : Nat) : (i.putF p f v).jtagFails = i.jtagFails := rfl
@[simp] theorem Isl.putF_jtagIr (i : Isl) (p : Nat) (f : Fld) (v : Nat) : (i.putF p f v).jtagIr = i.jtagIr := rfl
@[simp] theorem Isl.putF_jtagData (i : Isl) (p : Nat) (f : Fld) (v : Nat) : (i.putF p f v).jtagData = i.jtagData := rfl
@[simp] theorem Isl.putF_jtagBnd (i : Isl) (p : Nat) (f : Fld) (v : Nat) : (i.putF p f v).jtagBnd = i.jtagBnd := rfl
@[simp] theorem Isl.putF_jtagBlk (i : Isl) (p : Nat) (f : Fld) (v : Nat) : (i.putF p f v).jtagBlk = i.jtagBlk := rfl
@[simp] theorem Isl.putF_crit (i : Isl) (p : Nat) (f : Fld) (v : Nat) : (i.putF p f v).crit = i.crit := rfl
@[simp] theorem Isl.putF_shutPrev (i : Isl) (p : Nat) (f : Fld) (v : Nat) : (i.putF p f v).shutPrev = i.shutPrev := rfl
@[simp] theorem Isl.putF_railOut (i : Isl) (p : Nat) (f : Fld) (v : Nat) : (i.putF p f v).railOut = i.railOut := rfl
@[simp] theorem Isl.putF_critJrnl (i : Isl) (p : Nat) (f : Fld) (v : Nat) : (i.putF p f v).critJrnl = i.critJrnl := rfl
@[simp] theorem Isl.putF_sampleAt (i : Isl) (p : Nat) (f : Fld) (v : Nat) : (i.putF p f v).sampleAt = i.sampleAt := rfl
@[simp] theorem Isl.putF_smbAddr (i : Isl) (p : Nat) (f : Fld) (v : Nat) : (i.putF p f v).smbAddr = i.smbAddr := rfl
@[simp] theorem Isl.putF_free (i : Isl) (p : Nat) (f : Fld) (v : Nat) : (i.putF p f v).free = i.free := rfl

end Sys2Proof.Machine
end

