-- ==== Sys2Proof/Laws/Run.lean ====
section
/-! SUPPORT. What the shared operations of the module can do, said once: an effect on a channel stays in that channel, but for the journal of
channel 0; its outputs are delivered; the queue and the variant stay. -/

namespace Sys2Proof.Machine

/-- The effect of something about channel `c`: the queue, the variant and PACKAGE_FATAL stay, outputs are only added, the other channels are as
before but for the journal of channel 0, and delivered outputs stay delivered. -/
structure Confined (s t : State) (c : Fin 4) : Prop where
  pending : t.pending = s.pending
  variant : t.variant = s.variant
  out : s.out <:+ t.out
  pkgFatal : t.isl.pkgFatal = s.isl.pkgFatal
  others : ∀ d, d ≠ c → d ≠ 0 → t.chan d = s.chan d
  quiet : c ≠ 0 → quietOf (t.chan 0) = quietOf (s.chan 0)
  zero : c ≠ 0 → ∀ key, key / 65536 ≠ pgJrnl.key 0 / 65536 → rget chanReset (t.chan 0).regs key = rget chanReset (s.chan 0).regs key
  queued : (∀ d, d ≠ c → (s.chan d).outQ = []) → ∀ d, d ≠ c → (t.chan d).outQ = []

namespace Confined

theorem refl (s : State) (c : Fin 4) : Confined s s c :=
  ⟨rfl, rfl, List.suffix_refl _, rfl, fun _ _ _ => rfl, fun _ => rfl, fun _ _ _ => rfl, fun h => h⟩

theorem trans {s t u : State} {c : Fin 4} (h : Confined s t c) (k : Confined t u c) : Confined s u c where
  pending := k.pending.trans h.pending
  variant := k.variant.trans h.variant
  out := h.out.trans k.out
  pkgFatal := k.pkgFatal.trans h.pkgFatal
  others d hd h0 := (k.others d hd h0).trans (h.others d hd h0)
  quiet hc := (k.quiet hc).trans (h.quiet hc)
  zero hc key hk := (k.zero hc key hk).trans (h.zero hc key hk)
  queued hd := k.queued (h.queued hd)

/-- The channel itself may change as it likes. -/
theorem setChan (s : State) (c : Fin 4) (ch : Chan) : Confined s (s.setChan c ch) c where
  pending := rfl
  variant := rfl
  out := List.suffix_refl _
  pkgFatal := rfl
  others d hd _ := s.chan_setChan_ne ch hd
  quiet hc := by rw [s.chan_setChan_ne ch (Ne.symm hc)]
  zero hc key _ := by rw [s.chan_setChan_ne ch (Ne.symm hc)]
  queued h d hd := by rw [s.chan_setChan_ne ch hd]; exact h d hd

/-- A change of the host island alone that keeps PACKAGE_FATAL, with outputs added. -/
theorem island {s t : State} (c : Fin 4) (hp : t.pending = s.pending) (hv : t.variant = s.variant) (ho : s.out <:+ t.out)
    (hc : t.chans = s.chans) (hf : t.isl.pkgFatal = s.isl.pkgFatal) : Confined s t c := by
  have e : ∀ d, t.chan d = s.chan d := fun d => by simp only [State.chan, hc]
  exact ⟨hp, hv, ho, hf, fun d _ _ => e d, fun _ => by rw [e], fun _ _ _ => by rw [e], fun h d hd => by rw [e]; exact h d hd⟩

theorem onIsl (s : State) (c : Fin 4) (f : Isl → Isl) (hf : (f s.isl).pkgFatal = s.isl.pkgFatal) : Confined s (s.onIsl f) c :=
  island c rfl rfl (List.suffix_refl _) rfl hf

theorem emit (s : State) (c : Fin 4) (x : Out) : Confined s (s.emit x) c :=
  island c rfl rfl (List.suffix_cons _ _) rfl rfl

/-- A fold of confined steps is confined. -/
theorem foldl {α : Type} (c : Fin 4) (f : State → α → State) (h : ∀ s a, Confined s (f s a) c) :
    ∀ (l : List α) (s : State), Confined s (l.foldl f s) c
  | [], s => refl s c
  | a :: l, s => (h s a).trans (foldl c f h l (f s a))

end Confined

/-! The host island: interrupt causes and messages. -/

/-- Folding what keeps a property keeps it. -/
theorem foldl_keeps {α β : Type} (P : β → Prop) (f : β → α → β) (h : ∀ b a, P b → P (f b a)) : ∀ (l : List α) (b : β), P b → P (l.foldl f b)
  | [], _, hb => hb
  | a :: l, b, hb => foldl_keeps P f h l (f b a) (h b a hb)

theorem islBump_pkgFatal (p n : Nat) (r : Isl × Bool) (k : Nat) : (islBump p n r k).1.pkgFatal = r.1.pkgFatal := by
  simp only [islBump]
  split
  · simp only [Isl.put64, Isl.putN_pkgFatal]
  · simp only [Isl.put64, Isl.putN_pkgFatal, Isl.putF_pkgFatal]

theorem Isl.tallyAdd_pkgFatal (i : Isl) (p code : Nat) (a : Attr) (n : Nat) : (i.tallyAdd p code a n).1.pkgFatal = i.pkgFatal := by
  unfold Isl.tallyAdd
  split
  · generalize allBelow 8 _ = l
    exact foldl_keeps (fun r : Isl × Bool => r.1.pkgFatal = i.pkgFatal) (islBump p n)
      (fun r k h => (islBump_pkgFatal p n r k).trans h) l (i, false) rfl
  · rfl

theorem Isl.orCause_pkgFatal (i : Isl) (p m : Nat) : (i.orCause p m).pkgFatal = i.pkgFatal := by
  unfold Isl.orCause
  dsimp only
  split <;> simp

theorem Isl.hold_pkgFatal (i : Isl) (m : MsiSrc) : (i.hold m).pkgFatal = i.pkgFatal := by
  unfold Isl.hold
  split <;> rfl

theorem State.sendVec_confined (s : State) (c : Fin 4) (m : MsiSrc) (v : Nat) : Confined s (s.sendVec m v) c := by
  unfold State.sendVec
  dsimp only
  split
  · exact Confined.island c rfl rfl (List.suffix_cons _ _) rfl rfl
  · exact Confined.island c rfl rfl (List.suffix_refl _) rfl (Isl.hold_pkgFatal _ _)

theorem State.pageIrq_confined (s : State) (c : Fin 4) (m : MsiSrc) : Confined s (s.pageIrq m) c := by
  unfold State.pageIrq
  dsimp only
  split
  · exact s.sendVec_confined c _ _
  · exact Confined.refl s c

/-- Raising a cause of a host island page leaves every channel alone. -/
theorem State.islRaiseMask_confined (s : State) (c : Fin 4) (p m : Nat) : Confined s (s.islRaiseMask p m) c := by
  unfold State.islRaiseMask
  dsimp only
  have h1 : ∀ i2 : Isl, i2.pkgFatal = s.isl.pkgFatal → Confined s { s with isl := i2 } c :=
    fun i2 hf => Confined.island c rfl rfl (List.suffix_refl _) rfl hf
  have h2 : ∀ i2 : Isl, i2.pkgFatal = s.isl.pkgFatal → ∀ b : Bool,
      Confined s (if b then { s with isl := i2 }.pageIrq (.isl p) else { s with isl := i2 }) c := by
    intro i2 hf b
    split
    · exact (h1 i2 hf).trans (State.pageIrq_confined _ c _)
    · exact h1 i2 hf
  refine h2 _ ?_ _
  split <;> simp only [Isl.tallyAdd_pkgFatal, Isl.orCause_pkgFatal]

theorem State.islRaise_confined (s : State) (c : Fin 4) (p b : Nat) : Confined s (s.islRaise p b) c := s.islRaiseMask_confined c p _

theorem State.islTally_confined (s : State) (c : Fin 4) (p code : Nat) (a : Attr) (n : Nat) : Confined s (s.islTally p code a n) c := by
  unfold State.islTally
  have h1 : Confined s { s with isl := (s.isl.tallyAdd p code a n).1 } c :=
    Confined.island c rfl rfl (List.suffix_refl _) rfl (Isl.tallyAdd_pkgFatal _ _ _ _ _)
  dsimp only
  split
  · exact h1.trans (State.islRaise_confined _ c _ _)
  · exact h1

/-- A rejected access leaves every channel alone. -/
theorem State.reject_confined (s : State) (c : Fin 4) (kind : Nat) (rd : Bool) (f addr : Nat) : Confined s (s.reject kind rd f addr) c := by
  unfold State.reject
  dsimp only
  have h1 : Confined s (s.onIsl (fun i => i.inc hpHost (HOST.REJ_KW_CNT + 4 * kind))) c := Confined.onIsl s c _ rfl
  refine Confined.trans ?_ (State.islRaise_confined _ c _ _)
  split
  · exact h1
  · exact h1.trans (Confined.onIsl _ c _ rfl)

theorem State.unimpl_confined (s : State) (c : Fin 4) : Confined s s.unimpl c := Confined.onIsl s c _ rfl

/-- The latch of a requester is on the host island, or a keeper's in the accessed channel. -/
theorem State.setLatch_confined (s : State) (r : Req) (c : Fin 4) (l : Latch) : Confined s (s.setLatch r c l) c := by
  cases r with
  | func n => exact Confined.onIsl s c (fun i => { i with latches := tput {} i.latches n l }) rfl
  | jtag => exact Confined.onIsl s c (fun i => { i with latches := tput {} i.latches 0 l }) rfl
  | keeperA => exact Confined.setChan s c _
  | keeperB => exact Confined.setChan s c _
  | smbus => exact Confined.refl s c

/-! The journal: of a channel it changes the journals, the JRNL page and the outputs. -/

/-- What an entry of the journal may change. -/
structure Quiet (a b : Chan) : Prop where
  quiet : quietOf b = quietOf a
  regs : ∀ key, key / 65536 ≠ pgJrnl.key 0 / 65536 → rget chanReset b.regs key = rget chanReset a.regs key

theorem Quiet.refl (a : Chan) : Quiet a a := ⟨rfl, fun _ _ => rfl⟩

theorem Quiet.trans {a b c : Chan} (h : Quiet a b) (k : Quiet b c) : Quiet a c :=
  ⟨k.quiet.trans h.quiet, fun key hk => (k.regs key hk).trans (h.regs key hk)⟩

theorem pgJrnl_key (off : Nat) (h : off < 65536) : pgJrnl.key off / 65536 = pgJrnl.key 0 / 65536 := by
  simp only [Pg.key]
  norm_num
  omega

theorem Quiet.put (ch : Chan) (off : Nat) (v : Word) (h : off < 65536) : Quiet ch (ch.put pgJrnl off v) :=
  ⟨rfl, fun key hk => ch.rget_put_ne v (fun e => hk (by rw [e, pgJrnl_key off h]))⟩

theorem Quiet.putF (ch : Chan) (f : Fld) (v : Nat) (h : f.off < 65536) : Quiet ch (ch.putF pgJrnl f v) := Quiet.put ch f.off _ h

theorem Quiet.put64 (ch : Chan) (off v : Nat) (h : off < 65532) : Quiet ch (ch.put64 pgJrnl off v) :=
  (Quiet.put ch off _ (by omega)).trans (Quiet.put _ (off + 4) _ (by omega))

theorem Quiet.emit (ch : Chan) (o : Out) : Quiet ch (ch.emit o) := ⟨rfl, fun _ _ => rfl⟩

/-- Only the counters of the JRNL page, and its OVF_STICKY. -/
theorem Quiet.bump (n : Nat) (r : Chan × Bool) (i : Nat) (hi : i < 8) : Quiet r.1 (tallyBump pgJrnl n r i).1 := by
  simp only [tallyBump]
  have h1 : Quiet r.1 (r.1.put64 pgJrnl (oCNT i) ((r.1.get64 pgJrnl (oCNT i) + n) % 2 ^ 48)) :=
    Quiet.put64 _ _ _ (by simp only [oCNT]; omega)
  split
  · exact h1
  · exact h1.trans (Quiet.putF _ _ _ (show oOVF < 65536 by decide))

theorem mem_allBelow_lt {n : Nat} {p : Nat → Bool} {i : Nat} (h : i ∈ allBelow n p) : i < n := by
  simp only [allBelow, List.mem_filter, List.mem_range] at h
  exact h.1

theorem Quiet.tallyAdd (ch : Chan) (code : Nat) (a : Attr) (n : Nat) : Quiet ch (ch.tallyAdd pgJrnl code a n).1 := by
  unfold Chan.tallyAdd
  split
  · exact Quiet.refl ch
  · split
    · have h8 : ∀ i ∈ allBelow 8 (fun i => ch.tallyOn pgJrnl code a i), i < 8 := fun i h => mem_allBelow_lt h
      generalize allBelow 8 _ = l at h8
      suffices h : ∀ r : Chan × Bool, Quiet r.1 (l.foldl (tallyBump pgJrnl n) r).1 from h (ch, false)
      induction l with
      | nil => intro r; exact Quiet.refl r.1
      | cons i l ih =>
        intro r
        rw [List.foldl_cons]
        exact (Quiet.bump n r i (h8 i (by simp))).trans (ih (fun j hj => h8 j (by simp [hj])) _)
    · exact Quiet.refl ch

theorem Quiet.orCause (ch : Chan) (m : Nat) : Quiet ch (ch.orCause pgJrnl m) := by
  unfold Chan.orCause
  dsimp only
  have h1 : Quiet ch (ch.putN pgJrnl oCAUSE (Nat.lor (ch.nat pgJrnl oCAUSE) m)) := Quiet.put ch oCAUSE _ (by decide)
  split
  · exact h1.trans (Quiet.put _ oFIRST _ (by decide))
  · exact h1

theorem Quiet.when (ch : Chan) (b : Bool) (f : Chan → Chan) (h : Quiet ch (f ch)) : Quiet ch (ch.when b f) := by
  unfold Chan.when
  split
  · exact h
  · exact Quiet.refl ch

/-- The interrupt of the JRNL page. -/
theorem Quiet.edge (ch : Chan) (b : Bool) : Quiet ch (ch.edge pgJrnl b) := by
  unfold Chan.edge
  split
  · exact Quiet.emit _ _
  · exact Quiet.refl ch

theorem Quiet.noteCauses (ch : Chan) (m : Nat) : Quiet ch (ch.noteCauses pgJrnl m) :=
  (Quiet.when ch _ _ (Quiet.emit _ _)).trans (Quiet.when _ _ _ (Quiet.emit _ _))

/-- The carry of a counter of the JRNL page raises TALLY_OVF. -/
theorem Quiet.carry (r : Chan × Bool) : Quiet r.1 (if r.2 then r.1.orCause pgJrnl 0x10 else r.1) := by
  split
  · exact Quiet.orCause _ _
  · exact Quiet.refl _

/-- A cause of the JRNL page: its registers, and its interrupt. -/
theorem Quiet.raiseMask (ch : Chan) (m : Nat) : Quiet ch (ch.raiseMask pgJrnl m) := by
  unfold Chan.raiseMask
  exact ((((Quiet.noteCauses ch _).trans (Quiet.orCause _ m)).trans (Quiet.tallyAdd _ 8 {} _)).trans (Quiet.carry _)).trans (Quiet.edge _ _)

theorem Quiet.putJrnl (ch : Chan) (k : Nat) (j : Jrnl) : Quiet ch (ch.putJrnl k j) := by
  unfold Chan.putJrnl Chan.putRegion Chan.region
  split <;> exact ⟨rfl, fun _ _ => rfl⟩

theorem Quiet.syncJrnl (ch : Chan) (j : Jrnl) : Quiet ch (ch.syncJrnl j) :=
  ((((Quiet.put ch JRNL.STAT _ (by decide)).trans (Quiet.put _ JRNL.HEAD _ (by decide))).trans
    (Quiet.put _ JRNL.DROP_CNT _ (by decide))).trans (Quiet.put _ JRNL.STREAM_IDX _ (by decide))).trans
    (Quiet.put _ JRNL.STREAM_LOST _ (by decide))

/-- An entry of the journal changes the journals, the JRNL page and the outputs, and nothing else of the channel. -/
theorem Quiet.jrnlPut (ch : Chan) (k e : Nat) : Quiet ch (ch.jrnlPut k e) := by
  unfold Chan.jrnlPut
  dsimp only
  exact ((((Quiet.putJrnl ch k _).trans (Quiet.syncJrnl _ _)).trans (Quiet.when _ _ _ (Quiet.raiseMask _ _))).trans
    (Quiet.when _ _ _ (Quiet.raiseMask _ _))).trans (Quiet.when _ _ _ (Quiet.raiseMask _ _))

theorem Quiet.jrnlRaw (ch : Chan) (e : Nat) : Quiet ch (ch.jrnlRaw e) := by
  unfold Chan.jrnlRaw
  split
  · exact Quiet.jrnlPut ch _ e
  · exact ⟨rfl, fun _ _ => rfl⟩

/-! The package takes the outputs. -/

theorem State.deliverOne_confined (s : State) (c : Fin 4) (d : Nat) (v : Nat → Nat → Nat) (o : Out) : Confined s (State.deliverOne d v s o) c := by
  unfold State.deliverOne
  split
  · exact s.pageIrq_confined c _
  · exact s.sendVec_confined c _ _
  · exact Confined.refl s c
  · exact Confined.island c rfl rfl (List.suffix_cons _ _) rfl rfl

theorem State.deliverOne_chan (s : State) (d : Nat) (v : Nat → Nat → Nat) (o : Out) : (State.deliverOne d v s o).chans = s.chans := by
  unfold State.deliverOne State.pageIrq State.sendVec
  dsimp only
  split
  · split
    · split <;> rfl
    · rfl
  · split <;> rfl
  · rfl
  · rfl

theorem State.foldl_deliverOne_chans (d : Nat) (v : Nat → Nat → Nat) (l : List Out) (s : State) :
    (l.foldl (State.deliverOne d v) s).chans = s.chans :=
  foldl_keeps (fun t : State => t.chans = s.chans) _ (fun t o h => (State.deliverOne_chan t d v o).trans h) l s rfl

/-- The package's taking of the outputs of a channel empties its queue and changes nothing else of any channel. -/
theorem State.flush_chan (s : State) (c d : Fin 4) :
    (s.flush c).chan d = if d = c then { s.chan c with outQ := [] } else s.chan d := by
  unfold State.flush
  dsimp only
  rw [State.chan, State.foldl_deliverOne_chans]
  exact State.chan_setChan s c d _

theorem State.flush_confined (s : State) (c : Fin 4) : Confined s (s.flush c) c := by
  unfold State.flush
  dsimp only
  exact (Confined.setChan s c _).trans (Confined.foldl c _ (fun t o => t.deliverOne_confined c _ _ o) _ _)

/-! What leaves every channel as it is. -/

theorem State.sendVec_chans (s : State) (m : MsiSrc) (v : Nat) : (s.sendVec m v).chans = s.chans := by
  unfold State.sendVec
  dsimp only
  split <;> rfl

theorem State.pageIrq_chans (s : State) (m : MsiSrc) : (s.pageIrq m).chans = s.chans := by
  unfold State.pageIrq
  dsimp only
  split
  · exact s.sendVec_chans _ _
  · rfl

theorem State.islRaiseMask_chans (s : State) (p m : Nat) : (s.islRaiseMask p m).chans = s.chans := by
  unfold State.islRaiseMask
  dsimp only
  have h : ∀ (i2 : Isl) (b : Bool), (if b then { s with isl := i2 }.pageIrq (.isl p) else { s with isl := i2 } : State).chans = s.chans := by
    intro i2 b
    split
    · exact State.pageIrq_chans _ _
    · rfl
  exact h _ _

@[simp] theorem State.islRaise_chans (s : State) (p b : Nat) : (s.islRaise p b).chans = s.chans := s.islRaiseMask_chans p _

@[simp] theorem State.islTally_chans (s : State) (p code : Nat) (a : Attr) (n : Nat) : (s.islTally p code a n).chans = s.chans := by
  unfold State.islTally
  dsimp only
  split
  · exact State.islRaise_chans _ _ _
  · rfl

@[simp] theorem State.reject_chans (s : State) (kind : Nat) (rd : Bool) (f addr : Nat) : (s.reject kind rd f addr).chans = s.chans := by
  unfold State.reject
  dsimp only
  rw [State.islRaise_chans]
  split <;> rfl

theorem State.setChState_chans (s : State) (c st : Nat) : (s.setChState c st).chans = s.chans := by
  unfold State.setChState
  split
  · rfl
  · exact State.islRaise_chans _ _ _

/-! A channel's state, its fatal causes, and the delivery of its outputs. -/

theorem State.setChState_confined (s : State) (c : Fin 4) (n st : Nat) : Confined s (s.setChState n st) c := by
  unfold State.setChState
  split
  · exact Confined.refl s c
  · dsimp only
    refine Confined.trans ?_ (State.islRaise_confined _ c _ _)
    exact Confined.island c rfl rfl (List.suffix_refl _) rfl rfl

/-- An event of a host island page is journalled in channel 0, and moves nothing else. -/
theorem State.islJournal_chan (s : State) (page cls ev detail : Nat) (d : Fin 4) :
    (d ≠ 0 → (s.islJournal page cls ev detail).chan d = s.chan d) ∧ Quiet (s.chan 0) ((s.islJournal page cls ev detail).chan 0) ∧
      ((s.chan 0).outQ = [] → ((s.islJournal page cls ev detail).chan 0).outQ = []) := by
  unfold State.islJournal
  split
  · dsimp only
    refine ⟨fun h => ?_, ?_, fun _ => ?_⟩
    · rw [State.flush_chan, if_neg h, State.chan_setChan_ne _ _ h]
    · rw [State.flush_chan, if_pos rfl, State.chan_setChan_same]
      exact (Quiet.jrnlRaw _ _).trans ⟨rfl, fun _ _ => rfl⟩
    · rw [State.flush_chan, if_pos rfl]
  · exact ⟨fun _ => rfl, Quiet.refl _, fun h => h⟩

theorem State.islJournal_confined (s : State) (c : Fin 4) (page cls ev detail : Nat) : Confined s (s.islJournal page cls ev detail) c := by
  have h0 : Confined s (s.islJournal page cls ev detail) 0 := by
    unfold State.islJournal
    split
    · exact (Confined.setChan s 0 _).trans (State.flush_confined _ 0)
    · exact Confined.refl s 0
  have hc := s.islJournal_chan page cls ev detail
  refine ⟨h0.pending, h0.variant, h0.out, h0.pkgFatal, fun d _ hd => (hc d).1 hd, fun _ => (hc 0).2.1.quiet, fun _ => (hc 0).2.1.regs, ?_⟩
  intro h d hd
  by_cases hz : d = 0
  · subst hz; exact (hc 0).2.2 (h 0 hd)
  · rw [(hc d).1 hz]; exact h d hd

theorem State.endTests_confined (s : State) (c : Fin 4) : Confined s (s.endTests c) c := by
  unfold State.endTests
  split
  · exact (Confined.setChan s c _).trans (State.flush_confined _ c)
  · exact Confined.refl s c

/-- A fatal cause of a channel stays in that channel, but for the journal of channel 0. -/
theorem State.fatalChan_confined (s : State) (c : Fin 4) (cause : Nat) (off : Bool) : Confined s (s.fatalChan c cause off) c := by
  unfold State.fatalChan
  split
  · exact Confined.onIsl s c _ rfl
  split
  · dsimp only
    refine Confined.trans (Confined.trans ?_ (Confined.emit _ c _)) (State.islJournal_confined _ c _ _ _ _)
    have h2 := ((s.endTests_confined c).trans (State.setChState_confined _ c c.val 6)).trans
      (Confined.onIsl _ c (fun i => i.putF hpPwr (PWRH.CH_STAT_CAUSE c.val) cause) rfl)
    split
    · exact h2.trans (Confined.onIsl _ c (fun i => { i with forcedOff := setNbit i.forcedOff c.val true }) rfl)
    · exact h2
  · exact Confined.refl s c

theorem State.setChState_outQ (s : State) (n st : Nat) (c : Fin 4) : ((s.setChState n st).chan c).outQ = (s.chan c).outQ := by
  rw [State.chan, State.setChState_chans]; rfl

/-- A fatal cause leaves no output of its channel behind, if none was waiting. -/
theorem State.fatalChan_outQ (s : State) (c : Fin 4) (cause : Nat) (off : Bool) (h : (s.chan c).outQ = []) :
    ((s.fatalChan c cause off).chan c).outQ = [] := by
  unfold State.fatalChan
  split
  · exact h
  split
  · dsimp only
    have ht : ((s.endTests c).chan c).outQ = [] := by
      unfold State.endTests
      split
      · rw [State.flush_chan, if_pos rfl]
      · exact h
    have hj : ∀ t : State, (t.chan c).outQ = [] → ∀ p q r x, ((t.islJournal p q r x).chan c).outQ = [] := by
      intro t h p q r x
      by_cases hz : c = 0
      · subst hz; exact (t.islJournal_chan p q r x 0).2.2 h
      · rw [(t.islJournal_chan p q r x c).1 hz]; exact h
    refine hj _ ?_ _ _ _ _
    rw [State.emit_chan]
    split
    · rw [State.onIsl_chan, State.onIsl_chan, State.setChState_outQ]; exact ht
    · rw [State.onIsl_chan, State.setChState_outQ]; exact ht
  · exact h

/-- Delivering the outputs of a channel empties its queue, and stays in that channel. -/
theorem State.deliver_confined (s : State) (c : Fin 4) : Confined s (s.deliver c) c := by
  unfold State.deliver
  dsimp only
  refine (Confined.setChan s c _).trans (Confined.foldl c _ (fun t o => ?_) _ _)
  split
  · exact t.fatalChan_confined c _ _
  · exact t.deliverOne_confined c _ _ _

theorem State.deliver_outQ (s : State) (c : Fin 4) : ((s.deliver c).chan c).outQ = [] := by
  unfold State.deliver
  dsimp only
  refine foldl_keeps (fun t : State => (t.chan c).outQ = []) _ (fun t o h => ?_) _ _ ?_
  · split
    · exact t.fatalChan_outQ c _ _ h
    · rw [State.chan, State.deliverOne_chan]; exact h
  · rw [State.chan_setChan_same]

/-! Effects on a channel. -/

/-- Whatever an effect on a channel is, it stays in that channel. -/
theorem State.runChan_confined (s : State) (c : Fin 4) (f : Chan → Chan) : Confined s (s.runChan c f) c :=
  (Confined.setChan s c _).trans (State.deliver_confined _ c)

@[simp] theorem State.runChan_outQ (s : State) (c : Fin 4) (f : Chan → Chan) : ((s.runChan c f).chan c).outQ = [] := State.deliver_outQ _ c

/-- A channel that puts nothing out has no FAULT or DEGRADED cause to journal. -/
theorem Chan.journalCauses_quiet (ch : Chan) (h : ch.outQ = []) : ch.journalCauses = ch := by
  rw [Chan.journalCauses, h]; rfl

/-- An effect that puts nothing out is the channel's new value. -/
theorem State.runChan_eq (s : State) (c : Fin 4) (f : Chan → Chan) (h : (f (s.chan c)).outQ = []) :
    s.runChan c f = s.setChan c (f (s.chan c)) := by
  have e : ({ f (s.chan c) with outQ := [] } : Chan) = f (s.chan c) := by rw [← h]
  simp only [State.runChan, State.deliver, State.chan_setChan_same, Chan.journalCauses_quiet _ h, h, List.foldl_nil]
  simp only [State.setChan, Vector.set_set, e]

theorem State.onLive_confined (s : State) (c : Fin 4) (f : Chan → Chan) : Confined s (s.onLive c f) c := by
  unfold State.onLive
  split
  · exact s.runChan_confined c f
  · exact Confined.refl s c

theorem State.onKeeper_confined (s : State) (c : Fin 4) (f : Chan → Chan) : Confined s (s.onKeeper c f) c := by
  unfold State.onKeeper
  split
  · exact s.runChan_confined c f
  · split
    · exact s.runChan_confined c _
    · exact Confined.refl s c

/-- An event of the data path does nothing in a channel that does not run. -/
theorem State.onLive_of_not_live (s : State) (c : Fin 4) (f : Chan → Chan) (h : s.chLive c = false) : s.onLive c f = s := by
  simp [State.onLive, h]

theorem State.onLive_of_live (s : State) (c : Fin 4) (f : Chan → Chan) (h : s.chLive c = true) : s.onLive c f = s.runChan c f := by
  simp [State.onLive, h]

end Sys2Proof.Machine
end

