-- ==== Sys2Proof/Laws/Access.lean ====
section
/-! SUPPORT. What a register access can do, said once: it stays in the accessed channel, and a write of PF0 that nothing forbids is the tally of
the access and the register's hook. -/

namespace Sys2Proof.Machine

/-- A confined effect that leaves nothing undelivered in its channel keeps every channel delivered. -/
theorem Confined.delivered {s t : State} {c : Fin 4} (h : Confined s t c) (hq : (t.chan c).outQ = []) (hd : Delivered s) : Delivered t := by
  intro d
  by_cases e : d = c
  · subst e; exact hq
  · exact h.queued (fun d _ => hd d) d e

theorem State.onPages_confined (s : State) (c : Fin 4) (f : Chan → Chan) : Confined s (s.onPages c f) c := s.runChan_confined c _

theorem State.hookRun_confined (s : State) (c : Fin 4) (off : Nat) (f : Chan → Chan) : Confined s (s.hookRun c off f) c := by
  unfold State.hookRun
  split
  · exact s.runChan_confined c f
  · exact s.onPages_confined c f

/-- In a channel that does not read FATAL an access to a page is an effect like any other. -/
theorem State.onPages_of_not_fatal (s : State) (c : Fin 4) (f : Chan → Chan) (h : s.chState c ≠ 6) : s.onPages c f = s.runChan c f := by
  simp [State.onPages, h]

theorem State.applyWrite_confined (s : State) (hook : Hook) (judge : Bool) (r : Req) (c : Fin 4) (p : Pg) (off : Nat) (k : PageKind)
    (h : RegHit) (v : Word) : Confined s (s.applyWrite hook judge r c p off k h v) c := by
  unfold State.applyWrite
  dsimp only
  split
  · split
    · exact s.setLatch_confined r c _
    · exact Confined.refl s c
  · split
    · split
      · split
        · exact (s.setLatch_confined r c _).trans (State.runChan_confined _ c _)
        · exact (s.setLatch_confined r c _).trans (State.hookRun_confined _ c _ _)
      · split
        · exact s.runChan_confined c _
        · exact s.hookRun_confined c _ _
    · split
      · exact s.runChan_confined c _
      · exact s.hookRun_confined c _ _

theorem State.keeperWrite_confined (s : State) (hook : Hook) (judge : Bool) (kp : Nat) (c : Fin 4) (p : Pg) (off : Nat) (v : Word) :
    Confined s (s.keeperWrite hook judge kp c p off v) c := by
  unfold State.keeperWrite
  split
  · split
    · exact Confined.refl s c
    · split
      · exact Confined.refl s c
      · dsimp only
        split
        · split
          · split
            · exact s.onPages_confined c _
            · exact (s.onPages_confined c _).trans (State.applyWrite_confined _ _ _ _ c _ _ _ _ _)
          · exact s.onPages_confined c _
        · split
          · exact Confined.refl s c
          · exact s.applyWrite_confined _ _ _ c _ _ _ _ _
  · exact Confined.refl s c

theorem State.hostWrite_confined (s : State) (hook : Hook) (judge : Bool) (r : Req) (c : Fin 4) (p : Pg) (off : Nat) (v : Word) :
    Confined s (s.hostWrite hook judge r c p off v) c := by
  unfold State.hostWrite
  have hr : ∀ (t : State) (kind f addr : Nat) (a : Attr), Confined s t c →
      Confined s ((t.reject kind false f addr).onPages c (fun ch => ch.tally p 6 a)) c :=
    fun t kind f addr a h => (h.trans (t.reject_confined c _ _ _ _)).trans (State.onPages_confined _ c _)
  split
  · exact s.unimpl_confined c
  · split
    · exact Confined.refl s c
    · split
      · exact s.unimpl_confined c
      · split
        · exact s.unimpl_confined c
        · dsimp only
          split
          · exact hr _ _ _ _ _ (s.onPages_confined c _)
          · split
            · exact hr _ _ _ _ _ (s.onPages_confined c _)
            · split
              · exact hr _ _ _ _ _ (s.onPages_confined c _)
              · exact (s.onPages_confined c _).trans (State.applyWrite_confined _ _ _ _ c _ _ _ _ _)

/-- A register write to a page of a channel, by any requester and with any hook, stays in that channel. -/
theorem State.chanWrite_confined (s : State) (hook : Hook) (judge : Bool) (r : Req) (c : Fin 4) (p : Pg) (off : Nat) (v : Word) :
    Confined s (s.chanWrite hook judge r c p off v) c := by
  unfold State.chanWrite
  split
  · exact s.keeperWrite_confined hook judge _ c p off v
  · split
    · exact Confined.refl s c
    · exact s.hostWrite_confined hook judge r c p off v

/-- A write of PF0 to a 32-bit register that the page has and no keeper owns, of a legal value where the value is judged: the access is tallied,
and the hook runs on the word by the access codes. -/
theorem State.chanWrite_pf0 (s : State) (hook : Hook) (judge : Bool) (c : Fin 4) (p : Pg) (off : Nat) (v : Word) (k : PageKind) (h : RegHit)
    (hr : HostReady s c) (hk : p.kind = some k) (hf : findReg k off = some h) (hw : h.row.wide = false) (hh : h.high = false)
    (hkw : hasKw h.flds = false) (hj : judge = true → wordLegal k off h v = true) :
    ∃ a : Attr, let s1 := s.onPages c (fun ch => ch.tally p 3 a)
      s.chanWrite hook judge (.func 0) c p off v = s1.hookRun c off (hook ⟨c, p, off, .func 0, (s1.chan c).get p off, v,
        mergeWord h.row.fields ((s1.chan c).get p off) v, none, false⟩) := by
  obtain ⟨⟨hl, -⟩, hdead, hperst, hup⟩ := hr
  have hc : s.hasChan c = true := by simp only [State.chLive, Bool.and_eq_true] at hl; exact hl.1.1
  have hpg : s.chPages c = true := by
    simp only [State.chLive, Bool.and_eq_true, Bool.or_eq_true] at hl
    simp only [State.chPages, Bool.and_eq_true, Bool.or_eq_true]
    refine ⟨⟨hl.1.1, hl.2⟩, ?_⟩
    rcases hl.1.2 with h3 | h4
    · exact Or.inl (Or.inl (Or.inr h3))
    · exact Or.inl (Or.inr h4)
  have hj' : (judge && !(wordLegal k off h v)) = false := by
    cases judge with
    | false => rfl
    | true => simp [hj rfl]
  refine ⟨Req.attr (.func 0) ((s.chan c).partOf 0), ?_⟩
  simp [State.chanWrite, Req.keeper?, State.reach, hdead, hperst, State.hostWrite, hc, hpg, hup, hk, hf, hkw, Req.isPf0, Req.func?,
    State.applyWrite, hw, hh, hj']

end Sys2Proof.Machine
end

