-- ==== Sys2Proof/Laws/PerInstr.lean ====
section
/-! SUPPORT. The family WF, constructor by constructor: the requester of a well-formed command is one that the spec has. -/

namespace Sys2Proof.Laws.WF

set_option Elab.async false

/-- A well-formed access is made by a requester that exists. -/
def Statement (i : Instr) : Prop := i.wf = true → ∀ r, i.req = some r → r.ok = true

theorem ok_only {r r' : Req} (h : r.ok = true) (e : some r = some r') : r'.ok = true := Option.some.inj e ▸ h

theorem ok_and {r r' : Req} {b : Bool} (h : (r.ok && b) = true) (e : some r = some r') : r'.ok = true :=
  Option.some.inj e ▸ (Bool.and_eq_true _ _ ▸ h).1

theorem powerOn : Statement (.powerOn) := fun _ _ e => nomatch e
theorem powerLoss : Statement (.powerLoss) := fun _ _ e => nomatch e
theorem inputOvervoltage : Statement (.inputOvervoltage) := fun _ _ e => nomatch e
theorem inputOvercurrent : Statement (.inputOvercurrent) := fun _ _ e => nomatch e
theorem pwrgoodRise (straps : Nat) : Statement (.pwrgoodRise straps) := fun _ _ e => nomatch e
theorem pwrgoodHoldLow : Statement (.pwrgoodHoldLow) := fun _ _ e => nomatch e
theorem perstAssert : Statement (.perstAssert) := fun _ _ e => nomatch e
theorem perstDeassert : Statement (.perstDeassert) := fun _ _ e => nomatch e
theorem pcieLinkTrained (speed width : Nat) (flit : Bool) : Statement (.pcieLinkTrained speed width flit) := fun _ _ e => nomatch e
theorem flr (f : Nat) : Statement (.flr f) := fun _ _ e => nomatch e
theorem vfEnableChange (on : Bool) : Statement (.vfEnableChange on) := fun _ _ e => nomatch e
theorem msixUnmask (f vmask : Nat) : Statement (.msixUnmask f vmask) := fun _ _ e => nomatch e
theorem chRstAssert (c : Fin 4) : Statement (.chRstAssert c) := fun _ _ e => nomatch e
theorem chRstRelease (c : Fin 4) : Statement (.chRstRelease c) := fun _ _ e => nomatch e
theorem chResetWrite (r : Req) (c : Fin 4) (v : Word) : Statement (.chResetWrite r c v) := fun h _ e => ok_only h e
theorem chPdWrite (r : Req) (c : Fin 4) (v : Word) : Statement (.chPdWrite r c v) := fun h _ e => ok_only h e
theorem chRailsGood (c : Fin 4) : Statement (.chRailsGood c) := fun _ _ e => nomatch e
theorem bistDone (c : Fin 4) (die : Fin 2) (b : BistIn) : Statement (.bistDone c die b) := fun _ _ e => nomatch e
theorem refclkLoss (c : Fin 4) : Statement (.refclkLoss c) := fun _ _ e => nomatch e
theorem sensorSample (c : Fin 4) (die : Fin 3) (temps : List Nat) (rails : List (Nat × Nat)) (mv ma pw : Nat) : Statement (.sensorSample c die temps rails mv ma pw) := fun _ _ e => nomatch e
theorem railShutdown (c : Fin 4) (die : Fin 3) (rail : Nat) : Statement (.railShutdown c die rail) := fun _ _ e => nomatch e
theorem oscThermSample (c : Fin 4) (reading : Nat) : Statement (.oscThermSample c reading) := fun _ _ e => nomatch e
theorem regWrite (r : Req) (addr : Nat) (v : Word) (full : Bool) : Statement (.regWrite r addr v full) := fun h _ e => ok_and h e
theorem rcFieldRead (r : Req) (addr : Nat) : Statement (.rcFieldRead r addr) := fun h _ e => ok_and h e
theorem readLowWord (r : Req) (addr : Nat) : Statement (.readLowWord r addr) := fun h _ e => ok_and h e
theorem readHighWord (r : Req) (addr : Nat) : Statement (.readHighWord r addr) := fun h _ e => ok_and h e
theorem writeLowWord (r : Req) (addr : Nat) (v : Word) : Statement (.writeLowWord r addr v) := fun h _ e => ok_and h e
theorem writeHighWord (r : Req) (addr : Nat) (v : Word) : Statement (.writeHighWord r addr v) := fun h _ e => ok_and h e
theorem unsupportedAccess (r : Req) (addr : Nat) : Statement (.unsupportedAccess r addr) := fun h _ e => ok_and h e
theorem softReset (r : Req) (addr : Nat) : Statement (.softReset r addr) := fun h _ e => ok_and h e
theorem softResetDone (addr : Nat) : Statement (.softResetDone addr) := fun _ _ e => nomatch e
theorem enableWrite (r : Req) (addr : Nat) (on : Bool) : Statement (.enableWrite r addr on) := fun h _ e => ok_and h e
theorem quiesceReq (r : Req) (addr : Nat) (on : Bool) : Statement (.quiesceReq r addr on) := fun h _ e => ok_and h e
theorem quiesceDone (addr : Nat) : Statement (.quiesceDone addr) := fun _ _ e => nomatch e
theorem testTakeoverClear (r : Req) (addr : Nat) : Statement (.testTakeoverClear r addr) := fun h _ e => ok_and h e
theorem intForce (r : Req) (addr : Nat) (v : Word) : Statement (.intForce r addr v) := fun h _ e => ok_and h e
theorem tallyClear (r : Req) (addr : Nat) : Statement (.tallyClear r addr) := fun h _ e => ok_and h e
theorem relayFlitRx (c : Fin 4) (crcOk : Bool) : Statement (.relayFlitRx c crcOk) := fun _ _ e => nomatch e
theorem relayAutoRetrain (c : Fin 4) : Statement (.relayAutoRetrain c) := fun _ _ e => nomatch e
theorem relayRetrain (r : Req) (c : Fin 4) (v : Word) : Statement (.relayRetrain r c v) := fun h _ e => ok_only h e
theorem relayRetrainDone (c : Fin 4) (ok : Bool) : Statement (.relayRetrainDone c ok) := fun _ _ e => nomatch e
theorem lockstepMismatch (c : Fin 4) (k : Fin 2) : Statement (.lockstepMismatch c k) := fun _ _ e => nomatch e
theorem selfDiagFail (c : Fin 4) (k : Fin 2) : Statement (.selfDiagFail c k) := fun _ _ e => nomatch e
theorem keeperSramUe (c : Fin 4) (k : Fin 2) (replicated : Bool) : Statement (.keeperSramUe c k replicated) := fun _ _ e => nomatch e
theorem keeperCycleBoundary (c : Fin 4) (inp : CycleIn) : Statement (.keeperCycleBoundary c inp) := fun _ _ e => nomatch e
theorem wdogForceClaim (c : Fin 4) (k : Fin 2) : Statement (.wdogForceClaim c k) := fun _ _ e => nomatch e
theorem copyPoint (c : Fin 4) (tooBig : Bool) (bad : Nat) : Statement (.copyPoint c tooBig bad) := fun _ _ e => nomatch e
theorem claimWrite (c : Fin 4) (k : Fin 2) (v : Nat) : Statement (.claimWrite c k v) := fun _ _ e => nomatch e
theorem keeperWrite (c : Fin 4) (k : Fin 2) (die : Fin 2) (page off : Nat) (v : Word) : Statement (.keeperWrite c k die page off v) := fun _ _ e => nomatch e
theorem repairCheckDone (c : Fin 4) (k : Fin 2) (res : Nat) : Statement (.repairCheckDone c k res) := fun _ _ e => nomatch e
theorem partnerAbsentTimeout (c : Fin 4) (k : Fin 2) : Statement (.partnerAbsentTimeout c k) := fun _ _ e => nomatch e
theorem keeperBootDone (c : Fin 4) (k : Fin 2) : Statement (.keeperBootDone c k) := fun _ _ e => nomatch e
theorem fwLoad (r : Req) (c : Fin 4) (k : Fin 2) : Statement (.fwLoad r c k) := fun h _ e => ok_only h e
theorem fwLoadDone (c : Fin 4) (k : Fin 2) (header code : List Byte) (sigOk : Bool) (dma : Nat) : Statement (.fwLoadDone c k header code sigOk dma) := fun _ _ e => nomatch e
theorem keepSoftReset (r : Req) (c : Fin 4) (k : Fin 2) : Statement (.keepSoftReset r c k) := fun h _ e => ok_only h e
theorem keepEnableWrite (r : Req) (c : Fin 4) (k : Fin 2) (on : Bool) : Statement (.keepEnableWrite r c k on) := fun h _ e => ok_only h e
theorem getInfo (r : Req) (c : Fin 4) (k : Fin 2) (tag : Nat) : Statement (.getInfo r c k tag) := fun h _ e => ok_and h e
theorem handover (r : Req) (c : Fin 4) (k : Fin 2) (tag : Nat) : Statement (.handover r c k tag) := fun h _ e => ok_and h e
theorem handoverClaimDrop (c : Fin 4) : Statement (.handoverClaimDrop c) := fun _ _ e => nomatch e
theorem jrnlMark (r : Req) (c : Fin 4) (k : Fin 2) (tag : Nat) : Statement (.jrnlMark r c k tag) := fun h _ e => ok_and h e
theorem svnCommit (r : Req) (c : Fin 4) (k : Fin 2) (tag : Nat) : Statement (.svnCommit r c k tag) := fun h _ e => ok_and h e
theorem svcBadOpcode (r : Req) (c : Fin 4) (k : Fin 2) (tag op : Nat) : Statement (.svcBadOpcode r c k tag op) := fun h _ e => ok_and h e
theorem keeperHalt (c : Fin 4) (k : Fin 2) : Statement (.keeperHalt c k) := fun _ _ e => nomatch e
theorem keeperResume (c : Fin 4) (k : Fin 2) : Statement (.keeperResume c k) := fun _ _ e => nomatch e
theorem jrnlClear (r : Req) (c : Fin 4) : Statement (.jrnlClear r c) := fun h _ e => ok_only h e
theorem jrnlUnfreeze (r : Req) (c : Fin 4) : Statement (.jrnlUnfreeze r c) := fun h _ e => ok_only h e
theorem jrnlRdIdxWrite (r : Req) (c : Fin 4) (die : Fin 2) (idx : Nat) : Statement (.jrnlRdIdxWrite r c die idx) := fun h _ e => ok_and h e
theorem jrnlStreamEntry (c : Fin 4) (desc : List Byte) (descErr dmaErr : Bool) : Statement (.jrnlStreamEntry c desc descErr dmaErr) := fun _ _ e => nomatch e
theorem oscFail (c : Fin 4) (stopped : Bool) (ppb : Nat) : Statement (.oscFail c stopped ppb) := fun _ _ e => nomatch e
theorem clkReturn (c : Fin 4) (k : Fin 2) : Statement (.clkReturn c k) := fun _ _ e => nomatch e
theorem todSnapshot (r : Req) (c : Fin 4) : Statement (.todSnapshot r c) := fun h _ e => ok_only h e
theorem ppsInEdge (c : Fin 4) (pol short : Bool) : Statement (.ppsInEdge c pol short) := fun _ _ e => nomatch e
theorem ppsMiss (c : Fin 4) : Statement (.ppsMiss c) := fun _ _ e => nomatch e
theorem todInFrame (c : Fin 4) (bytes : List Byte) : Statement (.todInFrame c bytes) := fun _ _ e => nomatch e
theorem todFrameAbandon (c : Fin 4) : Statement (.todFrameAbandon c) := fun _ _ e => nomatch e
theorem cosyStep (c : Fin 4) (k : Fin 2) : Statement (.cosyStep c k) := fun _ _ e => nomatch e
theorem servoTick (c : Fin 4) (k : Fin 2) (v : Word) (work : Option ServoIn) : Statement (.servoTick c k v work) := fun _ _ e => nomatch e
theorem servoTimeout (c : Fin 4) : Statement (.servoTimeout c) := fun _ _ e => nomatch e
theorem hwHoldoverExpiry (c : Fin 4) : Statement (.hwHoldoverExpiry c) := fun _ _ e => nomatch e
theorem cosyEnableWrite (r : Req) (c : Fin 4) (on : Bool) : Statement (.cosyEnableWrite r c on) := fun h _ e => ok_only h e
theorem ppsOutEdge (c : Fin 4) : Statement (.ppsOutEdge c) := fun _ _ e => nomatch e
theorem todOutFrame (c : Fin 4) : Statement (.todOutFrame c) := fun _ _ e => nomatch e
theorem setDefaultDs (r : Req) (c : Fin 4) (k : Fin 2) (tag : Nat) : Statement (.setDefaultDs r c k tag) := fun h _ e => ok_and h e
theorem setPortDs (r : Req) (c : Fin 4) (k : Fin 2) (tag : Nat) : Statement (.setPortDs r c k tag) := fun h _ e => ok_and h e
theorem getPortDs (r : Req) (c : Fin 4) (k : Fin 2) (tag : Nat) : Statement (.getPortDs r c k tag) := fun h _ e => ok_and h e
theorem addPeer (r : Req) (c : Fin 4) (k : Fin 2) (tag : Nat) : Statement (.addPeer r c k tag) := fun h _ e => ok_and h e
theorem delPeer (r : Req) (c : Fin 4) (k : Fin 2) (tag : Nat) : Statement (.delPeer r c k tag) := fun h _ e => ok_and h e
theorem getStatus (r : Req) (c : Fin 4) (k : Fin 2) (tag : Nat) : Statement (.getStatus r c k tag) := fun h _ e => ok_and h e
theorem setTime (r : Req) (c : Fin 4) (k : Fin 2) (tag : Nat) : Statement (.setTime r c k tag) := fun h _ e => ok_and h e
theorem setTimeProps (r : Req) (c : Fin 4) (k : Fin 2) (tag : Nat) : Statement (.setTimeProps r c k tag) := fun h _ e => ok_and h e
theorem saveModel (r : Req) (c : Fin 4) (k : Fin 2) (tag : Nat) (dmaErr : Bool) : Statement (.saveModel r c k tag dmaErr) := fun h _ e => ok_and h e
theorem loadModel (r : Req) (c : Fin 4) (k : Fin 2) (tag : Nat) (rec_ : List Byte) (dmaErr : Bool) : Statement (.loadModel r c k tag rec_ dmaErr) := fun h _ e => ok_and h e
theorem resetModel (r : Req) (c : Fin 4) (k : Fin 2) (tag : Nat) : Statement (.resetModel r c k tag) := fun h _ e => ok_and h e
theorem arm (r : Req) (c : Fin 4) (kport : Bool) (target : Nat) (lateExec localOk autoFree notify : Bool) : Statement (.arm r c kport target lateExec localOk autoFree notify) := fun h _ e => ok_and h e
theorem cancel (r : Req) (c : Fin 4) (kport : Bool) (slot : Nat) (sent : Bool) : Statement (.cancel r c kport slot sent) := fun h _ e => ok_and h e
theorem free (r : Req) (c : Fin 4) (kport : Bool) (slot : Nat) : Statement (.free r c kport slot) := fun h _ e => ok_and h e
theorem slotRdIdxWrite (r : Req) (c : Fin 4) (slot : Nat) : Statement (.slotRdIdxWrite r c slot) := fun h _ e => ok_and h e
theorem pour (c : Fin 4) (slot : Nat) : Statement (.pour c slot) := fun _ _ e => nomatch e
theorem gateSwap (c : Fin 4) (slot : Nat) : Statement (.gateSwap c slot) := fun _ _ e => nomatch e
theorem calSwitch (c : Fin 4) (slot : Nat) : Statement (.calSwitch c slot) := fun _ _ e => nomatch e
theorem slotPage (c : Fin 4) (slot : Nat) : Statement (.slotPage c slot) := fun _ _ e => nomatch e
theorem portEnable (c : Fin 4) (slot : Nat) : Statement (.portEnable c slot) := fun _ _ e => nomatch e
theorem sampler (c : Fin 4) (slot : Nat) : Statement (.sampler c slot) := fun _ _ e => nomatch e
theorem pmBin (c : Fin 4) (slot : Nat) : Statement (.pmBin c slot) := fun _ _ e => nomatch e
theorem hbmRetrain (c : Fin 4) (slot : Nat) : Statement (.hbmRetrain c slot) := fun _ _ e => nomatch e
theorem jrnlMarker (c : Fin 4) (slot : Nat) : Statement (.jrnlMarker c slot) := fun _ _ e => nomatch e
theorem stage (r : Req) (c : Fin 4) (hold : Bool) : Statement (.stage r c hold) := fun h _ e => ok_only h e
theorem stageDone (c : Fin 4) (img : List Byte) (dmaErr : Option Nat) : Statement (.stageDone c img dmaErr) := fun _ _ e => nomatch e
theorem commit (r : Req) (c : Fin 4) (hold : Bool) : Statement (.commit r c hold) := fun h _ e => ok_only h e
theorem discard (r : Req) (c : Fin 4) (hold : Bool) : Statement (.discard r c hold) := fun h _ e => ok_only h e
theorem discardSweepDone (c : Fin 4) : Statement (.discardSweepDone c) := fun _ _ e => nomatch e
theorem retire (c : Fin 4) : Statement (.retire c) := fun _ _ e => nomatch e
theorem retireSweepDone (c : Fin 4) : Statement (.retireSweepDone c) := fun _ _ e => nomatch e
theorem pourTagSettle (c : Fin 4) : Statement (.pourTagSettle c) := fun _ _ e => nomatch e
theorem rxFrame (c : Fin 4) (port : Nat) (bytes : List Byte) (truncated fragErr : Bool) (corrCw corrSym : Nat) : Statement (.rxFrame c port bytes truncated fragErr corrCw corrSym) := fun _ _ e => nomatch e
theorem fecUncorrCw (c : Fin 4) (port lane syms : Nat) : Statement (.fecUncorrCw c port lane syms) := fun _ _ e => nomatch e
theorem portCfgWrite (r : Req) (c : Fin 4) (port : Nat) (v : Word) : Statement (.portCfgWrite r c port v) := fun h _ e => ok_and h e
theorem portEnWrite (r : Req) (c : Fin 4) (port : Nat) (on : Bool) : Statement (.portEnWrite r c port on) := fun h _ e => ok_and h e
theorem portDiscardWrite (r : Req) (c : Fin 4) (port : Nat) (on : Bool) : Statement (.portDiscardWrite r c port on) := fun h _ e => ok_and h e
theorem recal (r : Req) (c : Fin 4) (port : Nat) : Statement (.recal r c port) := fun h _ e => ok_and h e
theorem restartAn (r : Req) (c : Fin 4) (port : Nat) : Statement (.restartAn r c port) := fun h _ e => ok_and h e
theorem cntClear (r : Req) (c : Fin 4) (port : Nat) : Statement (.cntClear r c port) := fun h _ e => ok_and h e
theorem laneCfgWrite (r : Req) (c : Fin 4) (lane : Nat) (v : Word) : Statement (.laneCfgWrite r c lane v) := fun h _ e => ok_and h e
theorem recalDone (c : Fin 4) (port : Nat) (stopped : Bool) : Statement (.recalDone c port stopped) := fun _ _ e => nomatch e
theorem linkTrained (c : Fin 4) (port : Nat) : Statement (.linkTrained c port) := fun _ _ e => nomatch e
theorem ltFail (c : Fin 4) (port lane : Nat) : Statement (.ltFail c port lane) := fun _ _ e => nomatch e
theorem ltRetry (c : Fin 4) (port : Nat) : Statement (.ltRetry c port) := fun _ _ e => nomatch e
theorem portFault (c : Fin 4) (port lane kind : Nat) : Statement (.portFault c port lane kind) := fun _ _ e => nomatch e
theorem downHoldExpiry (c : Fin 4) (port : Nat) : Statement (.downHoldExpiry c port) := fun _ _ e => nomatch e
theorem upHoldExpiry (c : Fin 4) (port : Nat) : Statement (.upHoldExpiry c port) := fun _ _ e => nomatch e
theorem laneMargin (c : Fin 4) (lane margin : Nat) : Statement (.laneMargin c lane margin) := fun _ _ e => nomatch e
theorem pfcPauseExpiry (c : Fin 4) (port cls : Nat) : Statement (.pfcPauseExpiry c port cls) := fun _ _ e => nomatch e
theorem pfcWd (c : Fin 4) (port cls : Nat) : Statement (.pfcWd c port cls) := fun _ _ e => nomatch e
theorem pfcXoffRepeat (c : Fin 4) (port cls : Nat) : Statement (.pfcXoffRepeat c port cls) := fun _ _ e => nomatch e
theorem preemptVerifyDone (c : Fin 4) (port : Nat) (ok : Bool) : Statement (.preemptVerifyDone c port ok) := fun _ _ e => nomatch e
theorem frameLaunch (c : Fin 4) (port pos : Nat) : Statement (.frameLaunch c port pos) := fun _ _ e => nomatch e
theorem flexeMemberDefect (c : Fin 4) (g k : Nat) (lof lom gidm pidm rpf los : Bool) : Statement (.flexeMemberDefect c g k lof lom gidm pidm rpf los) := fun _ _ e => nomatch e
theorem groupAligned (c : Fin 4) (g : Nat) (ok : Bool) : Statement (.groupAligned c g ok) := fun _ _ e => nomatch e
theorem ohFrameRx (c : Fin 4) (g k : Nat) (crcOk : Bool) (calC cr ca : Nat) (labels : List (Nat × Nat)) : Statement (.ohFrameRx c g k crcOk calC cr ca labels) := fun _ _ e => nomatch e
theorem calSwitchReq (r : Req) (c : Fin 4) (g target : Nat) : Statement (.calSwitchReq r c g target) := fun h _ e => ok_and h e
theorem calSwitchInstant (c : Fin 4) (g : Nat) : Statement (.calSwitchInstant c g) := fun _ _ e => nomatch e
theorem caTimeout (c : Fin 4) (g : Nat) : Statement (.caTimeout c g) := fun _ _ e => nomatch e
theorem connMemWrite (r : Req) (c : Fin 4) (g page slot : Nat) (v : Word) : Statement (.connMemWrite r c g page slot v) := fun h _ e => ok_and h e
theorem slotCommit (r : Req) (c : Fin 4) (g : Nat) : Statement (.slotCommit r c g) := fun h _ e => ok_and h e
theorem slotCommitDone (c : Fin 4) (g : Nat) : Statement (.slotCommitDone c g) := fun _ _ e => nomatch e
theorem slotSwitch (r : Req) (c : Fin 4) (g : Nat) : Statement (.slotSwitch r c g) := fun h _ e => ok_and h e
theorem pageSwitchInstant (c : Fin 4) (g : Nat) : Statement (.pageSwitchInstant c g) := fun _ _ e => nomatch e
theorem slotParityErr (c : Fin 4) (g slot : Nat) : Statement (.slotParityErr c g slot) := fun _ _ e => nomatch e
theorem pmSecondLatch (c : Fin 4) (step : Bool) (recs : List (Nat × Nat × Nat)) : Statement (.pmSecondLatch c step recs) := fun _ _ e => nomatch e
theorem pmLatchAck (c : Fin 4) (k : Fin 2) : Statement (.pmLatchAck c k) := fun _ _ e => nomatch e
theorem pmRead (r : Req) (c : Fin 4) (k : Fin 2) (tag : Nat) : Statement (.pmRead r c k tag) := fun h _ e => ok_and h e
theorem pmReset (r : Req) (c : Fin 4) (k : Fin 2) (tag : Nat) : Statement (.pmReset r c k tag) := fun h _ e => ok_and h e
theorem dispatch (c : Fin 4) : Statement (.dispatch c) := fun _ _ e => nomatch e
theorem pZero (c : Fin 4) (tid : Nat) : Statement (.pZero c tid) := fun _ _ e => nomatch e
theorem pNop (c : Fin 4) (tid : Nat) : Statement (.pNop c tid) := fun _ _ e => nomatch e
theorem pDone (c : Fin 4) (tid : Nat) : Statement (.pDone c tid) := fun _ _ e => nomatch e
theorem pExt (c : Fin 4) (tid : Nat) : Statement (.pExt c tid) := fun _ _ e => nomatch e
theorem pExtf (c : Fin 4) (tid : Nat) : Statement (.pExtf c tid) := fun _ _ e => nomatch e
theorem pAdv (c : Fin 4) (tid : Nat) : Statement (.pAdv c tid) := fun _ _ e => nomatch e
theorem pEmit (c : Fin 4) (tid : Nat) : Statement (.pEmit c tid) := fun _ _ e => nomatch e
theorem pEmiti (c : Fin 4) (tid : Nat) : Statement (.pEmiti c tid) := fun _ _ e => nomatch e
theorem pAlu (c : Fin 4) (tid : Nat) : Statement (.pAlu c tid) := fun _ _ e => nomatch e
theorem pAlui (c : Fin 4) (tid : Nat) : Statement (.pAlui c tid) := fun _ _ e => nomatch e
theorem pMovi (c : Fin 4) (tid : Nat) : Statement (.pMovi c tid) := fun _ _ e => nomatch e
theorem pHash (c : Fin 4) (tid : Nat) : Statement (.pHash c tid) := fun _ _ e => nomatch e
theorem pCsum (c : Fin 4) (tid : Nat) : Statement (.pCsum c tid) := fun _ _ e => nomatch e
theorem pPtl (c : Fin 4) (tid : Nat) : Statement (.pPtl c tid) := fun _ _ e => nomatch e
theorem pBr (c : Fin 4) (tid : Nat) : Statement (.pBr c tid) := fun _ _ e => nomatch e
theorem pBrx (c : Fin 4) (tid : Nat) : Statement (.pBrx c tid) := fun _ _ e => nomatch e
theorem pMatch (c : Fin 4) (tid : Nat) : Statement (.pMatch c tid) := fun _ _ e => nomatch e
theorem pLock (c : Fin 4) (tid : Nat) : Statement (.pLock c tid) := fun _ _ e => nomatch e
theorem pTrylock (c : Fin 4) (tid : Nat) : Statement (.pTrylock c tid) := fun _ _ e => nomatch e
theorem pUnlock (c : Fin 4) (tid : Nat) : Statement (.pUnlock c tid) := fun _ _ e => nomatch e
theorem pMbw (c : Fin 4) (tid : Nat) : Statement (.pMbw c tid) := fun _ _ e => nomatch e
theorem pMbs (c : Fin 4) (tid : Nat) : Statement (.pMbs c tid) := fun _ _ e => nomatch e
theorem pMbr (c : Fin 4) (tid : Nat) : Statement (.pMbr c tid) := fun _ _ e => nomatch e
theorem pWfe (c : Fin 4) (tid : Nat) : Statement (.pWfe c tid) := fun _ _ e => nomatch e
theorem pSev (c : Fin 4) (tid : Nat) : Statement (.pSev c tid) := fun _ _ e => nomatch e
theorem pTmr (c : Fin 4) (tid : Nat) : Statement (.pTmr c tid) := fun _ _ e => nomatch e
theorem pTime (c : Fin 4) (tid : Nat) : Statement (.pTime c tid) := fun _ _ e => nomatch e
theorem pRdf (c : Fin 4) (tid : Nat) : Statement (.pRdf c tid) := fun _ _ e => nomatch e
theorem pWrf (c : Fin 4) (tid : Nat) : Statement (.pWrf c tid) := fun _ _ e => nomatch e
theorem lookupReturn (c : Fin 4) (tid : Nat) : Statement (.lookupReturn c tid) := fun _ _ e => nomatch e
theorem threadTimerExpiry (c : Fin 4) (tid : Nat) : Statement (.threadTimerExpiry c tid) := fun _ _ e => nomatch e
theorem lockGrant (c : Fin 4) (tid : Nat) : Statement (.lockGrant c tid) := fun _ _ e => nomatch e
theorem eventWake (c : Fin 4) (tid : Nat) : Statement (.eventWake c tid) := fun _ _ e => nomatch e
theorem reorderSkip (c : Fin 4) (ctx : Nat) : Statement (.reorderSkip c ctx) := fun _ _ e => nomatch e
theorem engineStall (c : Fin 4) (engine : Nat) : Statement (.engineStall c engine) := fun _ _ e => nomatch e
theorem clusterStall (c : Fin 4) (cluster : Nat) : Statement (.clusterStall c cluster) := fun _ _ e => nomatch e
theorem threadRegUe (c : Fin 4) (tid : Nat) : Statement (.threadRegUe c tid) := fun _ _ e => nomatch e
theorem instrPoison (c : Fin 4) (cluster bank index : Nat) : Statement (.instrPoison c cluster bank index) := fun _ _ e => nomatch e
theorem dbgHalt (r : Req) (c : Fin 4) : Statement (.dbgHalt r c) := fun h _ e => ok_only h e
theorem dbgResume (r : Req) (c : Fin 4) : Statement (.dbgResume r c) := fun h _ e => ok_only h e
theorem dbgStep (r : Req) (c : Fin 4) : Statement (.dbgStep r c) := fun h _ e => ok_only h e
theorem dbgDetach (r : Req) (c : Fin 4) : Statement (.dbgDetach r c) := fun h _ e => ok_only h e
theorem dbgRegWrite (r : Req) (c : Fin 4) : Statement (.dbgRegWrite r c) := fun h _ e => ok_only h e
theorem dbgEvent (r : Req) (c : Fin 4) : Statement (.dbgEvent r c) := fun h _ e => ok_only h e
theorem dbgRegIdxWrite (r : Req) (c : Fin 4) (idx : Nat) : Statement (.dbgRegIdxWrite r c idx) := fun h _ e => ok_and h e
theorem breakpointHit (c : Fin 4) (tid : Nat) : Statement (.breakpointHit c tid) := fun _ _ e => nomatch e
theorem ptblIdxWrite (r : Req) (c : Fin 4) (cluster bank index : Nat) : Statement (.ptblIdxWrite r c cluster bank index) := fun h _ e => ok_and h e
theorem strainerDistribute (c : Fin 4) (egress : Bool) : Statement (.strainerDistribute c egress) := fun _ _ e => nomatch e
theorem strainerStage (c : Fin 4) (pipe pos : Nat) (lookLate countLate policeLate lpmBad : Bool) (freeze replays : Nat) (cfgErr : Option Nat) : Statement (.strainerStage c pipe pos lookLate countLate policeLate lpmBad freeze replays cfgErr) := fun _ _ e => nomatch e
theorem strainerVerdict (c : Fin 4) (pipe : Nat) (full : Bool) : Statement (.strainerVerdict c pipe full) := fun _ _ e => nomatch e
theorem tableCreate (r : Req) (c : Fin 4) (kport : Bool) (table : Nat) : Statement (.tableCreate r c kport table) := fun h _ e => ok_and h e
theorem tableDestroy (r : Req) (c : Fin 4) (kport : Bool) (table : Nat) : Statement (.tableDestroy r c kport table) := fun h _ e => ok_and h e
theorem insert (r : Req) (c : Fin 4) (kport : Bool) (table : Nat) : Statement (.insert r c kport table) := fun h _ e => ok_and h e
theorem update (r : Req) (c : Fin 4) (kport : Bool) (table : Nat) : Statement (.update r c kport table) := fun h _ e => ok_and h e
theorem delete (r : Req) (c : Fin 4) (kport : Bool) (table : Nat) : Statement (.delete r c kport table) := fun h _ e => ok_and h e
theorem tblLookup (r : Req) (c : Fin 4) (kport : Bool) (table : Nat) : Statement (.tblLookup r c kport table) := fun h _ e => ok_and h e
theorem search (r : Req) (c : Fin 4) (kport : Bool) (table : Nat) : Statement (.search r c kport table) := fun h _ e => ok_and h e
theorem next (r : Req) (c : Fin 4) (kport : Bool) (table : Nat) : Statement (.next r c kport table) := fun h _ e => ok_and h e
theorem flushByPort (r : Req) (c : Fin 4) (kport : Bool) (table : Nat) : Statement (.flushByPort r c kport table) := fun h _ e => ok_and h e
theorem flushByPortDone (c : Fin 4) (table : Nat) : Statement (.flushByPortDone c table) := fun _ _ e => nomatch e
theorem ageSweep (r : Req) (c : Fin 4) (kport : Bool) (table : Nat) : Statement (.ageSweep r c kport table) := fun h _ e => ok_and h e
theorem agingSweep (c : Fin 4) (table : Nat) : Statement (.agingSweep c table) := fun _ _ e => nomatch e
theorem learnFlush (r : Req) (c : Fin 4) : Statement (.learnFlush r c) := fun h _ e => ok_only h e
theorem tblScrub (c : Fin 4) (table rep line : Nat) (uncorr : Bool) (syn word : Nat) : Statement (.tblScrub c table rep line uncorr syn word) := fun _ _ e => nomatch e
theorem ternScrub (c : Fin 4) (table index : Nat) (uncorr : Bool) (syn : Nat) : Statement (.ternScrub c table index uncorr syn) := fun _ _ e => nomatch e
theorem divergenceConfirm (c : Fin 4) (table whr : Nat) (replica : Bool) (rec_ : List Byte) : Statement (.divergenceConfirm c table whr replica rec_) := fun _ _ e => nomatch e
theorem bankRotate (r : Req) (c : Fin 4) (k : Fin 2) (tag : Nat) : Statement (.bankRotate r c k tag) := fun h _ e => ok_and h e
theorem bankRotateDone (c : Fin 4) (bank : Nat) : Statement (.bankRotateDone c bank) := fun _ _ e => nomatch e
theorem bankRestore (r : Req) (c : Fin 4) (k : Fin 2) (tag : Nat) : Statement (.bankRestore r c k tag) := fun h _ e => ok_and h e
theorem bankRetire (r : Req) (c : Fin 4) (k : Fin 2) (tag : Nat) : Statement (.bankRetire r c k tag) := fun h _ e => ok_and h e
theorem shadowSet (r : Req) (c : Fin 4) (k : Fin 2) (tag : Nat) : Statement (.shadowSet r c k tag) := fun h _ e => ok_and h e
theorem compare (r : Req) (c : Fin 4) (k : Fin 2) (tag found : Nat) (dmaErr : Bool) : Statement (.compare r c k tag found dmaErr) := fun h _ e => ok_and h e
theorem repair (r : Req) (c : Fin 4) (k : Fin 2) (tag : Nat) (recs : List (List Byte)) (dmaErr : Bool) : Statement (.repair r c k tag recs dmaErr) := fun h _ e => ok_and h e
theorem bankStatus (r : Req) (c : Fin 4) (k : Fin 2) (tag : Nat) : Statement (.bankStatus r c k tag) := fun h _ e => ok_and h e
theorem bufferAlloc (c : Fin 4) (req h : Nat) : Statement (.bufferAlloc c req h) := fun _ _ e => nomatch e
theorem spillRequest (c : Fin 4) (req h : Nat) : Statement (.spillRequest c req h) := fun _ _ e => nomatch e
theorem hbmWriteAck (c : Fin 4) (h : Nat) : Statement (.hbmWriteAck c h) := fun _ _ e => nomatch e
theorem admission (c : Fin 4) (h : Nat) : Statement (.admission c h) := fun _ _ e => nomatch e
theorem bufferFree (c : Fin 4) (h a : Nat) (part : Option Nat) : Statement (.bufferFree c h a part) := fun _ _ e => nomatch e
theorem freeCmd (r : Req) (c : Fin 4) (acct : Nat) : Statement (.freeCmd r c acct) := fun h _ e => ok_and h e
theorem orphanSweep (c : Fin 4) : Statement (.orphanSweep c) := fun _ _ e => nomatch e
theorem regionAssign (r : Req) (c : Fin 4) (kport : Bool) (cls first : Nat) : Statement (.regionAssign r c kport cls first) := fun h _ e => ok_and h e
theorem regionMove (r : Req) (c : Fin 4) (kport : Bool) (cls first : Nat) : Statement (.regionMove r c kport cls first) := fun h _ e => ok_and h e
theorem regionCancel (r : Req) (c : Fin 4) (kport : Bool) (first : Nat) : Statement (.regionCancel r c kport first) := fun h _ e => ok_and h e
theorem regionFence (r : Req) (c : Fin 4) (kport : Bool) (first : Nat) : Statement (.regionFence r c kport first) := fun h _ e => ok_and h e
theorem regionUnfence (r : Req) (c : Fin 4) (kport : Bool) (first : Nat) : Statement (.regionUnfence r c kport first) := fun h _ e => ok_and h e
theorem regionRetire (r : Req) (c : Fin 4) (kport : Bool) (first : Nat) : Statement (.regionRetire r c kport first) := fun h _ e => ok_and h e
theorem regionPurge (r : Req) (c : Fin 4) (kport : Bool) (first : Nat) : Statement (.regionPurge r c kport first) := fun h _ e => ok_and h e
theorem regionRdIdxWrite (r : Req) (c : Fin 4) (region : Nat) : Statement (.regionRdIdxWrite r c region) := fun h _ e => ok_and h e
theorem acctPoolWrite (r : Req) (c : Fin 4) (v : Word) : Statement (.acctPoolWrite r c v) := fun h _ e => ok_only h e
theorem acctOpen (r : Req) (c : Fin 4) (part : Nat) : Statement (.acctOpen r c part) := fun h _ e => ok_and h e
theorem acctClose (r : Req) (c : Fin 4) (part : Nat) : Statement (.acctClose r c part) := fun h _ e => ok_and h e
theorem qSelWrite (r : Req) (c : Fin 4) (v : Word) : Statement (.qSelWrite r c v) := fun h _ e => ok_only h e
theorem flushRange (r : Req) (c : Fin 4) : Statement (.flushRange r c) := fun h _ e => ok_only h e
theorem flushAccount (r : Req) (c : Fin 4) : Statement (.flushAccount r c) := fun h _ e => ok_only h e
theorem flushPartition (r : Req) (c : Fin 4) : Statement (.flushPartition r c) := fun h _ e => ok_only h e
theorem flushComplete (c : Fin 4) : Statement (.flushComplete c) := fun _ _ e => nomatch e
theorem mcReplicate (c : Fin 4) (h : Nat) : Statement (.mcReplicate c h) := fun _ _ e => nomatch e
theorem holdWindowExpiry (c : Fin 4) (port : Nat) : Statement (.holdWindowExpiry c port) := fun _ _ e => nomatch e
theorem egressQueueMap (c : Fin 4) (h : Nat) : Statement (.egressQueueMap c h) := fun _ _ e => nomatch e
theorem schedRelease (c : Fin 4) (ports : List (Nat × Bool)) : Statement (.schedRelease c ports) := fun _ _ e => nomatch e
theorem nodeSelWrite (r : Req) (c : Fin 4) (node : Nat) : Statement (.nodeSelWrite r c node) := fun h _ e => ok_and h e
theorem nodeCmd (r : Req) (c : Fin 4) : Statement (.nodeCmd r c) := fun h _ e => ok_only h e
theorem nodeUe (c : Fin 4) (node word : Nat) : Statement (.nodeUe c node word) := fun _ _ e => nomatch e
theorem swapStart (c : Fin 4) (list : Nat) : Statement (.swapStart c list) := fun _ _ e => nomatch e
theorem entIdxWrite (r : Req) (c : Fin 4) (oper : Bool) (idx : Nat) : Statement (.entIdxWrite r c oper idx) := fun h _ e => ok_and h e
theorem entDurWrite (r : Req) (c : Fin 4) (dur : Nat) : Statement (.entDurWrite r c dur) := fun h _ e => ok_and h e
theorem listUe (c : Fin 4) (list entry : Nat) : Statement (.listUe c list entry) := fun _ _ e => nomatch e
theorem cellTx (c : Fin 4) (lane : Nat) (hdrErr : Bool) : Statement (.cellTx c lane hdrErr) := fun _ _ e => nomatch e
theorem cellRx (c : Fin 4) (lane : Nat) (bytes : List Byte) : Statement (.cellRx c lane bytes) := fun _ _ e => nomatch e
theorem reasmTimeout (c : Fin 4) (k : Nat) : Statement (.reasmTimeout c k) := fun _ _ e => nomatch e
theorem reasmResync (c : Fin 4) (k : Nat) : Statement (.reasmResync c k) := fun _ _ e => nomatch e
theorem laneLeaveActive (c : Fin 4) (lane : Nat) (fec : Bool) (inflight : Nat) : Statement (.laneLeaveActive c lane fec inflight) := fun _ _ e => nomatch e
theorem spareActivate (c : Fin 4) (lane : Nat) : Statement (.spareActivate c lane) := fun _ _ e => nomatch e
theorem helloTx (c : Fin 4) : Statement (.helloTx c) := fun _ _ e => nomatch e
theorem helloLapse (c : Fin 4) (lane : Nat) (block : Option Nat) : Statement (.helloLapse c lane block) := fun _ _ e => nomatch e
theorem creditSlot (c : Fin 4) : Statement (.creditSlot c) := fun _ _ e => nomatch e
theorem creditReqRefresh (c : Fin 4) (q : Nat) : Statement (.creditReqRefresh c q) := fun _ _ e => nomatch e
theorem reqEntryExpiry (c : Fin 4) (port src tc : Nat) : Statement (.reqEntryExpiry c port src tc) := fun _ _ e => nomatch e
theorem voqBalanceExpiry (c : Fin 4) (q : Nat) : Statement (.voqBalanceExpiry c q) := fun _ _ e => nomatch e
theorem fabCfgWrite (r : Req) (c : Fin 4) (v : Word) : Statement (.fabCfgWrite r c v) := fun h _ e => ok_only h e
theorem fabLaneCfgWrite (r : Req) (c : Fin 4) (lane : Nat) (v : Word) : Statement (.fabLaneCfgWrite r c lane v) := fun h _ e => ok_and h e
theorem sportIdxWrite (r : Req) (c : Fin 4) (sport : Nat) : Statement (.sportIdxWrite r c sport) := fun h _ e => ok_and h e
theorem mcIdxWrite (r : Req) (c : Fin 4) (group : Nat) : Statement (.mcIdxWrite r c group) := fun h _ e => ok_and h e
theorem reachIdxWrite (r : Req) (c : Fin 4) (chan : Nat) : Statement (.reachIdxWrite r c chan) := fun h _ e => ok_and h e
theorem hbmEnable (r : Req) (c : Fin 4) (st : Fin 2) : Statement (.hbmEnable r c st) := fun h _ e => ok_only h e
theorem hbmTrainDone (c : Fin 4) (st : Fin 2) (failStep : Nat) (failed : List (Nat × Nat)) (devId : Nat) (rfm : Option Nat) (avail : List Nat) : Statement (.hbmTrainDone c st failStep failed devId rfm avail) := fun _ _ e => nomatch e
theorem hbmAccess (c : Fin 4) (n : Nat) (a : HbmAcc) : Statement (.hbmAccess c n a) := fun _ _ e => nomatch e
theorem hbmRefresh (c : Fin 4) (n : Nat) (temp : Word) : Statement (.hbmRefresh c n temp) := fun _ _ e => nomatch e
theorem pause (r : Req) (c : Fin 4) (st : Fin 2) (pc : Nat) : Statement (.pause r c st pc) := fun h _ e => ok_and h e
theorem hbmResume (r : Req) (c : Fin 4) (st : Fin 2) (group : Bool) (x : Nat) : Statement (.hbmResume r c st group x) := fun h _ e => ok_and h e
theorem restore (r : Req) (c : Fin 4) (st : Fin 2) (group : Bool) (x : Nat) : Statement (.restore r c st group x) := fun h _ e => ok_and h e
theorem pattern (r : Req) (c : Fin 4) (st : Fin 2) (pc : Nat) : Statement (.pattern r c st pc) := fun h _ e => ok_and h e
theorem setTiming (r : Req) (c : Fin 4) (st : Fin 2) (pc : Nat) : Statement (.setTiming r c st pc) := fun h _ e => ok_and h e
theorem sppr (r : Req) (c : Fin 4) (st : Fin 2) (pc : Nat) : Statement (.sppr r c st pc) := fun h _ e => ok_and h e
theorem hppr (r : Req) (c : Fin 4) (st : Fin 2) (pc : Nat) : Statement (.hppr r c st pc) := fun h _ e => ok_and h e
theorem hbmFail (r : Req) (c : Fin 4) (st : Fin 2) (group : Bool) (x : Nat) : Statement (.hbmFail r c st group x) := fun h _ e => ok_and h e
theorem pauseTimeout (c : Fin 4) : Statement (.pauseTimeout c) := fun _ _ e => nomatch e
theorem fastRetrainTick (c : Fin 4) : Statement (.fastRetrainTick c) := fun _ _ e => nomatch e
theorem retrainWindowEnd (c : Fin 4) (group : Nat) : Statement (.retrainWindowEnd c group) := fun _ _ e => nomatch e
theorem drainSlow (c : Fin 4) (group : Nat) : Statement (.drainSlow c group) := fun _ _ e => nomatch e
theorem hbmStatus (r : Req) (c : Fin 4) (k : Fin 2) (tag : Nat) : Statement (.hbmStatus r c k tag) := fun h _ e => ok_and h e
theorem fullRetrain (r : Req) (c : Fin 4) (k : Fin 2) (tag : Nat) : Statement (.fullRetrain r c k tag) := fun h _ e => ok_and h e
theorem abortRetrain (r : Req) (c : Fin 4) (k : Fin 2) (tag : Nat) : Statement (.abortRetrain r c k tag) := fun h _ e => ok_and h e
theorem fastRetrain (r : Req) (c : Fin 4) (k : Fin 2) (tag : Nat) : Statement (.fastRetrain r c k tag) := fun h _ e => ok_and h e
theorem repairLogSave (r : Req) (c : Fin 4) (k : Fin 2) (tag : Nat) (dmaErr : Bool) : Statement (.repairLogSave r c k tag dmaErr) := fun h _ e => ok_and h e
theorem repairLogLoad (r : Req) (c : Fin 4) (k : Fin 2) (tag : Nat) (rec_ : List Byte) (dmaErr : Bool) : Statement (.repairLogLoad r c k tag rec_ dmaErr) := fun h _ e => ok_and h e
theorem doorbell (f : Nat) (c : Fin 4) (p r tail : Nat) : Statement (.doorbell f c p r tail) := fun _ _ e => nomatch e
theorem irqArm (f : Nat) (c : Fin 4) (p r : Nat) : Statement (.irqArm f c p r) := fun _ _ e => nomatch e
theorem descConsume (c : Fin 4) (p r : Nat) (desc data : List Byte) (descErr dmaErr : Bool) : Statement (.descConsume c p r desc data descErr dmaErr) := fun _ _ e => nomatch e
theorem recordPost (c : Fin 4) (p r : Nat) (desc : List Byte) (descErr dmaErr : Bool) : Statement (.recordPost c p r desc descErr dmaErr) := fun _ _ e => nomatch e
theorem packTimeout (c : Fin 4) (p r : Nat) (dmaErr : Bool) : Statement (.packTimeout c p r dmaErr) := fun _ _ e => nomatch e
theorem partCreate (r : Req) (c : Fin 4) (p : Nat) : Statement (.partCreate r c p) := fun h _ e => ok_and h e
theorem partQuiesce (r : Req) (c : Fin 4) (p : Nat) : Statement (.partQuiesce r c p) := fun h _ e => ok_and h e
theorem quiesceStepDone (c : Fin 4) (p : Nat) : Statement (.quiesceStepDone c p) := fun _ _ e => nomatch e
theorem quiesceStepTimeout (c : Fin 4) (p : Nat) : Statement (.quiesceStepTimeout c p) := fun _ _ e => nomatch e
theorem partResume (r : Req) (c : Fin 4) (p : Nat) : Statement (.partResume r c p) := fun h _ e => ok_and h e
theorem partReset (r : Req) (c : Fin 4) (p : Nat) : Statement (.partReset r c p) := fun h _ e => ok_and h e
theorem partRemove (r : Req) (c : Fin 4) (p : Nat) : Statement (.partRemove r c p) := fun h _ e => ok_and h e
theorem ringCfgWrite (r : Req) (c : Fin 4) (v : Word) : Statement (.ringCfgWrite r c v) := fun h _ e => ok_only h e
theorem identWrite (r : Req) (c : Fin 4) (k : Fin 4) (v : Word) : Statement (.identWrite r c k v) := fun h _ e => ok_only h e
theorem portOwnWrite (r : Req) (c : Fin 4) (port : Nat) (v : Word) : Statement (.portOwnWrite r c port v) := fun h _ e => ok_and h e
theorem testStart (r : Req) (c : Fin 4) (die : Fin 2) : Statement (.testStart r c die) := fun h _ e => ok_only h e
theorem testStop (r : Req) (c : Fin 4) (die : Fin 2) (bits errs : Nat) : Statement (.testStop r c die bits errs) := fun h _ e => ok_only h e
theorem testClear (r : Req) (c : Fin 4) (die : Fin 2) : Statement (.testClear r c die) := fun h _ e => ok_only h e
theorem testInject (r : Req) (c : Fin 4) (die : Fin 2) : Statement (.testInject r c die) := fun h _ e => ok_only h e
theorem testSelWrite (r : Req) (c : Fin 4) (die : Fin 2) (v : Word) (bits errs : Nat) : Statement (.testSelWrite r c die v bits errs) := fun h _ e => ok_only h e
theorem pendingTestStart (c : Fin 4) (die : Fin 2) (kind idx : Nat) : Statement (.pendingTestStart c die kind idx) := fun _ _ e => nomatch e
theorem testDurationEnd (c : Fin 4) (die : Fin 2) (kind idx bits errs : Nat) : Statement (.testDurationEnd c die kind idx bits errs) := fun _ _ e => nomatch e
theorem checkerLockLoss (c : Fin 4) (die : Fin 2) (kind idx bits errs : Nat) : Statement (.checkerLockLoss c die kind idx bits errs) := fun _ _ e => nomatch e
theorem bankTestDone (c : Fin 4) (bank failLines : Nat) : Statement (.bankTestDone c bank failLines) := fun _ _ e => nomatch e
theorem dump (r : Req) (c : Fin 4) (off : Nat) : Statement (.dump r c off) := fun h _ e => ok_and h e
theorem laneRepair (c : Fin 4) (dir : Fin 2) (m lane : Nat) : Statement (.laneRepair c dir m lane) := fun _ _ e => nomatch e
theorem saucerLaneFail (c : Fin 4) (lane : Nat) : Statement (.saucerLaneFail c lane) := fun _ _ e => nomatch e
theorem smbSetAddr (addr : Nat) : Statement (.smbSetAddr addr) := fun _ _ e => nomatch e
theorem smbRead : Statement (.smbRead) := fun _ _ e => nomatch e
theorem smbWrite (v : Word) : Statement (.smbWrite v) := fun _ _ e => nomatch e
theorem samplePreload (captured shifted : Nat) : Statement (.samplePreload captured shifted) := fun _ _ e => nomatch e
theorem extest (shifted : Nat) : Statement (.extest shifted) := fun _ _ e => nomatch e
theorem idcode : Statement (.idcode) := fun _ _ e => nomatch e
theorem clamp : Statement (.clamp) := fun _ _ e => nomatch e
theorem highz : Statement (.highz) := fun _ _ e => nomatch e
theorem unlockReq : Statement (.unlockReq) := fun _ _ e => nomatch e
theorem unlockResp (sigOk : Bool) : Statement (.unlockResp sigOk) := fun _ _ e => nomatch e
theorem jtagLock (one : Bool) : Statement (.jtagLock one) := fun _ _ e => nomatch e
theorem regAccess (write : Bool) (addr : Nat) (data : Word) : Statement (.regAccess write addr data) := fun _ _ e => nomatch e
theorem bypass (code : Nat) : Statement (.bypass code) := fun _ _ e => nomatch e
theorem unlockBlockExpiry : Statement (.unlockBlockExpiry) := fun _ _ e => nomatch e
theorem jtagCtrlLock (r : Req) (v : Word) : Statement (.jtagCtrlLock r v) := fun h _ e => ok_only h e
theorem regRead (r : Req) (addr : Nat) : Statement (.regRead r addr) := fun h _ e => ok_and h e
theorem oscInReturns (c : Fin 4) : Statement (.oscInReturns c) := fun _ _ e => nomatch e
theorem pcieLinkDown : Statement (.pcieLinkDown) := fun _ _ e => nomatch e
theorem relayAlignmentLoss (c : Fin 4) : Statement (.relayAlignmentLoss c) := fun _ _ e => nomatch e
theorem ch0FeDieFailure : Statement (.ch0FeDieFailure) := fun _ _ e => nomatch e
theorem portFaultClear (c : Fin 4) (port kind : Nat) : Statement (.portFaultClear c port kind) := fun _ _ e => nomatch e
theorem pfcWdRelease (c : Fin 4) (port cls : Nat) : Statement (.pfcWdRelease c port cls) := fun _ _ e => nomatch e
theorem fabLaneTrained (c : Fin 4) (lane : Nat) : Statement (.fabLaneTrained c lane) := fun _ _ e => nomatch e
theorem fabLaneFault (c : Fin 4) (lane : Nat) (fec : Bool) : Statement (.fabLaneFault c lane fec) := fun _ _ e => nomatch e
theorem clientRxLf (c : Fin 4) (n : Nat) (on : Bool) : Statement (.clientRxLf c n on) := fun _ _ e => nomatch e
theorem checkerLocked (c : Fin 4) (die : Fin 2) (kind idx : Nat) : Statement (.checkerLocked c die kind idx) := fun _ _ e => nomatch e
theorem saucerLinkUp (c : Fin 4) : Statement (.saucerLinkUp c) := fun _ _ e => nomatch e

end Sys2Proof.Laws.WF
end

