-- ==== Sys2Proof/Tests/Slice0.lean ====
section
/-! SUPPORT. Own tests: worked examples of the spec, an ill-formed command for each check, and for every clause of every statement a state and
operands that meet its hypotheses. -/

namespace Sys2Proof.Tests

set_option Elab.async false

open Sys2Proof Sys2Proof.Machine

/-! States that the tests start from. -/

def Wit.up (i : Isl) (c : Nat) : Isl := (i.putF hpPwr (PWRH.CH_STAT_STATE c) 4).putF hpRelay (RELAY.LINK_STAT_STATE c) 1
def Wit.isl : Isl := [0, 1, 2, 3].foldl Wit.up { pwrgood := true, perst := false, l0 := true }
def Wit.base : State := { State.reset with isl := Wit.isl }
def Wit.on (f : Chan → Chan) : State := Wit.base.setChan 1 (f { free := 1 })
def Wit.hp (f : Isl → Isl) : State := Wit.base.onIsl f
/-- The catalogue row at an offset. -/
def Wit.hit (k : PageKind) (off : Nat) : RegHit := (findReg k off).getD ⟨⟨0, 0, 1, 0, 1, 0, false, [], []⟩, false⟩
def Wit.kp (k st cl : Nat) (ch : Chan) : Chan := (ch.putF (pgKeep k) KEEP.STATUS_STATE st).putF (pgKeep k) KEEP.CLAIM_CLAIM cl
def Wit.sel (off v : Nat) (p : Pg) (ch : Chan) : Chan := ch.putN p off v
def Wit.jtag (f : Chan → Chan) : State := (Wit.on f).onIsl (fun i => i.putB hpPwr PWRH.JTAG_STAT_UNLOCKED true)
def Wit.fwHdr : List Byte := leBytes 4 0x4B454550 ++ leBytes 2 1 ++ leBytes 2 3 ++ leBytes 4 7 ++ [2, 0] ++ leBytes 2 1 ++ leBytes 2 1 ++ leBytes 2 0 ++ leBytes 4 64 ++ leBytes 4 0
/-- An image of 64 code bytes with its digest. -/
def Wit.fwImg : List Byte := Wit.fwHdr ++ List.replicate (64 - Wit.fwHdr.length) 0
  ++ beBytes 48 0x99d26430f561864c2f7d90b68650b960c86c85d6bf7f54ceeee404bdd59663a7f05588b5c750b862a2a24f6a9ad4c050 ++ List.replicate 144 0 ++ (List.range 64).map (fun i => BitVec.ofNat 8 (i * 7 + 3))
def Wit.svc (args : List Nat) (ch : Chan) : Chan := (Wit.kp 0 4 0x80 ch).putList (pgKeep 0) (KEEP.SVC_ARG 0) args
def Wit.todFrame : List Byte :=
  let b := beBytes 2 0xA53C ++ beBytes 1 1 ++ beBytes 1 0x18 ++ beBytes 6 100 ++ beBytes 2 37 ++ beBytes 1 0x80 ++ beBytes 1 6 ++ beBytes 1 0x20 ++ beBytes 1 0x20 ++ beBytes 6 0
  b ++ beBytes 2 (crc16 b)
def Wit.slot (i : Nat) (x : ActSlot) (ch : Chan) : Chan := { ch with act := { ch.act with slots := tput {} ch.act.slots i x } }
/-- A 25 Gb/s lane port that is up. -/
def Wit.port (p : Nat) (ch : Chan) : Chan :=
  ((((ch.putPortF p LINE.PORT_CFG_KIND 1).putPortF p LINE.PORT_CFG_SPEED 2).putPortF p LINE.PORT_CFG_FEC 2).putPortF p LINE.PORT_CFG_MAX_FRAME 9000
    |>.putB (portPg p) CTRL_ENABLE true |>.putPortF p LINE.PORT_STAT_STATE 3 |>.putPortF p LINE.PORT_STAT_OPER 1 |>.putPortF p LINE.PORT_CTRL_EN 1).putPw p { aligned := true }
def Wit.frame (n : Nat) : List Byte := withFcs (beBytes 12 (0x0200000000010200 * 2 ^ 32 + 2) ++ beBytes 2 0x0800 ++ List.replicate n 7)
def Wit.inp : InPipe := { pkt := { bytes := Wit.frame 46, port := 5 }, src := List.replicate 128 0 }
/-- A word of an opcode, every operand 0. -/
def Wit.rw (opc : Nat) : Nat := opc * 2 ^ 120
def Wit.pkt : Pkt := { bytes := Wit.frame 46, port := 5 }
/-- A READY thread with a packet. -/
def Wit.thread : Thread := { st := 1, pkt := some Wit.pkt, maxInstr := 100, pc := 5, g := Vector.ofFn (fun i => BitVec.ofNat 64 (i.val * 3)) }
/-- Thread 130 of cluster 1 at a word. -/
def Wit.at' (w : Nat) (ch : Chan) : Chan :=
  ({ ch with prs := { threads := [(130, Wit.thread)], bank0 := { code := [(Wit.thread.pc, BitVec.ofNat 128 w)] } } }).putB (pgPclu 1) CTRL_ENABLE true
def Wit.run' (opc : Nat) (ch : Chan) : Chan := Wit.at' (Wit.rw opc) ch
/-- Exact-match table 3: 6-byte keys, 8-byte results, 64 buckets. -/
def Wit.tab (m valid : Nat) (ch : Chan) : Chan :=
  let c1 := ((ch.putN pgTbl (TBL.TDEF_CFG 3) (valid * 2 ^ 31 + m % 3 * 2 ^ 29 + m / 3 * 2 ^ 25 + 2 * 2 ^ 21 + 6 * 2 ^ 8)).putN pgTbl (TBL.TDEF_SIZE 3) (8 * 2 ^ 24 + 1)).putN pgTbl (TBL.TDEF_SEED 3) 0x1234
  let c2 := (c1.putList pgTbl (TBL.KEY 0) [0, 0]).putList pgTbl (TBL.RES 0) [0, 0]
  let c3 := c2.putN pgTbl TBL.CMD_ARG (3 * 2 ^ 30)
  if valid = 1 then { c3 with tbl := { segs := [(3, List.range (c3.tReps 3) |>.map (· + 1))] } } else c3
/-- The key of the port is in the table. -/
def Wit.ent (v : EmVer) (ch : Chan) : Chan := ch.emPut 3 (4 * (ch.emBuckets 3 (portKey ch 3)).1) { v with key := portKey ch 3, res := if v.res = [] then portRes ch 3 else v.res }
def Wit.tern (ch : Chan) : Chan := { ch with tbl := { ch.tbl with tern := [(0x55, [{ key := 5, tmask := 7, prio := 3, mask := 3, res := 9, ord := 1 }, { key := 6, tmask := 7, prio := 2, mask := 3, res := 9, ord := 2 }])] } }

/-- A context: class 3, colour 1, destination 40, ingress port 7, account 17. -/
def Wit.ctx (mc : Nat) (dest : Nat) : List Byte :=
  leBytes 8 0 ++ [BitVec.ofNat 8 (0x40 + 3 * 8 + mc * 2), 0] ++ beBytes 2 dest ++ [7, 0, 0, 0] ++ beBytes 2 17 ++ List.replicate 46 0
/-- An egress or ingress packet with a context. -/
def Wit.ipkt (eg mc : Nat) : Pkt := { bytes := Wit.frame 46, egress := eg = 1, port := 7, ctx := Wit.ctx mc 40 }
/-- Caddy, VOQ, ADM, SCHED and FAB enabled. -/
def Wit.cad (ch : Chan) : Chan := [pgCaddy, pgVoq, pgAdm, pgSched, pgFab].foldl (fun c p => c.putB p CTRL_ENABLE true) ch
/-- An SRAM buffer with a packet. -/
def Wit.sbuf (h : Nat) (k : Pkt) (wr wt : Bool) (ch : Chan) : Chan :=
  (ch.putBuf h { inUse := true, owner := 17, pool := 0, units := 1, pkt := k, written := wr, waiting := wt }).putAcctPool 17 0 { use := 1 }
/-- Region 5 in a state. -/
def Wit.reg (st cls : Nat) (ch : Chan) : Chan := (ch.putHbmRegion 5 { st := st, cls := cls }).putF (pgHbmc 0) (HBMC.GRP_STAT_STATE 0) 2
/-- FlexE group 2 with member 0 on port 7, 100 Gb/s. -/
def Wit.flex (st : Nat) (ch : Chan) : Chan :=
  ((((((Wit.port 7 ch).putPortF 7 LINE.PORT_CFG_SPEED 4).putB pgFlex CTRL_ENABLE true).putB pgFlex (FLEX.GRP_CFG_EN 2) true).putB pgFlex (FLEX.MEMBER_EN 2 0) true).putF pgFlex (FLEX.MEMBER_PORT 2 0) 7).putF pgFlex (FLEX.GRP_STAT_STATE 2) st
/-- Queue `q` holds the packet of a buffer. -/
def Wit.inq (q h pc : Nat) (ch : Chan) : Chan := ch.putQue q { ents := [⟨h, 68, 0, pc⟩] }
/-- Queue 123 (port 7, class 3) of the egress side holds a packet. -/
def Wit.egq (ch : Chan) : Chan := Wit.inq (egQueue 123) (2 ^ 29 + 5) (pcIndex 1 7 3) (Wit.sbuf (2 ^ 29 + 5) (Wit.ipkt 1 0) true false (Wit.cad (Wit.port 7 ch)))
def Wit.eqm (ch : Chan) : Chan := ((ch.putB pgSched (SCHED.EQ_MAP_VALID 59) true).putF pgSched (SCHED.EQ_MAP_QUEUE 59) 123).putF pgSched (SCHED.EQ_MAP_SEL 59) 0
/-- Fabric lane 5 in a state. -/
def Wit.lane (st : Nat) (ch : Chan) : Chan := ((ch.putB pgFab CTRL_ENABLE true).putF pgFab (FAB.LANE_STAT_STATE 5) st).putB pgFab (FAB.LANE_CFG_EN 5) true
def Wit.cell : Cell := { typ := 1, src := 9, dst := 0, dport := 44, seq := 17, payload := [1, 2, 3, 4, 5, 6, 7, 8] }
/-- A stack in service: its groups and PCs in state 2. -/
def Wit.stk (ch : Chan) : Chan :=
  (((pgHbmc 0 |> fun p => [0, 1, 2, 3].foldl (fun (c : Chan) g => c.putF p (HBMC.GRP_STAT_STATE g) 2) (ch.putB p CTRL_ENABLE true)).putF (pgHbmc 0) HBMC.STATUS_STATE 2)
    |> fun c => [0, 1, 2, 3, 4, 5, 6, 7].foldl (fun (c : Chan) n => c.putF (pgHbmc 0) (HBMC.PC_STAT_STATE n) 2) c)
/-- PC 3 is paused since instant 5. -/
def Wit.pau (ch : Chan) : Chan := (ch.putF (pgHbmc 0) (HBMC.PC_STAT_STATE 3) 3).onHbm (fun w => { w with paused := some (3, 5) })
/-- An access of a PC. -/
def Wit.acc (w : Bool) (ecc : Nat) : HbmAcc := { src := 0, write := w, addr := 0, act := false, bank := 0, ecc := ecc, syn := 0, sev := 0 }
def Wit.rlog : List Byte :=
  let b := leBytes 4 0x4C525048 ++ leBytes 2 1 ++ leBytes 1 0 ++ leBytes 1 0 ++ leBytes 16 0 ++ leBytes 2 1 ++ leBytes 6 0 ++ leBytes 4 77 ++ leBytes 1 3 ++ leBytes 1 1 ++ leBytes 2 2
  b ++ leBytes 4 (crc32 b)
/-- Ring `r` of partition 0 enabled with 64 slots and identity slot 0. -/
def Wit.ring (r : Nat) (x : Ring) (ch : Chan) : Chan := (ch.putB pgPart CTRL_ENABLE true).putRing 0 r { x with cfg := BitVec.ofNat 32 (2 ^ 31 + 6 * 2 ^ 24) }
def Wit.fdesc : List Byte := leBytes 10 0 ++ leBytes 1 64 ++ leBytes 1 0 ++ leBytes 2 17 ++ leBytes 10 0 ++ leBytes 4 (2 ^ 29 + 5) ++ leBytes 4 0
def Wit.tst (k : Nat) (x : TestT) (ch : Chan) : Chan := (ch.putB (pgTest 0) CTRL_ENABLE true).putTest k x

/-- The conditions of `CanIssue`, as one decidable proposition. -/
theorem Wit.canIssue {ch : Chan} {t opc : Nat}
    (h : t < 2048 ∧ (ch.thr t).st = 1 ∧ (ch.thr t).pkt.isSome = true ∧ ch.enabled (pgPclu (t / 128)) = true ∧ iOpc (ch.instrWord t) = opc ∧
      ch.bpMatch t = none ∧ (ch.thr t).stepping = 0 ∧ (ch.thr t).skipped = false ∧ (ch.thr t).icount < (ch.thr t).maxInstr ∧
      tget 0 ch.prs.poison (poisonKey (t / 128) ((ch.thr t).pkt.getD {}).parity (ch.thr t).pc) = 0 ∧
      condHolds (ch.thr t).flags (iCond (ch.instrWord t)) = true ∧ (ch.thr t).blocked (ch.instrWord t) = false ∧ ch.turn (t / 8) = some t) : CanIssue ch t opc := by
  obtain ⟨a, b, c, d, e, f, g, i, j, k, l, m, n⟩ := h
  exact ⟨a, b, c, d, e, f, g, i, j, k, l, m, n⟩

/-- The conditions of `AtOpcode`, as one decidable proposition. -/
theorem Wit.atOpcode {ch : Chan} {t opc : Nat}
    (h : t < 2048 ∧ (ch.thr t).st = 1 ∧ (ch.thr t).pkt.isSome = true ∧ ch.enabled (pgPclu (t / 128)) = true ∧ iOpc (ch.instrWord t) = opc) :
    AtOpcode ch t opc := by
  obtain ⟨a, b, c, d, e⟩ := h
  exact ⟨a, b, c, d, e⟩

/-- A thread that is not READY stands at no instruction it may issue. -/
theorem Wit.notAtOpcode {ch : Chan} {t opc : Nat} {Q : Prop} (h : (ch.thr t).st ≠ 1) : ¬ AtOpcode ch t opc ∨ Q :=
  .inl fun a => h a.ready

/-- The conditions of `Undisturbed`, as one decidable proposition. -/
theorem Wit.undisturbed {ch : Chan} {t : Nat} (h : ch.bpMatch t = none ∧ (ch.thr t).stepping = 0 ∧ (ch.thr t).skipped = false) : Undisturbed ch t := by
  obtain ⟨a, b, c⟩ := h
  exact ⟨a, b, c⟩

/-- A choice that the spec leaves open has been made where there is something to choose. -/
theorem Wit.someGet {o : Option Nat} (h : o.isSome = true) : o = some (o.getD 0) := by
  cases o with
  | none => cases h
  | some a => rfl

/-! Worked examples of the spec. -/

/-- 02_register_pages.md, the driver of the CADDY page of channel 2: PAGE_ID reads 0x0016_0012. -/
theorem test_caddy_page_id : (match exec (.regRead (.func 0) 0x12080000) Wit.base with
    | .next t => t.out.head?
    | _ => none) = some (.read 0x12080000 0x00160012) := by decide +kernel

/-- The same page on a DK1 is unimplemented: it reads 0 and is counted. -/
theorem test_page_of_absent_channel : (match exec (.regRead (.func 0) 0x12080000) { Wit.base with variant := .dk1 } with
    | .next t => (t.out.head?, t.isl.nat hpHost HOST.UNIMPL_CNT)
    | _ => (none, 0)) = (some (.read 0x12080000 0), 1) := by decide +kernel

/-- 09_parse_isa.md, EXT g3, [hp + 12], 2 reads the EtherType. -/
theorem test_ext_ethertype : (match exec (.pExt 1 130) (Wit.on (Wit.at' 0x08003001000C00000000000000000000)) with
    | .next t => (((t.chan 1).thr 130).reg 3).toNat
    | _ => 0) = 0x0800 := by decide +kernel

/-- 09_parse_isa.md, ADV hp, 8 + ((g12 >> 16) & 0xFF) << 3: with 2 in g12[23:16] the header position moves by 24. -/
theorem test_adv_routing_header : (match exec (.pAdv 1 130) (Wit.on (fun ch =>
      (Wit.at' 0x0A0C0001000800FF4180000000000000 ch).putThr 130 { Wit.thread with g := Wit.thread.g.set 12 0x20000 })) with
    | .next t => ((t.chan 1).thr 130).hp
    | _ => 0) = 24 := by decide +kernel

/-- 00_scope.md: at SEC 0xFFFF_FFF0, a T64 time with SEC 0x10 lies 32 s ahead. -/
theorem test_t64_wraps : t64Near 0x10 0 (0xFFFFFFF0 * 1000000000) = (0xFFFFFFF0 + 32) * 1000000000 := by decide +kernel

/-- 16_host_and_partitions.md: with VF_VECS = 8, pool vector 1,100 is entry 4 of VF 9. -/
theorem test_pool_vector : ({ vfVecs := 8 } : Isl).vecOwner 1100 = (9, 4) := by decide +kernel

/-- 12_caddy_and_queues.md: C4K buffer 0x0000_1A05 lies in region 13. -/
theorem test_buffer_region : regionOfHandle (2 ^ 31 + 0x1A05) = some 13 := by decide +kernel

/-- 12_caddy_and_queues.md, profile 5 at avg = 1.5 MiB: green 0.0254, yellow 1/6, red 1, of a random number of 16 bits. -/
theorem test_wred_profile :
    (wredDrops 0x180000 256 768 26 1663, wredDrops 0x180000 256 768 26 1664) = (true, false) ∧
    (wredDrops 0x180000 128 512 64 10922, wredDrops 0x180000 128 512 64 10923) = (true, false) ∧
    wredDrops 0x180000 64 256 128 65535 = true := by decide +kernel

/-- An empty queue: the clocks of the module tick (log 2). -/
theorem test_idle : step State.reset = .next State.reset.tick := rfl

/-- The command at the front runs, the rest waits. -/
theorem test_front : (match step { State.reset with pending := [.powerLoss, .powerOn] } with
    | .next t => (t.isl.powered, t.pending)
    | _ => (true, [])) = (false, [.powerOn]) := by decide +kernel

/-- The table gives no row any bits. -/
theorem test_decode : Sys2Proof.decodeTableWord 32 0 = none ∧ State.reset.withFetchWord 32 0 = State.reset := ⟨rfl, rfl⟩

/-! Ill-formed commands are refused by the check, well-formed ones are not. -/

theorem test_wf_refuses_1 : (([.pwrgoodRise 16,
    .pcieLinkTrained 0 1 false,
    .pcieLinkTrained 7 1 false,
    .pcieLinkTrained 4 0 false,
    .pcieLinkTrained 4 17 false,
    .flr 128,
    .msixUnmask 128 0,
    .msixUnmask 0 (2 ^ 128),
    .chResetWrite (.func 128) 0 0,
    .chPdWrite (.func 128) 0 0,
    .railShutdown 0 0 16,
    .oscThermSample 0 65536,
    .regWrite (.func 128) 0 0 false,
    .regWrite (.func 0) (2 ^ 32) 0 false,
    .regWrite (.func 0) 1 0 false,
    .rcFieldRead (.func 128) 0,
    .rcFieldRead (.func 0) (2 ^ 32),
    .rcFieldRead (.func 0) 1,
    .readLowWord (.func 128) 0,
    .readLowWord (.func 0) (2 ^ 32),
    .readLowWord (.func 0) 1,
    .readHighWord (.func 128) 0,
    .readHighWord (.func 0) (2 ^ 32),
    .readHighWord (.func 0) 1,
    .writeLowWord (.func 128) 0 0,
    .writeLowWord (.func 0) (2 ^ 32) 0,
    .writeLowWord (.func 0) 1 0,
    .writeHighWord (.func 128) 0 0,
    .writeHighWord (.func 0) (2 ^ 32) 0,
    .writeHighWord (.func 0) 1 0,
    .unsupportedAccess (.func 128) 0,
    .unsupportedAccess (.func 0) (2 ^ 32),
    .softReset (.func 128) 0,
    .softReset (.func 0) (2 ^ 32),
    .softReset (.func 0) 1,
    .softResetDone (2 ^ 32),
    .softResetDone 1,
    .enableWrite (.func 128) 0 false,
    .enableWrite (.func 0) (2 ^ 32) false,
    .enableWrite (.func 0) 1 false] : List Instr).all (fun i => !i.wf)) = true := by decide +kernel

theorem test_wf_refuses_2 : (([.quiesceReq (.func 128) 0 false,
    .quiesceReq (.func 0) (2 ^ 32) false,
    .quiesceReq (.func 0) 1 false,
    .quiesceDone (2 ^ 32),
    .quiesceDone 1,
    .testTakeoverClear (.func 128) 0,
    .testTakeoverClear (.func 0) (2 ^ 32),
    .testTakeoverClear (.func 0) 1,
    .intForce (.func 128) 0 0,
    .intForce (.func 0) (2 ^ 32) 0,
    .intForce (.func 0) 1 0,
    .tallyClear (.func 128) 0,
    .tallyClear (.func 0) (2 ^ 32),
    .tallyClear (.func 0) 1,
    .relayRetrain (.func 128) 0 0,
    .claimWrite 0 0 (2 ^ 32),
    .keeperWrite 0 0 0 256 0 0,
    .keeperWrite 0 0 0 0 65536 0,
    .repairCheckDone 0 0 256,
    .fwLoad (.func 128) 0 0,
    .fwLoadDone 0 0 [] [] false 256,
    .keepSoftReset (.func 128) 0 0,
    .keepEnableWrite (.func 128) 0 0 false,
    .getInfo (.func 128) 0 0 0,
    .getInfo (.func 0) 0 0 256,
    .handover (.func 128) 0 0 0,
    .handover (.func 0) 0 0 256,
    .jrnlMark (.func 128) 0 0 0,
    .jrnlMark (.func 0) 0 0 256,
    .svnCommit (.func 128) 0 0 0,
    .svnCommit (.func 0) 0 0 256,
    .svcBadOpcode (.func 128) 0 0 0 0,
    .svcBadOpcode (.func 0) 0 0 256 0,
    .svcBadOpcode (.func 0) 0 0 0 256,
    .jrnlClear (.func 128) 0,
    .jrnlUnfreeze (.func 128) 0,
    .jrnlRdIdxWrite (.func 128) 0 0 0,
    .jrnlRdIdxWrite (.func 0) 0 0 16384,
    .todSnapshot (.func 128) 0,
    .cosyEnableWrite (.func 128) 0 false] : List Instr).all (fun i => !i.wf)) = true := by decide +kernel

theorem test_wf_refuses_3 : (([.setDefaultDs (.func 128) 0 0 0,
    .setDefaultDs (.func 0) 0 0 256,
    .setPortDs (.func 128) 0 0 0,
    .setPortDs (.func 0) 0 0 256,
    .getPortDs (.func 128) 0 0 0,
    .getPortDs (.func 0) 0 0 256,
    .addPeer (.func 128) 0 0 0,
    .addPeer (.func 0) 0 0 256,
    .delPeer (.func 128) 0 0 0,
    .delPeer (.func 0) 0 0 256,
    .getStatus (.func 128) 0 0 0,
    .getStatus (.func 0) 0 0 256,
    .setTime (.func 128) 0 0 0,
    .setTime (.func 0) 0 0 256,
    .setTimeProps (.func 128) 0 0 0,
    .setTimeProps (.func 0) 0 0 256,
    .saveModel (.func 128) 0 0 0 false,
    .saveModel (.func 0) 0 0 256 false,
    .loadModel (.func 128) 0 0 0 [] false,
    .loadModel (.func 0) 0 0 256 [] false,
    .resetModel (.func 128) 0 0 0,
    .resetModel (.func 0) 0 0 256,
    .arm (.func 128) 0 false 0 false false false false,
    .arm (.func 0) 0 false 256 false false false false,
    .cancel (.func 128) 0 false 0 false,
    .cancel (.func 0) 0 false 256 false,
    .free (.func 128) 0 false 0,
    .free (.func 0) 0 false 256,
    .slotRdIdxWrite (.func 128) 0 0,
    .slotRdIdxWrite (.func 0) 0 256,
    .pour 0 256,
    .gateSwap 0 256,
    .calSwitch 0 256,
    .slotPage 0 256,
    .portEnable 0 256,
    .sampler 0 256,
    .pmBin 0 256,
    .hbmRetrain 0 256,
    .jrnlMarker 0 256,
    .stage (.func 128) 0 false] : List Instr).all (fun i => !i.wf)) = true := by decide +kernel

theorem test_wf_refuses_4 : (([.commit (.func 128) 0 false,
    .discard (.func 128) 0 false,
    .rxFrame 0 64 [] false false 0 0,
    .fecUncorrCw 0 64 0 0,
    .fecUncorrCw 0 0 32 0,
    .portCfgWrite (.func 128) 0 0 0,
    .portCfgWrite (.func 0) 0 64 0,
    .portEnWrite (.func 128) 0 0 false,
    .portEnWrite (.func 0) 0 64 false,
    .portDiscardWrite (.func 128) 0 0 false,
    .portDiscardWrite (.func 0) 0 64 false,
    .recal (.func 128) 0 0,
    .recal (.func 0) 0 64,
    .restartAn (.func 128) 0 0,
    .restartAn (.func 0) 0 64,
    .cntClear (.func 128) 0 0,
    .cntClear (.func 0) 0 64,
    .laneCfgWrite (.func 128) 0 0 0,
    .laneCfgWrite (.func 0) 0 32 0,
    .recalDone 0 64 false,
    .linkTrained 0 64,
    .ltFail 0 64 0,
    .ltFail 0 0 32,
    .ltRetry 0 64,
    .portFault 0 64 0 0,
    .portFault 0 0 32 0,
    .portFault 0 0 0 4,
    .downHoldExpiry 0 64,
    .upHoldExpiry 0 64,
    .laneMargin 0 32 0,
    .laneMargin 0 0 256,
    .pfcPauseExpiry 0 64 0,
    .pfcPauseExpiry 0 0 8,
    .pfcWd 0 64 0,
    .pfcWd 0 0 8,
    .pfcXoffRepeat 0 64 0,
    .pfcXoffRepeat 0 0 8,
    .preemptVerifyDone 0 64 false,
    .frameLaunch 0 64 0,
    .flexeMemberDefect 0 8 0 false false false false false false] : List Instr).all (fun i => !i.wf)) = true := by decide +kernel

theorem test_wf_refuses_5 : (([.flexeMemberDefect 0 0 64 false false false false false false,
    .groupAligned 0 8 false,
    .ohFrameRx 0 8 0 false 0 0 0 [],
    .ohFrameRx 0 0 64 false 0 0 0 [],
    .ohFrameRx 0 0 0 false 2 0 0 [],
    .ohFrameRx 0 0 0 false 0 2 0 [],
    .ohFrameRx 0 0 0 false 0 0 2 [],
    .calSwitchReq (.func 128) 0 0 0,
    .calSwitchReq (.func 0) 0 8 0,
    .calSwitchReq (.func 0) 0 0 2,
    .calSwitchInstant 0 8,
    .caTimeout 0 8,
    .connMemWrite (.func 128) 0 0 0 0 0,
    .connMemWrite (.func 0) 0 8 0 0 0,
    .connMemWrite (.func 0) 0 0 2 0 0,
    .connMemWrite (.func 0) 0 0 0 640 0,
    .slotCommit (.func 128) 0 0,
    .slotCommit (.func 0) 0 8,
    .slotCommitDone 0 8,
    .slotSwitch (.func 128) 0 0,
    .slotSwitch (.func 0) 0 8,
    .pageSwitchInstant 0 8,
    .slotParityErr 0 8 0,
    .slotParityErr 0 0 640,
    .pmRead (.func 128) 0 0 0,
    .pmRead (.func 0) 0 0 256,
    .pmReset (.func 128) 0 0 0,
    .pmReset (.func 0) 0 0 256,
    .pZero 0 2048,
    .pNop 0 2048,
    .pDone 0 2048,
    .pExt 0 2048,
    .pExtf 0 2048,
    .pAdv 0 2048,
    .pEmit 0 2048,
    .pEmiti 0 2048,
    .pAlu 0 2048,
    .pAlui 0 2048,
    .pMovi 0 2048,
    .pHash 0 2048] : List Instr).all (fun i => !i.wf)) = true := by decide +kernel

theorem test_wf_refuses_6 : (([.pCsum 0 2048,
    .pPtl 0 2048,
    .pBr 0 2048,
    .pBrx 0 2048,
    .pMatch 0 2048,
    .pLock 0 2048,
    .pTrylock 0 2048,
    .pUnlock 0 2048,
    .pMbw 0 2048,
    .pMbs 0 2048,
    .pMbr 0 2048,
    .pWfe 0 2048,
    .pSev 0 2048,
    .pTmr 0 2048,
    .pTime 0 2048,
    .pRdf 0 2048,
    .pWrf 0 2048,
    .lookupReturn 0 2048,
    .threadTimerExpiry 0 2048,
    .lockGrant 0 2048,
    .eventWake 0 2048,
    .reorderSkip 0 4096,
    .engineStall 0 256,
    .clusterStall 0 16,
    .threadRegUe 0 2048,
    .instrPoison 0 16 0 0,
    .instrPoison 0 0 2 0,
    .instrPoison 0 0 0 4096,
    .dbgHalt (.func 128) 0,
    .dbgResume (.func 128) 0,
    .dbgStep (.func 128) 0,
    .dbgDetach (.func 128) 0,
    .dbgRegWrite (.func 128) 0,
    .dbgEvent (.func 128) 0,
    .dbgRegIdxWrite (.func 128) 0 0,
    .dbgRegIdxWrite (.func 0) 0 64,
    .breakpointHit 0 2048,
    .ptblIdxWrite (.func 128) 0 0 0 0,
    .ptblIdxWrite (.func 0) 0 16 0 0,
    .ptblIdxWrite (.func 0) 0 0 2 0] : List Instr).all (fun i => !i.wf)) = true := by decide +kernel

theorem test_wf_refuses_7 : (([.ptblIdxWrite (.func 0) 0 0 0 4096,
    .strainerStage 0 8 0 false false false false 0 0 none,
    .strainerVerdict 0 8 false,
    .tableCreate (.func 128) 0 false 0,
    .tableCreate (.func 0) 0 false 256,
    .tableDestroy (.func 128) 0 false 0,
    .tableDestroy (.func 0) 0 false 256,
    .insert (.func 128) 0 false 0,
    .insert (.func 0) 0 false 256,
    .update (.func 128) 0 false 0,
    .update (.func 0) 0 false 256,
    .delete (.func 128) 0 false 0,
    .delete (.func 0) 0 false 256,
    .tblLookup (.func 128) 0 false 0,
    .tblLookup (.func 0) 0 false 256,
    .search (.func 128) 0 false 0,
    .search (.func 0) 0 false 256,
    .next (.func 128) 0 false 0,
    .next (.func 0) 0 false 256,
    .flushByPort (.func 128) 0 false 0,
    .flushByPort (.func 0) 0 false 256,
    .flushByPortDone 0 256,
    .ageSweep (.func 128) 0 false 0,
    .ageSweep (.func 0) 0 false 256,
    .agingSweep 0 256,
    .learnFlush (.func 128) 0,
    .tblScrub 0 256 0 0 false 0 0,
    .tblScrub 0 0 4 0 false 0 0,
    .tblScrub 0 0 0 0 false 0 64,
    .ternScrub 0 256 0 false 0,
    .ternScrub 0 0 65536 false 0,
    .divergenceConfirm 0 256 0 false [],
    .divergenceConfirm 0 0 (2 ^ 40) false [],
    .bankRotate (.func 128) 0 0 0,
    .bankRotate (.func 0) 0 0 256,
    .bankRotateDone 0 68,
    .bankRestore (.func 128) 0 0 0,
    .bankRestore (.func 0) 0 0 256,
    .bankRetire (.func 128) 0 0 0,
    .bankRetire (.func 0) 0 0 256] : List Instr).all (fun i => !i.wf)) = true := by decide +kernel

theorem test_wf_refuses_8 : (([.shadowSet (.func 128) 0 0 0,
    .shadowSet (.func 0) 0 0 256,
    .compare (.func 128) 0 0 0 0 false,
    .compare (.func 0) 0 0 256 0 false,
    .repair (.func 128) 0 0 0 [] false,
    .repair (.func 0) 0 0 256 [] false,
    .bankStatus (.func 128) 0 0 0,
    .bankStatus (.func 0) 0 0 256,
    .bufferAlloc 0 8 0,
    .bufferAlloc 0 0 (2 ^ 32),
    .spillRequest 0 8 0,
    .spillRequest 0 0 (2 ^ 32),
    .hbmWriteAck 0 (2 ^ 32),
    .admission 0 (2 ^ 32),
    .bufferFree 0 (2 ^ 32) 0 none,
    .bufferFree 0 0 4096 none,
    .freeCmd (.func 128) 0 0,
    .freeCmd (.func 0) 0 4096,
    .regionAssign (.func 128) 0 false 0 0,
    .regionAssign (.func 0) 0 false 8 0,
    .regionAssign (.func 0) 0 false 0 32768,
    .regionMove (.func 128) 0 false 0 0,
    .regionMove (.func 0) 0 false 8 0,
    .regionMove (.func 0) 0 false 0 32768,
    .regionCancel (.func 128) 0 false 0,
    .regionCancel (.func 0) 0 false 32768,
    .regionFence (.func 128) 0 false 0,
    .regionFence (.func 0) 0 false 32768,
    .regionUnfence (.func 128) 0 false 0,
    .regionUnfence (.func 0) 0 false 32768,
    .regionRetire (.func 128) 0 false 0,
    .regionRetire (.func 0) 0 false 32768,
    .regionPurge (.func 128) 0 false 0,
    .regionPurge (.func 0) 0 false 32768,
    .regionRdIdxWrite (.func 128) 0 0,
    .regionRdIdxWrite (.func 0) 0 32768,
    .acctPoolWrite (.func 128) 0 0,
    .acctOpen (.func 128) 0 0,
    .acctOpen (.func 0) 0 32,
    .acctClose (.func 128) 0 0] : List Instr).all (fun i => !i.wf)) = true := by decide +kernel

theorem test_wf_refuses_9 : (([.acctClose (.func 0) 0 32,
    .qSelWrite (.func 128) 0 0,
    .flushRange (.func 128) 0,
    .flushAccount (.func 128) 0,
    .flushPartition (.func 128) 0,
    .mcReplicate 0 (2 ^ 32),
    .holdWindowExpiry 0 64,
    .egressQueueMap 0 (2 ^ 32),
    .nodeSelWrite (.func 128) 0 0,
    .nodeSelWrite (.func 0) 0 131072,
    .nodeCmd (.func 128) 0,
    .nodeUe 0 131072 0,
    .nodeUe 0 0 8,
    .swapStart 0 256,
    .entIdxWrite (.func 128) 0 false 0,
    .entIdxWrite (.func 0) 0 false 1024,
    .entDurWrite (.func 128) 0 0,
    .entDurWrite (.func 0) 0 (2 ^ 30),
    .listUe 0 256 0,
    .listUe 0 0 1024,
    .cellTx 0 48 false,
    .cellRx 0 48 [],
    .laneLeaveActive 0 48 false 0,
    .spareActivate 0 48,
    .helloLapse 0 48 none,
    .creditReqRefresh 0 524288,
    .reqEntryExpiry 0 65536 0 0,
    .voqBalanceExpiry 0 524288,
    .fabCfgWrite (.func 128) 0 0,
    .fabLaneCfgWrite (.func 128) 0 0 0,
    .fabLaneCfgWrite (.func 0) 0 48 0,
    .sportIdxWrite (.func 128) 0 0,
    .sportIdxWrite (.func 0) 0 65536,
    .mcIdxWrite (.func 128) 0 0,
    .mcIdxWrite (.func 0) 0 65536,
    .reachIdxWrite (.func 128) 0 0,
    .reachIdxWrite (.func 0) 0 4096,
    .hbmEnable (.func 128) 0 0,
    .hbmTrainDone 0 0 4 [] 0 none [],
    .hbmAccess 0 64 ⟨0, false, 0, false, 0, 0, 0, 0⟩] : List Instr).all (fun i => !i.wf)) = true := by decide +kernel

theorem test_wf_refuses_10 : (([.hbmRefresh 0 64 0,
    .pause (.func 128) 0 0 0,
    .pause (.func 0) 0 0 32,
    .hbmResume (.func 128) 0 0 false 0,
    .hbmResume (.func 0) 0 0 false 32,
    .restore (.func 128) 0 0 false 0,
    .restore (.func 0) 0 0 false 32,
    .pattern (.func 128) 0 0 0,
    .pattern (.func 0) 0 0 32,
    .setTiming (.func 128) 0 0 0,
    .setTiming (.func 0) 0 0 32,
    .sppr (.func 128) 0 0 0,
    .sppr (.func 0) 0 0 32,
    .hppr (.func 128) 0 0 0,
    .hppr (.func 0) 0 0 32,
    .hbmFail (.func 128) 0 0 false 0,
    .hbmFail (.func 0) 0 0 false 32,
    .retrainWindowEnd 0 8,
    .drainSlow 0 8,
    .hbmStatus (.func 128) 0 0 0,
    .hbmStatus (.func 0) 0 0 256,
    .fullRetrain (.func 128) 0 0 0,
    .fullRetrain (.func 0) 0 0 256,
    .abortRetrain (.func 128) 0 0 0,
    .abortRetrain (.func 0) 0 0 256,
    .fastRetrain (.func 128) 0 0 0,
    .fastRetrain (.func 0) 0 0 256,
    .repairLogSave (.func 128) 0 0 0 false,
    .repairLogSave (.func 0) 0 0 256 false,
    .repairLogLoad (.func 128) 0 0 0 [] false,
    .repairLogLoad (.func 0) 0 0 256 [] false,
    .doorbell 128 0 0 0 0,
    .doorbell 0 0 32 0 0,
    .doorbell 0 0 0 20 0,
    .doorbell 0 0 0 0 65536,
    .irqArm 128 0 0 0,
    .irqArm 0 0 32 0,
    .irqArm 0 0 0 20,
    .descConsume 0 32 0 [] [] false false,
    .descConsume 0 0 20 [] [] false false] : List Instr).all (fun i => !i.wf)) = true := by decide +kernel

theorem test_wf_refuses_11 : (([.recordPost 0 32 0 [] false false,
    .recordPost 0 0 20 [] false false,
    .packTimeout 0 32 0 false,
    .packTimeout 0 0 20 false,
    .partCreate (.func 128) 0 0,
    .partCreate (.func 0) 0 32,
    .partQuiesce (.func 128) 0 0,
    .partQuiesce (.func 0) 0 32,
    .quiesceStepDone 0 32,
    .quiesceStepTimeout 0 32,
    .partResume (.func 128) 0 0,
    .partResume (.func 0) 0 32,
    .partReset (.func 128) 0 0,
    .partReset (.func 0) 0 32,
    .partRemove (.func 128) 0 0,
    .partRemove (.func 0) 0 32,
    .ringCfgWrite (.func 128) 0 0,
    .identWrite (.func 128) 0 0 0,
    .portOwnWrite (.func 128) 0 0 0,
    .portOwnWrite (.func 0) 0 64 0,
    .testStart (.func 128) 0 0,
    .testStop (.func 128) 0 0 0 0,
    .testClear (.func 128) 0 0,
    .testInject (.func 128) 0 0,
    .testSelWrite (.func 128) 0 0 0 0 0,
    .pendingTestStart 0 0 5 0,
    .pendingTestStart 0 0 0 544,
    .testDurationEnd 0 0 5 0 0 0,
    .testDurationEnd 0 0 0 544 0 0,
    .checkerLockLoss 0 0 5 0 0 0,
    .checkerLockLoss 0 0 0 544 0 0,
    .bankTestDone 0 68 0,
    .dump (.func 128) 0 0,
    .dump (.func 0) 0 16384,
    .laneRepair 0 0 8 0,
    .laneRepair 0 0 0 68,
    .saucerLaneFail 0 4,
    .smbSetAddr (2 ^ 32),
    .regAccess false (2 ^ 32) 0,
    .bypass 256] : List Instr).all (fun i => !i.wf)) = true := by decide +kernel

theorem test_wf_refuses_12 : (([.jtagCtrlLock (.func 128) 0,
    .regRead (.func 128) 0,
    .regRead (.func 0) (2 ^ 32),
    .regRead (.func 0) 1,
    .portFaultClear 0 64 0,
    .portFaultClear 0 0 4,
    .pfcWdRelease 0 64 0,
    .pfcWdRelease 0 0 8,
    .fabLaneTrained 0 48,
    .fabLaneFault 0 48 false,
    .clientRxLf 0 128 false,
    .checkerLocked 0 0 5 0,
    .checkerLocked 0 0 0 544] : List Instr).all (fun i => !i.wf)) = true := by decide +kernel

theorem test_wf_accepts_1 : (([.pwrgoodRise 0,
    .pcieLinkTrained 4 1 false,
    .flr 0,
    .msixUnmask 0 0,
    .chResetWrite (.func 0) 0 0,
    .chPdWrite (.func 0) 0 0,
    .railShutdown 0 0 0,
    .oscThermSample 0 0,
    .regWrite (.func 0) 0 0 false,
    .rcFieldRead (.func 0) 0,
    .readLowWord (.func 0) 0,
    .readHighWord (.func 0) 0,
    .writeLowWord (.func 0) 0 0,
    .writeHighWord (.func 0) 0 0,
    .unsupportedAccess (.func 0) 0,
    .softReset (.func 0) 0,
    .softResetDone 0,
    .enableWrite (.func 0) 0 false,
    .quiesceReq (.func 0) 0 false,
    .quiesceDone 0,
    .testTakeoverClear (.func 0) 0,
    .intForce (.func 0) 0 0,
    .tallyClear (.func 0) 0,
    .relayRetrain (.func 0) 0 0,
    .claimWrite 0 0 0,
    .keeperWrite 0 0 0 0 0 0,
    .repairCheckDone 0 0 0,
    .fwLoad (.func 0) 0 0,
    .fwLoadDone 0 0 [] [] false 0,
    .keepSoftReset (.func 0) 0 0,
    .keepEnableWrite (.func 0) 0 0 false,
    .getInfo (.func 0) 0 0 0,
    .handover (.func 0) 0 0 0,
    .jrnlMark (.func 0) 0 0 0,
    .svnCommit (.func 0) 0 0 0,
    .svcBadOpcode (.func 0) 0 0 0 0,
    .jrnlClear (.func 0) 0,
    .jrnlUnfreeze (.func 0) 0,
    .jrnlRdIdxWrite (.func 0) 0 0 0,
    .todSnapshot (.func 0) 0] : List Instr).all (fun i => i.wf)) = true := by decide +kernel

theorem test_wf_accepts_2 : (([.cosyEnableWrite (.func 0) 0 false,
    .setDefaultDs (.func 0) 0 0 0,
    .setPortDs (.func 0) 0 0 0,
    .getPortDs (.func 0) 0 0 0,
    .addPeer (.func 0) 0 0 0,
    .delPeer (.func 0) 0 0 0,
    .getStatus (.func 0) 0 0 0,
    .setTime (.func 0) 0 0 0,
    .setTimeProps (.func 0) 0 0 0,
    .saveModel (.func 0) 0 0 0 false,
    .loadModel (.func 0) 0 0 0 [] false,
    .resetModel (.func 0) 0 0 0,
    .arm (.func 0) 0 false 0 false false false false,
    .cancel (.func 0) 0 false 0 false,
    .free (.func 0) 0 false 0,
    .slotRdIdxWrite (.func 0) 0 0,
    .pour 0 0,
    .gateSwap 0 0,
    .calSwitch 0 0,
    .slotPage 0 0,
    .portEnable 0 0,
    .sampler 0 0,
    .pmBin 0 0,
    .hbmRetrain 0 0,
    .jrnlMarker 0 0,
    .stage (.func 0) 0 false,
    .commit (.func 0) 0 false,
    .discard (.func 0) 0 false,
    .rxFrame 0 0 [] false false 0 0,
    .fecUncorrCw 0 0 0 0,
    .portCfgWrite (.func 0) 0 0 0,
    .portEnWrite (.func 0) 0 0 false,
    .portDiscardWrite (.func 0) 0 0 false,
    .recal (.func 0) 0 0,
    .restartAn (.func 0) 0 0,
    .cntClear (.func 0) 0 0,
    .laneCfgWrite (.func 0) 0 0 0,
    .recalDone 0 0 false,
    .linkTrained 0 0,
    .ltFail 0 0 0] : List Instr).all (fun i => i.wf)) = true := by decide +kernel

theorem test_wf_accepts_3 : (([.ltRetry 0 0,
    .portFault 0 0 0 0,
    .downHoldExpiry 0 0,
    .upHoldExpiry 0 0,
    .laneMargin 0 0 0,
    .pfcPauseExpiry 0 0 0,
    .pfcWd 0 0 0,
    .pfcXoffRepeat 0 0 0,
    .preemptVerifyDone 0 0 false,
    .frameLaunch 0 0 0,
    .flexeMemberDefect 0 0 0 false false false false false false,
    .groupAligned 0 0 false,
    .ohFrameRx 0 0 0 false 0 0 0 [],
    .calSwitchReq (.func 0) 0 0 0,
    .calSwitchInstant 0 0,
    .caTimeout 0 0,
    .connMemWrite (.func 0) 0 0 0 0 0,
    .slotCommit (.func 0) 0 0,
    .slotCommitDone 0 0,
    .slotSwitch (.func 0) 0 0,
    .pageSwitchInstant 0 0,
    .slotParityErr 0 0 0,
    .pmRead (.func 0) 0 0 0,
    .pmReset (.func 0) 0 0 0,
    .pZero 0 0,
    .pNop 0 0,
    .pDone 0 0,
    .pExt 0 0,
    .pExtf 0 0,
    .pAdv 0 0,
    .pEmit 0 0,
    .pEmiti 0 0,
    .pAlu 0 0,
    .pAlui 0 0,
    .pMovi 0 0,
    .pHash 0 0,
    .pCsum 0 0,
    .pPtl 0 0,
    .pBr 0 0,
    .pBrx 0 0] : List Instr).all (fun i => i.wf)) = true := by decide +kernel

theorem test_wf_accepts_4 : (([.pMatch 0 0,
    .pLock 0 0,
    .pTrylock 0 0,
    .pUnlock 0 0,
    .pMbw 0 0,
    .pMbs 0 0,
    .pMbr 0 0,
    .pWfe 0 0,
    .pSev 0 0,
    .pTmr 0 0,
    .pTime 0 0,
    .pRdf 0 0,
    .pWrf 0 0,
    .lookupReturn 0 0,
    .threadTimerExpiry 0 0,
    .lockGrant 0 0,
    .eventWake 0 0,
    .reorderSkip 0 0,
    .engineStall 0 0,
    .clusterStall 0 0,
    .threadRegUe 0 0,
    .instrPoison 0 0 0 0,
    .dbgHalt (.func 0) 0,
    .dbgResume (.func 0) 0,
    .dbgStep (.func 0) 0,
    .dbgDetach (.func 0) 0,
    .dbgRegWrite (.func 0) 0,
    .dbgEvent (.func 0) 0,
    .dbgRegIdxWrite (.func 0) 0 0,
    .breakpointHit 0 0,
    .ptblIdxWrite (.func 0) 0 0 0 0,
    .strainerStage 0 0 0 false false false false 0 0 none,
    .strainerVerdict 0 0 false,
    .tableCreate (.func 0) 0 false 0,
    .tableDestroy (.func 0) 0 false 0,
    .insert (.func 0) 0 false 0,
    .update (.func 0) 0 false 0,
    .delete (.func 0) 0 false 0,
    .tblLookup (.func 0) 0 false 0,
    .search (.func 0) 0 false 0] : List Instr).all (fun i => i.wf)) = true := by decide +kernel

theorem test_wf_accepts_5 : (([.next (.func 0) 0 false 0,
    .flushByPort (.func 0) 0 false 0,
    .flushByPortDone 0 0,
    .ageSweep (.func 0) 0 false 0,
    .agingSweep 0 0,
    .learnFlush (.func 0) 0,
    .tblScrub 0 0 0 0 false 0 0,
    .ternScrub 0 0 0 false 0,
    .divergenceConfirm 0 0 0 false [],
    .bankRotate (.func 0) 0 0 0,
    .bankRotateDone 0 0,
    .bankRestore (.func 0) 0 0 0,
    .bankRetire (.func 0) 0 0 0,
    .shadowSet (.func 0) 0 0 0,
    .compare (.func 0) 0 0 0 0 false,
    .repair (.func 0) 0 0 0 [] false,
    .bankStatus (.func 0) 0 0 0,
    .bufferAlloc 0 0 0,
    .spillRequest 0 0 0,
    .hbmWriteAck 0 0,
    .admission 0 0,
    .bufferFree 0 0 0 none,
    .freeCmd (.func 0) 0 0,
    .regionAssign (.func 0) 0 false 0 0,
    .regionMove (.func 0) 0 false 0 0,
    .regionCancel (.func 0) 0 false 0,
    .regionFence (.func 0) 0 false 0,
    .regionUnfence (.func 0) 0 false 0,
    .regionRetire (.func 0) 0 false 0,
    .regionPurge (.func 0) 0 false 0,
    .regionRdIdxWrite (.func 0) 0 0,
    .acctPoolWrite (.func 0) 0 0,
    .acctOpen (.func 0) 0 0,
    .acctClose (.func 0) 0 0,
    .qSelWrite (.func 0) 0 0,
    .flushRange (.func 0) 0,
    .flushAccount (.func 0) 0,
    .flushPartition (.func 0) 0,
    .mcReplicate 0 0,
    .holdWindowExpiry 0 0] : List Instr).all (fun i => i.wf)) = true := by decide +kernel

theorem test_wf_accepts_6 : (([.egressQueueMap 0 0,
    .nodeSelWrite (.func 0) 0 0,
    .nodeCmd (.func 0) 0,
    .nodeUe 0 0 0,
    .swapStart 0 0,
    .entIdxWrite (.func 0) 0 false 0,
    .entDurWrite (.func 0) 0 0,
    .listUe 0 0 0,
    .cellTx 0 0 false,
    .cellRx 0 0 [],
    .laneLeaveActive 0 0 false 0,
    .spareActivate 0 0,
    .helloLapse 0 0 none,
    .creditReqRefresh 0 0,
    .reqEntryExpiry 0 0 0 0,
    .voqBalanceExpiry 0 0,
    .fabCfgWrite (.func 0) 0 0,
    .fabLaneCfgWrite (.func 0) 0 0 0,
    .sportIdxWrite (.func 0) 0 0,
    .mcIdxWrite (.func 0) 0 0,
    .reachIdxWrite (.func 0) 0 0,
    .hbmEnable (.func 0) 0 0,
    .hbmTrainDone 0 0 0 [] 0 none [],
    .hbmAccess 0 0 ⟨0, false, 0, false, 0, 0, 0, 0⟩,
    .hbmRefresh 0 0 0,
    .pause (.func 0) 0 0 0,
    .hbmResume (.func 0) 0 0 false 0,
    .restore (.func 0) 0 0 false 0,
    .pattern (.func 0) 0 0 0,
    .setTiming (.func 0) 0 0 0,
    .sppr (.func 0) 0 0 0,
    .hppr (.func 0) 0 0 0,
    .hbmFail (.func 0) 0 0 false 0,
    .retrainWindowEnd 0 0,
    .drainSlow 0 0,
    .hbmStatus (.func 0) 0 0 0,
    .fullRetrain (.func 0) 0 0 0,
    .abortRetrain (.func 0) 0 0 0,
    .fastRetrain (.func 0) 0 0 0,
    .repairLogSave (.func 0) 0 0 0 false] : List Instr).all (fun i => i.wf)) = true := by decide +kernel

theorem test_wf_accepts_7 : (([.repairLogLoad (.func 0) 0 0 0 [] false,
    .doorbell 0 0 0 0 0,
    .irqArm 0 0 0 0,
    .descConsume 0 0 0 [] [] false false,
    .recordPost 0 0 0 [] false false,
    .packTimeout 0 0 0 false,
    .partCreate (.func 0) 0 0,
    .partQuiesce (.func 0) 0 0,
    .quiesceStepDone 0 0,
    .quiesceStepTimeout 0 0,
    .partResume (.func 0) 0 0,
    .partReset (.func 0) 0 0,
    .partRemove (.func 0) 0 0,
    .ringCfgWrite (.func 0) 0 0,
    .identWrite (.func 0) 0 0 0,
    .portOwnWrite (.func 0) 0 0 0,
    .testStart (.func 0) 0 0,
    .testStop (.func 0) 0 0 0 0,
    .testClear (.func 0) 0 0,
    .testInject (.func 0) 0 0,
    .testSelWrite (.func 0) 0 0 0 0 0,
    .pendingTestStart 0 0 0 0,
    .testDurationEnd 0 0 0 0 0 0,
    .checkerLockLoss 0 0 0 0 0 0,
    .bankTestDone 0 0 0,
    .dump (.func 0) 0 0,
    .laneRepair 0 0 0 0,
    .saucerLaneFail 0 0,
    .smbSetAddr 0,
    .regAccess false 0 0,
    .bypass 0,
    .jtagCtrlLock (.func 0) 0,
    .regRead (.func 0) 0,
    .portFaultClear 0 0 0,
    .pfcWdRelease 0 0 0,
    .fabLaneTrained 0 0,
    .fabLaneFault 0 0 false,
    .clientRxLf 0 0 false,
    .checkerLocked 0 0 0 0] : List Instr).all (fun i => i.wf)) = true := by decide +kernel

/-! Witnesses of the hypotheses of the statements, clause by clause. -/

theorem witness_StepRunsTheFrontCommand : (∃ (s : State) (i : Instr) (rest : List Instr), s.pending = i :: rest) ∧ ∃ s : State, s.pending = [] :=
  ⟨⟨{ State.reset with pending := [.powerOn] }, .powerOn, [], rfl⟩, ⟨State.reset, rfl⟩⟩

theorem witness_ChannelsAreIsolated : ∃ (i : Instr) (c d : Fin 4) (s t : State),
    i.chan = some c ∧ d ≠ c ∧ exec i s = .next t ∧ t.isl.pkgFatal = false :=
  ⟨.clkReturn 1 0, 1, 2, State.reset, State.reset, rfl, by decide, rfl, rfl⟩

theorem witness_StepKeepsDelivered : ∃ s t : State, Delivered s ∧ step s = .next t :=
  ⟨State.reset, State.reset.tick, by delta Delivered; decide +kernel, rfl⟩

theorem witness_StepKeepsAbsentInert : ∃ s t : State, AbsentInert s ∧ step s = .next t :=
  ⟨State.reset, State.reset.tick, by delta AbsentInert; decide +kernel, rfl⟩

theorem witness_ResetState : ∃ (p : Pg) (k : PageKind), p.kind = some k := ⟨pgCosy, .cosy, by decide +kernel⟩

theorem witness_SupplyComesAndGoes :
    (∃ (s : State), s.isl.powered = false) :=
    ⟨(Wit.hp (fun i => { i with powered := false })), by decide +kernel⟩

theorem witness_InputFaultStopsThePackage :
    (∃ (s : State), s.isl.powered = true) :=
    ⟨Wit.on (fun ch => ch), by decide +kernel⟩

theorem witness_StrapsAreLatchedAtPwrgood :
    (∃ (s : State) (c : Fin 4), s.isl.powered = true ∧ s.isl.pwrgood = false ∧ s.isl.pkgFatal = false ∧ s.hasChan c = true ∧ s.chState c = 0 ∧ s.isl.getB hpPwr (PWRH.CH_CTRL_RESET c.val) = false ∧ nbit s.isl.chPin c.val = false) :=
    ⟨(Wit.hp (fun i => { i.putF hpPwr (PWRH.CH_STAT_STATE 1) 0 with pwrgood := false })), 1, by decide +kernel⟩

theorem witness_PerstResetsTheHostIslandOnly :
    (∃ (s : State), Delivered s) ∧
    (∃ (s : State), s.isl.pwrgood = true) :=
  ⟨
    ⟨Wit.on (fun ch => ch), by delta Delivered; decide +kernel⟩,
    ⟨Wit.on (fun ch => ch), by decide +kernel⟩⟩

theorem witness_PcieLinkState :
    (∃ (s : State) (speed : Nat) (width : Nat), s.isl.pwrgood = true ∧ s.isl.perst = false ∧ s.isl.dead = false ∧ 4 ≤ speed ∧ speed ≤ 6 ∧ 1 ≤ width ∧ width ≤ 16) ∧
    (∃ (s : State), s.isl.l0 = true) :=
  ⟨
    ⟨Wit.on (fun ch => ch), 4, 1, by decide +kernel⟩,
    ⟨Wit.on (fun ch => ch), by decide +kernel⟩⟩

theorem witness_FunctionResetAndUnmask :
    (∃ (s : State) (f : Nat), s.isl.perst = false ∧ s.isl.dead = false ∧ f < 128 ∧ ((f = 0 ∨ s.isl.vfEnable = true))) ∧
    (∃ (s : State), s.isl.perst = false ∧ s.isl.dead = false) :=
  ⟨
    ⟨(Wit.hp (fun i => { i with vfEnable := true, fns := [(3, { en := true, vmask := 5 })] })), (3), by decide +kernel⟩,
    ⟨(Wit.hp (fun i => { i with vfEnable := true, fns := [(3, { en := true, vmask := 5 })] })), by decide +kernel⟩⟩

theorem witness_ChannelResetAndPower :
    (∃ (s : State) (c : Fin 4), PowerReady s c ∧ s.isl.getB hpPwr (PWRH.CH_CTRL_PD c.val) = false) ∧
    (∃ (s : State) (c : Fin 4), PowerReady s c ∧ s.isl.getB hpPwr (PWRH.CH_CTRL_PD c.val) = false ∧ s.isl.getB hpPwr (PWRH.CH_CTRL_RESET c.val) = false ∧ s.chState c = 5) ∧
    (∃ (s : State) (c : Fin 4) (v : Word), PowerReady s c ∧ IslReady s ∧ bit v 31 = true ∧ bit v 30 = false) ∧
    (∃ (s : State) (c : Fin 4) (v : Word), PowerReady s c ∧ IslReady s ∧ bit v 30 = true) ∧
    (∃ (s : State) (c : Fin 4), s.hasChan c = true ∧ s.chState c = 1) :=
  ⟨
    ⟨Wit.on (fun ch => ch), 1, by delta PowerReady; decide +kernel⟩,
    ⟨(Wit.hp (fun i => { i.putF hpPwr (PWRH.CH_STAT_STATE 1) 5 with chPin := 2 })), 1, by delta PowerReady; decide +kernel⟩,
    ⟨Wit.on (fun ch => ch), 1, 0x80000000, by delta IslReady PowerReady; decide +kernel⟩,
    ⟨Wit.on (fun ch => ch), 1, 0x40000000, by delta IslReady PowerReady; decide +kernel⟩,
    ⟨(Wit.hp (fun i => i.putF hpPwr (PWRH.CH_STAT_STATE 1) 1)), 1, by decide +kernel⟩⟩

theorem witness_ChannelRequestsInEveryState :
    (∃ (s : State) (c : Fin 4), PowerReady s c) ∧
    (∃ (s : State) (c : Fin 4) (q : Req), PowerReady s c ∧ IslReady s ∧ s.reach q = true ∧ q.keeper? = none ∧ q ≠ .smbus ∧ q.isPf0 = true) ∧
    (∃ (s : State) (c : Fin 4), s.isl.powered = true ∧ s.isl.pwrgood = false ∧ s.hasChan c = true) :=
  ⟨
    ⟨(Wit.hp (fun i => { ((i.putF hpPwr (PWRH.CH_STAT_STATE 1) (4)).putB hpPwr (PWRH.CH_CTRL_PD 1) false).putB hpPwr (PWRH.CH_CTRL_RESET 1) false |>.putB hpPwr PWRH.JTAG_STAT_UNLOCKED true with chPin := 0 })), 1, by delta PowerReady; decide +kernel⟩,
    ⟨(Wit.hp (fun i => { ((i.putF hpPwr (PWRH.CH_STAT_STATE 1) (4)).putB hpPwr (PWRH.CH_CTRL_PD 1) false).putB hpPwr (PWRH.CH_CTRL_RESET 1) false |>.putB hpPwr PWRH.JTAG_STAT_UNLOCKED true with chPin := 0 })), 1, (.func 0), by delta IslReady PowerReady; decide +kernel⟩,
    ⟨(Wit.hp (fun i => { ((i.putF hpPwr (PWRH.CH_STAT_STATE 1) (4)).putB hpPwr (PWRH.CH_CTRL_PD 1) false).putB hpPwr (PWRH.CH_CTRL_RESET 1) false with chPin := 0, pwrgood := false, pkgFatal := false })), 1, by decide +kernel⟩⟩

theorem witness_LossOfClockOrRailIsFatal :
    (∃ (s : State) (c : Fin 4), s.chPages c = true ∧ s.chState c ≠ 6 ∧ (s.chan c).outQ = []) ∧
    (∃ (s : State) (c : Fin 4) (die : Fin 3), die.val < 2 ∧ s.chPages c = true ∧ s.chState c ≠ 6 ∧ (s.chan c).outQ = []) ∧
    (∃ (s : State), s.isl.pwrgood = true) :=
  ⟨
    ⟨Wit.on (fun ch => ch), 1, by decide +kernel⟩,
    ⟨Wit.on (fun ch => ch), 1, (Fin.ofNat 3 0), by decide +kernel⟩,
    ⟨Wit.on (fun ch => ch), by decide +kernel⟩⟩

theorem witness_SamplesReachTheRegisters :
    (∃ (s : State) (c : Fin 4), Ready s c ∧ (s.chan c).enabled (pgSens 0) = true) ∧
    (∃ (s : State) (mv : Nat) (ma : Nat) (pw : Nat), s.isl.pwrgood = true ∧ s.isl.getB hpSens CTRL_ENABLE = true ∧ mv < 2 ^ 32 ∧ ma < 2 ^ 32 ∧ pw < 2 ^ 32) ∧
    (∃ (s : State) (c : Fin 4) (reading : Nat), Ready s c ∧ (s.chan c).enabled (pgPwr 0) = true ∧ reading < 65536 ∧ -880 ≤ toSigned reading 16 ∧ toSigned reading 16 ≤ 2000) :=
  ⟨
    ⟨Wit.on (fun ch => ch |>.putB (pgSens 0) CTRL_ENABLE true), 1, by delta Ready; decide +kernel⟩,
    ⟨(Wit.hp (fun i => i.putB hpSens CTRL_ENABLE true)), 12000, 0, 0, by decide +kernel⟩,
    ⟨Wit.on (fun ch => ch |>.putB (pgPwr 0) CTRL_ENABLE true), 1, (400), by delta Ready; decide +kernel⟩⟩

theorem witness_SamplesOfEverySensor :
    (∃ (s : State) (c : Fin 4) (die : Fin 3), Ready s c ∧ die.val < 2 ∧ (s.chan c).enabled (pgSens die.val) = true) ∧
    (∃ (s : State) (mv : Nat) (ma : Nat) (pw : Nat), s.isl.pwrgood = true ∧ s.isl.getB hpSens CTRL_ENABLE = true ∧ mv < 2 ^ 32 ∧ ma < 2 ^ 32 ∧ pw < 2 ^ 32) ∧
    (∃ (s : State) (c : Fin 4), Ready s c ∧ (s.chan c).enabled (pgPwr 0) = true) :=
  ⟨
    ⟨Wit.on (fun ch => ch |>.putB (pgSens 0) CTRL_ENABLE true |>.putB (pgSens 1) CTRL_ENABLE true |>.putB (pgPwr 0) CTRL_ENABLE true |>.putB (pgPwr 1) CTRL_ENABLE false), 1, (Fin.ofNat 3 0), by delta Ready; decide +kernel⟩,
    ⟨(Wit.hp (fun i => i.putB hpSens CTRL_ENABLE true)), 12000, 0, 0, by decide +kernel⟩,
    ⟨Wit.on (fun ch => ch |>.putB (pgSens 0) CTRL_ENABLE true |>.putB (pgSens 1) CTRL_ENABLE true |>.putB (pgPwr 0) CTRL_ENABLE true |>.putB (pgPwr 1) CTRL_ENABLE false), 1, by delta Ready; decide +kernel⟩⟩

theorem witness_RelayLinkStates :
    (∃ (s : State) (c : Fin 4), s.hasRelay c = true ∧ s.relayState c = 1) ∧
    (∃ (s : State) (c : Fin 4), s.hasRelay c = true ∧ s.relayState c = 2 ∧ s.isl.getB hpRelay (RELAY.LINK_CTRL_AUTO c.val) = true) ∧
    (∃ (s : State) (c : Fin 4) (v : Word), s.hasRelay c = true ∧ IslReady s ∧ bit v 30 = true) ∧
    (∃ (s : State) (c : Fin 4), s.hasRelay c = true ∧ s.relayState c = 0) :=
  ⟨
    ⟨Wit.on (fun ch => ch), 1, by decide +kernel⟩,
    ⟨(Wit.hp (fun i => i.putF hpRelay (RELAY.LINK_STAT_STATE 1) 2)), 1, by decide +kernel⟩,
    ⟨Wit.on (fun ch => ch), 1, 0x40000000, by delta IslReady; decide +kernel⟩,
    ⟨(Wit.hp (fun i => i.putF hpRelay (RELAY.LINK_STAT_STATE 1) 0)), 1, by decide +kernel⟩⟩

theorem witness_RegisterWriteTakesItsFields :
    (∃ (s : State) (c : Fin 4) (p : Pg) (k : PageKind), HostReady s c ∧ p.kind = some k) :=
    ⟨Wit.on (fun ch => ch), 1, (pgSens 0), (((pgSens 0)).kind.getD .host), by delta HostReady Ready; decide +kernel⟩

theorem witness_RegisterReadReturnsTheWord :
    (∃ (s : State) (c : Fin 4) (p : Pg) (k : PageKind), HostReady s c ∧ p.kind = some k) ∧
    (∃ (s : State) (c : Fin 4), HostReady s c) :=
  ⟨
    ⟨Wit.on (fun ch => ch), 1, (pgSens 0), (((pgSens 0)).kind.getD .host), by delta HostReady Ready; decide +kernel⟩,
    ⟨Wit.on (fun ch => ch), 1, by delta HostReady Ready; decide +kernel⟩⟩

theorem witness_WordPairsGoThroughTheLatch :
    (∃ (s : State) (c : Fin 4), HostReady s c) ∧
    (∃ (s : State) (c : Fin 4) (v : Nat), HostReady s c ∧ s.latch (.func 0) c = ⟨1, addrOf c.val pgBrew BREW.IMG_ADDR, v⟩) ∧
    (∃ (s : State) (c : Fin 4) (lo : Word), HostReady s c ∧ s.latch (.func 0) c = ⟨2, addrOf c.val pgBrew BREW.IMG_ADDR, lo.toNat⟩) :=
  ⟨
    ⟨Wit.on (fun ch => ch), 1, by delta HostReady Ready; decide +kernel⟩,
    ⟨(Wit.hp (fun i => { i with latches := [(0, ⟨1, addrOf 1 pgBrew BREW.IMG_ADDR, 2^33 + 5⟩)] })), 1, (2^33 + 5), by delta HostReady Ready; decide +kernel⟩,
    ⟨(Wit.hp (fun i => { i with latches := [(0, ⟨2, addrOf 1 pgBrew BREW.IMG_ADDR, 0x1234⟩)] })), 1, 0x1234, by delta HostReady Ready; decide +kernel⟩⟩

theorem witness_UnsupportedAccessChangesNothing :
    (∃ (s : State), IslReady s) :=
    ⟨Wit.on (fun ch => ch), by delta IslReady; decide +kernel⟩

theorem witness_ForbiddenWritesAreCountedAndChangeNothing :
    (∃ (s : State) (c : Fin 4), HostReady s c) ∧
    (∃ (s : State) (c : Fin 4) (n : Nat), HostReady s c ∧ s.reach (.func n) = true ∧ n ≠ 0) :=
  ⟨
    ⟨Wit.on (fun ch => ch), 1, by delta HostReady Ready; decide +kernel⟩,
    ⟨(Wit.hp (fun i => { i with vfEnable := true, vfBar0 := true })), 1, 3, by delta HostReady Ready; decide +kernel⟩⟩

theorem witness_PageControl :
    (∃ (s : State) (c : Fin 4) (d : Fin 2), HostReady s c ∧ (s.chan c).inReset.contains ((pgSens d.val).key 0) = false) ∧
    (∃ (s : State) (c : Fin 4) (d : Fin 2), HostReady s c ∧ (s.chan c).inReset.contains ((pgSens d.val).key 0) = true) ∧
    (∃ (s : State) (c : Fin 4), HostReady s c) :=
  ⟨
    ⟨Wit.on (fun ch => ch), 1, (Fin.ofNat 2 0), by delta HostReady Ready; decide +kernel⟩,
    ⟨Wit.on (fun ch => ch |> fun ch => { ch with inReset := [(pgSens 0).key 0, (pgSens 1).key 0] }), 1, (Fin.ofNat 2 0), by delta HostReady Ready; decide +kernel⟩,
    ⟨Wit.on (fun ch => ch), 1, by delta HostReady Ready; decide +kernel⟩⟩

theorem witness_QuiesceBitsAreIgnoredAndTakeoverClears :
    (∃ (s : State) (c : Fin 4), HostReady s c) ∧
    (∃ (s : State) (c : Fin 4) (p : Pg) (k : PageKind), Ready s c ∧ p.kind = some k) :=
  ⟨
    ⟨Wit.on (fun ch => ch), 1, by delta HostReady Ready; decide +kernel⟩,
    ⟨Wit.on (fun ch => ch), 1, (pgSens 0), (((pgSens 0)).kind.getD .host), by delta Ready; decide +kernel⟩⟩

theorem witness_ForceAndTallyClear :
    (∃ (s : State) (c : Fin 4) (p : Pg) (k : PageKind) (v : Word) (i : Nat), HostReady s c ∧ p.kind = some k ∧ i < 32 ∧ nbit (Nat.land v.toNat k.cap.causeMask) i = true) ∧
    (∃ (s : State) (c : Fin 4) (p : Pg) (k : PageKind) (i : Nat), HostReady s c ∧ p.kind = some k ∧ k.cap.tally = true ∧ i < 8) :=
  ⟨
    ⟨Wit.on (fun ch => ch), 1, (pgSens 0), (((pgSens 0)).kind.getD .host), (1), (0), by delta HostReady Ready; decide +kernel⟩,
    ⟨Wit.on (fun ch => ch), 1, (pgCaddy), (((pgCaddy)).kind.getD .host), 0, by delta HostReady Ready; decide +kernel⟩⟩

theorem witness_TheClaimGateJudgesKeeperWrites :
    (∃ (s : State) (c : Fin 4) (k : Fin 2), Ready s c ∧ (s.chan c).busOn k.val = true ∧ (s.chan c).winner = some k.val) ∧
    (∃ (s : State) (c : Fin 4) (k : Fin 2), Ready s c ∧ (s.chan c).busOn k.val = true ∧ (s.chan c).winner ≠ some k.val) :=
  ⟨
    ⟨Wit.on (fun ch => ch |> Wit.kp 0 4 0 |> Wit.kp 1 3 0 |>.putF (pgKeep (0)) KEEP.CLAIM_CLAIM 0x80), 1, (Fin.ofNat 2 0), by delta Ready; decide +kernel⟩,
    ⟨Wit.on (fun ch => ch |> Wit.kp 0 4 0 |> Wit.kp 1 3 0), 1, (Fin.ofNat 2 0), by delta Ready; decide +kernel⟩⟩

theorem witness_KeeperWritesOfEveryRegister :
    (∃ (s : State) (c : Fin 4) (k : Fin 2) (d : Fin 2) (page : Nat) (kd : PageKind) (off : Nat) (h : RegHit) (v : Word), Ready s c ∧ (s.chan c).busOn k.val = true ∧ (Pg.mk d.val page).kind = some kd ∧ off < 0x10000 ∧ findReg kd off = some h ∧ kd.cap.gate = true ∧ (s.chan c).winner = some k.val ∧ hasMw h.flds = false ∧ h.row.wide = false ∧ wordLegal kd off h v = true) ∧
    (∃ (s : State) (c : Fin 4) (k : Fin 2) (d : Fin 2) (page : Nat) (kd : PageKind) (off : Nat) (h : RegHit), Ready s c ∧ (s.chan c).busOn k.val = true ∧ (Pg.mk d.val page).kind = some kd ∧ off < 0x10000 ∧ findReg kd off = some h ∧ kd.cap.gate = true ∧ (s.chan c).winner ≠ some k.val) ∧
    (∃ (s : State) (c : Fin 4) (k : Fin 2) (d : Fin 2) (page : Nat) (kd : PageKind) (off : Nat) (h : RegHit) (v : Word), Ready s c ∧ (s.chan c).busOn k.val = true ∧ (Pg.mk d.val page).kind = some kd ∧ off < 0x10000 ∧ findReg kd off = some h ∧ kd.cap.gate = false ∧ hasMw h.flds = false ∧ h.row.wide = false ∧ wordLegal kd off h v = true) :=
  ⟨
    ⟨Wit.on (fun ch => ch |> Wit.kp (0) 4 0x80), 1, (Fin.ofNat 2 0), (0), (2), ((Pg.mk 0 ((2))).kind.getD .host), (COSY.TE_BOUND), (Wit.hit (((Pg.mk 0 ((2))).kind.getD .host)) ((COSY.TE_BOUND))), (0x20000), by delta Ready; decide +kernel⟩,
    ⟨Wit.on (fun ch => ch |> Wit.kp (0) 4 0x80 |> Wit.kp (1) 4 0x80 |> fun ch => { ch.putF (pgKeep (0)) KEEP.CLAIM_CLAIM 0 with free := 1 }), 1, (Fin.ofNat 2 0), (0), (2), ((Pg.mk 0 ((2))).kind.getD .host), (COSY.TE_BOUND), (Wit.hit (((Pg.mk 0 ((2))).kind.getD .host)) ((COSY.TE_BOUND))), by delta Ready; decide +kernel⟩,
    ⟨Wit.on (fun ch => ch |> Wit.kp (0) 4 0x80), 1, (Fin.ofNat 2 0), (0), (pgKeepA.num), ((Pg.mk 0 ((pgKeepA.num))).kind.getD .host), (KEEP.HEARTBEAT), (Wit.hit (((Pg.mk 0 ((pgKeepA.num))).kind.getD .host)) ((KEEP.HEARTBEAT))), (0x20000), by delta Ready; decide +kernel⟩⟩

theorem witness_KeeperPageControl :
    (∃ (s : State) (c : Fin 4) (k : Fin 2), HostReady s c ∧ (s.chan c).inReset.contains ((pgKeep k.val).key 0) = false ∧ (s.chan c).getB (pgKeep k.val) CTRL_ENABLE = true ∧ ((s.chan c).keeper k.val).verified = true ∧ ((s.chan c).keeper k.val).sramBad = false ∧ (s.chan c).getB (pgKeep k.val) KEEP.FW_STAT_BUSY = false) ∧
    (∃ (s : State) (c : Fin 4) (k : Fin 2), HostReady s c ∧ (s.chan c).getF (pgKeep k.val) CTRL_SOFT_RESET = 0 ∧ (s.chan c).getB (pgKeep k.val) CTRL_ENABLE = true ∧ (s.chan c).kstate k.val ≠ 6 ∧ (s.chan c).getB (pgKeep k.val) KEEP.FW_STAT_BUSY = false) ∧
    (∃ (s : State) (c : Fin 4) (k : Fin 2), HostReady s c ∧ (s.chan c).getF (pgKeep k.val) CTRL_SOFT_RESET = 0 ∧ (s.chan c).getB (pgKeep k.val) CTRL_ENABLE = false ∧ (s.chan c).kstate k.val = 0 ∧ ((s.chan c).keeper k.val).verified = true ∧ ((s.chan c).keeper k.val).sramBad = false) :=
  ⟨
    ⟨Wit.on (fun ch => ch |>.putB (pgKeep 0) CTRL_ENABLE true |>.putB (pgKeep 1) CTRL_ENABLE true |> fun ch => { ch with keepA := { verified := true }, keepB := { verified := true } }), 1, (Fin.ofNat 2 0), by delta HostReady Ready; decide +kernel⟩,
    ⟨Wit.on (fun ch => ch |>.putB (pgKeep 0) CTRL_ENABLE true |>.putF (pgKeep 0) KEEP.STATUS_STATE 4 |>.putB (pgKeep 1) CTRL_ENABLE true), 1, (Fin.ofNat 2 0), by delta HostReady Ready; decide +kernel⟩,
    ⟨Wit.on (fun ch => ch |>.putB (pgKeep 0) CTRL_ENABLE false |>.putB (pgKeep 1) CTRL_ENABLE false |> fun ch => { ch with keepA := { verified := true }, keepB := { verified := true } }), 1, (Fin.ofNat 2 0), by delta HostReady Ready; decide +kernel⟩⟩

theorem witness_KeeperPageControlInEveryState :
    (∃ (s : State) (q : Req) (c : Fin 4) (k : Fin 2), HostReady s c ∧ MayUse s q c true ∧ (s.chan c).getF (pgKeep k.val) CTRL_SOFT_RESET = 0 ∧ (s.chan c).inReset.contains ((pgKeep k.val).key 0) = false) ∧
    (∃ (s : State) (q : Req) (c : Fin 4) (k : Fin 2), HostReady s c ∧ MayUse s q c true ∧ (s.chan c).getF (pgKeep k.val) CTRL_SOFT_RESET = 0 ∧ (s.chan c).getB (pgKeep k.val) CTRL_ENABLE = true) ∧
    (∃ (s : State) (q : Req) (c : Fin 4) (k : Fin 2), HostReady s c ∧ MayUse s q c true ∧ (s.chan c).getF (pgKeep k.val) CTRL_SOFT_RESET = 0 ∧ (s.chan c).getB (pgKeep k.val) CTRL_ENABLE = false) :=
  ⟨
    ⟨((Wit.on (fun ch => (({ ch with keepA := { verified := 0 != 0, sramBad := false }, keepB := { verified := 0 != 0, sramBad := false } }.putB (pgKeep 0) KEEP.FW_STAT_BUSY false |>.putB (pgKeep 1) KEEP.FW_STAT_BUSY false) |> Wit.kp 0 (4) 0x80 |> Wit.kp 1 (4) 0 |>.putB (pgKeep 0) CTRL_ENABLE true |>.putB (pgKeep 1) CTRL_ENABLE true))).onIsl (fun i => i.putB hpPwr PWRH.JTAG_STAT_UNLOCKED true)), (.func 0), 1, (Fin.ofNat 2 0), by delta MayUse HostReady Ready; decide +kernel⟩,
    ⟨((Wit.on (fun ch => (({ ch with keepA := { verified := 0 != 0, sramBad := false }, keepB := { verified := 0 != 0, sramBad := false } }.putB (pgKeep 0) KEEP.FW_STAT_BUSY false |>.putB (pgKeep 1) KEEP.FW_STAT_BUSY false) |> Wit.kp 0 (4) 0x80 |> Wit.kp 1 (4) 0 |>.putB (pgKeep 0) CTRL_ENABLE true |>.putB (pgKeep 1) CTRL_ENABLE true))).onIsl (fun i => i.putB hpPwr PWRH.JTAG_STAT_UNLOCKED true)), (.func 0), 1, (Fin.ofNat 2 0), by delta MayUse HostReady Ready; decide +kernel⟩,
    ⟨((Wit.on (fun ch => (({ ch with keepA := { verified := 0 != 0, sramBad := false }, keepB := { verified := 0 != 0, sramBad := false } }.putB (pgKeep 0) KEEP.FW_STAT_BUSY false |>.putB (pgKeep 1) KEEP.FW_STAT_BUSY false) |> Wit.kp 0 (0) 0 |> Wit.kp 1 (0) 0 |>.putB (pgKeep 0) CTRL_ENABLE false |>.putB (pgKeep 1) CTRL_ENABLE false))).onIsl (fun i => i.putB hpPwr PWRH.JTAG_STAT_UNLOCKED true)), (.func 0), 1, (Fin.ofNat 2 0), by delta MayUse HostReady Ready; decide +kernel⟩⟩

theorem witness_SnapshotsAndStackEnables :
    (∃ (s : State) (q : Req) (c : Fin 4), HostReady s c ∧ MayUse s q c true) ∧
    (∃ (s : State) (q : Req) (c : Fin 4) (st : Fin 2), HostReady s c ∧ MayUse s q c true ∧ (s.chan c).getF (pgHbmc st.val) CTRL_SOFT_RESET = 0 ∧ (s.chan c).getB (pgHbmc st.val) CTRL_ENABLE = false) :=
  ⟨
    ⟨((Wit.on (fun ch => { ch.putB (pgHbmc 0) CTRL_ENABLE false |>.putB (pgHbmc 1) CTRL_ENABLE false with time := 65536 * 123456789 + 77 })).onIsl (fun i => i.putB hpPwr PWRH.JTAG_STAT_UNLOCKED true)), (.func 0), 1, by delta MayUse HostReady Ready; decide +kernel⟩,
    ⟨((Wit.on (fun ch => { ch.putB (pgHbmc 0) CTRL_ENABLE false |>.putB (pgHbmc 1) CTRL_ENABLE false with time := 65536 * 123456789 + 77 })).onIsl (fun i => i.putB hpPwr PWRH.JTAG_STAT_UNLOCKED true)), (.func 0), 1, (Fin.ofNat 2 0), by delta MayUse HostReady Ready; decide +kernel⟩⟩

theorem witness_SnapshotEnableAndOscillator :
    (∃ (s : State) (c : Fin 4), HostReady s c) ∧
    (∃ (s : State) (c : Fin 4) (st : Fin 2), HostReady s c ∧ (s.chan c).getF (pgHbmc st.val) CTRL_SOFT_RESET = 0) ∧
    (∃ (s : State) (c : Fin 4), Ready s c) :=
  ⟨
    ⟨Wit.on (fun ch => ch), 1, by delta HostReady Ready; decide +kernel⟩,
    ⟨Wit.on (fun ch => ch), 1, (Fin.ofNat 2 0), by delta HostReady Ready; decide +kernel⟩,
    ⟨Wit.on (fun ch => ch), 1, by delta Ready; decide +kernel⟩⟩

theorem witness_SmbusPort :
    (∃ (s : State), s.isl.powered = true ∧ s.isl.dead = false) ∧
    (∃ (s : State), s.isl.powered = true ∧ s.isl.dead = false ∧ s.isl.smbAddr = 0x30164) ∧
    (∃ (s : State) (v : Word), s.isl.powered = true ∧ s.isl.dead = false ∧ s.isl.smbAddr = 0x30164 ∧ 60 ≤ fld v 23 16 ∧ fld v 23 16 ≤ 115 ∧ fld v 23 16 < fld v 15 8 ∧ fld v 15 8 ≤ 120) :=
  ⟨
    ⟨(Wit.hp (fun i => { i with smbAddr := 0x30164 })), by decide +kernel⟩,
    ⟨(Wit.hp (fun i => { i with smbAddr := 0x30164 })), by decide +kernel⟩,
    ⟨(Wit.hp (fun i => { i with smbAddr := 0x30164 })), (0x415000#32), by decide +kernel⟩⟩

theorem witness_SmbusAccesses :
    (∃ (s : State), s.isl.powered = true ∧ s.isl.dead = false) ∧
    (∃ (s : State) (p : Nat) (off : Nat) (k : PageKind) (h : RegHit) (v : Word), s.isl.powered = true ∧ s.isl.dead = false ∧ ((p = hpPwr ∧ off = 0x104) ∨ (p = hpSens ∧ off = 0x164)) ∧ hpKind p = some k ∧ s.islReg p off = some h ∧ s.isl.smbAddr = p * 0x10000 + off ∧ wordLegal k off h v = true) ∧
    (∃ (s : State) (c : Fin 4) (d : Fin 2) (v : Word), s.isl.powered = true ∧ s.isl.dead = false ∧ Ready s c ∧ s.relayUp c = true ∧ s.isl.smbAddr = addrOf c.val (pgSens d.val) SENS.THRESH ∧ 60 ≤ fld v 23 16 ∧ fld v 23 16 ≤ 115 ∧ fld v 23 16 < fld v 15 8 ∧ fld v 15 8 ≤ 120) :=
  ⟨
    ⟨((Wit.on (fun ch => ch.putN (pgSens 0) 0x164 77)).onIsl (fun i => { i with smbAddr := if true then addrOf 1 (pgSens 0) (4 * 0) else 0x30000 + 4 * 0 })), by decide +kernel⟩,
    ⟨(Wit.hp (fun i => { i with smbAddr := if true then 0x30164 else 0x20104 })), (hpSens), (0x164), ((hpKind ((hpSens))).getD .host), (Wit.hit (((hpKind ((hpSens))).getD .host)) ((0x164))), (0x415000#32), by decide +kernel⟩,
    ⟨(Wit.hp (fun i => { i with smbAddr := addrOf 1 (pgSens (0)) SENS.THRESH })), 1, (Fin.ofNat 2 0), (0x415000#32), by delta Ready; decide +kernel⟩⟩

theorem witness_TestPortAccesses :
    (∃ (s : State), s.jtagReady = true ∧ s.jtagOpen = true ∧ s.isl.perst = false) :=
    ⟨(Wit.jtag (fun ch => ch)), by decide +kernel⟩

theorem witness_TestPortInstructions :
    (∃ (s : State), s.jtagReady = true) ∧
    (∃ (s : State) (code : _), s.jtagReady = true ∧ s.jtagCode (code % 256) = 0xFF) ∧
    (∃ (s : State), s.jtagReady = true ∧ s.scanFree = true) :=
  ⟨
    ⟨Wit.on (fun ch => ch), by decide +kernel⟩,
    ⟨Wit.on (fun ch => ch), 119, by decide +kernel⟩,
    ⟨State.reset, by decide +kernel⟩⟩

theorem witness_TestPortUnlocking :
    (∃ (s : State), s.jtagReady = true) ∧
    (∃ (s : State) (n : _), s.jtagReady = true ∧ s.isl.perst = false ∧ s.isl.getB hpPwr PWRH.JTAG_CTRL_UNLOCK_DIS = false ∧ s.isl.getB hpPwr PWRH.JTAG_STAT_BLOCKED = false ∧ s.isl.nonce = some n) ∧
    (∃ (s : State), s.jtagReady = true ∧ s.isl.perst = false ∧ s.isl.getB hpPwr PWRH.JTAG_CTRL_UNLOCK_DIS = false ∧ s.isl.getB hpPwr PWRH.JTAG_STAT_BLOCKED = false) ∧
    (∃ (s : State), s.jtagReady = true ∧ s.isl.getB hpPwr PWRH.JTAG_STAT_BLOCKED = true) ∧
    (∃ (s : State) (v : Word), s.jtagReady = true ∧ s.isl.perst = false ∧ bit v 0 = true) ∧
    (∃ (s : State), s.jtagReady = true ∧ s.jtagOpen = true ∧ s.isl.perst = false) ∧
    (∃ (s : State) (v : Word), s.jtagReady = true ∧ s.jtagOpen = true ∧ s.isl.perst = false ∧ fld v 17 16 = 2) :=
  ⟨
    ⟨Wit.on (fun ch => ch), by decide +kernel⟩,
    ⟨(Wit.hp (fun i => { i with nonce := some 7 })), 7, by decide +kernel⟩,
    ⟨(Wit.hp (fun i => { i with nonce := some 7, jtagFails := 2 })), by decide +kernel⟩,
    ⟨(Wit.hp (fun i => (i.putB hpPwr PWRH.JTAG_STAT_BLOCKED true))), by decide +kernel⟩,
    ⟨Wit.on (fun ch => ch), 1, by decide +kernel⟩,
    ⟨(Wit.hp (fun i => (i.putB hpPwr PWRH.JTAG_STAT_UNLOCKED true))), by decide +kernel⟩,
    ⟨(Wit.hp (fun i => (i.putB hpPwr PWRH.JTAG_STAT_UNLOCKED true))), 0x20005, by decide +kernel⟩⟩

theorem witness_RegisterWritesRunTheirEffect :
    (∃ (s : State) (q : Req) (c : Fin 4) (p : Pg) (k : PageKind) (off : Nat) (h : RegHit) (v : Word), HostReady s c ∧ p.kind = some k ∧ off < 0x10000 ∧ findReg k off = some h ∧ h.row.wide = false ∧ hasKw h.flds = false ∧ MayUse s q c (hasMw h.flds) ∧ ((judged p off = false ∨ wordLegal k off h v = true))) ∧
    (∃ (s : State) (q : Req) (c : Fin 4) (p : Pg) (k : PageKind) (off : Nat) (h : RegHit) (v : Word), HostReady s c ∧ p.kind = some k ∧ off < 0x10000 ∧ findReg k off = some h ∧ h.row.wide = false ∧ hasKw h.flds = false ∧ MayUse s q c (hasMw h.flds) ∧ ((judged p off = false ∨ wordLegal k off h v = true)) ∧ 0x100 ≤ off ∧ effectOf s c p off (wordReq (counted s q c p 3) q c p off h v) ((counted s q c p 3).chan c) = plainHook (wordReq (counted s q c p 3) q c p off h v) ((counted s q c p 3).chan c)) ∧
    (∃ (s : State) (q : Req) (c : Fin 4) (p : Pg) (k : PageKind) (off : Nat) (h : RegHit) (v : Word), HostReady s c ∧ p.kind = some k ∧ off < 0x10000 ∧ findReg k off = some h ∧ h.row.wide = false ∧ hasKw h.flds = false ∧ MayUse s q c (hasMw h.flds) ∧ judged p off = true ∧ wordLegal k off h v = false) :=
  ⟨
    ⟨((Wit.on (fun ch => { ch with parts := [(0, { id0 := 0x80300000 })] })).onIsl (fun i => { i.putB hpPwr PWRH.JTAG_STAT_UNLOCKED true with vfEnable := true, vfBar0 := true })), (.func 0), 1, (pgSens 0), (((pgSens 0)).kind.getD .host), (oROUTE), (Wit.hit ((((pgSens 0)).kind.getD .host)) ((oROUTE))), (0x20000), by delta MayUse HostReady Ready; decide +kernel⟩,
    ⟨((Wit.on (fun ch => { ch with parts := [(0, { id0 := 0x80300000 })] })).onIsl (fun i => { i.putB hpPwr PWRH.JTAG_STAT_UNLOCKED true with vfEnable := true, vfBar0 := true })), (.func 0), 1, (pgBrew), (((pgBrew)).kind.getD .host), (0x104), (Wit.hit ((((pgBrew)).kind.getD .host)) ((0x104))), (0x20000), by delta MayUse HostReady Ready; decide +kernel⟩,
    ⟨((Wit.on (fun ch => { ch with parts := [(0, { id0 := 0x80300000 })] })).onIsl (fun i => { i.putB hpPwr PWRH.JTAG_STAT_UNLOCKED true with vfEnable := true, vfBar0 := true })), (.func 0), 1, (pgCosy), (((pgCosy)).kind.getD .host), (COSY.TIME_PRIO), (Wit.hit ((((pgCosy)).kind.getD .host)) ((COSY.TIME_PRIO))), (0xFFFFFFFF), by delta MayUse HostReady Ready; decide +kernel⟩⟩

theorem witness_RegisterReadsReturnTheirWord :
    (∃ (s : State) (q : Req) (c : Fin 4) (p : Pg) (k : PageKind) (off : Nat) (h : RegHit), HostReady s c ∧ p.kind = some k ∧ off < 0x10000 ∧ findReg k off = some h ∧ ¬ (p = pgCosy ∧ 0x110 ≤ off ∧ off < 0x120) ∧ MayUse s q c false ∧ h.row.wide = false) ∧
    (∃ (s : State) (q : Req) (c : Fin 4) (p : Pg) (k : PageKind) (off : Nat) (h : RegHit), HostReady s c ∧ p.kind = some k ∧ off < 0x10000 ∧ findReg k off = some h ∧ ¬ (p = pgCosy ∧ 0x110 ≤ off ∧ off < 0x120) ∧ MayUse s q c false ∧ h.row.wide = true ∧ h.high = false) ∧
    (∃ (s : State) (q : Req) (c : Fin 4) (p : Pg) (k : PageKind) (off : Nat) (h : RegHit), HostReady s c ∧ p.kind = some k ∧ off < 0x10000 ∧ findReg k off = some h ∧ ¬ (p = pgCosy ∧ 0x110 ≤ off ∧ off < 0x120) ∧ MayUse s q c false ∧ h.high = true) :=
  ⟨
    ⟨((Wit.on (fun ch => { ch with parts := [(0, { id0 := 0x80300000 })] })).onIsl (fun i => { i.putB hpPwr PWRH.JTAG_STAT_UNLOCKED true with vfEnable := true, vfBar0 := true })), (.func 0), 1, (pgSens 0), (((pgSens 0)).kind.getD .host), (oROUTE), (Wit.hit ((((pgSens 0)).kind.getD .host)) ((oROUTE))), by delta MayUse HostReady Ready; decide +kernel⟩,
    ⟨((Wit.on (fun ch => { ch with parts := [(0, { id0 := 0x80300000 })] })).onIsl (fun i => { i.putB hpPwr PWRH.JTAG_STAT_UNLOCKED true with vfEnable := true, vfBar0 := true })), (.func 0), 1, (pgBrew), (((pgBrew)).kind.getD .host), (BREW.IMG_ADDR), (Wit.hit ((((pgBrew)).kind.getD .host)) ((BREW.IMG_ADDR))), by delta MayUse HostReady Ready; decide +kernel⟩,
    ⟨((Wit.on (fun ch => { ch with parts := [(0, { id0 := 0x80300000 })] })).onIsl (fun i => { i.putB hpPwr PWRH.JTAG_STAT_UNLOCKED true with vfEnable := true, vfBar0 := true })), (.func 0), 1, (pgBrew), (((pgBrew)).kind.getD .host), (BREW.IMG_ADDR + 4), (Wit.hit ((((pgBrew)).kind.getD .host)) ((BREW.IMG_ADDR + 4))), by delta MayUse HostReady Ready; decide +kernel⟩⟩

theorem witness_WordPairsOfEveryRegister :
    (∃ (s : State) (q : Req) (c : Fin 4) (p : Pg) (k : PageKind) (off : Nat) (h : RegHit), HostReady s c ∧ p.kind = some k ∧ off < 0x10000 ∧ findReg k off = some h ∧ hasKw h.flds = false ∧ MayUse s q c (hasMw h.flds) ∧ h.row.wide = true ∧ h.high = false ∧ writable h.row.fields = true) ∧
    (∃ (s : State) (q : Req) (c : Fin 4) (p : Pg) (k : PageKind) (off : Nat) (h : RegHit) (v : Word) (lo : Word), HostReady s c ∧ p.kind = some k ∧ off < 0x10000 ∧ findReg k off = some h ∧ hasKw h.flds = false ∧ MayUse s q c (hasMw h.flds) ∧ h.high = true ∧ s.latch q c = ⟨2, addrOf c.val p (off - 4), lo.toNat⟩ ∧ wordLegal k off h v = true ∧ wordLegal k (off - 4) ⟨h.row, false⟩ lo = true ∧ pairLegal k (off - 4) lo v = true) ∧
    (∃ (s : State) (q : Req) (c : Fin 4) (p : Pg) (k : PageKind) (off : Nat) (h : RegHit) (v : Word), HostReady s c ∧ p.kind = some k ∧ off < 0x10000 ∧ findReg k off = some h ∧ hasKw h.flds = false ∧ MayUse s q c (hasMw h.flds) ∧ h.high = true ∧ ¬ ((s.latch q c).kind = 2 ∧ (s.latch q c).addr = addrOf c.val p (off - 4)) ∧ wordLegal k off h v = true ∧ pairLegal k (off - 4) (((counted s q c p 3).chan c).get p (off - 4)) v = true) :=
  ⟨
    ⟨((Wit.on (fun ch => { ch with parts := [(0, { id0 := 0x80300000 })] })).onIsl (fun i => { i.putB hpPwr PWRH.JTAG_STAT_UNLOCKED true with vfEnable := true, vfBar0 := true })), (.func 0), 1, (pgBrew), (((pgBrew)).kind.getD .host), (BREW.IMG_ADDR), (Wit.hit ((((pgBrew)).kind.getD .host)) ((BREW.IMG_ADDR))), by delta MayUse HostReady Ready; decide +kernel⟩,
    ⟨((Wit.on (fun ch => { ch with parts := [(0, { id0 := 0x80300000 })] })).onIsl (fun i => { i.putB hpPwr PWRH.JTAG_STAT_UNLOCKED true with vfEnable := true, vfBar0 := true, latches := [(0, ⟨2, addrOf 1 pgBrew BREW.IMG_ADDR, 0x1234⟩)] })), (.func 0), 1, pgBrew, ((pgBrew).kind.getD .host), (BREW.IMG_ADDR + 4), (Wit.hit (((pgBrew).kind.getD .host)) ((BREW.IMG_ADDR + 4))), (BitVec.ofNat 32 0), 0x1234, by delta MayUse HostReady Ready; decide +kernel⟩,
    ⟨((Wit.on (fun ch => { ch with parts := [(0, { id0 := 0x80300000 })] })).onIsl (fun i => { i.putB hpPwr PWRH.JTAG_STAT_UNLOCKED true with vfEnable := true, vfBar0 := true })), (.func 0), 1, (pgBrew), (((pgBrew)).kind.getD .host), (BREW.IMG_ADDR + 4), (Wit.hit ((((pgBrew)).kind.getD .host)) ((BREW.IMG_ADDR + 4))), (BitVec.ofNat 32 0), by delta MayUse HostReady Ready; decide +kernel⟩⟩

theorem witness_IslandRegisterAccess :
    (∃ (s : State) (q : Req) (p : Nat) (k : PageKind) (off : Nat) (h : RegHit) (v : Word), IslReady s ∧ s.reach q = true ∧ q.keeper? = none ∧ q ≠ .smbus ∧ q.isPf0 = true ∧ p < 0x400 ∧ off < 0x10000 ∧ hpKind p = some k ∧ s.islReg p off = some h ∧ h.row.wide = false ∧ wordLegal k off h v = true) ∧
    (∃ (s : State) (q : Req) (p : Nat) (k : PageKind) (off : Nat) (h : RegHit), IslReady s ∧ s.reach q = true ∧ q.keeper? = none ∧ q ≠ .smbus ∧ q.isPf0 = true ∧ p < 0x400 ∧ off < 0x10000 ∧ hpKind p = some k ∧ s.islReg p off = some h ∧ h.row.wide = false) :=
  ⟨
    ⟨(Wit.hp (fun i => { i.putB hpPwr PWRH.JTAG_STAT_UNLOCKED true with vfEnable := true, vfBar0 := true })), (.func 0), (hpSens), ((hpKind ((hpSens))).getD .host), (oROUTE), (Wit.hit (((hpKind ((hpSens))).getD .host)) ((oROUTE))), (0x20000), by delta IslReady; decide +kernel⟩,
    ⟨(Wit.hp (fun i => { i.putB hpPwr PWRH.JTAG_STAT_UNLOCKED true with vfEnable := true, vfBar0 := true })), (.func 0), (hpSens), ((hpKind ((hpSens))).getD .host), (oROUTE), (Wit.hit (((hpKind ((hpSens))).getD .host)) ((oROUTE))), by delta IslReady; decide +kernel⟩⟩

theorem witness_PageControlOfEveryPage :
    (∃ (s : State) (q : Req) (c : Fin 4) (p : Pg) (k : PageKind), HostReady s c ∧ p.kind = some k ∧ MayUse s q c true ∧ (s.chan c).inReset.contains (p.key 0) = false ∧ ((counted s q c p 3).chan c).ctrlRefused k p (setFld ((s.chan c).get p oCTRL) 2 2 1) = false) ∧
    (∃ (s : State) (q : Req) (c : Fin 4) (p : Pg) (k : PageKind), HostReady s c ∧ p.kind = some k ∧ MayUse s q c true ∧ (s.chan c).inReset.contains (p.key 0) = true) ∧
    (∃ (s : State) (q : Req) (c : Fin 4) (p : Pg) (k : PageKind) (on : Bool), HostReady s c ∧ p.kind = some k ∧ MayUse s q c true ∧ (s.chan c).getF p CTRL_SOFT_RESET = 0 ∧ ((counted s q c p 3).chan c).ctrlRefused k p (setFld ((s.chan c).get p oCTRL) 0 0 (b2n on)) = false) ∧
    (∃ (s : State) (q : Req) (c : Fin 4) (p : Pg) (k : PageKind) (on : Bool), HostReady s c ∧ p.kind = some k ∧ MayUse s q c true ∧ (s.chan c).getF p CTRL_SOFT_RESET = 0 ∧ ((counted s q c p 3).chan c).ctrlRefused k p (setFld ((s.chan c).get p oCTRL) 1 1 (b2n on)) = false) ∧
    (∃ (s : State) (q : Req) (c : Fin 4) (p : Pg) (k : PageKind), HostReady s c ∧ p.kind = some k ∧ MayUse s q c true ∧ (s.chan c).getF p CTRL_SOFT_RESET = 0 ∧ ((counted s q c p 3).chan c).ctrlRefused k p (setFld ((s.chan c).get p oCTRL) 3 3 0) = false) :=
  ⟨
    ⟨((Wit.on (fun ch => ch)).onIsl (fun i => { i.putB hpPwr PWRH.JTAG_STAT_UNLOCKED true with vfEnable := true, vfBar0 := true })), (.func 0), 1, (pgCaddy), (((pgCaddy)).kind.getD .host), by delta MayUse HostReady Ready; decide +kernel⟩,
    ⟨(Wit.on (fun ch => { ch with inReset := [pgCaddy.key 0] })), (.func 0), 1, (pgCaddy), (((pgCaddy)).kind.getD .host), by delta MayUse HostReady Ready; decide +kernel⟩,
    ⟨((Wit.on (fun ch => ch)).onIsl (fun i => { i.putB hpPwr PWRH.JTAG_STAT_UNLOCKED true with vfEnable := true, vfBar0 := true })), (.func 0), 1, (pgCaddy), (((pgCaddy)).kind.getD .host), false, by delta MayUse HostReady Ready; decide +kernel⟩,
    ⟨((Wit.on (fun ch => ch)).onIsl (fun i => { i.putB hpPwr PWRH.JTAG_STAT_UNLOCKED true with vfEnable := true, vfBar0 := true })), (.func 0), 1, (pgCaddy), (((pgCaddy)).kind.getD .host), false, by delta MayUse HostReady Ready; decide +kernel⟩,
    ⟨((Wit.on (fun ch => ch)).onIsl (fun i => { i.putB hpPwr PWRH.JTAG_STAT_UNLOCKED true with vfEnable := true, vfBar0 := true })), (.func 0), 1, (pgCaddy), (((pgCaddy)).kind.getD .host), by delta MayUse HostReady Ready; decide +kernel⟩⟩

theorem witness_KeeperFailuresDropTheClaim :
    (∃ (s : State) (c : Fin 4) (k : Fin 2), Ready s c ∧ (s.chan c).coresRun k.val = true) ∧
    (∃ (s : State) (c : Fin 4) (k : Fin 2), Ready s c ∧ (s.chan c).fwRuns k.val = true) ∧
    (∃ (s : State) (c : Fin 4) (k : Fin 2), Ready s c ∧ (s.chan c).kstate k.val = 7) ∧
    (∃ (s : State) (c : Fin 4) (k : Fin 2), Ready s c ∧ ((s.chan c).kstate k.val = 0 ∨ (s.chan c).kstate k.val = 6)) :=
  ⟨
    ⟨Wit.on (fun ch => ch |> Wit.kp 0 4 0x80 |> Wit.kp 1 3 0x40 |> (fun ch => if true then ch else { ch with keepA := { ch.keepA with repairs := [0, 0, 0].take 0 }, keepB := { ch.keepB with repairs := [0, 0, 0].take 0 } })), 1, (Fin.ofNat 2 0), by delta Ready; decide +kernel⟩,
    ⟨Wit.on (fun ch => ch |> Wit.kp 0 4 0x80 |> Wit.kp 1 3 0x40 |> (fun ch => if true then ch else { ch with keepA := { ch.keepA with repairs := [0, 0, 0].take 0 }, keepB := { ch.keepB with repairs := [0, 0, 0].take 0 } })), 1, (Fin.ofNat 2 0), by delta Ready; decide +kernel⟩,
    ⟨Wit.on (fun ch => ch |> Wit.kp 0 4 0x80 |> Wit.kp 1 3 0x40 |> (fun ch => if true then ch else { ch with keepA := { ch.keepA with repairs := [0, 0, 0].take 0 }, keepB := { ch.keepB with repairs := [0, 0, 0].take 0 } }) |> Wit.kp 0 7 0x40 |> Wit.kp 1 7 0x40), 1, (Fin.ofNat 2 0), by delta Ready; decide +kernel⟩,
    ⟨Wit.on (fun ch => ch |> Wit.kp 0 4 0x80 |> Wit.kp 1 3 0x40 |> (fun ch => if true then ch else { ch with keepA := { ch.keepA with repairs := [0, 0, 0].take 0 }, keepB := { ch.keepB with repairs := [0, 0, 0].take 0 } }) |> Wit.kp 0 0 0 |> Wit.kp 1 6 0), 1, (Fin.ofNat 2 0), by delta Ready; decide +kernel⟩⟩

theorem witness_BoundaryBeginsACycle :
    (∃ (s : State) (c : Fin 4), Ready s c) ∧
    (∃ (s : State) (c : Fin 4), Ready s c ∧ (∀ k : Fin 2, (s.chan c).kstate k.val ≠ 3 ∧ (s.chan c).kstate k.val ≠ 4)) :=
  ⟨
    ⟨Wit.on (fun ch => ch |> (Wit.kp 0 4 0x80) |> Wit.kp 1 0 0 |> (fun ch => { ch with bnd := 0, ns := 0, cycNo := 0 })), 1, by delta Ready; decide +kernel⟩,
    ⟨Wit.on (fun ch => ch), 1, by delta Ready; decide +kernel⟩⟩

theorem witness_StandbyTakesOverAtTheBoundary :
    (∃ (s : State) (c : Fin 4) (k : Fin 2), Ready s c ∧ (s.chan c).kstate k.val = 3 ∧ (s.chan c).kstate (1 - k.val) ≠ 3 ∧ (s.chan c).kstate (1 - k.val) ≠ 4 ∧ (s.chan c).claim k.val = (s.chan c).stbyLevel ∧ (s.chan c).claim k.val ≠ 0 ∧ (s.chan c).claim (1 - k.val) < (s.chan c).claim k.val ∧ (s.chan c).nat pgKeepA KEEP.CLAIM_LEVEL = (s.chan c).levels ∧ (s.chan c).levels < 65536) :=
    ⟨Wit.on (fun ch => ch |> Wit.kp 0 3 0x40 |>.putN pgKeepA KEEP.CLAIM_LEVEL 0x8040), 1, (Fin.ofNat 2 0), by delta Ready; decide +kernel⟩

theorem witness_WatchdogAndHandoverDropTheClaim :
    (∃ (s : State) (c : Fin 4) (k : Fin 2), Ready s c ∧ (s.chan c).getF (pgKeep k.val) KEEP.WDOG_MISSES = 4 ∧ (s.chan c).watched k.val = true ∧ (s.chan c).claim k.val ≠ 0) ∧
    (∃ (s : State) (c : Fin 4) (k : Nat), Ready s c ∧ (s.chan c).active = some k ∧ ((s.chan c).keeper k).handover = true ∧ (s.chan c).inflight.isSome = true) :=
  ⟨
    ⟨Wit.on (fun ch => ch |> Wit.kp 0 4 0x80 |>.putF (pgKeep 0) KEEP.WDOG_MISSES 4), 1, (Fin.ofNat 2 0), by delta Ready; decide +kernel⟩,
    ⟨Wit.on (fun ch => ch |> Wit.kp 0 4 0x80 |> Wit.kp 1 3 0x40 |> fun ch => { ch with keepA := { handover := true }, inflight := some {} }), 1, 0, by delta Ready; decide +kernel⟩⟩

theorem witness_StateCopyAndSaucer :
    (∃ (s : State) (c : Fin 4) (k : Nat) (bad : _), Ready s c ∧ (s.chan c).active = some k ∧ (s.chan c).saucerUp = true ∧ (s.chan c).kstate (1 - k) = 3 ∧ ((s.chan c).keeper (1 - k)).resync = false ∧ (bad = 0 ∨ (bad = 1 ∧ (s.chan c).saucerNarrow = false))) ∧
    (∃ (s : State) (c : Fin 4) (k : Nat) (bad : _), Ready s c ∧ (s.chan c).active = some k ∧ (s.chan c).saucerUp = true ∧ (s.chan c).kstate (1 - k) = 3 ∧ ((s.chan c).keeper (1 - k)).resync = false ∧ (2 ≤ bad ∨ (bad = 1 ∧ (s.chan c).saucerNarrow = true))) ∧
    (∃ (s : State) (c : Fin 4) (k : Nat), Ready s c ∧ (s.chan c).active = some k ∧ (s.chan c).saucerUp = true ∧ (s.chan c).kstate (1 - k) = 3 ∧ ((s.chan c).keeper (1 - k)).resync = false) ∧
    (∃ (s : State) (c : Fin 4), Ready s c ∧ (s.chan c).saucerUp = false) :=
  ⟨
    ⟨Wit.on (fun ch => ch |> Wit.kp 0 4 0x80 |> Wit.kp 1 3 0x40 |>.putB pgKeepA KEEP.STATUS_SAUCER_UP true |>.putB pgKeepB KEEP.STATUS_SAUCER_UP true |> fun ch => { ch with regA := { jrnl := { seq := 9 } }, ns := 0 }), 1, 0, 0, by delta Ready; decide +kernel⟩,
    ⟨Wit.on (fun ch => ch |> Wit.kp 0 4 0x80 |> Wit.kp 1 3 0x40 |>.putB pgKeepA KEEP.STATUS_SAUCER_UP true |>.putB pgKeepB KEEP.STATUS_SAUCER_UP true |> fun ch => { ch with regA := { jrnl := { seq := 9 } }, ns := 0 }), 1, 0, 2, by delta Ready; decide +kernel⟩,
    ⟨Wit.on (fun ch => ch |> Wit.kp 0 4 0x80 |> Wit.kp 1 3 0x40 |>.putB pgKeepA KEEP.STATUS_SAUCER_UP true |>.putB pgKeepB KEEP.STATUS_SAUCER_UP true |> fun ch => { ch with regA := { jrnl := { seq := 9 } }, ns := 0 }), 1, 0, by delta Ready; decide +kernel⟩,
    ⟨Wit.on (fun ch => ch |> Wit.kp 0 4 0x80 |> Wit.kp 1 3 0x40 |>.putB pgKeepA KEEP.STATUS_SAUCER_UP true |>.putB pgKeepB KEEP.STATUS_SAUCER_UP true |> fun ch => { ch with regA := { jrnl := { seq := 9 } }, ns := 0 } |>.putB pgKeepA KEEP.STATUS_SAUCER_UP false), 1, by delta Ready; decide +kernel⟩⟩

theorem witness_ClaimWrites :
    (∃ (s : State) (c : Fin 4) (k : Fin 2) (v : _), Ready s c ∧ (s.chan c).fwRuns k.val = true ∧ (v = 0 ∨ v = (s.chan c).stbyLevel) ∧ v < (s.chan c).claim k.val) ∧
    (∃ (s : State) (c : Fin 4) (k : Fin 2), Ready s c ∧ (s.chan c).kstate k.val = 3 ∧ (s.chan c).claim k.val = 0 ∧ (s.chan c).kflag k.val KEEP.STATUS_RESYNC_DONE = true) :=
  ⟨
    ⟨Wit.on (fun ch => ch |> Wit.kp 0 4 0x80 |> Wit.kp 1 3 0x40), 1, (Fin.ofNat 2 0), 0, by delta Ready; decide +kernel⟩,
    ⟨Wit.on (fun ch => ch |> Wit.kp 0 3 0 |>.putB pgKeepA KEEP.STATUS_RESYNC_DONE true), 1, (Fin.ofNat 2 0), by delta Ready; decide +kernel⟩⟩

theorem witness_KeeperStarts :
    (∃ (s : State) (c : Fin 4) (k : Fin 2), Ready s c ∧ (s.chan c).kstate k.val = 5 ∧ ((s.chan c).keeper k.val).verified = true) ∧
    (∃ (s : State) (c : Fin 4) (k : Fin 2) (res : _), Ready s c ∧ (s.chan c).kstate k.val = 5 ∧ res ≠ 0) ∧
    (∃ (s : State) (c : Fin 4) (k : Fin 2), Ready s c ∧ (s.chan c).kstate k.val = 2 ∧ ((s.chan c).keeper k.val).waiting = true ∧ 400 ≤ ((s.chan c).keeper k.val).absent) ∧
    (∃ (s : State) (c : Fin 4) (k : Fin 2), Ready s c ∧ (s.chan c).kstate k.val = 1 ∧ ((s.chan c).keeper k.val).verified = true ∧ (s.chan c).getB (pgKeep k.val) KEEP.FW_STAT_BUSY = false) :=
  ⟨
    ⟨Wit.on (fun ch => ch |> Wit.kp 0 5 0 |> fun ch => { ch with keepA := { verified := true } }), 1, (Fin.ofNat 2 0), by delta Ready; decide +kernel⟩,
    ⟨Wit.on (fun ch => ch |> Wit.kp 0 5 0), 1, (Fin.ofNat 2 0), 1, by delta Ready; decide +kernel⟩,
    ⟨Wit.on (fun ch => ch |> Wit.kp 0 2 0 |> fun ch => { ch with keepA := { waiting := true, absent := 400 } }), 1, (Fin.ofNat 2 0), by delta Ready; decide +kernel⟩,
    ⟨Wit.on (fun ch => ch |> Wit.kp 0 1 0 |> fun ch => { ch with keepA := { verified := true, img := { ver := 7 } } , pref := 0, started := true }), 1, (Fin.ofNat 2 0), by delta Ready; decide +kernel⟩⟩

theorem witness_FirmwareLoads :
    (∃ (s : State) (c : Fin 4) (k : Fin 2), HostReady s c ∧ ((s.chan c).keeper k.val).sramBad = false ∧ (s.chan c).kstate k.val ≠ 4 ∧ (s.chan c).kstate k.val ≠ 7 ∧ (s.chan c).loading k.val = false) ∧
    (∃ (s : State) (c : Fin 4) (k : Fin 2), HostReady s c ∧ ((s.chan c).keeper k.val).sramBad = false ∧ ((s.chan c).kstate k.val = 4 ∨ (s.chan c).kstate k.val = 7)) ∧
    (∃ (s : State) (c : Fin 4) (k : Fin 2) (hdr : List Byte) (code : List Byte) (sig : Bool) (dma : Nat), Ready s c ∧ s.hostReach c = true ∧ (s.chan c).loading k.val = true ∧ (fwResult (hdr ++ code) ((s.chan c).nat (pgKeep k.val) KEEP.FW_LEN) k.val (s.chan c).fusedSvn sig dma) ≠ 0) ∧
    (∃ (s : State) (c : Fin 4) (k : Fin 2) (hdr : List Byte) (code : List Byte) (sig : Bool) (dma : Nat), Ready s c ∧ s.hostReach c = true ∧ (s.chan c).loading k.val = true ∧ (fwResult (hdr ++ code) ((s.chan c).nat (pgKeep k.val) KEEP.FW_LEN) k.val (s.chan c).fusedSvn sig dma) = 0) :=
  ⟨
    ⟨Wit.on (fun ch => ch |> Wit.kp 0 6 0), 1, (Fin.ofNat 2 0), by delta HostReady Ready; decide +kernel⟩,
    ⟨Wit.on (fun ch => ch |> Wit.kp 0 (4) 0x40), 1, (Fin.ofNat 2 0), by delta HostReady Ready; decide +kernel⟩,
    ⟨Wit.on (fun ch => ch |> Wit.kp 0 1 0 |>.putB pgKeepA KEEP.FW_STAT_BUSY true |>.putN pgKeepA KEEP.FW_LEN 512), 1, (Fin.ofNat 2 0), (Wit.fwImg.take 256), (Wit.fwImg.drop 256), false, 0, by delta Ready; decide +kernel⟩,
    ⟨Wit.on (fun ch => ch |> Wit.kp 0 1 0 |>.putB pgKeepA KEEP.FW_STAT_BUSY true |>.putN pgKeepA KEEP.FW_LEN 512), 1, (Fin.ofNat 2 0), (Wit.fwImg.take 256), (Wit.fwImg.drop 256), true, 0, by delta Ready; decide +kernel⟩⟩

theorem witness_KeeperServiceCommands :
    (∃ (s : State) (c : Fin 4) (k : Fin 2) (tag : Nat), HostReady s c ∧ (s.chan c).kstate k.val = 4 ∧ (s.chan c).getB (pgKeep k.val) KEEP.SVC_STAT_BUSY = false ∧ tag < 256) ∧
    (∃ (s : State) (c : Fin 4) (k : Fin 2) (tag : Nat), HostReady s c ∧ (s.chan c).kstate k.val = 4 ∧ (s.chan c).getB (pgKeep k.val) KEEP.SVC_STAT_BUSY = false ∧ tag < 256 ∧ (s.chan c).kstate (1 - k.val) = 3 ∧ (s.chan c).kflag (1 - k.val) KEEP.STATUS_RESYNC_DONE = true) ∧
    (∃ (s : State) (c : Fin 4) (k : Fin 2) (tag : Nat), HostReady s c ∧ (s.chan c).kstate k.val = 4 ∧ (s.chan c).getB (pgKeep k.val) KEEP.SVC_STAT_BUSY = false ∧ tag < 256 ∧ ¬ ((s.chan c).kstate (1 - k.val) = 3 ∧ (s.chan c).kflag (1 - k.val) KEEP.STATUS_RESYNC_DONE = true)) ∧
    (∃ (s : State) (c : Fin 4) (k : Fin 2) (tag : Nat), HostReady s c ∧ (s.chan c).kstate k.val = 4 ∧ (s.chan c).getB (pgKeep k.val) KEEP.SVC_STAT_BUSY = false ∧ tag < 256 ∧ (s.chan c).fwRuns (1 - k.val) = true ∧ ((s.chan c).keeper (1 - k.val)).img.svn = ((s.chan c).keeper k.val).img.svn) ∧
    (∃ (s : State) (c : Fin 4) (k : Fin 2) (tag : Nat) (op : _), HostReady s c ∧ (s.chan c).kstate k.val = 4 ∧ (s.chan c).getB (pgKeep k.val) KEEP.SVC_STAT_BUSY = false ∧ tag < 256 ∧ svcKnown (op % 256) = false) :=
  ⟨
    ⟨Wit.on (fun ch => ch |> Wit.kp 0 4 0x80 |> Wit.kp 1 3 0x40), 1, (Fin.ofNat 2 0), (5 % 256), by delta HostReady Ready; decide +kernel⟩,
    ⟨Wit.on (fun ch => ch |> Wit.kp 0 4 0x80 |> Wit.kp 1 3 0x40 |>.putB pgKeepB KEEP.STATUS_RESYNC_DONE true), 1, (Fin.ofNat 2 0), (5 % 256), by delta HostReady Ready; decide +kernel⟩,
    ⟨Wit.on (fun ch => ch |> Wit.kp 0 4 0x80 |> Wit.kp 1 3 0x40 |>.putB pgKeepB KEEP.STATUS_RESYNC_DONE false), 1, (Fin.ofNat 2 0), (5 % 256), by delta HostReady Ready; decide +kernel⟩,
    ⟨Wit.on (fun ch => ch |> Wit.kp 0 4 0x80 |> Wit.kp 1 3 0x40 |> fun ch => { ch with keepA := { img := { svn := 3 } }, keepB := { img := { svn := 3 } } }), 1, (Fin.ofNat 2 0), (5 % 256), by delta HostReady Ready; decide +kernel⟩,
    ⟨Wit.on (fun ch => ch |> Wit.kp 0 4 0x80 |> Wit.kp 1 3 0x40), 1, (Fin.ofNat 2 0), (5 % 256), 128, by delta HostReady Ready; decide +kernel⟩⟩

theorem witness_KeeperHaltAndResume :
    (∃ (s : State) (c : Fin 4) (k : Fin 2), Ready s c ∧ s.jtagOn = true ∧ (s.chan c).coresRun k.val = true) ∧
    (∃ (s : State) (c : Fin 4) (k : Fin 2), Ready s c ∧ s.jtagOn = true ∧ (s.chan c).kstate k.val = 7 ∧ (s.chan c).getB (pgKeep k.val) KEEP.CLAIM_FORCED = false ∧ ((s.chan c).keeper k.val).ue = false ∧ ((s.chan c).keeper k.val).haltFrom < 8) ∧
    (∃ (s : State) (c : Fin 4) (k : Fin 2), Ready s c ∧ s.jtagOn = true ∧ (s.chan c).kstate k.val = 7 ∧ ((s.chan c).getB (pgKeep k.val) KEEP.CLAIM_FORCED = true ∨ ((s.chan c).keeper k.val).ue = true)) :=
  ⟨
    ⟨(Wit.jtag (fun ch => ch |> Wit.kp 0 4 0x80)), 1, (Fin.ofNat 2 0), by delta Ready; decide +kernel⟩,
    ⟨(Wit.jtag (fun ch => ch |> Wit.kp 0 7 0x80 |> fun ch => { ch with keepA := { haltFrom := 4 } })), 1, (Fin.ofNat 2 0), by delta Ready; decide +kernel⟩,
    ⟨(Wit.jtag (fun ch => ch |> Wit.kp 0 7 0 |>.putB pgKeepA KEEP.CLAIM_FORCED true |> fun ch => { ch with keepA := { haltFrom := 4, ue := true } })), 1, (Fin.ofNat 2 0), by delta Ready; decide +kernel⟩⟩

theorem witness_JournalControl :
    (∃ (s : State) (c : Fin 4) (k : Nat), HostReady s c ∧ (s.chan c).active = some k) ∧
    (∃ (s : State) (c : Fin 4) (i : Nat), HostReady s c ∧ i < 8) :=
  ⟨
    ⟨Wit.on (fun ch => ch |> Wit.kp 0 4 0x80 |> fun ch => { ch with regA := { jrnl := { entries := [(0, 5)], count := 1, wr := 1, seq := 1 } } }), 1, 0, by delta HostReady Ready; decide +kernel⟩,
    ⟨Wit.on (fun ch => ch |> Wit.kp 0 4 0x80 |> fun ch => { ch with regA := { jrnl := { entries := [(3, 0x123456789ABCDEF0123456789)], count := 4, wr := 4, seq := 4 } } }), 1, 0, by delta HostReady Ready; decide +kernel⟩⟩

theorem witness_CosyClockSource :
    (∃ (s : State) (c : Fin 4), Ready s c) ∧
    (∃ (s : State) (c : Fin 4) (k : Fin 2), KeeperReady s c k ∧ (s.chan c).getB pgCosy COSY.STATUS_OSC_OK = true) ∧
    (∃ (s : State) (c : Fin 4), HostReady s c) :=
  ⟨
    ⟨Wit.on (fun ch => ch |>.putF pgCosy COSY.STATUS_OSC_OK 1), 1, by delta Ready; decide +kernel⟩,
    ⟨Wit.on (fun ch => ch |> Wit.kp 0 4 0x80 |>.putF pgCosy COSY.STATUS_OSC_OK 1), 1, (Fin.ofNat 2 0), by delta KeeperReady Ready; decide +kernel⟩,
    ⟨Wit.on (fun ch => ch), 1, by delta HostReady Ready; decide +kernel⟩⟩

theorem witness_PpsAndTodInputs :
    (∃ (s : State) (c : Fin 4) (pol : Bool), Ready s c ∧ (s.chan c).enabled pgCosy = true ∧ (s.chan c).getB pgCosy COSY.PPS_IN_CFG_EN = true ∧ (s.chan c).getB pgCosy COSY.PPS_IN_CFG_POL = pol) ∧
    (∃ (s : State) (c : Fin 4), Ready s c ∧ (s.chan c).cosy.expect ≠ 0 ∧ (s.chan c).getB pgCosy COSY.PPS_IN_CFG_EN = true) ∧
    (∃ (s : State) (c : Fin 4) (b : List Byte), Ready s c ∧ (s.chan c).todOn = true ∧ b.length = 24 ∧ beAt b 0 2 = 0xA53C ∧ (s.chan c).todReason b = none) ∧
    (∃ (s : State) (c : Fin 4) (b : List Byte), Ready s c ∧ (s.chan c).todOn = true ∧ b.length = 24 ∧ beAt b 0 2 = 0xA53C ∧ (s.chan c).todReason b ≠ none) ∧
    (∃ (s : State) (c : Fin 4), Ready s c ∧ (s.chan c).todOn = true) :=
  ⟨
    ⟨Wit.on (fun ch => ch |>.putB pgCosy CTRL_ENABLE true |>.putB pgCosy COSY.PPS_IN_CFG_EN true |>.putB pgCosy COSY.TOD_IN_CFG_EN true), 1, false, by delta Ready; decide +kernel⟩,
    ⟨Wit.on (fun ch => ch |>.putB pgCosy CTRL_ENABLE true |>.putB pgCosy COSY.PPS_IN_CFG_EN true |>.putB pgCosy COSY.TOD_IN_CFG_EN true |> fun ch => { ch with cosy := { expect := 5, miss := 0, edge := 0 } }), 1, by delta Ready; decide +kernel⟩,
    ⟨Wit.on (fun ch => ch |>.putB pgCosy CTRL_ENABLE true |>.putB pgCosy COSY.PPS_IN_CFG_EN true |>.putB pgCosy COSY.TOD_IN_CFG_EN true |> fun ch => { ch with ns := 50000000, cosy := { edge := 1, run := 0, lastSec := 100 } }), 1, Wit.todFrame, by delta Ready; decide +kernel⟩,
    ⟨Wit.on (fun ch => ch |>.putB pgCosy CTRL_ENABLE true |>.putB pgCosy COSY.PPS_IN_CFG_EN true |>.putB pgCosy COSY.TOD_IN_CFG_EN true |> fun ch => { ch with ns := 5 }), 1, (Wit.todFrame), by delta Ready; decide +kernel⟩,
    ⟨Wit.on (fun ch => ch |>.putB pgCosy CTRL_ENABLE true |>.putB pgCosy COSY.PPS_IN_CFG_EN true |>.putB pgCosy COSY.TOD_IN_CFG_EN true), 1, by delta Ready; decide +kernel⟩⟩

theorem witness_StepsMoveNetworkTime :
    (∃ (s : State) (c : Fin 4) (k : Fin 2), KeeperReady s c k ∧ (s.chan c).stepAllowed ((s.chan c).stepOfs) = true ∧ ((((s.chan c).stepOfs) ≤ 0 ∨ (s.chan c).act.slots = []))) ∧
    (∃ (s : State) (c : Fin 4) (k : Fin 2) (tag : Nat), HostReady s c ∧ (s.chan c).kstate k.val = 4 ∧ (s.chan c).getB (pgKeep k.val) KEEP.SVC_STAT_BUSY = false ∧ tag < 256 ∧ (s.chan c).timeState = 0 ∧ (s.chan c).act.slots = [] ∧ ((s.chan c).svcArg k.val) 0 ≤ 65535 ∧ ((s.chan c).svcArg k.val) 2 < 1000000000) :=
  ⟨
    ⟨Wit.on (fun ch => ch |> Wit.kp 0 4 0x80 |>.putN pgCosy COSY.STEP_OFS 0 |>.putN pgCosy (COSY.STEP_OFS + 4) (0) |> fun ch => { ch with time := 0 * 77777 % 2 ^ 110, timeFrac := 3 }), 1, (Fin.ofNat 2 0), by delta KeeperReady Ready; decide +kernel⟩,
    ⟨Wit.on (fun ch => ch |> Wit.svc [0, 0, 0] |> fun ch => { ch with time := 0 * 77777, timeFrac := 3 }), 1, (Fin.ofNat 2 0), (5 % 256), by delta HostReady Ready; decide +kernel⟩⟩

theorem witness_ServoTicksAndTimeouts :
    (∃ (s : State) (c : Fin 4) (k : Fin 2), KeeperReady s c k) ∧
    (∃ (s : State) (c : Fin 4), Ready s c ∧ (s.chan c).cosy.tick ≠ 0 ∧ (s.chan c).getB pgCosy COSY.STATUS_SERVO_TIMEOUT = false ∧ (s.chan c).timeState = 2) ∧
    (∃ (s : State) (c : Fin 4), Ready s c ∧ (s.chan c).getB pgCosy COSY.STATUS_SERVO_TIMEOUT = true ∧ (s.chan c).timeState = 3) :=
  ⟨
    ⟨Wit.on (fun ch => ch |> Wit.kp 0 4 0x80), 1, (Fin.ofNat 2 0), by delta KeeperReady Ready; decide +kernel⟩,
    ⟨Wit.on (fun ch => ch |> Wit.kp 0 4 0x80 |>.putF pgCosy COSY.STATUS_STATE 2 |> fun ch => { ch with cosy := { tick := 5 } }), 1, by delta Ready; decide +kernel⟩,
    ⟨Wit.on (fun ch => ch |> Wit.kp 0 4 0x80 |>.putF pgCosy COSY.STATUS_STATE 3 |>.putB pgCosy COSY.STATUS_SERVO_TIMEOUT true), 1, by delta Ready; decide +kernel⟩⟩

theorem witness_TimeOutputs :
    (∃ (s : State) (c : Fin 4), Ready s c ∧ (s.chan c).squelched = false ∧ (s.chan c).getB pgCosy COSY.OUT_CFG_PPS_OUT_EN = true) ∧
    (∃ (s : State) (c : Fin 4), Ready s c ∧ (s.chan c).squelched = false ∧ (s.chan c).getB pgCosy COSY.OUT_CFG_TOD_OUT_EN = true ∧ (s.chan c).cosy.todDue ≠ 0) :=
  ⟨
    ⟨Wit.on (fun ch => ch |>.putB pgCosy CTRL_ENABLE true |>.putB pgCosy COSY.OUT_CFG_PPS_OUT_EN true |>.putB pgCosy COSY.OUT_CFG_TOD_OUT_EN true |>.putF pgCosy COSY.OUT_CFG_SQUELCH 0 |> fun ch => { ch with time := 0, cosy := { todDue := 7, todSeq := 65535, outNext := 0 } }), 1, by delta Ready; decide +kernel⟩,
    ⟨Wit.on (fun ch => ch |>.putB pgCosy CTRL_ENABLE true |>.putB pgCosy COSY.OUT_CFG_PPS_OUT_EN true |>.putB pgCosy COSY.OUT_CFG_TOD_OUT_EN true |>.putF pgCosy COSY.OUT_CFG_SQUELCH 0 |> fun ch => { ch with time := 0, cosy := { todDue := 7, todSeq := 65535, outNext := 0 } }), 1, by delta Ready; decide +kernel⟩⟩

theorem witness_PtpServiceCommands :
    (∃ (s : State) (c : Fin 4) (k : Fin 2) (tag : Nat), HostReady s c ∧ (s.chan c).kstate k.val = 4 ∧ (s.chan c).getB (pgKeep k.val) KEEP.SVC_STAT_BUSY = false ∧ tag < 256 ∧ ((s.chan c).svcArg k.val) 3 < 2 ∧ 24 ≤ nbits (((s.chan c).svcArg k.val) 2) 7 0 ∧ nbits (((s.chan c).svcArg k.val) 2) 7 0 ≤ 63 ∧ ((s.chan c).ctl k.val).ports = []) ∧
    (∃ (s : State) (c : Fin 4) (k : Fin 2) (tag : Nat), HostReady s c ∧ (s.chan c).kstate k.val = 4 ∧ (s.chan c).getB (pgKeep k.val) KEEP.SVC_STAT_BUSY = false ∧ tag < 256 ∧ nbits (((s.chan c).svcArg k.val) 0) 7 6 = 0 ∧ ((s.chan c).svcArg k.val) 0 < 2 ^ 15 ∧ ((s.chan c).svcArg k.val) 3 < 256 ∧ (s.chan c).ptpPortOk (nbits (((s.chan c).svcArg k.val) 0) 5 0) = true ∧ ((s.chan c).svcArg k.val) 1 = 0 ∧ transportOk (nbits ((s.chan c).ctl k.val).dsWord 7 0) (nbits (((s.chan c).svcArg k.val) 0) 13 12) = true) ∧
    (∃ (s : State) (c : Fin 4) (k : Fin 2) (tag : Nat), HostReady s c ∧ (s.chan c).kstate k.val = 4 ∧ (s.chan c).getB (pgKeep k.val) KEEP.SVC_STAT_BUSY = false ∧ tag < 256 ∧ (s.chan c).ptpPortOk (((s.chan c).svcArg k.val) 0) = true) ∧
    (∃ (s : State) (c : Fin 4) (k : Fin 2) (tag : Nat), HostReady s c ∧ (s.chan c).kstate k.val = 4 ∧ (s.chan c).getB (pgKeep k.val) KEEP.SVC_STAT_BUSY = false ∧ tag < 256 ∧ nbits (((s.chan c).svcArg k.val) 0) 7 6 = 0 ∧ ((s.chan c).svcArg k.val) 0 < 256 ∧ ((s.chan c).svcArg k.val) 5 < 256 ∧ (s.chan c).ptpPortOk (nbits (((s.chan c).svcArg k.val) 0) 5 0) = true ∧ 2 ≤ nbits (tget ({} : PtpPort) ((s.chan c).ctl k.val).ports (nbits (((s.chan c).svcArg k.val) 0) 5 0)).cfg 13 12 ∧ ((s.chan c).ctl k.val).peers.length < 512) ∧
    (∃ (s : State) (c : Fin 4) (k : Fin 2) (tag : Nat), HostReady s c ∧ (s.chan c).kstate k.val = 4 ∧ (s.chan c).getB (pgKeep k.val) KEEP.SVC_STAT_BUSY = false ∧ tag < 256 ∧ ((s.chan c).svcArg k.val) 0 < 512 ∧ tget ({} : Peer) ((s.chan c).ctl k.val).peers (((s.chan c).svcArg k.val) 0) ≠ {}) ∧
    (∃ (s : State) (c : Fin 4) (k : Fin 2) (tag : Nat), HostReady s c ∧ (s.chan c).kstate k.val = 4 ∧ (s.chan c).getB (pgKeep k.val) KEEP.SVC_STAT_BUSY = false ∧ tag < 256 ∧ nbits (((s.chan c).svcArg k.val) 0) 23 19 = 0) ∧
    (∃ (s : State) (c : Fin 4) (k : Fin 2) (tag : Nat), HostReady s c ∧ (s.chan c).kstate k.val = 4 ∧ (s.chan c).getB (pgKeep k.val) KEEP.SVC_STAT_BUSY = false ∧ tag < 256) :=
  ⟨
    ⟨Wit.on (fun ch => ch |> Wit.svc [0, 0, 24, 0]), 1, (Fin.ofNat 2 0), (5 % 256), by delta HostReady Ready; decide +kernel⟩,
    ⟨Wit.on (fun ch => ch |> Wit.port 5 |> Wit.svc [5, 0, 0, 0] |> fun ch => { ch with regA := { ctl := { dsWord := 24 } } }), 1, (Fin.ofNat 2 0), (5 % 256), by delta HostReady Ready; decide +kernel⟩,
    ⟨Wit.on (fun ch => ch |> Wit.port 5 |> Wit.svc [5] |> fun ch => { ch with regA := { ctl := { ports := [(5, { state := 9, delay := 1234 })] } } }), 1, (Fin.ofNat 2 0), (5 % 256), by delta HostReady Ready; decide +kernel⟩,
    ⟨Wit.on (fun ch => ch |> Wit.port 5 |> Wit.svc [5, 0, 0, 0, 0, 0] |> fun ch => { ch with regA := { ctl := { ports := [(5, { cfg := 2 ^ 13 })], peers := [(0, { port := 5 })] } } }), 1, (Fin.ofNat 2 0), (5 % 256), by delta HostReady Ready; decide +kernel⟩,
    ⟨Wit.on (fun ch => ch |> Wit.svc [3] |> fun ch => { ch with regA := { ctl := { peers := [(3, { port := 5 })] } } }), 1, (Fin.ofNat 2 0), (5 % 256), by delta HostReady Ready; decide +kernel⟩,
    ⟨Wit.on (fun ch => ch |> Wit.svc [0]), 1, (Fin.ofNat 2 0), (5 % 256), by delta HostReady Ready; decide +kernel⟩,
    ⟨Wit.on (fun ch => ch |> Wit.svc []), 1, (Fin.ofNat 2 0), (5 % 256), by delta HostReady Ready; decide +kernel⟩⟩

theorem witness_OscillatorModelCommands :
    (∃ (s : State) (c : Fin 4) (k : Fin 2) (tag : Nat), HostReady s c ∧ s.hostReach c = true ∧ (s.chan c).kstate k.val = 4 ∧ (s.chan c).getB (pgKeep k.val) KEEP.SVC_STAT_BUSY = false ∧ tag < 256) ∧
    (∃ (s : State) (c : Fin 4) (k : Fin 2) (tag : Nat) (rec_ : _), HostReady s c ∧ s.hostReach c = true ∧ (s.chan c).kstate k.val = 4 ∧ (s.chan c).getB (pgKeep k.val) KEEP.SVC_STAT_BUSY = false ∧ tag < 256 ∧ (s.chan c).timeState ≠ 3 ∧ (s.chan c).timeState ≠ 4 ∧ modelOk rec_ (s.chan c).timeNs = true) ∧
    (∃ (s : State) (c : Fin 4) (k : Fin 2) (tag : Nat), HostReady s c ∧ s.hostReach c = true ∧ (s.chan c).kstate k.val = 4 ∧ (s.chan c).getB (pgKeep k.val) KEEP.SVC_STAT_BUSY = false ∧ tag < 256 ∧ (s.chan c).timeState ≠ 3 ∧ (s.chan c).timeState ≠ 4) :=
  ⟨
    ⟨Wit.on (fun ch => ch |> Wit.svc [0, 0]), 1, (Fin.ofNat 2 0), (5 % 256), by delta HostReady Ready; decide +kernel⟩,
    ⟨Wit.on (fun ch => ch |> Wit.svc [0, 0]), 1, (Fin.ofNat 2 0), (5 % 256), (modelRecord 5 9 { c0 := 0x3FF0000000000000 }), by delta HostReady Ready; decide +kernel⟩,
    ⟨Wit.on (fun ch => ch |> Wit.svc [0, 0]), 1, (Fin.ofNat 2 0), (5 % 256), by delta HostReady Ready; decide +kernel⟩⟩

theorem witness_CosyCommandsInEveryState :
    (∃ (s : State) (c : Fin 4) (k : Fin 2), KeeperReady s c k ∧ (s.chan c).stepAllowed (s.chan c).stepOfs = true) ∧
    (∃ (s : State) (c : Fin 4) (k : Fin 2) (tag : Nat), SvcReady s c k tag ∧ (s.chan c).timeState = 0 ∧ (s.chan c).svcArg k.val 0 ≤ 65535 ∧ (s.chan c).svcArg k.val 2 < 1000000000) ∧
    (∃ (s : State) (c : Fin 4) (k : Fin 2), KeeperReady s c k) ∧
    (∃ (s : State) (c : Fin 4), Ready s c ∧ (s.chan c).cosy.tick ≠ 0 ∧ (s.chan c).getB pgCosy COSY.STATUS_SERVO_TIMEOUT = false) ∧
    (∃ (s : State) (c : Fin 4), Ready s c ∧ (s.chan c).enabled pgCosy = true ∧ (s.chan c).getB pgCosy COSY.PPS_IN_CFG_EN = true) :=
  ⟨
    ⟨Wit.on (fun ch => ch |> Wit.kp 0 4 0x80 |>.putN pgCosy COSY.STEP_OFS 0 |>.putN pgCosy (COSY.STEP_OFS + 4) (0) |> Wit.slot 3 { st := 1, target := 1, time := 1000000 + 0 * 77777 / 65536 , arg := 0, autoFree := true, localOk := true } |>.putB pgAct CTRL_ENABLE true |> fun ch => { ch with time := 0 * 77777 % 2 ^ 110, timeFrac := 3 }), 1, (Fin.ofNat 2 0), by delta KeeperReady Ready; decide +kernel⟩,
    ⟨Wit.on (fun ch => ch |> Wit.svc [0, 0, 0] |> Wit.slot 3 { st := 1, target := 1, time := 1000000 + 0 * 77777 / 65536 , arg := 0, autoFree := true, localOk := true } |>.putB pgAct CTRL_ENABLE true |> fun ch => { ch with time := 0 * 77777, timeFrac := 3 }), 1, (Fin.ofNat 2 0), (5 % 256), by delta SvcReady HostReady Ready; decide +kernel⟩,
    ⟨Wit.on (fun ch => ch |> Wit.port 5 |> Wit.kp 0 4 0x80 |>.putF pgCosy COSY.STATUS_STATE 0 |>.putF pgCosy COSY.STATUS_TIME_SRC 0 |> fun ch => { ch with ns := 0, time := 0, regA := { ctl := { ports := [(5, { cfg := 0x105, state := 9, exch := 3 })] } }, cosy := { tick := 5, expect := 0, edge := 0 } }), 1, (Fin.ofNat 2 0), by delta KeeperReady Ready; decide +kernel⟩,
    ⟨Wit.on (fun ch => ch |> Wit.kp 0 4 0x80 |>.putF pgCosy COSY.STATUS_STATE 0 |>.putB pgCosy COSY.STATUS_FROM_HO false |>.putF pgCosy COSY.HO_CFG_HW_EXPIRY 0 |> fun ch => { ch with cosy := { tick := 5 } }), 1, by delta Ready; decide +kernel⟩,
    ⟨Wit.on (fun ch => ch |>.putB pgCosy CTRL_ENABLE true |>.putB pgCosy COSY.PPS_IN_CFG_EN true), 1, by delta Ready; decide +kernel⟩⟩

theorem witness_PtpCommandsInEveryState :
    (∃ (s : State) (c : Fin 4) (k : Fin 2) (tag : Nat), SvcReady s c k tag ∧ ((s.chan c).svcArg k.val) 3 < 2 ∧ 24 ≤ nbits (((s.chan c).svcArg k.val) 2) 7 0 ∧ nbits (((s.chan c).svcArg k.val) 2) 7 0 ≤ 63 ∧ ((∀ e ∈ ((s.chan c).ctl k.val).ports, nbit e.2.cfg 8 = true → transportOk (nbits (((s.chan c).svcArg k.val) 2) 7 0) (nbits e.2.cfg 13 12) = true))) ∧
    (∃ (s : State) (c : Fin 4) (k : Fin 2) (tag : Nat), SvcReady s c k tag ∧ nbits (((s.chan c).svcArg k.val) 0) 7 6 = 0 ∧ ((s.chan c).svcArg k.val) 0 < 2 ^ 15 ∧ ((s.chan c).svcArg k.val) 3 < 256 ∧ (s.chan c).ptpPortOk (nbits (((s.chan c).svcArg k.val) 0) 5 0) = true ∧ -7 ≤ toSigned (nbits (((s.chan c).svcArg k.val) 1) 7 0) 8 ∧ -7 ≤ toSigned (nbits (((s.chan c).svcArg k.val) 1) 15 8) 8 ∧ -3 ≤ toSigned (nbits (((s.chan c).svcArg k.val) 1) 23 16) 8 ∧ transportOk (nbits ((s.chan c).ctl k.val).dsWord 7 0) (nbits (((s.chan c).svcArg k.val) 0) 13 12) = true) ∧
    (∃ (s : State) (c : Fin 4) (k : Fin 2) (tag : Nat), SvcReady s c k tag ∧ nbits (((s.chan c).svcArg k.val) 0) 7 6 = 0 ∧ ((s.chan c).svcArg k.val) 0 < 512 ∧ ((s.chan c).svcArg k.val) 5 < 256 ∧ (s.chan c).ptpPortOk (nbits (((s.chan c).svcArg k.val) 0) 5 0) = true ∧ 2 ≤ nbits (tget ({} : PtpPort) ((s.chan c).ctl k.val).ports (nbits (((s.chan c).svcArg k.val) 0) 5 0)).cfg 13 12 ∧ ((s.chan c).ctl k.val).peers.length < 512) ∧
    (∃ (s : State) (c : Fin 4) (k : Fin 2) (tag : Nat), SvcReady s c k tag) :=
  ⟨
    ⟨Wit.on (fun ch => ch |> Wit.svc [0, 0, 24, 0] |> fun ch => { ch with regA := { ctl := { ports := [(5, { cfg := 0x105 }), (6, { cfg := 6 })] } } }), 1, (Fin.ofNat 2 0), (5 % 256), by delta SvcReady HostReady Ready; decide +kernel⟩,
    ⟨Wit.on (fun ch => ch |> Wit.port 5 |> Wit.svc [0x105, (0 + (0xF9F9F9 - 0xF90000 + 0xFD0000)) % 2 ^ 24, 0, 0] |> fun ch => { ch with regA := { ctl := { dsWord := 24 } } }), 1, (Fin.ofNat 2 0), (5 % 256), by delta SvcReady HostReady Ready; decide +kernel⟩,
    ⟨Wit.on (fun ch => ch |> Wit.port 5 |> Wit.svc [5 + 256 * 0, 0, 0, 7, 9, 0] |> fun ch => { ch with regA := { ctl := { ports := [(5, { cfg := 2 ^ 13 })], peers := [(0, { port := 5 })] } } }), 1, (Fin.ofNat 2 0), (5 % 256), by delta SvcReady HostReady Ready; decide +kernel⟩,
    ⟨Wit.on (fun ch => ch |> Wit.svc [0, 0]), 1, (Fin.ofNat 2 0), (5 % 256), by delta SvcReady HostReady Ready; decide +kernel⟩⟩

theorem witness_ArmTakesASlot :
    (∃ (s : State) (c : Fin 4) (late : Bool) (loc : Bool) (free : Bool) (note : Bool), HostReady s c ∧ (s.chan c).armStatus false 0 (BitVec.ofNat 32 (2 ^ 31 + (b2n late * 2 ^ 28 + b2n loc * 2 ^ 27 + b2n free * 2 ^ 26 + b2n note * 2 ^ 25 + 9 * 2 ^ 16))) = 0) ∧
    (∃ (s : State) (c : Fin 4), HostReady s c ∧ (s.chan c).enabled pgAct = true) :=
  ⟨
    ⟨Wit.on (fun ch => ch |>.putB pgAct CTRL_ENABLE true |>.putF pgCosy COSY.STATUS_STATE 2 |>.putN pgAct ACT.HARM_TIME 5000 |>.putN pgAct ACT.HARM_ARG 0 |> Wit.slot 3 { st := 1, target := 9 }), 1, false, false, false, false, by delta HostReady Ready; decide +kernel⟩,
    ⟨Wit.on (fun ch => ch |>.putB pgAct CTRL_ENABLE true |>.putF pgCosy COSY.STATUS_STATE 2 |>.putN pgAct ACT.HARM_TIME 5000 |>.putN pgAct ACT.HARM_ARG 0 |> Wit.slot 3 { st := 1, target := 9 }), 1, by delta HostReady Ready; decide +kernel⟩⟩

theorem witness_SlotsAreCancelledFreedAndRead :
    (∃ (s : State) (c : Fin 4) (i : Nat), HostReady s c ∧ i < 1024 ∧ ((s.chan c).slot i).st = 1 ∧ ((s.chan c).slot i).keeper = false ∧ ((s.chan c).slot i).late = false ∧ ((s.chan c).slot i).target ≠ 1) ∧
    (∃ (s : State) (c : Fin 4) (i : Nat), HostReady s c ∧ i < 1024 ∧ 2 ≤ ((s.chan c).slot i).st ∧ ((s.chan c).slot i).keeper = false) ∧
    (∃ (s : State) (c : Fin 4) (i : Nat), HostReady s c ∧ i < 1024) :=
  ⟨
    ⟨Wit.on (fun ch => ch |> Wit.slot 3 { st := 1, target := 9, time := 12345678901 } |> Wit.slot 7 { st := 1, target := 2, time := 0 }), 1, (3), by delta HostReady Ready; decide +kernel⟩,
    ⟨Wit.on (fun ch => ch |> Wit.slot 3 { st := 2, target := 9 }), 1, 3, by delta HostReady Ready; decide +kernel⟩,
    ⟨Wit.on (fun ch => ch |> Wit.slot 3 { st := 2, target := 9, time := 12345678901, keeper := true, result := 5 }), 1, (3), by delta HostReady Ready; decide +kernel⟩⟩

theorem witness_ActionsFireAtTheirTargets :
    (∃ (s : State) (c : Fin 4) (i : Nat), Ready s c ∧ i < 1024 ∧ ((s.chan c).slot i).st = 1 ∧ ((s.chan c).pendingSlots.any (fun e => e.2.before ((s.chan c).slot i))) = false ∧ ((s.chan c).slot i).target = 1) ∧
    (∃ (s : State) (c : Fin 4) (i : Nat), Ready s c ∧ i < 1024 ∧ ((s.chan c).slot i).st = 1 ∧ ((s.chan c).pendingSlots.any (fun e => e.2.before ((s.chan c).slot i))) = false ∧ ((s.chan c).slot i).target = 2) ∧
    (∃ (s : State) (c : Fin 4) (i : Nat), Ready s c ∧ i < 1024 ∧ ((s.chan c).slot i).st = 1 ∧ ((s.chan c).pendingSlots.any (fun e => e.2.before ((s.chan c).slot i))) = false ∧ ((s.chan c).slot i).target = 3) ∧
    (∃ (s : State) (c : Fin 4) (i : Nat), Ready s c ∧ i < 1024 ∧ ((s.chan c).slot i).st = 1 ∧ ((s.chan c).pendingSlots.any (fun e => e.2.before ((s.chan c).slot i))) = false ∧ ((s.chan c).slot i).target = 4) ∧
    (∃ (s : State) (c : Fin 4) (i : Nat), Ready s c ∧ i < 1024 ∧ ((s.chan c).slot i).st = 1 ∧ ((s.chan c).pendingSlots.any (fun e => e.2.before ((s.chan c).slot i))) = false ∧ ((s.chan c).slot i).target = 5) ∧
    (∃ (s : State) (c : Fin 4) (i : Nat), Ready s c ∧ i < 1024 ∧ ((s.chan c).slot i).st = 1 ∧ ((s.chan c).pendingSlots.any (fun e => e.2.before ((s.chan c).slot i))) = false ∧ ((s.chan c).slot i).target = 6) ∧
    (∃ (s : State) (c : Fin 4) (i : Nat), Ready s c ∧ i < 1024 ∧ ((s.chan c).slot i).st = 1 ∧ ((s.chan c).pendingSlots.any (fun e => e.2.before ((s.chan c).slot i))) = false ∧ ((s.chan c).slot i).target = 7) ∧
    (∃ (s : State) (c : Fin 4) (i : Nat), Ready s c ∧ i < 1024 ∧ ((s.chan c).slot i).st = 1 ∧ ((s.chan c).pendingSlots.any (fun e => e.2.before ((s.chan c).slot i))) = false ∧ ((s.chan c).slot i).target = 8) ∧
    (∃ (s : State) (c : Fin 4) (i : Nat), Ready s c ∧ i < 1024 ∧ ((s.chan c).slot i).st = 1 ∧ ((s.chan c).pendingSlots.any (fun e => e.2.before ((s.chan c).slot i))) = false ∧ ((s.chan c).slot i).target = 9) :=
  ⟨
    ⟨Wit.on (fun ch => ch |>.putB pgAct CTRL_ENABLE true |> Wit.slot 3 { st := 1, target := 1, time := 5000, due := 5000, arg := 0, autoFree := true }), 1, 3, by delta Ready; decide +kernel⟩,
    ⟨Wit.on (fun ch => ch |>.putB pgAct CTRL_ENABLE true |> Wit.slot 3 { st := 1, target := 2, time := 5000, due := 5000, arg := 0, autoFree := true } |> fun ch => { ch with sch := { lists := [(0, { pend := true }), (1, { pend := true, running := true })] } }), 1, 3, by delta Ready; decide +kernel⟩,
    ⟨Wit.on (fun ch => ch |>.putB pgAct CTRL_ENABLE true |> Wit.slot 3 { st := 1, target := 3, time := 5000, due := 5000, arg := 0, autoFree := true, notify := true }), 1, 3, by delta Ready; decide +kernel⟩,
    ⟨Wit.on (fun ch => ch |>.putB pgAct CTRL_ENABLE true |> Wit.slot 3 { st := 1, target := 4, time := 5000, due := 5000, arg := 0, autoFree := true }), 1, 3, by delta Ready; decide +kernel⟩,
    ⟨Wit.on (fun ch => ch |>.putB pgAct CTRL_ENABLE true |> Wit.slot 3 { st := 1, target := 5, time := 5000, due := 5000, arg := 0, autoFree := true }), 1, 3, by delta Ready; decide +kernel⟩,
    ⟨Wit.on (fun ch => ch |>.putB pgAct CTRL_ENABLE true |> Wit.slot 3 { st := 1, target := 6, time := 5000, due := 5000, arg := 0, autoFree := true }), 1, 3, by delta Ready; decide +kernel⟩,
    ⟨Wit.on (fun ch => ch |>.putB pgAct CTRL_ENABLE true |> Wit.slot 3 { st := 1, target := 7, time := 5000, due := 5000, arg := 0, autoFree := true }), 1, 3, by delta Ready; decide +kernel⟩,
    ⟨Wit.on (fun ch => ch |>.putB pgAct CTRL_ENABLE true |> Wit.slot 3 { st := 1, target := 8, time := 5000, due := 5000, arg := 0, autoFree := true }), 1, 3, by delta Ready; decide +kernel⟩,
    ⟨Wit.on (fun ch => ch |>.putB pgAct CTRL_ENABLE true |> Wit.slot 3 { st := 1, target := 9, time := 5000, due := 5000, arg := 0, autoFree := true } |> Wit.kp 0 4 0x80), 1, 3, by delta Ready; decide +kernel⟩⟩

theorem witness_ThePourMakesTheNextBrewCurrent :
    (∃ (s : State) (c : Fin 4) (i : Nat), Ready s c ∧ i < 1024 ∧ ((s.chan c).slot i).st = 1 ∧ ((s.chan c).slot i).target = 1 ∧ ((s.chan c).pendingSlots.any (fun e => e.2.before ((s.chan c).slot i))) = false ∧ (s.chan c).enabled pgBrew = true ∧ (s.chan c).brewState = 4 ∧ ((s.chan c).slot i).arg = (s.chan c).nextBrew ∧ (s.chan c).teBound ≤ (s.chan c).nat pgBrew BREW.POUR_CFG) :=
    ⟨Wit.on (fun ch => ch |>.putB pgAct CTRL_ENABLE true |>.putB pgBrew CTRL_ENABLE true |>.putF pgBrew BREW.STATUS_STATE 4 |>.putF pgBrew BREW.STATUS_CUR_BREW 8 |>.putF pgCosy COSY.STATUS_STATE 2 |>.putN pgCosy COSY.TE_BOUND 50 |> Wit.slot 3 { st := 1, target := 1, time := 5000, due := 5000, arg := 9, autoFree := true }), 1, 3, by delta Ready; decide +kernel⟩

theorem witness_BrewCommands :
    (∃ (s : State) (c : Fin 4), HostReady s c ∧ (s.chan c).brew.staging = none ∧ (s.chan c).brew.discarding = false ∧ (s.chan c).brewState ≠ 5 ∧ (((s.chan c).brewState = 0 ∨ (s.chan c).brewState = 1 ∨ (s.chan c).brewState = 2))) ∧
    (∃ (s : State) (c : Fin 4), HostReady s c ∧ (s.chan c).brew.staging = none ∧ (s.chan c).brew.discarding = false ∧ (s.chan c).brewState ≠ 5 ∧ (s.chan c).brewState = 2) ∧
    (∃ (s : State) (c : Fin 4), HostReady s c ∧ (s.chan c).brew.staging = none ∧ (s.chan c).brew.discarding = false ∧ (s.chan c).brewState ≠ 5 ∧ (((s.chan c).brewState = 2 ∨ (s.chan c).brewState = 3))) ∧
    (∃ (s : State) (c : Fin 4), HostReady s c ∧ (s.chan c).brew.staging = none ∧ (s.chan c).brew.discarding = false ∧ (s.chan c).brewState ≠ 5 ∧ (s.chan c).brewState = 4) :=
  ⟨
    ⟨Wit.on (fun ch => ch |>.putF pgBrew BREW.STATUS_STATE 0 |>.putN pgBrew BREW.IMG_LEN 640), 1, by delta HostReady Ready; decide +kernel⟩,
    ⟨Wit.on (fun ch => ch |>.putF pgBrew BREW.STATUS_STATE 2 |> fun ch => { ch with prs := { fromEmpty := true } }), 1, by delta HostReady Ready; decide +kernel⟩,
    ⟨Wit.on (fun ch => ch |>.putF pgBrew BREW.STATUS_STATE 2), 1, by delta HostReady Ready; decide +kernel⟩,
    ⟨Wit.on (fun ch => ch |>.putF pgBrew BREW.STATUS_STATE 4), 1, by delta HostReady Ready; decide +kernel⟩⟩

theorem witness_BrewEvents :
    (∃ (s : State) (c : Fin 4) (n : Nat), Ready s c ∧ (s.chan c).brew.staging = some n) ∧
    (∃ (s : State) (c : Fin 4), Ready s c ∧ (s.chan c).brew.discarding = true ∧ (s.chan c).active.isSome = true) ∧
    (∃ (s : State) (c : Fin 4), Ready s c ∧ (s.chan c).brewState = 5 ∧ (s.chan c).getB pgBrew BREW.CTRL_RETIRE_HOLD = false) ∧
    (∃ (s : State) (c : Fin 4), Ready s c ∧ (s.chan c).brewState = 6 ∧ (s.chan c).active.isSome = true) ∧
    (∃ (s : State) (c : Fin 4), Ready s c ∧ (s.chan c).prs.pourAt ≠ 0) :=
  ⟨
    ⟨Wit.on (fun ch => ch |> fun ch => { ch with brew := { staging := some 64 } }), 1, 64, by delta Ready; decide +kernel⟩,
    ⟨Wit.on (fun ch => ch |> Wit.kp 0 4 0x80 |>.putF pgBrew BREW.STATUS_STATE 2 |> fun ch => { ch with prs := { fromEmpty := true }, brew := { discarding := true } }), 1, by delta Ready; decide +kernel⟩,
    ⟨Wit.on (fun ch => ch |>.putF pgBrew BREW.STATUS_STATE 5), 1, by delta Ready; decide +kernel⟩,
    ⟨Wit.on (fun ch => ch |> Wit.kp 0 4 0x80 |>.putF pgBrew BREW.STATUS_STATE 6 |> fun ch => { ch with tbl := { em := [(2 ^ 40 + 3, { mask := 1 }), (2 ^ 40 + 4, { mask := 2 }), (2 ^ 40 + 5, { mask := 3 })] } }), 1, by delta Ready; decide +kernel⟩,
    ⟨Wit.on (fun ch => ch |> fun ch => { ch with prs := { pourAt := 5, pourT := 7 } }), 1, by delta Ready; decide +kernel⟩⟩

theorem witness_ArmsOfEveryTarget :
    (∃ (s : State) (q : Req) (c : Fin 4) (kport : Bool) (target : Nat) (late : Bool) (loc : Bool) (free : Bool) (note : Bool), Ready s c ∧ (((kport = false ∧ HostReady s c ∧ q = .func 0) ∨ (kport = true ∧ ∃ k : Fin 2, KeeperReady s c k ∧ q = keeperReq k))) ∧ target < 256 ∧ (((s.chan c).armStatus kport (if kport then 0x20 else 0) (BitVec.ofNat 32 (2 ^ 31 + (b2n late * 2 ^ 28 + b2n loc * 2 ^ 27 + b2n free * 2 ^ 26 + b2n note * 2 ^ 25 + target * 2 ^ 16))) = 0 ∨ (s.chan c).armStatus kport (if kport then 0x20 else 0) (BitVec.ofNat 32 (2 ^ 31 + (b2n late * 2 ^ 28 + b2n loc * 2 ^ 27 + b2n free * 2 ^ 26 + b2n note * 2 ^ 25 + target * 2 ^ 16))) = 2))) ∧
    (∃ (s : State) (q : Req) (c : Fin 4) (kport : Bool) (i : _), Ready s c ∧ (((kport = false ∧ HostReady s c ∧ q = .func 0) ∨ (kport = true ∧ ∃ k : Fin 2, KeeperReady s c k ∧ q = keeperReq k))) ∧ i < 1024 ∧ ((s.chan c).slot i).keeper = kport ∧ ((s.chan c).slot i).st = 1 ∧ ((s.chan c).slot i).late = false) ∧
    (∃ (s : State) (q : Req) (c : Fin 4) (kport : Bool) (i : _), Ready s c ∧ (((kport = false ∧ HostReady s c ∧ q = .func 0) ∨ (kport = true ∧ ∃ k : Fin 2, KeeperReady s c k ∧ q = keeperReq k))) ∧ i < 1024 ∧ ((s.chan c).slot i).keeper = kport ∧ 2 ≤ ((s.chan c).slot i).st) :=
  ⟨
    ⟨Wit.on (fun ch => ch |>.putB pgAct CTRL_ENABLE true |>.putF pgCosy COSY.STATUS_STATE 2 |>.putN pgAct ACT.HARM_TIME (50000) |>.putN pgAct ACT.HARM_ARG 0 |>.putN pgAct (ACT.HARM_TIME + 32) (50000) |>.putN pgAct (ACT.HARM_ARG + 32) 0 |> Wit.slot 3 { st := 1, target := 9 } |> Wit.kp 0 4 0x80 |>.putF pgBrew BREW.STATUS_STATE 3 |>.putF pgBrew BREW.FIRST_NUM_NUM 1 |>.putF pgAct ACT.CFG_KEEPER_SLOTS 200), (.func 0), 1, false, (9), false, false, false, false, by delta KeeperReady HostReady Ready; decide +kernel⟩,
    ⟨Wit.on (fun ch => ch |>.putB pgAct CTRL_ENABLE true |>.putF pgCosy COSY.STATUS_STATE 2 |>.putN pgAct ACT.HARM_TIME (50000) |>.putN pgAct ACT.HARM_ARG 0 |>.putN pgAct (ACT.HARM_TIME + 32) (50000) |>.putN pgAct (ACT.HARM_ARG + 32) 0 |> Wit.slot 3 { st := 1, target := 9 } |> Wit.kp 0 4 0x80 |>.putF pgBrew BREW.STATUS_STATE 3 |>.putF pgBrew BREW.FIRST_NUM_NUM 1 |>.putF pgAct ACT.CFG_KEEPER_SLOTS 200 |> Wit.slot 3 { st := 1, target := 1, time := 12345678901 } |> Wit.slot 7 { st := 1, keeper := true, target := 2, time := 0 } |> Wit.kp 0 4 0x80), (.func 0), 1, false, (3), by delta KeeperReady HostReady Ready; decide +kernel⟩,
    ⟨Wit.on (fun ch => ch |>.putB pgAct CTRL_ENABLE true |>.putF pgCosy COSY.STATUS_STATE 2 |>.putN pgAct ACT.HARM_TIME (50000) |>.putN pgAct ACT.HARM_ARG 0 |>.putN pgAct (ACT.HARM_TIME + 32) (50000) |>.putN pgAct (ACT.HARM_ARG + 32) 0 |> Wit.slot 3 { st := 1, target := 9 } |> Wit.kp 0 4 0x80 |>.putF pgBrew BREW.STATUS_STATE 3 |>.putF pgBrew BREW.FIRST_NUM_NUM 1 |>.putF pgAct ACT.CFG_KEEPER_SLOTS 200 |> Wit.slot 3 { st := 2, target := 9 } |> Wit.slot 7 { st := 3, keeper := true, target := 9 } |> Wit.kp 0 4 0x80), (.func 0), 1, false, (3), by delta KeeperReady HostReady Ready; decide +kernel⟩⟩

theorem witness_ActionsHaveTheirEffect :
    (∃ (s : State) (c : Fin 4) (i : Nat), Ready s c ∧ i < 1024 ∧ ((s.chan c).slot i).st = 1 ∧ ((s.chan c).pendingSlots.any (fun e => e.2.before ((s.chan c).slot i))) = false ∧ ((s.chan c).slot i).target = 1) ∧
    (∃ (s : State) (c : Fin 4) (i : Nat), Ready s c ∧ i < 1024 ∧ ((s.chan c).slot i).st = 1 ∧ ((s.chan c).pendingSlots.any (fun e => e.2.before ((s.chan c).slot i))) = false ∧ ((s.chan c).slot i).target = 2) ∧
    (∃ (s : State) (c : Fin 4) (i : Nat), Ready s c ∧ i < 1024 ∧ ((s.chan c).slot i).st = 1 ∧ ((s.chan c).pendingSlots.any (fun e => e.2.before ((s.chan c).slot i))) = false ∧ ((s.chan c).slot i).target = 3) ∧
    (∃ (s : State) (c : Fin 4) (i : Nat), Ready s c ∧ i < 1024 ∧ ((s.chan c).slot i).st = 1 ∧ ((s.chan c).pendingSlots.any (fun e => e.2.before ((s.chan c).slot i))) = false ∧ ((s.chan c).slot i).target = 4) ∧
    (∃ (s : State) (c : Fin 4) (i : Nat), Ready s c ∧ i < 1024 ∧ ((s.chan c).slot i).st = 1 ∧ ((s.chan c).pendingSlots.any (fun e => e.2.before ((s.chan c).slot i))) = false ∧ ((s.chan c).slot i).target = 5) ∧
    (∃ (s : State) (c : Fin 4) (i : Nat), Ready s c ∧ i < 1024 ∧ ((s.chan c).slot i).st = 1 ∧ ((s.chan c).pendingSlots.any (fun e => e.2.before ((s.chan c).slot i))) = false ∧ ((s.chan c).slot i).target = 6) ∧
    (∃ (s : State) (c : Fin 4) (i : Nat), Ready s c ∧ i < 1024 ∧ ((s.chan c).slot i).st = 1 ∧ ((s.chan c).pendingSlots.any (fun e => e.2.before ((s.chan c).slot i))) = false ∧ ((s.chan c).slot i).target = 7) ∧
    (∃ (s : State) (c : Fin 4) (i : Nat), Ready s c ∧ i < 1024 ∧ ((s.chan c).slot i).st = 1 ∧ ((s.chan c).pendingSlots.any (fun e => e.2.before ((s.chan c).slot i))) = false ∧ ((s.chan c).slot i).target = 8) ∧
    (∃ (s : State) (c : Fin 4) (i : Nat), Ready s c ∧ i < 1024 ∧ ((s.chan c).slot i).st = 1 ∧ ((s.chan c).pendingSlots.any (fun e => e.2.before ((s.chan c).slot i))) = false ∧ ((s.chan c).slot i).target = 9) :=
  ⟨
    ⟨Wit.on (fun ch => ch |>.putB pgAct CTRL_ENABLE true |> Wit.slot 3 { st := 1, target := 1, time := 5000, due := 5000, arg := 0, autoFree := true }), 1, 3, by delta Ready; decide +kernel⟩,
    ⟨Wit.on (fun ch => ch |>.putB pgAct CTRL_ENABLE true |> Wit.slot 3 { st := 1, target := 2, time := 5000, due := 5000, arg := 0, autoFree := true } |> fun ch => { ch with sch := { lists := [(0, { pend := true }), (1, { pend := true, running := true })] } }), 1, 3, by delta Ready; decide +kernel⟩,
    ⟨Wit.on (fun ch => ch |>.putB pgAct CTRL_ENABLE true |> Wit.slot 3 { st := 1, target := 3, time := 5000, due := 5000, arg := 0, autoFree := true, notify := true }), 1, 3, by delta Ready; decide +kernel⟩,
    ⟨Wit.on (fun ch => ch |>.putB pgAct CTRL_ENABLE true |> Wit.slot 3 { st := 1, target := 4, time := 5000, due := 5000, arg := 0, autoFree := true }), 1, 3, by delta Ready; decide +kernel⟩,
    ⟨Wit.on (fun ch => ch |>.putB pgAct CTRL_ENABLE true |> Wit.slot 3 { st := 1, target := 5, time := 5000, due := 5000, arg := 0, autoFree := true }), 1, 3, by delta Ready; decide +kernel⟩,
    ⟨Wit.on (fun ch => ch |>.putB pgAct CTRL_ENABLE true |> Wit.slot 3 { st := 1, target := 6, time := 5000, due := 5000, arg := 0, autoFree := true, late := true }), 1, 3, by delta Ready; decide +kernel⟩,
    ⟨Wit.on (fun ch => ch |>.putB pgAct CTRL_ENABLE true |> Wit.slot 3 { st := 1, target := 7, time := 5000, due := 5000, arg := 0, autoFree := true }), 1, 3, by delta Ready; decide +kernel⟩,
    ⟨Wit.on (fun ch => ch |>.putB pgAct CTRL_ENABLE true |> Wit.slot 3 { st := 1, target := 8, time := 5000, due := 5000, arg := 196608, autoFree := true }), 1, 3, by delta Ready; decide +kernel⟩,
    ⟨Wit.on (fun ch => ch |>.putB pgAct CTRL_ENABLE true |> Wit.slot 3 { st := 1, target := 9, time := 5000, due := 5000, arg := 0, autoFree := true } |> Wit.kp 0 4 0x80), 1, 3, by delta Ready; decide +kernel⟩⟩

theorem witness_BrewCommandsInEveryState :
    (∃ (s : State) (c : Fin 4), HostReady s c ∧ (s.chan c).brewState ≤ 2) ∧
    (∃ (s : State) (c : Fin 4), HostReady s c ∧ (s.chan c).brewState = 2) ∧
    (∃ (s : State) (c : Fin 4), HostReady s c ∧ (((s.chan c).brewState = 2 ∨ (s.chan c).brewState = 3))) :=
  ⟨
    ⟨Wit.on (fun ch => ch |>.putF pgBrew BREW.STATUS_STATE 0 |>.putN pgBrew BREW.IMG_LEN 640 |> fun ch => { ch with brew := { staging := if true then none else some 7, discarding := false } }), 1, by delta HostReady Ready; decide +kernel⟩,
    ⟨Wit.on (fun ch => ch |>.putF pgBrew BREW.STATUS_STATE 2 |> fun ch => { ch with prs := { fromEmpty := true }, brew := { staging := if 0 < 2 then none else some 7, discarding := false } }), 1, by delta HostReady Ready; decide +kernel⟩,
    ⟨Wit.on (fun ch => ch |>.putF pgBrew BREW.STATUS_STATE 2 |> fun ch => { ch with brew := { staging := if 0 < 2 then none else some 7, discarding := false } }), 1, by delta HostReady Ready; decide +kernel⟩⟩

theorem witness_PortConfiguration :
    (∃ (s : State) (c : Fin 4) (p : Nat) (v : Word), HostReady s c ∧ p < 64 ∧ (s.chan c).portB p LINE.PORT_CTRL_EN = false ∧ portCfgReserved v = false ∧ (s.chan c).portCfgRefusal p v = 0) ∧
    (∃ (s : State) (c : Fin 4) (p : Nat), HostReady s c ∧ p < 64 ∧ (s.chan c).portB p LINE.PORT_CTRL_EN = true) :=
  ⟨
    ⟨Wit.on (fun ch => ch), 1, 0, (0x42202328#32), by delta HostReady Ready; decide +kernel⟩,
    ⟨Wit.on (fun ch => ch |> Wit.port 5), 1, 5, by delta HostReady Ready; decide +kernel⟩⟩

theorem witness_PortControlBits :
    (∃ (s : State) (c : Fin 4) (p : Nat), HostReady s c ∧ p < 64 ∧ fld ((s.chan c).portCtrl p) 5 3 = 0) ∧
    (∃ (s : State) (c : Fin 4) (p : Nat) (i : _), HostReady s c ∧ p < 64 ∧ fld ((s.chan c).portCtrl p) 5 3 = 0 ∧ i < 19) :=
  ⟨
    ⟨Wit.on (fun ch => ch |> Wit.port 5), 1, (5), by delta HostReady Ready; decide +kernel⟩,
    ⟨Wit.on (fun ch => ch |> Wit.port 5), 1, (5), 0, by delta HostReady Ready; decide +kernel⟩⟩

theorem witness_PortOperations :
    (∃ (s : State) (c : Fin 4) (p : Nat), HostReady s c ∧ fld ((s.chan c).portCtrl p) 5 3 = 0 ∧ (s.chan c).isLanePort p = true ∧ (s.chan c).portF p LINE.PORT_STAT_STATE ≠ 3) ∧
    (∃ (s : State) (c : Fin 4) (p : Nat), HostReady s c ∧ fld ((s.chan c).portCtrl p) 5 3 = 0 ∧ (s.chan c).isLanePort p = true ∧ (s.chan c).portF p LINE.PORT_STAT_STATE = 3 ∧ (s.chan c).takeover p = false) ∧
    (∃ (s : State) (c : Fin 4) (p : Nat), Ready s c ∧ (s.chan c).isLanePort p = true ∧ ((((s.chan c).pw p).op = 1 ∨ ((s.chan c).pw p).op = 5))) :=
  ⟨
    ⟨Wit.on (fun ch => ch |> Wit.port 5 |>.putPortF 5 LINE.PORT_STAT_STATE 1), 1, 5, by delta HostReady Ready; decide +kernel⟩,
    ⟨Wit.on (fun ch => ch |> Wit.port 5), 1, 5, by delta HostReady Ready; decide +kernel⟩,
    ⟨Wit.on (fun ch => ch |> Wit.port 5 |>.putPw 5 { op := if true then 5 else 1 }), 1, 5, by delta Ready; decide +kernel⟩⟩

theorem witness_LaneConfigurationAndMargin :
    (∃ (s : State) (c : Fin 4) (l : Nat), HostReady s c ∧ l < 32 ∧ (s.chan c).laneOwner l = none) ∧
    (∃ (s : State) (c : Fin 4) (l : Nat) (v : Word) (q : _), HostReady s c ∧ l < 32 ∧ (s.chan c).laneOwner l = some q ∧ bit v 0 = true ∧ bit ((s.chan c).get (pgLine (l / 4)) (LINE.LANE_CFG (l % 4))) 0 = false) ∧
    (∃ (s : State) (c : Fin 4) (l : Nat) (m : Nat), Ready s c ∧ l < 32 ∧ m < 256) :=
  ⟨
    ⟨Wit.on (fun ch => ch), 1, 0, by delta HostReady Ready; decide +kernel⟩,
    ⟨Wit.on (fun ch => ch |> Wit.port 5), 1, 5, (BitVec.ofNat 32 1), 5, by delta HostReady Ready; decide +kernel⟩,
    ⟨Wit.on (fun ch => ch |> Wit.port 5), 1, 0, 0, by delta Ready; decide +kernel⟩⟩

theorem witness_LinkTraining :
    (∃ (s : State) (c : Fin 4) (p : Nat), Ready s c ∧ (s.chan c).isLanePort p = true ∧ ((s.chan c).pw p).op = 0 ∧ (s.chan c).instsOn p = true) ∧
    (∃ (s : State) (c : Fin 4) (p : Nat), Ready s c ∧ (s.chan c).isLanePort p = true ∧ ((s.chan c).pw p).training = true ∧ ((s.chan c).pw p).aligned = false ∧ (((s.chan c).portB p LINE.PORT_CFG_AN_EN = true ∨ (s.chan c).portB p LINE.PORT_CFG_LT_EN = true))) ∧
    (∃ (s : State) (c : Fin 4) (p : Nat), Ready s c ∧ (s.chan c).isLanePort p = true ∧ ((s.chan c).pw p).retry = true) :=
  ⟨
    ⟨Wit.on (fun ch => ch |> Wit.port 5 |>.putPw 5 { training := true }), 1, 5, by delta Ready; decide +kernel⟩,
    ⟨Wit.on (fun ch => ch |> Wit.port 5 |>.putPortF 5 LINE.PORT_CFG_AN_EN 1 |>.putPw 5 { training := true }), 1, 5, by delta Ready; decide +kernel⟩,
    ⟨Wit.on (fun ch => ch |> Wit.port 5 |>.putPw 5 { retry := true }), 1, 5, by delta Ready; decide +kernel⟩⟩

theorem witness_PortFaultsAndHolds :
    (∃ (s : State) (c : Fin 4) (p : Nat), Ready s c ∧ (s.chan c).isLanePort p = true) ∧
    (∃ (s : State) (c : Fin 4) (p : Nat), Ready s c ∧ (s.chan c).isLanePort p = true ∧ ((s.chan c).pw p).timer = 1 ∧ (s.chan c).oper p = true ∧ (s.chan c).portState p ≠ 3) ∧
    (∃ (s : State) (c : Fin 4) (p : Nat), Ready s c ∧ (s.chan c).isLanePort p = true ∧ ((s.chan c).pw p).timer = 2 ∧ (s.chan c).oper p = false ∧ (s.chan c).portState p = 3 ∧ (s.chan c).portF p LINE.PORT_STAT_STATE = 3 ∧ (s.chan c).portB p LINE.PORT_CTRL_EN = true ∧ (s.chan c).instsOn p = true) :=
  ⟨
    ⟨Wit.on (fun ch => ch |> Wit.port 5), 1, 5, by delta Ready; decide +kernel⟩,
    ⟨Wit.on (fun ch => ch |> Wit.port 5 |>.putPw 5 { timer := 1, mac := [.control {} 5] }), 1, 5, by delta Ready; decide +kernel⟩,
    ⟨Wit.on (fun ch => ch |> Wit.port 5 |>.putPortF 5 LINE.PORT_STAT_OPER 0 |>.putPw 5 { timer := 2, aligned := true }), 1, 5, by delta Ready; decide +kernel⟩⟩

theorem witness_ReceivedFramesAreCounted :
    (∃ (s : State) (c : Fin 4) (p : Nat) (b : List Byte), Ready s c ∧ p < 64 ∧ (s.chan c).canReceive p = true ∧ (s.chan c).portB p LINE.PORT_CTRL_EN = true ∧ (s.chan c).portB p LINE.PORT_CTRL_DISCARD = false ∧ fcsOk b = true ∧ 64 ≤ b.length ∧ b.length ≤ (s.chan c).portF p LINE.PORT_CFG_MAX_FRAME ∧ beAt b 12 2 ≠ 0x8808) ∧
    (∃ (s : State) (c : Fin 4) (p : Nat), Ready s c ∧ p < 64 ∧ (s.chan c).canReceive p = true ∧ (s.chan c).portB p LINE.PORT_CTRL_EN = false) ∧
    (∃ (s : State) (c : Fin 4) (p : Nat), Ready s c ∧ (s.chan c).isLanePort p = true) :=
  ⟨
    ⟨Wit.on (fun ch => ch |> Wit.port 5), 1, 5, (Wit.frame 46), by delta Ready; decide +kernel⟩,
    ⟨Wit.on (fun ch => ch |> Wit.port 5 |>.putPortF 5 LINE.PORT_CTRL_EN 0), 1, 5, by delta Ready; decide +kernel⟩,
    ⟨Wit.on (fun ch => ch |> Wit.port 5), 1, 5, by delta Ready; decide +kernel⟩⟩

theorem witness_PfcAndPreemption :
    (∃ (s : State) (c : Fin 4) (p : Nat) (cls : Nat), Ready s c ∧ p < 64 ∧ cls < 8 ∧ (s.chan c).rxPaused p cls = true) ∧
    (∃ (s : State) (c : Fin 4) (p : Nat) (cls : Nat), Ready s c ∧ p < 64 ∧ cls < 8 ∧ (s.chan c).rxPaused p cls = true ∧ (s.chan c).portF p LINE.PFC_TIMING_RX_WD ≠ 0 ∧ (s.chan c).pausedUntil p cls (tget 0 ((s.chan c).pw p).wdAt cls + (s.chan c).portF p LINE.PFC_TIMING_RX_WD * 1000000) = true) ∧
    (∃ (s : State) (c : Fin 4) (p : Nat) (cls : Nat), Ready s c ∧ p < 64 ∧ cls < 8 ∧ nbit ((s.chan c).pw p).wdIgnore cls = true) ∧
    (∃ (s : State) (c : Fin 4) (p : Nat) (cls : Nat), Ready s c ∧ p < 64 ∧ cls < 8 ∧ nbit ((s.chan c).pw p).xoff cls = true ∧ (s.chan c).oper p = true ∧ (s.chan c).portB p LINE.PFC_CFG_TX_EN = true ∧ nbit ((s.chan c).portF p LINE.PFC_CFG_TX_CLASSES) cls = true ∧ ((s.chan c).pw p).ctl.length < 16) ∧
    (∃ (s : State) (c : Fin 4) (p : Nat) (cls : Nat), Ready s c ∧ p < 64 ∧ cls < 8 ∧ (s.chan c).portF p LINE.PORT_STAT_VERIFY = 2) :=
  ⟨
    ⟨Wit.on (fun ch => ch |> Wit.port 5 |>.putPortF 5 LINE.PORT_STAT_RX_PAUSED 0x18 |>.putPortF 5 LINE.PFC_TIMING_RX_WD 50 |>.putPw 5 { aligned := true, pause := [(3, 70000000), (4, 9)], pauseAt := [(3, 1)], wdAt := [(3, 1)] }), 1, 5, 3, by delta Ready; decide +kernel⟩,
    ⟨Wit.on (fun ch => ch |> Wit.port 5 |>.putPortF 5 LINE.PORT_STAT_RX_PAUSED 0x18 |>.putPortF 5 LINE.PFC_TIMING_RX_WD 50 |>.putPw 5 { aligned := true, pause := [(3, 70000000), (4, 9)], pauseAt := [(3, 1)], wdAt := [(3, 1)] }), 1, 5, 3, by delta Ready; decide +kernel⟩,
    ⟨Wit.on (fun ch => ch |> Wit.port 5 |>.putPw 5 { aligned := true, wdIgnore := 12 }), 1, 5, 3, by delta Ready; decide +kernel⟩,
    ⟨Wit.on (fun ch => ch |> Wit.port 5 |>.putPortF 5 LINE.PFC_CFG_TX_EN 1 |>.putPortF 5 LINE.PFC_CFG_TX_CLASSES 0xFF |>.putPw 5 { aligned := true, xoff := 8, ctl := List.replicate 0 {} }), 1, 5, 3, by delta Ready; decide +kernel⟩,
    ⟨Wit.on (fun ch => ch |> Wit.port 5 |>.putPortF 5 LINE.PORT_STAT_VERIFY 2), 1, 5, 3, by delta Ready; decide +kernel⟩⟩

theorem witness_LineCommandsInEveryState :
    (∃ (s : State) (c : Fin 4) (p : Nat), HostReady s c ∧ fld ((s.chan c).portCtrl p) 5 3 = 0 ∧ (s.chan c).isLanePort p = true ∧ (s.chan c).takeover p = true) ∧
    (∃ (s : State) (c : Fin 4) (p : Nat) (kind : Nat), Ready s c ∧ (s.chan c).isLanePort p = true ∧ kind < 4) ∧
    (∃ (s : State) (c : Fin 4) (l : Nat) (q : Nat) (v : Word), HostReady s c ∧ l < 32 ∧ (s.chan c).laneOwner l = some q ∧ ((bit v 0 = false ∨ bit ((s.chan c).get (pgLine (l / 4)) (LINE.LANE_CFG (l % 4))) 0 = true)) ∧ (((s.chan c).portF q LINE.PORT_STAT_STATE ≠ 3 ∨ (s.chan c).takeover q = true ∨ fld v 2 1 = fld ((s.chan c).get (pgLine (l / 4)) (LINE.LANE_CFG (l % 4))) 2 1))) :=
  ⟨
    ⟨Wit.on (fun ch => ch |> Wit.port 5 |>.putPortF 5 LINE.PORT_STAT_STATE 0 |>.putB (portPg 5) CTRL_TAKEOVER true), 1, 5, by delta HostReady Ready; decide +kernel⟩,
    ⟨Wit.on (fun ch => ch |> Wit.port 5 |>.putPw 5 { aligned := true } |>.putPortF 5 LINE.PORT_STAT_STATE (3)), 1, 5, 0, by delta Ready; decide +kernel⟩,
    ⟨Wit.on (fun ch => ch |> Wit.port 5 |>.putPortF 5 LINE.PORT_STAT_STATE (1) |>.putB (portPg 5) CTRL_TAKEOVER true), 1, 5, 5, (BitVec.ofNat 32 0), by delta HostReady Ready; decide +kernel⟩⟩

theorem witness_ReceivedFramesOfEveryKind :
    (∃ (s : State) (c : Fin 4) (p : Nat) (b : List Byte), Ready s c ∧ p < 64 ∧ (s.chan c).canReceive p = true ∧ ((s.chan c).portF p LINE.PORT_CFG_MAX_FRAME < b.length ∨ b.length < 64 ∨ beAt b 12 2 ≠ 0x8808)) ∧
    (∃ (s : State) (c : Fin 4) (p : Nat) (b : List Byte) (truncated : Bool) (fragErr : Bool), Ready s c ∧ p < 64 ∧ (s.chan c).canReceive p = true ∧ rxCounter (s.chan c) p b truncated fragErr (portBlk p) = LINE.RX_OK_FRAMES (portBlk p) ∧ 64 ≤ b.length ∧ b.length ≤ (s.chan c).portF p LINE.PORT_CFG_MAX_FRAME ∧ beAt b 12 2 = 0x8808) :=
  ⟨
    ⟨Wit.on (fun ch => ch |> Wit.port 5 |>.putPortF 5 LINE.PORT_CTRL_EN (1) |>.putPortF 5 LINE.PORT_CTRL_DISCARD (0)), 1, 5, (Wit.frame 0), by delta Ready; decide +kernel⟩,
    ⟨Wit.on (fun ch => ch |> Wit.port 5 |>.putPortF 5 LINE.PFC_CFG_RX_EN 0 |>.putPortF 5 LINE.PFC_CFG_RX_CLASSES 0xF3), 1, 5, (withFcs (beBytes 12 (0x0180C2000001 * 2 ^ 48 + 2) ++ beBytes 2 0x8808 ++ beBytes 2 (1) ++ beBytes 2 0 ++ beBytes 16 0 ++ List.replicate 26 0)), false, false, by delta Ready; decide +kernel⟩⟩

theorem witness_MovesFlagsAndTimers :
    (∃ (s : State) (c : Fin 4) (t : Nat), Ready s c ∧ CanIssue (s.chan c) t 0x01) ∧
    (∃ (s : State) (c : Fin 4) (t : Nat), Ready s c ∧ CanIssue (s.chan c) t 0x12) ∧
    (∃ (s : State) (c : Fin 4) (t : Nat), Ready s c ∧ CanIssue (s.chan c) t 0x41) ∧
    (∃ (s : State) (c : Fin 4) (t : Nat), Ready s c ∧ CanIssue (s.chan c) t 0x42) ∧
    (∃ (s : State) (c : Fin 4) (t : Nat), Ready s c ∧ CanIssue (s.chan c) t 0x40) ∧
    (∃ (s : State) (c : Fin 4) (t : Nat), Ready s c ∧ CanIssue (s.chan c) t 0x3A) :=
  ⟨
    ⟨Wit.on (fun ch => ch |> Wit.run' 0x01), 1, 130, by delta Ready; decide +kernel, Wit.canIssue (by decide +kernel)⟩,
    ⟨Wit.on (fun ch => ch |> Wit.run' 0x12), 1, 130, by delta Ready; decide +kernel, Wit.canIssue (by decide +kernel)⟩,
    ⟨Wit.on (fun ch => ch |> Wit.run' 0x41), 1, 130, by delta Ready; decide +kernel, Wit.canIssue (by decide +kernel)⟩,
    ⟨Wit.on (fun ch => ch |> Wit.run' 0x42), 1, 130, by delta Ready; decide +kernel, Wit.canIssue (by decide +kernel)⟩,
    ⟨Wit.on (fun ch => ch |> Wit.run' 0x40 |> fun ch => { ch with time := 0, ns := 0 }), 1, 130, by delta Ready; decide +kernel, Wit.canIssue (by decide +kernel)⟩,
    ⟨Wit.on (fun ch => ch |> Wit.run' 0x3A), 1, 130, by delta Ready; decide +kernel, Wit.canIssue (by decide +kernel)⟩⟩

theorem witness_BranchesSetThePc :
    (∃ (s : State) (c : Fin 4) (t : Nat), Ready s c ∧ CanIssue (s.chan c) t 0x20) ∧
    (∃ (s : State) (c : Fin 4) (t : Nat), Ready s c ∧ CanIssue (s.chan c) t 0x21) ∧
    (∃ (s : State) (c : Fin 4) (t : Nat), Ready s c ∧ CanIssue (s.chan c) t 0x22) :=
  ⟨
    ⟨Wit.on (fun ch => ch |> Wit.run' 0x20), 1, 130, by delta Ready; decide +kernel, Wit.canIssue (by decide +kernel)⟩,
    ⟨Wit.on (fun ch => ch |> Wit.run' 0x21), 1, 130, by delta Ready; decide +kernel, Wit.canIssue (by decide +kernel)⟩,
    ⟨Wit.on (fun ch => ch |> Wit.at' ((fun (w : Nat) => if true then w else 0x22 * 2 ^ 120 + iRs1 w * 2 ^ 112 + nbits w 111 106 % 20 * 2 ^ 106 + 3 * 2 ^ 90 + 0 * 2 ^ 74 + nbits w 73 62 * 2 ^ 62 + 0 * 2 ^ 46 + nbits w 45 34 * 2 ^ 34 + 0 * 2 ^ 18 + nbits w 17 0) (Wit.rw 0x22))), 1, 130, by delta Ready; decide +kernel, Wit.canIssue (by decide +kernel)⟩⟩

theorem witness_AluArithmetic :
    (∃ (s : State) (c : Fin 4) (t : Nat), Ready s c ∧ CanIssue (s.chan c) t 0x10) ∧
    (∃ (s : State) (c : Fin 4) (t : Nat), Ready s c ∧ CanIssue (s.chan c) t 0x11) :=
  ⟨
    ⟨Wit.on (fun ch => ch |> Wit.run' 0x10), 1, 130, by delta Ready; decide +kernel, Wit.canIssue (by decide +kernel)⟩,
    ⟨Wit.on (fun ch => ch |> Wit.run' 0x11), 1, 130, by delta Ready; decide +kernel, Wit.canIssue (by decide +kernel)⟩⟩

theorem witness_WindowCarryAndSums :
    (∃ (s : State) (c : Fin 4) (t : Nat), Ready s c ∧ CanIssue (s.chan c) t 0x08 ∧ 0 ≤ ((s.chan c).thr t).extAddr ((s.chan c).instrWord t) ∧ ((s.chan c).thr t).extAddr ((s.chan c).instrWord t) + (nbits ((s.chan c).instrWord t) 98 96 + 1) ≤ ((((s.chan c).thr t).pkt.getD {}).window : Int)) ∧
    (∃ (s : State) (c : Fin 4) (t : Nat), Ready s c ∧ CanIssue (s.chan c) t 0x08 ∧ ((((s.chan c).thr t).pkt.getD {}).window : Int) ≤ ((s.chan c).thr t).extAddr ((s.chan c).instrWord t)) ∧
    (∃ (s : State) (c : Fin 4) (t : Nat), Ready s c ∧ CanIssue (s.chan c) t 0x09) ∧
    (∃ (s : State) (c : Fin 4) (t : Nat), Ready s c ∧ CanIssue (s.chan c) t 0x0A) ∧
    (∃ (s : State) (c : Fin 4) (t : Nat), Ready s c ∧ CanIssue (s.chan c) t 0x0B) ∧
    (∃ (s : State) (c : Fin 4) (t : Nat), Ready s c ∧ CanIssue (s.chan c) t 0x0C) ∧
    (∃ (s : State) (c : Fin 4) (t : Nat), Ready s c ∧ CanIssue (s.chan c) t 0x14) ∧
    (∃ (s : State) (c : Fin 4) (t : Nat), Ready s c ∧ CanIssue (s.chan c) t 0x15) :=
  ⟨
    ⟨Wit.on (fun ch => ch |> Wit.at' ((fun (w : Nat) => if true then w % 2 ^ 101 + w / 2 ^ 102 * 2 ^ 102 - nbits w 95 80 * 2 ^ 80 + 0 * 2 ^ 80 else w) (Wit.rw 0x08))), 1, 130, by delta Ready; decide +kernel, Wit.canIssue (by decide +kernel), by decide +kernel⟩,
    ⟨Wit.on (fun ch => ch |> Wit.at' ((fun (w : Nat) => if true then w % 2 ^ 101 + w / 2 ^ 102 * 2 ^ 102 - nbits w 95 80 * 2 ^ 80 + 0 * 2 ^ 80 else w) (Wit.rw 0x08)) |> Wit.at' (0x08 * 2 ^ 120 + 300 * 2 ^ 80 + 0 * 2 ^ 108)), 1, 130, by delta Ready; decide +kernel, Wit.canIssue (by decide +kernel), by decide +kernel⟩,
    ⟨Wit.on (fun ch => ch |> Wit.run' 0x09), 1, 130, by delta Ready; decide +kernel, Wit.canIssue (by decide +kernel)⟩,
    ⟨Wit.on (fun ch => ch |> Wit.run' 0x0A), 1, 130, by delta Ready; decide +kernel, Wit.canIssue (by decide +kernel)⟩,
    ⟨Wit.on (fun ch => ch |> Wit.run' 0x0B), 1, 130, by delta Ready; decide +kernel, Wit.canIssue (by decide +kernel)⟩,
    ⟨Wit.on (fun ch => ch |> Wit.run' 0x0C), 1, 130, by delta Ready; decide +kernel, Wit.canIssue (by decide +kernel)⟩,
    ⟨Wit.on (fun ch => ch |> Wit.run' 0x14), 1, 130, by delta Ready; decide +kernel, Wit.canIssue (by decide +kernel)⟩,
    ⟨Wit.on (fun ch => ch |> Wit.run' 0x15), 1, 130, by delta Ready; decide +kernel, Wit.canIssue (by decide +kernel)⟩⟩

theorem witness_LocksAndMailboxes :
    (∃ (s : State) (c : Fin 4) (t : Nat), Ready s c ∧ CanIssue (s.chan c) t 0x28 ∧ ((s.chan c).lock (lockKey t (((s.chan c).thr t).indexed ((s.chan c).instrWord t) (nbits ((s.chan c).instrWord t) 9 0) % 1024))).holder = 0 ∧ ((s.chan c).locksOf t).length < 8) ∧
    (∃ (s : State) (c : Fin 4) (t : Nat), Ready s c ∧ CanIssue (s.chan c) t 0x28 ∧ ((s.chan c).lock (lockKey t (((s.chan c).thr t).indexed ((s.chan c).instrWord t) (nbits ((s.chan c).instrWord t) 9 0) % 1024))).holder ≠ 0 ∧ ((s.chan c).lock (lockKey t (((s.chan c).thr t).indexed ((s.chan c).instrWord t) (nbits ((s.chan c).instrWord t) 9 0) % 1024))).holder ≠ t + 1 ∧ ((s.chan c).locksOf t).length < 8) ∧
    (∃ (s : State) (c : Fin 4) (t : Nat), Ready s c ∧ CanIssue (s.chan c) t 0x29 ∧ ((s.chan c).lock (lockKey t (((s.chan c).thr t).indexed ((s.chan c).instrWord t) (nbits ((s.chan c).instrWord t) 9 0) % 1024))).holder = 0 ∧ ((s.chan c).locksOf t).length < 8) ∧
    (∃ (s : State) (c : Fin 4) (t : Nat), Ready s c ∧ CanIssue (s.chan c) t 0x29 ∧ ((s.chan c).lock (lockKey t (((s.chan c).thr t).indexed ((s.chan c).instrWord t) (nbits ((s.chan c).instrWord t) 9 0) % 1024))).holder ≠ 0 ∧ ((s.chan c).lock (lockKey t (((s.chan c).thr t).indexed ((s.chan c).instrWord t) (nbits ((s.chan c).instrWord t) 9 0) % 1024))).holder ≠ t + 1) ∧
    (∃ (s : State) (c : Fin 4) (t : Nat), Ready s c ∧ CanIssue (s.chan c) t 0x2A ∧ ((s.chan c).lock (lockKey t (((s.chan c).thr t).indexed ((s.chan c).instrWord t) (nbits ((s.chan c).instrWord t) 9 0) % 1024))).holder = t + 1) ∧
    (∃ (s : State) (c : Fin 4) (t : Nat), Ready s c ∧ CanIssue (s.chan c) t 0x2A ∧ ((s.chan c).lock (lockKey t (((s.chan c).thr t).indexed ((s.chan c).instrWord t) (nbits ((s.chan c).instrWord t) 9 0) % 1024))).holder ≠ t + 1) ∧
    (∃ (s : State) (c : Fin 4) (t : Nat), Ready s c ∧ CanIssue (s.chan c) t 0x30 ∧ ((s.chan c).mbox (mboxKey t (((s.chan c).thr t).indexed ((s.chan c).instrWord t) (nbits ((s.chan c).instrWord t) 5 0) % 64))).st = 0 ∧ (s.chan c).staging t = none) ∧
    (∃ (s : State) (c : Fin 4) (t : Nat), Ready s c ∧ CanIssue (s.chan c) t 0x31 ∧ ((s.chan c).mbox (mboxKey t (((s.chan c).thr t).indexed ((s.chan c).instrWord t) (nbits ((s.chan c).instrWord t) 5 0) % 64))).st = 1 ∧ ((s.chan c).mbox (mboxKey t (((s.chan c).thr t).indexed ((s.chan c).instrWord t) (nbits ((s.chan c).instrWord t) 5 0) % 64))).owner = t) ∧
    (∃ (s : State) (c : Fin 4) (t : Nat), Ready s c ∧ CanIssue (s.chan c) t 0x32 ∧ ((s.chan c).mbox (mboxKey t (((s.chan c).thr t).indexed ((s.chan c).instrWord t) (nbits ((s.chan c).instrWord t) 5 0) % 64))).st = 2) ∧
    (∃ (s : State) (c : Fin 4) (t : Nat), Ready s c ∧ CanIssue (s.chan c) t 0x32 ∧ ((s.chan c).mbox (mboxKey t (((s.chan c).thr t).indexed ((s.chan c).instrWord t) (nbits ((s.chan c).instrWord t) 5 0) % 64))).st ≠ 2) :=
  ⟨
    ⟨Wit.on (fun ch => ch |> Wit.run' 0x28), 1, 130, by delta Ready; decide +kernel, Wit.canIssue (by decide +kernel), by decide +kernel⟩,
    ⟨Wit.on (fun ch => ch |> Wit.at' (0x28 * 2 ^ 120 + 3) |> fun ch => ch.putLock (lockKey 130 3) { holder := 8, waiters := [9] }), 1, 130, by delta Ready; decide +kernel, Wit.canIssue (by decide +kernel), by decide +kernel⟩,
    ⟨Wit.on (fun ch => ch |> Wit.run' 0x29), 1, 130, by delta Ready; decide +kernel, Wit.canIssue (by decide +kernel), by decide +kernel⟩,
    ⟨Wit.on (fun ch => ch |> Wit.at' (0x29 * 2 ^ 120 + 3) |> fun ch => ch.putLock (lockKey 130 3) { holder := 8, waiters := [9] }), 1, 130, by delta Ready; decide +kernel, Wit.canIssue (by decide +kernel), by decide +kernel⟩,
    ⟨Wit.on (fun ch => ch |> Wit.at' (0x2A * 2 ^ 120 + 3) |> fun ch => ch.putLock (lockKey 130 3) { holder := 131, waiters := if true then [] else [129, 134] }), 1, 130, by delta Ready; decide +kernel, Wit.canIssue (by decide +kernel), by decide +kernel⟩,
    ⟨Wit.on (fun ch => ch |> Wit.at' (0x2A * 2 ^ 120 + 3) |> fun ch => ch.putLock (lockKey 130 3) { holder := 8, waiters := [9] }), 1, 130, by delta Ready; decide +kernel, Wit.canIssue (by decide +kernel), by decide +kernel⟩,
    ⟨Wit.on (fun ch => ch |> Wit.run' 0x30), 1, 130, by delta Ready; decide +kernel, Wit.canIssue (by decide +kernel), by decide +kernel⟩,
    ⟨Wit.on (fun ch => ch |> Wit.at' (0x31 * 2 ^ 120 + 3) |> fun ch => ch.putMbox (mboxKey 130 3) { st := 1, owner := 130, words := Vector.replicate 8 (BitVec.ofNat 64 0) }), 1, 130, by delta Ready; decide +kernel, Wit.canIssue (by decide +kernel), by decide +kernel⟩,
    ⟨Wit.on (fun ch => ch |> Wit.at' (0x32 * 2 ^ 120 + 3 + 256 * 0 + 0 * 2 ^ 97 + 2 ^ 108 * 0) |> fun ch => ch.putMbox (mboxKey 130 3) { st := 2, owner := 131, words := Vector.replicate 8 (BitVec.ofNat 64 0) }), 1, 130, by delta Ready; decide +kernel, Wit.canIssue (by decide +kernel), by decide +kernel⟩,
    ⟨Wit.on (fun ch => ch |> Wit.run' 0x32), 1, 130, by delta Ready; decide +kernel, Wit.canIssue (by decide +kernel), by decide +kernel⟩⟩

theorem witness_EventsLookupsAndWaits :
    (∃ (s : State) (c : Fin 4) (t : Nat), Ready s c ∧ CanIssue (s.chan c) t 0x38 ∧ Nat.land ((s.chan c).thr t).evPend (nbits ((s.chan c).instrWord t) 6 0) = 0) ∧
    (∃ (s : State) (c : Fin 4) (t : Nat), Ready s c ∧ CanIssue (s.chan c) t 0x38 ∧ Nat.land ((s.chan c).thr t).evPend (nbits ((s.chan c).instrWord t) 6 0) ≠ 0) ∧
    (∃ (s : State) (c : Fin 4) (t : Nat), Ready s c ∧ CanIssue (s.chan c) t 0x39 ∧ nbit ((s.chan c).instrWord t) 96 = false ∧ t / 128 * 128 + nbits ((s.chan c).instrWord t) 6 0 ≠ t) ∧
    (∃ (s : State) (c : Fin 4) (t : Nat), Ready s c ∧ CanIssue (s.chan c) t 0x18) ∧
    (∃ (s : State) (c : Fin 4) (t : Nat) (rd : _) (v : _) (rest : _), Ready s c ∧ ((s.chan c).thr t).looks = (rd, v) :: rest ∧ rd < 16 ∧ ((s.chan c).thr t).skipped = false) ∧
    (∃ (s : State) (c : Fin 4) (t : Nat), Ready s c ∧ ((s.chan c).thr t).timer ≠ 0 ∧ ((s.chan c).thr t).skipped = false) ∧
    (∃ (s : State) (c : Fin 4) (t : Nat) (n : _), Ready s c ∧ ((s.chan c).thr t).waitLock = some n ∧ ((s.chan c).lock (lockKey t n)).holder = t + 1 ∧ ((s.chan c).thr t).st = 3 ∧ ((s.chan c).thr t).stepping = 0) ∧
    (∃ (s : State) (c : Fin 4) (t : Nat), Ready s c ∧ ((s.chan c).thr t).wfe = true ∧ ((s.chan c).thr t).wake ≠ 0 ∧ ((s.chan c).thr t).st = 2 ∧ ((s.chan c).thr t).stepping = 0) :=
  ⟨
    ⟨Wit.on (fun ch => ch |> Wit.at' 74436767763955288882613195375699296256), 1, 130, by delta Ready; decide +kernel, Wit.canIssue (by decide +kernel), by decide +kernel⟩,
    ⟨Wit.on (fun ch => ch |> Wit.at' (0x38 * 2 ^ 120 + (4)) |> fun ch => if true then ch.putThr 130 { Wit.thread with evPend := 4 } else ch), 1, 130, by delta Ready; decide +kernel, Wit.canIssue (by decide +kernel), by decide +kernel⟩,
    ⟨Wit.on (fun ch => ch |> Wit.at' 75765995759740204755517002435979640832 |> fun ch => ch.putThr 128 ({ Wit.thread with st := 2, wfe := true, evMask := 0 })), 1, 130, by delta Ready; decide +kernel, Wit.canIssue (by decide +kernel), by decide +kernel⟩,
    ⟨Wit.on (fun ch => ch |> Wit.run' 0x18 |> fun ch => { ch with prs := { ch.prs with bank0 := { ch.prs.bank0 with ptable := [(0, 77), (2, 99)] } } }), 1, 130, by delta Ready; decide +kernel, Wit.canIssue (by decide +kernel)⟩,
    ⟨Wit.on (fun ch => ch |> Wit.run' 0x01 |> fun ch => ch.putThr 130 { Wit.thread with looks := [(5, 99)], st := 1, wfe := false }), 1, 130, 5, (99 : BitVec 64), [], by delta Ready; decide +kernel⟩,
    ⟨Wit.on (fun ch => ch |> Wit.run' 0x01 |> fun ch => ch.putThr 130 { Wit.thread with timer := 50, st := 1, wfe := false }), 1, 130, by delta Ready; decide +kernel⟩,
    ⟨Wit.on (fun ch => ch |> Wit.run' 0x01 |> fun ch => (ch.putThr 130 { Wit.thread with st := 3, waitLock := some 3 }).putLock (lockKey 130 3) { holder := 131 }), 1, 130, 3, by delta Ready; decide +kernel⟩,
    ⟨Wit.on (fun ch => ch |> Wit.run' 0x01 |> fun ch => ch.putThr 130 { Wit.thread with st := 2, wfe := true, wake := 1, evMask := 127 }), 1, 130, by delta Ready; decide +kernel⟩⟩

theorem witness_ThreadsBeginAndEnd :
    (∃ (s : State) (c : Fin 4) (k : Pkt) (q : List Pkt) (e : Nat), Ready s c ∧ (s.chan c).enabled pgDisp = true ∧ (s.chan c).brewCurrent = true ∧ (s.chan c).prs.qEg = [] ∧ (s.chan c).prs.qIn = k :: q ∧ k.egress = false ∧ (s.chan c).partThreads k.part < (s.chan c).getF pgDisp (DISP.PART_SHARE_MAX_THREADS k.part) ∧ (s.chan c).engOpen e = true ∧ e < 256 ∧ (s.chan c).pickEngine false = some e ∧ (s.chan c).freeIn false e ≠ []) ∧
    (∃ (s : State) (c : Fin 4) (t : Nat), Ready s c ∧ CanIssue (s.chan c) t 0x00) ∧
    (∃ (s : State) (c : Fin 4) (t : Nat), Ready s c ∧ CanIssue (s.chan c) t 0x02) :=
  ⟨
    ⟨Wit.on (fun ch => ch |>.putB pgDisp CTRL_ENABLE true |>.putF pgBrew BREW.STATUS_STATE 1 |>.putB (pgPclu 0) CTRL_ENABLE true |> fun ch => { ch with prs := { qIn := [{ Wit.pkt with t64 := 77 }, Wit.pkt] } }), 1, { Wit.pkt with t64 := 77 }, [Wit.pkt], 0, by delta Ready; decide +kernel⟩,
    ⟨Wit.on (fun ch => ch |> Wit.run' 0x00), 1, 130, by delta Ready; decide +kernel, Wit.canIssue (by decide +kernel)⟩,
    ⟨Wit.on (fun ch => ch |> Wit.run' 0x02 |> fun ch => if true then ch else ch.putLock (lockKey 130 3) { holder := 131, waiters := if false then [] else [129, 134] }), 1, 130, by delta Ready; decide +kernel, Wit.canIssue (by decide +kernel)⟩⟩

theorem witness_StallsSkipsAndErrors :
    (∃ (s : State) (c : Fin 4) (e : _), Ready s c ∧ e < 256 ∧ (s.chan c).getB (pgPclu (e / 16)) PCLU.STALL_CFG_ENG_EN = true ∧ (s.chan c).anyHalted (e / 16) = false ∧ (engineTids e).all (fun t => (s.chan c).still t) = true ∧ (s.chan c).getF (pgPclu (e / 16)) PCLU.STALL_CFG_ACTION = 0) ∧
    (∃ (s : State) (c : Fin 4) (k : _), Ready s c ∧ k < 16 ∧ (s.chan c).getB (pgPclu k) PCLU.STALL_CFG_CLU_EN = true ∧ (s.chan c).anyHalted k = false ∧ (s.chan c).holders k ≠ [] ∧ ((s.chan c).holders k).all (fun t => (s.chan c).still t) = true ∧ (s.chan c).getF (pgPclu k) PCLU.STALL_CFG_ACTION = 0) ∧
    (∃ (s : State) (c : Fin 4) (t : _), Ready s c ∧ t < 2048 ∧ ((s.chan c).thr t).pkt.isSome = true) ∧
    (∃ (s : State) (c : Fin 4) (ctx : _) (at' : _), Ready s c ∧ ctx < 128 ∧ ((s.chan c).ro ctx).out.find? (fun e => e.1 == ((s.chan c).ro ctx).low) = some (((s.chan c).ro ctx).low, at')) ∧
    (∃ (s : State) (c : Fin 4) (k : _) (b : _) (i : _), Ready s c ∧ k < 16 ∧ b < 2 ∧ i < 4096) :=
  ⟨
    ⟨Wit.on (fun ch => ch |> Wit.at' 0 |>.putThr 130 { Wit.thread with st := 2, wfe := true, evPend := 0, evMask := 2, timer := 0, icount := 0 } |>.putB (pgPclu 1) PCLU.STALL_CFG_ENG_EN true |> fun ch => (engineTids 16).foldl (fun c t => if t = 130 then c else c.putThr t { Wit.thread with st := 2, wfe := true, evPend := 0, evMask := 2, timer := 0, icount := 0 }) ch), 1, (130 / 8), by delta Ready; decide +kernel⟩,
    ⟨Wit.on (fun ch => ch |> Wit.at' 0 |>.putThr 130 { Wit.thread with st := 2, wfe := true, evPend := 0, evMask := 2, timer := 0 } |>.putB (pgPclu 1) PCLU.STALL_CFG_CLU_EN true |>.putF (pgPclu 1) PCLU.STALL_CFG_ACTION 0), 1, 1, by delta Ready; decide +kernel⟩,
    ⟨Wit.on (fun ch => ch |> Wit.run' 0x02), 1, 130, by delta Ready; decide +kernel⟩,
    ⟨Wit.on (fun ch => ch |> fun ch => { ch with prs := { ro := [(3, { next := 6, low := 4, out := [(4, 7), (5, 9)] })] } }), 1, 3, 7, by delta Ready; decide +kernel⟩,
    ⟨Wit.on (fun ch => ch), 1, 0, 0, 0, by delta Ready; decide +kernel⟩⟩

theorem witness_DebuggingThreads :
    (∃ (s : State) (c : Fin 4), HostReady s c ∧ (s.chan c).enabled pgDbg = true ∧ ((s.chan c).thr ((s.chan c).getF pgDbg DBG.SEL_TID)).st ≠ 4) ∧
    (∃ (s : State) (c : Fin 4), HostReady s c ∧ (s.chan c).enabled pgDbg = true ∧ ((s.chan c).thr ((s.chan c).getF pgDbg DBG.SEL_TID)).st = 4 ∧ ((s.chan c).thr ((s.chan c).getF pgDbg DBG.SEL_TID)).prev = 1 ∧ ((s.chan c).thr ((s.chan c).getF pgDbg DBG.SEL_TID)).skipped = false) ∧
    (∃ (s : State) (c : Fin 4), HostReady s c ∧ (s.chan c).enabled pgDbg = true ∧ ((s.chan c).thr ((s.chan c).getF pgDbg DBG.SEL_TID)).st = 4 ∧ ((s.chan c).thr ((s.chan c).getF pgDbg DBG.SEL_TID)).prev = 2 ∧ ((s.chan c).thr ((s.chan c).getF pgDbg DBG.SEL_TID)).wfe = true ∧ Nat.land ((s.chan c).thr ((s.chan c).getF pgDbg DBG.SEL_TID)).evPend ((s.chan c).thr ((s.chan c).getF pgDbg DBG.SEL_TID)).evMask = 0 ∧ ((s.chan c).thr ((s.chan c).getF pgDbg DBG.SEL_TID)).pkt.isSome = true) ∧
    (∃ (s : State) (c : Fin 4), HostReady s c ∧ (s.chan c).enabled pgDbg = true ∧ ((s.chan c).thr ((s.chan c).getF pgDbg DBG.SEL_TID)).st = 4 ∧ ((s.chan c).thr ((s.chan c).getF pgDbg DBG.SEL_TID)).pkt.isSome = true) ∧
    (∃ (s : State) (c : Fin 4), HostReady s c ∧ (s.chan c).enabled pgDbg = true ∧ ((s.chan c).thr ((s.chan c).getF pgDbg DBG.SEL_TID)).st = 4 ∧ (s.chan c).getF pgDbg DBG.REG_IDX_INDEX < 16) ∧
    (∃ (s : State) (c : Fin 4), HostReady s c ∧ (s.chan c).enabled pgDbg = true) ∧
    (∃ (s : State) (c : Fin 4) (i : _), HostReady s c ∧ (s.chan c).enabled pgDbg = true ∧ i < 16) ∧
    (∃ (s : State) (c : Fin 4) (tid : _) (b : _), HostReady s c ∧ (s.chan c).enabled pgDbg = true ∧ tid < 2048 ∧ (s.chan c).bpMatch tid = some b ∧ ((s.chan c).thr tid).st = 1 ∧ (s.chan c).bpHalted (tid / 128) < (s.chan c).getF pgDbg DBG.CFG_HALT_LIMIT) ∧
    (∃ (s : State) (c : Fin 4) (k : _) (b : _) (i : _), HostReady s c ∧ (s.chan c).enabled pgDbg = true ∧ k < 16 ∧ b < 2 ∧ i < 4096) :=
  ⟨
    ⟨Wit.on (fun ch => ch |>.putB pgDbg CTRL_ENABLE true |>.putF pgDbg DBG.SEL_TID 130 |> Wit.run' 0x01), 1, by delta HostReady Ready; decide +kernel⟩,
    ⟨Wit.on (fun ch => ch |>.putB pgDbg CTRL_ENABLE true |>.putF pgDbg DBG.SEL_TID 130 |> Wit.run' 0x01 |>.putThr 130 { Wit.thread with st := 4, prev := 1, haltCause := 1 }), 1, by delta HostReady Ready; decide +kernel⟩,
    ⟨Wit.on (fun ch => ch |>.putB pgDbg CTRL_ENABLE true |>.putF pgDbg DBG.SEL_TID 130 |> Wit.run' 0x01 |>.putThr 130 { Wit.thread with st := 4, prev := 2, wfe := true, evPend := 0, evMask := 1 }), 1, by delta HostReady Ready; decide +kernel⟩,
    ⟨Wit.on (fun ch => ch |>.putB pgDbg CTRL_ENABLE true |>.putF pgDbg DBG.SEL_TID 130 |> Wit.run' 0x01 |>.putThr 130 { Wit.thread with st := 4, prev := 1, wfe := false, waitLock := if false then some 3 else none } |>.putF pgDbg DBG.REG_IDX_INDEX 0), 1, by delta HostReady Ready; decide +kernel⟩,
    ⟨Wit.on (fun ch => ch |>.putB pgDbg CTRL_ENABLE true |>.putF pgDbg DBG.SEL_TID 130 |> Wit.run' 0x01 |>.putThr 130 { Wit.thread with st := 4, prev := 1, wfe := false, waitLock := if false then some 3 else none } |>.putF pgDbg DBG.REG_IDX_INDEX 0), 1, by delta HostReady Ready; decide +kernel⟩,
    ⟨Wit.on (fun ch => ch |>.putB pgDbg CTRL_ENABLE true |>.putF pgDbg DBG.SEL_TID 130 |> Wit.run' 0x01), 1, by delta HostReady Ready; decide +kernel⟩,
    ⟨Wit.on (fun ch => ch |>.putB pgDbg CTRL_ENABLE true |>.putF pgDbg DBG.SEL_TID 130 |> Wit.run' 0x01), 1, 0, by delta HostReady Ready; decide +kernel⟩,
    ⟨Wit.on (fun ch => ch |>.putB pgDbg CTRL_ENABLE true |>.putF pgDbg DBG.SEL_TID 130 |> Wit.run' 0x01 |> fun ch => { ch with prs := { ch.prs with bps := [(130 / 8 * 4 + 1, BitVec.ofNat 32 (0xF0000000 + (Wit.thread).pc))] } } |>.putF pgDbg DBG.CFG_HALT_LIMIT 8), 1, 130, 1, by delta HostReady Ready; decide +kernel⟩,
    ⟨Wit.on (fun ch => ch |>.putB pgDbg CTRL_ENABLE true |>.putF pgDbg DBG.SEL_TID 130 |> Wit.run' 0x01 |> fun ch => { ch with prs := { ch.prs with bank0 := { ch.prs.bank0 with ptable := [(3, 77)] } } }), 1, 0, 0, (3), by delta HostReady Ready; decide +kernel⟩⟩

theorem witness_InstructionsInEveryState :
    (∃ (s : State) (c : Fin 4) (t : Nat) (n : Nat), Ready s c ∧ n < parseCommands.length ∧ (¬ AtOpcode (s.chan c) t ((parseCommands[n]?).getD (1, .pNop)).1 ∨ ((s.chan c).waits t = false ∧ (s.chan c).turn (t / 8) ≠ some t))) ∧
    (∃ (s : State) (c : Fin 4) (t : Nat) (n : Nat), Ready s c ∧ n < parseCommands.length ∧ AtOpcode (s.chan c) t ((parseCommands[n]?).getD (1, .pNop)).1 ∧ Undisturbed (s.chan c) t ∧ (s.chan c).waits t = true) ∧
    (∃ (s : State) (c : Fin 4) (t : Nat) (n : Nat), Ready s c ∧ n < parseCommands.length ∧ AtOpcode (s.chan c) t ((parseCommands[n]?).getD (1, .pNop)).1 ∧ Undisturbed (s.chan c) t ∧ (s.chan c).turn (t / 8) = some t ∧ ((s.chan c).thr t).maxInstr ≤ ((s.chan c).thr t).icount) ∧
    (∃ (s : State) (c : Fin 4) (t : Nat) (n : Nat), Ready s c ∧ n < parseCommands.length ∧ AtOpcode (s.chan c) t ((parseCommands[n]?).getD (1, .pNop)).1 ∧ Undisturbed (s.chan c) t ∧ (s.chan c).turn (t / 8) = some t ∧ ((s.chan c).thr t).icount < ((s.chan c).thr t).maxInstr ∧ (tget 0 (s.chan c).prs.poison (poisonKey (t / 128) (((s.chan c).thr t).pkt.getD {}).parity ((s.chan c).thr t).pc)) ≠ 0) ∧
    (∃ (s : State) (c : Fin 4) (t : Nat) (n : Nat), Ready s c ∧ n < parseCommands.length ∧ AtOpcode (s.chan c) t ((parseCommands[n]?).getD (1, .pNop)).1 ∧ Undisturbed (s.chan c) t ∧ (s.chan c).turn (t / 8) = some t ∧ ((s.chan c).thr t).icount < ((s.chan c).thr t).maxInstr ∧ (tget 0 (s.chan c).prs.poison (poisonKey (t / 128) (((s.chan c).thr t).pkt.getD {}).parity ((s.chan c).thr t).pc)) = 0 ∧ condHolds ((s.chan c).thr t).flags (iCond ((s.chan c).instrWord t)) = false) ∧
    (∃ (s : State) (c : Fin 4) (t : Nat) (n : Nat) (b : _), Ready s c ∧ n < parseCommands.length ∧ AtOpcode (s.chan c) t ((parseCommands[n]?).getD (1, .pNop)).1 ∧ (s.chan c).bpMatch t = some b ∧ (s.chan c).turn (t / 8) = some t ∧ (s.chan c).bpHalted (t / 128) < (s.chan c).getF pgDbg DBG.CFG_HALT_LIMIT) :=
  ⟨
    ⟨Wit.on (fun ch => ch |> Wit.run' ((parseCommands[0]?).getD (1, .pNop)).1 |> fun ch => if true then ch.putThr 130 { Wit.thread with st := 2 } else if false then ch.putB (pgPclu 1) CTRL_ENABLE false else Wit.run' 0x01 { ch with prs := { ch.prs with issued := [(16, 2)] } }), 1, 130, 0, by delta Ready; decide +kernel, by decide +kernel, Wit.notAtOpcode (by decide +kernel)⟩,
    ⟨Wit.on (fun ch => ch |> Wit.at' (0x10 * 2 ^ 120 + 2 ^ 108 * 3 + 2 ^ 112 * 3) |> fun ch => ch.putThr 130 { Wit.thread with looks := [(3, 4), (5, 6), (6, 6), (7, 7)], flags := 0 }), 1, 130, (8), by delta Ready; decide +kernel, by decide +kernel, Wit.atOpcode (by decide +kernel), Wit.undisturbed (by decide +kernel), by decide +kernel⟩,
    ⟨Wit.on (fun ch => ch |> Wit.run' ((parseCommands[0]?).getD (1, .pNop)).1 |> fun ch => ch.putThr 130 { Wit.thread with icount := 100, ctxNo := 3, seq := 6 }), 1, 130, 0, by delta Ready; decide +kernel, by decide +kernel, Wit.atOpcode (by decide +kernel), Wit.undisturbed (by decide +kernel), by decide +kernel⟩,
    ⟨Wit.on (fun ch => ch |> Wit.run' ((parseCommands[0]?).getD (1, .pNop)).1 |> fun ch => { ch with prs := { ch.prs with poison := [(poisonKey 1 0 (Wit.thread).pc, 1)] } }), 1, 130, 0, by delta Ready; decide +kernel, by decide +kernel, Wit.atOpcode (by decide +kernel), Wit.undisturbed (by decide +kernel), by decide +kernel⟩,
    ⟨Wit.on (fun ch => ch |> Wit.at' ((Wit.rw ((parseCommands[0]?).getD (1, .pNop)).1) / 2 ^ 120 * 2 ^ 120 + 2 ^ 116) |> fun ch => ch.putThr 130 { Wit.thread with flags := 0 }), 1, 130, 0, by delta Ready; decide +kernel, by decide +kernel, Wit.atOpcode (by decide +kernel), Wit.undisturbed (by decide +kernel), by decide +kernel⟩,
    ⟨Wit.on (fun ch => ch |> Wit.run' ((parseCommands[0]?).getD (1, .pNop)).1 |>.putB pgDbg CTRL_ENABLE true |> fun ch => { ch with prs := { ch.prs with bps := [(130 / 8 * 4 + 1, BitVec.ofNat 32 (0xF0000000 + (Wit.thread).pc))] } } |>.putF pgDbg DBG.CFG_HALT_LIMIT 8), 1, 130, 0, 1, by delta Ready; decide +kernel, by decide +kernel, Wit.atOpcode (by decide +kernel), by decide +kernel⟩⟩

theorem witness_LocksAndMailboxesInEveryState :
    (∃ (s : State) (c : Fin 4) (t : Nat), Ready s c ∧ CanIssue (s.chan c) t 0x28 ∧ ((s.chan c).lock (lockKey t (((s.chan c).thr t).indexed ((s.chan c).instrWord t) (nbits ((s.chan c).instrWord t) 9 0) % 1024))).holder = t + 1) ∧
    (∃ (s : State) (c : Fin 4) (t : Nat), Ready s c ∧ CanIssue (s.chan c) t 0x29 ∧ ((s.chan c).lock (lockKey t (((s.chan c).thr t).indexed ((s.chan c).instrWord t) (nbits ((s.chan c).instrWord t) 9 0) % 1024))).holder = t + 1) ∧
    (∃ (s : State) (c : Fin 4) (t : Nat), Ready s c ∧ CanIssue (s.chan c) t 0x28 ∧ ((s.chan c).lock (lockKey t (((s.chan c).thr t).indexed ((s.chan c).instrWord t) (nbits ((s.chan c).instrWord t) 9 0) % 1024))).holder ≠ t + 1 ∧ (8 ≤ ((s.chan c).locksOf t).length)) ∧
    (∃ (s : State) (c : Fin 4) (t : Nat), Ready s c ∧ CanIssue (s.chan c) t 0x29 ∧ ((s.chan c).lock (lockKey t (((s.chan c).thr t).indexed ((s.chan c).instrWord t) (nbits ((s.chan c).instrWord t) 9 0) % 1024))).holder = 0 ∧ (8 ≤ ((s.chan c).locksOf t).length)) ∧
    (∃ (s : State) (c : Fin 4) (t : Nat), Ready s c ∧ CanIssue (s.chan c) t 0x30 ∧ ((s.chan c).mbox (mboxKey t (((s.chan c).thr t).indexed ((s.chan c).instrWord t) (nbits ((s.chan c).instrWord t) 5 0) % 64))).st = 1 ∧ ((s.chan c).mbox (mboxKey t (((s.chan c).thr t).indexed ((s.chan c).instrWord t) (nbits ((s.chan c).instrWord t) 5 0) % 64))).owner = t) ∧
    (∃ (s : State) (c : Fin 4) (t : Nat), Ready s c ∧ CanIssue (s.chan c) t 0x30 ∧ ((((s.chan c).mbox (mboxKey t (((s.chan c).thr t).indexed ((s.chan c).instrWord t) (nbits ((s.chan c).instrWord t) 5 0) % 64))).st ≠ 1 ∨ ((s.chan c).mbox (mboxKey t (((s.chan c).thr t).indexed ((s.chan c).instrWord t) (nbits ((s.chan c).instrWord t) 5 0) % 64))).owner ≠ t)) ∧ ((((s.chan c).mbox (mboxKey t (((s.chan c).thr t).indexed ((s.chan c).instrWord t) (nbits ((s.chan c).instrWord t) 5 0) % 64))).st ≠ 0 ∨ (s.chan c).staging t ≠ none))) ∧
    (∃ (s : State) (c : Fin 4) (t : Nat), Ready s c ∧ CanIssue (s.chan c) t 0x31 ∧ ((((s.chan c).mbox (mboxKey t (((s.chan c).thr t).indexed ((s.chan c).instrWord t) (nbits ((s.chan c).instrWord t) 5 0) % 64))).st ≠ 1 ∨ ((s.chan c).mbox (mboxKey t (((s.chan c).thr t).indexed ((s.chan c).instrWord t) (nbits ((s.chan c).instrWord t) 5 0) % 64))).owner ≠ t))) ∧
    (∃ (s : State) (c : Fin 4) (t : Nat), Ready s c ∧ CanIssue (s.chan c) t 0x39 ∧ nbit ((s.chan c).instrWord t) 96 = true) ∧
    (∃ (s : State) (c : Fin 4) (t : Nat), Ready s c ∧ CanIssue (s.chan c) t 0x02 ∧ 0 < (((s.chan c).locksOf t).length + b2n ((s.chan c).staging t).isSome)) :=
  ⟨
    ⟨Wit.on (fun ch => ch |> Wit.at' (0x28 * 2 ^ 120 + 3) |> fun ch => ch.putLock (lockKey 130 3) { holder := 131, waiters := [9] }), 1, 130, by delta Ready; decide +kernel, Wit.canIssue (by decide +kernel), by decide +kernel⟩,
    ⟨Wit.on (fun ch => ch |> Wit.at' (0x29 * 2 ^ 120 + 3) |> fun ch => ch.putLock (lockKey 130 3) { holder := 131, waiters := [9] }), 1, 130, by delta Ready; decide +kernel, Wit.canIssue (by decide +kernel), by decide +kernel⟩,
    ⟨Wit.on (fun ch => ch |> Wit.at' (0x28 * 2 ^ 120 + 30) |> fun ch => (List.range 8).foldl (fun c i => c.putLock (lockKey 130 (2 * i)) { holder := 131 }) ch), 1, 130, by delta Ready; decide +kernel, Wit.canIssue (by decide +kernel), by decide +kernel⟩,
    ⟨Wit.on (fun ch => ch |> Wit.at' (0x29 * 2 ^ 120 + 30) |> fun ch => (List.range 8).foldl (fun c i => c.putLock (lockKey 130 (2 * i)) { holder := 131, waiters := if true then [] else [129] }) ch), 1, 130, by delta Ready; decide +kernel, Wit.canIssue (by decide +kernel), by decide +kernel⟩,
    ⟨Wit.on (fun ch => ch |> Wit.at' (0x30 * 2 ^ 120 + 3 + 256 * 0) |> fun ch => ch.putMbox (mboxKey 130 3) { st := 1, owner := 130, words := Vector.replicate 8 (BitVec.ofNat 64 0) }), 1, 130, by delta Ready; decide +kernel, Wit.canIssue (by decide +kernel), by decide +kernel⟩,
    ⟨Wit.on (fun ch => ch |> Wit.at' ((0x30) * 2 ^ 120 + 3) |> fun ch => ch.putMbox (mboxKey 130 3) { st := 2, owner := 131, words := Vector.replicate 8 (BitVec.ofNat 64 0) }), 1, 130, by delta Ready; decide +kernel, Wit.canIssue (by decide +kernel), by decide +kernel⟩,
    ⟨Wit.on (fun ch => ch |> Wit.at' ((0x30) * 2 ^ 120 + 3) |> fun ch => ch.putMbox (mboxKey 130 3) { st := 2, owner := 131, words := Vector.replicate 8 (BitVec.ofNat 64 0) } |> Wit.at' (0x31 * 2 ^ 120 + 3) |> fun ch => ch.putMbox (mboxKey 130 3) { st := 0, owner := 131, words := Vector.replicate 8 (BitVec.ofNat 64 0) }), 1, 130, by delta Ready; decide +kernel, Wit.canIssue (by decide +kernel), by decide +kernel⟩,
    ⟨Wit.on (fun ch => ch |> Wit.at' (0x39 * 2 ^ 120 + 2 ^ 96) |> fun ch => ch.putThr 140 { Wit.thread with st := 2, wfe := true, evMask := 0 }), 1, 130, by delta Ready; decide +kernel, Wit.canIssue (by decide +kernel), by decide +kernel⟩,
    ⟨Wit.on (fun ch => ch |> Wit.run' 0x02 |> fun ch => if true then ch.putMbox (mboxKey 130 3) { st := 1, owner := 130 } else ch.putLock (lockKey 130 3) { holder := 131, waiters := if false then [] else [129, 134] }), 1, 130, by delta Ready; decide +kernel, Wit.canIssue (by decide +kernel), by decide +kernel⟩⟩

theorem witness_ThreadEventsInEveryState :
    (∃ (s : State) (c : Fin 4) (t : Nat), Ready s c ∧ ((s.chan c).thr t).looks = []) ∧
    (∃ (s : State) (c : Fin 4) (t : Nat), Ready s c ∧ ((s.chan c).thr t).timer = 0) ∧
    (∃ (s : State) (c : Fin 4) (t : Nat), Ready s c ∧ ((s.chan c).thr t).waitLock = none) ∧
    (∃ (s : State) (c : Fin 4) (t : Nat) (n : _), Ready s c ∧ ((s.chan c).thr t).waitLock = some n ∧ ((s.chan c).lock (lockKey t n)).holder ≠ t + 1) ∧
    (∃ (s : State) (c : Fin 4) (t : Nat) (n : _), Ready s c ∧ ((s.chan c).thr t).waitLock = some n ∧ ((s.chan c).lock (lockKey t n)).holder = t + 1 ∧ ((s.chan c).thr t).st = 4 ∧ ((s.chan c).thr t).prev = 3) ∧
    (∃ (s : State) (c : Fin 4) (t : Nat), Ready s c ∧ (((s.chan c).thr t).wfe = false ∨ ((s.chan c).thr t).wake = 0)) ∧
    (∃ (s : State) (c : Fin 4) (t : Nat), Ready s c ∧ ((s.chan c).thr t).wfe = true ∧ ((s.chan c).thr t).wake ≠ 0 ∧ ((s.chan c).thr t).st = 4 ∧ ((s.chan c).thr t).prev = 2) ∧
    (∃ (s : State) (c : Fin 4) (t : Nat), Ready s c ∧ ((s.chan c).bpMatch t = none ∨ ((s.chan c).thr t).st ≠ 1)) ∧
    (∃ (s : State) (c : Fin 4) (t : Nat) (b : _), Ready s c ∧ (s.chan c).bpMatch t = some b ∧ ((s.chan c).thr t).st = 1 ∧ (s.chan c).getF pgDbg DBG.CFG_HALT_LIMIT ≤ (s.chan c).bpHalted (t / 128)) ∧
    (∃ (s : State) (c : Fin 4) (t : Nat), Ready s c ∧ 2048 ≤ t) ∧
    (∃ (s : State) (c : Fin 4) (t : Nat), Ready s c ∧ t < 2048 ∧ ((s.chan c).thr t).pkt = none) ∧
    (∃ (s : State) (c : Fin 4) (t : Nat) (k : _) (b : _), Ready s c ∧ (16 ≤ k ∨ 2 ≤ b ∨ 4096 ≤ t)) ∧
    (∃ (s : State) (c : Fin 4) (t : Nat), Ready s c ∧ ((s.chan c).ro t).out.find? (fun e => e.1 == ((s.chan c).ro t).low) = none) ∧
    (∃ (s : State) (c : Fin 4) (e : Nat), Ready s c ∧ (256 ≤ e ∨ (fun (k : Nat) => (s.chan c).getB (pgPclu k) PCLU.STALL_CFG_ENG_EN) (e / 16) = false ∨ (s.chan c).anyHalted (e / 16) = true ∨ (fun (ts : List Nat) => ts.all (fun t => (s.chan c).still t)) (engineTids e) = false)) ∧
    (∃ (s : State) (c : Fin 4) (e : Nat), Ready s c ∧ e < 256 ∧ (fun (k : Nat) => (s.chan c).getB (pgPclu k) PCLU.STALL_CFG_ENG_EN) (e / 16) = true ∧ (s.chan c).anyHalted (e / 16) = false ∧ (fun (ts : List Nat) => ts.all (fun t => (s.chan c).still t)) (engineTids e) = true ∧ (s.chan c).getF (pgPclu (e / 16)) PCLU.STALL_CFG_ACTION = 1) ∧
    (∃ (s : State) (c : Fin 4) (e : Nat), Ready s c ∧ (16 ≤ e ∨ (fun (k : Nat) => (s.chan c).getB (pgPclu k) PCLU.STALL_CFG_CLU_EN) e = false ∨ (s.chan c).anyHalted e = true ∨ (s.chan c).holders e = [] ∨ (fun (ts : List Nat) => ts.all (fun t => (s.chan c).still t)) ((s.chan c).holders e) = false)) ∧
    (∃ (s : State) (c : Fin 4) (e : Nat), Ready s c ∧ e < 16 ∧ (fun (k : Nat) => (s.chan c).getB (pgPclu k) PCLU.STALL_CFG_CLU_EN) e = true ∧ (s.chan c).anyHalted e = false ∧ (s.chan c).holders e ≠ [] ∧ (fun (ts : List Nat) => ts.all (fun t => (s.chan c).still t)) ((s.chan c).holders e) = true ∧ (s.chan c).getF (pgPclu e) PCLU.STALL_CFG_ACTION = 1) ∧
    (∃ (s : State) (c : Fin 4), Ready s c ∧ (((s.chan c).enabled pgDisp && (s.chan c).brewCurrent) = false ∨ ((s.chan c).prs.qEg = [] ∧ (s.chan c).prs.qIn = []))) ∧
    (∃ (s : State) (c : Fin 4) (k : Pkt) (q : List Pkt), Ready s c ∧ ((s.chan c).enabled pgDisp && (s.chan c).brewCurrent) = true ∧ (s.chan c).prs.qEg = k :: q ∧ (s.chan c).prs.qIn = [] ∧ (fun (k : Pkt) => (s.chan c).partThreads k.part < (s.chan c).getF pgDisp (DISP.PART_SHARE_MAX_THREADS k.part)) k ∧ (List.range 256).any (s.chan c).engOpen = false) ∧
    (∃ (s : State) (c : Fin 4) (k : Pkt) (q : List Pkt) (e : _), Ready s c ∧ ((s.chan c).enabled pgDisp && (s.chan c).brewCurrent) = true ∧ (s.chan c).prs.qEg = k :: q ∧ (s.chan c).prs.qIn = [] ∧ (fun (k : Pkt) => (s.chan c).partThreads k.part < (s.chan c).getF pgDisp (DISP.PART_SHARE_MAX_THREADS k.part)) k ∧ e < 256 ∧ (s.chan c).engOpen e = true ∧ (s.chan c).pickEngine true = some e ∧ (s.chan c).freeIn true e ≠ []) :=
  ⟨
    ⟨Wit.on (fun ch => ch |> Wit.run' 0x01), 1, 130, by delta Ready; decide +kernel⟩,
    ⟨Wit.on (fun ch => ch |> Wit.run' 0x01 |> fun ch => ch.putThr 130 { Wit.thread with timer := 0 }), 1, 130, by delta Ready; decide +kernel⟩,
    ⟨Wit.on (fun ch => ch |> Wit.run' 0x01), 1, 130, by delta Ready; decide +kernel⟩,
    ⟨Wit.on (fun ch => ch |> Wit.run' 0x01 |> fun ch => (ch.putThr 130 { Wit.thread with st := 3, waitLock := some 3 }).putLock (lockKey 130 3) { holder := 7 }), 1, 130, 3, by delta Ready; decide +kernel⟩,
    ⟨Wit.on (fun ch => ch |> Wit.run' 0x01 |> fun ch => (ch.putThr 130 { Wit.thread with st := 4, prev := 3, waitLock := some 3 }).putLock (lockKey 130 3) { holder := 131 }), 1, 130, 3, by delta Ready; decide +kernel⟩,
    ⟨Wit.on (fun ch => ch |> Wit.run' 0x01), 1, 130, by delta Ready; decide +kernel⟩,
    ⟨Wit.on (fun ch => ch |> Wit.run' 0x01 |> fun ch => ch.putThr 130 { Wit.thread with st := 4, prev := 2, wfe := true, wake := 1, evMask := 127 }), 1, 130, by delta Ready; decide +kernel⟩,
    ⟨Wit.on (fun ch => ch |> Wit.run' 0x01), 1, 130, by delta Ready; decide +kernel⟩,
    ⟨Wit.on (fun ch => ch |> Wit.run' 0x01 |>.putB pgDbg CTRL_ENABLE true |> fun ch => { ch with prs := { ch.prs with bps := [(130 / 8 * 4 + 1, BitVec.ofNat 32 (0xF0000000 + (Wit.thread).pc))] } } |>.putF pgDbg DBG.CFG_HALT_LIMIT 0), 1, 130, 1, by delta Ready; decide +kernel⟩,
    ⟨Wit.on (fun ch => ch |> Wit.run' 0x01), 1, 2048, by delta Ready; decide +kernel⟩,
    ⟨Wit.on (fun ch => ch |> Wit.run' 0x01 |> fun ch => ch.putThr 130 { Wit.thread with timer := 0 } |> fun ch => ch.putThr 130 {}), 1, 130, by delta Ready; decide +kernel⟩,
    ⟨Wit.on (fun ch => ch |> Wit.run' 0x01 |> fun ch => ch), 1, 0, (16), (2), by delta Ready; decide +kernel⟩,
    ⟨Wit.on (fun ch => ch |> Wit.run' 0x01), 1, 3, by delta Ready; decide +kernel⟩,
    ⟨Wit.on (fun ch => ch |> Wit.run' 0x01), 1, (16), by delta Ready; decide +kernel⟩,
    ⟨Wit.on (fun ch => ch |> Wit.run' 0x01 |> Wit.at' 0 |>.putThr 130 { Wit.thread with st := 2, wfe := true, evPend := 0, evMask := 2, timer := 0, icount := 0 } |>.putB (pgPclu 1) PCLU.STALL_CFG_ENG_EN true |>.putF (pgPclu 1) PCLU.STALL_CFG_ACTION 1 |> fun ch => (engineTids 16).foldl (fun c t => if t = 130 then c else c.putThr t { Wit.thread with st := 2, wfe := true, evPend := 0, evMask := 2, timer := 0, icount := 0 }) ch), 1, (130 / 8), by delta Ready; decide +kernel⟩,
    ⟨Wit.on (fun ch => ch |> Wit.run' 0x01), 1, (1), by delta Ready; decide +kernel⟩,
    ⟨Wit.on (fun ch => ch |> Wit.run' 0x01 |> Wit.at' 0 |>.putThr 130 { Wit.thread with st := 2, wfe := true, evPend := 0, evMask := 2, timer := 0 } |>.putB (pgPclu 1) PCLU.STALL_CFG_CLU_EN true |>.putF (pgPclu 1) PCLU.STALL_CFG_ACTION 1), 1, 1, by delta Ready; decide +kernel⟩,
    ⟨Wit.on (fun ch => ch |> Wit.run' 0x01), 1, by delta Ready; decide +kernel⟩,
    ⟨Wit.on (fun ch => ch |> Wit.run' 0x01 |>.putB pgDisp CTRL_ENABLE true |>.putF pgBrew BREW.STATUS_STATE 1 |> fun ch => { ch with prs := { qEg := [{ Wit.pkt with egress := true }, Wit.pkt] } } |> fun ch => (List.range 16).foldl (fun (c : Chan) k => c.putB (pgPclu k) CTRL_ENABLE false) ch), 1, { Wit.pkt with egress := true }, [Wit.pkt], by delta Ready; decide +kernel⟩,
    ⟨Wit.on (fun ch => ch |> Wit.run' 0x01 |>.putB pgDisp CTRL_ENABLE true |>.putF pgBrew BREW.STATUS_STATE 1 |> fun ch => { ch with prs := { qEg := [{ Wit.pkt with egress := true }, Wit.pkt] } } |> fun ch => ((List.range 16).foldl (fun (c : Chan) k => c.putB (pgPclu k) CTRL_ENABLE false) ch).putB (pgPclu 0) CTRL_ENABLE true |>.putF pgDisp DISP.CFG_EG_THREADS 24), 1, { Wit.pkt with egress := true }, [Wit.pkt], 0, by delta Ready; decide +kernel⟩⟩

theorem witness_DebuggingInEveryState :
    (∃ (s : State) (q : Req) (c : Fin 4), HostReady s c ∧ MayUse s q c false ∧ ((s.chan c).enabled pgDbg) = true ∧ ((s.chan c).thr ((s.chan c).getF pgDbg DBG.SEL_TID)).st = 4 ∧ ((s.chan c).thr ((s.chan c).getF pgDbg DBG.SEL_TID)).prev = 1 ∧ ((s.chan c).getF pgDbg DBG.SEL_TID) < 2048 ∧ (s.chan c).bpMatch ((s.chan c).getF pgDbg DBG.SEL_TID) = none ∧ ((s.chan c).thr ((s.chan c).getF pgDbg DBG.SEL_TID)).skipped = false ∧ (s.chan c).waits ((s.chan c).getF pgDbg DBG.SEL_TID) = false ∧ ((s.chan c).thr ((s.chan c).getF pgDbg DBG.SEL_TID)).icount < ((s.chan c).thr ((s.chan c).getF pgDbg DBG.SEL_TID)).maxInstr ∧ tget 0 (s.chan c).prs.poison (poisonKey (((s.chan c).getF pgDbg DBG.SEL_TID) / 128) (((s.chan c).thr ((s.chan c).getF pgDbg DBG.SEL_TID)).pkt.getD {}).parity ((s.chan c).thr ((s.chan c).getF pgDbg DBG.SEL_TID)).pc) = 0 ∧ ((s.chan c).thr ((s.chan c).getF pgDbg DBG.SEL_TID)).pkt.isSome = true ∧ iOpc ((s.chan c).instrWord ((s.chan c).getF pgDbg DBG.SEL_TID)) = 1 ∧ condHolds ((s.chan c).thr ((s.chan c).getF pgDbg DBG.SEL_TID)).flags (iCond ((s.chan c).instrWord ((s.chan c).getF pgDbg DBG.SEL_TID))) = true) ∧
    (∃ (s : State) (q : Req) (c : Fin 4), HostReady s c ∧ MayUse s q c false ∧ ((s.chan c).enabled pgDbg) = true ∧ ((s.chan c).thr ((s.chan c).getF pgDbg DBG.SEL_TID)).st = 4 ∧ ((s.chan c).thr ((s.chan c).getF pgDbg DBG.SEL_TID)).skipped = false) ∧
    (∃ (s : State) (q : Req) (c : Fin 4), HostReady s c ∧ MayUse s q c false ∧ ((s.chan c).enabled pgDbg) = true ∧ ((s.chan c).thr ((s.chan c).getF pgDbg DBG.SEL_TID)).st = 4) ∧
    (∃ (s : State) (q : Req) (c : Fin 4), HostReady s c ∧ MayUse s q c false ∧ ((s.chan c).enabled pgDbg) = true ∧ ((s.chan c).thr ((s.chan c).getF pgDbg DBG.SEL_TID)).st ≠ 4) ∧
    (∃ (s : State) (q : Req) (c : Fin 4), HostReady s c ∧ MayUse s q c false ∧ ((s.chan c).enabled pgDbg) = true ∧ ((s.chan c).thr ((s.chan c).getF pgDbg DBG.SEL_TID)).pkt = none) ∧
    (∃ (s : State) (q : Req) (c : Fin 4), HostReady s c ∧ MayUse s q c false ∧ ((s.chan c).enabled pgDbg) = true ∧ 0x1B < ((s.chan c).getF pgDbg DBG.REG_IDX_INDEX)) ∧
    (∃ (s : State) (q : Req) (c : Fin 4), HostReady s c ∧ MayUse s q c false ∧ ((s.chan c).enabled pgDbg) = true ∧ ((s.chan c).thr ((s.chan c).getF pgDbg DBG.SEL_TID)).st = 4 ∧ ((s.chan c).getF pgDbg DBG.REG_IDX_INDEX) ≤ 0x1B) ∧
    (∃ (s : State) (q : Req) (c : Fin 4), HostReady s c ∧ MayUse s q c false ∧ ((s.chan c).enabled pgDbg) = false) ∧
    (∃ (s : State) (q : Req) (c : Fin 4) (j : _), HostReady s c ∧ MayUse s q c false ∧ j ≤ 0x20) ∧
    (∃ (s : State) (q : Req) (c : Fin 4) (j : _), HostReady s c ∧ MayUse s q c false ∧ 0x20 < j ∧ j < 64) ∧
    (∃ (s : State) (q : Req) (c : Fin 4) (k : _) (b : _) (j : _), HostReady s c ∧ MayUse s q c false ∧ k < 16 ∧ b < 2 ∧ j < 4096) :=
  ⟨
    ⟨((Wit.on (fun ch => ch |>.putB pgDbg CTRL_ENABLE true |>.putF pgDbg DBG.SEL_TID 130 |> Wit.at' (0x01 * 2 ^ 120) |>.putThr 130 { Wit.thread with st := 4, prev := 1, haltCause := 1 })).onIsl (fun i => i.putB hpPwr PWRH.JTAG_STAT_UNLOCKED true)), (.func 0), 1, by delta MayUse HostReady Ready; decide +kernel⟩,
    ⟨((Wit.on (fun ch => ch |>.putB pgDbg CTRL_ENABLE true |>.putF pgDbg DBG.SEL_TID 130 |> Wit.run' 0x01 |>.putF pgDbg DBG.REG_IDX_INDEX 0 |>.putThr 130 { Wit.thread with st := 4, prev := 1, haltCause := 1, wfe := false, evPend := 0 })).onIsl (fun i => i.putB hpPwr PWRH.JTAG_STAT_UNLOCKED true)), (.func 0), 1, by delta MayUse HostReady Ready; decide +kernel⟩,
    ⟨((Wit.on (fun ch => ch |>.putB pgDbg CTRL_ENABLE true |>.putF pgDbg DBG.SEL_TID 130 |> Wit.run' 0x01 |>.putF pgDbg DBG.REG_IDX_INDEX 0 |>.putThr 130 { Wit.thread with st := 4, prev := 1, haltCause := 1, wfe := false, evPend := 0 })).onIsl (fun i => i.putB hpPwr PWRH.JTAG_STAT_UNLOCKED true)), (.func 0), 1, by delta MayUse HostReady Ready; decide +kernel⟩,
    ⟨((Wit.on (fun ch => ch |>.putB pgDbg CTRL_ENABLE true |>.putF pgDbg DBG.SEL_TID 130 |> Wit.run' 0x01 |>.putThr 130 { Wit.thread with st := 0 })).onIsl (fun i => i.putB hpPwr PWRH.JTAG_STAT_UNLOCKED true)), (.func 0), 1, by delta MayUse HostReady Ready; decide +kernel⟩,
    ⟨((Wit.on (fun ch => ch |>.putB pgDbg CTRL_ENABLE true |>.putF pgDbg DBG.SEL_TID 130 |> Wit.run' 0x01 |>.putThr 130 { st := 0 })).onIsl (fun i => i.putB hpPwr PWRH.JTAG_STAT_UNLOCKED true)), (.func 0), 1, by delta MayUse HostReady Ready; decide +kernel⟩,
    ⟨((Wit.on (fun ch => ch |>.putB pgDbg CTRL_ENABLE true |>.putF pgDbg DBG.SEL_TID 130 |> Wit.run' 0x01 |>.putThr 130 { Wit.thread with st := 0 } |>.putF pgDbg DBG.REG_IDX_INDEX 28)).onIsl (fun i => i.putB hpPwr PWRH.JTAG_STAT_UNLOCKED true)), (.func 0), 1, by delta MayUse HostReady Ready; decide +kernel⟩,
    ⟨((Wit.on (fun ch => ch |>.putB pgDbg CTRL_ENABLE true |>.putF pgDbg DBG.SEL_TID 130 |> Wit.run' 0x01 |>.putF pgDbg DBG.REG_IDX_INDEX 0 |>.putThr 130 { Wit.thread with st := 4, prev := 1, haltCause := 1, wfe := false, evPend := 0 })).onIsl (fun i => i.putB hpPwr PWRH.JTAG_STAT_UNLOCKED true)), (.func 0), 1, by delta MayUse HostReady Ready; decide +kernel⟩,
    ⟨((Wit.on (fun ch => ch |>.putB pgDbg CTRL_ENABLE false |>.putF pgDbg DBG.SEL_TID 130 |> Wit.run' 0x01 |>.putThr 130 { Wit.thread with st := 0 })).onIsl (fun i => i.putB hpPwr PWRH.JTAG_STAT_UNLOCKED true)), (.func 0), 1, by delta MayUse HostReady Ready; decide +kernel⟩,
    ⟨((Wit.on (fun ch => ch |>.putB pgDbg CTRL_ENABLE true |>.putF pgDbg DBG.SEL_TID 130 |> Wit.run' 0x01 |>.putF pgDbg DBG.REG_IDX_INDEX 0 |>.putThr 130 { Wit.thread with st := 4, prev := 1, haltCause := 1, wfe := false, evPend := 0 })).onIsl (fun i => i.putB hpPwr PWRH.JTAG_STAT_UNLOCKED true)), (.func 0), 1, 0, by delta MayUse HostReady Ready; decide +kernel⟩,
    ⟨((Wit.on (fun ch => ch |>.putB pgDbg CTRL_ENABLE true |>.putF pgDbg DBG.SEL_TID 130 |> Wit.run' 0x01 |>.putF pgDbg DBG.REG_IDX_INDEX 0 |>.putThr 130 { Wit.thread with st := 4, prev := 1, haltCause := 1, wfe := false, evPend := 0 })).onIsl (fun i => i.putB hpPwr PWRH.JTAG_STAT_UNLOCKED true)), (.func 0), 1, 33, by delta MayUse HostReady Ready; decide +kernel⟩,
    ⟨((Wit.on (fun ch => ch |>.putB pgDbg CTRL_ENABLE true |>.putF pgDbg DBG.SEL_TID 130 |> Wit.run' 0x01 |>.putF pgDbg DBG.REG_IDX_INDEX 0 |>.putThr 130 { Wit.thread with st := 4, prev := 1, haltCause := 1, wfe := false, evPend := 0 })).onIsl (fun i => i.putB hpPwr PWRH.JTAG_STAT_UNLOCKED true)), (.func 0), 1, 0, 0, (3), by delta MayUse HostReady Ready; decide +kernel⟩⟩

theorem witness_StrainerDistribution :
    (∃ (s : State) (c : Fin 4) (us : List Nat) (x : Parsed) (q : List Parsed), Ready s c ∧ (s.chan c).brewCurrent = true ∧ (s.chan c).usablePipes false = us ∧ us ≠ [] ∧ (s.chan c).strn.qIn = x :: q) ∧
    (∃ (s : State) (c : Fin 4), Ready s c ∧ (s.chan c).brewCurrent = true ∧ (s.chan c).usablePipes true = [] ∧ (s.chan c).strn.qEg ≠ []) :=
  ⟨
    ⟨Wit.on (fun ch => ch |>.putF pgBrew BREW.STATUS_STATE 1 |>.putB (pgStrn 2) CTRL_ENABLE true |>.putB (pgStrn 4) CTRL_ENABLE (0 != 0) |> fun ch => { ch with strn := { qIn := { pkt := { bytes := Wit.frame 46 } } :: List.replicate 0 { pkt := { bytes := Wit.frame 48 } } } }), 1, (((Wit.on (fun ch => ch |>.putF pgBrew BREW.STATUS_STATE 1 |>.putB (pgStrn 2) CTRL_ENABLE true |>.putB (pgStrn 4) CTRL_ENABLE (0 != 0) |> fun ch => { ch with strn := { qIn := { pkt := { bytes := Wit.frame 46 } } :: List.replicate 0 { pkt := { bytes := Wit.frame 48 } } } })).chan (1)).usablePipes false), ({ pkt := { bytes := Wit.frame 46 } } : Parsed), (List.replicate 0 { pkt := { bytes := Wit.frame 48 } }), by delta Ready; decide +kernel⟩,
    ⟨Wit.on (fun ch => ch |>.putF pgBrew BREW.STATUS_STATE 1 |> fun ch => { ch with strn := { qEg := List.replicate 1 { pkt := { egress := true } } } }), 1, by delta Ready; decide +kernel⟩⟩

theorem witness_StrainerStages :
    (∃ (s : State) (c : Fin 4) (pipe : Nat) (pos : Nat) (x : InPipe), Ready s c ∧ ((s.chan c).pipe pipe)[pos]? = some x ∧ x.next < 12 ∧ (s.chan c).cfgBad pipe x.pkt.parity x.next 0 = false ∧ nbit ((s.chan c).stageWord pipe x.pkt.parity x.next 0 4) 31 = false) ∧
    (∃ (s : State) (c : Fin 4) (pipe : Nat) (pos : Nat) (x : InPipe), Ready s c ∧ ((s.chan c).pipe pipe)[pos]? = some x ∧ x.next < 12 ∧ (s.chan c).cfgBad pipe x.pkt.parity x.next 0 = true ∧ x.dropReason = 0) ∧
    (∃ (s : State) (c : Fin 4) (pipe : Nat) (pos : Nat) (x : InPipe), Ready s c ∧ ((s.chan c).pipe pipe)[pos]? = some x ∧ x.next < 12 ∧ (s.chan c).strn.poison = [] ∧ nbit ((s.chan c).stageWord pipe x.pkt.parity x.next 0 4) 31 = true ∧ x.fault = false ∧ nbits ((s.chan c).stageWord pipe x.pkt.parity x.next 0 4) 29 27 = 0 ∧ nbits ((s.chan c).stageWord pipe x.pkt.parity x.next (0x100 + 64 * nbits ((s.chan c).stageWord pipe x.pkt.parity x.next 0 4) 5 0) 8) 63 58 = 0) :=
  ⟨
    ⟨Wit.on (fun ch => ch |> fun ch => { ch with strn := { pipes := [(2, [{ Wit.inp with next := 3 }])] } }), 1, 2, 0, { Wit.inp with next := 3 }, by delta Ready; decide +kernel⟩,
    ⟨Wit.on (fun ch => ch |> fun ch => { ch with strn := { pipes := [(2, [{ Wit.inp with next := 3 }])] } } |> fun ch => { ch with strn := { pipes := [(2, [{ Wit.inp with next := 3 }])], poison := [(cfgKey 2 0 (3 * 0x1100), true)] } }), 1, 2, 0, { Wit.inp with next := 3 }, by delta Ready; decide +kernel⟩,
    ⟨Wit.on (fun ch => ch |> fun ch => { ch with strn := { pipes := [(2, [{ Wit.inp with next := 3 }])] } } |> fun ch => { ch with prs := { bank0 := { strn := [((2 * 12 + 3) * 0x1100 + 3, 0x80)] } } }), 1, 2, 0, { Wit.inp with next := 3 }, by delta Ready; decide +kernel⟩⟩

theorem witness_StrainerVerdicts :
    (∃ (s : State) (c : Fin 4) (pipe : Nat) (x : InPipe) (l : List InPipe), Ready s c ∧ pipe < 6 ∧ (s.chan c).pipe pipe = x :: l ∧ 12 ≤ x.next ∧ (s.chan c).firstOut x = true ∧ x.tcDrop = false ∧ x.pkt.egress = false ∧ x.mirrors = [] ∧ x.sel = [] ∧ x.dropReason ≠ 0) ∧
    (∃ (s : State) (c : Fin 4) (pipe : Nat) (x : InPipe) (l : List InPipe), Ready s c ∧ pipe < 6 ∧ (s.chan c).pipe pipe = x :: l ∧ 12 ≤ x.next ∧ (s.chan c).firstOut x = true ∧ x.tcDrop = false ∧ x.pkt.egress = false ∧ x.mirrors = [] ∧ x.sel = [] ∧ x.dropReason = 0 ∧ x.punt = none ∧ x.puntCopies = [] ∧ x.destKind = 1 ∧ (s.chan c).bridged = true) :=
  ⟨
    ⟨Wit.on (fun ch => ch |> fun ch => { ch with strn := { pipes := [(2, [{ (Wit.inp.drop 1) with next := 12 }])] } }), 1, 2, { (Wit.inp.drop 1) with next := 12 }, [], by delta Ready; decide +kernel⟩,
    ⟨Wit.on (fun ch => ch |> fun ch => { ch with strn := { pipes := [(2, [{ (Wit.inp.setBits 662 2 1) with next := 12 }, Wit.inp])] } }), 1, 2, { (Wit.inp.setBits 662 2 1) with next := 12 }, [Wit.inp], by delta Ready; decide +kernel⟩⟩

theorem witness_StrainerInEveryState :
    (∃ (s : State) (c : Fin 4), Ready s c ∧ (s.chan c).brewCurrent = false) ∧
    (∃ (s : State) (c : Fin 4), Ready s c ∧ (s.chan c).brewCurrent = true) ∧
    (∃ (s : State) (c : Fin 4) (pipe : Nat) (pos : Nat), Ready s c ∧ ((s.chan c).pipe pipe)[pos]? = none) ∧
    (∃ (s : State) (c : Fin 4) (pipe : Nat) (pos : Nat) (x : InPipe), Ready s c ∧ ((s.chan c).pipe pipe)[pos]? = some x) ∧
    (∃ (s : State) (c : Fin 4) (pipe : Nat), Ready s c ∧ (s.chan c).pipe pipe = []) ∧
    (∃ (s : State) (c : Fin 4) (pipe : Nat) (x : InPipe) (l : List InPipe), Ready s c ∧ (s.chan c).pipe pipe = x :: l ∧ (x.next < 12 ∨ (s.chan c).firstOut x = false)) ∧
    (∃ (s : State) (c : Fin 4) (pipe : Nat) (x : InPipe) (l : List InPipe), Ready s c ∧ (s.chan c).pipe pipe = x :: l ∧ 12 ≤ x.next ∧ (s.chan c).firstOut x = true) ∧
    (∃ (s : State) (c : Fin 4) (pipe : Nat) (x : InPipe) (l : List InPipe), Ready s c ∧ 6 ≤ pipe ∧ pipe < 12 ∧ (s.chan c).pipe pipe = x :: l ∧ 12 ≤ x.next ∧ (s.chan c).firstOut x = true ∧ x.pkt.egress = true ∧ x.tcDrop = false ∧ x.dropReason = 0 ∧ x.punt = none ∧ x.mirrors = [] ∧ x.sel = [] ∧ x.puntCopies = [] ∧ (frameOf x.edited).length ≤ x.pkt.len + 128 ∧ (s.chan c).oper x.pkt.port = true ∧ x.pkt.downs = ((s.chan c).pw x.pkt.port).downs) :=
  ⟨
    ⟨Wit.on (fun ch => ch |> fun ch => { ch with strn := { qEg := List.replicate 1 { pkt := { egress := true } } } }), 1, by delta Ready; decide +kernel⟩,
    ⟨Wit.on (fun ch => ch |>.putF pgBrew BREW.STATUS_STATE 1 |>.putB (pgStrn 2) CTRL_ENABLE (0 != 0) |>.putB (pgStrn 8) CTRL_ENABLE true |> fun ch => { ch with strn := { qIn := List.replicate 0 { pkt := { bytes := Wit.frame 48 } }, qEg := List.replicate 1 { pkt := { egress := true, bytes := Wit.frame 48 } } } }), 1, by delta Ready; decide +kernel⟩,
    ⟨Wit.on (fun ch => ch), 1, 0, 3, by delta Ready; decide +kernel⟩,
    ⟨Wit.on (fun ch => ch |> fun ch => { ch with strn := { pipes := [(2, [{ Wit.inp with next := 0 }])] }, prs := { bank0 := { strn := [(24 * 0x1100 + 3, 0x80)] } } }), 1, 2, 0, { Wit.inp with next := 0 }, by delta Ready; decide +kernel⟩,
    ⟨Wit.on (fun ch => ch), 1, 0, by delta Ready; decide +kernel⟩,
    ⟨Wit.on (fun ch => ch |> fun ch => { ch with strn := { pipes := [(2, [{ Wit.inp with next := if true then 0 else 12, ord := 5 }]), (3, [{ Wit.inp with ord := 4 }])] } }), 1, 2, { Wit.inp with next := if true then 0 else 12, ord := 5 }, [], by delta Ready; decide +kernel⟩,
    ⟨Wit.on (fun ch => ch |> fun ch => { ch with strn := { pipes := [(2, [{ Wit.inp with next := 12, mirrors := [0] }, Wit.inp])] } }), 1, 2, { Wit.inp with next := 12, mirrors := [0] }, [Wit.inp], by delta Ready; decide +kernel⟩,
    ⟨Wit.on (fun ch => ch |> Wit.port 5 |> fun ch => { ch with strn := { pipes := [(8, [{ Wit.inp with next := 12, pkt := { Wit.inp.pkt with egress := true }, edits := [⟨1, 4, 0, 0⟩] }])] } }), 1, 8, { Wit.inp with next := 12, pkt := { Wit.inp.pkt with egress := true }, edits := [⟨1, 4, 0, 0⟩] }, [], by delta Ready; decide +kernel⟩⟩

theorem witness_TablesAreCreatedAndDestroyed :
    (∃ (s : State) (c : Fin 4) (t : Nat), HostReady s c ∧ t < 256 ∧ tblKind t ≠ 0 ∧ tblKind t ≠ 3 ∧ (s.chan c).tValid t = false ∧ (s.chan c).defLegal t = true ∧ (s.chan c).tReps t * (s.chan c).tSegs t ≤ (s.chan c).freeSegs.length ∧ ((tblKind t = 1 → (s.chan c).tdef t TBL.TDEF_ATTR_OVF_UNITS ≤ (s.chan c).ovfFree))) ∧
    (∃ (s : State) (c : Fin 4) (t : Nat), HostReady s c ∧ t < 256 ∧ tblKind t ≠ 0 ∧ (s.chan c).tValid t = true) ∧
    (∃ (s : State) (c : Fin 4) (t : Nat), HostReady s c ∧ t < 256 ∧ (s.chan c).tValid t = true) :=
  ⟨
    ⟨Wit.on (fun ch => ch |> Wit.tab 0 0), 1, 3, by delta HostReady Ready; decide +kernel⟩,
    ⟨Wit.on (fun ch => ch |> Wit.tab 0 1 |> Wit.ent { mask := 3 }), 1, 3, by delta HostReady Ready; decide +kernel⟩,
    ⟨Wit.on (fun ch => ch |> Wit.tab 0 1 |> Wit.ent { mask := 3 }), 1, 3, by delta HostReady Ready; decide +kernel⟩⟩

theorem witness_ExactMatchCommands :
    (∃ (s : State) (c : Fin 4) (t : Nat) (slot : _), EmReady s c t ∧ (s.chan c).emLost t (portKey (s.chan c) t) = false ∧ (s.chan c).emFind t (portKey (s.chan c) t) = [] ∧ (s.chan c).emFree t ((s.chan c).emBuckets t (portKey (s.chan c) t)).1 = some slot) ∧
    (∃ (s : State) (c : Fin 4) (t : Nat) (e : _), EmReady s c t ∧ (s.chan c).emLost t (portKey (s.chan c) t) = false ∧ (s.chan c).emFind t (portKey (s.chan c) t) = [e] ∧ e.2.mask = 3) ∧
    (∃ (s : State) (c : Fin 4) (t : Nat), EmReady s c t ∧ (s.chan c).emLost t (portKey (s.chan c) t) = false ∧ (s.chan c).emFind t (portKey (s.chan c) t) = []) :=
  ⟨
    ⟨Wit.on (fun ch => ch |> Wit.tab 0 1), 1, 3, ((((Wit.on (fun ch => ch |> Wit.tab 0 1)).chan (1)).emFree 3 (((Wit.on (fun ch => ch |> Wit.tab 0 1)).chan (1)).emBuckets 3 (portKey ((Wit.on (fun ch => ch |> Wit.tab 0 1)).chan (1)) 3)).1).getD 0), by delta EmReady HostReady Ready; decide +kernel, by decide +kernel, by decide +kernel, Wit.someGet (by decide +kernel)⟩,
    ⟨Wit.on (fun ch => ch |> Wit.tab 0 1 |> Wit.ent { mask := 3, age := 0, hit := true }), 1, 3, ((((Wit.on (fun ch => ch |> Wit.tab 0 1 |> Wit.ent { mask := 3, age := 0, hit := true })).chan (1)).emFind 3 (portKey ((Wit.on (fun ch => ch |> Wit.tab 0 1 |> Wit.ent { mask := 3, age := 0, hit := true })).chan (1)) 3)).headD (0, {})), by delta EmReady HostReady Ready; decide +kernel⟩,
    ⟨Wit.on (fun ch => ch |> Wit.tab 0 1), 1, 3, by delta EmReady HostReady Ready; decide +kernel⟩⟩

theorem witness_TableWalksFlushesAndAging :
    (∃ (s : State) (c : Fin 4) (t : Nat) (e : _), (EmReady s c t ∨ (HostReady s c ∧ t < 64 ∧ (s.chan c).tValid t = true ∧ (s.chan c).getB pgTbl ⟨TBL.CMD_STAT, 31, 31⟩ = false ∧ fld ((s.chan c).get pgTbl TBL.CMD_ARG) 31 30 = 1)) ∧ (fld ((s.chan c).get pgTbl TBL.CMD_ARG) 31 30) = 1 ∧ (s.chan c).emLost t (portKey (s.chan c) t) = false ∧ ((s.chan c).emFind t (portKey (s.chan c) t)).find? (fun e => nbit e.2.mask 0) = some e ∧ e.2.mask < 4 ∧ e.2.age < 4) ∧
    (∃ (s : State) (c : Fin 4) (t : Nat), (EmReady s c t ∨ (HostReady s c ∧ t < 64 ∧ (s.chan c).tValid t = true ∧ (s.chan c).getB pgTbl ⟨TBL.CMD_STAT, 31, 31⟩ = false ∧ fld ((s.chan c).get pgTbl TBL.CMD_ARG) 31 30 = 1)) ∧ (fld ((s.chan c).get pgTbl TBL.CMD_ARG) 31 30) = 1 ∧ (s.chan c).emLost t (portKey (s.chan c) t) = false ∧ ((s.chan c).emFind t (portKey (s.chan c) t)).find? (fun e => nbit e.2.mask 0) = none) ∧
    (∃ (s : State) (c : Fin 4) (t : Nat), (EmReady s c t ∨ (HostReady s c ∧ t < 64 ∧ (s.chan c).tValid t = true ∧ (s.chan c).getB pgTbl ⟨TBL.CMD_STAT, 31, 31⟩ = false ∧ fld ((s.chan c).get pgTbl TBL.CMD_ARG) 31 30 = 1)) ∧ (s.chan c).emAll t = []) ∧
    (∃ (s : State) (c : Fin 4) (t : Nat) (e : _) (rest : _), (EmReady s c t ∨ (HostReady s c ∧ t < 64 ∧ (s.chan c).tValid t = true ∧ (s.chan c).getB pgTbl ⟨TBL.CMD_STAT, 31, 31⟩ = false ∧ fld ((s.chan c).get pgTbl TBL.CMD_ARG) 31 30 = 1)) ∧ (s.chan c).emAll t = e :: rest ∧ Nat.land e.2.mask (fld ((s.chan c).get pgTbl TBL.CMD_ARG) 31 30) ≠ 0 ∧ (s.chan c).regBytes (TBL.MASK 0) 10 = List.replicate 40 0 ∧ e.1 < 2 ^ 32) ∧
    (∃ (s : State) (c : Fin 4) (t : Nat) (e : _) (rest : _), (EmReady s c t ∨ (HostReady s c ∧ t < 64 ∧ (s.chan c).tValid t = true ∧ (s.chan c).getB pgTbl ⟨TBL.CMD_STAT, 31, 31⟩ = false ∧ fld ((s.chan c).get pgTbl TBL.CMD_ARG) 31 30 = 1)) ∧ (s.chan c).emAll t = e :: rest ∧ Nat.land e.2.mask (fld ((s.chan c).get pgTbl TBL.CMD_ARG) 31 30) ≠ 0 ∧ (s.chan c).regBytes (TBL.MASK 0) 10 = List.replicate 40 0 ∧ e.1 < 2 ^ 32 ∧ (s.chan c).get64 pgTbl TBL.CURSOR % 2 ^ 32 ≤ e.1) ∧
    (∃ (s : State) (c : Fin 4) (t : Nat), (EmReady s c t ∨ (HostReady s c ∧ t < 64 ∧ (s.chan c).tValid t = true ∧ (s.chan c).getB pgTbl ⟨TBL.CMD_STAT, 31, 31⟩ = false ∧ fld ((s.chan c).get pgTbl TBL.CMD_ARG) 31 30 = 1)) ∧ (s.chan c).tbl.flushes.any (fun f => f.table == t) = false) ∧
    (∃ (s : State) (c : Fin 4) (t : Nat) (f : _), (EmReady s c t ∨ (HostReady s c ∧ t < 64 ∧ (s.chan c).tValid t = true ∧ (s.chan c).getB pgTbl ⟨TBL.CMD_STAT, 31, 31⟩ = false ∧ fld ((s.chan c).get pgTbl TBL.CMD_ARG) 31 30 = 1)) ∧ (s.chan c).tbl.flushes.find? (fun f => f.table == t) = some f) ∧
    (∃ (s : State) (c : Fin 4) (t : Nat) (e : _), (EmReady s c t ∨ (HostReady s c ∧ t < 64 ∧ (s.chan c).tValid t = true ∧ (s.chan c).getB pgTbl ⟨TBL.CMD_STAT, 31, 31⟩ = false ∧ fld ((s.chan c).get pgTbl TBL.CMD_ARG) 31 30 = 1)) ∧ (s.chan c).tdef t TBL.TDEF_ATTR_AGE = 1 ∧ (s.chan c).emAll t = [e] ∧ e.2.static = false ∧ e.2.hit = true) ∧
    (∃ (s : State) (c : Fin 4) (t : Nat) (e : _), (EmReady s c t ∨ (HostReady s c ∧ t < 64 ∧ (s.chan c).tValid t = true ∧ (s.chan c).getB pgTbl ⟨TBL.CMD_STAT, 31, 31⟩ = false ∧ fld ((s.chan c).get pgTbl TBL.CMD_ARG) 31 30 = 1)) ∧ (s.chan c).tdef t TBL.TDEF_ATTR_AGE = 1 ∧ (s.chan c).emAll t = [e] ∧ e.2.static = false ∧ e.2.hit = true ∧ (s.chan c).active.isSome = true ∧ (s.chan c).getF pgTbl (TBL.AGE_INTERVAL_S t) ≠ 0 ∧ (s.chan c).timeNs / 1000000000 % (s.chan c).getF pgTbl (TBL.AGE_INTERVAL_S t) = 0 ∧ tget 0 (s.chan c).tbl.swept t ≠ (s.chan c).timeNs / 1000000000 + 1) :=
  ⟨
    ⟨Wit.on (fun ch => ch |> Wit.tab 0 1 |> Wit.ent { mask := 3, age := 0, hit := true, static := true } |>.putF pgTbl TBL.CMD_ARG_MASK 1), 1, 3, ((((Wit.on (fun ch => ch |> Wit.tab 0 1 |> Wit.ent { mask := 3, age := 0, hit := true, static := true } |>.putF pgTbl TBL.CMD_ARG_MASK 1)).chan (1)).emFind 3 (portKey ((Wit.on (fun ch => ch |> Wit.tab 0 1 |> Wit.ent { mask := 3, age := 0, hit := true, static := true } |>.putF pgTbl TBL.CMD_ARG_MASK 1)).chan (1)) 3)).headD (0, {})), by delta EmReady HostReady Ready; decide +kernel⟩,
    ⟨Wit.on (fun ch => ch |> Wit.tab 0 1 |>.putF pgTbl TBL.CMD_ARG_MASK 1), 1, 3, by delta EmReady HostReady Ready; decide +kernel⟩,
    ⟨Wit.on (fun ch => ch |> Wit.tab 0 1), 1, 3, by delta EmReady HostReady Ready; decide +kernel⟩,
    ⟨Wit.on (fun ch => ch |> Wit.tab 0 1 |> Wit.ent { mask := 3 } |> fun ch => if true then ch else Wit.ent { mask := 1, static := true } (ch.putN pgTbl (TBL.KEY 0) 0x777)), 1, 3, ((((Wit.on (fun ch => ch |> Wit.tab 0 1 |> Wit.ent { mask := 3 } |> fun ch => if true then ch else Wit.ent { mask := 1, static := true } (ch.putN pgTbl (TBL.KEY 0) 0x777))).chan (1)).emAll 3).headD (0, {})), ((((Wit.on (fun ch => ch |> Wit.tab 0 1 |> Wit.ent { mask := 3 } |> fun ch => if true then ch else Wit.ent { mask := 1, static := true } (ch.putN pgTbl (TBL.KEY 0) 0x777))).chan (1)).emAll 3).tail), by delta EmReady HostReady Ready; decide +kernel⟩,
    ⟨Wit.on (fun ch => ch |> Wit.tab 0 1 |> Wit.ent { mask := 3 } |> fun ch => if true then ch else Wit.ent { mask := 1, static := true } (ch.putN pgTbl (TBL.KEY 0) 0x777)), 1, 3, ((((Wit.on (fun ch => ch |> Wit.tab 0 1 |> Wit.ent { mask := 3 } |> fun ch => if true then ch else Wit.ent { mask := 1, static := true } (ch.putN pgTbl (TBL.KEY 0) 0x777))).chan (1)).emAll 3).headD (0, {})), ((((Wit.on (fun ch => ch |> Wit.tab 0 1 |> Wit.ent { mask := 3 } |> fun ch => if true then ch else Wit.ent { mask := 1, static := true } (ch.putN pgTbl (TBL.KEY 0) 0x777))).chan (1)).emAll 3).tail), by delta EmReady HostReady Ready; decide +kernel⟩,
    ⟨Wit.on (fun ch => ch |> Wit.tab 0 1), 1, 3, by delta EmReady HostReady Ready; decide +kernel⟩,
    ⟨Wit.on (fun ch => ch |> Wit.tab 0 1 |> fun ch => (Wit.ent { mask := 3, stamp := 4, res := [1, 2, 3, 4, 5, 6, 2, 3] } ch) |> fun ch => { ch with tbl := { ch.tbl with flushes := [⟨4, 7, false, 2⟩, ⟨3, 0x0203, false, 5⟩] } } |>.putF pgTbl (TBL.TDEF_ATTR_PORT_OFF 3) 48), 1, 3, ⟨3, 0x0203, false, 5⟩, by delta EmReady HostReady Ready; decide +kernel⟩,
    ⟨Wit.on (fun ch => ch |> Wit.tab 0 1 |> Wit.ent { mask := 3, age := 0, hit := true } |>.putF pgTbl (TBL.TDEF_ATTR_AGE 3) 1), 1, 3, ((((Wit.on (fun ch => ch |> Wit.tab 0 1 |> Wit.ent { mask := 3, age := 0, hit := true } |>.putF pgTbl (TBL.TDEF_ATTR_AGE 3) 1)).chan (1)).emAll 3).headD (0, {})), by delta EmReady HostReady Ready; decide +kernel⟩,
    ⟨Wit.on (fun ch => ch |> Wit.tab 0 1 |> Wit.ent { mask := 3, age := 0, hit := true } |>.putF pgTbl (TBL.TDEF_ATTR_AGE 3) 1 |> Wit.kp 0 4 0x80 |>.putF pgTbl (TBL.AGE_INTERVAL_S 3) 5 |> fun ch => { ch with time := 10 * 1000000000 * 65536 }), 1, 3, ((((Wit.on (fun ch => ch |> Wit.tab 0 1 |> Wit.ent { mask := 3, age := 0, hit := true } |>.putF pgTbl (TBL.TDEF_ATTR_AGE 3) 1 |> Wit.kp 0 4 0x80 |>.putF pgTbl (TBL.AGE_INTERVAL_S 3) 5 |> fun ch => { ch with time := 10 * 1000000000 * 65536 })).chan (1)).emAll 3).headD (0, {})), by delta EmReady HostReady Ready; decide +kernel⟩⟩

theorem witness_LearnFlushScrubsAndDivergence :
    (∃ (s : State) (c : Fin 4), HostReady s c) ∧
    (∃ (s : State) (c : Fin 4) (t : _) (rep : _) (line : _), HostReady s c ∧ (s.chan c).tValid t = true ∧ tblKind t ≠ 3 ∧ (s.chan c).tdef t TBL.TDEF_CFG_PROT ≠ 1 ∧ rep < (s.chan c).tReps t ∧ (s.chan c).lineSeg t rep line ≠ 0) ∧
    (∃ (s : State) (c : Fin 4) (t : _) (rep : _) (line : _), HostReady s c ∧ (s.chan c).tValid t = true ∧ tblKind t ≠ 3 ∧ (s.chan c).tdef t TBL.TDEF_CFG_PROT ≠ 1 ∧ rep < (s.chan c).tReps t ∧ (s.chan c).lineSeg t rep line ≠ 0 ∧ (s.chan c).active = none ∧ (s.chan c).getB pgTbl TBL.BANK_CFG_AUTO_ROTATE = false) ∧
    (∃ (s : State) (c : Fin 4) (t : Nat) (i : Nat) (e : TernEnt), HostReady s c ∧ ((s.chan c).ternAll t)[i]? = some e) ∧
    (∃ (s : State) (c : Fin 4) (t : Nat) (i : Nat) (e : TernEnt), HostReady s c ∧ ((s.chan c).ternAll t)[i]? = some e ∧ (s.chan c).active = none) ∧
    (∃ (s : State) (c : Fin 4) (t : _), HostReady s c ∧ t < 256 ∧ (s.chan c).active.isSome = true ∧ (s.chan c).tValid t = true ∧ tget (0, 0) (s.chan c).tbl.shadow t ≠ (0, 0) ∧ (s.chan c).tdef t TBL.TDEF_CFG_AUTO_REPAIR = 0) :=
  ⟨
    ⟨Wit.on (fun ch => ch |> fun ch => { ch with tbl := { filter := [⟨3, [1], 2, 3, 4, true⟩, ⟨3, [2], 2, 3, 4, false⟩] } }), 1, by delta HostReady Ready; decide +kernel⟩,
    ⟨Wit.on (fun ch => ch |> Wit.tab 0 1 |>.putB pgTbl TBL.BANK_CFG_AUTO_ROTATE false), 1, 3, 0, 5, by delta HostReady Ready; decide +kernel⟩,
    ⟨Wit.on (fun ch => ch |> Wit.tab 0 1 |>.putB pgTbl TBL.BANK_CFG_AUTO_ROTATE false), 1, 3, 0, 5, by delta HostReady Ready; decide +kernel⟩,
    ⟨Wit.on (fun ch => ch |> Wit.tern), 1, 0x55, 0, ((((Wit.on (fun ch => ch |> Wit.tern)).chan (1)).ternAll 0x55).getD 0 ⟨0, 0, 0, 0, 0, 0, false⟩), by delta HostReady Ready; decide +kernel⟩,
    ⟨Wit.on (fun ch => ch |> Wit.tern), 1, 0x55, 0, ((((Wit.on (fun ch => ch |> Wit.tern)).chan (1)).ternAll 0x55).getD 0 ⟨0, 0, 0, 0, 0, 0, false⟩), by delta HostReady Ready; decide +kernel⟩,
    ⟨Wit.on (fun ch => ch |> Wit.kp 0 4 0x80 |> Wit.tab 0 1 |> fun ch => { ch with tbl := { ch.tbl with shadow := [(3, (4096, 100))] } }), 1, 3, by delta HostReady Ready; decide +kernel⟩⟩

theorem witness_BankAndShadowServices :
    (∃ (s : State) (c : Fin 4) (k : Fin 2) (tag : Nat) (d : _), SvcReady s c k tag ∧ ((s.chan c).svcArg k.val 0) < 68 ∧ (s.chan c).bankState ((s.chan c).svcArg k.val 0) = 1 ∧ (s.chan c).spareBank = some d) ∧
    (∃ (s : State) (c : Fin 4) (k : Fin 2) (tag : Nat), SvcReady s c k tag ∧ ((s.chan c).svcArg k.val 0) < 68 ∧ (s.chan c).bankState ((s.chan c).svcArg k.val 0) = 4) ∧
    (∃ (s : State) (c : Fin 4) (k : Fin 2) (tag : Nat), SvcReady s c k tag ∧ ((s.chan c).svcArg k.val 0) < 68) ∧
    (∃ (s : State) (c : Fin 4) (k : Fin 2) (tag : Nat), SvcReady s c k tag ∧ (s.chan c).tValid ((s.chan c).svcArg k.val 2 % 256) = true ∧ (s.chan c).tdef ((s.chan c).svcArg k.val 2 % 256) TBL.TDEF_CFG_PROT ≠ 0) ∧
    (∃ (s : State) (c : Fin 4) (k : Fin 2) (tag : Nat) (found : _), SvcReady s c k tag ∧ (s.chan c).tValid (((s.chan c).svcArg k.val 0) % 256) = true ∧ s.hostReach c = true ∧ found < 2 ^ 32) ∧
    (∃ (s : State) (c : Fin 4) (k : Fin 2) (tag : Nat), SvcReady s c k tag ∧ (s.chan c).tValid (((s.chan c).svcArg k.val 0) % 256) = true ∧ s.hostReach c = true ∧ tget (0, 0) (s.chan c).tbl.shadow (((s.chan c).svcArg k.val 0) % 256) = (0, 0) ∧ (s.chan c).tbl.poison = []) ∧
    (∃ (s : State) (c : Fin 4) (b : Nat) (x : BankRot), Ready s c ∧ (s.chan c).tbl.rots.find? (fun x => x.src == b) = some x ∧ b < 68 ∧ x.dst < 68 ∧ x.dst ≠ b ∧ (s.chan c).active.isSome = true) :=
  ⟨
    ⟨Wit.on (fun ch => ch |> Wit.svc [5, 0, 3, 64]), 1, (Fin.ofNat 2 0), (5 % 256), (((Wit.on (fun ch => ch |> Wit.svc [5, 0, 3, 64])).chan (1)).spareBank.getD 0), by delta SvcReady HostReady Ready; decide +kernel⟩,
    ⟨Wit.on (fun ch => ch |> Wit.svc [5, 0, 3, 64] |>.putF pgTbl (TBL.BANK_STAT_STATE 5) 4), 1, (Fin.ofNat 2 0), (5 % 256), by delta SvcReady HostReady Ready; decide +kernel⟩,
    ⟨Wit.on (fun ch => ch |> Wit.svc [5, 0, 3, 64] |> Wit.tab 0 1), 1, (Fin.ofNat 2 0), (5 % 256), by delta SvcReady HostReady Ready; decide +kernel⟩,
    ⟨Wit.on (fun ch => ch |> Wit.svc [5, 0, 3, 64] |> Wit.tab (2) 1), 1, (Fin.ofNat 2 0), (5 % 256), by delta SvcReady HostReady Ready; decide +kernel⟩,
    ⟨Wit.on (fun ch => ch |> Wit.svc [5, 0, 3, 64] |> Wit.tab 0 1 |>.putN (pgKeep 0) (KEEP.SVC_ARG 0) 3), 1, (Fin.ofNat 2 0), (5 % 256), 0, by delta SvcReady HostReady Ready; decide +kernel⟩,
    ⟨Wit.on (fun ch => ch |> Wit.svc [5, 0, 3, 64] |> Wit.tab 0 1 |>.putN (pgKeep 0) (KEEP.SVC_ARG 0) 3), 1, (Fin.ofNat 2 0), (5 % 256), by delta SvcReady HostReady Ready; decide +kernel⟩,
    ⟨Wit.on (fun ch => ch |> Wit.svc [5, 0, 3, 64] |> Wit.kp 0 4 0x80 |> Wit.tab 0 1 |> fun ch => { ch with tbl := { ch.tbl with rots := [⟨5, 66, true⟩] } }), 1, 5, ⟨5, 66, true⟩, by delta Ready; decide +kernel⟩⟩

theorem witness_TableCommandsOfEveryKind :
    (∃ (s : State) (c : Fin 4) (q : Req) (kport : Bool) (t : Nat), t < 256 ∧ (((kport = false ∧ HostReady s c ∧ q = .func 0) ∨ (kport = true ∧ ∃ k : Fin 2, KeeperReady s c k ∧ q = keeperReq k)))) ∧
    (∃ (s : State) (c : Fin 4) (q : Req) (kport : Bool) (t : Nat), t < 256 ∧ (((kport = false ∧ HostReady s c ∧ q = .func 0) ∨ (kport = true ∧ ∃ k : Fin 2, KeeperReady s c k ∧ q = keeperReq k))) ∧ ((s.chan c).getB pgTbl ⟨TBL.CMD_STAT + (if kport then 0x400 else 0), 31, 31⟩ = false)) :=
  ⟨
    ⟨Wit.on (fun ch => ch |> fun ch => Wit.kp 0 4 0x80 (Wit.tab 0 1 ch)), 1, (.func 0), false, (3), by delta KeeperReady HostReady Ready; decide +kernel⟩,
    ⟨Wit.on (fun ch => ch |> fun ch => Wit.kp 0 4 0x80 (Wit.tab 0 1 ch)), 1, (.func 0), false, (3), by delta KeeperReady HostReady Ready; decide +kernel⟩⟩

theorem witness_TableEventsInEveryState :
    (∃ (s : State) (c : Fin 4) (t : Nat), Ready s c ∧ (s.chan c).tbl.flushes.find? (fun f => f.table == t) = none) ∧
    (∃ (s : State) (c : Fin 4) (t : Nat) (f : _), Ready s c ∧ (s.chan c).tbl.flushes.find? (fun f => f.table == t) = some f) ∧
    (∃ (s : State) (c : Fin 4) (t : Nat), Ready s c ∧ ((s.chan c).active = none ∨ (s.chan c).tValid t = false ∨ tblKind t ≠ 1)) ∧
    (∃ (s : State) (c : Fin 4) (t : Nat), Ready s c ∧ ((s.chan c).tValid t = false ∨ tblKind t = 3 ∨ (s.chan c).tdef t TBL.TDEF_CFG_PROT = 1)) ∧
    (∃ (s : State) (c : Fin 4) (t : Nat) (rep : _) (line : _), Ready s c ∧ (s.chan c).tValid t = true ∧ tblKind t ≠ 3 ∧ (s.chan c).tdef t TBL.TDEF_CFG_PROT ≠ 1 ∧ rep < (s.chan c).tReps t ∧ (s.chan c).lineSeg t rep line ≠ 0) ∧
    (∃ (s : State) (c : Fin 4) (t : Nat) (i : Nat), Ready s c ∧ ((s.chan c).ternAll t)[i]? = none) ∧
    (∃ (s : State) (c : Fin 4) (t : Nat) (i : _), Ready s c ∧ i < ((s.chan c).ternAll t).length) ∧
    (∃ (s : State) (c : Fin 4) (t : Nat), Ready s c ∧ (s.chan c).active.isSome = true ∧ (s.chan c).tValid t = true ∧ 1 < (s.chan c).tReps t) ∧
    (∃ (s : State) (c : Fin 4) (t : Nat), Ready s c ∧ (s.chan c).active.isSome = true ∧ (s.chan c).tValid t = true ∧ tget (0, 0) (s.chan c).tbl.shadow t ≠ (0, 0) ∧ (s.chan c).tdef t TBL.TDEF_CFG_AUTO_REPAIR = 1) ∧
    (∃ (s : State) (c : Fin 4) (t : Nat), Ready s c ∧ ((s.chan c).active = none ∨ (s.chan c).tValid t = false)) ∧
    (∃ (s : State) (c : Fin 4) (t : Nat), Ready s c ∧ (s.chan c).tbl.rots.find? (fun x => x.src == t) = none) ∧
    (∃ (s : State) (c : Fin 4), Ready s c ∧ (s.chan c).active = none) ∧
    (∃ (s : State) (c : Fin 4), HostReady s c) ∧
    (∃ (s : State) (c : Fin 4) (k : Fin 2) (tag : Nat), SvcReady s c k tag ∧ 68 ≤ ((s.chan c).svcArg k.val 0)) ∧
    (∃ (s : State) (c : Fin 4) (k : Fin 2) (tag : Nat), SvcReady s c k tag ∧ ((s.chan c).svcArg k.val 0) < 68 ∧ ((s.chan c).bankState ((s.chan c).svcArg k.val 0) ≠ 1 ∨ (s.chan c).spareBank = none)) ∧
    (∃ (s : State) (c : Fin 4) (k : Fin 2) (tag : Nat), SvcReady s c k tag ∧ ((s.chan c).svcArg k.val 0) < 68 ∧ (s.chan c).bankState ((s.chan c).svcArg k.val 0) ≠ 4) ∧
    (∃ (s : State) (c : Fin 4) (k : Fin 2) (tag : Nat), SvcReady s c k tag ∧ (s.chan c).tValid ((s.chan c).svcArg k.val 2 % 256) = false) ∧
    (∃ (s : State) (c : Fin 4) (k : Fin 2) (tag : Nat), SvcReady s c k tag ∧ (s.chan c).tValid (((s.chan c).svcArg k.val 0) % 256) = false) ∧
    (∃ (s : State) (c : Fin 4) (k : Fin 2) (tag : Nat), SvcReady s c k tag ∧ (s.chan c).tValid (((s.chan c).svcArg k.val 0) % 256) = true) ∧
    (∃ (s : State) (c : Fin 4) (k : Fin 2) (tag : Nat), SvcReady s c k tag ∧ (s.chan c).tValid (((s.chan c).svcArg k.val 0) % 256) = true ∧ s.hostReach c = true) :=
  ⟨
    ⟨Wit.on (fun ch => ch |> fun ch => Wit.kp 0 4 0x80 (Wit.tab 2 1 ch)), 1, (3), by delta Ready; decide +kernel⟩,
    ⟨Wit.on (fun ch => ch |> fun ch => Wit.kp 0 4 0x80 (Wit.tab 2 1 ch) |> fun ch => { ch with tbl := { ch.tbl with flushes := [⟨4, 7, false, 2⟩, ⟨3, 0x0203, false, 5⟩] } }), 1, 3, ⟨3, 0x0203, false, 5⟩, by delta Ready; decide +kernel⟩,
    ⟨Wit.on (fun ch => ch |> fun ch => Wit.kp 0 4 0x80 (Wit.tab 2 1 ch)), 1, (0x80), by delta Ready; decide +kernel⟩,
    ⟨Wit.on (fun ch => ch |> fun ch => Wit.kp 0 4 0x80 (Wit.tab 2 1 ch)), 1, (0x80), by delta Ready; decide +kernel⟩,
    ⟨Wit.on (fun ch => ch |> fun ch => Wit.kp 0 4 0x80 (Wit.tab 2 1 ch) |> Wit.tab 0 1), 1, 3, 0, 5, by delta Ready; decide +kernel⟩,
    ⟨Wit.on (fun ch => ch |> fun ch => Wit.kp 0 4 0x80 (Wit.tab 2 1 ch)), 1, (3), 7, by delta Ready; decide +kernel⟩,
    ⟨Wit.on (fun ch => ch |> fun ch => Wit.kp 0 4 0x80 (Wit.tab 2 1 ch) |> Wit.tern), 1, 0x55, 0, by delta Ready; decide +kernel⟩,
    ⟨Wit.on (fun ch => ch |> fun ch => Wit.kp 0 4 0x80 (Wit.tab 2 1 ch) |> Wit.tab 3 1), 1, 3, by delta Ready; decide +kernel⟩,
    ⟨Wit.on (fun ch => ch |> fun ch => Wit.kp 0 4 0x80 (Wit.tab 2 1 ch) |>.putF pgTbl (TBL.TDEF_CFG_AUTO_REPAIR 3) 1 |>.putF pgTbl (TBL.TDEF_CFG_AUTO_REPAIR 0x41) 1 |>.putF pgTbl (TBL.TDEF_CFG_AUTO_REPAIR 0x55) 1 |>.putF pgTbl (TBL.TDEF_CFG_AUTO_REPAIR 0x80) 1 |> fun ch => { ch with tbl := { ch.tbl with shadow := [(3, (4096, 100)), (0x41, (8192, 100)), (0x55, (8192, 100)), (0x80, (8192, 100))] } }), 1, (3), by delta Ready; decide +kernel⟩,
    ⟨Wit.on (fun ch => ch |> fun ch => Wit.kp 0 4 0x80 (Wit.tab 2 1 ch)), 1, 7, by delta Ready; decide +kernel⟩,
    ⟨Wit.on (fun ch => ch |> fun ch => Wit.kp 0 4 0x80 (Wit.tab 2 1 ch)), 1, (3), by delta Ready; decide +kernel⟩,
    ⟨Wit.on (fun ch => ch |> fun ch => Wit.kp 0 4 0x80 (Wit.tab 2 1 ch) |> Wit.kp 0 3 0 |> fun ch => { ch with tbl := { ch.tbl with rots := [⟨3, 66, true⟩] } }), 1, by delta Ready; decide +kernel⟩,
    ⟨Wit.on (fun ch => ch |> fun ch => Wit.kp 0 4 0x80 (Wit.tab 2 1 ch) |> fun ch => { ch with tbl := { ch.tbl with filter := [⟨3, [1], 2, 3, 4, true⟩, ⟨3, [2], 2, 3, 4, false⟩] } }), 1, by delta HostReady Ready; decide +kernel⟩,
    ⟨Wit.on (fun ch => ch |> fun ch => Wit.kp 0 4 0x80 (Wit.tab 2 1 ch) |> Wit.svc [68, 0, 3, 64]), 1, (Fin.ofNat 2 0), (5 % 256), by delta SvcReady HostReady Ready; decide +kernel⟩,
    ⟨Wit.on (fun ch => ch |> fun ch => Wit.kp 0 4 0x80 (Wit.tab 2 1 ch) |> Wit.svc [5, 0, 3, 64] |>.putF pgTbl (TBL.BANK_STAT_STATE 5) 4), 1, (Fin.ofNat 2 0), (5 % 256), by delta SvcReady HostReady Ready; decide +kernel⟩,
    ⟨Wit.on (fun ch => ch |> fun ch => Wit.kp 0 4 0x80 (Wit.tab 2 1 ch) |> Wit.svc [5, 0, 3, 64]), 1, (Fin.ofNat 2 0), (5 % 256), by delta SvcReady HostReady Ready; decide +kernel⟩,
    ⟨Wit.on (fun ch => ch |> fun ch => Wit.kp 0 4 0x80 (Wit.tab 2 1 ch) |> Wit.svc [5, 0, 7, 64]), 1, (Fin.ofNat 2 0), (5 % 256), by delta SvcReady HostReady Ready; decide +kernel⟩,
    ⟨Wit.on (fun ch => ch |> fun ch => Wit.kp 0 4 0x80 (Wit.tab 2 1 ch) |> Wit.svc [7, 0, 7, 64]), 1, (Fin.ofNat 2 0), (5 % 256), by delta SvcReady HostReady Ready; decide +kernel⟩,
    ⟨Wit.on (fun ch => ch |> fun ch => Wit.kp 0 4 0x80 (Wit.tab 2 1 ch) |> fun ch => Wit.svc [3, 0, 7, 64] ch), 1, (Fin.ofNat 2 0), (5 % 256), by delta SvcReady HostReady Ready; decide +kernel⟩,
    ⟨Wit.on (fun ch => ch |> fun ch => Wit.kp 0 4 0x80 (Wit.tab 2 1 ch) |> fun ch => Wit.svc [3, 0, 7, 64] ch), 1, (Fin.ofNat 2 0), (5 % 256), by delta SvcReady HostReady Ready; decide +kernel⟩⟩

theorem witness_FlexeGroupsAndCalendars :
    (∃ (s : State) (c : Fin 4) (g : Nat) (k : _), g < 8 ∧ Ready s c ∧ (s.chan c).isMember g k = true) ∧
    (∃ (s : State) (c : Fin 4) (g : Nat), g < 8 ∧ Ready s c ∧ (s.chan c).grpDefect g = none ∧ (s.chan c).grpState g ≠ 3) ∧
    (∃ (s : State) (c : Fin 4) (g : Nat) (target : _), g < 8 ∧ target < 2 ∧ HostReady s c ∧ target ≠ (s.chan c).txLetter g ∧ (s.chan c).getB pgFlex (FLEX.GRP_STAT_PENDING g) = false ∧ (s.chan c).grpState g = 3) ∧
    (∃ (s : State) (c : Fin 4) (g : Nat) (target : _), g < 8 ∧ target < 2 ∧ HostReady s c ∧ target ≠ (s.chan c).txLetter g ∧ (s.chan c).getB pgFlex (FLEX.GRP_STAT_PENDING g) = false ∧ (s.chan c).grpState g ≠ 3) ∧
    (∃ (s : State) (c : Fin 4) (g : Nat), g < 8 ∧ Ready s c ∧ (s.chan c).getB pgFlex (FLEX.GRP_STAT_PENDING g) = true ∧ ((s.chan c).grp g).ready = true) ∧
    (∃ (s : State) (c : Fin 4) (g : Nat), g < 8 ∧ Ready s c ∧ (s.chan c).getB pgFlex (FLEX.GRP_STAT_PENDING g) = true ∧ ((s.chan c).grp g).ready = false) ∧
    (∃ (s : State) (c : Fin 4) (g : Nat) (n : _), g < 8 ∧ Ready s c ∧ n < 128 ∧ (s.chan c).enabled pgFlex = true ∧ (s.chan c).getB pgFlex (FLEX.CLIENT_CFG_EN n) = true ∧ (s.chan c).getB pgFlex (FLEX.CLIENT_CFG_MODE n) = false) :=
  ⟨
    ⟨Wit.on (fun ch => ch |> Wit.flex 3), 1, 2, 0, by delta Ready; decide +kernel⟩,
    ⟨Wit.on (fun ch => ch |> Wit.flex 3 |> Wit.flex 2), 1, 2, by delta Ready; decide +kernel⟩,
    ⟨Wit.on (fun ch => ch |> Wit.flex 3 |> fun ch => if true then ch.putB pgFlex (FLEX.GRP_CFG_HANDSHAKE 2) true else ch), 1, 2, 1, by delta HostReady Ready; decide +kernel⟩,
    ⟨Wit.on (fun ch => ch |> Wit.flex 3 |> Wit.flex 2), 1, 2, 1, by delta HostReady Ready; decide +kernel⟩,
    ⟨Wit.on (fun ch => ch |> Wit.flex 3 |>.putB pgFlex (FLEX.GRP_STAT_PENDING 2) true |>.putB pgFlex (FLEX.GRP_CFG_HANDSHAKE 2) true |>.putGrp 2 { target := 1, ready := true }), 1, 2, by delta Ready; decide +kernel⟩,
    ⟨Wit.on (fun ch => ch |> Wit.flex 3 |>.putB pgFlex (FLEX.GRP_STAT_PENDING 2) true |>.putB pgFlex (FLEX.GRP_CFG_HANDSHAKE 2) true |>.putGrp 2 { target := 1, ready := false }), 1, 2, by delta Ready; decide +kernel⟩,
    ⟨Wit.on (fun ch => ch |> Wit.flex 3 |>.putB pgFlex (FLEX.CLIENT_CFG_EN 3) true |>.putF pgFlex (FLEX.CLIENT_CFG_GROUP 3) 2 |>.putF pgFlex (FLEX.CLIENT_CFG_PORT 3) 40 |>.putPortF 40 LINE.PORT_CFG_KIND 2), 1, 2, 3, by delta Ready; decide +kernel⟩⟩

theorem witness_SlotSwitchPages :
    (∃ (s : State) (c : Fin 4) (g : Nat) (page : _) (slot : _), g < 8 ∧ HostReady s c ∧ page < 2 ∧ slot < 640 ∧ page ≠ ((s.chan c).getF pgSlot (SLOT.GRP_STAT_ACTIVE_PAGE g))) ∧
    (∃ (s : State) (c : Fin 4) (g : Nat) (page : _) (slot : _), g < 8 ∧ HostReady s c ∧ page < 2 ∧ slot < 640 ∧ page = ((s.chan c).getF pgSlot (SLOT.GRP_STAT_ACTIVE_PAGE g))) ∧
    (∃ (s : State) (c : Fin 4) (g : Nat), g < 8 ∧ HostReady s c) ∧
    (∃ (s : State) (c : Fin 4) (g : Nat), g < 8 ∧ HostReady s c ∧ (s.chan c).follows g = false) ∧
    (∃ (s : State) (c : Fin 4) (g : Nat), g < 8 ∧ HostReady s c ∧ (s.chan c).follows g = true ∧ bit ((s.chan c).get pgSlot (SLOT.GRP_CTRL g)) 30 = false) ∧
    (∃ (s : State) (c : Fin 4) (g : Nat), g < 8 ∧ Ready s c ∧ (s.chan c).enabled pgSlot = true ∧ ((s.chan c).grp g).validating = true) ∧
    (∃ (s : State) (c : Fin 4) (g : Nat), g < 8 ∧ Ready s c ∧ (s.chan c).enabled pgSlot = true ∧ (s.chan c).grpOn g = true ∧ ((s.chan c).grp g).pageReq = true) ∧
    (∃ (s : State) (c : Fin 4) (g : Nat) (slot : _), g < 8 ∧ Ready s c ∧ (s.chan c).enabled pgSlot = true ∧ slot < 640 ∧ (s.chan c).grpOn g = true ∧ (s.chan c).getB pgSlot (SLOT.GRP_STAT_FB_ACTIVE g) = false) :=
  ⟨
    ⟨Wit.on (fun ch => ch |> Wit.flex 3 |>.putB pgSlot CTRL_ENABLE true |>.putF pgSlot (SLOT.GRP_STAT_ACTIVE_PAGE 2) 0), 1, 2, 1, (639), by delta HostReady Ready; decide +kernel⟩,
    ⟨Wit.on (fun ch => ch |> Wit.flex 3 |>.putB pgSlot CTRL_ENABLE true |>.putF pgSlot (SLOT.GRP_STAT_ACTIVE_PAGE 2) 1), 1, 2, 1, (639), by delta HostReady Ready; decide +kernel⟩,
    ⟨Wit.on (fun ch => ch |> Wit.flex 3 |>.putB pgSlot CTRL_ENABLE true), 1, 2, by delta HostReady Ready; decide +kernel⟩,
    ⟨Wit.on (fun ch => ch |> Wit.flex 3 |>.putB pgSlot CTRL_ENABLE true), 1, 2, by delta HostReady Ready; decide +kernel⟩,
    ⟨Wit.on (fun ch => ch |> Wit.flex 3 |>.putB pgSlot CTRL_ENABLE true |>.putB pgSlot (SLOT.GRP_CTRL_FOLLOW_CAL 2) true), 1, 2, by delta HostReady Ready; decide +kernel⟩,
    ⟨Wit.on (fun ch => ch |> Wit.flex 3 |>.putB pgSlot CTRL_ENABLE true |>.putGrp 2 { validating := true } |>.put pgSlot (0x4000 + 4 * connIdx 2 1 3) (BitVec.ofNat 32 (2 ^ 30 * 0))), 1, 2, by delta Ready; decide +kernel⟩,
    ⟨Wit.on (fun ch => ch |> Wit.flex 3 |>.putB pgSlot CTRL_ENABLE true |>.putGrp 2 { pageReq := true }), 1, 2, by delta Ready; decide +kernel⟩,
    ⟨Wit.on (fun ch => ch |> Wit.flex 3 |>.putB pgSlot CTRL_ENABLE true), 1, 2, (639), by delta Ready; decide +kernel⟩⟩

theorem witness_PerformanceMonitoring :
    (∃ (s : State) (c : Fin 4) (step : Bool), Ready s c ∧ (s.chan c).enabled pgPm = true ∧ (s.chan c).getB pgPm PM.CFG_EN = true ∧ step = decide ((s.chan c).flex.pmStep ≠ 0)) ∧
    (∃ (s : State) (c : Fin 4) (k : Fin 2), KeeperReady s c k) ∧
    (∃ (s : State) (c : Fin 4) (k : Fin 2) (tag : _) (e : _), SvcReady s c k tag ∧ pmEntity ((s.chan c).svcArg k.val 0) = some e ∧ nbits ((s.chan c).svcArg k.val 1) 4 0 = 0) ∧
    (∃ (s : State) (c : Fin 4) (k : Fin 2) (tag : _) (e : _), SvcReady s c k tag ∧ pmEntity ((s.chan c).svcArg k.val 0) = some e) :=
  ⟨
    ⟨Wit.on (fun ch => ch |>.putB pgPm CTRL_ENABLE true |>.putB pgPm PM.CFG_EN true |> fun ch => { ch with time := 12345 * 65536 * 1000000, flex := { ch.flex with pmStep := if true then 100 else 0 } }), 1, true, by delta Ready; decide +kernel⟩,
    ⟨Wit.on (fun ch => ch |>.putB pgPm CTRL_ENABLE true |>.putB pgPm PM.CFG_EN true |> Wit.kp 0 4 0x80 |> fun ch => { ch with flex := { pmAcked := false, pmLost := true } }), 1, 0, by delta KeeperReady Ready; decide +kernel⟩,
    ⟨Wit.on (fun ch => ch |>.putB pgPm CTRL_ENABLE true |>.putB pgPm PM.CFG_EN true |> Wit.svc [2 ^ 30 + 5, 2 ^ 8] |> fun ch => ch.putCtl 0 { pm := [(37, { cur24 := { es := 3, ses := 1, uas := 7 }, run := [{ es := true, ses := true, sec := 5 }] })] }), 1, 0, (5 % 256), 37, by delta SvcReady HostReady Ready; decide +kernel⟩,
    ⟨Wit.on (fun ch => ch |>.putB pgPm CTRL_ENABLE true |>.putB pgPm PM.CFG_EN true |> Wit.svc [2 ^ 30 + 5, 2 ^ 8] |> fun ch => ch.putCtl 0 { pm := [(37, { cur24 := { es := 3, ses := 1, uas := 7 }, run := [{ es := true, ses := true, sec := 5 }] })] }), 1, 0, (5 % 256), 37, by delta SvcReady HostReady Ready; decide +kernel⟩⟩

theorem witness_FlexeCommandsInEveryState :
    (∃ (s : State) (c : Fin 4) (g : Nat) (k : Nat), g < 8 ∧ Ready s c ∧ (s.chan c).isMember g k = false) ∧
    (∃ (s : State) (c : Fin 4) (g : Nat) (k : _) (j : _) (id : _), g < 8 ∧ Ready s c ∧ (s.chan c).isMember g k = true ∧ (s.chan c).slotMember g j = some k ∧ id < 65536) ∧
    (∃ (s : State) (c : Fin 4) (g : Nat), g < 8 ∧ Ready s c ∧ (s.chan c).grpDefect g ≠ none) ∧
    (∃ (s : State) (c : Fin 4) (g : Nat), g < 8 ∧ Ready s c ∧ (s.chan c).grpState g = 3) ∧
    (∃ (s : State) (c : Fin 4) (g : Nat), g < 8 ∧ Ready s c ∧ (s.chan c).grpDefect g = none) ∧
    (∃ (s : State) (c : Fin 4) (g : Nat), g < 8 ∧ Ready s c ∧ ((s.chan c).getB pgFlex (FLEX.GRP_STAT_PENDING g) = false ∨ ((s.chan c).grp g).ready = false)) ∧
    (∃ (s : State) (c : Fin 4) (g : Nat), g < 8 ∧ Ready s c ∧ ((s.chan c).getB pgFlex (FLEX.GRP_STAT_PENDING g) = false ∨ ((s.chan c).grp g).ready = true)) ∧
    (∃ (s : State) (c : Fin 4) (g : Nat) (n : Nat), g < 8 ∧ Ready s c ∧ (128 ≤ n ∨ (s.chan c).getB pgFlex (FLEX.CLIENT_CFG_EN n) = false ∨ (s.chan c).getB pgFlex (FLEX.CLIENT_CFG_MODE n) = true)) ∧
    (∃ (s : State) (c : Fin 4) (g : Nat) (n : Nat), g < 8 ∧ Ready s c ∧ n < 128 ∧ (s.chan c).getB pgFlex (FLEX.CLIENT_CFG_EN n) = true ∧ (s.chan c).getB pgFlex (FLEX.CLIENT_CFG_MODE n) = false) ∧
    (∃ (s : State) (c : Fin 4) (g : Nat), g < 8 ∧ Ready s c ∧ ((s.chan c).enabled pgSlot = false ∨ ((s.chan c).grp g).validating = false)) ∧
    (∃ (s : State) (c : Fin 4) (g : Nat), g < 8 ∧ Ready s c ∧ ((s.chan c).enabled pgSlot = false ∨ (s.chan c).grpOn g = false ∨ ((s.chan c).grp g).pageReq = false)) ∧
    (∃ (s : State) (c : Fin 4) (g : Nat) (slot : _), g < 8 ∧ Ready s c ∧ ((s.chan c).enabled pgSlot = false ∨ (s.chan c).grpOn g = false ∨ 640 ≤ slot ∨ (s.chan c).getB pgSlot (SLOT.GRP_STAT_FB_ACTIVE g) = true)) ∧
    (∃ (s : State) (c : Fin 4) (g : Nat), g < 8 ∧ Ready s c ∧ (s.chan c).enabled pgSlot = true ∧ (s.chan c).grpOn g = true ∧ ((s.chan c).grp g).pageReq = true) ∧
    (∃ (s : State) (c : Fin 4) (g : Nat) (target : _), g < 8 ∧ HostReady s c ∧ target < 2 ∧ (s.chan c).getB pgFlex (FLEX.GRP_STAT_PENDING g) = true) ∧
    (∃ (s : State) (c : Fin 4) (g : Nat) (target : _), g < 8 ∧ HostReady s c ∧ target < 2 ∧ target = (s.chan c).txLetter g ∧ (s.chan c).grpState g = 3 ∧ (s.chan c).getB pgFlex (FLEX.GRP_STAT_PENDING g) = false) :=
  ⟨
    ⟨Wit.on (fun ch => ch |> Wit.flex (3)), 1, 2, (3), by delta Ready; decide +kernel⟩,
    ⟨Wit.on (fun ch => ch |> Wit.flex (3) |> fun ch => if true then ch else { ch with flex := { ch.flex with turning := [(1280, true)] } }), 1, 2, 0, 0, (0), by delta Ready; decide +kernel⟩,
    ⟨Wit.on (fun ch => ch |> Wit.flex (3) |>.putB pgFlex (FLEX.MEMBER_STAT_LOF 2 0) true), 1, 2, by delta Ready; decide +kernel⟩,
    ⟨Wit.on (fun ch => ch |> Wit.flex (3) |> Wit.flex 3), 1, 2, by delta Ready; decide +kernel⟩,
    ⟨Wit.on (fun ch => ch |> Wit.flex (3)), 1, 2, by delta Ready; decide +kernel⟩,
    ⟨Wit.on (fun ch => ch |> Wit.flex (3) |>.putB pgFlex (FLEX.GRP_STAT_PENDING 2) true), 1, 2, by delta Ready; decide +kernel⟩,
    ⟨Wit.on (fun ch => ch |> Wit.flex (3) |>.putB pgFlex (FLEX.GRP_STAT_PENDING 2) true |>.putGrp 2 { target := 1, ready := true }), 1, 2, by delta Ready; decide +kernel⟩,
    ⟨Wit.on (fun ch => ch |> Wit.flex (3)), 1, 2, 3, by delta Ready; decide +kernel⟩,
    ⟨Wit.on (fun ch => ch |> Wit.flex (3) |>.putB pgFlex (FLEX.CLIENT_CFG_EN 3) true |>.putF pgFlex (FLEX.CLIENT_CFG_GROUP 3) 2 |>.putF pgFlex (FLEX.CLIENT_CFG_PORT 3) 40 |>.putPortF 40 LINE.PORT_CFG_KIND 2), 1, 2, 3, by delta Ready; decide +kernel⟩,
    ⟨Wit.on (fun ch => ch |> Wit.flex (3)), 1, 2, by delta Ready; decide +kernel⟩,
    ⟨Wit.on (fun ch => ch |> Wit.flex (3)), 1, 2, by delta Ready; decide +kernel⟩,
    ⟨Wit.on (fun ch => ch |> Wit.flex (3) |>.putB pgSlot (SLOT.GRP_STAT_FB_ACTIVE 2) (0 != 0)), 1, 2, (640), by delta Ready; decide +kernel⟩,
    ⟨Wit.on (fun ch => ch |> Wit.flex (3) |>.putB pgSlot CTRL_ENABLE true |>.putGrp 2 { pageReq := true } |>.putB pgSlot (SLOT.GRP_STAT_STBY_VALID 2) true |>.putB pgSlot (SLOT.GRP_STAT_FB_ACTIVE 2) true), 1, 2, by delta Ready; decide +kernel⟩,
    ⟨Wit.on (fun ch => ch |> Wit.flex (3) |>.putB pgFlex (FLEX.GRP_STAT_PENDING 2) true), 1, 2, 0, by delta HostReady Ready; decide +kernel⟩,
    ⟨Wit.on (fun ch => ch |> Wit.flex (3) |> Wit.flex 3), 1, 2, 0, by delta HostReady Ready; decide +kernel⟩⟩

theorem witness_MonitoringInEveryState :
    (∃ (s : State) (c : Fin 4) (step : Bool), Ready s c ∧ ((s.chan c).enabled pgPm = false ∨ (s.chan c).getB pgPm PM.CFG_EN = false ∨ step ≠ decide ((s.chan c).flex.pmStep ≠ 0))) ∧
    (∃ (s : State) (c : Fin 4) (k : Fin 2), KeeperReady s c k) ∧
    (∃ (s : State) (c : Fin 4) (k : Fin 2) (tag : Nat), SvcReady s c k tag ∧ (pmEntity ((s.chan c).svcArg k.val 0) = none ∨ 16 < nbits ((s.chan c).svcArg k.val 1) 4 0)) ∧
    (∃ (s : State) (c : Fin 4) (k : Fin 2) (tag : Nat), SvcReady s c k tag ∧ pmEntity ((s.chan c).svcArg k.val 0) = none) ∧
    (∃ (s : State) (c : Fin 4) (k : Fin 2) (tag : Nat) (e : _), SvcReady s c k tag ∧ pmEntity ((s.chan c).svcArg k.val 0) = some e ∧ nbits ((s.chan c).svcArg k.val 1) 4 0 ≤ 16) :=
  ⟨
    ⟨Wit.on (fun ch => ch), 1, true, by delta Ready; decide +kernel⟩,
    ⟨Wit.on (fun ch => ch |> Wit.kp 0 4 0x80 |>.putB pgPm CTRL_ENABLE true |>.putB pgPm PM.CFG_EN true |> fun ch => { ch with flex := { pmAcked := true, pmLost := true } }), 1, 0, by delta KeeperReady Ready; decide +kernel⟩,
    ⟨Wit.on (fun ch => ch |> fun ch => Wit.svc ([2 ^ 31 + 2 ^ 30 + 5, 2 ^ 8]) ch), 1, 0, (5 % 256), by delta SvcReady HostReady Ready; decide +kernel⟩,
    ⟨Wit.on (fun ch => ch |> Wit.svc [2 ^ 31 + 2 ^ 30 + 5, 2 ^ 8]), 1, 0, (5 % 256), by delta SvcReady HostReady Ready; decide +kernel⟩,
    ⟨Wit.on (fun ch => ch |> fun ch => Wit.svc [if false then 5 else 2 ^ 30 + 5, 256] ch |> fun ch => ch.putCtl 0 { pm := [(37, { cur24 := { es := 3, ses := 1, uas := 7 }, hist24 := [{ es := 1 }] })] }), 1, 0, (5 % 256), (37), by delta SvcReady HostReady Ready; decide +kernel⟩⟩

theorem witness_BuffersAreGranted :
    (∃ (s : State) (c : Fin 4) (req : _) (h : _) (r : _), Ready s c ∧ (s.chan c).caddyOn = true ∧ (s.chan c).cad.reqs.find? (fun r => r.requester == req && r.pool.isNone) = some r ∧ (s.chan c).allocTurn req ((s.chan c).firstPool r.pkt) = true ∧ (s.chan c).judgeAlloc ((s.chan c).chargeTo r.pkt) ((s.chan c).firstPool r.pkt) (unitsOf ((s.chan c).firstPool r.pkt) r.pkt.len) = .grant ∧ (s.chan c).grantable ((s.chan c).firstPool r.pkt) h = true) ∧
    (∃ (s : State) (c : Fin 4) (req : _) (h : _) (r : _), Ready s c ∧ (s.chan c).caddyOn = true ∧ (s.chan c).cad.reqs.find? (fun r => r.requester == req && r.pool.isSome) = some r ∧ (s.chan c).allocTurn req (r.pool.getD 0) = true ∧ (s.chan c).judgeAlloc ((s.chan c).chargeTo r.pkt) (r.pool.getD 0) (unitsOf (r.pool.getD 0) r.pkt.len) = .grant ∧ (s.chan c).grantable (r.pool.getD 0) h = true) ∧
    (∃ (s : State) (c : Fin 4) (h : _), Ready s c ∧ (s.chan c).caddyOn = true ∧ ((s.chan c).buf h).inUse = true ∧ ((s.chan c).buf h).written = false ∧ ((s.chan c).buf h).pkt.reasm = 0 ∧ (s.chan c).ackWaits h = false) :=
  ⟨
    ⟨Wit.on (fun ch => ch |> Wit.cad |> fun ch => { ch with cad := { reqs := [⟨3, Wit.ipkt 0 0, none⟩] } }), 1, 3, (2 ^ 29 + 5), ⟨3, Wit.ipkt 0 0, none⟩, by delta Ready; decide +kernel⟩,
    ⟨Wit.on (fun ch => ch |> Wit.cad |> fun ch => { ch with cad := { reqs := [⟨3, Wit.ipkt 0 0, none⟩] } } |> Wit.reg 1 1 |> fun ch => { ch with cad := { ch.cad with reqs := [⟨3, Wit.ipkt 0 0, some 1⟩] } }), 1, 3, (5 * 8192 + 3), ⟨3, Wit.ipkt 0 0, some 1⟩, by delta Ready; decide +kernel⟩,
    ⟨Wit.on (fun ch => ch |> Wit.cad |> fun ch => { ch with cad := { reqs := [⟨3, Wit.ipkt 0 0, none⟩] } } |> Wit.reg 1 1 |>.putBuf (5 * 8192 + 3) { inUse := true, owner := 17, pool := 1, units := 1, pkt := Wit.ipkt 0 0 }), 1, (5 * 8192 + 3), by delta Ready; decide +kernel⟩⟩

theorem witness_PacketsAreAdmitted :
    (∃ (s : State) (c : Fin 4) (h : Nat), Ready s c ∧ ((s.chan c).buf h).inUse = true ∧ ((s.chan c).buf h).written = true ∧ ((s.chan c).buf h).waiting = true ∧ ((s.chan c).buf h).refs = 0 ∧ (((s.chan c).buf h).pkt).egress = false ∧ (s.chan c).admitCheck (((s.chan c).buf h).pkt).voq (pcIndex 0 (((s.chan c).buf h).pkt).inPort (((s.chan c).buf h).pkt).tc) (((s.chan c).buf h).pkt).len none = none ∧ (s.chan c).holdDisc (pcIndex 0 (((s.chan c).buf h).pkt).inPort (((s.chan c).buf h).pkt).tc) = true) ∧
    (∃ (s : State) (c : Fin 4) (h : Nat), Ready s c ∧ ((s.chan c).buf h).inUse = true ∧ ((s.chan c).buf h).written = true ∧ ((s.chan c).buf h).waiting = true ∧ ((s.chan c).buf h).refs = 0 ∧ (((s.chan c).buf h).pkt).egress = false ∧ ((s.chan c).admitCheck (((s.chan c).buf h).pkt).voq (pcIndex 0 (((s.chan c).buf h).pkt).inPort (((s.chan c).buf h).pkt).tc) (((s.chan c).buf h).pkt).len none).isSome = true) ∧
    (∃ (s : State) (c : Fin 4) (h : Nat), Ready s c ∧ ((s.chan c).buf h).inUse = true ∧ ((s.chan c).buf h).written = true ∧ ((s.chan c).buf h).waiting = true ∧ ((s.chan c).buf h).refs = 0 ∧ (((s.chan c).buf h).pkt).egress = true ∧ (((s.chan c).buf h).pkt).mcast = true ∧ (s.chan c).mcMembers (((s.chan c).buf h).pkt).dest = []) ∧
    (∃ (s : State) (c : Fin 4) (h : Nat) (p : _) (n : _), Ready s c ∧ ((s.chan c).buf h).inUse = true ∧ ((s.chan c).buf h).written = true ∧ ((s.chan c).buf h).waiting = true ∧ ((s.chan c).buf h).refs = 0 ∧ (((s.chan c).buf h).pkt).egress = true ∧ (((s.chan c).buf h).pkt).mcast = true ∧ (s.chan c).mcMembers (((s.chan c).buf h).pkt).dest = [p] ∧ (s.chan c).eqMap p (((s.chan c).buf h).pkt).tc (((s.chan c).buf h).pkt).flowHash (((s.chan c).buf h).pkt).user0 = some n ∧ (s.chan c).admitCheck (egQueue n) (pcIndex 1 p (((s.chan c).buf h).pkt).tc) (((s.chan c).buf h).pkt).len (some p) = none ∧ (s.chan c).holdDisc (pcIndex 1 p (((s.chan c).buf h).pkt).tc) = true) :=
  ⟨
    ⟨Wit.on (fun ch => ch |> Wit.cad |> Wit.sbuf (2 ^ 29 + 5) (Wit.ipkt 0 0) true true |>.putB pgAdm (ADM.PC_CFG_HOLD (pcIndex 0 7 3)) true |>.putF pgAdm (ADM.PC_HOLD_XOFF (pcIndex 0 7 3)) 4), 1, (2 ^ 29 + 5), by delta Ready; decide +kernel⟩,
    ⟨Wit.on (fun ch => ch |> Wit.cad |> Wit.sbuf (2 ^ 29 + 5) (Wit.ipkt 0 0) true true |>.putB pgAdm CTRL_ENABLE false), 1, (2 ^ 29 + 5), by delta Ready; decide +kernel⟩,
    ⟨Wit.on (fun ch => ch |> Wit.cad |> Wit.sbuf (2 ^ 29 + 5) (Wit.ipkt 0 0) true true |> Wit.sbuf (2 ^ 29 + 5) (Wit.ipkt 1 1) true true), 1, (2 ^ 29 + 5), by delta Ready; decide +kernel⟩,
    ⟨Wit.on (fun ch => ch |> Wit.cad |> Wit.sbuf (2 ^ 29 + 5) (Wit.ipkt 0 0) true true |> Wit.sbuf (2 ^ 29 + 5) (Wit.ipkt 1 1) true true |>.putB pgAdm (ADM.PC_CFG_HOLD (pcIndex 1 7 3)) true |>.putF pgAdm (ADM.PC_HOLD_XOFF (pcIndex 1 7 3)) 4 |> fun ch => { ch with cad := { ch.cad with mcGrp := [(40, 0x80000000)], mcMem := [(0, 0x80000007)] } } |>.putB pgSched (SCHED.EQ_MAP_VALID (8 * 7 + 3)) true |>.putF pgSched (SCHED.EQ_MAP_QUEUE (8 * 7 + 3)) (64 + 8 * 7 + 3) |>.putF pgSched (SCHED.EQ_MAP_SEL (8 * 7 + 3)) 0), 1, (2 ^ 29 + 5), 7, (64 + 8 * 7 + 3), by delta Ready; decide +kernel⟩⟩

theorem witness_BuffersAreFreed :
    (∃ (s : State) (c : Fin 4) (h : _) (a : _) (part : _), Ready s c ∧ (s.chan c).freeResult h a part = 0) ∧
    (∃ (s : State) (c : Fin 4) (h : _), Ready s c ∧ ((s.chan c).buf h).inUse = false) ∧
    (∃ (s : State) (c : Fin 4) (h : _) (a : _), Ready s c ∧ ((s.chan c).buf h).inUse = true ∧ ((s.chan c).buf h).owner ≠ a) ∧
    (∃ (s : State) (c : Fin 4) (a : _), HostReady s c ∧ a < 4096 ∧ handleOk ((s.chan c).nat pgCaddy CADDY.FREE_HANDLE) = true) ∧
    (∃ (s : State) (c : Fin 4) (a : _), HostReady s c ∧ a < 4096 ∧ handleOk ((s.chan c).nat pgCaddy CADDY.FREE_HANDLE) = false) ∧
    (∃ (s : State) (c : Fin 4), Ready s c ∧ (s.chan c).cad.sweepDue = true ∧ (s.chan c).active.isSome = true) :=
  ⟨
    ⟨Wit.on (fun ch => ch |> Wit.cad |> Wit.sbuf (2 ^ 29 + 5) (Wit.ipkt 0 0) true false |>.putN pgCaddy CADDY.FREE_HANDLE (2 ^ 29 + 5) |>.putBuf (2 ^ 29 + 5) { inUse := true, owner := 17, units := 1, refs := 0 }), 1, (2 ^ 29 + 5), 17, none, by delta Ready; decide +kernel⟩,
    ⟨Wit.on (fun ch => ch |> Wit.cad |> Wit.sbuf (2 ^ 29 + 5) (Wit.ipkt 0 0) true false |>.putN pgCaddy CADDY.FREE_HANDLE (2 ^ 29 + 5)), 1, (2 ^ 29 + 6), by delta Ready; decide +kernel⟩,
    ⟨Wit.on (fun ch => ch |> Wit.cad |> Wit.sbuf (2 ^ 29 + 5) (Wit.ipkt 0 0) true false |>.putN pgCaddy CADDY.FREE_HANDLE (2 ^ 29 + 5)), 1, (2 ^ 29 + 5), 18, by delta Ready; decide +kernel⟩,
    ⟨Wit.on (fun ch => ch |> Wit.cad |> Wit.sbuf (2 ^ 29 + 5) (Wit.ipkt 0 0) true false |>.putN pgCaddy CADDY.FREE_HANDLE (2 ^ 29 + 5)), 1, 17, by delta HostReady Ready; decide +kernel⟩,
    ⟨Wit.on (fun ch => ch |> Wit.cad |> Wit.sbuf (2 ^ 29 + 5) (Wit.ipkt 0 0) true false |>.putN pgCaddy CADDY.FREE_HANDLE (2 ^ 29 + 5) |>.putN pgCaddy CADDY.FREE_HANDLE 0xFFFFFFFF), 1, 17, by delta HostReady Ready; decide +kernel⟩,
    ⟨Wit.on (fun ch => ch |> Wit.cad |> Wit.sbuf (2 ^ 29 + 5) (Wit.ipkt 0 0) true false |>.putN pgCaddy CADDY.FREE_HANDLE (2 ^ 29 + 5) |> Wit.kp 0 4 0x80 |> fun ch => { ch with cad := { ch.cad with sweepDue := true } }), 1, by delta Ready; decide +kernel⟩⟩

theorem witness_RegionCommands :
    (∃ (s : State) (c : Fin 4) (r : Nat) (cls : _), r < 2 ^ 15 ∧ HostReady s c ∧ (s.chan c).getF pgCaddy CADDY.REGION_CNT_COUNT = 1 ∧ 1 ≤ cls ∧ cls ≤ 4 ∧ (s.chan c).regionResult false 0 cls r 1 = 0) ∧
    (∃ (s : State) (c : Fin 4) (r : Nat) (cls : _), r < 2 ^ 15 ∧ HostReady s c ∧ (s.chan c).getF pgCaddy CADDY.REGION_CNT_COUNT = 1 ∧ 1 ≤ cls ∧ cls ≤ 4 ∧ (s.chan c).regionResult false 1 cls r 1 = 0) ∧
    (∃ (s : State) (c : Fin 4) (r : Nat), r < 2 ^ 15 ∧ HostReady s c ∧ (s.chan c).getF pgCaddy CADDY.REGION_CNT_COUNT = 1 ∧ (s.chan c).regionResult false 2 0 r 1 = 0) ∧
    (∃ (s : State) (c : Fin 4) (r : Nat), r < 2 ^ 15 ∧ HostReady s c ∧ (s.chan c).getF pgCaddy CADDY.REGION_CNT_COUNT = 1 ∧ (s.chan c).regionResult false 6 0 r 1 = 0) ∧
    (∃ (s : State) (c : Fin 4) (r : Nat), r < 2 ^ 15 ∧ HostReady s c ∧ (s.chan c).getF pgCaddy CADDY.REGION_CNT_COUNT = 1) ∧
    (∃ (s : State) (c : Fin 4) (r : Nat), r < 2 ^ 15 ∧ KeeperReady s c 0 ∧ (s.chan c).getF pgCaddy CADDY.KREGION_CNT_COUNT = 1 ∧ (s.chan c).regionResult true 3 0 r 1 = 0) ∧
    (∃ (s : State) (c : Fin 4) (r : Nat), r < 2 ^ 15 ∧ KeeperReady s c 0 ∧ (s.chan c).getF pgCaddy CADDY.KREGION_CNT_COUNT = 1 ∧ (s.chan c).regionResult true 4 0 r 1 = 0 ∧ ((s.chan c).hbmRegion r).prior ≠ 2) ∧
    (∃ (s : State) (c : Fin 4) (r : Nat), r < 2 ^ 15 ∧ KeeperReady s c 0 ∧ (s.chan c).getF pgCaddy CADDY.KREGION_CNT_COUNT = 1 ∧ (s.chan c).regionResult true 5 0 r 1 = 0) :=
  ⟨
    ⟨Wit.on (fun ch => ch |> Wit.cad |> Wit.reg 1 1 |>.putF pgCaddy CADDY.REGION_CNT_COUNT 1 |>.putF pgCaddy CADDY.KREGION_CNT_COUNT 1 |> Wit.kp 0 4 0x80 |> Wit.reg 0 0), 1, 5, 2, by delta HostReady Ready; decide +kernel⟩,
    ⟨Wit.on (fun ch => ch |> Wit.cad |> Wit.reg 1 1 |>.putF pgCaddy CADDY.REGION_CNT_COUNT 1 |>.putF pgCaddy CADDY.KREGION_CNT_COUNT 1 |> Wit.kp 0 4 0x80), 1, 5, 2, by delta HostReady Ready; decide +kernel⟩,
    ⟨Wit.on (fun ch => ch |> Wit.cad |> Wit.reg 1 1 |>.putF pgCaddy CADDY.REGION_CNT_COUNT 1 |>.putF pgCaddy CADDY.KREGION_CNT_COUNT 1 |> Wit.kp 0 4 0x80 |> Wit.reg 2 1), 1, 5, by delta HostReady Ready; decide +kernel⟩,
    ⟨Wit.on (fun ch => ch |> Wit.cad |> Wit.reg 1 1 |>.putF pgCaddy CADDY.REGION_CNT_COUNT 1 |>.putF pgCaddy CADDY.KREGION_CNT_COUNT 1 |> Wit.kp 0 4 0x80 |> Wit.reg 2 1 |> Wit.sbuf (5 * 8192 + 3) (Wit.ipkt 0 0) true false |> Wit.inq 323 (5 * 8192 + 3) 59), 1, 5, by delta HostReady Ready; decide +kernel⟩,
    ⟨Wit.on (fun ch => ch |> Wit.cad |> Wit.reg 1 1 |>.putF pgCaddy CADDY.REGION_CNT_COUNT 1 |>.putF pgCaddy CADDY.KREGION_CNT_COUNT 1 |> Wit.kp 0 4 0x80), 1, 5, by delta HostReady Ready; decide +kernel⟩,
    ⟨Wit.on (fun ch => ch |> Wit.cad |> Wit.reg 1 1 |>.putF pgCaddy CADDY.REGION_CNT_COUNT 1 |>.putF pgCaddy CADDY.KREGION_CNT_COUNT 1 |> Wit.kp 0 4 0x80), 1, 5, by delta KeeperReady Ready; decide +kernel⟩,
    ⟨Wit.on (fun ch => ch |> Wit.cad |> Wit.reg 1 1 |>.putF pgCaddy CADDY.REGION_CNT_COUNT 1 |>.putF pgCaddy CADDY.KREGION_CNT_COUNT 1 |> Wit.kp 0 4 0x80 |> Wit.reg 2 1 |>.putHbmRegion 5 { st := 3, cls := 1, prior := 1 }), 1, 5, by delta KeeperReady Ready; decide +kernel⟩,
    ⟨Wit.on (fun ch => ch |> Wit.cad |> Wit.reg 1 1 |>.putF pgCaddy CADDY.REGION_CNT_COUNT 1 |>.putF pgCaddy CADDY.KREGION_CNT_COUNT 1 |> Wit.kp 0 4 0x80), 1, 5, by delta KeeperReady Ready; decide +kernel⟩⟩

theorem witness_AccountsAndQueueReadout :
    (∃ (s : State) (c : Fin 4) (v : Word), HostReady s c ∧ fld v 31 28 ≤ 10 ∧ (s.chan c).poolRsv ((s.chan c).getF pgCaddy CADDY.ACCT_SEL_POOL) - ((s.chan c).acctPool ((s.chan c).getF pgCaddy CADDY.ACCT_SEL_ACCOUNT) ((s.chan c).getF pgCaddy CADDY.ACCT_SEL_POOL)).rsv + fld v 27 0 ≤ (s.chan c).poolTotal ((s.chan c).getF pgCaddy CADDY.ACCT_SEL_POOL)) ∧
    (∃ (s : State) (c : Fin 4) (v : Word), HostReady s c ∧ fld v 31 28 ≤ 10 ∧ (s.chan c).poolTotal ((s.chan c).getF pgCaddy CADDY.ACCT_SEL_POOL) < (s.chan c).poolRsv ((s.chan c).getF pgCaddy CADDY.ACCT_SEL_POOL) - ((s.chan c).acctPool ((s.chan c).getF pgCaddy CADDY.ACCT_SEL_ACCOUNT) ((s.chan c).getF pgCaddy CADDY.ACCT_SEL_POOL)).rsv + fld v 27 0) ∧
    (∃ (s : State) (c : Fin 4) (part : _), HostReady s c ∧ part < 32 ∧ ((s.chan c).acct ((s.chan c).getF pgCaddy CADDY.ACCT_SEL_ACCOUNT)).st = 0) ∧
    (∃ (s : State) (c : Fin 4) (part : _), HostReady s c ∧ part = ((s.chan c).acct ((s.chan c).getF pgCaddy CADDY.ACCT_SEL_ACCOUNT)).part ∧ part < 32 ∧ ((s.chan c).acct ((s.chan c).getF pgCaddy CADDY.ACCT_SEL_ACCOUNT)).st = 1) ∧
    (∃ (s : State) (c : Fin 4), HostReady s c) :=
  ⟨
    ⟨Wit.on (fun ch => ch |> Wit.cad |>.putF pgCaddy CADDY.ACCT_SEL_ACCOUNT 200 |>.putF pgCaddy CADDY.ACCT_SEL_POOL 0 |> Wit.reg 1 1), 1, (BitVec.ofNat 32 (2 ^ 28 * 0 + if true then 0 else 0)), by delta HostReady Ready; decide +kernel⟩,
    ⟨Wit.on (fun ch => ch |> Wit.cad |>.putF pgCaddy CADDY.ACCT_SEL_ACCOUNT 200 |>.putF pgCaddy CADDY.ACCT_SEL_POOL 0 |> Wit.reg 1 1), 1, (BitVec.ofNat 32 (2 ^ 28 * 0 + 2 ^ 28 - 1)), by delta HostReady Ready; decide +kernel⟩,
    ⟨Wit.on (fun ch => ch |> Wit.cad |>.putF pgCaddy CADDY.ACCT_SEL_ACCOUNT 200 |>.putF pgCaddy CADDY.ACCT_SEL_POOL 0 |> Wit.reg 1 1), 1, 31, by delta HostReady Ready; decide +kernel⟩,
    ⟨Wit.on (fun ch => ch |> Wit.cad |>.putF pgCaddy CADDY.ACCT_SEL_ACCOUNT 200 |>.putF pgCaddy CADDY.ACCT_SEL_POOL 0 |> Wit.reg 1 1 |>.putAcct 200 { st := 1, part := 4 } |> fun ch => if true then ch else ch.putAcctPool 200 1 { use := 3 }), 1, 4, by delta HostReady Ready; decide +kernel⟩,
    ⟨Wit.on (fun ch => ch |> Wit.cad |>.putF pgCaddy CADDY.ACCT_SEL_ACCOUNT 200 |>.putF pgCaddy CADDY.ACCT_SEL_POOL 0 |> Wit.reg 1 1 |> Wit.sbuf (2 ^ 29 + 5) (Wit.ipkt 0 0) true false |> Wit.inq 323 (2 ^ 29 + 5) 59), 1, by delta HostReady Ready; decide +kernel⟩⟩

theorem witness_FlushesAndHoldWindows :
    (∃ (s : State) (c : Fin 4), HostReady s c ∧ (s.chan c).getB pgVoq VOQ.FLUSH_STAT_BUSY = false) ∧
    (∃ (s : State) (c : Fin 4), Ready s c ∧ (s.chan c).cad.flush.isSome = true) ∧
    (∃ (s : State) (c : Fin 4) (p : _), Ready s c ∧ p < 64 ∧ (s.chan c).holdState p = 1) :=
  ⟨
    ⟨Wit.on (fun ch => ch |> Wit.cad |> Wit.sbuf (2 ^ 29 + 5) (Wit.ipkt 0 0) true false |> Wit.inq 323 (2 ^ 29 + 5) 59 |>.putN pgVoq VOQ.FLUSH_ARG0 320 |>.putN pgVoq VOQ.FLUSH_ARG1 0), 1, by delta HostReady Ready; decide +kernel⟩,
    ⟨Wit.on (fun ch => ch |> Wit.cad |> Wit.sbuf (2 ^ 29 + 5) (Wit.ipkt 0 0) true false |> Wit.inq 323 (2 ^ 29 + 5) 59 |> fun ch => { ch with cad := { ch.cad with flush := some (1, 17) } }), 1, by delta Ready; decide +kernel⟩,
    ⟨Wit.on (fun ch => ch |> Wit.cad |> Wit.sbuf (2 ^ 29 + 5) (Wit.ipkt 0 0) true false |> Wit.inq 323 (2 ^ 29 + 5) 59 |>.putF pgAdm (ADM.HOLD_STAT_STATE 9) 1), 1, 9, by delta Ready; decide +kernel⟩⟩

theorem witness_BuffersInEveryState :
    (∃ (s : State) (c : Fin 4) (req : _), Ready s c ∧ (s.chan c).cad.reqs.find? (fun y => y.requester == req && y.pool.isNone) = none) ∧
    (∃ (s : State) (c : Fin 4) (req : _), Ready s c ∧ (s.chan c).cad.reqs.find? (fun y => y.requester == req && y.pool.isSome) = none) ∧
    (∃ (s : State) (c : Fin 4) (req : _) (x : _), Ready s c ∧ (s.chan c).cad.reqs.find? (fun y => y.requester == req && y.pool.isNone) = some x ∧ (s.chan c).caddyOn = false) ∧
    (∃ (s : State) (c : Fin 4) (req : _) (x : _), Ready s c ∧ (s.chan c).cad.reqs.find? (fun y => y.requester == req && y.pool.isNone) = some x ∧ (s.chan c).caddyOn = true ∧ (s.chan c).allocTurn req ((s.chan c).firstPool x.pkt) = false) ∧
    (∃ (s : State) (c : Fin 4) (req : _) (h : _) (x : _), Ready s c ∧ (s.chan c).cad.reqs.find? (fun y => y.requester == req && y.pool.isNone) = some x ∧ (s.chan c).caddyOn = true ∧ (s.chan c).allocTurn req ((s.chan c).firstPool x.pkt) = true ∧ ((s.chan c).judgeAlloc ((s.chan c).chargeTo x.pkt) ((s.chan c).firstPool x.pkt) (unitsOf ((s.chan c).firstPool x.pkt) x.pkt.len)) = .grant ∧ (s.chan c).grantable ((s.chan c).firstPool x.pkt) h = false) ∧
    (∃ (s : State) (c : Fin 4) (req : _) (x : _), Ready s c ∧ (s.chan c).cad.reqs.find? (fun y => y.requester == req && y.pool.isNone) = some x ∧ (s.chan c).caddyOn = true ∧ (s.chan c).allocTurn req ((s.chan c).firstPool x.pkt) = true ∧ ((s.chan c).judgeAlloc ((s.chan c).chargeTo x.pkt) ((s.chan c).firstPool x.pkt) (unitsOf ((s.chan c).firstPool x.pkt) x.pkt.len)) = .limit) ∧
    (∃ (s : State) (c : Fin 4) (req : _) (x : _), Ready s c ∧ (s.chan c).cad.reqs.find? (fun y => y.requester == req && y.pool.isNone) = some x ∧ (s.chan c).caddyOn = true ∧ (s.chan c).allocTurn req ((s.chan c).firstPool x.pkt) = true ∧ ((s.chan c).judgeAlloc ((s.chan c).chargeTo x.pkt) ((s.chan c).firstPool x.pkt) (unitsOf ((s.chan c).firstPool x.pkt) x.pkt.len)) = .empty ∧ (s.chan c).getB pgCaddy (CADDY.POOL_CFG_SPILL_UP ((s.chan c).firstPool x.pkt)) = false) ∧
    (∃ (s : State) (c : Fin 4) (req : _) (x : _), Ready s c ∧ (s.chan c).cad.reqs.find? (fun y => y.requester == req && y.pool.isNone) = some x ∧ (s.chan c).caddyOn = true ∧ (s.chan c).allocTurn req ((s.chan c).firstPool x.pkt) = true ∧ ((s.chan c).judgeAlloc ((s.chan c).chargeTo x.pkt) ((s.chan c).firstPool x.pkt) (unitsOf ((s.chan c).firstPool x.pkt) x.pkt.len)) = .empty ∧ (s.chan c).getB pgCaddy (CADDY.POOL_CFG_SPILL_UP ((s.chan c).firstPool x.pkt)) = true ∧ ((s.chan c).firstPool x.pkt) ≠ 4 ∧ x.pkt.len ≤ 10144) ∧
    (∃ (s : State) (c : Fin 4) (req : _) (x : _), Ready s c ∧ (s.chan c).cad.reqs.find? (fun y => y.requester == req && y.pool.isSome) = some x ∧ (s.chan c).caddyOn = false) ∧
    (∃ (s : State) (c : Fin 4) (req : _) (x : _), Ready s c ∧ (s.chan c).cad.reqs.find? (fun y => y.requester == req && y.pool.isSome) = some x ∧ (s.chan c).caddyOn = true ∧ (s.chan c).allocTurn req (x.pool.getD 0) = false) ∧
    (∃ (s : State) (c : Fin 4) (req : _) (x : _), Ready s c ∧ (s.chan c).cad.reqs.find? (fun y => y.requester == req && y.pool.isSome) = some x ∧ (s.chan c).caddyOn = true ∧ (s.chan c).allocTurn req (x.pool.getD 0) = true ∧ ((s.chan c).judgeAlloc ((s.chan c).chargeTo x.pkt) (x.pool.getD 0) (unitsOf (x.pool.getD 0) x.pkt.len)) = .limit) ∧
    (∃ (s : State) (c : Fin 4) (h : _), Ready s c ∧ (((s.chan c).buf h).inUse = false ∨ ((s.chan c).buf h).written = true ∨ (s.chan c).ackWaits h = true)) ∧
    (∃ (s : State) (c : Fin 4) (h : _), Ready s c ∧ (((s.chan c).buf h).inUse = false ∨ ((s.chan c).buf h).written = false ∨ ((s.chan c).buf h).waiting = false)) ∧
    (∃ (s : State) (c : Fin 4) (h : _), Ready s c ∧ ((s.chan c).buf h).inUse = true ∧ ((s.chan c).buf h).written = true ∧ ((s.chan c).buf h).waiting = true ∧ ((s.chan c).buf h).pkt.egress = true ∧ ((s.chan c).buf h).queue ≠ 0 ∧ ((s.chan c).buf h).refs = 0 ∧ (s.chan c).holdDisc (pcIndex 1 ((s.chan c).buf h).pkt.port ((s.chan c).buf h).pkt.tc) = true ∧ (s.chan c).admitCheck (((s.chan c).buf h).queue - 1) (pcIndex 1 ((s.chan c).buf h).pkt.port ((s.chan c).buf h).pkt.tc) ((s.chan c).buf h).pkt.len (some ((s.chan c).buf h).pkt.port) = none) ∧
    (∃ (s : State) (c : Fin 4) (h : _) (p : _) (ps : _), Ready s c ∧ ((s.chan c).buf h).inUse = true ∧ ((s.chan c).buf h).written = true ∧ ((s.chan c).buf h).waiting = true ∧ ((s.chan c).buf h).pkt.egress = true ∧ ((s.chan c).buf h).pkt.mcast = true ∧ (s.chan c).mcMembers ((s.chan c).buf h).pkt.dest = p :: ps) ∧
    (∃ (s : State) (c : Fin 4) (h : Nat) (a : Nat) (part : Option Nat), Ready s c ∧ (s.chan c).freeResult h a part = 2) ∧
    (∃ (s : State) (c : Fin 4), Ready s c ∧ (s.chan c).active = none) ∧
    (∃ (s : State) (c : Fin 4), Ready s c ∧ (s.chan c).active.isSome = true) ∧
    (∃ (s : State) (c : Fin 4), Ready s c ∧ (s.chan c).cad.flush = none) ∧
    (∃ (s : State) (c : Fin 4) (p : _), Ready s c ∧ (64 ≤ p ∨ (s.chan c).holdState p ≠ 1)) :=
  ⟨
    ⟨Wit.on (fun ch => ch |> Wit.cad), 1, 3, by delta Ready; decide +kernel⟩,
    ⟨Wit.on (fun ch => ch |> Wit.cad), 1, 3, by delta Ready; decide +kernel⟩,
    ⟨Wit.on (fun ch => ch |> Wit.cad |> fun ch => { ch with cad := { reqs := [⟨3, Wit.ipkt 0 0, none⟩, ⟨4, Wit.ipkt 0 0, none⟩] } } |>.putB pgCaddy CTRL_ENABLE false), 1, 3, ⟨3, Wit.ipkt 0 0, none⟩, by delta Ready; decide +kernel⟩,
    ⟨Wit.on (fun ch => ch |> Wit.cad |> fun ch => { ch with cad := { reqs := [⟨3, Wit.ipkt 0 0, none⟩, ⟨4, Wit.ipkt 0 0, none⟩] } } |> fun ch => { ch with ns := 3, cad := { reqs := [⟨3, Wit.ipkt 0 0, none⟩, ⟨4, Wit.ipkt 0 0, none⟩] } }), 1, 3, ⟨3, Wit.ipkt 0 0, none⟩, by delta Ready; decide +kernel⟩,
    ⟨Wit.on (fun ch => ch |> Wit.cad |> fun ch => { ch with cad := { reqs := [⟨3, Wit.ipkt 0 0, none⟩, ⟨4, Wit.ipkt 0 0, none⟩] } }), 1, 3, 5, ⟨3, Wit.ipkt 0 0, none⟩, by delta Ready; decide +kernel⟩,
    ⟨Wit.on (fun ch => ch |> Wit.cad |> fun ch => { ch with cad := { reqs := [⟨3, Wit.ipkt 0 0, none⟩, ⟨4, Wit.ipkt 0 0, none⟩] } } |>.putAcct 17 { st := 0 }), 1, 3, ⟨3, Wit.ipkt 0 0, none⟩, by delta Ready; decide +kernel⟩,
    ⟨Wit.on (fun ch => ch |> Wit.cad |> fun ch => { ch with cad := { reqs := [⟨3, Wit.ipkt 0 0, none⟩, ⟨4, Wit.ipkt 0 0, none⟩] } } |>.putBuf 99 { inUse := true, units := 393216 }), 1, 3, ⟨3, Wit.ipkt 0 0, none⟩, by delta Ready; decide +kernel⟩,
    ⟨Wit.on (fun ch => ch |> Wit.cad |> fun ch => { ch with cad := { reqs := [⟨3, Wit.ipkt 0 0, none⟩, ⟨4, Wit.ipkt 0 0, none⟩] } } |>.putBuf 99 { inUse := true, units := 393216 } |>.putB pgCaddy (CADDY.POOL_CFG_SPILL_UP 0) true), 1, 3, ⟨3, Wit.ipkt 0 0, none⟩, by delta Ready; decide +kernel⟩,
    ⟨Wit.on (fun ch => ch |> Wit.cad |>.putB pgCaddy CTRL_ENABLE false |> Wit.reg 1 1 |> fun ch => { ch with cad := { ch.cad with reqs := [⟨3, Wit.ipkt 0 0, some 1⟩, ⟨4, Wit.ipkt 0 0, some 1⟩] } }), 1, 3, ⟨3, Wit.ipkt 0 0, some 1⟩, by delta Ready; decide +kernel⟩,
    ⟨Wit.on (fun ch => ch |> Wit.cad |> Wit.reg 1 1 |> fun ch => { ch with cad := { ch.cad with reqs := [⟨3, Wit.ipkt 0 0, some 1⟩, ⟨4, Wit.ipkt 0 0, some 1⟩] } } |> fun ch => { ch with ns := 3, cad := { ch.cad with reqs := [⟨3, Wit.ipkt 0 0, some 1⟩, ⟨4, Wit.ipkt 0 0, some 1⟩] } }), 1, 3, ⟨3, Wit.ipkt 0 0, some 1⟩, by delta Ready; decide +kernel⟩,
    ⟨Wit.on (fun ch => ch |> Wit.cad |> Wit.reg 1 1 |> fun ch => { ch with cad := { ch.cad with reqs := [⟨3, Wit.ipkt 0 0, some 1⟩, ⟨4, Wit.ipkt 0 0, some 1⟩] } } |>.putAcct 17 { st := 0 }), 1, 3, ⟨3, Wit.ipkt 0 0, some 1⟩, by delta Ready; decide +kernel⟩,
    ⟨Wit.on (fun ch => ch |> Wit.cad), 1, (2 ^ 29 + 5), by delta Ready; decide +kernel⟩,
    ⟨Wit.on (fun ch => ch |> Wit.cad), 1, (2 ^ 29 + 5), by delta Ready; decide +kernel⟩,
    ⟨Wit.on (fun ch => ch |> Wit.cad |> Wit.sbuf (2 ^ 29 + 5) (Wit.ipkt 1 0) true true |>.putB pgAdm (ADM.PC_CFG_HOLD (pcIndex 1 7 3)) true |>.putF pgAdm (ADM.PC_HOLD_XOFF (pcIndex 1 7 3)) 4 |> fun ch => ch.putBuf (2 ^ 29 + 5) { ch.buf (2 ^ 29 + 5) with queue := egQueue 123 + 1 }), 1, (2 ^ 29 + 5), by delta Ready; decide +kernel⟩,
    ⟨Wit.on (fun ch => ch |> Wit.cad |> Wit.sbuf (2 ^ 29 + 5) (Wit.ipkt 1 1) true true |> fun ch => { ch with cad := { ch.cad with mcGrp := [(40, if true then 0x80000000 else 0x80040000)], mcMem := [(0, 0x80000007), (1, 0x80000009)] } } |> fun ch => if true then Wit.eqm ch else ch), 1, (2 ^ 29 + 5), 7, ([]), by delta Ready; decide +kernel⟩,
    ⟨Wit.on (fun ch => ch |> Wit.cad |> Wit.sbuf (2 ^ 29 + 5) (Wit.ipkt 0 0) true false), 1, (2 ^ 29 + 5), (18), (none), by delta Ready; decide +kernel⟩,
    ⟨Wit.on (fun ch => ch |> Wit.cad), 1, by delta Ready; decide +kernel⟩,
    ⟨Wit.on (fun ch => ch |> Wit.cad |> Wit.kp 0 4 0x80 |> Wit.sbuf (2 ^ 29 + 5) (Wit.ipkt 0 0) true false |> fun ch => if true then ch else Wit.inq 323 (2 ^ 29 + 5) 59 ch), 1, by delta Ready; decide +kernel⟩,
    ⟨Wit.on (fun ch => ch |> Wit.cad), 1, by delta Ready; decide +kernel⟩,
    ⟨Wit.on (fun ch => ch |> Wit.cad), 1, 9, by delta Ready; decide +kernel⟩⟩

theorem witness_RegionCommandsOfEveryCount :
    (∃ (s : State) (c : Fin 4) (q : Req) (kport : Bool) (first : Nat) (cls : Nat), first < 2 ^ 15 ∧ cls < 8 ∧ (((kport = false ∧ HostReady s c ∧ q = .func 0) ∨ (kport = true ∧ ∃ k : Fin 2, KeeperReady s c k ∧ q = keeperReq k))) ∧ 1 ≤ cls ∧ cls ≤ 4) ∧
    (∃ (s : State) (c : Fin 4) (q : Req) (kport : Bool) (first : Nat) (cls : Nat), first < 2 ^ 15 ∧ cls < 8 ∧ (((kport = false ∧ HostReady s c ∧ q = .func 0) ∨ (kport = true ∧ ∃ k : Fin 2, KeeperReady s c k ∧ q = keeperReq k))) ∧ (cls = 0 ∨ 4 < cls)) ∧
    (∃ (s : State) (c : Fin 4) (q : Req) (kport : Bool) (first : Nat) (cls : Nat), first < 2 ^ 15 ∧ cls < 8 ∧ (((kport = false ∧ HostReady s c ∧ q = .func 0) ∨ (kport = true ∧ ∃ k : Fin 2, KeeperReady s c k ∧ q = keeperReq k)))) :=
  ⟨
    ⟨Wit.on (fun ch => ch |> Wit.cad |> Wit.reg 0 1 |>.putF pgCaddy CADDY.REGION_CNT_COUNT (1) |>.putF pgCaddy CADDY.KREGION_CNT_COUNT (1) |> Wit.kp 0 4 0x80 |> fun ch => if true then Wit.inq 323 (5 * 8192 + 3) 59 (Wit.sbuf (5 * 8192 + 3) (Wit.ipkt 0 0) true false ch) else ch |> fun ch => if 0 < 3 then ch else ch.putHbmRegion 6 { st := 0, cls := 1, prior := 0 } |>.putHbmRegion 4 { st := 0, cls := 1, next := 2, prior := 1 }), 1, (.func 0), false, (5), (2), by delta KeeperReady HostReady Ready; decide +kernel⟩,
    ⟨Wit.on (fun ch => ch |> Wit.cad |> Wit.reg 0 1 |>.putF pgCaddy CADDY.REGION_CNT_COUNT (1) |>.putF pgCaddy CADDY.KREGION_CNT_COUNT (1) |> Wit.kp 0 4 0x80 |> fun ch => if true then Wit.inq 323 (5 * 8192 + 3) 59 (Wit.sbuf (5 * 8192 + 3) (Wit.ipkt 0 0) true false ch) else ch |> fun ch => if 0 < 3 then ch else ch.putHbmRegion 6 { st := 0, cls := 1, prior := 0 } |>.putHbmRegion 4 { st := 0, cls := 1, next := 2, prior := 1 }), 1, (.func 0), false, (5), (0), by delta KeeperReady HostReady Ready; decide +kernel⟩,
    ⟨Wit.on (fun ch => ch |> Wit.cad |> Wit.reg 0 1 |>.putF pgCaddy CADDY.REGION_CNT_COUNT (1) |>.putF pgCaddy CADDY.KREGION_CNT_COUNT (1) |> Wit.kp 0 4 0x80 |> fun ch => if true then Wit.inq 323 (5 * 8192 + 3) 59 (Wit.sbuf (5 * 8192 + 3) (Wit.ipkt 0 0) true false ch) else ch |> fun ch => if 0 < 3 then ch else ch.putHbmRegion 6 { st := 0, cls := 1, prior := 0 } |>.putHbmRegion 4 { st := 0, cls := 1, next := 2, prior := 1 }), 1, (.func 0), false, (5), (2), by delta KeeperReady HostReady Ready; decide +kernel⟩⟩

theorem witness_AccountCommandsInEveryState :
    (∃ (s : State) (c : Fin 4) (v : Word), HostReady s c ∧ 10 < fld v 31 28) ∧
    (∃ (s : State) (c : Fin 4) (part : _), HostReady s c ∧ part < 32 ∧ part ≠ ((s.chan c).acct ((s.chan c).getF pgCaddy CADDY.ACCT_SEL_ACCOUNT)).part ∧ ((s.chan c).acct ((s.chan c).getF pgCaddy CADDY.ACCT_SEL_ACCOUNT)).st ≠ 0) ∧
    (∃ (s : State) (c : Fin 4) (part : _), HostReady s c ∧ part < 32 ∧ (part = ((s.chan c).acct ((s.chan c).getF pgCaddy CADDY.ACCT_SEL_ACCOUNT)).part ∨ ((s.chan c).acct ((s.chan c).getF pgCaddy CADDY.ACCT_SEL_ACCOUNT)).st = 0)) ∧
    (∃ (s : State) (c : Fin 4) (part : _), HostReady s c ∧ part < 32 ∧ (part = ((s.chan c).acct ((s.chan c).getF pgCaddy CADDY.ACCT_SEL_ACCOUNT)).part ∨ ((s.chan c).acct ((s.chan c).getF pgCaddy CADDY.ACCT_SEL_ACCOUNT)).st = 0) ∧ ((s.chan c).acct ((s.chan c).getF pgCaddy CADDY.ACCT_SEL_ACCOUNT)).st ≠ 1) ∧
    (∃ (s : State) (c : Fin 4) (part : _), HostReady s c ∧ part < 32 ∧ (part = ((s.chan c).acct ((s.chan c).getF pgCaddy CADDY.ACCT_SEL_ACCOUNT)).part ∨ ((s.chan c).acct ((s.chan c).getF pgCaddy CADDY.ACCT_SEL_ACCOUNT)).st = 0) ∧ ((s.chan c).acct ((s.chan c).getF pgCaddy CADDY.ACCT_SEL_ACCOUNT)).st = 1) ∧
    (∃ (s : State) (c : Fin 4), HostReady s c ∧ (s.chan c).getB pgVoq VOQ.FLUSH_STAT_BUSY = true) :=
  ⟨
    ⟨Wit.on (fun ch => ch |> Wit.cad |>.putF pgCaddy CADDY.ACCT_SEL_ACCOUNT 200 |>.putF pgCaddy CADDY.ACCT_SEL_POOL 0), 1, (BitVec.ofNat 32 2952790016), by delta HostReady Ready; decide +kernel⟩,
    ⟨Wit.on (fun ch => ch |> Wit.cad |>.putF pgCaddy CADDY.ACCT_SEL_ACCOUNT 200 |>.putF pgCaddy CADDY.ACCT_SEL_POOL 0 |>.putAcct 200 { st := 1, part := 4 }), 1, 7, by delta HostReady Ready; decide +kernel⟩,
    ⟨Wit.on (fun ch => ch |> Wit.cad |>.putF pgCaddy CADDY.ACCT_SEL_ACCOUNT 200 |>.putF pgCaddy CADDY.ACCT_SEL_POOL 0 |>.putAcct 200 { st := 0, part := 4 }), 1, 4, by delta HostReady Ready; decide +kernel⟩,
    ⟨Wit.on (fun ch => ch |> Wit.cad |>.putF pgCaddy CADDY.ACCT_SEL_ACCOUNT 200 |>.putF pgCaddy CADDY.ACCT_SEL_POOL 0 |>.putAcct 200 { st := 2 * 0, part := 4 } |> fun ch => if true then ch else ch.putAcctPool 200 1 { use := 3 }), 1, 4, by delta HostReady Ready; decide +kernel⟩,
    ⟨Wit.on (fun ch => ch |> Wit.cad |>.putF pgCaddy CADDY.ACCT_SEL_ACCOUNT 200 |>.putF pgCaddy CADDY.ACCT_SEL_POOL 0 |>.putAcct 200 { st := 1, part := 4 } |> fun ch => if true then ch else ch.putAcctPool 200 1 { use := 3 }), 1, 4, by delta HostReady Ready; decide +kernel⟩,
    ⟨Wit.on (fun ch => ch |> Wit.cad |>.putF pgCaddy CADDY.ACCT_SEL_ACCOUNT 200 |>.putF pgCaddy CADDY.ACCT_SEL_POOL 0 |>.putB pgVoq VOQ.FLUSH_STAT_BUSY true), 1, by delta HostReady Ready; decide +kernel⟩⟩

theorem witness_EgressQueuesAreMappedAndServed :
    (∃ (s : State) (c : Fin 4) (h : _) (n : _), Ready s c ∧ ((s.chan c).buf h).inUse = true ∧ ((s.chan c).buf h).written = true ∧ ((s.chan c).buf h).waiting = true ∧ ((s.chan c).buf h).pkt.egress = true ∧ ((s.chan c).buf h).pkt.mcast = false ∧ ((s.chan c).buf h).queue = 0 ∧ ((s.chan c).buf h).refs = 0 ∧ (s.chan c).egressQueue ((s.chan c).buf h).pkt = some n) ∧
    (∃ (s : State) (c : Fin 4) (h : _), Ready s c ∧ ((s.chan c).buf h).inUse = true ∧ ((s.chan c).buf h).written = true ∧ ((s.chan c).buf h).waiting = true ∧ ((s.chan c).buf h).pkt.egress = true ∧ ((s.chan c).buf h).pkt.mcast = false ∧ ((s.chan c).buf h).queue = 0 ∧ ((s.chan c).buf h).refs = 0 ∧ (s.chan c).egressQueue ((s.chan c).buf h).pkt = none) ∧
    (∃ (s : State) (c : Fin 4) (p : _) (f : _) (rest : _), Ready s c ∧ p < 64 ∧ (s.chan c).enabled pgSched = true ∧ (s.chan c).enabled pgSpout = true ∧ (s.chan c).bridged = true ∧ (s.chan c).oper p = true ∧ tget 0 (s.chan c).sch.pace p ≤ (s.chan c).ns * 1000 ∧ ((s.chan c).pw p).ctl = f :: rest) ∧
    (∃ (s : State) (c : Fin 4) (p : _) (n : _) (e : _) (es : _), Ready s c ∧ p < 64 ∧ (s.chan c).enabled pgSched = true ∧ (s.chan c).enabled pgSpout = true ∧ (s.chan c).bridged = true ∧ (s.chan c).oper p = true ∧ tget 0 (s.chan c).sch.pace p ≤ (s.chan c).ns * 1000 ∧ ((s.chan c).pw p).ctl = [] ∧ (s.chan c).egQueuesOf p = [egQueue n] ∧ (s.chan c).openPaths p = [[n]] ∧ ((s.chan c).node n).gate = none ∧ ((s.chan c).que (egQueue n)).ents = e :: es ∧ (s.chan c).aged p e = false ∧ ((s.chan c).buf e.handle).hdrBad = false) :=
  ⟨
    ⟨Wit.on (fun ch => ch |> Wit.cad |> Wit.sbuf (2 ^ 29 + 5) (Wit.ipkt 1 0) true true |> Wit.eqm), 1, (2 ^ 29 + 5), 123, by delta Ready; decide +kernel⟩,
    ⟨Wit.on (fun ch => ch |> Wit.cad |> Wit.sbuf (2 ^ 29 + 5) (Wit.ipkt 1 0) true true |>.putB pgSched (SCHED.EQ_MAP_VALID 59) false), 1, (2 ^ 29 + 5), by delta Ready; decide +kernel⟩,
    ⟨Wit.on (fun ch => ch |>.putB pgSpout CTRL_ENABLE true |>.putB (pgBrdg 0) CTRL_ENABLE true |>.putB (pgBrdg 1) CTRL_ENABLE true |> Wit.egq |> fun ch => ch.putPw 7 { ch.pw 7 with ctl := [{ bytes := List.replicate 64 3 }] }), 1, 7, { bytes := List.replicate 64 3 }, [], by delta Ready; decide +kernel⟩,
    ⟨Wit.on (fun ch => ch |>.putB pgSpout CTRL_ENABLE true |>.putB (pgBrdg 0) CTRL_ENABLE true |>.putB (pgBrdg 1) CTRL_ENABLE true |> Wit.egq), 1, 7, 123, ⟨2 ^ 29 + 5, 68, 0, pcIndex 1 7 3⟩, [], by delta Ready; decide +kernel⟩⟩

theorem witness_SchedulerNodes :
    (∃ (s : State) (c : Fin 4) (n : _), HostReady s c ∧ n < 2 ^ 17) ∧
    (∃ (s : State) (c : Fin 4), HostReady s c ∧ (s.chan c).nodeResult ((s.chan c).getF pgSched SCHED.NODE_SEL_NODE) ((s.chan c).askedNode) = 0 ∧ ((s.chan c).askedNode).valid = true) ∧
    (∃ (s : State) (c : Fin 4), HostReady s c ∧ (s.chan c).nodeResult ((s.chan c).getF pgSched SCHED.NODE_SEL_NODE) ((s.chan c).askedNode) ≠ 0) ∧
    (∃ (s : State) (c : Fin 4) (n : _), Ready s c ∧ n < 131072 ∧ ((s.chan c).node n).valid = true) :=
  ⟨
    ⟨Wit.on (fun ch => ch |> Wit.cad |>.putF pgSched SCHED.NODE_SEL_NODE 123), 1, (123), by delta HostReady Ready; decide +kernel⟩,
    ⟨Wit.on (fun ch => ch |> Wit.cad |>.putF pgSched SCHED.NODE_SEL_NODE 123 |>.putList pgSched (SCHED.NODE_W 0) [(nodeDefault 123).w0, 5, 1000, 2000, 300, 400, 0]), 1, by delta HostReady Ready; decide +kernel⟩,
    ⟨Wit.on (fun ch => ch |> Wit.cad |>.putF pgSched SCHED.NODE_SEL_NODE 123 |>.putList pgSched (SCHED.NODE_W 0) [(nodeDefault 123).w0, 0, 1000, 2000, 300, 400, 0]), 1, by delta HostReady Ready; decide +kernel⟩,
    ⟨Wit.on (fun ch => ch |> Wit.cad |>.putF pgSched SCHED.NODE_SEL_NODE 123), 1, 123, by delta Ready; decide +kernel⟩⟩

theorem witness_GateControlLists :
    (∃ (s : State) (c : Fin 4) (idx : _), HostReady s c ∧ idx < 1024) ∧
    (∃ (s : State) (c : Fin 4) (dur : _), HostReady s c ∧ dur < 2 ^ 30 ∧ (s.chan c).getB pgSpout SPOUT.ENT_IDX_OPER = false ∧ ((s.chan c).glist ((s.chan c).selList)).pend = false) ∧
    (∃ (s : State) (c : Fin 4) (dur : _), HostReady s c ∧ dur < 2 ^ 30 ∧ (s.chan c).getB pgSpout SPOUT.ENT_IDX_OPER = false ∧ ((s.chan c).glist ((s.chan c).selList)).pend = true) ∧
    (∃ (s : State) (c : Fin 4) (m : _), Ready s c ∧ (s.chan c).enabled pgSpout = true ∧ ((s.chan c).glist m).pend = true ∧ t64At ((s.chan c).glist m).start (s.chan c).timeNs ≤ ((s.chan c).timeNs : Int)) ∧
    (∃ (s : State) (c : Fin 4) (m : _) (e : _), Ready s c ∧ m < 256 ∧ ((s.chan c).glist m).running = true ∧ e < (((s.chan c).glist m).bank ((s.chan c).glist m).oper).len) :=
  ⟨
    ⟨Wit.on (fun ch => ch |>.putB pgSpout CTRL_ENABLE true |>.putF pgSpout SPOUT.LIST_SEL_LIST 3 |>.putGlist 3 { bank0 := { ents := [(0, 5 * 2 ^ 32 + 6)] }, bank1 := { ents := [(0, 7 * 2 ^ 32 + 8), (1, 9)] } }), 1, 0, by delta HostReady Ready; decide +kernel⟩,
    ⟨Wit.on (fun ch => ch |>.putB pgSpout CTRL_ENABLE true |>.putF pgSpout SPOUT.LIST_SEL_LIST 3 |>.putF pgSpout SPOUT.ENT_IDX_ENTRY 1023), 1, 77, by delta HostReady Ready; decide +kernel⟩,
    ⟨Wit.on (fun ch => ch |>.putB pgSpout CTRL_ENABLE true |>.putF pgSpout SPOUT.LIST_SEL_LIST 3 |>.putGlist 3 { pend := true }), 1, 77, by delta HostReady Ready; decide +kernel⟩,
    ⟨Wit.on (fun ch => ch |>.putB pgSpout CTRL_ENABLE true |>.putF pgSpout SPOUT.LIST_SEL_LIST 3 |>.putGlist 3 { pend := true, start := 0, bank0 := { len := 2, cycle := 50 }, bank1 := { len := 1, cycle := 60 } }), 1, 3, by delta Ready; decide +kernel⟩,
    ⟨Wit.on (fun ch => ch |>.putB pgSpout CTRL_ENABLE true |>.putF pgSpout SPOUT.LIST_SEL_LIST 3 |>.putGlist 3 { running := true, bank0 := { len := 2 } }), 1, 3, 1, by delta Ready; decide +kernel⟩⟩

theorem witness_FramesAreLaunched :
    (∃ (s : State) (c : Fin 4) (p : Nat) (k : Pkt) (late : Bool) (rest : List MacFrame), Ready s c ∧ p < 64 ∧ ((s.chan c).pw p).mac = .data k late :: rest) :=
    ⟨Wit.on (fun ch => ch |> Wit.egq |> fun ch => ch.putPw 7 { ch.pw 7 with mac := [.data (Wit.ipkt 1 0) false] }), 1, 7, (Wit.ipkt 1 0), false, [], by delta Ready; decide +kernel⟩

theorem witness_EgressInEveryState :
    (∃ (s : State) (c : Fin 4), Ready s c ∧ ((s.chan c).enabled pgSched = false ∨ (s.chan c).enabled pgSpout = false ∨ (s.chan c).bridged = false)) ∧
    (∃ (s : State) (c : Fin 4) (p : Nat), Ready s c ∧ (64 ≤ p ∨ (s.chan c).oper p = false ∨ (s.chan c).ns * 1000 < tget 0 (s.chan c).sch.pace p)) ∧
    (∃ (s : State) (c : Fin 4) (p : Nat) (q : Nat) (f : CtlFrame) (g : CtlFrame) (fs : List CtlFrame) (gs : List CtlFrame), Ready s c ∧ p < 64 ∧ q < 64 ∧ p ≠ q ∧ (s.chan c).enabled pgSched = true ∧ (s.chan c).enabled pgSpout = true ∧ (s.chan c).bridged = true ∧ (s.chan c).oper p = true ∧ (s.chan c).oper q = true ∧ tget 0 (s.chan c).sch.pace p ≤ (s.chan c).ns * 1000 ∧ tget 0 (s.chan c).sch.pace q ≤ (s.chan c).ns * 1000 ∧ ((s.chan c).pw p).ctl = f :: fs ∧ ((s.chan c).pw q).ctl = g :: gs) ∧
    (∃ (s : State) (c : Fin 4) (p : _) (n : _) (e : _) (es : _), Ready s c ∧ p < 64 ∧ (s.chan c).enabled pgSched = true ∧ (s.chan c).enabled pgSpout = true ∧ (s.chan c).bridged = true ∧ (s.chan c).oper p = true ∧ tget 0 (s.chan c).sch.pace p ≤ (s.chan c).ns * 1000 ∧ ((s.chan c).pw p).ctl = [] ∧ (s.chan c).egQueuesOf p = [egQueue n] ∧ (s.chan c).openPaths p = [[n]] ∧ ((s.chan c).node n).gate = none ∧ ((s.chan c).que (egQueue n)).ents = e :: es ∧ (s.chan c).aged p e = false) ∧
    (∃ (s : State) (c : Fin 4) (h : _), Ready s c ∧ (((s.chan c).buf h).inUse = false ∨ ((s.chan c).buf h).written = false ∨ ((s.chan c).buf h).waiting = false ∨ ((s.chan c).buf h).pkt.egress = false ∨ ((s.chan c).buf h).pkt.mcast = true ∨ ((s.chan c).buf h).queue ≠ 0)) ∧
    (∃ (s : State) (c : Fin 4) (n : _), Ready s c ∧ (131072 ≤ n ∨ ((s.chan c).node n).valid = false)) ∧
    (∃ (s : State) (c : Fin 4) (m : _), Ready s c ∧ ((s.chan c).enabled pgSpout = false ∨ ((s.chan c).glist m).pend = false ∨ ((s.chan c).timeNs : Int) < t64At ((s.chan c).glist m).start (s.chan c).timeNs)) ∧
    (∃ (s : State) (c : Fin 4) (m : _) (e : _), Ready s c ∧ (256 ≤ m ∨ ((s.chan c).glist m).running = false ∨ (((s.chan c).glist m).bank ((s.chan c).glist m).oper).len ≤ e)) ∧
    (∃ (s : State) (c : Fin 4) (p : Nat) (pos : Nat), Ready s c ∧ ((s.chan c).pw p).mac[pos]? = none) ∧
    (∃ (s : State) (c : Fin 4) (p : _) (k : _) (late : _) (x : _) (own : _), Ready s c ∧ ((s.chan c).pw p).mac = [.data k late, .control x own] ∧ (s.chan c).preemptable p k.tc = true) ∧
    (∃ (s : State) (c : Fin 4) (p : _) (k : _) (late : _) (x : _) (own : _), Ready s c ∧ ((s.chan c).pw p).mac = [.data k late, .control x own] ∧ (s.chan c).preemptable p k.tc = false) ∧
    (∃ (s : State) (c : Fin 4) (p : _) (k : _) (late : _) (x : _) (own : _), Ready s c ∧ ((s.chan c).pw p).mac = [.data k late, .control x own]) ∧
    (∃ (s : State) (c : Fin 4) (p : _) (k : _) (late : _) (x : _) (own : _), Ready s c ∧ ((s.chan c).pw p).mac = [.control x own, .data k late]) ∧
    (∃ (s : State) (c : Fin 4) (p : _) (k : _) (late : _) (x : _) (own : _), Ready s c ∧ ((s.chan c).pw p).mac = [.control x own, .data k late] ∧ (s.chan c).preemptable p k.tc = true) ∧
    (∃ (s : State) (c : Fin 4), HostReady s c ∧ (s.chan c).nodeResult ((s.chan c).getF pgSched SCHED.NODE_SEL_NODE) (s.chan c).askedNode = 0 ∧ (s.chan c).askedNode.valid = false) ∧
    (∃ (s : State) (c : Fin 4) (dur : _), HostReady s c ∧ dur < 2 ^ 30 ∧ (s.chan c).getB pgSpout SPOUT.ENT_IDX_OPER = true) ∧
    (∃ (s : State) (c : Fin 4) (dur : _), HostReady s c ∧ dur < 2 ^ 30 ∧ ((s.chan c).glist (s.chan c).selList).pend = true) :=
  ⟨
    ⟨Wit.on (fun ch => ch |> Wit.egq |>.putB pgSpout CTRL_ENABLE false), 1, by delta Ready; decide +kernel⟩,
    ⟨Wit.on (fun ch => ch |>.putB pgSched CTRL_ENABLE true |>.putB pgSpout CTRL_ENABLE true |>.putB (pgBrdg 0) CTRL_ENABLE true |>.putB (pgBrdg 1) CTRL_ENABLE true), 1, 7, by delta Ready; decide +kernel⟩,
    ⟨Wit.on (fun ch => ch |>.putB pgSched CTRL_ENABLE true |>.putB pgSpout CTRL_ENABLE true |>.putB (pgBrdg 0) CTRL_ENABLE true |>.putB (pgBrdg 1) CTRL_ENABLE true |> Wit.port 7 |> Wit.port 9 |> fun ch => (ch.putPw 7 { ch.pw 7 with ctl := [{ bytes := List.replicate 64 3 }] }).putPw 9 { ch.pw 9 with ctl := [{ bytes := List.replicate 70 4 }, { bytes := [] }] }), 1, 7, 9, { bytes := List.replicate 64 3 }, { bytes := List.replicate 70 4 }, [], [{ bytes := [] }], by delta Ready; decide +kernel⟩,
    ⟨Wit.on (fun ch => ch |>.putB pgSched CTRL_ENABLE true |>.putB pgSpout CTRL_ENABLE true |>.putB (pgBrdg 0) CTRL_ENABLE true |>.putB (pgBrdg 1) CTRL_ENABLE true |> Wit.egq), 1, 7, 123, ⟨2 ^ 29 + 5, 68, 0, pcIndex 1 7 3⟩, [], by delta Ready; decide +kernel⟩,
    ⟨Wit.on (fun ch => ch |> Wit.cad |> Wit.sbuf (2 ^ 29 + 5) (Wit.ipkt 1 0) false true), 1, (2 ^ 29 + 5), by delta Ready; decide +kernel⟩,
    ⟨Wit.on (fun ch => ch), 1, 200000, by delta Ready; decide +kernel⟩,
    ⟨Wit.on (fun ch => ch |>.putB pgSpout CTRL_ENABLE true |>.putGlist 3 { pend := false, start := 5 * 2 ^ 32, bank0 := { len := 2, cycle := 50 } }), 1, 3, by delta Ready; decide +kernel⟩,
    ⟨Wit.on (fun ch => ch |>.putGlist 3 { running := true, bank0 := { len := 2 } }), 1, 3, 2, by delta Ready; decide +kernel⟩,
    ⟨Wit.on (fun ch => ch), 1, 7, 2, by delta Ready; decide +kernel⟩,
    ⟨Wit.on (fun ch => ch |> Wit.egq |> fun ch => ch.putPw 7 { ch.pw 7 with mac := [.data (Wit.ipkt 1 0) false, .control { bytes := List.replicate 64 3 } 0] } |>.putB (portPg 7) (LINE.PREEMPT_CFG_EN (portBlk 7)) true |>.putF (portPg 7) (LINE.PREEMPT_CFG_PREEMPTABLE (portBlk 7)) 0xFF |>.putB (portPg 7) (LINE.PREEMPT_CFG_VERIFY_DIS (portBlk 7)) true), 1, 7, (Wit.ipkt 1 0), false, { bytes := List.replicate 64 3 }, 0, by delta Ready; decide +kernel⟩,
    ⟨Wit.on (fun ch => ch |> Wit.egq |> fun ch => ch.putPw 7 { ch.pw 7 with mac := [.data (Wit.ipkt 1 0) false, .control { bytes := List.replicate 64 3 } 0] }), 1, 7, (Wit.ipkt 1 0), false, { bytes := List.replicate 64 3 }, 0, by delta Ready; decide +kernel⟩,
    ⟨Wit.on (fun ch => ch |> Wit.egq |> fun ch => ch.putPw 7 { ch.pw 7 with mac := [.data (Wit.ipkt 1 0) false, .control { bytes := List.replicate 64 3 } 0] }), 1, 7, (Wit.ipkt 1 0), false, { bytes := List.replicate 64 3 }, 0, by delta Ready; decide +kernel⟩,
    ⟨Wit.on (fun ch => ch |> Wit.egq |> fun ch => ch.putPw 7 { ch.pw 7 with mac := [.control { bytes := List.replicate 64 3, pfc := if true then some (5, 77) else none } 0, .data (Wit.ipkt 1 0) false] }), 1, 7, (Wit.ipkt 1 0), false, { bytes := List.replicate 64 3, pfc := if true then some (5, 77) else none }, 0, by delta Ready; decide +kernel⟩,
    ⟨Wit.on (fun ch => ch |> Wit.egq |> fun ch => ch.putPw 7 { ch.pw 7 with mac := [.control { bytes := List.replicate 64 3, pfc := if true then some (5, 77) else none } 0, .data (Wit.ipkt 1 0) false] } |>.putB (portPg 7) (LINE.PREEMPT_CFG_EN (portBlk 7)) true |>.putF (portPg 7) (LINE.PREEMPT_CFG_PREEMPTABLE (portBlk 7)) 0xFF |>.putB (portPg 7) (LINE.PREEMPT_CFG_VERIFY_DIS (portBlk 7)) true), 1, 7, (Wit.ipkt 1 0), false, { bytes := List.replicate 64 3, pfc := if true then some (5, 77) else none }, 0, by delta Ready; decide +kernel⟩,
    ⟨Wit.on (fun ch => ch |> Wit.cad |>.putF pgSched SCHED.NODE_SEL_NODE 123 |>.putList pgSched (SCHED.NODE_W 0) [(nodeDefault 123).w0 % 2 ^ 31, 5, 1000, 2000, 300, 400, 0]), 1, by delta HostReady Ready; decide +kernel⟩,
    ⟨Wit.on (fun ch => ch |>.putB pgSpout SPOUT.ENT_IDX_OPER true), 1, 77, by delta HostReady Ready; decide +kernel⟩,
    ⟨Wit.on (fun ch => ch |>.putF pgSpout SPOUT.LIST_SEL_LIST 3 |>.putGlist 3 { pend := true }), 1, 77, by delta HostReady Ready; decide +kernel⟩⟩

theorem witness_FabricCellsAndReassembly :
    (∃ (s : State) (c : Fin 4) (l : _) (x : _), Ready s c ∧ (s.chan c).enabled pgFab = true ∧ l < 48 ∧ (s.chan c).fabState l = 3 ∧ ((s.chan c).fabLane l).txq = [] ∧ ((s.chan c).fabLane l).ctlAt ≤ (s.chan c).wireNow ∧ (s.chan c).fab.ctlQ.find? (fun x => (s.chan c).laneReaches l x.dst) = some x) ∧
    (∃ (s : State) (c : Fin 4) (l : _) (bs : List Byte), Ready s c ∧ (s.chan c).enabled pgFab = true ∧ l < 48 ∧ (s.chan c).fabState l = 3 ∧ beAt bs 14 2 ≠ crc16 (sliceBytes bs 0 14)) ∧
    (∃ (s : State) (c : Fin 4) (l : _) (bs : List Byte), Ready s c ∧ (s.chan c).enabled pgFab = true ∧ l < 48 ∧ (s.chan c).fabState l = 3 ∧ beAt bs 14 2 = crc16 (sliceBytes bs 0 14) ∧ nbits (beAt bs 0 14) 15 0 = crc16 (cellOf l bs).payload ∧ (cellOf l bs).typ = 1 ∧ (cellOf l bs).payload ≠ [] ∧ (cellOf l bs).payload.length ≤ 240 ∧ (cellOf l bs).dst = (s.chan c).chanId ∧ (s.chan c).sportChan (cellOf l bs).dport = some (s.chan c).chanId ∧ (cellOf l bs).seq = ((s.chan c).reasm (cellOf l bs).src).next ∧ ((s.chan c).reasm (cellOf l bs).src).held = [] ∧ ((s.chan c).reasm (cellOf l bs).src).open_ ≠ [] ∧ (cellOf l bs).first = false ∧ (cellOf l bs).last = false) ∧
    (∃ (s : State) (c : Fin 4) (k : _), Ready s c ∧ ((s.chan c).reasm k).held ≠ []) ∧
    (∃ (s : State) (c : Fin 4) (k : _), Ready s c ∧ ((s.chan c).reasm k).lateLow ≠ 0) :=
  ⟨
    ⟨Wit.on (fun ch => ch |> Wit.lane 3 |> fun ch => ch.onFab (fun w => { w with reach := [(20, 512)], ctlQ := [{ typ := 3, first := true, last := true, dst := 9, payload := [1, 2, 3, 4] }] })), 1, 5, { typ := 3, first := true, last := true, dst := 9, payload := [1, 2, 3, 4] }, by delta Ready; decide +kernel⟩,
    ⟨Wit.on (fun ch => ch |> Wit.lane 3), 1, 5, (List.replicate 20 7), by delta Ready; decide +kernel⟩,
    ⟨Wit.on (fun ch => ch |> Wit.lane 3 |> fun ch => (ch.onFab (fun w => { w with sport := [(44, 0x80000000)] })).putReasm 9 { next := 17, open_ := [{ Wit.cell with first := true, seq := 16 }] }), 1, 5, Wit.cell.bytes, by delta Ready; decide +kernel⟩,
    ⟨Wit.on (fun ch => ch |> Wit.lane 3 |>.putReasm 9 { next := 15, held := [(3, Wit.cell)] }), 1, 9, by delta Ready; decide +kernel⟩,
    ⟨Wit.on (fun ch => ch |> Wit.lane 3 |>.putReasm 9 { next := 15, lateLow := 9, held := [] }), 1, 9, by delta Ready; decide +kernel⟩⟩

theorem witness_FabricLanes :
    (∃ (s : State) (c : Fin 4) (l : Nat), Ready s c ∧ l < 48 ∧ (s.chan c).getB pgFab (FAB.LANE_CFG_EN l) = true ∧ (s.chan c).getB pgFab (FAB.LANE_CFG_PD l) = false ∧ (s.chan c).fabState l ≤ 1) ∧
    (∃ (s : State) (c : Fin 4) (l : Nat), Ready s c ∧ l < 48 ∧ ((s.chan c).fabState l = 1 ∨ (s.chan c).fabState l = 2 ∨ (s.chan c).fabState l = 4 ∨ (s.chan c).fabState l = 6)) ∧
    (∃ (s : State) (c : Fin 4) (l : Nat), Ready s c ∧ l < 48 ∧ (s.chan c).fabState l = 3) ∧
    (∃ (s : State) (c : Fin 4) (l : Nat) (j : _), Ready s c ∧ l < 48 ∧ ((s.chan c).fabLane l).spareDue = true ∧ firstBelow 48 (fun j => (s.chan c).fabState j == 4 && (s.chan c).getF pgFab (FAB.LANE_CFG_PEER_CHAN j) == (s.chan c).getF pgFab (FAB.LANE_CFG_PEER_CHAN l)) = some j) ∧
    (∃ (s : State) (c : Fin 4) (l : Nat), Ready s c ∧ l < 48 ∧ (s.chan c).enabled pgFab = true ∧ (((s.chan c).fabState l = 2 ∨ (s.chan c).fabState l = 3 ∨ (s.chan c).fabState l = 4)) ∧ ((s.chan c).fabLane l).txq = []) ∧
    (∃ (s : State) (c : Fin 4) (l : Nat), Ready s c ∧ l < 48 ∧ ((s.chan c).fabState l = 3 ∨ (s.chan c).fabState l = 4)) ∧
    (∃ (s : State) (c : Fin 4) (l : Nat) (b : _) (x : Nat × Nat) (xs : _), Ready s c ∧ l < 48 ∧ b < 4 ∧ tget [] (s.chan c).fab.reachAt (4 * l + b) = xs ++ [x]) :=
  ⟨
    ⟨Wit.on (fun ch => ch |> Wit.lane 0), 1, 5, by delta Ready; decide +kernel⟩,
    ⟨Wit.on (fun ch => ch |> Wit.lane (1)), 1, 5, by delta Ready; decide +kernel⟩,
    ⟨Wit.on (fun ch => ch |> Wit.lane 3), 1, 5, by delta Ready; decide +kernel⟩,
    ⟨Wit.on (fun ch => ch |>.putF pgFab (FAB.LANE_STAT_STATE 6) 4 |>.putFabLane 5 { spareDue := true }), 1, 5, 6, by delta Ready; decide +kernel⟩,
    ⟨Wit.on (fun ch => ch |> Wit.lane 2), 1, 5, by delta Ready; decide +kernel⟩,
    ⟨Wit.on (fun ch => ch |> Wit.lane 3), 1, 5, by delta Ready; decide +kernel⟩,
    ⟨Wit.on (fun ch => ch |> Wit.lane 3 |> fun ch => ch.onFab (fun w => { w with reach := [(20, 5)], reachAt := [(20, [(1, 99), (4, 77)])] })), 1, 5, 0, (4, 77), [(1, 99)], by delta Ready; decide +kernel⟩⟩

theorem witness_FabricCredits :
    (∃ (s : State) (c : Fin 4), Ready s c ∧ (s.chan c).enabled pgFab = true) ∧
    (∃ (s : State) (c : Fin 4) (q : _) (d : _), Ready s c ∧ q < 0x80000 ∧ tget false (s.chan c).fab.reqOn q = true ∧ (s.chan c).sportChan (q / 8) = some d ∧ (s.chan c).enabled pgFab = true ∧ (s.chan c).reachable d = true) ∧
    (∃ (s : State) (c : Fin 4) (port : _) (src : _) (tc : _) (x : _), Ready s c ∧ (s.chan c).fab.reqs.find? (fun r => r.port == port && r.src == src && r.tc == tc) = some x) ∧
    (∃ (s : State) (c : Fin 4) (q : _), Ready s c ∧ q < 0x80000 ∧ tget 0 (s.chan c).fab.emptyAt q ≠ 0) :=
  ⟨
    ⟨Wit.on (fun ch => ch |> Wit.lane 3), 1, by delta Ready; decide +kernel⟩,
    ⟨Wit.on (fun ch => ch |> Wit.lane 3 |> fun ch => ch.onFab (fun w => { w with reach := [(20, 512)], reqOn := [(323, true)], sport := [(40, 0x80000009)] })), 1, 323, 9, by delta Ready; decide +kernel⟩,
    ⟨Wit.on (fun ch => ch |> Wit.lane 3 |> fun ch => ch.onFab (fun w => { w with reqs := [⟨1, 1, 1, 1, 1⟩, ⟨3, 9, 2, 44, 0⟩] })), 1, 3, 9, 2, ⟨3, 9, 2, 44, 0⟩, by delta Ready; decide +kernel⟩,
    ⟨Wit.on (fun ch => ch |> Wit.lane 3 |> fun ch => ch.onFab (fun w => { w with emptyAt := [(323, 1)], bal := [(323, 700)] })), 1, 323, by delta Ready; decide +kernel⟩⟩

theorem witness_FabricConfiguration :
    (∃ (s : State) (c : Fin 4), HostReady s c ∧ (s.chan c).enabled pgFab = false) ∧
    (∃ (s : State) (c : Fin 4) (v : Word), HostReady s c ∧ (s.chan c).enabled pgFab = true ∧ fld v 11 0 ≠ (s.chan c).chanId) ∧
    (∃ (s : State) (c : Fin 4) (l : _) (v : Word), HostReady s c ∧ l < 48 ∧ (s.chan c).fabState l = 0 ∧ fld v 30 29 ≠ 3 ∧ fld v 28 27 = 0 ∧ bit v 31 = true) ∧
    (∃ (s : State) (c : Fin 4) (i : _), HostReady s c ∧ i < 65536) ∧
    (∃ (s : State) (c : Fin 4) (d : _) (l : _), HostReady s c ∧ d < 4096 ∧ l < 48 ∧ (s.chan c).mesh = false) :=
  ⟨
    ⟨Wit.on (fun ch => ch |>.putB pgFab CTRL_ENABLE true |>.putB pgFab CTRL_ENABLE false), 1, by delta HostReady Ready; decide +kernel⟩,
    ⟨Wit.on (fun ch => ch |>.putB pgFab CTRL_ENABLE true), 1, (BitVec.ofNat 32 1), by delta HostReady Ready; decide +kernel⟩,
    ⟨Wit.on (fun ch => ch |>.putB pgFab CTRL_ENABLE true), 1, 5, (BitVec.ofNat 32 2147483648), by delta HostReady Ready; decide +kernel⟩,
    ⟨Wit.on (fun ch => ch |>.putB pgFab CTRL_ENABLE true |> fun ch => ch.onFab (fun w => { w with sport := [(44, 0x80000009)], mcMap := [(44, 0x77)] })), 1, (44), by delta HostReady Ready; decide +kernel⟩,
    ⟨Wit.on (fun ch => ch |>.putB pgFab CTRL_ENABLE true |> Wit.lane 3 |> fun ch => ch.onFab (fun w => { w with reach := [(20, 512)] })), 1, (9), (5), by delta HostReady Ready; decide +kernel⟩⟩

theorem witness_FabricCellsInEveryState :
    (∃ (s : State) (c : Fin 4) (l : _), Ready s c ∧ ((s.chan c).enabled pgFab = false ∨ (s.chan c).laneActive l = false)) ∧
    (∃ (s : State) (c : Fin 4) (l : _), Ready s c ∧ (s.chan c).enabled pgFab = true ∧ l < 48 ∧ (s.chan c).fabState l = 3 ∧ ((s.chan c).drainLane l).fab.ctlQ = [] ∧ (s.chan c).fab.sending = [] ∧ (s.chan c).cad.queues = []) ∧
    (∃ (s : State) (c : Fin 4) (l : _) (d : _) (x : Sending), Ready s c ∧ (s.chan c).enabled pgFab = true ∧ l < 48 ∧ (s.chan c).fabState l = 3 ∧ ((s.chan c).fabLane l).txq = [] ∧ (s.chan c).fab.ctlQ = [] ∧ (s.chan c).cad.queues = [] ∧ d < 4096 ∧ d ≠ (s.chan c).chanId ∧ (s.chan c).fab.sending = [(d, [x])] ∧ nbit ((s.chan c).laneReach l) d = true ∧ x.voq < 0x80000 ∧ (s.chan c).sportChan (x.voq / 8) = some d ∧ tget 0 (s.chan c).fab.turns (d * 64 + l) < (s.chan c).laneWeight l ∧ 240 < x.left.length ∧ x.bad = []) ∧
    (∃ (s : State) (c : Fin 4) (l : _), Ready s c ∧ ((s.chan c).enabled pgFab = false ∨ 48 ≤ l ∨ ((s.chan c).fabState l ≠ 2 ∧ (s.chan c).fabState l ≠ 3 ∧ (s.chan c).fabState l ≠ 4 ∧ (s.chan c).fabState l ≠ 6))) ∧
    (∃ (s : State) (c : Fin 4) (l : _) (bs : List Byte), Ready s c ∧ (s.chan c).enabled pgFab = true ∧ l < 48 ∧ beAt bs 14 2 = crc16 (sliceBytes bs 0 14) ∧ ((s.chan c).fabState l = 2 ∨ (s.chan c).fabState l = 3 ∨ (s.chan c).fabState l = 4 ∨ (s.chan c).fabState l = 6) ∧ ((cellOf l bs).typ = 0 ∨ 6 ≤ (cellOf l bs).typ ∨ (cellOf l bs).payload = [] ∨ 240 < (cellOf l bs).payload.length)) ∧
    (∃ (s : State) (c : Fin 4) (l : _) (bs : List Byte), Ready s c ∧ (s.chan c).enabled pgFab = true ∧ l < 48 ∧ beAt bs 14 2 = crc16 (sliceBytes bs 0 14) ∧ (cellOf l bs).payload ≠ [] ∧ (cellOf l bs).payload.length ≤ 240 ∧ ((s.chan c).fabState l = 2 ∨ (s.chan c).fabState l = 6) ∧ 1 ≤ (cellOf l bs).typ ∧ (cellOf l bs).typ ≤ 4) ∧
    (∃ (s : State) (c : Fin 4) (l : _) (bs : List Byte), Ready s c ∧ (s.chan c).enabled pgFab = true ∧ l < 48 ∧ beAt bs 14 2 = crc16 (sliceBytes bs 0 14) ∧ (cellOf l bs).payload ≠ [] ∧ (cellOf l bs).payload.length ≤ 240 ∧ ((s.chan c).fabState l = 3 ∨ (s.chan c).fabState l = 4) ∧ ((cellOf l bs).typ = 1 ∨ (cellOf l bs).typ = 2) ∧ (nbits (beAt bs 0 14) 15 0 == crc16 (cellOf l bs).payload) = false) ∧
    (∃ (s : State) (c : Fin 4) (l : _) (bs : List Byte), Ready s c ∧ (s.chan c).enabled pgFab = true ∧ l < 48 ∧ beAt bs 14 2 = crc16 (sliceBytes bs 0 14) ∧ (cellOf l bs).payload ≠ [] ∧ (cellOf l bs).payload.length ≤ 240 ∧ ((s.chan c).fabState l = 3 ∨ (s.chan c).fabState l = 4) ∧ (nbits (beAt bs 0 14) 15 0 == crc16 (cellOf l bs).payload) = true ∧ (cellOf l bs).typ = 1 ∧ ¬((cellOf l bs).dst = (s.chan c).chanId ∧ (s.chan c).sportChan (cellOf l bs).dport = some (s.chan c).chanId)) ∧
    (∃ (s : State) (c : Fin 4) (l : _) (bs : List Byte), Ready s c ∧ (s.chan c).enabled pgFab = true ∧ l < 48 ∧ beAt bs 14 2 = crc16 (sliceBytes bs 0 14) ∧ (cellOf l bs).payload ≠ [] ∧ (cellOf l bs).payload.length ≤ 240 ∧ ((s.chan c).fabState l = 3 ∨ (s.chan c).fabState l = 4) ∧ (nbits (beAt bs 0 14) 15 0 == crc16 (cellOf l bs).payload) = true ∧ (cellOf l bs).typ = 1 ∧ ((cellOf l bs).dst = (s.chan c).chanId ∧ (s.chan c).sportChan (cellOf l bs).dport = some (s.chan c).chanId) ∧ 0 < seqAhead (cellOf l bs).seq ((s.chan c).reasm (cellOf l bs).src).next ∧ seqAhead (cellOf l bs).seq ((s.chan c).reasm (cellOf l bs).src).next < 2 ^ 23 ∧ ((s.chan c).reasm (cellOf l bs).src).held = [] ∧ (s.chan c).reorderUse < 16384) ∧
    (∃ (s : State) (c : Fin 4) (l : _) (bs : List Byte), Ready s c ∧ (s.chan c).enabled pgFab = true ∧ l < 48 ∧ beAt bs 14 2 = crc16 (sliceBytes bs 0 14) ∧ (cellOf l bs).payload ≠ [] ∧ (cellOf l bs).payload.length ≤ 240 ∧ ((s.chan c).fabState l = 3 ∨ (s.chan c).fabState l = 4) ∧ (nbits (beAt bs 0 14) 15 0 == crc16 (cellOf l bs).payload) = true ∧ (cellOf l bs).typ = 1 ∧ ((cellOf l bs).dst = (s.chan c).chanId ∧ (s.chan c).sportChan (cellOf l bs).dport = some (s.chan c).chanId) ∧ 2 ^ 23 ≤ seqAhead (cellOf l bs).seq ((s.chan c).reasm (cellOf l bs).src).next) ∧
    (∃ (s : State) (c : Fin 4) (l : _) (bs : List Byte), Ready s c ∧ (s.chan c).enabled pgFab = true ∧ l < 48 ∧ beAt bs 14 2 = crc16 (sliceBytes bs 0 14) ∧ (cellOf l bs).payload ≠ [] ∧ (cellOf l bs).payload.length ≤ 240 ∧ ((s.chan c).fabState l = 3 ∨ (s.chan c).fabState l = 4) ∧ (nbits (beAt bs 0 14) 15 0 == crc16 (cellOf l bs).payload) = true ∧ (cellOf l bs).typ = 1 ∧ ((cellOf l bs).dst = (s.chan c).chanId ∧ (s.chan c).sportChan (cellOf l bs).dport = some (s.chan c).chanId) ∧ (cellOf l bs).seq = ((s.chan c).reasm (cellOf l bs).src).next ∧ ((s.chan c).reasm (cellOf l bs).src).open_ = [] ∧ ((s.chan c).reasm (cellOf l bs).src).held = [] ∧ (cellOf l bs).first = true ∧ (cellOf l bs).last = false ∧ nbits (beAt (cellOf l bs).context 8 1) 2 2 = (cellOf l bs).parity ∧ min (nbits (beAt (cellOf l bs).context 8 1) 7 6) 2 = min (cellOf l bs).colour 2 ∧ nbits (beAt (cellOf l bs).context 8 1) 5 3 = (cellOf l bs).tc) ∧
    (∃ (s : State) (c : Fin 4) (l : _) (bs : List Byte), Ready s c ∧ (s.chan c).enabled pgFab = true ∧ l < 48 ∧ beAt bs 14 2 = crc16 (sliceBytes bs 0 14) ∧ (cellOf l bs).payload ≠ [] ∧ (cellOf l bs).payload.length ≤ 240 ∧ ((s.chan c).fabState l = 3 ∨ (s.chan c).fabState l = 4) ∧ (nbits (beAt bs 0 14) 15 0 == crc16 (cellOf l bs).payload) = true ∧ (cellOf l bs).typ = 1 ∧ ((cellOf l bs).dst = (s.chan c).chanId ∧ (s.chan c).sportChan (cellOf l bs).dport = some (s.chan c).chanId) ∧ (cellOf l bs).seq = ((s.chan c).reasm (cellOf l bs).src).next ∧ ((s.chan c).reasm (cellOf l bs).src).open_ = [] ∧ ((s.chan c).reasm (cellOf l bs).src).held = [] ∧ (cellOf l bs).first = true ∧ (cellOf l bs).last = false ∧ nbits (beAt (cellOf l bs).context 8 1) 2 2 ≠ (cellOf l bs).parity) ∧
    (∃ (s : State) (c : Fin 4) (l : _) (bs : List Byte), Ready s c ∧ (s.chan c).enabled pgFab = true ∧ l < 48 ∧ beAt bs 14 2 = crc16 (sliceBytes bs 0 14) ∧ (cellOf l bs).payload ≠ [] ∧ (cellOf l bs).payload.length ≤ 240 ∧ ((s.chan c).fabState l = 3 ∨ (s.chan c).fabState l = 4) ∧ (nbits (beAt bs 0 14) 15 0 == crc16 (cellOf l bs).payload) = true ∧ (cellOf l bs).typ = 1 ∧ ((cellOf l bs).dst = (s.chan c).chanId ∧ (s.chan c).sportChan (cellOf l bs).dport = some (s.chan c).chanId) ∧ (cellOf l bs).seq = ((s.chan c).reasm (cellOf l bs).src).next ∧ ((s.chan c).reasm (cellOf l bs).src).open_ = [] ∧ ((s.chan c).reasm (cellOf l bs).src).held = [] ∧ (cellOf l bs).first = false ∧ ((s.chan c).reasm (cellOf l bs).src).skip = false) ∧
    (∃ (s : State) (c : Fin 4) (l : _) (bs : List Byte) (q : _) (n : _), Ready s c ∧ (s.chan c).enabled pgFab = true ∧ l < 48 ∧ beAt bs 14 2 = crc16 (sliceBytes bs 0 14) ∧ (cellOf l bs).payload ≠ [] ∧ (cellOf l bs).payload.length ≤ 240 ∧ ((s.chan c).fabState l = 3 ∨ (s.chan c).fabState l = 4) ∧ (nbits (beAt bs 0 14) 15 0 == crc16 (cellOf l bs).payload) = true ∧ (cellOf l bs).typ = 4 ∧ (cellOf l bs).dst = (s.chan c).chanId ∧ (cellOf l bs).payload = beBytes 4 (grantEntry (q / 8) (q % 8) n) ∧ q < 0x80000 ∧ 0 < n ∧ n ≤ 4 ∧ ((s.chan c).sportChan (q / 8)).isSome = true) ∧
    (∃ (s : State) (c : Fin 4) (l : _) (bs : List Byte) (p : _) (tc : _), Ready s c ∧ (s.chan c).enabled pgFab = true ∧ l < 48 ∧ beAt bs 14 2 = crc16 (sliceBytes bs 0 14) ∧ (cellOf l bs).payload ≠ [] ∧ (cellOf l bs).payload.length ≤ 240 ∧ ((s.chan c).fabState l = 3 ∨ (s.chan c).fabState l = 4) ∧ (nbits (beAt bs 0 14) 15 0 == crc16 (cellOf l bs).payload) = true ∧ (cellOf l bs).typ = 3 ∧ (cellOf l bs).dst = (s.chan c).chanId ∧ (cellOf l bs).payload = beBytes 4 (reqEntry p true tc) ∧ p < 65536 ∧ tc < 8 ∧ (s.chan c).sportChan p = some (s.chan c).chanId ∧ (s.chan c).fab.reqs = []) ∧
    (∃ (s : State) (c : Fin 4) (k : _), Ready s c ∧ ((s.chan c).reasm k).held = []) ∧
    (∃ (s : State) (c : Fin 4) (k : _), Ready s c ∧ ((s.chan c).reasm k).lateLow = 0) :=
  ⟨
    ⟨Wit.on (fun ch => ch |> Wit.lane 3 |>.putB pgFab CTRL_ENABLE (0 != 2)), 1, (6), by delta Ready; decide +kernel⟩,
    ⟨Wit.on (fun ch => ch |> Wit.lane 3 |> fun ch => (ch.putFabLane 5 { txq := if true then [] else [Wit.cell, Wit.cell] })), 1, 5, by delta Ready; decide +kernel⟩,
    ⟨Wit.on (fun ch => ch |> Wit.lane 3 |> fun ch => ch.onFab (fun w => { w with reach := [(20, 512)], sport := [(40, 0x80000009)], seq := [(9, 2 ^ 24 - 1)], sending := [(9, [{ voq := 323, handle := 7, left := List.replicate 500 (BitVec.ofNat 8 0), pos := 0, bad := [], cell := { Wit.cell with first := true, src := 0, dst := 9 } }])] })), 1, 5, 9, { voq := 323, handle := 7, left := List.replicate 500 (BitVec.ofNat 8 0), pos := 0, bad := [], cell := { Wit.cell with first := true, src := 0, dst := 9 } }, by delta Ready; decide +kernel⟩,
    ⟨Wit.on (fun ch => ch |> Wit.lane 3 |>.putB pgFab CTRL_ENABLE (0 != 2)), 1, (6), by delta Ready; decide +kernel⟩,
    ⟨Wit.on (fun ch => ch |> Wit.lane 3 |> fun ch => (ch.onFab (fun w => { w with sport := [(44, 0x80007000)] }))), 1, 5, ({ Wit.cell with typ := 6 }.bytes), by delta Ready; decide +kernel⟩,
    ⟨Wit.on (fun ch => ch |> Wit.lane 3 |> fun ch => (ch.onFab (fun w => { w with sport := [(44, 0x80007000)] })) |> Wit.lane (2)), 1, 5, { Wit.cell with typ := 1 }.bytes, by delta Ready; decide +kernel⟩,
    ⟨Wit.on (fun ch => ch |> Wit.lane 3 |> fun ch => (ch.onFab (fun w => { w with sport := [(44, 0x80007000)] }))), 1, 5, { Wit.cell with typ := 1, bad := true }.bytes, by delta Ready; decide +kernel⟩,
    ⟨Wit.on (fun ch => ch |> Wit.lane 3 |> fun ch => (ch.onFab (fun w => { w with sport := [(44, 0x80007000)] })) |> Wit.lane 3), 1, 5, ({ Wit.cell with dst := 5 }.bytes), by delta Ready; decide +kernel⟩,
    ⟨Wit.on (fun ch => ch |> Wit.lane 3 |> fun ch => (ch.onFab (fun w => { w with sport := [(44, 0x80007000)] })) |>.putReasm 9 { next := 12 }), 1, 5, Wit.cell.bytes, by delta Ready; decide +kernel⟩,
    ⟨Wit.on (fun ch => ch |> Wit.lane 3 |> fun ch => (ch.onFab (fun w => { w with sport := [(44, 0x80007000)] })) |>.putReasm 9 { next := 18 }), 1, 5, Wit.cell.bytes, by delta Ready; decide +kernel⟩,
    ⟨Wit.on (fun ch => ch |> Wit.lane 3 |> fun ch => (ch.onFab (fun w => { w with sport := [(44, 0x80007000)] })) |>.putReasm 9 { next := 17 }), 1, 5, { Wit.cell with first := true, tc := 3, payload := List.replicate 8 0 ++ [0x18] ++ List.replicate 40 7 }.bytes, by delta Ready; decide +kernel⟩,
    ⟨Wit.on (fun ch => ch |> Wit.lane 3 |> fun ch => (ch.onFab (fun w => { w with sport := [(44, 0x80007000)] })) |>.putReasm 9 { next := 17 }), 1, 5, { Wit.cell with first := true, tc := 3, parity := 1, payload := List.replicate 8 0 ++ [0x18] ++ List.replicate 40 7 }.bytes, by delta Ready; decide +kernel⟩,
    ⟨Wit.on (fun ch => ch |> Wit.lane 3 |> fun ch => (ch.onFab (fun w => { w with sport := [(44, 0x80007000)] })) |>.putReasm 9 { next := 17 }), 1, 5, Wit.cell.bytes, by delta Ready; decide +kernel⟩,
    ⟨Wit.on (fun ch => ch |> Wit.lane 3 |> fun ch => (ch.onFab (fun w => { w with sport := [(44, 0x80007000)] }))), 1, 5, { Wit.cell with typ := 4, payload := beBytes 4 (grantEntry 44 3 1) }.bytes, (44 * 8 + 3), 1, by delta Ready; decide +kernel⟩,
    ⟨Wit.on (fun ch => ch |> Wit.lane 3 |> fun ch => (ch.onFab (fun w => { w with sport := [(44, 0x80007000)] }))), 1, 5, { Wit.cell with typ := 3, payload := beBytes 4 (reqEntry 44 true 5) }.bytes, 44, 5, by delta Ready; decide +kernel⟩,
    ⟨Wit.on (fun ch => ch |> Wit.lane 3), 1, 9, by delta Ready; decide +kernel⟩,
    ⟨Wit.on (fun ch => ch |> Wit.lane 3), 1, 9, by delta Ready; decide +kernel⟩⟩

theorem witness_FabricLanesInEveryState :
    (∃ (s : State) (c : Fin 4) (l : Nat) (bs : List Byte), Ready s c ∧ l < 48 ∧ (s.chan c).enabled pgFab = true ∧ bs = ({ (s.chan c).hello with src := 0, payload := beBytes 2 9 ++ beBytes 1 (if (s.chan c).mesh then 1 else 2) ++ List.replicate 5 0 } : Cell).bytes ∧ ((s.chan c).fabState l = 2 ∨ (s.chan c).fabState l = 6) ∧ (s.chan c).mesh = false) ∧
    (∃ (s : State) (c : Fin 4) (l : Nat) (bs : List Byte), Ready s c ∧ l < 48 ∧ (s.chan c).enabled pgFab = true ∧ bs = ({ (s.chan c).hello with src := 0, payload := beBytes 2 9 ++ beBytes 1 (if (s.chan c).mesh then 1 else 2) ++ List.replicate 5 0 } : Cell).bytes ∧ (s.chan c).fabState l = 2 ∧ (s.chan c).mesh = true ∧ (s.chan c).getF pgFab (FAB.LANE_CFG_PEER_CHAN l) = 9) ∧
    (∃ (s : State) (c : Fin 4) (l : Nat) (bs : List Byte), Ready s c ∧ l < 48 ∧ (s.chan c).enabled pgFab = true ∧ bs = ({ (s.chan c).hello with src := 0, payload := beBytes 2 9 ++ beBytes 1 (if (s.chan c).mesh then 1 else 2) ++ List.replicate 5 0 } : Cell).bytes ∧ ((s.chan c).fabState l = 2 ∨ (s.chan c).fabState l = 3 ∨ (s.chan c).fabState l = 4) ∧ (s.chan c).mesh = true ∧ (s.chan c).getF pgFab (FAB.LANE_CFG_PEER_CHAN l) ≠ 9) ∧
    (∃ (s : State) (c : Fin 4) (l : Nat) (bs : List Byte), Ready s c ∧ l < 48 ∧ (s.chan c).enabled pgFab = true ∧ bs = ({ (s.chan c).hello with src := 0, payload := beBytes 2 9 ++ beBytes 1 (if (s.chan c).mesh then 1 else 2) ++ List.replicate 5 0 } : Cell).bytes ∧ (s.chan c).fabState l = 3 ∧ (s.chan c).mesh = false) ∧
    (∃ (s : State) (c : Fin 4) (l : Nat), Ready s c ∧ (48 ≤ l ∨ (s.chan c).getB pgFab (FAB.LANE_CFG_EN l) = false ∨ (s.chan c).getB pgFab (FAB.LANE_CFG_PD l) = true ∨ 2 ≤ (s.chan c).fabState l)) ∧
    (∃ (s : State) (c : Fin 4) (l : Nat), Ready s c ∧ (48 ≤ l ∨ (s.chan c).fabState l = 0 ∨ (s.chan c).fabState l = 3 ∨ (s.chan c).fabState l = 5)) ∧
    (∃ (s : State) (c : Fin 4) (l : Nat), Ready s c ∧ (48 ≤ l ∨ (s.chan c).fabState l ≠ 3)) ∧
    (∃ (s : State) (c : Fin 4) (l : Nat), Ready s c ∧ (48 ≤ l ∨ ((s.chan c).fabLane l).spareDue = false)) ∧
    (∃ (s : State) (c : Fin 4) (l : Nat), Ready s c ∧ l < 48 ∧ ((s.chan c).fabLane l).spareDue = true ∧ firstBelow 48 (fun j => (s.chan c).fabState j == 4 && (s.chan c).getF pgFab (FAB.LANE_CFG_PEER_CHAN j) == (s.chan c).getF pgFab (FAB.LANE_CFG_PEER_CHAN l)) = none) ∧
    (∃ (s : State) (c : Fin 4) (l : Nat), Ready s c ∧ (48 ≤ l ∨ ((s.chan c).fabState l ≠ 3 ∧ (s.chan c).fabState l ≠ 4))) ∧
    (∃ (s : State) (c : Fin 4) (l : Nat) (b : _), Ready s c ∧ tget [] (s.chan c).fab.reachAt (4 * l + b % 4) = []) ∧
    (∃ (s : State) (c : Fin 4), Ready s c ∧ (s.chan c).enabled pgFab = false) ∧
    (∃ (s : State) (c : Fin 4) (l : Nat), Ready s c ∧ (s.chan c).enabled pgFab = true ∧ l < 48 ∧ (s.chan c).fabState l ≠ 2 ∧ (s.chan c).fabState l ≠ 3 ∧ (s.chan c).fabState l ≠ 4) ∧
    (∃ (s : State) (c : Fin 4) (l : Nat) (v : Word), HostReady s c ∧ l < 48 ∧ fld v 30 29 ≠ 3 ∧ ((bit v 27 = true ∧ (bit v 31 = true ∨ (s.chan c).getB pgFab (FAB.LANE_CFG_EN l) = true)) ∨ (bit v 28 = true ∧ (s.chan c).mesh = false))) ∧
    (∃ (s : State) (c : Fin 4) (l : Nat) (v : Word), HostReady s c ∧ l < 48 ∧ fld v 30 29 ≠ 3 ∧ bit v 28 = false ∧ bit v 31 = false ∧ (s.chan c).getB pgFab (FAB.LANE_CFG_EN l) = false) ∧
    (∃ (s : State) (c : Fin 4) (l : Nat) (v : Word), HostReady s c ∧ l < 48 ∧ fld v 30 29 ≠ 3 ∧ fld v 28 27 = 0 ∧ bit v 31 = false) ∧
    (∃ (s : State) (c : Fin 4) (l : Nat) (v : Word), HostReady s c ∧ l < 48 ∧ fld v 30 29 ≠ 3 ∧ fld v 28 27 = 0 ∧ bit v 31 = true ∧ (s.chan c).fabState l ≠ 0 ∧ fld v 30 29 ≠ (s.chan c).getF pgFab (FAB.LANE_CFG_SPEED l)) ∧
    (∃ (s : State) (c : Fin 4) (l : Nat) (v : Word), HostReady s c ∧ l < 48 ∧ fld v 30 29 ≠ 3 ∧ fld v 28 27 = 0 ∧ bit v 31 = true ∧ (s.chan c).fabState l ≠ 0 ∧ fld v 30 29 = (s.chan c).getF pgFab (FAB.LANE_CFG_SPEED l)) :=
  ⟨
    ⟨Wit.on (fun ch => ch |> Wit.lane 3 |> Wit.lane (2)), 1, 5, ({ typ := 5, first := true, last := true, payload := beBytes 2 9 ++ beBytes 1 2 ++ List.replicate 5 0 } : Cell).bytes, by delta Ready; decide +kernel⟩,
    ⟨Wit.on (fun ch => ch |> Wit.lane 3 |> Wit.lane 2 |>.putB pgFab FAB.CFG_MESH true |>.putFabLane 5 { replaced := false } |>.putF pgFab (FAB.LANE_CFG_PEER_CHAN 5) 9), 1, 5, ({ typ := 5, first := true, last := true, payload := beBytes 2 9 ++ beBytes 1 1 ++ List.replicate 5 0 } : Cell).bytes, by delta Ready; decide +kernel⟩,
    ⟨Wit.on (fun ch => ch |> Wit.lane 3 |> Wit.lane 2 |>.putB pgFab FAB.CFG_MESH true |>.putFabLane 5 { replaced := false } |> Wit.lane 2), 1, 5, ({ typ := 5, first := true, last := true, payload := beBytes 2 9 ++ beBytes 1 1 ++ List.replicate 5 0 } : Cell).bytes, by delta Ready; decide +kernel⟩,
    ⟨Wit.on (fun ch => ch |> Wit.lane 3 |> Wit.lane 3), 1, 5, ({ typ := 5, first := true, last := true, payload := beBytes 2 9 ++ beBytes 1 2 ++ List.replicate 5 0 } : Cell).bytes, by delta Ready; decide +kernel⟩,
    ⟨Wit.on (fun ch => ch |> Wit.lane 3 |> Wit.lane 2), 1, (55), by delta Ready; decide +kernel⟩,
    ⟨Wit.on (fun ch => ch |> Wit.lane 3 |> Wit.lane 0), 1, (55), by delta Ready; decide +kernel⟩,
    ⟨Wit.on (fun ch => ch |> Wit.lane 3 |> Wit.lane 2), 1, (55), by delta Ready; decide +kernel⟩,
    ⟨Wit.on (fun ch => ch |> Wit.lane 3), 1, (55), by delta Ready; decide +kernel⟩,
    ⟨Wit.on (fun ch => ch |> Wit.lane 3 |>.putFabLane 5 { spareDue := true, helloAt := 7 }), 1, 5, by delta Ready; decide +kernel⟩,
    ⟨Wit.on (fun ch => ch |> Wit.lane 3 |> Wit.lane 1), 1, (55), by delta Ready; decide +kernel⟩,
    ⟨Wit.on (fun ch => ch |> Wit.lane 3 |> fun ch => ch.onFab (fun w => { w with reach := [(20, 5)] })), 1, 5, 0, by delta Ready; decide +kernel⟩,
    ⟨Wit.on (fun ch => ch |> Wit.lane 3 |>.putB pgFab CTRL_ENABLE false), 1, by delta Ready; decide +kernel⟩,
    ⟨Wit.on (fun ch => ch |> Wit.lane 3 |> Wit.lane 1 |>.putFabLane 5 { helloAt := 7 }), 1, 5, by delta Ready; decide +kernel⟩,
    ⟨Wit.on (fun ch => ch |> Wit.lane 3), 1, 5, (BitVec.ofNat 32 ((2 ^ 27 + 2 ^ 31) + 0)), by delta HostReady Ready; decide +kernel⟩,
    ⟨Wit.on (fun ch => ch |> Wit.lane 3 |> Wit.lane (0) |>.putB pgFab (FAB.LANE_CFG_EN 5) false), 1, 5, (BitVec.ofNat 32 0), by delta HostReady Ready; decide +kernel⟩,
    ⟨Wit.on (fun ch => ch |> Wit.lane 3 |> Wit.lane (0)), 1, 5, (BitVec.ofNat 32 0), by delta HostReady Ready; decide +kernel⟩,
    ⟨Wit.on (fun ch => ch |> Wit.lane 3 |> Wit.lane 2), 1, 5, (BitVec.ofNat 32 3221225472), by delta HostReady Ready; decide +kernel⟩,
    ⟨Wit.on (fun ch => ch |> Wit.lane 3 |> Wit.lane 2), 1, 5, (BitVec.ofNat 32 2147483648), by delta HostReady Ready; decide +kernel⟩⟩

theorem witness_FabricCreditsInEveryState :
    (∃ (s : State) (c : Fin 4), Ready s c ∧ (s.chan c).enabled pgFab = false) ∧
    (∃ (s : State) (c : Fin 4) (q : _), Ready s c ∧ (0x80000 ≤ q ∨ tget false (s.chan c).fab.reqOn q = false)) ∧
    (∃ (s : State) (c : Fin 4) (q : _), Ready s c ∧ q < 0x80000 ∧ tget false (s.chan c).fab.reqOn q = true ∧ ((s.chan c).enabled pgFab = false ∨ (s.chan c).sportChan (q / 8) = none)) ∧
    (∃ (s : State) (c : Fin 4) (port : _) (src : _) (tc : _), Ready s c ∧ (s.chan c).fab.reqs.find? (fun r => r.port == port && r.src == src && r.tc == tc) = none) ∧
    (∃ (s : State) (c : Fin 4) (q : _), Ready s c ∧ (0x80000 ≤ q ∨ tget 0 (s.chan c).fab.emptyAt q = 0)) ∧
    (∃ (s : State) (c : Fin 4) (v : Word), HostReady s c ∧ (s.chan c).enabled pgFab = true ∧ fld v 11 0 = (s.chan c).chanId ∧ bit v 31 = (s.chan c).mesh ∧ fld v 22 12 = 0) ∧
    (∃ (s : State) (c : Fin 4) (v : Word), HostReady s c ∧ (s.chan c).enabled pgFab = true ∧ bit v 31 ≠ (s.chan c).mesh) ∧
    (∃ (s : State) (c : Fin 4) (d : _) (l : _), HostReady s c ∧ d < 4096 ∧ l < 48 ∧ (s.chan c).mesh = true) :=
  ⟨
    ⟨Wit.on (fun ch => ch |>.putB pgFab CTRL_ENABLE false), 1, by delta Ready; decide +kernel⟩,
    ⟨Wit.on (fun ch => ch), 1, (2 ^ 20), by delta Ready; decide +kernel⟩,
    ⟨Wit.on (fun ch => ch |>.putB pgFab CTRL_ENABLE true |> fun ch => ch.onFab (fun w => { w with reqOn := [(323, true)], reqAt := [(323, 9)], ctlQ := [Wit.cell], sport := if true then [] else [(40, 0x80000009)] })), 1, 323, by delta Ready; decide +kernel⟩,
    ⟨Wit.on (fun ch => ch |> fun ch => ch.onFab (fun w => { w with reqs := [⟨1, 1, 1, 1, 1⟩] })), 1, 3, 9, 2, by delta Ready; decide +kernel⟩,
    ⟨Wit.on (fun ch => ch), 1, (2 ^ 20), by delta Ready; decide +kernel⟩,
    ⟨Wit.on (fun ch => ch |>.putB pgFab CTRL_ENABLE true), 1, (BitVec.ofNat 32 0), by delta HostReady Ready; decide +kernel⟩,
    ⟨Wit.on (fun ch => ch |>.putB pgFab CTRL_ENABLE true), 1, (BitVec.ofNat 32 2147483648), by delta HostReady Ready; decide +kernel⟩,
    ⟨Wit.on (fun ch => ch |> Wit.lane 3 |>.putB pgFab FAB.CFG_MESH true |>.putF pgFab (FAB.LANE_CFG_PEER_CHAN 5) 9), 1, 9, 5, by delta HostReady Ready; decide +kernel⟩⟩

theorem witness_HbmTrainingAndWindows :
    (∃ (s : State) (c : Fin 4) (st : Fin 2), Ready s c ∧ (s.chan c).getF (pgHbmc st.val) HBMC.STATUS_STATE = 1 ∧ (s.chan c).active.isSome = true) ∧
    (∃ (s : State) (c : Fin 4) (g : _), Ready s c ∧ g < 8 ∧ (s.chan c).grpBase g = 5) ∧
    (∃ (s : State) (c : Fin 4) (g : _) (r : _), Ready s c ∧ (s.chan c).hbm.run = some r ∧ r.group = g ∧ g < 8 ∧ (s.chan c).hbmGrp g = 3) :=
  ⟨
    ⟨Wit.on (fun ch => ch |> Wit.kp 0 4 0x80 |>.putF (pgHbmc 0) HBMC.STATUS_STATE 1 |>.putB (pgHbmc 0) CTRL_ENABLE true), 1, 0, by delta Ready; decide +kernel⟩,
    ⟨Wit.on (fun ch => ch |> Wit.kp 0 4 0x80 |>.putF (pgHbmc 0) (HBMC.GRP_STAT_STATE 2) 5 |>.onHbm (fun w => { w with run := some { group := 2, window := 10, warn := 5, since := 0, at_ := 0, phase := 2 } })), 1, 2, by delta Ready; decide +kernel⟩,
    ⟨Wit.on (fun ch => ch |> Wit.kp 0 4 0x80 |> Wit.stk |> Wit.sbuf (5 * 8192 + 3) (Wit.ipkt 0 0) true false |>.putHbmRegion 5 { st := 3, cls := 1, prior := 1 } |>.onHbm (fun w => { w with run := some { group := 0, window := 10, warn := 5, since := 0, at_ := 0 } }) |> fun ch => ch), 1, 0, { group := 0, window := 10, warn := 5, since := 0, at_ := 0 }, by delta Ready; decide +kernel⟩⟩

theorem witness_HbmAccessesAndPauses :
    (∃ (s : State) (c : Fin 4) (n : _) (a : HbmAcc), Ready s c ∧ n < 64 ∧ a.addr < 805306368 ∧ a.src < 13 ∧ a.act = false ∧ a.sev = 0 ∧ (s.chan c).isPaused n = false ∧ (s.chan c).pcBase n = 2 ∧ (s.chan c).hbmGrp (n / 8) ≠ 5 ∧ a.write = true) ∧
    (∃ (s : State) (c : Fin 4) (n : _) (a : HbmAcc), Ready s c ∧ n < 64 ∧ a.addr < 805306368 ∧ a.src < 13 ∧ a.act = false ∧ a.sev = 0 ∧ (s.chan c).isPaused n = false ∧ (s.chan c).pcBase n = 2 ∧ (s.chan c).hbmGrp (n / 8) ≠ 5 ∧ a.write = false ∧ a.ecc = 0 ∧ tget false (s.chan c).hbm.bad (n * 2 ^ 24 + a.addr / 64) = false) ∧
    (∃ (s : State) (c : Fin 4) (n : _) (a : HbmAcc), Ready s c ∧ n < 64 ∧ a.addr < 805306368 ∧ a.src < 13 ∧ a.act = false ∧ a.sev = 0 ∧ (s.chan c).isPaused n = false ∧ (s.chan c).pcBase n = 2 ∧ (s.chan c).hbmGrp (n / 8) ≠ 5 ∧ a.write = false ∧ a.ecc ≠ 2 ∧ tget false (s.chan c).hbm.bad (n * 2 ^ 24 + a.addr / 64) = true) ∧
    (∃ (s : State) (c : Fin 4) (n : _) (a : HbmAcc), Ready s c ∧ n < 64 ∧ a.addr < 805306368 ∧ a.src < 13 ∧ a.act = false ∧ a.sev = 0 ∧ (s.chan c).isPaused n = true ∧ a.src ≠ 11 ∧ ((s.chan c).hbmQueue n).length < 1007) ∧
    (∃ (s : State) (c : Fin 4) (n : _), Ready s c ∧ n < 64 ∧ (s.chan c).enabled (pcPg n) = true) ∧
    (∃ (s : State) (c : Fin 4) (n : _) (t : _), Ready s c ∧ (s.chan c).hbm.paused = some (n, t) ∧ n < 64) ∧
    (∃ (s : State) (c : Fin 4) (n : _), Ready s c ∧ (s.chan c).fastPick = some n ∧ (s.chan c).active.isSome = true ∧ (List.range 8).any (fun g => (s.chan c).grpOut g) = false ∧ (s.chan c).getF (pcPg n) HBMC.RETRAIN_CFG_FAST_INTERVAL ≠ 0 ∧ (s.chan c).pauseResult n = 0) :=
  ⟨
    ⟨Wit.on (fun ch => ch |> Wit.stk), 1, 3, (Wit.acc true 0), by delta Ready; decide +kernel⟩,
    ⟨Wit.on (fun ch => ch |> Wit.stk), 1, 3, (Wit.acc false 0), by delta Ready; decide +kernel⟩,
    ⟨Wit.on (fun ch => ch |> Wit.stk |>.onHbm (fun w => { w with bad := [(3 * 2 ^ 24 + (Wit.acc false 0).addr / 64, true)] })), 1, 3, (Wit.acc false 0), by delta Ready; decide +kernel⟩,
    ⟨Wit.on (fun ch => ch |> Wit.stk |> Wit.pau), 1, 3, (Wit.acc true 0), by delta Ready; decide +kernel⟩,
    ⟨Wit.on (fun ch => ch |> Wit.stk), 1, 3, by delta Ready; decide +kernel⟩,
    ⟨Wit.on (fun ch => ch |> Wit.stk |> Wit.pau), 1, 3, 5, by delta Ready; decide +kernel⟩,
    ⟨Wit.on (fun ch => ch |> Wit.stk |> Wit.kp 0 4 0x80 |>.putF (pgHbmc 0) HBMC.RETRAIN_CFG_FAST_INTERVAL 100), 1, 0, by delta Ready; decide +kernel⟩⟩

theorem witness_HbmTrainingCommands :
    (∃ (s : State) (c : Fin 4) (st : Fin 2) (pc : Nat), KeeperReady s c 0 ∧ pc < 32 ∧ (s.chan c).pauseResult (32 * st.val + pc) = 0) ∧
    (∃ (s : State) (c : Fin 4) (st : Fin 2) (pc : Nat), KeeperReady s c 0 ∧ pc < 32 ∧ (s.chan c).pauseResult (32 * st.val + pc) ≠ 0) ∧
    (∃ (s : State) (c : Fin 4) (st : Fin 2) (pc : Nat), KeeperReady s c 0 ∧ pc < 32 ∧ (s.chan c).isPaused (32 * st.val + pc) = true) ∧
    (∃ (s : State) (c : Fin 4) (st : Fin 2) (pc : Nat), KeeperReady s c 0 ∧ pc < 32 ∧ (s.chan c).isPaused (32 * st.val + pc) = true ∧ ((s.chan c).nat (pgHbmc st.val) HBMC.KTRAIN_ARG) % 8 < 5) ∧
    (∃ (s : State) (c : Fin 4) (st : Fin 2) (pc : Nat), KeeperReady s c 0 ∧ pc < 32 ∧ (s.chan c).isPaused (32 * st.val + pc) = true ∧ ((s.chan c).nat (pgHbmc st.val) HBMC.KTRAIN_ARG) / 256 < 3072 ∧ (s.chan c).getF (pgHbmc st.val) (HBMC.PC_STAT_PPR_AVAIL pc) ≠ 0) ∧
    (∃ (s : State) (c : Fin 4) (pc : Nat), KeeperReady s c 0 ∧ pc < 32) :=
  ⟨
    ⟨Wit.on (fun ch => ch |> Wit.kp 0 4 0x80 |> Wit.stk |>.putN (pgHbmc 0) HBMC.KTRAIN_ARG 0), 1, 0, 3, by delta KeeperReady Ready; decide +kernel⟩,
    ⟨Wit.on (fun ch => ch |> Wit.kp 0 4 0x80 |> Wit.stk |>.putN (pgHbmc 0) HBMC.KTRAIN_ARG 0 |> Wit.pau), 1, 0, 3, by delta KeeperReady Ready; decide +kernel⟩,
    ⟨Wit.on (fun ch => ch |> Wit.kp 0 4 0x80 |> Wit.stk |>.putN (pgHbmc 0) HBMC.KTRAIN_ARG 0 |> Wit.pau), 1, 0, 3, by delta KeeperReady Ready; decide +kernel⟩,
    ⟨Wit.on (fun ch => ch |> Wit.kp 0 4 0x80 |> Wit.stk |>.putN (pgHbmc 0) HBMC.KTRAIN_ARG 0 |> Wit.pau |>.putN (pgHbmc 0) HBMC.KTRAIN_ARG 0), 1, 0, 3, by delta KeeperReady Ready; decide +kernel⟩,
    ⟨Wit.on (fun ch => ch |> Wit.kp 0 4 0x80 |> Wit.stk |>.putN (pgHbmc 0) HBMC.KTRAIN_ARG 0 |> Wit.pau |>.putN (pgHbmc 0) HBMC.KTRAIN_ARG (0 % (3072 * 256)) |>.putF (pgHbmc 0) (HBMC.PC_STAT_PPR_AVAIL 3) 2), 1, 0, 3, by delta KeeperReady Ready; decide +kernel⟩,
    ⟨Wit.on (fun ch => ch |> Wit.kp 0 4 0x80 |> Wit.stk |>.putN (pgHbmc 0) HBMC.KTRAIN_ARG 0), 1, 3, by delta KeeperReady Ready; decide +kernel⟩⟩

theorem witness_HbmServices :
    (∃ (s : State) (c : Fin 4) (k : Fin 2) (tag : Nat), SvcReady s c k tag ∧ ((s.chan c).svcArg k.val) 0 < 8) ∧
    (∃ (s : State) (c : Fin 4) (k : Fin 2) (tag : Nat), SvcReady s c k tag ∧ ((s.chan c).svcArg k.val) 0 < 8 ∧ ((s.chan c).svcArg k.val) 1 < 65536 ∧ ((s.chan c).svcArg k.val) 2 < 65536 ∧ (s.chan c).hbmGrp (((s.chan c).svcArg k.val) 0) = 2 ∧ (List.range 8).any (fun q => q != ((s.chan c).svcArg k.val) 0 && (s.chan c).grpOut q) = false ∧ (s.chan c).getF (pgHbmc (((s.chan c).svcArg k.val) 0 / 4)) HBMC.STATUS_STATE = 2) ∧
    (∃ (s : State) (c : Fin 4) (k : Fin 2) (tag : Nat), SvcReady s c k tag ∧ ((s.chan c).svcArg k.val) 0 < 8 ∧ ((s.chan c).hbmGrp (((s.chan c).svcArg k.val) 0) = 3 ∨ (s.chan c).hbmGrp (((s.chan c).svcArg k.val) 0) = 4)) ∧
    (∃ (s : State) (c : Fin 4) (k : Fin 2) (tag : Nat), SvcReady s c k tag ∧ ((s.chan c).svcArg k.val) 0 < 64 ∧ (s.chan c).fastWaits = false ∧ (s.chan c).pauseResult (((s.chan c).svcArg k.val) 0) = 0) ∧
    (∃ (s : State) (c : Fin 4) (k : Fin 2) (tag : Nat), SvcReady s c k tag ∧ ((s.chan c).svcArg k.val) 0 < 64 ∧ (s.chan c).fastWaits = true) ∧
    (∃ (s : State) (c : Fin 4) (k : Fin 2) (tag : Nat), SvcReady s c k tag ∧ ((s.chan c).svcArg k.val) 0 < 64 ∧ (s.chan c).fastWaits = false ∧ (s.chan c).pauseResult (((s.chan c).svcArg k.val) 0) ≠ 0) ∧
    (∃ (s : State) (c : Fin 4) (k : Fin 2) (tag : Nat), SvcReady s c k tag ∧ ((s.chan c).svcArg k.val) 0 < 2 ∧ s.hostReach c = true ∧ (s.chan c).getF (pgHbmc (((s.chan c).svcArg k.val) 0)) HBMC.STATUS_STATE ≠ 1) ∧
    (∃ (s : State) (c : Fin 4) (k : Fin 2) (tag : Nat) (rec_ : _), SvcReady s c k tag ∧ ((s.chan c).svcArg k.val) 0 < 2 ∧ s.hostReach c = true ∧ (s.chan c).enabled (pgHbmc (((s.chan c).svcArg k.val) 0)) = false ∧ rlogOk (((s.chan c).svcArg k.val) 0) rec_ = true) :=
  ⟨
    ⟨Wit.on (fun ch => ch |> Wit.svc [0, 0, 0, 0] |> Wit.stk), 1, 0, (5 % 256), by delta SvcReady HostReady Ready; decide +kernel⟩,
    ⟨Wit.on (fun ch => ch |> Wit.svc [0, 0, 0, 0] |> Wit.stk |> Wit.svc [0, 0, 0, 0] |>.putHbmRegion 5 { st := 1, cls := 1 } |>.putHbmRegion 6 { st := 2, cls := 1, next := 2 }), 1, 0, (5 % 256), by delta SvcReady HostReady Ready; decide +kernel⟩,
    ⟨Wit.on (fun ch => ch |> Wit.svc [0, 0, 0, 0] |> Wit.stk |>.putHbmRegion 5 { st := 3, cls := 1, prior := 1 } |>.onHbm (fun w => { w with run := some { group := 0, window := 10, warn := 5, since := 0, at_ := 0 } })), 1, 0, (5 % 256), by delta SvcReady HostReady Ready; decide +kernel⟩,
    ⟨Wit.on (fun ch => ch |> Wit.svc [0, 0, 0, 0] |> Wit.stk |> Wit.svc [3, 0, 0, 0]), 1, 0, (5 % 256), by delta SvcReady HostReady Ready; decide +kernel⟩,
    ⟨Wit.on (fun ch => ch |> Wit.svc [0, 0, 0, 0] |> Wit.stk |> Wit.svc [3, 0, 0, 0] |>.setGrpBase 2 5), 1, 0, (5 % 256), by delta SvcReady HostReady Ready; decide +kernel⟩,
    ⟨Wit.on (fun ch => ch |> Wit.svc [0, 0, 0, 0] |> Wit.stk |> Wit.svc [3, 0, 0, 0] |> Wit.pau), 1, 0, (5 % 256), by delta SvcReady HostReady Ready; decide +kernel⟩,
    ⟨Wit.on (fun ch => ch |> Wit.svc [0, 0, 0, 0] |> Wit.stk |> Wit.svc [0, 0x10000, 0, 0]), 1, 0, (5 % 256), by delta SvcReady HostReady Ready; decide +kernel⟩,
    ⟨Wit.on (fun ch => ch |> Wit.svc [0, 0, 0, 0] |> Wit.stk |>.putB (pgHbmc 0) CTRL_ENABLE false), 1, 0, (5 % 256), Wit.rlog, by delta SvcReady HostReady Ready; decide +kernel⟩⟩

theorem witness_HbmInEveryState :
    (∃ (s : State) (c : Fin 4) (st : Fin 2), Ready s c ∧ ((s.chan c).getF (pgHbmc st.val) HBMC.STATUS_STATE ≠ 1 ∨ (s.chan c).active = none)) ∧
    (∃ (s : State) (c : Fin 4) (st : Fin 2) (i : _), Ready s c ∧ (s.chan c).getF (pgHbmc st.val) HBMC.STATUS_STATE = 1 ∧ (s.chan c).active.isSome = true ∧ i < 32) ∧
    (∃ (s : State) (c : Fin 4) (g : _), Ready s c ∧ (8 ≤ g ∨ (s.chan c).grpBase g ≠ 5)) ∧
    (∃ (s : State) (c : Fin 4) (g : _), Ready s c ∧ ((s.chan c).hbm.run.all (fun x => x.group != g) = true ∨ 8 ≤ g ∨ (s.chan c).hbmGrp g ≠ 3)) ∧
    (∃ (s : State) (c : Fin 4) (n : _) (a : HbmAcc), Ready s c ∧ (64 ≤ n ∨ 805306368 ≤ a.addr ∨ 13 ≤ a.src ∨ ((s.chan c).isPaused n = false ∧ (s.chan c).pcBase n ≠ 2))) ∧
    (∃ (s : State) (c : Fin 4) (n : _) (a : HbmAcc), Ready s c ∧ n < 64 ∧ a.addr < 805306368 ∧ a.src < 13 ∧ (s.chan c).isPaused n = false ∧ (s.chan c).pcBase n = 2 ∧ (s.chan c).hbmGrp (n / 8) ≠ 5 ∧ a.src ≠ 11 ∧ (s.chan c).hbm.waiting.any (fun e => e.2.src == a.src) = true) ∧
    (∃ (s : State) (c : Fin 4) (n : _) (a : HbmAcc), Ready s c ∧ n < 64 ∧ a.addr < 805306368 ∧ a.src < 13 ∧ (s.chan c).isPaused n = true ∧ a.src ≠ 11 ∧ ((s.chan c).hbmQueue n).length = 1007) ∧
    (∃ (s : State) (c : Fin 4) (n : _) (a : HbmAcc), Ready s c ∧ n < 64 ∧ a.addr < 805306368 ∧ a.src < 13 ∧ a.write = false ∧ (s.chan c).isPaused n = false ∧ (s.chan c).pcBase n = 2 ∧ (s.chan c).hbmGrp (n / 8) ≠ 5 ∧ (s.chan c).hbm.waiting = [] ∧ a.ecc = 1 ∧ tget false (s.chan c).hbm.bad (n * 2 ^ 24 + a.addr / 64) = false) ∧
    (∃ (s : State) (c : Fin 4) (n : _) (a : HbmAcc), Ready s c ∧ n < 64 ∧ a.addr < 805306368 ∧ a.src < 13 ∧ a.write = false ∧ (s.chan c).isPaused n = false ∧ (s.chan c).pcBase n = 2 ∧ (s.chan c).hbmGrp (n / 8) ≠ 5 ∧ (s.chan c).hbm.waiting = [] ∧ a.ecc = 2) ∧
    (∃ (s : State) (c : Fin 4) (n : _) (a : HbmAcc), Ready s c ∧ n < 64 ∧ a.addr < 805306368 ∧ a.src < 13 ∧ a.write = false ∧ (s.chan c).isPaused n = false ∧ (s.chan c).pcBase n = 2 ∧ (s.chan c).hbmGrp (n / 8) ≠ 5 ∧ (s.chan c).hbm.waiting = [] ∧ a.ecc = 0 ∧ a.act = true ∧ tget false (s.chan c).hbm.bad (n * 2 ^ 24 + a.addr / 64) = false ∧ (s.chan c).getB (pcPg n) HBMC.ROWD_CFG_RFM_EN = false) ∧
    (∃ (s : State) (c : Fin 4) (n : _), Ready s c ∧ (64 ≤ n ∨ (s.chan c).enabled (pcPg n) = false)) ∧
    (∃ (s : State) (c : Fin 4) (n : _), Ready s c ∧ n < 64 ∧ (s.chan c).enabled (pcPg n) = true ∧ (s.chan c).isPaused n = true) ∧
    (∃ (s : State) (c : Fin 4), Ready s c ∧ (s.chan c).hbm.paused = none) ∧
    (∃ (s : State) (c : Fin 4), Ready s c ∧ ((s.chan c).active = none ∨ (s.chan c).fastWaits = true ∨ ((s.chan c).hbm.svcFast = none ∧ (s.chan c).fastPick = none))) ∧
    (∃ (s : State) (c : Fin 4) (k : _) (tag : _) (m : _), Ready s c ∧ (s.chan c).active.isSome = true ∧ (s.chan c).fastWaits = false ∧ (s.chan c).hbm.svcFast = some (k, tag, m) ∧ (s.chan c).isPaused m = false ∧ (s.chan c).pauseResult m = 0) ∧
    (∃ (s : State) (c : Fin 4) (k : _) (tag : _) (m : _), Ready s c ∧ (s.chan c).active.isSome = true ∧ (s.chan c).fastWaits = false ∧ (s.chan c).hbm.svcFast = some (k, tag, m) ∧ (s.chan c).isPaused m = false ∧ (s.chan c).pauseResult m ≠ 0) :=
  ⟨
    ⟨Wit.on (fun ch => ch |> Wit.stk |> Wit.kp 0 4 0x80), 1, 0, by delta Ready; decide +kernel⟩,
    ⟨Wit.on (fun ch => ch |> Wit.stk |> Wit.kp 0 4 0x80 |>.putF (pgHbmc 0) HBMC.STATUS_STATE 1 |>.putB (pgHbmc 0) CTRL_ENABLE true), 1, 0, 0, by delta Ready; decide +kernel⟩,
    ⟨Wit.on (fun ch => ch |> Wit.stk), 1, (9), by delta Ready; decide +kernel⟩,
    ⟨Wit.on (fun ch => ch |> Wit.stk |>.onHbm (fun w => { w with run := if true then none else some { group := 0, window := 10, warn := 5, since := 0, at_ := 0 } })), 1, (9), by delta Ready; decide +kernel⟩,
    ⟨Wit.on (fun ch => ch |> Wit.stk), 1, (64), (Wit.acc true 0), by delta Ready; decide +kernel⟩,
    ⟨Wit.on (fun ch => ch |> Wit.stk |>.onHbm (fun w => { w with paused := some (5, 2), waiting := [(5, Wit.acc true 0)] })), 1, 3, (Wit.acc true 0), by delta Ready; decide +kernel⟩,
    ⟨Wit.on (fun ch => ch |> Wit.stk |> Wit.pau |>.onHbm (fun w => { w with waiting := if true then List.replicate 1007 (3, ⟨0, true, 0, false, 0, 0, 0, 0⟩) else List.replicate 1007 (3, Wit.acc true 0) })), 1, 3, (Wit.acc true 0), by delta Ready; decide +kernel⟩,
    ⟨Wit.on (fun ch => ch |> Wit.stk), 1, 3, (Wit.acc false 1), by delta Ready; decide +kernel⟩,
    ⟨Wit.on (fun ch => ch |> Wit.stk), 1, 3, { Wit.acc false 2 with act := false }, by delta Ready; decide +kernel⟩,
    ⟨Wit.on (fun ch => ch |> Wit.stk |>.putB (pgHbmc 0) HBMC.ROWD_CFG_RFM_EN false), 1, 3, { Wit.acc false 0 with act := true, sev := 0 }, by delta Ready; decide +kernel⟩,
    ⟨Wit.on (fun ch => ch |> Wit.stk), 1, (64), by delta Ready; decide +kernel⟩,
    ⟨Wit.on (fun ch => ch |> Wit.stk |> Wit.pau), 1, 3, by delta Ready; decide +kernel⟩,
    ⟨Wit.on (fun ch => ch |> Wit.stk), 1, by delta Ready; decide +kernel⟩,
    ⟨Wit.on (fun ch => ch |> Wit.stk |> (fun ch => if true then ch else (Wit.kp 0 4 0x80 ch).setGrpBase 2 5)), 1, by delta Ready; decide +kernel⟩,
    ⟨Wit.on (fun ch => ch |> Wit.stk |> Wit.kp 0 4 0x80 |>.onHbm (fun w => { w with svcFast := some (0, 77, 3) })), 1, 0, 77, 3, by delta Ready; decide +kernel⟩,
    ⟨Wit.on (fun ch => ch |> Wit.stk |> Wit.kp 0 4 0x80 |>.setPcBase 3 5 |>.putB (pgKeep 0) KEEP.SVC_STAT_BUSY true |>.onHbm (fun w => { w with svcFast := some (0, 77, 3) })), 1, 0, 77, 3, by delta Ready; decide +kernel⟩⟩

theorem witness_HbmTrainingCommandsInEveryState :
    (∃ (s : State) (c : Fin 4) (k : Fin 2) (st : Fin 2) (pc : Nat), KeeperReady s c k ∧ pc < 32 ∧ (s.chan c).isPaused (32 * st.val + pc) = false) ∧
    (∃ (s : State) (c : Fin 4) (k : Fin 2) (st : Fin 2) (pc : Nat), KeeperReady s c k ∧ pc < 32 ∧ (s.chan c).grpBase (4 * st.val + pc % 4) ≠ 5) ∧
    (∃ (s : State) (c : Fin 4) (k : Fin 2) (st : Fin 2) (pc : Nat), KeeperReady s c k ∧ pc < 32 ∧ (s.chan c).grpBase (4 * st.val + pc % 4) = 5) ∧
    (∃ (s : State) (c : Fin 4) (k : Fin 2) (st : Fin 2) (pc : Nat), KeeperReady s c k ∧ pc < 32 ∧ 5 ≤ ((s.chan c).nat (pgHbmc st.val) HBMC.KTRAIN_ARG) % 8) ∧
    (∃ (s : State) (c : Fin 4) (k : Fin 2) (st : Fin 2) (pc : Nat), KeeperReady s c k ∧ pc < 32 ∧ 3072 ≤ ((s.chan c).nat (pgHbmc st.val) HBMC.KTRAIN_ARG) / 256) ∧
    (∃ (s : State) (c : Fin 4) (k : Fin 2) (st : Fin 2) (pc : Nat), KeeperReady s c k ∧ pc < 32 ∧ (s.chan c).helped (32 * st.val + pc) = false ∧ ((s.chan c).nat (pgHbmc st.val) HBMC.KTRAIN_ARG) % 8 < 5) ∧
    (∃ (s : State) (c : Fin 4) (k : Fin 2) (st : Fin 2) (pc : Nat), KeeperReady s c k ∧ pc < 32 ∧ (s.chan c).helped (32 * st.val + pc) = false) ∧
    (∃ (s : State) (c : Fin 4) (k : Fin 2) (st : Fin 2) (pc : Nat), KeeperReady s c k ∧ pc < 32 ∧ (s.chan c).helped (32 * st.val + pc) = false ∧ ((s.chan c).nat (pgHbmc st.val) HBMC.KTRAIN_ARG) / 256 < 3072) ∧
    (∃ (s : State) (c : Fin 4) (k : Fin 2) (st : Fin 2) (pc : Nat), KeeperReady s c k ∧ pc < 32 ∧ (s.chan c).isPaused (32 * st.val + pc) = false ∧ (s.chan c).hbmGrp ((32 * st.val + pc) / 8) = 5 ∧ ((s.chan c).nat (pgHbmc st.val) HBMC.KTRAIN_ARG) % 8 < 5) ∧
    (∃ (s : State) (c : Fin 4) (k : Fin 2) (st : Fin 2) (pc : Nat), KeeperReady s c k ∧ pc < 32 ∧ (s.chan c).isPaused (32 * st.val + pc) = false ∧ (s.chan c).hbmGrp ((32 * st.val + pc) / 8) = 5) ∧
    (∃ (s : State) (c : Fin 4) (k : Fin 2) (st : Fin 2) (pc : Nat), KeeperReady s c k ∧ pc < 32 ∧ (s.chan c).isPaused (32 * st.val + pc) = false ∧ (s.chan c).hbmGrp ((32 * st.val + pc) / 8) = 5 ∧ ((s.chan c).nat (pgHbmc st.val) HBMC.KTRAIN_ARG) / 256 < 3072) ∧
    (∃ (s : State) (c : Fin 4) (k : Fin 2) (st : Fin 2) (pc : Nat) (x : _), KeeperReady s c k ∧ pc < 32 ∧ (s.chan c).hbm.run = some x ∧ x.group = (4 * st.val + pc % 4)) :=
  ⟨
    ⟨Wit.on (fun ch => ch |> Wit.kp 0 4 0x80 |> Wit.stk |>.putN (pgHbmc 0) HBMC.KTRAIN_ARG 0), 1, 0, 0, 3, by delta KeeperReady Ready; decide +kernel⟩,
    ⟨Wit.on (fun ch => ch |> Wit.kp 0 4 0x80 |> Wit.stk |>.putN (pgHbmc 0) HBMC.KTRAIN_ARG 0), 1, 0, 0, 3, by delta KeeperReady Ready; decide +kernel⟩,
    ⟨Wit.on (fun ch => ch |> Wit.kp 0 4 0x80 |> Wit.stk |>.putN (pgHbmc 0) HBMC.KTRAIN_ARG 0 |>.setGrpBase 3 5), 1, 0, 0, 3, by delta KeeperReady Ready; decide +kernel⟩,
    ⟨Wit.on (fun ch => ch |> Wit.kp 0 4 0x80 |> Wit.stk |>.putN (pgHbmc 0) HBMC.KTRAIN_ARG 0 |>.putN (pgHbmc 0) HBMC.KTRAIN_ARG 5 |> (fun ch => if true then ch else Wit.pau ch)), 1, 0, 0, 3, by delta KeeperReady Ready; decide +kernel⟩,
    ⟨Wit.on (fun ch => ch |> Wit.kp 0 4 0x80 |> Wit.stk |>.putN (pgHbmc 0) HBMC.KTRAIN_ARG 0 |>.putN (pgHbmc 0) HBMC.KTRAIN_ARG 786432 |> (fun ch => if true then ch else Wit.pau ch)), 1, 0, 0, 3, by delta KeeperReady Ready; decide +kernel⟩,
    ⟨Wit.on (fun ch => ch |> Wit.kp 0 4 0x80 |> Wit.stk |>.putN (pgHbmc 0) HBMC.KTRAIN_ARG 0 |>.putN (pgHbmc 0) HBMC.KTRAIN_ARG 0), 1, 0, 0, 3, by delta KeeperReady Ready; decide +kernel⟩,
    ⟨Wit.on (fun ch => ch |> Wit.kp 0 4 0x80 |> Wit.stk |>.putN (pgHbmc 0) HBMC.KTRAIN_ARG 0), 1, 0, 0, 3, by delta KeeperReady Ready; decide +kernel⟩,
    ⟨Wit.on (fun ch => ch |> Wit.kp 0 4 0x80 |> Wit.stk |>.putN (pgHbmc 0) HBMC.KTRAIN_ARG 0 |>.putN (pgHbmc 0) HBMC.KTRAIN_ARG (0 % (3072 * 256))), 1, 0, 0, 3, by delta KeeperReady Ready; decide +kernel⟩,
    ⟨Wit.on (fun ch => ch |> Wit.kp 0 4 0x80 |> Wit.stk |>.putN (pgHbmc 0) HBMC.KTRAIN_ARG 0 |>.setGrpBase 0 5 |>.putN (pgHbmc 0) HBMC.KTRAIN_ARG (0 % (3072 * 32) * 8) |>.putF (pgHbmc 0) (HBMC.PC_STAT_PPR_AVAIL 3) 0), 1, 0, 0, 3, by delta KeeperReady Ready; decide +kernel⟩,
    ⟨Wit.on (fun ch => ch |> Wit.kp 0 4 0x80 |> Wit.stk |>.putN (pgHbmc 0) HBMC.KTRAIN_ARG 0 |>.setGrpBase 0 5 |>.putN (pgHbmc 0) HBMC.KTRAIN_ARG (0 % (3072 * 32) * 8) |>.putF (pgHbmc 0) (HBMC.PC_STAT_PPR_AVAIL 3) 0), 1, 0, 0, 3, by delta KeeperReady Ready; decide +kernel⟩,
    ⟨Wit.on (fun ch => ch |> Wit.kp 0 4 0x80 |> Wit.stk |>.putN (pgHbmc 0) HBMC.KTRAIN_ARG 0 |>.setGrpBase 0 5 |>.putN (pgHbmc 0) HBMC.KTRAIN_ARG (0 % (3072 * 32) * 8) |>.putF (pgHbmc 0) (HBMC.PC_STAT_PPR_AVAIL 3) 0), 1, 0, 0, 3, by delta KeeperReady Ready; decide +kernel⟩,
    ⟨Wit.on (fun ch => ch |> Wit.kp 0 4 0x80 |> Wit.stk |>.putN (pgHbmc 0) HBMC.KTRAIN_ARG 0 |> (fun ch => if true then ch else ch.setGrpBase 3 5) |>.putHbmRegion (3 * 3072 + 5) { st := 3, cls := 1, prior := 1 } |>.onHbm (fun w => { w with run := some { group := 3, window := 10, warn := 5, since := 0, at_ := 0, used := 9 } })), 1, 0, 0, 3, { group := 3, window := 10, warn := 5, since := 0, at_ := 0, used := 9 }, by delta KeeperReady Ready; decide +kernel⟩⟩

theorem witness_HbmServicesAreRefused :
    (∃ (s : State) (c : Fin 4) (k : Fin 2) (tag : Nat), SvcReady s c k tag ∧ 8 ≤ ((s.chan c).svcArg k.val) 0) ∧
    (∃ (s : State) (c : Fin 4) (k : Fin 2) (tag : Nat), SvcReady s c k tag ∧ ((s.chan c).svcArg k.val) 0 < 8 ∧ (65536 ≤ ((s.chan c).svcArg k.val) 1 ∨ 65536 ≤ ((s.chan c).svcArg k.val) 2)) ∧
    (∃ (s : State) (c : Fin 4) (k : Fin 2) (tag : Nat), SvcReady s c k tag ∧ ((s.chan c).svcArg k.val) 0 < 8 ∧ ((s.chan c).svcArg k.val) 1 < 65536 ∧ ((s.chan c).svcArg k.val) 2 < 65536 ∧ ((s.chan c).hbmGrp (((s.chan c).svcArg k.val) 0) ≠ 2 ∨ (s.chan c).getF (pgHbmc (((s.chan c).svcArg k.val) 0 / 4)) HBMC.STATUS_STATE ≠ 2)) ∧
    (∃ (s : State) (c : Fin 4) (k : Fin 2) (tag : Nat), SvcReady s c k tag ∧ ((s.chan c).svcArg k.val) 0 < 8 ∧ (s.chan c).hbmGrp (((s.chan c).svcArg k.val) 0) ≠ 3 ∧ (s.chan c).hbmGrp (((s.chan c).svcArg k.val) 0) ≠ 4) ∧
    (∃ (s : State) (c : Fin 4) (k : Fin 2) (tag : Nat), SvcReady s c k tag ∧ 64 ≤ ((s.chan c).svcArg k.val) 0) ∧
    (∃ (s : State) (c : Fin 4) (k : Fin 2) (tag : Nat), SvcReady s c k tag ∧ 2 ≤ ((s.chan c).svcArg k.val) 0) ∧
    (∃ (s : State) (c : Fin 4) (k : Fin 2) (tag : Nat), SvcReady s c k tag ∧ ((s.chan c).svcArg k.val) 0 < 2 ∧ (s.chan c).getF (pgHbmc (((s.chan c).svcArg k.val) 0)) HBMC.STATUS_STATE = 1) ∧
    (∃ (s : State) (c : Fin 4) (k : Fin 2) (tag : Nat) (e : Bool), SvcReady s c k tag ∧ ((s.chan c).svcArg k.val) 0 < 2 ∧ (s.chan c).getF (pgHbmc (((s.chan c).svcArg k.val) 0)) HBMC.STATUS_STATE ≠ 1 ∧ (e = true ∨ s.hostReach c = false)) ∧
    (∃ (s : State) (c : Fin 4) (k : Fin 2) (tag : Nat), SvcReady s c k tag ∧ ((s.chan c).svcArg k.val) 0 < 2 ∧ (s.chan c).enabled (pgHbmc (((s.chan c).svcArg k.val) 0)) = true) ∧
    (∃ (s : State) (c : Fin 4) (k : Fin 2) (tag : Nat) (e : Bool), SvcReady s c k tag ∧ ((s.chan c).svcArg k.val) 0 < 2 ∧ (s.chan c).enabled (pgHbmc (((s.chan c).svcArg k.val) 0)) = false ∧ (e = true ∨ s.hostReach c = false)) ∧
    (∃ (s : State) (c : Fin 4) (k : Fin 2) (tag : Nat) (e : Bool) (bs : List Byte), SvcReady s c k tag ∧ ((s.chan c).svcArg k.val) 0 < 2 ∧ (s.chan c).enabled (pgHbmc (((s.chan c).svcArg k.val) 0)) = false ∧ e = false ∧ s.hostReach c = true ∧ rlogOk (((s.chan c).svcArg k.val) 0) bs = false) :=
  ⟨
    ⟨Wit.on (fun ch => ch |> Wit.svc [0, 0, 0, 0] |> Wit.stk |> Wit.svc [8, 0, 0, 0]), 1, 0, (5 % 256), by delta SvcReady HostReady Ready; decide +kernel⟩,
    ⟨Wit.on (fun ch => ch |> Wit.svc [0, 0, 0, 0] |> Wit.stk |> Wit.svc [0, if true then 65536 else 77, if true then 9 else 70000, 0]), 1, 0, (5 % 256), by delta SvcReady HostReady Ready; decide +kernel⟩,
    ⟨Wit.on (fun ch => ch |> Wit.svc [0, 0, 0, 0] |> Wit.stk |> Wit.svc [1, 7, 8, 0] |>.setGrpBase 1 6), 1, 0, (5 % 256), by delta SvcReady HostReady Ready; decide +kernel⟩,
    ⟨Wit.on (fun ch => ch |> Wit.svc [0, 0, 0, 0] |> Wit.stk), 1, 0, (5 % 256), by delta SvcReady HostReady Ready; decide +kernel⟩,
    ⟨Wit.on (fun ch => ch |> Wit.svc [0, 0, 0, 0] |> Wit.stk |> Wit.svc [64, 0, 0, 0]), 1, 0, (5 % 256), by delta SvcReady HostReady Ready; decide +kernel⟩,
    ⟨Wit.on (fun ch => ch |> Wit.svc [0, 0, 0, 0] |> Wit.stk |> Wit.svc [2, 0, 0, 0]), 1, 0, (5 % 256), by delta SvcReady HostReady Ready; decide +kernel⟩,
    ⟨Wit.on (fun ch => ch |> Wit.svc [0, 0, 0, 0] |> Wit.stk |>.putF (pgHbmc 0) HBMC.STATUS_STATE 1), 1, 0, (5 % 256), by delta SvcReady HostReady Ready; decide +kernel⟩,
    ⟨Wit.on (fun ch => ch |> Wit.svc [0, 0, 0, 0] |> Wit.stk), 1, 0, (5 % 256), true, by delta SvcReady HostReady Ready; decide +kernel⟩,
    ⟨Wit.on (fun ch => ch |> Wit.svc [0, 0, 0, 0] |> Wit.stk), 1, 0, (5 % 256), by delta SvcReady HostReady Ready; decide +kernel⟩,
    ⟨Wit.on (fun ch => ch |> Wit.svc [0, 0, 0, 0] |> Wit.stk |>.putB (pgHbmc 0) CTRL_ENABLE false), 1, 0, (5 % 256), true, by delta SvcReady HostReady Ready; decide +kernel⟩,
    ⟨Wit.on (fun ch => ch |> Wit.svc [0, 0, 0, 0] |> Wit.stk |>.putB (pgHbmc 0) CTRL_ENABLE false), 1, 0, (5 % 256), false, (Wit.rlog.set 5 3), by delta SvcReady HostReady Ready; decide +kernel⟩⟩

theorem witness_RingsCarryDescriptorsAndRecords :
    (∃ (s : State) (c : Fin 4) (p : Nat) (r : Nat) (tail : _), HostReady s c ∧ p < 32 ∧ r < 32 ∧ ringExists p r = true ∧ ((s.chan c).part p).member 0 = true ∧ tail < 65536 ∧ (((s.chan c).ring p r).runs && toPart r && decide (2 ^ ((s.chan c).ring p r).log2 < (tail + 65536 - ((s.chan c).ring p r).head) % 65536)) = false) ∧
    (∃ (s : State) (c : Fin 4) (p : Nat) (r : Nat) (tail : _), HostReady s c ∧ p < 32 ∧ r < 32 ∧ ringExists p r = true ∧ ((s.chan c).part p).member 0 = true ∧ tail < 65536 ∧ ((s.chan c).ring p r).runs = true ∧ toPart r = true ∧ 2 ^ ((s.chan c).ring p r).log2 < (tail + 65536 - ((s.chan c).ring p r).head) % 65536) ∧
    (∃ (s : State) (c : Fin 4) (p : Nat) (r : Nat), HostReady s c ∧ p < 32 ∧ r < 32 ∧ ringExists p r = true ∧ ((s.chan c).part p).member 0 = true ∧ ((s.chan c).ring p r).done = false) ∧
    (∃ (s : State) (c : Fin 4) (p : Nat) (r : Nat), HostReady s c ∧ p < 32 ∧ r < 32 ∧ ringExists p r = true ∧ ((s.chan c).part p).member 0 = true ∧ ((s.chan c).ring p r).done = true) ∧
    (∃ (s : State) (c : Fin 4) (p : Nat) (r : Nat), HostReady s c ∧ p < 32 ∧ r < 32 ∧ ringExists p r = true ∧ ((s.chan c).part p).member 0 = false) ∧
    (∃ (s : State) (c : Fin 4) (p : Nat) (r : Nat), HostReady s c ∧ p < 32 ∧ r < 32 ∧ ringExists p r = true ∧ (s.chan c).enabled pgPart = true ∧ toPart r = true ∧ ((s.chan c).ring p r).runs = true ∧ ((s.chan c).ring p r).stopped = false ∧ ((s.chan c).ring p r).head ≠ ((s.chan c).ring p r).tail ∧ s.hostReach c = true ∧ (r = 17 ∨ (s.chan c).injTurn (p * 32 + r) = true)) ∧
    (∃ (s : State) (c : Fin 4) (p : Nat) (r : Nat) (desc : List Byte), HostReady s c ∧ p < 32 ∧ r < 32 ∧ ringExists p r = true ∧ (s.chan c).enabled pgPart = true ∧ toPart r = true ∧ ((s.chan c).ring p r).runs = true ∧ ((s.chan c).ring p r).stopped = false ∧ ((s.chan c).ring p r).head ≠ ((s.chan c).ring p r).tail ∧ s.hostReach c = true ∧ (r = 17 ∨ (s.chan c).injTurn (p * 32 + r) = true) ∧ r < 16 ∧ leAt desc 10 1 / 64 = 1 ∧ handleOk (leAt desc 24 4) = true ∧ (s.chan c).freeResult (leAt desc 24 4) (leAt desc 12 2 % 4096) (some p) = 0 ∧ ((s.chan c).buf (leAt desc 24 4)).refs = 0) ∧
    (∃ (s : State) (c : Fin 4) (p : Nat) (r : Nat) (q : _) (b : _), HostReady s c ∧ p < 32 ∧ r < 32 ∧ ringExists p r = true ∧ (s.chan c).enabled pgPart = true ∧ (s.chan c).recQ.find? (fun q => q.part == p && q.ring == r) = some q ∧ ((s.chan c).ring p r).runs = true ∧ ((s.chan c).ring p r).stopped = false ∧ s.hostReach c = true ∧ ((s.chan c).ring p r).buf = some b ∧ up8 b.used + q.bytes.length ≤ b.len) ∧
    (∃ (s : State) (c : Fin 4) (p : Nat) (r : Nat) (b : _), HostReady s c ∧ p < 32 ∧ r < 32 ∧ ringExists p r = true ∧ (s.chan c).enabled pgPart = true ∧ ((s.chan c).ring p r).runs = true ∧ s.hostReach c = true ∧ ((s.chan c).ring p r).buf = some b) ∧
    (∃ (s : State) (c : Fin 4) (p : Nat) (r : Nat) (k : _) (b : _), HostReady s c ∧ p < 32 ∧ r < 32 ∧ ringExists p r = true ∧ p = 0 ∧ r = 19 ∧ (s.chan c).active = some k ∧ (s.chan c).getB pgJrnl JRNL.CTRL_STREAM_EN = true ∧ 0 < ((s.chan c).region k).jrnl.unsent ∧ ((s.chan c).ring p r).runs = true ∧ ((s.chan c).ring p r).stopped = false ∧ s.hostReach c = true ∧ ((s.chan c).ring p r).buf = some b ∧ up8 b.used + 32 ≤ b.len) :=
  ⟨
    ⟨Wit.on (fun ch => ch |> Wit.ring 9 { tail := 1 }), 1, 0, 9, (64), by delta HostReady Ready; decide +kernel⟩,
    ⟨Wit.on (fun ch => ch |> Wit.ring 9 { tail := 1 }), 1, 0, 9, 66, by delta HostReady Ready; decide +kernel⟩,
    ⟨Wit.on (fun ch => ch |> Wit.ring 9 { tail := 1 }), 1, 0, 9, by delta HostReady Ready; decide +kernel⟩,
    ⟨Wit.on (fun ch => ch |> Wit.ring 9 { tail := 1 } |> Wit.ring 9 { done := true }), 1, 0, 9, by delta HostReady Ready; decide +kernel⟩,
    ⟨Wit.on (fun ch => ch |> Wit.ring 9 { tail := 1 }), 1, 3, 9, by delta HostReady Ready; decide +kernel⟩,
    ⟨Wit.on (fun ch => ch |> Wit.ring 9 { tail := 1 }), 1, 0, 9, by delta HostReady Ready; decide +kernel⟩,
    ⟨Wit.on (fun ch => ch |> Wit.ring 9 { tail := 1 } |> Wit.sbuf (2 ^ 29 + 5) (Wit.ipkt 0 0) true false), 1, 0, 9, Wit.fdesc, by delta HostReady Ready; decide +kernel⟩,
    ⟨Wit.on (fun ch => ch |> Wit.ring 9 { tail := 1 } |> Wit.ring 2 { buf := some { addr := 4096, len := 2048, used := 21, records := 0 } } |> fun ch => { ch with recQ := [{ part := 0, ring := 3, bytes := [] }, { part := 0, ring := 2, bytes := [1, 2, 3] }] }), 1, 0, 2, { part := 0, ring := 2, bytes := [1, 2, 3] }, { addr := 4096, len := 2048, used := 21, records := 0 }, by delta HostReady Ready; decide +kernel⟩,
    ⟨Wit.on (fun ch => ch |> Wit.ring 9 { tail := 1 } |> Wit.ring 2 { buf := some { addr := 4096, len := 2048, used := 21, records := 0 } } |> fun ch => { ch with recQ := [{ part := 0, ring := 3, bytes := [] }, { part := 0, ring := 2, bytes := [1, 2, 3] }] }), 1, 0, 2, { addr := 4096, len := 2048, used := 21, records := 0 }, by delta HostReady Ready; decide +kernel⟩,
    ⟨Wit.on (fun ch => ch |> Wit.ring 9 { tail := 1 } |> Wit.kp 0 4 0x80 |> Wit.ring 19 { buf := some { addr := 4096, len := 2048 } } |>.putB pgJrnl JRNL.CTRL_STREAM_EN true |>.putJrnl 0 { entries := [(0, 5)], wr := 1, count := 1, unsent := 1 }), 1, 0, 19, 0, { addr := 4096, len := 2048 }, by delta HostReady Ready; decide +kernel⟩⟩

theorem witness_PartitionLife :
    (∃ (s : State) (c : Fin 4) (p : Nat), HostReady s c ∧ p < 32 ∧ (s.chan c).enabled pgPart = true ∧ p ≠ 0 ∧ ((s.chan c).part p).state = 0) ∧
    (∃ (s : State) (c : Fin 4) (p : Nat), HostReady s c ∧ p < 32 ∧ (s.chan c).enabled pgPart = true ∧ ((s.chan c).part p).state ≠ 0 ∧ p ≠ 0) ∧
    (∃ (s : State) (c : Fin 4) (p : Nat), HostReady s c ∧ p < 32 ∧ (s.chan c).enabled pgPart = true ∧ ((s.chan c).part p).state = 1) ∧
    (∃ (s : State) (c : Fin 4) (p : Nat), HostReady s c ∧ p < 32 ∧ (s.chan c).enabled pgPart = true ∧ ((s.chan c).part p).state = 3) ∧
    (∃ (s : State) (c : Fin 4) (p : Nat), HostReady s c ∧ p < 32 ∧ (s.chan c).enabled pgPart = true ∧ ((s.chan c).part p).state = 3 ∧ p ≠ 0 ∧ (s.chan c).removeResult p = 0) ∧
    (∃ (s : State) (c : Fin 4) (p : Nat), HostReady s c ∧ p < 32 ∧ ((s.chan c).part p).state = 2 ∧ (s.chan c).stepEnded p = true ∧ ((s.chan c).part p).step < 5) ∧
    (∃ (s : State) (c : Fin 4) (p : Nat), HostReady s c ∧ p < 32 ∧ ((s.chan c).part p).state = 2 ∧ (s.chan c).stepEnded p = true ∧ ((s.chan c).part p).step = 5) ∧
    (∃ (s : State) (c : Fin 4) (p : Nat), HostReady s c ∧ p < 32 ∧ ((s.chan c).part p).state = 2 ∧ ((((s.chan c).part p).step = 1 ∨ ((s.chan c).part p).step = 3 ∨ (s.chan c).stepEnded p = false)) ∧ ((s.chan c).part p).step ≤ 5) :=
  ⟨
    ⟨Wit.on (fun ch => ch |>.putB pgPart CTRL_ENABLE true), 1, 3, by delta HostReady Ready; decide +kernel⟩,
    ⟨Wit.on (fun ch => ch |>.putB pgPart CTRL_ENABLE true |>.putPart 3 { state := 1 }), 1, 3, by delta HostReady Ready; decide +kernel⟩,
    ⟨Wit.on (fun ch => ch |>.putB pgPart CTRL_ENABLE true |>.putPart 3 { state := 1 }), 1, 3, by delta HostReady Ready; decide +kernel⟩,
    ⟨Wit.on (fun ch => ch |>.putB pgPart CTRL_ENABLE true |>.putPart 3 { state := 3, punt := 7 } |>.putAcct 200 { part := 3 }), 1, 3, by delta HostReady Ready; decide +kernel⟩,
    ⟨Wit.on (fun ch => ch |>.putB pgPart CTRL_ENABLE true |>.putPart 3 { state := 3, punt := 7 } |>.putAcct 200 { part := 3 } |>.putF pgPart (PART.PORT_OWN_PART 12) 3), 1, 3, by delta HostReady Ready; decide +kernel⟩,
    ⟨Wit.on (fun ch => ch |>.putB pgPart CTRL_ENABLE true |>.putPart 3 { state := 2, step := 0 }), 1, 3, by delta HostReady Ready; decide +kernel⟩,
    ⟨Wit.on (fun ch => ch |>.putB pgPart CTRL_ENABLE true |>.putPart 3 { state := 2, step := 5 }), 1, 3, by delta HostReady Ready; decide +kernel⟩,
    ⟨Wit.on (fun ch => ch |>.putB pgPart CTRL_ENABLE true |>.putPart 3 { state := 2, step := if true then 1 else 3 }), 1, 3, by delta HostReady Ready; decide +kernel⟩⟩

theorem witness_PartitionConfiguration :
    (∃ (s : State) (c : Fin 4) (v : Word), HostReady s c ∧ ringExists ((s.chan c).ringSel.1) ((s.chan c).ringSel.2) = true ∧ 6 ≤ fld v 28 24 ∧ fld v 28 24 ≤ 16 ∧ ((s.chan c).ring ((s.chan c).ringSel.1) ((s.chan c).ringSel.2)).en = false ∧ bit v 31 = true ∧ (s.chan c).ringRefusal (fun n => (s.isl.vecOwner n).1) ((s.chan c).ringSel.1) ((s.chan c).ringSel.2) v = 0) ∧
    (∃ (s : State) (c : Fin 4) (v : Word), HostReady s c ∧ ringExists ((s.chan c).ringSel.1) ((s.chan c).ringSel.2) = true ∧ 6 ≤ fld v 28 24 ∧ fld v 28 24 ≤ 16 ∧ ((s.chan c).ring ((s.chan c).ringSel.1) ((s.chan c).ringSel.2)).en = true ∧ bit v 31 = false ∧ fld v 28 24 = ((s.chan c).ring ((s.chan c).ringSel.1) ((s.chan c).ringSel.2)).log2 ∧ fld v 23 22 = ((s.chan c).ring ((s.chan c).ringSel.1) ((s.chan c).ringSel.2)).ident) ∧
    (∃ (s : State) (c : Fin 4) (v : Word) (k : Fin 4), HostReady s c ∧ ¬ ((s.chan c).selPart = 0 ∧ k.val = 0) ∧ (List.range 32).any (fun q => q != (s.chan c).selPart && (List.range 4).any (fun j => idConflict v (((s.chan c).part q).ident j))) = false ∧ (List.range 32).any (fun j => ((s.chan c).ring (s.chan c).selPart j).en && ((s.chan c).ring (s.chan c).selPart j).ident == k.val) = false) ∧
    (∃ (s : State) (c : Fin 4) (v : Word) (k : Fin 4), HostReady s c ∧ ¬ ((s.chan c).selPart = 0 ∧ k.val = 0) ∧ (List.range 32).any (fun q => q != (s.chan c).selPart && (List.range 4).any (fun j => idConflict v (((s.chan c).part q).ident j))) = true) ∧
    (∃ (s : State) (c : Fin 4) (v : Word) (q : _), HostReady s c ∧ q < 64 ∧ (s.chan c).portPart q = 0 ∧ fld v 4 0 ≠ 0 ∧ ((s.chan c).part (fld v 4 0)).state ≠ 0) ∧
    (∃ (s : State) (c : Fin 4) (v : Word) (q : _), HostReady s c ∧ q < 64 ∧ (s.chan c).portPart q ≠ 0 ∧ fld v 4 0 ≠ (s.chan c).portPart q ∧ ((s.chan c).part ((s.chan c).portPart q)).state ≠ 3) :=
  ⟨
    ⟨Wit.on (fun ch => ch |>.putB pgPart CTRL_ENABLE true |>.putF pgPart PART.RING_SEL_RING 9), 1, (BitVec.ofNat 32 2248146944), by delta HostReady Ready; decide +kernel⟩,
    ⟨Wit.on (fun ch => ch |>.putB pgPart CTRL_ENABLE true |>.putF pgPart PART.RING_SEL_RING 9 |> Wit.ring 9 { tail := 1 }), 1, (BitVec.ofNat 32 100663296), by delta HostReady Ready; decide +kernel⟩,
    ⟨Wit.on (fun ch => ch |>.putB pgPart CTRL_ENABLE true |>.putF pgPart PART.RING_SEL_RING 9), 1, 0x80500077, 2, by delta HostReady Ready; decide +kernel⟩,
    ⟨Wit.on (fun ch => ch |>.putB pgPart CTRL_ENABLE true |>.putF pgPart PART.RING_SEL_RING 9 |>.putF pgPart PART.RING_SEL_PART 4 |>.putF pgPart ⟨0x100, 4, 0⟩ 4 |>.putPart 0 { state := 1, id0 := 0x80000077 }), 1, 0x80000077, 2, by delta HostReady Ready; decide +kernel⟩,
    ⟨Wit.on (fun ch => ch |>.putB pgPart CTRL_ENABLE true |>.putF pgPart PART.RING_SEL_RING 9 |>.putPart 3 { state := 1 }), 1, 3, 12, by delta HostReady Ready; decide +kernel⟩,
    ⟨Wit.on (fun ch => ch |>.putB pgPart CTRL_ENABLE true |>.putF pgPart PART.RING_SEL_RING 9 |>.putPart 3 { state := 1 } |>.putF pgPart (PART.PORT_OWN_PART 12) 3), 1, 5, 12, by delta HostReady Ready; decide +kernel⟩⟩

theorem witness_RingsInEveryState :
    (∃ (s : State) (c : Fin 4) (p : Nat) (n : Nat) (f : _) (tail : _), HostReady s c ∧ p < 32 ∧ n < 32 ∧ s.reachFn f = true ∧ ringExists p n = true ∧ ((s.chan c).part p).member f = true ∧ tail < 65536 ∧ (((s.chan c).ring p n).runs = false ∨ toPart n = false)) ∧
    (∃ (s : State) (c : Fin 4) (p : Nat) (n : Nat) (f : _), HostReady s c ∧ p < 32 ∧ n < 32 ∧ s.reachFn f = true ∧ ringExists p n = true ∧ ((s.chan c).part p).member f = true ∧ ((s.chan c).ring p n).done = false) ∧
    (∃ (s : State) (c : Fin 4) (p : Nat) (n : Nat) (f : _), HostReady s c ∧ p < 32 ∧ n < 32 ∧ s.reachFn f = true ∧ ringExists p n = true ∧ ((s.chan c).part p).member f = false) ∧
    (∃ (s : State) (c : Fin 4) (p : Nat) (n : Nat) (f : _), HostReady s c ∧ p < 32 ∧ n < 32 ∧ s.reachFn f = true ∧ ringExists p n = false) ∧
    (∃ (s : State) (c : Fin 4) (p : Nat) (n : Nat), HostReady s c ∧ p < 32 ∧ n < 32 ∧ ((s.chan c).enabled pgPart = false ∨ ringExists p n = false ∨ toPart n = false ∨ ((s.chan c).ring p n).runs = false ∨ ((s.chan c).ring p n).stopped = true ∨ ((s.chan c).ring p n).head = ((s.chan c).ring p n).tail ∨ s.hostReach c = false ∨ (n < 16 ∧ (s.chan c).injTurn (p * 32 + n) = false))) ∧
    (∃ (s : State) (c : Fin 4) (p : Nat) (n : Nat) (desc : List Byte) (e : Bool), HostReady s c ∧ p < 32 ∧ n < 32 ∧ (s.chan c).enabled pgPart = true ∧ ringExists p n = true ∧ toPart n = true ∧ ((s.chan c).ring p n).runs = true ∧ ((s.chan c).ring p n).stopped = false ∧ ((s.chan c).ring p n).head ≠ ((s.chan c).ring p n).tail ∧ s.hostReach c = true ∧ n < 16 ∧ (s.chan c).injTurn (p * 32 + n) = true ∧ (leAt desc 10 1 / 64) = 0 ∧ (s.chan c).injStatus p (leAt desc 10 1 % 64) (leAt desc 8 2) (leAt desc 11 1) e ≠ 0) ∧
    (∃ (s : State) (c : Fin 4) (p : Nat) (n : Nat) (desc : List Byte) (e : Bool), HostReady s c ∧ p < 32 ∧ n < 32 ∧ (s.chan c).enabled pgPart = true ∧ ringExists p n = true ∧ toPart n = true ∧ ((s.chan c).ring p n).runs = true ∧ ((s.chan c).ring p n).stopped = false ∧ ((s.chan c).ring p n).head ≠ ((s.chan c).ring p n).tail ∧ s.hostReach c = true ∧ n < 16 ∧ (s.chan c).injTurn (p * 32 + n) = true ∧ (leAt desc 10 1 / 64) = 0 ∧ (s.chan c).injStatus p (leAt desc 10 1 % 64) (leAt desc 8 2) (leAt desc 11 1) e = 0 ∧ (s.chan c).injRoom p = false) ∧
    (∃ (s : State) (c : Fin 4) (p : Nat) (n : Nat) (desc : List Byte) (e : Bool), HostReady s c ∧ p < 32 ∧ n < 32 ∧ (s.chan c).enabled pgPart = true ∧ ringExists p n = true ∧ toPart n = true ∧ ((s.chan c).ring p n).runs = true ∧ ((s.chan c).ring p n).stopped = false ∧ ((s.chan c).ring p n).head ≠ ((s.chan c).ring p n).tail ∧ s.hostReach c = true ∧ n < 16 ∧ (s.chan c).injTurn (p * 32 + n) = true ∧ (leAt desc 10 1 / 64) = 0 ∧ (s.chan c).injStatus p (leAt desc 10 1 % 64) (leAt desc 8 2) (leAt desc 11 1) e = 0 ∧ (s.chan c).injRoom p = true) ∧
    (∃ (s : State) (c : Fin 4) (p : Nat) (n : Nat) (desc : List Byte), HostReady s c ∧ p < 32 ∧ n < 32 ∧ (s.chan c).enabled pgPart = true ∧ ringExists p n = true ∧ toPart n = true ∧ ((s.chan c).ring p n).runs = true ∧ ((s.chan c).ring p n).stopped = false ∧ ((s.chan c).ring p n).head ≠ ((s.chan c).ring p n).tail ∧ s.hostReach c = true ∧ n < 16 ∧ (s.chan c).injTurn (p * 32 + n) = true ∧ (2 ≤ (leAt desc 10 1 / 64) ∨ ((leAt desc 10 1 / 64) = 1 ∧ (nbits (leAt desc 11 1) 6 1 ≠ 0 ∨ 4096 ≤ leAt desc 12 2 ∨ handleOk (leAt desc 24 4) = false)))) ∧
    (∃ (s : State) (c : Fin 4) (p : Nat) (n : Nat) (desc : List Byte), HostReady s c ∧ p < 32 ∧ n < 32 ∧ (s.chan c).enabled pgPart = true ∧ ringExists p n = true ∧ toPart n = true ∧ ((s.chan c).ring p n).runs = true ∧ ((s.chan c).ring p n).stopped = false ∧ ((s.chan c).ring p n).head ≠ ((s.chan c).ring p n).tail ∧ s.hostReach c = true ∧ n < 16 ∧ (s.chan c).injTurn (p * 32 + n) = true ∧ (leAt desc 10 1 / 64) = 1 ∧ nbits (leAt desc 11 1) 6 1 = 0 ∧ leAt desc 12 2 < 4096 ∧ handleOk (leAt desc 24 4) = true ∧ (s.chan c).freeResult (leAt desc 24 4) (leAt desc 12 2 % 4096) (some p) ≠ 0) ∧
    (∃ (s : State) (c : Fin 4) (p : Nat) (n : Nat) (desc : List Byte) (e : Bool), HostReady s c ∧ p < 32 ∧ n < 32 ∧ (s.chan c).enabled pgPart = true ∧ ringExists p n = true ∧ toPart n = true ∧ ((s.chan c).ring p n).runs = true ∧ ((s.chan c).ring p n).stopped = false ∧ ((s.chan c).ring p n).head ≠ ((s.chan c).ring p n).tail ∧ s.hostReach c = true ∧ n = 17 ∧ (nbits (leAt desc 11 1) 6 1 ≠ 0 ∨ e = true)) ∧
    (∃ (s : State) (c : Fin 4) (p : Nat) (n : Nat) (desc : List Byte) (data : List Byte), HostReady s c ∧ p < 32 ∧ n < 32 ∧ (s.chan c).enabled pgPart = true ∧ ringExists p n = true ∧ toPart n = true ∧ ((s.chan c).ring p n).runs = true ∧ ((s.chan c).ring p n).stopped = false ∧ ((s.chan c).ring p n).head ≠ ((s.chan c).ring p n).tail ∧ s.hostReach c = true ∧ n = 17 ∧ nbits (leAt desc 11 1) 6 1 = 0 ∧ (s.chan c).tValid (blockCmd p data).table = false) ∧
    (∃ (s : State) (c : Fin 4) (p : Nat) (n : Nat), HostReady s c ∧ p < 32 ∧ n < 32 ∧ ((s.chan c).enabled pgPart = false ∨ (s.chan c).recQ.find? (fun q => q.part == p && q.ring == n) = none)) ∧
    (∃ (s : State) (c : Fin 4) (p : Nat) (n : Nat) (q : _), HostReady s c ∧ p < 32 ∧ n < 32 ∧ (s.chan c).enabled pgPart = true ∧ (s.chan c).recQ.find? (fun q => q.part == p && q.ring == n) = some q ∧ n ≠ 16 ∧ (s.hostReach c = false ∨ ((s.chan c).ring p n).runs = false)) ∧
    (∃ (s : State) (c : Fin 4) (p : Nat) (n : Nat) (q : _), HostReady s c ∧ p < 32 ∧ n < 32 ∧ (s.chan c).enabled pgPart = true ∧ (s.chan c).recQ.find? (fun q => q.part == p && q.ring == n) = some q ∧ n ≠ 16 ∧ s.hostReach c = true ∧ ((s.chan c).ring p n).runs = true ∧ ((s.chan c).ring p n).buf = none ∧ ((s.chan c).ring p n).head = ((s.chan c).ring p n).tail) ∧
    (∃ (s : State) (c : Fin 4) (p : Nat) (n : Nat) (q : _), HostReady s c ∧ p < 32 ∧ n < 32 ∧ (s.chan c).enabled pgPart = true ∧ (s.chan c).recQ.find? (fun q => q.part == p && q.ring == n) = some q ∧ n ≠ 16 ∧ s.hostReach c = true ∧ ((s.chan c).ring p n).runs = true ∧ ((s.chan c).ring p n).buf = none ∧ ((s.chan c).ring p n).head ≠ ((s.chan c).ring p n).tail) ∧
    (∃ (s : State) (c : Fin 4) (p : Nat) (n : Nat) (q : _) (desc : List Byte), HostReady s c ∧ p < 32 ∧ n < 32 ∧ (s.chan c).enabled pgPart = true ∧ (s.chan c).recQ.find? (fun q => q.part == p && q.ring == n) = some q ∧ s.hostReach c = true ∧ ((s.chan c).ring p n).runs = true ∧ ((s.chan c).ring p n).stopped = false ∧ ((s.chan c).ring p n).buf = none ∧ ((s.chan c).ring p n).head ≠ ((s.chan c).ring p n).tail ∧ 256 ≤ leAt desc 8 4 ∧ leAt desc 8 4 ≤ 65536 ∧ leAt desc 8 4 % 64 = 0 ∧ q.bytes.length ≤ leAt desc 8 4) ∧
    (∃ (s : State) (c : Fin 4) (p : Nat) (n : Nat) (q : _) (desc : List Byte), HostReady s c ∧ p < 32 ∧ n < 32 ∧ (s.chan c).enabled pgPart = true ∧ (s.chan c).recQ.find? (fun q => q.part == p && q.ring == n) = some q ∧ s.hostReach c = true ∧ ((s.chan c).ring p n).runs = true ∧ ((s.chan c).ring p n).stopped = false ∧ ((s.chan c).ring p n).buf = none ∧ ((s.chan c).ring p n).head ≠ ((s.chan c).ring p n).tail ∧ 256 ≤ leAt desc 8 4 ∧ leAt desc 8 4 ≤ 65536 ∧ leAt desc 8 4 % 64 = 0 ∧ q.bytes.length ≤ leAt desc 8 4 ∧ n ≠ 16) ∧
    (∃ (s : State) (c : Fin 4) (p : Nat) (n : Nat) (q : _) (desc : List Byte), HostReady s c ∧ p < 32 ∧ n < 32 ∧ (s.chan c).enabled pgPart = true ∧ (s.chan c).recQ.find? (fun q => q.part == p && q.ring == n) = some q ∧ s.hostReach c = true ∧ ((s.chan c).ring p n).runs = true ∧ ((s.chan c).ring p n).buf = none ∧ ((s.chan c).ring p n).head ≠ ((s.chan c).ring p n).tail ∧ leAt desc 8 4 < 256) ∧
    (∃ (s : State) (c : Fin 4) (p : Nat) (n : Nat), HostReady s c ∧ p < 32 ∧ n < 32 ∧ (((s.chan c).ring p n).buf = none ∨ ((s.chan c).ring p n).runs = false ∨ (s.chan c).enabled pgPart = false)) ∧
    (∃ (s : State) (c : Fin 4) (p : Nat) (n : Nat) (b : _) (g : Bool), HostReady s c ∧ p < 32 ∧ n < 32 ∧ (s.chan c).enabled pgPart = true ∧ ((s.chan c).ring p n).runs = true ∧ ((s.chan c).ring p n).buf = some b ∧ (g = true ∨ s.hostReach c = false)) ∧
    (∃ (s : State) (c : Fin 4) (p : Nat) (n : Nat), HostReady s c ∧ p < 32 ∧ n < 32 ∧ ((s.chan c).active = none ∨ (s.chan c).getB pgJrnl JRNL.CTRL_STREAM_EN = false ∨ ((s.chan c).ring 0 19).runs = false ∨ s.hostReach c = false)) ∧
    (∃ (s : State) (c : Fin 4) (p : Nat) (n : Nat) (k : _), HostReady s c ∧ p < 32 ∧ n < 32 ∧ (s.chan c).active = some k ∧ (((s.chan c).region k).jrnl.unsent = 0 ∨ (((s.chan c).ring 0 19).buf = none ∧ ((s.chan c).ring 0 19).head = ((s.chan c).ring 0 19).tail))) :=
  ⟨
    ⟨((Wit.on (fun ch => (Wit.ring 9 { tail := 1 } ch).putPart 0 { state := 1, id0 := 0x80000000, id1 := 0x80500000 })).onIsl (fun i => { i with vfEnable := false })), 1, 0, (2), (0), 7, by delta HostReady Ready; decide +kernel⟩,
    ⟨((Wit.on (fun ch => (Wit.ring 9 { tail := 1 } ch).putPart 0 { state := 1, id0 := 0x80000000, id1 := 0x80500000 })).onIsl (fun i => { i with vfEnable := false })), 1, 0, 9, (0), by delta HostReady Ready; decide +kernel⟩,
    ⟨((Wit.on (fun ch => (Wit.ring 9 { tail := 1 } ch).putPart 3 { state := 1 })).onIsl (fun i => { i with vfEnable := false })), 1, 3, 9, (0), by delta HostReady Ready; decide +kernel⟩,
    ⟨((Wit.on (fun ch => (Wit.ring 9 { tail := 1 } ch))).onIsl (fun i => { i with vfEnable := false })), 1, 0, 20, (0), by delta HostReady Ready; decide +kernel⟩,
    ⟨Wit.on (fun ch => ch |> Wit.ring 9 { tail := 1 } |> fun ch => if true then ch.putB pgPart CTRL_ENABLE false else if false then Wit.ring 9 { tail := 1, stopped := true } ch else (Wit.ring 9 { tail := 1 } (Wit.ring 8 { tail := 1 } ch))), 1, 0, (9), by delta HostReady Ready; decide +kernel⟩,
    ⟨Wit.on (fun ch => ch |> Wit.ring 9 { tail := 1 } |>.putB pgDisp CTRL_ENABLE true), 1, 0, 9, (leBytes 8 0 ++ leBytes 2 30 ++ leBytes 1 0 ++ leBytes 21 0), true, by delta HostReady Ready; decide +kernel⟩,
    ⟨Wit.on (fun ch => ch |> Wit.ring 9 { tail := 1 } |>.putB pgDisp CTRL_ENABLE true |> Wit.port 7 |>.putF pgBrew BREW.STATUS_STATE 1 |>.putB pgDisp CTRL_ENABLE false), 1, 0, 9, (leBytes 8 0 ++ leBytes 2 64 ++ leBytes 1 7 ++ leBytes 21 0), false, by delta HostReady Ready; decide +kernel⟩,
    ⟨Wit.on (fun ch => ch |> Wit.ring 9 { tail := 1 } |>.putB pgDisp CTRL_ENABLE true |> Wit.port 7 |>.putF pgBrew BREW.STATUS_STATE 1 |>.putB (pgPclu 0) CTRL_ENABLE true), 1, 0, 9, (leBytes 8 0 ++ leBytes 2 64 ++ leBytes 1 7 ++ leBytes 21 0), false, by delta HostReady Ready; decide +kernel⟩,
    ⟨Wit.on (fun ch => ch |> Wit.ring 9 { tail := 1 } |>.putB pgDisp CTRL_ENABLE true), 1, 0, 9, (leBytes 10 0 ++ leBytes 1 (128) ++ leBytes 21 2), by delta HostReady Ready; decide +kernel⟩,
    ⟨Wit.on (fun ch => ch |> Wit.ring 9 { tail := 1 } |>.putB pgDisp CTRL_ENABLE true), 1, 0, 9, Wit.fdesc, by delta HostReady Ready; decide +kernel⟩,
    ⟨Wit.on (fun ch => ch |> Wit.ring 9 { tail := 1 } |> Wit.ring 17 { tail := 1 }), 1, 0, 17, (leBytes 32 0), true, by delta HostReady Ready; decide +kernel⟩,
    ⟨Wit.on (fun ch => ch |> Wit.ring 9 { tail := 1 } |> Wit.ring 17 { tail := 1 }), 1, 0, 17, (leBytes 32 0), (leBytes 4 (1 + 77 * 65536) ++ leBytes 190 0), by delta HostReady Ready; decide +kernel⟩,
    ⟨Wit.on (fun ch => ch |> Wit.ring 9 { tail := 1 }), 1, 0, 2, by delta HostReady Ready; decide +kernel⟩,
    ⟨Wit.on (fun ch => ch |> Wit.ring 9 { tail := 1 } |> Wit.ring 2 { tail := 1 } |> fun ch => { ch with recQ := [{ part := 0, ring := 3, bytes := [] }, { part := 0, ring := 2, bytes := [1, 2, 3] }] } |> Wit.ring 2 { tail := 1, error := true }), 1, 0, 2, { part := 0, ring := 2, bytes := [1, 2, 3] }, by delta HostReady Ready; decide +kernel⟩,
    ⟨Wit.on (fun ch => ch |> Wit.ring 9 { tail := 1 } |> Wit.ring 2 { tail := 1 } |> fun ch => { ch with recQ := [{ part := 0, ring := 3, bytes := [] }, { part := 0, ring := 2, bytes := [1, 2, 3] }] } |> Wit.ring 2 { tail := 0, drop := 0 }), 1, 0, 2, { part := 0, ring := 2, bytes := [1, 2, 3] }, by delta HostReady Ready; decide +kernel⟩,
    ⟨Wit.on (fun ch => ch |> Wit.ring 9 { tail := 1 } |> Wit.ring 2 { tail := 1 } |> fun ch => { ch with recQ := [{ part := 0, ring := 3, bytes := [] }, { part := 0, ring := 2, bytes := [1, 2, 3] }] }), 1, 0, 2, { part := 0, ring := 2, bytes := [1, 2, 3] }, by delta HostReady Ready; decide +kernel⟩,
    ⟨Wit.on (fun ch => ch |> Wit.ring 9 { tail := 1 } |> Wit.ring 2 { tail := 1 } |> fun ch => { ch with recQ := [{ part := 0, ring := 3, bytes := [] }, { part := 0, ring := 2, bytes := [1, 2, 3] }] }), 1, 0, 2, { part := 0, ring := 2, bytes := [1, 2, 3] }, (leBytes 8 4096 ++ leBytes 4 256 ++ leBytes 20 7), by delta HostReady Ready; decide +kernel⟩,
    ⟨Wit.on (fun ch => ch |> Wit.ring 9 { tail := 1 } |> Wit.ring 2 { tail := 1 } |> fun ch => { ch with recQ := [{ part := 0, ring := 3, bytes := [] }, { part := 0, ring := 2, bytes := [1, 2, 3] }] }), 1, 0, 2, { part := 0, ring := 2, bytes := [1, 2, 3] }, (leBytes 8 4096 ++ leBytes 4 256 ++ leBytes 20 7), by delta HostReady Ready; decide +kernel⟩,
    ⟨Wit.on (fun ch => ch |> Wit.ring 9 { tail := 1 } |> Wit.ring 2 { tail := 1 } |> fun ch => { ch with recQ := [{ part := 0, ring := 3, bytes := [] }, { part := 0, ring := 2, bytes := [1, 2, 3] }] }), 1, 0, 2, { part := 0, ring := 2, bytes := [1, 2, 3] }, (leBytes 8 4096 ++ leBytes 4 77 ++ leBytes 20 7), by delta HostReady Ready; decide +kernel⟩,
    ⟨Wit.on (fun ch => ch |> Wit.ring 9 { tail := 1 }), 1, 0, 9, by delta HostReady Ready; decide +kernel⟩,
    ⟨Wit.on (fun ch => ch |> Wit.ring 9 { tail := 1 } |> Wit.ring 2 { tail := 5, drop := 0, buf := some { addr := 4096, len := 2048, used := 21, records := 0, since := 99 } }), 1, 0, 2, { addr := 4096, len := 2048, used := 21, records := 0, since := 99 }, true, by delta HostReady Ready; decide +kernel⟩,
    ⟨Wit.on (fun ch => ch |> Wit.ring 9 { tail := 1 } |> Wit.ring 19 { tail := 0 } |>.putB pgJrnl JRNL.CTRL_STREAM_EN true), 1, 0, 9, by delta HostReady Ready; decide +kernel⟩,
    ⟨Wit.on (fun ch => ch |> Wit.ring 9 { tail := 1 } |> Wit.ring 19 { tail := 0 } |>.putB pgJrnl JRNL.CTRL_STREAM_EN true |> Wit.kp 0 4 0x80 |> Wit.ring 19 { tail := 0 } |>.putJrnl 0 { entries := [(0, 5)], wr := 1, count := 1, unsent := 0 }), 1, 0, 9, 0, by delta HostReady Ready; decide +kernel⟩⟩

theorem witness_PartitionsInEveryState :
    (∃ (s : State) (c : Fin 4) (p : Nat), HostReady s c ∧ p < 32 ∧ (s.chan c).enabled pgPart = false) ∧
    (∃ (s : State) (c : Fin 4) (p : Nat), HostReady s c ∧ p < 32 ∧ (s.chan c).enabled pgPart = true ∧ p = 0) ∧
    (∃ (s : State) (c : Fin 4) (p : Nat), HostReady s c ∧ p < 32 ∧ (s.chan c).enabled pgPart = true ∧ ((s.chan c).part p).state ≠ 1) ∧
    (∃ (s : State) (c : Fin 4) (p : Nat), HostReady s c ∧ p < 32 ∧ (s.chan c).enabled pgPart = true ∧ ((s.chan c).part p).state ≠ 3) ∧
    (∃ (s : State) (c : Fin 4) (p : Nat), HostReady s c ∧ p < 32 ∧ (s.chan c).enabled pgPart = true ∧ ((s.chan c).part p).state ≠ 3 ∧ p ≠ 0) ∧
    (∃ (s : State) (c : Fin 4) (p : Nat), HostReady s c ∧ p < 32 ∧ (s.chan c).enabled pgPart = true ∧ ((s.chan c).part p).state = 3 ∧ p ≠ 0 ∧ (s.chan c).removeResult p ≠ 0) ∧
    (∃ (s : State) (c : Fin 4) (p : Nat), HostReady s c ∧ p < 32 ∧ ((s.chan c).part p).state ≠ 2) ∧
    (∃ (s : State) (c : Fin 4) (p : Nat), HostReady s c ∧ p < 32 ∧ (s.chan c).stepEnded p = false) ∧
    (∃ (s : State) (c : Fin 4) (p : Nat), HostReady s c ∧ p < 32 ∧ (s.chan c).stepEnded p = true ∧ ((s.chan c).part p).step ≠ 1 ∧ ((s.chan c).part p).step ≠ 3) ∧
    (∃ (s : State) (c : Fin 4) (v : Word), HostReady s c ∧ 6 ≤ fld v 28 24 ∧ fld v 28 24 ≤ 16 ∧ ringExists ((s.chan c).ringSel.1) ((s.chan c).ringSel.2) = false) ∧
    (∃ (s : State) (c : Fin 4) (v : Word), HostReady s c ∧ 6 ≤ fld v 28 24 ∧ fld v 28 24 ≤ 16 ∧ ringExists ((s.chan c).ringSel.1) ((s.chan c).ringSel.2) = true ∧ ((s.chan c).ring ((s.chan c).ringSel.1) ((s.chan c).ringSel.2)).en = true ∧ (fld v 28 24 ≠ ((s.chan c).ring ((s.chan c).ringSel.1) ((s.chan c).ringSel.2)).log2 ∨ fld v 23 22 ≠ ((s.chan c).ring ((s.chan c).ringSel.1) ((s.chan c).ringSel.2)).ident)) ∧
    (∃ (s : State) (c : Fin 4) (v : Word), HostReady s c ∧ 6 ≤ fld v 28 24 ∧ fld v 28 24 ≤ 16 ∧ ringExists ((s.chan c).ringSel.1) ((s.chan c).ringSel.2) = true ∧ (((s.chan c).ring ((s.chan c).ringSel.1) ((s.chan c).ringSel.2)).en = false ∨ (fld v 28 24 = ((s.chan c).ring ((s.chan c).ringSel.1) ((s.chan c).ringSel.2)).log2 ∧ fld v 23 22 = ((s.chan c).ring ((s.chan c).ringSel.1) ((s.chan c).ringSel.2)).ident)) ∧ bit v 31 = true ∧ (s.chan c).ringRefusal (fun m => (s.isl.vecOwner m).1) ((s.chan c).ringSel.1) ((s.chan c).ringSel.2) v ≠ 0) ∧
    (∃ (s : State) (c : Fin 4) (v : Word), HostReady s c ∧ 6 ≤ fld v 28 24 ∧ fld v 28 24 ≤ 16 ∧ ringExists ((s.chan c).ringSel.1) ((s.chan c).ringSel.2) = true ∧ ((s.chan c).ring ((s.chan c).ringSel.1) ((s.chan c).ringSel.2)).en = true ∧ fld v 28 24 = ((s.chan c).ring ((s.chan c).ringSel.1) ((s.chan c).ringSel.2)).log2 ∧ fld v 23 22 = ((s.chan c).ring ((s.chan c).ringSel.1) ((s.chan c).ringSel.2)).ident ∧ bit v 31 = true ∧ (s.chan c).ringRefusal (fun m => (s.isl.vecOwner m).1) ((s.chan c).ringSel.1) ((s.chan c).ringSel.2) v = 0) ∧
    (∃ (s : State) (c : Fin 4) (v : Word), HostReady s c ∧ 6 ≤ fld v 28 24 ∧ fld v 28 24 ≤ 16 ∧ ringExists ((s.chan c).ringSel.1) ((s.chan c).ringSel.2) = true ∧ ((s.chan c).ring ((s.chan c).ringSel.1) ((s.chan c).ringSel.2)).en = false ∧ bit v 31 = false) ∧
    (∃ (s : State) (c : Fin 4), HostReady s c ∧ (s.chan c).selPart = 0) ∧
    (∃ (s : State) (c : Fin 4) (v : Word) (k : Fin 4), HostReady s c ∧ ¬ ((s.chan c).selPart = 0 ∧ k.val = 0) ∧ bit v 31 ≠ bit (((s.chan c).part (s.chan c).selPart).ident k.val) 31 ∧ (List.range 32).any (fun q => q != (s.chan c).selPart && (List.range 4).any (fun j => idConflict v (((s.chan c).part q).ident j))) = false ∧ (List.range 32).any (fun j => ((s.chan c).ring (s.chan c).selPart j).en && ((s.chan c).ring (s.chan c).selPart j).ident == k.val) = true) ∧
    (∃ (s : State) (c : Fin 4) (v : Word) (q : _), HostReady s c ∧ q < 64 ∧ fld v 4 0 = (s.chan c).portPart q) ∧
    (∃ (s : State) (c : Fin 4) (v : Word) (q : _), HostReady s c ∧ q < 64 ∧ fld v 4 0 ≠ (s.chan c).portPart q ∧ ((s.chan c).portPart q = 0 ∨ ((s.chan c).part ((s.chan c).portPart q)).state = 3) ∧ ((s.chan c).part (fld v 4 0)).state = 0) ∧
    (∃ (s : State) (c : Fin 4) (v : Word) (q : _), HostReady s c ∧ q < 64 ∧ fld v 4 0 ≠ (s.chan c).portPart q ∧ ((s.chan c).part ((s.chan c).portPart q)).state = 3 ∧ ((s.chan c).part (fld v 4 0)).state ≠ 0) :=
  ⟨
    ⟨Wit.on (fun ch => ch |>.putB pgPart CTRL_ENABLE false |>.putPart 3 { state := 0 }), 1, 3, by delta HostReady Ready; decide +kernel⟩,
    ⟨Wit.on (fun ch => ch |>.putB pgPart CTRL_ENABLE true), 1, 0, by delta HostReady Ready; decide +kernel⟩,
    ⟨Wit.on (fun ch => ch |>.putB pgPart CTRL_ENABLE true |>.putPart 3 { state := if true then 0 else 3, punt := 9 }), 1, 3, by delta HostReady Ready; decide +kernel⟩,
    ⟨Wit.on (fun ch => ch |>.putB pgPart CTRL_ENABLE true |>.putPart 3 { state := 0, step := 4 }), 1, 3, by delta HostReady Ready; decide +kernel⟩,
    ⟨Wit.on (fun ch => ch |>.putB pgPart CTRL_ENABLE true |>.putPart 3 { state := 0, step := 4 }), 1, 3, by delta HostReady Ready; decide +kernel⟩,
    ⟨Wit.on (fun ch => ch |>.putB pgPart CTRL_ENABLE true |>.putPart 3 { state := 3, punt := 9 } |>.putAcct 200 { part := 3, st := 1 }), 1, 3, by delta HostReady Ready; decide +kernel⟩,
    ⟨Wit.on (fun ch => ch |>.putPart 3 { state := if false then 3 else 0 }), 1, 3, by delta HostReady Ready; decide +kernel⟩,
    ⟨Wit.on (fun ch => ch |>.putPart 3 { state := 2, step := 4 } |>.putAcct 200 { part := 3, st := 1 }), 1, 3, by delta HostReady Ready; decide +kernel⟩,
    ⟨Wit.on (fun ch => ch |>.putPart 3 { state := 2, step := if true then 2 else 3 }), 1, 3, by delta HostReady Ready; decide +kernel⟩,
    ⟨Wit.on (fun ch => ch |>.putB pgPart CTRL_ENABLE true |>.putF pgPart PART.RING_SEL_RING 9 |>.putF pgPart PART.RING_SEL_RING (19 + 1)), 1, (BitVec.ofNat 32 2248146944), by delta HostReady Ready; decide +kernel⟩,
    ⟨Wit.on (fun ch => ch |>.putB pgPart CTRL_ENABLE true |>.putF pgPart PART.RING_SEL_RING 9 |> Wit.ring 9 { tail := 1 }), 1, (BitVec.ofNat 32 117440512), by delta HostReady Ready; decide +kernel⟩,
    ⟨Wit.on (fun ch => ch |>.putB pgPart CTRL_ENABLE true |>.putF pgPart PART.RING_SEL_RING 9 |>.putF pgPart PART.RING_SEL_PART 4), 1, (BitVec.ofNat 32 (2 ^ 31 + 6 * 2 ^ 24 + 77)), by delta HostReady Ready; decide +kernel⟩,
    ⟨Wit.on (fun ch => ch |>.putB pgPart CTRL_ENABLE true |>.putF pgPart PART.RING_SEL_RING 9 |> Wit.ring 9 { tail := 1, head := 3 }), 1, (BitVec.ofNat 32 (2 ^ 31 + 6 * 2 ^ 24)), by delta HostReady Ready; decide +kernel⟩,
    ⟨Wit.on (fun ch => ch |>.putB pgPart CTRL_ENABLE true |>.putF pgPart PART.RING_SEL_RING 9), 1, (BitVec.ofNat 32 100663296), by delta HostReady Ready; decide +kernel⟩,
    ⟨Wit.on (fun ch => ch |>.putB pgPart CTRL_ENABLE true |>.putF pgPart PART.RING_SEL_RING 9), 1, by delta HostReady Ready; decide +kernel⟩,
    ⟨Wit.on (fun ch => ch |>.putB pgPart CTRL_ENABLE true |>.putF pgPart PART.RING_SEL_RING 9 |>.putRing 0 9 { cfg := BitVec.ofNat 32 (2 ^ 31 + 6 * 2 ^ 24 + 2 * 2 ^ 22) }), 1, 0x80500077, 2, by delta HostReady Ready; decide +kernel⟩,
    ⟨Wit.on (fun ch => ch |>.putB pgPart CTRL_ENABLE true |>.putF pgPart PART.RING_SEL_RING 9 |>.putF pgPart (PART.PORT_OWN_PART 12) 3), 1, 3, 12, by delta HostReady Ready; decide +kernel⟩,
    ⟨Wit.on (fun ch => ch |>.putB pgPart CTRL_ENABLE true |>.putF pgPart PART.RING_SEL_RING 9), 1, 3, 12, by delta HostReady Ready; decide +kernel⟩,
    ⟨Wit.on (fun ch => ch |>.putB pgPart CTRL_ENABLE true |>.putF pgPart PART.RING_SEL_RING 9 |>.putPart 3 { state := 3 } |>.putPart 5 { state := 1 } |>.putF pgPart (PART.PORT_OWN_PART 12) 3), 1, (0), 12, by delta HostReady Ready; decide +kernel⟩⟩

theorem witness_TestsRunAndEnd :
    (∃ (s : State) (c : Fin 4) (die : Fin 2), HostReady s c ∧ (s.chan c).enabled (pgTest die.val) = true ∧ targetOk die.val ((s.chan c).getF (pgTest die.val) TEST.SEL_KIND) ((s.chan c).getF (pgTest die.val) TEST.SEL_INDEX) = true ∧ ((s.chan c).test ((s.chan c).selKey die.val)).st ≠ 1 ∧ ((s.chan c).test ((s.chan c).selKey die.val)).st ≠ 2 ∧ (s.chan c).patternOk ((s.chan c).getF (pgTest die.val) TEST.SEL_KIND) ((s.chan c).getF (pgTest die.val) TEST.SEL_INDEX) (fld ((s.chan c).test ((s.chan c).selKey die.val)).cfg 19 16) = true ∧ (s.chan c).testUse die.val ((s.chan c).getF (pgTest die.val) TEST.SEL_KIND) ((s.chan c).getF (pgTest die.val) TEST.SEL_INDEX) = none ∧ ((((s.chan c).getF (pgTest die.val) TEST.SEL_KIND) = 3 → (s.chan c).clientOk ((s.chan c).getF (pgTest die.val) TEST.SEL_INDEX) = true))) ∧
    (∃ (s : State) (c : Fin 4) (die : Fin 2), HostReady s c ∧ (s.chan c).enabled (pgTest die.val) = true ∧ targetOk die.val ((s.chan c).getF (pgTest die.val) TEST.SEL_KIND) ((s.chan c).getF (pgTest die.val) TEST.SEL_INDEX) = false) ∧
    (∃ (s : State) (c : Fin 4) (die : Fin 2), HostReady s c ∧ ((s.chan c).test ((s.chan c).selKey die.val)).st = 2) ∧
    (∃ (s : State) (c : Fin 4), HostReady s c) ∧
    (∃ (s : State) (c : Fin 4) (die : Fin 2), HostReady s c ∧ ((s.chan c).test ((s.chan c).selKey die.val)).st = 2 ∧ ((s.chan c).test ((s.chan c).selKey die.val)).lock = true ∧ bit ((s.chan c).test ((s.chan c).selKey die.val)).cfg 28 = true ∧ ((s.chan c).test ((s.chan c).selKey die.val)).err + 1 < 2 ^ 48) ∧
    (∃ (s : State) (c : Fin 4) (die : Fin 2) (v : Word) (bits : _) (errs : _), HostReady s c ∧ fld v 31 28 ≤ 4 ∧ ((s.chan c).test (testKey die.val (fld v 31 28) (fld v 15 0))).st = 2 ∧ ((s.chan c).test (testKey die.val (fld v 31 28) (fld v 15 0))).lock = true ∧ ((s.chan c).test (testKey die.val (fld v 31 28) (fld v 15 0))).bits + bits < 2 ^ 48 ∧ ((s.chan c).test (testKey die.val (fld v 31 28) (fld v 15 0))).err + errs < 2 ^ 48) ∧
    (∃ (s : State) (c : Fin 4) (die : Fin 2) (kd : _) (i : _), Ready s c ∧ targetOk die.val kd i = true ∧ (s.chan c).enabled (pgTest die.val) = true ∧ ((s.chan c).test (testKey die.val kd i)).st = 1 ∧ (s.chan c).testUse die.val kd i = none ∧ kd ≠ 3) ∧
    (∃ (s : State) (c : Fin 4) (die : Fin 2) (kd : _) (i : _), Ready s c ∧ targetOk die.val kd i = true ∧ ((s.chan c).test (testKey die.val kd i)).st = 2 ∧ fld ((s.chan c).test (testKey die.val kd i)).cfg 15 0 ≠ 0 ∧ kd ≠ 4) ∧
    (∃ (s : State) (c : Fin 4) (die : Fin 2) (kd : _) (i : _), Ready s c ∧ targetOk die.val kd i = true ∧ ((s.chan c).test (testKey die.val kd i)).st = 2 ∧ bit ((s.chan c).test (testKey die.val kd i)).cfg 27 = true ∧ fld ((s.chan c).test (testKey die.val kd i)).cfg 30 29 ≠ 2 ∧ kd ≠ 4) ∧
    (∃ (s : State) (c : Fin 4) (die : Fin 2) (kd : _) (i : _), Ready s c ∧ targetOk die.val kd i = true ∧ ((s.chan c).test (testKey die.val kd i)).st = 2 ∧ ((s.chan c).test (testKey die.val kd i)).lock = true) ∧
    (∃ (s : State) (c : Fin 4) (bank : _), Ready s c ∧ bank < 68 ∧ (s.chan c).bankTested bank = true) :=
  ⟨
    ⟨Wit.on (fun ch => ch |> Wit.tst (testKey 0 2 70) { bits := 5, err := 3 } |>.putF (pgTest 0) TEST.SEL_KIND 2 |>.putF (pgTest 0) TEST.SEL_INDEX 135), 1, 0, by delta HostReady Ready; decide +kernel⟩,
    ⟨Wit.on (fun ch => ch |> Wit.tst 0 {} |>.putF (pgTest 0) TEST.SEL_KIND 1), 1, 0, by delta HostReady Ready; decide +kernel⟩,
    ⟨Wit.on (fun ch => ch |> Wit.tst (testKey 0 2 70) { st := 2, lock := true, cfg := 0x10000000, bits := 5, err := 3 } |>.putF (pgTest 0) TEST.SEL_KIND 2 |>.putF (pgTest 0) TEST.SEL_INDEX 70), 1, 0, by delta HostReady Ready; decide +kernel⟩,
    ⟨Wit.on (fun ch => ch), 1, by delta HostReady Ready; decide +kernel⟩,
    ⟨Wit.on (fun ch => ch |> Wit.tst (testKey 0 2 70) { st := 2, lock := true, cfg := 0x10000000, bits := 5, err := 3 } |>.putF (pgTest 0) TEST.SEL_KIND 2 |>.putF (pgTest 0) TEST.SEL_INDEX 70), 1, 0, by delta HostReady Ready; decide +kernel⟩,
    ⟨Wit.on (fun ch => ch |> Wit.tst (testKey 0 2 70) { st := 2, lock := true, cfg := 0x10000000, bits := 5, err := 3 }), 1, 0, (BitVec.ofNat 32 (2 * 2 ^ 28 + 70)), 0, 0, by delta HostReady Ready; decide +kernel⟩,
    ⟨Wit.on (fun ch => ch |> Wit.tst (testKey 0 2 135) { st := 1, bits := 5, err := 3 }), 1, 0, 2, 135, by delta Ready; decide +kernel⟩,
    ⟨Wit.on (fun ch => ch |> Wit.tst (testKey 0 2 70) { st := 2, lock := true, cfg := 0x08000007, bits := 5, err := 3 }), 1, 0, 2, 70, by delta Ready; decide +kernel⟩,
    ⟨Wit.on (fun ch => ch |> Wit.tst (testKey 0 2 70) { st := 2, lock := true, cfg := 0x08000007, bits := 5, err := 3 }), 1, 0, 2, 70, by delta Ready; decide +kernel⟩,
    ⟨Wit.on (fun ch => ch |> Wit.tst (testKey 0 2 70) { st := 2, lock := true, cfg := 0x08000007, bits := 5, err := 3 }), 1, 0, 2, 70, by delta Ready; decide +kernel⟩,
    ⟨Wit.on (fun ch => ch |> Wit.tst (testKey 0 4 4) { st := 2 }), 1, 4, by delta Ready; decide +kernel⟩⟩

theorem witness_BistDumpAndDieLinks :
    (∃ (s : State) (c : Fin 4) (die : Fin 2), s.hasChan c = true ∧ s.chState c = 2 ∧ (s.chan c).outQ = [] ∧ nbit (s.chan c).bistDone die.val = false ∧ (s.chan c).bistDone < 4) ∧
    (∃ (s : State) (c : Fin 4) (off : _), HostReady s c ∧ off < 2 ^ 14 ∧ off % 64 = 0 ∧ (s.chan c).enabled (pgTest 1) = true ∧ handleOk ((s.chan c).nat (pgTest 1) TEST.DUMP_HANDLE) = true ∧ ((s.chan c).buf ((s.chan c).nat (pgTest 1) TEST.DUMP_HANDLE)).inUse = false) ∧
    (∃ (s : State) (c : Fin 4) (off : _), HostReady s c ∧ off < 2 ^ 14 ∧ off % 64 = 0 ∧ (s.chan c).enabled (pgTest 1) = true ∧ handleOk ((s.chan c).nat (pgTest 1) TEST.DUMP_HANDLE) = true ∧ ((s.chan c).buf ((s.chan c).nat (pgTest 1) TEST.DUMP_HANDLE)).inUse = true ∧ ((s.chan c).buf ((s.chan c).nat (pgTest 1) TEST.DUMP_HANDLE)).poison = []) ∧
    (∃ (s : State) (c : Fin 4) (dir : Fin 2) (m : _) (lane : _) (r : _), s.chPages c = true ∧ s.chState c ≠ 6 ∧ (s.chan c).outQ = [] ∧ m < 8 ∧ lane < 64 ∧ ((s.chan c).brDir dir.val m).bad.contains lane = false ∧ ((s.chan c).brDir dir.val m).sub.any (fun e => e.2 == lane) = false ∧ (s.chan c).modState m ≠ 2 ∧ (s.chan c).freeLane dir.val m = some r) ∧
    (∃ (s : State) (c : Fin 4) (lane : _), Ready s c ∧ lane < 4 ∧ nbit ((s.chan c).nat (pgBrdg 0) BRDG.SAUCER) lane = true) :=
  ⟨
    ⟨((Wit.on (fun ch => { ch with bistDone := 0 })).onIsl (fun i => i.putF hpPwr (PWRH.CH_STAT_STATE 1) 2)), 1, (Fin.ofNat 2 0), by decide +kernel⟩,
    ⟨Wit.on (fun ch => ch |>.putB (pgTest 1) CTRL_ENABLE true |>.putN (pgTest 1) TEST.DUMP_HANDLE (2 ^ 29 + 5)), 1, 0, by delta HostReady Ready; decide +kernel⟩,
    ⟨Wit.on (fun ch => ch |>.putB (pgTest 1) CTRL_ENABLE true |>.putN (pgTest 1) TEST.DUMP_HANDLE (2 ^ 29 + 5) |> Wit.inq 323 (2 ^ 29 + 5) 59 |>.putBuf (2 ^ 29 + 5) { inUse := true, owner := 17, units := 1, pkt := Wit.ipkt 0 0, written := true, queue := 324 }), 1, 0, by delta HostReady Ready; decide +kernel⟩,
    ⟨Wit.on (fun ch => ch), 1, 1, 3, 9, ((((Wit.on (fun ch => ch)).chan (1)).freeLane 1 3).getD 0), by decide +kernel, by decide +kernel, by decide +kernel, by decide +kernel, by decide +kernel, by decide +kernel, by decide +kernel, by decide +kernel, Wit.someGet (by decide +kernel)⟩,
    ⟨Wit.on (fun ch => ch |>.putN (pgBrdg 0) BRDG.SAUCER 0xF |>.putN (pgBrdg 1) BRDG.SAUCER 0xF), 1, 0, by delta Ready; decide +kernel⟩⟩

theorem witness_TestsInEveryState :
    (∃ (s : State) (c : Fin 4) (die : Fin 2), HostReady s c ∧ ((s.chan c).enabled (pgTest die.val)) = false) ∧
    (∃ (s : State) (c : Fin 4) (die : Fin 2), HostReady s c ∧ ((s.chan c).enabled (pgTest die.val)) = true ∧ targetOk die.val ((s.chan c).getF (pgTest die.val) TEST.SEL_KIND) ((s.chan c).getF (pgTest die.val) TEST.SEL_INDEX) = true ∧ (((s.chan c).test ((s.chan c).selKey die.val)).st = 1 ∨ ((s.chan c).test ((s.chan c).selKey die.val)).st = 2)) ∧
    (∃ (s : State) (c : Fin 4) (die : Fin 2), HostReady s c ∧ ((s.chan c).enabled (pgTest die.val)) = true ∧ targetOk die.val ((s.chan c).getF (pgTest die.val) TEST.SEL_KIND) ((s.chan c).getF (pgTest die.val) TEST.SEL_INDEX) = true ∧ ((s.chan c).test ((s.chan c).selKey die.val)).st ≠ 1 ∧ ((s.chan c).test ((s.chan c).selKey die.val)).st ≠ 2 ∧ (s.chan c).patternOk ((s.chan c).getF (pgTest die.val) TEST.SEL_KIND) ((s.chan c).getF (pgTest die.val) TEST.SEL_INDEX) (fld ((s.chan c).test ((s.chan c).selKey die.val)).cfg 19 16) = false) ∧
    (∃ (s : State) (c : Fin 4) (die : Fin 2) (code : _), HostReady s c ∧ ((s.chan c).enabled (pgTest die.val)) = true ∧ targetOk die.val ((s.chan c).getF (pgTest die.val) TEST.SEL_KIND) ((s.chan c).getF (pgTest die.val) TEST.SEL_INDEX) = true ∧ ((s.chan c).test ((s.chan c).selKey die.val)).st ≠ 1 ∧ ((s.chan c).test ((s.chan c).selKey die.val)).st ≠ 2 ∧ (s.chan c).patternOk ((s.chan c).getF (pgTest die.val) TEST.SEL_KIND) ((s.chan c).getF (pgTest die.val) TEST.SEL_INDEX) (fld ((s.chan c).test ((s.chan c).selKey die.val)).cfg 19 16) = true ∧ (s.chan c).testUse die.val ((s.chan c).getF (pgTest die.val) TEST.SEL_KIND) ((s.chan c).getF (pgTest die.val) TEST.SEL_INDEX) = some code ∧ bit ((s.chan c).test ((s.chan c).selKey die.val)).cfg 31 = true) ∧
    (∃ (s : State) (c : Fin 4) (die : Fin 2) (code : _), HostReady s c ∧ ((s.chan c).enabled (pgTest die.val)) = true ∧ targetOk die.val ((s.chan c).getF (pgTest die.val) TEST.SEL_KIND) ((s.chan c).getF (pgTest die.val) TEST.SEL_INDEX) = true ∧ ((s.chan c).test ((s.chan c).selKey die.val)).st ≠ 1 ∧ ((s.chan c).test ((s.chan c).selKey die.val)).st ≠ 2 ∧ (s.chan c).patternOk ((s.chan c).getF (pgTest die.val) TEST.SEL_KIND) ((s.chan c).getF (pgTest die.val) TEST.SEL_INDEX) (fld ((s.chan c).test ((s.chan c).selKey die.val)).cfg 19 16) = true ∧ (s.chan c).testUse die.val ((s.chan c).getF (pgTest die.val) TEST.SEL_KIND) ((s.chan c).getF (pgTest die.val) TEST.SEL_INDEX) = some code ∧ bit ((s.chan c).test ((s.chan c).selKey die.val)).cfg 31 = false) ∧
    (∃ (s : State) (c : Fin 4) (die : Fin 2), HostReady s c ∧ ((s.chan c).enabled (pgTest die.val)) = true ∧ targetOk die.val ((s.chan c).getF (pgTest die.val) TEST.SEL_KIND) ((s.chan c).getF (pgTest die.val) TEST.SEL_INDEX) = true ∧ ((s.chan c).test ((s.chan c).selKey die.val)).st ≠ 1 ∧ ((s.chan c).test ((s.chan c).selKey die.val)).st ≠ 2 ∧ (s.chan c).patternOk ((s.chan c).getF (pgTest die.val) TEST.SEL_KIND) ((s.chan c).getF (pgTest die.val) TEST.SEL_INDEX) (fld ((s.chan c).test ((s.chan c).selKey die.val)).cfg 19 16) = true ∧ (s.chan c).testUse die.val ((s.chan c).getF (pgTest die.val) TEST.SEL_KIND) ((s.chan c).getF (pgTest die.val) TEST.SEL_INDEX) = none ∧ ((s.chan c).getF (pgTest die.val) TEST.SEL_KIND) = 3 ∧ (s.chan c).clientOk ((s.chan c).getF (pgTest die.val) TEST.SEL_INDEX) = false) ∧
    (∃ (s : State) (c : Fin 4) (die : Fin 2), HostReady s c ∧ ((s.chan c).test ((s.chan c).selKey die.val)).st ≠ 2) ∧
    (∃ (s : State) (c : Fin 4) (die : Fin 2), HostReady s c ∧ (((s.chan c).test ((s.chan c).selKey die.val)).st ≠ 2 ∨ ((s.chan c).test ((s.chan c).selKey die.val)).lock = false ∨ bit ((s.chan c).test ((s.chan c).selKey die.val)).cfg 28 = false)) ∧
    (∃ (s : State) (c : Fin 4) (die : Fin 2) (v : Word), HostReady s c ∧ fld v 31 28 ≤ 4 ∧ (((s.chan c).test (testKey die.val (fld v 31 28) (fld v 15 0))).st ≠ 2 ∨ ((s.chan c).test (testKey die.val (fld v 31 28) (fld v 15 0))).lock = false)) ∧
    (∃ (s : State) (c : Fin 4) (die : Fin 2) (kd : _) (i : _), Ready s c ∧ (((s.chan c).enabled (pgTest die.val)) = false ∨ targetOk die.val kd i = false ∨ ((s.chan c).test (testKey die.val kd i)).st ≠ 1 ∨ ((s.chan c).testUse die.val kd i).isSome = true)) ∧
    (∃ (s : State) (c : Fin 4) (die : Fin 2) (kd : _) (i : _), Ready s c ∧ ((s.chan c).enabled (pgTest die.val)) = true ∧ targetOk die.val kd i = true ∧ ((s.chan c).test (testKey die.val kd i)).st = 1 ∧ (s.chan c).testUse die.val kd i = none ∧ kd = 3 ∧ (s.chan c).clientOk i = true) ∧
    (∃ (s : State) (c : Fin 4) (die : Fin 2) (kd : _) (i : _), Ready s c ∧ ((s.chan c).enabled (pgTest die.val)) = true ∧ targetOk die.val kd i = true ∧ ((s.chan c).test (testKey die.val kd i)).st = 1 ∧ (s.chan c).testUse die.val kd i = none ∧ kd = 3 ∧ (s.chan c).clientOk i = false) ∧
    (∃ (s : State) (c : Fin 4) (die : Fin 2) (kd : _) (i : _), Ready s c ∧ (targetOk die.val kd i = false ∨ ((s.chan c).test (testKey die.val kd i)).st ≠ 2 ∨ fld ((s.chan c).test (testKey die.val kd i)).cfg 15 0 = 0 ∨ kd = 4)) ∧
    (∃ (s : State) (c : Fin 4) (die : Fin 2) (kd : _) (i : _), Ready s c ∧ (((s.chan c).test (testKey die.val kd i)).st ≠ 2 ∨ bit ((s.chan c).test (testKey die.val kd i)).cfg 27 = false ∨ kd = 4 ∨ (kd < 2 ∧ fld ((s.chan c).test (testKey die.val kd i)).cfg 30 29 = 2))) ∧
    (∃ (s : State) (c : Fin 4) (die : Fin 2) (kd : _) (i : _), Ready s c ∧ ((s.chan c).test (testKey die.val kd i)).st = 2 ∧ bit ((s.chan c).test (testKey die.val kd i)).cfg 27 = true ∧ 2 ≤ kd ∧ kd ≠ 4) ∧
    (∃ (s : State) (c : Fin 4) (die : Fin 2) (kd : _) (i : _), Ready s c ∧ (((s.chan c).test (testKey die.val kd i)).st ≠ 2 ∨ ((s.chan c).test (testKey die.val kd i)).lock = false)) ∧
    (∃ (s : State) (c : Fin 4) (bank : _), Ready s c ∧ (68 ≤ bank ∨ (s.chan c).bankTested bank = false)) :=
  ⟨
    ⟨Wit.on (fun ch => ch |>.putB (pgTest 0) CTRL_ENABLE false |>.putF (pgTest 0) TEST.SEL_KIND 2 |>.putF (pgTest 0) TEST.SEL_INDEX 135), 1, 0, by delta HostReady Ready; decide +kernel⟩,
    ⟨Wit.on (fun ch => ch |> Wit.tst (testKey 0 2 70) { st := 1, bits := 5, err := 3 } |>.putF (pgTest 0) TEST.SEL_KIND 2 |>.putF (pgTest 0) TEST.SEL_INDEX 70), 1, 0, by delta HostReady Ready; decide +kernel⟩,
    ⟨Wit.on (fun ch => ch |> Wit.tst (testKey 0 2 70) { st := 3 * 0, bits := 5, cfg := 0x60000 } |>.putF (pgTest 0) TEST.SEL_KIND 2 |>.putF (pgTest 0) TEST.SEL_INDEX 70), 1, 0, by delta HostReady Ready; decide +kernel⟩,
    ⟨Wit.on (fun ch => ch |> Wit.port 7 |> Wit.tst (testKey 0 0 7) { st := 0, bits := 5, cfg := 0x80000000 } |>.putF (pgTest 0) TEST.SEL_KIND 0 |>.putF (pgTest 0) TEST.SEL_INDEX 7), 1, 0, 1, by delta HostReady Ready; decide +kernel⟩,
    ⟨Wit.on (fun ch => ch |> Wit.port 7 |> Wit.tst (testKey 0 0 7) { st := 0, bits := 5, cfg := 0x80000000 } |>.putF (pgTest 0) TEST.SEL_KIND 0 |>.putF (pgTest 0) TEST.SEL_INDEX 7 |> Wit.tst (testKey 0 0 7) { st := 3, bits := 5, cfg := 0 }), 1, 0, 1, by delta HostReady Ready; decide +kernel⟩,
    ⟨Wit.on (fun ch => ch |> Wit.tst (testKey 0 3 7) { st := 3, bits := 5, cfg := 0x40000 } |>.putF (pgTest 0) TEST.SEL_KIND 3 |>.putF (pgTest 0) TEST.SEL_INDEX 7), 1, 0, by delta HostReady Ready; decide +kernel⟩,
    ⟨Wit.on (fun ch => ch |> Wit.tst (testKey 0 2 70) { st := 0 * 3, lock := true, cfg := 0x10000000, bits := 5, err := 3 } |>.putF (pgTest 0) TEST.SEL_KIND 2 |>.putF (pgTest 0) TEST.SEL_INDEX 70), 1, 0, by delta HostReady Ready; decide +kernel⟩,
    ⟨Wit.on (fun ch => ch |> Wit.tst (testKey 0 2 70) { st := 0 * 3, lock := true, cfg := 0x10000000, bits := 5, err := 3 } |>.putF (pgTest 0) TEST.SEL_KIND 2 |>.putF (pgTest 0) TEST.SEL_INDEX 70), 1, 0, by delta HostReady Ready; decide +kernel⟩,
    ⟨Wit.on (fun ch => ch |> Wit.tst (testKey 0 2 70) { st := 2, lock := false, bits := 5, err := 3 }), 1, 0, (BitVec.ofNat 32 (2 * 2 ^ 28 + 70)), by delta HostReady Ready; decide +kernel⟩,
    ⟨Wit.on (fun ch => ch |> Wit.tst (testKey 0 2 135) { st := 3 * 0, bits := 5 }), 1, 0, 2, (135), by delta Ready; decide +kernel⟩,
    ⟨(Wit.on (fun ch => ((((((Wit.flex 3 ch).putB (pgTest 0) CTRL_ENABLE true).putF pgFlex (FLEX.CLIENT_CFG_GROUP 5) 2).putF pgFlex (FLEX.CLIENT_CFG_CLIENT_ID 5) 4).putF pgFlex (FLEX.TXCAL_EVEN (4 * 320)) 4).putF pgFlex (FLEX.TXCAL_EVEN (5 * 320)) 4).putTest (testKey 0 3 5) { st := 1, bits := 5 })), 1, 0, 3, 5, by delta Ready; decide +kernel⟩,
    ⟨Wit.on (fun ch => ch |> Wit.tst (testKey 0 3 5) { st := 1, bits := 5 }), 1, 0, 3, 5, by delta Ready; decide +kernel⟩,
    ⟨Wit.on (fun ch => ch |> Wit.tst (testKey 0 2 70) { st := 2, cfg := 0x08000000 + 0 * BitVec.ofNat 32 0, bits := 5, err := 3 }), 1, 0, 2, 70, by delta Ready; decide +kernel⟩,
    ⟨Wit.on (fun ch => ch |> Wit.tst (testKey 0 0 5) { st := 2, cfg := 0x48000007 } |> Wit.tst (testKey 0 2 70) { st := 2, cfg := 0x00000007 }), 1, 0, (2), (70), by delta Ready; decide +kernel⟩,
    ⟨Wit.on (fun ch => ch |> Wit.tst (testKey 0 2 70) { st := 2, cfg := 0x48000007, bits := 5 }), 1, 0, 2, 70, by delta Ready; decide +kernel⟩,
    ⟨Wit.on (fun ch => ch |> Wit.tst (testKey 0 2 70) { st := 2, cfg := 0x08000007, lock := false, bits := 5, err := 3 }), 1, 0, 2, 70, by delta Ready; decide +kernel⟩,
    ⟨Wit.on (fun ch => ch), 1, (4), by delta Ready; decide +kernel⟩⟩

theorem witness_BistDumpAndDieLinksInEveryState :
    (∃ (s : State) (c : Fin 4) (die : Fin 2), (s.hasChan c = false ∨ s.chState c ≠ 2 ∨ nbit (s.chan c).bistDone die.val = true)) ∧
    (∃ (s : State) (c : Fin 4) (die : Fin 2) (b : BistIn), s.hasChan c = true ∧ s.chState c = 2 ∧ (s.chan c).outQ = [] ∧ nbit (s.chan c).bistDone die.val = false ∧ (s.chan c).bistDone < 4 ∧ b.other = false ∧ b.keeper = true) ∧
    (∃ (s : State) (c : Fin 4) (die : Fin 2) (b : BistIn), s.hasChan c = true ∧ s.chState c = 2 ∧ (s.chan c).outQ = [] ∧ nbit (s.chan c).bistDone die.val = false ∧ (s.chan c).bistDone < 4 ∧ b.other = true) ∧
    (∃ (s : State) (c : Fin 4) (off : _), HostReady s c ∧ off < 2 ^ 14 ∧ off % 64 = 0 ∧ (s.chan c).enabled (pgTest 1) = false) ∧
    (∃ (s : State) (c : Fin 4) (off : _), HostReady s c ∧ off < 2 ^ 14 ∧ off % 64 = 0 ∧ (s.chan c).enabled (pgTest 1) = true ∧ handleOk ((s.chan c).nat (pgTest 1) TEST.DUMP_HANDLE) = false) ∧
    (∃ (s : State) (c : Fin 4) (off : _), HostReady s c ∧ off < 2 ^ 14 ∧ off % 64 = 0 ∧ (s.chan c).enabled (pgTest 1) = true ∧ handleOk ((s.chan c).nat (pgTest 1) TEST.DUMP_HANDLE) = true ∧ ((s.chan c).buf ((s.chan c).nat (pgTest 1) TEST.DUMP_HANDLE)).inUse = true ∧ ((s.chan c).buf ((s.chan c).nat (pgTest 1) TEST.DUMP_HANDLE)).poison.any (fun x => decide (off ≤ x) && decide (x < off + 64)) = true) ∧
    (∃ (s : State) (c : Fin 4) (off : _), HostReady s c ∧ off < 2 ^ 14 ∧ off % 64 ≠ 0) ∧
    (∃ (s : State) (c : Fin 4) (m : _) (lane : _), (s.chPages c = false ∨ s.chState c = 6 ∨ 8 ≤ m ∨ 68 ≤ lane)) ∧
    (∃ (s : State) (c : Fin 4) (dir : Fin 2) (m : _) (lane : _), s.chPages c = true ∧ s.chState c ≠ 6 ∧ (s.chan c).outQ = [] ∧ m < 8 ∧ lane < 68 ∧ (((s.chan c).brDir dir.val m).bad.contains lane = true ∨ (s.chan c).modState m = 2)) ∧
    (∃ (s : State) (c : Fin 4) (dir : Fin 2) (m : _) (lane : _), s.chPages c = true ∧ s.chState c ≠ 6 ∧ (s.chan c).outQ = [] ∧ m < 8 ∧ lane < 68 ∧ 64 ≤ lane ∧ ((s.chan c).brDir dir.val m).bad.contains lane = false ∧ (s.chan c).modState m ≠ 2 ∧ ((s.chan c).brDir dir.val m).sub.any (fun e => e.1 == lane) = false) ∧
    (∃ (s : State) (c : Fin 4) (dir : Fin 2) (m : _) (lane : _), s.chPages c = true ∧ s.chState c ≠ 6 ∧ (s.chan c).outQ = [] ∧ m < 8 ∧ lane < 68 ∧ lane < 64 ∧ ((s.chan c).brDir dir.val m).bad.contains lane = false ∧ (s.chan c).modState m = 0 ∧ ((s.chan c).brDir dir.val m).free = [] ∧ ((s.chan c).brDir dir.val m).sub.any (fun e => e.2 == lane) = false ∧ (s.chan c).unrepaired m = []) ∧
    (∃ (s : State) (c : Fin 4) (lane : _), Ready s c ∧ (4 ≤ lane ∨ nbit ((s.chan c).nat (pgBrdg 0) BRDG.SAUCER) lane = false)) :=
  ⟨
    ⟨((Wit.on (fun ch => { ch with bistDone := 3 })).onIsl (fun i => i.putF hpPwr (PWRH.CH_STAT_STATE 1) 2)), 1, (Fin.ofNat 2 0), by decide +kernel⟩,
    ⟨((Wit.on (fun ch => { ch with bistDone := if 0 < 3 then 0 else 2 })).onIsl (fun i => i.putF hpPwr (PWRH.CH_STAT_STATE 1) 2)), 1, (Fin.ofNat 2 0), ⟨0, 0, 0, true, false, 5⟩, by decide +kernel⟩,
    ⟨((Wit.on (fun ch => { ch with bistDone := if 0 < 3 then 0 else 2 })).onIsl (fun i => i.putF hpPwr (PWRH.CH_STAT_STATE 1) 2)), 1, (Fin.ofNat 2 0), ⟨0, 0, 0, true, true, 5⟩, by decide +kernel⟩,
    ⟨Wit.on (fun ch => ch |>.putB (pgTest 1) CTRL_ENABLE false |>.putN (pgTest 1) TEST.DUMP_STAT 77), 1, 64, by delta HostReady Ready; decide +kernel⟩,
    ⟨Wit.on (fun ch => ch |>.putB (pgTest 1) CTRL_ENABLE true |>.putN (pgTest 1) TEST.DUMP_HANDLE 0xFFFFFFFF), 1, 64, by delta HostReady Ready; decide +kernel⟩,
    ⟨Wit.on (fun ch => ch |>.putB (pgTest 1) CTRL_ENABLE true |>.putN (pgTest 1) TEST.DUMP_HANDLE (2 ^ 29 + 5) |>.putBuf (2 ^ 29 + 5) { inUse := true, owner := 17, units := 1, pkt := Wit.ipkt 0 0, written := true, queue := 324, poison := [3, 100] }), 1, 64, by delta HostReady Ready; decide +kernel⟩,
    ⟨Wit.on (fun ch => ch |>.putB (pgTest 1) CTRL_ENABLE true), 1, 77, by delta HostReady Ready; decide +kernel⟩,
    ⟨((Wit.on (fun ch => ch)).onIsl (fun i => i.putF hpPwr (PWRH.CH_STAT_STATE 1) (5))), 1, 3, 9, by decide +kernel⟩,
    ⟨Wit.on (fun ch => ch |>.putBrDir 1 3 { bad := [4, 9] } |> fun ch => if true then ch else ch.putF (pgBrdg 0) (BRDG.MOD_STAT_STATE 3) 2), 1, 1, 3, 9, by decide +kernel⟩,
    ⟨Wit.on (fun ch => ch |>.putBrDir 1 3 { bad := [4], sub := [] }), 1, 1, 3, 64, by decide +kernel⟩,
    ⟨Wit.on (fun ch => ch |>.putBrDir 1 3 { bad := [64, 65, 66, 67] }), 1, 1, 3, 0, by decide +kernel⟩,
    ⟨Wit.on (fun ch => ch |>.putN (pgBrdg 0) BRDG.SAUCER 0xB |>.putN (pgBrdg 1) BRDG.SAUCER 0xB), 1, (2), by delta Ready; decide +kernel⟩⟩

theorem witness_ResetOfChannelZeroKeepsTheHostIsland :
    (∃ (d : Fin 4), d ≠ 0) ∧
    (∃ (s : State) (d : Fin 4) (p : Pg) (k : PageKind), d ≠ 0 ∧ p.kind = some k ∧ (s.chan 0).outQ = []) :=
  ⟨
    ⟨(Fin.ofNat 4 1), by decide +kernel⟩,
    ⟨(Wit.hp (fun i => i)), (Fin.ofNat 4 1), (pgSens 0), (((pgSens 0)).kind.getD .host), by decide +kernel⟩⟩

theorem witness_PagesOfAChannelInResetReadZero :
    (∃ (s : State) (c : Fin 4) (p : Pg) (k : PageKind) (off : Nat), IslReady s ∧ s.relayUp c = true ∧ s.hasChan c = true ∧ s.chState c = 5 ∧ p.kind = some k ∧ off < 65536 ∧ off % 4 = 0) :=
    ⟨(Wit.hp (fun i => i.putF hpPwr (PWRH.CH_STAT_STATE 1) 5)), 1, (pgSens 0), (((pgSens 0)).kind.getD .host), (4 * (0 % (16384))), by delta IslReady; decide +kernel⟩

theorem witness_ActionOpcodesAreReserved :
    (∃ (s : State) (c : Fin 4) (k : Fin 2) (tag : Nat) (op : Nat), SvcReady s c k tag ∧ 0x40 ≤ op ∧ op ≤ 0x4F) :=
    ⟨Wit.on (fun ch => ch |> Wit.svc [1, 2]), 1, 0, (5 % 256), 64, by delta SvcReady HostReady Ready; decide +kernel⟩

theorem witness_PartitionResume :
    (∃ (s : State) (c : Fin 4) (p : Nat), HostReady s c ∧ p < 32 ∧ (s.chan c).enabled pgPart = true ∧ ((s.chan c).part p).state = 3) :=
    ⟨Wit.on (fun ch => ch |>.putPart 3 { state := 3 } |>.putB pgPart CTRL_ENABLE true |>.putF pgPart (PART.PORT_OWN_PART 5) 3 |> fun ch => (ch.putPortF 5 LINE.PORT_CTRL_DISCARD 1).putAcct 17 { (ch.acct 17) with part := 3, st := 2 } |> fun ch => ch.putRing 3 8 { stopped := true, cfg := 0x86000000 }), 1, 3, by delta HostReady Ready; decide +kernel⟩

theorem witness_PartitionReset :
    (∃ (s : State) (c : Fin 4) (p : Nat), HostReady s c ∧ p < 32 ∧ (s.chan c).enabled pgPart = true ∧ ((s.chan c).part p).state = 3) :=
    ⟨Wit.on (fun ch => ch |>.putPart 3 { state := 3, punt := 7, inject := 9 } |>.putB pgPart CTRL_ENABLE true |>.putF pgPart (PART.PORT_OWN_PART 5) 3 |> fun ch => (ch.putPortF 5 LINE.PORT_CTRL_DISCARD 1).putAcct 17 { (ch.acct 17) with part := 3, st := 2 } |> fun ch => (ch.putRing 3 8 { stopped := true, cfg := 0x86000000 }).putRing 3 2 { cfg := 0x86000000, buf := some { addr := 4096, len := 4096, used := 64, records := 1 } }), 1, 3, by delta HostReady Ready; decide +kernel⟩

end Sys2Proof.Tests
end

section
/-! The host's path to another channel under an effect on channel 0: what a reset of channel 0, or a write to a register of its pages, leaves of
the PCIe link, the relay links and the states of channels 1 to 3 (R20). -/

namespace Sys2Proof.Machine

/-- The registers of the host island that decide whether the host reaches channel `d` and its pages: ENABLE of HOST and of RELAY (R59), the
state of the relay link (R23), and the state of the channel (R617). -/
def pathFields (d : Fin 4) : List (Nat × Fld) :=
  [(hpHost, CTRL_ENABLE), (hpRelay, CTRL_ENABLE), (hpRelay, RELAY.LINK_STAT_STATE d.val), (hpPwr, PWRH.CH_STAT_STATE d.val)]

/-- The PCIe link, the power of channel `d` and the registers of the path to it are in `j` as in `i`. -/
structure PathKept (d : Fin 4) (i j : Isl) : Prop where
  perst : j.perst = i.perst
  l0 : j.l0 = i.l0
  dead : j.dead = i.dead
  pwrgood : j.pwrgood = i.pwrgood
  forcedOff : nbit j.forcedOff d.val = nbit i.forcedOff d.val
  fields : ∀ e ∈ pathFields d, j.getF e.1 e.2 = i.getF e.1 e.2

/-- The register at an offset of a host island page is none of the path to channel `d`. -/
def OffPath (d : Fin 4) (p off : Nat) : Prop := ∀ e ∈ pathFields d, e.1 * 0x10000 + e.2.off ≠ p * 0x10000 + off

theorem offPath_iff (d : Fin 4) (p off : Nat) : OffPath d p off ↔
    0x0C ≠ p * 0x10000 + off ∧ 0x1000C ≠ p * 0x10000 + off ∧ 0x10104 + 16 * d.val ≠ p * 0x10000 + off ∧
      0x20120 + 4 * d.val ≠ p * 0x10000 + off := by
  simp only [OffPath, pathFields, hpHost, hpRelay, hpPwr, CTRL_ENABLE, RELAY.LINK_STAT_STATE, PWRH.CH_STAT_STATE, List.forall_mem_cons,
    List.not_mem_nil, false_implies, implies_true, and_true]
  omega

theorem offPath_cause (d : Fin 4) (p : Nat) : OffPath d p oCAUSE := (offPath_iff _ _ _).2 (by simp only [oCAUSE]; omega)

theorem offPath_first (d : Fin 4) (p : Nat) : OffPath d p oFIRST := (offPath_iff _ _ _).2 (by simp only [oFIRST]; omega)

/-- The tally unit and the rejection registers of the HOST page. -/
theorem offPath_host (d : Fin 4) {off : Nat} (h0 : 0x10 ≤ off) (h1 : off < 0x10000) : OffPath d hpHost off :=
  (offPath_iff _ _ _).2 (by simp only [hpHost]; omega)

/-- CH_STAT of another channel. -/
theorem offPath_chStat {c d : Fin 4} (h : d ≠ c) : OffPath d hpPwr (0x120 + 4 * c.val) :=
  (offPath_iff _ _ _).2 (by simp only [hpPwr]; omega)

theorem nbit_setNbit_ne (n : Nat) {i j : Nat} (b : Bool) (h : j ≠ i) : nbit (setNbit n i b) j = nbit n j := by
  have hb : b2n b = b2n b % 2 ^ (i + 1 - i) := by cases b <;> simp [b2n]
  have ht : ∀ m, nbit m j = m.testBit j := fun m => by
    simp [nbit, Nat.testBit_eq_decide_div_mod_eq, Nat.shiftRight_eq_div_pow, Bool.beq_eq_decide_eq]
  rw [ht, ht, setNbit, hb, testBit_setFldNat _ _ _ _ (Nat.le_refl i)]
  split
  · rfl
  · rw [if_neg (by omega)]

namespace PathKept

variable {d : Fin 4} {i j : Isl}

theorem refl (i : Isl) : PathKept d i i := ⟨rfl, rfl, rfl, rfl, rfl, fun _ _ => rfl⟩

theorem trans {k : Isl} (h : PathKept d i j) (g : PathKept d j k) : PathKept d i k where
  perst := g.perst.trans h.perst
  l0 := g.l0.trans h.l0
  dead := g.dead.trans h.dead
  pwrgood := g.pwrgood.trans h.pwrgood
  forcedOff := g.forcedOff.trans h.forcedOff
  fields e he := (g.fields e he).trans (h.fields e he)

/-- A field outside the path may change as it likes. -/
theorem of_eq (hp : j.perst = i.perst) (hl : j.l0 = i.l0) (hd : j.dead = i.dead) (hg : j.pwrgood = i.pwrgood)
    (ho : j.forcedOff = i.forcedOff) (hr : j.regs = i.regs) : PathKept d i j :=
  ⟨hp, hl, hd, hg, by rw [ho], fun e _ => by simp only [Isl.getF, Isl.get, hr]⟩

theorem put {p off : Nat} (v : Word) (h : OffPath d p off) (i : Isl) : PathKept d i (i.put p off v) :=
  ⟨rfl, rfl, rfl, rfl, rfl, fun e he => by simp only [Isl.getF, Isl.get_put_ne i v (h e he)]⟩

theorem putF {p : Nat} {f : Fld} (v : Nat) (h : OffPath d p f.off) (i : Isl) : PathKept d i (i.putF p f v) := put _ h i

theorem put64 {p off : Nat} (v : Nat) (h0 : OffPath d p off) (h4 : OffPath d p (off + 4)) (i : Isl) : PathKept d i (i.put64 p off v) :=
  (put _ h0 i).trans (put _ h4 _)

/-- The power of another channel. -/
theorem setForcedOff {c : Fin 4} (b : Bool) (h : d ≠ c) (i : Isl) :
    PathKept d i { i with forcedOff := setNbit i.forcedOff c.val b } :=
  ⟨rfl, rfl, rfl, rfl, nbit_setNbit_ne _ b (fun e => h (Fin.ext e)), fun _ _ => rfl⟩

end PathKept

/-! Interrupts and tallies of the host island. -/

theorem islBump_pathKept (d : Fin 4) (n : Nat) (r : Isl × Bool) {k : Nat} (hk : k < 8) : PathKept d r.1 (islBump hpHost n r k).1 := by
  have h64 : ∀ v, PathKept d r.1 (r.1.put64 hpHost (oCNT k) v) := fun v =>
    PathKept.put64 v (offPath_host d (by simp only [oCNT]; omega) (by simp only [oCNT]; omega))
      (offPath_host d (by simp only [oCNT]; omega) (by simp only [oCNT]; omega)) _
  have hov : OffPath d hpHost oOVF := offPath_host d (by decide) (by decide)
  simp only [islBump]
  split
  · exact h64 _
  · exact (h64 _).trans (PathKept.putF (f := ⟨oOVF, k, k⟩) 1 hov _)

theorem Isl.tallyAdd_pathKept (d : Fin 4) (i : Isl) (p code : Nat) (a : Attr) (n : Nat) : PathKept d i (i.tallyAdd p code a n).1 := by
  unfold Isl.tallyAdd
  split
  · next hp =>
    subst hp
    have h8 : ∀ k ∈ allBelow 8 (fun k => i.tallyOn hpHost code a k), k < 8 := fun _ h => mem_allBelow_lt h
    generalize allBelow 8 _ = l at h8
    suffices h : ∀ r : Isl × Bool, PathKept d r.1 (l.foldl (islBump hpHost n) r).1 from h (i, false)
    induction l with
    | nil => exact fun r => PathKept.refl r.1
    | cons k l ih =>
      exact fun r => (islBump_pathKept d n r (h8 k (by simp))).trans (ih (fun j hj => h8 j (by simp [hj])) _)
  · exact PathKept.refl i

theorem Isl.orCause_pathKept (d : Fin 4) (i : Isl) (p m : Nat) : PathKept d i (i.orCause p m) := by
  have h : PathKept d i (i.putN p oCAUSE (Nat.lor (i.nat p oCAUSE) m)) := PathKept.put _ (offPath_cause d p) i
  unfold Isl.orCause
  dsimp only
  split
  · exact h.trans (PathKept.put _ (offPath_first d p) _)
  · exact h

theorem State.sendVec_pathKept (d : Fin 4) (s : State) (m : MsiSrc) (v : Nat) : PathKept d s.isl (s.sendVec m v).isl := by
  unfold State.sendVec Isl.hold
  dsimp only
  split
  · exact PathKept.refl _
  · split <;> exact PathKept.of_eq rfl rfl rfl rfl rfl rfl

theorem State.pageIrq_pathKept (d : Fin 4) (s : State) (m : MsiSrc) : PathKept d s.isl (s.pageIrq m).isl := by
  unfold State.pageIrq
  dsimp only
  split
  · exact s.sendVec_pathKept d _ _
  · exact PathKept.refl _

theorem State.islRaise_pathKept (d : Fin 4) (s : State) (p b : Nat) : PathKept d s.isl (s.islRaise p b).isl := by
  have hi : ∀ (i : Isl) (b : Bool), PathKept d i (if b then i.orCause p 0x10 else i) := fun i b => by
    split
    · exact i.orCause_pathKept d _ _
    · exact PathKept.refl i
  have hq : ∀ (t : State) (b : Bool), PathKept d t.isl (if b then t.pageIrq (.isl p) else t).isl := fun t b => by
    split
    · exact t.pageIrq_pathKept d _
    · exact PathKept.refl _
  unfold State.islRaise State.islRaiseMask
  dsimp only
  exact (((Isl.orCause_pathKept d s.isl p _).trans (Isl.tallyAdd_pathKept d _ p 8 {} _)).trans (hi _ _)).trans (hq { s with isl := _ } _)

theorem State.reject_pathKept (d : Fin 4) (s : State) {kind : Nat} (hk : kind < 3) (rd : Bool) (f addr : Nat) :
    PathKept d s.isl (s.reject kind rd f addr).isl := by
  unfold State.reject
  dsimp only
  refine PathKept.trans ?_ (State.islRaise_pathKept d _ _ _)
  have hc : PathKept d s.isl (s.onIsl (fun i => i.inc hpHost (HOST.REJ_KW_CNT + 4 * kind))).isl :=
    PathKept.put _ (offPath_host d (by simp only [HOST.REJ_KW_CNT]; omega) (by simp only [HOST.REJ_KW_CNT]; omega)) _
  split
  · exact hc
  · exact (hc.trans (PathKept.put _ (offPath_host d (by decide) (by decide)) _)).trans
      (PathKept.put _ (offPath_host d (by decide) (by decide)) _)

theorem State.unimpl_pathKept (d : Fin 4) (s : State) : PathKept d s.isl s.unimpl.isl :=
  PathKept.put _ (offPath_host d (by decide) (by decide)) _

theorem State.setLatch_pathKept (d : Fin 4) (s : State) (r : Req) (c : Fin 4) (l : Latch) : PathKept d s.isl (s.setLatch r c l).isl := by
  cases r <;> exact PathKept.of_eq rfl rfl rfl rfl rfl rfl

/-! The delivery of a channel's outputs, and its state. -/

theorem State.deliverOne_pathKept (d : Fin 4) (s : State) (c : Nat) (v : Nat → Nat → Nat) (o : Out) :
    PathKept d s.isl (State.deliverOne c v s o).isl := by
  unfold State.deliverOne
  split
  · exact s.pageIrq_pathKept d _
  · exact s.sendVec_pathKept d _ _
  · exact PathKept.refl _
  · exact PathKept.refl _

theorem State.flush_pathKept (d : Fin 4) (s : State) (c : Fin 4) : PathKept d s.isl (s.flush c).isl :=
  foldl_keeps (fun t : State => PathKept d s.isl t.isl) _ (fun t o h => h.trans (t.deliverOne_pathKept d _ _ o)) _ _ (PathKept.refl _)

theorem State.islJournal_pathKept (d : Fin 4) (s : State) (page cls ev detail : Nat) :
    PathKept d s.isl (s.islJournal page cls ev detail).isl := by
  unfold State.islJournal
  split
  · exact State.flush_pathKept d (s.setChan 0 _) 0
  · exact PathKept.refl _

theorem State.endTests_pathKept (d : Fin 4) (s : State) (c : Fin 4) : PathKept d s.isl (s.endTests c).isl := by
  unfold State.endTests
  split
  · exact State.flush_pathKept d (s.setChan c _) c
  · exact PathKept.refl _

section
variable {c d : Fin 4} (hd : d ≠ c)
include hd

theorem State.setChState_pathKept (s : State) (st : Nat) : PathKept d s.isl (s.setChState c.val st).isl := by
  unfold State.setChState
  split
  · exact PathKept.refl _
  · refine PathKept.trans ?_ (State.islRaise_pathKept d _ _ _)
    exact (PathKept.putF (f := PWRH.CH_STAT_STATE c.val) st (offPath_chStat hd) s.isl).trans (PathKept.of_eq rfl rfl rfl rfl rfl rfl)

theorem State.fatalOff_pathKept (s : State) (cause : Nat) : PathKept d s.isl (s.fatalOff c cause).isl :=
  (PathKept.putF (f := PWRH.CH_STAT_CAUSE c.val) cause (offPath_chStat hd) s.isl).trans (PathKept.setForcedOff true hd _)

/-- A fatal cause of a channel leaves the host's path to another one. -/
theorem State.fatalChan_pathKept (s : State) (cause : Nat) (off : Bool) : PathKept d s.isl (s.fatalChan c cause off).isl := by
  unfold State.fatalChan
  split
  · exact s.fatalOff_pathKept hd cause
  split
  · have h2 := ((s.endTests_pathKept d c).trans (State.setChState_pathKept hd _ 6)).trans
      (PathKept.putF (f := PWRH.CH_STAT_CAUSE c.val) cause (offPath_chStat hd) _)
    dsimp only
    refine PathKept.trans ?_ (State.islJournal_pathKept d _ _ _ _ _)
    rw [State.emit_isl]
    split
    · exact h2.trans (PathKept.setForcedOff true hd _)
    · exact h2
  · exact PathKept.refl _

theorem State.deliver_pathKept (s : State) : PathKept d s.isl (s.deliver c).isl := by
  unfold State.deliver
  dsimp only
  refine foldl_keeps (fun t : State => PathKept d s.isl t.isl) _ (fun t o h => h.trans ?_) _ _ (PathKept.refl _)
  split
  · exact t.fatalChan_pathKept hd _ _
  · exact t.deliverOne_pathKept d _ _ _

/-- Whatever an effect on a channel is, its outputs leave the host's path to another channel. -/
theorem State.runChan_pathKept (s : State) (f : Chan → Chan) : PathKept d s.isl (s.runChan c f).isl :=
  State.deliver_pathKept hd (s.setChan c _)

theorem State.onPages_pathKept (s : State) (f : Chan → Chan) : PathKept d s.isl (s.onPages c f).isl := s.runChan_pathKept hd _

theorem State.hookRun_pathKept (s : State) (off : Nat) (f : Chan → Chan) : PathKept d s.isl (s.hookRun c off f).isl := by
  unfold State.hookRun
  split
  · exact s.runChan_pathKept hd f
  · exact s.onPages_pathKept hd f

/-! A register write to a page of a channel. -/

theorem State.applyWrite_pathKept (s : State) (hook : Hook) (judge : Bool) (r : Req) (p : Pg) (off : Nat) (k : PageKind) (h : RegHit)
    (v : Word) : PathKept d s.isl (s.applyWrite hook judge r c p off k h v).isl := by
  unfold State.applyWrite
  dsimp only
  split
  · split
    · exact s.setLatch_pathKept d r c _
    · exact PathKept.refl _
  split
  · split
    · have hl := s.setLatch_pathKept d r c {}
      split
      · exact hl.trans (State.runChan_pathKept hd _ _)
      · exact hl.trans (State.hookRun_pathKept hd _ _ _)
    · split
      · exact s.runChan_pathKept hd _
      · exact s.hookRun_pathKept hd _ _
  · split
    · exact s.runChan_pathKept hd _
    · exact s.hookRun_pathKept hd _ _

theorem State.keeperWrite_pathKept (s : State) (hook : Hook) (judge : Bool) (kp : Nat) (p : Pg) (off : Nat) (v : Word) :
    PathKept d s.isl (s.keeperWrite hook judge kp c p off v).isl := by
  unfold State.keeperWrite
  split
  · split
    · exact PathKept.refl _
    split
    · exact PathKept.refl _
    dsimp only
    split
    · split
      · have ht := s.onPages_pathKept hd (fun ch => ch.tally p 4 (Req.attr (if kp = 0 then .keeperA else .keeperB) none))
        split
        · exact ht
        · exact ht.trans (State.applyWrite_pathKept hd _ _ _ _ _ _ _ _ _)
      · exact s.onPages_pathKept hd _
    · split
      · exact PathKept.refl _
      · exact s.applyWrite_pathKept hd _ _ _ _ _ _ _ _
  · exact PathKept.refl _

theorem State.hostWrite_pathKept (s : State) (hook : Hook) (judge : Bool) (r : Req) (p : Pg) (off : Nat) (v : Word) :
    PathKept d s.isl (s.hostWrite hook judge r c p off v).isl := by
  unfold State.hostWrite
  split
  · exact s.unimpl_pathKept d
  split
  · exact PathKept.refl _
  split
  · exact s.unimpl_pathKept d
  split
  · exact s.unimpl_pathKept d
  dsimp only
  have ht := s.onPages_pathKept hd (fun ch => ch.tally p 3 (r.attr ((s.chan c).partOf (r.func?.getD 0))))
  have hr : ∀ (t : State) {kind : Nat}, kind < 3 → ∀ (f addr : Nat) (g : Chan → Chan), PathKept d s.isl t.isl →
      PathKept d s.isl ((t.reject kind false f addr).onPages c g).isl :=
    fun t _ hk f addr g h => (h.trans (t.reject_pathKept d hk _ _ _)).trans (State.onPages_pathKept hd _ _)
  split
  · exact hr _ (by decide) _ _ _ ht
  split
  · exact hr _ (by decide) _ _ _ ht
  split
  · exact hr _ (by decide) _ _ _ ht
  · exact ht.trans (State.applyWrite_pathKept hd _ _ _ _ _ _ _ _ _)

/-- A register write to a page of a channel, by any requester and with any hook, leaves the host's path to another channel. -/
theorem State.chanWrite_pathKept (s : State) (hook : Hook) (judge : Bool) (r : Req) (p : Pg) (off : Nat) (v : Word) :
    PathKept d s.isl (s.chanWrite hook judge r c p off v).isl := by
  unfold State.chanWrite
  split
  · exact s.keeperWrite_pathKept hd hook judge _ p off v
  split
  · exact PathKept.refl _
  · exact s.hostWrite_pathKept hd hook judge r p off v

/-! CH_RST_N of a channel. -/

theorem State.settle_pathKept (s : State) : PathKept d s.isl (s.settle c).isl := by
  unfold State.settle
  split
  · exact PathKept.refl _
  dsimp only
  split
  · split
    · exact s.setChState_pathKept hd 1
    · exact PathKept.refl _
  · refine PathKept.trans ?_ (State.setChState_pathKept hd _ _)
    exact PathKept.setForcedOff false hd s.isl

end

/-- Bringing a channel to the state it is asked for stays in that channel. -/
theorem State.settle_confined (s : State) (c : Fin 4) : Confined s (s.settle c) c := by
  unfold State.settle
  split
  · exact Confined.refl s c
  dsimp only
  split
  · split
    · exact s.setChState_confined c _ _
    · exact Confined.refl s c
  · exact ((Confined.setChan s c _).trans (Confined.onIsl _ c _ rfl)).trans (State.setChState_confined _ c _ _)

/-! The whole of what the host reaches of another channel. -/

/-- Channel `d`, and the host's path to it, are in `t` as in `s`. -/
structure HostPathKept (d : Fin 4) (s t : State) : Prop where
  isl : PathKept d s.isl t.isl
  variant : t.variant = s.variant
  chan : t.chan d = s.chan d

namespace HostPathKept

variable {d : Fin 4} {s t : State}

theorem refl (s : State) : HostPathKept d s s := ⟨PathKept.refl _, rfl, rfl⟩

theorem trans {u : State} (h : HostPathKept d s t) (g : HostPathKept d t u) : HostPathKept d s u :=
  ⟨h.isl.trans g.isl, g.variant.trans h.variant, g.chan.trans h.chan⟩

/-- What is confined to channel 0 leaves every other channel; its path is what is left to show. -/
theorem of_confined (hd : d ≠ 0) (h : Confined s t 0) (hi : PathKept d s.isl t.isl) : HostPathKept d s t :=
  ⟨hi, h.variant, h.others d hd hd⟩

theorem relayUp (h : HostPathKept d s t) : t.relayUp d = s.relayUp d := by
  have hl := h.isl.fields (hpRelay, RELAY.LINK_STAT_STATE d.val) (by simp [pathFields])
  have he := h.isl.fields (hpRelay, CTRL_ENABLE) (by simp [pathFields])
  simp only [State.relayUp, Isl.getB, hl, he]

theorem hostReach (h : HostPathKept d s t) : t.hostReach d = s.hostReach d := by
  have he := h.isl.fields (hpHost, CTRL_ENABLE) (by simp [pathFields])
  simp only [State.hostReach, Isl.getB, h.isl.dead, h.isl.perst, h.isl.l0, h.relayUp, he]

theorem chPages (h : HostPathKept d s t) : t.chPages d = s.chPages d := by
  have hs : t.chState d = s.chState d := h.isl.fields (hpPwr, PWRH.CH_STAT_STATE d.val) (by simp [pathFields])
  simp only [State.chPages, State.hasChan, h.variant, h.isl.dead, hs, h.isl.forcedOff]

end HostPathKept

/-- The pin of a channel is no part of the path. -/
theorem State.assertPin_hostPathKept (s : State) (d : Fin 4) :
    HostPathKept d s (s.onIsl (fun i => { i with chPin := setNbit i.chPin (0 : Fin 4).val true })) :=
  ⟨.of_eq rfl rfl rfl rfl rfl rfl, rfl, rfl⟩

theorem State.settle_hostPathKept {d : Fin 4} (hd : d ≠ 0) (s : State) : HostPathKept d s (s.settle 0) :=
  .of_confined hd (s.settle_confined 0) (s.settle_pathKept hd)

theorem State.islJournal_hostPathKept {d : Fin 4} (hd : d ≠ 0) (s : State) (page cls ev detail : Nat) :
    HostPathKept d s (s.islJournal page cls ev detail) :=
  .of_confined hd (s.islJournal_confined 0 _ _ _ _) (s.islJournal_pathKept d _ _ _ _)

theorem State.pageWrite_hostPathKept {d : Fin 4} (hd : d ≠ 0) (s : State) (r : Req) (p : Pg) (off : Nat) (v : Word) :
    HostPathKept d s (s.pageWrite r 0 p off v) :=
  .of_confined hd (s.chanWrite_confined _ _ r 0 p off v) (s.chanWrite_pathKept hd _ _ r p off v)

end Sys2Proof.Machine
end

section
/-! The statements about the package and its channels: reset of channel 0 (R20), pages of a channel in reset (R21), and failure of channel 0's FE
die (R24). -/

namespace Sys2Proof.Machine

/-! The addresses of a channel's registers (R41). -/

/-- The page numbers of the catalogue lie in the two dies' windows (R78). -/
theorem Pg.lt_of_kind {p : Pg} {k : PageKind} (h : p.kind = some k) : p.die < 2 ∧ p.num < 0x200 := by
  by_contra hn
  rw [not_and_or, Nat.not_lt, Nat.not_lt] at hn
  have hnone : p.kind = none := by
    rcases hn with hdie | hnum
    · simp (disch := omega) only [Pg.kind, if_neg]
    · simp (disch := omega) only [Pg.kind, if_neg, ite_self]
  rw [hnone] at h
  cases h

theorem locate_addrOf (c : Fin 4) {p : Pg} {k : PageKind} {off : Nat} (hk : p.kind = some k) (ho : off < 0x10000) :
    locate (addrOf c.val p off) = .chan c p off := by
  obtain ⟨hd, hn⟩ := Pg.lt_of_kind hk
  obtain ⟨c, hc⟩ := c
  obtain ⟨die, num⟩ := p
  dsimp only at hd hn
  unfold locate addrOf
  dsimp only
  rw [if_neg (by omega), dif_pos (by omega)]
  simp only [Loc.chan.injEq, Fin.mk.injEq, Pg.mk.injEq]
  omega

/-- The doorbell space lies above the channels' windows (R540). -/
theorem doorbellLoc_addrOf (c : Fin 4) {p : Pg} {k : PageKind} {off : Nat} (hk : p.kind = some k) (ho : off < 0x10000) :
    doorbellLoc (addrOf c.val p off) = none := by
  obtain ⟨hd, hn⟩ := Pg.lt_of_kind hk
  unfold doorbellLoc addrOf
  exact dif_neg (by omega)

theorem State.busRead_addrOf (s : State) (r : Req) (c : Fin 4) {p : Pg} {k : PageKind} {off : Nat} (hk : p.kind = some k)
    (ho : off < 0x10000) : s.busRead r (addrOf c.val p off) = s.readAt chanView r (addrOf c.val p off) := by
  unfold State.busRead
  rw [doorbellLoc_addrOf c hk ho]
  cases r <;> rfl

theorem State.busWrite_addrOf (s : State) (r : Req) (c : Fin 4) {p : Pg} {k : PageKind} {off : Nat} (v : Word) (hk : p.kind = some k)
    (ho : off < 0x10000) : s.busWrite r (addrOf c.val p off) v = s.pageWrite r c p off v := by
  unfold State.busWrite
  rw [doorbellLoc_addrOf c hk ho, locate_addrOf c hk ho]
  cases r <;> rfl

theorem pageReg_addrOf (c : Nat) (p : Pg) {off : Nat} (o : Nat) (ho : off < 0x10000) : pageReg (addrOf c p off) o = addrOf c p o := by
  unfold pageReg addrOf
  omega

/-! Accesses to the pages of a channel whose pages do not answer (R21). -/

section
variable {s : State} {c : Fin 4} (hc : s.hasChan c = true) (hp : s.chPages c = false)
include hc hp

theorem State.readAt_of_not_chPages (view : Fin 4 → PageView) (n : Nat) {p : Pg} {k : PageKind} {off : Nat} (hk : p.kind = some k)
    (ho : off < 0x10000) : s.readAt view (.func n) (addrOf c.val p off) = (0, s) := by
  simp [State.readAt, Req.keeper?, locate_addrOf c hk ho, hc, hp]

theorem State.chanWrite_of_not_chPages (hook : Hook) (judge : Bool) (n : Nat) (p : Pg) (off : Nat) (v : Word) :
    s.chanWrite hook judge (.func n) c p off v = s := by
  simp [State.chanWrite, Req.keeper?, State.hostWrite, hc, hp]

end

/-- A channel held in reset shows no pages. -/
theorem State.chPages_of_inReset {s : State} {c : Fin 4} (h : s.chState c = 5) : s.chPages c = false := by
  simp [State.chPages, h]

end Sys2Proof.Machine

namespace Sys2Proof.Proofs

open Sys2Proof Sys2Proof.Machine

/-- Settles O8 (R20): both resets are confined to channel 0, and what they do to the host island is off the path to the other channels. -/
theorem resetOfChannelZeroKeepsTheHostIsland : Obligations.ResetOfChannelZeroKeepsTheHostIsland := by
  intro s d hd up
  have hup : ∀ t : State, HostPathKept d s t → up t := fun t h =>
    ⟨h.isl.perst, h.isl.l0, h.isl.dead, h.isl.pwrgood, h.hostReach, h.relayUp, h.chPages, h.chan⟩
  constructor
  · refine ⟨_, rfl, hup _ ?_⟩
    split
    · have hs := s.assertPin_hostPathKept d
      have ht := hs.trans (State.settle_hostPathKept hd _)
      dsimp only
      split
      · exact ht.trans (State.islJournal_hostPathKept hd _ _ _ _ _)
      · exact ht
    · exact HostPathKept.refl s
  · intro q p k hk _
    have hw : ∀ v, s.busWrite q (addrOf 0 p oCTRL) v = s.pageWrite q 0 p oCTRL v := fun v => s.busWrite_addrOf q 0 v hk (by decide)
    refine ⟨_, rfl, hup _ ?_⟩
    rw [pageReg_addrOf 0 p oCTRL (by decide), hw]
    exact s.pageWrite_hostPathKept hd q p oCTRL _

/-- Settles O9 (R21): a channel in reset shows no pages, so that PF0 reads 0 and its write goes nowhere. -/
theorem pagesOfAChannelInResetReadZero : Obligations.PagesOfAChannelInResetReadZero := by
  intro s c p k off v _ _ hc hst hk ho _
  have hp : s.chPages c = false := State.chPages_of_inReset hst
  constructor
  · refine ⟨_, rfl, ?_⟩
    have hr : s.readCmd (.func 0) (addrOf c.val p off) = s.emit (.read (addrOf c.val p off) 0) := by
      simp only [State.readCmd, s.busRead_addrOf _ c hk ho, State.readAt_of_not_chPages hc hp _ _ hk ho]
    rw [hr]
    exact ⟨rfl, rfl, fun _ => rfl⟩
  · intro full
    refine ⟨_, rfl, ?_⟩
    cases full with
    | true =>
      have hw : s.busWrite (.func 0) (addrOf c.val p off) v = s := by
        rw [s.busWrite_addrOf _ c v hk ho, State.pageWrite, State.chanWrite_of_not_chPages hc hp]
      rw [if_pos rfl, hw]
      exact ⟨rfl, fun _ => rfl, fun _ => rfl⟩
    | false =>
      rw [if_neg Bool.false_ne_true]
      split <;> exact ⟨rfl, nofun, fun _ => rfl⟩

/-- Settles O10 (R24): every way into the package asks first whether channel 0's FE die is alive. -/
theorem feDieFailureCutsTheHost : Obligations.FeDieFailureCutsTheHost := by
  intro s
  refine ⟨_, rfl, rfl, rfl, rfl, fun _ => rfl, fun c => ?_, fun n => ?_, ?_, ?_, ?_⟩
  · simp [State.hostReach]
  · simp [State.reach]
  · simp [State.reach]
  · simp [State.jtagReady]
  · simp [State.reach]

end Sys2Proof.Proofs
end

section
/-! What a cause or a tally event of a page may change: the registers of the page's header, and the page's interrupt (R62–R77). -/

namespace Sys2Proof.Machine

/-- The key of a register of the page's header: block-specific registers start at offset 0x100. -/
def InHeader (p : Pg) (key : Nat) : Prop := p.key 0 ≤ key ∧ key < p.key 0x100

theorem Pg.key_header (p : Pg) {off : Nat} (h : off ≤ 0x100) : p.key off = p.key 0 + off := by
  simp only [Pg.key]
  split <;> split <;> omega

theorem inHeader_key (p : Pg) {off : Nat} (h : off < 0x100) : InHeader p (p.key off) := by
  simp only [InHeader, p.key_header h.le, p.key_header le_rfl]
  omega

/-- The keys of a page's registers give its number within the channel. -/
theorem InHeader.page {p : Pg} {key : Nat} (h : InHeader p key) : key / 65536 = p.key 0 / 65536 := by
  have h0 := p.key_header le_rfl
  have hp : p.key 0 = p.die * 0x2000000 + p.num * 0x10000 := by simp [Pg.key]
  unfold InHeader at h
  omega

/-- From `a` to `b` only registers of the header of page `p` have changed, and only the page's interrupt has been put out. -/
structure HeaderOnly (p : Pg) (a b : Chan) : Prop where
  work : workOf b = workOf a
  regs : ∀ key, ¬ InHeader p key → rget chanReset b.regs key = rget chanReset a.regs key
  outs : ∀ o ∈ b.outQ, o ∈ a.outQ ∨ o = .irqPage (p.key 0)

namespace HeaderOnly

variable {p : Pg} {a b c : Chan}

theorem refl (p : Pg) (a : Chan) : HeaderOnly p a a := ⟨rfl, fun _ _ => rfl, fun _ h => .inl h⟩

theorem trans (h : HeaderOnly p a b) (g : HeaderOnly p b c) : HeaderOnly p a c where
  work := g.work.trans h.work
  regs key hk := (g.regs key hk).trans (h.regs key hk)
  outs o ho := (g.outs o ho).elim (h.outs o) .inr

theorem put (p : Pg) (ch : Chan) {off : Nat} (v : Word) (h : off < 0x100) : HeaderOnly p ch (ch.put p off v) :=
  ⟨rfl, fun _ hk => ch.rget_put_ne v (fun e => hk (e ▸ inHeader_key p h)), fun _ ho => .inl ho⟩

theorem put64 (p : Pg) (ch : Chan) {off : Nat} (v : Nat) (h : off + 4 < 0x100) : HeaderOnly p ch (ch.put64 p off v) :=
  (put p ch _ (by omega)).trans (put p _ _ h)

theorem quiet (h : HeaderOnly p a b) : quietOf b = quietOf a :=
  (congrArg quietOf h.work : quietOf (workOf b) = quietOf (workOf a))

/-- Taking the channel's outputs changes no register. -/
theorem clearOut (p : Pg) (ch : Chan) : HeaderOnly p ch { ch with outQ := [] } := ⟨rfl, fun _ _ => rfl, fun _ h => nomatch h⟩

/-- A register outside the header holds what it held. -/
theorem get (h : HeaderOnly p a b) {q : Pg} {off : Nat} (hk : ¬ InHeader p (q.key off)) : b.get q off = a.get q off := h.regs _ hk

theorem getF (h : HeaderOnly p a b) {q : Pg} {f : Fld} (hk : ¬ InHeader p (q.key f.off)) : b.getF q f = a.getF q f := by
  simp only [Chan.getF, h.get hk]

theorem getB (h : HeaderOnly p a b) {q : Pg} {f : Fld} (hk : ¬ InHeader p (q.key f.off)) : b.getB q f = a.getB q f := by
  simp only [Chan.getB, h.getF hk]

/-- A counter of the page, with its OVF_STICKY. -/
theorem tallyBump (p : Pg) (n : Nat) (r : Chan × Bool) {i : Nat} (hi : i < 8) : HeaderOnly p r.1 (tallyBump p n r i).1 := by
  simp only [Machine.tallyBump]
  have hc : HeaderOnly p r.1 (r.1.put64 p (oCNT i) ((r.1.get64 p (oCNT i) + n) % 2 ^ 48)) := put64 p _ _ (by simp only [oCNT]; omega)
  split
  · exact hc
  · exact hc.trans (put p _ _ (show oOVF < 0x100 by decide))

theorem tallyAdd (p : Pg) (ch : Chan) (code : Nat) (at_ : Attr) (n : Nat) : HeaderOnly p ch (ch.tallyAdd p code at_ n).1 := by
  unfold Chan.tallyAdd
  split
  · exact refl p ch
  split
  · exact List.foldlRecOn (motive := fun r : Chan × Bool => HeaderOnly p ch r.1) _ _ (refl p ch)
      (fun r h i hi => h.trans (tallyBump p n r (mem_allBelow_lt hi)))
  · exact refl p ch

theorem orCause (p : Pg) (ch : Chan) (m : Nat) : HeaderOnly p ch (ch.orCause p m) := by
  unfold Chan.orCause
  dsimp only
  have h : HeaderOnly p ch (ch.putN p oCAUSE (Nat.lor (ch.nat p oCAUSE) m)) := put p ch _ (by decide)
  split
  · exact h.trans (put p _ _ (by decide))
  · exact h

theorem edge (p : Pg) (ch : Chan) (b : Bool) : HeaderOnly p ch (ch.edge p b) := by
  unfold Chan.edge
  split
  · refine ⟨rfl, fun _ _ => rfl, fun o ho => ?_⟩
    simpa [Chan.emit] using ho
  · exact refl p ch

end HeaderOnly

/-- Causes other than FAULT and DEGRADED are not noted for the journal (R67). -/
theorem Chan.noteCauses_of_plain (ch : Chan) (p : Pg) {m : Nat} (h0 : nbit m 0 = false) (h2 : nbit m 2 = false) : ch.noteCauses p m = ch := by
  simp only [Chan.noteCauses, h0, h2, Chan.when, Bool.false_eq_true, if_false]

theorem nbit_eq_testBit (n i : Nat) : nbit n i = n.testBit i := by
  simp only [nbit, Nat.testBit_eq_decide_div_mod_eq, Nat.shiftRight_eq_div_pow, beq_eq_decide]

theorem nbit_land (m n i : Nat) : nbit (Nat.land m n) i = (nbit m i && nbit n i) := by
  simp only [nbit_eq_testBit]
  exact Nat.testBit_and m n i

namespace HeaderOnly

/-- A cause other than FAULT and DEGRADED: the page's header, and its interrupt (R62–R67). -/
theorem raiseMask (p : Pg) (ch : Chan) {m : Nat} (h0 : nbit m 0 = false) (h2 : nbit m 2 = false) : HeaderOnly p ch (ch.raiseMask p m) := by
  unfold Chan.raiseMask
  dsimp only
  rw [Chan.noteCauses_of_plain ch p (by rw [nbit_land, h0, Bool.false_and]) (by rw [nbit_land, h2, Bool.false_and])]
  refine HeaderOnly.trans ?_ (edge p _ _)
  have h := (orCause p ch m).trans (tallyAdd p _ 8 {} (b2n (decide (Nat.land m (2 ^ 32 - 1 - ch.nat p oCAUSE) ≠ 0))))
  split
  · exact h.trans (orCause p _ _)
  · exact h

/-- A tally event of the page, with the cause that a counter's wrap sets (R74). -/
theorem tally (p : Pg) (ch : Chan) (code : Nat) (at_ : Attr) (n : Nat) : HeaderOnly p ch (ch.tally p code at_ n) := by
  unfold Chan.tally
  dsimp only
  split
  · exact (tallyAdd p ch code at_ n).trans (raiseMask p _ rfl rfl)
  · exact tallyAdd p ch code at_ n

end HeaderOnly

end Sys2Proof.Machine
end

section
/-! The frame of an effect on a channel that puts out nothing but interrupts of its pages. -/

namespace Sys2Proof.Machine

/-- Every output that waits is the interrupt of a page. -/
def OnlyIrqs (l : List Out) : Prop := ∀ o ∈ l, ∃ key, o = .irqPage key

theorem onlyIrqs_of_nil {l : List Out} (h : l = []) : OnlyIrqs l := by
  rw [h]
  exact nofun

theorem HeaderOnly.onlyIrqs {p : Pg} {a b : Chan} (h : HeaderOnly p a b) (ha : OnlyIrqs a.outQ) : OnlyIrqs b.outQ :=
  fun o ho => (h.outs o ho).elim (ha o) (fun e => ⟨_, e⟩)

/-- An interrupt is no FAULT or DEGRADED cause to journal (R67). -/
theorem Chan.journalCauses_of_onlyIrqs (ch : Chan) (h : OnlyIrqs ch.outQ) : ch.journalCauses = ch :=
  List.foldlRecOn (motive := fun c : Chan => c = ch) _ _ rfl (fun c hc o ho => by
    obtain ⟨key, rfl⟩ := h o ho
    exact hc)

/-- The host island is as before but for the interrupts held and the latches. -/
def SameIsland (i j : Isl) : Prop := { j with held := [], latches := [] } = { i with held := [], latches := [] }

namespace SameIsland

theorem trans {i j k : Isl} (h : SameIsland i j) (g : SameIsland j k) : SameIsland i k := Eq.trans g h

theorem regs {i j : Isl} (h : SameIsland i j) : j.regs = i.regs := by
  injection h

end SameIsland

/-- A message is sent, or held (R66). -/
theorem State.sendVec_sameIsland (s : State) (m : MsiSrc) (v : Nat) : SameIsland s.isl (s.sendVec m v).isl := by
  unfold State.sendVec
  dsimp only
  split
  · rfl
  · simp only [Isl.hold]
    split <;> rfl

theorem State.pageIrq_sameIsland (s : State) (m : MsiSrc) : SameIsland s.isl (s.pageIrq m).isl := by
  unfold State.pageIrq
  dsimp only
  split
  · exact s.sendVec_sameIsland m _
  · rfl

/-- Delivering interrupts empties the channel's queue; of the host island it changes only what is held. -/
theorem State.deliver_of_onlyIrqs (s : State) (c : Fin 4) (h : OnlyIrqs (s.chan c).outQ) :
    (s.deliver c).chans = (s.setChan c { s.chan c with outQ := [] }).chans ∧ SameIsland s.isl (s.deliver c).isl := by
  unfold State.deliver
  rw [Chan.journalCauses_of_onlyIrqs _ h]
  refine List.foldlRecOn (motive := fun t : State =>
    t.chans = (s.setChan c { s.chan c with outQ := [] }).chans ∧ SameIsland s.isl t.isl) _ _ ⟨rfl, rfl⟩ (fun t ht o ho => ?_)
  obtain ⟨key, rfl⟩ := h o ho
  exact ⟨(t.pageIrq_chans _).trans ht.1, ht.2.trans (t.pageIrq_sameIsland _)⟩

section
variable {s : State} {c : Fin 4} {f : Chan → Chan} (h : OnlyIrqs (f (s.chan c)).outQ)
include h

/-- An effect that puts out only interrupts is the channel's new value, with them delivered. -/
theorem State.runChan_chan (d : Fin 4) : (s.runChan c f).chan d = if d = c then { f (s.chan c) with outQ := [] } else s.chan d := by
  have hd := ((s.setChan c (f (s.chan c))).deliver_of_onlyIrqs c (by rwa [State.chan_setChan_same])).1
  rw [State.runChan, State.chan, hd, ← State.chan, State.chan_setChan, State.chan_setChan_same, State.chan_setChan]
  split <;> rfl

theorem State.runChan_sameIsland : SameIsland s.isl (s.runChan c f).isl :=
  ((s.setChan c (f (s.chan c))).deliver_of_onlyIrqs c (by rwa [State.chan_setChan_same])).2

/-- The frame of such an effect: what it leaves of the channel, but for outputs, journals and the next free value. -/
theorem State.runChan_keeps {pages : List Pg} {strip : Chan → Chan}
    (hs : strip { quietOf (f (s.chan c)) with free := 0 } = strip { quietOf (s.chan c) with free := 0 })
    (hr : ∀ key, key / 65536 ∉ pages.map (fun p => p.key 0 / 65536) →
      rget chanReset (f (s.chan c)).regs key = rget chanReset (s.chan c).regs key) :
    Keeps s (s.runChan c f) c pages strip := by
  refine ⟨fun d hd => ?_, State.runChan_sameIsland h, ?_, fun key hk _ => ?_⟩
  · rw [State.runChan_chan h, if_neg hd]
  · rw [State.runChan_chan h, if_pos rfl]
    exact hs
  · rw [State.runChan_chan h, if_pos rfl]
    exact hr key (fun hm => hk (List.mem_cons_of_mem _ hm))

end

/-- From `s` to `t` only the header of page `p` of channel `c` has changed, and the page's interrupts have been sent or are held. -/
structure HeaderStep (p : Pg) (c : Fin 4) (s t : State) : Prop where
  chan : HeaderOnly p (s.chan c) (t.chan c)
  others : ∀ d, d ≠ c → t.chan d = s.chan d
  isl : SameIsland s.isl t.isl

/-- A cause or a tally event of a page of a channel with no output waiting. -/
theorem HeaderOnly.step {s : State} {c : Fin 4} {f : Chan → Chan} {p : Pg} (h : HeaderOnly p (s.chan c) (f (s.chan c)))
    (hq : OnlyIrqs (s.chan c).outQ) : HeaderStep p c s (s.runChan c f) where
  chan := by
    rw [State.runChan_chan (h.onlyIrqs hq), if_pos rfl]
    exact h.trans (.clearOut p _)
  others d hd := by rw [State.runChan_chan (h.onlyIrqs hq), if_neg hd]
  isl := State.runChan_sameIsland (h.onlyIrqs hq)

theorem HeaderStep.chState {p : Pg} {c : Fin 4} {s t : State} (h : HeaderStep p c s t) (d : Fin 4) : t.chState d = s.chState d := by
  simp only [State.chState, Isl.getF, Isl.get, h.isl.regs]

/-- The frame of such an effect, for a command of the page's block. -/
theorem HeaderStep.keeps {p : Pg} {c : Fin 4} {s t : State} (h : HeaderStep p c s t) {pages : List Pg} (hp : p ∈ pages) (strip : Chan → Chan) :
    Keeps s t c pages strip :=
  ⟨h.others, h.isl, congrArg (fun ch => strip { ch with free := 0 }) h.chan.quiet, fun key hk _ =>
    h.chan.regs key (fun hh => hk (List.mem_map.2 ⟨p, List.mem_cons_of_mem _ hp, hh.page.symm⟩))⟩

theorem keeps_trans {s t u : State} {c : Fin 4} {pages : List Pg} {strip : Chan → Chan} (h : Keeps s t c pages strip)
    (g : Keeps t u c pages strip) : Keeps s u c pages strip := by
  obtain ⟨h1, h2, h3, h4⟩ := h
  obtain ⟨g1, g2, g3, g4⟩ := g
  exact ⟨fun d hd => (g1 d hd).trans (h1 d hd), g2.trans h2, g3.trans h3, fun key hk hb => (g4 key hk hb).trans (h4 key hk hb)⟩

end Sys2Proof.Machine
end

section
/-! A service command that PF0 issues on an active keeper (R111): the write of SVC_CMD is tallied, the command is stored and answered. -/

namespace Sys2Proof.Machine

/-- The number of a register's page within the channel, by the register's key. -/
theorem pgKeep_key_div (k : Fin 2) {off : Nat} (h : off < 65536) : (pgKeep k.val).key off / 65536 = (pgKeep k.val).key 0 / 65536 := by
  fin_cases k <;> simp [pgKeep, Pg.key] <;> omega

/-- The block registers of a keeper's page stand above its header. -/
theorem pgKeep_key_notInHeader (k : Fin 2) {off : Nat} (h0 : 0x100 ≤ off) : ¬ InHeader (pgKeep k.val) ((pgKeep k.val).key off) := by
  fin_cases k <;> simp [InHeader, pgKeep, Pg.key] <;> omega

/-- The kind of a keeper's page. -/
theorem pgKeep_kind (k : Fin 2) : (pgKeep k.val).kind = some (if k = 0 then .keepA else .keepB) := by
  fin_cases k <;> rfl

/-- The row of KEEP.SVC_CMD (R113). -/
def svcCmdRow : RegD := ⟨0x180, 0, 1, 0, 1, 0x0, false, [⟨31, 31, .womw, []⟩, ⟨23, 16, .mw, []⟩, ⟨7, 0, .mw, []⟩], []⟩

theorem findReg_svcCmd (k : Fin 2) : findReg (if k = 0 then .keepA else .keepB) KEEP.SVC_CMD = some ⟨svcCmdRow, false⟩ := by
  fin_cases k <;> decide

/-- Every word is legal at SVC_CMD: an opcode is judged by the keeper. -/
theorem wordLegal_svcCmd (k : Fin 2) (v : Word) : wordLegal (if k = 0 then .keepA else .keepB) KEEP.SVC_CMD ⟨svcCmdRow, false⟩ v = true := by
  fin_cases k <;> rfl

/-- From `a` to `b` only registers of the page of keeper `k` and the service command that a keeper answered last have changed, and nothing but
interrupts has been put out. -/
structure ServiceOnly (k : Fin 2) (a b : Chan) : Prop where
  work : noService (workOf b) = noService (workOf a)
  regs : ∀ key, key / 65536 ≠ (pgKeep k.val).key 0 / 65536 → rget chanReset b.regs key = rget chanReset a.regs key
  outs : OnlyIrqs a.outQ → OnlyIrqs b.outQ

namespace ServiceOnly

variable {k : Fin 2} {a b c : Chan}

theorem trans (h : ServiceOnly k a b) (g : ServiceOnly k b c) : ServiceOnly k a c where
  work := g.work.trans h.work
  regs key hk := (g.regs key hk).trans (h.regs key hk)
  outs ha := g.outs (h.outs ha)

theorem of_headerOnly (h : HeaderOnly (pgKeep k.val) a b) : ServiceOnly k a b where
  work := congrArg noService h.work
  regs key hk := h.regs key (fun hh => hk hh.page)
  outs := h.onlyIrqs

theorem put (k : Fin 2) (ch : Chan) {off : Nat} (v : Word) (h : off < 65536) : ServiceOnly k ch (ch.put (pgKeep k.val) off v) :=
  ⟨rfl, fun _ hk => ch.rget_put_ne v (fun e => hk (e ▸ pgKeep_key_div k h)), fun ha => ha⟩

/-- The keeper remembers another service command. -/
theorem putKeeper (ch : Chan) {x : Keeper} (hx : { x with svcTag := 0, svcOp := 0 } = { ch.keeper k.val with svcTag := 0, svcOp := 0 }) :
    ServiceOnly k ch (ch.putKeeper k.val x) := by
  fin_cases k
  · exact ⟨congrArg (fun y => { noService (workOf ch) with keepA := y }) hx, fun _ _ => rfl, fun ha => ha⟩
  · exact ⟨congrArg (fun y => { noService (workOf ch) with keepB := y }) hx, fun _ _ => rfl, fun ha => ha⟩

/-- The command is stored on the keeper's page, and remembered (R111). -/
theorem svcIssue (ch : Chan) {w : WReq} (hp : w.p = pgKeep k.val) (ho : w.off < 65536) (tag op : Nat) :
    ServiceOnly k ch (ch.svcIssue w k.val tag op) := by
  have hput : ServiceOnly k ch (((ch.put w.p w.off w.merged).putF (pgKeep k.val) KEEP.SVC_STAT_DONE 0).putF (pgKeep k.val) KEEP.SVC_STAT_BUSY 1) := by
    rw [hp]
    exact ((put k ch _ ho).trans (put k _ _ (by decide))).trans (put k _ _ (by decide))
  exact hput.trans (putKeeper _ rfl)

/-- The answer: SVC_STAT, and the cause of the page (R111). -/
theorem svcDone (ch : Chan) (tag status : Nat) : ServiceOnly k ch (ch.svcDone k.val tag status) :=
  (put k ch _ (by decide)).trans (of_headerOnly (HeaderOnly.raiseMask _ _ rfl rfl))

/-- A reserved opcode is answered, whatever the keeper's state (R111, R112). -/
theorem svcReserved (ch : Chan) (tag : Nat) : ServiceOnly k ch (ch.svcReserved k.val tag) := by
  unfold Chan.svcReserved
  split <;> exact svcDone ch tag _

/-- The frame of such an effect in the module. -/
theorem keeps {s : State} {c : Fin 4} {f : Chan → Chan} (h : ServiceOnly k (s.chan c) (f (s.chan c))) (hq : OnlyIrqs (s.chan c).outQ) :
    Keeps s (s.runChan c f) c [pgKeep k.val] noService :=
  State.runChan_keeps (h.outs hq) (congrArg (fun ch => { quietOf ch with free := 0 }) h.work)
    (fun key hk => h.regs key (by simpa using hk))

end ServiceOnly

/-- What SVC_STAT shows once a command is answered (R111). -/
theorem Chan.nat_svcDone (ch : Chan) (k : Fin 2) {tag status : Nat} (ht : tag < 256) (hs : status < 256) :
    (ch.svcDone k.val tag status).nat (pgKeep k.val) KEEP.SVC_STAT = 2 ^ 30 + tag * 2 ^ 16 + status := by
  have h := HeaderOnly.raiseMask (pgKeep k.val)
    (ch.putN (pgKeep k.val) KEEP.SVC_STAT (2 ^ 30 + tag % 256 * 2 ^ 16 + status % 256)) (m := 2 ^ 13) rfl rfl
  rw [Chan.nat, Chan.svcDone, Chan.raise, h.get (pgKeep_key_notInHeader k (by decide)), Chan.putN, Chan.get_put_same, BitVec.toNat_ofNat]
  omega

theorem State.runChan_congr {s : State} {c : Fin 4} {f g : Chan → Chan} (h : f (s.chan c) = g (s.chan c)) : s.runChan c f = s.runChan c g := by
  rw [State.runChan, State.runChan, h]

/-- A running channel does not read FATAL (R598, R617). -/
theorem State.chState_ne_fatal {s : State} {c : Fin 4} (h : s.chLive c = true) : s.chState c ≠ 6 := by
  intro h6
  simp [State.chLive, h6] at h

/-- On an active keeper with no command under way the write of SVC_CMD by PF0 is tallied, and the command is stored and run (R111). -/
theorem State.service_pf0 {s : State} {c : Fin 4} {k : Fin 2} {tag : Nat} (h : SvcReady s c k tag) (op : Nat) (run : Chan → Chan) :
    ∃ (t : State) (w : WReq), HeaderStep (pgKeep k.val) c s t ∧ w.p = pgKeep k.val ∧ w.off = KEEP.SVC_CMD ∧
      s.service (.func 0) c k tag op run = t.runChan c (fun ch => run (ch.svcIssue w k.val tag op)) := by
  obtain ⟨hhost, -, hbusy, htag⟩ := h
  obtain ⟨hlive, hq⟩ := hhost.1
  have hfatal := State.chState_ne_fatal hlive
  obtain ⟨a, hw⟩ := s.chanWrite_pf0 (svcHook k.val (tag % 256) op run) true c (pgKeep k.val) KEEP.SVC_CMD (svcWord tag op) _ _ hhost
    (pgKeep_kind k) (findReg_svcCmd k) rfl rfl rfl (fun _ => wordLegal_svcCmd k _)
  rw [State.onPages_of_not_fatal _ _ _ hfatal] at hw
  have ht := (HeaderOnly.tally (pgKeep k.val) (s.chan c) 3 a 1).step (f := fun ch => ch.tally (pgKeep k.val) 3 a) (onlyIrqs_of_nil hq)
  generalize s.runChan c (fun ch => ch.tally (pgKeep k.val) 3 a) = t at hw ht
  obtain ⟨w, hp, ho, hw⟩ : ∃ w : WReq, w.p = pgKeep k.val ∧ w.off = KEEP.SVC_CMD ∧ s.service (.func 0) c k tag op run =
      t.hookRun c KEEP.SVC_CMD (svcHook k.val (tag % 256) op run w) := ⟨_, by rfl, by rfl, hw⟩
  refine ⟨t, w, ht, hp, ho, hw.trans ?_⟩
  rw [State.hookRun, if_neg (by decide), State.onPages_of_not_fatal _ _ _ (by rwa [ht.chState])]
  refine State.runChan_congr ?_
  have hfree := (ht.chan.getB (pgKeep_key_notInHeader k (by decide))).trans hbusy
  simp only [svcHook, Chan.svcPends, hfree, Bool.false_and, Bool.false_eq_true, if_false, Nat.mod_eq_of_lt htag]

theorem Chan.kstate_putKeeper (ch : Chan) (j k : Nat) (x : Keeper) : (ch.putKeeper j x).kstate k = ch.kstate k := by
  unfold Chan.putKeeper
  split <;> rfl

/-- A command that is stored leaves the keeper's state. -/
theorem Chan.kstate_svcIssue (ch : Chan) {k : Fin 2} {w : WReq} (hp : w.p = pgKeep k.val) (ho : w.off = KEEP.SVC_CMD) (tag op : Nat) :
    (ch.svcIssue w k.val tag op).kstate k.val = ch.kstate k.val := by
  have hcmd : (pgKeep k.val).key KEEP.STATUS_STATE.off ≠ (pgKeep k.val).key KEEP.SVC_CMD := by fin_cases k <;> decide
  have hstat : (pgKeep k.val).key KEEP.STATUS_STATE.off ≠ (pgKeep k.val).key KEEP.SVC_STAT := by fin_cases k <;> decide
  rw [Chan.svcIssue, Chan.kstate_putKeeper, Chan.kstate, Chan.getF_putF_ne _ _ hstat, Chan.getF_putF_ne _ _ hstat, hp, ho, Chan.getF,
    Chan.get_put_ne _ _ hcmd, Chan.kstate, Chan.getF]

/-- A reserved opcode on an active keeper completes with BAD_OPCODE (R112). -/
theorem Chan.svcReserved_of_active {ch : Chan} {k : Nat} (h : ch.kstate k = 4) (tag : Nat) : ch.svcReserved k tag = ch.svcDone k tag 1 := by
  rw [Chan.svcReserved, if_pos (by simp [Chan.fwRuns, h])]

/-- The opcodes 0x40 to 0x4F belong to no chapter (R204). -/
theorem svcKnown_action {op : Nat} (h0 : 0x40 ≤ op) (h1 : op ≤ 0x4F) : svcKnown (op % 256) = false := by
  interval_cases op <;> rfl

end Sys2Proof.Machine

namespace Sys2Proof.Proofs

open Sys2Proof Sys2Proof.Machine

/-- Settles O11 (R204): of the tally of the write, the storing of the command and its answer, each changes only the keeper's page and the
command that the keeper remembers. -/
theorem actionOpcodesAreReserved : Obligations.ActionOpcodesAreReserved := by
  intro s c k tag op hready hlo hhi
  obtain ⟨t, w, ht, hp, ho, hsvc⟩ := State.service_pf0 hready (op % 256) (fun ch => ch.svcReserved k.val tag)
  obtain ⟨⟨⟨-, hq⟩, -⟩, hactive, -, htag⟩ := hready
  refine ⟨_, rfl, ?_⟩
  rw [svcKnown_action hlo hhi, if_neg Bool.false_ne_true, hsvc]
  have hirqs := ht.chan.onlyIrqs (onlyIrqs_of_nil hq)
  have hanswer := (ServiceOnly.svcIssue (t.chan c) hp (by rw [ho]; decide) tag (op % 256)).trans (.svcReserved _ tag)
  constructor
  · have hstate : ((t.chan c).svcIssue w k.val tag (op % 256)).kstate k.val = 4 := by
      rw [Chan.kstate_svcIssue _ hp ho]
      exact (ht.chan.getF (pgKeep_key_notInHeader k (by decide))).trans hactive
    rw [SvcDone, State.runChan_chan (hanswer.outs hirqs), if_pos rfl, Chan.svcReserved_of_active hstate]
    exact Chan.nat_svcDone _ k htag (by decide)
  · exact keeps_trans (ht.keeps (List.mem_singleton_self _) _) (hanswer.keeps hirqs)

end Sys2Proof.Proofs
end

section
/-! What a channel puts out to the host, and an update of a channel for every element of a list. -/

namespace Sys2Proof.Machine

/-- An output that the package hands to the host: it changes no channel, and it is no cause to journal (R67). -/
def Out.toHost : Out → Bool
  | .irqPage _ => true
  | .irqRing _ _ => true
  | .dma _ _ _ => true
  | _ => false

/-- Every output that waits goes to the host. -/
def OnlyToHost (l : List Out) : Prop := ∀ o ∈ l, o.toHost = true

theorem onlyToHost_of_nil {l : List Out} (h : l = []) : OnlyToHost l := by
  rw [h]
  exact nofun

theorem HeaderOnly.onlyToHost {p : Pg} {a b : Chan} (h : HeaderOnly p a b) (ha : OnlyToHost a.outQ) : OnlyToHost b.outQ := by
  intro o ho
  rcases h.outs o ho with hold | rfl
  · exact ha o hold
  · rfl

theorem Chan.journalCauses_of_onlyToHost (ch : Chan) (h : OnlyToHost ch.outQ) : ch.journalCauses = ch :=
  List.foldlRecOn (motive := fun c : Chan => c = ch) _ _ rfl (fun c hc o ho => by
    have htoHost := h o ho
    cases o with
    | note => cases htoHost
    | _ => exact hc)

/-- An effect that puts out only to the host is the channel's new value, with its outputs delivered. -/
theorem State.runChan_chan_of_onlyToHost {s : State} {c : Fin 4} {f : Chan → Chan} (h : OnlyToHost (f (s.chan c)).outQ) :
    (s.runChan c f).chan c = { f (s.chan c) with outQ := [] } := by
  unfold State.runChan State.deliver
  rw [State.chan_setChan_same, Chan.journalCauses_of_onlyToHost _ h]
  refine List.foldlRecOn (motive := fun t : State => t.chan c = { f (s.chan c) with outQ := [] }) _ _
    (State.chan_setChan_same _ _ _) (fun t ht o ho => ?_)
  have htoHost := h o ho
  cases o with
  | fatal => cases htoHost
  | _ => rw [State.chan, State.deliverOne_chan]; exact ht

variable {α β : Type} {f : Chan → α → Chan}

/-- What one update leaves, an update for every element leaves. -/
theorem Chan.each_frame (view : Chan → β) (h : ∀ c a, view (f c a) = view c) (l : List α) (ch : Chan) :
    view (ch.each l f) = view ch :=
  foldl_keeps (fun c => view c = view ch) f (fun c a hc => (h c a).trans hc) l ch rfl

/-- Where every update changes what stands at its own element by `g`, and leaves what stands at `b`, each element of the list is changed once. -/
theorem Chan.each_at [DecidableEq α] (view : Chan → β) (g : β → β) {b : α} {l : List α} (hl : l.Nodup)
    (hsame : ∀ c, view (f c b) = g (view c)) (hne : ∀ c, ∀ a ∈ l, a ≠ b → view (f c a) = view c) (ch : Chan) :
    view (ch.each l f) = if b ∈ l then g (view ch) else view ch := by
  induction l generalizing ch with
  | nil => rfl
  | cons a l ih =>
    obtain ⟨ha, hl⟩ := List.nodup_cons.1 hl
    have hrest := ih hl (fun c x hx => hne c x (List.mem_cons_of_mem _ hx)) (f ch a)
    rw [Chan.each, List.foldl_cons, ← Chan.each, hrest]
    by_cases hab : a = b
    · subst hab
      rw [if_neg ha, if_pos List.mem_cons_self, hsame]
    · rw [hne ch a List.mem_cons_self hab]
      simp only [List.mem_cons, Ne.symm hab, false_or]

theorem allBelow_nodup (n : Nat) (p : Nat → Bool) : (allBelow n p).Nodup := List.nodup_range.filter _

theorem mem_allBelow {n : Nat} {p : Nat → Bool} {i : Nat} : i ∈ allBelow n p ↔ i < n ∧ p i = true := by
  simp only [allBelow, List.mem_filter, List.mem_range]

end Sys2Proof.Machine
end

section
/-! A PART command that PF0 issues (R552): the write of PART.CMD is tallied, and the command runs. -/

namespace Sys2Proof.Machine

/-! A tally event leaves the page's identification and control, which stand before INT_CAUSE. -/

theorem Chan.get_put_header (ch : Chan) (p : Pg) {o off : Nat} (v : Word) (ho : o < 0x20) (hlo : 0x20 ≤ off) (hhi : off < 0x100) :
    (ch.put p off v).get p o = ch.get p o :=
  ch.get_put_ne v (by rw [p.key_header (by omega), p.key_header hhi.le]; omega)

section
variable {o : Nat} (ho : o < 0x20) (p : Pg)
include ho

theorem get_tallyBump (n : Nat) (r : Chan × Bool) {i : Nat} (hi : i < 8) : (tallyBump p n r i).1.get p o = r.1.get p o := by
  have hcnt : ∀ v, (r.1.put64 p (oCNT i) v).get p o = r.1.get p o := fun v => by
    simp only [Chan.put64, Chan.putN]
    rw [Chan.get_put_header _ p _ ho (by simp only [oCNT]; omega) (by simp only [oCNT]; omega),
      Chan.get_put_header _ p _ ho (by simp only [oCNT]; omega) (by simp only [oCNT]; omega)]
  simp only [tallyBump]
  split
  · exact hcnt _
  · exact (Chan.get_put_header (off := oOVF) _ p _ ho (by decide) (by decide)).trans (hcnt _)

theorem Chan.get_tallyAdd (ch : Chan) (code : Nat) (a : Attr) (n : Nat) : (ch.tallyAdd p code a n).1.get p o = ch.get p o := by
  unfold Chan.tallyAdd
  split
  · rfl
  split
  · exact List.foldlRecOn (motive := fun r : Chan × Bool => r.1.get p o = ch.get p o) _ _ rfl
      (fun r h i hi => (get_tallyBump ho p n r (mem_allBelow_lt hi)).trans h)
  · rfl

theorem Chan.get_orCause (ch : Chan) (m : Nat) : (ch.orCause p m).get p o = ch.get p o := by
  have hcause : ∀ n, (ch.putN p oCAUSE n).get p o = ch.get p o := fun n => Chan.get_put_header _ p _ ho (by decide) (by decide)
  unfold Chan.orCause
  dsimp only
  split
  · exact (Chan.get_put_header _ p _ ho (by decide) (by decide)).trans (hcause _)
  · exact hcause _

theorem Chan.get_raiseMask (ch : Chan) (m : Nat) : (ch.raiseMask p m).get p o = ch.get p o := by
  have hnote : ∀ x, (ch.noteCauses p x).get p o = ch.get p o := fun x => by
    unfold Chan.noteCauses Chan.when
    split <;> split <;> rfl
  have hedge : ∀ (c : Chan) (b : Bool), (c.edge p b).get p o = c.get p o := fun c b => by
    unfold Chan.edge
    split <;> rfl
  unfold Chan.raiseMask
  dsimp only
  rw [hedge]
  split
  · rw [Chan.get_orCause ho, Chan.get_tallyAdd ho, Chan.get_orCause ho, hnote]
  · rw [Chan.get_tallyAdd ho, Chan.get_orCause ho, hnote]

theorem Chan.get_tally (ch : Chan) (code : Nat) (a : Attr) (n : Nat) : (ch.tally p code a n).get p o = ch.get p o := by
  unfold Chan.tally
  dsimp only
  split
  · exact (Chan.get_raiseMask ho p _ _).trans (Chan.get_tallyAdd ho p ch code a n)
  · exact Chan.get_tallyAdd ho p ch code a n

end

/-- A tally event leaves whether the page's block works. -/
theorem Chan.enabled_tally (ch : Chan) (p : Pg) (code : Nat) (a : Attr) : (ch.tally p code a).enabled p = ch.enabled p := by
  have hreset : (ch.tally p code a).inReset = ch.inReset := congrArg (fun c => c.inReset) (HeaderOnly.tally p ch code a 1).work
  rw [Chan.enabled, Chan.getB, Chan.getF, Chan.get_tally (by decide), hreset]
  rfl

/-! The write of PART.CMD. -/

/-- The row of PART.CMD (R559). -/
def partCmdRow : RegD := ⟨0x104, 0, 1, 0, 1, 0x0, false, [⟨31, 31, .womw, []⟩, ⟨30, 28, .womw, [(0, 4)]⟩, ⟨4, 0, .womw, []⟩], []⟩

theorem findReg_partCmd : findReg .part PART.CMD = some ⟨partCmdRow, false⟩ := by decide

/-- The word that issues operation `op` on partition `p` with GO = 1 (R552). -/
def partWord (op p : Nat) : Word := BitVec.ofNat 32 (2 ^ 31 + op * 2 ^ 28 + p)

section
variable {op p : Nat} (ho : op ≤ 4) (hp : p < 32)
include ho hp

theorem partWord_toNat : (partWord op p).toNat = 2 ^ 31 + op * 2 ^ 28 + p := by
  rw [partWord, BitVec.toNat_ofNat, Nat.mod_eq_of_lt (by omega)]

theorem bit_partWord_go : bit (partWord op p) 31 = true := by
  rw [bit, partWord_toNat ho hp, Nat.shiftRight_eq_div_pow, beq_iff_eq]
  omega

theorem fld_partWord_op : fld (partWord op p) 30 28 = op := by
  rw [fld, partWord_toNat ho hp, Nat.shiftRight_eq_div_pow]
  omega

theorem fld_partWord_part : fld (partWord op p) 4 0 = p := by
  rw [fld, partWord_toNat ho hp, Nat.shiftRight_zero]
  omega

/-- The five operations are legal (R4, R552). -/
theorem wordLegal_partWord : wordLegal .part PART.CMD ⟨partCmdRow, false⟩ (partWord op p) = true := by
  have hrel : relLegal .part PART.CMD (partWord op p) = true := rfl
  simp [wordLegal, hrel, RegHit.flds, partCmdRow, FieldD.legal, fld_partWord_op ho hp, ho]

/-- PF0's write of PART.CMD is tallied on the PART page, and the command runs on the channel. -/
theorem State.partCmd_pf0 {s : State} {c : Fin 4} (h : HostReady s c) :
    ∃ (a : Attr) (w : WReq), w.v = partWord op p ∧
      s.partCmd (.func 0) c op p = (s.runChan c (fun ch => ch.tally pgPart 3 a)).runChan c (partCmdHook (s.hostReach c) w) := by
  obtain ⟨a, hw⟩ := s.chanWrite_pf0 (partCmdHook (s.hostReach c)) true c pgPart PART.CMD (partWord op p) .part _ h rfl findReg_partCmd rfl rfl
    rfl (fun _ => wordLegal_partWord ho hp)
  have hfatal := State.chState_ne_fatal h.1.1
  have htally := (HeaderOnly.tally pgPart (s.chan c) 3 a 1).step (f := fun ch => ch.tally pgPart 3 a) (onlyIrqs_of_nil h.1.2)
  rw [State.onPages_of_not_fatal _ _ _ hfatal] at hw
  dsimp only at hw
  rw [State.hookRun, if_neg (by decide), State.onPages_of_not_fatal _ _ _ (by rwa [htally.chState])] at hw
  rw [State.partCmd, Nat.mod_eq_of_lt hp]
  exact ⟨a, _, by rfl, hw⟩

end

section
variable {ch : Chan} {p : Nat} {w : WReq} (reach : Bool) (hp : p < 32) (he : ch.enabled pgPart = true) (hst : (ch.part p).state = 3)
include hp he hst

/-- A QUIESCED partition accepts RESUME (R552). -/
theorem partCmdHook_resume (hv : w.v = partWord 2 p) : partCmdHook reach w ch = ch.partResume p := by
  simp [partCmdHook, hv, bit_partWord_go, fld_partWord_op, fld_partWord_part, hp, he, hst]

/-- A QUIESCED partition accepts RESET (R552). -/
theorem partCmdHook_reset (hv : w.v = partWord 3 p) : partCmdHook reach w ch = ch.partReset p := by
  simp [partCmdHook, hv, bit_partWord_go, fld_partWord_op, fld_partWord_part, hp, he, hst]

end

/-- From `a` to `b` only the header of the PART page, PART.CMD_STAT and the waiting outputs have changed, and what waits still goes to the host:
the tally, the completion and the delivery of a PART command. -/
structure PartStatus (a b : Chan) : Prop where
  work : workOf b = workOf a
  regs : ∀ key, ¬ InHeader pgPart key → key ≠ pgPart.key PART.CMD_STAT → rget chanReset b.regs key = rget chanReset a.regs key
  outs : OnlyToHost a.outQ → OnlyToHost b.outQ

namespace PartStatus

variable {a b c : Chan}

theorem trans (h : PartStatus a b) (g : PartStatus b c) : PartStatus a c where
  work := g.work.trans h.work
  regs key hh hs := (g.regs key hh hs).trans (h.regs key hh hs)
  outs ha := g.outs (h.outs ha)

theorem of_headerOnly (h : HeaderOnly pgPart a b) : PartStatus a b := ⟨h.work, fun key hh _ => h.regs key hh, h.onlyToHost⟩

/-- The completion: CMD_STAT, and the cause of the page (R559). -/
theorem partDone (ch : Chan) (res : Nat) : PartStatus ch (ch.partDone res) := by
  have hput : ∀ n, PartStatus ch (ch.putN pgPart PART.CMD_STAT n) := fun n => ⟨rfl, fun _ _ hs => ch.rget_put_ne _ hs, fun ha => ha⟩
  exact (hput _).trans (of_headerOnly (HeaderOnly.raiseMask _ _ rfl rfl))

theorem acct (h : PartStatus a b) (n : Nat) : b.acct n = a.acct n := congrArg (fun x => x.acct n) h.work

theorem ring (h : PartStatus a b) (p r : Nat) : b.ring p r = a.ring p r := congrArg (fun x => x.ring p r) h.work

theorem part (h : PartStatus a b) (p : Nat) : b.part p = a.part p := congrArg (fun x => x.part p) h.work

theorem cad (h : PartStatus a b) : b.cad = a.cad := congrArg (fun x => x.cad) h.work

theorem tbl (h : PartStatus a b) : b.tbl = a.tbl := congrArg (fun x => x.tbl) h.work

theorem getF (h : PartStatus a b) {q : Pg} {f : Fld} (hh : ¬ InHeader pgPart (q.key f.off)) (hs : q.key f.off ≠ pgPart.key PART.CMD_STAT) :
    b.getF q f = a.getF q f := by
  simp only [Chan.getF, Chan.get, h.regs _ hh hs]

end PartStatus

/-! The registers of a port's ownership and of its DISCARD. -/

theorem portOwn_key (q : Nat) : pgPart.key (PART.PORT_OWN_PART q).off = 0x51000 + 4 * q := by
  simp [Pg.key]
  omega

theorem portDiscard_key {q : Nat} (hq : q < 64) : (portPg q).key (LINE.PORT_CTRL_DISCARD (portBlk q)).off =
    0x300000 + 0x10000 * (q % 32 / 4) + 0x1008 + 1024 * (q % 4 + 4 * (q / 32)) := by
  unfold portPg portBlk Pg.key
  split <;> simp only [Nat.zero_mul] <;> rw [if_neg (by omega)] <;> omega

theorem not_inHeader_part {key : Nat} (h : 0x50100 ≤ key) : ¬ InHeader pgPart key := by
  simp only [InHeader, Pg.key]
  norm_num
  omega

theorem partCmdStat_key : pgPart.key PART.CMD_STAT = 0x50108 := rfl

theorem PartStatus.portPart {a b : Chan} (h : PartStatus a b) (q : Nat) : b.portPart q = a.portPart q :=
  h.getF (not_inHeader_part (by rw [portOwn_key]; omega)) (by rw [portOwn_key, partCmdStat_key]; omega)

theorem PartStatus.portDiscard {a b : Chan} (h : PartStatus a b) {q : Nat} (hq : q < 64) :
    b.portF q LINE.PORT_CTRL_DISCARD = a.portF q LINE.PORT_CTRL_DISCARD :=
  h.getF (not_inHeader_part (by rw [portDiscard_key hq]; omega)) (by rw [portDiscard_key hq, partCmdStat_key]; omega)

/-- A PART command of PF0 that has the effect `f`: it runs on the channel `a` in which the write has been tallied, and its outputs are
delivered. -/
theorem State.partCmd_chan {s : State} {c : Fin 4} {op p : Nat} {f : Chan → Nat → Chan} (h : HostReady s c) (ho : op ≤ 4) (hp : p < 32)
    (he : (s.chan c).enabled pgPart = true)
    (hf : ∀ (ch : Chan) (w : WReq), ch.enabled pgPart = true → ch.part p = (s.chan c).part p → w.v = partWord op p →
      partCmdHook (s.hostReach c) w ch = f ch p)
    (hout : ∀ ch, OnlyToHost ch.outQ → OnlyToHost (f ch p).outQ) :
    ∃ a, PartStatus (s.chan c) a ∧ PartStatus (f a p) ((s.partCmd (.func 0) c op p).chan c) := by
  obtain ⟨at_, w, hv, hcmd⟩ := State.partCmd_pf0 ho hp h
  have htally := HeaderOnly.tally pgPart (s.chan c) 3 at_ 1
  have hchan := State.runChan_chan_of_onlyToHost (f := fun ch => ch.tally pgPart 3 at_) (htally.onlyToHost (onlyToHost_of_nil h.1.2))
  have hen := (Chan.enabled_tally (s.chan c) pgPart 3 at_).trans he
  have ha := PartStatus.of_headerOnly (htally.trans (HeaderOnly.clearOut pgPart _))
  rw [hcmd]
  generalize s.runChan c (fun ch => ch.tally pgPart 3 at_) = t at hchan ⊢
  rw [← hchan] at ha
  have hhook : partCmdHook (s.hostReach c) w (t.chan c) = f (t.chan c) p := hf _ w (by rw [hchan]; exact hen) (ha.part p) hv
  refine ⟨t.chan c, ha, ?_⟩
  rw [State.runChan_congr (g := fun ch => f ch p) hhook, State.runChan_chan_of_onlyToHost (hout _ (onlyToHost_of_nil (by rw [hchan])))]
  exact PartStatus.of_headerOnly (HeaderOnly.clearOut pgPart _)

/-- A command that completes: the partition comes to hold `x`, and RESULT is 0 (R559). -/
def Chan.partFinish (ch : Chan) (p : Nat) (x : Part) : Chan := (ch.putPart p x).partDone 0

section
variable (ch : Chan) (p : Nat) (x : Part)

theorem Chan.acct_partFinish (a : Nat) : (ch.partFinish p x).acct a = ch.acct a := (PartStatus.partDone _ 0).acct a

theorem Chan.ring_partFinish (m r : Nat) : (ch.partFinish p x).ring m r = ch.ring m r := (PartStatus.partDone _ 0).ring m r

theorem Chan.part_partFinish : (ch.partFinish p x).part p = x := ((PartStatus.partDone _ 0).part p).trans (ch.part_putPart_same p x)

theorem Chan.portPart_partFinish (q : Nat) : (ch.partFinish p x).portPart q = ch.portPart q := (PartStatus.partDone _ 0).portPart q

theorem Chan.portDiscard_partFinish {q : Nat} (hq : q < 64) :
    (ch.partFinish p x).portF q LINE.PORT_CTRL_DISCARD = ch.portF q LINE.PORT_CTRL_DISCARD := (PartStatus.partDone _ 0).portDiscard hq

theorem Chan.cad_partFinish : (ch.partFinish p x).cad = ch.cad := (PartStatus.partDone _ 0).cad

theorem Chan.tbl_partFinish : (ch.partFinish p x).tbl = ch.tbl := (PartStatus.partDone _ 0).tbl

theorem Chan.partFinish_outs (h : OnlyToHost ch.outQ) : OnlyToHost (ch.partFinish p x).outQ := (PartStatus.partDone _ 0).outs h

end

end Sys2Proof.Machine
end

section
/-! RESUME of a partition (R555): what each of its parts changes, and what it leaves. -/

namespace Sys2Proof.Machine

theorem Chan.ring_putRing_ne (ch : Chan) (p : Nat) {r m : Nat} (x : Ring) (h : m ≠ r) : (ch.putRing p r x).ring p m = ch.ring p m :=
  tget_tput_ne _ _ _ (by omega)

theorem Chan.acct_putAcct_same (ch : Chan) (a : Nat) (x : Acct) : (ch.putAcct a x).acct a = x := rget_rput_same _ _ _ _

theorem Chan.acct_putAcct_ne (ch : Chan) {a b : Nat} (x : Acct) (h : b ≠ a) : (ch.putAcct a x).acct b = ch.acct b := rget_rput_ne _ _ _ h

theorem Chan.portDiscard_clear_same (ch : Chan) (q : Nat) :
    (ch.putPortF q LINE.PORT_CTRL_DISCARD 0).portF q LINE.PORT_CTRL_DISCARD = 0 :=
  ch.getF_putF_same (portPg q) (LINE.PORT_CTRL_DISCARD (portBlk q)) 0 (Nat.le_refl 2) (show 2 < 32 by decide)

theorem Chan.portDiscard_put_ne (ch : Chan) {q x : Nat} (v : Nat) (hq : q < 64) (hx : x < 64) (h : x ≠ q) :
    (ch.putPortF x LINE.PORT_CTRL_DISCARD v).portF q LINE.PORT_CTRL_DISCARD = ch.portF q LINE.PORT_CTRL_DISCARD := by
  refine ch.getF_putF_ne v ?_
  rw [portDiscard_key hq, portDiscard_key hx]
  omega

/-- Every account of the partition is opened. -/
def Chan.openAccts (ch : Chan) (p : Nat) : Chan := ch.each (ch.acctsOf p) (fun c a => c.putAcct a { c.acct a with st := 1 })

/-- DISCARD is cleared on every port of the partition. -/
def Chan.clearDiscards (ch : Chan) (p : Nat) : Chan := ch.each (ch.portsOf p) (fun c x => c.putPortF x LINE.PORT_CTRL_DISCARD 0)

/-- RESUME before the partition's own state: its accounts, its ports and its rings. -/
def Chan.released (ch : Chan) (p : Nat) : Chan := ((ch.openAccts p).clearDiscards p).stopRings p (List.range 20) false

theorem Chan.partResume_eq (ch : Chan) (p : Nat) :
    ch.partResume p = (ch.released p).partFinish p { (ch.released p).part p with state := 1 } := rfl

section
variable (ch : Chan) (p : Nat)

theorem Chan.acct_openAccts {a : Nat} (ha : a < 4096) :
    (ch.openAccts p).acct a = if (ch.acct a).part = p then { ch.acct a with st := 1 } else ch.acct a := by
  have hmem : a ∈ ch.acctsOf p ↔ (ch.acct a).part = p := by
    rw [Chan.acctsOf, mem_allBelow, and_iff_right ha, beq_iff_eq]
  refine (Chan.each_at (fun c => c.acct a) (fun x => { x with st := 1 }) (allBelow_nodup _ _) (fun c => c.acct_putAcct_same a _)
    (fun c b _ hb => c.acct_putAcct_ne _ hb.symm) ch).trans ?_
  rw [← Chan.acctsOf]
  simp only [hmem]

theorem Chan.portDiscard_clearDiscards {q : Nat} (hq : q < 64) :
    (ch.clearDiscards p).portF q LINE.PORT_CTRL_DISCARD = if ch.portPart q = p then 0 else ch.portF q LINE.PORT_CTRL_DISCARD := by
  have hmem : q ∈ ch.portsOf p ↔ ch.portPart q = p := by
    rw [Chan.portsOf, mem_allBelow, and_iff_right hq, beq_iff_eq]
  have h := Chan.each_at (fun c => c.portF q LINE.PORT_CTRL_DISCARD) (fun _ => 0) (l := ch.portsOf p)
    (f := fun c x => c.putPortF x LINE.PORT_CTRL_DISCARD 0) (allBelow_nodup _ _)
    (fun c => c.portDiscard_clear_same q) (fun c x hx hne => c.portDiscard_put_ne 0 hq (mem_allBelow_lt hx) hne) ch
  simp only [hmem] at h
  exact h

theorem Chan.ring_stopRings (n : Nat) (on : Bool) {r : Nat} (hr : r < n) :
    (ch.stopRings p (List.range n) on).ring p r = { ch.ring p r with stopped := on } :=
  (Chan.each_at (fun c => c.ring p r) (fun x => { x with stopped := on }) List.nodup_range
    (fun c => c.ring_putRing_same p r _) (fun c _ _ hne => c.ring_putRing_ne p _ hne.symm) ch).trans (if_pos (List.mem_range.2 hr))

/-! What does not look at accounts, registers or rings is left by the loop that writes them. -/

variable {β : Type} (view : Chan → β)

theorem Chan.view_openAccts (h : ∀ c n x, view (Chan.putAcct c n x) = view c) : view (ch.openAccts p) = view ch :=
  Chan.each_frame view (fun c _ => h c _ _) _ ch

theorem Chan.view_clearDiscards (h : ∀ c q off v, view (Chan.put c q off v) = view c) : view (ch.clearDiscards p) = view ch :=
  Chan.each_frame view (fun c _ => h c _ _ _) _ ch

theorem Chan.view_stopRings (rs : List Nat) (on : Bool) (h : ∀ c r x, view (Chan.putRing c p r x) = view c) :
    view (ch.stopRings p rs on) = view ch :=
  Chan.each_frame view (fun c _ => h c _ _) _ ch

/-- What looks at none of the three is as before RESUME. -/
theorem Chan.view_released (ha : ∀ c a x, view (Chan.putAcct c a x) = view c) (hq : ∀ c q off v, view (Chan.put c q off v) = view c)
    (hr : ∀ c r x, view (Chan.putRing c p r x) = view c) : view (ch.released p) = view ch :=
  ((Chan.view_stopRings _ p view _ _ hr).trans (Chan.view_clearDiscards _ p view hq)).trans (ch.view_openAccts p view ha)

theorem Chan.acct_released {a : Nat} (ha : a < 4096) :
    (ch.released p).acct a = if (ch.acct a).part = p then { ch.acct a with st := 1 } else ch.acct a :=
  calc (ch.released p).acct a
      = ((ch.openAccts p).clearDiscards p).acct a := Chan.view_stopRings _ p (fun c => c.acct a) _ _ (fun _ _ _ => rfl)
    _ = (ch.openAccts p).acct a := Chan.view_clearDiscards _ p (fun c => c.acct a) (fun _ _ _ _ => rfl)
    _ = _ := ch.acct_openAccts p ha

theorem Chan.portDiscard_released {q : Nat} (hq : q < 64) :
    (ch.released p).portF q LINE.PORT_CTRL_DISCARD = if ch.portPart q = p then 0 else ch.portF q LINE.PORT_CTRL_DISCARD :=
  calc (ch.released p).portF q LINE.PORT_CTRL_DISCARD
      = ((ch.openAccts p).clearDiscards p).portF q LINE.PORT_CTRL_DISCARD :=
        Chan.view_stopRings _ p (fun c => c.portF q LINE.PORT_CTRL_DISCARD) _ _ (fun _ _ _ => rfl)
    _ = if (ch.openAccts p).portPart q = p then 0 else (ch.openAccts p).portF q LINE.PORT_CTRL_DISCARD :=
        Chan.portDiscard_clearDiscards _ p hq
    _ = _ := by
        rw [ch.view_openAccts p (fun c => c.portPart q) (fun _ _ _ => rfl),
          ch.view_openAccts p (fun c => c.portF q LINE.PORT_CTRL_DISCARD) (fun _ _ _ => rfl)]

theorem Chan.ring_released {r : Nat} (hr : r < 20) : (ch.released p).ring p r = { ch.ring p r with stopped := false } := by
  rw [Chan.released, Chan.ring_stopRings _ _ _ _ hr, Chan.view_clearDiscards _ p (fun c => c.ring p r) (fun _ _ _ _ => rfl),
    ch.view_openAccts p (fun c => c.ring p r) (fun _ _ _ => rfl)]

theorem Chan.part_released : (ch.released p).part p = ch.part p :=
  ch.view_released p (fun c => c.part p) (fun _ _ _ => rfl) (fun _ _ _ _ => rfl) (fun _ _ _ => rfl)

theorem Chan.outQ_released : (ch.released p).outQ = ch.outQ :=
  ch.view_released p Chan.outQ (fun _ _ _ => rfl) (fun _ _ _ _ => rfl) (fun _ _ _ => rfl)

theorem Chan.partResume_outs (h : OnlyToHost ch.outQ) : OnlyToHost (ch.partResume p).outQ := by
  rw [Chan.partResume_eq]
  refine Chan.partFinish_outs _ _ _ ?_
  rwa [Chan.outQ_released]

end

end Sys2Proof.Machine

namespace Sys2Proof.Proofs

open Sys2Proof Sys2Proof.Machine

/-- Settles O12 (R555): the tally before RESUME and its completion touch the PART page's header and CMD_STAT; accounts, ports and rings are
each updated once, by loops that do not meet. -/
theorem partitionResume : Obligations.PartitionResume := by
  intro s c p hready hp hen hst ch
  obtain ⟨a, ha, hu⟩ := State.partCmd_chan (f := Chan.partResume) hready (by decide) hp hen
    (fun x w hx hpart => partCmdHook_resume _ hp hx (hpart ▸ hst)) (fun x => x.partResume_outs p)
  rw [Chan.partResume_eq] at hu
  refine ⟨_, rfl, fun n hn => ?_, fun q hq => ?_, fun r hr => ?_, ?_⟩
  · rw [← ha.acct, ← Chan.acct_released _ _ hn]
    exact (hu.acct n).trans (Chan.acct_partFinish _ _ _ n)
  · rw [← ha.portPart, ← ha.portDiscard hq, ← Chan.portDiscard_released _ _ hq]
    exact (hu.portDiscard hq).trans (Chan.portDiscard_partFinish _ _ _ hq)
  · rw [← ha.ring, ← Chan.ring_released _ _ hr]
    exact (hu.ring p r).trans (Chan.ring_partFinish _ _ _ p r)
  · rw [← ha.part, ← a.part_released]
    exact (hu.part p).trans (Chan.part_partFinish _ _ _)

end Sys2Proof.Proofs
end

section
/-! RESET of a partition (R556): a ring that is disabled is written back, and nothing but that ring and the outputs changes. -/

namespace Sys2Proof.Machine

/-- From `a` to `b` ring `r` of partition `p` has come to hold `x`, and of the rest only outputs to the host have been added. -/
structure RingStep (p r : Nat) (x : Ring) (a b : Chan) : Prop where
  ring : b.ring p r = x
  others : ∀ m, m ≠ r → b.ring p m = a.ring p m
  rest : { b with rings := [], outQ := [] } = { a with rings := [], outQ := [] }
  outs : OnlyToHost a.outQ → OnlyToHost b.outQ

namespace RingStep

variable {p r : Nat} {x y : Ring} {a b c : Chan}

theorem refl (p r : Nat) (a : Chan) : RingStep p r (a.ring p r) a a := ⟨rfl, fun _ _ => rfl, rfl, fun ha => ha⟩

theorem trans (h : RingStep p r x a b) (g : RingStep p r y b c) : RingStep p r y a c where
  ring := g.ring
  others m hm := (g.others m hm).trans (h.others m hm)
  rest := g.rest.trans h.rest
  outs ha := g.outs (h.outs ha)

theorem trans_at {f : Chan → Chan} {g : Ring → Ring} (h : RingStep p r x a b) (hf : ∀ c, RingStep p r (g (c.ring p r)) c (f c)) :
    RingStep p r (g x) a (f b) := h.ring ▸ h.trans (hf b)

theorem putRing (p r : Nat) (x : Ring) (a : Chan) : RingStep p r x a (a.putRing p r x) :=
  ⟨a.ring_putRing_same p r x, fun _ hm => a.ring_putRing_ne p x hm, rfl, fun ha => ha⟩

/-- An output to the host is added. -/
theorem emit {o : Out} (h : RingStep p r x a b) (ho : o.toHost = true) : RingStep p r x a (b.emit o) where
  ring := h.ring
  others := h.others
  rest := h.rest
  outs ha o' ho' := by
    rcases List.mem_append.1 ho' with hold | hnew
    · exact h.outs ha o' hold
    · rwa [List.mem_singleton.1 hnew]

end RingStep

/-- A ring after a qualifying completion (R543). -/
def Ring.completed (x : Ring) : Ring := if x.arm then { x with arm := false, done := false } else { x with done := true }

/-- A ring whose open buffer, if one is open, has been written back (R542). -/
def Ring.closed (x : Ring) : Ring :=
  if x.buf.isSome then Ring.completed { x with buf := none, lost := false, head := (x.head + 1) % 65536 } else x

/-- A ring after a write of EN = 0 (R564). -/
def Ring.disabled (x : Ring) : Ring :=
  let y := if x.error then x else x.closed
  { y with cfg := setFld y.cfg 31 31 0, buf := none }

theorem Ring.en_disabled (x : Ring) : x.disabled.en = false := by
  have h : ∀ w, fld (setFld w 31 31 0) 31 31 = 0 := fun w => fld_setFld_same w 31 31 0 (Nat.le_refl _) (by decide)
  rw [Ring.en, bit, beq_eq_false_iff_ne]
  exact fun h1 => absurd ((h _).symm.trans h1) (by decide)

theorem RingStep.complete (p r : Nat) (a : Chan) : RingStep p r (a.ring p r).completed a (a.complete p r) := by
  unfold Chan.complete Ring.completed
  dsimp only
  split
  · exact (putRing p r _ a).emit rfl
  · exact putRing p r _ a

theorem RingStep.closeBuf (p r : Nat) (a : Chan) : RingStep p r (a.ring p r).closed a (a.closeBuf p r false) := by
  rw [Chan.closeBuf, Ring.closed]
  cases hb : (a.ring p r).buf with
  | none => exact refl p r a
  | some b =>
    have hput := putRing p r { a.ring p r with buf := none, lost := false, head := ((a.ring p r).head + 1) % 65536 } a
    exact (hput.emit rfl).trans_at (complete p r)

theorem RingStep.disableRing (p r : Nat) (a : Chan) : RingStep p r (a.ring p r).disabled a (a.disableRing p r) := by
  have hclose : RingStep p r (if (a.ring p r).error then a.ring p r else (a.ring p r).closed) a
      (if (a.ring p r).error then a else a.closeBuf p r false) := by
    split
    · exact refl p r a
    · exact closeBuf p r a
  exact hclose.trans_at (f := fun c => c.putRing p r { c.ring p r with cfg := setFld (c.ring p r).cfg 31 31 0, buf := none })
    (g := fun x => { x with cfg := setFld x.cfg 31 31 0, buf := none }) (fun c => putRing p r _ c)

theorem Chan.ring_disableRings (ch : Chan) (p : Nat) {r : Nat} (hr : r < 32) :
    (ch.disableRings p).ring p r = if (ch.ring p r).en = true then (ch.ring p r).disabled else ch.ring p r := by
  have hmem : r ∈ allBelow 32 (fun m => (ch.ring p m).en) ↔ (ch.ring p r).en = true := by rw [mem_allBelow, and_iff_right hr]
  rw [Chan.disableRings, Chan.each_at (fun c => c.ring p r) Ring.disabled (allBelow_nodup _ _) (fun c => (RingStep.disableRing p r c).ring)
    (fun c m _ hm => (RingStep.disableRing p m c).others r hm.symm)]
  simp only [hmem]

theorem Chan.disableRings_frame (ch : Chan) (p : Nat) :
    { ch.disableRings p with rings := [], outQ := [] } = { ch with rings := [], outQ := [] } :=
  Chan.each_frame (fun c => { c with rings := [], outQ := [] }) (fun c r => (RingStep.disableRing p r c).rest) _ ch

theorem Chan.disableRings_outs (ch : Chan) (p : Nat) : OnlyToHost ch.outQ → OnlyToHost (ch.disableRings p).outQ :=
  foldl_keeps (fun c => OnlyToHost c.outQ) _ (fun c r => (RingStep.disableRing p r c).outs) _ ch

theorem Chan.partReset_eq (ch : Chan) (p : Nat) :
    ch.partReset p = (ch.disableRings p).partFinish p ((ch.disableRings p).part p).clearCounts := rfl

theorem Chan.partReset_outs (ch : Chan) (p : Nat) (h : OnlyToHost ch.outQ) : OnlyToHost (ch.partReset p).outQ :=
  Chan.partFinish_outs _ _ _ (ch.disableRings_outs p h)

end Sys2Proof.Machine

namespace Sys2Proof.Proofs

open Sys2Proof Sys2Proof.Machine

/-- Settles O13 (R556): disabling rings leaves everything but the rings and the outputs, and each enabled ring is disabled once. -/
theorem partitionReset : Obligations.PartitionReset := by
  intro s c p hready hp hen hst ch
  obtain ⟨a, ha, hu⟩ := State.partCmd_chan (f := Chan.partReset) hready (by decide) hp hen
    (fun x w hx hpart => partCmdHook_reset _ hp hx (hpart ▸ hst)) (fun x => x.partReset_outs p)
  rw [Chan.partReset_eq] at hu
  generalize hs : s.partCmd (.func 0) c 3 p = u at hu
  have hring : ∀ r, r < 32 → (u.chan c).ring p r = if (ch.ring p r).en = true then (ch.ring p r).disabled else ch.ring p r := fun r hr => by
    rw [hu.ring, Chan.ring_partFinish, Chan.ring_disableRings _ _ hr, ha.ring]
  have hframe := a.disableRings_frame p
  refine ⟨u, congrArg Host.Outcome.next hs, fun r hr => ?_, fun r hr => ?_, ?_, fun q hq => ⟨?_, ?_⟩, ?_, ?_⟩
  · rw [hring r hr, (RingStep.disableRing p r ch).ring]
  · rw [hring r hr]
    split
    · exact Ring.en_disabled _
    · next h => exact Bool.eq_false_of_not_eq_true h
  · calc (u.chan c).part p
        = ((a.disableRings p).part p).clearCounts := (hu.part p).trans (Chan.part_partFinish _ _ _)
      _ = (a.part p).clearCounts := congrArg (fun x => (x.part p).clearCounts) hframe
      _ = (ch.part p).clearCounts := by rw [ha.part]
  · calc (u.chan c).portPart q
        = (a.disableRings p).portPart q := (hu.portPart q).trans (Chan.portPart_partFinish _ _ _ q)
      _ = a.portPart q := congrArg (fun x => x.portPart q) hframe
      _ = ch.portPart q := ha.portPart q
  · calc (u.chan c).portF q LINE.PORT_CTRL_DISCARD
        = (a.disableRings p).portF q LINE.PORT_CTRL_DISCARD := (hu.portDiscard hq).trans (Chan.portDiscard_partFinish _ _ _ hq)
      _ = a.portF q LINE.PORT_CTRL_DISCARD := congrArg (fun x => x.portF q LINE.PORT_CTRL_DISCARD) hframe
      _ = ch.portF q LINE.PORT_CTRL_DISCARD := ha.portDiscard hq
  · calc (u.chan c).cad
        = (a.disableRings p).cad := hu.cad.trans (Chan.cad_partFinish _ _ _)
      _ = a.cad := congrArg (fun x => x.cad) hframe
      _ = ch.cad := ha.cad
  · calc (u.chan c).tbl
        = (a.disableRings p).tbl := hu.tbl.trans (Chan.tbl_partFinish _ _ _)
      _ = a.tbl := congrArg (fun x => x.tbl) hframe
      _ = ch.tbl := ha.tbl

end Sys2Proof.Proofs
end

section
set_option Elab.async false
/-! What every command keeps (R2, R16): the queue and the variant, outputs only added, channels delivered, absent channels inert; and of a command
about one channel, that it stays in that channel. -/

namespace Sys2Proof.Machine

/-- What holds from before to after of every command: it leaves the queue and the variant, only adds outputs, and keeps the invariants. -/
structure Tame (s t : State) : Prop where
  pending : t.pending = s.pending
  variant : t.variant = s.variant
  out : s.out <:+ t.out
  delivered : Delivered s → Delivered t
  absent : AbsentInert s → AbsentInert t

/-- Confined to channel `c`, which keeps its outputs delivered, and is left alone where the variant lacks it. -/
structure Within (s t : State) (c : Fin 4) : Prop extends Confined s t c where
  own : (s.chan c).outQ = [] → (t.chan c).outQ = []
  lacking : s.hasChan c = false → t.chan c = s.chan c

/-- The variant has channel 0 (R2). -/
theorem State.hasChan_zero (s : State) : s.hasChan 0 = true := by
  unfold State.hasChan Variant.channels
  cases s.variant <;> rfl

theorem Tame.refl (s : State) : Tame s s := ⟨rfl, rfl, List.suffix_refl _, id, id⟩

theorem Tame.trans {s t u : State} (h : Tame s t) (k : Tame t u) : Tame s u where
  pending := k.pending.trans h.pending
  variant := k.variant.trans h.variant
  out := h.out.trans k.out
  delivered := k.delivered ∘ h.delivered
  absent := k.absent ∘ h.absent

theorem State.hasChan_congr {s t : State} (h : t.variant = s.variant) (c : Fin 4) : t.hasChan c = s.hasChan c := by
  simp only [State.hasChan, h]

/-- A command that leaves every channel as it was. -/
theorem Tame.of_chans {s t : State} (hp : t.pending = s.pending) (hv : t.variant = s.variant) (ho : s.out <:+ t.out)
    (hc : t.chans = s.chans) : Tame s t := by
  have e : ∀ d, t.chan d = s.chan d := fun d => by simp only [State.chan, hc]
  exact ⟨hp, hv, ho, fun h d => (congrArg Chan.outQ (e d)).trans (h d), fun h d hd => (e d).trans (h d (State.hasChan_congr hv d ▸ hd))⟩

namespace Within

variable {s t u : State} {c : Fin 4}

theorem refl (s : State) (c : Fin 4) : Within s s c := ⟨.refl s c, id, fun _ => rfl⟩

theorem trans (h : Within s t c) (k : Within t u c) : Within s u c where
  toConfined := h.toConfined.trans k.toConfined
  own := k.own ∘ h.own
  lacking hc := (k.lacking ((State.hasChan_congr h.variant c).trans hc)).trans (h.lacking hc)

theorem tame (h : Within s t c) : Tame s t where
  pending := h.pending
  variant := h.variant
  out := h.out
  delivered hd := h.delivered (h.own (hd c)) hd
  absent ha d hd := by
    have hs : s.hasChan d = false := (State.hasChan_congr h.variant d).symm.trans hd
    rw [← ha d hs]
    by_cases e : d = c
    · exact e ▸ h.lacking (e ▸ hs)
    · refine h.others d e fun hz => ?_
      rw [hz, State.hasChan_zero] at hs
      cases hs

/-- What leaves every channel as it was, with PACKAGE_FATAL, is within any channel. -/
theorem of_chans (h : Confined s t c) (hc : t.chans = s.chans) : Within s t c := by
  have e : t.chan c = s.chan c := by simp only [State.chan, hc]
  exact ⟨h, fun ho => e ▸ ho, fun _ => e⟩

theorem onIsl (s : State) (c : Fin 4) (f : Isl → Isl) (hf : (f s.isl).pkgFatal = s.isl.pkgFatal) : Within s (s.onIsl f) c :=
  of_chans (.onIsl s c f hf) rfl

theorem emit (s : State) (c : Fin 4) (x : Out) : Within s (s.emit x) c := of_chans (.emit s c x) rfl

/-- An update of a channel that the variant has, and that puts nothing out. -/
theorem setChan {ch : Chan} (hc : s.hasChan c = true) (ho : (s.chan c).outQ = [] → ch.outQ = []) : Within s (s.setChan c ch) c where
  toConfined := .setChan s c ch
  own h := by rw [State.chan_setChan_same]; exact ho h
  lacking h := by rw [hc] at h; cases h

/-- A confined effect on a channel that the variant has, whose outputs are delivered. -/
theorem of_present (h : Confined s t c) (ho : (s.chan c).outQ = [] → (t.chan c).outQ = []) (hc : s.hasChan c = true) : Within s t c :=
  ⟨h, ho, fun hn => by rw [hc] at hn; cases hn⟩

theorem runChan (s : State) {c : Fin 4} (f : Chan → Chan) (hc : s.hasChan c = true) : Within s (s.runChan c f) c :=
  of_present (s.runChan_confined c f) (fun _ => s.runChan_outQ c f) hc

end Within

theorem Within.ite {s t u : State} {c : Fin 4} {p : Prop} [Decidable p] (ht : p → Within s t c) (hu : ¬ p → Within s u c) :
    Within s (if p then t else u) c := by
  split
  · exact ht ‹_›
  · exact hu ‹_›

theorem Tame.ite {s t u : State} {p : Prop} [Decidable p] (ht : p → Tame s t) (hu : ¬ p → Tame s u) : Tame s (if p then t else u) := by
  split
  · exact ht ‹_›
  · exact hu ‹_›

theorem Tame.foldl {α : Type} {f : State → α → State} (h : ∀ s a, Tame s (f s a)) : ∀ (l : List α) (s : State), Tame s (l.foldl f s)
  | [], s => .refl s
  | a :: l, s => (h s a).trans (foldl h l (f s a))

theorem Tame.onIsl (s : State) (f : Isl → Isl) : Tame s (s.onIsl f) := .of_chans rfl rfl (List.suffix_refl _) rfl

theorem Tame.emit (s : State) (x : Out) : Tame s (s.emit x) := .of_chans rfl rfl (List.suffix_cons _ _) rfl

theorem Within.foldl {α : Type} {c : Fin 4} {f : State → α → State} (h : ∀ s a, Within s (f s a) c) :
    ∀ (l : List α) (s : State), Within s (l.foldl f s) c
  | [], s => .refl s c
  | a :: l, s => (h s a).trans (foldl h l (f s a))

/-! A channel that runs, or shows its pages, is one that the variant has. -/

theorem State.hasChan_of_chLive {s : State} {c : Fin 4} (h : s.chLive c = true) : s.hasChan c = true := by
  simp only [State.chLive, Bool.and_eq_true] at h
  exact h.1.1

theorem State.hasChan_of_chPages {s : State} {c : Fin 4} (h : s.chPages c = true) : s.hasChan c = true := by
  simp only [State.chPages, Bool.and_eq_true] at h
  exact h.1.1

theorem State.onLive_within (s : State) (c : Fin 4) (f : Chan → Chan) : Within s (s.onLive c f) c := by
  unfold State.onLive
  split
  · next h => exact .runChan s f (State.hasChan_of_chLive h)
  · exact .refl s c

theorem State.onKeeper_within (s : State) (c : Fin 4) (f : Chan → Chan) : Within s (s.onKeeper c f) c := by
  unfold State.onKeeper
  split
  · next h => exact .runChan s f (State.hasChan_of_chLive h)
  split
  · next h => exact .runChan s _ (State.hasChan_of_chPages (Bool.and_eq_true_iff.1 h).1)
  · exact .refl s c

/-! The host island's causes, journal entries and counters. -/

theorem State.islRaiseMask_within (s : State) (c : Fin 4) (p m : Nat) : Within s (s.islRaiseMask p m) c :=
  .of_chans (s.islRaiseMask_confined c p m) (s.islRaiseMask_chans p m)

theorem State.islRaise_within (s : State) (c : Fin 4) (p b : Nat) : Within s (s.islRaise p b) c := s.islRaiseMask_within c p _

theorem State.islTally_within (s : State) (c : Fin 4) (p code : Nat) (a : Attr) (n : Nat) : Within s (s.islTally p code a n) c :=
  .of_chans (s.islTally_confined c p code a n) (s.islTally_chans p code a n)

theorem State.reject_within (s : State) (c : Fin 4) (kind : Nat) (rd : Bool) (f addr : Nat) : Within s (s.reject kind rd f addr) c :=
  .of_chans (s.reject_confined c kind rd f addr) (s.reject_chans kind rd f addr)

theorem State.unimpl_within (s : State) (c : Fin 4) : Within s s.unimpl c := .onIsl s c _ rfl

theorem State.pageIrq_within (s : State) (c : Fin 4) (m : MsiSrc) : Within s (s.pageIrq m) c :=
  .of_chans (s.pageIrq_confined c m) (s.pageIrq_chans m)

theorem State.setChState_within (s : State) (c : Fin 4) (n st : Nat) : Within s (s.setChState n st) c :=
  .of_chans (s.setChState_confined c n st) (s.setChState_chans n st)

/-- An entry of the host island in channel 0's journal is within any channel's command (R121, R619). -/
theorem State.islJournal_within (s : State) (c : Fin 4) (page cls ev detail : Nat) : Within s (s.islJournal page cls ev detail) c := by
  obtain ⟨hne, -, ho⟩ := s.islJournal_chan page cls ev detail c
  refine ⟨s.islJournal_confined c page cls ev detail, fun h => ?_, fun h => hne ?_⟩
  · by_cases hz : c = 0
    · subst hz
      exact ho h
    · rwa [hne hz]
  · rintro rfl
    rw [State.hasChan_zero] at h
    cases h

theorem State.islCapture_within (s : State) (c : Fin 4) (p cls cause addr syn det : Nat) :
    Within s (s.islCapture p cls cause addr syn det) c := by
  have hput : ∀ (l : List Nat) (i : Isl) (off : Nat), (i.putList p off l).pkgFatal = i.pkgFatal := by
    intro l
    induction l with
    | nil => exact fun _ _ => rfl
    | cons v l ih => exact fun i off => ih _ _
  unfold State.islCapture
  split
  · exact .refl s c
  split
  · split
    · exact .onIsl s c _ rfl
    · exact .onIsl s c _ (hput _ _ _)
  · exact .refl s c

theorem State.fatalChan_within (s : State) (c : Fin 4) (cause : Nat) (off : Bool) : Within s (s.fatalChan c cause off) c where
  toConfined := s.fatalChan_confined c cause off
  own := s.fatalChan_outQ c cause off
  lacking h := by simp [State.fatalChan, h]

theorem State.settle_within (s : State) (c : Fin 4) : Within s (s.settle c) c := by
  unfold State.settle
  split
  · exact .refl s c
  next h =>
    have hc : s.hasChan c = true := by
      by_contra hn
      exact h (.inl (Bool.eq_false_of_not_eq_true hn))
    dsimp only
    split
    · split
      · exact s.setChState_within c _ _
      · exact .refl s c
    · exact ((Within.setChan hc (fun _ => rfl)).trans (.onIsl _ c _ rfl)).trans (State.setChState_within _ c _ _)

/-! Register accesses. -/

theorem State.setLatch_within {s : State} (r : Req) {c : Fin 4} (l : Latch) (hc : s.hasChan c = true) : Within s (s.setLatch r c l) c := by
  refine .of_present (s.setLatch_confined r c l) (fun h => ?_) hc
  cases r with
  | func n => exact h
  | jtag => exact h
  | keeperA => rw [State.setLatch, State.chan_setChan_same]; exact h
  | keeperB => rw [State.setLatch, State.chan_setChan_same]; exact h
  | smbus => exact h

/-- A requester that is no keeper holds its latch on the host island. -/
theorem State.setLatch_chans (s : State) {r : Req} (c : Fin 4) (l : Latch) (hr : r.keeper? = none) : (s.setLatch r c l).chans = s.chans := by
  cases r with
  | keeperA => cases hr
  | keeperB => cases hr
  | func n => rfl
  | jtag => rfl
  | smbus => rfl

theorem State.hookRun_within {s : State} {c : Fin 4} (off : Nat) (f : Chan → Chan) (hc : s.hasChan c = true) : Within s (s.hookRun c off f) c := by
  unfold State.hookRun State.onPages
  split <;> exact .runChan s _ hc

theorem State.onPages_within {s : State} {c : Fin 4} (f : Chan → Chan) (hc : s.hasChan c = true) : Within s (s.onPages c f) c :=
  .runChan s _ hc

theorem State.applyWrite_within {s : State} (hook : Hook) (judge : Bool) (r : Req) {c : Fin 4} (p : Pg) (off : Nat) (k : PageKind)
    (h : RegHit) (v : Word) (hc : s.hasChan c = true) : Within s (s.applyWrite hook judge r c p off k h v) c := by
  unfold State.applyWrite
  dsimp only
  split
  · split
    · exact s.setLatch_within r _ hc
    · exact .refl s c
  split
  · split
    · have hl := State.setLatch_within r {} hc
      have hc' := (State.hasChan_congr hl.variant c).trans hc
      split
      · exact hl.trans (.runChan _ _ hc')
      · exact hl.trans (State.hookRun_within _ _ hc')
    · split
      · exact .runChan s _ hc
      · exact s.hookRun_within _ _ hc
  · split
    · exact .runChan s _ hc
    · exact s.hookRun_within _ _ hc

/-- An effect in a channel that the variant has, after one within it. -/
theorem Within.andThen {s t u : State} {c : Fin 4} (h : Within s t c) (hc : s.hasChan c = true) (k : t.hasChan c = true → Within t u c) :
    Within s u c := h.trans (k ((State.hasChan_congr h.variant c).trans hc))

theorem State.keeperWrite_within (s : State) (hook : Hook) (judge : Bool) (kp : Nat) (c : Fin 4) (p : Pg) (off : Nat) (v : Word) :
    Within s (s.keeperWrite hook judge kp c p off v) c := by
  unfold State.keeperWrite
  split
  next hp =>
    have hc := State.hasChan_of_chPages hp.1
    split
    · exact .refl s c
    split
    · exact .refl s c
    dsimp only
    split
    · split
      · have ht := State.onPages_within (fun ch => ch.tally p 4 (Req.attr (if kp = 0 then .keeperA else .keeperB) none)) hc
        split
        · exact ht
        · exact ht.andThen hc (State.applyWrite_within _ _ _ _ _ _ _ _)
      · exact State.onPages_within _ hc
    · split
      · exact .refl s c
      · exact State.applyWrite_within _ _ _ _ _ _ _ _ hc
  · exact .refl s c

/-- A rejected host write is counted on the HOST page and by the page's tally unit (R49, R77). -/
theorem State.rejectTally_within {s t : State} {c : Fin 4} (h : Within s t c) (hc : s.hasChan c = true) (kind : Nat) (rd : Bool) (f addr : Nat)
    (g : Chan → Chan) : Within s ((t.reject kind rd f addr).onPages c g) c :=
  (h.trans (t.reject_within c _ _ _ _)).andThen hc (State.onPages_within _)

theorem State.hostWrite_within (s : State) (hook : Hook) (judge : Bool) (r : Req) (c : Fin 4) (p : Pg) (off : Nat) (v : Word) :
    Within s (s.hostWrite hook judge r c p off v) c := by
  unfold State.hostWrite
  split
  · exact s.unimpl_within c
  next hn =>
    have hc : s.hasChan c = true := Bool.eq_true_of_not_eq_false hn
    split
    · exact .refl s c
    split
    · exact s.unimpl_within c
    split
    · exact s.unimpl_within c
    dsimp only
    have ht := State.onPages_within (fun ch => ch.tally p 3 (r.attr ((s.chan c).partOf (r.func?.getD 0)))) hc
    split
    · exact State.rejectTally_within ht hc _ _ _ _ _
    split
    · exact State.rejectTally_within ht hc _ _ _ _ _
    split
    · exact State.rejectTally_within ht hc _ _ _ _ _
    · exact ht.andThen hc (State.applyWrite_within _ _ _ _ _ _ _ _)

theorem State.chanWrite_within (s : State) (hook : Hook) (judge : Bool) (r : Req) (c : Fin 4) (p : Pg) (off : Nat) (v : Word) :
    Within s (s.chanWrite hook judge r c p off v) c := by
  unfold State.chanWrite
  split
  · exact s.keeperWrite_within hook judge _ c p off v
  split
  · exact .refl s c
  · exact s.hostWrite_within hook judge r c p off v

end Sys2Proof.Machine
end

section
set_option Elab.async false
/-! Reads, doorbells, and writes of the host island's pages: what they keep. -/

namespace Sys2Proof.Machine

/-! Reads (R42–R48): a read changes latches, registers with RC fields, and what a tally unit counts. -/

theorem Chan.readClear_outQ (ch : Chan) (p : Pg) (off : Nat) : (ch.readClear p off).outQ = ch.outQ := by
  unfold Chan.readClear
  split
  · rfl
  split
  · rfl
  · rfl

theorem State.chanRead_within {s : State} {c : Fin 4} (hc : s.hasChan c = true) (r : Req) (p : Pg) (off : Nat) (h : RegHit) :
    Within s (s.chanRead (chanView c) r c p off h).2 c := by
  unfold State.chanRead
  dsimp only
  split
  · exact .setChan hc id
  split
  · exact .refl s c
  split
  · exact .refl s c
  split
  · exact .refl s c
  split
  · have hlatch := Within.ite (p := r = .smbus) (fun _ => Within.refl s c) (fun _ => State.setLatch_within r
      ⟨1, addrOf c.val p off, Chan.live64 (chanView c) (s.chan c) p off⟩ hc)
    exact hlatch.andThen hc fun hc' => .ite (fun _ => .setChan hc' id) (fun _ => .refl _ c)
  split
  · split <;> exact .refl s c
  · exact .ite (fun _ => .setChan hc fun h => (Chan.readClear_outQ _ p off).trans h) (fun _ => .refl s c)

theorem State.setLatch_tame (s : State) (r : Req) (l : Latch) : Tame s (s.setLatch r 0 l) :=
  (State.setLatch_within r l s.hasChan_zero).tame

theorem State.islRead_tame (s : State) (r : Req) (k : PageKind) (p off : Nat) (h : RegHit) : Tame s (s.islRead r k p off h).2 := by
  unfold State.islRead
  dsimp only
  split
  · exact .ite (fun _ => .refl s) (fun _ => s.setLatch_tame r _)
  split
  · split <;> exact .refl s
  · exact .ite (fun _ => .onIsl s _) (fun _ => .refl s)

theorem State.unimpl_tame (s : State) : Tame s s.unimpl := .onIsl s _

/-- A host read of a channel's register, once it is tallied: it is served, or rejected (R48). -/
theorem State.hostRead_within {s t : State} {c : Fin 4} (ht : Within s t c) (hc : s.hasChan c = true) (mayRead : Bool) (r : Req) (p : Pg)
    (off : Nat) (h : RegHit) (f addr : Nat) (g : Chan → Chan) :
    Within s (if mayRead then t.chanRead (chanView c) r c p off h else (0, (t.reject 2 true f addr).onPages c g)).2 c := by
  split
  · exact ht.andThen hc fun hc' => State.chanRead_within hc' r p off h
  · exact State.rejectTally_within ht hc 2 true f addr g

/-- A host read of a register of the host island, once it is tallied: PF0 is served, and another function rejected (R48). -/
theorem State.hostIslRead_tame {s t : State} (ht : Tame s t) (mayRead : Bool) (r : Req) (k : PageKind) (p off : Nat) (h : RegHit)
    (f addr : Nat) (a : Attr) :
    Tame s (if mayRead then t.islRead r k p off h else (0, (t.reject 2 true f addr).islTally p 6 a)).2 := by
  split
  · exact ht.trans (t.islRead_tame r k p off h)
  · exact ht.trans ((t.reject_within 0 2 true f addr).trans (State.islTally_within _ 0 p 6 a 1)).tame

/-- A read of a register of channel `c` stays within that channel. -/
theorem State.readAt_within (s : State) (r : Req) {addr : Nat} {c : Fin 4} {p : Pg} {off : Nat} (hl : locate addr = .chan c p off) :
    Within s (s.readAt chanView r addr).2 c := by
  unfold State.readAt
  rw [hl]
  dsimp only
  split
  · split
    · next hp =>
      split
      · split
        · exact State.chanRead_within (State.hasChan_of_chPages hp.1) _ _ _ _
        · exact .refl s c
      · exact .refl s c
    · exact .refl s c
  · split
    · exact .refl s c
    split
    · exact .refl s c
    split
    · exact s.unimpl_within c
    next hn =>
      have hc : s.hasChan c = true := Bool.eq_true_of_not_eq_false hn
      split
      · exact .refl s c
      split
      · exact s.unimpl_within c
      split
      · exact s.unimpl_within c
      · exact State.hostRead_within (State.onPages_within _ hc) hc _ _ _ _ _ _ _ _

theorem State.readAt_tame (s : State) (r : Req) (addr : Nat) : Tame s (s.readAt chanView r addr).2 := by
  cases hl : locate addr with
  | chan c p off => exact (s.readAt_within r hl).tame
  | isl p off =>
    unfold State.readAt
    rw [hl]
    dsimp only
    split
    · exact .refl s
    · split
      · exact .refl s
      split
      · exact .refl s
      split
      · exact State.hostIslRead_tame (s.islTally_within 0 _ 2 _ 1).tame _ _ _ _ _ _ _ _ _
      · exact s.unimpl_tame
  | hole =>
    unfold State.readAt
    rw [hl]
    dsimp only
    split
    · exact .refl s
    · split
      · exact .refl s
      split
      · exact .refl s
      · exact s.unimpl_tame

/-! The doorbell space (R540). -/

theorem State.doorbellRead_tame (s : State) (n : Nat) (c : Fin 4) (p off : Nat) : Tame s (s.doorbellRead n c p off).2 := by
  unfold State.doorbellRead
  split
  · exact .refl s
  split
  · exact s.unimpl_tame
  next hn =>
    have hc : s.hasChan c = true := Bool.eq_true_of_not_eq_false hn
    split
    · exact .refl s
    split
    · exact s.unimpl_tame
    split
    · split
      · dsimp only
        exact .onIsl s _
      split
      · exact .refl s
      · dsimp only
        split
        · exact Within.tame (.setChan hc id)
        · exact .refl s
    · dsimp only
      exact .onIsl s _

theorem State.doorbellWrite_within (s : State) (f : Nat) (c : Fin 4) (p r : Nat) (eff : Chan → Chan) :
    Within s (s.doorbellWrite f c p r eff) c := by
  unfold State.doorbellWrite
  split
  · exact .refl s c
  split
  · exact s.unimpl_within c
  next hn =>
    have hc : s.hasChan c = true := Bool.eq_true_of_not_eq_false (fun h => hn (.inl h))
    split
    · exact .refl s c
    split
    · exact .runChan s eff hc
    · exact .onIsl s c _ rfl

theorem State.doorbellPut_tame (s : State) (n : Nat) (c : Fin 4) (p off : Nat) (v : Word) : Tame s (s.doorbellPut n c p off v) := by
  unfold State.doorbellPut
  split
  · exact (s.doorbellWrite_within n c p _ _).tame
  split
  · exact (s.doorbellWrite_within n c p _ _).tame
  split
  · exact .refl s
  split
  · exact s.unimpl_tame
  split
  · exact .refl s
  split
  · exact s.unimpl_tame
  · exact .ite (fun _ => .refl s) (fun _ => .onIsl s _)

/-! Writes of the host island's pages (R42–R47). -/

/-- A host island register write with a hook that stays within a channel. -/
theorem State.islWrite_within {hook : IslHook} {c : Fin 4} (hhook : ∀ p off old v m s, Within s (hook p off old v m s) c) (s : State) (r : Req)
    (p off : Nat) (v : Word) : Within s (s.islWrite hook r p off v) c := by
  have hreject : ∀ (t : State) kind f addr a, Within t ((t.reject kind false f addr).islTally p 6 a) c := fun t _ _ _ _ =>
    (t.reject_within c _ _ _ _).trans (State.islTally_within _ c _ _ _ _)
  unfold State.islWrite
  split
  · exact .refl s c
  next hr =>
    have hlatch : ∀ (t : State) l, Within t (t.setLatch r 0 l) c := fun t l => by
      refine .of_chans ?_ (t.setLatch_chans 0 l hr)
      cases r with
      | keeperA => cases hr
      | keeperB => cases hr
      | func n => exact .onIsl t c (fun i => { i with latches := tput {} i.latches n l }) rfl
      | jtag => exact .onIsl t c (fun i => { i with latches := tput {} i.latches 0 l }) rfl
      | smbus => exact .refl t c
    split
    · exact .refl s c
    split
    · exact .refl s c
    split
    · have ht := s.islTally_within c p 3 (r.attr none) 1
      dsimp only
      generalize s.islTally p 3 (r.attr none) = t at ht ⊢
      refine ht.trans ?_
      split
      · exact hreject t _ _ _ _
      split
      · exact hreject t _ _ _ _
      split
      · exact .ite (fun _ => hlatch t _) (fun _ => .refl t c)
      split
      · split
        · exact ((hlatch t _).trans (.onIsl _ c _ rfl)).trans (.onIsl _ c _ rfl)
        · exact .onIsl t c _ rfl
      split
      · exact (t.islCapture_within c p _ _ _ _ _).trans (State.islRaise_within _ c p _)
      · exact hhook p off _ _ _ t
    · exact s.unimpl_within c

/-- Messages that were held and can be sent. -/
theorem State.sendHeld_within (s : State) (c : Fin 4) : Within s s.sendHeld c := by
  refine Within.foldl (fun t src => ?_) _ _
  dsimp only
  split
  · split
    · exact (Within.onIsl t c _ rfl).trans (.emit _ c _)
    · exact .onIsl t c _ rfl
  · exact .refl t c

theorem Isl.clearCause_pkgFatal (i : Isl) (p m : Nat) : (i.clearCause p m).pkgFatal = i.pkgFatal := by
  unfold Isl.clearCause
  dsimp only
  split <;> rfl

theorem Isl.putList_pkgFatal (p : Nat) : ∀ (l : List Nat) (i : Isl) (off : Nat), (i.putList p off l).pkgFatal = i.pkgFatal
  | [], _, _ => rfl
  | _ :: l, _, _ => Isl.putList_pkgFatal p l _ _

theorem State.putList_within (s : State) (c : Fin 4) (p off : Nat) (l : List Nat) : Within s (s.onIsl (fun i => i.putList p off l)) c :=
  .onIsl s c _ (Isl.putList_pkgFatal p l s.isl off)

theorem State.islSoftReset_within (s : State) (c : Fin 4) (k : PageKind) (p : Nat) : Within s (s.islSoftReset k p) c := by
  unfold State.islSoftReset
  split
  · exact .refl s c
  · refine .onIsl s c _ ?_
    dsimp only
    rw [Isl.clearCause_pkgFatal]
    split <;> split <;> split <;> split <;> rfl

/-- The hook of CH_CTRL: the channel comes to the state asked for, and channel 0's journal may take it (R599, R616). -/
theorem chCtrlHook_within (c : Fin 4) (p off : Nat) (old v m : Word) (s : State) : Within s (chCtrlHook c p off old v m s) c := by
  have hset := (Within.onIsl s c (fun i => i.put p off m) rfl).trans (State.settle_within _ c)
  unfold chCtrlHook
  dsimp only
  have hreset := Within.ite (p := bit m 31 = true ∧ bit old 31 = false ∧ ((s.onIsl fun i => i.put p off m).settle c).chState c = 5 ∧ s.chState c ≠ 5)
    (fun _ => hset.trans (State.islJournal_within _ c hpPwr clsNone 1 (c.val + 2 ^ 8))) (fun _ => hset)
  split
  · exact hreset.trans (State.islJournal_within _ c _ _ _ _)
  split
  · exact hreset.trans (State.islJournal_within _ c _ _ _ _)
  · exact hreset

theorem jtagCtrlHook_within (c : Fin 4) (p off : Nat) (old v m : Word) (s : State) : Within s (jtagCtrlHook p off old v m s) c := by
  have hput := Within.onIsl s c (fun i => i.put p off m) rfl
  exact .ite (p := bit v 0 = true) (fun _ => hput.trans (.onIsl _ c (fun i => i.putF hpPwr PWRH.JTAG_STAT_UNLOCKED 0) (Isl.putF_pkgFatal _ _ _ _))) (fun _ => hput)

theorem relayCtrlHook_within (d c : Fin 4) (p off : Nat) (old v m : Word) (s : State) : Within s (relayCtrlHook d p off old v m s) c := by
  have hput := Within.onIsl s c (fun i => i.put p off m) rfl
  exact .ite (p := bit v 30 = true) (fun _ => hput.trans (.onIsl _ c (fun i => i.putF hpRelay (RELAY.LINK_STAT_STATE d.val) 0) (Isl.putF_pkgFatal _ _ _ _)))
    (fun _ => hput)

section
variable (c : Fin 4) (p off : Nat) (old v m : Word) (s : State)

theorem islCtrlHook_within (k : PageKind) : Within s (islCtrlHook k p off old v m s) c := by
  have hput := Within.onIsl s c (fun i => i.put p off (ctrlWord k v)) rfl
  have hheld := Within.ite (p := k = .host ∧ bit v 0 = true ∧ bit old 0 = false) (fun _ => hput.trans (State.sendHeld_within _ c)) (fun _ => hput)
  unfold islCtrlHook
  exact .ite (fun _ => hheld.trans (State.islSoftReset_within _ c k p)) (fun _ => hheld)

theorem islEnableHook_within (k : PageKind) : Within s (islEnableHook k p off old v m s) c := by
  have hput := Within.onIsl s c (fun i => i.putN p oENABLE (Nat.land v.toNat k.cap.causeMask)) rfl
  unfold islEnableHook
  exact .ite (fun _ => hput.trans (State.pageIrq_within _ c _)) (fun _ => hput)

theorem islErrHook_within : Within s (islErrHook p off old v m s) c :=
  Within.ite (p := bit v 31 = true) (fun _ => s.putList_within c p (oERR 0) [0, 0, 0, 0, 0, 0, 0, 0]) (fun _ => .refl s c)

theorem islTallyHook_eq : islTallyHook p off old v m s =
    if bit v 1 then (((s.onIsl (fun i => i.put p off m)).onIsl (fun i => i.putList p (oCNT 0) (List.replicate 16 0))).onIsl
      (fun i => i.putN p oOVF 0)) else s.onIsl (fun i => i.put p off m) := by
  unfold islTallyHook
  split <;> rfl

theorem islTallyHook_within : Within s (islTallyHook p off old v m s) c := by
  have hput := Within.onIsl s c (fun i => i.put p off m) rfl
  rw [islTallyHook_eq]
  exact .ite (fun _ => (hput.trans (State.putList_within _ c p _ _)).trans (.onIsl _ c _ rfl)) (fun _ => hput)

end

/-- A hook whose effect stays within one channel, whatever is written. -/
def IslHook.Local (h : IslHook) : Prop := ∃ c, ∀ p off old v m s, Within s (h p off old v m s) c

theorem IslHook.Local.ite {h g : IslHook} {q : Prop} [Decidable q] (hh : h.Local) (hg : g.Local) : IslHook.Local (if q then h else g) := by
  by_cases hq : q
  · rwa [if_pos hq]
  · rwa [if_neg hq]

theorem plainIsl_local : IslHook.Local plainIsl := ⟨0, fun _ _ _ _ _ s => .onIsl s 0 _ rfl⟩

/-- Whatever a register of the host island does when it is written stays within one channel. -/
theorem islHookOf_local (p off : Nat) : (islHookOf p off).Local := by
  unfold islHookOf
  cases hpKind p with
  | none => exact plainIsl_local
  | some k =>
    have hctrl : (islCtrlHook k).Local := ⟨0, fun p o old v m s => islCtrlHook_within 0 p o old v m s k⟩
    have hcause : (islCauseHook k).Local := ⟨0, fun _ _ _ _ _ s => .onIsl s 0 _ (Isl.clearCause_pkgFatal _ _ _)⟩
    have henable : (islEnableHook k).Local := ⟨0, fun p o old v m s => islEnableHook_within 0 p o old v m s k⟩
    have hforce : (islForceHook k).Local := ⟨0, fun _ _ _ _ _ s => s.islRaiseMask_within 0 _ _⟩
    refine .ite hctrl (.ite hcause (.ite henable (.ite hforce (.ite ⟨0, islErrHook_within 0⟩ (.ite ⟨0, islTallyHook_within 0⟩ ?_)))))
    cases k with
    | pwrH =>
      dsimp only
      split
      · exact ⟨_, chCtrlHook_within _⟩
      · exact .ite ⟨0, jtagCtrlHook_within 0⟩ plainIsl_local
    | relay =>
      dsimp only
      split
      · exact ⟨0, relayCtrlHook_within _ 0⟩
      · exact plainIsl_local
    | _ => exact plainIsl_local

/-! Register accesses by address. -/

theorem State.pageWrite_within (s : State) (r : Req) (c : Fin 4) (p : Pg) (off : Nat) (v : Word) : Within s (s.pageWrite r c p off v) c :=
  s.chanWrite_within _ _ r c p off v

theorem State.busRead_tame (s : State) (r : Req) (addr : Nat) : Tame s (s.busRead r addr).2 := by
  unfold State.busRead
  split
  · exact s.doorbellRead_tame _ _ _ _
  · exact s.readAt_tame _ addr

theorem State.busWrite_tame (s : State) (r : Req) (addr : Nat) (v : Word) : Tame s (s.busWrite r addr v) := by
  unfold State.busWrite
  split
  · exact s.doorbellPut_tame _ _ _ _ _
  split
  · next p off _ =>
    obtain ⟨c, h⟩ := islHookOf_local p off
    exact (State.islWrite_within h s _ p off v).tame
  · exact (s.pageWrite_within _ _ _ _ v).tame
  · exact .ite (fun _ => .refl s) (fun _ => s.unimpl_tame)

theorem State.readCmd_tame (s : State) (r : Req) (addr : Nat) : Tame s (s.readCmd r addr) :=
  (s.busRead_tame r addr).trans (.emit _ _)

end Sys2Proof.Machine
end

section
set_option Elab.async false
/-! The commands about the package, and those that follow a channel's power and its links: what they keep. -/

namespace Sys2Proof.Machine

theorem State.onAllLive_tame (s : State) (f : Chan → Chan) : Tame s (s.onAllLive f) :=
  (((s.onLive_within 0 f).tame.trans (State.onLive_within _ 1 f).tame).trans (State.onLive_within _ 2 f).tame).trans
    (State.onLive_within _ 3 f).tame

/-- A power-on reset clears every output that waits, and leaves an untouched channel untouched (R596). -/
theorem State.powerOnReset_tame (s : State) : Tame s s.powerOnReset where
  pending := rfl
  variant := rfl
  out := List.suffix_refl _
  delivered _ d := by fin_cases d <;> rfl
  absent h d hd := by
    have hfresh : s.powerOnReset.chan d = (s.chan d).fresh := by fin_cases d <;> rfl
    rw [hfresh, h d hd]
    fin_cases d <;> rfl

theorem State.powered_tame (s : State) (on : Bool) : Tame s { s with isl := { s.isl with powered := on } }.powerOnReset :=
  (Tame.onIsl s (fun i => { i with powered := on })).trans (State.powerOnReset_tame _)

/-- Latching the straps sets the preference of the channels that the variant has (R603). -/
theorem State.latchStraps_tame (s : State) (straps : Nat) : Tame s (s.latchStraps straps) := by
  have hchan : ∀ d : Fin 4, (s.latchStraps straps).chan d =
      if d.val < s.variant.channels then { s.chan d with pref := straps % 2 } else s.chan d := fun d => by
    simp [State.latchStraps, State.chan]
  refine ⟨rfl, rfl, List.suffix_refl _, fun h d => ?_, fun h d hd => ?_⟩
  · rw [hchan]
    split <;> exact h d
  · have hlt : ¬ d.val < s.variant.channels := of_decide_eq_false hd
    rw [hchan, if_neg hlt]
    exact h d hd

theorem State.pwrgoodRise_tame (s : State) (straps : Nat) : Tame s ((((s.latchStraps straps).settle 0).settle 1).settle 2 |>.settle 3) :=
  ((((s.latchStraps_tame straps).trans (State.settle_within _ 0).tame).trans (State.settle_within _ 1).tame).trans
    (State.settle_within _ 2).tame).trans (State.settle_within _ 3).tame

theorem State.packageFatal_tame (s : State) (cause : Nat) (off : Bool) : Tame s (s.packageFatal cause off) :=
  ((((Tame.onIsl s _).trans (State.fatalChan_within _ 0 _ _).tame).trans (State.fatalChan_within _ 1 _ _).tame).trans
    (State.fatalChan_within _ 2 _ _).tame).trans (State.fatalChan_within _ 3 _ _).tame

theorem State.packageFatal_pkgFatal (s : State) (cause : Nat) (off : Bool) : (s.packageFatal cause off).isl.pkgFatal = true :=
  ((State.fatalChan_within _ 3 _ _).pkgFatal.trans ((State.fatalChan_within _ 2 _ _).pkgFatal.trans
    ((State.fatalChan_within _ 1 _ _).pkgFatal.trans (State.fatalChan_within _ 0 _ _).pkgFatal)))

theorem State.inputFault_tame (s : State) (code : Nat) : Tame s (s.inputFault code) :=
  .ite (p := s.isl.powered = true) (fun _ => (Tame.onIsl s _).trans (State.packageFatal_tame _ 4 true)) (fun _ => .refl s)

theorem State.islandReset_tame (s : State) : Tame s s.islandReset := by
  unfold State.islandReset
  refine Tame.trans ?_ (State.onAllLive_tame _ Chan.stopAllRings)
  exact .of_chans rfl rfl (List.suffix_refl _) rfl

/-! Functions of the endpoint (R534, R535). -/

theorem State.flrOne_tame (s : State) (f : Nat) : Tame s (s.flrOne f) :=
  ((s.onAllLive_tame _).trans (.onIsl _ _)).trans (State.islRaise_within _ 0 _ _).tame

theorem State.disableVfs_tame (s : State) : Tame s s.disableVfs :=
  .ite (p := s.isl.vfEnable = true) (fun _ => (Tame.foldl (fun t k => t.flrOne_tame (k + 1)) _ s).trans (.onIsl _ _)) (fun _ => .refl s)

/-! The relay links (R23–R26). -/

theorem State.relayJournal_within (s : State) (c : Fin 4) (cls ev detail : Nat) (both : Bool) :
    Within s (s.relayJournal c cls ev detail both) c :=
  have hj := s.islJournal_within c hpRelay cls ev detail
  .ite (p := both = true) (fun _ => hj.trans (State.onLive_within _ c _)) (fun _ => hj)

theorem State.relayDown_within (s : State) (c : Fin 4) (cause : Nat) : Within s (s.relayDown c cause) c := by
  unfold State.relayDown
  dsimp only
  exact (((Within.onIsl s c _ rfl).trans (State.islCapture_within _ c _ _ _ _ _ _)).trans (State.islRaise_within _ c _ _)).trans
    (State.relayJournal_within _ c _ _ _ _)

theorem State.relayTrain_within (s : State) (c : Fin 4) : Within s (s.relayTrain c) c := .onIsl s c _ rfl

/-! Fatal causes of a channel and of the package (R584, R587–R589). -/

theorem State.fatalJournalled_within (s : State) (c : Fin 4) (cause : Nat) : Within s (s.fatalJournalled c cause) c :=
  (s.onKeeper_within c _).trans (State.fatalChan_within _ c _ _)

theorem State.shutDie_within (s : State) (c : Fin 4) (d which : Nat) (rail : Bool) : Within s (s.shutDie c d which rail) c :=
  ((s.onKeeper_within c _).trans (State.fatalChan_within _ c _ _)).trans (State.islJournal_within _ c _ _ _ _)

theorem State.shutPackage_tame (s : State) (which : Nat) (rail : Bool) : Tame s (s.shutPackage which rail) :=
  (s.islJournal_within 0 _ _ _ _).tame.trans (State.packageFatal_tame _ _ _)

theorem State.pkgTemp_within (s : State) (c : Fin 4) (k v : Nat) : Within s (s.pkgTemp k v) c := by
  unfold State.pkgTemp
  dsimp only
  have hput := Within.onIsl s c (fun i => i.putN hpSens (SENS.TEMP k) (2 ^ 31 + v % 65536)) rfl
  have hwarn := Within.ite (p := atLeastC v (s.isl.getF hpSens SENS.THRESH_WARN) = true)
    (fun _ => hput.trans (State.islRaise_within _ c hpSens 8)) (fun _ => hput)
  have hcrit := Within.ite (p := atLeastC v (s.isl.getF hpSens SENS.THRESH_CRIT) = true)
    (fun _ => hwarn.trans (State.islRaise_within _ c hpSens 9)) (fun _ => hwarn)
  exact .ite (fun _ => ((hcrit.trans (.onIsl _ c _ rfl)).trans (.onIsl _ c _ rfl)).trans (State.islJournal_within _ c _ _ _ _))
    (fun _ => hcrit.trans (.onIsl _ c _ rfl))

theorem State.pkgRail_within (s : State) (c : Fin 4) (r mv st : Nat) : Within s (s.pkgRail r mv st) c := by
  unfold State.pkgRail
  dsimp only
  split
  · exact ((Within.onIsl s c _ rfl).trans (State.islRaise_within _ c _ _)).trans (State.islJournal_within _ c _ _ _ _)
  · exact .onIsl s c _ rfl

theorem State.inputWarn_within (s : State) (c : Fin 4) (mv watts : Nat) : Within s (s.inputWarn mv watts) c := by
  unfold State.inputWarn
  dsimp only
  split
  · exact ((Within.onIsl s c _ rfl).trans (State.islRaise_within _ c _ _)).trans (State.islJournal_within _ c _ _ _ _)
  · exact .onIsl s c _ rfl

/-! The test port (R613, R614). -/

theorem State.jtagRun_tame (s : State) (code : Nat) {f : State → State} (h : ∀ t, Tame t (f t)) : Tame s (s.jtagRun code f) := by
  have hir := Tame.onIsl s (fun i => { i with jtagIr := s.jtagCode code })
  unfold State.jtagRun
  split
  · exact .ite (fun _ => hir.trans (h _)) (fun _ => hir)
  · exact .refl s

theorem State.jtagFail_tame (s : State) : Tame s s.jtagFail := by
  unfold State.jtagFail State.jtagRefuse
  dsimp only
  refine Tame.trans ?_ (State.islJournal_within _ 0 _ _ _ _).tame
  split
  · exact (Tame.onIsl s _).trans (.onIsl _ _)
  · exact .onIsl s _

theorem State.jtagUnlock_tame (s : State) (nonce : Nat) : Tame s (s.jtagUnlock nonce) :=
  ((Tame.onIsl s _).trans (State.islRaise_within _ 0 _ _).tame).trans (State.islJournal_within _ 0 _ _ _ _).tame

/-- A response that is judged: refused, good or failed (R614). -/
theorem State.unlockResp_tame (s : State) (sigOk : Bool) : ∃ t, execUnlockResp sigOk s = .next t ∧ Tame s t := by
  refine ⟨_, rfl, s.jtagRun_tame _ fun t => ?_⟩
  have hnonce := Tame.onIsl t (fun i => { i with nonce := none })
  split
  · exact hnonce
  dsimp only
  split
  · exact hnonce.trans (State.islJournal_within _ 0 _ _ _ _).tame
  split
  · exact hnonce.trans (State.islJournal_within _ 0 _ _ _ _).tame
  split
  · exact hnonce.trans (State.jtagUnlock_tame _ _)
  · exact hnonce.trans (State.jtagFail_tame _)

end Sys2Proof.Machine
end

section
set_option Elab.async false
/-! Every command answers a next state (log 2), and what that state keeps. -/

namespace Sys2Proof.Machine

/-- A command about channel `c` stays within it, unless it takes the package down (R589); one about the package keeps the invariants. -/
def KeptBy (about : Option (Fin 4)) (s t : State) : Prop :=
  match about with
  | some c => Within s t c ∨ (Tame s t ∧ t.isl.pkgFatal = true)
  | none => Tame s t

theorem KeptBy.tame {about : Option (Fin 4)} {s t : State} (h : KeptBy about s t) : Tame s t := by
  cases about with
  | none => exact h
  | some c => exact h.elim Within.tame And.left

/-! The commands whose meaning is no single operation of the module. -/

theorem State.chRstAssert_within (s : State) (c : Fin 4) : ∃ t, execChRstAssert c s = .next t ∧ Within s t c := by
  have hset := (Within.onIsl s c (fun i => { i with chPin := setNbit i.chPin c.val true }) rfl).trans (State.settle_within _ c)
  exact ⟨_, rfl, .ite (fun _ => .ite (fun _ => hset.trans (State.islJournal_within _ c _ _ _ _)) (fun _ => hset)) (fun _ => .refl s c)⟩

theorem State.chRstRelease_within (s : State) (c : Fin 4) : ∃ t, execChRstRelease c s = .next t ∧ Within s t c :=
  ⟨_, rfl, .ite (fun _ => (Within.onIsl s c _ rfl).trans (State.settle_within _ c)) (fun _ => .refl s c)⟩

theorem State.chRailsGood_within (s : State) (c : Fin 4) : ∃ t, execChRailsGood c s = .next t ∧ Within s t c :=
  ⟨_, rfl, .ite (fun h => (Within.setChan (Bool.and_eq_true_iff.1 h).1 (fun _ => rfl)).trans (State.setChState_within _ c _ _))
    (fun _ => .refl s c)⟩

theorem State.bistDone_within (s : State) (c : Fin 4) (die : Fin 2) (b : BistIn) : ∃ t, execBistDone c die b s = .next t ∧ Within s t c := by
  refine ⟨_, rfl, .ite (fun h => ?_) (fun _ => .refl s c)⟩
  have hc : s.hasChan c = true := (Bool.and_eq_true_iff.1 (Bool.and_eq_true_iff.1 h).1).1
  have hbist := Within.runChan s (fun ch => ch.bist die.val b) hc
  refine .ite (fun _ => hbist.trans (State.fatalJournalled_within _ c 3)) (fun _ => .ite (fun _ => ?_) (fun _ => hbist))
  exact (hbist.andThen hc (.runChan _ _)).trans (State.setChState_within _ c _ _)

theorem State.refclkLoss_within (s : State) (c : Fin 4) : ∃ t, execRefclkLoss c s = .next t ∧ Within s t c :=
  ⟨_, rfl, .ite (fun _ => s.fatalJournalled_within c 3) (fun _ => .refl s c)⟩

/-- A sample of the package sensors may take the package down; one of a die stays within its channel (R584). -/
theorem State.sensorSample_kept (s : State) (c : Fin 4) (die : Fin 3) (temps : List Nat) (rails : List (Nat × Nat)) (mv ma pw : Nat) :
    ∃ t, execSensorSample c die temps rails mv ma pw s = .next t ∧ KeptBy (some c) s t := by
  refine ⟨_, rfl, ?_⟩
  split
  · split
    · dsimp only
      have hstart := Within.onIsl s c (fun i => { i with
        ns := max i.ns (nextSample i.sampleAt 1000000), sampleAt := max i.ns (nextSample i.sampleAt 1000000) + 1 }) rfl
      have htemps := hstart.trans (Within.foldl (f := fun t e => State.pkgTemp t e.1 e.2) (fun t e => t.pkgTemp_within c e.1 e.2)
        (numbered 0 (temps.take 24)) _)
      have hpkg := (htemps.trans (State.putList_within _ c hpSens (SENS.PKG 0) [mv, ma, pw])).trans
        (.onIsl _ c (fun i => i.putN hpSens SENS.TEMP_MAX (tempMax (temps.take 24))) rfl)
      have hrails := hpkg.trans (Within.foldl (f := fun t e => State.pkgRail t e.1 e.2.1 e.2.2)
        (fun t e => t.pkgRail_within c e.1 e.2.1 e.2.2) (numbered 0 (rails.take 16)) _)
      generalize (numbered 0 (rails.take 16)).foldl _ _ = t at hrails ⊢
      have hwarn := Within.ite (p := t.isl.getB hpPwr CTRL_ENABLE = true) (fun _ => hrails.trans (t.inputWarn_within c mv pw)) (fun _ => hrails)
      split
      · exact .inr ⟨hwarn.tame.trans (State.shutPackage_tame _ _ _), State.packageFatal_pkgFatal _ _ _⟩
      · exact .inl hwarn
    · exact .inl (.refl s c)
  · refine .inl (.ite (fun h => ?_) (fun _ => .refl s c))
    have hsample := State.onPages_within (fun ch => (ch.sensorSample die.val temps rails).powerSample die.val pw)
      (State.hasChan_of_chPages (Bool.and_eq_true_iff.1 h).1)
    dsimp only
    split
    · exact hsample.trans (State.shutDie_within _ c _ _ _)
    · exact hsample

theorem State.railShutdown_kept (s : State) (c : Fin 4) (die : Fin 3) (rail : Nat) :
    ∃ t, execRailShutdown c die rail s = .next t ∧ KeptBy (some c) s t := by
  refine ⟨_, rfl, ?_⟩
  split
  · split
    · exact .inr ⟨s.shutPackage_tame _ _, State.packageFatal_pkgFatal _ _ _⟩
    · exact .inl (.refl s c)
  · exact .inl (.ite (fun _ => s.shutDie_within c _ _ _) (fun _ => .refl s c))

theorem State.relayFlitRx_within (s : State) (c : Fin 4) (crcOk : Bool) : ∃ t, execRelayFlitRx c crcOk s = .next t ∧ Within s t c := by
  refine ⟨_, rfl, .ite (fun _ => .ite (fun _ => .onIsl s c _ rfl) (fun _ => .ite (fun _ => ?_) (fun _ => s.relayDown_within c 1)))
    (fun _ => .refl s c)⟩
  have hcount := Within.onIsl s c (fun i => { i.inc hpRelay (RELAY.REPLAY_CNT c.val) with
    relayRun := tput 0 i.relayRun c.val (tget 0 s.isl.relayRun c.val + 1) }) rfl
  exact .ite (fun _ => hcount.trans (State.islRaise_within _ c _ _)) (fun _ => hcount)

theorem State.relayRetrainDone_within (s : State) (c : Fin 4) (ok : Bool) : ∃ t, execRelayRetrainDone c ok s = .next t ∧ Within s t c :=
  ⟨_, rfl, .ite (fun _ => .ite (fun _ => ((Within.onIsl s c _ (Isl.putF_pkgFatal _ _ _ _)).trans (State.islRaise_within _ c _ _)).trans
    (State.relayJournal_within _ c _ _ _ _)) (fun _ => s.relayDown_within c 3)) (fun _ => .refl s c)⟩

theorem State.fwLoadDone_within (s : State) (c : Fin 4) (k : Fin 2) (header code : List Byte) (sigOk : Bool) (dma : Nat) :
    ∃ t, execFwLoadDone c k header code sigOk dma s = .next t ∧ Within s t c := by
  have hload := s.onKeeper_within c (fun ch => if ch.loading k.val then
    ch.fwLoadDone k.val (header ++ code) sigOk (if s.hostReach c then dma else max dma 1) else ch)
  exact ⟨_, rfl, .ite (fun _ => hload.trans (State.setChState_within _ c _ _)) (fun _ => hload)⟩

theorem State.laneRepair_within (s : State) (c : Fin 4) (dir : Fin 2) (m lane : Nat) :
    ∃ t, execLaneRepair c dir m lane s = .next t ∧ Within s t c :=
  ⟨_, rfl, .ite (fun h => .runChan s _ (State.hasChan_of_chPages
    (Bool.and_eq_true_iff.1 (Bool.and_eq_true_iff.1 (Bool.and_eq_true_iff.1 h).1).1).1)) (fun _ => .refl s c)⟩

theorem State.todSnapshot_within (s : State) (r : Req) (c : Fin 4) : ∃ t, execTodSnapshot r c s = .next t ∧ Within s t c := by
  have hloc : locate (addrOf c.val pgCosy 0x110) = .chan c pgCosy 0x110 := locate_addrOf c (p := pgCosy) rfl (by decide)
  refine ⟨_, rfl, Within.trans ?_ (.emit _ c _)⟩
  rw [State.busRead_addrOf s r c (p := pgCosy) rfl (by decide)]
  exact s.readAt_within r hloc

theorem State.pcieLinkTrained_tame (s : State) (speed width : Nat) (flit : Bool) :
    ∃ t, execPcieLinkTrained speed width flit s = .next t ∧ Tame s t := by
  refine ⟨_, rfl, .ite (fun _ => Tame.trans ?_ (State.sendHeld_within _ 0).tame) (fun _ => .refl s)⟩
  exact .ite (fun _ => ((Tame.onIsl s _).trans (State.islRaise_within _ 0 _ _).tame).trans (State.islJournal_within _ 0 _ _ _ _).tame)
    (fun _ => .onIsl s _)

theorem State.flr_tame (s : State) (f : Nat) : ∃ t, execFlr f s = .next t ∧ Tame s t :=
  ⟨_, rfl, .ite (fun _ => .refl s) (fun _ => .ite (fun _ => (s.disableVfs_tame.trans (State.flrOne_tame _ 0)).trans (.onIsl _ _))
    (fun _ => s.flrOne_tame f))⟩

theorem State.vfEnableChange_tame (s : State) (on : Bool) : ∃ t, execVfEnableChange on s = .next t ∧ Tame s t :=
  ⟨_, rfl, .ite (fun _ => .refl s) (fun _ => .ite (fun _ => .onIsl s _) (fun _ => s.disableVfs_tame))⟩

theorem State.msixUnmask_tame (s : State) (f vmask : Nat) : ∃ t, execMsixUnmask f vmask s = .next t ∧ Tame s t :=
  ⟨_, rfl, .ite (fun _ => .refl s) (fun _ => (Tame.onIsl s _).trans (State.sendHeld_within _ 0).tame)⟩

theorem State.softResetDone_tame (s : State) (addr : Nat) : ∃ t, execSoftResetDone addr s = .next t ∧ Tame s t := by
  refine ⟨_, rfl, ?_⟩
  split
  · exact .ite (fun _ => .onIsl s _) (fun _ => .refl s)
  · split
    · exact .ite (fun h => (Within.runChan s _ (State.hasChan_of_chPages h)).tame) (fun _ => .refl s)
    · exact .refl s
  · exact .refl s

theorem State.quiesceDone_tame (s : State) (addr : Nat) : ∃ t, execQuiesceDone addr s = .next t ∧ Tame s t := by
  refine ⟨_, rfl, ?_⟩
  split
  · split
    · exact (s.onLive_within _ _).tame
    · exact .refl s
  · exact .refl s

theorem State.unsupportedAccess_tame (s : State) (r : Req) (addr : Nat) : ∃ t, execUnsupportedAccess r addr s = .next t ∧ Tame s t := by
  refine ⟨_, rfl, ?_⟩
  split
  · exact .ite (fun _ => .emit s _) (fun _ => .refl s)
  · exact .refl s

theorem State.smbRead_tame (s : State) : ∃ t, execSmbRead s = .next t ∧ Tame s t :=
  ⟨_, rfl, .ite (fun _ => (s.readCmd_tame .smbus _).trans (.onIsl _ _)) (fun _ => .refl s)⟩

/-- An access of the test port, with PF0's rights (R614). -/
theorem State.regAccess_tame (s : State) (write : Bool) (addr : Nat) (data : Word) :
    ∃ t, execRegAccess write addr data s = .next t ∧ Tame s t :=
  ⟨_, rfl, s.jtagRun_tame _ fun t => .ite (p := write = true)
    (fun _ => ((Tame.emit t _).trans (State.busWrite_tame _ _ _ _)).trans (.onIsl _ _))
    (fun _ => ((Tame.emit t _).trans (State.busRead_tame _ _ _)).trans (.onIsl _ _))⟩

/-- Every command answers a next state; the case split is the dispatch's own. -/
theorem exec_kept (i : Instr) (s : State) : ∃ t, exec i s = .next t ∧ KeptBy i.chan s t := by
  have hwithin : ∀ {o : Host.Outcome State Fault Refusal} {c : Fin 4}, (∃ t, o = .next t ∧ Within s t c) →
      ∃ t, o = .next t ∧ KeptBy (some c) s t := fun ⟨t, ht, hw⟩ => ⟨t, ht, .inl hw⟩
  cases i with
  | oscThermSample | jrnlStreamEntry | oscFail | ppsInEdge | ppsMiss | todInFrame | todFrameAbandon | servoTimeout | hwHoldoverExpiry | ppsOutEdge 
  | todOutFrame | pour | gateSwap | calSwitch | slotPage | portEnable | sampler | pmBin | hbmRetrain | jrnlMarker | stageDone | discardSweepDone 
  | retire | retireSweepDone | pourTagSettle | rxFrame | fecUncorrCw | recalDone | linkTrained | ltFail | ltRetry | portFault | downHoldExpiry 
  | upHoldExpiry | laneMargin | pfcPauseExpiry | pfcWd | pfcXoffRepeat | preemptVerifyDone | frameLaunch | flexeMemberDefect | groupAligned | ohFrameRx
  | calSwitchInstant | caTimeout | slotCommitDone | pageSwitchInstant | slotParityErr | pmSecondLatch | dispatch | pZero | pNop | pDone | pExt | pExtf
  | pAdv | pEmit | pEmiti | pAlu | pAlui | pMovi | pHash | pCsum | pPtl | pBr | pBrx | pMatch | pLock | pTrylock | pUnlock | pMbw | pMbs | pMbr | pWfe
  | pSev | pTmr | pTime | pRdf | pWrf | lookupReturn | threadTimerExpiry | lockGrant | eventWake | reorderSkip | engineStall | clusterStall 
  | threadRegUe | instrPoison | breakpointHit | strainerDistribute | strainerStage | strainerVerdict | flushByPortDone | agingSweep | tblScrub 
  | ternScrub | divergenceConfirm | bankRotateDone | bufferAlloc | spillRequest | hbmWriteAck | admission | bufferFree | orphanSweep | flushComplete 
  | mcReplicate | holdWindowExpiry | egressQueueMap | schedRelease | nodeUe | swapStart | listUe | cellTx | cellRx | reasmTimeout | reasmResync 
  | laneLeaveActive | spareActivate | helloTx | helloLapse | creditSlot | creditReqRefresh | reqEntryExpiry | voqBalanceExpiry | hbmTrainDone 
  | hbmAccess | hbmRefresh | pauseTimeout | fastRetrainTick | retrainWindowEnd | drainSlow | descConsume | recordPost | packTimeout | quiesceStepDone 
  | quiesceStepTimeout | pendingTestStart | testDurationEnd | checkerLockLoss | bankTestDone | oscInReturns | portFaultClear | pfcWdRelease 
  | fabLaneTrained | fabLaneFault | clientRxLf | checkerLocked => exact ⟨_, rfl, .inl (s.onLive_within _ _)⟩
  | lockstepMismatch | selfDiagFail | keeperSramUe | keeperCycleBoundary | wdogForceClaim | copyPoint | claimWrite | repairCheckDone 
  | partnerAbsentTimeout | keeperBootDone | handoverClaimDrop | saucerLaneFail | saucerLinkUp => exact ⟨_, rfl, .inl (s.onKeeper_within _ _)⟩
  | keeperWrite | fwLoad | keepSoftReset | keepEnableWrite | getInfo | handover | jrnlMark | svnCommit | jrnlClear | jrnlUnfreeze | jrnlRdIdxWrite 
  | clkReturn | cosyStep | servoTick | cosyEnableWrite | setDefaultDs | setPortDs | getPortDs | addPeer | delPeer | getStatus | setTime | setTimeProps 
  | saveModel | loadModel | resetModel | arm | cancel | free | slotRdIdxWrite | stage | commit | discard | portCfgWrite | portEnWrite | portDiscardWrite
  | recal | restartAn | cntClear | laneCfgWrite | calSwitchReq | connMemWrite | slotCommit | slotSwitch | pmLatchAck | pmRead | pmReset | dbgHalt 
  | dbgResume | dbgStep | dbgDetach | dbgRegWrite | dbgEvent | dbgRegIdxWrite | ptblIdxWrite | tableCreate | tableDestroy | insert | update | delete 
  | tblLookup | search | next | flushByPort | ageSweep | learnFlush | bankRotate | bankRestore | bankRetire | shadowSet | compare | repair | bankStatus
  | freeCmd | regionAssign | regionMove | regionCancel | regionFence | regionUnfence | regionRetire | regionPurge | regionRdIdxWrite | acctPoolWrite 
  | acctOpen | acctClose | qSelWrite | flushRange | flushAccount | flushPartition | nodeSelWrite | nodeCmd | entIdxWrite | entDurWrite | fabCfgWrite 
  | fabLaneCfgWrite | sportIdxWrite | mcIdxWrite | reachIdxWrite | hbmEnable | pause | hbmResume | restore | pattern | setTiming | sppr | hppr | hbmFail
  | hbmStatus | fullRetrain | abortRetrain | fastRetrain | repairLogSave | repairLogLoad | partCreate | partQuiesce | partResume | partReset 
  | partRemove | ringCfgWrite | identWrite | portOwnWrite | testStart | testStop | testClear | testInject | testSelWrite | dump => exact ⟨_, rfl, .inl (s.chanWrite_within _ _ _ _ _ _ _)⟩
  | doorbell | irqArm => exact ⟨_, rfl, .inl (s.doorbellWrite_within _ _ _ _ _)⟩
  | writeLowWord | writeHighWord | softReset | enableWrite | quiesceReq | testTakeoverClear | intForce | tallyClear => exact ⟨_, rfl, s.busWrite_tame _ _ _⟩
  | rcFieldRead | readLowWord | readHighWord | regRead => exact ⟨_, rfl, s.readCmd_tame _ _⟩
  | powerOn => exact ⟨_, rfl, .ite (fun _ => .refl s) (fun _ => s.powered_tame true)⟩
  | powerLoss => exact ⟨_, rfl, s.powered_tame false⟩
  | inputOvervoltage => exact ⟨_, rfl, s.inputFault_tame 1⟩
  | inputOvercurrent => exact ⟨_, rfl, s.inputFault_tame 2⟩
  | pwrgoodRise => exact ⟨_, rfl, .ite (fun _ => s.pwrgoodRise_tame _) (fun _ => .refl s)⟩
  | pwrgoodHoldLow => exact ⟨_, rfl, s.powerOnReset_tame⟩
  | perstAssert => exact ⟨_, rfl, s.islandReset_tame⟩
  | perstDeassert | smbSetAddr | bypass | unlockBlockExpiry => exact ⟨_, rfl, .ite (fun _ => .onIsl s _) (fun _ => .refl s)⟩
  | pcieLinkTrained => exact s.pcieLinkTrained_tame _ _ _
  | flr => exact s.flr_tame _
  | vfEnableChange => exact s.vfEnableChange_tame _
  | msixUnmask => exact s.msixUnmask_tame _ _
  | chRstAssert => exact hwithin (s.chRstAssert_within _)
  | chRstRelease => exact hwithin (s.chRstRelease_within _)
  | chResetWrite | chPdWrite => exact ⟨_, rfl, .inl (State.islWrite_within (chCtrlHook_within _) s _ _ _ _)⟩
  | chRailsGood => exact hwithin (s.chRailsGood_within _)
  | bistDone => exact hwithin (s.bistDone_within _ _ _)
  | refclkLoss => exact hwithin (s.refclkLoss_within _)
  | sensorSample => exact s.sensorSample_kept _ _ _ _ _ _ _
  | railShutdown => exact s.railShutdown_kept _ _ _
  | regWrite => exact ⟨_, rfl, .ite (fun _ => s.busWrite_tame _ _ _) (fun _ => .ite (fun _ => .refl s) (fun _ => s.unimpl_tame))⟩
  | unsupportedAccess => exact s.unsupportedAccess_tame _ _
  | softResetDone => exact s.softResetDone_tame _
  | quiesceDone => exact s.quiesceDone_tame _
  | relayFlitRx => exact hwithin (s.relayFlitRx_within _ _)
  | relayAutoRetrain => exact ⟨_, rfl, .inl (.ite (fun _ => (Within.onIsl s _ _ rfl).trans (State.relayTrain_within _ _)) (fun _ => .refl s _))⟩
  | relayRetrain => exact ⟨_, rfl, .inl (State.islWrite_within (relayCtrlHook_within _ _) s _ _ _ _)⟩
  | relayRetrainDone => exact hwithin (s.relayRetrainDone_within _ _)
  | fwLoadDone => exact hwithin (s.fwLoadDone_within _ _ _ _ _ _)
  | svcBadOpcode => exact ⟨_, rfl, .inl (.ite (fun _ => .refl s _) (fun _ => s.chanWrite_within _ _ _ _ _ _ _))⟩
  | keeperHalt | keeperResume => exact ⟨_, rfl, .inl (.ite (fun _ => s.onKeeper_within _ _) (fun _ => .refl s _))⟩
  | todSnapshot => exact hwithin (s.todSnapshot_within _ _)
  | laneRepair => exact hwithin (s.laneRepair_within _ _ _ _)
  | smbRead => exact s.smbRead_tame
  | smbWrite => exact ⟨_, rfl, .ite (fun _ => s.busWrite_tame _ _ _) (fun _ => .refl s)⟩
  | samplePreload => exact ⟨_, rfl, s.jtagRun_tame 1 fun t => (Tame.onIsl t _).trans (.emit _ _)⟩
  | extest => exact ⟨_, rfl, s.jtagRun_tame 2 fun t => ((Tame.emit t _).trans (.onIsl _ _)).trans (.emit _ _)⟩
  | idcode => exact ⟨_, rfl, s.jtagRun_tame 3 fun t => .emit t _⟩
  | clamp => exact ⟨_, rfl, s.jtagRun_tame 4 fun t => .emit t _⟩
  | highz => exact ⟨_, rfl, s.jtagRun_tame 5 fun t => .emit t _⟩
  | unlockReq => exact ⟨_, rfl, s.jtagRun_tame 0x10 fun t => (Tame.onIsl t _).trans (.emit _ _)⟩
  | unlockResp => exact s.unlockResp_tame _
  | jtagLock => exact ⟨_, rfl, s.jtagRun_tame 0x12 fun t => .ite (fun _ => .onIsl t _) (fun _ => .refl t)⟩
  | regAccess => exact s.regAccess_tame _ _ _
  | jtagCtrlLock => exact ⟨_, rfl, (State.islWrite_within (jtagCtrlHook_within 0) s _ _ _ _).tame⟩
  | pcieLinkDown => exact ⟨_, rfl, .ite (fun _ => (Tame.onIsl s _).trans (State.onAllLive_tame _ _)) (fun _ => .refl s)⟩
  | relayAlignmentLoss => exact ⟨_, rfl, .inl (.ite (fun _ => s.relayDown_within _ 2) (fun _ => .refl s _))⟩
  | ch0FeDieFailure => exact ⟨_, rfl, .onIsl s _⟩

end Sys2Proof.Machine

namespace Sys2Proof.Proofs

open Sys2Proof Sys2Proof.Machine

/-- The tick of the clocks (log 2). -/
theorem tick_tame (s : State) : Tame s s.tick :=
  .ite (p := s.isl.powered = true) (fun _ => ((Tame.onIsl s _).trans (State.islTally_within _ 0 _ _ _ _).tame).trans (State.onAllLive_tame _ _))
    (fun _ => .refl s)

/-- A step keeps what a command or a tick keeps, but for the queue, whose front it takes. -/
theorem step_keeps {s t : State} (h : step s = .next t) : (Delivered s → Delivered t) ∧ (AbsentInert s → AbsentInert t) := by
  unfold step at h
  split at h
  · cases h
    exact ⟨(tick_tame s).delivered, (tick_tame s).absent⟩
  · next c rest _ =>
    obtain ⟨u, hu, hk⟩ := exec_kept c { s with pending := rest }
    rw [hu] at h
    cases h
    exact ⟨hk.tame.delivered, hk.tame.absent⟩

/-- Settles O2: a command answers a next state that keeps the queue and the variant, and to whose outputs it only adds. -/
theorem everyCommandCompletes : Obligations.EveryCommandCompletes := by
  intro i s
  obtain ⟨t, ht, hk⟩ := exec_kept i s
  exact ⟨t, ht, hk.tame.pending, hk.tame.variant, hk.tame.out⟩

/-- Settles O5: every command and the tick leave delivered what was delivered. -/
theorem stepKeepsDelivered : Obligations.StepKeepsDelivered := fun _ _ hd h => (step_keeps h).1 hd

/-- Settles O6: every command and the tick leave a channel that the variant lacks as reset leaves it. -/
theorem stepKeepsAbsentInert : Obligations.StepKeepsAbsentInert := fun _ _ ha h => (step_keeps h).2 ha

/-- Settles O3 (R16): a command about a channel is confined to it, unless the package is down after it. -/
theorem channelsAreIsolated : Obligations.ChannelsAreIsolated := by
  intro i c d s t hc hd h hpkg
  obtain ⟨u, hu, hk⟩ := exec_kept i s
  rw [hu] at h
  cases h
  rw [hc] at hk
  rcases hk with hw | ⟨-, hfatal⟩
  · by_cases hz : d = 0
    · subst hz
      exact ⟨fun h0 => absurd rfl h0, hw.quiet (Ne.symm hd), hw.zero (Ne.symm hd)⟩
    · have hsame := hw.others d hd hz
      exact ⟨fun _ => hsame, by rw [hsame], fun _ _ => by rw [hsame]⟩
  · rw [hpkg] at hfatal
    cases hfatal

/-- Settles O1 (log 2): by the definition of a step. -/
theorem stepRunsTheFrontCommand : Obligations.StepRunsTheFrontCommand := by
  refine ⟨fun s i rest h => ?_, fun s h => ?_⟩
  · rw [step, h]
  · rw [step, h]

end Sys2Proof.Proofs
end

section
set_option Elab.async false
/-! What reset leaves (R53, R54, R56, R596, R601). -/

namespace Sys2Proof.Machine

theorem chanReset_of_kind {key : Nat} {k : PageKind} (hk : (pageOf key).kind = some k) :
    ∃ inst, chanReset key = resetWord k inst (key % 0x10000) := by
  unfold pageOf at hk
  unfold chanReset
  dsimp only
  rw [hk]
  exact ⟨_, rfl⟩

/-- A page is the one that its header's keys name. -/
theorem pageOf_key {p : Pg} {k : PageKind} {off : Nat} (hk : p.kind = some k) (ho : off ≤ 0x100) : pageOf (p.key off) = p := by
  obtain ⟨hd, hn⟩ := Pg.lt_of_kind hk
  have h0 := p.key_header ho
  have hp : p.key 0 = p.die * 0x2000000 + p.num * 0x10000 := by simp [Pg.key]
  have hdie : p.key off / 0x2000000 = p.die := by omega
  have hnum : p.key off % 0x2000000 / 0x10000 = p.num := by omega
  rw [pageOf, hdie, hnum]

/-- A register of a page's header holds its reset word until it is written. -/
theorem chanReset_header {p : Pg} {k : PageKind} {off : Nat} (hk : p.kind = some k) (ho : off ≤ 0x100) :
    ∃ inst, chanReset (p.key off) = resetWord k inst off := by
  have hpage := pageOf_key hk ho
  have h0 := p.key_header ho
  have hp : p.key 0 = p.die * 0x2000000 + p.num * 0x10000 := by simp [Pg.key]
  have hoff : p.key off % 0x10000 = off := by omega
  obtain ⟨inst, hinst⟩ := chanReset_of_kind (key := p.key off) (by rw [hpage]; exact hk)
  exact ⟨inst, by rw [hinst, hoff]⟩

/-- No cause is pending after reset (R64). -/
theorem resetWord_cause (k : PageKind) (inst : Nat) : resetWord k inst oCAUSE = 0 := by
  have hspecial : resetSpecial k inst oCAUSE = none := by cases k <;> rfl
  have hreg : findReg k oCAUSE = some ⟨⟨0x20, 0, 1, 0, 1, 0, false, wholeF .w1c, []⟩, false⟩ := rfl
  simp only [resetWord, hspecial, hreg]
  rfl

/-- A block is READY, and not BUSY, after reset (R57). -/
theorem resetWord_stat (k : PageKind) (inst : Nat) : resetWord k inst oSTAT = 1 := rfl

end Sys2Proof.Machine

namespace Sys2Proof.Proofs

open Sys2Proof Sys2Proof.Machine

theorem reset_regs (c : Fin 4) : (State.reset.chan c).regs = [] := by fin_cases c <;> rfl

/-- Settles O4: no channel has an output waiting, and the reset state is a DK4. -/
theorem invariantsHoldAtReset : Obligations.InvariantsHoldAtReset := by
  constructor
  · intro c
    fin_cases c <;> rfl
  · exact fun _ _ => rfl

/-- Settles O7: every register reads its reset word, which of a page's INT_CAUSE is 0, and of its PAGE_STAT is READY. -/
theorem resetState : Obligations.ResetState := by
  have hget : ∀ (c : Fin 4) (p : Pg) off, (State.reset.chan c).get p off = chanReset (p.key off) := fun c p off => by
    rw [Chan.get, reset_regs, rget]
  refine ⟨rfl, rfl, rfl, rfl, rfl, rfl, rfl, fun c => ⟨?_, ?_, ?_, ?_, ?_, ?_, ?_, fun p k hk => ⟨?_, ?_⟩⟩⟩
  · fin_cases c <;> decide
  · fin_cases c <;> decide
  · fin_cases c <;> decide
  · fin_cases c <;> decide
  · fin_cases c <;> decide
  · fin_cases c <;> decide
  · fin_cases c <;> decide
  · obtain ⟨inst, hinst⟩ := chanReset_header (off := oCAUSE) hk (by decide)
    rw [Chan.nat, hget, hinst, resetWord_cause]
    rfl
  · obtain ⟨inst, hinst⟩ := chanReset_header (off := oSTAT) hk (by decide)
    rw [Chan.getB, Chan.getF, hget, show chanReset (p.key STAT_BUSY.off) = _ from hinst, resetWord_stat]
    rfl

end Sys2Proof.Proofs
end

section
set_option Elab.async false
/-! States that meet the hypotheses of a statement and whose next state does not meet what it claims. -/

namespace Sys2Proof.Proofs

open Sys2Proof Sys2Proof.Machine Sys2Proof.Tests

/-- The state that a command answers. -/
def answer (i : Instr) (s : State) : State := match exec i s with
  | .next t => t
  | _ => s

/-- What a command is said to complete with holds of the state that it answers. -/
theorem answer_of_completes {i : Instr} {s : State} {P : State → Prop} (h : Completes i s P) : P (answer i s) := by
  obtain ⟨t, ht, hP⟩ := h
  rwa [answer, ht]

/-- Die 0's sensors are sampled, but its PWR page, which adds up the energy, is disabled. -/
def samplesWithoutPower : State := Wit.on (fun ch => (ch.putB (pgSens 0) CTRL_ENABLE true).putB (pgPwr 0) CTRL_ENABLE false)

/-- Refutes O16: a sample of 0.1 W adds nothing to the energy while the die's PWR page is disabled. -/
theorem not_channelPowerAndSensors : ¬ Obligations.ChannelPowerAndSensors := by
  rintro ⟨-, -, ⟨hSample, -, -⟩, -⟩
  have hready : Ready samplesWithoutPower 1 := by delta Ready; decide +kernel
  have h := answer_of_completes (hSample samplesWithoutPower 1 [] [] 0 0 1 hready (by decide +kernel))
  exact absurd h.1 (by decide +kernel)

/-- Keeper A loads firmware over an image that is verified, in a channel that waits for firmware. -/
def loadsOverVerified : State :=
  (Wit.on (fun ch => ((Wit.kp 0 1 0 ch).putF (pgKeep 0) KEEP.FW_STAT_BUSY 1).onKeep 0 (fun x => { x with verified := true }))).onIsl
    (fun i => i.putF hpPwr (PWRH.CH_STAT_STATE 1) 3)

/-- Refutes O23: a load that fails takes the channel from WAIT_FW to RUNNING where the image before it was verified, and CH_STAT is a register
of the host island. -/
theorem not_keeperStartAndLoad : ¬ Obligations.KeeperStartAndLoad := by
  rintro ⟨-, -, ⟨-, -, hLoad⟩, -⟩
  have hready : Ready loadsOverVerified 1 := by delta Ready; decide +kernel
  obtain ⟨hfail, -⟩ := hLoad loadsOverVerified 1 0 [] [] true 1 hready (by decide +kernel) (by decide +kernel)
  obtain ⟨⟨-, hisl, -⟩, -⟩ := answer_of_completes (hfail (by decide +kernel))
  have hregs := congrArg (fun i => i.getF hpPwr (PWRH.CH_STAT_STATE 1)) hisl
  exact absurd hregs (by decide +kernel)

/-- Standby keeper A, whose claim was forced to 0x00, is resynchronised; both claim levels are 0x00. -/
def forcedAtLevelZero : State := Wit.on (fun ch => { ((Wit.kp 0 3 0 ch).putF (pgKeep 0) KEEP.CLAIM_FORCED 1).putF (pgKeep 0)
  KEEP.STATUS_RESYNC_DONE 1 with levels := 0 })

/-- Refutes O24: a keeper raises its claim to a standby level of 0x00 as to any other, which clears FORCED. -/
theorem not_keeperClaimsAndHalt : ¬ Obligations.KeeperClaimsAndHalt := by
  rintro ⟨hclaims, -⟩
  have hready : Ready forcedAtLevelZero 1 := by delta Ready; decide +kernel
  obtain ⟨-, hraise⟩ := hclaims forcedAtLevelZero 1 0 hready
  obtain ⟨-, -, hforced⟩ := answer_of_completes (hraise (by decide +kernel) (by decide +kernel) (by decide +kernel))
  exact absurd hforced (by decide +kernel)

/-- An output of the channel's Cosy drives a level that its page does not ask for. -/
def drivesAClock : State := Wit.on (fun ch => { ch with cosy := { ch.cosy with clk0 := 5 } })

/-- Refutes O26: a write of PAGE_CTRL.ENABLE drives the clock outputs anew, which are part of the channel's work. -/
theorem not_cosyClockAndTime : ¬ Obligations.CosyClockAndTime := by
  rintro ⟨⟨-, -, hEnable⟩, -⟩
  have hready : HostReady drivesAClock 1 := by delta HostReady Ready; decide +kernel
  obtain ⟨-, -, hwork⟩ := answer_of_completes (hEnable drivesAClock 1 true hready)
  exact absurd (congrArg (fun ch => ch.cosy.clk0) hwork) (by decide +kernel)

/-- The channel with a page that sends its interrupts to the host: INT_ENABLE and INT_ROUTE. -/
def toHost (p : Pg) (causes : Nat) (ch : Chan) : Chan := (ch.putN p oENABLE causes).putN p oROUTE 0x10000

/-- PF0 takes MSI-X messages. -/
def hostTakesMessages (s : State) : State :=
  s.onIsl (fun i => (i.putB hpHost CTRL_ENABLE true).putFn 0 { en := true })

/-- Active keeper A may send the interrupt of a finished service command to the host. -/
def savesWithInterrupt : State := hostTakesMessages (Wit.on (fun ch => toHost (pgKeep 0) 0x2000 (Wit.svc [] ch)))

/-- Refutes O28: a model command that ends with DMA_ERROR sends the host the interrupt of its end. -/
theorem not_ptpAndOscillatorModel : ¬ Obligations.PtpAndOscillatorModel := by
  rintro ⟨-, -, hService⟩
  have hready : SvcReady savesWithInterrupt 1 0 7 := by delta SvcReady HostReady Ready; decide +kernel
  obtain ⟨-, -, -, hSave, -⟩ := hService savesWithInterrupt 1 0 7 hready
  obtain ⟨-, -, hout⟩ := answer_of_completes hSave
  exact absurd hout (by decide +kernel)

end Sys2Proof.Proofs
end

section
set_option Elab.async false
/-! Commands that run the clock on, where a tally unit counts its cycles. -/

namespace Sys2Proof.Proofs

open Sys2Proof Sys2Proof.Machine Sys2Proof.Tests

/-- Counter 0 of Caddy's tally unit counts cycles, and stands at `n`. -/
def countsCycles (n : Nat) (ch : Chan) : Chan := ((ch.putN pgCaddy oTALLY 0x101).putN pgCaddy (oEVSEL 0) 1).put64 pgCaddy (oCNT 0) n

/-- An edge of PPS_OUT is due 1 s from now; Caddy's cycle counter wraps before that, and its page sends TALLY_OVF to the host. -/
def wrapsBeforeTheEdge : State := hostTakesMessages (Wit.on (fun ch =>
  { toHost pgCaddy 0x10 (countsCycles (2 ^ 48 - 1) ((ch.putB pgCosy COSY.OUT_CFG_PPS_OUT_EN true).putF pgCosy
    COSY.OUT_CFG_SQUELCH 0)) with cosy := { outNext := 1 } }))

/-- Refutes O27: while the clock runs on to an edge of PPS_OUT a tally counter wraps, and its interrupt is put out with the edge. -/
theorem not_cosyServoAndOutputs : ¬ Obligations.CosyServoAndOutputs := by
  rintro ⟨-, ⟨hEdge, -⟩, -⟩
  have hready : Ready wrapsBeforeTheEdge 1 := by delta Ready; decide +kernel
  obtain ⟨-, n, hout, -⟩ := answer_of_completes (hEdge wrapsBeforeTheEdge 1 hready (by decide +kernel) (by decide +kernel))
  have hone : (answer (.ppsOutEdge 1) wrapsBeforeTheEdge).out.length = wrapsBeforeTheEdge.out.length + 1 := congrArg List.length hout
  exact absurd hone (by decide +kernel)

/-- The 2 µs after a pour have not passed, and Caddy counts cycles. -/
def pourSettles : State := Wit.on (fun ch => { countsCycles 0 ch with prs := { pourAt := 5, pourT := 7 } })

/-- Refutes O31: the clock runs on to the end of a pour's 2 µs, and a tally unit that counts cycles counts them in its registers. -/
theorem not_brews : ¬ Obligations.Brews := by
  rintro ⟨-, hEvents, -⟩
  have hready : Ready pourSettles 1 := by delta Ready; decide +kernel
  obtain ⟨-, -, -, -, hSettle⟩ := hEvents pourSettles 1 hready
  obtain ⟨-, -, -, hregs⟩ := answer_of_completes (hSettle (by decide +kernel))
  exact absurd hregs (by decide +kernel)

end Sys2Proof.Proofs
end

section
set_option Elab.async false
/-! Commands whose further effects, on a neighbouring block or thread, a statement leaves out. -/

namespace Sys2Proof.Proofs

open Sys2Proof Sys2Proof.Machine Sys2Proof.Tests

/-- Port 5 is disabled, but still oper-up. -/
def disabledButUp : State := Wit.on (fun ch => (Wit.port 5 ch).putPortF 5 LINE.PORT_CTRL_EN 0)

/-- Refutes O32: a port that its new PORT_CFG takes oper-down begins a defect of its performance monitoring. -/
theorem not_portConfigurationAndControl : ¬ Obligations.PortConfigurationAndControl := by
  rintro ⟨hCfg, -⟩
  have hready : HostReady disabledButUp 1 := by delta HostReady Ready; decide +kernel
  obtain ⟨hTaken, -⟩ := hCfg disabledButUp 1 5 0x40102328 hready (by decide)
  obtain ⟨⟨-, -, hwork, -⟩, -⟩ := answer_of_completes (hTaken (by decide +kernel) (by decide +kernel) (by decide +kernel))
  exact absurd (congrArg (fun ch => ch.flex.defSeen) hwork) (by decide +kernel)

/-- Port 5 has been enabled by a write that network time has not reached. -/
def enabledTooLate : State := Wit.on (fun ch => (Wit.port 5 ch).putPw 5 { aligned := true, enAt := 2 ^ 80 })

/-- Refutes O35: a frame whose stamp lies before the port's enabling is counted as RX_DISABLED, EN = 1 or not. -/
theorem not_receivedFramesAndPfc : ¬ Obligations.ReceivedFramesAndPfc := by
  rintro ⟨⟨hFrames, -⟩, -⟩
  have hready : Ready enabledTooLate 1 := by delta Ready; decide +kernel
  obtain ⟨hGood, -⟩ := hFrames enabledTooLate 1 5 (Wit.frame 46) hready (by decide) (by decide +kernel)
  obtain ⟨-, hcount, -⟩ := answer_of_completes (hGood (by decide +kernel) (by decide +kernel) (by decide +kernel) (by decide +kernel)
    (by decide +kernel) (by decide +kernel))
  exact absurd hcount (by decide +kernel)

/-- Thread 130 stands at DONE and stages two mailboxes. -/
def stagesTwice : State := Wit.on (fun ch => ((Wit.run' 0x02 ch).putMbox (mboxKey 130 3) { st := 1, owner := 130 }).putMbox
  (mboxKey 130 4) { st := 1, owner := 130 })

/-- Refutes O38: the end of a thread returns one staged mailbox to EMPTY, and the other stays staged. -/
theorem not_parseLocksAndMailboxes : ¬ Obligations.ParseLocksAndMailboxes := by
  rintro ⟨-, hEvery⟩
  have hready : Ready stagesTwice 1 := by delta Ready; decide +kernel
  obtain ⟨-, -, -, -, -, -, -, -, hDone⟩ := hEvery stagesTwice 1 130 hready
  obtain ⟨-, hstaging, -⟩ := answer_of_completes (hDone (Wit.canIssue (by decide +kernel)) (by decide +kernel))
  exact absurd hstaging (by decide +kernel)

/-- Thread 130 holds a lock, is skipped and stuck; thread 140 of its cluster, which has no packet, watches the lock. -/
def watchesALock : State := Wit.on (fun ch =>
  (((Wit.run' 0x01 ch).putThr 130 { Wit.thread with st := 2, wfe := true, skipped := true }).putThr 140 { watchLock := some 3 }).putLock
    (lockKey 130 3) { holder := 131 } |>.putB (pgPclu 1) PCLU.STALL_CFG_LATE_ABORT true)

/-- Refutes O40: after the register error the cluster's skipped threads are aborted, and what one of them held is an event for its watcher. -/
theorem not_parseThreads : ¬ Obligations.ParseThreads := by
  rintro ⟨-, -, ⟨hEvents, -⟩⟩
  have hready : Ready watchesALock 1 := by delta Ready; decide +kernel
  obtain ⟨-, -, -, -, -, -, -, -, -, -, hRegUe, -⟩ := hEvents watchesALock 1 140 hready
  obtain ⟨hsame, -⟩ := answer_of_completes (hRegUe (by decide) (by decide +kernel))
  exact absurd (congrArg Thread.evPend hsame) (by decide +kernel)

/-- VF 3 is a member of partition 0, and the debugger's selected thread is halted. -/
def debuggedByVf : State :=
  (Wit.on (fun ch => ((ch.putB pgDbg CTRL_ENABLE true).putF pgDbg DBG.SEL_TID 130 |> Wit.run' 0x01 |>.putThr 130 { Wit.thread with st := 4, prev := 1 }).putPart 0
    { partDefault 0 with id1 := 0x80300000 })).onIsl (fun i => { i.putB hpPwr PWRH.JTAG_STAT_UNLOCKED true with vfEnable := true, vfBar0 := true })

/-- Refutes O41: a function other than PF0 is refused the MW register DBG.CTRL, so its command does not set STAT.REFUSED. -/
theorem not_parseDebugging : ¬ Obligations.ParseDebugging := by
  rintro ⟨-, hEvery⟩
  have hready : HostReady debuggedByVf 1 := by delta HostReady Ready; decide +kernel
  have hmay : MayUse debuggedByVf (.func 3) 1 false := by delta MayUse; decide +kernel
  obtain ⟨-, -, hHalt, -⟩ := hEvery debuggedByVf (.func 3) 1 hready hmay
  obtain ⟨hrefused, -⟩ := answer_of_completes (hHalt (by decide +kernel) (by decide +kernel))
  exact absurd hrefused (by decide +kernel)

/-- Partition 0, which owns the tables, is QUIESCED. -/
def ownerQuiesced (ch : Chan) : Chan := ch.putPart 0 { partDefault 0 with state := 3 }

/-- Table 3 is flushed by port. -/
def flushesForQuiesced : State := Wit.on (fun ch => ownerQuiesced (((Wit.tab 0 1 ch).onTbl
  (fun w => { w with flushes := [⟨3, 0x0203, false, 5⟩] }))))

/-- Refutes O44: the notification of a flush's end is dropped and counted at the ring of an owner that is QUIESCED. -/
theorem not_tableCommands : ¬ Obligations.TableCommands := by
  rintro ⟨-, hWalks, -⟩
  have hready : EmReady flushesForQuiesced 1 3 := by delta EmReady HostReady Ready; decide +kernel
  obtain ⟨-, -, -, -, hDone, -⟩ := hWalks flushesForQuiesced 1 3 (.inl hready)
  obtain ⟨⟨-, -, hwork, -⟩, -⟩ := answer_of_completes (hDone ⟨3, 0x0203, false, 5⟩ (by decide +kernel))
  exact absurd (congrArg (fun ch => ch.rings) hwork) (by decide +kernel)

/-- Table 3 has a shadow, and the keeper that compares it is active. -/
def divergesForQuiesced : State := Wit.on (fun ch => ownerQuiesced ((Wit.tab 0 1 (Wit.kp 0 4 0x80 ch)).onTbl
  (fun w => { w with shadow := [(3, (4096, 100))] })))

/-- Refutes O45: the notification of a divergence is dropped and counted at the ring of an owner that is QUIESCED. -/
theorem not_tableIntegrity : ¬ Obligations.TableIntegrity := by
  rintro ⟨hLearn, -⟩
  have hready : HostReady divergesForQuiesced 1 := by delta HostReady Ready; decide +kernel
  obtain ⟨-, -, -, hDiverge⟩ := hLearn divergesForQuiesced 1 hready
  obtain ⟨⟨-, -, hwork, -⟩, -⟩ := answer_of_completes (hDiverge 3 0 (by decide) (by decide +kernel) (by decide +kernel) (by decide +kernel)
    (by decide +kernel))
  exact absurd (congrArg (fun ch => ch.rings) hwork) (by decide +kernel)

end Sys2Proof.Proofs
end

section
set_option Elab.async false
/-! Commands of the traffic manager, the fabric and the stacks whose further effects, or whose waiting, a statement leaves out. -/

namespace Sys2Proof.Proofs

open Sys2Proof Sys2Proof.Machine Sys2Proof.Tests

/-- Port 7 is oper-up, sends PFC for every class, and has as many control frames waiting as it can hold. -/
def controlFull (ch : Chan) : Chan :=
  ((((Wit.port 7 (Wit.cad ch)).putPortF 7 LINE.PFC_CFG_TX_EN 1).putPortF 7 LINE.PFC_CFG_TX_CLASSES 0xFF).putPw 7
    { aligned := true, ctl := List.replicate 16 {} })

/-- A packet of class 3 from port 7, held for it, waits for admission, and the class may hold nothing. -/
def admitsAtFullPort : State := Wit.on (fun ch =>
  ((Wit.sbuf (2 ^ 29 + 5) (Wit.ipkt 0 0) true true (controlFull ch)).putB pgAdm (ADM.PC_CFG_HOLD (pcIndex 0 7 3)) true).putF pgAdm
    (ADM.PC_HOLD_HEADROOM (pcIndex 0 7 3)) 4)

/-- Refutes O48: the packet takes its class over XOFF, and the pause frame that port 7 cannot hold is counted in the port's TX_INS_DROP. -/
theorem not_buffersAndAdmission : ¬ Obligations.BuffersAndAdmission := by
  rintro ⟨-, hAdmit, -⟩
  have hready : Ready admitsAtFullPort 1 := by delta Ready; decide +kernel
  obtain ⟨hIngress, -⟩ := hAdmit admitsAtFullPort 1 (2 ^ 29 + 5) hready (by decide +kernel) (by decide +kernel) (by decide +kernel)
    (by decide +kernel)
  obtain ⟨hHeld, -⟩ := hIngress (by decide +kernel)
  obtain ⟨⟨-, -, -, hregs⟩, -⟩ := answer_of_completes (hHeld (by decide +kernel) (by decide +kernel))
  exact absurd (hregs ((portPg 7).key (LINE.TX_INS_DROP (portBlk 7))) (by decide) id) (by decide +kernel)

/-- Class 3 of port 7 is over XOFF by the packet of a queue. -/
def pausedAtFullPort (h : Nat) (ch : Chan) : Chan :=
  (Wit.inq 323 h 59 (Wit.sbuf h (Wit.ipkt 0 0) true false (controlFull ch))).putB pgAdm (xoffBit 59) true

/-- The packet lies in HBM region 5, which is RETIRING. -/
def purgesAtFullPort : State := Wit.on (fun ch =>
  (Wit.reg 2 1 (pausedAtFullPort (5 * 8192 + 3) ch)).putF pgCaddy CADDY.REGION_CNT_COUNT 1)

/-- Refutes O49: the purge takes a class under XON, and the frame that port 7 cannot hold is counted in the port's TX_INS_DROP. -/
theorem not_regionCommands : ¬ Obligations.RegionCommands := by
  rintro ⟨hOne, -⟩
  have hready : HostReady purgesAtFullPort 1 := by delta HostReady Ready; decide +kernel
  obtain ⟨hHost, -⟩ := hOne purgesAtFullPort 1 5 (by decide)
  obtain ⟨-, -, hPurge, -⟩ := hHost hready (by decide +kernel)
  obtain ⟨⟨-, -, -, hregs⟩, -⟩ := answer_of_completes (hPurge (by decide +kernel))
  exact absurd (hregs ((portPg 7).key (LINE.TX_INS_DROP (portBlk 7))) (by decide) id) (by decide +kernel)

/-- The packet is charged to account 17, which is to be flushed. -/
def flushesAtFullPort : State := Wit.on (fun ch => (pausedAtFullPort (2 ^ 29 + 5) ch).putN pgVoq VOQ.FLUSH_ARG0 17)

/-- Refutes O50: the flush takes a class under XON, and the frame that port 7 cannot hold is counted in the port's TX_INS_DROP. -/
theorem not_accountsAndFlushes : ¬ Obligations.AccountsAndFlushes := by
  rintro ⟨-, -, hFlush⟩
  have hready : HostReady flushesAtFullPort 1 := by delta HostReady Ready; decide +kernel
  obtain ⟨hFlushes, -⟩ := hFlush flushesAtFullPort 1
  obtain ⟨-, hAccount, -⟩ := hFlushes hready (by decide +kernel)
  obtain ⟨⟨-, -, -, hregs⟩, -⟩ := answer_of_completes hAccount
  exact absurd (hregs ((portPg 7).key (LINE.TX_INS_DROP (portBlk 7))) (by decide) id) (by decide +kernel)

/-- Reassembly context 9 holds a cell past a gap, and the packet it has open waits for a buffer. -/
def skipsOpenPacket : State := Wit.on (fun ch =>
  let c1 := ch.putReasm 9 { next := 18, held := [(0, { Wit.cell with seq := 20, first := true })], open_ := [Wit.cell] }
  { c1 with cad := { c1.cad with reqs := [{ requester := 6, pkt := { Wit.pkt with reasm := 10 } }] } })

/-- Refutes O53: the packet that a skipped gap leaves incomplete is dropped, and Caddy forgets its request for a buffer. -/
theorem not_fabricCellsAndLanes : ¬ Obligations.FabricCellsAndLanes := by
  rintro ⟨hCells, -⟩
  have hready : Ready skipsOpenPacket 1 := by delta Ready; decide +kernel
  obtain ⟨-, -, hTimeout, -⟩ := hCells skipsOpenPacket 1 hready
  obtain ⟨⟨-, -, hwork, -⟩, -⟩ := answer_of_completes (hTimeout 9 (by decide +kernel))
  exact absurd (congrArg (fun ch => ch.cad.reqs) hwork) (by decide +kernel)

/-- FAB.CFG of the enabled block holds a bit outside its fields. -/
def strayCfgBit : State := Wit.on (fun ch => (ch.putB pgFab CTRL_ENABLE true).put pgFab FAB.CFG 0x1000)

/-- Refutes O54: a write keeps a bit of the register that no field covers. -/
theorem not_fabricCreditsAndConfiguration : ¬ Obligations.FabricCreditsAndConfiguration := by
  rintro ⟨-, -, -, hEvery⟩
  have hready : HostReady strayCfgBit 1 := by delta HostReady Ready; decide +kernel
  obtain ⟨hKept, -⟩ := hEvery strayCfgBit 1 hready
  obtain ⟨-, hcfg⟩ := answer_of_completes (hKept 0 (by decide +kernel) (by decide +kernel) (by decide +kernel) (by decide +kernel))
  exact absurd hcfg (by decide +kernel)

/-- PC 3 is in service, and an access of its source waits for another one. -/
def sourceWaits : State := Wit.on (fun ch => (Wit.stk ch).onHbm (fun w => { w with waiting := [(5, Wit.acc false 0)] }))

/-- Refutes O55: a read whose source has an earlier access waiting waits, too. -/
theorem not_hbmAccessAndTraining : ¬ Obligations.HbmAccessAndTraining := by
  rintro ⟨-, hServed, -⟩
  have hready : Ready sourceWaits 1 := by delta Ready; decide +kernel
  obtain ⟨hAccess, -⟩ := hServed sourceWaits 1 hready
  obtain ⟨hIn, -⟩ := hAccess 3 (Wit.acc false 0) (by decide) (by decide) (by decide) rfl rfl
  obtain ⟨-, hRead, -⟩ := hIn (by decide +kernel) (by decide +kernel) (by decide +kernel)
  obtain ⟨-, hwork⟩ := answer_of_completes (hRead rfl rfl (by decide +kernel))
  exact absurd (congrArg (fun ch => ch.hbm.waiting.length) hwork) (by decide +kernel)

end Sys2Proof.Proofs
end

section
set_option Elab.async false
/-! HBM_STATUS shows the group's status word (R527, R531), which counts Caddy's busy regions. -/

namespace Sys2Proof.Machine

/-- Storing a command leaves the arguments of the keeper's page. -/
theorem Chan.svcArg_svcIssue (ch : Chan) {k : Fin 2} {w : WReq} (hp : w.p = pgKeep k.val) (ho : w.off = KEEP.SVC_CMD) (tag op : Nat) :
    (ch.svcIssue w k.val tag op).svcArg k.val 0 = ch.svcArg k.val 0 := by
  have hcmd : (pgKeep k.val).key (KEEP.SVC_ARG 0) ≠ (pgKeep k.val).key KEEP.SVC_CMD := by fin_cases k <;> decide
  have hstat : (pgKeep k.val).key (KEEP.SVC_ARG 0) ≠ (pgKeep k.val).key KEEP.SVC_STAT := by fin_cases k <;> decide
  have hkeeper : ∀ (c : Chan) x, (c.putKeeper k.val x).svcArg k.val 0 = c.svcArg k.val 0 := by
    intro c x
    unfold Chan.putKeeper
    split <;> rfl
  rw [Chan.svcIssue, hkeeper, Chan.svcArg, Chan.nat, Chan.putF, Chan.get_put_ne _ _ hstat, Chan.putF, Chan.get_put_ne _ _ hstat, hp, ho,
    Chan.get_put_ne _ _ hcmd]
  rfl

/-- The first word of an answer of four. -/
theorem Chan.nat_svcOk_head (ch : Chan) (k : Fin 2) (tag w x y z : Nat) :
    (ch.svcOk k.val tag [w, x, y, z]).nat (pgKeep k.val) (KEEP.SVC_RESP 0) = w % 2 ^ 32 := by
  have hraise := fun c : Chan => HeaderOnly.raiseMask (pgKeep k.val) c (m := 2 ^ 13) rfl rfl
  have hne : ∀ off ∈ [KEEP.SVC_RESP 0 + 4, KEEP.SVC_RESP 0 + 4 + 4, KEEP.SVC_RESP 0 + 4 + 4 + 4, KEEP.SVC_STAT],
      (pgKeep k.val).key (KEEP.SVC_RESP 0) ≠ (pgKeep k.val).key off := by fin_cases k <;> decide
  rw [Chan.nat, Chan.svcOk, Chan.svcDone, Chan.raise, (hraise _).get (pgKeep_key_notInHeader k (by decide)), Chan.putN,
    Chan.get_put_ne _ _ (hne _ (by simp))]
  simp only [Chan.putList, Chan.putN]
  rw [Chan.get_put_ne _ _ (hne _ (by simp)), Chan.get_put_ne _ _ (hne _ (by simp)), Chan.get_put_ne _ _ (hne _ (by simp)), Chan.get_put_same,
    BitVec.toNat_ofNat]

/-- A keeper's service command reads a group as it was: its base state, its register and Caddy's regions. -/
theorem ServiceOnly.hbmGroup {k : Fin 2} {a b : Chan} (h : ServiceOnly k a b) :
    b.grpBase 0 = a.grpBase 0 ∧ b.get (pgHbmc 0) (HBMC.GRP_STAT 0) = a.get (pgHbmc 0) (HBMC.GRP_STAT 0) ∧ b.busyRegions 0 = a.busyRegions 0 := by
  have hget : b.get (pgHbmc 0) (HBMC.GRP_STAT 0) = a.get (pgHbmc 0) (HBMC.GRP_STAT 0) := h.regs _ (by fin_cases k <;> decide)
  have hcad : b.cad = a.cad := by
    have hwork := congrArg (fun ch : Chan => ch.cad) h.work
    exact hwork
  refine ⟨congrArg (fun w => fld w 31 29) hget, hget, ?_⟩
  unfold Chan.busyRegions Chan.grpRegions Chan.regionUsed
  rw [hcad]

/-- The answer of HBM_STATUS for group 0, where it is OFF and its register reads 0: the count of its busy regions comes first. -/
theorem Chan.svcHbmStatus_eq {ch : Chan} {k : Fin 2} (tag : Nat) (hactive : ch.kstate k.val = 4) (harg : ch.svcArg k.val 0 = 0)
    (hbase : ch.grpBase 0 = 0) (hword : ch.get (pgHbmc 0) (HBMC.GRP_STAT 0) = 0) :
    ∃ (c : Chan) (since m due : Nat), c.outQ = ch.outQ ∧ ch.svcHbmStatus k.val tag = c.svcOk k.val tag [ch.busyRegions 0, since, m, due] := by
  have hgrp : ch.hbmGrp 0 = 0 := by simp [Chan.hbmGrp, hbase]
  have hview : (ch.hbmView 0 (HBMC.GRP_STAT 0)).getD 0 = ch.busyRegions 0 := by
    have hfld : fld (0 : Word) 28 27 = 0 := by decide
    have hindex : 4 * 0 + (HBMC.GRP_STAT 0 - 0x110) / 4 = 0 := rfl
    rw [Chan.hbmView, if_pos (by decide)]
    simp only [hindex, hgrp, hword, hfld, Option.getD_some]
    simp
  have hruns : ch.fwRuns k.val = true := by simp [Chan.fwRuns, hactive]
  rw [Chan.svcHbmStatus, Chan.svcRun, if_neg (by simp [hruns]), if_neg (by simp [hactive]), if_neg (by simp [harg]), if_neg (by simp),
    if_neg (by simp), if_neg (by simp)]
  simp only [harg, Nat.zero_div, Nat.zero_mod, hview]
  exact ⟨_, _, _, _, by split <;> rfl, rfl⟩

end Sys2Proof.Machine

namespace Sys2Proof.Proofs

open Sys2Proof Sys2Proof.Machine Sys2Proof.Tests

/-- Caddy's list names region 0, which holds a buffer, 2^29 times; its HBM group is OFF. -/
def regionNamedOften : State := Wit.on (fun ch =>
  let c1 := (Wit.kp 0 4 0x80 ch).putBuf 3 { inUse := true }
  { c1 with cad := { c1.cad with regions := List.replicate (2 ^ 29) (0, { st := 1 }) } })

theorem busyRegions_regionNamedOften : (regionNamedOften.chan 1).busyRegions 0 = 2 ^ 29 := by
  have hregions : (regionNamedOften.chan 1).cad.regions = List.replicate (2 ^ 29) (0, { st := 1 }) := rfl
  have hused : (regionNamedOften.chan 1).regionUsed 0 = 1 := by decide +kernel
  rw [Chan.busyRegions, Chan.grpRegions, hregions, List.filter_replicate, if_pos (by decide), List.filter_replicate, if_pos (by simp [hused]),
    List.length_replicate]

/-- Refutes O56: a count of busy regions that is too long for its field runs into the group's state that HBM_STATUS shows. -/
theorem not_hbmTrainingCommandsAndServices : ¬ Obligations.HbmTrainingCommandsAndServices := by
  rintro ⟨-, hServices, -⟩
  have hready : SvcReady regionNamedOften 1 0 5 := by delta SvcReady HostReady Ready; decide +kernel
  obtain ⟨hGroup, -⟩ := hServices regionNamedOften 1 0 5 hready
  obtain ⟨hStatus, -⟩ := hGroup (by decide +kernel)
  obtain ⟨u, hu, -, -, hshown, -⟩ := hStatus
  obtain ⟨t, w, ht, hp, ho, hsvc⟩ := State.service_pf0 hready 0x50 (fun ch => ch.svcHbmStatus 0 5)
  have hissued := (ServiceOnly.of_headerOnly ht.chan).trans (.svcIssue (t.chan 1) hp (by rw [ho]; decide) 5 0x50)
  obtain ⟨hbase, hword, hbusy⟩ := hissued.hbmGroup
  have hactive : ((t.chan 1).svcIssue w (0 : Fin 2).val 5 0x50).kstate (0 : Fin 2).val = 4 := by
    rw [Chan.kstate_svcIssue _ hp ho]
    exact (ht.chan.getF (pgKeep_key_notInHeader 0 (by decide))).trans (by decide +kernel)
  have harg : ((t.chan 1).svcIssue w (0 : Fin 2).val 5 0x50).svcArg (0 : Fin 2).val 0 = 0 := by
    rw [Chan.svcArg_svcIssue _ hp ho]
    exact (congrArg BitVec.toNat (ht.chan.get (pgKeep_key_notInHeader 0 (by decide)))).trans (by decide +kernel)
  obtain ⟨ch, since, m, due, houts, hrun⟩ := Chan.svcHbmStatus_eq 5 hactive harg (hbase.trans (by decide +kernel)) (hword.trans (by decide +kernel))
  have hirqs : OnlyIrqs ch.outQ := houts ▸ hissued.outs (onlyIrqs_of_nil rfl)
  have hanswer : OnlyIrqs (ch.svcOk (0 : Fin 2).val 5 [2 ^ 29, since, m, due]).outQ :=
    (ServiceOnly.svcDone (k := 0) (ch.putList (pgKeep 0) (KEEP.SVC_RESP 0) [2 ^ 29, since, m, due]) 5 0).outs hirqs
  rw [hbusy, busyRegions_regionNamedOften] at hrun
  obtain rfl : t.runChan 1 (fun ch => (ch.svcIssue w (0 : Fin 2).val 5 0x50).svcHbmStatus 0 5) = u := by
    rw [← hsvc]
    injection hu
  have hhead := Chan.nat_svcOk_head ch 0 5 (2 ^ 29) since m due
  have hchan := State.runChan_chan (s := t) (c := 1) (f := fun ch => (ch.svcIssue w (0 : Fin 2).val 5 0x50).svcHbmStatus 0 5)
    (show OnlyIrqs _ from hrun ▸ hanswer) 1
  have hfree : (regionNamedOften.chan 1).hbmGrp ((regionNamedOften.chan 1).svcArg 0 0) = 0 := by decide +kernel
  dsimp only at hshown
  rw [hchan, if_pos rfl] at hshown
  have hrest : Chan.nat { ((t.chan 1).svcIssue w (0 : Fin 2).val 5 0x50).svcHbmStatus 0 5 with outQ := [] } (pgKeep 0) (KEEP.SVC_RESP 0) = 2 ^ 29 :=
    (congrArg (fun c : Chan => c.nat (pgKeep 0) (KEEP.SVC_RESP 0)) hrun).trans hhead
  exact absurd ((congrArg (fun n => fld (BitVec.ofNat 32 n) 31 29) hrest).symm.trans (hshown.trans hfree)) (by decide)

end Sys2Proof.Proofs
end

section
set_option Elab.async false
/-! PF0's write of a register of a running channel, and what a dump shows of a buffer with a bad header (R47, R573). -/

namespace Sys2Proof.Machine

/-- PF0's write of a register without KW fields is tallied on the register's page, and has its effect on the channel. -/
theorem State.chanWrite_pf0_runs {s : State} {hook : Hook} {judge : Bool} {c : Fin 4} {p : Pg} {off : Nat} {v : Word} {k : PageKind} {h : RegHit}
    (hr : HostReady s c) (hk : p.kind = some k) (hf : findReg k off = some h) (hw : h.row.wide = false) (hh : h.high = false)
    (hkw : hasKw h.flds = false) (hj : judge = true → wordLegal k off h v = true) :
    ∃ t : State, HeaderStep p c s t ∧ (t.chan c).enabled p = (s.chan c).enabled p ∧ s.chanWrite hook judge (.func 0) c p off v = t.runChan c (hook ⟨c, p, off, .func 0, (t.chan c).get p off, v,
      mergeWord h.row.fields ((t.chan c).get p off) v, none, false⟩) := by
  obtain ⟨a, hrun⟩ := s.chanWrite_pf0 hook judge c p off v k h hr hk hf hw hh hkw hj
  have hfatal := State.chState_ne_fatal hr.1.1
  rw [State.onPages_of_not_fatal _ _ _ hfatal] at hrun
  have ht := (HeaderOnly.tally p (s.chan c) 3 a 1).step (f := fun ch => ch.tally p 3 a) (onlyIrqs_of_nil hr.1.2)
  have hon : ((s.runChan c (fun ch => ch.tally p 3 a)).chan c).enabled p = (s.chan c).enabled p := by
    rw [State.runChan_chan ((HeaderOnly.tally p (s.chan c) 3 a 1).onlyIrqs (onlyIrqs_of_nil hr.1.2)), if_pos rfl]
    exact Chan.enabled_tally _ p 3 a
  refine ⟨_, ht, hon, hrun.trans ?_⟩
  rw [State.hookRun]
  split
  · rfl
  · exact State.onPages_of_not_fatal _ _ _ (by rwa [ht.chState])

/-- A word of a dump is written to the dump's registers, and puts nothing out. -/
theorem Chan.dumpWord_outQ (ch : Chan) (h off : Nat) (bad : Bool) (i : Nat) : (ch.dumpWord h off bad i).outQ = ch.outQ := by
  unfold Chan.dumpWord
  dsimp only
  split <;> rfl

/-- The dump of the first bytes of a buffer whose header is bad says so last. -/
theorem dumpHook_badHeader {ch : Chan} {w : WReq} (hv : w.v = BitVec.ofNat 32 (2 ^ 31))
    (hon : ch.enabled (pgTest 1) = true) (hok : handleOk (ch.nat (pgTest 1) TEST.DUMP_HANDLE) = true)
    (huse : (ch.buf (ch.nat (pgTest 1) TEST.DUMP_HANDLE)).inUse = true) (hbad : (ch.buf (ch.nat (pgTest 1) TEST.DUMP_HANDLE)).hdrBad = true) :
    ∃ c : Chan, c.outQ = ch.outQ ∧ dumpHook w ch = c.putN (pgTest 1) TEST.DUMP_STAT (2 ^ 30 + 3) := by
  have hfirst : fld w.v 13 0 = 0 := by rw [hv]; decide
  have hgo : bit w.v 31 = true := by rw [hv]; decide
  have huse' : ((ch.put w.p w.off w.merged).buf (ch.nat (pgTest 1) TEST.DUMP_HANDLE)).inUse = true := huse
  have hbad' : ((ch.put w.p w.off w.merged).buf (ch.nat (pgTest 1) TEST.DUMP_HANDLE)).hdrBad = true := hbad
  refine ⟨_, Chan.each_frame (fun d => d.outQ) (fun d i => d.dumpWord_outQ (ch.nat (pgTest 1) TEST.DUMP_HANDLE) 0 true i) (List.range 16)
    (ch.put w.p w.off w.merged), ?_⟩
  simp [dumpHook, hfirst, hgo, hon, hok, huse', hbad']

end Sys2Proof.Machine
end

section
set_option Elab.async false
/-! Rings, tests and BIST in states that a statement does not think of. -/

namespace Sys2Proof.Proofs

open Sys2Proof Sys2Proof.Machine Sys2Proof.Tests

/-- The table command ring of partition 0 holds a descriptor, and the partition's count of refused descriptors stands at 2^64. -/
def countedPastItsEnd : State := Wit.on (fun ch => (Wit.ring 17 { tail := 1 } ch).putPart 0 { partDefault 0 with injErr := 2 ^ 64 })

/-- Refutes O57: a table command leaves the count of refused inject descriptors alone, so it does not reduce it modulo 2^64 either. -/
theorem not_ringsCarryDescriptorsAndRecords : ¬ Obligations.RingsCarryDescriptorsAndRecords := by
  rintro ⟨-, hEvery⟩
  have hready : HostReady countedPastItsEnd 1 := by delta HostReady Ready; decide +kernel
  obtain ⟨-, -, hDesc, -⟩ := hEvery countedPastItsEnd 1 0 17 hready (by decide) (by decide)
  obtain ⟨-, -, -, -, -, hTable, -⟩ := hDesc (leBytes 32 0) [] true (by decide +kernel) (by decide) (by decide) (by decide +kernel)
    (by decide +kernel) (by decide +kernel) (by decide +kernel)
  obtain ⟨-, -, -, hcount⟩ := answer_of_completes (hTable rfl (.inr rfl))
  exact absurd hcount (by decide +kernel)

/-- The TEST page of the TM die names a buffer whose header is bad. -/
def dumpsBadHeader : State := Wit.on (fun ch =>
  ((ch.putB (pgTest 1) CTRL_ENABLE true).putN (pgTest 1) TEST.DUMP_HANDLE (2 ^ 29 + 5)).putBuf (2 ^ 29 + 5) { inUse := true, hdrBad := true })

/-- Refutes O59: the dump of a buffer's first bytes says that they are poisoned where the header is, be its bytes poisoned or not. -/
theorem not_testsAndBist : ¬ Obligations.TestsAndBist := by
  rintro ⟨-, hBist, -⟩
  have hready : HostReady dumpsBadHeader 1 := by delta HostReady Ready; decide +kernel
  obtain ⟨-, hDump, -⟩ := hBist dumpsBadHeader 1
  obtain ⟨-, hSound⟩ := hDump 0 hready (by decide) rfl (by decide +kernel) (by decide +kernel)
  obtain ⟨u, hu, hstat, -⟩ := hSound (by decide +kernel) (by decide +kernel)
  obtain ⟨t, ht, hon, hrun⟩ := State.chanWrite_pf0_runs (hook := dumpHook) (judge := true) (p := pgTest 1) (off := TEST.DUMP_CTRL)
    (v := BitVec.ofNat 32 (2 ^ 31)) (k := .testTm) (h := Wit.hit .testTm TEST.DUMP_CTRL) hready rfl rfl rfl rfl rfl (fun _ => rfl)
  have hkept : ∀ off, 0x100 ≤ off → off < 0x1000 → (t.chan 1).get (pgTest 1) off = (dumpsBadHeader.chan 1).get (pgTest 1) off := by
    intro off hlo hhi
    exact ht.chan.get (by simp [InHeader, Pg.key]; omega)
  have hhandle : (t.chan 1).nat (pgTest 1) TEST.DUMP_HANDLE = 2 ^ 29 + 5 :=
    (congrArg BitVec.toNat (hkept _ (by decide) (by decide))).trans (by decide +kernel)
  have hbuf : (t.chan 1).buf (2 ^ 29 + 5) = { inUse := true, hdrBad := true } :=
    (congrArg (fun ch : Chan => ch.buf (2 ^ 29 + 5)) ht.chan.work).trans (by decide +kernel)
  obtain ⟨ch, houts, hdump⟩ := dumpHook_badHeader (ch := t.chan 1) (w := ⟨1, pgTest 1, TEST.DUMP_CTRL, .func 0, (t.chan 1).get (pgTest 1) TEST.DUMP_CTRL,
    BitVec.ofNat 32 (2 ^ 31), mergeWord (Wit.hit .testTm TEST.DUMP_CTRL).row.fields ((t.chan 1).get (pgTest 1) TEST.DUMP_CTRL) (BitVec.ofNat 32 (2 ^ 31)),
    none, false⟩) rfl (hon.trans (by decide +kernel)) (by rw [hhandle]; decide) (by rw [hhandle, hbuf]) (by rw [hhandle, hbuf])
  have hirqs := ht.chan.onlyIrqs (onlyIrqs_of_nil hready.1.2)
  have hchan := State.runChan_chan (s := t) (c := 1) (show OnlyIrqs (dumpHook _ (t.chan 1)).outQ by rw [hdump]; exact houts ▸ hirqs) 1
  obtain rfl : t.runChan 1 _ = u := by
    rw [← hrun]
    injection hu
  rw [hchan, if_pos rfl, hdump] at hstat
  exact absurd (((congrArg BitVec.toNat (ch.get_put_same (pgTest 1) TEST.DUMP_STAT _)).symm.trans hstat)) (by decide)

end Sys2Proof.Proofs
end

section
set_option Elab.async false
/-! The frame of an effect that ends no channel: it may write registers of given pages, put out and journal what it will, take free values, and
change what a frame leaves out. -/

namespace Sys2Proof.Machine

/-- An output that makes its channel CHANNEL_FATAL (R588). -/
def Out.isFatal : Out → Bool
  | .fatal _ => true
  | _ => false

/-- No output that waits is a fatal cause. -/
def NoFatal (l : List Out) : Prop := ∀ o ∈ l, o.isFatal = false

theorem noFatal_of_nil {l : List Out} (h : l = []) : NoFatal l := by
  rw [h]
  exact nofun

/-- From `a` to `b` only registers of `pages` and of JRNL, journals, outputs, the next free value, and what `strip` takes out have changed, and no
fatal cause has been put out. -/
structure Stays (pages : List Pg) (strip : Chan → Chan) (a b : Chan) : Prop where
  work : strip { quietOf b with free := 0 } = strip { quietOf a with free := 0 }
  regs : ∀ key, key / 65536 ∉ (pgJrnl :: pages).map (fun p => p.key 0 / 65536) → rget chanReset b.regs key = rget chanReset a.regs key
  outs : NoFatal a.outQ → NoFatal b.outQ

/-- A register lies on its page. -/
theorem Pg.key_div (p : Pg) {off : Nat} (h : off < 65536) : p.key off / 65536 = p.key 0 / 65536 := by
  unfold Pg.key
  simp only
  split <;> split <;> omega

namespace Stays

variable {pages : List Pg} {strip : Chan → Chan} {a b c : Chan}

theorem refl (a : Chan) : Stays pages strip a a := ⟨rfl, fun _ _ => rfl, id⟩

theorem trans (h : Stays pages strip a b) (g : Stays pages strip b c) : Stays pages strip a c where
  work := g.work.trans h.work
  regs key hk := (g.regs key hk).trans (h.regs key hk)
  outs := g.outs ∘ h.outs

/-- What stays in a smaller frame stays in a larger one. -/
theorem mono {small : List Pg} {f : Chan → Chan} (h : Stays small f a b) (hp : ∀ p ∈ small, p ∈ pages) (g : Chan → Chan)
    (hs : ∀ x, strip x = g (f x)) : Stays pages strip a b where
  work := by rw [hs, hs, h.work]
  regs key hk := h.regs key (fun hm => hk (by
    simp only [List.map_cons, List.mem_cons, List.mem_map] at hm ⊢
    exact hm.imp_right (fun ⟨p, hm, he⟩ => ⟨p, hp p hm, he⟩)))
  outs := h.outs

theorem ite {p : Prop} [Decidable p] {x y : Chan} (hx : p → Stays pages strip a x) (hy : ¬ p → Stays pages strip a y) :
    Stays pages strip a (if p then x else y) := by
  split
  · exact hx ‹_›
  · exact hy ‹_›

/-- An update for every element of a list. -/
theorem each {α : Type} {f : Chan → α → Chan} (l : List α) (h : ∀ ch, ∀ x ∈ l, Stays pages strip ch (f ch x)) (ch : Chan) :
    Stays pages strip ch (ch.each l f) :=
  List.foldlRecOn (motive := fun d => Stays pages strip ch d) l f (refl ch) (fun d hd x hx => hd.trans (h d x hx))

theorem put (ch : Chan) {p : Pg} (hp : p ∈ pages) {off : Nat} (v : Word) (ho : off < 65536) : Stays pages strip ch (ch.put p off v) :=
  ⟨rfl, fun _ hk => ch.rget_put_ne v (fun e => hk (List.mem_map.2 ⟨p, List.mem_cons_of_mem _ hp, by rw [e, p.key_div ho]⟩)), id⟩

theorem of_headerOnly {p : Pg} (hp : p ∈ pages) (h : HeaderOnly p a b) : Stays pages strip a b where
  work := congrArg (fun x => strip { x with free := 0 }) h.quiet
  regs key hk := h.regs key (fun hh => hk (List.mem_map.2 ⟨p, List.mem_cons_of_mem _ hp, hh.page.symm⟩))
  outs ha o ho := (h.outs o ho).elim (ha o) (fun e => by rw [e]; rfl)

theorem of_quiet (h : Quiet a b) (houts : NoFatal a.outQ → NoFatal b.outQ) : Stays pages strip a b where
  work := congrArg (fun x => strip { x with free := 0 }) h.quiet
  regs key hk := h.regs key (fun e => hk (List.mem_map.2 ⟨pgJrnl, List.mem_cons_self, e.symm⟩))
  outs := houts

theorem emit (ch : Chan) {o : Out} (h : o.isFatal = false) : Stays pages strip ch (ch.emit o) :=
  ⟨rfl, fun _ _ => rfl, fun ha o' ho' => by
    simp only [Chan.emit, List.mem_append, List.mem_singleton] at ho'
    rcases ho' with hold | rfl
    · exact ha o' hold
    · exact h⟩

theorem takeFree (ch : Chan) : Stays pages strip ch ch.takeFree := ⟨rfl, fun _ _ => rfl, id⟩

theorem when (ch : Chan) (q : Bool) {f : Chan → Chan} (h : Stays pages strip ch (f ch)) : Stays pages strip ch (ch.when q f) := by
  unfold Chan.when
  split
  · exact h
  · exact refl ch

/-- The carry of a counter of the page raises TALLY_OVF. -/
theorem carry {p : Pg} (hp : p ∈ pages) (r : Chan × Bool) : Stays pages strip r.1 (if r.2 then r.1.orCause p 0x10 else r.1) :=
  ite (fun _ => of_headerOnly hp (HeaderOnly.orCause p _ _)) (fun _ => refl _)

/-- A cause of a page of the frame (R62–R67). -/
theorem raiseMask (ch : Chan) {p : Pg} (hp : p ∈ pages) (m : Nat) : Stays pages strip ch (ch.raiseMask p m) := by
  unfold Chan.raiseMask
  dsimp only
  have hnote : Stays pages strip ch (ch.noteCauses p (Nat.land m (2 ^ 32 - 1 - ch.nat p oCAUSE))) :=
    (when ch _ (emit ch rfl)).trans (when _ _ (emit _ rfl))
  exact (((hnote.trans (of_headerOnly hp (HeaderOnly.orCause p _ m))).trans (of_headerOnly hp (HeaderOnly.tallyAdd p _ 8 {} _))).trans
    (carry hp _)).trans (of_headerOnly hp (HeaderOnly.edge p _ _))

theorem raise (ch : Chan) {p : Pg} (hp : p ∈ pages) (n : Nat) : Stays pages strip ch (ch.raise p n) := raiseMask ch hp _

theorem tally (ch : Chan) {p : Pg} (hp : p ∈ pages) (code : Nat) (at_ : Attr) (n : Nat) : Stays pages strip ch (ch.tally p code at_ n) :=
  of_headerOnly hp (HeaderOnly.tally p ch code at_ n)

/-- The channel's own fields outside a frame. -/
theorem of_work (h : strip { quietOf b with free := 0 } = strip { quietOf a with free := 0 }) (hr : b.regs = a.regs) (ho : b.outQ = a.outQ) :
    Stays pages strip a b := ⟨h, fun _ _ => by rw [hr], fun ha => by rwa [ho]⟩

end Stays

/-! Journalling. -/

/-- An effect that puts out no fatal cause. -/
theorem Stays.noFatal {pages : List Pg} {a b : Chan} (h : Stays pages id a b) (ha : NoFatal a.outQ) : NoFatal b.outQ := h.outs ha

theorem Chan.when_raise_noFatal {ch : Chan} (q : Bool) (n : Nat) (h : NoFatal ch.outQ) : NoFatal (ch.when q (fun c => c.raise pgJrnl n)).outQ :=
  (Stays.when (pages := [pgJrnl]) ch q (.raise ch (List.mem_singleton_self _) n)).noFatal h

theorem Chan.putJrnl_outQ (ch : Chan) (k : Nat) (j : Jrnl) : (ch.putJrnl k j).outQ = ch.outQ := by
  unfold Chan.putJrnl Chan.putRegion
  split <;> rfl

theorem Chan.jrnlRaw_noFatal {ch : Chan} (e : Nat) (h : NoFatal ch.outQ) : NoFatal (ch.jrnlRaw e).outQ := by
  have hput : ∀ k, NoFatal (ch.jrnlPut k e).outQ := fun k => by
    have hsync : ∀ (c : Chan) (j : Jrnl), (c.syncJrnl j).outQ = c.outQ := fun _ _ => rfl
    unfold Chan.jrnlPut
    exact Chan.when_raise_noFatal _ 10 (Chan.when_raise_noFatal _ 9 (Chan.when_raise_noFatal _ 8 (by rwa [hsync, Chan.putJrnl_outQ])))
  unfold Chan.jrnlRaw
  split
  · exact hput _
  · exact h

namespace Stays

variable {pages : List Pg} {strip : Chan → Chan} {a b c : Chan}

theorem jrnlRaw (ch : Chan) (e : Nat) : Stays pages strip ch (ch.jrnlRaw e) := of_quiet (.jrnlRaw ch e) (Chan.jrnlRaw_noFatal e)

theorem journal (ch : Chan) (p : Pg) (cls ev detail : Nat) : Stays pages strip ch (ch.journal p cls ev detail) :=
  (jrnlRaw ch _).trans (emit _ rfl)

theorem putSecs (ch : Chan) (x : Tab SecEvt) : Stays pages strip ch { ch with secs := x } := of_work rfl rfl rfl

theorem putJsec (ch : Chan) (x : Tab Nat) : Stays pages strip ch { ch with jsec := x } := of_work rfl rfl rfl

/-- Events that are journalled once in a second (R121). -/
theorem journalSec (ch : Chan) (p : Pg) (cls ev sub base mult n lim : Nat) : Stays pages strip ch (ch.journalSec p cls ev sub base mult n lim) := by
  have hclose : ∀ (c : Chan) (e : SecEvt), Stays pages strip c (c.closeSecond e) := fun c e => by
    unfold Chan.closeSecond
    exact ite (fun _ => journal c _ _ _ _) (fun _ => refl c)
  unfold Chan.journalSec
  dsimp only
  refine ite (fun _ => ite (fun _ => ?_) (fun _ => emit ch rfl)) (fun _ => ?_)
  · exact (putJsec ch _).trans (journal _ _ _ _ _)
  · refine Stays.trans (Stays.trans ?_ (putSecs _ _)) (emit _ rfl)
    exact ite (fun _ => refl ch) (fun _ => hclose ch _)

/-- The journal entries of the causes of a command (R67). -/
theorem journalCauses (ch : Chan) : Stays pages strip ch ch.journalCauses := by
  have hentry : ∀ (c : Chan) (k cls : Nat), Stays pages strip c (c.causeEntry k cls) := fun c k cls =>
    ((takeFree c).trans (takeFree _)).trans (jrnlRaw _ _)
  refine each ch.outQ (fun c o _ => ?_) ch
  split
  · exact ite (fun _ => refl c) (fun _ => hentry c _ _)
  · exact ite (fun _ => refl c) (fun _ => hentry c _ _)
  · exact refl c

end Stays

/-! Delivery. -/

/-- Outputs that end no channel leave every channel, and of the host island change only what is held. -/
theorem State.deliverOne_sameIsland (s : State) (d : Nat) (v : Nat → Nat → Nat) (o : Out) : SameIsland s.isl (State.deliverOne d v s o).isl := by
  unfold State.deliverOne
  split
  · exact s.pageIrq_sameIsland _
  · exact s.sendVec_sameIsland _ _
  · rfl
  · rfl

section
variable {s : State} {c : Fin 4} {f : Chan → Chan} (h : NoFatal (f (s.chan c)).outQ)
include h

theorem State.runChan_noFatal : (∀ d, (s.runChan c f).chan d = if d = c then { (f (s.chan c)).journalCauses with outQ := [] } else s.chan d) ∧
    SameIsland s.isl (s.runChan c f).isl := by
  have houts : NoFatal (f (s.chan c)).journalCauses.outQ := (Stays.journalCauses (pages := []) (strip := id) _).noFatal h
  unfold State.runChan State.deliver
  rw [State.chan_setChan_same]
  refine List.foldlRecOn (motive := fun t : State =>
    (∀ d, t.chan d = if d = c then { (f (s.chan c)).journalCauses with outQ := [] } else s.chan d) ∧ SameIsland s.isl t.isl) _ _ ?_ (fun t ht o ho => ?_)
  · refine ⟨fun d => ?_, rfl⟩
    dsimp only
    rw [State.chan_setChan, State.chan_setChan]
    split <;> rfl
  · have hplain := houts o ho
    cases o with
    | fatal => cases hplain
    | _ =>
      refine ⟨fun d => ?_, ht.2.trans (State.deliverOne_sameIsland _ _ _ _)⟩
      rw [State.chan, State.deliverOne_chan]
      exact ht.1 d

end

/-- What the delivery of a channel's outputs may still change in it: journals, and the next free value. -/
abbrev Calm (a b : Chan) : Prop := Stays [] id a b

/-- An effect's channel, but for the journal. -/
theorem State.runChan_calm {s : State} {c : Fin 4} {f : Chan → Chan} (h : NoFatal (f (s.chan c)).outQ) : Calm (f (s.chan c)) ((s.runChan c f).chan c) := by
  rw [(State.runChan_noFatal h).1, if_pos rfl]
  exact (Stays.journalCauses _).trans ⟨rfl, fun _ _ => rfl, fun _ => noFatal_of_nil rfl⟩

/-- The frame of an effect in the module. -/
theorem Stays.keeps {s : State} {c : Fin 4} {f : Chan → Chan} {pages : List Pg} {strip : Chan → Chan} (h : Stays pages strip (s.chan c) (f (s.chan c)))
    (hq : NoFatal (s.chan c).outQ) : Keeps s (s.runChan c f) c pages strip := by
  have hrun := State.runChan_noFatal (h.outs hq)
  have hchan : Stays pages strip (s.chan c) ((s.runChan c f).chan c) :=
    h.trans ((State.runChan_calm (h.outs hq)).mono (fun _ hm => nomatch hm) strip (fun _ => rfl))
  exact ⟨fun d hd => by rw [hrun.1, if_neg hd], hrun.2, hchan.work, fun key hk _ => hchan.regs key hk⟩

end Sys2Proof.Machine
end

section
set_option Elab.async false
/-! The forwarding tables' definitions, as a write that PF0 issues finds them, and their creation and destruction (R369, R370, R409). -/

namespace Sys2Proof.Machine

section
variable {a b : Chan} (h : HeaderOnly pgTbl a b)
include h

theorem HeaderOnly.get_tbl {off : Nat} (ho : 0x100 ≤ off) : b.get pgTbl off = a.get pgTbl off :=
  h.get (by simp only [InHeader, Pg.key]; norm_num; split <;> omega)

theorem HeaderOnly.get_tern (off : Nat) : b.get pgTern off = a.get pgTern off :=
  h.get (by simp only [InHeader, Pg.key]; norm_num; omega)

theorem HeaderOnly.tbl : b.tbl = a.tbl := by
  have hwork := congrArg (fun ch : Chan => ch.tbl) h.work
  exact hwork

theorem HeaderOnly.tdef (t : Nat) {f : Nat → Fld} (hf : 0x100 ≤ (f t).off) : b.tdef t f = a.tdef t f := by
  rw [Chan.tdef, Chan.getF, h.get_tbl hf]
  rfl

theorem HeaderOnly.tValid (t : Nat) : b.tValid t = a.tValid t := by
  simp only [Chan.tValid, Chan.getB, Chan.getF]
  simp (disch := omega) only [h.get_tbl]
  rfl

theorem HeaderOnly.tBlocks (t : Nat) : b.tBlocks t = a.tBlocks t := by
  simp only [Chan.tBlocks, Chan.getB, Chan.getF, h.get_tern]
  rfl

theorem HeaderOnly.defLegal (t : Nat) : b.defLegal t = a.defLegal t := by
  simp only [Chan.defLegal, Chan.tKeyLen, Chan.tResLen, Chan.tWidth, Chan.tCount, Chan.tStrides, Chan.tLo, Chan.tHi, h.tBlocks, h.tValid, Chan.nat,
    Chan.tdef, Chan.getB, Chan.getF, TBL.TDEF_LPM, TBL.TDEF_SEED]
  simp (disch := omega) only [h.get_tbl, h.get_tern]
  rfl

theorem HeaderOnly.freeSegs : b.freeSegs = a.freeSegs := by
  simp only [Chan.freeSegs, Chan.usedSegs, Chan.bankState, Chan.getF, h.tbl]
  simp (disch := omega) only [h.get_tbl]

theorem HeaderOnly.ovfFree : b.ovfFree = a.ovfFree := by
  simp only [Chan.ovfFree, h.tValid, Chan.tdef, Chan.getF]
  simp (disch := omega) only [h.get_tbl]

theorem HeaderOnly.tReps (t : Nat) : b.tReps t = a.tReps t := by
  rw [Chan.tReps, h.tdef _ (by simp only; omega), Chan.tReps]

theorem HeaderOnly.tSegs (t : Nat) : b.tSegs t = a.tSegs t := by
  simp only [Chan.tSegs, Chan.tCount, Chan.tWidth, Chan.tSegLines]
  simp (disch := (simp only; omega)) only [h.tdef]
  rfl

end

/-- PF0's write of TCTRL at the host's port (R370, R407). -/
theorem State.tctrl_pf0 {s : State} {c : Fin 4} (h : HostReady s c) (v : Word) :
    ∃ (t : State) (w : WReq), HeaderStep pgTbl c s t ∧ w.off = TBL.TCTRL ∧ w.v = v ∧
      s.chanWrite tctrlHook true (.func 0) c pgTbl TBL.TCTRL v = t.runChan c (tctrlHook w) := by
  obtain ⟨t, ht, -, hrun⟩ := State.chanWrite_pf0_runs (hook := tctrlHook) (judge := true) (p := pgTbl) (off := TBL.TCTRL) (v := v) (k := .tbl)
    (h := ⟨⟨0x120, 0, 1, 0, 1, 0x0, false, [⟨31, 31, .womw, []⟩, ⟨30, 30, .womw, []⟩, ⟨7, 0, .womw, []⟩], []⟩, false⟩) h rfl (by decide) rfl rfl rfl
    (fun _ => rfl)
  exact ⟨t, _, ht, by rfl, by rfl, hrun⟩

/-- What a table command may change beside registers. -/
abbrev tableStrip (ch : Chan) : Chan := { noService ch with tbl := {}, recQ := [] }

/-- The pages of the tables. -/
abbrev tablePages : List Pg := [pgTbl, pgTern, pgLearn, pgKeepA, pgKeepB]

theorem Stays.onTbl (ch : Chan) (f : TblW → TblW) : Stays tablePages tableStrip ch (ch.onTbl f) := of_work rfl rfl rfl

theorem Stays.putTbl (ch : Chan) {off : Nat} (v : Word) (ho : off < 65536) : Stays tablePages tableStrip ch (ch.put pgTbl off v) :=
  put ch List.mem_cons_self v ho

theorem Chan.mem_tBlocks {ch : Chan} {t n : Nat} (h : n ∈ ch.tBlocks t) : n < 64 := mem_allBelow_lt h

/-- A table that CREATE has defined: no entries, and the segments that it was given. -/
def Chan.createdTable (ch : Chan) (t : Nat) (segs : List Nat) : Chan :=
  ((ch.emptyTable t).onTbl (fun w => { w with segs := tput [] w.segs t segs })).putF pgTbl (TBL.TDEF_CFG_VALID t) 1

/-- CREATE of a legal definition that finds its segments and overflow units. -/
theorem Chan.createTable_ok {ch : Chan} {t : Nat} (h0 : tblKind t ≠ 0) (h3 : tblKind t ≠ 3) (hnew : ch.tValid t = false) (hdef : ch.defLegal t = true)
    (hsegs : ch.tReps t * ch.tSegs t ≤ ch.freeSegs.length) (hovf : tblKind t = 1 → ch.tdef t TBL.TDEF_ATTR_OVF_UNITS ≤ ch.ovfFree) :
    ch.createTable t = (ch.createdTable t (ch.freeSegs.take (ch.tReps t * ch.tSegs t)), tsOk) := by
  have hfits : ¬ (ch.freeSegs.length < ch.tReps t * ch.tSegs t ∨
      ch.ovfFree < if tblKind t = 1 then ch.tdef t TBL.TDEF_ATTR_OVF_UNITS else 0) := by
    split
    · have := hovf ‹_›
      omega
    · omega
  unfold Chan.createTable
  rw [if_neg h0, if_neg (by simp [hnew]), if_neg (by simp [hdef]), if_neg h3]
  exact if_neg hfits

theorem Chan.createTable_exists {ch : Chan} {t : Nat} (h0 : tblKind t ≠ 0) (hold : ch.tValid t = true) : ch.createTable t = (ch, tsExists) := by
  rw [Chan.createTable, if_neg h0, if_pos hold]

/-- A table without its entries, its segments and its ternary blocks. -/
def Chan.destroyedTable (ch : Chan) (t : Nat) : Chan :=
  (((ch.emptyTable t).onTbl (fun w => { w with segs := tput [] w.segs t [] })).each (ch.tBlocks t) (fun c b => c.put pgTern (TERN.BLOCK b) 0)).putF
    pgTbl (TBL.TDEF_CFG_VALID t) 0

theorem Chan.destroyTable_ok {ch : Chan} {t : Nat} (hold : ch.tValid t = true) : ch.destroyTable t = (ch.destroyedTable t, tsOk) := by
  rw [Chan.destroyTable, if_neg (by simp [hold])]
  rfl

theorem tdefValid_off {t : Nat} (ht : t < 256) : (TBL.TDEF_CFG_VALID t).off < 65536 := by
  show 0x4000 + 32 * t < 65536
  omega

theorem Chan.createdTable_stays (ch : Chan) {t : Nat} (ht : t < 256) (segs : List Nat) : Stays tablePages tableStrip ch (ch.createdTable t segs) :=
  ((Stays.onTbl ch _).trans (.onTbl _ _)).trans (.putTbl _ _ (tdefValid_off ht))

theorem Chan.destroyedTable_stays (ch : Chan) {t : Nat} (ht : t < 256) : Stays tablePages tableStrip ch (ch.destroyedTable t) := by
  refine (((Stays.onTbl ch _).trans (.onTbl _ _)).trans (.each _ (fun c n hn => ?_) _)).trans (.putTbl _ _ (tdefValid_off ht))
  have hn64 := Chan.mem_tBlocks hn
  exact .put c (List.mem_cons_of_mem _ List.mem_cons_self) _ (show 0x100 + 4 * n < 65536 by omega)

/-- A destroyed table's blocks are registers, so what the destruction leaves of the channel's tables is what it makes of them. -/
theorem Chan.destroyedTable_tbl (ch : Chan) (t : Nat) :
    (ch.destroyedTable t).tbl = ((ch.emptyTable t).onTbl (fun w => { w with segs := tput [] w.segs t [] })).tbl :=
  Chan.each_frame (f := fun c b => c.put pgTern (TERN.BLOCK b) 0) (fun c => c.tbl) (fun _ _ => rfl) (ch.tBlocks t) _

theorem Chan.destroyedTable_outQ (ch : Chan) (t : Nat) : (ch.destroyedTable t).outQ = ch.outQ :=
  Chan.each_frame (f := fun c b => c.put pgTern (TERN.BLOCK b) 0) (fun c => c.outQ) (fun _ _ => rfl) (ch.tBlocks t) _

/-- A table that an empty list of versions stands for. -/
theorem Chan.emAll_emptyTable (ch : Chan) (t : Nat) : (ch.emptyTable t).emAll t = [] := by
  have hnone : (tclear ch.tbl.em (t * 2 ^ 40) ((t + 1) * 2 ^ 40)).filter (fun e => e.1 / 2 ^ 40 == t) = [] := by
    rw [tclear, List.filter_filter, List.filter_eq_nil_iff]
    intro e _
    simp only [Bool.and_eq_true, beq_iff_eq, Bool.not_eq_true', Bool.and_eq_false_iff, decide_eq_false_iff_not, not_and, not_or, not_not]
    omega
  unfold Chan.emAll Chan.emptyTable Chan.onTbl
  rw [hnone, List.map_nil]

/-- A definition's VALID bit. -/
theorem Chan.tValid_putF (ch : Chan) {t v : Nat} (ht : t < 256) (hv : v < 2) : (ch.putF pgTbl (TBL.TDEF_CFG_VALID t) v).tValid t = decide (v ≠ 0) := by
  rw [Chan.tValid, Chan.getB, Chan.getF_putF_same _ _ _ _ (by simp) (by simp)]
  simp [ht, Nat.mod_eq_of_lt hv]

/-- The status that a port shows leaves the definitions. -/
theorem Chan.tValid_putN_stat (ch : Chan) (t n : Nat) : (ch.putN pgTbl TBL.TCTRL_STAT n).tValid t = ch.tValid t := by
  have hkey : pgTbl.key (TBL.TDEF_CFG_VALID t).off ≠ pgTbl.key TBL.TCTRL_STAT := by
    show pgTbl.key (0x4000 + 32 * t) ≠ pgTbl.key 0x124
    simp only [Pg.key]
    norm_num
    split <;> omega
  rw [Chan.tValid, Chan.getB, Chan.getF, Chan.putN, Chan.get_put_ne _ _ hkey]
  rfl

/-- The status that a port shows. -/
theorem Chan.nat_putN_clear (x : Chan) (p : Pg) (off : Nat) {n : Nat} (hn : n < 2 ^ 32) : Chan.nat { x.putN p off n with outQ := [] } p off = n := by
  have hget : Chan.get { x.putN p off n with outQ := [] } p off = BitVec.ofNat 32 n := x.get_put_same p off _
  rw [Chan.nat, hget, BitVec.toNat_ofNat, Nat.mod_eq_of_lt hn]

/-- Whether a table is defined is no matter of outputs. -/
theorem Chan.tValid_clear (ch : Chan) (t : Nat) : Chan.tValid { ch with outQ := [] } t = ch.tValid t := rfl

theorem Chan.tValid_createdTable (ch : Chan) {t : Nat} (ht : t < 256) (segs : List Nat) : (ch.createdTable t segs).tValid t = true :=
  Chan.tValid_putF _ ht (by decide)

theorem Chan.tValid_destroyedTable (ch : Chan) {t : Nat} (ht : t < 256) : (ch.destroyedTable t).tValid t = false :=
  Chan.tValid_putF _ ht (by decide)

/-- The word of TCTRL that creates, and the one that destroys. -/
theorem tctrlHook_create {ch : Chan} {w : WReq} {t : Nat} (ht : t < 256) (ho : w.off = TBL.TCTRL) (hv : w.v = BitVec.ofNat 32 (2 ^ 31 + t % 256)) :
    tctrlHook w ch = (ch.createTable t).1.putN pgTbl TBL.TCTRL_STAT (ch.createTable t).2 := by
  have hfld : fld w.v 7 0 = t := by
    rw [hv, fld, BitVec.toNat_ofNat, Nat.shiftRight_zero]
    omega
  have hbit : bit w.v 31 = true := by
    rw [hv, bit, BitVec.toNat_ofNat, Nat.shiftRight_eq_div_pow, beq_iff_eq]
    omega
  rw [tctrlHook, if_pos hbit, hfld, ho]

theorem tctrlHook_destroy {ch : Chan} {w : WReq} {t : Nat} (ht : t < 256) (ho : w.off = TBL.TCTRL) (hv : w.v = BitVec.ofNat 32 (2 ^ 30 + t % 256)) :
    tctrlHook w ch = (ch.destroyTable t).1.putN pgTbl TBL.TCTRL_STAT (ch.destroyTable t).2 := by
  have hfld : fld w.v 7 0 = t := by
    rw [hv, fld, BitVec.toNat_ofNat, Nat.shiftRight_zero]
    omega
  have hbit31 : bit w.v 31 = false := by
    rw [hv, bit, BitVec.toNat_ofNat, Nat.shiftRight_eq_div_pow, beq_eq_false_iff_ne]
    omega
  have hbit30 : bit w.v 30 = true := by
    rw [hv, bit, BitVec.toNat_ofNat, Nat.shiftRight_eq_div_pow, beq_iff_eq]
    omega
  rw [tctrlHook, if_neg (by simp [hbit31]), if_pos hbit30, hfld, ho]

/-- A command at the host's port that leaves the channel `x` and answers `n`. -/
theorem State.tctrl_answers {s t : State} {c : Fin 4} {w : WReq} {x : Chan} {n : Nat} (ht : HeaderStep pgTbl c s t) (hq : (s.chan c).outQ = [])
    (hhook : tctrlHook w (t.chan c) = x.putN pgTbl TBL.TCTRL_STAT n) (hx : Stays tablePages tableStrip (t.chan c) x) (ho : x.outQ = (t.chan c).outQ) :
    TableFrame s (t.runChan c (tctrlHook w)) c ∧ (t.runChan c (tctrlHook w)).chan c = { x.putN pgTbl TBL.TCTRL_STAT n with outQ := [] } := by
  have hirqs : OnlyIrqs (t.chan c).outQ := ht.chan.onlyIrqs (onlyIrqs_of_nil hq)
  have hafter : OnlyIrqs (tctrlHook w (t.chan c)).outQ := by
    rw [hhook]
    show OnlyIrqs x.outQ
    rwa [ho]
  have hplain : NoFatal (t.chan c).outQ := fun o h => by
    obtain ⟨key, rfl⟩ := hirqs o h
    rfl
  constructor
  · refine keeps_trans (ht.keeps List.mem_cons_self _) (Stays.keeps ?_ hplain)
    rw [hhook]
    exact hx.trans (.putTbl _ _ (by decide))
  · rw [State.runChan_chan hafter, if_pos rfl, hhook]

end Sys2Proof.Machine

namespace Sys2Proof.Proofs

open Sys2Proof Sys2Proof.Machine

/-- Settles O43 (R370): the tally of PF0's write leaves what CREATE and DESTROY judge, and they write only the tables and their registers. -/
theorem tablesAreCreatedAndDestroyed : Obligations.TablesAreCreatedAndDestroyed := by
  intro s c t hhost ht ch
  have hcreate : ∃ (u : State) (w : WReq), HeaderStep pgTbl c s u ∧ w.off = TBL.TCTRL ∧ w.v = BitVec.ofNat 32 (2 ^ 31 + t % 256) ∧
      exec (.tableCreate (.func 0) c false t) s = .next (u.runChan c (tctrlHook w)) := by
    obtain ⟨u, w, hu, ho, hv, hrun⟩ := State.tctrl_pf0 hhost (BitVec.ofNat 32 (2 ^ 31 + t % 256))
    exact ⟨u, w, hu, ho, hv, congrArg Host.Outcome.next hrun⟩
  have hdestroy : ∃ (u : State) (w : WReq), HeaderStep pgTbl c s u ∧ w.off = TBL.TCTRL ∧ w.v = BitVec.ofNat 32 (2 ^ 30 + t % 256) ∧
      exec (.tableDestroy (.func 0) c false t) s = .next (u.runChan c (tctrlHook w)) := by
    obtain ⟨u, w, hu, ho, hv, hrun⟩ := State.tctrl_pf0 hhost (BitVec.ofNat 32 (2 ^ 30 + t % 256))
    exact ⟨u, w, hu, ho, hv, congrArg Host.Outcome.next hrun⟩
  have hq := hhost.1.2
  obtain ⟨u, w, hu, ho, hv, hexec⟩ := hcreate
  obtain ⟨d, x, hd, hxo, hxv, hdexec⟩ := hdestroy
  refine ⟨fun h0 h3 hnew hdef hsegs hovf => ⟨_, hexec, ?_⟩, fun h0 hold => ⟨_, hexec, ?_⟩, fun hold => ⟨_, hdexec, ?_⟩⟩
  · have hok := Chan.createTable_ok (ch := u.chan c) h0 h3 ((hu.chan.tValid t).trans hnew) ((hu.chan.defLegal t).trans hdef)
      (by rw [hu.chan.tReps, hu.chan.tSegs, hu.chan.freeSegs]; exact hsegs)
      (by rw [hu.chan.tdef _ (by simp only; omega), hu.chan.ovfFree]; exact hovf)
    rw [hu.chan.tReps, hu.chan.tSegs, hu.chan.freeSegs] at hok
    obtain ⟨hframe, hchan⟩ := State.tctrl_answers hu hq (by rw [tctrlHook_create ht ho hv, hok]) (Chan.createdTable_stays _ ht _) rfl
    refine ⟨hframe, ?_⟩
    rw [hchan]
    refine ⟨Chan.nat_putN_clear _ _ _ (show tsOk < 2 ^ 32 by decide), ?_, ?_, ?_, ?_⟩
    · rw [Chan.tValid_clear, Chan.tValid_putN_stat, Chan.tValid_createdTable _ ht]
    · exact tget_tput_same _ _ _ _
    · exact (u.chan c).emAll_emptyTable t
    · exact tget_tput_same _ _ _ _
  · have hexists := Chan.createTable_exists (ch := u.chan c) h0 ((hu.chan.tValid t).trans hold)
    obtain ⟨hframe, hchan⟩ := State.tctrl_answers hu hq (by rw [tctrlHook_create ht ho hv, hexists]) (.refl _) rfl
    refine ⟨hframe, ?_⟩
    rw [hchan]
    exact ⟨Chan.nat_putN_clear _ _ _ (show tsExists < 2 ^ 32 by decide), hu.chan.work⟩
  · have hok := Chan.destroyTable_ok (ch := d.chan c) ((hd.chan.tValid t).trans hold)
    obtain ⟨hframe, hchan⟩ := State.tctrl_answers hd hq (by rw [tctrlHook_destroy ht hxo hxv, hok]) (Chan.destroyedTable_stays _ ht)
      (Chan.destroyedTable_outQ _ t)
    refine ⟨hframe, ?_⟩
    rw [hchan]
    refine ⟨Chan.nat_putN_clear _ _ _ (show tsOk < 2 ^ 32 by decide), ?_, ?_, ?_⟩
    · rw [Chan.tValid_clear, Chan.tValid_putN_stat, Chan.tValid_destroyedTable _ ht]
    · exact (congrArg (fun y : TblW => tget [] y.segs t) ((d.chan c).destroyedTable_tbl t)).trans (tget_tput_same _ _ _ _)
    · have htbl := congrArg (fun y : TblW => (y.em.filter (fun e => e.1 / 2 ^ 40 == t)).map (fun e => (e.1 % 2 ^ 40, e.2)))
        ((d.chan c).destroyedTable_tbl t)
      exact htbl.trans ((d.chan c).emAll_emptyTable t)

end Sys2Proof.Proofs
end

section
set_option Elab.async false
/-! PF0's write of a register and the state that it answers; an error that a page captures; and the frame of an effect that names single registers. -/

namespace Sys2Proof.Machine

/-! A channel whose outputs have been delivered reads as before. -/

theorem Chan.get_clear (ch : Chan) (p : Pg) (off : Nat) : Chan.get { ch with outQ := [] } p off = ch.get p off := rfl
theorem Chan.nat_clear (ch : Chan) (p : Pg) (off : Nat) : Chan.nat { ch with outQ := [] } p off = ch.nat p off := rfl
theorem Chan.getF_clear (ch : Chan) (p : Pg) (f : Fld) : Chan.getF { ch with outQ := [] } p f = ch.getF p f := rfl
theorem workOf_clear (ch : Chan) : workOf { ch with outQ := [] } = workOf ch := rfl

/-- PF0's write of a register without KW fields: the tally of the page, then the register's effect. -/
theorem State.hook_pf0 {s : State} {c : Fin 4} {p : Pg} {k : PageKind} (hr : HostReady s c) (hk : p.kind = some k) (hook : Hook) {off : Nat} (v : Word)
    {h : RegHit} (hf : findReg k off = some h) (hw : h.row.wide = false) (hh : h.high = false) (hkw : hasKw h.flds = false)
    (hj : wordLegal k off h v = true) :
    ∃ (t : State) (w : WReq), HeaderStep p c s t ∧ w.p = p ∧ w.off = off ∧ w.v = v ∧ w.merged = mergeWord h.row.fields ((t.chan c).get p off) v ∧
      s.chanWrite hook true (.func 0) c p off v = t.runChan c (hook w) := by
  obtain ⟨t, ht, -, hrun⟩ := State.chanWrite_pf0_runs (hook := hook) (judge := true) hr hk hf hw hh hkw (fun _ => hj)
  exact ⟨t, _, ht, rfl, rfl, rfl, rfl, hrun⟩

/-- The effect's frame, and the channel that it leaves, where nothing but interrupts is put out. -/
theorem HeaderStep.answers {s t : State} {c : Fin 4} {p : Pg} {f : Chan → Chan} {y : Chan} {pages : List Pg} {strip : Chan → Chan}
    (ht : HeaderStep p c s t) (hp : p ∈ pages) (hq : (s.chan c).outQ = []) (hf : f (t.chan c) = y) (hx : Stays pages strip (t.chan c) y)
    (ho : OnlyIrqs (t.chan c).outQ → OnlyIrqs y.outQ) :
    Keeps s (t.runChan c f) c pages strip ∧ (t.runChan c f).chan c = { y with outQ := [] } := by
  subst hf
  have hirqs : OnlyIrqs (t.chan c).outQ := ht.chan.onlyIrqs (onlyIrqs_of_nil hq)
  have hplain : NoFatal (t.chan c).outQ := fun o h => by
    obtain ⟨key, rfl⟩ := hirqs o h
    rfl
  refine ⟨keeps_trans (ht.keeps hp strip) (hx.keeps hplain), ?_⟩
  rw [State.runChan_chan (ho hirqs), if_pos rfl]

/-- An event of a running channel. -/
theorem State.onLive_of_ready {s : State} {c : Fin 4} (h : Ready s c) (f : Chan → Chan) : s.onLive c f = s.runChan c f := if_pos h.1

namespace Stays

variable {pages : List Pg} {strip : Chan → Chan}

theorem putList {p : Pg} (hp : p ∈ pages) : ∀ (l : List Nat) (ch : Chan) {off : Nat}, off + 4 * l.length ≤ 65536 →
    Stays pages strip ch (ch.putList p off l)
  | [], ch, _, _ => refl ch
  | _ :: l, ch, off, h => by
    rw [List.length_cons] at h
    exact (put ch hp _ (by omega)).trans (putList hp l _ (by omega))

/-- An error that a page of the frame captures (R69–R71). -/
theorem capture (ch : Chan) {p : Pg} (hp : p ∈ pages) (cls cause addr syn det : Nat) : Stays pages strip ch (ch.capture p cls cause addr syn det) := by
  have hwords : ∀ (c : Chan) (l : List Nat), l.length ≤ 8 → Stays pages strip c (c.putList p (oERR 0) l) := fun c l h =>
    putList hp l c (by simp only [oERR]; omega)
  unfold Chan.capture
  split
  · exact refl ch
  dsimp only
  split
  · split
    · refine Stays.trans (Stays.trans ?_ (put _ hp _ (by decide))) (put _ hp _ (by decide))
      exact ite (fun _ => hwords ch _ (by simp [Chan.capWords])) (fun _ => refl ch)
    · exact (emit ch rfl).trans (hwords _ _ (by simp [Chan.capWords]))
  · exact refl ch

end Stays

/-- From `a` to `b` the registers that `K` names, and what `strip` leaves of the channel beside its registers, outputs, journals and the next free
value, have stayed, and no fatal cause has been put out. -/
structure Spares (K : Nat → Prop) (strip : Chan → Chan) (a b : Chan) : Prop where
  work : strip { quietOf b with free := 0 } = strip { quietOf a with free := 0 }
  regs : ∀ key, K key → rget chanReset b.regs key = rget chanReset a.regs key
  outs : NoFatal a.outQ → NoFatal b.outQ

theorem Stays.spares {pages : List Pg} {strip : Chan → Chan} {a b : Chan} {K : Nat → Prop} (h : Stays pages strip a b)
    (hK : ∀ key, K key → key / 65536 ∉ (pgJrnl :: pages).map (fun p => p.key 0 / 65536)) : Spares K strip a b :=
  ⟨h.work, fun key hk => h.regs key (hK key hk), h.outs⟩

namespace Spares

variable {K : Nat → Prop} {strip : Chan → Chan} {a b c : Chan}

theorem refl (a : Chan) : Spares K strip a a := ⟨rfl, fun _ _ => rfl, id⟩

theorem trans (h : Spares K strip a b) (g : Spares K strip b c) : Spares K strip a c where
  work := g.work.trans h.work
  regs key hk := (g.regs key hk).trans (h.regs key hk)
  outs := g.outs ∘ h.outs

theorem mono {L : Nat → Prop} (h : Spares K strip a b) (hL : ∀ key, L key → K key) : Spares L strip a b :=
  ⟨h.work, fun key hk => h.regs key (hL key hk), h.outs⟩

theorem ite {p : Prop} [Decidable p] {x y : Chan} (hx : p → Spares K strip a x) (hy : ¬ p → Spares K strip a y) :
    Spares K strip a (if p then x else y) := by
  split
  · exact hx ‹_›
  · exact hy ‹_›

theorem each {α : Type} {f : Chan → α → Chan} (h : ∀ ch x, Spares K strip ch (f ch x)) (l : List α) (ch : Chan) : Spares K strip ch (ch.each l f) :=
  List.foldlRecOn (motive := fun d => Spares K strip ch d) l f (refl ch) (fun d hd x _ => hd.trans (h d x))

theorem put (ch : Chan) (p : Pg) (off : Nat) (v : Word) (h : ¬ K (p.key off)) : Spares K strip ch (ch.put p off v) :=
  ⟨rfl, fun _ hk => ch.rget_put_ne v (fun e => h (e ▸ hk)), id⟩

theorem of_work (h : strip { quietOf b with free := 0 } = strip { quietOf a with free := 0 }) (hr : b.regs = a.regs) (ho : b.outQ = a.outQ) :
    Spares K strip a b := ⟨h, fun _ _ => by rw [hr], fun ha => by rwa [ho]⟩

theorem get (h : Spares K strip a b) {p : Pg} {off : Nat} (hk : K (p.key off)) : b.get p off = a.get p off := h.regs _ hk

theorem of_headerOnly {p : Pg} (h : HeaderOnly p a b) (hK : ∀ key, K key → ¬ InHeader p key) : Spares K strip a b where
  work := congrArg (fun x => strip { x with free := 0 }) h.quiet
  regs key hk := h.regs key (hK key hk)
  outs ha o ho := (h.outs o ho).elim (ha o) (fun e => by rw [e]; rfl)

theorem emit (ch : Chan) {o : Out} (h : o.isFatal = false) : Spares K strip ch (ch.emit o) :=
  ⟨rfl, fun _ _ => rfl, (Stays.emit (pages := []) (strip := id) ch h).outs⟩

theorem when (ch : Chan) (q : Bool) {f : Chan → Chan} (h : Spares K strip ch (f ch)) : Spares K strip ch (ch.when q f) :=
  ite (fun _ => h) (fun _ => refl ch)

section
variable {p : Pg} (hK : ∀ off, 0x40 ≤ off → off < 0x60 → ¬ K (p.key off))
include hK

theorem putErrors : ∀ (l : List Nat) (ch : Chan) {off : Nat}, 0x40 ≤ off → off + 4 * l.length ≤ 0x60 → Spares K strip ch (ch.putList p off l)
  | [], ch, _, _, _ => refl ch
  | _ :: l, ch, off, hlo, h => by
    rw [List.length_cons] at h
    exact (put ch p _ _ (hK _ hlo (by omega))).trans (putErrors l _ (by omega) (by omega))

/-- An error that the page captures leaves what is no word of the capture (R69–R71). -/
theorem captureErrors (ch : Chan) (cls cause addr syn det : Nat) : Spares K strip ch (ch.capture p cls cause addr syn det) := by
  have hwords : ∀ (c : Chan) (l : List Nat), l.length ≤ 8 → Spares K strip c (c.putList p (oERR 0) l) := fun c l h =>
    putErrors hK l c (by decide) (by simp only [oERR]; omega)
  have hword : ∀ (c : Chan) (v : Word) {off : Nat}, 0x40 ≤ off → off < 0x60 → Spares K strip c (c.put p off v) := fun c v _ hlo hhi =>
    put c p _ v (hK _ hlo hhi)
  unfold Chan.capture
  split
  · exact refl ch
  dsimp only
  split
  · split
    · refine ((ite (fun _ => hwords ch _ ?_) (fun _ => refl ch)).trans (hword _ _ (by decide) (by decide))).trans (hword _ _ (by decide) (by decide))
      simp [Chan.capWords]
    · exact (emit ch rfl).trans (hwords _ _ (by simp [Chan.capWords]))
  · exact refl ch

end

section
variable {p : Pg} (hK : ∀ key, K key → ¬ InHeader p key)
include hK

theorem putHeader (ch : Chan) (v : Word) {off : Nat} (h : off < 0x100) : Spares K strip ch (ch.put p off v) :=
  put ch p off v (fun hk => hK _ hk (inHeader_key p h))

/-- An error that the page captures (R69–R71). -/
theorem capture (ch : Chan) (cls cause addr syn det : Nat) : Spares K strip ch (ch.capture p cls cause addr syn det) :=
  captureErrors (fun _ _ h hk => hK _ hk (inHeader_key p (by omega))) ch cls cause addr syn det

/-- The carry of a counter of the page raises TALLY_OVF. -/
theorem carry (r : Chan × Bool) : Spares K strip r.1 (if r.2 then r.1.orCause p 0x10 else r.1) :=
  ite (fun _ => of_headerOnly (.orCause p _ _) hK) (fun _ => refl _)

/-- A cause of the page (R62–R67). -/
theorem raiseMask (ch : Chan) (m : Nat) : Spares K strip ch (ch.raiseMask p m) := by
  unfold Chan.raiseMask
  dsimp only
  have hnote : Spares K strip ch (ch.noteCauses p (Nat.land m (2 ^ 32 - 1 - ch.nat p oCAUSE))) :=
    (when ch _ (emit ch rfl)).trans (when _ _ (emit _ rfl))
  refine Spares.trans ?_ (of_headerOnly (.edge p _ _) hK)
  exact ((hnote.trans (of_headerOnly (.orCause p _ m) hK)).trans (of_headerOnly (.tallyAdd p _ 8 {} _) hK)).trans (carry hK _)

theorem raise (ch : Chan) (n : Nat) : Spares K strip ch (ch.raise p n) := raiseMask hK ch _

theorem tally (ch : Chan) (code : Nat) (at_ : Attr) (n : Nat) : Spares K strip ch (ch.tally p code at_ n) :=
  of_headerOnly (.tally p ch code at_ n) hK

end

section
variable (hK : ∀ key, K key → key / 65536 ≠ pgJrnl.key 0 / 65536)
include hK

theorem of_jrnl (h : Stays [] strip a b) : Spares K strip a b := h.spares (fun key hk hm => hK key hk (by simpa using hm))

theorem journal (ch : Chan) (p : Pg) (cls ev detail : Nat) : Spares K strip ch (ch.journal p cls ev detail) := of_jrnl hK (.journal ch p cls ev detail)

theorem journalSec (ch : Chan) (p : Pg) (cls ev sub base mult n lim : Nat) : Spares K strip ch (ch.journalSec p cls ev sub base mult n lim) :=
  of_jrnl hK (.journalSec ch p cls ev sub base mult n lim)

end

end Spares

end Sys2Proof.Machine
end

section
set_option Elab.async false
/-! What the traffic manager's shared operations leave: taking packets out of queues and freeing their buffers (R426, R432–R438). -/

namespace Sys2Proof.Machine

/-- A register that these operations may write: the journal's, DOUBLE_FREE, FOREIGN_FREE and the header of CADDY, the header of VOQ, XOFF_STAT and
the header of ADM, and a port's counters. -/
def TmKey (key : Nat) : Prop :=
  key / 65536 = pgJrnl.key 0 / 65536 ∨ InHeader pgCaddy key ∨ key = pgCaddy.key CADDY.DOUBLE_FREE ∨ key = pgCaddy.key CADDY.FOREIGN_FREE ∨
    InHeader pgVoq key ∨ key / 65536 = pgAdm.key 0 / 65536 ∨ (0x30 ≤ key / 65536 ∧ key / 65536 < 0x38 ∧ 16 ≤ key % 1024)

/-- The working state of a port without the control frames that wait and the PFC that is asked for. -/
def PortWork.link (w : PortWork) : PortWork := { w with ctl := [], xoff := 0, xoffAt := [] }

/-- They change buffers, queues and accounts, the requests that follow the queues over the fabric, and the PFC that ports send: port `own`, as any
port, keeps its link. -/
abbrev tmStrip (own : Nat) (ch : Chan) : Chan := { ch with cad := {}, fab := {}, ports := [(own, (ch.pw own).link)] }

/-! The registers of the line ports. -/

theorem portPg_page (p : Nat) : ∃ i, portPg p = pgLine i ∧ (p < 64 → i < 8) := by
  unfold portPg
  split
  · exact ⟨_, rfl, fun _ => by omega⟩
  · exact ⟨_, rfl, fun _ => by omega⟩

theorem portBlk_lt (p : Nat) : portBlk p < 8 := by
  unfold portBlk
  split <;> omega

theorem pgLine_page (i : Nat) : (pgLine i).key 0 / 65536 = 0x30 + i := by
  simp only [Pg.key]
  norm_num

abbrev TmOnly (own : Nat) : Chan → Chan → Prop := Spares (fun key => ¬ TmKey key) (tmStrip own)

namespace TmOnly

variable {own : Nat}

theorem not_journal (key : Nat) (h : ¬ TmKey key) : key / 65536 ≠ pgJrnl.key 0 / 65536 := fun e => h (.inl e)
theorem not_caddy (key : Nat) (h : ¬ TmKey key) : ¬ InHeader pgCaddy key := fun e => h (.inr (.inl e))
theorem not_voq (key : Nat) (h : ¬ TmKey key) : ¬ InHeader pgVoq key := fun e => h (.inr (.inr (.inr (.inr (.inl e)))))
theorem not_adm (key : Nat) (h : ¬ TmKey key) : key / 65536 ≠ pgAdm.key 0 / 65536 := fun e => h (.inr (.inr (.inr (.inr (.inr (.inl e))))))

theorem putDoubleFree (ch : Chan) (n : Nat) : TmOnly own ch (ch.putN pgCaddy CADDY.DOUBLE_FREE n) :=
  .put ch _ _ _ (not_not.2 (.inr (.inr (.inl rfl))))

theorem putForeignFree (ch : Chan) (n : Nat) : TmOnly own ch (ch.putN pgCaddy CADDY.FOREIGN_FREE n) :=
  .put ch _ _ _ (not_not.2 (.inr (.inr (.inr (.inl rfl)))))

theorem putAdm (ch : Chan) {off : Nat} (v : Word) (h : off < 65536) : TmOnly own ch (ch.put pgAdm off v) :=
  .put ch _ _ _ (fun hk => not_adm _ hk (pgAdm.key_div h))

theorem putPort (ch : Chan) {p : Nat} (hp : p < 64) {off : Nat} (v : Word) (h : off < 65536) (hlow : 16 ≤ off % 1024) :
    TmOnly own ch (ch.put (portPg p) off v) := by
  obtain ⟨i, hi, hlt⟩ := portPg_page p
  refine .put ch _ _ _ (not_not.2 (.inr (.inr (.inr (.inr (.inr (.inr ?_)))))))
  have := hlt hp
  have hkey : (portPg p).key off = (0x30 + i) * 65536 + off := by
    rw [hi, Pg.key]
    norm_num
    omega
  rw [hkey]
  omega

theorem admHeader (key : Nat) (h : ¬ TmKey key) : ¬ InHeader pgAdm key := fun hh => not_adm key h hh.page

/-! Caddy's fields. -/

theorem onCad (ch : Chan) (x : CadW) : TmOnly own ch { ch with cad := x } := .of_work rfl rfl rfl
theorem putBuf (ch : Chan) (h : Nat) (x : Buf) : TmOnly own ch (ch.putBuf h x) := onCad ch _
theorem putAcct (ch : Chan) (a : Nat) (x : Acct) : TmOnly own ch (ch.putAcct a x) := onCad ch _
theorem putAcctPool (ch : Chan) (a p : Nat) (x : AcctPool) : TmOnly own ch (ch.putAcctPool a p x) := onCad ch _
theorem putHbmRegion (ch : Chan) (r : Nat) (x : HbmRegion) : TmOnly own ch (ch.putHbmRegion r x) := onCad ch _
theorem putQue (ch : Chan) (q : Nat) (x : Que) : TmOnly own ch (ch.putQue q x) := onCad ch _
theorem onFab (ch : Chan) (f : FabW → FabW) : TmOnly own ch (ch.onFab f) := .of_work rfl rfl rfl
theorem putPw (ch : Chan) (p : Nat) {w : PortWork} (h : w.link = (ch.pw p).link) : TmOnly own ch (ch.putPw p w) := by
  have hlink : ((ch.putPw p w).pw own).link = (ch.pw own).link := by
    by_cases hp : own = p
    · rw [hp, Chan.pw, show (ch.putPw p w).ports = tput {} ch.ports p w from rfl, tget_tput_same, h]
    · exact congrArg PortWork.link (tget_tput_ne _ _ _ hp)
  exact .of_work (congrArg (fun x => ({ quietOf ch with free := 0, cad := {}, fab := {}, ports := [(own, x)] } : Chan)) hlink) rfl rfl

/-! Frees (R426). -/

theorem acctSettle (ch : Chan) (a : Nat) : TmOnly own ch (ch.acctSettle a) := by
  unfold Chan.acctSettle
  exact .ite (fun _ => (putAcct ch _ _).trans (.journal not_journal _ _ _ _ _)) (fun _ => .refl ch)

theorem regionSettle (ch : Chan) (r : Nat) : TmOnly own ch (ch.regionSettle r) := by
  unfold Chan.regionSettle
  exact .ite (fun _ => ((putHbmRegion ch _ _).trans (.raise not_caddy _ _)).trans (.journal not_journal _ _ _ _ _)) (fun _ => .refl ch)

theorem releaseBuf (ch : Chan) (h : Nat) : TmOnly own ch (ch.releaseBuf h) := by
  unfold Chan.releaseBuf
  dsimp only
  have hfree : ∀ x y, TmOnly own ch ((((ch.putBuf h x).putAcctPool (ch.buf h).owner (ch.buf h).pool y).tally pgCaddy 0x11).acctSettle (ch.buf h).owner) :=
    fun x y => (((putBuf ch h x).trans (putAcctPool _ _ _ y)).trans (.tally not_caddy _ 0x11 {} 1)).trans (acctSettle _ _)
  split
  · exact (hfree _ _).trans (regionSettle _ _)
  · exact hfree _ _

theorem freeBuf (ch : Chan) (h a : Nat) (part : Option Nat) : TmOnly own ch (ch.freeBuf h a part) := by
  unfold Chan.freeBuf
  dsimp only
  refine .ite (fun _ => ?_) (fun _ => .ite (fun _ => ?_) (fun _ => .ite (fun _ => putBuf ch _ _) (fun _ => releaseBuf ch h)))
  · exact (((putDoubleFree ch _).trans (.capture not_caddy _ _ _ _ _ _)).trans (.raise not_caddy _ _)).trans (.journalSec not_journal _ _ _ _ _ _ _ _ _)
  · exact (((putForeignFree ch _).trans (.capture not_caddy _ _ _ _ _ _)).trans (.raise not_caddy _ _)).trans (.journalSec not_journal _ _ _ _ _ _ _ _ _)

theorem hwFree (ch : Chan) (h : Nat) : TmOnly own ch (ch.hwFree h) := freeBuf ch h _ _

/-! Queues (R432–R438). -/

theorem place (ch : Chan) (q : Nat) : TmOnly own ch (ch.place q) := by
  unfold Chan.place
  dsimp only
  exact .ite (fun _ => .refl ch) (fun _ => .ite (fun _ => (putQue ch _ _).trans (.tally not_voq _ _ _ _)) (fun _ => putQue ch _ _))

theorem portInc (ch : Chan) {p : Nat} (hp : p < 64) (f : Nat → Nat) (n : Nat) (h : f (portBlk p) + 4 < 65536)
    (hlow : 16 ≤ f (portBlk p) % 1024 ∧ 16 ≤ (f (portBlk p) + 4) % 1024) : TmOnly own ch (ch.portInc p f n) :=
  (putPort ch hp _ (by omega) hlow.1).trans (putPort _ hp _ h hlow.2)

theorem sendControl (ch : Chan) {p : Nat} (hp : p < 64) (f : CtlFrame) : TmOnly own ch (ch.sendControl p f) := by
  have hblk := portBlk_lt p
  unfold Chan.sendControl
  refine .ite (fun _ => portInc ch hp _ _ ?_ ?_) (fun _ => .ite (fun _ => portInc ch hp _ _ ?_ ?_) (fun _ => putPw ch _ rfl))
  all_goals
    simp only [LINE.TX_DOWN_DROP, LINE.TX_INS_DROP]
    omega

theorem sendPfc (ch : Chan) {p : Nat} (hp : p < 64) (cls quanta : Nat) : TmOnly own ch (ch.sendPfc p cls quanta) := by
  unfold Chan.sendPfc
  dsimp only
  have hnote : TmOnly own ch (if quanta = 0 then ch else ch.putPw p { ch.pw p with xoffAt := tput 0 (ch.pw p).xoffAt cls ch.ns }) :=
    .ite (fun _ => .refl ch) (fun _ => putPw ch p (w := { ch.pw p with xoffAt := tput 0 (ch.pw p).xoffAt cls ch.ns }) rfl)
  exact .ite (fun _ => hnote.trans (sendControl _ hp _)) (fun _ => .refl ch)

theorem askPfc (ch : Chan) {p : Nat} (hp : p < 64) (cls : Nat) (on : Bool) : TmOnly own ch (ch.askPfc p cls on) := by
  unfold Chan.askPfc
  dsimp only
  exact (putPw ch p (w := { ch.pw p with xoff := setNbit (ch.pw p).xoff cls on }) rfl).trans (sendPfc _ hp _ _)

theorem setXoff (ch : Chan) (x : Nat) (on : Bool) : TmOnly own ch (ch.setXoff x on) := by
  unfold Chan.setXoff
  dsimp only
  have hreg : TmOnly own ch (ch.putB pgAdm (xoffBit x) on) := putAdm ch _ (show 0x400 + 4 * (x / 8 % 64) < 65536 by omega)
  have hdone := hreg.trans (Spares.ite (p := on = true) (fun _ => (Spares.raise admHeader _ 11).trans (.tally admHeader _ 0x12 {} 1))
    (fun _ => .tally admHeader _ 0x13 {} 1))
  exact .ite (fun hx => hdone.trans (askPfc _ (by omega) _ _)) (fun _ => hdone)

theorem setHeld (ch : Chan) (x n : Nat) : TmOnly own ch (ch.setHeld x n) := by
  unfold Chan.setHeld
  dsimp only
  exact .ite (fun _ => (onCad ch _).trans (setXoff _ _ _)) (fun _ => .ite (fun _ => (onCad ch _).trans (setXoff _ _ _)) (fun _ => onCad ch _))

theorem sendEntry (ch : Chan) (d typ entry : Nat) : TmOnly own ch (ch.sendEntry d typ entry) := by
  unfold Chan.sendEntry
  exact onFab ch _

theorem sendReq (ch : Chan) (q : Nat) (on : Bool) : TmOnly own ch (ch.sendReq q on) := by
  unfold Chan.sendReq
  split
  · exact .ite (fun _ => sendEntry ch _ _ _) (fun _ => .refl ch)
  · exact .refl ch

theorem voqReq (ch : Chan) (q : Nat) : TmOnly own ch (ch.voqReq q) := by
  unfold Chan.voqReq
  dsimp only
  exact .ite (fun _ => .refl ch) (fun _ => .ite (fun _ => onFab ch _) (fun _ => (onFab ch _).trans (sendReq _ _ _)))

theorem takeOut (ch : Chan) (q : Nat) (f : QEnt → Bool) : TmOnly own ch (ch.takeOut q f) := by
  have hheld : ∀ (c : Chan) (l : List QEnt), TmOnly own c (c.each l (fun c e => c.setHeld e.pc (c.heldCnt e.pc - e.len))) := fun c l =>
    Spares.each (f := fun c (e : QEnt) => c.setHeld e.pc (c.heldCnt e.pc - e.len)) (fun c e => setHeld c e.pc (c.heldCnt e.pc - e.len)) l c
  have hall : ∀ (x : Que) (l : List QEnt),
      TmOnly own ch (((((ch.place q).putQue q x).each l (fun c e => c.setHeld e.pc (c.heldCnt e.pc - e.len))).place q).voqReq q) := fun x l =>
    ((((place ch q).trans (putQue _ q x)).trans (hheld _ l)).trans (place _ q)).trans (voqReq _ q)
  exact hall _ _

end TmOnly

end Sys2Proof.Machine
end

section
set_option Elab.async false
/-! The scheduler's nodes and the gate control lists (R461, R465–R468, R475–R477). -/

namespace Sys2Proof.Machine

/-- The pages of the scheduler and the gates, and what their commands may change beside registers. -/
abbrev schedPages : List Pg := [pgSched, pgSpout]
abbrev schedStrip (ch : Chan) : Chan := { ch with sch := {} }

theorem mem_sched : pgSched ∈ schedPages := List.mem_cons_self
theorem mem_spout : pgSpout ∈ schedPages := List.mem_cons_of_mem _ List.mem_cons_self

namespace HeaderOnly

variable {p : Pg} {a b : Chan} (h : HeaderOnly p a b)
include h

theorem node (n : Nat) : b.node n = a.node n := congrArg (fun x => x.node n) h.work

theorem nodeResult (n : Nat) (y : Node) : b.nodeResult n y = a.nodeResult n y := by
  have hwork := congrArg (fun x : Chan => x.nodeResult n y) h.work
  exact hwork

theorem glist (n : Nat) : b.glist n = a.glist n := congrArg (fun x => x.glist n) h.work

end HeaderOnly

/-- A block register of the page is none of its header. -/
theorem not_inHeader_sched {off : Nat} (h : 0x100 ≤ off) : ¬ InHeader pgSched (pgSched.key off) := by
  simp only [InHeader, Pg.key]
  norm_num
  omega

theorem not_inHeader_spout {off : Nat} (h : 0x100 ≤ off) : ¬ InHeader pgSpout (pgSpout.key off) := by
  simp only [InHeader, Pg.key]
  norm_num
  omega

theorem HeaderOnly.askedNode {a b : Chan} (h : HeaderOnly pgSched a b) : b.askedNode = a.askedNode := by
  have hget : ∀ i, b.nat pgSched (SCHED.NODE_W i) = a.nat pgSched (SCHED.NODE_W i) := fun i => by
    rw [Chan.nat, Chan.nat, h.get (not_inHeader_sched (by unfold SCHED.NODE_W; omega))]
  simp only [Chan.askedNode, hget]

theorem HeaderOnly.selNode {a b : Chan} (h : HeaderOnly pgSched a b) : b.getF pgSched SCHED.NODE_SEL_NODE = a.getF pgSched SCHED.NODE_SEL_NODE :=
  h.getF (not_inHeader_sched (by decide))

theorem HeaderOnly.selList {a b : Chan} (h : HeaderOnly pgSpout a b) : b.selList = a.selList := h.getF (not_inHeader_spout (by decide))

/-! Nodes. -/

@[simp] theorem Chan.node_putNode_same (ch : Chan) (n : Nat) (x : Node) : (ch.putNode n x).node n = x := rget_rput_same _ _ _ _

theorem Chan.node_putNode_ne (ch : Chan) {m n : Nat} (x : Node) (h : m ≠ n) : (ch.putNode n x).node m = ch.node m := rget_rput_ne _ _ _ h

theorem Stays.putNode (ch : Chan) (n : Nat) (x : Node) : Stays schedPages schedStrip ch (ch.putNode n x) := of_work rfl rfl rfl
theorem Stays.putGlist (ch : Chan) (n : Nat) (x : GateList) : Stays schedPages schedStrip ch (ch.putGlist n x) := of_work rfl rfl rfl

/-- The readout of a node writes registers only. -/
theorem Chan.loadNode_work (ch : Chan) (n : Nat) : workOf (ch.loadNode n) = workOf ch ∧ (ch.loadNode n).outQ = ch.outQ := ⟨rfl, rfl⟩

theorem Chan.nat_loadNode (ch : Chan) (n : Nat) : (ch.loadNode n).nat pgSched (SCHED.NODE_W 0) = (ch.node n).w0 % 2 ^ 32 ∧
    (ch.loadNode n).nat pgSched (SCHED.NODE_W 2) = (ch.node n).cir % 2 ^ 32 := by
  simp (disch := decide) only [Chan.loadNode, Chan.nat, Chan.putList, Chan.putN, Chan.get_put_ne, Chan.get_put_same, BitVec.toNat_ofNat, and_self]

theorem Chan.get_loadNode (ch : Chan) (n : Nat) : (ch.loadNode n).get pgSched SCHED.NODE_SEL = ch.get pgSched SCHED.NODE_SEL := by
  simp (disch := decide) only [Chan.loadNode, Chan.putList, Chan.putN, Chan.get_put_ne]

/-- A node that takes valid words holds them. -/
theorem Chan.node_applyNode (ch : Chan) (n : Nat) {y : Node} (hy : y.valid = true) :
    let z := (ch.applyNode n y).node n
    z.w0 = y.w0 ∧ z.w1 = y.w1 ∧ z.cir = y.cir ∧ z.pir = y.pir ∧ z.cbs = y.cbs ∧ z.pbs = y.pbs ∧ z.w6 = y.w6 := by
  unfold Chan.applyNode
  simp only [hy, if_true, Chan.node_putNode_same, and_self]

/-! The register writes, as PF0 issues them. -/

theorem fld_ofNat_low {n k : Nat} (hk : k < 32) (hn : n < 2 ^ (k + 1)) : fld (BitVec.ofNat 32 n) k 0 = n := by
  have h32 : 2 ^ (k + 1) ≤ 2 ^ 32 := Nat.pow_le_pow_right (by decide) (by omega)
  rw [fld, BitVec.toNat_ofNat, Nat.shiftRight_zero, Nat.mod_eq_of_lt (hn.trans_le h32)]
  exact Nat.mod_eq_of_lt hn

/-- NODE_SEL shows a node (R475). -/
theorem State.nodeSelWrite_answers {s : State} {c : Fin 4} (h : HostReady s c) {n : Nat} (hn : n < 2 ^ 17) :
    ∃ u, exec (.nodeSelWrite (.func 0) c n) s = .next u ∧ Keeps s u c schedPages schedStrip ∧ (u.chan c).getF pgSched SCHED.NODE_SEL_NODE = n ∧
      (u.chan c).nat pgSched (SCHED.NODE_W 0) = ((s.chan c).node n).w0 % 2 ^ 32 ∧
      (u.chan c).nat pgSched (SCHED.NODE_W 2) = ((s.chan c).node n).cir % 2 ^ 32 ∧ workOf (u.chan c) = workOf (s.chan c) := by
  obtain ⟨t, w, ht, hp, ho, hv, hm, hrun⟩ := State.hook_pf0 h (p := pgSched) (k := .sched) rfl nodeSelHook (off := SCHED.NODE_SEL)
    (BitVec.ofNat 32 (n % 2 ^ 17)) (h := ⟨⟨0x100, 0, 1, 0, 1, 0x0, false, [⟨16, 0, .mw, []⟩], []⟩, false⟩) (by decide) rfl rfl rfl rfl
  rw [Nat.mod_eq_of_lt hn] at hv hm
  have hsel : fld (BitVec.ofNat 32 n) 16 0 = n := fld_ofNat_low (by decide) hn
  have hhook : nodeSelHook w (t.chan c) = ((t.chan c).put pgSched SCHED.NODE_SEL w.merged).loadNode n := by rw [nodeSelHook, hp, ho, hv, hsel]
  obtain ⟨hkeeps, hchan⟩ := ht.answers (strip := schedStrip) mem_sched h.1.2 hhook
    ((Stays.put _ mem_sched _ (by decide)).trans (.putList mem_sched _ _ (show 0x110 + 4 * 8 ≤ 65536 by decide))) id
  refine ⟨_, congrArg Host.Outcome.next hrun, hkeeps, ?_⟩
  rw [hchan, Chan.nat_clear, Chan.nat_clear, Chan.getF_clear, workOf_clear, ← ht.chan.node, Chan.getF, Chan.get_loadNode, Chan.get_put_same, hm]
  refine ⟨?_, (Chan.nat_loadNode _ n).1, (Chan.nat_loadNode _ n).2, ht.chan.work⟩
  exact (fld_setFld_same _ 16 0 _ (by decide) (by decide)).trans (by rw [hsel, Nat.mod_eq_of_lt hn])

/-- NODE_CMD answers with the result, and raises its cause (R461). -/
theorem State.nodeCmd_answers {s : State} {c : Fin 4} (h : HostReady s c) :
    let n := (s.chan c).getF pgSched SCHED.NODE_SEL_NODE
    let y := (s.chan c).askedNode
    let res := (s.chan c).nodeResult n y
    ∃ (u : State) (x : Chan), exec (.nodeCmd (.func 0) c) s = .next u ∧ Keeps s u c schedPages schedStrip ∧ workOf x = workOf (s.chan c) ∧
      (u.chan c).nat pgSched SCHED.NODE_STAT = (2 ^ 30 + res * 2 ^ 16) % 2 ^ 32 ∧
      workOf (u.chan c) = workOf (if res = 0 then x.applyNode n y else x) := by
  intro n y res
  obtain ⟨t, w, ht, hp, ho, hv, hm, hrun⟩ := State.hook_pf0 h (p := pgSched) (k := .sched) rfl nodeCmdHook (off := SCHED.NODE_CMD)
    (BitVec.ofNat 32 (2 ^ 31)) (h := ⟨⟨0x104, 0, 1, 0, 1, 0x0, false, [⟨31, 31, .womw, []⟩], []⟩, false⟩) (by decide) rfl rfl rfl rfl
  have hhook : nodeCmdHook w (t.chan c) =
      ((if res = 0 then (t.chan c).applyNode n y else t.chan c).putN pgSched SCHED.NODE_STAT (2 ^ 30 + res * 2 ^ 16)).raise pgSched 8 := by
    have hgo : bit w.v 31 = true := by
      rw [hv]
      decide
    rw [nodeCmdHook, if_pos hgo]
    dsimp only
    rw [ht.chan.selNode, ht.chan.askedNode, ht.chan.nodeResult]
  have hraise := fun x : Chan => HeaderOnly.raiseMask pgSched x (m := 2 ^ 8) rfl rfl
  have happly : Stays schedPages schedStrip (t.chan c) (if res = 0 then (t.chan c).applyNode n y else t.chan c) :=
    .ite (fun _ => .putNode _ _ _) (fun _ => .refl _)
  obtain ⟨hkeeps, hchan⟩ := ht.answers (strip := schedStrip) mem_sched h.1.2 hhook
    ((happly.trans (.put _ mem_sched _ (by decide))).trans (.of_headerOnly mem_sched (hraise _))) (fun hi => by
    refine (hraise _).onlyIrqs ?_
    show OnlyIrqs (if res = 0 then (t.chan c).applyNode n y else t.chan c).outQ
    split <;> exact hi)
  refine ⟨_, t.chan c, congrArg Host.Outcome.next hrun, hkeeps, ht.chan.work, ?_⟩
  rw [hchan, Chan.nat_clear, workOf_clear]
  refine ⟨?_, (hraise _).work⟩
  rw [Chan.nat, Chan.raise, (hraise _).get (not_inHeader_sched (by decide)), Chan.putN, Chan.get_put_same, BitVec.toNat_ofNat]

theorem Chan.nodeResult_le (ch : Chan) (n : Nat) (y : Node) : ch.nodeResult n y ≤ 4 := by
  unfold Chan.nodeResult
  dsimp only
  split_ifs <;> decide

/-- An event of a running channel whose effect is framed. -/
theorem State.onLive_stays {s : State} {c : Fin 4} {f : Chan → Chan} {pages : List Pg} {strip : Chan → Chan} (h : Ready s c)
    (hf : Stays pages strip (s.chan c) (f (s.chan c))) :
    Keeps s (s.onLive c f) c pages strip ∧ Calm (f (s.chan c)) ((s.onLive c f).chan c) := by
  rw [State.onLive_of_ready h]
  exact ⟨hf.keeps (noFatal_of_nil h.2), State.runChan_calm (hf.outs (noFatal_of_nil h.2))⟩

/-- What the delivery of outputs leaves of a channel's work. -/
theorem Stays.sch {pages : List Pg} {a b : Chan} (h : Stays pages id a b) : b.sch = a.sch := by
  have hwork := congrArg (fun ch : Chan => ch.sch) h.work
  exact hwork

theorem Chan.node_congr {a b : Chan} (h : b.sch = a.sch) (n : Nat) : b.node n = a.node n := by rw [Chan.node, h, Chan.node]

theorem Chan.glist_congr {a b : Chan} (h : b.sch = a.sch) (n : Nat) : b.glist n = a.glist n := by rw [Chan.glist, h, Chan.glist]

theorem Spares.sch {K : Nat → Prop} {a b : Chan} (h : Spares K (tmStrip 0) a b) : b.sch = a.sch := by
  have hwork := congrArg (fun ch : Chan => ch.sch) h.work
  exact hwork

/-- NODE_UE marks a valid node faulty, and captures and journals the error (R461). -/
theorem State.nodeUe_marks {s : State} {c : Fin 4} (h : Ready s c) {n : Nat} (w : Nat) (hn : n < 131072) (hv : ((s.chan c).node n).valid = true) :
    ∃ u, exec (.nodeUe c n w) s = .next u ∧ Keeps s u c schedPages schedStrip ∧
      (u.chan c).sch = ((s.chan c).putNode n { (s.chan c).node n with fault := true }).sch := by
  let x := (s.chan c).putNode n { (s.chan c).node n with fault := true }
  have heffect : ∀ strip, Stays schedPages strip x (((x.capture pgSched clsContained 0 n 0 w).raise pgSched 0).journal pgSched clsContained 1 n) :=
    fun strip => ((Stays.capture x mem_sched _ _ _ _ _).trans (.raise _ mem_sched _)).trans (.journal _ _ _ _ _)
  obtain ⟨f, hf, hexec⟩ : ∃ f : Chan → Chan,
      f (s.chan c) = ((x.capture pgSched clsContained 0 n 0 w).raise pgSched 0).journal pgSched clsContained 1 n ∧
      exec (.nodeUe c n w) s = .next (s.onLive c f) := ⟨_, if_pos ⟨hn, hv⟩, rfl⟩
  obtain ⟨hkeeps, hcalm⟩ := State.onLive_stays (pages := schedPages) (strip := schedStrip) h (f := f) (by
    rw [hf]
    exact (Stays.putNode _ _ _).trans (heffect _))
  rw [hf] at hcalm
  exact ⟨_, hexec, hkeeps, hcalm.sch.trans (heffect id).sch⟩

/-! Gate control lists. -/

@[simp] theorem Chan.glist_putGlist_same (ch : Chan) (n : Nat) (x : GateList) : (ch.putGlist n x).glist n = x := tget_tput_same _ _ _ _

theorem Chan.glist_putGlist_ne (ch : Chan) {m n : Nat} (x : GateList) (h : m ≠ n) : (ch.putGlist n x).glist m = ch.glist m := tget_tput_ne _ _ _ h

/-- An error of a list's entry stops the list (R467). -/
theorem State.listUe_stops {s : State} {c : Fin 4} (h : Ready s c) {m e : Nat} (hm : m < 256) (hr : ((s.chan c).glist m).running = true)
    (he : e < (((s.chan c).glist m).bank ((s.chan c).glist m).oper).len) :
    ∃ u, exec (.listUe c m e) s = .next u ∧ Keeps s u c schedPages schedStrip ∧
      (u.chan c).sch = ((s.chan c).putGlist m { (s.chan c).glist m with ecc := true }).sch := by
  let x := (s.chan c).putGlist m { (s.chan c).glist m with ecc := true }
  have heffect : ∀ strip a d, Stays schedPages strip x ((x.capture pgSpout clsDegraded 0 a 0 0).journal pgSpout clsDegraded 5 d) :=
    fun strip a d => (Stays.capture x mem_spout _ _ _ _ _).trans (.journal _ _ _ _ _)
  obtain ⟨f, hf, hexec⟩ : ∃ f : Chan → Chan, (∃ a d, f (s.chan c) = (x.capture pgSpout clsDegraded 0 a 0 0).journal pgSpout clsDegraded 5 d) ∧
      exec (.listUe c m e) s = .next (s.onLive c f) := ⟨_, ⟨_, _, if_pos ⟨hm, hr, he⟩⟩, rfl⟩
  obtain ⟨a, d, hfx⟩ := hf
  obtain ⟨hkeeps, hcalm⟩ := State.onLive_stays (pages := schedPages) (strip := schedStrip) h (f := f) (by
    rw [hfx]
    exact (Stays.putGlist _ _ _).trans (heffect _ a d))
  rw [hfx] at hcalm
  exact ⟨_, hexec, hkeeps, hcalm.sch.trans (heffect id a d).sch⟩

/-- The word that names an entry. -/
theorem entIdx_word (oper : Bool) {idx : Nat} (h : idx < 1024) : fld (BitVec.ofNat 32 (b2n oper * 2 ^ 31 + idx)) 31 31 = b2n oper ∧
    fld (BitVec.ofNat 32 (b2n oper * 2 ^ 31 + idx)) 9 0 = idx := by
  have hb : b2n oper ≤ 1 := by cases oper <;> decide
  simp only [fld, BitVec.toNat_ofNat, Nat.shiftRight_eq_div_pow]
  omega

/-- The entry that ENT_IDX names is shown (R477). -/
theorem Chan.loadEnt_shows (ch : Chan) {w : Word} {oper : Bool} {idx : Nat} (h31 : fld w 31 31 = b2n oper) (h9 : fld w 9 0 = idx) :
    let k := if oper then (ch.glist ch.selList).bank (ch.glist ch.selList).oper else (ch.glist ch.selList).adm
    let x := (ch.put pgSpout SPOUT.ENT_IDX w).loadEnt
    x.nat pgSpout SPOUT.ENT_MASK = k.mask idx % 2 ^ 32 ∧ x.nat pgSpout SPOUT.ENT_DUR = k.dur idx := by
  intro k x
  have hsel : (ch.put pgSpout SPOUT.ENT_IDX w).selList = ch.selList := by
    rw [Chan.selList, Chan.getF, Chan.get_put_ne _ _ (by decide)]
    rfl
  have hoper : (ch.put pgSpout SPOUT.ENT_IDX w).getB pgSpout SPOUT.ENT_IDX_OPER = oper := by
    rw [Chan.getB, Chan.getF, Chan.get_put_same]
    show decide (fld w 31 31 ≠ 0) = oper
    rw [h31]
    cases oper <;> rfl
  have hidx : (ch.put pgSpout SPOUT.ENT_IDX w).getF pgSpout SPOUT.ENT_IDX_ENTRY = idx := by
    rw [Chan.getF, Chan.get_put_same]
    exact h9
  have hx : x = ((ch.put pgSpout SPOUT.ENT_IDX w).putN pgSpout SPOUT.ENT_MASK (k.mask idx)).putN pgSpout SPOUT.ENT_DUR (k.dur idx) := by
    show Chan.loadEnt _ = _
    unfold Chan.loadEnt
    rw [hsel, hoper, hidx]
    rfl
  have hdur : k.dur idx < 2 ^ 32 := Nat.mod_lt _ (by decide)
  rw [hx]
  constructor
  · rw [Chan.nat, Chan.putN, Chan.get_put_ne _ _ (by decide), Chan.putN, Chan.get_put_same, BitVec.toNat_ofNat]
  · rw [Chan.nat, Chan.putN, Chan.get_put_same, BitVec.toNat_ofNat, Nat.mod_eq_of_lt hdur]

/-- A write of ENT_IDX shows the entry (R477). -/
theorem State.entIdxWrite_answers {s : State} {c : Fin 4} (h : HostReady s c) (oper : Bool) {idx : Nat} (hi : idx < 1024) :
    let l := (s.chan c).glist (s.chan c).selList
    let k := if oper then l.bank l.oper else l.adm
    ∃ u, exec (.entIdxWrite (.func 0) c oper idx) s = .next u ∧ Keeps s u c schedPages schedStrip ∧
      (u.chan c).nat pgSpout SPOUT.ENT_MASK = k.mask idx % 2 ^ 32 ∧ (u.chan c).nat pgSpout SPOUT.ENT_DUR = k.dur idx ∧
      workOf (u.chan c) = workOf (s.chan c) := by
  intro l k
  obtain ⟨t, w, ht, hp, ho, hv, hm, hrun⟩ := State.hook_pf0 h (p := pgSpout) (k := .spout) rfl entIdxHook (off := SPOUT.ENT_IDX)
    (BitVec.ofNat 32 (b2n oper * 2 ^ 31 + idx % 1024)) (h := ⟨⟨0x150, 0, 1, 0, 1, 0x0, false, [⟨31, 31, .mw, []⟩, ⟨9, 0, .mw, []⟩], []⟩, false⟩)
    (by decide) rfl rfl rfl rfl
  rw [Nat.mod_eq_of_lt hi] at hv hm
  obtain ⟨hw31, hw9⟩ := entIdx_word oper hi
  have hhook : entIdxHook w (t.chan c) = ((t.chan c).put pgSpout SPOUT.ENT_IDX w.merged).loadEnt := by rw [entIdxHook, hp, ho]
  have h9 : fld w.merged 9 0 = idx := by
    rw [hm]
    exact (fld_setFld_same _ 9 0 _ (by decide) (by decide)).trans (by rw [hw9]; exact Nat.mod_eq_of_lt hi)
  have h31 : fld w.merged 31 31 = b2n oper := by
    rw [hm]
    refine (fld_setFld_ne _ 9 0 _ 31 31 (by decide) (by decide) (by decide)).trans ((fld_setFld_same _ 31 31 _ (by decide) (by decide)).trans ?_)
    rw [hw31]
    cases oper <;> rfl
  obtain ⟨hkeeps, hchan⟩ := ht.answers (strip := schedStrip) mem_spout h.1.2 hhook
    (((Stays.put _ mem_spout _ (by decide)).trans (.put _ mem_spout _ (by decide))).trans (.put _ mem_spout _ (by decide))) id
  obtain ⟨hmask, hdur⟩ := (t.chan c).loadEnt_shows h31 h9
  rw [ht.chan.selList, ht.chan.glist] at hmask hdur
  refine ⟨_, congrArg Host.Outcome.next hrun, hkeeps, ?_⟩
  rw [hchan, Chan.nat_clear, Chan.nat_clear, workOf_clear]
  exact ⟨hmask, hdur, ht.chan.work⟩

/-- An admin entry takes the mask and the duration that are written, and the other bank stays (R477). -/
theorem GateList.putAdm (l : GateList) (k : GateBank) :
    (l.putBank (1 - l.oper) k).adm = k ∧ (l.putBank (1 - l.oper) k).bank l.oper = l.bank l.oper := by
  unfold GateList.adm GateList.putBank GateList.bank
  by_cases h : l.oper = 0
  · simp [h]
  · have h1 : 1 - l.oper = 0 := by omega
    simp [h, h1]

/-- The admin entry that a write of ENT_DUR commits, with ENT_IDX moved on (R477). -/
def Chan.committedEnt (ch : Chan) (w : Word) (dur : Nat) : Chan :=
  let l := ch.glist ch.selList
  let i := ch.getF pgSpout SPOUT.ENT_IDX_ENTRY
  ((ch.putGlist ch.selList (l.putBank (1 - l.oper) { l.adm with
    ents := tput 0 l.adm.ents i (ch.nat pgSpout SPOUT.ENT_MASK * 2 ^ 32 + dur) })).put pgSpout SPOUT.ENT_DUR w).putF pgSpout SPOUT.ENT_IDX_ENTRY
    ((i + 1) % 1024)

theorem Chan.committedEnt_stays (ch : Chan) (w : Word) (dur : Nat) : Stays schedPages schedStrip ch (ch.committedEnt w dur) :=
  ((Stays.putGlist ch _ _).trans (.put _ mem_spout _ (by decide))).trans (.put _ mem_spout _ (by decide))

theorem Chan.committedEnt_shows (ch : Chan) (w : Word) {dur : Nat} (hd : dur < 2 ^ 32) :
    let l := ch.glist ch.selList
    let i := ch.getF pgSpout SPOUT.ENT_IDX_ENTRY
    let x := (ch.committedEnt w dur).glist ch.selList
    x.adm.dur i = dur ∧ x.adm.mask i = ch.nat pgSpout SPOUT.ENT_MASK ∧ x.bank l.oper = l.bank l.oper := by
  intro l i x
  have hx : x = l.putBank (1 - l.oper) { l.adm with ents := tput 0 l.adm.ents i (ch.nat pgSpout SPOUT.ENT_MASK * 2 ^ 32 + dur) } :=
    ch.glist_putGlist_same ch.selList _
  obtain ⟨hadm, hbank⟩ := l.putAdm { l.adm with ents := tput 0 l.adm.ents i (ch.nat pgSpout SPOUT.ENT_MASK * 2 ^ 32 + dur) }
  rw [hx, hadm, hbank, GateBank.dur, GateBank.mask, tget_tput_same]
  exact ⟨by omega, by omega, rfl⟩

theorem Chan.entIdx_committedEnt (ch : Chan) (w : Word) (dur : Nat) : (ch.committedEnt w dur).getF pgSpout SPOUT.ENT_IDX_ENTRY =
    (ch.getF pgSpout SPOUT.ENT_IDX_ENTRY + 1) % 1024 :=
  (Chan.getF_putF_same _ pgSpout SPOUT.ENT_IDX_ENTRY _ (by decide) (by decide)).trans (Nat.mod_mod _ 1024)

/-- PF0's write of ENT_DUR. -/
theorem State.entDur_pf0 {s : State} {c : Fin 4} (h : HostReady s c) {dur : Nat} (hd : dur < 2 ^ 30) :
    ∃ (t : State) (w : WReq), HeaderStep pgSpout c s t ∧ w.p = pgSpout ∧ w.off = SPOUT.ENT_DUR ∧ fld w.v 29 0 = dur ∧
      exec (.entDurWrite (.func 0) c dur) s = .next (t.runChan c (entDurHook w)) := by
  obtain ⟨t, w, ht, hp, ho, hv, -, hrun⟩ := State.hook_pf0 h (p := pgSpout) (k := .spout) rfl entDurHook (off := SPOUT.ENT_DUR)
    (BitVec.ofNat 32 (dur % 2 ^ 30)) (h := ⟨⟨0x158, 0, 1, 0, 1, 0x0, false, [⟨29, 0, .mw, []⟩], []⟩, false⟩) (by decide) rfl rfl rfl rfl
  refine ⟨t, w, ht, hp, ho, ?_, congrArg Host.Outcome.next hrun⟩
  rw [hv, Nat.mod_eq_of_lt hd]
  exact fld_ofNat_low (by decide) hd

section
variable {a b : Chan} (h : HeaderOnly pgSpout a b)
include h

theorem HeaderOnly.entOper : b.getB pgSpout SPOUT.ENT_IDX_OPER = a.getB pgSpout SPOUT.ENT_IDX_OPER := h.getB (not_inHeader_spout (by decide))

theorem HeaderOnly.entIdx : b.getF pgSpout SPOUT.ENT_IDX_ENTRY = a.getF pgSpout SPOUT.ENT_IDX_ENTRY := h.getF (not_inHeader_spout (by decide))

theorem HeaderOnly.entMask : b.nat pgSpout SPOUT.ENT_MASK = a.nat pgSpout SPOUT.ENT_MASK := by
  rw [Chan.nat, Chan.nat, h.get (not_inHeader_spout (by decide))]

theorem HeaderOnly.rejCnt : b.nat pgSpout SPOUT.REJ_CNT = a.nat pgSpout SPOUT.REJ_CNT := by
  rw [Chan.nat, Chan.nat, h.get (not_inHeader_spout (by decide))]

end

/-- A commit of an entry of the admin bank, which is not locked (R477). -/
theorem State.entDurWrite_commits {s : State} {c : Fin 4} (h : HostReady s c) {dur : Nat} (hd : dur < 2 ^ 30)
    (ho : (s.chan c).getB pgSpout SPOUT.ENT_IDX_OPER = false) (hp : ((s.chan c).glist (s.chan c).selList).pend = false) :
    let n := (s.chan c).selList
    let l := (s.chan c).glist n
    let i := (s.chan c).getF pgSpout SPOUT.ENT_IDX_ENTRY
    ∃ u, exec (.entDurWrite (.func 0) c dur) s = .next u ∧ Keeps s u c schedPages schedStrip ∧ ((u.chan c).glist n).adm.dur i = dur ∧
      ((u.chan c).glist n).adm.mask i = (s.chan c).nat pgSpout SPOUT.ENT_MASK ∧ ((u.chan c).glist n).bank l.oper = l.bank l.oper ∧
      (u.chan c).getF pgSpout SPOUT.ENT_IDX_ENTRY = (i + 1) % 1024 := by
  intro n l i
  obtain ⟨t, w, ht, hwp, hwo, hv, hexec⟩ := State.entDur_pf0 h hd
  have hhook : entDurHook w (t.chan c) = (t.chan c).committedEnt w.merged dur := by
    rw [entDurHook, ht.chan.entOper, ht.chan.selList, ht.chan.glist, ho, hp, hwp, hwo, hv, Chan.committedEnt, ht.chan.selList, ht.chan.glist]
    rfl
  obtain ⟨hkeeps, hchan⟩ := ht.answers mem_spout h.1.2 hhook ((t.chan c).committedEnt_stays _ _) id
  obtain ⟨hdur, hmask, hbank⟩ := (t.chan c).committedEnt_shows w.merged (dur := dur) (by omega)
  have hidx := (t.chan c).entIdx_committedEnt w.merged dur
  rw [ht.chan.entIdx] at hidx
  rw [ht.chan.selList, ht.chan.entIdx] at hdur hmask
  rw [ht.chan.selList, ht.chan.glist] at hbank
  rw [ht.chan.entMask] at hmask
  refine ⟨_, hexec, hkeeps, ?_⟩
  rw [hchan, Chan.getF_clear]
  exact ⟨hdur, hmask, hbank, hidx⟩

/-- A refused write of an entry counts, and gives its code (R468). -/
theorem Chan.spoutRefuse_headers (ch : Chan) (code : Nat) : ∃ x, workOf x = workOf ch ∧ x.outQ = ch.outQ ∧
    Stays schedPages schedStrip ch x ∧ HeaderOnly pgSpout x (ch.spoutRefuse code) ∧
    x.nat pgSpout SPOUT.REJ_CNT = satAdd 32 (ch.nat pgSpout SPOUT.REJ_CNT) 1 % 2 ^ 32 ∧ (code = 1 → x.nat pgSpout SPOUT.REFUSE = 1) := by
  have hraise := fun x : Chan => HeaderOnly.raiseMask pgSpout x (m := 2 ^ 12) rfl rfl
  unfold Chan.spoutRefuse
  by_cases h0 : code = 0
  · rw [if_pos h0]
    refine ⟨ch.inc pgSpout SPOUT.REJ_CNT, rfl, rfl, .put _ mem_spout _ (by decide), hraise _, ?_, fun h1 => absurd (h0.symm.trans h1) (by decide)⟩
    rw [Chan.nat, Chan.inc, Chan.putN, Chan.get_put_same, BitVec.toNat_ofNat]
  · rw [if_neg h0]
    refine ⟨(ch.putN pgSpout SPOUT.REFUSE code).inc pgSpout SPOUT.REJ_CNT, rfl, rfl,
      (Stays.put _ mem_spout _ (by decide)).trans (.put _ mem_spout _ (by decide)), hraise _, ?_, fun h1 => ?_⟩
    · rw [Chan.nat, Chan.inc, Chan.putN, Chan.get_put_same, BitVec.toNat_ofNat, Chan.nat, Chan.putN, Chan.get_put_ne _ _ (by decide)]
      rfl
    · subst h1
      rw [Chan.nat, Chan.inc, Chan.putN, Chan.get_put_ne _ _ (by decide), Chan.putN, Chan.get_put_same]
      rfl

/-- A refused commit of an entry (R468, R477). -/
theorem State.entDurWrite_refused {s : State} {c : Fin 4} (h : HostReady s c) {dur : Nat} (hd : dur < 2 ^ 30)
    (hor : (s.chan c).getB pgSpout SPOUT.ENT_IDX_OPER = true ∨ ((s.chan c).glist (s.chan c).selList).pend = true) :
    ∃ u, exec (.entDurWrite (.func 0) c dur) s = .next u ∧ Keeps s u c schedPages schedStrip ∧ workOf (u.chan c) = workOf (s.chan c) ∧
      (u.chan c).nat pgSpout SPOUT.REJ_CNT = satAdd 32 ((s.chan c).nat pgSpout SPOUT.REJ_CNT) 1 ∧
      ((s.chan c).getB pgSpout SPOUT.ENT_IDX_OPER = false → (u.chan c).nat pgSpout SPOUT.REFUSE = 1) := by
  obtain ⟨t, w, ht, -, -, -, hexec⟩ := State.entDur_pf0 h hd
  have hhook : entDurHook w (t.chan c) = (t.chan c).spoutRefuse (if (s.chan c).getB pgSpout SPOUT.ENT_IDX_OPER = true then 0 else 1) := by
    unfold entDurHook
    dsimp only
    rw [ht.chan.entOper, ht.chan.selList, ht.chan.glist]
    by_cases hoper : (s.chan c).getB pgSpout SPOUT.ENT_IDX_OPER = true
    · rw [if_pos hoper, if_pos hoper]
    · rw [if_neg hoper, if_neg hoper, if_pos (hor.resolve_left hoper)]
  obtain ⟨x, hwork, hout, hstays, hhead, hcnt, hcode⟩ :=
    (t.chan c).spoutRefuse_headers (if (s.chan c).getB pgSpout SPOUT.ENT_IDX_OPER = true then 0 else 1)
  obtain ⟨hkeeps, hchan⟩ := ht.answers mem_spout h.1.2 hhook (hstays.trans (.of_headerOnly mem_spout hhead))
    (fun hi => hhead.onlyIrqs (by rwa [hout]))
  have hsat : satAdd 32 ((s.chan c).nat pgSpout SPOUT.REJ_CNT) 1 < 2 ^ 32 := by
    unfold satAdd
    omega
  have hrej : ∀ y : Chan, HeaderOnly pgSpout x y → ∀ off, 0x100 ≤ off → y.nat pgSpout off = x.nat pgSpout off := fun y hy off ho => by
    rw [Chan.nat, Chan.nat, hy.get (not_inHeader_spout ho)]
  refine ⟨_, hexec, hkeeps, ?_⟩
  rw [hchan, Chan.nat_clear, Chan.nat_clear, workOf_clear]
  refine ⟨hhead.work.trans (hwork.trans ht.chan.work), ?_, fun hoper => ?_⟩
  · rw [hrej _ hhead _ (by decide), hcnt, ht.chan.rejCnt, Nat.mod_eq_of_lt hsat]
  · rw [hrej _ hhead _ (by decide), hcode (by rw [hoper]; rfl)]

/-! The start of a swap (R465, R468). -/

theorem TmOnly.dropOversize {p n : Nat} : ∀ (fuel : Nat) (ch : Chan), Spares (fun _ => False) (tmStrip 0) ch (ch.dropOversize p n fuel)
  | 0, ch => .refl ch
  | fuel + 1, ch => by
    have hpages : ∀ (q : Pg) (key : Nat), False → ¬ InHeader q key := fun _ _ h => h.elim
    have hdrop : ∀ e : QEnt, Spares (fun _ => False) (tmStrip 0) ch ((((((ch.takeOut (egQueue n) (fun y => y == e)).hwFree e.handle).inc pgSpout
        (SPOUT.OVERSIZE_DROP p)).raise pgSpout 10).tally pgSpout 0x11).journalSec pgSpout clsContained 3 p p (2 ^ 32)) := fun e =>
      (((((TmOnly.takeOut ch _ _).trans (TmOnly.hwFree _ _)).mono (fun _ h => h.elim)).trans (.put _ _ _ _ id)).trans (.raise (hpages _) _ _)).trans
        (.tally (hpages _) _ _ _ _) |>.trans (.journalSec (fun _ h => h.elim) _ _ _ _ _ _ _ _ _)
    unfold Chan.dropOversize
    split
    · dsimp only
      refine .ite (fun _ => ?_) (fun _ => .refl ch)
      split
      · exact .ite (fun _ => (hdrop _).trans (TmOnly.dropOversize fuel _)) (fun _ => .refl ch)
      · exact .refl ch
    · exact .refl ch

theorem TmOnly.dropOversizeAll (ch : Chan) (ns : List Nat) : Spares (fun _ => False) (tmStrip 0) ch (ch.dropOversizeAll ns) := by
  refine Spares.each (fun c n => ?_) ns ch
  split
  · exact TmOnly.dropOversize _ c
  · exact .refl c

/-- At S the pending bank is the operational one (R468). -/
theorem State.swapStart_swaps {s : State} {c : Fin 4} (h : Ready s c) {m : Nat} (hon : (s.chan c).enabled pgSpout = true)
    (hp : ((s.chan c).glist m).pend = true) (ht : t64At ((s.chan c).glist m).start (s.chan c).timeNs ≤ ((s.chan c).timeNs : Int)) :
    ∃ u, exec (.swapStart c m) s = .next u ∧ (u.chan c).glist m =
      { (s.chan c).glist m with oper := 1 - ((s.chan c).glist m).oper, running := true, pend := false, ecc := false } := by
  let x := (s.chan c).putGlist m { (s.chan c).glist m with oper := 1 - ((s.chan c).glist m).oper, running := true, pend := false, ecc := false }
  have hpages : ∀ (q : Pg) (key : Nat), False → ¬ InHeader q key := fun _ _ h => h.elim
  have hswap : Spares (fun _ => False) (tmStrip 0) x ((s.chan c).swapStart m) :=
    (((Spares.raise (hpages _) x 8).trans (.tally (hpages _) _ 0x10 {} 1)).trans (.journal (fun _ h => h.elim) _ _ _ _ _)).trans
      (TmOnly.dropOversizeAll _ _)
  obtain ⟨f, hf, hexec⟩ : ∃ f : Chan → Chan, f (s.chan c) = (s.chan c).swapStart m ∧ exec (.swapStart c m) s = .next (s.onLive c f) :=
    ⟨_, if_pos ⟨hon, hp, ht⟩, rfl⟩
  refine ⟨_, hexec, ?_⟩
  rw [State.onLive_of_ready h]
  have hcalm := State.runChan_calm (f := f) (hf ▸ hswap.outs (noFatal_of_nil h.2))
  rw [Chan.glist_congr hcalm.sch, hf, Chan.glist_congr hswap.sch]
  exact Chan.glist_putGlist_same _ _ _

end Sys2Proof.Machine
end

section
set_option Elab.async false
namespace Sys2Proof.Proofs

open Sys2Proof Sys2Proof.Machine

/-- Settles O52 (R461, R467, R468, R475–R477): each write of PF0 leaves the tally of its page and the effect of its register, each event its node or
its list, with the frame of what it raises, captures and journals. -/
theorem schedulerAndGates : Obligations.SchedulerAndGates := by
  refine ⟨fun s c => ⟨fun n hhost hn => State.nodeSelWrite_answers hhost hn, fun hhost => ?_, fun n w hready hn hv => ?_⟩,
    fun s c => ⟨fun hhost => ⟨fun oper idx hi => State.entIdxWrite_answers hhost oper hi, fun dur hd hoper => ⟨fun hp => ?_, fun hp => ?_⟩⟩,
      fun m hready hon hp ht => State.swapStart_swaps hready hon hp ht, fun m e hready hm hr he => ?_⟩⟩
  · obtain ⟨u, x, hexec, hkeeps, hx, hstat, hwork⟩ := State.nodeCmd_answers hhost
    have hle := (s.chan c).nodeResult_le ((s.chan c).getF pgSched SCHED.NODE_SEL_NODE) (s.chan c).askedNode
    have hxn : ∀ m, x.node m = (s.chan c).node m := fun m => congrArg (fun y => y.node m) hx
    refine ⟨fun h0 hvalid => ⟨u, hexec, hkeeps, ?_⟩, fun hne => ⟨u, hexec, hkeeps, ?_, ?_⟩⟩
    · rw [if_pos h0] at hwork
      rw [h0] at hstat
      have hnode : ∀ m, (u.chan c).node m = (x.applyNode ((s.chan c).getF pgSched SCHED.NODE_SEL_NODE) (s.chan c).askedNode).node m :=
        fun m => congrArg (fun y => y.node m) hwork
      obtain ⟨h0, h1, h2, h3, h4, h5, h6⟩ := x.node_applyNode ((s.chan c).getF pgSched SCHED.NODE_SEL_NODE) hvalid
      rw [hnode]
      exact ⟨hstat, h0, h1, h2, h3, h4, h5, h6, fun m hm => (hnode m).trans ((Chan.node_putNode_ne _ _ hm).trans (hxn m))⟩
    · rw [hstat, Nat.mod_eq_of_lt (by omega)]
    · rw [if_neg hne] at hwork
      exact hwork.trans hx
  · obtain ⟨u, hexec, hkeeps, hsch⟩ := State.nodeUe_marks hready w hn hv
    exact ⟨u, hexec, hkeeps, (Chan.node_congr hsch n).trans (Chan.node_putNode_same _ _ _),
      fun m hm => (Chan.node_congr hsch m).trans (Chan.node_putNode_ne _ _ hm)⟩
  · exact State.entDurWrite_commits hhost hd hoper hp
  · obtain ⟨u, hexec, hkeeps, hwork, -, hcode⟩ := State.entDurWrite_refused hhost hd (.inr hp)
    exact ⟨u, hexec, hkeeps, hwork, hcode hoper⟩
  · obtain ⟨u, hexec, hkeeps, hsch⟩ := State.listUe_stops hready hm hr he
    exact ⟨u, hexec, hkeeps, (Chan.glist_congr hsch m).trans (Chan.glist_putGlist_same _ _ _),
      fun j hj => (Chan.glist_congr hsch j).trans (Chan.glist_putGlist_ne _ _ hj)⟩

end Sys2Proof.Proofs
end

section
set_option Elab.async false
/-! The running clock (R72–R77, R130, R249): what it changes of a channel. -/

namespace Sys2Proof.Machine

/-- A register of a page's header that a tally event may change: INT_CAUSE, INT_FIRST, OVF_STICKY and the counters. -/
def CountReg (off : Nat) : Prop := off = oCAUSE ∨ off = oFIRST ∨ off = oOVF ∨ (0xC0 ≤ off ∧ off < 0x100)

/-- From `a` to `b` only such registers of page `p` have changed, and nothing but the page's interrupt has been put out. -/
structure Counts (p : Pg) (a b : Chan) : Prop where
  work : workOf b = workOf a
  regs : ∀ key, (∀ off, CountReg off → key ≠ p.key off) → rget chanReset b.regs key = rget chanReset a.regs key
  outs : ∀ o ∈ b.outQ, o ∈ a.outQ ∨ o = .irqPage (p.key 0)

namespace Counts

variable {p : Pg} {a b c : Chan}

theorem refl (p : Pg) (a : Chan) : Counts p a a := ⟨rfl, fun _ _ => rfl, fun _ h => .inl h⟩

theorem trans (h : Counts p a b) (g : Counts p b c) : Counts p a c where
  work := g.work.trans h.work
  regs key hk := (g.regs key hk).trans (h.regs key hk)
  outs o ho := (g.outs o ho).elim (h.outs o) .inr

theorem put (p : Pg) (ch : Chan) {off : Nat} (v : Word) (h : CountReg off) : Counts p ch (ch.put p off v) :=
  ⟨rfl, fun _ hk => ch.rget_put_ne v (hk off h), fun _ ho => .inl ho⟩

theorem counter {i o : Nat} (hi : i < 8) (ho : o ≤ 4) : CountReg (oCNT i + o) := by
  refine .inr (.inr (.inr ?_))
  simp only [oCNT]
  omega

theorem tallyBump (p : Pg) (n : Nat) (r : Chan × Bool) {i : Nat} (hi : i < 8) : Counts p r.1 (tallyBump p n r i).1 := by
  simp only [Machine.tallyBump]
  have hc : Counts p r.1 (r.1.put64 p (oCNT i) ((r.1.get64 p (oCNT i) + n) % 2 ^ 48)) :=
    (put p _ _ (counter hi (Nat.zero_le 4))).trans (put p _ _ (counter hi le_rfl))
  split
  · exact hc
  · exact hc.trans (put p _ _ (.inr (.inr (.inl rfl))))

theorem tallyAdd (p : Pg) (ch : Chan) (code : Nat) (at_ : Attr) (n : Nat) : Counts p ch (ch.tallyAdd p code at_ n).1 := by
  unfold Chan.tallyAdd
  split
  · exact refl p ch
  split
  · exact List.foldlRecOn (motive := fun r : Chan × Bool => Counts p ch r.1) _ _ (refl p ch)
      (fun r h i hi => h.trans (tallyBump p n r (mem_allBelow_lt hi)))
  · exact refl p ch

theorem orCause (p : Pg) (ch : Chan) (m : Nat) : Counts p ch (ch.orCause p m) := by
  unfold Chan.orCause
  dsimp only
  have h : Counts p ch (ch.putN p oCAUSE (Nat.lor (ch.nat p oCAUSE) m)) := put p ch _ (.inl rfl)
  split
  · exact h.trans (put p _ _ (.inr (.inl rfl)))
  · exact h

theorem edge (p : Pg) (ch : Chan) (b : Bool) : Counts p ch (ch.edge p b) := by
  unfold Chan.edge
  split
  · refine ⟨rfl, fun _ _ => rfl, fun o ho => ?_⟩
    simpa [Chan.emit] using ho
  · exact refl p ch

theorem raiseMask (p : Pg) (ch : Chan) {m : Nat} (h0 : nbit m 0 = false) (h2 : nbit m 2 = false) : Counts p ch (ch.raiseMask p m) := by
  unfold Chan.raiseMask
  dsimp only
  rw [Chan.noteCauses_of_plain ch p (by rw [nbit_land, h0, Bool.false_and]) (by rw [nbit_land, h2, Bool.false_and])]
  refine Counts.trans ?_ (edge p _ _)
  have h := (orCause p ch m).trans (tallyAdd p _ 8 {} (b2n (decide (Nat.land m (2 ^ 32 - 1 - ch.nat p oCAUSE) ≠ 0))))
  split
  · exact h.trans (orCause p _ _)
  · exact h

theorem tally (p : Pg) (ch : Chan) (code : Nat) (at_ : Attr) (n : Nat) : Counts p ch (ch.tally p code at_ n) := by
  unfold Chan.tally
  dsimp only
  split
  · exact (tallyAdd p ch code at_ n).trans (raiseMask p _ rfl rfl)
  · exact tallyAdd p ch code at_ n

end Counts

/-- A tally unit that is not enabled counts nothing (R73). -/
theorem Chan.tally_of_disabled {ch : Chan} {p : Pg} (h : bit (ch.get p oTALLY) 0 = false) (code : Nat) (a : Attr) (n : Nat) :
    ch.tally p code a n = ch := by
  have hnone : allBelow 8 (fun i => ch.tallyOn p code a i) = [] := by
    have hoff : ∀ i, ch.tallyOn p code a i = false := fun i => by simp [Chan.tallyOn, h]
    simp [allBelow, hoff]
  have hadd : ch.tallyAdd p code a n = (ch, false) := by
    unfold Chan.tallyAdd
    split
    · rfl
    · split
      · rw [hnone]
        rfl
      · rfl
  simp [Chan.tally, hadd]

/-- A register that the clock may change, exactly: of a page whose tally unit is enabled, or the count of blocks replaced by idle. -/
def ClockKey (ch : Chan) (key : Nat) : Prop :=
  (bit (ch.get (pageOf key) oTALLY) 0 = true ∧ CountReg (key % 65536)) ∨
  ∃ g, g < 8 ∧ (key = pgSlot.key (SLOT.IDLE_BLK g) ∨ key = pgSlot.key (SLOT.IDLE_BLK g + 4))

theorem ClockKey.clockReg {ch : Chan} {key : Nat} (h : ClockKey ch key) : ClockReg ch key :=
  h.imp_left (fun ⟨hon, hreg⟩ => ⟨hon, by simp only [CountReg, oCAUSE, oFIRST, oOVF] at hreg; omega⟩)

/-- From `a` to `b` the clock has run: time, the counters that it drives, the part of an idle block, and interrupts. -/
structure Ticks (a b : Chan) : Prop where
  work : noTime (workOf b) = noTime (workOf a)
  regs : ∀ key, ¬ ClockKey a key → rget chanReset b.regs key = rget chanReset a.regs key
  outs : ∀ o ∈ b.outQ, o ∈ a.outQ ∨ ∃ key, o = .irqPage key

namespace Ticks

variable {a b c : Chan}

theorem refl (a : Chan) : Ticks a a := ⟨rfl, fun _ _ => rfl, fun _ h => .inl h⟩

/-- The clock leaves every page's TALLY_CTRL. -/
theorem tallyCtrl (h : Ticks a b) (key : Nat) : b.get (pageOf key) oTALLY = a.get (pageOf key) oTALLY := by
  refine h.regs _ (fun hk => ?_)
  have hoff : (pageOf key).key oTALLY % 65536 = oTALLY := by
    simp only [pageOf, Pg.key, oTALLY]
    norm_num
    omega
  rcases hk with ⟨-, hreg⟩ | ⟨g, hg, he⟩
  · rw [hoff] at hreg
    simp only [CountReg, oCAUSE, oFIRST, oOVF, oTALLY] at hreg
    omega
  · simp only [Pg.key, pageOf, SLOT.IDLE_BLK, oTALLY] at he
    norm_num at he
    omega

theorem clockKey (h : Ticks a b) {key : Nat} (hk : ClockKey b key) : ClockKey a key :=
  hk.imp_left (fun ⟨hon, hreg⟩ => ⟨by rwa [h.tallyCtrl] at hon, hreg⟩)

theorem trans (h : Ticks a b) (g : Ticks b c) : Ticks a c where
  work := g.work.trans h.work
  regs key hk := (g.regs key (fun hb => hk (h.clockKey hb))).trans (h.regs key hk)
  outs o ho := (g.outs o ho).elim (h.outs o) .inr

theorem each {α : Type} {f : Chan → α → Chan} {l : List α} (h : ∀ ch, ∀ x ∈ l, Ticks ch (f ch x)) (ch : Chan) : Ticks ch (ch.each l f) :=
  List.foldlRecOn (motive := fun d => Ticks ch d) l f (refl ch) (fun d hd x hx => hd.trans (h d x hx))

/-- A tally event of a page of the channel's window. -/
theorem tally (ch : Chan) {p : Pg} (hp : p.num < 512) (code : Nat) (at_ : Attr) (n : Nat) : Ticks ch (ch.tally p code at_ n) := by
  by_cases hon : bit (ch.get p oTALLY) 0 = true
  · have h := Counts.tally p ch code at_ n
    refine ⟨congrArg noTime h.work, fun key hk => h.regs key (fun off hoff he => hk (.inl ?_)), fun o ho => (h.outs o ho).imp_right (fun e => ⟨_, e⟩)⟩
    have hlt : off < 0x100 := by
      simp only [CountReg, oCAUSE, oFIRST, oOVF] at hoff
      omega
    have hkey : key = p.die * 0x2000000 + p.num * 0x10000 + off := by
      rw [he, p.key_header hlt.le, Pg.key]
      norm_num
    have hpage : pageOf key = p := by
      obtain ⟨d, m⟩ := p
      simp only [pageOf, hkey, Pg.mk.injEq]
      simp only at hp
      omega
    rw [hpage]
    exact ⟨hon, by rwa [hkey, show (p.die * 0x2000000 + p.num * 0x10000 + off) % 65536 = off by omega]⟩
  · rw [Chan.tally_of_disabled (by simpa using hon)]
    exact refl ch

theorem countIdle (ch : Chan) (n : Nat) {g : Nat} (hg : g < 8) : Ticks ch (ch.countIdle n g) := by
  unfold Chan.countIdle
  dsimp only
  split
  · exact refl ch
  · refine ⟨rfl, fun key hk => ?_, fun o ho => .inl ho⟩
    refine (Chan.rget_put_ne _ _ (fun e => hk (.inr ⟨g, hg, .inr e⟩))).trans (Chan.rget_put_ne _ _ (fun e => hk (.inr ⟨g, hg, .inl e⟩)))

theorem countIdleAll (ch : Chan) (n : Nat) : Ticks ch (ch.countIdleAll n) := by
  unfold Chan.countIdleAll
  split
  · exact each (fun c g hg => countIdle c n (mem_allBelow_lt hg)) ch
  · exact refl ch

/-- The clock runs on. -/
theorem clockOn (ch : Chan) (n : Nat) : Ticks ch (ch.clockOn n) := by
  have htime : ∀ c : Chan, Ticks c (c.advanceTime n) := fun c => ⟨rfl, fun _ _ => rfl, fun _ h => .inl h⟩
  unfold Chan.clockOn
  refine ((countIdleAll ch n).trans (htime _)).trans (each (fun c p hp => ?_) _)
  obtain ⟨e, -, rfl⟩ := List.mem_map.1 hp
  exact tally c (show e.1 % 0x2000000 / 0x10000 < 512 by omega) _ _ _

theorem runTo (ch : Chan) (t : Nat) : Ticks ch (ch.runTo t) := by
  unfold Chan.runTo
  split
  · exact clockOn ch _
  · exact refl ch

theorem runNet (ch : Chan) (t : Nat) : Ticks ch (ch.runNet t) := by
  unfold Chan.runNet
  split
  · exact refl ch
  · exact clockOn ch _

theorem noFatal (h : Ticks a b) (ha : NoFatal a.outQ) : NoFatal b.outQ := fun o ho =>
  (h.outs o ho).elim (ha o) (fun ⟨_, e⟩ => by rw [e]; rfl)

theorem onlyIrqs (h : Ticks a b) (ha : OnlyIrqs a.outQ) : OnlyIrqs b.outQ := fun o ho => (h.outs o ho).elim (ha o) id

/-- A block register that the clock does not drive. -/
theorem get (h : Ticks a b) {p : Pg} {off : Nat} (hk : ∀ ch, ¬ ClockKey ch (p.key off)) : b.get p off = a.get p off := h.regs _ (hk a)

end Ticks

end Sys2Proof.Machine
end

section
set_option Elab.async false
/-! Queues and buffers of the traffic manager under takes and frees (R426, R432, R434). -/

namespace Sys2Proof.Machine

/-! What a free leaves of Caddy. -/

theorem Stays.cad {pages : List Pg} {a b : Chan} (h : Stays pages id a b) : b.cad = a.cad := by
  have hwork := congrArg (fun ch : Chan => ch.cad) h.work
  exact hwork

theorem HeaderOnly.cad {p : Pg} {a b : Chan} (h : HeaderOnly p a b) : b.cad = a.cad := congrArg (fun x => x.cad) h.work

theorem Chan.journal_cad (ch : Chan) (p : Pg) (cls ev detail : Nat) : (ch.journal p cls ev detail).cad = ch.cad :=
  (Stays.journal (pages := []) ch p cls ev detail).cad

theorem Chan.raise_cad (ch : Chan) (p : Pg) (n : Nat) : (ch.raise p n).cad = ch.cad := (Stays.raise ch (List.mem_singleton_self p) n).cad

/-- The buffers and the queues. -/
def Chan.stock (ch : Chan) : Tab Buf × Tab Que := (ch.cad.bufs, ch.cad.queues)

theorem Chan.stock_congr {a b : Chan} (h : b.cad = a.cad) : b.stock = a.stock := congrArg (fun x : CadW => (x.bufs, x.queues)) h

theorem Chan.buf_congr {a b : Chan} (h : b.stock = a.stock) (n : Nat) : b.buf n = a.buf n :=
  congrArg (fun x : Tab Buf × Tab Que => tget ({} : Buf) x.1 n) h

theorem Chan.que_congr {a b : Chan} (h : b.stock = a.stock) (q : Nat) : b.que q = a.que q :=
  congrArg (fun x : Tab Buf × Tab Que => tget ({} : Que) x.2 q) h

theorem Chan.acctSettle_stock (ch : Chan) (a : Nat) : (ch.acctSettle a).stock = ch.stock := by
  unfold Chan.acctSettle
  dsimp only
  split
  · exact (Chan.stock_congr (Chan.journal_cad _ _ _ _ _)).trans rfl
  · rfl

theorem Chan.regionSettle_stock (ch : Chan) (r : Nat) : (ch.regionSettle r).stock = ch.stock := by
  unfold Chan.regionSettle
  dsimp only
  split
  · exact ((Chan.stock_congr (Chan.journal_cad _ _ _ _ _)).trans (Chan.stock_congr (Chan.raise_cad _ _ _))).trans rfl
  · rfl

/-- The last reference's end empties the buffer, and leaves the others and the queues (R426). -/
theorem Chan.releaseBuf_stock (ch : Chan) (h : Nat) : (ch.releaseBuf h).stock = (tput {} ch.cad.bufs h {}, ch.cad.queues) := by
  have hfree : ∀ y, ((((ch.putBuf h {}).putAcctPool (ch.buf h).owner (ch.buf h).pool y).tally pgCaddy 0x11).acctSettle (ch.buf h).owner).stock =
      (tput {} ch.cad.bufs h {}, ch.cad.queues) := fun y =>
    (Chan.acctSettle_stock _ _).trans (Chan.stock_congr (HeaderOnly.tally pgCaddy _ 0x11 {} 1).cad)
  unfold Chan.releaseBuf
  dsimp only
  split
  · exact (Chan.regionSettle_stock _ _).trans (hfree _)
  · exact hfree _

/-- A free leaves the queues. -/
theorem Chan.freeBuf_queues (ch : Chan) (h a : Nat) (part : Option Nat) : (ch.freeBuf h a part).cad.queues = ch.cad.queues := by
  have hdone : ∀ (x : Chan) (cls cause y z ev sub base mult n lim : Nat), ((((x.capture pgCaddy cls cause h y z).raise pgCaddy cause).journalSec pgCaddy
      clsContained ev sub base mult n lim)).cad = x.cad := fun x cls cause y z ev sub base mult n lim => by
    have hp := List.mem_singleton_self pgCaddy
    exact (((Stays.capture (strip := id) x hp cls cause h y z).trans (.raise _ hp cause)).trans (.journalSec _ pgCaddy clsContained ev sub base mult n lim)).cad
  unfold Chan.freeBuf
  dsimp only
  split
  · exact congrArg CadW.queues (hdone _ _ _ _ _ _ _ _ _ _ _)
  split
  · exact congrArg CadW.queues (hdone _ _ _ _ _ _ _ _ _ _ _)
  split
  · rfl
  · exact congrArg Prod.snd (ch.releaseBuf_stock h)

theorem Chan.hwFree_queues (ch : Chan) (h : Nat) : (ch.hwFree h).cad.queues = ch.cad.queues := ch.freeBuf_queues h _ none

theorem Chan.hwFree_que (ch : Chan) (h q : Nat) : (ch.hwFree h).que q = ch.que q := congrArg (fun x => tget ({} : Que) x q) (ch.hwFree_queues h)

/-- A free of a buffer with one reference (R426, R427). -/
theorem Chan.hwFree_last {ch : Chan} {h : Nat} (hu : (ch.buf h).inUse = true) (hr : (ch.buf h).refs = 0) : ch.hwFree h = ch.releaseBuf h := by
  simp [Chan.hwFree, Chan.freeBuf, Chan.freeResult, hu, hr]

/-! What taking packets out of a queue leaves. -/

theorem Chan.sendControl_cad (ch : Chan) (p : Nat) (f : CtlFrame) : (ch.sendControl p f).cad = ch.cad := by
  unfold Chan.sendControl
  split
  · rfl
  · split <;> rfl

theorem Chan.sendPfc_cad (ch : Chan) (p cls quanta : Nat) : (ch.sendPfc p cls quanta).cad = ch.cad := by
  unfold Chan.sendPfc
  dsimp only
  split
  · rw [Chan.sendControl_cad]
    split <;> rfl
  · rfl

theorem Chan.setXoff_cad (ch : Chan) (x : Nat) (on : Bool) : (ch.setXoff x on).cad = ch.cad := by
  have hask : ∀ (c : Chan) (p cls : Nat), (c.askPfc p cls on).cad = c.cad := fun c p cls => Chan.sendPfc_cad _ _ _ _
  have hcause : ∀ c : Chan, (if on = true then (c.raise pgAdm 11).tally pgAdm 0x12 else c.tally pgAdm 0x13).cad = c.cad := fun c => by
    split
    · exact (HeaderOnly.tally pgAdm _ 0x12 {} 1).cad.trans (c.raise_cad pgAdm 11)
    · exact (HeaderOnly.tally pgAdm _ 0x13 {} 1).cad
  unfold Chan.setXoff
  dsimp only
  split
  · exact (hask _ _ _).trans (hcause _)
  · exact hcause _

theorem Chan.setHeld_stock (ch : Chan) (x n : Nat) : (ch.setHeld x n).stock = ch.stock := by
  unfold Chan.setHeld
  dsimp only
  split
  · exact (Chan.stock_congr (Chan.setXoff_cad _ _ _)).trans rfl
  split
  · exact (Chan.stock_congr (Chan.setXoff_cad _ _ _)).trans rfl
  · rfl

theorem Chan.voqReq_cad (ch : Chan) (q : Nat) : (ch.voqReq q).cad = ch.cad := by
  have hreq : ∀ (c : Chan) (on : Bool), (c.sendReq q on).cad = c.cad := fun c on => by
    unfold Chan.sendReq
    split
    · split <;> rfl
    · rfl
  unfold Chan.voqReq
  dsimp only
  split
  · rfl
  split
  · rfl
  · exact hreq _ _

theorem Chan.place_bufs (ch : Chan) (q : Nat) : (ch.place q).cad.bufs = ch.cad.bufs := by
  unfold Chan.place
  dsimp only
  split
  · rfl
  split
  · exact (congrArg CadW.bufs (HeaderOnly.tally pgVoq _ 0x12 {} 1).cad).trans rfl
  · rfl

theorem Chan.ents_place (ch : Chan) (q : Nat) : ((ch.place q).que q).ents = (ch.que q).ents := by
  unfold Chan.place
  dsimp only
  split
  · rfl
  split
  · rw [Chan.que_congr (Chan.stock_congr (HeaderOnly.tally pgVoq _ 0x12 {} 1).cad), Chan.que_putQue_same]
  · rw [Chan.que_putQue_same]

/-- The queue after a take, before its mode and its request follow. -/
theorem Chan.takeOut_eq (ch : Chan) (q : Nat) (f : QEnt → Bool) : ∃ c : Chan,
    c.stock = ((ch.place q).putQue q { (ch.place q).que q with ents := ((ch.place q).que q).ents.filter (fun e => !(f e)) }).stock ∧
    ch.takeOut q f = (c.place q).voqReq q :=
  ⟨_, Chan.each_frame (f := fun c (e : QEnt) => c.setHeld e.pc (c.heldCnt e.pc - e.len)) Chan.stock (fun c _ => c.setHeld_stock _ _) _ _, rfl⟩

theorem Chan.ents_takeOut (ch : Chan) (q : Nat) (f : QEnt → Bool) : ((ch.takeOut q f).que q).ents = (ch.que q).ents.filter (fun e => !(f e)) := by
  obtain ⟨c, hc, he⟩ := ch.takeOut_eq q f
  rw [he, Chan.que_congr (Chan.stock_congr (Chan.voqReq_cad _ q)), Chan.ents_place, Chan.que_congr hc, Chan.que_putQue_same]
  exact congrArg (List.filter _) (ch.ents_place q)

theorem Chan.takeOut_bufs (ch : Chan) (q : Nat) (f : QEnt → Bool) : (ch.takeOut q f).cad.bufs = ch.cad.bufs := by
  obtain ⟨c, hc, he⟩ := ch.takeOut_eq q f
  rw [he, Chan.voqReq_cad, Chan.place_bufs]
  exact (congrArg Prod.fst hc).trans (ch.place_bufs q)

end Sys2Proof.Machine
end

section
set_option Elab.async false
/-! A release of the scheduler (R458, R460) and a launch of the MAC (R471). -/

namespace Sys2Proof.Machine

/-! Events that change nothing, or put nothing out. -/

theorem State.onLive_quiet {s : State} {c : Fin 4} {f : Chan → Chan} (h : Ready s c) (hf : (f (s.chan c)).outQ = (s.chan c).outQ) :
    (s.onLive c f).chan c = f (s.chan c) := by
  rw [State.onLive_of_ready h, State.runChan_eq s c f (hf.trans h.2), State.chan_setChan_same]

theorem State.onLive_same {s : State} {c : Fin 4} {f : Chan → Chan} (h : Ready s c) (hf : f (s.chan c) = s.chan c) :
    (s.onLive c f).chan c = s.chan c :=
  (State.onLive_quiet h (congrArg Chan.outQ hf)).trans hf

/-- A register of another page is not in a page's header. -/
theorem not_inHeader_of_page {p q : Pg} {off : Nat} (ho : off < 65536) (h : q.key 0 / 65536 ≠ p.key 0 / 65536) : ¬ InHeader p (q.key off) :=
  fun hh => h (by rw [← Pg.key_div q ho, hh.page])

theorem Chan.pathFrom_congr {a b : Chan} (h : ∀ n, b.node n = a.node n) : ∀ fuel n, b.pathFrom fuel n = a.pathFrom fuel n
  | 0, _ => rfl
  | fuel + 1, n => by
    unfold Chan.pathFrom
    simp only [h, Chan.pathFrom_congr h fuel]

section
variable {a b : Chan} (h : HeaderOnly pgSched a b)
include h

theorem HeaderOnly.portF_sched {p : Nat} (hp : p < 64) {f : Nat → Fld} (hf : (f (portBlk p)).off < 65536) : b.portF p f = a.portF p f := by
  obtain ⟨i, hi, hlt⟩ := portPg_page p
  refine h.getF (not_inHeader_of_page hf ?_)
  rw [hi, pgLine_page]
  show 0x30 + i ≠ 0x20B
  have := hlt hp
  omega

theorem HeaderOnly.flexF_sched {f : Fld} (hf : f.off < 65536) : b.getF pgFlex f = a.getF pgFlex f :=
  h.getF (not_inHeader_of_page hf (by decide))

/-- A port's rate does not depend on the scheduler's header. -/
theorem HeaderOnly.operRate_sched {p : Nat} (hp : p < 64) : b.operRate p = a.operRate p := by
  have hblk : 4096 + 1024 * portBlk p < 65536 := by
    have := portBlk_lt p
    omega
  have hkind : b.portKind p = a.portKind p := h.portF_sched hp hblk
  have hspeed : b.portF p LINE.PORT_CFG_SPEED = a.portF p LINE.PORT_CFG_SPEED := h.portF_sched hp hblk
  have hclient : firstBelow 128 (fun n => b.getB pgFlex (FLEX.CLIENT_CFG_EN n) && !(b.getB pgFlex (FLEX.CLIENT_CFG_MODE n))
        && b.getF pgFlex (FLEX.CLIENT_CFG_PORT n) == p) =
      firstBelow 128 (fun n => a.getB pgFlex (FLEX.CLIENT_CFG_EN n) && !(a.getB pgFlex (FLEX.CLIENT_CFG_MODE n))
        && a.getF pgFlex (FLEX.CLIENT_CFG_PORT n) == p) := by
    unfold firstBelow
    refine List.find?_congr (fun n hn => ?_)
    have hn128 := List.mem_range.1 hn
    have hoff : 0x2000 + 8 * n < 65536 := by omega
    simp only [Chan.getB]
    rw [h.flexF_sched (f := FLEX.CLIENT_CFG_EN n) hoff, h.flexF_sched (f := FLEX.CLIENT_CFG_MODE n) hoff,
      h.flexF_sched (f := FLEX.CLIENT_CFG_PORT n) hoff]
  unfold Chan.operRate
  rw [hkind, hspeed, hclient]
  refine if_congr Iff.rfl rfl ?_
  cases hfirst : firstBelow 128 (fun n => a.getB pgFlex (FLEX.CLIENT_CFG_EN n) && !(a.getB pgFlex (FLEX.CLIENT_CFG_MODE n))
        && a.getF pgFlex (FLEX.CLIENT_CFG_PORT n) == p) with
  | none => rfl
  | some n =>
    have hn128 := List.mem_range.1 (List.mem_of_find?_eq_some hfirst)
    exact congrArg (5000 * ·) (h.flexF_sched (f := FLEX.CLIENT_STAT_SLOTS n) (show 0x2004 + 8 * n < 65536 by omega))

theorem HeaderOnly.peakOk_sched (n : Nat) : b.peakOk n = a.peakOk n := by
  have hns : b.ns = a.ns := congrArg (fun x => x.ns) h.work
  have hrates : b.nodeRates n = a.nodeRates n := by
    unfold Chan.nodeRates
    rw [h.node]
    exact if_ctx_congr Iff.rfl (fun hn => by rw [h.operRate_sched hn]) (fun _ => rfl)
  unfold Chan.peakOk Chan.refilled
  rw [hrates, h.node, hns]

/-- The paths of a port with one queue, whose head is under no gate. -/
theorem HeaderOnly.openPaths_sched {p n : Nat} {e : QEnt} {es : List QEnt} (hp : p < 64) (hqs : a.egQueuesOf p = [egQueue n])
    (hgate : (a.node n).gate = none) (hents : (a.que (egQueue n)).ents = e :: es) : b.openPaths p = a.openPaths p := by
  have hblk : 0x1004 + 1024 * portBlk p < 65536 := by
    have := portBlk_lt p
    omega
  have hqs' : b.egQueuesOf p = [egQueue n] := (congrArg (fun x : Chan => x.egQueuesOf p) h.work).trans hqs
  have hents' : (b.que (egQueue n)).ents = e :: es := (congrArg (fun x : Chan => (x.que (egQueue n)).ents) h.work).trans hents
  have hgate' : (b.node n).gate = none := (congrArg Node.gate (h.node n)).trans hgate
  have hpath : b.path n = a.path n := Chan.pathFrom_congr h.node 5 n
  have hrel : b.releasable p n e = a.releasable p n e := by
    unfold Chan.releasable
    rw [hgate, hgate']
    dsimp only
    rw [Chan.oper, Chan.portB, h.portF_sched (f := LINE.PORT_STAT_OPER) hp hblk, h.portF_sched (f := LINE.PORT_STAT_RX_PAUSED) hp hblk]
    rfl
  have hkey : egQueue n - 0x100000 = n := by
    unfold egQueue
    omega
  unfold Chan.openPaths
  rw [hqs, hqs', List.map_singleton, hkey]
  simp only [List.filterMap_cons, List.filterMap_nil, hents, hents', hrel, hpath, h.peakOk_sched, h.node]

end

/-! The choice of the scheduler where one queue may send (R460). -/

theorem mem_bandPrios {q : Nat} (h : q < 8) : (1, q) ∈ bandPrios := by
  interval_cases q <;> decide

theorem order_single (n last : Nat) : [n].filter (fun m => decide (last ≤ m)) ++ [n].filter (fun m => decide (m < last)) = [n] := by
  by_cases h : last ≤ n
  · simp [h, Nat.not_lt.2 h]
  · simp [h, Nat.not_le.1 h]

theorem Chan.drrNext_single (ch : Chan) (parent band prio n : Nat) : ∃ x, ch.drrNext parent band prio [n] = ({ ch with sch := x }, some n) := by
  unfold Chan.drrNext
  rw [List.mergeSort_singleton]
  dsimp only
  rw [order_single]
  split
  · next h =>
    obtain ⟨-, hcur, -⟩ := h
    have hcur : tget 0 ch.sch.ptr (parent * 16 + band * 8 + prio) - 1 = n := by simpa using hcur
    exact ⟨ch.sch, by rw [hcur]⟩
  · simp only [List.foldl_cons, List.foldl_nil, List.headD_cons, min_self, List.find?_cons, le_refl, decide_true]
    exact ⟨_, rfl⟩

/-- A band and priority in which the only candidate may be served. -/
theorem Chan.band_single (ch : Chan) (n : Nat) :
    let ok := fun (bp : Nat × Nat) => [n].filter (fun m => (ch.node m).prio == bp.2 && (bp.1 == 1 || ch.commitOk m))
    ∃ bp, bandPrios.find? (fun bp => !(ok bp).isEmpty) = some bp ∧ ok bp = [n] := by
  intro ok
  have hprio : (ch.node n).prio < 8 := Nat.mod_lt _ (by decide)
  have hsome : (bandPrios.find? (fun bp => !(ok bp).isEmpty)).isSome = true := by
    rw [List.find?_isSome]
    exact ⟨_, mem_bandPrios hprio, by simp [ok]⟩
  obtain ⟨bp, hbp⟩ := Option.isSome_iff_exists.1 hsome
  refine ⟨bp, hbp, ?_⟩
  have hne := List.find?_some hbp
  simp only [ok, List.filter_cons, List.filter_nil] at hne ⊢
  split at hne
  · rw [if_pos ‹_›]
  · cases hne

/-- The choice below a port with one queue. -/
theorem Chan.chooseDown_single (ch : Chan) (p n fuel : Nat) : ∃ x, ch.chooseDown p [[n]] (fuel + 1) = ({ ch with sch := x }, some n) := by
  obtain ⟨bp, hfind, hok⟩ := ch.band_single n
  obtain ⟨x, hx⟩ := ch.drrNext_single p bp.1 bp.2 n
  have hkids : ([[n]].filterMap List.head?).eraseDups = [n] := rfl
  refine ⟨x, ?_⟩
  unfold Chan.chooseDown
  rw [hkids]
  dsimp only at hfind hok ⊢
  rw [hfind]
  dsimp only
  rw [hok, hx]
  simp

/-! A release (R460). -/

/-- A cycle that serves one port. -/
theorem exec_schedRelease_one {s : State} {c : Fin 4} {p : Nat} (b : Bool) (hp : p < 64) (h1 : (s.chan c).enabled pgSched = true)
    (h2 : (s.chan c).enabled pgSpout = true) (h3 : (s.chan c).bridged = true) : ∃ f : Chan → Chan,
    f (s.chan c) = (s.chan c).releaseOne p b ∧ exec (.schedRelease c [(p, b)]) s = .next (s.onLive c f) := by
  refine ⟨_, ?_, rfl⟩
  simp [h1, h2, h3, Nat.not_le.2 hp]

theorem exec_schedRelease_two {s : State} {c : Fin 4} {p q : Nat} (hp : p < 64) (hq : q < 64) (hne : p ≠ q) (h1 : (s.chan c).enabled pgSched = true)
    (h2 : (s.chan c).enabled pgSpout = true) (h3 : (s.chan c).bridged = true) : ∃ f : Chan → Chan,
    f (s.chan c) = ((s.chan c).releaseOne p false).releaseOne q false ∧ exec (.schedRelease c [(p, false), (q, false)]) s = .next (s.onLive c f) := by
  refine ⟨_, ?_, rfl⟩
  simp [h1, h2, h3, Nat.not_le.2 hp, Nat.not_le.2 hq, hne]

/-- A control frame has gone from the port's input to its MAC (R224). -/
def Chan.controlSent (ch : Chan) (p : Nat) (f : CtlFrame) (rest : List CtlFrame) : Chan :=
  (ch.putPw p { ch.pw p with ctl := rest, mac := (ch.pw p).mac ++ [.control f (ch.timePs + ch.exitLat p)] }).pace p
    (max 64 (f.bytes.length + 4) + 20)

section
variable (ch : Chan) (p : Nat) (f : CtlFrame) (rest : List CtlFrame)

theorem Chan.controlSent_ctl : ((ch.controlSent p f rest).pw p).ctl = rest := congrArg PortWork.ctl (tget_tput_same _ _ _ _)

theorem Chan.controlSent_mac : ((ch.controlSent p f rest).pw p).mac = (ch.pw p).mac ++ [.control f (ch.timePs + ch.exitLat p)] :=
  congrArg PortWork.mac (tget_tput_same _ _ _ _)

theorem Chan.controlSent_pw_ne {q : Nat} (h : q ≠ p) : (ch.controlSent p f rest).pw q = ch.pw q := tget_tput_ne _ _ _ h

theorem Chan.controlSent_pace_ne {q : Nat} (h : q ≠ p) : tget 0 (ch.controlSent p f rest).sch.pace q = tget 0 ch.sch.pace q := tget_tput_ne _ _ _ h

theorem Chan.controlSent_kept : (ch.controlSent p f rest).cad = ch.cad ∧ (ch.controlSent p f rest).outQ = ch.outQ ∧
    (ch.controlSent p f rest).ns = ch.ns ∧ (ch.controlSent p f rest).timePs = ch.timePs := ⟨rfl, rfl, rfl, rfl⟩

theorem Chan.controlSent_regs (q : Nat) : (ch.controlSent p f rest).oper q = ch.oper q ∧ (ch.controlSent p f rest).exitLat q = ch.exitLat q := ⟨rfl, rfl⟩

end

/-- A port's control frame goes ahead of every queue (R224). -/
theorem Chan.releaseOne_control {ch : Chan} {p : Nat} {f : CtlFrame} {rest : List CtlFrame} (b : Bool) (hup : ch.oper p = true)
    (hpace : tget 0 ch.sch.pace p ≤ ch.ns * 1000) (hctl : (ch.pw p).ctl = f :: rest) : ch.releaseOne p b = ch.controlSent p f rest := by
  unfold Chan.releaseOne
  rw [if_neg (by simp [hup, Nat.not_lt.2 hpace])]
  dsimp only
  rw [hctl]
  rfl

theorem Chan.dropAged_young {ch : Chan} {p n : Nat} {e : QEnt} {es : List QEnt} (hents : (ch.que (egQueue n)).ents = e :: es)
    (hage : ch.aged p e = false) (fuel : Nat) : ch.dropAged p n fuel = ch := by
  cases fuel with
  | zero => rfl
  | succ fuel =>
    unfold Chan.dropAged
    rw [hents]
    dsimp only
    rw [hage, if_neg Bool.false_ne_true]

theorem Chan.dropOversize_ungated {ch : Chan} {p n : Nat} (hgate : (ch.node n).gate = none) (fuel : Nat) : ch.dropOversize p n fuel = ch := by
  cases fuel with
  | zero => rfl
  | succ fuel =>
    unfold Chan.dropOversize
    rw [hgate]

theorem Chan.dropOversizeAll_ungated {ch : Chan} {n : Nat} (hgate : (ch.node n).gate = none) : ch.dropOversizeAll [n] = ch := by
  show (match ch.nodePort n with
    | some p => ch.dropOversize p n ((ch.que (egQueue n)).ents.length)
    | none => ch) = ch
  split
  · exact Chan.dropOversize_ungated hgate _
  · rfl

theorem HeaderOnly.noFatal {p : Pg} {a b : Chan} (h : HeaderOnly p a b) (ha : NoFatal a.outQ) : NoFatal b.outQ := fun o ho =>
  (h.outs o ho).elim (ha o) (fun e => by rw [e]; rfl)

/-- An effect that leaves Caddy and puts out no fatal cause. -/
def CadKept (a b : Chan) : Prop := b.cad = a.cad ∧ (NoFatal a.outQ → NoFatal b.outQ)

/-- A port with one queue that may send: its head is released, or ends the queue by a bad header (R428, R460). -/
theorem Chan.releaseOne_queue {ch : Chan} {p n : Nat} {e : QEnt} {es : List QEnt} (b : Bool) (hp : p < 64) (hup : ch.oper p = true)
    (hpace : tget 0 ch.sch.pace p ≤ ch.ns * 1000) (hctl : (ch.pw p).ctl = []) (hqs : ch.egQueuesOf p = [egQueue n]) (hpaths : ch.openPaths p = [[n]])
    (hgate : (ch.node n).gate = none) (hents : (ch.que (egQueue n)).ents = e :: es) (hage : ch.aged p e = false) :
    ∃ c : Chan, CadKept ch c ∧ c.nat pgCaddy CADDY.HDR_ERR = ch.nat pgCaddy CADDY.HDR_ERR ∧
      ch.releaseOne p b = if b || (ch.buf e.handle).hdrBad then c.hdrErr (egQueue n) e else c.releaseHead p n := by
  have hkey : egQueue n - 0x100000 = n := by
    unfold egQueue
    omega
  have hone : ch.each [n] (fun c n => c.dropAged p n ((c.que (egQueue n)).ents.length)) = ch := Chan.dropAged_young hents hage _
  have htally := fun m => HeaderOnly.tally pgSched ch 0x11 {} m
  have hopen : ∀ m, (ch.tally pgSched 0x11 {} m).openPaths p = [[n]] := fun m => ((htally m).openPaths_sched hp hqs hgate hents).trans hpaths
  unfold Chan.releaseOne
  rw [if_neg (by simp [hup, Nat.not_lt.2 hpace])]
  dsimp only
  rw [hctl]
  dsimp only
  rw [hqs, List.map_singleton, hkey, hone, Chan.dropOversizeAll_ungated hgate, hopen]
  generalize (List.filter _ [n]).length = m
  obtain ⟨x, hx⟩ := (ch.tally pgSched 0x11 {} m).chooseDown_single p n 4
  have hcad : Chan.stock { ch.tally pgSched 0x11 {} m with sch := x } = ch.stock := Chan.stock_congr (htally m).cad
  have herr : (ch.tally pgSched 0x11 {} m).get pgCaddy CADDY.HDR_ERR = ch.get pgCaddy CADDY.HDR_ERR :=
    (htally m).get (not_inHeader_of_page (by decide) (by decide))
  refine ⟨{ ch.tally pgSched 0x11 {} m with sch := x }, ⟨(htally m).cad, (htally m).noFatal⟩, congrArg BitVec.toNat herr, ?_⟩
  rw [hx]
  dsimp only
  rw [Chan.que_congr hcad, hents]
  dsimp only
  rw [Chan.buf_congr hcad]

/-! What a release leaves of the queue. -/

theorem Chan.incRaise_headers (ch : Chan) (p : Pg) (off : Nat) {b : Nat} (h0 : nbit (2 ^ b) 0 = false) (h2 : nbit (2 ^ b) 2 = false) (n : Nat) :
    HeaderOnly p (ch.inc p off n) (ch.incRaise p off b n) := by
  unfold Chan.incRaise
  dsimp only
  split
  · exact HeaderOnly.raiseMask p _ h0 h2
  · exact .refl p _

theorem CadKept.ite {a x y : Chan} {q : Prop} [Decidable q] (hx : CadKept a x) (hy : CadKept a y) : CadKept a (if q then x else y) := by
  split
  · exact hx
  · exact hy

theorem CadKept.of_headerOnly {p : Pg} {a b c : Chan} (h : CadKept a b) (g : HeaderOnly p b c) : CadKept a c :=
  ⟨g.cad.trans h.1, g.noFatal ∘ h.2⟩

theorem CadKept.dispatchArrive (ch : Chan) (k : Pkt) : CadKept ch (ch.dispatchArrive k) := by
  have hcount : ∀ off n, CadKept ch (ch.inc pgDisp off n) := fun off n => ⟨rfl, id⟩
  unfold Chan.dispatchArrive
  dsimp only
  refine .ite (hcount _ 1) (.ite ?_ (.ite ?_ (.ite ⟨rfl, id⟩ ⟨rfl, id⟩)))
  · exact (hcount _ 1).of_headerOnly (ch.incRaise_headers pgDisp DISP.FULL_DROP rfl rfl 1)
  · exact (hcount _ 1).of_headerOnly (ch.incRaise_headers pgDisp DISP.SHARE_DROP rfl rfl 1)

theorem Chan.dequeue_ents (ch : Chan) (q : Nat) (e : QEnt) : ((ch.dequeue q e).que q).ents = (ch.que q).ents.filter (fun x => !(x == e)) := by
  unfold Chan.dequeue
  rw [Chan.que_congr (Chan.stock_congr (HeaderOnly.tally pgVoq _ 0x11 { cls := some (e.pc % 8) } 1).cad), Chan.ents_takeOut]

theorem Chan.dequeue_noFatal (ch : Chan) (q : Nat) (e : QEnt) (h : NoFatal ch.outQ) : NoFatal (ch.dequeue q e).outQ :=
  (HeaderOnly.tally pgVoq _ 0x11 { cls := some (e.pc % 8) } 1).noFatal ((TmOnly.takeOut (own := 0) ch q _).outs h)

/-- The nodes of a path are charged. -/
def Chan.charged (ch : Chan) (l : List Nat) (cost : Int) : Chan := l.foldl (fun c m => c.chargeNode cost m) ch

theorem Chan.charged_cad (ch : Chan) (l : List Nat) (cost : Int) : (ch.charged l cost).cad = ch.cad :=
  Chan.each_frame (f := fun c m => c.chargeNode cost m) (fun c => c.cad) (fun _ _ => rfl) l ch

theorem Chan.charged_outQ (ch : Chan) (l : List Nat) (cost : Int) : (ch.charged l cost).outQ = ch.outQ :=
  Chan.each_frame (f := fun c m => c.chargeNode cost m) (fun c => c.outQ) (fun _ _ => rfl) l ch

/-- The head has left its queue for the FE die. -/
def Chan.headTaken (ch : Chan) (p n : Nat) (e : QEnt) : Chan :=
  (((((ch.charged (ch.path n) ((e.len : Int) + toSigned (ch.getF pgSched (SCHED.PORT_CFG_SHAPE_ADJ p)) 8)).dequeue (egQueue n) e).hwFree
    e.handle).pace p (e.len + 20 + ch.getF pgSpout (SPOUT.PORT_CFG_EDIT_ALLOW p))).tally pgSched 0x10 { priv := some 0, cls := some (e.pc % 8) })

theorem Chan.headTaken_ents (ch : Chan) (p n : Nat) (e : QEnt) :
    ((ch.headTaken p n e).que (egQueue n)).ents = (ch.que (egQueue n)).ents.filter (fun x => !(x == e)) := by
  have hpace : ∀ (c : Chan) (w : Nat), (c.pace p w).que (egQueue n) = c.que (egQueue n) := fun _ _ => rfl
  unfold Chan.headTaken
  rw [Chan.que_congr (Chan.stock_congr (HeaderOnly.tally pgSched _ 0x10 { priv := some 0, cls := some (e.pc % 8) } 1).cad), hpace, Chan.hwFree_que,
    Chan.dequeue_ents, Chan.que_congr (Chan.stock_congr (Chan.charged_cad _ _ _))]

theorem Chan.headTaken_noFatal (ch : Chan) (p n : Nat) (e : QEnt) (h : NoFatal ch.outQ) : NoFatal (ch.headTaken p n e).outQ := by
  have hpace : ∀ (c : Chan) (w : Nat), NoFatal c.outQ → NoFatal (c.pace p w).outQ := fun _ _ h => h
  unfold Chan.headTaken
  refine (HeaderOnly.tally pgSched _ 0x10 { priv := some 0, cls := some (e.pc % 8) } 1).noFatal (hpace _ _ ((TmOnly.hwFree (own := 0) _ _).outs
    (Chan.dequeue_noFatal _ _ _ ?_)))
  rwa [Chan.charged_outQ]

theorem Chan.releaseHead_kept {ch : Chan} {n : Nat} {e : QEnt} {es : List QEnt} (p : Nat) (hents : (ch.que (egQueue n)).ents = e :: es) :
    CadKept (ch.headTaken p n e) (ch.releaseHead p n) := by
  unfold Chan.releaseHead
  rw [hents]
  exact .ite (.dispatchArrive _ _) ⟨rfl, id⟩

/-- The head of a queue leaves it (R460). -/
theorem Chan.releaseHead_takes {ch : Chan} {n : Nat} {e : QEnt} {es : List QEnt} (p : Nat) (hents : (ch.que (egQueue n)).ents = e :: es) :
    ((ch.releaseHead p n).que (egQueue n)).ents = (e :: es).filter (fun x => !(x == e)) ∧ (NoFatal ch.outQ → NoFatal (ch.releaseHead p n).outQ) := by
  obtain ⟨hcad, hout⟩ := ch.releaseHead_kept p hents
  refine ⟨?_, fun h => hout (ch.headTaken_noFatal p n e h)⟩
  rw [Chan.que_congr (Chan.stock_congr hcad), Chan.headTaken_ents, hents]

theorem not_tmKey {key : Nat} (h : key = pgCaddy.key CADDY.HDR_ERR ∨ key / 65536 = 0x20B) : ¬ TmKey key := by
  simp only [TmKey, InHeader, Pg.key, CADDY.HDR_ERR, CADDY.DOUBLE_FREE, CADDY.FOREIGN_FREE] at h ⊢
  norm_num at h ⊢
  omega

/-- A bad header ends its queue, is counted, and makes the sweep due (R428). -/
theorem Chan.hdrErr_ends (ch : Chan) (q : Nat) (e : QEnt) : ((ch.hdrErr q e).que q).ents = [] ∧ (ch.hdrErr q e).cad.sweepDue = true ∧
    (ch.hdrErr q e).nat pgCaddy CADDY.HDR_ERR = satAdd 32 (ch.nat pgCaddy CADDY.HDR_ERR) 1 ∧ (NoFatal ch.outQ → NoFatal (ch.hdrErr q e).outQ) := by
  let K : Nat → Prop := fun key => key = pgCaddy.key CADDY.HDR_ERR
  have hhead : ∀ key, K key → ¬ InHeader pgCaddy key := fun key hk hh => by
    subst hk
    simp only [InHeader, Pg.key, CADDY.HDR_ERR] at hh
    norm_num at hh
  have htm : ∀ key, K key → ¬ TmKey key := fun key hk => not_tmKey (.inl hk)
  let c1 := (ch.takeOut q (fun x => x == e)).hwFree e.handle
  let c2 := c1.inc pgCaddy CADDY.HDR_ERR
  have hfirst : Spares K (tmStrip 0) ch c1 := ((TmOnly.takeOut ch _ _).trans (TmOnly.hwFree _ _)).mono htm
  have hsecond : Spares K (tmStrip 0) c2 (ch.hdrErr q e) :=
    ((((Spares.capture hhead c2 _ _ _ _ _).trans (.raise hhead _ 13)).trans (.journal (fun key hk => TmOnly.not_journal key (htm key hk)) _ _ _ _ _)).trans
      ((TmOnly.takeOut _ q (fun _ => true)).mono htm)).trans ((TmOnly.onCad _ _).mono htm)
  have hsat : satAdd 32 (ch.nat pgCaddy CADDY.HDR_ERR) 1 < 2 ^ 32 := by
    unfold satAdd
    omega
  refine ⟨?_, rfl, ?_, fun h => hsecond.outs (hfirst.outs h)⟩
  · refine (Chan.ents_takeOut _ q (fun _ => true)).trans ?_
    simp
  · rw [Chan.nat, hsecond.get rfl]
    show ((c1.putN pgCaddy CADDY.HDR_ERR (satAdd 32 (c1.nat pgCaddy CADDY.HDR_ERR) 1)).get pgCaddy CADDY.HDR_ERR).toNat = _
    rw [Chan.putN, Chan.get_put_same, BitVec.toNat_ofNat, Chan.nat, hfirst.get rfl]
    exact Nat.mod_eq_of_lt hsat

/-! A launch (R471). -/

/-- A counter of a port: a register of its block. -/
def PortCount (p key : Nat) : Prop := ∃ off, key = (portPg p).key off ∧ 0x1000 ≤ off ∧ (32 ≤ p → 0x2000 ≤ off) ∧ off < 65536

/-- The keys of the line ports' registers. -/
theorem portPg_key (p : Nat) {off : Nat} (h : 0x1000 ≤ off) : ∃ i, (portPg p).key off = (0x30 + i) * 65536 + off ∧ (p < 32 → i < 8) ∧
    (p < 64 → i < 8) ∧ portPg p = pgLine i := by
  unfold portPg
  split
  · refine ⟨p / 4, ?_, fun _ => by omega, fun _ => by omega, rfl⟩
    simp only [Pg.key]
    rw [if_neg (by omega)]
    omega
  · refine ⟨(p - 32) / 4, ?_, fun _ => by omega, fun _ => by omega, rfl⟩
    simp only [Pg.key]
    rw [if_neg (by omega)]
    omega

/-- The launch of a frame counts, stamps and sends it: the port's FIFO stays. -/
structure Launched (p : Nat) (K : Nat → Prop) (a b : Chan) : Prop where
  mac : (b.pw p).mac = (a.pw p).mac
  regs : ∀ key, K key → rget chanReset b.regs key = rget chanReset a.regs key
  outs : NoFatal a.outQ → NoFatal b.outQ

namespace Launched

variable {p : Nat} {K : Nat → Prop} {a b c : Chan}

theorem refl (a : Chan) : Launched p K a a := ⟨rfl, fun _ _ => rfl, id⟩

theorem trans (h : Launched p K a b) (g : Launched p K b c) : Launched p K a c :=
  ⟨g.mac.trans h.mac, fun key hk => (g.regs key hk).trans (h.regs key hk), g.outs ∘ h.outs⟩

theorem of_spares (h : Spares K id a b) : Launched p K a b where
  mac := by
    have hwork := congrArg (fun ch : Chan => (ch.pw p).mac) h.work
    exact hwork
  regs := h.regs
  outs := h.outs

theorem putPw (ch : Chan) (w : PortWork) (h : w.mac = (ch.pw p).mac) : Launched p K ch (ch.putPw p w) :=
  ⟨(congrArg PortWork.mac (tget_tput_same _ _ _ _)).trans h, fun _ _ => rfl, id⟩

theorem emit (ch : Chan) {o : Out} (h : o.isFatal = false) : Launched p K ch (ch.emit o) := of_spares (.emit ch h)

theorem takeWire (ch : Chan) (l bytes : Nat) (pre : Bool) (gate : Nat) : Launched p K ch (ch.takeWire p l bytes pre gate) := by
  have hshove : ∀ (q : Prop) [Decidable q], Launched p K ch (if q then ch else ch.emit (.wire 7 [p, l] [])) := fun q _ => by
    split
    · exact refl ch
    · exact emit ch rfl
  unfold Chan.takeWire
  dsimp only
  split
  · exact putPw ch _ rfl
  · exact (hshove _).trans (putPw _ _ (hshove _).mac.symm)

theorem onWire (ch : Chan) {o : Out} (h : o.isFatal = false) : Launched p K ch (ch.onWire p o) := by
  unfold Chan.onWire
  split
  · exact refl ch
  · exact emit ch h

theorem captureTx (ch : Chan) (bs : List Byte) (l : Nat) : Launched p K ch (ch.captureTx p bs l) := by
  unfold Chan.captureTx
  split
  · exact refl ch
  · dsimp only
    split
    · exact refl ch
    · exact putPw ch _ rfl

end Launched

theorem Launched.get64 {p : Nat} {a b : Chan} {off : Nat} (h : Launched p (PortCount p) a b) (hlo : 0x1000 ≤ off) (h32 : 32 ≤ p → 0x2000 ≤ off)
    (hhi : off + 4 < 65536) : b.get64 (portPg p) off = a.get64 (portPg p) off := by
  have h1 : b.get (portPg p) off = a.get (portPg p) off := h.regs _ ⟨off, rfl, hlo, h32, by omega⟩
  have h2 : b.get (portPg p) (off + 4) = a.get (portPg p) (off + 4) := h.regs _ ⟨off + 4, rfl, by omega, fun hp => by have := h32 hp; omega, hhi⟩
  simp only [Chan.get64, Chan.nat, h1, h2]

/-- Distinct registers of a port's page above its low table have distinct keys. -/
theorem portPg_key_ne (p : Nat) {off o : Nat} (h1 : 0x1000 ≤ off) (h2 : 0x1000 ≤ o) (hne : off ≠ o) : (portPg p).key off ≠ (portPg p).key o := by
  obtain ⟨i, hi, -⟩ := portPg_page p
  rw [hi]
  simp only [Pg.key]
  rw [if_neg (by omega), if_neg (by omega)]
  omega

theorem Chan.get64_inc64_same (ch : Chan) (p : Nat) {off : Nat} (h : 0x1000 ≤ off) (n : Nat) :
    (ch.inc64 (portPg p) off n).get64 (portPg p) off = (ch.get64 (portPg p) off + n) % 2 ^ 64 := by
  have hne := portPg_key_ne p (off := off) (o := off + 4) h (by omega) (by omega)
  rw [Chan.inc64, Chan.put64, Chan.get64, Chan.nat, Chan.nat, Chan.putN, Chan.get_put_ne _ _ hne, Chan.putN, Chan.get_put_same, Chan.get_put_same,
    BitVec.toNat_ofNat, BitVec.toNat_ofNat]
  omega

theorem Chan.get64_inc64_ne (ch : Chan) (p : Nat) {off o : Nat} (h : 0x1000 ≤ off) (ho : 0x1000 ≤ o) (hfar : off + 8 ≤ o ∨ o + 8 ≤ off) (n : Nat) :
    (ch.inc64 (portPg p) o n).get64 (portPg p) off = ch.get64 (portPg p) off := by
  have h00 := portPg_key_ne p (off := off) (o := o) h ho (by omega)
  have h04 := portPg_key_ne p (off := off) (o := o + 4) h (by omega) (by omega)
  have h40 := portPg_key_ne p (off := off + 4) (o := o) (by omega) ho (by omega)
  have h44 := portPg_key_ne p (off := off + 4) (o := o + 4) (by omega) (by omega) (by omega)
  simp only [Chan.inc64, Chan.put64, Chan.putN, Chan.get64, Chan.nat, Chan.get_put_ne _ _ h04, Chan.get_put_ne _ _ h00, Chan.get_put_ne _ _ h44,
    Chan.get_put_ne _ _ h40]

/-- What no launch of a frame on port `p` writes, but for its counters. -/
structure LaunchSpares (p : Nat) (K : Nat → Prop) : Prop where
  spout : ∀ key, K key → ¬ InHeader pgSpout key
  jrnl : ∀ key, K key → key / 65536 ≠ pgJrnl.key 0 / 65536
  port : ∀ key, K key → ¬ InHeader (portPg p) key
  clock : ∀ ch key, K key → ¬ ClockKey ch key

theorem launchSpares_none (p : Nat) : LaunchSpares p (fun _ => False) := ⟨fun _ => False.elim, fun _ => False.elim, fun _ => False.elim, fun _ _ => False.elim⟩

theorem launchSpares_port (p : Nat) : LaunchSpares p (PortCount p) := by
  constructor
  · rintro key ⟨off, rfl, hlo, -, hhi⟩ hh
    obtain ⟨i, hi, -⟩ := portPg_key p hlo
    rw [hi] at hh
    simp only [InHeader, Pg.key] at hh
    norm_num at hh
    omega
  · rintro key ⟨off, rfl, hlo, -, hhi⟩ hj
    obtain ⟨i, hi, -⟩ := portPg_key p hlo
    rw [hi, show pgJrnl.key 0 / 65536 = 1 from rfl] at hj
    omega
  · rintro key ⟨off, rfl, hlo, -, hhi⟩ hh
    obtain ⟨i, hi, -, -, hpg⟩ := portPg_key p hlo
    have hpage := hh.page
    have hlow := hh.2
    rw [Pg.key_header _ le_rfl] at hlow
    rw [hi] at hpage hlow
    have h0 : (portPg p).key 0 = (0x30 + i) * 65536 := by
      rw [hpg]
      simp only [Pg.key]
      norm_num
    omega
  · rintro ch key ⟨off, rfl, hlo, h32, hhi⟩
    obtain ⟨i, hi, hlt, -⟩ := portPg_key p hlo
    rw [hi]
    rintro (⟨-, hreg⟩ | ⟨g, hg, hidle⟩)
    · have hmod : ((0x30 + i) * 65536 + off) % 65536 = off := by omega
      rw [hmod] at hreg
      simp only [CountReg, oCAUSE, oFIRST, oOVF] at hreg
      omega
    · simp only [Pg.key, SLOT.IDLE_BLK] at hidle
      norm_num at hidle
      omega

namespace Launched

variable {p : Nat} {K : Nat → Prop} {a b c : Chan}

theorem of_ticks (h : Ticks a b) (hK : LaunchSpares p K) : Launched p K a b where
  mac := by
    have hwork := congrArg (fun ch : Chan => (ch.pw p).mac) h.work
    exact hwork
  regs key hk := h.regs key (hK.clock a key hk)
  outs := h.noFatal

theorem portTally (ch : Chan) (hK : LaunchSpares p K) (code : Nat) (cls : Option Nat) (n : Nat) : Launched p K ch (ch.portTally p code cls n) :=
  of_spares (.tally hK.port ch _ _ _)

theorem lateLaunch (ch : Chan) (hK : LaunchSpares p K) (hlate : ¬ K (pgSpout.key (SPOUT.LATE_LAUNCH p))) : Launched p K ch (ch.lateLaunch p) := by
  unfold Chan.lateLaunch
  exact of_spares ((((Spares.put ch _ _ _ hlate).trans (.raise hK.spout _ 11)).trans (.tally hK.spout _ 0x12 {} 1)).trans
    (.journalSec hK.jrnl _ _ _ _ _ _ _ _ _))

theorem portInc (ch : Chan) (f : Nat → Nat) (n : Nat) : Launched p (fun _ => False) ch (ch.portInc p f n) := ⟨rfl, fun _ h => h.elim, id⟩

/-- A data frame is counted with its bytes (R233). -/
theorem data (ch : Chan) (k : Pkt) (late : Bool) (hK : LaunchSpares p K) (hlate : ¬ K (pgSpout.key (SPOUT.LATE_LAUNCH p))) : ∃ x, Launched p K ch x ∧
    Launched p K ((x.portInc p LINE.TX_FRAMES).portInc p LINE.TX_BYTES k.len) (ch.launch p (.data k late)) := by
  refine ⟨if late then ch.lateLaunch p else ch, ?_, ?_⟩
  · split
    · exact lateLaunch ch hK hlate
    · exact refl ch
  · unfold Chan.launch
    exact ((portTally _ hK 0x11 none 1).trans (takeWire _ _ _ _ _)).trans (onWire _ rfl)

/-- A PFC frame is counted (R233). -/
theorem pfc (ch : Chan) {x : CtlFrame} (own : Nat) (hx : x.pfc.isSome = true) (hK : LaunchSpares p K) : ∃ y, Launched p K ch y ∧
    Launched p K (y.portInc p LINE.TX_PFC) (ch.launch p (.control x own)) := by
  obtain ⟨⟨vec, quanta⟩, hpfc⟩ := Option.isSome_iff_exists.1 hx
  have hwire := (portTally ch hK 0x16 none 1).trans (takeWire _ (ch.launchAt p own false) (max 64 (x.bytes.length + 4)) false 0)
  have hfree : ∀ d : Chan, Launched p K d d.takeFree := fun d => ⟨rfl, fun _ _ => rfl, id⟩
  refine ⟨_, hwire.trans (hfree _), ?_⟩
  unfold Chan.launch
  dsimp only
  rw [hpfc]
  exact onWire _ rfl

/-- A launch leaves the rest of the FIFO. -/
theorem launch (ch : Chan) (f : MacFrame) : Launched p (fun _ => False) ch (ch.launch p f) := by
  have hK := launchSpares_none p
  cases f with
  | data k late =>
    obtain ⟨x, hx, hy⟩ := data ch k late hK id
    exact ((hx.trans (portInc _ _ _)).trans (portInc _ _ _)).trans hy
  | control x own =>
    by_cases hpfc : x.pfc.isSome = true
    · obtain ⟨y, hy, hz⟩ := pfc ch own hpfc hK
      exact (hy.trans (portInc _ _ _)).trans hz
    · have hnone : x.pfc = none := by simpa using hpfc
      unfold Chan.launch
      dsimp only
      rw [hnone]
      exact (((portTally ch hK 0x16 none 1).trans (takeWire _ _ _ _ _)).trans (captureTx _ _ _)).trans (onWire _ rfl)

/-- What the delivery of the launch leaves. -/
theorem delivered {s : State} {f : Chan → Chan} {d : Fin 4} (h : Ready s d) (hf : NoFatal (f (s.chan d)).outQ) (hK : LaunchSpares p K) :
    Launched p K (f (s.chan d)) ((s.onLive d f).chan d) := by
  rw [State.onLive_of_ready h]
  have hcalm := State.runChan_calm hf
  exact of_spares (.of_jrnl hK.jrnl hcalm)

end Launched

/-- The first frame of the FIFO is launched (R471). -/
theorem exec_frameLaunch_first {s : State} {c : Fin 4} {p : Nat} {m : MacFrame} {rest : List MacFrame} (hm : ((s.chan c).pw p).mac = m :: rest) :
    ∃ (f : Chan → Chan) (x : Chan) (w : PortWork), Ticks (s.chan c) x ∧ w.mac = rest ∧ f (s.chan c) = (x.putPw p w).launch p m ∧
      exec (.frameLaunch c p 0) s = .next (s.onLive c f) := by
  have hticks : ∀ (ch : Chan) (q : Prop) [Decidable q] (n : Nat), Ticks ch (if q then ch.clockOn n else ch) := fun ch q _ n => by
    split
    · exact .clockOn ch n
    · exact .refl ch
  apply Exists.intro
  apply Exists.intro
  apply Exists.intro
  refine ⟨?ticks, ?mac, ?effect, rfl⟩
  case effect =>
    simp only [hm, List.getElem?_cons_zero, true_or, if_true, List.eraseIdx_cons_zero]
    exact rfl
  case ticks => exact hticks _ _ _
  case mac => rfl

/-- A control frame passes a preemptable one (R471). -/
theorem exec_frameLaunch_passes {s : State} {c : Fin 4} {p : Nat} {k : Pkt} {late : Bool} {x : CtlFrame} {own : Nat}
    (hm : ((s.chan c).pw p).mac = [.data k late, .control x own]) (hpre : (s.chan c).preemptable p k.tc = true) :
    ∃ (f : Chan → Chan) (y : Chan) (w : PortWork), Ticks (s.chan c) y ∧ w.mac = [.data k late] ∧
      f (s.chan c) = (y.putPw p w).launch p (.control x own) ∧
      exec (.frameLaunch c p 1) s = .next (s.onLive c f) := by
  have hticks : ∀ (ch : Chan) (q : Prop) [Decidable q] (n : Nat), Ticks ch (if q then ch.clockOn n else ch) := fun ch q _ n => by
    split
    · exact .clockOn ch n
    · exact .refl ch
  apply Exists.intro
  apply Exists.intro
  apply Exists.intro
  refine ⟨?ticks, ?mac, ?effect, rfl⟩
  case effect =>
    simp only [hm, List.getElem?_cons_zero, List.getElem?_cons_succ, List.take_succ_cons, List.take_zero, List.all_cons, List.all_nil, hpre, Bool.not_true,
      Bool.not_false, Bool.and_true, and_self, or_true, if_true, List.eraseIdx_cons_succ, List.eraseIdx_cons_zero]
    exact rfl
  case ticks => exact hticks _ _ _
  case mac => rfl

/-- A frame that passes none stays (R471). -/
theorem exec_frameLaunch_stays {s : State} {c : Fin 4} {p : Nat} {k : Pkt} {late : Bool} {x : CtlFrame} {own : Nat}
    (hm : ((s.chan c).pw p).mac = [.data k late, .control x own] ∧ (s.chan c).preemptable p k.tc = false ∨
      ((s.chan c).pw p).mac = [.control x own, .data k late]) :
    ∃ f : Chan → Chan, f (s.chan c) = s.chan c ∧ exec (.frameLaunch c p 1) s = .next (s.onLive c f) := by
  refine ⟨_, ?_, rfl⟩
  rcases hm with ⟨hm, hpre⟩ | hm
  · simp [hm, hpre]
  · simp [hm]

/-- A port's counters start at its block. -/
theorem portCount_off (p : Nat) {base : Nat} (hb : 0x1000 ≤ base) : 0x1000 ≤ base + 1024 * portBlk p ∧ (32 ≤ p → 0x2000 ≤ base + 1024 * portBlk p) := by
  refine ⟨by omega, fun hp => ?_⟩
  have hblk : 4 ≤ portBlk p := by
    unfold portBlk
    rw [if_neg (by omega)]
    omega
  omega

section
variable {s : State} {c : Fin 4} {p : Nat} (h : Ready s c)
include h

/-- A launched frame leaves the FIFO (R471). -/
theorem State.frameLaunch_leaves {m : MacFrame} {rest : List MacFrame} (hm : ((s.chan c).pw p).mac = m :: rest) :
    ∃ u, exec (.frameLaunch c p 0) s = .next u ∧ ((u.chan c).pw p).mac = rest := by
  obtain ⟨f, x, w, hx, hw, hf, hexec⟩ := exec_frameLaunch_first hm
  have hl := Launched.launch (p := p) (x.putPw p w) m
  have hplain : NoFatal (f (s.chan c)).outQ := hf ▸ hl.outs (hx.noFatal (noFatal_of_nil h.2))
  refine ⟨_, hexec, ?_⟩
  rw [(Launched.delivered h hplain (launchSpares_none p)).mac, hf, hl.mac]
  exact (congrArg PortWork.mac (tget_tput_same _ _ _ _)).trans hw

theorem State.frameLaunch_passes {k : Pkt} {late : Bool} {x : CtlFrame} {own : Nat}
    (hm : ((s.chan c).pw p).mac = [.data k late, .control x own]) (hpre : (s.chan c).preemptable p k.tc = true) :
    ∃ u, exec (.frameLaunch c p 1) s = .next u ∧ ((u.chan c).pw p).mac = [.data k late] := by
  obtain ⟨f, y, w, hy, hw, hf, hexec⟩ := exec_frameLaunch_passes hm hpre
  have hl := Launched.launch (p := p) (y.putPw p w) (.control x own)
  have hplain : NoFatal (f (s.chan c)).outQ := hf ▸ hl.outs (hy.noFatal (noFatal_of_nil h.2))
  refine ⟨_, hexec, ?_⟩
  rw [(Launched.delivered h hplain (launchSpares_none p)).mac, hf, hl.mac]
  exact (congrArg PortWork.mac (tget_tput_same _ _ _ _)).trans hw

theorem State.frameLaunch_counts (hp : p < 64) {k : Pkt} {late : Bool} {rest : List MacFrame} (hm : ((s.chan c).pw p).mac = .data k late :: rest) :
    ∃ u, exec (.frameLaunch c p 0) s = .next u ∧ ((u.chan c).pw p).mac = rest ∧
      (u.chan c).get64 (portPg p) (LINE.TX_FRAMES (portBlk p)) = ((s.chan c).get64 (portPg p) (LINE.TX_FRAMES (portBlk p)) + 1) % 2 ^ 64 ∧
      (u.chan c).get64 (portPg p) (LINE.TX_BYTES (portBlk p)) = ((s.chan c).get64 (portPg p) (LINE.TX_BYTES (portBlk p)) + k.len) % 2 ^ 64 := by
  obtain ⟨f, x, w, hx, hw, hf, hexec⟩ := exec_frameLaunch_first hm
  have hblk := portBlk_lt p
  have hspared := launchSpares_port p
  have hlate : ¬ PortCount p (pgSpout.key (SPOUT.LATE_LAUNCH p)) := by
    rintro ⟨off, he, hlo, -, hhi⟩
    obtain ⟨i, hi, -, hlt, -⟩ := portPg_key p hlo
    have := hlt hp
    rw [hi] at he
    simp only [Pg.key, SPOUT.LATE_LAUNCH] at he
    norm_num at he
    omega
  obtain ⟨y, hy, hz⟩ := Launched.data (x.putPw p w) k late hspared hlate
  have hput : ∀ off, (x.putPw p w).get64 (portPg p) off = x.get64 (portPg p) off := fun _ => rfl
  have hplain : NoFatal (f (s.chan c)).outQ := hf ▸ hz.outs (hy.outs (hx.noFatal (noFatal_of_nil h.2)))
  have hdone := Launched.delivered h hplain hspared
  rw [hf] at hdone
  have hticks := Launched.of_ticks hx hspared
  obtain ⟨hf1, hf2⟩ := portCount_off p (base := 0x1150) (by decide)
  obtain ⟨hb1, hb2⟩ := portCount_off p (base := 0x1158) (by decide)
  refine ⟨_, hexec, ?_, ?_, ?_⟩
  · rw [hdone.mac, hz.mac]
    exact hy.mac.trans ((congrArg PortWork.mac (tget_tput_same _ _ _ _)).trans hw)
  · rw [hdone.get64 hf1 hf2 (by omega), hz.get64 hf1 hf2 (by omega), Chan.portInc, Chan.portInc,
      Chan.get64_inc64_ne _ _ hf1 hb1 (by omega), Chan.get64_inc64_same _ _ hf1, hy.get64 hf1 hf2 (by omega), hput, hticks.get64 hf1 hf2 (by omega)]
  · rw [hdone.get64 hb1 hb2 (by omega), hz.get64 hb1 hb2 (by omega), Chan.portInc, Chan.get64_inc64_same _ _ hb1, Chan.portInc,
      Chan.get64_inc64_ne _ _ hb1 hf1 (by omega), hy.get64 hb1 hb2 (by omega), hput, hticks.get64 hb1 hb2 (by omega)]

theorem State.frameLaunch_pfc {x : CtlFrame} {own : Nat} {rest : List MacFrame} (hm : ((s.chan c).pw p).mac = .control x own :: rest)
    (hx : x.pfc.isSome = true) : ∃ u, exec (.frameLaunch c p 0) s = .next u ∧
      (u.chan c).get64 (portPg p) (LINE.TX_PFC (portBlk p)) = ((s.chan c).get64 (portPg p) (LINE.TX_PFC (portBlk p)) + 1) % 2 ^ 64 := by
  obtain ⟨f, y, w, hy, -, hf, hexec⟩ := exec_frameLaunch_first hm
  have hblk := portBlk_lt p
  have hspared := launchSpares_port p
  obtain ⟨z, hz, hd⟩ := Launched.pfc (y.putPw p w) own hx hspared
  have hput : ∀ off, (y.putPw p w).get64 (portPg p) off = y.get64 (portPg p) off := fun _ => rfl
  have hplain : NoFatal (f (s.chan c)).outQ := hf ▸ hd.outs (hz.outs (hy.noFatal (noFatal_of_nil h.2)))
  have hdone := Launched.delivered h hplain hspared
  rw [hf] at hdone
  have hticks := Launched.of_ticks hy hspared
  obtain ⟨h1, h2⟩ := portCount_off p (base := 0x1160) (by decide)
  refine ⟨_, hexec, ?_⟩
  rw [hdone.get64 h1 h2 (by omega), hd.get64 h1 h2 (by omega), Chan.portInc, Chan.get64_inc64_same _ _ h1, hz.get64 h1 h2 (by omega), hput,
    hticks.get64 h1 h2 (by omega)]

end

/-! The map of egress packets to queues (R458). -/

section
variable {s : State} {c : Fin 4} {h : Nat} (hr : Ready s c) (hi : ((s.chan c).buf h).inUse = true) (hw : ((s.chan c).buf h).written = true)
  (hwait : ((s.chan c).buf h).waiting = true) (he : ((s.chan c).buf h).pkt.egress = true) (hm : ((s.chan c).buf h).pkt.mcast = false)
  (hq : ((s.chan c).buf h).queue = 0)
include hr hi hw hwait he hm hq

theorem State.egressQueueMap_maps {n : Nat} (hn : (s.chan c).egressQueue ((s.chan c).buf h).pkt = some n) :
    ∃ u, exec (.egressQueueMap c h) s = .next u ∧ (u.chan c).buf h = { (s.chan c).buf h with queue := egQueue n + 1 } ∧
      (u.chan c).regs = (s.chan c).regs := by
  obtain ⟨f, hf, hexec⟩ : ∃ f : Chan → Chan, f (s.chan c) = (s.chan c).putBuf h { (s.chan c).buf h with queue := egQueue n + 1 } ∧
      exec (.egressQueueMap c h) s = .next (s.onLive c f) := ⟨_, by simp [hi, hw, hwait, he, hm, hq, hn], rfl⟩
  refine ⟨_, hexec, ?_⟩
  rw [State.onLive_quiet hr (by rw [hf]; rfl), hf]
  exact ⟨tget_tput_same _ _ _ _, rfl⟩

theorem State.egressQueueMap_drops (hrefs : ((s.chan c).buf h).refs = 0) (hn : (s.chan c).egressQueue ((s.chan c).buf h).pkt = none) :
    ∃ u, exec (.egressQueueMap c h) s = .next u ∧ (u.chan c).buf h = {} ∧
      (u.chan c).nat pgSched SCHED.NO_QUEUE_DROP = satAdd 32 ((s.chan c).nat pgSched SCHED.NO_QUEUE_DROP) 1 := by
  let K : Nat → Prop := fun key => key = pgSched.key SCHED.NO_QUEUE_DROP
  let x := (s.chan c).incRaise pgSched SCHED.NO_QUEUE_DROP 9
  have hhead : HeaderOnly pgSched ((s.chan c).inc pgSched SCHED.NO_QUEUE_DROP) x := (s.chan c).incRaise_headers pgSched _ rfl rfl 1
  obtain ⟨f, hf, hexec⟩ : ∃ f : Chan → Chan, f (s.chan c) = x.hwFree h ∧ exec (.egressQueueMap c h) s = .next (s.onLive c f) :=
    ⟨_, by simp [hi, hw, hwait, he, hm, hq, hn, x], rfl⟩
  have hbuf : x.buf h = (s.chan c).buf h := Chan.buf_congr (Chan.stock_congr hhead.cad) h
  have hfree : x.hwFree h = x.releaseBuf h := Chan.hwFree_last (by rw [hbuf]; exact hi) (by rw [hbuf]; exact hrefs)
  have htm : Spares K (tmStrip 0) x (x.hwFree h) := (TmOnly.hwFree x h).mono (fun key hk => not_tmKey (.inr (by rw [hk]; rfl)))
  have hplain : NoFatal (f (s.chan c)).outQ := hf ▸ htm.outs (hhead.noFatal (noFatal_of_nil hr.2))
  have hcalm := State.runChan_calm hplain
  have hsat : satAdd 32 ((s.chan c).nat pgSched SCHED.NO_QUEUE_DROP) 1 < 2 ^ 32 := by
    unfold satAdd
    omega
  refine ⟨_, hexec, ?_, ?_⟩
  · rw [State.onLive_of_ready hr, Chan.buf_congr (Chan.stock_congr hcalm.cad), hf, hfree]
    exact (congrArg (fun y : Tab Buf × Tab Que => tget ({} : Buf) y.1 h) (x.releaseBuf_stock h)).trans (tget_tput_same _ _ _ _)
  · have hcalmK : Spares K id (f (s.chan c)) ((s.runChan c f).chan c) :=
      .of_jrnl (fun key hk => by rw [hk]; decide) hcalm
    rw [State.onLive_of_ready hr, Chan.nat, hcalmK.get rfl, hf, htm.get rfl, hhead.get (not_inHeader_sched (by decide))]
    show (((s.chan c).putN pgSched SCHED.NO_QUEUE_DROP (satAdd 32 ((s.chan c).nat pgSched SCHED.NO_QUEUE_DROP) 1)).get pgSched
      SCHED.NO_QUEUE_DROP).toNat = _
    rw [Chan.putN, Chan.get_put_same, BitVec.toNat_ofNat, Nat.mod_eq_of_lt hsat]

end

end Sys2Proof.Machine
end

section
set_option Elab.async false
namespace Sys2Proof.Proofs

open Sys2Proof Sys2Proof.Machine

/-- An event that leaves the channel as it is. -/
theorem completes_same {i : Instr} {s : State} {c : Fin 4} {f : Chan → Chan} (h : Ready s c) (hi : exec i s = .next (s.onLive c f))
    (hf : f (s.chan c) = s.chan c) : Completes i s (fun u => u.chan c = s.chan c) := ⟨_, hi, State.onLive_same h hf⟩

/-- An event that puts nothing out. -/
theorem completes_quiet {i : Instr} {s : State} {c : Fin 4} {f : Chan → Chan} {y : Chan} {P : State → Prop} (h : Ready s c)
    (hi : exec i s = .next (s.onLive c f)) (hf : f (s.chan c) = y) (ho : y.outQ = (s.chan c).outQ) (hP : ∀ u : State, u.chan c = y → P u) :
    Completes i s P := ⟨_, hi, hP _ ((State.onLive_quiet h (by rw [hf, ho])).trans hf)⟩

/-- Settles O51 (R222, R224, R428, R458, R460, R461, R463, R467, R468, R471): a release serves the control input or the one queue that may send; the
MAC launches the first frame of its FIFO, or an express one; what does not apply leaves the channel. -/
theorem egressQueuesAndLaunch : Obligations.EgressQueuesAndLaunch := by
  refine ⟨fun s c hr => ⟨fun h hi hw hwait he hm hq hrefs => ⟨fun n hn => State.egressQueueMap_maps hr hi hw hwait he hm hq hn,
      fun hn => State.egressQueueMap_drops hr hi hw hwait he hm hq hrefs hn⟩, fun p hp h1 h2 h3 hup hpace => ⟨fun f rest hctl => ?_,
      fun n e es hctl hqs hpaths hgate hents hage hbad => ?_⟩⟩,
    fun s c p k late rest hr hp hm => State.frameLaunch_counts hr hp hm, fun s c hr => ⟨fun ports hoff => ?_, fun p b hoff => ?_,
      fun p q f g fs gs hp hq hne h1 h2 h3 hupp hupq hpacep hpaceq hctlp hctlq => ?_,
      fun p n e es hp h1 h2 h3 hup hpace hctl hqs hpaths hgate hents hage => ?_, fun h hoff => ?_, fun n w hoff => ?_, fun m hoff => ?_,
      fun m e hoff => ?_, fun p pos hnone => ?_, fun p k late x own hm => ⟨fun hpre => State.frameLaunch_passes hr hm hpre, fun hpre => ?_,
        State.frameLaunch_leaves hr hm⟩, fun p k late x own hm => ⟨?_, fun _ => ?_⟩⟩,
    fun s c hhost => ⟨fun h0 hvalid => ?_, fun dur hd => ⟨fun hop => ?_, fun hp => ?_⟩⟩⟩
  · obtain ⟨g, hg, hexec⟩ := exec_schedRelease_one false hp h1 h2 h3
    exact completes_quiet hr hexec (hg.trans (Chan.releaseOne_control false hup hpace hctl)) (Chan.controlSent_kept _ _ _ _).2.1
      (fun u hu => by rw [hu]; exact ⟨Chan.controlSent_ctl _ _ _ _, Chan.controlSent_mac _ _ _ _, (Chan.controlSent_kept _ _ _ _).1⟩)
  · obtain ⟨g, hg, hexec⟩ := exec_schedRelease_one false hp h1 h2 h3
    obtain ⟨d, ⟨hcad, hplain⟩, -, hx⟩ := Chan.releaseOne_queue false hp hup hpace hctl hqs hpaths hgate hents hage
    rw [hbad, Bool.or_false, if_neg Bool.false_ne_true] at hx
    obtain ⟨hents', hout⟩ := Chan.releaseHead_takes p ((congrArg Que.ents (Chan.que_congr (Chan.stock_congr hcad) _)).trans hents)
    have hcalm := State.runChan_calm (s := s) (c := c) (f := g) (by rw [hg, hx]; exact hout (hplain (noFatal_of_nil hr.2)))
    refine ⟨_, hexec, ?_⟩
    rw [State.onLive_of_ready hr]
    dsimp only
    rw [Chan.que_congr (Chan.stock_congr hcalm.cad), hg, hx]
    exact hents'
  · refine completes_same hr (f := fun ch => _) rfl (if_neg ?_)
    rcases hoff with h | h | h <;> simp [h]
  · by_cases hp : p < 64
    · by_cases hon : (s.chan c).enabled pgSched = true ∧ (s.chan c).enabled pgSpout = true ∧ (s.chan c).bridged = true
      · obtain ⟨h1, h2, h3⟩ := hon
        obtain ⟨g, hg, hexec⟩ := exec_schedRelease_one b hp h1 h2 h3
        refine completes_same hr hexec (hg.trans (if_pos ?_))
        exact hoff.resolve_left (Nat.not_le.2 hp)
      · refine completes_same hr (f := fun ch => _) rfl (if_neg ?_)
        simp only [Bool.and_eq_true, and_assoc]
        exact hon
    · refine completes_same hr (f := fun ch => _) rfl ?_
      simp [Nat.not_lt.1 hp]
  · obtain ⟨r, hr', hexec⟩ := exec_schedRelease_two hp hq hne h1 h2 h3
    obtain ⟨-, hout, hns, htime⟩ := (s.chan c).controlSent_kept p f fs
    obtain ⟨hoper, hlat⟩ := (s.chan c).controlSent_regs p f fs q
    rw [Chan.releaseOne_control false hupp hpacep hctlp, Chan.releaseOne_control (f := g) (rest := gs) false (hoper.trans hupq)
      (by rw [Chan.controlSent_pace_ne _ _ _ _ hne.symm, hns]; exact hpaceq) (by rw [Chan.controlSent_pw_ne _ _ _ _ hne.symm]; exact hctlq)] at hr'
    refine completes_quiet hr hexec hr' ((Chan.controlSent_kept _ _ _ _).2.1.trans hout) (fun u hu => ?_)
    rw [hu, Chan.controlSent_pw_ne _ _ _ _ hne, Chan.controlSent_ctl, Chan.controlSent_ctl, Chan.controlSent_mac, Chan.controlSent_pw_ne _ _ _ _ hne.symm,
      htime, hlat]
    exact ⟨rfl, rfl, rfl⟩
  · obtain ⟨g, hg, hexec⟩ := exec_schedRelease_one true hp h1 h2 h3
    obtain ⟨d, ⟨hcad, hplain⟩, herr, hx⟩ := Chan.releaseOne_queue true hp hup hpace hctl hqs hpaths hgate hents hage
    rw [Bool.true_or, if_pos rfl] at hx
    obtain ⟨hents', hdue, hcnt, hout⟩ := d.hdrErr_ends (egQueue n) e
    have hcalm := State.runChan_calm (s := s) (c := c) (f := g) (by rw [hg, hx]; exact hout (hplain (noFatal_of_nil hr.2)))
    have hreg : Spares (fun key => key = pgCaddy.key CADDY.HDR_ERR) id (g (s.chan c)) ((s.runChan c g).chan c) :=
      .of_jrnl (fun key hk => by rw [hk]; decide) hcalm
    refine ⟨_, hexec, ?_⟩
    rw [State.onLive_of_ready hr]
    dsimp only
    rw [Chan.que_congr (Chan.stock_congr hcalm.cad), hcalm.cad, Chan.nat, hreg.get rfl, hg, hx]
    exact ⟨hents', hcnt.trans (congrArg (fun m => satAdd 32 m 1) herr), hdue⟩
  · refine completes_same hr (f := fun ch => _) rfl (if_neg ?_)
    rcases hoff with h | h | h | h | h | h <;> simp [h]
  · refine completes_same hr (f := fun ch => _) rfl (if_neg ?_)
    rcases hoff with h | h
    · exact fun hand => absurd hand.1 (Nat.not_lt.2 h)
    · simp [h]
  · refine completes_same hr (f := fun ch => _) rfl (if_neg ?_)
    rintro ⟨hon, hpend, hreached⟩
    rcases hoff with h | h | h
    · exact absurd (h.symm.trans hon) (by decide)
    · exact absurd (h.symm.trans hpend) (by decide)
    · exact absurd hreached (not_le.2 h)
  · refine completes_same hr (f := fun ch => _) rfl (if_neg ?_)
    rintro ⟨hlt, hrun, hlen⟩
    rcases hoff with h | h | h
    · omega
    · exact absurd (h.symm.trans hrun) (by decide)
    · omega
  · exact completes_same hr (f := fun ch => _) rfl (by simp only [hnone])
  · obtain ⟨f, hf, hexec⟩ := exec_frameLaunch_stays (.inl ⟨hm, hpre⟩)
    exact completes_same hr hexec hf
  · obtain ⟨u, hexec, hmac⟩ := State.frameLaunch_leaves hr hm
    refine ⟨u, hexec, hmac, fun hx => ?_⟩
    obtain ⟨v, hexec', hcnt⟩ := State.frameLaunch_pfc hr hm hx
    rwa [Host.Outcome.next.inj (hexec'.symm.trans hexec)] at hcnt
  · obtain ⟨f, hf, hexec⟩ := exec_frameLaunch_stays (.inr hm)
    exact completes_same hr hexec hf
  · obtain ⟨u, x, hexec, hkeeps, hx, hstat, hwork⟩ := State.nodeCmd_answers hhost
    have hxn : ∀ m, x.node m = (s.chan c).node m := fun m => congrArg (fun y => y.node m) hx
    rw [if_pos h0] at hwork
    rw [h0] at hstat
    have hnode : ∀ m, (u.chan c).node m = (x.applyNode ((s.chan c).getF pgSched SCHED.NODE_SEL_NODE) (s.chan c).askedNode).node m :=
      fun m => congrArg (fun y => y.node m) hwork
    refine ⟨u, hexec, hkeeps, hstat, ?_, fun m hm => (hnode m).trans ((Chan.node_putNode_ne _ _ hm).trans (hxn m))⟩
    rw [hnode, Chan.applyNode, hvalid]
    exact Chan.node_putNode_same _ _ _
  · obtain ⟨u, hexec, hkeeps, hwork, hrej, -⟩ := State.entDurWrite_refused hhost hd (.inl hop)
    exact ⟨u, hexec, hkeeps, hwork, hrej⟩
  · obtain ⟨u, hexec, hkeeps, hwork, hrej, -⟩ := State.entDurWrite_refused hhost hd (.inr hp)
    exact ⟨u, hexec, hkeeps, hwork, hrej⟩

end Sys2Proof.Proofs
end

section
set_option Elab.async false
/-! A thread issues an instruction (R270, R310), and what an instruction that acts on its thread alone leaves (R311). -/

namespace Sys2Proof.Machine

/-! The state of the parse engines. -/

theorem Chan.thr_congr {a b : Chan} (h : b.prs = a.prs) (t : Nat) : b.thr t = a.thr t := congrArg (fun x : ParseW => tget ({} : Thread) x.threads t) h

theorem Chan.thr_putThr_ne (ch : Chan) {t u : Nat} (x : Thread) (h : u ≠ t) : (ch.putThr t x).thr u = ch.thr u := tget_tput_ne _ _ _ h

theorem HeaderOnly.prs {p : Pg} {a b : Chan} (h : HeaderOnly p a b) : b.prs = a.prs := congrArg (fun x => x.prs) h.work

theorem Stays.prs {pages : List Pg} {a b : Chan} (h : Stays pages id a b) : b.prs = a.prs := by
  have hwork := congrArg (fun x : Chan => x.prs) h.work
  exact hwork

/-- Delivery leaves the parse engines. -/
theorem State.onLive_prs {s : State} {c : Fin 4} {f : Chan → Chan} (h : Ready s c) (hf : NoFatal (f (s.chan c)).outQ) :
    ((s.onLive c f).chan c).prs = (f (s.chan c)).prs := by
  rw [State.onLive_of_ready h]
  exact (State.runChan_calm hf).prs

/-! Registers and flags of a thread. -/

theorem Thread.reg_setReg_same (x : Thread) {i : Nat} (v : BitVec 64) (h : i < 16) : (x.setReg i v).reg i = v := by
  simp [Thread.reg, Thread.setReg, h]

theorem Thread.reg_setReg_ne (x : Thread) {i j : Nat} (v : BitVec 64) (h : j ≠ i) : (x.setReg i v).reg j = x.reg j := by
  simp [Thread.reg, Thread.setReg, Array.getElem?_setIfInBounds_ne (Ne.symm h)]

theorem iRd_lt (w : Nat) : iRd w < 16 := Nat.mod_lt _ (by decide)

theorem nbit_setNbit_same (n i : Nat) (b : Bool) : nbit (setNbit n i b) i = b := by
  have hshift : setNbit n i b >>> i = b2n b + 2 * (n >>> (i + 1)) := by
    have hlow : n % 2 ^ i < 2 ^ i := Nat.mod_lt _ (Nat.two_pow_pos i)
    rw [setNbit, Nat.shiftRight_eq_div_pow,
      show n % 2 ^ i + b2n b * 2 ^ i + n >>> (i + 1) * 2 ^ (i + 1) = n % 2 ^ i + 2 ^ i * (b2n b + 2 * (n >>> (i + 1))) by rw [pow_succ]; ring,
      Nat.add_mul_div_left _ _ (Nat.two_pow_pos i), Nat.div_eq_of_lt hlow, zero_add]
  rw [nbit, hshift]
  cases b <;> simp [b2n]

theorem Thread.flag_setFlag_same (x : Thread) (i : Nat) (b : Bool) : (x.setFlag i b).flag i = b := nbit_setNbit_same _ _ _

theorem Thread.flag_setFlag_ne (x : Thread) {i j : Nat} (b : Bool) (h : j ≠ i) : (x.setFlag i b).flag j = x.flag j := nbit_setNbit_ne _ _ h

/-- An event pends (R271), and leaves the rest of the thread but the wake that it may begin. -/
theorem Thread.event_eq (x : Thread) (b : Nat) : ∃ w, x.event b = { x with evPend := setNbit x.evPend b true, wake := w } := by
  unfold Thread.event
  dsimp only
  split
  · exact ⟨_, rfl⟩
  · exact ⟨_, rfl⟩

theorem Thread.event_pends (x : Thread) (b : Nat) : nbit (x.event b).evPend b = true := by
  obtain ⟨w, h⟩ := x.event_eq b
  rw [h]
  exact nbit_setNbit_same _ _ _

/-- The number of the thread's packet has not been skipped: nothing is to be aborted late (R281). -/
theorem Chan.lateCheck_in_time {ch : Chan} {t : Nat} (h : (ch.thr t).skipped = false) : ch.lateCheck t = ch := by
  simp [Chan.lateCheck, h]

/-! What an instruction of one thread leaves of the channel. -/

theorem onlyThread_refl (ch : Chan) (t : Nat) : OnlyThread ch ch t := ⟨fun _ _ => rfl, rfl⟩

theorem onlyThread_trans {a b c : Chan} {t : Nat} (h : OnlyThread a b t) (g : OnlyThread b c t) : OnlyThread a c t :=
  ⟨fun j hj => (g.1 j hj).trans (h.1 j hj), g.2.trans h.2⟩

/-- A thread that stays READY with its packet stirs no stall detector (R280). -/
theorem onlyThread_putThr {ch : Chan} {t : Nat} {x : Thread} (hst : (ch.thr t).st = 1) (hx : x.st = 1) : OnlyThread ch (ch.putThr t x) t := by
  refine ⟨fun j hj => ch.thr_putThr_ne x hj, ?_⟩
  have hcalm : (ch.thr t).stirs x = false := by simp [Thread.stirs, Thread.stuck, hst, hx]
  simp only [Chan.putThr, hcalm]
  rfl

theorem HeaderOnly.onlyThread {p : Pg} {a b : Chan} (h : HeaderOnly p a b) (t : Nat) : OnlyThread a b t := by
  refine ⟨fun j _ => Chan.thr_congr h.prs j, ?_⟩
  rw [h.work, h.prs]

/-! The issue. -/

/-- The thread with pc and icount advanced. -/
def Thread.advanced (x : Thread) : Thread := { x with pc := (x.pc + 1) % 4096, icount := x.icount + 1, bpPass := false }

/-- The thread's engine has issued for it. -/
def Chan.issuedFor (ch : Chan) (t : Nat) : Chan := { ch with prs := { ch.prs with issued := tput 7 ch.prs.issued (t / 8) (t % 8) } }

/-- The channel in which the effect of the thread's instruction takes place. -/
def Chan.advanced (ch : Chan) (t : Nat) : Chan :=
  ((ch.issuedFor t).putThr t (ch.thr t).advanced).tally (pgPclu (t / 128)) 0x10 (engAttr t)

section
variable (ch : Chan) (t : Nat)

theorem Chan.advanced_headers : HeaderOnly (pgPclu (t / 128)) ((ch.issuedFor t).putThr t (ch.thr t).advanced) (ch.advanced t) :=
  HeaderOnly.tally _ _ _ _ _

theorem Chan.advanced_thr : (ch.advanced t).thr t = (ch.thr t).advanced :=
  (Chan.thr_congr (ch.advanced_headers t).prs t).trans (Chan.thr_putThr_same _ _ _)

theorem Chan.advanced_thr_ne {u : Nat} (h : u ≠ t) : (ch.advanced t).thr u = ch.thr u :=
  (Chan.thr_congr (ch.advanced_headers t).prs u).trans (Chan.thr_putThr_ne _ _ h)

theorem Chan.advanced_onlyIrqs (h : ch.outQ = []) : OnlyIrqs (ch.advanced t).outQ := (ch.advanced_headers t).onlyIrqs (onlyIrqs_of_nil h)

theorem Chan.advanced_noFatal (h : ch.outQ = []) : NoFatal (ch.advanced t).outQ := (ch.advanced_headers t).noFatal (noFatal_of_nil h)

theorem Chan.advanced_onlyThread (h : (ch.thr t).st = 1) : OnlyThread ch (ch.advanced t) t :=
  onlyThread_trans (onlyThread_trans (b := ch.issuedFor t) ⟨fun _ _ => rfl, rfl⟩ (onlyThread_putThr (x := (ch.thr t).advanced) h h)) ((ch.advanced_headers t).onlyThread t)

theorem Chan.advanced_clock : (ch.advanced t).ns = ch.ns ∧ (ch.advanced t).t64 = ch.t64 := by
  have hwork := congrArg (fun x : Chan => (x.ns, x.t64)) (ch.advanced_headers t).work
  exact Prod.mk.inj hwork

theorem Chan.advanced_bank (p : Nat) : (ch.advanced t).bank p = ch.bank p := by
  have hprs := congrArg (fun x : ParseW => if p = 0 then x.bank0 else x.bank1) (ch.advanced_headers t).prs
  exact hprs

end

/-- At a breakpoint nothing halts the thread, and it is its turn: the instruction runs (R270). -/
theorem Chan.issue_runs {ch : Chan} {t opc : Nat} (h : AtOpcode ch t opc) (hb : ch.bpMatch t = none) (hturn : ch.waits t = true ∨ ch.turn (t / 8) = some t) :
    ch.issue t opc = ch.runInstr t := by
  simp only [Chan.issue]
  rw [if_pos ⟨h.tid, h.ready, h.packet, h.cluster, h.opcode, hturn⟩, Chan.stepThread, hb]

theorem atOpcode_of_canIssue {ch : Chan} {t opc : Nat} (h : CanIssue ch t opc) : AtOpcode ch t opc := ⟨h.tid, h.ready, h.packet, h.cluster, h.opcode⟩

theorem Chan.stepSettle_none (ch : Chan) {was : Thread} (h : was.stepping = 0) (t : Nat) : ch.stepSettle was t = ch := by simp [Chan.stepSettle, h]

/-- The thread with its program advanced, where no STEP is under way. -/
theorem Thread.advanced_eq {x : Thread} (h : x.stepping = 0) : { x with
    pc := (x.pc + 1) % 4096, icount := x.icount + 1, bpPass := false, stepping := if x.stepping = 0 then 0 else 2 } = x.advanced := by
  rw [if_pos h, ← h]
  rfl

/-- An instruction that can issue takes its effect. -/
theorem Chan.issue_eq {ch : Chan} {t opc : Nat} (h : CanIssue ch t opc) :
    ch.issue t opc = ((ch.advanced t).effect t (ch.instrWord t)).lateCheck t := by
  have hwaits : ch.waits t = false := by simp [Chan.waits, h.free]
  rw [Chan.issue_runs (atOpcode_of_canIssue h) h.noBreak (.inr h.turn)]
  simp only [Chan.runInstr]
  rw [Chan.stepSettle_none _ h.noStep, hwaits, if_neg Bool.false_ne_true, if_neg (Nat.not_le.2 h.limit), if_neg (not_not.2 h.sound), h.holds,
    Bool.not_true, if_neg Bool.false_ne_true, Thread.advanced_eq h.noStep]
  rfl

/-- An effect that leaves the thread in time is all that issues. -/
theorem Chan.issue_effect {ch z : Chan} {t opc : Nat} (h : CanIssue ch t opc) (hz : (ch.advanced t).effect t (ch.instrWord t) = z)
    (ht : (z.thr t).skipped = false) : ch.issue t opc = z := by
  rw [Chan.issue_eq h, hz, Chan.lateCheck_in_time ht]

end Sys2Proof.Machine

namespace Sys2Proof.Proofs

open Sys2Proof Sys2Proof.Machine

section
variable {s : State} {c : Fin 4} {t opc : Nat} {i : Instr} {P : State → Prop} (hr : Ready s c)
  (hi : exec i s = .next (s.onLive c (fun ch => ch.issue t opc)))
include hr hi

/-- An instruction that ends no thread: what its effect leaves of the parse engines is what the module shows. -/
theorem completes_effect (hc : CanIssue (s.chan c) t opc) {z : Chan} (hz : ((s.chan c).advanced t).effect t ((s.chan c).instrWord t) = z)
    (ht : (z.thr t).skipped = false) (ho : NoFatal ((s.chan c).advanced t).outQ → NoFatal z.outQ) (hP : ∀ u : State, (u.chan c).prs = z.prs → P u) :
    Completes i s P :=
  ⟨_, hi, hP _ (by rw [State.onLive_prs hr, Chan.issue_effect hc hz ht]
                   rw [Chan.issue_effect hc hz ht]
                   exact ho (Chan.advanced_noFatal _ t hr.2))⟩

/-- An instruction that acts on its thread alone. -/
theorem completes_thread (hc : CanIssue (s.chan c) t opc) {z : Chan} (hz : ((s.chan c).advanced t).effect t ((s.chan c).instrWord t) = z)
    (ht : (z.thr t).skipped = false) (ho : z.outQ = ((s.chan c).advanced t).outQ) (honly : OnlyThread ((s.chan c).advanced t) z t)
    (hP : ∀ u : State, (u.chan c).thr t = z.thr t → OnlyThread (s.chan c) (u.chan c) t → P u) : Completes i s P := by
  refine ⟨_, hi, ?_⟩
  have hf : (s.chan c).issue t opc = z := Chan.issue_effect hc hz ht
  have houts : OnlyIrqs ((s.chan c).issue t opc).outQ := by
    rw [hf, ho]
    exact Chan.advanced_onlyIrqs _ t hr.2
  have hchan : (s.onLive c (fun ch => ch.issue t opc)).chan c = { z with outQ := [] } := by
    rw [State.onLive_of_ready hr, State.runChan_chan (f := fun ch => ch.issue t opc) houts, if_pos rfl, hf]
  refine hP _ (by rw [hchan]; rfl) ?_
  rw [hchan]
  exact onlyThread_trans (onlyThread_trans (Chan.advanced_onlyThread _ t hc.ready) honly) ⟨fun _ _ => rfl, rfl⟩

/-- An instruction that computes its thread anew. -/
theorem completes_onThr (hc : CanIssue (s.chan c) t opc) {y : Thread}
    (hz : ((s.chan c).advanced t).effect t ((s.chan c).instrWord t) = ((s.chan c).advanced t).putThr t y) (hst : y.st = 1) (ht : y.skipped = false)
    (hP : ∀ u : State, (u.chan c).thr t = y → OnlyThread (s.chan c) (u.chan c) t → P u) : Completes i s P := by
  refine completes_thread hr hi hc hz (by rwa [Chan.thr_putThr_same]) rfl (onlyThread_putThr ?_ hst) (fun u hu => hP u (hu.trans (Chan.thr_putThr_same _ _ _)))
  rw [Chan.advanced_thr]
  exact hc.ready

end

end Sys2Proof.Proofs
end

section
set_option Elab.async false
/-! Waits, lookups and events of threads (R271, R272, R318, R321). -/

namespace Sys2Proof.Machine

theorem Chan.event_thr (ch : Chan) (t b : Nat) : (ch.event t b).thr t = (ch.thr t).event b := Chan.thr_putThr_same _ _ _

/-- A READY or waiting thread whose wait ends is READY. -/
theorem Chan.ready_thr {ch : Chan} {t : Nat} (h4 : (ch.thr t).st ≠ 4) (hstep : (ch.thr t).stepping = 0) :
    ch.ready t = ch.putThr t { ch.thr t with wfe := false, wake := 0, waitLock := none, st := 1 } := by
  have h2 : (ch.thr t).stepping ≠ 2 := by omega
  simp only [Chan.ready]
  rw [if_neg h4, if_neg h2]

section
variable (ch : Chan) (t w : Nat)

theorem Chan.effect_wfe (h : iOpc w = 0x38) : ch.effect t w = ch.opWfe t w := by simp [Chan.effect, h]
theorem Chan.effect_sev (h : iOpc w = 0x39) : ch.effect t w = ch.opSev t w := by simp [Chan.effect, h]
theorem Chan.effect_ptl (h : iOpc w = 0x18) : ch.effect t w = ch.opPtl t w := by simp [Chan.effect, h]

/-- WFE with no event that it waits for. -/
theorem Chan.opWfe_waits (h : Nat.land (ch.thr t).evPend (nbits w 6 0) = 0) : ch.opWfe t w =
    (ch.putThr t { ch.thr t with evMask := nbits w 6 0, st := 2, wfe := true, wake := 0 }).tally (pgPclu (t / 128)) 0x12 (engAttr t) := by
  simp only [Chan.opWfe]
  rw [if_neg (not_not.2 h)]

/-- WFE takes the events that pend. -/
theorem Chan.opWfe_takes (h : Nat.land (ch.thr t).evPend (nbits w 6 0) ≠ 0) : ch.opWfe t w =
    ch.putThr t { ch.thr t with evMask := nbits w 6 0, evPend := (ch.thr t).evPend - Nat.land (ch.thr t).evPend (nbits w 6 0) } := by
  simp only [Chan.opWfe]
  rw [if_pos h]

end

/-- The return of a lookup (R318): what it writes of the thread, and the state that it may change. -/
def Thread.looked (x : Thread) (rd : Nat) (v : BitVec 64) (rest : List (Nat × BitVec 64)) : Thread := ({ x with looks := rest }.setReg rd v).event 1

theorem Thread.looked_eq (x : Thread) (rd : Nat) (v : BitVec 64) (rest : List (Nat × BitVec 64)) :
    (x.looked rd v rest).looks = rest ∧ (x.looked rd v rest).g = x.g.setIfInBounds rd v ∧ (x.looked rd v rest).skipped = x.skipped := by
  obtain ⟨w, hw⟩ := ({ x with looks := rest }.setReg rd v).event_eq 1
  rw [Thread.looked, hw]
  exact ⟨rfl, rfl, rfl⟩

theorem Thread.looked_reg (x : Thread) {rd : Nat} (h : rd < 16) (v : BitVec 64) (rest : List (Nat × BitVec 64)) : (x.looked rd v rest).reg rd = v := by
  rw [Thread.reg, (x.looked_eq rd v rest).2.1]
  exact x.reg_setReg_same v h

/-- Of the thread that is `x` only its state may have changed, and nothing has been put out. -/
def Restated (ch z : Chan) (t : Nat) (x : Thread) : Prop := z.outQ = ch.outQ ∧ ∃ st prev, z.thr t = { x with st := st, prev := prev }

theorem restated_putThr (ch : Chan) (t st prev : Nat) (x : Thread) : Restated ch (ch.putThr t { x with st := st, prev := prev }) t x :=
  ⟨rfl, st, prev, Chan.thr_putThr_same _ _ _⟩

theorem restated_lateCheck {ch z : Chan} {t : Nat} {x : Thread} (h : Restated ch z t x) (hx : x.skipped = false) : Restated ch (z.lateCheck t) t x := by
  obtain ⟨houts, st, prev, hz⟩ := h
  rw [Chan.lateCheck_in_time (by rw [hz]; exact hx)]
  exact ⟨houts, st, prev, hz⟩

/-- LOOKUP_RETURN writes the thread, and may change its state (R318). -/
theorem exec_lookupReturn {s : State} {c : Fin 4} {t rd : Nat} {v : BitVec 64} {rest : List (Nat × BitVec 64)}
    (hlooks : ((s.chan c).thr t).looks = (rd, v) :: rest) (ht : ((s.chan c).thr t).skipped = false) : ∃ f,
    exec (.lookupReturn c t) s = .next (s.onLive c f) ∧ Restated (s.chan c) (f (s.chan c)) t (((s.chan c).thr t).looked rd v rest) := by
  refine ⟨_, rfl, ?_⟩
  dsimp only
  rw [hlooks]
  dsimp only
  refine restated_lateCheck ?_ ((Thread.looked_eq _ _ _ _).2.2.trans ht)
  have hthr : ((s.chan c).putThr t (((s.chan c).thr t).looked rd v rest)).thr t = ((s.chan c).thr t).looked rd v rest := Chan.thr_putThr_same _ _ _
  split
  · split
    · exact ⟨rfl, _, _, (Chan.thr_putThr_same _ _ _).trans (congrArg (fun x : Thread => { x with prev := 1 }) hthr)⟩
    · exact ⟨rfl, _, _, (Chan.thr_putThr_same _ _ _).trans (congrArg (fun x : Thread => { x with st := 1 }) hthr)⟩
  · exact ⟨rfl, _, _, hthr⟩

end Sys2Proof.Machine

namespace Sys2Proof.Proofs

open Sys2Proof Sys2Proof.Machine

/-- An event of the parse engines: what it leaves of them is what the module shows. -/
theorem completes_prs {i : Instr} {s : State} {c : Fin 4} {f : Chan → Chan} {P : State → Prop} (hr : Ready s c)
    (hi : exec i s = .next (s.onLive c f)) (ho : NoFatal (s.chan c).outQ → NoFatal (f (s.chan c)).outQ)
    (hP : ∀ u : State, (u.chan c).prs = (f (s.chan c)).prs → P u) : Completes i s P :=
  ⟨_, hi, hP _ (State.onLive_prs hr (ho (noFatal_of_nil hr.2)))⟩

/-- Settles O39 (R271, R272, R318, R321). -/
theorem parseEventsAndLookups : Obligations.ParseEventsAndLookups := by
  refine fun s c t hr => ⟨fun hc h0 => ?_, fun hc h0 => ?_, fun hc h96 hne => ?_, fun hc => ?_, fun rd v rest hlooks hrd ht => ?_, fun htimer ht => ?_,
    fun n hw hl h3 hstep => ?_, fun hwfe hwake h2 hstep => ?_⟩
  · have hadv := (s.chan c).advanced_thr t
    have hheads := HeaderOnly.tally (pgPclu (t / 128)) (((s.chan c).advanced t).putThr t { ((s.chan c).advanced t).thr t with
      evMask := nbits ((s.chan c).instrWord t) 6 0, st := 2, wfe := true, wake := 0 }) 0x12 (engAttr t) 1
    have hthr := (Chan.thr_congr hheads.prs t).trans (Chan.thr_putThr_same _ _ _)
    refine completes_effect hr rfl hc ((Chan.effect_wfe _ _ _ hc.opcode).trans (Chan.opWfe_waits _ _ _ (by rw [hadv]; exact h0))) ?_ hheads.noFatal
      (fun u hu => ?_)
    · rw [hthr, hadv]
      exact hc.inTime
    · dsimp only
      rw [Chan.thr_congr hu, hthr]
      exact ⟨rfl, rfl, rfl⟩
  · have hadv := (s.chan c).advanced_thr t
    refine completes_onThr hr rfl hc ((Chan.effect_wfe _ _ _ hc.opcode).trans (Chan.opWfe_takes _ _ _ (by rw [hadv]; exact h0)))
      (by rw [hadv]; exact hc.ready) (by rw [hadv]; exact hc.inTime) (fun u hu _ => ?_)
    dsimp only
    rw [hu, hadv]
    exact ⟨hc.ready, rfl⟩
  · have hz : ((s.chan c).advanced t).effect t ((s.chan c).instrWord t) =
        ((s.chan c).advanced t).event (t / 128 * 128 + nbits ((s.chan c).instrWord t) 6 0) 5 := by
      rw [Chan.effect_sev _ _ _ hc.opcode, Chan.opSev, h96, if_neg Bool.false_ne_true]
    refine completes_effect hr rfl hc hz ?_ id (fun u hu => ?_)
    · rw [Chan.event, Chan.thr_putThr_ne _ _ hne.symm, Chan.advanced_thr]
      exact hc.inTime
    · rw [Chan.thr_congr hu, Chan.event_thr]
      exact Thread.event_pends _ _
  · have hadv := (s.chan c).advanced_thr t
    refine completes_onThr hr rfl hc (Chan.effect_ptl _ _ _ hc.opcode) (by rw [hadv]; exact hc.ready) (by rw [hadv]; exact hc.inTime) (fun u hu _ => ?_)
    dsimp only
    rw [hu, hadv, Chan.advanced_bank]
    exact ⟨rfl, rfl⟩
  · obtain ⟨f, hexec, houts, st, prev, hthr⟩ := exec_lookupReturn (s := s) (c := c) hlooks ht
    refine completes_prs hr hexec (by rw [houts]; exact id) (fun u hu => ?_)
    dsimp only
    rw [Chan.thr_congr hu, hthr]
    exact ⟨(Thread.looked_eq _ _ _ _).1, Thread.looked_reg _ hrd _ _, Thread.event_pends _ _⟩
  · have hticks := Ticks.runTo (s.chan c) (((s.chan c).thr t).timerAt + ceilDiv (((s.chan c).thr t).timer * 5) 8)
    obtain ⟨f, hf, hexec⟩ : ∃ f, f (s.chan c) = ((((s.chan c).runTo (((s.chan c).thr t).timerAt + ceilDiv (((s.chan c).thr t).timer * 5) 8)).putThr t
        { (s.chan c).thr t with timer := 0, timerAt := 0 }).event t 2).lateCheck t ∧
        exec (.threadTimerExpiry c t) s = .next (s.onLive c f) := ⟨_, if_neg htimer, rfl⟩
    obtain ⟨w, hw⟩ := ({ (s.chan c).thr t with timer := 0, timerAt := 0 } : Thread).event_eq 2
    have hthr : (((((s.chan c).runTo (((s.chan c).thr t).timerAt + ceilDiv (((s.chan c).thr t).timer * 5) 8)).putThr t
        { (s.chan c).thr t with timer := 0, timerAt := 0 }).event t 2).thr t) = { (s.chan c).thr t with
          timer := 0, timerAt := 0, evPend := setNbit ((s.chan c).thr t).evPend 2 true, wake := w } := by
      rw [Chan.event_thr, Chan.thr_putThr_same, hw]
    rw [Chan.lateCheck_in_time (by rw [hthr]; exact ht)] at hf
    refine completes_prs hr hexec (by rw [hf]; exact hticks.noFatal) (fun u hu => ?_)
    dsimp only
    rw [Chan.thr_congr hu, hf, hthr]
    exact ⟨rfl, nbit_setNbit_same _ _ _⟩
  · obtain ⟨f, hf, hexec⟩ : ∃ f, f (s.chan c) = ((s.chan c).putThr t (((s.chan c).thr t).lockFlags true false)).ready t ∧
        exec (.lockGrant c t) s = .next (s.onLive c f) := ⟨_, by dsimp only; rw [hw]; exact if_pos ⟨hl, .inl h3⟩, rfl⟩
    have hput := Chan.thr_putThr_same (s.chan c) t (((s.chan c).thr t).lockFlags true false)
    rw [Chan.ready_thr (by rw [hput]; exact h3.trans_ne (by decide)) (by rw [hput]; exact hstep)] at hf
    refine completes_quiet hr hexec hf rfl (fun u hu => ?_)
    dsimp only
    rw [hu, Chan.thr_putThr_same, hput]
    refine ⟨rfl, ?_, rfl⟩
    exact (Thread.flag_setFlag_ne _ _ (by decide)).trans ((Thread.flag_setFlag_ne _ _ (by decide)).trans (Thread.flag_setFlag_same _ _ _))
  · obtain ⟨f, hf, hexec⟩ : ∃ f, f (s.chan c) = ((s.chan c).putThr t { (s.chan c).thr t with
          evPend := Nat.land ((s.chan c).thr t).evPend (127 - ((s.chan c).thr t).wake) }).ready t ∧
        exec (.eventWake c t) s = .next (s.onLive c f) := ⟨_, if_pos ⟨hwfe, hwake, .inl h2⟩, rfl⟩
    have hput := Chan.thr_putThr_same (s.chan c) t { (s.chan c).thr t with
      evPend := Nat.land ((s.chan c).thr t).evPend (127 - ((s.chan c).thr t).wake) }
    rw [Chan.ready_thr (by rw [hput]; exact h2.trans_ne (by decide)) (by rw [hput]; exact hstep)] at hf
    refine completes_quiet hr hexec hf rfl (fun u hu => ?_)
    dsimp only
    rw [hu, Chan.thr_putThr_same, hput]
    exact ⟨rfl, rfl, rfl⟩

end Sys2Proof.Proofs
end

section
set_option Elab.async false
/-! How a thread ends (R272, R274, R322), a raised cause (R62), and the instructions that move and branch (R311, R319). -/

namespace Sys2Proof.Machine

/-! A cause that is raised reads 1. -/

theorem bit_ofNat {n i : Nat} (h : i < 32) : bit (BitVec.ofNat 32 n) i = nbit n i := by
  rw [bit, ← nbit, nbit_eq_testBit, nbit_eq_testBit, BitVec.toNat_ofNat, Nat.testBit_mod_two_pow, decide_eq_true h, Bool.true_and]

theorem Chan.nbit_nat (ch : Chan) (p : Pg) (off i : Nat) : nbit (ch.nat p off) i = bit (ch.get p off) i := rfl

/-- An interrupt that is announced changes no register. -/
theorem Chan.edge_get (ch : Chan) (p q : Pg) (b : Bool) (off : Nat) : (ch.edge p b).get q off = ch.get q off := by
  unfold Chan.edge
  split <;> rfl

theorem Chan.get_put_off (ch : Chan) (p : Pg) {off o : Nat} (v : Word) (h : off ≠ o) (ho : off ≤ 0x100) (ho' : o ≤ 0x100) :
    (ch.put p off v).get p o = ch.get p o :=
  ch.get_put_ne v (by rw [p.key_header ho, p.key_header ho']; omega)

section
variable (ch : Chan) (p : Pg) (m : Nat) {i : Nat} (hi : i < 32)
include hi

theorem Chan.cause_orCause : bit ((ch.orCause p m).get p oCAUSE) i = (bit (ch.get p oCAUSE) i || nbit m i) := by
  have hput : bit ((ch.putN p oCAUSE (Nat.lor (ch.nat p oCAUSE) m)).get p oCAUSE) i = (bit (ch.get p oCAUSE) i || nbit m i) := by
    rw [Chan.putN, Chan.get_put_same, bit_ofNat hi, nbit_eq_testBit, show Nat.lor (ch.nat p oCAUSE) m = (ch.nat p oCAUSE) ||| m from rfl,
      Nat.testBit_or, ← nbit_eq_testBit, ← nbit_eq_testBit]
    rfl
  unfold Chan.orCause
  dsimp only
  split
  · rw [show ∀ c : Chan, ∀ n, (c.putN p oFIRST n).get p oCAUSE = c.get p oCAUSE from
      fun c n => c.get_put_off p _ (by decide) (by decide) (by decide)]
    exact hput
  · exact hput

omit hi in
theorem Chan.cause_tallyAdd (code : Nat) (a : Attr) (n : Nat) : (ch.tallyAdd p code a n).1.get p oCAUSE = ch.get p oCAUSE := by
  have hbump : ∀ (r : Chan × Bool) {j : Nat}, j < 8 → (tallyBump p n r j).1.get p oCAUSE = r.1.get p oCAUSE := fun r j hj => by
    have hcnt : ∀ v, (r.1.put64 p (oCNT j) v).get p oCAUSE = r.1.get p oCAUSE := fun v =>
      (Chan.get_put_off _ p _ (by simp only [oCNT, oCAUSE]; omega) (by simp only [oCNT]; omega) (by decide)).trans
        (Chan.get_put_off _ p _ (by simp only [oCNT, oCAUSE]; omega) (by simp only [oCNT]; omega) (by decide))
    simp only [tallyBump]
    split
    · exact hcnt _
    · exact (Chan.get_put_off (off := oOVF) _ p _ (by decide) (by decide) (by decide)).trans (hcnt _)
  unfold Chan.tallyAdd
  split
  · rfl
  split
  · exact List.foldlRecOn (motive := fun r : Chan × Bool => r.1.get p oCAUSE = ch.get p oCAUSE) _ _ rfl
      (fun r h i hi => (hbump r (mem_allBelow_lt hi)).trans h)
  · rfl

/-- A raised cause stands, and so does one that stood (R62). -/
theorem Chan.cause_raiseMask (h : bit (ch.get p oCAUSE) i = true ∨ nbit m i = true) : bit ((ch.raiseMask p m).get p oCAUSE) i = true := by
  have hnote : ∀ x, (ch.noteCauses p x).get p oCAUSE = ch.get p oCAUSE := fun x => by
    unfold Chan.noteCauses Chan.when
    split <;> split <;> rfl
  unfold Chan.raiseMask
  dsimp only
  rw [Chan.edge_get]
  have hor : bit ((((ch.noteCauses p (Nat.land m (2 ^ 32 - 1 - ch.nat p oCAUSE))).orCause p m).tallyAdd p 8 {}
      (b2n (decide (Nat.land m (2 ^ 32 - 1 - ch.nat p oCAUSE) ≠ 0)))).1.get p oCAUSE) i = true := by
    rw [Chan.cause_tallyAdd, Chan.cause_orCause _ _ _ hi, hnote, Bool.or_eq_true]
    exact h
  split
  · rw [Chan.cause_orCause _ _ _ hi, hor, Bool.true_or]
  · exact hor

end

theorem Chan.cause_raise (ch : Chan) (p : Pg) {b : Nat} (hb : b < 32) : bit ((ch.raise p b).get p oCAUSE) b = true :=
  ch.cause_raiseMask p _ hb (.inr (by rw [nbit_eq_testBit, Nat.testBit_two_pow_self]))

/-- Delivery leaves the registers of every page but JRNL. -/
theorem calm_get {a b : Chan} (h : Calm a b) {p : Pg} {off : Nat} (ho : off < 65536) (hp : p.key 0 / 65536 ≠ pgJrnl.key 0 / 65536) :
    b.get p off = a.get p off :=
  h.regs _ (by rw [Pg.key_div p ho]; simpa using hp)

/-! What the end of a thread leaves of the parse engines. -/

/-- The parse engines are the same, and no fatal cause has been put out. -/
def PrsKept (a b : Chan) : Prop := b.prs = a.prs ∧ (NoFatal a.outQ → NoFatal b.outQ)

theorem prsKept_refl (a : Chan) : PrsKept a a := ⟨rfl, id⟩

theorem PrsKept.trans {a b c : Chan} (h : PrsKept a b) (g : PrsKept b c) : PrsKept a c := ⟨g.1.trans h.1, g.2 ∘ h.2⟩

theorem prsKept_of_stays {pages : List Pg} {a b : Chan} (h : Stays pages id a b) : PrsKept a b := ⟨h.prs, h.outs⟩

theorem prsKept_put (a : Chan) (p : Pg) (off : Nat) (v : Word) : PrsKept a (a.put p off v) := ⟨rfl, id⟩

theorem prsKept_raise (a : Chan) (p : Pg) (n : Nat) : PrsKept a (a.raise p n) := prsKept_of_stays (.raise a (List.mem_singleton_self p) n)

theorem prsKept_journal (a : Chan) (p : Pg) (cls ev detail : Nat) : PrsKept a (a.journal p cls ev detail) :=
  prsKept_of_stays (.journal (pages := []) a p cls ev detail)

theorem prsKept_incRaise (a : Chan) (p : Pg) (off b n : Nat) : PrsKept a (a.incRaise p off b n) := by
  unfold Chan.incRaise
  dsimp only
  split
  · exact (prsKept_put a p off _).trans (prsKept_raise _ p b)
  · exact prsKept_put a p off _

theorem PrsKept.ite {a x y : Chan} {q : Prop} [Decidable q] (hx : PrsKept a x) (hy : PrsKept a y) : PrsKept a (if q then x else y) := by
  split
  · exact hx
  · exact hy

theorem prsKept_strnArrive (a : Chan) (x : Parsed) : PrsKept a (a.strnArrive x) := by
  have hfull : ∀ p : Pg, PrsKept a (((a.inc64 p STRN.IN_FULL_DROP).raise p 8).journalSec p clsContained 4 0 0 1) := fun p =>
    (((prsKept_put a p _ _).trans (prsKept_put _ p _ _)).trans (prsKept_raise _ p 8)).trans
      (prsKept_of_stays (.journalSec (pages := []) _ p _ _ _ _ _ _ _))
  unfold Chan.strnArrive
  dsimp only
  exact .ite (prsKept_put a _ _ _) (.ite (prsKept_incRaise a _ _ _ _) (.ite (hfull _) (.ite ⟨rfl, id⟩ ⟨rfl, id⟩)))

theorem prsKept_engSettle (a : Chan) (e : Nat) : PrsKept a (a.engSettle e) := by
  unfold Chan.engSettle
  dsimp only
  split
  · split
    · exact prsKept_refl a
    · exact ((prsKept_put a _ _ _).trans (prsKept_raise _ pgDisp 12)).trans (prsKept_journal _ _ _ _ _)
  · split
    · exact (prsKept_put a _ _ _).trans (prsKept_journal _ _ _ _ _)
    · exact prsKept_refl a

/-- What the reorder units deliver depends on them alone (R279). -/
theorem Chan.roFlush_ro (k : Nat) : ∀ (fuel : Nat) {a b : Chan}, a.prs.ro = b.prs.ro → (a.roFlush k fuel).prs.ro = (b.roFlush k fuel).prs.ro
  | 0, _, _, h => h
  | fuel + 1, a, b, h => by
    have hro : a.ro k = b.ro k := congrArg (fun x => tget ({} : Reorder) x k) h
    have hput : ∀ x, (a.putRo k x).prs.ro = (b.putRo k x).prs.ro := fun x => congrArg (fun r => tput ({} : Reorder) r k x) h
    unfold Chan.roFlush
    dsimp only
    rw [hro]
    split
    · exact roFlush_ro k fuel (by rw [(prsKept_strnArrive _ _).1, (prsKept_strnArrive _ _).1]; exact hput _)
    · split
      · exact roFlush_ro k fuel (hput _)
      · exact h

theorem Chan.roFlush_noFatal (k : Nat) : ∀ (fuel : Nat) {a : Chan}, NoFatal a.outQ → NoFatal (a.roFlush k fuel).outQ
  | 0, _, h => h
  | fuel + 1, a, h => by
    unfold Chan.roFlush
    dsimp only
    split
    · exact roFlush_noFatal k fuel ((prsKept_strnArrive _ _).2 h)
    · split
      · exact roFlush_noFatal k fuel (a := a.putRo k _) h
      · exact h

theorem Chan.roDeliver_ro (k : Nat) {a b : Chan} (h : a.prs.ro = b.prs.ro) : (a.roDeliver k).prs.ro = (b.roDeliver k).prs.ro := by
  have hro : a.ro k = b.ro k := congrArg (fun x => tget ({} : Reorder) x k) h
  rw [Chan.roDeliver, Chan.roDeliver, hro]
  exact Chan.roFlush_ro k _ h

theorem Chan.roComplete_ro (x : Thread) (p : Parsed) {a b : Chan} (h : a.prs.ro = b.prs.ro) : (a.roComplete x p).prs.ro = (b.roComplete x p).prs.ro := by
  have hro : a.ro x.ctxNo = b.ro x.ctxNo := congrArg (fun r => tget ({} : Reorder) r x.ctxNo) h
  unfold Chan.roComplete
  dsimp only
  split
  · rw [(prsKept_raise _ _ _).1, (prsKept_raise _ _ _).1]
    exact h
  · rw [hro]
    exact Chan.roDeliver_ro _ (congrArg (fun r => tput ({} : Reorder) r x.ctxNo _) h)

theorem Chan.roComplete_noFatal (a : Chan) (x : Thread) (p : Parsed) (h : NoFatal a.outQ) : NoFatal (a.roComplete x p).outQ := by
  unfold Chan.roComplete
  dsimp only
  split
  · exact ((prsKept_put a _ _ _).trans (prsKept_raise _ _ _)).2 h
  · exact Chan.roFlush_noFatal _ _ (a := a.putRo x.ctxNo _) h

/-! The locks of a thread that ends (R274). -/

theorem mem_tput {α : Type} [DecidableEq α] {d v : α} {t : Tab α} {k : Nat} {e : Nat × α} (h : e ∈ tput d t k v) :
    e = (k, v) ∨ (e ∈ t ∧ e.1 ≠ k) := by
  have hdel : ∀ {l : Tab α}, e ∈ rdel l k → e ∈ l ∧ e.1 ≠ k := fun h => ⟨List.mem_of_mem_filter h, by simpa using List.of_mem_filter h⟩
  unfold tput rput at h
  split at h
  · split at h
    · cases h
    · exact .inl (List.mem_singleton.1 h)
  · split at h
    · exact .inr (hdel h)
    · exact (mem_rins h).imp_right hdel

theorem tget_mem {α : Type} (d : α) (k : Nat) : ∀ (t : Tab α), tget d t k = d ∨ (k, tget d t k) ∈ t
  | [] => .inl rfl
  | (k', v) :: t => by
    unfold tget rget
    split
    next he => exact .inr (by rw [he]; exact List.mem_cons_self)
    next => exact (tget_mem d k t).imp_right (List.mem_cons_of_mem _)

/-- An update for every key of a list: what it makes of each key's entry, and what it leaves of the others. -/
theorem Chan.each_locks {Q : Lock → Prop} {I : Chan → Prop} {f : Chan → Nat → Chan}
    (hf : ∀ ch k, I ch → I (f ch k) ∧ ∀ e ∈ (f ch k).prs.locks, Q e.2 ∨ (e ∈ ch.prs.locks ∧ e.1 ≠ k)) :
    ∀ (l : List Nat) (ch : Chan), I ch → I (ch.each l f) ∧ ∀ e ∈ (ch.each l f).prs.locks, Q e.2 ∨ (e ∈ ch.prs.locks ∧ e.1 ∉ l)
  | [], _, hI => ⟨hI, fun _ he => .inr ⟨he, List.not_mem_nil⟩⟩
  | k :: l, ch, hI => by
    obtain ⟨hI', hk⟩ := hf ch k hI
    obtain ⟨hI'', hl⟩ := each_locks hf l (f ch k) hI'
    refine ⟨hI'', fun e he => (hl e he).elim .inl (fun ⟨hmem, hnot⟩ => (hk e hmem).imp_right (fun ⟨hold, hne⟩ => ⟨hold, ?_⟩))⟩
    simp only [List.mem_cons, not_or]
    exact ⟨hne, hnot⟩

theorem Chan.event_each_locks (ch : Chan) (l : List Nat) (b : Nat) : (ch.each l (fun c t => c.event t b)).prs.locks = ch.prs.locks :=
  Chan.each_frame (f := fun c t => c.event t b) (fun c => c.prs.locks) (fun _ _ => rfl) l ch

/-- No thread waits for a lock that is `t`. -/
def NoWaiter (t : Nat) (ch : Chan) : Prop := ∀ e ∈ ch.prs.locks, t ∉ e.2.waiters

/-- A lock that is released goes to a waiter, or to nobody (R273). -/
theorem Chan.releaseLock_locks {t : Nat} {ch : Chan} (k : Nat) (h : NoWaiter t ch) :
    NoWaiter t (ch.releaseLock k) ∧ ∀ e ∈ (ch.releaseLock k).prs.locks, e.2.holder ≠ t + 1 ∨ (e ∈ ch.prs.locks ∧ e.1 ≠ k) := by
  have hlock : t ∉ (ch.lock k).waiters := by
    rcases tget_mem ({} : Lock) k ch.prs.locks with he | he
    · rw [Chan.lock, he]
      exact List.not_mem_nil
    · exact h _ he
  have hput : ∀ x : Lock, t ∉ x.waiters → x.holder ≠ t + 1 → NoWaiter t (ch.putLock k x) ∧
      ∀ e ∈ (ch.putLock k x).prs.locks, e.2.holder ≠ t + 1 ∨ (e ∈ ch.prs.locks ∧ e.1 ≠ k) := fun x hw hh => by
    refine ⟨fun e he => ?_, fun e he => ?_⟩
    · rcases mem_tput he with rfl | ⟨hold, -⟩
      · exact hw
      · exact h e hold
    · exact (mem_tput he).imp_left (fun e' => by rw [e']; exact hh)
  unfold Chan.releaseLock NoWaiter
  dsimp only
  rw [Chan.event_each_locks]
  split
  next w ws hws =>
    rw [hws] at hlock
    exact hput _ (fun hm => hlock (List.mem_cons_of_mem _ hm)) (fun e => hlock (by rw [Nat.succ.inj e]; exact List.mem_cons_self))
  next => exact hput _ List.not_mem_nil (by simp)

theorem Chan.releaseLock_kept (ch : Chan) (k : Nat) : (ch.releaseLock k).prs.ro = ch.prs.ro ∧ (ch.releaseLock k).outQ = ch.outQ := by
  have hevents : ∀ (c : Chan) (l : List Nat), (c.each l (fun c t => c.event t 4)).prs.ro = c.prs.ro ∧ (c.each l (fun c t => c.event t 4)).outQ = c.outQ :=
    fun c l => Prod.mk.inj (Chan.each_frame (f := fun c t => c.event t 4) (fun c => (c.prs.ro, c.outQ)) (fun _ _ => rfl) l c)
  unfold Chan.releaseLock
  dsimp only
  rw [(hevents _ _).1, (hevents _ _).2]
  split <;> exact ⟨rfl, rfl⟩

/-- The thread leaves the waiter queues. -/
def Chan.unwait (ch : Chan) (t : Nat) : Chan :=
  ch.each (ch.prs.locks.map Prod.fst) (fun c k => c.putLock k { c.lock k with waiters := (c.lock k).waiters.filter (fun w => !([t].contains w)) })

theorem Chan.unwait_noWaiter (ch : Chan) (t : Nat) : NoWaiter t (ch.unwait t) := by
  have hall := (Chan.each_locks (Q := fun x => t ∉ x.waiters) (I := fun _ => True)
    (f := fun c k => c.putLock k { c.lock k with waiters := (c.lock k).waiters.filter (fun w => !([t].contains w)) })
    (fun c k _ => ⟨trivial, fun e he => (mem_tput he).imp_left (fun e' => by rw [e']; simp)⟩) (ch.prs.locks.map Prod.fst) ch trivial).2
  exact fun e he => (hall e he).elim id (fun ⟨hold, hnot⟩ => absurd (List.mem_map_of_mem hold) hnot)

/-- One thread's resources are released (R282). -/
theorem Chan.recover_one (ch : Chan) (t : Nat) : (ch.recover [t] none).thr t = {} ∧ (ch.recover [t] none).locksOf t = [] ∧
    (ch.recover [t] none).prs.ro = ch.prs.ro ∧ (NoFatal ch.outQ → NoFatal (ch.recover [t] none).outQ) := by
  obtain ⟨x, hx⟩ : ∃ x, x = (ch.unwait t).putThr t { (ch.unwait t).thr t with watchLock := none, watchMbox := none } := ⟨_, rfl⟩
  obtain ⟨y, hy⟩ : ∃ y, y = x.each ((x.prs.locks.filter (fun e => [t].any (fun u => e.2.holder == u + 1))).map Prod.fst) Chan.releaseLock := ⟨_, rfl⟩
  have hrec : ch.recover [t] none = ((y.dropStaged t).putThr t {}).each (([t].map (fun u => u / 8)).eraseDups) Chan.engSettle := by
    rw [hy, hx]
    rfl
  have hsettle : PrsKept ((y.dropStaged t).putThr t {}) (ch.recover [t] none) := by
    rw [hrec]
    exact List.foldlRecOn (motive := fun d => PrsKept ((y.dropStaged t).putThr t {}) d) _ Chan.engSettle (prsKept_refl _)
      (fun d hd e _ => hd.trans (prsKept_engSettle d e))
  have hdrop : ((y.dropStaged t).prs.ro = y.prs.ro ∧ (y.dropStaged t).outQ = y.outQ) ∧ (y.dropStaged t).prs.locks = y.prs.locks := by
    unfold Chan.dropStaged
    split <;> exact ⟨⟨rfl, rfl⟩, rfl⟩
  have hwait : NoWaiter t x := by
    rw [hx]
    exact ch.unwait_noWaiter t
  have hlocks := (Chan.each_locks (Q := fun l => l.holder ≠ t + 1) (I := NoWaiter t) (f := Chan.releaseLock)
    (fun c k hc => Chan.releaseLock_locks k hc) ((x.prs.locks.filter (fun e => [t].any (fun u => e.2.holder == u + 1))).map Prod.fst) x hwait).2
  have hkept : y.prs.ro = ch.prs.ro ∧ y.outQ = ch.outQ := by
    have hy' := Prod.mk.inj (Chan.each_frame (f := Chan.releaseLock) (fun c => (c.prs.ro, c.outQ))
      (fun c k => Prod.ext (c.releaseLock_kept k).1 (c.releaseLock_kept k).2)
      ((x.prs.locks.filter (fun e => [t].any (fun u => e.2.holder == u + 1))).map Prod.fst) x)
    have hu := Prod.mk.inj (Chan.each_frame
      (f := fun (c : Chan) k => c.putLock k { c.lock k with waiters := (c.lock k).waiters.filter (fun w => !([t].contains w)) })
      (fun c => (c.prs.ro, c.outQ)) (fun _ _ => rfl) (ch.prs.locks.map Prod.fst) ch)
    rw [← hy] at hy'
    subst hx
    exact ⟨hy'.1.trans hu.1, hy'.2.trans hu.2⟩
  refine ⟨(Chan.thr_congr hsettle.1 t).trans (Chan.thr_putThr_same _ _ _), ?_, ?_, fun h => hsettle.2 ?_⟩
  · have hnone : ∀ e ∈ (ch.recover [t] none).prs.locks, e.2.holder ≠ t + 1 := fun e he => by
      rw [hsettle.1] at he
      have hmem : e ∈ y.prs.locks := by
        rw [← hdrop.2]
        exact he
      rw [hy] at hmem
      refine (hlocks e hmem).elim id (fun ⟨hold, hnot⟩ hh => hnot (List.mem_map_of_mem (List.mem_filter.2 ⟨hold, ?_⟩)))
      simp [hh]
    simp only [Chan.locksOf, List.map_eq_nil_iff, List.filter_eq_nil_iff, beq_iff_eq]
    exact hnone
  · rw [hsettle.1]
    exact hdrop.1.1.trans hkept.1
  · rw [show ((y.dropStaged t).putThr t {}).outQ = ch.outQ from hdrop.1.2.trans hkept.2]
    exact h

/-- What a thread hands to the reorder unit (R322). -/
def Thread.parsed (x : Thread) (disp code : Nat) : Parsed := { pkt := x.pkt.getD {}, carry := x.c, result := x.result disp code }

/-- A thread with a packet ends (R322): its reorder unit has the packet, and nothing of the thread is left. -/
theorem Chan.endThread_leaves {a ch : Chan} {t : Nat} (hx : (a.thr t).pkt.isSome = true) (hro : a.prs.ro = ch.prs.ro) (hthr : a.thr t = ch.thr t)
    (disp code : Nat) : (a.endThread t disp code).thr t = {} ∧ (a.endThread t disp code).locksOf t = [] ∧
      (a.endThread t disp code).prs.ro = (ch.roComplete (ch.thr t) ((ch.thr t).parsed disp code)).prs.ro ∧ (NoFatal a.outQ → NoFatal (a.endThread t disp code).outQ) := by
  obtain ⟨k, hk⟩ := Option.isSome_iff_exists.1 hx
  have hend : a.endThread t disp code =
      (a.roComplete (a.thr t) { pkt := k, carry := (a.thr t).c, result := (a.thr t).result disp code }).recover [t] none := by
    simp only [Chan.endThread]
    rw [hk]
  obtain ⟨h1, h2, h3, h4⟩ := (a.roComplete (a.thr t) { pkt := k, carry := (a.thr t).c, result := (a.thr t).result disp code }).recover_one t
  rw [hend]
  refine ⟨h1, h2, ?_, fun h => h4 (Chan.roComplete_noFatal a _ _ h)⟩
  rw [h3, Chan.roComplete_ro _ _ hro, ← hthr, Thread.parsed, hk]
  rfl

end Sys2Proof.Machine
end

section
set_option Elab.async false
/-! The instructions that move and branch (R311, R319), and the issue of any instruction (R270, R288, R310). -/

namespace Sys2Proof.Machine

section
variable (ch : Chan) (t w : Nat)

theorem Chan.effect_nop (h : iOpc w = 0x01) : ch.effect t w = ch := by simp [Chan.effect, h]
theorem Chan.effect_movi (h : iOpc w = 0x12) : ch.effect t w = ch.onThr t (Thread.opMovi w) := by simp [Chan.effect, h]
theorem Chan.effect_rdf (h : iOpc w = 0x41) : ch.effect t w = ch.onThr t (Thread.opRdf w) := by simp [Chan.effect, h]
theorem Chan.effect_wrf (h : iOpc w = 0x42) : ch.effect t w = ch.onThr t (Thread.opWrf w) := by simp [Chan.effect, h]
theorem Chan.effect_time (h : iOpc w = 0x40) : ch.effect t w = ch.opTime t w := by simp [Chan.effect, h]
theorem Chan.effect_tmr (h : iOpc w = 0x3A) : ch.effect t w = ch.opTmr t w := by simp [Chan.effect, h]
theorem Chan.effect_br (h : iOpc w = 0x20) : ch.effect t w = ch.onThr t (Thread.opBr w) := by simp [Chan.effect, h]
theorem Chan.effect_brx (h : iOpc w = 0x21) : ch.effect t w = ch.onThr t (Thread.opBrx w) := by simp [Chan.effect, h]
theorem Chan.effect_match (h : iOpc w = 0x22) : ch.effect t w = ch.onThr t (Thread.opMatch w) := by simp [Chan.effect, h]

end

/-- WRF writes the flags that its mask selects (R311). -/
theorem Thread.opWrf_flag (w : Nat) (x : Thread) {i : Nat} (h : i < 9) :
    (x.opWrf w).flag i = if nbit w (16 + i) then nbit w i else x.flag i := by
  have hmask : (Nat.land (nbits w 31 16) 0x1FF).testBit i = nbit w (16 + i) := by
    rw [nbit_eq_testBit, show Nat.land (nbits w 31 16) 0x1FF = nbits w 31 16 &&& (2 ^ 9 - 1) from rfl, Nat.testBit_and, Nat.testBit_two_pow_sub_one,
      decide_eq_true h, Bool.and_true, nbits, Nat.testBit_mod_two_pow, decide_eq_true (show i < 31 + 1 - 16 by omega), Bool.true_and, Nat.testBit_shiftRight]
  have hlt : Nat.land (nbits w 31 16) 0x1FF < 2 ^ 16 := lt_of_le_of_lt Nat.and_le_right (by decide)
  have hnot : (0xFFFF - Nat.land (nbits w 31 16) 0x1FF).testBit i = !(nbit w (16 + i)) := by
    rw [show 0xFFFF - Nat.land (nbits w 31 16) 0x1FF = 2 ^ 16 - (Nat.land (nbits w 31 16) 0x1FF + 1) by omega, Nat.testBit_two_pow_sub_succ hlt,
      decide_eq_true (show i < 16 by omega), Bool.true_and, hmask]
  have hval : (nbits w 15 0).testBit i = nbit w i := by
    rw [nbit_eq_testBit, nbits, Nat.testBit_mod_two_pow, decide_eq_true (show i < 15 + 1 - 0 by omega), Bool.true_and, Nat.shiftRight_zero]
  have hflags : (x.opWrf w).flags = (x.flags &&& (0xFFFF - Nat.land (nbits w 31 16) 0x1FF)) ||| (nbits w 15 0 &&& Nat.land (nbits w 31 16) 0x1FF) := rfl
  rw [Thread.flag, nbit_eq_testBit, hflags, Nat.testBit_or, Nat.testBit_and, Nat.testBit_and, hmask, hnot, hval, Thread.flag, nbit_eq_testBit x.flags]
  cases nbit w (16 + i) <;> simp

/-- The target of MATCH, key by key (R319). -/
theorem matchTarget_eq (x : Thread) (w : Nat) : matchTarget x w =
    let v := Nat.land ((x.reg (iRs1 w)).toNat >>> nbits w 111 106) (nbits w 105 90)
    let eq := fun (key : Nat) => Nat.land key (nbits w 105 90) = v
    let n := nbits w 5 4
    if 1 ≤ n ∧ eq (nbits w 89 74) then some (nbits w 73 62)
    else if 2 ≤ n ∧ eq (nbits w 61 46) then some (nbits w 45 34)
    else if 3 ≤ n ∧ eq (nbits w 33 18) then some (nbits w 17 6)
    else none := by
  have hn : nbits w 5 4 < 4 := Nat.mod_lt _ (by decide)
  simp only [matchTarget, beq_eq_decide]
  generalize nbits w 5 4 = n at hn
  interval_cases n <;> simp only [List.take, List.find?] <;> grind

/-- MATCH goes to its target with S, or falls through without (R319). -/
theorem Thread.opMatch_goes (x : Thread) (w : Nat) : (x.opMatch w).g = x.g ∧ (x.opMatch w).icount = x.icount ∧ (x.opMatch w).st = x.st ∧
    (x.opMatch w).skipped = x.skipped ∧ (x.opMatch w).pc = (matchTarget x w).getD x.pc ∧ (x.opMatch w).flag fS = (matchTarget x w).isSome := by
  unfold Thread.opMatch
  split
  next p hp =>
    rw [hp]
    exact ⟨rfl, rfl, rfl, rfl, rfl, Thread.flag_setFlag_same _ _ _⟩
  next hp =>
    rw [hp]
    exact ⟨rfl, rfl, rfl, rfl, rfl, Thread.flag_setFlag_same _ _ _⟩

/-- Each instruction command issues its opcode (R311). -/
theorem exec_parseCommand (c : Fin 4) (t : Nat) (s : State) {n : Nat} (hn : n < parseCommands.length) :
    exec (((parseCommands[n]?).getD (1, .pNop)).2 c t) s =
      .next (s.onLive c (fun ch => ch.issue t ((parseCommands[n]?).getD (1, .pNop)).1)) := by
  have hall : List.Forall (fun o : Nat × (Fin 4 → Nat → Instr) => exec (o.2 c t) s = .next (s.onLive c (fun ch => ch.issue t o.1))) parseCommands := by
    simp only [parseCommands, List.Forall]
    repeat' apply And.intro
    all_goals rfl
  rw [List.getElem?_eq_getElem hn]
  exact List.forall_iff_forall_mem.1 hall _ (List.getElem_mem hn)

end Sys2Proof.Machine
end

section
set_option Elab.async false
namespace Sys2Proof.Machine

section
variable {ch : Chan} {t opc : Nat} (h : AtOpcode ch t opc) (hu : Undisturbed ch t)
include h hu

/-- An instruction that needs an outstanding result does not run (R270). -/
theorem Chan.issue_waits (hw : ch.waits t = true) : ch.issue t opc = ch.putThr t { ch.thr t with st := 2, wfe := false } := by
  rw [Chan.issue_runs h hu.noBreak (.inl hw)]
  simp only [Chan.runInstr]
  rw [Chan.stepSettle_none _ hu.noStep, hw, if_pos rfl, Chan.lateCheck_in_time (by rw [Chan.thr_putThr_same]; exact hu.inTime)]

/-- An instruction beyond the limit, or of a poisoned word, ends its thread (R283, R310). -/
theorem Chan.issue_ends (hturn : ch.turn (t / 8) = some t) {code : Nat}
    (hcode : (ch.thr t).maxInstr ≤ (ch.thr t).icount ∧ code = 0x11 ∨ (ch.thr t).icount < (ch.thr t).maxInstr ∧
      tget 0 ch.prs.poison (poisonKey (t / 128) ((ch.thr t).pkt.getD {}).parity (ch.thr t).pc) ≠ 0 ∧ code = 4) :
    ch.issue t opc = (ch.issuedFor t).endThread t dispFault code := by
  have hdone : ((ch.issuedFor t).endThread t dispFault code).lateCheck t = (ch.issuedFor t).endThread t dispFault code :=
    Chan.lateCheck_in_time (by rw [(Chan.endThread_leaves (a := ch.issuedFor t) (ch := ch) h.packet rfl rfl dispFault code).1])
  have hwaits : ch.waits t = false := by
    rcases hcode with ⟨hlimit, -⟩ | ⟨-, hpoison, -⟩
    · simp [Chan.waits, Nat.not_lt.2 hlimit]
    · simp [Chan.waits, hpoison]
  rw [Chan.issue_runs h hu.noBreak (.inr hturn)]
  simp only [Chan.runInstr]
  rw [Chan.stepSettle_none _ hu.noStep, hwaits, if_neg Bool.false_ne_true]
  rcases hcode with ⟨hlimit, rfl⟩ | ⟨hlimit, hpoison, rfl⟩
  · rw [if_pos hlimit]
    exact hdone
  · rw [if_neg (Nat.not_le.2 hlimit), if_pos hpoison]
    exact hdone

/-- An instruction whose predicate fails only advances its thread (R310). -/
theorem Chan.issue_skips (hturn : ch.turn (t / 8) = some t) (hlimit : (ch.thr t).icount < (ch.thr t).maxInstr)
    (hsound : tget 0 ch.prs.poison (poisonKey (t / 128) ((ch.thr t).pkt.getD {}).parity (ch.thr t).pc) = 0)
    (hcond : condHolds (ch.thr t).flags (iCond (ch.instrWord t)) = false) : ch.issue t opc = ch.advanced t := by
  have hwaits : ch.waits t = false := by simp [Chan.waits, hcond]
  rw [Chan.issue_runs h hu.noBreak (.inr hturn)]
  simp only [Chan.runInstr]
  rw [Chan.stepSettle_none _ hu.noStep, hwaits, if_neg Bool.false_ne_true, if_neg (Nat.not_le.2 hlimit), if_neg (not_not.2 hsound), hcond,
    Bool.not_false, if_pos rfl, Thread.advanced_eq hu.noStep]
  have hin : ((ch.advanced t).thr t).skipped = false := by
    rw [ch.advanced_thr t]
    exact hu.inTime
  exact Chan.lateCheck_in_time hin

end

/-- A thread at a breakpoint halts before the instruction (R288). -/
theorem Chan.issue_breaks {ch : Chan} {t opc b : Nat} (h : AtOpcode ch t opc) (hturn : ch.turn (t / 8) = some t) (hb : ch.bpMatch t = some b)
    (hlim : ch.bpHalted (t / 128) < ch.getF pgDbg DBG.CFG_HALT_LIMIT) : ch.issue t opc = ch.haltThread t 2 b ∧
      PrsKept (ch.putThr t { ch.thr t with st := 4, prev := 1, haltCause := 2, bp := b, stepping := 0, bpPass := true }) (ch.haltThread t 2 b) ∧
      bit ((ch.haltThread t 2 b).get pgDbg oCAUSE) 8 = true := by
  have hhalt : ch.haltThread t 2 b = ((ch.putThr t { ch.thr t with st := 4, prev := 1, haltCause := 2, bp := b, stepping := 0, bpPass := true }).journal
      pgDbg clsNone 1 (t + 2 * 2 ^ 16)).raise pgDbg 8 := by
    simp only [Chan.haltThread, h.ready, beq_self_eq_true, Bool.or_true]
    rw [if_neg (by decide)]
  have hkept : PrsKept (ch.putThr t { ch.thr t with st := 4, prev := 1, haltCause := 2, bp := b, stepping := 0, bpPass := true }) (ch.haltThread t 2 b) := by
    rw [hhalt]
    exact (prsKept_journal _ _ _ _ _).trans (prsKept_raise _ _ _)
  refine ⟨?_, hkept, by rw [hhalt]; exact Chan.cause_raise _ _ (by decide)⟩
  have hst : ((ch.haltThread t 2 b).thr t).st = 4 := by
    rw [Chan.thr_congr hkept.1, Chan.thr_putThr_same]
  simp only [Chan.issue]
  rw [if_pos ⟨h.tid, h.ready, h.packet, h.cluster, h.opcode, .inr hturn⟩, Chan.stepThread, hb]
  simp only [Chan.bpHit]
  rw [if_pos hlim, if_pos hst]

end Sys2Proof.Machine

namespace Sys2Proof.Proofs

open Sys2Proof Sys2Proof.Machine

/-- An instruction that ends its thread with a code. -/
theorem completes_ended {i : Instr} {s : State} {c : Fin 4} {t opc code : Nat} (hr : Ready s c)
    (hi : exec i s = .next (s.onLive c (fun ch => ch.issue t opc))) (ha : AtOpcode (s.chan c) t opc)
    (hend : (s.chan c).issue t opc = ((s.chan c).issuedFor t).endThread t dispFault code) :
    Completes i s (fun u => (u.chan c).thr t = {} ∧ (u.chan c).locksOf t = [] ∧
      (u.chan c).prs.ro = ((s.chan c).roComplete ((s.chan c).thr t) (((s.chan c).thr t).parsed dispFault code)).prs.ro) := by
  obtain ⟨hthr, hlocks, hro, hplain⟩ := Chan.endThread_leaves (a := (s.chan c).issuedFor t) (ch := s.chan c) ha.packet rfl rfl dispFault code
  refine completes_prs hr hi (by rw [hend]; exact hplain) (fun u hu => ?_)
  rw [hend] at hu
  refine ⟨(Chan.thr_congr hu t).trans hthr, ?_, by rw [hu, hro]⟩
  rw [← hlocks, Chan.locksOf, Chan.locksOf, hu]

/-- Settles O36 (R270, R271, R283, R288, R307, R310, R311, R316, R319, R321). -/
theorem parseMovesAndBranches : Obligations.ParseMovesAndBranches := by
  refine ⟨fun s c t hr => ?_, fun s c t hr => ?_, fun s c t n hr hn => ?_⟩
  · have hadv := (s.chan c).advanced_thr t
    obtain ⟨hns, ht64⟩ := (s.chan c).advanced_clock t
    refine ⟨fun hc => ?_, fun hc => ?_, fun hc => ?_, fun hc => ?_, fun hc => ?_, fun hc => ?_⟩
    · refine completes_thread hr rfl hc (Chan.effect_nop _ _ _ hc.opcode) (by rw [hadv]; exact hc.inTime) rfl (onlyThread_refl _ _) (fun u hu ho => ?_)
      dsimp only
      rw [hu, hadv]
      exact ⟨⟨rfl, rfl, ho⟩, rfl, rfl, rfl⟩
    · refine completes_onThr hr rfl hc (Chan.effect_movi _ _ _ hc.opcode) (by rw [hadv]; exact hc.ready) (by rw [hadv]; exact hc.inTime)
        (fun u hu ho => ?_)
      dsimp only
      rw [hu, hadv]
      exact ⟨⟨rfl, rfl, ho⟩, Thread.reg_setReg_same _ _ (iRd_lt _), rfl, fun _ hj => Thread.reg_setReg_ne _ _ hj, rfl, rfl⟩
    · refine completes_onThr hr rfl hc (Chan.effect_rdf _ _ _ hc.opcode) (by rw [hadv]; exact hc.ready) (by rw [hadv]; exact hc.inTime)
        (fun u hu ho => ?_)
      dsimp only
      rw [hu, hadv]
      exact ⟨⟨rfl, rfl, ho⟩, Thread.reg_setReg_same _ _ (iRd_lt _), fun _ hj => Thread.reg_setReg_ne _ _ hj, rfl, rfl⟩
    · refine completes_onThr hr rfl hc (Chan.effect_wrf _ _ _ hc.opcode) (by rw [hadv]; exact hc.ready) (by rw [hadv]; exact hc.inTime)
        (fun u hu ho => ?_)
      dsimp only
      rw [hu, hadv]
      exact ⟨⟨rfl, rfl, ho⟩, rfl, fun i hi => Thread.opWrf_flag _ _ hi⟩
    · refine completes_onThr hr rfl hc (Chan.effect_time _ _ _ hc.opcode) (by rw [hadv]; exact hc.ready) (by rw [hadv]; exact hc.inTime)
        (fun u hu ho => ?_)
      dsimp only
      rw [hu, hadv, hns, ht64]
      exact ⟨⟨rfl, rfl, ho⟩, Thread.reg_setReg_same _ _ (iRd_lt _), fun _ hj => Thread.reg_setReg_ne _ _ hj, rfl, rfl⟩
    · refine completes_onThr hr rfl hc (Chan.effect_tmr _ _ _ hc.opcode) (by rw [hadv]; exact hc.ready) (by rw [hadv]; exact hc.inTime)
        (fun u hu ho => ?_)
      dsimp only
      rw [hu, hadv]
      exact ⟨⟨rfl, rfl, ho⟩, rfl, rfl⟩
  · have hadv := (s.chan c).advanced_thr t
    refine ⟨fun hc => ?_, fun hc => ?_, fun hc => ?_⟩
    · refine completes_onThr hr rfl hc (Chan.effect_br _ _ _ hc.opcode) (by rw [hadv]; exact hc.ready) (by rw [hadv]; exact hc.inTime)
        (fun u hu ho => ?_)
      dsimp only
      rw [hu, hadv]
      exact ⟨⟨rfl, rfl, ho⟩, rfl⟩
    · refine completes_onThr hr rfl hc (Chan.effect_brx _ _ _ hc.opcode) (by rw [hadv]; exact hc.ready) (by rw [hadv]; exact hc.inTime)
        (fun u hu ho => ?_)
      dsimp only
      rw [hu, hadv]
      exact ⟨⟨rfl, rfl, ho⟩, rfl⟩
    · obtain ⟨hg, hicount, hst, hskip, hpc, hflag⟩ := (((s.chan c).thr t).advanced).opMatch_goes ((s.chan c).instrWord t)
      have hsame : matchTarget ((s.chan c).thr t).advanced ((s.chan c).instrWord t) = matchTarget ((s.chan c).thr t) ((s.chan c).instrWord t) := rfl
      have htarget := matchTarget_eq ((s.chan c).thr t) ((s.chan c).instrWord t)
      dsimp only at htarget
      refine completes_onThr hr rfl hc (Chan.effect_match _ _ _ hc.opcode) (by rw [hadv, hst]; exact hc.ready) (by rw [hadv, hskip]; exact hc.inTime)
        (fun u hu ho => ?_)
      dsimp only
      rw [hu, hadv, hpc, hflag, hsame, htarget]
      refine ⟨⟨hg, hicount, ho⟩, ?_⟩
      split_ifs <;> exact ⟨rfl, rfl⟩
  · have hexec := exec_parseCommand c t s hn
    generalize (parseCommands[n]?).getD (1, .pNop) = o at hexec ⊢
    refine ⟨fun hoff => ?_, fun ha hu hw => ?_, fun ha hu hturn hlim => ?_, fun ha hu hturn hlim hpoison => ?_,
      fun ha hu hturn hlim hsound hcond => ?_, fun b ha hb hturn hlim => ?_⟩
    · refine completes_same hr hexec (if_neg (fun ⟨h1, h2, h3, h4, h5, h6⟩ => ?_))
      rcases hoff with hat | ⟨hw, hturn⟩
      · exact hat ⟨h1, h2, h3, h4, h5⟩
      · rw [hw] at h6
        exact h6.elim Bool.false_ne_true hturn
    · refine completes_quiet hr hexec (Chan.issue_waits ha hu hw) rfl (fun u hch => ?_)
      dsimp only
      rw [hch, Chan.thr_putThr_same]
    · exact completes_ended hr hexec ha (Chan.issue_ends ha hu hturn (.inl ⟨hlim, rfl⟩))
    · exact completes_ended hr hexec ha (Chan.issue_ends ha hu hturn (.inr ⟨hlim, hpoison, rfl⟩))
    · have hissue := Chan.issue_skips ha hu hturn hlim hsound hcond
      refine ⟨_, hexec, ?_⟩
      have hchan : (s.onLive c (fun ch => ch.issue t o.1)).chan c = { (s.chan c).advanced t with outQ := [] } := by
        rw [State.onLive_of_ready hr, State.runChan_chan (f := fun ch => ch.issue t o.1) (by
          rw [hissue]
          exact Chan.advanced_onlyIrqs _ t hr.2), if_pos rfl, hissue]
      dsimp only
      rw [hchan]
      exact ⟨(s.chan c).advanced_thr t, onlyThread_trans (Chan.advanced_onlyThread _ t ha.ready) ⟨fun _ _ => rfl, rfl⟩⟩
    · obtain ⟨hissue, hkept, hcause⟩ := Chan.issue_breaks ha hturn hb hlim
      have hplain := hkept.2 (noFatal_of_nil hr.2)
      have hcalm := State.runChan_calm (s := s) (c := c) (f := fun ch => ch.issue t o.1) (by rw [hissue]; exact hplain)
      refine ⟨_, hexec, ?_⟩
      dsimp only
      rw [State.onLive_of_ready hr, calm_get hcalm (by decide) (by decide), Chan.thr_congr hcalm.prs, hissue, Chan.thr_congr hkept.1,
        Chan.thr_putThr_same]
      exact ⟨rfl, rfl, rfl, rfl, rfl, rfl, rfl, hcause⟩

end Sys2Proof.Proofs
end

section
set_option Elab.async false
/-! The link of a line port (R209–R212): what the operations of ports leave of it. -/

namespace Sys2Proof.Machine

/-- An effect spares what a smaller strip leaves, too. -/
theorem Spares.strips {K : Nat → Prop} {f strip : Chan → Chan} {a b : Chan} (h : Spares K f a b) (g : Chan → Chan) (hs : ∀ x, strip x = g (f x)) :
    Spares K strip a b := ⟨by rw [hs, hs, h.work], h.regs, h.outs⟩

/-- A tally event or a cause leaves what is no register of the page's counters and causes. -/
theorem Spares.of_counts {K : Nat → Prop} {strip : Chan → Chan} {a b : Chan} {q : Pg} (h : Counts q a b)
    (hK : ∀ key, K key → ∀ off, CountReg off → key ≠ q.key off) : Spares K strip a b where
  work := by
    have hwork := congrArg (fun x => strip { quietOf x with free := 0 }) h.work
    exact hwork
  regs key hk := h.regs key (hK key hk)
  outs ha o ho := (h.outs o ho).elim (ha o) (fun e => by rw [e]; rfl)

/-! The registers of a port. -/

/-- PORT_CFG, PORT_STAT and PORT_CTRL of port `p`, and PAGE_CTRL of the pages that may serve its lanes. -/
def LinkKey (p key : Nat) : Prop :=
  key = (portPg p).key (LINE.PORT_CFG (portBlk p)) ∨ key = (portPg p).key (LINE.PORT_STAT (portBlk p)) ∨
    key = (portPg p).key (LINE.PORT_CTRL (portBlk p)) ∨ ∃ i, i < 16 ∧ key = (pgLine i).key oCTRL

theorem pgLine_key {i : Nat} (h : i < 16) (off : Nat) : (pgLine i).key off = (0x30 + i) * 65536 + off := by
  simp only [Pg.key]
  norm_num
  omega

/-- Where a port's block stands. -/
theorem portPg_place (p : Nat) : ∃ i, portPg p = pgLine i ∧ (p < 64 → i < 8) ∧ (p < 64 → p = if portBlk p < 4 then 4 * i + portBlk p else 28 + 4 * i + portBlk p) := by
  unfold portPg portBlk
  split
  · refine ⟨_, rfl, fun _ => by omega, fun _ => ?_⟩
    split <;> omega
  · refine ⟨_, rfl, fun _ => by omega, fun _ => ?_⟩
    split <;> omega

theorem linkKey_form {p key : Nat} (hp : p < 64) (h : LinkKey p key) : ∃ i o, i < 16 ∧ key = (0x30 + i) * 65536 + o ∧ o < 65536 ∧
    (o = 0x0C ∨ (i < 8 ∧ portPg p = pgLine i ∧ (o = LINE.PORT_CFG (portBlk p) ∨ o = LINE.PORT_STAT (portBlk p) ∨ o = LINE.PORT_CTRL (portBlk p)))) := by
  have hblk := portBlk_lt p
  obtain ⟨i, hi, hlt, -⟩ := portPg_place p
  have hi8 := hlt hp
  rcases h with h | h | h | ⟨j, hj, h⟩
  · exact ⟨i, _, by omega, by rw [h, hi, pgLine_key (by omega)], by simp only [LINE.PORT_CFG]; omega, .inr ⟨hi8, hi, .inl rfl⟩⟩
  · exact ⟨i, _, by omega, by rw [h, hi, pgLine_key (by omega)], by simp only [LINE.PORT_STAT]; omega, .inr ⟨hi8, hi, .inr (.inl rfl)⟩⟩
  · exact ⟨i, _, by omega, by rw [h, hi, pgLine_key (by omega)], by simp only [LINE.PORT_CTRL]; omega, .inr ⟨hi8, hi, .inr (.inr rfl)⟩⟩
  · exact ⟨j, 0x0C, hj, by rw [h, pgLine_key hj], by omega, .inl rfl⟩

/-- The link of a port: its working state without what its timers, its hold window and the frames that wait for it are. -/
def PortWork.core (w : PortWork) : PortWork :=
  { w with ctl := [], xoff := 0, xoffAt := [], timer := 0, since := 0, cause := 0, downAt := 0, holdMs := 0, upAt := 0 }

/-- Only the link of port `p`, and the pages in soft reset. -/
abbrev linkStrip (p : Nat) (ch : Chan) : Chan := { ({} : Chan) with ports := [(p, (ch.pw p).core)], inReset := ch.inReset }

/-- Nothing of the link of port `p` has changed. -/
abbrev Aside (p : Nat) : Chan → Chan → Prop := Spares (LinkKey p) (linkStrip p)

namespace Aside

variable {p : Nat} (hp : p < 64)

theorem core {a b : Chan} (h : Aside p a b) : (b.pw p).core = (a.pw p).core := by
  have hwork := congrArg (fun x : Chan => (x.pw p).core) h.work
  have hread : ∀ x : Chan, ((linkStrip p { quietOf x with free := 0 }).pw p).core = (x.pw p).core := fun x => by
    simp [Chan.pw, tget, rget, PortWork.core, quietOf]
  rwa [hread, hread] at hwork

theorem reset {a b : Chan} (h : Aside p a b) : b.inReset = a.inReset := by
  have hwork := congrArg (fun x : Chan => x.inReset) h.work
  exact hwork

/-- A field of the channel that is none of the port's. -/
theorem of_field {a b : Chan} (hports : b.ports = a.ports) (hreset : b.inReset = a.inReset) (hregs : b.regs = a.regs) (houts : b.outQ = a.outQ) :
    Aside p a b := by
  refine .of_work ?_ hregs houts
  have hpw : b.pw p = a.pw p := congrArg (fun x => tget ({} : PortWork) x p) hports
  have hwork := congrArg₂ (fun x y => ({ ({} : Chan) with ports := [(p, PortWork.core x)], inReset := y } : Chan)) hpw hreset
  exact hwork

theorem putPw_same (ch : Chan) {w : PortWork} (h : w.core = (ch.pw p).core) : Aside p ch (ch.putPw p w) := by
  refine .of_work ?_ rfl rfl
  have hcore : ((ch.putPw p w).pw p).core = (ch.pw p).core := by
    rw [Chan.pw, show (ch.putPw p w).ports = tput {} ch.ports p w from rfl, tget_tput_same, h]
  exact congrArg (fun x => ({ ({} : Chan) with ports := [(p, x)], inReset := ch.inReset } : Chan)) hcore

theorem putPw_ne (ch : Chan) {q : Nat} (w : PortWork) (h : q ≠ p) : Aside p ch (ch.putPw q w) := by
  refine .of_work ?_ rfl rfl
  have hcore : ((ch.putPw q w).pw p).core = (ch.pw p).core := congrArg PortWork.core (tget_tput_ne _ _ _ h.symm)
  exact congrArg (fun x => ({ ({} : Chan) with ports := [(p, x)], inReset := ch.inReset } : Chan)) hcore

include hp

theorem not_tm (key : Nat) (h : LinkKey p key) : ¬ TmKey key := by
  obtain ⟨i, o, hi, rfl, ho, hform⟩ := linkKey_form hp h
  simp only [TmKey, InHeader, Pg.key, CADDY.DOUBLE_FREE, CADDY.FOREIGN_FREE]
  norm_num
  simp only [LINE.PORT_CFG, LINE.PORT_STAT, LINE.PORT_CTRL] at hform
  omega

theorem not_journal (key : Nat) (h : LinkKey p key) : key / 65536 ≠ pgJrnl.key 0 / 65536 := fun e => not_tm hp key h (.inl e)

theorem not_counts (q : Pg) (key : Nat) (h : LinkKey p key) (off : Nat) (hoff : CountReg off) : key ≠ q.key off := by
  obtain ⟨i, o, hi, rfl, ho, hform⟩ := linkKey_form hp h
  simp only [CountReg, oCAUSE, oFIRST, oOVF] at hoff
  rw [q.key_header (by omega), Pg.key]
  simp only [LINE.PORT_CFG, LINE.PORT_STAT, LINE.PORT_CTRL] at hform
  norm_num
  omega

/-- What only the traffic manager does. -/
theorem of_tm {a b : Chan} (h : TmOnly p a b) : Aside p a b := by
  refine (h.mono (not_tm hp)).strips (linkStrip p) (fun x => ?_)
  have hpw : (tmStrip p x).pw p = (x.pw p).link := by simp [Chan.pw, tget, rget]
  exact (congrArg (fun w => ({ ({} : Chan) with ports := [(p, PortWork.core w)], inReset := x.inReset } : Chan)) hpw).symm

theorem raise (ch : Chan) (q : Pg) {b : Nat} (h0 : nbit (2 ^ b) 0 = false) (h2 : nbit (2 ^ b) 2 = false) : Aside p ch (ch.raise q b) :=
  .of_counts (.raiseMask q ch h0 h2) (not_counts hp q)

theorem journal (ch : Chan) (q : Pg) (cls ev detail : Nat) : Aside p ch (ch.journal q cls ev detail) :=
  Spares.journal (not_journal hp) ch q cls ev detail

/-- A register of another page, but for PAGE_CTRL. -/
theorem put_page (ch : Chan) (q : Pg) {off : Nat} (v : Word) (hoff : off < 65536) (hpage : q.key 0 / 65536 < 0x30 ∨ 0x38 ≤ q.key 0 / 65536) (h : off ≠ oCTRL) :
    Aside p ch (ch.put q off v) := by
  refine .put ch q off v (fun hk => ?_)
  obtain ⟨i, o, hi, he, ho, hform⟩ := linkKey_form hp hk
  have hdiv := q.key_div hoff
  rcases hform with rfl | ⟨hi8, -⟩
  · have hmod : q.key off % 65536 = 0x0C := by omega
    simp only [Pg.key] at hmod he hdiv hpage
    simp only [oCTRL] at h
    split at hmod <;> omega
  · omega

/-- A register of a port's block: another port's, or none of PORT_CFG, PORT_STAT and PORT_CTRL. -/
theorem put_port (ch : Chan) {q off : Nat} (hq : q < 64) (v : Word) (hlo : 0x1000 + 1024 * portBlk q ≤ off) (hhi : off < 0x1400 + 1024 * portBlk q)
    (h : q ≠ p ∨ 0x100C + 1024 * portBlk q ≤ off) : Aside p ch (ch.put (portPg q) off v) := by
  refine .put ch _ off v (fun hk => ?_)
  obtain ⟨i, o, hi, he, ho, hform⟩ := linkKey_form hp hk
  obtain ⟨j, hj, hj8, hplace⟩ := portPg_place q
  obtain ⟨i', hi', hi8', hplace'⟩ := portPg_place p
  have hbq := portBlk_lt q
  have hbp := portBlk_lt p
  have hj8 := hj8 hq
  have hplace := hplace hq
  have hplace' := hplace' hp
  rw [hj, pgLine_key (by omega)] at he
  simp only [LINE.PORT_CFG, LINE.PORT_STAT, LINE.PORT_CTRL] at hform
  rcases hform with rfl | ⟨hi8, hpg, hform⟩
  · omega
  · have hii : i = i' := by
      have hpgs := congrArg Pg.num (hpg.symm.trans hi')
      simp only at hpgs
      omega
    have hblk : portBlk q = portBlk p := by omega
    have hji : j = i := by omega
    rcases h with h | h
    · apply h
      rw [hplace, hplace', hblk, hji, hii]
    · omega

end Aside

/-! A link that stands. -/

/-- A field within a field. -/
theorem fld_within {v w : Word} {top bot hi lo : Nat} (h : fld w top bot = fld v top bot) (hlo : bot ≤ lo) (hhi : hi ≤ top) : fld w hi lo = fld v hi lo := by
  apply Nat.eq_of_testBit_eq
  intro i
  have hbit := congrArg (fun n => Nat.testBit n (lo - bot + i)) h
  simp only [fld, Nat.testBit_mod_two_pow, Nat.testBit_shiftRight] at hbit ⊢
  by_cases hlt : i < hi + 1 - lo
  · rw [decide_eq_true (show lo - bot + i < top + 1 - bot by omega), Bool.true_and, Bool.true_and, show bot + (lo - bot + i) = lo + i by omega] at hbit
    rw [hbit]
  · rw [decide_eq_false hlt, Bool.false_and, Bool.false_and]

/-- From `a` to `b` the link of port `p` stands: its configuration, STATE, OPER and the faults of PORT_STAT, and the pages that serve it. -/
structure Steady (p : Nat) (a b : Chan) : Prop where
  cfg : b.get (portPg p) (LINE.PORT_CFG (portBlk p)) = a.get (portPg p) (LINE.PORT_CFG (portBlk p))
  stat : fld (b.get (portPg p) (LINE.PORT_STAT (portBlk p))) 31 26 = fld (a.get (portPg p) (LINE.PORT_STAT (portBlk p))) 31 26
  ctl : b.get (portPg p) (LINE.PORT_CTRL (portBlk p)) = a.get (portPg p) (LINE.PORT_CTRL (portBlk p))
  core : (b.pw p).core = (a.pw p).core
  ctrl : ∀ i, i < 16 → b.get (pgLine i) oCTRL = a.get (pgLine i) oCTRL
  reset : b.inReset = a.inReset
  outs : NoFatal a.outQ → NoFatal b.outQ

theorem Aside.steady {p : Nat} {a b : Chan} (h : Aside p a b) : Steady p a b where
  cfg := h.get (.inl rfl)
  stat := by rw [h.get (.inr (.inl rfl))]
  ctl := h.get (.inr (.inr (.inl rfl)))
  core := h.core
  ctrl i hi := h.get (.inr (.inr (.inr ⟨i, hi, rfl⟩)))
  reset := h.reset
  outs := h.outs

namespace Steady

variable {p : Nat} {a b c : Chan}

theorem refl (a : Chan) : Steady p a a := ⟨rfl, rfl, rfl, rfl, fun _ _ => rfl, rfl, id⟩

theorem trans (h : Steady p a b) (g : Steady p b c) : Steady p a c where
  cfg := g.cfg.trans h.cfg
  stat := g.stat.trans h.stat
  ctl := g.ctl.trans h.ctl
  core := g.core.trans h.core
  ctrl i hi := (g.ctrl i hi).trans (h.ctrl i hi)
  reset := g.reset.trans h.reset
  outs := g.outs ∘ h.outs

theorem ite {q : Prop} [Decidable q] {x y : Chan} (hx : q → Steady p a x) (hy : ¬ q → Steady p a y) : Steady p a (if q then x else y) := by
  split
  · exact hx ‹_›
  · exact hy ‹_›

theorem each {α : Type} {f : Chan → α → Chan} (l : List α) (h : ∀ ch, ∀ x ∈ l, Steady p a ch → Steady p ch (f ch x)) (ha : Steady p a b) :
    Steady p a (b.each l f) :=
  List.foldlRecOn (motive := fun d => Steady p a d) l f ha (fun d hd x hx => hd.trans (h d x hx hd))

/-- A field of PORT_CFG. -/
theorem portF_cfg (h : Steady p a b) {f : Nat → Fld} (hf : (f (portBlk p)).off = LINE.PORT_CFG (portBlk p)) : b.portF p f = a.portF p f := by
  rw [Chan.portF, Chan.portF, Chan.getF, Chan.getF, hf, h.cfg]

theorem portKind (h : Steady p a b) : b.portKind p = a.portKind p := h.portF_cfg rfl

/-- STATE, OPER and the faults of PORT_STAT. -/
theorem portF_stat (h : Steady p a b) {f : Nat → Fld} (hf : (f (portBlk p)).off = LINE.PORT_STAT (portBlk p)) (hlo : 26 ≤ (f (portBlk p)).lo)
    (hhi : (f (portBlk p)).hi < 32) : b.portF p f = a.portF p f := by
  rw [Chan.portF, Chan.portF, Chan.getF, Chan.getF, hf]
  exact fld_within h.stat hlo (Nat.le_of_lt_succ hhi)

theorem portB (f : Nat → Fld) (h : b.portF p f = a.portF p f) : b.portB p f = a.portB p f := by
  rw [Chan.portB, Chan.portB, h]

theorem oper (h : Steady p a b) : b.oper p = a.oper p := portB _ (h.portF_stat rfl (by norm_num) (by norm_num))

/-- HOLDING, VERIFY, RX_PAUSED and REFUSE of a port. -/
theorem putStat (hp : p < 64) (ch : Chan) {q : Nat} (hq : q < 64) {f : Nat → Fld} (v : Nat) (hf : (f (portBlk q)).off = LINE.PORT_STAT (portBlk q))
    (hl : (f (portBlk q)).lo ≤ (f (portBlk q)).hi) (hhi : (f (portBlk q)).hi < 26) : Steady p ch (ch.putPortF q f v) := by
  have hblk := portBlk_lt q
  by_cases hqp : q = p
  · subst hqp
    obtain ⟨i, hi, hlt⟩ := portPg_page q
    have hi8 := hlt hp
    unfold Chan.putPortF Chan.putF
    rw [hf]
    refine ⟨?_, ?_, ?_, rfl, fun j hj => ?_, rfl, id⟩
    · refine ch.get_put_ne _ ?_
      rw [hi, pgLine_key (by omega), pgLine_key (by omega)]
      simp only [LINE.PORT_CFG, LINE.PORT_STAT]
      omega
    · rw [Chan.get_put_same]
      exact fld_setFld_ne _ _ _ _ _ _ hl (by decide) (.inl hhi)
    · refine ch.get_put_ne _ ?_
      rw [hi, pgLine_key (by omega), pgLine_key (by omega)]
      simp only [LINE.PORT_CTRL, LINE.PORT_STAT]
      omega
    · refine ch.get_put_ne _ ?_
      rw [hi, pgLine_key hj, pgLine_key (by omega)]
      simp only [LINE.PORT_STAT, oCTRL]
      omega
  · exact (Aside.put_port hp ch hq _ (by rw [hf, LINE.PORT_STAT]; omega) (by rw [hf, LINE.PORT_STAT]; omega) (.inl hqp)).steady

end Steady

end Sys2Proof.Machine
end

section
set_option Elab.async false
/-! The steps of a port that leave a link standing (R209, R216, R217, R240, R241). -/

namespace Sys2Proof.Machine

namespace Aside

variable {p : Nat} (hp : p < 64)
include hp

theorem putFlex (ch : Chan) {off : Nat} (v : Word) (hlo : 0x100 ≤ off) (hhi : off < 65536) : Aside p ch (ch.put pgFlex off v) :=
  put_page hp ch pgFlex v hhi (.inr (by decide)) (by simp only [oCTRL]; omega)

theorem putAdm (ch : Chan) {off : Nat} (v : Word) (hlo : 0x100 ≤ off) (hhi : off < 65536) : Aside p ch (ch.put pgAdm off v) :=
  put_page hp ch pgAdm v hhi (.inr (by decide)) (by simp only [oCTRL]; omega)

theorem portInc (ch : Chan) {q : Nat} (hq : q < 64) (f : Nat → Nat) (n : Nat) (hlo : 0x100C + 1024 * portBlk q ≤ f (portBlk q))
    (hhi : f (portBlk q) + 4 < 0x1400 + 1024 * portBlk q) : Aside p ch (ch.portInc q f n) :=
  (put_port hp ch hq _ (by omega) (by omega) (.inr hlo)).trans (put_port hp _ hq _ (by omega) hhi (.inr (by omega)))

omit hp in
theorem putRegion (ch : Chan) (k : Nat) (r : Region) : Aside p ch (ch.putRegion k r) := by
  unfold Chan.putRegion
  exact .ite (fun _ => of_field rfl rfl rfl rfl) (fun _ => of_field rfl rfl rfl rfl)

omit hp in
theorem onCtl (ch : Chan) (f : KCtl → KCtl) : Aside p ch (ch.onCtl f) := by
  unfold Chan.onCtl
  split
  · exact putRegion ch _ _
  · exact .refl ch

omit hp in
theorem ptpPortTo (ch : Chan) (q st : Nat) : Aside p ch (ch.ptpPortTo q st) := by
  unfold Chan.ptpPortTo
  split
  · exact .refl ch
  · exact .ite (fun _ => putRegion ch _ _) (fun _ => .refl ch)

omit hp in
theorem markDef (ch : Chan) (e : Nat) : Aside p ch (ch.markDef e) := of_field rfl rfl rfl rfl

omit hp in
theorem onCosy (ch : Chan) (f : CosyW → CosyW) : Aside p ch (ch.onCosy f) := of_field rfl rfl rfl rfl

theorem putSrc (ch : Chan) (n v : Nat) : Aside p ch (ch.putF pgCosy ⟨COSY.SRC_STAT, n, n⟩ v) :=
  put_page hp ch pgCosy (off := COSY.SRC_STAT) _ (by decide) (.inl (by decide)) (by decide)

theorem srcLost (ch : Chan) (code : Nat) : Aside p ch (ch.srcLost code) := by
  have hcosy : ∀ key, LinkKey p key → ¬ InHeader pgCosy key := fun key hk hh => by
    obtain ⟨i, o, hi, rfl, ho, -⟩ := linkKey_form hp hk
    have := hh.page
    rw [show pgCosy.key 0 / 65536 = 2 from rfl] at this
    omega
  unfold Chan.srcLost
  dsimp only
  refine .ite (fun _ => .refl ch) (fun _ => ?_)
  exact (((((putSrc hp ch _ 0).trans (onCosy _ _)).trans (onCtl _ _)).trans (.capture hcosy _ _ _ _ _ _)).trans
    (raise hp _ _ rfl rfl)).trans (journal hp _ _ _ _ _)

theorem recDown (ch : Chan) (code : Nat) (port : Fld) (q : Nat) : Aside p ch (ch.recDown code port q) := by
  unfold Chan.recDown
  exact .ite (fun _ => (onCtl ch _).trans (srcLost hp _ code)) (fun _ => .refl ch)

theorem discardWhere (ch : Chan) (g : Nat → Bool) (f : QEnt → Bool) : Aside p ch (ch.discardWhere g f).1 := by
  unfold Chan.discardWhere
  refine List.foldlRecOn (motive := fun r : Chan × Nat => Aside p ch r.1) _ _ (.refl ch) (fun r hr q _ => hr.trans ?_)
  have hfree : ∀ (c : Chan) (l : List QEnt), TmOnly p c (c.each l (fun c e => c.hwFree e.handle)) := fun c l =>
    Spares.each (f := fun c (e : QEnt) => c.hwFree e.handle) (fun c e => TmOnly.hwFree c e.handle) l c
  have hent : TmOnly p r.1 (r.1.discardEnts q f).1 := (TmOnly.takeOut r.1 q f).trans (hfree _ _)
  exact of_tm hp hent

theorem putPw (ch : Chan) {q : Nat} {w : PortWork} (h : w.core = (ch.pw q).core) : Aside p ch (ch.putPw q w) := by
  by_cases hq : q = p
  · subst hq
    exact putPw_same ch h
  · exact putPw_ne ch w hq

theorem holdUp (ch : Chan) {q : Nat} (hq : q < 64) : Aside p ch (ch.holdUp q) := by
  unfold Chan.holdUp
  refine .ite (fun _ => putPw hp ch rfl) (fun _ => ?_)
  exact ((putPw hp ch (w := { ch.pw q with upAt := ch.ns + 1 }) rfl).trans (putAdm hp _ (off := (ADM.HOLD_STAT_STATE q).off) _
    (by simp only; omega) (by simp only; omega))).trans (journal hp _ _ _ _ _)

theorem holdDown (ch : Chan) {q : Nat} (hq : q < 64) : Aside p ch (ch.holdDown q) := by
  have hstat : ∀ (c : Chan) (v : Nat), Aside p c (c.putF pgAdm (ADM.HOLD_STAT_STATE q) v) := fun c v =>
    putAdm hp c (off := (ADM.HOLD_STAT_STATE q).off) _ (by simp only; omega) (by simp only; omega)
  have hinc : ∀ (c : Chan) (n : Nat), Aside p c (c.inc pgAdm (ADM.PORT_DOWN_DISC q) n) := fun c n =>
    putAdm hp c _ (by simp only [ADM.PORT_DOWN_DISC]; omega) (by simp only [ADM.PORT_DOWN_DISC]; omega)
  have hdiscard : ∀ c : Chan, Aside p c (c.holdDiscard q) := fun c =>
    ((((hstat c 2).trans (discardWhere hp _ _ _)).trans (hinc _ _)).trans (raise hp _ _ rfl rfl)).trans (journal hp _ _ _ _ _)
  unfold Chan.holdDown
  dsimp only
  have hput : Aside p ch (ch.putPw q { ch.pw q with downAt := ch.ns, holdMs := ch.getF pgAdm (ADM.HOLD_CFG_HOLD_MS q) }) := putPw hp ch rfl
  exact .ite (fun _ => hput.trans (hdiscard _)) (fun _ => ((hput.trans (hstat _ 1)).trans (raise hp _ _ rfl rfl)).trans (journal hp _ _ _ _ _))

end Aside

/-- The port as it goes oper-down: its timers, pauses, frames and control frames end (R216, R217). -/
def Chan.downed (ch : Chan) (q : Nat) : Chan :=
  (ch.putPortF q LINE.PORT_STAT_OPER 0).putPw q { ch.pw q with
    timer := 0, since := 0, pause := [], pauseAt := [], wdAt := (ch.pw q).wdAt.filter (fun e => nbit (ch.pw q).wdIgnore e.1), ctl := [], mac := [],
    txSync := [], downs := (ch.pw q).downs + 1 }

namespace Steady

variable {p : Nat} (hp : p < 64)
include hp

theorem verifyStart (ch : Chan) {q : Nat} (hq : q < 64) : Steady p ch (ch.verifyStart q) := putStat hp ch hq _ rfl (by norm_num) (by norm_num)

theorem portTimer (ch : Chan) {q : Nat} (hq : q < 64) (t : Nat) : Steady p ch (ch.portTimer q t) :=
  (Aside.putPw hp ch (w := { ch.pw q with timer := t, since := if t = 0 then 0 else ch.ns }) rfl).steady.trans
    (putStat hp _ hq _ rfl (by norm_num) (by norm_num))

/-- What follows when a port goes oper-up. -/
theorem operUp (ch : Chan) {q : Nat} (hq : q < 64) : Steady p (ch.putPortF q LINE.PORT_STAT_OPER 1) (ch.operUp q) := by
  have hpfc : ∀ (c : Chan) (l : List Nat) (n : Nat → Nat), Steady p c (c.each l (fun c t => c.sendPfc q t (n t))) := fun c l n =>
    each (f := fun c t => c.sendPfc q t (n t)) l (fun c t _ _ => (Aside.of_tm hp (TmOnly.sendPfc c hq t (n t))).steady) (refl c)
  have htimer := portTimer hp (ch.putPortF q LINE.PORT_STAT_OPER 1) hq 0
  have hlog := fun (c : Chan) (d : Nat) => Aside.steady (((Aside.raise hp c (portPg q) (b := 8) rfl rfl).trans
    (Aside.journal hp _ (portPg q) clsNone 1 d)).trans (Aside.holdUp hp _ hq))
  exact (((htimer.trans (hlog _ _)).trans (verifyStart hp _ hq)).trans (Aside.ptpPortTo _ q 4).steady).trans (hpfc _ _ _)

/-- What follows when a port goes oper-down. -/
theorem operDown (ch : Chan) {q : Nat} (hq : q < 64) (cause : Nat) : Steady p (ch.downed q) (ch.operDown q cause) := by
  have hblk := portBlk_lt q
  have hstat : ∀ c : Chan, Steady p c ((c.putPortF q LINE.PORT_STAT_HOLDING 0).putPortF q LINE.PORT_STAT_RX_PAUSED 0) := fun c =>
    (putStat hp c hq _ rfl (by norm_num) (by norm_num)).trans (putStat hp _ hq _ rfl (by norm_num) (by norm_num))
  have hlog := fun (c : Chan) (n cls d : Nat) => Aside.steady ((((Aside.portInc hp c hq LINE.TX_DOWN_DROP n (by simp only [LINE.TX_DOWN_DROP]; omega)
    (by simp only [LINE.TX_DOWN_DROP]; omega)).trans (Aside.raise hp _ (portPg q) (b := 9) rfl rfl)).trans (Aside.journal hp _ (portPg q) cls 2 d)).trans
    (Aside.holdDown hp _ hq))
  have hrec := fun (c : Chan) (st : Nat) => Aside.steady (((Aside.ptpPortTo (p := p) c q st).trans (Aside.recDown hp _ 0x10 (COSY.SRC_CFG_REC0_PORT) q)).trans
    (Aside.recDown hp _ 0x11 (COSY.SRC_CFG_REC1_PORT) q))
  have hall := (((hstat (ch.downed q)).trans (hlog _ ((ch.pw q).ctl.length + (ch.pw q).mac.length) (if cause = 4 then clsNone else clsDegraded)
    (q + cause * 2 ^ 8))).trans (verifyStart hp _ hq)).trans (hrec _ (if ch.portB q LINE.PORT_CTRL_EN then 2 else 3))
  exact ite (fun _ => hall.trans (Aside.markDef _ q).steady) (fun _ => hall)

/-- What a port settles to leaves the link of another. -/
theorem portSettle_ne (ch : Chan) {q : Nat} (hq : q < 64) (hne : q ≠ p) (cause : Nat) : Steady p ch (ch.portSettle q cause) := by
  have hblk := portBlk_lt q
  have hput : ∀ (c : Chan) (f : Nat → Fld) (v : Nat), (f (portBlk q)).off = LINE.PORT_STAT (portBlk q) → Steady p c (c.putPortF q f v) := fun c f v hf =>
    (Aside.put_port hp c hq (off := (f (portBlk q)).off) _ (by rw [hf, LINE.PORT_STAT]; omega) (by rw [hf, LINE.PORT_STAT]; omega) (.inl hne)).steady
  have hdown : ∀ (c : Chan) (n : Nat), Steady p c (c.operDown q n) := fun c n =>
    ((hput c _ 0 rfl).trans (Aside.putPw_ne _ _ hne).steady).trans (operDown hp c hq n)
  have hup : ∀ c : Chan, Steady p c (c.operUp q) := fun c => (hput c _ 1 rfl).trans (operUp hp c hq)
  have hcnt : ∀ c : Chan, Steady p c (c.portInc q LINE.LINK_DOWN_CNT) := fun c =>
    (Aside.portInc hp c hq LINE.LINK_DOWN_CNT 1 (by simp only [LINE.LINK_DOWN_CNT]; omega) (by simp only [LINE.LINK_DOWN_CNT]; omega)).steady
  have htimer : ∀ (c : Chan) (t : Nat), Steady p c (c.portTimer q t) := fun c t => portTimer hp c hq t
  have hpw : ∀ (c : Chan) (w : PortWork), Steady p c (c.putPw q w) := fun c w => (Aside.putPw_ne c w hne).steady
  have hstart : Steady p ch (if ch.portF q LINE.PORT_STAT_STATE = 3 ∧ ch.portState q ≠ 3 then
      (ch.putPortF q LINE.PORT_STAT_STATE (ch.portState q)).portInc q LINE.LINK_DOWN_CNT else ch.putPortF q LINE.PORT_STAT_STATE (ch.portState q)) :=
    ite (fun _ => (hput ch _ _ rfl).trans (hcnt _)) (fun _ => hput ch _ _ rfl)
  unfold Chan.portSettle
  dsimp only
  exact ite (fun _ => ite (fun _ => hstart.trans (hdown _ _)) (fun _ => ite (fun _ => hstart.trans (hdown _ _)) (fun _ => ite (fun _ => hstart.trans (hdown _ _))
      (fun _ => ite (fun _ => ite (fun _ => hstart.trans (htimer _ _)) (fun _ => hstart)) (fun _ => ite (fun _ => hstart) (fun _ =>
        ite (fun _ => hstart.trans (hdown _ _)) (fun _ => (hstart.trans (hpw _ _)).trans (htimer _ _))))))))
    (fun _ => ite (fun _ => ite (fun _ => hstart) (fun _ => hstart.trans (htimer _ _))) (fun _ => ite (fun _ => hstart.trans (htimer _ _))
      (fun _ => ite (fun _ => hstart.trans (hup _)) (fun _ => hstart))))

end Steady

end Sys2Proof.Machine
end

section
set_option Elab.async false
/-! A port settles, and the FlexE groups that it serves follow (R209, R212, R240, R241). -/

namespace Sys2Proof.Machine

namespace Steady

variable {p : Nat} (hp : p < 64)
include hp

theorem putFlexF (ch : Chan) (f : Fld) (v : Nat) (hlo : 0x100 ≤ f.off) (hhi : f.off < 65536) : Steady p ch (ch.putF pgFlex f v) :=
  (Aside.putFlex hp ch _ hlo hhi).steady

/-- A client follows its group; its port is none of kind LANE. -/
theorem clientSettle {ch : Chan} (hk : ch.portKind p = 1) {n : Nat} (hn : n < 128) : Steady p ch (ch.clientSettle n) := by
  have hoff : 0x100 ≤ (FLEX.CLIENT_STAT_UP n).off ∧ (FLEX.CLIENT_STAT_UP n).off < 65536 := by simp only; omega
  have hstat : ∀ (u mm lf : Bool) (slots : Nat), Steady p ch ((((ch.putB pgFlex (FLEX.CLIENT_STAT_UP n) u).putB pgFlex (FLEX.CLIENT_STAT_LABEL_MM n) mm).putB
      pgFlex (FLEX.CLIENT_STAT_RX_LF n) lf).putF pgFlex (FLEX.CLIENT_STAT_SLOTS n) slots) := fun u mm lf slots =>
    (((putFlexF hp ch (FLEX.CLIENT_STAT_UP n) (b2n u) hoff.1 hoff.2).trans (putFlexF hp _ (FLEX.CLIENT_STAT_LABEL_MM n) (b2n mm) hoff.1 hoff.2)).trans
      (putFlexF hp _ (FLEX.CLIENT_STAT_RX_LF n) (b2n lf) hoff.1 hoff.2)).trans (putFlexF hp _ (FLEX.CLIENT_STAT_SLOTS n) slots hoff.1 hoff.2)
  have hmark : ∀ (c : Chan) (q : Bool), Steady p c (if q then c.markDef (40 + n) else c) := fun c q =>
    ite (fun _ => (Aside.markDef c _).steady) (fun _ => refl c)
  unfold Chan.clientSettle
  dsimp only
  refine ite (fun hq => ?_) (fun _ => (hstat _ _ _ _).trans (hmark _ _))
  refine ((hstat _ _ _ _).trans (hmark _ _)).trans (portSettle_ne hp _ ?_ ?_ _)
  · exact Nat.mod_lt _ (by norm_num)
  · rintro he
    rw [he, hk] at hq
    simp at hq

theorem clientsSettle {ch : Chan} (hk : ch.portKind p = 1) (g : Nat) : Steady p ch (ch.clientsSettle g) :=
  each (f := Chan.clientSettle) _ (fun _ _ hn hc => clientSettle hp (hc.portKind.trans hk) (mem_allBelow_lt hn)) (refl ch)

theorem calFail (ch : Chan) {g : Nat} (hg : g < 8) (last : Nat) : Steady p ch (ch.calFail g last) := by
  have h1 : Steady p ch ((ch.putF pgFlex (FLEX.GRP_STAT_PENDING g) 0).putF pgFlex (FLEX.GRP_STAT_LAST_SWITCH g) last) :=
    (putFlexF hp ch (FLEX.GRP_STAT_PENDING g) 0 (by simp only; omega) (by simp only; omega)).trans
      (putFlexF hp _ (FLEX.GRP_STAT_LAST_SWITCH g) last (by simp only; omega) (by simp only; omega))
  have hgrp : ∀ (c : Chan) (x : FlexGrp), Steady p c (c.putGrp g x) := fun c x => (Aside.of_field (a := c) (b := c.putGrp g x) rfl rfl rfl rfl).steady
  have hwire : ∀ (c : Chan) (l : List Nat), Steady p c (c.emit (.wire 2 l [])) := fun c l => Aside.steady (Spares.emit c rfl)
  have hlog : ∀ (c : Chan) (d : Nat), Steady p c ((c.raise pgFlex 11).journal pgFlex clsContained 4 d) := fun c d =>
    Aside.steady ((Aside.raise hp c pgFlex rfl rfl).trans (Aside.journal hp _ _ _ _ _))
  exact ((h1.trans (hgrp _ _)).trans (hwire _ _)).trans (hlog _ _)

theorem grpTo (ch : Chan) {g : Nat} (hg : g < 8) (st cause : Nat) : Steady p ch (ch.grpTo g st cause) := by
  have h1 : Steady p ch (ch.putF pgFlex (FLEX.GRP_STAT_STATE g) st) := putFlexF hp ch _ _ (by simp only; omega) (by simp only; omega)
  have hlog : ∀ (c : Chan) {b : Nat} (cls ev d : Nat), nbit (2 ^ b) 0 = false → nbit (2 ^ b) 2 = false →
      Steady p c ((c.raise pgFlex b).journal pgFlex cls ev d) := fun c b cls ev d h0 h2 =>
    Aside.steady ((Aside.raise hp c pgFlex h0 h2).trans (Aside.journal hp _ _ _ _ _))
  unfold Chan.grpTo
  dsimp only
  exact ite (fun _ => ite (fun _ => (h1.trans (hlog _ _ _ _ rfl rfl)).trans (calFail hp _ hg 3)) (fun _ => h1.trans (hlog _ _ _ _ rfl rfl)))
    (fun _ => ite (fun _ => h1.trans (hlog _ _ _ _ rfl rfl)) (fun _ => h1))

theorem grpSettle {ch : Chan} (hk : ch.portKind p = 1) {g : Nat} (hg : g < 8) : Steady p ch (ch.grpSettle g) := by
  have hstat : ∀ v, Steady p ch (ch.putF pgFlex (FLEX.GRP_STAT_MEMBERS_UP g) v) := fun v =>
    putFlexF hp ch _ _ (by simp only; omega) (by simp only; omega)
  have hskew : ∀ c : Chan, Steady p c (c.putF pgFlex (FLEX.GRP_STAT_SKEW g) 0) := fun c => putFlexF hp c _ _ (by simp only; omega) (by simp only; omega)
  have hto : ∀ (c : Chan) (st d : Nat), Steady p c (c.grpTo g st d) := fun c st d => grpTo hp c hg st d
  have hmark : ∀ c : Chan, Steady p c (c.markDef (32 + g)) := fun c => (Aside.markDef c _).steady
  have hclients : ∀ {c : Chan}, Steady p ch c → Steady p ch (c.clientsSettle g) := fun h => h.trans (clientsSettle hp (h.portKind.trans hk) g)
  unfold Chan.grpSettle
  dsimp only
  refine hclients ?_
  split
  · exact ((hstat _).trans (hskew _)).trans (hto _ 0 6)
  · exact (((hstat _).trans (hskew _)).trans (hto _ 1 _)).trans (hmark _)
  · exact ite (fun _ => ((hstat _).trans (hto _ 1 5)).trans (hmark _)) (fun _ => ite (fun _ => hstat _) (fun _ => (hstat _).trans (hto _ 2 0)))

/-- The groups of a lane port leave its link. -/
theorem portChanged {ch : Chan} {cause : Nat} (hk : (ch.portSettle p cause).portKind p = 1) : Steady p (ch.portSettle p cause) (ch.portChanged p cause) :=
  each (f := Chan.grpSettle) _ (fun _ _ hg hc => grpSettle hp (hc.portKind.trans hk) (mem_allBelow_lt hg)) (refl _)

end Steady

/-! The port itself. -/

/-- The instances of a port below P32 are LINE pages. -/
theorem Chan.instsOf_lt (ch : Chan) {p : Nat} (hp : p < 32) : ∀ i ∈ ch.instsOf p, i < 16 := fun i hi => by
  simp only [Chan.instsOf] at hi
  split at hi
  · have hlanes : lanesOf (ch.portF p LINE.PORT_CFG_LANES) ≤ 8 := by
      have hfld : ch.portF p LINE.PORT_CFG_LANES < 2 ^ (19 + 1 - 18) := Nat.mod_lt _ (Nat.two_pow_pos _)
      exact (Nat.pow_le_pow_right (by decide) (Nat.le_of_lt_succ hfld)).trans (by decide)
    obtain ⟨k, hk, rfl⟩ := List.mem_map.1 hi
    have hk := List.mem_range.1 hk
    omega
  · have hone := List.mem_singleton.1 hi
    omega

/-- From `a` to `b` the configuration of port `p` and the pages that serve it have stayed. -/
structure Served (p : Nat) (a b : Chan) : Prop where
  ctl : b.get (portPg p) (LINE.PORT_CTRL (portBlk p)) = a.get (portPg p) (LINE.PORT_CTRL (portBlk p))
  cfg : b.get (portPg p) (LINE.PORT_CFG (portBlk p)) = a.get (portPg p) (LINE.PORT_CFG (portBlk p))
  ctrl : ∀ i, i < 16 → b.get (pgLine i) oCTRL = a.get (pgLine i) oCTRL
  reset : b.inReset = a.inReset

namespace Served

variable {p : Nat} {a b c : Chan}

theorem trans (h : Served p a b) (g : Served p b c) : Served p a c where
  ctl := g.ctl.trans h.ctl
  cfg := g.cfg.trans h.cfg
  ctrl i hi := (g.ctrl i hi).trans (h.ctrl i hi)
  reset := g.reset.trans h.reset

theorem putPw (a : Chan) (w : PortWork) : Served p a (a.putPw p w) := ⟨rfl, rfl, fun _ _ => rfl, rfl⟩

/-- A field of PORT_STAT. -/
theorem putStat (hp : p < 64) (ch : Chan) {f : Nat → Fld} (v : Nat) (hf : (f (portBlk p)).off = LINE.PORT_STAT (portBlk p)) :
    Served p ch (ch.putPortF p f v) := by
  have hblk := portBlk_lt p
  obtain ⟨i, hi, hlt⟩ := portPg_page p
  have hi8 := hlt hp
  unfold Chan.putPortF Chan.putF
  rw [hf]
  refine ⟨ch.get_put_ne _ ?_, ch.get_put_ne _ ?_, fun j hj => ch.get_put_ne _ ?_, rfl⟩
  · rw [hi, pgLine_key (by omega), pgLine_key (by omega)]
    simp only [LINE.PORT_CTRL, LINE.PORT_STAT]
    omega
  · rw [hi, pgLine_key (by omega), pgLine_key (by omega)]
    simp only [LINE.PORT_CFG, LINE.PORT_STAT]
    omega
  · rw [hi, pgLine_key hj, pgLine_key (by omega)]
    simp only [LINE.PORT_STAT, oCTRL]
    omega

theorem portF_cfg (h : Served p a b) {f : Nat → Fld} (hf : (f (portBlk p)).off = LINE.PORT_CFG (portBlk p)) : b.portF p f = a.portF p f := by
  rw [Chan.portF, Chan.portF, Chan.getF, Chan.getF, hf, h.cfg]

theorem portKind (h : Served p a b) : b.portKind p = a.portKind p := h.portF_cfg rfl

theorem instsOf (h : Served p a b) : b.instsOf p = a.instsOf p := by
  simp only [Chan.instsOf]
  rw [h.portKind, h.portF_cfg (f := LINE.PORT_CFG_LANES) rfl]

/-- A bit of PAGE_CTRL on every page of a lane port. -/
theorem getB_ctrl (hp : p < 32) (h : Served p a b) {f : Fld} (hf : f.off = oCTRL) : ∀ i ∈ a.instsOf p, b.getB (pgLine i) f = a.getB (pgLine i) f := fun i hi => by
  rw [Chan.getB, Chan.getB, Chan.getF, Chan.getF, hf, h.ctrl i (a.instsOf_lt hp i hi)]

/-- A lane port that the link leaves has its instances where they were. -/
theorem instsOn (hp : p < 32) (h : Served p a b) : b.instsOn p = a.instsOn p := by
  unfold Chan.instsOn
  rw [h.instsOf, Bool.eq_iff_iff, List.all_eq_true, List.all_eq_true]
  refine forall₂_congr (fun i hi => ?_)
  rw [Chan.enabled, Chan.enabled, h.getB_ctrl hp rfl i hi, h.reset]

theorem takeover (hp : p < 32) (h : Served p a b) : b.takeover p = a.takeover p := by
  unfold Chan.takeover
  rw [h.instsOf, Bool.eq_iff_iff, List.all_eq_true, List.all_eq_true]
  exact forall₂_congr (fun i hi => by rw [h.getB_ctrl hp rfl i hi])

end Served

/-- From `a` to `b` what STATE of port `p` depends on has stayed (R209), and STATE. -/
structure Linked (p : Nat) (a b : Chan) : Prop where
  served : Served p a b
  faults : fld (b.get (portPg p) (LINE.PORT_STAT (portBlk p))) 27 26 = fld (a.get (portPg p) (LINE.PORT_STAT (portBlk p))) 27 26
  state : fld (b.get (portPg p) (LINE.PORT_STAT (portBlk p))) 31 29 = fld (a.get (portPg p) (LINE.PORT_STAT (portBlk p))) 31 29
  link : ((b.pw p).op, (b.pw p).aligned, (b.pw p).training, (b.pw p).retry) = ((a.pw p).op, (a.pw p).aligned, (a.pw p).training, (a.pw p).retry)
  outs : NoFatal a.outQ → NoFatal b.outQ

theorem Steady.linked {p : Nat} {a b : Chan} (h : Steady p a b) : Linked p a b where
  served := ⟨h.ctl, h.cfg, h.ctrl, h.reset⟩
  faults := fld_within h.stat (by decide) (by decide)
  state := fld_within h.stat (by decide) (by decide)
  link := by
    have hcore := congrArg (fun w : PortWork => (w.op, w.aligned, w.training, w.retry)) h.core
    exact hcore
  outs := h.outs

namespace Linked

variable {p : Nat} {a b c : Chan}

theorem trans (h : Linked p a b) (g : Linked p b c) : Linked p a c where
  served := h.served.trans g.served
  faults := g.faults.trans h.faults
  state := g.state.trans h.state
  link := g.link.trans h.link
  outs := g.outs ∘ h.outs

theorem ite {q : Prop} [Decidable q] {x y : Chan} (hx : q → Linked p a x) (hy : ¬ q → Linked p a y) : Linked p a (if q then x else y) := by
  split
  · exact hx ‹_›
  · exact hy ‹_›

/-- OPER of the port changes. -/
theorem putOper (hp : p < 64) (ch : Chan) (v : Nat) : Linked p ch (ch.putPortF p LINE.PORT_STAT_OPER v) := by
  refine ⟨.putStat hp ch v rfl, ?_, ?_, rfl, id⟩
  · rw [Chan.putPortF, Chan.putF, Chan.get_put_same]
    exact fld_setFld_ne _ _ _ _ _ _ le_rfl (by decide) (.inr (by norm_num))
  · rw [Chan.putPortF, Chan.putF, Chan.get_put_same]
    exact fld_setFld_ne _ _ _ _ _ _ le_rfl (by decide) (.inl (by norm_num))

/-- The port goes oper-down. -/
theorem downed (hp : p < 64) (ch : Chan) : Linked p ch (ch.downed p) := by
  have h := putOper hp ch 0
  refine ⟨h.served.trans (.putPw _ _), h.faults, h.state, ?_, h.outs⟩
  rw [Chan.pw, show (ch.downed p).ports = tput {} ch.ports p _ from rfl, tget_tput_same]

theorem portF_state (h : Linked p a b) : b.portF p LINE.PORT_STAT_STATE = a.portF p LINE.PORT_STAT_STATE := h.state

theorem localFault (h : Linked p a b) : b.portB p LINE.PORT_STAT_LOCAL_FAULT = a.portB p LINE.PORT_STAT_LOCAL_FAULT :=
  Steady.portB _ (fld_within h.faults (by norm_num) (by norm_num))

theorem remoteFault (h : Linked p a b) : b.portB p LINE.PORT_STAT_REMOTE_FAULT = a.portB p LINE.PORT_STAT_REMOTE_FAULT :=
  Steady.portB _ (fld_within h.faults (by norm_num) (by norm_num))

/-- STATE would be what it was (R209). -/
theorem portState (hp : p < 32) (hk : a.portKind p = 1) (h : Linked p a b) : b.portState p = a.portState p := by
  obtain ⟨hop, hrest⟩ := Prod.mk.inj h.link
  obtain ⟨halign, hrest⟩ := Prod.mk.inj hrest
  have htrain := (Prod.mk.inj hrest).1
  have htest : (b.pw p).testing = (a.pw p).testing := by
    rw [PortWork.testing, PortWork.testing, hop]
  have han : b.portB p LINE.PORT_CFG_AN_EN = a.portB p LINE.PORT_CFG_AN_EN := Steady.portB _ (h.served.portF_cfg rfl)
  have hlt : b.portB p LINE.PORT_CFG_LT_EN = a.portB p LINE.PORT_CFG_LT_EN := Steady.portB _ (h.served.portF_cfg rfl)
  simp only [Chan.portState]
  rw [htest, halign, htrain, h.served.portKind, hk, h.served.instsOn hp, han, hlt, h.localFault, h.remoteFault]
  simp

/-- STATE and the oper-up status follow the causes (R209): the link stands but for STATE. -/
theorem portSettle (hp : p < 64) (ch : Chan) (cause : Nat) :
    Linked p (ch.putPortF p LINE.PORT_STAT_STATE (ch.portState p)) (ch.portSettle p cause) := by
  have hblk := portBlk_lt p
  have hdown : ∀ (c : Chan) (n : Nat), Linked p c (c.operDown p n) := fun c n => (downed hp c).trans (Steady.operDown hp c hp n).linked
  have hup : ∀ c : Chan, Linked p c (c.operUp p) := fun c => (putOper hp c 1).trans (Steady.operUp hp c hp).linked
  have hcnt : ∀ c : Chan, Linked p c (c.portInc p LINE.LINK_DOWN_CNT) := fun c => Steady.linked (Aside.steady
    (Aside.portInc hp c hp LINE.LINK_DOWN_CNT 1 (by simp only [LINE.LINK_DOWN_CNT]; omega) (by simp only [LINE.LINK_DOWN_CNT]; omega)))
  have htimer : ∀ (c : Chan) (t : Nat), Linked p c (c.portTimer p t) := fun c t => (Steady.portTimer hp c hp t).linked
  have hrefl : ∀ c : Chan, Linked p c c := fun c => (Steady.refl c).linked
  have hcause : ∀ c : Chan, c.pw p = ch.pw p → Linked p c (c.putPw p { ch.pw p with cause := cause }) := fun c hc =>
    Steady.linked (Aside.steady (Aside.putPw hp c (by rw [hc]; rfl)))
  have hstart : Linked p (ch.putPortF p LINE.PORT_STAT_STATE (ch.portState p)) (if ch.portF p LINE.PORT_STAT_STATE = 3 ∧ ch.portState p ≠ 3 then
      (ch.putPortF p LINE.PORT_STAT_STATE (ch.portState p)).portInc p LINE.LINK_DOWN_CNT else ch.putPortF p LINE.PORT_STAT_STATE (ch.portState p)) :=
    ite (fun _ => hcnt _) (fun _ => hrefl _)
  have hpw : (if ch.portF p LINE.PORT_STAT_STATE = 3 ∧ ch.portState p ≠ 3 then
      (ch.putPortF p LINE.PORT_STAT_STATE (ch.portState p)).portInc p LINE.LINK_DOWN_CNT
      else ch.putPortF p LINE.PORT_STAT_STATE (ch.portState p)).pw p = ch.pw p := by
    split <;> rfl
  unfold Chan.portSettle
  dsimp only
  exact ite (fun _ => ite (fun _ => hstart.trans (hdown _ _)) (fun _ => ite (fun _ => hstart.trans (hdown _ _)) (fun _ => ite (fun _ => hstart.trans (hdown _ _))
      (fun _ => ite (fun _ => ite (fun _ => hstart.trans (htimer _ _)) (fun _ => hstart)) (fun _ => ite (fun _ => hstart) (fun _ =>
        ite (fun _ => hstart.trans (hdown _ _)) (fun _ => (hstart.trans (hcause _ hpw)).trans (htimer _ _))))))))
    (fun _ => ite (fun _ => ite (fun _ => hstart) (fun _ => hstart.trans (htimer _ _))) (fun _ => ite (fun _ => hstart.trans (htimer _ _))
      (fun _ => ite (fun _ => hstart.trans (hup _)) (fun _ => hstart))))

end Linked

/-- STATE is written: the rest of the link stays. -/
structure Stated (p : Nat) (a b : Chan) : Prop where
  cfg : b.portKind p = a.portKind p
  low : fld (b.get (portPg p) (LINE.PORT_STAT (portBlk p))) 28 26 = fld (a.get (portPg p) (LINE.PORT_STAT (portBlk p))) 28 26
  state : b.portF p LINE.PORT_STAT_STATE = a.portState p

theorem Chan.portState_le (ch : Chan) (p : Nat) : ch.portState p ≤ 4 := by
  simp only [Chan.portState]
  split_ifs <;> decide

theorem Chan.putState (ch : Chan) {p : Nat} (hp : p < 64) : Stated p ch (ch.putPortF p LINE.PORT_STAT_STATE (ch.portState p)) := by
  have hblk := portBlk_lt p
  obtain ⟨i, hi, hlt⟩ := portPg_page p
  have hi8 := hlt hp
  refine ⟨?_, ?_, ?_⟩
  · refine ch.getF_putF_ne _ ?_
    rw [hi, pgLine_key (by omega), pgLine_key (by omega)]
    simp only
    omega
  · rw [Chan.putPortF, Chan.putF, Chan.get_put_same]
    exact fld_setFld_ne _ _ _ _ _ _ (by norm_num) (by decide) (.inr (by norm_num))
  · rw [Chan.portF, Chan.putPortF, Chan.getF_putF_same _ _ _ _ (by norm_num) (by norm_num)]
    have hle := ch.portState_le p
    norm_num
    omega

section
variable {ch : Chan} {p : Nat} (hp : p < 64) (hk : ch.portKind p = 1) (cause : Nat)
include hp hk

/-- What a change of a lane port's causes leaves of its link (R209). -/
theorem Chan.portChanged_linked : Linked p (ch.putPortF p LINE.PORT_STAT_STATE (ch.portState p)) (ch.portChanged p cause) := by
  have h := Linked.portSettle hp ch cause
  exact h.trans (Steady.portChanged hp (h.served.portKind.trans ((ch.putState hp).cfg.trans hk))).linked

theorem Chan.portChanged_state : (ch.portChanged p cause).portF p LINE.PORT_STAT_STATE = ch.portState p :=
  (Chan.portChanged_linked hp hk cause).portF_state.trans (ch.putState hp).state

theorem Chan.portChanged_faults : (ch.portChanged p cause).portB p LINE.PORT_STAT_LOCAL_FAULT = ch.portB p LINE.PORT_STAT_LOCAL_FAULT ∧
    (ch.portChanged p cause).portB p LINE.PORT_STAT_REMOTE_FAULT = ch.portB p LINE.PORT_STAT_REMOTE_FAULT := by
  have h := Chan.portChanged_linked hp hk cause
  have hlow := (ch.putState hp).low
  exact ⟨h.localFault.trans (Steady.portB _ (fld_within hlow (by norm_num) (by norm_num))),
    h.remoteFault.trans (Steady.portB _ (fld_within hlow (by norm_num) (by norm_num)))⟩

theorem Chan.portChanged_link : (((ch.portChanged p cause).pw p).op, ((ch.portChanged p cause).pw p).aligned, ((ch.portChanged p cause).pw p).training,
    ((ch.portChanged p cause).pw p).retry) = ((ch.pw p).op, (ch.pw p).aligned, (ch.pw p).training, (ch.pw p).retry) :=
  (Chan.portChanged_linked hp hk cause).link

theorem Chan.portChanged_noFatal (h : NoFatal ch.outQ) : NoFatal (ch.portChanged p cause).outQ := (Chan.portChanged_linked hp hk cause).outs h

/-- A port that is oper-down and not UP stays down. -/
theorem Chan.portChanged_down (ho : ch.oper p = false) (hst : ch.portState p ≠ 3) :
    (ch.portChanged p cause).oper p = false ∧ ((ch.portChanged p cause).pw p).mac = (ch.pw p).mac := by
  have hblk := portBlk_lt p
  have hcnt : Steady p (ch.putPortF p LINE.PORT_STAT_STATE (ch.portState p)) (if ch.portF p LINE.PORT_STAT_STATE = 3 ∧ ch.portState p ≠ 3 then
      (ch.putPortF p LINE.PORT_STAT_STATE (ch.portState p)).portInc p LINE.LINK_DOWN_CNT else ch.putPortF p LINE.PORT_STAT_STATE (ch.portState p)) :=
    .ite (fun _ => Aside.steady (Aside.portInc hp _ hp LINE.LINK_DOWN_CNT 1 (by simp only [LINE.LINK_DOWN_CNT]; omega)
      (by simp only [LINE.LINK_DOWN_CNT]; omega))) (fun _ => .refl _)
  have hsettle : Steady p (ch.putPortF p LINE.PORT_STAT_STATE (ch.portState p)) (ch.portSettle p cause) := by
    unfold Chan.portSettle
    dsimp only
    rw [ho, if_neg Bool.false_ne_true, if_pos hst]
    exact .ite (fun _ => hcnt) (fun _ => hcnt.trans (.portTimer hp _ hp 0))
  have hall := hsettle.trans (.portChanged hp (hsettle.portKind.trans ((ch.putState hp).cfg.trans hk)))
  have hoper : (ch.putPortF p LINE.PORT_STAT_STATE (ch.portState p)).portF p LINE.PORT_STAT_OPER = ch.portF p LINE.PORT_STAT_OPER :=
    fld_within (ch.putState hp).low (by norm_num) (by norm_num)
  refine ⟨hall.oper.trans ((Steady.portB LINE.PORT_STAT_OPER hoper).trans ho), ?_⟩
  have hmac : ∀ w : PortWork, w.core.mac = w.mac := fun _ => rfl
  rw [← hmac, hall.core, hmac]
  rfl

/-- A port that is UP and held by nothing goes oper-up. -/
theorem Chan.portChanged_up (ho : ch.oper p = false) (hst : ch.portState p = 3) (hwas : ch.portF p LINE.PORT_STAT_STATE = 3)
    (htimer : (ch.pw p).timer = 0) (hen : ch.portB p LINE.PORT_CTRL_EN = true) (hinsts : ch.instsOn p = true) : (ch.portChanged p cause).oper p = true := by
  have hsettle : ch.portSettle p cause = (ch.putPortF p LINE.PORT_STAT_STATE (ch.portState p)).operUp p := by
    simp only [Chan.portSettle]
    rw [ho, if_neg Bool.false_ne_true, hwas, hst, htimer, hen, hinsts]
    simp
  have hup := Steady.operUp hp (ch.putPortF p LINE.PORT_STAT_STATE (ch.portState p)) hp
  have hlinked := Linked.portSettle hp ch cause
  have hgroups := Steady.portChanged hp (cause := cause) (hlinked.served.portKind.trans ((ch.putState hp).cfg.trans hk))
  rw [hgroups.oper, hsettle, hup.oper, Chan.oper, Chan.portB, Chan.portF, Chan.putPortF, Chan.getF_putF_same _ _ _ _ le_rfl (by norm_num)]
  rfl

end

end Sys2Proof.Machine
end

section
set_option Elab.async false
/-! Training, faults and the hold timers of a lane port (R209, R210, R212). -/

namespace Sys2Proof.Machine

theorem Aside.of_calm {p : Nat} (hp : p < 64) {a b : Chan} (h : Calm a b) : Aside p a b :=
  (h.spares (fun key hk hm => Aside.not_journal hp key hk (by simpa using hm))).strips (linkStrip p) (fun _ => rfl)

theorem Aside.of_ticks {p : Nat} (hp : p < 64) {a b : Chan} (h : Ticks a b) : Aside p a b where
  work := by
    have hwork := congrArg (linkStrip p) h.work
    exact hwork
  regs key hk := by
    refine h.regs key (fun hc => ?_)
    obtain ⟨i, o, hi, rfl, ho, hform⟩ := linkKey_form hp hk
    rcases hc with ⟨-, hreg⟩ | ⟨g, hg, he⟩
    · simp only [CountReg, oCAUSE, oFIRST, oOVF] at hreg
      simp only [LINE.PORT_CFG, LINE.PORT_STAT, LINE.PORT_CTRL] at hform
      omega
    · simp only [SLOT.IDLE_BLK, Pg.key] at he
      norm_num at he
      omega
  outs := h.noFatal

theorem Chan.isLanePort_iff (ch : Chan) (p : Nat) : ch.isLanePort p = true ↔ p < 32 ∧ ch.portKind p = 1 := by
  simp [Chan.isLanePort]

/-- The lanes of a port carry signal: no link is written. -/
theorem Aside.laneSignals {p : Nat} (hp : p < 32) (ch : Chan) : Aside p ch (ch.each (ch.lanesOfPort p) Chan.laneSignal) := by
  refine List.foldlRecOn (motive := fun d => Aside p ch d) _ Chan.laneSignal (.refl ch) (fun d hd l hl => hd.trans (.put _ _ _ _ (fun hk => ?_)))
  have hlt : l < 40 := by
    unfold Chan.lanesOfPort at hl
    split at hl
    · have hlanes : lanesOf (ch.portF p LINE.PORT_CFG_LANES) ≤ 8 := by
        have hfld : ch.portF p LINE.PORT_CFG_LANES < 2 ^ (19 + 1 - 18) := Nat.mod_lt _ (Nat.two_pow_pos _)
        exact (Nat.pow_le_pow_right (by decide) (Nat.le_of_lt_succ hfld)).trans (by decide)
      obtain ⟨k, hmem, rfl⟩ := List.mem_map.1 hl
      have hmem := List.mem_range.1 hmem
      omega
    · cases hl
  obtain ⟨i, o, hi, he, ho, hform⟩ := linkKey_form (by omega) hk
  rw [pgLine_key (by omega)] at he
  simp only [LINE.PORT_CFG, LINE.PORT_STAT, LINE.PORT_CTRL] at hform
  simp only [LINE.LANE_STAT] at he
  omega

/-- A field of PORT_STAT that another write leaves. -/
theorem Chan.portF_putStat (ch : Chan) (p : Nat) {f g : Nat → Fld} (v : Nat) (hf : (f (portBlk p)).off = (g (portBlk p)).off)
    (hl : (f (portBlk p)).lo ≤ (f (portBlk p)).hi) (h32 : (g (portBlk p)).hi < 32)
    (hd : (f (portBlk p)).hi < (g (portBlk p)).lo ∨ (g (portBlk p)).hi < (f (portBlk p)).lo) : (ch.putPortF p f v).portF p g = ch.portF p g := by
  rw [Chan.portF, Chan.portF, Chan.putPortF, Chan.getF, Chan.putF, hf, Chan.get_put_same]
  exact fld_setFld_ne _ _ _ _ _ _ hl h32 hd

theorem Chan.portF_put_same (ch : Chan) (p : Nat) {f : Nat → Fld} (v : Nat) (hl : (f (portBlk p)).lo ≤ (f (portBlk p)).hi) (h32 : (f (portBlk p)).hi < 32) :
    (ch.putPortF p f v).portF p f = v % 2 ^ ((f (portBlk p)).hi + 1 - (f (portBlk p)).lo) := Chan.getF_putF_same _ _ _ _ hl h32

/-- A port that has waited trains again (R210). -/
def Chan.triedAgain (ch : Chan) (p : Nat) : Chan := ch.putPw p { ch.pw p with retry := false, training := true }

theorem exec_ltRetry {s : State} {c : Fin 4} {p : Nat} (hlane : (s.chan c).isLanePort p = true) (hretry : ((s.chan c).pw p).retry = true) :
    ∃ f x, Ticks (s.chan c) x ∧ f (s.chan c) = (x.triedAgain p).portChanged p 1 ∧ exec (.ltRetry c p) s = .next (s.onLive c f) :=
  ⟨_, _, Ticks.runTo _ _, if_pos (by rw [hlane, hretry]; rfl), rfl⟩

/-- Neither fault stands. -/
def Chan.faultless (ch : Chan) (p : Nat) : Chan := (ch.putPortF p LINE.PORT_STAT_LOCAL_FAULT 0).putPortF p LINE.PORT_STAT_REMOTE_FAULT 0

theorem Chan.faultless_faults (ch : Chan) (p : Nat) : (ch.faultless p).portB p LINE.PORT_STAT_LOCAL_FAULT = false ∧
    (ch.faultless p).portB p LINE.PORT_STAT_REMOTE_FAULT = false := by
  have hlf : (ch.faultless p).portF p LINE.PORT_STAT_LOCAL_FAULT = 0 :=
    (Chan.portF_putStat (f := LINE.PORT_STAT_REMOTE_FAULT) (g := LINE.PORT_STAT_LOCAL_FAULT) _ p 0 rfl (by norm_num) (by norm_num) (by norm_num)).trans
      ((Chan.portF_put_same (f := LINE.PORT_STAT_LOCAL_FAULT) ch p 0 (by norm_num) (by norm_num)).trans (Nat.zero_mod _))
  have hrf : (ch.faultless p).portF p LINE.PORT_STAT_REMOTE_FAULT = 0 :=
    (Chan.portF_put_same (f := LINE.PORT_STAT_REMOTE_FAULT) _ p 0 (by norm_num) (by norm_num)).trans (Nat.zero_mod _)
  rw [Chan.portB, Chan.portB, hlf, hrf]
  exact ⟨rfl, rfl⟩

/-- The port after its training (R209). -/
def Chan.trained (ch : Chan) (p : Nat) : Chan :=
  ((ch.each (ch.lanesOfPort p) Chan.laneSignal).takeFree.putPw p
    { (ch.each (ch.lanesOfPort p) Chan.laneSignal).pw p with
      aligned := true, training := false, retry := false, rxAdj := (ch.each (ch.lanesOfPort p) Chan.laneSignal).freeVal 32 }).faultless p

section
variable {ch : Chan} {p : Nat} (hp : p < 32)
include hp

theorem Chan.trained_served : Served p ch (ch.trained p) := by
  have hlanes : Served p ch (ch.each (ch.lanesOfPort p) Chan.laneSignal) := (Aside.laneSignals hp ch).steady.linked.served
  have hfree : ∀ c : Chan, Served p c c.takeFree := fun c => ⟨rfl, rfl, fun _ _ => rfl, rfl⟩
  have hfaults : ∀ c : Chan, Served p c (c.faultless p) := fun c => (Served.putStat (by omega) c 0 rfl).trans (Served.putStat (by omega) _ 0 rfl)
  exact ((hlanes.trans (hfree _)).trans (.putPw _ _)).trans (hfaults _)

theorem Chan.trained_pw : ((ch.trained p).pw p).aligned = true ∧ ((ch.trained p).pw p).op = (ch.pw p).op := by
  have hcore := congrArg PortWork.op (Aside.laneSignals hp ch).core
  have hop : ((ch.each (ch.lanesOfPort p) Chan.laneSignal).pw p).op = (ch.pw p).op := hcore
  rw [Chan.pw, show (ch.trained p).ports = tput {} _ p _ from rfl, tget_tput_same]
  exact ⟨rfl, hop⟩

/-- A trained port is UP. -/
theorem Chan.trained_state (hk : ch.portKind p = 1) (hop : (ch.pw p).op = 0) (hinsts : ch.instsOn p = true) : (ch.trained p).portState p = 3 := by
  have hserved := Chan.trained_served (ch := ch) hp
  obtain ⟨halign, hop'⟩ := Chan.trained_pw (ch := ch) hp
  have hfaults : (ch.trained p).portB p LINE.PORT_STAT_LOCAL_FAULT = false ∧ (ch.trained p).portB p LINE.PORT_STAT_REMOTE_FAULT = false :=
    Chan.faultless_faults _ p
  have htest : ((ch.trained p).pw p).testing = false := by
    rw [PortWork.testing, hop', hop]
    rfl
  simp only [Chan.portState]
  rw [htest, halign, hserved.portKind, hk, hserved.instsOn hp, hinsts, hfaults.1, hfaults.2]
  simp

end

end Sys2Proof.Machine

namespace Sys2Proof.Proofs

open Sys2Proof Sys2Proof.Machine

/-- An event of a port, whose link the module shows. -/
theorem completes_link {i : Instr} {s : State} {c : Fin 4} {f : Chan → Chan} {p : Nat} {P : State → Prop} (hr : Ready s c) (hp : p < 64)
    (hi : exec i s = .next (s.onLive c f)) (ho : NoFatal (f (s.chan c)).outQ) (hP : ∀ u : State, Aside p (f (s.chan c)) (u.chan c) → P u) :
    Completes i s P := ⟨_, hi, hP _ (Aside.of_calm hp (by rw [State.onLive_of_ready hr]; exact State.runChan_calm ho))⟩

section
variable {i : Instr} {s : State} {c : Fin 4} {f : Chan → Chan} {p cause : Nat} {d : Chan} {P : State → Prop} (hr : Ready s c) (hp : p < 64)
  (hi : exec i s = .next (s.onLive c f)) (hf : f (s.chan c) = d.portChanged p cause) (hk : d.portKind p = 1) (ho : NoFatal d.outQ)
include hr hp hi hf hk ho

/-- An event after which a lane port's causes have changed: its STATE, its faults and its link. -/
theorem completes_changed (hP : ∀ u : State, (u.chan c).portF p LINE.PORT_STAT_STATE = d.portState p →
    (u.chan c).portB p LINE.PORT_STAT_LOCAL_FAULT = d.portB p LINE.PORT_STAT_LOCAL_FAULT →
    (u.chan c).portB p LINE.PORT_STAT_REMOTE_FAULT = d.portB p LINE.PORT_STAT_REMOTE_FAULT →
    (((u.chan c).pw p).op, ((u.chan c).pw p).aligned, ((u.chan c).pw p).training, ((u.chan c).pw p).retry) =
      ((d.pw p).op, (d.pw p).aligned, (d.pw p).training, (d.pw p).retry) → P u) : Completes i s P := by
  refine completes_link hr hp hi (by rw [hf]; exact Chan.portChanged_noFatal hp hk cause ho) (fun u hu => ?_)
  rw [hf] at hu
  have hl := hu.steady.linked
  obtain ⟨hlf, hrf⟩ := Chan.portChanged_faults hp hk cause
  exact hP u (hl.portF_state.trans (Chan.portChanged_state hp hk cause)) (hl.localFault.trans hlf) (hl.remoteFault.trans hrf)
    (hl.link.trans (Chan.portChanged_link hp hk cause))

/-- An event after which a lane port's causes have changed: its oper-up status and its frames. -/
theorem completes_oper (hP : ∀ u : State, (u.chan c).oper p = (d.portChanged p cause).oper p →
    ((u.chan c).pw p).mac = ((d.portChanged p cause).pw p).mac → P u) : Completes i s P := by
  refine completes_link hr hp hi (by rw [hf]; exact Chan.portChanged_noFatal hp hk cause ho) (fun u hu => ?_)
  rw [hf] at hu
  have hmac : ∀ w : PortWork, w.core.mac = w.mac := fun _ => rfl
  exact hP u hu.steady.oper (by rw [← hmac, hu.core, hmac])

end

/-- Settles O34 (R209, R210, R212). -/
theorem linkTrainingAndFaults : Obligations.LinkTrainingAndFaults := by
  refine ⟨fun s c p lane hr hlane => ?_, fun s c p lane hr hlane => ?_⟩
  · obtain ⟨hp, hk⟩ := (Chan.isLanePort_iff _ _).1 hlane
    have hp64 : p < 64 := by omega
    have hplain := noFatal_of_nil hr.2
    refine ⟨fun hop hinsts => ?_, fun htrain halign hneg => ?_, fun hretry => ?_⟩
    · obtain ⟨f, hf, hexec⟩ : ∃ f, f (s.chan c) = ((s.chan c).trained p).portChanged p 1 ∧ exec (.linkTrained c p) s = .next (s.onLive c f) :=
        ⟨_, if_pos (by simp [hlane, hop, hinsts]), rfl⟩
      refine completes_changed hr hp64 hexec hf ((Chan.trained_served hp).portKind.trans hk) ((Aside.laneSignals hp _).outs hplain)
        (fun u hstate _ _ hlink => ⟨?_, hstate.trans (Chan.trained_state hp hk hop hinsts)⟩)
      exact (Prod.mk.inj (Prod.mk.inj hlink).2).1.trans (Chan.trained_pw hp).1
    · obtain ⟨f, hf, hexec⟩ : ∃ f, f (s.chan c) = ((((s.chan c).putPw p { (s.chan c).pw p with
            training := false, retry := true, retryAt := (s.chan c).ns }).raise (portPg p) 10).journal (portPg p) clsContained 3
              (p + lane % 32 * 2 ^ 8)).portChanged p 1 ∧ exec (.ltFail c p lane) s = .next (s.onLive c f) :=
        ⟨_, if_pos (by simp [hlane, htrain, halign, hneg]), rfl⟩
      have haside : Aside p ((s.chan c).putPw p { (s.chan c).pw p with training := false, retry := true, retryAt := (s.chan c).ns }) _ :=
        (Aside.raise hp64 _ (portPg p) (b := 10) rfl rfl).trans (Aside.journal hp64 _ (portPg p) clsContained 3 (p + lane % 32 * 2 ^ 8))
      have hlinked := haside.steady.linked
      refine completes_changed hr hp64 hexec hf (hlinked.served.portKind.trans hk) (haside.outs hplain) (fun u _ _ _ hlink => ?_)
      have hpw := hlink.trans hlinked.link
      rw [Chan.pw_putPw_same] at hpw
      simp only [Prod.mk.injEq] at hpw
      obtain ⟨-, -, htrain', hretry'⟩ := hpw
      exact ⟨hretry', htrain'⟩
    · obtain ⟨f, x, hticks, hf, hexec⟩ := exec_ltRetry hlane hretry
      have haside := Aside.of_ticks hp64 hticks
      have hkind : (x.triedAgain p).portKind p = 1 := haside.steady.portKind.trans hk
      refine completes_changed hr hp64 hexec hf hkind (haside.outs hplain) (fun u _ _ _ hlink => ?_)
      rw [Chan.triedAgain, Chan.pw_putPw_same] at hlink
      simp only [Prod.mk.injEq] at hlink
      obtain ⟨-, -, htrain', hretry'⟩ := hlink
      exact ⟨hretry', htrain'⟩
  · obtain ⟨hp, hk⟩ := (Chan.isLanePort_iff _ _).1 hlane
    have hp64 : p < 64 := by omega
    have hplain := noFatal_of_nil hr.2
    have hblk := portBlk_lt p
    have hstat : ∀ (g : Nat → Fld) (v : Nat), (g (portBlk p)).off = LINE.PORT_STAT (portBlk p) → ((s.chan c).putPortF p g v).portKind p = 1 :=
      fun g v hg => (Served.putStat hp64 _ v hg).portKind.trans hk
    have hfault : ∀ (g : Nat → Fld) (v : Nat), (g (portBlk p)).lo = (g (portBlk p)).hi → (g (portBlk p)).hi < 32 →
        ((s.chan c).putPortF p g v).portB p g = decide (v % 2 ≠ 0) := fun g v hl h32 => by
      rw [Chan.portB, Chan.portF_put_same _ _ _ hl.le h32, hl, Nat.add_sub_cancel_left, pow_one]
    refine ⟨?_, ?_, ?_, ?_, fun htimer hoper hst => ?_, fun htimer hoper hst hwas hen hinsts => ?_⟩
    · obtain ⟨f, hf, hexec⟩ : ∃ f, f (s.chan c) = ((s.chan c).putPw p { (s.chan c).pw p with aligned := false, training := false }).portChanged p 1 ∧
          exec (.portFault c p lane 1) s = .next (s.onLive c f) := ⟨_, if_pos (by simp [hlane]), rfl⟩
      refine completes_changed hr hp64 hexec hf hk hplain (fun u _ _ _ hlink => ?_)
      rw [Chan.pw_putPw_same] at hlink
      simp only [Prod.mk.injEq] at hlink
      exact hlink.2.1
    · obtain ⟨f, hf, hexec⟩ : ∃ f, f (s.chan c) = ((s.chan c).putPortF p LINE.PORT_STAT_LOCAL_FAULT 1).portChanged p 2 ∧
          exec (.portFault c p lane 2) s = .next (s.onLive c f) := ⟨_, if_pos (by simp [hlane]), rfl⟩
      exact completes_changed hr hp64 hexec hf (hstat _ _ rfl) hplain (fun u _ hlf _ _ => hlf.trans (hfault _ 1 rfl (by norm_num)))
    · obtain ⟨f, hf, hexec⟩ : ∃ f, f (s.chan c) = ((s.chan c).putPortF p LINE.PORT_STAT_LOCAL_FAULT 0).portChanged p 2 ∧
          exec (.portFaultClear c p 2) s = .next (s.onLive c f) := ⟨_, if_pos (by simp [hlane]), rfl⟩
      exact completes_changed hr hp64 hexec hf (hstat _ _ rfl) hplain (fun u _ hlf _ _ => hlf.trans (hfault _ 0 rfl (by norm_num)))
    · obtain ⟨f, hf, hexec⟩ : ∃ f, f (s.chan c) = ((s.chan c).putPortF p LINE.PORT_STAT_REMOTE_FAULT 0).portChanged p 3 ∧
          exec (.portFaultClear c p 3) s = .next (s.onLive c f) := ⟨_, if_pos (by simp [hlane]), rfl⟩
      exact completes_changed hr hp64 hexec hf (hstat _ _ rfl) hplain (fun u _ _ hrf _ => hrf.trans (hfault _ 0 rfl (by norm_num)))
    · obtain ⟨x, hx⟩ : ∃ x, x = (s.chan c).runTo (((s.chan c).pw p).since + (s.chan c).portF p LINE.PORT_TIMERS_DOWN_HOLD * 1000000) := ⟨_, rfl⟩
      obtain ⟨f, hf, hexec⟩ : ∃ f, f (s.chan c) = (x.operDown p ((s.chan c).pw p).cause).portChanged p ((s.chan c).pw p).cause ∧
          exec (.downHoldExpiry c p) s = .next (s.onLive c f) := ⟨_, (if_pos (by simp [hlane, htimer, hoper])).trans (by rw [hx]), rfl⟩
      have hticks : Aside p (s.chan c) x := by
        rw [hx]
        exact Aside.of_ticks hp64 (Ticks.runTo _ _)
      have hrest := Steady.operDown hp64 x hp64 ((s.chan c).pw p).cause
      have hlinked := hticks.steady.linked.trans ((Linked.downed hp64 x).trans hrest.linked)
      have hkind := hlinked.served.portKind.trans hk
      have hdown : (x.downed p).oper p = false := by
        rw [Chan.oper, Chan.portB, show (x.downed p).portF p LINE.PORT_STAT_OPER = (x.putPortF p LINE.PORT_STAT_OPER 0).portF p LINE.PORT_STAT_OPER from rfl,
          Chan.portF_put_same _ _ _ le_rfl (by norm_num)]
        rfl
      obtain ⟨hoper', hmac'⟩ := Chan.portChanged_down hp64 hkind ((s.chan c).pw p).cause (hrest.oper.trans hdown)
        (by rw [hlinked.portState hp hk]; exact hst)
      refine completes_oper hr hp64 hexec hf hkind (hlinked.outs hplain) (fun u hu hmac => ⟨hu.trans hoper', hmac.trans (hmac'.trans ?_)⟩)
      have hcore : ∀ w : PortWork, w.core.mac = w.mac := fun _ => rfl
      rw [← hcore, hrest.core, hcore, Chan.downed, Chan.pw_putPw_same]
    · obtain ⟨x, hx⟩ : ∃ x, x = (s.chan c).runTo (((s.chan c).pw p).since + (s.chan c).portF p LINE.PORT_TIMERS_UP_HOLD * 1000000) := ⟨_, rfl⟩
      obtain ⟨f, hf, hexec⟩ : ∃ f, f (s.chan c) = (x.portTimer p 0).portChanged p 0 ∧ exec (.upHoldExpiry c p) s = .next (s.onLive c f) :=
        ⟨_, (if_pos (by simp [hlane, htimer])).trans (by rw [hx]), rfl⟩
      have hticks : Ticks (s.chan c) x := by
        rw [hx]
        exact Ticks.runTo _ _
      have hsteady : Steady p (s.chan c) (x.portTimer p 0) := (Aside.of_ticks hp64 hticks).steady.trans (.portTimer hp64 x hp64 0)
      have hlinked := hsteady.linked
      have hkind := hsteady.portKind.trans hk
      have hctrl : (x.portTimer p 0).portB p LINE.PORT_CTRL_EN = (s.chan c).portB p LINE.PORT_CTRL_EN :=
        Steady.portB _ (congrArg (fun w => fld w 0 0) hsteady.ctl)
      refine completes_oper hr hp64 hexec hf hkind (hlinked.outs hplain) (fun u hu _ => hu.trans ?_)
      exact Chan.portChanged_up hp64 hkind 0 (hsteady.oper.trans hoper) ((hlinked.portState hp hk).trans hst) (hlinked.portF_state.trans hwas)
        (congrArg PortWork.timer (Chan.pw_putPw_same x p _)) (hctrl.trans hen) ((hlinked.served.instsOn hp).trans hinsts)

end Sys2Proof.Proofs
end
section
set_option Elab.async false
/-! Operations on a lane port (R218): what a write of PF0 finds, and what the operation leaves of the port's link. -/

namespace Sys2Proof.Machine

open Sys2Proof.Tests

/-- PF0's write of a word: the access is tallied on the register's page, and the effect runs on the channel that the tally leaves. -/
theorem State.hook_counts {s : State} {c : Fin 4} {p : Pg} {k : PageKind} (hr : HostReady s c) (hk : p.kind = some k) (hook : Hook) {off : Nat} (v : Word)
    {h : RegHit} (hf : findReg k off = some h) (hw : h.row.wide = false) (hh : h.high = false) (hkw : hasKw h.flds = false)
    (hj : wordLegal k off h v = true) :
    ∃ (t : State) (w : WReq), HeaderStep p c s t ∧ Counts p (s.chan c) (t.chan c) ∧ w.p = p ∧ w.off = off ∧ w.v = v ∧ w.old = (t.chan c).get p off ∧
      w.merged = mergeWord h.row.fields ((t.chan c).get p off) v ∧ s.chanWrite hook true (.func 0) c p off v = t.runChan c (hook w) := by
  obtain ⟨a, hrun⟩ := s.chanWrite_pf0 hook true c p off v k h hr hk hf hw hh hkw (fun _ => hj)
  have hfatal := State.chState_ne_fatal hr.1.1
  rw [State.onPages_of_not_fatal _ _ _ hfatal] at hrun
  have hheader := HeaderOnly.tally p (s.chan c) 3 a 1
  have ht := hheader.step (f := fun ch => ch.tally p 3 a) (onlyIrqs_of_nil hr.1.2)
  have hcounts : Counts p (s.chan c) ((s.runChan c (fun ch => ch.tally p 3 a)).chan c) := by
    rw [State.runChan_chan (hheader.onlyIrqs (onlyIrqs_of_nil hr.1.2)), if_pos rfl]
    exact ⟨(Counts.tally p (s.chan c) 3 a 1).work, (Counts.tally p (s.chan c) 3 a 1).regs, fun o ho => nomatch ho⟩
  refine ⟨_, ⟨c, p, off, .func 0, _, v, _, none, false⟩, ht, hcounts, rfl, rfl, rfl, rfl, rfl, hrun.trans ?_⟩
  rw [State.hookRun]
  split
  · rfl
  · exact State.onPages_of_not_fatal _ _ _ (by rwa [ht.chState])

theorem Counts.noFatal {q : Pg} {a b : Chan} (h : Counts q a b) (ha : a.outQ = []) : NoFatal b.outQ := fun o ho => by
  obtain ho | rfl := h.outs o ho
  · rw [ha] at ho
    exact nomatch ho
  · rfl

theorem pgLine_kind {i : Nat} (h : i < 8) : (pgLine i).kind = some .line := by
  interval_cases i <;> rfl

theorem portPg_kind {p : Nat} (h : p < 64) : (portPg p).kind = some .line := by
  obtain ⟨i, hi, hlt⟩ := portPg_page p
  rw [hi]
  exact pgLine_kind (hlt h)

theorem findReg_portCtrl {b : Nat} (h : b < 8) : findReg .line (LINE.PORT_CTRL b) = some (Wit.hit .line (LINE.PORT_CTRL 0)) := by
  interval_cases b <;> rfl

theorem findReg_laneCfg {l : Nat} (h : l < 4) : findReg .line (LINE.LANE_CFG l) = some (Wit.hit .line (LINE.LANE_CFG 0)) := by
  interval_cases l <;> rfl

/-- Every value of PORT_CTRL is legal, and so is every value of LANE_CFG. -/
theorem wordLegal_portCtrl {b : Nat} (h : b < 8) (v : Word) : wordLegal .line (LINE.PORT_CTRL b) (Wit.hit .line (LINE.PORT_CTRL 0)) v = true := by
  interval_cases b <;> rfl

theorem wordLegal_laneCfg {l : Nat} (h : l < 4) (v : Word) : wordLegal .line (LINE.LANE_CFG l) (Wit.hit .line (LINE.LANE_CFG 0)) v = true := by
  interval_cases l <;> rfl

/-- A write of LANE_CFG leaves its three fields as written. -/
theorem fld_mergeWord_laneCfg (old v : Word) : fld (mergeWord (Wit.hit .line (LINE.LANE_CFG 0)).row.fields old v) 2 0 = fld v 2 0 := by
  have hmerge : mergeWord (Wit.hit .line (LINE.LANE_CFG 0)).row.fields old v =
      setFld (setFld (setFld old 2 2 (fld v 2 2)) 1 1 (fld v 1 1)) 0 0 (fld v 0 0) := rfl
  have hsplit : ∀ w : Word, fld w 2 0 = fld w 0 0 + 2 * fld w 1 1 + 4 * fld w 2 2 := fun w => by
    simp only [fld, Nat.shiftRight_eq_div_pow]
    omega
  have hbit : ∀ n, fld v n n % 2 ^ (n + 1 - n) = fld v n n := fun n => Nat.mod_eq_of_lt (Nat.mod_lt _ (Nat.two_pow_pos _))
  rw [hsplit, hsplit v, hmerge, fld_setFld_same _ _ _ _ le_rfl (by decide), hbit]
  rw [fld_setFld_ne _ 0 0 _ 1 1 le_rfl (by decide) (by decide), fld_setFld_same _ _ _ _ le_rfl (by decide), hbit]
  rw [fld_setFld_ne _ 0 0 _ 2 2 le_rfl (by decide) (by decide), fld_setFld_ne _ 1 1 _ 2 2 le_rfl (by decide) (by decide),
    fld_setFld_same _ _ _ _ le_rfl (by decide), hbit]

theorem Aside.of_tally {p : Nat} (hp : p < 64) {q : Pg} {a b : Chan} (h : Counts q a b) : Aside p a b := .of_counts h (not_counts hp q)

/-- An operation begins: the link is taken out of what it did, and a port that was UP goes under test (R218). -/
def Chan.opBegun (ch : Chan) (p op : Nat) : Chan :=
  let c1 := ch.putPw p { ch.pw p with
    op := (if ch.portF p LINE.PORT_STAT_STATE = 3 then 1 else 5) + op, aligned := false, training := false, retry := false }
  if ch.portF p LINE.PORT_STAT_STATE = 3 then (c1.journal (portPg p) clsNone 4 (p + op * 2 ^ 8)).testStat p else c1

/-- The operation runs where the port is not UP, or its instances are taken over. -/
theorem Chan.portOp_runs {ch : Chan} {p : Nat} (op : Nat) (hlane : ch.isLanePort p = true)
    (hfree : ch.portF p LINE.PORT_STAT_STATE ≠ 3 ∨ ch.takeover p = true) :
    ch.portOp p op = (if op = 0 ∨ op = 3 then (ch.opBegun p op).portChanged p 5 else ((ch.opBegun p op).portChanged p 5).opEnd p false, true) := by
  have hguard : (ch.portF p LINE.PORT_STAT_STATE == 3 && !(ch.takeover p)) = false := by
    obtain h | h := hfree <;> simp [h]
  simp only [Chan.portOp, Chan.opBegun, hlane, hguard, beq_iff_eq, Bool.false_eq_true, if_false, Bool.true_eq_false]

/-- It is refused on a port that is UP and not taken over. -/
theorem Chan.portOp_refused {ch : Chan} {p : Nat} (op : Nat) (hlane : ch.isLanePort p = true) (hup : ch.portF p LINE.PORT_STAT_STATE = 3)
    (htaken : ch.takeover p = false) : ch.portOp p op = (ch.portRefuse p 5, false) := by
  simp [Chan.portOp, hlane, hup, htaken]

section
variable {ch : Chan} {p : Nat} (hp : p < 32)
include hp

/-- TEST_ACTIVE of the port's pages is no part of its link. -/
theorem Aside.testStat (ch : Chan) : Aside p ch (ch.testStat p) := by
  have hput : ∀ (d : Chan) (i : Nat) (b : Bool), Aside p d (d.putB (pgLine i) STAT_TEST_ACTIVE b) := fun d i b => .put d _ _ _ (fun hk => by
    obtain ⟨j, o, hj, he, ho, hform⟩ := linkKey_form (by omega) hk
    simp only [LINE.PORT_CFG, LINE.PORT_STAT, LINE.PORT_CTRL] at hform
    rw [show STAT_TEST_ACTIVE.off = 0x10 from rfl, (pgLine i).key_header (by decide)] at he
    have hpage : (pgLine i).key 0 % 65536 = 0 := by simp [Pg.key]
    omega)
  exact Spares.each (fun d i => hput d i _) _ _

theorem Chan.opBegun_link (op : Nat) : Served p ch (ch.opBegun p op) ∧ (NoFatal ch.outQ → NoFatal (ch.opBegun p op).outQ) ∧
    (((ch.opBegun p op).pw p).op, ((ch.opBegun p op).pw p).aligned, ((ch.opBegun p op).pw p).training, ((ch.opBegun p op).pw p).retry) =
      ((if ch.portF p LINE.PORT_STAT_STATE = 3 then 1 else 5) + op, false, false, false) := by
  obtain ⟨w, hw⟩ : ∃ w, w = { ch.pw p with
    op := (if ch.portF p LINE.PORT_STAT_STATE = 3 then 1 else 5) + op, aligned := false, training := false, retry := false } := ⟨_, rfl⟩
  have haside : Aside p (ch.putPw p w) (ch.opBegun p op) := by
    simp only [Chan.opBegun, ← hw]
    exact .ite (fun _ => (Aside.journal (by omega) _ _ _ _ _).trans (Aside.testStat hp _)) (fun _ => .refl _)
  have hlinked := haside.steady.linked
  refine ⟨(Served.putPw ch w).trans hlinked.served, hlinked.outs, hlinked.link.trans ?_⟩
  rw [Chan.pw_putPw_same, hw]

/-- The end of an operation: the port trains. -/
theorem Chan.opEnd_link (hk : ch.portKind p = 1) (stopped : Bool) :
    Served p ch (ch.opEnd p stopped) ∧ (NoFatal ch.outQ → NoFatal (ch.opEnd p stopped).outQ) ∧
    (((ch.opEnd p stopped).pw p).op, ((ch.opEnd p stopped).pw p).aligned, ((ch.opEnd p stopped).pw p).training) = (0, (ch.pw p).aligned, true) := by
  obtain ⟨w, hw⟩ : ∃ w, w = { ch.pw p with op := 0, training := true } := ⟨_, rfl⟩
  obtain ⟨d, hd, hend⟩ : ∃ d, Aside p (ch.putPw p w) d ∧ ch.opEnd p stopped = d.portChanged p 5 := by
    refine ⟨_, ?_, rfl⟩
    rw [← hw]
    exact .ite (fun _ => (Aside.testStat hp _).trans (Aside.journal (by omega) _ _ _ _ _)) (fun _ => .refl _)
  have hserved := (Served.putPw ch w).trans hd.steady.linked.served
  have hkind := hserved.portKind.trans hk
  have hlink := (Chan.portChanged_link (by omega : p < 64) hkind 5).trans hd.steady.linked.link
  rw [Chan.pw_putPw_same, hw] at hlink
  simp only [Prod.mk.injEq] at hlink
  obtain ⟨hop, halign, htrain, -⟩ := hlink
  rw [hend]
  refine ⟨hserved.trans ?_, fun h => Chan.portChanged_noFatal (by omega) hkind 5 (hd.outs h), by rw [hop, halign, htrain]⟩
  exact (Served.putStat (by omega) d _ rfl).trans (Chan.portChanged_linked (by omega) hkind 5).served

/-- What an operation that runs leaves: a recalibration runs on, the others let the port train (R218). -/
theorem Chan.portOp_link (hk : ch.portKind p = 1) (op : Nat) (hfree : ch.portF p LINE.PORT_STAT_STATE ≠ 3 ∨ ch.takeover p = true) :
    ∃ d, ch.portOp p op = (d, true) ∧ Served p ch d ∧ (NoFatal ch.outQ → NoFatal d.outQ) ∧ (d.pw p).aligned = false ∧
      (if op = 0 ∨ op = 3 then (d.pw p).op = (if ch.portF p LINE.PORT_STAT_STATE = 3 then 1 else 5) + op
        else (d.pw p).op = 0 ∧ (d.pw p).training = true) := by
  obtain ⟨hserved, houts, hlink⟩ := Chan.opBegun_link (ch := ch) hp op
  have hkind := hserved.portKind.trans hk
  have hlink' := (Chan.portChanged_link (by omega : p < 64) hkind 5).trans hlink
  simp only [Prod.mk.injEq] at hlink'
  obtain ⟨hop, halign, -, -⟩ := hlink'
  have hchanged := (hserved.trans (Served.putStat (by omega) _ _ rfl)).trans (Chan.portChanged_linked (by omega) hkind 5).served
  have hplain := fun h => Chan.portChanged_noFatal (by omega : p < 64) hkind 5 (houts h)
  refine ⟨_, Chan.portOp_runs op ((Chan.isLanePort_iff _ _).2 ⟨hp, hk⟩) hfree, ?_⟩
  split
  · exact ⟨hchanged, hplain, halign, hop⟩
  · obtain ⟨hserved', houts', hlink'⟩ := Chan.opEnd_link hp (hchanged.portKind.trans hk) false
    simp only [Prod.mk.injEq] at hlink'
    obtain ⟨hop', halign', htrain'⟩ := hlink'
    exact ⟨hchanged.trans hserved', fun h => houts' (hplain h), halign'.trans halign, hop', htrain'⟩

end

/-- What a write of PORT_CTRL does that asks for an operation: DISCARD and EN stay as they are (R218). -/
theorem portCtrlHook_op {p n : Nat} (hn : n < 2) {w : WReq} {ctl : Word} (ch : Chan) (hv : w.v = setFld ctl (n + 3) (n + 3) 1) (h0 : fld ctl 5 3 = 0) :
    portCtrlHook p w ch = if (ch.portOp p n).2 then ((ch.portOp p n).1.putPortF p LINE.PORT_CTRL_DISCARD (fld ctl 2 2)).setEn p (fld ctl 0 0 == 1)
      else (ch.portOp p n).1 := by
  have hbit : ∀ (x : Word) (m : Nat), bit x m = (fld x m m == 1) := fun x m => by rw [bit, fld, Nat.add_sub_cancel_left, pow_one]
  have hkept : ∀ m, m < 32 → m ≠ n + 3 → fld w.v m m = fld ctl m m := fun m hm hne => by
    rw [hv]
    exact fld_setFld_ne _ _ _ _ _ _ le_rfl hm (by omega)
  have hzero : ∀ m, 3 ≤ m → m ≤ 5 → fld ctl m m = 0 := fun m hlo hhi => by
    have hin := fld_within (w := ctl) (v := 0) (top := 5) (bot := 3) (hi := m) (lo := m) (by rw [h0]; rfl) hlo hhi
    rw [hin, fld]
    simp
  have hset : fld w.v (n + 3) (n + 3) = 1 := by
    rw [hv, fld_setFld_same _ _ _ _ le_rfl (by omega), Nat.add_sub_cancel_left]
    rfl
  have h5 : bit w.v 5 = false := by rw [hbit, hkept 5 (by omega) (by omega), hzero 5 (by omega) (by omega)]; rfl
  have hen : bit w.v 0 = (fld ctl 0 0 == 1) := by rw [hbit, hkept 0 (by omega) (by omega)]
  have hdisc : fld w.v 2 2 = fld ctl 2 2 := hkept 2 (by omega) (by omega)
  interval_cases n
  · have h3 : bit w.v 3 = true := by rw [hbit, hset]; rfl
    simp only [portCtrlHook, h3, h5, hen, hdisc, if_true, Bool.false_eq_true, if_false]
  · have h3 : bit w.v 3 = false := by rw [hbit, hkept 3 (by omega) (by omega), hzero 3 (by omega) (by omega)]; rfl
    have h4 : bit w.v 4 = true := by rw [hbit, hset]; rfl
    simp only [portCtrlHook, h3, h4, h5, hen, hdisc, if_true, Bool.false_eq_true, if_false]

/-- EN written as it is changes nothing (R213). -/
theorem Chan.setEn_same {ch : Chan} {p : Nat} {ctl : Word} (h : ch.portF p LINE.PORT_CTRL_EN = fld ctl 0 0) : ch.setEn p (fld ctl 0 0 == 1) = ch := by
  have hlt : fld ctl 0 0 < 2 := Nat.mod_lt _ (by decide)
  refine if_pos ?_
  rw [Chan.portB, h]
  interval_cases fld ctl 0 0 <;> rfl

/-- The operation, where it runs: PORT_CTRL is left as it was. -/
theorem portCtrlHook_runs {p n : Nat} (hp : p < 32) (hn : n < 2) {w : WReq} {ch : Chan} (hv : w.v = setFld (ch.portCtrl p) (n + 3) (n + 3) 1)
    (h0 : fld (ch.portCtrl p) 5 3 = 0) (hk : ch.portKind p = 1) (hfree : ch.portF p LINE.PORT_STAT_STATE ≠ 3 ∨ ch.takeover p = true) :
    (NoFatal ch.outQ → NoFatal (portCtrlHook p w ch).outQ) ∧ ((portCtrlHook p w ch).pw p).aligned = false ∧
      (if n = 0 then ((portCtrlHook p w ch).pw p).op = (if ch.portF p LINE.PORT_STAT_STATE = 3 then 1 else 5)
        else ((portCtrlHook p w ch).pw p).op = 0 ∧ ((portCtrlHook p w ch).pw p).training = true) := by
  obtain ⟨d, hd, hserved, houts, halign, hop⟩ := Chan.portOp_link hp hk n hfree
  have hen : (d.putPortF p LINE.PORT_CTRL_DISCARD (fld (ch.portCtrl p) 2 2)).portF p LINE.PORT_CTRL_EN = fld (ch.portCtrl p) 0 0 := by
    refine (Chan.portF_putStat (f := LINE.PORT_CTRL_DISCARD) (g := LINE.PORT_CTRL_EN) d p _ rfl (by norm_num) (by norm_num) (by norm_num)).trans ?_
    rw [Chan.portF, Chan.getF, Chan.portCtrl, ← hserved.ctl]
  rw [portCtrlHook_op hn ch hv h0, hd, if_pos rfl, Chan.setEn_same hen]
  refine ⟨houts, halign, ?_⟩
  interval_cases n
  · exact hop
  · exact hop

/-- A refusal at a port (R230): REFUSE, and the page's cause. -/
theorem Chan.portRefuse_stays {pages : List Pg} {strip : Chan → Chan} (ch : Chan) {p : Nat} (hp : portPg p ∈ pages) (code : Nat) :
    Stays pages strip ch (ch.portRefuse p code) :=
  (Stays.put ch hp (off := (LINE.PORT_STAT_REFUSE (portBlk p)).off) _ (by have := portBlk_lt p; simp only; omega)).trans (.raise _ hp 11)

theorem not_inHeader_line {i off : Nat} (hi : i < 16) (h : 0x100 ≤ off) : ¬ InHeader (pgLine i) ((pgLine i).key off) := by
  rw [InHeader, pgLine_key hi, pgLine_key hi, pgLine_key hi]
  omega

theorem Chan.portRefuse_header (ch : Chan) (p code : Nat) : HeaderOnly (portPg p) (ch.putPortF p LINE.PORT_STAT_REFUSE code) (ch.portRefuse p code) :=
  HeaderOnly.raiseMask (portPg p) (ch.putPortF p LINE.PORT_STAT_REFUSE code) (m := 2 ^ 11) (by decide) (by decide)

theorem Chan.portRefuse_get (ch : Chan) {p i off : Nat} (code : Nat) (hp : p < 64) (hi : i < 8) (ho : 0x100 ≤ off) (hhi : off < 0x1000) :
    (ch.portRefuse p code).get (pgLine i) off = ch.get (pgLine i) off := by
  obtain ⟨j, hj, hlt⟩ := portPg_page p
  have hj8 := hlt hp
  have hblk := portBlk_lt p
  have hout : ¬ InHeader (portPg p) ((pgLine i).key off) := by
    rw [hj, InHeader, pgLine_key (by omega), pgLine_key (by omega), pgLine_key (by omega)]
    omega
  refine ((ch.portRefuse_header p code).get hout).trans (ch.rget_put_ne _ ?_)
  rw [hj, pgLine_key (by omega), pgLine_key (by omega)]
  simp only
  omega

theorem Chan.portRefuse_code (ch : Chan) {p code : Nat} (hp : p < 64) (h : code < 16) : (ch.portRefuse p code).portF p LINE.PORT_STAT_REFUSE = code := by
  have hblk := portBlk_lt p
  obtain ⟨i, hi, hlt⟩ := portPg_page p
  have hi8 := hlt hp
  have hput := Chan.portF_put_same (f := LINE.PORT_STAT_REFUSE) ch p code (by norm_num) (by norm_num)
  have hout : ¬ InHeader (portPg p) ((portPg p).key (LINE.PORT_STAT_REFUSE (portBlk p)).off) := by
    rw [hi]
    exact not_inHeader_line (by omega) (by simp only; omega)
  refine ((ch.portRefuse_header p code).getF hout).trans (hput.trans ?_)
  simp only
  omega

/-- A lane of a port lies among the lanes of the LINE pages. -/
theorem Chan.lane_lt (ch : Chan) (p lane : Nat) : lane % lanesOf (ch.portF p LINE.PORT_CFG_LANES) < 8 := by
  have hfld : ch.portF p LINE.PORT_CFG_LANES < 2 ^ (19 + 1 - 18) := Nat.mod_lt _ (Nat.two_pow_pos _)
  have hlanes : lanesOf (ch.portF p LINE.PORT_CFG_LANES) ≤ 8 := (Nat.pow_le_pow_right (by decide) (Nat.le_of_lt_succ hfld)).trans (by decide)
  exact (Nat.mod_lt _ (Nat.two_pow_pos _)).trans_le hlanes

/-- The state of a lane is no part of a port's link. -/
theorem Aside.putLaneStat {p : Nat} (hp : p < 64) (ch : Chan) {l : Nat} (hl : l < 64) (v : Word) :
    Aside p ch (ch.put (pgLine (l / 4)) (LINE.LANE_STAT (l % 4)) v) := .put ch _ _ _ (fun hk => by
  obtain ⟨j, o, hj, he, ho, hform⟩ := linkKey_form hp hk
  have hblk := portBlk_lt p
  rw [pgLine_key (by omega)] at he
  simp only [LINE.PORT_CFG, LINE.PORT_STAT, LINE.PORT_CTRL, LINE.LANE_STAT] at hform he
  omega)

/-- The pages of the line ports, and what they are beside their registers. -/
abbrev linePages : List Pg := pgDisp :: (List.range 8).map pgLine

abbrev lineOnly (ch : Chan) : Chan := { noTime ch with ports := [], prs := {}, laneLow := 0 }

theorem pgLine_mem {i : Nat} (h : i < 8) : pgLine i ∈ linePages := List.mem_cons_of_mem _ (List.mem_map.2 ⟨i, List.mem_range.2 h, rfl⟩)

theorem portPg_mem {p : Nat} (h : p < 64) : portPg p ∈ linePages := by
  obtain ⟨i, hi, hlt⟩ := portPg_page p
  rw [hi]
  exact pgLine_mem (hlt h)

theorem pgLine_not_jrnl {i : Nat} (h : i < 16) : (pgLine i).key 0 / 65536 ≠ pgJrnl.key 0 / 65536 := by
  rw [pgLine_page]
  simp only [Pg.key]
  norm_num
  omega

theorem Chan.laneOwner_congr {a b : Chan} (h : ∀ q, q < 32 → Served q a b) (l : Nat) : b.laneOwner l = a.laneOwner l := by
  unfold Chan.laneOwner firstBelow
  refine List.find?_congr (fun q hq => ?_)
  have hq := h q (List.mem_range.1 hq)
  rw [Chan.lanesOfPort, Chan.lanesOfPort, hq.portKind, hq.portF_cfg (f := LINE.PORT_CFG_LANES) rfl]

/-- The holder of a lane is a lane port. -/
theorem Chan.laneOwner_lane {ch : Chan} {l q : Nat} (h : ch.laneOwner l = some q) : ch.isLanePort q = true := by
  unfold Chan.laneOwner firstBelow at h
  have hin := List.find?_some h
  refine (Chan.isLanePort_iff _ _).2 ⟨List.mem_range.1 (List.mem_of_find?_eq_some h), ?_⟩
  by_contra hk
  rw [Chan.lanesOfPort, if_neg hk] at hin
  exact nomatch hin

/-- A write of the LANE_CFG of a lane that no port holds (R219). -/
theorem laneCfgHook_free {ch : Chan} {l : Nat} {w : WReq} (hl : l < 32) (hp : w.p = pgLine (l / 4)) (ho : w.off = LINE.LANE_CFG (l % 4))
    (hfree : ch.laneOwner l = none) : (∀ strip, Stays linePages strip ch (laneCfgHook l w ch)) ∧ (laneCfgHook l w ch).outQ = ch.outQ ∧
      (laneCfgHook l w ch).get (pgLine (l / 4)) (LINE.LANE_CFG (l % 4)) = w.merged := by
  have hmem : pgLine (l / 4) ∈ linePages := pgLine_mem (by omega)
  have hcfg : ∀ strip, Stays linePages strip ch (ch.put w.p w.off w.merged) := fun strip => by
    rw [hp, ho]
    exact .put ch hmem _ (by simp only [LINE.LANE_CFG]; omega)
  simp only [laneCfgHook, hfree]
  split
  · refine ⟨fun strip => (hcfg strip).trans ?_, rfl, ?_⟩
    · rw [hp]
      exact .put _ hmem _ (by simp only [LINE.LANE_STAT]; omega)
    · rw [hp, ho, Chan.get_put_ne _ _ (by rw [pgLine_key (by omega), pgLine_key (by omega)]; simp only [LINE.LANE_CFG, LINE.LANE_STAT]; omega), Chan.get_put_same]
  · refine ⟨hcfg, rfl, ?_⟩
    rw [hp, ho, Chan.get_put_same]

/-- The margin of a lane as reported, with the lanes whose margin is low. -/
def Chan.margined (ch : Chan) (l m n : Nat) : Chan := { ch.putF (pgLine (l / 4)) (LINE.LANE_STAT_MARGIN (l % 4)) m with laneLow := n }

theorem Chan.margined_margin {ch : Chan} {l m : Nat} (hl : l < 32) (hm : m < 256) (n : Nat) :
    (ch.margined l m n).getF (pgLine (l / 4)) (LINE.LANE_STAT_MARGIN (l % 4)) = m ∧
      ((ch.margined l m n).raise (pgLine (l / 4)) 12).getF (pgLine (l / 4)) (LINE.LANE_STAT_MARGIN (l % 4)) = m := by
  have hput := Chan.getF_putF_same ch (pgLine (l / 4)) (LINE.LANE_STAT_MARGIN (l % 4)) m (by norm_num) (by norm_num)
  have hval : m % 2 ^ ((LINE.LANE_STAT_MARGIN (l % 4)).hi + 1 - (LINE.LANE_STAT_MARGIN (l % 4)).lo) = m := Nat.mod_eq_of_lt hm
  have hset := hput.trans hval
  have hraise := HeaderOnly.raiseMask (pgLine (l / 4)) (ch.margined l m n) (m := 2 ^ 12) (by decide) (by decide)
  exact ⟨hset, (hraise.getF (not_inHeader_line (by omega) (Nat.le_add_right_of_le (by decide)))).trans hset⟩

theorem Chan.margined_stays {strip : Chan → Chan} (ch : Chan) {l m : Nat} (hl : l < 32) (n : Nat) (hs : ∀ (d : Chan) (x : Nat), strip { d with laneLow := x } = strip d) :
    Stays linePages strip ch (ch.margined l m n) := by
  have hput : Stays linePages strip ch (ch.putF (pgLine (l / 4)) (LINE.LANE_STAT_MARGIN (l % 4)) m) :=
    .put _ (pgLine_mem (by omega)) (off := (LINE.LANE_STAT_MARGIN (l % 4)).off) _ (by simp only; omega)
  refine ⟨?_, hput.regs, hput.outs⟩
  rw [← hput.work]
  exact hs { quietOf (ch.putF (pgLine (l / 4)) (LINE.LANE_STAT_MARGIN (l % 4)) m) with free := 0 } n

/-- What a report of a margin does (R211). -/
theorem exec_laneMargin {s : State} {c : Fin 4} {l m : Nat} (hl : l < 32) (hm : m < 256) : ∃ f,
    (∃ n, f (s.chan c) = (s.chan c).margined l m n ∨ f (s.chan c) = ((s.chan c).margined l m n).raise (pgLine (l / 4)) 12) ∧
      exec (.laneMargin c l m) s = .next (s.onLive c f) := by
  refine ⟨_, ?_, rfl⟩
  dsimp only
  rw [if_neg (by omega)]
  split
  · exact ⟨_, .inr rfl⟩
  · split
    · exact ⟨_, .inl rfl⟩
    · exact ⟨(s.chan c).laneLow, .inl rfl⟩

/-- A write that powers down the lane of a port is refused at the port. -/
theorem laneCfgHook_held {ch : Chan} {l q : Nat} {w : WReq} (hq : ch.laneOwner l = some q) (hv : bit w.v 0 = true) (hold : bit w.old 0 = false) :
    laneCfgHook l w ch = ch.portRefuse q 3 := by
  simp only [laneCfgHook, hq, hv, hold, Bool.not_false, Bool.and_self, if_true]

/-- Any other write takes effect, where the port is not UP, is taken over, or its loopback does not change (R218). -/
theorem laneCfgHook_open {ch : Chan} {l q : Nat} {w : WReq} (hq : ch.laneOwner l = some q) (hpd : bit w.v 0 = false ∨ bit w.old 0 = true)
    (hopen : ch.portF q LINE.PORT_STAT_STATE ≠ 3 ∨ ch.takeover q = true ∨ fld w.v 2 1 = fld w.old 2 1) :
    ∃ d : Chan, laneCfgHook l w ch = d.put w.p w.off w.merged ∧ (NoFatal ch.outQ → NoFatal d.outQ) := by
  obtain ⟨hp, hk⟩ := (Chan.isLanePort_iff _ _).1 (Chan.laneOwner_lane hq)
  have hguard : (bit w.v 0 && !(bit w.old 0)) = false := by
    obtain h | h := hpd <;> simp [h]
  simp only [laneCfgHook, hq, hguard, Bool.false_eq_true, if_false]
  split
  · exact ⟨ch, rfl, id⟩
  · split
    · have hfree : ch.takeover q = true := by tauto
      obtain ⟨d, hd, -, houts, -⟩ := Chan.portOp_link hp hk 2 (.inr hfree)
      rw [hd]
      exact ⟨d, rfl, houts⟩
    · exact ⟨ch, rfl, id⟩

end Sys2Proof.Machine

namespace Sys2Proof.Proofs

open Sys2Proof Sys2Proof.Machine Sys2Proof.Tests

theorem lineFrame_of_keeps {s u : State} {c : Fin 4} (h : Keeps s u c linePages lineOnly) : LineFrame s u c := by
  obtain ⟨hothers, hisl, hwork, hregs⟩ := h
  exact ⟨hothers, hisl, hwork, fun key hkey _ => hregs key hkey (fun hno => hno)⟩

/-- PF0's write of a port's PORT_CTRL: the access is tallied, and nothing of the port's link has changed before its effect. -/
theorem portCtrl_written {s : State} {c : Fin 4} {p : Nat} (hr : HostReady s c) (hp : p < 32) (v : Word) :
    ∃ (t : State) (w : WReq), HeaderStep (portPg p) c s t ∧ Aside p (s.chan c) (t.chan c) ∧ w.v = v ∧
      s.portCtrlWrite (.func 0) c p v = t.runChan c (portCtrlHook p w) := by
  have hblk := portBlk_lt p
  obtain ⟨t, w, ht, hcounts, -, -, hv, -, -, hrun⟩ := State.hook_counts hr (portPg_kind (p := p) (by omega)) (portCtrlHook p) v
    (findReg_portCtrl hblk) rfl rfl rfl (wordLegal_portCtrl hblk v)
  refine ⟨t, w, ht, .of_tally (by omega) hcounts, hv, ?_⟩
  rw [State.portCtrlWrite, Nat.mod_eq_of_lt (by omega : p < 64)]
  exact hrun

section
variable {i : Instr} {s : State} {c : Fin 4} {p n : Nat} (hr : HostReady s c) (h0 : fld ((s.chan c).portCtrl p) 5 3 = 0)
  (hlane : (s.chan c).isLanePort p = true) (hn : n < 2)
  (hi : exec i s = .next (s.portCtrlWrite (.func 0) c p (setFld ((s.chan c).portCtrl (p % 64)) (n + 3) (n + 3) 1)))
include hr h0 hlane hn hi

/-- RECAL and RESTART_AN of a lane port that they may be asked of (R218). -/
theorem completes_portOp (hfree : (s.chan c).portF p LINE.PORT_STAT_STATE ≠ 3 ∨ (s.chan c).takeover p = true) :
    Completes i s (fun t => ((t.chan c).pw p).aligned = false ∧
      (if n = 0 then ((t.chan c).pw p).op = (if (s.chan c).portF p LINE.PORT_STAT_STATE = 3 then 1 else 5)
        else ((t.chan c).pw p).op = 0 ∧ ((t.chan c).pw p).training = true)) := by
  obtain ⟨hp, hk⟩ := (Chan.isLanePort_iff _ _).1 hlane
  rw [Nat.mod_eq_of_lt (by omega : p < 64)] at hi
  obtain ⟨t, w, ht, haside, hv, hrun⟩ := portCtrl_written hr hp (setFld ((s.chan c).portCtrl p) (n + 3) (n + 3) 1)
  have hlinked := haside.steady.linked
  have hctl : (t.chan c).portCtrl p = (s.chan c).portCtrl p := hlinked.served.ctl
  have hfree' : (t.chan c).portF p LINE.PORT_STAT_STATE ≠ 3 ∨ (t.chan c).takeover p = true := by
    rw [hlinked.portF_state, hlinked.served.takeover hp]
    exact hfree
  obtain ⟨houts, halign, hop⟩ := portCtrlHook_runs hp hn (hv.trans (by rw [hctl])) (by rw [hctl]; exact h0) (hlinked.served.portKind.trans hk) hfree'
  have hcalm := State.runChan_calm (houts (haside.outs (noFatal_of_nil hr.1.2)))
  have hlink := (Aside.of_calm (p := p) (by omega) hcalm).steady.linked.link
  simp only [Prod.mk.injEq] at hlink
  obtain ⟨hop', halign', htrain', -⟩ := hlink
  rw [hlinked.portF_state] at hop
  refine ⟨_, hi.trans (by rw [hrun]), halign'.trans halign, ?_⟩
  rw [hop', htrain']
  exact hop

/-- They are refused on a port that is UP and not taken over (R218, R230). -/
theorem completes_portOp_refused (hup : (s.chan c).portF p LINE.PORT_STAT_STATE = 3) (htaken : (s.chan c).takeover p = false) :
    Completes i s (fun t => (t.chan c).portF p LINE.PORT_STAT_REFUSE = 5 ∧ workOf (t.chan c) = workOf (s.chan c)) := by
  obtain ⟨hp, hk⟩ := (Chan.isLanePort_iff _ _).1 hlane
  rw [Nat.mod_eq_of_lt (by omega : p < 64)] at hi
  obtain ⟨t, w, ht, haside, hv, hrun⟩ := portCtrl_written hr hp (setFld ((s.chan c).portCtrl p) (n + 3) (n + 3) 1)
  have hlinked := haside.steady.linked
  have hlane' : (t.chan c).isLanePort p = true := (Chan.isLanePort_iff _ _).2 ⟨hp, hlinked.served.portKind.trans hk⟩
  have hhook : portCtrlHook p w (t.chan c) = (t.chan c).portRefuse p 5 := by
    rw [portCtrlHook_op hn _ hv h0,
      Chan.portOp_refused n hlane' (hlinked.portF_state.trans hup) ((hlinked.served.takeover hp).trans htaken)]
    rfl
  obtain ⟨-, hchan⟩ := ht.answers (pages := linePages) (strip := lineOnly) (portPg_mem (by omega)) hr.1.2 hhook
    (Chan.portRefuse_stays _ (portPg_mem (by omega)) 5) ((Chan.portRefuse_header _ p 5).onlyIrqs)
  refine ⟨_, hi.trans (by rw [hrun]), ?_, ?_⟩
  · rw [hchan]
    exact Chan.portRefuse_code _ (by omega) (by decide)
  · rw [hchan]
    exact (Chan.portRefuse_header (t.chan c) p 5).work.trans ht.chan.work

end

section
variable {s : State} {c : Fin 4} {l : Nat} (hr : HostReady s c) (hl : l < 32) (v : Word)
include hr hl

/-- PF0's write of a lane's LANE_CFG. -/
theorem laneCfg_written : ∃ (t : State) (w : WReq), HeaderStep (pgLine (l / 4)) c s t ∧ Counts (pgLine (l / 4)) (s.chan c) (t.chan c) ∧
    w.p = pgLine (l / 4) ∧ w.off = LINE.LANE_CFG (l % 4) ∧ w.v = v ∧ w.old = (s.chan c).get (pgLine (l / 4)) (LINE.LANE_CFG (l % 4)) ∧
    fld w.merged 2 0 = fld v 2 0 ∧ exec (.laneCfgWrite (.func 0) c l v) s = .next (t.runChan c (laneCfgHook l w)) := by
  have hlt : l % 4 < 4 := Nat.mod_lt _ (by decide)
  obtain ⟨t, w, ht, hcounts, hp, ho, hv, hold, hm, hrun⟩ := State.hook_counts hr (pgLine_kind (i := l / 4) (by omega)) (laneCfgHook l) v
    (findReg_laneCfg hlt) rfl rfl rfl (wordLegal_laneCfg hlt v)
  refine ⟨t, w, ht, hcounts, hp, ho, hv, hold.trans (ht.chan.get (not_inHeader_line (by omega) (Nat.le_add_right _ _))), ?_, ?_⟩
  · rw [hm]
    exact fld_mergeWord_laneCfg _ v
  · rw [← hrun]
    refine congrArg Host.Outcome.next ?_
    rw [Nat.mod_eq_of_lt hl]

theorem completes_laneFree (hfree : (s.chan c).laneOwner l = none) : Completes (.laneCfgWrite (.func 0) c l v) s (fun t => LineFrame s t c ∧
    fld ((t.chan c).get (pgLine (l / 4)) (LINE.LANE_CFG (l % 4))) 2 0 = fld v 2 0) := by
  obtain ⟨t, w, ht, hcounts, hp, ho, -, -, hm, hrun⟩ := laneCfg_written hr hl v
  have hfree' : (t.chan c).laneOwner l = none :=
    (Chan.laneOwner_congr (fun q hq => (Aside.of_tally (p := q) (by omega) hcounts).steady.linked.served) l).trans hfree
  obtain ⟨hstays, houts, hget⟩ := laneCfgHook_free hl hp ho hfree'
  obtain ⟨hkeeps, hchan⟩ := ht.answers (pages := linePages) (strip := lineOnly) (pgLine_mem (by omega)) hr.1.2 rfl (hstays _) (fun h => by rwa [houts])
  refine ⟨_, hrun, lineFrame_of_keeps hkeeps, ?_⟩
  rw [hchan, Chan.get_clear, hget, hm]

theorem completes_laneHeld {q : Nat} (hq : (s.chan c).laneOwner l = some q) (hv : bit v 0 = true)
    (hold : bit ((s.chan c).get (pgLine (l / 4)) (LINE.LANE_CFG (l % 4))) 0 = false) :
    Completes (.laneCfgWrite (.func 0) c l v) s (fun t => LineFrame s t c ∧ (t.chan c).portF q LINE.PORT_STAT_REFUSE = 3 ∧
      (t.chan c).get (pgLine (l / 4)) (LINE.LANE_CFG (l % 4)) = (s.chan c).get (pgLine (l / 4)) (LINE.LANE_CFG (l % 4))) := by
  have hlane := ((Chan.isLanePort_iff _ _).1 (Chan.laneOwner_lane hq)).1
  obtain ⟨t, w, ht, hcounts, hp, ho, hwv, hwold, -, hrun⟩ := laneCfg_written hr hl v
  have hq' : (t.chan c).laneOwner l = some q :=
    (Chan.laneOwner_congr (fun q hq => (Aside.of_tally (p := q) (by omega) hcounts).steady.linked.served) l).trans hq
  obtain ⟨hkeeps, hchan⟩ := ht.answers (pages := linePages) (strip := lineOnly) (pgLine_mem (by omega)) hr.1.2
    (laneCfgHook_held hq' (by rw [hwv]; exact hv) (by rw [hwold]; exact hold)) (Chan.portRefuse_stays _ (portPg_mem (by omega)) 3)
    ((Chan.portRefuse_header _ q 3).onlyIrqs)
  refine ⟨_, hrun, lineFrame_of_keeps hkeeps, ?_, ?_⟩
  · rw [hchan]
    exact Chan.portRefuse_code _ (by omega) (by decide)
  · rw [hchan, Chan.get_clear, Chan.portRefuse_get _ 3 (by omega) (by omega) (Nat.le_add_right _ _) (by omega)]
    exact ht.chan.get (not_inHeader_line (by omega) (Nat.le_add_right _ _))

theorem completes_laneOpen {q : Nat} (hq : (s.chan c).laneOwner l = some q)
    (hpd : bit v 0 = false ∨ bit ((s.chan c).get (pgLine (l / 4)) (LINE.LANE_CFG (l % 4))) 0 = true)
    (hopen : (s.chan c).portF q LINE.PORT_STAT_STATE ≠ 3 ∨ (s.chan c).takeover q = true ∨
      fld v 2 1 = fld ((s.chan c).get (pgLine (l / 4)) (LINE.LANE_CFG (l % 4))) 2 1) :
    Completes (.laneCfgWrite (.func 0) c l v) s (fun t => fld ((t.chan c).get (pgLine (l / 4)) (LINE.LANE_CFG (l % 4))) 2 0 = fld v 2 0) := by
  have hlane := ((Chan.isLanePort_iff _ _).1 (Chan.laneOwner_lane hq)).1
  obtain ⟨t, w, ht, hcounts, hp, ho, hwv, hwold, hm, hrun⟩ := laneCfg_written hr hl v
  have hlinked : ∀ q, q < 32 → Linked q (s.chan c) (t.chan c) := fun q hq => (Aside.of_tally (p := q) (by omega) hcounts).steady.linked
  have hq' : (t.chan c).laneOwner l = some q := (Chan.laneOwner_congr (fun q hq => (hlinked q hq).served) l).trans hq
  obtain ⟨d, hd, houts⟩ := laneCfgHook_open hq' (w := w) (by rwa [hwv, hwold])
    (by rwa [hwv, hwold, (hlinked q hlane).portF_state, (hlinked q hlane).served.takeover hlane])
  have hplain : NoFatal (laneCfgHook l w (t.chan c)).outQ := by
    rw [hd]
    exact houts (hcounts.noFatal hr.1.2)
  refine ⟨_, hrun, ?_⟩
  dsimp only
  rw [calm_get (State.runChan_calm hplain) (by simp only [LINE.LANE_CFG]; omega) (pgLine_not_jrnl (by omega)), hd, hp, ho, Chan.get_put_same, hm]

end

/-- A margin that a lane reports (R211). -/
theorem completes_laneMargin {s : State} {c : Fin 4} {l m : Nat} (hr : Ready s c) (hl : l < 32) (hm : m < 256) :
    Completes (.laneMargin c l m) s (fun t => LineFrame s t c ∧ (t.chan c).getF (pgLine (l / 4)) (LINE.LANE_STAT_MARGIN (l % 4)) = m) := by
  have hmem : pgLine (l / 4) ∈ linePages := pgLine_mem (by omega)
  obtain ⟨f, ⟨n, hf⟩, hexec⟩ := exec_laneMargin (s := s) (c := c) hl hm
  obtain ⟨hmargin, hraised⟩ := (s.chan c).margined_margin hl hm n
  have hput := (s.chan c).margined_stays (strip := lineOnly) (m := m) hl n (fun _ _ => rfl)
  have hstays : Stays linePages lineOnly (s.chan c) (f (s.chan c)) ∧ (f (s.chan c)).getF (pgLine (l / 4)) (LINE.LANE_STAT_MARGIN (l % 4)) = m := by
    obtain hf | hf := hf
    · rw [hf]
      exact ⟨hput, hmargin⟩
    · rw [hf]
      exact ⟨hput.trans (.raise _ hmem 12), hraised⟩
  obtain ⟨hkeeps, hcalm⟩ := State.onLive_stays hr hstays.1
  refine ⟨_, hexec, lineFrame_of_keeps hkeeps, ?_⟩
  rw [Chan.getF, calm_get hcalm (by simp only; omega) (pgLine_not_jrnl (by omega))]
  exact hstays.2

section
variable {s : State} {c : Fin 4} {p : Nat} (hr : Ready s c) (hlane : (s.chan c).isLanePort p = true)
include hr hlane

/-- The end of an operation that runs (R218). -/
theorem completes_recalDone {stopped : Bool} (hop : ((s.chan c).pw p).op = 1 ∨ ((s.chan c).pw p).op = 5) :
    Completes (.recalDone c p stopped) s (fun t => ((t.chan c).pw p).op = 0 ∧ ((t.chan c).pw p).training = true) := by
  obtain ⟨hp, hk⟩ := (Chan.isLanePort_iff _ _).1 hlane
  obtain ⟨f, hf, hexec⟩ : ∃ f, f (s.chan c) = (s.chan c).opEnd p stopped ∧ exec (.recalDone c p stopped) s = .next (s.onLive c f) :=
    ⟨_, if_pos (by simp [hlane, hop]), rfl⟩
  obtain ⟨-, houts, hlink⟩ := Chan.opEnd_link (ch := s.chan c) hp hk stopped
  refine completes_link hr (by omega : p < 64) hexec (by rw [hf]; exact houts (noFatal_of_nil hr.2)) (fun u hu => ?_)
  have hlink' := hu.steady.linked.link
  simp only [hf, Prod.mk.injEq] at hlink hlink'
  obtain ⟨hop', -, htrain⟩ := hlink
  obtain ⟨hop'', -, htrain', -⟩ := hlink'
  exact ⟨hop''.trans hop', htrain'.trans htrain⟩

/-- A loss of signal on a lane, or of alignment, takes the port's alignment and its training (R212). -/
theorem completes_lost {lane kind : Nat} (hkind : kind < 2) :
    Completes (.portFault c p lane kind) s (fun t => ((t.chan c).pw p).aligned = false ∧ ((t.chan c).pw p).training = false) := by
  obtain ⟨hp, hk⟩ := (Chan.isLanePort_iff _ _).1 hlane
  have hp64 : p < 64 := by omega
  obtain ⟨f, d, hd, hf, hexec⟩ : ∃ f d, Aside p (s.chan c) d ∧
      f (s.chan c) = (d.putPw p { (s.chan c).pw p with aligned := false, training := false }).portChanged p kind ∧
      exec (.portFault c p lane kind) s = .next (s.onLive c f) := by
    have hlt : lane % lanesOf ((s.chan c).portF p LINE.PORT_CFG_LANES) < 8 := Chan.lane_lt _ _ _
    interval_cases kind
    · exact ⟨_, _, Aside.putLaneStat hp64 _ (by omega) _, if_pos (by simp [hlane]), rfl⟩
    · exact ⟨_, _, .refl _, if_pos (by simp [hlane]), rfl⟩
  refine completes_changed hr hp64 hexec hf (hd.steady.portKind.trans hk) (hd.outs (noFatal_of_nil hr.2)) (fun u _ _ _ hlink => ?_)
  rw [Chan.pw_putPw_same] at hlink
  simp only [Prod.mk.injEq] at hlink
  obtain ⟨-, halign, htrain, -⟩ := hlink
  exact ⟨halign, htrain⟩

/-- Their end lets the port train. -/
theorem completes_returned {kind : Nat} (hkind : kind < 2) :
    Completes (.portFaultClear c p kind) s (fun t => ((s.chan c).pw p).aligned = false → ((t.chan c).pw p).training = true) := by
  obtain ⟨hp, hk⟩ := (Chan.isLanePort_iff _ _).1 hlane
  have hp64 : p < 64 := by omega
  obtain ⟨f, d, hd, hf, hexec⟩ : ∃ f d, Aside p (s.chan c) d ∧
      f (s.chan c) = (if ((s.chan c).pw p).aligned then d else d.putPw p { d.pw p with training := true }).portChanged p kind ∧
      exec (.portFaultClear c p kind) s = .next (s.onLive c f) := by
    interval_cases kind
    · exact ⟨_, _, Aside.laneSignals hp _, if_pos (by simp [hlane]), rfl⟩
    · exact ⟨_, _, .refl _, if_pos (by simp [hlane]), rfl⟩
  have hkind := hd.steady.portKind.trans hk
  have hplain := hd.outs (noFatal_of_nil hr.2)
  split at hf
  · exact completes_changed hr hp64 hexec hf hkind hplain (fun u _ _ _ _ hno => by simp_all)
  · refine completes_changed hr hp64 hexec hf hkind hplain (fun u _ _ _ hlink _ => ?_)
    rw [Chan.pw_putPw_same] at hlink
    simp only [Prod.mk.injEq] at hlink
    obtain ⟨-, -, htrain, -⟩ := hlink
    exact htrain

/-- A local or a remote fault is written, and shown (R212). -/
theorem completes_faulted {i : Instr} {f : Chan → Chan} {g : Nat → Fld} {kind v : Nat}
    (hg : g = LINE.PORT_STAT_LOCAL_FAULT ∨ g = LINE.PORT_STAT_REMOTE_FAULT) (hf : f (s.chan c) = ((s.chan c).putPortF p g v).portChanged p kind)
    (hexec : exec i s = .next (s.onLive c f)) : Completes i s (fun t => (t.chan c).portB p g = decide (v % 2 ≠ 0)) := by
  obtain ⟨hp, hk⟩ := (Chan.isLanePort_iff _ _).1 hlane
  have hp64 : p < 64 := by omega
  have hplain := noFatal_of_nil hr.2
  rcases hg with rfl | rfl
  · exact completes_changed hr hp64 hexec hf ((Served.putStat hp64 _ v rfl).portKind.trans hk) hplain (fun u _ hlf _ _ => hlf.trans
      (congrArg (fun n => decide (n ≠ 0)) (Chan.portF_put_same (f := LINE.PORT_STAT_LOCAL_FAULT) _ _ v le_rfl (by norm_num))))
  · exact completes_changed hr hp64 hexec hf ((Served.putStat hp64 _ v rfl).portKind.trans hk) hplain (fun u _ _ hrf _ => hrf.trans
      (congrArg (fun n => decide (n ≠ 0)) (Chan.portF_put_same (f := LINE.PORT_STAT_REMOTE_FAULT) _ _ v le_rfl (by norm_num))))

end

/-- Settles O33: an operation runs where the port is not UP or is taken over, and lets the port train when it ends; faults and lanes are as written. -/
theorem portOperationsAndLanes : Obligations.PortOperationsAndLanes := by
  refine ⟨⟨fun s c p hr h0 hlane => ⟨fun hdown => ⟨?_, ?_⟩, fun hup htaken => ?_⟩, fun s c p stopped hr hlane hop => ?_⟩,
    ⟨fun s c l v hr hl => ⟨fun hfree => completes_laneFree hr hl v hfree, fun q hq hv hold => completes_laneHeld hr hl v hq hv hold⟩,
      fun s c l m hr hl hm => completes_laneMargin hr hl hm⟩,
    fun s c p hr h0 hlane htaken => ⟨?_, ?_⟩, fun s c p lane kind hr hlane hkind => ?_, fun s c l q v hr hl hq hpd hopen => completes_laneOpen hr hl v hq hpd hopen⟩
  · obtain ⟨u, hu, halign, hop⟩ := completes_portOp (i := .recal (.func 0) c p) (n := 0) hr h0 hlane (by decide) rfl (.inl hdown)
    exact ⟨u, hu, hop.trans (if_neg hdown), halign⟩
  · obtain ⟨u, hu, halign, hop, htrain⟩ := completes_portOp (i := .restartAn (.func 0) c p) (n := 1) hr h0 hlane (by decide) rfl (.inl hdown)
    exact ⟨u, hu, hop, htrain, halign⟩
  · exact completes_portOp_refused (i := .recal (.func 0) c p) (n := 0) hr h0 hlane (by decide) rfl hup htaken
  · exact completes_recalDone hr hlane hop
  · exact completes_portOp (i := .recal (.func 0) c p) (n := 0) hr h0 hlane (by decide) rfl (.inr htaken)
  · obtain ⟨u, hu, halign, hop, htrain⟩ := completes_portOp (i := .restartAn (.func 0) c p) (n := 1) hr h0 hlane (by decide) rfl (.inr htaken)
    exact ⟨u, hu, hop, htrain, halign⟩
  · obtain hlow | rfl | rfl : kind < 2 ∨ kind = 2 ∨ kind = 3 := by omega
    · simp only [if_pos hlow]
      exact ⟨completes_lost hr hlane hlow, completes_returned hr hlane hlow⟩
    · exact ⟨completes_faulted hr hlane (v := 1) (.inl rfl) (if_pos (by simp [hlane])) rfl,
        completes_faulted hr hlane (v := 0) (.inl rfl) (if_pos (by simp [hlane])) rfl⟩
    · exact ⟨completes_faulted hr hlane (v := 1) (.inr rfl) (if_pos (by simp [hlane])) rfl,
        completes_faulted hr hlane (v := 0) (.inr rfl) (if_pos (by simp [hlane])) rfl⟩

end Sys2Proof.Proofs
end
section
set_option Elab.async false
/-! The keepers: what the work beside a keeper's state and claim leaves (R80–R103). -/

namespace Sys2Proof.Machine

theorem pgKeep_key (k off : Nat) : (pgKeep k).key off = (if k = 0 then 0 else 0x2000000) + off := by
  by_cases h : k = 0 <;> simp [pgKeep, h, Pg.key]

/-- STATUS, CLAIM or CYCLE_IDX of a keeper. -/
def StateKey (key : Nat) : Prop := key = 0x100 ∨ key = 0x104 ∨ key = 0x110 ∨ key = 0x2000100 ∨ key = 0x2000104 ∨ key = 0x2000110

/-- A register of a page that is no keeper's, and neither the journal's nor what a keeper stages at the action unit (R90). -/
def OutsideKeepers (key : Nat) : Prop :=
  key / 65536 ≠ 0 ∧ key / 65536 ≠ 1 ∧ key / 65536 ≠ 0x200 ∧ ¬ (0x30130 ≤ key ∧ key < 0x30144)

/-- A keeper without what its gate, its load, its cycle and its service commands change. -/
def Keeper.own (x : Keeper) : Keeper := { x with latch := {}, verified := false, ran := false, svcTag := 0, svcOp := 0 }

/-- The channel without the copy under way, the reason of a lost claim, and what a gate discards. -/
def sideStrip (ch : Chan) : Chan :=
  { ch with keepA := ch.keepA.own, keepB := ch.keepB.own, lostReason := 0, failCyc := 0, karmBy := 0, inflight := none, copyBad := 0 }

/-- Nothing but what a keeper's state and claim, and its service commands, bring with them has changed. -/
abbrev Side : Chan → Chan → Prop := Spares (fun key => StateKey key ∨ OutsideKeepers key) sideStrip

/-- The channel without its keepers. -/
def keeperStrip (ch : Chan) : Chan :=
  { noRegions (noTime ch) with keepA := {}, keepB := {}, lostReason := 0, karmBy := 0, inflight := none, inflightTo := 0, inflightEnd := 0,
                               copyBad := 0, cpCyc := 0, failCyc := 0, fusedSvn := 0, started := false }

/-- Only the keepers have changed. -/
abbrev KeeperOnly : Chan → Chan → Prop := Spares OutsideKeepers keeperStrip

namespace Side

variable {a b : Chan}

theorem keeperOnly (h : Side a b) : KeeperOnly a b :=
  (h.mono (fun _ hk => .inr hk)).strips keeperStrip (fun _ => rfl)

theorem stateKey {k : Nat} {off : Nat} (ho : off = KEEP.STATUS ∨ off = KEEP.CLAIM) : StateKey ((pgKeep k).key off) := by
  rw [pgKeep_key, StateKey]
  simp only [KEEP.STATUS, KEEP.CLAIM] at ho
  split <;> omega

theorem stateKey_index (k : Nat) : StateKey ((pgKeep k).key KEEP.CYCLE_IDX) := by
  rw [pgKeep_key, StateKey]
  simp only [KEEP.CYCLE_IDX]
  split <;> omega

/-- A field of STATUS or of CLAIM. -/
theorem getF (h : Side a b) (k : Nat) {f : Fld} (ho : f.off = KEEP.STATUS ∨ f.off = KEEP.CLAIM) : b.getF (pgKeep k) f = a.getF (pgKeep k) f := by
  rw [Chan.getF, Chan.getF, h.get (.inl (stateKey ho))]

theorem getB (h : Side a b) (k : Nat) {f : Fld} (ho : f.off = KEEP.STATUS ∨ f.off = KEEP.CLAIM) : b.getB (pgKeep k) f = a.getB (pgKeep k) f := by
  rw [Chan.getB, Chan.getB, h.getF k ho]

theorem kstate (h : Side a b) (k : Nat) : b.kstate k = a.kstate k := h.getF k (.inl rfl)

theorem claim (h : Side a b) (k : Nat) : b.claim k = a.claim k := h.getF k (.inr rfl)

theorem ns (h : Side a b) : b.ns = a.ns := by
  have hwork := congrArg (fun x : Chan => x.ns) h.work
  exact hwork

theorem keeper (h : Side a b) (k : Nat) : (b.keeper k).own = (a.keeper k).own := by
  have hA := congrArg (fun x : Chan => x.keepA) h.work
  have hB := congrArg (fun x : Chan => x.keepB) h.work
  unfold Chan.keeper
  split
  · exact hA
  · exact hB

/-- The same write of STATUS or of CLAIM on both sides. -/
theorem putF (h : Side a b) (k : Nat) (f : Fld) (v : Nat) :
    Side (a.putF (pgKeep k) f v) (b.putF (pgKeep k) f v) := by
  refine ⟨h.work, fun key hk => ?_, h.outs⟩
  by_cases he : key = (pgKeep k).key f.off
  · subst he
    have hget := h.get (p := pgKeep k) (off := f.off) hk
    have hput : ∀ ch : Chan, rget chanReset (ch.putF (pgKeep k) f v).regs ((pgKeep k).key f.off) = setFld (ch.get (pgKeep k) f.off) f.hi f.lo v :=
      fun ch => Chan.get_put_same _ _ _ _
    rw [hput, hput, hget]
  · exact (Chan.rget_put_ne _ _ he).trans ((h.regs key hk).trans (Chan.rget_put_ne _ _ he).symm)

theorem not_header (k key : Nat) (h : StateKey key ∨ OutsideKeepers key) : ¬ InHeader (pgKeep k) key := by
  rw [InHeader, pgKeep_key, pgKeep_key]
  simp only [StateKey, OutsideKeepers] at h
  split <;> omega

theorem not_journal (key : Nat) (h : StateKey key ∨ OutsideKeepers key) : key / 65536 ≠ pgJrnl.key 0 / 65536 := by
  rw [show pgJrnl.key 0 / 65536 = 1 from rfl]
  simp only [StateKey, OutsideKeepers] at h
  omega

/-- Any other register of a keeper's page. -/
theorem put (ch : Chan) (k : Nat) {off : Nat} (v : Word) (ho : off < 65536) (hs : off ≠ KEEP.STATUS) (hc : off ≠ KEEP.CLAIM) (hi : off ≠ KEEP.CYCLE_IDX) :
    Side ch (ch.put (pgKeep k) off v) := by
  refine Spares.put ch _ off v (fun hk => ?_)
  rw [pgKeep_key] at hk
  simp only [StateKey, OutsideKeepers] at hk
  simp only [KEEP.STATUS, KEEP.CLAIM, KEEP.CYCLE_IDX] at hs hc hi
  split at hk <;> omega

theorem raise (ch : Chan) (k n : Nat) : Side ch (ch.raise (pgKeep k) n) := Spares.raise (not_header k) ch n

theorem journal (ch : Chan) (p : Pg) (cls ev detail : Nat) : Side ch (ch.journal p cls ev detail) := Spares.journal not_journal ch p cls ev detail

theorem setDegraded (ch : Chan) (k : Nat) (on : Bool) : Side ch (ch.setDegraded (pgKeep k) on) := by
  have hput : Side ch (ch.putB (pgKeep k) STAT_DEGRADED on) := put ch k (off := STAT_DEGRADED.off) _ (by decide) (by decide) (by decide) (by decide)
  exact .ite (fun _ => hput.trans (raise _ k 2)) (fun _ => hput)

/-- What a keeper's gate, load and cycle change of it. -/
theorem putKeeper (ch : Chan) (k : Nat) {x : Keeper} (h : x.own = (ch.keeper k).own) : Side ch (ch.putKeeper k x) := by
  unfold Chan.putKeeper Chan.keeper at *
  split
  · rw [if_pos ‹_›] at h
    refine .of_work ?_ rfl rfl
    exact congrArg (fun y => sideStrip { quietOf { ch with keepA := y } with free := 0 }) (a₁ := x.own) (a₂ := ch.keepA.own) h
  · rw [if_neg ‹_›] at h
    refine .of_work ?_ rfl rfl
    exact congrArg (fun y => sideStrip { quietOf { ch with keepB := y } with free := 0 }) (a₁ := x.own) (a₂ := ch.keepB.own) h

theorem svcDone (ch : Chan) (k tag status : Nat) : Side ch (ch.svcDone k tag status) :=
  (put ch k (off := KEEP.SVC_STAT) _ (by decide) (by decide) (by decide) (by decide)).trans (raise _ k 13)

/-- A service command is stored (R111). -/
theorem svcIssue (ch : Chan) {k : Nat} {w : WReq} (hp : w.p = pgKeep k) (ho : w.off = KEEP.SVC_CMD) (tag op : Nat) : Side ch (ch.svcIssue w k tag op) := by
  have hput : Side ch (((ch.put w.p w.off w.merged).putF (pgKeep k) KEEP.SVC_STAT_DONE 0).putF (pgKeep k) KEEP.SVC_STAT_BUSY 1) := by
    rw [hp, ho]
    exact ((put ch k (off := KEEP.SVC_CMD) _ (by decide) (by decide) (by decide) (by decide)).trans (put _ k (off := KEEP.SVC_STAT) _ (by decide) (by decide) (by decide) (by decide))).trans
      (put _ k (off := KEEP.SVC_STAT) _ (by decide) (by decide) (by decide) (by decide))
  exact hput.trans (putKeeper _ k (x := { ch.keeper k with svcTag := tag, svcOp := op }) (by rw [hp]; rfl))

/-- The words of an answer. -/
theorem putList (k : Nat) : ∀ (l : List Nat) (ch : Chan) {off : Nat}, KEEP.CYCLE_IDX < off → off + 4 * l.length ≤ 65536 → Side ch (ch.putList (pgKeep k) off l)
  | [], ch, _, _, _ => .refl ch
  | _ :: l, ch, off, hlo, hhi => by
    rw [List.length_cons] at hhi
    simp only [KEEP.CYCLE_IDX] at hlo
    exact (put ch k (off := off) _ (by omega) (by simp only [KEEP.STATUS]; omega) (by simp only [KEEP.CLAIM]; omega) (by simp only [KEEP.CYCLE_IDX]; omega)).trans
      (putList k l _ (by simp only [KEEP.CYCLE_IDX]; omega) (by omega))

theorem svcOk (ch : Chan) (k tag : Nat) {l : List Nat} (h : l.length ≤ 8) : Side ch (ch.svcOk k tag l) :=
  (putList k l ch (by decide) (by simp only [KEEP.SVC_RESP]; omega)).trans (svcDone _ k tag 0)

theorem svcLost (ch : Chan) (k : Nat) : Side ch (ch.svcLost k) := .ite (fun _ => svcDone ch k _ 5) (fun _ => .refl ch)

theorem abortLoad (ch : Chan) (k : Nat) : Side ch (ch.abortLoad k) := by
  refine .ite (fun _ => ?_) (fun _ => .refl ch)
  have hput : Side ch (ch.putN (pgKeep k) KEEP.FW_STAT (2 ^ 30 + 0x0A)) := put ch k (off := KEEP.FW_STAT) _ (by decide) (by decide) (by decide) (by decide)
  exact (hput.trans (putKeeper _ k (x := { ch.keeper k with verified := false }) rfl)).trans (raise _ k 14)

theorem copyFail (ch : Chan) (k o : Nat) : Side ch (ch.copyFail k o) := by
  have hfields : Side ch { ch with inflight := none, copyBad := ch.copyBad + 1 } := .of_work rfl rfl rfl
  exact ((hfields.trans (put _ o (off := KEEP.COPY_FAIL_CNT) _ (by decide) (by decide) (by decide) (by decide))).trans (raise _ o 11)).trans (journal _ _ _ _ _)

theorem cutCopy (ch : Chan) : Side ch ch.cutCopy := .ite (fun _ => copyFail ch _ _) (fun _ => .refl ch)

/-- The operand words of the action unit's keeper port. -/
theorem putKarm (ch : Chan) {off : Nat} (v : Word) (hlo : 0x130 ≤ off) (hhi : off < 0x144) : Side ch (ch.put pgAct off v) := by
  refine Spares.put ch _ off v (fun hk => ?_)
  simp only [Pg.key, StateKey, OutsideKeepers] at hk
  norm_num at hk
  omega

theorem discardStaged (ch : Chan) (k : Nat) : Side ch (ch.discardStaged k) := by
  have hzero : ∀ d : Chan, Side d { d.putList pgAct 0x130 [0, 0, 0, 0, 0] with karmBy := 0 } := fun d => by
    have hwords : Side d (d.putList pgAct 0x130 [0, 0, 0, 0, 0]) :=
      ((((putKarm d _ (by decide) (by decide)).trans (putKarm _ _ (by decide) (by decide))).trans (putKarm _ _ (by decide) (by decide))).trans
        (putKarm _ _ (by decide) (by decide))).trans (putKarm _ _ (by decide) (by decide))
    exact hwords.trans (.of_work rfl rfl rfl)
  unfold Chan.discardStaged
  refine Spares.trans ((putKeeper ch k (x := { ch.keeper k with latch := if (ch.keeper k).latch.kind = 2 then {} else (ch.keeper k).latch }) rfl).trans
    (.ite (fun _ => hzero _) (fun _ => .refl _))) (.ite (fun _ => .refl _) (fun _ => ?_))
  exact (put _ k (off := KEEP.GATE_REJ_CNT) _ (by decide) (by decide) (by decide) (by decide)).trans (raise _ k 12)

/-- A keeper presents a claim (R86, R90). -/
theorem setClaim (ch : Chan) (k v : Nat) : Side (ch.putF (pgKeep k) KEEP.CLAIM_CLAIM v) (ch.setClaim k v) := by
  unfold Chan.setClaim Chan.withGate
  dsimp only
  split
  · exact .ite (fun _ => .refl _) (fun _ => discardStaged _ _)
  · exact .refl _

theorem setKstate (ch : Chan) (k st : Nat) : Side (ch.putF (pgKeep k) KEEP.STATUS_STATE st) (ch.setKstate k st) :=
  (putKeeper ch k (x := { ch.keeper k with ran := (ch.keeper k).ran || (decide (2 ≤ st) && decide (st ≤ 4)) }) rfl).putF k _ st

/-- A claim that is dropped (R80, R92). -/
theorem dropClaim (ch : Chan) (k reason : Nat) : Side (ch.putF (pgKeep k) KEEP.CLAIM_CLAIM 0) (ch.dropClaim k false reason) := by
  refine Spares.trans ((setClaim ch k 0).trans (svcLost _ k)) (.ite (fun _ => ?_) (fun _ => .refl _))
  exact (cutCopy _).trans (.of_work rfl rfl rfl)

theorem dropClaim_forced (ch : Chan) (k reason : Nat) :
    Side ((ch.putF (pgKeep k) KEEP.CLAIM_CLAIM 0).putF (pgKeep k) KEEP.CLAIM_FORCED 1) (ch.dropClaim k true reason) :=
  ((dropClaim ch k reason).putF k _ 1).trans (raise _ k 9)

theorem enterFailed (ch : Chan) (k result : Nat) :
    Side ((ch.putF (pgKeep k) KEEP.CLAIM_CLAIM 0).putF (pgKeep k) KEEP.STATUS_STATE 6) (ch.enterFailed k result) :=
  ((((putF ((setClaim ch k 0).trans (svcLost _ k)) k _ 6).trans (setKstate _ k 6)).trans (setDegraded _ k true)).trans (raise _ k 15)).trans
    (journal _ _ _ _ _)

end Side

namespace KeeperOnly

theorem put (ch : Chan) (k : Nat) {off : Nat} (v : Word) (ho : off < 65536) : KeeperOnly ch (ch.put (pgKeep k) off v) := by
  refine Spares.put ch _ off v (fun hk => ?_)
  rw [pgKeep_key, OutsideKeepers] at hk
  split at hk <;> omega

theorem putKeeper (ch : Chan) (k : Nat) (x : Keeper) : KeeperOnly ch (ch.putKeeper k x) := by
  unfold Chan.putKeeper
  exact .ite (fun _ => .of_work rfl rfl rfl) (fun _ => .of_work rfl rfl rfl)

theorem putState (ch : Chan) (k : Nat) (f : Fld) (v : Nat) (ho : f.off = KEEP.STATUS ∨ f.off = KEEP.CLAIM) : KeeperOnly ch (ch.putF (pgKeep k) f v) :=
  put ch k _ (by obtain h | h := ho <;> rw [h] <;> decide)

theorem dropClaim (ch : Chan) (k : Nat) (forced : Bool) (reason : Nat) : KeeperOnly ch (ch.dropClaim k forced reason) := by
  have hzero := putState ch k KEEP.CLAIM_CLAIM 0 (.inr rfl)
  cases forced
  · exact hzero.trans (Side.dropClaim ch k reason).keeperOnly
  · exact (hzero.trans (putState _ k KEEP.CLAIM_FORCED 1 (.inr rfl))).trans (Side.dropClaim_forced ch k reason).keeperOnly

end KeeperOnly

/-- The entries into REPAIR of keeper `k` that still count (R103). -/
def Chan.recentRepairs (ch : Chan) (k : Nat) : List Nat := (ch.keeper k).repairs.filter (fun t => decide (ch.ns ≤ t + 3600 * 1000000000))

/-- Keeper `k` as it enters REPAIR. -/
def Chan.repairing (ch : Chan) (k : Nat) : Chan :=
  ((ch.putKeeper k { ch.keeper k with
    repairs := ch.recentRepairs k ++ [ch.ns], absent := 0, waiting := false, chunks := 0, resync := false, handover := false, ue := false }).putF (pgKeep k)
      KEEP.STATUS_STATE 5).putF (pgKeep k) KEEP.STATUS_RESYNC_DONE 0

/-- It enters FAILED instead on its fourth entry. -/
def Chan.repaired (ch : Chan) (k : Nat) : Chan :=
  if 3 ≤ (ch.recentRepairs k).length then ((ch.repairing k).putF (pgKeep k) KEEP.CLAIM_CLAIM 0).putF (pgKeep k) KEEP.STATUS_STATE 6 else ch.repairing k

theorem Side.enterRepair (ch : Chan) (k : Nat) : Side (ch.repaired k) (ch.enterRepair k) := by
  have hc3 : ∀ d : Chan, Side ((d.putF (pgKeep k) KEEP.STATUS_STATE 5).putF (pgKeep k) KEEP.STATUS_RESYNC_DONE 0)
      ((((((d.setKstate k 5).putF (pgKeep k) KEEP.STATUS_RESYNC_DONE 0).inc (pgKeep k) KEEP.REPAIR_CNT).svcLost k).abortLoad k).journal (pgKeep k)
        clsDegraded 5 k) := fun d =>
    (((((setKstate d k 5).putF k _ 0).trans (put _ k (off := KEEP.REPAIR_CNT) _ (by decide) (by decide) (by decide) (by decide))).trans (svcLost _ k)).trans
      (abortLoad _ k)).trans (journal _ _ _ _ _)
  have hlen : (ch.recentRepairs k ++ [ch.ns]).length = (ch.recentRepairs k).length + 1 := List.length_append
  unfold Chan.enterRepair Chan.repaired
  by_cases hfourth : 3 ≤ (ch.recentRepairs k).length
  · rw [if_pos hfourth]
    refine (((hc3 _).putF k _ 0).putF k _ 6).trans ((Side.enterFailed _ k 0).trans ?_)
    dsimp only
    rw [if_pos (by rw [← Chan.recentRepairs, hlen]; omega)]
    exact .refl _
  · rw [if_neg hfourth]
    refine (hc3 _).trans ?_
    dsimp only
    rw [if_neg (by rw [← Chan.recentRepairs, hlen]; omega)]
    exact .refl _

/-- A field of a keeper's register after a write of another field of it. -/
theorem Chan.getF_putF_keep (ch : Chan) (k : Nat) {f g : Fld} (v : Nat) (ho : f.off = g.off) (hl : f.lo ≤ f.hi) (h32 : g.hi < 32) (hd : f.hi < g.lo ∨ g.hi < f.lo) :
    (ch.putF (pgKeep k) f v).getF (pgKeep k) g = ch.getF (pgKeep k) g := by
  rw [Chan.getF, Chan.getF, Chan.putF, ← ho, Chan.get_put_same]
  exact fld_setFld_ne _ _ _ _ _ _ hl h32 hd

/-- A field of another register of the keeper. -/
theorem Chan.getF_putF_reg (ch : Chan) (k : Nat) {f g : Fld} (v : Nat) (ho : f.off ≠ g.off) : (ch.putF (pgKeep k) f v).getF (pgKeep k) g = ch.getF (pgKeep k) g := by
  rw [Chan.getF, Chan.getF, Chan.putF, Chan.get_put_ne]
  rw [pgKeep_key, pgKeep_key]
  omega

theorem KeeperOnly.repaired (ch : Chan) (k : Nat) : KeeperOnly ch (ch.repaired k) := by
  have hbase : KeeperOnly ch (ch.repairing k) :=
    ((putKeeper ch k _).trans (putState _ k KEEP.STATUS_STATE 5 (.inl rfl))).trans (putState _ k KEEP.STATUS_RESYNC_DONE 0 (.inl rfl))
  exact .ite (fun _ => (hbase.trans (putState _ k KEEP.CLAIM_CLAIM 0 (.inr rfl))).trans (putState _ k KEEP.STATUS_STATE 6 (.inl rfl))) (fun _ => hbase)

theorem KeeperOnly.enterRepair (ch : Chan) (k : Nat) : KeeperOnly ch (ch.enterRepair k) :=
  (repaired ch k).trans (Side.enterRepair ch k).keeperOnly

theorem Chan.repairing_state (ch : Chan) (k : Nat) : (ch.repairing k).kstate k = 5 := by
  have hread : ∀ (d : Chan) (v : Nat), ((d.putF (pgKeep k) KEEP.STATUS_STATE v).putF (pgKeep k) KEEP.STATUS_RESYNC_DONE 0).kstate k = v % 8 := fun d v =>
    (Chan.getF_putF_keep (f := KEEP.STATUS_RESYNC_DONE) (g := KEEP.STATUS_STATE) _ k 0 rfl (by decide) (by decide) (by decide)).trans
      (Chan.getF_putF_same d (pgKeep k) KEEP.STATUS_STATE v (by decide) (by decide))
  exact hread _ 5

/-- A field of CLAIM is not the state's. -/
theorem Chan.repairing_claim (ch : Chan) (k : Nat) {f : Fld} (ho : f.off = KEEP.CLAIM) : (ch.repairing k).getF (pgKeep k) f = ch.getF (pgKeep k) f := by
  have hne : ∀ g : Fld, g.off = KEEP.STATUS → g.off ≠ f.off := fun g hg => by rw [hg, ho]; decide
  refine (Chan.getF_putF_reg _ k 0 (hne _ rfl)).trans ((Chan.getF_putF_reg _ k 5 (hne _ rfl)).trans ?_)
  unfold Chan.putKeeper
  split <;> rfl

/-- A keeper without a claim enters REPAIR, or FAILED (R92, R101, R103). -/
theorem Chan.enterRepair_state {ch : Chan} {k : Nat} (h : ch.claim k = 0) :
    (ch.enterRepair k).claim k = 0 ∧ (ch.enterRepair k).kstate k = (if 3 ≤ (ch.recentRepairs k).length then 6 else 5) ∧
      (ch.enterRepair k).getB (pgKeep k) KEEP.CLAIM_FORCED = ch.getB (pgKeep k) KEEP.CLAIM_FORCED := by
  have hside := Side.enterRepair ch k
  have hclaim : (ch.repairing k).claim k = 0 := (ch.repairing_claim k rfl).trans h
  have hforced := ch.repairing_claim k (f := KEEP.CLAIM_FORCED) rfl
  rw [hside.claim, hside.kstate, hside.getB k (.inr rfl), Chan.repaired]
  split
  · refine ⟨?_, ?_, ?_⟩
    · exact (Chan.getF_putF_reg _ k 6 (by decide)).trans (Chan.getF_putF_same _ _ _ _ (by decide) (by decide))
    · exact Chan.getF_putF_same _ _ _ _ (by decide) (by decide)
    · rw [Chan.getB, Chan.getB, ← hforced]
      exact congrArg (fun n => decide (n ≠ 0)) ((Chan.getF_putF_reg _ k 6 (by decide)).trans
        (Chan.getF_putF_keep (f := KEEP.CLAIM_CLAIM) (g := KEEP.CLAIM_FORCED) _ k 0 rfl (by decide) (by decide) (by decide)))
  · exact ⟨hclaim, ch.repairing_state k, by rw [Chan.getB, Chan.getB, hforced]⟩

/-- A dropped claim. -/
theorem Chan.dropClaim_claim (ch : Chan) (k : Nat) (forced : Bool) (reason : Nat) : (ch.dropClaim k forced reason).claim k = 0 ∧
    (forced = true → (ch.dropClaim k forced reason).getB (pgKeep k) KEEP.CLAIM_FORCED = true) := by
  have hzero : (ch.putF (pgKeep k) KEEP.CLAIM_CLAIM 0).claim k = 0 := Chan.getF_putF_same _ _ _ _ (by decide) (by decide)
  cases forced
  · exact ⟨((Side.dropClaim ch k reason).claim k).trans hzero, nofun⟩
  · have hside := Side.dropClaim_forced ch k reason
    refine ⟨(hside.claim k).trans ((Chan.getF_putF_keep (f := KEEP.CLAIM_FORCED) (g := KEEP.CLAIM_CLAIM) _ k 1 rfl (by decide) (by decide) (by decide)).trans hzero), fun _ => ?_⟩
    rw [hside.getB k (.inr rfl), Chan.getB, Chan.getF_putF_same _ _ _ _ (by decide) (by decide)]
    rfl

/-- The drop of a claim leaves the state of every keeper and its repairs. -/
theorem Chan.dropClaim_kept (ch : Chan) (k : Nat) (forced : Bool) (reason : Nat) : (ch.dropClaim k forced reason).ns = ch.ns ∧
    (∀ j, ((ch.dropClaim k forced reason).keeper j).own = (ch.keeper j).own) ∧
    (∀ j f, f.off = KEEP.STATUS → (ch.dropClaim k forced reason).getF (pgKeep j) f = ch.getF (pgKeep j) f) := by
  have hput : ∀ (d : Chan) (f : Fld) (v j : Nat) (g : Fld), f.off = KEEP.CLAIM → g.off = KEEP.STATUS →
      (d.putF (pgKeep k) f v).getF (pgKeep j) g = d.getF (pgKeep j) g := fun d f v j g hf hg => by
    rw [Chan.getF, Chan.getF, Chan.putF, Chan.get_put_ne]
    rw [pgKeep_key, pgKeep_key, hf, hg]
    simp only [KEEP.STATUS, KEEP.CLAIM]
    split <;> split <;> omega
  cases forced
  · have hside := Side.dropClaim ch k reason
    exact ⟨hside.ns, fun j => hside.keeper j, fun j f hf => (hside.getF j (.inl hf)).trans (hput ch _ 0 j f rfl hf)⟩
  · have hside := Side.dropClaim_forced ch k reason
    exact ⟨hside.ns, fun j => hside.keeper j, fun j f hf => (hside.getF j (.inl hf)).trans ((hput _ _ 1 j f rfl hf).trans (hput ch _ 0 j f rfl hf))⟩

end Sys2Proof.Machine
end
section
set_option Elab.async false
/-! The keepers' failures (R80, R92, R101–R103, R110). -/

namespace Sys2Proof.Machine

/-- The frame of a keeper's effect that runs in `t`, which `s` has led to. -/
theorem keeperFrame_of_run {s t : State} {c : Fin 4} {f : Chan → Chan} (hothers : ∀ d, d ≠ c → t.chan d = s.chan d) (hisl : SameIsland s.isl t.isl)
    (hplain : NoFatal (f (t.chan c)).outQ)
    (hwork : keeperStrip { quietOf (f (t.chan c)) with free := 0 } = keeperStrip { quietOf (s.chan c) with free := 0 })
    (hregs : ∀ key, OutsideKeepers key → ¬ ClockReg (s.chan c) key → rget chanReset (f (t.chan c)).regs key = rget chanReset (s.chan c).regs key) :
    KeeperFrame s (t.runChan c f) c ∧ Calm (f (t.chan c)) ((t.runChan c f).chan c) := by
  obtain ⟨hchan, hisl'⟩ := State.runChan_noFatal hplain
  have hcalm := State.runChan_calm hplain
  refine ⟨⟨fun d hd => by rw [hchan, if_neg hd, hothers d hd], hisl.trans hisl', (congrArg keeperStrip hcalm.work).trans hwork, fun key hkey hbut => ?_⟩, hcalm⟩
  have hpages : key / 65536 ≠ 0 ∧ key / 65536 ≠ 1 ∧ key / 65536 ≠ 0x200 := by
    simp only [List.map_cons, List.map_nil, Pg.key, List.mem_cons, List.not_mem_nil, or_false, not_or] at hkey
    norm_num at hkey
    omega
  rw [not_or] at hbut
  exact (hcalm.regs key (by simpa [Pg.key] using hpages.2.1)).trans (hregs key ⟨hpages.1, hpages.2.1, hpages.2.2, hbut.2⟩ hbut.1)

/-- The frame of a keeper's event, before which the clock may run. -/
theorem KeeperOnly.frame {s : State} {c : Fin 4} {f : Chan → Chan} {x : Chan} (hq : NoFatal (s.chan c).outQ) (hticks : Ticks (s.chan c) x)
    (h : KeeperOnly x (f (s.chan c))) : KeeperFrame s (s.runChan c f) c ∧ Calm (f (s.chan c)) ((s.runChan c f).chan c) :=
  keeperFrame_of_run (fun _ _ => rfl) rfl (h.outs (hticks.noFatal hq))
    (by
      have hrun := congrArg (fun y => keeperStrip { quietOf y with free := 0 }) hticks.work
      exact h.work.trans hrun)
    (fun key hout hclock => (h.regs key hout).trans (hticks.regs key (fun hc => hclock hc.clockReg)))

/-- The frame of an effect on the keepers, after an access to a page of theirs or of the journal. -/
theorem HeaderStep.keeperFrame {s t : State} {c : Fin 4} {p : Pg} {f : Chan → Chan} (ht : HeaderStep p c s t)
    (hp : ∀ key, OutsideKeepers key → ¬ InHeader p key) (hq : (s.chan c).outQ = []) (h : KeeperOnly (t.chan c) (f (t.chan c))) :
    KeeperFrame s (t.runChan c f) c ∧ Calm (f (t.chan c)) ((t.runChan c f).chan c) :=
  keeperFrame_of_run ht.others ht.isl (h.outs (ht.chan.noFatal (noFatal_of_nil hq)))
    (by
      have hrun := congrArg (fun y => keeperStrip { quietOf y with free := 0 }) ht.chan.work
      exact h.work.trans hrun)
    (fun key hout _ => (h.regs key hout).trans (ht.chan.regs key (hp key hout)))

/-- A keeper's event on a running channel. -/
theorem State.onKeeper_of_ready {s : State} {c : Fin 4} (h : Ready s c) (f : Chan → Chan) : s.onKeeper c f = s.runChan c f := if_pos h.1

theorem calm_keep {a b : Chan} (h : Calm a b) (k : Nat) {f : Fld} (ho : f.off < 65536) : b.getF (pgKeep k) f = a.getF (pgKeep k) f := by
  rw [Chan.getF, Chan.getF, calm_get h ho (by rw [pgKeep_key]; split <;> decide)]

theorem calm_keeper {a b : Chan} (h : Calm a b) (k : Nat) : b.keeper k = a.keeper k := by
  have hA := congrArg (fun x : Chan => x.keepA) h.work
  have hB := congrArg (fun x : Chan => x.keepB) h.work
  unfold Chan.keeper
  split
  · exact hA
  · exact hB

/-- The clock leaves the keepers' registers and state. -/
theorem Ticks.keep {a b : Chan} (h : Ticks a b) (k : Nat) {f : Fld} (hlo : 0x100 ≤ f.off) (hhi : f.off < 65536) : b.getF (pgKeep k) f = a.getF (pgKeep k) f := by
  rw [Chan.getF, Chan.getF, h.get (fun ch hk => ?_)]
  rw [pgKeep_key] at hk
  rcases hk with ⟨-, hreg⟩ | ⟨g, hg, he⟩
  · simp only [CountReg, oCAUSE, oFIRST, oOVF] at hreg
    split at hreg <;> omega
  · simp only [SLOT.IDLE_BLK, Pg.key] at he
    norm_num at he
    split at he <;> omega

theorem Ticks.keeper {a b : Chan} (h : Ticks a b) (k : Nat) : b.keeper k = a.keeper k := by
  have hA := congrArg (fun x : Chan => x.keepA) h.work
  have hB := congrArg (fun x : Chan => x.keepB) h.work
  unfold Chan.keeper
  split
  · exact hA
  · exact hB

theorem Chan.onKeep_keeper (ch : Chan) (k : Nat) (f : Keeper → Keeper) : (ch.onKeep k f).keeper k = f (ch.keeper k) := by
  unfold Chan.onKeep Chan.putKeeper Chan.keeper
  split <;> rfl

theorem Chan.onKeep_getF (ch : Chan) (k : Nat) (f : Keeper → Keeper) (j : Nat) (g : Fld) : (ch.onKeep k f).getF (pgKeep j) g = ch.getF (pgKeep j) g := by
  unfold Chan.onKeep Chan.putKeeper
  split <;> rfl

/-- A keeper that drops its claim and enters REPAIR. -/
theorem Chan.dropRepair (ch : Chan) (k : Nat) (forced : Bool) (reason : Nat) :
    KeeperOnly ch ((ch.dropClaim k forced reason).enterRepair k) ∧ ((ch.dropClaim k forced reason).enterRepair k).claim k = 0 ∧
    ((ch.dropClaim k forced reason).enterRepair k).kstate k = (if 3 ≤ (ch.recentRepairs k).length then 6 else 5) ∧
    (forced = true → ((ch.dropClaim k forced reason).enterRepair k).getB (pgKeep k) KEEP.CLAIM_FORCED = true) := by
  obtain ⟨hclaim, hforced⟩ := ch.dropClaim_claim k forced reason
  obtain ⟨hns, hkeeper, -⟩ := ch.dropClaim_kept k forced reason
  have hrecent : (ch.dropClaim k forced reason).recentRepairs k = ch.recentRepairs k := by
    have hrep : ((ch.dropClaim k forced reason).keeper k).repairs = (ch.keeper k).repairs := by
      have hown := congrArg Keeper.repairs (hkeeper k)
      exact hown
    rw [Chan.recentRepairs, Chan.recentRepairs, hns, hrep]
  obtain ⟨hclaim', hstate, hforced'⟩ := Chan.enterRepair_state hclaim
  refine ⟨(KeeperOnly.dropClaim ch k forced reason).trans (KeeperOnly.enterRepair _ k), hclaim', by rw [hstate, hrecent], fun h => hforced'.trans (hforced h)⟩

end Sys2Proof.Machine

namespace Sys2Proof.Proofs

open Sys2Proof Sys2Proof.Machine

section
variable {i : Instr} {s : State} {c : Fin 4} {f : Chan → Chan} {x : Chan} {P : State → Prop}

/-- A keeper's event: the frame, and the channel as the effect leaves it but for the journal. -/
theorem completes_keeper (hr : Ready s c) (hi : exec i s = .next (s.onKeeper c f)) (hticks : Ticks (s.chan c) x) (h : KeeperOnly x (f (s.chan c)))
    (hP : ∀ u : State, KeeperFrame s u c → Calm (f (s.chan c)) (u.chan c) → P u) : Completes i s P := by
  obtain ⟨hframe, hcalm⟩ := h.frame (noFatal_of_nil hr.2) hticks
  rw [State.onKeeper_of_ready hr] at hi
  exact ⟨_, hi, hP _ hframe hcalm⟩

end

/-- A keeper that drops its claim and enters REPAIR, with what is journalled of it. -/
theorem completes_failure {i : Instr} {s : State} {c : Fin 4} {f : Chan → Chan} {k : Nat} {x : Chan} {forced : Bool} {reason : Nat} {P : State → Prop}
    (hr : Ready s c) (hi : exec i s = .next (s.onKeeper c f)) (hticks : Ticks (s.chan c) x)
    (h : Side ((x.dropClaim k forced reason).enterRepair k) (f (s.chan c)))
    (hP : ∀ u : State, KeeperFrame s u c → (u.chan c).claim k = 0 → (u.chan c).kstate k = (if 3 ≤ (x.recentRepairs k).length then 6 else 5) →
      (forced = true → (u.chan c).getB (pgKeep k) KEEP.CLAIM_FORCED = true) → P u) : Completes i s P := by
  obtain ⟨honly, hclaim, hstate, hforced⟩ := x.dropRepair k forced reason
  refine completes_keeper hr hi hticks (honly.trans h.keeperOnly) (fun u hframe hcalm => hP u hframe ?_ ?_ (fun hf => ?_))
  · exact (calm_keep hcalm k (by decide)).trans ((h.claim k).trans hclaim)
  · exact (calm_keep hcalm k (by decide)).trans ((h.kstate k).trans hstate)
  · rw [Chan.getB, calm_keep hcalm k (by decide), ← Chan.getB, h.getB k (.inr rfl)]
    exact hforced hf

/-- An uncorrectable error in a keeper's SRAM: what it does to the keeper, and REGION_VALID (R92, R621). -/
theorem completes_sramUe {s : State} {c : Fin 4} {k : Fin 2} {rep : Bool} {y : Chan} {P : State → Prop} (hr : Ready s c)
    (hy : (s.chan c).sramUe k.val = y) (honly : KeeperOnly (s.chan c) y)
    (hP : ∀ u : State, KeeperFrame s u c → (u.chan c).claim k.val = y.claim k.val → (u.chan c).kstate k.val = y.kstate k.val →
      (u.chan c).keeper k.val = y.keeper k.val → (rep = true → (u.chan c).getB (pgKeep k.val) KEEP.STATUS_REGION_VALID = false) → P u) :
    Completes (.keeperSramUe c k rep) s P := by
  obtain ⟨f, hf, hexec⟩ : ∃ f, f (s.chan c) = (if rep then y.putF (pgKeep k.val) KEEP.STATUS_REGION_VALID 0 else y) ∧
      exec (.keeperSramUe c k rep) s = .next (s.onKeeper c f) := ⟨_, by rw [← hy], rfl⟩
  have hclaim : (y.putF (pgKeep k.val) KEEP.STATUS_REGION_VALID 0).claim k.val = y.claim k.val := Chan.getF_putF_reg y k.val 0 (by decide)
  have hstate : (y.putF (pgKeep k.val) KEEP.STATUS_REGION_VALID 0).kstate k.val = y.kstate k.val :=
    Chan.getF_putF_keep (f := KEEP.STATUS_REGION_VALID) (g := KEEP.STATUS_STATE) y k.val 0 rfl (by decide) (by decide) (by decide)
  have hvalid : (y.putF (pgKeep k.val) KEEP.STATUS_REGION_VALID 0).getF (pgKeep k.val) KEEP.STATUS_REGION_VALID = 0 :=
    Chan.getF_putF_same y (pgKeep k.val) KEEP.STATUS_REGION_VALID 0 (by decide) (by decide)
  have honly' : KeeperOnly (s.chan c) (f (s.chan c)) := by
    rw [hf]
    exact honly.trans (.ite (fun _ => KeeperOnly.putState _ _ _ _ (.inl rfl)) (fun _ => .refl _))
  refine completes_keeper hr hexec (.refl _) honly' (fun u hframe hcalm => ?_)
  rw [hf] at hcalm
  have hclaim' := calm_keep hcalm k.val (f := KEEP.CLAIM_CLAIM) (by decide)
  have hstate' := calm_keep hcalm k.val (f := KEEP.STATUS_STATE) (by decide)
  have hvalid' := calm_keep hcalm k.val (f := KEEP.STATUS_REGION_VALID) (by decide)
  have hkeeper := calm_keeper hcalm k.val
  cases rep
  · exact hP u hframe hclaim' hstate' hkeeper nofun
  · refine hP u hframe (hclaim'.trans hclaim) (hstate'.trans hstate) hkeeper (fun _ => ?_)
    rw [Chan.getB, hvalid', if_pos rfl, hvalid]
    rfl

/-- Settles O21: a keeper that fails drops its claim and enters REPAIR, or FAILED on its fourth entry. -/
theorem keeperFailures : Obligations.KeeperFailures := by
  refine ⟨fun s c k hr => ⟨fun hruns => ?_, fun hruns => ?_, fun rep hruns => ?_, fun rep hhalt => ?_, fun rep hoff => ?_⟩,
    fun s c k hr hmiss hwatch hclaim => ?_, fun s c k hr hact hhand hfly => ?_⟩
  · obtain ⟨f, hf, hexec⟩ : ∃ f, f (s.chan c) = (((s.chan c).dropClaim k.val true 1).enterRepair k.val).journal (pgKeep k.val) clsDegraded 2 (k.val + 2 ^ 8) ∧
        exec (.lockstepMismatch c k) s = .next (s.onKeeper c f) := ⟨_, if_pos hruns, rfl⟩
    exact completes_failure hr hexec (.refl _) (by rw [hf]; exact .journal _ _ _ _ _)
      (fun u hframe hclaim hstate hforced => ⟨hframe, ⟨hclaim, hstate⟩, hforced rfl⟩)
  · obtain ⟨f, hf, hexec⟩ : ∃ f, f (s.chan c) = ((s.chan c).dropClaim k.val false 0).enterRepair k.val ∧
        exec (.selfDiagFail c k) s = .next (s.onKeeper c f) := ⟨_, if_pos hruns, rfl⟩
    exact completes_failure hr hexec (.refl _) (by rw [hf]; exact .refl _) (fun u hframe hclaim hstate _ => ⟨hclaim, hstate⟩)
  · obtain ⟨honly, hclaim, hstate, -⟩ := (s.chan c).dropRepair k.val false 6
    exact completes_sramUe hr (if_pos hruns) honly (fun u hframe hclaim' hstate' _ hvalid =>
      ⟨hframe, ⟨hclaim'.trans hclaim, hstate'.trans hstate⟩, hvalid⟩)
  · have hruns : ¬ (s.chan c).coresRun k.val = true := by simp [Chan.coresRun, hhalt]
    obtain ⟨hclaim, -⟩ := (s.chan c).dropClaim_claim k.val false 6
    obtain ⟨-, -, hstate⟩ := (s.chan c).dropClaim_kept k.val false 6
    obtain ⟨d, hd⟩ : ∃ d, d = (s.chan c).dropClaim k.val false 6 := ⟨_, rfl⟩
    refine completes_sramUe hr (y := d.onKeep k.val (fun x => { x with ue := true })) ?_ ?_ (fun u hframe hclaim' hstate' hkeeper hvalid => ?_)
    · rw [hd]
      exact (if_neg hruns).trans (if_pos hhalt)
    · rw [hd]
      exact (KeeperOnly.dropClaim _ _ _ _).trans (KeeperOnly.putKeeper _ _ _)
    · have hclaim'' := hclaim'.trans (Chan.onKeep_getF d _ _ _ KEEP.CLAIM_CLAIM)
      have hstate'' := hstate'.trans (Chan.onKeep_getF d _ _ _ KEEP.STATUS_STATE)
      rw [hd] at hclaim'' hstate''
      refine ⟨hframe, hclaim''.trans hclaim, hstate''.trans ((hstate _ KEEP.STATUS_STATE rfl).trans hhalt), ?_, hvalid⟩
      rw [hkeeper, Chan.onKeep_keeper]
  · have hruns : ¬ (s.chan c).coresRun k.val = true := by obtain h | h := hoff <;> simp [Chan.coresRun, h]
    have hhalt : ¬ (s.chan c).kstate k.val = 7 := by omega
    exact completes_sramUe hr ((if_neg hruns).trans (if_neg hhalt)) (.refl _) (fun u hframe _ hstate _ hvalid => ⟨hframe, hstate, hvalid⟩)
  · obtain ⟨x, hx⟩ : ∃ x, x = (s.chan c).runTo ((s.chan c).cycAt + 1000) := ⟨_, rfl⟩
    have hticks : Ticks (s.chan c) x := by
      rw [hx]
      exact Ticks.runTo _ _
    have hguard : (s.chan c).getF (pgKeep k.val) KEEP.WDOG_MISSES = 4 ∧ (s.chan c).watched k.val = true ∧ (s.chan c).claim k.val ≠ 0 :=
      ⟨hmiss, hwatch, hclaim⟩
    by_cases hhalt : (s.chan c).kstate k.val = 7
    · obtain ⟨f, hf, hexec⟩ : ∃ f, f (s.chan c) = (x.dropClaim k.val true 2).journal (pgKeep k.val) clsDegraded 2 (k.val + 2 * 2 ^ 8) ∧
          exec (.wdogForceClaim c k) s = .next (s.onKeeper c f) := ⟨_, (if_pos hguard).trans (by dsimp only; rw [if_pos hhalt, hx]), rfl⟩
      obtain ⟨hclaim, hforced⟩ := x.dropClaim_claim k.val true 2
      have hside : Side (x.dropClaim k.val true 2) (f (s.chan c)) := by
        rw [hf]
        exact .journal _ _ _ _ _
      refine completes_keeper hr hexec hticks ((KeeperOnly.dropClaim x k.val true 2).trans hside.keeperOnly) (fun u hframe hcalm => ⟨hframe, ?_, ?_, fun hno => absurd hhalt hno⟩)
      · exact (calm_keep hcalm k.val (by decide)).trans ((hside.claim k.val).trans hclaim)
      · rw [Chan.getB, calm_keep hcalm k.val (by decide), ← Chan.getB, hside.getB k.val (.inr rfl)]
        exact hforced rfl
    · obtain ⟨f, hf, hexec⟩ : ∃ f, f (s.chan c) =
          (((x.dropClaim k.val true 2).enterRepair k.val).putF (pgKeep k.val) KEEP.WDOG_MISSES 0).journal (pgKeep k.val) clsDegraded 2 (k.val + 2 * 2 ^ 8) ∧
          exec (.wdogForceClaim c k) s = .next (s.onKeeper c f) := ⟨_, (if_pos hguard).trans (by dsimp only; rw [if_neg hhalt, hx]), rfl⟩
      refine completes_failure hr hexec hticks (forced := true) (reason := 2) ?_ (fun u hframe hclaim hstate hforced => ⟨hframe, hclaim, hforced rfl, fun _ => ?_⟩)
      · rw [hf]
        exact (Side.put _ _ (off := KEEP.WDOG_MISSES.off) _ (by decide) (by decide) (by decide) (by decide)).trans (Side.journal _ _ _ _ _)
      · rw [hstate]
        split <;> simp
  · obtain ⟨x, hx⟩ : ∃ x, x = (s.chan c).runTo (s.chan c).inflightEnd := ⟨_, rfl⟩
    obtain ⟨f, hf, hexec⟩ : ∃ f, f (s.chan c) = (x.dropClaim k false 3).enterRepair k ∧ exec (.handoverClaimDrop c) s = .next (s.onKeeper c f) := by
      refine ⟨_, ?_, rfl⟩
      rw [hact]
      exact (if_pos ⟨hhand, hfly⟩).trans (by rw [hx])
    have hticks : Ticks (s.chan c) x := by
      rw [hx]
      exact Ticks.runTo _ _
    refine completes_failure hr hexec hticks (by rw [hf]; exact .refl _) (fun u hframe hclaim hstate _ => ⟨hframe, hclaim, ?_⟩)
    rw [hstate]
    split <;> simp

end Sys2Proof.Proofs
end
section
set_option Elab.async false
/-! The service commands of a keeper, and the journal as the host reads it (R111, R112, R126–R128). -/

namespace Sys2Proof.Machine

open Sys2Proof.Tests

/-- A list of registers leaves the registers below it. -/
theorem Chan.get_putList_ne {p : Pg} (l : List Nat) (d : Chan) {off a : Nat} (h : ∀ b, off ≤ b → b < off + 4 * l.length → p.key a ≠ p.key b) :
    (d.putList p off l).get p a = d.get p a := by
  induction l generalizing d off with
  | nil => rfl
  | cons w ws ih =>
    rw [List.length_cons] at h
    exact (ih _ (fun b hlo hhi => h b (by omega) (by omega))).trans (Chan.get_put_ne _ _ (h off le_rfl (by omega)))

/-- A word of a list of registers. -/
theorem Chan.nat_putList {p : Pg} (l : List Nat) (d : Chan) {off i : Nat} (hkey : ∀ a b, a < b → b < 65536 → p.key a ≠ p.key b)
    (hhi : off + 4 * l.length ≤ 65536) (h : i < l.length) : (d.putList p off l).nat p (off + 4 * i) = l[i] % 2 ^ 32 := by
  induction l generalizing d off i with
  | nil => exact nomatch h
  | cons w ws ih =>
    rw [List.length_cons] at hhi h
    cases i with
    | zero =>
      have hfirst : (d.putList p off (w :: ws)).get p off = (d.putN p off w).get p off :=
        Chan.get_putList_ne ws _ (fun b hlo hb => hkey off b (by omega) (by omega))
      rw [Nat.mul_zero, Nat.add_zero, Chan.nat, hfirst, Chan.putN, Chan.get_put_same, BitVec.toNat_ofNat]
      rfl
    | succ i =>
      have hnext := ih (d.putN p off w) (off := off + 4) (i := i) (by omega) (by omega)
      rw [show off + 4 * (i + 1) = off + 4 + 4 * i by omega]
      exact hnext

/-- What is answered: SVC_STAT shows the tag and OK, and the first word of the answer. -/
theorem Chan.svcOk_shown (ch : Chan) (k : Fin 2) {tag : Nat} (ht : tag < 256) (l : List Nat) :
    (ch.svcOk k.val tag l).nat (pgKeep k.val) KEEP.SVC_STAT = 2 ^ 30 + tag * 2 ^ 16 + 0 := Chan.nat_svcDone _ k ht (by decide)

theorem Chan.svcOk_word (ch : Chan) (k : Fin 2) (tag : Nat) {l : List Nat} {i : Nat} (hl : l.length ≤ 8) (h : i < l.length) :
    (ch.svcOk k.val tag l).nat (pgKeep k.val) (KEEP.SVC_RESP 0 + 4 * i) = l[i] % 2 ^ 32 := by
  have hraise := HeaderOnly.raiseMask (pgKeep k.val)
    ((ch.putList (pgKeep k.val) (KEEP.SVC_RESP 0) l).putN (pgKeep k.val) KEEP.SVC_STAT (2 ^ 30 + tag % 256 * 2 ^ 16 + 0 % 256)) (m := 2 ^ 13) rfl rfl
  have hkey : ∀ a b, a ≠ b → (pgKeep k.val).key a ≠ (pgKeep k.val).key b := fun a b hab => by
    rw [pgKeep_key, pgKeep_key]
    omega
  rw [Chan.svcOk, Chan.svcDone, Chan.raise, Chan.nat, hraise.get (pgKeep_key_notInHeader k (by simp only [KEEP.SVC_RESP]; omega)), Chan.putN,
    Chan.get_put_ne _ _ (hkey _ _ (by simp only [KEEP.SVC_RESP, KEEP.SVC_STAT]; omega))]
  exact Chan.nat_putList l ch (fun a b hab _ => hkey a b hab.ne) (by simp only [KEEP.SVC_RESP]; omega) h

/-- A service command of an active keeper whose arguments are good (R111). -/
theorem Chan.svcRun_active {d : Chan} {k tag : Nat} (h : d.kstate k = 4) (anyKeeper refused : Bool) (eff : Chan → Chan) :
    d.svcRun k tag anyKeeper false refused false false eff = if refused then d.svcDone k tag 4 else eff d := by
  have hruns : d.fwRuns k = true := by simp [Chan.fwRuns, h]
  rw [Chan.svcRun, if_neg (by simp [hruns]), if_neg (by simp [h]), if_neg (by decide)]
  rfl

theorem Side.fusedSvn {a b : Chan} (h : Side a b) : b.fusedSvn = a.fusedSvn := by
  have hwork := congrArg (fun x : Chan => x.fusedSvn) h.work
  exact hwork

/-- What a keeper is and holds, but for what its cycle changes. -/
theorem Side.handover {a b : Chan} (h : Side a b) (k : Nat) : (b.keeper k).handover = (a.keeper k).handover := by
  have hown := congrArg Keeper.handover (h.keeper k)
  exact hown

theorem Side.img {a b : Chan} (h : Side a b) (k : Nat) : (b.keeper k).img = (a.keeper k).img := by
  have hown := congrArg Keeper.img (h.keeper k)
  exact hown

theorem calm_nat {a b : Chan} (h : Calm a b) (k : Nat) {off : Nat} (ho : off < 65536) : b.nat (pgKeep k) off = a.nat (pgKeep k) off :=
  congrArg BitVec.toNat (calm_get h ho (by rw [pgKeep_key]; split <;> decide))

/-! The journal. -/

theorem Chan.active_congr {a b : Chan} (h : ∀ k, b.kstate k = a.kstate k) : b.active = a.active := by
  have h0 : b.getF pgKeepA KEEP.STATUS_STATE = a.getF pgKeepA KEEP.STATUS_STATE := h 0
  have h1 : b.getF pgKeepB KEEP.STATUS_STATE = a.getF pgKeepB KEEP.STATUS_STATE := h 1
  rw [Chan.active, Chan.active, h0, h1]

theorem HeaderOnly.kstate_jrnl {a b : Chan} (h : HeaderOnly pgJrnl a b) (k : Nat) : b.kstate k = a.kstate k :=
  h.getF (not_inHeader_of_page (by decide) (by rw [pgKeep_key]; split <;> decide))

theorem HeaderOnly.region {p : Pg} {a b : Chan} (h : HeaderOnly p a b) (k : Nat) : b.region k = a.region k := by
  have hA := congrArg (fun x : Chan => x.regA) h.work
  have hB := congrArg (fun x : Chan => x.regB) h.work
  unfold Chan.region
  split
  · exact hA
  · exact hB

theorem Chan.region_putJrnl (ch : Chan) (k : Nat) (j : Jrnl) : (ch.putJrnl k j).region k = { ch.region k with jrnl := j } := by
  unfold Chan.putJrnl Chan.putRegion Chan.region
  split <;> rfl

theorem KeeperOnly.of_quiet {a b : Chan} (h : Quiet a b) (ho : NoFatal a.outQ → NoFatal b.outQ) : KeeperOnly a b := by
  obtain ⟨hwork, hregs⟩ := h
  exact ⟨congrArg (fun x => keeperStrip { x with free := 0 }) hwork, fun key hk => hregs key (fun he => hk.2.1 he), ho⟩

/-- An entry that is no fatal event's freezes no journal (R126). -/
theorem Jrnl.write_frozen {j : Jrnl} (modeStop freezeOnFatal stream : Bool) {e : Nat} (hj : j.frozen = false) (hcls : jrnlClass e = 0) :
    (j.write modeStop freezeOnFatal stream e).1.frozen = false := by
  have hplace : (j.place stream e).1.frozen = false := by
    unfold Jrnl.place
    dsimp only
    split
    · exact hj
    · split <;> exact hj
  have hplain : ¬ (freezeOnFatal = true ∧ (jrnlClass e = clsChanFatal ∨ jrnlClass e = clsPkgFatal)) := by
    rw [hcls]
    decide +revert
  unfold Jrnl.write
  dsimp only
  rw [if_neg (by rw [hj]; decide), if_neg hplain]
  split_ifs
  · exact hj
  · exact hj
  · exact hplace

/-- The class of an entry is the one that it was made with. -/
theorem jrnlClass_jrnlEntry (t64 quality source cls ev detail : Nat) : jrnlClass (jrnlEntry t64 quality source cls ev detail) = cls % 16 := by
  simp only [jrnlClass, jrnlEntry, nbits, Nat.shiftRight_eq_div_pow]
  omega

/-- The journal that an entry leaves, and the causes that it raises. -/
theorem Chan.jrnlPut_header (ch : Chan) (k e : Nat) : ∃ j : Jrnl, HeaderOnly pgJrnl ((ch.putJrnl k j).syncJrnl j) (ch.jrnlPut k e) ∧
    ((ch.region k).jrnl.frozen = false → jrnlClass e = 0 → j.frozen = false) := by
  have hwhen : ∀ (c : Chan) (q : Bool) (n : Nat), nbit (2 ^ n) 0 = false → nbit (2 ^ n) 2 = false → HeaderOnly pgJrnl c (c.when q (fun d => d.raise pgJrnl n)) :=
    fun c q n h0 h2 => by
      unfold Chan.when
      split
      · exact HeaderOnly.raiseMask pgJrnl c h0 h2
      · exact .refl _ c
  refine ⟨_, ((hwhen _ _ 8 (by decide) (by decide)).trans (hwhen _ _ 9 (by decide) (by decide))).trans (hwhen _ _ 10 (by decide) (by decide)), fun hfrozen hcls => ?_⟩
  split
  · exact Jrnl.write_frozen _ _ _ hfrozen hcls
  · exact hfrozen

/-- Unfreezing the journal of the active keeper (R126). -/
theorem Chan.jrnlUnfreeze_frozen {ch : Chan} {k : Nat} (hact : ch.active = some k) : Quiet ch ch.jrnlUnfreeze ∧ (OnlyIrqs ch.outQ → OnlyIrqs ch.jrnlUnfreeze.outQ) ∧
    (ch.jrnlUnfreeze.region k).jrnl.frozen = false := by
  simp only [Chan.jrnlUnfreeze, hact]
  split
  · obtain ⟨d, hd⟩ : ∃ d, d = ch.putJrnl k { (ch.region k).jrnl with frozen := false, frozenDrop := 0 } := ⟨_, rfl⟩
    have hfrozen : (d.region k).jrnl.frozen = false := by rw [hd, Chan.region_putJrnl]
    rw [← hd]
    obtain ⟨j, hheader, hj⟩ := d.jrnlPut_header k (jrnlEntry ch.t64 ch.quality pgJrnl.source clsNone 4 ((ch.region k).jrnl.frozenDrop % 2 ^ 32))
    refine ⟨?_, fun h => hheader.onlyIrqs ?_, ?_⟩
    · rw [hd]
      exact (Quiet.putJrnl ch k _).trans (Quiet.jrnlPut _ k _)
    · rw [show ((d.putJrnl k j).syncJrnl j).outQ = (d.putJrnl k j).outQ from rfl, Chan.putJrnl_outQ, hd, Chan.putJrnl_outQ]
      exact h
    · rw [hheader.region, show ((d.putJrnl k j).syncJrnl j).region k = (d.putJrnl k j).region k from rfl, Chan.region_putJrnl]
      exact hj hfrozen (jrnlClass_jrnlEntry _ _ _ _ _ _)
  · rename_i hopen
    exact ⟨.refl ch, id, by simpa using hopen⟩

/-- Emptying it (R127). -/
theorem Chan.jrnlClear_cleared {ch : Chan} {k : Nat} (hact : ch.active = some k) : Quiet ch ch.jrnlClear ∧ ch.jrnlClear.outQ = ch.outQ ∧
    (ch.jrnlClear.region k).jrnl.entries = [] ∧ (ch.jrnlClear.region k).jrnl.count = 0 ∧ (ch.jrnlClear.region k).jrnl.seq = (ch.region k).jrnl.seq := by
  simp only [Chan.jrnlClear, hact]
  have hregion : ∀ j : Jrnl, ((ch.putJrnl k j).syncJrnl j).region k = { ch.region k with jrnl := j } := fun j => Chan.region_putJrnl ch k j
  refine ⟨(Quiet.putJrnl ch k _).trans (Quiet.syncJrnl _ _), Chan.putJrnl_outQ ch k _, ?_⟩
  rw [hregion]
  exact ⟨rfl, rfl, rfl⟩

/-- A write of JRNL.CTRL that asks for one of the two. -/
theorem jrnlCtrlHook_unfreeze {w : WReq} {n : Nat} (ch : Chan) (hv : w.v = BitVec.ofNat 32 (n % 16 + 16)) :
    jrnlCtrlHook w ch = (ch.put w.p w.off w.merged).jrnlUnfreeze := by
  have hbits : nbit (n % 16 + 16) 4 = true ∧ nbit (n % 16 + 16) 5 = false := by
    simp only [nbit, Nat.shiftRight_eq_div_pow, beq_iff_eq, beq_eq_false_iff_ne]
    omega
  have h4 : bit w.v 4 = true := by rw [hv, bit_ofNat (by decide), hbits.1]
  have h5 : bit w.v 5 = false := by rw [hv, bit_ofNat (by decide), hbits.2]
  simp [jrnlCtrlHook, h4, h5]

theorem jrnlCtrlHook_clear {w : WReq} {n : Nat} (ch : Chan) (hv : w.v = BitVec.ofNat 32 (n % 16 + 32)) :
    jrnlCtrlHook w ch = (ch.put w.p w.off w.merged).jrnlClear := by
  have hbits : nbit (n % 16 + 32) 4 = false ∧ nbit (n % 16 + 32) 5 = true := by
    simp only [nbit, Nat.shiftRight_eq_div_pow, beq_iff_eq, beq_eq_false_iff_ne]
    omega
  have h4 : bit w.v 4 = false := by rw [hv, bit_ofNat (by decide), hbits.1]
  have h5 : bit w.v 5 = true := by rw [hv, bit_ofNat (by decide), hbits.2]
  simp [jrnlCtrlHook, h4, h5]

theorem jrnlPg_key (die off : Nat) : (jrnlPg die).key off = (if die = 0 then 0x10000 else 0x2010000) + off := by
  by_cases h : die = 0 <;> simp [jrnlPg, h, Pg.key]

/-- The row of RD_IDX on either die's JRNL page. -/
theorem jrnlPg_rdIdx (die : Fin 2) : ∃ k, (jrnlPg die.val).kind = some k ∧ findReg k JRNL.RD_IDX = some (Wit.hit .jrnlFe JRNL.RD_IDX) ∧
    (Wit.hit .jrnlFe JRNL.RD_IDX).row.wide = false ∧ (Wit.hit .jrnlFe JRNL.RD_IDX).high = false ∧ hasKw (Wit.hit .jrnlFe JRNL.RD_IDX).flds = false ∧
    (∀ v, wordLegal k JRNL.RD_IDX (Wit.hit .jrnlFe JRNL.RD_IDX) v = true) ∧
    ∀ old v, mergeWord (Wit.hit .jrnlFe JRNL.RD_IDX).row.fields old v = setFld old 13 0 (fld v 13 0) := by
  fin_cases die
  · exact ⟨.jrnlFe, rfl, rfl, rfl, rfl, rfl, fun _ => rfl, fun _ _ => rfl⟩
  · exact ⟨.jrnlTm, rfl, rfl, rfl, rfl, rfl, fun _ => rfl, fun _ _ => rfl⟩

theorem Chan.putList_outQ (p : Pg) (l : List Nat) (ch : Chan) (off : Nat) : (ch.putList p off l).outQ = ch.outQ := by
  induction l generalizing ch off with
  | nil => rfl
  | cons _ _ ih => exact ih _ _

theorem HeaderOnly.jrnlShown {die e : Nat} {a b : Chan} (h : HeaderOnly (jrnlPg die) a b) : b.jrnlShown e = a.jrnlShown e := by
  have hpage : ∀ k, (pgKeep k).key 0 / 65536 ≠ (jrnlPg die).key 0 / 65536 := fun k => by
    rw [pgKeep_key, jrnlPg_key]
    split <;> split <;> decide
  have hstatus : ∀ (k : Nat) (f : Fld), f.off < 65536 → b.getF (pgKeep k) f = a.getF (pgKeep k) f := fun k f hf => h.getF (not_inHeader_of_page hf (hpage k))
  have hact : b.active = a.active := Chan.active_congr (fun k => hstatus k _ (by decide))
  have hlast : b.lastAct = a.lastAct := by
    have hwork := congrArg (fun x : Chan => x.lastAct) h.work
    exact hwork
  have hregB : b.regB = a.regB := by
    have hwork := congrArg (fun x : Chan => x.regB) h.work
    exact hwork
  rw [Chan.jrnlShown, Chan.jrnlShown, hact, hlast, h.region, hregB, Chan.kflag, Chan.kflag, Chan.getB, Chan.getB, hstatus 1 _ (by decide)]

end Sys2Proof.Machine

namespace Sys2Proof.Proofs

open Sys2Proof Sys2Proof.Machine Sys2Proof.Tests

section
variable {i : Instr} {s : State} {c : Fin 4} {k : Fin 2} {tag op : Nat} {run : Chan → Chan} {P : State → Prop}

/-- A service command of an active keeper: what it finds, and what it leaves but for the journal. -/
theorem completes_service (hr : SvcReady s c k tag) (hi : exec i s = .next (s.service (.func 0) c k tag op run))
    (hrun : ∀ d : Chan, Side (s.chan c) d → KeeperOnly d (run d))
    (hP : ∀ (u : State) (d : Chan), KeeperFrame s u c → Side (s.chan c) d → Calm (run d) (u.chan c) → P u) : Completes i s P := by
  obtain ⟨t, w, ht, hp, ho, hsvc⟩ := State.service_pf0 hr op run
  have hside : Side (s.chan c) ((t.chan c).svcIssue w k.val tag op) :=
    Spares.trans (Spares.of_headerOnly ht.chan (Side.not_header k.val)) (Side.svcIssue _ hp ho tag op)
  obtain ⟨hframe, hcalm⟩ := ht.keeperFrame (f := fun ch => run (ch.svcIssue w k.val tag op)) (fun key hk => Side.not_header k.val key (.inr hk)) hr.1.1.2
    ((Side.svcIssue _ hp ho tag op).keeperOnly.trans (hrun _ hside))
  exact ⟨_, hi.trans (congrArg _ hsvc), hP _ _ hframe hside hcalm⟩

end

section
variable {s : State} {c : Fin 4} {k : Fin 2} {tag : Nat} (hr : SvcReady s c k tag)
include hr

/-- GET_INFO (R112). -/
theorem completes_getInfo : Completes (.getInfo (.func 0) c k tag) s (fun t => KeeperFrame s t c ∧
    (t.chan c).nat (pgKeep k.val) KEEP.SVC_STAT = 2 ^ 30 + tag * 2 ^ 16 + 0 ∧
    (t.chan c).nat (pgKeep k.val) (KEEP.SVC_RESP 0) = ((s.chan c).keeper k.val).img.ver % 2 ^ 32) := by
  have hrun : ∀ d : Chan, Side (s.chan c) d → d.svcGetInfo k.val tag =
      d.svcOk k.val tag [(d.keeper k.val).img.ver, (d.keeper k.val).img.fmt * 2 ^ 16 + (d.keeper k.val).img.svn, (d.keeper k.val).cycles] :=
    fun d hd => by
      rw [Chan.svcGetInfo]
      exact (Chan.svcRun_active ((hd.kstate k.val).trans hr.2.1) true false _).trans (if_neg (by decide))
  refine completes_service hr rfl (fun d hd => ?_) (fun u d hframe hd hcalm => ?_)
  · rw [hrun d hd]
    exact (Side.svcOk d k.val tag (by simp)).keeperOnly
  · rw [hrun d hd] at hcalm
    refine ⟨hframe, ?_, ?_⟩
    · rw [calm_nat hcalm k.val (by decide)]
      exact Chan.svcOk_shown d k hr.2.2.2 _
    · rw [calm_nat hcalm k.val (by decide), ← hd.img]
      exact Chan.svcOk_word d k tag (i := 0) (by simp) (by simp)

/-- HANDOVER (R110, R112). -/
theorem completes_handover (ready : Bool) (hready : ((s.chan c).kstate (1 - k.val) == 3 && (s.chan c).kflag (1 - k.val) KEEP.STATUS_RESYNC_DONE) = ready) :
    Completes (.handover (.func 0) c k tag) s (fun t => KeeperFrame s t c ∧
      (t.chan c).nat (pgKeep k.val) KEEP.SVC_STAT = 2 ^ 30 + tag * 2 ^ 16 + (if ready then 0 else 4) ∧
      ((t.chan c).keeper k.val).handover = (ready || ((s.chan c).keeper k.val).handover)) := by
  have hrun : ∀ d : Chan, Side (s.chan c) d → d.svcHandover k.val tag =
      if !ready then d.svcDone k.val tag 4 else (d.onKeep k.val (fun x => { x with handover := true })).svcOk k.val tag [] := fun d hd => by
    have hd' : (d.kstate (1 - k.val) == 3 && d.kflag (1 - k.val) KEEP.STATUS_RESYNC_DONE) = ready := by
      rw [hd.kstate, Chan.kflag, hd.getB _ (.inl rfl)]
      exact hready
    rw [Chan.svcHandover, hd']
    exact Chan.svcRun_active ((hd.kstate k.val).trans hr.2.1) false _ _
  have hok : ∀ d : Chan, Side (d.onKeep k.val (fun x => { x with handover := true }))
      ((d.onKeep k.val (fun x => { x with handover := true })).svcOk k.val tag []) := fun d => Side.svcOk _ k.val tag (by simp)
  refine completes_service hr rfl (fun d hd => ?_) (fun u d hframe hd hcalm => ?_)
  · rw [hrun d hd]
    exact .ite (fun _ => (Side.svcDone d k.val tag 4).keeperOnly) (fun _ => (KeeperOnly.putKeeper d k.val _).trans (hok d).keeperOnly)
  · rw [hrun d hd] at hcalm
    cases ready
    · refine ⟨hframe, ?_, ?_⟩
      · rw [calm_nat hcalm k.val (by decide)]
        exact Chan.nat_svcDone d k hr.2.2.2 (by decide)
      · rw [calm_keeper hcalm, Bool.false_or, ← hd.handover]
        exact (Side.svcDone d k.val tag 4).handover k.val
    · refine ⟨hframe, ?_, ?_⟩
      · rw [calm_nat hcalm k.val (by decide)]
        exact Chan.svcOk_shown _ k hr.2.2.2 []
      · rw [calm_keeper hcalm, Bool.true_or]
        exact ((hok d).handover k.val).trans (by rw [Chan.onKeep_keeper])

/-- JRNL_MARK (R112). -/
theorem completes_jrnlMark : Completes (.jrnlMark (.func 0) c k tag) s (fun t => KeeperFrame s t c ∧
    (t.chan c).nat (pgKeep k.val) KEEP.SVC_STAT = 2 ^ 30 + tag * 2 ^ 16 + 0) := by
  have hrun : ∀ d : Chan, Side (s.chan c) d → ∃ e, d.svcJrnlMark k.val tag = (d.journal pgJrnl clsNone 2 e).svcOk k.val tag [] :=
    fun d hd => by
      rw [Chan.svcJrnlMark]
      exact ⟨_, (Chan.svcRun_active ((hd.kstate k.val).trans hr.2.1) false false _).trans (if_neg (by decide))⟩
  refine completes_service hr rfl (fun d hd => ?_) (fun u d hframe hd hcalm => ⟨hframe, ?_⟩)
  · obtain ⟨e, he⟩ := hrun d hd
    rw [he]
    exact Side.keeperOnly ((Side.journal d _ _ _ _).trans (Side.svcOk (l := []) _ k.val tag (by decide)))
  · obtain ⟨e, he⟩ := hrun d hd
    rw [he] at hcalm
    rw [calm_nat hcalm k.val (by decide)]
    exact Chan.svcOk_shown _ k hr.2.2.2 []

/-- SVN_COMMIT of the version that both keepers run (R107, R112). -/
theorem completes_svnCommit (hruns : (s.chan c).fwRuns (1 - k.val) = true)
    (hsvn : ((s.chan c).keeper (1 - k.val)).img.svn = ((s.chan c).keeper k.val).img.svn) : Completes (.svnCommit (.func 0) c k tag) s (fun t => KeeperFrame s t c ∧
    (t.chan c).nat (pgKeep k.val) KEEP.SVC_STAT = 2 ^ 30 + tag * 2 ^ 16 + 0 ∧ (t.chan c).fusedSvn = ((s.chan c).keeper k.val).img.svn) := by
  have hrun : ∀ d : Chan, Side (s.chan c) d → d.svcSvnCommit k.val tag =
      { d with fusedSvn := ((s.chan c).keeper k.val).img.svn }.svcOk k.val tag [] := fun d hd => by
    have hsame : (d.fwRuns (1 - k.val) && (d.keeper (1 - k.val)).img.svn == (d.keeper k.val).img.svn) = true := by
      rw [hd.img, hd.img, hsvn, Chan.fwRuns, hd.kstate, ← Chan.fwRuns, hruns]
      simp
    rw [Chan.svcSvnCommit, hsame, hd.img]
    exact Chan.svcRun_active ((hd.kstate k.val).trans hr.2.1) false false _
  refine completes_service hr rfl (fun d hd => ?_) (fun u d hframe hd hcalm => ?_)
  · rw [hrun d hd]
    have hfused : KeeperOnly d { d with fusedSvn := ((s.chan c).keeper k.val).img.svn } := .of_work rfl rfl rfl
    exact hfused.trans (Side.svcOk _ k.val tag (by simp)).keeperOnly
  · rw [hrun d hd] at hcalm
    refine ⟨hframe, ?_, ?_⟩
    · rw [calm_nat hcalm k.val (by decide)]
      exact Chan.svcOk_shown _ k hr.2.2.2 []
    · have hfused := congrArg (fun x : Chan => x.fusedSvn) hcalm.work
      exact hfused.trans (Side.svcOk { d with fusedSvn := ((s.chan c).keeper k.val).img.svn } k.val tag (by simp)).fusedSvn

/-- A reserved opcode (R112). -/
theorem completes_badOpcode {op : Nat} (hop : svcKnown (op % 256) = false) : Completes (.svcBadOpcode (.func 0) c k tag op) s (fun t => KeeperFrame s t c ∧
    (t.chan c).nat (pgKeep k.val) KEEP.SVC_STAT = 2 ^ 30 + tag * 2 ^ 16 + 1 ∧ ∀ j : Fin 2, (t.chan c).kstate j.val = (s.chan c).kstate j.val) := by
  have hexec : exec (.svcBadOpcode (.func 0) c k tag op) s = .next (s.service (.func 0) c k tag (op % 256) (fun ch => ch.svcReserved k.val tag)) :=
    congrArg Host.Outcome.next (if_neg (by rw [hop]; decide))
  have hrun : ∀ d : Chan, Side (s.chan c) d → d.svcReserved k.val tag = d.svcDone k.val tag 1 := fun d hd =>
    if_pos (by rw [Chan.fwRuns, (hd.kstate k.val).trans hr.2.1]; rfl)
  refine completes_service hr hexec (fun d hd => ?_) (fun u d hframe hd hcalm => ?_)
  · rw [hrun d hd]
    exact (Side.svcDone d k.val tag 1).keeperOnly
  · rw [hrun d hd] at hcalm
    refine ⟨hframe, ?_, fun j => ?_⟩
    · rw [calm_nat hcalm k.val (by decide)]
      exact Chan.nat_svcDone d k hr.2.2.2 (by decide)
    · exact (calm_keep hcalm j.val (by decide)).trans (((Side.svcDone d k.val tag 1).kstate j.val).trans (hd.kstate j.val))

end

/-- A write of JRNL.CTRL by PF0, whose effect changes the journal and puts out nothing but interrupts. -/
theorem completes_jrnlCtrl {i : Instr} {s : State} {c : Fin 4} {v : Word} {f : Chan → Chan} {P : State → Prop} (hr : HostReady s c)
    (hi : exec i s = .next (s.chanWrite jrnlCtrlHook true (.func 0) c pgJrnl JRNL.CTRL v))
    (hhook : ∀ (w : WReq) (ch : Chan), w.v = v → jrnlCtrlHook w ch = f (ch.put w.p w.off w.merged))
    (hf : ∀ d : Chan, (∀ k, d.kstate k = (s.chan c).kstate k) → Quiet d (f d) ∧ (OnlyIrqs d.outQ → OnlyIrqs (f d).outQ))
    (hP : ∀ (u : State) (d : Chan), KeeperFrame s u c → (∀ k, d.kstate k = (s.chan c).kstate k) → (∀ k, d.region k = (s.chan c).region k) →
      u.chan c = { f d with outQ := [] } → P u) : Completes i s P := by
  obtain ⟨t, w, ht, -, hp, ho, hv, -, -, hrun⟩ := State.hook_counts (p := pgJrnl) (k := .jrnlFe) (off := JRNL.CTRL) hr rfl jrnlCtrlHook v
    (h := Wit.hit .jrnlFe JRNL.CTRL) rfl rfl rfl rfl rfl
  obtain ⟨d, hd⟩ : ∃ d, d = (t.chan c).put w.p w.off w.merged := ⟨_, rfl⟩
  have hquiet : Quiet (t.chan c) d := by
    rw [hd, hp, ho]
    exact Quiet.put _ JRNL.CTRL _ (by decide)
  have hstate : ∀ k, d.kstate k = (s.chan c).kstate k := fun k => by
    have hne : (pgKeep k).key KEEP.STATUS_STATE.off ≠ w.p.key w.off := by
      rw [hp, ho, pgKeep_key]
      split <;> decide
    refine Eq.trans ?_ (ht.chan.kstate_jrnl k)
    rw [hd, Chan.kstate, Chan.getF, Chan.get_put_ne _ _ hne]
    rfl
  have hregion : ∀ k, d.region k = (s.chan c).region k := fun k => by
    rw [hd]
    exact ht.chan.region k
  obtain ⟨hf1, hf2⟩ := hf d hstate
  have hhook' : jrnlCtrlHook w (t.chan c) = f d := by rw [hhook w _ hv, hd]
  have houts : OnlyIrqs (jrnlCtrlHook w (t.chan c)).outQ := by
    rw [hhook']
    refine hf2 ?_
    rw [hd]
    exact ht.chan.onlyIrqs (onlyIrqs_of_nil hr.1.2)
  have honly : KeeperOnly (t.chan c) (jrnlCtrlHook w (t.chan c)) := by
    rw [hhook']
    exact .of_quiet (hquiet.trans hf1) (fun _ o h => by
      rw [hhook'] at houts
      obtain ⟨key, rfl⟩ := houts o h
      rfl)
  obtain ⟨hframe, -⟩ := ht.keeperFrame (f := jrnlCtrlHook w) (fun key hk hh => hk.2.1 hh.page) hr.1.2 honly
  refine ⟨_, hi.trans (by rw [hrun]), hP _ d hframe hstate hregion ?_⟩
  rw [State.runChan_chan houts, if_pos rfl, hhook']

/-- The snapshot of an entry (R128). -/
theorem completes_jrnlRdIdx {s : State} {c : Fin 4} {die : Fin 2} {idx i : Nat} (hr : HostReady s c) (hi : i < 8) :
    Completes (.jrnlRdIdxWrite (.func 0) c die idx) s (fun t => Keeps s t c [jrnlPg die.val] (fun ch => ch) ∧
      (t.chan c).nat (jrnlPg die.val) (JRNL.RD_DATA i) = (tget (0 : BitVec 256) ((s.chan c).jrnlShown die.val) (idx % 16384)).toNat / 2 ^ (32 * i) % 2 ^ 32 ∧
      fld ((t.chan c).get (jrnlPg die.val) JRNL.RD_IDX) 13 0 = idx % 16384) := by
  obtain ⟨k, hk, hfind, hw, hh, hkw, hlegal, hmerge⟩ := jrnlPg_rdIdx die
  obtain ⟨t, w, ht, -, hp, ho, hv, -, hm, hrun⟩ := State.hook_counts (p := jrnlPg die.val) (off := JRNL.RD_IDX) hr hk (jrnlRdHook die.val)
    (BitVec.ofNat 32 (idx % 16384)) hfind hw hh hkw (hlegal _)
  have hkey : ∀ a b, a < b → b < 65536 → (jrnlPg die.val).key a ≠ (jrnlPg die.val).key b := by
    intro a b hab hb
    rw [jrnlPg_key, jrnlPg_key]
    omega
  have hidx : fld (BitVec.ofNat 32 (idx % 16384)) 13 0 = idx % 16384 := by
    rw [fld, BitVec.toNat_ofNat]
    simp only [Nat.shiftRight_zero]
    omega
  obtain ⟨l, hl⟩ : ∃ l : List Nat, l = (List.range 8).map (fun i => (tget (0 : BitVec 256) ((s.chan c).jrnlShown die.val) (idx % 16384)).toNat / 2 ^ (32 * i)) :=
    ⟨_, rfl⟩
  have hlen : l.length = 8 := by rw [hl, List.length_map, List.length_range]
  have hhook : jrnlRdHook die.val w (t.chan c) = ((t.chan c).put (jrnlPg die.val) JRNL.RD_IDX w.merged).putList (jrnlPg die.val) (JRNL.RD_DATA 0) l := by
    rw [hl, jrnlRdHook, ht.chan.jrnlShown, hv, hidx, hp, ho]
  have hmem : jrnlPg die.val ∈ [jrnlPg die.val] := List.mem_singleton.2 rfl
  obtain ⟨hkeeps, hchan⟩ := ht.answers (strip := fun ch => ch) hmem hr.1.2 hhook
    ((Stays.put _ hmem (off := JRNL.RD_IDX) _ (by decide)).trans (.putList hmem l _ (by rw [hlen]; decide))) (fun h => by rwa [Chan.putList_outQ])
  refine ⟨_, congrArg Host.Outcome.next hrun, hkeeps, ?_, ?_⟩
  · rw [hchan, Chan.nat_clear]
    refine (Chan.nat_putList l _ hkey (by rw [hlen]; decide) (by omega)).trans ?_
    simp only [hl, List.getElem_map, List.getElem_range]
  · rw [hchan, Chan.get_clear, Chan.get_putList_ne l _ (fun b hlo hhi => hkey _ b (by simp only [JRNL.RD_DATA, JRNL.RD_IDX] at *; omega) (by
      rw [hlen] at hhi
      simp only [JRNL.RD_DATA] at hhi
      omega)), Chan.get_put_same, hm, hmerge, fld_setFld_same _ _ _ _ (by decide) (by decide), hidx]
    omega

/-- Settles O25: a service command completes with its status, and the journal is cleared, unfrozen and read as the host asks. -/
theorem keeperServicesAndJournal : Obligations.KeeperServicesAndJournal := by
  refine ⟨fun s c k tag hr hact hbusy htag => ?_, fun s c k hr hact => ⟨?_, ?_⟩, fun s c die idx i hr hi => ?_⟩
  · have hready : SvcReady s c k tag := ⟨hr, hact, hbusy, htag⟩
    refine ⟨completes_getInfo hready, ?_, completes_jrnlMark hready, completes_svnCommit hready, fun op hop => completes_badOpcode hready hop⟩
    split
    · obtain ⟨hstate, hdone⟩ := ‹_ ∧ _›
      exact completes_handover hready true (by rw [hstate, hdone]; rfl)
    · exact completes_handover hready false (by simp_all)
  · refine completes_jrnlCtrl hr rfl (fun w ch hv => jrnlCtrlHook_clear ch hv) (fun d hd => ?_) (fun u d hframe hd hregion hchan => ?_)
    · obtain ⟨hquiet, houts, -⟩ := Chan.jrnlClear_cleared ((Chan.active_congr hd).trans hact)
      exact ⟨hquiet, fun h => by rwa [houts]⟩
    · obtain ⟨-, -, hcleared⟩ := Chan.jrnlClear_cleared ((Chan.active_congr hd).trans hact)
      rw [hregion] at hcleared
      rw [hchan]
      exact ⟨hframe, hcleared⟩
  · refine completes_jrnlCtrl hr rfl (fun w ch hv => jrnlCtrlHook_unfreeze ch hv) (fun d hd => ?_) (fun u d hframe hd hregion hchan => ?_)
    · obtain ⟨hquiet, houts, -⟩ := Chan.jrnlUnfreeze_frozen ((Chan.active_congr hd).trans hact)
      exact ⟨hquiet, houts⟩
    · obtain ⟨-, -, hfrozen⟩ := Chan.jrnlUnfreeze_frozen ((Chan.active_congr hd).trans hact)
      rw [hchan]
      exact ⟨hframe, hfrozen⟩
  · exact completes_jrnlRdIdx hr hi

end Sys2Proof.Proofs
end

section
set_option Elab.async false
/-! What a command or an event of a partition leaves of the partitions, of CMD_STAT and of the owners of ports (R552–R556). -/

namespace Sys2Proof.Machine

open Sys2Proof.Tests

/-- CMD_STAT, or the owner of a port. -/
def PartKey (key : Nat) : Prop := key = 0x50108 ∨ (0x51000 ≤ key ∧ key < 0x51100)

/-- The partitions of a channel, and nothing else. -/
def partStrip (ch : Chan) : Chan := { ({} : Chan) with parts := ch.parts }

/-- The partitions, CMD_STAT and the owners of ports have stayed. -/
abbrev PartsKept : Chan → Chan → Prop := Spares PartKey partStrip

namespace PartsKept

variable {a b : Chan}

theorem part (h : PartsKept a b) (m : Nat) : b.part m = a.part m := by
  have hparts := congrArg (fun ch : Chan => ch.parts) h.work
  exact congrArg (fun l => rget partDefault l m) hparts

theorem cmdStat (h : PartsKept a b) : b.get pgPart PART.CMD_STAT = a.get pgPart PART.CMD_STAT := h.get (.inl rfl)

theorem portOwn_partKey {q : Nat} (hq : q < 64) : PartKey (pgPart.key (PART.PORT_OWN_PART q).off) := by
  rw [portOwn_key, PartKey]
  omega

theorem portPart (h : PartsKept a b) {q : Nat} (hq : q < 64) : b.portPart q = a.portPart q := by
  rw [Chan.portPart, Chan.portPart, Chan.getF, Chan.getF, h.get (portOwn_partKey hq)]

theorem not_header (key : Nat) (h : PartKey key) : ¬ InHeader pgPart key := not_inHeader_part (by rw [PartKey] at h; omega)

theorem not_page {p : Pg} (hp : p.key 0 / 65536 ≠ 5) (key : Nat) (h : PartKey key) : key / 65536 ≠ p.key 0 / 65536 := by
  rw [PartKey] at h
  omega

theorem not_pageHeader {p : Pg} (hp : p.key 0 / 65536 ≠ 5) (key : Nat) (h : PartKey key) : ¬ InHeader p key :=
  fun hh => not_page hp key h hh.page

/-- A register of another page. -/
theorem put_page (ch : Chan) {p : Pg} (hp : p.key 0 / 65536 ≠ 5) {off : Nat} (v : Word) (ho : off < 65536) : PartsKept ch (ch.put p off v) :=
  .put ch _ _ _ (fun hk => not_page hp _ hk (p.key_div ho))

theorem of_tm {own : Nat} (h : TmOnly own a b) : PartsKept a b := by
  refine (h.mono (fun key hk => ?_)).strips partStrip (fun _ => rfl)
  simp only [TmKey, InHeader, PartKey, Pg.key, CADDY.DOUBLE_FREE, CADDY.FOREIGN_FREE] at hk ⊢
  norm_num
  omega

theorem of_headerOnly (h : HeaderOnly pgPart a b) : PartsKept a b := Spares.of_headerOnly h not_header

/-- The clock drives none of them. -/
theorem of_ticks (h : Ticks a b) : PartsKept a b where
  work := by
    have hparts := congrArg (fun ch : Chan => ch.parts) h.work
    exact congrArg (fun l => { ({} : Chan) with parts := l }) hparts
  regs key hk := h.regs key (fun hclock => by
    obtain ⟨-, hreg⟩ | ⟨g, hg, he⟩ := hclock
    · simp only [PartKey, CountReg, oCAUSE, oFIRST, oOVF] at hk hreg
      omega
    · simp only [PartKey, Pg.key, SLOT.IDLE_BLK] at hk he
      norm_num at he
      omega)
  outs := h.noFatal

theorem raise (ch : Chan) (n : Nat) : PartsKept ch (ch.raise pgPart n) := Spares.raise not_header ch n

theorem journal (ch : Chan) (p : Pg) (cls ev detail : Nat) : PartsKept ch (ch.journal p cls ev detail) :=
  Spares.journal (not_page (by decide)) ch p _ _ _

/-! Rings. -/

theorem putRing (ch : Chan) (p r : Nat) (x : Ring) : PartsKept ch (ch.putRing p r x) := .of_work rfl rfl rfl

theorem ringDrop (ch : Chan) (p r n : Nat) : PartsKept ch (ch.ringDrop p r n) := by
  unfold Chan.ringDrop
  exact .ite (fun _ => .refl ch) (fun _ => .ite (fun _ => (putRing ch _ _ _).trans (raise _ 11)) (fun _ => putRing ch _ _ _))

theorem ringError (ch : Chan) (p r code : Nat) (dma : Option Nat) : PartsKept ch (ch.ringError p r code dma) := by
  have hjournal : ∀ c : Chan, PartsKept c (c.ringErrJournal p r code) := fun c => by
    unfold Chan.ringErrJournal
    exact .ite (fun _ => .refl c) (fun _ => (putRing c _ _ _).trans (journal _ _ _ _ _))
  unfold Chan.ringError
  refine Spares.trans (Spares.trans ?_ (raise _ 10)) (hjournal _)
  cases dma with
  | none => exact putRing ch _ _ _
  | some n => exact (putRing ch _ _ _).trans (.capture not_header _ _ _ _ _ _)

theorem complete (ch : Chan) (p r : Nat) : PartsKept ch (ch.complete p r) := by
  unfold Chan.complete
  exact .ite (fun _ => (putRing ch _ _ _).trans (.emit _ rfl)) (fun _ => putRing ch _ _ _)

theorem closeBuf (ch : Chan) (p r : Nat) (dmaErr : Bool) : PartsKept ch (ch.closeBuf p r dmaErr) := by
  unfold Chan.closeBuf
  split
  · unfold Chan.writeBackBuf
    refine .ite (fun _ => ?_) (fun _ => ?_)
    · exact ((putRing ch _ _ _).trans (ringDrop _ _ _ _)).trans (ringError _ _ _ _ _)
    · exact ((putRing ch _ _ _).trans (.emit _ rfl)).trans (complete _ _ _)
  · exact .refl ch

theorem disableRings (ch : Chan) (p : Nat) : PartsKept ch (ch.disableRings p) := by
  refine Spares.each (fun c r => ?_) _ ch
  unfold Chan.disableRing
  exact Spares.trans (.ite (fun _ => .refl c) (fun _ => closeBuf c _ _ _)) (putRing _ _ _ _)

theorem stopRings (ch : Chan) (p : Nat) (rs : List Nat) (on : Bool) : PartsKept ch (ch.stopRings p rs on) :=
  Spares.each (f := fun c r => c.putRing p r { c.ring p r with stopped := on }) (fun c r => putRing c p r _) rs ch

theorem recDrop (ch : Chan) (p r : Nat) (bytes : List Byte) : PartsKept ch (ch.recDrop p r bytes) := by
  have hlearn : ∀ c : Chan, PartsKept c (c.learnDrop bytes) := fun c => by
    unfold Chan.learnDrop
    have hfilter : ∀ t : TblW, PartsKept c { c with tbl := t } := fun _ => .of_work rfl rfl rfl
    have hcount : ∀ d : Chan, PartsKept d (d.inc pgLearn LEARN.RING_DROP) := fun d => put_page d (by decide) _ (by decide)
    exact (((hfilter _).trans (hcount _)).trans (.raise (not_pageHeader (by decide)) _ 9)).trans (.journalSec (not_page (by decide)) _ _ _ _ _ _ _ _ _)
  unfold Chan.recDrop
  exact .ite (fun _ => (ringDrop ch _ _ _).trans (hlearn _)) (fun _ => ringDrop ch _ _ _)

/-! The flush and the accounts of a quiesce. -/

theorem discardWhere (ch : Chan) (g : Nat → Bool) (f : QEnt → Bool) : PartsKept ch (ch.discardWhere g f).1 := by
  unfold Chan.discardWhere
  refine List.foldlRecOn (motive := fun r : Chan × Nat => PartsKept ch r.1) _ _ (.refl ch) (fun r hr q _ => hr.trans ?_)
  have hfree : ∀ (c : Chan) (l : List QEnt), TmOnly 0 c (c.each l (fun c e => c.hwFree e.handle)) := fun c l =>
    Spares.each (f := fun c (e : QEnt) => c.hwFree e.handle) (fun c e => TmOnly.hwFree c e.handle) l c
  exact of_tm ((TmOnly.takeOut (own := 0) r.1 q f).trans (hfree _ _))

theorem partFlush (ch : Chan) (p : Nat) : PartsKept ch (ch.partFlush p) := by
  have hvoq : ∀ (c : Chan) (off : Nat) (v : Word), off < 65536 → PartsKept c (c.put pgVoq off v) := fun c off v ho => put_page c (by decide) v ho
  have hcad : ∀ (c : Chan) (x : CadW), PartsKept c { c with cad := x } := fun c x => of_tm (TmOnly.onCad (own := 0) c x)
  unfold Chan.partFlush
  have hdiscard : ∀ g f, PartsKept ch ((ch.discardWhere g f).1.inc pgVoq VOQ.FLUSH_CNT (ch.discardWhere g f).2) := fun g f =>
    (discardWhere ch g f).trans (hvoq _ _ _ (by decide))
  exact .ite (fun _ => hdiscard _ _) (fun _ => ((hdiscard _ _).trans (hvoq _ VOQ.FLUSH_STAT _ (by decide))).trans (hcad _ _))

theorem closeAccts (ch : Chan) (p : Nat) : PartsKept ch (ch.closeAccts p) :=
  Spares.each (f := fun c a => (c.putAcct a { c.acct a with st := 2 }).acctSettle a)
    (fun c a => of_tm ((TmOnly.putAcct (own := 0) c a _).trans (TmOnly.acctSettle _ a))) _ ch

theorem putDiscards (ch : Chan) (p : Nat) : PartsKept ch (ch.each (ch.portsOf p) (fun c x => c.putPortF x LINE.PORT_CTRL_DISCARD 1)) := by
  have hport : ∀ (c : Chan), ∀ x < 64, PartsKept c (c.putPortF x LINE.PORT_CTRL_DISCARD 1) := fun c x hx => by
    refine .put c _ _ _ ?_
    rw [portDiscard_key hx, PartKey]
    omega
  exact List.foldlRecOn (motive := fun d => PartsKept ch d) _ _ (.refl ch) (fun d hd x hx => hd.trans (hport d x (mem_allBelow_lt hx)))

/-- A step of the quiesce sets the step of its partition (R553). -/
theorem stepStart (ch : Chan) (p step : Nat) (reach : Bool) :
    PartsKept (ch.putPart p { ch.part p with step := step, stepAt := ch.ns }) (ch.stepStart p step reach) := by
  unfold Chan.stepStart
  refine .ite (fun _ => stopRings _ _ _ _) (fun _ => .ite (fun _ => putDiscards _ _) (fun _ => .ite (fun _ => stopRings _ _ _ _)
    (fun _ => .ite (fun _ => ?_) (fun _ => ?_))))
  · exact .ite (fun _ => (closeAccts _ _).trans (partFlush _ _)) (fun _ => closeAccts _ _)
  · exact (stopRings _ _ _ _).trans (Spares.each (fun c r => .ite (fun _ => closeBuf c _ _ _) (fun _ => .refl c)) _ _)

end PartsKept

/-! A partition's state. -/

theorem Chan.part_putPart_ne (ch : Chan) (p : Nat) {m : Nat} (x : Part) (h : m ≠ p) : (ch.putPart p x).part m = ch.part m := rget_rput_ne _ _ _ h

/-- From `a` to `b` partition `p` has come to `x`, and the others stay. -/
structure PartSet (p : Nat) (x : Part) (a b : Chan) : Prop where
  part : b.part p = x
  others : ∀ m, m ≠ p → b.part m = a.part m
  outs : NoFatal a.outQ → NoFatal b.outQ

namespace PartSet

variable {p : Nat} {x y : Part} {a b c : Chan}

theorem putPart (a : Chan) (p : Nat) (x : Part) : PartSet p x a (a.putPart p x) := ⟨a.part_putPart_same p x, fun _ hm => a.part_putPart_ne p x hm, id⟩

theorem of_kept (h : PartsKept a b) (p : Nat) : PartSet p (a.part p) a b := ⟨h.part p, fun m _ => h.part m, h.outs⟩

theorem trans (h : PartSet p x a b) (g : PartSet p y b c) : PartSet p y a c :=
  ⟨g.part, fun m hm => (g.others m hm).trans (h.others m hm), g.outs ∘ h.outs⟩

theorem kept (h : PartSet p x a b) (g : PartsKept b c) : PartSet p x a c :=
  ⟨(g.part p).trans h.part, fun m hm => (g.part m).trans (h.others m hm), g.outs ∘ h.outs⟩

/-- The completion of a command leaves the partitions (R552). -/
theorem partDone (h : PartSet p x a b) (res : Nat) : PartSet p x a (b.partDone res) :=
  ⟨((PartStatus.partDone b res).part p).trans h.part, fun m hm => ((PartStatus.partDone b res).part m).trans (h.others m hm),
    fun ha => (PartsKept.raise (b.putN pgPart PART.CMD_STAT _) 8).outs (h.outs ha)⟩

end PartSet

/-- CMD_STAT shows DONE and the result (R559). -/
def Chan.shownDone (ch : Chan) (res : Nat) : Prop := fld (ch.get pgPart PART.CMD_STAT) 30 16 = 2 ^ 14 + res

theorem Chan.partDone_shows (ch : Chan) {res : Nat} (h : res < 256) : (ch.partDone res).shownDone res := by
  have hword : ∀ b : Bool, fld (BitVec.ofNat 32 (b2n b * 2 ^ 31 + 2 ^ 30 + res * 2 ^ 16)) 30 16 = 2 ^ 14 + res := fun b => by
    have hb : b2n b ≤ 1 := by cases b <;> decide
    simp only [fld, BitVec.toNat_ofNat, Nat.shiftRight_eq_div_pow]
    omega
  rw [Chan.shownDone, Chan.partDone, PartsKept.cmdStat (PartsKept.raise _ 8), Chan.putN, Chan.get_put_same, hword]

theorem PartsKept.shown {a b : Chan} {res : Nat} (h : PartsKept a b) (ha : a.shownDone res) : b.shownDone res := by
  rwa [Chan.shownDone, PartsKept.cmdStat h]

/-- The end of a quiesce (R553). -/
theorem Chan.quiesceEnd_ends (ch : Chan) (p : Nat) :
    PartSet p { ch.part p with state := 3, step := 0 } ch (ch.quiesceEnd p) ∧ (ch.quiesceEnd p).shownDone 0 := by
  have hdone := (PartSet.putPart ch p { ch.part p with state := 3, step := 0 }).partDone 0
  have hkept : PartsKept ((ch.putPart p { ch.part p with state := 3, step := 0 }).partDone 0) (ch.quiesceEnd p) := by
    unfold Chan.quiesceEnd
    exact .ite (fun _ => PartsKept.journal _ _ _ _ _) (fun _ => ((PartsKept.journal _ _ _ _ _).trans (PartsKept.raise _ 9)).trans
      (PartsKept.journal _ _ _ _ _))
  exact ⟨hdone.kept hkept, PartsKept.shown hkept (Chan.partDone_shows _ (by decide))⟩

/-- The step after a step (R553). -/
theorem Chan.stepNext_next {ch : Chan} {p : Nat} (reach : Bool) (h : (ch.part p).step < 5) :
    PartSet p { ch.part p with step := (ch.part p).step + 1, stepAt := ch.ns } ch (ch.stepNext p reach) := by
  rw [Chan.stepNext, if_neg (by omega)]
  exact (PartSet.putPart ch p _).kept (PartsKept.stepStart ch p _ reach)

theorem Chan.stepNext_last {ch : Chan} {p : Nat} (reach : Bool) (h : 5 ≤ (ch.part p).step) : ch.stepNext p reach = ch.quiesceEnd p := if_pos h

/-- The partition remembers the first step that its timeout has ended (R553). -/
def Part.stepFailed (x : Part) : Part := { x with failStep := if x.failStep = 0 then x.step else x.failStep }

/-- A timeout remembers the step, does the step's work, and goes on (R553). -/
theorem Chan.stepTimeout_next (ch : Chan) (p : Nat) (reach : Bool) :
    ∃ d, PartSet p (ch.part p).stepFailed ch d ∧ ch.stepTimeout p reach = d.stepNext p reach := by
  obtain ⟨c0, hc0⟩ : ∃ c0, c0 = ch.runTo ((ch.part p).stepAt + (ch.part p).timeout * 1000000) := ⟨_, rfl⟩
  have hrun : PartsKept ch c0 := hc0 ▸ PartsKept.of_ticks (Ticks.runTo ch _)
  have hset : PartSet p (ch.part p).stepFailed c0 (c0.putPart p { c0.part p with
      failStep := if (ch.part p).failStep = 0 then (ch.part p).step else (ch.part p).failStep }) := by
    rw [PartsKept.part hrun]
    exact PartSet.putPart c0 p _
  rw [Chan.stepTimeout]
  simp only [← hc0]
  refine ⟨_, ((PartSet.of_kept hrun p).trans hset).kept (.ite (fun _ => ?_) (fun _ => .ite (fun _ => ?_) (fun _ => .refl _))), rfl⟩
  · exact (PartsKept.partFlush _ _).trans (PartsKept.of_ticks (Ticks.runTo _ _))
  · have hfilter : ∀ (c : Chan) (l : List Rec), PartsKept c { c with recQ := l } := fun _ _ => .of_work rfl rfl rfl
    refine ((hfilter _ _).trans (Spares.each (fun c (q : Rec) => PartsKept.recDrop c p q.ring q.bytes) _ _)).trans (Spares.each (fun c r => ?_) _ _)
    split
    · exact (PartsKept.putRing c _ _ _).trans (PartsKept.ringDrop _ _ _ _)
    · exact .refl c

end Sys2Proof.Machine
end

section
set_option Elab.async false
/-! The PART commands in every state of their partition (R551–R556). -/

namespace Sys2Proof.Machine

open Sys2Proof.Tests

/-! What a quiesce starts with, and what REMOVE gives back. -/

theorem Chan.ring_stopRings_of_mem (ch : Chan) (p : Nat) {rs : List Nat} (hn : rs.Nodup) (on : Bool) {r : Nat} (hr : r ∈ rs) :
    (ch.stopRings p rs on).ring p r = { ch.ring p r with stopped := on } :=
  (Chan.each_at (fun c => c.ring p r) (fun x => { x with stopped := on }) hn
    (fun c => c.ring_putRing_same p r _) (fun c _ _ hne => c.ring_putRing_ne p _ hne.symm) ch).trans (if_pos hr)

/-- QUIESCE begins the first step, and shows BUSY (R552, R553). -/
theorem Chan.partQuiesce_begins (ch : Chan) (p : Nat) (reach : Bool) :
    PartSet p { ch.part p with state := 2, step := 1, failStep := 0, qStart := ch.ns, stepAt := ch.ns } ch (ch.partQuiesce p reach) ∧
      (ch.partQuiesce p reach).getB pgPart PART.CMD_STAT_BUSY = true ∧
      ∀ r, 8 ≤ r → r < 16 → ((ch.partQuiesce p reach).ring p r).stopped = true := by
  obtain ⟨c1, hc1⟩ : ∃ c1, c1 = (ch.putPart p { ch.part p with state := 2, step := 1, failStep := 0, qStart := ch.ns }).putF pgPart PART.CMD_STAT_BUSY 1 :=
    ⟨_, rfl⟩
  have heq : ch.partQuiesce p reach = c1.stepStart p 1 reach := by rw [hc1]; rfl
  have hpart : c1.part p = { ch.part p with state := 2, step := 1, failStep := 0, qStart := ch.ns } := by
    rw [hc1]
    exact Chan.part_putPart_same _ _ _
  have hset : PartSet p (c1.part p) ch c1 := by
    rw [hpart, hc1]
    exact ⟨Chan.part_putPart_same _ _ _, fun m hm => Chan.part_putPart_ne _ _ _ hm, id⟩
  have hns : c1.ns = ch.ns := by rw [hc1]; rfl
  have hstart := PartsKept.stepStart c1 p 1 reach
  have hfirst := (hset.trans (PartSet.putPart c1 p { c1.part p with step := 1, stepAt := c1.ns })).kept hstart
  rw [hpart, hns] at hfirst
  rw [heq]
  refine ⟨hfirst, ?_, fun r hlo hhi => ?_⟩
  · have hbusy : c1.getF pgPart PART.CMD_STAT_BUSY = 1 := by
      rw [hc1]
      exact Chan.getF_putF_same _ _ _ _ (Nat.le_refl 31) (by decide)
    have hget : (c1.stepStart p 1 reach).getF pgPart PART.CMD_STAT_BUSY = c1.getF pgPart PART.CMD_STAT_BUSY := by
      rw [Chan.getF, PartsKept.cmdStat hstart]
      rfl
    rw [Chan.getB, hget, hbusy]
    rfl
  · have hmem : r ∈ [8, 9, 10, 11, 12, 13, 14, 15] := by simp only [List.mem_cons, List.not_mem_nil]; omega
    exact congrArg Ring.stopped (Chan.ring_stopRings_of_mem _ p (rs := [8, 9, 10, 11, 12, 13, 14, 15]) (by decide) true hmem)

/-- The partition's ports return to partition 0. -/
def Chan.freePorts (ch : Chan) (p : Nat) : Chan := ch.each (ch.portsOf p) (fun c x => c.putF pgPart (PART.PORT_OWN_PART x) 0)

/-- Its accounts do. -/
def Chan.freeAccts (ch : Chan) (p : Nat) : Chan := ch.each (ch.acctsOf p) (fun c a => c.putAcct a { c.acct a with part := 0 })

/-- Its sampling ends. -/
def Chan.freeSamples (ch : Chan) (p : Nat) : Chan :=
  ch.each (allBelow 64 (fun n => ch.getF pgSamp (SAMP.CFG_PART n) == p)) (fun c n => (c.putF pgSamp (SAMP.CFG_EN n) 0).putF pgSamp (SAMP.CFG_PART n) 0)

/-- What REMOVE does before the partition's own state: rings, ports, the grant of VRFs, the share of the dispatch queues, accounts, sampling. -/
def Chan.returned (ch : Chan) (p : Nat) : Chan :=
  (((((ch.disableRings p).freePorts p).putF pgTbl (TBL.VRF_GRANT_COUNT p) 0).put pgDisp (DISP.PART_SHARE p)
    (chanReset (pgDisp.key (DISP.PART_SHARE p)))).freeAccts p).freeSamples p

theorem Chan.partRemove_eq (ch : Chan) (p : Nat) : ch.partRemove p =
    ((ch.returned p).partFinish p { ((ch.returned p).part p).clearCounts with state := 0, step := 0, failStep := 0, qrFirst := 0, qrCount := 0 }).journal
      pgPart clsNone 4 p := rfl

section
variable {β : Type} (view : Chan → β) (ch : Chan) (p : Nat)

theorem Chan.view_freePorts (h : ∀ c q off v, view (Chan.put c q off v) = view c) : view (ch.freePorts p) = view ch :=
  Chan.each_frame view (f := fun c x => c.putF pgPart (PART.PORT_OWN_PART x) 0) (fun c _ => h c _ _ _) _ ch

theorem Chan.view_freeAccts (h : ∀ c n x, view (Chan.putAcct c n x) = view c) : view (ch.freeAccts p) = view ch :=
  Chan.each_frame view (f := fun c a => c.putAcct a { c.acct a with part := 0 }) (fun c _ => h c _ _) _ ch

theorem Chan.view_freeSamples (h : ∀ c q off v, view (Chan.put c q off v) = view c) : view (ch.freeSamples p) = view ch :=
  Chan.each_frame view (f := fun c n => (c.putF pgSamp (SAMP.CFG_EN n) 0).putF pgSamp (SAMP.CFG_PART n) 0)
    (fun c _ => (h _ _ _ _).trans (h c _ _ _)) _ ch

/-- What looks at no register and no account stays, once the rings are disabled. -/
theorem Chan.view_returned (hq : ∀ c q off v, view (Chan.put c q off v) = view c) (ha : ∀ c n x, view (Chan.putAcct c n x) = view c) :
    view (ch.returned p) = view (ch.disableRings p) :=
  ((((Chan.view_freeSamples view _ p hq).trans (Chan.view_freeAccts view _ p ha)).trans (hq _ _ _ _)).trans (hq _ _ _ _)).trans
    (Chan.view_freePorts view _ p hq)

end

section
variable (ch : Chan) {p : Nat} (hp : p < 32) (h0 : p ≠ 0)

include h0 in
theorem Chan.portPart_freePorts {q : Nat} (hq : q < 64) : (ch.freePorts p).portPart q ≠ p := by
  have hmem : q ∈ ch.portsOf p ↔ ch.portPart q = p := by rw [Chan.portsOf, mem_allBelow, and_iff_right hq, beq_iff_eq]
  have hput : ∀ (c : Chan) (x : Nat), x ≠ q → (c.putF pgPart (PART.PORT_OWN_PART x) 0).portPart q = c.portPart q := fun c x hx =>
    Chan.getF_putF_ne (f := PART.PORT_OWN_PART x) (g := PART.PORT_OWN_PART q) c 0 (by rw [portOwn_key, portOwn_key]; omega)
  have hzero : ∀ c : Chan, (c.putF pgPart (PART.PORT_OWN_PART q) 0).portPart q = 0 := fun c =>
    Chan.getF_putF_same c pgPart (PART.PORT_OWN_PART q) 0 (Nat.zero_le 4) (show 4 < 32 by decide)
  have h := Chan.each_at (fun c => c.portPart q) (fun _ => 0) (l := ch.portsOf p)
    (f := fun c x => c.putF pgPart (PART.PORT_OWN_PART x) 0) (allBelow_nodup _ _) hzero (fun c x _ hne => hput c x hne) ch
  rw [Chan.freePorts, h]
  split
  · exact h0.symm
  · exact fun hne => absurd (hmem.2 hne) ‹_›

include h0 in
theorem Chan.acct_freeAccts {a : Nat} (ha : a < 4096) : ((ch.freeAccts p).acct a).part ≠ p := by
  have hmem : a ∈ ch.acctsOf p ↔ (ch.acct a).part = p := by rw [Chan.acctsOf, mem_allBelow, and_iff_right ha, beq_iff_eq]
  have h := Chan.each_at (fun c => c.acct a) (fun x => { x with part := 0 }) (l := ch.acctsOf p)
    (f := fun c a => c.putAcct a { c.acct a with part := 0 }) (allBelow_nodup _ _) (fun c => c.acct_putAcct_same a _)
    (fun c b _ hb => c.acct_putAcct_ne _ hb.symm) ch
  rw [Chan.freeAccts, h]
  split
  · exact h0.symm
  · exact fun hne => absurd (hmem.2 hne) ‹_›

/-- The partitions stay until the command ends. -/
theorem Chan.returned_set (p : Nat) : PartSet p (ch.part p) ch (ch.returned p) := by
  have hdisable := PartsKept.disableRings ch p
  have hpart : ∀ m, (ch.returned p).part m = ch.part m := fun m =>
    (ch.view_returned (fun c => c.part m) p (fun _ _ _ _ => rfl) (fun _ _ _ => rfl)).trans (PartsKept.part hdisable m)
  refine ⟨hpart p, fun m _ => hpart m, fun h => ?_⟩
  rw [ch.view_returned (fun c => c.outQ) p (fun _ _ _ _ => rfl) (fun _ _ _ => rfl)]
  exact hdisable.outs h

include hp h0 in
/-- No port and no account is the partition's (R551). -/
theorem Chan.returned_free : (∀ q, q < 64 → (ch.returned p).portPart q ≠ p) ∧ ∀ a, a < 4096 → ((ch.returned p).acct a).part ≠ p := by
  have hsamp : ∀ (c : Chan) (n : Nat) (v w : Word), n < 64 → PartsKept c ((c.put pgSamp (SAMP.CFG_EN n).off v).put pgSamp (SAMP.CFG_PART n).off w) :=
    fun c n v w hn => (PartsKept.put_page c (by decide) v (by simp only; omega)).trans (PartsKept.put_page _ (by decide) w (by simp only; omega))
  obtain ⟨c1, hc1⟩ : ∃ c1, c1 = (((ch.disableRings p).freePorts p).putF pgTbl (TBL.VRF_GRANT_COUNT p) 0).put pgDisp (DISP.PART_SHARE p)
    (chanReset (pgDisp.key (DISP.PART_SHARE p))) := ⟨_, rfl⟩
  have hkept1 : PartsKept ((ch.disableRings p).freePorts p) c1 := by
    rw [hc1]
    exact (PartsKept.put_page _ (by decide) _ (by simp only; omega)).trans (PartsKept.put_page _ (by decide) _ (by
      simp only [DISP.PART_SHARE]
      omega))
  have hkept2 : PartsKept c1 (c1.freeAccts p) := Spares.each (f := fun c a => c.putAcct a { c.acct a with part := 0 })
    (fun c a => PartsKept.of_tm (TmOnly.putAcct (own := 0) c a _)) _ c1
  have hkept3 : ∀ d : Chan, PartsKept d (d.freeSamples p) := fun d =>
    List.foldlRecOn (motive := fun e => PartsKept d e) _ _ (.refl _) (fun e he n hn => he.trans (hsamp e n _ _ (mem_allBelow_lt hn)))
  have heq : ch.returned p = (c1.freeAccts p).freeSamples p := by
    rw [hc1]
    rfl
  rw [heq]
  refine ⟨fun q hq => ?_, fun a ha => ?_⟩
  · rw [PartsKept.portPart ((hkept1.trans hkept2).trans (hkept3 _)) hq]
    exact Chan.portPart_freePorts _ h0 hq
  · rw [Chan.view_freeSamples (fun d => d.acct a) _ p (fun _ _ _ _ => rfl)]
    exact Chan.acct_freeAccts _ h0 ha

end

/-! The five commands. -/

section
variable (ch : Chan) (p : Nat)

theorem Chan.partCreate_creates : PartSet p { state := 1 } ch (ch.partCreate p) ∧ (ch.partCreate p).shownDone 0 := by
  have hjournal := PartsKept.journal ((({ ch with rings := ch.rings.filter (fun e => e.1 / 32 != p) } : Chan).putPart p { state := 1 }).partDone 0) pgPart
    clsNone 1 p
  have hput : PartSet p { state := 1 } ch (({ ch with rings := ch.rings.filter (fun e => e.1 / 32 != p) } : Chan).putPart p { state := 1 }) :=
    ⟨Chan.part_putPart_same _ _ _, fun m hm => Chan.part_putPart_ne _ _ _ hm, id⟩
  exact ⟨(hput.partDone 0).kept hjournal, PartsKept.shown hjournal (Chan.partDone_shows _ (by decide))⟩

theorem PartSet.partFinish {a b : Chan} {x : Part} (h : PartSet p x a b) (y : Part) : PartSet p y a (b.partFinish p y) :=
  (h.trans (PartSet.putPart b p y)).partDone 0

theorem Chan.partFinish_shows (x : Part) : (ch.partFinish p x).shownDone 0 := Chan.partDone_shows _ (by decide)

theorem Chan.partResume_resumes : PartSet p { ch.part p with state := 1 } ch (ch.partResume p) ∧ (ch.partResume p).shownDone 0 := by
  have hreleased : PartSet p (ch.part p) ch (ch.released p) := ⟨ch.part_released p,
    fun m _ => ch.view_released p (fun c => c.part m) (fun _ _ _ => rfl) (fun _ _ _ _ => rfl) (fun _ _ _ => rfl),
    fun h => by rwa [Chan.outQ_released]⟩
  rw [Chan.partResume_eq, Chan.part_released]
  exact ⟨hreleased.partFinish p _, Chan.partFinish_shows _ _ _⟩

theorem Chan.partReset_resets : PartSet p (ch.part p).clearCounts ch (ch.partReset p) ∧ (ch.partReset p).shownDone 0 := by
  have hdisable := PartsKept.disableRings ch p
  rw [Chan.partReset_eq, PartsKept.part hdisable]
  exact ⟨(PartSet.of_kept hdisable p).partFinish p _, Chan.partFinish_shows _ _ _⟩

variable {p}

theorem Chan.partRemove_removes (hp : p < 32) (h0 : p ≠ 0) :
    PartSet p { (ch.part p).clearCounts with state := 0, step := 0, failStep := 0, qrFirst := 0, qrCount := 0 } ch (ch.partRemove p) ∧
      (ch.partRemove p).shownDone 0 ∧ (∀ q, q < 64 → (ch.partRemove p).portPart q ≠ p) ∧ ∀ a, a < 4096 → ((ch.partRemove p).acct a).part ≠ p := by
  have hset := ch.returned_set p
  obtain ⟨hports, haccts⟩ := ch.returned_free hp h0
  rw [Chan.partRemove_eq, hset.part]
  generalize ({ (ch.part p).clearCounts with state := 0, step := 0, failStep := 0, qrFirst := 0, qrCount := 0 } : Part) = x
  have hjournal := PartsKept.journal ((ch.returned p).partFinish p x) pgPart clsNone 4 p
  refine ⟨(hset.partFinish p x).kept hjournal, PartsKept.shown hjournal (Chan.partFinish_shows _ _ _), fun q hq => ?_, fun a ha => ?_⟩
  · rw [PartsKept.portPart hjournal hq, Chan.portPart_partFinish]
    exact hports q hq
  · rw [Chan.acct, Chan.journal_cad, ← Chan.acct, Chan.acct_partFinish]
    exact haccts a ha

end

/-! PF0's write of PART.CMD. -/

section
variable {ch : Chan} {p op : Nat} {w : WReq} (reach : Bool) (hp : p < 32)
include hp

omit hp in
theorem partCmdHook_off (he : ch.enabled pgPart = false) : partCmdHook reach w ch = ch := by
  simp [partCmdHook, he]

omit hp in
theorem partCmdHook_zero (ho : op = 0 ∨ op = 4) (hv : w.v = partWord op p) (he : ch.enabled pgPart = true) (h0 : p = 0) :
    partCmdHook reach w ch = ch.partDone 2 := by
  have ho4 : op ≤ 4 := by omega
  simp [partCmdHook, hv, bit_partWord_go ho4, fld_partWord_op ho4, fld_partWord_part ho4, he, h0, ho]

/-- A command in a state that does not accept it (R552). -/
theorem partCmdHook_state (ho : op ≤ 4) (hv : w.v = partWord op p) (he : ch.enabled pgPart = true) (h0 : op = 0 ∨ op = 4 → p ≠ 0)
    (hst : (op = 0 ∧ (ch.part p).state ≠ 0) ∨ (op = 1 ∧ (ch.part p).state ≠ 1) ∨ (2 ≤ op ∧ (ch.part p).state ≠ 3)) :
    partCmdHook reach w ch = ch.partDone 1 := by
  have hzero : ¬ ((op = 0 ∨ op = 4) ∧ p = 0) := fun h => h0 h.1 h.2
  rw [partCmdHook, hv, bit_partWord_go ho hp, fld_partWord_op ho hp, fld_partWord_part ho hp, if_neg (by simp [he])]
  dsimp only
  rw [if_neg hzero, if_pos hst]

theorem partCmdHook_create (hv : w.v = partWord 0 p) (he : ch.enabled pgPart = true) (h0 : p ≠ 0) (hst : (ch.part p).state = 0) :
    partCmdHook reach w ch = ch.partCreate p := by
  simp [partCmdHook, hv, bit_partWord_go, fld_partWord_op, fld_partWord_part, hp, he, h0, hst]

theorem partCmdHook_quiesce (hv : w.v = partWord 1 p) (he : ch.enabled pgPart = true) (hst : (ch.part p).state = 1) :
    partCmdHook reach w ch = ch.partQuiesce p reach := by
  simp [partCmdHook, hv, bit_partWord_go, fld_partWord_op, fld_partWord_part, hp, he, hst]

theorem partCmdHook_remove (hv : w.v = partWord 4 p) (he : ch.enabled pgPart = true) (h0 : p ≠ 0) (hst : (ch.part p).state = 3) :
    partCmdHook reach w ch = if ch.removeResult p ≠ 0 then ch.partDone (ch.removeResult p) else ch.partRemove p := by
  simp [partCmdHook, hv, bit_partWord_go, fld_partWord_op, fld_partWord_part, hp, he, h0, hst]

end

namespace HeaderOnly

variable {a b : Chan} (h : HeaderOnly pgPart a b)
include h

theorem part (m : Nat) : b.part m = a.part m := congrArg (fun x => x.part m) h.work
theorem acct (n : Nat) : b.acct n = a.acct n := congrArg (fun x => x.acct n) h.work
theorem ring (p r : Nat) : b.ring p r = a.ring p r := congrArg (fun x => x.ring p r) h.work
theorem clock : b.ns = a.ns := congrArg (fun x => x.ns) h.work

/-- Why REMOVE does not complete does not depend on the page's header. -/
theorem removeResult (p : Nat) : b.removeResult p = a.removeResult p := by
  have hword : ∀ t < 256, b.get pgTbl (0x4000 + 32 * t) = a.get pgTbl (0x4000 + 32 * t) := fun t ht =>
    h.get (not_inHeader_of_page (by omega) (by decide))
  have hvalid : ∀ t < 256, b.tValid t = a.tValid t := fun t ht => by rw [Chan.tValid, Chan.getB, Chan.getF, hword t ht]; rfl
  have howner : ∀ t < 256, b.tdef t TBL.TDEF_CFG_OWNER = a.tdef t TBL.TDEF_CFG_OWNER := fun t ht => by
    rw [Chan.tdef, Chan.getF, hword t ht]
    rfl
  have howned : ∀ t, (b.tValid t && b.tdef t TBL.TDEF_CFG_OWNER == p) = (a.tValid t && a.tdef t TBL.TDEF_CFG_OWNER == p) := fun t => by
    by_cases ht : t < 256
    · rw [hvalid t ht, howner t ht]
    · simp [Chan.tValid, ht]
  have haccts : b.acctsOf p = a.acctsOf p := by simp only [Chan.acctsOf, h.acct]
  unfold Chan.removeResult
  rw [haccts, h.part, h.cad]
  simp only [h.acct, howned]

end HeaderOnly

theorem Chan.removeResult_lt (ch : Chan) (p : Nat) : ch.removeResult p < 256 := by
  unfold Chan.removeResult
  dsimp only
  split_ifs <;> decide

theorem calm_part {a b : Chan} (h : Calm a b) (m : Nat) : b.part m = a.part m := by
  have hwork := congrArg (fun ch : Chan => ch.part m) h.work
  exact hwork

theorem calm_ring {a b : Chan} (h : Calm a b) (p r : Nat) : b.ring p r = a.ring p r := by
  have hwork := congrArg (fun ch : Chan => ch.ring p r) h.work
  exact hwork

theorem calm_acct {a b : Chan} (h : Calm a b) (n : Nat) : b.acct n = a.acct n := by rw [Chan.acct, h.cad, Chan.acct]

theorem calm_shown {a b : Chan} {res : Nat} (h : Calm a b) (ha : a.shownDone res) : b.shownDone res := by
  rwa [Chan.shownDone, calm_get h (by decide) (by decide)]

theorem calm_portPart {a b : Chan} (h : Calm a b) {q : Nat} (hq : q < 64) : b.portPart q = a.portPart q := by
  rw [Chan.portPart, Chan.getF, calm_get h (by simp only; omega) (by decide), Chan.portPart, Chan.getF]

section
variable {s : State} {c : Fin 4} {op p : Nat} (hr : HostReady s c) (ho : op ≤ 4) (hp : p < 32)
include hr ho hp

/-- The write of PART.CMD runs the command on the channel that the tally leaves. -/
theorem State.partCmd_runs : ∃ (t : State) (w : WReq), HeaderStep pgPart c s t ∧ (t.chan c).enabled pgPart = (s.chan c).enabled pgPart ∧
    w.v = partWord op p ∧ s.partCmd (.func 0) c op p = t.runChan c (partCmdHook (s.hostReach c) w) := by
  obtain ⟨a, w, hv, hcmd⟩ := State.partCmd_pf0 ho hp hr
  have htally := HeaderOnly.tally pgPart (s.chan c) 3 a 1
  have hirqs := onlyIrqs_of_nil hr.1.2
  refine ⟨_, w, htally.step (f := fun ch => ch.tally pgPart 3 a) hirqs, ?_, hv, hcmd⟩
  rw [State.runChan_chan (f := fun ch => ch.tally pgPart 3 a) (htally.onlyIrqs hirqs), if_pos rfl]
  exact Chan.enabled_tally (s.chan c) pgPart 3 a

/-- A command that has an effect on its partition. -/
theorem State.partCmd_answers {f : Chan → Chan} {x : Chan → Part} (he : (s.chan c).enabled pgPart = true)
    (hf : ∀ (ch : Chan) (w : WReq), ch.enabled pgPart = true → HeaderOnly pgPart (s.chan c) ch → w.v = partWord op p →
      partCmdHook (s.hostReach c) w ch = f ch)
    (hset : ∀ ch, PartSet p (x ch) ch (f ch)) :
    ∃ a, HeaderOnly pgPart (s.chan c) a ∧ OtherPartsKept s (s.partCmd (.func 0) c op p) c p ∧ Calm (f a) ((s.partCmd (.func 0) c op p).chan c) := by
  obtain ⟨t, w, ht, hen, hv, hrun⟩ := State.partCmd_runs (op := op) hr ho hp
  have hhook := hf _ w (hen.trans he) ht.chan hv
  have hplain : NoFatal (partCmdHook (s.hostReach c) w (t.chan c)).outQ := by
    rw [hhook]
    exact (hset _).outs (ht.chan.noFatal (noFatal_of_nil hr.1.2))
  have hcalm := State.runChan_calm hplain
  rw [← hrun, hhook] at hcalm
  refine ⟨t.chan c, ht.chan, ⟨fun d hd => ?_, fun m hm => ?_⟩, hcalm⟩
  · rw [hrun, (State.runChan_noFatal hplain).1, if_neg hd]
    exact ht.others d hd
  · rw [calm_part hcalm, (hset _).others m hm, ht.chan.part]

end

end Sys2Proof.Machine
end

section
set_option Elab.async false
/-! Writes of RING_CFG, IDENT and PORT_OWN (R550, R551, R564). -/

namespace Sys2Proof.Machine

open Sys2Proof.Tests

/-- The pages of the rings and partitions, and what their commands may change beside registers. -/
abbrev hostPages : List Pg := [pgPart, pgCaddy]
abbrev hostStrip (ch : Chan) : Chan := { ch with rings := [], parts := [], recQ := [], cad := {}, injLast := 0 }

theorem mem_hostPages : pgPart ∈ hostPages := List.mem_cons_self

/-- The effect's frame, and its channel but for the journal, whatever but a fatal cause is put out. -/
theorem HeaderStep.runs {s t : State} {c : Fin 4} {p : Pg} {f : Chan → Chan} {y : Chan} {pages : List Pg} {strip : Chan → Chan}
    (ht : HeaderStep p c s t) (hp : p ∈ pages) (hq : (s.chan c).outQ = []) (hf : f (t.chan c) = y) (hx : Stays pages strip (t.chan c) y) :
    Keeps s (t.runChan c f) c pages strip ∧ Calm y ((t.runChan c f).chan c) := by
  subst hf
  have hplain : NoFatal (t.chan c).outQ := ht.chan.noFatal (noFatal_of_nil hq)
  exact ⟨keeps_trans (ht.keeps hp strip) (hx.keeps hplain), State.runChan_calm (hx.outs hplain)⟩

theorem not_inHeader_pgPart {off : Nat} (h : 0x100 ≤ off) (hhi : off < 65536) : ¬ InHeader pgPart (pgPart.key off) := by
  simp only [InHeader, Pg.key]
  norm_num
  omega

namespace HeaderOnly

variable {a b : Chan} (h : HeaderOnly pgPart a b)
include h

theorem ringSel : b.ringSel = a.ringSel := by
  rw [Chan.ringSel, h.getF (f := PART.RING_SEL_PART) (not_inHeader_pgPart (by decide) (by decide)),
    h.getF (f := PART.RING_SEL_RING) (not_inHeader_pgPart (by decide) (by decide))]
  rfl

theorem selPart : b.selPart = a.selPart := h.getF (not_inHeader_pgPart (by decide) (by decide))

theorem portPart {q : Nat} (hq : q < 64) : b.portPart q = a.portPart q := (PartsKept.of_headerOnly h).portPart hq

theorem ringRefusal (owner : Nat → Nat) (p r : Nat) (v : Word) : b.ringRefusal owner p r v = a.ringRefusal owner p r v := by
  simp only [Chan.ringRefusal, h.acct, h.ring, h.part]

end HeaderOnly

/-! A refused write. -/

theorem Chan.partRefuse_stays (ch : Chan) (code : Nat) : Stays hostPages hostStrip ch (ch.partRefuse code) := .put _ mem_hostPages _ (by decide)

theorem Chan.partRefuse_code (ch : Chan) {code : Nat} (h : code < 8) : (ch.partRefuse code).nat pgPart PART.REFUSE = code := by
  rw [Chan.nat, Chan.partRefuse, Chan.putN, Chan.get_put_same, BitVec.toNat_ofNat, Nat.mod_eq_of_lt (by omega)]

theorem Chan.ringRefusal_lt (ch : Chan) (owner : Nat → Nat) (p r : Nat) (v : Word) : ch.ringRefusal owner p r v < 8 := by
  unfold Chan.ringRefusal
  split_ifs <;> decide

/-! The word of RING_CFG. -/

/-- RING_CFG as a write leaves it. -/
def ringCfgWord (v : Word) : Word :=
  setFld (setFld (setFld (setFld 0 31 31 (fld v 31 31)) 28 24 (fld v 28 24)) 23 22 (fld v 23 22)) 21 11 (fld v 21 11)

theorem fld_mod (v : Word) (hi lo : Nat) : fld v hi lo % 2 ^ (hi + 1 - lo) = fld v hi lo := Nat.mod_eq_of_lt (Nat.mod_lt _ (Nat.two_pow_pos _))

theorem bit_eq_fld (w : Word) (n : Nat) : bit w n = (fld w n n == 1) := by rw [bit, fld, Nat.add_sub_cancel_left, pow_one]

theorem bit_congr {w v : Word} {n : Nat} (h : fld w n n = fld v n n) : bit w n = bit v n := by rw [bit_eq_fld, bit_eq_fld, h]

theorem ringCfgWord_fields (v : Word) : bit (ringCfgWord v) 31 = bit v 31 ∧ fld (ringCfgWord v) 28 24 = fld v 28 24 ∧
    fld (ringCfgWord v) 23 22 = fld v 23 22 ∧ fld (ringCfgWord v) 21 11 = fld v 21 11 := by
  unfold ringCfgWord
  refine ⟨bit_congr ?_, ?_, ?_, ?_⟩
  · rw [fld_setFld_ne _ 21 11 _ 31 31 (by decide) (by decide) (by decide), fld_setFld_ne _ 23 22 _ 31 31 (by decide) (by decide) (by decide),
      fld_setFld_ne _ 28 24 _ 31 31 (by decide) (by decide) (by decide), fld_setFld_same _ 31 31 _ (by decide) (by decide), fld_mod]
  · rw [fld_setFld_ne _ 21 11 _ 28 24 (by decide) (by decide) (by decide), fld_setFld_ne _ 23 22 _ 28 24 (by decide) (by decide) (by decide),
      fld_setFld_same _ 28 24 _ (by decide) (by decide), fld_mod]
  · rw [fld_setFld_ne _ 21 11 _ 23 22 (by decide) (by decide) (by decide), fld_setFld_same _ 23 22 _ (by decide) (by decide), fld_mod]
  · rw [fld_setFld_same _ 21 11 _ (by decide) (by decide), fld_mod]

/-- The ring as a write of RING_CFG with EN = 1 enables it. -/
def Ring.enabled (x : Ring) (v : Word) : Ring :=
  { base := x.base, cfg := ringCfgWord v, aux := x.aux, stopped := x.stopped, arm := x.arm, errJrnl := x.errJrnl }

theorem Ring.enabled_shows (x : Ring) (v : Word) : (x.enabled v).en = bit v 31 ∧ (x.enabled v).log2 = fld v 28 24 ∧
    (x.enabled v).ident = fld v 23 22 ∧ (x.enabled v).vector = fld v 21 11 ∧ (x.enabled v).base = x.base ∧ (x.enabled v).head = 0 ∧
    (x.enabled v).tail = 0 := by
  obtain ⟨h31, hlog, hid, hvec⟩ := ringCfgWord_fields v
  unfold Ring.enabled
  generalize ringCfgWord v = m at h31 hlog hid hvec
  exact ⟨h31, hlog, hid, hvec, rfl, rfl, rfl⟩

/-- RING_CFG with EN = 0 of an enabled ring. -/
def Chan.ringOff (ch : Chan) (p r : Nat) (v : Word) : Chan :=
  (ch.disableRing p r).putRing p r { (ch.disableRing p r).ring p r with cfg := ringCfgWord v }

theorem ringCfgHook_eq (owner : Nat → Nat) (w : WReq) (ch : Chan) :
    ringCfgHook owner w ch =
      if ringExists ch.ringSel.1 ch.ringSel.2 = false then ch.rejectWrite w.p w.off
      else if (ch.ring ch.ringSel.1 ch.ringSel.2).en ∧ (fld w.v 28 24 ≠ (ch.ring ch.ringSel.1 ch.ringSel.2).log2 ∨
        fld w.v 23 22 ≠ (ch.ring ch.ringSel.1 ch.ringSel.2).ident) then ch.partRefuse 4
      else if bit w.v 31 then
        if ch.ringRefusal owner ch.ringSel.1 ch.ringSel.2 w.v ≠ 0 then ch.partRefuse (ch.ringRefusal owner ch.ringSel.1 ch.ringSel.2 w.v)
        else if (ch.ring ch.ringSel.1 ch.ringSel.2).en then
          ch.putRing ch.ringSel.1 ch.ringSel.2 { ch.ring ch.ringSel.1 ch.ringSel.2 with cfg := ringCfgWord w.v }
        else ch.putRing ch.ringSel.1 ch.ringSel.2 ((ch.ring ch.ringSel.1 ch.ringSel.2).enabled w.v)
      else if (ch.ring ch.ringSel.1 ch.ringSel.2).en then ch.ringOff ch.ringSel.1 ch.ringSel.2 w.v
      else ch.putRing ch.ringSel.1 ch.ringSel.2 { ch.ring ch.ringSel.1 ch.ringSel.2 with cfg := ringCfgWord w.v } := rfl

theorem Stays.putRing (ch : Chan) (p r : Nat) (x : Ring) : Stays hostPages hostStrip ch (ch.putRing p r x) := of_work rfl rfl rfl

theorem Stays.complete (ch : Chan) (p r : Nat) : Stays hostPages hostStrip ch (ch.complete p r) := by
  unfold Chan.complete
  exact ite (fun _ => (putRing ch _ _ _).trans (emit _ rfl)) (fun _ => putRing ch _ _ _)

theorem Stays.disableRing (ch : Chan) (p r : Nat) : Stays hostPages hostStrip ch (ch.disableRing p r) := by
  have hclose : Stays hostPages hostStrip ch (ch.closeBuf p r false) := by
    unfold Chan.closeBuf
    split
    · exact ((putRing ch _ _ _).trans (emit _ rfl)).trans (complete _ _ _)
    · exact refl ch
  unfold Chan.disableRing
  exact Stays.trans (ite (fun _ => refl ch) (fun _ => hclose)) (putRing _ _ _ _)

theorem Stays.rejectWrite {pages : List Pg} {strip : Chan → Chan} (ch : Chan) {p : Pg} (hp : p ∈ pages) (off : Nat) :
    Stays pages strip ch (ch.rejectWrite p off) := ((emit ch rfl).trans (capture _ hp _ _ _ _ _)).trans (raise _ hp 0)

/-- A rejected write touches no ring. -/
theorem Chan.rejectWrite_rings (ch : Chan) (p : Pg) (off : Nat) : (ch.rejectWrite p off).rings = ch.rings := by
  have hwork := congrArg (fun c : Chan => c.rings) (Stays.rejectWrite (pages := [p]) (strip := id) ch (List.mem_singleton_self p) off).work
  exact hwork

/-- A disabled ring has no open buffer, and is off (R564). -/
theorem Chan.ringOff_ring (ch : Chan) (p r : Nat) {v : Word} (h : bit v 31 = false) :
    ((ch.ringOff p r v).ring p r).en = false ∧ ((ch.ringOff p r v).ring p r).buf = none := by
  rw [Chan.ringOff, Chan.ring_putRing_same]
  refine ⟨(ringCfgWord_fields v).1.trans h, ?_⟩
  exact congrArg Ring.buf (Chan.ring_putRing_same _ _ _ _)

/-! Identities. -/

/-- IDENT as a write leaves it. -/
def identWord (v : Word) : Word :=
  setFld (setFld (setFld (setFld 0 31 31 (fld v 31 31)) 30 30 (fld v 30 30)) 26 20 (fld v 26 20)) 19 0 (fld v 19 0)

theorem identWord_fields (v : Word) : bit (identWord v) 31 = bit v 31 ∧ bit (identWord v) 30 = bit v 30 ∧ fld (identWord v) 26 20 = fld v 26 20 ∧
    fld (identWord v) 19 0 = fld v 19 0 := by
  unfold identWord
  refine ⟨bit_congr ?_, bit_congr ?_, ?_, ?_⟩
  · rw [fld_setFld_ne _ 19 0 _ 31 31 (by decide) (by decide) (by decide), fld_setFld_ne _ 26 20 _ 31 31 (by decide) (by decide) (by decide),
      fld_setFld_ne _ 30 30 _ 31 31 (by decide) (by decide) (by decide), fld_setFld_same _ 31 31 _ (by decide) (by decide), fld_mod]
  · rw [fld_setFld_ne _ 19 0 _ 30 30 (by decide) (by decide) (by decide), fld_setFld_ne _ 26 20 _ 30 30 (by decide) (by decide) (by decide),
      fld_setFld_same _ 30 30 _ (by decide) (by decide), fld_mod]
  · rw [fld_setFld_ne _ 19 0 _ 26 20 (by decide) (by decide) (by decide), fld_setFld_same _ 26 20 _ (by decide) (by decide), fld_mod]
  · rw [fld_setFld_same _ 19 0 _ (by decide) (by decide), fld_mod]

theorem fld_top (w : Word) : fld w 31 30 = (if bit w 31 then 2 else 0) + (if bit w 30 then 1 else 0) := by
  have h31 : fld w 31 31 < 2 := Nat.mod_lt _ (by decide)
  have h30 : fld w 30 30 < 2 := Nat.mod_lt _ (by decide)
  have hsplit : fld w 31 30 = 2 * fld w 31 31 + fld w 30 30 := by
    simp only [fld, Nat.shiftRight_eq_div_pow]
    omega
  rw [hsplit, bit_eq_fld, bit_eq_fld]
  interval_cases fld w 31 31 <;> interval_cases fld w 30 30 <;> rfl

/-- The identity that a write of IDENT leaves conflicts as the written one does. -/
theorem idConflict_identWord (v a : Word) : idConflict (identWord v) a = idConflict v a := by
  obtain ⟨h31, h30, hfn, hpasid⟩ := identWord_fields v
  simp only [idConflict, h31, h30, hfn, hpasid]

theorem Part.ident_setIdent (x : Part) {k : Nat} (hk : k < 4) (v : Word) : (x.setIdent k v).ident k = v := by
  interval_cases k <;> rfl

/-- Another partition has an identity that conflicts with the word (R550). -/
def Chan.identTaken (ch : Chan) (v : Word) : Bool :=
  (List.range 32).any (fun q => q != ch.selPart && (List.range 4).any (fun j => idConflict v ((ch.part q).ident j)))

/-- An enabled ring of the selected partition uses the identity slot. -/
def Chan.identUsed (ch : Chan) (k : Nat) : Bool :=
  (List.range 32).any (fun r => (ch.ring ch.selPart r).en && (ch.ring ch.selPart r).ident == k)

theorem identHook_eq (k : Nat) (w : WReq) (ch : Chan) : identHook k w ch =
    if ch.selPart = 0 ∧ k = 0 then ch
    else if ch.identTaken w.v then ch.partRefuse 1
    else if identWord w.v ≠ (ch.part ch.selPart).ident k ∧ ch.identUsed k then ch.partRefuse 2
    else ch.putPart ch.selPart ((ch.part ch.selPart).setIdent k (identWord w.v)) := by
  have htaken : ch.identTaken (identWord w.v) = ch.identTaken w.v := by simp only [Chan.identTaken, idConflict_identWord]
  rw [← htaken]
  rfl

theorem HeaderOnly.identTaken {a b : Chan} (h : HeaderOnly pgPart a b) (v : Word) : b.identTaken v = a.identTaken v := by
  simp only [Chan.identTaken, h.selPart, h.part]

theorem HeaderOnly.identUsed {a b : Chan} (h : HeaderOnly pgPart a b) (k : Nat) : b.identUsed k = a.identUsed k := by
  simp only [Chan.identUsed, h.selPart, h.ring]

theorem Stays.putPart (ch : Chan) (p : Nat) (x : Part) : Stays hostPages hostStrip ch (ch.putPart p x) := of_work rfl rfl rfl

/-! The writes of PF0. -/

theorem findReg_ident {k : Nat} (h : k < 4) : findReg .part (PART.IDENT k) = some (Wit.hit .part (PART.IDENT 0)) := by
  interval_cases k <;> rfl

theorem findReg_portOwn {q : Nat} (h : q < 64) : findReg .part (PART.PORT_OWN q) = some (Wit.hit .part (PART.PORT_OWN 0)) := by
  interval_cases q <;> rfl

theorem relLegal_part {off : Nat} (v : Word) (h : 0x100 ≤ off) : relLegal .part off v = true := if_neg (by simp only [oEVSEL]; omega)

theorem wordLegal_ringCfg {v : Word} (hlo : 6 ≤ fld v 28 24) (hhi : fld v 28 24 ≤ 16) :
    wordLegal .part PART.RING_CFG (Wit.hit .part PART.RING_CFG) v = true := by
  have hflds : (Wit.hit .part PART.RING_CFG).flds = [⟨31, 31, .mw, []⟩, ⟨28, 24, .mw, [(6, 16)]⟩, ⟨23, 22, .mw, []⟩, ⟨21, 11, .mw, []⟩] := rfl
  rw [wordLegal, relLegal_part v (by decide), hflds]
  simp [FieldD.legal, hlo, hhi]

theorem wordLegal_ident {k : Nat} (v : Word) : wordLegal .part (PART.IDENT k) (Wit.hit .part (PART.IDENT 0)) v = true := by
  rw [wordLegal, relLegal_part v (by simp only [PART.IDENT]; omega)]
  rfl

theorem wordLegal_portOwn {q : Nat} (v : Word) : wordLegal .part (PART.PORT_OWN q) (Wit.hit .part (PART.PORT_OWN 0)) v = true := by
  rw [wordLegal, relLegal_part v (by simp only [PART.PORT_OWN]; omega)]
  rfl

section
variable {s : State} {c : Fin 4} (hr : HostReady s c) (v : Word)
include hr

/-- PF0's write of RING_CFG. -/
theorem exec_ringCfgWrite (hlo : 6 ≤ fld v 28 24) (hhi : fld v 28 24 ≤ 16) : ∃ (t : State) (w : WReq), HeaderStep pgPart c s t ∧ w.p = pgPart ∧ w.v = v ∧
    exec (.ringCfgWrite (.func 0) c v) s = .next (t.runChan c (ringCfgHook (fun n => (s.isl.vecOwner n).1) w)) := by
  obtain ⟨t, w, ht, hp, -, hv, -, hrun⟩ := State.hook_pf0 hr (p := pgPart) (k := .part) rfl (ringCfgHook (fun n => (s.isl.vecOwner n).1))
    (off := PART.RING_CFG) v (h := Wit.hit .part PART.RING_CFG) rfl rfl rfl rfl (wordLegal_ringCfg hlo hhi)
  exact ⟨t, w, ht, hp, hv, congrArg Host.Outcome.next hrun⟩

/-- PF0's write of IDENT. -/
theorem exec_identWrite (k : Fin 4) : ∃ (t : State) (w : WReq), HeaderStep pgPart c s t ∧ w.v = v ∧
    exec (.identWrite (.func 0) c k v) s = .next (t.runChan c (identHook k.val w)) := by
  obtain ⟨t, w, ht, -, -, hv, -, hrun⟩ := State.hook_pf0 hr (p := pgPart) (k := .part) rfl (identHook k.val) (off := PART.IDENT k.val) v
    (h := Wit.hit .part (PART.IDENT 0)) (findReg_ident k.isLt) rfl rfl rfl (wordLegal_ident v)
  exact ⟨t, w, ht, hv, congrArg Host.Outcome.next hrun⟩

/-- PF0's write of PORT_OWN. -/
theorem exec_portOwnWrite {q : Nat} (hq : q < 64) : ∃ (t : State) (w : WReq), HeaderStep pgPart c s t ∧ w.p = pgPart ∧ w.off = PART.PORT_OWN q ∧ w.v = v ∧
    w.merged = mergeWord (Wit.hit .part (PART.PORT_OWN 0)).row.fields ((t.chan c).get pgPart (PART.PORT_OWN q)) v ∧
    exec (.portOwnWrite (.func 0) c q v) s = .next (t.runChan c (portOwnHook q w)) := by
  obtain ⟨t, w, ht, hp, ho, hv, hm, hrun⟩ := State.hook_pf0 hr (p := pgPart) (k := .part) rfl (portOwnHook q) (off := PART.PORT_OWN q) v
    (h := Wit.hit .part (PART.PORT_OWN 0)) (findReg_portOwn hq) rfl rfl rfl (wordLegal_portOwn v)
  have hexec : exec (.portOwnWrite (.func 0) c q v) s = .next (s.chanWrite (portOwnHook (q % 64)) true (.func 0) c pgPart (PART.PORT_OWN (q % 64)) v) := rfl
  rw [Nat.mod_eq_of_lt hq, hrun] at hexec
  exact ⟨t, w, ht, hp, ho, hv, hm, hexec⟩

end

/-- The port comes to its new owner, and the others stay (R551). -/
theorem Chan.portPart_written (ch : Chan) {q : Nat} (v : Word) :
    let x := ch.put pgPart (PART.PORT_OWN q) (mergeWord (Wit.hit .part (PART.PORT_OWN 0)).row.fields (ch.get pgPart (PART.PORT_OWN q)) v)
    x.portPart q = fld v 4 0 ∧ ∀ m, m ≠ q → x.portPart m = ch.portPart m := by
  refine ⟨?_, fun m hm => ?_⟩
  · rw [Chan.portPart, Chan.getF, Chan.get_put_same]
    exact (fld_setFld_same _ 4 0 _ (by decide) (by decide)).trans (fld_mod v 4 0)
  · rw [Chan.portPart, Chan.getF, Chan.get_put_ne]
    · rfl
    · have hm' := portOwn_key m
      have hq' := portOwn_key q
      simp only [PART.PORT_OWN] at hm' hq' ⊢
      omega

end Sys2Proof.Machine
end

section
set_option Elab.async false
namespace Sys2Proof.Proofs

open Sys2Proof Sys2Proof.Machine Sys2Proof.Tests

section
variable {s : State} {c : Fin 4} {p : Nat} (hr : HostReady s c) (hp : p < 32)
include hr hp

/-- A PART command that answers with a result and changes no partition (R552, R559). -/
theorem exec_partResult {i : Instr} {op res : Nat} (ho : op ≤ 4) (hres : res < 256) (hi : exec i s = .next (s.partCmd (.func 0) c op p))
    (he : (s.chan c).enabled pgPart = true)
    (hf : ∀ (ch : Chan) (w : WReq), ch.enabled pgPart = true → HeaderOnly pgPart (s.chan c) ch → w.v = partWord op p →
      partCmdHook (s.hostReach c) w ch = ch.partDone res) :
    ∃ u, exec i s = .next u ∧ HostFrame s u c ∧ (∀ m, (u.chan c).part m = (s.chan c).part m) ∧ (u.chan c).shownDone res ∧
      bit ((u.chan c).get pgPart oCAUSE) 8 = true := by
  obtain ⟨t, w, ht, hen, hv, hrun⟩ := State.partCmd_runs (op := op) hr ho hp
  have hhook := hf _ w (hen.trans he) ht.chan hv
  obtain ⟨hkeeps, hcalm⟩ := ht.runs (strip := hostStrip) mem_hostPages hr.1.2 hhook
    ((Stays.put _ mem_hostPages _ (by decide)).trans (.raise _ mem_hostPages 8))
  rw [← hrun] at hkeeps hcalm
  refine ⟨_, hi, hkeeps, fun m => ?_, calm_shown hcalm (Chan.partDone_shows _ hres), ?_⟩
  · rw [calm_part hcalm, (PartStatus.partDone _ res).part, ht.chan.part]
  · rw [calm_get hcalm (by decide) (by decide)]
    exact Chan.cause_raise _ _ (by decide)

theorem completes_partResult {i : Instr} {op res : Nat} (ho : op ≤ 4) (hres : res < 256) (hi : exec i s = .next (s.partCmd (.func 0) c op p))
    (he : (s.chan c).enabled pgPart = true)
    (hf : ∀ (ch : Chan) (w : WReq), ch.enabled pgPart = true → HeaderOnly pgPart (s.chan c) ch → w.v = partWord op p →
      partCmdHook (s.hostReach c) w ch = ch.partDone res) :
    Completes i s (fun u => HostFrame s u c ∧ (∀ m, m < 32 → (u.chan c).part m = (s.chan c).part m) ∧
      fld ((u.chan c).get pgPart PART.CMD_STAT) 30 16 = 2 ^ 14 + res ∧ bit ((u.chan c).get pgPart oCAUSE) 8 = true) := by
  obtain ⟨u, hu, hkeeps, hparts, hshown, hcause⟩ := exec_partResult hr hp ho hres hi he hf
  exact ⟨u, hu, hkeeps, fun m _ => hparts m, hshown, hcause⟩

/-- A command in a state that does not accept it (R552). -/
theorem completes_partState {i : Instr} {op : Nat} (ho : op ≤ 4) (hi : exec i s = .next (s.partCmd (.func 0) c op p))
    (he : (s.chan c).enabled pgPart = true) (h0 : op = 0 ∨ op = 4 → p ≠ 0)
    (hst : (op = 1 ∧ ((s.chan c).part p).state ≠ 1) ∨ (2 ≤ op ∧ ((s.chan c).part p).state ≠ 3)) :
    Completes i s (fun u => HostFrame s u c ∧ (∀ m, m < 32 → (u.chan c).part m = (s.chan c).part m) ∧
      fld ((u.chan c).get pgPart PART.CMD_STAT) 30 16 = 2 ^ 14 + 1 ∧ bit ((u.chan c).get pgPart oCAUSE) 8 = true) :=
  completes_partResult hr hp ho (by decide) hi he
    (fun _ _ hen hh hv => partCmdHook_state _ hp ho hv hen h0 (.inr (by rwa [hh.part])))

/-- CREATE and REMOVE of partition 0 (R552). -/
theorem completes_partZero {i : Instr} {op : Nat} (ho : op = 0 ∨ op = 4) (hi : exec i s = .next (s.partCmd (.func 0) c op p))
    (he : (s.chan c).enabled pgPart = true) (h0 : p = 0) :
    Completes i s (fun u => HostFrame s u c ∧ (∀ m, m < 32 → (u.chan c).part m = (s.chan c).part m) ∧
      fld ((u.chan c).get pgPart PART.CMD_STAT) 30 16 = 2 ^ 14 + 2 ∧ bit ((u.chan c).get pgPart oCAUSE) 8 = true) :=
  completes_partResult hr hp (by omega) (by decide) hi he (fun _ _ hen _ hv => partCmdHook_zero _ ho hv hen h0)

/-- A PART command while the page is disabled. -/
theorem completes_partOff {i : Instr} {op : Nat} (ho : op ≤ 4) (hi : exec i s = .next (s.partCmd (.func 0) c op p))
    (he : (s.chan c).enabled pgPart = false) :
    Completes i s (fun u => HostFrame s u c ∧ workOf (u.chan c) = workOf (s.chan c)) := by
  obtain ⟨t, w, ht, hen, hv, hrun⟩ := State.partCmd_runs (op := op) hr ho hp
  obtain ⟨hkeeps, hchan⟩ := ht.answers (strip := hostStrip) mem_hostPages hr.1.2 (partCmdHook_off (w := w) (s.hostReach c) (hen.trans he))
    (.refl _) id
  rw [← hrun] at hkeeps hchan
  exact ⟨_, hi, hkeeps, by rw [hchan, workOf_clear]; exact ht.chan.work⟩

end

/-- A step of a quiesce that changes its partition. -/
theorem completes_partSet {s : State} {c : Fin 4} {p : Nat} {i : Instr} {f : Chan → Chan} {x : Part} {P : State → Prop} (hr : Ready s c)
    (hi : exec i s = .next (s.onLive c f)) (hset : PartSet p x (s.chan c) (f (s.chan c)))
    (hP : ∀ u, Calm (f (s.chan c)) (u.chan c) → (u.chan c).part p = x → P u) : Completes i s (fun u => OtherPartsKept s u c p ∧ P u) := by
  rw [State.onLive_of_ready hr] at hi
  have hplain := hset.outs (noFatal_of_nil hr.2)
  have hcalm := State.runChan_calm hplain
  refine ⟨_, hi, ⟨fun d hd => ?_, fun m hm => (calm_part hcalm m).trans (hset.others m hm)⟩, hP _ hcalm ((calm_part hcalm p).trans hset.part)⟩
  rw [(State.runChan_noFatal hplain).1, if_neg hd]

section
variable {s : State} {c : Fin 4} {p : Nat} (hr : HostReady s c) (hp : p < 32)
include hr hp

omit hr in
theorem exec_quiesceStepDone (hst : ((s.chan c).part p).state = 2) (hend : (s.chan c).stepEnded p = true) : ∃ f : Chan → Chan,
    f (s.chan c) = (s.chan c).stepNext p (s.hostReach c) ∧ exec (.quiesceStepDone c p) s = .next (s.onLive c f) := ⟨_, if_pos ⟨hp, hst, hend⟩, rfl⟩

theorem completes_stepDone (hst : ((s.chan c).part p).state = 2) (hend : (s.chan c).stepEnded p = true) (h5 : ((s.chan c).part p).step < 5) :
    Completes (.quiesceStepDone c p) s (fun u => OtherPartsKept s u c p ∧ ((u.chan c).part p).state = 2 ∧
      ((u.chan c).part p).step = ((s.chan c).part p).step + 1) := by
  obtain ⟨f, hf, hexec⟩ := exec_quiesceStepDone hp hst hend
  exact completes_partSet hr.1 hexec (hf ▸ Chan.stepNext_next _ h5) (fun u _ hpart => by rw [hpart]; exact ⟨hst, rfl⟩)

theorem completes_lastStepDone (hst : ((s.chan c).part p).state = 2) (hend : (s.chan c).stepEnded p = true) (h5 : ((s.chan c).part p).step = 5) :
    Completes (.quiesceStepDone c p) s (fun u => OtherPartsKept s u c p ∧ fld ((u.chan c).get pgPart PART.CMD_STAT) 30 16 = 2 ^ 14 ∧
      ((u.chan c).part p).state = 3) := by
  obtain ⟨f, hf, hexec⟩ := exec_quiesceStepDone hp hst hend
  rw [Chan.stepNext_last _ h5.ge] at hf
  obtain ⟨hset, hshown⟩ := (s.chan c).quiesceEnd_ends p
  rw [← hf] at hset hshown
  exact completes_partSet hr.1 hexec hset (fun u hcalm hpart => ⟨calm_shown hcalm hshown, by rw [hpart]⟩)

theorem completes_stepTimeout (hst : ((s.chan c).part p).state = 2)
    (hdue : ((s.chan c).part p).step = 1 ∨ ((s.chan c).part p).step = 3 ∨ (s.chan c).stepEnded p = false) (h5 : ((s.chan c).part p).step ≤ 5) :
    Completes (.quiesceStepTimeout c p) s (fun u => OtherPartsKept s u c p ∧
      ((u.chan c).part p).state = (if ((s.chan c).part p).step = 5 then 3 else 2) ∧
      ((u.chan c).part p).failStep = if ((s.chan c).part p).failStep = 0 then ((s.chan c).part p).step else ((s.chan c).part p).failStep) := by
  obtain ⟨f, hf, hexec⟩ : ∃ f : Chan → Chan, f (s.chan c) = (s.chan c).stepTimeout p (s.hostReach c) ∧
      exec (.quiesceStepTimeout c p) s = .next (s.onLive c f) := ⟨_, if_pos ⟨hp, hst, hdue⟩, rfl⟩
  obtain ⟨d, hd, hnext⟩ := (s.chan c).stepTimeout_next p (s.hostReach c)
  have hstep : (d.part p).step = ((s.chan c).part p).step := by rw [hd.part]; rfl
  rw [hnext] at hf
  by_cases hlast : ((s.chan c).part p).step = 5
  · rw [Chan.stepNext_last _ (by omega)] at hf
    refine completes_partSet hr.1 hexec (hf ▸ hd.trans (d.quiesceEnd_ends p).1) (fun u _ hpart => ?_)
    rw [hpart, hd.part, if_pos hlast]
    exact ⟨rfl, rfl⟩
  · refine completes_partSet hr.1 hexec (hf ▸ hd.trans (Chan.stepNext_next _ (by omega))) (fun u _ hpart => ?_)
    rw [hpart, hd.part, if_neg hlast]
    exact ⟨hst, rfl⟩

end

section
variable {s : State} {c : Fin 4} {p : Nat} (hr : HostReady s c) (hp : p < 32) (he : (s.chan c).enabled pgPart = true)
include hr hp he

theorem completes_partCreate (h0 : p ≠ 0) (hst : ((s.chan c).part p).state = 0) : Completes (.partCreate (.func 0) c p) s (fun u =>
    OtherPartsKept s u c p ∧ fld ((u.chan c).get pgPart PART.CMD_STAT) 30 16 = 2 ^ 14 ∧ (u.chan c).part p = { state := 1 }) := by
  obtain ⟨a, ha, hothers, hcalm⟩ := State.partCmd_answers (op := 0) (f := fun ch => ch.partCreate p) (x := fun _ => { state := 1 }) hr (by decide) hp he
    (fun ch w hen hh hv => partCmdHook_create _ hp hv hen h0 (by rw [hh.part]; exact hst)) (fun ch => (ch.partCreate_creates p).1)
  exact ⟨_, rfl, hothers, calm_shown hcalm (a.partCreate_creates p).2, (calm_part hcalm p).trans (a.partCreate_creates p).1.part⟩

theorem completes_partQuiesce (hst : ((s.chan c).part p).state = 1) : Completes (.partQuiesce (.func 0) c p) s (fun u => OtherPartsKept s u c p ∧
    ((u.chan c).part p).state = 2 ∧ ((u.chan c).part p).step = 1 ∧ ((u.chan c).part p).qStart = (s.chan c).ns ∧
    (u.chan c).getB pgPart PART.CMD_STAT_BUSY = true ∧ ∀ r, 8 ≤ r → r < 16 → ((u.chan c).ring p r).stopped = true) := by
  obtain ⟨a, ha, hothers, hcalm⟩ := State.partCmd_answers (op := 1) (f := fun ch => ch.partQuiesce p (s.hostReach c)) hr (by decide) hp he
    (fun ch w hen hh hv => partCmdHook_quiesce _ hp hv hen (by rw [hh.part]; exact hst)) (fun ch => (ch.partQuiesce_begins p (s.hostReach c)).1)
  obtain ⟨hset, hbusy, hrings⟩ := a.partQuiesce_begins p (s.hostReach c)
  refine ⟨_, rfl, hothers, ?_, ?_, ?_, ?_, fun r hlo hhi => ?_⟩
  · rw [calm_part hcalm, hset.part]
  · rw [calm_part hcalm, hset.part]
  · rw [calm_part hcalm, hset.part]
    exact ha.clock
  · rw [Chan.getB, Chan.getF, calm_get hcalm (by decide) (by decide)]
    exact hbusy
  · rw [calm_ring hcalm]
    exact hrings r hlo hhi

variable (hst : ((s.chan c).part p).state = 3)
include hst

theorem completes_partResume : Completes (.partResume (.func 0) c p) s (fun u => OtherPartsKept s u c p ∧
    fld ((u.chan c).get pgPart PART.CMD_STAT) 30 16 = 2 ^ 14 ∧ ((u.chan c).part p).state = 1 ∧
    (∀ a, a < 4096 → ((s.chan c).acct a).part = p → ((u.chan c).acct a).st = 1) ∧ ∀ r, r < 20 → ((u.chan c).ring p r).stopped = false) := by
  obtain ⟨a, ha, hothers, hcalm⟩ := State.partCmd_answers (op := 2) (f := fun ch => ch.partResume p) hr (by decide) hp he
    (fun ch w hen hh hv => partCmdHook_resume _ hp hen (by rw [hh.part]; exact hst) hv) (fun ch => (ch.partResume_resumes p).1)
  refine ⟨_, rfl, hothers, calm_shown hcalm (a.partResume_resumes p).2, ?_, fun n hn hpart => ?_, fun r hlt => ?_⟩
  · rw [calm_part hcalm, (a.partResume_resumes p).1.part]
  · rw [calm_acct hcalm, Chan.partResume_eq, Chan.acct_partFinish, Chan.acct_released _ _ hn, ha.acct, if_pos hpart]
  · rw [calm_ring hcalm, Chan.partResume_eq, Chan.ring_partFinish, Chan.ring_released _ _ hlt]

theorem completes_partReset : Completes (.partReset (.func 0) c p) s (fun u => OtherPartsKept s u c p ∧
    fld ((u.chan c).get pgPart PART.CMD_STAT) 30 16 = 2 ^ 14 ∧ ((u.chan c).part p).state = 3 ∧ ((u.chan c).part p).punt = 0 ∧
    ((u.chan c).part p).inject = 0 ∧ ∀ r, r < 32 → ((u.chan c).ring p r).en = false) := by
  obtain ⟨a, ha, hothers, hcalm⟩ := State.partCmd_answers (op := 3) (f := fun ch => ch.partReset p) hr (by decide) hp he
    (fun ch w hen hh hv => partCmdHook_reset _ hp hen (by rw [hh.part]; exact hst) hv) (fun ch => (ch.partReset_resets p).1)
  have hpart := (calm_part hcalm p).trans (a.partReset_resets p).1.part
  refine ⟨_, rfl, hothers, calm_shown hcalm (a.partReset_resets p).2, ?_, ?_, ?_, fun r hlt => ?_⟩
  · rw [hpart]
    exact (congrArg Part.state (ha.part p)).trans hst
  · rw [hpart]
    rfl
  · rw [hpart]
    rfl
  · rw [calm_ring hcalm, Chan.partReset_eq, Chan.ring_partFinish, Chan.ring_disableRings _ _ hlt]
    split
    · exact Ring.en_disabled _
    · exact Bool.eq_false_of_not_eq_true ‹_›

theorem completes_partRemove (h0 : p ≠ 0) (hres : (s.chan c).removeResult p = 0) : Completes (.partRemove (.func 0) c p) s (fun u =>
    OtherPartsKept s u c p ∧ fld ((u.chan c).get pgPart PART.CMD_STAT) 30 16 = 2 ^ 14 ∧ ((u.chan c).part p).state = 0 ∧
    (∀ q, q < 64 → (u.chan c).portPart q ≠ p) ∧ ∀ a, a < 4096 → ((u.chan c).acct a).part ≠ p) := by
  obtain ⟨a, ha, hothers, hcalm⟩ := State.partCmd_answers (op := 4) (f := fun ch => ch.partRemove p) hr (by decide) hp he
    (fun ch w hen hh hv => (partCmdHook_remove _ hp hv hen h0 (by rw [hh.part]; exact hst)).trans (if_neg (not_not.2 ((hh.removeResult p).trans hres))))
    (fun ch => (ch.partRemove_removes hp h0).1)
  obtain ⟨hset, hshown, hports, haccts⟩ := a.partRemove_removes hp h0
  refine ⟨_, rfl, hothers, calm_shown hcalm hshown, ?_, fun q hq => ?_, fun n hn => ?_⟩
  · rw [calm_part hcalm, hset.part]
  · rw [calm_portPart hcalm hq]
    exact hports q hq
  · rw [calm_acct hcalm]
    exact haccts n hn

end

/-! The registers of the PART page. -/

section
variable {s t : State} {c : Fin 4} {f : Chan → Chan} (hr : HostReady s c) (ht : HeaderStep pgPart c s t)
include hr ht

/-- A write that is refused with its code (R559). -/
theorem completes_partRefused {i : Instr} {code : Nat} (hi : exec i s = .next (t.runChan c f)) (hf : f (t.chan c) = (t.chan c).partRefuse code)
    (h8 : code < 8) : Completes i s (fun u => HostFrame s u c ∧ (u.chan c).nat pgPart PART.REFUSE = code ∧ workOf (u.chan c) = workOf (s.chan c)) := by
  obtain ⟨hkeeps, hchan⟩ := ht.answers (strip := hostStrip) mem_hostPages hr.1.2 hf (Chan.partRefuse_stays _ code) id
  refine ⟨_, hi, hkeeps, ?_, ?_⟩
  · rw [hchan, Chan.nat_clear, Chan.partRefuse_code _ h8]
  · rw [hchan, workOf_clear]
    exact ht.chan.work

/-- A write that puts out nothing but interrupts. -/
theorem completes_partWritten {i : Instr} {y : Chan} {P : State → Prop} (hi : exec i s = .next (t.runChan c f)) (hf : f (t.chan c) = y)
    (hy : Stays hostPages hostStrip (t.chan c) y) (hP : ∀ u : State, Calm y (u.chan c) → P u) : Completes i s (fun u => HostFrame s u c ∧ P u) := by
  obtain ⟨hkeeps, hcalm⟩ := ht.runs (strip := hostStrip) mem_hostPages hr.1.2 hf hy
  exact ⟨_, hi, hkeeps, hP _ hcalm⟩

end

section
variable {s : State} {c : Fin 4} {v : Word} (hr : HostReady s c)
include hr

theorem completes_ringCfg_missing (hlo : 6 ≤ fld v 28 24) (hhi : fld v 28 24 ≤ 16)
    (hring : ringExists (s.chan c).ringSel.1 (s.chan c).ringSel.2 = false) : Completes (.ringCfgWrite (.func 0) c v) s (fun u => HostFrame s u c ∧
      bit ((u.chan c).get pgPart oCAUSE) 0 = true ∧ (u.chan c).rings = (s.chan c).rings) := by
  obtain ⟨t, w, ht, hp, hv, hexec⟩ := exec_ringCfgWrite hr v hlo hhi
  have hhook : ringCfgHook (fun n => (s.isl.vecOwner n).1) w (t.chan c) = (t.chan c).rejectWrite pgPart w.off := by
    rw [ringCfgHook_eq, ht.chan.ringSel, if_pos hring, hp]
  refine completes_partWritten hr ht hexec hhook (.rejectWrite _ mem_hostPages _) (fun u hcalm => ⟨?_, ?_⟩)
  · rw [calm_get hcalm (by decide) (by decide)]
    exact Chan.cause_raise _ _ (by decide)
  · have hrings := congrArg (fun ch : Chan => ch.rings) hcalm.work
    have hheader := congrArg (fun ch : Chan => ch.rings) ht.chan.work
    exact (hrings.trans (Chan.rejectWrite_rings _ _ _)).trans hheader

/-- The write finds its ring, and is refused or takes effect by the ring's state. -/
theorem exec_ringCfg_found (hlo : 6 ≤ fld v 28 24) (hhi : fld v 28 24 ≤ 16)
    (hring : ringExists (s.chan c).ringSel.1 (s.chan c).ringSel.2 = true) :
    let p := (s.chan c).ringSel.1
    let r := (s.chan c).ringSel.2
    let x := (s.chan c).ring p r
    let code := (s.chan c).ringRefusal (fun n => (s.isl.vecOwner n).1) p r v
    ∃ (t : State) (f : Chan → Chan), HeaderStep pgPart c s t ∧ exec (.ringCfgWrite (.func 0) c v) s = .next (t.runChan c f) ∧
      f (t.chan c) =
        if x.en ∧ (fld v 28 24 ≠ x.log2 ∨ fld v 23 22 ≠ x.ident) then (t.chan c).partRefuse 4
        else if bit v 31 then
          if code ≠ 0 then (t.chan c).partRefuse code
          else if x.en then (t.chan c).putRing p r { x with cfg := ringCfgWord v }
          else (t.chan c).putRing p r (x.enabled v)
        else if x.en then (t.chan c).ringOff p r v
        else (t.chan c).putRing p r { x with cfg := ringCfgWord v } := by
  intro p r x code
  obtain ⟨t, w, ht, hp, hv, hexec⟩ := exec_ringCfgWrite hr v hlo hhi
  refine ⟨t, _, ht, hexec, ?_⟩
  rw [ringCfgHook_eq, ht.chan.ringSel, if_neg (by rw [hring]; decide), ht.chan.ring, ht.chan.ringRefusal, hv]

theorem completes_ringEnabled (hlo : 6 ≤ fld v 28 24) (hhi : fld v 28 24 ≤ 16)
    (hring : ringExists (s.chan c).ringSel.1 (s.chan c).ringSel.2 = true)
    (hen : ((s.chan c).ring (s.chan c).ringSel.1 (s.chan c).ringSel.2).en = false) (hv : bit v 31 = true)
    (hcode : (s.chan c).ringRefusal (fun n => (s.isl.vecOwner n).1) (s.chan c).ringSel.1 (s.chan c).ringSel.2 v = 0) :
    Completes (.ringCfgWrite (.func 0) c v) s (fun u => HostFrame s u c ∧ (u.chan c).ring (s.chan c).ringSel.1 (s.chan c).ringSel.2 =
      ((s.chan c).ring (s.chan c).ringSel.1 (s.chan c).ringSel.2).enabled v) := by
  obtain ⟨t, f, ht, hexec, hf⟩ := exec_ringCfg_found hr hlo hhi hring
  rw [if_neg (by simp [hen]), if_pos hv, if_neg (not_not.2 hcode), if_neg (by simp [hen])] at hf
  exact completes_partWritten hr ht hexec hf (.putRing _ _ _ _) (fun u hcalm => (calm_ring hcalm _ _).trans (Chan.ring_putRing_same _ _ _ _))

/-- A write of RING_CFG that only takes the written word: of a ring that stays on, or off. -/
theorem completes_ringWord (hlo : 6 ≤ fld v 28 24) (hhi : fld v 28 24 ≤ 16)
    (hring : ringExists (s.chan c).ringSel.1 (s.chan c).ringSel.2 = true)
    (hstay : (bit v 31 = false ∧ ((s.chan c).ring (s.chan c).ringSel.1 (s.chan c).ringSel.2).en = false) ∨
      (bit v 31 = true ∧ ((s.chan c).ring (s.chan c).ringSel.1 (s.chan c).ringSel.2).en = true ∧
        fld v 28 24 = ((s.chan c).ring (s.chan c).ringSel.1 (s.chan c).ringSel.2).log2 ∧
        fld v 23 22 = ((s.chan c).ring (s.chan c).ringSel.1 (s.chan c).ringSel.2).ident ∧
        (s.chan c).ringRefusal (fun n => (s.isl.vecOwner n).1) (s.chan c).ringSel.1 (s.chan c).ringSel.2 v = 0)) :
    Completes (.ringCfgWrite (.func 0) c v) s (fun u => HostFrame s u c ∧ (u.chan c).ring (s.chan c).ringSel.1 (s.chan c).ringSel.2 =
      { (s.chan c).ring (s.chan c).ringSel.1 (s.chan c).ringSel.2 with cfg := ringCfgWord v }) := by
  obtain ⟨t, f, ht, hexec, hf⟩ := exec_ringCfg_found hr hlo hhi hring
  have hword : f (t.chan c) = (t.chan c).putRing (s.chan c).ringSel.1 (s.chan c).ringSel.2
      { (s.chan c).ring (s.chan c).ringSel.1 (s.chan c).ringSel.2 with cfg := ringCfgWord v } := by
    obtain ⟨hv, hen⟩ | ⟨hv, hen, hlog, hid, hcode⟩ := hstay
    · rw [hf, if_neg (by simp [hen]), if_neg (by simp [hv]), if_neg (by simp [hen])]
    · rw [hf, if_neg (by simp [hlog, hid]), if_pos hv, if_neg (not_not.2 hcode), if_pos hen]
  exact completes_partWritten hr ht hexec hword (.putRing _ _ _ _) (fun u hcalm => (calm_ring hcalm _ _).trans (Chan.ring_putRing_same _ _ _ _))

theorem completes_ringOff (hlo : 6 ≤ fld v 28 24) (hhi : fld v 28 24 ≤ 16)
    (hring : ringExists (s.chan c).ringSel.1 (s.chan c).ringSel.2 = true)
    (hen : ((s.chan c).ring (s.chan c).ringSel.1 (s.chan c).ringSel.2).en = true) (hv : bit v 31 = false)
    (hlog : fld v 28 24 = ((s.chan c).ring (s.chan c).ringSel.1 (s.chan c).ringSel.2).log2)
    (hid : fld v 23 22 = ((s.chan c).ring (s.chan c).ringSel.1 (s.chan c).ringSel.2).ident) :
    Completes (.ringCfgWrite (.func 0) c v) s (fun u => HostFrame s u c ∧ ((u.chan c).ring (s.chan c).ringSel.1 (s.chan c).ringSel.2).en = false ∧
      ((u.chan c).ring (s.chan c).ringSel.1 (s.chan c).ringSel.2).buf = none) := by
  obtain ⟨t, f, ht, hexec, hf⟩ := exec_ringCfg_found hr hlo hhi hring
  rw [if_neg (by simp [hlog, hid]), if_neg (by simp [hv]), if_pos hen] at hf
  refine completes_partWritten hr ht hexec hf ((Stays.disableRing _ _ _).trans (.putRing _ _ _ _)) (fun u hcalm => ?_)
  rw [calm_ring hcalm]
  exact Chan.ringOff_ring _ _ _ hv

theorem completes_ringRefused (hlo : 6 ≤ fld v 28 24) (hhi : fld v 28 24 ≤ 16) {code : Nat}
    (hring : ringExists (s.chan c).ringSel.1 (s.chan c).ringSel.2 = true)
    (hcode : (code = 4 ∧ ((s.chan c).ring (s.chan c).ringSel.1 (s.chan c).ringSel.2).en = true ∧
        (fld v 28 24 ≠ ((s.chan c).ring (s.chan c).ringSel.1 (s.chan c).ringSel.2).log2 ∨
          fld v 23 22 ≠ ((s.chan c).ring (s.chan c).ringSel.1 (s.chan c).ringSel.2).ident)) ∨
      (code = (s.chan c).ringRefusal (fun n => (s.isl.vecOwner n).1) (s.chan c).ringSel.1 (s.chan c).ringSel.2 v ∧ code ≠ 0 ∧ bit v 31 = true ∧
        (((s.chan c).ring (s.chan c).ringSel.1 (s.chan c).ringSel.2).en = false ∨
          (fld v 28 24 = ((s.chan c).ring (s.chan c).ringSel.1 (s.chan c).ringSel.2).log2 ∧
            fld v 23 22 = ((s.chan c).ring (s.chan c).ringSel.1 (s.chan c).ringSel.2).ident)))) :
    Completes (.ringCfgWrite (.func 0) c v) s (fun u => HostFrame s u c ∧ (u.chan c).nat pgPart PART.REFUSE = code ∧
      workOf (u.chan c) = workOf (s.chan c)) := by
  obtain ⟨t, f, ht, hexec, hf⟩ := exec_ringCfg_found hr hlo hhi hring
  have hrefused : f (t.chan c) = (t.chan c).partRefuse code ∧ code < 8 := by
    obtain ⟨rfl, hen, hother⟩ | ⟨rfl, hne, hv, hfree⟩ := hcode
    · exact ⟨hf.trans (if_pos ⟨hen, hother⟩), by decide⟩
    · have hsame : ¬ (((s.chan c).ring (s.chan c).ringSel.1 (s.chan c).ringSel.2).en = true ∧
          (fld v 28 24 ≠ ((s.chan c).ring (s.chan c).ringSel.1 (s.chan c).ringSel.2).log2 ∨
            fld v 23 22 ≠ ((s.chan c).ring (s.chan c).ringSel.1 (s.chan c).ringSel.2).ident)) := by
        rintro ⟨hen, hother⟩
        obtain hoff | ⟨hlog, hid⟩ := hfree
        · exact absurd hen (by simp [hoff])
        · exact hother.elim (fun h => h hlog) (fun h => h hid)
      exact ⟨hf.trans ((if_neg hsame).trans ((if_pos hv).trans (if_pos hne))), Chan.ringRefusal_lt _ _ _ _ _⟩
  exact completes_partRefused hr ht hexec hrefused.1 hrefused.2

/-! Identities. -/

/-- A write of IDENT by what stands in its way (R550). -/
theorem exec_identWrite_by (k : Fin 4) : ∃ (t : State) (f : Chan → Chan), HeaderStep pgPart c s t ∧
    exec (.identWrite (.func 0) c k v) s = .next (t.runChan c f) ∧
    f (t.chan c) = if (s.chan c).selPart = 0 ∧ k.val = 0 then t.chan c
      else if (s.chan c).identTaken v then (t.chan c).partRefuse 1
      else if identWord v ≠ ((s.chan c).part (s.chan c).selPart).ident k.val ∧ (s.chan c).identUsed k.val then (t.chan c).partRefuse 2
      else (t.chan c).putPart (s.chan c).selPart (((s.chan c).part (s.chan c).selPart).setIdent k.val (identWord v)) := by
  obtain ⟨t, w, ht, hv, hexec⟩ := exec_identWrite hr v k
  refine ⟨t, _, ht, hexec, ?_⟩
  rw [identHook_eq, ht.chan.selPart, ht.chan.identTaken, ht.chan.identUsed, ht.chan.part, hv]

theorem completes_identWritten (k : Fin 4) (hk : ¬ ((s.chan c).selPart = 0 ∧ k.val = 0)) (htaken : (s.chan c).identTaken v = false)
    (hused : (s.chan c).identUsed k.val = false) : Completes (.identWrite (.func 0) c k v) s (fun u => HostFrame s u c ∧
      let w := ((u.chan c).part (s.chan c).selPart).ident k.val
      fld w 31 30 = fld v 31 30 ∧ fld w 26 20 = fld v 26 20 ∧ fld w 19 0 = fld v 19 0) := by
  obtain ⟨t, f, ht, hexec, hf⟩ := exec_identWrite_by (v := v) hr k
  rw [if_neg hk, if_neg (by simp [htaken]), if_neg (by simp [hused])] at hf
  refine completes_partWritten hr ht hexec hf (.putPart _ _ _) (fun u hcalm => ?_)
  have hident : ((u.chan c).part (s.chan c).selPart).ident k.val = identWord v := by
    rw [calm_part hcalm, Chan.part_putPart_same, Part.ident_setIdent _ k.isLt]
  obtain ⟨h31, h30, hfn, hpasid⟩ := identWord_fields v
  dsimp only
  rw [hident]
  exact ⟨by rw [fld_top, fld_top, h31, h30], hfn, hpasid⟩

theorem completes_identRefused (k : Fin 4) (hk : ¬ ((s.chan c).selPart = 0 ∧ k.val = 0)) {code : Nat}
    (hcode : (code = 1 ∧ (s.chan c).identTaken v = true) ∨ (code = 2 ∧ (s.chan c).identTaken v = false ∧ (s.chan c).identUsed k.val = true ∧
      bit v 31 ≠ bit (((s.chan c).part (s.chan c).selPart).ident k.val) 31)) :
    Completes (.identWrite (.func 0) c k v) s (fun u => HostFrame s u c ∧ (u.chan c).nat pgPart PART.REFUSE = code ∧
      workOf (u.chan c) = workOf (s.chan c)) := by
  obtain ⟨t, f, ht, hexec, hf⟩ := exec_identWrite_by (v := v) hr k
  rw [if_neg hk] at hf
  obtain ⟨rfl, htaken⟩ | ⟨rfl, htaken, hused, hbit⟩ := hcode
  · exact completes_partRefused hr ht hexec (hf.trans (if_pos htaken)) (by decide)
  · have hne : identWord v ≠ ((s.chan c).part (s.chan c).selPart).ident k.val := fun h => hbit (by rw [← (identWord_fields v).1, h])
    rw [if_neg (by simp [htaken]), if_pos ⟨hne, hused⟩] at hf
    exact completes_partRefused hr ht hexec hf (by decide)

/-- IDENT 0 of partition 0 takes no write (R550). -/
theorem completes_identFixed (h0 : (s.chan c).selPart = 0) : Completes (.identWrite (.func 0) c 0 v) s (fun u => HostFrame s u c ∧
    workOf (u.chan c) = workOf (s.chan c)) := by
  obtain ⟨t, f, ht, hexec, hf⟩ := exec_identWrite_by (v := v) hr 0
  obtain ⟨hkeeps, hchan⟩ := ht.answers (strip := hostStrip) mem_hostPages hr.1.2 (hf.trans (if_pos ⟨h0, rfl⟩)) (.refl _) id
  exact ⟨_, hexec, hkeeps, by rw [hchan, workOf_clear]; exact ht.chan.work⟩

/-! The owner of a port. -/

section
variable {q : Nat} (hq : q < 64)
include hq

/-- A write of PORT_OWN by the port's owner (R551). -/
theorem exec_portOwn_by (v : Word) : ∃ (t : State) (f : Chan → Chan), HeaderStep pgPart c s t ∧
    exec (.portOwnWrite (.func 0) c q v) s = .next (t.runChan c f) ∧
    f (t.chan c) = if (s.chan c).portPart q = fld v 4 0 then t.chan c
      else if (s.chan c).portPart q ≠ 0 ∧ ((s.chan c).part ((s.chan c).portPart q)).state ≠ 3 then (t.chan c).partRefuse 3
      else if ((s.chan c).part (fld v 4 0)).state = 0 then (t.chan c).partRefuse 7
      else (t.chan c).put pgPart (PART.PORT_OWN q)
        (mergeWord (Wit.hit .part (PART.PORT_OWN 0)).row.fields ((t.chan c).get pgPart (PART.PORT_OWN q)) v) := by
  obtain ⟨t, w, ht, hp, ho, hv, hm, hexec⟩ := exec_portOwnWrite hr v hq
  refine ⟨t, _, ht, hexec, ?_⟩
  rw [portOwnHook, ht.chan.portPart hq, hv, ht.chan.part, ht.chan.part, hp, ho, hm]

theorem completes_portPassed (hne : (s.chan c).portPart q ≠ fld v 4 0)
    (hfree : (s.chan c).portPart q = 0 ∨ ((s.chan c).part ((s.chan c).portPart q)).state = 3) (hst : ((s.chan c).part (fld v 4 0)).state ≠ 0) :
    Completes (.portOwnWrite (.func 0) c q v) s (fun u => HostFrame s u c ∧ (u.chan c).portPart q = fld v 4 0 ∧
      ∀ m, m < 64 → m ≠ q → (u.chan c).portPart m = (s.chan c).portPart m) := by
  obtain ⟨t, f, ht, hexec, hf⟩ := exec_portOwn_by hr hq v
  have hmay : ¬ ((s.chan c).portPart q ≠ 0 ∧ ((s.chan c).part ((s.chan c).portPart q)).state ≠ 3) := fun h => hfree.elim h.1 h.2
  rw [if_neg hne, if_neg hmay, if_neg hst] at hf
  obtain ⟨hown, hothers⟩ := (t.chan c).portPart_written (q := q) v
  refine completes_partWritten hr ht hexec hf (.put _ mem_hostPages _ (by simp only [PART.PORT_OWN]; omega)) (fun u hcalm => ⟨?_, fun m hm hmq => ?_⟩)
  · rw [calm_portPart hcalm hq]
    exact hown
  · rw [calm_portPart hcalm hm, hothers m hmq, ht.chan.portPart hm]

theorem completes_portRefused (hne : (s.chan c).portPart q ≠ fld v 4 0) {code : Nat}
    (hcode : (code = 3 ∧ (s.chan c).portPart q ≠ 0 ∧ ((s.chan c).part ((s.chan c).portPart q)).state ≠ 3) ∨
      (code = 7 ∧ ((s.chan c).portPart q = 0 ∨ ((s.chan c).part ((s.chan c).portPart q)).state = 3) ∧ ((s.chan c).part (fld v 4 0)).state = 0)) :
    Completes (.portOwnWrite (.func 0) c q v) s (fun u => HostFrame s u c ∧ (u.chan c).nat pgPart PART.REFUSE = code ∧
      workOf (u.chan c) = workOf (s.chan c)) := by
  obtain ⟨t, f, ht, hexec, hf⟩ := exec_portOwn_by hr hq v
  rw [if_neg hne] at hf
  obtain ⟨rfl, hown⟩ | ⟨rfl, hfree, hst⟩ := hcode
  · exact completes_partRefused hr ht hexec (hf.trans (if_pos hown)) (by decide)
  · rw [if_neg (fun h => hfree.elim h.1 h.2), if_pos hst] at hf
    exact completes_partRefused hr ht hexec hf (by decide)

theorem completes_portSame (hsame : fld v 4 0 = (s.chan c).portPart q) : Completes (.portOwnWrite (.func 0) c q v) s (fun u => HostFrame s u c ∧
    workOf (u.chan c) = workOf (s.chan c) ∧ (u.chan c).portPart q = (s.chan c).portPart q) := by
  obtain ⟨t, f, ht, hexec, hf⟩ := exec_portOwn_by hr hq v
  obtain ⟨hkeeps, hchan⟩ := ht.answers (strip := hostStrip) mem_hostPages hr.1.2 (hf.trans (if_pos hsame.symm)) (.refl _) id
  refine ⟨_, hexec, hkeeps, ?_, ?_⟩
  · rw [hchan, workOf_clear]
    exact ht.chan.work
  · rw [hchan]
    exact ht.chan.portPart hq

end

end

/-- Settles O58: PART commands by the state of their partition, steps of a quiesce, and the writes of the PART page's registers. -/
theorem partitionsAndTheirConfiguration : Obligations.PartitionsAndTheirConfiguration := by
  refine ⟨fun s c p hr hp => ⟨fun he => ⟨fun h0 hst => completes_partCreate hr hp he h0 hst, fun hst h0 => ?_, fun hst => completes_partQuiesce hr hp he hst,
      fun hst => ⟨completes_partResume hr hp he hst, completes_partReset hr hp he hst, fun h0 hres => completes_partRemove hr hp he hst h0 hres⟩⟩,
      fun hst => ⟨fun hend h5 => completes_stepDone hr hp hst hend h5, fun hend h5 => completes_lastStepDone hr hp hst hend h5,
        fun hdue h5 => completes_stepTimeout hr hp hst hdue h5⟩⟩,
    fun s c v hr => ⟨fun hring hlo hhi => ⟨fun hen hv hcode => ?_, fun hen hv hlog hid => completes_ringOff hr hlo hhi hring hen hv hlog hid⟩,
      fun k hk => ⟨fun htaken hused => completes_identWritten hr k hk htaken hused, fun htaken => completes_identRefused hr k hk (.inl ⟨rfl, htaken⟩)⟩,
      fun q hq => ⟨fun hown hne hst => completes_portPassed hr hq (by omega) (.inl hown) hst,
        fun hown hne hst => completes_portRefused hr hq (by omega) (.inl ⟨rfl, hown, hst⟩)⟩⟩,
    fun s c p hr hp => ⟨fun he => ⟨?_, ?_, ?_, ?_, ?_⟩, fun he => ⟨fun h0 => ⟨?_, ?_⟩, fun hst => ?_, fun hst => ⟨?_, ?_⟩, fun hst h0 => ?_,
      fun hst h0 hres => ?_⟩, fun hst => ⟨?_, ?_⟩, fun hend => ?_, fun hend h1 h3 => ?_⟩,
    fun s c v hr => ⟨fun hlo hhi => ⟨fun hring => completes_ringCfg_missing hr hlo hhi hring,
        fun hring hen hother => completes_ringRefused hr hlo hhi hring (.inl ⟨rfl, hen, hother⟩),
        fun hring hfree hv hcode => completes_ringRefused hr hlo hhi hring (.inr ⟨rfl, hcode, hv, hfree⟩),
        fun hring hen hlog hid hv hcode => ?_, fun hring hen hv => ?_⟩, fun h0 => completes_identFixed hr h0,
      fun k hk hbit htaken hused => completes_identRefused hr k hk (.inr ⟨rfl, htaken, hused, hbit⟩),
      fun q hq => ⟨fun hsame => completes_portSame hr hq hsame, fun hne hfree hst => completes_portRefused hr hq (Ne.symm hne) (.inr ⟨rfl, hfree, hst⟩),
        fun hne hst3 hst => ?_⟩⟩⟩
  · obtain ⟨u, hu, hkeeps, hparts, hshown, -⟩ := exec_partResult (i := .partCreate (.func 0) c p) (op := 0) (res := 1) hr hp (by decide) (by decide) rfl he
      (fun ch w hen hh hv => partCmdHook_state _ hp (by decide) hv hen (fun _ => h0) (.inl ⟨rfl, by rwa [hh.part]⟩))
    exact ⟨u, hu, ⟨hkeeps.1, fun m _ => hparts m⟩, hparts p, hshown⟩
  · obtain ⟨u, hu, hkeeps, hring⟩ := completes_ringEnabled hr hlo hhi hring hen hv hcode
    refine ⟨u, hu, hkeeps, ?_⟩
    dsimp only
    rw [hring, ← hv]
    exact Ring.enabled_shows _ v
  · exact completes_partOff (op := 0) hr hp (by decide) rfl he
  · exact completes_partOff (op := 1) hr hp (by decide) rfl he
  · exact completes_partOff (op := 2) hr hp (by decide) rfl he
  · exact completes_partOff (op := 3) hr hp (by decide) rfl he
  · exact completes_partOff (op := 4) hr hp (by decide) rfl he
  · exact completes_partZero (op := 0) hr hp (.inl rfl) rfl he h0
  · exact completes_partZero (op := 4) hr hp (.inr rfl) rfl he h0
  · exact completes_partState (op := 1) hr hp (by decide) rfl he (by omega) (.inl ⟨rfl, hst⟩)
  · exact completes_partState (op := 2) hr hp (by decide) rfl he (by omega) (.inr ⟨by decide, hst⟩)
  · exact completes_partState (op := 3) hr hp (by decide) rfl he (by omega) (.inr ⟨by decide, hst⟩)
  · exact completes_partState (op := 4) hr hp (by decide) rfl he (fun _ => h0) (.inr ⟨by decide, hst⟩)
  · exact completes_partResult (op := 4) hr hp (by decide) (Chan.removeResult_lt _ _) rfl he (fun ch w hen hh hv => by
      rw [partCmdHook_remove _ hp hv hen h0 (by rwa [hh.part]), hh.removeResult, if_pos hres])
  · exact completes_same hr.1 rfl (if_neg (fun h => hst h.2.1))
  · exact completes_same hr.1 rfl (if_neg (fun h => hst h.2.1))
  · exact completes_same hr.1 rfl (if_neg (fun h => absurd h.2.2 (by simp [hend])))
  · exact completes_same hr.1 rfl (if_neg (fun h => h.2.2.elim h1 (fun h => h.elim h3 (fun h => absurd h (by simp [hend])))))
  · obtain ⟨u, hu, hkeeps, hring⟩ := completes_ringWord hr hlo hhi hring (.inr ⟨hv, hen, hlog, hid, hcode⟩)
    exact ⟨u, hu, hkeeps, by rw [hring]; exact ringCfgWord_fields v, by rw [hring]⟩
  · obtain ⟨u, hu, hkeeps, hring⟩ := completes_ringWord hr hlo hhi hring (.inl ⟨hv, hen⟩)
    exact ⟨u, hu, hkeeps, by rw [hring]; exact ringCfgWord_fields v, by rw [hring]⟩
  · obtain ⟨u, hu, hkeeps, hown, -⟩ := completes_portPassed hr hq (Ne.symm hne) (.inr hst3) hst
    exact ⟨u, hu, hkeeps, hown⟩

end Sys2Proof.Proofs
end

section
set_option Elab.async false
/-! The host island under interrupts, tallies, rejections and journal entries: which of its registers stay, and that its other state does
(R49, R62–R67, R69–R77, R617). -/

namespace Sys2Proof.Machine

/-- A register of a host island page's own block: not of a page header. -/
def BlockKey (key : Nat) : Prop := 0x100 ≤ key % 65536

/-- A block register that no channel's state stands in. -/
def QuietKey (key : Nat) : Prop := BlockKey key ∧ ¬ (0x20120 ≤ key ∧ key < 0x20130)

/-- The host island without its registers, the interrupts held, the latches, and what follows the channels' states. -/
def islRest (i : Isl) : Isl := { i with regs := [], held := [], latches := [], forcedOff := 0, chSince := [] }

/-- From `i` to `j` the registers that `K` names and the rest of the host island have stayed. -/
structure IslKept (K : Nat → Prop) (i j : Isl) : Prop where
  rest : islRest j = islRest i
  regs : ∀ key, K key → rget islReset j.regs key = rget islReset i.regs key

namespace IslKept

variable {K L : Nat → Prop} {i j k : Isl}

theorem refl (i : Isl) : IslKept K i i := ⟨rfl, fun _ _ => rfl⟩

theorem trans (h : IslKept K i j) (g : IslKept K j k) : IslKept K i k :=
  ⟨g.rest.trans h.rest, fun key hk => (g.regs key hk).trans (h.regs key hk)⟩

theorem mono (h : IslKept K i j) (hL : ∀ key, L key → K key) : IslKept L i j := ⟨h.rest, fun key hk => h.regs key (hL key hk)⟩

theorem ite {p : Prop} [Decidable p] {x y : Isl} (hx : p → IslKept K i x) (hy : ¬ p → IslKept K i y) : IslKept K i (if p then x else y) := by
  split
  · exact hx ‹_›
  · exact hy ‹_›

theorem put (i : Isl) {p off : Nat} (v : Word) (h : ¬ K (p * 0x10000 + off)) : IslKept K i (i.put p off v) :=
  ⟨rfl, fun _ hk => rget_rput_ne _ _ _ (fun e => h (e ▸ hk))⟩

theorem of_sameIsland (h : SameIsland i j) : IslKept K i j where
  rest := by
    have hrest := congrArg islRest h
    exact hrest
  regs key _ := by rw [h.regs]

theorem get (h : IslKept K i j) {p off : Nat} (hk : K (p * 0x10000 + off)) : j.get p off = i.get p off := h.regs _ hk

theorem nat (h : IslKept K i j) {p off : Nat} (hk : K (p * 0x10000 + off)) : j.nat p off = i.nat p off := by rw [Isl.nat, Isl.nat, h.get hk]

theorem getF (h : IslKept K i j) {p : Nat} {f : Fld} (hk : K (p * 0x10000 + f.off)) : j.getF p f = i.getF p f := by
  rw [Isl.getF, Isl.getF, h.get hk]

theorem getB (h : IslKept K i j) {p : Nat} {f : Fld} (hk : K (p * 0x10000 + f.off)) : j.getB p f = i.getB p f := by
  rw [Isl.getB, Isl.getB, h.getF hk]

end IslKept

theorem blockKey_add {p off : Nat} (h : 0x100 ≤ off) (hhi : off < 65536) : BlockKey (p * 0x10000 + off) := by
  rw [BlockKey]
  omega

theorem not_blockKey {p off : Nat} (h : off < 0x100) : ¬ BlockKey (p * 0x10000 + off) := by
  rw [BlockKey]
  omega

theorem QuietKey.block {key : Nat} (h : QuietKey key) : BlockKey key := h.1

/-! Causes, tallies and captures of the island's pages touch page headers. -/

namespace IslKept

variable {K : Nat → Prop} (hK : ∀ key, K key → BlockKey key)
include hK

theorem header (i : Isl) {p off : Nat} (v : Word) (h : off < 0x100) : IslKept K i (i.put p off v) :=
  put i v (fun hk => not_blockKey h (hK _ hk))

theorem headerList : ∀ (l : List Nat) (i : Isl) {p off : Nat}, off + 4 * l.length ≤ 0x100 → IslKept K i (i.putList p off l)
  | [], i, _, _, _ => refl i
  | _ :: l, i, _, _, h => by
    rw [List.length_cons] at h
    exact (header hK i _ (by omega)).trans (headerList l _ (by omega))

theorem orCause (i : Isl) (p m : Nat) : IslKept K i (i.orCause p m) := by
  unfold Isl.orCause
  dsimp only
  exact ite (fun _ => (header hK i _ (by decide)).trans (header hK _ _ (by decide))) (fun _ => header hK i _ (by decide))

theorem bump (p n : Nat) (r : Isl × Bool) {k : Nat} (hk : k < 8) : IslKept K r.1 (islBump p n r k).1 := by
  have hcnt : ∀ v, IslKept K r.1 (r.1.put64 p (oCNT k) v) := fun v =>
    (header hK _ _ (by simp only [oCNT]; omega)).trans (header hK _ _ (by simp only [oCNT]; omega))
  simp only [islBump]
  split
  · exact hcnt _
  · exact (hcnt _).trans (header (off := oOVF) hK _ _ (by decide))

theorem tallyAdd (i : Isl) (p code : Nat) (a : Attr) (n : Nat) : IslKept K i (i.tallyAdd p code a n).1 := by
  unfold Isl.tallyAdd
  split
  · exact List.foldlRecOn (motive := fun r : Isl × Bool => IslKept K i r.1) _ _ (refl i) (fun r h k hk => h.trans (bump hK p n r (mem_allBelow_lt hk)))
  · exact refl i

end IslKept

/-- From `s` to `t` the host island's registers of `K` and its other state have stayed. -/
structure IslStep (K : Nat → Prop) (s t : State) : Prop where
  isl : IslKept K s.isl t.isl
  variant : t.variant = s.variant

namespace IslStep

variable {K L : Nat → Prop} {s t u : State}

theorem refl (s : State) : IslStep K s s := ⟨.refl _, rfl⟩

theorem trans (h : IslStep K s t) (g : IslStep K t u) : IslStep K s u := ⟨h.isl.trans g.isl, g.variant.trans h.variant⟩

theorem mono (h : IslStep K s t) (hL : ∀ key, L key → K key) : IslStep L s t := ⟨h.isl.mono hL, h.variant⟩

theorem ite {p : Prop} [Decidable p] {x y : State} (hx : p → IslStep K s x) (hy : ¬ p → IslStep K s y) : IslStep K s (if p then x else y) := by
  split
  · exact hx ‹_›
  · exact hy ‹_›

theorem onIsl (s : State) {f : Isl → Isl} (h : IslKept K s.isl (f s.isl)) : IslStep K s (s.onIsl f) := ⟨h, rfl⟩

theorem setChan (s : State) (c : Fin 4) (ch : Chan) : IslStep K s (s.setChan c ch) := ⟨.refl _, rfl⟩

theorem emit (s : State) (o : Out) : IslStep K s (s.emit o) := ⟨.refl _, rfl⟩

theorem sendVec (s : State) (m : MsiSrc) (v : Nat) : IslStep K s (s.sendVec m v) :=
  ⟨.of_sameIsland (s.sendVec_sameIsland m v), (State.sendVec_confined s 0 m v).variant⟩

theorem pageIrq (s : State) (m : MsiSrc) : IslStep K s (s.pageIrq m) :=
  ⟨.of_sameIsland (s.pageIrq_sameIsland m), (State.pageIrq_confined s 0 m).variant⟩

theorem deliverOne (s : State) (d : Nat) (v : Nat → Nat → Nat) (o : Out) : IslStep K s (State.deliverOne d v s o) := by
  refine ⟨.of_sameIsland (State.deliverOne_sameIsland s d v o), ?_⟩
  unfold State.deliverOne
  split
  · exact (State.pageIrq_confined s 0 _).variant
  · exact (State.sendVec_confined s 0 _ _).variant
  · rfl
  · rfl

theorem flush (s : State) (c : Fin 4) : IslStep K s (s.flush c) :=
  List.foldlRecOn (motive := fun t => IslStep K s t) _ _ (setChan s c _) (fun t h o _ => h.trans (deliverOne t _ _ o))

/-- A journal entry of the island's pages stands in channel 0. -/
theorem islJournal (s : State) (page cls ev detail : Nat) : IslStep K s (s.islJournal page cls ev detail) := by
  unfold State.islJournal
  exact ite (fun _ => (setChan s 0 _).trans (flush _ 0)) (fun _ => refl s)

/-- Held messages are sent (R66). -/
theorem sendHeld (s : State) : IslStep K s s.sendHeld := by
  unfold State.sendHeld
  refine List.foldlRecOn (motive := fun t => IslStep K s t) _ _ (refl s) (fun t h src _ => h.trans ?_)
  have htake : IslStep K t (t.onIsl (fun i => { i with held := i.held.filter (fun x => x != src) })) := onIsl t (.of_sameIsland rfl)
  exact ite (fun _ => ite (fun _ => htake.trans (emit _ _)) (fun _ => htake)) (fun _ => refl t)

section
variable (hK : ∀ key, K key → BlockKey key)
include hK

theorem islRaise (s : State) (p b : Nat) : IslStep K s (s.islRaise p b) := by
  unfold State.islRaise State.islRaiseMask
  dsimp only
  have hcause : ∀ (i : Isl) (b : Bool), IslKept K i (if b then i.orCause p 0x10 else i) := fun i b =>
    .ite (fun _ => .orCause hK i _ _) (fun _ => .refl i)
  have hsend : ∀ (j : Isl) (b : Bool), IslKept K s.isl j → IslStep K s (if b then { s with isl := j }.pageIrq (.isl p) else { s with isl := j }) :=
    fun j b hj => ite (fun _ => trans (t := { s with isl := j }) ⟨hj, rfl⟩ (pageIrq _ _)) (fun _ => ⟨hj, rfl⟩)
  exact hsend _ _ (((IslKept.orCause hK s.isl p _).trans (.tallyAdd hK _ p 8 {} _)).trans (hcause _ _))

theorem islTally (s : State) (p code : Nat) (a : Attr) (n : Nat) : IslStep K s (s.islTally p code a n) := by
  unfold State.islTally
  have htally : IslStep K s { s with isl := (s.isl.tallyAdd p code a n).1 } := ⟨.tallyAdd hK _ p code a n, rfl⟩
  exact ite (fun _ => htally.trans (islRaise hK _ _ _)) (fun _ => htally)

theorem islCapture (s : State) (p cls cause addr syn det : Nat) : IslStep K s (s.islCapture p cls cause addr syn det) := by
  unfold State.islCapture
  split
  · exact refl s
  · refine ite (fun _ => ite (fun _ => onIsl s ?_) (fun _ => onIsl s ?_)) (fun _ => refl s)
    · exact (IslKept.header hK s.isl _ (by decide)).trans (.header hK _ _ (by decide))
    · exact IslKept.headerList hK _ s.isl (by simp [oERR])

/-- A channel's state that changes. -/
theorem setChState (s : State) {c : Nat} (st : Nat) (hc : ¬ K (hpPwr * 0x10000 + (PWRH.CH_STAT_STATE c).off)) : IslStep K s (s.setChState c st) := by
  unfold State.setChState
  refine ite (fun _ => refl s) (fun _ => ?_)
  refine trans (t := { s with isl := { s.isl.putF hpPwr (PWRH.CH_STAT_STATE c) st with
    chSince := tput 0 (s.isl.putF hpPwr (PWRH.CH_STAT_STATE c) st).chSince c (s.isl.putF hpPwr (PWRH.CH_STAT_STATE c) st).ns } }) ?_ (islRaise hK _ _ _)
  have hput : IslKept K s.isl (s.isl.putF hpPwr (PWRH.CH_STAT_STATE c) st) := .put s.isl _ hc
  exact ⟨⟨hput.rest, hput.regs⟩, rfl⟩

end

theorem endTests (s : State) (c : Fin 4) : IslStep K s (s.endTests c) := by
  unfold State.endTests
  exact ite (fun _ => (setChan s c _).trans (flush _ c)) (fun _ => refl s)

section
variable (hK : ∀ key, K key → BlockKey key)
include hK

/-- A channel that reads FATAL (R588). -/
theorem fatalChan (s : State) {c : Fin 4} (hc : ¬ K (hpPwr * 0x10000 + (PWRH.CH_STAT_STATE c.val).off)) (cause : Nat) (off : Bool) :
    IslStep K s (s.fatalChan c cause off) := by
  have hcause : ∀ i : Isl, IslKept K i (i.putF hpPwr (PWRH.CH_STAT_CAUSE c.val) cause) := fun i => .put i _ hc
  have hoff : ∀ (i : Isl) (n : Nat), IslKept K i { i with forcedOff := n } := fun _ _ => ⟨rfl, fun _ _ => rfl⟩
  unfold State.fatalChan
  refine ite (fun _ => onIsl s ((hcause _).trans (hoff _ _))) (fun _ => ite (fun _ => ?_) (fun _ => refl s))
  have hstate := ((endTests s c).trans (setChState hK _ 6 hc)).trans
    (onIsl _ (f := fun i => i.putF hpPwr (PWRH.CH_STAT_CAUSE c.val) cause) (hcause _))
  have hpower := hstate.trans (ite (p := off = true) (fun _ =>
    onIsl _ (f := fun i => { i with forcedOff := setNbit i.forcedOff c.val true }) (hoff _ _)) (fun _ => refl _))
  exact (hpower.trans (emit _ _)).trans (islJournal _ _ _ _ _)

end

/-- The delivery of a channel's outputs, fatal causes included. -/
theorem deliver (hK : ∀ key, K key → QuietKey key) (s : State) (c : Fin 4) : IslStep K s (s.deliver c) := by
  have hc : ¬ K (hpPwr * 0x10000 + (PWRH.CH_STAT_STATE c.val).off) := fun hk => (hK _ hk).2 (by
    simp only [hpPwr]
    omega)
  unfold State.deliver
  refine List.foldlRecOn (motive := fun t => IslStep K s t) _ _ (setChan s c _) (fun t h o _ => h.trans ?_)
  cases o with
  | fatal cause => exact fatalChan (fun key hk => (hK key hk).1) t hc cause false
  | _ => exact deliverOne t _ _ _

theorem runChan (hK : ∀ key, K key → QuietKey key) (s : State) (c : Fin 4) (f : Chan → Chan) : IslStep K s (s.runChan c f) :=
  (setChan s c _).trans (deliver hK _ c)

theorem onLive (hK : ∀ key, K key → QuietKey key) (s : State) (c : Fin 4) (f : Chan → Chan) : IslStep K s (s.onLive c f) := by
  unfold State.onLive
  exact ite (fun _ => runChan hK s c f) (fun _ => refl s)

theorem onAllLive (hK : ∀ key, K key → QuietKey key) (s : State) (f : Chan → Chan) : IslStep K s (s.onAllLive f) :=
  (((onLive hK s 0 f).trans (onLive hK _ 1 f)).trans (onLive hK _ 2 f)).trans (onLive hK _ 3 f)

theorem hasChan (h : IslStep K s t) (c : Fin 4) : t.hasChan c = s.hasChan c := by rw [State.hasChan, State.hasChan, h.variant]

/-- A channel's state, where `K` names its register. -/
theorem chState (h : IslStep K s t) {c : Fin 4} (hk : K (hpPwr * 0x10000 + (PWRH.CH_STAT_STATE c.val).off)) : t.chState c = s.chState c :=
  h.isl.getF hk

end IslStep

theorem blockKey_chState (c : Fin 4) : BlockKey (hpPwr * 0x10000 + (PWRH.CH_STAT_STATE c.val).off) := blockKey_add (by simp only; omega) (by simp only; omega)

/-- The other fields of the island. -/
theorem IslStep.field {K : Nat → Prop} {s t : State} {β : Type} (h : IslStep K s t) (view : Isl → β) (hv : ∀ i, view (islRest i) = view i) :
    view t.isl = view s.isl := by rw [← hv, h.isl.rest, hv]

end Sys2Proof.Machine
end

section
set_option Elab.async false
/-! Accesses that a page or the claim gate rejects (R43, R47, R49, R87, R89). -/

namespace Sys2Proof.Machine

open Sys2Proof.Tests

/-! A rejection on the host island. -/

/-- A rejection is counted (R49), and changes registers of the HOST page only. -/
theorem State.reject_counts (s : State) {kind : Nat} (hk : kind < 3) (rd : Bool) (f addr : Nat) :
    (s.reject kind rd f addr).isl.nat hpHost (HOST.REJ_KW_CNT + 4 * kind) = satAdd 32 (s.isl.nat hpHost (HOST.REJ_KW_CNT + 4 * kind)) 1 ∧
      IslStep (fun key => BlockKey key ∧ 65536 ≤ key) s (s.reject kind rd f addr) := by
  let i1 := s.isl.inc hpHost (HOST.REJ_KW_CNT + 4 * kind)
  obtain ⟨t, hnat, hstep, heq⟩ : ∃ t : State, t.isl.nat hpHost (HOST.REJ_KW_CNT + 4 * kind) = i1.nat hpHost (HOST.REJ_KW_CNT + 4 * kind) ∧
      IslStep (fun key => BlockKey key ∧ 65536 ≤ key) s t ∧ s.reject kind rd f addr = t.islRaise hpHost 8 := by
    have hput : ∀ (i : Isl) (off : Nat) (v : Word), off < 65536 → IslKept (fun key => BlockKey key ∧ 65536 ≤ key) i (i.put hpHost off v) :=
      fun i off v ho => .put i v (fun h => by
        have := h.2
        simp only [hpHost] at this
        omega)
    have hinc : IslKept (fun key => BlockKey key ∧ 65536 ≤ key) s.isl i1 := hput _ _ _ (by simp only [HOST.REJ_KW_CNT]; omega)
    unfold State.reject
    refine ⟨_, ?_, ?_, rfl⟩
    · split
      · rfl
      · simp only [State.onIsl, Isl.nat, Isl.putN]
        rw [Isl.get_put_ne _ _ (by simp only [hpHost, HOST.REJ_KW_CNT, HOST.REJ_FIRST_HI]; omega),
          Isl.get_put_ne _ _ (by simp only [hpHost, HOST.REJ_KW_CNT, HOST.REJ_FIRST]; omega)]
    · exact .ite (fun _ => ⟨hinc, rfl⟩) (fun _ => ⟨(hinc.trans (hput _ _ _ (by decide))).trans (hput _ _ _ (by decide)), rfl⟩)
  have hraise : IslStep BlockKey t (t.islRaise hpHost 8) := .islRaise (fun _ h => h) t hpHost 8
  have hsat : satAdd 32 (s.isl.nat hpHost (HOST.REJ_KW_CNT + 4 * kind)) 1 < 2 ^ 32 := by
    unfold satAdd
    omega
  rw [heq]
  refine ⟨?_, hstep.trans (hraise.mono (fun _ h => h.1))⟩
  rw [hraise.isl.nat (blockKey_add (by simp only [HOST.REJ_KW_CNT]; omega) (by simp only [HOST.REJ_KW_CNT]; omega)), hnat]
  show ((s.isl.putN hpHost (HOST.REJ_KW_CNT + 4 * kind) (satAdd 32 (s.isl.nat hpHost (HOST.REJ_KW_CNT + 4 * kind)) 1)).get hpHost
    (HOST.REJ_KW_CNT + 4 * kind)).toNat = _
  rw [Isl.putN, Isl.get_put_same, BitVec.toNat_ofNat, Nat.mod_eq_of_lt hsat]

theorem State.chPages_of_chLive {s : State} {c : Fin 4} (hlive : s.chLive c = true) : s.chPages c = true := by
  simp only [State.chLive, Bool.and_eq_true, Bool.or_eq_true] at hlive
  obtain ⟨⟨hhas, hst⟩, hdead⟩ := hlive
  simp only [State.chPages, Bool.and_eq_true, Bool.or_eq_true]
  exact ⟨⟨hhas, hdead⟩, .inl (hst.elim (fun h => .inl (.inr h)) .inr)⟩

/-! A host write that is rejected. -/

/-- The tally of a page of a running channel. -/
theorem State.onPages_tally {s : State} {c : Fin 4} (hr : Ready s c) {p : Pg} (code : Nat) (a : Attr) : HeaderStep p c s (s.onPages c (fun ch => ch.tally p code a)) ∧
    ((s.onPages c (fun ch => ch.tally p code a)).chan c).outQ = [] := by
  have htally := HeaderOnly.tally p (s.chan c) code a 1
  have hirqs := onlyIrqs_of_nil hr.2
  rw [State.onPages_of_not_fatal _ _ _ (State.chState_ne_fatal hr.1)]
  refine ⟨htally.step (f := fun ch => ch.tally p code a) hirqs, ?_⟩
  rw [State.runChan_chan (f := fun ch => ch.tally p code a) (htally.onlyIrqs hirqs), if_pos rfl]

section
variable {s : State} {c : Fin 4} {p : Pg} {k : PageKind} {off n : Nat} {h : RegHit} (hr : HostReady s c)
include hr

/-- A write of a register with a KW field, or with an MW field by a function other than PF0, is tallied and rejected (R47). -/
theorem State.chanWrite_rejected (hook : Hook) (judge : Bool) (v : Word) (hreach : s.reach (.func n) = true) (hk : p.kind = some k)
    (hf : findReg k off = some h) {kind : Nat}
    (hrej : (kind = 0 ∧ hasKw h.flds = true) ∨ (kind = 1 ∧ hasKw h.flds = false ∧ hasMw h.flds = true ∧ n ≠ 0)) : ∃ a : Attr,
    s.chanWrite hook judge (.func n) c p off v =
      ((s.onPages c (fun ch => ch.tally p 3 a)).reject kind false n (addrOf c.val p off)).onPages c (fun ch => ch.tally p 6 a) := by
  have hpages := State.chPages_of_chLive hr.1.1
  obtain ⟨⟨hlive, -⟩, -, hperst, hup⟩ := hr
  have hhas : s.hasChan c = true := by
    simp only [State.chLive, Bool.and_eq_true] at hlive
    exact hlive.1.1
  refine ⟨(Req.func n).attr ((s.chan c).partOf n), ?_⟩
  rw [State.chanWrite]
  simp only [Req.keeper?]
  rw [if_neg (by simp [hreach, hperst]), State.hostWrite, if_neg (by simp [hhas]), if_neg (by simp [hpages, hup])]
  simp only [hk, hf]
  obtain ⟨rfl, hkw⟩ | ⟨rfl, hkw, hmw, hn⟩ := hrej
  · rw [if_pos hkw]
    rfl
  · have hpf0 : (Req.func n).isPf0 = false := by
      simp [Req.isPf0, Req.func?, hn]
    rw [if_neg (by simp [hkw]), if_pos (by simp [hmw, hpf0])]
    rfl

/-- The channel of a rejected write keeps its registers but for the page's header, and the rejection is counted. -/
theorem State.rejected_shows (kind : Nat) (hkind : kind < 3) (f addr : Nat) (a : Attr) :
    let t := ((s.onPages c (fun ch => ch.tally p 3 a)).reject kind false f addr).onPages c (fun ch => ch.tally p 6 a)
    HeaderOnly p (s.chan c) (t.chan c) ∧
      t.isl.nat hpHost (HOST.REJ_KW_CNT + 4 * kind) = satAdd 32 (s.isl.nat hpHost (HOST.REJ_KW_CNT + 4 * kind)) 1 := by
  obtain ⟨hfirst, hout⟩ := State.onPages_tally hr.1 (p := p) 3 a
  generalize s.onPages c (fun ch => ch.tally p 3 a) = t1 at hfirst hout ⊢
  obtain ⟨hcount, hstep⟩ := t1.reject_counts hkind false f addr
  have hchan : (t1.reject kind false f addr).chan c = t1.chan c := by rw [State.chan, t1.reject_chans, State.chan]
  have hstate : (t1.reject kind false f addr).chState c = s.chState c :=
    (hstep.chState ⟨blockKey_chState c, by simp only [hpPwr]; omega⟩).trans (hfirst.chState c)
  generalize t1.reject kind false f addr = t2 at hcount hchan hstate ⊢
  have htally := HeaderOnly.tally p (t2.chan c) 6 a 1
  have hlast : HeaderStep p c t2 (t2.onPages c (fun ch => ch.tally p 6 a)) := by
    rw [State.onPages_of_not_fatal _ _ _ (hstate ▸ State.chState_ne_fatal hr.1.1)]
    exact htally.step (f := fun ch => ch.tally p 6 a) (onlyIrqs_of_nil (hchan ▸ hout))
  refine ⟨hfirst.chan.trans (hchan ▸ hlast.chan), ?_⟩
  rw [Isl.nat, Isl.get, hlast.isl.regs, ← Isl.get, ← Isl.nat, hcount, Isl.nat, Isl.get, hfirst.isl.regs, ← Isl.get, ← Isl.nat]

end

/-! A keeper's write. -/

theorem exec_keeperWrite (s : State) (c : Fin 4) (k d : Fin 2) (page off : Nat) (v : Word) :
    exec (.keeperWrite c k d page off v) s = .next (s.pageWrite (keeperReq k) c ⟨d.val, page⟩ off v) := rfl

theorem findReg_word {k : PageKind} {off : Nat} {h : RegHit} (hf : findReg k off = some h) (hw : h.row.wide = false) : h.high = false := by
  unfold findReg at hf
  split at hf
  · cases hf
    rfl
  · split at hf
    · next r hfind =>
      cases hf
      have hwide := List.find?_some hfind
      simp only [Bool.and_eq_true] at hwide
      have hnarrow : r.wide = false := hw
      exact absurd hwide.1.1 (by simp [hnarrow])
    · cases hf

/-- A write of a word that is legal takes effect (R4, R46). -/
theorem State.applyWrite_word (s : State) (hook : Hook) (judge : Bool) (r : Req) (c : Fin 4) (p : Pg) {off : Nat} {k : PageKind} {h : RegHit} {v : Word}
    (hw : h.row.wide = false) (hh : h.high = false) (hj : wordLegal k off h v = true) :
    s.applyWrite hook judge r c p off k h v = s.hookRun c off (hook (wordReq s r c p off h v)) := by
  unfold State.applyWrite
  dsimp only
  rw [if_neg (by simp [hw]), if_neg (by simp [hh]), if_neg (by simp [hj])]
  rfl

section
variable {s : State} {c : Fin 4} {k : Fin 2} {p : Pg} {kd : PageKind} {off : Nat} {h : RegHit} (v : Word) (hr : Ready s c)
  (hbus : (s.chan c).busOn k.val = true) (hk : p.kind = some kd) (hf : findReg kd off = some h)
include hr hbus hk hf

/-- A keeper's write by its page's gate (R87–R89). -/
theorem State.pageWrite_keeper : s.pageWrite (keeperReq k) c p off v =
    if kd.cap.gate then
      if (s.chan c).winner = some k.val then
        if hasMw h.flds then s.onPages c (fun ch => ch.tally p 4 ((keeperReq k).attr none))
        else (s.onPages c (fun ch => ch.tally p 4 ((keeperReq k).attr none))).applyWrite (effectOf s c p off) (judged p off) (keeperReq k) c p off kd h v
      else s.onPages c (fun ch => ch.gateReject k.val p off)
    else if hasMw h.flds then s
    else s.applyWrite (effectOf s c p off) (judged p off) (keeperReq k) c p off kd h v := by
  have hkeeper : (keeperReq k).keeper? = some k.val := by
    fin_cases k <;> rfl
  rw [State.pageWrite, State.chanWrite, hkeeper]
  dsimp only
  rw [State.keeperWrite, if_pos ⟨State.chPages_of_chLive hr.1, hbus⟩, hk]
  dsimp only
  rw [hf]
  rfl

variable (hw : h.row.wide = false) (hj : wordLegal kd off h v = true) (hmw : hasMw h.flds = false)

include hw hj hmw in
/-- The winning keeper's write behind a gate. -/
theorem State.pageWrite_winner (hg : kd.cap.gate = true) (hwin : (s.chan c).winner = some k.val) :
    let t := s.onPages c (fun ch => ch.tally p 4 ((keeperReq k).attr none))
    s.pageWrite (keeperReq k) c p off v = t.hookRun c off (effectOf s c p off (wordReq t (keeperReq k) c p off h v)) := by
  intro t
  rw [State.pageWrite_keeper v hr hbus hk hf, if_pos hg, if_pos hwin, if_neg (by simp [hmw])]
  exact State.applyWrite_word t _ _ _ c p hw (findReg_word hf hw) hj

/-- The other keeper's write behind a gate. -/
theorem State.pageWrite_loser (hg : kd.cap.gate = true) (hwin : (s.chan c).winner ≠ some k.val) :
    s.pageWrite (keeperReq k) c p off v = s.onPages c (fun ch => ch.gateReject k.val p off) := by
  rw [State.pageWrite_keeper v hr hbus hk hf, if_pos hg, if_neg hwin]

include hw hj hmw in
/-- A keeper's write of a page without a gate. -/
theorem State.pageWrite_ungated (hg : kd.cap.gate = false) :
    s.pageWrite (keeperReq k) c p off v = s.hookRun c off (effectOf s c p off (wordReq s (keeperReq k) c p off h v)) := by
  rw [State.pageWrite_keeper v hr hbus hk hf, if_neg (by simp [hg]), if_neg (by simp [hmw])]
  exact State.applyWrite_word s _ _ _ c p hw (findReg_word hf hw) hj

end

/-! COSY.TE_BOUND (R158). -/

theorem setFld_all (w v : Word) : setFld w 31 0 (fld v 31 0) = v := by
  have hw := w.isLt
  have hv := v.isLt
  refine BitVec.eq_of_toNat_eq ?_
  simp only [setFld, fld, BitVec.toNat_ofNat, Nat.shiftRight_eq_div_pow]
  omega

/-- TE_BOUND is written whole, and BOUND_STALE clears. -/
theorem teBoundHook_writes {w : WReq} (ch : Chan) {old v : Word} (hp : w.p = pgCosy) (ho : w.off = COSY.TE_BOUND)
    (hm : w.merged = mergeWord (Wit.hit .cosy COSY.TE_BOUND).row.fields old v) :
    (teBoundHook w ch).get pgCosy COSY.TE_BOUND = v ∧ (teBoundHook w ch).getB pgCosy COSY.STATUS_BOUND_STALE = false ∧
      workOf (teBoundHook w ch) = workOf ch ∧ ∀ key, key ≠ pgCosy.key COSY.TE_BOUND → key ≠ pgCosy.key COSY.STATUS → rget chanReset (teBoundHook w ch).regs key = rget chanReset ch.regs key := by
  have hword : w.merged = v := hm.trans (setFld_all old v)
  have hhook : teBoundHook w ch = (ch.put pgCosy COSY.TE_BOUND v).putF pgCosy COSY.STATUS_BOUND_STALE 0 := by rw [teBoundHook, hp, ho, hword]
  rw [hhook]
  refine ⟨?_, ?_, rfl, fun key hb hs => ?_⟩
  · exact (Chan.get_put_ne _ _ (by decide)).trans (Chan.get_put_same _ _ _ _)
  · have hzero := Chan.getF_putF_same (ch.put pgCosy COSY.TE_BOUND v) pgCosy COSY.STATUS_BOUND_STALE 0 le_rfl (by decide)
    rw [Chan.getB, hzero]
    rfl
  · exact (Chan.rget_put_ne _ _ hs).trans (Chan.rget_put_ne _ _ hb)

/-- A refused write is counted on the keeper's own page, with its cause (R89). -/
theorem Chan.gateReject_shows (ch : Chan) (k : Fin 2) (off : Nat) :
    (ch.gateReject k.val pgCosy off).nat (pgKeep k.val) KEEP.GATE_REJ_CNT = satAdd 32 (ch.nat (pgKeep k.val) KEEP.GATE_REJ_CNT) 1 ∧
      bit ((ch.gateReject k.val pgCosy off).get (pgKeep k.val) oCAUSE) 12 = true ∧
      (ch.gateReject k.val pgCosy off).get pgCosy COSY.TE_BOUND = ch.get pgCosy COSY.TE_BOUND ∧
      (NoFatal ch.outQ → NoFatal (ch.gateReject k.val pgCosy off).outQ) := by
  let K : Nat → Prop := fun key => key = (pgKeep k.val).key KEEP.GATE_REJ_CNT ∨ key = pgCosy.key COSY.TE_BOUND
  have hkeep : ∀ o, (pgKeep k.val).key o = (if k.val = 0 then 0 else 0x2000000) + o := pgKeep_key k.val
  have hcosy : pgCosy.key COSY.TE_BOUND = 0x20104 := rfl
  have hcosyHeader : ∀ key, K key → ¬ InHeader pgCosy key := fun key hk hh => by
    have hk : key = (pgKeep k.val).key KEEP.GATE_REJ_CNT ∨ key = pgCosy.key COSY.TE_BOUND := hk
    rw [hkeep, hcosy] at hk
    simp only [InHeader, Pg.key, KEEP.GATE_REJ_CNT] at hh hk
    norm_num at hh
    split at hk <;> omega
  have hkeepHeader : ∀ key, K key → ¬ InHeader (pgKeep k.val) key := fun key hk hh => by
    have hk : key = (pgKeep k.val).key KEEP.GATE_REJ_CNT ∨ key = pgCosy.key COSY.TE_BOUND := hk
    rw [hkeep, hcosy] at hk
    rw [InHeader, hkeep, hkeep] at hh
    simp only [KEEP.GATE_REJ_CNT] at hk
    split at hk <;> rename_i hzero <;> simp only [hzero, if_true, if_false] at hh <;> omega
  obtain ⟨c1, hc1⟩ : ∃ c1, c1 = ch.tally pgCosy 5 { priv := some 1, agent := some (0x100 + k.val) } := ⟨_, rfl⟩
  have htally : Spares K id ch c1 := hc1 ▸ .tally hcosyHeader ch 5 _ 1
  have hrest : Spares K id (c1.inc (pgKeep k.val) KEEP.GATE_REJ_CNT) (ch.gateReject k.val pgCosy off) := by
    unfold Chan.gateReject
    dsimp only
    rw [← hc1]
    refine Spares.trans (.ite (fun _ => .refl _) (fun _ => .put _ _ _ _ (fun hk => ?_))) (.raise hkeepHeader _ 12)
    have hk : _ = (pgKeep k.val).key KEEP.GATE_REJ_CNT ∨ _ = pgCosy.key COSY.TE_BOUND := hk
    rw [hkeep, hkeep, hcosy] at hk
    simp only [KEEP.GATE_REJ_FIRST, KEEP.GATE_REJ_CNT] at hk
    split at hk <;> omega
  have hsat : satAdd 32 (ch.nat (pgKeep k.val) KEEP.GATE_REJ_CNT) 1 < 2 ^ 32 := by
    unfold satAdd
    omega
  refine ⟨?_, Chan.cause_raise _ _ (by decide), ?_, fun hq => hrest.outs (htally.outs hq)⟩
  · rw [Chan.nat, hrest.get (.inl rfl), Chan.inc, Chan.putN, Chan.get_put_same, BitVec.toNat_ofNat, Chan.nat, htally.get (.inl rfl), ← Chan.nat,
      Nat.mod_eq_of_lt hsat]
  · rw [hrest.get (.inr rfl)]
    refine (Chan.get_put_ne _ _ ?_).trans (htally.get (.inr rfl))
    rw [hkeep, hcosy]
    simp only [KEEP.GATE_REJ_CNT]
    split <;> omega

end Sys2Proof.Machine
end

section
set_option Elab.async false
namespace Sys2Proof.Proofs

open Sys2Proof Sys2Proof.Machine Sys2Proof.Tests

theorem exec_regWrite_full (s : State) (r : Req) (addr : Nat) (v : Word) : exec (.regWrite r addr v true) s = .next (s.busWrite r addr v) := rfl

/-- A host write that is rejected. -/
theorem completes_rejected {s : State} {c : Fin 4} {k : PageKind} {p : Pg} {off n kind : Nat} {h : RegHit} (v : Word) (hr : HostReady s c)
    (hreach : s.reach (.func n) = true) (hk : p.kind = some k) (hhi : off < 65536) (hf : findReg k off = some h) (hkind : kind < 3)
    (hrej : (kind = 0 ∧ hasKw h.flds = true) ∨ (kind = 1 ∧ hasKw h.flds = false ∧ hasMw h.flds = true ∧ n ≠ 0))
    (hblock : ¬ InHeader p (p.key off)) :
    Completes (.regWrite (.func n) (addrOf c.val p off) v true) s (fun t => (t.chan c).get p off = (s.chan c).get p off ∧
      workOf (t.chan c) = workOf (s.chan c) ∧
      t.isl.nat hpHost (HOST.REJ_KW_CNT + 4 * kind) = satAdd 32 (s.isl.nat hpHost (HOST.REJ_KW_CNT + 4 * kind)) 1) := by
  obtain ⟨a, hw⟩ := State.chanWrite_rejected (hook := hookOf (s.hostReach c) (fun v => (s.isl.vecOwner v).1) p off) (judge := judged p off) hr v
    hreach hk hf hrej
  have hexec := exec_regWrite_full s (.func n) (addrOf c.val p off) v
  rw [State.busWrite_addrOf s _ c v hk hhi, State.pageWrite, hw] at hexec
  obtain ⟨hheader, hcount⟩ := State.rejected_shows (p := p) hr kind hkind n (addrOf c.val p off) a
  exact ⟨_, hexec, hheader.get hblock, hheader.work, hcount⟩

section
variable {s : State} {c : Fin 4} {k : Fin 2} (v : Word) (hr : Ready s c) (hbus : (s.chan c).busOn k.val = true)
include hr hbus

/-- The winner publishes a bound (R87). -/
theorem completes_boundWritten (hwin : (s.chan c).winner = some k.val) :
    Completes (.keeperWrite c k 0 2 COSY.TE_BOUND v) s (fun t => (t.chan c).get pgCosy COSY.TE_BOUND = v ∧
      (t.chan c).getB pgCosy COSY.STATUS_BOUND_STALE = false ∧ workOf (t.chan c) = workOf (s.chan c) ∧
      ∀ key, key ≠ pgCosy.key COSY.TE_BOUND → key ≠ pgCosy.key COSY.STATUS → ¬ (pgCosy.key 0 ≤ key ∧ key < pgCosy.key 0x100) →
        rget chanReset (t.chan c).regs key = rget chanReset (s.chan c).regs key) := by
  have hwrite := State.pageWrite_winner (p := pgCosy) (kd := .cosy) (off := COSY.TE_BOUND) (h := Wit.hit .cosy COSY.TE_BOUND) v hr hbus rfl rfl rfl rfl rfl
    rfl hwin
  have htally := HeaderOnly.tally pgCosy (s.chan c) 4 ((keeperReq k).attr none) 1
  have hirqs := onlyIrqs_of_nil hr.2
  have hfatal := State.chState_ne_fatal hr.1
  obtain ⟨t, ht, hout, heq⟩ : ∃ t : State, HeaderStep pgCosy c s t ∧ (t.chan c).outQ = [] ∧
      s.onPages c (fun ch => ch.tally pgCosy 4 ((keeperReq k).attr none)) = t := by
    rw [State.onPages_of_not_fatal _ _ _ hfatal]
    refine ⟨_, htally.step (f := fun ch => ch.tally pgCosy 4 ((keeperReq k).attr none)) hirqs, ?_, rfl⟩
    rw [State.runChan_chan (f := fun ch => ch.tally pgCosy 4 ((keeperReq k).attr none)) (htally.onlyIrqs hirqs), if_pos rfl]
  dsimp only at hwrite
  rw [heq, State.hookRun, if_neg (by decide), State.onPages_of_not_fatal _ _ _ (by rwa [ht.chState])] at hwrite
  have hreq : ∃ w : WReq, wordReq t (keeperReq k) c pgCosy COSY.TE_BOUND (Wit.hit .cosy COSY.TE_BOUND) v = w ∧ w.p = pgCosy ∧
      w.off = COSY.TE_BOUND ∧ ∃ old, w.merged = mergeWord (Wit.hit .cosy COSY.TE_BOUND).row.fields old v := ⟨_, rfl, rfl, rfl, _, rfl⟩
  obtain ⟨w, hw, hp, ho, old, hm⟩ := hreq
  rw [hw] at hwrite
  have hchan : (s.pageWrite (keeperReq k) c pgCosy COSY.TE_BOUND v).chan c = teBoundHook w (t.chan c) := by
    rw [hwrite]
    refine (congrArg (fun x : State => x.chan c) (State.runChan_eq t c _ ?_)).trans (State.chan_setChan_same _ _ _)
    exact hout
  obtain ⟨hbound, hstale, hwork, hothers⟩ := teBoundHook_writes (t.chan c) hp ho hm
  refine ⟨_, exec_keeperWrite s c k 0 2 COSY.TE_BOUND v, ?_⟩
  rw [show (⟨(0 : Fin 2).val, 2⟩ : Pg) = pgCosy from rfl]
  dsimp only
  rw [hchan]
  exact ⟨hbound, hstale, hwork.trans ht.chan.work, fun key hb hs hh => (hothers key hb hs).trans (ht.chan.regs key hh)⟩

/-- The loser's bound is refused (R89). -/
theorem completes_boundRefused (hwin : (s.chan c).winner ≠ some k.val) :
    Completes (.keeperWrite c k 0 2 COSY.TE_BOUND v) s (fun t => (t.chan c).get pgCosy COSY.TE_BOUND = (s.chan c).get pgCosy COSY.TE_BOUND ∧
      (t.chan c).nat (pgKeep k.val) KEEP.GATE_REJ_CNT = satAdd 32 ((s.chan c).nat (pgKeep k.val) KEEP.GATE_REJ_CNT) 1 ∧
      bit ((t.chan c).get (pgKeep k.val) oCAUSE) 12 = true) := by
  have hwrite := State.pageWrite_loser (p := pgCosy) (kd := .cosy) (off := COSY.TE_BOUND) (h := Wit.hit .cosy COSY.TE_BOUND) v hr hbus rfl rfl rfl hwin
  obtain ⟨hcount, hcause, hbound, houts⟩ := (s.chan c).gateReject_shows k COSY.TE_BOUND
  have hcalm := State.runChan_calm (s := s) (c := c) (f := fun ch => ch.gateReject k.val pgCosy COSY.TE_BOUND) (houts (noFatal_of_nil hr.2))
  rw [State.onPages_of_not_fatal _ _ _ (State.chState_ne_fatal hr.1)] at hwrite
  rw [← hwrite] at hcalm
  have hkeepPage : (pgKeep k.val).key 0 / 65536 ≠ pgJrnl.key 0 / 65536 := by fin_cases k <;> decide
  refine ⟨_, exec_keeperWrite s c k 0 2 COSY.TE_BOUND v, ?_⟩
  rw [show (⟨(0 : Fin 2).val, 2⟩ : Pg) = pgCosy from rfl]
  refine ⟨?_, ?_, ?_⟩
  · rw [calm_get hcalm (by decide) (by decide)]
    exact hbound
  · rw [Chan.nat, calm_get hcalm (by decide) hkeepPage]
    exact hcount
  · rw [calm_get hcalm (by decide) hkeepPage]
    exact hcause

end

/-- Settles O18: a rejected access changes headers and counters only; a keeper's write takes effect, or is refused, by the claim gate. -/
theorem rejectedAccesses : Obligations.RejectedAccesses := by
  refine ⟨fun s addr hr => ?_, ⟨fun s c v hr => ?_, fun s c n v hr hreach hn => ?_⟩, fun s c k v hr hbus => ⟨fun hwin => completes_boundWritten v hr hbus hwin,
    fun hwin => completes_boundRefused v hr hbus hwin⟩, fun s c k d page kd off h v hr hbus hk ho hf => ⟨fun hg hwin hmw hw hj => ?_, fun hg hwin => ?_,
      fun hg hmw hw hj => ?_⟩⟩
  · obtain ⟨hdead, hperst⟩ := hr
    exact ⟨_, congrArg Host.Outcome.next (if_pos ⟨by simp [State.reach, hdead], hperst⟩), rfl, rfl, fun _ => rfl⟩
  · have hreach : s.reach (.func 0) = true := by simp [State.reach, hr.2.1]
    exact completes_rejected (k := .cosy) (h := Wit.hit .cosy COSY.TE_BOUND) (kind := 0) v hr hreach rfl (by decide) rfl (by decide) (.inl ⟨rfl, rfl⟩)
      (by simp only [InHeader, Pg.key]; norm_num)
  · exact completes_rejected (k := .cosy) (h := Wit.hit .cosy COSY.TIME_PRIO) (kind := 1) v hr hreach rfl (by decide) rfl (by decide)
      (.inr ⟨rfl, rfl, rfl, hn⟩) (by simp only [InHeader, Pg.key]; norm_num)
  · exact ⟨_, exec_keeperWrite s c k d page off v, State.pageWrite_winner v hr hbus hk hf hw hj hmw hg hwin⟩
  · exact ⟨_, exec_keeperWrite s c k d page off v, State.pageWrite_loser v hr hbus hk hf hg hwin⟩
  · exact ⟨_, exec_keeperWrite s c k d page off v, State.pageWrite_ungated v hr hbus hk hf hw hj hmw hg⟩

end Sys2Proof.Proofs
end

section
set_option Elab.async false
/-! The supply, the straps and the channels' states (R588, R592–R603). -/

namespace Sys2Proof.Machine

theorem Isl.getF_putF_same (i : Isl) (p : Nat) (f : Fld) (v : Nat) (hl : f.lo ≤ f.hi) (h32 : f.hi < 32) :
    (i.putF p f v).getF p f = v % 2 ^ (f.hi + 1 - f.lo) := by
  rw [Isl.getF, Isl.putF, Isl.get_put_same, fld_setFld_same _ _ _ _ hl h32]

/-- Another field of the same register. -/
theorem Isl.getF_putF_ne (i : Isl) (p : Nat) {f g : Fld} (v : Nat) (ho : g.off = f.off) (hl : f.lo ≤ f.hi) (h32 : g.hi < 32)
    (hd : f.hi < g.lo ∨ g.hi < f.lo) : (i.putF p f v).getF p g = i.getF p g := by
  rw [Isl.getF, Isl.putF, Isl.getF, ho, Isl.get_put_same, fld_setFld_ne _ _ _ _ _ _ hl h32 hd]

/-- A block register but the one that channel `c`'s state stands in. -/
def StateAside (c : Fin 4) (key : Nat) : Prop := BlockKey key ∧ key ≠ hpPwr * 0x10000 + (PWRH.CH_STAT_STATE c.val).off

theorem StateAside.block {c : Fin 4} : ∀ key, StateAside c key → BlockKey key := fun _ h => h.1

theorem not_stateAside (c : Fin 4) : ¬ StateAside c (hpPwr * 0x10000 + (PWRH.CH_STAT_STATE c.val).off) := fun h => h.2 rfl

theorem stateAside_chState {c d : Fin 4} (h : d ≠ c) : StateAside c (hpPwr * 0x10000 + (PWRH.CH_STAT_STATE d.val).off) := by
  refine ⟨blockKey_chState d, fun e => h (Fin.ext ?_)⟩
  dsimp only at e
  omega

theorem stateAside_low (c : Fin 4) {off : Nat} (hlo : 0x100 ≤ off) (hhi : off < 0x120) : StateAside c (hpPwr * 0x10000 + off) := by
  refine ⟨blockKey_add hlo (by omega), ?_⟩
  dsimp only
  omega

/-- Setting a channel's state leaves the host island's other block registers. -/
theorem State.setChState_aside (s : State) (c : Fin 4) (st : Nat) : IslStep (StateAside c) s (s.setChState c.val st) :=
  .setChState StateAside.block s st (not_stateAside c)

theorem State.setChState_chState (s : State) (c : Fin 4) {st : Nat} (h : st < 8) : (s.setChState c.val st).chState c = st := by
  unfold State.setChState
  split
  · assumption
  · refine ((IslStep.islRaise (K := BlockKey) (fun _ h => h) _ hpPwr 8).chState (blockKey_chState c)).trans ?_
    refine (Isl.getF_putF_same s.isl hpPwr (PWRH.CH_STAT_STATE c.val) st (by norm_num) (by norm_num)).trans ?_
    exact Nat.mod_eq_of_lt h

/-! What a channel's requests bring it to (R598, R599). -/

/-- The state that `settle` leaves a channel in. -/
def State.settled (s : State) (c : Fin 4) : Nat :=
  if s.hasChan c = false ∨ s.isl.pkgFatal ∨ s.isl.pwrgood = false then s.chState c
  else if s.wanted c = 1 then (if s.chState c = 0 ∨ s.chState c = 5 then 1 else s.chState c)
  else s.wanted c

theorem State.wanted_lt (s : State) (c : Fin 4) : s.wanted c < 8 := by
  unfold State.wanted
  split
  · decide
  · split <;> decide

theorem State.settle_chState (s : State) (c : Fin 4) : (s.settle c).chState c = s.settled c := by
  unfold State.settle State.settled
  dsimp only
  split
  · rfl
  · split
    · split
      · exact State.setChState_chState _ _ (by decide)
      · rfl
    · exact State.setChState_chState _ _ (s.wanted_lt c)

theorem State.settle_aside (s : State) (c : Fin 4) : IslStep (StateAside c) s (s.settle c) := by
  unfold State.settle
  refine .ite (fun _ => .refl s) (fun _ => .ite (fun _ => .ite (fun _ => State.setChState_aside s c 1) (fun _ => .refl s)) (fun _ => ?_))
  exact ((IslStep.setChan s c (s.chan c).fresh).trans
    (.onIsl _ (f := fun i => { i with forcedOff := setNbit i.forcedOff c.val false }) ⟨rfl, fun _ _ => rfl⟩)).trans (State.setChState_aside _ c _)

/-- A channel that is held, or without power, has lost its state (R596). -/
theorem State.settle_fresh (s : State) (c : Fin 4) (hready : PowerReady s c) (h : s.wanted c ≠ 1) : (s.settle c).chan c = (s.chan c).fresh := by
  obtain ⟨hhas, hfatal, hgood⟩ := hready
  unfold State.settle
  rw [if_neg (by simp [hhas, hfatal, hgood])]
  dsimp only
  rw [if_neg h]
  exact (congrArg (fun l : Vector Chan 4 => l[c]) (State.setChState_chans _ c.val _)).trans (State.chan_setChan_same s c _)

theorem State.settle_pref (s : State) (c d : Fin 4) : ((s.settle c).chan d).pref = (s.chan d).pref := by
  have hstate : ∀ (t : State) (st : Nat), (t.setChState c.val st).chan d = t.chan d := fun t st =>
    congrArg (fun l : Vector Chan 4 => l[d]) (State.setChState_chans t c.val st)
  unfold State.settle
  dsimp only
  split
  · rfl
  · split
    · split
      · rw [hstate]
      · rfl
    · rw [hstate]
      show ((s.setChan c (s.chan c).fresh).chan d).pref = _
      rw [State.chan_setChan]
      split
      · subst d
        rfl
      · rfl

/-- What `settled` reads of the host island. -/
theorem IslStep.settled {K : Nat → Prop} {s t : State} {c : Fin 4} (h : IslStep K s t) (hst : K (hpPwr * 0x10000 + (PWRH.CH_STAT_STATE c.val).off))
    (hctrl : K (hpPwr * 0x10000 + PWRH.CH_CTRL c.val)) : t.settled c = s.settled c := by
  have hpd : t.isl.getB hpPwr (PWRH.CH_CTRL_PD c.val) = s.isl.getB hpPwr (PWRH.CH_CTRL_PD c.val) := h.isl.getB hctrl
  have hreset : t.isl.getB hpPwr (PWRH.CH_CTRL_RESET c.val) = s.isl.getB hpPwr (PWRH.CH_CTRL_RESET c.val) := h.isl.getB hctrl
  rw [State.settled, State.settled, State.wanted, State.wanted, h.hasChan, h.field (·.pkgFatal) (fun _ => rfl), h.field (·.pwrgood) (fun _ => rfl),
    h.field (·.chPin) (fun _ => rfl), h.chState hst, hpd, hreset]

/-- Each of several channels settles on its own. -/
theorem State.settle_each (c : Fin 4) : ∀ (l : List (Fin 4)) (s : State), l.Nodup →
    (l.foldl State.settle s).chState c = if c ∈ l then s.settled c else s.chState c
  | [], s, _ => rfl
  | d :: l, s, h => by
    obtain ⟨hd, hl⟩ := List.nodup_cons.1 h
    rw [List.foldl_cons, State.settle_each c l _ hl]
    by_cases hdc : c = d
    · subst hdc
      rw [if_neg hd, if_pos (List.mem_cons_self ..), State.settle_chState]
    · have haside := s.settle_aside d
      have hctrl : StateAside d (hpPwr * 0x10000 + PWRH.CH_CTRL c.val) := stateAside_low d (Nat.le_add_right_of_le (by decide)) (by have := c.isLt; unfold PWRH.CH_CTRL; omega)
      rw [haside.settled (stateAside_chState hdc) hctrl, haside.chState (stateAside_chState hdc)]
      simp only [List.mem_cons, hdc, false_or]

/-- With the package running, the state is the one that PD, RESET and the pin ask for. -/
theorem State.settled_of_ready {s : State} {c : Fin 4} (h : PowerReady s c) : s.settled c =
    if s.isl.getB hpPwr (PWRH.CH_CTRL_PD c.val) then 0
    else if s.isl.getB hpPwr (PWRH.CH_CTRL_RESET c.val) || nbit s.isl.chPin c.val then 5
    else if s.chState c = 0 ∨ s.chState c = 5 then 1 else s.chState c := by
  obtain ⟨hhas, hfatal, hgood⟩ := h
  rw [State.settled, if_neg (by simp [hhas, hfatal, hgood]), State.wanted]
  split
  · rw [if_neg (by decide)]
  · split
    · rw [if_neg (by decide)]
    · rw [if_pos rfl]

/-- A journal entry of the island leaves every channel's state. -/
theorem State.islJournal_chState (s : State) (page cls ev detail : Nat) (c : Fin 4) : (s.islJournal page cls ev detail).chState c = s.chState c :=
  (IslStep.islJournal (K := BlockKey) s page cls ev detail).chState (blockKey_chState c)

/-- A channel that is not RUNNING keeps its state, whatever the island journals. -/
theorem State.islJournal_idle (s : State) (page cls ev detail : Nat) {c : Fin 4} (h : s.chState c ≠ 4) : (s.islJournal page cls ev detail).chan c = s.chan c := by
  by_cases hc : c = 0
  · subst hc
    rw [State.islJournal, if_neg h]
  · exact (s.islJournal_confined 0 page cls ev detail).others c hc hc

/-! The reset pin (R599). -/

/-- The pin as it is driven. -/
def State.drivePin (s : State) (c : Fin 4) (on : Bool) : State := s.onIsl (fun i => { i with chPin := setNbit i.chPin c.val on })

theorem State.drivePin_pin (s : State) (c : Fin 4) (on : Bool) : nbit (s.drivePin c on).isl.chPin c.val = on := nbit_setNbit_same _ _ on

theorem State.settle_pin (s : State) (c : Fin 4) : (s.settle c).isl.chPin = s.isl.chPin := (s.settle_aside c).field (·.chPin) (fun _ => rfl)

theorem State.chRstAssert_shows {s : State} {c : Fin 4} (hready : PowerReady s c) : Completes (.chRstAssert c) s (fun t =>
    nbit t.isl.chPin c.val = true ∧ t.chan c = (s.chan c).fresh ∧ t.chState c = if s.isl.getB hpPwr (PWRH.CH_CTRL_PD c.val) then 0 else 5) := by
  obtain ⟨s1, hs1⟩ : ∃ s1, s1 = s.drivePin c true := ⟨_, rfl⟩
  have hready1 : PowerReady s1 c := hs1 ▸ hready
  have hpin : nbit s1.isl.chPin c.val = true := hs1 ▸ s.drivePin_pin c true
  have hstate : (s1.settle c).chState c = if s.isl.getB hpPwr (PWRH.CH_CTRL_PD c.val) then 0 else 5 := by
    rw [State.settle_chState, State.settled_of_ready hready1, hpin, Bool.or_true, if_pos (rfl : true = true), hs1]
    rfl
  have hwanted : s1.wanted c ≠ 1 := by
    rw [State.wanted, hpin, Bool.or_true, if_pos (rfl : true = true)]
    split <;> decide
  have hfresh : (s1.settle c).chan c = (s.chan c).fresh := (State.settle_fresh s1 c hready1 hwanted).trans (hs1 ▸ rfl)
  have hrunning : (s1.settle c).chState c ≠ 4 := by
    rw [hstate]
    split <;> decide
  have hpinned : nbit (s1.settle c).isl.chPin c.val = true := by rw [State.settle_pin, hpin]
  have hexec : exec (.chRstAssert c) s = .next (if (s1.settle c).chState c = 5 ∧ s.chState c ≠ 5
      then (s1.settle c).islJournal hpPwr clsNone 1 c.val else s1.settle c) := by
    rw [hs1]
    exact congrArg Host.Outcome.next (if_pos hready.1)
  refine ⟨_, hexec, ?_⟩
  dsimp only
  split
  · have hjournal := IslStep.islJournal (K := BlockKey) (s1.settle c) hpPwr clsNone 1 c.val
    rw [hjournal.field (·.chPin) (fun _ => rfl), State.islJournal_idle _ _ _ _ _ hrunning, State.islJournal_chState]
    exact ⟨hpinned, hfresh, hstate⟩
  · exact ⟨hpinned, hfresh, hstate⟩

theorem State.chRstRelease_shows {s : State} {c : Fin 4} (hready : PowerReady s c) : Completes (.chRstRelease c) s (fun t =>
    nbit t.isl.chPin c.val = false ∧ t.chState c = if s.isl.getB hpPwr (PWRH.CH_CTRL_PD c.val) then 0
      else if s.isl.getB hpPwr (PWRH.CH_CTRL_RESET c.val) then 5 else if s.chState c = 0 ∨ s.chState c = 5 then 1 else s.chState c) := by
  have hready1 : PowerReady (s.drivePin c false) c := hready
  refine ⟨_, congrArg Host.Outcome.next (if_pos hready.1), ?_, ?_⟩
  · exact (congrArg (fun n => nbit n c.val) (State.settle_pin _ c)).trans (s.drivePin_pin c false)
  · refine (State.settle_chState (s.drivePin c false) c).trans ?_
    rw [State.settled_of_ready hready1, State.drivePin_pin, Bool.or_false]
    rfl

/-! A write of PWR.CH_CTRL (R599). -/

theorem findReg_chCtrl (c : Fin 4) : findReg .pwrH (PWRH.CH_CTRL c.val) = findReg .pwrH (PWRH.CH_CTRL 0) := by fin_cases c <;> rfl

theorem State.islReg_chCtrl {s : State} {c : Fin 4} (h : s.hasChan c = true) : s.islReg hpPwr (PWRH.CH_CTRL c.val) = findReg .pwrH (PWRH.CH_CTRL c.val) := by
  have hc : c.val < s.variant.channels := of_decide_eq_true h
  have howner : islChanOf hpPwr (PWRH.CH_CTRL c.val) = some c.val := by fin_cases c <;> rfl
  rw [State.islReg, howner]
  exact if_pos hc

/-- A write of the host island by a requester with PF0's rights runs the register's effect after its tally (R41, R47). -/
theorem State.islWrite_runs {s : State} (hook : IslHook) {r : Req} {p off : Nat} {k : PageKind} {h : RegHit} {v : Word} (hready : IslReady s)
    (hreach : s.reach r = true) (hkeeper : r.keeper? = none) (hport : r ≠ .smbus) (hpf0 : r.isPf0 = true) (hk : hpKind p = some k)
    (hreg : s.islReg p off = some h) (hw : h.row.wide = false) (hh : h.high = false) (hj : wordLegal k off h v = true) :
    let t := s.islTally p 3 (r.attr none)
    s.islWrite hook r p off v = hook p off (t.isl.get p off) v (mergeWord h.row.fields (t.isl.get p off) v) t := by
  obtain ⟨-, hperst⟩ := hready
  rw [State.islWrite, hkeeper]
  dsimp only
  rw [if_neg (by simp [hreach, hperst]), if_neg (by simp [hport]), hk, hreg]
  dsimp only
  rw [if_neg (by simp [hpf0]), if_neg (by simp [hpf0]), if_neg (by simp [hw]), if_neg (by simp [hh]), if_neg (by simp [hj])]

theorem bit_eq_decide_fld (w : Word) (i : Nat) : bit w i = decide (fld w i i ≠ 0) := by
  have hlt : fld w i i < 2 := by
    rw [fld, Nat.add_sub_cancel_left, pow_one]
    exact Nat.mod_lt _ (by decide)
  rw [bit_eq_fld]
  interval_cases fld w i i <;> rfl

/-- CH_CTRL takes RESET and PD of the word. -/
theorem merge_chCtrl {h : RegHit} (hf : findReg .pwrH (PWRH.CH_CTRL 0) = some h) (old v : Word) :
    fld (mergeWord h.row.fields old v) 31 31 = fld v 31 31 ∧ fld (mergeWord h.row.fields old v) 30 30 = fld v 30 30 := by
  cases hf
  have hmod : ∀ i, fld v i i % 2 ^ (i + 1 - i) = fld v i i := fun i => fld_mod v i i
  refine ⟨?_, ?_⟩
  · refine (fld_setFld_ne _ 30 30 _ 31 31 le_rfl (by decide) (.inl (by decide))).trans ?_
    exact (fld_setFld_same _ 31 31 _ le_rfl (by decide)).trans (hmod 31)
  · exact (fld_setFld_same _ 30 30 _ le_rfl (by decide)).trans (hmod 30)

/-- The state that a write of CH_CTRL brings the channel to. -/
theorem State.chCtrl_chState {s : State} {c : Fin 4} (hready : PowerReady s c) (old v m : Word) :
    (chCtrlHook c hpPwr (PWRH.CH_CTRL c.val) old v m s).chState c =
      if fld m 30 30 ≠ 0 then 0 else if decide (fld m 31 31 ≠ 0) || nbit s.isl.chPin c.val then 5
      else if s.chState c = 0 ∨ s.chState c = 5 then 1 else s.chState c := by
  obtain ⟨s1, hs1⟩ : ∃ s1, s1 = s.onIsl (fun i => i.put hpPwr (PWRH.CH_CTRL c.val) m) := ⟨_, rfl⟩
  have hready1 : PowerReady s1 c := hs1 ▸ hready
  have hfield : ∀ hi, s1.isl.getB hpPwr ⟨PWRH.CH_CTRL c.val, hi, hi⟩ = decide (fld m hi hi ≠ 0) := fun hi => by
    rw [hs1, Isl.getB, Isl.getF, State.onIsl_isl, Isl.get_put_same]
  have hstate : s1.chState c = s.chState c := by
    rw [hs1]
    exact congrArg (fun w : Word => fld w 31 29) (Isl.get_put_ne s.isl m (by unfold PWRH.CH_CTRL; dsimp only; omega))
  have hsettled : (s1.settle c).chState c = if fld m 30 30 ≠ 0 then 0 else if decide (fld m 31 31 ≠ 0) || nbit s.isl.chPin c.val then 5
      else if s.chState c = 0 ∨ s.chState c = 5 then 1 else s.chState c := by
    rw [State.settle_chState, State.settled_of_ready hready1, hstate, show PWRH.CH_CTRL_PD c.val = ⟨PWRH.CH_CTRL c.val, 30, 30⟩ from rfl,
      show PWRH.CH_CTRL_RESET c.val = ⟨PWRH.CH_CTRL c.val, 31, 31⟩ from rfl, hfield, hfield, hs1]
    simp only [decide_eq_true_eq]
    rfl
  rw [← hsettled, chCtrlHook, ← hs1]
  have hjournal : ∀ (t : State) (p : Prop) [Decidable p] (cls ev detail : Nat), t.chState c = (s1.settle c).chState c →
      (if p then t.islJournal hpPwr cls ev detail else t).chState c = (s1.settle c).chState c := fun t p _ cls ev detail ht => by
    split
    · rw [State.islJournal_chState, ht]
    · exact ht
  have hfirst := hjournal (s1.settle c) (bit m 31 ∧ bit old 31 = false ∧ (s1.settle c).chState c = 5 ∧ s.chState c ≠ 5) clsNone 1 (c.val + 2 ^ 8) rfl
  split
  · rw [State.islJournal_chState]
    exact hfirst
  · exact hjournal _ _ _ _ _ hfirst

theorem State.chCtrlWrite_chState {s : State} {c : Fin 4} (q : Req) (v : Word) (hready : PowerReady s c) (hisl : IslReady s) (hreach : s.reach q = true)
    (hkeeper : q.keeper? = none) (hport : q ≠ .smbus) (hpf0 : q.isPf0 = true) : (s.islWrite (chCtrlHook c) q hpPwr (PWRH.CH_CTRL c.val) v).chState c =
      if bit v 30 then 0 else if bit v 31 || nbit s.isl.chPin c.val then 5 else if s.chState c = 0 ∨ s.chState c = 5 then 1 else s.chState c := by
  obtain ⟨h, hf, hw, hh, hlegal⟩ : ∃ h, findReg .pwrH (PWRH.CH_CTRL 0) = some h ∧ h.row.wide = false ∧ h.high = false ∧ h.flds.all (fun f => f.legal v) = true :=
    ⟨_, rfl, rfl, rfl, rfl⟩
  have hj : wordLegal .pwrH (PWRH.CH_CTRL c.val) h v = true := by
    rw [wordLegal, hlegal]
    fin_cases c <;> rfl
  have hreg := (State.islReg_chCtrl hready.1).trans ((findReg_chCtrl c).trans hf)
  have htally := IslStep.islTally (K := BlockKey) (fun _ h => h) s hpPwr 3 (q.attr none) 1
  have hready1 : PowerReady (s.islTally hpPwr 3 (q.attr none)) c :=
    ⟨(htally.hasChan c).trans hready.1, (htally.field (·.pkgFatal) (fun _ => rfl)).trans hready.2.1, (htally.field (·.pwrgood) (fun _ => rfl)).trans hready.2.2⟩
  obtain ⟨hreset, hpd⟩ := merge_chCtrl hf ((s.islTally hpPwr 3 (q.attr none)).isl.get hpPwr (PWRH.CH_CTRL c.val)) v
  rw [State.islWrite_runs (chCtrlHook c) hisl hreach hkeeper hport hpf0 rfl hreg hw hh hj, State.chCtrl_chState hready1, hreset, hpd,
    htally.chState (blockKey_chState c), htally.field (·.chPin) (fun _ => rfl), bit_eq_decide_fld v 30, bit_eq_decide_fld v 31]
  simp only [decide_eq_true_eq]

/-! The straps (R599, R603). -/

/-- A host island whose straps are latched. -/
theorem foldl_pd (pd : Nat) (l : List Nat) (hl : ∀ d ∈ l, d < 4) (i : Isl) :
    IslKept (fun key => ¬ (0x20110 ≤ key ∧ key < 0x20120)) i (l.foldl (fun (i : Isl) c => i.putF hpPwr (PWRH.CH_CTRL_PD c) pd) i) ∧
      ∀ c, (l.foldl (fun (i : Isl) c => i.putF hpPwr (PWRH.CH_CTRL_PD c) pd) i).getF hpPwr (PWRH.CH_CTRL_RESET c) = i.getF hpPwr (PWRH.CH_CTRL_RESET c) := by
  refine List.foldlRecOn (motive := fun j : Isl => IslKept (fun key => ¬ (0x20110 ≤ key ∧ key < 0x20120)) i j ∧
    ∀ c, j.getF hpPwr (PWRH.CH_CTRL_RESET c) = i.getF hpPwr (PWRH.CH_CTRL_RESET c)) _ _ ⟨.refl i, fun _ => rfl⟩ (fun j h d hd => ⟨h.1.trans ?_, fun c => ?_⟩)
  · refine .put j _ (fun hk => hk ?_)
    have := hl d hd
    simp only [hpPwr]
    omega
  · refine Eq.trans ?_ (h.2 c)
    by_cases hc : c = d
    · subst hc
      exact Isl.getF_putF_ne j hpPwr pd rfl le_rfl (by norm_num) (.inl (by norm_num))
    · exact congrArg (fun w : Word => fld w 31 31) (Isl.get_put_ne j _ (by simp only; omega))

theorem foldl_pd_getF (pd c : Nat) (hpd : pd < 2) : ∀ (l : List Nat) (i : Isl), (c ∈ l ∨ i.getF hpPwr (PWRH.CH_CTRL_PD c) = pd) →
    (l.foldl (fun (i : Isl) c => i.putF hpPwr (PWRH.CH_CTRL_PD c) pd) i).getF hpPwr (PWRH.CH_CTRL_PD c) = pd
  | [], _, h => h.resolve_left (by simp)
  | d :: l, i, h => by
    refine foldl_pd_getF pd c hpd l _ ?_
    by_cases hd : c = d
    · subst hd
      exact .inr ((Isl.getF_putF_same i hpPwr (PWRH.CH_CTRL_PD c) pd le_rfl (by norm_num)).trans (Nat.mod_eq_of_lt hpd))
    · refine h.imp (fun hm => (List.mem_cons.1 hm).resolve_left hd) (fun hi => ?_)
      exact (congrArg (fun w : Word => fld w 30 30) (Isl.get_put_ne i _ (by simp only; omega))).trans hi

theorem Variant.channels_le (v : Variant) : v.channels ≤ 4 := by
  cases v <;> decide

/-- What latching the straps shows of a channel. -/
theorem State.latchStraps_shows (s : State) (straps : Nat) {c : Fin 4} (hc : s.hasChan c = true) :
    let t := s.latchStraps straps
    t.isl.pwrgood = true ∧ t.isl.pkgFatal = s.isl.pkgFatal ∧ t.isl.chPin = s.isl.chPin ∧ t.hasChan c = true ∧ t.isl.nat hpPwr PWRH.STRAP = straps % 16 ∧
      (t.chan c).pref = straps % 2 ∧ t.chState c = s.chState c ∧ t.isl.getB hpPwr (PWRH.CH_CTRL_PD c.val) = !nbit straps 3 ∧
      t.isl.getB hpPwr (PWRH.CH_CTRL_RESET c.val) = s.isl.getB hpPwr (PWRH.CH_CTRL_RESET c.val) := by
  have hlt : c.val < s.variant.channels := of_decide_eq_true hc
  obtain ⟨i0, hi0⟩ : ∃ i0 : Isl, i0 = { s.isl.putN hpPwr PWRH.STRAP (straps % 16) with pwrgood := true } := ⟨_, rfl⟩
  have hstrap : ∀ o, o ≠ PWRH.STRAP → i0.get hpPwr o = s.isl.get hpPwr o := fun o ho => by
    rw [hi0]
    exact Isl.get_put_ne s.isl _ (by omega)
  obtain ⟨hkept, hreset⟩ := foldl_pd (1 - straps / 8 % 2) (List.range s.variant.channels)
    (fun d hd => (List.mem_range.1 hd).trans_le s.variant.channels_le) i0
  have hpd := foldl_pd_getF (1 - straps / 8 % 2) c.val (by omega) (List.range s.variant.channels) i0 (.inl (List.mem_range.2 hlt))
  obtain ⟨i1, hi1, hisl⟩ : ∃ i1, i1 = (List.range s.variant.channels).foldl (fun (i : Isl) c => i.putF hpPwr (PWRH.CH_CTRL_PD c) (1 - straps / 8 % 2)) i0 ∧
      (s.latchStraps straps).isl = i1 := ⟨_, rfl, by rw [hi0]; rfl⟩
  rw [← hi1] at hkept hreset hpd
  have hfield : ∀ {β : Type} (view : Isl → β), (∀ i, view (islRest i) = view i) → view i1 = view i0 := fun view hv => by
    rw [← hv, hkept.rest, hv]
  dsimp only
  simp only [State.chState, hisl]
  refine ⟨?_, ?_, ?_, hc, ?_, ?_, ?_, ?_, ?_⟩
  · rw [hfield (·.pwrgood) (fun _ => rfl), hi0]
  · rw [hfield (·.pkgFatal) (fun _ => rfl), hi0]
    rfl
  · rw [hfield (·.chPin) (fun _ => rfl), hi0]
    rfl
  · have hword : i0.nat hpPwr PWRH.STRAP = straps % 16 % 2 ^ 32 := by
      rw [hi0]
      exact (congrArg BitVec.toNat (Isl.get_put_same s.isl hpPwr PWRH.STRAP _)).trans (BitVec.toNat_ofNat ..)
    rw [hkept.nat (by simp only [hpPwr, PWRH.STRAP]; omega), hword, Nat.mod_eq_of_lt (by omega)]
  · simp [State.latchStraps, State.chan, hlt]
  · rw [hkept.getF (by simp only [hpPwr]; omega), Isl.getF, hstrap _ (by simp only [PWRH.STRAP]; omega), Isl.getF]
  · rw [Isl.getB, hpd, nbit, Nat.shiftRight_eq_div_pow]
    rcases Nat.mod_two_eq_zero_or_one (straps / 8) with h | h <;> simp [h]
  · rw [Isl.getB, hreset, Isl.getF, hstrap _ (by simp only [PWRH.STRAP]; omega), ← Isl.getF, ← Isl.getB]

/-- The straps are latched, and every channel settles (R601, R603). -/
theorem State.pwrgoodRise_shows {s : State} {c : Fin 4} (straps : Nat) (hpowered : s.isl.powered = true) (hgood : s.isl.pwrgood = false)
    (hc : s.hasChan c = true) : Completes (.pwrgoodRise straps) s (fun t => t.isl.pwrgood = true ∧ t.isl.nat hpPwr PWRH.STRAP = straps % 16 ∧
      (t.chan c).pref = straps % 2 ∧ t.chState c = if s.isl.pkgFatal = true then s.chState c else if nbit straps 3 = false then 0
        else if s.isl.getB hpPwr (PWRH.CH_CTRL_RESET c.val) || nbit s.isl.chPin c.val then 5
        else if s.chState c = 0 ∨ s.chState c = 5 then 1 else s.chState c) := by
  refine ⟨[0, 1, 2, 3].foldl State.settle (s.latchStraps straps), congrArg Host.Outcome.next (if_pos ⟨hpowered, hgood⟩), ?_⟩
  obtain ⟨hgood1, hfatal1, hpin1, hhas1, hstrap1, hpref1, hstate1, hpd1, hreset1⟩ := s.latchStraps_shows straps hc
  generalize s.latchStraps straps = t at hgood1 hfatal1 hpin1 hhas1 hstrap1 hpref1 hstate1 hpd1 hreset1 ⊢
  obtain ⟨hpref, hkept⟩ : (([0, 1, 2, 3].foldl State.settle t).chan c).pref = (t.chan c).pref ∧
      IslStep (fun key => BlockKey key ∧ key < hpPwr * 0x10000 + 0x120) t ([0, 1, 2, 3].foldl State.settle t) := by
    refine List.foldlRecOn (motive := fun u : State => (u.chan c).pref = (t.chan c).pref ∧
      IslStep (fun key => BlockKey key ∧ key < hpPwr * 0x10000 + 0x120) t u) _ _ ⟨rfl, .refl t⟩ (fun u h d _ => ⟨(u.settle_pref d c).trans h.1, h.2.trans ?_⟩)
    refine (u.settle_aside d).mono (fun key hk => ⟨hk.1, ?_⟩)
    have := hk.2
    dsimp only
    omega
  refine ⟨(hkept.field (·.pwrgood) (fun _ => rfl)).trans hgood1,
    (hkept.isl.nat ⟨blockKey_add (by decide) (by decide), by simp only [PWRH.STRAP]; omega⟩).trans hstrap1, hpref.trans hpref1, ?_⟩
  rw [State.settle_each c _ _ (by decide), if_pos (by fin_cases c <;> decide)]
  by_cases hfatal : s.isl.pkgFatal = true
  · rw [if_pos hfatal, State.settled, if_pos (.inr (.inl (hfatal1.trans hfatal))), hstate1]
  · rw [if_neg hfatal, State.settled_of_ready ⟨hhas1, hfatal1.trans (by simpa using hfatal), hgood1⟩, hpd1, hreset1, hpin1, hstate1]
    simp only [Bool.not_eq_true']

/-! An input fault (R593). -/

theorem State.fatalChan_chState (s : State) {c : Fin 4} (cause : Nat) (off : Bool) (h : s.hasChan c = true) : (s.fatalChan c cause off).chState c = 6 := by
  have hcause : ∀ i : Isl, (i.putF hpPwr (PWRH.CH_STAT_CAUSE c.val) cause).getF hpPwr (PWRH.CH_STAT_STATE c.val) = i.getF hpPwr (PWRH.CH_STAT_STATE c.val) :=
    fun i => Isl.getF_putF_ne i hpPwr cause rfl (by norm_num) (by norm_num) (.inl (by norm_num))
  unfold State.fatalChan
  split
  · rename_i hoff
    simp only [Bool.and_eq_true, beq_iff_eq] at hoff
    exact (hcause s.isl).trans hoff.1.1.2
  · split
    · rw [State.islJournal_chState]
      split <;> exact (hcause _).trans (State.setChState_chState (s.endTests c) c (by decide))
    · rename_i _ hnot
      simpa [h] using hnot

theorem State.fatalChan_aside (s : State) (c : Fin 4) (cause : Nat) (off : Bool) : IslStep (StateAside c) s (s.fatalChan c cause off) :=
  .fatalChan StateAside.block s (not_stateAside c) cause off

/-- A channel that reads FATAL stays so while others become FATAL. -/
theorem State.fatalChan_stays (s : State) {c : Fin 4} (d : Fin 4) (cause : Nat) (off : Bool) (hc : s.hasChan c = true) (h : s.chState c = 6) :
    (s.fatalChan d cause off).chState c = 6 := by
  by_cases hd : c = d
  · subst hd
    exact s.fatalChan_chState cause off hc
  · exact ((s.fatalChan_aside d cause off).chState (stateAside_chState hd)).trans h

/-- Each of several channels becomes FATAL. -/
theorem State.fatal_each (cause : Nat) (off : Bool) {c : Fin 4} : ∀ (l : List (Fin 4)) (s : State), s.hasChan c = true → (c ∈ l ∨ s.chState c = 6) →
    (l.foldl (fun (t : State) d => t.fatalChan d cause off) s).chState c = 6
  | [], _, _, h => h.resolve_left (by simp)
  | d :: l, s, hc, h => by
    refine State.fatal_each cause off l _ (((s.fatalChan_aside d cause off).hasChan c).trans hc) ?_
    by_cases hd : c = d
    · subst hd
      exact .inr (s.fatalChan_chState cause off hc)
    · exact h.imp (fun hm => (List.mem_cons.1 hm).resolve_left hd) (s.fatalChan_stays d cause off hc)

theorem State.packageFatal_chState (s : State) (cause : Nat) (off : Bool) {c : Fin 4} (h : s.hasChan c = true) : (s.packageFatal cause off).chState c = 6 :=
  State.fatal_each cause off [0, 1, 2, 3] (s.onIsl (fun i => { i with pkgFatal := true })) h (.inl (by fin_cases c <;> decide))

theorem State.packageFatal_regs (s : State) (cause : Nat) (off : Bool) {key : Nat} (h : QuietKey key) :
    rget islReset (s.packageFatal cause off).isl.regs key = rget islReset s.isl.regs key := by
  have hfatal : ∀ (t : State) (c : Fin 4), IslStep QuietKey t (t.fatalChan c cause off) := fun t c =>
    (t.fatalChan_aside c cause off).mono (fun k hk => ⟨hk.1, fun e => hk.2 (by
      simp only [hpPwr] at e
      omega)⟩)
  exact ((((hfatal _ 0).trans (hfatal _ 1)).trans (hfatal _ 2)).trans (hfatal _ 3)).isl.regs key h

theorem State.inputFault_shows {s : State} {code : Nat} (hpowered : s.isl.powered = true) (hcode : code < 8) :
    (s.inputFault code).isl.pkgFatal = true ∧ (s.inputFault code).isl.getF hpPwr PWRH.IN_STAT_LAST_FAULT = code ∧
      ∀ c, s.hasChan c = true → (s.inputFault code).chState c = 6 := by
  rw [State.inputFault, if_pos hpowered]
  refine ⟨State.packageFatal_pkgFatal _ _ _, ?_, fun c hc => State.packageFatal_chState _ _ _ hc⟩
  have hquiet : QuietKey (hpPwr * 0x10000 + PWRH.IN_STAT_LAST_FAULT.off) := ⟨blockKey_add (by decide) (by decide), by decide⟩
  rw [Isl.getF, Isl.get, State.packageFatal_regs _ _ _ hquiet]
  exact (Isl.getF_putF_same s.isl hpPwr PWRH.IN_STAT_LAST_FAULT code (by decide) (by decide)).trans (Nat.mod_eq_of_lt hcode)

end Sys2Proof.Machine
end

section
set_option Elab.async false
namespace Sys2Proof.Proofs

open Sys2Proof Sys2Proof.Machine

theorem powerOnReset_chan (s : State) (c : Fin 4) : s.powerOnReset.chan c = (s.chan c).fresh := by fin_cases c <;> rfl

theorem powerOnReset_chState (s : State) (c : Fin 4) : s.powerOnReset.chState c = 0 := by
  show fld (islReset (hpPwr * 0x10000 + (PWRH.CH_STAT_STATE c.val).off)) 31 29 = 0
  fin_cases c <;> decide

/-- Settles O14: a power-on reset leaves the defaults; a channel's state is what PD, RESET and the pin ask for, and 6 after an input fault. -/
theorem supplyAndStraps : Obligations.SupplyAndStraps := by
  refine ⟨⟨fun s hpowered => ?_, fun s => ?_, fun s => ?_⟩, fun s c => ⟨fun hready => ⟨State.chRstAssert_shows hready, State.chRstRelease_shows hready⟩,
    fun q v hready hisl hreach hkeeper hport hpf0 => ?_, fun straps hpowered hgood hc => State.pwrgoodRise_shows straps hpowered hgood hc⟩,
    fun s hpowered => ⟨?_, ?_⟩, fun s straps c hpowered hgood hfatal hc hstate hreset hpin => ?_⟩
  · refine ⟨_, congrArg Host.Outcome.next (if_neg (by simp [hpowered])), rfl, rfl, rfl, powerOnReset_chState _⟩
  · exact ⟨_, rfl, rfl, rfl, fun c => ⟨by rw [powerOnReset_chan]; rfl, by rw [powerOnReset_chan]; rfl⟩⟩
  · exact ⟨_, rfl, rfl, rfl, powerOnReset_chan s⟩
  · have hstate := State.chCtrlWrite_chState q v hready hisl hreach hkeeper hport hpf0
    exact ⟨⟨_, rfl, hstate⟩, ⟨_, rfl, hstate⟩⟩
  · exact ⟨_, rfl, State.inputFault_shows hpowered (by decide)⟩
  · exact ⟨_, rfl, State.inputFault_shows hpowered (by decide)⟩
  · obtain ⟨t, hexec, hup, hstrap, hpref, hch⟩ := State.pwrgoodRise_shows straps hpowered hgood hc
    refine ⟨t, hexec, hup, hstrap, hpref, hch.trans ?_⟩
    rw [if_neg (by simp [hfatal]), hreset, hpin, hstate]
    cases nbit straps 3 <;> rfl

end Sys2Proof.Proofs
end

section
set_option Elab.async false
/-! The host island's reset, its PCIe link and functions, and the relay links (R25, R66, R534, R535, R558, R596, R597). -/

namespace Sys2Proof.Machine

/-! A cause of an island page stands after it is raised (R62). -/

theorem Isl.cause_orCause (i : Isl) (p m : Nat) {b : Nat} (hb : b < 32) :
    bit ((i.orCause p m).get p oCAUSE) b = (bit (i.get p oCAUSE) b || nbit m b) := by
  have hput : bit ((i.putN p oCAUSE (Nat.lor (i.nat p oCAUSE) m)).get p oCAUSE) b = (bit (i.get p oCAUSE) b || nbit m b) := by
    rw [Isl.putN, Isl.get_put_same, bit_ofNat hb, nbit_eq_testBit, show Nat.lor (i.nat p oCAUSE) m = (i.nat p oCAUSE) ||| m from rfl,
      Nat.testBit_or, ← nbit_eq_testBit, ← nbit_eq_testBit]
    rfl
  unfold Isl.orCause
  dsimp only
  split
  · exact (congrArg (fun w : Word => bit w b) (Isl.get_put_ne _ _ (by simp only [oCAUSE, oFIRST]; omega))).trans hput
  · exact hput

theorem Isl.cause_tallyAdd (i : Isl) (p code : Nat) (a : Attr) (n : Nat) : (i.tallyAdd p code a n).1.get p oCAUSE = i.get p oCAUSE := by
  have hput : ∀ (j : Isl) (off : Nat) (v : Word), oCAUSE < off → (j.put p off v).get p oCAUSE = j.get p oCAUSE := fun j off v h =>
    Isl.get_put_ne j v (by omega)
  unfold Isl.tallyAdd
  split
  · refine List.foldlRecOn (motive := fun r : Isl × Bool => r.1.get p oCAUSE = i.get p oCAUSE) _ _ rfl (fun r h k _ => ?_)
    have hcnt : ∀ v, (r.1.put64 p (oCNT k) v).get p oCAUSE = i.get p oCAUSE := fun v =>
      (hput _ _ _ (by simp only [oCAUSE, oCNT]; omega)).trans ((hput _ _ _ (by simp only [oCAUSE, oCNT]; omega)).trans h)
    simp only [islBump]
    split
    · exact hcnt _
    · exact (hput _ oOVF _ (by decide)).trans (hcnt _)
  · rfl

theorem State.islRaise_cause (s : State) (p : Nat) {b : Nat} (hb : b < 32) : bit ((s.islRaise p b).isl.get p oCAUSE) b = true := by
  have hset : nbit (2 ^ b) b = true := by
    rw [nbit_eq_testBit, Nat.testBit_two_pow_self]
  have hcarry : ∀ (i : Isl) (d : Bool), bit (i.get p oCAUSE) b = true → bit ((if d then i.orCause p 0x10 else i).get p oCAUSE) b = true := fun i d h => by
    split
    · rw [Isl.cause_orCause i p 0x10 hb, h, Bool.true_or]
    · exact h
  have hsend : ∀ (t : State) (d : Bool), bit (t.isl.get p oCAUSE) b = true → bit ((if d then t.pageIrq (.isl p) else t).isl.get p oCAUSE) b = true :=
    fun t d h => by
      split
      · rw [Isl.get, (t.pageIrq_sameIsland (.isl p)).regs]
        exact h
      · exact h
  unfold State.islRaise State.islRaiseMask
  refine hsend { s with isl := _ } _ (hcarry _ _ ?_)
  rw [Isl.cause_tallyAdd, Isl.cause_orCause s.isl p _ hb, hset, Bool.or_true]

theorem fld_ofNat {n : Nat} (hi lo : Nat) (h : n < 2 ^ 32) : fld (BitVec.ofNat 32 n) hi lo = n / 2 ^ lo % 2 ^ (hi + 1 - lo) := by
  rw [fld, BitVec.toNat_ofNat, Nat.mod_eq_of_lt h, Nat.shiftRight_eq_div_pow]

theorem Isl.getF_putN_same (i : Isl) (p : Nat) (f : Fld) {n : Nat} (h : n < 2 ^ 32) :
    (i.putN p f.off n).getF p f = n / 2 ^ f.lo % 2 ^ (f.hi + 1 - f.lo) := by
  rw [Isl.getF, Isl.putN, Isl.get_put_same, fld_ofNat _ _ h]

theorem Isl.nat_inc (i : Isl) (p off : Nat) : (i.inc p off).nat p off = satAdd 32 (i.nat p off) 1 := by
  have hlt : satAdd 32 (i.nat p off) 1 < 2 ^ 32 := by
    unfold satAdd
    omega
  rw [Isl.nat, Isl.inc, Isl.putN, Isl.get_put_same, BitVec.toNat_ofNat, Nat.mod_eq_of_lt hlt]

theorem quietKey_low {p off : Nat} (hp : p < 2) (hlo : 0x100 ≤ off) (hhi : off < 65536) : QuietKey (p * 0x10000 + off) :=
  ⟨blockKey_add hlo hhi, by omega⟩

/-! The reset of the host island (R597). -/

theorem PartsKept.ringAbandon (ch : Chan) (p r code : Nat) : PartsKept ch (ch.ringAbandon p r code) := by
  unfold Chan.ringAbandon
  have hqueue : ∀ q : List Rec, PartsKept ch { ch with recQ := q } := fun _ => Spares.of_work rfl rfl rfl
  exact (((hqueue _).trans (PartsKept.putRing _ _ _ _)).trans (PartsKept.ringDrop _ _ _ _)).trans (PartsKept.raise _ 10)

theorem PartsKept.stopAllRings (ch : Chan) : PartsKept ch ch.stopAllRings := by
  have habandon : PartsKept ch (ch.each (ch.ringsWhere (fun _ _ _ => true)) (fun c e => c.ringAbandon e.1 e.2 4)) :=
    Spares.each (f := fun c (e : Nat × Nat) => c.ringAbandon e.1 e.2 4) (fun c e => PartsKept.ringAbandon c e.1 e.2 4) _ ch
  unfold Chan.stopAllRings
  exact .ite (fun _ => habandon) (fun _ => habandon.trans (PartsKept.journal _ _ _ _ _))

/-- An effect without a fatal cause on all channels leaves the states of the channels. -/
theorem State.onAllLive_chState {s : State} {f : Chan → Chan} (hf : ∀ ch, NoFatal ch.outQ → NoFatal (f ch).outQ) (hs : Delivered s) (c : Fin 4) :
    (s.onAllLive f).chState c = s.chState c := by
  have hone : ∀ (t : State) (d : Fin 4), (Delivered t ∧ t.chState c = s.chState c) →
      Delivered (t.onLive d f) ∧ (t.onLive d f).chState c = s.chState c := fun t d ⟨ht, hstate⟩ => by
    unfold State.onLive
    split
    · obtain ⟨hchan, hisl⟩ := State.runChan_noFatal (hf _ (noFatal_of_nil (ht d)))
      refine ⟨fun e => ?_, ?_⟩
      · rw [hchan]
        split
        · rfl
        · exact ht e
      · rw [State.chState, Isl.getF, Isl.get, hisl.regs]
        exact hstate
    · exact ⟨ht, hstate⟩
  exact (hone _ 3 (hone _ 2 (hone _ 1 (hone s 0 ⟨hs, rfl⟩)))).2

/-- The host island with the registers that its reset keeps, the test port locked. -/
def Isl.restored (i : Isl) (msix func : Nat) : Isl :=
  (((i.putN hpHost HOST.MSIX_CFG msix).putN hpHost HOST.FUNC_CFG func).putF hpPwr PWRH.JTAG_STAT_UNLOCKED 0).putF hpPwr PWRH.JTAG_CTRL_UNLOCK_DIS 0

theorem Isl.restored_shows (i : Isl) {msix func : Nat} (hm : msix < 2 ^ 32) (hf : func < 2 ^ 32) :
    (i.restored msix func).getF hpPwr PWRH.JTAG_STAT_UNLOCKED = 0 ∧ (i.restored msix func).nat hpHost HOST.MSIX_CFG = msix ∧
    (i.restored msix func).nat hpHost HOST.FUNC_CFG = func ∧
    ∀ o, 0x100 ≤ o → o < 0x130 → (i.restored msix func).get hpPwr o = i.get hpPwr o := by
  have hword : ∀ {n : Nat}, n < 2 ^ 32 → (BitVec.ofNat 32 n).toNat = n := fun h => (BitVec.toNat_ofNat ..).trans (Nat.mod_eq_of_lt h)
  obtain ⟨i2, hi2⟩ : ∃ i2, i2 = (i.putN hpHost HOST.MSIX_CFG msix).putN hpHost HOST.FUNC_CFG func := ⟨_, rfl⟩
  obtain ⟨i3, hi3⟩ : ∃ i3, i3 = i2.putF hpPwr PWRH.JTAG_STAT_UNLOCKED 0 := ⟨_, rfl⟩
  have hrestored : i.restored msix func = i3.putF hpPwr PWRH.JTAG_CTRL_UNLOCK_DIS 0 := by
    rw [hi3, hi2]
    rfl
  have hlast : ∀ {p o : Nat}, p * 0x10000 + o ≠ hpPwr * 0x10000 + PWRH.JTAG_CTRL →
      (i.restored msix func).get p o = i3.get p o := fun h => hrestored ▸ Isl.get_put_ne i3 _ h
  have hunlocked : ∀ {p o : Nat}, p * 0x10000 + o ≠ hpPwr * 0x10000 + PWRH.JTAG_STAT → i3.get p o = i2.get p o := fun h => hi3 ▸ Isl.get_put_ne i2 _ h
  refine ⟨?_, ?_, ?_, fun o hlo hhi => ?_⟩
  · rw [Isl.getF, hlast (by decide), hi3]
    exact Isl.getF_putF_same i2 hpPwr PWRH.JTAG_STAT_UNLOCKED 0 (by decide) (by decide)
  · rw [Isl.nat, hlast (by decide), hunlocked (by decide), hi2, Isl.putN, Isl.get_put_ne _ _ (by decide), Isl.putN, Isl.get_put_same, hword hm]
  · rw [Isl.nat, hlast (by decide), hunlocked (by decide), hi2, Isl.putN, Isl.get_put_same, hword hf]
  · rw [hlast (by simp only [PWRH.JTAG_CTRL]; omega), hunlocked (by simp only [PWRH.JTAG_STAT]; omega), hi2, Isl.putN,
      Isl.get_put_ne _ _ (by simp only [hpPwr, hpHost, HOST.FUNC_CFG]; omega), Isl.putN,
      Isl.get_put_ne _ _ (by simp only [hpPwr, hpHost, HOST.MSIX_CFG]; omega)]

/-- The host island as its reset leaves it, before the rings stop. -/
theorem State.islandReset_island (s : State) : ∃ i : Isl, s.islandReset = ({ s with isl := i } : State).onAllLive Chan.stopAllRings ∧
    i.perst = true ∧ i.l0 = false ∧ i.fns = [] ∧ i.vfEnable = false ∧
    i.regs = (({ s.isl with regs := tclear s.isl.regs 0 0x20000 } : Isl).restored (s.isl.nat hpHost HOST.MSIX_CFG) (s.isl.nat hpHost HOST.FUNC_CFG)).regs :=
  ⟨_, rfl, rfl, rfl, rfl, rfl, rfl⟩

theorem State.islandReset_shows {s : State} (hs : Delivered s) :
    s.islandReset.isl.perst = true ∧ s.islandReset.isl.l0 = false ∧ s.islandReset.isl.fns = [] ∧ s.islandReset.isl.vfEnable = false ∧
    s.islandReset.isl.getF hpPwr PWRH.JTAG_STAT_UNLOCKED = 0 ∧ s.islandReset.isl.nat hpHost HOST.MSIX_CFG = s.isl.nat hpHost HOST.MSIX_CFG ∧
    s.islandReset.isl.nat hpHost HOST.FUNC_CFG = s.isl.nat hpHost HOST.FUNC_CFG ∧ ∀ c, s.islandReset.chState c = s.chState c := by
  obtain ⟨i, heq, hperst, hl0, hfns, hvf, hregs⟩ := s.islandReset_island
  obtain ⟨hunlocked, hmsix, hfunc, hothers⟩ := ({ s.isl with regs := tclear s.isl.regs 0 0x20000 } : Isl).restored_shows
    (s.isl.get hpHost HOST.MSIX_CFG).isLt (s.isl.get hpHost HOST.FUNC_CFG).isLt
  have hget : ∀ p o, i.get p o = (({ s.isl with regs := tclear s.isl.regs 0 0x20000 } : Isl).restored (s.isl.nat hpHost HOST.MSIX_CFG)
      (s.isl.nat hpHost HOST.FUNC_CFG)).get p o := fun p o => by rw [Isl.get, hregs, ← Isl.get]
  have hstate : ∀ c : Fin 4, i.getF hpPwr (PWRH.CH_STAT_STATE c.val) = s.isl.getF hpPwr (PWRH.CH_STAT_STATE c.val) := fun c => by
    have hkeep : rget islReset (tclear s.isl.regs 0 0x20000) (hpPwr * 0x10000 + (PWRH.CH_STAT_STATE c.val).off) =
        rget islReset s.isl.regs (hpPwr * 0x10000 + (PWRH.CH_STAT_STATE c.val).off) := (rget_tclear _ _ _ _ _).trans (if_neg (by
          simp only [hpPwr]
          omega))
    rw [Isl.getF, hget]
    exact congrArg (fun w : Word => fld w 31 29)
      ((hothers (PWRH.CH_STAT_STATE c.val).off (by dsimp only; omega) (by dsimp only; omega)).trans hkeep)
  have hstep : IslStep QuietKey { s with isl := i } (({ s with isl := i } : State).onAllLive Chan.stopAllRings) := .onAllLive (fun _ h => h) _ _
  rw [heq]
  refine ⟨(hstep.field (·.perst) (fun _ => rfl)).trans hperst, (hstep.field (·.l0) (fun _ => rfl)).trans hl0,
    (hstep.field (·.fns) (fun _ => rfl)).trans hfns, (hstep.field (·.vfEnable) (fun _ => rfl)).trans hvf, ?_, ?_, ?_, fun c => ?_⟩
  · rw [hstep.isl.getF ⟨blockKey_add (by decide) (by decide), by decide⟩]
    exact (congrArg (fun w : Word => fld w 31 31) (hget _ _)).trans hunlocked
  · exact (hstep.isl.nat (quietKey_low (by decide) (by decide) (by decide))).trans ((congrArg BitVec.toNat (hget _ _)).trans hmsix)
  · exact (hstep.isl.nat (quietKey_low (by decide) (by decide) (by decide))).trans ((congrArg BitVec.toNat (hget _ _)).trans hfunc)
  · exact (State.onAllLive_chState (fun ch => (PartsKept.stopAllRings ch).outs) (s := { s with isl := i }) hs c).trans (hstate c)

/-! The PCIe link (R66, R558). -/

theorem State.pcieLinkTrained_shows {s : State} {speed width : Nat} (flit : Bool) (hgood : s.isl.pwrgood = true) (hperst : s.isl.perst = false)
    (hdead : s.isl.dead = false) (h4 : 4 ≤ speed) (h6 : speed ≤ 6) (h1 : 1 ≤ width) (h16 : width ≤ 16) :
    Completes (.pcieLinkTrained speed width flit) s (fun t => t.isl.l0 = true ∧ t.isl.getF hpHost HOST.LINK_STAT_SPEED = speed ∧
      t.isl.getF hpHost HOST.LINK_STAT_WIDTH = width ∧
      (s.isl.getF hpHost HOST.LINK_STAT_SPEED ≠ speed → bit (t.isl.get hpHost oCAUSE) 9 = true)) := by
  obtain ⟨word, hword⟩ : ∃ word, word = speed * 2 ^ 28 + width * 2 ^ 16 + b2n flit * 2 ^ 15 := ⟨_, rfl⟩
  have hflit : b2n flit < 2 := by cases flit <;> decide
  have hlt : word < 2 ^ 32 := by omega
  obtain ⟨s1, hs1⟩ : ∃ s1, s1 = s.onIsl (fun i => { i.putN hpHost HOST.LINK_STAT word with l0 := true }) := ⟨_, rfl⟩
  obtain ⟨s2, hs2, hexec⟩ : ∃ s2, s2 = (if s.isl.getF hpHost HOST.LINK_STAT_SPEED ≠ speed ∨ s.isl.getF hpHost HOST.LINK_STAT_WIDTH ≠ width then
      (s1.islRaise hpHost 9).islJournal hpHost (if speed < 6 ∨ width < 8 then clsDegraded else clsNone) 1 (speed + width * 256) else s1) ∧
      exec (.pcieLinkTrained speed width flit) s = .next s2.sendHeld := by
    refine ⟨_, rfl, (congrArg Host.Outcome.next (if_pos ⟨hgood, hperst, hdead, h4, h6, h1, h16⟩)).trans ?_⟩
    rw [hs1, hword]
    simp only [decide_eq_true_eq]
  have hraise : IslStep BlockKey s1 s2 := by
    rw [hs2]
    exact .ite (fun _ => (IslStep.islRaise (fun _ h => h) s1 hpHost 9).trans (.islJournal _ _ _ _ _)) (fun _ => .refl s1)
  have hstep : IslStep BlockKey s1 s2.sendHeld := hraise.trans (.sendHeld s2)
  have hfield : ∀ hi lo, s1.isl.getF hpHost ⟨HOST.LINK_STAT, hi, lo⟩ = word / 2 ^ lo % 2 ^ (hi + 1 - lo) := fun hi lo => by
    rw [hs1]
    exact Isl.getF_putN_same s.isl hpHost ⟨HOST.LINK_STAT, hi, lo⟩ hlt
  have hkey : BlockKey (hpHost * 0x10000 + HOST.LINK_STAT) := blockKey_add (by decide) (by decide)
  refine ⟨_, hexec, ?_, ?_, ?_, fun hchanged => ?_⟩
  · rw [hstep.field (·.l0) (fun _ => rfl), hs1]
    rfl
  · rw [hstep.isl.getF hkey, hfield]
    omega
  · rw [hstep.isl.getF hkey, hfield]
    omega
  · have hsent : IslStep (fun _ => True) s2 s2.sendHeld := .sendHeld s2
    have hjournal : ∀ t : State, IslStep (fun _ => True) t
        (t.islJournal hpHost (if speed < 6 ∨ width < 8 then clsDegraded else clsNone) 1 (speed + width * 256)) := fun t => .islJournal t _ _ _ _
    rw [hsent.isl.get trivial, hs2, if_pos (.inl hchanged), (hjournal _).isl.get trivial]
    exact State.islRaise_cause s1 hpHost (by decide)

/-! Function resets (R66, R534, R535). -/

theorem State.flrOne_shows (s : State) (f : Nat) : (s.flrOne f).isl.fn f = {} ∧ (s.flrOne f).isl.vfEnable = s.isl.vfEnable ∧
    (s.flrOne f).isl.nat hpHost HOST.FLR_CNT = satAdd 32 (s.isl.nat hpHost HOST.FLR_CNT) 1 := by
  obtain ⟨s1, hs1⟩ : ∃ s1, s1 = s.onAllLive (fun ch => ch.flrStop f) := ⟨_, rfl⟩
  obtain ⟨s2, hs2⟩ : ∃ s2, s2 = s1.onIsl (fun i => (i.putFn f {}).inc hpHost HOST.FLR_CNT) := ⟨_, rfl⟩
  have hstop : IslStep QuietKey s s1 := hs1 ▸ .onAllLive (fun _ h => h) s _
  have hraise : IslStep BlockKey s2 (s.flrOne f) := by
    rw [hs2, hs1]
    exact .islRaise (fun _ h => h) _ hpHost 10
  refine ⟨?_, ?_, ?_⟩
  · rw [Isl.fn, hraise.field (·.fns) (fun _ => rfl), hs2]
    exact tget_tput_same _ _ _ _
  · rw [hraise.field (·.vfEnable) (fun _ => rfl), hs2, ← hstop.field (·.vfEnable) (fun _ => rfl)]
    rfl
  · rw [hraise.isl.nat (blockKey_add (by decide) (by decide)), hs2, ← hstop.isl.nat (quietKey_low (by decide) (by decide) (by decide))]
    exact Isl.nat_inc (s1.isl.putFn f {}) hpHost HOST.FLR_CNT

theorem State.disableVfs_vfEnable (s : State) : s.disableVfs.isl.vfEnable = false := by
  unfold State.disableVfs
  split
  · rfl
  · rename_i h
    simpa using h

/-! Relay links (R25). -/

theorem State.hasChan_of_hasRelay {s : State} {c : Fin 4} (h : s.hasRelay c = true) : s.hasChan c = true ∧ c.val ≠ 0 := by
  simp only [State.hasRelay, Bool.and_eq_true, decide_eq_true_eq] at h
  exact ⟨h.1.1.1.1, h.1.1.1.2⟩

theorem quietKey_link (c : Fin 4) : QuietKey (hpRelay * 0x10000 + (RELAY.LINK_STAT_STATE c.val).off) :=
  quietKey_low (by decide) (by dsimp only; omega) (by dsimp only; omega)

/-- A link that goes DOWN. -/
theorem State.relayDown_shows (s : State) (c : Fin 4) {cause : Nat} (h : cause < 2 ^ 30) :
    (s.relayDown c cause).relayState c = 2 ∧ tget 0 (s.relayDown c cause).isl.relayRun c.val = 0 := by
  obtain ⟨s1, hs1⟩ : ∃ s1, s1 = s.onIsl (fun i =>
    { (i.putN hpRelay (RELAY.LINK_STAT c.val) (2 * 2 ^ 30 + cause)).inc hpRelay (RELAY.DOWN_CNT c.val) with
      relayRun := tput 0 i.relayRun c.val 0, relayAt := tput 0 i.relayAt c.val i.ns }) := ⟨_, rfl⟩
  have hrest : IslStep QuietKey s1 (s.relayDown c cause) := by
    have hstep := ((IslStep.islCapture (K := QuietKey) (fun _ h => h.1) s1 hpRelay clsDegraded 8 c.val cause 0).trans
      (.islRaise (fun _ h => h.1) _ hpRelay 8)).trans ((IslStep.islJournal _ hpRelay clsDegraded 1 (c.val + cause * 256)).trans
        (.onLive (fun _ h => h) _ c (fun ch => ch.jrnlRaw (jrnlEntry ch.t64 ch.quality (15 * 2 ^ 12 + hpRelay) clsDegraded 1 (c.val + cause * 256)))))
    rw [hs1] at hstep ⊢
    exact hstep
  constructor
  · rw [State.relayState, hrest.isl.getF (quietKey_link c), hs1]
    refine (congrArg (fun w : Word => fld w 31 30) (Isl.get_put_ne (s.isl.putN hpRelay (RELAY.LINK_STAT c.val) (2 * 2 ^ 30 + cause)) _
      (by unfold RELAY.DOWN_CNT; dsimp only; omega))).trans ?_
    refine (Isl.getF_putN_same s.isl hpRelay (RELAY.LINK_STAT_STATE c.val) (by omega)).trans ?_
    dsimp only
    omega
  · rw [hrest.field (·.relayRun) (fun _ => rfl), hs1]
    exact tget_tput_same _ _ _ _

theorem State.relayTrain_relayState (s : State) (c : Fin 4) : (s.relayTrain c).relayState c = 0 :=
  Isl.getF_putF_same s.isl hpRelay (RELAY.LINK_STAT_STATE c.val) 0 (by norm_num) (by norm_num)

theorem State.islReg_linkCtrl {s : State} {c : Fin 4} (h : s.hasChan c = true) (h0 : c.val ≠ 0) :
    s.islReg hpRelay (RELAY.LINK_CTRL c.val) = findReg .relay (RELAY.LINK_CTRL c.val) := by
  have hc : c.val < s.variant.channels := of_decide_eq_true h
  have howner : c.val ≠ 0 → islChanOf hpRelay (RELAY.LINK_CTRL c.val) = some c.val := by
    fin_cases c <;> decide
  rw [State.islReg, howner h0]
  exact if_pos hc

/-- A write of RETRAIN trains the link in any state. -/
theorem State.relayRetrain_relayState {s : State} {c : Fin 4} {v : Word} (hrelay : s.hasRelay c = true) (hisl : IslReady s) (hv : bit v 30 = true) :
    (s.islWrite (relayCtrlHook c) (.func 0) hpRelay (RELAY.LINK_CTRL c.val) v).relayState c = 0 := by
  obtain ⟨hhas, h0⟩ := State.hasChan_of_hasRelay hrelay
  obtain ⟨h, hf, hw, hh, hlegal⟩ : ∃ h, findReg .relay (RELAY.LINK_CTRL c.val) = some h ∧ h.row.wide = false ∧ h.high = false ∧
      wordLegal .relay (RELAY.LINK_CTRL c.val) h v = true := by
    fin_cases c
    · exact absurd rfl h0
    all_goals exact ⟨_, rfl, rfl, rfl, rfl⟩
  have hreach : s.reach (.func 0) = true := by simp [State.reach, hisl.1]
  rw [State.islWrite_runs (relayCtrlHook c) hisl hreach rfl nofun rfl rfl ((State.islReg_linkCtrl hhas h0).trans hf) hw hh hlegal]
  rw [relayCtrlHook, if_pos hv]
  exact State.relayTrain_relayState _ c

end Sys2Proof.Machine
end

section
set_option Elab.async false
namespace Sys2Proof.Proofs

open Sys2Proof Sys2Proof.Machine

/-- Settles O15: what the reset of the host island, its link, its functions and the relay links show after each of their events. -/
theorem hostIslandAndLinks : Obligations.HostIslandAndLinks := by
  refine ⟨⟨fun s hs => ⟨_, rfl, State.islandReset_shows hs⟩, fun s hgood => ?_⟩,
    ⟨fun s speed width flit hgood hperst hdead h4 h6 h1 h16 => State.pcieLinkTrained_shows flit hgood hperst hdead h4 h6 h1 h16, fun s hl0 => ?_⟩,
    ⟨fun s f hperst hdead hf hvf => ?_, fun s on hperst hdead => ?_, fun s f vmask hperst hdead hf hvf => ?_⟩,
    fun s c hrelay hup => ⟨?_, ?_, ?_⟩, fun s c hrelay hdown hauto => ?_, fun s c v hrelay hisl hv => ?_, fun s c hrelay htrain => ⟨?_, ?_⟩⟩
  · exact ⟨_, congrArg Host.Outcome.next (if_pos hgood), rfl, fun _ => rfl⟩
  · refine ⟨_, congrArg Host.Outcome.next (if_pos hl0), ?_⟩
    exact (IslStep.onAllLive (K := QuietKey) (fun _ h => h) (s.onIsl (fun i => { i with l0 := false })) _).field (·.l0) (fun _ => rfl)
  · have hruns : ¬ (s.isl.perst = true ∨ s.isl.dead = true ∨ 128 ≤ f ∨ (f ≠ 0 ∧ s.isl.vfEnable = false)) := by
      rcases hvf with hvf | hvf <;> simp [hperst, hdead, hvf, hf]
    by_cases h0 : f = 0
    · subst h0
      obtain ⟨hfn, hen, -⟩ := s.disableVfs.flrOne_shows 0
      refine ⟨_, congrArg Host.Outcome.next ((if_neg hruns).trans (if_pos rfl)), hfn, fun _ => ⟨?_, rfl⟩, fun h => absurd rfl h⟩
      exact hen.trans s.disableVfs_vfEnable
    · obtain ⟨hfn, hen, hcnt⟩ := s.flrOne_shows f
      refine ⟨_, congrArg Host.Outcome.next ((if_neg hruns).trans (if_neg h0)), hfn, fun h => absurd h h0, fun _ => ⟨?_, hcnt⟩⟩
      exact hen.trans (hvf.resolve_left h0)
  · by_cases hon : s.isl.vfEnable = on
    · exact ⟨s, congrArg Host.Outcome.next (if_pos (.inr (.inr hon))), hon, fun h1 h2 => by rw [hon, h1] at h2; cases h2⟩
    · have hruns : ¬ (s.isl.perst = true ∨ s.isl.dead = true ∨ s.isl.vfEnable = on) := by simp [hperst, hdead, hon]
      cases on with
      | true => exact ⟨_, congrArg Host.Outcome.next ((if_neg hruns).trans (if_pos rfl)), rfl, fun _ _ => rfl⟩
      | false =>
        exact ⟨_, congrArg Host.Outcome.next ((if_neg hruns).trans (if_neg Bool.false_ne_true)), s.disableVfs_vfEnable, fun h => nomatch h⟩
  · have hruns : ¬ (s.isl.perst = true ∨ s.isl.dead = true ∨ 128 ≤ f ∨ (f ≠ 0 ∧ s.isl.vfEnable = false)) := by
      rcases hvf with hvf | hvf <;> simp [hperst, hdead, hvf, hf]
    refine ⟨_, congrArg Host.Outcome.next (if_neg hruns), ?_⟩
    dsimp only
    rw [Isl.fn, (IslStep.sendHeld (K := QuietKey) _).field (·.fns) (fun _ => rfl)]
    exact tget_tput_same _ _ _ _
  · refine ⟨_, congrArg Host.Outcome.next ((if_pos (by simp [hrelay, hup])).trans (if_pos rfl)), tget_tput_same _ _ _ _, hup⟩
  · by_cases hn : tget 0 s.isl.relayRun c.val < 8
    · obtain ⟨s1, hs1⟩ : ∃ s1, s1 = s.onIsl (fun i =>
        { i.inc hpRelay (RELAY.REPLAY_CNT c.val) with relayRun := tput 0 i.relayRun c.val (tget 0 s.isl.relayRun c.val + 1) }) := ⟨_, rfl⟩
      have hexec : exec (.relayFlitRx c false) s = .next (if s.isl.nat hpRelay (RELAY.REPLAY_CNT c.val) = 0 then s1.islRaise hpRelay 10 else s1) := by
        rw [hs1]
        exact congrArg Host.Outcome.next ((if_pos (by simp [hrelay, hup])).trans ((if_neg Bool.false_ne_true).trans (if_pos hn)))
      have hstep : IslStep QuietKey s1 (if s.isl.nat hpRelay (RELAY.REPLAY_CNT c.val) = 0 then s1.islRaise hpRelay 10 else s1) :=
        .ite (fun _ => .islRaise (fun _ h => h.1) s1 hpRelay 10) (fun _ => .refl s1)
      refine ⟨_, hexec, ?_⟩
      dsimp only
      rw [if_pos hn, hstep.field (·.relayRun) (fun _ => rfl), State.relayState, hstep.isl.getF (quietKey_link c), hs1]
      refine ⟨tget_tput_same _ _ _ _, Eq.trans ?_ hup⟩
      exact congrArg (fun w : Word => fld w 31 30) (Isl.get_put_ne s.isl _ (by unfold RELAY.REPLAY_CNT; dsimp only; omega))
    · refine ⟨_, congrArg Host.Outcome.next ((if_pos (by simp [hrelay, hup])).trans ((if_neg Bool.false_ne_true).trans (if_neg hn))), ?_⟩
      dsimp only
      rw [if_neg hn]
      exact s.relayDown_shows c (by decide)
  · exact ⟨_, congrArg Host.Outcome.next (if_pos (by simp [hrelay, hup])), (s.relayDown_shows c (by decide)).1⟩
  · exact ⟨_, congrArg Host.Outcome.next (if_pos (by simp [hrelay, hdown, hauto])), State.relayTrain_relayState _ c⟩
  · exact ⟨_, rfl, State.relayRetrain_relayState hrelay hisl hv⟩
  · refine ⟨_, congrArg Host.Outcome.next ((if_pos (by simp [hrelay, htrain])).trans (if_pos rfl)), ?_⟩
    have hstep : IslStep QuietKey (s.onIsl (fun i => i.putF hpRelay (RELAY.LINK_STAT_STATE c.val) 1))
        (((s.onIsl (fun i => i.putF hpRelay (RELAY.LINK_STAT_STATE c.val) 1)).islRaise hpRelay 9).relayJournal c clsNone 2 c.val false) :=
      (IslStep.islRaise (fun _ h => h.1) _ hpRelay 9).trans (.islJournal _ _ _ _ _)
    dsimp only
    rw [State.relayState, hstep.isl.getF (quietKey_link c)]
    exact Isl.getF_putF_same s.isl hpRelay (RELAY.LINK_STAT_STATE c.val) 1 (by norm_num) (by norm_num)
  · exact ⟨_, congrArg Host.Outcome.next ((if_pos (by simp [hrelay, htrain])).trans (if_neg Bool.false_ne_true)), (s.relayDown_shows c (by decide)).1⟩

end Sys2Proof.Proofs
end

section
set_option Elab.async false
/-! The test port's instruction and what the module has put out are read by no register access: two modules that differ in them stay alike
(R613, R614). -/

namespace Sys2Proof.Machine

/-- The host island with another instruction in the test port. -/
def Isl.withIr (i : Isl) (k : Nat) : Isl := { i with jtagIr := k }

/-- The module with another instruction in the test port, and other outputs. -/
def State.dress (s : State) (k : Nat) (o : List Out) : State := { s with isl := s.isl.withIr k, out := o }

/-- `t` is `s` but for its outputs and the instruction `k`. -/
def Alike (k : Nat) (s t : State) : Prop := ∃ o, t = s.dress k o

namespace Isl

variable (i : Isl) (k p off v : Nat) (w : Word) (f : Fld)

theorem withIr_get : (i.withIr k).get p off = i.get p off := rfl

theorem withIr_nat : (i.withIr k).nat p off = i.nat p off := rfl

theorem withIr_get64 : (i.withIr k).get64 p off = i.get64 p off := rfl

theorem withIr_getB : (i.withIr k).getB p f = i.getB p f := rfl

theorem withIr_line : (i.withIr k).line p = i.line p := rfl

theorem withIr_put : (i.withIr k).put p off w = (i.put p off w).withIr k := rfl

theorem withIr_putN : (i.withIr k).putN p off v = (i.putN p off v).withIr k := rfl

theorem withIr_putF : (i.withIr k).putF p f v = (i.putF p f v).withIr k := withIr_put ..

theorem withIr_inc : (i.withIr k).inc p off v = (i.inc p off v).withIr k := withIr_putN ..

theorem withIr_put64 : (i.withIr k).put64 p off v = (i.put64 p off v).withIr k := by rw [put64, withIr_putN, withIr_putN, ← put64]

theorem withIr_orCause (m : Nat) : (i.withIr k).orCause p m = (i.orCause p m).withIr k := by
  simp only [orCause, withIr_nat, withIr_putN]
  exact (apply_ite (fun j : Isl => j.withIr k) _ _ _).symm

theorem withIr_clearCause (m : Nat) : (i.withIr k).clearCause p m = (i.clearCause p m).withIr k := by
  simp only [clearCause, withIr_nat, withIr_putN]
  exact (apply_ite (fun j : Isl => j.withIr k) _ _ _).symm

theorem withIr_hold (src : MsiSrc) : (i.withIr k).hold src = (i.hold src).withIr k := by
  show (if i.held.contains src = true then i.withIr k else ({ i with held := i.held ++ [src] } : Isl).withIr k) = _
  exact (apply_ite (fun j : Isl => j.withIr k) _ _ _).symm

theorem withIr_putList : ∀ (l : List Nat) (i : Isl) (off : Nat), (i.withIr k).putList p off l = (i.putList p off l).withIr k
  | [], _, _ => rfl
  | v :: l, i, off => by rw [putList, withIr_putN, withIr_putList l, ← putList]

theorem withIr_tallyPass (a : Attr) : (i.withIr k).tallyPass p a = i.tallyPass p a := rfl

theorem withIr_tallyOn (code : Nat) (a : Attr) (n : Nat) : (i.withIr k).tallyOn p code a n = i.tallyOn p code a n := rfl

theorem withIr_islBump (n : Nat) (b : Bool) (j : Nat) : islBump p n (i.withIr k, b) j = ((islBump p n (i, b) j).1.withIr k, (islBump p n (i, b) j).2) := by
  simp only [islBump, withIr_get64, withIr_put64]
  split
  · rfl
  · rw [withIr_putF, withIr_get]

theorem withIr_tallyAdd (code : Nat) (a : Attr) (n : Nat) :
    (i.withIr k).tallyAdd p code a n = ((i.tallyAdd p code a n).1.withIr k, (i.tallyAdd p code a n).2) := by
  have hall : ∀ (l : List Nat) (r : Isl × Bool), l.foldl (islBump p n) (r.1.withIr k, r.2) =
      ((l.foldl (islBump p n) r).1.withIr k, (l.foldl (islBump p n) r).2) := fun l => by
    induction l with
    | nil => exact fun _ => rfl
    | cons j l ih => exact fun r => (congrArg (l.foldl (islBump p n)) (withIr_islBump r.1 k p n r.2 j)).trans (ih _)
  unfold tallyAdd
  simp only [withIr_tallyOn]
  split
  · exact hall _ (i, false)
  · rfl

end Isl

namespace Alike

variable {k : Nat} {s t : State}

theorem ite {p : Prop} [Decidable p] {x y x' y' : State} (hx : p → Alike k x x') (hy : ¬ p → Alike k y y') :
    Alike k (if p then x else y) (if p then x' else y') := by
  split
  · exact hx ‹_›
  · exact hy ‹_›

theorem onIsl (h : Alike k s t) {f : Isl → Isl} (hf : ∀ i : Isl, f (i.withIr k) = (f i).withIr k) : Alike k (s.onIsl f) (t.onIsl f) := by
  obtain ⟨o, rfl⟩ := h
  exact ⟨o, congrArg (fun i => ({ s with isl := i, out := o } : State)) (hf s.isl)⟩

theorem setChan (h : Alike k s t) (c : Fin 4) (ch : Chan) : Alike k (s.setChan c ch) (t.setChan c ch) := by
  obtain ⟨o, rfl⟩ := h
  exact ⟨o, rfl⟩

theorem emit (h : Alike k s t) (x : Out) : Alike k (s.emit x) (t.emit x) := by
  obtain ⟨o, rfl⟩ := h
  exact ⟨x :: o, rfl⟩

theorem sendVec (h : Alike k s t) (m : MsiSrc) (v : Nat) : Alike k (s.sendVec m v) (t.sendVec m v) := by
  obtain ⟨o, rfl⟩ := h
  exact ite (p := s.isl.canSend (s.isl.vecOwner v).1 (s.isl.vecOwner v).2 = true) (fun _ => ⟨_, rfl⟩)
    (fun _ => onIsl ⟨o, rfl⟩ (f := fun i => i.hold m) (fun i => i.withIr_hold k m))

theorem pageIrq (h : Alike k s t) (m : MsiSrc) : Alike k (s.pageIrq m) (t.pageIrq m) := by
  obtain ⟨o, rfl⟩ := h
  have hroute : (s.dress k o).routeOf m = s.routeOf m := by cases m <;> rfl
  unfold State.pageIrq
  rw [hroute]
  exact ite (fun _ => sendVec ⟨o, rfl⟩ m _) (fun _ => ⟨o, rfl⟩)

theorem deliverOne (h : Alike k s t) (d : Nat) (v : Nat → Nat → Nat) (x : Out) : Alike k (State.deliverOne d v s x) (State.deliverOne d v t x) := by
  cases x with
  | irqPage key => exact pageIrq h _
  | irqRing p r => exact sendVec h _ _
  | note _ _ => exact h
  | _ => exact emit h _

theorem foldl {α : Type} {f : State → α → State} (hf : ∀ (a : α) {u w : State}, Alike k u w → Alike k (f u a) (f w a)) :
    ∀ (l : List α) {u w : State}, Alike k u w → Alike k (l.foldl f u) (l.foldl f w)
  | [], _, _, h => h
  | a :: l, _, _, h => foldl hf l (hf a h)

theorem flush (h : Alike k s t) (c : Fin 4) : Alike k (s.flush c) (t.flush c) := by
  obtain ⟨o, rfl⟩ := h
  exact foldl (fun x _ _ hu => deliverOne hu c.val (s.chan c).ringVec x) (s.chan c).outQ (setChan ⟨o, rfl⟩ c { s.chan c with outQ := [] })

theorem islJournal (h : Alike k s t) (page cls ev detail : Nat) : Alike k (s.islJournal page cls ev detail) (t.islJournal page cls ev detail) := by
  obtain ⟨o, rfl⟩ := h
  exact ite (p := s.chState 0 = 4) (fun _ => flush (setChan ⟨o, rfl⟩ 0 _) 0) (fun _ => ⟨o, rfl⟩)

theorem islRaiseMask (h : Alike k s t) (p m : Nat) : Alike k (s.islRaiseMask p m) (t.islRaiseMask p m) := by
  obtain ⟨o, rfl⟩ := h
  unfold State.islRaiseMask
  simp only [State.dress, Isl.withIr_line, Isl.withIr_nat, Isl.withIr_orCause, Isl.withIr_tallyAdd, ← apply_ite (fun j : Isl => j.withIr k)]
  exact ite (fun _ => pageIrq ⟨o, rfl⟩ _) (fun _ => ⟨o, rfl⟩)

theorem islRaise (h : Alike k s t) (p b : Nat) : Alike k (s.islRaise p b) (t.islRaise p b) := islRaiseMask h p _

theorem islTally (h : Alike k s t) (p code : Nat) (a : Attr) (n : Nat) : Alike k (s.islTally p code a n) (t.islTally p code a n) := by
  obtain ⟨o, rfl⟩ := h
  unfold State.islTally
  simp only [State.dress, Isl.withIr_tallyAdd]
  exact ite (fun _ => islRaise (s := { s with isl := (s.isl.tallyAdd p code a n).1 }) ⟨o, rfl⟩ p 4) (fun _ => ⟨o, rfl⟩)

theorem unimpl (h : Alike k s t) : Alike k s.unimpl t.unimpl := onIsl h (fun i => i.withIr_inc k _ _ _)

theorem setLatch (h : Alike k s t) (r : Req) (c : Fin 4) (l : Latch) : Alike k (s.setLatch r c l) (t.setLatch r c l) := by
  obtain ⟨o, rfl⟩ := h
  cases r with
  | func n => exact ⟨o, rfl⟩
  | _ => exact ⟨o, rfl⟩

theorem inc (h : Alike k s t) (p off : Nat) : Alike k (s.onIsl (fun i => i.inc p off)) (t.onIsl (fun i => i.inc p off)) :=
  onIsl h (fun i => i.withIr_inc k _ _ _)

theorem get (h : Alike k s t) (p off : Nat) : t.isl.get p off = s.isl.get p off := by
  obtain ⟨o, rfl⟩ := h
  rfl

theorem reject (h : Alike k s t) (kind : Nat) (rd : Bool) (f addr : Nat) : Alike k (s.reject kind rd f addr) (t.reject kind rd f addr) := by
  have hcount := h.inc hpHost (HOST.REJ_KW_CNT + 4 * kind)
  unfold State.reject
  generalize s.onIsl (fun i => i.inc hpHost (HOST.REJ_KW_CNT + 4 * kind)) = s1 at hcount ⊢
  generalize t.onIsl (fun i => i.inc hpHost (HOST.REJ_KW_CNT + 4 * kind)) = t1 at hcount ⊢
  dsimp only
  rw [hcount.get]
  exact islRaise (ite (fun _ => hcount) (fun _ => onIsl hcount (fun i => by rw [Isl.withIr_putN, Isl.withIr_putN]))) hpHost 8

theorem islCapture (h : Alike k s t) (p cls cause addr syn det : Nat) :
    Alike k (s.islCapture p cls cause addr syn det) (t.islCapture p cls cause addr syn det) := by
  obtain ⟨o, rfl⟩ := h
  have htime : (s.dress k o).islTime = s.islTime := rfl
  have hword : (s.dress k o).isl.get p (oERR 5) = s.isl.get p (oERR 5) := rfl
  unfold State.islCapture
  rw [htime, hword]
  split
  · exact ⟨o, rfl⟩
  · refine ite (fun _ => ite (fun _ => onIsl ⟨o, rfl⟩ (fun i => ?_)) (fun _ => onIsl ⟨o, rfl⟩ (fun i => i.withIr_putList k p _ _))) (fun _ => ⟨o, rfl⟩)
    rw [Isl.withIr_inc, Isl.withIr_putF]

theorem setChState (h : Alike k s t) (c st : Nat) : Alike k (s.setChState c st) (t.setChState c st) := by
  obtain ⟨o, rfl⟩ := h
  have hput : Alike k { s with isl := { s.isl.putF hpPwr (PWRH.CH_STAT_STATE c) st with chSince := tput 0 s.isl.chSince c s.isl.ns } }
      { s.dress k o with isl := { (s.isl.putF hpPwr (PWRH.CH_STAT_STATE c) st).withIr k with chSince := tput 0 s.isl.chSince c s.isl.ns } } := ⟨o, rfl⟩
  unfold State.setChState
  simp only [State.dress, Isl.withIr_putF]
  exact ite (p := s.isl.getF hpPwr (PWRH.CH_STAT_STATE c) = st) (fun _ => ⟨o, rfl⟩) (fun _ => islRaise hput hpPwr 8)

theorem endTests (h : Alike k s t) (c : Fin 4) : Alike k (s.endTests c) (t.endTests c) := by
  obtain ⟨o, rfl⟩ := h
  exact ite (p := s.chLive c = true) (fun _ => flush (setChan ⟨o, rfl⟩ c (s.chan c).testsFatal) c) (fun _ => ⟨o, rfl⟩)

theorem fatalChan (h : Alike k s t) (c : Fin 4) (cause : Nat) (off : Bool) : Alike k (s.fatalChan c cause off) (t.fatalChan c cause off) := by
  have hcause : ∀ {u w : State}, Alike k u w → Alike k (u.onIsl (fun i => i.putF hpPwr (PWRH.CH_STAT_CAUSE c.val) cause))
      (w.onIsl (fun i => i.putF hpPwr (PWRH.CH_STAT_CAUSE c.val) cause)) := fun hu => onIsl hu (fun i => i.withIr_putF k _ _ _)
  have hoff : ∀ {u w : State}, Alike k u w → Alike k (u.onIsl (fun i => { i with forcedOff := setNbit i.forcedOff c.val true }))
      (w.onIsl (fun i => { i with forcedOff := setNbit i.forcedOff c.val true })) := fun hu => onIsl hu (fun _ => rfl)
  have hstate := hcause ((endTests h c).setChState c.val 6)
  have hpower := emit (ite (p := off = true) (fun _ => hoff hstate) (fun _ => hstate)) (.pin 0x10 [c.val])
  have hfatal := islJournal hpower hpPwr clsChanFatal 3 (c.val + cause * 2 ^ 8)
  obtain ⟨o, rfl⟩ := h
  refine ite (p := (s.hasChan c && s.chState c == 6 && off && !(nbit s.isl.forcedOff c.val)) = true) (fun _ => ?_)
    (fun _ => ite (p := (s.hasChan c && s.chState c != 6) = true) (fun _ => hfatal) (fun _ => ⟨o, rfl⟩))
  exact hoff (hcause ⟨o, rfl⟩)

theorem deliver (h : Alike k s t) (c : Fin 4) : Alike k (s.deliver c) (t.deliver c) := by
  obtain ⟨o, rfl⟩ := h
  unfold State.deliver
  refine foldl (fun x u w hu => ?_) _ (setChan ⟨o, rfl⟩ c { (s.chan c).journalCauses with outQ := [] })
  cases x with
  | fatal cause => exact fatalChan hu c cause false
  | _ => exact deliverOne hu _ _ _

/-- An effect that reads of the module only what both show alike. -/
theorem runChan (h : Alike k s t) (c : Fin 4) {f g : Chan → Chan} (hf : g (s.chan c) = f (s.chan c)) : Alike k (s.runChan c f) (t.runChan c g) := by
  obtain ⟨o, rfl⟩ := h
  have hset : Alike k (s.setChan c (f (s.chan c))) ((s.dress k o).setChan c (g ((s.dress k o).chan c))) := by
    rw [show (s.dress k o).chan c = s.chan c from rfl, hf]
    exact setChan ⟨o, rfl⟩ c _
  exact deliver hset c

theorem onPages (h : Alike k s t) (c : Fin 4) (f : Chan → Chan) : Alike k (s.onPages c f) (t.onPages c f) := by
  have hstate : t.chState c = s.chState c := by rw [State.chState, Isl.getF, h.get, State.chState, Isl.getF]
  refine runChan h c ?_
  rw [hstate]

theorem hookRun (h : Alike k s t) (c : Fin 4) (off : Nat) (f : Chan → Chan) : Alike k (s.hookRun c off f) (t.hookRun c off f) :=
  ite (fun _ => runChan h c rfl) (fun _ => onPages h c f)

theorem chan (h : Alike k s t) (c : Fin 4) : t.chan c = s.chan c := by
  obtain ⟨o, rfl⟩ := h
  rfl

theorem latch (h : Alike k s t) (r : Req) (c : Fin 4) : t.latch r c = s.latch r c := by
  obtain ⟨o, rfl⟩ := h
  cases r <;> rfl

/-! Writes. -/

theorem applyWrite (h : Alike k s t) (hook : Hook) (judge : Bool) (r : Req) (c : Fin 4) (p : Pg) (off : Nat) (kd : PageKind) (hit : RegHit) (v : Word) :
    Alike k (s.applyWrite hook judge r c p off kd hit v) (t.applyWrite hook judge r c p off kd hit v) := by
  unfold State.applyWrite
  dsimp only
  rw [h.chan, h.latch]
  refine ite (fun _ => ite (fun _ => setLatch h _ _ _) (fun _ => h)) (fun _ => ite (fun _ => ?_) (fun _ => ite (fun _ => runChan h c rfl) (fun _ => hookRun h _ _ _)))
  have hstaged : Alike k (if decide ((s.latch r c).kind = 2 ∧ (s.latch r c).addr = addrOf c.val p (off - 4)) = true then s.setLatch r c {} else s)
      (if decide ((s.latch r c).kind = 2 ∧ (s.latch r c).addr = addrOf c.val p (off - 4)) = true then t.setLatch r c {} else t) :=
    ite (fun _ => setLatch h _ _ _) (fun _ => h)
  exact ite (fun _ => runChan hstaged c rfl) (fun _ => hookRun hstaged _ _ _)

theorem hostWrite (h : Alike k s t) (hook : Hook) (judge : Bool) (r : Req) (c : Fin 4) (p : Pg) (off : Nat) (v : Word) :
    Alike k (s.hostWrite hook judge r c p off v) (t.hostWrite hook judge r c p off v) := by
  have hhas : t.hasChan c = s.hasChan c := by
    obtain ⟨o, rfl⟩ := h
    rfl
  have hup : t.relayUp c = s.relayUp c := by
    obtain ⟨o, rfl⟩ := h
    rfl
  have hpages : t.chPages c = s.chPages c := by
    obtain ⟨o, rfl⟩ := h
    rfl
  unfold State.hostWrite
  rw [hhas, hup, hpages, h.chan]
  refine ite (fun _ => unimpl h) (fun _ => ite (fun _ => h) (fun _ => ?_))
  split
  · exact unimpl h
  · split
    · exact unimpl h
    · dsimp only
      refine ite (fun _ => ?_) (fun _ => ite (fun _ => ?_) (fun _ => ite (fun _ => ?_) (fun _ => applyWrite (onPages h _ _) _ _ _ _ _ _ _ _ _)))
      all_goals exact onPages (reject (onPages h _ _) _ _ _ _) _ _

theorem sendHeld (h : Alike k s t) : Alike k s.sendHeld t.sendHeld := by
  obtain ⟨o, rfl⟩ := h
  unfold State.sendHeld
  refine foldl (fun src u w hu => ?_) s.isl.held ⟨o, rfl⟩
  obtain ⟨o, rfl⟩ := hu
  have hvec : (u.dress k o).srcVector src = u.srcVector src := by cases src <;> rfl
  have htake : Alike k (u.onIsl (fun i => { i with held := i.held.filter (fun x => x != src) }))
      ((u.dress k o).onIsl (fun i => { i with held := i.held.filter (fun x => x != src) })) := onIsl ⟨o, rfl⟩ (fun _ => rfl)
  have hline : ((u.dress k o).onIsl (fun i => { i with held := i.held.filter (fun x => x != src) })).lineOf src =
      (u.onIsl (fun i => { i with held := i.held.filter (fun x => x != src) })).lineOf src := by cases src <;> rfl
  rw [hvec]
  dsimp only
  rw [hline]
  exact ite (p := u.isl.canSend (u.isl.vecOwner (u.srcVector src)).1 (u.isl.vecOwner (u.srcVector src)).2 = true)
    (fun _ => ite (fun _ => emit htake _) (fun _ => htake)) (fun _ => ⟨o, rfl⟩)

theorem settle (h : Alike k s t) (c : Fin 4) : Alike k (s.settle c) (t.settle c) := by
  obtain ⟨o, rfl⟩ := h
  unfold State.settle
  refine ite (p := s.hasChan c = false ∨ s.isl.pkgFatal = true ∨ s.isl.pwrgood = false) (fun _ => ⟨o, rfl⟩) (fun _ => ?_)
  refine ite (p := s.wanted c = 1) (fun _ => ite (p := s.chState c = 0 ∨ s.chState c = 5) (fun _ => setChState ⟨o, rfl⟩ _ _) (fun _ => ⟨o, rfl⟩)) (fun _ => ?_)
  exact setChState (onIsl (f := fun i => { i with forcedOff := setNbit i.forcedOff c.val false }) (setChan ⟨o, rfl⟩ c (s.chan c).fresh) (fun _ => rfl)) _ (s.wanted c)

theorem islSoftReset (h : Alike k s t) (kd : PageKind) (p : Nat) : Alike k (s.islSoftReset kd p) (t.islSoftReset kd p) := by
  have hbusy : t.isl.getB p STAT_BUSY = s.isl.getB p STAT_BUSY := by rw [Isl.getB, Isl.getF, h.get, Isl.getB, Isl.getF]
  unfold State.islSoftReset
  rw [hbusy]
  refine ite (fun _ => h) (fun _ => onIsl h (fun i => ?_))
  dsimp only
  rw [← Isl.withIr_clearCause]
  refine congrArg (fun j : Isl => j.clearCause p (2 ^ 32 - 1)) ?_
  cases kd <;> rfl

section
variable (h : Alike k s t)
include h

theorem chCtrlHook (c : Fin 4) (q o : Nat) (old v m : Word) : Alike k (Machine.chCtrlHook c q o old v m s) (Machine.chCtrlHook c q o old v m t) := by
  have hput := settle (onIsl h (f := fun i => i.put q o m) (fun i => i.withIr_put k _ _ _)) c
  have hstate : ∀ {u w : State}, Alike k u w → w.chState c = u.chState c := fun hu => by rw [State.chState, Isl.getF, hu.get, State.chState, Isl.getF]
  unfold Machine.chCtrlHook
  dsimp only
  rw [hstate hput, hstate h]
  have hreset := ite (p := bit m 31 = true ∧ bit old 31 = false ∧ ((s.onIsl (fun i => i.put q o m)).settle c).chState c = 5 ∧ s.chState c ≠ 5)
    (fun _ => islJournal hput hpPwr clsNone 1 (c.val + 2 ^ 8)) (fun _ => hput)
  exact ite (fun _ => islJournal hreset _ _ _ _) (fun _ => ite (fun _ => islJournal hreset _ _ _ _) (fun _ => hreset))

theorem jtagCtrlHook (q o : Nat) (old v m : Word) : Alike k (Machine.jtagCtrlHook q o old v m s) (Machine.jtagCtrlHook q o old v m t) := by
  have hput := onIsl h (f := fun i => i.put q o m) (fun i => i.withIr_put k _ _ _)
  exact ite (fun _ => onIsl hput (fun i => i.withIr_putF k _ _ _)) (fun _ => hput)

theorem relayCtrlHook (c : Fin 4) (q o : Nat) (old v m : Word) : Alike k (Machine.relayCtrlHook c q o old v m s) (Machine.relayCtrlHook c q o old v m t) := by
  have hput := onIsl h (f := fun i => i.put q o m) (fun i => i.withIr_put k _ _ _)
  exact ite (fun _ => onIsl hput (fun i => i.withIr_putF k _ _ _)) (fun _ => hput)

theorem islCtrlHook (kd : PageKind) (q o : Nat) (old v m : Word) : Alike k (Machine.islCtrlHook kd q o old v m s) (Machine.islCtrlHook kd q o old v m t) := by
  have hput := onIsl h (f := fun i => i.put q o (ctrlWord kd v)) (fun i => i.withIr_put k _ _ _)
  have hsent := ite (p := kd = .host ∧ bit v 0 = true ∧ bit old 0 = false) (fun _ => sendHeld hput) (fun _ => hput)
  exact ite (fun _ => islSoftReset hsent kd q) (fun _ => hsent)

theorem islEnableHook (kd : PageKind) (q o : Nat) (old v m : Word) : Alike k (Machine.islEnableHook kd q o old v m s) (Machine.islEnableHook kd q o old v m t) := by
  have hput := onIsl h (f := fun i => i.putN q oENABLE (Nat.land v.toNat kd.cap.causeMask)) (fun i => i.withIr_putN k _ _ _)
  have hline : ∀ {u w : State}, Alike k u w → w.isl.line q = u.isl.line q := fun hu => by
    obtain ⟨o, rfl⟩ := hu
    rfl
  unfold Machine.islEnableHook
  dsimp only
  rw [hline hput, hline h]
  exact ite (fun _ => pageIrq hput _) (fun _ => hput)

theorem islErrHook (q o : Nat) (old v m : Word) : Alike k (Machine.islErrHook q o old v m s) (Machine.islErrHook q o old v m t) :=
  ite (fun _ => onIsl h (fun i => i.withIr_putList k q _ _)) (fun _ => h)

theorem islTallyHook (q o : Nat) (old v m : Word) : Alike k (Machine.islTallyHook q o old v m s) (Machine.islTallyHook q o old v m t) := by
  refine onIsl h (fun i => ?_)
  dsimp only
  rw [Isl.withIr_put]
  split
  · rw [Isl.withIr_putList, Isl.withIr_putN]
  · rfl

theorem plainIsl (q o : Nat) (old v m : Word) : Alike k (Machine.plainIsl q o old v m s) (Machine.plainIsl q o old v m t) :=
  onIsl h (fun i => i.withIr_put k _ _ _)

/-- The effect of a write of a host island register. -/
theorem islHookOf (p off q o : Nat) (old v m : Word) :
    Alike k (Machine.islHookOf p off q o old v m s) (Machine.islHookOf p off q o old v m t) := by
  have happly : ∀ {c : Prop} [Decidable c] {f g : IslHook}, (c → Alike k (f q o old v m s) (f q o old v m t)) →
      (¬ c → Alike k (g q o old v m s) (g q o old v m t)) → Alike k ((if c then f else g) q o old v m s) ((if c then f else g) q o old v m t) :=
    fun hf hg => by
      split
      · exact hf ‹_›
      · exact hg ‹_›
  have hcause : ∀ kd, Alike k (islCauseHook kd q o old v m s) (islCauseHook kd q o old v m t) := fun kd => onIsl h (fun i => i.withIr_clearCause k _ _)
  cases hk : hpKind p with
  | none =>
    simp only [Machine.islHookOf, hk]
    exact plainIsl h q o old v m
  | some kd =>
    simp only [Machine.islHookOf, hk]
    refine happly (fun _ => islCtrlHook h kd q o old v m) (fun _ => happly (fun _ => hcause kd) (fun _ => happly (fun _ => islEnableHook h kd q o old v m)
      (fun _ => happly (f := islForceHook kd) (fun _ => islRaiseMask h q _) (fun _ => happly (fun _ => islErrHook h q o old v m)
        (fun _ => happly (fun _ => islTallyHook h q o old v m) (fun _ => ?_))))))
    split
    · split
      · exact chCtrlHook h _ q o old v m
      · exact happly (fun _ => jtagCtrlHook h q o old v m) (fun _ => plainIsl h q o old v m)
    · split
      · exact relayCtrlHook h _ q o old v m
      · exact plainIsl h q o old v m
    · exact plainIsl h q o old v m

theorem islWrite {hook : IslHook} (hhook : ∀ {u w : State}, Alike k u w → ∀ q o old v m, Alike k (hook q o old v m u) (hook q o old v m w))
    (r : Req) (hreach : t.reach r = s.reach r) (p off : Nat) (v : Word) : Alike k (s.islWrite hook r p off v) (t.islWrite hook r p off v) := by
  have hperst : t.isl.perst = s.isl.perst := by
    obtain ⟨o, rfl⟩ := h
    rfl
  have hreg : t.islReg p off = s.islReg p off := by
    obtain ⟨o, rfl⟩ := h
    rfl
  have htally := islTally h p 3 (r.attr none) 1
  unfold State.islWrite
  rw [hreach, hperst, hreg]
  split
  · exact h
  · refine ite (fun _ => h) (fun _ => ite (fun _ => h) (fun _ => ?_))
    split
    · dsimp only
      rw [htally.latch, htally.get]
      refine ite (fun _ => islTally (reject htally _ _ _ _) _ _ _ _) (fun _ => ite (fun _ => islTally (reject htally _ _ _ _) _ _ _ _)
        (fun _ => ite (fun _ => ite (fun _ => setLatch htally _ _ _) (fun _ => htally)) (fun _ => ite (fun _ => ?_)
          (fun _ => ite (fun _ => islRaise (islCapture htally _ _ _ _ _ _) _ _) (fun _ => hhook htally _ _ _ _ _)))))
      refine onIsl (ite (fun _ => ?_) (fun _ => ite (fun _ => setLatch htally _ _ _) (fun _ => htally))) (fun i => by rw [Isl.withIr_get, Isl.withIr_put])
      have hlatch := ite (p := decide ((( s.islTally p 3 (r.attr none)).latch r 0).kind = 2 ∧
        ((s.islTally p 3 (r.attr none)).latch r 0).addr = p * 0x10000 + off - 4) = true) (fun _ => setLatch htally r 0 {}) (fun _ => htally)
      rw [hlatch.get]
      exact onIsl hlatch (fun i => by rw [Isl.withIr_put])
    · exact unimpl h

/-- A register write by the test port. -/
theorem busWrite_jtag (hreach : t.reach .jtag = s.reach .jtag) (addr : Nat) (v : Word) : Alike k (s.busWrite .jtag addr v) (t.busWrite .jtag addr v) := by
  have hperst : t.isl.perst = s.isl.perst := by
    obtain ⟨o, rfl⟩ := h
    rfl
  unfold State.busWrite
  dsimp only
  split
  · exact islWrite h (fun hu q o old v m => islHookOf hu _ _ q o old v m) .jtag hreach _ _ v
  · next c p off _ =>
    have hhook : hookOf (t.hostReach c) (fun v => (t.isl.vecOwner v).1) p off = hookOf (s.hostReach c) (fun v => (s.isl.vecOwner v).1) p off := by
      obtain ⟨o, rfl⟩ := h
      rfl
    unfold State.pageWrite State.chanWrite
    dsimp only [Req.keeper?]
    rw [hreach, hperst, hhook]
    exact ite (fun _ => h) (fun _ => hostWrite h _ _ _ _ _ _ _)
  · rw [hreach, hperst]
    exact ite (fun _ => h) (fun _ => unimpl h)

/-! Reads. -/

theorem islView (kd : PageKind) (p off : Nat) : t.islView kd p off = s.islView kd p off := by
  obtain ⟨o, rfl⟩ := h
  rfl

theorem islRead (r : Req) (kd : PageKind) (p off : Nat) (hit : RegHit) : (t.islRead r kd p off hit).1 = (s.islRead r kd p off hit).1 := by
  unfold State.islRead
  dsimp only
  rw [islView h, islView h, h.latch]
  split
  · rfl
  · split
    · split <;> rfl
    · rfl

theorem chanRead (view : PageView) (r : Req) (c : Fin 4) (p : Pg) (off : Nat) (hit : RegHit) :
    (t.chanRead view r c p off hit).1 = (s.chanRead view r c p off hit).1 := by
  unfold State.chanRead
  dsimp only
  rw [h.chan, h.latch]
  iterate 4 split; rfl
  split
  · rfl
  · split
    · split <;> rfl
    · rfl

/-- The value of a register read by the test port. -/
theorem busRead_jtag (hreach : t.reach .jtag = s.reach .jtag) (addr : Nat) : (t.busRead .jtag addr).1 = (s.busRead .jtag addr).1 := by
  have hperst : t.isl.perst = s.isl.perst := by
    obtain ⟨o, rfl⟩ := h
    rfl
  unfold State.busRead
  dsimp only
  unfold State.readAt
  dsimp only [Req.keeper?]
  rw [hreach, hperst]
  split
  · rfl
  · split
    · rfl
    · split
      · rfl
      · next p off _ =>
        have hreg : t.islReg p off = s.islReg p off := by
          obtain ⟨o, rfl⟩ := h
          rfl
        rw [hreg]
        split
        · exact islRead (islTally h _ _ _ _) _ _ _ _ _
        · rfl
      · next c p off _ =>
        have hhas : t.hasChan c = s.hasChan c := by
          obtain ⟨o, rfl⟩ := h
          rfl
        have hup : t.relayUp c = s.relayUp c := by
          obtain ⟨o, rfl⟩ := h
          rfl
        have hpages : t.chPages c = s.chPages c := by
          obtain ⟨o, rfl⟩ := h
          rfl
        rw [hhas, hup, hpages, h.chan]
        split
        · rfl
        · split
          · rfl
          · split
            · rfl
            · split
              · rfl
              · exact chanRead (onPages h _ _) _ _ _ _ _ _

end

end Alike

end Sys2Proof.Machine
end

section
set_option Elab.async false
/-! The SMBus port and the test port (R612–R614). -/

namespace Sys2Proof.Machine

open Sys2Proof.Tests

/-! What reads leave of the host island: everything but registers, held messages and latches. -/

theorem IslStep.setLatch (s : State) (r : Req) (c : Fin 4) (l : Latch) : IslStep (fun _ => False) s (s.setLatch r c l) := by
  cases r with
  | func n => exact ⟨⟨rfl, fun _ hk => hk.elim⟩, rfl⟩
  | _ => exact ⟨⟨rfl, fun _ hk => hk.elim⟩, rfl⟩

theorem IslStep.unimpl (s : State) : IslStep (fun _ => False) s s.unimpl := onIsl s (.put _ _ id)

theorem IslStep.onPages (s : State) (c : Fin 4) (f : Chan → Chan) : IslStep (fun _ => False) s (s.onPages c f) := runChan (fun _ hk => hk.elim) s c _

theorem IslStep.chanRead (s : State) (view : PageView) (r : Req) (c : Fin 4) (p : Pg) (off : Nat) (h : RegHit) :
    IslStep (fun _ => False) s (s.chanRead view r c p off h).2 := by
  unfold State.chanRead
  dsimp only
  split
  · exact setChan s c _
  · iterate 3 split; exact refl s
    split
    · exact (ite (fun _ => refl s) (fun _ => setLatch s _ _ _)).trans (ite (fun _ => setChan _ c _) (fun _ => refl _))
    · split
      · split <;> exact refl s
      · exact ite (fun _ => setChan s c _) (fun _ => refl s)

theorem IslStep.islRead (s : State) (r : Req) (k : PageKind) (p off : Nat) (h : RegHit) : IslStep (fun _ => False) s (s.islRead r k p off h).2 := by
  unfold State.islRead
  dsimp only
  split
  · exact ite (fun _ => refl s) (fun _ => setLatch s _ _ _)
  · split
    · split <;> exact refl s
    · exact ite (fun _ => onIsl s (.put _ _ id)) (fun _ => refl s)

theorem IslStep.reject (s : State) {kind : Nat} (hk : kind < 3) (rd : Bool) (f addr : Nat) : IslStep (fun _ => False) s (s.reject kind rd f addr) :=
  (s.reject_counts hk rd f addr).2.mono (fun _ h => h.elim)

/-- A read by the host, the test port or the SMBus port. -/
theorem IslStep.readAt (s : State) (view : Fin 4 → PageView) (r : Req) (hkeeper : r.keeper? = none) (addr : Nat) :
    IslStep (fun _ => False) s (s.readAt view r addr).2 := by
  have htally : ∀ (t : State) (p code : Nat), IslStep (fun _ => False) t (t.islTally p code (r.attr none)) := fun t p code =>
    islTally (fun _ hk => hk.elim) t p code _ 1
  unfold State.readAt
  dsimp only
  rw [hkeeper]
  dsimp only
  split
  · exact refl s
  · split
    · exact refl s
    · split
      · exact unimpl s
      · split
        · split
          · exact (htally s _ 2).trans (islRead _ _ _ _ _ _)
          · exact ((htally s _ 2).trans (reject (kind := 2) _ (by decide) _ _ _)).trans (htally _ _ 6)
        · exact unimpl s
      · next c p off _ =>
        split
        · exact unimpl s
        · split
          · exact refl s
          · split
            · exact unimpl s
            · split
              · exact unimpl s
              · split
                · exact (onPages s _ _).trans (chanRead _ _ _ _ _ _ _)
                · have hreject := reject (kind := 2) (s.onPages c (fun ch => ch.tally p 2 (r.attr ((s.chan c).partOf (r.func?.getD 0))))) (by decide) true
                    (r.func?.getD 0) addr
                  dsimp only
                  exact ((onPages s c _).trans hreject).trans (onPages _ c _)

/-! The package's SENS page (R584). -/

/-- Pages of the host island other than HOST have no tally unit. -/
theorem State.islTally_eq (s : State) {p : Nat} (h : p ≠ hpHost) (code : Nat) (a : Attr) (n : Nat) : s.islTally p code a n = s := by
  rw [State.islTally, Isl.tallyAdd, if_neg h]
  rfl

/-- The threshold register as the SMBus port and the test port read it. -/
theorem State.busRead_thresh (s : State) {r : Req} (hr : r = .smbus ∨ r = .jtag) (hreach : s.reach r = true) (hperst : s.isl.perst = false ∨ r = .smbus) :
    (s.busRead r 0x30164).1 = s.isl.nat hpSens 0x164 := by
  have hkeeper : r.keeper? = none := by
    rcases hr with rfl | rfl <;> rfl
  have hpf0 : r.isPf0 = true := by
    rcases hr with rfl | rfl <;> rfl
  have hbus : s.busRead r 0x30164 = s.readAt chanView r 0x30164 := by
    rcases hr with rfl | rfl <;> rfl
  have hloc : locate 0x30164 = .isl hpSens 0x164 := rfl
  have hreg : s.islReg hpSens 0x164 = some (Wit.hit .sensH 0x164) := rfl
  rw [hbus, State.readAt, hkeeper, hloc]
  dsimp only
  rw [if_neg (by rw [hreach]; rcases hperst with h | h <;> simp [h]), if_neg (by simp [smbReach]), hreg]
  have hkind : hpKind hpSens = some .sensH := rfl
  rw [hkind]
  dsimp only
  rw [State.islTally_eq s (by decide), if_pos hpf0]
  rfl

/-- A write by the SMBus port. -/
theorem State.islWrite_smbus {s : State} (hook : IslHook) {p off : Nat} {k : PageKind} {h : RegHit} {v : Word} (hreach : s.reach .smbus = true)
    (hplace : (p = hpPwr ∧ off = 0x104) ∨ (p = hpSens ∧ off = 0x164)) (hk : hpKind p = some k) (hreg : s.islReg p off = some h)
    (hw : h.row.wide = false) (hh : h.high = false) (hj : wordLegal k off h v = true) :
    let t := s.islTally p 3 (Req.smbus.attr none)
    s.islWrite hook .smbus p off v = hook p off (t.isl.get p off) v (mergeWord h.row.fields (t.isl.get p off) v) t := by
  rw [State.islWrite]
  dsimp only [Req.keeper?]
  rw [if_neg (by simp [hreach]), if_neg (by tauto), hk, hreg]
  dsimp only
  rw [if_neg (by simp [Req.isPf0, Req.func?]), if_neg (by simp [Req.isPf0, Req.func?]), if_neg (by simp [hw]), if_neg (by simp [hh]), if_neg (by simp [hj])]

/-- The word of a threshold register takes WARN and CRIT. -/
theorem merge_thresh {k : PageKind} {h : RegHit} (hk : k = .sensH ∨ k = .sensFe ∨ k = .sensTm) (hf : findReg k SENS.THRESH = some h) (old v : Word) :
    fld (mergeWord h.row.fields old v) 15 8 = fld v 15 8 ∧ fld (mergeWord h.row.fields old v) 23 16 = fld v 23 16 := by
  have hmod : ∀ hi lo, fld v hi lo % 2 ^ (hi + 1 - lo) = fld v hi lo := fun hi lo => fld_mod v hi lo
  have hmerge : mergeWord h.row.fields old v = setFld (setFld old 23 16 (fld v 23 16)) 15 8 (fld v 15 8) := by
    rcases hk with rfl | rfl | rfl <;> cases hf <;> rfl
  rw [hmerge]
  refine ⟨?_, ?_⟩
  · exact (fld_setFld_same _ 15 8 _ (by decide) (by decide)).trans (hmod 15 8)
  · refine (fld_setFld_ne _ 15 8 _ 23 16 (by decide) (by decide) (.inl (by decide))).trans ?_
    exact (fld_setFld_same _ 23 16 _ (by decide) (by decide)).trans (hmod 23 16)

theorem legal_thresh {k : PageKind} {h : RegHit} (hk : k = .sensH ∨ k = .sensFe ∨ k = .sensTm) (hf : findReg k SENS.THRESH = some h) {v : Word}
    (hlo : 60 ≤ fld v 23 16) (hhi : fld v 23 16 ≤ 115) (hgap : fld v 23 16 < fld v 15 8) (hcrit : fld v 15 8 ≤ 120) :
    h.row.wide = false ∧ h.high = false ∧ hasKw h.flds = false ∧ wordLegal k SENS.THRESH h v = true := by
  have hflds : h.flds.all (fun f => f.legal v) = true := by
    rcases hk with rfl | rfl | rfl <;> cases hf <;> simp [RegHit.flds, FieldD.legal, hlo, hhi]
  have hrel : relLegal k SENS.THRESH v = true := by
    rcases hk with rfl | rfl | rfl <;> simp [relLegal, SENS.THRESH, oEVSEL, hgap, hcrit]
  refine ⟨?_, ?_, ?_, ?_⟩
  · rcases hk with rfl | rfl | rfl <;> cases hf <;> rfl
  · rcases hk with rfl | rfl | rfl <;> cases hf <;> rfl
  · rcases hk with rfl | rfl | rfl <;> cases hf <;> rfl
  · rw [wordLegal, hflds, hrel]
    rfl

/-- A die's thresholds, written by the SMBus port. -/
theorem State.smbWrite_die {s : State} {c : Fin 4} (d : Fin 2) {v : Word} (hr : Ready s c) (hreach : s.reach .smbus = true) (hup : s.relayUp c = true)
    (hlo : 60 ≤ fld v 23 16) (hhi : fld v 23 16 ≤ 115) (hgap : fld v 23 16 < fld v 15 8) (hcrit : fld v 15 8 ≤ 120) :
    ((s.pageWrite .smbus c (pgSens d.val) SENS.THRESH v).chan c).getF (pgSens d.val) SENS.THRESH_CRIT = fld v 15 8 ∧
      ((s.pageWrite .smbus c (pgSens d.val) SENS.THRESH v).chan c).getF (pgSens d.val) SENS.THRESH_WARN = fld v 23 16 := by
  obtain ⟨k, h, hpage, hkind, hf⟩ : ∃ k h, (pgSens d.val).kind = some k ∧ (k = .sensH ∨ k = .sensFe ∨ k = .sensTm) ∧ findReg k SENS.THRESH = some h := by
    fin_cases d
    · exact ⟨.sensFe, _, rfl, .inr (.inl rfl), rfl⟩
    · exact ⟨.sensTm, _, rfl, .inr (.inr rfl), rfl⟩
  have hhook : ∀ reach owner, hookOf reach owner (pgSens d.val) SENS.THRESH = plainHook := fun _ _ => by fin_cases d <;> rfl
  have hf0 : Req.smbus.func?.getD 0 = 0 := rfl
  obtain ⟨hw, hh, hkw, hj⟩ := legal_thresh hkind hf hlo hhi hgap hcrit
  obtain ⟨hcritNew, hwarnNew⟩ := merge_thresh hkind hf (v := v) (old := (((s.onPages c (fun ch => ch.tally (pgSens d.val) 3 (Req.smbus.attr ((s.chan c).partOf 0)))).chan c).get
    (pgSens d.val) SENS.THRESH))
  obtain ⟨hstep, hout⟩ := State.onPages_tally hr (p := pgSens d.val) 3 (Req.smbus.attr ((s.chan c).partOf 0))
  have hfatal : (s.onPages c (fun ch => ch.tally (pgSens d.val) 3 (Req.smbus.attr ((s.chan c).partOf 0)))).chState c ≠ 6 := by
    rw [hstep.chState]
    exact State.chState_ne_fatal hr.1
  have hwrite : s.pageWrite .smbus c (pgSens d.val) SENS.THRESH v =
      (s.onPages c (fun ch => ch.tally (pgSens d.val) 3 (Req.smbus.attr ((s.chan c).partOf 0)))).runChan c (plainHook (wordReq
        (s.onPages c (fun ch => ch.tally (pgSens d.val) 3 (Req.smbus.attr ((s.chan c).partOf 0)))) .smbus c (pgSens d.val) SENS.THRESH h v)) := by
    have hhas := State.hasChan_of_chLive hr.1
    have hpages := State.chPages_of_chLive hr.1
    rw [State.pageWrite, hhook, State.chanWrite]
    dsimp only [Req.keeper?]
    rw [if_neg (by simp [hreach, SENS.THRESH]), State.hostWrite, if_neg (by simp [hhas]), if_neg (by simp [hpages, hup])]
    simp only [hpage, hf, hf0]
    rw [if_neg (by simp [hkw]), if_neg (by simp [Req.isPf0, Req.func?]), if_neg (by simp [Req.isPf0, Req.func?]),
      State.applyWrite_word _ _ _ _ c _ hw hh hj, State.hookRun, if_neg (by decide), State.onPages_of_not_fatal _ _ _ hfatal]
  generalize s.onPages c (fun ch => ch.tally (pgSens d.val) 3 (Req.smbus.attr ((s.chan c).partOf 0))) = t at hstep hout hwrite hcritNew hwarnNew
  have hreg : ((s.pageWrite .smbus c (pgSens d.val) SENS.THRESH v).chan c).get (pgSens d.val) SENS.THRESH =
      mergeWord h.row.fields ((t.chan c).get (pgSens d.val) SENS.THRESH) v := by
    rw [hwrite, State.runChan_eq t c _ (by exact hout), State.chan_setChan_same]
    exact Chan.get_put_same _ _ _ _
  exact ⟨(congrArg (fun w : Word => fld w 15 8) hreg).trans hcritNew, (congrArg (fun w : Word => fld w 23 16) hreg).trans hwarnNew⟩

/-! The test port's instructions (R613). -/

theorem State.jtagRun_eq {s : State} {code : Nat} (f : State → State) (hready : s.jtagReady = true) (hcode : s.jtagCode code = code) :
    s.jtagRun code f = f (s.jtagIr code) := by
  rw [State.jtagRun, if_pos hready]
  dsimp only
  rw [hcode, if_pos rfl]

theorem State.jtagCode_fixed (s : State) {code : Nat} (h : code = 1 ∨ code = 3 ∨ code = 0x10 ∨ code = 0x11 ∨ code = 0x12) : s.jtagCode code = code := if_pos h

theorem State.jtagCode_scan {s : State} {code : Nat} (hfree : s.scanFree = true) (h : code = 2 ∨ code = 4 ∨ code = 5) : s.jtagCode code = code := by
  rw [State.jtagCode, if_neg (by omega), if_pos ⟨h, hfree⟩]

theorem State.jtagCode_access {s : State} (hopen : s.jtagOpen = true) : s.jtagCode 0x20 = 0x20 := by
  rw [State.jtagCode, if_neg (by decide), if_neg (by simp), if_pos ⟨.inl rfl, hopen⟩]

/-! Unlocking (R614). -/

theorem State.jtagRelock_jtagOpen (s : State) : s.jtagRelock.jtagOpen = false := by
  have hzero := Isl.getF_putF_same s.isl hpPwr PWRH.JTAG_STAT_UNLOCKED 0 le_rfl (by decide)
  rw [State.jtagOpen, State.jtagRelock, State.onIsl_isl, Isl.getB, hzero]
  rfl

theorem blockKey_jtagStat : BlockKey (hpPwr * 0x10000 + PWRH.JTAG_STAT) := blockKey_add (by decide) (by decide)

/-- A response that is good. -/
theorem State.jtagUnlock_shows (s : State) (nonce : Nat) : (s.jtagUnlock nonce).jtagOpen = true ∧ (s.jtagUnlock nonce).isl.jtagFails = 0 ∧
    (s.jtagUnlock nonce).isl.nonce = s.isl.nonce := by
  obtain ⟨i, hi⟩ : ∃ i, i = s.isl.putF hpPwr PWRH.JTAG_STAT_UNLOCKED 1 := ⟨_, rfl⟩
  obtain ⟨s1, hs1⟩ : ∃ s1 : State, s1 = { s with isl :=
    { i.putF hpPwr ⟨0x130, 7, 0⟩ (satAdd 8 (s.isl.getF hpPwr ⟨0x130, 7, 0⟩) 1) with jtagFails := 0 } } := ⟨_, rfl⟩
  have hstep : IslStep BlockKey s1 (s.jtagUnlock nonce) := by
    rw [hs1, hi]
    exact (IslStep.islRaise (fun _ h => h) _ hpPwr 10).trans (.islJournal _ hpPwr clsNone 5 nonce)
  have hopen : s1.isl.getF hpPwr PWRH.JTAG_STAT_UNLOCKED = 1 := by
    rw [hs1]
    refine (Isl.getF_putF_ne i hpPwr (f := ⟨0x130, 7, 0⟩) (g := PWRH.JTAG_STAT_UNLOCKED) _ rfl (by decide) (by decide) (.inl (by decide))).trans ?_
    rw [hi]
    exact Isl.getF_putF_same s.isl hpPwr PWRH.JTAG_STAT_UNLOCKED 1 le_rfl (by decide)
  refine ⟨?_, ?_, ?_⟩
  · rw [State.jtagOpen, hstep.isl.getB blockKey_jtagStat, Isl.getB, hopen]
    rfl
  · rw [hstep.field (·.jtagFails) (fun _ => rfl), hs1]
  · rw [hstep.field (·.nonce) (fun _ => rfl), hs1, hi]
    rfl

/-- A response that fails. -/
theorem State.jtagFail_shows {s : State} (hblocked : s.isl.getB hpPwr PWRH.JTAG_STAT_BLOCKED = false) :
    s.jtagFail.jtagOpen = s.jtagOpen ∧ s.jtagFail.isl.jtagFails = s.isl.jtagFails + 1 ∧ s.jtagFail.isl.nonce = s.isl.nonce ∧
      s.jtagFail.isl.getB hpPwr PWRH.JTAG_STAT_BLOCKED = decide (3 ≤ s.isl.jtagFails + 1) := by
  obtain ⟨s1, hs1, hfail⟩ : ∃ s1 : State, (s1 = if 3 ≤ s.isl.jtagFails + 1 then
      { s with isl := { s.isl.putF hpPwr PWRH.JTAG_STAT_BLOCKED 1 with jtagFails := s.isl.jtagFails + 1, jtagBlk := s.isl.ns } }
    else { s with isl := { s.isl with jtagFails := s.isl.jtagFails + 1 } }) ∧ s.jtagFail = s1.islJournal hpPwr clsContained 6 0 := ⟨_, rfl, rfl⟩
  have hstep : IslStep BlockKey s1 s.jtagFail := hfail ▸ .islJournal s1 _ _ _ _
  rw [State.jtagOpen, State.jtagOpen, hstep.isl.getB blockKey_jtagStat, hstep.isl.getB blockKey_jtagStat, hstep.field (·.jtagFails) (fun _ => rfl),
    hstep.field (·.nonce) (fun _ => rfl), hs1]
  split
  · next hmany =>
    refine ⟨?_, rfl, rfl, ?_⟩
    · exact congrArg (fun n => decide (n ≠ 0))
        (Isl.getF_putF_ne s.isl hpPwr (f := PWRH.JTAG_STAT_BLOCKED) (g := PWRH.JTAG_STAT_UNLOCKED) 1 rfl le_rfl (by decide) (.inl (by decide)))
    · rw [decide_eq_true hmany]
      exact congrArg (fun n => decide (n ≠ 0)) (Isl.getF_putF_same s.isl hpPwr PWRH.JTAG_STAT_BLOCKED 1 le_rfl (by decide))
  · next hfew =>
    rw [decide_eq_false hfew]
    exact ⟨rfl, rfl, rfl, hblocked⟩

/-- LOCK of JTAG_CTRL, written by PF0. -/
theorem State.jtagCtrl_jtagOpen {s : State} {v : Word} (hisl : IslReady s) (hv : bit v 0 = true) :
    (s.islWrite jtagCtrlHook (.func 0) hpPwr PWRH.JTAG_CTRL v).jtagOpen = false := by
  have hreach : s.reach (.func 0) = true := by simp [State.reach, hisl.1]
  have hreg : s.islReg hpPwr PWRH.JTAG_CTRL = some (Wit.hit .pwrH PWRH.JTAG_CTRL) := rfl
  rw [State.islWrite_runs jtagCtrlHook hisl hreach rfl nofun rfl rfl hreg rfl rfl rfl, jtagCtrlHook, if_pos hv]
  exact State.jtagRelock_jtagOpen _

/-- INT_ROUTE of the package's SENS page, written by the test port. -/
theorem State.jtagWrite_route {s : State} (v : Word) (hisl : IslReady s) (hreach : s.reach .jtag = true) :
    fld ((s.busWrite .jtag 0x30030 v).isl.get hpSens oROUTE) 17 16 = fld v 17 16 := by
  have hreg : s.islReg hpSens oROUTE = some (Wit.hit .sensH oROUTE) := rfl
  have hbus : s.busWrite .jtag 0x30030 v = s.islWrite (islHookOf hpSens oROUTE) .jtag hpSens oROUTE v := rfl
  have hhook : islHookOf hpSens oROUTE = plainIsl := rfl
  rw [hbus, State.islWrite_runs _ hisl hreach rfl nofun rfl rfl hreg rfl rfl rfl, hhook, plainIsl, State.onIsl_isl, Isl.get_put_same]
  generalize (s.islTally hpSens 3 (Req.jtag.attr none)).isl.get hpSens oROUTE = old
  refine (fld_setFld_ne _ 10 0 _ 17 16 (by decide) (by decide) (.inl (by decide))).trans ?_
  exact (fld_setFld_same _ 17 16 _ (by decide) (by decide)).trans (fld_mod v 17 16)

end Sys2Proof.Machine
end

section
set_option Elab.async false
namespace Sys2Proof.Proofs

open Sys2Proof Sys2Proof.Machine Sys2Proof.Tests

section
variable {s : State}

theorem reach_smbus (hpowered : s.isl.powered = true) (hdead : s.isl.dead = false) : s.reach .smbus = true := by
  simp [State.reach, hpowered, hdead]

theorem completes_smbRead (hreach : s.reach .smbus = true) : Completes .smbRead s (fun t => t.isl.smbAddr = (s.isl.smbAddr + 4) % 2 ^ 32 ∧
    t.out.head? = some (.read s.isl.smbAddr (s.busRead .smbus s.isl.smbAddr).1)) := by
  have hstep : IslStep (fun _ => False) s (s.busRead .smbus s.isl.smbAddr).2 := .readAt s chanView .smbus rfl _
  refine ⟨_, congrArg Host.Outcome.next (if_pos hreach), ?_, rfl⟩
  exact congrArg (fun n => (n + 4) % 2 ^ 32) (hstep.field (·.smbAddr) (fun _ => rfl))

theorem completes_smbWrite {p off : Nat} {k : PageKind} {h : RegHit} {v : Word} (hreach : s.reach .smbus = true)
    (hplace : (p = hpPwr ∧ off = 0x104) ∨ (p = hpSens ∧ off = 0x164)) (hk : hpKind p = some k) (hreg : s.islReg p off = some h)
    (haddr : s.isl.smbAddr = p * 0x10000 + off) (hj : wordLegal k off h v = true) : Completes (.smbWrite v) s (fun t =>
      t = islHookOf p off p off ((s.islTally p 3 (Req.smbus.attr none)).isl.get p off) v
        (mergeWord h.row.fields ((s.islTally p 3 (Req.smbus.attr none)).isl.get p off) v) (s.islTally p 3 (Req.smbus.attr none))) := by
  have hword : h.row.wide = false ∧ h.high = false := by
    rcases hplace with ⟨rfl, rfl⟩ | ⟨rfl, rfl⟩ <;> cases hreg <;> exact ⟨rfl, rfl⟩
  have hbus : s.busWrite .smbus (p * 0x10000 + off) v = s.islWrite (islHookOf p off) .smbus p off v := by
    rcases hplace with ⟨rfl, rfl⟩ | ⟨rfl, rfl⟩ <;> rfl
  refine ⟨_, congrArg Host.Outcome.next (if_pos hreach), ?_⟩
  rw [haddr, hbus]
  exact State.islWrite_smbus (islHookOf p off) hreach hplace hk hreg hword.1 hword.2 hj

theorem completes_smbThresh {v : Word} (hreach : s.reach .smbus = true) (haddr : s.isl.smbAddr = 0x30164) (hlo : 60 ≤ fld v 23 16)
    (hhi : fld v 23 16 ≤ 115) (hgap : fld v 23 16 < fld v 15 8) (hcrit : fld v 15 8 ≤ 120) :
    Completes (.smbWrite v) s (fun t => t.isl.getF hpSens SENS.THRESH_CRIT = fld v 15 8 ∧ t.isl.getF hpSens SENS.THRESH_WARN = fld v 23 16) := by
  have hf : findReg .sensH SENS.THRESH = some (Wit.hit .sensH SENS.THRESH) := rfl
  obtain ⟨-, -, -, hj⟩ := legal_thresh (.inl rfl) hf hlo hhi hgap hcrit
  obtain ⟨t, hexec, ht⟩ := completes_smbWrite (p := hpSens) (off := 0x164) hreach (.inr ⟨rfl, rfl⟩) rfl hf haddr hj
  have hhook : islHookOf hpSens 0x164 = plainIsl := rfl
  rw [hhook, plainIsl] at ht
  obtain ⟨hcritNew, hwarnNew⟩ := merge_thresh (.inl rfl) hf ((s.islTally hpSens 3 (Req.smbus.attr none)).isl.get hpSens 0x164) v
  refine ⟨t, hexec, ?_, ?_⟩
  · rw [ht, Isl.getF, State.onIsl_isl, Isl.get_put_same]
    exact hcritNew
  · rw [ht, Isl.getF, State.onIsl_isl, Isl.get_put_same]
    exact hwarnNew

/-- Instructions that need no unlocking. -/
theorem completes_jtag {ins : Instr} {code : Nat} {f : State → State} {P : State → Prop} (hexec : exec ins s = .next (s.jtagRun code f))
    (hready : s.jtagReady = true) (hcode : s.jtagCode code = code) (hP : P (f (s.jtagIr code))) : Completes ins s P :=
  ⟨_, hexec.trans (congrArg Host.Outcome.next (State.jtagRun_eq f hready hcode)), hP⟩

theorem completes_unlockResp (hready : s.jtagReady = true) (hperst : s.isl.perst = false) (hdis : s.isl.getB hpPwr PWRH.JTAG_CTRL_UNLOCK_DIS = false)
    (hblocked : s.isl.getB hpPwr PWRH.JTAG_STAT_BLOCKED = false) :
    (∀ n, s.isl.nonce = some n → Completes (.unlockResp true) s (fun t => t.jtagOpen = true ∧ t.isl.jtagFails = 0 ∧ t.isl.nonce = none)) ∧
      Completes (.unlockResp false) s (fun t => t.jtagOpen = s.jtagOpen ∧ t.isl.jtagFails = s.isl.jtagFails + 1 ∧ t.isl.nonce = none ∧
        t.isl.getB hpPwr PWRH.JTAG_STAT_BLOCKED = decide (3 ≤ s.isl.jtagFails + 1)) := by
  obtain ⟨t1, ht1⟩ : ∃ t1, t1 = (s.jtagIr 0x11).onIsl (fun i => { i with nonce := none }) := ⟨_, rfl⟩
  have hrun : ∀ ok, exec (.unlockResp ok) s = .next (match s.isl.nonce, ok with
      | some v, true => t1.jtagUnlock v
      | _, _ => t1.jtagFail) := fun ok => by
    rw [ht1]
    refine congrArg Host.Outcome.next ((State.jtagRun_eq _ hready (s.jtagCode_fixed (by decide))).trans ?_)
    exact (if_neg (by simp [State.jtagIr, State.onIsl, hperst])).trans ((if_neg (fun h => by
      have hon : s.isl.getB hpPwr PWRH.JTAG_CTRL_UNLOCK_DIS = true := h
      rw [hdis] at hon
      cases hon)).trans (if_neg (fun h => by
        have hon : s.isl.getB hpPwr PWRH.JTAG_STAT_BLOCKED = true := h
        rw [hblocked] at hon
        cases hon)))
  refine ⟨fun n hn => ?_, ?_⟩
  · obtain ⟨hopen, hfails, hnonce⟩ := t1.jtagUnlock_shows n
    refine ⟨_, hrun true, ?_⟩
    rw [hn]
    exact ⟨hopen, hfails, by rw [hnonce, ht1]; rfl⟩
  · have hblocked1 : t1.isl.getB hpPwr PWRH.JTAG_STAT_BLOCKED = false := by
      rw [ht1]
      exact hblocked
    obtain ⟨hopen, hfails, hnonce, hblk⟩ := State.jtagFail_shows hblocked1
    have hfail : exec (.unlockResp false) s = .next t1.jtagFail := by
      rw [hrun false]
      cases s.isl.nonce <;> rfl
    refine ⟨_, hfail, hopen.trans ?_, hfails.trans ?_, hnonce.trans ?_, hblk.trans ?_⟩
    all_goals
      rw [ht1]
      rfl

/-- Accesses of the unlocked test port. -/
theorem completes_regAccess (hready : s.jtagReady = true) (hopen : s.jtagOpen = true) (addr : Nat) (v : Word) :
    Completes (.regAccess false addr v) s (fun t =>
      t.isl.jtagIr = 0x20 ∧ t.isl.jtagData = 2 ^ 62 + addr % 2 ^ 30 / 4 * 4 * 2 ^ 32 + (s.busRead .jtag (addr % 2 ^ 30 / 4 * 4)).1) ∧
    Completes (.regAccess true addr v) s (fun t =>
      t.isl.jtagIr = 0x20 ∧ t.isl.jtagData = 2 ^ 63 + 2 ^ 62 + addr % 2 ^ 30 / 4 * 4 * 2 ^ 32 + v.toNat ∧
      ∀ c, t.chan c = (s.busWrite .jtag (addr % 2 ^ 30 / 4 * 4) v).chan c) := by
  obtain ⟨a, ha⟩ : ∃ a, addr % 2 ^ 30 / 4 * 4 = a := ⟨_, rfl⟩
  obtain ⟨t1, ht1⟩ : ∃ t1, t1 = s.dress 0x20 (.wire 0x20 [s.isl.jtagData] [] :: s.out) := ⟨_, rfl⟩
  have halike : Alike 0x20 s t1 := ⟨_, ht1⟩
  have hreach : t1.reach .jtag = s.reach .jtag := ht1 ▸ rfl
  refine ⟨completes_jtag rfl hready (State.jtagCode_access hopen) ?_, completes_jtag rfl hready (State.jtagCode_access hopen) ?_⟩
  · dsimp only
    rw [ha, show (s.jtagIr 0x20).emit (.wire 0x20 [(s.jtagIr 0x20).isl.jtagData] []) = t1 from ht1 ▸ rfl, if_neg Bool.false_ne_true,
      halike.busRead_jtag hreach]
    have hstep : IslStep (fun _ => False) t1 (t1.busRead .jtag a).2 := .readAt t1 chanView .jtag rfl a
    refine ⟨(hstep.field (·.jtagIr) (fun _ => rfl)).trans ?_, rfl⟩
    rw [ht1]
    rfl
  · dsimp only
    rw [ha, show (s.jtagIr 0x20).emit (.wire 0x20 [(s.jtagIr 0x20).isl.jtagData] []) = t1 from ht1 ▸ rfl, if_pos (rfl : true = true)]
    obtain ⟨o, ho⟩ := halike.busWrite_jtag hreach a v
    rw [ho]
    exact ⟨rfl, rfl, fun _ => rfl⟩

end

/-- Settles O20: what both sideband ports select, shift, read, write and unlock. -/
theorem sidebandPorts : Obligations.SidebandPorts := by
  refine ⟨fun s hpowered hdead => ?_, fun s hready => ?_, fun s hready => ?_, fun s hpowered hdead => ?_,
    fun s addr v hready hopen _ => completes_regAccess hready hopen addr v⟩
  · have hreach := reach_smbus hpowered hdead
    refine ⟨fun addr => ⟨_, congrArg Host.Outcome.next (if_pos hreach), rfl⟩, fun haddr => ?_,
      fun haddr v hlo hhi hgap hcrit => completes_smbThresh hreach haddr hlo hhi hgap hcrit⟩
    obtain ⟨t, hexec, hnext, hread⟩ := completes_smbRead hreach
    rw [haddr] at hnext hread
    rw [s.busRead_thresh (.inl rfl) hreach (.inr rfl)] at hread
    exact ⟨t, hexec, hnext, hread⟩
  · refine ⟨fun a b => completes_jtag rfl hready (s.jtagCode_fixed (by decide)) ⟨rfl, rfl, rfl⟩,
      completes_jtag rfl hready (s.jtagCode_fixed (by decide)) ⟨rfl, rfl⟩,
      fun code hcode => ⟨_, congrArg Host.Outcome.next (if_pos ⟨hready, hcode⟩), rfl, rfl⟩, fun hfree => ⟨fun b => ?_, ?_, ?_⟩⟩
    · exact completes_jtag rfl hready (State.jtagCode_scan hfree (by decide)) ⟨rfl, rfl, rfl⟩
    · exact completes_jtag rfl hready (State.jtagCode_scan hfree (by decide)) ⟨rfl, rfl⟩
    · exact completes_jtag rfl hready (State.jtagCode_scan hfree (by decide)) ⟨rfl, rfl⟩
  · have halive : s.isl.dead = false := by
      simp only [State.jtagReady, Bool.and_eq_true, Bool.not_eq_true'] at hready
      exact hready.2
    refine ⟨completes_jtag rfl hready (s.jtagCode_fixed (by decide)) ⟨rfl, rfl⟩,
      fun hperst hdis hblocked => completes_unlockResp hready hperst hdis hblocked,
      completes_jtag rfl hready (s.jtagCode_fixed (by decide)) (State.jtagRelock_jtagOpen _), fun hblocked => ?_,
      fun hperst v hv => ⟨_, rfl, State.jtagCtrl_jtagOpen ⟨halive, hperst⟩ hv⟩, fun hopen hperst => ?_⟩
    · refine ⟨_, congrArg Host.Outcome.next (if_pos ⟨hready, hblocked⟩), ?_, rfl⟩
      exact congrArg (fun n => decide (n ≠ 0)) (Isl.getF_putF_same s.isl hpPwr PWRH.JTAG_STAT_BLOCKED 0 le_rfl (by decide))
    · have hreach : s.reach .jtag = true := by
        simp only [State.jtagReady, Bool.and_eq_true] at hready
        simp only [State.reach, Bool.and_eq_true]
        exact ⟨hready, hopen⟩
      refine ⟨fun v => ?_, fun v hv => ?_⟩
      · obtain ⟨t, hexec, -, hdata⟩ := (completes_regAccess hready hopen 0x30164 v).1
        refine ⟨t, hexec, hdata.trans ?_⟩
        rw [show 0x30164 % 2 ^ 30 / 4 * 4 = 0x30164 from rfl, s.busRead_thresh (.inr rfl) hreach (.inl hperst)]
      · refine completes_jtag rfl hready (State.jtagCode_access hopen) ?_
        refine (State.jtagWrite_route (s := (s.jtagIr 0x20).emit (.wire 0x20 [s.isl.jtagData] [])) v ⟨halive, hperst⟩ hreach).trans hv
  · have hreach := reach_smbus hpowered hdead
    refine ⟨completes_smbRead hreach, fun p off k h v hplace hk hreg haddr hj => completes_smbWrite hreach hplace hk hreg haddr hj,
      fun c d v hr hup haddr hlo hhi hgap hcrit => ?_⟩
    have hkind : ∃ k, (pgSens d.val).kind = some k := by
      fin_cases d <;> exact ⟨_, rfl⟩
    obtain ⟨k, hk⟩ := hkind
    refine ⟨_, congrArg Host.Outcome.next (if_pos hreach), ?_⟩
    rw [haddr, s.busWrite_addrOf .smbus c v hk (by decide)]
    exact State.smbWrite_die d hr hreach hup hlo hhi hgap hcrit

end Sys2Proof.Proofs
end

/-! What the steps of ports, FlexE clients and FlexE groups leave of FlexE and the slot switch (R209, R216, R217, R240–R244, R247). -/

section
set_option Elab.async false
namespace Sys2Proof.Machine

/-- PAGE_CTRL of the pages that a port may name as its LINE pages, and PAGE_STAT of those that are none. -/
def CtrlKey (key : Nat) : Prop := 0x30 ≤ key / 65536 ∧ key / 65536 < 0x40 ∧ (key % 65536 = oCTRL ∨ (key % 65536 = oSTAT ∧ 0x38 ≤ key / 65536))

/-- A register of the blocks of FLEX and SLOT, or one of those that control a page. -/
def FlexKey (key : Nat) : Prop := ((key / 65536 = 0x38 ∨ key / 65536 = 0x39) ∧ 0x100 ≤ key % 65536) ∨ CtrlKey key

/-- Only the pages in soft reset. -/
abbrev heldStrip (ch : Chan) : Chan := { ({} : Chan) with inReset := ch.inReset }

/-- Only the pages in soft reset and FlexE's own work, without the defects seen for performance monitoring. -/
abbrev flexStrip (ch : Chan) : Chan := { ({} : Chan) with flex := { ch.flex with defSeen := [] }, inReset := ch.inReset }

/-- Nothing of FlexE's work has changed, nor a register that `K` names. -/
abbrev FlexAside (K : Nat → Prop) : Chan → Chan → Prop := Spares K flexStrip

/-- The registers that `K` names and the pages in soft reset have stayed, and no fatal cause has been put out. -/
abbrev Shows (K : Nat → Prop) : Chan → Chan → Prop := Spares K heldStrip

theorem FlexAside.shows {K : Nat → Prop} {a b : Chan} (h : FlexAside K a b) : Shows K a b := h.strips heldStrip (fun _ => rfl)

theorem FlexAside.flex {K : Nat → Prop} {a b : Chan} (h : FlexAside K a b) : { b.flex with defSeen := [] } = { a.flex with defSeen := [] } := by
  have hwork := congrArg (fun x : Chan => x.flex) h.work
  exact hwork

theorem pgFlex_key (off : Nat) : pgFlex.key off = 0x380000 + off := by
  rw [Pg.key]
  norm_num

theorem pgSlot_key (off : Nat) : pgSlot.key off = 0x390000 + off := by
  rw [Pg.key]
  norm_num

namespace FlexAside

variable {K : Nat → Prop} (hK : ∀ key, K key → FlexKey key)

/-- A field of the channel that is none of FlexE's. -/
theorem of_field {a b : Chan} (hflex : { b.flex with defSeen := [] } = { a.flex with defSeen := [] }) (hreset : b.inReset = a.inReset)
    (hregs : b.regs = a.regs) (houts : b.outQ = a.outQ) : FlexAside K a b := by
  have hwork := congrArg₂ (fun x y => ({ ({} : Chan) with flex := x, inReset := y } : Chan)) hflex hreset
  exact .of_work hwork hregs houts

theorem markDef (ch : Chan) (e : Nat) : FlexAside K ch (ch.markDef e) := of_field rfl rfl rfl rfl
theorem putPw (ch : Chan) (p : Nat) (w : PortWork) : FlexAside K ch (ch.putPw p w) := of_field rfl rfl rfl rfl
theorem onCosy (ch : Chan) (f : CosyW → CosyW) : FlexAside K ch (ch.onCosy f) := of_field rfl rfl rfl rfl

theorem putRegion (ch : Chan) (k : Nat) (r : Region) : FlexAside K ch (ch.putRegion k r) := by
  unfold Chan.putRegion
  exact .ite (fun _ => of_field rfl rfl rfl rfl) (fun _ => of_field rfl rfl rfl rfl)

theorem onCtl (ch : Chan) (f : KCtl → KCtl) : FlexAside K ch (ch.onCtl f) := by
  unfold Chan.onCtl
  split
  · exact putRegion ch _ _
  · exact .refl ch

theorem ptpPortTo (ch : Chan) (q st : Nat) : FlexAside K ch (ch.ptpPortTo q st) := by
  unfold Chan.ptpPortTo
  split
  · exact .refl ch
  · exact .ite (fun _ => putRegion ch _ _) (fun _ => .refl ch)

include hK

theorem not_tm (key : Nat) (h : K key) : ¬ TmKey key := by
  have hform := hK key h
  simp only [TmKey, InHeader, Pg.key, CADDY.DOUBLE_FREE, CADDY.FOREIGN_FREE]
  simp only [FlexKey, CtrlKey, oCTRL, oSTAT] at hform
  norm_num
  omega

theorem not_journal (key : Nat) (h : K key) : key / 65536 ≠ pgJrnl.key 0 / 65536 := fun e => not_tm hK key h (.inl e)

theorem not_counts (q : Pg) (key : Nat) (h : K key) (off : Nat) (hoff : CountReg off) : key ≠ q.key off := by
  have hform := hK key h
  simp only [CountReg, oCAUSE, oFIRST, oOVF] at hoff
  rw [q.key_header (by omega), Pg.key]
  simp only [FlexKey, CtrlKey, oCTRL, oSTAT] at hform
  norm_num
  omega

theorem not_error (q : Pg) (off : Nat) (hlo : 0x40 ≤ off) (hhi : off < 0x60) (h : K (q.key off)) : False := by
  have hform := hK _ h
  rw [q.key_header (by omega), Pg.key] at hform
  simp only [FlexKey, CtrlKey, oCTRL, oSTAT] at hform
  norm_num at hform
  omega

/-- What only the traffic manager does. -/
theorem of_tm {own : Nat} {a b : Chan} (h : TmOnly own a b) : FlexAside K a b := (h.mono (not_tm hK)).strips flexStrip (fun _ => rfl)

theorem raise (ch : Chan) (q : Pg) {b : Nat} (h0 : nbit (2 ^ b) 0 = false) (h2 : nbit (2 ^ b) 2 = false) : FlexAside K ch (ch.raise q b) :=
  .of_counts (.raiseMask q ch h0 h2) (not_counts hK q)

theorem tally (ch : Chan) (q : Pg) (code : Nat) (at_ : Attr) (n : Nat) : FlexAside K ch (ch.tally q code at_ n) :=
  .of_counts (.tally q ch code at_ n) (not_counts hK q)

theorem journal (ch : Chan) (q : Pg) (cls ev detail : Nat) : FlexAside K ch (ch.journal q cls ev detail) :=
  Spares.journal (not_journal hK) ch q cls ev detail

theorem capture (ch : Chan) (q : Pg) (cls cause addr syn det : Nat) : FlexAside K ch (ch.capture q cls cause addr syn det) :=
  Spares.captureErrors (not_error hK q) ch cls cause addr syn det

/-- A register of a page that no port names. -/
theorem put_page (ch : Chan) (q : Pg) {off : Nat} (v : Word) (hoff : off < 65536) (hpage : q.key 0 / 65536 < 0x30 ∨ 0x40 ≤ q.key 0 / 65536) :
    FlexAside K ch (ch.put q off v) := by
  refine .put ch q off v (fun hk => ?_)
  have hform := hK _ hk
  simp only [FlexKey, CtrlKey] at hform
  rw [q.key_div hoff] at hform
  omega

/-- A register of a port's block. -/
theorem put_port (ch : Chan) {q off : Nat} (hq : q < 64) (v : Word) (hlo : 0x100 ≤ off) (hhi : off < 65536) : FlexAside K ch (ch.put (portPg q) off v) := by
  obtain ⟨i, hi, hlt⟩ := portPg_page q
  have hi8 := hlt hq
  refine .put ch _ off v (fun hk => ?_)
  have hform := hK _ hk
  rw [hi, pgLine_key (by omega)] at hform
  simp only [FlexKey, CtrlKey, oCTRL, oSTAT] at hform
  omega

theorem putAdm (ch : Chan) {off : Nat} (v : Word) (h : off < 65536) : FlexAside K ch (ch.put pgAdm off v) := put_page hK ch pgAdm v h (by decide)

theorem putStat (ch : Chan) {q : Nat} (hq : q < 64) (f : Nat → Fld) (v : Nat) (hf : (f (portBlk q)).off = LINE.PORT_STAT (portBlk q)) :
    FlexAside K ch (ch.putPortF q f v) := by
  have hblk := portBlk_lt q
  exact put_port hK ch hq _ (by rw [hf, LINE.PORT_STAT]; omega) (by rw [hf, LINE.PORT_STAT]; omega)

theorem portInc (ch : Chan) {q : Nat} (hq : q < 64) (f : Nat → Nat) (n : Nat) (hlo : 0x100 ≤ f (portBlk q)) (hhi : f (portBlk q) + 4 < 65536) :
    FlexAside K ch (ch.portInc q f n) :=
  (put_port hK ch hq _ hlo (by omega)).trans (put_port hK _ hq _ (by omega) hhi)

/-! A port goes oper-up or oper-down (R216, R217). -/

theorem srcLost (ch : Chan) (code : Nat) : FlexAside K ch (ch.srcLost code) := by
  unfold Chan.srcLost
  dsimp only
  refine .ite (fun _ => .refl ch) (fun _ => ?_)
  exact (((((put_page hK ch pgCosy (off := COSY.SRC_STAT) _ (by decide) (by decide)).trans (onCosy _ _)).trans (onCtl _ _)).trans
    (capture hK _ _ _ _ _ _ _)).trans (raise hK _ _ rfl rfl)).trans (journal hK _ _ _ _ _)

theorem recDown (ch : Chan) (code : Nat) (port : Fld) (q : Nat) : FlexAside K ch (ch.recDown code port q) := by
  unfold Chan.recDown
  exact .ite (fun _ => (onCtl ch _).trans (srcLost hK _ code)) (fun _ => .refl ch)

theorem discardWhere (ch : Chan) (g : Nat → Bool) (f : QEnt → Bool) : FlexAside K ch (ch.discardWhere g f).1 := by
  unfold Chan.discardWhere
  refine List.foldlRecOn (motive := fun r : Chan × Nat => FlexAside K ch r.1) _ _ (.refl ch) (fun r hr q _ => hr.trans ?_)
  have hfree : ∀ (c : Chan) (l : List QEnt), TmOnly 0 c (c.each l (fun c e => c.hwFree e.handle)) := fun c l =>
    Spares.each (f := fun c (e : QEnt) => c.hwFree e.handle) (fun c e => TmOnly.hwFree c e.handle) l c
  exact of_tm hK ((TmOnly.takeOut r.1 q f).trans (hfree _ _))

theorem holdUp (ch : Chan) {q : Nat} (hq : q < 64) : FlexAside K ch (ch.holdUp q) := by
  unfold Chan.holdUp
  exact .ite (fun _ => putPw ch _ _) (fun _ => ((putPw ch _ _).trans (putAdm hK _ _ (by simp only; omega))).trans (journal hK _ _ _ _ _))

theorem holdDown (ch : Chan) {q : Nat} (hq : q < 64) : FlexAside K ch (ch.holdDown q) := by
  have hstat : ∀ (c : Chan) (v : Nat), FlexAside K c (c.putF pgAdm (ADM.HOLD_STAT_STATE q) v) := fun c v => putAdm hK c _ (by simp only; omega)
  have hdiscard : ∀ c : Chan, FlexAside K c (c.holdDiscard q) := fun c =>
    ((((hstat c 2).trans (discardWhere hK _ _ _)).trans (putAdm hK _ _ (by simp only [ADM.PORT_DOWN_DISC]; omega))).trans
      (raise hK _ _ rfl rfl)).trans (journal hK _ _ _ _ _)
  unfold Chan.holdDown
  dsimp only
  exact .ite (fun _ => (putPw ch _ _).trans (hdiscard _))
    (fun _ => (((putPw ch _ _).trans (hstat _ 1)).trans (raise hK _ _ rfl rfl)).trans (journal hK _ _ _ _ _))

theorem verifyStart (ch : Chan) {q : Nat} (hq : q < 64) : FlexAside K ch (ch.verifyStart q) := putStat hK ch hq LINE.PORT_STAT_VERIFY _ rfl

theorem portTimer (ch : Chan) {q : Nat} (hq : q < 64) (t : Nat) : FlexAside K ch (ch.portTimer q t) :=
  (putPw ch _ _).trans (putStat hK _ hq LINE.PORT_STAT_HOLDING _ rfl)

theorem operUp (ch : Chan) {q : Nat} (hq : q < 64) : FlexAside K ch (ch.operUp q) := by
  have hpfc : ∀ (c : Chan) (l : List Nat) (n : Nat → Nat), FlexAside K c (c.each l (fun c t => c.sendPfc q t (n t))) := fun c l n =>
    .each (f := fun c t => c.sendPfc q t (n t)) (fun c t => of_tm hK (TmOnly.sendPfc (own := 0) c hq t (n t))) l c
  have hlog := fun (c : Chan) (d : Nat) => ((raise hK c (portPg q) (b := 8) rfl rfl).trans (journal hK _ (portPg q) clsNone 1 d)).trans (holdUp hK _ hq)
  exact ((((putStat hK ch hq LINE.PORT_STAT_OPER 1 rfl).trans (portTimer hK _ hq 0)).trans (hlog _ _)).trans (verifyStart hK _ hq)).trans
    (ptpPortTo _ q 4) |>.trans (hpfc _ _ _)

theorem operDown (ch : Chan) {q : Nat} (hq : q < 64) (cause : Nat) : FlexAside K ch (ch.operDown q cause) := by
  have hblk := portBlk_lt q
  have hstat : ∀ c : Chan, FlexAside K c ((c.putPortF q LINE.PORT_STAT_HOLDING 0).putPortF q LINE.PORT_STAT_RX_PAUSED 0) := fun c =>
    (putStat hK c hq LINE.PORT_STAT_HOLDING 0 rfl).trans (putStat hK _ hq LINE.PORT_STAT_RX_PAUSED 0 rfl)
  have hstart : ∀ w, FlexAside K ch ((ch.putPortF q LINE.PORT_STAT_OPER 0).putPw q w) := fun w =>
    (putStat hK ch hq LINE.PORT_STAT_OPER 0 rfl).trans (putPw _ _ _)
  have hlog := fun (c : Chan) (n cls d : Nat) => (((portInc hK c hq LINE.TX_DOWN_DROP n (by simp only [LINE.TX_DOWN_DROP]; omega) (by simp only [LINE.TX_DOWN_DROP]; omega)).trans
    (raise hK _ (portPg q) (b := 9) rfl rfl)).trans (journal hK _ (portPg q) cls 2 d)).trans (holdDown hK _ hq)
  have hrec := fun (c : Chan) (st : Nat) => ((ptpPortTo (K := K) c q st).trans (recDown hK _ 0x10 (COSY.SRC_CFG_REC0_PORT) q)).trans
    (recDown hK _ 0x11 (COSY.SRC_CFG_REC1_PORT) q)
  have hall := ((((hstart _).trans (hstat (ch.downed q))).trans (hlog _ ((ch.pw q).ctl.length + (ch.pw q).mac.length)
    (if cause = 4 then clsNone else clsDegraded) (q + cause * 2 ^ 8))).trans (verifyStart hK _ hq)).trans
    (hrec _ (if ch.portB q LINE.PORT_CTRL_EN then 2 else 3))
  exact .ite (fun _ => hall.trans (markDef _ q)) (fun _ => hall)

/-- A port settles (R209, R212). -/
theorem portSettle (ch : Chan) {q : Nat} (hq : q < 64) (cause : Nat) : FlexAside K ch (ch.portSettle q cause) := by
  have hblk := portBlk_lt q
  have hdown : ∀ (c : Chan) (n : Nat), FlexAside K c (c.operDown q n) := fun c n => operDown hK c hq n
  have hup : ∀ c : Chan, FlexAside K c (c.operUp q) := fun c => operUp hK c hq
  have htimer : ∀ (c : Chan) (t : Nat), FlexAside K c (c.portTimer q t) := fun c t => portTimer hK c hq t
  have hput := putStat hK ch hq LINE.PORT_STAT_STATE (ch.portState q) rfl
  have hcnt : ∀ c : Chan, FlexAside K c (c.portInc q LINE.LINK_DOWN_CNT) := fun c =>
    portInc hK c hq LINE.LINK_DOWN_CNT 1 (by simp only [LINE.LINK_DOWN_CNT]; omega) (by simp only [LINE.LINK_DOWN_CNT]; omega)
  have hstart : FlexAside K ch (if ch.portF q LINE.PORT_STAT_STATE = 3 ∧ ch.portState q ≠ 3 then
      (ch.putPortF q LINE.PORT_STAT_STATE (ch.portState q)).portInc q LINE.LINK_DOWN_CNT else ch.putPortF q LINE.PORT_STAT_STATE (ch.portState q)) :=
    .ite (fun _ => hput.trans (hcnt _)) (fun _ => hput)
  unfold Chan.portSettle
  dsimp only
  exact .ite (fun _ => .ite (fun _ => hstart.trans (hdown _ _)) (fun _ => .ite (fun _ => hstart.trans (hdown _ _)) (fun _ => .ite (fun _ => hstart.trans (hdown _ _))
      (fun _ => .ite (fun _ => .ite (fun _ => hstart.trans (htimer _ _)) (fun _ => hstart)) (fun _ => .ite (fun _ => hstart) (fun _ =>
        .ite (fun _ => hstart.trans (hdown _ _)) (fun _ => (hstart.trans (putPw _ _ _)).trans (htimer _ _))))))))
    (fun _ => .ite (fun _ => .ite (fun _ => hstart) (fun _ => hstart.trans (htimer _ _))) (fun _ => .ite (fun _ => hstart.trans (htimer _ _))
      (fun _ => .ite (fun _ => hstart.trans (hup _)) (fun _ => hstart))))

/-! Clients and groups (R240, R241, R244). -/

/-- A client that settles leaves CLIENT_STAT of the others. -/
theorem clientSettle (ch : Chan) {n : Nat} (h : ¬ K (pgFlex.key (FLEX.CLIENT_STAT n))) : FlexAside K ch (ch.clientSettle n) := by
  have hstat : ∀ (u mm lf : Bool) (slots : Nat), FlexAside K ch ((((ch.putB pgFlex (FLEX.CLIENT_STAT_UP n) u).putB pgFlex
      (FLEX.CLIENT_STAT_LABEL_MM n) mm).putB pgFlex (FLEX.CLIENT_STAT_RX_LF n) lf).putF pgFlex (FLEX.CLIENT_STAT_SLOTS n) slots) := fun u mm lf slots =>
    (((Spares.put ch _ _ _ h).trans (.put _ _ _ _ h)).trans (.put _ _ _ _ h)).trans (.put _ _ _ _ h)
  have hmark : ∀ (c : Chan) (q : Bool), FlexAside K c (if q then c.markDef (40 + n) else c) := fun c q => .ite (fun _ => markDef c _) (fun _ => .refl c)
  unfold Chan.clientSettle
  dsimp only
  exact .ite (fun _ => ((hstat _ _ _ _).trans (hmark _ _)).trans (portSettle hK _ (Nat.mod_lt _ (by norm_num)) _))
    (fun _ => (hstat _ _ _ _).trans (hmark _ _))

theorem clientsSettle (ch : Chan) (g : Nat) (h : ∀ n < 128, ¬ K (pgFlex.key (FLEX.CLIENT_STAT n))) : FlexAside K ch (ch.clientsSettle g) :=
  List.foldlRecOn (motive := fun d => FlexAside K ch d) _ Chan.clientSettle (.refl ch)
    (fun d hd _ hn => hd.trans (clientSettle hK d (h _ (mem_allBelow_lt hn))))

/-- The end of a test of a FlexE client. -/
theorem testEnd (ch : Chan) (k st : Nat) : FlexAside K ch (ch.testEnd k st) := by
  have hreturn : ∀ (c : Chan) (d i : Nat), FlexAside K c (c.brReturn d i) := fun c d i => by
    unfold Chan.brReturn
    exact .ite (fun _ => .refl c) (fun _ => of_field rfl rfl rfl rfl)
  have htest : ∀ x, FlexAside K ch (ch.putTest k x) := fun x => of_field rfl rfl rfl rfl
  unfold Chan.testEnd
  dsimp only
  exact (((htest _).trans (.ite (fun _ => hreturn _ _ _) (fun _ => .refl _))).trans (raise hK _ _ rfl rfl)).trans (journal hK _ _ _ _ _)

theorem clientTests (ch : Chan) (g : Nat) (slots : Nat → Nat) : FlexAside K ch (ch.clientTests g slots) :=
  .each (f := fun c k => c.testEnd k 4) (fun c k => testEnd hK c k 4) _ ch

end FlexAside

namespace Shows

variable {K : Nat → Prop} (hK : ∀ key, K key → FlexKey key) {g : Nat} (hstat : ¬ K (pgFlex.key (FLEX.GRP_STAT g)))

theorem putGrp (ch : Chan) (g : Nat) (x : FlexGrp) : Shows K ch (ch.putGrp g x) := .of_work rfl rfl rfl

include hK

theorem log (ch : Chan) {b : Nat} (cls ev d : Nat) (h0 : nbit (2 ^ b) 0 = false) (h2 : nbit (2 ^ b) 2 = false) :
    Shows K ch ((ch.raise pgFlex b).journal pgFlex cls ev d) :=
  FlexAside.shows ((FlexAside.raise hK ch pgFlex h0 h2).trans (FlexAside.journal hK _ _ _ _ _))

include hstat

theorem calFail (ch : Chan) (last : Nat) : Shows K ch (ch.calFail g last) := by
  have h1 : Shows K ch ((ch.putF pgFlex (FLEX.GRP_STAT_PENDING g) 0).putF pgFlex (FLEX.GRP_STAT_LAST_SWITCH g) last) :=
    (Spares.put ch _ _ _ hstat).trans (.put _ _ _ _ hstat)
  exact ((h1.trans (putGrp _ _ _)).trans (.emit _ rfl)).trans (log hK _ _ _ _ rfl rfl)

theorem grpTo (ch : Chan) (st cause : Nat) : Shows K ch (ch.grpTo g st cause) := by
  have h1 : Shows K ch (ch.putF pgFlex (FLEX.GRP_STAT_STATE g) st) := .put ch _ _ _ hstat
  unfold Chan.grpTo
  dsimp only
  exact .ite (fun _ => .ite (fun _ => (h1.trans (log hK _ _ _ _ rfl rfl)).trans (calFail hK hstat _ 3)) (fun _ => h1.trans (log hK _ _ _ _ rfl rfl)))
    (fun _ => .ite (fun _ => h1.trans (log hK _ _ _ _ rfl rfl)) (fun _ => h1))

/-- A group that settles leaves the registers of FLEX but GRP_STAT of the group and CLIENT_STAT. -/
theorem grpSettle (ch : Chan) (h : ∀ n < 128, ¬ K (pgFlex.key (FLEX.CLIENT_STAT n))) : Shows K ch (ch.grpSettle g) := by
  have hput : ∀ (c : Chan) (f : Fld) (v : Nat), f.off = FLEX.GRP_STAT g → Shows K c (c.putF pgFlex f v) := fun c f v hf => .put c _ _ _ (by rwa [hf])
  have hto : ∀ (c : Chan) (st d : Nat), Shows K c (c.grpTo g st d) := fun c st d => grpTo hK hstat c st d
  have hmark : ∀ c : Chan, Shows K c (c.markDef (32 + g)) := fun c => FlexAside.shows (FlexAside.markDef c _)
  have hup : ∀ v, Shows K ch (ch.putF pgFlex (FLEX.GRP_STAT_MEMBERS_UP g) v) := fun v => hput ch _ v rfl
  have hskew : ∀ c : Chan, Shows K c (c.putF pgFlex (FLEX.GRP_STAT_SKEW g) 0) := fun c => hput c _ 0 rfl
  unfold Chan.grpSettle
  dsimp only
  refine Spares.trans ?_ (FlexAside.shows (FlexAside.clientsSettle hK _ g h))
  split
  · exact ((hup _).trans (hskew _)).trans (hto _ 0 6)
  · exact (((hup _).trans (hskew _)).trans (hto _ 1 _)).trans (hmark _)
  · exact .ite (fun _ => ((hup _).trans (hto _ 1 5)).trans (hmark _)) (fun _ => .ite (fun _ => hup _) (fun _ => (hup _).trans (hto _ 2 0)))

end Shows

end Sys2Proof.Machine
end

/-! FlexE groups, their calendars and their clients (R240–R244, R246–R249). -/

section
set_option Elab.async false
namespace Sys2Proof.Machine

/-- Another field of the same register. -/
theorem Chan.getF_putF_word (ch : Chan) (p : Pg) {f g : Fld} (v : Nat) (ho : g.off = f.off) (hl : f.lo ≤ f.hi) (h32 : g.hi < 32)
    (hd : f.hi < g.lo ∨ g.hi < f.lo) : (ch.putF p f v).getF p g = ch.getF p g := by
  rw [Chan.getF, Chan.getF, Chan.putF, ho, Chan.get_put_same, fld_setFld_ne _ _ _ _ _ _ hl h32 hd]

theorem Chan.getB_congr {a b : Chan} {p : Pg} {f : Fld} (h : b.getF p f = a.getF p f) : b.getB p f = a.getB p f := by
  rw [Chan.getB, Chan.getB, h]

theorem Chan.getB_putB_same (ch : Chan) (p : Pg) (f : Fld) (b : Bool) (hl : f.lo ≤ f.hi) (h32 : f.hi < 32) : (ch.putB p f b).getB p f = b := by
  rw [Chan.getB, Chan.putB, Chan.getF_putF_same _ _ _ _ hl h32]
  have hpow : 2 ^ 1 ≤ 2 ^ (f.hi + 1 - f.lo) := Nat.pow_le_pow_right (by decide) (by omega)
  have hb : b2n b < 2 := by cases b <;> decide
  rw [Nat.mod_eq_of_lt (by omega)]
  cases b <;> rfl

theorem Spares.getF {K : Nat → Prop} {strip : Chan → Chan} {a b : Chan} (h : Spares K strip a b) {p : Pg} {f : Fld} (hk : K (p.key f.off)) :
    b.getF p f = a.getF p f := by
  rw [Chan.getF, Chan.getF, h.get hk]

theorem flexKey_flex {off : Nat} (hlo : 0x100 ≤ off) (hhi : off < 65536) : FlexKey (pgFlex.key off) := by
  rw [pgFlex_key]
  exact .inl ⟨by omega, by omega⟩

theorem flexKey_slot {off : Nat} (hlo : 0x100 ≤ off) (hhi : off < 65536) : FlexKey (pgSlot.key off) := by
  rw [pgSlot_key]
  exact .inl ⟨by omega, by omega⟩

/-- One register of FLEX. -/
def FlexReg (off key : Nat) : Prop := key = pgFlex.key off

theorem flexReg_iff {off o : Nat} : FlexReg off (pgFlex.key o) ↔ o = off := by
  rw [FlexReg, pgFlex_key, pgFlex_key]
  omega

theorem flexReg_flexKey {off : Nat} (hlo : 0x100 ≤ off) (hhi : off < 65536) (key : Nat) (h : FlexReg off key) : FlexKey key := h ▸ flexKey_flex hlo hhi

theorem FlexAside.grp {K : Nat → Prop} {a b : Chan} (h : FlexAside K a b) (g : Nat) : b.grp g = a.grp g := by
  have hgrps := congrArg FlexW.grps h.flex
  exact congrArg (fun t => tget ({} : FlexGrp) t g) hgrps

theorem FlexAside.turning {K : Nat → Prop} {a b : Chan} (h : FlexAside K a b) : b.flex.turning = a.flex.turning := by
  have hturn := congrArg FlexW.turning h.flex
  exact hturn

/-- What delivery leaves. -/
theorem FlexAside.of_calm {a b : Chan} (h : Calm a b) : FlexAside FlexKey a b :=
  (h.spares (fun key hk hm => FlexAside.not_journal (fun _ h => h) key hk (by simpa using hm))).strips flexStrip (fun _ => rfl)

theorem Stays.flex {pages : List Pg} {a b : Chan} (h : Stays pages id a b) : b.flex = a.flex := by
  have hwork := congrArg (fun ch : Chan => ch.flex) h.work
  exact hwork

/-- What the slot switch and performance monitoring may change. -/
abbrev slotStrip (ch : Chan) : Chan := { noRegions ch with flex := {} }

/-- What the running clock leaves of FLEX. -/
theorem Shows.of_ticks {a b : Chan} (h : Ticks a b) {off : Nat} (hlo : 0x100 ≤ off) (hhi : off < 65536) : Shows (FlexReg off) a b where
  work := by
    have hwork := congrArg (fun x => heldStrip x) h.work
    exact hwork
  regs key hk := by
    refine h.regs key (fun hc => ?_)
    rw [FlexReg, pgFlex_key] at hk
    rcases hc with ⟨-, hreg⟩ | ⟨g, hg, he⟩
    · simp only [CountReg, oCAUSE, oFIRST, oOVF] at hreg
      omega
    · rw [pgSlot_key, pgSlot_key] at he
      simp only [SLOT.IDLE_BLK] at he
      omega
  outs := h.noFatal

section
variable {g : Nat} (hg : g < 8)
include hg

theorem grpStat_flex : 0x100 ≤ FLEX.GRP_STAT g ∧ FLEX.GRP_STAT g < 65536 := by
  simp only [FLEX.GRP_STAT]
  omega

/-- The clients of a group leave its GRP_STAT. -/
theorem Chan.clientsSettle_stat (ch : Chan) : FlexAside (FlexReg (FLEX.GRP_STAT g)) ch (ch.clientsSettle g) := by
  obtain ⟨hlo, hhi⟩ := grpStat_flex hg
  refine FlexAside.clientsSettle (flexReg_flexKey hlo hhi) ch g (fun n hn hk => ?_)
  have hoff := flexReg_iff.1 hk
  simp only [FLEX.CLIENT_STAT, FLEX.GRP_STAT] at hoff
  omega

/-- What a calendar request that fails leaves in GRP_STAT. -/
theorem Chan.calFail_stat (ch : Chan) (last : Nat) :
    Shows (FlexReg (FLEX.GRP_STAT g)) ((ch.putF pgFlex (FLEX.GRP_STAT_PENDING g) 0).putF pgFlex (FLEX.GRP_STAT_LAST_SWITCH g) last) (ch.calFail g last) := by
  obtain ⟨hlo, hhi⟩ := grpStat_flex hg
  exact ((Shows.putGrp _ _ _).trans (.emit _ rfl)).trans (Shows.log (flexReg_flexKey hlo hhi) _ _ _ _ rfl rfl)

/-- STATE of a group changes; SKEW and what stands below stay. -/
theorem Chan.grpTo_stat (ch : Chan) (st cause : Nat) :
    (ch.grpTo g st cause).grpState g = st % 4 ∧
    (∀ f : Fld, f.off = FLEX.GRP_STAT g → f.hi < 25 → (ch.grpTo g st cause).getF pgFlex f = ch.getF pgFlex f) ∧
    (NoFatal ch.outQ → NoFatal (ch.grpTo g st cause).outQ) := by
  obtain ⟨hlo, hhi⟩ := grpStat_flex hg
  have hlog := fun (c : Chan) {b : Nat} (cls ev d : Nat) (h0 : nbit (2 ^ b) 0 = false) (h2 : nbit (2 ^ b) 2 = false) =>
    Shows.log (flexReg_flexKey hlo hhi) c cls ev d h0 h2
  have hput : (ch.putF pgFlex (FLEX.GRP_STAT_STATE g) st).grpState g = st % 4 :=
    Chan.getF_putF_same _ _ (FLEX.GRP_STAT_STATE g) _ (by norm_num) (by norm_num)
  have hlow : ∀ f : Fld, f.off = FLEX.GRP_STAT g → f.hi < 25 → (ch.putF pgFlex (FLEX.GRP_STAT_STATE g) st).getF pgFlex f = ch.getF pgFlex f := fun f hf h25 =>
    Chan.getF_putF_word (f := FLEX.GRP_STAT_STATE g) ch _ st hf (by norm_num) (by omega) (.inr (by simp only; omega))
  have hshow : ∀ {x : Chan}, Shows (FlexReg (FLEX.GRP_STAT g)) (ch.putF pgFlex (FLEX.GRP_STAT_STATE g) st) x →
      x.grpState g = st % 4 ∧ (∀ f : Fld, f.off = FLEX.GRP_STAT g → f.hi < 25 → x.getF pgFlex f = ch.getF pgFlex f) ∧
      (NoFatal ch.outQ → NoFatal x.outQ) := fun h =>
    ⟨(h.getF (f := FLEX.GRP_STAT_STATE g) rfl).trans hput, fun f hf h25 => (h.getF (by rw [hf]; rfl)).trans (hlow f hf h25), h.outs⟩
  have hfail : ∀ {x : Chan}, Shows (FlexReg (FLEX.GRP_STAT g)) (ch.putF pgFlex (FLEX.GRP_STAT_STATE g) st) x →
      (x.calFail g 3).grpState g = st % 4 ∧ (∀ f : Fld, f.off = FLEX.GRP_STAT g → f.hi < 25 → (x.calFail g 3).getF pgFlex f = ch.getF pgFlex f) ∧
      (NoFatal ch.outQ → NoFatal (x.calFail g 3).outQ) := fun {x} h => by
    obtain ⟨hst, hf25, hout⟩ := hshow h
    have hx := Chan.calFail_stat hg x 3
    have hword : ∀ f : Fld, f.off = FLEX.GRP_STAT g → f.hi < 32 → f.hi < 25 ∨ 27 < f.lo → (x.calFail g 3).getF pgFlex f = x.getF pgFlex f := fun f hf h32 hd => by
      rw [hx.getF (by rw [hf]; rfl), Chan.getF_putF_word (f := FLEX.GRP_STAT_LAST_SWITCH g) _ _ _ hf (by norm_num) h32 (by simp only; omega),
        Chan.getF_putF_word (f := FLEX.GRP_STAT_PENDING g) _ _ _ hf (by norm_num) h32 (by simp only; omega)]
    exact ⟨(hword _ rfl (by norm_num) (.inr (by norm_num))).trans hst, fun f hf h25 => (hword f hf (by omega) (.inl h25)).trans (hf25 f hf h25),
      fun h0 => hx.outs (hout h0)⟩
  unfold Chan.grpTo
  dsimp only
  split
  · split
    · exact hfail (hlog _ _ _ _ rfl rfl)
    · exact hshow (hlog _ _ _ _ rfl rfl)
  · split
    · exact hshow (hlog _ _ _ _ rfl rfl)
    · exact hshow (.refl _)

end

/-! What a group depends on. -/

theorem any_congr_mem {α : Type} {l : List α} {p q : α → Bool} (h : ∀ x ∈ l, p x = q x) : l.any p = l.any q := by
  rw [Bool.eq_iff_iff, List.any_eq_true, List.any_eq_true]
  exact exists_congr (fun x => and_congr_right (fun hx => by rw [h x hx]))

/-- A write of GRP_STAT leaves the defects of the group. -/
theorem Chan.grpDefect_putStat (ch : Chan) {g : Nat} (hg : g < 8) (f : Fld) (hf : f.off = FLEX.GRP_STAT g) (v : Nat) :
    (ch.putF pgFlex f v).grpDefect g = ch.grpDefect g := by
  have hget : ∀ (p : Pg) (o : Fld), p.key o.off ≠ pgFlex.key (FLEX.GRP_STAT g) → (ch.putF pgFlex f v).getF p o = ch.getF p o := fun p o h =>
    Chan.getF_putF_ne (f := f) (g := o) ch v (by rwa [hf])
  have hflex : ∀ o : Fld, o.off ≠ FLEX.GRP_STAT g → (ch.putF pgFlex f v).getB pgFlex o = ch.getB pgFlex o := fun o h =>
    Chan.getB_congr (hget _ _ (by rw [pgFlex_key, pgFlex_key]; omega))
  have hmem : (ch.putF pgFlex f v).members g = ch.members g := by
    unfold Chan.members allBelow
    refine List.filter_congr (fun k hk => hflex _ ?_)
    have := List.mem_range.1 hk
    simp only [FLEX.GRP_STAT]
    omega
  have hlt : ∀ k ∈ ch.members g, k < 8 := fun k hk => mem_allBelow_lt hk
  have hstat : ∀ k ∈ ch.members g, ∀ o : Fld, o.off = FLEX.MEMBER_STAT g k → (ch.putF pgFlex f v).getB pgFlex o = ch.getB pgFlex o := fun k hk o ho =>
    hflex o (by have := hlt k hk; rw [ho]; simp only [FLEX.MEMBER_STAT, FLEX.GRP_STAT]; omega)
  have hport : ∀ k ∈ ch.members g, (ch.putF pgFlex f v).memberPort g k = ch.memberPort g k := fun k hk =>
    hget _ _ (by have := hlt k hk; rw [pgFlex_key, pgFlex_key]; simp only [FLEX.GRP_STAT]; omega)
  have hoper : ∀ p < 64, (ch.putF pgFlex f v).oper p = ch.oper p := fun p hp => by
    have hblk := portBlk_lt p
    obtain ⟨i, hi, hlt⟩ := portPg_page p
    have hi8 := hlt hp
    refine Chan.getB_congr (hget _ _ ?_)
    rw [hi, pgLine_key (by omega), pgFlex_key]
    simp only [FLEX.GRP_STAT]
    omega
  have hon : (ch.putF pgFlex f v).grpOn g = ch.grpOn g := by
    rw [Chan.grpOn, Chan.grpOn, Chan.enabled, Chan.enabled, hflex CTRL_ENABLE (by simp only [FLEX.GRP_STAT]; omega),
      hflex (FLEX.GRP_CFG_EN g) (by simp only [FLEX.GRP_STAT]; omega)]
    rfl
  have hall : ∀ F : Nat → Fld, (∀ k, (F k).off = FLEX.MEMBER_STAT g k) →
      (ch.members g).any (fun k => (ch.putF pgFlex f v).getB pgFlex (F k)) = (ch.members g).any (fun k => ch.getB pgFlex (F k)) := fun F hF =>
    any_congr_mem (fun k hk => hstat k hk _ (hF k))
  have hdown : (ch.members g).any (fun k => !(ch.putF pgFlex f v).oper ((ch.putF pgFlex f v).memberPort g k)) =
      (ch.members g).any (fun k => !ch.oper (ch.memberPort g k)) := any_congr_mem (fun k hk => by
    rw [hport k hk, hoper (ch.memberPort g k) ((Nat.mod_lt _ (by norm_num)).trans (by norm_num : 2 ^ (12 + 1 - 8) < 64))])
  simp only [Chan.grpDefect]
  rw [hmem, hon, hdown, hall (FLEX.MEMBER_STAT_LOF g) (fun _ => rfl), hall (FLEX.MEMBER_STAT_LOM g) (fun _ => rfl),
    hall (FLEX.MEMBER_STAT_GIDM g) (fun _ => rfl), hall (FLEX.MEMBER_STAT_PIDM g) (fun _ => rfl)]

/-! Slots and labels (R239, R249). -/

/-- The parts of a list by the value of a function are no longer than the list. -/
theorem fibers_length_le (f : Nat → Nat) {l ms : List Nat} (hl : l.Nodup) (hms : ms.Nodup) :
    (l.flatMap (fun y => ms.filter (fun k => f k == y))).length ≤ ms.length := by
  refine List.Subperm.length_le (List.subperm_of_subset (List.nodup_flatMap.2 ⟨fun _ _ => hms.filter _, ?_⟩) (fun k hk => ?_))
  · refine List.Pairwise.imp (fun hne k hk hk' => hne ?_) hl
    rw [List.mem_filter, beq_iff_eq] at hk hk'
    exact hk.2.symm.trans hk'.2
  · obtain ⟨y, -, hy⟩ := List.mem_flatMap.1 hk
    exact List.mem_of_mem_filter hy

/-- A group has at most 640 slots. -/
theorem Chan.slotMember_lt {ch : Chan} {g j k : Nat} (h : ch.slotMember g j = some k) : j < 640 := by
  have hinst : ∀ s, instancesOf s ≤ 4 := fun s => by
    unfold instancesOf
    split_ifs <;> omega
  have hlen : (ch.instances g).length ≤ 32 := by
    have hms : (ch.members g).length ≤ 8 := (List.length_filter_le _ _).trans (by simp)
    have hnd : (ch.members g).Nodup := allBelow_nodup 8 _
    have hfib := fibers_length_le (fun k => ch.getF pgFlex (FLEX.MEMBER_PHY g k))
      (allBelow_nodup 255 (fun y => (ch.members g).any (fun k => ch.getF pgFlex (FLEX.MEMBER_PHY g k) == y))) hnd
    unfold Chan.instances
    rw [← List.flatMap_assoc, List.length_flatMap]
    have hsum := List.sum_le_card_nsmul (List.map (fun k => ((List.range (instancesOf (ch.portF (ch.memberPort g k) LINE.PORT_CFG_SPEED))).map
      (fun i => (k, i))).length) ((allBelow 255 (fun y => (ch.members g).any (fun k => ch.getF pgFlex (FLEX.MEMBER_PHY g k) == y))).flatMap
      (fun y => (ch.members g).filter (fun k => ch.getF pgFlex (FLEX.MEMBER_PHY g k) == y)))) 4 (fun n hn => by
        obtain ⟨k, -, rfl⟩ := List.mem_map.1 hn
        rw [List.length_map, List.length_range]
        exact hinst _)
    rw [List.length_map, smul_eq_mul] at hsum
    omega
  unfold Chan.slotMember at h
  obtain ⟨x, hx, -⟩ := Option.map_eq_some_iff.1 h
  have := (List.getElem?_eq_some_iff.1 hx).1
  omega

/-- Whether the next multiframe decides on the label of a slot. -/
def Chan.turnSlot (ch : Chan) (i : Nat) (b : Bool) : Chan := { ch with flex := { ch.flex with turning := tput false ch.flex.turning i b } }

/-- A received label: the defect of its slot, and whether the next multiframe decides. -/
theorem Chan.labelRx_slot (ch : Chan) {g j : Nat} (hg : g < 8) (hj : j < 640) (id : Nat) :
    let bad := decide (id ≠ ch.expCal g (ch.rxLetter g) j)
    (ch.labelRx g j id).labelMm g j = (if tget false ch.flex.turning (g * 640 + j) then bad else ch.labelMm g j) ∧
    (bad ≠ ch.labelMm g j → tget false (ch.labelRx g j id).flex.turning (g * 640 + j) = !(tget false ch.flex.turning (g * 640 + j))) ∧
    (NoFatal ch.outQ → NoFatal (ch.labelRx g j id).outQ) := by
  intro bad
  have hK : ∀ key, FlexKey key → FlexKey key := fun _ h => h
  have hoff : 0x100 ≤ (labelBit g j).off ∧ (labelBit g j).off < 65536 := by
    simp only [labelBit, FLEX.LABEL_STAT]
    omega
  have hlabel : ∀ {a b : Chan}, FlexAside FlexKey a b → b.labelMm g j = a.labelMm g j ∧ b.flex.turning = a.flex.turning := fun h =>
    ⟨Chan.getB_congr (h.getF (f := labelBit g j) (flexKey_flex hoff.1 hoff.2)), FlexAside.turning h⟩
  unfold Chan.labelRx
  dsimp only
  by_cases hbad : bad = ch.labelMm g j
  · rw [if_pos (by rw [← hbad]; exact beq_self_eq_true _)]
    refine ⟨?_, fun hne => absurd hbad hne, fun h => h⟩
    rw [hbad, ite_self]
    rfl
  · rw [if_neg (by rwa [beq_iff_eq])]
    cases hturn : tget false ch.flex.turning (g * 640 + j)
    · exact ⟨rfl, fun _ => tget_tput_same _ _ _ _, fun h => h⟩
    · rw [if_neg (by decide), if_pos rfl]
      have hset : ((ch.putB pgFlex (labelBit g j) bad).turnSlot (g * 640 + j) false).labelMm g j = bad :=
        Chan.getB_putB_same ch pgFlex (labelBit g j) bad le_rfl (Nat.mod_lt _ (by decide))
      have hdone : ∀ x : Chan, FlexAside FlexKey ((ch.putB pgFlex (labelBit g j) bad).turnSlot (g * 640 + j) false) x →
          x.labelMm g j = bad ∧ (bad ≠ ch.labelMm g j → tget false x.flex.turning (g * 640 + j) = !true) ∧ (NoFatal ch.outQ → NoFatal x.outQ) := fun x h => by
        obtain ⟨hl, ht⟩ := hlabel h
        exact ⟨hl.trans hset, fun _ => (congrArg (fun t => tget false t (g * 640 + j)) ht).trans (tget_tput_same _ _ _ _), h.outs⟩
      split
      · exact hdone _ (((FlexAside.capture hK _ _ _ _ _ _ _).trans (FlexAside.raise hK _ _ rfl rfl)).trans (FlexAside.journal hK _ _ _ _ _))
      · exact hdone _ (FlexAside.journal hK _ _ _ _ _)

/-- A client shows the local fault that it receives, while it is enabled (R241). -/
theorem Chan.clientSettle_rxLf (ch : Chan) {n : Nat} (hn : n < 128) :
    (ch.clientSettle n).getB pgFlex (FLEX.CLIENT_STAT_RX_LF n) =
      (ch.getB pgFlex (FLEX.CLIENT_CFG_EN n) && ch.enabled pgFlex && ch.getB pgFlex (FLEX.CLIENT_STAT_RX_LF n)) ∧
    (NoFatal ch.outQ → NoFatal (ch.clientSettle n).outQ) := by
  have hK : ∀ key, FlexKey key → FlexKey key := fun _ h => h
  have hkey : FlexKey (pgFlex.key (FLEX.CLIENT_STAT n)) := flexKey_flex (by simp only [FLEX.CLIENT_STAT]; omega) (by simp only [FLEX.CLIENT_STAT]; omega)
  have hput : ∀ (u mm lf : Bool) (slots : Nat), ((((ch.putB pgFlex (FLEX.CLIENT_STAT_UP n) u).putB pgFlex (FLEX.CLIENT_STAT_LABEL_MM n) mm).putB pgFlex
      (FLEX.CLIENT_STAT_RX_LF n) lf).putF pgFlex (FLEX.CLIENT_STAT_SLOTS n) slots).getB pgFlex (FLEX.CLIENT_STAT_RX_LF n) = lf := fun u mm lf slots =>
    (Chan.getB_congr (Chan.getF_putF_word (f := FLEX.CLIENT_STAT_SLOTS n) (g := FLEX.CLIENT_STAT_RX_LF n) _ _ _ rfl (by norm_num) (by norm_num)
      (.inl (by norm_num)))).trans (Chan.getB_putB_same _ _ (FLEX.CLIENT_STAT_RX_LF n) _ (by norm_num) (by norm_num))
  have hmark : ∀ (c : Chan) (q : Bool), FlexAside FlexKey c (if q then c.markDef (40 + n) else c) := fun c q =>
    .ite (fun _ => FlexAside.markDef c _) (fun _ => .refl c)
  have hdone : ∀ {u mm lf : Bool} {slots : Nat} {x : Chan}, FlexAside FlexKey ((((ch.putB pgFlex (FLEX.CLIENT_STAT_UP n) u).putB pgFlex
      (FLEX.CLIENT_STAT_LABEL_MM n) mm).putB pgFlex (FLEX.CLIENT_STAT_RX_LF n) lf).putF pgFlex (FLEX.CLIENT_STAT_SLOTS n) slots) x →
      x.getB pgFlex (FLEX.CLIENT_STAT_RX_LF n) = lf ∧ (NoFatal ch.outQ → NoFatal x.outQ) := fun h =>
    ⟨(Chan.getB_congr (h.getF (f := FLEX.CLIENT_STAT_RX_LF n) hkey)).trans (hput _ _ _ _), h.outs⟩
  unfold Chan.clientSettle
  dsimp only
  split
  · exact hdone ((hmark _ _).trans (FlexAside.portSettle hK _ (Nat.mod_lt _ (by norm_num)) _))
  · exact hdone (hmark _ _)

/-- A group without defects whose skew is too large goes down. -/
theorem Chan.grpSettle_skewed {ch : Chan} {g : Nat} (hdef : ch.grpDefect g = none) (hskew : ch.getB pgFlex (FLEX.GRP_STAT_SKEW g) = true) :
    ∃ up, ch.grpSettle g = (((ch.putF pgFlex (FLEX.GRP_STAT_MEMBERS_UP g) up).grpTo g 1 5).markDef (32 + g)).clientsSettle g := by
  simp only [Chan.grpSettle]
  rw [hdef]
  dsimp only
  rw [hskew, if_pos rfl]
  exact ⟨_, rfl⟩

/-- The calendar that an overhead frame says its sender uses (R243). -/
def Chan.calSeen (ch : Chan) (g calC : Nat) : Chan :=
  if calC % 2 = ch.rxLetter g then ch
  else (((ch.putF pgFlex (FLEX.GRP_STAT_RX_CAL g) calC).tally pgFlex 0x11 { priv := some 0, agent := some g }).raise pgFlex 10).journal pgFlex clsNone 3
    (g + calC % 2 * 2 ^ 8 + 2 ^ 16)

/-- The acknowledge of a calendar request (R243). -/
def Chan.ackSeen (ch : Chan) (g ca : Nat) : Chan :=
  if ch.getB pgFlex (FLEX.GRP_STAT_PENDING g) && ch.getB pgFlex (FLEX.GRP_CFG_HANDSHAKE g) && ca % 2 == (ch.grp g).target then
    ch.putGrp g { ch.grp g with ready := true } else ch

theorem Chan.calSeen_letter (ch : Chan) {g : Nat} (hg : g < 8) (calC : Nat) :
    (ch.calSeen g calC).rxLetter g = calC % 2 ∧ (ch.calSeen g calC).grp g = ch.grp g ∧
    (ch.calSeen g calC).getB pgFlex (FLEX.GRP_STAT_PENDING g) = ch.getB pgFlex (FLEX.GRP_STAT_PENDING g) ∧
    (ch.calSeen g calC).getB pgFlex (FLEX.GRP_CFG_HANDSHAKE g) = ch.getB pgFlex (FLEX.GRP_CFG_HANDSHAKE g) ∧
    (NoFatal ch.outQ → NoFatal (ch.calSeen g calC).outQ) := by
  have hK : ∀ key, FlexKey key → FlexKey key := fun _ h => h
  obtain ⟨hlo, hhi⟩ := grpStat_flex hg
  have hstat := flexKey_flex hlo hhi
  unfold Chan.calSeen
  split
  · exact ⟨by simp only [*], rfl, rfl, rfl, fun h => h⟩
  · have h := ((FlexAside.tally hK (ch.putF pgFlex (FLEX.GRP_STAT_RX_CAL g) calC) pgFlex 0x11 { priv := some 0, agent := some g } 1).trans
      (FlexAside.raise hK _ pgFlex (b := 10) rfl rfl)).trans (FlexAside.journal hK _ pgFlex clsNone 3 (g + calC % 2 * 2 ^ 8 + 2 ^ 16))
    refine ⟨(h.getF (f := FLEX.GRP_STAT_RX_CAL g) hstat).trans (Chan.getF_putF_same _ _ (FLEX.GRP_STAT_RX_CAL g) _ (by norm_num) (by norm_num)), FlexAside.grp h g,
      Chan.getB_congr ((h.getF (f := FLEX.GRP_STAT_PENDING g) hstat).trans ?_),
      Chan.getB_congr ((h.getF (f := FLEX.GRP_CFG_HANDSHAKE g) (flexKey_flex (by simp only; omega) (by simp only; omega))).trans
        (Chan.getF_putF_ne _ _ ?_)), h.outs⟩
    · exact Chan.getF_putF_word (f := FLEX.GRP_STAT_RX_CAL g) _ _ _ rfl (by norm_num) (by norm_num) (.inr (by norm_num))
    · rw [pgFlex_key, pgFlex_key]
      simp only
      omega

/-- The acknowledge leaves the registers, and what is not of groups. -/
theorem Chan.ackSeen_kept (ch : Chan) (g ca : Nat) :
    (ch.ackSeen g ca).regs = ch.regs ∧ (ch.ackSeen g ca).flex.turning = ch.flex.turning ∧ (ch.ackSeen g ca).outQ = ch.outQ := by
  unfold Chan.ackSeen
  split
  · exact ⟨rfl, rfl, rfl⟩
  · exact ⟨rfl, rfl, rfl⟩

/-! A page becomes active (R247, R248). -/

namespace Stays

variable {pages : List Pg} {strip : Chan → Chan} (hp : pgSlot ∈ pages) {g : Nat} (hg : g < 8)
include hp hg

theorem putSlotStat (ch : Chan) {f : Fld} (v : Nat) (hf : f.off = SLOT.GRP_STAT g) : Stays pages strip ch (ch.putF pgSlot f v) :=
  put ch hp _ (by rw [hf]; simp only [SLOT.GRP_STAT]; omega)

/-- Fixed-mapping fallback. -/
theorem fallback (ch : Chan) (reason : Nat) : Stays pages strip ch (ch.fallback g reason) :=
  ((((putSlotStat hp hg ch 1 rfl).trans (putSlotStat hp hg _ reason rfl)).trans (put _ hp _ (by simp only [SLOT.FB_CNT]; omega))).trans
    (raise _ hp _)).trans (journal _ _ _ _ _)

theorem activatePage (ch : Chan) : Stays pages strip ch (ch.activatePage g) := by
  have hstat : ∀ (c : Chan) (f : Fld) (v : Nat), f.off = SLOT.GRP_STAT g → Stays pages strip c (c.putF pgSlot f v) := fun c f v hf =>
    putSlotStat hp hg c v hf
  have hstart : Stays pages strip ch (((((((ch.putF pgSlot (SLOT.GRP_STAT_ACTIVE_PAGE g) (1 - ch.getF pgSlot (SLOT.GRP_STAT_ACTIVE_PAGE g))).putB pgSlot
      (SLOT.GRP_STAT_ACT_VALID g) (ch.getB pgSlot (SLOT.GRP_STAT_STBY_VALID g))).putF pgSlot (SLOT.GRP_STAT_STBY_VALID g) 0).putF pgSlot
      (SLOT.GRP_STAT_PAR_ERR g) 0).raise pgSlot 8).journal pgSlot clsNone 1 (g + (1 - ch.getF pgSlot (SLOT.GRP_STAT_ACTIVE_PAGE g)) * 2 ^ 8))) :=
    (((((hstat ch _ _ rfl).trans (hstat _ (SLOT.GRP_STAT_ACT_VALID g) _ rfl)).trans (hstat _ _ _ rfl)).trans (hstat _ _ _ rfl)).trans (raise _ hp _)).trans
      (journal _ _ _ _ _)
  unfold Chan.activatePage
  dsimp only
  exact ite (fun _ => hstart.trans (fallback hp hg _ _)) (fun _ => ite
    (fun _ => ((hstart.trans (hstat _ _ _ rfl)).trans (hstat _ _ _ rfl)).trans (journal _ _ _ _ _)) (fun _ => hstart))

end Stays

/-- One register of SLOT. -/
def SlotReg (off key : Nat) : Prop := key = pgSlot.key off

theorem slotReg_flexKey {off : Nat} (hlo : 0x100 ≤ off) (hhi : off < 65536) (key : Nat) (h : SlotReg off key) : FlexKey key := h ▸ flexKey_slot hlo hhi

/-- The cause that stands stays under a journal entry. -/
theorem Chan.slotCause_journal (ch : Chan) (cls ev d : Nat) : (ch.journal pgSlot cls ev d).get pgSlot oCAUSE = ch.get pgSlot oCAUSE :=
  (Stays.journal (pages := []) (strip := id) ch pgSlot cls ev d).regs _ (by decide)

section
variable {g : Nat} (hg : g < 8)
include hg

theorem slotStat_flex : 0x100 ≤ SLOT.GRP_STAT g ∧ SLOT.GRP_STAT g < 65536 := by
  simp only [SLOT.GRP_STAT]
  omega

/-- What fallback leaves in GRP_STAT. -/
theorem Chan.fallback_stat (ch : Chan) (reason : Nat) : FlexAside (SlotReg (SLOT.GRP_STAT g))
    ((ch.putF pgSlot (SLOT.GRP_STAT_FB_ACTIVE g) 1).putF pgSlot (SLOT.GRP_STAT_FB_REASON g) reason) (ch.fallback g reason) := by
  obtain ⟨hlo, hhi⟩ := slotStat_flex hg
  have hK := slotReg_flexKey hlo hhi
  refine ((Spares.put _ pgSlot (SLOT.FB_CNT g) _ (fun h => ?_)).trans (FlexAside.raise hK _ _ rfl rfl)).trans (FlexAside.journal hK _ _ _ _ _)
  rw [SlotReg, pgSlot_key, pgSlot_key] at h
  simp only [SLOT.FB_CNT, SLOT.GRP_STAT] at h
  omega

end

/-- What SLOT shows of a group's page: the page, whether it is valid, whether fallback stands, and that a switch has been told. -/
structure PageShown (g page : Nat) (ok fb : Bool) (ch : Chan) : Prop where
  page : ch.getF pgSlot (SLOT.GRP_STAT_ACTIVE_PAGE g) = page
  valid : ch.getB pgSlot (SLOT.GRP_STAT_ACT_VALID g) = ok
  fallback : ch.getB pgSlot (SLOT.GRP_STAT_FB_ACTIVE g) = fb
  cause : bit (ch.get pgSlot oCAUSE) 8 = true

/-- Another field of GRP_STAT. -/
theorem Chan.slotField_ne (ch : Chan) (f F : Fld) (v : Nat) (ho : F.off = f.off) (hl : f.lo ≤ f.hi) (h32 : F.hi < 32) (hd : f.hi < F.lo ∨ F.hi < f.lo) :
    (ch.putF pgSlot f v).getF pgSlot F = ch.getF pgSlot F := Chan.getF_putF_word ch pgSlot v ho hl h32 hd

/-- A block register leaves the causes. -/
theorem Chan.slotCause_put (ch : Chan) {off : Nat} (v : Word) (hlo : 0x100 ≤ off) : (ch.put pgSlot off v).get pgSlot oCAUSE = ch.get pgSlot oCAUSE :=
  ch.get_put_ne v (by rw [pgSlot_key, pgSlot_key]; simp only [oCAUSE]; omega)

namespace PageShown

variable {g page : Nat} {ok fb : Bool} {ch x : Chan}

theorem of_stat (h : PageShown g page ok fb ch) (hx : FlexAside (SlotReg (SLOT.GRP_STAT g)) ch x) (hc : bit (x.get pgSlot oCAUSE) 8 = true) :
    PageShown g page ok fb x where
  page := (hx.getF (f := SLOT.GRP_STAT_ACTIVE_PAGE g) rfl).trans h.page
  valid := (Chan.getB_congr (hx.getF (f := SLOT.GRP_STAT_ACT_VALID g) rfl)).trans h.valid
  fallback := (Chan.getB_congr (hx.getF (f := SLOT.GRP_STAT_FB_ACTIVE g) rfl)).trans h.fallback
  cause := hc

/-- FB_ACTIVE and FB_REASON change. -/
theorem putFallback (h : PageShown g page ok fb ch) (b : Bool) (reason : Nat) :
    PageShown g page ok b ((ch.putF pgSlot (SLOT.GRP_STAT_FB_ACTIVE g) (b2n b)).putF pgSlot (SLOT.GRP_STAT_FB_REASON g) reason) := by
  have hother : ∀ F : Fld, F.off = SLOT.GRP_STAT g → F.hi < 32 → 28 < F.lo → ((ch.putF pgSlot (SLOT.GRP_STAT_FB_ACTIVE g) (b2n b)).putF pgSlot
      (SLOT.GRP_STAT_FB_REASON g) reason).getF pgSlot F = ch.getF pgSlot F := fun F hF h32 h28 =>
    (Chan.slotField_ne _ (SLOT.GRP_STAT_FB_REASON g) F _ hF (by norm_num) h32 (.inl (by simp only; omega))).trans
      (Chan.slotField_ne _ (SLOT.GRP_STAT_FB_ACTIVE g) F _ hF (by norm_num) h32 (.inl (by simp only; omega)))
  refine ⟨(hother (SLOT.GRP_STAT_ACTIVE_PAGE g) rfl (by norm_num) (by norm_num)).trans h.page,
    (Chan.getB_congr (hother (SLOT.GRP_STAT_ACT_VALID g) rfl (by norm_num) (by norm_num))).trans h.valid, ?_, ?_⟩
  · refine (Chan.getB_congr (Chan.slotField_ne _ (SLOT.GRP_STAT_FB_REASON g) (SLOT.GRP_STAT_FB_ACTIVE g) _ rfl (by norm_num) (by norm_num)
      (.inl (by norm_num)))).trans ?_
    exact Chan.getB_putB_same ch pgSlot (SLOT.GRP_STAT_FB_ACTIVE g) b (by norm_num) (by norm_num)
  · rw [Chan.putF, Chan.slotCause_put _ _ (by simp only; omega), Chan.putF, Chan.slotCause_put _ _ (by simp only; omega)]
    exact h.cause

/-- Fallback engages. -/
theorem toFallback (hg : g < 8) (h : PageShown g page ok fb ch) (reason : Nat) : PageShown g page ok true (ch.fallback g reason) := by
  refine (h.putFallback true reason).of_stat (Chan.fallback_stat hg ch reason) ?_
  unfold Chan.fallback
  dsimp only
  rw [Chan.slotCause_journal]
  refine Chan.cause_raiseMask _ _ _ (by decide) (.inl ?_)
  rw [Chan.inc, Chan.putN, Chan.slotCause_put _ _ (by simp only [SLOT.FB_CNT]; omega)]
  exact (h.putFallback true reason).cause

/-- The standby page has become active. -/
theorem start (hg : g < 8) (ch : Chan) {page : Nat} (hpage : page < 2) (ok : Bool) : PageShown g page ok (ch.getB pgSlot (SLOT.GRP_STAT_FB_ACTIVE g))
    ((((((ch.putF pgSlot (SLOT.GRP_STAT_ACTIVE_PAGE g) page).putB pgSlot (SLOT.GRP_STAT_ACT_VALID g) ok).putF pgSlot
      (SLOT.GRP_STAT_STBY_VALID g) 0).putF pgSlot (SLOT.GRP_STAT_PAR_ERR g) 0).raise pgSlot 8).journal pgSlot clsNone 1 (g + page * 2 ^ 8)) := by
  obtain ⟨hlo, hhi⟩ := slotStat_flex hg
  have hK := slotReg_flexKey hlo hhi
  obtain ⟨a, ha⟩ : ∃ a, a = ch.putF pgSlot (SLOT.GRP_STAT_ACTIVE_PAGE g) page := ⟨_, rfl⟩
  rw [← ha]
  obtain ⟨b, hb⟩ : ∃ b, b = a.putB pgSlot (SLOT.GRP_STAT_ACT_VALID g) ok := ⟨_, rfl⟩
  rw [← hb]
  have hrest : ∀ F : Fld, F.off = SLOT.GRP_STAT g → F.hi < 32 → 29 < F.lo ∨ F.lo = 28 ∧ F.hi = 28 → (((((b.putF pgSlot (SLOT.GRP_STAT_STBY_VALID g) 0).putF pgSlot
      (SLOT.GRP_STAT_PAR_ERR g) 0).raise pgSlot 8).journal pgSlot clsNone 1 (g + page * 2 ^ 8))).getF pgSlot F = b.getF pgSlot F := fun F hF h32 hd => by
    have hlog : FlexAside (SlotReg (SLOT.GRP_STAT g)) ((b.putF pgSlot (SLOT.GRP_STAT_STBY_VALID g) 0).putF pgSlot (SLOT.GRP_STAT_PAR_ERR g) 0) _ :=
      (FlexAside.raise hK _ pgSlot (b := 8) rfl rfl).trans (FlexAside.journal hK _ pgSlot clsNone 1 (g + page * 2 ^ 8))
    rw [hlog.getF (by rw [hF]; rfl), Chan.slotField_ne _ (SLOT.GRP_STAT_PAR_ERR g) F _ hF (by norm_num) h32 (.inl (by simp only; omega)),
      Chan.slotField_ne _ (SLOT.GRP_STAT_STBY_VALID g) F _ hF (by norm_num) h32 (by simp only; omega)]
  refine ⟨(hrest (SLOT.GRP_STAT_ACTIVE_PAGE g) rfl (by norm_num) (.inl (by norm_num))).trans ?_,
    (Chan.getB_congr (hrest (SLOT.GRP_STAT_ACT_VALID g) rfl (by norm_num) (.inl (by norm_num)))).trans ?_,
    Chan.getB_congr ((hrest (SLOT.GRP_STAT_FB_ACTIVE g) rfl (by norm_num) (.inr ⟨rfl, rfl⟩)).trans ?_), ?_⟩
  · rw [hb, Chan.putB, Chan.slotField_ne _ (SLOT.GRP_STAT_ACT_VALID g) (SLOT.GRP_STAT_ACTIVE_PAGE g) _ rfl (by norm_num) (by norm_num) (.inl (by norm_num)),
      ha, Chan.getF_putF_same _ _ (SLOT.GRP_STAT_ACTIVE_PAGE g) _ (by norm_num) (by norm_num)]
    exact Nat.mod_eq_of_lt hpage
  · rw [hb]
    exact Chan.getB_putB_same a pgSlot (SLOT.GRP_STAT_ACT_VALID g) ok (by norm_num) (by norm_num)
  · rw [hb, Chan.putB, Chan.slotField_ne _ (SLOT.GRP_STAT_ACT_VALID g) (SLOT.GRP_STAT_FB_ACTIVE g) _ rfl (by norm_num) (by norm_num) (.inr (by norm_num)),
      ha, Chan.slotField_ne _ (SLOT.GRP_STAT_ACTIVE_PAGE g) (SLOT.GRP_STAT_FB_ACTIVE g) _ rfl (by norm_num) (by norm_num) (.inr (by norm_num))]
  · rw [Chan.slotCause_journal]
    exact Chan.cause_raise _ pgSlot (by decide)

end PageShown

/-- What SLOT shows after a page has become active: fallback stands where the page was not valid. -/
theorem Chan.activatePage_shown (ch : Chan) {g : Nat} (hg : g < 8) : PageShown g (1 - ch.getF pgSlot (SLOT.GRP_STAT_ACTIVE_PAGE g))
    (ch.getB pgSlot (SLOT.GRP_STAT_STBY_VALID g)) (!(ch.getB pgSlot (SLOT.GRP_STAT_STBY_VALID g))) (ch.activatePage g) := by
  have hK := slotReg_flexKey (slotStat_flex hg).1 (slotStat_flex hg).2
  have hstart := PageShown.start hg ch (page := 1 - ch.getF pgSlot (SLOT.GRP_STAT_ACTIVE_PAGE g)) (by omega) (ch.getB pgSlot (SLOT.GRP_STAT_STBY_VALID g))
  unfold Chan.activatePage
  dsimp only
  cases hok : ch.getB pgSlot (SLOT.GRP_STAT_STBY_VALID g)
  · rw [hok] at hstart
    exact hstart.toFallback hg 1
  · rw [hok] at hstart
    rw [if_neg (by decide)]
    split
    · have hclear := hstart.putFallback false 0
      refine hclear.of_stat (FlexAside.journal hK _ _ _ _ _) ?_
      rw [Chan.slotCause_journal]
      exact hclear.cause
    · rename_i hfb
      rw [Bool.not_eq_true] at hfb
      rwa [hfb] at hstart

/-- What is read of the registers alone. -/
theorem Chan.expCal_congr {a b : Chan} (h : b.regs = a.regs) (g c j : Nat) : b.expCal g c j = a.expCal g c j := 
  congrArg (fun r => Chan.expCal { ({} : Chan) with regs := r } g c j) h

theorem Chan.getF_regs {a b : Chan} (h : b.regs = a.regs) (p : Pg) (f : Fld) : b.getF p f = a.getF p f :=
  congrArg (fun r => fld (rget chanReset r (p.key f.off)) f.hi f.lo) h

theorem Chan.isMember_lt {ch : Chan} {g k : Nat} (h : ch.isMember g k = true) : k < 8 := by
  rw [Chan.isMember, Bool.and_eq_true] at h
  exact mem_allBelow_lt (List.contains_iff_mem.1 h.2)

theorem Chan.grp_putGrp_same (ch : Chan) (g : Nat) (x : FlexGrp) : (ch.putGrp g x).grp g = x := tget_tput_same _ _ _ _

/-! GRP_CTRL asks for a calendar (R242, R244). -/

open Sys2Proof.Tests

theorem not_inHeader_flex {off : Nat} (h : 0x100 ≤ off) (hhi : off < 65536) : ¬ InHeader pgFlex (pgFlex.key off) := by
  rw [InHeader, pgFlex_key, pgFlex_key, pgFlex_key]
  omega

theorem findReg_grpCtrl {g : Nat} (hg : g < 8) : findReg .flex (FLEX.GRP_CTRL g) = some (Wit.hit .flex (FLEX.GRP_CTRL 0)) := by
  interval_cases g <;> rfl

theorem wordLegal_grpCtrl {g : Nat} (hg : g < 8) (v : Word) : wordLegal .flex (FLEX.GRP_CTRL g) (Wit.hit .flex (FLEX.GRP_CTRL 0)) v = true := by
  interval_cases g <;> rfl

/-- PF0 asks for a calendar: what GRP_CTRL holds then, `m`, is no matter. -/
theorem exec_calSwitchReq {s : State} {c : Fin 4} {g target : Nat} (hr : HostReady s c) (hg : g < 8) (ht : target < 2) :
    ∃ (t : State) (f : Chan → Chan) (m : Word), HeaderStep pgFlex c s t ∧ exec (.calSwitchReq (.func 0) c g target) s = .next (t.runChan c f) ∧
      f (t.chan c) = (((t.chan c).put pgFlex (FLEX.GRP_CTRL g) m).calRequest g target).getD ((t.chan c).flexRefuse g 9) := by
  have hg8 : g % 8 = g := Nat.mod_eq_of_lt hg
  have ht2 : target % 2 = target := Nat.mod_eq_of_lt ht
  obtain ⟨t, w, hstep, hp, hoff, hv, -, hrun⟩ := State.hook_pf0 hr (p := pgFlex) rfl (grpCtrlHook g) (BitVec.ofNat 32 (2 ^ 31 + target * 2 ^ 8))
    (findReg_grpCtrl hg) rfl rfl rfl (wordLegal_grpCtrl hg _)
  refine ⟨t, grpCtrlHook g w, w.merged, hstep, ?_, ?_⟩
  · rw [← hrun]
    show Host.Outcome.next (s.chanWrite (grpCtrlHook (g % 8)) true (.func 0) c pgFlex (FLEX.GRP_CTRL (g % 8))
      (BitVec.ofNat 32 (2 ^ 31 + target % 2 * 2 ^ 8))) = _
    rw [hg8, ht2]
  · have hbit : bit w.v 31 = true := by
      rw [hv]
      interval_cases target <;> decide
    have hfld : fld w.v 8 8 = target := by
      rw [hv]
      interval_cases target <;> decide
    simp only [grpCtrlHook]
    rw [if_pos hbit, hfld, hp, hoff]
    cases (((t.chan c).put pgFlex (FLEX.GRP_CTRL g) w.merged).calRequest g target) <;> rfl

/-- A write of GRP_CTRL, and what the page's header shows, leave GRP_STAT. -/
theorem HeaderStep.grpStat {s t : State} {c : Fin 4} (h : HeaderStep pgFlex c s t) {g : Nat} (hg : g < 8) (m : Word) {F : Fld} (hF : F.off = FLEX.GRP_STAT g) :
    ((t.chan c).put pgFlex (FLEX.GRP_CTRL g) m).getF pgFlex F = (s.chan c).getF pgFlex F := by
  rw [← h.chan.getF (f := F) (by rw [hF]; exact not_inHeader_flex (grpStat_flex hg).1 (grpStat_flex hg).2), Chan.getF, Chan.getF, Chan.get_put_ne]
  rw [hF, pgFlex_key, pgFlex_key]
  simp only [FLEX.GRP_STAT, FLEX.GRP_CTRL]
  omega

/-- The request stands. -/
def Chan.calAsked (ch : Chan) (g target : Nat) : Chan :=
  (ch.putF pgFlex (FLEX.GRP_STAT_PENDING g) 1).putGrp g { ch.grp g with
    target := target, ready := !(ch.getB pgFlex (FLEX.GRP_CFG_HANDSHAKE g)), since := ch.ns }

theorem Chan.calAsked_shows (ch : Chan) (g target : Nat) : (ch.calAsked g target).getB pgFlex (FLEX.GRP_STAT_PENDING g) = true ∧
    ((ch.calAsked g target).grp g).target = target ∧ (ch.calAsked g target).outQ = ch.outQ := by
  refine ⟨Chan.getB_putB_same ch pgFlex (FLEX.GRP_STAT_PENDING g) true (by norm_num) (by norm_num), ?_, rfl⟩
  rw [Chan.calAsked, Chan.grp_putGrp_same]

section
variable {ch : Chan} {g target : Nat}

theorem Chan.calRequest_refused (h : ch.grpState g ≠ 3 ∨ ch.getB pgFlex (FLEX.GRP_STAT_PENDING g) = true) : ch.calRequest g target = none := if_pos h

variable (hst : ch.grpState g = 3) (hp : ch.getB pgFlex (FLEX.GRP_STAT_PENDING g) = false)
include hst hp

theorem Chan.calRequest_inUse (h : target = ch.txLetter g) : ch.calRequest g target = some ch := by
  unfold Chan.calRequest
  rw [if_neg (by rw [hst, hp]; decide), if_pos h]

theorem Chan.calRequest_asked (h : target ≠ ch.txLetter g) : ch.calRequest g target = some ((ch.calAsked g target).emit (.wire 2 [g, target] [])) := by
  unfold Chan.calRequest
  rw [if_neg (by rw [hst, hp]; decide), if_neg h]
  rfl

end

end Sys2Proof.Machine

namespace Sys2Proof.Proofs

open Sys2Proof Sys2Proof.Machine

/-- An event of FlexE or of the slot switch, whose work and registers the module shows. -/
theorem completes_flex {i : Instr} {s : State} {c : Fin 4} {f : Chan → Chan} {y : Chan} {P : State → Prop} (hr : Ready s c)
    (hi : exec i s = .next (s.onLive c f)) (hf : f (s.chan c) = y) (ho : NoFatal y.outQ) (hP : ∀ u : State, FlexAside FlexKey y (u.chan c) → P u) :
    Completes i s P :=
  ⟨_, hi, hP _ (FlexAside.of_calm (by rw [← hf, State.onLive_of_ready hr]; exact State.runChan_calm (by rwa [hf])))⟩

/-- An overhead frame of a member whose checksum is right. -/
theorem exec_ohFrame {s : State} {c : Fin 4} {g k : Nat} (hk : (s.chan c).isMember g k = true) (calC cr ca : Nat) (labels : List (Nat × Nat)) :
    ∃ f, f (s.chan c) = (((((s.chan c).calSeen g calC).emit (.wire 3 [g, k, cr % 2] [])).ackSeen g ca).each
      (labels.filter (fun l => (s.chan c).slotMember g l.1 == some k)) (fun c l => c.labelRx g l.1 (l.2 % 65536))).clientsSettle g ∧
      exec (.ohFrameRx c g k true calC cr ca labels) s = .next (s.onLive c f) := by
  refine ⟨_, ?_, rfl⟩
  dsimp only
  rw [if_neg (by rw [hk]; decide), if_neg (by decide)]
  rfl

section
variable {s : State} {c : Fin 4} {g : Nat} (hr : Ready s c) (hg : g < 8)
include hr hg

theorem completes_memberDefect {k : Nat} (hk : (s.chan c).isMember g k = true) (lof lom gidm pidm rpf los : Bool) :
    Completes (.flexeMemberDefect c g k lof lom gidm pidm rpf los) s (fun u =>
      fld ((u.chan c).get pgFlex (FLEX.MEMBER_STAT g k)) 31 26 =
        b2n lof * 32 + b2n lom * 16 + b2n gidm * 8 + b2n pidm * 4 + b2n rpf * 2 + b2n los) := by
  have hk8 := Chan.isMember_lt hk
  have hlo : 0x100 ≤ FLEX.MEMBER_STAT g k := by simp only [FLEX.MEMBER_STAT]; omega
  have hhi : FLEX.MEMBER_STAT g k < 65536 := by simp only [FLEX.MEMBER_STAT]; omega
  have hK := flexReg_flexKey hlo hhi
  obtain ⟨v, hv⟩ : ∃ v, v = b2n lof * 32 + b2n lom * 16 + b2n gidm * 8 + b2n pidm * 4 + b2n rpf * 2 + b2n los := ⟨_, rfl⟩
  have hlt : v < 64 := by
    have hb : ∀ b : Bool, b2n b ≤ 1 := by decide
    have h1 := hb lof
    have h2 := hb lom
    have h3 := hb gidm
    have h4 := hb pidm
    have h5 := hb rpf
    have h6 := hb los
    omega
  obtain ⟨f, x, hx, hf, hexec⟩ : ∃ f x, FlexAside (FlexReg (FLEX.MEMBER_STAT g k)) ((s.chan c).put pgFlex (FLEX.MEMBER_STAT g k)
      (setFld ((s.chan c).get pgFlex (FLEX.MEMBER_STAT g k)) 31 26 v)) x ∧ f (s.chan c) = x.grpSettle g ∧
      exec (.flexeMemberDefect c g k lof lom gidm pidm rpf los) s = .next (s.onLive c f) := by
    rw [hv]
    exact ⟨_, _, .ite (fun _ => (FlexAside.markDef _ _).trans (FlexAside.markDef _ _)) (fun _ => .refl _), if_pos hk, rfl⟩
  have hgrp : Shows (FlexReg (FLEX.MEMBER_STAT g k)) x (x.grpSettle g) := by
    refine Shows.grpSettle hK (fun h => ?_) x (fun n hn h => ?_)
    · have hoff := flexReg_iff.1 h
      simp only [FLEX.MEMBER_STAT, FLEX.GRP_STAT] at hoff
      omega
    · have hoff := flexReg_iff.1 h
      simp only [FLEX.MEMBER_STAT, FLEX.CLIENT_STAT] at hoff
      omega
  refine completes_flex hr hexec hf (hgrp.outs (hx.outs (noFatal_of_nil hr.2))) (fun u hu => ?_)
  rw [hu.get (flexKey_flex hlo hhi), hgrp.get rfl, hx.get rfl, Chan.get_put_same, fld_setFld_same _ _ _ _ (by decide) (by decide), ← hv]
  exact Nat.mod_eq_of_lt hlt

theorem completes_ohFrame_crc {k : Nat} (hk : (s.chan c).isMember g k = true) (calC cr ca : Nat) :
    Completes (.ohFrameRx c g k false calC cr ca []) s (fun u =>
      (u.chan c).getB pgFlex (FLEX.MEMBER_STAT_OH_CRC g k) = true ∧ (u.chan c).rxLetter g = (s.chan c).rxLetter g) := by
  have hk8 := Chan.isMember_lt hk
  have hK : ∀ key, FlexKey key → FlexKey key := fun _ h => h
  obtain ⟨f, hx, hexec⟩ : ∃ f, FlexAside FlexKey ((s.chan c).putF pgFlex (FLEX.MEMBER_STAT_OH_CRC g k) 1) (f (s.chan c)) ∧
      exec (.ohFrameRx c g k false calC cr ca []) s = .next (s.onLive c f) := by
    refine ⟨_, ?_, rfl⟩
    dsimp only
    rw [if_neg (by rw [hk]; decide), if_pos (by decide)]
    exact .ite (fun _ => FlexAside.tally hK _ _ _ _ _) (fun _ => (FlexAside.tally hK _ _ _ _ _).trans (FlexAside.raise hK _ _ rfl rfl))
  refine completes_flex hr hexec rfl (hx.outs (noFatal_of_nil hr.2)) (fun u hu => ?_)
  have hall := hx.trans hu
  refine ⟨(Chan.getB_congr (hall.getF (flexKey_flex (by simp only; omega) (by simp only; omega)))).trans
    (Chan.getB_putB_same (s.chan c) pgFlex (FLEX.MEMBER_STAT_OH_CRC g k) true (by norm_num) (by norm_num)), ?_⟩
  refine (hall.getF (flexKey_flex (by simp only; omega) (by simp only; omega))).trans (Chan.getF_putF_ne _ _ ?_)
  rw [pgFlex_key, pgFlex_key]
  simp only
  omega

/-- An overhead frame without labels: the received calendar, and the acknowledge. -/
theorem completes_ohFrame {k : Nat} (hk : (s.chan c).isMember g k = true) (calC cr ca : Nat) :
    Completes (.ohFrameRx c g k true calC cr ca []) s (fun u => (u.chan c).rxLetter g = calC % 2 ∧
      ((s.chan c).getB pgFlex (FLEX.GRP_STAT_PENDING g) = true → (s.chan c).getB pgFlex (FLEX.GRP_CFG_HANDSHAKE g) = true →
        ca % 2 = ((s.chan c).grp g).target → ((u.chan c).grp g).ready = true)) := by
  obtain ⟨hlo, hhi⟩ := grpStat_flex hg
  obtain ⟨x, hx⟩ : ∃ x, x = ((s.chan c).calSeen g calC).emit (.wire 3 [g, k, cr % 2] []) := ⟨_, rfl⟩
  obtain ⟨f, hf, hexec⟩ := exec_ohFrame hk calC cr ca []
  have hf : f (s.chan c) = (x.ackSeen g ca).clientsSettle g := by
    rw [hf, hx]
    rfl
  obtain ⟨hletter, hgrp, hpend, hhand, hout⟩ := (s.chan c).calSeen_letter hg calC
  obtain ⟨hregs, -, hq⟩ := x.ackSeen_kept g ca
  have hcl := Chan.clientsSettle_stat hg (x.ackSeen g ca)
  have hplain : NoFatal (x.ackSeen g ca).outQ := by
    rw [hq, hx]
    exact (Spares.emit (K := FlexKey) (strip := id) _ rfl).outs (hout (noFatal_of_nil hr.2))
  refine completes_flex hr hexec hf (hcl.outs hplain) (fun u hu => ⟨?_, fun hp hh hca => ?_⟩)
  · refine (((hu.getF (f := FLEX.GRP_STAT_RX_CAL g) (flexKey_flex hlo hhi)).trans (hcl.getF rfl)).trans (Chan.getF_regs hregs _ _)).trans ?_
    rw [hx]
    exact hletter
  · have hack : x.ackSeen g ca = x.putGrp g { x.grp g with ready := true } := if_pos (by
      have hp' : x.getB pgFlex (FLEX.GRP_STAT_PENDING g) = true := by rw [hx]; exact hpend.trans hp
      have hh' : x.getB pgFlex (FLEX.GRP_CFG_HANDSHAKE g) = true := by rw [hx]; exact hhand.trans hh
      have ht' : ca % 2 = (x.grp g).target := by rw [hx]; exact hca.trans (congrArg FlexGrp.target hgrp.symm)
      rw [hp', hh', ht', Bool.true_and, Bool.true_and]
      exact beq_self_eq_true _)
    rw [FlexAside.grp hu, FlexAside.grp hcl, hack, Chan.grp_putGrp_same]

/-- A label that a member's multiframe brings for a slot of its own. -/
theorem completes_label {k j id : Nat} (hk : (s.chan c).isMember g k = true) (hj : (s.chan c).slotMember g j = some k) (hid : id < 65536) (cr ca : Nat) :
    let bad := decide (id ≠ (s.chan c).expCal g ((s.chan c).rxLetter g) j)
    Completes (.ohFrameRx c g k true ((s.chan c).rxLetter g) cr ca [(j, id)]) s (fun u =>
      (u.chan c).labelMm g j = (if tget false (s.chan c).flex.turning (g * 640 + j) then bad else (s.chan c).labelMm g j) ∧
      (bad ≠ (s.chan c).labelMm g j → tget false (u.chan c).flex.turning (g * 640 + j) = !(tget false (s.chan c).flex.turning (g * 640 + j)))) := by
  intro bad
  have hj640 := Chan.slotMember_lt hj
  have hoff : 0x100 ≤ (labelBit g j).off ∧ (labelBit g j).off < 65536 := by
    simp only [labelBit, FLEX.LABEL_STAT]
    omega
  have hsame : (s.chan c).calSeen g ((s.chan c).rxLetter g) = s.chan c := if_pos (Nat.mod_eq_of_lt (fld_lt _ 28 28))
  obtain ⟨x, hx⟩ : ∃ x, x = (s.chan c).emit (.wire 3 [g, k, cr % 2] []) := ⟨_, rfl⟩
  obtain ⟨f, hf, hexec⟩ := exec_ohFrame hk ((s.chan c).rxLetter g) cr ca [(j, id)]
  rw [hsame, ← hx, List.filter_cons_of_pos (by simp only [hj]; exact beq_self_eq_true _), List.filter_nil] at hf
  obtain ⟨hregs, hturn, hq⟩ := x.ackSeen_kept g ca
  have hregs : (x.ackSeen g ca).regs = (s.chan c).regs := by rw [hregs, hx]; rfl
  have hturn : (x.ackSeen g ca).flex.turning = (s.chan c).flex.turning := by rw [hturn, hx]; rfl
  have hplain : NoFatal (x.ackSeen g ca).outQ := by
    rw [hq, hx]
    exact (Spares.emit (K := FlexKey) (strip := fun x => x) _ rfl).outs (noFatal_of_nil hr.2)
  obtain ⟨y, hy⟩ : ∃ y, y = x.ackSeen g ca := ⟨_, rfl⟩
  rw [← hy] at hf hregs hturn hplain
  obtain ⟨hlabel, hturning, hout⟩ := y.labelRx_slot hg hj640 id
  have hbad : decide (id ≠ y.expCal g (y.rxLetter g) j) = bad := by
    rw [Chan.rxLetter, Chan.getF_regs hregs, Chan.expCal_congr hregs]
    rfl
  have hmm : y.labelMm g j = (s.chan c).labelMm g j := Chan.getB_congr (Chan.getF_regs hregs _ _)
  rw [hbad, hmm, hturn] at hlabel hturning
  have hcl : FlexAside (FlexReg (labelBit g j).off) (y.labelRx g j id) ((y.labelRx g j id).clientsSettle g) := by
    refine FlexAside.clientsSettle (flexReg_flexKey hoff.1 hoff.2) _ g (fun n hn h => ?_)
    have hne := flexReg_iff.1 h
    simp only [labelBit, FLEX.LABEL_STAT, FLEX.CLIENT_STAT] at hne
    omega
  have hf : f (s.chan c) = (y.labelRx g j id).clientsSettle g := by
    rw [hf]
    show (y.labelRx g j (id % 65536)).clientsSettle g = _
    rw [Nat.mod_eq_of_lt hid]
  refine completes_flex hr hexec hf (hcl.outs (hout hplain)) (fun u hu => ⟨?_, fun hne => ?_⟩)
  · exact (Chan.getB_congr ((hu.getF (f := labelBit g j) (flexKey_flex hoff.1 hoff.2)).trans (hcl.getF rfl))).trans hlabel
  · rw [FlexAside.turning hu, FlexAside.turning hcl]
    exact hturning hne

theorem completes_aligned (hdef : (s.chan c).grpDefect g = none) (hst : (s.chan c).grpState g ≠ 3) :
    Completes (.groupAligned c g true) s (fun u => (u.chan c).grpState g = 3 ∧ (u.chan c).getB pgFlex (FLEX.GRP_STAT_SKEW g) = false) := by
  obtain ⟨hlo, hhi⟩ := grpStat_flex hg
  obtain ⟨f, hf, hexec⟩ : ∃ f, f (s.chan c) = (((s.chan c).putF pgFlex (FLEX.GRP_STAT_SKEW g) 0).grpTo g 3 0).clientsSettle g ∧
      exec (.groupAligned c g true) s = .next (s.onLive c f) := ⟨_, if_pos ⟨hg, by rw [hdef]; rfl, fun h => hst h.2⟩, rfl⟩
  obtain ⟨hup, hlow, hout⟩ := Chan.grpTo_stat hg ((s.chan c).putF pgFlex (FLEX.GRP_STAT_SKEW g) 0) 3 0
  have hcl := Chan.clientsSettle_stat hg (((s.chan c).putF pgFlex (FLEX.GRP_STAT_SKEW g) 0).grpTo g 3 0)
  refine completes_flex hr hexec hf (hcl.outs (hout (noFatal_of_nil hr.2))) (fun u hu => ⟨?_, ?_⟩)
  · exact ((hu.getF (f := FLEX.GRP_STAT_STATE g) (flexKey_flex hlo hhi)).trans (hcl.getF rfl)).trans hup
  · refine (Chan.getB_congr (((hu.getF (f := FLEX.GRP_STAT_SKEW g) (flexKey_flex hlo hhi)).trans (hcl.getF rfl)).trans (hlow _ rfl (by norm_num)))).trans ?_
    exact Chan.getB_putB_same (s.chan c) pgFlex (FLEX.GRP_STAT_SKEW g) false (by norm_num) (by norm_num)

theorem completes_skewed (hdef : (s.chan c).grpDefect g = none) :
    Completes (.groupAligned c g false) s (fun u => (u.chan c).grpState g = 1 ∧ (u.chan c).getB pgFlex (FLEX.GRP_STAT_SKEW g) = true) := by
  obtain ⟨hlo, hhi⟩ := grpStat_flex hg
  have hskew : ((s.chan c).putF pgFlex (FLEX.GRP_STAT_SKEW g) 1).getB pgFlex (FLEX.GRP_STAT_SKEW g) = true :=
    Chan.getB_putB_same (s.chan c) pgFlex (FLEX.GRP_STAT_SKEW g) true (by norm_num) (by norm_num)
  obtain ⟨up, hsettle⟩ := Chan.grpSettle_skewed ((Chan.grpDefect_putStat _ hg _ rfl 1).trans hdef) hskew
  obtain ⟨f, hf, hexec⟩ : ∃ f, f (s.chan c) = (((s.chan c).putF pgFlex (FLEX.GRP_STAT_SKEW g) 1).grpSettle g).markDef (32 + g) ∧
      exec (.groupAligned c g false) s = .next (s.onLive c f) :=
    ⟨_, (if_pos ⟨hg, by rw [hdef]; rfl, fun h => absurd h.1 (by decide)⟩).trans (if_neg Bool.false_ne_true), rfl⟩
  rw [hsettle] at hf
  obtain ⟨hup, hlow, hout⟩ := Chan.grpTo_stat hg (((s.chan c).putF pgFlex (FLEX.GRP_STAT_SKEW g) 1).putF pgFlex (FLEX.GRP_STAT_MEMBERS_UP g) up) 1 5
  have hcl := Chan.clientsSettle_stat hg (((((s.chan c).putF pgFlex (FLEX.GRP_STAT_SKEW g) 1).putF pgFlex
      (FLEX.GRP_STAT_MEMBERS_UP g) up).grpTo g 1 5).markDef (32 + g))
  refine completes_flex hr hexec hf (hcl.outs (hout (noFatal_of_nil hr.2))) (fun u hu => ⟨?_, ?_⟩)
  · exact ((hu.getF (f := FLEX.GRP_STAT_STATE g) (flexKey_flex hlo hhi)).trans (hcl.getF rfl)).trans hup
  · refine (Chan.getB_congr (((hu.getF (f := FLEX.GRP_STAT_SKEW g) (flexKey_flex hlo hhi)).trans (hcl.getF rfl)).trans
      ((hlow _ rfl (by norm_num)).trans ?_))).trans hskew
    exact Chan.getF_putF_word (f := FLEX.GRP_STAT_MEMBERS_UP g) _ _ _ rfl (by norm_num) (by norm_num) (.inl (by norm_num))

/-- A pending request switches the calendar (R242). -/
theorem completes_calSwitched (hp : (s.chan c).getB pgFlex (FLEX.GRP_STAT_PENDING g) = true) (hready : ((s.chan c).grp g).ready = true) :
    Completes (.calSwitchInstant c g) s (fun u => (u.chan c).txLetter g = ((s.chan c).grp g).target % 2 ∧
      (u.chan c).getB pgFlex (FLEX.GRP_STAT_PENDING g) = false ∧ (u.chan c).getF pgFlex (FLEX.GRP_STAT_LAST_SWITCH g) = 1) := by
  obtain ⟨hlo, hhi⟩ := grpStat_flex hg
  have hK := flexReg_flexKey hlo hhi
  obtain ⟨x, hx⟩ : ∃ x, x = (((s.chan c).putF pgFlex (FLEX.GRP_STAT_TX_CAL g) ((s.chan c).grp g).target).putF pgFlex (FLEX.GRP_STAT_PENDING g) 0).putF
      pgFlex (FLEX.GRP_STAT_LAST_SWITCH g) 1 := ⟨_, rfl⟩
  obtain ⟨f, hf, hexec⟩ : ∃ f, Shows (FlexReg (FLEX.GRP_STAT g)) x (f (s.chan c)) ∧ exec (.calSwitchInstant c g) s = .next (s.onLive c f) := by
    refine ⟨_, ?_, rfl⟩
    dsimp only
    rw [if_pos ⟨hg, hp, hready⟩, ← hx]
    have hlog : ∀ y d, Shows (FlexReg (FLEX.GRP_STAT g)) y (((y.tally pgFlex 0x11 { priv := some 0, agent := some g }).raise pgFlex 10).journal pgFlex
        clsNone 3 d) := fun y d => FlexAside.shows (((FlexAside.tally hK y pgFlex 0x11 _ 1).trans (FlexAside.raise hK _ pgFlex (b := 10) rfl rfl)).trans
      (FlexAside.journal hK _ pgFlex clsNone 3 d))
    have hpage : ∀ y : Chan, Shows (FlexReg (FLEX.GRP_STAT g)) y (if y.follows g then y.activatePage g else y) := fun y =>
      .ite (fun _ => (Stays.activatePage (pages := [pgSlot]) List.mem_cons_self hg y).spares (fun key hk => by
        rw [hk, Pg.key_div pgFlex hhi]
        decide)) (fun _ => .refl y)
    refine Spares.trans ?_ (FlexAside.shows (FlexAside.clientTests hK _ _ _))
    refine Spares.trans ?_ (FlexAside.shows (Chan.clientsSettle_stat hg _))
    refine Spares.trans ?_ (Spares.emit _ rfl)
    exact Spares.trans (Spares.trans (Shows.putGrp x g _) (hlog _ _)) (hpage _)
  have hplain : NoFatal x.outQ := by
    rw [hx]
    exact noFatal_of_nil hr.2
  refine completes_flex hr hexec rfl (hf.outs hplain) (fun u hu => ?_)
  have hget : ∀ F : Fld, F.off = FLEX.GRP_STAT g → (u.chan c).getF pgFlex F = x.getF pgFlex F := fun F hF =>
    (hu.getF (by rw [hF]; exact flexKey_flex hlo hhi)).trans (hf.getF (by rw [hF]; rfl))
  have hlast : ∀ (y : Chan) (F : Fld), F.off = FLEX.GRP_STAT g → F.hi < 32 → 26 < F.lo →
      (y.putF pgFlex (FLEX.GRP_STAT_LAST_SWITCH g) 1).getF pgFlex F = y.getF pgFlex F := fun y F hF h32 hlo =>
    Chan.getF_putF_word (f := FLEX.GRP_STAT_LAST_SWITCH g) _ _ _ hF (by norm_num) h32 (.inl hlo)
  refine ⟨(hget _ rfl).trans ?_, (Chan.getB_congr ((hget _ rfl).trans ?_)).trans (Chan.getB_putB_same ((s.chan c).putF pgFlex (FLEX.GRP_STAT_TX_CAL g)
    ((s.chan c).grp g).target) pgFlex (FLEX.GRP_STAT_PENDING g) false (by norm_num) (by norm_num)), (hget _ rfl).trans ?_⟩
  · rw [hx, hlast _ _ rfl (by norm_num) (by norm_num), Chan.getF_putF_word (f := FLEX.GRP_STAT_PENDING g) (g := FLEX.GRP_STAT_TX_CAL g) _ _ _ rfl
      (by norm_num) (by norm_num) (.inl (by norm_num)), Chan.getF_putF_same _ _ (FLEX.GRP_STAT_TX_CAL g) _ (by norm_num) (by norm_num)]
    norm_num
  · rw [hx, hlast _ _ rfl (by norm_num) (by norm_num)]
    rfl
  · rw [hx, Chan.getF_putF_same _ _ (FLEX.GRP_STAT_LAST_SWITCH g) _ (by norm_num) (by norm_num)]
    norm_num

theorem completes_caTimeout (hp : (s.chan c).getB pgFlex (FLEX.GRP_STAT_PENDING g) = true) (hready : ((s.chan c).grp g).ready = false) :
    Completes (.caTimeout c g) s (fun u => (u.chan c).txLetter g = (s.chan c).txLetter g ∧
      (u.chan c).getB pgFlex (FLEX.GRP_STAT_PENDING g) = false ∧ (u.chan c).getF pgFlex (FLEX.GRP_STAT_LAST_SWITCH g) = 2) := by
  obtain ⟨hlo, hhi⟩ := grpStat_flex hg
  obtain ⟨f, x, hticks, hf, hexec⟩ : ∃ f x, Ticks (s.chan c) x ∧ f (s.chan c) = x.calFail g 2 ∧ exec (.caTimeout c g) s = .next (s.onLive c f) :=
    ⟨_, _, Ticks.runTo _ _, if_pos ⟨hg, hp, hready⟩, rfl⟩
  have hclock := Shows.of_ticks hticks hlo hhi
  have hfail := Chan.calFail_stat hg x 2
  refine completes_flex hr hexec hf (hfail.outs (hticks.noFatal (noFatal_of_nil hr.2))) (fun u hu => ?_)
  have hget : ∀ F : Fld, F.off = FLEX.GRP_STAT g → (u.chan c).getF pgFlex F =
      ((x.putF pgFlex (FLEX.GRP_STAT_PENDING g) 0).putF pgFlex (FLEX.GRP_STAT_LAST_SWITCH g) 2).getF pgFlex F := fun F hF =>
    (hu.getF (by rw [hF]; exact flexKey_flex hlo hhi)).trans (hfail.getF (by rw [hF]; rfl))
  refine ⟨?_, ?_, ?_⟩
  · rw [Chan.txLetter, hget _ rfl, Chan.getF_putF_word (f := FLEX.GRP_STAT_LAST_SWITCH g) (g := FLEX.GRP_STAT_TX_CAL g) _ _ _ rfl (by norm_num)
      (by norm_num) (.inl (by norm_num)), Chan.getF_putF_word (f := FLEX.GRP_STAT_PENDING g) (g := FLEX.GRP_STAT_TX_CAL g) _ _ _ rfl (by norm_num) (by norm_num) (.inl (by norm_num)), hclock.getF (f := FLEX.GRP_STAT_TX_CAL g) rfl, Chan.txLetter]
  · refine (Chan.getB_congr ((hget _ rfl).trans
      (Chan.getF_putF_word (f := FLEX.GRP_STAT_LAST_SWITCH g) (g := FLEX.GRP_STAT_PENDING g) _ _ _ rfl (by norm_num) (by norm_num) (.inl (by norm_num))))).trans ?_
    exact Chan.getB_putB_same x pgFlex (FLEX.GRP_STAT_PENDING g) false (by norm_num) (by norm_num)
  · rw [hget _ rfl, Chan.getF_putF_same _ _ (FLEX.GRP_STAT_LAST_SWITCH g) _ (by norm_num) (by norm_num)]
    norm_num

omit hg in
theorem completes_clientLf {n : Nat} (hn : n < 128) (on : Bool) (hen : (s.chan c).getB pgFlex (FLEX.CLIENT_CFG_EN n) = true)
    (hmode : (s.chan c).getB pgFlex (FLEX.CLIENT_CFG_MODE n) = false) :
    Completes (.clientRxLf c n on) s (fun u => (u.chan c).getB pgFlex (FLEX.CLIENT_STAT_RX_LF n) = (on && (s.chan c).enabled pgFlex)) := by
  obtain ⟨f, hf, hexec⟩ : ∃ f, f (s.chan c) = ((s.chan c).putB pgFlex (FLEX.CLIENT_STAT_RX_LF n) on).clientSettle n ∧
      exec (.clientRxLf c n on) s = .next (s.onLive c f) := ⟨_, if_pos ⟨hn, hen, hmode⟩, rfl⟩
  obtain ⟨hlf, hout⟩ := Chan.clientSettle_rxLf ((s.chan c).putB pgFlex (FLEX.CLIENT_STAT_RX_LF n) on) hn
  have hother : ∀ F : Fld, F.off ≠ FLEX.CLIENT_STAT n → ((s.chan c).putB pgFlex (FLEX.CLIENT_STAT_RX_LF n) on).getB pgFlex F = (s.chan c).getB pgFlex F :=
    fun F hF => Chan.getB_congr (Chan.getF_putF_ne _ _ (by rw [pgFlex_key, pgFlex_key]; simp only [FLEX.CLIENT_STAT] at hF; simp only; omega))
  refine completes_flex hr hexec hf (hout (noFatal_of_nil hr.2)) (fun u hu => ?_)
  refine (Chan.getB_congr (hu.getF (f := FLEX.CLIENT_STAT_RX_LF n) (flexKey_flex (by simp only; omega) (by simp only; omega)))).trans (hlf.trans ?_)
  rw [Chan.getB_putB_same _ _ (FLEX.CLIENT_STAT_RX_LF n) _ (by norm_num) (by norm_num), hother (FLEX.CLIENT_CFG_EN n) (by simp only [FLEX.CLIENT_STAT]; omega),
    hen, Bool.true_and, Bool.and_comm, Chan.enabled, Chan.enabled, hother CTRL_ENABLE (by simp only [FLEX.CLIENT_STAT]; omega)]
  rfl

end

/-! A calendar switch is asked for (R242, R244). -/

section
variable {s : State} {c : Fin 4} {g : Nat} (hr : HostReady s c) (hg : g < 8) {target : Nat} (ht : target < 2)
include hr hg ht

theorem completes_calRefused (h : (s.chan c).grpState g ≠ 3 ∨ (s.chan c).getB pgFlex (FLEX.GRP_STAT_PENDING g) = true) :
    Completes (.calSwitchReq (.func 0) c g target) s (fun u =>
      (u.chan c).nat pgFlex FLEX.REFUSE = g * 2 ^ 8 + 9 ∧ workOf (u.chan c) = workOf (s.chan c)) := by
  obtain ⟨t, f, m, hstep, hexec, hf⟩ := exec_calSwitchReq hr hg ht
  have hwas : ((t.chan c).put pgFlex (FLEX.GRP_CTRL g) m).grpState g ≠ 3 ∨
      ((t.chan c).put pgFlex (FLEX.GRP_CTRL g) m).getB pgFlex (FLEX.GRP_STAT_PENDING g) = true :=
    h.imp (fun h => by rwa [Chan.grpState, hstep.grpStat hg m rfl]) (fun h => (Chan.getB_congr (hstep.grpStat hg m rfl)).trans h)
  rw [Chan.calRequest_refused hwas] at hf
  have hhead : HeaderOnly pgFlex ((t.chan c).putN pgFlex FLEX.REFUSE (g * 2 ^ 8 + 9)) ((t.chan c).flexRefuse g 9) := .raiseMask _ _ rfl rfl
  obtain ⟨-, hchan⟩ := hstep.answers (pages := [pgFlex]) (strip := id) List.mem_cons_self hr.1.2 hf
    ((Stays.put _ List.mem_cons_self _ (by decide)).trans (.raise _ List.mem_cons_self _)) hhead.onlyIrqs
  refine ⟨_, hexec, ?_, ?_⟩
  · rw [hchan, Chan.nat_clear, Chan.nat, Option.getD_none, hhead.get (not_inHeader_flex (by decide) (by decide)), Chan.putN, Chan.get_put_same, BitVec.toNat_ofNat]
    exact Nat.mod_eq_of_lt (by omega)
  · rw [hchan, workOf_clear]
    exact hhead.work.trans hstep.chan.work

variable (hst : (s.chan c).grpState g = 3) (hp : (s.chan c).getB pgFlex (FLEX.GRP_STAT_PENDING g) = false)
include hst hp

theorem completes_calAsked (hne : target ≠ (s.chan c).txLetter g) : Completes (.calSwitchReq (.func 0) c g target) s (fun u =>
    (u.chan c).getB pgFlex (FLEX.GRP_STAT_PENDING g) = true ∧ ((u.chan c).grp g).target = target) := by
  obtain ⟨t, f, m, hstep, hexec, hf⟩ := exec_calSwitchReq hr hg ht
  obtain ⟨hlo, hhi⟩ := grpStat_flex hg
  rw [Chan.calRequest_asked ((hstep.grpStat hg m rfl).trans hst) ((Chan.getB_congr (hstep.grpStat hg m rfl)).trans hp)
    (fun h => hne (h.trans (hstep.grpStat hg m rfl))), Option.getD_some] at hf
  obtain ⟨x, hx⟩ : ∃ x, x = ((t.chan c).put pgFlex (FLEX.GRP_CTRL g) m).calAsked g target := ⟨_, rfl⟩
  obtain ⟨hpend, htarget, hquiet⟩ := Chan.calAsked_shows ((t.chan c).put pgFlex (FLEX.GRP_CTRL g) m) g target
  rw [← hx] at hf hpend htarget hquiet
  have hwire : FlexAside FlexKey x (f (t.chan c)) := hf ▸ Spares.emit x rfl
  have hplain : NoFatal (f (t.chan c)).outQ := hwire.outs (by rw [hquiet]; exact hstep.chan.noFatal (noFatal_of_nil hr.1.2))
  have hu := hwire.trans (FlexAside.of_calm (State.runChan_calm (s := t) (c := c) hplain))
  refine ⟨_, hexec, ?_, ?_⟩
  · exact (Chan.getB_congr (hu.getF (f := FLEX.GRP_STAT_PENDING g) (flexKey_flex hlo hhi))).trans hpend
  · exact (congrArg FlexGrp.target (FlexAside.grp hu g)).trans htarget

theorem completes_calInUse (he : target = (s.chan c).txLetter g) : Completes (.calSwitchReq (.func 0) c g target) s (fun u =>
    workOf (u.chan c) = workOf (s.chan c) ∧ (u.chan c).getB pgFlex (FLEX.GRP_STAT_PENDING g) = false) := by
  obtain ⟨t, f, m, hstep, hexec, hf⟩ := exec_calSwitchReq hr hg ht
  obtain ⟨hlo, hhi⟩ := grpStat_flex hg
  have hpend : ((t.chan c).put pgFlex (FLEX.GRP_CTRL g) m).getB pgFlex (FLEX.GRP_STAT_PENDING g) = false := (Chan.getB_congr (hstep.grpStat hg m rfl)).trans hp
  rw [Chan.calRequest_inUse ((hstep.grpStat hg m rfl).trans hst) hpend (he.trans (hstep.grpStat hg m rfl).symm), Option.getD_some] at hf
  obtain ⟨-, hchan⟩ := hstep.answers (pages := [pgFlex]) (strip := id) List.mem_cons_self hr.1.2 hf
    (Stays.put _ List.mem_cons_self _ (by simp only [FLEX.GRP_CTRL]; omega)) (fun h => h)
  refine ⟨_, hexec, ?_, ?_⟩
  · rw [hchan, workOf_clear]
    exact hstep.chan.work
  · rw [hchan]
    exact hpend

end

section
variable {s : State} {c : Fin 4} {g : Nat} (hr : Ready s c)
include hr

/-- A requested page becomes active. -/
theorem completes_pageSwitch (hg : g < 8) (hen : (s.chan c).enabled pgSlot = true) (hon : (s.chan c).grpOn g = true)
    (hreq : ((s.chan c).grp g).pageReq = true) : Completes (.pageSwitchInstant c g) s (fun u => SlotFrame s u c ∧
      PageShown g (1 - (s.chan c).getF pgSlot (SLOT.GRP_STAT_ACTIVE_PAGE g)) ((s.chan c).getB pgSlot (SLOT.GRP_STAT_STBY_VALID g))
        (!((s.chan c).getB pgSlot (SLOT.GRP_STAT_STBY_VALID g))) (u.chan c) ∧ ((u.chan c).grp g).pageReq = false) := by
  obtain ⟨f, hf, hexec⟩ : ∃ f, f (s.chan c) = ((s.chan c).putGrp g { (s.chan c).grp g with pageReq := false }).activatePage g ∧
      exec (.pageSwitchInstant c g) s = .next (s.onLive c f) := ⟨_, if_pos ⟨hg, hon, hen, hreq⟩, rfl⟩
  obtain ⟨x, hx⟩ : ∃ x, x = (s.chan c).putGrp g { (s.chan c).grp g with pageReq := false } := ⟨_, rfl⟩
  have hgrp : Stays [pgSlot, pgPm, pgKeepA, pgKeepB] slotStrip (s.chan c) x := hx ▸ Stays.of_work rfl rfl rfl
  have hpage : ∀ {pages : List Pg} {strip : Chan → Chan}, pgSlot ∈ pages → Stays pages strip x (x.activatePage g) := fun hp => .activatePage hp hg x
  have hreq' : (x.grp g).pageReq = false := by rw [hx, Chan.grp_putGrp_same]
  have hregs : x.regs = (s.chan c).regs := by rw [hx]; rfl
  have hshown := x.activatePage_shown hg
  rw [Chan.getF_regs hregs, Chan.getB_congr (Chan.getF_regs hregs pgSlot (SLOT.GRP_STAT_STBY_VALID g))] at hshown
  rw [← hx] at hf
  obtain ⟨hkeeps, hcalm⟩ := State.onLive_stays hr (hf ▸ hgrp.trans (hpage List.mem_cons_self))
  rw [hf] at hcalm
  have hu := FlexAside.of_calm hcalm
  obtain ⟨hlo, hhi⟩ := slotStat_flex hg
  refine ⟨_, hexec, hkeeps, (hshown.of_stat (hu.mono (fun key h => slotReg_flexKey hlo hhi key h)) ?_), ?_⟩
  · rw [calm_get hcalm (by decide) (by decide)]
    exact hshown.cause
  · have hflex : (x.activatePage g).flex = x.flex := (hpage (pages := [pgSlot]) (strip := id) List.mem_cons_self).flex
    have hcflex : ((s.onLive c f).chan c).flex = (x.activatePage g).flex := Stays.flex hcalm
    rw [Chan.grp, hcflex, hflex]
    exact hreq'

end

/-- Settles O46 (R240–R244, R246–R249): what a member, a calendar request and a client's local fault leave in the group's registers, and the commands
that change nothing. -/
theorem flexeGroupsAndCalendars : Obligations.FlexeGroupsAndCalendars := by
  refine ⟨fun s c g hg => ⟨fun hr k hk => ⟨fun lof lom gidm pidm rpf los => completes_memberDefect hr hg hk lof lom gidm pidm rpf los,
      fun calC cr ca => completes_ohFrame_crc hr hg hk calC cr ca, fun calC cr ca => completes_ohFrame hr hg hk calC cr ca⟩,
    fun hr hdef hst => ⟨completes_aligned hr hg hdef hst, completes_skewed hr hg hdef⟩,
    fun target ht hr hne hp => ⟨fun hst => completes_calAsked hr hg ht hst hp hne, fun hst => completes_calRefused hr hg ht (.inl hst)⟩,
    fun hr hp => ⟨fun hready => completes_calSwitched hr hg hp hready, fun hready => completes_caTimeout hr hg hp hready⟩,
    fun n on hr hn hon hen hmode => ?_⟩,
    fun s c g hg => ⟨fun hr => ⟨fun k lof lom gidm pidm rpf los hk => ?_, fun k crc calC cr ca labels hk => ?_,
      fun k cr ca j id hk hj hid => completes_label hr hg hk hj hid cr ca, fun ok hdef => ?_, fun hst => ?_, fun hdef => completes_skewed hr hg hdef,
      fun hno => ?_, fun hno => ?_, fun n on hno => ?_, fun n on hn hen hmode => completes_clientLf hr hn on hen hmode, fun hno => ?_, fun hno => ?_,
      fun slot hno => ?_, fun hen hon hreq => ?_⟩,
    fun hr target ht => ⟨fun hp => completes_calRefused hr hg ht (.inr hp), fun he hst hp => completes_calInUse hr hg ht hst hp he⟩⟩⟩
  · obtain ⟨u, hexec, hlf⟩ := completes_clientLf hr hn on hen hmode
    exact ⟨u, hexec, hlf.trans (by rw [hon, Bool.and_true])⟩
  · exact completes_same hr (f := fun ch => _) rfl (if_neg (by rw [hk]; decide))
  · exact completes_same hr (f := fun ch => _) rfl (if_pos hk)
  · refine completes_same hr (f := fun ch => _) rfl (if_neg (fun h => hdef ?_))
    exact Option.isNone_iff_eq_none.1 h.2.1
  · exact completes_same hr (f := fun ch => _) rfl (if_neg (fun h => h.2.2 ⟨rfl, hst⟩))
  · refine completes_same hr (f := fun ch => _) rfl (if_neg ?_)
    rintro ⟨-, hp, hready⟩
    rcases hno with h | h
    · exact absurd (h.symm.trans hp) (by decide)
    · exact absurd (h.symm.trans hready) (by decide)
  · refine completes_same hr (f := fun ch => _) rfl (if_neg ?_)
    rintro ⟨-, hp, hready⟩
    rcases hno with h | h
    · exact absurd (h.symm.trans hp) (by decide)
    · exact absurd (h.symm.trans hready) (by decide)
  · refine completes_same hr (f := fun ch => _) rfl (if_neg ?_)
    rintro ⟨hn, hen, hmode⟩
    rcases hno with h | h | h
    · exact absurd hn (Nat.not_lt.2 h)
    · exact absurd (h.symm.trans hen) (by decide)
    · exact absurd (h.symm.trans hmode) (by decide)
  · refine completes_same hr (f := fun ch => _) rfl (if_neg ?_)
    rintro ⟨-, hen, hval⟩
    rcases hno with h | h
    · exact absurd (h.symm.trans hen) (by decide)
    · exact absurd (h.symm.trans hval) (by decide)
  · refine completes_same hr (f := fun ch => _) rfl (if_neg ?_)
    rintro ⟨-, hon, hen, hreq⟩
    rcases hno with h | h | h
    · exact absurd (h.symm.trans hen) (by decide)
    · exact absurd (h.symm.trans hon) (by decide)
    · exact absurd (h.symm.trans hreq) (by decide)
  · refine completes_same hr (f := fun ch => _) rfl (if_neg ?_)
    rintro ⟨-, hslot, hon, hen, hfb⟩
    rcases hno with h | h | h | h
    · exact absurd (h.symm.trans hen) (by decide)
    · exact absurd (h.symm.trans hon) (by decide)
    · exact absurd hslot (Nat.not_lt.2 h)
    · exact absurd (h.symm.trans hfb) (by decide)
  · obtain ⟨u, hexec, hframe, hshown, -⟩ := completes_pageSwitch hr hg hen hon hreq
    exact ⟨u, hexec, hframe, hshown.page, hshown.valid, hshown.fallback, hshown.cause⟩

end Sys2Proof.Proofs
end

/-! The slot switch: connection memory, commits, switches and parity errors (R245–R248). -/

section
set_option Elab.async false
namespace Sys2Proof.Machine

open Sys2Proof.Tests

/-- The pages of the frame of the slot switch and performance monitoring. -/
abbrev slotPages : List Pg := [pgSlot, pgPm, pgKeepA, pgKeepB]

theorem mem_slotPages : pgSlot ∈ slotPages := List.mem_cons_self

/-! The registers that are written. -/

/-- An offset past the end of a row. -/
theorem RegD.hits_past {r : RegD} {off : Nat} (h : r.base + r.s1 * (r.n1 - 1) + r.s2 * (r.n2 - 1) < off) : r.hits off = false := by
  have h1 : r.s1 * (if r.n1 ≤ 1 then 0 else min ((off - r.base) / r.s1) (r.n1 - 1)) ≤ r.s1 * (r.n1 - 1) := by
    refine Nat.mul_le_mul_left _ ?_
    split <;> omega
  have h2 : ∀ e, r.s2 * (if r.n2 ≤ 1 then 0 else min (e / r.s2) (r.n2 - 1)) ≤ r.s2 * (r.n2 - 1) := fun e => by
    refine Nat.mul_le_mul_left _ ?_
    split <;> omega
  have h3 := h2 (off - r.base - r.s1 * (if r.n1 ≤ 1 then 0 else min ((off - r.base) / r.s1) (r.n1 - 1)))
  unfold RegD.hits
  rw [if_neg (by omega)]
  dsimp only
  rw [beq_eq_false_iff_ne]
  omega

/-- The row of the connection memory (R259). -/
def connRow : RegD := ⟨0x4000, 4, 10240, 0, 1, 0, false, [⟨31, 30, .mw, []⟩, ⟨26, 24, .mw, []⟩, ⟨9, 0, .mw, []⟩], []⟩

/-- The last row of SLOT is the connection memory; every other ends below it. -/
theorem allRegs_slot : ∃ l : List RegD, allRegs .slot = l ++ [connRow] ∧
    ∀ r ∈ l, r.base + r.s1 * (r.n1 - 1) + r.s2 * (r.n2 - 1) < 0x4000 := by
  refine ⟨(allRegs .slot).dropLast, by decide, by decide⟩

theorem findReg_conn {i : Nat} (h : i < 10240) : findReg .slot (0x4000 + 4 * i) = some ⟨connRow, false⟩ := by
  obtain ⟨l, hl, hpast⟩ := allRegs_slot
  have hnone : l.find? (fun r => r.hits (0x4000 + 4 * i)) = none := List.find?_eq_none.2 (fun r hr => by
    have := hpast r hr
    rw [RegD.hits_past (by omega)]
    decide)
  have hrow : connRow.hits (0x4000 + 4 * i) = true := by
    unfold RegD.hits connRow
    dsimp only
    rw [if_neg (by omega), if_neg (by omega), if_pos (by omega), beq_iff_eq]
    omega
  unfold findReg
  rw [hl, List.find?_append, hnone, List.find?_cons, hrow]
  rfl

theorem wordLegal_conn {i : Nat} (v : Word) : wordLegal .slot (0x4000 + 4 * i) ⟨connRow, false⟩ v = true := by
  unfold wordLegal relLegal
  rw [if_neg (by simp only [oEVSEL]; omega)]
  rfl

/-- An entry takes TYPE, SRC_GROUP and SRC_SLOT as written. -/
theorem connFields_merged (old v : Word) : let m := mergeWord connRow.fields old v
    connType m = connType v ∧ connGroup m = connGroup v ∧ connSlot m = connSlot v := by
  have hmerge : mergeWord connRow.fields old v =
      setFld (setFld (setFld old 31 30 (fld v 31 30)) 26 24 (fld v 26 24)) 9 0 (fld v 9 0) := rfl
  dsimp only
  rw [hmerge]
  refine ⟨?_, ?_, ?_⟩
  · rw [connType, fld_setFld_ne _ 9 0 _ 31 30 (by decide) (by decide) (by decide), fld_setFld_ne _ 26 24 _ 31 30 (by decide) (by decide) (by decide),
      fld_setFld_same _ 31 30 _ (by decide) (by decide), fld_mod, connType]
  · rw [connGroup, fld_setFld_ne _ 9 0 _ 26 24 (by decide) (by decide) (by decide), fld_setFld_same _ 26 24 _ (by decide) (by decide), fld_mod,
      connGroup]
  · rw [connSlot, fld_setFld_same _ 9 0 _ (by decide) (by decide), fld_mod, connSlot]

theorem findReg_slotCtrl {g : Nat} (hg : g < 8) : findReg .slot (SLOT.GRP_CTRL g) = some (Wit.hit .slot (SLOT.GRP_CTRL 0)) := by
  interval_cases g <;> rfl

theorem wordLegal_slotCtrl {g : Nat} (hg : g < 8) (v : Word) : wordLegal .slot (SLOT.GRP_CTRL g) (Wit.hit .slot (SLOT.GRP_CTRL 0)) v = true := by
  interval_cases g <;> rfl

theorem not_inHeader_slot {off : Nat} (h : 0x100 ≤ off) (hhi : off < 65536) : ¬ InHeader pgSlot (pgSlot.key off) := by
  rw [InHeader, pgSlot_key, pgSlot_key, pgSlot_key]
  omega

/-! A refused write (R246, R247). -/

theorem Chan.slotReject_header (ch : Chan) : HeaderOnly pgSlot (ch.inc pgSlot SLOT.REJ_CNT) ch.slotReject := .raiseMask _ _ rfl rfl

theorem Chan.slotReject_count (ch : Chan) : ch.slotReject.nat pgSlot SLOT.REJ_CNT = satAdd 32 (ch.nat pgSlot SLOT.REJ_CNT) 1 := by
  have hsat : satAdd 32 (ch.nat pgSlot SLOT.REJ_CNT) 1 < 2 ^ 32 := by
    unfold satAdd
    omega
  rw [Chan.nat, ch.slotReject_header.get (not_inHeader_slot (by decide) (by decide)), Chan.inc, Chan.putN, Chan.get_put_same, BitVec.toNat_ofNat,
    Nat.mod_eq_of_lt hsat]

theorem Chan.slotReject_work (ch : Chan) : workOf ch.slotReject = workOf ch := ch.slotReject_header.work

theorem Stays.slotReject {pages : List Pg} {strip : Chan → Chan} (hp : pgSlot ∈ pages) (ch : Chan) : Stays pages strip ch ch.slotReject :=
  (put ch hp _ (by decide)).trans (raise _ hp _)

theorem Stays.onFlex {pages : List Pg} (ch : Chan) (x : FlexW) : Stays pages slotStrip ch { ch with flex := x } := .of_work rfl rfl rfl

/-! Connection memory (R246). -/

section
variable {g page slot : Nat} (hpage : page < 2) (hslot : slot < 640)
include hpage hslot

theorem connIdx_parts : connIdx g page slot / 1280 = g ∧ connIdx g page slot / 640 % 2 = page := by
  unfold connIdx
  omega

theorem connHook_active {w : WReq} {ch : Chan} (h : page = ch.getF pgSlot (SLOT.GRP_STAT_ACTIVE_PAGE g)) :
    connHook (connIdx g page slot) w ch = ch.slotReject := by
  obtain ⟨hg, hp⟩ := connIdx_parts (g := g) hpage hslot
  simp only [connHook]
  rw [hg, hp, if_pos h]

/-- The entry is written on the standby page, which is no longer valid. -/
theorem connHook_standby (hg : g < 8) {w : WReq} {ch : Chan} (hwp : w.p = pgSlot) (hwo : w.off = 0x4000 + 4 * connIdx g page slot)
    (h : page ≠ ch.getF pgSlot (SLOT.GRP_STAT_ACTIVE_PAGE g)) :
    let y := connHook (connIdx g page slot) w ch
    y.conn (connIdx g page slot) = w.merged ∧ y.getB pgSlot (SLOT.GRP_STAT_STBY_VALID g) = false ∧ y.outQ = ch.outQ ∧ Stays slotPages slotStrip ch y := by
  obtain ⟨hg', hp'⟩ := connIdx_parts (g := g) hpage hslot
  have hi : connIdx g page slot < 10240 := by
    unfold connIdx
    omega
  obtain ⟨x, hx⟩ : ∃ x, x = (ch.put pgSlot (0x4000 + 4 * connIdx g page slot) w.merged).putF pgSlot (SLOT.GRP_STAT_STBY_VALID g) 0 := ⟨_, rfl⟩
  obtain ⟨z, hy⟩ : ∃ z, connHook (connIdx g page slot) w ch = { x with flex := z } := by
    simp only [connHook]
    rw [hg', hp', if_neg h, hwp, hwo, hx]
    exact ⟨_, rfl⟩
  rw [hy]
  refine ⟨?_, ?_, by rw [hx]; rfl, ?_⟩
  · have hconn : x.conn (connIdx g page slot) = w.merged := by
      rw [hx, Chan.conn, Chan.putF, Chan.get_put_ne _ _ (by rw [pgSlot_key, pgSlot_key]; simp only; omega), Chan.get_put_same]
    exact hconn
  · have hstby : x.getB pgSlot (SLOT.GRP_STAT_STBY_VALID g) = false := by
      rw [hx]
      exact Chan.getB_putB_same _ pgSlot (SLOT.GRP_STAT_STBY_VALID g) false (by norm_num) (by norm_num)
    exact hstby
  · have hput : Stays slotPages slotStrip ch x :=
      hx ▸ (Stays.put ch mem_slotPages _ (by omega)).trans (Stays.putSlotStat mem_slotPages hg _ (f := SLOT.GRP_STAT_STBY_VALID g) 0 rfl)
    exact hput.trans (.onFlex x z)

end

/-! GRP_CTRL (R246, R247). -/

/-- A page switch is asked for, or refused. -/
def Chan.switchAsked (ch : Chan) (g : Nat) : Chan :=
  match ch.pageRequest g with
  | some x => x
  | none => ch.slotReject

/-- Validation of the standby page begins. -/
def Chan.validateStart (ch : Chan) (g : Nat) : Chan :=
  ((ch.putGrp g { ch.grp g with validating := true }).recordIds g).putF pgSlot STAT_BUSY 1

/-- What is left of a write of GRP_CTRL once a switch has been asked for. -/
def Chan.commitAsked (ch : Chan) (g : Nat) (commit : Bool) : Chan := if commit && !((ch.grp g).validating) then ch.validateStart g else ch

theorem slotCtrlHook_eq (g : Nat) (w : WReq) (ch : Chan) : slotCtrlHook g w ch =
    (if bit w.v 31 then (ch.put w.p w.off w.merged).switchAsked g else ch.put w.p w.off w.merged).commitAsked g (bit w.v 30) := rfl

theorem Chan.switchAsked_free {ch : Chan} {g : Nat} (h : ch.follows g = false) : ch.switchAsked g = ch.putGrp g { ch.grp g with pageReq := true } := by
  rw [Chan.switchAsked, Chan.pageRequest, if_neg (by rw [h]; decide)]

theorem Chan.switchAsked_follows {ch : Chan} {g : Nat} (h : ch.follows g = true) : ch.switchAsked g = ch.slotReject := by
  rw [Chan.switchAsked, Chan.pageRequest, if_pos h]

/-- A switch that is asked for leaves whether the standby page is under validation. -/
theorem Chan.switchAsked_validating (ch : Chan) (g : Nat) : ((ch.switchAsked g).grp g).validating = (ch.grp g).validating := by
  cases h : ch.follows g
  · rw [Chan.switchAsked_free h, Chan.grp_putGrp_same]
  · rw [Chan.switchAsked_follows h]
    have hflex := congrArg (fun x : Chan => tget ({} : FlexGrp) x.flex.grps g) ch.slotReject_work
    exact congrArg FlexGrp.validating hflex

theorem Chan.switchAsked_stays (ch : Chan) (g : Nat) : Stays slotPages slotStrip ch (ch.switchAsked g) ∧ (OnlyIrqs ch.outQ → OnlyIrqs (ch.switchAsked g).outQ) := by
  cases h : ch.follows g
  · rw [Chan.switchAsked_free h]
    exact ⟨.onFlex ch _, fun h => h⟩
  · rw [Chan.switchAsked_follows h]
    exact ⟨.slotReject mem_slotPages ch, fun h => ch.slotReject_header.onlyIrqs h⟩

theorem Chan.validateStart_shows (ch : Chan) (g : Nat) : (ch.validateStart g).grp g = { ch.grp g with validating := true } ∧
    (ch.validateStart g).getB pgSlot STAT_BUSY = true := by
  refine ⟨?_, Chan.getB_putB_same _ pgSlot STAT_BUSY true (by decide) (by decide)⟩
  have hgrp := Chan.grp_putGrp_same ch g { ch.grp g with validating := true }
  exact hgrp

theorem Chan.commitAsked_stays (ch : Chan) (g : Nat) (b : Bool) : Stays slotPages slotStrip ch (ch.commitAsked g b) ∧ (ch.commitAsked g b).outQ = ch.outQ := by
  unfold Chan.commitAsked
  split
  · exact ⟨(Stays.onFlex (pages := slotPages) ch (ch.validateStart g).flex).trans (Stays.put _ mem_slotPages _ (by decide)), rfl⟩
  · exact ⟨.refl ch, rfl⟩

theorem Chan.commitAsked_starts {ch : Chan} (g : Nat) : ((ch.commitAsked g true).grp g).validating = true ∧
    ((ch.grp g).validating = false → (ch.commitAsked g true).getB pgSlot STAT_BUSY = true) := by
  obtain ⟨hgrp, hbusy⟩ := ch.validateStart_shows g
  unfold Chan.commitAsked
  cases hv : (ch.grp g).validating
  · rw [if_pos (by decide), hgrp]
    exact ⟨rfl, fun _ => hbusy⟩
  · rw [if_neg (by decide)]
    exact ⟨hv, fun h => nomatch h⟩

theorem Chan.commitAsked_pageReq (ch : Chan) (g : Nat) (b : Bool) : ((ch.commitAsked g b).grp g).pageReq = (ch.grp g).pageReq := by
  unfold Chan.commitAsked
  split
  · rw [(ch.validateStart_shows g).1]
  · rfl

/-- FOLLOW_CAL as it is merged. -/
theorem followCal_merged (old v : Word) : fld (mergeWord (Wit.hit .slot (SLOT.GRP_CTRL 0)).row.fields old v) 29 29 = fld v 29 29 := by
  have hmerge : mergeWord (Wit.hit .slot (SLOT.GRP_CTRL 0)).row.fields old v =
      setFld (setFld (setFld (setFld (setFld old 31 31 0) 30 30 0) 29 29 (fld v 29 29)) 28 28 (fld v 28 28)) 26 24 (fld v 26 24) := rfl
  rw [hmerge, fld_setFld_ne _ 26 24 _ 29 29 (by decide) (by decide) (by decide), fld_setFld_ne _ 28 28 _ 29 29 (by decide) (by decide) (by decide),
    fld_setFld_same _ 29 29 _ (by decide) (by decide), fld_mod]

theorem bit_setFld_same (w : Word) {b : Nat} (h : b < 32) : bit (setFld w b b 1) b = true := by
  rw [bit_eq_fld, fld_setFld_same _ _ _ _ le_rfl h]
  simp

/-- PF0 writes one of the bits that ask for something, and the fields that GRP_CTRL holds. -/
theorem exec_slotCtrl {s : State} {c : Fin 4} {g b : Nat} (hr : HostReady s c) (hg : g < 8) (hb : b = 30 ∨ b = 31) :
    ∃ (t : State) (w : WReq) (d : Chan), HeaderStep pgSlot c s t ∧ s.slotCtrl (.func 0) c g b = t.runChan c (slotCtrlHook g w) ∧
      slotCtrlHook g w (t.chan c) = (if bit w.v 31 then d.switchAsked g else d).commitAsked g (bit w.v 30) ∧
      bit w.v b = true ∧ (∀ n, n < 32 → n ≠ b → bit w.v n = bit ((s.chan c).get pgSlot (SLOT.GRP_CTRL g)) n) ∧
      Stays slotPages slotStrip (t.chan c) d ∧ d.outQ = (t.chan c).outQ ∧ workOf d = workOf (t.chan c) ∧
      d.follows g = (s.chan c).follows g ∧ d.nat pgSlot SLOT.REJ_CNT = (s.chan c).nat pgSlot SLOT.REJ_CNT := by
  have hg8 : g % 8 = g := Nat.mod_eq_of_lt hg
  obtain ⟨t, w, hstep, hp, hoff, hv, hm, hrun⟩ := State.hook_pf0 hr (p := pgSlot) rfl (slotCtrlHook g)
    (setFld ((s.chan c).get pgSlot (SLOT.GRP_CTRL g)) b b 1) (findReg_slotCtrl hg) rfl rfl rfl (wordLegal_slotCtrl hg _)
  have hother : ∀ n, n < 32 → n ≠ b → bit w.v n = bit ((s.chan c).get pgSlot (SLOT.GRP_CTRL g)) n := fun n hn hne => by
    rw [hv]
    exact bit_congr (fld_setFld_ne _ _ _ _ _ _ le_rfl hn (by omega))
  refine ⟨t, w, (t.chan c).put w.p w.off w.merged, hstep, ?_, slotCtrlHook_eq g w (t.chan c), ?_, hother, ?_, rfl, rfl, ?_, ?_⟩
  · rw [← hrun]
    unfold State.slotCtrl
    rw [hg8]
  · rw [hv]
    exact bit_setFld_same _ (by omega)
  · rw [hp, hoff]
    exact Stays.put _ mem_slotPages _ (by simp only [SLOT.GRP_CTRL]; omega)
  · refine Chan.getB_congr ?_
    rw [hp, hoff, Chan.getF, Chan.get_put_same, hm]
    refine (followCal_merged _ _).trans ?_
    rw [fld_setFld_ne _ _ _ _ _ _ le_rfl (by decide) (by omega), Chan.getF]
  · rw [hp, hoff, Chan.nat, Chan.get_put_ne _ _ (by rw [pgSlot_key, pgSlot_key]; simp only [SLOT.GRP_CTRL, SLOT.REJ_CNT]; omega),
      hstep.chan.get (not_inHeader_slot (by decide) (by decide)), Chan.nat]

end Sys2Proof.Machine

namespace Sys2Proof.Proofs

open Sys2Proof Sys2Proof.Machine

section
variable {s : State} {c : Fin 4} {g : Nat} (hr : HostReady s c) (hg : g < 8)
include hr hg

/-- The page, the word and the effect of a write of a connection memory entry. -/
theorem exec_connWrite {page slot : Nat} (hpage : page < 2) (hslot : slot < 640) (v : Word) :
    ∃ (t : State) (w : WReq), HeaderStep pgSlot c s t ∧ w.p = pgSlot ∧ w.off = 0x4000 + 4 * connIdx g page slot ∧
      (∃ old, w.merged = mergeWord connRow.fields old v) ∧
      exec (.connMemWrite (.func 0) c g page slot v) s = .next (t.runChan c (connHook (connIdx g page slot) w)) := by
  have hi : connIdx g page slot < 10240 := by
    unfold connIdx
    omega
  obtain ⟨t, w, hstep, hp, hoff, -, hm, hrun⟩ := State.hook_pf0 hr (p := pgSlot) rfl (connHook (connIdx g page slot)) v (findReg_conn hi) rfl rfl rfl
    (wordLegal_conn v)
  refine ⟨t, w, hstep, hp, hoff, ⟨_, hm⟩, ?_⟩
  rw [← hrun]
  show Host.Outcome.next (s.chanWrite (connHook (connIdx (g % 8) (page % 2) (slot % 640))) true (.func 0) c pgSlot
    (0x4000 + 4 * connIdx (g % 8) (page % 2) (slot % 640)) v) = _
  rw [Nat.mod_eq_of_lt hg, Nat.mod_eq_of_lt hpage, Nat.mod_eq_of_lt hslot]

omit hr in
theorem HeaderStep.activePage {t : State} (h : HeaderStep pgSlot c s t) :
    (t.chan c).getF pgSlot (SLOT.GRP_STAT_ACTIVE_PAGE g) = (s.chan c).getF pgSlot (SLOT.GRP_STAT_ACTIVE_PAGE g) :=
  h.chan.getF (not_inHeader_slot (by simp only; omega) (by simp only; omega))

omit hg in
/-- A refused write or switch. -/
theorem completes_slotRejected {i : Instr} {t : State} {f : Chan → Chan} {d : Chan} (hstep : HeaderStep pgSlot c s t) (hi : exec i s = .next (t.runChan c f))
    (hf : f (t.chan c) = d.slotReject) (hd : Stays slotPages slotStrip (t.chan c) d) (hq : d.outQ = (t.chan c).outQ) (hw : workOf d = workOf (t.chan c))
    (hn : d.nat pgSlot SLOT.REJ_CNT = (s.chan c).nat pgSlot SLOT.REJ_CNT) : Completes i s (fun u => SlotFrame s u c ∧
      (∀ off, 0x4000 ≤ off → off < 65536 → d.get pgSlot off = (s.chan c).get pgSlot off → (u.chan c).get pgSlot off = (s.chan c).get pgSlot off) ∧
      workOf (u.chan c) = workOf (s.chan c) ∧ (u.chan c).nat pgSlot SLOT.REJ_CNT = satAdd 32 ((s.chan c).nat pgSlot SLOT.REJ_CNT) 1) := by
  obtain ⟨hkeeps, hchan⟩ := hstep.answers (strip := slotStrip) mem_slotPages hr.1.2 hf (hd.trans (.slotReject mem_slotPages d))
    (fun h => d.slotReject_header.onlyIrqs (by
      show OnlyIrqs d.outQ
      rwa [hq]))
  refine ⟨_, hi, hkeeps, fun off hlo hhi hget => ?_, ?_, ?_⟩
  · rw [hchan, Chan.get_clear, d.slotReject_header.get (not_inHeader_slot (by omega) hhi), ← hget]
    exact d.get_put_ne _ (by rw [pgSlot_key, pgSlot_key]; simp only [SLOT.REJ_CNT]; omega)
  · rw [hchan, workOf_clear, d.slotReject_work, hw]
    exact hstep.chan.work
  · rw [hchan, Chan.nat_clear, d.slotReject_count, hn]

end

section
variable {s : State} {c : Fin 4} {g : Nat} (hg : g < 8)
include hg

theorem completes_connWritten (hr : HostReady s c) {page slot : Nat} (hpage : page < 2) (hslot : slot < 640) (v : Word)
    (hne : page ≠ (s.chan c).getF pgSlot (SLOT.GRP_STAT_ACTIVE_PAGE g)) :
    Completes (.connMemWrite (.func 0) c g page slot v) s (fun u => SlotFrame s u c ∧
      let e := (u.chan c).conn (connIdx g page slot)
      connType e = connType v ∧ connGroup e = connGroup v ∧ connSlot e = connSlot v ∧
      (u.chan c).getB pgSlot (SLOT.GRP_STAT_STBY_VALID g) = false) := by
  obtain ⟨t, w, hstep, hp, hoff, ⟨old, hm⟩, hexec⟩ := exec_connWrite hr hg hpage hslot v
  obtain ⟨hconn, hstby, hq, hstays⟩ := connHook_standby hpage hslot hg hp hoff (fun h => hne (h.trans (HeaderStep.activePage hg hstep)))
  obtain ⟨hkeeps, hchan⟩ := hstep.answers mem_slotPages hr.1.2 rfl hstays (fun h => by rwa [hq])
  obtain ⟨htype, hgroup, hs⟩ := connFields_merged old v
  refine ⟨_, hexec, hkeeps, ?_⟩
  dsimp only
  rw [hchan, Chan.conn, Chan.get_clear, ← Chan.conn, hconn, hm]
  exact ⟨htype, hgroup, hs, hstby⟩

theorem completes_connRefused (hr : HostReady s c) {page slot : Nat} (hpage : page < 2) (hslot : slot < 640) (v : Word)
    (he : page = (s.chan c).getF pgSlot (SLOT.GRP_STAT_ACTIVE_PAGE g)) :
    Completes (.connMemWrite (.func 0) c g page slot v) s (fun u => SlotFrame s u c ∧
      (u.chan c).conn (connIdx g page slot) = (s.chan c).conn (connIdx g page slot) ∧ workOf (u.chan c) = workOf (s.chan c) ∧
      (u.chan c).nat pgSlot SLOT.REJ_CNT = satAdd 32 ((s.chan c).nat pgSlot SLOT.REJ_CNT) 1) := by
  obtain ⟨t, w, hstep, -, -, -, hexec⟩ := exec_connWrite hr hg hpage hslot v
  have hi : connIdx g page slot < 10240 := by
    unfold connIdx
    omega
  obtain ⟨u, hexec', hframe, hconn, hwork, hrej⟩ := completes_slotRejected hr hstep hexec
    (connHook_active hpage hslot (he.trans (HeaderStep.activePage hg hstep).symm)) (.refl _) rfl rfl
    (congrArg BitVec.toNat (hstep.chan.get (not_inHeader_slot (by decide) (by decide))))
  exact ⟨u, hexec', hframe, hconn _ (by omega) (by omega) (hstep.chan.get (not_inHeader_slot (by omega) (by omega))), hwork, hrej⟩

theorem completes_slotCommit (hr : HostReady s c) : Completes (.slotCommit (.func 0) c g) s (fun u => SlotFrame s u c ∧ ((u.chan c).grp g).validating = true ∧
    (((s.chan c).grp g).validating = false → (u.chan c).getB pgSlot STAT_BUSY = true)) := by
  obtain ⟨t, w, d, hstep, hrun, hf, hbit, -, hd, hq, hw, -, -⟩ := exec_slotCtrl hr hg (.inl rfl)
  rw [hbit] at hf
  obtain ⟨d', hd'⟩ : ∃ d', d' = if bit w.v 31 then d.switchAsked g else d := ⟨_, rfl⟩
  have hfacts : Stays slotPages slotStrip d d' ∧ (OnlyIrqs d.outQ → OnlyIrqs d'.outQ) ∧ (d'.grp g).validating = (d.grp g).validating := by
    rw [hd']
    split
    · exact ⟨(d.switchAsked_stays g).1, (d.switchAsked_stays g).2, d.switchAsked_validating g⟩
    · exact ⟨.refl d, fun h => h, rfl⟩
  rw [← hd'] at hf
  obtain ⟨hsd, hod, hvd⟩ := hfacts
  obtain ⟨hsc, hoc⟩ := d'.commitAsked_stays g true
  obtain ⟨hval, hbusy⟩ := d'.commitAsked_starts g
  obtain ⟨hkeeps, hchan⟩ := hstep.answers mem_slotPages hr.1.2 hf ((hd.trans hsd).trans hsc) (fun h => by
    rw [hoc]
    exact hod (by rwa [hq]))
  have hflex := congrArg (fun x : Chan => tget ({} : FlexGrp) x.flex.grps g) (hw.trans hstep.chan.work)
  have hwas : (d'.grp g).validating = ((s.chan c).grp g).validating := hvd.trans (congrArg FlexGrp.validating hflex)
  refine ⟨_, congrArg Host.Outcome.next hrun, hkeeps, ?_, fun h => ?_⟩
  · rw [hchan]
    exact hval
  · rw [hchan]
    exact hbusy (hwas.trans h)

theorem completes_slotSwitch (hr : HostReady s c) (hfree : (s.chan c).follows g = false) :
    Completes (.slotSwitch (.func 0) c g) s (fun u => SlotFrame s u c ∧ ((u.chan c).grp g).pageReq = true) := by
  obtain ⟨t, w, d, hstep, hrun, hf, hbit, -, hd, hq, -, hfol, -⟩ := exec_slotCtrl hr hg (.inr rfl)
  rw [hbit, if_pos rfl] at hf
  obtain ⟨hsd, hod⟩ := d.switchAsked_stays g
  obtain ⟨hsc, hoc⟩ := (d.switchAsked g).commitAsked_stays g (bit w.v 30)
  obtain ⟨hkeeps, hchan⟩ := hstep.answers mem_slotPages hr.1.2 hf ((hd.trans hsd).trans hsc) (fun h => by
    rw [hoc]
    exact hod (by rwa [hq]))
  refine ⟨_, congrArg Host.Outcome.next hrun, hkeeps, ?_⟩
  rw [hchan]
  refine (Chan.commitAsked_pageReq (d.switchAsked g) g (bit w.v 30)).trans ?_
  rw [Chan.switchAsked_free (hfol.trans hfree), Chan.grp_putGrp_same]

theorem completes_slotSwitch_refused (hr : HostReady s c) (hfol : (s.chan c).follows g = true) (h30 : bit ((s.chan c).get pgSlot (SLOT.GRP_CTRL g)) 30 = false) :
    Completes (.slotSwitch (.func 0) c g) s (fun u => SlotFrame s u c ∧ workOf (u.chan c) = workOf (s.chan c) ∧
      (u.chan c).nat pgSlot SLOT.REJ_CNT = satAdd 32 ((s.chan c).nat pgSlot SLOT.REJ_CNT) 1) := by
  obtain ⟨t, w, d, hstep, hrun, hf, hbit, hother, hd, hq, hw, hfold, hrej⟩ := exec_slotCtrl hr hg (.inr rfl)
  have hno : d.slotReject.commitAsked g false = d.slotReject := rfl
  rw [hbit, if_pos rfl, Chan.switchAsked_follows (hfold.trans hfol), (hother 30 (by decide) (by decide)).trans h30, hno] at hf
  obtain ⟨u, hexec, hframe, -, hwork, hcnt⟩ := completes_slotRejected (i := .slotSwitch (.func 0) c g) hr hstep (congrArg Host.Outcome.next hrun) hf hd hq hw hrej
  exact ⟨u, hexec, hframe, hwork, hcnt⟩

end

end Sys2Proof.Proofs
end

/-! Commits that end and parity errors of the slot switch (R246, R248). -/

section
set_option Elab.async false
namespace Sys2Proof.Machine

theorem firstBelow_lt {n j : Nat} {p : Nat → Bool} (h : firstBelow n p = some j) : j < n := List.mem_range.1 (List.mem_of_find?_eq_some h)

theorem foldl_add_le (f : Nat → Nat) {m : Nat} (hf : ∀ k, f k ≤ m) : ∀ (l : List Nat) (n : Nat), l.foldl (fun n k => n + f k) n ≤ n + m * l.length
  | [], n => Nat.le_add_right _ _
  | k :: l, n => by
    have hk := hf k
    have ih := foldl_add_le f hf l (n + f k)
    rw [List.length_cons, Nat.mul_add]
    simp only [List.foldl_cons]
    omega

/-- A group has at most 640 slots. -/
theorem Chan.slotCount_le (ch : Chan) (g : Nat) : ch.slotCount g ≤ 640 := by
  have hinst : ∀ s, instancesOf s ≤ 4 := fun s => by
    unfold instancesOf
    split_ifs <;> omega
  have hms : (ch.members g).length ≤ 8 := (List.length_filter_le _ _).trans (by simp)
  have hsum := foldl_add_le (fun k => instancesOf (ch.portF (ch.memberPort g k) LINE.PORT_CFG_SPEED)) (fun k => hinst _) (ch.members g) 0
  unfold Chan.slotCount
  omega

/-- A result of a validation fits its fields. -/
theorem Chan.validate_lt (ch : Chan) (g : Nat) : (ch.validate g).1 < 256 ∧ (ch.validate g).2 < 1024 := by
  have hcount := ch.slotCount_le g
  unfold Chan.validate
  dsimp only
  split
  · next h => exact ⟨by norm_num, (firstBelow_lt h).trans (by norm_num)⟩
  · split
    · next h => exact ⟨by norm_num, (firstBelow_lt h).trans (by norm_num)⟩
    · split
      · next h => exact ⟨by norm_num, (firstBelow_lt h).trans_le (hcount.trans (by norm_num))⟩
      · split
        · next h => exact ⟨by norm_num, (firstBelow_lt h).trans_le (hcount.trans (by norm_num))⟩
        · split
          · next h => exact ⟨by norm_num, (firstBelow_lt h).trans_le (hcount.trans (by norm_num))⟩
          · exact ⟨by norm_num, by norm_num⟩

/-- A validation ends with a result. -/
def Chan.validated (ch : Chan) (g : Nat) (r : Nat × Nat) (busy : Bool) : Chan :=
  ((((((ch.putGrp g { ch.grp g with validating := false }).putF pgSlot (SLOT.GRP_STAT_COMMIT_RESULT g) r.1).putF pgSlot (SLOT.GRP_STAT_ERR_SLOT g) r.2).putB
    pgSlot (SLOT.GRP_STAT_STBY_VALID g) (decide (r.1 = 0))).putB pgSlot STAT_BUSY busy).raise pgSlot 11)

section
variable {g : Nat} (hg : g < 8)
include hg

theorem Chan.validated_stays (ch : Chan) (r : Nat × Nat) (busy : Bool) : Stays slotPages slotStrip ch (ch.validated g r busy) := by
  have hstat : ∀ (c : Chan) (f : Fld) (v : Nat), f.off = SLOT.GRP_STAT g → Stays slotPages slotStrip c (c.putF pgSlot f v) := fun c f v hf =>
    .putSlotStat mem_slotPages hg c v hf
  refine (((((Stays.onFlex (pages := slotPages) ch _).trans (hstat _ _ _ rfl)).trans (hstat _ _ _ rfl)).trans
    (hstat _ (SLOT.GRP_STAT_STBY_VALID g) _ rfl)).trans (Stays.put _ mem_slotPages _ (by decide))).trans (Stays.raise _ mem_slotPages _)

theorem Chan.validated_shows (ch : Chan) {r : Nat × Nat} (h1 : r.1 < 256) (h2 : r.2 < 1024) (busy : Bool) :
    (ch.validated g r busy).getF pgSlot (SLOT.GRP_STAT_COMMIT_RESULT g) = r.1 ∧ (ch.validated g r busy).getF pgSlot (SLOT.GRP_STAT_ERR_SLOT g) = r.2 ∧
    (ch.validated g r busy).getB pgSlot (SLOT.GRP_STAT_STBY_VALID g) = decide (r.1 = 0) ∧ ((ch.validated g r busy).grp g).validating = false := by
  obtain ⟨hlo, hhi⟩ := slotStat_flex hg
  have hK := slotReg_flexKey hlo hhi
  obtain ⟨a, ha⟩ : ∃ a, a = (ch.putGrp g { ch.grp g with validating := false }).putF pgSlot (SLOT.GRP_STAT_COMMIT_RESULT g) r.1 := ⟨_, rfl⟩
  obtain ⟨b, hb⟩ : ∃ b, b = a.putF pgSlot (SLOT.GRP_STAT_ERR_SLOT g) r.2 := ⟨_, rfl⟩
  obtain ⟨d, hd⟩ : ∃ d, d = b.putB pgSlot (SLOT.GRP_STAT_STBY_VALID g) (decide (r.1 = 0)) := ⟨_, rfl⟩
  have hy : FlexAside (SlotReg (SLOT.GRP_STAT g)) d (ch.validated g r busy) := by
    have hform : ch.validated g r busy = (d.putB pgSlot STAT_BUSY busy).raise pgSlot 11 := by rw [hd, hb, ha, Chan.validated]
    rw [hform]
    refine (Spares.put d pgSlot STAT_BUSY.off _ (fun h => ?_)).trans (FlexAside.raise hK _ _ rfl rfl)
    rw [SlotReg, pgSlot_key, pgSlot_key] at h
    simp only [SLOT.GRP_STAT] at h
    omega
  refine ⟨?_, ?_, ?_, ?_⟩
  · rw [hy.getF (f := SLOT.GRP_STAT_COMMIT_RESULT g) rfl, hd, Chan.putB, Chan.slotField_ne _ (SLOT.GRP_STAT_STBY_VALID g) (SLOT.GRP_STAT_COMMIT_RESULT g) _ rfl
      (by norm_num) (by norm_num) (.inr (by norm_num)), hb, Chan.slotField_ne _ (SLOT.GRP_STAT_ERR_SLOT g) (SLOT.GRP_STAT_COMMIT_RESULT g) _ rfl
      (by norm_num) (by norm_num) (.inl (by norm_num)), ha, Chan.getF_putF_same _ _ (SLOT.GRP_STAT_COMMIT_RESULT g) _ (by norm_num) (by norm_num)]
    exact Nat.mod_eq_of_lt h1
  · rw [hy.getF (f := SLOT.GRP_STAT_ERR_SLOT g) rfl, hd, Chan.putB, Chan.slotField_ne _ (SLOT.GRP_STAT_STBY_VALID g) (SLOT.GRP_STAT_ERR_SLOT g) _ rfl
      (by norm_num) (by norm_num) (.inr (by norm_num)), hb, Chan.getF_putF_same _ _ (SLOT.GRP_STAT_ERR_SLOT g) _ (by norm_num) (by norm_num)]
    exact Nat.mod_eq_of_lt h2
  · refine (Chan.getB_congr (hy.getF (f := SLOT.GRP_STAT_STBY_VALID g) rfl)).trans ?_
    rw [hd]
    exact Chan.getB_putB_same b pgSlot (SLOT.GRP_STAT_STBY_VALID g) _ (by norm_num) (by norm_num)
  · rw [FlexAside.grp hy]
    have hgrp : d.grp g = { ch.grp g with validating := false } := by
      rw [hd, hb, ha]
      exact Chan.grp_putGrp_same ch g _
    rw [hgrp]

/-- An entry of the active page fails parity. -/
def Chan.parityFailed (ch : Chan) (g i : Nat) : Chan :=
  ({ ch with flex := { ch.flex with parBad := tput false ch.flex.parBad i true } }.putF pgSlot (SLOT.GRP_STAT_ACT_VALID g) 0).putF pgSlot
    (SLOT.GRP_STAT_PAR_ERR g) 1

theorem Chan.parityFailed_stays (ch : Chan) (i : Nat) : Stays slotPages slotStrip ch
    ((((ch.parityFailed g i).capture pgSlot clsContained 10 i 0 0).raise pgSlot 10).fallback g 2) := by
  have hstat : ∀ (c : Chan) (f : Fld) (v : Nat), f.off = SLOT.GRP_STAT g → Stays slotPages slotStrip c (c.putF pgSlot f v) := fun c f v hf =>
    .putSlotStat mem_slotPages hg c v hf
  have hstart : Stays slotPages slotStrip ch (ch.parityFailed g i) := ((Stays.onFlex (pages := slotPages) ch _).trans (hstat _ _ _ rfl)).trans (hstat _ _ _ rfl)
  exact ((hstart.trans (Stays.capture _ mem_slotPages _ _ _ _ _)).trans (Stays.raise _ mem_slotPages _)).trans (Stays.fallback mem_slotPages hg _ 2)

theorem Chan.parityFailed_shows (ch : Chan) (i : Nat) :
    let y := (((ch.parityFailed g i).capture pgSlot clsContained 10 i 0 0).raise pgSlot 10).fallback g 2
    y.getB pgSlot (SLOT.GRP_STAT_FB_ACTIVE g) = true ∧ y.getF pgSlot (SLOT.GRP_STAT_FB_REASON g) = 2 ∧
    y.getF pgSlot (SLOT.GRP_STAT_ACTIVE_PAGE g) = ch.getF pgSlot (SLOT.GRP_STAT_ACTIVE_PAGE g) := by
  obtain ⟨hlo, hhi⟩ := slotStat_flex hg
  have hK := slotReg_flexKey hlo hhi
  obtain ⟨d, hd⟩ : ∃ d, d = ((ch.parityFailed g i).capture pgSlot clsContained 10 i 0 0).raise pgSlot 10 := ⟨_, rfl⟩
  have hstart : FlexAside (SlotReg (SLOT.GRP_STAT g)) (ch.parityFailed g i) d := hd ▸ (FlexAside.capture hK _ _ _ _ _ _ _).trans (FlexAside.raise hK _ _ rfl rfl)
  have hfall := Chan.fallback_stat hg d 2
  dsimp only
  rw [← hd]
  refine ⟨?_, ?_, ?_⟩
  · refine (Chan.getB_congr ((hfall.getF (f := SLOT.GRP_STAT_FB_ACTIVE g) rfl).trans (Chan.slotField_ne _ (SLOT.GRP_STAT_FB_REASON g) (SLOT.GRP_STAT_FB_ACTIVE g)
      _ rfl (by norm_num) (by norm_num) (.inl (by norm_num))))).trans ?_
    exact Chan.getB_putB_same d pgSlot (SLOT.GRP_STAT_FB_ACTIVE g) true (by norm_num) (by norm_num)
  · rw [hfall.getF (f := SLOT.GRP_STAT_FB_REASON g) rfl, Chan.getF_putF_same _ _ (SLOT.GRP_STAT_FB_REASON g) _ (by norm_num) (by norm_num)]
    norm_num
  · rw [hfall.getF (f := SLOT.GRP_STAT_ACTIVE_PAGE g) rfl, Chan.slotField_ne _ (SLOT.GRP_STAT_FB_REASON g) (SLOT.GRP_STAT_ACTIVE_PAGE g) _ rfl (by norm_num)
      (by norm_num) (.inl (by norm_num)), Chan.slotField_ne _ (SLOT.GRP_STAT_FB_ACTIVE g) (SLOT.GRP_STAT_ACTIVE_PAGE g) _ rfl (by norm_num) (by norm_num)
      (.inl (by norm_num)), hstart.getF (f := SLOT.GRP_STAT_ACTIVE_PAGE g) rfl, Chan.parityFailed, Chan.slotField_ne _ (SLOT.GRP_STAT_PAR_ERR g)
      (SLOT.GRP_STAT_ACTIVE_PAGE g) _ rfl (by norm_num) (by norm_num) (.inl (by norm_num)), Chan.slotField_ne _ (SLOT.GRP_STAT_ACT_VALID g)
      (SLOT.GRP_STAT_ACTIVE_PAGE g) _ rfl (by norm_num) (by norm_num) (.inl (by norm_num))]
    rfl

end

end Sys2Proof.Machine

namespace Sys2Proof.Proofs

open Sys2Proof Sys2Proof.Machine

section
variable {s : State} {c : Fin 4} {g : Nat} (hr : Ready s c) (hg : g < 8) (hen : (s.chan c).enabled pgSlot = true)
include hr hg hen

theorem completes_commitDone (hval : ((s.chan c).grp g).validating = true) : Completes (.slotCommitDone c g) s (fun u => SlotFrame s u c ∧
    ((u.chan c).grp g).validating = false ∧ (u.chan c).getF pgSlot (SLOT.GRP_STAT_COMMIT_RESULT g) = ((s.chan c).validate g).1 ∧
    (u.chan c).getF pgSlot (SLOT.GRP_STAT_ERR_SLOT g) = ((s.chan c).validate g).2 ∧
    (u.chan c).getB pgSlot (SLOT.GRP_STAT_STBY_VALID g) = decide (((s.chan c).validate g).1 = 0)) := by
  obtain ⟨hlo, hhi⟩ := slotStat_flex hg
  obtain ⟨f, busy, hf, hexec⟩ : ∃ f busy, f (s.chan c) = (s.chan c).validated g ((s.chan c).validate g) busy ∧
      exec (.slotCommitDone c g) s = .next (s.onLive c f) := ⟨_, _, if_pos ⟨hg, hen, hval⟩, rfl⟩
  obtain ⟨h1, h2⟩ := (s.chan c).validate_lt g
  obtain ⟨hres, herr, hstby, hgrp⟩ := (s.chan c).validated_shows hg h1 h2 busy
  obtain ⟨hkeeps, hcalm⟩ := State.onLive_stays hr (hf ▸ (s.chan c).validated_stays hg ((s.chan c).validate g) busy)
  rw [hf] at hcalm
  have hu := FlexAside.of_calm hcalm
  have hkey : FlexKey (pgSlot.key (SLOT.GRP_STAT g)) := flexKey_slot hlo hhi
  refine ⟨_, hexec, hkeeps, ?_, (hu.getF (f := SLOT.GRP_STAT_COMMIT_RESULT g) hkey).trans hres, (hu.getF (f := SLOT.GRP_STAT_ERR_SLOT g) hkey).trans herr,
    (Chan.getB_congr (hu.getF (f := SLOT.GRP_STAT_STBY_VALID g) hkey)).trans hstby⟩
  exact (congrArg FlexGrp.validating (FlexAside.grp hu g)).trans hgrp

theorem completes_parityErr {slot : Nat} (hslot : slot < 640) (hon : (s.chan c).grpOn g = true)
    (hfb : (s.chan c).getB pgSlot (SLOT.GRP_STAT_FB_ACTIVE g) = false) : Completes (.slotParityErr c g slot) s (fun u => SlotFrame s u c ∧
      (u.chan c).getB pgSlot (SLOT.GRP_STAT_FB_ACTIVE g) = true ∧ (u.chan c).getF pgSlot (SLOT.GRP_STAT_FB_REASON g) = 2 ∧
      (u.chan c).getF pgSlot (SLOT.GRP_STAT_ACTIVE_PAGE g) = (s.chan c).getF pgSlot (SLOT.GRP_STAT_ACTIVE_PAGE g)) := by
  obtain ⟨hlo, hhi⟩ := slotStat_flex hg
  obtain ⟨f, i, hf, hexec⟩ : ∃ f i, f (s.chan c) = ((((s.chan c).parityFailed g i).capture pgSlot clsContained 10 i 0 0).raise pgSlot 10).fallback g 2 ∧
      exec (.slotParityErr c g slot) s = .next (s.onLive c f) := ⟨_, _, if_pos ⟨hg, hslot, hon, hen, hfb⟩, rfl⟩
  obtain ⟨hact, hreason, hpage⟩ := (s.chan c).parityFailed_shows hg i
  obtain ⟨hkeeps, hcalm⟩ := State.onLive_stays hr (hf ▸ (s.chan c).parityFailed_stays hg i)
  rw [hf] at hcalm
  have hu := FlexAside.of_calm hcalm
  have hkey : FlexKey (pgSlot.key (SLOT.GRP_STAT g)) := flexKey_slot hlo hhi
  exact ⟨_, hexec, hkeeps, (Chan.getB_congr (hu.getF (f := SLOT.GRP_STAT_FB_ACTIVE g) hkey)).trans hact,
    (hu.getF (f := SLOT.GRP_STAT_FB_REASON g) hkey).trans hreason, (hu.getF (f := SLOT.GRP_STAT_ACTIVE_PAGE g) hkey).trans hpage⟩

end

end Sys2Proof.Proofs
end

/-! Performance monitoring: the latched second, its acknowledge, and the services (R252–R254, R261). -/

section
set_option Elab.async false
namespace Sys2Proof.Machine

open Sys2Proof.Tests

theorem pgPm_key (off : Nat) : pgPm.key off = 0x3A0000 + off := by
  rw [Pg.key]
  norm_num

theorem mem_pmPages : pgPm ∈ slotPages := List.mem_cons_of_mem _ List.mem_cons_self

theorem mem_keepPages (k : Fin 2) : pgKeep k.val ∈ slotPages := by
  fin_cases k
  · exact List.mem_cons_of_mem _ (List.mem_cons_of_mem _ List.mem_cons_self)
  · exact List.mem_cons_of_mem _ (List.mem_cons_of_mem _ (List.mem_cons_of_mem _ List.mem_cons_self))

/-- An event's frame, before which the clock may run. -/
theorem Stays.timed {s : State} {c : Fin 4} {f : Chan → Chan} {x : Chan} {pages : List Pg} {strip : Chan → Chan} (hq : NoFatal (s.chan c).outQ)
    (hticks : Ticks (s.chan c) x) (h : Stays pages (fun ch => strip (noTime ch)) x (f (s.chan c))) :
    KeepsTimed s (s.runChan c f) c pages strip ∧ Calm (f (s.chan c)) ((s.runChan c f).chan c) := by
  have hplain := h.outs (hticks.noFatal hq)
  obtain ⟨hchan, hisl⟩ := State.runChan_noFatal hplain
  have hcalm := State.runChan_calm hplain
  have hrun := congrArg (fun y => strip (noTime { quietOf y with free := 0 })) hticks.work
  refine ⟨⟨fun d hd => by rw [hchan, if_neg hd], hisl, (congrArg (fun y => strip (noTime y)) hcalm.work).trans (h.work.trans hrun),
    fun key hkey hclock => ?_⟩, hcalm⟩
  exact (hcalm.regs key (fun hm => hkey (List.mem_cons.2 (.inl (List.mem_singleton.1 hm))))).trans
    ((h.regs key hkey).trans (hticks.regs key (fun hk => hclock hk.clockReg)))

theorem Stays.putCtl {pages : List Pg} (ch : Chan) (k : Nat) (x : KCtl) : Stays pages slotStrip ch (ch.putCtl k x) := by
  unfold Chan.putCtl Chan.putRegion
  split
  · exact .of_work rfl rfl rfl
  · exact .of_work rfl rfl rfl

/-! The latch. -/

theorem Chan.pmRecord_stays (ch : Chan) (recs : List (Nat × Nat × Nat)) {e : Nat} (he : e < 168) : Stays slotPages slotStrip ch (ch.pmRecord recs e) :=
  (Stays.put ch mem_pmPages (off := PM.REC e) _ (by simp only [PM.REC]; omega)).trans
    (Stays.put _ mem_pmPages (off := PM.REC e + 4) _ (by simp only [PM.REC]; omega))

/-- The second's number and its flags go to the page over all else that the latch does. -/
theorem Chan.pmLatch_eq (ch : Chan) (step : Bool) (recs : List (Nat × Nat × Nat)) : ∃ d : Chan, Stays slotPages slotStrip ch d ∧ d.flex.pmAcked = false ∧
    ch.pmLatch step recs = ((d.putN pgPm PM.LATCH_SEC (if step then ch.flex.pmStep - 1 else ch.timeNs / 1000000000 - 1)).putN pgPm PM.LATCH_FLAGS
      (b2n step * 2 ^ 31 + b2n ch.localTime * 2 ^ 30)).raise pgPm 8 := by
  obtain ⟨a, ha⟩ : ∃ a, a = if ch.flex.pmAcked then ch else
    { (((ch.inc pgPm PM.LATCH_LOST).raise pgPm 9).journal pgPm clsContained 3 1) with
      flex := { (((ch.inc pgPm PM.LATCH_LOST).raise pgPm 9).journal pgPm clsContained 3 1).flex with pmLost := true } } := ⟨_, rfl⟩
  have hstays : Stays slotPages slotStrip ch (a.each (List.range 168) (fun c e => c.pmRecord recs e)) := by
    refine Stays.trans ?_ (Stays.each _ (fun d e he => d.pmRecord_stays recs (List.mem_range.1 he)) a)
    rw [ha]
    exact Stays.ite (fun _ => .refl ch) (fun _ => (((Stays.put ch mem_pmPages (off := PM.LATCH_LOST) _ (by decide)).trans
      (Stays.raise _ mem_pmPages 9)).trans (Stays.journal _ _ _ _ _)).trans (Stays.onFlex _ _))
  obtain ⟨b, hb⟩ : ∃ b, b = a.each (List.range 168) (fun c e => c.pmRecord recs e) := ⟨_, rfl⟩
  rw [← hb] at hstays
  obtain ⟨d, hd, hacked, heq⟩ : ∃ d : Chan, Stays slotPages slotStrip b d ∧ d.flex.pmAcked = false ∧
      ch.pmLatch step recs = ((d.putN pgPm PM.LATCH_SEC (if step then ch.flex.pmStep - 1 else ch.timeNs / 1000000000 - 1)).putN pgPm PM.LATCH_FLAGS
        (b2n step * 2 ^ 31 + b2n ch.localTime * 2 ^ 30)).raise pgPm 8 := by
    rw [hb, ha]
    exact ⟨_, Stays.onFlex _ _, rfl, rfl⟩
  exact ⟨d, hstays.trans hd, hacked, heq⟩

theorem not_inHeader_pm {off : Nat} (h : 0x100 ≤ off) (hhi : off < 65536) : ¬ InHeader pgPm (pgPm.key off) := by
  simp only [InHeader, Pg.key]
  norm_num
  omega

theorem Chan.get_raisePm (ch : Chan) {off n : Nat} (hlo : 0x100 ≤ off) (hhi : off < 65536) (h0 : nbit (2 ^ n) 0 = false) (h2 : nbit (2 ^ n) 2 = false) :
    (ch.raise pgPm n).get pgPm off = ch.get pgPm off := (HeaderOnly.raiseMask pgPm ch h0 h2).get (not_inHeader_pm hlo hhi)

theorem Chan.pmLatch_shows (ch : Chan) (step : Bool) (recs : List (Nat × Nat × Nat)) :
    (ch.pmLatch step recs).flex.pmAcked = false ∧ (ch.pmLatch step recs).timeNs = ch.timeNs ∧
    (ch.pmLatch step recs).nat pgPm PM.LATCH_SEC = (if step then ch.flex.pmStep - 1 else ch.timeNs / 1000000000 - 1) % 2 ^ 32 ∧
    bit ((ch.pmLatch step recs).get pgPm PM.LATCH_FLAGS) 31 = step ∧ bit ((ch.pmLatch step recs).get pgPm oCAUSE) 8 = true ∧
    Stays slotPages slotStrip ch (ch.pmLatch step recs) := by
  obtain ⟨d, hd, hacked, heq⟩ := ch.pmLatch_eq step recs
  obtain ⟨sec, hsec⟩ : ∃ n, n = if step then ch.flex.pmStep - 1 else ch.timeNs / 1000000000 - 1 := ⟨_, rfl⟩
  obtain ⟨flags, hflags⟩ : ∃ n, n = b2n step * 2 ^ 31 + b2n ch.localTime * 2 ^ 30 := ⟨_, rfl⟩
  rw [← hsec, ← hflags] at heq
  have hstays : Stays slotPages slotStrip ch (ch.pmLatch step recs) := by
    rw [heq]
    exact hd.trans (((Stays.put d mem_pmPages (off := PM.LATCH_SEC) _ (by decide)).trans (Stays.put _ mem_pmPages (off := PM.LATCH_FLAGS) _ (by decide))).trans
      (Stays.raise _ mem_pmPages 8))
  have htime := congrArg (fun x : Chan => x.time) hstays.work
  have hbit : nbit flags 31 = step := by
    have hlt : b2n ch.localTime < 2 := by
      unfold b2n
      split <;> omega
    rw [hflags, nbit, Nat.shiftRight_eq_div_pow]
    cases step <;> simp [b2n] <;> split <;> omega
  refine ⟨?_, congrArg (· / 65536) htime, ?_, ?_, ?_, hstays⟩
  · have hflex := congrArg (fun x : Chan => x.flex) (HeaderOnly.raiseMask pgPm ((d.putN pgPm PM.LATCH_SEC sec).putN pgPm PM.LATCH_FLAGS flags)
      (m := 2 ^ 8) rfl rfl).work
    rw [heq]
    exact (congrArg FlexW.pmAcked hflex).trans hacked
  · rw [heq, Chan.nat, Chan.get_raisePm _ (by decide) (by decide) rfl rfl, Chan.putN, Chan.get_put_ne _ _ (by decide), Chan.putN, Chan.get_put_same,
      BitVec.toNat_ofNat, hsec]
  · rw [heq, Chan.get_raisePm _ (by decide) (by decide) rfl rfl, Chan.putN, Chan.get_put_same, bit_ofNat (by decide), hbit]
  · rw [heq]
    exact Chan.cause_raise _ _ (by decide)

/-! The acknowledge. -/

/-- Classifying the second of one entity leaves the FlexE and slot switch work. -/
theorem Chan.pmClassify_kept (ch : Chan) (k : Nat) (suspect : Bool) (e : Nat) : Stays slotPages slotStrip ch (ch.pmClassify k suspect e) ∧
    (ch.pmClassify k suspect e).flex = ch.flex := by
  have hnote : ∀ (x : Chan) (cls ev d : Nat), Stays [pgPm] id x ((x.raise pgPm 10).journal pgPm cls ev d) := fun x cls ev d =>
    (Stays.raise x (List.mem_singleton_self _) 10).trans (Stays.journal _ _ _ _ _)
  have hwide : ∀ {x y : Chan}, Stays [pgPm] id x y → Stays slotPages slotStrip x y := fun h =>
    h.mono (fun p hp => List.mem_singleton.1 hp ▸ mem_pmPages) slotStrip (fun _ => rfl)
  have hput : ∀ x : KCtl, (ch.putCtl k x).flex = ch.flex := fun x => by
    unfold Chan.putCtl Chan.putRegion
    split <;> rfl
  unfold Chan.pmClassify
  dsimp only
  split_ifs
  · exact ⟨(Stays.putCtl ch k _).trans (hwide (hnote _ _ _ _)), (hnote _ _ _ _).flex.trans (hput _)⟩
  · exact ⟨(Stays.putCtl ch k _).trans (hwide (hnote _ _ _ _)), (hnote _ _ _ _).flex.trans (hput _)⟩
  · exact ⟨Stays.putCtl ch k _, hput _⟩

/-- The keeper takes the record. -/
theorem latchAckHook_shows {w : WReq} (hv : bit w.v 0 = true) (ch : Chan) : Stays slotPages slotStrip ch (latchAckHook w ch) ∧
    (latchAckHook w ch).flex.pmAcked = true ∧ (ch.flex.pmAcked = false → (latchAckHook w ch).flex.pmLost = false) ∧
    (ch.flex.pmAcked = true → (latchAckHook w ch).flex = ch.flex) := by
  by_cases hacked : ch.flex.pmAcked = true
  · have hsame : latchAckHook w ch = ch := if_pos (.inr hacked)
    rw [hsame]
    exact ⟨.refl ch, hacked, fun h => absurd (h.symm.trans hacked) (by decide), fun _ => rfl⟩
  · obtain ⟨a, ha⟩ : ∃ a : Chan, a = { ch with flex := { ch.flex with pmAcked := true, pmLost := false } } := ⟨_, rfl⟩
    have hstart : Stays slotPages slotStrip ch a := ha ▸ Stays.onFlex ch _
    have hflags : a.flex.pmAcked = true ∧ a.flex.pmLost = false := by
      rw [ha]
      exact ⟨rfl, rfl⟩
    obtain ⟨d, hd, hstays, hflex⟩ : ∃ d : Chan, latchAckHook w ch = d ∧ Stays slotPages slotStrip ch d ∧ d.flex.pmAcked = true ∧ d.flex.pmLost = false := by
      rcases hact : ch.active with _ | k
      · exact ⟨a, by rw [latchAckHook, if_neg (by simp [hv, hacked])]; dsimp only; rw [hact, ha], hstart, hflags⟩
      · obtain ⟨b, hb⟩ : ∃ b, b = a.each (List.range 168) (fun c e => c.pmClassify k
          (ch.getB pgPm PM.LATCH_FLAGS_SUSPECT || ch.getB pgPm PM.LATCH_FLAGS_LOCAL_TIME || ch.flex.pmLost) e) := ⟨_, rfl⟩
        obtain ⟨hloop, hkept⟩ : Stays slotPages slotStrip a b ∧ b.flex = a.flex := by
          rw [hb]
          exact List.foldlRecOn (motive := fun x => Stays slotPages slotStrip a x ∧ x.flex = a.flex) _ _ ⟨.refl a, rfl⟩ (fun x hx e _ =>
            ⟨hx.1.trans (x.pmClassify_kept _ _ e).1, (x.pmClassify_kept _ _ e).2.trans hx.2⟩)
        have hform : latchAckHook w ch = { b with flex := { b.flex with
            pmClose := b.flex.pmClose.filter (fun x => decide (ch.nat pgPm PM.LATCH_SEC + 1 < x.2)) } } := by
          rw [latchAckHook, if_neg (by simp [hv, hacked])]
          dsimp only
          rw [hact, hb, ha]
        exact ⟨_, hform, (hstart.trans hloop).trans (Stays.onFlex b _), by simp only [hkept, hflags, and_self]⟩
    rw [hd]
    exact ⟨hstays, hflex.1, fun _ => hflex.2, fun h => absurd h hacked⟩

/-! A service command. -/

/-- Storing a command leaves the arguments of the keeper's page. -/
theorem Chan.svcArgs_svcIssue (ch : Chan) {k : Fin 2} {w : WReq} (hp : w.p = pgKeep k.val) (ho : w.off = KEEP.SVC_CMD) (tag op i : Nat) :
    (ch.svcIssue w k.val tag op).svcArg k.val i = ch.svcArg k.val i := by
  have hne : ∀ off, off < 0x190 → (pgKeep k.val).key (KEEP.SVC_ARG i) ≠ (pgKeep k.val).key off := fun off h => by
    rw [pgKeep_key, pgKeep_key]
    simp only [KEEP.SVC_ARG]
    omega
  have hkeeper : ∀ (c : Chan) x, (c.putKeeper k.val x).svcArg k.val i = c.svcArg k.val i := by
    intro c x
    unfold Chan.putKeeper
    split <;> rfl
  rw [Chan.svcIssue, hkeeper, Chan.svcArg, Chan.nat, Chan.putF, Chan.get_put_ne _ _ (hne _ (by decide)), Chan.putF, Chan.get_put_ne _ _ (hne _ (by decide)),
    hp, ho, Chan.get_put_ne _ _ (hne _ (by decide))]
  rfl

theorem Stays.svcIssue (ch : Chan) {k : Fin 2} {w : WReq} (hp : w.p = pgKeep k.val) (ho : w.off = KEEP.SVC_CMD) (tag op : Nat) :
    Stays slotPages slotStrip ch (ch.svcIssue w k.val tag op) := by
  have h := ServiceOnly.svcIssue ch hp (by rw [ho]; decide) tag op
  have hwork := congrArg (fun x => slotStrip { quietOf x with free := 0 }) h.work
  refine ⟨hwork, fun key hk => h.regs key (fun he => hk (List.mem_map.2 ⟨_, List.mem_cons_of_mem _ (mem_keepPages k), he.symm⟩)), fun hq => ?_⟩
  have hout : (ch.svcIssue w k.val tag op).outQ = ch.outQ := by
    unfold Chan.svcIssue Chan.putKeeper
    split <;> rfl
  rwa [hout]

theorem Stays.svcDone (ch : Chan) (k : Fin 2) (tag status : Nat) : Stays slotPages slotStrip ch (ch.svcDone k.val tag status) :=
  (Stays.put ch (mem_keepPages k) (off := KEEP.SVC_STAT) _ (by decide)).trans (Stays.raise _ (mem_keepPages k) 13)

theorem Stays.svcOk (ch : Chan) (k : Fin 2) (tag : Nat) {l : List Nat} (hl : l.length ≤ 8) : Stays slotPages slotStrip ch (ch.svcOk k.val tag l) :=
  (Stays.putList (mem_keepPages k) l ch (off := KEEP.SVC_RESP 0) (by simp only [KEEP.SVC_RESP]; omega)).trans (Stays.svcDone _ k tag 0)

theorem ServiceOnly.svcOk (ch : Chan) (k : Fin 2) (tag : Nat) {l : List Nat} (hl : l.length ≤ 8) : ServiceOnly k ch (ch.svcOk k.val tag l) := by
  have hlist : ∀ (l : List Nat) (d : Chan) (off : Nat), off + 4 * l.length ≤ 65536 → ServiceOnly k d (d.putList (pgKeep k.val) off l) := by
    intro l
    induction l with
    | nil => exact fun d _ _ => ⟨rfl, fun _ _ => rfl, fun h => h⟩
    | cons x xs ih =>
      intro d off h
      rw [List.length_cons] at h
      exact (ServiceOnly.put k d _ (by omega)).trans (ih _ _ (by omega))
  exact (hlist l ch (KEEP.SVC_RESP 0) (by simp only [KEEP.SVC_RESP]; omega)).trans (ServiceOnly.svcDone _ tag 0)

theorem ServiceOnly.ctl {k : Fin 2} {a b : Chan} (h : ServiceOnly k a b) (j : Nat) : b.ctl j = a.ctl j := by
  have hA := congrArg (fun x : Chan => x.regA) h.work
  have hB := congrArg (fun x : Chan => x.regB) h.work
  unfold Chan.ctl Chan.region
  split
  · exact congrArg Region.ctl hA
  · exact congrArg Region.ctl hB

/-- A service command of an active keeper whose argument is bad (R111). -/
theorem Chan.svcRun_badArg {d : Chan} {k tag : Nat} (h : d.kstate k = 4) (anyKeeper refused dmaErr badRec : Bool) (eff : Chan → Chan) :
    d.svcRun k tag anyKeeper true refused dmaErr badRec eff = d.svcDone k tag 2 := by
  have hruns : d.fwRuns k = true := by simp [Chan.fwRuns, h]
  rw [Chan.svcRun, if_neg (by simp [hruns]), if_neg (by simp [h]), if_pos rfl]

/-- The answer of PM_READ (R261). -/
def PmEnt.answer (x : PmEnt) (day : Bool) (n : Nat) : List Nat :=
  match x.bin day n with
  | some b => [2 ^ 31 + b2n b.suspect * 2 ^ 30 + b2n b.incomplete * 2 ^ 29 + b2n x.unavail * 2 ^ 28 + b.elapsed % 2 ^ 17,
      b.es, b.ses, b.uas, b.err, b.err / 2 ^ 32, b.start, b.defect]
  | none => [b2n x.unavail * 2 ^ 28, 0, 0, 0, 0, 0, 0, 0]

theorem PmEnt.answer_length (x : PmEnt) (day : Bool) (n : Nat) : (x.answer day n).length = 8 := by
  unfold PmEnt.answer
  split <;> rfl

theorem PmEnt.answer_valid (x : PmEnt) (day : Bool) (n : Nat) (h : 0 < (x.answer day n).length) :
    nbit ((x.answer day n)[0]) 31 = (x.bin day n).isSome := by
  have hlt : ∀ b, b2n b < 2 := fun b => by
    unfold b2n
    split <;> omega
  obtain hbin | ⟨b, hbin⟩ := Option.eq_none_or_eq_some (x.bin day n)
  · have hx := hlt x.unavail
    simp only [PmEnt.answer, hbin, Option.isSome_none, List.getElem_cons_zero, nbit, Nat.shiftRight_eq_div_pow, beq_eq_false_iff_ne]
    omega
  · have hx := hlt x.unavail
    have hs := hlt b.suspect
    have hi := hlt b.incomplete
    simp only [PmEnt.answer, hbin, Option.isSome_some, List.getElem_cons_zero, nbit, Nat.shiftRight_eq_div_pow, beq_iff_eq]
    omega

theorem nbit_word (n : Nat) {i : Nat} (h : i < 32) : nbit (n % 2 ^ 32) i = nbit n i := by
  rw [nbit_eq_testBit, nbit_eq_testBit, Nat.testBit_mod_two_pow, decide_eq_true h, Bool.true_and]

/-- The current bin's counts. -/
theorem PmEnt.answer_current (x : PmEnt) (day : Bool) : ∃ v w : Nat, ∃ r : List Nat, x.answer day 0 =
    v :: (if day then x.cur24 else x.cur15).es :: (if day then x.cur24 else x.cur15).ses :: (if day then x.cur24 else x.cur15).uas :: w :: r := by
  cases day <;> exact ⟨_, _, _, rfl⟩

section
variable {ch : Chan} {k tag : Nat} (h : ch.kstate k = 4)
include h

theorem Chan.svcPmRead_bad (hbad : pmEntity (ch.svcArg k 0) = none ∨ 16 < nbits (ch.svcArg k 1) 4 0) : ch.svcPmRead k tag = ch.svcDone k tag 2 := by
  have hb : ((pmEntity (ch.svcArg k 0)).isNone || decide (16 < nbits (ch.svcArg k 1) 4 0)) = true := by
    rcases hbad with he | hn
    · rw [he]
      rfl
    · rw [decide_eq_true hn, Bool.or_true]
  rw [Chan.svcPmRead]
  dsimp only
  rw [hb, Chan.svcRun_badArg h]

theorem Chan.svcPmRead_good {e : Nat} (he : pmEntity (ch.svcArg k 0) = some e) (hn : nbits (ch.svcArg k 1) 4 0 ≤ 16) :
    ch.svcPmRead k tag = ch.svcOk k tag ((tget ({} : PmEnt) (ch.ctl k).pm e).answer (nbit (ch.svcArg k 1) 8) (nbits (ch.svcArg k 1) 4 0)) := by
  have hb : ((pmEntity (ch.svcArg k 0)).isNone || decide (16 < nbits (ch.svcArg k 1) 4 0)) = false := by
    rw [he, decide_eq_false (by omega)]
    rfl
  rw [Chan.svcPmRead]
  dsimp only
  rw [hb, Chan.svcRun_active h, he]
  rfl

theorem Chan.svcPmReset_bad (he : pmEntity (ch.svcArg k 0) = none) : ch.svcPmReset k tag = ch.svcDone k tag 2 := by
  rw [Chan.svcPmReset]
  dsimp only
  rw [he]
  exact Chan.svcRun_badArg h _ _ _ _ _

end

/-- The entity that a reset leaves (R261). -/
def PmEnt.cleared (x : PmEnt) : PmEnt :=
  { unavail := x.unavail, run := x.run.map (fun p => { p with age15 := 1000, age24 := 1000 }), cur15 := { suspect := true }, cur24 := { suspect := true } }

theorem Chan.svcPmReset_good {ch : Chan} {k tag e : Nat} (h : ch.kstate k = 4) (he : pmEntity (ch.svcArg k 0) = some e) :
    ch.svcPmReset k tag = (ch.putCtl k { ch.ctl k with pm := tput {} (ch.ctl k).pm e (tget {} (ch.ctl k).pm e).cleared }).svcDone k tag 0 := by
  rw [Chan.svcPmReset]
  dsimp only
  rw [he]
  exact Chan.svcRun_active h _ _ _

theorem Chan.ctl_putCtl (ch : Chan) (k : Nat) (x : KCtl) : (ch.putCtl k x).ctl k = x := by
  unfold Chan.putCtl Chan.putRegion Chan.ctl Chan.region
  split <;> rfl

end Sys2Proof.Machine
end

section
set_option Elab.async false
namespace Sys2Proof.Proofs

open Sys2Proof Sys2Proof.Machine Sys2Proof.Tests

/-- A second of performance monitoring is latched. -/
theorem completes_pmLatched {s : State} {c : Fin 4} {step : Bool} (recs : List (Nat × Nat × Nat)) (hr : Ready s c) (hen : (s.chan c).enabled pgPm = true)
    (hcfg : (s.chan c).getB pgPm PM.CFG_EN = true) (hstep : step = decide ((s.chan c).flex.pmStep ≠ 0)) :
    Completes (.pmSecondLatch c step recs) s (fun u => PmTimed s u c ∧ (u.chan c).flex.pmAcked = false ∧
      (u.chan c).nat pgPm PM.LATCH_SEC = (if step then (s.chan c).flex.pmStep - 1 else (u.chan c).timeNs / 1000000000 - 1) % 2 ^ 32 ∧
      bit ((u.chan c).get pgPm PM.LATCH_FLAGS) 31 = step ∧ bit ((u.chan c).get pgPm oCAUSE) 8 = true) := by
  obtain ⟨x, hx⟩ : ∃ x, x = (s.chan c).pmCross step := ⟨_, rfl⟩
  have hticks : Ticks (s.chan c) x := by
    rw [hx, Chan.pmCross]
    split
    · exact .refl _
    · exact .runNet _ _
  obtain ⟨f, hf, hexec⟩ : ∃ f, f (s.chan c) = x.pmLatch step recs ∧ exec (.pmSecondLatch c step recs) s = .next (s.onLive c f) :=
    ⟨_, (if_pos (by rw [hen, hcfg, ← hstep]; simp)).trans (by rw [hx]), rfl⟩
  obtain ⟨hacked, htime, hsec, hflags, hcause, hstays⟩ := x.pmLatch_shows step recs
  have hstays' : Stays slotPages (fun ch => slotStrip (noTime ch)) x (f (s.chan c)) := by
    rw [hf]
    exact hstays.mono (fun _ h => h) noTime (fun _ => rfl)
  obtain ⟨hframe, hcalm⟩ := hstays'.timed (noFatal_of_nil hr.2) hticks
  rw [State.onLive_of_ready hr] at hexec
  rw [hf] at hcalm
  have hget : ∀ off, off < 65536 → ((s.runChan c f).chan c).get pgPm off = (x.pmLatch step recs).get pgPm off := fun off ho => calm_get hcalm ho (by decide)
  have hnow : ((s.runChan c f).chan c).timeNs = x.timeNs := by
    have htime' := congrArg (fun y : Chan => y.timeNs) hcalm.work
    exact htime'.trans htime
  have hpm : x.flex.pmStep = (s.chan c).flex.pmStep := by
    have hflex := congrArg (fun y : Chan => y.flex.pmStep) hticks.work
    exact hflex
  refine ⟨_, hexec, hframe, ?_, ?_, ?_, ?_⟩
  · rw [hcalm.flex, hacked]
  · rw [Chan.nat, hget _ (by decide), ← Chan.nat, hsec, hpm, hnow]
  · rw [hget _ (by decide), hflags]
  · rw [hget _ (by decide), hcause]

/-- The keeper acknowledges the record. -/
theorem completes_latchAck {s : State} {c : Fin 4} {k : Fin 2} (hr : KeeperReady s c k) : Completes (.pmLatchAck c k) s (fun u => SlotFrame s u c ∧
    (u.chan c).flex.pmAcked = true ∧ ((s.chan c).flex.pmAcked = false → (u.chan c).flex.pmLost = false) ∧
    ((s.chan c).flex.pmAcked = true → (u.chan c).flex = (s.chan c).flex)) := by
  obtain ⟨hready, hbus, hwin⟩ := hr
  have hwrite := State.pageWrite_winner (p := pgPm) (kd := .pm) (off := PM.LATCH_ACK) (h := Wit.hit .pm PM.LATCH_ACK) 1 hready hbus rfl rfl rfl rfl rfl
    rfl hwin
  have hexec : exec (.pmLatchAck c k) s = .next (s.pageWrite (keeperReq k) c pgPm PM.LATCH_ACK 1) := by fin_cases k <;> rfl
  have htally := HeaderOnly.tally pgPm (s.chan c) 4 ((keeperReq k).attr none) 1
  have hfatal := State.chState_ne_fatal hready.1
  obtain ⟨t, ht, heq⟩ : ∃ t : State, HeaderStep pgPm c s t ∧ s.onPages c (fun ch => ch.tally pgPm 4 ((keeperReq k).attr none)) = t := by
    rw [State.onPages_of_not_fatal _ _ _ hfatal]
    exact ⟨_, htally.step (f := fun ch => ch.tally pgPm 4 ((keeperReq k).attr none)) (onlyIrqs_of_nil hready.2), rfl⟩
  dsimp only at hwrite
  rw [heq, State.hookRun, if_neg (by decide), State.onPages_of_not_fatal _ _ _ (by rwa [ht.chState])] at hwrite
  have hreq : ∃ w : WReq, wordReq t (keeperReq k) c pgPm PM.LATCH_ACK (Wit.hit .pm PM.LATCH_ACK) 1 = w ∧ w.v = 1 := ⟨_, rfl, rfl⟩
  obtain ⟨w, hw, hv⟩ := hreq
  rw [hw] at hwrite
  obtain ⟨hstays, hacked, hlost, hkept⟩ := latchAckHook_shows (w := w) (by rw [hv]; decide) (t.chan c)
  have hirqs : NoFatal (t.chan c).outQ := ht.chan.noFatal (noFatal_of_nil hready.2)
  have hcalm := State.runChan_calm (f := latchAckHook w) (hstays.outs hirqs)
  have hflex : (t.chan c).flex = (s.chan c).flex := by
    have hwork := congrArg (fun x : Chan => x.flex) ht.chan.work
    exact hwork
  refine ⟨_, hexec.trans (congrArg _ hwrite), keeps_trans (ht.keeps mem_pmPages _) (hstays.keeps hirqs), ?_⟩
  show ((t.runChan c (latchAckHook w)).chan c).flex.pmAcked = true ∧ (_ → ((t.runChan c (latchAckHook w)).chan c).flex.pmLost = false) ∧
    (_ → ((t.runChan c (latchAckHook w)).chan c).flex = _)
  rw [hcalm.flex, ← hflex]
  exact ⟨hacked, hlost, hkept⟩

section
variable {i : Instr} {s : State} {c : Fin 4} {k : Fin 2} {tag op : Nat} {run : Chan → Chan} {P : State → Prop}

/-- A service command of an active keeper that answers on its page: what it finds, and what it leaves. -/
theorem completes_pmService (hr : SvcReady s c k tag) (hi : exec i s = .next (s.service (.func 0) c k tag op run))
    (h : ∀ d : Chan, ServiceOnly k (s.chan c) d → d.kstate k.val = 4 → (∀ i, d.svcArg k.val i = (s.chan c).svcArg k.val i) →
      ∃ y, run d = y ∧ Stays slotPages slotStrip d y ∧ (OnlyIrqs d.outQ → OnlyIrqs y.outQ) ∧
        ∀ u : State, SlotFrame s u c → u.chan c = { y with outQ := [] } → P u) : Completes i s P := by
  obtain ⟨t, w, ht, hp, ho, hsvc⟩ := State.service_pf0 hr op run
  have hissue := ServiceOnly.svcIssue (t.chan c) hp (by rw [ho]; decide) tag op
  have harg : ∀ i, ((t.chan c).svcIssue w k.val tag op).svcArg k.val i = (s.chan c).svcArg k.val i := fun i => by
    rw [Chan.svcArgs_svcIssue _ hp ho, Chan.svcArg, Chan.nat, ht.chan.get (pgKeep_key_notInHeader k (by simp only [KEEP.SVC_ARG]; omega))]
    rfl
  have hstate : ((t.chan c).svcIssue w k.val tag op).kstate k.val = 4 := by
    rw [Chan.kstate_svcIssue _ hp ho]
    exact (ht.chan.getF (pgKeep_key_notInHeader k (by decide))).trans hr.2.1
  obtain ⟨y, hy, hstays, hirqs, hP⟩ := h _ ((ServiceOnly.of_headerOnly ht.chan).trans hissue) hstate harg
  obtain ⟨hkeeps, hchan⟩ := ht.answers (f := fun ch => run (ch.svcIssue w k.val tag op)) (mem_keepPages k) hr.1.1.2 hy
    ((Stays.svcIssue _ hp ho tag op).trans hstays) (fun hq => hirqs (hissue.outs hq))
  exact ⟨_, hi.trans (congrArg _ hsvc), hP _ hkeeps hchan⟩

end

section
variable {s : State} {c : Fin 4} {k : Fin 2} {tag : Nat} (hr : SvcReady s c k tag)
include hr

/-- A service whose argument names nothing (R111). -/
theorem completes_pmBadArg {i : Instr} {op : Nat} {run : Chan → Chan} (hi : exec i s = .next (s.service (.func 0) c k tag op run))
    (hbad : ∀ d : Chan, d.kstate k.val = 4 → (∀ i, d.svcArg k.val i = (s.chan c).svcArg k.val i) → run d = d.svcDone k.val tag 2) :
    Completes i s (fun u => SlotFrame s u c ∧ SvcDone u c k tag 2 ∧ noService (workOf (u.chan c)) = noService (workOf (s.chan c))) :=
  completes_pmService hr hi (fun d hd hstate harg => ⟨_, hbad d hstate harg, .svcDone d k tag 2, (ServiceOnly.svcDone d tag 2).outs, fun u hframe hchan => by
    refine ⟨hframe, ?_, ?_⟩
    · rw [SvcDone, hchan, Chan.nat_clear]
      exact Chan.nat_svcDone d k hr.2.2.2 (by decide)
    · rw [hchan, workOf_clear]
      exact (hd.trans (ServiceOnly.svcDone d tag 2)).work⟩)

/-- PM_READ of a bin. -/
theorem completes_pmRead {e : Nat} (he : pmEntity ((s.chan c).svcArg k.val 0) = some e) (hn : nbits ((s.chan c).svcArg k.val 1) 4 0 ≤ 16) :
    Completes (.pmRead (.func 0) c k tag) s (fun u => SlotFrame s u c ∧ SvcDone u c k tag 0 ∧ noService (workOf (u.chan c)) = noService (workOf (s.chan c)) ∧
      let l := (tget ({} : PmEnt) ((s.chan c).ctl k.val).pm e).answer (nbit ((s.chan c).svcArg k.val 1) 8) (nbits ((s.chan c).svcArg k.val 1) 4 0)
      ∀ i (h : i < l.length), (u.chan c).nat (pgKeep k.val) (KEEP.SVC_RESP i) = l[i] % 2 ^ 32) := by
  refine completes_pmService hr rfl (fun d hd hstate harg => ?_)
  have hlen := PmEnt.answer_length (tget ({} : PmEnt) ((s.chan c).ctl k.val).pm e) (nbit ((s.chan c).svcArg k.val 1) 8) (nbits ((s.chan c).svcArg k.val 1) 4 0)
  refine ⟨_, Chan.svcPmRead_good hstate ((congrArg pmEntity (harg 0)).trans he) (by rw [harg]; exact hn), ?_⟩
  rw [harg, hd.ctl]
  refine ⟨.svcOk d k tag hlen.le, (ServiceOnly.svcOk d k tag hlen.le).outs, fun u hframe hchan => ⟨hframe, ?_, ?_, fun i h => ?_⟩⟩
  · rw [SvcDone, hchan, Chan.nat_clear]
    exact Chan.svcOk_shown d k hr.2.2.2 _
  · rw [hchan, workOf_clear]
    exact (hd.trans (ServiceOnly.svcOk d k tag hlen.le)).work
  · rw [hchan, Chan.nat_clear]
    exact Chan.svcOk_word d k tag hlen.le h

/-- PM_RESET of an entity. -/
theorem completes_pmReset {e : Nat} (he : pmEntity ((s.chan c).svcArg k.val 0) = some e) :
    Completes (.pmReset (.func 0) c k tag) s (fun u => SlotFrame s u c ∧ SvcDone u c k tag 0 ∧
      tget ({} : PmEnt) ((u.chan c).ctl k.val).pm e = (tget ({} : PmEnt) ((s.chan c).ctl k.val).pm e).cleared) := by
  refine completes_pmService hr rfl (fun d hd hstate harg => ?_)
  refine ⟨_, Chan.svcPmReset_good hstate ((congrArg pmEntity (harg 0)).trans he), ?_⟩
  obtain ⟨b, hb⟩ : ∃ b, b = d.putCtl k.val { d.ctl k.val with pm := tput {} (d.ctl k.val).pm e (tget {} (d.ctl k.val).pm e).cleared } := ⟨_, rfl⟩
  have hctl : b.ctl k.val = { d.ctl k.val with pm := tput {} (d.ctl k.val).pm e (tget {} (d.ctl k.val).pm e).cleared } := by rw [hb, Chan.ctl_putCtl]
  have hput : Stays slotPages slotStrip d b := hb ▸ Stays.putCtl d k.val _
  have hout : b.outQ = d.outQ := by
    rw [hb]
    unfold Chan.putCtl Chan.putRegion
    split <;> rfl
  rw [← hb]
  refine ⟨hput.trans (.svcDone b k tag 0), fun hq => (ServiceOnly.svcDone b tag 0).outs (by rwa [hout]), fun u hframe hchan => ⟨hframe, ?_, ?_⟩⟩
  · rw [SvcDone, hchan, Chan.nat_clear]
    exact Chan.nat_svcDone b k hr.2.2.2 (by decide)
  · have hu := congrArg (fun x : Chan => x.ctl k.val) hchan
    have hclear : ∀ x : Chan, Chan.ctl { x with outQ := [] } k.val = x.ctl k.val := fun _ => rfl
    rw [hu, hclear, (ServiceOnly.svcDone (k := k) b tag 0).ctl, hctl, ← hd.ctl]
    exact tget_tput_same _ _ _ _

end

/-- Settles O47: the standby page is written and validated, a switch makes it active, a parity error falls back; a second is latched for the keeper, which
classifies it, and PM_READ and PM_RESET answer. -/
theorem slotSwitchAndMonitoring : Obligations.SlotSwitchAndMonitoring := by
  refine ⟨fun s c g hg => ⟨fun page slot v hr hpage hslot => ⟨completes_connWritten hg hr hpage hslot v, completes_connRefused hg hr hpage hslot v⟩,
      fun hr => completes_slotCommit hg hr, fun hr => ⟨completes_slotSwitch hg hr, completes_slotSwitch_refused hg hr⟩,
      fun hr hen => ⟨completes_commitDone hr hg hen, fun hon hreq => ?_, fun slot hslot hon hfb => completes_parityErr hr hg hen hslot hon hfb⟩⟩,
    fun s c => ⟨fun step recs hr hen hcfg hstep => completes_pmLatched recs hr hen hcfg hstep, fun k hr => ?_, fun k tag e hr he => ⟨fun hn => ?_, ?_⟩⟩,
    fun s c => ⟨fun step recs hr hoff => ?_, fun k hr => ?_, fun k tag hr => ⟨fun hbad => ?_, fun he => ?_, fun e he hn => ?_⟩⟩⟩
  · obtain ⟨u, hexec, hframe, hshown, hpage⟩ := completes_pageSwitch hr hg hen hon hreq
    exact ⟨u, hexec, hframe, hshown.page, hpage⟩
  · obtain ⟨u, hexec, hframe, hacked, hlost, -⟩ := completes_latchAck hr
    exact ⟨u, hexec, hframe, hacked, hlost⟩
  · obtain ⟨u, hexec, hframe, hdone, hwork, hwords⟩ := completes_pmRead hr he (by omega)
    obtain ⟨v, w, r, hcur⟩ := PmEnt.answer_current (tget ({} : PmEnt) ((s.chan c).ctl k.val).pm e) (nbit ((s.chan c).svcArg k.val 1) 8)
    dsimp only at hwords
    rw [hn, hcur] at hwords
    exact ⟨u, hexec, hframe, hdone, hwork, hwords 1 (by simp), hwords 2 (by simp), hwords 3 (by simp)⟩
  · exact completes_pmReset hr he
  · refine completes_same hr (f := fun ch => _) rfl (if_neg ?_)
    rcases hoff with h | h | h
    · simp [h]
    · simp [h]
    · simp only [Bool.and_eq_true, beq_iff_eq]
      exact fun hand => h hand.2
  · obtain ⟨u, hexec, hframe, hacked, -, hkept⟩ := completes_latchAck hr
    exact ⟨u, hexec, hframe, hacked, hkept⟩
  · obtain ⟨u, hexec, hframe, hdone, -⟩ := completes_pmBadArg hr (i := .pmRead (.func 0) c k tag) (run := fun ch => ch.svcPmRead k.val tag) rfl (fun d hstate harg =>
      Chan.svcPmRead_bad hstate (by rw [harg, harg]; exact hbad))
    exact ⟨u, hexec, hframe, hdone⟩
  · exact completes_pmBadArg hr (i := .pmReset (.func 0) c k tag) (run := fun ch => ch.svcPmReset k.val tag) rfl (fun d hstate harg => Chan.svcPmReset_bad hstate (by rw [harg]; exact he))
  · obtain ⟨u, hexec, hframe, hdone, -, hwords⟩ := completes_pmRead hr he hn
    have hlen := PmEnt.answer_length (tget ({} : PmEnt) ((s.chan c).ctl k.val).pm e) (nbit ((s.chan c).svcArg k.val 1) 8) (nbits ((s.chan c).svcArg k.val 1) 4 0)
    have hpos : 0 < ((tget ({} : PmEnt) ((s.chan c).ctl k.val).pm e).answer (nbit ((s.chan c).svcArg k.val 1) 8)
      (nbits ((s.chan c).svcArg k.val 1) 4 0)).length := by omega
    have hword := hwords 0 hpos
    refine ⟨u, hexec, hframe, hdone, ?_⟩
    rw [← PmEnt.answer_valid _ _ _ hpos, ← Chan.nbit_nat, hword, nbit_word _ (by decide)]

end Sys2Proof.Proofs
end

/-! What the delivery of any effect leaves of a channel: no output of it, not even a fatal cause, reaches its blocks (R588, R591). -/

section
set_option Elab.async false
namespace Sys2Proof.Machine

/-- A register that no delivery writes: outside the journal, and none that counts or shows causes. -/
def BlockReg (key : Nat) : Prop := key / 65536 ≠ pgJrnl.key 0 / 65536 ∧ ¬ CountReg (key % 65536)

/-- A fatal cause ends the tests, and gives back the bridge lanes that stood in for those under test (R578, R591). -/
abbrev blockStrip (ch : Chan) : Chan := { ch with tests := [], brdg := [] }

/-- From `a` to `b` only journals, causes and counters, tests and bridge lanes have changed. -/
abbrev Delivers : Chan → Chan → Prop := Spares BlockReg blockStrip

theorem BlockReg.not_count {key : Nat} (h : BlockReg key) (p : Pg) (off : Nat) (ho : CountReg off) : key ≠ p.key off := by
  rintro rfl
  have hlt : off < 0x100 := by
    simp only [CountReg, oCAUSE, oFIRST, oOVF] at ho
    omega
  refine h.2 ?_
  rw [p.key_header hlt.le, Pg.key]
  norm_num
  rwa [show (p.die * 33554432 + p.num * 65536 + off) % 65536 = off by omega]

namespace Delivers

theorem journal (ch : Chan) (p : Pg) (cls ev detail : Nat) : Delivers ch (ch.journal p cls ev detail) := Spares.journal (fun _ h => h.1) ch p cls ev detail

theorem raise (ch : Chan) (p : Pg) (n : Nat) (h0 : nbit (2 ^ n) 0 = false) (h2 : nbit (2 ^ n) 2 = false) : Delivers ch (ch.raise p n) :=
  Spares.of_counts (Counts.raiseMask p ch h0 h2) (fun _ hk off ho => hk.not_count p off ho)

theorem testEnd (ch : Chan) (k st : Nat) : Delivers ch (ch.testEnd k st) := by
  have hreturn : ∀ (c : Chan) (d i : Nat), Delivers c (c.brReturn d i) := fun c d i => by
    unfold Chan.brReturn
    exact .ite (fun _ => .refl c) (fun _ => .of_work rfl rfl rfl)
  have htest : ∀ x, Delivers ch (ch.putTest k x) := fun x => .of_work rfl rfl rfl
  unfold Chan.testEnd
  dsimp only
  exact (((htest _).trans (.ite (fun _ => hreturn _ _ _) (fun _ => .refl _))).trans (raise _ _ 8 rfl rfl)).trans (journal _ _ _ _ _)

theorem testsFatal (ch : Chan) : Delivers ch ch.testsFatal := Spares.each (f := fun c k => c.testEnd k 4) (fun c k => testEnd c k 4) _ ch

theorem clear (ch : Chan) : Delivers ch { ch with outQ := [] } := ⟨rfl, fun _ _ => rfl, fun _ => noFatal_of_nil rfl⟩

theorem of_eq {a b : Chan} (h : b = a) : Delivers a b := by
  rw [h]
  exact Spares.refl a

theorem of_calm {a b : Chan} (h : Calm a b) : Delivers a b := Spares.of_jrnl (fun _ hk => hk.1) (h.mono (fun _ hm => nomatch hm) _ (fun _ => rfl))

theorem jrnlRaw (ch : Chan) (e : Nat) : Delivers ch (ch.jrnlRaw e) := of_calm (.jrnlRaw ch e)

/-- What a delivery leaves of the channel's fields. -/
theorem field {α : Type} {a b : Chan} (h : Delivers a b) (f : Chan → α) (hf : ∀ x : Chan, f (blockStrip { quietOf x with free := 0 }) = f x) : f b = f a :=
  (hf b).symm.trans ((congrArg f h.work).trans (hf a))

end Delivers

/-- Of every channel a step of the package leaves its blocks. -/
def State.BlocksKept (s t : State) : Prop := ∀ d : Fin 4, Delivers (s.chan d) (t.chan d)

namespace State.BlocksKept

variable {s t u : State}

theorem refl (s : State) : s.BlocksKept s := fun _ => Spares.refl _

theorem trans (h : s.BlocksKept t) (g : t.BlocksKept u) : s.BlocksKept u := fun d => (h d).trans (g d)

theorem of_chans (h : t.chans = s.chans) : s.BlocksKept t := fun d => .of_eq (by rw [State.chan, h, State.chan])

theorem setChan (s : State) (c : Fin 4) {ch : Chan} (h : Delivers (s.chan c) ch) : s.BlocksKept (s.setChan c ch) := fun d => by
  rw [State.chan_setChan]
  split
  · next hd =>
    rw [hd]
    exact h
  · exact Spares.refl _

theorem flush (s : State) (c : Fin 4) : s.BlocksKept (s.flush c) := fun d => by
  rw [State.flush_chan]
  split
  · next hd =>
    rw [hd]
    exact .clear _
  · exact Spares.refl _

theorem islJournal (s : State) (page cls ev detail : Nat) : s.BlocksKept (s.islJournal page cls ev detail) := by
  unfold State.islJournal
  split
  · exact (setChan s 0 (.jrnlRaw _ _)).trans (flush _ 0)
  · exact refl s

theorem endTests (s : State) (c : Fin 4) : s.BlocksKept (s.endTests c) := by
  unfold State.endTests
  split
  · exact (setChan s c (.testsFatal _)).trans (flush _ c)
  · exact refl s

theorem fatalChan (s : State) (c : Fin 4) (cause : Nat) (off : Bool) : s.BlocksKept (s.fatalChan c cause off) := by
  unfold State.fatalChan
  split
  · exact of_chans rfl
  split
  · dsimp only
    refine BlocksKept.trans ?_ (islJournal _ _ _ _ _)
    refine ((endTests s c).trans (of_chans (State.setChState_chans _ c.val 6))).trans (of_chans ?_)
    split <;> rfl
  · exact refl s

end State.BlocksKept

/-- The package takes what an effect puts out, and leaves the blocks of the channel as the effect left them. -/
theorem State.runChan_delivers (s : State) (c : Fin 4) (f : Chan → Chan) : Delivers (f (s.chan c)) ((s.runChan c f).chan c) := by
  unfold State.runChan State.deliver
  rw [State.chan_setChan_same]
  dsimp only
  generalize hstart : ((s.setChan c (f (s.chan c))).setChan c { (f (s.chan c)).journalCauses with outQ := [] }) = start
  have hfirst : Delivers (f (s.chan c)) (start.chan c) := by
    rw [← hstart, State.chan_setChan_same]
    exact (Delivers.of_calm (.journalCauses _)).trans (Delivers.clear _)
  refine hfirst.trans ?_
  refine List.foldlRecOn (motive := fun t : State => start.BlocksKept t) _ _ (.refl start) (fun t ht o _ => ht.trans ?_) c
  split
  · exact .fatalChan t c _ _
  · exact .of_chans (State.deliverOne_chan t _ _ _)

end Sys2Proof.Machine
end

/-! Actions fire (R173, R174, R178, R179), and the pour (R193, R194). -/

section
set_option Elab.async false
namespace Sys2Proof.Machine

/-- A register of a block that the clock does not drive. -/
theorem not_clockKey {key : Nat} (hpage : key / 65536 ≠ pgSlot.key 0 / 65536) (hreg : ¬ CountReg (key % 65536)) (ch : Chan) : ¬ ClockKey ch key := by
  rintro (⟨-, h⟩ | ⟨g, hg, h⟩)
  · exact hreg h
  · refine hpage ?_
    rcases h with rfl | rfl
    · exact Pg.key_div _ (by simp only [SLOT.IDLE_BLK]; omega)
    · exact Pg.key_div _ (by simp only [SLOT.IDLE_BLK]; omega)

/-- A slot's firing, once its target has acted, changes the slots' shortage and the ACT page. -/
abbrev lowStrip (ch : Chan) : Chan := { ch with act := { ch.act with low := false } }

/-- The slot that has fired (R178). -/
def ActSlot.fired (x : ActSlot) (result : Nat) : ActSlot := { x with st := if x.autoFree then 0 else 2, result := result }

theorem Stays.putLow (ch : Chan) (q : Bool) : Stays [pgAct] lowStrip ch { ch with act := { ch.act with low := q } } := ⟨rfl, fun _ _ => rfl, fun h => h⟩

theorem Stays.slotsLow (ch : Chan) : Stays [pgAct] lowStrip ch ch.slotsLow := by
  unfold Chan.slotsLow
  exact .trans (putLow ch _) (.ite (fun _ => .raise _ (List.mem_singleton_self _) _) (fun _ => .refl _))

/-- What a slot does after its target has acted (R174, R178, R179). -/
theorem Chan.fire_tail (ch : Chan) (i : Nat) (stepped : Bool) {r : Chan × Nat}
    (hr : ch.runTarget (ch.slot i) (if stepped then 2 else if (ch.slot i).late then 1 else 0) (if (ch.slot i).target = 9 then (ch.slot i).time
      else if stepped ∨ (ch.slot i).late then ch.timeNs else (ch.slot i).time) = r) :
    Stays [pgAct] lowStrip (r.1.putSlot i ((ch.slot i).fired r.2)) (ch.fire i stepped) := by
  have hp : pgAct ∈ [pgAct] := List.mem_singleton_self _
  have hinc : ∀ (c : Chan) {off : Nat}, off < 65536 → Stays [pgAct] lowStrip c (c.inc pgAct off) := fun c _ h => .put c hp _ h
  unfold Chan.fire
  dsimp only
  rw [hr]
  rw [show r.1.putSlot i { ch.slot i with st := if (ch.slot i).autoFree then 0 else 2, result := r.2 } = r.1.putSlot i ((ch.slot i).fired r.2) from rfl]
  generalize r.1.putSlot i ((ch.slot i).fired r.2) = done
  refine Stays.trans ?_ (.ite (fun _ => .slotsLow _) (fun _ => .refl _))
  have hnotify : Stays [pgAct] lowStrip done (if (ch.slot i).notify then (done.inc pgAct ACT.FIRED_CNT).raise pgAct 8 else done.inc pgAct ACT.FIRED_CNT) :=
    .ite (fun _ => (hinc done (off := ACT.FIRED_CNT) (by decide)).trans (.raise _ hp _)) (fun _ => hinc done (by decide))
  refine hnotify.trans (.ite (fun _ => ?_) (fun _ => .ite (fun _ => ?_) (fun _ => .refl _)))
  · exact ((hinc _ (by decide)).trans (.raise _ hp _)).trans (.journal _ _ _ _ _)
  · exact (((Stays.capture _ hp _ _ _ _ _).trans (hinc _ (by decide))).trans (.raise _ hp _)).trans (.journal _ _ _ _ _)

theorem Chan.slot_putSlot_same (ch : Chan) (i : Nat) (x : ActSlot) : (ch.putSlot i x).slot i = x := tget_tput_same _ _ _ _

theorem Chan.slot_putSlot_ne (ch : Chan) {i j : Nat} (x : ActSlot) (h : j ≠ i) : (ch.putSlot i x).slot j = ch.slot j := tget_tput_ne _ _ _ h

/-- What a frame that leaves the slots says of one. -/
theorem Stays.slot {pages : List Pg} {a b : Chan} (h : Stays pages lowStrip a b) (i : Nat) : b.slot i = a.slot i := by
  have hwork := congrArg (fun x : Chan => x.slot i) h.work
  exact hwork

/-- The slot shows how its action ended. -/
theorem Chan.slot_fire (ch : Chan) (i : Nat) (stepped : Bool) {r : Chan × Nat}
    (hr : ch.runTarget (ch.slot i) (if stepped then 2 else if (ch.slot i).late then 1 else 0) (if (ch.slot i).target = 9 then (ch.slot i).time
      else if stepped ∨ (ch.slot i).late then ch.timeNs else (ch.slot i).time) = r) :
    (ch.fire i stepped).slot i = (ch.slot i).fired r.2 :=
  ((ch.fire_tail i stepped hr).slot i).trans (Chan.slot_putSlot_same _ _ _)

theorem Ticks.slot {a b : Chan} (h : Ticks a b) (i : Nat) : b.slot i = a.slot i := by
  have hwork := congrArg (fun x : Chan => x.slot i) h.work
  exact hwork

/-- The slot is due: it is pending, and no pending slot goes before it (R174). -/
structure SlotDue (ch : Chan) (i : Nat) : Prop where
  index : i < 1024
  pending : (ch.slot i).st = 1
  first : (ch.pendingSlots.any (fun e => e.2.before (ch.slot i))) = false

theorem Chan.fireDue_of_due {ch : Chan} {i : Nat} (h : SlotDue ch i) : ch.fireDue (ch.slot i).target i = (ch.runNet (ch.slot i).due).fire i false :=
  if_pos ⟨h.index, h.pending, rfl, h.first⟩

/-! The pour. -/

/-- BREW's and Cosy's registers that a pour is decided by. -/
theorem Ticks.brew_get {a b : Chan} (h : Ticks a b) {off : Nat} (hoff : off < 65536) (hreg : ¬ CountReg off) : b.get pgBrew off = a.get pgBrew off := by
  refine h.get (not_clockKey ?_ ?_)
  · rw [Pg.key_div _ hoff]
    decide
  · have hkey : pgBrew.key off = pgBrew.num * 65536 + off := by
      simp [Pg.key]
    rwa [hkey, show (pgBrew.num * 65536 + off) % 65536 = off by omega]

theorem Ticks.cosy_get {a b : Chan} (h : Ticks a b) {off : Nat} (hoff : off < 65536) (hreg : ¬ CountReg off) : b.get pgCosy off = a.get pgCosy off := by
  refine h.get (not_clockKey ?_ ?_)
  · rw [Pg.key_div _ hoff]
    decide
  · have hkey : pgCosy.key off = pgCosy.num * 65536 + off := by
      simp [Pg.key]
    rwa [hkey, show (pgCosy.num * 65536 + off) % 65536 = off by omega]

theorem not_countReg_block {off : Nat} (h : 0x100 ≤ off) : ¬ CountReg off := by
  simp only [CountReg, oCAUSE, oFIRST, oOVF]
  omega

/-- What a pour is decided by, and what it records, stays as the clock runs. -/
structure SameBrew (a b : Chan) : Prop where
  enabled : b.enabled pgBrew = a.enabled pgBrew
  inReset : b.inReset = a.inReset
  status : b.get pgBrew BREW.STATUS = a.get pgBrew BREW.STATUS
  next : b.nextBrew = a.nextBrew
  bound : b.teBound = a.teBound
  limit : b.nat pgBrew BREW.POUR_CFG = a.nat pgBrew BREW.POUR_CFG

theorem Ticks.sameBrew {a b : Chan} (h : Ticks a b) : SameBrew a b := by
  have hreset : b.inReset = a.inReset := by
    have hwork := congrArg (fun x : Chan => x.inReset) h.work
    exact hwork
  have hempty : b.prs.fromEmpty = a.prs.fromEmpty := by
    have hwork := congrArg (fun x : Chan => x.prs.fromEmpty) h.work
    exact hwork
  have hstatus : b.get pgBrew 0x100 = a.get pgBrew 0x100 := h.brew_get (by norm_num) (not_countReg_block le_rfl)
  have hblock : ∀ f : Fld, f.off < 65536 → ¬ CountReg f.off → b.getF pgBrew f = a.getF pgBrew f := fun f hf hc => by
    rw [Chan.getF, Chan.getF, h.brew_get hf hc]
  have hctrl := hblock CTRL_ENABLE (by norm_num) (by simp [CountReg, oCAUSE, oFIRST, oOVF])
  have hstate := hblock BREW.STATUS_STATE (by norm_num) (not_countReg_block le_rfl)
  have hcur := hblock BREW.STATUS_CUR_BREW (by norm_num) (not_countReg_block le_rfl)
  have hfirst := hblock BREW.FIRST_NUM_NUM (by norm_num) (not_countReg_block (by norm_num))
  have hlimit : b.get pgBrew 0x130 = a.get pgBrew 0x130 := h.brew_get (by norm_num) (not_countReg_block (by norm_num))
  have hcosy : b.getF pgCosy COSY.STATUS_STATE = a.getF pgCosy COSY.STATUS_STATE :=
    congrArg (fun w => fld w 31 29) (h.cosy_get (off := 0x100) (by norm_num) (not_countReg_block le_rfl))
  have hte : b.get pgCosy COSY.TE_BOUND = a.get pgCosy COSY.TE_BOUND := h.cosy_get (by norm_num) (not_countReg_block (by norm_num))
  exact {
    enabled := by rw [Chan.enabled, Chan.enabled, Chan.getB_congr hctrl, hreset]
    inReset := hreset
    status := hstatus
    next := by rw [Chan.nextBrew, Chan.brewCurrent, Chan.brewState, hstate, hcur, hfirst, hempty]; rfl
    bound := by rw [Chan.teBound, Chan.localTime, Chan.nat, hcosy, hte]; rfl
    limit := by rw [Chan.nat, Chan.nat, hlimit] }

/-- What BREW.STATUS and the working state show of a brew that is poured (R194). -/
structure Poured (ch : Chan) (num prev : Nat) : Prop where
  state : ch.brewState = 5
  number : ch.getF pgBrew BREW.STATUS_CUR_BREW = num % 65536
  parity : ch.getF pgBrew BREW.STATUS_CUR_PARITY = num % 2
  prev : ch.brew.prev = prev

theorem Poured.congr {a b : Chan} {num prev : Nat} (h : Poured a num prev) (hreg : b.get pgBrew BREW.STATUS = a.get pgBrew BREW.STATUS)
    (hbrew : b.brew.prev = a.brew.prev) : Poured b num prev := by
  have hfld : ∀ f : Fld, f.off = BREW.STATUS → b.getF pgBrew f = a.getF pgBrew f := fun f hf => by rw [Chan.getF, Chan.getF, hf, hreg]
  exact ⟨(hfld BREW.STATUS_STATE rfl).trans h.state, (hfld _ rfl).trans h.number, (hfld _ rfl).trans h.parity, hbrew.trans h.prev⟩

/-- The pour makes the next brew current, and remembers the one before it (R194). -/
theorem Chan.pour_poured (ch : Chan) (late : Bool) : Poured (ch.pour late) ch.nextBrew (ch.getF pgBrew BREW.STATUS_CUR_BREW) := by
  unfold Chan.pour
  dsimp only
  generalize ch.nextBrew = num
  generalize hc1 : ({ ch with
    prs := { ch.prs with pourAt := ch.ns + 1, pourT := if late then ch.t64 + 1 else ch.prs.pourT },
    brew := { ch.brew with prev := ch.getF pgBrew BREW.STATUS_CUR_BREW, exec := ch.ns } } : Chan) = c1
  have hprev : c1.brew.prev = ch.getF pgBrew BREW.STATUS_CUR_BREW := by rw [← hc1]
  have hshown : Poured (((c1.putF pgBrew BREW.STATUS_STATE 5).putF pgBrew BREW.STATUS_CUR_BREW num).putF pgBrew BREW.STATUS_CUR_PARITY (num % 2)) num
      (ch.getF pgBrew BREW.STATUS_CUR_BREW) := by
    refine ⟨?_, ?_, ?_, hprev⟩
    · refine (Chan.getF_putF_word _ _ (f := BREW.STATUS_CUR_PARITY) (g := BREW.STATUS_STATE) _ rfl (by norm_num) (by norm_num) (.inl (by norm_num))).trans ?_
      refine (Chan.getF_putF_word _ _ (f := BREW.STATUS_CUR_BREW) (g := BREW.STATUS_STATE) _ rfl (by norm_num) (by norm_num) (.inl (by norm_num))).trans ?_
      exact Chan.getF_putF_same _ _ BREW.STATUS_STATE 5 (by norm_num) (by norm_num)
    · refine (Chan.getF_putF_word _ _ (f := BREW.STATUS_CUR_PARITY) (g := BREW.STATUS_CUR_BREW) _ rfl (by norm_num) (by norm_num) (.inr (by norm_num))).trans ?_
      exact Chan.getF_putF_same _ _ BREW.STATUS_CUR_BREW num (by norm_num) (by norm_num)
    · refine (Chan.getF_putF_same _ _ BREW.STATUS_CUR_PARITY _ (by norm_num) (by norm_num)).trans ?_
      exact Nat.mod_mod _ _
  generalize ((c1.putF pgBrew BREW.STATUS_STATE 5).putF pgBrew BREW.STATUS_CUR_BREW num).putF pgBrew BREW.STATUS_CUR_PARITY (num % 2) = c2 at hshown ⊢
  have hput : ∀ (c : Chan) {off : Nat} (v : Nat), off = BREW.POUR_EXEC ∨ off = BREW.POUR_T → Poured c num (ch.getF pgBrew BREW.STATUS_CUR_BREW) →
      Poured (c.put64 pgBrew off v) num (ch.getF pgBrew BREW.STATUS_CUR_BREW) := fun c off v ho h => by
    refine h.congr ?_ rfl
    have hother : ∀ (y : Chan) (o : Nat) (n : Nat), o = off ∨ o = off + 4 → (y.putN pgBrew o n).get pgBrew BREW.STATUS = y.get pgBrew BREW.STATUS :=
      fun y o n e => Chan.get_put_ne _ _ (by rcases e with rfl | rfl <;> rcases ho with rfl | rfl <;> decide)
    exact (hother _ _ _ (.inr rfl)).trans (hother _ _ _ (.inl rfl))
  have htail : ∀ c : Chan, Poured c num (ch.getF pgBrew BREW.STATUS_CUR_BREW) →
      Poured ((c.raise pgBrew 9).journal pgBrew clsNone 1 (num + ch.t64 * 2 ^ 64)) num (ch.getF pgBrew BREW.STATUS_CUR_BREW) := fun c h => by
    have hraise : Delivers c ((c.raise pgBrew 9).journal pgBrew clsNone 1 (num + ch.t64 * 2 ^ 64)) :=
      (Delivers.raise c pgBrew 9 rfl rfl).trans (Delivers.journal _ _ _ _ _)
    exact h.congr (hraise.get ⟨by decide, not_countReg_block (by decide)⟩) (hraise.field (fun x => x.brew.prev) (fun _ => rfl))
  refine htail _ ?_
  unfold Chan.when
  split
  · exact hput _ _ (.inr rfl) (hput _ _ (.inl rfl) hshown)
  · exact hput _ _ (.inl rfl) hshown

/-- A POUR within its time bound happens (R193). -/
theorem Chan.runTarget_pour {ch : Chan} {x : ActSlot} (ht : x.target = 1) (hen : ch.enabled pgBrew = true) (hstate : ch.brewState = 4)
    (harg : x.arg = ch.nextBrew) (hbound : ch.teBound ≤ ch.nat pgBrew BREW.POUR_CFG) (ok t : Nat) : ch.runTarget x ok t = (ch.pour x.late, ok) := by
  have hpage : x.page = pgBrew := if_pos ht
  have hout : ch.inReset.contains (pgBrew.key 0) = false := by
    simp only [Chan.enabled, Bool.and_eq_true, Bool.not_eq_true'] at hen
    exact hen.2
  unfold Chan.runTarget
  dsimp only
  have hruns : ¬ (ch.inReset.contains (pgBrew.key 0) = true ∨ ch.enabled pgBrew = false ∧ x.target ≠ 2) := by
    rw [hout, hen]
    exact fun h => h.elim Bool.false_ne_true (fun h => Bool.false_ne_true h.1.symm)
  rw [hpage, if_neg hruns, if_pos ht, Chan.firePour,
    if_neg (by rintro (h | h); exacts [h hstate, h harg]), if_neg (not_lt.2 hbound)]

end Sys2Proof.Machine

namespace Sys2Proof.Proofs

open Sys2Proof Sys2Proof.Machine

/-- An action at its instant: network time runs on to it, its target acts, and the slot shows how. -/
theorem completes_fires {i : Instr} {s : State} {c : Fin 4} {n code : Nat} {P : State → Prop} (hr : Ready s c) (hdue : SlotDue (s.chan c) n)
    (hcode : ((s.chan c).slot n).target = code) (hi : exec i s = .next (s.onLive c (fun ch => ch.fireDue code n)))
    (hP : P (s.runChan c (fun _ => ((s.chan c).runNet ((s.chan c).slot n).due).fire n false))) : Completes i s P := by
  refine ⟨_, hi, ?_⟩
  rwa [State.onLive_of_ready hr, State.runChan_congr (g := fun _ => ((s.chan c).runNet ((s.chan c).slot n).due).fire n false)
    (by rw [← hcode]; exact Chan.fireDue_of_due hdue)]

/-- The slot after its action (R174, R178, R179). -/
theorem slot_runChan_fire (s : State) (c : Fin 4) (n : Nat) :
    let x := (s.chan c).slot n
    let at_ := (s.chan c).runNet x.due
    let r := at_.runTarget x (if x.late then 1 else 0) (if x.target = 9 then x.time else if x.late then at_.timeNs else x.time)
    ((s.runChan c (fun _ => at_.fire n false)).chan c).slot n = x.fired r.2 := by
  dsimp only
  generalize hat : (s.chan c).runNet ((s.chan c).slot n).due = at_
  have hslot : at_.slot n = (s.chan c).slot n := by
    rw [← hat]
    exact (Ticks.runNet _ _).slot n
  refine ((s.runChan_delivers c (fun _ => at_.fire n false)).field (fun y => y.slot n) (fun _ => rfl)).trans ?_
  rw [Chan.slot_fire at_ n false rfl, hslot]
  simp

/-- A pour within its bound leaves BREW POURED, whatever the slot then does (R193, R194). -/
theorem poured_runChan_fire (s : State) (c : Fin 4) {n : Nat} (ht : ((s.chan c).slot n).target = 1) (hen : (s.chan c).enabled pgBrew = true)
    (hstate : (s.chan c).brewState = 4) (harg : ((s.chan c).slot n).arg = (s.chan c).nextBrew)
    (hbound : (s.chan c).teBound ≤ (s.chan c).nat pgBrew BREW.POUR_CFG) :
    Poured ((s.runChan c (fun _ => ((s.chan c).runNet ((s.chan c).slot n).due).fire n false)).chan c) (s.chan c).nextBrew
      ((s.chan c).getF pgBrew BREW.STATUS_CUR_BREW) := by
  have hticks := Ticks.runNet (s.chan c) ((s.chan c).slot n).due
  generalize (s.chan c).runNet ((s.chan c).slot n).due = at_ at hticks ⊢
  have hsame := hticks.sameBrew
  have hslot : at_.slot n = (s.chan c).slot n := hticks.slot n
  have hstate' : at_.brewState = (s.chan c).brewState := congrArg (fun w => fld w 31 29) hsame.status
  have hrun := fun ok t => Chan.runTarget_pour (x := at_.slot n) (by rw [hslot, ht]) (hsame.enabled.trans hen) (hstate'.trans hstate)
    (by rw [hslot, harg, hsame.next]) (by rw [hsame.bound, hsame.limit]; exact hbound) ok t
  have hpour := at_.pour_poured (at_.slot n).late
  rw [hsame.next, show at_.getF pgBrew BREW.STATUS_CUR_BREW = (s.chan c).getF pgBrew BREW.STATUS_CUR_BREW from
    congrArg (fun w => fld w 15 0) hsame.status] at hpour
  have htail := at_.fire_tail n false (hrun _ _)
  have hprev := congrArg (fun y : Chan => y.brew.prev) htail.work
  have hstatus : (at_.fire n false).get pgBrew BREW.STATUS = (at_.pour (at_.slot n).late).get pgBrew BREW.STATUS :=
    htail.regs (pgBrew.key BREW.STATUS) (by decide)
  have hfire : Poured (at_.fire n false) _ _ := hpour.congr hstatus hprev
  have hdone := s.runChan_delivers c (fun _ => at_.fire n false)
  exact hfire.congr (hdone.get ⟨by decide, not_countReg_block (by decide)⟩) (hdone.field (fun y => y.brew.prev) (fun _ => rfl))

/-- Settles O30 (R173, R174, R178, R179, R193, R194): at its instant a slot fires at its target and ends DONE, or FREE with AUTO_FREE, with the
RESULT of the target's answer; a POUR within its bound makes the next brew current. -/
theorem actionsFire : Obligations.ActionsFire := by
  refine ⟨fun s c i hr hi hp hf => ?_, fun s c i hr hi hp ht hf hen hstate harg hbound => ?_, fun s c i hr hi hp hf => ?_⟩
  · have hdue : SlotDue (s.chan c) i := ⟨hi, hp, hf⟩
    have hst := congrArg ActSlot.st (slot_runChan_fire s c i)
    exact ⟨fun ht => completes_fires hr hdue ht rfl hst, fun ht => completes_fires hr hdue ht rfl hst, fun ht => completes_fires hr hdue ht rfl hst,
      fun ht => completes_fires hr hdue ht rfl hst, fun ht => completes_fires hr hdue ht rfl hst, fun ht => completes_fires hr hdue ht rfl hst,
      fun ht => completes_fires hr hdue ht rfl hst, fun ht => completes_fires hr hdue ht rfl hst, fun ht => completes_fires hr hdue ht rfl hst⟩
  · obtain ⟨h1, h2, h3, h4⟩ := poured_runChan_fire s c ht hen hstate harg hbound
    exact completes_fires hr ⟨hi, hp, hf⟩ ht rfl ⟨h1, h2, h3, h4⟩
  · have hdue : SlotDue (s.chan c) i := ⟨hi, hp, hf⟩
    have hslot := slot_runChan_fire s c i
    exact ⟨fun ht => completes_fires hr hdue ht rfl ⟨rfl, hslot⟩, fun ht => completes_fires hr hdue ht rfl ⟨rfl, hslot⟩,
      fun ht => completes_fires hr hdue ht rfl ⟨rfl, hslot⟩, fun ht => completes_fires hr hdue ht rfl ⟨rfl, hslot⟩,
      fun ht => completes_fires hr hdue ht rfl ⟨rfl, hslot⟩, fun ht => completes_fires hr hdue ht rfl ⟨rfl, hslot⟩,
      fun ht => completes_fires hr hdue ht rfl ⟨rfl, hslot⟩, fun ht => completes_fires hr hdue ht rfl ⟨rfl, hslot⟩,
      fun ht => completes_fires hr hdue ht rfl ⟨rfl, hslot⟩⟩

end Sys2Proof.Proofs
end

/-! The commands of the action ports on a channel (R172–R182): what they find, and what they do to the slots. -/

section
set_option Elab.async false
namespace Sys2Proof.Machine

/-- A register that a write of a port's CTRL leaves, and its tally. -/
def ArmReg (key : Nat) : Prop := BlockReg key ∧ key ≠ pgAct.key ACT.HARM_CTRL ∧ key ≠ pgAct.key ACT.KARM_CTRL

/-- From `a` to `b` a command has come to a port, and has done nothing yet. -/
abbrev ArmSame : Chan → Chan → Prop := Spares ArmReg (fun ch => { ch with karmBy := 0 })

theorem pgAct_key {off : Nat} : pgAct.key off = pgAct.num * 65536 + off := by simp [Pg.key]

theorem armReg_of {p : Pg} (hp : p = pgAct ∨ p = pgBrew ∨ p = pgCosy) {off : Nat} (h : off = oCTRL ∨ (0x100 ≤ off ∧ off < 65536 ∧ off ≠ 0x120 ∧ off ≠ 0x140)) :
    ArmReg (p.key off) := by
  have hnum : p.num < 9 ∧ p.key off = p.num * 65536 + off := by
    rcases hp with rfl | rfl | rfl <;> simp [Pg.key]
  have hlt : off < 65536 := by
    simp only [oCTRL] at h
    omega
  have hact : p.key off = pgAct.key off ∨ p.num ≠ pgAct.num := by
    rcases hp with rfl | rfl | rfl
    · exact .inl rfl
    · exact .inr (by decide)
    · exact .inr (by decide)
  obtain ⟨hsmall, hkey⟩ := hnum
  have hjrnl : pgJrnl.key 0 / 65536 ≠ p.num := by
    rcases hp with rfl | rfl | rfl <;> decide
  rw [hkey, pgAct_key] at hact
  refine ⟨⟨?_, ?_⟩, ?_, ?_⟩
  · rw [hkey]
    omega
  · rw [hkey, show (p.num * 65536 + off) % 65536 = off by omega]
    simp only [CountReg, oCAUSE, oFIRST, oOVF, oCTRL] at h ⊢
    omega
  · rw [hkey, pgAct_key]
    simp only [ACT.HARM_CTRL, oCTRL] at h ⊢
    omega
  · rw [hkey, pgAct_key]
    simp only [ACT.KARM_CTRL, oCTRL] at h ⊢
    omega

namespace ArmSame

variable {a b : Chan} (h : ArmSame a b)
include h

theorem act : b.act = a.act := by
  have hwork := congrArg (fun x : Chan => x.act) h.work
  exact hwork

theorem timeNs : b.timeNs = a.timeNs := by
  have hwork := congrArg (fun x : Chan => x.timeNs) h.work
  exact hwork

theorem getF {p : Pg} (hp : p = pgAct ∨ p = pgBrew ∨ p = pgCosy) (f : Fld) (hf : f.off = oCTRL ∨ (0x100 ≤ f.off ∧ f.off < 65536 ∧ f.off ≠ 0x120 ∧ f.off ≠ 0x140)) :
    b.getF p f = a.getF p f := by
  rw [Chan.getF, Chan.getF, h.get (armReg_of hp hf)]

theorem nat {off : Nat} (hoff : 0x100 ≤ off ∧ off < 65536 ∧ off ≠ 0x120 ∧ off ≠ 0x140) : b.nat pgAct off = a.nat pgAct off := by
  rw [Chan.nat, Chan.nat, h.get (armReg_of (.inl rfl) (.inr hoff))]

theorem slot (i : Nat) : b.slot i = a.slot i := by rw [Chan.slot, h.act, Chan.slot]

theorem slotsUsed (q : Bool) : b.slotsUsed q = a.slotsUsed q := by rw [Chan.slotsUsed, h.act, Chan.slotsUsed]

theorem slotShare (q : Bool) : b.slotShare q = a.slotShare q := by
  rw [Chan.slotShare, Chan.slotShare, h.getF (.inl rfl) ACT.CFG_KEEPER_SLOTS (.inr (by decide))]

theorem freeSlots : b.freeSlots = a.freeSlots := by
  have hslot : ∀ i, b.slot i = a.slot i := h.slot
  simp only [Chan.freeSlots, hslot]

theorem enabled : b.enabled pgAct = a.enabled pgAct := by
  have hreset : b.inReset = a.inReset := by
    have hwork := congrArg (fun x : Chan => x.inReset) h.work
    exact hwork
  rw [Chan.enabled, Chan.enabled, Chan.getB_congr (h.getF (.inl rfl) CTRL_ENABLE (.inl rfl)), hreset]

theorem localTime : b.localTime = a.localTime := by
  rw [Chan.localTime, h.getF (.inr (.inr rfl)) COSY.STATUS_STATE (.inr (by decide))]
  rfl

theorem pourTakes (arg : Nat) : b.pourTakes arg = a.pourTakes arg := by
  have hempty : b.prs.fromEmpty = a.prs.fromEmpty := by
    have hwork := congrArg (fun x : Chan => x.prs.fromEmpty) h.work
    exact hwork
  have hF := fun f hf => h.getF (.inr (.inl rfl)) f (.inr hf)
  rw [Chan.pourTakes, Chan.nextBrew, Chan.brewCurrent, Chan.brewState, hF BREW.STATUS_STATE (by decide), hF BREW.STATUS_CUR_BREW (by decide),
    hF BREW.FIRST_NUM_NUM (by decide), hempty]
  rfl

variable {d : Nat} (hd : d = 0 ∨ d = 0x20)
include hd

theorem arg : b.get64 pgAct (ACT.HARM_ARG + d) = a.get64 pgAct (ACT.HARM_ARG + d) := by
  rw [Chan.get64, h.nat (by simp only [ACT.HARM_ARG]; omega), h.nat (by simp only [ACT.HARM_ARG]; omega), Chan.get64]

theorem ns : b.nat pgAct (ACT.HARM_TIME + d) = a.nat pgAct (ACT.HARM_TIME + d) := h.nat (by simp only [ACT.HARM_TIME]; omega)

theorem armTime : b.armTime d = a.armTime d := by
  rw [Chan.armTime, h.ns hd, h.nat (by simp only [ACT.HARM_TIME]; omega), h.timeNs, Chan.armTime]

/-- The status of an ARM, and the slot that it makes, are those of the channel that the command found. -/
theorem armStatus (q : Bool) (w : Word) : b.armStatus q d w = a.armStatus q d w := by
  simp only [Chan.armStatus, h.enabled, h.ns hd, h.arg hd, h.pourTakes, h.localTime, h.slotShare, h.slotsUsed, h.freeSlots, h.armTime hd, h.timeNs]

theorem armSlot (q : Bool) (w : Word) (late : Bool) : b.armSlot q d w late = a.armSlot q d w late := by
  simp only [Chan.armSlot, h.arg hd, h.armTime hd, h.timeNs, h.act]

end ArmSame

/-! The slots after a command. -/

/-- The ACT block changes, and nothing else. -/
abbrev actStrip (ch : Chan) : Chan := { ch with act := {} }

theorem Stays.act_of_low {a b : Chan} (h : Stays [pgAct] lowStrip a b) : Stays [pgAct] actStrip a b :=
  h.mono (fun _ hp => hp) (fun ch => { ch with act := {} }) (fun _ => rfl)

theorem Stays.onAct (ch : Chan) (x : ActW) : Stays [pgAct] actStrip ch { ch with act := x } := ⟨rfl, fun _ _ => rfl, fun h => h⟩

theorem Stays.armDone (ch : Chan) {d : Nat} (hd : d = 0 ∨ d = 0x20) (st i : Nat) : Stays [pgAct] lowStrip ch (ch.armDone d st i) :=
  .put ch (List.mem_singleton_self _) (off := ACT.HARM_RESULT + d) _ (by simp only [ACT.HARM_RESULT]; omega)

theorem Chan.result_armDone (ch : Chan) (d st i : Nat) :
    (ch.armDone d st i).nat pgAct (ACT.HARM_RESULT + d) = (2 ^ 31 + st * 2 ^ 16 + i % 1024) % 2 ^ 32 := by
  rw [Chan.armDone, Chan.nat, Chan.putN, Chan.get_put_same, BitVec.toNat_ofNat]

theorem Chan.slot_congr {a b : Chan} (h : b.act = a.act) (i : Nat) : b.slot i = a.slot i := by rw [Chan.slot, h, Chan.slot]

/-- A POUR's arm and its withdrawal leave the slots. -/
theorem Chan.act_pourArm (ch : Chan) (t : Nat) (late : Bool) : (ch.pourArm t late).act = ch.act := rfl

theorem Chan.act_pourUnarm (ch : Chan) : (ch.pourUnarm false).act = ch.act := by
  unfold Chan.pourUnarm
  split
  · rfl
  · rfl

/-- From `a` to `b` slot `i` has come to hold `x`, and the port shows a status. -/
structure SlotSet (a b : Chan) (i : Nat) (x : ActSlot) (d st : Nat) : Prop where
  slot : b.slot i = x
  others : ∀ j, j ≠ i → b.slot j = a.slot j
  result : b.nat pgAct (ACT.HARM_RESULT + d) = (2 ^ 31 + st * 2 ^ 16 + i % 1024) % 2 ^ 32

/-- A command that sets a slot ends with the answer at its port. -/
theorem SlotSet.armDone {a b : Chan} {i : Nat} {x : ActSlot} (h : Stays [pgAct] lowStrip (a.putSlot i x) b) (d st : Nat) :
    SlotSet a (b.armDone d st i) i x d st where
  slot := (h.slot i).trans (Chan.slot_putSlot_same _ _ _)
  others j hj := (h.slot j).trans (Chan.slot_putSlot_ne _ _ hj)
  result := Chan.result_armDone _ _ _ _

/-- FREE (R178). -/
theorem Chan.freeCmd_sets {ch : Chan} {keeper : Bool} {d i : Nat} (hd : d = 0 ∨ d = 0x20) (h2 : 2 ≤ (ch.slot i).st) (hk : (ch.slot i).keeper = keeper) :
    SlotSet ch (ch.freeCmd keeper d i) i { ch.slot i with st := 0 } d 0 ∧ Stays [pgAct] actStrip ch (ch.freeCmd keeper d i) := by
  have hform : ch.freeCmd keeper d i = (ch.putSlot i { ch.slot i with st := 0 }).slotsLow.armDone d 0 i := by
    rw [Chan.freeCmd]
    dsimp only
    rw [if_neg (by omega), if_neg (by simp [hk]), if_neg (by omega)]
  rw [hform]
  exact ⟨.armDone (.slotsLow _) d 0, (Stays.onAct ch _).trans (Stays.act_of_low ((Stays.slotsLow _).trans (.armDone _ hd _ _)))⟩

/-- CANCEL (R177). -/
theorem Chan.cancelCmd_sets {ch : Chan} {keeper : Bool} {d i : Nat} (hd : d = 0 ∨ d = 0x20) (h1 : (ch.slot i).st = 1) (hk : (ch.slot i).keeper = keeper)
    (hlate : (ch.slot i).late = false) : SlotSet ch (ch.cancelCmd keeper d i false) i { ch.slot i with st := 3, result := 6 } d 0 ∧
      ((ch.slot i).target ≠ 1 → Stays [pgAct] actStrip ch (ch.cancelCmd keeper d i false)) := by
  have hform : ch.cancelCmd keeper d i false = (ch.cancelSlot i 6).armDone d 0 i := by
    rw [Chan.cancelCmd]
    rw [if_neg (by omega), if_neg (by simp [hk]), if_neg (by simp [h1]), if_neg (by simp [hlate])]
  have hslots : (ch.cancelSlot i 6).act = (ch.putSlot i { ch.slot i with st := 3, result := 6 }).act := by
    rw [Chan.cancelSlot]
    split
    · exact Chan.act_pourUnarm _
    · rfl
  rw [hform]
  refine ⟨⟨?_, fun j hj => ?_, Chan.result_armDone _ _ _ _⟩, fun ht => ?_⟩
  · exact (Chan.slot_congr hslots i).trans (Chan.slot_putSlot_same _ _ _)
  · exact (Chan.slot_congr hslots j).trans (Chan.slot_putSlot_ne _ _ hj)
  · rw [Chan.cancelSlot]
    rw [if_neg ht]
    exact (Stays.onAct ch _).trans (Stays.act_of_low (.armDone _ hd _ _))

/-- An ARM that is accepted names a slot only where one is free (R175). -/
theorem Chan.freeSlots_ne_nil {ch : Chan} {keeper : Bool} {d : Nat} {w : Word} (h : ch.armStatus keeper d w = 0 ∨ ch.armStatus keeper d w = 2) :
    ch.freeSlots ≠ [] := by
  intro he
  have hbad : ch.armStatus keeper d w ≠ 0 ∧ ch.armStatus keeper d w ≠ 2 := by
    rw [Chan.armStatus, he]
    constructor
    all_goals
      split
      · decide
      split
      · decide
      split
      · decide
      split
      · decide
      rw [if_pos (.inr rfl)]
      decide
  exact h.elim hbad.1 hbad.2

/-- ARM takes a free slot (R175, R176). -/
theorem Chan.arm_sets {ch : Chan} {keeper : Bool} {d : Nat} {w : Word} (hd : d = 0 ∨ d = 0x20)
    (h : ch.armStatus keeper d w = 0 ∨ ch.armStatus keeper d w = 2) :
    ∃ i, i < 1024 ∧ (ch.slot i).st = 0 ∧
      SlotSet ch (ch.arm keeper d w) i (ch.armSlot keeper d w (ch.armStatus keeper d w == 2)) d (ch.armStatus keeper d w) ∧
      (fld w 23 16 ≠ 1 → Stays [pgAct] actStrip ch (ch.arm keeper d w)) := by
  have hp : pgAct ∈ [pgAct] := List.mem_singleton_self _
  have hne := Chan.freeSlots_ne_nil h
  obtain ⟨i, hi⟩ : ∃ i, i = ch.freeSlots.getD (ch.freeVal 32 % ch.freeSlots.length) 0 := ⟨_, rfl⟩
  have hmem : i ∈ ch.freeSlots := by
    have hlt : ch.freeVal 32 % ch.freeSlots.length < ch.freeSlots.length := Nat.mod_lt _ (List.length_pos_iff.2 hne)
    rw [hi, List.getD_eq_getElem _ _ hlt]
    exact List.getElem_mem _
  obtain ⟨hlt, hfree⟩ := mem_allBelow.1 hmem
  obtain ⟨x, hx⟩ : ∃ x, x = ch.armSlot keeper d w (ch.armStatus keeper d w == 2) := ⟨_, rfl⟩
  have htarget : x.target = fld w 23 16 := by rw [hx, Chan.armSlot]
  obtain ⟨b, hb⟩ : ∃ b : Chan, b = { ch.takeFree with act := { ch.act with slots := tput {} ch.act.slots i x, seq := ch.act.seq + 1 } } := ⟨_, rfl⟩
  obtain ⟨c, hc⟩ : ∃ c : Chan, c = if x.target = 1 then b.pourArm x.time x.late else b := ⟨_, rfl⟩
  have hact : c.act = b.act := by
    rw [hc]
    split
    · rfl
    · rfl
  have hslots : b.act.slots = tput {} ch.act.slots i x := by rw [hb]
  have hform : ch.arm keeper d w = (if ch.armStatus keeper d w = 2 then
      ((c.inc pgAct ACT.LATE_CNT).raise pgAct 9).journal pgAct clsNone 1 (slotDetail i x (t64Of x.time)) else c).slotsLow.armDone d (ch.armStatus keeper d w) i := by
    rw [Chan.arm]
    dsimp only
    rw [if_pos h, ← hi, ← hx, hc, hb]
    rfl
  have htail : Stays [pgAct] lowStrip c (ch.arm keeper d w) := by
    rw [hform]
    refine Stays.trans ?_ ((Stays.slotsLow _).trans (.armDone _ hd _ _))
    exact .ite (fun _ => ((Stays.put c hp (off := ACT.LATE_CNT) _ (by decide)).trans (.raise _ hp 9)).trans (.journal _ _ _ _ _)) (fun _ => .refl _)
  refine ⟨i, hlt, by simpa using hfree, ?_, fun ht => ?_⟩
  · rw [← hx]
    refine ⟨?_, fun j hj => ?_, ?_⟩
    · rw [htail.slot, Chan.slot, hact, hslots]
      exact tget_tput_same _ _ _ _
    · rw [htail.slot, Chan.slot, hact, hslots]
      exact tget_tput_ne _ _ _ hj
    · rw [hform]
      exact Chan.result_armDone _ _ _ _
  · have hplain : c = b := by rw [hc, if_neg (by rwa [htarget])]
    refine Stays.trans ?_ htail.act_of_low
    rw [hplain, hb]
    exact (Stays.takeFree ch).trans (Stays.onAct _ _)

/-- An ARM of a reserved target takes no slot (R175). -/
theorem Chan.arm_badTarget {ch : Chan} {keeper : Bool} {d : Nat} {w : Word} (hd : d = 0 ∨ d = 0x20) (h : ch.armStatus keeper d w = 4) :
    (ch.arm keeper d w).act = ch.act ∧ Stays [pgAct] actStrip ch (ch.arm keeper d w) ∧
      (ch.arm keeper d w).nat pgAct (ACT.HARM_RESULT + d) = (2 ^ 31 + 4 * 2 ^ 16 + ch.freeVal 10 % 1024) % 2 ^ 32 := by
  have hform : ch.arm keeper d w = ch.takeFree.armDone d 4 (ch.freeVal 10) := by
    rw [Chan.arm]
    dsimp only
    rw [h]
    rfl
  rw [hform]
  exact ⟨rfl, (Stays.takeFree ch).trans (Stays.act_of_low (.armDone _ hd _ _)), Chan.result_armDone _ _ _ _⟩

end Sys2Proof.Machine
end

/-! Commands at the ports of the action scheduler (R175–R183). -/

section
set_option Elab.async false
namespace Sys2Proof.Machine

open Sys2Proof.Tests

/-- The register of a port that a command is written to. -/
def armPort (kport : Bool) : Nat := if kport then ACT.KARM_CTRL else ACT.HARM_CTRL

/-- The offset of a port's registers from the host's. -/
def armShift (kport : Bool) : Nat := if kport then 0x20 else 0

theorem armShift_eq (kport : Bool) : armShift kport = 0 ∨ armShift kport = 0x20 := by
  cases kport
  · exact .inl rfl
  · exact .inr rfl

/-- A command of a port, once its word is taken (R182). -/
def Chan.armCmd (ch : Chan) (kport : Bool) (w : Word) : Chan :=
  if fld w 30 29 = 0 then ch.arm kport (armShift kport) w
  else if fld w 30 29 = 1 then ch.cancelCmd kport (armShift kport) (fld w 9 0) false
  else ch.freeCmd kport (armShift kport) (fld w 9 0)

/-- A requester may issue commands at a port: PF0 at the host's, the winning keeper at the keeper's (R181). -/
def PortReady (s : State) (q : Req) (c : Fin 4) (kport : Bool) : Prop :=
  (kport = false ∧ HostReady s c ∧ q = .func 0) ∨ (kport = true ∧ ∃ k : Fin 2, KeeperReady s c k ∧ q = keeperReq k)

theorem Counts.armSame {a b : Chan} (h : Counts pgAct a b) (ho : NoFatal a.outQ → NoFatal b.outQ) : ArmSame a b where
  work := by
    have hwork := congrArg (fun x => ({ quietOf x with free := 0, karmBy := 0 } : Chan)) h.work
    exact hwork
  regs key hk := h.regs key (fun off hoff => hk.1.not_count pgAct off hoff)
  outs := ho

/-- The word of a command is taken. -/
theorem armHook_runs {w : WReq} {kport : Bool} (hp : w.p = pgAct) (ho : w.off = armPort kport) (hgo : bit w.v 31 = true) (ch : Chan) :
    ∃ b, armHook false w ch = b.armCmd kport w.v ∧ ArmSame ch b ∧ (kport = false → Stays [pgAct] actStrip ch b) := by
  have hput : ArmSame ch (ch.put w.p w.off w.merged) := by
    refine .put ch _ _ _ (fun hk => ?_)
    rw [hp, ho] at hk
    cases kport
    · exact hk.2.1 rfl
    · exact hk.2.2 rfl
  have hstays : Stays [pgAct] actStrip ch (ch.put w.p w.off w.merged) := by
    rw [hp, ho]
    exact .put ch (List.mem_singleton_self _) _ (by cases kport <;> decide)
  have hd : ∀ b, (decide (armPort b = ACT.KARM_CTRL)) = b := fun b => by cases b <;> rfl
  cases kport
  · refine ⟨ch.put w.p w.off w.merged, ?_, hput, fun _ => hstays⟩
    unfold armHook
    dsimp only
    rw [if_pos hgo, ho, hd]
    rfl
  · refine ⟨{ ch.put w.p w.off w.merged with karmBy := 0 }, ?_, hput.trans (.of_work rfl rfl rfl), nofun⟩
    unfold armHook
    dsimp only
    rw [if_pos hgo, ho, hd]
    rfl

theorem Chan.workOf_putList (p : Pg) (l : List Nat) (ch : Chan) (off : Nat) : workOf (ch.putList p off l) = workOf ch := by
  induction l generalizing ch off with
  | nil => rfl
  | cons _ _ ih => exact ih _ _

theorem relLegal_act {off : Nat} (v : Word) (h : 0x100 ≤ off) : relLegal .act off v = true := if_neg (by simp only [oEVSEL]; omega)

/-- A command word names one of the three commands (R181). -/
theorem wordLegal_armCtrl {v : Word} (kport : Bool) (h : fld v 30 29 ≤ 2) : wordLegal .act (armPort kport) (Wit.hit .act (armPort kport)) v = true := by
  rw [wordLegal, relLegal_act v (by cases kport <;> decide)]
  cases kport
  · have hflds : (Wit.hit .act (armPort false)).flds = [⟨31, 31, .wo, []⟩, ⟨30, 29, .mw, [(0, 2)]⟩, ⟨28, 28, .mw, []⟩, ⟨27, 27, .mw, []⟩, ⟨26, 26, .mw, []⟩,
        ⟨25, 25, .mw, []⟩, ⟨23, 16, .mw, []⟩, ⟨9, 0, .mw, []⟩] := rfl
    rw [hflds]
    simp [FieldD.legal, h]
  · have hflds : (Wit.hit .act (armPort true)).flds = [⟨31, 31, .wokw, []⟩, ⟨30, 29, .kw, [(0, 2)]⟩, ⟨28, 28, .kw, []⟩, ⟨27, 27, .kw, []⟩, ⟨26, 26, .kw, []⟩,
        ⟨25, 25, .kw, []⟩, ⟨23, 16, .kw, []⟩, ⟨9, 0, .kw, []⟩] := rfl
    rw [hflds]
    simp [FieldD.legal, h]

/-- A write that issues a command of a port runs the command on the channel that the tally of the write leaves. -/
theorem State.armCtrl_runs {s : State} {q : Req} {c : Fin 4} {kport : Bool} (hq : PortReady s q c kport) {n : Nat} {v : Word}
    (hv : BitVec.ofNat 32 (2 ^ 31 + n) = v) (hop : fld v 30 29 ≤ 2) (hgo : bit v 31 = true) :
    ∃ (t : State) (f : Chan → Chan) (b : Chan), HeaderStep pgAct c s t ∧ s.armCtrl q c kport false n = t.runChan c f ∧ f (t.chan c) = b.armCmd kport v ∧
      ArmSame (s.chan c) b ∧ (kport = false → Stays [pgAct] actStrip (t.chan c) b) := by
  have hlegal := wordLegal_armCtrl kport hop
  suffices h : ∃ (t : State) (w : WReq), HeaderStep pgAct c s t ∧ Counts pgAct (s.chan c) (t.chan c) ∧ w.p = pgAct ∧ w.off = armPort kport ∧ w.v = v ∧
      s.armCtrl q c kport false n = t.runChan c (armHook false w) ∧ (s.chan c).outQ = [] by
    obtain ⟨t, w, ht, hcounts, hp, ho, hw, hrun, hout⟩ := h
    obtain ⟨b, hb, hsame, hstays⟩ := armHook_runs hp ho (by rwa [hw]) (t.chan c)
    exact ⟨t, _, b, ht, hrun, by rw [hb, hw], (hcounts.armSame (fun _ => hcounts.noFatal hout)).trans hsame, hstays⟩
  obtain ⟨rfl, hr, rfl⟩ | ⟨rfl, k, ⟨hready, hbus, hwin⟩, rfl⟩ := hq
  · obtain ⟨t, w, ht, hcounts, hp, ho, hw, -, -, hrun⟩ := State.hook_counts hr (p := pgAct) (k := .act) rfl (armHook false) (off := armPort false) v
      (h := Wit.hit .act (armPort false)) rfl rfl rfl rfl hlegal
    refine ⟨t, w, ht, hcounts, hp, ho, hw, ?_, hr.1.2⟩
    rw [State.armCtrl, hv]
    exact hrun
  · have hwrite := State.pageWrite_winner (p := pgAct) (kd := .act) (off := armPort true) (h := Wit.hit .act (armPort true)) v hready hbus rfl rfl rfl hlegal
      rfl rfl hwin
    have hctrl : s.armCtrl (keeperReq k) c true false n = s.pageWrite (keeperReq k) c pgAct (armPort true) v := by
      rw [State.armCtrl, hv]
      fin_cases k <;> rfl
    have htally := HeaderOnly.tally pgAct (s.chan c) 4 ((keeperReq k).attr none) 1
    have hcounts := Counts.tally pgAct (s.chan c) 4 ((keeperReq k).attr none) 1
    have hfatal := State.chState_ne_fatal hready.1
    obtain ⟨t, ht, hchan, heq⟩ : ∃ t : State, HeaderStep pgAct c s t ∧ Counts pgAct (s.chan c) (t.chan c) ∧
        s.onPages c (fun ch => ch.tally pgAct 4 ((keeperReq k).attr none)) = t := by
      rw [State.onPages_of_not_fatal _ _ _ hfatal]
      refine ⟨_, htally.step (f := fun ch => ch.tally pgAct 4 ((keeperReq k).attr none)) (onlyIrqs_of_nil hready.2), ?_, rfl⟩
      rw [State.runChan_chan (htally.onlyIrqs (onlyIrqs_of_nil hready.2)), if_pos rfl]
      exact ⟨hcounts.work, hcounts.regs, fun o ho => nomatch ho⟩
    dsimp only at hwrite
    rw [heq, State.hookRun, if_neg (by decide), State.onPages_of_not_fatal _ _ _ (by rwa [ht.chState])] at hwrite
    exact ⟨t, wordReq t (keeperReq k) c pgAct (armPort true) (Wit.hit .act (armPort true)) v, ht, hchan, rfl, rfl, rfl, hctrl.trans hwrite, hready.2⟩

end Sys2Proof.Machine

namespace Sys2Proof.Proofs

open Sys2Proof Sys2Proof.Machine Sys2Proof.Tests

/-- The word of an ARM (R181). -/
def armWord (late loc free note : Bool) (target : Nat) : Word :=
  BitVec.ofNat 32 (2 ^ 31 + (b2n late * 2 ^ 28 + b2n loc * 2 ^ 27 + b2n free * 2 ^ 26 + b2n note * 2 ^ 25 + target * 2 ^ 16))

theorem b2n_le_one (q : Bool) : b2n q ≤ 1 := by cases q <;> decide

theorem armWord_fields (late loc free note : Bool) {target : Nat} (h : target < 256) :
    fld (armWord late loc free note target) 30 29 = 0 ∧ bit (armWord late loc free note target) 31 = true ∧
      fld (armWord late loc free note target) 23 16 = target := by
  have h1 := b2n_le_one late
  have h2 := b2n_le_one loc
  have h3 := b2n_le_one free
  have h4 := b2n_le_one note
  rw [armWord, fld_ofNat _ _ (by omega), fld_ofNat _ _ (by omega), bit_ofNat (by norm_num), nbit, Nat.shiftRight_eq_div_pow]
  refine ⟨by omega, ?_, by omega⟩
  rw [beq_iff_eq]
  omega

/-- The words of CANCEL and FREE (R181). -/
theorem slotWord_fields {op i : Nat} (hop : op ≤ 2) (hi : i < 1024) :
    fld (BitVec.ofNat 32 (2 ^ 31 + (op * 2 ^ 29 + i % 1024))) 30 29 = op ∧ bit (BitVec.ofNat 32 (2 ^ 31 + (op * 2 ^ 29 + i % 1024))) 31 = true ∧
      fld (BitVec.ofNat 32 (2 ^ 31 + (op * 2 ^ 29 + i % 1024))) 9 0 = i := by
  rw [fld_ofNat _ _ (by omega), fld_ofNat _ _ (by omega), bit_ofNat (by norm_num), nbit, Nat.shiftRight_eq_div_pow]
  refine ⟨by omega, ?_, by omega⟩
  rw [beq_iff_eq]
  omega

theorem ready_of_port {s : State} {q : Req} {c : Fin 4} {kport : Bool} (h : PortReady s q c kport) : Ready s c := by
  obtain ⟨-, h, -⟩ | ⟨-, k, h, -⟩ := h
  · exact h.1
  · exact h.1

/-- What a command of a port leaves: the channel of its effect, and at the host's port the frame of the ACT block. -/
theorem port_answers {s : State} {q : Req} {c : Fin 4} {kport : Bool} (hq : PortReady s q c kport) {n : Nat} {v : Word}
    (hv : BitVec.ofNat 32 (2 ^ 31 + n) = v) (hop : fld v 30 29 ≤ 2) (hgo : bit v 31 = true) :
    ∃ b : Chan, ArmSame (s.chan c) b ∧ Delivers (b.armCmd kport v) ((s.armCtrl q c kport false n).chan c) ∧
      (kport = false → Stays [pgAct] actStrip b (b.armCmd kport v) → ActFrame s (s.armCtrl q c kport false n) c) := by
  obtain ⟨t, f, b, ht, hrun, hf, hsame, hstays⟩ := State.armCtrl_runs hq hv hop hgo
  rw [hrun]
  refine ⟨b, hsame, hf ▸ t.runChan_delivers c f, fun hk hcmd => ?_⟩
  have hchan : Stays [pgAct] actStrip (t.chan c) (f (t.chan c)) := hf ▸ (hstays hk).trans hcmd
  exact keeps_trans (ht.keeps (List.mem_singleton_self _) _) (hchan.keeps (ht.chan.noFatal (noFatal_of_nil (ready_of_port hq).2)))

/-- A command that sets a slot. -/
theorem SlotSet.shown {s u : State} {c : Fin 4} {b y : Chan} {i st : Nat} {x : ActSlot} {kport : Bool} (h : SlotSet b y i x (armShift kport) st)
    (hb : ArmSame (s.chan c) b) (hu : Delivers y (u.chan c)) (hst : st < 256) (hi : i < 1024) : (u.chan c).slot i = x ∧
      (u.chan c).nat pgAct (ACT.HARM_RESULT + armShift kport) = 2 ^ 31 + st * 2 ^ 16 + i ∧ ∀ j, j ≠ i → (u.chan c).slot j = (s.chan c).slot j := by
  have hslot : ∀ j, (u.chan c).slot j = y.slot j := fun j => hu.field (fun z => z.slot j) (fun _ => rfl)
  refine ⟨(hslot i).trans h.slot, ?_, fun j hj => (hslot j).trans ((h.others j hj).trans (hb.slot j))⟩
  have hreg : (u.chan c).get pgAct (ACT.HARM_RESULT + armShift kport) = y.get pgAct (ACT.HARM_RESULT + armShift kport) := by
    refine hu.get (armReg_of (.inl rfl) (.inr ?_)).1
    simp only [ACT.HARM_RESULT]
    obtain e | e := armShift_eq kport <;> rw [e] <;> decide
  rw [Chan.nat, hreg, ← Chan.nat, h.result]
  omega

/-- An ARM that is accepted takes a free slot (R175, R176). -/
theorem completes_arm {s : State} {q : Req} {c : Fin 4} {kport : Bool} (hq : PortReady s q c kport) {target : Nat} (ht : target < 256)
    (late loc free note : Bool) (h : (s.chan c).armStatus kport (armShift kport) (armWord late loc free note target) = 0 ∨
      (s.chan c).armStatus kport (armShift kport) (armWord late loc free note target) = 2) :
    Completes (.arm q c kport target late loc free note) s (fun u => (kport = false → target ≠ 1 → ActFrame s u c) ∧ ∃ i, i < 1024 ∧
      ((s.chan c).slot i).st = 0 ∧
      (u.chan c).slot i = (s.chan c).armSlot kport (armShift kport) (armWord late loc free note target)
        ((s.chan c).armStatus kport (armShift kport) (armWord late loc free note target) == 2) ∧
      (u.chan c).nat pgAct (ACT.HARM_RESULT + armShift kport) =
        2 ^ 31 + (s.chan c).armStatus kport (armShift kport) (armWord late loc free note target) * 2 ^ 16 + i ∧
      ∀ j, j ≠ i → (u.chan c).slot j = (s.chan c).slot j) := by
  have hd := armShift_eq kport
  obtain ⟨hop, hgo, htarget⟩ := armWord_fields late loc free note ht
  obtain ⟨b, hb, hu, hframe⟩ := port_answers hq (n := b2n late * 2 ^ 28 + b2n loc * 2 ^ 27 + b2n free * 2 ^ 26 + b2n note * 2 ^ 25 + target % 256 * 2 ^ 16)
    (v := armWord late loc free note target) (by rw [armWord, Nat.mod_eq_of_lt ht]) (by omega) hgo
  have hcmd : b.armCmd kport (armWord late loc free note target) = b.arm kport (armShift kport) (armWord late loc free note target) := if_pos hop
  rw [hcmd] at hu hframe
  generalize hw : armWord late loc free note target = w at *
  have hstatus := hb.armStatus hd kport w
  obtain ⟨i, hi, hfree, hset, hstays⟩ := Chan.arm_sets (ch := b) (keeper := kport) (w := w) hd (by rwa [hstatus])
  rw [hstatus, hb.armSlot hd] at hset
  obtain ⟨hslot, hres, hothers⟩ := SlotSet.shown (s := s) hset hb hu (by omega) hi
  exact ⟨_, rfl, fun hk ht1 => hframe hk (hstays (by rwa [htarget])), i, hi, by rwa [← hb.slot], hslot, hres, hothers⟩

/-- CANCEL of a pending slot of the port (R177). -/
theorem completes_cancel {s : State} {q : Req} {c : Fin 4} {kport : Bool} (hq : PortReady s q c kport) {i : Nat} (hi : i < 1024)
    (h1 : ((s.chan c).slot i).st = 1) (hk : ((s.chan c).slot i).keeper = kport) (hlate : ((s.chan c).slot i).late = false) :
    Completes (.cancel q c kport i false) s (fun u => (kport = false → ((s.chan c).slot i).target ≠ 1 → ActFrame s u c) ∧
      (u.chan c).slot i = { (s.chan c).slot i with st := 3, result := 6 } ∧ (u.chan c).nat pgAct (ACT.HARM_RESULT + armShift kport) = 2 ^ 31 + i ∧
      ∀ j, j ≠ i → (u.chan c).slot j = (s.chan c).slot j) := by
  obtain ⟨hop, hgo, hidx⟩ := slotWord_fields (op := 1) (by norm_num) hi
  obtain ⟨b, hb, hu, hframe⟩ := port_answers hq rfl (by omega) hgo
  have hcmd : b.armCmd kport (BitVec.ofNat 32 (2 ^ 31 + (1 * 2 ^ 29 + i % 1024))) = b.cancelCmd kport (armShift kport) i false := by
    rw [Chan.armCmd, if_neg (by omega), if_pos hop, hidx]
  rw [hcmd] at hu hframe
  have hslot := hb.slot i
  obtain ⟨hset, hstays⟩ := Chan.cancelCmd_sets (ch := b) (keeper := kport) (i := i) (armShift_eq kport) (by rwa [hslot]) (by rwa [hslot]) (by rwa [hslot])
  rw [hslot] at hset hstays
  obtain ⟨hs, hres, hothers⟩ := SlotSet.shown (s := s) hset hb hu (by norm_num) hi
  exact ⟨_, rfl, fun hk ht => hframe hk (hstays ht), hs, by rw [hres]; omega, hothers⟩

/-- FREE of a done or cancelled slot of the port (R178). -/
theorem completes_free {s : State} {q : Req} {c : Fin 4} {kport : Bool} (hq : PortReady s q c kport) {i : Nat} (hi : i < 1024)
    (h2 : 2 ≤ ((s.chan c).slot i).st) (hk : ((s.chan c).slot i).keeper = kport) :
    Completes (.free q c kport i) s (fun u => (kport = false → ActFrame s u c) ∧
      (u.chan c).slot i = { (s.chan c).slot i with st := 0 } ∧ (u.chan c).nat pgAct (ACT.HARM_RESULT + armShift kport) = 2 ^ 31 + i ∧
      ∀ j, j ≠ i → (u.chan c).slot j = (s.chan c).slot j) := by
  obtain ⟨hop, hgo, hidx⟩ := slotWord_fields (op := 2) (by norm_num) hi
  obtain ⟨b, hb, hu, hframe⟩ := port_answers hq rfl (by omega) hgo
  have hcmd : b.armCmd kport (BitVec.ofNat 32 (2 ^ 31 + (2 * 2 ^ 29 + i % 1024))) = b.freeCmd kport (armShift kport) i := by
    rw [Chan.armCmd, if_neg (by omega), if_neg (by omega), hidx]
  rw [hcmd] at hu hframe
  have hslot := hb.slot i
  obtain ⟨hset, hstays⟩ := Chan.freeCmd_sets (ch := b) (keeper := kport) (i := i) (armShift_eq kport) (by rwa [hslot]) (by rwa [hslot])
  rw [hslot] at hset
  obtain ⟨hs, hres, hothers⟩ := SlotSet.shown (s := s) hset hb hu (by norm_num) hi
  exact ⟨_, rfl, fun hk => hframe hk hstays, hs, by rw [hres]; omega, hothers⟩

/-- An ARM of a reserved target (R173, R175). -/
theorem completes_badTarget {s : State} {c : Fin 4} (hr : HostReady s c) (hen : (s.chan c).enabled pgAct = true) (late loc free note : Bool) :
    Completes (.arm (.func 0) c false 0xFF late loc free note) s (fun u => ActFrame s u c ∧
      fld ((u.chan c).get pgAct ACT.HARM_RESULT) 31 31 = 1 ∧ fld ((u.chan c).get pgAct ACT.HARM_RESULT) 23 16 = 4 ∧
      (u.chan c).act = (s.chan c).act) := by
  obtain ⟨hop, hgo, htarget⟩ := armWord_fields late loc free note (target := 0xFF) (by norm_num)
  obtain ⟨b, hb, hu, hframe⟩ := port_answers (kport := false) (.inl ⟨rfl, hr, rfl⟩)
    (n := b2n late * 2 ^ 28 + b2n loc * 2 ^ 27 + b2n free * 2 ^ 26 + b2n note * 2 ^ 25 + 0xFF % 256 * 2 ^ 16)
    (v := armWord late loc free note 0xFF) (by rw [armWord, show 0xFF % 256 = 0xFF from rfl]) (by omega) hgo
  have hcmd : b.armCmd false (armWord late loc free note 0xFF) = b.arm false 0 (armWord late loc free note 0xFF) := if_pos hop
  rw [hcmd] at hu hframe
  generalize armWord late loc free note 0xFF = w at *
  have hstatus : b.armStatus false 0 w = 4 := by
    have harmable : targetArmable false (fld w 23 16) = false := by
      rw [htarget]
      rfl
    rw [Chan.armStatus, if_neg (by simp [hb.enabled, hen]), if_pos harmable]
  obtain ⟨hact, hstays, hres⟩ := Chan.arm_badTarget (.inl rfl) hstatus
  have hreg : (u : Chan) → Delivers (b.arm false 0 w) u → u.get pgAct ACT.HARM_RESULT = (b.arm false 0 w).get pgAct ACT.HARM_RESULT := fun u h =>
    h.get (armReg_of (.inl rfl) (.inr (by decide))).1
  have hnum : ((b.arm false 0 w).get pgAct ACT.HARM_RESULT).toNat = 2 ^ 31 + 4 * 2 ^ 16 + b.freeVal 10 % 1024 := by
    have hlt := Nat.mod_lt (b.freeVal 10) (y := 1024) (by norm_num)
    refine hres.trans ?_
    omega
  refine ⟨_, rfl, hframe rfl hstays, ?_, ?_, ?_⟩
  · rw [hreg _ hu, fld, hnum, Nat.shiftRight_eq_div_pow]
    omega
  · rw [hreg _ hu, fld, hnum, Nat.shiftRight_eq_div_pow]
    omega
  · exact (hu.field (fun y => y.act) (fun _ => rfl)).trans (hact.trans hb.act)

/-- The readout of a slot (R180, R183). -/
theorem completes_slotRd {s : State} {c : Fin 4} (hr : HostReady s c) {i : Nat} (hi : i < 1024) :
    Completes (.slotRdIdxWrite (.func 0) c i) s (fun u => ActFrame s u c ∧
      (u.chan c).get64 pgAct (ACT.SLOT_RD 0) = t64Of ((s.chan c).slot i).time % 2 ^ 64 ∧
      (u.chan c).nat pgAct (ACT.SLOT_RD 4) = ((s.chan c).slot i).info % 2 ^ 32 ∧ workOf (u.chan c) = workOf (s.chan c)) := by
  have hp : pgAct ∈ [pgAct] := List.mem_singleton_self _
  obtain ⟨t, w, ht, hwp, hwo, -, hm, hrun⟩ := State.hook_pf0 hr (p := pgAct) (k := .act) rfl slotRdHook (off := ACT.SLOT_RD_IDX)
    (BitVec.ofNat 32 (i % 1024)) (h := Wit.hit .act ACT.SLOT_RD_IDX) rfl rfl rfl rfl rfl
  have hidx : fld w.merged 9 0 = i := by
    have hmerge : ∀ old v, mergeWord (Wit.hit .act ACT.SLOT_RD_IDX).row.fields old v = setFld old 9 0 (fld v 9 0) := fun _ _ => rfl
    rw [hm, hmerge, fld_setFld_same _ _ _ _ (by norm_num) (by norm_num), fld_ofNat _ _ (by omega)]
    omega
  have hwork := ht.chan.work
  have hslot : (t.chan c).slot i = (s.chan c).slot i := by
    have hact := congrArg (fun x : Chan => x.slot i) hwork
    exact hact
  obtain ⟨l, hl⟩ : ∃ l, l = [t64Of ((s.chan c).slot i).time, t64Of ((s.chan c).slot i).time / 2 ^ 32, ((s.chan c).slot i).arg,
      ((s.chan c).slot i).arg / 2 ^ 32, ((s.chan c).slot i).info] := ⟨_, rfl⟩
  have hlen : l.length = 5 := by rw [hl]; rfl
  have hhook : slotRdHook w (t.chan c) = ((t.chan c).put pgAct ACT.SLOT_RD_IDX w.merged).putList pgAct (ACT.SLOT_RD 0) l := by
    rw [slotRdHook, hidx, hslot, hwp, hwo, hl]
  have hstays : Stays [pgAct] actStrip (t.chan c) (((t.chan c).put pgAct ACT.SLOT_RD_IDX w.merged).putList pgAct (ACT.SLOT_RD 0) l) :=
    (Stays.put _ hp _ (by decide)).trans (.putList hp l _ (by rw [hlen]; decide))
  obtain ⟨hframe, hchan⟩ := ht.answers hp hr.1.2 hhook hstays (fun h => by rwa [Chan.putList_outQ])
  refine ⟨t.runChan c (slotRdHook w), congrArg Host.Outcome.next hrun, hframe, ?_⟩
  have hword : ∀ n (hn : n < l.length), ((t.runChan c (slotRdHook w)).chan c).nat pgAct (ACT.SLOT_RD n) = l[n] % 2 ^ 32 := fun n hn => by
    rw [hchan, Chan.nat_clear]
    exact Chan.nat_putList l _ (fun a b _ _ => by rw [pgAct_key, pgAct_key]; omega) (by rw [hlen]; decide) hn
  have h0 := hword 0 (by omega)
  have h1 := hword 1 (by omega)
  have h4 := hword 4 (by omega)
  simp only [hl, List.getElem_cons_zero, List.getElem_cons_succ] at h0 h1 h4
  refine ⟨?_, h4, ?_⟩
  · rw [Chan.get64, h0, show ACT.SLOT_RD 0 + 4 = ACT.SLOT_RD 1 from rfl, h1]
    omega
  · rw [hchan, workOf_clear, Chan.workOf_putList]
    exact hwork

/-- Settles O29 (R173–R183): ARM takes a free slot, or refuses a reserved target; CANCEL, FREE and the readout act on the slot named, at either port. -/
theorem actionSlots : Obligations.ActionSlots := by
  refine ⟨fun s c late loc free note hr => ⟨fun hst => ?_, fun hen => completes_badTarget hr hen late loc free note⟩,
    fun s c i hr hi => ⟨fun h1 hk hlate ht => ?_, fun h2 hk => ?_, completes_slotRd hr hi⟩, fun s q c kport hready hport => ?_⟩
  · have hq : PortReady s (.func 0) c false := .inl ⟨rfl, hr, rfl⟩
    have hword : (s.chan c).armStatus false (armShift false) (armWord late loc free note 9) = 0 := hst
    obtain ⟨u, hexec, hframe, i, hi, hfree, hslot, hres, hothers⟩ := completes_arm hq (by norm_num) late loc free note (.inl hword)
    obtain ⟨-, -, htarget⟩ := armWord_fields late loc free note (target := 9) (by norm_num)
    rw [hword] at hslot hres
    refine ⟨u, hexec, hframe rfl (by norm_num), i, hi, hfree, by rw [hslot]; rfl, ?_, by rw [hslot]; rfl, by rw [hslot]; rfl, hres, hothers⟩
    rw [hslot]
    exact htarget
  · obtain ⟨u, hexec, hframe, hslot, hres, hothers⟩ := completes_cancel (.inl ⟨rfl, hr, rfl⟩) hi h1 hk hlate
    exact ⟨u, hexec, hframe rfl ht, by rw [hslot], by rw [hslot], hres, hothers⟩
  · obtain ⟨u, hexec, hframe, hslot, hres, hothers⟩ := completes_free (.inl ⟨rfl, hr, rfl⟩) hi h2 hk
    exact ⟨u, hexec, hframe rfl, by rw [hslot], hres, hothers⟩
  · refine ⟨fun target late loc free note ht hst => ?_, fun i hi hk => ⟨fun h1 hlate => ?_, fun h2 => ?_⟩⟩
    · obtain ⟨u, hexec, -, i, hi, hfree, hslot, hres, hothers⟩ := completes_arm hport ht late loc free note hst
      exact ⟨u, hexec, i, hi, hfree, hslot, hres, hothers⟩
    · obtain ⟨u, hexec, -, hslot, hres, hothers⟩ := completes_cancel hport hi h1 hk hlate
      exact ⟨u, hexec, by rw [hslot], by rw [hslot], hres, hothers⟩
    · obtain ⟨u, hexec, -, hslot, hres, hothers⟩ := completes_free hport hi h2 hk
      exact ⟨u, hexec, by rw [hslot], hres, hothers⟩

end Sys2Proof.Proofs
end

/-! What a stage and a verdict of the Strainer leave: the other pipelines, and every other channel (R334–R349, R352–R356, R391, R392). -/

section
set_option Elab.async false
namespace Sys2Proof.Machine

/-- The packets in the pipelines are the same, and no fatal cause has been put out. -/
structure PipesKept (a b : Chan) : Prop where
  pipes : b.strn.pipes = a.strn.pipes
  outs : NoFatal a.outQ → NoFatal b.outQ

namespace PipesKept

variable {a b c : Chan}

theorem refl (a : Chan) : PipesKept a a := ⟨rfl, id⟩

theorem trans (h : PipesKept a b) (g : PipesKept b c) : PipesKept a c := ⟨g.pipes.trans h.pipes, g.outs ∘ h.outs⟩

theorem ite {p : Prop} [Decidable p] {x y : Chan} (hx : PipesKept a x) (hy : PipesKept a y) : PipesKept a (if p then x else y) := by
  split
  · exact hx
  · exact hy

theorem ite_fst {α : Type} {p : Prop} [Decidable p] {x y : Chan × α} (hx : PipesKept a x.1) (hy : PipesKept a y.1) :
    PipesKept a (if p then x else y).1 := by
  split
  · exact hx
  · exact hy

theorem each {α : Type} {f : Chan → α → Chan} (h : ∀ ch x, PipesKept ch (f ch x)) (l : List α) (ch : Chan) : PipesKept ch (ch.each l f) :=
  List.foldlRecOn (motive := fun d => PipesKept ch d) l f (refl ch) (fun d hd x _ => hd.trans (h d x))

theorem of_stays {pages : List Pg} (h : Stays pages id a b) : PipesKept a b where
  pipes := by
    have hwork := congrArg (fun x : Chan => x.strn.pipes) h.work
    exact hwork
  outs := h.outs

theorem put (ch : Chan) (p : Pg) (off : Nat) (v : Word) : PipesKept ch (ch.put p off v) := ⟨rfl, id⟩
theorem inc (ch : Chan) (p : Pg) (off n : Nat) : PipesKept ch (ch.inc p off n) := ⟨rfl, id⟩
theorem inc64 (ch : Chan) (p : Pg) (off n : Nat) : PipesKept ch (ch.inc64 p off n) := ⟨rfl, id⟩
theorem takeFree (ch : Chan) : PipesKept ch ch.takeFree := ⟨rfl, id⟩
theorem onTbl (ch : Chan) (f : TblW → TblW) : PipesKept ch (ch.onTbl f) := ⟨rfl, id⟩
theorem onCad (ch : Chan) (x : CadW) : PipesKept ch { ch with cad := x } := ⟨rfl, id⟩
theorem putRing (ch : Chan) (p r : Nat) (x : Ring) : PipesKept ch (ch.putRing p r x) := ⟨rfl, id⟩
theorem putPw (ch : Chan) (p : Nat) (w : PortWork) : PipesKept ch (ch.putPw p w) := ⟨rfl, id⟩
theorem putRecs (ch : Chan) (q : List Rec) : PipesKept ch { ch with recQ := q } := ⟨rfl, id⟩
theorem putPtp (ch : Chan) (q : List Pkt) : PipesKept ch { ch with ptpRxq := q } := ⟨rfl, id⟩

theorem raise (ch : Chan) (p : Pg) (n : Nat) : PipesKept ch (ch.raise p n) := of_stays (.raise ch (List.mem_singleton_self p) n)

theorem tally (ch : Chan) (p : Pg) (code : Nat) (at_ : Attr) (n : Nat) : PipesKept ch (ch.tally p code at_ n) :=
  of_stays (.tally ch (List.mem_singleton_self p) code at_ n)

theorem capture (ch : Chan) (p : Pg) (cls cause addr syn det : Nat) : PipesKept ch (ch.capture p cls cause addr syn det) :=
  of_stays (.capture ch (List.mem_singleton_self p) cls cause addr syn det)

theorem journalSec (ch : Chan) (p : Pg) (cls ev sub base mult n lim : Nat) : PipesKept ch (ch.journalSec p cls ev sub base mult n lim) :=
  of_stays (.journalSec (pages := []) ch p cls ev sub base mult n lim)

theorem incRaise (ch : Chan) (p : Pg) (off n k : Nat) : PipesKept ch (ch.incRaise p off n k) := by
  unfold Chan.incRaise
  exact ite ((inc ch p off k).trans (raise _ p n)) (inc ch p off k)

/-! Records toward the host (R392, R554). -/

theorem ringDrop (ch : Chan) (p r n : Nat) : PipesKept ch (ch.ringDrop p r n) := by
  unfold Chan.ringDrop
  exact ite (refl ch) (ite ((putRing ch p r _).trans (raise _ pgPart 11)) (putRing ch p r _))

theorem learnDrop (ch : Chan) (bytes : List Byte) : PipesKept ch (ch.learnDrop bytes) := by
  unfold Chan.learnDrop
  dsimp only
  exact (((onTbl ch (fun w => { w with filter := w.filter.filter (fun e => e.contested || !(e.table == leAt bytes 17 1 &&
    e.key == sliceBytes bytes 32 (leAt bytes 25 1))) })).trans (inc _ _ _ _)).trans (raise _ _ _)).trans (journalSec _ _ _ _ _ _ _ _ _)

theorem sendRec (ch : Chan) (p r time : Nat) (bytes : List Byte) : PipesKept ch (ch.sendRec p r time bytes) := by
  unfold Chan.sendRec
  exact ite ((ringDrop ch p r 1).trans (ite (learnDrop _ _) (refl _))) (putRecs ch _)

theorem sendLearn (ch : Chan) (x : LearnRec) : PipesKept ch (ch.sendLearn x) := by
  unfold Chan.sendLearn
  dsimp only
  exact ((onTbl ch _).trans (inc _ _ _ _)).trans (sendRec _ _ _ _ _)

theorem filterAdd (ch : Chan) (x : Cand) : PipesKept ch (ch.filterAdd x) := by
  unfold Chan.filterAdd
  dsimp only
  refine ite ((onTbl ch _).trans (sendLearn _ _)) ?_
  split
  · exact (onTbl ch _).trans (sendLearn _ _)
  · exact ((inc ch _ _ _).trans (raise _ _ _)).trans (sendLearn _ _)

/-- A source lookup offers a candidate (R391, R392). -/
theorem candidate (ch : Chan) (x : Cand) : PipesKept ch (ch.candidate x) := by
  unfold Chan.candidate
  refine ite (refl ch) ?_
  split
  · exact filterAdd ch x
  · dsimp only
    refine ite (inc ch _ _ _) (ite (ite (inc ch _ _ _) ?_) ((onTbl ch _).trans (sendLearn _ _)))
    exact ((((onTbl ch _).trans (raise _ _ _)).trans (journalSec _ _ _ _ _ _ _ _ _)).trans (ite (raise _ _ _) (refl _))).trans (sendLearn _ _)

theorem sourceLookup (ch : Chan) (x : InPipe) (t : Nat) (key : List Byte) (v : Option EmVer) : PipesKept ch (ch.sourceLookup x t key v) := by
  unfold Chan.sourceLookup
  dsimp only
  split
  · exact candidate ch _
  · exact ite (refl ch) (ite (ite (inc ch _ _ _) (refl ch)) (candidate ch _))

/-! A stage. -/

theorem readLines (ch : Chan) (pipe stage t : Nat) (lines : List Nat) : PipesKept ch (ch.readLines pipe stage t lines).1 := by
  unfold Chan.readLines
  exact ite (refl ch) ((inc64 ch _ _ _).trans (tally _ _ _ _ _))

theorem stageLookup (ch : Chan) (pipe stage : Nat) (x : InPipe) (kind id klen : Nat) (key : List Byte) (lpmBad : Bool) :
    PipesKept ch (ch.stageLookup pipe stage x kind id klen key lpmBad).1 := by
  have h0 : PipesKept ch (ch.tally pgTbl 0x10 { priv := some 0, agent := some pipe }) := tally ch _ _ _ _
  unfold Chan.stageLookup
  dsimp only
  generalize ch.tally pgTbl 0x10 { priv := some 0, agent := some pipe } = c0 at h0 ⊢
  have hhit : ∀ c : Chan, PipesKept ch c → PipesKept ch (c.tally pgTbl 0x11 { priv := some 0, agent := some pipe }) := fun c h => h.trans (tally c _ _ _ _)
  generalize (if kind = 1 then ch.emTable id else (id, false)) = e
  split
  · exact h0
  split
  · have hread : PipesKept ch (c0.readLines pipe stage e.1 (ch.emLines e.1 (ch.emBuckets e.1 key).1 ++ ch.emLines e.1 (ch.emBuckets e.1 key).2)).1 :=
      h0.trans (readLines c0 _ _ _ _)
    generalize c0.readLines pipe stage e.1 (ch.emLines e.1 (ch.emBuckets e.1 key).1 ++ ch.emLines e.1 (ch.emBuckets e.1 key).2) = r at hread ⊢
    split
    · exact hread
    generalize (ch.emFind e.1 key).find? (fun y => nbit y.2.mask x.pkt.parity) = v
    have hsrc : PipesKept ch (if e.2 && decide (pipe < 6) && !x.pkt.injected then r.1.sourceLookup x e.1 key (v.map Prod.snd) else r.1) :=
      hread.trans (ite (sourceLookup _ _ _ _ _) (refl _))
    generalize (if e.2 && decide (pipe < 6) && !x.pkt.injected then r.1.sourceLookup x e.1 key (v.map Prod.snd) else r.1) = c1 at hsrc ⊢
    split
    · exact hsrc
    split
    · exact hhit _ (hsrc.trans (onTbl c1 _))
    · exact hsrc
  split
  · split
    · exact h0
    split
    · exact hhit _ h0
    · exact h0
  split
  · split
    · exact hhit _ h0
    · exact h0
  split
  · exact h0
  split
  · exact h0
  split
  · exact h0.trans (readLines c0 _ _ _ _)
  · exact hhit _ (h0.trans (readLines c0 _ _ _ _))

theorem replayFail (ch : Chan) (pipe stage : Nat) : PipesKept ch (ch.replayFail pipe stage) :=
  ((inc64 ch _ _ _).trans (raise _ _ _)).trans (journalSec _ _ _ _ _ _ _ _ _)

theorem cfgPoison (ch : Chan) (pipe bank stage off : Nat) : PipesKept ch (ch.cfgPoison pipe bank stage off) := by
  have hpoison : ∀ x, PipesKept ch { ch with strn := { ch.strn with poison := x } } := fun x => ⟨rfl, id⟩
  unfold Chan.cfgPoison
  exact (((hpoison _).trans (capture _ _ _ _ _ _ _)).trans (raise _ _ _)).trans (journalSec _ _ _ _ _ _ _ _ _)

theorem freeze (ch : Chan) (n : Nat) : PipesKept ch (ch.freeze n) := by
  unfold Chan.freeze
  exact ite (refl ch) (each (f := fun c i => (((c.inc64 (pipePg i) STRN.FREEZE_CYCLES n).raise (pipePg i) 9).tally (pipePg i) 0x13 {} n).journalSec
    (pipePg i) clsDegraded 1 0 0 1 n 12800000)
    (fun c i => (((inc64 c _ _ _).trans (raise _ _ _)).trans (tally _ _ _ _ _)).trans (journalSec _ _ _ _ _ _ _ _ _)) _ ch)

theorem reasonOf (ch : Chan) (v : Nat) : PipesKept ch (ch.reasonOf v).1 := by
  unfold Chan.reasonOf
  split
  · exact refl ch
  · exact takeFree ch

theorem sampleCand (ch : Chan) (n : Nat) : PipesKept ch (ch.sampleCand n).1 := by
  have hcand : ∀ (c : Chan) x, PipesKept c { c with strn := { c.strn with cand := x } } := fun c x => ⟨rfl, id⟩
  unfold Chan.sampleCand
  dsimp only
  split
  · exact (put ch _ _ _).trans (takeFree _)
  · exact (put ch _ _ _).trans (hcand _ _)

theorem dirPut (ch : Chan) (t i v : Nat) : PipesKept ch (ch.dirPut t i v) := onTbl ch _

theorem meterPut (ch : Chan) (t i : Nat) (m : Meter) : PipesKept ch (ch.meterPut t i m) := (onTbl ch _).trans (onTbl _ _)

end PipesKept

/-! The ops of a profile (R338–R349). -/

section
variable (s : OpSt) (i : StageIn) (pipe stage p a v : Nat)

theorem OpSt.count_pipes : PipesKept s.ch (s.count i pipe stage p a v).ch := by
  unfold OpSt.count
  split
  · exact .tally _ _ _ _ _
  dsimp only
  split
  · exact .refl _
  split
  · exact .replayFail _ _ _
  split
  · exact .refl _
  · exact .dirPut _ _ _ _

theorem OpSt.police_pipes (rfDrop : Bool) : PipesKept s.ch (s.police i pipe stage p a v rfDrop).ch := by
  unfold OpSt.police
  split
  · exact .tally _ _ _ _ _
  dsimp only
  split
  · exact .refl _
  split
  · exact .replayFail _ _ _
  split
  · exact .refl _
  · exact .meterPut _ _ _ _

theorem OpSt.mirror_pipes (n : Nat) : PipesKept s.ch (s.mirror n).ch := by
  unfold OpSt.mirror
  split
  · exact .refl _
  split
  · exact (PipesKept.inc _ _ _ _).trans (.raise _ _ _)
  · exact .refl _

theorem OpSt.sample_pipes (n : Nat) : PipesKept s.ch (s.sample n).ch := by
  unfold OpSt.sample
  split
  · exact .refl _
  split
  · exact (PipesKept.inc _ _ _ _).trans (.raise _ _ _)
  dsimp only
  split
  · exact .sampleCand _ _
  · exact .refl _

theorem OpSt.ptp_ch : (s.ptp p a v).ch = s.ch := by
  unfold OpSt.ptp
  split
  · rfl
  split
  · split
    · rfl
    · rfl
  · rfl

theorem OpSt.ite_pipes {c : Chan} {q : Prop} [Decidable q] {x y : OpSt} (hx : PipesKept c x.ch) (hy : PipesKept c y.ch) :
    PipesKept c (if q then x else y).ch := by
  split
  · exact hx
  · exact hy

/-- An op leaves the pipelines to the stage. -/
theorem OpSt.run_pipes (rfDrop : Bool) (res : List Byte) (op : Nat) : PipesKept s.ch (s.run i pipe stage rfDrop res op).ch := by
  unfold OpSt.run
  dsimp only
  generalize opValue op (if nbits op 63 58 = 0x0D then 6 else nbits op 47 42 + 1) s.x res = v
  refine ite_pipes (.refl _) (ite_pipes (.refl _) (ite_pipes (s.count_pipes _ _ _ _ _ _) (ite_pipes (s.police_pipes _ _ _ _ _ _ _) ?_)))
  refine ite_pipes (.refl _) (ite_pipes (.refl _) (ite_pipes (.refl _) (ite_pipes (s.mirror_pipes _) (ite_pipes (s.sample_pipes _) ?_))))
  refine ite_pipes (ite_pipes (.reasonOf _ _) (.reasonOf _ _)) (ite_pipes (.reasonOf _ _) (ite_pipes ?_ (ite_pipes (.refl _) (.refl _))))
  rw [s.ptp_ch]
  exact .refl _

theorem OpSt.foldl_pipes (rfDrop : Bool) (res : List Byte) (ops : List Nat) :
    PipesKept s.ch (ops.foldl (fun (s : OpSt) o => s.run i pipe stage rfDrop res o) s).ch :=
  List.foldlRecOn (motive := fun t : OpSt => PipesKept s.ch t.ch) ops _ (.refl _) (fun t ht o _ => ht.trans (t.run_pipes i pipe stage rfDrop res o))

end

theorem Chan.runStage_pipes (ch : Chan) (i : StageIn) (pipe stage : Nat) (x : InPipe) : PipesKept ch (ch.runStage i pipe stage x).1 := by
  unfold Chan.runStage
  dsimp only
  split
  · exact .refl ch
  have hreplay : PipesKept ch (if i.replays = 0 then ch else (ch.inc64 (pipePg pipe) STRN.REPLAYS i.replays).tally (pipePg pipe) 0x12 (stageAttr stage)
      i.replays) := .ite (.refl ch) ((PipesKept.inc64 ch _ _ _).trans (.tally _ _ _ _ _))
  generalize (if i.replays = 0 then ch else (ch.inc64 (pipePg pipe) STRN.REPLAYS i.replays).tally (pipePg pipe) 0x12 (stageAttr stage)
      i.replays) = replayed at hreplay ⊢
  have hfreeze : PipesKept ch (if pipe < 6 then replayed.freeze i.freeze else replayed) := hreplay.trans (.ite (.freeze _ _) (.refl _))
  generalize (if pipe < 6 then replayed.freeze i.freeze else replayed) = c0 at hfreeze ⊢
  split
  all_goals
    rename_i h
    have hlook := (congrArg (fun r : Chan × InPipe × List Byte × Option Nat => PipesKept ch r.1) h).mp (by
      split
      · exact hfreeze
      have htally := hfreeze.trans (.tally c0 (pipePg pipe) 0x11 (stageAttr stage) 1)
      generalize c0.tally (pipePg pipe) 0x11 (stageAttr stage) = c1 at htally ⊢
      split
      · have hfail := htally.trans (.replayFail c1 pipe stage)
        split
        · exact hfail.trans (.inc _ _ _ _)
        · exact hfail.trans (.inc _ _ _ _)
      split
      all_goals
        rename_i hfound
        have hfound := htally.trans ((congrArg (fun r : Chan × Found => PipesKept c1 r.1) hfound).mp (.stageLookup c1 _ _ _ _ _ _ _ _))
      · exact hfound.trans (.inc _ _ _ _)
      · exact hfound.trans (.inc _ _ _ _)
      · have hmiss := hfound.trans (.inc _ (pipePg pipe) (STRN.STAGE_MISS stage) 1)
        exact .ite_fst hmiss (.ite_fst hmiss hmiss))
  · exact hlook
  · split
    · exact hlook
    · have hops := fun c y rfDrop res ops => OpSt.foldl_pipes { ch := c, x := y } i pipe stage rfDrop res ops
      split
      · exact hlook.trans (hops _ _ _ _ _)
      · exact hlook.trans (hops _ _ _ _ _)

theorem Chan.passStage_pipes (ch : Chan) (i : StageIn) (pipe : Nat) (x : InPipe) : PipesKept ch (ch.passStage i pipe x).1 := by
  unfold Chan.passStage
  dsimp only
  refine .ite_fst (.refl ch) ?_
  split
  · next o _ =>
    have hpoison : PipesKept ch (if o < stageLen then ch.cfgPoison pipe x.pkt.parity x.next o else ch) := .ite (.cfgPoison ch _ _ _ _) (.refl ch)
    exact .ite_fst hpoison (.ite_fst hpoison (hpoison.trans (Chan.runStage_pipes _ i pipe _ x)))
  · exact .ite_fst (.refl ch) (.ite_fst (.refl ch) (Chan.runStage_pipes _ i pipe _ x))

/-! The verdict (R341, R352–R356). -/

namespace PipesKept

theorem puntTo (ch : Chan) (x : InPipe) (egress : Bool) (ring reason drop : Nat) (data : List Byte) :
    PipesKept ch (ch.puntTo x egress ring reason drop data) := by
  unfold Chan.puntTo
  exact ite (ite ((inc ch _ _ _).trans (raise _ _ _)) (putPtp ch _)) (sendRec ch _ _ _ _)

theorem mirrorCopy (ch : Chan) (x : InPipe) (pipe m : Nat) (dropped : Bool) (data : List Byte) : PipesKept ch (ch.mirrorCopy x pipe m dropped data) := by
  unfold Chan.mirrorCopy
  exact ite (refl ch) (ite (((inc ch _ _ _).trans (raise _ _ _)).trans (journalSec _ _ _ _ _ _ _ _ _)) ⟨rfl, id⟩)

theorem sampleCopy (ch : Chan) (x : InPipe) (n drop : Nat) (data : List Byte) : PipesKept ch (ch.sampleCopy x n drop data) := by
  unfold Chan.sampleCopy
  exact ite (refl ch) ((inc ch _ _ _).trans (sendRec _ _ _ _ _))

theorem copies (ch : Chan) (x : InPipe) (pipe drop : Nat) (data : List Byte) : PipesKept ch (ch.copies x pipe drop data) := by
  have hmirror := each (f := fun c m => Chan.mirrorCopy c x pipe m (decide (drop ≠ 0)) data) (fun c m => mirrorCopy c x pipe m _ data) x.mirrors ch
  have hsample := hmirror.trans (each (f := fun c n => Chan.sampleCopy c x n drop data) (fun c n => sampleCopy c x n drop data) x.sel _)
  unfold Chan.copies
  exact ite hsample (hsample.trans (each (f := fun c e => Chan.puntTo c x x.pkt.egress e.1 e.2 0 data) (fun c e => puntTo c x _ _ _ _ _) x.puntCopies _))

theorem verdictDrop (ch : Chan) (pipe reason tc : Nat) : PipesKept ch (ch.verdictDrop pipe reason tc) := by
  have hcount := ((inc64 ch (pipePg pipe) STRN.DROP_PKTS 1).trans (inc _ (pipePg pipe) (STRN.DROP_CNT reason) 1)).trans
    (tally _ (pipePg pipe) 0x14 { priv := some 0, cls := some tc } 1)
  unfold Chan.verdictDrop
  exact ite (hcount.trans (raise _ _ _)) hcount

theorem verdictPunt (ch : Chan) (x : InPipe) (pipe ring reason : Nat) (data : List Byte) : PipesKept ch (ch.verdictPunt x pipe ring reason data) :=
  ((inc64 ch _ _ _).trans (tally _ _ _ _ _)).trans (puntTo _ _ _ _ _ _ _)

theorem macPut (ch : Chan) (k : Pkt) : PipesKept ch (ch.macPut k) := by
  unfold Chan.macPut
  exact ite (inc64 ch _ _ _) (putPw ch _ _)

theorem verdict (ch : Chan) (x : InPipe) (pipe : Nat) (full : Bool) : PipesKept ch (ch.verdict x pipe full) := by
  have hdone : ∀ (c : Chan) (y : InPipe) (d : Nat) (data : List Byte), PipesKept ch c → PipesKept ch (c.copies y pipe d data) := fun c y d data h =>
    h.trans (copies c y pipe d data)
  unfold Chan.verdict
  dsimp only
  refine ite (incRaise ch _ _ _ _) (ite (hdone _ _ _ _ (verdictDrop ch _ _ _)) ?_)
  split
  · exact hdone _ _ _ _ (verdictPunt ch _ _ _ _ _)
  · refine ite (hdone _ _ _ _ ((inc64 ch _ _ _).trans (macPut _ _))) (ite (ite (hdone _ _ _ _ ?_) (hdone _ _ _ _ ?_)) (ite (ite ?_ ?_) ?_))
    · exact ((inc ch _ _ _).trans (raise _ _ _)).trans (journalSec _ _ _ _ _ _ _ _ _)
    · exact (inc64 ch (pipePg pipe) STRN.FWD_PKTS 1).trans (onCad _ _)
    · exact hdone _ _ _ _ (verdictPunt ch _ _ _ _ _)
    · exact hdone _ _ _ _ (verdictDrop ch _ _ _)
    · exact hdone _ _ _ _ (verdictDrop ch _ _ _)

end PipesKept

end Sys2Proof.Machine
end

/-! The distributor of the Strainer (R330, R332). -/

section
set_option Elab.async false
namespace Sys2Proof.Machine

theorem pickOf_mem {r : Nat} {l : List Nat} {i : Nat} (h : pickOf r l = some i) : i ∈ l := by
  cases l with
  | nil => exact nomatch h
  | cons a l =>
    have hlt : r % (l.length + 1) < (a :: l).length := Nat.mod_lt _ (Nat.succ_pos _)
    simp only [pickOf, List.getD_eq_getElem _ _ hlt, Option.some.injEq] at h
    exact h ▸ List.getElem_mem _

theorem pickOf_some {r : Nat} {l : List Nat} (h : l ≠ []) : ∃ i, pickOf r l = some i := by
  cases l with
  | nil => exact absurd rfl h
  | cons a l => exact ⟨_, rfl⟩

/-- The pages of the Strainer's pipelines. -/
abbrev strnPages : List Pg := (List.range 12).map pgStrn

abbrev strnStrip (ch : Chan) : Chan := { ch with strn := {} }

theorem pipePg_mem {i : Nat} (h : i < 12) : pipePg i ∈ strnPages := List.mem_map.2 ⟨i, List.mem_range.2 h, rfl⟩

theorem mem_usablePipes {ch : Chan} {egress : Bool} {i : Nat} (h : i ∈ ch.usablePipes egress) : i < 12 := by
  simp only [Chan.usablePipes, List.mem_filter, List.mem_map, List.mem_range] at h
  obtain ⟨⟨j, hj, rfl⟩, -⟩ := h
  split <;> omega

theorem usablePipes_nodup (ch : Chan) (egress : Bool) : (ch.usablePipes egress).Nodup :=
  (List.nodup_range.map (fun _ _ h => Nat.add_left_cancel h)).filter _

/-- What a frame without a strip says of the Strainer. -/
theorem Stays.strn {pages : List Pg} {a b : Chan} (h : Stays pages id a b) : b.strn = a.strn := by
  have hwork := congrArg (fun x : Chan => x.strn) h.work
  exact hwork

/-- A packet as it enters a pipeline, `n`th after those that the pipelines have taken (R331, R333). -/
def Parsed.entry (x : Parsed) (n : Nat) : InPipe := { pkt := x.pkt, ord := n, src := srcOf x }

theorem resultCode_lt (r : Nat) : resultCode r < 256 := Nat.mod_lt _ (by norm_num)

/-- A packet enters a pipeline (R330). -/
theorem Chan.pipeEnter_enters (ch : Chan) {i : Nat} (hi : i < 12) (x : Parsed) :
    (ch.pipeEnter i x).strn = { ch.strn with pipes := tput [] ch.strn.pipes i (ch.pipe i ++ [x.entry ch.strn.entered]), entered := ch.strn.entered + 1 } ∧
      Stays strnPages strnStrip ch (ch.pipeEnter i x) := by
  have hp := pipePg_mem hi
  have hhome : pgStrn (strnHome x.pkt.egress) ∈ strnPages := pipePg_mem (i := strnHome x.pkt.egress) (by unfold strnHome; split <;> omega)
  have hfault : Stays strnPages id ch (if resultDisp x.result = 2 then
      (ch.inc (pgStrn (strnHome x.pkt.egress)) (STRN.PARSE_FAULT_CNT (resultCode x.result))).raise (pipePg i) 12 else ch) :=
    .ite (fun _ => (Stays.put ch hhome _ (by have := resultCode_lt x.result; simp only [STRN.PARSE_FAULT_CNT]; omega)).trans (.raise _ hp 12))
      (fun _ => .refl ch)
  unfold Chan.pipeEnter
  dsimp only
  generalize (if resultDisp x.result = 2 then
    (ch.inc (pgStrn (strnHome x.pkt.egress)) (STRN.PARSE_FAULT_CNT (resultCode x.result))).raise (pipePg i) 12 else ch) = c1 at hfault ⊢
  have hcount : Stays strnPages id ch ((c1.inc64 (pipePg i) STRN.IN_PKTS).tally (pipePg i) 0x10) :=
    ((hfault.trans (.put c1 hp (off := STRN.IN_PKTS) _ (by decide))).trans (.put _ hp (off := STRN.IN_PKTS + 4) _ (by decide))).trans (.tally _ hp _ _ _)
  generalize (c1.inc64 (pipePg i) STRN.IN_PKTS).tally (pipePg i) 0x10 = c2 at hcount ⊢
  have hstrn := hcount.strn
  refine ⟨?_, (hcount.mono (fun _ h => h) strnStrip (fun _ => rfl)).trans ⟨rfl, fun _ _ => rfl, fun h => h⟩⟩
  simp only [Chan.putPipe, hstrn]
  rfl

theorem Chan.pipe_of_strn {ch : Chan} {s : StrnW} (h : ch.strn = s) (i : Nat) : ch.pipe i = tget [] s.pipes i := by rw [Chan.pipe, h]

/-- What the distributor has done of a direction's packets `l` into the pipelines `us` (R330). -/
structure Spread (us : List Nat) (l : List Parsed) (a b : Chan) : Prop where
  frame : Stays strnPages strnStrip a b
  queueIn : b.strn.qIn = a.strn.qIn
  queueEg : b.strn.qEg = a.strn.qEg
  pipes : ∀ j, b.pipe j = a.pipe j ∨
    j ∈ us ∧ ∃ y ∈ l, ∃ n ∈ List.range us.length, b.pipe j = a.pipe j ++ [y.entry (a.strn.entered + n)]
  first : ∀ x q, l = x :: q → us ≠ [] → ∃ i ∈ us, b.pipe i = a.pipe i ++ [x.entry a.strn.entered]

theorem Spread.none {us : List Nat} {l : List Parsed} (a : Chan) (h : l = [] ∨ us = []) : Spread us l a a where
  frame := .refl a
  queueIn := rfl
  queueEg := rfl
  pipes _ := .inl rfl
  first x q hl hus := by
    rcases h with rfl | rfl
    · exact nomatch hl
    · exact absurd rfl hus

/-- A packet that enters pipeline `i`, and the others that the distributor then gives the rest. -/
theorem Spread.cons {us : List Nat} {l : List Parsed} {x : Parsed} {i : Nat} {a b c : Chan} (hi : i ∈ us) (hnd : us.Nodup)
    (hb : b.strn = { a.strn with pipes := tput [] a.strn.pipes i (a.pipe i ++ [x.entry a.strn.entered]), entered := a.strn.entered + 1 })
    (hframe : Stays strnPages strnStrip a b) (h : Spread (us.erase i) l b c) : Spread us (x :: l) a c := by
  have hsame : b.pipe i = a.pipe i ++ [x.entry a.strn.entered] := (Chan.pipe_of_strn hb i).trans (tget_tput_same _ _ _ _)
  have hother : ∀ j, j ≠ i → b.pipe j = a.pipe j := fun j hj => (Chan.pipe_of_strn hb j).trans (tget_tput_ne _ _ _ hj)
  have hlen : 0 < us.length := List.length_pos_of_mem hi
  have hfirst : c.pipe i = a.pipe i ++ [x.entry a.strn.entered] := by
    rcases h.pipes i with heq | ⟨hin, -⟩
    · rw [heq, hsame]
    · exact absurd hin hnd.not_mem_erase
  refine ⟨hframe.trans h.frame, by rw [h.queueIn, hb], by rw [h.queueEg, hb], fun j => ?_, fun y q he _ => ⟨i, hi, ?_⟩⟩
  · by_cases hj : j = i
    · subst hj
      exact .inr ⟨hi, x, List.mem_cons_self, 0, List.mem_range.2 hlen, hfirst⟩
    · rcases h.pipes j with heq | ⟨hin, y, hy, n, hn, heq⟩
      · exact .inl (heq.trans (hother j hj))
      · refine .inr ⟨List.mem_of_mem_erase hin, y, List.mem_cons_of_mem _ hy, n + 1, ?_, ?_⟩
        · rw [List.mem_range, List.length_erase_of_mem hi] at hn
          exact List.mem_range.2 (by omega)
        · rw [heq, hother j hj, hb, show a.strn.entered + 1 + n = a.strn.entered + (n + 1) by omega]
  · obtain ⟨rfl, -⟩ := List.cons.inj he
    exact hfirst

theorem Chan.spread_spreads (l : List Parsed) : ∀ (us : List Nat) (ch : Chan), us.Nodup → (∀ i ∈ us, i < 12) → Spread us l ch (ch.spread us l) := by
  induction l with
  | nil => exact fun us ch _ _ => .none ch (.inl rfl)
  | cons x l ih =>
    intro us ch hnd hlt
    rw [Chan.spread]
    split
    · next i hpick =>
      have hi := pickOf_mem hpick
      obtain ⟨hstrn, hframe⟩ := ch.takeFree.pipeEnter_enters (hlt i hi) x
      exact .cons hi hnd hstrn ((Stays.takeFree ch).trans hframe)
        (ih (us.erase i) _ (hnd.erase i) (fun j hj => hlt j (List.mem_of_mem_erase hj)))
    · next hpick =>
      refine .none ch (.inr (Classical.byContradiction fun hne => ?_))
      obtain ⟨i, hi⟩ := pickOf_some (r := ch.freeVal 32) hne
      rw [hpick] at hi
      exact nomatch hi

/-- The queue of a direction. -/
def Chan.strnQueue (ch : Chan) (egress : Bool) : List Parsed := if egress then ch.strn.qEg else ch.strn.qIn

/-- The queue of a direction, replaced. -/
def Chan.putQueue (ch : Chan) (egress : Bool) (l : List Parsed) : Chan :=
  if egress then { ch with strn := { ch.strn with qEg := l } } else { ch with strn := { ch.strn with qIn := l } }

theorem Chan.putQueue_same (ch : Chan) (egress : Bool) : ch.putQueue egress (ch.strnQueue egress) = ch := by
  cases egress <;> rfl

theorem Chan.putQueue_strn (ch : Chan) (egress : Bool) (l : List Parsed) : (ch.putQueue egress l).strn.pipes = ch.strn.pipes ∧
    (ch.putQueue egress l).strn.entered = ch.strn.entered ∧ (ch.putQueue egress l).strn.qIn = (if egress then ch.strn.qIn else l) ∧
    (ch.putQueue egress l).strn.qEg = (if egress then l else ch.strn.qEg) := by
  cases egress <;> exact ⟨rfl, rfl, rfl, rfl⟩

theorem Stays.putQueue (ch : Chan) (egress : Bool) (l : List Parsed) : Stays strnPages strnStrip ch (ch.putQueue egress l) := by
  cases egress <;> exact ⟨rfl, fun _ _ => rfl, fun h => h⟩

/-- Usable pipelines take the oldest packets (R330). -/
theorem Chan.distribute_spreads {ch : Chan} {egress : Bool} (hcur : ch.brewCurrent = true) (hne : ch.usablePipes egress ≠ []) :
    Spread (ch.usablePipes egress) ((ch.strnQueue egress).take (ch.usablePipes egress).length)
      (ch.putQueue egress ((ch.strnQueue egress).drop (ch.usablePipes egress).length)) (ch.distribute egress) := by
  have hform : ch.distribute egress = (ch.putQueue egress ((ch.strnQueue egress).drop (ch.usablePipes egress).length)).spread (ch.usablePipes egress)
      ((ch.strnQueue egress).take (ch.usablePipes egress).length) := by
    rw [Chan.distribute]
    dsimp only
    rw [if_neg (by simp [hcur]), if_neg (by simpa using hne)]
    rfl
  rw [hform]
  exact Chan.spread_spreads _ _ _ (usablePipes_nodup ch egress) (fun _ h => mem_usablePipes h)

/-- With no usable pipeline the packets are dropped (R332). -/
theorem Chan.distribute_drops {ch : Chan} {egress : Bool} (hcur : ch.brewCurrent = true) (hnone : ch.usablePipes egress = []) :
    (ch.distribute egress).strn = (ch.putQueue egress ((ch.strnQueue egress).drop 6)).strn ∧ Stays strnPages strnStrip ch (ch.distribute egress) ∧
      (ch.strnQueue egress ≠ [] → bit ((ch.distribute egress).get (pgStrn (strnHome egress)) oCAUSE) 8 = true) := by
  have hhome : pgStrn (strnHome egress) ∈ strnPages := pipePg_mem (i := strnHome egress) (by unfold strnHome; split <;> omega)
  have hform : ch.distribute egress = if min 6 (ch.strnQueue egress).length = 0 then ch else
      ((ch.putQueue egress ((ch.strnQueue egress).drop 6)).inc64 (pgStrn (strnHome egress)) STRN.IN_FULL_DROP
        (min 6 (ch.strnQueue egress).length)).raise (pgStrn (strnHome egress)) 8 := by
    rw [Chan.distribute]
    dsimp only
    rw [if_neg (by simp [hcur]), if_pos (by simp [hnone])]
    rfl
  rw [hform]
  split
  · next hn =>
    have hempty : ch.strnQueue egress = [] := List.length_eq_zero_iff.1 (by omega)
    refine ⟨?_, .refl ch, fun h => absurd hempty h⟩
    have hsame : ch.putQueue egress ((ch.strnQueue egress).drop 6) = ch := by
      rw [show (ch.strnQueue egress).drop 6 = ch.strnQueue egress by rw [hempty, List.drop_nil]]
      exact ch.putQueue_same egress
    rw [hsame]
  · have hraise : Stays strnPages id (ch.putQueue egress ((ch.strnQueue egress).drop 6)) (((ch.putQueue egress ((ch.strnQueue egress).drop 6)).inc64
        (pgStrn (strnHome egress)) STRN.IN_FULL_DROP (min 6 (ch.strnQueue egress).length)).raise (pgStrn (strnHome egress)) 8) :=
      ((Stays.put _ hhome (off := STRN.IN_FULL_DROP) _ (by decide)).trans (.put _ hhome (off := STRN.IN_FULL_DROP + 4) _ (by decide))).trans (.raise _ hhome 8)
    exact ⟨hraise.strn, (Stays.putQueue ch _ _).trans (hraise.mono (fun _ h => h) strnStrip (fun _ => rfl)), fun _ => Chan.cause_raise _ _ (by norm_num)⟩

end Sys2Proof.Machine
end

/-! The stages and the verdict of the Strainer's pipelines (R334–R349, R341). -/

section
set_option Elab.async false
namespace Sys2Proof.Machine

theorem Chan.pipe_putPipe_same (ch : Chan) (i : Nat) (l : List InPipe) : (ch.putPipe i l).pipe i = l := tget_tput_same _ _ _ _

theorem Chan.pipe_putPipe_ne (ch : Chan) {i j : Nat} (l : List InPipe) (h : j ≠ i) : (ch.putPipe i l).pipe j = ch.pipe j := tget_tput_ne _ _ _ h

theorem PipesKept.pipe {a b : Chan} (h : PipesKept a b) (i : Nat) : b.pipe i = a.pipe i := by rw [Chan.pipe, h.pipes, Chan.pipe]

/-- Delivery leaves the pipelines. -/
theorem Delivers.pipe {a b : Chan} (h : Delivers a b) (i : Nat) : b.pipe i = a.pipe i := h.field (fun x => x.pipe i) (fun _ => rfl)

/-! Counters of 64 bits. -/

theorem Chan.get64_inc64 (ch : Chan) {p : Pg} {off : Nat} (h : p.key off ≠ p.key (off + 4)) :
    (ch.inc64 p off).get64 p off = (ch.get64 p off + 1) % 2 ^ 64 := by
  rw [Chan.inc64, Chan.put64, Chan.get64, Chan.nat, Chan.nat, Chan.putN, Chan.get_put_ne _ _ h, Chan.putN, Chan.get_put_same, Chan.get_put_same,
    BitVec.toNat_ofNat, BitVec.toNat_ofNat]
  omega

theorem Chan.get64_congr {a b : Chan} {p : Pg} {off : Nat} (h0 : b.get p off = a.get p off) (h4 : b.get p (off + 4) = a.get p (off + 4)) :
    b.get64 p off = a.get64 p off := by rw [Chan.get64, Chan.nat, Chan.nat, h0, h4, Chan.get64, Chan.nat, Chan.nat]

theorem pipePg_key {i : Nat} (hi : i < 12) (off : Nat) : (pipePg i).key off = (0x20 + i) * 65536 + off := by
  unfold pipePg Pg.key
  dsimp only
  rw [if_neg (by omega)]
  omega

theorem blockReg_strn {i off : Nat} (hi : i < 12) (hlo : 0x100 ≤ off) (hhi : off < 65536) : BlockReg ((pipePg i).key off) := by
  rw [pipePg_key hi]
  have hjrnl : pgJrnl.key 0 / 65536 = 1 := by decide
  refine ⟨by omega, ?_⟩
  rw [show ((0x20 + i) * 65536 + off) % 65536 = off by omega]
  exact not_countReg_block hlo

theorem Delivers.strn64 {a b : Chan} (h : Delivers a b) {i off : Nat} (hi : i < 12) (hlo : 0x100 ≤ off) (hhi : off < 65532) :
    b.get64 (pipePg i) off = a.get64 (pipePg i) off :=
  Chan.get64_congr (h.get (blockReg_strn hi hlo (by omega))) (h.get (blockReg_strn hi (by omega) (by omega)))

/-! A stage. -/

/-- A packet that has passed its stages stays as it is. -/
theorem Chan.passStage_done (ch : Chan) (i : StageIn) (pipe : Nat) {x : InPipe} (h : 12 ≤ x.next) : ch.passStage i pipe x = (ch, x) := if_pos h

section
variable {ch : Chan} {pipe : Nat} {x : InPipe} (hnext : x.next < 12)
include hnext

/-- A stage that is not enabled is skipped (R335). -/
theorem Chan.passStage_skips (hgood : ch.cfgBad pipe x.pkt.parity x.next 0 = false) (hoff : nbit (ch.stageWord pipe x.pkt.parity x.next 0 4) 31 = false) :
    ch.passStage {} pipe x = (ch, { x with next := ch.stageWord pipe x.pkt.parity x.next 4 4 % 16, tblOvr := none }) := by
  unfold Chan.passStage
  dsimp only
  rw [if_neg (by omega), if_neg (by simp [hgood]), if_pos (.inl hoff)]

/-- A poisoned control word drops the packet (R359). -/
theorem Chan.passStage_poisoned (hbad : ch.cfgBad pipe x.pkt.parity x.next 0 = true) : ch.passStage {} pipe x = (ch, x.cfgDrop) := by
  unfold Chan.passStage
  dsimp only
  rw [if_neg (by omega), if_pos hbad]

/-- A stage without a lookup whose profile ends at once (R335, R340). -/
theorem Chan.passStage_ends (hpoison : ch.strn.poison = []) (hon : nbit (ch.stageWord pipe x.pkt.parity x.next 0 4) 31 = true) (hfault : x.fault = false)
    (hkind : nbits (ch.stageWord pipe x.pkt.parity x.next 0 4) 29 27 = 0)
    (hend : nbits (ch.stageWord pipe x.pkt.parity x.next (0x100 + 64 * nbits (ch.stageWord pipe x.pkt.parity x.next 0 4) 5 0) 8) 63 58 = 0) :
    ch.passStage {} pipe x = (ch, { x with
      ran := setNbit x.ran x.next true, tblOvr := none, next := ch.stageWord pipe x.pkt.parity x.next 4 4 % 16 }) := by
  have hgood : ∀ o, ch.cfgBad pipe x.pkt.parity x.next o = false := fun o => by rw [Chan.cfgBad, hpoison]; rfl
  have hops : profileOps ((List.range 8).map (fun j => ch.stageWord pipe x.pkt.parity x.next
      (0x100 + 64 * nbits (ch.stageWord pipe x.pkt.parity x.next 0 4) 5 0 + 8 * j) 8)) = [] := by
    rw [profileOps, List.range_succ_eq_map, List.map_cons, List.takeWhile_cons_of_neg (by simp [hend])]
  unfold Chan.passStage
  dsimp only
  rw [if_neg (by omega), if_neg (by simp [hgood]), if_neg (by simp [hon, hfault])]
  unfold Chan.runStage
  dsimp only
  rw [if_neg (by simp [hgood]), if_pos hkind]
  dsimp only
  have hfreeze : (if pipe < 6 then (if (0 : Nat) = 0 then ch else (ch.inc64 (pipePg pipe) STRN.REPLAYS 0).tally (pipePg pipe) 0x12 (stageAttr x.next) 0).freeze 0
      else if (0 : Nat) = 0 then ch else (ch.inc64 (pipePg pipe) STRN.REPLAYS 0).tally (pipePg pipe) 0x12 (stageAttr x.next) 0) = ch := by
    split
    · rfl
    · rfl
  rw [hfreeze, if_neg (by simp [hgood]), hops]
  rfl

end

/-! The verdict. -/

theorem Chan.copies_none (ch : Chan) {x : InPipe} (pipe : Nat) {drop : Nat} (data : List Byte) (hm : x.mirrors = []) (hs : x.sel = [])
    (hp : drop ≠ 0 ∨ x.puntCopies = []) : ch.copies x pipe drop data = ch := by
  unfold Chan.copies
  rw [hm, hs]
  dsimp only
  split
  · rfl
  · next h =>
    rw [hp.resolve_left h]
    rfl

theorem InPipe.drop_lists (x : InPipe) (r : Nat) : (x.drop r).mirrors = x.mirrors ∧ (x.drop r).sel = x.sel := by
  unfold InPipe.drop
  split
  · exact ⟨rfl, rfl⟩
  · exact ⟨rfl, rfl⟩

section
variable (ch : Chan) {x : InPipe} (pipe : Nat) (htc : x.tcDrop = false) (hm : x.mirrors = []) (hs : x.sel = [])
include htc hm hs

/-- An ingress packet with a drop reason. -/
theorem Chan.verdict_drop (full : Bool) (heg : x.pkt.egress = false) (hd : x.dropReason ≠ 0) :
    ch.verdict x pipe full = ch.verdictDrop pipe x.dropReason x.tc := by
  unfold Chan.verdict
  dsimp only
  rw [heg, Bool.false_and, if_neg Bool.false_ne_true, if_neg (by simp [htc]), if_pos hd]
  exact Chan.copies_none _ _ _ (by rw [if_neg hd, (x.drop_lists _).1, hm]) (by rw [if_neg hd, (x.drop_lists _).2, hs]) (.inl hd)

/-- An ingress packet with a destination, over a bridge that works. -/
theorem Chan.verdict_forward (heg : x.pkt.egress = false) (hd : x.dropReason = 0) (hpunt : x.punt = none) (hcopies : x.puntCopies = [])
    (hdest : x.destKind = 1) (hbridge : ch.bridged = true) : ch.verdict x pipe false =
      { ch.inc64 (pipePg pipe) STRN.FWD_PKTS with cad := { ch.cad with reqs := ch.cad.reqs ++ [{ requester := pipe, pkt := { x.pkt with ctx := x.context } }] } } := by
  unfold Chan.verdict
  dsimp only
  rw [heg, Bool.false_and, if_neg Bool.false_ne_true, if_neg (by simp [htc]), if_neg (by simp [hd]), hpunt]
  dsimp only
  rw [if_neg Bool.false_ne_true, if_pos (.inl hdest), if_neg (by simp [hbridge])]
  exact Chan.copies_none _ _ _ (by rw [if_pos rfl, hm]) (by rw [if_pos rfl, hs]) (.inr (by rw [if_pos rfl, hcopies]))

/-- An egress packet leaves as edited. -/
theorem Chan.verdict_egress (full : Bool) (heg : x.pkt.egress = true) (hd : x.dropReason = 0) (hpunt : x.punt = none) (hcopies : x.puntCopies = [])
    (hlen : (frameOf x.edited).length ≤ x.pkt.len + 128) :
    ch.verdict x pipe full = (ch.inc64 (pipePg pipe) STRN.FWD_PKTS).macPut { x.pkt with bytes := frameOf x.edited, ptp := x.ptp } := by
  unfold Chan.verdict
  dsimp only
  rw [heg, Bool.true_and, decide_eq_false (by omega), if_neg Bool.false_ne_true, if_neg (by simp [htc]), if_neg (by simp [hd]), hpunt]
  dsimp only
  rw [if_pos rfl]
  exact Chan.copies_none _ _ _ (by rw [if_pos rfl, hm]) (by rw [if_pos rfl, hs]) (.inr (by rw [if_pos rfl, hcopies]))

end

/-- A drop is counted, and touches no buffer. -/
theorem Chan.verdictDrop_counts (ch : Chan) {pipe : Nat} (hp : pipe < 12) (reason tc : Nat) :
    (ch.verdictDrop pipe reason tc).get64 (pipePg pipe) STRN.DROP_PKTS = (ch.get64 (pipePg pipe) STRN.DROP_PKTS + 1) % 2 ^ 64 ∧
      (ch.verdictDrop pipe reason tc).cad = ch.cad := by
  have hkey := pipePg_key hp
  obtain ⟨b, hb⟩ : ∃ b, b = (ch.inc64 (pipePg pipe) STRN.DROP_PKTS).inc (pipePg pipe) (STRN.DROP_CNT reason) := ⟨_, rfl⟩
  have hother : ∀ off, off < 0x1000 → b.get (pipePg pipe) off = (ch.inc64 (pipePg pipe) STRN.DROP_PKTS).get (pipePg pipe) off := fun off ho => by
    rw [hb]
    exact Chan.get_put_ne _ _ (by rw [hkey, hkey]; simp only [STRN.DROP_CNT]; omega)
  have hcount : b.get64 (pipePg pipe) STRN.DROP_PKTS = (ch.get64 (pipePg pipe) STRN.DROP_PKTS + 1) % 2 ^ 64 :=
    (Chan.get64_congr (hother _ (by decide)) (hother _ (by decide))).trans (Chan.get64_inc64 ch (by rw [hkey, hkey]; omega))
  have htally : ∀ at_, Delivers b (b.tally (pipePg pipe) 0x14 at_) := fun at_ =>
    Spares.of_counts (Counts.tally (pipePg pipe) b 0x14 at_ 1) (fun _ hk off ho => hk.not_count _ off ho)
  have hdel : Delivers b (ch.verdictDrop pipe reason tc) := by
    unfold Chan.verdictDrop
    dsimp only
    rw [← hb]
    exact .ite (fun _ => (htally _).trans (Delivers.raise _ _ 11 rfl rfl)) (fun _ => htally _)
  refine ⟨(hdel.strn64 hp (by decide) (by decide)).trans hcount, ?_⟩
  rw [hdel.field (fun y => y.cad) (fun _ => rfl), hb]
  rfl

/-- A frame that reaches the MAC FIFO of a port that is up (R31, R216). -/
theorem Chan.macPut_up {ch : Chan} {k : Pkt} (hup : ch.oper k.port = true) (hdowns : k.downs = (ch.pw k.port).downs) :
    ch.macPut k = ch.putPw k.port { ch.pw k.port with mac := (ch.pw k.port).mac ++ [.data k (decide (k.launch < ch.time * 1000 / 65536))] } := by
  unfold Chan.macPut
  dsimp only
  rw [if_neg (by simp [hup, hdowns])]

theorem Chan.oper_incStrn (ch : Chan) {pipe : Nat} (hp : pipe < 12) (off port : Nat) (ho : off + 4 < 65536) :
    (ch.inc64 (pipePg pipe) off).oper port = ch.oper port := by
  have hkey : ∀ a, a < 65536 → (portPg port).key (LINE.PORT_STAT_OPER (portBlk port)).off ≠ (pipePg pipe).key a := fun a ha he => by
    obtain ⟨i, hi, -⟩ := portPg_page port
    have hdiv := congrArg (· / 65536) he
    have hblk := portBlk_lt port
    dsimp only at hdiv
    have hpage : (pgLine i).key (LINE.PORT_STAT_OPER (portBlk port)).off / 65536 = 0x30 + i :=
      (Pg.key_div _ (show (LINE.PORT_STAT_OPER (portBlk port)).off < 65536 by simp only; omega)).trans (pgLine_page i)
    rw [hi, hpage, pipePg_key hp] at hdiv
    omega
  have hget : ((ch.inc64 (pipePg pipe) off).get (portPg port) (LINE.PORT_STAT_OPER (portBlk port)).off) =
      ch.get (portPg port) (LINE.PORT_STAT_OPER (portBlk port)).off :=
    (Chan.get_put_ne _ _ (hkey (off + 4) ho)).trans (Chan.get_put_ne _ _ (hkey off (by omega)))
  rw [Chan.oper, Chan.portB, Chan.portF, Chan.getF, hget]
  rfl

end Sys2Proof.Machine
end

/-! The Strainer's pipelines: the distributor, the stages and the verdict as commands (R330, R335, R341). -/

section
set_option Elab.async false
namespace Sys2Proof.Proofs

open Sys2Proof Sys2Proof.Machine

section
variable {s : State} {c : Fin 4} (hr : Ready s c)
include hr

/-- The distributor's frame, and what it leaves of the Strainer. -/
theorem completes_distribute {egress : Bool} {P : State → Prop} (h : Stays strnPages strnStrip (s.chan c) ((s.chan c).distribute egress))
    (hP : ∀ u, StrnFrame s u c → Calm ((s.chan c).distribute egress) (u.chan c) → P u) : Completes (.strainerDistribute c egress) s P := by
  have hout := noFatal_of_nil hr.2
  have hkeeps : Keeps s (s.runChan c (fun ch => ch.distribute egress)) c strnPages strnStrip := h.keeps (f := fun ch => ch.distribute egress) hout
  refine ⟨_, congrArg Host.Outcome.next (State.onLive_of_ready hr _), hP _ hkeeps (State.runChan_calm (f := fun ch => ch.distribute egress) (h.outs hout))⟩

theorem completes_spread {egress : Bool} {P : State → Prop} (hcur : (s.chan c).brewCurrent = true) (hne : (s.chan c).usablePipes egress ≠ [])
    (hP : ∀ u, StrnFrame s u c → (u.chan c).strn.qIn = (if egress then (s.chan c).strn.qIn else (s.chan c).strn.qIn.drop ((s.chan c).usablePipes false).length) →
      (u.chan c).strn.qEg = (if egress then (s.chan c).strn.qEg.drop ((s.chan c).usablePipes true).length else (s.chan c).strn.qEg) →
      (∀ j, (u.chan c).pipe j = (s.chan c).pipe j ∨ j ∈ (s.chan c).usablePipes egress ∧
        ∃ y ∈ ((s.chan c).strnQueue egress).take ((s.chan c).usablePipes egress).length, ∃ n ∈ List.range ((s.chan c).usablePipes egress).length,
          (u.chan c).pipe j = (s.chan c).pipe j ++ [y.entry ((s.chan c).strn.entered + n)]) →
      (∀ x q, ((s.chan c).strnQueue egress).take ((s.chan c).usablePipes egress).length = x :: q →
        ∃ i ∈ (s.chan c).usablePipes egress, (u.chan c).pipe i = (s.chan c).pipe i ++ [x.entry (s.chan c).strn.entered]) → P u) :
    Completes (.strainerDistribute c egress) s P := by
  have hspread := Chan.distribute_spreads hcur hne
  obtain ⟨hpipes, hentered, hin, heg⟩ := (s.chan c).putQueue_strn egress (((s.chan c).strnQueue egress).drop ((s.chan c).usablePipes egress).length)
  refine completes_distribute hr ((Stays.putQueue _ _ _).trans hspread.frame) (fun u hframe hcalm => ?_)
  have hstrn := hcalm.strn
  have hpipe : ∀ j, (u.chan c).pipe j = ((s.chan c).distribute egress).pipe j := fun j => by rw [Chan.pipe, hstrn, Chan.pipe]
  have hput : ∀ j, ((s.chan c).putQueue egress (((s.chan c).strnQueue egress).drop ((s.chan c).usablePipes egress).length)).pipe j = (s.chan c).pipe j :=
    fun j => by rw [Chan.pipe, hpipes, Chan.pipe]
  refine hP u hframe ?_ ?_ (fun j => ?_) (fun x q he => ?_)
  · rw [hstrn, hspread.queueIn, hin]
    cases egress <;> rfl
  · rw [hstrn, hspread.queueEg, heg]
    cases egress <;> rfl
  · have h := hspread.pipes j
    rwa [hput, hentered, ← hpipe] at h
  · obtain ⟨i, hi, h⟩ := hspread.first x q he hne
    rw [hput, hentered, ← hpipe] at h
    exact ⟨i, hi, h⟩

theorem completes_strnDrop {egress : Bool} {P : State → Prop} (hcur : (s.chan c).brewCurrent = true) (hnone : (s.chan c).usablePipes egress = [])
    (hP : ∀ u, StrnFrame s u c → (u.chan c).strn.qIn = (if egress then (s.chan c).strn.qIn else (s.chan c).strn.qIn.drop 6) →
      (u.chan c).strn.qEg = (if egress then (s.chan c).strn.qEg.drop 6 else (s.chan c).strn.qEg) → (u.chan c).strn.pipes = (s.chan c).strn.pipes →
      ((s.chan c).strnQueue egress ≠ [] → bit ((u.chan c).get (pgStrn (strnHome egress)) oCAUSE) 8 = true) → P u) :
    Completes (.strainerDistribute c egress) s P := by
  obtain ⟨hshape, hstays, hcause⟩ := Chan.distribute_drops hcur hnone
  obtain ⟨hpipes, -, hin, heg⟩ := (s.chan c).putQueue_strn egress (((s.chan c).strnQueue egress).drop 6)
  refine completes_distribute hr hstays (fun u hframe hcalm => ?_)
  have hstrn := hcalm.strn.trans hshape
  refine hP u hframe ?_ ?_ ?_ (fun hne => ?_)
  · rw [hstrn, hin]
    cases egress <;> rfl
  · rw [hstrn, heg]
    cases egress <;> rfl
  · rw [hstrn, hpipes]
  · rw [calm_get hcalm (by decide) (by cases egress <;> decide)]
    exact hcause hne

/-- A stage of the packet at a position of a pipeline. -/
theorem completes_stage {pipe pos : Nat} {x : InPipe} {a b d e : Bool} {freeze replays : Nat} {o : Option Nat} {P : State → Prop}
    (hpos : ((s.chan c).pipe pipe)[pos]? = some x)
    (hP : ∀ u r, r = (s.chan c).passStage ⟨a, b, d, freeze, replays, e, o⟩ pipe x → (∀ n, n ≠ c → u.chan n = s.chan n) →
      Calm (r.1.putPipe pipe (((s.chan c).pipe pipe).set pos r.2)) (u.chan c) →
      (u.chan c).pipe pipe = ((s.chan c).pipe pipe).set pos r.2 → (∀ i, i ≠ pipe → (u.chan c).pipe i = (s.chan c).pipe i) →
      (r.1.outQ = [] → u.chan c = r.1.putPipe pipe (((s.chan c).pipe pipe).set pos r.2)) → P u) :
    Completes (.strainerStage c pipe pos a b d e freeze replays o) s P := by
  obtain ⟨r, hrun⟩ : ∃ r, r = (s.chan c).passStage ⟨a, b, d, freeze, replays, e, o⟩ pipe x := ⟨_, rfl⟩
  obtain ⟨f, hf, hexec⟩ : ∃ f, f (s.chan c) = r.1.putPipe pipe (((s.chan c).pipe pipe).set pos r.2) ∧
      exec (.strainerStage c pipe pos a b d e freeze replays o) s = .next (s.onLive c f) := by
    refine ⟨_, ?_, rfl⟩
    dsimp only
    rw [hpos, hrun]
  have hpipes : PipesKept (s.chan c) r.1 := hrun ▸ (s.chan c).passStage_pipes _ pipe x
  have houts : NoFatal (f (s.chan c)).outQ := by
    rw [hf]
    exact hpipes.outs (noFatal_of_nil hr.2)
  have hcalm := State.runChan_calm houts
  have hothers := (State.runChan_noFatal houts).1
  rw [State.onLive_of_ready hr] at hexec
  rw [hf] at hcalm
  have hpipe : ∀ i, ((s.runChan c f).chan c).pipe i = (r.1.putPipe pipe (((s.chan c).pipe pipe).set pos r.2)).pipe i := fun i =>
    Chan.pipe_of_strn hcalm.strn i
  refine ⟨_, hexec, hP _ r hrun (fun n hn => by rw [hothers, if_neg hn]) hcalm ?_ (fun i hi => ?_) (fun hq => ?_)⟩
  · rw [hpipe, Chan.pipe_putPipe_same]
  · rw [hpipe, Chan.pipe_putPipe_ne _ _ hi, hpipes.pipe]
  · rw [State.runChan_eq s c f (by rw [hf]; exact hq), State.chan_setChan_same, hf]

/-- The verdict of the oldest packet of a pipeline. -/
theorem completes_verdict {pipe : Nat} {full : Bool} {x : InPipe} {l : List InPipe} {P : State → Prop} (hpipe : (s.chan c).pipe pipe = x :: l)
    (hnext : 12 ≤ x.next) (hfirst : (s.chan c).firstOut x = true)
    (hP : ∀ u, (u.chan c).pipe pipe = l → (∀ i, i ≠ pipe → (u.chan c).pipe i = (s.chan c).pipe i) → (∀ n, n ≠ c → u.chan n = s.chan n) →
      Delivers (((s.chan c).putPipe pipe l).verdict x pipe full) (u.chan c) → P u) : Completes (.strainerVerdict c pipe full) s P := by
  obtain ⟨y, hy⟩ : ∃ y, y = ((s.chan c).putPipe pipe l).verdict x pipe full := ⟨_, rfl⟩
  obtain ⟨f, hf, hexec⟩ : ∃ f, f (s.chan c) = y ∧ exec (.strainerVerdict c pipe full) s = .next (s.onLive c f) := by
    refine ⟨_, ?_, rfl⟩
    rw [hpipe]
    exact (if_pos ⟨hnext, hfirst⟩).trans hy.symm
  have hkept : PipesKept ((s.chan c).putPipe pipe l) y := hy ▸ PipesKept.verdict _ x pipe full
  have houts : NoFatal (f (s.chan c)).outQ := by
    rw [hf]
    exact hkept.outs (noFatal_of_nil hr.2)
  have hdel := s.runChan_delivers c f
  have hothers := (State.runChan_noFatal houts).1
  rw [State.onLive_of_ready hr] at hexec
  rw [hf] at hdel
  refine ⟨_, hexec, hP _ ?_ (fun i hi => ?_) (fun n hn => by rw [hothers, if_neg hn]) (hy ▸ hdel)⟩
  · rw [hdel.pipe, hkept.pipe, Chan.pipe_putPipe_same]
  · rw [hdel.pipe, hkept.pipe, Chan.pipe_putPipe_ne _ _ hi]

end

theorem get64_putPipe (ch : Chan) (pipe : Nat) (l : List InPipe) (p : Pg) (off : Nat) : (ch.putPipe pipe l).get64 p off = ch.get64 p off :=
  Chan.get64_congr rfl rfl

theorem get64_onCad (ch : Chan) (x : CadW) (p : Pg) (off : Nat) : Chan.get64 { ch with cad := x } p off = ch.get64 p off := Chan.get64_congr rfl rfl

/-- An egress packet that leaves as edited for its port (R331, R341). -/
theorem completes_egressVerdict {s : State} {c : Fin 4} (hr : Ready s c) {pipe : Nat} (hp : pipe < 12) (full : Bool) {x : InPipe} {l : List InPipe}
    (hpipe : (s.chan c).pipe pipe = x :: l) (hnext : 12 ≤ x.next) (hfirst : (s.chan c).firstOut x = true) (heg : x.pkt.egress = true)
    (htc : x.tcDrop = false) (hd : x.dropReason = 0) (hpunt : x.punt = none) (hm : x.mirrors = []) (hs : x.sel = []) (hcopies : x.puntCopies = [])
    (hlen : (frameOf x.edited).length ≤ x.pkt.len + 128) (hup : (s.chan c).oper x.pkt.port = true)
    (hdowns : x.pkt.downs = ((s.chan c).pw x.pkt.port).downs) :
    Completes (.strainerVerdict c pipe full) s (fun u => (u.chan c).pipe pipe = l ∧
      ((u.chan c).pw x.pkt.port).mac = ((s.chan c).pw x.pkt.port).mac ++
        [.data { x.pkt with bytes := frameOf x.edited, ptp := x.ptp } (decide (x.pkt.launch < (s.chan c).time * 1000 / 65536))] ∧
      (u.chan c).get64 (pipePg pipe) STRN.FWD_PKTS = ((s.chan c).get64 (pipePg pipe) STRN.FWD_PKTS + 1) % 2 ^ 64) := by
  refine completes_verdict hr hpipe hnext hfirst (fun u hl _ _ hdel => ?_)
  obtain ⟨k, hk⟩ : ∃ k : Pkt, k = { x.pkt with bytes := frameOf x.edited, ptp := x.ptp } := ⟨_, rfl⟩
  obtain ⟨b, hb⟩ : ∃ b, b = ((s.chan c).putPipe pipe l).inc64 (pipePg pipe) STRN.FWD_PKTS := ⟨_, rfl⟩
  have hoper : b.oper k.port = true := by
    rw [hb, Chan.oper_incStrn _ hp _ _ (by decide), hk]
    exact hup
  have hpw : b.pw k.port = (s.chan c).pw x.pkt.port := by rw [hb, hk]; rfl
  have hport : k.port = x.pkt.port := by rw [hk]
  have htime : b.time = (s.chan c).time := by rw [hb]; rfl
  have hlaunch : k.launch = x.pkt.launch := by rw [hk]
  rw [Chan.verdict_egress _ _ htc hm hs full heg hd hpunt hcopies hlen, ← hk, ← hb, Chan.macPut_up hoper (by rw [hpw, hk]; exact hdowns)] at hdel
  refine ⟨hl, ?_, ?_⟩
  · have hput : ∀ (ch : Chan) q w, (ch.putPw q w).pw q = w := fun ch q w => tget_tput_same _ _ _ _
    have hmac := congrArg PortWork.mac (hdel.field (fun y => y.pw k.port) (fun _ => rfl))
    rw [hput, hpw, hport, hlaunch, htime] at hmac
    rw [← hk]
    exact hmac
  · rw [hdel.strn64 hp (by decide) (by decide)]
    have hcount : b.get64 (pipePg pipe) STRN.FWD_PKTS = ((s.chan c).get64 (pipePg pipe) STRN.FWD_PKTS + 1) % 2 ^ 64 := by
      rw [hb, Chan.get64_inc64 _ (by rw [pipePg_key hp, pipePg_key hp]; omega), get64_putPipe]
    exact hcount

section
variable {s : State} {c : Fin 4} (hr : Ready s c) {pipe : Nat} (hp : pipe < 6) {x : InPipe} {l : List InPipe} (hpipe : (s.chan c).pipe pipe = x :: l)
  (hnext : 12 ≤ x.next) (hfirst : (s.chan c).firstOut x = true) (htc : x.tcDrop = false) (heg : x.pkt.egress = false) (hm : x.mirrors = [])
  (hs : x.sel = [])
include hr hp hpipe hnext hfirst htc heg hm hs

/-- An ingress packet dropped with its reason counted (R341). -/
theorem completes_ingressDrop (hd : x.dropReason ≠ 0) : Completes (.strainerVerdict c pipe false) s (fun u => (u.chan c).pipe pipe = l ∧
    (u.chan c).get64 (pipePg pipe) STRN.DROP_PKTS = ((s.chan c).get64 (pipePg pipe) STRN.DROP_PKTS + 1) % 2 ^ 64 ∧ (u.chan c).cad = (s.chan c).cad) := by
  refine completes_verdict hr hpipe hnext hfirst (fun u hl _ _ hdel => ?_)
  rw [Chan.verdict_drop _ _ htc hm hs false heg hd] at hdel
  obtain ⟨hcount, hcad⟩ := ((s.chan c).putPipe pipe l).verdictDrop_counts (show pipe < 12 by omega) x.dropReason x.tc
  rw [get64_putPipe] at hcount
  exact ⟨hl, (hdel.strn64 (by omega) (by decide) (by decide)).trans hcount, (hdel.field (fun y => y.cad) (fun _ => rfl)).trans hcad⟩

/-- An ingress packet with a destination goes on to buffer allocation (R341). -/
theorem completes_ingressForward (hd : x.dropReason = 0) (hpunt : x.punt = none) (hcopies : x.puntCopies = []) (hdest : x.destKind = 1)
    (hbridge : (s.chan c).bridged = true) : Completes (.strainerVerdict c pipe false) s (fun u => (u.chan c).pipe pipe = l ∧
      (u.chan c).get64 (pipePg pipe) STRN.FWD_PKTS = ((s.chan c).get64 (pipePg pipe) STRN.FWD_PKTS + 1) % 2 ^ 64 ∧
      (u.chan c).cad.reqs = (s.chan c).cad.reqs ++ [{ requester := pipe, pkt := { x.pkt with ctx := x.context } }]) := by
  refine completes_verdict hr hpipe hnext hfirst (fun u hl _ _ hdel => ?_)
  have hkey := pipePg_key (i := pipe) (by omega)
  rw [Chan.verdict_forward ((s.chan c).putPipe pipe l) pipe htc hm hs heg hd hpunt hcopies hdest hbridge] at hdel
  have hcount := Chan.get64_inc64 ((s.chan c).putPipe pipe l) (p := pipePg pipe) (off := STRN.FWD_PKTS) (by rw [hkey, hkey]; omega)
  rw [get64_putPipe] at hcount
  have hfwd := hdel.strn64 (show pipe < 12 by omega) (off := STRN.FWD_PKTS) (by decide) (by decide)
  refine ⟨hl, hfwd.trans ((get64_onCad _ _ _ _).trans hcount), ?_⟩
  rw [hdel.field (fun y => y.cad.reqs) (fun _ => rfl)]
  rfl

end

/-- Settles O42 (R188, R330–R335, R340, R341, R359): the distributor gives each usable pipeline one of the oldest packets, or drops them; a stage acts on the
packet named and on nothing else of the pipelines; the oldest packet that has passed its stages leaves as its verdict says. -/
theorem strainerPipelines : Obligations.StrainerPipelines := by
  refine ⟨⟨fun s c us x q hr hcur hus hne hq => ?_, fun s c hr hcur hnone hne => ?_⟩,
    fun s c pipe pos x hr hpos hnext => ⟨fun hgood hoff => ?_, fun hbad hdrop => ?_, fun hpoison hon hfault hkind hend => ?_⟩,
    fun s c hr => ⟨fun egress hcur => ?_, fun egress hcur => ?_, fun pipe pos a b d e freeze replays o => ⟨fun hnone => ?_, fun x hpos => ?_⟩,
      fun pipe full => ⟨fun hnone => ?_, fun x l hpipe hstay => ?_, fun x l hpipe hnext hfirst => ?_,
        fun x l _ hp hpipe hnext hfirst heg htc hd hpunt hm hs hcopies hlen hup hdowns =>
          completes_egressVerdict hr hp full hpipe hnext hfirst heg htc hd hpunt hm hs hcopies hlen hup hdowns⟩⟩,
    fun s c pipe x l hr hp hpipe hnext hfirst htc heg hm hs => ⟨fun hd => ?_, fun hd hpunt hcopies hdest hbridge => ?_⟩⟩
  · subst hus
    refine completes_spread hr hcur hne (fun u hframe hin _ hpipes hfirst => ⟨hframe, by rw [hin, hq]; rfl, ?_, ?_⟩)
    · have htake : ((s.chan c).strnQueue false).take ((s.chan c).usablePipes false).length = x :: q.take (((s.chan c).usablePipes false).length - 1) := by
        rw [show (s.chan c).strnQueue false = x :: q from hq]
        exact List.take_cons (List.length_pos_iff.2 hne)
      exact hfirst x _ htake
    · rw [show (s.chan c).strnQueue false = x :: q from hq] at hpipes
      exact hpipes
  · exact completes_strnDrop hr hcur hnone (fun u hframe _ heg hpipes hcause => ⟨hframe, heg, hpipes, hcause hne⟩)
  · refine completes_stage hr hpos (fun u r hrun _ _ hpipe _ hexact => ?_)
    rw [Chan.passStage_skips hnext hgood hoff] at hrun
    subst hrun
    exact ⟨hpipe, by rw [hexact hr.2]⟩
  · refine completes_stage hr hpos (fun u r hrun _ _ hpipe _ _ => ?_)
    rw [Chan.passStage_poisoned hnext hbad] at hrun
    subst hrun
    have hlt : pos < ((s.chan c).pipe pipe).length := (List.getElem?_eq_some_iff.1 hpos).1
    refine ⟨x.cfgDrop, by rw [hpipe, List.getElem?_set_self hlt], rfl, ?_⟩
    unfold InPipe.cfgDrop InPipe.drop
    rw [if_pos hdrop]
    rfl
  · refine completes_stage hr hpos (fun u r hrun _ _ hpipe _ _ => ?_)
    rw [Chan.passStage_ends hnext hpoison hon hfault hkind hend] at hrun
    subst hrun
    exact hpipe
  · exact completes_same hr (f := fun ch => ch.distribute egress) rfl (if_pos hcur)
  · by_cases hnone : (s.chan c).usablePipes egress = []
    · refine completes_strnDrop hr hcur hnone (fun u hframe hin heg hpipes _ => ⟨hframe, ?_, ?_, fun i _ => by rw [Chan.pipe, hpipes, Chan.pipe]⟩)
      · cases egress
        · rw [hin, if_pos hnone]
        · exact hin
      · cases egress
        · exact heg
        · rw [heg, if_pos hnone]
    · refine completes_spread hr hcur hnone (fun u hframe hin heg hpipes _ => ⟨hframe, ?_, ?_, fun i hi => (hpipes i).resolve_right (fun h => hi h.1)⟩)
      · cases egress
        · rw [hin, if_neg hnone]
        · exact hin
      · cases egress
        · exact heg
        · rw [heg, if_neg hnone]
  · refine completes_same hr (f := fun ch => _) rfl ?_
    dsimp only
    rw [hnone]
  · refine completes_stage hr hpos (fun u r hrun hothers _ hpipe hrest _ => ⟨hothers, hrun ▸ hpipe, hrest, fun hdone => ?_⟩)
    rw [Chan.passStage_done _ _ _ hdone] at hrun
    subst hrun
    rw [hpipe]
    obtain ⟨hlt, hval⟩ := List.getElem?_eq_some_iff.1 hpos
    exact hval ▸ List.set_getElem_self hlt
  · refine completes_same hr (f := fun ch => _) rfl ?_
    rw [hnone]
  · refine completes_same hr (f := fun ch => _) rfl ?_
    rw [hpipe]
    refine if_neg (fun h => ?_)
    rcases hstay with hlt | hlater
    · omega
    · exact absurd h.2 (by simp [hlater])
  · exact completes_verdict hr hpipe hnext hfirst (fun u hl hrest hothers _ => ⟨hl, hrest, hothers⟩)
  · exact completes_ingressDrop hr hp hpipe hnext hfirst htc heg hm hs hd
  · exact completes_ingressForward hr hp hpipe hnext hfirst htc heg hm hs hd hpunt hcopies hdest hbridge

end Sys2Proof.Proofs
end

/-! Writes of the page header by a requester with PF0's rights (R47, R56–R64). -/

section
set_option Elab.async false
namespace Sys2Proof.Machine

/-- PAGE_CTRL in the catalogue. -/
abbrev ctrlHit : RegHit :=
  ⟨⟨0x0C, 0, 1, 0, 1, 0, false, [⟨15, 8, .mw, []⟩, ⟨3, 3, .mw, []⟩, ⟨2, 2, .wo, []⟩, ⟨1, 1, .rw, []⟩, ⟨0, 0, .rw, []⟩], []⟩, false⟩

/-- INT_FORCE in the catalogue. -/
abbrev forceHit : RegHit := ⟨⟨0x28, 0, 1, 0, 1, 0, false, wholeF .w1s, []⟩, false⟩

/-- TALLY_CTRL in the catalogue. -/
abbrev tallyHit : RegHit :=
  ⟨⟨0x80, 0, 1, 0, 1, 0, false, [⟨23, 16, .rw, []⟩, ⟨15, 8, .rw, []⟩, ⟨2, 2, .rw, []⟩, ⟨1, 1, .wo, []⟩, ⟨0, 0, .rw, []⟩], []⟩, false⟩

theorem findReg_ctrl (k : PageKind) : findReg k oCTRL = some ctrlHit := by
  cases k <;> rfl

theorem findReg_force (k : PageKind) : findReg k oFORCE = some forceHit := by
  cases k <;> rfl

theorem findReg_tally {k : PageKind} (h : k.cap.tally = true) : findReg k oTALLY = some tallyHit := by
  revert h
  cases k <;> decide

theorem relLegal_header {off : Nat} (h : off = oCTRL ∨ off = oFORCE ∨ off = oTALLY) (k : PageKind) (v : Word) : relLegal k off v = true := by
  rcases h with rfl | rfl | rfl <;> cases k <;> rfl

theorem wordLegal_ctrl (k : PageKind) (v : Word) : wordLegal k oCTRL ctrlHit v = true := by
  rw [wordLegal, relLegal_header (.inl rfl)]
  rfl

theorem wordLegal_force (k : PageKind) (v : Word) : wordLegal k oFORCE forceHit v = true := by
  rw [wordLegal, relLegal_header (.inr (.inl rfl))]
  rfl

theorem wordLegal_tally (k : PageKind) (v : Word) : wordLegal k oTALLY tallyHit v = true := by
  rw [wordLegal, relLegal_header (.inr (.inr rfl))]
  rfl

/-- PF0 may write the registers of a channel that it reaches. -/
theorem mayUse_pf0 {s : State} {c : Fin 4} (hr : HostReady s c) (mw : Bool) : MayUse s (.func 0) c mw := by
  obtain ⟨-, hdead, -, -⟩ := hr
  exact ⟨by simp [State.reach, hdead], rfl, by simp, .inl rfl⟩

section
variable {s : State} {q : Req} {c : Fin 4} {p : Pg}

theorem State.counted_step (hr : HostReady s c) (q : Req) (p : Pg) (ev : Nat) :
    HeaderStep p c s (counted s q c p ev) ∧ Counts p (s.chan c) ((counted s q c p ev).chan c) := by
  have hfatal := State.chState_ne_fatal hr.1.1
  unfold counted
  rw [State.onPages_of_not_fatal _ _ _ hfatal]
  generalize q.attr ((s.chan c).partOf (q.func?.getD 0)) = a
  have hheader := HeaderOnly.tally p (s.chan c) ev a 1
  refine ⟨hheader.step (f := fun ch => ch.tally p ev a) (onlyIrqs_of_nil hr.1.2), ?_⟩
  rw [State.runChan_chan (hheader.onlyIrqs (onlyIrqs_of_nil hr.1.2)), if_pos rfl]
  exact ⟨(Counts.tally p (s.chan c) ev a 1).work, (Counts.tally p (s.chan c) ev a 1).regs, fun o ho => nomatch ho⟩

/-- A register of the page's header takes a write of a requester with PF0's rights: the access is counted, and the effect of the register runs. -/
theorem State.busWrite_header {k : PageKind} {off : Nat} {h : RegHit} (hr : HostReady s c) (hk : p.kind = some k) (hq : MayUse s q c true)
    (hoff : off < 0x100) (hf : findReg k off = some h) (hw : h.row.wide = false) (hh : h.high = false) (hkw : hasKw h.flds = false) (v : Word)
    (hj : wordLegal k off h v = true) :
    s.busWrite q (pageReg (addrOf c.val p 0) off) v =
      (counted s q c p 3).runChan c (headerHook k off (wordReq (counted s q c p 3) q c p off h v)) := by
  have hstep := (State.counted_step hr q p 3).1
  obtain ⟨hready, -, hperst, hup⟩ := hr
  obtain ⟨hreach, hkeep, hsmb, hpf⟩ := hq
  have hpf0 : q.isPf0 = true := hpf.resolve_right (fun e => nomatch e.1)
  have hc : s.hasChan c = true := by
    have hl := hready.1
    simp only [State.chLive, Bool.and_eq_true] at hl
    exact hl.1.1
  have hpg : s.chPages c = true := State.chPages_of_chLive hready.1
  rw [pageReg_addrOf c.val p off (by norm_num), State.busWrite_addrOf s q c v hk (by omega), State.pageWrite]
  have hhook : hookOf (s.hostReach c) (fun v => (s.isl.vecOwner v).1) p off = headerHook k off := by
    rw [hookOf, hk]
    exact if_pos hoff
  rw [hhook]
  have hrun : s.chanWrite (headerHook k off) (judged p off) q c p off v =
      (counted s q c p 3).hookRun c off (headerHook k off (wordReq (counted s q c p 3) q c p off h v)) := by
    simp [State.chanWrite, hkeep, hreach, hperst, hsmb, State.hostWrite, hc, hpg, hup, hk, hf, hkw, hpf0, State.applyWrite, hw, hh, hj, counted, wordReq]
  rw [hrun, State.hookRun]
  split
  · rfl
  · exact State.onPages_of_not_fatal _ _ _ (by rw [hstep.chState]; exact State.chState_ne_fatal hready.1)

end

end Sys2Proof.Machine
end

/-! What the end of the work under TEST_TAKEOVER leaves of PAGE_CTRL and PAGE_STAT (R61, R218, R570). -/

section
set_option Elab.async false
namespace Sys2Proof.Machine

theorem pgLine_inj {i j : Nat} (hi : i < 16) (hj : j < 16) {off o : Nat} (ho : off < 65536) (ho' : o < 65536) (h : (pgLine i).key off = (pgLine j).key o) :
    i = j ∧ off = o := by
  rw [pgLine_key hi, pgLine_key hj] at h
  omega

theorem ctrlKey_ctrl {i : Nat} (h : i < 16) : CtrlKey ((pgLine i).key oCTRL) := by
  rw [pgLine_key h]
  simp only [CtrlKey, oCTRL]
  omega

theorem ctrlKey_stat {i : Nat} (hlo : 8 ≤ i) (h : i < 16) : CtrlKey ((pgLine i).key oSTAT) := by
  rw [pgLine_key h]
  simp only [CtrlKey, oCTRL, oSTAT]
  omega

/-- The pages in soft reset, PAGE_CTRL of every page that a port may name as its LINE page, and STAT.QUIESCED of those that are none have
stayed. -/
structure ControlsKept (a b : Chan) : Prop where
  reset : b.inReset = a.inReset
  ctrl : ∀ i < 16, b.get (pgLine i) oCTRL = a.get (pgLine i) oCTRL
  quiesced : ∀ i < 16, 8 ≤ i → b.getF (pgLine i) STAT_QUIESCED = a.getF (pgLine i) STAT_QUIESCED

namespace ControlsKept

variable {a b d : Chan}

theorem refl (a : Chan) : ControlsKept a a := ⟨rfl, fun _ _ => rfl, fun _ _ _ => rfl⟩

theorem trans (h : ControlsKept a b) (g : ControlsKept b d) : ControlsKept a d where
  reset := g.reset.trans h.reset
  ctrl i hi := (g.ctrl i hi).trans (h.ctrl i hi)
  quiesced i hi hlo := (g.quiesced i hi hlo).trans (h.quiesced i hi hlo)

theorem ite {q : Prop} [Decidable q] {x y : Chan} (hx : q → ControlsKept a x) (hy : ¬ q → ControlsKept a y) : ControlsKept a (if q then x else y) := by
  split
  · exact hx ‹_›
  · exact hy ‹_›

theorem each {α : Type} {f : Chan → α → Chan} (l : List α) (h : ∀ ch, ∀ x ∈ l, ControlsKept ch (f ch x)) (ch : Chan) : ControlsKept ch (ch.each l f) :=
  List.foldlRecOn (motive := fun d => ControlsKept ch d) l f (refl ch) (fun d hd x hx => hd.trans (h d x hx))

theorem of_shows (h : Shows CtrlKey a b) : ControlsKept a b where
  reset := by
    have hwork := congrArg (fun x : Chan => x.inReset) h.work
    exact hwork
  ctrl i hi := h.get (ctrlKey_ctrl hi)
  quiesced i hi hlo := by rw [Chan.getF, Chan.getF, h.get (ctrlKey_stat hlo hi)]

theorem of_aside (h : FlexAside CtrlKey a b) : ControlsKept a b := of_shows h.shows

theorem flexKey (key : Nat) (h : CtrlKey key) : FlexKey key := .inr h

theorem testActive (ch : Chan) {i : Nat} (hi : i < 16) (on : Bool) : ControlsKept ch (ch.putB (pgLine i) STAT_TEST_ACTIVE on) where
  reset := rfl
  ctrl j hj := ch.get_put_ne _ (fun e => absurd (pgLine_inj hj hi (by norm_num) (by norm_num) e).2 (by norm_num))
  quiesced j hj _ := by
    by_cases hij : j = i
    · subst hij
      exact Chan.getF_putF_word ch _ _ rfl (by norm_num) (by norm_num) (.inr (by norm_num))
    · exact ch.getF_putF_ne _ (fun e => hij (pgLine_inj hj hi (by norm_num) (by norm_num) e).1)

theorem testStat (ch : Chan) {q : Nat} (hq : q < 32) : ControlsKept ch (ch.testStat q) := by
  unfold Chan.testStat
  exact each (f := fun c i => c.putB (pgLine i) STAT_TEST_ACTIVE _) _ (fun c i hi => testActive c (ch.instsOf_lt hq i hi) _) ch

theorem journal (ch : Chan) (p : Pg) (cls ev detail : Nat) : ControlsKept ch (ch.journal p cls ev detail) :=
  of_aside (FlexAside.journal flexKey ch p cls ev detail)

theorem grpSettle (ch : Chan) {g : Nat} (hg : g < 8) : ControlsKept ch (ch.grpSettle g) := by
  have hflex : ∀ off, 0x100 ≤ off → off < 65536 → ¬ CtrlKey (pgFlex.key off) := fun off hlo hhi hk => by
    rw [pgFlex_key] at hk
    simp only [CtrlKey, oCTRL, oSTAT] at hk
    omega
  exact of_shows (Shows.grpSettle flexKey (hflex _ (by simp only [FLEX.GRP_STAT]; omega) (by simp only [FLEX.GRP_STAT]; omega)) ch
    (fun n hn => hflex _ (by simp only [FLEX.CLIENT_STAT]; omega) (by simp only [FLEX.CLIENT_STAT]; omega)))

theorem portChanged (ch : Chan) {q : Nat} (hq : q < 32) (cause : Nat) : ControlsKept ch (ch.portChanged q cause) :=
  (of_aside (FlexAside.portSettle flexKey ch (by omega) cause)).trans
    (each (f := Chan.grpSettle) _ (fun c _ hg => grpSettle c (mem_allBelow_lt hg)) _)

theorem opEnd (ch : Chan) {q : Nat} (hq : q < 32) (stopped : Bool) : ControlsKept ch (ch.opEnd q stopped) := by
  have hwork : ∀ w, ControlsKept ch (ch.putPw q w) := fun w => of_aside (FlexAside.putPw ch q w)
  unfold Chan.opEnd
  dsimp only
  exact (ite (fun _ => ((hwork _).trans (testStat _ hq)).trans (journal _ _ _ _ _)) (fun _ => hwork _)).trans (portChanged _ hq 5)

theorem testEnd (ch : Chan) (k st : Nat) : ControlsKept ch (ch.testEnd k st) := of_aside (FlexAside.testEnd flexKey ch k st)

/-- A test of a line lane stops. -/
theorem testStop (ch : Chan) {k : Nat} (hk : keyKind k = 0) (st : Nat) : ControlsKept ch (ch.testStop k st) := by
  unfold Chan.testStop
  dsimp only
  rw [if_pos hk]
  refine ite (fun _ => refl ch) (fun _ => ?_)
  split
  · next q hown =>
    have hq := ((Chan.isLanePort_iff _ _).1 (Chan.laneOwner_lane hown)).1
    exact ite (fun _ => (testEnd ch k st).trans (opEnd _ hq _)) (fun _ => testEnd ch k st)
  · exact testEnd ch k st

/-- What runs under TEST_TAKEOVER of a page other than FAB ends. -/
theorem takeoverCleared (ch : Chan) {p : Pg} (hp : p ≠ pgFab) : ControlsKept ch (ch.takeoverCleared p) := by
  unfold Chan.takeoverCleared
  dsimp only
  refine (each (f := fun c k => c.testStop k 4) _ (fun c k hk => ?_) ch).trans
    (each (f := fun c q => c.opEnd q true) _ (fun c q hq => opEnd c (mem_allBelow_lt hq) true) _)
  have hmine := (List.mem_filter.1 hk).2
  split at hmine
  · exact testStop c ‹_› 4
  · simp [hp] at hmine

end ControlsKept

/-- A page that no port names has no work under TEST_TAKEOVER, but for FAB. -/
theorem Chan.takeoverCleared_none (ch : Chan) {p : Pg} (hp : p ≠ pgFab) (hline : ∀ i < 16, p ≠ pgLine i) : ch.takeoverCleared p = ch := by
  have hnone : ∀ q < 32, (ch.instsOf q).any (fun i => pgLine i == p) = false := fun q hq =>
    List.any_eq_false.2 (fun i hi => by simpa using fun e => hline i (ch.instsOf_lt hq i hi) e.symm)
  have hrecal : allBelow 32 (fun q => (ch.pw q).op == 1 && (ch.instsOf q).any (fun i => pgLine i == p)) = [] :=
    List.eq_nil_iff_forall_not_mem.2 (fun q hq => by
      obtain ⟨hlt, hany⟩ := mem_allBelow.1 hq
      simp [hnone q hlt] at hany)
  have htests : ch.running.filter (fun k => if keyKind k = 0 then
      (match ch.laneOwner (keyIndex k) with
        | some q => (ch.pw q).op == 4 && (ch.instsOf q).any (fun i => pgLine i == p)
        | none => false)
      else keyKind k == 1 && p == pgFab && (ch.test k).live) = [] :=
    List.filter_eq_nil_iff.2 (fun k _ => by
      split
      · split
        · next q hown => simp [hnone q ((Chan.isLanePort_iff _ _).1 (Chan.laneOwner_lane hown)).1]
        · exact Bool.false_ne_true
      · simp [hp])
  rw [Chan.takeoverCleared, hrecal]
  exact congrArg (fun l => (ch.each l (fun c k => c.testStop k 4)).each [] (fun c q => c.opEnd q true)) htests

end Sys2Proof.Machine
end

/-! What a write of PAGE_CTRL does (R56–R61). -/

section
set_option Elab.async false
namespace Sys2Proof.Machine

theorem PageKind.cap_quiesce (k : PageKind) : k.cap.quiesce = false := by
  cases k <;> rfl

theorem PageKind.cap_ownable (k : PageKind) : k.cap.ownable = false := by
  cases k <;> rfl

/-- TEST_TAKEOVER and ENABLE are all that PAGE_CTRL of a page can hold. -/
theorem ctrlWord_eq (k : PageKind) (v : Word) : ctrlWord k v = BitVec.ofNat 32 (b2n (k.cap.takeover && bit v 3) * 8 + b2n (bit v 0)) := by
  rw [ctrlWord, k.cap_ownable, k.cap_quiesce]
  simp [b2n]

theorem bit_ctrlWord (k : PageKind) (v : Word) :
    bit (ctrlWord k v) 0 = bit v 0 ∧ bit (ctrlWord k v) 1 = false ∧ bit (ctrlWord k v) 3 = (k.cap.takeover && bit v 3) := by
  rw [ctrlWord_eq]
  generalize bit v 0 = e
  generalize (k.cap.takeover && bit v 3) = f
  cases e <;> cases f <;> decide

theorem Chan.getB_bit (ch : Chan) (p : Pg) (off i : Nat) : ch.getB p ⟨off, i, i⟩ = bit (ch.get p off) i := by
  rw [Chan.getB, Chan.getF, bit_eq_fld]
  have hlt : fld (ch.get p off) i i < 2 ^ (i + 1 - i) := Nat.mod_lt _ (Nat.two_pow_pos _)
  rw [Nat.add_sub_cancel_left] at hlt
  interval_cases fld (ch.get p off) i i <;> rfl

theorem bit_setFld_ne (w : Word) {b i x : Nat} (hi : i < 32) (h : i ≠ b) : bit (setFld w b b x) i = bit w i :=
  bit_congr (fld_setFld_ne _ _ _ _ _ _ le_rfl hi (by omega))

theorem bit_setFld_b2n (w : Word) {b : Nat} (hb : b < 32) (on : Bool) : bit (setFld w b b (b2n on)) b = on := by
  rw [bit_eq_fld, fld_setFld_same _ _ _ _ le_rfl hb, Nat.add_sub_cancel_left]
  cases on <;> rfl

/-- The registers of a page's header are its own. -/
theorem Pg.header_ne (p : Pg) {off o : Nat} (ho : off < 0x100) (ho' : o < 0x100) (h : off ≠ o) : p.key off ≠ p.key o := by
  rw [p.key_header ho.le, p.key_header ho'.le]
  omega

/-- The channel with PAGE_CTRL written. -/
def Chan.ctrlPut (ch : Chan) (k : PageKind) (p : Pg) (v : Word) : Chan := (ch.put p oCTRL (ctrlWord k v)).putF p STAT_QUIESCED 0

/-- The channel with ENABLE taken up, where a write changes it. -/
def Chan.ctrlOn (ch : Chan) (k : PageKind) (p : Pg) (old v : Word) : Chan :=
  if bit v 0 != bit old 0 then (ch.blockEnabled k p (bit v 0)).putB p CTRL_ENABLE (bit v 0) else ch

/-- The channel with the work under TEST_TAKEOVER ended, where a write clears it. -/
def Chan.ctrlReturn (ch : Chan) (k : PageKind) (p : Pg) (old v : Word) : Chan :=
  if bit old 3 && !(k.cap.takeover && bit v 3) then ch.takeoverCleared p else ch

/-- What a write of PAGE_CTRL that is not refused leaves before a soft reset. -/
def Chan.ctrlSet (ch : Chan) (k : PageKind) (p : Pg) (old v : Word) : Chan := ((ch.ctrlPut k p v).ctrlOn k p old v).ctrlReturn k p old v

/-- What a write of PAGE_CTRL that is not refused does. -/
def Chan.ctrlDone (ch : Chan) (k : PageKind) (p : Pg) (old v : Word) : Chan :=
  if bit v 2 then (ch.ctrlSet k p old v).softReset k p else ch.ctrlSet k p old v

theorem ctrlHook_eq {k : PageKind} {w : WReq} {ch : Chan} (h : ch.ctrlRefused k w.p w.v = false) : ctrlHook k w ch = ch.ctrlDone k w.p w.old w.v := by
  obtain ⟨-, hquiesce, htake⟩ := bit_ctrlWord k w.v
  rw [ctrlHook, if_neg (by rw [h]; exact Bool.false_ne_true), hquiesce, htake]
  rfl

section
variable (ch : Chan) {k : PageKind} {p : Pg} (v : Word)

theorem Chan.ctrlPut_ctrl : (ch.ctrlPut k p v).get p oCTRL = ctrlWord k v := by
  have hne : p.key oCTRL ≠ p.key STAT_QUIESCED.off := p.header_ne (by norm_num) (by norm_num) (by norm_num)
  rw [Chan.ctrlPut, Chan.putF, Chan.get_put_ne _ _ hne, Chan.get_put_same]

theorem Chan.ctrlPut_quiesced : (ch.ctrlPut k p v).getB p STAT_QUIESCED = false := by
  rw [Chan.ctrlPut, Chan.getB, Chan.getF_putF_same _ _ _ _ (by norm_num) (by norm_num)]
  rfl

theorem Chan.ctrlPut_reset : (ch.ctrlPut k p v).inReset = ch.inReset := rfl

end

section
variable {ch : Chan} {k : PageKind} {p : Pg} {old v : Word}

theorem Chan.ctrlOn_same (h : bit v 0 = bit old 0) : ch.ctrlOn k p old v = ch := by
  rw [Chan.ctrlOn, h, bne_self_eq_false]
  rfl

/-- ENABLE reads what was written. -/
theorem Chan.ctrlOn_enable (h : bit (ch.get p oCTRL) 0 = bit v 0) : bit ((ch.ctrlOn k p old v).get p oCTRL) 0 = bit v 0 := by
  unfold Chan.ctrlOn
  split
  · rw [← Chan.getB_bit, Chan.getB_putB_same _ _ _ _ (by norm_num) (by norm_num)]
  · exact h

end

/-- A page of the catalogue that is no other one is the one asked for. -/
theorem ite_kind_iff {q : Prop} [Decidable q] {a b : PageKind} {x : Option PageKind} (h : a ≠ b) :
    (if q then some a else x) = some b ↔ ¬ q ∧ x = some b := by
  by_cases hq : q <;> simp [hq, h]

/-- The pages of the line ports, among those of the FE die. -/
theorem kind_line {p : Pg} (h : p.kind = some .line) : ∃ i < 8, p = pgLine i := by
  obtain ⟨die, num⟩ := p
  have hplace : die = 0 ∧ 0x30 ≤ num ∧ num < 0x38 := by
    dsimp only [Pg.kind] at h
    by_cases hdie : die = 0
    · rw [if_pos hdie] at h
      iterate 10 obtain ⟨-, h⟩ := (ite_kind_iff (by decide)).1 h
      by_contra hn
      rw [if_neg (fun e => hn ⟨hdie, e⟩)] at h
      iterate 11 obtain ⟨-, h⟩ := (ite_kind_iff (by decide)).1 h
      exact nomatch h
    · rw [if_neg hdie] at h
      by_cases hone : die = 1
      · rw [if_pos hone] at h
        iterate 13 obtain ⟨-, h⟩ := (ite_kind_iff (by decide)).1 h
        exact nomatch h
      · rw [if_neg hone] at h
        exact nomatch h
  exact ⟨num - 0x30, by omega, by rw [Pg.mk.injEq]; omega⟩

/-- The page of the fabric interface, among those of the TM die. -/
theorem kind_fab {p : Pg} (h : p.kind = some .fab) : p = pgFab := by
  obtain ⟨die, num⟩ := p
  have hplace : die = 1 ∧ num = 0x10 := by
    dsimp only [Pg.kind] at h
    by_cases hdie : die = 0
    · rw [if_pos hdie] at h
      iterate 22 obtain ⟨-, h⟩ := (ite_kind_iff (by decide)).1 h
      exact nomatch h
    · rw [if_neg hdie] at h
      by_cases hone : die = 1
      · rw [if_pos hone] at h
        iterate 7 obtain ⟨-, h⟩ := (ite_kind_iff (by decide)).1 h
        by_contra hn
        rw [if_neg (fun e => hn ⟨hone, e⟩)] at h
        iterate 5 obtain ⟨-, h⟩ := (ite_kind_iff (by decide)).1 h
        exact nomatch h
      · rw [if_neg hone] at h
        exact nomatch h
  rw [Pg.mk.injEq]
  exact hplace

end Sys2Proof.Machine
end

/-! The steps of a write of PAGE_CTRL: the end of the work under TEST_TAKEOVER, ENABLE, and the registers of a soft reset (R58–R61). -/

section
set_option Elab.async false
namespace Sys2Proof.Machine

/-- A cause writes no register but those that count and show causes. -/
theorem Chan.rget_raiseMask (ch : Chan) (p : Pg) (m : Nat) {key : Nat} (h : ∀ off, CountReg off → key ≠ p.key off) :
    rget chanReset (ch.raiseMask p m).regs key = rget chanReset ch.regs key := by
  have hnote : ∀ x, (ch.noteCauses p x).regs = ch.regs := fun x => by
    unfold Chan.noteCauses Chan.when
    split <;> split <;> rfl
  have hcounts : ∀ (c : Chan) (n : Nat), Counts p c ((if ((c.orCause p m).tallyAdd p 8 {} n).2 then ((c.orCause p m).tallyAdd p 8 {} n).1.orCause p 0x10
      else ((c.orCause p m).tallyAdd p 8 {} n).1).edge p (ch.line p)) := fun c n => by
    have hsum := (Counts.orCause p c m).trans (Counts.tallyAdd p (c.orCause p m) 8 {} n)
    refine Counts.trans ?_ (Counts.edge p _ _)
    split
    · exact hsum.trans (Counts.orCause p _ _)
    · exact hsum
  exact ((hcounts _ _).regs key h).trans (by rw [hnote])

/-- PAGE_CTRL neither counts nor shows causes. -/
theorem ctrl_not_count (p q : Pg) (off : Nat) (h : CountReg off) : p.key oCTRL ≠ q.key off := by
  simp only [CountReg, oCAUSE, oFIRST, oOVF] at h
  rw [p.key_header (by norm_num), q.key_header (by omega), Pg.key, Pg.key]
  norm_num
  omega

theorem Chan.setDegraded_ctrl (ch : Chan) (p : Pg) (on : Bool) : (ch.setDegraded p on).get p oCTRL = ch.get p oCTRL := by
  have hput : (ch.putB p STAT_DEGRADED on).get p oCTRL = ch.get p oCTRL := ch.get_put_ne _ (p.header_ne (by norm_num) (by norm_num) (by norm_num))
  unfold Chan.setDegraded
  dsimp only
  split
  · exact ((ch.putB p STAT_DEGRADED on).rget_raiseMask p _ (ctrl_not_count p p)).trans hput
  · exact hput

/-! FAB and its lanes under test (R483, R570). -/

theorem blockReg_ctrl {p : Pg} (hj : p.key 0 / 65536 ≠ pgJrnl.key 0 / 65536) : BlockReg (p.key oCTRL) := by
  refine ⟨by rwa [p.key_div (by norm_num)], fun h => ?_⟩
  rw [p.key_header (by norm_num), Pg.key] at h
  norm_num [CountReg] at h
  omega

theorem blockReg_stat {p : Pg} (hj : p.key 0 / 65536 ≠ pgJrnl.key 0 / 65536) : BlockReg (p.key oSTAT) := by
  refine ⟨by rwa [p.key_div (by norm_num)], fun h => ?_⟩
  rw [p.key_header (by norm_num), Pg.key] at h
  norm_num [CountReg] at h
  omega

theorem blockReg_fab : BlockReg (pgFab.key oCTRL) := blockReg_ctrl (by decide)

theorem Chan.voqReqAll_fab (ch : Chan) : ch.voqReqAll.get pgFab oCTRL = ch.get pgFab oCTRL := by
  have hkept : TmOnly 0 ch ch.voqReqAll := Spares.each (f := fun c q => c.voqReq q) (fun c q => TmOnly.voqReq c q) _ ch
  refine hkept.get ?_
  simp only [TmKey, InHeader, Pg.key]
  norm_num

theorem Chan.lostChan_fab (ch : Chan) (d : Nat) : (ch.lostChan d).get pgFab oCTRL = ch.get pgFab oCTRL := by
  have hraise : ∀ c : Chan, ((c.raise pgFab 11).journal pgFab clsDegraded 6 d).get pgFab oCTRL = c.get pgFab oCTRL := fun c =>
    ((Delivers.raise c pgFab 11 rfl rfl).trans (Delivers.journal _ _ _ _ _)).get blockReg_fab
  exact (hraise _).trans (Chan.voqReqAll_fab _)

theorem Chan.each_get {α : Type} {f : Chan → α → Chan} {p : Pg} {off : Nat} (l : List α) (h : ∀ c, ∀ x ∈ l, (f c x).get p off = c.get p off) (ch : Chan) :
    (ch.each l f).get p off = ch.get p off :=
  List.foldlRecOn (motive := fun d : Chan => d.get p off = ch.get p off) l f rfl (fun d hd x hx => (h d x hx).trans hd)

theorem Chan.fabSettle_fab (ch : Chan) : ch.fabSettle.get pgFab oCTRL = ch.get pgFab oCTRL := by
  have hlost : ∀ (c : Chan) (l : List Nat), (c.each l (fun c d => c.lostChan d)).get pgFab oCTRL = c.get pgFab oCTRL := fun c l =>
    Chan.each_get (f := fun c d => c.lostChan d) l (fun c d _ => c.lostChan_fab d) c
  have hjournal : ∀ (c : Chan) (l : List Nat), (c.each l (fun c d => c.journal pgFab clsNone 7 d)).get pgFab oCTRL = c.get pgFab oCTRL := fun c l =>
    Chan.each_get (f := fun c d => c.journal pgFab clsNone 7 d) l (fun c d _ => (Delivers.journal c _ _ _ _).get blockReg_fab) c
  exact (Chan.setDegraded_ctrl _ _ _).trans ((hjournal _ _).trans (hlost _ _))

/-- The end of a test of a fabric lane. -/
theorem Chan.testStop_fab (ch : Chan) {k : Nat} (hk : keyKind k = 1) (st : Nat) : (ch.testStop k st).get pgFab oCTRL = ch.get pgFab oCTRL := by
  have hend : (ch.testEnd k st).get pgFab oCTRL = ch.get pgFab oCTRL := (Delivers.testEnd ch k st).get blockReg_fab
  have hput : ∀ (c : Chan) (f : Fld) (v : Nat), f.off ≠ oCTRL → (c.putF pgFab f v).get pgFab oCTRL = c.get pgFab oCTRL := fun c f v hne =>
    c.get_put_ne _ (fun e => hne (by simpa [Pg.key] using e.symm))
  unfold Chan.testStop
  dsimp only
  have hlane : ¬ keyKind k = 0 := by omega
  rw [if_neg hlane, if_pos hk]
  split
  · rfl
  have hstat : ∀ c : Chan, c.fabTestStat.get pgFab oCTRL = c.get pgFab oCTRL := fun c => hput c STAT_TEST_ACTIVE _ (by norm_num)
  refine (hstat _).trans ?_
  split
  · exact (Chan.fabSettle_fab _).trans ((hput _ (FAB.LANE_STAT_STATE (keyIndex k)) _ (by simp only [oCTRL]; omega)).trans hend)
  · exact hend

theorem Chan.takeoverCleared_fab (ch : Chan) : (ch.takeoverCleared pgFab).get pgFab oCTRL = ch.get pgFab oCTRL := by
  have hnone : ∀ l : List Nat, l.any (fun i => pgLine i == pgFab) = false := fun l => List.any_eq_false.2 (fun i _ => by simp)
  have hrecal : allBelow 32 (fun q => (ch.pw q).op == 1 && (ch.instsOf q).any (fun i => pgLine i == pgFab)) = [] :=
    List.eq_nil_iff_forall_not_mem.2 (fun q hq => by
      have hany := (mem_allBelow.1 hq).2
      rw [hnone, Bool.and_false] at hany
      exact nomatch hany)
  rw [Chan.takeoverCleared, hrecal]
  refine Chan.each_get (f := fun c k => c.testStop k 4) _ (fun c k hk => ?_) ch
  have hmine := (List.mem_filter.1 hk).2
  split at hmine
  · split at hmine
    · rw [hnone, Bool.and_false] at hmine
      exact nomatch hmine
    · exact nomatch hmine
  · exact c.testStop_fab (by simpa using (Bool.and_eq_true_iff.1 (Bool.and_eq_true_iff.1 hmine).1).1) 4

/-! Any page of the catalogue. -/

section
variable {k : PageKind} {p : Pg} (hk : p.kind = some k)
include hk

/-- A page without TEST_TAKEOVER keeps its controls. -/
theorem Chan.takeoverCleared_untaken (ch : Chan) (ht : k.cap.takeover = false) : (ch.takeoverCleared p).inReset = ch.inReset ∧
    (ch.takeoverCleared p).get p oCTRL = ch.get p oCTRL ∧ (ch.takeoverCleared p).getF p STAT_QUIESCED = ch.getF p STAT_QUIESCED := by
  have hfab : p ≠ pgFab := by
    rintro rfl
    cases hk
    exact nomatch ht
  by_cases hline : ∃ i < 16, p = pgLine i
  · obtain ⟨i, hi, rfl⟩ := hline
    have hlo : 8 ≤ i := by
      by_contra hn
      cases (pgLine_kind (by omega : i < 8)).symm.trans hk
      exact nomatch ht
    have hkept := ControlsKept.takeoverCleared ch hfab
    exact ⟨hkept.reset, hkept.ctrl i hi, hkept.quiesced i hi hlo⟩
  · rw [Chan.takeoverCleared_none ch hfab (fun i hi e => hline ⟨i, hi, e⟩)]
    exact ⟨rfl, rfl, rfl⟩

theorem Chan.takeoverCleared_ctrl (ch : Chan) : (ch.takeoverCleared p).get p oCTRL = ch.get p oCTRL := by
  cases ht : k.cap.takeover with
  | false => exact (ch.takeoverCleared_untaken hk ht).2.1
  | true =>
    have hkind : k = .line ∨ k = .fab := by
      revert ht
      cases k <;> decide
    obtain rfl | rfl := hkind
    · obtain ⟨i, hi, rfl⟩ := kind_line hk
      exact (ControlsKept.takeoverCleared ch (by simp)).ctrl i (by omega)
    · obtain rfl := kind_fab hk
      exact ch.takeoverCleared_fab

/-- A write that leaves TEST_TAKEOVER as it is leaves the other controls of the page. -/
theorem Chan.ctrlReturn_same (ch : Chan) {old v : Word} (h : bit v 3 = bit old 3) : (ch.ctrlReturn k p old v).inReset = ch.inReset ∧
    (ch.ctrlReturn k p old v).get p oCTRL = ch.get p oCTRL ∧ (ch.ctrlReturn k p old v).getF p STAT_QUIESCED = ch.getF p STAT_QUIESCED := by
  unfold Chan.ctrlReturn
  split
  · next hcleared =>
    refine ch.takeoverCleared_untaken hk ?_
    rw [h] at hcleared
    revert hcleared
    cases bit old 3 <;> simp
  · exact ⟨rfl, rfl, rfl⟩

theorem Chan.ctrlReturn_ctrl (ch : Chan) (old v : Word) : (ch.ctrlReturn k p old v).get p oCTRL = ch.get p oCTRL := by
  unfold Chan.ctrlReturn
  split
  · exact ch.takeoverCleared_ctrl hk
  · rfl

section
variable {ch : Chan} {old v : Word}

theorem Chan.ctrlSet_reset (h0 : bit v 0 = bit old 0) (h3 : bit v 3 = bit old 3) : (ch.ctrlSet k p old v).inReset = ch.inReset := by
  rw [Chan.ctrlSet, Chan.ctrlOn_same h0, (Chan.ctrlReturn_same hk _ h3).1]
  rfl

theorem Chan.ctrlSet_enable : bit ((ch.ctrlSet k p old v).get p oCTRL) 0 = bit v 0 := by
  rw [Chan.ctrlSet, Chan.ctrlReturn_ctrl hk]
  exact Chan.ctrlOn_enable (by rw [Chan.ctrlPut_ctrl]; exact (bit_ctrlWord k v).1)

theorem Chan.ctrlSet_ctrl (h0 : bit v 0 = bit old 0) : (ch.ctrlSet k p old v).get p oCTRL = ctrlWord k v := by
  rw [Chan.ctrlSet, Chan.ctrlReturn_ctrl hk, Chan.ctrlOn_same h0, Chan.ctrlPut_ctrl]

theorem Chan.ctrlSet_quiesced (h0 : bit v 0 = bit old 0) (h3 : bit v 3 = bit old 3) : (ch.ctrlSet k p old v).getB p STAT_QUIESCED = false := by
  rw [Chan.ctrlSet, Chan.ctrlOn_same h0, Chan.getB_congr (Chan.ctrlReturn_same hk _ h3).2.2, Chan.ctrlPut_quiesced]

end

end

/-! Soft resets (R58). -/

section
variable (ch : Chan) (k : PageKind) (p : Pg)

theorem Chan.stat_ready : (((ch.putF p STAT_BUSY 1).putF p STAT_READY 0).getB p STAT_BUSY = true ∧
    ((ch.putF p STAT_BUSY 1).putF p STAT_READY 0).getB p STAT_READY = false) ∧
    ((ch.putF p STAT_BUSY 0).putF p STAT_READY 1).getB p STAT_BUSY = false ∧ ((ch.putF p STAT_BUSY 0).putF p STAT_READY 1).getB p STAT_READY = true := by
  have hready : ∀ (d : Chan) (y : Nat), (d.putF p STAT_READY y).getF p STAT_READY = y % 2 := fun d y =>
    d.getF_putF_same p STAT_READY y (by norm_num) (by norm_num)
  have hbusy : ∀ x y, ((ch.putF p STAT_BUSY x).putF p STAT_READY y).getF p STAT_BUSY = x % 2 := fun x y =>
    (Chan.getF_putF_word (f := STAT_READY) (g := STAT_BUSY) _ p y rfl (by norm_num) (by norm_num) (.inl (by norm_num))).trans
      (ch.getF_putF_same p STAT_BUSY x (by norm_num) (by norm_num))
  simp only [Chan.getB, hbusy, hready]
  decide

theorem Chan.softReset_stat (h : ch.inReset.contains (p.key 0) = false) :
    (ch.softReset k p).getB p STAT_BUSY = true ∧ (ch.softReset k p).getB p STAT_READY = false := by
  rw [Chan.softReset, if_neg (by rw [h]; exact Bool.false_ne_true)]
  exact (Chan.stat_ready _ p).1

theorem Chan.softResetDone_stat (h : ch.inReset.contains (p.key 0) = true) :
    (ch.softResetDone k p).getB p STAT_BUSY = false ∧ (ch.softResetDone k p).getB p STAT_READY = true := by
  rw [Chan.softResetDone, if_pos h]
  exact (Chan.stat_ready _ p).2

/-- A soft reset keeps ENABLE and clears the other controls of the page. -/
theorem Chan.softResetRegs_ctrl : bit ((ch.softResetRegs p).get p oCTRL) 0 = bit (ch.get p oCTRL) 0 ∧
    bit ((ch.softResetRegs p).get p oCTRL) 1 = false ∧ bit ((ch.softResetRegs p).get p oCTRL) 3 = false := by
  have hkept : (ch.softResetRegs p).get p oCTRL = setFld (setFld (ch.get p oCTRL) 1 1 0) 3 3 0 := by
    have hclear : ∀ (c : Chan) (m : Nat), (c.clearCause p m).get p oCTRL = c.get p oCTRL := fun c m => by
      have hput : ∀ (d : Chan) (off : Nat) (v : Word), off = oCAUSE ∨ off = oFIRST → (d.put p off v).get p oCTRL = d.get p oCTRL := fun d off v ho =>
        d.get_put_ne _ (p.header_ne (by norm_num) (by rcases ho with rfl | rfl <;> norm_num) (by rcases ho with rfl | rfl <;> norm_num))
      unfold Chan.clearCause
      dsimp only
      split
      · exact (hput _ _ _ (.inr rfl)).trans (hput _ _ _ (.inl rfl))
      · exact hput _ _ _ (.inl rfl)
    have hregs : Chan.get { ch with regs := tclear ch.regs (p.key 0x100) (p.key 0xFFFC + 4) } p oCTRL = ch.get p oCTRL := by
      have hlow : p.key oCTRL < p.key 0x100 := by
        rw [p.key_header (by norm_num), p.key_header le_rfl]
        norm_num
      rw [Chan.get, rget_tclear, if_neg (fun h => absurd h.1 (by omega))]
      rfl
    have hquiesced : ∀ d : Chan, (d.putF p STAT_QUIESCED 0).get p oCTRL = d.get p oCTRL := fun d =>
      d.get_put_ne _ (p.header_ne (by norm_num) (by norm_num) (by norm_num))
    rw [Chan.softResetRegs, hclear, hquiesced, Chan.putF, Chan.get_put_same, Chan.putF, Chan.get_put_same, hregs]
  rw [hkept]
  refine ⟨?_, ?_, ?_⟩
  · rw [bit_setFld_ne _ (by norm_num) (by norm_num), bit_setFld_ne _ (by norm_num) (by norm_num)]
  · rw [bit_setFld_ne _ (by norm_num) (by norm_num)]
    exact bit_setFld_b2n (ch.get p oCTRL) (b := 1) (by norm_num) false
  · exact bit_setFld_b2n (setFld (ch.get p oCTRL) 1 1 0) (b := 3) (by norm_num) false

theorem Chan.softResetRegs_cause : (ch.softResetRegs p).nat p oCAUSE = 0 := by
  have hclear : ∀ c : Chan, (c.clearCause p (2 ^ 32 - 1)).nat p oCAUSE = 0 := fun c => by
    have hland : Nat.land (c.nat p oCAUSE) (2 ^ 32 - 1 - Nat.land (2 ^ 32 - 1) (2 ^ 32 - 1)) = 0 := by
      rw [show 2 ^ 32 - 1 - Nat.land (2 ^ 32 - 1) (2 ^ 32 - 1) = 0 by decide]
      exact Nat.and_zero _
    rw [Chan.clearCause, hland, if_pos rfl, Chan.nat, Chan.putN, Chan.get_put_ne _ _ (p.header_ne (by norm_num) (by norm_num) (by norm_num)), Chan.putN, Chan.get_put_same]
    rfl
  exact hclear _

theorem Chan.softResetRegs_reset : (ch.softResetRegs p).inReset = ch.inReset := by
  unfold Chan.softResetRegs Chan.clearCause
  dsimp only
  split <;> rfl

theorem Chan.softResetRegs_quiesced : (ch.softResetRegs p).getF p STAT_QUIESCED = 0 := by
  have hclear : ∀ (c : Chan) (m : Nat), (c.clearCause p m).getF p STAT_QUIESCED = c.getF p STAT_QUIESCED := fun c m => by
    have hput : ∀ (d : Chan) (off : Nat) (v : Word), off = oCAUSE ∨ off = oFIRST → (d.put p off v).get p oSTAT = d.get p oSTAT := fun d off v ho =>
      d.get_put_ne _ (p.header_ne (by norm_num) (by rcases ho with rfl | rfl <;> norm_num) (by rcases ho with rfl | rfl <;> norm_num))
    rw [Chan.getF, Chan.getF]
    refine congrArg (fun w => fld w 1 1) ?_
    unfold Chan.clearCause
    dsimp only
    split
    · exact (hput _ _ _ (.inr rfl)).trans (hput _ _ _ (.inl rfl))
    · exact hput _ _ _ (.inl rfl)
  rw [Chan.softResetRegs, hclear, Chan.getF_putF_same _ _ _ _ (by norm_num) (by norm_num)]
  rfl

end

end Sys2Proof.Machine
end

/-! The writes of PAGE_CTRL, INT_FORCE and TALLY_CTRL, and what their delivery leaves (R58–R63, R73). -/

section
set_option Elab.async false
namespace Sys2Proof.Machine

/-! Delivery. The journal's own page takes the entries of the causes that an effect sets. -/

theorem pg_not_jrnl {p : Pg} {k : PageKind} (hk : p.kind = some k) (h : p ≠ pgJrnl) : p.key 0 / 65536 ≠ pgJrnl.key 0 / 65536 := by
  obtain ⟨hdie, hnum⟩ := Pg.lt_of_kind hk
  obtain ⟨die, num⟩ := p
  rintro he
  refine h (Pg.mk.injEq .. ▸ ?_)
  simp only [Pg.key] at he hdie hnum
  norm_num at he
  omega

theorem Chan.putJrnl_regs (ch : Chan) (k : Nat) (j : Jrnl) : (ch.putJrnl k j).regs = ch.regs := by
  unfold Chan.putJrnl Chan.putRegion
  split <;> rfl

/-- The journal keeps the causes of its page. -/
theorem Chan.cause_jrnlRaw {ch : Chan} {i : Nat} (e : Nat) (hi : i < 32) (h : bit (ch.get pgJrnl oCAUSE) i = true) :
    bit ((ch.jrnlRaw e).get pgJrnl oCAUSE) i = true := by
  have hput : ∀ (k : Nat) (j : Jrnl), ((ch.putJrnl k j).syncJrnl j).get pgJrnl oCAUSE = ch.get pgJrnl oCAUSE := fun k j => by
    have hne : ∀ (c : Chan) (off : Nat) (v : Word), 0x100 ≤ off → (c.put pgJrnl off v).get pgJrnl oCAUSE = c.get pgJrnl oCAUSE := fun c off v ho =>
      c.get_put_ne _ (by simp only [Pg.key, oCAUSE]; norm_num; omega)
    have hsync : ∀ c : Chan, (c.syncJrnl j).get pgJrnl oCAUSE = c.get pgJrnl oCAUSE := fun c =>
      (hne _ _ _ (by decide)).trans ((hne _ _ _ (by decide)).trans ((hne _ _ _ (by decide)).trans ((hne _ _ _ (by decide)).trans (hne _ _ _ (by decide)))))
    exact (hsync _).trans (congrArg (fun r => rget chanReset r (pgJrnl.key oCAUSE)) (Chan.putJrnl_regs ch k j))
  have hwhen : ∀ (c : Chan) (on : Bool) (n : Nat), bit (c.get pgJrnl oCAUSE) i = true → bit ((c.when on (fun d => d.raise pgJrnl n)).get pgJrnl oCAUSE) i = true :=
    fun c on n hc => by
      unfold Chan.when
      split
      · exact c.cause_raiseMask pgJrnl _ hi (.inl hc)
      · exact hc
  unfold Chan.jrnlRaw
  split
  · next k _ => exact hwhen _ _ _ (hwhen _ _ _ (hwhen _ _ _ (by rw [hput]; exact h)))
  · exact h

theorem Chan.cause_journalCauses {ch : Chan} {i : Nat} (hi : i < 32) (h : bit (ch.get pgJrnl oCAUSE) i = true) :
    bit (ch.journalCauses.get pgJrnl oCAUSE) i = true := by
  refine List.foldlRecOn (motive := fun d : Chan => bit (d.get pgJrnl oCAUSE) i = true) _ _ h (fun d hd o _ => ?_)
  have hentry : ∀ key cls, bit ((d.causeEntry key cls).get pgJrnl oCAUSE) i = true := fun key cls => Chan.cause_jrnlRaw _ hi hd
  split
  · split
    · exact hd
    · exact hentry _ _
  · split
    · exact hd
    · exact hentry _ _
  · exact hd

/-- A cause of any page that an effect without a fatal cause has set stays. -/
theorem State.cause_runChan {s : State} {c : Fin 4} {f : Chan → Chan} {p : Pg} {k : PageKind} {i : Nat} (hk : p.kind = some k) (hi : i < 32)
    (ho : NoFatal (f (s.chan c)).outQ) (h : bit ((f (s.chan c)).get p oCAUSE) i = true) : bit (((s.runChan c f).chan c).get p oCAUSE) i = true := by
  by_cases hj : p = pgJrnl
  · subst hj
    rw [(State.runChan_noFatal ho).1, if_pos rfl]
    exact Chan.cause_journalCauses hi h
  · rw [calm_get (State.runChan_calm ho) (by norm_num) (pg_not_jrnl hk hj)]
    exact h

/-- PAGE_CTRL and PAGE_STAT stay as an effect left them. -/
theorem State.header_runChan {s : State} {c : Fin 4} {f : Chan → Chan} {p : Pg} {k : PageKind} (hk : p.kind = some k)
    (ho : p = pgJrnl → OnlyIrqs (f (s.chan c)).outQ) :
    ((s.runChan c f).chan c).get p oCTRL = (f (s.chan c)).get p oCTRL ∧ ((s.runChan c f).chan c).get p oSTAT = (f (s.chan c)).get p oSTAT := by
  by_cases hj : p = pgJrnl
  · rw [State.runChan_chan (ho hj), if_pos rfl]
    exact ⟨rfl, rfl⟩
  · have hd := s.runChan_delivers c f
    have hpage := pg_not_jrnl hk hj
    exact ⟨hd.get (blockReg_ctrl hpage), hd.get (blockReg_stat hpage)⟩

/-! The journal's page. -/

theorem Chan.softResetRegs_outQ (ch : Chan) (p : Pg) : (ch.softResetRegs p).outQ = ch.outQ := by
  unfold Chan.softResetRegs Chan.clearCause
  dsimp only
  split <;> rfl

theorem Chan.jrnlPageReset_irqs {ch : Chan} (h : OnlyIrqs ch.outQ) : OnlyIrqs ch.jrnlPageReset.outQ := by
  have hsync : ∀ (c : Chan) (k : Nat) (j : Jrnl), ((c.putJrnl k j).syncJrnl j).outQ = c.outQ := fun c k j =>
    (rfl : ((c.putJrnl k j).syncJrnl j).outQ = (c.putJrnl k j).outQ).trans (Chan.putJrnl_outQ c k j)
  have hregs : OnlyIrqs (ch.softResetRegs pgJrnl).outQ := by
    rw [Chan.softResetRegs_outQ]
    exact h
  unfold Chan.jrnlPageReset
  split
  · unfold Chan.jrnlReset
    dsimp only
    split
    · exact hregs
    · obtain ⟨j, hheader, -⟩ := Chan.jrnlPut_header _ _ _
      refine hheader.onlyIrqs ?_
      rw [hsync, hsync]
      exact hregs
  · exact hregs

/-- A page that names no port, and whose ENABLE starts nothing, puts nothing out. -/
theorem Chan.ctrlSet_outQ (ch : Chan) {k : PageKind} {p : Pg} (hp : p ≠ pgFab) (hline : ∀ i < 16, p ≠ pgLine i)
    (hon : ∀ (c : Chan) (on : Bool), (c.blockEnabled k p on).outQ = c.outQ) (old v : Word) : (ch.ctrlSet k p old v).outQ = ch.outQ := by
  have hreturn : ∀ c : Chan, (c.ctrlReturn k p old v).outQ = c.outQ := fun c => by
    rw [Chan.ctrlReturn, Chan.takeoverCleared_none c hp hline, ite_self]
  have henable : ∀ c : Chan, (c.ctrlOn k p old v).outQ = c.outQ := fun c => by
    unfold Chan.ctrlOn
    split
    · exact hon c _
    · rfl
  rw [Chan.ctrlSet, hreturn, henable]
  rfl

theorem Chan.softReset_jrnl {ch : Chan} (h : OnlyIrqs ch.outQ) : OnlyIrqs (ch.softReset .jrnlFe pgJrnl).outQ := by
  unfold Chan.softReset
  split
  · exact h
  · exact Chan.jrnlPageReset_irqs (ch := { ch with inReset := pgJrnl.key 0 :: ch.inReset }) h

theorem Chan.ctrlDone_jrnl {ch : Chan} (h : OnlyIrqs ch.outQ) (old v : Word) : OnlyIrqs (ch.ctrlDone .jrnlFe pgJrnl old v).outQ := by
  have hset : OnlyIrqs (ch.ctrlSet .jrnlFe pgJrnl old v).outQ := by
    rw [ch.ctrlSet_outQ (by decide) (fun i _ => by rw [ne_eq, Pg.mk.injEq]; omega) (fun _ _ => rfl)]
    exact h
  unfold Chan.ctrlDone
  split
  · exact Chan.softReset_jrnl hset
  · exact hset

/-! A die's SENS page. -/

/-- What SENS of a die is to the controls of its page: a soft reset returns its registers to reset, and ENABLE starts nothing. -/
structure PlainPage (p : Pg) (k : PageKind) : Prop where
  kind : p.kind = some k
  untaken : k.cap.takeover = false
  notFab : p ≠ pgFab
  notLine : ∀ i < 16, p ≠ pgLine i
  free : ∀ (ch : Chan) (v : Word), ch.ctrlRefused k p v = false
  enabled : ∀ (ch : Chan) (on : Bool), ch.blockEnabled k p on = ch
  done : ∀ ch : Chan, ch.softResetDone k p = if ch.inReset.contains (p.key 0) then
    (({ ch with inReset := ch.inReset.filter (fun x => x != p.key 0) }).putF p STAT_BUSY 0).putF p STAT_READY 1 else ch
  reset : ∀ ch : Chan, ∃ x : Chan, ch.blockReset k p = x.softResetRegs p ∧ x.inReset = ch.inReset ∧ x.regs = ch.regs ∧ x.outQ = ch.outQ

theorem sens_plain (d : Fin 2) : ∃ k : PageKind, PlainPage (pgSens d.val) k := by
  obtain rfl | rfl : d = 0 ∨ d = 1 := by omega
  · exact ⟨.sensFe, rfl, rfl, by decide, fun i _ => by rw [ne_eq, Pg.mk.injEq]; omega, fun _ _ => rfl, fun _ _ => rfl, fun _ => rfl,
      fun _ => ⟨_, rfl, rfl, rfl, rfl⟩⟩
  · exact ⟨.sensTm, rfl, rfl, by decide, fun i _ => by rw [ne_eq, Pg.mk.injEq]; omega, fun _ _ => rfl, fun _ _ => rfl, fun _ => rfl,
      fun _ => ⟨_, rfl, rfl, rfl, rfl⟩⟩

section
variable {p : Pg} {k : PageKind} (hp : PlainPage p k) (ch : Chan)
include hp

/-- A soft reset that begins. -/
theorem PlainPage.softReset (h : ch.inReset.contains (p.key 0) = false) : (ch.softReset k p).nat p oCAUSE = 0 ∧
    (ch.softReset k p).inReset = p.key 0 :: ch.inReset ∧ (ch.softReset k p).outQ = ch.outQ ∧
    bit ((ch.softReset k p).get p oCTRL) 0 = bit (ch.get p oCTRL) 0 ∧ bit ((ch.softReset k p).get p oCTRL) 1 = false ∧
    (ch.softReset k p).getB p STAT_QUIESCED = false := by
  obtain ⟨x, hx, hreset, hregs, houts⟩ := hp.reset { ch with inReset := p.key 0 :: ch.inReset }
  have hstat : ∀ (d : Chan) (f g : Fld) (y z : Nat) (off : Nat), off < 0x100 → off ≠ oSTAT → f.off = oSTAT → g.off = oSTAT →
      ((d.putF p f y).putF p g z).get p off = d.get p off := fun d f g y z off ho hne hf hg => by
    have hkey : p.key off ≠ p.key oSTAT := p.header_ne ho (by norm_num) hne
    rw [Chan.putF, hg, Chan.get_put_ne _ _ hkey, Chan.putF, hf, Chan.get_put_ne _ _ hkey]
  have hform : ch.softReset k p = ((x.softResetRegs p).putF p STAT_BUSY 1).putF p STAT_READY 0 := by
    rw [Chan.softReset, if_neg (by rw [h]; exact Bool.false_ne_true), hp.untaken, Bool.false_and]
    dsimp only
    rw [if_neg Bool.false_ne_true, hx]
  obtain ⟨henable, hquiesce, -⟩ := x.softResetRegs_ctrl p
  have hctrl : (ch.softReset k p).get p oCTRL = (x.softResetRegs p).get p oCTRL := by
    rw [hform, hstat _ _ _ _ _ _ (by norm_num) (by norm_num) rfl rfl]
  have hcause : (ch.softReset k p).get p oCAUSE = (x.softResetRegs p).get p oCAUSE := by
    rw [hform, hstat _ _ _ _ _ _ (by norm_num) (by norm_num) rfl rfl]
  refine ⟨?_, ?_, ?_, ?_, ?_, ?_⟩
  · rw [Chan.nat, hcause]
    exact x.softResetRegs_cause p
  · rw [hform]
    exact (x.softResetRegs_reset p).trans hreset
  · rw [hform]
    exact (x.softResetRegs_outQ p).trans houts
  · rw [hctrl, henable, Chan.get, hregs]
    rfl
  · rw [hctrl, hquiesce]
  · have hkept : ∀ (d : Chan) (f : Fld) (y : Nat), f = STAT_BUSY ∨ f = STAT_READY → (d.putF p f y).getF p STAT_QUIESCED = d.getF p STAT_QUIESCED :=
      fun d f y hf => by
        rcases hf with rfl | rfl
        · exact Chan.getF_putF_word _ _ _ rfl (by norm_num) (by norm_num) (.inr (by norm_num))
        · exact Chan.getF_putF_word _ _ _ rfl (by norm_num) (by norm_num) (.inl (by norm_num))
    rw [hform, Chan.getB, hkept _ _ _ (.inr rfl), hkept _ _ _ (.inl rfl), x.softResetRegs_quiesced p]
    rfl

/-- A write of PAGE_CTRL. -/
theorem PlainPage.ctrlDone {old v : Word} : bit ((ch.ctrlDone k p old v).get p oCTRL) 0 = bit v 0 := by
  have hset := Chan.ctrlSet_enable hp.kind (ch := ch) (old := old) (v := v)
  unfold Chan.ctrlDone
  split
  · cases hin : (ch.ctrlSet k p old v).inReset.contains (p.key 0) with
    | true => rwa [Chan.softReset, if_pos hin]
    | false =>
      obtain ⟨-, -, -, henable, -, -⟩ := hp.softReset _ hin
      rw [henable, hset]
  · exact hset

theorem PlainPage.ctrlDone_quiesced {old v : Word} (h0 : bit v 0 = bit old 0) (h3 : bit v 3 = bit old 3) :
    bit ((ch.ctrlDone k p old v).get p oCTRL) 1 = false ∧ (ch.ctrlDone k p old v).getB p STAT_QUIESCED = false := by
  have hset : bit ((ch.ctrlSet k p old v).get p oCTRL) 1 = false ∧ (ch.ctrlSet k p old v).getB p STAT_QUIESCED = false := by
    rw [Chan.ctrlSet_ctrl hp.kind h0]
    exact ⟨(bit_ctrlWord k v).2.1, Chan.ctrlSet_quiesced hp.kind h0 h3⟩
  unfold Chan.ctrlDone
  split
  · cases hin : (ch.ctrlSet k p old v).inReset.contains (p.key 0) with
    | true => rwa [Chan.softReset, if_pos hin]
    | false =>
      obtain ⟨-, -, -, -, hquiesce, hstat⟩ := hp.softReset _ hin
      exact ⟨hquiesce, hstat⟩
  · exact hset

end

end Sys2Proof.Machine
end

/-! PAGE_CTRL, INT_FORCE and the tally clear of every page (R55–R63, R73). -/

section
set_option Elab.async false
namespace Sys2Proof.Machine

/-- A soft reset of FAB clears TEST_TAKEOVER. -/
theorem Chan.fabReset_takeover (ch : Chan) : bit (ch.fabReset.get pgFab oCTRL) 3 = false := by
  have hinc : ∀ (c : Chan) (off n : Nat), 0x100 ≤ off → (c.inc pgFab off n).get pgFab oCTRL = c.get pgFab oCTRL := fun c off n ho =>
    c.get_put_ne _ (by simp only [Pg.key, oCTRL]; norm_num; omega)
  unfold Chan.fabReset
  dsimp only
  rw [Chan.voqReqAll_fab, Chan.setDegraded_ctrl, hinc _ _ _ (by decide), hinc _ _ _ (by decide)]
  exact (Chan.softResetRegs_ctrl _ pgFab).2.2

theorem Chan.softReset_takeover {ch : Chan} (h : bit (ch.get pgFab oCTRL) 3 = false) : bit ((ch.softReset .fab pgFab).get pgFab oCTRL) 3 = false := by
  have hstat : ∀ c : Chan, ((c.putF pgFab STAT_BUSY 1).putF pgFab STAT_READY 0).get pgFab oCTRL = c.get pgFab oCTRL := fun c =>
    (Chan.get_put_ne _ _ (by decide)).trans (Chan.get_put_ne _ _ (by decide))
  unfold Chan.softReset
  split
  · exact h
  · dsimp only
    rw [hstat]
    exact Chan.fabReset_takeover _

/-- PAGE_CTRL of FAB, where a write clears TEST_TAKEOVER. -/
theorem Chan.ctrlDone_fab {ch : Chan} {old v : Word} (h0 : bit v 0 = bit old 0) (h3 : bit v 3 = false) :
    bit ((ch.ctrlDone .fab pgFab old v).get pgFab oCTRL) 3 = false := by
  have hset : bit ((ch.ctrlSet .fab pgFab old v).get pgFab oCTRL) 3 = false := by
    rw [Chan.ctrlSet_ctrl rfl h0, (bit_ctrlWord _ _).2.2, h3, Bool.and_false]
  unfold Chan.ctrlDone
  split
  · exact Chan.softReset_takeover hset
  · exact hset

theorem State.wordAt_header (s : State) (c : Fin 4) {p : Pg} {k : PageKind} {off : Nat} (hk : p.kind = some k) (ho : off < 0x100) :
    s.wordAt (pageReg (addrOf c.val p 0) off) = (s.chan c).get p off := by
  rw [State.wordAt, pageReg_addrOf c.val p off (by norm_num), locate_addrOf c hk (by omega)]

/-- A register that reads 0 goes on to do so where words of a page are cleared, and so does each of the words. -/
theorem Chan.nat_putZeros {p : Pg} {o : Nat} : ∀ (n : Nat) (ch : Chan) (off : Nat), (ch.nat p o = 0 ∨ ∃ j < n, o = off + 4 * j) →
    (ch.putList p off (List.replicate n 0)).nat p o = 0
  | 0, _, _, h => h.resolve_right (fun ⟨_, hj, _⟩ => nomatch hj)
  | n + 1, ch, off, h => by
    have hclear : ∀ x, x = off ∨ ch.nat p x = 0 → (ch.putN p off 0).nat p x = 0 := fun x hx => by
      by_cases hkey : p.key x = p.key off
      · rw [Chan.nat, Chan.get, hkey]
        exact congrArg BitVec.toNat (ch.get_put_same p off (BitVec.ofNat 32 0))
      · rw [Chan.nat, Chan.putN, Chan.get_put_ne _ _ hkey]
        exact hx.resolve_left (fun e => hkey (e ▸ rfl))
    refine Chan.nat_putZeros n (ch.putN p off 0) (off + 4) ?_
    obtain h | ⟨j, hj, ho⟩ := h
    · exact .inl (hclear o (.inr h))
    · cases j with
      | zero => exact .inl (hclear o (.inl ho))
      | succ j => exact .inr ⟨j, by omega, by omega⟩

theorem headerHook_tally (k : PageKind) : headerHook k oTALLY = tallyHook := by
  unfold headerHook
  rw [if_neg (by decide), if_neg (by decide), if_neg (by decide), if_neg (by decide), if_neg (by decide), if_pos rfl]

/-- A write of TALLY_CTRL with CLEAR. -/
theorem tallyHook_clear {w : WReq} {ch : Chan} (hv : bit w.v 1 = true) : (tallyHook w ch).outQ = ch.outQ ∧
    (∀ i, i < 8 → (tallyHook w ch).get64 w.p (oCNT i) = 0) ∧ (tallyHook w ch).nat w.p oOVF = 0 := by
  have hform : tallyHook w ch = ((ch.put w.p w.off w.merged).putList w.p (oCNT 0) (List.replicate 16 0)).putN w.p oOVF 0 := by
    rw [tallyHook]
    exact if_pos hv
  generalize w.p = p at hform ⊢
  rw [hform]
  have hword : ∀ i j, i < 8 → j < 2 →
      (((ch.put p w.off w.merged).putList p (oCNT 0) (List.replicate 16 0)).putN p oOVF 0).nat p (oCNT i + 4 * j) = 0 := fun i j hi hj => by
    rw [Chan.nat, Chan.putN, Chan.get_put_ne _ _ (p.header_ne (by simp only [oCNT]; omega) (by norm_num) (by simp only [oCNT, oOVF]; omega))]
    exact Chan.nat_putZeros 16 _ _ (.inr ⟨2 * i + j, by omega, by simp only [oCNT]; omega⟩)
  refine ⟨?_, fun i hi => ?_, ?_⟩
  · exact Chan.putList_outQ _ _ _ _
  · rw [Chan.get64, hword i 1 hi (by norm_num)]
    exact hword i 0 hi (by norm_num)
  · rw [Chan.nat, Chan.putN, Chan.get_put_same]
    rfl

end Sys2Proof.Machine
end

/-! The page control bits, INT_FORCE and the tally clear. -/

section
set_option Elab.async false
namespace Sys2Proof.Proofs

open Sys2Proof Sys2Proof.Machine

/-- What the count of an access leaves of the page's controls. -/
theorem counted_controls {s : State} {c : Fin 4} (hr : HostReady s c) (q : Req) (p : Pg) (ev : Nat) :
    ((counted s q c p ev).chan c).inReset = (s.chan c).inReset ∧ ((counted s q c p ev).chan c).get p oCTRL = (s.chan c).get p oCTRL ∧
      OnlyIrqs ((counted s q c p ev).chan c).outQ := by
  obtain ⟨hstep, hcounts⟩ := State.counted_step hr q p ev
  have hreset := congrArg (fun x : Chan => x.inReset) hcounts.work
  exact ⟨hreset, hcounts.regs _ (ctrl_not_count p p), hstep.chan.onlyIrqs (onlyIrqs_of_nil hr.1.2)⟩

section
variable {s : State} {q : Req} {c : Fin 4} {p : Pg} {k : PageKind} (hr : HostReady s c) (hk : p.kind = some k) (hq : MayUse s q c true)
include hr hk hq

/-- A command that writes one bit of PAGE_CTRL, where the write is not refused. -/
theorem completes_ctrl {i : Instr} {b x : Nat} {P : State → Prop}
    (hexec : exec i s = .next (s.busWrite q (pageReg (addrOf c.val p 0) oCTRL) (setFld (s.wordAt (pageReg (addrOf c.val p 0) oCTRL)) b b x)))
    (hfree : ((counted s q c p 3).chan c).ctrlRefused k p (setFld ((s.chan c).get p oCTRL) b b x) = false)
    (hP : ∀ (u : State) (ch y : Chan), ch.inReset = (s.chan c).inReset → OnlyIrqs ch.outQ →
      y = ch.ctrlDone k p ((s.chan c).get p oCTRL) (setFld ((s.chan c).get p oCTRL) b b x) →
      (u.chan c).get p oCTRL = y.get p oCTRL → (u.chan c).get p oSTAT = y.get p oSTAT → (OnlyIrqs y.outQ → u.chan c = { y with outQ := [] }) → P u) :
    Completes i s P := by
  obtain ⟨hreset, hctrl, houts⟩ := counted_controls hr q p 3
  rw [State.wordAt_header s c hk (by norm_num)] at hexec
  generalize setFld ((s.chan c).get p oCTRL) b b x = v at *
  rw [State.busWrite_header hr hk hq (by norm_num) (findReg_ctrl k) rfl rfl rfl v (wordLegal_ctrl k v)] at hexec
  obtain ⟨f, hf, hrun⟩ : ∃ f : Chan → Chan, f ((counted s q c p 3).chan c) =
      ((counted s q c p 3).chan c).ctrlDone k p ((s.chan c).get p oCTRL) v ∧ exec i s = .next ((counted s q c p 3).runChan c f) := by
    refine ⟨_, ?_, hexec⟩
    have hhook := ctrlHook_eq (w := wordReq (counted s q c p 3) q c p oCTRL ctrlHit v) hfree
    exact hhook.trans (by rw [show (wordReq (counted s q c p 3) q c p oCTRL ctrlHit v).old = _ from hctrl]; rfl)
  have hjrnl : p = pgJrnl → OnlyIrqs (f ((counted s q c p 3).chan c)).outQ := by
    rintro rfl
    cases hk
    rw [hf]
    exact Chan.ctrlDone_jrnl houts _ v
  obtain ⟨hc, hst⟩ := State.header_runChan (s := counted s q c p 3) hk hjrnl
  refine ⟨_, hrun, hP _ _ _ hreset houts rfl (hc.trans (by rw [hf])) (hst.trans (by rw [hf])) (fun ho => ?_)⟩
  rw [State.runChan_chan (by rwa [hf]), if_pos rfl, hf]

theorem completes_softReset (hin : (s.chan c).inReset.contains (p.key 0) = false)
    (hfree : ((counted s q c p 3).chan c).ctrlRefused k p (setFld ((s.chan c).get p oCTRL) 2 2 1) = false) :
    Completes (.softReset q (addrOf c.val p 0)) s (fun t => (t.chan c).getB p STAT_BUSY = true ∧ (t.chan c).getB p STAT_READY = false) := by
  refine completes_ctrl hr hk hq rfl hfree (fun u ch y hreset _ hy _ hst _ => ?_)
  rw [Chan.ctrlDone, if_pos (bit_setFld_same _ (by norm_num))] at hy
  have hset : (ch.ctrlSet k p ((s.chan c).get p oCTRL) (setFld ((s.chan c).get p oCTRL) 2 2 1)).inReset.contains (p.key 0) = false := by
    rw [Chan.ctrlSet_reset hk (bit_setFld_ne _ (by norm_num) (by norm_num)) (bit_setFld_ne _ (by norm_num) (by norm_num)), hreset, hin]
  have hstat := Chan.softReset_stat _ k p hset
  rw [← hy] at hstat
  rwa [Chan.getB, Chan.getB, Chan.getF, Chan.getF, hst]

section
variable (hfirst : (s.chan c).getF p CTRL_SOFT_RESET = 0)
include hfirst

omit hr hk hq in
/-- A write of another bit than SOFT_RESET starts no soft reset. -/
theorem ctrlDone_set {b x : Nat} (hb : b ≠ 2) (ch : Chan) :
    ch.ctrlDone k p ((s.chan c).get p oCTRL) (setFld ((s.chan c).get p oCTRL) b b x) =
      ch.ctrlSet k p ((s.chan c).get p oCTRL) (setFld ((s.chan c).get p oCTRL) b b x) := by
  have hbit : bit (setFld ((s.chan c).get p oCTRL) b b x) 2 = false := by
    rw [bit_setFld_ne _ (by norm_num) hb.symm, bit_eq_fld]
    exact beq_eq_false_iff_ne.2 (by rw [show fld ((s.chan c).get p oCTRL) 2 2 = 0 from hfirst]; decide)
  rw [Chan.ctrlDone, hbit]
  exact if_neg Bool.false_ne_true

theorem completes_enable (on : Bool) (hfree : ((counted s q c p 3).chan c).ctrlRefused k p (setFld ((s.chan c).get p oCTRL) 0 0 (b2n on)) = false) :
    Completes (.enableWrite q (addrOf c.val p 0) on) s (fun t => (t.chan c).getB p CTRL_ENABLE = on) := by
  refine completes_ctrl hr hk hq rfl hfree (fun u ch y _ _ hy hc _ _ => ?_)
  rw [ctrlDone_set hfirst (by norm_num)] at hy
  rw [Chan.getB_bit, hc, hy, Chan.ctrlSet_enable hk]
  exact bit_setFld_b2n _ (by norm_num) on

theorem completes_quiesce (on : Bool) (hfree : ((counted s q c p 3).chan c).ctrlRefused k p (setFld ((s.chan c).get p oCTRL) 1 1 (b2n on)) = false) :
    Completes (.quiesceReq q (addrOf c.val p 0) on) s (fun t => (t.chan c).getB p CTRL_QUIESCE = false ∧ (t.chan c).getB p STAT_QUIESCED = false) := by
  refine completes_ctrl hr hk hq rfl hfree (fun u ch y _ _ hy hc hst _ => ?_)
  rw [ctrlDone_set hfirst (by norm_num)] at hy
  have h0 := bit_setFld_ne ((s.chan c).get p oCTRL) (b := 1) (i := 0) (x := b2n on) (by norm_num) (by norm_num)
  have h3 := bit_setFld_ne ((s.chan c).get p oCTRL) (b := 1) (i := 3) (x := b2n on) (by norm_num) (by norm_num)
  have hquiesced := Chan.ctrlSet_quiesced hk (ch := ch) h0 h3
  rw [← hy] at hquiesced
  refine ⟨?_, by rwa [Chan.getB, Chan.getF, hst]⟩
  rw [Chan.getB_bit, hc, hy, Chan.ctrlSet_ctrl hk h0]
  exact (bit_ctrlWord k _).2.1

theorem completes_takeover (hfree : ((counted s q c p 3).chan c).ctrlRefused k p (setFld ((s.chan c).get p oCTRL) 3 3 0) = false) :
    Completes (.testTakeoverClear q (addrOf c.val p 0)) s (fun t => (t.chan c).getB p CTRL_TAKEOVER = false) := by
  refine completes_ctrl hr hk hq rfl hfree (fun u ch y _ _ hy hc _ _ => ?_)
  rw [ctrlDone_set hfirst (by norm_num)] at hy
  rw [Chan.getB_bit, hc, hy, Chan.ctrlSet_ctrl hk (bit_setFld_ne _ (by norm_num) (by norm_num)), (bit_ctrlWord _ _).2.2,
    show bit (setFld ((s.chan c).get p oCTRL) 3 3 0) 3 = false from bit_setFld_b2n _ (by norm_num) false, Bool.and_false]

end

end

theorem exec_softResetDone {s : State} {c : Fin 4} {p : Pg} {k : PageKind} (hr : Ready s c) (hk : p.kind = some k) :
    exec (.softResetDone (addrOf c.val p 0)) s = .next (s.runChan c (fun ch => ch.softResetDone k p)) := by
  show execSoftResetDone _ _ = _
  rw [execSoftResetDone, locate_addrOf c hk (by norm_num)]
  dsimp only
  rw [hk]
  dsimp only
  rw [if_pos (State.chPages_of_chLive hr.1)]

theorem completes_resetDone {s : State} {c : Fin 4} {p : Pg} {k : PageKind} (hr : Ready s c) (hk : p.kind = some k)
    (hin : (s.chan c).inReset.contains (p.key 0) = true) :
    Completes (.softResetDone (addrOf c.val p 0)) s (fun t => (t.chan c).getB p STAT_BUSY = false ∧ (t.chan c).getB p STAT_READY = true) := by
  have hstat := Chan.softResetDone_stat (s.chan c) k p hin
  have hjrnl : p = pgJrnl → OnlyIrqs ((s.chan c).softResetDone k p).outQ := by
    rintro rfl
    cases hk
    rw [Chan.softResetDone, if_pos hin]
    exact onlyIrqs_of_nil hr.2
  obtain ⟨-, hst⟩ := State.header_runChan (f := fun ch => ch.softResetDone k p) hk hjrnl
  refine ⟨_, exec_softResetDone hr hk, ?_⟩
  dsimp only
  rwa [Chan.getB, Chan.getB, Chan.getF, Chan.getF, hst]

/-- A page has nothing in flight under QUIESCE_REQ. -/
theorem completes_quiesceDone {s : State} {c : Fin 4} {p : Pg} {k : PageKind} (hr : Ready s c) (hk : p.kind = some k) :
    Completes (.quiesceDone (addrOf c.val p 0)) s (fun t => t.isl = s.isl ∧ ∀ d, t.chan d = s.chan d) := by
  have hnone : (s.chan c).quiesceDone k p = s.chan c := by
    rw [Chan.quiesceDone, k.cap_quiesce]
    rfl
  have hexec : exec (.quiesceDone (addrOf c.val p 0)) s = .next (s.onLive c (fun ch => ch.quiesceDone k p)) := by
    show execQuiesceDone _ _ = _
    rw [execQuiesceDone, locate_addrOf c hk (by norm_num)]
    dsimp only
    rw [hk]
  have hrun : s.onLive c (fun ch => ch.quiesceDone k p) = s.setChan c (s.chan c) := by
    rw [State.onLive_of_ready hr, State.runChan_eq s c _ (by rw [hnone]; exact hr.2), hnone]
  refine ⟨_, hexec, ?_⟩
  rw [hrun]
  refine ⟨rfl, fun d => ?_⟩
  rw [State.chan_setChan]
  split
  · next hd => rw [hd]
  · rfl

theorem completes_force {s : State} {c : Fin 4} {p : Pg} {k : PageKind} {v : Word} {i : Nat} (hr : HostReady s c) (hk : p.kind = some k) (hi : i < 32)
    (hv : nbit (Nat.land v.toNat k.cap.causeMask) i = true) :
    Completes (.intForce (.func 0) (addrOf c.val p 0) v) s (fun t => bit ((t.chan c).get p oCAUSE) i = true) := by
  have hrun : exec (.intForce (.func 0) (addrOf c.val p 0) v) s = .next (s.busWrite (.func 0) (pageReg (addrOf c.val p 0) oFORCE) v) := rfl
  rw [State.busWrite_header hr hk (mayUse_pf0 hr true) (by norm_num) (findReg_force k) rfl rfl rfl v (wordLegal_force k v)] at hrun
  obtain ⟨-, -, houts⟩ := counted_controls hr (.func 0) p 3
  refine ⟨_, hrun, State.cause_runChan hk hi ?_ ?_⟩
  · refine (Stays.raiseMask (pages := [p]) (strip := id) _ (List.mem_singleton_self p) _).noFatal (fun o ho => ?_)
    obtain ⟨key, rfl⟩ := houts o ho
    rfl
  · exact Chan.cause_raiseMask _ p _ hi (.inr hv)

theorem completes_tallyClear {s : State} {c : Fin 4} {p : Pg} {k : PageKind} {i : Nat} (hr : HostReady s c) (hk : p.kind = some k)
    (ht : k.cap.tally = true) (hi : i < 8) : Completes (.tallyClear (.func 0) (addrOf c.val p 0)) s (fun t =>
      (t.chan c).get64 p (oCNT i) = 0 ∧ (t.chan c).nat p oOVF = 0) := by
  have hrun : exec (.tallyClear (.func 0) (addrOf c.val p 0)) s = .next (s.busWrite (.func 0) (pageReg (addrOf c.val p 0) oTALLY)
    (setFld (s.wordAt (pageReg (addrOf c.val p 0) oTALLY)) 1 1 1)) := rfl
  have hv := bit_setFld_same (s.wordAt (pageReg (addrOf c.val p 0) oTALLY)) (b := 1) (by norm_num)
  generalize setFld (s.wordAt (pageReg (addrOf c.val p 0) oTALLY)) 1 1 1 = v at hrun hv
  rw [State.busWrite_header hr hk (mayUse_pf0 hr true) (by norm_num) (findReg_tally ht) rfl rfl rfl v (wordLegal_tally k v)] at hrun
  rw [headerHook_tally] at hrun
  obtain ⟨-, -, houts⟩ := counted_controls hr (.func 0) p 3
  obtain ⟨w, hw, hp, hvw⟩ : ∃ w, w = wordReq (counted s (.func 0) c p 3) (.func 0) c p oTALLY tallyHit v ∧ w.p = p ∧ bit w.v 1 = true := ⟨_, rfl, rfl, hv⟩
  rw [← hw] at hrun
  obtain ⟨y, hy, ho, hcnt, hovf⟩ : ∃ y, tallyHook w ((counted s (.func 0) c p 3).chan c) = y ∧ y.outQ = ((counted s (.func 0) c p 3).chan c).outQ ∧
      (∀ i, i < 8 → y.get64 p (oCNT i) = 0) ∧ y.nat p oOVF = 0 := by
    have hclear := tallyHook_clear (ch := (counted s (.func 0) c p 3).chan c) hvw
    rw [hp] at hclear
    exact ⟨_, rfl, hclear⟩
  have hchan := State.runChan_chan (s := counted s (.func 0) c p 3) (c := c) (f := tallyHook w) (by rw [hy, ho]; exact houts) c
  rw [if_pos rfl, hy] at hchan
  refine ⟨_, hrun, ?_⟩
  dsimp only
  rw [hchan]
  exact ⟨(Chan.get64_congr rfl rfl).trans (hcnt i hi), hovf⟩

section
variable {s : State} {c : Fin 4} {d : Fin 2} (hr : HostReady s c)
include hr

theorem completes_sensReset (hin : (s.chan c).inReset.contains ((pgSens d.val).key 0) = false) :
    Completes (.softReset (.func 0) (addrOf c.val (pgSens d.val) 0)) s (fun t =>
      (t.chan c).getB (pgSens d.val) STAT_BUSY = true ∧ (t.chan c).getB (pgSens d.val) STAT_READY = false ∧
      (t.chan c).nat (pgSens d.val) oCAUSE = 0 ∧ (t.chan c).inReset.contains ((pgSens d.val).key 0) = true) := by
  obtain ⟨k, hp⟩ := sens_plain d
  refine completes_ctrl hr hp.kind (mayUse_pf0 hr true) rfl (hp.free _ _) (fun u ch y hreset houts hy _ _ hirqs => ?_)
  rw [Chan.ctrlDone, if_pos (bit_setFld_same _ (by norm_num))] at hy
  have hold : (ch.ctrlSet k (pgSens d.val) ((s.chan c).get (pgSens d.val) oCTRL) (setFld ((s.chan c).get (pgSens d.val) oCTRL) 2 2 1)).inReset = (s.chan c).inReset := by
    rw [Chan.ctrlSet_reset hp.kind (bit_setFld_ne _ (by norm_num) (by norm_num)) (bit_setFld_ne _ (by norm_num) (by norm_num)), hreset]
  have hset := ch.ctrlSet_outQ hp.notFab hp.notLine (fun x on => by rw [hp.enabled]) ((s.chan c).get (pgSens d.val) oCTRL)
    (setFld ((s.chan c).get (pgSens d.val) oCTRL) 2 2 1)
  have hnew := hold ▸ hin
  obtain ⟨hbusy, hready⟩ := Chan.softReset_stat _ k _ hnew
  obtain ⟨hcause, hheld, hout, -, -, -⟩ := hp.softReset _ hnew
  rw [hirqs (by rw [hy, hout, hset]; exact houts), hy]
  refine ⟨hbusy, hready, hcause, ?_⟩
  rw [show (_ : Chan).inReset = _ from hheld]
  simp

theorem completes_sensDone (hin : (s.chan c).inReset.contains ((pgSens d.val).key 0) = true) :
    Completes (.softResetDone (addrOf c.val (pgSens d.val) 0)) s (fun t =>
      (t.chan c).getB (pgSens d.val) STAT_BUSY = false ∧ (t.chan c).getB (pgSens d.val) STAT_READY = true ∧
      (t.chan c).inReset.contains ((pgSens d.val).key 0) = false) := by
  obtain ⟨k, hp⟩ := sens_plain d
  have hdone := (hp.done (s.chan c)).trans (if_pos hin)
  obtain ⟨hbusy, hready⟩ := Chan.softResetDone_stat (s.chan c) k _ hin
  have hirqs : OnlyIrqs ((s.chan c).softResetDone k (pgSens d.val)).outQ := by
    rw [hdone]
    exact onlyIrqs_of_nil hr.1.2
  refine ⟨_, exec_softResetDone hr.1 hp.kind, ?_⟩
  dsimp only
  rw [State.runChan_chan (f := fun ch => ch.softResetDone k (pgSens d.val)) hirqs, if_pos rfl]
  refine ⟨hbusy, hready, ?_⟩
  have hheld : ((s.chan c).softResetDone k (pgSens d.val)).inReset = (s.chan c).inReset.filter (fun x => x != (pgSens d.val).key 0) := by
    rw [hdone]
    rfl
  show ((s.chan c).softResetDone k (pgSens d.val)).inReset.contains _ = false
  rw [hheld]
  simp

theorem completes_sensEnable (on : Bool) : Completes (.enableWrite (.func 0) (addrOf c.val (pgSens d.val) 0) on) s (fun t =>
    (t.chan c).getB (pgSens d.val) CTRL_ENABLE = on) := by
  obtain ⟨k, hp⟩ := sens_plain d
  refine completes_ctrl hr hp.kind (mayUse_pf0 hr true) rfl (hp.free _ _) (fun u ch y _ _ hy hc _ _ => ?_)
  rw [Chan.getB_bit, hc, hy, hp.ctrlDone]
  exact bit_setFld_b2n _ (by norm_num) on

theorem completes_sensQuiesce (on : Bool) : Completes (.quiesceReq (.func 0) (addrOf c.val (pgSens d.val) 0) on) s (fun t =>
    (t.chan c).getB (pgSens d.val) CTRL_QUIESCE = false ∧ (t.chan c).getB (pgSens d.val) STAT_QUIESCED = false) := by
  obtain ⟨k, hp⟩ := sens_plain d
  refine completes_ctrl hr hp.kind (mayUse_pf0 hr true) rfl (hp.free _ _) (fun u ch y _ _ hy hc hst _ => ?_)
  have hdone := hp.ctrlDone_quiesced ch (bit_setFld_ne ((s.chan c).get (pgSens d.val) oCTRL) (b := 1) (i := 0) (x := b2n on) (by norm_num) (by norm_num))
    (bit_setFld_ne ((s.chan c).get (pgSens d.val) oCTRL) (b := 1) (i := 3) (x := b2n on) (by norm_num) (by norm_num))
  rw [← hy] at hdone
  exact ⟨by rw [Chan.getB_bit, hc]; exact hdone.1, by rw [Chan.getB, Chan.getF, hst]; exact hdone.2⟩

theorem completes_fabTakeover : Completes (.testTakeoverClear (.func 0) (addrOf c.val pgFab 0)) s (fun t => (t.chan c).getB pgFab CTRL_TAKEOVER = false) := by
  refine completes_ctrl hr (k := .fab) rfl (mayUse_pf0 hr true) rfl rfl (fun u ch y _ _ hy hc _ _ => ?_)
  rw [Chan.getB_bit, hc, hy]
  exact Chan.ctrlDone_fab (bit_setFld_ne _ (by norm_num) (by norm_num)) (bit_setFld_b2n _ (by norm_num) false)

end

/-- Settles O19 (R55–R63, R73): a write of PAGE_CTRL that is not refused ends what it clears, takes up ENABLE and begins the soft reset; no page has
QUIESCE; what an effect leaves of the header stays through its delivery. -/
theorem pageControlBits : Obligations.PageControlBits := by
  refine ⟨fun s c d hr => ⟨completes_sensReset hr, completes_sensDone hr, completes_sensEnable hr⟩,
    ⟨PageKind.cap_quiesce, fun s c d on hr => completes_sensQuiesce hr on, fun s c p k hr hk => completes_quiesceDone hr hk,
      fun s c hr => completes_fabTakeover hr⟩,
    ⟨fun s c p k v i hr hk hi hv => completes_force hr hk hi hv, fun s c p k i hr hk ht hi => completes_tallyClear hr hk ht hi⟩,
    fun s q c p k hr hk hq => ⟨completes_softReset hr hk hq, completes_resetDone hr.1 hk, fun on hfirst => completes_enable hr hk hq hfirst on,
      fun on hfirst => completes_quiesce hr hk hq hfirst on, completes_takeover hr hk hq⟩⟩

end Sys2Proof.Proofs
end

/-! The keeper cycle (R82–R85): what the work of a cycle leaves of the keepers and of the count of the cycles. -/

section
set_option Elab.async false
namespace Sys2Proof.Machine

/-- The count, the end and the index of the cycle. -/
def Chan.cycle (ch : Chan) : Nat × Nat × Nat := (ch.cycNo, ch.bnd, ch.cycIdx)

/-- From `a` to `b` the cycle has stayed, and the registers of the keepers that `K` names; a channel that has started has not stopped. -/
structure Cycled (K : Nat → Prop) (a b : Chan) : Prop where
  regs : ∀ key, K key → rget chanReset b.regs key = rget chanReset a.regs key
  cycle : b.cycle = a.cycle
  started : a.started = true → b.started = true

/-- A register of a page that is no keeper's. -/
theorem not_stateKey {p : Pg} {off : Nat} (ho : off < 65536) (hpage : p.key 0 / 65536 ≠ 0 ∧ p.key 0 / 65536 ≠ 0x200) : ¬ StateKey (p.key off) := fun h => by
  have hdiv := p.key_div ho
  simp only [StateKey] at h
  omega

/-- A register of any page's header. -/
theorem not_stateKey_header (p : Pg) {off : Nat} (ho : off < 0x100) : ¬ StateKey (p.key off) := fun h => by
  rw [p.key_header ho.le, Pg.key] at h
  simp only [StateKey] at h
  norm_num at h
  omega

namespace Cycled

variable {K : Nat → Prop} {a b c : Chan}

theorem refl (a : Chan) : Cycled K a a := ⟨fun _ _ => rfl, rfl, id⟩

theorem trans (h : Cycled K a b) (g : Cycled K b c) : Cycled K a c :=
  ⟨fun key hk => (g.regs key hk).trans (h.regs key hk), g.cycle.trans h.cycle, g.started ∘ h.started⟩

theorem mono {L : Nat → Prop} (h : Cycled K a b) (hL : ∀ key, L key → K key) : Cycled L a b := ⟨fun key hk => h.regs key (hL key hk), h.cycle, h.started⟩

theorem ite {q : Prop} [Decidable q] {x y : Chan} (hx : q → Cycled K a x) (hy : ¬ q → Cycled K a y) : Cycled K a (if q then x else y) := by
  split
  · exact hx ‹_›
  · exact hy ‹_›

theorem each {α : Type} {f : Chan → α → Chan} (l : List α) (h : ∀ ch, ∀ x ∈ l, Cycled K ch (f ch x)) (ch : Chan) : Cycled K ch (ch.each l f) :=
  List.foldlRecOn (motive := fun d => Cycled K ch d) l f (refl ch) (fun d hd x hx => hd.trans (h d x hx))

/-- A field of the channel that is none of the cycle's. -/
theorem of_field (hregs : b.regs = a.regs) (hcycle : b.cycle = a.cycle) (hstarted : b.started = a.started) : Cycled K a b :=
  ⟨fun _ _ => by rw [hregs], hcycle, fun h => hstarted.trans h⟩

theorem put (ch : Chan) (p : Pg) (off : Nat) (v : Word) (h : ¬ K (p.key off)) : Cycled K ch (ch.put p off v) :=
  ⟨fun _ hk => ch.rget_put_ne v (fun e => h (e ▸ hk)), rfl, id⟩

theorem of_spares {L : Nat → Prop} {strip : Chan → Chan} (h : Spares L strip a b) (hL : ∀ key, K key → L key)
    (hf : ∀ x : Chan, (strip x).cycle = x.cycle ∧ (strip x).started = x.started) : Cycled K a b := by
  have hcycle := congrArg Chan.cycle h.work
  have hstarted := congrArg (fun x : Chan => x.started) h.work
  dsimp only at hstarted
  rw [(hf _).1, (hf _).1] at hcycle
  rw [(hf _).2, (hf _).2] at hstarted
  exact ⟨fun key hk => h.regs key (hL key hk), hcycle, fun hs => hstarted.trans hs⟩

/-- What only a keeper's claim, state and service commands bring with them. -/
theorem of_side (hK : ∀ key, K key → StateKey key) (h : Side a b) : Cycled K a b := of_spares h (fun key hk => .inl (hK key hk)) (fun _ => ⟨rfl, rfl⟩)

theorem act (ch : Chan) (x : ActW) : Cycled K ch { ch with act := x } := of_field rfl rfl rfl

theorem onHbm (ch : Chan) (f : HbmW → HbmW) : Cycled K ch (ch.onHbm f) := of_field rfl rfl rfl

theorem putHbmRegion (ch : Chan) (r : Nat) (x : HbmRegion) : Cycled K ch (ch.putHbmRegion r x) := of_field rfl rfl rfl

section
variable (hK : ∀ key, K key → StateKey key)
include hK

theorem of_quiet (h : Quiet a b) : Cycled K a b := by
  have hcycle := congrArg Chan.cycle h.quiet
  have hstarted := congrArg (fun x : Chan => x.started) h.quiet
  refine ⟨fun key hk => h.regs key (fun e => ?_), hcycle, fun hs => hstarted.trans hs⟩
  have hform := hK key hk
  rw [show pgJrnl.key 0 / 65536 = 1 from rfl] at e
  simp only [StateKey] at hform
  omega

theorem not_header (p : Pg) (key : Nat) (h : K key) : ¬ InHeader p key := fun hh => by
  obtain ⟨hlo, hhi⟩ := hh
  have hkey := not_stateKey_header p (off := key - p.key 0) (by rw [p.key_header le_rfl] at hhi; omega)
  rw [p.key_header (by rw [p.key_header le_rfl] at hhi; omega), Nat.add_sub_cancel' hlo] at hkey
  exact hkey (hK key h)

theorem raise (ch : Chan) (p : Pg) (n : Nat) : Cycled K ch (ch.raise p n) :=
  of_spares (strip := id) (Spares.raise (not_header hK p) ch n) (fun _ h => h) (fun _ => ⟨rfl, rfl⟩)

theorem journal (ch : Chan) (p : Pg) (cls ev detail : Nat) : Cycled K ch (ch.journal p cls ev detail) :=
  (of_quiet hK (.jrnlRaw ch _)).trans (of_field rfl rfl rfl)

theorem journalSec (ch : Chan) (p : Pg) (cls ev sub base mult n lim : Nat) : Cycled K ch (ch.journalSec p cls ev sub base mult n lim) :=
  of_spares (strip := id) (Spares.journalSec (fun key hk => Side.not_journal key (.inl (hK key hk))) ch p cls ev sub base mult n lim) (fun _ h => h)
    (fun _ => ⟨rfl, rfl⟩)

theorem putHeader (ch : Chan) (p : Pg) {off : Nat} (v : Word) (ho : off < 0x100) : Cycled K ch (ch.put p off v) :=
  put ch p off v (fun h => not_stateKey_header p ho (hK _ h))

theorem putPage (ch : Chan) (p : Pg) {off : Nat} (v : Word) (ho : off < 65536) (hpage : p.key 0 / 65536 ≠ 0 ∧ p.key 0 / 65536 ≠ 0x200) :
    Cycled K ch (ch.put p off v) := put ch p off v (fun h => not_stateKey ho hpage (hK _ h))

theorem setDegraded (ch : Chan) (p : Pg) (on : Bool) : Cycled K ch (ch.setDegraded p on) :=
  ite (fun _ => (putHeader hK ch p (off := oSTAT) _ (by decide)).trans (raise hK _ p 2)) (fun _ => putHeader hK ch p (off := oSTAT) _ (by decide))

theorem jrnlPut (ch : Chan) (k e : Nat) : Cycled K ch (ch.jrnlPut k e) := of_quiet hK (.jrnlPut ch k e)

theorem jrnlCycle (ch : Chan) (k : Nat) : Cycled K ch (ch.jrnlCycle k) :=
  ite (fun _ => of_quiet hK (.putJrnl ch k _)) (fun _ => (of_quiet hK (.putJrnl ch k _)).trans (jrnlPut hK _ k _))

/-! The messages that the keeper sends (R141–R146). -/

theorem portInc (ch : Chan) (p : Nat) (f : Nat → Nat) (n : Nat) (hlo : 0x1000 ≤ f (portBlk p)) (hhi : f (portBlk p) < 0x4000) :
    Cycled K ch (ch.portInc p f n) := by
  have hput : ∀ (d : Chan) (off : Nat) (v : Word), 0x1000 ≤ off → off < 0x5000 → Cycled K d (d.put (portPg p) off v) := fun d off v hlo hhi =>
    put d _ off v (fun h => by
      have hform := hK _ h
      simp only [StateKey, Pg.key] at hform
      split at hform <;> omega)
  exact (hput ch _ _ hlo (by omega)).trans (hput _ _ _ (by omega) (by omega))

theorem sendControl (ch : Chan) (p : Nat) (f : CtlFrame) : Cycled K ch (ch.sendControl p f) := by
  have hblk := portBlk_lt p
  unfold Chan.sendControl
  exact ite (fun _ => portInc hK ch p _ 1 (by simp only [LINE.TX_DOWN_DROP]; omega) (by simp only [LINE.TX_DOWN_DROP]; omega))
    (fun _ => ite (fun _ => portInc hK ch p _ 1 (by simp only [LINE.TX_INS_DROP]; omega) (by simp only [LINE.TX_INS_DROP]; omega))
      (fun _ => of_field rfl rfl rfl))

theorem followUps (ch : Chan) (p : Nat) : Cycled K ch (ch.followUps p) := by
  have hword : ∀ x : PortWork, Cycled K ch (ch.putPw p x) := fun x => of_field rfl rfl rfl
  unfold Chan.followUps
  dsimp only
  exact (hword _).trans (each _ (fun c e _ => sendControl hK c p _) _)

theorem keeperSends (ch : Chan) (p : Nat) (bs : List Byte) : Cycled K ch (ch.keeperSends p bs) := by
  unfold Chan.keeperSends
  dsimp only
  split
  · exact sendControl hK ch p _
  · exact refl ch

/-! Events of the second, and poisoned words (R121, R283, R359). -/

theorem journalSeconds (ch : Chan) : Cycled K ch ch.journalSeconds :=
  (of_field rfl rfl rfl : Cycled K ch { ch with secs := ch.secs.filter (fun e => !(decide (e.2.sec < ch.ns / 1000000000))) }).trans
    (each (f := fun c (e : Nat × SecEvt) => c.closeSecond e.2) _ (fun c _ _ => ite (fun _ => journal hK c _ _ _ _) (fun _ => refl c)) _)

theorem repairPoison (ch : Chan) : Cycled K ch ch.repairPoison := by
  have hword : ∀ (c : Chan) (x : ParseW), Cycled K c { c with prs := x } := fun c x => of_field rfl rfl rfl
  unfold Chan.repairPoison
  refine each _ (fun c k _ => ?_) ch
  dsimp only
  exact (hword c _).trans (journal hK _ _ _ _ _)

theorem cfgRepair (ch : Chan) (key : Nat) : Cycled K ch (ch.cfgRepair key) := by
  have hword : ∀ (c : Chan) (x : StrnW), Cycled K c { c with strn := x } := fun c x => of_field rfl rfl rfl
  unfold Chan.cfgRepair
  dsimp only
  split
  · exact (hword ch _).trans (journalSec hK _ _ _ _ _ _ _ _ _)
  · exact refl ch

theorem cfgRepairAll (ch : Chan) : Cycled K ch ch.cfgRepairAll := each (f := Chan.cfgRepair) _ (fun c _ _ => cfgRepair hK c _) ch

/-! The retrain under way (R514). -/

theorem putHbmc (ch : Chan) (st : Nat) (f : Fld) (v : Nat) : Cycled K ch (ch.putF (pgHbmc st) f v) := by
  refine put ch _ _ _ (fun h => ?_)
  have hform := hK _ h
  simp only [StateKey, Pg.key] at hform
  norm_num at hform
  omega

theorem regionSettle (ch : Chan) (r : Nat) : Cycled K ch (ch.regionSettle r) :=
  ite (fun _ => ((putHbmRegion ch r _).trans (raise hK _ _ 12)).trans (journal hK _ _ _ _ _)) (fun _ => refl ch)

/-- UNFENCE and RETIRE of a region. -/
theorem regionOp (ch : Chan) {op : Nat} (h : op = 4 ∨ op = 5) (cls r : Nat) : Cycled K ch (ch.regionOp op cls r) := by
  have hact : Cycled K ch (ch.regionAct op cls r) := by
    unfold Chan.regionAct
    dsimp only
    obtain rfl | rfl := h
    · exact (putHbmRegion ch r _).trans (regionSettle hK _ r)
    · exact ((putHbmRegion ch r _).trans (ite (fun _ => setDegraded hK _ _ _) (fun _ => refl _))).trans (journal hK _ _ _ _ _)
  refine hact.trans ?_
  exact each (f := fun c p => Chan.poolLow ch c p) (List.range 5) (fun c _ _ => ite (fun _ => raise hK c _ 14) (fun _ => refl c)) _

theorem unfenceGroup (ch : Chan) (g : Nat) : Cycled K ch (ch.unfenceGroup g) :=
  each (f := fun c r => c.regionOp 4 0 r) _ (fun c r _ => regionOp hK c (.inl rfl) 0 r) ch

theorem failGroup (ch : Chan) (g : Nat) : Cycled K ch (ch.failGroup g) :=
  ite (fun _ => refl ch) (fun _ => (((putHbmc hK ch _ _ _).trans (putHbmc hK _ _ _ _)).trans (setDegraded hK _ _ _)).trans (journal hK _ _ _ _ _))

/-- The keeper gives a group up (R514, R529). -/
theorem ktrain_fail (ch : Chan) (st x : Nat) : Cycled K ch (ch.ktrain st 7 true x 0).1 := by
  have hstart : Cycled K ch (((ch.each (pcsOf (4 * st + x % 4)) (fun c m => c.setPcBase m 5)).failGroup (4 * st + x % 4)).setLast (4 * st + x % 4) 2) :=
    ((each (f := fun c m => c.setPcBase m 5) _ (fun c m _ => putHbmc hK c _ _ _) ch).trans (failGroup hK _ _)).trans (putHbmc hK _ _ _ _)
  have hretire : ∀ (c : Chan) (l : List Nat), Cycled K c (c.each l (fun c q => if regionAccepts 5 (c.hbmRegion q).st then c.regionOp 5 0 q else c)) := fun c l =>
    each (f := fun c q => if regionAccepts 5 (c.hbmRegion q).st then c.regionOp 5 0 q else c) l
      (fun c q _ => ite (fun _ => regionOp hK c (.inr rfl) 0 q) (fun _ => refl c)) c
  unfold Chan.ktrain
  dsimp only
  rw [if_neg (by decide), if_neg (by decide), if_neg (by decide), if_neg (by decide), if_neg (by decide), if_neg (by decide), if_pos rfl]
  split
  · split
    · exact ((((hstart.trans (hretire _ _)).trans (onHbm _ _)).trans (raise hK _ _ 10)).trans (journal hK _ _ _ _ _))
    · exact hstart
  · exact hstart

/-- The keeper's part of a retrain (R514). -/
theorem hbmCycle (ch : Chan) : Cycled K ch ch.hbmCycle := by
  unfold Chan.hbmCycle
  split
  · exact refl ch
  · refine ite (fun _ => ?_) (fun _ => ite (fun _ => ktrain_fail hK ch _ _) (fun _ => ite (fun _ => onHbm ch _) (fun _ => refl ch)))
    exact (((onHbm ch _).trans (unfenceGroup hK _ _)).trans (raise hK _ _ 10)).trans (journal hK _ _ _ _ _)

/-! Arming (R173, R175, R193). -/

theorem putLow (ch : Chan) {n : Nat} {off : Nat} (v : Word) (hn : 0 < n ∧ n < 0x200) (ho : off < 65536) : Cycled K ch (ch.put ⟨0, n⟩ off v) :=
  putPage hK ch ⟨0, n⟩ v ho (by simp only [Pg.key]; split <;> omega)

theorem incAct (ch : Chan) {off : Nat} (n : Nat) (ho : off < 65536) : Cycled K ch (ch.inc pgAct off n) := putLow hK ch _ (by decide) ho

theorem slotsLow (ch : Chan) : Cycled K ch ch.slotsLow := by
  unfold Chan.slotsLow
  dsimp only
  exact (act ch _).trans (ite (fun _ => raise hK _ _ 13) (fun _ => refl _))

theorem pourArm (ch : Chan) (t : Nat) (late : Bool) : Cycled K ch (ch.pourArm t late) := by
  have hbrew : ∀ (c : Chan) (x : BrewW), Cycled K c { c with brew := x } := fun c x => of_field rfl rfl rfl
  have hparse : ∀ (c : Chan) (x : ParseW), Cycled K c { c with prs := x } := fun c x => of_field rfl rfl rfl
  have hlow : ∀ (c : Chan) (off : Nat) (v : Word), off < 65536 → Cycled K c (c.put pgBrew off v) := fun c off v ho => putLow hK c v (by decide) ho
  unfold Chan.pourArm Chan.brewStop
  exact (((((hbrew ch _).trans (hlow _ _ _ (by decide))).trans (hparse _ _)).trans (hlow _ _ _ (by decide))).trans (hlow _ _ _ (by decide))).trans
    (hlow _ _ _ (by decide))

/-- An ARM of the keeper (R175, R176). -/
theorem arm (ch : Chan) (w : Word) : Cycled K ch (ch.arm true 0x20 w) := by
  have hfree : Cycled K ch ch.takeFree := of_field rfl rfl rfl
  have hdone : ∀ (c : Chan) (st i : Nat), Cycled K c (c.armDone 0x20 st i) := fun c st i => putLow hK c _ (by decide) (by decide)
  have hlate : ∀ c : Chan, Cycled K c ((c.inc pgAct ACT.LATE_CNT).raise pgAct 9) := fun c => (incAct hK c 1 (by decide)).trans (raise hK _ _ 9)
  unfold Chan.arm
  dsimp only
  split
  · refine ((((hfree.trans (act _ _)).trans (ite (fun _ => pourArm hK _ _ _) (fun _ => refl _))).trans (ite (fun _ => ?_) (fun _ => refl _))).trans
      (slotsLow hK _)).trans (hdone _ _ _)
    exact (hlate _).trans (journal hK _ _ _ _ _)
  · exact (hfree.trans (ite (fun _ => hlate _) (fun _ => ite (fun _ => incAct hK _ 1 (by decide)) (fun _ => refl _)))).trans (hdone _ _ _)

theorem keeperArm (ch : Chan) (target arg time : Nat) : Cycled K ch (ch.keeperArm target arg time) := by
  have hword : ∀ (c : Chan) (off v : Nat), off + 4 < 65536 → Cycled K c (c.put64 pgAct off v) := fun c off v ho =>
    (putLow hK c _ (by decide) (by omega)).trans (putLow hK _ _ (by decide) ho)
  unfold Chan.keeperArm
  exact ((hword ch _ _ (by decide)).trans (hword _ _ _ (by decide))).trans (arm hK _ _)

theorem armPmBin (ch : Chan) : Cycled K ch ch.armPmBin := by
  unfold Chan.armPmBin
  dsimp only
  split
  · exact refl ch
  · exact keeperArm hK ch _ _ _

/-- What the active keeper does in the cycle (R142, R254, R283, R359, R514). -/
theorem cycleWork (ch : Chan) (ptp : List (Nat × List Byte)) : Cycled K ch (ch.cycleWork ptp) := by
  have hrx : Cycled K ch { ch with ptpRxq := [] } := of_field rfl rfl rfl
  unfold Chan.cycleWork
  dsimp only
  refine (((((((hrx.trans (each (f := Chan.followUps) (ch.ports.map Prod.fst) (fun c p _ => followUps hK c p) _)).trans (each (f := fun c (e : Nat × List Byte) => c.keeperSends e.1 e.2) ptp
    (fun c e _ => keeperSends hK c e.1 e.2) _)).trans
    (journalSeconds hK _)).trans (repairPoison hK _)).trans (cfgRepairAll hK _)).trans (hbmCycle hK _)).trans ?_).trans (armPmBin hK _)
  split
  · exact (keeperArm hK _ _ _ _).trans (onHbm _ _)
  · exact refl _

end

end Cycled

end Sys2Proof.Machine
end

/-! The takeover and the Saucer link at a boundary (R91, R94, R100, R104). -/

section
set_option Elab.async false
namespace Sys2Proof.Machine

/-- CYCLE_IDX of a keeper. -/
def IndexKey (key : Nat) : Prop := key = 0x110 ∨ key = 0x2000110

theorem IndexKey.state {key : Nat} (h : IndexKey key) : StateKey key := by
  simp only [IndexKey, StateKey] at h ⊢
  omega

/-- A field of STATUS or CLAIM is not the index. -/
theorem not_indexKey (k : Nat) {off : Nat} (ho : off < 0x110) : ¬ IndexKey ((pgKeep k).key off) := fun h => by
  rw [pgKeep_key, IndexKey] at h
  split at h <;> omega

/-- Keeper `k` as it becomes active. -/
def Chan.taken (ch : Chan) (k : Nat) : Chan :=
  (((ch.putF (pgKeep k) KEEP.CLAIM_CLAIM ch.activeLevel).putF (pgKeep k) KEEP.CLAIM_FORCED 0).putF (pgKeep k) KEEP.STATUS_STATE 4).putF (pgKeep k)
    KEEP.STATUS_REGION_VALID 1

namespace Cycled

section
variable {K : Nat → Prop} (hK : ∀ key, K key → StateKey key)

theorem putRegion (ch : Chan) (k : Nat) (r : Region) : Cycled K ch (ch.putRegion k r) := by
  unfold Chan.putRegion
  split
  · exact of_field rfl rfl rfl
  · exact of_field rfl rfl rfl

theorem putKeeper (ch : Chan) (k : Nat) (x : Keeper) : Cycled K ch (ch.putKeeper k x) := by
  unfold Chan.putKeeper
  split
  · exact of_field rfl rfl rfl
  · exact of_field rfl rfl rfl

theorem onKeep (ch : Chan) (k : Nat) (f : Keeper → Keeper) : Cycled K ch (ch.onKeep k f) := putKeeper ch k _

theorem waits (ch : Chan) (x : List Nat) : Cycled K ch { ch with jrnlWait := x } := of_field rfl rfl rfl

include hK

theorem engSettle (ch : Chan) {e : Nat} (he : e < 256) : Cycled K ch (ch.engSettle e) := by
  have hput : ∀ (c : Chan) (v : Nat), Cycled K c (c.putF pgDisp ⟨DISP.ENG_RETIRED (e / 32), e % 32, e % 32⟩ v) := fun c v =>
    putLow hK c _ (by decide) (by simp only [DISP.ENG_RETIRED]; omega)
  unfold Chan.engSettle
  dsimp only
  refine ite (fun _ => ite (fun _ => refl ch) (fun _ => ?_)) (fun _ => ite (fun _ => ?_) (fun _ => refl ch))
  · exact ((hput ch 1).trans (raise hK _ _ 12)).trans (journal hK _ _ _ _ _)
  · exact (hput ch 0).trans (journal hK _ _ _ _ _)

/-- The registers that the active keeper owns are on the pages of Cosy and of the dispatcher. -/
theorem putKw (ch : Chan) {e : Pg × Nat} (h : e ∈ kwState) (v : Word) : Cycled K ch (ch.put e.1 e.2 v) := by
  have hpages : ∀ e ∈ kwState, e.1.die = 0 ∧ (0 < e.1.num ∧ e.1.num < 0x200) ∧ e.2 < 65536 := by decide
  obtain ⟨⟨die, n⟩, off⟩ := e
  obtain ⟨rfl, hn, ho⟩ := hpages _ h
  exact putLow hK ch v hn ho

/-- The new active keeper's registers (R94). -/
theorem reconcile (ch : Chan) (k : Nat) : Cycled K ch (ch.reconcile k) := by
  have hkw : Cycled K ch (ch.each (kwState.zip (ch.region k).kw) (fun c e => if c.get e.1.1 e.1.2 = e.2 then c else c.put e.1.1 e.1.2 e.2)) :=
    each (f := fun (c : Chan) (e : (Pg × Nat) × Word) => if c.get e.1.1 e.1.2 = e.2 then c else c.put e.1.1 e.1.2 e.2) _
      (fun c e he => ite (fun _ => refl c) (fun _ => putKw hK c (List.of_mem_zip he).1 _)) ch
  unfold Chan.reconcile
  dsimp only
  split
  · exact hkw
  · exact hkw.trans (each (f := Chan.engSettle) (List.range 256) (fun c e he => engSettle hK c (List.mem_range.1 he)) _)

/-- The entries that waited for an active keeper (R67). -/
theorem waited (k : Nat) (ch : Chan) (l : List Nat) : Cycled K ch (Chan.each { ch with jrnlWait := [] } l (fun c e => c.jrnlPut k e)) :=
  trans (waits ch []) (each (f := fun (c : Chan) e => c.jrnlPut k e) l (fun c e _ => jrnlPut hK c k e) _)

end

theorem putKeep (ch : Chan) (k : Nat) {off : Nat} (v : Word) (ho : off < 65536) (hs : off ≠ KEEP.STATUS) (hc : off ≠ KEEP.CLAIM) (hi : off ≠ KEEP.CYCLE_IDX) :
    Cycled StateKey ch (ch.put (pgKeep k) off v) := of_side (fun _ h => h) (Side.put ch k v ho hs hc hi)

/-- Keeper `k` is active, at the active level and with a valid region (R94, R104). -/
theorem becomeActive (ch : Chan) (k : Nat) : Cycled StateKey { ch.taken k with started := true } (ch.becomeActive k) := by
  have hK : ∀ key, StateKey key → StateKey key := fun _ h => h
  have hclaim : Side (ch.taken k) (((ch.raiseClaim k ch.activeLevel).setKstate k 4).putF (pgKeep k) KEEP.STATUS_REGION_VALID 1) :=
    Side.putF (((Side.putF (Side.setClaim ch k ch.activeLevel) k KEEP.CLAIM_FORCED 0).putF k KEEP.STATUS_STATE 4).trans (Side.setKstate _ k 4)) k
      KEEP.STATUS_REGION_VALID 1
  have hstart : ∀ {a b : Chan} (x y z : Nat), Cycled StateKey a b →
      Cycled StateKey { a with started := true } { b with started := true, lostReason := x, copyBad := y, lastAct := z } := fun x y z h =>
    ⟨h.regs, h.cycle, fun _ => rfl⟩
  have hfree : ∀ c : Chan, Cycled StateKey c c.takeFree := fun c => of_field rfl rfl rfl
  have hsync : ∀ (c : Chan) (j : Jrnl), Cycled StateKey c (c.syncJrnl j) := fun c j => of_quiet hK (.syncJrnl c j)
  unfold Chan.becomeActive
  dsimp only
  refine trans ?_ (waited hK k _ ch.jrnlWait)
  refine trans ?_ (hsync _ _)
  refine trans ?_ (ite (fun _ => ite (fun _ => refl _) (fun _ => jrnlPut hK _ k _)) (fun _ => (ite (fun _ => hfree _) (fun _ => refl _)).trans (jrnlPut hK _ k _)))
  refine trans ?_ (ite (fun _ => putRegion _ k _) (fun _ => ite (fun _ => jrnlCycle hK _ k) (fun _ => (jrnlCycle hK _ k).trans (reconcile hK _ k))))
  refine hstart _ _ _ ?_
  exact ((((of_side hK hclaim).trans (putKeep _ k (off := KEEP.TAKEOVER_CNT) _ (by decide) (by decide) (by decide) (by decide))).trans
    (putKeep _ k (off := KEEP.WDOG_MISSES.off) _ (by decide) (by decide) (by decide) (by decide))).trans (raise hK _ _ 8)).trans (onKeep _ k _)

end Cycled

end Sys2Proof.Machine
end

/-! The boundary (R83, R85): the count, the end and the index of the cycle. -/

section
set_option Elab.async false
namespace Sys2Proof.Machine

/-- A boundary up to the claims: the clock, the journal, the watchdogs, the copies and the claim levels (R85). -/
def Chan.judged (i : CycleIn) (ch : Chan) : Chan :=
  let c0 := ch.toBoundary
  let c1 := match c0.active with
    | some k => c0.jrnlCycle k
    | none => c0
  ((c1.watchdog 0 c0.cycIdx i.beatA).watchdog 1 c0.cycIdx i.beatB).commitAll.moveLevels

/-- Both KEEP pages show the index of the cycle that begins (R83). -/
def Chan.indexed (ch : Chan) : Chan :=
  ({ ch with cycIdx := ch.cycleIndex }.putN pgKeepA KEEP.CYCLE_IDX ch.cycleIndex).putN pgKeepB KEEP.CYCLE_IDX ch.cycleIndex

/-- The claims that rise, the waits for the partner, and the Saucer link (R91, R100, R104). -/
def Chan.claimed (ch : Chan) : Chan := ((ch.raiseClaims.countAbsent 0).countAbsent 1).saucerRule

theorem Chan.boundary_eq (i : CycleIn) (ch : Chan) :
    ch.boundary i = if (ch.judged i).indexed.claimed.active.isSome then (ch.judged i).indexed.claimed.cycleWork i.ptp else (ch.judged i).indexed.claimed := rfl

namespace Cycled

theorem putState (ch : Chan) (k : Nat) (f : Fld) (v : Nat) (ho : f.off < 0x110) : Cycled IndexKey ch (ch.putF (pgKeep k) f v) :=
  put ch _ _ _ (not_indexKey k ho)

theorem ofSide {a b : Chan} (h : Side a b) : Cycled IndexKey a b := of_side (fun _ => IndexKey.state) h

theorem taken (ch : Chan) (k : Nat) : Cycled IndexKey ch (ch.taken k) := by
  unfold Chan.taken
  exact (((putState ch k KEEP.CLAIM_CLAIM _ (by decide)).trans (putState _ k KEEP.CLAIM_FORCED 0 (by decide))).trans
    (putState _ k KEEP.STATUS_STATE 4 (by decide))).trans (putState _ k KEEP.STATUS_REGION_VALID 1 (by decide))

theorem start {K : Nat → Prop} (ch : Chan) : Cycled K ch { ch with started := true } := ⟨fun _ _ => rfl, rfl, fun _ => rfl⟩

theorem raiseClaims (ch : Chan) : Cycled IndexKey ch ch.raiseClaims := by
  have htake : ∀ k, Cycled IndexKey ch (ch.becomeActive k) := fun k =>
    trans (taken ch k) (trans (start (ch.taken k)) ((becomeActive ch k).mono (fun _ => IndexKey.state)))
  unfold Chan.raiseClaims
  exact ite (fun _ => htake 0) (fun _ => ite (fun _ => htake 1) (fun _ => refl ch))

theorem countAbsent {K : Nat → Prop} (ch : Chan) (k : Nat) : Cycled K ch (ch.countAbsent k) := onKeep ch k _

theorem dropRepair (ch : Chan) (k : Nat) : Cycled IndexKey ch ((ch.dropClaim k false 5).enterRepair k) := by
  have hrepairing : ∀ c : Chan, Cycled IndexKey c (c.repairing k) := fun c =>
    ((putKeeper c k _).trans (putState _ k KEEP.STATUS_STATE 5 (by decide))).trans (putState _ k KEEP.STATUS_RESYNC_DONE 0 (by decide))
  have hrepaired : ∀ c : Chan, Cycled IndexKey c (c.repaired k) := fun c => by
    unfold Chan.repaired
    exact ite (fun _ => ((hrepairing c).trans (putState _ k KEEP.CLAIM_CLAIM 0 (by decide))).trans (putState _ k KEEP.STATUS_STATE 6 (by decide)))
      (fun _ => hrepairing c)
  exact (((putState ch k KEEP.CLAIM_CLAIM 0 (by decide)).trans (ofSide (Side.dropClaim ch k 5))).trans (hrepaired _)).trans (ofSide (Side.enterRepair _ k))

theorem saucer {K : Nat → Prop} (ch : Chan) (n : Nat) : Cycled K ch { ch with saucerDown := n } := of_field rfl rfl rfl

theorem saucerRule (ch : Chan) : Cycled IndexKey ch ch.saucerRule := by
  have hK : ∀ key, IndexKey key → StateKey key := fun _ => IndexKey.state
  unfold Chan.saucerRule
  dsimp only
  refine ite (fun _ => saucer ch 0) (fun _ => ?_)
  split
  · refine trans (ite (fun _ => ?_) (fun _ => saucer ch _)) (ite (fun _ => journal hK _ _ _ _ _) (fun _ => refl _))
    exact ((saucer ch _).trans (dropRepair _ _)).trans (setDegraded hK _ _ true)
  · exact saucer ch _

theorem claimed (ch : Chan) : Cycled IndexKey ch ch.claimed :=
  (((raiseClaims ch).trans (countAbsent _ 0)).trans (countAbsent _ 1)).trans (saucerRule _)

end Cycled

/-- What a boundary leaves from its index on. -/
theorem Chan.boundary_indexed (i : CycleIn) (ch : Chan) : Cycled IndexKey (ch.judged i).indexed (ch.boundary i) := by
  rw [Chan.boundary_eq]
  exact .ite (fun _ => (Cycled.claimed _).trans (Cycled.cycleWork (fun _ => IndexKey.state) _ _)) (fun _ => Cycled.claimed _)

theorem Chan.cycleIndex_lt (ch : Chan) : ch.cycleIndex < 2 ^ 32 := by
  unfold Chan.cycleIndex
  dsimp only
  exact Nat.mod_lt _ (by norm_num)

/-- The index on both pages. -/
theorem Chan.indexed_shown (ch : Chan) : ch.indexed.cycIdx = ch.cycleIndex ∧ ∀ k : Fin 2, ch.indexed.nat (pgKeep k.val) KEEP.CYCLE_IDX = ch.cycleIndex := by
  refine ⟨rfl, fun k => ?_⟩
  have hword : (BitVec.ofNat 32 ch.cycleIndex).toNat = ch.cycleIndex := by
    rw [BitVec.toNat_ofNat, Nat.mod_eq_of_lt ch.cycleIndex_lt]
  rw [Chan.nat, ← hword]
  refine congrArg BitVec.toNat ?_
  obtain rfl | rfl : k = 0 ∨ k = 1 := by omega
  · exact (Chan.get_put_ne _ _ (by decide)).trans (Chan.get_put_same _ _ _ _)
  · exact Chan.get_put_same _ _ _ _

end Sys2Proof.Machine
end

/-! What the judgement of a cycle leaves (R85, R92, R98, R116). -/

section
set_option Elab.async false
namespace Sys2Proof.Machine

/-- STATUS, CLAIM or CYCLE_IDX of a keeper, or CLAIM_LEVEL. -/
def IdleKey (key : Nat) : Prop := StateKey key ∨ key = 0x108

/-- The watchdog writes the heartbeat and its misses, and reports a miss (R92). -/
theorem Chan.watchdog_spares (ch : Chan) (k idx : Nat) (beat : Bool) : Spares IdleKey id ch (ch.watchdog k idx beat) := by
  have hput : ∀ (c : Chan) {off : Nat} (v : Word), 0x110 < off → off < 65536 → Spares IdleKey id c (c.put (pgKeep k) off v) := fun c off v hlo hhi =>
    .put c _ off v (fun h => by
      rw [pgKeep_key] at h
      simp only [IdleKey, StateKey] at h
      split at h <;> omega)
  have hheader : ∀ key, IdleKey key → ¬ InHeader (pgKeep k) key := fun key h => by
    rw [InHeader, pgKeep_key, pgKeep_key]
    simp only [IdleKey, StateKey] at h
    split <;> omega
  have hjrnl : ∀ key, IdleKey key → key / 65536 ≠ pgJrnl.key 0 / 65536 := fun key h => by
    rw [show pgJrnl.key 0 / 65536 = 1 from rfl]
    simp only [IdleKey, StateKey] at h
    omega
  have hbeat : Spares IdleKey id ch (if beat && (ch.keeper k).ran then ch.putN (pgKeep k) KEEP.HEARTBEAT idx else ch) :=
    .ite (fun _ => hput ch (off := KEEP.HEARTBEAT) _ (by decide) (by decide)) (fun _ => .refl ch)
  have hmiss : ∀ (c : Chan) (n : Nat), Spares IdleKey id c (c.putF (pgKeep k) KEEP.WDOG_MISSES n) := fun c n =>
    hput c (off := KEEP.WDOG_MISSES.off) _ (by decide) (by decide)
  unfold Chan.watchdog
  dsimp only
  refine .ite (fun _ => hbeat.trans (hmiss _ 0)) (fun _ => .ite (fun _ => hbeat.trans (hmiss _ 0)) (fun _ => .ite (fun _ => hbeat) (fun _ => ?_)))
  exact ((hbeat.trans (hmiss _ _)).trans (.raise hheader _ 10)).trans (.journal hjrnl _ _ _ _ _)

namespace Cycled

/-- A write of any register, where none is named. -/
theorem put_any (ch : Chan) (p : Pg) (off : Nat) (v : Word) : Cycled (fun _ => False) ch (ch.put p off v) := put ch p off v id

theorem watchdog (ch : Chan) (k idx : Nat) (beat : Bool) : Cycled (fun _ => False) ch (ch.watchdog k idx beat) :=
  of_spares (ch.watchdog_spares k idx beat) (fun _ h => h.elim) (fun _ => ⟨rfl, rfl⟩)

theorem of_side_any {a b : Chan} (h : Side a b) : Cycled (fun _ => False) a b := of_side (fun _ h => h.elim) h

theorem copyCyc {K : Nat → Prop} (ch : Chan) (n : Nat) : Cycled K ch { ch with copyCyc := n } := of_field rfl rfl rfl

theorem inflight {K : Nat → Prop} (ch : Chan) (x : Option Region) : Cycled K ch { ch with inflight := x } := of_field rfl rfl rfl

theorem resyncDone (ch : Chan) (o : Nat) (r : Region) (fmt : Nat) : Cycled (fun _ => False) ch (ch.resyncDone o r fmt) := by
  have hstandby : ∀ (c : Chan) (v : Nat), Cycled (fun _ => False) c (((c.setKstate o 3).putF (pgKeep o) KEEP.WDOG_MISSES 0).raiseClaim o v) := fun c v =>
    ((((put_any c _ _ _).trans (of_side_any (Side.setKstate c o 3))).trans (put_any _ _ _ _)).trans
      ((put_any _ _ _ _).trans (of_side_any (Side.setClaim _ o v)))).trans (put_any _ _ _ _)
  unfold Chan.resyncDone
  dsimp only
  exact ((((putRegion ch o r).trans (onKeep _ o _)).trans (put_any _ _ _ _)).trans (put_any _ _ _ _)).trans (ite (fun _ => hstandby _ _) (fun _ => refl _))

theorem enterFailed (ch : Chan) (k result : Nat) : Cycled (fun _ => False) ch (ch.enterFailed k result) :=
  ((put_any ch _ _ _).trans (put_any _ _ _ _)).trans (of_side_any (Side.enterFailed ch k result))

/-- The partner of the active keeper (R98, R102). -/
theorem commit (ch : Chan) (k o : Nat) : Cycled (fun _ => False) ch (ch.commit k o) := by
  have hbase : Cycled (fun _ => False) ch { ch with inflight := none } := inflight ch none
  unfold Chan.commit
  dsimp only
  refine ite (fun _ => hbase) (fun _ => ite (fun _ => ?_) (fun _ => ite (fun _ => hbase) (fun _ => ite (fun _ => ite (fun _ => ?_) (fun _ => ?_)) (fun _ => ?_))))
  · split
    · exact trans hbase (trans (copyCyc _ _) (trans (putRegion _ o _) (onKeep _ o _)))
    · exact hbase
  · exact trans hbase (trans (onKeep _ o _) (trans (put_any _ _ _ _) (put_any _ _ _ _)))
  · exact trans hbase (trans (put_any _ _ _ _) (enterFailed _ o 8))
  · split
    · exact trans hbase (ite (fun _ => trans (copyCyc _ _) (resyncDone _ o _ _)) (fun _ => onKeep _ o _))
    · exact trans hbase (onKeep _ o _)

end Cycled

/-- The channel without its keepers, their regions, and the copy under way. -/
abbrev copyStrip (ch : Chan) : Chan := { ch with keepA := {}, keepB := {}, regA := {}, regB := {}, copyCyc := 0, inflight := none }

theorem Chan.onKeep_inflight (ch : Chan) (k : Nat) (f : Keeper → Keeper) : (ch.onKeep k f).inflight = ch.inflight := by
  unfold Chan.onKeep Chan.putKeeper
  split <;> rfl

/-- Without an active keeper no copy stays under way (R97, R98). -/
theorem Chan.commitAll_idle {ch : Chan} (h : ch.active = none) : Spares IdleKey copyStrip ch ch.commitAll ∧ ch.commitAll.inflight = none := by
  have hkeep : ∀ (c : Chan) (k : Nat) (f : Keeper → Keeper), Spares IdleKey copyStrip c (c.onKeep k f) := fun c k f => by
    unfold Chan.onKeep Chan.putKeeper
    split
    · exact .of_work rfl rfl rfl
    · exact .of_work rfl rfl rfl
  have hregion : ∀ (c : Chan) (k : Nat) (r : Region), Spares IdleKey copyStrip c (c.putRegion k r) := fun c k r => by
    unfold Chan.putRegion
    split
    · exact .of_work rfl rfl rfl
    · exact .of_work rfl rfl rfl
  have hcyc : ∀ (c : Chan) (n : Nat), Spares IdleKey copyStrip c { c with copyCyc := n } := fun c n => .of_work rfl rfl rfl
  have hflight : ∀ c : Chan, Spares IdleKey copyStrip c { c with inflight := none } := fun c => .of_work rfl rfl rfl
  unfold Chan.commitAll
  rw [h]
  dsimp only
  refine ⟨Spares.trans (Spares.trans (Spares.trans ?_ (hflight _)) (hkeep _ 0 _)) (hkeep _ 1 _), by rw [Chan.onKeep_inflight, Chan.onKeep_inflight]⟩
  split
  · exact .ite (fun _ => Spares.trans (hcyc _ _) (hregion _ _ _)) (fun _ => .refl ch)
  · exact .refl ch

/-- The channel without its keepers, what a gate discards, and the claim levels. -/
abbrev levelStrip (ch : Chan) : Chan := { ch with keepA := {}, keepB := {}, karmBy := 0, levels := 0 }

/-- STATUS of a keeper. -/
def StatusKey (key : Nat) : Prop := key = 0x100 ∨ key = 0x2000100

theorem Chan.discardStaged_spares (ch : Chan) (k : Nat) : Spares StatusKey levelStrip ch (ch.discardStaged k) := by
  have hkeeper : ∀ (c : Chan) (x : Keeper), Spares StatusKey levelStrip c (c.putKeeper k x) := fun c x => by
    unfold Chan.putKeeper
    split
    · exact .of_work rfl rfl rfl
    · exact .of_work rfl rfl rfl
  have hact : ∀ (c : Chan) (off : Nat) (v : Word), off < 65536 → Spares StatusKey levelStrip c (c.put pgAct off v) := fun c off v ho =>
    .put c _ off v (fun h => by
      simp only [StatusKey, Pg.key] at h
      norm_num at h
      omega)
  have hzero : ∀ c : Chan, Spares StatusKey levelStrip c (c.putList pgAct 0x130 [0, 0, 0, 0, 0]) := fun c =>
    ((((hact c _ _ (by decide)).trans (hact _ _ _ (by decide))).trans (hact _ _ _ (by decide))).trans (hact _ _ _ (by decide))).trans (hact _ _ _ (by decide))
  have hkarm : ∀ (c : Chan), Spares StatusKey levelStrip c { c with karmBy := 0 } := fun c => .of_work rfl rfl rfl
  have hcount : ∀ (c : Chan) (n : Nat), Spares StatusKey levelStrip c (c.inc (pgKeep k) KEEP.GATE_REJ_CNT n) := fun c n =>
    .put c _ _ _ (fun h => by
      rw [pgKeep_key, StatusKey] at h
      simp only [KEEP.GATE_REJ_CNT] at h
      split at h <;> omega)
  have hheader : ∀ key, StatusKey key → ¬ InHeader (pgKeep k) key := fun key h => by
    rw [InHeader, pgKeep_key, pgKeep_key]
    simp only [StatusKey] at h
    split <;> omega
  unfold Chan.discardStaged
  dsimp only
  refine Spares.trans (Spares.trans (hkeeper ch _) (.ite (fun _ => Spares.trans (hzero _) (hkarm _)) (fun _ => .refl _))) (.ite (fun _ => .refl _) (fun _ => ?_))
  exact Spares.trans (hcount _ _) (.raise hheader _ 12)

/-- New claim levels reach the claims alone (R116). -/
theorem Chan.moveLevels_spares (ch : Chan) : Spares StatusKey levelStrip ch ch.moveLevels := by
  have hlevels : ∀ n, Spares StatusKey levelStrip ch { ch with levels := n } := fun n => .of_work rfl rfl rfl
  have hclaims : ∀ (c : Chan) (v w : Nat), Spares StatusKey levelStrip c ((c.putF pgKeepA KEEP.CLAIM_CLAIM v).putF pgKeepB KEEP.CLAIM_CLAIM w) := fun c v w =>
    Spares.trans (.put c _ _ _ (by unfold StatusKey; decide)) (.put _ _ _ _ (by unfold StatusKey; decide))
  unfold Chan.moveLevels Chan.withGate
  dsimp only
  refine .ite (fun _ => .refl ch) (fun _ => ?_)
  split
  · exact Spares.trans (hlevels _) (Spares.trans (hclaims _ _ _) (.ite (fun _ => .refl _) (fun _ => Chan.discardStaged_spares _ _)))
  · exact Spares.trans (hlevels _) (hclaims _ _ _)

namespace Cycled

theorem commitAll (ch : Chan) : Cycled (fun _ => False) ch ch.commitAll := by
  cases h : ch.active with
  | none => exact of_spares (Chan.commitAll_idle h).1 (fun _ h => h.elim) (fun _ => ⟨rfl, rfl⟩)
  | some k =>
    unfold Chan.commitAll
    rw [h]
    exact commit ch k (1 - k)

theorem moveLevels (ch : Chan) : Cycled (fun _ => False) ch ch.moveLevels := of_spares ch.moveLevels_spares (fun _ h => h.elim) (fun _ => ⟨rfl, rfl⟩)

end Cycled

/-- The clock runs to the boundary (R82, R84). -/
theorem Chan.toBoundary_runs (ch : Chan) : ∃ (x : Chan) (n : Nat), Ticks ch x ∧ ch.bnd ≤ n ∧
    ch.toBoundary = { x with bnd := n, cycAt := x.ns, cycNo := x.cycNo + 1 } := by
  have hceil : ∀ m : Nat, ch.bnd ≤ max (ceilDiv ch.bnd 250000) m * 250000 + 1 := fun m => by
    have hmax := Nat.mul_le_mul_right 250000 (le_max_left (ceilDiv ch.bnd 250000) m)
    unfold ceilDiv at hmax ⊢
    omega
  refine ⟨_, _, ?_, hceil _, rfl⟩
  split
  · exact .runTo ch _
  · exact .runNet ch _

/-- The count and the end of the cycle after its judgement. -/
theorem Chan.judged_cycle (i : CycleIn) (ch : Chan) : (ch.judged i).cycNo = ch.cycNo + 1 ∧ ch.bnd ≤ (ch.judged i).bnd := by
  obtain ⟨x, n, hticks, hn, hto⟩ := ch.toBoundary_runs
  have hno : x.cycNo = ch.cycNo := by
    have h := congrArg (fun y : Chan => y.cycNo) hticks.work
    exact h
  have hopen : Cycled (fun _ => False) ch.toBoundary (match ch.toBoundary.active with
      | some k => ch.toBoundary.jrnlCycle k
      | none => ch.toBoundary) := by
    split
    · exact .jrnlCycle (fun _ h => h.elim) _ _
    · exact .refl _
  have hall : Cycled (fun _ => False) ch.toBoundary (ch.judged i) :=
    (((hopen.trans (.watchdog _ 0 _ i.beatA)).trans (.watchdog _ 1 _ i.beatB)).trans (.commitAll _)).trans (.moveLevels _)
  have hcycle := hall.cycle
  rw [hto] at hcycle
  obtain ⟨hcount, hrest⟩ := Prod.mk.inj hcycle
  obtain ⟨hend, -⟩ := Prod.mk.inj hrest
  exact ⟨hcount.trans (congrArg (· + 1) hno), hn.trans hend.ge⟩

end Sys2Proof.Machine
end

/-! A boundary that finds no active keeper (R83, R91, R94). -/

section
set_option Elab.async false
namespace Sys2Proof.Machine

/-- A boundary up to the claim levels. -/
def Chan.committed (i : CycleIn) (ch : Chan) : Chan :=
  let c0 := ch.toBoundary
  let c1 := match c0.active with
    | some k => c0.jrnlCycle k
    | none => c0
  ((c1.watchdog 0 c0.cycIdx i.beatA).watchdog 1 c0.cycIdx i.beatB).commitAll

theorem Chan.judged_eq (i : CycleIn) (ch : Chan) : ch.judged i = (ch.committed i).moveLevels := rfl

theorem Chan.getF_of_reg {a b : Chan} {p : Pg} {f : Fld} (h : rget chanReset b.regs (p.key f.off) = rget chanReset a.regs (p.key f.off)) : b.getF p f = a.getF p f :=
  congrArg (fun w : Word => fld w f.hi f.lo) h

theorem Chan.kstate_regs {a b : Chan} (h : ∀ key, StatusKey key → rget chanReset b.regs key = rget chanReset a.regs key) (k : Nat) : b.kstate k = a.kstate k :=
  Chan.getF_of_reg (h _ (by rw [pgKeep_key, StatusKey]; simp only; split <;> omega))

theorem Chan.claim_regs {a b : Chan} (h : ∀ key, StateKey key → rget chanReset b.regs key = rget chanReset a.regs key) (k : Nat) : b.claim k = a.claim k :=
  Chan.getF_of_reg (h _ (Side.stateKey (.inr rfl)))

theorem StatusKey.state {key : Nat} (h : StatusKey key) : StateKey key := by
  simp only [StatusKey, StateKey] at h ⊢
  omega

/-- The registers of the keepers that the clock leaves. -/
theorem IdleKey.not_clock {key : Nat} (h : IdleKey key) (ch : Chan) : ¬ ClockKey ch key := by
  rintro (⟨-, hreg⟩ | ⟨g, hg, he⟩)
  · simp only [CountReg, oCAUSE, oFIRST, oOVF] at hreg
    simp only [IdleKey, StateKey] at h
    omega
  · simp only [SLOT.IDLE_BLK, Pg.key] at he
    norm_num at he
    simp only [IdleKey, StateKey] at h
    omega

theorem Chan.active_none {ch : Chan} (h : ∀ k : Fin 2, ch.kstate k.val ≠ 4) : ch.active = none := by
  have h0 : ch.getF pgKeepA KEEP.STATUS_STATE ≠ 4 := h 0
  have h1 : ch.getF pgKeepB KEEP.STATUS_STATE ≠ 4 := h 1
  rw [Chan.active, if_neg h0, if_neg h1]

/-- Without an active keeper the judgement leaves states, claims and levels, and no copy under way. -/
theorem Chan.committed_idle (i : CycleIn) {ch : Chan} (h : ∀ k : Fin 2, ch.kstate k.val ≠ 4) :
    (∀ key, IdleKey key → rget chanReset (ch.committed i).regs key = rget chanReset ch.regs key) ∧ (ch.committed i).levels = ch.levels ∧
      (ch.committed i).inflight = none := by
  obtain ⟨x, n, hticks, -, hto⟩ := ch.toBoundary_runs
  have hopen : ∀ key, IdleKey key → rget chanReset ch.toBoundary.regs key = rget chanReset ch.regs key := fun key hkey => by
    rw [hto]
    exact hticks.regs key (hkey.not_clock ch)
  have hlevels : ch.toBoundary.levels = ch.levels := by
    rw [hto]
    have hwork := congrArg (fun y : Chan => y.levels) hticks.work
    exact hwork
  have hdogs := (ch.toBoundary.watchdog_spares 0 ch.toBoundary.cycIdx i.beatA).trans
    (Chan.watchdog_spares _ 1 ch.toBoundary.cycIdx i.beatB)
  have hregs : ∀ key, IdleKey key → rget chanReset ((ch.toBoundary.watchdog 0 ch.toBoundary.cycIdx i.beatA).watchdog 1 ch.toBoundary.cycIdx i.beatB).regs key =
      rget chanReset ch.regs key := fun key hkey => (hdogs.regs key hkey).trans (hopen key hkey)
  have hdoglevels := congrArg (fun y : Chan => y.levels) hdogs.work
  have hnone : ch.toBoundary.active = none := Chan.active_none (fun k => by
    rw [Chan.kstate_regs (fun key hkey => hopen key (.inl hkey.state)) k.val]
    exact h k)
  obtain ⟨hcommit, hflight⟩ := Chan.commitAll_idle (Chan.active_none (fun k : Fin 2 => by
    rw [Chan.kstate_regs (fun key hkey => hregs key (.inl hkey.state)) k.val]
    exact h k))
  have hcommitlevels := congrArg (fun y : Chan => y.levels) hcommit.work
  have heq : ch.committed i = ((ch.toBoundary.watchdog 0 ch.toBoundary.cycIdx i.beatA).watchdog 1 ch.toBoundary.cycIdx i.beatB).commitAll := by
    unfold Chan.committed
    dsimp only
    rw [hnone]
  rw [heq]
  exact ⟨fun key hkey => (hcommit.regs key hkey).trans (hregs key hkey), hcommitlevels.trans (hdoglevels.trans hlevels), hflight⟩

/-- The index on the pages leaves every other register. -/
theorem Chan.indexed_regs (ch : Chan) {key : Nat} (h : ¬ IndexKey key) : rget chanReset ch.indexed.regs key = rget chanReset ch.regs key :=
  (Chan.rget_put_ne _ _ (fun e => h (.inr (e.trans rfl)))).trans (Chan.rget_put_ne _ _ (fun e => h (.inl (e.trans rfl))))

theorem Chan.raiseClaims_idle {ch : Chan} (h : ∀ k : Fin 2, ch.kstate k.val ≠ 3) : ch.raiseClaims = ch := by
  have hno : ∀ k : Fin 2, ch.mayRaise k.val = false := fun k => by
    have hstate := h k
    simp [Chan.mayRaise, hstate]
  unfold Chan.raiseClaims
  have h0 : ch.mayRaise 0 = false := hno 0
  have h1 : ch.mayRaise 1 = false := hno 1
  rw [h0, h1]
  rfl

theorem Chan.countAbsent_kept (ch : Chan) (k : Nat) : (ch.countAbsent k).regs = ch.regs ∧ (ch.countAbsent k).ns = ch.ns ∧ (ch.countAbsent k).time = ch.time ∧
    (ch.countAbsent k).inflight = ch.inflight := by
  unfold Chan.countAbsent Chan.onKeep Chan.putKeeper
  split
  · exact ⟨rfl, rfl, rfl, rfl⟩
  · exact ⟨rfl, rfl, rfl, rfl⟩

/-- A boundary that leaves the channel without an active keeper: the waits for the partner are counted, and how long the Saucer link is down. -/
theorem Chan.boundary_idle (i : CycleIn) {ch : Chan} (h : ∀ k : Fin 2, ch.kstate k.val ≠ 3 ∧ ch.kstate k.val ≠ 4) :
    (ch.boundary i).regs = (ch.judged i).indexed.regs ∧ (ch.boundary i).ns = (ch.judged i).ns ∧ (ch.boundary i).time = (ch.judged i).time ∧
      (ch.boundary i).inflight = none := by
  obtain ⟨hregs, -, hflight⟩ := ch.committed_idle i (fun k => (h k).2)
  have hmove := (ch.committed i).moveLevels_spares
  have hjudged : ∀ k, (ch.judged i).kstate k = ch.kstate k := fun k =>
    (Chan.kstate_regs hmove.regs k).trans (Chan.kstate_regs (fun key hkey => hregs key (.inl hkey.state)) k)
  have hindexed : ∀ k, (ch.judged i).indexed.kstate k = ch.kstate k := fun k =>
    (Chan.kstate_regs (fun key hkey => Chan.indexed_regs _ (fun hi => by simp only [StatusKey, IndexKey] at hkey hi; omega)) k).trans (hjudged k)
  have hcount : ∀ (c : Chan) (j k : Nat), (c.countAbsent j).kstate k = c.kstate k := fun c j k => Chan.onKeep_getF c j _ k _
  have hnone : (((ch.judged i).indexed.countAbsent 0).countAbsent 1).active = none := Chan.active_none (fun k => by
    rw [hcount, hcount, hindexed]
    exact (h k).2)
  have hclaimed : ∃ n, (ch.judged i).indexed.claimed = { ((ch.judged i).indexed.countAbsent 0).countAbsent 1 with saucerDown := n } := by
    unfold Chan.claimed
    rw [Chan.raiseClaims_idle (fun k => by rw [hindexed]; exact (h k).1)]
    generalize ((ch.judged i).indexed.countAbsent 0).countAbsent 1 = c at hnone
    unfold Chan.saucerRule
    rw [hnone]
    dsimp only
    split
    · exact ⟨0, rfl⟩
    · exact ⟨_, rfl⟩
  obtain ⟨n, hn⟩ := hclaimed
  have heq : ch.boundary i = { ((ch.judged i).indexed.countAbsent 0).countAbsent 1 with saucerDown := n } := by
    rw [Chan.boundary_eq, hn]
    exact if_neg (by rw [show Chan.active { ((ch.judged i).indexed.countAbsent 0).countAbsent 1 with saucerDown := n } = _ from hnone]; decide)
  have hkept := congrArg (fun y : Chan => y.inflight) hmove.work
  have hjudgedflight : (ch.judged i).inflight = none := hkept.trans hflight
  rw [heq]
  generalize ch.judged i = x at hjudgedflight
  obtain ⟨hregs0, hns0, htime0, hflight0⟩ := x.indexed.countAbsent_kept 0
  obtain ⟨hregs1, hns1, htime1, hflight1⟩ := (x.indexed.countAbsent 0).countAbsent_kept 1
  exact ⟨hregs1.trans hregs0, hns1.trans hns0, htime1.trans htime0, hflight1.trans (hflight0.trans hjudgedflight)⟩

end Sys2Proof.Machine
end

/-! A takeover at a boundary (R91, R94). -/

section
set_option Elab.async false
namespace Sys2Proof.Machine

/-- A write of a register of one keeper leaves the other's. -/
theorem Chan.getF_putF_partner (ch : Chan) (k : Fin 2) {f g : Fld} (v : Nat) (hf : f.off < 65536) (hg : g.off < 65536) :
    (ch.putF (pgKeep k.val) f v).getF (pgKeep (1 - k.val)) g = ch.getF (pgKeep (1 - k.val)) g := by
  rw [Chan.getF, Chan.getF, Chan.putF, Chan.get_put_ne]
  rw [pgKeep_key, pgKeep_key]
  have hk := k.isLt
  split <;> split <;> omega

/-- The keeper that takes over, and its partner. -/
theorem Chan.taken_state (ch : Chan) (k : Fin 2) : (ch.taken k.val).kstate k.val = 4 ∧ (ch.taken k.val).claim k.val = ch.activeLevel ∧
    (ch.taken k.val).kstate (1 - k.val) = ch.kstate (1 - k.val) := by
  have hlevel : ch.activeLevel % 2 ^ 8 = ch.activeLevel := Nat.mod_eq_of_lt (Nat.mod_lt _ (by norm_num))
  refine ⟨?_, ?_, ?_⟩
  · exact (Chan.getF_putF_keep (f := KEEP.STATUS_REGION_VALID) (g := KEEP.STATUS_STATE) _ k.val 1 rfl (by decide) (by decide) (by decide)).trans
      (Chan.getF_putF_same _ _ KEEP.STATUS_STATE 4 (by decide) (by decide))
  · refine (Chan.getF_putF_reg (f := KEEP.STATUS_REGION_VALID) (g := KEEP.CLAIM_CLAIM) _ k.val 1 (by decide)).trans
      ((Chan.getF_putF_reg (f := KEEP.STATUS_STATE) (g := KEEP.CLAIM_CLAIM) _ k.val 4 (by decide)).trans
        ((Chan.getF_putF_keep (f := KEEP.CLAIM_FORCED) (g := KEEP.CLAIM_CLAIM) _ k.val 0 rfl (by decide) (by decide) (by decide)).trans ?_))
    exact (Chan.getF_putF_same _ _ KEEP.CLAIM_CLAIM _ (by decide) (by decide)).trans hlevel
  · exact (Chan.getF_putF_partner _ k _ (by decide) (by decide)).trans ((Chan.getF_putF_partner _ k _ (by decide) (by decide)).trans
      ((Chan.getF_putF_partner _ k _ (by decide) (by decide)).trans (Chan.getF_putF_partner _ k _ (by decide) (by decide))))

theorem Cycled.state {a b : Chan} (h : Cycled StateKey a b) (k : Nat) : b.kstate k = a.kstate k ∧ b.claim k = a.claim k :=
  ⟨Chan.kstate_regs (fun key hkey => h.regs key hkey.state) k, Chan.claim_regs h.regs k⟩

theorem Cycled.state_of_start {a b : Chan} (h : Cycled StateKey { a with started := true } b) :
    (∀ k, b.kstate k = a.kstate k ∧ b.claim k = a.claim k) ∧ b.started = true := ⟨h.state, h.started rfl⟩

/-- Only a standby partner drops its claim at the Saucer link's failure (R100). -/
theorem Cycled.saucerRule_partner {ch : Chan} (h : ∀ k, ch.active = some k → ch.kstate (1 - k) ≠ 3) : Cycled StateKey ch ch.saucerRule := by
  unfold Chan.saucerRule
  dsimp only
  refine ite (fun _ => saucer ch 0) (fun _ => ?_)
  split
  next k hact =>
    rw [if_neg (fun hc : 1 ≤ ch.saucerDown ∧ ch.kstate (1 - k) = 3 => h k hact hc.2)]
    exact trans (saucer ch _) (ite (fun _ => journal (fun _ h => h) _ _ _ _ _) (fun _ => refl _))
  next => exact saucer ch _

theorem Chan.active_some {ch : Chan} {k : Nat} (h : ch.active = some k) : k < 2 ∧ ch.kstate k = 4 := by
  unfold Chan.active at h
  split at h
  next hstate =>
    cases h
    exact ⟨by decide, hstate⟩
  next =>
    split at h
    next hstate =>
      cases h
      exact ⟨by decide, hstate⟩
    next => cases h

section
variable {ch : Chan} {k : Fin 2} (hpartner : ch.kstate (1 - k.val) ≠ 3 ∧ ch.kstate (1 - k.val) ≠ 4) (hstate : ch.kstate k.val = 3)
include hpartner hstate

/-- A keeper that may rise becomes active, and does the work of the cycle. -/
theorem Chan.claimed_takes (hraise : ch.mayRaise k.val = true) : Cycled StateKey { ch.taken k.val with started := true } ch.claimed := by
  have hrise : ch.raiseClaims = ch.becomeActive k.val := by
    unfold Chan.raiseClaims
    obtain rfl | rfl : k = 0 ∨ k = 1 := by omega
    · exact if_pos hraise
    · have hno : ch.mayRaise 0 = false := by
        have hzero : ch.kstate 0 ≠ 3 := hpartner.1
        simp [Chan.mayRaise, hzero]
      rw [hno]
      exact if_pos hraise
  have htaken := Cycled.becomeActive ch k.val
  have hcount : Cycled StateKey { ch.taken k.val with started := true } ((ch.raiseClaims.countAbsent 0).countAbsent 1) := by
    rw [hrise]
    exact (htaken.trans (Cycled.countAbsent _ 0)).trans (Cycled.countAbsent _ 1)
  refine hcount.trans (Cycled.saucerRule_partner (fun j hact => ?_))
  obtain ⟨hj, hactive⟩ := Chan.active_some hact
  have hother : ∀ l, ((ch.raiseClaims.countAbsent 0).countAbsent 1).kstate l = (ch.taken k.val).kstate l := fun l => (hcount.state_of_start.1 l).1
  rw [hother] at hactive
  rw [hother]
  have hjk : j = k.val := by
    by_contra hne
    rw [show j = 1 - k.val by omega, (ch.taken_state k).2.2] at hactive
    exact hpartner.2 hactive
  rw [hjk, (ch.taken_state k).2.2]
  exact hpartner.1

end

/-- A standby keeper at the standby level, whose partner presents less and does not run, takes over at the boundary. -/
theorem Chan.boundary_takes (i : CycleIn) {ch : Chan} {k : Fin 2} (hpartner : ch.kstate (1 - k.val) ≠ 3 ∧ ch.kstate (1 - k.val) ≠ 4) (hstate : ch.kstate k.val = 3)
    (hlevel : ch.claim k.val = ch.stbyLevel) (hne : ch.claim k.val ≠ 0) (hless : ch.claim (1 - k.val) < ch.claim k.val)
    (hword : ch.nat pgKeepA KEEP.CLAIM_LEVEL = ch.levels) (hlt : ch.levels < 65536) :
    (ch.boundary i).kstate k.val = 4 ∧ (ch.boundary i).claim k.val = ch.activeLevel ∧ (ch.boundary i).started = true := by
  have hidle : ∀ j : Fin 2, ch.kstate j.val ≠ 4 := fun j => by
    obtain hj | hj : j.val = k.val ∨ j.val = 1 - k.val := by omega
    · rw [hj, hstate]
      decide
    · rw [hj]
      exact hpartner.2
  obtain ⟨hregs, hlevels, -⟩ := ch.committed_idle i hidle
  have hstays : ch.judged i = ch.committed i := by
    rw [Chan.judged_eq]
    refine if_pos ?_
    have hcommitted : (ch.committed i).nat pgKeepA KEEP.CLAIM_LEVEL = ch.nat pgKeepA KEEP.CLAIM_LEVEL := congrArg BitVec.toNat (hregs _ (.inr rfl))
    rw [hcommitted, hword, hlevels, Nat.mod_eq_of_lt hlt]
  obtain ⟨x, hx⟩ : ∃ x, x = (ch.judged i).indexed := ⟨_, rfl⟩
  have hkept : ∀ j, x.kstate j = ch.kstate j ∧ x.claim j = ch.claim j := fun j => by
    rw [hx, hstays]
    refine ⟨Chan.kstate_regs (fun key hkey => ?_) j, Chan.getF_of_reg ?_⟩
    · exact (Chan.indexed_regs _ (fun hi => by simp only [StatusKey, IndexKey] at hkey hi; omega)).trans (hregs key (.inl hkey.state))
    · exact (Chan.indexed_regs _ (not_indexKey j (by decide))).trans (hregs _ (.inl (Side.stateKey (.inr rfl))))
  have hxlevels : x.levels = ch.levels := by
    rw [hx, hstays]
    exact hlevels
  have hraise : x.mayRaise k.val = true := by
    have hstby : x.stbyLevel = ch.stbyLevel := congrArg (· % 256) hxlevels
    unfold Chan.mayRaise
    rw [(hkept _).1, (hkept _).2, (hkept _).2, hstby, hstate, ← hlevel]
    simp [hne, hless]
  have htakes : Cycled StateKey { x.taken k.val with started := true } (ch.boundary i) := by
    have hclaimed := Chan.claimed_takes (by rw [(hkept _).1]; exact hpartner) ((hkept _).1.trans hstate) hraise
    rw [Chan.boundary_eq, ← hx]
    exact .ite (fun _ => hclaimed.trans (Cycled.cycleWork (fun _ h => h) _ _)) (fun _ => hclaimed)
  obtain ⟨hrun, hclaim, -⟩ := x.taken_state k
  have hactive : x.activeLevel = ch.activeLevel := congrArg (fun n : Nat => n / 256 % 256) hxlevels
  obtain ⟨hends, hstarted⟩ := htakes.state_of_start
  exact ⟨(hends _).1.trans hrun, (hends _).2.trans (hclaim.trans hactive), hstarted⟩

end Sys2Proof.Machine
end

/-! The copy point and the Saucer link (R98–R100). -/

section
set_option Elab.async false
namespace Sys2Proof.Machine

theorem Ticks.region {a b : Chan} (h : Ticks a b) (k : Nat) : b.region k = a.region k := by
  have hA := congrArg (fun x : Chan => x.regA) h.work
  have hB := congrArg (fun x : Chan => x.regB) h.work
  unfold Chan.region
  split
  · exact hA
  · exact hB

/-- The clock leaves what the active keeper copies (R94, R98). -/
theorem Ticks.copied {a b : Chan} (h : Ticks a b) (k : Nat) : b.copied k = a.copied k := by
  have hpages : ∀ e ∈ kwState, 0x100 ≤ e.2 ∧ e.2 < 65536 ∧ e.1.die = 0 ∧ e.1.num < 0x1F := by decide
  have hkw : kwState.map (fun e => b.get e.1 e.2) = kwState.map (fun e => a.get e.1 e.2) := by
    refine List.map_congr_left (fun e he => h.get (fun ch hk => ?_))
    obtain ⟨hlo, hhi, hdie, hnum⟩ := hpages e he
    have hkey : ∃ j < 0x20, e.1.key e.2 = 65536 * j + e.2 := by
      simp only [Pg.key, hdie]
      split
      · omega
      · exact ⟨e.1.num, by omega, by omega⟩
    obtain ⟨j, hj, hkey⟩ := hkey
    rw [hkey] at hk
    rcases hk with ⟨-, hreg⟩ | ⟨g, hg, he⟩
    · simp only [CountReg, oCAUSE, oFIRST, oOVF] at hreg
      omega
    · simp only [SLOT.IDLE_BLK, Pg.key] at he
      norm_num at he
      omega
  unfold Chan.copied
  rw [h.region, hkw]

/-- A copy that fails (R98). -/
theorem Chan.copyFail_fields (ch : Chan) (k o : Nat) : (ch.copyFail k o).inflight = none ∧ (ch.copyFail k o).copyBad = ch.copyBad + 1 := by
  have hcount : ∀ x : Chan, Spares (fun _ => False) id x (((x.inc (pgKeep o) KEEP.COPY_FAIL_CNT).raise (pgKeep o) 11).journal (pgKeep k) clsCorrected 4
      (ch.nat (pgKeep k) KEEP.CYCLE_IDX)) := fun x =>
    ((Spares.put x _ _ _ id).trans (.raise (fun _ h => h.elim) _ 11)).trans (.journal (fun _ h => h.elim) _ _ _ _ _)
  have hwork := (hcount { ch with inflight := none, copyBad := ch.copyBad + 1 }).work
  have hflight := congrArg (fun x : Chan => x.inflight) hwork
  have hbad := congrArg (fun x : Chan => x.copyBad) hwork
  exact ⟨hflight, hbad⟩

/-- The partner takes copies (R98). -/
theorem Chan.takesCopies {ch : Chan} {o : Nat} (hup : ch.saucerUp = true) (hstate : ch.kstate o = 3) :
    ¬ (ch.saucerUp = false ∨ ¬ (ch.kstate o = 3 ∨ (ch.kstate o = 2 ∧ (ch.keeper o).resync = true))) := by
  simp [hup, hstate]

section
variable {ch : Chan} {k : Nat} (hact : ch.active = some k) (hup : ch.saucerUp = true) (hstate : ch.kstate (1 - k) = 3)
include hact hup hstate

/-- A transfer that comes through (R98). -/
theorem Chan.copyPoint_sent {bad : Nat} (h : bad = 0 ∨ (bad = 1 ∧ ch.saucerNarrow = false)) : ch.copyPoint false bad =
    { { ch.runTo (ch.cycAt + 170000) with cpCyc := ch.cycNo } with
      inflight := some (Chan.copied { ch.runTo (ch.cycAt + 170000) with cpCyc := ch.cycNo } k), inflightTo := 1 - k, copyBad := 0,
      inflightEnd := (ch.runTo (ch.cycAt + 170000)).ns + copyNs * (1 + bad) } := by
  have hgood : ¬ (2 ≤ bad ∨ (bad = 1 ∧ ch.saucerNarrow = true)) := by
    rcases h with rfl | ⟨rfl, hn⟩
    · simp
    · simp [hn]
  have hrun := Chan.takesCopies hup hstate
  unfold Chan.copyPoint
  rw [hact]
  exact (if_neg hrun).trans ((if_neg Bool.false_ne_true).trans (if_neg hgood))

theorem Chan.copyPoint_failed {bad : Nat} (h : 2 ≤ bad ∨ (bad = 1 ∧ ch.saucerNarrow = true)) :
    ch.copyPoint false bad = Chan.copyFail { ch.runTo (ch.cycAt + 170000) with cpCyc := ch.cycNo } k (1 - k) := by
  have hrun := Chan.takesCopies hup hstate
  unfold Chan.copyPoint
  rw [hact]
  exact (if_neg hrun).trans ((if_neg Bool.false_ne_true).trans (if_pos h))

theorem Chan.copyPoint_tooBig (hresync : (ch.keeper (1 - k)).resync = false) (bad : Nat) : ch.copyPoint true bad =
    ((Chan.onKeep { ch.runTo (ch.cycAt + 170000) with cpCyc := ch.cycNo } (1 - k) (fun x => { x with resync := true, chunks := 0 })).putF (pgKeep (1 - k))
      KEEP.STATUS_RESYNC_DONE 0).putF (pgKeep (1 - k)) KEEP.STATUS_REGION_VALID 0 := by
  have hrun := Chan.takesCopies hup hstate
  unfold Chan.copyPoint
  rw [hact]
  exact (if_neg hrun).trans ((if_pos rfl).trans (if_pos ⟨hstate, hresync⟩))

end

/-- The Saucer link that comes up (R100). -/
theorem Chan.saucerSet_up (ch : Chan) (k : Fin 2) : (ch.saucerSet true).getB (pgKeep k.val) KEEP.STATUS_SAUCER_UP = true := by
  have hone : ∀ (d : Chan) (p : Pg), (d.putF p KEEP.STATUS_SAUCER_UP 1).getF p KEEP.STATUS_SAUCER_UP = 1 := fun d p =>
    Chan.getF_putF_same d p _ 1 (by decide) (by decide)
  have hboth : ((ch.putF pgKeepA KEEP.STATUS_SAUCER_UP 1).putF pgKeepB KEEP.STATUS_SAUCER_UP 1).getF (pgKeep k.val) KEEP.STATUS_SAUCER_UP = 1 := by
    obtain rfl | rfl : k = 0 ∨ k = 1 := by omega
    · exact (Chan.getF_putF_partner _ 1 (f := KEEP.STATUS_SAUCER_UP) (g := KEEP.STATUS_SAUCER_UP) 1 (by decide) (by decide)).trans (hone ch pgKeepA)
    · exact hone _ pgKeepB
  exact congrArg (fun n => decide (n ≠ 0)) hboth

theorem Chan.keepClear_kept (ch : Chan) (k j : Nat) {f : Fld} (hlo : 0x100 ≤ f.off) (hhi : f.off < 65536) :
    (ch.keepClear k).getB (pgKeep j) f = ch.getB (pgKeep j) f ∧ (ch.keepClear k).saucerDown = ch.saucerDown := by
  unfold Chan.keepClear
  split
  · exact ⟨rfl, rfl⟩
  · refine ⟨?_, rfl⟩
    rw [Chan.getB, Chan.getB, Chan.getF, Chan.getF, Chan.putF, Chan.get_put_ne]
    rw [pgKeep_key, pgKeep_key]
    simp only
    split <;> split <;> omega

end Sys2Proof.Machine
end

/-! The keeper boundary, takeover and state copy. -/

section
set_option Elab.async false
namespace Sys2Proof.Proofs

open Sys2Proof Sys2Proof.Machine

/-- A register of a keeper past its page's header is a block's. -/
theorem keep_block {off : Nat} (hlo : 0x100 ≤ off) (hhi : off < 65536) (k : Nat) : BlockReg ((pgKeep k).key off) := by
  have hkey : (pgKeep k).key off / 65536 ≠ 1 ∧ (pgKeep k).key off % 65536 = off := by
    rw [pgKeep_key]
    split <;> omega
  refine ⟨hkey.1, fun hcount => ?_⟩
  rw [hkey.2] at hcount
  simp only [CountReg, oCAUSE, oFIRST, oOVF] at hcount
  omega

theorem delivers_keep {a b : Chan} (h : Delivers a b) (k : Nat) {f : Fld} (hlo : 0x100 ≤ f.off) (hhi : f.off < 65536) :
    b.getF (pgKeep k) f = a.getF (pgKeep k) f := Chan.getF_of_reg (h.regs _ (keep_block hlo hhi k))

/-- What the index of the cycle is taken from (R83). -/
theorem Chan.cycleIndex_congr {a b : Chan} (hstate : b.timeState = a.timeState) (hns : b.ns = a.ns) (htime : b.time = a.time) : b.cycleIndex = a.cycleIndex := by
  unfold Chan.cycleIndex Chan.timeNs
  rw [hstate, hns, htime]

theorem delivers_keepNat {a b : Chan} (h : Delivers a b) (k : Nat) {off : Nat} (hlo : 0x100 ≤ off) (hhi : off < 65536) :
    b.nat (pgKeep k) off = a.nat (pgKeep k) off :=
  congrArg BitVec.toNat (h.get (keep_block hlo hhi k))

section
variable {s : State} {c : Fin 4} {inp : CycleIn}

theorem completes_boundary (hr : Ready s c) : Completes (.keeperCycleBoundary c inp) s (fun t => Delivers ((s.chan c).boundary inp) (t.chan c)) :=
  ⟨_, congrArg Host.Outcome.next (State.onKeeper_of_ready hr _), State.runChan_delivers s c _⟩

/-- The cycle's count, end and index (R83, R85). -/
theorem completes_cycle (hr : Ready s c) : Completes (.keeperCycleBoundary c inp) s (fun t => (t.chan c).cycNo = (s.chan c).cycNo + 1 ∧
    (s.chan c).bnd ≤ (t.chan c).bnd ∧ (t.chan c).cycIdx = (t.chan c).nat pgKeepA KEEP.CYCLE_IDX) := by
  obtain ⟨t, hexec, hd⟩ := completes_boundary (inp := inp) hr
  obtain ⟨hno, hend⟩ := (s.chan c).judged_cycle inp
  have hrest := (s.chan c).boundary_indexed inp
  obtain ⟨hidx, hshown⟩ := ((s.chan c).judged inp).indexed_shown
  obtain ⟨hcno, hpair⟩ := Prod.mk.inj hrest.cycle
  obtain ⟨hcend, hcidx⟩ := Prod.mk.inj hpair
  have hnat : ((s.chan c).boundary inp).nat pgKeepA KEEP.CYCLE_IDX = ((s.chan c).judged inp).cycleIndex :=
    (congrArg BitVec.toNat (hrest.regs 0x110 (.inl rfl))).trans (hshown 0)
  refine ⟨t, hexec, ?_, ?_, ?_⟩
  · rw [hd.field (fun x : Chan => x.cycNo) (fun _ => rfl)]
    exact hcno.trans hno
  · rw [hd.field (fun x : Chan => x.bnd) (fun _ => rfl)]
    exact hend.trans hcend.ge
  · rw [hd.field (fun x : Chan => x.cycIdx) (fun _ => rfl), show (t.chan c).nat pgKeepA KEEP.CYCLE_IDX = _ from delivers_keepNat hd 0 (by decide) (by decide)]
    exact (hcidx.trans hidx).trans hnat.symm

/-- A boundary that leaves the channel without an active keeper (R83, R98). -/
theorem completes_idle (hr : Ready s c) (h : ∀ k : Fin 2, (s.chan c).kstate k.val ≠ 3 ∧ (s.chan c).kstate k.val ≠ 4) :
    Completes (.keeperCycleBoundary c inp) s (fun t =>
      (t.chan c).nat pgKeepA KEEP.CYCLE_IDX = (t.chan c).cycleIndex ∧ (t.chan c).nat pgKeepB KEEP.CYCLE_IDX = (t.chan c).cycleIndex ∧
      (t.chan c).inflight = none) := by
  obtain ⟨t, hexec, hd⟩ := completes_boundary (inp := inp) hr
  obtain ⟨hregs, hns, htime, hflight⟩ := Chan.boundary_idle inp h
  obtain ⟨-, hshown⟩ := ((s.chan c).judged inp).indexed_shown
  generalize (s.chan c).judged inp = x at hregs hns htime hshown
  have hstate : (t.chan c).timeState = x.timeState := by
    have hnot : ¬ IndexKey (pgCosy.key COSY.STATUS_STATE.off) := by
      unfold IndexKey
      decide
    have hblock : BlockReg (pgCosy.key COSY.STATUS_STATE.off) := by
      unfold BlockReg CountReg
      decide
    exact Chan.getF_of_reg ((hd.regs _ hblock).trans (by rw [hregs]; exact x.indexed_regs hnot))
  have hindex : (t.chan c).cycleIndex = x.cycleIndex := Chan.cycleIndex_congr hstate ((hd.field (fun y : Chan => y.ns) (fun _ => rfl)).trans hns)
    ((hd.field (fun y : Chan => y.time) (fun _ => rfl)).trans htime)
  have hword : ∀ k : Fin 2, (t.chan c).nat (pgKeep k.val) KEEP.CYCLE_IDX = x.cycleIndex := fun k => by
    rw [delivers_keepNat hd k.val (by decide) (by decide), Chan.nat, Chan.get, hregs]
    exact hshown k
  exact ⟨t, hexec, (hword 0).trans hindex.symm, (hword 1).trans hindex.symm, (hd.field (fun y : Chan => y.inflight) (fun _ => rfl)).trans hflight⟩

/-- A takeover at the boundary (R91, R94). -/
theorem completes_boundaryTakes {k : Fin 2} (hr : Ready s c) (hstate : (s.chan c).kstate k.val = 3)
    (hpartner : (s.chan c).kstate (1 - k.val) ≠ 3 ∧ (s.chan c).kstate (1 - k.val) ≠ 4)
    (hlevel : (s.chan c).claim k.val = (s.chan c).stbyLevel) (hne : (s.chan c).claim k.val ≠ 0)
    (hless : (s.chan c).claim (1 - k.val) < (s.chan c).claim k.val) (hword : (s.chan c).nat pgKeepA KEEP.CLAIM_LEVEL = (s.chan c).levels)
    (hlt : (s.chan c).levels < 65536) : Completes (.keeperCycleBoundary c inp) s (fun t =>
      (t.chan c).kstate k.val = 4 ∧ (t.chan c).claim k.val = (s.chan c).activeLevel ∧ (t.chan c).started = true) := by
  obtain ⟨t, hexec, hd⟩ := completes_boundary (inp := inp) hr
  obtain ⟨hruns, hclaim, hstarted⟩ := Chan.boundary_takes inp hpartner hstate hlevel hne hless hword hlt
  exact ⟨t, hexec, (delivers_keep hd k.val (by decide) (by decide)).trans hruns, (delivers_keep hd k.val (by decide) (by decide)).trans hclaim,
    (hd.field (fun y : Chan => y.started) (fun _ => rfl)).trans hstarted⟩

end

section
variable {s : State} {c : Fin 4} {k bad : Nat} (hr : Ready s c) (hact : (s.chan c).active = some k) (hup : (s.chan c).saucerUp = true)
  (hstate : (s.chan c).kstate (1 - k) = 3)
include hr hact hup hstate

/-- A copy that comes through is in flight (R98). -/
theorem completes_copy (hbad : bad = 0 ∨ (bad = 1 ∧ (s.chan c).saucerNarrow = false)) : Completes (.copyPoint c false bad) s (fun t => KeeperFrame s t c ∧
    (t.chan c).inflight = some ((s.chan c).copied k) ∧ (t.chan c).inflightTo = 1 - k ∧ (t.chan c).inflightEnd = (t.chan c).ns + copyNs * (1 + bad)) := by
  obtain ⟨x, hx⟩ : ∃ x, x = (s.chan c).runTo ((s.chan c).cycAt + 170000) := ⟨_, rfl⟩
  have hticks : Ticks (s.chan c) x := hx ▸ .runTo _ _
  have hsent := Chan.copyPoint_sent hact hup hstate hbad
  rw [← hx] at hsent
  have honly : KeeperOnly x ((s.chan c).copyPoint false bad) := by
    rw [hsent]
    exact .of_work rfl rfl rfl
  refine completes_keeper hr rfl hticks honly (fun u hframe hcalm => ?_)
  have hd := Delivers.of_calm hcalm
  have hcopied : Chan.copied { x with cpCyc := (s.chan c).cycNo } k = (s.chan c).copied k := hticks.copied k
  refine ⟨hframe, ?_, ?_, ?_⟩
  · rw [hd.field (fun y : Chan => y.inflight) (fun _ => rfl), hsent]
    exact congrArg some hcopied
  · rw [hd.field (fun y : Chan => y.inflightTo) (fun _ => rfl), hsent]
  · rw [hd.field (fun y : Chan => y.inflightEnd) (fun _ => rfl), hd.field (fun y : Chan => y.ns) (fun _ => rfl), hsent]

/-- A copy whose transfers fail (R98, R581). -/
theorem completes_copyFails (hbad : 2 ≤ bad ∨ (bad = 1 ∧ (s.chan c).saucerNarrow = true)) : Completes (.copyPoint c false bad) s (fun t =>
    KeeperFrame s t c ∧ (t.chan c).inflight = none ∧ (t.chan c).copyBad = (s.chan c).copyBad + 1) := by
  obtain ⟨x, hx⟩ : ∃ x, x = (s.chan c).runTo ((s.chan c).cycAt + 170000) := ⟨_, rfl⟩
  have hticks : Ticks (s.chan c) x := hx ▸ .runTo _ _
  have hfailed := Chan.copyPoint_failed hact hup hstate hbad
  rw [← hx] at hfailed
  have hcyc : ∀ n, KeeperOnly x { x with cpCyc := n } := fun n => .of_work rfl rfl rfl
  have honly : KeeperOnly x ((s.chan c).copyPoint false bad) := by
    rw [hfailed]
    exact Spares.trans (hcyc _) (Side.copyFail _ _ _).keeperOnly
  have hcount : x.copyBad = (s.chan c).copyBad := by
    have hwork := congrArg (fun y : Chan => y.copyBad) hticks.work
    exact hwork
  obtain ⟨hnone, hcopyBad⟩ := Chan.copyFail_fields { x with cpCyc := (s.chan c).cycNo } k (1 - k)
  refine completes_keeper hr rfl hticks honly (fun u hframe hcalm => ?_)
  have hd := Delivers.of_calm hcalm
  refine ⟨hframe, ?_, ?_⟩
  · rw [hd.field (fun y : Chan => y.inflight) (fun _ => rfl), hfailed]
    exact hnone
  · rw [hd.field (fun y : Chan => y.copyBad) (fun _ => rfl), hfailed]
    exact hcopyBad.trans (congrArg (· + 1) hcount)

/-- A delta that is too big starts a resync (R99). -/
theorem completes_copyTooBig (hresync : ((s.chan c).keeper (1 - k)).resync = false) : Completes (.copyPoint c true bad) s (fun t => KeeperFrame s t c ∧
    ((t.chan c).keeper (1 - k)).resync = true ∧ (t.chan c).getB (pgKeep (1 - k)) KEEP.STATUS_REGION_VALID = false ∧
    (t.chan c).inflight = (s.chan c).inflight) := by
  obtain ⟨x, hx⟩ : ∃ x, x = (s.chan c).runTo ((s.chan c).cycAt + 170000) := ⟨_, rfl⟩
  have hticks : Ticks (s.chan c) x := hx ▸ .runTo _ _
  have hbig := Chan.copyPoint_tooBig hact hup hstate hresync bad
  rw [← hx] at hbig
  obtain ⟨y, hy⟩ : ∃ y, y = { x with cpCyc := (s.chan c).cycNo } := ⟨_, rfl⟩
  rw [← hy] at hbig
  have hyonly : KeeperOnly x y := by
    rw [hy]
    exact .of_work rfl rfl rfl
  have honly : KeeperOnly x ((s.chan c).copyPoint true bad) := by
    rw [hbig]
    exact Spares.trans hyonly (Spares.trans (KeeperOnly.putKeeper y (1 - k) _) (Spares.trans (KeeperOnly.putState _ (1 - k) KEEP.STATUS_RESYNC_DONE 0 (.inl rfl))
      (KeeperOnly.putState _ (1 - k) KEEP.STATUS_REGION_VALID 0 (.inl rfl))))
  have hflight : y.inflight = (s.chan c).inflight := by
    rw [hy]
    have hwork := congrArg (fun z : Chan => z.inflight) hticks.work
    exact hwork
  refine completes_keeper hr rfl hticks honly (fun u hframe hcalm => ?_)
  have hd := Delivers.of_calm hcalm
  refine ⟨hframe, ?_, ?_, ?_⟩
  · rw [calm_keeper hcalm, hbig]
    exact congrArg Keeper.resync (y.onKeep_keeper (1 - k) _)
  · rw [Chan.getB, delivers_keep hd (1 - k) (by decide) (by decide), hbig, Chan.getF_putF_same _ _ _ _ (by decide) (by decide)]
    rfl
  · rw [hd.field (fun z : Chan => z.inflight) (fun _ => rfl), hbig]
    exact (Chan.onKeep_inflight _ _ _).trans hflight

end

/-- The Saucer link comes up (R100). -/
theorem completes_saucerUp {s : State} {c : Fin 4} (hr : Ready s c) (hdown : (s.chan c).saucerUp = false) : Completes (.saucerLinkUp c) s (fun t =>
    (t.chan c).saucerUp = true ∧ (t.chan c).getB pgKeepB KEEP.STATUS_SAUCER_UP = true ∧ (t.chan c).saucerDown = 0) := by
  obtain ⟨f, y, hf, hexec⟩ : ∃ (f : Chan → Chan) (y : Chan), f (s.chan c) = ((((Chan.saucerSet { y with saucerDown := 0 } true).keepClear 0).keepClear 1).journal
      (pgKeep ((s.chan c).active.getD 0)) clsCorrected 0xA) ∧ exec (.saucerLinkUp c) s = .next (s.onKeeper c f) := by
    refine ⟨_, if (s.chan c).nat (pgBrdg 0) BRDG.SAUCER = 0 then ((s.chan c).putN (pgBrdg 0) BRDG.SAUCER 15).putN (pgBrdg 1) BRDG.SAUCER 15 else s.chan c,
      ?_, rfl⟩
    dsimp only
    rw [hdown]
    rfl
  rw [State.onKeeper_of_ready hr] at hexec
  have hd := State.runChan_delivers s c f
  rw [hf] at hd
  replace hd : Delivers _ ((s.runChan c f).chan c) := (Delivers.journal _ _ _ _ _).trans hd
  have hboth : ∀ k : Fin 2, ((s.runChan c f).chan c).getB (pgKeep k.val) KEEP.STATUS_SAUCER_UP = true := fun k => by
    rw [Chan.getB, delivers_keep hd k.val (by decide) (by decide), ← Chan.getB, (Chan.keepClear_kept _ 1 k.val (by decide) (by decide)).1,
      (Chan.keepClear_kept _ 0 k.val (by decide) (by decide)).1]
    exact Chan.saucerSet_up _ k
  refine ⟨_, hexec, hboth 0, hboth 1, ?_⟩
  rw [hd.field (fun z : Chan => z.saucerDown) (fun _ => rfl), (Chan.keepClear_kept _ 1 0 (f := KEEP.STATUS_SAUCER_UP) (by decide) (by decide)).2,
    (Chan.keepClear_kept _ 0 0 (f := KEEP.STATUS_SAUCER_UP) (by decide) (by decide)).2]
  rfl

/-- Settles O22: a boundary's parts up to its index keep the count and the end of the cycle, and those after it keep the index; without an active keeper they keep
states and claims too, so that the keeper that may rise is known beforehand. -/
theorem keeperBoundaries : Obligations.KeeperBoundaries := by
  unfold Obligations.KeeperBoundaries
  refine ⟨⟨fun s c inp hr => completes_cycle hr, fun s c inp hr h => completes_idle hr h⟩, ?_, ?_, fun s c hr hdown => completes_saucerUp hr hdown⟩
  · intro s c k inp hr hstate hno3 hno4 hlevel hne hless hword hlt
    exact completes_boundaryTakes hr hstate ⟨hno3, hno4⟩ hlevel hne hless hword hlt
  · intro s c k hr hact hup hstate hresync
    exact ⟨fun bad hbad => completes_copy hr hact hup hstate hbad, fun bad hbad => completes_copyFails hr hact hup hstate hbad,
      fun bad => completes_copyTooBig hr hact hup hstate hresync⟩

end Sys2Proof.Proofs
end
